-- ==== Sys2Proof/Word.lean ====
section
/-! DEFINITION. The machine's words: 32-bit registers, bytes, and reading or replacing a bit range
written [hi:lo] as the spec writes it (R6). -/

namespace Sys2Proof

/-- A register or parameter store word (R6). -/
abbrev Word := BitVec 32

/-- A byte of any bank. -/
abbrev Byte := BitVec 8

namespace Word

/-- The value of bits [hi:lo] of a word (R6). -/
def bits (w : Word) (hi lo : Nat) : Nat := (w.toNat / 2 ^ lo) % 2 ^ (hi + 1 - lo)

/-- Bit n of a word. -/
def bit (w : Word) (n : Nat) : Bool := w.getLsbD n

/-- The word with bits [hi:lo] replaced by v, taken modulo the field's width. -/
def setBits (w : Word) (hi lo v : Nat) : Word :=
  BitVec.ofNat 32 (w.toNat - w.bits hi lo * 2 ^ lo + (v % 2 ^ (hi + 1 - lo)) * 2 ^ lo)

/-- The low half of a register (R7, R403). -/
def lowHalf (w : Word) : BitVec 16 := w.extractLsb' 0 16

/-- The high half of a register (R7, R403). -/
def highHalf (w : Word) : BitVec 16 := w.extractLsb' 16 16

/-- The word of two halves, the low half first (R7). -/
def ofHalves (lo hi : BitVec 16) : Word := hi ++ lo

/-- Byte k (0 to 3) of a word, little-endian (R7). -/
def byte (w : Word) (k : Nat) : Byte := w.extractLsb' (8 * k) 8

/-- The word of four bytes, the lowest address first (R7). -/
def ofBytes (b0 b1 b2 b3 : Byte) : Word := b3 ++ b2 ++ b1 ++ b0

/-- One mask word: all 32 bits. -/
def all : Word := 0xFFFFFFFF

/-- Merge: the bits of `new` where the mask is 1, of `old` elsewhere. -/
def merge (old new mask : Word) : Word := (old &&& ~~~mask) ||| (new &&& mask)

end Word

/-- Convergent rounding of n / d to an integer: nearest, a tie to the even neighbour (R197, R287). -/
def rneDiv (n : Int) (d : Nat) : Int :=
  let q := n / (d : Int)
  let r2 := 2 * (n % (d : Int))
  if r2 < d then q else if r2 > d then q + 1 else if q % 2 = 0 then q else q + 1

/-- Rounding of n / d half away from zero, for n at or above 0 (R166, R231). -/
def roundHalfUp (n d : Nat) : Nat := (2 * n + d) / (2 * d)

/-- Division rounded toward zero (R160, R195, R196). -/
def truncDiv (n : Int) (d : Nat) : Int := if 0 ≤ n then n / (d : Int) else -((-n) / (d : Int))

/-- The value held to [lo, hi]. -/
def clampInt (lo hi x : Int) : Int := if x < lo then lo else if hi < x then hi else x

/-- Saturation to a signed value of n bits. -/
def satSigned (n : Nat) (x : Int) : Int := clampInt (-(2 ^ (n - 1) : Int)) (2 ^ (n - 1) - 1) x

/-- Two's complement reading of the low n bits of a value (R6). -/
def signed (n v : Nat) : Int :=
  let w := v % 2 ^ n
  if w < 2 ^ (n - 1) then (w : Int) else (w : Int) - 2 ^ n

/-- Two's complement code of n bits of an integer. -/
def unsigned (n : Nat) (x : Int) : Nat := (x % (2 ^ n : Int)).toNat

/-- One more, held at a top value: a saturating count. -/
def satInc (top x : Nat) : Nat := if x < top then x + 1 else x

end Sys2Proof
end

