-- ==== Sys2Proof/Syntax.lean ====
section
/-! DEFINITION. The commands of the DY256: one constructor for each row of the spec's table of
operations and events, with the operands the row's rule names. -/

namespace Sys2Proof

/-- The two cascade ports of a device (R526). -/
inductive CasPort where
  | downstream  -- faces the master: CAS_DTX, CAS_DRX
  | upstream    -- faces away from the master: CAS_UTX, CAS_URX
  deriving DecidableEq, Repr

/-- The kinds of output-leg fault (R351, FKIND codes 01b, 10b, 11b). -/
inductive LegFault where
  | openLeg
  | high
  | low
  deriving DecidableEq, Repr

/-- One command of the block: a write, a read, a protocol operation, a pin event or a step of one of
the block's own engines.  Each docstring is the row's summary and its rule.  `ok` says whether the attached flash completes
the row's erases and programs (log 28), as a flash in order does; `level` and `width` are the pulse on the pin of an IR
receiver, none unless they are given (R394). -/
inductive Instr where
  /-- REGISTER_WRITE (R8). A committed write to a register that has no row of its own sets its fields according to their access codes. -/
  | registerWrite (addr : Nat) (value : Word)
  /-- LOCK (R12). Writing 1 to GLB_LOCK.LOCK makes every RWL field read-only until reset. -/
  | lock (value : Word)
  /-- HOST_LOW_HALF_READ (R408). A host low-half read returns bits 15:0 and takes the high-half snapshot, applying any read side effect at the end of the strobe. -/
  | hostLowHalfRead (ha : Nat)
  /-- HOST_HIGH_HALF_READ (R408). A host high-half read returns the snapshot if the tag matches, otherwise the live high half. -/
  | hostHighHalfRead (ha : Nat)
  /-- HOST_LOW_HALF_WRITE (R409). A host low-half write stores data and byte enables in the holding register and tags its address. -/
  | hostLowHalfWrite (ha : Nat) (data : BitVec 16) (be : BitVec 2)
  /-- HOST_HIGH_HALF_WRITE (R409). A host high-half write to the tagged address commits the 32-bit word at the rising HWE_N. -/
  | hostHighHalfWrite (ha : Nat) (data : BitVec 16) (be : BitVec 2)
  /-- AON_RESPONDER_READ (R422). While HOSTP is not ON, the AON responder answers every read with AON_STATUS. -/
  | aonResponderRead (ha : Nat)
  /-- AON_WAKE (R423). A committed AON_WAKE write with the correct key requests a wake of the named domain. -/
  | aonWake (value : Word)
  /-- PARAM_STORE_HOST_WRITE (R413). A committed port H write to the parameter store is posted to the H write queue, stamped with its EF. -/
  | paramStoreHostWrite (addr : Nat) (value : Word) (be : BitVec 4)
  /-- PARAM_STORE_LANDING (R413). At release k+2, queued H writes stamped k land in commit order after that release's V writes. -/
  | paramStoreLanding
  /-- EF_RELEASE (R41). The frame timer issues an EF release every 64 REFCLK edges and increments the 40-bit EF counter. -/
  | efRelease
  /-- CF_BOUNDARY (R35). At each CF boundary each cluster reads the voice parameters that may change while a voice sounds. -/
  | cfBoundary
  /-- REF_LOST (R39). With no REFCLK edge for 4 AON periods, REF_VALID clears, the frame timer halts, outputs park, and the loss is logged with FAULT_N. -/
  | refLost
  /-- REF_VALID (R40). After 65,536 gap-free REFCLK edges, REF_VALID sets and the frame timer resumes with Skimmer resets and output hold parks. -/
  | refValid
  /-- ENGINE_ENABLE (R44). Setting GLB_FRAME_CTL.ENG_EN lets releases reach the audio pipelines, with the resume sequence of R40. -/
  | engineEnable (value : Word)
  /-- ENGINE_DISABLE (R44). Clearing ENG_EN stops the audio pipelines at the next release and parks every output DAC without a ramp. -/
  | engineDisable (value : Word)
  /-- CLUSTER_FRAME_DELIVERED (R42). A cluster pipeline completes and delivers its results for frame k. -/
  | clusterFrameDelivered (c : Nat) (slack : Nat)
  /-- DEADLINE_MISS (R57). A cluster that has not delivered frame k by release k+1 has its last contribution held, and the late frame is counted and logged. -/
  | deadlineMiss (c : Nat)
  /-- CLUSTER_FLUSH (R59). Release k+2 arriving with frame k unfinished makes the cluster run state-only steps and reset its Skimmer, while its held output fades. -/
  | clusterFlush (c : Nat)
  /-- GUARD_WINDOW_END (R60). A guard window of 1,024 guard EF ends with fewer than four late EF and closes without effect. -/
  | guardWindowEnd
  /-- GUARD_STEP_DOWN (R61). CLEAN reaching 65,536 guard EF while STEPS > 0 decreases STEPS by 1. -/
  | guardStepDown
  /-- VID_WINDOW_END (R54). At the end of each 4,096 EF window, the firmware applies the VID loop to the window's minimum slack. -/
  | vidWindowEnd
  /-- VID_SETTLED (R55). The VDD_CORE monitor reports the rail within ±15 mV and the settling wait ends, applying any latest pending request. -/
  | vidSettled
  /-- VID_SETTLE_TIMEOUT (R55). The 200 µs settling wait ends by timeout and is logged. -/
  | vidSettleTimeout
  /-- SLACK_MIN_CLEAR (R70). Writing GLB_SLACKc.MIN_CLR = 1 sets MIN to 3Fh. -/
  | slackMinClear (c : Nat) (value : Word)
  /-- POWER_ON_RESET (R71). VDD_AON falling below valid resets every register and sets GLB_RESET_CAUSE to POR only. -/
  | powerOnReset
  /-- RESET_PIN (R72). A RESET_N low pulse resets the device and sets RESET_CAUSE.PIN. -/
  | resetPin (widthNs : Nat)
  /-- SOFTWARE_RESET (R72). Writing 0000_A5C3h to GLB_RESET resets the device like a RESET_N pulse. -/
  | softwareReset (value : Word)
  /-- WATCHDOG_RESET (R498). The AON watchdog expires after 100 ms unserviced and resets the device with RESET_CAUSE.WDOG. -/
  | watchdogReset
  /-- FALLBACK_RESET (R106). A slot failing after its firmware started records the AON marker and resets the device so the other slot boots. -/
  | fallbackReset
  /-- STRAP_LATCH (R73). The strap pins are latched 8 AON periods after VDD_AON valid and RESET_N high, and FAULT_N is released. -/
  | strapLatch (casPos : BitVec 3) (xtalSel : Bool) (bootSrc : BitVec 2)
  /-- NVM_RESET (R76). At step 4 the ROM issues the flash reset commands in octal and single-lane form and starts a 100 µs wait. -/
  | nvmReset
  /-- NVM_RESET_WAIT_END (R76). The 100 µs wait ends and the ROM reads the boot records, header and section table. -/
  | nvmResetWaitEnd
  /-- FIRMWARE_START (R90). The firmware section passes CRC, signature and version checks and the ROM starts it. -/
  | firmwareStart
  /-- REGINIT_WRITE (R97). A register list WRITE entry writes VALUE to ADDR. -/
  | reginitWrite (addr : Nat) (value : Word)
  /-- REGINIT_SET (R97). A SET entry reads ADDR, ORs it with VALUE and writes it back. -/
  | reginitSet (addr : Nat) (value : Word)
  /-- REGINIT_CLEAR (R97). A CLEAR entry reads ADDR, clears the VALUE bits and writes it back. -/
  | reginitClear (addr : Nat) (value : Word)
  /-- REGINIT_POLL (R97). A POLL entry reads ADDR until a masked bit is set. -/
  | reginitPoll (arg : Nat) (addr : Nat) (value : Word)
  /-- REGINIT_POLL_TIMEOUT (R97). A POLL that exceeds ARG × 10 µs fails the list and the slot. -/
  | reginitPollTimeout
  /-- REGINIT_DELAY (R97). A DELAY entry starts a wait of ARG µs timed from REFCLK. -/
  | reginitDelay (arg : Nat)
  /-- REGINIT_DELAY_END (R97). The DELAY wait expires and the list continues with its next entry. -/
  | reginitDelayEnd
  /-- REGINIT_FILL (R97). A FILL entry writes VALUE to ARG consecutive registers. -/
  | reginitFill (arg : Nat) (addr : Nat) (value : Word)
  /-- WAVE_STREAM_DONE (R101). Streaming of a WAVEDATA or OUTWAVE section completes and its CRC is checked. -/
  | waveStreamDone
  /-- FOREGROUND_CALIBRATION_START (R327). Once the parameter sections and phase 00h lists are done, foreground calibration of all 256 cells begins. -/
  | foregroundCalibrationStart
  /-- FOREGROUND_CALIBRATION_DONE (R327). Foreground calibration completes and writes every calibration record. -/
  | foregroundCalibrationDone
  /-- ENGINE_STAGE (R99). When calibration and streaming are complete, the phase 01h lists run and ENG_EN is set, or the device stops in HELD. -/
  | engineStage
  /-- CONTINUE (R112). In HELD, writing GLB_BOOT_CTL.CONTINUE sets ENG_EN and enters RUN. -/
  | continueBoot (value : Word)
  /-- RETRY (R112). In NO_IMAGE or ROM_WAIT, writing GLB_BOOT_CTL.RETRY clears the marker and restarts step 4. -/
  | retry (value : Word)
  /-- HOST_POST (R141). Writing ALM_POST_GO.GO commits the staged task to the Almanac. -/
  | hostPost (value : Word)
  /-- MGMT_POST (R124). The management processor posts a task to the Almanac. -/
  | mgmtPost (image : List Word)
  /-- ALM_ARBITRATION_ROUND (R139). An Almanac round releases tasks, applies at most one cancel and fills local slots. -/
  | almArbitrationRound
  /-- EPHEMERIS_DUE (R125). A delayed task whose due tick begins moves from its ephemeris list to its ready list. -/
  | ephemerisDue (idx : Nat)
  /-- ALM_TICK (R134). ALM_TICK_NOW increases by 1 at every DIV-th EF release. -/
  | almTick
  /-- TASK_DISPATCH (R132). A target takes a task from its local slot and the task becomes ACTIVE. -/
  | taskDispatch (idx : Nat)
  /-- TASK_WORK_DONE (R126). The target finishes a task's work and the task becomes DONE. -/
  | taskWorkDone (idx : Nat)
  /-- MGMT_TASK_DONE (R128). The firmware marks a management task DONE and it commits at the next release. -/
  | mgmtTaskDone (idx : Nat)
  /-- HOST_CANCEL (R138). The high-half write of ALM_CANCEL registers a cancel by tag and mask in the scoped flows. -/
  | hostCancel (value : Word)
  /-- FLUSH (R140). Writing ALM_CTL.FLUSH cancels every uncommitted task. -/
  | flush (value : Word)
  /-- ALM_DONE_READ (R142). A low-half read of ALM_DONE returns and removes the oldest done FIFO entry. -/
  | almDoneRead
  /-- NOTE_ON (R172). A committing NOTE_ON allocates voices in each matching part, stealing as needed. -/
  | noteOn (idx : Nat)
  /-- DEFERRED_NOTE_ARM (R177). A deferred note-on arms ahead of the EF's own commits once the arming limit allows. -/
  | deferredNoteArm
  /-- NOTE_OFF (R168). A NOTE_OFF releases or marks the part's voices of that key, subject to the pedals. -/
  | noteOff (idx : Nat)
  /-- POLY_PRESSURE (R168). POLY_PRESSURE sets PN_PRESSURE of the part's voices on that key. -/
  | polyPressure (idx : Nat)
  /-- CC (R168). A CC task stores the 7-bit value in each matching part's CC table. -/
  | cc (idx : Nat)
  /-- BANK_SELECT (R169). CC0 or CC32 sets the upper or lower bits of the part's BANK. -/
  | bankSelect (idx : Nat)
  /-- SUSTAIN (R169). CC64 changes the sustain pedal, releasing sustained voices when it goes up. -/
  | sustain (idx : Nat)
  /-- SOSTENUTO (R169). CC66 marks the sounding voices on pedal down and releases the noted-off ones on pedal up. -/
  | sostenuto (idx : Nat)
  /-- ALL_SOUND_OFF (R169). CC120 sends the part's sounding voices to STEALING and its ARMING voices to QUENCH. -/
  | allSoundOff (idx : Nat)
  /-- RESET_ALL_CONTROLLERS (R169). CC121 centres the bends, zeroes pressures and timbre and lifts the pedals. -/
  | resetAllControllers (idx : Nat)
  /-- ALL_NOTES_OFF (R169). CC123 applies a note-off for every key with an ARMING or SOUNDING voice. -/
  | allNotesOff (idx : Nat)
  /-- PROGRAM (R170). PROGRAM sets the part's PATCH from its program map. -/
  | program (idx : Nat)
  /-- PITCH_BEND (R168). PITCH_BEND sets the part's BEND, or PN_BEND of voices on a member channel. -/
  | pitchBend (idx : Nat)
  /-- CHAN_PRESSURE (R168). CHAN_PRESSURE sets the part's PRESSURE, or PN_PRESSURE on a member channel. -/
  | chanPressure (idx : Nat)
  /-- PARAM_SET (R117). PARAM_SET writes the masked value to a parameter store word on port V at its commit. -/
  | paramSet (idx : Nat)
  /-- VOICE_KILL (R179). VOICE_KILL sends the named voice to STEALING or QUENCH. -/
  | voiceKill (idx : Nat)
  /-- TIMER_FIRE (R118). TIMER_FIRE sends an ALM_TIMER pulse on the event bus at its commit. -/
  | timerFire (idx : Nat)
  /-- SYSEX_DONE (R391). The management processor takes a routed system exclusive message from its buffer and frees the buffer at commit. -/
  | sysexDone (idx : Nat) (ok : Bool := true)
  /-- USER (R507). A USER task logs a HOST entry from its data and commits. -/
  | user (idx : Nat)
  /-- FIRST_SAMPLE (R165). At release e+4 the voice computes its first sample and enters SOUNDING. -/
  | firstSample (v : Nat)
  /-- STEAL_FADE_END (R166). At release s+F the stolen voice's fade ends and it enters QUENCH. -/
  | stealFadeEnd (v : Nat)
  /-- QUENCH_SWITCH_OPEN (R267). 1 µs into EF q the quench switch opens and the ADC restarts from zero. -/
  | quenchSwitchOpen (v : Nat)
  /-- QUENCH_END (R167). At release q+3 the quenched voice becomes FREE and the feedback resumes. -/
  | quenchEnd (v : Nat)
  /-- ENV0_COMPLETE (R237). At release z+6 after ENV0 reaches zero, the RELEASING voice becomes FREE and is quenched. -/
  | env0Complete (v : Nat)
  /-- SAMPLE_END_VOICE (R204). When every END_VOICE sample oscillator has ended, the voice enters RELEASING at the next release. -/
  | sampleEndVoice (v : Nat)
  /-- CACHE_LINE_FILL (R213). A wave DRAM line arrives and fills a way of the cluster's wave cache. -/
  | cacheLineFill (c : Nat) (line : Nat)
  /-- WAVE_CACHE_INVAL (R217). Writing CLU_WC_CTL.INVAL invalidates every unpinned line at once. -/
  | waveCacheInval (c : Nat) (value : Word)
  /-- PINNED_LINE_INVAL (R217). A pinned line awaiting invalidation is invalidated when it unpins. -/
  | pinnedLineInval (c : Nat) (line : Nat)
  /-- ENV_SEGMENT_END (R234). An envelope segment reaches its length in EF and the next segment begins. -/
  | envSegmentEnd (v : Nat) (env : Nat)
  /-- GLFO_RESTART (R242). Writing a bit of ALC_GLFO_RESTART resets that global LFO's phase at a later CF boundary. -/
  | glfoRestart (value : Word)
  /-- ADC_OVERLOAD (R272). A full-scale run reaching 64 Fm periods declares overload and optionally resets the ADC loop. -/
  | adcOverload (v : Nat)
  /-- BIAS_FAULT (R280). A cell's bias current leaves its trim range and BIAS_FAULT sets. -/
  | biasFault (v : Nat)
  /-- SWAP (R298). Writing CLU_SKM_BANK.SWAP requests a stage C bank swap, held if a fade runs. -/
  | swap (c : Nat) (value : Word)
  /-- SWAP_ALL (R301). Writing CLU_SKM_BANK.ALL requests a swap in every ON cluster. -/
  | swapAll (c : Nat) (value : Word)
  /-- FADE_START (R298). A pending swap's fade starts at its release, switching ACTIVE and setting FADING. -/
  | fadeStart (c : Nat)
  /-- FADE_END (R298). After 2^F EF the fade ends and FADING clears. -/
  | fadeEnd (c : Nat)
  /-- SKIMMER_COEF_WRITE (R302). A coefficient write is stored for an inactive bank or ignored for a live one. -/
  | skimmerCoefWrite (c : Nat) (bank : Bool) (i : Nat) (value : Word)
  /-- SKIMMER_RESET (R303). Writing CLU_SKM_CTL.RESET, or changing LEN_M, schedules a synchronising reset at release k+2. -/
  | skimmerReset (c : Nat) (value : Word)
  /-- SYNCHRONISING_RESET (R304). At release r the Skimmer clears every history and outputs zero for 12 EF. -/
  | synchronisingReset (c : Nat)
  /-- SKIMMER_VALID (R304). At r+12 VALID sets and the first valid Skimmer outputs are delivered. -/
  | skimmerValid (c : Nat)
  /-- MEASUREMENT_RESULT (R319). At release r+S+N+4 a Transit detector measurement result is ready. -/
  | measurementResult (v : Nat)
  /-- TEMPERATURE_UPDATE (R496). The firmware passes each cluster's temperature reading to its voice slices. -/
  | temperatureUpdate (c : Nat)
  /-- BACKGROUND_RUN_START (R331). A queued slot starts its background run once its cell is FREE and the cluster has room. -/
  | backgroundRunStart (v : Nat)
  /-- BACKGROUND_RUN_COMPLETE (R332). A background run completes and writes the whole record at one release. -/
  | backgroundRunComplete (v : Nat)
  /-- CAL_REQ (R338). Writing CAL_REQ.GO queues the named slot for background calibration. -/
  | calReq (value : Word)
  /-- OUTPUT_ENABLE (R349). Setting an OUT_EN bit starts the channel's ramp up. -/
  | outputEnable (value : Word)
  /-- OUTPUT_DISABLE (R349). Clearing an OUT_EN bit starts the channel's ramp down. -/
  | outputDisable (value : Word)
  /-- RANGE_CHANGE (R350). A write to OUT_RANGE begins a ramp down, park and ramp up with the new range. -/
  | rangeChange (value : Word)
  /-- RAMP_UP_DONE (R349). The ramp weight reaches 64 and the channel is ON. -/
  | rampUpDone (i : Nat)
  /-- RAMP_DOWN_DONE (R349). The ramp weight reaches 0 and the channel parks or enters RANGE_PARK. -/
  | rampDownDone (i : Nat)
  /-- RANGE_PARK_END (R349). After exactly 1 EF in RANGE_PARK the new range is switched and the ramp up begins. -/
  | rangeParkEnd (i : Nat)
  /-- HOLD_PARK_END (R349). After 64 EF in HOLD_PARK the channel starts its ramp up. -/
  | holdParkEnd (i : Nat)
  /-- OUTPUT_FAULT (R351). A leg meeting a fault condition for 4 EF raises a fault and the channel enters FAULT_RAMP. -/
  | outputFault (i : Nat) (legN : Bool) (kind : LegFault) (mv : Nat)
  /-- FAULT_RAMP_DONE (R349). The fault ramp reaches zero and the channel enters FAULT_PARK. -/
  | faultRampDone (i : Nat)
  /-- FAULT_RETRY (R352). 65,536 EF after FAULT_PARK, a channel set to retry starts a ramp up. -/
  | faultRetry (i : Nat)
  /-- OUT_FAULT_CLEAR (R352). Writing 1 to an OUT_FAULT bit clears the flag and restarts a parked channel. -/
  | outFaultClear (value : Word)
  /-- PLAYER_GO (R354). Writing GO checks and starts the waveform player from sample 0. -/
  | playerGo (i : Nat) (value : Word)
  /-- PLAYER_STOP (R354). Writing STOP zeroes the player output and clears BUSY. -/
  | playerStop (i : Nat) (value : Word)
  /-- PLAYER_TRIGGER (R354). A CMP0 match of the selected chronograph starts the player. -/
  | playerTrigger (i : Nat)
  /-- PLAYER_END (R354). A one-shot player finishes its LENGTH samples, holds the last and clears BUSY. -/
  | playerEnd (i : Nat)
  /-- TDM_PORT_ENABLE (R360). Setting a TDM port's EN starts framing at a release at or after k+2. -/
  | tdmPortEnable (n : Nat) (value : Word)
  /-- TDM_PORT_DISABLE (R360). Clearing EN stops the port at the end of its present frame. -/
  | tdmPortDisable (n : Nat) (value : Word)
  /-- TDM_PORT_STOP (R360). The port's present frame ends after EN was cleared and the port stops. -/
  | tdmPortStop (n : Nat)
  /-- TDMO_FRAME (R361). A TDM output frame begins and carries the decimated bus samples of its slots. -/
  | tdmoFrame (n : Nat)
  /-- TDMI_FRAME (R362). A complete TDM input frame is delivered to the external voices at the next release. -/
  | tdmiFrame (n : Nat) (slots : List Word)
  /-- TDM_LOCK (R363). A slave port sees two FS edges one frame apart, locks and latches PHASE. -/
  | tdmLock (n : Nat) (phase : Nat)
  /-- TDM_SLIP (R364). A misplaced FS edge drops lock, discards the frame and is logged. -/
  | tdmSlip (n : Nat)
  /-- TDM_LOSS (R364). A missing FS edge or BCLK drops lock, discards the frame and is logged. -/
  | tdmLoss (n : Nat)
  /-- MODE_CHANGE (R374). A write to a serial port's MODE takes effect at once, abandoning reception and resetting the parser. -/
  | modeChange (n : Nat) (value : Word)
  /-- DIV_WRITE (R373). A write to SER_DIVn sets the baud divisor or is rejected below the minimum. -/
  | divWrite (n : Nat) (value : Word)
  /-- RX_FLUSH (R382). Writing RX_FLUSH empties the RX FIFO. -/
  | rxFlush (n : Nat) (value : Word)
  /-- TX_FLUSH (R382). Writing TX_FLUSH empties the TX FIFO. -/
  | txFlush (n : Nat) (value : Word)
  /-- TX_BREAK (R383). Setting TX_BREAK holds SPn_TX low from the end of the present character. -/
  | txBreak (n : Nat) (value : Word)
  /-- TX_BREAK_CLEAR (R383). Clearing TX_BREAK returns the line high for a character time before the next character. -/
  | txBreakClear (n : Nat) (value : Word)
  /-- START_BIT (R375). The armed receiver sees a low sample and begins a character, discarding a glitch. -/
  | startBit (n : Nat) (low : Bool) (level : Bool := true) (width : Nat := 0)
  /-- CHARACTER_RECEIVED (R376). A character completes at its stop-bit sample point and enters the RX FIFO. -/
  | characterReceived (n : Nat) (data : BitVec 8) (parity : Bool) (stop : Bool)
  /-- RECEIVER_REARM (R378). After a framing error the receiver re-arms after 8 high oversamples. -/
  | receiverRearm (n : Nat)
  /-- BREAK (R379). A line low for 2 character times is a BREAK, flagged and stored or resetting the parser. -/
  | breakDetected (n : Nat)
  /-- LINE_DEAD (R380). A line low for LINE_DEAD_TIME is declared dead, the parser resets and the wake detector disarms. -/
  | lineDead (n : Nat)
  /-- LINE_RECOVER (R380). The line stays high for one character time, clearing LINE_DEAD and re-arming the wake detector. -/
  | lineRecover (n : Nat)
  /-- SER_TX_WRITE (R383). Writing SER_TXn pushes a byte to the TX FIFO, dropping it with TX_OVF if full. -/
  | serTxWrite (n : Nat) (value : Word)
  /-- CHARACTER_SENT (R383). The transmitter completes a character and starts the next waiting byte. -/
  | characterSent (n : Nat)
  /-- SER_RX_READ (R381). A low-half read of SER_RXn pops the RX FIFO head in UART or IR mode. -/
  | serRxRead (n : Nat)
  /-- PARSER_BYTE (R385). The MIDI parser drains one byte and forms a task when a channel message is complete. -/
  | parserByte (n : Nat)
  /-- SYSEX_GAP_TIMEOUT (R391). More than SYSEX_GAP without a byte aborts the message in progress. -/
  | sysexGapTimeout (n : Nat)
  /-- WIN_ADDR_WRITE (R417). Writing WIN_ADDR discards the read-ahead and starts fetching from the new address. -/
  | winAddrWrite (value : Word)
  /-- WIN_DATA_READ (R417). A read of WIN_DATA pops one word and advances the address, flagging UNDER if empty. -/
  | winDataRead
  /-- WIN_DATA_WRITE (R418). A write to WIN_DATA pushes a word to the posted-write buffer, flagging OVER if full. -/
  | winDataWrite (value : Word) (be : BitVec 4)
  /-- WINDOW_FILL (R417). A 64-byte read-ahead burst arrives in the window buffer. -/
  | windowFill
  /-- WINDOW_DRAIN (R418). A posted window word is issued to wave DRAM and becomes visible. -/
  | windowDrain
  /-- WIN_ABORT (R420). Writing WIN_CTL.ABORT discards the read-ahead and unissued posted words. -/
  | winAbort (value : Word)
  /-- WIN_DIR_CHANGE (R420). A change of window direction takes effect once the posted buffer has drained. -/
  | winDirChange
  /-- DRAM_READY (R432). DRAM initialisation and training complete and MEM_DRAM_STAT.READY sets. -/
  | dramReady
  /-- MOVER_GO (R437). Writing MEM_MVc_CTL.GO issues the descriptor, which is checked and accepted or rejected. -/
  | moverGo (c : Nat) (value : Word)
  /-- MOVER_BURST (R438). A mover channel completes a burst of up to 64 bytes and updates POS and CRC. -/
  | moverBurst (c : Nat)
  /-- MOVER_DONE (R438). A transfer completes and STATE becomes DONE. -/
  | moverDone (c : Nat)
  /-- MOVER_ABORT (R438). Writing ABORT stops the transfer after its current burst. -/
  | moverAbort (c : Nat) (value : Word)
  /-- PATROL_BORROW (R440). Every INTERVAL µs the patrol borrows the next region and copies it to the shadow. -/
  | patrolBorrow
  /-- PATROL_RESTORE (R440). The patrol test ends and the region is restored from the shadow. -/
  | patrolRestore (pass : Bool)
  /-- PATROL_ABORT (R442). A management instruction fetch hitting a borrowed region aborts the borrow. -/
  | patrolAbort
  /-- CHR_TICK (R449). A chronograph tick advances the count or wraps it to 0. -/
  | chrTick (c : Nat) (inc : Nat)
  /-- CHR_CAPTURE (R455). A capture trigger records the count in CHR_CAPnc and sets FRESHn. -/
  | chrCapture (c : Nat) (n : Nat)
  /-- CAPTURE_SW (R455). Writing CHR_CAPCTLc.SW = 1 captures the count now. -/
  | captureSw (c : Nat) (value : Word)
  /-- CHR_CAP_READ (R456). A low-half read of CHR_CAPnc clears FRESHn at the next REFCLK edge. -/
  | chrCapRead (c : Nat) (n : Nat)
  /-- CHR_START (R452). Writing CHR_START enables the named chronographs at one edge, optionally clearing them. -/
  | chrStart (value : Word)
  /-- CHR_STOP (R452). Writing CHR_STOP disables the named chronographs at one edge. -/
  | chrStop (value : Word)
  /-- CHR_CLEAR (R452). Writing CHR_CTLc.CLEAR sets the count to 0 and restarts the prescaler. -/
  | chrClear (c : Nat) (value : Word)
  /-- RELOAD_WRITE (R453). A RELOAD write below the count makes the next tick a wrap and sets SHORTENED. -/
  | reloadWrite (c : Nat) (value : Word)
  /-- CHR_IN_EDGE (R458). A CHR_IN level stable for FILTk periods registers an edge on the event bus. -/
  | chrInEdge (k : Nat) (level : Bool)
  /-- CHR_OUT_CHANGE (R460). A CHR_OUT pin change appears 2 + 64 × DLY REFCLK periods after its cause. -/
  | chrOutChange (k : Nat)
  /-- PULSE_END (R459). A PULSE mode output ends after PW REFCLK periods. -/
  | pulseEnd (k : Nat)
  /-- EVENT_BUS_DELIVERY (R448). The event bus delivers an occurrence's increment one REFCLK period after the event. -/
  | eventBusDelivery
  /-- EVC_START (R463). Writing EVC_GLB.START sets RUN. -/
  | evcStart (value : Word)
  /-- EVC_STOP (R463). Writing EVC_GLB.STOP clears RUN. -/
  | evcStop (value : Word)
  /-- EVC_CLEAR_ALL (R464). Writing CLEAR_ALL zeroes every event counter at one edge. -/
  | evcClearAll (value : Word)
  /-- EVC_CLR (R464). Writing EVC_CFGn.CLR zeroes that counter. -/
  | evcClr (n : Nat) (value : Word)
  /-- EVC_FREEZE (R465). Setting FREEZE holds the values returned by reads while counting continues. -/
  | evcFreeze (value : Word)
  /-- POWER_BATCH (R474). A GO of PWR_REQ issues a batch of power requests, wakes first ascending, then entries descending. -/
  | powerBatch (value : Word)
  /-- AGENT_ANSWER (R478). A domain agent answers an entry request with ACK, DELAY or REFUSE. -/
  | agentAnswer (d : Nat)
  /-- AGENT_DELAY_TIMEOUT (R480). A DELAY condition outlasting its bound makes the agent refuse with reason 5h. -/
  | agentDelayTimeout (d : Nat)
  /-- POWER_NO_ANSWER (R478). No final answer within DELAY_MAX + 10 µs refuses the request with reason Bh. -/
  | powerNoAnswer (d : Nat)
  /-- DOMAIN_ENTRY (R479). After ACK the domain stops, saves its list, latches its pads and enters RET or OFF. -/
  | domainEntry (d : Nat)
  /-- DOMAIN_WAKE (R487). The controller wakes a domain through its power, clear, restore and settle steps. -/
  | domainWake (d : Nat)
  /-- WAKE_STEP_TIMEOUT (R487). A wake step timing out ends the attempt and removes power. -/
  | wakeStepTimeout (d : Nat) (failStep : Nat)
  /-- WAKE_RETRY (R488). 1 ms after a failed attempt the controller retries the wake as from OFF. -/
  | wakeRetry (d : Nat)
  /-- PAD_RELEASE (R481). Writing a PWR_PAD_RELEASE bit while the domain is ON releases its latched pads. -/
  | padRelease (value : Word)
  /-- WAKE_SOURCE (R485). A wake source fires and sends a wake batch for its target mask. -/
  | wakeSource (src : Nat)
  /-- WAKE_DETECTOR_REARM (R486). A disarmed serial wake detector re-arms after its line has been high long enough. -/
  | wakeDetectorRearm (n : Nat)
  /-- SENSOR_MEASUREMENT (R500). Every 1 ms the AON sense converter measures all sensors and monitors. -/
  | sensorMeasurement (temps : List Word) (supplies : List Word)
  /-- LOG_ENTRY_WRITE (R503). An event from the AON queue is written into the log ring. -/
  | logEntryWrite
  /-- LOG_MIRROR_WRITE (R506). The firmware programs waiting log entries into the NVM mirror. -/
  | logMirrorWrite (ok : Bool)
  /-- GET_INFO (R509). The mailbox command GET_INFO returns versions, floor, slot and stage. -/
  | getInfo
  /-- LOG_ADD (R509). LOG_ADD adds a HOST entry to the log. -/
  | logAdd
  /-- LOG_SYNC (R509). LOG_SYNC programs every waiting log entry into the mirror. -/
  | logSync (ok : Bool := true)
  /-- UPD_BEGIN (R513). UPD_BEGIN opens an update session on the slot not in use. -/
  | updBegin (ok : Bool := true)
  /-- UPD_DATA (R513). UPD_DATA writes the next image bytes into the target slot. -/
  | updData (ok : Bool := true)
  /-- UPD_DRAM (R513). UPD_DRAM writes image bytes from wave DRAM through mover channel 2. -/
  | updDram (ok : Bool := true)
  /-- UPD_END (R513). UPD_END verifies the new image and writes a boot record preferring it. -/
  | updEnd (ok : Bool := true)
  /-- UPD_ABORT (R512). UPD_ABORT aborts the open update session. -/
  | updAbort
  /-- ROLLBACK_ADV (R515). ROLLBACK_ADV blows fuses to raise the rollback floor when allowed. -/
  | rollbackAdv
  /-- SET_PREFER (R514). SET_PREFER writes a boot record preferring the named slot. -/
  | setPrefer (ok : Bool := true)
  /-- NVM_ID (R509). NVM_ID returns the flash JEDEC ID and capacity. -/
  | nvmId
  /-- NVM_READ (R509). NVM_READ returns up to 56 flash bytes. -/
  | nvmRead
  /-- NVM_ERASE (R510). NVM_ERASE erases a 64 KiB flash sector in NO_IMAGE or ROM_WAIT. -/
  | nvmErase (ok : Bool := true)
  /-- NVM_PROG (R510). NVM_PROG programs up to 56 bytes within one page in NO_IMAGE or ROM_WAIT. -/
  | nvmProg (ok : Bool := true)
  /-- FWD (R540). FWD carries an inner mailbox request to a cascade worker and returns its response. -/
  | fwd
  /-- MAILBOX_RESPONSE (R509). A mailbox command ends, its response is written, BUSY clears and MB_DONE sets. -/
  | mailboxResponse
  /-- UPDATE_SESSION_TIMEOUT (R512). An update session with no command for 10 s is aborted. -/
  | updateSessionTimeout
  /-- UPDATE_RESET (R513). 10 ms after a successful UPD_END with RESET, the device takes a software reset. -/
  | updateReset
  /-- MGT_FAULT_CLEAR (R519). A W1C write to MGT_FAULT clears each bit whose clearing condition holds. -/
  | mgtFaultClear (value : Word)
  /-- LINK_ENABLE (R528). Setting CAS_CTL.EN applies CAS_CFG and starts the idle set on the lanes. -/
  | linkEnable (value : Word)
  /-- LINK_DISABLE (R529). Clearing CAS_CTL.EN puts both TX lanes in electrical idle. -/
  | linkDisable (value : Word)
  /-- RX_ALIGNMENT (R541). A cascade receiver takes bit and comma alignment from the idle set. -/
  | rxAlignment (port : CasPort)
  /-- OUTBOUND_SUPERFRAME (R530). A worker receives an outbound superframe, follows its frame timing and relays it upstream. -/
  | outboundSuperframe (bytes : List Byte) (codeOk : Bool) (hopLag : Nat)
  /-- INBOUND_SUPERFRAME (R531). A device receives an inbound superframe and sums its audio channels as C_n. -/
  | inboundSuperframe (bytes : List Byte) (codeOk : Bool)
  /-- DIRECTIVE_ARM (R533). An ARM directive arms the named worker slot at release k+1. -/
  | directiveArm (i : Nat)
  /-- DIRECTIVE_STATE (R533). A STATE directive releases, fades, quenches or cuts a worker voice. -/
  | directiveState (i : Nat)
  /-- DIRECTIVE_RETRIG (R533). A RETRIG directive reuses a worker MONO or LEGATO voice. -/
  | directiveRetrig (i : Nat)
  /-- DIRECTIVE_WRITE (R533). A WRITE directive applies a masked parameter store write on the worker. -/
  | directiveWrite (i : Nat)
  /-- DIRECTIVE_GLFO (R533). A GLFO directive restarts the named global LFOs at a CF boundary. -/
  | directiveGlfo (i : Nat)
  /-- TASK_PACKET (R539). A TASK packet arrives at the master and is offered to its Almanac or queued. -/
  | taskPacket
  /-- LOG_PACKET (R538). A LOG packet from a worker is stored in the manager's log as forwarded. -/
  | logPacket
  /-- MGMT_REQ (R538). A MGMT_REQ packet delivers a forwarded request to its worker. -/
  | mgmtReq (ok : Bool := true)
  /-- MGMT_RSP (R538). A MGMT_RSP packet returns a fragment of a worker's response. -/
  | mgmtRsp
  /-- EXTEST (R570). The JTAG EXTEST instruction drives the boundary register and holds the device in reset. -/
  | extest
  /-- SAMPLE_PRELOAD (R570). The JTAG SAMPLE/PRELOAD instruction samples or preloads the boundary register. -/
  | samplePreload
  /-- CLAMP (R570). The JTAG CLAMP instruction holds outputs from the boundary register and selects bypass. -/
  | clamp
  /-- HIGHZ (R570). The JTAG HIGHZ instruction puts the outputs at high impedance. -/
  | highz
  /-- BYPASS (R570). The JTAG BYPASS instruction selects the one-bit bypass register. -/
  | bypass
  /-- TEST_LOGIC_RESET (R571). TRST_N low puts the test port in test-logic reset and the device operates normally. -/
  | testLogicReset
  /-- LANE_NO_SIGNAL (R542). A locked cascade receiver that stops seeing signal, or sees the peer's idle set in place of superframes, loses lock and the hop is lost. -/
  | laneNoSignal (port : CasPort) (peerIdle : Bool)
  /-- WAKE_PATTERN_PULSE (R486). In PATTERN mode, a low pulse or an over-long high gap on SPs_RX is accepted or rejected and advances or resets the detector's pulse count without firing. -/
  | wakePatternPulse (n : Nat) (width : Nat) (gap : Nat)
  deriving DecidableEq, Repr

end Sys2Proof
end

