-- ==== Sys2Proof/WellFormed.lean ====
section
/-! DEFINITION. Which operands a command may carry: the index ranges and lengths the spec gives
(clusters 0-15, slots 0-255, channels, ports, domains, pool indexes, host addresses, packet lengths). -/

namespace Sys2Proof

/-- The operands of a command lie in the ranges of its rule. -/
def Instr.wf (i : Instr) : Bool :=
  match i with
  | .registerWrite addr _ => decide (addr < 0x200000 ∧ addr % 4 = 0)
  | .lock _ => true
  | .hostLowHalfRead ha => decide (ha < 0x100000)
  | .hostHighHalfRead ha => decide (ha < 0x100000)
  | .hostLowHalfWrite ha _ _ => decide (ha < 0x100000)
  | .hostHighHalfWrite ha _ _ => decide (ha < 0x100000)
  | .aonResponderRead ha => decide (ha < 0x100000)
  | .aonWake _ => true
  | .paramStoreHostWrite addr _ _ => decide (addr < 0x200000 ∧ addr % 4 = 0)
  | .paramStoreLanding => true
  | .efRelease => true
  | .cfBoundary => true
  | .refLost => true
  | .refValid => true
  | .engineEnable _ => true
  | .engineDisable _ => true
  | .clusterFrameDelivered c slack => decide (c < 16 ∧ slack < 64)
  | .deadlineMiss c => decide (c < 16)
  | .clusterFlush c => decide (c < 16)
  | .guardWindowEnd => true
  | .guardStepDown => true
  | .vidWindowEnd => true
  | .vidSettled => true
  | .vidSettleTimeout => true
  | .slackMinClear c _ => decide (c < 16)
  | .powerOnReset => true
  | .resetPin _ => true
  | .softwareReset _ => true
  | .watchdogReset => true
  | .fallbackReset => true
  | .strapLatch _ _ _ => true
  | .nvmReset => true
  | .nvmResetWaitEnd => true
  | .firmwareStart => true
  | .reginitWrite addr _ => decide (addr < 0x200000 ∧ addr % 4 = 0)
  | .reginitSet addr _ => decide (addr < 0x200000 ∧ addr % 4 = 0)
  | .reginitClear addr _ => decide (addr < 0x200000 ∧ addr % 4 = 0)
  | .reginitPoll arg addr _ => decide (arg < 65536 ∧ addr < 0x200000 ∧ addr % 4 = 0)
  | .reginitPollTimeout => true
  | .reginitDelay arg => decide (arg < 65536)
  | .reginitDelayEnd => true
  | .reginitFill arg addr _ => decide (arg < 65536 ∧ addr < 0x200000 ∧ addr % 4 = 0)
  | .waveStreamDone => true
  | .foregroundCalibrationStart => true
  | .foregroundCalibrationDone => true
  | .engineStage => true
  | .continueBoot _ => true
  | .retry _ => true
  | .hostPost _ => true
  | .mgmtPost image => decide (image.length = 8)
  | .almArbitrationRound => true
  | .ephemerisDue idx => decide (idx < 8192)
  | .almTick => true
  | .taskDispatch idx => decide (idx < 8192)
  | .taskWorkDone idx => decide (idx < 8192)
  | .mgmtTaskDone idx => decide (idx < 8192)
  | .hostCancel _ => true
  | .flush _ => true
  | .almDoneRead => true
  | .noteOn idx => decide (idx < 8192)
  | .deferredNoteArm => true
  | .noteOff idx => decide (idx < 8192)
  | .polyPressure idx => decide (idx < 8192)
  | .cc idx => decide (idx < 8192)
  | .bankSelect idx => decide (idx < 8192)
  | .sustain idx => decide (idx < 8192)
  | .sostenuto idx => decide (idx < 8192)
  | .allSoundOff idx => decide (idx < 8192)
  | .resetAllControllers idx => decide (idx < 8192)
  | .allNotesOff idx => decide (idx < 8192)
  | .program idx => decide (idx < 8192)
  | .pitchBend idx => decide (idx < 8192)
  | .chanPressure idx => decide (idx < 8192)
  | .paramSet idx => decide (idx < 8192)
  | .voiceKill idx => decide (idx < 8192)
  | .timerFire idx => decide (idx < 8192)
  | .sysexDone idx _ => decide (idx < 8192)
  | .user idx => decide (idx < 8192)
  | .firstSample v => decide (v < 256)
  | .stealFadeEnd v => decide (v < 256)
  | .quenchSwitchOpen v => decide (v < 256)
  | .quenchEnd v => decide (v < 256)
  | .env0Complete v => decide (v < 256)
  | .sampleEndVoice v => decide (v < 256)
  | .cacheLineFill c line => decide (c < 16 ∧ line < 0x200000)
  | .waveCacheInval c _ => decide (c < 16)
  | .pinnedLineInval c line => decide (c < 16 ∧ line < 0x200000)
  | .envSegmentEnd v env => decide (v < 256 ∧ env < 4)
  | .glfoRestart _ => true
  | .adcOverload v => decide (v < 256)
  | .biasFault v => decide (v < 256)
  | .swap c _ => decide (c < 16)
  | .swapAll c _ => decide (c < 16)
  | .fadeStart c => decide (c < 16)
  | .fadeEnd c => decide (c < 16)
  | .skimmerCoefWrite c _ i _ => decide (c < 16 ∧ i < 32)
  | .skimmerReset c _ => decide (c < 16)
  | .synchronisingReset c => decide (c < 16)
  | .skimmerValid c => decide (c < 16)
  | .measurementResult v => decide (v < 256)
  | .temperatureUpdate c => decide (c < 16)
  | .backgroundRunStart v => decide (v < 256)
  | .backgroundRunComplete v => decide (v < 256)
  | .calReq _ => true
  | .outputEnable _ => true
  | .outputDisable _ => true
  | .rangeChange _ => true
  | .rampUpDone i => decide (i < 32)
  | .rampDownDone i => decide (i < 32)
  | .rangeParkEnd i => decide (i < 32)
  | .holdParkEnd i => decide (i < 32)
  | .outputFault i _ _ mv => decide (i < 32 ∧ mv < 4096)
  | .faultRampDone i => decide (i < 32)
  | .faultRetry i => decide (i < 32)
  | .outFaultClear _ => true
  | .playerGo i _ => decide (i < 32)
  | .playerStop i _ => decide (i < 32)
  | .playerTrigger i => decide (i < 32)
  | .playerEnd i => decide (i < 32)
  | .tdmPortEnable n _ => decide (n < 6)
  | .tdmPortDisable n _ => decide (n < 6)
  | .tdmPortStop n => decide (n < 6)
  | .tdmoFrame n => decide (n < 4)
  | .tdmiFrame n slots => decide (4 ≤ n ∧ n < 6 ∧ slots.length ≤ 16)
  | .tdmLock n phase => decide (n < 6 ∧ phase < 512)
  | .tdmSlip n => decide (n < 6)
  | .tdmLoss n => decide (n < 6)
  | .modeChange n _ => decide (n < 4)
  | .divWrite n _ => decide (n < 4)
  | .rxFlush n _ => decide (n < 4)
  | .txFlush n _ => decide (n < 4)
  | .txBreak n _ => decide (n < 4)
  | .txBreakClear n _ => decide (n < 4)
  | .startBit n _ _ _ => decide (n < 4)
  | .characterReceived n _ _ _ => decide (n < 4)
  | .receiverRearm n => decide (n < 4)
  | .breakDetected n => decide (n < 4)
  | .lineDead n => decide (n < 4)
  | .lineRecover n => decide (n < 4)
  | .serTxWrite n _ => decide (n < 4)
  | .characterSent n => decide (n < 4)
  | .serRxRead n => decide (n < 4)
  | .parserByte n => decide (n < 4)
  | .sysexGapTimeout n => decide (n < 4)
  | .winAddrWrite _ => true
  | .winDataRead => true
  | .winDataWrite _ _ => true
  | .windowFill => true
  | .windowDrain => true
  | .winAbort _ => true
  | .winDirChange => true
  | .dramReady => true
  | .moverGo c _ => decide (c < 4)
  | .moverBurst c => decide (c < 4)
  | .moverDone c => decide (c < 4)
  | .moverAbort c _ => decide (c < 4)
  | .patrolBorrow => true
  | .patrolRestore _ => true
  | .patrolAbort => true
  | .chrTick c inc => decide (c < 16 ∧ inc < 256)
  | .chrCapture c n => decide (c < 16 ∧ n < 2)
  | .captureSw c _ => decide (c < 16)
  | .chrCapRead c n => decide (c < 16 ∧ n < 2)
  | .chrStart _ => true
  | .chrStop _ => true
  | .chrClear c _ => decide (c < 16)
  | .reloadWrite c _ => decide (c < 16)
  | .chrInEdge k _ => decide (k < 4)
  | .chrOutChange k => decide (k < 4)
  | .pulseEnd k => decide (k < 4)
  | .eventBusDelivery => true
  | .evcStart _ => true
  | .evcStop _ => true
  | .evcClearAll _ => true
  | .evcClr n _ => decide (n < 32)
  | .evcFreeze _ => true
  | .powerBatch _ => true
  | .agentAnswer d => decide (d < 30)
  | .agentDelayTimeout d => decide (d < 30)
  | .powerNoAnswer d => decide (d < 30)
  | .domainEntry d => decide (d < 30)
  | .domainWake d => decide (d < 30)
  | .wakeStepTimeout d failStep => decide (d < 30 ∧ failStep < 4)
  | .wakeRetry d => decide (d < 30)
  | .padRelease _ => true
  | .wakeSource src => decide (src < 6)
  | .wakeDetectorRearm n => decide (n < 4)
  | .sensorMeasurement temps supplies => decide (temps.length = 17 ∧ supplies.length = 6)
  | .logEntryWrite => true
  | .logMirrorWrite _ => true
  | .getInfo => true
  | .logAdd => true
  | .logSync _ => true
  | .updBegin _ => true
  | .updData _ => true
  | .updDram _ => true
  | .updEnd _ => true
  | .updAbort => true
  | .rollbackAdv => true
  | .setPrefer _ => true
  | .nvmId => true
  | .nvmRead => true
  | .nvmErase _ => true
  | .nvmProg _ => true
  | .fwd => true
  | .mailboxResponse => true
  | .updateSessionTimeout => true
  | .updateReset => true
  | .mgtFaultClear _ => true
  | .linkEnable _ => true
  | .linkDisable _ => true
  | .rxAlignment _ => true
  | .outboundSuperframe bytes _ hopLag => decide (bytes.length = 416 ∧ hopLag < 256)
  | .inboundSuperframe bytes _ => decide (bytes.length = 416)
  | .directiveArm i => decide (i < 20)
  | .directiveState i => decide (i < 20)
  | .directiveRetrig i => decide (i < 20)
  | .directiveWrite i => decide (i < 20)
  | .directiveGlfo i => decide (i < 20)
  | .taskPacket => true
  | .logPacket => true
  | .mgmtReq _ => true
  | .mgmtRsp => true
  | .extest => true
  | .samplePreload => true
  | .clamp => true
  | .highz => true
  | .bypass => true
  | .testLogicReset => true
  | .laneNoSignal _ _ => true
  | .wakePatternPulse n _ _ => decide (n < 4)

end Sys2Proof
end

