-- ==== Sys2Proof/Decode.lean ====
section
/-! DEFINITION. The reading of a command from a word of the table's bits.  The table gives its rows no
bits (a command is an access, a protocol operation or an event, never an encoded word), so no word
spells a command. -/

namespace Sys2Proof

/-- The command a word of the table's bits spells: none, since no row of the table gives bits.
DESIGN CHOICE (log 1), safe. -/
def decodeTableWord (_nbits _w : Nat) : Option Instr := none

end Sys2Proof
end

