-- ==== Sys2Proof/Config.lean ====
section
/-! DEFINITION. What the spec leaves open: the free values (constants with no body, so that no proof can
rest on a number for them) and the figures an implementation fixes. -/

namespace Sys2Proof.Config

/-- The contents of wave DRAM that nothing has written since MEMC was last OFF (R431): undefined, one
function of the loss count and the byte address. Free value. DESIGN CHOICE (log 3), safe. -/
opaque dramByte : Nat → Nat → Byte

/-- The neighbouring code a voice ADC's comparators would pick in one Fm period (R271): its sequence is not fixed to the bit.
DESIGN CHOICE (log 4), unsafe. -/
opaque adcPick : Nat → Int

/-- The noise of a cell in one Fm period, with 40 fraction bits (R271, R277). DESIGN CHOICE (log 4), unsafe. -/
opaque cellNoise : Nat → Int

/-- How far a cell's cutoff lies from its control code, in codes with 16 fraction bits, by slot and temperature in Q8.8 (R277):
cells differ and drift. DESIGN CHOICE (log 4), unsafe. -/
opaque cellCutoff : Nat → Int → Int

/-- How far the device's path gain lies from 1.0, in 2^−16 (R277). DESIGN CHOICE (log 4), unsafe. -/
opaque pathGain : Int

/-- How far a cell's path gain lies from 1.0, in 2^−16, by slot and temperature (R277). DESIGN CHOICE (log 4), unsafe. -/
opaque cellGain : Nat → Int → Int

/-- How far a cell's loop gain lies from its raw feedback, in 2^−16, by slot and temperature (R265, R327).
DESIGN CHOICE (log 4), unsafe. -/
opaque cellLoop : Nat → Int → Int

/-- A cell's offset at its ADC input, in 2^−20 of full scale, by slot and temperature (R277, R322).
DESIGN CHOICE (log 4), unsafe. -/
opaque cellOffset : Nat → Int → Int

/-- Does the bias comparator of a slot's cell find a trim too high (R327)? Free value. DESIGN CHOICE (log 8), safe. -/
opaque biasHigh : Nat → Int → Bool

/-- The way a wave cache replaces when a line is filled (R213, pseudo-LRU). Free value. DESIGN CHOICE (log 5), safe. -/
opaque victimWay : Nat → Nat

/-- The result of an Ed25519 verification over the given message and signature with the ROM's keys
(R90): the keys are not in the spec. Free value. DESIGN CHOICE (log 6), safe. -/
opaque ed25519 : Nat → List Byte → List Byte → Bool

/-- The flash device's JEDEC ID bytes (NVM_ID, R509). Free value. DESIGN CHOICE (log 7), safe. -/
opaque jedecId : Nat → Byte

/-- log2 of the attached flash's capacity in bytes (NVM_ID, R509). Free value. DESIGN CHOICE (log 7), safe. -/
opaque flashLog2 : Nat

/-- The settle length of a measurement of a calibration step for which the spec gives none (R327, R328
gives it for step 3 alone). Free value. DESIGN CHOICE (log 8), safe. -/
opaque calSettle : Nat → Nat

/-- Does the attached flash answer in octal mode after the enable sequences (R77)? Free value.
DESIGN CHOICE (log 11), safe. -/
opaque octalOk : Nat → Bool

/-- A tap of the external input's linear-phase interpolator, with 30 fraction bits, for a rate code and a distance in EF
from its centre (R211): the spec gives no coefficients. DESIGN CHOICE (log 12), safe. -/
opaque extTap : Nat → Nat → Int

/-- A tap of the output decimator's fixed filter, with 17 fraction bits, for a ratio code and a delay in EF (R356): the spec
gives no coefficients. DESIGN CHOICE (log 12), unsafe. -/
opaque decTap : Nat → Nat → Int

/-- What the taps of that filter sum to, their first moment about its group-delay centre, and their sum with alternating signs,
of which the model keeps what R356's passband gain, D and stopband allow. DESIGN CHOICE (log 12), safe. -/
opaque decSums : Nat → Int × Int × Int

/-- Is SPn_RX low at the last oversample, by port and EF, where no command shows it (R400)?  Free value.
DESIGN CHOICE (log 19), safe. -/
opaque lineLow : Nat → Nat → Bool

/-- Any other free value drawn by the counter of State. DESIGN CHOICE (log 9), safe. -/
opaque free : Nat → Nat

end Sys2Proof.Config
end

