-- ==== Sys2Proof/Machine/RegMap.lean ====
section
/-! DEFINITION. The register map: every register the spec lists, its host byte address, its reset value
and the masks of its access codes (R3 to R545, by the register tables of each chapter; R547).  A register
that repeats is one row with its count and stride; the rows of a cluster are those of cluster 0. -/

namespace Sys2Proof.Machine

/-- One row of the register tables.  `rw`, `rwl`, `w1c` and `rc` are the bits with those access codes
(R8); every other bit is read-only, write-only, write-1-to-set or reserved. -/
structure RegRow where
  base : Nat
  count : Nat
  stride : Nat
  reset : Word
  rw : Word
  rwl : Word
  w1c : Word
  rc : Word
  deriving DecidableEq, Repr

namespace Reg

/-- R3. -/
abbrev GLB_ID : Nat := 0x0
/-- R3. -/
abbrev GLB_LOCK : Nat := 0x4
/-- R19. -/
abbrev GLB_CNT_REJ : Nat := 0xB0
/-- R63. -/
abbrev GLB_FRAME_CTL : Nat := 0x10
/-- R63. -/
abbrev GLB_EF_LO : Nat := 0x14
/-- R63. -/
abbrev GLB_EF_HI : Nat := 0x18
/-- R63. -/
abbrev GLB_REF_STAT : Nat := 0x1C
/-- R63. -/
abbrev GLB_VID : Nat := 0x20
/-- R63. -/
abbrev GLB_GUARD : Nat := 0x24
/-- R63. -/
abbrev GLB_FRAME_LATE : Nat := 0x28
/-- R63. -/
abbrev GLB_SLACK_DEV : Nat := 0x2C
/-- R63; register i of 16. -/
abbrev GLB_SLACK (i : Nat) : Nat := 0x40 + 0x4 * i
/-- R109. -/
abbrev GLB_STRAP : Nat := 0x8
/-- R109. -/
abbrev GLB_RESET : Nat := 0xC
/-- R109. -/
abbrev GLB_BOOT_STAT : Nat := 0x80
/-- R109. -/
abbrev GLB_BOOT_CTL : Nat := 0x84
/-- R109. -/
abbrev GLB_ROLLBACK : Nat := 0x88
/-- R109. -/
abbrev GLB_RESET_CAUSE : Nat := 0x8C
/-- R143. -/
abbrev ALM_CTL : Nat := 0x8000
/-- R143. -/
abbrev ALM_TICK : Nat := 0x8004
/-- R143. -/
abbrev ALM_TICK_NOW : Nat := 0x8008
/-- R143. -/
abbrev ALM_STAT : Nat := 0x800C
/-- R143. -/
abbrev ALM_RESV : Nat := 0x8010
/-- R143. -/
abbrev ALM_SERPRI : Nat := 0x8014
/-- R143; register i of 8. -/
abbrev ALM_POST (i : Nat) : Nat := 0x8020 + 0x4 * i
/-- R143. -/
abbrev ALM_POST_GO : Nat := 0x8040
/-- R143. -/
abbrev ALM_POST_RES : Nat := 0x8044
/-- R143. -/
abbrev ALM_CANCEL_SCOPE : Nat := 0x8048
/-- R143. -/
abbrev ALM_CANCEL : Nat := 0x804C
/-- R143. -/
abbrev ALM_CANCEL_RES : Nat := 0x8050
/-- R143. -/
abbrev ALM_DONE : Nat := 0x8054
/-- R143. -/
abbrev ALM_DONE_STAT : Nat := 0x8058
/-- R143. -/
abbrev ALM_IRQ_STAT : Nat := 0x8060
/-- R143. -/
abbrev ALM_IRQ_EN : Nat := 0x8064
/-- R143. -/
abbrev ALM_CNT_ADMIT : Nat := 0x8070
/-- R143. -/
abbrev ALM_CNT_REFUSE : Nat := 0x8074
/-- R143. -/
abbrev ALM_CNT_HOLD : Nat := 0x8078
/-- R143. -/
abbrev ALM_CNT_CANCEL : Nat := 0x807C
/-- R143. -/
abbrev ALM_CNT_CANCEL_LATE : Nat := 0x8080
/-- R143. -/
abbrev ALM_CNT_RDYCAN : Nat := 0x8084
/-- R143. -/
abbrev ALM_CNT_EPH_SLIP : Nat := 0x8088
/-- R143. -/
abbrev ALM_CNT_BADPOST : Nat := 0x808C
/-- R143. -/
abbrev ALM_PEEK_IDX : Nat := 0x80A0
/-- R143; register i of 8. -/
abbrev ALM_PEEK (i : Nat) : Nat := 0x80C0 + 0x4 * i
/-- R143. -/
abbrev ALM_TGT0 : Nat := 0x80E0
/-- R143. -/
abbrev ALM_TGT1 : Nat := 0x80E4
/-- R143; register i of 96. -/
abbrev ALM_FLOW (i : Nat) : Nat := 0x8100 + 0x4 * i
/-- R181. -/
abbrev ALC_CTL : Nat := 0xC000
/-- R181. -/
abbrev ALC_POOL : Nat := 0xC004
/-- R181. -/
abbrev ALC_OCCUPANCY : Nat := 0xC008
/-- R181. -/
abbrev ALC_DEFER : Nat := 0xC00C
/-- R181. -/
abbrev ALC_LAST_ALLOC : Nat := 0xC010
/-- R181. -/
abbrev ALC_IRQ_STAT : Nat := 0xC020
/-- R181. -/
abbrev ALC_IRQ_EN : Nat := 0xC024
/-- R181. -/
abbrev ALC_CNT_ALLOC : Nat := 0xC030
/-- R181. -/
abbrev ALC_CNT_STEAL : Nat := 0xC034
/-- R181. -/
abbrev ALC_CNT_CUT : Nat := 0xC038
/-- R181. -/
abbrev ALC_CNT_DROP : Nat := 0xC03C
/-- R181. -/
abbrev ALC_ARM_DEFER : Nat := 0xC040
/-- R181. -/
abbrev ALC_CNT_STALE : Nat := 0xC044
/-- R181. -/
abbrev ALC_CNT_NOPART : Nat := 0xC048
/-- R181. -/
abbrev ALC_CNT_SHED : Nat := 0xC04C
/-- R181. -/
abbrev ALC_CNT_ERR : Nat := 0xC050
/-- R181; register i of 32. -/
abbrev ALC_PART (i : Nat) : Nat := 0xC080 + 0x4 * i
/-- R181; register i of 32. -/
abbrev ALC_SLOT_STATE (i : Nat) : Nat := 0xC100 + 0x4 * i
/-- R218. -/
abbrev CLU_OSC_TUNE : Nat := 0x10100
/-- R218. -/
abbrev CLU_WC_CTL : Nat := 0x10104
/-- R218. -/
abbrev CLU_WC_STAT : Nat := 0x10108
/-- R218. -/
abbrev CLU_OSC_IRQ_STAT : Nat := 0x1010C
/-- R218. -/
abbrev CLU_OSC_IRQ_EN : Nat := 0x10110
/-- R218. -/
abbrev CLU_OSC_LAST_ERR : Nat := 0x10114
/-- R218. -/
abbrev CLU_CNT_WC_HIT : Nat := 0x10120
/-- R218. -/
abbrev CLU_CNT_WC_MISS : Nat := 0x10124
/-- R218. -/
abbrev CLU_CNT_STARVE : Nat := 0x10128
/-- R218. -/
abbrev CLU_CNT_HEAD_LATE : Nat := 0x1012C
/-- R218. -/
abbrev CLU_CNT_WAVE_ERR : Nat := 0x10130
/-- R218. -/
abbrev CLU_CNT_PITCH_CLAMP : Nat := 0x10134
/-- R218. -/
abbrev CLU_CNT_OSC_CLIP : Nat := 0x10138
/-- R249. -/
abbrev CLU_MOD_IRQ_STAT : Nat := 0x10200
/-- R249. -/
abbrev CLU_MOD_IRQ_EN : Nat := 0x10204
/-- R249. -/
abbrev CLU_MOD_LAST_ERR : Nat := 0x10208
/-- R249. -/
abbrev CLU_CNT_ROUTE_ERR : Nat := 0x1020C
/-- R249. -/
abbrev CLU_MOD_PEEK_SEL : Nat := 0x10210
/-- R249. -/
abbrev CLU_MOD_PEEK : Nat := 0x10214
/-- R254. -/
abbrev ALC_GLFO_RESTART : Nat := 0xC200
/-- R254. -/
abbrev ALC_GLFO_STAT : Nat := 0xC204
/-- R254; register i of 16. -/
abbrev ALC_GLFO_VAL (i : Nat) : Nat := 0xC240 + 0x4 * i
/-- R278. -/
abbrev CLU_CELL_CTL : Nat := 0x10300
/-- R278. -/
abbrev CLU_CELL_IRQ_STAT : Nat := 0x10304
/-- R278. -/
abbrev CLU_CELL_IRQ_EN : Nat := 0x10308
/-- R278. -/
abbrev CLU_CNT_ADC_OVL : Nat := 0x1030C
/-- R278. -/
abbrev CLU_CNT_DAC_CLIP : Nat := 0x10310
/-- R278; register i of 16. -/
abbrev CLU_CELL_STAT (i : Nat) : Nat := 0x10340 + 0x4 * i
/-- R278; register i of 16. -/
abbrev CLU_CELL_BIAS (i : Nat) : Nat := 0x10380 + 0x4 * i
/-- R309. -/
abbrev CLU_SKM_CTL : Nat := 0x10400
/-- R309. -/
abbrev CLU_SKM_BANK : Nat := 0x10404
/-- R309. -/
abbrev CLU_SKM_STAT : Nat := 0x10408
/-- R309. -/
abbrev CLU_SKM_IRQ_STAT : Nat := 0x1040C
/-- R309. -/
abbrev CLU_SKM_IRQ_EN : Nat := 0x10410
/-- R309. -/
abbrev CLU_CNT_SKM_SAT : Nat := 0x10414
/-- R309. -/
abbrev CLU_CNT_SKM_RESET : Nat := 0x10418
/-- R309. -/
abbrev CLU_CNT_SKM_REJ : Nat := 0x1041C
/-- R309. -/
abbrev CLU_SKM_PROBE_SEL : Nat := 0x10420
/-- R309. -/
abbrev CLU_SKM_PROBE : Nat := 0x10424
/-- R309; register i of 32. -/
abbrev CLU_SKM_COEFA (i : Nat) : Nat := 0x10500 + 4 * i
/-- R309; register i of 32. -/
abbrev CLU_SKM_COEFB (i : Nat) : Nat := 0x10580 + 0x4 * i
/-- R335. -/
abbrev CAL_CTL : Nat := 0xF000
/-- R335. -/
abbrev CAL_STAT : Nat := 0xF004
/-- R335. -/
abbrev CAL_REQ : Nat := 0xF008
/-- R335. -/
abbrev CAL_IRQ_STAT : Nat := 0xF00C
/-- R335. -/
abbrev CAL_IRQ_EN : Nat := 0xF010
/-- R335. -/
abbrev CAL_LAST : Nat := 0xF014
/-- R335. -/
abbrev CAL_CNT_RUN : Nat := 0xF020
/-- R335. -/
abbrev CAL_CNT_ABORT : Nat := 0xF024
/-- R335. -/
abbrev CAL_CNT_FAIL : Nat := 0xF028
/-- R335. -/
abbrev CAL_DET_SEL : Nat := 0xF040
/-- R335. -/
abbrev CAL_DET_RE : Nat := 0xF044
/-- R335. -/
abbrev CAL_DET_IM : Nat := 0xF048
/-- R365. -/
abbrev MIX_CTL : Nat := 0xD000
/-- R365. -/
abbrev MIX_IRQ_STAT : Nat := 0xD004
/-- R365. -/
abbrev MIX_IRQ_EN : Nat := 0xD008
/-- R365. -/
abbrev MIX_CNT_SAT : Nat := 0xD010
/-- R365. -/
abbrev MIX_CNT_CAS_SAT : Nat := 0xD014
/-- R365; register i of 64. -/
abbrev MIX_BUS (i : Nat) : Nat := 0xD100 + 0x4 * i
/-- R365; register i of 64. -/
abbrev MIX_METER (i : Nat) : Nat := 0xD200 + 0x4 * i
/-- R365; register i of 64. -/
abbrev MIX_PEAK (i : Nat) : Nat := 0xD300 + 0x4 * i
/-- R365. -/
abbrev OUT_EN : Nat := 0xD400
/-- R365. -/
abbrev OUT_RANGE : Nat := 0xD404
/-- R365. -/
abbrev OUT_FAULT : Nat := 0xD408
/-- R365. -/
abbrev OUT_RETRY : Nat := 0xD40C
/-- R365. -/
abbrev OUT_IRQ_STAT : Nat := 0xD410
/-- R365. -/
abbrev OUT_IRQ_EN : Nat := 0xD414
/-- R365. -/
abbrev OUT_CNT_FAULT : Nat := 0xD418
/-- R365. -/
abbrev OUT_CNT_RETRY : Nat := 0xD41C
/-- R365. -/
abbrev OUT_CNT_SAT : Nat := 0xD420
/-- R365; register i of 32. -/
abbrev OUT_CH (i : Nat) : Nat := 0xD500 + 0x4 * i
/-- R365; register i of 32. -/
abbrev OUT_OFS (i : Nat) : Nat := 0xD580 + 0x4 * i
/-- R365; register i of 32. -/
abbrev OUT_STAT (i : Nat) : Nat := 0xD600 + 0x4 * i
/-- R365; register i of 32. -/
abbrev OUT_PLAY_CFG (i : Nat) : Nat := 0xD700 + 0x8 * i
/-- R365; register i of 32. -/
abbrev OUT_PLAY_LVL (i : Nat) : Nat := 0xD704 + 0x8 * i
/-- R365; register i of 6. -/
abbrev TDM_CTL (i : Nat) : Nat := 0xE000 + 0x4 * i
/-- R365; register i of 6. -/
abbrev TDM_STAT (i : Nat) : Nat := 0xE020 + 0x4 * i
/-- R365. -/
abbrev TDM_IRQ_STAT : Nat := 0xE040
/-- R365. -/
abbrev TDM_IRQ_EN : Nat := 0xE044
/-- R365. -/
abbrev TDM_CNT_SLIP : Nat := 0xE048
/-- R365. -/
abbrev TDM_CNT_LOSS : Nat := 0xE04C
/-- R365. -/
abbrev TDM_CNT_SAT : Nat := 0xE050
/-- R365; register i of 16. -/
abbrev TDM_OMAP (i : Nat) : Nat := 0xE100 + 0x4 * i
/-- R397. -/
abbrev SER_GLB_CTL : Nat := 0x2000
/-- R397. -/
abbrev SER_SYSEX : Nat := 0x2004
/-- R397. -/
abbrev SER_TIMEOUTS : Nat := 0x200C
/-- R397. -/
abbrev SER_CNT_SYSEX_DROP : Nat := 0x2010
/-- R397. -/
abbrev SER_CNT_SYSEX_OTHER : Nat := 0x2014
/-- R397. -/
abbrev SER_CNT_SYSEX_ABORT : Nat := 0x2018
/-- R397. -/
abbrev SER_CNT_REJ : Nat := 0x201C
/-- R397; register i of 4. -/
abbrev SER_CTL (i : Nat) : Nat := 0x2100 + 0x40 * i
/-- R397; register i of 4. -/
abbrev SER_DIV (i : Nat) : Nat := 0x2104 + 0x40 * i
/-- R397; register i of 4. -/
abbrev SER_STAT (i : Nat) : Nat := 0x2108 + 0x40 * i
/-- R397; register i of 4. -/
abbrev SER_RX (i : Nat) : Nat := 0x210C + 0x40 * i
/-- R397; register i of 4. -/
abbrev SER_TX (i : Nat) : Nat := 0x2110 + 0x40 * i
/-- R397; register i of 4. -/
abbrev SER_IRQ_STAT (i : Nat) : Nat := 0x2114 + 0x40 * i
/-- R397; register i of 4. -/
abbrev SER_IRQ_EN (i : Nat) : Nat := 0x2118 + 0x40 * i
/-- R397; register i of 4. -/
abbrev SER_CNT_ERR (i : Nat) : Nat := 0x211C + 0x40 * i
/-- R397; register i of 4. -/
abbrev SER_CNT_RX (i : Nat) : Nat := 0x2120 + 0x40 * i
/-- R397; register i of 4. -/
abbrev SER_CNT_TASK (i : Nat) : Nat := 0x2124 + 0x40 * i
/-- R397; register i of 4. -/
abbrev SER_CNT_IGN (i : Nat) : Nat := 0x2128 + 0x40 * i
/-- R425. -/
abbrev GLB_HP_STAT : Nat := 0xA0
/-- R425. -/
abbrev GLB_IRQ_SUM : Nat := 0xA4
/-- R425. -/
abbrev GLB_PS_COLLIDE : Nat := 0xA8
/-- R425. -/
abbrev GLB_CNT_PS_COLLIDE : Nat := 0xAC
/-- R426. -/
abbrev AON_STATUS : Nat := 0x1FF8
/-- R426. -/
abbrev AON_WAKE : Nat := 0x1FFC
/-- R427. -/
abbrev WIN_CTL : Nat := 0x20000
/-- R427. -/
abbrev WIN_ADDR : Nat := 0x20004
/-- R427. -/
abbrev WIN_STAT : Nat := 0x20008
/-- R427. -/
abbrev WIN_DATA : Nat := 0x2000C
/-- R427; register i of 64. -/
abbrev WIN_DATA_ALIAS (i : Nat) : Nat := 0x20100 + 0x4 * i
/-- R444. -/
abbrev MEM_CTL : Nat := 0x7000
/-- R444. -/
abbrev MEM_IRQ_STAT : Nat := 0x7004
/-- R444. -/
abbrev MEM_IRQ_EN : Nat := 0x7008
/-- R444. -/
abbrev MEM_DRAM_STAT : Nat := 0x700C
/-- R444. -/
abbrev MEM_CNT_PRI : Nat := 0x7020
/-- R444. -/
abbrev MEM_CNT_DEM : Nat := 0x7024
/-- R444. -/
abbrev MEM_CNT_HOST : Nat := 0x7028
/-- R444. -/
abbrev MEM_CNT_MOV : Nat := 0x702C
/-- R444. -/
abbrev MEM_CNT_REJ : Nat := 0x7030
/-- R444. -/
abbrev MEM_CNT_MV_REJ : Nat := 0x7034
/-- R444. -/
abbrev MEM_PAT_CTL : Nat := 0x7040
/-- R444. -/
abbrev MEM_PAT_STAT : Nat := 0x7044
/-- R444. -/
abbrev MEM_PAT_FAIL : Nat := 0x7048
/-- R444. -/
abbrev MEM_CNT_PAT_ABORT : Nat := 0x704C
/-- R444. -/
abbrev MEM_CNT_PAT_FAIL : Nat := 0x7050
/-- R444; register i of 4. -/
abbrev MEM_MV_DESC0 (i : Nat) : Nat := 0x7100 + 0x20 * i
/-- R444; register i of 4. -/
abbrev MEM_MV_DESC1 (i : Nat) : Nat := 0x7104 + 0x20 * i
/-- R444; register i of 4. -/
abbrev MEM_MV_DESC2 (i : Nat) : Nat := 0x7108 + 0x20 * i
/-- R444; register i of 4. -/
abbrev MEM_MV_DESC3 (i : Nat) : Nat := 0x710C + 0x20 * i
/-- R444; register i of 4. -/
abbrev MEM_MV_CTL (i : Nat) : Nat := 0x7110 + 0x20 * i
/-- R444; register i of 4. -/
abbrev MEM_MV_STAT (i : Nat) : Nat := 0x7114 + 0x20 * i
/-- R444; register i of 4. -/
abbrev MEM_MV_CRC (i : Nat) : Nat := 0x7118 + 0x20 * i
/-- R444; register i of 4. -/
abbrev MEM_MV_POS (i : Nat) : Nat := 0x711C + 0x20 * i
/-- R466; register i of 16. -/
abbrev CHR_CTL (i : Nat) : Nat := 0x3000 + 0x40 * i
/-- R466; register i of 16. -/
abbrev CHR_RELOAD (i : Nat) : Nat := 0x3004 + 0x40 * i
/-- R466; register i of 16. -/
abbrev CHR_COUNT (i : Nat) : Nat := 0x3008 + 0x40 * i
/-- R466; register i of 16. -/
abbrev CHR_CMP0 (i : Nat) : Nat := 0x300C + 0x40 * i
/-- R466; register i of 16. -/
abbrev CHR_CMP1 (i : Nat) : Nat := 0x3010 + 0x40 * i
/-- R466; register i of 16. -/
abbrev CHR_CAP0 (i : Nat) : Nat := 0x3014 + 0x40 * i
/-- R466; register i of 16. -/
abbrev CHR_CAP1 (i : Nat) : Nat := 0x3018 + 0x40 * i
/-- R466; register i of 16. -/
abbrev CHR_CAPCTL (i : Nat) : Nat := 0x301C + 0x40 * i
/-- R466; register i of 16. -/
abbrev CHR_STAT (i : Nat) : Nat := 0x3020 + 0x40 * i
/-- R466; register i of 16. -/
abbrev CHR_IRQ_EN (i : Nat) : Nat := 0x3024 + 0x40 * i
/-- R466. -/
abbrev CHR_START : Nat := 0x3400
/-- R466. -/
abbrev CHR_STOP : Nat := 0x3404
/-- R466. -/
abbrev CHR_IN_CTL : Nat := 0x3408
/-- R466; register i of 4. -/
abbrev CHR_OUTCTL (i : Nat) : Nat := 0x3410 + 0x4 * i
/-- R469. -/
abbrev EVC_GLB : Nat := 0x4000
/-- R469. -/
abbrev EVC_OVF : Nat := 0x4004
/-- R469. -/
abbrev EVC_IRQ_EN : Nat := 0x4008
/-- R469; register i of 32. -/
abbrev EVC_CFG (i : Nat) : Nat := 0x4100 + 0x10 * i
/-- R469; register i of 32. -/
abbrev EVC_LO (i : Nat) : Nat := 0x4104 + 0x10 * i
/-- R469; register i of 32. -/
abbrev EVC_HI (i : Nat) : Nat := 0x4108 + 0x10 * i
/-- R490. -/
abbrev PWR_REQ_MASK : Nat := 0x1000
/-- R490. -/
abbrev PWR_REQ : Nat := 0x1004
/-- R490. -/
abbrev PWR_STAT : Nat := 0x1008
/-- R490. -/
abbrev PWR_IRQ_STAT : Nat := 0x100C
/-- R490. -/
abbrev PWR_IRQ_EN : Nat := 0x1010
/-- R490. -/
abbrev PWR_PAD_RELEASE : Nat := 0x1014
/-- R490. -/
abbrev PWR_PAD_STAT : Nat := 0x1018
/-- R490. -/
abbrev PWR_PAD_AUTO : Nat := 0x101C
/-- R490. -/
abbrev PWR_BIAS : Nat := 0x1020
/-- R490; register i of 4. -/
abbrev PWR_WAKE_SP (i : Nat) : Nat := 0x1030 + 0x4 * i
/-- R490; register i of 4. -/
abbrev PWR_WAKE_WIN (i : Nat) : Nat := 0x1040 + 0x4 * i
/-- R490. -/
abbrev PWR_WAKE_HCS : Nat := 0x1050
/-- R490. -/
abbrev PWR_WAKE_CAS : Nat := 0x1054
/-- R490; register i of 4. -/
abbrev PWR_WAKE_TGT (i : Nat) : Nat := 0x1060 + 0x4 * i
/-- R490. -/
abbrev PWR_WAKE_TGT4 : Nat := 0x1070
/-- R490. -/
abbrev PWR_WAKE_TGT5 : Nat := 0x1074
/-- R490. -/
abbrev PWR_WAKE_LAST : Nat := 0x1078
/-- R490; register i of 30. -/
abbrev PWR_DOM (i : Nat) : Nat := 0x1100 + 4 * i
/-- R490; register i of 30. -/
abbrev PWR_DMAX (i : Nat) : Nat := 0x1180 + 0x4 * i
/-- R520. -/
abbrev MGT_STAT : Nat := 0x5000
/-- R520. -/
abbrev MGT_FW_VERSION : Nat := 0x5004
/-- R520. -/
abbrev MGT_IRQ_STAT : Nat := 0x5008
/-- R520. -/
abbrev MGT_IRQ_EN : Nat := 0x500C
/-- R520. -/
abbrev MGT_MB_CTL : Nat := 0x5010
/-- R520. -/
abbrev MGT_UPD_CTL : Nat := 0x5014
/-- R520; register i of 16. -/
abbrev MGT_MBI (i : Nat) : Nat := 0x5040 + 0x4 * i
/-- R520; register i of 16. -/
abbrev MGT_MBO (i : Nat) : Nat := 0x5080 + 0x4 * i
/-- R520. -/
abbrev MGT_LOG_STAT : Nat := 0x50C0
/-- R520. -/
abbrev MGT_LOG_CTL : Nat := 0x50C4
/-- R520. -/
abbrev MGT_LOG_SEL : Nat := 0x50C8
/-- R520; register i of 4. -/
abbrev MGT_LOG_DATA (i : Nat) : Nat := 0x50D0 + 0x4 * i
/-- R520. -/
abbrev MGT_CNT_LOG_DROP : Nat := 0x50E0
/-- R520; register i of 17. -/
abbrev MGT_TEMP (i : Nat) : Nat := 0x5100 + 0x4 * i
/-- R520; register i of 6. -/
abbrev MGT_SUPPLY (i : Nat) : Nat := 0x5180 + 0x4 * i
/-- R520. -/
abbrev MGT_ALARM_CFG : Nat := 0x51A0
/-- R520. -/
abbrev MGT_FAULT : Nat := 0x51A4
/-- R520. -/
abbrev MGT_FAULT_EN : Nat := 0x51A8
/-- R520. -/
abbrev MGT_ALARM_STAT : Nat := 0x51AC
/-- R545. -/
abbrev CAS_CTL : Nat := 0x6000
/-- R545. -/
abbrev CAS_CFG : Nat := 0x6004
/-- R545. -/
abbrev CAS_STAT : Nat := 0x6008
/-- R545. -/
abbrev CAS_POOL : Nat := 0x600C
/-- R545. -/
abbrev CAS_OCCUPANCY : Nat := 0x6010
/-- R545. -/
abbrev CAS_PRESENT : Nat := 0x6014
/-- R545. -/
abbrev CAS_IRQ_STAT : Nat := 0x6018
/-- R545. -/
abbrev CAS_IRQ_EN : Nat := 0x601C
/-- R545. -/
abbrev CAS_CNT_LOSS : Nat := 0x6020
/-- R545. -/
abbrev CAS_CNT_BAD_SF : Nat := 0x6024
/-- R545. -/
abbrev CAS_CNT_PKT_DROP : Nat := 0x6028
/-- R545. -/
abbrev CAS_CNT_DIR_DEFER : Nat := 0x602C
/-- R545. -/
abbrev CAS_CNT_DIR_LATE : Nat := 0x6030
/-- R545. -/
abbrev CAS_CNT_HOLD : Nat := 0x6034

end Reg

/-- The same register of cluster c (R25, R547). -/
def cluReg (c a : Nat) : Nat := a + 0x1000 * c

/-- The GLB rows of the register tables. -/
def glbRows : List RegRow := [
  ⟨0x0, 1, 0x4, 0xC5849790, 0x0, 0x0, 0x0, 0x0⟩,  -- GLB_ID
  ⟨0x4, 1, 0x4, 0x0, 0x0, 0x0, 0x2, 0x0⟩,  -- GLB_LOCK
  ⟨0xB0, 1, 0x4, 0x0, 0x0, 0x0, 0x0, 0xFFFFFFFF⟩,  -- GLB_CNT_REJ
  ⟨0x10, 1, 0x4, 0x0, 0x1, 0x2, 0x0, 0x0⟩,  -- GLB_FRAME_CTL
  ⟨0x14, 1, 0x4, 0x0, 0x0, 0x0, 0x0, 0x0⟩,  -- GLB_EF_LO
  ⟨0x18, 1, 0x4, 0x0, 0x0, 0x0, 0x0, 0x0⟩,  -- GLB_EF_HI
  ⟨0x1C, 1, 0x4, 0x0, 0x0, 0x0, 0x2, 0x0⟩,  -- GLB_REF_STAT
  ⟨0x20, 1, 0x4, 0xF00F, 0x0, 0xF1F0, 0x0, 0x0⟩,  -- GLB_VID
  ⟨0x24, 1, 0x4, 0x0, 0x0, 0x0, 0x0, 0x0⟩,  -- GLB_GUARD
  ⟨0x28, 1, 0x4, 0x0, 0x0, 0x0, 0x0, 0xFFFFFFFF⟩,  -- GLB_FRAME_LATE
  ⟨0x2C, 1, 0x4, 0x3F003F, 0x0, 0x0, 0x0, 0x0⟩,  -- GLB_SLACK_DEV
  ⟨0x40, 16, 0x4, 0x3F3F, 0x0, 0x0, 0x0, 0xFFFF0000⟩,  -- GLB_SLACK0
  ⟨0x8, 1, 0x4, 0x0, 0x0, 0x0, 0x0, 0x0⟩,  -- GLB_STRAP
  ⟨0xC, 1, 0x4, 0x0, 0x0, 0x0, 0x0, 0x0⟩,  -- GLB_RESET
  ⟨0x80, 1, 0x4, 0x0, 0x0, 0x0, 0x0, 0x0⟩,  -- GLB_BOOT_STAT
  ⟨0x84, 1, 0x4, 0x0, 0x0, 0x0, 0x0, 0x0⟩,  -- GLB_BOOT_CTL
  ⟨0x88, 1, 0x4, 0x0, 0x0, 0x0, 0x0, 0x0⟩,  -- GLB_ROLLBACK
  ⟨0x8C, 1, 0x4, 0x1, 0x0, 0x0, 0x1F, 0x0⟩,  -- GLB_RESET_CAUSE
  ⟨0xA0, 1, 0x4, 0x0, 0x0, 0x0, 0x3, 0x0⟩,  -- GLB_HP_STAT
  ⟨0xA4, 1, 0x4, 0x0, 0x0, 0x0, 0x0, 0x0⟩,  -- GLB_IRQ_SUM
  ⟨0xA8, 1, 0x4, 0x0, 0x0, 0x0, 0x80000000, 0x0⟩,  -- GLB_PS_COLLIDE
  ⟨0xAC, 1, 0x4, 0x0, 0x0, 0x0, 0x0, 0xFFFFFFFF⟩  -- GLB_CNT_PS_COLLIDE
  ]

/-- The ALM rows of the register tables. -/
def almRows : List RegRow := [
  ⟨0x8000, 1, 0x4, 0x0, 0x0, 0x0, 0x80000000, 0x0⟩,  -- ALM_CTL
  ⟨0x8004, 1, 0x4, 0x1, 0xFFFF, 0x0, 0x0, 0x0⟩,  -- ALM_TICK
  ⟨0x8008, 1, 0x4, 0x0, 0x0, 0x0, 0x0, 0x0⟩,  -- ALM_TICK_NOW
  ⟨0x800C, 1, 0x4, 0x20000000, 0x0, 0x0, 0x0, 0x0⟩,  -- ALM_STAT
  ⟨0x8010, 1, 0x4, 0x3000100, 0x3FFF3FFF, 0x0, 0x0, 0x0⟩,  -- ALM_RESV
  ⟨0x8014, 1, 0x4, 0x0, 0xFF, 0x0, 0x0, 0x0⟩,  -- ALM_SERPRI
  ⟨0x8020, 8, 0x4, 0x0, 0xFFFFFFFF, 0x0, 0x0, 0x0⟩,  -- ALM_POST0
  ⟨0x8040, 1, 0x4, 0x0, 0x0, 0x0, 0x0, 0x0⟩,  -- ALM_POST_GO
  ⟨0x8044, 1, 0x4, 0x0, 0x0, 0x0, 0x0, 0x0⟩,  -- ALM_POST_RES
  ⟨0x8048, 1, 0x4, 0xFF, 0xFF, 0x0, 0x0, 0x0⟩,  -- ALM_CANCEL_SCOPE
  ⟨0x804C, 1, 0x4, 0x0, 0x0, 0x0, 0x0, 0x0⟩,  -- ALM_CANCEL
  ⟨0x8050, 1, 0x4, 0x0, 0x0, 0x0, 0x0, 0x0⟩,  -- ALM_CANCEL_RES
  ⟨0x8054, 1, 0x4, 0x0, 0x0, 0x0, 0x0, 0xBFFFFFFF⟩,  -- ALM_DONE
  ⟨0x8058, 1, 0x4, 0x0, 0x0, 0x0, 0x100, 0x0⟩,  -- ALM_DONE_STAT
  ⟨0x8060, 1, 0x4, 0x0, 0x0, 0x0, 0x7E, 0x0⟩,  -- ALM_IRQ_STAT
  ⟨0x8064, 1, 0x4, 0x0, 0x7F, 0x0, 0x0, 0x0⟩,  -- ALM_IRQ_EN
  ⟨0x8070, 1, 0x4, 0x0, 0x0, 0x0, 0x0, 0xFFFFFFFF⟩,  -- ALM_CNT_ADMIT
  ⟨0x8074, 1, 0x4, 0x0, 0x0, 0x0, 0x0, 0xFFFFFFFF⟩,  -- ALM_CNT_REFUSE
  ⟨0x8078, 1, 0x4, 0x0, 0x0, 0x0, 0x0, 0xFFFFFFFF⟩,  -- ALM_CNT_HOLD
  ⟨0x807C, 1, 0x4, 0x0, 0x0, 0x0, 0x0, 0xFFFFFFFF⟩,  -- ALM_CNT_CANCEL
  ⟨0x8080, 1, 0x4, 0x0, 0x0, 0x0, 0x0, 0xFFFFFFFF⟩,  -- ALM_CNT_CANCEL_LATE
  ⟨0x8084, 1, 0x4, 0x0, 0x0, 0x0, 0x0, 0xFFFFFFFF⟩,  -- ALM_CNT_RDYCAN
  ⟨0x8088, 1, 0x4, 0x0, 0x0, 0x0, 0x0, 0xFFFFFFFF⟩,  -- ALM_CNT_EPH_SLIP
  ⟨0x808C, 1, 0x4, 0x0, 0x0, 0x0, 0x0, 0xFFFFFFFF⟩,  -- ALM_CNT_BADPOST
  ⟨0x80A0, 1, 0x4, 0x0, 0x1FFF, 0x0, 0x0, 0x0⟩,  -- ALM_PEEK_IDX
  ⟨0x80C0, 8, 0x4, 0x0, 0x0, 0x0, 0x0, 0x0⟩,  -- ALM_PEEK0
  ⟨0x80E0, 1, 0x4, 0x0, 0x0, 0x0, 0x0, 0x0⟩,  -- ALM_TGT0
  ⟨0x80E4, 1, 0x4, 0x0, 0x0, 0x0, 0x0, 0x0⟩,  -- ALM_TGT1
  ⟨0x8100, 96, 0x4, 0x0, 0x0, 0x0, 0x0, 0x0⟩  -- ALM_FLOW0
  ]

/-- The ALC rows of the register tables. -/
def alcRows : List RegRow := [
  ⟨0xC000, 1, 0x4, 0x800, 0x1F00, 0x0, 0x80000000, 0x0⟩,  -- ALC_CTL
  ⟨0xC004, 1, 0x4, 0x0, 0x0, 0x0, 0x0, 0x0⟩,  -- ALC_POOL
  ⟨0xC008, 1, 0x4, 0x0, 0x0, 0x0, 0x0, 0x0⟩,  -- ALC_OCCUPANCY
  ⟨0xC00C, 1, 0x4, 0x0, 0x0, 0x0, 0x0, 0x0⟩,  -- ALC_DEFER
  ⟨0xC010, 1, 0x4, 0x0, 0x0, 0x0, 0x0, 0x0⟩,  -- ALC_LAST_ALLOC
  ⟨0xC020, 1, 0x4, 0x0, 0x0, 0x0, 0x3F, 0x0⟩,  -- ALC_IRQ_STAT
  ⟨0xC024, 1, 0x4, 0x0, 0x3F, 0x0, 0x0, 0x0⟩,  -- ALC_IRQ_EN
  ⟨0xC030, 1, 0x4, 0x0, 0x0, 0x0, 0x0, 0xFFFFFFFF⟩,  -- ALC_CNT_ALLOC
  ⟨0xC034, 1, 0x4, 0x0, 0x0, 0x0, 0x0, 0xFFFFFFFF⟩,  -- ALC_CNT_STEAL
  ⟨0xC038, 1, 0x4, 0x0, 0x0, 0x0, 0x0, 0xFFFFFFFF⟩,  -- ALC_CNT_CUT
  ⟨0xC03C, 1, 0x4, 0x0, 0x0, 0x0, 0x0, 0xFFFFFFFF⟩,  -- ALC_CNT_DROP
  ⟨0xC040, 1, 0x4, 0x0, 0x0, 0x0, 0x0, 0xFFFFFFFF⟩,  -- ALC_ARM_DEFER
  ⟨0xC044, 1, 0x4, 0x0, 0x0, 0x0, 0x0, 0xFFFFFFFF⟩,  -- ALC_CNT_STALE
  ⟨0xC048, 1, 0x4, 0x0, 0x0, 0x0, 0x0, 0xFFFFFFFF⟩,  -- ALC_CNT_NOPART
  ⟨0xC04C, 1, 0x4, 0x0, 0x0, 0x0, 0x0, 0xFFFFFFFF⟩,  -- ALC_CNT_SHED
  ⟨0xC050, 1, 0x4, 0x0, 0x0, 0x0, 0x0, 0xFFFFFFFF⟩,  -- ALC_CNT_ERR
  ⟨0xC080, 32, 0x4, 0x0, 0x0, 0x0, 0x0, 0x0⟩,  -- ALC_PART0
  ⟨0xC100, 32, 0x4, 0x0, 0x0, 0x0, 0x0, 0x0⟩,  -- ALC_SLOT_STATE0
  ⟨0xC200, 1, 0x4, 0x0, 0x0, 0x0, 0x0, 0x0⟩,  -- ALC_GLFO_RESTART
  ⟨0xC204, 1, 0x4, 0x0, 0x0, 0x0, 0x0, 0x0⟩,  -- ALC_GLFO_STAT
  ⟨0xC240, 16, 0x4, 0x0, 0x0, 0x0, 0x0, 0x0⟩  -- ALC_GLFO_VAL0
  ]

/-- The CLU rows of the register tables. -/
def cluRows : List RegRow := [
  ⟨0x10100, 1, 0x4, 0x0, 0xFFFFFFFF, 0x0, 0x0, 0x0⟩,  -- CLU_OSC_TUNE
  ⟨0x10104, 1, 0x4, 0x0, 0x0, 0x0, 0x0, 0x0⟩,  -- CLU_WC_CTL
  ⟨0x10108, 1, 0x4, 0x0, 0x0, 0x0, 0x0, 0x0⟩,  -- CLU_WC_STAT
  ⟨0x1010C, 1, 0x4, 0x0, 0x0, 0x0, 0xF, 0x0⟩,  -- CLU_OSC_IRQ_STAT
  ⟨0x10110, 1, 0x4, 0x0, 0xF, 0x0, 0x0, 0x0⟩,  -- CLU_OSC_IRQ_EN
  ⟨0x10114, 1, 0x4, 0x0, 0x0, 0x0, 0x0, 0x0⟩,  -- CLU_OSC_LAST_ERR
  ⟨0x10120, 1, 0x4, 0x0, 0x0, 0x0, 0x0, 0xFFFFFFFF⟩,  -- CLU_CNT_WC_HIT
  ⟨0x10124, 1, 0x4, 0x0, 0x0, 0x0, 0x0, 0xFFFFFFFF⟩,  -- CLU_CNT_WC_MISS
  ⟨0x10128, 1, 0x4, 0x0, 0x0, 0x0, 0x0, 0xFFFFFFFF⟩,  -- CLU_CNT_STARVE
  ⟨0x1012C, 1, 0x4, 0x0, 0x0, 0x0, 0x0, 0xFFFFFFFF⟩,  -- CLU_CNT_HEAD_LATE
  ⟨0x10130, 1, 0x4, 0x0, 0x0, 0x0, 0x0, 0xFFFFFFFF⟩,  -- CLU_CNT_WAVE_ERR
  ⟨0x10134, 1, 0x4, 0x0, 0x0, 0x0, 0x0, 0xFFFFFFFF⟩,  -- CLU_CNT_PITCH_CLAMP
  ⟨0x10138, 1, 0x4, 0x0, 0x0, 0x0, 0x0, 0xFFFFFFFF⟩,  -- CLU_CNT_OSC_CLIP
  ⟨0x10200, 1, 0x4, 0x0, 0x0, 0x0, 0x1, 0x0⟩,  -- CLU_MOD_IRQ_STAT
  ⟨0x10204, 1, 0x4, 0x0, 0x1, 0x0, 0x0, 0x0⟩,  -- CLU_MOD_IRQ_EN
  ⟨0x10208, 1, 0x4, 0x0, 0x0, 0x0, 0x0, 0x0⟩,  -- CLU_MOD_LAST_ERR
  ⟨0x1020C, 1, 0x4, 0x0, 0x0, 0x0, 0x0, 0xFFFFFFFF⟩,  -- CLU_CNT_ROUTE_ERR
  ⟨0x10210, 1, 0x4, 0x0, 0x33FF, 0x0, 0x0, 0x0⟩,  -- CLU_MOD_PEEK_SEL
  ⟨0x10214, 1, 0x4, 0x0, 0x0, 0x0, 0x0, 0x0⟩,  -- CLU_MOD_PEEK
  ⟨0x10300, 1, 0x4, 0x101, 0x100, 0x1, 0x0, 0x0⟩,  -- CLU_CELL_CTL
  ⟨0x10304, 1, 0x4, 0x0, 0x0, 0x0, 0x7, 0x0⟩,  -- CLU_CELL_IRQ_STAT
  ⟨0x10308, 1, 0x4, 0x0, 0x7, 0x0, 0x0, 0x0⟩,  -- CLU_CELL_IRQ_EN
  ⟨0x1030C, 1, 0x4, 0x0, 0x0, 0x0, 0x0, 0xFFFFFFFF⟩,  -- CLU_CNT_ADC_OVL
  ⟨0x10310, 1, 0x4, 0x0, 0x0, 0x0, 0x0, 0xFFFFFFFF⟩,  -- CLU_CNT_DAC_CLIP
  ⟨0x10340, 16, 0x4, 0x0, 0x0, 0x0, 0x0, 0x0⟩,  -- CLU_CELL_STAT0
  ⟨0x10380, 16, 0x4, 0x0, 0x800000FF, 0x0, 0x0, 0x0⟩,  -- CLU_CELL_BIAS0
  ⟨0x10400, 1, 0x4, 0x6, 0xF, 0x10, 0x0, 0x0⟩,  -- CLU_SKM_CTL
  ⟨0x10404, 1, 0x4, 0x0, 0x0, 0x0, 0x0, 0x0⟩,  -- CLU_SKM_BANK
  ⟨0x10408, 1, 0x4, 0x0, 0x0, 0x0, 0x0, 0x0⟩,  -- CLU_SKM_STAT
  ⟨0x1040C, 1, 0x4, 0x0, 0x0, 0x0, 0xF, 0x0⟩,  -- CLU_SKM_IRQ_STAT
  ⟨0x10410, 1, 0x4, 0x0, 0xF, 0x0, 0x0, 0x0⟩,  -- CLU_SKM_IRQ_EN
  ⟨0x10414, 1, 0x4, 0x0, 0x0, 0x0, 0x0, 0xFFFFFFFF⟩,  -- CLU_CNT_SKM_SAT
  ⟨0x10418, 1, 0x4, 0x0, 0x0, 0x0, 0x0, 0xFFFFFFFF⟩,  -- CLU_CNT_SKM_RESET
  ⟨0x1041C, 1, 0x4, 0x0, 0x0, 0x0, 0x0, 0xFFFFFFFF⟩,  -- CLU_CNT_SKM_REJ
  ⟨0x10420, 1, 0x4, 0x0, 0x3F, 0x0, 0x0, 0x0⟩,  -- CLU_SKM_PROBE_SEL
  ⟨0x10424, 1, 0x4, 0x0, 0x0, 0x0, 0x0, 0x0⟩,  -- CLU_SKM_PROBE
  ⟨0x10500, 1, 0x4, 0x20000, 0xFFFFF, 0x0, 0x0, 0x0⟩,  -- CLU_SKM_COEFA0
  ⟨0x10504, 31, 0x4, 0x0, 0xFFFFF, 0x0, 0x0, 0x0⟩,  -- CLU_SKM_COEFA1
  ⟨0x10580, 32, 0x4, 0x0, 0xFFFFF, 0x0, 0x0, 0x0⟩  -- CLU_SKM_COEFB0
  ]

/-- The CAL rows of the register tables. -/
def calRows : List RegRow := [
  ⟨0xF000, 1, 0x4, 0x11002, 0x1FF1F, 0x0, 0x80000000, 0x0⟩,  -- CAL_CTL
  ⟨0xF004, 1, 0x4, 0x0, 0x0, 0x0, 0x0, 0x0⟩,  -- CAL_STAT
  ⟨0xF008, 1, 0x4, 0x0, 0x0, 0x0, 0x0, 0x0⟩,  -- CAL_REQ
  ⟨0xF00C, 1, 0x4, 0x0, 0x0, 0x0, 0x7, 0x0⟩,  -- CAL_IRQ_STAT
  ⟨0xF010, 1, 0x4, 0x0, 0x7, 0x0, 0x0, 0x0⟩,  -- CAL_IRQ_EN
  ⟨0xF014, 1, 0x4, 0x0, 0x0, 0x0, 0x0, 0x0⟩,  -- CAL_LAST
  ⟨0xF020, 1, 0x4, 0x0, 0x0, 0x0, 0x0, 0xFFFFFFFF⟩,  -- CAL_CNT_RUN
  ⟨0xF024, 1, 0x4, 0x0, 0x0, 0x0, 0x0, 0xFFFFFFFF⟩,  -- CAL_CNT_ABORT
  ⟨0xF028, 1, 0x4, 0x0, 0x0, 0x0, 0x0, 0xFFFFFFFF⟩,  -- CAL_CNT_FAIL
  ⟨0xF040, 1, 0x4, 0x0, 0xFF, 0x0, 0x0, 0x0⟩,  -- CAL_DET_SEL
  ⟨0xF044, 1, 0x4, 0x0, 0x0, 0x0, 0x0, 0x0⟩,  -- CAL_DET_RE
  ⟨0xF048, 1, 0x4, 0x0, 0x0, 0x0, 0x0, 0x0⟩  -- CAL_DET_IM
  ]

/-- The MIX rows of the register tables. -/
def mixRows : List RegRow := [
  ⟨0xD000, 1, 0x4, 0x0, 0x1, 0x0, 0x80000000, 0x0⟩,  -- MIX_CTL
  ⟨0xD004, 1, 0x4, 0x0, 0x0, 0x0, 0x3, 0x0⟩,  -- MIX_IRQ_STAT
  ⟨0xD008, 1, 0x4, 0x0, 0x3, 0x0, 0x0, 0x0⟩,  -- MIX_IRQ_EN
  ⟨0xD010, 1, 0x4, 0x0, 0x0, 0x0, 0x0, 0xFFFFFFFF⟩,  -- MIX_CNT_SAT
  ⟨0xD014, 1, 0x4, 0x0, 0x0, 0x0, 0x0, 0xFFFFFFFF⟩,  -- MIX_CNT_CAS_SAT
  ⟨0xD100, 64, 0x4, 0xA004000, 0x1F07FFFF, 0x0, 0x0, 0x0⟩,  -- MIX_BUS0
  ⟨0xD200, 64, 0x4, 0x0, 0x0, 0x0, 0x0, 0x0⟩,  -- MIX_METER0
  ⟨0xD300, 64, 0x4, 0x0, 0x0, 0x0, 0x0, 0xFFFFFFFF⟩  -- MIX_PEAK0
  ]

/-- The OUT rows of the register tables. -/
def outRows : List RegRow := [
  ⟨0xD400, 1, 0x4, 0x0, 0xFFFFFFFF, 0x0, 0x0, 0x0⟩,  -- OUT_EN
  ⟨0xD404, 1, 0x4, 0x0, 0xFFFFFFFF, 0x0, 0x0, 0x0⟩,  -- OUT_RANGE
  ⟨0xD408, 1, 0x4, 0x0, 0x0, 0x0, 0xFFFFFFFF, 0x0⟩,  -- OUT_FAULT
  ⟨0xD40C, 1, 0x4, 0x0, 0xFFFFFFFF, 0x0, 0x0, 0x0⟩,  -- OUT_RETRY
  ⟨0xD410, 1, 0x4, 0x0, 0x0, 0x0, 0x7, 0x0⟩,  -- OUT_IRQ_STAT
  ⟨0xD414, 1, 0x4, 0x0, 0x7, 0x0, 0x0, 0x0⟩,  -- OUT_IRQ_EN
  ⟨0xD418, 1, 0x4, 0x0, 0x0, 0x0, 0x0, 0xFFFFFFFF⟩,  -- OUT_CNT_FAULT
  ⟨0xD41C, 1, 0x4, 0x0, 0x0, 0x0, 0x0, 0xFFFFFFFF⟩,  -- OUT_CNT_RETRY
  ⟨0xD420, 1, 0x4, 0x0, 0x0, 0x0, 0x0, 0xFFFFFFFF⟩,  -- OUT_CNT_SAT
  ⟨0xD500, 32, 0x4, 0x80000000, 0xFFFF803F, 0x0, 0x0, 0x0⟩,  -- OUT_CH0
  ⟨0xD580, 32, 0x4, 0x0, 0xFFFFFF, 0x0, 0x0, 0x0⟩,  -- OUT_OFS0
  ⟨0xD600, 32, 0x4, 0x0, 0x0, 0x0, 0x0, 0x0⟩,  -- OUT_STAT0
  ⟨0xD700, 32, 0x8, 0x0, 0xFFFFEFF8, 0x0, 0x0, 0x0⟩,  -- OUT_PLAY_CFG0
  ⟨0xD704, 32, 0x8, 0x80000000, 0xFFFFFFFF, 0x0, 0x0, 0x0⟩  -- OUT_PLAY_LVL0
  ]

/-- The TDM rows of the register tables. -/
def tdmRows : List RegRow := [
  ⟨0xE000, 6, 0x4, 0x30, 0x3F, 0x0, 0x0, 0x0⟩,  -- TDM_CTL0
  ⟨0xE020, 6, 0x4, 0x0, 0x0, 0x0, 0x0, 0x0⟩,  -- TDM_STAT0
  ⟨0xE040, 1, 0x4, 0x0, 0x0, 0x0, 0x13F3F, 0x0⟩,  -- TDM_IRQ_STAT
  ⟨0xE044, 1, 0x4, 0x0, 0x13F3F, 0x0, 0x0, 0x0⟩,  -- TDM_IRQ_EN
  ⟨0xE048, 1, 0x4, 0x0, 0x0, 0x0, 0x0, 0xFFFFFFFF⟩,  -- TDM_CNT_SLIP
  ⟨0xE04C, 1, 0x4, 0x0, 0x0, 0x0, 0x0, 0xFFFFFFFF⟩,  -- TDM_CNT_LOSS
  ⟨0xE050, 1, 0x4, 0x0, 0x0, 0x0, 0x0, 0xFFFFFFFF⟩,  -- TDM_CNT_SAT
  ⟨0xE100, 16, 0x4, 0x0, 0xBFBFBFBF, 0x0, 0x0, 0x0⟩  -- TDM_OMAP0
  ]

/-- The SER rows of the register tables. -/
def serRows : List RegRow := [
  ⟨0x2000, 1, 0x4, 0x0, 0x0, 0x0, 0x80000000, 0x0⟩,  -- SER_GLB_CTL
  ⟨0x2004, 1, 0x4, 0x7F, 0x7F, 0x0, 0x0, 0x0⟩,  -- SER_SYSEX
  ⟨0x200C, 1, 0x4, 0x1F40064, 0xFFF0FFF, 0x0, 0x0, 0x0⟩,  -- SER_TIMEOUTS
  ⟨0x2010, 1, 0x4, 0x0, 0x0, 0x0, 0x0, 0xFFFFFFFF⟩,  -- SER_CNT_SYSEX_DROP
  ⟨0x2014, 1, 0x4, 0x0, 0x0, 0x0, 0x0, 0xFFFFFFFF⟩,  -- SER_CNT_SYSEX_OTHER
  ⟨0x2018, 1, 0x4, 0x0, 0x0, 0x0, 0x0, 0xFFFFFFFF⟩,  -- SER_CNT_SYSEX_ABORT
  ⟨0x201C, 1, 0x4, 0x0, 0x0, 0x0, 0x0, 0xFFFFFFFF⟩,  -- SER_CNT_REJ
  ⟨0x2100, 4, 0x40, 0x2, 0xFFF, 0x0, 0x0, 0x0⟩,  -- SER_CTLn
  ⟨0x2104, 4, 0x40, 0xC4A, 0xFFFF, 0x0, 0x0, 0x0⟩,  -- SER_DIVn
  ⟨0x2108, 4, 0x40, 0x0, 0x0, 0x0, 0x0, 0x0⟩,  -- SER_STATn
  ⟨0x210C, 4, 0x40, 0x0, 0x0, 0x0, 0x0, 0x800007FF⟩,  -- SER_RXn
  ⟨0x2110, 4, 0x40, 0x0, 0x0, 0x0, 0x0, 0x0⟩,  -- SER_TXn
  ⟨0x2114, 4, 0x40, 0x0, 0x0, 0x0, 0x1FC, 0x0⟩,  -- SER_IRQ_STATn
  ⟨0x2118, 4, 0x40, 0x0, 0x1FF, 0x0, 0x0, 0x0⟩,  -- SER_IRQ_ENn
  ⟨0x211C, 4, 0x40, 0x0, 0x0, 0x0, 0x0, 0xFFFFFFFF⟩,  -- SER_CNT_ERRn
  ⟨0x2120, 4, 0x40, 0x0, 0x0, 0x0, 0x0, 0xFFFFFFFF⟩,  -- SER_CNT_RXn
  ⟨0x2124, 4, 0x40, 0x0, 0x0, 0x0, 0x0, 0xFFFFFFFF⟩,  -- SER_CNT_TASKn
  ⟨0x2128, 4, 0x40, 0x0, 0x0, 0x0, 0x0, 0xFFFFFFFF⟩  -- SER_CNT_IGNn
  ]

/-- The AON rows of the register tables. -/
def aonRows : List RegRow := [
  ⟨0x1FF8, 1, 0x4, 0xA0000200, 0x0, 0x0, 0x0, 0x0⟩,  -- AON_STATUS
  ⟨0x1FFC, 1, 0x4, 0x0, 0x0, 0x0, 0x0, 0x0⟩  -- AON_WAKE
  ]

/-- The WIN rows of the register tables. -/
def winRows : List RegRow := [
  ⟨0x20000, 1, 0x4, 0x0, 0x3, 0x0, 0x0, 0x0⟩,  -- WIN_CTL
  ⟨0x20004, 1, 0x4, 0x0, 0x7FFFFFF, 0x0, 0x0, 0x0⟩,  -- WIN_ADDR
  ⟨0x20008, 1, 0x4, 0x0, 0x0, 0x0, 0xE0000000, 0x0⟩,  -- WIN_STAT
  ⟨0x2000C, 1, 0x4, 0x0, 0x0, 0x0, 0x0, 0x0⟩,  -- WIN_DATA
  ⟨0x20100, 64, 0x4, 0x0, 0x0, 0x0, 0x0, 0x0⟩  -- WIN_DATA
  ]

/-- The MEM rows of the register tables. -/
def memRows : List RegRow := [
  ⟨0x7000, 1, 0x4, 0x0, 0x0, 0x0, 0x80000000, 0x0⟩,  -- MEM_CTL
  ⟨0x7004, 1, 0x4, 0x0, 0x0, 0x0, 0xF, 0x0⟩,  -- MEM_IRQ_STAT
  ⟨0x7008, 1, 0x4, 0x0, 0xF, 0x0, 0x0, 0x0⟩,  -- MEM_IRQ_EN
  ⟨0x700C, 1, 0x4, 0x0, 0x0, 0x0, 0x0, 0x0⟩,  -- MEM_DRAM_STAT
  ⟨0x7020, 1, 0x4, 0x0, 0x0, 0x0, 0x0, 0xFFFFFFFF⟩,  -- MEM_CNT_PRI
  ⟨0x7024, 1, 0x4, 0x0, 0x0, 0x0, 0x0, 0xFFFFFFFF⟩,  -- MEM_CNT_DEM
  ⟨0x7028, 1, 0x4, 0x0, 0x0, 0x0, 0x0, 0xFFFFFFFF⟩,  -- MEM_CNT_HOST
  ⟨0x702C, 1, 0x4, 0x0, 0x0, 0x0, 0x0, 0xFFFFFFFF⟩,  -- MEM_CNT_MOV
  ⟨0x7030, 1, 0x4, 0x0, 0x0, 0x0, 0x0, 0xFFFFFFFF⟩,  -- MEM_CNT_REJ
  ⟨0x7034, 1, 0x4, 0x0, 0x0, 0x0, 0x0, 0xFFFFFFFF⟩,  -- MEM_CNT_MV_REJ
  ⟨0x7040, 1, 0x4, 0x80000064, 0x8000FFFF, 0x0, 0x0, 0x0⟩,  -- MEM_PAT_CTL
  ⟨0x7044, 1, 0x4, 0x0, 0x0, 0x0, 0x0, 0x0⟩,  -- MEM_PAT_STAT
  ⟨0x7048, 1, 0x4, 0x0, 0x0, 0x0, 0x80000000, 0x0⟩,  -- MEM_PAT_FAIL
  ⟨0x704C, 1, 0x4, 0x0, 0x0, 0x0, 0x0, 0xFFFFFFFF⟩,  -- MEM_CNT_PAT_ABORT
  ⟨0x7050, 1, 0x4, 0x0, 0x0, 0x0, 0x0, 0xFFFFFFFF⟩,  -- MEM_CNT_PAT_FAIL
  ⟨0x7100, 4, 0x20, 0x0, 0xFFFFFFFF, 0x0, 0x0, 0x0⟩,  -- MEM_MVc_DESC0
  ⟨0x7104, 4, 0x20, 0x0, 0xFFFFFFFF, 0x0, 0x0, 0x0⟩,  -- MEM_MVc_DESC1
  ⟨0x7108, 4, 0x20, 0x0, 0xFFFFFFF, 0x0, 0x0, 0x0⟩,  -- MEM_MVc_DESC2
  ⟨0x710C, 4, 0x20, 0x0, 0x3FFFF, 0x0, 0x0, 0x0⟩,  -- MEM_MVc_DESC3
  ⟨0x7110, 4, 0x20, 0x0, 0x0, 0x0, 0x0, 0x0⟩,  -- MEM_MVc_CTL
  ⟨0x7114, 4, 0x20, 0x0, 0x0, 0x0, 0x0, 0x0⟩,  -- MEM_MVc_STAT
  ⟨0x7118, 4, 0x20, 0x0, 0x0, 0x0, 0x0, 0x0⟩,  -- MEM_MVc_CRC
  ⟨0x711C, 4, 0x20, 0x0, 0x0, 0x0, 0x0, 0x0⟩  -- MEM_MVc_POS
  ]

/-- The CHR rows of the register tables. -/
def chrRows : List RegRow := [
  ⟨0x3000, 16, 0x40, 0x0, 0xFFFF7FFF, 0x0, 0x0, 0x0⟩,  -- CHR_CTLc
  ⟨0x3004, 16, 0x40, 0xFFFFFFFF, 0xFFFFFFFF, 0x0, 0x0, 0x0⟩,  -- CHR_RELOADc
  ⟨0x3008, 16, 0x40, 0x0, 0x0, 0x0, 0x0, 0x0⟩,  -- CHR_COUNTc
  ⟨0x300C, 16, 0x40, 0x0, 0xFFFFFFFF, 0x0, 0x0, 0x0⟩,  -- CHR_CMP0c
  ⟨0x3010, 16, 0x40, 0x0, 0xFFFFFFFF, 0x0, 0x0, 0x0⟩,  -- CHR_CMP1c
  ⟨0x3014, 16, 0x40, 0x0, 0x0, 0x0, 0x0, 0x0⟩,  -- CHR_CAP0c
  ⟨0x3018, 16, 0x40, 0x0, 0x0, 0x0, 0x0, 0x0⟩,  -- CHR_CAP1c
  ⟨0x301C, 16, 0x40, 0x0, 0x7E7F7E7F, 0x0, 0x0, 0x0⟩,  -- CHR_CAPCTLc
  ⟨0x3020, 16, 0x40, 0x0, 0x0, 0x0, 0x3CE, 0x0⟩,  -- CHR_STATc
  ⟨0x3024, 16, 0x40, 0x0, 0x3FF, 0x0, 0x0, 0x0⟩,  -- CHR_IRQ_ENc
  ⟨0x3400, 1, 0x4, 0x0, 0x0, 0x0, 0x0, 0x0⟩,  -- CHR_START
  ⟨0x3404, 1, 0x4, 0x0, 0x0, 0x0, 0x0, 0x0⟩,  -- CHR_STOP
  ⟨0x3408, 1, 0x4, 0x0, 0xF0F0F0F, 0x0, 0x0, 0x0⟩,  -- CHR_IN_CTL
  ⟨0x3410, 4, 0x4, 0x0, 0xFFFFFFC7, 0x0, 0x0, 0x0⟩  -- CHR_OUTCTL0
  ]

/-- The EVC rows of the register tables. -/
def evcRows : List RegRow := [
  ⟨0x4000, 1, 0x4, 0x0, 0x7F7F08, 0x0, 0x0, 0x0⟩,  -- EVC_GLB
  ⟨0x4004, 1, 0x4, 0x0, 0x0, 0x0, 0xFFFFFFFF, 0x0⟩,  -- EVC_OVF
  ⟨0x4008, 1, 0x4, 0x0, 0xFFFFFFFF, 0x0, 0x0, 0x0⟩,  -- EVC_IRQ_EN
  ⟨0x4100, 32, 0x10, 0x0, 0xFF, 0x0, 0x0, 0x0⟩,  -- EVC_CFGn
  ⟨0x4104, 32, 0x10, 0x0, 0x0, 0x0, 0x0, 0x0⟩,  -- EVC_LOn
  ⟨0x4108, 32, 0x10, 0x0, 0x0, 0x0, 0x0, 0x0⟩  -- EVC_HIn
  ]

/-- The PWR rows of the register tables. -/
def pwrRows : List RegRow := [
  ⟨0x1000, 1, 0x4, 0x0, 0x3FFFFFFF, 0x0, 0x0, 0x0⟩,  -- PWR_REQ_MASK
  ⟨0x1004, 1, 0x4, 0x0, 0x300, 0x0, 0x0, 0x0⟩,  -- PWR_REQ
  ⟨0x1008, 1, 0x4, 0x0, 0x0, 0x0, 0x0, 0x0⟩,  -- PWR_STAT
  ⟨0x100C, 1, 0x4, 0x0, 0x0, 0x0, 0xF, 0x0⟩,  -- PWR_IRQ_STAT
  ⟨0x1010, 1, 0x4, 0x0, 0xF, 0x0, 0x0, 0x0⟩,  -- PWR_IRQ_EN
  ⟨0x1014, 1, 0x4, 0x0, 0x0, 0x0, 0x0, 0x0⟩,  -- PWR_PAD_RELEASE
  ⟨0x1018, 1, 0x4, 0x0, 0x0, 0x0, 0x0, 0x0⟩,  -- PWR_PAD_STAT
  ⟨0x101C, 1, 0x4, 0x0, 0x3FFFFFFE, 0x0, 0x0, 0x0⟩,  -- PWR_PAD_AUTO
  ⟨0x1020, 1, 0x4, 0x0, 0x0, 0x0, 0x0, 0x0⟩,  -- PWR_BIAS
  ⟨0x1030, 4, 0x4, 0x0, 0xF, 0x0, 0x0, 0x0⟩,  -- PWR_WAKE_SP0
  ⟨0x1040, 4, 0x4, 0xFFFF0000, 0xFFFFFFFF, 0x0, 0x0, 0x0⟩,  -- PWR_WAKE_WIN0
  ⟨0x1050, 1, 0x4, 0x0, 0x1, 0x0, 0x0, 0x0⟩,  -- PWR_WAKE_HCS
  ⟨0x1054, 1, 0x4, 0x0, 0x1, 0x0, 0x0, 0x0⟩,  -- PWR_WAKE_CAS
  ⟨0x1060, 4, 0x4, 0x8, 0x3FFFFFFF, 0x0, 0x0, 0x0⟩,  -- PWR_WAKE_TGT0
  ⟨0x1070, 1, 0x4, 0x4, 0x3FFFFFFF, 0x0, 0x0, 0x0⟩,  -- PWR_WAKE_TGT4
  ⟨0x1074, 1, 0x4, 0x1000, 0x3FFFFFFF, 0x0, 0x0, 0x0⟩,  -- PWR_WAKE_TGT5
  ⟨0x1078, 1, 0x4, 0x0, 0x0, 0x0, 0x0, 0x0⟩,  -- PWR_WAKE_LAST
  ⟨0x1100, 1, 0x4, 0x0, 0x0, 0x0, 0x0, 0x0⟩,  -- PWR_DOM0
  ⟨0x1104, 29, 0x4, 0x2, 0x0, 0x0, 0x0, 0x0⟩,  -- PWR_DOM1
  ⟨0x1180, 30, 0x4, 0x0, 0x0, 0x0, 0x0, 0x0⟩  -- PWR_DMAX0
  ]

/-- The MGT rows of the register tables. -/
def mgtRows : List RegRow := [
  ⟨0x5000, 1, 0x4, 0x0, 0x0, 0x0, 0x0, 0x0⟩,  -- MGT_STAT
  ⟨0x5004, 1, 0x4, 0x0, 0x0, 0x0, 0x0, 0x0⟩,  -- MGT_FW_VERSION
  ⟨0x5008, 1, 0x4, 0x0, 0x0, 0x0, 0x3F, 0x0⟩,  -- MGT_IRQ_STAT
  ⟨0x500C, 1, 0x4, 0x0, 0x3F, 0x0, 0x0, 0x0⟩,  -- MGT_IRQ_EN
  ⟨0x5010, 1, 0x4, 0x0, 0x0, 0x0, 0x0, 0x0⟩,  -- MGT_MB_CTL
  ⟨0x5014, 1, 0x4, 0x1, 0x3, 0x0, 0x0, 0x0⟩,  -- MGT_UPD_CTL
  ⟨0x5040, 16, 0x4, 0x0, 0xFFFFFFFF, 0x0, 0x0, 0x0⟩,  -- MGT_MBI0
  ⟨0x5080, 16, 0x4, 0x0, 0x0, 0x0, 0x0, 0x0⟩,  -- MGT_MBO0
  ⟨0x50C0, 1, 0x4, 0x0, 0x0, 0x0, 0x0, 0x0⟩,  -- MGT_LOG_STAT
  ⟨0x50C4, 1, 0x4, 0x201, 0x301, 0x0, 0x0, 0x0⟩,  -- MGT_LOG_CTL
  ⟨0x50C8, 1, 0x4, 0x0, 0xFFF, 0x0, 0x0, 0x0⟩,  -- MGT_LOG_SEL
  ⟨0x50D0, 4, 0x4, 0x0, 0x0, 0x0, 0x0, 0x0⟩,  -- MGT_LOG_DATA0
  ⟨0x50E0, 1, 0x4, 0x0, 0x0, 0x0, 0x0, 0xFFFFFFFF⟩,  -- MGT_CNT_LOG_DROP
  ⟨0x5100, 17, 0x4, 0x0, 0x0, 0x0, 0x0, 0x0⟩,  -- MGT_TEMP0
  ⟨0x5180, 6, 0x4, 0x0, 0x0, 0x0, 0x0, 0x0⟩,  -- MGT_SUPPLY0
  ⟨0x51A0, 1, 0x4, 0x91007D, 0x1FF01FF, 0x0, 0x0, 0x0⟩,  -- MGT_ALARM_CFG
  ⟨0x51A4, 1, 0x4, 0x0, 0x0, 0x0, 0xF1, 0x0⟩,  -- MGT_FAULT
  ⟨0x51A8, 1, 0x4, 0xFF, 0xFF, 0x0, 0x0, 0x0⟩,  -- MGT_FAULT_EN
  ⟨0x51AC, 1, 0x4, 0x0, 0x0, 0x0, 0x7, 0x0⟩  -- MGT_ALARM_STAT
  ]

/-- The CAS rows of the register tables. -/
def casRows : List RegRow := [
  ⟨0x6000, 1, 0x4, 0x0, 0x3, 0x0, 0x0, 0x0⟩,  -- CAS_CTL
  ⟨0x6004, 1, 0x4, 0x0, 0x0, 0xF07, 0x0, 0x0⟩,  -- CAS_CFG
  ⟨0x6008, 1, 0x4, 0x0, 0x0, 0x0, 0x0, 0x0⟩,  -- CAS_STAT
  ⟨0x600C, 1, 0x4, 0x0, 0x0, 0x0, 0x0, 0x0⟩,  -- CAS_POOL
  ⟨0x6010, 1, 0x4, 0x0, 0x0, 0x0, 0x0, 0x0⟩,  -- CAS_OCCUPANCY
  ⟨0x6014, 1, 0x4, 0x0, 0x0, 0x0, 0x0, 0x0⟩,  -- CAS_PRESENT
  ⟨0x6018, 1, 0x4, 0x0, 0x0, 0x0, 0x3F, 0x0⟩,  -- CAS_IRQ_STAT
  ⟨0x601C, 1, 0x4, 0x0, 0x3F, 0x0, 0x0, 0x0⟩,  -- CAS_IRQ_EN
  ⟨0x6020, 1, 0x4, 0x0, 0x0, 0x0, 0x0, 0xFFFFFFFF⟩,  -- CAS_CNT_LOSS
  ⟨0x6024, 1, 0x4, 0x0, 0x0, 0x0, 0x0, 0xFFFFFFFF⟩,  -- CAS_CNT_BAD_SF
  ⟨0x6028, 1, 0x4, 0x0, 0x0, 0x0, 0x0, 0xFFFFFFFF⟩,  -- CAS_CNT_PKT_DROP
  ⟨0x602C, 1, 0x4, 0x0, 0x0, 0x0, 0x0, 0xFFFFFFFF⟩,  -- CAS_CNT_DIR_DEFER
  ⟨0x6030, 1, 0x4, 0x0, 0x0, 0x0, 0x0, 0xFFFFFFFF⟩,  -- CAS_CNT_DIR_LATE
  ⟨0x6034, 1, 0x4, 0x0, 0x0, 0x0, 0x0, 0xFFFFFFFF⟩  -- CAS_CNT_HOLD
  ]

/-- The address of the same register of cluster 0, for a cluster's register. -/
def cluNorm (a : Nat) : Nat :=
  if 0x10000 ≤ a ∧ a < 0x20000 then 0x10000 + (a - 0x10000) % 0x1000 else a

/-- Does the row hold this address? -/
def RegRow.holds (r : RegRow) (a : Nat) : Bool :=
  decide (r.base ≤ a) && (a - r.base) % r.stride == 0 && decide ((a - r.base) / r.stride < r.count)

/-- The rows of the block an address lies in (R547). -/
def blockRows (a : Nat) : List RegRow :=
  if a < 0x1000 then glbRows
  else if a < 0x2000 then pwrRows ++ aonRows
  else if a < 0x3000 then serRows
  else if a < 0x4000 then chrRows
  else if a < 0x5000 then evcRows
  else if a < 0x6000 then mgtRows
  else if a < 0x7000 then casRows
  else if a < 0x8000 then memRows
  else if a < 0xC000 then almRows
  else if a < 0xD000 then alcRows
  else if a < 0xE000 then mixRows ++ outRows
  else if a < 0xF000 then tdmRows
  else if a < 0x10000 then calRows
  else if a < 0x20000 then cluRows
  else if a < 0x21000 then winRows
  else []

/-- The register row of an address; none for a reserved address (R14). -/
def rowOf (a : Nat) : Option RegRow := (blockRows a).find? (fun r => r.holds (cluNorm a))

/-- The reset value of a register (R15); zero at a reserved address. -/
def regReset (a : Nat) : Word :=
  match rowOf a with
  | some r => r.reset
  | none => 0

end Sys2Proof.Machine
end

