-- ==== Sys2Proof/Machine/Cells.lean ====
section
/-! DEFINITION. A sparse store: a list of address and value pairs in one canonical form (addresses
strictly rising, no entry equal to what an unlisted address reads as), with its read and its write.
The byte banks and the registers are all held so. -/

namespace Sys2Proof.Machine

/-- What address a reads as: its entry, or the value of an unlisted address. -/
def cellGet {α : Type} (dflt : Nat → α) : List (Nat × α) → Nat → α
  | [], a => dflt a
  | (b, w) :: r, a => if a = b then w else cellGet dflt r a

/-- The store with a value put at an address; writing what an unlisted address reads as removes the entry. -/
def cellSet {α : Type} [DecidableEq α] (dflt : Nat → α) : List (Nat × α) → Nat → α → List (Nat × α)
  | [], a, v => if v = dflt a then [] else [(a, v)]
  | (b, w) :: r, a, v =>
    if b < a then (b, w) :: cellSet dflt r a v
    else if v = dflt a then ((b, w) :: r).filter (fun p => p.1 != a)
    else (a, v) :: (if a = b then r else (b, w) :: r)

/-- Every address of the list is above the bound. -/
def cellsAbove {α : Type} (b : Nat) (l : List (Nat × α)) : Bool := l.all (fun p => decide (b < p.1))

/-- The canonical form. -/
def cellsWf {α : Type} [DecidableEq α] (dflt : Nat → α) : List (Nat × α) → Bool
  | [] => true
  | (a, v) :: r => cellsAbove a r && decide (v ≠ dflt a) && cellsWf dflt r

/-- n bytes from an address, the lowest first. -/
def cellBytes {α : Type} (dflt : Nat → α) (m : List (Nat × α)) (a n : Nat) : List α :=
  (List.range n).map (fun k => cellGet dflt m (a + k))

/-- Bytes written at an address, the lowest first. -/
def cellPutBytes {α : Type} [DecidableEq α] (dflt : Nat → α) (m : List (Nat × α)) (a : Nat) : List α → List (Nat × α)
  | [] => m
  | b :: r => cellPutBytes dflt (cellSet dflt m a b) (a + 1) r

/-- A little-endian number of bytes (R7). -/
def leNat : List Byte → Nat
  | [] => 0
  | b :: r => b.toNat + 256 * leNat r

/-- The n little-endian bytes of a number (R7). -/
def leBytes : Nat → Nat → List Byte
  | 0, _ => []
  | n + 1, v => BitVec.ofNat 8 v :: leBytes n (v / 256)

end Sys2Proof.Machine
end

