-- ==== Sys2Proof/Machine/State.lean ====
section
/-! DEFINITION. The state of the DY256 as plain data, its outcomes' reasons, and the state after reset.
Register values that software writes, status bits and counters stand in `regs` under their addresses;
what a unit keeps for itself stands in that unit's structure. -/

namespace Sys2Proof.Machine

/-- Why a step can stop with a fault.  No command of this block does: the spec gives the block no stop. -/
inductive Fault where
  /-- Raised by no command; kept because the host's interface names a fault type. Safe. -/
  | none
  deriving DecidableEq, Repr

/-- Why a command has no meaning. -/
inductive Refusal where
  /-- Raised by the arm of a command that has no meaning yet, by its mnemonic. Safe. -/
  | notModelled (mnemonic : String)
  deriving DecidableEq, Repr

/-! ### Frame timer, slack monitor, VID loop and deadline guard (R37 to R70) -/

/-- The VID loop as the management firmware keeps it (R53 to R56). -/
structure Vid where
  code : Nat             -- the loop's code, on the pins while the loop runs
  down : Nat
  holdoff : Nat
  settling : Bool        -- a code change waits for the rail
  requested : Nat        -- the code the wait is for
  request : Option Nat   -- the latest request that fell due during the wait
  settled : Bool         -- the rail is within 15 mV of the request
  timeouts : Nat         -- consecutive settling timeouts
  fault : Bool
  deriving DecidableEq, Repr

/-- The frame timer and what is counted in frames (R41 to R62). -/
structure Frame where
  ef : Nat               -- the 40-bit EF counter: the number of the last release
  released : Bool        -- a release has come since reset
  refValid : Bool        -- REFCLK present and validated
  refEver : Bool         -- REF_VALID has set since CTRL last woke
  audio : Bool           -- the present EF's release reached the audio pipelines (a guard EF)
  steps : Nat            -- GLB_GUARD.STEPS
  clean : Nat            -- GLB_GUARD.CLEAN, with 65,537 for more than 65,536
  cleanAt : Option Nat   -- the EF counted in it last
  stepEf : Bool          -- STEPS decreased in the present EF, which CLEAN does not count
  guardEf : Nat          -- guard EF counted so far, the present one included
  winOpen : Bool
  winStart : Nat         -- the guard EF that opened the window
  winLate : Nat          -- GLB_GUARD.WIN_LATE
  winSet : List Nat      -- clusters late in the open window
  lateIdx : Option Nat   -- the last guard EF counted as late
  slackNow : List (Nat × Nat)  -- cluster and slack of the frame being delivered
  winMin : Nat           -- lowest slack so far in the 4,096 EF window
  winDone : Bool         -- the firmware has run the loop for the window that ended
  vid : Vid
  deriving DecidableEq, Repr

/-! ### Host access port (R403 to R427) -/

/-- A holding register with its tag: word address, data and byte enables of the low half (R409). -/
structure Hold where
  addr : Nat
  data : BitVec 16
  be : BitVec 2
  deriving DecidableEq, Repr

/-- What a low-half read of an event counter keeps (R465): the high half of EVC_LOn and EVC_HIn. -/
structure EvcSnap where
  n : Nat
  loHigh : Option (BitVec 16)
  hi : Option Word
  deriving DecidableEq, Repr

/-- A write posted to the H write queue, with its commit's EF (R413). -/
structure HWrite where
  offset : Nat
  value : Word
  be : BitVec 4
  ef : Nat
  mgmt : Bool
  deriving DecidableEq, Repr

/-- The host port's own registers (R408, R409, R64, R465, R422 to R424). -/
structure HostPort where
  snap : Option (Nat × BitVec 16)   -- tag and high half
  hold : Option Hold
  efLoHigh : Option (BitVec 16)     -- R64: snapshot for the high half of GLB_EF_LO
  efHi : Option Word                -- R64: snapshot for GLB_EF_HI
  evc : List EvcSnap
  aonHold : Option Hold             -- the responder's holding register (R423)
  hd : Option (BitVec 16)           -- what HD[15:0] carried in the last read strobe; none: high impedance (R104, R404)
  hirqHeld : Option Bool            -- HIRQ_N (true = low) held at entry until PAD_RELEASE (R424)
  hq : List HWrite                  -- the H write queue, oldest first
  vwords : List Nat                 -- words that V writes of the present release wrote (R415)
  hwords : List (Nat × BitVec 4 × Bool)  -- words landed at the present release: offset, bytes, and whether a collision was counted
  deriving DecidableEq, Repr

/-- The wave window's buffers (R417 to R420). -/
structure Window where
  rd : List Word                    -- read-ahead words, the next to pop first
  rdAddr : Nat                      -- the wave address the next fetch takes
  rdEnd : Bool                      -- no fetch goes on: none has started, or it has reached the end of wave DRAM
  wr : List (Nat × Word × BitVec 4 × Bool)  -- posted words: address, value, byte enables, packed
  dir : Bool                        -- direction in force
  deriving DecidableEq, Repr

/-! ### Memories, mover and patrol (R428 to R445) -/

/-- The state code of a mover channel (MEM_MVc_STAT.STATE, R445). -/
inductive MoverState where
  | idle | busy | done | rejected | aborted
  deriving DecidableEq, Repr

/-- A mover channel: the transfer it runs (R436 to R438). -/
structure Mover where
  state : MoverState
  reason : Nat
  src : Nat
  dst : Nat
  srcSpace : Nat
  dstSpace : Nat
  length : Nat
  crcOn : Bool
  irq : Bool
  pos : Nat
  crc : Word
  abort : Bool
  deriving DecidableEq, Repr

/-- The patrol (R440 to R443). -/
structure Patrol where
  bank : Nat
  region : Nat
  laps : Nat
  started : Bool                    -- a borrow has been made since reset
  borrowed : Bool
  deriving DecidableEq, Repr

/-- What the host's or the mover's lane to wave DRAM has moved (R433). -/
structure Lane where
  used : Nat                        -- lines of its 9 in the present EF
  part : Nat                        -- lines of its waiting burst that moved in earlier EF
  deriving DecidableEq, Repr

/-- The banks whose bytes the spec lets software or a unit address (R428). -/
structure Mems where
  pstore : List Host.Cell           -- parameter store, 1 MiB
  wave : List Host.Cell             -- wave DRAM, 128 MiB
  waveLoss : Nat                    -- times the wave DRAM's contents were lost (R431)
  outwave : List Host.Cell          -- output waveform memory, group g at g × 10000h
  mram : List Host.Cell             -- management RAM, 256 KiB
  dramReady : Bool
  lanePri : Nat                     -- lines the priority lane has moved in the present EF
  laneHost : Lane                   -- the host's lane
  laneMov : Lane                    -- the mover's
  lead : Int                        -- lines beyond its reserve that the host's lane is ahead of the mover's, while both need some
  turn : Nat                        -- the mover channel whose turn comes first (R438)
  movers : List Mover               -- four channels
  patrol : Patrol
  deriving DecidableEq, Repr

/-! ### Chronographs, event counters and the event bus (R446 to R469) -/

/-- A chronograph. -/
structure Chrono where
  count : Nat
  origin : Nat                      -- the edge from which the prescaler counts (R450)
  from_ : Nat                       -- the first edge that can bring its next prescaled tick
  ticks : List Nat                  -- increments registered for it and not yet counted
  cap : List Nat                    -- CHR_CAP0c, CHR_CAP1c
  capDue : List (List Nat)          -- per channel, the captures not yet made: ticks each still waits for (R455)
  deriving DecidableEq, Repr

/-- A CHR_OUT pin: the level its mode gives, the changes on their way, the level at the pin. -/
structure ChrOut where
  mode : Bool                       -- the level before inversion
  last : Bool                       -- the last level sent towards the pin
  way : List (Nat × Bool)           -- levels on their way to the pin with the edges they reach it at, in their order
  pin : Bool
  pulse : Option Nat                -- the edge at which the PULSE that runs ends
  woken : Bool                      -- MODE has been other than LOW since reset
  deriving DecidableEq, Repr

/-- Chronographs, event counters and the internal event bus. -/
structure Counters where
  chr : List Chrono                 -- 16
  outs : List ChrOut                -- 4
  ins : List Bool                   -- filtered CHR_IN levels, 4
  evc : List Nat                    -- 32 counts of 48 bits
  evcHeld : List Nat                -- the values FREEZE holds
  frozeAt : Nat                     -- the edge at which FREEZE set last
  run : Bool                        -- EVC_GLB.RUN
  edge : Nat                        -- the present REFCLK edge, 64 to an EF; a multiple of 64 is a release (R446)
  bus : List (Nat × Nat × Nat)      -- occurrences on their way, by edge: edge, code and number
  wait : List (Nat × Word)          -- CHR and EVC writes that wait for the reference, oldest first (R446)
  latched : Option (List Bool)      -- CHR_OUT levels held since CTRL left ON (R461)
  deriving DecidableEq, Repr

/-! ### Power controller (R470 to R495) -/

/-- The lasting states of a domain (R470). -/
inductive DomState where
  | on | ret | off | failed
  deriving DecidableEq, Repr

/-- What a domain is doing for the controller. -/
inductive DomPhase where
  | rest
  /-- an entry request waits for its dependents or its agent (ENTERING) -/
  | asked (target : DomState)
  /-- the agent has answered DELAY -/
  | delayed (target : DomState)
  /-- the agent has answered ACK; the entry steps wait their turn -/
  | acked (target : DomState)
  /-- a wake waits its turn or runs (WAKING) -/
  | waking
  /-- a failed wake waits 1 ms for its retry -/
  | retryWait
  deriving DecidableEq, Repr

/-- A power domain as the controller holds it. -/
structure Domain where
  state : DomState
  phase : DomPhase
  batch : Nat                       -- the batch its request belongs to
  wakeNext : Option Nat             -- the batch of a wake queued behind the entry (R476)
  entryNext : Option (Nat × DomState)  -- an entry that has replaced such a wake: its batch and target (R476)
  wokeFrom : DomState               -- the state the last wake started from (R495)
  result : Nat                      -- PWR_DOMd.LAST_RESULT
  reason : Nat                      -- PWR_DOMd.REASON
  attempts : Nat
  failStep : Nat
  cold : Bool                       -- the attempt runs as a wake from OFF
  latched : Bool                    -- pads latched
  saved : List (Nat × Word)         -- the save list in AON save RAM
  everOn : Bool                     -- the domain has been ON since reset
  deriving DecidableEq, Repr

/-- A serial wake detector (R486). -/
structure WakeDet where
  disarmed : Bool
  count : Nat
  deriving DecidableEq, Repr

/-- The power controller. -/
structure Power where
  doms : List Domain                -- 30
  batch : Nat                       -- number of the last batch issued
  open_ : List Nat                  -- batches with a request not yet ended
  arb : List Nat                    -- domains whose wake the arbitration in progress has requested (R473, R476)
  ready : List Nat                  -- domains with an execution phase to come, in the order they became ready
  dets : List WakeDet               -- 4
  aonWakeDom : Nat                  -- AON_STATUS.LAST_DOM
  aonWakeBusy : Bool                -- AON_STATUS.WAKE_BUSY
  wassist : Bool
  coldBoost : Nat                   -- bit d = cold boost applied to domain d
  deriving DecidableEq, Repr

/-! ### Management subsystem (R496 to R525) -/

/-- An event raised for the log (R504). -/
structure LogEv where
  ef : Nat
  noref : Bool
  source : Nat
  code : Nat
  sev : Nat
  pos : Nat
  fwd : Bool
  data : List Byte
  deriving DecidableEq, Repr

/-- An update session (R512, R513). -/
structure Session where
  path : Nat
  port : Nat
  slot : Nat
  len : Nat
  got : Nat
  deriving DecidableEq, Repr

/-- One alarm (R501): raised, consecutive readings out of limits of each sensor, consecutive readings back
within them, and the sensor that raised it. -/
structure Alarm where
  raised : Bool
  runs : List Nat
  low : Nat
  who : Nat
  deriving DecidableEq, Repr

/-- The management subsystem. -/
structure Mgmt where
  mode : Nat                        -- MGT_STAT.MODE
  queue : List LogEv                -- the AON log queue, oldest first
  own : List LogEv                  -- entries of the firmware's own that wait for a borrow of the ring to end (R441)
  lost : Nat                        -- events lost and not yet reported in the log
  total : Nat                       -- log entries written
  mirrored : Nat                    -- of these, entries handled by the mirror
  busy : Bool                       -- MGT_MB_CTL.BUSY
  request : List Byte               -- the copied request
  response : Option (List Byte)     -- the response to be written
  session : Option Session
  resetDue : Bool                   -- UPD_END with RESET succeeded; the reset is due
  fwVersion : Nat
  secVersion : Nat
  wdogLog : Bool                    -- a watchdog reset is to be logged first
  temps : List Nat                  -- 17 readings, two's complement 16 bits
  tempSeen : Bool                   -- sensors have been measured since reset
  supplies : List Nat               -- 6 readings in mV
  ioHigh : Option Bool              -- VDD_IO_H is in its upper window (first reading, R501)
  twarn : Alarm
  tcrit : Alarm
  supply : List Alarm               -- 6
  passed : List (Option Int)        -- T_c each cluster's slices hold, 1/128 degree
  mirrorSec : Nat                   -- mirror sector in use
  mirrorSeq : Nat                   -- its sequence
  mirrorPos : Nat                   -- its next unwritten position
  mirrorUp : Bool                   -- the mirror has been resumed since boot
  lowLogged : Bool                  -- low slack at code 15 is logged once per EF window (R55)
  deriving DecidableEq, Repr

/-! ### Almanac (R115 to R153) -/

/-- The states of a pool entry that is in use (R115). -/
inductive TaskState where
  | waiting | ready | slotted | active | done
  deriving DecidableEq, Repr

/-- A task in the pool. -/
structure Task where
  idx : Nat                         -- pool index
  typ : Nat
  flags : Nat
  flow : Nat
  state : TaskState
  tag : Nat
  target : Nat
  origin : Nat
  relEf : Nat                       -- release EF
  due : Nat                         -- DUE, or the due tick while DELAYED
  seq : Nat
  payload : List Byte               -- 12 bytes
  gseq : Nat                        -- global release sequence
  order : Nat                       -- posting order
  returned : Bool                   -- returned to READY by R122 and not yet released again
  doneEf : Nat                      -- EF in which the firmware marked it DONE (R128)
  chosen : List Nat                 -- slots the Parlour has chosen for it (R28)
  taken : List Nat                  -- those of them that were under calibration at the choice (R270)
  reuse : List Nat                  -- voices chosen for reuse at the choice (R176)
  deriving DecidableEq, Repr

/-- What the Almanac keeps of a task committed at the present release (R137). -/
structure Committed where
  tag : Nat
  flow : Nat
  deriving DecidableEq, Repr

/-- An entry of the done FIFO (R150). -/
structure Done where
  status : Nat
  ef : Nat
  tag : Nat
  deriving DecidableEq, Repr

/-- The Almanac. -/
structure Alm where
  pool : List Task                  -- the entries in use, in order of admission
  seqs : List Nat                   -- NEXT_SEQ of the 96 flows
  gseq : Nat
  order : Nat
  relNow : Nat                      -- tasks released in the present EF
  relLast : Nat                     -- tasks released in the last completed EF
  roundRel : List Nat               -- pool indices released in the round in progress
  tick : Nat
  sub : Nat                         -- EF since the last tick
  div : Nat                         -- the divisor in force
  tickDue : Nat                     -- ticks begun and not yet counted
  ran : Bool                        -- ACCEPTING has set since reset
  accepting : Bool
  ready : Bool                      -- a release has come since ACCEPTING set (R122)
  done : List Done
  committed : List Committed
  deriving DecidableEq, Repr

/-! ### Parlour and voices (R154 to R187) -/

/-- The states of a voice slot (R165). -/
inductive VState where
  | free | arming | sounding | releasing | stealing | quench
  deriving DecidableEq, Repr

/-- A voice slot as the Parlour holds it.  The block in the parameter store is its copy (R161). -/
structure Voice where
  state : VState
  gen : Nat
  handle : Nat
  part : Nat
  key : Nat
  vel : Nat
  vel16 : Nat
  patch : Nat
  uniIdx : Nat
  uniN : Nat
  start : Nat                       -- effect EF
  tag : Nat
  sustained : Bool
  sostenuto : Bool
  offPending : Bool
  gotOff : Bool                     -- its note-off has come and a pedal holds it (R169)
  cut : Bool
  relVel : Nat
  fadeAt : Nat                      -- EF s of the steal fade
  fadeLen : Nat                     -- F
  quenchAt : Nat                    -- EF q
  member : Nat                      -- MEMBER of a slot of another device; an own slot's is in its block
  pool : Bool                       -- on a worker: a voice of the chain's pool, which the master drives
  deriving DecidableEq, Repr

/-- A committed note-on in the deferral queue (R177). -/
structure Deferred where
  tag : Nat
  flow : Nat
  payload : List Byte
  since : Nat                       -- the EF of its commit
  off : Option Nat                  -- release velocity of a note-off that committed meanwhile
  order : Nat                       -- its task's posting order, by which its directives name it
  tried : Option Nat                -- the EF in which it last found no room to arm
  deriving DecidableEq, Repr

/-- The Parlour. -/
structure Parlour where
  voices : List Voice               -- 2,048: own slots, then on a master chain slots 256 × p + v
  p : Nat
  h : Nat
  l : Nat
  res : List Nat                    -- R_p of the 32 parts
  deferred : List Deferred
  own : Nat                         -- P of the device's own slots, which a master's P exceeds (R537)
  head : Nat                        -- STEAL_HEADROOM as the latest release took it (R182)
  armed : Nat                       -- note-ons armed in the present EF
  monoStacks : List (List Nat)          -- held keys of each part before TRANSPOSE, the most recent first (R176)
  monoAt : List (Option (Nat × Bool × List Nat))  -- EF of the part's last reuse, whether a key was held before it, and its voices that were RELEASING
  deriving DecidableEq, Repr

/-! ### Boot (R71 to R114) -/

/-- A section of the image's table (R85). -/
structure Sect where
  index : Nat
  typ : Nat
  optional : Bool
  off : Nat
  len : Nat
  crc : Word
  deriving DecidableEq, Repr

/-- An entry of a register initialisation list (R96). -/
structure RegEntry where
  op : Nat
  arg : Nat
  addr : Nat
  value : Word
  deriving DecidableEq, Repr

/-- What the ROM and the firmware keep of a boot. -/
structure Boot where
  slotA : Nat                       -- slot bases and log base in use (R80, R81)
  slotB : Nat
  logBase : Nat
  prefer : Nat
  nvmWait : Bool                    -- the reset commands are issued and the 100 µs run (R76)
  tried : List Nat                  -- slots that have failed in this boot, the marked one included
  sects : List Sect                 -- the accepted slot's table
  hdrSec : Nat                      -- SEC_VERSION of the accepted header
  hold : Bool                       -- BOOT_FLAGS.HOLD_ENGINE
  wakeMask : Nat
  lists : List (Nat × List RegEntry)  -- lists of the running phase: section index and entries to run
  delaying : Bool                   -- a DELAY entry waits
  polling : Bool                    -- the entry at the front is a POLL that has not yet seen its bit
  streams : List Sect               -- WAVEDATA and OUTWAVE sections still to stream
  streaming : Bool                  -- their streaming has begun (R99, R111)
  calDone : Bool                    -- foreground calibration is complete
  lists1 : Bool                     -- the phase 01h lists have been taken up
  failed : Bool                     -- the slot failed after its firmware started; the reset is due (R106)
  asNvm : Bool                      -- RETRY has restarted step 4 as if BOOT_SRC = 00b (R112)
  sleeps : List Nat                 -- domains asked to go OFF after step 6 whose requests have not ended (R100)
  oemId : List Byte                 -- the 64 bytes of a valid OEM_ID section, in management RAM (R87, R94)
  sysexId : List Byte               -- SYSEX_ID of a valid OEM_ID section, empty without one (R94)
  deriving DecidableEq, Repr
/-! ### Oscillators, modulation and cells of the voices (R188 to R284) -/

/-- A glide: old pitch less new pitch, its length and its first EF (R196). -/
structure Glide where
  diff : Int
  len : Nat
  since : Nat
  deriving DecidableEq, Repr

/-- An oscillator of a voice (R193 to R212). -/
structure Osc where
  model : Nat                       -- 0 off, 1 WAVETABLE, 2 SAMPLE, 3 VA, 4 external input
  dir : List Byte                   -- the copied wave directory entry (R191)
  phase : Nat
  pos : Int                         -- SAMPLE position: index × 2^32 + fraction
  back : Bool
  turned : Bool                     -- it has wrapped, or turned backward, at least once
  ended : Bool
  endVoice : Bool
  lines : List Nat                  -- lines of its latest kernel window (R434)
  step0 : Nat                       -- S0 (R199)
  y1 : Int                          -- the last output
  y2 : Int                          -- the output before it
  restart : Option Nat              -- MONO reuse: the EF that reads from START again (R212)
  glide : Option Glide              -- the glide in progress (R196)
  deriving DecidableEq, Repr

/-- An envelope: its segment, the EF it began, its length, the level it started from and its value at the
last evaluation point (R232, R233). -/
structure Env where
  seg : Nat                         -- 0 DELAY, 1 ATTACK, 2 HOLD, 3 DECAY, 4 SUSTAIN, 5 RELEASE, 6 complete
  since : Nat
  len : Nat
  l0 : Int
  val : Int
  deriving DecidableEq, Repr

/-- An LFO (R238 to R240). -/
structure Lfo where
  phase : Nat
  inc : Nat
  lfsr : Nat
  rPrev : Int
  rNew : Int
  total : Nat                       -- phase advanced in all, for ONESHOT
  stopped : Bool
  nd : Nat                          -- N_D of the fade, fixed at s (R230, R240)
  nf : Option Nat                   -- N_F, fixed where the fade's rise begins
  out : Int
  deriving DecidableEq, Repr

/-- A route's source, its history (the newest first) and its smoothed value (R245). -/
structure Route where
  word : Nat
  hist : List Int
  y : Int
  deriving DecidableEq, Repr

/-- What an evaluation point produced (R224). -/
structure Pt where
  ef : Nat
  envs : List Int
  lfos : List Int
  sums : List Int                   -- S_d, 64 entries
  deriving DecidableEq, Repr

/-- The gain parameters of one EF, for the output stage six EF later (R227, R274 to R276). -/
structure Gain where
  env0 : Int
  ampf : Int
  amp : Nat
  pan : Int
  levels : List Nat
  deriving DecidableEq, Repr

/-- What a cluster keeps for the voice of a slot. -/
structure VAud where
  start : Nat                       -- the first-sample EF s
  arm : List Byte                   -- WORK as read at arming
  base : List Byte                  -- WORK as read at the latest CF read point
  part : List Byte                  -- the part record as read there
  pn : List Byte                    -- voice block bytes 40h to 44h as read there
  assign : List Byte                -- ASSIGN0 to ASSIGN5 as read there
  key : Nat                         -- KEY, VEL, VEL16 and RELVEL as read there
  vel : Nat
  vel16 : Nat
  relVel : Nat
  oscs : List Osc                   -- A, B, C
  seed : Nat
  lfsr : Nat
  rows : List Int                   -- the 16 rows of pink noise
  red : Int
  loaded : Bool                     -- the slot has sounded since its cluster woke
  envs : List Env
  lfos : List Lfo
  routes : List Route               -- 24
  ptA : Option Pt                   -- the evaluation point before the last
  ptB : Option Pt                   -- the last evaluation point computed
  gate : Bool
  gateFall : Option Nat             -- gate point c not yet passed by an evaluation (R235)
  restart : Option Nat              -- restart point c not yet passed by an evaluation (R236)
  segs : List Nat                   -- segment of each envelope as its ends have been reached
  segEnds : List (Nat × Nat × Nat)  -- EF, envelope and following segment, of ends to come
  gains : List Gain                 -- the newest first
  heads : List Nat                  -- head lines of an ARMING voice (R215)
  window : List Nat                 -- lines of the present kernel windows (R213)
  endAt : Option Nat                -- EF in which every END_VOICE oscillator has ended (R204)
  zero : Option Nat                 -- z (R237)
  level : Nat                       -- LEVEL as last written (R161, R228)
  deriving DecidableEq, Repr

/-- The four integrator outputs of a cell's filter, with 40 fraction bits (R263). -/
structure Stages where
  y1 : Int
  y2 : Int
  y3 : Int
  y4 : Int
  deriving DecidableEq, Repr

/-- A tile's cell and Skimmer chain (R258 to R306). -/
structure Tile where
  feed : Option Int                 -- the value the next release takes into the interpolator; none holds
  x0 : Int                          -- x_n
  x1 : Int                          -- x_(n−1)
  e1 : Int                          -- modulator error, 28 fraction bits
  e2 : Int
  dem : Nat                         -- element pointer
  elems : Nat                       -- the elements that drive the positive input in the last Fm period, bit per element
  ctrl : Nat                        -- control DAC code applied
  ctrlLast : Nat                    -- the code of the last completed EF
  cut : Nat                         -- the cutoff code behind it
  cutNow : Int                      -- the control input as it has settled, in codes of 16 fraction bits
  drive : Nat                       -- DRIVE in force, stepped
  driveLast : Nat                   -- DRIVE of the EF before
  fbk : Int                         -- feedback: RESONANCE' × RES_GAIN, zero while held at zero
  res : Nat                         -- RESONANCE' in force
  resLast : Nat                     -- RESONANCE' of the last completed EF
  mode : Nat                        -- FMODE in use
  bias : Nat                        -- trim applied, 8 bits
  kept : List Byte                  -- the calibration record as taken (R325)
  quench : Option Nat               -- EF q of the last quench
  closed : Bool                     -- the quench switch is closed
  y : Stages                        -- the filter
  err : Int                         -- the ADC loop's last difference, in codes of 40 fraction bits
  err2 : Int                        -- and the one before it
  run : Nat                         -- Fm periods of the present full-scale run
  declared : Bool                   -- overload has been declared for this run
  ovlDue : Nat                      -- overloads reached and not yet declared
  integ : List Nat                  -- stage A integrators, modulo 2^20
  combs : List (List Nat)           -- stage A comb histories, the newest first
  aHist : List Int                  -- stage A outputs, the newest first, 33
  bHist : List Int                  -- stage B outputs, the newest first, 35
  out : Int                         -- Skimmer output of the present EF
  outLast : Int                     -- that of the EF before, with the stage outputs formed in it (R315)
  probeA : Int
  probeB : Int
  peak : Nat                        -- largest magnitude in the 1,024 EF window in progress
  peakLast : Nat                    -- and in the last completed one
  deriving DecidableEq, Repr

/-- A running cross-fade: the EF of it that are past, F, and the bank faded out (R298). -/
structure XFade where
  pos : Nat
  log : Nat
  old : Bool
  deriving DecidableEq, Repr

/-- A line requested from wave DRAM and not yet filled (R214, R215, R434). -/
structure Req where
  line : Nat
  lane : Nat                        -- 0 head line, 1 rest of a first 4 KiB, 2 demand
  stream : Option (Nat × Nat × Nat) -- slot, oscillator and first-sample EF of the stream whose first 4 KiB it is of
  rank : Nat                        -- lines from the stream's kernel window when it was requested
  seq : Nat                         -- order of request in the device
  deriving DecidableEq, Repr

/-- A cluster: deadlines, wave cache, Skimmer banks and its contribution to the mix. -/
structure Clu where
  due : List Nat                    -- frames released to it and not delivered
  missAt : Option Nat               -- the EF in which a late frame was counted last
  flushAt : Option Nat              -- the EF of the last flush
  lateAt : Option Nat               -- the guard EF it was last late in
  lateSince : Nat                   -- late frames since the last frame-late entry
  lateLogAt : Option Nat
  wasActive : Bool                  -- active at the last release
  contrib : List Int                -- the bus sums of the last frame it delivered, 64
  fadeAt : Option Nat               -- release at which the fade of its held contribution began (R59)
  lines : List (Nat × List Byte)    -- lines of wave DRAM present in the cache, with their 64 bytes
  flight : List Req                 -- lines requested and not filled, the oldest first
  inval : List Nat                  -- pinned lines that await invalidation
  active : Bool                     -- SKM ACTIVE: true is bank B
  fade : Option XFade
  swapAt : Option Nat               -- release of the pending swap
  held : Option Nat                 -- the held swap's own release
  resets : List Nat                 -- releases of synchronising resets to come
  zeroAt : Option Nat               -- release r of the reset whose zero period runs
  valid : Bool
  tune : Int                        -- CLU_OSC_TUNE in force, held to its range
  lenM : Bool                       -- M = 2 in use
  lens : List (Nat × Bool)          -- changes of LEN_M to come: the release of its reset, and the value (R289)
  fresh : Bool                      -- its slices have not yet taken the records since it woke (R325)
  deriving DecidableEq, Repr

/-- A global LFO (R241, R242): its state, the record as read, and its values for the latest boundary and
the one to come. -/
structure GLfo where
  lfo : Lfo
  everRun : Bool
  running : Bool
  restart : Option Nat              -- the CF boundary at which a restart not yet taken falls
  now : Int
  next : Int
  nextAt : Nat                      -- the boundary `next` is for
  deriving DecidableEq, Repr

/-- The audio side of the clusters and the global modulation unit. -/
structure Audio where
  vaud : List VAud                  -- 256
  tiles : List Tile                 -- 256
  clus : List Clu                   -- 16
  glfo : List GLfo                  -- 16
  cfDone : Option Nat               -- the EF of the last CF boundary whose work has run
  reqSeq : Nat                      -- line requests made
  demTurn : Nat                     -- the cluster whose turn on the demand lane comes next
  deriving DecidableEq, Repr

/-! ### Calibration (R317 to R341) -/

/-- A calibration run of a cell (R319, R327, R328). -/
structure CalRun where
  slot : Nat
  step : Nat                        -- 1 to 5; 6 when every step has ended
  knot : Nat                        -- knot in progress in step 3
  tries : Nat                       -- measurements made in the step or knot
  trial : Nat                       -- step 5: the raw feedback being tried
  start : Nat                       -- release r of the measurement in progress
  settle : Nat
  window : Nat
  inc : Nat
  amp : Nat
  asked : Bool                      -- CAL_REQ named the slot
  re : Int                          -- sums of the correlator
  im : Int
  failStep : Nat                    -- the first failed step, 0 for none
  temp : Nat                        -- T_c at the run's start
  work : List Byte                  -- the record as it will be written
  old : List Byte                   -- the record at the run's start
  deriving DecidableEq, Repr

/-- The calibration sequencer and the detectors. -/
structure Cal where
  fgBusy : Bool
  runs : List CalRun
  queue : List (Nat × Bool)         -- queued slots; true for one that CAL_REQ named
  again : List (Nat × Bool)         -- slots the Parlour took, to be queued when FREE again
  res : List (Nat × Word × Word)    -- RE and IM of the slots that have measured since their cluster woke
  deriving DecidableEq, Repr

/-! ### Mix buses, outputs and TDM ports (R342 to R370) -/

/-- A bus of the mix engine (R343 to R346). -/
structure Bus where
  y : Int                           -- delivered value of the last frame released
  w : Nat                           -- mute weight
  win : List Nat                    -- meter window, the newest first
  meter : Nat                       -- MIX_METERn
  peak : Nat                        -- MIX_PEAKn
  deriving DecidableEq, Repr

/-- The mix engine, and the writes of the MIX, OUT and TDM blocks on their way (R342). -/
structure Mix where
  eff : List (Nat × Word)           -- values in force; an unlisted register holds its reset value
  effDue : List (Nat × Nat × Word)  -- release, register, value: writes not yet in force
  clrDue : List (Nat × Nat × Word)  -- release, register, W1C bits written 1 that have not cleared yet
  buses : List Bus                  -- 64
  sums : List (List Int)            -- local sums A of the last 8 frames, the newest first
  casIn : List Int                  -- C_n for the frame being released
  casOut : List Int                 -- cascade channels sent downstream
  yHist : List (List Int)           -- delivered values of the last 512 frames, the newest first
  va : Nat                          -- V_A in mV, latched at the release (R351)
  deriving DecidableEq, Repr

/-- A waveform player (R353, R354). -/
structure Player where
  everRun : Bool
  busy : Bool
  done : Bool                       -- a one-shot play that has ended and holds its last sample
  s : Nat                           -- sample
  j : Nat                           -- EF within the sample
  q : Int
  acts : List (Nat × Bool)          -- releases of starts (true) and stops on their way
  trig : List Nat                   -- EF of triggers not yet taken
  deriving DecidableEq, Repr

/-- An output channel (R347 to R352). -/
structure OutCh where
  state : Nat                       -- code of R349
  w : Nat
  range : Bool                      -- range in use; true is HIGH
  toRange : Bool                    -- the ramp down is for a range change
  since : Nat                       -- EF the state was entered
  fkind : Nat
  vp : Nat
  vn : Nat
  z : Int                           -- DAC input z of the present EF, before the ramp weight
  way : List (Bool × Bool × Int)    -- parked, range and z' on their way to the pins, the oldest first
  pin : Bool × Bool × Int           -- at the pins
  runP : Nat × Nat                  -- FKIND code and length of the P leg's present run of measurements, (0, 0) for none
  runN : Nat × Nat
  faultAt : Option Nat              -- EF of a fault raised, whose ramp begins at the next release
  faultN : Bool                     -- that fault is of the N leg
  clearAt : Option Nat              -- release at which a written clear starts the ramp up
  player : Player
  deriving DecidableEq, Repr

/-- A TDM port (R357 to R364). -/
structure TdmPort where
  run : Bool
  startAt : Option Nat              -- earliest release of the first frame
  stopping : Bool
  again : Option Word               -- TDM_CTLn as EN set again while the port was stopping
  ctl : Word                        -- TDM_CTLn as taken when EN set
  locked : Bool
  phase : Nat
  loss : Bool
  w : Nat                           -- relock weight, 0 to 64
  good : Nat                        -- clean frames since a relock, up to 2
  frameAt : Option Nat              -- EF of the last frame's start (TDMO) or delivery (TDMI)
  slots : List Word                 -- slots sent in the present frame, or received in the last
  hist : List (List Word)           -- slots of past input frames, the newest first
  deriving DecidableEq, Repr

/-- A (bus, ratio) pair that the output decimator serves (R356). -/
structure DecPair where
  bus : Nat
  ratio : Nat                       -- d, for a ratio of 2^d
  since : Nat                       -- the EF from which its history runs
  outs : List (Nat × Int)           -- instants and their samples, the newest first
  deriving DecidableEq, Repr

/-- The TDM unit. -/
structure Tdm where
  ports : List TdmPort              -- 6
  pairs : List DecPair              -- pairs the output decimator serves
  deriving DecidableEq, Repr

/-! ### Serial ports (R371 to R402) -/

/-- An entry of an RX FIFO (R381). -/
structure RxEntry where
  data : Byte
  fe : Bool
  pe : Bool
  brk : Bool
  ef : Nat                          -- EF of the stop-bit sample point
  deriving DecidableEq, Repr

/-- A system exclusive message in progress (R389 to R391). -/
structure SysEx where
  buf : Nat
  len : Nat
  routed : Bool
  lastEf : Nat                      -- arrival EF of its last byte
  deriving DecidableEq, Repr

/-- A MIDI parser (R385 to R391). -/
structure Parser where
  status : Nat                      -- running status, 0 for none
  data : List Nat                   -- data bytes of the message in progress
  skip : Nat                        -- data bytes of a discarded system common message to come
  ignoring : Bool                   -- bytes are ignored up to the next status byte
  sysex : Option SysEx
  cc0 : List Nat                    -- last CC0 of the 16 channels
  cc32 : List Nat
  hold : List (Bool × List Nat)     -- the task held: refused before or not; its type, flow and payload
  deriving DecidableEq, Repr

/-- A serial port. -/
structure SerPort where
  rx : List RxEntry
  tx : List Byte
  shifter : Option Byte
  txBreak : Bool                    -- SPn_TX is held low
  txGap : Bool                      -- one character time of high line is owed after a break
  txCtl : Word                      -- SER_CTLn and SER_DIVn as the character in the shifter takes them
  txDiv : Word
  reply : List Byte                 -- bytes of an answer that wait for room in the TX FIFO (R517)
  inChar : Bool                     -- the receiver is inside a character
  armed : Bool
  needHigh : Nat                    -- before arming: 0 nothing, 1 eight high oversamples, 2 one character time
  lowSince : Option Nat             -- EF of oversample 0 of the present low period
  broke : Bool                      -- BREAK declared in this low period
  dead : Bool                       -- LINE_DEAD
  line : Option (Nat × Bool)        -- EF and level, true for low, of the line's last sample that a command has shown
  deafTo : Option Nat               -- an IR receiver ignores the line up to this EF, after a character sent (R394)
  parser : Parser
  deriving DecidableEq, Repr

/-- The serial unit. -/
structure Serial where
  ports : List SerPort              -- 4
  held : List Bool                  -- the levels SPn_TX latched when SERIAL left ON (R396, R481)
  bufs : List (Option Nat)          -- the port that has claimed each system exclusive buffer
  deriving DecidableEq, Repr

/-! ### Cascade (R526 to R546) -/

/-- A directive on its way to the workers: the task it comes from, and its 16 bytes (R533, R534). -/
structure Directive where
  task : Option Nat                 -- its task: the pool index, or for a deferred note-on 8,192 and its posting order
  bytes : List Byte
  void : Bool                       -- a cancel has removed the task since (R534)
  deriving DecidableEq, Repr

/-- The placement of a note in a part, as decided (R535). -/
structure Placement where
  task : Option Nat                 -- as its directives name it
  part : Nat
  drop : Bool
  victims : List Nat
  slots : List Nat
  deriving DecidableEq, Repr

/-- A worker as the master knows it (R536, R537). -/
structure Worker where
  joined : Bool
  left : Bool                       -- it has been in the pool and left it
  calEmpty : Bool
  offer : Nat
  levels : List (Nat × Nat)         -- slot and latest LEVEL[23:8] of every pool slot reported
  deriving DecidableEq, Repr

/-- A cascade port's receiver and transmitter (R529, R541, R542). -/
structure CasPortSt where
  aligned : Bool
  good : Nat                        -- consecutive good superframes accepted, up to 2
  locked : Bool
  sending : Bool                    -- the TX lane sends superframes
  lossAt : Option Nat               -- EF of the last loss
  deriving DecidableEq, Repr

/-- The cascade unit. -/
structure Cas where
  en : Bool                         -- EN as applied
  cfg : Word                        -- CAS_CFG as applied when EN set
  cfgErr : Bool
  offAt : Option Nat                -- the EF in which EN was cleared, while a superframe may be in flight (R480)
  up : CasPortSt
  down : CasPortSt
  adopted : Bool                    -- frame timing taken from the master
  upReady : Bool                    -- a worker's first release after that has come
  lag : Nat
  hold : Bool                       -- HOLD of the last outbound superframe received
  grantIn : Nat                     -- GRANT of that superframe
  outIn : Option (List Byte)        -- the last good outbound superframe received
  outPrev : Option (List Byte)      -- the good one before it, whose directives take effect
  outBytes : List Byte              -- the superframe on the upstream TX lane
  inBytes : List Byte               -- the superframe on the downstream TX lane
  inIn : Option (List Byte)         -- the last good inbound superframe received
  casW : Nat                        -- weight of C_n after a relock
  workers : List Worker             -- 8, by position
  dirs : List Directive             -- directives waiting, oldest first
  sent : List Directive             -- directives of the last outbound superframe, DIR0 first
  planned : List Directive          -- directives sent for the present EF's commits and not yet met by them
  plannedNext : List Directive      -- directives sent for the next EF's commits
  made : List Placement             -- placements decided by the present EF's commits
  plans : List Placement            -- placements decided one EF ago for the present EF's commits (R535)
  plansNext : List Placement        -- placements decided for the next EF's commits
  dirUsed : Nat                     -- directive places the present EF's superframe has taken so far
  dirBase : Nat                     -- places that late directives took in the last one
  dirTask : Option Nat              -- pool index of the task whose commit is being applied
  freed : List Nat                  -- handles of pool voices that entered FREE, oldest first
  levelAt : Nat                     -- next pool slot to report
  relay : List (List Byte)          -- packets received from upstream, oldest first
  own : List (List Byte)            -- own packets: header and payload
  forward : List (List Byte)        -- task images waiting on a worker
  landing : List (List Byte)        -- task images waiting on the master
  mgmtOut : List (List Byte)        -- MGMT_REQ packets of the master, oldest first
  packetsIn : List (List Byte)      -- packets received for this device and not yet taken, oldest first
  leaving : Option Nat              -- the lowest position that leaves the pool at the next release
  grant : Nat                       -- the position that holds the calibration grant
  grantEf : Nat                     -- EF it was granted
  fwdPos : Option Nat               -- the position a FWD awaits
  fwdData : List Byte               -- response bytes received so far
  fwdPort : Option (Nat × Nat)      -- port and SEQ of the SysEx request the FWD came from; none for the mailbox
  deriving DecidableEq, Repr


/-! ### The whole -/

/-- The device: everything but the waiting commands and the protected state. -/
structure Dev where
  regs : List (Nat × Word)          -- registers by host byte address; an unlisted one holds its reset value
  fresh : Nat                       -- the model's own: free values drawn so far
  mem : Mems
  frame : Frame
  port : HostPort
  win : Window
  cnt : Counters
  pwr : Power
  mgt : Mgmt
  boot : Boot
  alm : Alm
  par : Parlour
  aud : Audio
  cal : Cal
  mix : Mix
  outs : List OutCh                 -- 32
  tdm : Tdm
  ser : Serial
  cas : Cas
  deriving DecidableEq, Repr

/-- Protected state: what only a few commands may touch. -/
structure Prot where
  lock : Bool                       -- GLB_LOCK.LOCK (R11, R12)
  floor : Nat                       -- GLB_ROLLBACK.FLOOR: fuses blown, permanent (R113)
  marker : Option (Nat × Nat × Nat)  -- AON fallback marker: failed slot, error, section (R106)
  markedBoth : Bool                 -- the marker has recorded the other slot too, with no other reset between (R107)
  flash : List Host.Cell            -- the attached flash
  jtag : Nat                        -- the test access port's instruction (R570)
  cells : BitVec 294                -- the boundary register's shift stage, bit 0 the cell next to TDI (R570)
  latches : BitVec 294              -- what its cells drive under EXTEST and CLAMP
  bypass : Bool                     -- the bypass register
  tdo : List Bool                   -- what TDO gave in the latest scan of a data register
  deriving DecidableEq, Repr

/-- The whole state: the waiting commands (the model's own, log 1), the protected state and the device. -/
structure State where
  pending : List Instr
  prot : Prot
  dev : Dev
  deriving DecidableEq, Repr

/-! ### Reset -/

/-- A fresh voice slot: FREE, generation 0 (R163). -/
def Voice.reset : Voice :=
  { state := .free, gen := 0, handle := 0, part := 0, key := 0, vel := 0, vel16 := 0, patch := 0
    uniIdx := 0, uniN := 0, start := 0, tag := 0, sustained := false, sostenuto := false
    offPending := false, gotOff := false, cut := false, relVel := 0, fadeAt := 0, fadeLen := 0, quenchAt := 0
    member := 0xFF, pool := false }

/-- The Almanac with nothing in it (R143, R146). -/
def Alm.reset : Alm :=
  { pool := [], seqs := List.replicate 96 0, gseq := 0, order := 0, relNow := 0, relLast := 0
    roundRel := [], tick := 0, sub := 0, div := 1, tickDue := 0, ran := false, accepting := false, ready := false
    done := [], committed := [] }

/-- The Parlour with every slot FREE (R163, R183). -/
def Parlour.reset : Parlour :=
  { voices := List.replicate 2048 Voice.reset, p := 0, h := 0, l := 0, own := 0, head := 8, res := List.replicate 32 0
    deferred := [], armed := 0, monoStacks := List.replicate 32 []
    monoAt := List.replicate 32 none }

/-- A chronograph at reset (R466). -/
def Chrono.reset : Chrono :=
  { count := 0, origin := 0, from_ := 1, ticks := [], cap := [0, 0], capDue := [[], []] }

/-- A CHR_OUT pin at reset: driven low (R460). -/
def ChrOut.reset : ChrOut :=
  { mode := false, last := false, way := [], pin := false, pulse := none, woken := false }

/-- Chronographs, counters and bus at reset (R466, R469). -/
def Counters.reset : Counters :=
  { chr := List.replicate 16 Chrono.reset, outs := List.replicate 4 ChrOut.reset
    ins := List.replicate 4 false, evc := List.replicate 32 0, evcHeld := List.replicate 32 0
    frozeAt := 0, run := false, edge := 0, bus := [], wait := [], latched := none }

/-- A domain that has not been ON since reset is OFF (R471). -/
def Domain.reset (s : DomState) : Domain :=
  { state := s, phase := .rest, batch := 0, wakeNext := none, entryNext := none, wokeFrom := s, result := 0, reason := 0
    attempts := 0, failStep := 0, cold := true, latched := false, saved := [], everOn := false }

/-- The power controller at reset: AON is ON, every other domain OFF (R471). -/
def Power.reset : Power :=
  { doms := Domain.reset .on :: List.replicate 29 (Domain.reset .off), batch := 0, open_ := [], arb := [], ready := []
    dets := List.replicate 4 ⟨false, 0⟩, aonWakeDom := 0, aonWakeBusy := false, wassist := false
    coldBoost := 0 }

/-- An alarm that has not risen. -/
def Alarm.reset (n : Nat) : Alarm := { raised := false, runs := List.replicate n 0, low := 0, who := 0 }

/-- The management subsystem at reset: not running (R521). -/
def Mgmt.reset : Mgmt :=
  { mode := 0, queue := [], own := [], lost := 0, total := 0, mirrored := 0, busy := false, request := []
    response := none, session := none, resetDue := false, fwVersion := 0, secVersion := 0
    wdogLog := false, temps := List.replicate 17 0, tempSeen := false, supplies := List.replicate 6 0
    ioHigh := none, twarn := Alarm.reset 17, tcrit := Alarm.reset 17
    supply := List.replicate 6 (Alarm.reset 1)
    passed := List.replicate 16 none, mirrorSec := 0, mirrorSeq := 0, mirrorPos := 0
    mirrorUp := false, lowLogged := false }

/-- An idle mover channel (R445). -/
def Mover.reset : Mover :=
  { state := .idle, reason := 0, src := 0, dst := 0, srcSpace := 0, dstSpace := 0, length := 0
    crcOn := false, irq := false, pos := 0, crc := 0, abort := false }

/-- A lane that has moved nothing. -/
def Lane.reset : Lane := { used := 0, part := 0 }

/-- The banks at reset: nothing listed. -/
def Mems.reset : Mems :=
  { pstore := [], wave := [], waveLoss := 0, outwave := [], mram := []
    dramReady := false, lanePri := 0, laneHost := Lane.reset, laneMov := Lane.reset, lead := 0, turn := 0, movers := List.replicate 4 Mover.reset
    patrol := { bank := 0, region := 0, laps := 0, started := false, borrowed := false } }

/-- The frame timer at reset: halted, VID at 1111b (R53, R63). -/
def Frame.reset : Frame :=
  { ef := 0, released := false, refValid := false, refEver := false, audio := false, steps := 0
    clean := 0, cleanAt := none, stepEf := false, guardEf := 0, winOpen := false, winStart := 0, winLate := 0
    winSet := [], lateIdx := none, slackNow := [], winMin := 63, winDone := true
    vid := { code := 15, down := 0, holdoff := 0, settling := false, requested := 15, request := none
             settled := false, timeouts := 0, fault := false } }

/-- The host port with nothing held. -/
def HostPort.reset : HostPort :=
  { snap := none, hold := none, efLoHigh := none, efHi := none, evc := [], aonHold := none, hd := none
    hirqHeld := none, hq := [], vwords := [], hwords := [] }

/-- The wave window empty. -/
def Window.reset : Window := { rd := [], rdAddr := 0, rdEnd := true, wr := [], dir := false }

/-- No boot begun. -/
def Boot.reset : Boot :=
  { slotA := 0, slotB := 0, logBase := 0, prefer := 0, nvmWait := false, tried := [], sects := []
    hdrSec := 0, hold := false, wakeMask := 0, lists := [], delaying := false, polling := false
    streams := [], streaming := false, calDone := false, lists1 := false, failed := false, asNvm := false
    sleeps := [], oemId := [], sysexId := [] }

/-- An oscillator that is OFF. -/
def Osc.reset : Osc :=
  { model := 0, dir := [], phase := 0, pos := 0, back := false, turned := false, ended := false
    endVoice := false, lines := [], step0 := 0, y1 := 0, y2 := 0, restart := none, glide := none }

/-- An envelope that has not begun (R232). -/
def Env.reset : Env := { seg := 0, since := 0, len := 0, l0 := 0, val := 0 }

/-- An LFO that has not begun (R239). -/
def Lfo.reset : Lfo :=
  { phase := 0, inc := 0, lfsr := 1, rPrev := 0, rNew := 0, total := 0, stopped := false, nd := 0, nf := none, out := 0 }

/-- The slot's audio side with no voice. -/
def VAud.reset : VAud :=
  { start := 0, arm := [], base := [], part := [], pn := [], assign := [], key := 0, vel := 0, vel16 := 0, relVel := 0, oscs := List.replicate 3 Osc.reset
    seed := 1, lfsr := 1, rows := List.replicate 16 0, red := 0, loaded := false
    envs := List.replicate 4 Env.reset, lfos := List.replicate 4 Lfo.reset
    routes := List.replicate 24 ⟨0, [], 0⟩, ptA := none, ptB := none, gate := false, gateFall := none
    restart := none, segs := [0, 0, 0, 0], segEnds := [], gains := [], heads := [], window := [], endAt := none, zero := none
    level := 0 }

/-- A tile at rest. -/
def Tile.reset : Tile :=
  { feed := none, x0 := 0, x1 := 0, e1 := 0, e2 := 0, dem := 0, elems := 0, ctrl := 0, ctrlLast := 0, cut := 0, cutNow := 0
    drive := 0, driveLast := 0
    fbk := 0, res := 0, resLast := 0, mode := 0, bias := 0, kept := [], quench := none, closed := false
    y := { y1 := 0, y2 := 0, y3 := 0, y4 := 0 }, err := 0, err2 := 0, run := 0, declared := false, ovlDue := 0, integ := [0, 0, 0, 0]
    combs := List.replicate 4 [], aHist := [], bHist := [], out := 0, outLast := 0, probeA := 0, probeB := 0, peak := 0
    peakLast := 0 }

/-- A cluster at reset: an empty cache, bank A active (R294). -/
def Clu.reset : Clu :=
  { due := [], missAt := none, flushAt := none, lateAt := none, lateSince := 0, lateLogAt := none
    wasActive := false, contrib := List.replicate 64 0, fadeAt := none, lines := [], flight := []
    inval := [], active := false, fade := none, swapAt := none, held := none, resets := []
    zeroAt := none, valid := false, tune := 0, lenM := false, lens := [], fresh := true }

/-- A global LFO that has not run (R242). -/
def GLfo.reset : GLfo :=
  { lfo := Lfo.reset, everRun := false, running := false, restart := none, now := 0, next := 0, nextAt := 0 }

/-- The audio side of the clusters at reset. -/
def Audio.reset : Audio :=
  { vaud := List.replicate 256 VAud.reset, tiles := List.replicate 256 Tile.reset
    clus := List.replicate 16 Clu.reset, glfo := List.replicate 16 GLfo.reset, cfDone := none
    reqSeq := 0, demTurn := 0 }

/-- The sequencer with nothing to do (R335). -/
def Cal.reset : Cal := { fgBusy := false, runs := [], queue := [], again := [], res := [] }

/-- A bus at reset: weight 64 (R344). -/
def Bus.reset : Bus := { y := 0, w := 64, win := [], meter := 0, peak := 0 }

/-- The mix engine at reset. -/
def Mix.reset : Mix :=
  { eff := [], effDue := [], clrDue := [], buses := List.replicate 64 Bus.reset, sums := [], casIn := List.replicate 64 0
    casOut := List.replicate 64 0, yHist := [], va := 0 }

/-- A player that has never started outputs 0 (R354). -/
def Player.reset : Player :=
  { everRun := false, busy := false, done := false, s := 0, j := 0, q := 0, acts := [], trig := [] }

/-- A channel at reset: PARKED (R349). -/
def OutCh.reset : OutCh :=
  { state := 0, w := 0, range := false, toRange := false, since := 0, fkind := 0, vp := 0, vn := 0, z := 0
    way := [], pin := (true, false, 0), runP := (0, 0), runN := (0, 0), faultAt := none, faultN := false, clearAt := none, player := Player.reset }

/-- A port at reset: not enabled. -/
def TdmPort.reset : TdmPort :=
  { run := false, startAt := none, stopping := false, again := none, ctl := 0x30, locked := false, phase := 0, loss := false
    w := 64, good := 2, frameAt := none, slots := [], hist := [] }

/-- A parser with nothing in progress. -/
def Parser.reset : Parser :=
  { status := 0, data := [], skip := 0, ignoring := false, sysex := none, cc0 := List.replicate 16 0
    cc32 := List.replicate 16 0, hold := [] }

/-- A port at reset or wake: its receiver waits for one character time of high line (R396). -/
def SerPort.reset : SerPort :=
  { rx := [], tx := [], shifter := none, txBreak := false, txGap := false, txCtl := 2, txDiv := 0xC4A, reply := []
    inChar := false, armed := false, needHigh := 2, lowSince := none, broke := false, dead := false
    line := none, deafTo := none, parser := Parser.reset }

/-- The serial unit at reset. -/
def Serial.reset : Serial := { ports := List.replicate 4 SerPort.reset, held := List.replicate 4 true, bufs := List.replicate 8 none }

/-- A cascade port in electrical idle. -/
def CasPortSt.reset : CasPortSt := { aligned := false, good := 0, locked := false, sending := false, lossAt := none }

/-- A position that has not joined. -/
def Worker.reset : Worker := { joined := false, left := false, calEmpty := false, offer := 0, levels := [] }

/-- The cascade unit at reset: EN = 0. -/
def Cas.reset : Cas :=
  { en := false, cfg := 0, cfgErr := false, offAt := none, up := CasPortSt.reset, down := CasPortSt.reset, adopted := false
    upReady := false, lag := 0, hold := false, grantIn := 0, outIn := none, outPrev := none, outBytes := []
    inBytes := [], inIn := none, casW := 64, workers := List.replicate 8 Worker.reset, dirs := [], sent := []
    planned := [], plannedNext := [], made := [], plans := [], plansNext := [], dirUsed := 0, dirBase := 0, dirTask := none
    freed := [], levelAt := 0, relay := [], own := [], forward := [], landing := [], mgmtOut := []
    packetsIn := [], leaving := none, grant := 0, grantEf := 0, fwdPos := none, fwdData := [], fwdPort := none }

/-- The device after power-on reset (R15, R71): registers at their reset values; units that no register shows are idle.
DESIGN CHOICE (log 13), unsafe.  The straps read 0 until they are latched: DESIGN CHOICE (log 14), unsafe. -/
def Dev.reset : Dev :=
  { regs := [], fresh := 0, mem := Mems.reset, frame := Frame.reset, port := HostPort.reset
    win := Window.reset, cnt := Counters.reset, pwr := Power.reset, mgt := Mgmt.reset
    boot := Boot.reset, alm := Alm.reset, par := Parlour.reset, aud := Audio.reset, cal := Cal.reset
    mix := Mix.reset, outs := List.replicate 32 OutCh.reset
    tdm := { ports := List.replicate 6 TdmPort.reset, pairs := [] }
    ser := Serial.reset, cas := Cas.reset }

/-- Nothing locked, no fuse blown, no marker, an attached flash of which nothing has been
written. DESIGN CHOICE (log 15, log 10), unsafe. -/
def Prot.reset : Prot :=
  { lock := false, floor := 0, marker := none, markedBoth := false, flash := [], jtag := 0x3F, cells := 0, latches := 0
    bypass := false, tdo := [] }

/-- The block right after power-on reset, with no command waiting. DESIGN CHOICE (log 1), safe. -/
def State.reset : State := { pending := [], prot := Prot.reset, dev := Dev.reset }

end Sys2Proof.Machine
end

