-- ==== Sys2Proof/Machine/Ops.lean ====
section
/-! DEFINITION. The named operations on the device: registers and their fields, the byte banks, the
domains, frame arithmetic, the log, the fault pin and the event bus. -/

namespace Sys2Proof.Machine

open Sys2Proof

/-! ### Lists used as tables -/

/-- Entry i of a table, or a stand-in beyond its end. -/
def at_ {α : Type} (l : List α) (i : Nat) (dflt : α) : α := l.getD i dflt

/-- The table with a function applied to entry i. -/
def upd {α : Type} (l : List α) (i : Nat) (f : α → α) : List α := l.modify i f

/-- Apply a function for each index below n, in rising order. -/
def forUpTo {α : Type} (n : Nat) (f : Nat → α → α) (x : α) : α :=
  (List.range n).foldl (fun a i => f i a) x

/-- Apply a function for each element of a list, in order. -/
def forEach {α β : Type} (l : List β) (f : β → α → α) (x : α) : α := l.foldl (fun a b => f b a) x

/-! ### Registers (R6, R8) -/

/-- The value a register holds. -/
def Dev.reg (d : Dev) (a : Nat) : Word := cellGet regReset d.regs a

/-- A register set to a value. -/
def Dev.putReg (d : Dev) (a : Nat) (w : Word) : Dev := { d with regs := cellSet regReset d.regs a w }

/-- Bits [hi:lo] of a register. -/
def Dev.fld (d : Dev) (a hi lo : Nat) : Nat := (d.reg a).bits hi lo

/-- Bits [hi:lo] of a register set. -/
def Dev.putFld (d : Dev) (a hi lo v : Nat) : Dev := d.putReg a ((d.reg a).setBits hi lo v)

/-- One bit of a register. -/
def Dev.flag (d : Dev) (a n : Nat) : Bool := (d.reg a).getLsbD n

/-- One bit of a register set or cleared. -/
def Dev.putFlag (d : Dev) (a n : Nat) (b : Bool) : Dev := d.putFld a n n (if b then 1 else 0)

/-- A count in bits [hi:lo] raised by n, held at the field's top value (saturating counters). -/
def Dev.bumpFld (d : Dev) (a hi lo n : Nat) : Dev :=
  d.putFld a hi lo (min (d.fld a hi lo + n) (2 ^ (hi + 1 - lo) - 1))

/-- A 32-bit saturating counter raised by n. -/
def Dev.bumpBy (d : Dev) (a n : Nat) : Dev := d.bumpFld a 31 0 n

/-- A 32-bit saturating counter raised by 1. -/
def Dev.bump (d : Dev) (a : Nat) : Dev := d.bumpBy a 1

/-- A count or length field: an encoded 0 means the field's maximum (R18). -/
def countOf (v max : Nat) : Nat := if v = 0 then max else v

/-- With the lock set, a write whose value differs from the present one in an RWL field sets GLB_LOCK.VIOL (R12). -/
def lockViol (lock : Bool) (a : Nat) (v : Word) (d : Dev) : Dev :=
  match rowOf a with
  | some r => if lock && (v ^^^ d.reg a) &&& r.rwl != 0 then d.putFlag Reg.GLB_LOCK 1 true else d
  | none => d

/-- A write by the register's access codes: RW fields take the value, RWL fields too while the lock is clear, W1C
bits written 1 clear, and nothing else changes (R8, R12, R13). DEDUCED (log 39), unsafe. -/
def codedWrite (lock : Bool) (a : Nat) (v : Word) (d : Dev) : Dev :=
  match rowOf a with
  | some r =>
    let d := lockViol lock a v d
    d.putReg a (Word.merge (d.reg a) v (r.rw ||| (if lock then 0 else r.rwl)) &&& ~~~(v &&& r.w1c))
  | none => d

/-- The bits of a register below 32 that are set, in rising order. -/
def setBitsOf (w : Word) : List Nat := (List.range 32).filter (fun n => w.getLsbD n)

/-! ### Frames (R41) -/

/-- The number of EF numbers (R41). -/
def efWrap : Nat := 2 ^ 40

/-- The EF n after EF a. -/
def efAdd (a n : Nat) : Nat := (a + n) % efWrap

/-- How many EF `now` lies after `since`, modulo the counter. DESIGN CHOICE (log 2), safe. -/
def efSince (now since : Nat) : Nat := (now + efWrap - since % efWrap) % efWrap

/-- Has the EF `due` been reached at `now`? DESIGN CHOICE (log 2), safe. -/
def efReached (now due : Nat) : Bool := decide (efSince now due < 2 ^ 39)

/-- The present EF. -/
def Dev.now (d : Dev) : Nat := d.frame.ef

/-- GLB_BOOT_STAT.STAGE (R111). -/
def Dev.stage (d : Dev) : Nat := d.fld Reg.GLB_BOOT_STAT 3 0

/-- The stage set. -/
def Dev.setStage (d : Dev) (n : Nat) : Dev := d.putFld Reg.GLB_BOOT_STAT 3 0 n

namespace Stage
/-- R111. -/
abbrev aon : Nat := 1
/-- R111. -/
abbrev straps : Nat := 2
/-- R111. -/
abbrev domains : Nat := 3
/-- R111. -/
abbrev rom : Nat := 4
/-- R111. -/
abbrev load : Nat := 5
/-- R111. -/
abbrev cal : Nat := 6
/-- R111. -/
abbrev engine : Nat := 7
/-- R111. -/
abbrev run : Nat := 8
/-- R111. -/
abbrev held : Nat := 9
/-- R111. -/
abbrev noImage : Nat := 10
/-- R111. -/
abbrev noRef : Nat := 11
/-- R111. -/
abbrev romWait : Nat := 12
end Stage

/-- The boot's own state changed. -/
def Dev.modBoot (d : Dev) (f : Boot → Boot) : Dev := { d with boot := f d.boot }

/-! ### Free values -/

/-- The device with the next free value taken; the value is `Config.free` or another constant of Config
at the counter's old value. DESIGN CHOICE (log 9), safe. -/
def Dev.draw (d : Dev) : Dev := { d with fresh := d.fresh + 1 }

/-! ### Domains (R29) -/

namespace Dom
/-- R29. -/
abbrev aon : Nat := 0
/-- R29. -/
abbrev mgmt : Nat := 1
/-- R29. -/
abbrev hostp : Nat := 2
/-- R29. -/
abbrev serial : Nat := 3
/-- R29. -/
abbrev ctrl : Nat := 4
/-- R29. -/
abbrev memc : Nat := 5
/-- R29. -/
abbrev mix : Nat := 6
/-- R29; output group g. -/
abbrev out (g : Nat) : Nat := 7 + g
/-- R29. -/
abbrev tdm : Nat := 11
/-- R29. -/
abbrev cas : Nat := 12
/-- R29. -/
abbrev cal : Nat := 13
/-- R25, R29; cluster c. -/
abbrev cl (c : Nat) : Nat := 14 + c
end Dom

/-- Is a domain at rest: no request of it under way? -/
def Domain.idle (x : Domain) : Bool := x.phase == .rest

/-- Is a domain waking or waiting for its retry? -/
def Domain.wakes (x : Domain) : Bool := x.phase == .waking || x.phase == .retryWait

/-- Is a domain ENTERING? -/
def Domain.entering (x : Domain) : Bool := !x.idle && !x.wakes

/-- The arbitration in progress ends: with the controller's next act, or with the REFCLK period (R473). -/
def Dev.arbEnds (d : Dev) : Dev := { d with pwr := { d.pwr with arb := [] } }

/-- Is a domain on its way up? DESIGN CHOICE (log 35), unsafe. -/
def anyWaking (d : Dev) : Bool := d.pwr.doms.any (fun x => x.wakes)

/-- Domain n as the controller holds it. -/
def Dev.dom (d : Dev) (n : Nat) : Domain := at_ d.pwr.doms n (Domain.reset .off)

/-- Is the domain ON and working?  From its agent's ACK on it accepts no work (R479 step 1). -/
def Dev.isOn (d : Dev) (n : Nat) : Bool :=
  (d.dom n).state == .on &&
  match (d.dom n).phase with
  | .acked _ => false
  | _ => true

/-- Does a domain see its input pins: it is ON and its pads are not latched (R481)? -/
def Dev.sees (d : Dev) (n : Nat) : Bool := d.isOn n && !(d.dom n).latched

/-- Do MGMT's pads carry the NVM port?  While they are latched, the flash sees a port at rest and the device ignores
what the flash drives (R481). -/
def Dev.nvReach (d : Dev) : Bool := !(d.dom Dom.mgmt).latched

/-- Does the management firmware run (R496, R521)? -/
def firmwareUp (d : Dev) : Bool := d.isOn Dom.mgmt && d.mgt.mode == 2

/-- Is cluster c's domain ON? -/
def Dev.cluOn (d : Dev) (c : Nat) : Bool := d.isOn (Dom.cl c)

/-- The frame timer runs while CTRL is ON and the reference is valid (R32). -/
def Dev.timerRuns (d : Dev) : Bool := d.isOn Dom.ctrl && d.frame.refValid

/-- GLB_FRAME_CTL.ENG_EN (R65). -/
def Dev.engEn (d : Dev) : Bool := d.flag Reg.GLB_FRAME_CTL 0

/-- A cluster is active while its domain is ON and ENG_EN is 1 (R51). -/
def Dev.active (d : Dev) (c : Nat) : Bool := d.cluOn c && d.engEn

/-- GLB_FRAME_CTL.RATEFAM = 1: the 44.1 kHz family (R38, R65). -/
def Dev.fam44 (d : Dev) : Bool := d.flag Reg.GLB_FRAME_CTL 1

/-- Fb in Hz, by the declared family (R37, R38). -/
def Dev.fb (d : Dev) : Nat := if d.fam44 then 44100 else 48000

/-- REFCLK in Hz, by the declared family (R37). -/
def Dev.refHz (d : Dev) : Nat := if d.fam44 then 22579200 else 24576000

/-! ### The parameter store (R154, R155, R411) -/

/-- What a byte of the parameter store reads as after a clear: zero, but the BEND of each part record,
which is 2000h (R155). -/
def psDflt (a : Nat) : Byte :=
  if 0x80000 ≤ a ∧ a < 0x82000 ∧ (a - 0x80000) % 0x100 = 0x21 then 0x20 else 0

/-- A byte of the parameter store. -/
def Dev.ps8 (d : Dev) (a : Nat) : Nat := (cellGet psDflt d.mem.pstore a).toNat

/-- A little-endian half word of the parameter store. -/
def Dev.ps16 (d : Dev) (a : Nat) : Nat := d.ps8 a + 256 * d.ps8 (a + 1)

/-- A little-endian word of the parameter store. -/
def Dev.ps32 (d : Dev) (a : Nat) : Nat := d.ps16 a + 65536 * d.ps16 (a + 2)

/-- Bytes of the parameter store. -/
def Dev.psBytes (d : Dev) (a n : Nat) : List Byte := cellBytes psDflt d.mem.pstore a n

/-- Is an offset in a reserved part of the parameter store: 8_6000h to 8_7FFFh or B_0000h to B_FFFFh (R154)?
DEDUCED (log 39), unsafe. -/
def psReserved (a : Nat) : Bool := decide (0x86000 ≤ a ∧ a < 0x88000) || decide (0xB0000 ≤ a ∧ a < 0xC0000)

/-- Bytes put into the parameter store from an address on; a reserved address ignores its byte (R14, R154). -/
def psPut (m : List Host.Cell) (a : Nat) : List Byte → List Host.Cell
  | [] => m
  | b :: r => psPut (if psReserved a then m else cellSet psDflt m a b) (a + 1) r

/-- Bytes put into the parameter store, with no port's bookkeeping. -/
def Dev.psRaw (d : Dev) (a : Nat) (bs : List Byte) : Dev :=
  { d with mem := { d.mem with pstore := psPut d.mem.pstore a bs } }

/-- Offset of slot v's voice state block (R25). -/
def vblk (v : Nat) : Nat := 0xC0000 + v * 0x400

/-- Offset of part p's record (R154). -/
def partRec (p : Nat) : Nat := 0x80000 + p * 0x100

/-- Offset of slot v's calibration record (R25). -/
def calRec (v : Nat) : Nat := 0x82000 + v * 0x40

/-- Cluster of slot v (R25). -/
def cluOf (v : Nat) : Nat := v / 16

/-! ### Wave DRAM and the other banks (R428) -/

/-- What a byte of wave DRAM reads as that nothing has written since MEMC was last OFF (R431).
DESIGN CHOICE (log 3), safe. -/
def waveDflt (d : Dev) : Nat → Byte := Config.dramByte d.mem.waveLoss

/-- A byte of wave DRAM. DESIGN CHOICE (log 3), safe. -/
def Dev.wave8 (d : Dev) (a : Nat) : Byte := cellGet (waveDflt d) d.mem.wave a

/-- Bytes of wave DRAM. -/
def Dev.waveBytes (d : Dev) (a n : Nat) : List Byte := cellBytes (waveDflt d) d.mem.wave a n

/-- Bytes put into wave DRAM. -/
def Dev.waveRaw (d : Dev) (a : Nat) (bs : List Byte) : Dev :=
  { d with mem := { d.mem with wave := cellPutBytes (waveDflt d) d.mem.wave a bs } }

/-- The size of wave DRAM in bytes (R428). -/
def waveSize : Nat := 0x8000000

/-- What a byte of a bank that clears to zero reads as (R430). -/
def zeroByte (_ : Nat) : Byte := 0

/-- A byte of output waveform memory of group g. -/
def Dev.ow8 (d : Dev) (g a : Nat) : Byte := cellGet zeroByte d.mem.outwave (0x10000 * g + a)

/-- Bytes put into output waveform memory of group g. -/
def Dev.owRaw (d : Dev) (g a : Nat) (bs : List Byte) : Dev :=
  { d with mem := { d.mem with outwave := cellPutBytes zeroByte d.mem.outwave (0x10000 * g + a) bs } }

/-- Bytes of management RAM. -/
def Dev.mramBytes (d : Dev) (a n : Nat) : List Byte := cellBytes zeroByte d.mem.mram a n

/-- Bytes put into management RAM. -/
def Dev.mramRaw (d : Dev) (a : Nat) (bs : List Byte) : Dev :=
  { d with mem := { d.mem with mram := cellPutBytes zeroByte d.mem.mram a bs } }

/-- What a byte of the attached flash reads as that nothing has programmed: erased. DESIGN CHOICE (log 10), unsafe. -/
def flashDflt (_ : Nat) : Byte := 0xFF

/-- Bytes of the attached flash. -/
def flashBytes (fl : List Host.Cell) (a n : Nat) : List Byte := cellBytes flashDflt fl a n

/-- Remove every entry of a store in [a, a + n). -/
def cellsDrop {α : Type} (l : List (Nat × α)) (a n : Nat) : List (Nat × α) :=
  l.filter (fun p => decide (p.1 < a) || decide (a + n ≤ p.1))

/-! ### The event bus (R448) -/

/-- The event bus with n occurrences of a source at the present edge; with CTRL not ON there is no bus (R22, R448). -/
def Dev.busWith (d : Dev) (code n : Nat) : List (Nat × Nat × Nat) :=
  if n = 0 || !d.isOn Dom.ctrl then d.cnt.bus else d.cnt.bus ++ [(d.cnt.edge, code, n)]

/-- n occurrences of a source at the present edge, on their way to their delivery one REFCLK period later (R448). -/
def Dev.emit (d : Dev) (code n : Nat) : Dev := { d with cnt := { d.cnt with bus := d.busWith code n } }

/-! ### The two ports of the parameter store (R48, R158, R411 to R415) -/

/-- A queued write's bytes over a word. -/
def HWrite.over (w : HWrite) (old : Word) : Word :=
  let pick (k : Nat) : Byte := if w.be.getLsbD k then w.value.byte k else old.byte k
  Word.ofBytes (pick 0) (pick 1) (pick 2) (pick 3)

/-- The bytes a queued write enables, as a mask of its word. -/
def HWrite.mask (w : HWrite) : Word := HWrite.over { w with value := Word.all } 0

/-- Does a word of a part record hold a count field out of its bound (R156)?  `mask` marks the bytes written. -/
def partWordBad (off : Nat) (w mask : Word) : Bool :=
  decide (0x80000 ≤ off ∧ off < 0x82000) &&
  (let r := off % 0x100 / 4 * 4
   (r == 0x08 && mask.bits 15 8 != 0 && decide (16 < w.bits 15 8)) ||
   (r == 0x14 && ((mask.bits 15 0 != 0 && decide (256 < w.bits 15 0)) || (mask.bits 31 16 != 0 && decide (256 < w.bits 31 16)))))

/-- The queued writes whose release has come: those of two EF before and earlier (R48, R413). -/
def Dev.dueH (d : Dev) : List HWrite := d.port.hq.filter (fun w => efReached d.now (efAdd w.ef 2))

/-- A queued write's word put into the store, if its count fields allow it (R156). -/
def seeWord (d : Dev) (w : HWrite) : Dev :=
  let new := w.over (BitVec.ofNat 32 (d.ps32 w.offset))
  if partWordBad w.offset new w.mask then d else d.psRaw w.offset (leBytes 4 new.toNat)

/-- The device as port V reads its store: the writes whose release has come count as landed from that release on, wherever in
it their landing comes (R48, R162, R414). -/
def Dev.seen (d : Dev) : Dev := d.dueH.foldl seeWord d

/-- A collision of the two ports at a word (R415, R448). -/
def collide (off : Nat) (d : Dev) : Dev :=
  ((d.putReg Reg.GLB_PS_COLLIDE (BitVec.ofNat 32 (2 ^ 31 + off))).bump Reg.GLB_CNT_PS_COLLIDE).emit 21 1

/-- Has port H landed this byte at the present release? -/
def Dev.keptByH (d : Dev) (a : Nat) : Bool := d.port.hwords.any (fun h => h.1 == a / 4 * 4 && h.2.1.getLsbD (a % 4))

/-- Bytes written on port V from an address on, but for those that port H has landed at the present release (R415). -/
def Dev.underH (d : Dev) (a : Nat) (bs : List Byte) : List Byte :=
  (List.range bs.length).map (fun k => if d.keptByH (a + k) then cellGet psDflt d.mem.pstore (a + k) else bs.getD k 0)

/-- The words that n bytes from an address touch. -/
def wordsOf (a n : Nat) : List Nat := (List.range ((a + n + 3) / 4 - a / 4)).map (fun k => 4 * (a / 4 + k))

/-- The collisions of words written on port V with words port H has landed at the present release, each counted once (R415). -/
def collideV (ws : List Nat) (d : Dev) : Dev :=
  if d.port.hwords.isEmpty then d
  else
    let hit (h : Nat × BitVec 4 × Bool) : Bool := ws.contains h.1 && !h.2.2
    let d := ((d.port.hwords.filter hit).map Prod.fst).foldl (fun d off => collide off d) d
    { d with port := { d.port with hwords := d.port.hwords.map (fun h => if hit h then (h.1, h.2.1, true) else h) } }

/-- A write on port V: the bytes land, under those port H has landed at the same release, and their words are kept for the
collision rule (R413, R415). -/
def Dev.psV (d : Dev) (a : Nat) (bs : List Byte) : Dev :=
  let ws := wordsOf a bs.length
  let d := collideV ws (d.psRaw a (if d.port.hwords.isEmpty then bs else d.underH a bs))
  { d with port := { d.port with vwords := ws ++ d.port.vwords } }

/-- A word written on port V. -/
def Dev.v32 (d : Dev) (a v : Nat) : Dev := d.psV a (leBytes 4 v)

/-! ### Chain position (R526, R527) -/

/-- The device's chain position, from its straps (R110). -/
def Dev.chainPos (d : Dev) : Nat := d.fld Reg.GLB_STRAP 7 5

/-- N, the chain length in force (R528). -/
def Dev.chainLen (d : Dev) : Nat := d.cas.cfg.bits 2 0 + 1

/-- Is the device in a chain: EN = 1 and N at least 2 (R528)? -/
def Dev.inChain (d : Dev) : Bool := d.cas.en && decide (2 ≤ d.chainLen)

/-- The position p the device uses: 0 when it is not in a chain (R528). -/
def Dev.pos (d : Dev) : Nat := if d.inChain then d.chainPos else 0

/-- Is the device the master of a chain? -/
def Dev.isMaster (d : Dev) : Bool := d.inChain && d.chainPos == 0

/-- Is the device a worker of a chain? -/
def Dev.isWorker (d : Dev) : Bool := d.inChain && d.chainPos != 0

/-- Clusters of a worker that are local to it, 0 to LOCAL_CL − 1 (R537). -/
def Dev.localCl (d : Dev) : Nat := d.cas.cfg.bits 11 8

/-- Is cluster c served by this device's own Parlour: every cluster, but on a worker the local ones (R537)? -/
def Dev.ownCluster (d : Dev) (c : Nat) : Bool := !d.isWorker || decide (c < d.localCl)

/-! ### Log and FAULT_N (R503 to R505, R519, R525) -/

/-- An event raised for the log: it enters the AON log queue of 32 entries, or is lost and counted (R503). -/
def Dev.logEv (d : Dev) (source code sev : Nat) (data : List Nat) : Dev :=
  let e : LogEv :=
    { ef := d.now, noref := !d.timerRuns, source := source, code := code, sev := sev
      pos := d.pos, fwd := false, data := data.map (BitVec.ofNat 8) }
  if d.mgt.queue.length < 32 then { d with mgt := { d.mgt with queue := d.mgt.queue ++ [e] } }
  else { (d.bump Reg.MGT_CNT_LOG_DROP) with mgt := { d.mgt with lost := d.mgt.lost + 1 } }

/-- A status bit of a block is set while the block's domain is ON (R22, R482). -/
def Dev.setIrq (d : Dev) (dom a n : Nat) : Dev := if d.isOn dom then d.putFlag a n true else d

/-- A MGT_FAULT bit sets, with MGT_IRQ_STAT.FAULT (R522, R525). -/
def Dev.setFault (d : Dev) (n : Nat) : Dev :=
  (d.putFlag Reg.MGT_FAULT n true).setIrq Dom.mgmt Reg.MGT_IRQ_STAT 4

/-- A bit of MGT_IRQ_STAT sets. -/
def Dev.mgtIrq (d : Dev) (n : Nat) : Dev := d.setIrq Dom.mgmt Reg.MGT_IRQ_STAT n

/-- A write rejected under R18 is counted in GLB_CNT_REJ (R19). -/
def Dev.cntRej (d : Dev) : Dev := d.bump Reg.GLB_CNT_REJ

/-- A part record word rejected (R156, R19). -/
def rejectPart (d : Dev) : Dev :=
  ((d.setIrq Dom.ctrl Reg.ALC_CTL 31).bump Reg.ALC_CNT_ERR).cntRej

/-! ### Registers that take effect at a release (R342) -/

/-- The value of a MIX, OUT or TDM register that is in force. -/
def Dev.eff (d : Dev) (a : Nat) : Word := cellGet regReset d.mix.eff a

/-- Does an instruction of the test access port hold the device in reset: EXTEST, CLAMP or HIGHZ (R571)? -/
def jtagHolds (j : Nat) : Bool := j == 0 || j == 2 || j == 3

/-- Is the device held in reset by its test access port (R571)? -/
def State.held (s : State) : Bool := jtagHolds s.prot.jtag

/-! ### Meanings -/

/-- An effect on the device alone: the queue and the protected state stay. -/
def State.onDev (s : State) (f : Dev → Dev) : State := { s with dev := f s.dev }

/-- The outcome of a command whose effect is on the device alone. -/
def devNext (s : State) (f : Dev → Dev) : Host.Outcome State Fault Refusal := .next (s.onDev f)

/-- Has the stage reached one in which the device takes every host write: RUN, HELD, NO_IMAGE, NO_REF or
ROM_WAIT (R102)? -/
def stageOpen (d : Dev) : Bool := decide (Stage.run ≤ d.stage ∧ d.stage ≤ Stage.romWait)

/-- May a write by the host take effect: HOSTP is ON and the stage is open to it (R102, R422)? -/
def hostTurn (d : Dev) : Bool := d.isOn Dom.hostp && stageOpen d

/-- A register write of the host: outside R102's stages, and with HOSTP not ON, the device ignores it.
DESIGN CHOICE (log 42), unsafe. -/
def State.asHost (s : State) (f : State → State) : State := if hostTurn s.dev then f s else s

/-- The outcome of a host's register write whose effect is on the device alone (R102).
DESIGN CHOICE (log 42), unsafe. -/
def hostNext (s : State) (f : Dev → Dev) : Host.Outcome State Fault Refusal := .next (s.asHost (fun s => s.onDev f))

end Sys2Proof.Machine
end

