-- ==== Sys2Proof/Machine/Almanac.lean ====
section
/-! DEFINITION. The Almanac: admission, refusal, release, cancel, local slots, commit order and the done
FIFO (R115 to R153), with the commands that act on it alone. -/

namespace Sys2Proof.Machine

open Sys2Proof

/-! ### Task fields (R115, R116) -/

namespace Typ
/-- R116. -/
abbrev noteOn : Nat := 0x01
/-- R116. -/
abbrev noteOff : Nat := 0x02
/-- R116. -/
abbrev polyPressure : Nat := 0x03
/-- R116. -/
abbrev cc : Nat := 0x04
/-- R116. -/
abbrev program : Nat := 0x05
/-- R116. -/
abbrev pitchBend : Nat := 0x06
/-- R116. -/
abbrev chanPressure : Nat := 0x07
/-- R116. -/
abbrev paramSet : Nat := 0x10
/-- R116. -/
abbrev voiceKill : Nat := 0x11
/-- R116. -/
abbrev timerFire : Nat := 0x12
/-- R116. -/
abbrev sysexDone : Nat := 0x13
/-- R116. -/
abbrev user : Nat := 0x14
end Typ

/-- Target code of the Parlour (R115). -/
abbrev tgtParlour : Nat := 0x10
/-- Target code of the management processor (R115). -/
abbrev tgtMgmt : Nat := 0x11
/-- Target code of a task with no target (R115). -/
abbrev tgtNone : Nat := 0xFF

/-- Byte k of a payload. -/
def pay8 (p : List Byte) (k : Nat) : Nat := (p.getD k 0).toNat

/-- Little-endian half word at byte k of a payload. -/
def pay16 (p : List Byte) (k : Nat) : Nat := pay8 p k + 256 * pay8 p (k + 1)

/-- Little-endian word at byte k of a payload. -/
def pay32 (p : List Byte) (k : Nat) : Nat := pay16 p k + 65536 * pay16 p (k + 2)

/-- FLAGS.PRI (R115). -/
def Task.pri (t : Task) : Nat := t.flags % 4

/-- FLAGS.NOTIFY (R115). -/
def Task.notify (t : Task) : Bool := t.flags.testBit 2

/-- Is a type one of the MIDI tasks (R116)? -/
def isMidiTyp (ty : Nat) : Bool := decide (1 ≤ ty ∧ ty ≤ 7)

/-- Is a type one that R116 lists? -/
def knownTyp (ty : Nat) : Bool := isMidiTyp ty || decide (0x10 ≤ ty ∧ ty ≤ 0x14)

/-- The dispatch target of a task (R116, R133). -/
def targetOf (d : Dev) (ty : Nat) (p : List Byte) : Nat :=
  if ty = Typ.timerFire then tgtNone
  else if ty = Typ.sysexDone ∨ ty = Typ.user then tgtMgmt
  else if ty = Typ.paramSet then
    let off := pay32 p 0
    if 0xC0000 ≤ off ∧ off < 0x100000 then
      let c := cluOf ((off - 0xC0000) / 0x400)
      if d.cluOn c then c else tgtParlour
    else tgtParlour
  else tgtParlour

/-- Is every payload byte from k on zero? -/
def zeroFrom (p : List Byte) (k : Nat) : Bool := (p.drop k).all (· == 0)

/-- Is each payload field in its range, and each unused byte zero (R116, R141)? -/
def payloadOk (ty : Nat) (p : List Byte) : Bool :=
  let portChan := decide (pay8 p 0 ≤ 3) && decide (pay8 p 1 ≤ 15)
  if ty = Typ.noteOn then
    portChan && decide (pay8 p 2 ≤ 127) && decide (1 ≤ pay8 p 3 ∧ pay8 p 3 ≤ 127) && zeroFrom p 6
  else if ty = Typ.noteOff ∨ ty = Typ.polyPressure then
    portChan && decide (pay8 p 2 ≤ 127) && decide (pay8 p 3 ≤ 127) && zeroFrom p 4
  else if ty = Typ.cc then
    portChan && decide (pay8 p 2 ≤ 127) && pay8 p 3 == 0 &&
      (if pay16 p 4 < 0x8000 then decide (pay16 p 4 ≤ 127) else decide (pay16 p 4 < 0xC000)) && zeroFrom p 6
  else if ty = Typ.program then
    portChan && decide (pay8 p 2 ≤ 127) && pay8 p 3 == 0 && decide (pay16 p 4 ≤ 16383) && zeroFrom p 6
  else if ty = Typ.pitchBend then
    portChan && pay16 p 2 == 0 && decide (pay16 p 4 ≤ 16383) && zeroFrom p 6
  else if ty = Typ.chanPressure then
    portChan && decide (pay8 p 2 ≤ 127) && zeroFrom p 3
  else if ty = Typ.paramSet then decide (pay32 p 0 ≤ 0xFFFFC) && pay32 p 0 % 4 == 0
  else if ty = Typ.voiceKill then decide (pay8 p 2 ≤ 1) && zeroFrom p 3
  else if ty = Typ.sysexDone then
    decide (pay8 p 0 ≤ 3) && pay8 p 1 == 0 && decide (2 ≤ pay16 p 2 ∧ pay16 p 2 ≤ 2048) &&
      decide (pay16 p 4 ≤ 7) && zeroFrom p 6
  else true

/-! ### Levels and lists (R124, R146, R153) -/

/-- Free entries of the pool (R146). -/
def Dev.almFree (d : Dev) : Nat := 8192 - d.alm.pool.length

/-- The task at a pool index. -/
def Dev.task? (d : Dev) (i : Nat) : Option Task := d.alm.pool.find? (fun t => t.idx == i)

/-- The task at a pool index changed. -/
def Dev.modTask (d : Dev) (i : Nat) (f : Task → Task) : Dev :=
  { d with alm := { d.alm with pool := d.alm.pool.map (fun t => if t.idx = i then f t else t) } }

/-- The task at a pool index returned to FREE. -/
def Dev.freeTask (d : Dev) (i : Nat) : Dev :=
  { d with alm := { d.alm with pool := d.alm.pool.filter (fun t => t.idx != i) } }

/-- Does a task hold a place of its flow's reorder window (R121, R128)? -/
def Task.inWindow (t : Task) : Bool :=
  decide (t.flow < 96) && t.target != tgtMgmt && t.state != .waiting

/-- Tasks in the reorder window of a flow (R121, R153). -/
def Dev.flowOut (d : Dev) (fl : Nat) : Nat :=
  (d.alm.pool.filter (fun t => t.flow == fl && t.inWindow)).length

/-- Tasks in the local slot of a target (R132). -/
def Dev.slotted (d : Dev) (tg : Nat) : Nat :=
  (d.alm.pool.filter (fun t => t.target == tg && t.state == .slotted)).length

/-- The first task of a list by a strict order: the earliest entry that no other precedes. -/
def firstBy {α : Type} (lt : α → α → Bool) : List α → Option α
  | [] => none
  | x :: r =>
    match firstBy lt r with
    | none => some x
    | some y => if lt y x then some y else some x

/-- The ready and ephemeris lists' order of release: PRI, then the order of release (R132). -/
def readyLt (a b : Task) : Bool := decide (a.pri < b.pri) || (a.pri == b.pri && decide (a.gseq < b.gseq))

/-- The order excess ephemeris tasks are taken in: PRI, then due tick, then posting order (R125).
Due ticks are compared by their signed distance (R135). -/
def ephLt (a b : Task) : Bool :=
  decide (a.pri < b.pri) ||
  (a.pri == b.pri &&
    (decide (signed 32 (a.due + 2 ^ 32 - b.due) < 0) || (a.due == b.due && decide (a.order < b.order))))

/-! ### Accepting (R122) -/

/-- ALM_STAT.ACCEPTING: the stage is RUN, ENG_EN is 1 and the frame timer runs (R122). -/
def Dev.acceptNow (d : Dev) : Bool := d.stage == Stage.run && d.engEn && d.timerRuns

/-- The directives sent for the tasks of a kind are void (R534). -/
def voidSent (p : Nat → Bool) (d : Dev) : Dev :=
  { d with cas := { d.cas with
      sent := d.cas.sent.map (fun (x : Directive) => if x.task.any p then { x with void := true } else x) } }

/-- A task that returns to READY when ACCEPTING clears: released, not committed, and not the management
processor's (R122). -/
def Task.returns (t : Task) : Bool := t.state != .waiting && t.target != tgtMgmt

/-- ACCEPTING clears: each task READY, SLOTTED, ACTIVE or DONE returns to READY, its work, its chosen slots and
its directives discarded; tasks of the management processor keep their state, and deferred note-ons wait on, their
directives void (R122, R534). -/
def acceptingClear (d : Dev) : Dev :=
  let d := voidSent (fun i => decide (8192 ≤ i) || d.alm.pool.any (fun t => t.idx == i && t.returns)) d
  { d with alm := { d.alm with
      accepting := false, ready := false
      pool := d.alm.pool.map (fun t =>
        if t.returns then { t with state := .ready, returned := true, chosen := [], taken := [], reuse := [] } else t) } }

/-- The tick divisor that ALM_TICK holds (R134). -/
def tickDiv (d : Dev) : Nat := countOf (d.fld Reg.ALM_TICK 15 0) 65536

/-- ACCEPTING sets: returned tasks wait for the first release from now on; when it first sets, the tick's
sub-counter starts at zero with the divisor written so far (R122, R134). -/
def acceptingSet (d : Dev) : Dev :=
  { d with alm := { d.alm with
      accepting := true, ready := false, ran := true
      sub := if d.alm.ran then d.alm.sub else 0
      div := if d.alm.ran then d.alm.div else tickDiv d } }

/-- ACCEPTING brought to its present value, with what its change does (R122). DEDUCED (log 30), safe. -/
def syncAccepting (d : Dev) : Dev :=
  if d.acceptNow && !d.alm.accepting then acceptingSet d
  else if !d.acceptNow && d.alm.accepting then acceptingClear d
  else d

/-! ### Admission and release (R120, R121, R123, R124, R135) -/

/-- The tick a delayed post is due at (R135). -/
def dueTick (d : Dev) (flags due : Nat) : Nat :=
  if flags.testBit 4 then due else (d.alm.tick + due) % 2 ^ 32

/-- Does a due tick lie in the future of the present tick (R135)? -/
def tickFuture (d : Dev) (due : Nat) : Bool := decide (0 < signed 32 (due + 2 ^ 32 - d.alm.tick))

/-- The reason a producer is refused for, 0 for none (R122, R124): not accepting, pool floor, and for a
task released at once the EF's release limit and the flow's window. -/
def refusal (d : Dev) (floor : Nat) (atOnce : Bool) (ty fl : Nat) : Nat :=
  if !d.acceptNow then 4
  else if d.almFree ≤ floor then 1
  else if atOnce && decide (128 ≤ d.alm.relNow) then 2
  else if atOnce && decide (fl < 96) && !(ty == Typ.sysexDone || ty == Typ.user) && decide (64 ≤ d.flowOut fl) then 3
  else 0

/-- A pool index that is FREE: which of them a task gets is not stated, so it is the first at or after a
free value. DESIGN CHOICE (log 9), safe. -/
def freeIndex (d : Dev) : Nat :=
  let start := Config.free d.fresh % 8192
  match (List.range 8192).find? (fun k => (d.task? ((start + k) % 8192)).isNone) with
  | some k => (start + k) % 8192
  | none => 0

/-- A task's release: it takes its flow's next SEQ, the global release sequence, the present EF and its
target, and stands READY (R120, R126, R129). DEDUCED (log 30), safe. -/
def releaseTask (i : Nat) (d : Dev) : Dev :=
  match d.task? i with
  | none => d
  | some t =>
    let sq := if t.flow < 96 then at_ d.alm.seqs t.flow 0 else 0
    let d1 := d.modTask i (fun t => { t with
      state := .ready, seq := sq, gseq := d.alm.gseq, relEf := d.now
      target := targetOf d t.typ t.payload, returned := false })
    let d2 := { d1 with alm := { d1.alm with
      seqs := if t.flow < 96 then upd d1.alm.seqs t.flow (fun n => (n + 1) % 65536) else d1.alm.seqs
      gseq := d1.alm.gseq + 1, relNow := d1.alm.relNow + 1, roundRel := i :: d1.alm.roundRel } }
    (d2.bump Reg.ALM_CNT_ADMIT).emit 6 1

/-- A returned task released again: it keeps its SEQ and its global order and takes the present EF (R122). -/
def rereleaseTask (i : Nat) (d : Dev) : Dev :=
  let d1 := d.modTask i (fun t => { t with relEf := d.now, returned := false, target := targetOf d t.typ t.payload })
  let d2 := { d1 with alm := { d1.alm with relNow := d1.alm.relNow + 1, roundRel := i :: d1.alm.roundRel } }
  (d2.bump Reg.ALM_CNT_ADMIT).emit 6 1

/-- What a producer offers: the fields of an entry it sets (R115). -/
structure Offer where
  typ : Nat
  flags : Nat
  flow : Nat
  tag : Nat
  due : Nat
  payload : List Byte
  origin : Nat
  deriving DecidableEq, Repr

/-- An offer is released at once unless it is delayed to a tick in the future (R135). -/
def Offer.atOnce (o : Offer) (d : Dev) : Bool :=
  !o.flags.testBit 3 || !tickFuture d (dueTick d o.flags o.due)

/-- An offer admitted: it takes a pool entry, WAITING until its due tick or released at once (R120, R136).
The pool index is returned beside.  While it is WAITING its RELEASE_EF and SEQ read 0, as does an unordered task's
SEQ, and its TARGET is the one computed here: R115 gives these fields no value then. DESIGN CHOICE (log 30), unsafe. -/
def admitTask (o : Offer) (d : Dev) : Dev × Nat :=
  let i := freeIndex d
  let t : Task :=
    { idx := i, typ := o.typ, flags := o.flags, flow := o.flow, state := .waiting, tag := o.tag
      target := targetOf d o.typ o.payload, origin := o.origin, relEf := 0
      due := if o.flags.testBit 3 then dueTick d o.flags o.due else o.due
      seq := 0, payload := o.payload, gseq := 0, order := d.alm.order, returned := false, doneEf := 0
      chosen := [], taken := [], reuse := [] }
  let d1 := { d.draw with alm := { d.alm with pool := d.alm.pool ++ [t], order := d.alm.order + 1 } }
  (if o.atOnce d then releaseTask i d1 else d1, i)

/-! ### Done FIFO (R142, R150) -/

/-- A done FIFO entry pushed, or lost to a full FIFO (R142). -/
def pushDone (status tag : Nat) (d : Dev) : Dev :=
  if d.alm.done.length < 64 then
    { d with alm := { d.alm with done := d.alm.done ++ [{ status := status, ef := d.now % 4096, tag := tag }] } }
  else (d.putFlag Reg.ALM_DONE_STAT 8 true).putFlag Reg.ALM_IRQ_STAT 5 true

/-- The word ALM_DONE reads as: the oldest entry, or zero (R142, R150). -/
def doneWord (d : Dev) : Word :=
  match d.alm.done with
  | [] => 0
  | e :: _ => BitVec.ofNat 32 (2 ^ 31 + e.status % 4 * 2 ^ 28 + e.ef % 4096 * 2 ^ 16 + e.tag % 65536)

/-- ALM_DONE_READ: the oldest entry is removed (R142). -/
def almDoneReadDev (d : Dev) : Dev :=
  if d.isOn Dom.ctrl then { d with alm := { d.alm with done := d.alm.done.tail } } else d

/-- ALM_DONE_READ (R142). -/
def execAlmDoneRead (s : State) : Host.Outcome State Fault Refusal := devNext s almDoneReadDev

/-! ### Commit (R126, R128, R129, R130) -/

/-- Does a task commit at or before the present release (R126)? -/
def Task.commitDue (t : Task) (now : Nat) : Bool :=
  t.state != .waiting && t.target != tgtMgmt && !t.returned && efReached now (efAdd t.relEf 3)

/-- Is a task of the management processor to commit: marked DONE before the present release (R128)? -/
def Task.mgmtDue (t : Task) (now : Nat) : Bool :=
  t.target == tgtMgmt && t.state == .done && decide (efSince now t.doneEf ≠ 0)

/-- The tasks that commit at the present release (R126, R128): a management task not before the first release at
which ACCEPTING is 1 (R122). -/
def commitsNow (d : Dev) : List Task :=
  d.alm.pool.filter (fun t => t.commitDue d.now || (t.mgmtDue d.now && d.alm.ready))

/-- The task that commits next: the lowest global release sequence of those due (R129). DEDUCED (log 30), safe. -/
def nextCommit (d : Dev) : Option Task := firstBy (fun a b => decide (a.gseq < b.gseq)) (commitsNow d)

/-- A task's commit ends: the entry returns to the pool, its tag and flow are kept to the next release,
and a done FIFO entry is pushed with NOTIFY (R126, R137, R142). DEDUCED (log 30), safe. -/
def finishTask (t : Task) (status : Nat) (d : Dev) : Dev :=
  let d1 := d.freeTask t.idx
  let d2 := { d1 with alm := { d1.alm with committed := d1.alm.committed ++ [⟨t.tag, t.flow⟩] } }
  if t.notify then pushDone status t.tag d2 else d2

/-- The task at an index commits here: it is the next to commit and of a kind the command names, and
tasks commit while ACCEPTING; a management task has its place among the commits of the release (R122, R128, R129).
DEDUCED (log 30), unsafe. -/
def commits (d : Dev) (i : Nat) (kind : Task → Bool) : Option Task :=
  if d.acceptNow && d.isOn Dom.ctrl then
    match nextCommit d with
    | some t => if t.idx = i ∧ kind t then some t else none
    | none => none
  else none

/-- The name that a deferred note-on's directives go by: beyond every pool index. -/
def deferId (order : Nat) : Nat := 8192 + order

/-- The task whose commit is being applied, which directives it gives rise to name (R534). -/
def forTask (t : Option Nat) (d : Dev) : Dev := { d with cas := { d.cas with dirTask := t } }

/-! ### Local slots and stages (R126, R132, R133) -/

/-- The first READY task for a target, by priority and release order, released before the present EF (R132). -/
def nextReady (d : Dev) (tg : Nat) : Option Task :=
  firstBy readyLt (d.alm.pool.filter (fun t =>
    t.target == tg && t.state == .ready && !t.returned && decide (efSince d.now t.relEf ≠ 0)))

/-- Does a target take tasks: the management processor does not while its domain is not ON (R497)? -/
def targetUp (d : Dev) (tg : Nat) : Bool := tg != tgtMgmt || d.isOn Dom.mgmt

/-- One free entry of a target's local slot filled (R132, R497). -/
def fillOne (tg : Nat) (d : Dev) : Dev :=
  if d.slotted tg < 2 ∧ targetUp d tg then
    match nextReady d tg with
    | some t => d.modTask t.idx (fun t => { t with state := .slotted })
    | none => d
  else d

/-- The targets that have a local slot: the cluster lanes, the Parlour and the management processor. -/
def slotTargets : List Nat := List.range 16 ++ [tgtParlour, tgtMgmt]

/-- Every free local slot filled (R132): no returned task, which waits to be released again (R122). -/
def slotFill (d : Dev) : Dev := forEach slotTargets (fun tg d => fillOne tg (fillOne tg d)) d

/-- The task a target receives next from its local slot: by priority, then release order (R130, R132). -/
def nextSlotted (d : Dev) (tg : Nat) : Option Task :=
  firstBy readyLt (d.alm.pool.filter (fun t => t.target == tg && t.state == .slotted))

/-- TASK_DISPATCH: a target takes the first task of its local slot; the entry is free to be filled (R126, R132). -/
def taskDispatchDev (i : Nat) (d : Dev) : Dev :=
  match d.task? i with
  | some t =>
    if (nextSlotted d t.target).map (fun x => x.idx) = some i ∧ d.isOn Dom.ctrl ∧ targetUp d t.target then
      slotFill (d.modTask i (fun t => { t with state := .active }))
    else d
  | none => d

/-- TASK_DISPATCH (R132). -/
def execTaskDispatch (idx : Nat) (s : State) : Host.Outcome State Fault Refusal := devNext s (taskDispatchDev idx)

/-- TASK_WORK_DONE: the target finishes the task's work (R126). -/
def taskWorkDoneDev (i : Nat) (d : Dev) : Dev :=
  match d.task? i with
  | some t =>
    if t.state = .active ∧ t.target ≠ tgtMgmt ∧ d.isOn Dom.ctrl then d.modTask i (fun t => { t with state := .done })
    else d
  | none => d

/-- TASK_WORK_DONE (R126). -/
def execTaskWorkDone (idx : Nat) (s : State) : Host.Outcome State Fault Refusal := devNext s (taskWorkDoneDev idx)

/-- MGMT_TASK_DONE: the firmware marks a management task DONE (R128). -/
def mgmtTaskDoneDev (i : Nat) (d : Dev) : Dev :=
  match d.task? i with
  | some t =>
    if t.state = .active ∧ t.target = tgtMgmt ∧ d.isOn Dom.ctrl ∧ d.isOn Dom.mgmt ∧ d.mgt.mode = 2 then
      d.modTask i (fun t => { t with state := .done, doneEf := d.now })
    else d
  | none => d

/-- MGMT_TASK_DONE (R128). -/
def execMgmtTaskDone (idx : Nat) (s : State) : Host.Outcome State Fault Refusal := devNext s (mgmtTaskDoneDev idx)

/-! ### Ephemeris lists and the tick (R125, R134) -/

/-- Is a WAITING task due: has its due tick begun? -/
def Task.ephDue (t : Task) (d : Dev) : Bool := t.state == .waiting && !tickFuture d t.due

/-- May a due task be released now: the EF's limit and its flow's window allow it (R125)? -/
def canRelease (d : Dev) (t : Task) : Bool :=
  d.acceptNow && decide (d.alm.relNow < 128) &&
    (decide (96 ≤ t.flow) || targetOf d t.typ t.payload == tgtMgmt || decide (d.flowOut t.flow < 64))

/-- Every due ephemeris task the EF allows is released, in the order of R125. -/
def releaseDue : Nat → Dev → Dev
  | 0, d => d
  | n + 1, d =>
    match firstBy ephLt (d.alm.pool.filter (fun t => t.ephDue d && canRelease d t)) with
    | some t => releaseDue n (releaseTask t.idx d)
    | none => d

/-- Every returned task the EF allows is released again, in the order of its first release (R122). -/
def releaseReturned : Nat → Dev → Dev
  | 0, d => d
  | n + 1, d =>
    match firstBy (fun a b => decide (a.gseq < b.gseq)) (d.alm.pool.filter (fun t => t.returned)) with
    | some t =>
      if d.acceptNow ∧ d.alm.ready ∧ d.alm.relNow < 128 then releaseReturned n (rereleaseTask t.idx d) else d
    | none => d

/-- The due ephemeris tasks released in the order of R125 until the named one has gone. -/
def releaseDueTo (i : Nat) : Nat → Dev → Dev
  | 0, d => d
  | n + 1, d =>
    match d.task? i, firstBy ephLt (d.alm.pool.filter (fun t => t.ephDue d && canRelease d t)) with
    | some x, some t => if x.state = .waiting then releaseDueTo i n (releaseTask t.idx d) else d
    | _, _ => d

/-- EPHEMERIS_DUE: a delayed task whose due tick has begun moves to its ready list, behind the returned tasks and
the due tasks that R125 takes before it (R122, R123, R125). -/
def ephemerisDueDev (i : Nat) (d : Dev) : Dev :=
  match d.task? i with
  | some t => if t.ephDue d ∧ d.isOn Dom.ctrl then releaseDueTo i 128 (releaseReturned 128 d) else d
  | none => d

/-- EPHEMERIS_DUE (R125). -/
def execEphemerisDue (idx : Nat) (s : State) : Host.Outcome State Fault Refusal := devNext s (ephemerisDueDev idx)

/-- The first releases of an EF, before any producer's: the returned tasks, then the due ephemeris tasks
(R122, R123). -/
def releaseListed (d : Dev) : Dev := releaseDue 128 (releaseReturned 128 d)

/-- ALM_TICK: a tick that has begun is counted; a DIV write takes effect at it (R134). Chronographs that
count Almanac ticks have one registered (R450). -/
def almTickDev (d : Dev) : Dev :=
  if d.alm.tickDue = 0 ∨ !d.isOn Dom.ctrl then d
  else
    let d1 := { d with alm := { d.alm with
      tickDue := d.alm.tickDue - 1, tick := (d.alm.tick + 1) % 2 ^ 32
      div := tickDiv d } }
    let d2 := { d1 with cnt := { d1.cnt with
      chr := (List.range 16).map (fun c =>
        let x := at_ d1.cnt.chr c Chrono.reset
        if d1.fld (Reg.CHR_CTL c) 3 1 = 4 ∧ d1.flag (Reg.CHR_CTL c) 0 then { x with ticks := x.ticks ++ [1] } else x) } }
    d2.emit 4 1

/-- ALM_TICK (R134). -/
def execAlmTick (s : State) : Host.Outcome State Fault Refusal := devNext s almTickDev

/-- n ephemeris tasks have slipped this EF (R137, R146). -/
def countSlips (n : Nat) (d : Dev) : Dev :=
  if n = 0 then d else ((d.bumpBy Reg.ALM_CNT_EPH_SLIP n).putFlag Reg.ALM_IRQ_STAT 4 true).emit 11 n

/-- The sub-counter at a release: it counts the EF up to the divisor, whose end is due as a tick (R134). -/
def subStep (d : Dev) : Dev :=
  if !d.acceptNow then d
  else if d.alm.sub + 1 < d.alm.div then { d with alm := { d.alm with sub := d.alm.sub + 1 } }
  else { d with alm := { d.alm with sub := 0, tickDue := d.alm.tickDue + 1 } }

/-- The Almanac's part of an EF release: the sub-counter, the slips of the tasks that the EF's limit or their
window has made wait, and the counts of the EF that ended; returned tasks may go from here on (R122, R125, R134,
R137, R146). -/
def almRelease (d : Dev) : Dev :=
  subStep (countSlips (if d.acceptNow then (d.alm.pool.filter (fun t => t.ephDue d)).length else 0)
    { d with alm := { d.alm with
      relLast := d.alm.relNow, relNow := 0, committed := [], roundRel := [], ready := d.acceptNow } })

/-! ### Cancel (R137 to R140) -/

/-- Is a tag and flow matched by a cancel (R137)? -/
def cancelHits (scope tag mask t fl : Nat) : Bool :=
  (t ^^^ tag) &&& mask == 0 && (scope == 0xFF || (scope == 0xFE && fl == 0xFF) || (decide (scope < 96) && fl == scope))

/-- Is a matched task past removing: it commits at the present release, or it is a DONE task of the
management processor (R138)? -/
def Task.tooLate (t : Task) (now : Nat) : Bool :=
  t.commitDue now || (t.target == tgtMgmt && t.state == .done)

/-- One matched task removed (R138); its directives already sent are void (R534). -/
def cancelOne (t : Task) (d : Dev) : Dev :=
  let d := voidSent (· == t.idx) d
  let d1 := ((d.freeTask t.idx).bump Reg.ALM_CNT_CANCEL).emit 9 1
  let d2 := if d.alm.roundRel.contains t.idx then d1.bump Reg.ALM_CNT_RDYCAN else d1
  if t.notify then pushDone 1 t.tag d2 else d2

/-- A cancel applied: matching tasks whose commit lies ahead are removed, matches that have committed at
the present release are counted late, and deferred note-ons matched are counted late and removed, their directives
already sent being void (R138, R534). -/
def cancelApply (scope tag mask : Nat) (d : Dev) : Dev :=
  let hit := d.alm.pool.filter (fun t => cancelHits scope tag mask t.tag t.flow)
  let gone := hit.filter (fun t => !t.tooLate d.now)
  let late := (hit.filter (fun t => t.tooLate d.now)).length
    + (d.alm.committed.filter (fun c => cancelHits scope tag mask c.tag c.flow)).length
  let defer := d.par.deferred.filter (fun x => cancelHits scope tag mask x.tag x.flow)
  let late := late + (defer.filter (fun x => !(d.alm.committed.contains ⟨x.tag, x.flow⟩ && x.since == d.now))).length
  let d1 := voidSent (fun i => defer.any (fun x => deferId x.order == i)) (forEach gone cancelOne d)
  let d2 := { d1 with par := { d1.par with
    deferred := d1.par.deferred.filter (fun x => !cancelHits scope tag mask x.tag x.flow) } }
  let d3 := if late = 0 then d2
    else ((d2.bumpBy Reg.ALM_CNT_CANCEL_LATE late).putFlag Reg.ALM_IRQ_STAT 3 true).emit 10 late
  d3.putReg Reg.ALM_CANCEL_RES (BitVec.ofNat 32 (late * 65536 + gone.length))

/-! ### Posts (R141, R148, R124) -/

/-- An entry image in the post layout (R115). -/
def offerOf (bs : List Byte) (origin : Nat) : Offer :=
  { typ := pay8 bs 0, flags := pay8 bs 1, flow := pay8 bs 2, tag := pay16 bs 4, due := pay32 bs 12
    payload := (bs.drop 20).take 12, origin := origin }

/-- The staged image in ALM_POST0 to ALM_POST7 (R141). -/
def stagedBytes (d : Dev) : List Byte :=
  (List.range 8).flatMap (fun i => leBytes 4 (d.reg (Reg.ALM_POST i)).toNat)

/-- May the host name this flow: H0 to H15, the cascade flows on a worker whose link is enabled, or FFh for
the types R119 allows (R119, R539)? -/
def hostFlowOk (d : Dev) (ty fl : Nat) : Bool :=
  decide (0x40 ≤ fl ∧ fl < 0x50) ||
  (decide (0x50 ≤ fl ∧ fl < 0x60) && d.isWorker) ||
  (fl == 0xFF && (ty == Typ.timerFire || ty == Typ.sysexDone || ty == Typ.user))

/-- Why a post is BAD, 0 if it is not: type, flow, due, payload or flags, in this order (R141). -/
def badReason (o : Offer) (flowOk : Bool) : Nat :=
  if !knownTyp o.typ then 5
  else if !flowOk then 6
  else if o.flags.testBit 3 && !o.flags.testBit 4 && decide (0x7FFFFFFF < o.due) then 7
  else if !payloadOk o.typ o.payload || decide (32 ≤ o.flags) then 8
  else 0

/-- ALM_POST_RES (R148). -/
def postRes (result reason index : Nat) (d : Dev) : Dev :=
  d.putReg Reg.ALM_POST_RES (BitVec.ofNat 32 (result * 2 ^ 30 + reason * 2 ^ 26 + index % 8192))

/-- A host's entry offered to this Almanac: BAD, REFUSED or ACCEPTED, with the result (R141, R124, R148). -/
def hostPostDev (v : Word) (d : Dev) : Dev :=
  if !(v.getLsbD 0 && d.isOn Dom.ctrl) then d
  else
    let o := offerOf (stagedBytes d) 4
    let bad := badReason o (hostFlowOk d o.typ o.flow)
    if bad ≠ 0 then postRes 3 bad 0 ((d.bump Reg.ALM_CNT_BADPOST).putFlag Reg.ALM_IRQ_STAT 2 true)
    else
      let why := refusal d (countOf (d.fld Reg.ALM_RESV 29 16) 8192) (o.atOnce d) o.typ o.flow
      if why ≠ 0 then
        postRes 2 why 0 (((d.bump Reg.ALM_CNT_REFUSE).putFlag Reg.ALM_IRQ_STAT 1 true).emit 7 1)
      else postRes 1 0 (admitTask o d).2 (admitTask o d).1

/-- May the management processor name this flow (R119)? -/
def mgmtFlowOk (ty fl : Nat) : Bool :=
  decide (fl < 96) || (fl == 0xFF && (ty == Typ.timerFire || ty == Typ.sysexDone || ty == Typ.user))

/-- The management processor's entry of eight words offered to this Almanac; refused, the firmware retries and
nothing is dropped (R124). -/
def mgmtPostDev (image : List Word) (d : Dev) : Dev :=
  if !(d.isOn Dom.ctrl && d.isOn Dom.mgmt && d.mgt.mode == 2 && image.length == 8) then d
  else
    let o := offerOf (image.flatMap (fun w => leBytes 4 w.toNat)) 6
    if badReason o (mgmtFlowOk o.typ o.flow) ≠ 0 then d
    else if refusal d 0 (o.atOnce d) o.typ o.flow ≠ 0 then d
    else (admitTask o d).1

/-- A PARAM_SET, READY, SLOTTED or ACTIVE, for the lane of a cluster that leaves ON moves to the Parlour (R133). -/
def paramReroute (c : Nat) (d : Dev) : Dev :=
  { d with alm := { d.alm with pool := d.alm.pool.map (fun t =>
      if t.typ = Typ.paramSet ∧ t.target = c ∧ (t.state = .ready ∨ t.state = .slotted ∨ t.state = .active) then
        { t with target := tgtParlour, state := if t.state = .slotted then .ready else t.state }
      else t) } }

end Sys2Proof.Machine
end

