-- ==== Sys2Proof/Machine/Crc.lean ====
section
/-! DEFINITION. The ISO-HDLC CRC-32 of the boot image, the mover and the flash structures (R82). -/

namespace Sys2Proof.Machine

open Sys2Proof

/-- One bit of the reflected polynomial division (R82). -/
def crcBit (r : Word) : Word := if r.getLsbD 0 then (r >>> 1) ^^^ 0xEDB88320 else r >>> 1

/-- One byte taken in, the register before its final XOR. -/
def crcByte (r : Word) (b : Byte) : Word :=
  let r := r ^^^ b.setWidth 32
  crcBit (crcBit (crcBit (crcBit (crcBit (crcBit (crcBit (crcBit r)))))))

/-- The CRC-32 of bytes already covered by a CRC-32 and the bytes that follow them. -/
def crcMore (crc : Word) (bs : List Byte) : Word := ~~~(bs.foldl crcByte (~~~crc))

/-- The CRC-32 of a run of bytes (R82). -/
def crc32 (bs : List Byte) : Word := crcMore 0 bs

end Sys2Proof.Machine
end

