-- ==== Sys2Proof/Machine/Operands.lean ====
section
/-! DEFINITION. The records the parameter store holds, read field by field as their chapters lay them out:
parts, patches' own region, and the voice slots with the block the Parlour writes (R155, R159, R161). -/

namespace Sys2Proof.Machine

open Sys2Proof

/-! ### Part records (R155) -/

/-- The settings of a part record (R155). -/
structure PartCfg where
  enable : Bool
  mpe : Bool
  rsv : Bool
  sustainEn : Bool
  port : Nat
  chan : Nat
  members : Nat
  keyLo : Nat
  keyHi : Nat
  velLo : Nat
  velHi : Nat
  mode : Nat
  unison : Nat
  policy : Nat
  fade : Nat
  priority : Nat
  transpose : Int
  patch : Nat
  reserve : Nat
  ceiling : Nat
  map : Nat
  pbRange : Nat
  deriving DecidableEq, Repr

/-- Part p's settings as the store holds them (R155); the count fields' 0 is their maximum (R18, R156). -/
def readPart (d : Dev) (p : Nat) : PartCfg :=
  let a := partRec p
  { enable := (d.ps8 a).testBit 0, mpe := (d.ps8 a).testBit 1, rsv := (d.ps8 a).testBit 2
    sustainEn := (d.ps8 a).testBit 3, port := d.ps8 (a + 1), chan := d.ps8 (a + 2)
    members := d.ps8 (a + 3), keyLo := d.ps8 (a + 4), keyHi := d.ps8 (a + 5), velLo := d.ps8 (a + 6)
    velHi := d.ps8 (a + 7), mode := d.ps8 (a + 8), unison := countOf (d.ps8 (a + 9)) 16
    policy := d.ps8 (a + 10), fade := d.ps8 (a + 11), priority := d.ps8 (a + 12)
    transpose := signed 8 (d.ps8 (a + 13)), patch := d.ps16 (a + 0x10)
    reserve := countOf (d.ps16 (a + 0x14)) 256, ceiling := countOf (d.ps16 (a + 0x16)) 256
    map := d.ps8 (a + 0x18), pbRange := d.ps8 (a + 0x1A) }

/-- Are a part's settings in range (R155, R156)? DEDUCED (log 31), unsafe. -/
def PartCfg.inRange (c : PartCfg) : Bool :=
  decide (c.port ≤ 3) && decide (c.chan + c.members ≤ 15) && decide (c.keyLo ≤ c.keyHi) &&
  decide (c.keyHi ≤ 127) && decide (1 ≤ c.velLo) && decide (c.velLo ≤ c.velHi) && decide (c.velHi ≤ 127) &&
  decide (c.mode ≤ 2) && decide (c.unison ≤ 16) && decide (c.policy ≤ 5) && decide (c.fade ≤ 4) &&
  decide (-48 ≤ c.transpose) && decide (c.transpose ≤ 48) && decide (c.patch ≤ 1023) &&
  decide (c.reserve ≤ 256) && decide (c.ceiling ≤ 256) && decide (c.pbRange ≤ 48)

/-- Is a channel one of the part's MPE member channels (R155)? -/
def PartCfg.isMember (c : PartCfg) (ch : Nat) : Bool :=
  c.mpe && decide (c.chan < ch) && decide (ch ≤ c.chan + c.members)

/-- Does a part match a task's port and channel (R157, R168)? -/
def PartCfg.hears (c : PartCfg) (port ch : Nat) : Bool :=
  c.enable && c.port == port && (c.chan == ch || c.isMember ch)

/-- Does a part match a note-on (R157)? -/
def PartCfg.takesNote (c : PartCfg) (port ch key vel : Nat) : Bool :=
  c.hears port ch && decide (c.keyLo ≤ key) && decide (key ≤ c.keyHi) && decide (c.velLo ≤ vel) && decide (vel ≤ c.velHi)

/-- The key after TRANSPOSE, if it lies in 0 to 127 (R155, R157). -/
def PartCfg.keyOf (c : PartCfg) (key : Nat) : Option Nat :=
  let k : Int := (key : Int) + c.transpose
  if 0 ≤ k ∧ k ≤ 127 then some k.toNat else none

/-- The member channel a note or task of this channel carries, FFh for the part's own channel (R161). -/
def PartCfg.memberOf (c : PartCfg) (ch : Nat) : Nat := if c.isMember ch then ch else 0xFF

/-- The fade time t of FADE in units of 0.5 ms (R155). -/
def fadeHalfMs (code : Nat) : Nat := 2 ^ min code 4

/-- F in EF: t × 8 × Fb, rounded half away from zero (R166). -/
def fadeEf (fb code : Nat) : Nat := roundHalfUp (fadeHalfMs code * 8 * fb) 2000

/-- Offset of a part's CC table (R155). -/
def ccAt (p n : Nat) : Nat := partRec p + 0x40 + n

/-! ### Patch records: the region 1E0h to 1FFh (R159) -/

/-- The offset of patch n (R154). -/
def patchRec (n : Nat) : Nat := n * 0x200

/-- PFLAGS.VALID of a patch (R159). -/
def patchValid (d : Dev) (n : Nat) : Bool := (d.seen.ps32 (patchRec n + 0x1E0)).testBit 0

/-- Offset of slot v's working copy of the patch (R161). -/
def workAt (v : Nat) : Nat := vblk v + 0x200

/-- GLIDE of a voice's working copy in 0.1 ms (R159). -/
def glideOf (d : Dev) (v : Nat) : Nat := d.seen.ps16 (workAt v + 0x1EC)

/-- Unison voice i of n: a spread × (2i − (n − 1)) / (2 (n − 1)), rounded toward zero, none for n = 1 (R160). -/
def uniOffset (spread i n : Nat) : Int :=
  if n ≤ 1 then 0 else truncDiv ((spread : Int) * (2 * (i : Int) - ((n : Int) - 1))) (2 * (n - 1))

/-! ### Voice slots (R161, R163, R165) -/

/-- Slot v as the Parlour holds it. -/
def Dev.voice (d : Dev) (v : Nat) : Voice := at_ d.par.voices v Voice.reset

/-- Slot v changed. -/
def Dev.modVoice (d : Dev) (v : Nat) (f : Voice → Voice) : Dev :=
  { d with par := { d.par with voices := upd d.par.voices v f } }

/-- The code of a voice state (R161). -/
def vcode : VState → Nat
  | .free => 0
  | .arming => 1
  | .sounding => 2
  | .releasing => 3
  | .stealing => 4
  | .quench => 5

/-- VFLAGS (R161). -/
def Voice.vflags (x : Voice) : Nat :=
  (if x.sustained then 1 else 0) + (if x.sostenuto then 2 else 0) + (if x.offPending then 4 else 0) + (if x.cut then 8 else 0)

/-- Bytes 000h to 013h of a voice state block (R161). -/
def Voice.bytes (x : Voice) : List Byte :=
  leBytes 2 (if x.state = .free then 0 else x.handle) ++ leBytes 1 (vcode x.state) ++ leBytes 1 x.part ++
  leBytes 1 x.key ++ leBytes 1 x.vel ++ leBytes 2 x.vel16 ++ leBytes 2 x.patch ++ leBytes 1 x.uniIdx ++
  leBytes 1 x.uniN ++ leBytes 4 x.start ++ leBytes 2 x.tag ++ leBytes 1 x.vflags ++ leBytes 1 x.relVel

/-- The Parlour writes the block of slot v on port V (R161); a worker's block is the worker's. -/
def mirrorVoice (v : Nat) (d : Dev) : Dev := if v < 256 then d.psV (vblk v) (d.voice v).bytes else d

/-- Slot v changed, and its block written. -/
def setVoice (v : Nat) (f : Voice → Voice) (d : Dev) : Dev := mirrorVoice v (d.modVoice v f)

/-- MEMBER of slot v (R161). -/
def memberOfVoice (d : Dev) (v : Nat) : Nat := if v < 256 then d.ps8 (vblk v + 0x44) else (d.voice v).member

/-- Is a voice held: ARMING, SOUNDING or RELEASING (R171)? -/
def Voice.held (x : Voice) : Bool := x.state == .arming || x.state == .sounding || x.state == .releasing

/-- The slots the device's Parlour allocates over: its own, and on a master the chain's (R537). -/
def slotCount (d : Dev) : Nat := if d.isMaster then 2048 else 256

/-- Is a chain slot one of the device's own? -/
def ownSlot (v : Nat) : Bool := decide (v < 256)

/-- The worker a chain slot belongs to, as the master knows it. -/
def workerOf (d : Dev) (q : Nat) : Worker := at_ d.cas.workers q Worker.reset

/-- The slots with a property, in rising order; a pool voice of a worker is not its own Parlour's (R537). -/
def slotsWhere (d : Dev) (f : Nat → Voice → Bool) : List Nat :=
  (List.range (slotCount d)).filter (fun v => !(d.voice v).pool && f v (d.voice v))

/-- Does the device's Parlour count the voice of slot v as held: its own while it is, a worker's until the worker
reports it in FREED (R171, R537)? -/
def countsHeld (v : Nat) (x : Voice) : Bool := !x.pool && (if ownSlot v then x.held else x.state != .free)

/-- The slots whose voices the device's Parlour counts as held (R171, R537). -/
def heldSlots (d : Dev) : List Nat := (List.range d.par.voices.length).filter (fun v => countsHeld v (d.voice v))

/-- Held voices that the device's Parlour counts (R171, R537). -/
def heldCount (d : Dev) : Nat := (heldSlots d).length

/-- Held voices of a part, n_p (R171). -/
def heldOf (d : Dev) (p : Nat) : Nat := ((heldSlots d).filter (fun v => (d.voice v).part == p)).length

/-- Held voices on a worker, as the master counts them (R537). -/
def heldOn (d : Dev) (q : Nat) : Nat :=
  ((List.range 256).filter (fun v => (d.voice (256 * q + v)).state != .free)).length

/-- Those of them that the master has not yet sent to STEALING or QUENCH. -/
def liveOn (d : Dev) (q : Nat) : Nat :=
  ((List.range 256).filter (fun v => (d.voice (256 * q + v)).held)).length

/-- Is a slot FREE and open to the Parlour: in a cluster that is ON and its own (R27, R537), or a pool slot
that a joined worker has reported, short of its offer (R536)? -/
def slotFree (d : Dev) (v : Nat) : Bool :=
  (d.voice v).state == .free &&
  (if ownSlot v then d.cluOn (cluOf v) && d.ownCluster (cluOf v)
   else
    let w := workerOf d (v / 256)
    d.isMaster && w.joined && (w.levels.any (fun e => e.1 == v % 256)) && decide (heldOn d (v / 256) < w.offer))

/-- A 16-bit handle: chain position, slot and generation (R163). -/
def mkHandle (pos v gen : Nat) : Nat := pos * 0x2000 + v * 0x20 + gen

/-- The position in a handle for a slot the device's Parlour gives out. -/
def handlePos (d : Dev) (v : Nat) : Nat := if ownSlot v then d.pos else v / 256

/-- The generation after g: 1, 2, ..., 31, then 1 again (R163). -/
def nextGen (g : Nat) : Nat := if 31 ≤ g then 1 else g + 1

/-- The slot a current handle names (R163, R164, R537). -/
def currentSlot (d : Dev) (h : Nat) : Option Nat :=
  let pos := h / 0x2000 % 8
  let v := h / 0x20 % 256 + (if d.isMaster then 256 * pos else 0)
  if h ≠ 0 ∧ (pos = d.pos ∨ d.isMaster) ∧ (d.voice v).state ≠ .free ∧ !(d.voice v).pool ∧ (d.voice v).handle = h then some v
  else none

end Sys2Proof.Machine
end

