-- ==== Sys2Proof/Machine/WaveCache.lean ====
section
/-! DEFINITION. What a cluster keeps for its voices and tiles, and its wave cache: look-ups, requests,
fills and invalidation (R213 to R217, R192, R433 to R435). -/

namespace Sys2Proof.Machine

open Sys2Proof

/-! ### Clusters, tiles and the audio side of voices -/

/-- The audio unit changed. -/
def Dev.modAud (d : Dev) (f : Audio → Audio) : Dev := { d with aud := f d.aud }

/-- Cluster c. -/
def Dev.clu (d : Dev) (c : Nat) : Clu := at_ d.aud.clus c Clu.reset

/-- Cluster c changed. -/
def Dev.modClu (d : Dev) (c : Nat) (f : Clu → Clu) : Dev := d.modAud (fun x => { x with clus := upd x.clus c f })

/-- What the cluster keeps for the voice of slot v. -/
def Dev.vaud (d : Dev) (v : Nat) : VAud := at_ d.aud.vaud v VAud.reset

/-- The audio side of slot v changed. -/
def Dev.modVaud (d : Dev) (v : Nat) (f : VAud → VAud) : Dev := d.modAud (fun x => { x with vaud := upd x.vaud v f })

/-- The tile of slot v. -/
def Dev.tile (d : Dev) (v : Nat) : Tile := at_ d.aud.tiles v Tile.reset

/-- The tile of slot v changed. -/
def Dev.modTile (d : Dev) (v : Nat) (f : Tile → Tile) : Dev := d.modAud (fun x => { x with tiles := upd x.tiles v f })

/-- A counter of cluster c raised by n. -/
def cluBump (c reg n : Nat) (d : Dev) : Dev := if n = 0 then d else d.bumpBy (cluReg c reg) n

/-- A status bit of cluster c set. -/
def cluIrq (c reg n : Nat) (d : Dev) : Dev := d.setIrq (Dom.cl c) (cluReg c reg) n

/-- The scratchpad region of slot v's tile: its place in the cluster's bank and its size (R25).  `VAud` is what the model
keeps of the region's contents. -/
def scratchAt (v : Nat) : Nat × Nat := (v % 16 * 0x1000, 0x1000)

/-! ### Lines (R213) -/

/-- The line of a wave address. -/
def lineOf (a : Nat) : Nat := a / 64

/-- The lines n bytes from an address touch. -/
def linesTouched (a n : Nat) : List Nat :=
  if n = 0 then [] else (List.range ((a + n - 1) / 64 - a / 64 + 1)).map (fun k => a / 64 + k)

/-- The set of a line: a[14:6] XOR a[23:15] (R213). -/
def setOf (line : Nat) : Nat := (line % 512) ^^^ (line / 512 % 512)

/-- Elements of a list with no repeats, each in its first place. -/
def dedup : List Nat → List Nat
  | [] => []
  | x :: r => x :: (dedup r).filter (· != x)

/-- Is a line present? -/
def Clu.has (x : Clu) (line : Nat) : Bool := x.lines.any (fun l => l.1 == line)

/-- A byte of wave DRAM as a cluster's cache holds it. -/
def Clu.byte (x : Clu) (a : Nat) : Byte :=
  match x.lines.find? (fun l => l.1 == lineOf a) with
  | some l => l.2.getD (a % 64) 0
  | none => 0

/-- Lines of a set present in the cache. -/
def Clu.inSet (x : Clu) (s : Nat) : List Nat := (x.lines.map Prod.fst).filter (fun l => setOf l == s)

/-- The pinned lines of cluster c: those of its oscillators' present kernel windows and the head lines of its ARMING
voices (R213). -/
def pinsOf (d : Dev) (c : Nat) : List Nat :=
  (List.range 16).flatMap (fun t =>
    let x := d.vaud (16 * c + t)
    match (d.voice (16 * c + t)).state with
    | .arming => x.heads
    | .sounding | .releasing | .stealing => x.window
    | .free | .quench => [])

/-- Is a line of cluster c pinned (R213)? -/
def pinned (d : Dev) (c line : Nat) : Bool := (pinsOf d c).contains line

/-- May a line be filled: its set has a way free or unpinned (R213)? -/
def fillable (d : Dev) (c line : Nat) : Bool :=
  let ls := (d.clu c).inSet (setOf line)
  decide (ls.length < 8) || ls.any (fun l => !pinned d c l)

/-- A request for a line, unless it is cached or in flight (R213, R215, R435); one of a stream's first 4 KiB names the stream
and how far the line is from its kernel window. DESIGN CHOICE (log 32), unsafe. -/
def requestLine (c lane : Nat) (stream : Option (Nat × Nat × Nat)) (rank line : Nat) (d : Dev) : Dev :=
  if (d.clu c).has line || (d.clu c).flight.any (fun r => r.line == line) then d
  else
    let r : Req := { line := line, lane := lane, stream := stream, rank := rank, seq := d.aud.reqSeq }
    cluBump c Reg.CLU_CNT_WC_MISS 1
      ((d.modAud (fun x => { x with reqSeq := x.reqSeq + 1 })).modClu c (fun x => { x with flight := x.flight ++ [r] }))

/-- Lines requested in order on the demand lane, or as head lines. -/
def requestLines (c lane : Nat) (ls : List Nat) (d : Dev) : Dev := forEach ls (requestLine c lane none 0) d

/-- How far a line is from the lines of a kernel window. -/
def lineDist (window : List Nat) (line : Nat) : Nat :=
  ((window.map (fun (w : Nat) => ((line : Int) - (w : Int)).natAbs)).min?).getD 0

/-- The rest of a stream's first 4 KiB requested in order: oscillator i of the voice in slot v (R215). -/
def requestRest (v i : Nat) (ls : List Nat) (d : Dev) : Dev :=
  let va := d.vaud v
  forEach ls (fun l => requestLine (cluOf v) 1 (some (v, i, va.start)) (lineDist (at_ va.oscs i Osc.reset).lines l) l) d

/-! ### Fills (R213, R215, R433 to R435) -/

/-- How far a request's line is from its stream's present kernel window; as it was requested, once the stream's voice has
gone (R434). DESIGN CHOICE (log 32), unsafe. -/
def reqDist (d : Dev) (r : Req) : Nat :=
  match r.stream with
  | none => r.rank
  | some (v, i, start) =>
    if (d.vaud v).start = start then lineDist (at_ (d.vaud v).oscs i Osc.reset).lines r.line else r.rank

/-- The order within the priority lane, of requests with their lines' distances: head lines in request order, then the line
nearest its window, then request order (R434). -/
def reqLt (a b : Nat × Req) : Bool :=
  decide (a.2.lane < b.2.lane) ||
  (a.2.lane == b.2.lane &&
    (if a.2.lane = 1 then decide (a.1 < b.1 ∨ (a.1 = b.1 ∧ a.2.seq < b.2.seq)) else decide (a.2.seq < b.2.seq)))

/-- The first entry of a list by that order. -/
def leastReq : List (Nat × Req) → Option Req
  | [] => none
  | x :: r => some (r.foldl (fun m y => if reqLt y m then y else m) x).2

/-- Priority requests of the device that can be filled. -/
def priorityWaiting (d : Dev) : List Req :=
  (List.range 16).flatMap (fun c => (d.clu c).flight.filter (fun r => decide (r.lane < 2) && fillable d c r.line))

/-- Demand requests of a cluster that can be filled, the oldest first. -/
def demandWaiting (d : Dev) (c : Nat) : List Req :=
  (d.clu c).flight.filter (fun r => r.lane == 2 && fillable d c r.line)

/-- The cluster whose demand request is served next: clusters take lines in turn (R434).
DESIGN CHOICE (log 32), unsafe. -/
def demandNext (d : Dev) : Option Nat :=
  ((List.range 16).map (fun k => (d.aud.demTurn + k) % 16)).find? (fun c => !(demandWaiting d c).isEmpty)

/-- Has the priority lane a line to move within its share of 256 in the present EF (R433)? -/
def priWaits (d : Dev) : Bool := decide (d.mem.lanePri < 256) && !(priorityWaiting d).isEmpty

/-- Has the demand lane a line to move (R433)? -/
def demWaits (d : Dev) : Bool := (demandNext d).isSome

/-- Is a request the next of its lane?  The priority lane moves at most 256 lines in an EF, ahead of all demand
traffic (R215, R433). DESIGN CHOICE (log 32), unsafe. -/
def servedNext (d : Dev) (c : Nat) (r : Req) : Bool :=
  if r.lane < 2 then
    decide (d.mem.lanePri < 256) && ((leastReq ((priorityWaiting d).map (fun q => (reqDist d q, q)))).map Req.seq == some r.seq)
  else !priWaits d && demandNext d == some c && ((demandWaiting d c).head?.map Req.seq == some r.seq)

/-- The line that leaves its set for a fill: an unpinned one; which, by pseudo-LRU, is not fixed to the
line, so it is the one a free value names (R213). DESIGN CHOICE (log 5), safe. -/
def victimOf (d : Dev) (c line : Nat) : Option Nat :=
  let x := d.clu c
  let ls := x.inSet (setOf line)
  if ls.length < 8 then none
  else
    let un := ls.filter (fun l => !pinned d c l)
    un[Config.victimWay d.fresh % (if un.length = 0 then 1 else un.length)]?

/-- Does a fill wait for a borrow of the patrol: the way it takes lies in the borrowed region of the cluster's cache
(R441)?  Where a way lies is not stated, so its region is a free value. DESIGN CHOICE (log 22), safe. -/
def fillBorrowed (d : Dev) (c : Nat) : Bool :=
  let p := d.mem.patrol
  p.borrowed && p.bank == c && Config.free d.fresh % 256 == p.region

/-- CACHE_LINE_FILL: the next line of its lane arrives and fills a way with its 64 bytes (R213, R433).
DESIGN CHOICE (log 5), safe. DESIGN CHOICE (log 32), unsafe. -/
def cacheLineFillDev (c line : Nat) (d : Dev) : Dev :=
  match (d.clu c).flight.find? (fun r => r.line == line) with
  | none => d
  | some r =>
    if !(decide (c < 16) && d.cluOn c && d.isOn Dom.memc && d.mem.dramReady && fillable d c line && servedNext d c r) then d
    else if fillBorrowed d c then d.draw
    else
      let out := victimOf d c line
      let d := d.draw.modClu c (fun x => { x with
        lines := x.lines.filter (fun l => some l.1 != out) ++ [(line, d.waveBytes (64 * line) 64)], flight := x.flight.filter (fun q => q.line != line) })
      if r.lane < 2 then
        ({ d with mem := { d.mem with lanePri := d.mem.lanePri + 1 } }.bump Reg.MEM_CNT_PRI).emit 26 1
      else ((d.modAud (fun x => { x with demTurn := (c + 1) % 16 })).bump Reg.MEM_CNT_DEM).emit 27 1

/-- CACHE_LINE_FILL (R213). -/
def execCacheLineFill (c line : Nat) (s : State) : Host.Outcome State Fault Refusal :=
  devNext s (cacheLineFillDev c line)

/-! ### Invalidation (R192, R217) -/

/-- Written lines leave every cache; a fill in flight for one is issued again (R192).
DESIGN CHOICE (log 32), unsafe. -/
def dramInvalidate (ls : List Nat) (d : Dev) : Dev :=
  forUpTo 16 (fun c d =>
    let again := ((d.clu c).flight.filter (fun r => ls.contains r.line)).length
    cluBump c Reg.CLU_CNT_WC_MISS again (d.modClu c (fun x => { x with
      lines := x.lines.filter (fun l => !ls.contains l.1), inval := x.inval.filter (fun l => !ls.contains l) }))) d

/-- WAVE_CACHE_INVAL: every unpinned line is invalidated at once; each pinned one awaits its unpinning (R217). -/
def waveCacheInvalDev (c : Nat) (v : Word) (d : Dev) : Dev :=
  if decide (c < 16) && d.cluOn c && v.getLsbD 0 then
    d.modClu c (fun x =>
      let kept := x.lines.filter (fun l => pinned d c l.1)
      { x with lines := kept, inval := kept.map Prod.fst })
  else d

/-- WAVE_CACHE_INVAL (R217). -/
def execWaveCacheInval (c : Nat) (value : Word) (s : State) : Host.Outcome State Fault Refusal :=
  hostNext s (waveCacheInvalDev c value)

/-- PINNED_LINE_INVAL: a line that awaits invalidation has unpinned (R217). -/
def pinnedLineInvalDev (c line : Nat) (d : Dev) : Dev :=
  if decide (c < 16) && (d.clu c).inval.contains line && !pinned d c line then
    d.modClu c (fun x => { x with lines := x.lines.filter (fun l => l.1 != line), inval := x.inval.filter (· != line) })
  else d

/-- PINNED_LINE_INVAL (R217). -/
def execPinnedLineInval (c line : Nat) (s : State) : Host.Outcome State Fault Refusal :=
  devNext s (pinnedLineInvalDev c line)

/-- CLU_WC_STAT: valid and pinned lines (R221). -/
def wcStat (d : Dev) (c : Nat) : Word :=
  let x := d.clu c
  BitVec.ofNat 32 ((x.lines.filter (fun l => pinned d c l.1)).length * 2 ^ 16 + x.lines.length)

end Sys2Proof.Machine
end

