-- ==== Sys2Proof/Machine/Memory.lean ====
section
/-! DEFINITION. The H write queue, the wave window, the memory mover and the patrol (R412 to R420, R428 to
R445). -/

namespace Sys2Proof.Machine

open Sys2Proof

/-! ### Port H of the parameter store (R411 to R415) -/

/-- A port H read of a word: the store with every queued byte for that word applied, newest last (R414). -/
def Dev.readH (d : Dev) (off : Nat) : Word :=
  (d.port.hq.filter (fun w => w.offset == off)).foldl (fun x w => w.over x) (BitVec.ofNat 32 (d.ps32 off))

/-- Words of the H write queue held by management accesses (R413). -/
def Dev.hqMgmt (d : Dev) : Nat := (d.port.hq.filter (fun w => w.mgmt)).length

/-- A write posted to the H write queue, stamped with the present EF; one to a reserved word is ignored (R14, R413). -/
def postH (off : Nat) (v : Word) (be : BitVec 4) (mgmt : Bool) (d : Dev) : Dev :=
  if psReserved off then d
  else { d with port := { d.port with hq := d.port.hq ++ [⟨off, v, be, d.now, mgmt⟩] } }

/-- A management write to the store: posted if its 42 words and the queue have room (R413). -/
def mgmtPostH (off : Nat) (v : Word) (be : BitVec 4) (d : Dev) : Option Dev :=
  if d.hqMgmt < 42 ∧ d.port.hq.length < 256 then some (postH off v be true d) else none

/-- PARAM_STORE_HOST_WRITE: a committed host write to the store is posted (R411, R413).  While CTRL is not
ON it is ignored (R416, R22). -/
def paramStoreHostWriteDev (a : Nat) (v : Word) (be : BitVec 4) (d : Dev) : Dev :=
  if d.isOn Dom.ctrl ∧ a < 0x100000 then postH (a / 4 * 4) v be false d else d

/-! ### Wave window (R417 to R420, R429) -/

/-- WIN_CTL.PACK24 (R427). -/
def Dev.pack24 (d : Dev) : Bool := d.flag Reg.WIN_CTL 1

/-- The bytes a window word takes: 3 packed, 4 otherwise (R419). -/
def Dev.winStep (d : Dev) : Nat := if d.pack24 then 3 else 4

/-- A window word at a wave address: packed samples are sign-extended (R419, R429). DEDUCED (log 20), safe. -/
def winWord (d : Dev) (pack : Bool) (a : Nat) : Word :=
  if pack then (BitVec.ofInt 32 (signed 24 (leNat (d.waveBytes a 3))))
  else BitVec.ofNat 32 (leNat (d.waveBytes a 4))

/-- 64-byte lines that n bytes from a touch. -/
def linesOf (a n : Nat) : Nat := if n = 0 then 0 else (a + n - 1) / 64 - a / 64 + 1

/-- Lines moved for the window (MEM_CNT_HOST) and on the bus (R444, R448). -/
def cntHostLines (n : Nat) (d : Dev) : Dev := (d.bumpBy Reg.MEM_CNT_HOST n).emit 28 n

/-- The window's write to DRAM: enabled bytes, visible at once, the caches' copies invalidated (R192, R418). -/
def dramPut (a : Nat) (bs : List Byte) (d : Dev) : Dev := dramInvalidate (linesTouched a bs.length) (d.waveRaw a bs)

/-- The window's next burst is another one: none of its lines have moved. -/
def hostFresh (d : Dev) : Dev := { d with mem := { d.mem with laneHost := { d.mem.laneHost with part := 0 } } }

/-- WIN_ADDR_WRITE: the address of the next word; in read direction the read-ahead is discarded and
fetching starts there (R417, R418, R419). -/
def winAddrWriteDev (v : Word) (d : Dev) : Dev :=
  if !d.isOn Dom.memc then d
  else
    let a := if d.pack24 then v.bits 26 0 else v.bits 26 2 * 4
    let d := d.putReg Reg.WIN_ADDR (BitVec.ofNat 32 a)
    if d.win.dir then d else hostFresh { d with win := { d.win with rd := [], rdAddr := a, rdEnd := false } }

/-- WIN_ADDR_WRITE (R417). -/
def execWinAddrWrite (value : Word) (s : State) : Host.Outcome State Fault Refusal := hostNext s (winAddrWriteDev value)

/-- WIN_ADDR advanced by one word. -/
def winAdvance (d : Dev) : Dev :=
  d.putReg Reg.WIN_ADDR (BitVec.ofNat 32 ((d.reg Reg.WIN_ADDR).toNat + d.winStep))

/-- A pop of WIN_DATA: the word, and the window after it.  At the end of wave DRAM END sets; an empty
buffer sets UNDER (R417, R420). -/
def winPop (d : Dev) : Word × Dev :=
  if !d.isOn Dom.memc then (0, d)
  else if waveSize < (d.reg Reg.WIN_ADDR).toNat + d.winStep then (0, d.putFlag Reg.WIN_STAT 31 true)
  else
    match d.win.rd with
    | [] => (0, d.putFlag Reg.WIN_STAT 30 true)
    | w :: r =>
      if d.win.dir then (0, d.putFlag Reg.WIN_STAT 30 true)
      else (w, winAdvance { d with win := { d.win with rd := r } })

/-- WIN_DATA_WRITE: a word pushed to the posted-write buffer at WIN_ADDR (R418, R420). DEDUCED (log 20), safe. -/
def winDataWriteDev (v : Word) (be : BitVec 4) (d : Dev) : Dev :=
  if !(d.isOn Dom.memc && d.win.dir) then d
  else
    let a := (d.reg Reg.WIN_ADDR).toNat
    if waveSize < a + d.winStep then d.putFlag Reg.WIN_STAT 31 true
    else if 64 ≤ d.win.wr.length then d.putFlag Reg.WIN_STAT 29 true
    else winAdvance { d with win := { d.win with wr := d.win.wr ++ [(a, v, be, d.pack24)] } }

/-- WIN_DATA_WRITE (R418). -/
def execWinDataWrite (value : Word) (be : BitVec 4) (s : State) : Host.Outcome State Fault Refusal :=
  hostNext s (winDataWriteDev value be)

/-- The words of one read-ahead burst: up to 16, short of the end of wave DRAM (R417, R420). DEDUCED (log 20), safe. -/
def fillWords (d : Dev) : Nat → Nat → List Word
  | 0, _ => []
  | n + 1, a => if waveSize < a + d.winStep then [] else winWord d d.pack24 a :: fillWords d n (a + d.winStep)

/-- Is a read-ahead fetch in flight: in read direction, once WIN_ADDR was written, with 16 or more words free (R417,
R480)? DEDUCED (log 20), safe. -/
def winFilling (d : Dev) : Bool :=
  d.isOn Dom.memc && d.mem.dramReady && !d.win.dir && !d.win.rdEnd && decide (d.win.rd.length ≤ 48)

/-- WIN_CTL written: DIR and PACK24, and with ABORT the read-ahead and every unissued word discarded
(R420, R427).  Leaving PACK24, WIN_ADDR's low bits are stored as 0 (R419). -/
def winCtlWrite (v : Word) (d : Dev) : Dev :=
  if !d.isOn Dom.memc then d
  else
    let d := d.putFld Reg.WIN_CTL 1 0 (v.bits 1 0)
    let d := if d.pack24 then d else d.putFld Reg.WIN_ADDR 1 0 0
    if v.getLsbD 2 then
      hostFresh { d with win := { d.win with rd := [], wr := [], rdAddr := (d.reg Reg.WIN_ADDR).toNat, rdEnd := false } }
    else d

/-- WIN_ABORT (R420). -/
def execWinAbort (value : Word) (s : State) : Host.Outcome State Fault Refusal :=
  hostNext s (fun d => if value.getLsbD 2 then winCtlWrite value d else d)

/-- WIN_DIR_CHANGE: a changed DIR takes effect once the posted-write buffer has drained; into read
direction the read-ahead starts at WIN_ADDR (R420). -/
def winDirChangeDev (d : Dev) : Dev :=
  let dir := d.flag Reg.WIN_CTL 0
  if d.isOn Dom.memc ∧ dir ≠ d.win.dir ∧ d.win.wr = [] then
    hostFresh { d with win := { d.win with
        dir := dir, rd := [], rdAddr := (d.reg Reg.WIN_ADDR).toNat, rdEnd := false } }
  else d

/-- WIN_DIR_CHANGE (R420). -/
def execWinDirChange (s : State) : Host.Outcome State Fault Refusal := devNext s winDirChangeDev

/-! ### DRAM (R432) -/

/-- DRAM_READY: initialisation and training are complete (R432). -/
def dramReadyDev (d : Dev) : Dev :=
  if d.isOn Dom.memc then { d with mem := { d.mem with dramReady := true } } else d

/-- DRAM_READY (R432). -/
def execDramReady (s : State) : Host.Outcome State Fault Refusal := devNext s dramReadyDev

/-! ### Memory mover (R436 to R439) -/

/-- Mover channel c. -/
def Dev.mover (d : Dev) (c : Nat) : Mover := at_ d.mem.movers c Mover.reset

/-- Mover channel c changed. -/
def Dev.modMover (d : Dev) (c : Nat) (f : Mover → Mover) : Dev :=
  { d with mem := { d.mem with movers := upd d.mem.movers c f } }

/-- Size of a space in bytes, 0 for a code R436 does not list.  The flash is at most 4 Gbit. -/
def spaceSize (sp : Nat) : Nat :=
  if sp = 0 then waveSize
  else if sp = 1 then 0x100000
  else if 2 ≤ sp ∧ sp ≤ 5 then 0x10000
  else if sp = 6 ∨ sp = 7 then 0x20000000
  else if sp = 8 then 0x40000
  else 0

/-- Domain of a space (R436). -/
def spaceDom (sp : Nat) : Nat :=
  if sp = 0 then Dom.memc
  else if sp = 1 then Dom.ctrl
  else if 2 ≤ sp ∧ sp ≤ 5 then Dom.out (sp - 2)
  else Dom.mgmt

/-- Is a space allowed for a channel, as source or as destination (R436, R437)? -/
def spaceOk (c sp : Nat) (dst : Bool) : Bool :=
  decide (sp ≤ 5) || (decide (2 ≤ c) && (sp == 8 || (sp == 6 && !dst) || (sp == 7 && dst)))

/-- Is a power request for a domain pending in DELAY (R439)? -/
def Dev.inDelay (d : Dev) (n : Nat) : Bool :=
  match (d.dom n).phase with
  | .delayed _ => true
  | _ => false

/-- The descriptor of channel c as a transfer (R436). -/
def readDesc (d : Dev) (c : Nat) : Mover :=
  let w3 := d.reg (Reg.MEM_MV_DESC3 c)
  { state := .busy, reason := 0, src := (d.reg (Reg.MEM_MV_DESC0 c)).toNat
    dst := (d.reg (Reg.MEM_MV_DESC1 c)).toNat, srcSpace := w3.bits 7 0, dstSpace := w3.bits 15 8
    length := countOf (d.fld (Reg.MEM_MV_DESC2 c) 27 0) 0x8000000, crcOn := w3.getLsbD 16
    irq := w3.getLsbD 17, pos := 0, crc := 0, abort := false }

/-- The first reason a transfer is rejected for, 0 if it is accepted (R437).  A code R436 does not list
belongs to no domain and no channel, so only reason 5 applies to it. DESIGN CHOICE (log 21), unsafe. -/
def moverReason (d : Dev) (c : Nat) (m : Mover) : Nat :=
  let known (sp : Nat) : Bool := decide (sp ≤ 8)
  if (known m.srcSpace && !d.isOn (spaceDom m.srcSpace)) || (known m.dstSpace && !d.isOn (spaceDom m.dstSpace)) then 1
  else if (known m.srcSpace && decide (spaceSize m.srcSpace < m.src + m.length)) ||
      (known m.dstSpace && decide (spaceSize m.dstSpace < m.dst + m.length)) then 2
  else if m.src % 4 ≠ 0 ∨ m.dst % 4 ≠ 0 ∨ m.length % 4 ≠ 0 then 3
  else if m.srcSpace = m.dstSpace ∧ m.src < m.dst + m.length ∧ m.dst < m.src + m.length then 4
  else if !(spaceOk c m.srcSpace false && spaceOk c m.dstSpace true) then 5
  else if d.inDelay (spaceDom m.srcSpace) || d.inDelay (spaceDom m.dstSpace) then 6
  else 0

/-- A transfer issued on channel c: accepted, or rejected with a reason (R437). -/
def moverTake (c : Nat) (m : Mover) (why : Nat) (d : Dev) : Dev :=
  if why = 0 then d.modMover c (fun _ => m)
  else
    (d.modMover c (fun _ => { m with state := .rejected, reason := why })).putFlag Reg.MEM_IRQ_STAT 1 true
      |>.bump Reg.MEM_CNT_MV_REJ

/-- A transfer's descriptor put into its channel's registers (R436). -/
def putDesc (c : Nat) (m : Mover) (d : Dev) : Dev :=
  let put (a n : Nat) (d : Dev) : Dev := d.putReg a (BitVec.ofNat 32 n)
  put (Reg.MEM_MV_DESC3 c)
    (m.srcSpace + m.dstSpace * 2 ^ 8 + (if m.crcOn then 2 ^ 16 else 0) + (if m.irq then 2 ^ 17 else 0))
    (put (Reg.MEM_MV_DESC2 c) m.length (put (Reg.MEM_MV_DESC1 c) m.dst (put (Reg.MEM_MV_DESC0 c) m.src d)))

/-- A transfer that the management firmware issues on a channel of its own (R436, R437, R439). -/
def firmwareIssue (c : Nat) (m : Mover) (d : Dev) : Dev :=
  let d := putDesc c m d
  moverTake c m (moverReason d c m) d

/-- MEM_MVc_CTL.GO: the descriptor is checked and the transfer accepted or rejected (R437). -/
def moverIssue (c : Nat) (d : Dev) : Dev :=
  if (d.mover c).state = .busy then d
  else
    let m := readDesc d c
    moverTake c m (moverReason d c m) d

/-- MEM_MVc_CTL.ABORT: the transfer stops after its current burst; bursts being whole, at once (R438). -/
def moverStop (c : Nat) (d : Dev) : Dev :=
  if (d.mover c).state = .busy then
    let d := d.modMover c (fun m => { m with state := .aborted })
    { d with mem := { d.mem with laneMov := { d.mem.laneMov with part := 0 } } }
  else d

/-- Channels 2 and 3 are the management firmware's (R436, R444). DESIGN CHOICE (log 21), unsafe. -/
def moverMaster (d : Dev) (c : Nat) : Bool :=
  decide (c < 2) || (decide (c < 4) && d.isOn Dom.mgmt)

/-- MOVER_GO: a write of MEM_MVc_CTL with GO; one while the channel is BUSY is ignored, and ABORT in the same write stops
the transfer alone (R437, R438).
For channels 2 and 3 it is the management processor's (DESIGN CHOICE, log 21, unsafe). -/
def moverGoDev (c : Nat) (v : Word) (d : Dev) : Dev :=
  if d.isOn Dom.memc && moverMaster d c && v.getLsbD 0 then
    (if (d.mover c).state = .busy then (if v.getLsbD 1 then moverStop c d else d) else moverIssue c d)
  else d

/-- MOVER_GO: the host's channels under R102, the firmware's at every stage (R436, R437). -/
def execMoverGo (c : Nat) (value : Word) (s : State) : Host.Outcome State Fault Refusal :=
  if c < 2 then hostNext s (moverGoDev c value) else devNext s (moverGoDev c value)

/-- MOVER_ABORT: a write of MEM_MVc_CTL with ABORT (R438). -/
def moverAbortDev (c : Nat) (v : Word) (d : Dev) : Dev :=
  if d.isOn Dom.memc && moverMaster d c && v.getLsbD 1 then moverStop c d else d

/-- MOVER_ABORT (R438). -/
def execMoverAbort (c : Nat) (value : Word) (s : State) : Host.Outcome State Fault Refusal :=
  if c < 2 then hostNext s (moverAbortDev c value) else devNext s (moverAbortDev c value)

/-- Bytes of a space (R436); the parameter store is read on port H (R414, R438).  Over latched pads the flash's answer is
ignored, and the bytes read are free values (R481). DESIGN CHOICE (log 9), safe. -/
def spaceRead (s : State) (sp a n : Nat) : List Byte :=
  let d := s.dev
  if sp = 0 then d.waveBytes a n
  else if sp = 1 then
    (List.range n).map (fun k => (d.readH ((a + k) / 4 * 4)).byte ((a + k) % 4))
  else if sp ≤ 5 then (List.range n).map (fun k => d.ow8 (sp - 2) (a + k))
  else if sp = 6 then
    (if d.nvReach then flashBytes s.prot.flash a n
     else (List.range n).map (fun k => BitVec.ofNat 8 (Config.free (d.fresh + k))))
  else d.mramBytes a n

/-- Flash bytes programmed: a program only clears bits. DESIGN CHOICE (log 10), unsafe. -/
def flashProgram (fl : List Host.Cell) (a : Nat) : List Byte → List Host.Cell
  | [] => fl
  | b :: r => flashProgram (cellSet flashDflt fl a (cellGet flashDflt fl a &&& b)) (a + 1) r

/-- Bytes written to a space.  A word to the parameter store is posted on port H as a management access and
lands under R413 (R438). -/
def spaceWrite (s : State) (sp a : Nat) (bs : List Byte) : State :=
  if sp = 0 then s.onDev (dramPut a bs)
  else if sp = 1 then
    s.onDev (forUpTo (bs.length / 4) (fun k d =>
      postH (a + 4 * k) (Word.ofBytes (bs.getD (4 * k) 0) (bs.getD (4 * k + 1) 0) (bs.getD (4 * k + 2) 0)
        (bs.getD (4 * k + 3) 0)) 15 true d))
  else if sp ≤ 5 then s.onDev (fun d => d.owRaw (sp - 2) a bs)
  else if sp = 7 then
    (if s.dev.nvReach then { s with prot := { s.prot with flash := flashProgram s.prot.flash a bs } } else s)
  else s.onDev (fun d => d.mramRaw a bs)

/-- The bytes the next burst of a transfer moves (R438). -/
def Mover.burst (m : Mover) : Nat := min 64 (m.length - m.pos)

/-- The DRAM lines that a transfer's next n bytes take. -/
def moverLines (m : Mover) (n : Nat) : Nat :=
  (if m.srcSpace = 0 then linesOf (m.src + m.pos) n else 0) + (if m.dstSpace = 0 then linesOf (m.dst + m.pos) n else 0)

/-- Has the patrol borrowed the region of any of the n bytes from an address of a bank (R441)? -/
def borrowedAt (d : Dev) (bank a n : Nat) : Bool :=
  let p := d.mem.patrol
  p.borrowed && p.bank == bank && decide (a / 1024 ≤ p.region ∧ p.region ≤ (a + n - 1) / 1024)

/-- Does a burst wait for a borrow of the patrol: it writes to a borrowed region (R441)?
The burst comes again. DESIGN CHOICE (log 22), safe. -/
def moverBorrowed (d : Dev) (m : Mover) (n : Nat) : Bool :=
  let bank := if m.dstSpace = 8 then 0x28 else if 2 ≤ m.dstSpace ∧ m.dstSpace ≤ 5 then 0x22 + m.dstSpace else 0xFF
  borrowedAt d bank (m.dst + m.pos) n

/-- The management commands that use the flash (R509). -/
def flashCmds : List Byte := [0x03, 0x10, 0x11, 0x12, 0x13, 0x19, 0x20, 0x21, 0x22, 0x23]

/-- Is a flash command of the mailbox in flight (R438, R480, R509)? -/
def flashBusy (d : Dev) : Bool := d.mgt.busy && flashCmds.contains (d.mgt.request.headD 0)

/-- Does the firmware mirror the log (R506)?  While MGMT's pads are latched it cannot, and the entries wait: R506 does not
say.  DESIGN CHOICE (log 26), unsafe. -/
def mirrorRuns (d : Dev) : Bool :=
  firmwareUp d && d.flag Reg.MGT_LOG_CTL 0 && (d.stage == Stage.run || d.stage == Stage.held) && d.nvReach

/-- Entries that wait for the mirror. -/
def mirrorWaiting (d : Dev) : Nat := min (d.mgt.total - d.mgt.mirrored) 4096

/-- Is a log mirror write in flight: a whole group of 16 entries waits to be programmed (R480, R506)?
DEDUCED (log 26), unsafe. -/
def mirrorBusy (d : Dev) : Bool := mirrorRuns d && decide (16 ≤ mirrorWaiting d)

/-- The channels, the one whose turn it is first (R438). -/
def turnOrder (d : Dev) : List Nat := (List.range 4).map (fun k => (d.mem.turn + k) % 4)

/-- Could channel c move a burst but for its DRAM lines?  It waits for room in the H write queue, behind a flash command of
the firmware, and for a borrow of the region it writes to (R413, R438, R441). -/
def burstAble (d : Dev) (c : Nat) : Bool :=
  let m := d.mover c
  let n := m.burst
  m.state == .busy && decide (0 < n) &&
    !(m.dstSpace == 1 && decide (42 < d.hqMgmt + n / 4 ∨ 256 < d.port.hq.length + n / 4)) &&
    !((m.srcSpace == 6 || m.dstSpace == 7) && flashBusy d) &&
    !moverBorrowed d m n

/-! ### The host's and the mover's lanes to wave DRAM (R433) -/

/-- Lines of a burst of k that its lane has still to move. -/
def Lane.left (l : Lane) (k : Nat) : Nat := k - min l.part (k - 1)

/-- Those of them beyond the lane's 9 lines of the EF. -/
def Lane.over (l : Lane) (k : Nat) : Nat := l.left k - (9 - l.used)

/-- The lane after a burst of k lines. -/
def Lane.move (l : Lane) (k : Nat) : Lane := { used := min 9 (l.used + l.left k), part := 0 }

/-- The lane at a release, with a burst of k lines waiting: what it had left of its 9 has moved lines of that burst, but for its
last. -/
def Lane.roll (l : Lane) (k : Nat) : Lane := { used := 0, part := min (k - 1) (l.part + (9 - l.used)) }

/-- The lines of the burst that the window waits for: a fetch in flight, or the oldest posted word; 0 for none. -/
def hostLines (d : Dev) : Nat :=
  if winFilling d then linesOf d.win.rdAddr ((fillWords d 16 d.win.rdAddr).length * d.winStep)
  else if d.isOn Dom.memc && d.mem.dramReady then
    match d.win.wr with
    | (a, _, _, pack) :: _ => linesOf a (if pack then 3 else 4)
    | [] => 0
  else 0

/-- The lines of channel c's next burst. -/
def chanLines (d : Dev) (c : Nat) : Nat := moverLines (d.mover c) (d.mover c).burst

/-- The channel whose burst waits for lines of wave DRAM. -/
def dramChan (d : Dev) : Option Nat := (turnOrder d).find? (fun c => burstAble d c && decide (0 < chanLines d c))

/-- The lines of the burst that the mover waits for, 0 for none. -/
def movLines (d : Dev) : Nat :=
  match dramChan d with
  | some c => chanLines d c
  | none => 0

/-- Lines that the host's waiting burst and the mover's need beyond their lanes' reserves; where both need some, they
alternate by line. -/
def hostOver (d : Dev) : Nat := d.mem.laneHost.over (hostLines d)

/-- The same of the mover. -/
def movOver (d : Dev) : Nat := d.mem.laneMov.over (movLines d)

/-- Do the other lanes leave lines (R433)? -/
def linesRemain (d : Dev) : Bool := !priWaits d && !demWaits d

/-- May the host's lane complete a burst of n lines now?  Within its 9 lines of the EF it may; beyond them in the lines
that remain, line by line in turn with the mover, which goes first (R433). DESIGN CHOICE (log 32), unsafe. -/
def hostLane (d : Dev) (n : Nat) : Bool :=
  let e := d.mem.laneHost.over n
  e == 0 || (linesRemain d && (movOver d == 0 || decide (d.mem.lead + e < movOver d)))

/-- May the mover's lane complete a burst of n lines now (R433)? DESIGN CHOICE (log 32), unsafe. -/
def movLane (d : Dev) (n : Nat) : Bool :=
  let e := d.mem.laneMov.over n
  e == 0 || (linesRemain d && (hostOver d == 0 || decide ((e : Int) ≤ hostOver d + d.mem.lead)))

/-- The host's lane has moved n lines (R433, R444). -/
def hostMoved (n : Nat) (d : Dev) : Dev :=
  let e := d.mem.laneHost.over n
  cntHostLines n { d with mem := { d.mem with
    laneHost := d.mem.laneHost.move n, lead := if e = 0 then d.mem.lead else if movOver d = 0 then 0 else d.mem.lead + e } }

/-- The mover's lane has moved n lines (R433). -/
def movMoved (n : Nat) (d : Dev) : Dev :=
  let e := d.mem.laneMov.over n
  { d with mem := { d.mem with
    laneMov := d.mem.laneMov.move n, lead := if e = 0 then d.mem.lead else if hostOver d = 0 then 0 else d.mem.lead - e } }

/-- The lanes' shares of an EF begin anew at its release (R433). -/
def lanesRelease (d : Dev) : Dev :=
  { d with mem := { d.mem with
    lanePri := 0, laneHost := d.mem.laneHost.roll (hostLines d), laneMov := d.mem.laneMov.roll (movLines d) } }

/-- WINDOW_FILL: a burst arrives in the read-ahead buffer when 16 or more words are free and the host lane has the
lines (R417, R433). DEDUCED (log 20), safe. -/
def windowFillDev (d : Dev) : Dev :=
  let ws := fillWords d 16 d.win.rdAddr
  let n := ws.length * d.winStep
  let k := linesOf d.win.rdAddr n
  if !(winFilling d && hostLane d k) then d
  else
    let d1 := hostMoved k d
    { d1 with win := { d1.win with
        rd := d1.win.rd ++ ws, rdAddr := d1.win.rdAddr + n, rdEnd := decide (ws.length < 16) } }

/-- WINDOW_FILL (R417). -/
def execWindowFill (s : State) : Host.Outcome State Fault Refusal := devNext s windowFillDev

/-- The enabled bytes of a posted word written, and the lines they touch invalidated once: a packed word has bits
[23:0] only (R192, R418, R419). -/
def drainPut (a : Nat) (v : Word) (be : BitVec 4) (pack : Bool) (d : Dev) : Dev :=
  let ks := (List.range (if pack then 3 else 4)).filter (fun k => be.getLsbD k)
  dramInvalidate (dedup (ks.map (fun k => lineOf (a + k)))) (forEach ks (fun k d => d.waveRaw (a + k) [v.byte k]) d)

/-- WINDOW_DRAIN: the oldest posted word is issued and becomes visible, once the host lane has its lines (R192, R418,
R433). -/
def windowDrainDev (d : Dev) : Dev :=
  match d.win.wr with
  | [] => d
  | (a, v, be, pack) :: r =>
    let k := linesOf a (if pack then 3 else 4)
    if !(d.isOn Dom.memc && d.mem.dramReady && hostLane d k) then d
    else hostMoved k (drainPut a v be pack { d with win := { d.win with wr := r } })

/-- WINDOW_DRAIN (R418). -/
def execWindowDrain (s : State) : Host.Outcome State Fault Refusal := devNext s windowDrainDev

/-- The next n bytes of channel c's transfer move; POS and CRC advance, and DRAM lines are counted (R438, R444). -/
def moverMove (c n : Nat) (s : State) : State :=
  let m := s.dev.mover c
  let bs := spaceRead s m.srcSpace (m.src + m.pos) n
  (spaceWrite s m.dstSpace (m.dst + m.pos) bs).onDev (fun d =>
    let k := moverLines m n
    let d := if k = 0 then d else movMoved k d
    let d := if m.srcSpace = 6 ∧ !d.nvReach then { d with fresh := d.fresh + n } else d
    ((d.modMover c (fun m => { m with
        pos := m.pos + n, crc := if m.crcOn then crcMore m.crc bs else m.crc })).bumpBy
      Reg.MEM_CNT_MOV (moverLines m n)).emit 28 (moverLines m n))

/-- Can channel c move a burst now?  One that moves lines of wave DRAM waits for its turn and for its lane (R433, R438). -/
def burstReady (d : Dev) (c : Nat) : Bool :=
  burstAble d c && (chanLines d c == 0 || (dramChan d == some c && movLane d (chanLines d c)))

/-- The channel that moves the next burst: the channels take the mover's bandwidth in turn (R438).
From channel 0 on. DESIGN CHOICE (log 21), unsafe. -/
def burstNext (d : Dev) : Option Nat := (turnOrder d).find? (burstReady d)

/-- MOVER_BURST: a burst of up to 64 bytes of the channel whose turn it is moves, POS and CRC advance, and DRAM lines
are counted (R438). -/
def moverBurstState (c : Nat) (s : State) : State :=
  if s.dev.isOn Dom.memc && burstNext s.dev == some c then
    (moverMove c (s.dev.mover c).burst s).onDev (fun d => { d with mem := { d.mem with turn := (c + 1) % 4 } })
  else s

/-- MOVER_BURST (R438). -/
def execMoverBurst (c : Nat) (s : State) : Host.Outcome State Fault Refusal := .next (moverBurstState c s)

/-- MOVER_DONE: the last byte has moved; STATE becomes DONE (R438). DESIGN CHOICE (log 21), unsafe. -/
def moverDoneDev (c : Nat) (d : Dev) : Dev :=
  let m := d.mover c
  if d.isOn Dom.memc ∧ m.state = .busy ∧ m.pos = m.length then
    let d := d.modMover c (fun m => { m with state := .done })
    if m.irq then d.putFlag Reg.MEM_IRQ_STAT 0 true else d
  else d

/-- MOVER_DONE (R438). -/
def execMoverDone (c : Nat) (s : State) : Host.Outcome State Fault Refusal := devNext s (moverDoneDev c)

/-- The code of a mover state (R445). -/
def moverCode : MoverState → Nat
  | .idle => 0
  | .busy => 1
  | .done => 2
  | .rejected => 3
  | .aborted => 4

/-- Does a running transfer touch a domain (R439)? -/
def moverTouches (d : Dev) (dom : Nat) : Bool :=
  d.mem.movers.any (fun m => m.state == .busy && (spaceDom m.srcSpace == dom || spaceDom m.dstSpace == dom))

/-! ### Patrol (R440 to R443) -/

/-- The patrolled banks in ascending code: code, regions of 1 KiB and domain (R428). -/
def patrolBanks : List (Nat × Nat × Nat) :=
  (List.range 16).map (fun c => (c, 256, Dom.cl c)) ++
  (List.range 16).map (fun c => (0x10 + c, 64, Dom.cl c)) ++
  [(0x20, 1024, Dom.ctrl), (0x21, 512, Dom.ctrl)] ++
  (List.range 4).map (fun g => (0x24 + g, 64, Dom.out g)) ++
  [(0x28, 256, Dom.mgmt), (0x29, 16, Dom.aon)]

/-- The banks the patrol may visit now: those whose domain is ON. -/
def patrolOpen (d : Dev) : List (Nat × Nat × Nat) := patrolBanks.filter (fun b => d.isOn b.2.2)

/-- The region after the present one, and whether a lap ends (R440). -/
def patrolNext (d : Dev) : Nat × Nat × Bool :=
  let p := d.mem.patrol
  let first := (patrolOpen d).headD (0x29, 16, 0)
  if !p.started then (first.1, 0, false)
  else
    match (patrolOpen d).find? (fun b => b.1 == p.bank) with
    | some (_, n, _) =>
      if p.region + 1 < n then (p.bank, p.region + 1, false)
      else
        match (patrolOpen d).find? (fun b => decide (p.bank < b.1)) with
        | some b => (b.1, 0, false)
        | none => (first.1, 0, true)
    | none =>
      match (patrolOpen d).find? (fun b => decide (p.bank < b.1)) with
      | some b => (b.1, 0, false)
      | none => (first.1, 0, true)

/-- PATROL_BORROW: the next region is borrowed and copied to the shadow.  Every read is then served from
the shadow and every write that does not wait goes to it (R441), so the bank's own bytes stand for the
shadow and the restore changes none of them. DESIGN CHOICE (log 22), safe. -/
def patrolBorrowDev (d : Dev) : Dev :=
  if !(d.isOn Dom.mgmt && d.mgt.mode == 2 && d.isOn Dom.memc && d.flag Reg.MEM_PAT_CTL 31 && !d.mem.patrol.borrowed) then d
  else
    let n := patrolNext d
    { d with mem := { d.mem with patrol :=
        { bank := n.1, region := n.2.1, laps := if n.2.2 then (d.mem.patrol.laps + 1) % 4096 else d.mem.patrol.laps
          started := true, borrowed := true } } }

/-- PATROL_BORROW (R440). -/
def execPatrolBorrow (s : State) : Host.Outcome State Fault Refusal := devNext s patrolBorrowDev

/-- The borrow ends and the region is restored. DESIGN CHOICE (log 22), safe. -/
def patrolReturn (d : Dev) : Dev := { d with mem := { d.mem with patrol := { d.mem.patrol with borrowed := false } } }

/-- PATROL_RESTORE: the region is restored; a failed test is recorded, counted, logged and drives FAULT_N
(R440, R443). DESIGN CHOICE (log 22), safe. -/
def patrolRestoreDev (pass : Bool) (d : Dev) : Dev :=
  if !d.mem.patrol.borrowed then d
  else
    let p := d.mem.patrol
    let d := patrolReturn d
    if pass then d
    else
      let d := if d.isOn Dom.memc then
          ((d.putReg Reg.MEM_PAT_FAIL (BitVec.ofNat 32 (2 ^ 31 + p.bank * 2 ^ 20 + p.region))).putFlag
            Reg.MEM_IRQ_STAT 3 true).bump Reg.MEM_CNT_PAT_FAIL
        else d
      (d.logEv 0x08 0x01 3 [p.bank, 0, p.region % 256, p.region / 256]).setFault 5

/-- PATROL_RESTORE (R440). -/
def execPatrolRestore (pass : Bool) (s : State) : Host.Outcome State Fault Refusal := devNext s (patrolRestoreDev pass)

/-- PATROL_ABORT: a management instruction fetch hit the borrowed region of management RAM (R442).
DESIGN CHOICE (log 22), safe. -/
def patrolAbortDev (d : Dev) : Dev :=
  if !(d.mem.patrol.borrowed && d.mem.patrol.bank == 0x28) then d
  else
    let p := d.mem.patrol
    let d := patrolReturn d
    let d := if d.isOn Dom.memc then (d.bump Reg.MEM_CNT_PAT_ABORT).putFlag Reg.MEM_IRQ_STAT 2 true else d
    d.logEv 0x08 0x02 0 [p.bank, 0, p.region % 256, p.region / 256]

/-- PATROL_ABORT (R442). -/
def execPatrolAbort (s : State) : Host.Outcome State Fault Refusal := devNext s patrolAbortDev

end Sys2Proof.Machine
end

