-- ==== Sys2Proof/Machine/Boot.lean ====
section
/-! DEFINITION. The boot image: records, header, table, section checks and loading, and slot failure (R79
to R96, R105 to R108). -/

namespace Sys2Proof.Machine

open Sys2Proof

/-- Little-endian number of n bytes at a flash address. -/
def flashNat (fl : List Host.Cell) (a n : Nat) : Nat := leNat (flashBytes fl a n)

/-! ### Boot records (R80, R81) -/

/-- Base of boot record copy k (R79). -/
def recBase (k : Nat) : Nat := 0x1000 * k

/-- Is a boot record copy valid: MAGIC and CRC correct (R81)? -/
def copyValid (fl : List Host.Cell) (k : Nat) : Bool :=
  flashNat fl (recBase k) 4 == 0x52444850 &&
  flashNat fl (recBase k + 0x3C) 4 == (crc32 (flashBytes fl (recBase k) 0x3C)).toNat

/-- SEQ of a boot record copy. -/
def recSeq (fl : List Host.Cell) (k : Nat) : Nat := flashNat fl (recBase k + 4) 4

/-- The copy the ROM uses: the valid one with the larger SEQ, copy 0 on a tie (R81). -/
def recPick (fl : List Host.Cell) : Option Nat :=
  match copyValid fl 0, copyValid fl 1 with
  | true, true => if recSeq fl 0 < recSeq fl 1 then some 1 else some 0
  | true, false => some 0
  | false, true => some 1
  | false, false => none

/-- The bases and preference the ROM uses, with the defaults if no copy is valid (R81). -/
def recLoad (fl : List Host.Cell) (b : Boot) : Boot :=
  match recPick fl with
  | some k =>
    { b with
      slotA := flashNat fl (recBase k + 8) 4, slotB := flashNat fl (recBase k + 12) 4
      prefer := if flashNat fl (recBase k + 16) 1 = 1 then 1 else 0
      logBase := flashNat fl (recBase k + 20) 4 }
  | none => { b with slotA := 0x200000, slotB := 0x10000000, prefer := 0, logBase := 0x100000 }

/-- Base of a slot. -/
def Boot.base (b : Boot) (slot : Nat) : Nat := if slot = 0 then b.slotA else b.slotB

/-- End of a slot: slot A ends at slot B's base, slot B at the end of the flash (R79).  The largest flash
holds 4 Gbit. DESIGN CHOICE (log 7), safe. -/
def Boot.slotEnd (b : Boot) (slot : Nat) : Nat :=
  if slot = 0 then b.slotB else 2 ^ min Config.flashLog2 29

/-! ### Header and table (R83 to R86) -/

/-- SECT_COUNT of a header: at most 64, and 0 encodes 64 (R18, R83). -/
def sectCount (fl : List Host.Cell) (a : Nat) : Nat := countOf (flashNat fl (a + 6) 2) 64

/-- The header's error code, 0 if it is accepted (R84, R108).  R108 names no code for a SECT_COUNT out of range or an
IMAGE_LEN that passes the slot's end; the model answers 03h, the table's.  A CLUSTERS_MIN of 0, outside its 1 to 16, does
not admit the part, with 04h: R84 does not say.  DESIGN CHOICE (log 43), unsafe. -/
def headerErr (s : State) (slot : Nat) : Nat :=
  let fl := s.prot.flash
  let a := s.dev.boot.base slot
  if flashNat fl a 4 ≠ 0x59444850 ∨ flashNat fl (a + 4) 2 ≠ 1 then 1
  else if flashNat fl (a + 0xFC) 4 ≠ (crc32 (flashBytes fl a 0xFC)).toNat then 2
  else if 64 < sectCount fl a ∨
      s.dev.boot.slotEnd slot < a + flashNat fl (a + 8) 4 then 3
  else if flashNat fl (a + 0x10) 1 ≠ 0xC5 ∨ flashNat fl (a + 0x11) 1 = 0 ∨ 16 < flashNat fl (a + 0x11) 1 ∨
      1 < flashNat fl (a + 0x12) 1 % 8 then 4
  else if flashNat fl (a + 0x0C) 4 < s.prot.floor then 7
  else 0

/-- Entry k of the section table (R85). -/
def readSect (fl : List Host.Cell) (a k : Nat) : Sect :=
  let e := a + 0x100 + 16 * k
  { index := k, typ := flashNat fl e 1, optional := (flashNat fl (e + 1) 1).testBit 0
    off := flashNat fl (e + 4) 4, len := flashNat fl (e + 8) 4, crc := BitVec.ofNat 32 (flashNat fl (e + 12) 4) }

/-- The section table of a slot. -/
def readTable (s : State) (slot : Nat) : List Sect :=
  let a := s.dev.boot.base slot
  (List.range (sectCount s.prot.flash a)).map (readSect s.prot.flash a)

/-- Do two bodies overlap? -/
def Sect.meets (x y : Sect) : Bool := decide (x.off < y.off + y.len) && decide (y.off < x.off + x.len)

/-- Sections of one type in a table. -/
def countTyp (t : List Sect) (ty : Nat) : Nat := (t.filter (fun x => x.typ == ty)).length

/-- Is a section table malformed (R86)?  An entry with an OFFSET that is no multiple of 256 or lies below 0500h, or with
LENGTH 0, is none of R86's cases, and the model accepts it.  DESIGN CHOICE (log 43), unsafe. -/
def tableBad (t : List Sect) (imageLen : Nat) : Bool :=
  t.any (fun x => decide (imageLen < x.off + x.len)) ||
  t.any (fun x => t.any (fun y => decide (x.index < y.index) && x.meets y)) ||
  countTyp t 1 != 1 || decide (8 < countTyp t 2) || decide (1 < countTyp t 5) || decide (1 < countTyp t 0xB)

/-- The table's error code, 0 if it is accepted (R85, R86). -/
def tableErr (s : State) (slot : Nat) : Nat :=
  let fl := s.prot.flash
  let a := s.dev.boot.base slot
  let n := sectCount fl a
  if flashNat fl (a + 0x20) 4 ≠ (crc32 (flashBytes fl (a + 0x100) (16 * n))).toNat then 3
  else if tableBad (readTable s slot) (flashNat fl (a + 8) 4) then 3 else 0

/-! ### Sections (R87 to R96) -/

/-- The bytes of a section's body. -/
def sectBody (s : State) (slot : Nat) (x : Sect) : List Byte :=
  flashBytes s.prot.flash (s.dev.boot.base slot + x.off) x.len

/-- Little-endian number of n bytes at place k of a body. -/
def bodyNat (b : List Byte) (k n : Nat) : Nat := leNat ((b.drop k).take n)

/-- A record region: base, record size, records (R87). -/
def regionOf (ty : Nat) : Option (Nat × Nat × Nat) :=
  if ty = 3 then some (0x00000, 512, 1024)
  else if ty = 4 then some (0x80000, 256, 32)
  else if ty = 5 then some (0x82000, 64, 256)
  else if ty = 6 then some (0x88000, 32, 4096)
  else if ty = 7 then some (0xA8000, 64, 256)
  else if ty = 8 then some (0xAC000, 64, 256)
  else none

/-- FIRST and COUNT of a record section, if its body is well formed (R91). -/
def recordsOf (ty : Nat) (b : List Byte) : Option (Nat × Nat) :=
  match regionOf ty with
  | none => none
  | some (_, size, n) =>
    let first := bodyNat b 0 2
    let cnt := countOf (bodyNat b 2 2) n
    if 8 ≤ b.length ∧ b.length = 8 + cnt * size ∧ first + cnt ≤ n then some (first, cnt) else none

/-- Is a register list's body well formed (R96)?  A PHASE other than 00h and 01h makes it malformed (09h): R96 does not
say.  DESIGN CHOICE (log 43), unsafe. -/
def listOk (b : List Byte) : Bool :=
  decide (8 ≤ b.length) && decide (bodyNat b 2 2 ≤ 4096) && decide (bodyNat b 0 1 ≤ 1) &&
    b.length == 8 + 12 * countOf (bodyNat b 2 2) 4096

/-- The entries of a register list (R96). -/
def listEntries (b : List Byte) : List RegEntry :=
  (List.range (countOf (bodyNat b 2 2) 4096)).map (fun k =>
    let e := 8 + 12 * k
    { op := bodyNat b e 1, arg := bodyNat b (e + 2) 2, addr := bodyNat b (e + 4) 4
      value := BitVec.ofNat 32 (bodyNat b (e + 8) 4) })

/-- Is a WAVEDATA or OUTWAVE body well formed (R92, R93)? -/
def streamOk (ty : Nat) (b : List Byte) : Bool :=
  if ty = 9 then
    decide (16 ≤ b.length) && bodyNat b 0 4 % 64 == 0 && bodyNat b 4 4 == b.length - 16 &&
      decide (bodyNat b 0 4 + bodyNat b 4 4 ≤ waveSize)
  else
    decide (8 ≤ b.length) && decide (bodyNat b 0 1 ≤ 3) && bodyNat b 2 2 % 4 == 0 &&
      decide (bodyNat b 2 2 + b.length - 8 ≤ 0x10000)

/-- Is an OEM_ID body valid (R94)?  The model checks its length, SYSEX_ID_LEN, the ranges of SYSEX_ID and DEVICE_ID, and
not the unused and reserved bytes: R94 does not say which values make a body invalid.  DESIGN CHOICE (log 43),
unsafe. -/
def oemOk (b : List Byte) : Bool :=
  b.length == 64 &&
  ((bodyNat b 0 1 == 1 && decide (1 ≤ bodyNat b 1 1) && decide (bodyNat b 1 1 ≤ 0x7D)) ||
   (bodyNat b 0 1 == 3 && bodyNat b 1 1 == 0 && decide (bodyNat b 2 1 ≤ 0x7F) && decide (bodyNat b 3 1 ≤ 0x7F))) &&
  decide (bodyNat b 4 1 ≤ 0x7F)

/-- CODE_LEN of a FIRMWARE body: at most 163,840, and 0 encodes that (R18, R89). -/
def codeLen (b : List Byte) : Nat := countOf (bodyNat b 0x0C 4) 163840

/-- The firmware section's error code, 0 if it may start: CRC, format, signature, version (R89, R90).
DESIGN CHOICE (log 6), safe. -/
def firmwareErr (s : State) (slot : Nat) (x : Sect) : Nat :=
  let b := sectBody s slot x
  let n := codeLen b
  if x.crc ≠ crc32 b then 8
  else if b.length < 128 ∨ bodyNat b 0 4 ≠ 0x57464850 ∨ b.length ≠ 128 + n ∨ n % 4 ≠ 0 ∨ 163840 < n ∨
      bodyNat b 0x10 4 % 4 ≠ 0 ∨ n ≤ bodyNat b 0x10 4 ∨ 1 < bodyNat b 0x14 1 then 5
  else if !Config.ed25519 (bodyNat b 0x14 1) (b.take (64 + n)) (b.drop (64 + n)) then 6
  else if bodyNat b 8 4 ≠ flashNat s.prot.flash (s.dev.boot.base slot + 0x0C) 4 then 7
  else 0

/-- The firmware section of a table. -/
def firmwareSect (t : List Sect) : Option Sect := t.find? (fun x => x.typ == 1)

/-- The error a section's body gives when it is read whole, 0 for none (R88, R91 to R96). -/
def sectErr (s : State) (slot : Nat) (x : Sect) : Nat :=
  let b := sectBody s slot x
  if x.typ = 1 then firmwareErr s slot x
  else if x.crc ≠ crc32 b then 8
  else if x.typ = 2 then (if listOk b then 0 else 9)
  else if x.typ = 9 ∨ x.typ = 10 then (if streamOk x.typ b then 0 else 9)
  else if x.typ = 11 then (if oemOk b then 0 else 9)
  else if (recordsOf x.typ b).isSome then 0 else 9

/-! ### Failures and warnings (R88, R105 to R108) -/

/-- A boot error logged, with severity 2 if it is fatal, 1 otherwise (R108, R505). -/
def bootLog (fatal : Bool) (code slot sect : Nat) (d : Dev) : Dev :=
  d.logEv 0x00 code (if fatal then 2 else 1) [slot, sect]

/-- A non-fatal boot error: logged and counted in WARN_CNT (R108). -/
def bootWarn (code slot sect : Nat) (d : Dev) : Dev :=
  (bootLog false code slot sect d).bumpFld Reg.GLB_BOOT_STAT 15 8 1

/-- GLB_BOOT_STAT.ERR and SECT (R108). -/
def bootErr (code sect : Nat) (d : Dev) : Dev :=
  (d.putFld Reg.GLB_BOOT_STAT 23 16 code).putFld Reg.GLB_BOOT_STAT 29 24 sect

/-- GLB_BOOT_STAT.SLOT (R111). -/
def Dev.slot (d : Dev) : Nat := d.fld Reg.GLB_BOOT_STAT 4 4

/-- The slot in use fails after its firmware started: the marker is recorded and no further section is
processed; the fallback reset follows (R106).  A marker that names the other slot says that both have failed
(R107). DEDUCED (log 43), unsafe. -/
def failLate (code sect : Nat) (s : State) : State :=
  let d := s.dev
  let d := bootLog true code d.slot sect (bootErr code sect d)
  { s with
    prot := { s.prot with
      marker := some (s.dev.slot, code, sect)
      markedBoth := s.prot.markedBoth || match s.prot.marker with
        | some (k, _, _) => k != s.dev.slot
        | none => false }
    dev := d.modBoot (fun b => { b with failed := true, lists := [], streams := [], delaying := false, polling := false }) }

/-- A section whose check fails: skipped with a warning if optional, otherwise the slot fails (R88). -/
def sectFails (x : Sect) (code : Nat) (s : State) : State :=
  if x.optional ∧ x.typ ≠ 1 ∧ x.typ ≠ 2 then s.onDev (bootWarn code s.dev.slot x.index)
  else failLate code x.index s

/-! ### Slot choice at step 4 (R81, R84 to R86, R105, R107) -/

/-- The octal switch: attempted with BOOT_SRC = 00b (11b is treated as 00b), or after a RETRY, and NV_FLAGS.OCTAL, at most
twice; failing, the slot loads in recovery mode with a warning (R73, R77, R112). DESIGN CHOICE (log 11), safe. -/
def octalSwitch (slot : Nat) (s : State) : State :=
  let d := s.dev
  let src := d.fld Reg.GLB_STRAP 1 0
  let want := (src == 0 || src == 3 || d.boot.asNvm) && (d.dom Dom.ctrl).state != .failed && (flashNat s.prot.flash (d.boot.base slot + 0x17) 1).testBit 0
  if !want then s.onDev (fun d => d.putFlag Reg.GLB_BOOT_STAT 6 false)
  else if Config.octalOk d.fresh || Config.octalOk (d.fresh + 1) then
    s.onDev (fun d => d.draw.draw.putFlag Reg.GLB_BOOT_STAT 6 true)
  else s.onDev (fun d => bootWarn 0x0B slot 0 (d.draw.draw.putFlag Reg.GLB_BOOT_STAT 6 false))

/-- A slot accepted at step 4: its table is kept, RATEFAM is copied, the octal switch is made (R77, R84).
A RATEFAM other than 00h and 01h is taken as the 48 kHz family: R83 does not say.  DESIGN CHOICE (log 43), unsafe.
With no slot in use, as in NO_IMAGE after an accepted slot failed in place, SLOT and FALLBACK go on showing the last
accepted slot's values: R111 does not say.  DESIGN CHOICE (log 43), unsafe. -/
def acceptSlot (slot : Nat) (s : State) : State :=
  let a := s.dev.boot.base slot
  let fl := s.prot.flash
  octalSwitch slot (s.onDev (fun d =>
    let d := d.modBoot (fun b => { b with
      sects := readTable s slot, hdrSec := flashNat fl (a + 0x0C) 4
      hold := (flashNat fl (a + 0x24) 4).testBit 0
      wakeMask := if flashNat fl (a + 0x28) 4 = 0 then 2 ^ 30 - 1 else flashNat fl (a + 0x28) 4 })
    let d := d.putFld Reg.GLB_BOOT_STAT 4 4 slot
    let d := d.putFlag Reg.GLB_BOOT_STAT 5 (slot != d.boot.prefer)
    d.putFlag Reg.GLB_FRAME_CTL 1 (flashNat fl (a + 0x13) 1 == 1)))

/-- A slot fails in place: logged, recorded, and not tried again in this boot (R105, R108). -/
def failInPlace (slot code sect : Nat) (s : State) : State :=
  s.onDev (fun d => (bootLog true code slot sect (bootErr code sect d)).modBoot (fun b =>
    { b with tried := slot :: b.tried, sects := [] }))

/-- Both slots have failed: the stage is NO_IMAGE, FAULT_N is low, and the ROM drives the NVM port in recovery mode
(R107, R511). -/
def noImage (s : State) : State :=
  s.onDev (fun d => ((d.setStage Stage.noImage).putFlag Reg.GLB_BOOT_STAT 6 false).setFault 2)

/-- One slot tried at step 4, read in single-lane mode (R76, R105). -/
def trySlot (slot : Nat) (s : State) : State × Bool :=
  if s.dev.boot.tried.contains slot then (s, false)
  else
    let s := s.onDev (fun d => d.putFlag Reg.GLB_BOOT_STAT 6 false)
    let e := headerErr s slot
    let e := if e ≠ 0 then e else tableErr s slot
    if e = 0 then (acceptSlot slot s, true) else (failInPlace slot e 0 s, false)

/-- The preferred slot, then the other (R105). -/
def trySlots (s : State) : State :=
  let p := s.dev.boot.prefer
  let r := trySlot p s
  if r.2 then r.1
  else
    let r := trySlot (1 - p) r.1
    if r.2 then r.1 else noImage r.1

/-! ### Loading (R90 to R94, R100) -/

/-- The firmware's code loaded at address 0 and the rest of management RAM cleared (R90). -/
def loadCode (b : List Byte) (d : Dev) : Dev :=
  let n := codeLen b
  { d with mem := { d.mem with mram := cellPutBytes zeroByte [] 0 ((b.drop 64).take n) } }

/-- A word of a part record loaded, unless a count field of it is out of its bound (R91, R156). -/
def loadPartWord (off : Nat) (bs : List Byte) (d : Dev) : Dev :=
  if partWordBad off (BitVec.ofNat 32 (leNat bs)) Word.all then rejectPart d else d.psRaw off bs

/-- A record section's records written to the parameter store by the firmware; a part's words under R156 (R91). -/
def loadRecords (x : Sect) (b : List Byte) (d : Dev) : Dev :=
  match regionOf x.typ, recordsOf x.typ b with
  | some (base, size, _), some (first, cnt) =>
    let bs := (b.drop 8).take (cnt * size)
    if !d.isOn Dom.ctrl then d
    else if x.typ = 4 then
      forUpTo (bs.length / 4) (fun k d => loadPartWord (base + first * size + 4 * k) ((bs.drop (4 * k)).take 4) d) d
    else d.psRaw (base + first * size) bs
  | _, _ => d

/-- A section processed at step 5: a record section is loaded, a list and a streamed section are kept for
their turn, an OEM_ID is kept in management RAM; its DEVICE_ID is written to SERIAL if that domain is or will be ON (R22, R88, R91,
R94, R96, R101). DESIGN CHOICE (log 35), unsafe.  At which address of management RAM the OEM_ID record lies R499 does not
say; the model keeps it beside the cells that the mover's space 08h reads.  DESIGN CHOICE (log 43), unsafe. -/
def loadSect (x : Sect) (s : State) : State :=
  if s.dev.boot.failed ∨ x.typ = 1 then s
  else
    let b := sectBody s s.dev.slot x
    let known := decide (2 ≤ x.typ ∧ x.typ ≤ 11)
    if !known then sectFails x 9 s
    else if x.typ = 9 ∨ x.typ = 10 then
      if streamOk x.typ b then s.onDev (fun d => d.modBoot (fun t => { t with streams := t.streams ++ [x] }))
      else sectFails x 9 s
    else
      let e := sectErr s s.dev.slot x
      if e ≠ 0 then sectFails x e s
      else if x.typ = 2 then
        if bodyNat b 0 1 = 0 then
          s.onDev (fun d => d.modBoot (fun t => { t with lists := t.lists ++ [(x.index, listEntries b)] }))
        else s
      else if x.typ = 11 then
        s.onDev (fun d => (d.modBoot (fun t => { t with
          oemId := b, sysexId := (b.drop 1).take (bodyNat b 0 1) })) |> fun d =>
            if d.isOn Dom.serial || d.boot.wakeMask.testBit Dom.serial then d.putFld Reg.SER_SYSEX 6 0 (bodyNat b 4 1)
            else d)
      else s.onDev (loadRecords x b)

/-- The phase 01h lists of the image, in table order (R96, R99). -/
def lists1 (s : State) : List (Nat × List RegEntry) :=
  s.dev.boot.sects.filterMap (fun x =>
    let b := sectBody s s.dev.slot x
    if x.typ = 2 ∧ bodyNat b 0 1 = 1 then some (x.index, listEntries b) else none)

/-- The transfer that streams a section: its data bytes, from the flash to their place (R92, R93, R101, R436). -/
def streamMove (s : State) (x : Sect) : Mover :=
  let b := sectBody s s.dev.slot x
  let h := if x.typ = 9 then 16 else 8
  { Mover.reset with
    state := .busy, src := s.dev.boot.base s.dev.slot + x.off + h
    dst := if x.typ = 9 then bodyNat b 0 4 else bodyNat b 2 2
    srcSpace := 6, dstSpace := if x.typ = 9 then 0 else 2 + bodyNat b 0 1, length := x.len - h, crcOn := true }

/-- Does channel 2 show this transfer? -/
def streamShown (m : Mover) (d : Dev) : Bool :=
  let n := d.mover 2
  n.srcSpace == 6 && n.dstSpace == m.dstSpace && n.src == m.src && n.dst == m.dst && n.length == m.length

/-- Has channel 2 taken up a transfer? -/
def streamTaken (m : Mover) (d : Dev) : Bool :=
  ((d.mover 2).state == .busy || (d.mover 2).state == .done) && streamShown m d

/-- May the firmware stream: the phase 00h lists have run, the wakes of step 5 have ended, and the mover is there
(R99, R101)? -/
def streamMay (d : Dev) : Bool :=
  d.boot.lists.isEmpty && !anyWaking d && d.isOn Dom.memc && (d.mover 2).state != .busy

/-- The firmware issues the transfer of the section whose turn it is on channel 2, where the mover checks it as any other
(R23, R99, R101, R437, R439).  Which of the firmware's two channels it takes is not said.  DESIGN CHOICE (log 43),
unsafe. -/
def streamFront (s : State) : State :=
  match s.dev.boot.streams with
  | [] => s
  | x :: _ =>
    let m := streamMove s x
    if !streamMay s.dev || streamTaken m s.dev then s
    else
      s.onDev (fun d =>
        let d := d.modBoot (fun t => { t with streaming := true })
        if m.length = 0 then d else firmwareIssue 2 m d)

/-- The section whose turn it was has ended, with an error code or none, and the next one's turn comes (R88, R101). -/
def streamNext (x : Sect) (code : Nat) (s : State) : State :=
  let s := s.onDev (fun d => d.modBoot (fun t => { t with streams := t.streams.drop 1 }))
  streamFront (if code = 0 then s else sectFails x code s)

/-- WAVE_STREAM_DONE: the mover has moved what was left of the oldest streamed section, its CRC is checked, and the next
one's turn comes; before the firmware may stream, and while a borrow of the region holds the bytes back, nothing happens
(R92, R93, R101, R441).  Of an OUTWAVE body whose group is not ON no byte arrives, and that is no error; a transfer that the
mover rejects with another reason than DELAY is a malformed section: R92 and R93 do not say.  DESIGN CHOICE (log 43),
unsafe. -/
def waveStreamDoneState (s : State) : State :=
  match s.dev.boot.streams with
  | [] => s
  | x :: _ =>
    let code := if x.crc = crc32 (sectBody s s.dev.slot x) then 0 else 8
    let m := streamMove s x
    let s1 := streamFront s
    let n := s1.dev.mover 2
    if streamTaken m s1.dev then
      let left := m.length - n.pos
      if moverBorrowed s1.dev n left then s1
      else
        streamNext x code ((moverMove 2 left s1).onDev (fun d => d.modMover 2 (fun n => { n with state := .done })))
    else if !streamMay s1.dev then s1
    else if m.length = 0 then streamNext x code s1
    else if n.reason = 6 then s1
    else streamNext x (if n.reason = 1 then 0 else 9) s1

/-- WAVE_STREAM_DONE (R101). -/
def execWaveStreamDone (s : State) : Host.Outcome State Fault Refusal := .next (waveStreamDoneState s)

/-- The flash reset commands go out: flash and port are back in single-lane mode, and the 100 µs wait starts (R76,
R111). -/
def nvmResetIssue (d : Dev) : Dev :=
  ((d.setStage Stage.rom).putFlag Reg.GLB_BOOT_STAT 6 false).modBoot (fun b => { b with nvmWait := true })

/-- The levels of NV_CS_N and NV_CLK that hold from reset until step 4, when the port drives them, and while MGMT's pads
are latched (R104, R481). -/
def nvPins (d : Dev) : Option (Bool × Bool) :=
  if d.stage < Stage.rom || (d.dom Dom.mgmt).latched then some (true, false) else none

/-- Are NV_DQ[7:0] and NV_DQS at high impedance: while MGMT's pads are latched (R481)? -/
def nvDataHighZ (d : Dev) : Bool := (d.dom Dom.mgmt).latched

/-- NVM_RESET: at step 4 the ROM issues the flash reset commands and the 100 µs wait starts (R76).  Step 3
is over: MGMT and HOSTP are ON, and either CTRL and MEMC are too with the DRAM initialised, or CTRL is FAILED (R78, R99).  With BOOT_SRC = 10b no image is read
(R73, R107). -/
def nvmResetDev (d : Dev) : Dev :=
  let ctrl := d.isOn Dom.ctrl && d.isOn Dom.memc && d.mem.dramReady || (d.dom Dom.ctrl).state == .failed
  if !(d.stage == Stage.domains && d.isOn Dom.mgmt && d.isOn Dom.hostp && ctrl) then d
  else if d.fld Reg.GLB_STRAP 1 0 = 2 then d.setStage Stage.romWait
  else
    nvmResetIssue d

/-- NVM_RESET (R76). -/
def execNvmReset (s : State) : Host.Outcome State Fault Refusal := devNext s nvmResetDev

/-- NVM_RESET_WAIT_END: boot records, header, table and octal switch; a slot that fails here fails in
place (R77, R81, R84, R86, R105, R107).  A marked slot is skipped (R106).  The entry of a bad boot record copy (0Ch) comes
before a slot is chosen, and names slot 0: R108 does not say.  DESIGN CHOICE (log 43), unsafe. -/
def nvmResetWaitEndState (s : State) : State :=
  if !(s.dev.stage == Stage.rom && s.dev.boot.nvmWait) then s
  else
    let fl := s.prot.flash
    let bad := (if copyValid fl 0 then 0 else 1) + (if copyValid fl 1 then 0 else 1)
    let s := s.onDev (fun d =>
      let d := d.modBoot (fun b => recLoad fl { b with
        nvmWait := false
        tried := if s.prot.markedBoth then [0, 1] else match s.prot.marker with
          | some (k, _, _) => [k]
          | none => [] })
      if bad = 0 then d else bootWarn 0x0C 0 0 d)
    trySlots s

/-- NVM_RESET_WAIT_END (R76). -/
def execNvmResetWaitEnd (s : State) : Host.Outcome State Fault Refusal := .next (nvmResetWaitEndState s)

end Sys2Proof.Machine
end

