-- ==== Sys2Proof/Machine/Tables.lean ====
section
/-! DEFINITION. The on-die tables and real-valued functions the spec rounds to integers, computed with
integer arithmetic: the exponential table (R197), the sine tables (R239, R275, R320), the envelope
curves (R233), the interpolation kernels (R208) and the half-band taps (R290). -/

namespace Sys2Proof.Machine

open Sys2Proof

/-- The largest n below 2^bits (tried from the top bit down) for which a downward closed test holds; 0
where it holds for none. -/
def searchBits (test : Nat → Bool) : Nat → Nat → Nat
  | 0, acc => acc
  | b + 1, acc => if test (acc + 2 ^ b) then searchBits test b (acc + 2 ^ b) else searchBits test b acc

/-- The integer square root. -/
def isqrt (n : Nat) : Nat := searchBits (fun k => decide (k * k ≤ n)) 64 0

/-! ### Exponential (R197) -/

/-- m = round(2^24 × 2^(r / 12,288)): the m for which (2m − 1)^12288 ≤ 2^(25 × 12288 + r) < (2m + 1)^12288. -/
def expTable (r : Nat) : Nat :=
  searchBits (fun m => decide ((2 * m - 1) ^ 12288 ≤ 2 ^ (25 * 12288 + r))) 25 0

/-- RNE(v × m × 2^o / 2^24), with o and m of the value p in 1/12,288 octave (R197, R198, R199, R234). -/
def expScale (v : Int) (p : Int) : Int :=
  let o := p / 12288
  let m : Int := expTable (p % 12288).toNat
  if 0 ≤ o then rneDiv (v * m * 2 ^ o.toNat) (2 ^ 24) else rneDiv (v * m) (2 ^ (24 + (-o).toNat))

/-! ### Sine -/

/-- π × 2^128. -/
def piFix : Int := 1069028584064966747859680373161870783300

/-- The terms of the sine series from term k on, for x scaled by 2^128. -/
def sinTerms (x2 : Int) : Nat → Nat → Int → Int
  | 0, _, _ => 0
  | n + 1, k, t => t + sinTerms x2 n (k + 1) (-(t * x2 / 2 ^ 128) / ((2 * k + 2) * (2 * k + 3)))

/-- sin(π n / d) × 2^128, for 0 ≤ n / d ≤ 1/2. -/
def sinFix (n d : Nat) : Int :=
  let x := piFix * n / d
  sinTerms (x * x / 2 ^ 128) 24 0 x

/-- sin(2π φ / 2^32) × 2^128 for a 32-bit phase. -/
def sinPhase (phi : Nat) : Int :=
  let q := phi % 2 ^ 32 / 2 ^ 30
  let p : Nat := phi % 2 ^ 30
  let a := if q = 0 ∨ q = 2 then sinFix p (2 ^ 31) else sinFix (2 ^ 30 - p) (2 ^ 31)
  if q < 2 then a else -a

/-- The sine of a phase rounded to the scale k (R319, R320). -/
def sinRne (k : Int) (phi : Nat) : Int := rneDiv (k * sinPhase phi) (2 ^ 128)

/-- Q[i] = RNE(2^23 × sin(π i / 2,048)) (R239). -/
def sineQ (i : Nat) : Int := rneDiv (2 ^ 23 * sinFix i 2048) (2 ^ 128)

/-- The SINE shape of a 40-bit phase, in Q1.23 (R239). -/
def sineShape (phase : Nat) : Int :=
  let phi := phase / 2 ^ 8
  let d := phi / 2 ^ 30
  let p := if d = 0 ∨ d = 2 then phi % 2 ^ 30 else 2 ^ 30 - phi % 2 ^ 30
  let i := p / 2 ^ 20
  let f : Nat := p % 2 ^ 20
  let m := if f = 0 then sineQ i else sineQ i + rneDiv ((sineQ (i + 1) - sineQ i) * (f : Int)) (2 ^ 20)
  if d < 2 then m else -m

/-- G[i] = RNE(2^15 × sin(π i / 2,048)) (R275). -/
def panG (i : Nat) : Int := rneDiv (2 ^ 15 * sinFix i 2048) (2 ^ 128)

/-- g(x) of the constant-power pan law, for x from 0 to 65,536 (R275). -/
def panGain (x : Nat) : Int :=
  let j := x / 64
  let f : Nat := x % 64
  if f = 0 then panG j else panG j + rneDiv ((panG (j + 1) - panG j) * (f : Int)) 64

/-! ### Envelope curves (R233) -/

/-- T[i] = RNE(2^23 × (64^(i / 256) − 1) / 63): the t for which
(63 (2t − 1) + 2^24)^128 ≤ 2^(3i + 24 × 128) < (63 (2t + 1) + 2^24)^128. -/
def convexT (i : Nat) : Int :=
  (searchBits (fun t => decide ((63 * (2 * t) + 2 ^ 24 - 63) ^ 128 ≤ 2 ^ (3 * i + 24 * 128))) 24 0 : Nat)

/-- Entry i of the CONCAVE table. -/
def concaveT (i : Nat) : Int := 2 ^ 23 - convexT (256 - i)

/-- g = curve(x), in UQ1.23: LINEAR, CONVEX or CONCAVE (R229, R233). -/
def curveOf (code : Nat) (x : Nat) : Int :=
  let i := x / 2 ^ 15
  let f : Nat := x % 2 ^ 15
  if code = 1 then
    if 256 ≤ i then convexT 256 else convexT i + rneDiv ((convexT (i + 1) - convexT i) * (f : Int)) (2 ^ 15)
  else if code = 2 then
    if 256 ≤ i then concaveT 256 else concaveT i + rneDiv ((concaveT (i + 1) - concaveT i) * (f : Int)) (2 ^ 15)
  else (x : Int)

/-! ### Interpolation kernels (R207, R208) -/

/-- The modified Bessel function I0, from y = (argument / 2)^2 × 2^128: the sum of y^k / (k!)^2, × 2^128. -/
def besselTerms (y : Int) : Nat → Nat → Int → Int
  | 0, _, _ => 0
  | n + 1, k, t => t + besselTerms y n (k + 1) (t * y / 2 ^ 128 / ((k + 1) * (k + 1)))

/-- I0 of an argument whose half squared is n / d, × 2^128. -/
def besselI0 (n d : Nat) : Int := besselTerms (2 ^ 128 * (n : Int) / d) 60 0 (2 ^ 128)

/-- The exact tap of point n (−3 to 4) of kernel phase k (0 to 256), up to a factor common to the phase and
scaled by 2^128: sinc(n − x) w(n − x) at x = k / 256, where the common sin(πx) / π cancels (R208). -/
def sincTap (k : Nat) (n : Int) : Int :=
  let u := 256 * n - (k : Int)
  if k = 0 then (if n = 0 then 2 ^ 128 else 0)
  else if k = 256 then (if n = 1 then 2 ^ 128 else 0)
  else
    let w := besselI0 (16 * 65536 - (u * u).toNat) 65536
    (if n % 2 = 0 then -1 else 1) * 256 * w / u

/-- The points of the sinc kernel. -/
def sincPoints : List Int := [-3, -2, -1, 0, 1, 2, 3, 4]

/-- The position of the entry of largest magnitude, the first on a tie. -/
def largestAt : List Int → Nat → Nat → Int → Nat
  | [], _, best, _ => best
  | x :: r, i, best, m => if m < (x.natAbs : Int) then largestAt r (i + 1) i x.natAbs else largestAt r (i + 1) best m

/-- Phase k of the table of taps, in Q2.18 (R208). -/
def sincPhase (k : Nat) : List Int :=
  let raw := sincPoints.map (sincTap k)
  let sum := raw.foldl (· + ·) 0
  let neg : Int := if sum < 0 then -1 else 1
  let q := raw.map (fun t => rneDiv (2 ^ 18 * t * neg) sum.natAbs)
  let diff := 2 ^ 18 - q.foldl (· + ·) 0
  q.modify (largestAt q 0 0 (-1)) (· + diff)

/-- The eight blended taps for a 16-bit fraction (R208). -/
def sincTaps (frac : Nat) : List Int :=
  let k := frac / 256
  let f : Int := (frac % 256 : Nat)
  List.zipWith (fun a b => rneDiv (a * (256 - f) + b * f) 256) (sincPhase k) (sincPhase (k + 1))

/-- The sum of the products of two lists. -/
def dot : List Int → List Int → Int
  | a :: r, b :: s => a * b + dot r s
  | _, _ => 0

/-- The 8-point sinc kernel (R208). -/
def kernelSinc (pts : List Int) (frac : Nat) : Int := satSigned 24 (rneDiv (dot (sincTaps frac) pts) (2 ^ 18))

/-- The 4-point cubic kernel, in Horner order (R207). -/
def kernelCubic (pts : List Int) (frac : Nat) : Int :=
  let a := pts.getD 0 0
  let b := pts.getD 1 0
  let c := pts.getD 2 0
  let e := pts.getD 3 0
  let c3 := (e - a) + 3 * (b - c)
  let c2 := 2 * a - 5 * b + 4 * c - e
  let x : Int := frac
  let h := rneDiv (c3 * x) (2 ^ 16) + c2
  let h := rneDiv (h * x) (2 ^ 16) + (c - a)
  let h := rneDiv (h * x) (2 ^ 16) + 2 * b
  satSigned 24 (rneDiv h 2)

/-! ### The half-band filter (R290) -/

/-- h[2j − 1] for j = 2 to 8. -/
def halfTap (j : Nat) : Int :=
  let n := 2 * j - 1
  let w := besselI0 (1156 * (256 - n * n)) 25600
  let w0 := besselI0 1156 100
  let v := 2 ^ 17 * w * 2 ^ 128 / (piFix * n)
  let r := rneDiv (v * 2 ^ 40 / w0) (2 ^ 40)
  if j % 2 = 1 then r else -r

/-- h[n] for n = 0 to 15. -/
def halfBand (n : Nat) : Int :=
  if n = 0 then 2 ^ 16
  else if n % 2 = 0 then 0
  else if n = 1 then 2 ^ 15 - ([2, 3, 4, 5, 6, 7, 8].map halfTap).foldl (· + ·) 0
  else halfTap ((n + 1) / 2)

/-- The 31 taps, h[−15] to h[15]. -/
def halfTaps : List Int := (List.range 31).map (fun i => halfBand (if i < 15 then 15 - i else i - 15))

/-! ### Logarithm (R328) -/

/-- The fraction bits of log2 of a mantissa m in [1, 2) × 2^100, n bits of them. -/
def log2Bits : Nat → Nat → Nat → Nat
  | 0, _, acc => acc
  | n + 1, m, acc =>
    let q := m * m / 2 ^ 100
    if 2 ^ 101 ≤ q then log2Bits n (q / 2) (2 * acc + 1) else log2Bits n q (2 * acc)

/-- log2(n / d) × 2^48, for 1/2 ≤ n / d < 4. -/
def log2Fix (n d : Nat) : Int :=
  let v := n * 2 ^ 100 / d
  if v < 2 ^ 100 then (log2Bits 48 (2 * v) 0 : Int) - 2 ^ 48
  else if v < 2 ^ 101 then log2Bits 48 v 0
  else (log2Bits 48 (v / 2) 0 : Int) + 2 ^ 48

end Sys2Proof.Machine
end

