-- ==== Sys2Proof/Machine/Modulation.lean ====
section
/-! DEFINITION. Envelopes, LFOs, routes and evaluation points of a voice, and the global LFOs (R224 to
R254), with the commands ENV_SEGMENT_END and GLFO_RESTART. -/

namespace Sys2Proof.Machine

open Sys2Proof

/-- 1.0 with 23 fraction bits. -/
abbrev one23 : Int := 2 ^ 23

/-- A 7-bit value as a source: RNE(v × 2^23 / 127) (R243). -/
def u7 (v : Nat) : Int := rneDiv ((v % 128 : Nat) * one23) 127

/-- Byte k of a list of bytes as a number. -/
def byteAt (l : List Byte) (k : Nat) : Nat := (l.getD k 0).toNat

/-- Little-endian half word k of a list of bytes. -/
def halfAt (l : List Byte) (k : Nat) : Nat := byteAt l k + 256 * byteAt l (k + 1)

/-- Little-endian word k of a list of bytes. -/
def wordAt (l : List Byte) (k : Nat) : Nat := halfAt l k + 65536 * halfAt l (k + 2)

/-- Fe in Hz, by the declared family (R37, R38). -/
def Dev.fe (d : Dev) : Nat := 8 * d.fb

/-- The CF boundary at or after an EF. -/
def cfAtOrAfter (e : Nat) : Nat := efAdd e ((4 - e % 4) % 4)

/-! ### LFSR (R209) -/

/-- One step of the 32-bit Galois LFSR (R209). -/
def lfsrStep (s : Nat) : Nat := if s % 2 = 1 then (s / 2) ^^^ 0x80200003 else s / 2

/-- 32 steps (R209). -/
def lfsr32 (s : Nat) : Nat := (List.range 32).foldl (fun a _ => lfsrStep a) s

/-- The top 24 bits of the state, as Q1.23. -/
def lfsrTop (s : Nat) : Int := signed 24 (s / 256)

/-! ### Time codes (R231) -/

/-- N = round(t × Fe) of a time code (R231). -/
def timeEf (fe code : Nat) : Nat :=
  let t := code % 32768
  if code < 32768 then roundHalfUp (t * fe) 10000 else roundHalfUp (min t 6000 * fe) 100

/-- N scaled by the exponent of a sum S_d, held to the lengths of 0.1 ms and 60 s (R234). -/
def scaledLen (fe n : Nat) (s : Int) : Nat :=
  if n = 0 then 0
  else
    let q := rneDiv (clampInt (-one23) one23 s * 98304) (2 ^ 23)
    min (max (expScale n q).toNat (timeEf fe 1)) (60 * fe)

/-! ### Envelopes (R229 to R236) -/

/-- Offset of ENVi in a patch (R229). -/
def envAt (i : Nat) : Nat := 0x100 + 0x14 * i

/-- The base time code of a segment; none for SUSTAIN (R229). -/
def segCode (base : List Byte) (i seg : Nat) : Nat :=
  let a := envAt i
  if seg = 0 then halfAt base (a + 2)
  else if seg = 1 then halfAt base (a + 4)
  else if seg = 2 then halfAt base (a + 6)
  else if seg = 3 then halfAt base (a + 8)
  else halfAt base (a + 12)

/-- The length of a segment that begins now: the time field scaled by TIME and the segment's own
destination (R234). -/
def segLen (fe : Nat) (base : List Byte) (sums : List Int) (i seg : Nat) : Nat :=
  let own : Int := if seg = 1 then at_ sums (37 + i) 0 else if seg = 3 then at_ sums (41 + i) 0
    else if seg = 5 then at_ sums (45 + i) 0 else 0
  scaledLen fe (timeEf fe (segCode base i seg)) (at_ sums (33 + i) 0 + own)

/-- The sustain level: SUSTAIN plus its destination, held to 0 to 1.0, in Q2.23 (R232, R247). -/
def sustainLevel (base : List Byte) (sums : List Int) (i : Nat) : Int :=
  clampInt 0 one23 ((min (halfAt base (envAt i + 10)) 0x8000 : Nat) * 256 + at_ sums (49 + i) 0)

/-- EFLAGS.ONESHOT of ENVi, read at arming (R230). -/
def envOneShot (arm : List Byte) (i : Nat) : Bool := (byteAt arm (envAt i)).testBit 0

/-- The curve code of a segment, read at arming (R230). -/
def envCurve (arm : List Byte) (i seg : Nat) : Nat :=
  let c := byteAt arm (envAt i + 1)
  if seg = 1 then c % 4 else if seg = 3 then c / 4 % 4 else c / 16 % 4

/-- The segment after one that has run its length (R232). -/
def segNext (oneshot : Bool) (seg : Nat) : Nat := if seg = 3 ∧ oneshot then 5 else min (seg + 1) 6

/-- The level a segment ends at (R232). -/
def segEnd (e : Env) (sus : Int) : Int :=
  if e.seg = 0 then e.l0 else if e.seg = 3 then sus else if e.seg = 5 then 0 else one23

/-- Segments that have run their length by b are left behind, the time over carried on; each end is
listed (R234). -/
def envRun (b : Nat) (oneshot : Bool) (sus : Int) (len : Nat → Nat) : Nat → Env × List (Nat × Nat) → Env × List (Nat × Nat)
  | 0, x => x
  | n + 1, (e, ends) =>
    if e.seg = 4 ∨ e.seg = 6 then (e, ends)
    else if e.len ≤ efSince b e.since then
      let sg := segNext oneshot e.seg
      let t := efAdd e.since e.len
      envRun b oneshot sus len n
        ({ e with seg := sg, since := t, len := if sg = 4 ∨ sg = 6 then 0 else len sg, l0 := segEnd e sus },
         ends ++ [(t, sg)])
    else (e, ends)

/-- The value of an envelope k EF into its segment (R233). -/
def envValue (arm : List Byte) (i : Nat) (e : Env) (sus : Int) (b : Nat) : Int :=
  let k := efSince b e.since
  let along (l1 : Int) : Int :=
    let x := (rneDiv ((k : Int) * one23) (if e.len = 0 then 1 else e.len)).toNat
    e.l0 + rneDiv ((l1 - e.l0) * curveOf (envCurve arm i e.seg) x) (2 ^ 23)
  if e.seg = 0 then e.l0
  else if e.seg = 1 then along one23
  else if e.seg = 2 then one23
  else if e.seg = 3 then along sus
  else if e.seg = 4 then sus
  else if e.seg = 5 then along 0
  else 0

/-- An envelope at evaluation point b: a restart and the gate's fall at the point before it, segments run
out, and its value (R232 to R236).  DELAY begins with the level the envelope stands at; a gate that falls at the point
of a restart came after it, so an envelope that minds the gate enters RELEASE there. -/
def envEval (fe : Nat) (va : VAud) (sums : List Int) (b prev : Nat) (fell again : Bool) (i : Nat) (e : Env) : Env × List (Nat × Nat) :=
  let one := envOneShot va.arm i
  let sus := sustainLevel va.base sums i
  let len := segLen fe va.base sums i
  let first := va.ptB.isNone
  let e0 : Env := if first then { seg := 0, since := b, len := len 0, l0 := 0, val := 0 } else e
  let e1 : Env × List (Nat × Nat) := if again then
      ({ e0 with seg := 0, since := prev, len := len 0, l0 := e0.val }, [(prev, 0)]) else (e0, [])
  let e2 : Env × List (Nat × Nat) := if fell && !one && decide (e1.1.seg < 5) then
      ({ e1.1 with seg := 5, since := prev, len := len 5, l0 := e0.val }, e1.2 ++ [(prev, 5)]) else e1
  let e3 := envRun b one sus len 8 e2
  ({ e3.1 with val := envValue va.arm i e3.1 sus b }, e3.2)

/-! ### LFOs (R238 to R240) -/

/-- Offset of LFOi in a patch (R229). -/
def lfoAt (i : Nat) : Nat := 0x150 + 0x0C * i

/-- INC1 (R238). -/
def inc1 (fam44 : Bool) : Int := if fam44 then 3116530 else 2863312

/-- The increment of a rate code with a modulation sum (R238). -/
def lfoInc (fam44 : Bool) (rate : Nat) (s : Int) : Nat :=
  let r := clampInt 0 65535 ((rate : Int) + rneDiv (s * 32768) (2 ^ 23))
  (expScale (inc1 fam44) (3 * (r - 32768))).toNat

/-- One carry of the phase: the LFSR advances and the random values move on (R239). -/
def lfoCarry (l : Lfo) : Lfo :=
  let s := lfsr32 l.lfsr
  { l with lfsr := s, rPrev := l.rNew, rNew := lfsrTop s }

/-- An LFO seeded and started at a phase (R239, R242). -/
def lfoStart (seed phase : Nat) : Lfo :=
  { lfoCarry { Lfo.reset with lfsr := seed } with rPrev := 0, phase := phase % 2 ^ 40 }

/-- The phase advanced by n EF at the present increment; with ONESHOT it stops before its total advance
reaches 2^40 (R238, R240). -/
def lfoAdvance (oneshot : Bool) (n : Nat) (l : Lfo) : Lfo :=
  let step := l.inc * n
  if oneshot && (l.stopped || decide (2 ^ 40 ≤ l.total + step)) then { l with stopped := true }
  else
    let l1 := (List.range ((l.phase + step) / 2 ^ 40)).foldl (fun a _ => lfoCarry a) l
    { l1 with phase := (l.phase + step) % 2 ^ 40, total := l.total + step }

/-- The raw output of a shape (R239). -/
def lfoRaw (shape : Nat) (l : Lfo) : Int :=
  let phi := l.phase / 2 ^ 8
  if shape = 1 then
    let p : Nat := (phi + 2 ^ 30) % 2 ^ 32
    one23 - rneDiv (((p : Int) - 2 ^ 31).natAbs : Int) (2 ^ 7)
  else if shape = 2 then rneDiv (phi : Int) (2 ^ 8) - one23
  else if shape = 3 then one23 - rneDiv (phi : Int) (2 ^ 8)
  else if shape = 4 then (if phi < 2 ^ 31 then one23 else -one23)
  else if shape = 5 then l.rNew
  else if shape = 6 then l.rPrev + rneDiv ((l.rNew - l.rPrev) * (phi : Int)) (2 ^ 32)
  else sineShape l.phase

/-- Raw output with UNIPOLAR applied (R240). -/
def lfoShaped (flags shape : Nat) (l : Lfo) : Int :=
  let r := lfoRaw shape l
  if flags.testBit 1 then rneDiv (r + one23) 2 else r

/-- The lengths of a voice LFO's fade n EF after s: DELAY is taken at s, and FADE where the rise begins (R230, R240). -/
def lfoTimes (fe : Nat) (base : List Byte) (i n : Nat) (first : Bool) (l : Lfo) : Lfo :=
  let l := if first then { l with nd := timeEf fe (halfAt base (lfoAt i + 4)), nf := none } else l
  if l.nf.isNone && decide (l.nd ≤ n) then { l with nf := some (timeEf fe (halfAt base (lfoAt i + 6))) } else l

/-- The fade of a voice LFO n EF after s (R240). -/
def lfoFade (n : Nat) (l : Lfo) : Int :=
  match l.nf with
  | none => 0
  | some nf => if nf ≤ n - l.nd then one23 else rneDiv (((n - l.nd : Nat) : Int) * one23) nf

/-- A factor destination's value: 1.0 + S, held to 0 to top (R247). -/
def factorOf (top s : Int) : Int := clampInt 0 top (one23 + s)

/-- The start phase of a voice LFO (R239). -/
def lfoPhase0 (arm : List Byte) (seed i : Nat) : Nat :=
  let p := halfAt arm (lfoAt i + 8) * 2 ^ 24
  if (byteAt arm (lfoAt i + 1)).testBit 0 then p else (p + seed * 2 ^ 8) % 2 ^ 40

/-- A voice LFO's output from its state: raw × fade × AMOUNT (R240). -/
def lfoOut (va : VAud) (b i : Nat) (amount : Int) (l : Lfo) : Int :=
  let raw := lfoShaped (byteAt va.arm (lfoAt i + 1)) (byteAt va.arm (lfoAt i)) l
  let faded := rneDiv (raw * lfoFade (efSince b va.start) l) (2 ^ 23)
  rneDiv (faded * factorOf one23 amount) (2 ^ 23)

/-- A voice LFO at evaluation point b (R236, R238, R240). -/
def lfoEval (fe : Nat) (fam44 : Bool) (va : VAud) (sums : List Int) (b prev : Nat) (again : Bool) (i : Nat) (l : Lfo) : Lfo :=
  let flags := byteAt va.arm (lfoAt i + 1)
  let l := lfoTimes fe va.base i (efSince b va.start) va.ptB.isNone l
  let l0 : Lfo := if again && flags.testBit 0 then
      { l with phase := halfAt va.arm (lfoAt i + 8) * 2 ^ 24, total := 0, stopped := false } else l
  let l1 := if va.ptB.isNone then l0 else lfoAdvance (flags.testBit 2) (efSince b prev) l0
  let l2 := { l1 with inc := lfoInc fam44 (halfAt va.base (lfoAt i + 2)) (at_ sums (53 + i) 0) }
  if l2.stopped then l2 else { l2 with out := lfoOut va b i (at_ sums (57 + i) 0) l2 }

/-! ### Global LFOs (R241, R242) -/

/-- Offset of global LFO g's record (R241). -/
def glfoAt (g : Nat) : Nat := 0xAC000 + 0x40 * g

/-- The value of global LFO g for an evaluation point: that for the latest CF boundary at or before it (R242). -/
def glfoValue (d : Dev) (g b : Nat) : Int :=
  let x := at_ d.aud.glfo g GLfo.reset
  if efReached b x.nextAt then x.next else x.now

/-- n boundaries further, E = 4 at each (R238). -/
def glfoAhead (oneshot : Bool) : Nat → Lfo → Lfo
  | 0, l => l
  | n + 1, l => glfoAhead oneshot n (lfoAdvance oneshot 4 l)

/-- Global LFO g computed at boundary B for boundary B + 4; a restart falls at its own boundary (R242). -/
def glfoStep (d : Dev) (g : Nat) (x : GLfo) : GLfo :=
  let a := glfoAt g
  let run := (d.ps8 (a + 0x0C)).testBit 0
  let flags := d.ps8 (a + 1)
  let phase0 := d.ps16 (a + 8) * 2 ^ 24
  let target := efAdd d.now 4
  let due : Option Nat := match x.restart with
    | some b => if efReached target b then some b else none
    | none => none
  let first := run && !x.everRun
  let l1 : Lfo :=
    if first then lfoStart (g + 1) phase0
    else match due with
      | some b =>
        let l : Lfo := { x.lfo with phase := phase0, total := 0, stopped := false }
        if run then glfoAhead (flags.testBit 2) (efSince target b / 4) l else l
      | none => if run then lfoAdvance (flags.testBit 2) 4 x.lfo else x.lfo
  let l2 : Lfo := { l1 with inc := lfoInc d.fam44 (d.ps16 (a + 2)) 0 }
  let l3 : Lfo := if run && !l2.stopped then { l2 with out := lfoShaped flags (d.ps8 a) l2 } else l2
  { x with
    lfo := l3, everRun := x.everRun || run, running := run, restart := if due.isSome then none else x.restart
    now := x.next, next := if x.everRun || run then l3.out else 0, nextAt := target }

/-- Restarts of the named global LFOs at a CF boundary (R242, R533). -/
def glfoRestartAt (mask : Nat) (b : Nat) (d : Dev) : Dev :=
  d.modAud (fun x => { x with glfo := (List.range 16).map (fun g =>
    let y := at_ x.glfo g GLfo.reset
    if mask.testBit g then { y with restart := some b } else y) })

/-- The first CF boundary at least 4 EF after the present EF (R242). -/
def glfoBoundary (d : Dev) : Nat := cfAtOrAfter (efAdd d.now 4)

/-! ### Sources (R243) -/

/-- The value of a source at an evaluation point (R243). -/
def sourceValue (d : Dev) (v : Nat) (va : VAud) (envs lfos : List Int) (gate : Bool) (b code : Nat) : Int :=
  let x := d.voice v
  let cc (n : Nat) : Int := u7 (byteAt va.part (0x40 + n))
  let own := byteAt va.pn 4 != 0xFF
  if code = 0 then 0
  else if code ≤ 4 then at_ envs (code - 1) 0
  else if code ≤ 8 then at_ lfos (code - 5) 0
  else if code ≤ 24 then glfoValue d (code - 9) b
  else if code = 25 then (if va.vel16 ≠ 0 then rneDiv ((va.vel16 : Int) * one23) 65535 else u7 va.vel)
  else if code = 26 then u7 va.relVel
  else if code = 27 then ((va.key : Int) - 64) * 2 ^ 17
  else if code = 28 then ((halfAt va.part 0x20 : Int) - 8192) * 2 ^ 10
  else if code = 29 then u7 (byteAt va.part 0x22)
  else if code = 30 then cc 1
  else if code = 31 then cc 2
  else if code = 32 then cc 4
  else if code = 33 then cc 11
  else if code = 34 then (if (byteAt va.part 0x23).testBit 0 then one23 else 0)
  else if code = 35 then (if own then ((halfAt va.pn 0 : Int) - 8192) * 2 ^ 10 else 0)
  else if code = 36 then u7 (byteAt va.pn 2)
  else if code = 37 then (if own then u7 (byteAt va.pn 3) else cc 74)
  else if code = 38 then lfsrTop va.seed
  else if code = 39 then
    (if x.uniN ≤ 1 then 0 else rneDiv ((2 * (x.uniIdx : Int) - ((x.uniN : Int) - 1)) * one23) (x.uniN - 1))
  else if code = 40 then (if gate then one23 else 0)
  else if code = 41 then one23
  else if code ≤ 47 then
    (let c := byteAt va.assign (code - 42)
     if c ≤ 127 then cc c else 0)
  else 0

/-! ### Routes (R244 to R246) -/

/-- SRC of a route word. -/
def rtSrc (w : Nat) : Nat := w % 64
/-- SMOOTH of a route word; 5 to 7 read as 4. -/
def rtSmooth (w : Nat) : Nat := min (w / 64 % 8) 4
/-- DST of a route word. -/
def rtDst (w : Nat) : Nat := w / 1024 % 64
/-- DEPTH of a route word. -/
def rtDepth (w : Nat) : Int := signed 16 (w / 65536)

/-- Is a route word invalid (R244)? -/
def rtBad (w : Nat) : Bool := decide (48 ≤ rtSrc w) || rtDst w == 63 || w.testBit 9

/-- Is a route on (R244)? -/
def rtOn (w : Nat) : Bool := !rtBad w && rtSrc w != 0 && rtDst w != 0

/-- Does a route to this destination take its value from the previous evaluation point (R246)? -/
def rtLate (dst : Nat) : Bool := decide (33 ≤ dst ∧ dst ≤ 60)

/-- Route j of WORK. -/
def routeWord (base : List Byte) (j : Nat) : Nat := wordAt base (0x180 + 4 * j)

/-- Invalid route words flagged, counted and recorded, for the routes whose word has changed or, at arming,
all (R244). -/
def routeErrors (c tile : Nat) (words old : List Nat) (all : Bool) (d : Dev) : Dev :=
  forUpTo 24 (fun j d =>
    let w := at_ words j 0
    if rtBad w && (all || w != at_ old j 0) then
      (cluIrq c Reg.CLU_MOD_IRQ_STAT 0 (cluBump c Reg.CLU_CNT_ROUTE_ERR 1 d)).putReg (cluReg c Reg.CLU_MOD_LAST_ERR)
        (BitVec.ofNat 32 (tile * 2 ^ 24 + j * 2 ^ 16 + w % 65536))
    else d) d

/-- A route's history and smoothed value with the source's value at this point: only a new SRC refills it, on or
off (R245). -/
def routeStep (first : Bool) (w : Nat) (val : Int) (r : Route) : Route :=
  let refill := first || r.hist.isEmpty || rtSrc r.word != rtSrc w
  let h := if refill then List.replicate 16 val else (val :: r.hist).take 16
  let n := 2 ^ rtSmooth w
  { word := w, hist := h, y := rneDiv ((h.take n).foldl (· + ·) 0) n }

/-- The sum of the contributions of the routes chosen (R246). -/
def routeSum (rs : List (Nat × Int)) (dst : Nat) : Int :=
  rs.foldl (fun a p => if rtOn p.1 && rtDst p.1 == dst then a + rneDiv (rtDepth p.1 * p.2) (2 ^ 15) else a) 0

/-! ### Evaluation points (R224 to R226, R235 to R237) -/

/-- The fields a CF read point reads, the host's writes of its release among them (R35, R48, R194, R230, R243, R256). -/
def cfRead (v : Nat) (d : Dev) : Dev :=
  let y := d.voice v
  let s := d.seen
  d.modVaud v (fun x => { x with
    key := y.key, vel := y.vel, vel16 := y.vel16, relVel := y.relVel
    base := s.psBytes (workAt v) 0x200, part := s.psBytes (partRec y.part) 0xC0
    pn := s.psBytes (vblk v + 0x40) 5, assign := s.psBytes (0xAC400) 6 })

/-- The evaluation of voice v at point b (R224, R232 to R246). -/
def evalPoint (v b : Nat) (d : Dev) : Dev :=
  let va := d.vaud v
  let c := cluOf v
  let first := va.ptB.isNone
  let prev := match va.ptB with
    | some p => p.ef
    | none => b
  let fell := match va.gateFall with
    | some g => !first && efReached prev g
    | none => false
  let again := match va.restart with
    | some g => !first && efReached prev g
    | none => false
  let gate := if fell then false else if again || first then true else va.gate
  let words := (List.range 24).map (routeWord va.base)
  let d := routeErrors c (v % 16) words (va.routes.map Route.word) false d
  let startLfo := (List.range 4).map (fun i =>
    lfoOut va b i 0 (lfoTimes d.fe va.base i (efSince b va.start) first (at_ va.lfos i Lfo.reset)))
  let src0 := sourceValue d v va [0, 0, 0, 0] startLfo gate b
  let oldY := (List.range 24).map (fun j =>
    if first then src0 (rtSrc (at_ words j 0)) else (at_ va.routes j ⟨0, [], 0⟩).y)
  let late := (List.range 64).map (fun t => if rtLate t then routeSum (words.zip oldY) t else 0)
  let es := (List.range 4).map (fun i => envEval d.fe va late b prev fell again i (at_ va.envs i Env.reset))
  let envs := es.map Prod.fst
  let lfos := (List.range 4).map (fun i => lfoEval d.fe d.fam44 va late b prev again i (at_ va.lfos i Lfo.reset))
  let envV := envs.map Env.val
  let lfoV := lfos.map Lfo.out
  let src := sourceValue d v va envV lfoV gate b
  let routes := (List.range 24).map (fun j =>
    routeStep first (at_ words j 0) (src (rtSrc (at_ words j 0))) (at_ va.routes j ⟨0, [], 0⟩))
  let sums := (List.range 64).map (fun t =>
    if rtLate t then at_ late t 0 else routeSum (words.zip (routes.map Route.y)) t)
  let e0 := at_ envs 0 Env.reset
  let zero := if again && !fell then none else if va.zero.isSome then va.zero
    else if 5 ≤ e0.seg ∧ e0.val = 0 then
      (if fell && !envOneShot va.arm 0 && (at_ va.envs 0 Env.reset).val == 0 then some prev else some b)
    else none
  let stale := match va.restart with
    | some g => first && g != b && efReached b g
    | none => false
  let ends := (List.range 4).flatMap (fun i => ((at_ es i (Env.reset, [])).2).map (fun p => (p.1, i, p.2)))
  d.modVaud v (fun x => { x with
    envs := envs, lfos := lfos, routes := routes, gate := gate
    gateFall := if fell then none else x.gateFall, restart := if again || stale then none else x.restart
    ptA := x.ptB, ptB := some { ef := b, envs := envV, lfos := lfoV, sums := sums }
    segEnds := x.segEnds ++ ends, zero := zero })

/-- Is the evaluation point after the first sample still to come?  The first sample lies between CF boundaries, and
a gate that falls at it shapes the next point (R224, R235). -/
def nextOpen (x : VAud) : Bool :=
  match x.ptB with
  | some p => p.ef == x.start && x.start % 4 != 0
  | none => false

/-- The evaluation point after the first sample, with the inputs read at the boundary before both (R224). -/
def evalNext (v : Nat) (d : Dev) : Dev :=
  let x := d.vaud v
  if nextOpen x && efReached d.now x.start then evalPoint v (cfAtOrAfter x.start) d else d

/-- The evaluation points computed at CF boundary B for voice v: its first sample s if it lies before B + 4 or on
it, and otherwise B + 4 (R224). -/
def evalVoice (v B : Nat) (d : Dev) : Dev :=
  let x := d.vaud v
  let next := efAdd B 4
  match x.ptB with
  | none => if efSince next x.start ≤ 8 then evalPoint v x.start d else d
  | some p => if p.ef = next ∨ nextOpen x then d else evalPoint v next d

/-- The latest evaluation point at or before the present EF (R228, R253). -/
def pointNow (d : Dev) (v : Nat) : Option Pt :=
  let x := d.vaud v
  match x.ptB with
  | some p => if efReached d.now p.ef then some p else
      match x.ptA with
      | some q => if efReached d.now q.ef then some q else none
      | none => none
  | none => none

/-- R228: ENV0's value written into LEVEL on port V; the voice keeps its own copy, which no host write reaches (R161). -/
def levelWrite (v : Nat) (d : Dev) : Dev :=
  match pointNow d v with
  | some p =>
    let l := unsigned 24 (at_ p.envs 0 0)
    (d.modVaud v (fun x => { x with level := l })).v32 (vblk v + 0x14) l
  | none => d

/-- Is a voice in a state in which its modulation is evaluated? -/
def modulated (x : Voice) : Bool :=
  x.state == .arming || x.state == .sounding || x.state == .releasing || x.state == .stealing

/-- ENV_SEGMENT_END: a segment of an envelope has reached its length in EF; the next one is in force (R234). -/
def envSegmentEndDev (v env : Nat) (d : Dev) : Dev :=
  match (d.vaud v).segEnds.find? (fun t => t.2.1 == env && efReached d.now t.1) with
  | some t => d.modVaud v (fun x => { x with
      segs := upd x.segs env (fun _ => t.2.2), segEnds := x.segEnds.erase t })
  | none => d

/-- ENV_SEGMENT_END (R234). -/
def execEnvSegmentEnd (v env : Nat) (s : State) : Host.Outcome State Fault Refusal := devNext s (envSegmentEndDev v env)

/-! ### Delivery at Fe (R226, R247) -/

/-- R of an additive destination: its scale in the field's units (R247, R257); 0 for the others. -/
def destScale (t : Nat) : Int :=
  if t = 1 ∨ t = 8 ∨ t = 15 ∨ t = 22 then 49152
  else if t = 2 ∨ t = 9 ∨ t = 16 ∨ t = 23 then 32768
  else if t = 24 then 6144
  else if t = 25 then 65536
  else if t = 26 ∨ t = 28 then 65535
  else if 29 ≤ t ∧ t ≤ 32 then 32768
  else if 53 ≤ t ∧ t ≤ 56 then 32768
  else if t ≤ 21 then 65536
  else 0

/-- Is a destination one that takes a factor or an exponent, S_d itself (R247)? -/
def destRaw (t : Nat) : Bool := decide (destScale t = 0)

/-- The contribution C of a destination at an evaluation point (R226, R247). -/
def contribOf (p : Pt) (t : Nat) : Int :=
  let s := at_ p.sums t 0
  if destRaw t then s
  else
    let c := rneDiv (s * destScale t) (2 ^ 23)
    if t = 1 ∨ t = 8 ∨ t = 15 ∨ t = 22 then clampInt (-98304) 98304 c else c

/-- A figure of the evaluation points interpolated at EF t: zero before s (R226). -/
def interpolated (va : VAud) (t : Nat) (f : Pt → Int) : Int :=
  match va.ptB with
  | none => 0
  | some b =>
    if efReached t b.ef then f b
    else match va.ptA with
      | none => 0
      | some a =>
        if efReached t a.ef then f a + rneDiv ((f b - f a) * (efSince t a.ef : Int)) (efSince b.ef a.ef) else 0

/-- C(t) of a destination (R226). -/
def contribAt (va : VAud) (t dest : Nat) : Int := interpolated va t (fun p => contribOf p dest)

/-- ENV0 at EF t (R227). -/
def env0At (va : VAud) (t : Nat) : Int := interpolated va t (fun p => at_ p.envs 0 0)

/-! ### Registers (R252 to R254) -/

/-- What CLU_MOD_PEEK of cluster c shows (R252, R253). -/
def modPeek (d : Dev) (c : Nat) : Word :=
  let a := cluReg c Reg.CLU_MOD_PEEK_SEL
  let kind := d.fld a 13 12
  let i := d.fld a 9 4
  let v := 16 * c + d.fld a 3 0
  if (d.voice v).state = .free then 0
  else
    match pointNow d v with
    | none => 0
    | some p =>
      BitVec.ofInt 32 (
        if kind = 0 then (if i < 4 then at_ p.envs i 0 else 0)
        else if kind = 1 then (if i < 4 then at_ p.lfos i 0 else 0)
        else if kind = 2 then (if i < 63 then contribOf p i else 0)
        else at_ p.sums i 0)

/-- ALC_GLFO_STAT (R254). -/
def glfoStat (d : Dev) : Word :=
  BitVec.ofNat 32 ((List.range 16).foldl (fun a g =>
    if (at_ d.aud.glfo g GLfo.reset).running then a + 2 ^ g else a) 0)

end Sys2Proof.Machine
end

