-- ==== Sys2Proof/Machine/Mix.lean ====
section
/-! DEFINITION. The mix engine: bus sums, gain and mute, cascade summing, meters, and the timing of writes to
the MIX, OUT and TDM registers (R342 to R346, R365, R366). -/

namespace Sys2Proof.Machine

open Sys2Proof

/-! ### Writes that take effect at release k + 2 (R342) -/

/-- The mix engine changed. -/
def Dev.modMix (d : Dev) (f : Mix → Mix) : Dev := { d with mix := f d.mix }

/-- A field of such a register, in force. -/
def Dev.effFld (d : Dev) (a hi lo : Nat) : Nat := (d.eff a).bits hi lo

/-- What such a register holds in force at release r, the writes due by then among them (R342). -/
def Dev.effAt (d : Dev) (r a : Nat) : Word :=
  (d.mix.effDue.filter (fun e => efReached r e.1 && e.2.1 == a)).foldl (fun _ e => e.2.2) (d.eff a)

/-- A bit that such a register holds as stored, or that a write which is not in force yet has still to clear (R342). -/
def Dev.heldBits (d : Dev) (a : Nat) : Word := d.reg a ||| d.eff a

/-- One bit of such a register, in force. -/
def Dev.effFlag (d : Dev) (a n : Nat) : Bool := (d.eff a).getLsbD n

/-- A write of such a register: it holds the value, which takes effect at release k + 2 (R342). -/
def mixPut (a : Nat) (v : Word) (d : Dev) : Dev :=
  (d.putReg a v).modMix (fun m => { m with effDue := m.effDue ++ [(efAdd d.now 2, a, v)] })

/-- W1C bits of such a register written 1: they clear at release k + 2 (R342). -/
def mixClear (a : Nat) (w : Word) (d : Dev) : Dev :=
  d.modMix (fun m => { m with clrDue := m.clrDue ++ [(efAdd d.now 2, a, w)] })

/-- Hardware sets a W1C bit of such a register; a clear that waits for a later release still comes (R9, R342). -/
def Dev.raise (d : Dev) (a n : Nat) : Dev := d.putFlag a n true

/-- An interrupt bit of such a register set; one whose domain is not ON stays as it is (R22). -/
def Dev.raiseIrq (d : Dev) (dom a n : Nat) : Dev := if d.isOn dom then d.raise a n else d

/-- The writes due at a release come into force, in the order they were made. -/
def effRelease (d : Dev) : Dev :=
  let due := d.mix.effDue.filter (fun e => efReached d.now e.1)
  let d := forEach (d.mix.clrDue.filter (fun e => efReached d.now e.1)) (fun e d => d.putReg e.2.1 (d.reg e.2.1 &&& ~~~e.2.2)) d
  d.modMix (fun m => { m with
    eff := due.foldl (fun l e => cellSet regReset l e.2.1 e.2.2) m.eff
    effDue := m.effDue.filter (fun e => !efReached d.now e.1)
    clrDue := m.clrDue.filter (fun e => !efReached d.now e.1) })

/-! ### Bus sums (R343, R59) -/

/-- Two rows of bus sums added. -/
def addRows (a b : List Int) : List Int := List.zipWith (· + ·) a b

/-- The release from which a cluster's held contribution fades: of a fade under way, or the present one when it
finds the frame two before it unfinished (R59). DEDUCED (log 34), unsafe. -/
def fadeFrom (d : Dev) (c : Nat) : Option Nat :=
  let x := d.clu c
  let k := efAdd d.now (efWrap - 2)
  if x.fadeAt.isNone && x.due.contains k && x.flushAt != some k then some d.now else x.fadeAt

/-- What a cluster contributes to the bus frame released now: its last delivered frame, or after a flush that
frame faded linearly to zero over 12 EF (R57, R59). DEDUCED (log 34), unsafe. -/
def contribution (d : Dev) (c : Nat) : List Int :=
  let x := d.clu c
  match fadeFrom d c with
  | none => x.contrib
  | some r =>
    let i := min (efSince d.now r) 11
    x.contrib.map (fun v => rneDiv (v * ((11 - i : Nat) : Int)) 12)

/-- The local sums A_n of the frame released now (R343). -/
def localSums (d : Dev) : List Int :=
  (List.range 16).foldl (fun a c => if d.active c then addRows a (contribution d c) else a) (List.replicate 64 0)

/-- D, the delay of the local sums (R345, R49). -/
def casDelay (d : Dev) : Nat := if d.inChain then d.chainLen - 1 - d.pos else 0

/-! ### Gain, mute and meters (R344, R346) -/

/-- METER_K as used (R366). -/
def meterK (v : Word) : Nat := min (max (v.bits 28 24) 4) 16

/-- The mute weight's next step (R344). -/
def muteStep (mute : Bool) (w : Nat) : Nat := if mute then w - 1 else min (w + 1) 64

/-- The averaged quantity of a meter (R346). -/
def meterTerm (sq : Bool) (y : Int) : Nat := if sq then y.natAbs * y.natAbs else y.natAbs

/-- The meter's value over a window of 2^K quantities, the older ones zero (R346). -/
def meterValue (sq : Bool) (k : Nat) (win : List Nat) : Nat :=
  (rneDiv (win.foldl (· + ·) 0 : Nat) (if sq then 2 ^ (k + 15) else 2 ^ k)).toNat

/-- One bus for the frame released now: weight, delivered value before saturation, meter and peak. -/
def busStep (freeze : Bool) (ctl : Word) (v : Int) (b : Bus) : Bus × Bool :=
  let w := muteStep (ctl.getLsbD 16) b.w
  let raw := rneDiv (v * (ctl.bits 15 0 : Int) * (w : Int)) (2 ^ 20)
  let y := satSigned 24 raw
  let sq := ctl.getLsbD 18
  let win := (meterTerm sq y :: b.win).take (2 ^ meterK ctl)
  ({ y := y, w := w, win := win, meter := if freeze then b.meter else meterValue sq (meterK ctl) win
     peak := if freeze then b.peak else max b.peak y.natAbs }, y != raw)

/-- A change of METER_K or METER_MODE in force clears the bus's window (R346). -/
def clearWindows (old new : Nat → Word) (bs : List Bus) : List Bus :=
  (List.range bs.length).map (fun n =>
    let b := at_ bs n Bus.reset
    let o := old (Reg.MIX_BUS n)
    let w := new (Reg.MIX_BUS n)
    if o.bits 28 24 = w.bits 28 24 ∧ o.getLsbD 18 = w.getLsbD 18 then b else { b with win := [] })

/-- C_n as summed: what the upstream device sent, scaled after a relock (R345, R543). -/
def casValue (d : Dev) (n : Nat) : Int := rneDiv (at_ d.mix.casIn n 0 * (d.cas.casW : Int)) 64

/-- The bus values and the cascade channels of the frame released now: V_n, and what channel n sends before
saturation (R345). -/
def busValues (d : Dev) (a delayed : List Int) : List (Int × Int) :=
  (List.range 64).map (fun n =>
    let c := casValue d n
    if d.effFlag (Reg.MIX_BUS n) 17 then (at_ delayed n 0 + c, at_ delayed n 0 + c) else (at_ a n 0, c))

/-- The count of true entries. -/
def countTrue (l : List Bool) : Nat := (l.filter id).length

/-- The bus frame released now (R343 to R346).  Only a worker sends cascade channels downstream (R345). -/
def mixRelease (d : Dev) : Dev :=
  let a := localSums d
  let sums := (a :: d.mix.sums).take 8
  let vs := busValues d a (at_ sums (casDelay d) (List.replicate 64 0))
  let freeze := d.effFlag Reg.MIX_CTL 0
  let steps := (List.range 64).map (fun n =>
    busStep freeze (d.eff (Reg.MIX_BUS n)) (at_ vs n (0, 0)).1 (at_ d.mix.buses n Bus.reset))
  let ys := steps.map (fun p => p.1.y)
  let sent := vs.map (fun p => satSigned 24 p.2)
  let sat := countTrue (steps.map (fun p => p.2))
  let casSat := if !d.isWorker then 0 else countTrue ((List.range 64).map (fun n => at_ sent n 0 != (at_ vs n (0, 0)).2))
  let d := d.modMix (fun m => { m with
    buses := steps.map (fun p => p.1), sums := sums, casOut := sent, yHist := (ys :: m.yHist).take 512 })
  let d := if sat = 0 then d else (d.bumpBy Reg.MIX_CNT_SAT sat).raiseIrq Dom.mix Reg.MIX_IRQ_STAT 0
  if casSat = 0 then d else (d.bumpBy Reg.MIX_CNT_CAS_SAT casSat).raiseIrq Dom.mix Reg.MIX_IRQ_STAT 1

/-- The delivered value of a bus for the frame released now. -/
def Dev.busY (d : Dev) (n : Nat) : Int := (at_ d.mix.buses n Bus.reset).y

/-- After MIX wakes, each weight starts at its settled value (R344). -/
def mixWake (d : Dev) : Dev :=
  { d with mix := { Mix.reset with
      eff := d.mix.eff
      buses := (List.range 64).map (fun n => { Bus.reset with w := if d.flag (Reg.MIX_BUS n) 16 then 0 else 64 }) } }

end Sys2Proof.Machine
end

