-- ==== Sys2Proof/Machine/Out.lean ====
section
/-! DEFINITION. Output channels: DAC input, ramps, range changes, supervision and faults, and the waveform
players (R347 to R355, R367 to R369). -/

namespace Sys2Proof.Machine

open Sys2Proof

/-! ### Channels -/

namespace OutState
/-- R349. -/
abbrev parked : Nat := 0
/-- R349. -/
abbrev rampUp : Nat := 1
/-- R349. -/
abbrev on : Nat := 2
/-- R349. -/
abbrev rampDown : Nat := 3
/-- R349. -/
abbrev rangePark : Nat := 4
/-- R349. -/
abbrev faultRamp : Nat := 5
/-- R349. -/
abbrev faultPark : Nat := 6
/-- R349. -/
abbrev holdPark : Nat := 7
end OutState

/-- Channel i. -/
def Dev.outCh (d : Dev) (i : Nat) : OutCh := at_ d.outs i OutCh.reset

/-- Channel i changed. -/
def Dev.modOutCh (d : Dev) (i : Nat) (f : OutCh → OutCh) : Dev := { d with outs := upd d.outs i f }

/-- The domain of channel i. -/
def outDom (i : Nat) : Nat := Dom.out (i / 8)

/-- Is channel i's group ON? -/
def Dev.outOn (d : Dev) (i : Nat) : Bool := decide (i < 32) && d.isOn (outDom i)

/-- The bits of OUT_EN, OUT_RANGE, OUT_RETRY and OUT_FAULT whose groups are ON; the others read as zero and
ignore writes (R22). -/
def groupMask (d : Dev) : Word :=
  BitVec.ofNat 32 ((List.range 4).foldl (fun a g => if d.isOn (Dom.out g) then a + 255 * 2 ^ (8 * g) else a) 0)

/-- Both legs at high impedance (R349). -/
def OutCh.isParked (x : OutCh) : Bool := [0, 4, 6, 7].contains x.state

/-- The state entered in the present EF. -/
def OutCh.enter (st now : Nat) (x : OutCh) : OutCh := { x with state := st, since := now }

/-- A ramp's next weight, with the EF in which it reaches its end. -/
def OutCh.ramp (up : Bool) (now : Nat) (x : OutCh) : OutCh :=
  if up then { x with w := min (x.w + 1) 64 }
  else if x.w = 1 then { x with w := 0, since := now }
  else { x with w := x.w - 1 }

/-- Is supervision running (R351)? -/
def OutCh.supervised (x : OutCh) : Bool := [1, 2, 3].contains x.state

/-- A channel in PARKED, FAULT_PARK or HOLD_PARK takes its range bit at once, whether the engine runs or not (R350). -/
def OutCh.takeRange (bit : Bool) (x : OutCh) : OutCh :=
  if x.state = 0 ∨ x.state = 6 ∨ x.state = 7 then { x with range := bit } else x

/-- A channel at a release while the engine runs: its enable and range bits as in force (R349 to R352). -/
def outStep (en bit : Bool) (now : Nat) (x : OutCh) : OutCh :=
  let x := x.takeRange bit
  let up (y : OutCh) : OutCh := (y.enter OutState.rampUp now).ramp true now
  let down (toRange : Bool) (y : OutCh) : OutCh :=
    (({ y with toRange := toRange }).enter OutState.rampDown now).ramp false now
  if x.faultAt.isSome then
    (({ x with faultAt := none }).enter OutState.faultRamp now).ramp false now
  else if x.state = OutState.parked then (if en then up x else x)
  else if x.state = OutState.rampUp then (if en then x.ramp true now else down false x)
  else if x.state = OutState.on then
    (if !en then down false x else if bit != x.range then down true x else x)
  else if x.state = OutState.rampDown then
    if !en then x.ramp false now
    else if bit = x.range then up x
    else if x.toRange then x.ramp false now
    else up x
  else if x.state = OutState.faultRamp then x.ramp false now
  else if x.state = OutState.faultPark then
    match x.clearAt with
    | some r => if efReached now r then (if en then up { x with clearAt := none } else { x with clearAt := none }) else x
    | none => x
  else x

/-- Every channel PARKED at once, without a ramp (R39, R44, R349).  The pins follow 4 EF later (R350); at a reference loss,
after which no release comes, they park with it. DEDUCED (log 17), unsafe. -/
def parkOutputs (pins : Bool) (d : Dev) : Dev :=
  { d with outs := d.outs.map (fun x =>
      let x := { x with state := OutState.parked, w := 0, since := d.now, faultAt := none, clearAt := none }
      if pins then { x with pin := (true, x.range, 0), way := x.way.map (fun p => (true, p.2.1, 0)) } else x) }

/-- The engine runs again: channels enabled at release `start` wait in HOLD_PARK from it (R40, R44, R342, R349). -/
def holdOutputs (start : Nat) (d : Dev) : Dev :=
  { d with outs := (List.range d.outs.length).map (fun i =>
      let x := d.outCh i
      if (d.effAt start Reg.OUT_EN).getLsbD i ∧ d.outOn i then { x with state := OutState.holdPark, w := 0, since := start } else x) }

/-! ### Players (R353, R354) -/

/-- Channel i's player changed. -/
def Dev.modPlayer (d : Dev) (i : Nat) (f : Player → Player) : Dev := d.modOutCh i (fun x => { x with player := f x.player })

/-- LENGTH of an OUT_PLAY_LVL value (R369). -/
def playLen (lvl : Word) : Nat := countOf (lvl.bits 15 0) 32768

/-- Bytes of a sample (R353). -/
def playBytes (cfg : Word) : Nat := if cfg.getLsbD 15 then 3 else 2

/-- The check of a start (R354). -/
def playOk (cfg lvl : Word) : Bool :=
  (cfg.getLsbD 15 || cfg.bits 31 16 % 2 == 0) && decide (cfg.bits 31 16 + playLen lvl * playBytes cfg ≤ 65536)

/-- Sample s of channel i's waveform, Q1.23 (R188, R353). DESIGN CHOICE (log 17), unsafe. -/
def playSample (d : Dev) (i : Nat) (cfg : Word) (s : Nat) : Int :=
  let a := cfg.bits 31 16 + s * playBytes cfg
  let b (k : Nat) : Nat := (d.ow8 (i / 8) ((a + k) % 65536)).toNat
  if cfg.getLsbD 15 then signed 24 (b 0 + 256 * b 1 + 65536 * b 2) else 256 * signed 16 (b 0 + 256 * b 1)

/-- A start of EF k on its way to release k + 2; a stop of the same EF prevails (R354). -/
def playStart (i k : Nat) (d : Dev) : Dev :=
  let r := efAdd k 2
  if playOk (d.reg (Reg.OUT_PLAY_CFG i)) (d.reg (Reg.OUT_PLAY_LVL i)) then
    d.modPlayer i (fun p =>
      if p.acts.contains (r, false) || p.acts.contains (r, true) then p else { p with acts := p.acts ++ [(r, true)] })
  else d.raiseIrq (outDom i) Reg.OUT_IRQ_STAT 2

/-- A stop on its way to release k + 2; a start of the same EF is not made (R354). -/
def playStop (i : Nat) (d : Dev) : Dev :=
  let r := efAdd d.now 2
  d.modPlayer i (fun p => { p with acts := p.acts.filter (fun a => a.1 != r) ++ [(r, false)] })

/-- OUT_PLAY_CFGi written: its RW fields, a TRIG of 17 to 31 stored as 0, then STOP and GO (R354, R369). -/
def playCfgWrite (i : Nat) (v : Word) (d : Dev) : Dev :=
  if !d.outOn i then d
  else
    let rw := v &&& 0xFFFFEFF8
    let rw := if 16 < v.bits 7 3 then rw.setBits 7 3 0 else rw
    let d := mixPut (Reg.OUT_PLAY_CFG i) rw d
    let d := if v.getLsbD 2 then playStop i d else d
    if v.getLsbD 1 then playStart i d.now d else d

/-- OUT_PLAY_LVLi written: a LENGTH above 32,768 rejects the write (R18, R354, R369). -/
def playLvlWrite (i : Nat) (v : Word) (d : Dev) : Dev :=
  if !d.outOn i then d
  else if 32768 < v.bits 15 0 then (d.raise Reg.MIX_CTL 31).cntRej
  else mixPut (Reg.OUT_PLAY_LVL i) (v.setBits 31 16 (min (v.bits 31 16) 0x8000)) d

/-- PLAYER_GO: a write of OUT_PLAY_CFGi with GO (R354). -/
def playerGoDev (i : Nat) (v : Word) (d : Dev) : Dev := if v.getLsbD 1 then playCfgWrite i v d else d

/-- PLAYER_GO (R354). -/
def execPlayerGo (i : Nat) (value : Word) (s : State) : Host.Outcome State Fault Refusal := hostNext s (playerGoDev i value)

/-- PLAYER_STOP: a write of OUT_PLAY_CFGi with STOP (R354). -/
def playerStopDev (i : Nat) (v : Word) (d : Dev) : Dev := if v.getLsbD 2 then playCfgWrite i v d else d

/-- PLAYER_STOP (R354). -/
def execPlayerStop (i : Nat) (value : Word) (s : State) : Host.Outcome State Fault Refusal := hostNext s (playerStopDev i value)

/-- A compare event of chronograph c's channel 0 reaches the players that it triggers (R354). -/
def playTriggers (c : Nat) (d : Dev) : Dev :=
  { d with outs := (List.range d.outs.length).map (fun i =>
      let x := d.outCh i
      if d.outOn i && d.effFld (Reg.OUT_PLAY_CFG i) 7 3 == c + 1 then
        { x with player := { x.player with trig := x.player.trig ++ [d.now] } }
      else x) }

/-- PLAYER_TRIGGER: the oldest compare event that names the player starts it, with that event's EF as k (R354). -/
def playerTriggerDev (i : Nat) (d : Dev) : Dev :=
  match (d.outCh i).player.trig with
  | [] => d
  | k :: r => if d.outOn i then playStart i k (d.modPlayer i (fun p => { p with trig := r })) else d

/-- PLAYER_TRIGGER (R354). -/
def execPlayerTrigger (i : Nat) (s : State) : Host.Outcome State Fault Refusal := devNext s (playerTriggerDev i)

/-- PLAYER_END: a one-shot player that has played its samples clears BUSY; the last sample is held (R354). -/
def playerEndDev (i : Nat) (d : Dev) : Dev :=
  let p := (d.outCh i).player
  if d.outOn i && p.busy && p.done then
    d.modPlayer i (fun p => { p with busy := false })
  else d

/-- PLAYER_END (R354). -/
def execPlayerEnd (i : Nat) (s : State) : Host.Outcome State Fault Refusal := devNext s (playerEndDev i)

/-- The player's place in EF `now`: starts and stops that are due, else one EF further (R353, R354). -/
def playAdvance (now len rate : Nat) (loop : Bool) (p : Player) : Player :=
  let due := p.acts.filter (fun a => efReached now a.1)
  let p := { p with acts := p.acts.filter (fun a => !efReached now a.1) }
  match due.getLast? with
  | some (_, true) => { p with everRun := true, busy := true, done := false, s := 0, j := 0 }
  | some (_, false) => { p with everRun := false, busy := false, done := false, s := 0, j := 0 }
  | none =>
    if !p.everRun || p.done then p
    else if p.j + 1 < 2 ^ rate then { p with j := p.j + 1 }
    else if p.s + 1 < len then { p with s := p.s + 1, j := 0 }
    else if loop then { p with s := 0, j := 0 }
    else { p with done := true }

/-- The player's output q at its place; a one-shot play that has ended holds its last sample (R353, R354). -/
def playOut (d : Dev) (i : Nat) (p : Player) : Int :=
  let cfg := d.eff (Reg.OUT_PLAY_CFG i)
  let len := playLen (d.eff (Reg.OUT_PLAY_LVL i))
  if !p.everRun then 0
  else if p.done then playSample d i cfg (len - 1)
  else
    let x := playSample d i cfg (min p.s (len - 1))
    if !cfg.getLsbD 13 then x
    else
      let nx := if p.s + 1 < len then playSample d i cfg (p.s + 1)
        else if cfg.getLsbD 14 then playSample d i cfg 0 else x
      x + rneDiv ((nx - x) * (p.j : Int)) (2 ^ cfg.bits 11 8)

/-- The player of channel i at a release. -/
def playRelease (i : Nat) (d : Dev) : Dev :=
  let cfg := d.eff (Reg.OUT_PLAY_CFG i)
  let p := playAdvance d.now (playLen (d.eff (Reg.OUT_PLAY_LVL i))) (cfg.bits 11 8) (cfg.getLsbD 14) (d.outCh i).player
  d.modPlayer i (fun _ => { p with q := playOut d i p })

/-! ### DAC inputs and the pins (R347, R349) -/

/-- The DAC input of channel i before saturation (R347). -/
def dacInput (d : Dev) (i : Nat) : Int :=
  let ch := d.eff (Reg.OUT_CH i)
  let b : Int := if ch.getLsbD 15 then rneDiv (d.busY (ch.bits 5 0) * (ch.bits 31 16 : Int)) (2 ^ 15) else 0
  let q := rneDiv ((d.outCh i).player.q * ((d.eff (Reg.OUT_PLAY_LVL i)).bits 31 16 : Int)) (2 ^ 15)
  b + q + signed 24 (d.effFld (Reg.OUT_OFS i) 23 0)

/-- What an EF sends towards the pins: parked or not, the range, and z' (R347, R348). -/
def OutCh.toPin (x : OutCh) : Bool × Bool × Int := (x.isParked, x.range, rneDiv (x.z * (x.w : Int)) 64)

/-- The pins take what the DAC input had 4 EF ago (R347, R349). DESIGN CHOICE (log 9), safe.
DESIGN CHOICE (log 17), unsafe. -/
def pinRelease (x : OutCh) : OutCh :=
  let way := x.way ++ [x.toPin]
  if way.length < 4 then { x with way := way }
  else { x with way := way.drop (way.length - 3), pin := way.getD (way.length - 4) (true, x.range, 0) }

/-- What the legs of channel i show: parked, range and z'; while the group's pads are latched they are parked (R481). -/
def outPin (d : Dev) (i : Nat) : Bool × Bool × Int :=
  let x := d.outCh i
  if (d.dom (Dom.out (i / 8))).latched then (true, x.pin.2.1, x.pin.2.2) else x.pin

/-- What the legs OUTiP and OUTiN source, in µA × 2^23: I_CM ± z' × I_FS / 2, with I_FS 2 mA and I_CM 1.25 mA in LOW, 8 mA
and 5 mA in HIGH; none at high impedance, and none without VDDA_OUT, whose monitor then reads 0 (R348, R349, R561).
DESIGN CHOICE (log 17), unsafe. -/
def outLegs (d : Dev) (i : Nat) : Option (Int × Int) :=
  let p := outPin d i
  let cm : Int := 2 ^ 23 * (if p.2.1 then 5000 else 1250)
  let dif : Int := p.2.2 * (if p.2.1 then 4000 else 1000)
  if p.1 ∨ at_ d.mgt.supplies 3 0 = 0 then none else some (cm + dif, cm - dif)

/-- Does a measured leg meet the condition of a fault kind at V_A (R351)? -/
def legMeets (va mv : Nat) : LegFault → Bool
  | .openLeg => decide (va < mv + 300)
  | .high => decide (va < mv + 900 ∧ mv + 300 ≤ va)
  | .low => decide (mv < 800)

/-- FKIND's code (R351). -/
def legCode : LegFault → Nat
  | .openLeg => 1
  | .high => 2
  | .low => 3

/-- The FKIND code of the condition a measured leg meets, 0 for none: OPEN before HIGH (R351). -/
def legKind (va mv : Nat) : Nat :=
  if legMeets va mv .openLeg then 1 else if legMeets va mv .high then 2 else if legMeets va mv .low then 3 else 0

/-- A leg's run after one more measurement: longer if it meets the same condition, else afresh (R351). -/
def legRun (va mv : Nat) (run : Nat × Nat) : Nat × Nat :=
  let k := legKind va mv
  if k = 0 then (0, 0) else if k = run.1 then (k, run.2 + 1) else (k, 1)

/-- The measurements of an EF: VP and VN show them, and the legs' runs count them while supervision runs (R351, R368).  A leg
that has raised the EF's fault already keeps what it measured then. -/
def senseStep (va p n : Nat) (x : OutCh) : OutCh :=
  { x with
    vp := if x.faultAt.isSome && !x.faultN then x.vp else p / 8
    vn := if x.faultAt.isSome && x.faultN then x.vn else n / 8
    runP := if x.supervised then legRun va p x.runP else (0, 0)
    runN := if x.supervised then legRun va n x.runN else (0, 0) }

/-- A fault of a leg is raised: the channel is marked for its fault ramp, and the fault is flagged, counted and logged
(R351). -/
def raiseFault (i : Nat) (legN : Bool) (kind mv : Nat) (d : Dev) : Dev :=
  let v := min (mv / 8) 511
  let d := d.modOutCh i (fun x =>
    { x with faultAt := some d.now, faultN := legN, fkind := kind, vp := if legN then x.vp else v, vn := if legN then v else x.vn })
  let d := (d.raise Reg.OUT_FAULT i).raiseIrq (outDom i) Reg.OUT_IRQ_STAT 0
  ((d.bump Reg.OUT_CNT_FAULT).emit 24 1).logEv 0x06 0x01 2 [i, kind]

/-- The EF ends for channel i: what its legs measured in it, free values, is judged by the V_A latched at its release, and
a fourth measurement in a row raises the fault, the P leg's first (R351). DESIGN CHOICE (log 9), safe. -/
def outSense (i : Nat) (d : Dev) : Dev :=
  if !d.outOn i then d
  else
    let f := d.fresh
    let p := Config.free f % 4096
    let n := Config.free (f + 1) % 4096
    let d := { (d.modOutCh i (senseStep d.mix.va p n)) with fresh := f + 2 }
    let x := d.outCh i
    if x.faultAt.isSome then d
    else if 4 ≤ x.runP.2 then raiseFault i false x.runP.1 p d
    else if 4 ≤ x.runN.2 then raiseFault i true x.runN.1 n d
    else d

/-- Channel i at a release at which the engine runs; a channel that parks or ramps for a fault counts from nothing
(R351). -/
def outRelease (i : Nat) (d : Dev) : Dev :=
  if !d.outOn i then d
  else
    let d := d.modOutCh i (fun x =>
      let x := outStep (d.effFlag Reg.OUT_EN i) (d.effFlag Reg.OUT_RANGE i) d.now x
      if x.supervised then x else { x with runP := (0, 0), runN := (0, 0) })
    let d := playRelease i d
    let raw := dacInput d i
    let z := satSigned 24 raw
    let d := d.modOutCh i (fun x => { x with z := z })
    if z = raw then d else (d.bump Reg.OUT_CNT_SAT).raiseIrq (outDom i) Reg.OUT_IRQ_STAT 1

/-- Every channel at a release. -/
def outsRelease (d : Dev) : Dev :=
  forUpTo 32 outRelease d

/-! ### Writes of OUT_EN, OUT_RANGE and OUT_FAULT -/

/-- A write of one of the registers that hold one bit per channel. DESIGN CHOICE (log 17), unsafe. -/
def outBitsWrite (a : Nat) (v : Word) (d : Dev) : Dev := mixPut a (Word.merge (d.reg a) v (groupMask d)) d

/-- OUTPUT_ENABLE: a write of OUT_EN that sets a bit; the channel starts its ramp up at release k + 2 (R349). -/
def outputEnableDev (v : Word) (d : Dev) : Dev :=
  if v &&& ~~~d.reg Reg.OUT_EN &&& groupMask d = 0 then d else outBitsWrite Reg.OUT_EN v d

/-- OUTPUT_ENABLE (R349). -/
def execOutputEnable (value : Word) (s : State) : Host.Outcome State Fault Refusal := hostNext s (outputEnableDev value)

/-- OUTPUT_DISABLE: a write of OUT_EN that clears a bit; the channel starts its ramp down at release k + 2
(R349). -/
def outputDisableDev (v : Word) (d : Dev) : Dev :=
  if ~~~v &&& d.reg Reg.OUT_EN &&& groupMask d = 0 then d else outBitsWrite Reg.OUT_EN v d

/-- OUTPUT_DISABLE (R349). -/
def execOutputDisable (value : Word) (s : State) : Host.Outcome State Fault Refusal := hostNext s (outputDisableDev value)

/-- RANGE_CHANGE: a write of OUT_RANGE (R350). -/
def rangeChangeDev (v : Word) (d : Dev) : Dev := outBitsWrite Reg.OUT_RANGE v d

/-- RANGE_CHANGE (R350). -/
def execRangeChange (value : Word) (s : State) : Host.Outcome State Fault Refusal := hostNext s (rangeChangeDev value)

/-- OUT_FAULT_CLEAR: at release k + 2 the flags written 1 clear, and a channel in FAULT_PARK that is enabled starts its
ramp up (R342, R349, R352). -/
def outFaultClearDev (v : Word) (d : Dev) : Dev :=
  let hit := v &&& groupMask d
  let d := mixClear Reg.OUT_FAULT hit d
  forUpTo 32 (fun i d =>
    if hit.getLsbD i && (d.outCh i).state == OutState.faultPark && d.flag Reg.OUT_EN i then
      d.modOutCh i (fun x => { x with clearAt := some (efAdd d.now 2) })
    else d) d

/-- OUT_FAULT_CLEAR (R352). -/
def execOutFaultClear (value : Word) (s : State) : Host.Outcome State Fault Refusal := hostNext s (outFaultClearDev value)

/-! ### Ends of ramps and parks (R349, R350, R352) -/

/-- RAMP_UP_DONE: w has reached 64; the channel is ON (R349). -/
def rampUpDoneDev (i : Nat) (d : Dev) : Dev :=
  let x := d.outCh i
  if d.outOn i && x.state == OutState.rampUp && x.w == 64 then d.modOutCh i (OutCh.enter OutState.on d.now) else d

/-- RAMP_UP_DONE (R349). -/
def execRampUpDone (i : Nat) (s : State) : Host.Outcome State Fault Refusal := devNext s (rampUpDoneDev i)

/-- RAMP_DOWN_DONE: an EF after w has reached 0 the channel parks, or switches its range in RANGE_PARK
(R349, R350). -/
def rampDownDoneDev (i : Nat) (d : Dev) : Dev :=
  let x := d.outCh i
  if d.outOn i && x.state == OutState.rampDown && x.w == 0 && x.since != d.now && x.faultAt.isNone then
    d.modOutCh i (fun x =>
      if d.effFlag Reg.OUT_EN i then { (x.enter OutState.rangePark d.now) with range := d.effFlag Reg.OUT_RANGE i }
      else x.enter OutState.parked d.now)
  else d

/-- RAMP_DOWN_DONE (R349). -/
def execRampDownDone (i : Nat) (s : State) : Host.Outcome State Fault Refusal := devNext s (rampDownDoneDev i)

/-- A ramp up that begins in the present EF; a clear of the fault that is still to come starts no second one (R352). -/
def OutCh.startUp (now : Nat) (x : OutCh) : OutCh := ({ x with clearAt := none }.enter OutState.rampUp now).ramp true now

/-- RANGE_PARK_END: after exactly 1 EF the ramp up begins (R349, R350). -/
def rangeParkEndDev (i : Nat) (d : Dev) : Dev :=
  let x := d.outCh i
  if d.outOn i && x.state == OutState.rangePark && x.since != d.now then d.modOutCh i (OutCh.startUp d.now) else d

/-- RANGE_PARK_END (R349). -/
def execRangeParkEnd (i : Nat) (s : State) : Host.Outcome State Fault Refusal := devNext s (rangeParkEndDev i)

/-- HOLD_PARK_END: after 64 EF the ramp up begins; a channel no longer enabled is PARKED (R40, R349).
DESIGN CHOICE (log 17), unsafe. -/
def holdParkEndDev (i : Nat) (d : Dev) : Dev :=
  let x := d.outCh i
  if d.outOn i && x.state == OutState.holdPark && efReached d.now (efAdd x.since 64) then
    d.modOutCh i (if d.effFlag Reg.OUT_EN i then OutCh.startUp d.now else OutCh.enter OutState.parked d.now)
  else d

/-- HOLD_PARK_END (R349). -/
def execHoldParkEnd (i : Nat) (s : State) : Host.Outcome State Fault Refusal := devNext s (holdParkEndDev i)

/-- OUTPUT_FAULT: a leg whose measurements met a condition in the three EF before measures it again, and the fault is raised
(R351); `outSense` raises the one that no such command has raised by the EF's end.  The converter measures the P leg
first, so its fault is the one reported. DEDUCED (log 17), unsafe. -/
def outputFaultDev (i : Nat) (legN : Bool) (kind : LegFault) (mv : Nat) (d : Dev) : Dev :=
  let x := d.outCh i
  let run := if legN then x.runN else x.runP
  if !(d.outOn i && x.supervised && x.faultAt.isNone && legKind d.mix.va mv == legCode kind && run.1 == legCode kind &&
      decide (3 ≤ run.2)) then d
  else raiseFault i legN (legCode kind) mv d

/-- OUTPUT_FAULT (R351). -/
def execOutputFault (i : Nat) (legN : Bool) (kind : LegFault) (mv : Nat) (s : State) : Host.Outcome State Fault Refusal :=
  devNext s (outputFaultDev i legN kind mv)

/-- FAULT_RAMP_DONE: an EF after the fault ramp has reached zero the channel enters FAULT_PARK (R349). -/
def faultRampDoneDev (i : Nat) (d : Dev) : Dev :=
  let x := d.outCh i
  if d.outOn i && x.state == OutState.faultRamp && x.w == 0 && x.since != d.now then
    d.modOutCh i (OutCh.enter OutState.faultPark d.now)
  else d

/-- FAULT_RAMP_DONE (R349). -/
def execFaultRampDone (i : Nat) (s : State) : Host.Outcome State Fault Refusal := devNext s (faultRampDoneDev i)

/-- FAULT_RETRY: 65,536 EF after FAULT_PARK a channel set to retry and still enabled ramps up (R352). -/
def faultRetryDev (i : Nat) (d : Dev) : Dev :=
  let x := d.outCh i
  if d.outOn i && x.state == OutState.faultPark && efReached d.now (efAdd x.since 65536) && d.effFlag Reg.OUT_RETRY i
      && d.effFlag Reg.OUT_EN i then
    (d.modOutCh i (OutCh.startUp d.now)).bump Reg.OUT_CNT_RETRY
  else d

/-- FAULT_RETRY (R352). -/
def execFaultRetry (i : Nat) (s : State) : Host.Outcome State Fault Refusal := devNext s (faultRetryDev i)

/-- Does a channel of group g ramp (R355)? -/
def groupRamps (d : Dev) (g : Nat) : Bool :=
  (List.range 8).any (fun k => [1, 3, 5].contains (d.outCh (8 * g + k)).state)

/-- OUT_STATi (R368). -/
def outStat (d : Dev) (i : Nat) : Word :=
  let x := d.outCh i
  BitVec.ofNat 32 (x.vp * 2 ^ 23 + x.vn * 2 ^ 14 + (if x.range then 2 ^ 12 else 0) + x.fkind * 2 ^ 10 + x.state * 2 ^ 7 + x.w)

/-- The channels of a woken group are PARKED and its players stopped (R355). -/
def outWake (g : Nat) (d : Dev) : Dev :=
  forUpTo 8 (fun k d => d.modOutCh (8 * g + k) (fun _ => OutCh.reset)) d

end Sys2Proof.Machine
end

