-- ==== Sys2Proof/Machine/Chrono.lean ====
section
/-! DEFINITION. Chronographs, CHR_IN and CHR_OUT pins, captures, and the event bus with the event counters
(R446 to R469).  A command stands for its effect edge (R447). -/

namespace Sys2Proof.Machine

open Sys2Proof

/-- Both blocks run: CTRL is ON and REFCLK is present (R446, R461). -/
def Dev.chrRuns (d : Dev) : Bool := d.isOn Dom.ctrl && d.frame.refValid

/-- A write of a CHR or EVC register: at its effect edge at once, or, while REFCLK is lost, at the edge at which REF_VALID
sets again (R446, R447). -/
def atEdge (a : Nat) (v : Word) (f : Dev → Dev) (d : Dev) : Dev :=
  if d.isOn Dom.ctrl && !d.frame.refValid then { d with cnt := { d.cnt with wait := d.cnt.wait ++ [(a, v)] } } else f d

/-- Chronograph c. -/
def Dev.chr (d : Dev) (c : Nat) : Chrono := at_ d.cnt.chr c Chrono.reset

/-- Chronograph c changed. -/
def Dev.modChr (d : Dev) (c : Nat) (f : Chrono → Chrono) : Dev :=
  { d with cnt := { d.cnt with chr := upd d.cnt.chr c f } }

/-- CHR_OUT pin k. -/
def Dev.chrOut (d : Dev) (k : Nat) : ChrOut := at_ d.cnt.outs k ChrOut.reset

/-- CHR_OUT pin k changed. -/
def Dev.modOut (d : Dev) (k : Nat) (f : ChrOut → ChrOut) : Dev :=
  { d with cnt := { d.cnt with outs := upd d.cnt.outs k f } }

/-! ### REFCLK edges (R446) -/

/-- Does anything watch the REFCLK period, source code 3 of the event bus (R448)? -/
def watchesRefclk (d : Dev) : Bool :=
  (List.range 32).any (fun n => d.flag (Reg.EVC_CFG n) 7 && d.fld (Reg.EVC_CFG n) 6 0 == 3) ||
  (List.range 16).any (fun c => (d.fld (Reg.CHR_CTL c) 3 1 == 6 && d.fld (Reg.CHR_CTL c) 10 4 == 3) ||
    (List.range 2).any (fun n => d.fld (Reg.CHR_CAPCTL c) (16 * n + 14) (16 * n + 13) == 2 &&
      d.fld (Reg.CHR_CAPCTL c) (16 * n + 6) (16 * n) == 3)) ||
  d.fld Reg.EVC_GLB 14 8 == 3 || d.fld Reg.EVC_GLB 22 16 == 3

/-- The present edge moved on; each edge passed is an occurrence of the REFCLK period where something watches it (R446,
R448). -/
def edgeTo (x : Nat) (d : Dev) : Dev :=
  let e := d.cnt.edge
  { d with cnt := { d.cnt with
      edge := max e x
      bus := if watchesRefclk d then d.cnt.bus ++ (List.range (x - e)).map (fun i => (e + 1 + i, 3, 1)) else d.cnt.bus } }

/-- Has edge x come, or does it come before the next release?  A command that stands for an edge is that edge.
DESIGN CHOICE (log 1), safe. -/
def edgeNear (d : Dev) (x : Nat) : Bool := decide (x < (d.cnt.edge / 64 + 1) * 64)

/-- A release is the first edge of its EF (R446). -/
def edgeRelease (d : Dev) : Dev := edgeTo ((d.cnt.edge / 64 + 1) * 64) d

/-- With no command waiting, one REFCLK period passes, up to the last edge before the next release.
DESIGN CHOICE (log 1), safe. -/
def edgeTick (d : Dev) : Dev := if d.chrRuns && edgeNear d (d.cnt.edge + 1) then edgeTo (d.cnt.edge + 1) d else d

/-! ### CHR_OUT (R459, R460) -/

/-- CHR_OUTCTLk.MODE; 110b and 111b read as LOW (R459). -/
def outMode (d : Dev) (k : Nat) : Nat :=
  let m := d.fld (Reg.CHR_OUTCTL k) 2 0
  if m ≤ 5 then m else 0

/-- The level a pin's mode gives now, before inversion. -/
def outLevel (d : Dev) (k : Nat) : Bool :=
  let m := outMode d k
  if m = 0 then false
  else if m = 1 then d.flag (Reg.CHR_OUTCTL k) 6
  else (d.chrOut k).mode

/-- A level put among those on their way, by the edge at which it reaches the pin (R460). -/
def wayPut (x : Nat) (l : Bool) (way : List (Nat × Bool)) : List (Nat × Bool) :=
  way.filter (fun p => decide (p.1 ≤ x)) ++ (x, l) :: way.filter (fun p => decide (x < p.1))

/-- The level a pin's cause gives it after inversion; every pin is low until its MODE is first other than LOW (R459,
R460). -/
def outGives (d : Dev) (k : Nat) (woken : Bool) : Bool := woken && (outLevel d k ^^ d.flag (Reg.CHR_OUTCTL k) 7)

/-- A pin's cause applied: a changed level starts on its way to the pin, which it reaches 2 + 64 × DLY periods later
(R460). DESIGN CHOICE (log 23), unsafe. -/
def outDrive (k : Nat) (d : Dev) : Dev :=
  let woken := (d.chrOut k).woken || outMode d k != 0
  let lv := outGives d k woken
  let x := d.cnt.edge + 2 + 64 * d.fld (Reg.CHR_OUTCTL k) 15 12
  d.modOut k (fun o =>
    if lv = o.last then { o with woken := woken }
    else { o with woken := woken, last := lv, way := wayPut x lv o.way })

/-- The events of one edge of a chronograph: CMP0, CMP1 and WRAP. -/
structure ChrEvents where
  cmp0 : Bool
  cmp1 : Bool
  wrap : Bool
  deriving DecidableEq, Repr

/-- What the events of chronograph c do to pin k; a match in PULSE mode starts the width of PW periods anew (R459,
R468). -/
def outEvents (c : Nat) (e : ChrEvents) (k : Nat) (d : Dev) : Dev :=
  if d.fld (Reg.CHR_OUTCTL k) 11 8 ≠ c then d
  else
    let m := outMode d k
    let ends := d.cnt.edge + countOf (d.fld (Reg.CHR_OUTCTL k) 31 16) 65536
    let d1 := d.modOut k (fun o =>
      if m = 2 then { o with mode := if e.cmp0 then !o.mode else o.mode }
      else if m = 3 then { o with mode := if e.cmp1 then false else if e.cmp0 then true else o.mode }
      else if m = 4 then { o with mode := if e.cmp0 then true else o.mode, pulse := if e.cmp0 then some ends else o.pulse }
      else if m = 5 then { o with mode := if e.wrap then !o.mode else o.mode }
      else o)
    outDrive k d1

/-- CHR_OUT_CHANGE: the first change on its way reaches the pin, at its own edge (R460). -/
def chrOutChangeDev (k : Nat) (d : Dev) : Dev :=
  match (d.chrOut k).way with
  | [] => d
  | (x, l) :: r =>
    if d.chrRuns && edgeNear d x then edgeTo x (d.modOut k (fun o => { o with way := r, pin := l })) else d

/-- CHR_OUT_CHANGE (R460). -/
def execChrOutChange (k : Nat) (s : State) : Host.Outcome State Fault Refusal := devNext s (chrOutChangeDev k)

/-- PULSE_END: a PULSE output ends PW REFCLK periods after its last match (R459). -/
def pulseEndDev (k : Nat) (d : Dev) : Dev :=
  match (d.chrOut k).pulse with
  | none => d
  | some x =>
    if d.chrRuns && edgeNear d x then
      outDrive k (edgeTo x (d.modOut k (fun o => { o with pulse := none, mode := false })))
    else d

/-- PULSE_END (R459). -/
def execPulseEnd (k : Nat) (s : State) : Host.Outcome State Fault Refusal := devNext s (pulseEndDev k)

/-- The level at pin k: what R461 holds while CTRL has left ON, else what has reached it. -/
def chrOutPin (d : Dev) (k : Nat) : Bool :=
  match d.cnt.latched with
  | some l => at_ l k false
  | none => (d.chrOut k).pin

/-! ### Counting (R449 to R454) -/

/-- The values a run of n ticks brings the count to, at most one lap of them (R449, R451). -/
def tickValues (reload : Nat) : Nat → Nat → List Nat
  | 0, _ => []
  | n + 1, c =>
    let c' := if reload ≤ c then 0 else c + 1
    c' :: tickValues reload n c'

/-- The count after n ticks: a wrap brings it to 0, then laps of RELOAD + 1 (R449, R451). -/
def countAfter (reload count n : Nat) : Nat :=
  if n = 0 then count
  else if reload ≤ count then (n - 1) % (reload + 1)
  else if count + n ≤ reload then count + n
  else (count + n - (reload + 1)) % (reload + 1)

/-- What n ticks at one edge reach: compare values passed and a wrap, none twice (R451, R454).  The laps
beyond the first produce no events. -/
def tickEvents (reload count n cmp0 cmp1 : Nat) : ChrEvents :=
  let vs := tickValues reload (min n (min (reload + 1) 255)) count
  { cmp0 := vs.contains cmp0, cmp1 := vs.contains cmp1, wrap := vs.contains 0 }

/-- The events of chronograph c on the bus; a match of channel 0 reaches the players too (R448, R354). -/
def emitEvents (c : Nat) (e : ChrEvents) (d : Dev) : Dev :=
  let d := if e.cmp0 then playTriggers c (d.emit (48 + c) 1) else d
  let d := if e.cmp1 then d.emit (64 + c) 1 else d
  if e.wrap then d.emit (80 + c) 1 else d

/-- n ticks of chronograph c at one edge: the count, its status bits, its events and its pins (R449 to
R454, R459). -/
def tickBy (c n : Nat) (d : Dev) : Dev :=
  let reload := (d.reg (Reg.CHR_RELOAD c)).toNat
  let x := d.chr c
  let e := tickEvents reload x.count n (d.reg (Reg.CHR_CMP0 c)).toNat (d.reg (Reg.CHR_CMP1 c)).toNat
  let st := Reg.CHR_STAT c
  let d := d.modChr c (fun x => { x with count := countAfter reload x.count n })
  let d := if e.cmp0 then d.putFlag st 1 true else d
  let d := if e.cmp1 then d.putFlag st 2 true else d
  let d := if e.wrap then d.putFlag st 3 true else d
  let d := if reload + 1 < n then d.putFlag st 9 true else d
  forUpTo 4 (outEvents c e) (emitEvents c e d)

/-- P + 1 of chronograph c's prescaler (R450). -/
def prescale (d : Dev) (c : Nat) : Nat := d.fld (Reg.CHR_CTL c) 31 16 + 1

/-- The edge of chronograph c's next prescaled tick: the first (P + 1)-th edge from its origin on that has not yet ticked
(R450). -/
def prescaledNext (d : Dev) (c : Nat) : Nat :=
  let x := d.chr c
  let p := prescale d c
  x.origin + (max x.from_ (x.origin + 1) - x.origin + p - 1) / p * p

/-- Ticks of chronograph c that belong to the edges up to the present one and are not yet counted: those registered, and
with SRC 011b those of the prescaler (R450, R455). -/
def ticksDue (d : Dev) (c : Nat) : Nat :=
  let x := d.chr c
  if !d.flag (Reg.CHR_CTL c) 0 then 0
  else if d.fld (Reg.CHR_CTL c) 3 1 = 3 then
    (if prescaledNext d c ≤ d.cnt.edge then (d.cnt.edge - prescaledNext d c) / prescale d c + 1 else 0)
  else x.ticks.sum

/-- CHR_TICK: chronograph c counts.  From the frame, tick, pin and bus sources it takes the oldest
increment registered for it; from REFCLK / (P + 1) each tick is one, at its own edge (R450). -/
def chrTickDev (c inc : Nat) (d : Dev) : Dev :=
  if !(d.chrRuns && decide (c < 16) && d.flag (Reg.CHR_CTL c) 0) then d
  else
    let src := d.fld (Reg.CHR_CTL c) 3 1
    if src = 3 then
      let x := prescaledNext d c
      if inc = 1 ∧ edgeNear d x then tickBy c 1 ((edgeTo x d).modChr c (fun h => { h with from_ := x + 1 })) else d
    else
      match (d.chr c).ticks with
      | n :: r =>
        if n = inc ∧ src ≠ 0 ∧ src ≠ 7 then
          tickBy c n (d.modChr c (fun x => { x with ticks := r, capDue := x.capDue.map (fun l => l.map (· - 1)) }))
        else d
      | [] => d

/-- CHR_TICK (R449). -/
def execChrTick (c inc : Nat) (s : State) : Host.Outcome State Fault Refusal := devNext s (chrTickDev c inc)

/-- An increment registered for every running chronograph whose source it is (R450). -/
def registerTicks (pick : Nat → Bool) (n : Nat) (d : Dev) : Dev :=
  { d with cnt := { d.cnt with
      chr := (List.range 16).map (fun c =>
        let x := d.chr c
        if d.flag (Reg.CHR_CTL c) 0 ∧ pick c then { x with ticks := x.ticks ++ [n] } else x) } }

/-- An EF release reaches the chronographs that count EF, and at a CF boundary those that count CF (R450). -/
def chrRelease (d : Dev) : Dev :=
  if d.chrRuns then
    registerTicks (fun c => d.fld (Reg.CHR_CTL c) 3 1 == 1 || (d.fld (Reg.CHR_CTL c) 3 1 == 2 && d.now % 4 == 0)) 1 d
  else d

/-! ### Start, stop, clear, reload (R452, R453) -/

/-- Nothing that a former source registered is left, and no capture waits for it. -/
def dropTicks (x : Chrono) : Chrono := { x with ticks := [], capDue := x.capDue.map (fun l => l.map (fun _ => 0)) }

/-- The prescaler counts from the present edge (R450, R452). -/
def prescaleFrom (c : Nat) (d : Dev) : Dev :=
  d.modChr c (fun x => { x with origin := d.cnt.edge, from_ := d.cnt.edge + 1 })

/-- EN of chronograph c set or cleared, with RUN its mirror; the prescaler counts from the edge at which EN sets (R450,
R452, R468). -/
def chrEn (c : Nat) (on : Bool) (d : Dev) : Dev :=
  let was := d.flag (Reg.CHR_CTL c) 0
  let d := (d.putFlag (Reg.CHR_CTL c) 0 on).putFlag (Reg.CHR_STAT c) 0 on
  if !on then d.modChr c dropTicks else if was then d else prescaleFrom c d

/-- The count set to 0 and the prescaler restarted, with no WRAP (R452). -/
def chrZero (c : Nat) (d : Dev) : Dev := prescaleFrom c (d.modChr c (fun x => { x with count := 0 }))

/-- CHR_START: EN sets in every chronograph named, CLR clears them too (R452). -/
def chrStartNow (v : Word) (d : Dev) : Dev :=
  if d.isOn Dom.ctrl then
    forUpTo 16 (fun c d =>
      if v.getLsbD c then chrEn c true (if v.getLsbD 31 then chrZero c d else d) else d) d
  else d

/-- CHR_START at its effect edge (R447). -/
def chrStartDev (v : Word) (d : Dev) : Dev := atEdge Reg.CHR_START v (chrStartNow v) d

/-- CHR_START (R452). -/
def execChrStart (value : Word) (s : State) : Host.Outcome State Fault Refusal := hostNext s (chrStartDev value)

/-- CHR_STOP: EN clears in every chronograph named (R452). -/
def chrStopNow (v : Word) (d : Dev) : Dev :=
  if d.isOn Dom.ctrl then forUpTo 16 (fun c d => if v.getLsbD c then chrEn c false d else d) d else d

/-- CHR_STOP at its effect edge (R447). -/
def chrStopDev (v : Word) (d : Dev) : Dev := atEdge Reg.CHR_STOP v (chrStopNow v) d

/-- CHR_STOP (R452). -/
def execChrStop (value : Word) (s : State) : Host.Outcome State Fault Refusal := hostNext s (chrStopDev value)

/-- CHR_CTLc written whole: its RW fields, EN with its mirror, and CLEAR (R452, R467).  A change of source
leaves nothing of the old source registered, and the prescaler counts from the edge at which EN sets. -/
def chrClearNow (c : Nat) (v : Word) (d : Dev) : Dev :=
  if !(d.isOn Dom.ctrl && decide (c < 16)) then d
  else
    let old := d.reg (Reg.CHR_CTL c)
    let d := d.putReg (Reg.CHR_CTL c) (v &&& 0xFFFF7FFF)
    let d := d.putFlag (Reg.CHR_STAT c) 0 (v.getLsbD 0)
    let d := if old.bits 14 1 = v.bits 14 1 ∧ v.getLsbD 0 then d else d.modChr c dropTicks
    let d := if !v.getLsbD 0 || old.bits 31 16 = v.bits 31 16 ∧ old.bits 3 1 = v.bits 3 1 then d
      else d.modChr c (fun x => { x with from_ := max x.from_ d.cnt.edge })
    let d := if v.getLsbD 0 && !old.getLsbD 0 then prescaleFrom c d else d
    if v.getLsbD 15 then chrZero c d else d

/-- CHR_CTLc written, at its effect edge (R447). -/
def chrClearDev (c : Nat) (v : Word) (d : Dev) : Dev := atEdge (Reg.CHR_CTL c) v (chrClearNow c v) d

/-- CHR_CLEAR (R452). -/
def execChrClear (c : Nat) (value : Word) (s : State) : Host.Outcome State Fault Refusal := hostNext s (chrClearDev c value)

/-- RELOAD_WRITE: a value below the present count makes the next tick a wrap and sets SHORTENED (R453). -/
def reloadWriteNow (c : Nat) (v : Word) (d : Dev) : Dev :=
  if !(d.isOn Dom.ctrl && decide (c < 16)) then d
  else
    let d1 := d.putReg (Reg.CHR_RELOAD c) v
    if v.toNat < (d.chr c).count then d1.putFlag (Reg.CHR_STAT c) 8 true else d1

/-- CHR_RELOADc written, at its effect edge (R447). -/
def reloadWriteDev (c : Nat) (v : Word) (d : Dev) : Dev := atEdge (Reg.CHR_RELOAD c) v (reloadWriteNow c v) d

/-- RELOAD_WRITE (R453). -/
def execReloadWrite (c : Nat) (value : Word) (s : State) : Host.Outcome State Fault Refusal :=
  hostNext s (reloadWriteDev c value)

/-! ### Captures (R455, R456) -/

/-- A capture of channel n: a count is recorded, FRESH sets, and an unread capture is overwritten (R455). -/
def capturePut (c n v : Nat) (d : Dev) : Dev :=
  let st := Reg.CHR_STAT c
  let d1 := if d.flag st (4 + n) then d.putFlag st (6 + n) true else d
  (d1.modChr c (fun x => { x with cap := x.cap.set n v })).putFlag st (4 + n) true

/-- The count of chronograph c after n more ticks. -/
def countPast (d : Dev) (c n : Nat) : Nat := countAfter (d.reg (Reg.CHR_RELOAD c)).toNat (d.chr c).count n

/-- A triggered capture: the count after the ticks of its edge, the prescaler's among them (R455). -/
def captureNow (c n : Nat) (d : Dev) : Dev :=
  capturePut c n (countPast d c (if d.fld (Reg.CHR_CTL c) 3 1 = 3 then ticksDue d c else 0)) d

/-- A capture that software asks for: the count after every tick up to the present edge (R455). -/
def captureSw (c n : Nat) (d : Dev) : Dev := capturePut c n (countPast d c (ticksDue d c)) d

/-- CHR_CAPTURE: a trigger registered for the channel captures, after the ticks up to its own edge (R455). -/
def chrCaptureDev (c n : Nat) (d : Dev) : Dev :=
  if d.chrRuns && decide (c < 16) && decide (n < 2) && (at_ (d.chr c).capDue n []).head? == some 0 then
    captureNow c n (d.modChr c (fun x => { x with capDue := upd x.capDue n List.tail }))
  else d

/-- CHR_CAPTURE (R455). -/
def execChrCapture (c n : Nat) (s : State) : Host.Outcome State Fault Refusal := devNext s (chrCaptureDev c n)

/-- CHR_CAPCTLc written whole: its RW fields, and a capture in each channel whose SW is 1 (R455, R467).
DESIGN CHOICE (log 23), unsafe. -/
def captureSwNow (c : Nat) (v : Word) (d : Dev) : Dev :=
  if !(d.isOn Dom.ctrl && decide (c < 16)) then d
  else
    let d := d.putReg (Reg.CHR_CAPCTL c) (v &&& 0x7E7F7E7F)
    let d := if v.getLsbD 15 then captureSw c 0 d else d
    if v.getLsbD 31 then captureSw c 1 d else d

/-- CHR_CAPCTLc written, at its effect edge (R447). -/
def captureSwDev (c : Nat) (v : Word) (d : Dev) : Dev := atEdge (Reg.CHR_CAPCTL c) v (captureSwNow c v) d

/-- CAPTURE_SW (R455). -/
def execCaptureSw (c : Nat) (value : Word) (s : State) : Host.Outcome State Fault Refusal := hostNext s (captureSwDev c value)

/-- CHR_CAP_READ: the end of a low-half read of CHR_CAPnc clears FRESHn at the edge that registers it (R456).  A
capture on that same edge comes after it, so FRESHn stays set. DESIGN CHOICE (log 23), unsafe. -/
def chrCapReadDev (c n : Nat) (d : Dev) : Dev :=
  if d.isOn Dom.ctrl && decide (c < 16) && decide (n < 2) then
    atEdge (if n = 0 then Reg.CHR_CAP0 c else Reg.CHR_CAP1 c) 0 (fun d => d.putFlag (Reg.CHR_STAT c) (4 + n) false) d
  else d

/-- CHR_CAP_READ (R456). -/
def execChrCapRead (c n : Nat) (s : State) : Host.Outcome State Fault Refusal := devNext s (chrCapReadDev c n)

/-- Does an edge choice take an edge: 01b falling, 10b both, otherwise rising (R467)? -/
def edgeTakes (sel : Nat) (rising : Bool) : Bool :=
  if sel = 2 then true else if sel = 1 then !rising else rising

/-- Captures registered for every channel a trigger selects, each behind the ticks registered before it and at its own
edge (R455). -/
def registerCaptures (pick : Nat → Nat → Bool) (d : Dev) : Dev :=
  { d with cnt := { d.cnt with
      chr := (List.range 16).map (fun c =>
        let x := d.chr c
        { x with capDue := (List.range 2).map (fun n =>
            at_ x.capDue n [] ++ (if pick c n then [x.ticks.length] else [])) }) } }

/-- CHR_IN_EDGE: a level stable for FILTk periods is accepted; its edge is an occurrence of code 96 + k or
100 + k and reaches the chronographs and captures that watch the pin (R458, R450, R455). -/
def chrInEdgeDev (k : Nat) (level : Bool) (d : Dev) : Dev :=
  if !(d.chrRuns && d.sees Dom.ctrl && decide (k < 4)) || at_ d.cnt.ins k false == level then d
  else
    let d := { d with cnt := { d.cnt with ins := d.cnt.ins.set k level } }
    let d := d.emit ((if level then 96 else 100) + k) 1
    let d := registerTicks (fun c => d.fld (Reg.CHR_CTL c) 3 1 == 5 && d.fld (Reg.CHR_CTL c) 12 11 == k &&
      edgeTakes (d.fld (Reg.CHR_CTL c) 14 13) level) 1 d
    registerCaptures (fun c n => d.fld (Reg.CHR_CAPCTL c) (16 * n + 14) (16 * n + 13) == 1 &&
      d.fld (Reg.CHR_CAPCTL c) (16 * n + 12) (16 * n + 11) == k &&
      edgeTakes (d.fld (Reg.CHR_CAPCTL c) (16 * n + 10) (16 * n + 9)) level) d

/-- CHR_IN_EDGE (R458). -/
def execChrInEdge (k : Nat) (level : Bool) (s : State) : Host.Outcome State Fault Refusal := devNext s (chrInEdgeDev k level)

/-! ### Event counters and the bus (R448, R462 to R465) -/

/-- RUN set or cleared, with EVC_GLB.RUN. -/
def evcRun (on : Bool) (d : Dev) : Dev := { d with cnt := { d.cnt with run := on } }

/-- Counter n raised by an increment delivered at edge x; its wrap sets bit n of EVC_OVF (R462), and the value that FREEZE
holds includes the increments up to the edge at which FREEZE set (R465). -/
def evcAdd (x n inc : Nat) (d : Dev) : Dev :=
  let v := at_ d.cnt.evc n 0 + inc
  let held := d.flag Reg.EVC_GLB 3 && decide (x ≤ d.cnt.frozeAt)
  let d1 := { d with cnt := { d.cnt with
    evc := d.cnt.evc.set n (v % 2 ^ 48)
    evcHeld := if held then d.cnt.evcHeld.set n ((at_ d.cnt.evcHeld n 0 + inc) % 2 ^ 48) else d.cnt.evcHeld } }
  if v < 2 ^ 48 then d1 else d1.putFlag Reg.EVC_OVF n true

/-- The counters that count a source add its increment at edge x (R462). -/
def evcCount (x code inc : Nat) (d : Dev) : Dev :=
  if d.cnt.run then
    forUpTo 32 (fun n d =>
      if d.flag (Reg.EVC_CFG n) 7 ∧ d.fld (Reg.EVC_CFG n) 6 0 = code then evcAdd x n inc d else d) d
  else d

/-- START_SRC and STOP_SRC at an edge's delivery: a source code of 0 never acts, and a stop prevails (R463). -/
def evcGate (codes : List Nat) (d : Dev) : Dev :=
  let start := d.fld Reg.EVC_GLB 14 8
  let stop := d.fld Reg.EVC_GLB 22 16
  if stop ≠ 0 ∧ codes.contains stop then evcRun false d
  else if start ≠ 0 ∧ codes.contains start then evcRun true d
  else d

/-- The occurrences of the oldest edge on the bus, by code, each code once with its number. -/
def busGroup (e : Nat) (bus : List (Nat × Nat × Nat)) : List (Nat × Nat) :=
  let now := bus.filter (fun o => o.1 == e)
  ((List.range 128).filter (fun c => now.any (fun o => o.2.1 == c))).map (fun c => (c, ((now.filter (fun o => o.2.1 == c)).map (fun o => o.2.2)).sum))

/-- The bus behind a delivery of the occurrences of edge e: a source's occurrences beyond 255 go to the next edge (R448). -/
def busRest (e : Nat) (bus : List (Nat × Nat × Nat)) : List (Nat × Nat × Nat) :=
  ((busGroup e bus).filter (fun o => decide (255 < o.2))).map (fun o => (e + 1, o.1, o.2 - 255)) ++
    bus.filter (fun o => o.1 != e)

/-- One source's increment reaches the counters, and the chronographs and captures that watch its code (R450, R455,
R462). -/
def deliverOne (x : Nat) (o : Nat × Nat) (d : Dev) : Dev :=
  let d := evcCount x o.1 (min o.2 255) d
  registerTicks (fun c => d.fld (Reg.CHR_CTL c) 3 1 == 6 && d.fld (Reg.CHR_CTL c) 10 4 == o.1) (min o.2 255) d

/-- EVENT_BUS_DELIVERY: the occurrences of the oldest edge are delivered, one period after it: the gate acts first, so an
increment at the edge at which RUN sets is counted and one at which it clears is not (R448, R462, R463); chronographs and
captures that watch a code have it registered (R450, R455). -/
def eventBusDeliveryDev (d : Dev) : Dev :=
  match d.cnt.bus with
  | [] => d
  | (e, _, _) :: _ =>
    if !(d.chrRuns && edgeNear d (e + 1)) then d
    else
      let g := busGroup e d.cnt.bus
      let d := edgeTo (e + 1) { d with cnt := { d.cnt with bus := busRest e d.cnt.bus } }
      let d := forEach g (deliverOne (e + 1)) (evcGate (g.map Prod.fst) d)
      registerCaptures (fun c n => d.fld (Reg.CHR_CAPCTL c) (16 * n + 14) (16 * n + 13) == 2 &&
        (g.map Prod.fst).contains (d.fld (Reg.CHR_CAPCTL c) (16 * n + 6) (16 * n))) d

/-- EVENT_BUS_DELIVERY (R448). -/
def execEventBusDelivery (s : State) : Host.Outcome State Fault Refusal := devNext s eventBusDeliveryDev

/-- Every counter zeroed at one edge (R464). -/
def evcZeroAll (d : Dev) : Dev := { d with cnt := { d.cnt with evc := List.replicate 32 0 } }

/-- FREEZE held values are taken at the edge at which FREEZE sets; that edge's increments come to them as they are delivered
(R465). -/
def evcSetFreeze (on : Bool) (d : Dev) : Dev :=
  if on && !d.flag Reg.EVC_GLB 3 then
    { (d.putFlag Reg.EVC_GLB 3 true) with cnt := { d.cnt with evcHeld := d.cnt.evc, frozeAt := d.cnt.edge } }
  else d.putFlag Reg.EVC_GLB 3 on

/-- EVC_GLB written whole: its RW fields, then CLEAR_ALL, FREEZE, START and STOP, the stop prevailing
(R463 to R465, R469). -/
def evcGlbNow (v : Word) (d : Dev) : Dev :=
  if !d.isOn Dom.ctrl then d
  else
    let d := (d.putFld Reg.EVC_GLB 22 16 (v.bits 22 16)).putFld Reg.EVC_GLB 14 8 (v.bits 14 8)
    let d := if v.getLsbD 4 then evcZeroAll d else d
    let d := evcSetFreeze (v.getLsbD 3) d
    if v.getLsbD 2 then evcRun false d else if v.getLsbD 1 then evcRun true d else d

/-- EVC_GLB written, at its effect edge (R447). -/
def evcGlbWrite (v : Word) (d : Dev) : Dev := atEdge Reg.EVC_GLB v (evcGlbNow v) d

/-- EVC_START: a write of EVC_GLB with START (R463). -/
def evcStartDev (v : Word) (d : Dev) : Dev := if v.getLsbD 1 then evcGlbWrite v d else d

/-- EVC_START (R463). -/
def execEvcStart (value : Word) (s : State) : Host.Outcome State Fault Refusal := hostNext s (evcStartDev value)

/-- EVC_STOP: a write of EVC_GLB with STOP (R463). -/
def evcStopDev (v : Word) (d : Dev) : Dev := if v.getLsbD 2 then evcGlbWrite v d else d

/-- EVC_STOP (R463). -/
def execEvcStop (value : Word) (s : State) : Host.Outcome State Fault Refusal := hostNext s (evcStopDev value)

/-- EVC_CLEAR_ALL: a write of EVC_GLB with CLEAR_ALL (R464). -/
def evcClearAllDev (v : Word) (d : Dev) : Dev := if v.getLsbD 4 then evcGlbWrite v d else d

/-- EVC_CLEAR_ALL (R464). -/
def execEvcClearAll (value : Word) (s : State) : Host.Outcome State Fault Refusal := hostNext s (evcClearAllDev value)

/-- EVC_FREEZE: a write of EVC_GLB that gives FREEZE its value (R465). -/
def evcFreezeDev (v : Word) (d : Dev) : Dev := evcGlbWrite v d

/-- EVC_FREEZE (R465). -/
def execEvcFreeze (value : Word) (s : State) : Host.Outcome State Fault Refusal := hostNext s (evcFreezeDev value)

/-- EVC_CFGn written whole: SRC and EN, and with CLR the count zeroed (R464, R469). -/
def evcClrNow (n : Nat) (v : Word) (d : Dev) : Dev :=
  if !(d.isOn Dom.ctrl && decide (n < 32)) then d
  else
    let d := d.putReg (Reg.EVC_CFG n) (v &&& 0xFF)
    if v.getLsbD 8 then { d with cnt := { d.cnt with evc := d.cnt.evc.set n 0 } } else d

/-- EVC_CFGn written, at its effect edge (R447). -/
def evcClrDev (n : Nat) (v : Word) (d : Dev) : Dev := atEdge (Reg.EVC_CFG n) v (evcClrNow n v) d

/-- EVC_CLR (R464). -/
def execEvcClr (n : Nat) (value : Word) (s : State) : Host.Outcome State Fault Refusal := hostNext s (evcClrDev n value)

/-- CHR_OUTCTLk written: a change of MODE, CHR, INV or LEVEL reaches the pin with the delay (R460).
DESIGN CHOICE (log 23), unsafe. -/
def chrOutctlNow (k : Nat) (v : Word) (d : Dev) : Dev :=
  let old := outMode d k
  let d := d.putReg (Reg.CHR_OUTCTL k) (v &&& 0xFFFFFFC7)
  let d := if outMode d k = old then d else d.modOut k (fun o => { o with mode := false, pulse := none })
  outDrive k d

/-- A CHR or EVC register written, at its effect edge (R447).  DESIGN CHOICE (log 23), unsafe. -/
def chrWrite (a : Nat) (v : Word) (d : Dev) : Dev :=
  let c := (a - 0x3000) / 0x40
  let n := (a - 0x4100) / 0x10
  if a = Reg.CHR_START then chrStartNow v d
  else if a = Reg.CHR_STOP then chrStopNow v d
  else if 0x3410 ≤ a ∧ a < 0x3420 then chrOutctlNow ((a - 0x3410) / 4) v d
  else if a = Reg.EVC_GLB then evcGlbNow v d
  else if 0x4100 ≤ a ∧ a = Reg.EVC_CFG n then evcClrNow n v d
  else if 0x3400 ≤ a then codedWrite false a v d
  else if a = Reg.CHR_CTL c then chrClearNow c v d
  else if a = Reg.CHR_RELOAD c then reloadWriteNow c v d
  else if a = Reg.CHR_CAPCTL c then captureSwNow c v d
  else codedWrite false a v d

/-- The chronographs that the waiting words stop. -/
def waitStops (w : List (Nat × Word)) : Word :=
  (w.filter (fun e => e.1 == Reg.CHR_STOP)).foldl (fun m e => m ||| e.2) 0

/-- A word that waited for the reference takes effect; a stop of the same edge prevails over a start (R446, R452). -/
def edgeResumeOne (stops : Word) (e : Nat × Word) (d : Dev) : Dev :=
  if e.1 = Reg.CHR_START then chrStopNow (e.2 &&& stops &&& 0xFFFF) (chrWrite e.1 e.2 d) else chrWrite e.1 e.2 d

/-- Is a waiting word the end of a read of CHR_CAPnc? -/
def waitsRead (e : Nat × Word) : Bool :=
  decide (0x3000 ≤ e.1 ∧ e.1 < 0x3400) && (e.1 % 0x40 == 0x14 || e.1 % 0x40 == 0x18)

/-- A read of CHR_CAPnc that waited clears FRESHn (R456). -/
def edgeResumeRead (e : Nat × Word) (d : Dev) : Dev :=
  d.putFlag (Reg.CHR_STAT ((e.1 - 0x3000) / 0x40)) (if e.1 % 0x40 = 0x14 then 4 else 5) false

/-- The reference is valid again: what waited takes effect at this one edge, the ends of reads first, so that a capture of
the same edge leaves FRESH set, then the writes, oldest first (R446, R452, R456). -/
def edgeResume (d : Dev) : Dev :=
  let w := d.cnt.wait
  let d := forEach (w.filter waitsRead) edgeResumeRead { d with cnt := { d.cnt with wait := [] } }
  forEach (w.filter (fun e => !waitsRead e)) (edgeResumeOne (waitStops w)) d

/-- CTRL leaves ON: the pins hold their levels, and both blocks lose what they count; a pin whose MODE has been other than
LOW since reset stays so (R460, R461). -/
def chrSleep (d : Dev) : Dev :=
  { d with cnt := { Counters.reset with
      outs := d.cnt.outs.map (fun o => { ChrOut.reset with woken := o.woken })
      ins := d.cnt.ins, latched := some ((List.range 4).map (chrOutPin d)) } }

/-- CTRL is ON again: every pin starts from the level its mode gives with the count at 0 (R459, R461). -/
def chrWake (d : Dev) : Dev :=
  forUpTo 4 (fun k d =>
    let woken := (d.chrOut k).woken || outMode d k != 0
    let lv := outGives d k woken
    d.modOut k (fun o => { o with woken := woken, last := lv, pin := lv })) d

end Sys2Proof.Machine
end

