-- ==== Sys2Proof/Machine/Analogue.lean ====
section
/-! DEFINITION. The analogue voice cell in numbers: DAC elements, drive stage, four-pole filter, tap mixes,
self-oscillation and the ADC's quantiser (R260 to R265, R271).  Analogue values carry 40 fraction bits, and the filter
follows the equations of R263 by the first four terms of their series over one Fm period.
DESIGN CHOICE (log 4), unsafe. -/

namespace Sys2Proof.Machine

open Sys2Proof

/-- 1.0 as an analogue value. -/
def one40 : Int := 2 ^ 40

/-- The product of two analogue values. -/
def mul40 (a b : Int) : Int := a * b / 2 ^ 40

/-! ### The exponential -/

/-- The series of e^x from term k on, nested, for x with 80 fraction bits. -/
def expTerms (x : Int) : Nat → Nat → Int
  | 0, _ => 2 ^ 80
  | n + 1, k => 2 ^ 80 + x * expTerms x n (k + 1) / (2 ^ 80 * (k : Int))

/-- A value with 80 fraction bits squared n times. -/
def squares : Nat → Int → Int
  | 0, x => x
  | n + 1, x => squares n (x * x / 2 ^ 80)

/-- e^x: the series of x / 256, squared eight times. DESIGN CHOICE (log 4), unsafe. -/
def expFix (x : Int) : Int := squares 8 (expTerms (x * 2 ^ 32) 12 1) / 2 ^ 40

/-- ln 2 × 2^64. -/
def ln2Fix : Int := 12786308645202655660

/-- ln 10 × 2^64. -/
def ln10Fix : Int := 42475197918399869020

/-! ### DAC elements (R260) -/

/-- The choice of n elements that starts at element p: bit e is 1 for an element that drives the positive input. -/
def elementMask (p n : Nat) : Nat := (List.range n).foldl (fun m i => m ||| 2 ^ ((p + i) % 16)) 0

/-- The differential current of a choice, in elements: those at the positive input less those at the negative one;
an element is 12.5 µA. -/
def elementSum (mask : Nat) : Int := 2 * ((List.range 16).countP (fun e => mask.testBit e) : Int) - 16

/-! ### Drive stage (R262) -/

/-- G = 10^(DRIVE / 5,120). -/
def driveGain (code : Nat) : Int := expFix ((code : Int) * ln10Fix / (5120 * 2 ^ 24))

/-- tanh z. -/
def tanhFix (z : Int) : Int :=
  let e := expFix (2 * z)
  (e - one40) * one40 / (e + one40)

/-- 0.8 × tanh(G × x / 1.6). Rounded as log 4 says (DESIGN CHOICE, unsafe). -/
def driveOut (g x : Int) : Int := 4 * tanhFix (mul40 g x * 5 / 8) / 5

/-! ### Cutoff (R264) -/

/-- The cutoff's angle in one Fm period: 2π × f_c / Fm with f_c = 16 Hz × 2^(12c / 65,536) and Fm = 16 × Fe, for a
code c with 16 fraction bits. Rounded as log 4 says (DESIGN CHOICE, unsafe). -/
def cutoffAngle (fe : Nat) (c : Int) : Int := 2 * piFix * expFix (c * 12 * ln2Fix / 2 ^ 56) / ((fe : Int) * 2 ^ 128)

/-- The part of 1 µs that an Fm period is. -/
def microShare (fe : Nat) : Int := 10 ^ 6 * one40 / (16 * (fe : Int))

/-- One Fm period of a value that settles to its target with a time constant of 1 µs. -/
def settleInput (fe : Nat) (target x : Int) : Int := x + mul40 (target - x) (one40 - expFix (-(microShare fe)))

/-- A value on its way from a to b in a slew of 1 µs, j Fm periods after the release. -/
def slew (fe : Nat) (a b : Int) (j : Nat) : Int := a + mul40 (b - a) (clampInt 0 one40 ((j : Int) * microShare fe))

/-! ### Filter (R263, R265) -/

/-- The filter at rest. -/
def Stages.zero : Stages := { y1 := 0, y2 := 0, y3 := 0, y4 := 0 }

/-- The input of the cascade: x' = y0 − k × y4. -/
def Stages.input (k y0 : Int) (y : Stages) : Int := y0 - mul40 k y.y4

/-- The rate of change of each stage, with time in units of the cutoff's angle: y_i' = y_(i−1) − y_i. -/
def Stages.rate (k y0 : Int) (y : Stages) : Stages :=
  { y1 := y.input k y0 - y.y1, y2 := y.y1 - y.y2, y3 := y.y2 - y.y3, y4 := y.y3 - y.y4 }

/-- Each stage × s / m. -/
def Stages.scale (s : Int) (m : Nat) (y : Stages) : Stages :=
  { y1 := mul40 y.y1 s / m, y2 := mul40 y.y2 s / m, y3 := mul40 y.y3 s / m, y4 := mul40 y.y4 s / m }

/-- The sum, stage by stage. -/
def Stages.add (a b : Stages) : Stages := { y1 := a.y1 + b.y1, y2 := a.y2 + b.y2, y3 := a.y3 + b.y3, y4 := a.y4 + b.y4 }

/-- The terms of the series that follow a term v, from the m-th on. -/
def Stages.series (theta k : Int) : Nat → Nat → Stages → Stages
  | 0, _, _ => Stages.zero
  | n + 1, m, v => v.add (Stages.series theta k n (m + 1) ((v.rate k 0).scale theta m))

/-- The filter after an angle theta with a constant drive output. DESIGN CHOICE (log 4), unsafe. -/
def Stages.run (theta k y0 : Int) (y : Stages) : Stages :=
  y.add (Stages.series theta k 4 2 ((y.rate k y0).scale theta 1))

/-- The output of a filter mode (R263). -/
def Stages.mix (mode : Nat) (k y0 : Int) (y : Stages) : Int :=
  let x := y.input k y0
  if mode = 1 then y.y3
  else if mode = 2 then y.y2
  else if mode = 3 then y.y1
  else if mode = 4 then x - 2 * y.y1 + y.y2
  else if mode = 5 then 2 * (y.y1 - y.y2)
  else if mode = 6 then 4 * (y.y2 - 2 * y.y3 + y.y4)
  else if mode = 7 then x - 2 * y.y1 + 2 * y.y2
  else y.y4

/-- k = 4 × RESONANCE' / 49,152. -/
def feedbackOf (res : Nat) : Int := (res : Int) * one40 / 12288

/-- The level of self-oscillation: 0.25 × (RESONANCE' − C000h) / 1000h, 0.25 from D000h on. -/
def selfLevel (res : Nat) : Int := 2 ^ 26 * ((min (res - 0xC000) 0x1000 : Nat) : Int)

/-- The feedback as the amplitude regulator leaves it: above the onset k = 4 it holds y4 at the level, whose square
at the cutoff is that of y4 and of its rate of change together. DESIGN CHOICE (log 4), unsafe. -/
def regulate (k level : Int) (y : Stages) : Int :=
  if k ≤ 4 * one40 ∨ level = 0 then k
  else
    let a2 := y.y4 * y.y4 + (y.y3 - y.y4) * (y.y3 - y.y4)
    4 * one40 + mul40 (k - 4 * one40) (clampInt (-one40) one40 (one40 - a2 * one40 / (level * level)))

/-! ### ADC (R271) -/

/-- One code of the second-order loop and the difference it leaves: four times the input with twice the last difference less
the one before it, rounded, so that the differences reach the codes through (1 − z^−1)^2; within a sixteenth of a code of a
decision the comparators' noise picks either code; ±top bounds the code.  DESIGN CHOICE (log 4), unsafe. -/
def quantise (top pick u err err2 : Int) : Int × Int :=
  let want := 4 * u + 2 * err - err2
  let near := clampInt (-top) top (rneDiv want (2 ^ 40))
  let other := clampInt (-top) top (near + clampInt (-1) 1 pick)
  let q := if (want - other * one40).natAbs ≤ one40 * 9 / 16 then other else near
  (q, clampInt (-2 * one40) (2 * one40) (want - q * one40))

/-- What a cell adds to its drive output in one Fm period: its noise, within 2^−18 of full scale; while a loop above its onset
is below half the level its regulator holds, the part of the noise that makes it grow, so that it oscillates without input
(R265). DESIGN CHOICE (log 4), unsafe. -/
def noiseIn (k level noise : Int) (y : Stages) : Int :=
  let n := clampInt (-(2 ^ 22)) (2 ^ 22) noise
  let a2 := y.y4 * y.y4 + (y.y3 - y.y4) * (y.y3 - y.y4)
  if k ≤ 4 * one40 ∨ level = 0 ∨ level * level ≤ 4 * a2 then n
  else (if 0 < y.y4 then -1 else 1) * max (n.natAbs : Int) (2 ^ 20)

end Sys2Proof.Machine
end

