-- ==== Sys2Proof/Machine/Osc.lean ====
section
/-! DEFINITION. The oscillators of a voice, EF by EF: pitch, the WAVETABLE, SAMPLE and VA models, phase
modulation, noise, the external input and the sum that feeds the voice DAC (R188 to R216). -/

namespace Sys2Proof.Machine

open Sys2Proof

/-! ### The wave directory (R190, R191) -/

/-- Offset of the directory entry of a wave ID (R190). -/
def dirAt (w : Nat) : Nat := 0x88000 + w * 0x20

/-- ADDR. -/
def wAddr (e : List Byte) : Nat := wordAt e 0
/-- LENGTH; 0 encodes the maximum (R18). -/
def wLength (e : List Byte) : Nat := countOf (wordAt e 4) 0x4000000
/-- KIND. -/
def wKind (e : List Byte) : Nat := byteAt e 8
/-- FMT.W24. -/
def w24 (e : List Byte) : Bool := (byteAt e 9).testBit 0
/-- FMT.MIP. -/
def wMip (e : List Byte) : Bool := (byteAt e 9).testBit 1
/-- ROOT. -/
def wRoot (e : List Byte) : Int := byteAt e 0x0A
/-- FRAMES_M1. -/
def wFramesM1 (e : List Byte) : Nat := byteAt e 0x0B
/-- ROOT_FINE. -/
def wRootFine (e : List Byte) : Int := signed 16 (halfAt e 0x0C)
/-- RATE. -/
def wRate (e : List Byte) : Nat := wordAt e 0x10
/-- LOOP_START. -/
def wLoopStart (e : List Byte) : Nat := wordAt e 0x14
/-- LOOP_END. -/
def wLoopEnd (e : List Byte) : Nat := wordAt e 0x18

/-- Bytes of a sample word. -/
def wBytes (e : List Byte) : Nat := if w24 e then 3 else 2

/-- Samples from one frame to the next (R189). -/
def wStride (e : List Byte) : Nat := if wMip e then 4096 else 2048

/-- PLAY of an oscillator, from OFLAGS (R193). -/
def playOf (arm : List Byte) (i : Nat) : Nat := byteAt arm (0x28 * i + 1) / 16 % 4

/-- START of an oscillator (R193). -/
def startOf (arm : List Byte) (i : Nat) : Nat := wordAt arm (0x28 * i + 0x10)

/-- The lowest code of the checks an entry fails for a model (1 WAVETABLE, 2 SAMPLE), 0 for none (R191). -/
def waveError (model play start : Nat) (e : List Byte) : Nat :=
  let kindFor := if model = 1 then 2 else 1
  let words := if model = 2 then wLength e else (wFramesM1 e + 1) * wStride e
  if wKind e ≤ 2 ∧ wKind e ≠ kindFor then 1
  else if 2 < wKind e ∨ 4 ≤ byteAt e 9 ∨ halfAt e 0x0E ≠ 0 ∨ (model = 2 ∧ (wRate e < 256000 ∨ 49152000 < wRate e)) ∨ wAddr e % 64 ≠ 0 then 2
  else if waveSize < wAddr e + words * wBytes e then 3
  else if model = 2 ∧ play ≠ 0 ∧
      (wLoopEnd e ≤ wLoopStart e ∨ wLength e < wLoopEnd e ∨ wLoopEnd e - wLoopStart e < 32) then 4
  else if model = 2 ∧ wLength e ≤ start then 5
  else 0

/-! ### Pitch (R195 to R199) -/

/-- The glide offset at EF t (R196). -/
def glideAt (g : Option Glide) (t : Nat) : Int :=
  match g with
  | none => 0
  | some g => if g.len ≤ efSince t g.since then 0 else truncDiv (g.diff * ((g.len - efSince t g.since : Nat) : Int)) g.len

/-- K of an oscillator (R195). -/
def keyFor (va : VAud) (key i : Nat) : Int := if (byteAt va.arm (0x28 * i + 1)).testBit 1 then (key : Int) else 60

/-- The pitch p of oscillator i at EF t (R195). -/
def pitchOf (d : Dev) (v : Nat) (va : VAud) (i t : Nat) : Int :=
  let x := d.voice v
  let sb : Int := if (byteAt va.part 0).testBit 1 then 2 else (byteAt va.part 0x1A : Int)
  let bend := truncDiv (((halfAt va.part 0x20 : Int) - 8192) * sb * 1024) 8192
  let note := if byteAt va.pn 4 = 0xFF then 0
    else truncDiv (((halfAt va.pn 0 : Int) - 8192) * (byteAt va.part 0x1A : Int) * 1024) 8192
  let f := factorOf (2 * one23) (contribAt va t 62)
  let uni := rneDiv (uniOffset (halfAt va.base 0x1E8) x.uniIdx x.uniN * f) (2 ^ 23)
  (keyFor va x.key i - 69) * 1024 + signed 32 (wordAt va.base (0x28 * i + 4)) + (d.clu (cluOf v)).tune + bend + note + uni
    + glideAt (at_ va.oscs i Osc.reset).glide t + contribAt va t (1 + 7 * i) + contribAt va t 22

/-- INC69 (R198). -/
def inc69 (fam44 : Bool) : Int := if fam44 then 5356535 else 4921317

/-- The phase increment of a pitch, and whether it saturated (R198). -/
def incOf (fam44 : Bool) (p : Int) : Nat × Bool :=
  let v := expScale (inc69 fam44) p
  if 0x7FFFFFFF < v then (0x7FFFFFFF, true) else (v.toNat, false)

/-- The step of a SAMPLE oscillator, and whether the distance was clamped (R199). -/
def stepOf (e : List Byte) (s0 : Nat) (p : Int) : Nat × Bool :=
  let dist := p - ((wRoot e - 69) * 1024 + wRootFine e)
  let dc := clampInt (-49152) 49152 dist
  ((expScale s0 dc).toNat, dc != dist)

/-- S0 (R199). -/
def step0Of (fe : Nat) (e : List Byte) : Nat := (rneDiv ((wRate e : Int) * 2 ^ 24) fe).toNat

/-! ### Reading wave objects (R188, R200 to R203, R207, R208) -/

/-- Sample word n of an object, widened to Q1.23, as the cluster's cache holds it (R188, R213). -/
def sampleWord (x : Clu) (e : List Byte) (n : Nat) : Int :=
  let at1 (k : Nat) : Byte := x.byte (wAddr e + wBytes e * n + k)
  if w24 e then signed 24 (leNat [at1 0, at1 1, at1 2]) else signed 16 (leNat [at1 0, at1 1]) * 256

/-- The lines of sample word n. -/
def sampleLines (e : List Byte) (n : Nat) : List Nat := linesTouched (wAddr e + wBytes e * n) (wBytes e)

/-- The lines of a list of kernel points. -/
def pointLines (e : List Byte) (pts : List (Option Nat)) : List Nat :=
  dedup (pts.flatMap (fun p => match p with
    | some n => sampleLines e n
    | none => []))

/-- The values of a list of kernel points: a point that is none reads zero. -/
def pointValues (x : Clu) (e : List Byte) (pts : List (Option Nat)) : List Int :=
  pts.map (fun p => match p with
    | some n => sampleWord x e n
    | none => 0)

/-- The offsets of a kernel's points from its index (R207, R208). -/
def kernelOffsets (sinc : Bool) : List Int := if sinc then sincPoints else [-1, 0, 1, 2]

/-- A kernel applied (R207, R208). -/
def kernelApply (sinc : Bool) (pts : List Int) (frac : Nat) : Int := if sinc then kernelSinc pts frac else kernelCubic pts frac

/-- The mip level for an increment (R201). -/
def mipLevel (e : List Byte) (inc : Nat) : Nat :=
  if wMip e then ((List.range 8).find? (fun j => decide (inc ≤ 2 ^ (21 + j)))).getD 7 else 0

/-- First sample of a level within its frame (R189). -/
def levelStart (j : Nat) : Nat := 4096 - 2 ^ (12 - j)

/-- The kernel points of one frame at a phase, wrapping within the level (R201). -/
def tablePoints (e : List Byte) (f j phase : Nat) (sinc : Bool) : List (Option Nat) :=
  let n : Nat := 2048 / 2 ^ j
  let i : Nat := phase % 2 ^ 32 / 2 ^ (21 + j)
  (kernelOffsets sinc).map (fun o => some (f * wStride e + (if wMip e then levelStart j else 0) + (((i : Int) + o) % (n : Int)).toNat))

/-- The interpolation fraction of a phase at a level (R201). -/
def tableFrac (j phase : Nat) : Nat := phase % 2 ^ (21 + j) / 2 ^ (5 + j)

/-- The mode a SAMPLE oscillator plays in: a loop mode with START at or beyond LOOP_END is one-shot (R202). -/
def playMode (arm : List Byte) (i : Nat) (e : List Byte) : Nat :=
  if wLoopEnd e ≤ startOf arm i then 0 else playOf arm i

/-- Where a SAMPLE kernel point reads (R203). -/
def samplePoint (e : List Byte) (mode : Nat) (turned : Bool) (i : Int) : Option Nat :=
  let ls : Int := wLoopStart e
  let le : Int := wLoopEnd e
  let j : Int :=
    if mode = 1 then (if le ≤ i then i - (le - ls) else if turned && decide (i < ls) then i + (le - ls) else i)
    else if mode = 2 then (if le - 1 < i then 2 * (le - 1) - i else if turned && decide (i < ls) then 2 * ls - i else i)
    else if (wLength e : Int) ≤ i then -1 else i
  if j < 0 then none else some j.toNat

/-- The position of a SAMPLE oscillator after one EF (R202). -/
def sampleAdvance (e : List Byte) (mode : Nat) (step : Nat) (o : Osc) : Osc :=
  let ls : Int := (wLoopStart e : Int) * 2 ^ 32
  let le : Int := (wLoopEnd e : Int) * 2 ^ 32
  let last : Int := ((wLoopEnd e : Int) - 1) * 2 ^ 32
  let p := if o.back then o.pos - step else o.pos + step
  if mode = 1 then
    (if le ≤ p then { o with pos := p - (le - ls), turned := true } else { o with pos := p })
  else if mode = 2 then
    (if !o.back && decide (last < p) then { o with pos := 2 * last - p, back := true, turned := true }
     else if o.back && decide (p < ls) then { o with pos := 2 * ls - p, back := false }
     else { o with pos := p })
  else { o with pos := p }

/-! ### VA (R205) -/

/-- 1.0 with 30 fraction bits. -/
abbrev one30 : Int := 2 ^ 30

/-- A product with 30 fraction bits. -/
def mul30 (a b : Int) : Int := rneDiv (a * b) (2 ^ 30)

/-- blep(t) (R205). -/
def blep (t dt : Int) : Int :=
  if t < dt then
    let x := rneDiv (t * one30) dt.toNat
    2 * x - mul30 x x - one30
  else if one30 - dt < t then
    let x := rneDiv ((t - one30) * one30) dt.toNat
    mul30 x x + 2 * x + one30
  else 0

/-- blamp(t) (R205). -/
def blamp (t dt : Int) : Int :=
  if t < dt then
    let x := rneDiv (t * one30) dt.toNat - one30
    Int.neg (rneDiv (mul30 (mul30 x x) x) 3)
  else if one30 - dt < t then
    let x := rneDiv ((t - one30) * one30) dt.toNat + one30
    rneDiv (mul30 (mul30 x x) x) 3
  else 0

/-- saw(t) (R205). -/
def vaSaw (t dt : Int) : Int := 2 * t - one30 - blep t dt

/-- The output of a VA oscillator: shape, phase, increment and width with 30 fraction bits (R205). -/
def vaOut (shape phase inc : Nat) (w : Int) : Int :=
  let t := rneDiv (phase : Int) 4
  let dt := rneDiv (inc : Int) 4
  let y :=
    if shape = 0 then vaSaw t dt
    else if shape = 1 then vaSaw t dt - vaSaw ((t + w) % one30) dt + (one30 - 2 * w)
    else one30 - 4 * ((t - one30 / 2).natAbs : Int) + mul30 (8 * dt) (blamp t dt - blamp ((t + one30 / 2) % one30) dt)
  satSigned 24 (rneDiv y (2 ^ 7))

/-- The pulse width with 30 fraction bits: PW plus its modulation, held to 2 dt through 1 − 2 dt and to
1/256 through 255/256 (R205).  With dt above 1/4, where the lower of the first two bounds exceeds the upper and R205 gives no
order, a width below 2 dt takes 2 dt and any other 1 − 2 dt, before the second two.  DESIGN CHOICE (log 44), unsafe. -/
def vaWidth (pw : Int) (inc : Nat) : Int :=
  let dt := rneDiv (inc : Int) 4
  clampInt (one30 / 256) (255 * (one30 / 256)) (clampInt (2 * dt) (one30 - 2 * dt) (pw * 2 ^ 14))

/-! ### External input (R211) -/

/-- Slots a TDM port carries at a rate code (R357). -/
def slotsAtRate (rate : Nat) : Nat := if rate = 0 then 2 else if rate = 1 then 4 else if rate = 2 then 8 else 16

/-- The rate code a TDM port runs at; 00b reads as 01b on an input port (R357). -/
def tdmRate (n : Nat) (ctl : Word) : Nat := if 4 ≤ n ∧ ctl.bits 5 4 = 0 then 1 else ctl.bits 5 4

/-- TDM port n. -/
def Dev.tdmPort (d : Dev) (n : Nat) : TdmPort := at_ d.tdm.ports n TdmPort.reset

/-- Does an external voice name a slot its port carries (R211)? -/
def extSlotOk (d : Dev) (ext : Nat) : Bool :=
  decide (ext / 256 % 16 < slotsAtRate (tdmRate (4 + ext % 2) (d.tdmPort (4 + ext % 2)).ctl))

/-- U of R47 and the EF of a frame, by the rate code of an input port. -/
def extDelay (rate : Nat) : Nat × Nat := if rate = 3 then (14, 8) else if rate = 2 then (10, 4) else (6, 2)

/-- The interpolator of an external input, `into` EF after the last frame was delivered: a linear-phase filter whose response to
a frame that ended in EF k, and so is delivered at release k + 1, is centred on k + 1 + U (R47, R211, R362).  Its taps are not in the spec, so each is a free value
of the rate and of its distance from the centre. DESIGN CHOICE (log 12), safe. -/
def extInterp (rate into : Nat) (hist : List Int) : Int :=
  let u := (extDelay rate).1
  let step := (extDelay rate).2
  let taps := (List.range hist.length).map (fun i =>
    let n := into + step * i
    if n ≤ 2 * u then Config.extTap rate ((n : Int) - u).natAbs * at_ hist i 0 else 0)
  satSigned 24 (rneDiv (taps.foldl (· + ·) 0) (2 ^ 30))

/-- The external input at Fe for an EXT field: zero while TDM is not ON or the slot is not carried, else the
interpolator's value, weighted after a relock (R211, R364). -/
def extInput (d : Dev) (ext : Nat) : Int :=
  let p := d.tdmPort (4 + ext % 2)
  if !(d.isOn Dom.tdm && extSlotOk d ext && p.run) then 0
  else
    let hist := p.hist.map (fun f => rneDiv (signed 32 (f.getD (ext / 256 % 16) 0).toNat) (2 ^ 8))
    let into := match p.frameAt with
      | some k => efSince d.now k
      | none => 0
    rneDiv (extInterp (tdmRate 4 p.ctl) into hist * p.w) 64

/-! ### One EF of one oscillator -/

/-- What an oscillator did in an EF: its output before LEVEL, itself after, the lines of its window, lines to
ask for on the demand lane, and what is counted. -/
structure OscStep where
  y : Int
  osc : Osc
  pins : List Nat
  ahead : List Nat
  hits : Nat
  missing : List Nat
  clamped : Bool
  deriving Repr

/-- An oscillator that reads nothing. -/
def oscStill (o : Osc) (y : Int) : OscStep :=
  { y := y, osc := o, pins := [], ahead := [], hits := 0, missing := [], clamped := false }

/-- An oscillator starves in an EF when a line it needs is not present (R216). -/
def OscStep.starved (r : OscStep) : Bool := !r.missing.isEmpty

/-- Depth j into oscillator i, held to 0 to 7.9999 cycles, in UQ3.13 (R206). -/
def pmDepth (va : VAud) (i j t : Nat) : Int :=
  clampInt 0 65535 ((halfAt va.base (0x28 * i + 0x18 + 2 * j) : Int) + contribAt va t (5 + 7 * i + j))

/-- The phase offset of oscillator i (R206): a source before it supplies its output of this EF, one after it
its last output, its own the mean of its last two. -/
def pmOffset (va : VAud) (i t : Nat) (done : List Int) : Int :=
  let src (j : Nat) : Int :=
    let o := at_ va.oscs j Osc.reset
    if j < i then 2 * at_ done j 0 else if j = i then o.y1 + o.y2 else 2 * o.y1
  rneDiv (pmDepth va i 0 t * src 0 + pmDepth va i 1 t * src 1 + pmDepth va i 2 t * src 2) 32

/-- Is the SINC bit set at the latest read point (R194)? -/
def sincOn (va : VAud) (i : Nat) : Bool := (byteAt va.base (0x28 * i + 1)).testBit 0

/-- The frames a WAVETABLE reads and the blend between them (R200). -/
def framesOf (va : VAud) (i t : Nat) (e : List Byte) : Nat × Nat :=
  let q := clampInt 0 (wFramesM1 e * 256) ((halfAt va.base (0x28 * i + 0x0C) : Int) + contribAt va t (4 + 7 * i))
  (q.toNat / 256, q.toNat % 256)

/-- The lines a stream comes to beyond sample word n, at most 8 new ones: it plays forward, or backward with `back`, to
the end of a one-shot, round a loop [ls, le), or to and fro in it (modes 0, 1 and 2 of R202).  Each step goes to the
next word that touches a new line; `seen` are the lines of the window and those found, and the fuel bounds the turns of
a loop too short for 8 lines (R214). -/
def linesAhead (e : List Byte) (mode ls le : Nat) : Nat → Nat → Bool → List Nat → List Nat → List Nat
  | 0, _, _, _, acc => acc
  | fuel + 1, n, back, seen, acc =>
    if 8 ≤ acc.length then acc.take 8
    else
      let a := wAddr e + wBytes e * n
      let new := (sampleLines e n).filter (fun l => !(seen ++ acc).contains l)
      let acc := acc ++ (if back then new.reverse else new)
      let up := ((a + wBytes e - 1) / 64 * 64 + 63 - (a + wBytes e - 1)) / wBytes e + 1
      let down := (a % 64) / wBytes e + 1
      if back then
        (if ls + down ≤ n then linesAhead e mode ls le fuel (n - down) true seen acc
         else linesAhead e mode ls le fuel ls false seen acc)
      else if n + up < le then linesAhead e mode ls le fuel (n + up) false seen acc
      else if mode = 1 then linesAhead e mode ls le fuel ls false seen acc
      else if mode = 2 then linesAhead e mode ls le fuel (le - 1) true seen acc
      else acc.take 8

/-- The eight lines beyond a table window, within the level (R214). -/
def tableAhead (e : List Byte) (f j phase : Nat) (sinc : Bool) : List Nat :=
  let n := 2048 / 2 ^ j
  let b := f * wStride e + (if wMip e then levelStart j else 0)
  let last := (phase % 2 ^ 32 / 2 ^ (21 + j) + (if sinc then 4 else 2)) % n
  linesAhead e 1 b (b + n) 32 (b + last) false (pointLines e (tablePoints e f j phase sinc)) []

/-- The eight lines beyond a SAMPLE window in the direction of play, through wraps and reflection; `window` is the
window's lines (R214). -/
def sampleAhead (e : List Byte) (mode : Nat) (sinc : Bool) (window : List Nat) (o : Osc) : List Nat :=
  let i := o.pos / 2 ^ 32
  let last : Int := if o.back then i - (if sinc then 3 else 1) else i + (if sinc then 4 else 2)
  let turn := mode = 2 ∧ ((!o.back ∧ (wLoopEnd e : Int) - 1 < last) ∨ (o.back ∧ last < wLoopStart e))
  match samplePoint e mode o.turned last with
  | none => []
  | some n =>
    if mode = 0 then linesAhead e 0 0 (wLength e) 32 n false window []
    else linesAhead e mode (wLoopStart e) (wLoopEnd e) 32 n (if turn then !o.back else o.back) window []

/-- One EF of a WAVETABLE oscillator (R200, R201, R206, R216). -/
def oscTable (d : Dev) (v : Nat) (va : VAud) (i t : Nat) (done : List Int) (o : Osc) : OscStep :=
  let e := o.dir
  let x := d.clu (cluOf v)
  let ic := incOf d.fam44 (pitchOf d v va i t)
  let ph := (((o.phase : Int) + pmOffset va i t done) % 2 ^ 32).toNat
  let fk := framesOf va i t e
  let one := fk.2 == 0 || fk.1 == wFramesM1 e
  let sinc := sincOn va i && one
  let j := mipLevel e ic.1
  let p0 := tablePoints e fk.1 j ph sinc
  let p1 := if one then [] else tablePoints e (fk.1 + 1) j ph false
  let pins := dedup (pointLines e p0 ++ pointLines e p1)
  let missing := pins.filter (fun l => !x.has l)
  let fr := tableFrac j ph
  let y0 := kernelApply sinc (pointValues x e p0) fr
  let y := if !missing.isEmpty then o.y1 else if one then y0
    else rneDiv ((256 - (fk.2 : Int)) * y0 + (fk.2 : Int) * kernelApply false (pointValues x e p1) fr) 256
  { y := y, osc := { o with phase := (o.phase + ic.1) % 2 ^ 32 }, pins := pins
    ahead := pins ++ tableAhead e fk.1 j ph sinc ++ (if one then [] else tableAhead e (fk.1 + 1) j ph false)
    hits := pins.length - missing.length, missing := missing, clamped := ic.2 }

/-- A SAMPLE oscillator that restarts in this EF reads from START (R212). -/
def oscRestarted (va : VAud) (i t : Nat) (o : Osc) : Osc :=
  match o.restart with
  | some r => if efReached t r then
      { o with pos := (startOf va.arm i : Int) * 2 ^ 32, back := false, turned := false, ended := false, restart := none } else o
  | none => o

/-- One EF of a SAMPLE oscillator (R199, R202, R203, R216). -/
def oscSample (d : Dev) (v : Nat) (va : VAud) (i t : Nat) (o : Osc) : OscStep :=
  let e := o.dir
  let x := d.clu (cluOf v)
  let o := oscRestarted va i t o
  let mode := playMode va.arm i e
  let idx := o.pos / 2 ^ 32
  if o.ended || (mode == 0 && decide ((wLength e : Int) ≤ idx)) then
    { (oscStill { o with ended := true } 0) with clamped := (stepOf e o.step0 (pitchOf d v va i t)).2 }
  else
    let sc := stepOf e o.step0 (pitchOf d v va i t)
    let sinc := sincOn va i
    let pts := (kernelOffsets sinc).map (fun k => samplePoint e mode o.turned (idx + k))
    let pins := pointLines e pts
    let missing := pins.filter (fun l => !x.has l)
    let fr := (o.pos % 2 ^ 32).toNat / 2 ^ 16
    { y := if !missing.isEmpty then o.y1 else kernelApply sinc (pointValues x e pts) fr
      osc := sampleAdvance e mode sc.1 o, pins := pins, ahead := pins ++ sampleAhead e mode sinc pins o
      hits := pins.length - missing.length, missing := missing, clamped := sc.2 }

/-- One EF of a VA oscillator (R205, R206). -/
def oscVa (d : Dev) (v : Nat) (va : VAud) (i t : Nat) (done : List Int) (o : Osc) : OscStep :=
  let ic := incOf d.fam44 (pitchOf d v va i t)
  let ph := (((o.phase : Int) + pmOffset va i t done) % 2 ^ 32).toNat
  let w := vaWidth ((halfAt va.base (0x28 * i + 0x0A) : Int) + contribAt va t (3 + 7 * i)) ic.1
  { (oscStill { o with phase := (o.phase + ic.1) % 2 ^ 32 } (vaOut (halfAt va.arm (0x28 * i + 2) % 4) ph ic.1 w)) with
    clamped := ic.2 }

/-- One EF of oscillator i, given the outputs of this EF before it (R206, R210). -/
def oscStep (d : Dev) (v : Nat) (va : VAud) (t i : Nat) (done : List Int) : OscStep :=
  let o := at_ va.oscs i Osc.reset
  let r := if o.model = 1 then oscTable d v va i t done o
    else if o.model = 2 then oscSample d v va i t o
    else if o.model = 3 then oscVa d v va i t done o
    else if o.model = 4 then oscStill o (extInput d (halfAt va.arm 0x20))
    else oscStill o 0
  { r with osc := { r.osc with y1 := r.y, y2 := o.y1, lines := if r.pins.isEmpty then o.lines else r.pins } }

/-! ### Noise (R209) -/

/-- One EF of the noise source: the output, and the source after (R209). -/
def noiseStep (t : Nat) (va : VAud) : Int × VAud :=
  let s := lfsr32 va.lfsr
  let white := lfsrTop s
  let color := byteAt va.arm 0x78
  let rows := (List.range 16).map (fun k => if t % 2 ^ k = 0 then white else at_ va.rows k 0)
  let red := va.red + rneDiv (white - va.red) 64
  let y := if color = 1 then rneDiv (rows.foldl (· + ·) 0) 16
    else if color = 2 then satSigned 24 (4 * red) else white
  (y, { va with lfsr := s, rows := if color = 1 then rows else va.rows, red := if color = 2 then red else va.red })

/-! ### The oscillator sum (R210) -/

/-- A level: its field plus its modulation, held to 0 to 1.0, in UQ1.15 (R210, R193). -/
def levelAt (va : VAud) (t field dest : Nat) : Int :=
  clampInt 0 32768 ((min (halfAt va.base field) 0x8000 : Nat) + contribAt va t dest)

/-- Every SAMPLE oscillator with END_VOICE has ended, and there is one (R204). -/
def allEnded (va : VAud) : Bool :=
  let es := va.oscs.filter (fun o => o.endVoice)
  !es.isEmpty && es.all (fun o => o.ended && o.restart.isNone)

/-- The gain parameters of EF t (R227, R247, R274 to R276). -/
def gainOf (d : Dev) (v : Nat) (va : VAud) (t : Nat) : Gain :=
  let x := d.voice v
  { env0 := env0At va t
    ampf := factorOf one23 (contribAt va t 27)
    amp := min (halfAt va.base 0x8C) 0x8000
    pan := clampInt (-32768) 32767
      (signed 16 (halfAt va.base 0x8E) + uniOffset (byteAt va.base 0x1EA) x.uniIdx x.uniN * 256 + contribAt va t 28)
    levels := (List.range 4).map (fun n => (levelAt va t (0x94 + 4 * n + 2) (29 + n)).toNat) }

/-- Does a voice's oscillator pipeline run: from its first sample to its end (R165)? -/
def sounding (x : Voice) : Bool := x.state == .sounding || x.state == .releasing || x.state == .stealing

/-- The three oscillators of a voice in EF t, each given the outputs of those before it (R206, R210). -/
def oscSteps (d : Dev) (v : Nat) (va : VAud) (t : Nat) : List OscStep :=
  let a := oscStep d v va t 0 []
  let b := oscStep d v va t 1 [a.y]
  [a, b, oscStep d v va t 2 [a.y, b.y]]

/-- What a frame of EF t leaves of a voice beside its oscillators: its gains, its kernel windows, and the EF in which
every END_VOICE oscillator has ended (R204, R213, R227). -/
def framePast (d : Dev) (v t : Nat) (va : VAud) (window : List Nat) (x : VAud) : VAud :=
  { x with
    gains := (gainOf d v va t :: va.gains).take 7, window := dedup window
    endAt := if allEnded x && va.endAt.isNone then some t else va.endAt }

/-- The pipeline of one voice for EF t: oscillators, noise, sum, gains, counts and line requests (R195 to R216). -/
def voiceFrame (v t : Nat) (d : Dev) : Dev × Int :=
  let c := cluOf v
  let d := evalNext v d
  let va := d.vaud v
  if !sounding (d.voice v) then (d, 0)
  else
    let os := oscSteps d v va t
    let y (i : Nat) : Int := ((os[i]?).map OscStep.y).getD 0
    let ns := noiseStep t { va with oscs := os.map OscStep.osc }
    let sum := rneDiv (levelAt va t 0x08 2 * y 0) (2 ^ 15) + rneDiv (levelAt va t 0x30 9 * y 1) (2 ^ 15)
      + rneDiv (levelAt va t 0x58 16 * y 2) (2 ^ 15) + rneDiv (levelAt va t 0x7A 23 * ns.1) (2 ^ 15)
    let x := satSigned 24 sum
    let count (f : OscStep → Bool) : Nat := (os.filter f).length
    let starve := count OscStep.starved
    let d := d.modVaud v (fun _ => { framePast d v t va (os.flatMap OscStep.pins) ns.2 with loaded := true })
    let d := cluBump c Reg.CLU_CNT_WC_HIT ((os.map OscStep.hits).foldl (· + ·) 0) d
    let d := cluBump c Reg.CLU_CNT_PITCH_CLAMP (count OscStep.clamped) d
    let d := if starve = 0 then d else
      (cluIrq c Reg.CLU_OSC_IRQ_STAT 0 (cluBump c Reg.CLU_CNT_STARVE starve d)).emit 22 starve
    let d := if t = va.start then
        cluBump c Reg.CLU_CNT_HEAD_LATE (count (fun o => o.missing.any (fun l => va.heads.contains l))) d else d
    let d := if x = sum then d else cluIrq c Reg.CLU_OSC_IRQ_STAT 2 (cluBump c Reg.CLU_CNT_OSC_CLIP 1 d)
    (requestLines c 2 (os.flatMap OscStep.ahead) d, x)

/-- A state-only step of a voice: its phases and modulation advance, with no interpolation and no feed; an oscillator
keeps its last outputs, and a pitch that clamps is counted (R59, R198, R199). -/
def voiceState (v t : Nat) (d : Dev) : Dev :=
  let d := evalNext v d
  let va := d.vaud v
  if !sounding (d.voice v) then d
  else
    let os := oscSteps d v va t
    let oscs := (List.range 3).map (fun i =>
      let o := at_ va.oscs i Osc.reset
      { ((os[i]?).map OscStep.osc).getD o with y1 := o.y1, y2 := o.y2 })
    cluBump (cluOf v) Reg.CLU_CNT_PITCH_CLAMP (os.filter OscStep.clamped).length
      (d.modVaud v (fun _ => framePast d v t va (os.flatMap OscStep.pins) (noiseStep t { va with oscs := oscs }).2))

end Sys2Proof.Machine
end

