-- ==== Sys2Proof/Machine/Cell.lean ====
section
/-! DEFINITION. The voice cell: its codes, the DAC interpolator and modulator, the Fm periods of an EF through DAC, drive
stage, filter and ADC, quench and overload (R255 to R284, R323 to R325), with the command CF_BOUNDARY (R35). -/

namespace Sys2Proof.Machine

open Sys2Proof

/-! ### Calibration records as used (R322, R323) -/

/-- STATUS.VALID of a record. -/
def recValid (r : List Byte) : Bool := (byteAt r 0).testBit 0

/-- KNOTj. -/
def recKnot (r : List Byte) (j : Nat) : Nat := if recValid r then halfAt r (8 + 2 * j) else 8192 * j

/-- TC. -/
def recTc (r : List Byte) : Int := if recValid r then signed 16 (halfAt r 0x18) else 0

/-- T_CAL, Q8.8. -/
def recTcal (r : List Byte) : Int := signed 16 (halfAt r 2)

/-- RES_GAIN. -/
def recResGain (r : List Byte) : Nat := if recValid r then halfAt r 0x1A else 0x4000

/-- BIAS, 8 bits. -/
def recBias (r : List Byte) : Nat := if recValid r then byteAt r 0x20 else 0

/-- OFFSET, in 2^−20 of full scale. -/
def recOffset (r : List Byte) : Int := if recValid r then signed 16 (halfAt r 0x1C) else 0

/-- GAIN, in 2^−18. -/
def recGain (r : List Byte) : Int := if recValid r then signed 16 (halfAt r 0x1E) else 0

/-- A record that a calibration without failure has measured (R277, R322). -/
def recMeasured (r : List Byte) : Bool := recValid r && !(byteAt r 0).testBit 1 && !(byteAt r 0).testBit 2

/-- T_c of a cluster: the latest reading of its sensor in Q8.8 (R324). -/
def sensorTemp (d : Dev) (c : Nat) : Int := 2 * signed 16 (at_ d.mgt.temps c 0)

/-- T_c as the slices of cluster c hold it, Q8.8; none before the first reading since the cluster woke (R324). -/
def tempOf (d : Dev) (c : Nat) : Option Int := (at_ d.mgt.passed c none).map (fun t => 2 * t)

/-- The control DAC code of a cutoff code (R324). -/
def ctrlCode (r : List Byte) (temp : Option Int) (c : Nat) : Nat :=
  let k (j : Nat) : Int := recKnot r j
  let d0 : Int :=
    if c < 57344 then
      let j := c / 8192
      k j + rneDiv ((k (j + 1) - k j) * ((c % 8192 : Nat) : Int)) 8192
    else k 7 + rneDiv ((k 7 - k 6) * ((c - 57344 : Nat) : Int)) 8192
  let term : Int := match temp with
    | some t => rneDiv (recTc r * (t - recTcal r)) (2 ^ 16)
    | none => 0
  (clampInt 0 65535 (d0 + term)).toNat

/-! ### Codes of a voice (R256, R262 to R265) -/

/-- The cutoff code of a voice at EF t (R264). -/
def cutoffAt (va : VAud) (key t : Nat) : Nat :=
  let fkey := clampInt (-256) 256 (signed 16 (halfAt va.base 0x88))
  (clampInt 0 65535 ((halfAt va.base 0x84 : Int) + rneDiv (((key : Int) - 60) * fkey * 32) 9 + contribAt va t 25)).toNat

/-- DRIVE with its modulation, in steps of 8 (R257, R262). -/
def driveAt (va : VAud) (t : Nat) : Nat :=
  let x := (clampInt 0 6144 ((min (halfAt va.base 0x80) 6144 : Nat) + contribAt va t 24)).toNat
  x - x % 8

/-- RESONANCE' (R265). -/
def resAt (va : VAud) (t : Nat) : Nat := (clampInt 0 65535 ((halfAt va.base 0x86 : Int) + contribAt va t 26)).toNat

/-- FMODE as used: other values read as LP4 (R255). -/
def fmodeOf (arm : List Byte) : Nat := let m := byteAt arm 0x82; if m ≤ 7 then m else 0

/-- Is a tile in EF q to q + 2 of a quench (R267)? -/
def inQuench (x : Tile) (now : Nat) : Bool :=
  match x.quench with
  | some q => decide (efSince now q < 3)
  | none => false

/-- The calibration run of slot v. -/
def calRunOf (d : Dev) (v : Nat) : Option CalRun := d.cal.runs.find? (fun r => r.slot == v)

/-- Is slot v under calibration (R187, R281)? -/
def underCal (d : Dev) (v : Nat) : Bool := (calRunOf d v).isSome

/-- The control DAC code a run applies in its step (R327, R328). -/
def calCtrl (r : CalRun) : Nat :=
  let k (j : Nat) : Nat := halfAt r.work (8 + 2 * j)
  if r.step = 2 then 0xFFFF else if r.step = 3 then k r.knot else if r.step = 4 then k 7 else k 4

/-- The mode of a run's step: LP1, BP2, LP1 and LP4 (R327). -/
def calMode (r : CalRun) : Nat := if r.step = 3 then 5 else if r.step = 5 then 0 else 3

/-- The raw feedback of a run, as RESONANCE' × RES_GAIN: the step of the search for the onset in step 5, else none
(R327).  A step of the search is 1/128 of k. DESIGN CHOICE (log 8), unsafe. -/
def calFeedback (r : CalRun) : Int := if r.step = 5 then 96 * 2 ^ 14 * (r.trial : Int) else 0

/-- The trim the cell applies: MAN_TRIM under OVR (80h as 81h), else the record's (R283, R284). -/
def biasOf (d : Dev) (v : Nat) (r : List Byte) : Nat :=
  let a := cluReg (cluOf v) (Reg.CLU_CELL_BIAS (v % 16))
  if d.flag a 31 then (if d.fld a 7 0 = 0x80 then 0x81 else d.fld a 7 0) else recBias r

/-- The codes of a voice's cell for EF t, from the read point in force: cutoff, resonance and feedback (R263 to
R265). -/
def cellApply (v t : Nat) (d : Dev) : Dev :=
  let va := d.vaud v
  let x := d.voice v
  if modulated x && !underCal d v then
    d.modTile v (fun y => { y with
      ctrl := ctrlCode y.kept (tempOf d (cluOf v)) (cutoffAt va x.key t), cut := cutoffAt va x.key t, res := resAt va t
      fbk := if inQuench y t then 0 else ((resAt va t * recResGain y.kept : Nat) : Int) })
  else d

/-- The codes a cell takes at release t: a voice's from its modulation, with a gain from the read point before; a
calibration's from its run; a FREE cell keeps its control code and has no feedback (R262 to R266, R284, R327). -/
def cellCodes (v t : Nat) (d : Dev) : Dev :=
  cellApply v t (d.modTile v (fun y =>
    let y := { y with ctrlLast := y.ctrl, resLast := y.res, bias := biasOf d v y.kept, driveLast := y.drive }
    match calRunOf d v with
    | some r => { y with ctrl := calCtrl r, cut := calCtrl r, drive := 0, res := 0, fbk := calFeedback r, mode := calMode r }
    | none => if modulated (d.voice v) then { y with drive := driveAt (d.vaud v) t } else { y with res := 0, fbk := 0 }))

/-! ### CF boundary (R35) -/

/-- The work of CF boundary B for one voice (R35, R224, R228, R264). -/
def cfVoice (B v : Nat) (d : Dev) : Dev :=
  if modulated (d.voice v) then cellApply v B (levelWrite v (evalVoice v B (cfRead v (evalNext v d)))) else d

/-- CF_BOUNDARY: at a release whose EF is a multiple of 4 the global LFOs compute their next value and every
active cluster reads and evaluates its voices (R35, R41, R224, R228, R242). -/
def cfBoundaryDev (d : Dev) : Dev :=
  if !(d.timerRuns && d.frame.released && d.now % 4 == 0 && d.aud.cfDone != some d.now) then d
  else
    let d1 := d.modAud (fun x => { x with
      cfDone := some d.now, glfo := (List.range 16).map (fun g => glfoStep d.seen g (at_ x.glfo g GLfo.reset)) })
    forUpTo 256 (fun v d => if d.active (cluOf v) then cfVoice d.now v d else d) d1

/-- CF_BOUNDARY (R35). -/
def execCfBoundary (s : State) : Host.Outcome State Fault Refusal := devNext s cfBoundaryDev

/-! ### Voice DAC (R258 to R260) -/

/-- One Fm period of the modulator: u with 27 fraction bits; the level, the state after, and a clip (R259). -/
def dacPeriod (u : Int) (e1 e2 : Int) : Int × Int × Bool :=
  let w := u * 4 - (e1 + e2)
  let raw := rneDiv w (2 ^ 26)
  let l := clampInt (-8) 8 raw
  (l, clampInt (-(2 ^ 30)) (2 ^ 30) (rneDiv (l * 2 ^ 26 - w) 2), raw != l)

/-! ### The cell in an EF (R258 to R265, R271, R272) -/

/-- What holds in a cell for an EF: element rotation, overload reset, rate, element weight, the drive gains before and
after, the cutoff it goes to, feedback, level of self-oscillation, mode, ADC offset, code bound and quench switch. -/
structure CellEnv where
  dem : Bool
  ovlReset : Bool
  fe : Nat
  weight : Int                      -- current of an element, 16 fraction bits (R322)
  gain0 : Int
  gain1 : Int
  cut : Int                         -- codes with 16 fraction bits
  k : Int
  level : Int
  mode : Nat
  offset : Int
  top : Int
  closed : Bool

/-- Do the figures of R277 hold for a cell: a measured record, no MAN_TRIM, no calibration (R277, R284)? -/
def cellTrue (d : Dev) (v : Nat) : Bool :=
  recMeasured (d.tile v).kept && !underCal d v && !d.flag (cluReg (cluOf v) (Reg.CLU_CELL_BIAS (v % 16))) 31

/-- A cell's own figure: what the circuit gives, held to the accuracy of R277 where that applies. -/
def held (ok : Bool) (lo hi x : Int) : Int := if ok then clampInt lo hi x else x

/-- CAL_CTL.THRESH in Q8.8: eighths of a degree (R336). -/
def calThresh (d : Dev) : Nat := 32 * max (d.fld Reg.CAL_CTL 15 8) 1

/-- How far a cell's temperature is from that of its record, as far as no background calibration follows it: nothing while CAL
is ON, the firmware runs and the difference is within THRESH, in Q8.8 (R277, R331, R334). -/
def driftGap (d : Dev) (v : Nat) : Nat :=
  let gap := (sensorTemp d (cluOf v) - recTcal (d.tile v).kept).natAbs
  if d.isOn Dom.cal && firmwareUp d && decide (gap ≤ calThresh d) then 0 else gap

/-- The cutoff of a cell, as a code with 16 fraction bits: that of its control code, within 5 cents of code c from 50 Hz
to 16 kHz and within 15 cents elsewhere, and 1.5 cents more for each °C that no calibration follows; 40 kHz at most (R264, R277,
R334). -/
def cellCut (ok : Bool) (gap v : Nat) (temp : Int) (x : Tile) : Int :=
  let c : Int := 2 ^ 16 * (min x.cut 61646 : Nat)
  let near : Int := 2 ^ 16 * (if 8977 ≤ x.cut ∧ x.cut ≤ 54426 then 22 else 68) + 1747 * (gap : Int)
  clampInt 0 (2 ^ 16 * 61646) (held ok (c - near) (c + near) (2 ^ 16 * (x.ctrl : Int) + Config.cellCutoff v temp))

/-- The weight of an element before its trim: within 5 per cent of 12.5 µA (R277, R322). -/
def rawWeight (v : Nat) (temp : Int) : Int := 2 ^ 16 + clampInt (-3276) 3276 (Config.cellGain v temp)

/-- The path gain of a cell by its record's trim: where R277's figures hold, within 0.05 dB of the device's, which is within
0.15 dB of nominal, so that any two cells match within 0.1 dB and each lies within 0.2 dB (R277). -/
def pathWeight (ok : Bool) (w : Int) : Int :=
  let mid := clampInt 64414 66678 (2 ^ 16 + Config.pathGain)
  held ok (mid * 65161 / 2 ^ 16) (mid * 65914 / 2 ^ 16) w

/-- The feedback k of a cell: that of RESONANCE' where the record's trim holds, else its own for the raw feedback
(R265, R324). -/
def cellFeedback (ok : Bool) (v : Nat) (temp : Int) (x : Tile) : Int :=
  if x.fbk = 0 then 0
  else if ok then feedbackOf x.res
  else x.fbk * 2 ^ 14 / 3 * (2 ^ 16 + clampInt (-(2 ^ 15)) (2 ^ 15) (Config.cellLoop v temp)) / 2 ^ 16

/-- Is a cell's input at rest, as in a FREE cell after a quench (R271)? -/
def cellRests (x : Tile) : Bool :=
  x.x0 == 0 && x.x1 == 0 && x.e1 == 0 && x.e2 == 0 && x.fbk == 0 &&
    [x.y.y1, x.y.y2, x.y.y3, x.y.y4].all (fun y => decide (y.natAbs < 2 ^ 30))

/-- What holds in cell v for the EF that now ends: a run has its own trims (R327).
How far a cell departs from the nominal is free. DESIGN CHOICE (log 4), safe. -/
def cellEnv (d : Dev) (v : Nat) : CellEnv :=
  let x := d.tile v
  let ok := cellTrue d v
  let temp := sensorTemp d (cluOf v)
  let rec_ := match calRunOf d v with
    | some r => r.work
    | none => x.kept
  let ctl := cluReg (cluOf v) Reg.CLU_CELL_CTL
  { dem := d.flag ctl 0, ovlReset := d.flag ctl 8, fe := d.fe
    weight := pathWeight ok (rawWeight v temp * (2 ^ 18 + recGain rec_) / 2 ^ 18)
    gain0 := driveGain x.driveLast, gain1 := driveGain x.drive
    cut := cellCut ok (driftGap d v) v temp x, k := cellFeedback ok v temp x
    level := selfLevel (if underCal d v then (x.fbk / 2 ^ 14).toNat else x.res), mode := x.mode
    offset := 2 ^ 20 * held ok (-1048) 1048 (clampInt (-32767) 32767 (Config.cellOffset v temp) + recOffset rec_)
    top := if cellRests x then 1 else 4, closed := x.closed }

/-- Runs of full-scale codes; a run that reaches 64 periods is an overload, once, and with OVL_RESET the loop is reset in
that period (R272). -/
def ovlRun (reset : Bool) (q : Int) (x : Tile) : Tile :=
  if q.natAbs ≠ 4 then { x with run := 0, declared := false }
  else if 64 ≤ x.run + 1 ∧ !x.declared then
    if reset then { x with run := 0, declared := false, err := 0, err2 := 0, ovlDue := x.ovlDue + 1 }
    else { x with run := x.run + 1, declared := true, ovlDue := x.ovlDue + 1 }
  else { x with run := x.run + 1 }

/-- The analogue part of Fm period j: the elements' current through drive stage, filter and ADC; while the quench switch
is closed the capacitors and the drive output are shorted (R260 to R265, R267, R271).
Rounded as log 4 says (DESIGN CHOICE, unsafe). -/
def cellPeriod (e : CellEnv) (j draw : Nat) (x : Tile) : Tile × Int :=
  let gain := slew e.fe e.gain0 e.gain1 j
  let noise := noiseIn e.k e.level (Config.cellNoise draw) x.y
  let y0 := if e.closed then 0 else driveOut gain (one40 / 16 * elementSum x.elems * e.weight / 2 ^ 16) + noise
  let cut := settleInput e.fe e.cut x.cutNow
  let k := regulate e.k e.level x.y
  let y := if e.closed then Stages.zero else x.y.run (cutoffAngle e.fe cut) k y0
  let p := quantise e.top (Config.adcPick draw) (y.mix e.mode k y0 + e.offset) x.err x.err2
  (ovlRun e.ovlReset p.1 { x with cutNow := cut, y := y, err := p.2, err2 := x.err }, p.1)

/-- The digital part of Fm period j: interpolation, modulation and the choice of elements; true for a clip
(R258 to R260). DEDUCED (log 4), unsafe. -/
def dacStep (dem : Bool) (j : Nat) (x : Tile) : Tile × Bool :=
  let p := dacPeriod (16 * x.x1 + (x.x0 - x.x1) * (j : Int)) x.e1 x.e2
  let n := (8 + p.1).toNat
  ({ x with e2 := x.e1, e1 := p.2.1, elems := elementMask (if dem then x.dem else 0) n
            dem := if dem then (x.dem + n) % 16 else x.dem }, p.2.2)

/-- The Fm periods of an EF: the tile after them, whether the DAC quantiser clipped, and the ADC codes. -/
def cellPeriods (e : CellEnv) (draw : Nat) : List Nat → Tile → Tile × Bool × List Int
  | [], x => (x, false, [])
  | j :: r, x =>
    let a := dacStep e.dem j x
    let b := cellPeriod e j (draw + j) a.1
    let c := cellPeriods e draw r b.1
    (c.1, a.2 || c.2.1, b.2 :: c.2.2)

/-- The EF that ends at a cell, with its 16 ADC codes (R258 to R273). -/
def cellRun (v : Nat) (d : Dev) : Dev × List Int :=
  let p := cellPeriods (cellEnv d v) d.fresh (List.range 16) (d.tile v)
  let d := { (d.modTile v (fun _ => p.1)) with fresh := d.fresh + 16 }
  (if p.2.1 then cluIrq (cluOf v) Reg.CLU_CELL_IRQ_STAT 1 (cluBump (cluOf v) Reg.CLU_CNT_DAC_CLIP 1 d) else d, p.2.2)

/-- The interpolator at release t: it takes its new input, or holds its last one, or the zero a quench forces
(R258, R267). -/
def dacLatch (v t : Nat) (d : Dev) : Dev :=
  d.modTile v (fun y =>
    if inQuench y t then { y with x1 := 0, x0 := 0, feed := none }
    else { y with x1 := y.x0, x0 := y.feed.getD y.x0, feed := none })

/-! ### Quench (R266 to R269) -/

/-- A quench in the present EF: the modulator's registers and its input go to zero, the feedback to zero, the
switch closes on the filter and the ADC's loop; one already under way is not started again (R267, R269). -/
def quenchCell (v : Nat) (again : Bool) (d : Dev) : Dev :=
  d.modTile v (fun y =>
    if inQuench y d.now && !again then y
    else { y with quench := some d.now, closed := true, e1 := 0, e2 := 0, x0 := 0, x1 := 0, feed := some 0, fbk := 0
                  y := Stages.zero, err := 0, err2 := 0, run := 0, declared := false })

/-- QUENCH_SWITCH_OPEN: 1 µs into EF q the switch opens and the ADC restarts from a zero state (R267). -/
def quenchSwitchOpenDev (v : Nat) (d : Dev) : Dev :=
  if v < 256 then
    d.modTile v (fun y => if y.closed then { y with closed := false, err := 0, err2 := 0, run := 0, declared := false } else y)
  else d

/-- QUENCH_SWITCH_OPEN (R267). -/
def execQuenchSwitchOpen (v : Nat) (s : State) : Host.Outcome State Fault Refusal := devNext s (quenchSwitchOpenDev v)

/-! ### Overload (R272) -/

/-- ADC_OVERLOAD: an overload that a run has reached is declared (R272). -/
def adcOverloadDev (v : Nat) (d : Dev) : Dev :=
  let c := cluOf v
  if v < 256 ∧ 0 < (d.tile v).ovlDue then
    let d := d.modTile v (fun x => { x with ovlDue := x.ovlDue - 1 })
    (cluBump c Reg.CLU_CNT_ADC_OVL 1 (cluIrq c Reg.CLU_CELL_IRQ_STAT 0 d)).putFlag (cluReg c (Reg.CLU_CELL_STAT (v % 16))) 8 true
  else d

/-- ADC_OVERLOAD (R272). -/
def execAdcOverload (v : Nat) (s : State) : Host.Outcome State Fault Refusal := devNext s (adcOverloadDev v)

/-- BIAS_FAULT: a cell's bias current has left its trim range (R280). -/
def biasFaultDev (v : Nat) (d : Dev) : Dev := if v < 256 then cluIrq (cluOf v) Reg.CLU_CELL_IRQ_STAT 2 d else d

/-- BIAS_FAULT (R280). -/
def execBiasFault (v : Nat) (s : State) : Host.Outcome State Fault Refusal := devNext s (biasFaultDev v)

/-- CLU_CELL_STATt: OVL is the register's own, the rest the tile's (R281). -/
def cellStat (d : Dev) (v : Nat) : Word :=
  let x := d.tile v
  let b (n : Nat) (p : Bool) : Nat := if p then 2 ^ n else 0
  BitVec.ofNat 32 (x.ctrlLast * 2 ^ 16 + x.mode * 2 ^ 12 + b 11 (inQuench x d.now) + b 10 (underCal d v)
    + b 9 (decide (0xC000 ≤ x.resLast)) + b 8 (d.flag (cluReg (cluOf v) (Reg.CLU_CELL_STAT (v % 16))) 8)
    + min ((x.peakLast * 256 + 2 ^ 23 - 1) / 2 ^ 23) 255)

end Sys2Proof.Machine
end

