-- ==== Sys2Proof/Machine/Skimmer.lean ====
section
/-! DEFINITION. The Skimmer: stages A, B and C, bank swaps and cross-fades, synchronising resets, and the
voice output stage behind it (R274 to R276, R285 to R316). -/

namespace Sys2Proof.Machine

open Sys2Proof

/-! ### Stages A and B (R288, R291) -/

/-- One code through the four integrators, each adding what the one before it has become (R288). -/
def integrate (q : Int) : List Nat → Nat → List Nat
  | [], _ => []
  | x :: r, add =>
    let y := (x + add) % 2 ^ 20
    y :: integrate q r y

/-- One sample through the combs: D, and the histories after (R288). -/
def combRun (m : Nat) : List (List Nat) → Nat → Nat × List (List Nat)
  | [], x => (x, [])
  | h :: r, x =>
    let dif := (x + 2 ^ 20 - h.getD (m - 1) 0) % 2 ^ 20
    let rest := combRun m r dif
    (rest.1, (x :: h).take 2 :: rest.2)

/-- Eight codes, then a sample of stage A (R288). -/
def stageA (m : Nat) (codes : List Int) (x : Tile) : Tile :=
  let integ := codes.foldl (fun s q => integrate q s (unsigned 20 q)) x.integ
  let p := combRun m x.combs (integ.getD 3 0)
  let a := signed 20 p.1 * (if m = 2 then 2 ^ 5 else 2 ^ 9)
  { x with integ := integ, combs := p.2, aHist := (a :: x.aHist).take 33 }

/-- b formed from the 31 stage A outputs that end at a_(2m+1), two EF old (R291, R296). -/
def stageB (x : Tile) : Tile :=
  let b := rneDiv (dot halfTaps ((List.range 31).map (fun i => x.aHist.getD (i + 2) 0))) (2 ^ 17)
  { x with bHist := (b :: x.bHist).take 35 }

/-- What the EF that ended has formed and delivered is kept for CLU_SKM_PROBE (R315). -/
def probeRoll (x : Tile) : Tile := { x with probeA := x.aHist.getD 0 0, probeB := x.bHist.getD 0 0, outLast := x.out }

/-- A release at a tile's chain: the probe's values roll on; the codes of the EF that ended enter stage A, and stage B forms
its output (R288, R296, R315). -/
def skimRelease (v : Nat) (codes : List Int) (d : Dev) : Dev :=
  let m := if (d.clu (cluOf v)).lenM then 2 else 1
  d.modTile v (fun x => stageB (stageA m (codes.drop 8) (stageA m (codes.take 8) (probeRoll x))))

/-! ### Stage C (R292, R293, R298) -/

/-- Coefficient C_i of a bank (true is B). -/
def coefReg (c : Nat) (bank : Bool) (i : Nat) : Nat :=
  cluReg c (if bank then Reg.CLU_SKM_COEFB i else Reg.CLU_SKM_COEFA i)

/-- The result of a bank for the EF delivered now: b of five EF ago and before (R292, R296). -/
def bankResult (d : Dev) (c : Nat) (bank : Bool) (x : Tile) : Int :=
  rneDiv ((List.range 32).foldl (fun s i =>
    s + signed 20 (d.fld (coefReg c bank i) 19 0) * x.bHist.getD (i + 3) 0) 0) (2 ^ 17)

/-- The Skimmer output before saturation: a bank's result, or the blend of a fade (R293, R298). -/
def skimBlend (d : Dev) (c : Nat) (x : Tile) : Int :=
  let q := d.clu c
  match q.fade with
  | none => bankResult d c q.active x
  | some f =>
    let j := min (f.pos + 1) (2 ^ f.log)
    rneDiv (bankResult d c f.old x * ((2 ^ f.log - j : Nat) : Int) + bankResult d c q.active x * (j : Int)) (2 ^ f.log)

/-- Is a cluster in the 12 EF of zero output after a reset (R304)? -/
def zeroPeriod (d : Dev) (c : Nat) : Bool :=
  match (d.clu c).zeroAt with
  | some r => decide (efSince d.now r < 12)
  | none => false

/-- The output of a tile for the present EF (R293, R296, R304). -/
def skimOut (v : Nat) (d : Dev) : Dev :=
  let c := cluOf v
  let raw := if zeroPeriod d c then 0 else skimBlend d c (d.tile v)
  let y := satSigned 24 raw
  let d := d.modTile v (fun x => { x with out := y, peak := max x.peak y.natAbs })
  if y = raw then d else cluIrq c Reg.CLU_SKM_IRQ_STAT 1 (cluBump c Reg.CLU_CNT_SKM_SAT 1 d)

/-! ### Swaps and fades (R298 to R302) -/

/-- Is a cluster's fade still running at the present EF?  Its EF are those in which outputs are delivered (R298). -/
def fading (d : Dev) (c : Nat) : Bool :=
  match (d.clu c).fade with
  | some f => decide (f.pos < 2 ^ f.log)
  | none => false

/-- FADE_LOG2 as used (R310). DEDUCED (log 34), unsafe. DEDUCED (log 39), unsafe. -/
def fadeLog (d : Dev) (c : Nat) : Nat := min (d.fld (cluReg c Reg.CLU_SKM_CTL) 3 0) 10

/-- A swap requested in the present EF (R298, R300). -/
def swapRequest (c : Nat) (d : Dev) : Dev :=
  let x := d.clu c
  let at2 := efAdd d.now 2
  if x.held.isSome then cluIrq c Reg.CLU_SKM_IRQ_STAT 3 (cluBump c Reg.CLU_CNT_SKM_REJ 1 d)
  else if fading d c || x.swapAt.isSome then d.modClu c (fun x => { x with held := some at2 })
  else d.modClu c (fun x => { x with swapAt := some at2 })

/-- SWAP: writing CLU_SKM_BANK.SWAP (R298). -/
def swapDev (c : Nat) (v : Word) (d : Dev) : Dev :=
  if decide (c < 16) && d.cluOn c && v.getLsbD 16 && !v.getLsbD 17 then swapRequest c d else d

/-- SWAP (R298). -/
def execSwap (c : Nat) (value : Word) (s : State) : Host.Outcome State Fault Refusal := hostNext s (swapDev c value)

/-- SWAP_ALL: writing CLU_SKM_BANK.ALL requests a swap in every cluster that is ON (R301). -/
def swapAllDev (c : Nat) (v : Word) (d : Dev) : Dev :=
  if decide (c < 16) && d.cluOn c && v.getLsbD 17 then
    forUpTo 16 (fun k d => if d.cluOn k then swapRequest k d else d) d
  else d

/-- SWAP_ALL (R301). -/
def execSwapAll (c : Nat) (value : Word) (s : State) : Host.Outcome State Fault Refusal := hostNext s (swapAllDev c value)

/-- The swap whose fade can start now: the pending one, or after a fade the held one; none at the release of a
synchronising reset (R298, R300, R305). -/
def swapReady (d : Dev) (c : Nat) : Option Bool :=
  let x := d.clu c
  if fading d c || x.resets.any (efReached d.now) then none
  else match x.swapAt with
    | some r => if efReached d.now r then some false else none
    | none => match x.held with
      | some r => if efReached d.now r then some true else none
      | none => none

/-- FADE_START: a swap's fade starts: ACTIVE changes to the other bank and FADING sets.  In a cluster that no release has
reached since it became active the swap waits for the reset there (R298, R300, R305). -/
def fadeStartDev (c : Nat) (d : Dev) : Dev :=
  if !(decide (c < 16) && d.active c && d.frame.audio && (d.clu c).wasActive) then d
  else match swapReady d c with
    | some wasHeld => d.modClu c (fun x => { x with
        fade := some { pos := 0, log := fadeLog d c, old := x.active }, active := !x.active
        swapAt := if wasHeld then x.swapAt else none, held := if wasHeld then none else x.held })
    | none => d

/-- FADE_START (R298). -/
def execFadeStart (c : Nat) (s : State) : Host.Outcome State Fault Refusal := devNext s (fadeStartDev c)

/-- The next EF of a cluster's fade, at a release at which it is active (R298). -/
def fadeStep (c : Nat) (d : Dev) : Dev :=
  d.modClu c (fun x => { x with fade := x.fade.map (fun f => { f with pos := min (f.pos + 1) (2 ^ f.log) }) })

/-- FADE_END: at the release after the last EF of the fade FADING clears (R298). -/
def fadeEndDev (c : Nat) (d : Dev) : Dev :=
  if decide (c < 16) && (d.clu c).fade.isSome && !fading d c then d.modClu c (fun x => { x with fade := none }) else d

/-- FADE_END (R298). -/
def execFadeEnd (c : Nat) (s : State) : Host.Outcome State Fault Refusal := devNext s (fadeEndDev c)

/-- Is a bank live (R302)? -/
def bankLive (d : Dev) (c : Nat) (bank : Bool) : Bool :=
  (d.clu c).active == bank || fading d c || (d.clu c).held.isSome

/-- A coefficient is stored, or ignored and counted for a live bank; a list of the boot image may load either bank before
the engine is enabled (R294, R302, R316). -/
def coefWrite (list : Bool) (c : Nat) (bank : Bool) (i : Nat) (v : Word) (d : Dev) : Dev :=
  if !(decide (c < 16) && decide (i < 32) && d.cluOn c) then d
  else if bankLive d c bank && !(list && !d.engEn) then cluIrq c Reg.CLU_SKM_IRQ_STAT 2 (cluBump c Reg.CLU_CNT_SKM_REJ 1 d)
  else d.putReg (coefReg c bank i) (BitVec.ofNat 32 (v.bits 19 0))

/-- SKIMMER_COEF_WRITE: a coefficient written (R302). -/
def skimmerCoefWriteDev (c : Nat) (bank : Bool) (i : Nat) (v : Word) (d : Dev) : Dev := coefWrite false c bank i v d

/-- SKIMMER_COEF_WRITE (R302). -/
def execSkimmerCoefWrite (c : Nat) (bank : Bool) (i : Nat) (value : Word) (s : State) : Host.Outcome State Fault Refusal :=
  hostNext s (skimmerCoefWriteDev c bank i value)

/-! ### Synchronising resets (R303 to R306) -/

/-- A synchronising reset scheduled for a release. -/
def resetAt (c r : Nat) (d : Dev) : Dev :=
  d.modClu c (fun x => { x with resets := if x.resets.contains r then x.resets else x.resets ++ [r] })

/-- SKIMMER_RESET: CLU_SKM_CTL written: FADE_LOG2 is stored (11 to 15 are used as 10), LEN_M if the lock allows; RESET or
a changed LEN_M schedules a synchronising reset at release k + 2, and M changes there (R289, R303, R310).  The lock keeps LEN_M, and
VIOL sets if the write would change it (R12). -/
def skmCtlWrite (lock : Bool) (c : Nat) (v : Word) (d : Dev) : Dev :=
  if !(decide (c < 16) && d.cluOn c) then d
  else
    let a := cluReg c Reg.CLU_SKM_CTL
    let len := !lock && v.getLsbD 4 != d.flag a 4
    let d := lockViol lock a v d
    let d := d.putFld a 3 0 (v.bits 3 0)
    let d := if len then
      (d.putFlag a 4 (v.getLsbD 4)).modClu c (fun x => { x with lens := x.lens ++ [(efAdd d.now 2, v.getLsbD 4)] }) else d
    if v.getLsbD 8 || len then resetAt c (efAdd d.now 2) d else d

/-- SKIMMER_RESET: a write of CLU_SKM_CTL (R303, R12). -/
def execSkimmerReset (c : Nat) (value : Word) (s : State) : Host.Outcome State Fault Refusal :=
  hostNext s (skmCtlWrite s.prot.lock c value)

/-- The filter memory of a tile cleared by a Skimmer reset (R304). -/
def skimTileClear (x : Tile) : Tile :=
  { x with integ := [0, 0, 0, 0], combs := List.replicate 4 [], aHist := [], bHist := [] }

/-- The reset itself, at release r: every history cleared, the outputs zero for 12 EF, a running fade complete,
a swap that would start now, and a held one, moved to r + 12, and a change of LEN_M that waited for this reset in force
(R289, R304, R305). DEDUCED (log 34), unsafe. -/
def skimReset (c : Nat) (d : Dev) : Dev :=
  let r12 := efAdd d.now 12
  let d := d.modClu c (fun x => { x with
    resets := x.resets.filter (fun r => !efReached d.now r), zeroAt := some d.now, valid := false
    lenM := ((x.lens.filter (fun e => efReached d.now e.1)).getLast?.map Prod.snd).getD x.lenM
    lens := x.lens.filter (fun e => !efReached d.now e.1), fade := none
    swapAt := x.swapAt.map (fun r => if efReached d.now r then r12 else r)
    held := x.held.map (fun _ => r12) })
  let d := forUpTo 16 (fun t d => d.modTile (16 * c + t) skimTileClear) d
  (cluIrq c Reg.CLU_SKM_IRQ_STAT 0 (cluBump c Reg.CLU_CNT_SKM_RESET 1 d)).emit 23 1

/-- SKIMMER_VALID: at r + 12 VALID sets (R304). -/
def skimmerValidDev (c : Nat) (d : Dev) : Dev :=
  if decide (c < 16) && !(d.clu c).valid && (d.clu c).zeroAt.isSome && !zeroPeriod d c then
    d.modClu c (fun x => { x with valid := true, zeroAt := none })
  else d

/-- SKIMMER_VALID (R304). -/
def execSkimmerValid (c : Nat) (s : State) : Host.Outcome State Fault Refusal := devNext s (skimmerValidDev c)

/-- CLU_SKM_BANK (R311). DEDUCED (log 34), unsafe. -/
def skmBank (d : Dev) (c : Nat) : Word :=
  let x := d.clu c
  let pos := match x.fade with
    | some f => if fading d c then f.pos else 0
    | none => 0
  let b (n : Nat) (p : Bool) : Nat := if p then 2 ^ n else 0
  BitVec.ofNat 32 (pos * 16 + b 3 x.held.isSome + b 2 x.fade.isSome + b 0 x.active)

/-- CLU_SKM_STAT (R312). -/
def skmStat (d : Dev) (c : Nat) : Word :=
  let x := d.clu c
  let left := match x.zeroAt with
    | some r => 12 - efSince d.now r
    | none => 0
  BitVec.ofNat 32 ((if x.valid then 256 else 0) + left)

/-- CLU_SKM_PROBE (R315). -/
def skmProbe (d : Dev) (c : Nat) : Word :=
  let a := cluReg c Reg.CLU_SKM_PROBE_SEL
  let x := d.tile (16 * c + d.fld a 3 0)
  let s := d.fld a 5 4
  BitVec.ofInt 32 (if s = 0 then x.probeA else if s = 1 then x.probeB else if s = 2 then x.outLast else 0)

/-! ### Voice output stage (R274 to R276) -/

/-- FADE at the present EF (R274). -/
def fadeGain (x : Voice) (now : Nat) : Int :=
  if x.state = .stealing then
    let n := efSince now x.fadeAt
    if x.fadeLen ≤ n then 0 else rneDiv (2 ^ 23 * ((x.fadeLen - n : Nat) : Int)) x.fadeLen
  else one23

/-- The sends of a voice for the Skimmer sample of the present EF: bus and value (R274 to R276). -/
def sendsOf (d : Dev) (v : Nat) : List (Nat × Int) :=
  let x := d.voice v
  let va := d.vaud v
  if !sounding x then []
  else match va.gains[6]? with
    | none => []
    | some p =>
      let g := rneDiv (p.env0 * p.ampf) (2 ^ 23)
      let g := rneDiv (g * (p.amp : Int)) (2 ^ 15)
      let g := rneDiv (g * fadeGain x d.now) (2 ^ 23)
      let y := rneDiv ((d.tile v).out * g) (2 ^ 23)
      let law := byteAt va.arm 0x90
      let pp : Nat := (p.pan + 32768).toNat
      let gr : Int := if law = 1 then rneDiv (pp : Int) 2 else panGain pp
      let gl : Int := if law = 1 then rneDiv (65536 - (pp : Int)) 2 else panGain (65536 - pp)
      (List.range 4).flatMap (fun n =>
        let bus := byteAt va.arm (0x94 + 4 * n)
        let lv : Int := p.levels.getD n 0
        if lv = 0 then []
        else if bus.testBit 6 then
          [(bus % 64, rneDiv (y * gl * lv) (2 ^ 30)), ((bus + 1) % 64, rneDiv (y * gr * lv) (2 ^ 30))]
        else [(bus % 64, rneDiv (y * lv) (2 ^ 15))])

/-- A cluster's contribution: its sends summed by bus. -/
def sumSends (ss : List (Nat × Int)) : List Int :=
  ss.foldl (fun a p => upd a p.1 (· + p.2)) (List.replicate 64 0)

/-- The frame of a cluster: its voices' pipelines, its Skimmer outputs and, when delivered on time, its
contribution; a late frame keeps its state and throws its output away (R42, R58).  While the mix engine fades
a held contribution after a flush, it goes on holding it (R59). -/
def clusterFrame (c : Nat) (onTime : Bool) (d : Dev) : Dev :=
  let d := forUpTo 16 (fun t d =>
    let v := 16 * c + t
    let p := voiceFrame v d.now d
    if underCal d v then p.1
    else p.1.modTile v (fun x => { x with feed := if onTime then some p.2 else none })) d
  let d := forUpTo 16 (fun t d => skimOut (16 * c + t) d) d
  let fades := match (d.clu c).fadeAt with
    | some r => decide (efSince d.now r < 11)
    | none => false
  if onTime && !fades then
    d.modClu c (fun x => { x with contrib := sumSends ((List.range 16).flatMap (fun t => sendsOf d (16 * c + t))), fadeAt := none })
  else d

end Sys2Proof.Machine
end

