-- ==== Sys2Proof/Machine/Calib.lean ====
section
/-! DEFINITION. The Transit detectors, calibration runs and their records (R317 to R341), with the commands of
the CAL block but for foreground calibration, which stands with the boot. -/

namespace Sys2Proof.Machine

open Sys2Proof

/-- The calibration unit changed. -/
def Dev.modCal (d : Dev) (f : Cal → Cal) : Dev := { d with cal := f d.cal }

/-- The run of slot v changed. -/
def Dev.modRun (d : Dev) (v : Nat) (f : CalRun → CalRun) : Dev :=
  d.modCal (fun x => { x with runs := x.runs.map (fun r => if r.slot = v then f r else r) })

/-- The calibration record of slot v (R322). -/
def recordOf (d : Dev) (v : Nat) : List Byte := d.seen.psBytes (calRec v) 64

/-- A half word put into a record being made. -/
def putHalf (w : List Byte) (k v : Nat) : List Byte :=
  (w.set k (BitVec.ofNat 8 v)).set (k + 1) (BitVec.ofNat 8 (v / 256))

/-! ### Measurements (R319 to R321) -/

/-- The phase increment of a frequency given as its value × 2^8 × 2^32 (R319). -/
def incOfFreq (fe f : Nat) : Nat := (rneDiv (f : Int) (256 * fe)).toNat

/-- f_j × 2^40 for knot j: f_j = 16 × 2^(1.5 j) Hz (R327). -/
def knotFreq (j : Nat) : Nat := isqrt (2 ^ (88 + 3 * j))

/-- A window of whole cycles: at least four of them and at least `least` EF long (R327, R328).
DEDUCED (log 33), unsafe. -/
def wholeWindow (inc least : Nat) : Nat :=
  let cycles := max 4 ((least * inc + 2 ^ 32 - 1) / 2 ^ 32)
  (rneDiv ((cycles * 2 ^ 32 : Nat) : Int) (if inc = 0 then 1 else inc)).toNat

/-- A measurement set up for the run's step, to start at a release (R319, R327, R328).  The settle length is
stated for step 3 alone; for steps 2 and 4 it is a free value (DESIGN CHOICE, log 8, safe); a step of the search for the
onset ends 2,048 EF after it is applied, with the 1,024 Hz of step 4 as its reference. DEDUCED (log 33), unsafe. -/
def measure (fe start : Nat) (r : CalRun) : CalRun :=
  let base := { r with start := start, re := 0, im := 0 }
  if r.step = 3 then
    let inc := incOfFreq fe (knotFreq r.knot)
    { base with settle := 64, inc := inc, amp := 8192, window := wholeWindow inc 1024 }
  else if r.step = 4 then
    let inc := incOfFreq fe (1024 * 2 ^ 40)
    { base with settle := Config.calSettle 4 % 65536, inc := inc, amp := 8192, window := wholeWindow inc 0 }
  else if r.step = 5 then
    { base with settle := 0, inc := incOfFreq fe (1024 * 2 ^ 40), amp := 0, window := 2044 }
  else { base with settle := Config.calSettle r.step % 65536, inc := 0, amp := 0, window := 2048 }

/-- The stimulus of a run at release n, in Q1.23 (R319). -/
def stimulus (r : CalRun) (n : Nat) : Int :=
  if efReached n r.start && r.amp != 0 then sinRne ((r.amp : Int) * 2 ^ 8) (r.inc * efSince n r.start % 2 ^ 32) else 0

/-- D_p in eighths of an EF (R320). -/
def pathDelay (lenM : Bool) : Nat := if lenM then 84 else 76

/-- Is the measurement of a run taking stage B outputs at release n (R319)? -/
def correlating (r : CalRun) (n : Nat) : Bool :=
  efReached n r.start && decide (r.settle + 4 ≤ efSince n r.start) && decide (efSince n r.start ≤ r.settle + r.window + 3)

/-- One stage B output taken by the correlator at release n: that of EF n − 2 (R319, R320). DEDUCED (log 33), unsafe. -/
def correlate (lenM : Bool) (b : Int) (n : Nat) (r : CalRun) : CalRun :=
  if !correlating r n then r
  else if r.inc = 0 then { r with re := r.re + b }
  else
    let phi : Nat := r.inc * (efSince n r.start - 2)
    let psi := (((phi : Int) - rneDiv ((r.inc * pathDelay lenM : Nat) : Int) 8) % 2 ^ 32).toNat
    { r with
      re := r.re + b * sinRne (2 ^ 17) psi, im := r.im + b * sinRne (2 ^ 17) ((psi + 2 ^ 30) % 2 ^ 32) }

/-- RE and IM of a measurement, in Q2.29 (R320). -/
def resultOf (r : CalRun) : Int × Int :=
  if r.inc = 0 then (rneDiv (r.re * 2 ^ 6) r.window, 0)
  else (rneDiv r.re (r.window * 2 ^ 10), rneDiv r.im (r.window * 2 ^ 10))

/-- Release n at a cell under calibration: its channel's stimulus and correlator (R318, R319). -/
def calRelease (v n : Nat) (d : Dev) : Dev :=
  match calRunOf d v with
  | none => d
  | some r =>
    let b := (d.tile v).bHist.getD 0 0
    let d := d.modRun v (correlate (d.clu (cluOf v)).lenM b n)
    d.modTile v (fun x => { x with feed := some (stimulus r n) })

/-- A reset of a cluster's Skimmer discards each measurement whose window it meets, which starts again (R321). -/
def calSkimReset (c : Nat) (d : Dev) : Dev :=
  d.modCal (fun x => { x with runs := x.runs.map (fun r =>
    if cluOf r.slot = c ∧ correlating r d.now then measure d.fe (efAdd d.now 1) r else r) })

/-! ### Steps (R327 to R329) -/

/-- A step that fails leaves its fields as before the run, and the first failed step is kept (R329). -/
def stepFails (r : CalRun) (step : Nat) (keep : List Nat) : CalRun :=
  { r with
    failStep := if r.failStep = 0 then step else r.failStep
    work := keep.foldl (fun w k => w.set k (r.old.getD k 0)) r.work }

/-- A binary search of BIAS, n steps left: each moves the trim away from what the comparator finds, by half the step
before (R327). DESIGN CHOICE (log 8), unsafe. -/
def biasSearch (slot : Nat) : Nat → Int → Int
  | 0, b => b
  | n + 1, b =>
    biasSearch slot n (clampInt (-127) 127 (if Config.biasHigh slot b then b - 2 ^ n else b + 2 ^ n))

/-- Step 1: eight steps of the search, from the stored BIAS; it fails at ±127 (R327, R329). -/
def biasStep (r : CalRun) : CalRun :=
  let b := biasSearch r.slot 8 (signed 8 (byteAt r.work 0x20))
  if b.natAbs = 127 then stepFails r 1 [0x20] else { r with work := r.work.set 0x20 (BitVec.ofInt 8 b) }

/-- The bytes of KNOT0 to KNOT7. -/
def knotBytes : List Nat := (List.range 16).map (· + 8)

/-- KNOTj of a record being made. -/
def workKnot (w : List Byte) (j : Nat) : Nat := halfAt w (8 + 2 * j)

/-- Step 3 ends well: KNOT2 to KNOT7 must rise strictly; KNOT1 and KNOT0 follow from them (R327, R329). -/
def knotsDone (r : CalRun) : CalRun :=
  if [2, 3, 4, 5, 6].all (fun j => decide (workKnot r.work j < workKnot r.work (j + 1))) then
    let k2 := workKnot r.work 2
    let k3 := workKnot r.work 3
    { r with work := putHalf (putHalf r.work 10 (2 * k2 - k3)) 8 (3 * k2 - 2 * k3) }
  else stepFails r 3 knotBytes

/-- The step after one that has ended: its first measurement is set up; step 5 tries a raw feedback of half its range first
(R327). DEDUCED (log 33), unsafe. -/
def nextStep (fe start step : Nat) (r : CalRun) : CalRun :=
  measure fe start { r with step := step, knot := 7, tries := 0, trial := 512 }

/-- Step 2 with a result: OFFSET moves by RNE(RE × 2^−9), twice (R327, R329). -/
def offsetStep (fe start : Nat) (re : Int) (r : CalRun) : CalRun :=
  let o := signed 16 (halfAt r.work 0x1C) - rneDiv re (2 ^ 9)
  if o < -32768 ∨ 32767 < o then nextStep fe start 3 (stepFails r 2 [0x1C, 0x1D])
  else
    let r := { r with work := putHalf r.work 0x1C (unsigned 16 o) }
    if r.tries = 0 then measure fe start { r with tries := 1 } else nextStep fe start 3 r

/-- The test of w = (|r| − IM) / RE against 0.5 and 2.0, on the squares of |r| (R328). -/
def knotOutside (re im : Int) : Bool :=
  let m := re * re + im * im
  decide (re ≤ 0) || (decide (0 < re + 2 * im) && decide (4 * m < (re + 2 * im) * (re + 2 * im))) ||
    decide (2 * re + im < 0) || decide ((2 * re + im) * (2 * re + im) < m)

/-- RNE(5,461.33 × log2 w), with |r| to 32 fraction bits (R328). -/
def knotMove (re im : Int) : Int :=
  let mag := isqrt ((re * re + im * im).toNat * 2 ^ 64)
  rneDiv (log2Fix ((mag : Int) - im * 2 ^ 32).toNat (re.toNat * 2 ^ 32) * 65536) (12 * 2 ^ 48)

/-- Step 3 with a result for a knot: the Knot method (R328).  w = (|r| − IM) / RE is tan((90° − θ) / 2);
|θ| ≤ 0.25° is |IM| ≤ RE tan 0.25°. DEDUCED (log 33), unsafe. -/
def knotStep (fe start : Nat) (re im : Int) (r : CalRun) : CalRun :=
  if knotOutside re im then nextStep fe start 4 (stepFails r 3 knotBytes)
  else
    let k : Int := (workKnot r.work r.knot : Int) + knotMove re im
    let r := { r with work := putHalf r.work (8 + 2 * r.knot) (clampInt 0 65535 k).toNat }
    if (im.natAbs : Int) * 10 ^ 15 ≤ re * 4363350820702 then
      if r.knot = 2 then nextStep fe start 4 (knotsDone r)
      else measure fe start { r with knot := r.knot - 1, tries := 0 }
    else if r.tries < 2 then measure fe start { r with tries := r.tries + 1 }
    else nextStep fe start 4 (stepFails r 3 knotBytes)

/-- RNE(√(n / d)). -/
def sqrtRne (n d : Nat) : Nat :=
  let h := isqrt (4 * n / d)
  if h % 2 = 1 ∧ h * h * d = 4 * n then (let k := h / 2; if k % 2 = 0 then k else k + 1) else (h + 1) / 2

/-- Step 4 with a result: GAIN moves by RNE(2^18 × (E / |r| − 1)), twice; E / |r| = √(2^52 × 46,341² /
((46,341² + 2,048²) × (RE² + IM²))) with RE and IM in Q2.29 (R327, R329). -/
def gainStep (fe start : Nat) (re im : Int) (r : CalRun) : CalRun :=
  let m2 := (re * re + im * im).toNat
  let q : Int := sqrtRne (46341 ^ 2 * 2 ^ 88) ((46341 ^ 2 + 2048 ^ 2) * max m2 1)
  let g := signed 16 (halfAt r.work 0x1E) + (q - 2 ^ 18)
  if m2 = 0 ∨ g < -32768 ∨ 32767 < g then nextStep fe start 5 (stepFails r 4 [0x1E, 0x1F])
  else
    let r := { r with work := putHalf r.work 0x1E (unsigned 16 g) }
    if r.tries = 0 then measure fe start { r with tries := 1 } else nextStep fe start 5 r

/-- The search for the onset has ended with a raw feedback of n / 128 (none found for n = 0): RES_GAIN follows, and the run
is complete (R327, R329). -/
def onsetFound (n : Nat) (r : CalRun) : CalRun :=
  let g := rneDiv (2 ^ 23) n
  if n ≠ 0 ∧ 0x2000 ≤ g ∧ g ≤ 0x7FFF then { r with work := putHalf r.work 0x1A g.toNat, step := 6 }
  else { stepFails r 5 [0x1A, 0x1B] with step := 6 }

/-- Step 5 with a result: the binary search of ten steps for the smallest raw feedback at which |r| exceeds 0.01
(R327).  The raw feedback runs in steps of 1/128 of k. DESIGN CHOICE (log 8), unsafe. -/
def resStep (fe start : Nat) (re im : Int) (r : CalRun) : CalRun :=
  let half := 2 ^ (9 - r.tries)
  let low := if (2 ^ 29 : Int) * 2 ^ 29 < (re * re + im * im) * 10000 then r.trial - half else r.trial
  if r.tries < 9 then measure fe start { r with tries := r.tries + 1, trial := low + half / 2 }
  else onsetFound (if low = 1023 then 0 else low + 1) r

/-- The result of a measurement taken by the run's step (R327). -/
def stepResult (fe start : Nat) (re im : Int) (r : CalRun) : CalRun :=
  if r.step = 2 then offsetStep fe start re r
  else if r.step = 3 then knotStep fe start re im r
  else if r.step = 4 then gainStep fe start re im r
  else resStep fe start re im r

/-- A run at its start: the present record, T_c, step 1 done and step 2's measurement set up (R327, R330, R332).
DEDUCED (log 33), unsafe. -/
def runStart (d : Dev) (v : Nat) (asked : Bool) : CalRun :=
  let rec_ := recordOf d v
  let work := (List.range 64).map (fun k => rec_.getD k 0)
  let base : CalRun :=
    { slot := v, step := 1, knot := 7, tries := 0, trial := 0, start := 0, settle := 0, window := 1, inc := 0, amp := 0, asked := asked
      re := 0, im := 0, failStep := 0, temp := (sensorTemp d (cluOf v) + 2 ^ 16).toNat, work := work, old := work }
  let base := if recValid work then base else
    let w := (List.range 8).foldl (fun w j => putHalf w (8 + 2 * j) (8192 * j)) (work.take 8 ++ List.replicate 56 0)
    { base with work := putHalf (w.set 0 1) 0x1A 0x4000, old := putHalf w 0x1A 0x4000 }
  nextStep d.fe (efAdd d.now 1) 2 (biasStep base)

/-- T_c at a run's start (R330). -/
def CalRun.tc (r : CalRun) : Int := (r.temp : Int) - 2 ^ 16

/-- MEASUREMENT_RESULT: at release r + S + N + 4 the result of slot v's channel is ready and its step takes it
(R319, R327, R328). -/
def measurementResultDev (v : Nat) (d : Dev) : Dev :=
  match calRunOf d v with
  | none => d
  | some r =>
    if !(d.timerRuns && decide (2 ≤ r.step) && decide (r.step ≤ 5) && efReached d.now r.start &&
        decide (r.settle + r.window + 4 ≤ efSince d.now r.start)) then d
    else
      let p := resultOf r
      let d := d.modCal (fun x => { x with
        res := x.res.filter (fun e => e.1 != v) ++ [(v, BitVec.ofInt 32 p.1, BitVec.ofInt 32 p.2)] })
      d.modRun v (stepResult d.fe (efAdd d.now 1) p.1 p.2)

/-- MEASUREMENT_RESULT (R319). -/
def execMeasurementResult (v : Nat) (s : State) : Host.Outcome State Fault Refusal := devNext s (measurementResultDev v)

/-! ### Records (R322, R326, R329, R330, R332) -/

/-- TC of a completed background run (R332): T_c and T_CAL in Q8.8, the knots in codes. -/
def tcUpdate (r : CalRun) : Int :=
  let tc := signed 16 (halfAt r.old 0x18)
  let dt := r.tc - signed 16 (halfAt r.old 2)
  if recValid r.old && !(byteAt r.old 0).testBit 2 && decide (512 ≤ dt.natAbs) then
    let dk : Int := (workKnot r.work 4 : Int) - workKnot r.old 4
    let n := 3 * tc * dt + dk * 65536
    clampInt (-4096) 4096 (rneDiv (if dt < 0 then -n else n) (4 * dt.natAbs))
  else tc

/-- The record a completed run writes (R329, R330, R332). -/
def finalRecord (now : Nat) (fg : Bool) (r : CalRun) : List Byte :=
  let fail := r.failStep != 0
  let section_ := fail && (byteAt r.old 0).testBit 2
  let st := 1 + (if fail then 2 else 0) + (if section_ then 4 else 0) + 16 * r.failStep
  let keepTc := recValid r.old && !(byteAt r.old 0).testBit 2
  let tc : Int := if fg then (if keepTc then signed 16 (halfAt r.old 0x18) else 0) else tcUpdate r
  leBytes 1 st ++ leBytes 1 (byteAt r.old 1 + 1) ++ leBytes 2 (unsigned 16 r.tc) ++ leBytes 4 (now % 2 ^ 32) ++
    (r.work.drop 8).take 16 ++ leBytes 2 (unsigned 16 tc) ++ (r.work.drop 0x1A).take 7 ++ List.replicate 31 0

/-- A run ends with its record written at one release, on port V; a failure is counted and logged (R326, R329,
R339). -/
def runEnds (fg : Bool) (r : CalRun) (d : Dev) : Dev :=
  let d := d.psV (calRec r.slot) (finalRecord d.now fg r)
  let d := d.modCal (fun x => { x with runs := x.runs.filter (fun q => q.slot != r.slot) })
  let d := (d.bump Reg.CAL_CNT_RUN).emit 29 1
  if r.failStep = 0 then d
  else ((d.bump Reg.CAL_CNT_FAIL).setIrq Dom.cal Reg.CAL_IRQ_STAT 1).logEv 0x09 0x01 1 [r.slot, r.failStep]

/-- CAL_LAST (R340). -/
def calLast (outcome step slot : Nat) (d : Dev) : Dev :=
  d.putReg Reg.CAL_LAST (BitVec.ofNat 32 (outcome * 2 ^ 30 + step * 2 ^ 20 + slot))

/-! ### The queue (R331, R338) -/

/-- |T_c − T_CAL| of slot v, in Q8.8 (R331). -/
def tempGap (d : Dev) (v : Nat) : Nat := (sensorTemp d (cluOf v) - recTcal (recordOf d v)).natAbs

/-- CAL_CTL.MAX_PAR (R336). -/
def calMaxPar (d : Dev) : Nat := countOf (d.fld Reg.CAL_CTL 4 0) 16

/-- Does the firmware queue background calibration runs (R331, R496)? -/
def calQueues (d : Dev) : Bool := firmwareUp d && d.flag Reg.CAL_CTL 16 && d.isOn Dom.cal && d.stage == Stage.run && !d.cal.fgBusy

/-- Is a slot queued or running? -/
def calHas (d : Dev) (v : Nat) : Bool := d.cal.queue.any (fun e => e.1 == v) || underCal d v

/-- A slot queued if the conditions of R331 hold; `asked` is true for one that CAL_REQ names. -/
def calQueueOne (v : Nat) (asked : Bool) (d : Dev) : Dev :=
  if calQueues d && d.cluOn (cluOf v) && !d.flag (cluReg (cluOf v) (Reg.CLU_CELL_BIAS (v % 16))) 31 && !calHas d v &&
      (asked || decide (calThresh d < tempGap d v)) then
    d.modCal (fun x => { x with queue := x.queue ++ [(v, asked)] })
  else d

/-- The firmware looks at the slots of a cluster (R331). -/
def calQueueCluster (c : Nat) (d : Dev) : Dev := forUpTo 16 (fun t d => calQueueOne (16 * c + t) false d) d

/-- A slot the Parlour took is queued again when its cell is FREE (R333). DEDUCED (log 33), unsafe. -/
def calAgain (v : Nat) (d : Dev) : Dev :=
  match d.cal.again.find? (fun e => e.1 == v) with
  | none => d
  | some e => calQueueOne v e.2 (d.modCal (fun x => { x with again := x.again.filter (fun e => e.1 != v) }))

/-- CAL_REQ: GO queues the slot, but in the cases R338 lists. DEDUCED (log 33), unsafe. -/
def calReqDev (w : Word) (d : Dev) : Dev := if w.getLsbD 8 then calQueueOne (w.bits 7 0) true d else d

/-- CAL_REQ (R338). -/
def execCalReq (value : Word) (s : State) : Host.Outcome State Fault Refusal := hostNext s (calReqDev value)

/-- Cells of a cluster under calibration. -/
def calOnCluster (d : Dev) (c : Nat) : Nat := (d.cal.runs.filter (fun r => cluOf r.slot == c)).length

/-- May a queued slot start now (R331)?  One that the Parlour has chosen may not, nor one with a manual trim (R28, R283,
R333). -/
def calStartable (d : Dev) (v : Nat) : Bool :=
  (d.voice v).state == .free && !d.alm.pool.any (fun t => t.chosen.contains v) && d.cluOn (cluOf v) &&
    !d.flag (cluReg (cluOf v) (Reg.CLU_CELL_BIAS (v % 16))) 31 && decide (calOnCluster d (cluOf v) < calMaxPar d)

/-- The queue's order: CAL_REQ first, then the larger gap, then the lower slot (R331). -/
def calLt (d : Dev) (a b : Nat × Bool) : Bool :=
  if a.2 != b.2 then a.2
  else if !a.2 && tempGap d a.1 != tempGap d b.1 then decide (tempGap d b.1 < tempGap d a.1)
  else decide (a.1 < b.1)

/-- The queued slot that starts next: the first in order of those that can. -/
def calNext (d : Dev) : Option Nat :=
  ((d.cal.queue.filter (fun e => calStartable d e.1)).foldl (fun (m : Option (Nat × Bool)) e =>
    match m with
    | none => some e
    | some x => if calLt d e x then some e else some x) none).map Prod.fst

/-- May the device start background runs: out of a chain, or as the holder of the grant; a worker that has lost
lock calibrates on its own (R518, R540). -/
def calGranted (d : Dev) : Bool :=
  if d.isMaster then d.cas.grant == 0
  else if d.isWorker then !d.cas.down.locked || d.cas.grantIn == d.pos
  else true

/-- BACKGROUND_RUN_START: the firmware starts the next queued slot whose cell is FREE (R331, R332, R496, R518). -/
def backgroundRunStartDev (v : Nat) (d : Dev) : Dev :=
  if firmwareUp d && d.isOn Dom.cal && d.stage == Stage.run && d.timerRuns && calGranted d && calNext d == some v then
    (d.modCal (fun x => { x with
      queue := x.queue.filter (fun e => e.1 != v), runs := x.runs ++ [runStart d v (x.queue.any (fun e => e.1 == v && e.2))] })).draw
  else d

/-- BACKGROUND_RUN_START (R331). -/
def execBackgroundRunStart (v : Nat) (s : State) : Host.Outcome State Fault Refusal := devNext s (backgroundRunStartDev v)

/-! ### Aborts (R318, R333) -/

/-- A background run aborted: its results are discarded (R333). -/
def calAbort (v : Nat) (d : Dev) : Dev :=
  if underCal d v then
    let bg := !d.cal.fgBusy
    let d := d.modCal (fun x => { x with runs := x.runs.filter (fun r => r.slot != v) })
    if bg then
      calLast 3 0 v (((d.bump Reg.CAL_CNT_ABORT).setIrq Dom.cal Reg.CAL_IRQ_STAT 2).emit 30 1)
    else d
  else d

/-- Every run aborted: the timer halts, or CAL or a cluster is asked to leave ON (R318, R333). -/
def calAbortAll (pick : Nat → Bool) (d : Dev) : Dev :=
  forEach ((d.cal.runs.map CalRun.slot).filter pick) calAbort d

/-- The Parlour chooses a slot under calibration: its run aborts at once, and the slot is queued again when it is
next FREE (R270, R333). -/
def calTake (v : Nat) (d : Dev) : Dev :=
  match calRunOf d v with
  | some r => (calAbort v d).modCal (fun x => { x with again := x.again.filter (fun e => e.1 != v) ++ [(v, r.asked)] })
  | none => d

/-- A voice arms in a slot: one under calibration, or that was when it was chosen, quenches first (R270). -/
def calPreempt (v : Nat) (taken : Bool) (d : Dev) : Dev :=
  if taken || underCal d v then quenchCell v true (calTake v d) else d

/-- The slots aborted by the Parlour that no note took after all are queued again (R333). -/
def calAgainFree (d : Dev) : Dev :=
  forEach (d.cal.again.map Prod.fst) (fun v d =>
    if (d.voice v).state = .free && !d.alm.pool.any (fun t => t.chosen.contains v) then calAgain v d else d) d

/-- A host write to a byte of a record aborts its slot's background run, but for one whose every step has ended: it writes
its record at this release and has completed (R326, R333, R415). -/
def calHostWrite (off : Nat) (d : Dev) : Dev :=
  let v := (off - 0x82000) / 64
  if 0x82000 ≤ off ∧ off < 0x86000 ∧ !d.cal.fgBusy ∧ !(calRunOf d v).any (fun r => r.step == 6) then calAbort v d else d

/-! ### Temperature (R496, R324) -/

/-- TEMPERATURE_UPDATE: the firmware passes a cluster's reading to its slices and looks at its slots (R324,
R331, R496). -/
def temperatureUpdateDev (c : Nat) (d : Dev) : Dev :=
  if decide (c < 16) && d.isOn Dom.mgmt && d.mgt.mode == 2 && d.cluOn c && d.mgt.tempSeen then
    calQueueCluster c { d with mgt := { d.mgt with passed := d.mgt.passed.set c (some (signed 16 (at_ d.mgt.temps c 0))) } }
  else d

/-- TEMPERATURE_UPDATE (R496). -/
def execTemperatureUpdate (c : Nat) (s : State) : Host.Outcome State Fault Refusal := devNext s (temperatureUpdateDev c)

/-! ### Registers (R336, R337, R341) -/

/-- CAL_STAT (R337). -/
def calStat (d : Dev) : Word :=
  BitVec.ofNat 32 ((if d.cal.fgBusy then 2 ^ 31 else 0) + d.cal.queue.length * 2 ^ 16 + d.cal.runs.length)

/-- The last result of the selected channel (R341). -/
def detResult (d : Dev) : Word × Word :=
  match d.cal.res.find? (fun e => e.1 == d.fld Reg.CAL_DET_SEL 7 0) with
  | some e => e.2
  | none => (0, 0)

/-! ### Synchronising reset of a cluster (R303, R304) -/

/-- The synchronising reset of cluster c: its Skimmer, and the measurements it breaks off (R304, R327). -/
def clusterReset (c : Nat) (d : Dev) : Dev := calSkimReset c (skimReset c d)

/-- SYNCHRONISING_RESET: a reset that is due takes place at the release, whether ENG_EN is set or not (R303, R304, R318). -/
def synchronisingResetDev (c : Nat) (d : Dev) : Dev :=
  if decide (c < 16) && d.cluOn c && d.timerRuns && (d.clu c).resets.any (fun r => efReached d.now r) then clusterReset c d
  else d

/-- SYNCHRONISING_RESET (R304). -/
def execSynchronisingReset (c : Nat) (s : State) : Host.Outcome State Fault Refusal := devNext s (synchronisingResetDev c)

end Sys2Proof.Machine
end

