-- ==== Sys2Proof/Machine/Arm.lean ====
section
/-! DEFINITION. What a cluster does when the Parlour arms, reuses, releases or quenches a voice (R162, R191,
R194, R209, R211, R212, R215, R235, R236, R325). -/

namespace Sys2Proof.Machine

open Sys2Proof

/-! ### Arming -/

/-- OFLAGS bit n of oscillator i. -/
def oflag (arm : List Byte) (i n : Nat) : Bool := (byteAt arm (0x28 * i + 1)).testBit n

/-- PFLAGS.EXT_VOICE of the bytes read at arming (R159). -/
def armExt (arm : List Byte) : Bool := (byteAt arm 0x1E0).testBit 1

/-- The model oscillator i plays: MODEL, OFF for a reserved PLAY or VA shape; with EXT_VOICE A takes the
external input and B and C are off (R193, R211). -/
def armModel (arm : List Byte) (i : Nat) : Nat :=
  let m := byteAt arm (0x28 * i)
  if armExt arm then (if i = 0 then 4 else 0)
  else if m = 1 then 1
  else if m = 2 then (if playOf arm i = 3 then 0 else 2)
  else if m = 3 then (if halfAt arm (0x28 * i + 2) % 4 = 3 then 0 else 3)
  else 0

/-- The wave ID of oscillator i. -/
def armWave (arm : List Byte) (i : Nat) : Nat := halfAt arm (0x28 * i + 2) % 4096

/-- The start phase of oscillator i (R212). -/
def armPhase (arm : List Byte) (seed i : Nat) : Nat :=
  if oflag arm i 2 then seed ^^^ (i + 1) * 0x55555555 else wordAt arm (0x28 * i + 0x14)

/-- The error oscillator i arms with, 0 for none: its entry's checks, or an external slot its port does not
carry (R191, R211). -/
def armError (d : Dev) (arm : List Byte) (i : Nat) : Nat :=
  let m := armModel arm i
  if m = 1 ∨ m = 2 then waveError m (playOf arm i) (startOf arm i) (d.seen.psBytes (dirAt (armWave arm i)) 32)
  else if m = 4 then (if extSlotOk d (halfAt arm 0x20) then 0 else 6)
  else 0

/-- Oscillator i of an arming voice (R191, R194, R199, R212).  One whose entry fails is silent. -/
def armOsc (d : Dev) (arm : List Byte) (seed i : Nat) : Osc :=
  let m := armModel arm i
  let e := if m = 1 ∨ m = 2 then d.seen.psBytes (dirAt (armWave arm i)) 32 else []
  let bad := (m = 1 ∨ m = 2) ∧ armError d arm i ≠ 0
  { Osc.reset with
    model := if bad then 0 else m, dir := e, phase := armPhase arm seed i % 2 ^ 32
    pos := (startOf arm i : Int) * 2 ^ 32, endVoice := m = 2 && oflag arm i 3, step0 := if m = 2 then step0Of d.fe e else 0 }

/-- A failure at arming recorded (R191, R211, R223). -/
def armFault (v i code : Nat) (arm : List Byte) (d : Dev) : Dev :=
  let c := cluOf v
  let wave := if code = 6 then halfAt arm 0x20 % 4096 else armWave arm i
  let d := if code = 6 then cluIrq c Reg.CLU_OSC_IRQ_STAT 3 d
    else cluIrq c Reg.CLU_OSC_IRQ_STAT 1 (cluBump c Reg.CLU_CNT_WAVE_ERR 1 d)
  d.putReg (cluReg c Reg.CLU_OSC_LAST_ERR)
    (BitVec.ofNat 32 (code * 2 ^ 28 + i * 2 ^ 26 + v % 16 * 2 ^ 20 + wave))

/-! ### Head lines (R215) -/

/-- The head lines of oscillator i at its start: at most two per frame read (R215). -/
def headLines (d : Dev) (v : Nat) (va : VAud) (i : Nat) : List Nat :=
  let o := at_ va.oscs i Osc.reset
  let sinc := sincOn va i
  if o.model = 2 then
    (pointLines o.dir ((kernelOffsets sinc).map (fun k => samplePoint o.dir (playMode va.arm i o.dir) false ((startOf va.arm i : Int) + k)))).take 2
  else if o.model = 1 then
    let j := mipLevel o.dir (incOf d.fam44 (pitchOf d v va i va.start)).1
    let fk := framesOf va i va.start o.dir
    let one := fk.2 == 0 || fk.1 == wFramesM1 o.dir
    (pointLines o.dir (tablePoints o.dir fk.1 j o.phase (sinc && one))).take 2 ++
      (if one then [] else (pointLines o.dir (tablePoints o.dir (fk.1 + 1) j o.phase false)).take 2)
  else []

/-- The rest of oscillator i's first 4 KiB, in line order, within wave DRAM: of a SAMPLE the 4,096 bytes from START (R215). -/
def restLines (d : Dev) (v : Nat) (va : VAud) (i : Nat) : List Nat :=
  let o := at_ va.oscs i Osc.reset
  let e := o.dir
  if o.model = 2 then
    linesTouched (wAddr e + wBytes e * startOf va.arm i) (min 4096 (waveSize - (wAddr e + wBytes e * startOf va.arm i)))
  else if o.model = 1 then
    let j := mipLevel e (incOf d.fam44 (pitchOf d v va i va.start)).1
    let fk := framesOf va i va.start e
    let one := fk.2 == 0 || fk.1 == wFramesM1 e
    let level (f : Nat) : List Nat :=
      linesTouched (wAddr e + wBytes e * (f * wStride e + (if wMip e then levelStart j else 0))) (min 4096 (wBytes e * (2048 / 2 ^ j)))
    level fk.1 ++ (if one then [] else level (fk.1 + 1))
  else []

/-- The requests of an arming voice: every oscillator's head lines, then the rest (R215). -/
def armRequests (v : Nat) (d : Dev) : Dev :=
  let va := d.vaud v
  let heads := dedup ((List.range 3).flatMap (headLines d v va))
  let d := d.modVaud v (fun x => { x with
    heads := heads, window := heads
    oscs := (List.range 3).map (fun i => { at_ x.oscs i Osc.reset with lines := headLines d v va i }) })
  let d := requestLines (cluOf v) 0 heads d
  forUpTo 3 (fun i d => requestRest v i (restLines d v va i) d) d

/-! ### The cluster's part of an arming -/

/-- The routes of a voice that arms are looked at (R244). -/
def armRoutes (v : Nat) (d : Dev) : Dev :=
  let words := (List.range 24).map (routeWord (d.vaud v).arm)
  (routeErrors (cluOf v) (v % 16) words [] true d).modVaud v (fun x => { x with routes := words.map (fun w => ⟨w, [], 0⟩) })

/-- The LFSR a voice arms with: its seed with RESEED or in a slot that has not sounded since its cluster woke,
else the state the slot's last voice left (R209). -/
def armLfsr (old : VAud) (arm : List Byte) (seed : Nat) : Nat :=
  if (byteAt arm 0x79).testBit 0 || !old.loaded then seed else old.lfsr

/-- The noise seed: START_EF XOR (v × 0001_0001h), 1 for 0 (R209). -/
def noiseSeed (ef v : Nat) : Nat :=
  let s := (ef % 2 ^ 32) ^^^ (v * 0x10001)
  if s = 0 then 1 else s

/-- A voice arms in slot v of this device at effect EF e, its block and WORK written: what the cluster reads and copies, a
host write of this release to WORK standing over the copy (R162, R191, R194, R209, R211, R212, R224). -/
def armRead (v : Nat) (d : Dev) : Dev :=
  let old := d.vaud v
  let arm := d.seen.psBytes (workAt v) 0x200
  let seed := noiseSeed (d.voice v).start v
  let d := d.modVaud v (fun _ => { VAud.reset with
    start := efAdd (d.voice v).start 4, arm := arm, seed := seed, lfsr := armLfsr old arm seed
    rows := old.rows, loaded := old.loaded, oscs := (List.range 3).map (armOsc d arm seed) })
  let d := cfRead v d
  d.modVaud v (fun x => { x with
    lfos := (List.range 4).map (fun i =>
      lfoStart (seed ^^^ (i + 1) * 0x11111111 % 2 ^ 32) (lfoPhase0 arm seed i)) })

/-- The voice's tile takes the record and the mode at the effect EF (R255, R325). DEDUCED (log 31), unsafe. -/
def armTile (v : Nat) (d : Dev) : Dev :=
  let r := recordOf d v
  d.modTile v (fun x => { x with kept := r, mode := fmodeOf (d.vaud v).arm })

/-- Is EF e's boundary work already done, so that a voice armed now must be evaluated at once (R224)? -/
def armEval (v : Nat) (d : Dev) : Dev :=
  if d.aud.cfDone = some d.now then evalVoice v d.now d else d

/-- The errors of an arming voice's oscillators (R191, R211). -/
def armFaults (v : Nat) (d : Dev) : Dev :=
  let arm := (d.vaud v).arm
  forUpTo 3 (fun i d =>
    let code := armError d arm i
    if code = 0 then d else armFault v i code arm d) d

/-- The cluster's part of an arming (R162, R165, R191, R325). -/
def clusterArm (v : Nat) (d : Dev) : Dev :=
  cellApply v d.now (armEval v (armRequests v (armRoutes v (armFaults v (armTile v (armRead v d))))))

/-! ### Reuse (R176, R196, R212, R236) -/

/-- K × 1,024 + G of oscillator i at the present EF (R195, R196). -/
def keyPitch (d : Dev) (va : VAud) (key i : Nat) : Int :=
  keyFor va key i * 1024 + glideAt (at_ va.oscs i Osc.reset).glide d.now

/-- The length of a glide that begins now: GLIDE scaled by its destination's value in the present EF (R196, R226,
R247). -/
def glideLen (d : Dev) (v : Nat) : Nat :=
  scaledLen d.fe (roundHalfUp (glideOf d v * d.fe) 10000) (contribAt (d.vaud v) d.now 61)

/-- A voice reused for a new key: the glide, the restart of SAMPLE oscillators in MONO and the restart of the
envelopes (R176, R196, R212, R236).  A second reuse within 4 EF of one puts its restart from START in the place of the first's:
the old position plays on until then, where R212 says nothing of the first.  DESIGN CHOICE (log 44), unsafe. -/
def clusterReuse (v old key : Nat) (mono restart glide : Bool) (d : Dev) : Dev :=
  let d := cellApply v d.now d
  let va := d.vaud v
  let len := if glide then glideLen d v else 0
  let osc (i : Nat) : Osc :=
    let o := at_ va.oscs i Osc.reset
    let diff := keyPitch d va old i - keyFor va key i * 1024
    { o with
      glide := if len = 0 ∨ diff = 0 then none else some { diff := diff, len := len, since := d.now }
      restart := if mono ∧ o.model = 2 then some (efAdd d.now 4) else o.restart }
  let d := d.modVaud v (fun x => { x with
    oscs := (List.range 3).map osc
    restart := if restart then some (cfAtOrAfter d.now) else x.restart
    gateFall := if restart then none else x.gateFall
    zero := if restart then none else x.zero, endAt := if mono then none else x.endAt })
  if mono then
    let va := d.vaud v
    let heads := dedup ((List.range 3).flatMap (fun i => if (at_ va.oscs i Osc.reset).model = 2 then headLines d v va i else []))
    requestLines (cluOf v) 0 heads d
  else d

/-- A voice of this device enters RELEASING: its gate point (R235). -/
def gateFall (v : Nat) (d : Dev) : Dev :=
  d.modVaud v (fun x => { x with
    gateFall := some (if efReached x.start d.now then x.start else cfAtOrAfter d.now) })

/-! ### Quench (R167, R266) -/

/-- The cell of slot v quenches in the present EF; its voice's modulation ends (R167, R269). -/
def clusterQuench (v : Nat) (d : Dev) : Dev :=
  (quenchCell v false d).modVaud v (fun x => { x with gains := [], heads := [], segEnds := [] })

end Sys2Proof.Machine
end

