-- ==== Sys2Proof/Machine/Directives.lean ====
section
/-! DEFINITION. The directives a chain's master sends its workers: their bytes and their places in the outbound
superframes (R533 to R535). -/

namespace Sys2Proof.Machine

open Sys2Proof

/-- The cascade unit changed. -/
def Dev.modCas (d : Dev) (f : Cas → Cas) : Dev := { d with cas := f d.cas }

/-- A directive's bytes filled to 16. -/
def dirPad (bs : List Byte) : List Byte := (bs ++ List.replicate 16 0).take 16

/-- ARM (R533). -/
def armDir (x : Voice) : List Byte :=
  dirPad (leBytes 1 1 ++ leBytes 1 (x.handle / 0x2000) ++ leBytes 2 x.handle ++ leBytes 2 x.patch ++ leBytes 1 x.key ++
    leBytes 1 x.vel ++ leBytes 2 x.vel16 ++ leBytes 1 x.part ++ leBytes 1 (x.uniIdx * 16 + (x.uniN - 1)) ++ leBytes 1 x.member ++
    leBytes 1 x.vflags ++ leBytes 2 x.tag)

/-- STATE: 1 release, 2 steal fade, 3 quench, 4 cut (R533). -/
def stateDir (x : Voice) (action fade : Nat) : List Byte :=
  dirPad (leBytes 1 2 ++ leBytes 1 (x.handle / 0x2000) ++ leBytes 2 x.handle ++ leBytes 1 action ++ leBytes 1 fade)

/-- RETRIG (R533). -/
def retrigDir (x : Voice) (restart glide : Bool) : List Byte :=
  dirPad (leBytes 1 3 ++ leBytes 1 (x.handle / 0x2000) ++ leBytes 2 x.handle ++ leBytes 1 x.key ++ leBytes 1 x.vel ++
    leBytes 2 x.vel16 ++ leBytes 1 ((if restart then 1 else 0) + (if glide then 2 else 0)))

/-- WRITE of bytes within one word (R533, R117). -/
def writeDir (pos off : Nat) (bs : List Byte) : List Byte :=
  let sh := off % 4
  let v := leNat bs * 256 ^ sh
  let m := (256 ^ bs.length - 1) * 256 ^ sh
  dirPad (leBytes 1 4 ++ leBytes 1 pos ++ leBytes 2 0 ++ leBytes 4 (off / 4 * 4) ++ leBytes 4 v ++ leBytes 4 m)

/-- GLFO (R533, R540). -/
def glfoDir (mask boundary : Nat) : List Byte :=
  dirPad (leBytes 1 5 ++ leBytes 1 0xFF ++ leBytes 2 mask ++ leBytes 4 (boundary % 2 ^ 32))

/-- A directive of the commit being applied: one of those planned for this EF and already sent, or one that
goes in the next superframe with room and takes effect late (R535). -/
def emitDir (bs : List Byte) (d : Dev) : Dev :=
  if !d.isMaster then d
  else
    let x : Directive := { task := d.cas.dirTask, bytes := bs, void := false }
    let d := d.modCas (fun c => { c with dirUsed := c.dirUsed + 1 })
    if d.cas.planned.contains x then d.modCas (fun c => { c with planned := c.planned.erase x })
    else
      ((d.modCas (fun c => { c with dirs := c.dirs ++ [x] })).bump Reg.CAS_CNT_DIR_LATE).setIrq Dom.cas Reg.CAS_IRQ_STAT 5

/-- A directive of no commit: it waits for the next superframe with room. -/
def queueDir (bs : List Byte) (d : Dev) : Dev :=
  if d.isMaster then d.modCas (fun c => { c with dirs := c.dirs ++ [{ task := none, bytes := bs, void := false }] }) else d

/-- Controller state of a part changed: port V, and a broadcast WRITE to every worker (R155, R535). -/
def partV (p off : Nat) (bs : List Byte) (d : Dev) : Dev :=
  let d := d.psV (partRec p + off) bs
  emitDir (writeDir 0xFF (partRec p + off) bs) d

/-- Per-note values of a voice changed: in its block, or by a WRITE to a worker's (R161, R535). -/
def noteV (v off : Nat) (bs : List Byte) (d : Dev) : Dev :=
  if ownSlot v then d.psV (vblk v + off) bs else emitDir (writeDir (v / 256) (vblk (v % 256) + off) bs) d

end Sys2Proof.Machine
end

