-- ==== Sys2Proof/Machine/Parlour.lean ====
section
/-! DEFINITION. The Parlour: pool figures, slot choice, victims, placement, MONO and LEGATO reuse, deferral,
note-offs, kills and shedding (R154 to R180, R28, R537). -/

namespace Sys2Proof.Machine

open Sys2Proof

/-! ### Parts (R156, R157, R168) -/

/-- The parts a task matches, in ascending number, and how many disabled for their settings it would have
matched (R156, R157, R168). -/
def matchParts (d : Dev) (f : PartCfg → Bool) : List Nat × Nat :=
  let ps := (List.range 32).filter (fun p => f (readPart d p))
  (ps.filter (fun p => (readPart d p).inRange), (ps.filter (fun p => !(readPart d p).inRange)).length)

/-- NOPART counts (R156, R157). -/
def countNoPart (n : Nat) (d : Dev) : Dev := if n = 0 then d else d.bumpBy Reg.ALC_CNT_NOPART n

/-- The parts of those given that a note-on of this key plays in: TRANSPOSE leaves the key in range and the
patch is valid (R157, R160). -/
def playsIn (d : Dev) (ps : List Nat) (key : Nat) : List Nat :=
  ps.filter (fun p => ((readPart d p).keyOf key).isSome && patchValid d (readPart d p).patch)

/-- Are the pedals of a part down: sustain and sostenuto, neither without SUSTAIN_EN (R155, R169)?
DEDUCED (log 31), unsafe. -/
def pedals (d : Dev) (p : Nat) : Bool × Bool :=
  let b := d.ps8 (partRec p + 0x23)
  if (readPart d p).sustainEn then (b.testBit 0, b.testBit 1) else (false, false)

/-- F of a part's fade (R166). -/
def partFade (d : Dev) (p : Nat) : Nat := fadeEf d.fb (readPart d p).fade

/-- Voices of a part that the device's Parlour runs, in slot order. -/
def partVoices (d : Dev) (p : Nat) : List Nat := slotsWhere d (fun _ x => x.state != .free && x.part == p)

/-! ### Pool figures (R171, R61, R537) -/

/-- The guard's polyphony ceiling (R61). -/
def guardCeiling (d : Dev) : Nat := max 64 (256 - 16 * d.frame.steps)

/-- P of the device's own slots (R171, R27, R537). -/
def ownP (d : Dev) : Nat :=
  min (guardCeiling d) (16 * ((List.range 16).filter (fun c => d.cluOn c && d.ownCluster c)).length)

/-- P over which the device's Parlour allocates: a master's takes in its workers' offers (R537). -/
def poolP (d : Dev) : Nat :=
  ownP d + (if d.isMaster then (d.cas.workers.map (fun w => if w.joined then w.offer else 0)).foldl (· + ·) 0 else 0)

/-- STEAL_HEADROOM taken at a release (R182). -/
def headLatch (d : Dev) : Dev := { d with par := { d.par with head := countOf (d.fld Reg.ALC_CTL 12 8) 32 } }

/-- H of a P, with the headroom that the latest release took (R171, R182). -/
def headroomOf (d : Dev) (p : Nat) : Nat := min d.par.head (p / 2)

/-- The RESERVE a part asks for: none with RSV = 0 (R155, R171). -/
def PartCfg.wants (c : PartCfg) : Nat := if c.rsv then c.reserve else 0

/-- The parts in the order reserves are granted: PRIORITY falling, then part number (R171). -/
def reserveOrder (d : Dev) : List Nat :=
  (List.range 256).flatMap (fun k => (List.range 32).filter (fun p => (readPart d p).priority == 255 - k))

/-- Effective reserves: part and R_p, as granted from what remains of L (R171). -/
def grantReserves (d : Dev) : Nat → List Nat → List (Nat × Nat)
  | _, [] => []
  | left, p :: r =>
    let want := (readPart d p).wants
    (p, min want left) :: grantReserves d (left - min want left) r

/-- R_p of the 32 parts for a held limit (R171). -/
def reservesFor (d : Dev) (l : Nat) : List Nat :=
  let g := grantReserves d l (reserveOrder d)
  (List.range 32).map (fun p => match g.find? (fun e => e.1 == p) with
    | some e => e.2
    | none => 0)

/-- Does some part hold less than its RESERVE (R171)? -/
def reserveCut (d : Dev) (res : List Nat) : Bool :=
  (List.range 32).any (fun p => decide (at_ res p 0 < (readPart d p).wants))

/-- The pool figures computed at a release (R171). -/
def poolUpdate (d : Dev) : Dev :=
  let p := poolP d
  let h := headroomOf d p
  let res := reservesFor d (p - h)
  let d := { d with par := { d.par with p := p, h := h, l := p - h, own := ownP d, res := res } }
  if reserveCut d res then d.setIrq Dom.ctrl Reg.ALC_IRQ_STAT 5 else d

/-! ### Changes of state (R165 to R167, R179) -/

/-- A voice enters RELEASING; its gate falls (R165, R235). -/
def toReleasing (v : Nat) (d : Dev) : Dev :=
  let d := setVoice v (fun x => { x with state := .releasing }) d
  if ownSlot v then gateFall v d else emitDir (stateDir (d.voice v) 1 0) d

/-- A voice enters STEALING with a fade code (R166). -/
def toStealing (v fade : Nat) (d : Dev) : Dev :=
  let d := setVoice v (fun x => { x with state := .stealing, fadeAt := d.now, fadeLen := fadeEf d.fb fade }) d
  if ownSlot v then d else emitDir (stateDir (d.voice v) 2 fade) d

/-- A voice enters QUENCH (R167). -/
def toQuench (v : Nat) (d : Dev) : Dev :=
  if (d.voice v).state = .quench then d
  else
    let d := setVoice v (fun x => { x with state := .quench, quenchAt := d.now }) d
    if ownSlot v then clusterQuench v d else emitDir (stateDir (d.voice v) 3 0) d

/-- A voice enters FREE: its handle stops being current; a pool voice of a worker is reported (R163, R536). -/
def toFree (v : Nat) (d : Dev) : Dev :=
  let x := d.voice v
  let d := setVoice v (fun x => { x with
    state := .free, pool := false, sustained := false, sostenuto := false, offPending := false, gotOff := false, cut := false }) d
  let d := if x.pool && decide (d.cas.freed.length < 256) then d.modCas (fun c => { c with freed := c.freed ++ [x.handle] }) else d
  if ownSlot v then calAgain v d else d

/-- A note-off reaches a voice: OFF_PENDING while ARMING, else as the pedals have it (R168, R178).
DEDUCED (log 31), unsafe. -/
def offVoice (v : Nat) (d : Dev) : Dev :=
  let x := d.voice v
  if x.state = .arming then setVoice v (fun x => { x with offPending := true }) d
  else if x.state = .sounding then
    let pd := pedals d x.part
    if pd.1 then setVoice v (fun x => { x with sustained := true, gotOff := true }) d
    else if x.sostenuto && pd.2 then setVoice v (fun x => { x with gotOff := true }) d
    else toReleasing v d
  else d

/-- A voice that a pedal held is let go (R169). -/
def letGo (v : Nat) (d : Dev) : Dev :=
  let d := setVoice v (fun x => { x with sustained := false, gotOff := false }) d
  if (d.voice v).state = .sounding then toReleasing v d else d

/-! ### Victims (R173, R180) -/

/-- Lexicographic order of keys. -/
def keyLt : List Int → List Int → Bool
  | [], _ => false
  | _, [] => false
  | a :: r, b :: s => decide (a < b) || (decide (a = b) && keyLt r s)

/-- The element with the least key. -/
def leastBy (key : Nat → List Int) (l : List Nat) : Option Nat := firstBy (fun a b => keyLt (key a) (key b)) l

/-- LEVEL of a voice: its cluster's, or the latest its worker reported, FFFFh before any (R161, R537). -/
def levelOf (d : Dev) (v : Nat) : Nat :=
  if ownSlot v then (d.vaud v).level
  else match (workerOf d (v / 256)).levels.find? (fun e => e.1 == v % 256) with
    | some e => e.2 * 256
    | none => 0xFFFF * 256

/-- How old a voice is: its START_EF as the signed 32-bit difference from the present EF (R173). -/
def ageKey (d : Dev) (x : Voice) : Int := signed 32 (x.start % 2 ^ 32 + 2 ^ 32 - d.now % 2 ^ 32)

/-- A policy's order (R173): `part` and `key` are those of the requesting note. -/
def policyKey (d : Dev) (policy part key v : Nat) : List Int :=
  let x := d.voice v
  if policy = 1 then [levelOf d v]
  else if policy = 2 then [(readPart d x.part).priority, ageKey d x]
  else if policy = 3 then [if x.part = part ∧ x.key = key then 0 else 1, ageKey d x]
  else if policy = 4 then [-(x.key : Int)]
  else if policy = 5 then [x.key]
  else [ageKey d x]

/-- The order of victims: RELEASING before SOUNDING, the policy, the lower slot (R173). -/
def victimKey (d : Dev) (policy part key v : Nat) : List Int :=
  [if (d.voice v).state = .releasing then 0 else 1] ++ policyKey d policy part key v ++ [(v : Int)]

/-- n victims taken in order, none of the note's own voices; with a limit, none from a part at its effective reserve
(R172, R173). -/
def pickVictims (d : Dev) (own : List Nat) (key : Nat → List Int) (ok : Nat → Bool) (limit : Bool) : Nat → List Nat → Option (List Nat)
  | 0, taken => some taken
  | n + 1, taken =>
    let left (q : Nat) : Nat := heldOf d q - (taken.filter (fun v => (d.voice v).part == q)).length
    let cands := slotsWhere d (fun v x =>
      (x.state == .sounding || x.state == .releasing) && ok x.part && !own.contains v && !taken.contains v &&
        (!limit || decide (at_ d.par.res x.part 0 < left x.part)))
    match leastBy key cands with
    | some v => pickVictims d own key ok limit n (taken ++ [v])
    | none => none

/-! ### Slots (R174, R175, R28) -/

/-- Has a cluster been late in the last 1,024 guard EF (R62)? -/
def lateRecently (d : Dev) (c : Nat) : Bool :=
  match (d.clu c).lateAt with
  | some g => decide (d.frame.guardEf < g + 1024)
  | none => false

/-- FREE slots of a slot's cluster. -/
def freeInCluster (d : Dev) (v : Nat) : Nat :=
  ((List.range 16).filter (fun t => slotFree d (v / 16 * 16 + t))).length

/-- The order of FREE slots for a new voice (R174, R537). -/
def slotKey (d : Dev) (v : Nat) : List Int :=
  [if ownSlot v && underCal d v then 1 else 0
   , if ownSlot v && decide (0 < d.frame.steps) && lateRecently d (cluOf v) then 1 else 0
   , -(freeInCluster d v : Int), (v : Int)]

/-- The FREE slot a new voice takes, but for those listed (R174). -/
def freeSlot (d : Dev) (avoid : List Nat) : Option Nat :=
  leastBy (slotKey d) ((List.range (slotCount d)).filter (fun v => slotFree d v && !avoid.contains v))

/-- EF left before a voice in STEALING or QUENCH is FREE (R175). -/
def efLeft (d : Dev) (x : Voice) : Nat :=
  if x.state = .stealing then efSince (efAdd x.fadeAt (x.fadeLen + 3)) d.now else efSince (efAdd x.quenchAt 3) d.now

/-- Slots that can be cut: STEALING or QUENCH, in a cluster open to the Parlour (R175). -/
def cuttable (d : Dev) : List Nat :=
  slotsWhere d (fun v x => (x.state == .stealing || x.state == .quench) &&
    (if ownSlot v then d.cluOn (cluOf v) && d.ownCluster (cluOf v) else (workerOf d (v / 256)).joined))

/-- The voice cut for a new one (R175). -/
def cutSlot (d : Dev) : Option Nat := leastBy (fun v => [(efLeft d (d.voice v) : Int), (v : Int)]) (cuttable d)

/-- The decision recorded one EF ago for the present commit in part p (R535). -/
def planOf (d : Dev) (p : Nat) : Option Placement :=
  if d.isMaster then d.cas.plans.find? (fun x => x.task == d.cas.dirTask && x.part == p) else none

/-- A placement decided by the present commit is recorded (R535). -/
def recordPlan (p : Nat) (drop : Bool) (victims : List Nat) (d : Dev) : Dev :=
  if d.isMaster then
    d.modCas (fun c => { c with made := { task := c.dirTask, part := p, drop := drop, victims := victims, slots := [] } :: c.made })
  else d

/-- A slot taken by the placement recorded last (R535). -/
def recordSlot (v : Nat) (d : Dev) : Dev :=
  if d.isMaster then d.modCas (fun c => { c with made := upd c.made 0 (fun x => { x with slots := x.slots ++ [v] }) }) else d

/-- Slots chosen for notes other than this task's (R28). -/
def chosenElsewhere (d : Dev) (idx : Option Nat) : List Nat :=
  (d.alm.pool.filter (fun t => some t.idx != idx)).flatMap Task.chosen

/-- n FREE slots chosen in turn; each counts as taken for the next (R28, R174). -/
def chooseSlots : Nat → Dev → List Nat → List Nat
  | 0, _, acc => acc
  | n + 1, d, acc =>
    match freeSlot (acc.foldl (fun d v => d.modVoice v (fun x => { x with state := .arming })) d) [] with
    | some v => chooseSlots n d (acc ++ [v])
    | none => acc

/-! ### Arming (R161 to R163, R165) -/

/-- What a new voice is (R161). -/
structure NewVoice where
  part : Nat
  key : Nat
  vel : Nat
  vel16 : Nat
  patch : Nat
  i : Nat
  n : Nat
  tag : Nat
  member : Nat
  cut : Bool
  off : Option Nat
  taken : List Nat
  deriving DecidableEq, Repr

/-- The voice a slot takes: a new generation and handle, ARMING at the present EF (R163, R165). -/
def voiceOf (d : Dev) (v : Nat) (k : NewVoice) : Voice :=
  let g := nextGen (d.voice v).gen
  { Voice.reset with
    state := .arming, gen := g, handle := mkHandle (handlePos d v) (v % 256) g, part := k.part, key := k.key, vel := k.vel
    vel16 := k.vel16, patch := k.patch, uniIdx := k.i, uniN := k.n, start := d.now, tag := k.tag
    offPending := k.off.isSome, cut := k.cut, relVel := k.off.getD 0, member := k.member }

/-- A voice arms in a slot of this device: its block and WORK are written and its cluster reads them
(R161, R162, R165, R191, R270). DEDUCED (log 31), unsafe. -/
def armOwn (v : Nat) (taken : Bool) (x : Voice) (d : Dev) : Dev :=
  let d := calPreempt v taken d
  let d := mirrorVoice v (d.modVoice v (fun _ => x))
  let d := d.psV (vblk v + 0x40) (leBytes 2 8192 ++ leBytes 1 0 ++ leBytes 1 0 ++ leBytes 1 x.member)
  let d := d.psV (workAt v) (d.seen.psBytes (patchRec x.patch) 0x200)
  clusterArm v d

/-- A new voice of a worker has no LEVEL reported yet (R537). -/
def levelUnknown (v : Nat) (d : Dev) : Dev :=
  d.modCas (fun c => { c with workers := upd c.workers (v / 256) (fun w =>
    { w with levels := w.levels.map (fun e => if e.1 = v % 256 then (e.1, 0xFFFF) else e) }) })

/-- A voice placed in a slot: counted, on the bus, and in ALC_LAST_ALLOC (R181, R448). -/
def armSlot (v : Nat) (k : NewVoice) (d : Dev) : Dev :=
  let x := voiceOf d v k
  let d := if ownSlot v then armOwn v (k.taken.contains v) x d else emitDir (armDir x) (levelUnknown v (d.modVoice v (fun _ => x)))
  ((d.bump Reg.ALC_CNT_ALLOC).emit 12 1).putReg Reg.ALC_LAST_ALLOC (BitVec.ofNat 32 (x.tag % 65536 * 65536 + x.handle))

/-- A cut: the voice's slot passes at once to the new voice (R175). -/
def cutVoice (v : Nat) (d : Dev) : Dev :=
  let d := if ownSlot v then clusterQuench v d else emitDir (stateDir (d.voice v) 4 0) d
  ((d.bump Reg.ALC_CNT_CUT).setIrq Dom.ctrl Reg.ALC_IRQ_STAT 0).emit 14 1

/-- The slot planned for unison voice i of a note, while it is FREE or can be cut (R535). -/
def plannedSlot (d : Dev) (k : NewVoice) : Option Nat :=
  ((planOf d k.part).bind (fun x => x.slots[k.i]?)).filter (fun v => slotFree d v || (cuttable d).contains v)

/-- The slot a voice of a note takes: the one planned, one chosen for the note, a FREE slot, or one to cut (R174, R175,
R535).  DEDUCED (log 31), unsafe. -/
def slotFor (idx : Option Nat) (chosen : List Nat) (k : NewVoice) (d : Dev) : Option Nat :=
  (plannedSlot d k).orElse fun _ => (chosen.find? (slotFree d)).orElse fun _ =>
    (freeSlot d (chosenElsewhere d idx)).orElse fun _ => (freeSlot d []).orElse fun _ => cutSlot d

/-- A voice takes a slot, cutting the voice that is still there (R175). -/
def seatVoice (v : Nat) (k : NewVoice) (d : Dev) : Dev :=
  if slotFree d v then armSlot v k d else armSlot v { k with cut := true } (cutVoice v d)

/-- One voice of a note placed; the slots left of the choice are returned (R174, R175). -/
def placeVoice (idx : Option Nat) (chosen : List Nat) (k : NewVoice) (d : Dev) : Dev × List Nat :=
  match slotFor idx chosen k d with
  | some v => (seatVoice v k (recordSlot v d), chosen.filter (· != v))
  | none => (d, [])

/-- The voices of one part placed in turn (R172, R174). -/
def placeVoices (idx : Option Nat) (k : NewVoice) : List Nat → Dev × List Nat → Dev × List Nat
  | [], x => x
  | i :: r, x => placeVoices idx k r (placeVoice idx x.2 { k with i := i } x.1)

/-- A note-on as the Parlour takes it: a task's payload and tag, the slots chosen for it, and a note-off that
came while it waited (R178). -/
structure Note where
  idx : Option Nat
  chan : Nat
  key : Nat
  vel : Nat
  vel16 : Nat
  tag : Nat
  off : Option Nat
  taken : List Nat                  -- chosen slots that were under calibration (R270)
  own : List Nat                    -- voices that this note has reused in an earlier part (R173)
  deriving DecidableEq, Repr

/-- A note dropped (R173). -/
def dropNote (d : Dev) : Dev := ((d.bump Reg.ALC_CNT_DROP).setIrq Dom.ctrl Reg.ALC_IRQ_STAT 1).emit 15 1

/-- U of part p: the reserve still owed to other parts (R171). -/
def owed (d : Dev) (p : Nat) : Nat :=
  (((List.range 32).filter (· != p)).map (fun q => at_ d.par.res q 0 - heldOf d q)).foldl (· + ·) 0

/-- The steals of a placement: how many, from which parts, and whether reserves hold them back (R172). -/
def stealPlan (d : Dev) (p u : Nat) : Nat × (Nat → Bool) × Bool :=
  let n := heldOf d p
  let room := d.par.l - owed d p
  if (readPart d p).ceiling < n + u then (n + u - (readPart d p).ceiling, fun q => q == p, false)
  else if heldCount d + u ≤ room then (0, fun _ => false, false)
  else
    let need := min u (heldCount d + u - room)
    if n < at_ d.par.res p 0 then (need, fun q => q != p, true) else (need, fun _ => true, true)

/-- A victim enters STEALING with its own part's fade (R166, R173). -/
def stealVoice (v : Nat) (d : Dev) : Dev :=
  ((toStealing v (readPart d (d.voice v).part).fade d).bump Reg.ALC_CNT_STEAL).emit 13 1

/-- Slots a note can come to: FREE, or on their way there once its victims are (R175). -/
def spareSlots (d : Dev) : Nat :=
  ((List.range (slotCount d)).filter (slotFree d)).length + (cuttable d).length

/-- The victims of a note of u voices in part p, none where it is dropped: as the master planned them, while they can still
be stolen, else as the state now decides (R172, R173, R175, R535). -/
def victimsFor (p u : Nat) (note : Note) (d : Dev) : Option (List Nat) :=
  match planOf d p with
  | some x =>
    if x.drop then none else some (x.victims.filter (fun v => (d.voice v).state == .sounding || (d.voice v).state == .releasing))
  | none =>
    let c := readPart d p
    let pl := stealPlan d p u
    (pickVictims d note.own (victimKey d c.policy p ((c.keyOf note.key).getD 0)) pl.2.1 pl.2.2 pl.1 []).filter
      (fun vs => decide (u ≤ spareSlots d + vs.length))

/-- A note placed in part p in POLY fashion (R172 to R175). -/
def placePart (p : Nat) (note : Note) (chosen : List Nat) (d : Dev) : Dev × List Nat :=
  let c := readPart d p
  let u := min c.unison c.ceiling
  match victimsFor p u note d with
  | none => (dropNote (recordPlan p true [] d), chosen)
  | some vs =>
    placeVoices note.idx
      { part := p, key := (c.keyOf note.key).getD 0, vel := note.vel, vel16 := note.vel16, patch := c.patch, i := 0, n := u
        tag := note.tag, member := c.memberOf note.chan, cut := false, off := note.off, taken := note.taken } (List.range u)
      (forEach vs stealVoice (recordPlan p false vs d), chosen)

/-! ### MONO and LEGATO (R176) -/

/-- The held voices of a part. -/
def partHeld (d : Dev) (p : Nat) : List Nat := slotsWhere d (fun _ x => x.held && x.part == p)

/-- A key enters a stack of at most 16, the most recent first (R176). -/
def pushKey (key : Nat) (st : List Nat) : List Nat := (key :: st.filter (· != key)).take 16

/-- The stack of part p changed. DEDUCED (log 31), unsafe. -/
def modStack (p : Nat) (f : List Nat → List Nat) (d : Dev) : Dev :=
  { d with par := { d.par with monoStacks := upd d.par.monoStacks p f } }

/-- A voice reused for a key (R176): RELEASING returns to SOUNDING, OFF_PENDING and SUSTAINED clear. -/
def reuseVoice (v key : Nat) (mono restart glide : Bool) (d : Dev) : Dev :=
  let old := (d.voice v).key
  let fresh := (d.voice v).state == .arming && (d.voice v).start == d.now
  let d := setVoice v (fun x => { x with
    state := if x.state = .releasing then .sounding else x.state
    key := key, offPending := false, sustained := false, gotOff := false }) d
  if !ownSlot v then emitDir (retrigDir (d.voice v) restart glide) d
  else if fresh then d
  else clusterReuse v old key mono restart glide d

/-- What a reuse of part p at the present release goes by: was a key held before the release's first, and which of its
voices were RELEASING then (R176)? -/
def monoBefore (d : Dev) (p : Nat) (vs : List Nat) : Bool × List Nat :=
  let rel := vs.filter (fun v => (d.voice v).state == .releasing)
  let first := (!(at_ d.par.monoStacks p []).isEmpty, rel)
  match at_ d.par.monoAt p none with
  | some (e, h, r) => if e = d.now then (h, r ++ rel) else first
  | none => first

/-- A note-on of a MONO or LEGATO part that has a held voice: its voices are reused (R176). DEDUCED (log 31), unsafe. -/
def reusePart (p : Nat) (note : Note) (vs : List Nat) (d : Dev) : Dev :=
  let c := readPart d p
  let key := (c.keyOf note.key).getD 0
  let before := monoBefore d p vs
  let held := before.1
  let d := { d with par := { d.par with monoAt := upd d.par.monoAt p (fun _ => some (d.now, before)) } }
  let d := modStack p (pushKey note.key) d
  let mono := c.mode == 1
  forEach vs (fun v d =>
    let rel := before.2.contains v
    let d := d.modVoice v (fun x => { x with vel := note.vel, vel16 := note.vel16, tag := note.tag })
    reuseVoice v key mono (mono || !held || rel) (mono || (held && !rel)) d) d

/-- A note played in one part that it plays in (R172, R176). -/
def playPart (p : Nat) (note : Note) (x : Dev × List Nat) : Dev × List Nat :=
  let d := x.1
  if (readPart d p).mode = 0 then placePart p note x.2 d
  else
    let vs := partHeld d p
    if vs.isEmpty then
      let d := { d with par := { d.par with monoAt := upd d.par.monoAt p (fun _ => some (d.now, false, [])) } }
      placePart p note x.2 (modStack p (pushKey note.key) d)
    else (reusePart p note vs d, x.2)

/-! ### Note-offs (R168, R176) -/

/-- A note-off in one part (R168, R176). DEDUCED (log 31), unsafe. -/
def noteOffPart (p chan key rel : Nat) (d : Dev) : Dev :=
  let c := readPart d p
  match c.keyOf key with
  | none => d
  | some k =>
    let vs := slotsWhere d (fun v x =>
      (x.state == .arming || x.state == .sounding) && x.part == p && x.key == k && memberOfVoice d v == c.memberOf chan)
    let d := forEach vs (fun v d => setVoice v (fun x => { x with relVel := rel }) d) d
    if c.mode = 0 then forEach vs offVoice d
    else
      let d := modStack p (fun st => st.filter (· != key)) d
      match (at_ d.par.monoStacks p []).head? with
      | some back =>
        if vs.isEmpty then d
        else match c.keyOf back with
          | some k => forEach (partHeld d p) (fun v d => reuseVoice v k (c.mode == 1) (c.mode == 1) true d) d
          | none => forEach vs offVoice d
      | none => forEach vs offVoice d

/-- A note played in its parts, in ascending number; a note-off that came while it waited is applied
(R157, R176, R178). -/
def playNote (ps : List Nat) (note : Note) (chosen : List Nat) (d : Dev) : Dev :=
  (ps.foldl (fun (z : (Dev × List Nat) × List Nat) p =>
    let own := if (readPart z.1.1 p).mode = 0 then z.2 else z.2 ++ partHeld z.1.1 p
    let y := playPart p { note with own := z.2 } z.1
    match note.off with
    | some r => (if (readPart y.1 p).mode = 0 then y else (noteOffPart p note.chan note.key r y.1, y.2), own)
    | none => (y, own)) ((d, chosen), [])).1.1

/-! ### Arming limit and deferral (R177, R178, R535) -/

/-- The note of a payload. -/
def noteOf (idx : Option Nat) (pay : List Byte) (tag : Nat) (off : Option Nat) (taken : List Nat) : Note :=
  { taken := taken, own := [], idx := idx, chan := pay8 pay 1, key := pay8 pay 2, vel := pay8 pay 3, vel16 := pay16 pay 4, tag := tag, off := off }

/-- The parts a note-on's payload matches (R157). -/
def noteParts (d : Dev) (pay : List Byte) : List Nat × Nat :=
  matchParts d (fun c => c.takesNote (pay8 pay 0) (pay8 pay 1) (pay8 pay 2) (pay8 pay 3))

/-- A note-on that plays in some part: it arms if the EF's 32 and the superframe's 20 directives allow it; the answer says
whether it did.  An EF it waits for want of directives is counted (R177, R535, R545). -/
def armNote (note : Note) (pay : List Byte) (chosen : List Nat) (d : Dev) : Dev × Bool :=
  let ps := playsIn d (noteParts d pay).1 (pay8 pay 2)
  if 32 < d.par.armed + ps.length then (d, false)
  else
    let d1 := playNote ps note chosen { d with par := { d.par with armed := d.par.armed + ps.length } }
    if d.isMaster && decide (20 < d1.cas.dirUsed) && decide (d.cas.dirUsed < d1.cas.dirUsed) then
      ((d.bump Reg.CAS_CNT_DIR_DEFER).setIrq Dom.cas Reg.CAS_IRQ_STAT 4, false)
    else (d1, true)

/-- One EF of waiting counted (R177). DESIGN CHOICE (log 29), unsafe. DEDUCED (log 31), unsafe. -/
def countDefer (n : Nat) (d : Dev) : Dev :=
  if n = 0 then d else ((d.bumpBy Reg.ALC_ARM_DEFER n).setIrq Dom.ctrl Reg.ALC_IRQ_STAT 2).emit 16 n

/-- A note-on deferred, or dropped from a full queue (R177). -/
def deferNote (t : Task) (d : Dev) : Dev :=
  if d.par.deferred.length < 256 then
    countDefer 1 { d with par := { d.par with
      deferred := d.par.deferred ++ [{ tag := t.tag, flow := t.flow, payload := t.payload, since := d.now, off := none
                                       order := t.order, tried := none }] } }
  else dropNote d

/-- What a note-on counts when it plays in no part, and its done status; a deferred note-on has counted the parts
disabled for their settings at its commit (R156, R157, R160).  One that only parts disabled for their settings would match
counts once for each of these and not once more for matching no part, a point R156 and R157 leave open.  DESIGN CHOICE (log 31),
unsafe. -/
def noteStatus (deferred : Bool) (pay : List Byte) (d : Dev) : Dev × Nat :=
  let m := noteParts d pay
  let n := if deferred then 0 else m.2
  let d1 := countNoPart n d
  if m.1.isEmpty then ((countNoPart (if n = 0 then 1 else 0) d1).setIrq Dom.ctrl Reg.ALC_IRQ_STAT 4, 3)
  else if (playsIn d m.1 (pay8 pay 2)).isEmpty then
    (if m.1.any (fun p => ((readPart d p).keyOf (pay8 pay 2)).isNone) then countNoPart 1 d1 else d1, 3)
  else (d1, 0)

/-- The first deferred note-on arms, if it waited from an earlier EF and the EF has room, which it looks for once in an EF;
the answer says whether the queue moved (R177, R178). -/
def armDeferredOne (d : Dev) : Dev × Bool :=
  match d.par.deferred with
  | [] => (d, false)
  | x :: r =>
    if x.since = d.now ∨ x.tried = some d.now then (d, false)
    else
      let y := armNote (noteOf none x.payload x.tag x.off []) x.payload []
        (forTask (some (deferId x.order)) { d with par := { d.par with deferred := r } })
      let e := forTask d.cas.dirTask y.1
      if y.2 then ((noteStatus true x.payload e).1, true)
      else ({ e with par := { e.par with deferred := { x with tried := some d.now } :: r } }, false)

/-- Every deferred note-on the EF allows arms, in commit order (R177). -/
def armDeferred : Nat → Dev → Dev
  | 0, d => d
  | n + 1, d =>
    let y := armDeferredOne d
    if y.2 then armDeferred n y.1 else y.1

/-- Ahead of any commit of an EF every deferred note-on that can arm does (R177). -/
def deferredFirst (d : Dev) : Dev := armDeferred d.par.deferred.length d

/-- A commit's effect, after the deferred note-ons: `f` gives the device after the task's own effect and the done status
(R130, R177). -/
def commitWith (i : Nat) (kind : Task → Bool) (f : Task → Dev → Dev × Nat) (d : Dev) : Dev :=
  match commits d i kind with
  | some t =>
    let r := f t (forTask (some t.idx) (deferredFirst d))
    finishTask t r.2 (forTask none r.1)
  | none => d

/-- Has every change of voices that the present release's notes bring been made: no deferred note-on can arm and no task is
left to commit (R129, R177)? -/
def notesSettled (d : Dev) : Bool := !d.acceptNow || ((nextCommit d).isNone && !(armDeferredOne d).2)

/-- DEFERRED_NOTE_ARM: ahead of an EF's own commits the first deferred note-on arms (R177). -/
def deferredNoteArmDev (d : Dev) : Dev :=
  if d.acceptNow && d.isOn Dom.ctrl then (armDeferredOne d).1 else d

/-- DEFERRED_NOTE_ARM (R177). -/
def execDeferredNoteArm (s : State) : Host.Outcome State Fault Refusal := devNext s deferredNoteArmDev

/-- A note-on's commit: decided against the state earlier ones leave, deferred beyond the limits (R172, R177). -/
def noteOnCommit (t : Task) (d : Dev) : Dev × Nat :=
  let st := noteStatus false t.payload d
  if st.2 ≠ 0 then st
  else if d.par.deferred.any (fun x => x.flow == t.flow) then (deferNote t st.1, 0)
  else
    let y := armNote (noteOf (some t.idx) t.payload t.tag none t.taken) t.payload t.chosen st.1
    if y.2 then (y.1, 0) else (deferNote t y.1, 0)

/-- NOTE_ON (R172): the directives of its commit are the task's. -/
def noteOnDev (i : Nat) (d : Dev) : Dev :=
  commitWith i (fun t => t.typ == Typ.noteOn) noteOnCommit d

/-- NOTE_ON (R172). -/
def execNoteOn (idx : Nat) (s : State) : Host.Outcome State Fault Refusal := devNext s (noteOnDev idx)

/-! ### The choice of slots (R28) -/

/-- Voices a note-on in flight will need slots for (R28, R172, R176). -/
def slotsNeeded (d : Dev) (pay : List Byte) : Nat :=
  ((playsIn d (noteParts d pay).1 (pay8 pay 2)).map (fun p =>
    let c := readPart d p
    if c.mode ≠ 0 ∧ !(partHeld d p).isEmpty then 0 else min c.unison c.ceiling)).foldl (· + ·) 0

/-- The voices a note-on in flight will reuse: those its MONO and LEGATO parts hold (R176). -/
def reuseFor (d : Dev) (pay : List Byte) : List Nat :=
  (playsIn d (noteParts d pay).1 (pay8 pay 2)).flatMap (fun p => if (readPart d p).mode ≠ 0 then partHeld d p else [])

/-- One note-on's slots chosen, those of other notes counting as taken, and the voices it will reuse; a chosen slot
under calibration is taken from its run at once (R28, R176, R270, R333). -/
def chooseFor (t : Task) (d : Dev) : Dev :=
  let busy := (chosenElsewhere d (some t.idx)).foldl (fun d v => d.modVoice v (fun x => { x with state := .arming })) d
  let vs := chooseSlots (slotsNeeded d t.payload) busy []
  let cal := vs.filter (fun v => ownSlot v && underCal d v)
  let d := d.modTask t.idx (fun x => { x with chosen := vs, taken := cal, reuse := reuseFor d t.payload })
  forEach cal calTake d

/-- At a release the Parlour chooses the slots of the note-ons released one EF before, in release order (R28). -/
def chooseRelease (d : Dev) : Dev :=
  let due := d.alm.pool.filter (fun t =>
    t.typ == Typ.noteOn && t.state != .waiting && !t.returned && decide (efAdd t.relEf 1 = d.now))
  (List.range due.length).foldl (fun (x : Dev × List Task) _ =>
    match firstBy (fun a b => decide (a.gseq < b.gseq)) x.2 with
    | some t => (chooseFor t x.1, x.2.filter (fun u => u.idx != t.idx))
    | none => x) (d, due) |>.1

/-! ### Shedding (R62, R180, R537) -/

/-- The order of shedding: the late set first, state, PRIORITY, part, the part's policy, slot (R180).  A part whose POLICY is
SAME_NOTE is ranked as OLDEST, since no key asks here, which R180 leaves open.  DESIGN CHOICE (log 31), unsafe. -/
def shedKey (d : Dev) (set : List Nat) (v : Nat) : List Int :=
  let x := d.voice v
  [if set.contains (v / 16) then 0 else 1
   , if x.state = .releasing then 0 else if x.state = .sounding then 1 else 2
   , ((readPart d x.part).priority : Int), (x.part : Int)] ++
  (let pol := (readPart d x.part).policy
   policyKey d (if pol = 3 then 0 else pol) 32 0 v) ++ [(v : Int)]

/-- One voice shed (R180). -/
def shedOne (v : Nat) (d : Dev) : Dev :=
  let d := if (d.voice v).state = .arming then toQuench v d else toStealing v (readPart d (d.voice v).part).fade d
  d.bump Reg.ALC_CNT_SHED

/-- n held voices of a set of slots shed in order. -/
def shedFrom (set : List Nat) (pick : Nat → Bool) : Nat → Dev → Dev
  | 0, d => d
  | n + 1, d =>
    match leastBy (shedKey d set) (slotsWhere d (fun v x => x.held && pick v)) with
    | some v => shedFrom set pick n (shedOne v d)
    | none => d

/-- The guard's shedding of the device's own slots down to its held limit (R62, R180). -/
def guardShed (set : List Nat) (d : Dev) : Dev :=
  let p := ownP d
  let held := (slotsWhere d (fun v x => x.held && ownSlot v)).length
  shedFrom set ownSlot (held - (p - headroomOf d p)) (poolUpdate d)

/-- A worker whose offer has fallen below the voices held on it: the master sheds the excess there, of which the voices it
has sent to STEALING or QUENCH are already shed (R537).  DEDUCED (log 29), unsafe. -/
def offerShed (q : Nat) (d : Dev) : Dev :=
  shedFrom [] (fun v => v / 256 == q) (liveOn d q - (workerOf d q).offer) d

/-! ### Slot events (R165 to R167, R204, R237) -/

/-- FIRST_SAMPLE: at e + 4 the voice enters SOUNDING; a pending note-off takes effect under the pedal rules
(R165, R178). -/
def firstSampleDev (v : Nat) (d : Dev) : Dev :=
  let x := d.voice v
  if x.state = .arming ∧ efReached d.now (efAdd x.start 4) ∧ d.isOn Dom.ctrl then
    let d := setVoice v (fun x => { x with state := .sounding, offPending := false }) d
    if x.offPending then offVoice v d else d
  else d

/-- FIRST_SAMPLE (R165). -/
def execFirstSample (v : Nat) (s : State) : Host.Outcome State Fault Refusal := devNext s (firstSampleDev v)

/-- STEAL_FADE_END: at s + F the voice enters QUENCH (R166). -/
def stealFadeEndDev (v : Nat) (d : Dev) : Dev :=
  let x := d.voice v
  if ownSlot v ∧ x.state = .stealing ∧ efReached d.now (efAdd x.fadeAt x.fadeLen) then toQuench v d else d

/-- STEAL_FADE_END (R166). -/
def execStealFadeEnd (v : Nat) (s : State) : Host.Outcome State Fault Refusal := devNext s (stealFadeEndDev v)

/-- QUENCH_END: at q + 3 the slot is FREE (R167). -/
def quenchEndDev (v : Nat) (d : Dev) : Dev :=
  let x := d.voice v
  if ownSlot v ∧ x.state = .quench ∧ efReached d.now (efAdd x.quenchAt 3) then toFree v d else d

/-- QUENCH_END (R167). -/
def execQuenchEnd (v : Nat) (s : State) : Host.Outcome State Fault Refusal := devNext s (quenchEndDev v)

/-- Is a voice chosen for reuse by a note-on in flight (R176)? -/
def reuseChosen (d : Dev) (v : Nat) : Bool := d.alm.pool.any (fun t => !t.returned && t.reuse.contains v)

/-- ENV0_COMPLETE: at z + 6 the voice is FREE and its cell quenches; the release's commits come first, and a voice
chosen for reuse stays until the effect EF of its note (R167, R176, R237). -/
def env0CompleteDev (v : Nat) (d : Dev) : Dev :=
  let x := d.voice v
  match (d.vaud v).zero with
  | none => d
  | some z =>
    if ownSlot v ∧ (x.state = .releasing ∨ x.state = .sounding) ∧ efReached d.now (efAdd z 6) ∧
        !reuseChosen d v ∧ notesSettled d then
      quenchCell v false (toFree v d)
    else d

/-- ENV0_COMPLETE (R237). -/
def execEnv0Complete (v : Nat) (s : State) : Host.Outcome State Fault Refusal := devNext s (env0CompleteDev v)

/-- BACKGROUND_RUN_COMPLETE: every step has ended; the record is written at one release, a note that chooses the slot at that
release coming first (R326, R330, R332, R333). -/
def backgroundRunCompleteDev (v : Nat) (d : Dev) : Dev :=
  match calRunOf d v with
  | none => d
  | some r =>
    if r.step = 6 ∧ !d.cal.fgBusy ∧ d.timerRuns ∧ notesSettled d then
      ((runEnds false r d).setIrq Dom.cal Reg.CAL_IRQ_STAT 0) |> calLast (if r.failStep = 0 then 1 else 2) r.failStep v
    else d

/-- BACKGROUND_RUN_COMPLETE (R332). -/
def execBackgroundRunComplete (v : Nat) (s : State) : Host.Outcome State Fault Refusal :=
  devNext s (backgroundRunCompleteDev v)

/-- SAMPLE_END_VOICE: at the release after every END_VOICE oscillator has ended the voice enters RELEASING
(R204). -/
def sampleEndVoiceDev (v : Nat) (d : Dev) : Dev :=
  match (d.vaud v).endAt with
  | none => d
  | some e =>
    if ownSlot v ∧ (d.voice v).state = .sounding ∧ efReached d.now (efAdd e 1) then toReleasing v d else d

/-- SAMPLE_END_VOICE (R204). -/
def execSampleEndVoice (v : Nat) (s : State) : Host.Outcome State Fault Refusal := devNext s (sampleEndVoiceDev v)

end Sys2Proof.Machine
end

