-- ==== Sys2Proof/Machine/Frame.lean ====
section
/-! DEFINITION. The slack monitor, the VID loop and the deadline guard (R50 to R70). -/

namespace Sys2Proof.Machine

open Sys2Proof

/-! ### Slack monitor (R50, R51, R69, R70) -/

/-- The slack of a frame recorded for cluster c: LAST, MIN, and the frame's list (R50). -/
def slackRecord (c slack : Nat) (d : Dev) : Dev :=
  let a := Reg.GLB_SLACK c
  let d := (d.putFld a 5 0 slack).putFld a 13 8 (min (d.fld a 13 8) slack)
  { d with frame := { d.frame with slackNow := d.frame.slackNow ++ [(c, slack)] } }

/-- SLACK_MIN_CLEAR: MIN_CLR sets MIN to 3Fh (R70). -/
def slackMinClearDev (c : Nat) (v : Word) (d : Dev) : Dev :=
  if c < 16 ∧ v.getLsbD 15 then d.putFld (Reg.GLB_SLACK c) 13 8 63 else d

/-- SLACK_MIN_CLEAR (R70). -/
def execSlackMinClear (c : Nat) (value : Word) (s : State) : Host.Outcome State Fault Refusal :=
  hostNext s (slackMinClearDev c value)

/-- The active clusters that have not delivered the frame of the EF that ends: they are late (R42, R51, R57). -/
def lateClusters (d : Dev) : List Nat :=
  (List.range 16).filter (fun c => d.active c && (d.clu c).due.contains d.now)

/-- The lowest slack of a list and the lowest cluster that has it (R69). -/
def lowestSlack : List (Nat × Nat) → Nat × Nat
  | [] => (63, 0)
  | (c, s) :: r =>
    let m := lowestSlack r
    if r.isEmpty then (s, c)
    else if s < m.1 then (s, c)
    else if s = m.1 then (s, min c m.2)
    else m

/-- The present EF counted in GLB_GUARD.CLEAN, unless STEPS fell in it (R61). DEDUCED (log 36), unsafe. -/
def cleanEf (d : Dev) : Dev :=
  if d.frame.stepEf ∨ d.frame.cleanAt = some d.now then d
  else { d with frame := { d.frame with clean := min (d.frame.clean + 1) 65537, cleanAt := some d.now } }

/-- Once every cluster has delivered the frame of a guard EF, the EF is a clean one (R61). DEDUCED (log 36), unsafe. -/
def countClean (d : Dev) : Dev := if d.frame.audio && (lateClusters d).isEmpty then cleanEf d else d

/-- The slacks of the EF that ends: those delivered, and 0 for each late cluster, of the active clusters alone (R50,
R51). -/
def efSlacks (d : Dev) : List (Nat × Nat) :=
  d.frame.slackNow.filter (fun p => d.active p.1) ++ (if d.frame.audio then lateClusters d else []).map (fun c => (c, 0))

/-- The frame counts of the EF that ends, at the next release: GLB_SLACK_DEV, which reads 3Fh for an EF with no active
cluster, the window's minimum, and CLEAN, which counts guard EF alone (R50, R54, R60, R61, R69). -/
def frameEnd (d : Dev) : Dev :=
  let m := lowestSlack (efSlacks d)
  let late := lateClusters d
  let d := (d.putFld Reg.GLB_SLACK_DEV 5 0 m.1).putFld Reg.GLB_SLACK_DEV 11 8 m.2
  let d := if !d.frame.audio then d
    else if late.isEmpty then cleanEf d else { d with frame := { d.frame with clean := 0 } }
  { d with frame := { d.frame with slackNow := [], winMin := min d.frame.winMin m.1, stepEf := false } }

/-- A 4,096 EF window ends at a release whose EF is a multiple of 4,096: WIN_MIN (R54, R69). -/
def windowEnd (d : Dev) : Dev :=
  if d.now % 4096 = 0 then
    let d := d.putFld Reg.GLB_SLACK_DEV 21 16 d.frame.winMin
    { d with frame := { d.frame with winMin := 63, winDone := false }, mgt := { d.mgt with lowLogged := false } }
  else d

/-! ### VID loop (R53 to R56) -/

/-- The code on VID[3:0] (R53, R55, R56, R481). -/
def vidPins (d : Dev) : Nat :=
  if d.frame.vid.fault then 15
  else if d.flag Reg.GLB_VID 8 then d.fld Reg.GLB_VID 15 12
  else if d.isOn Dom.mgmt then d.frame.vid.code
  else 15

/-- The firmware runs the loop: it runs, RUN is reached, MANUAL is 0 and the loop has not stopped (R53 to
R56, R104). -/
def vidLoopRuns (d : Dev) : Bool :=
  d.isOn Dom.mgmt && d.mgt.mode == 2 && d.stage == Stage.run && !d.flag Reg.GLB_VID 8 && !d.frame.vid.fault

/-- The loop's own state changed. -/
def Dev.modVid (d : Dev) (f : Vid → Vid) : Dev := { d with frame := { d.frame with vid := f d.frame.vid } }

/-- A code put on the pins; the settling wait starts (R55). -/
def vidDrive (code : Nat) (d : Dev) : Dev :=
  if code = d.frame.vid.code then d
  else
    (d.modVid (fun x => { x with code := code, requested := code, settling := true, settled := false })).emit 20 1

/-- A request: applied at once, or kept as the latest while the rail settles (R54, R55). DEDUCED (log 36), unsafe. -/
def vidRequest (code : Nat) (d : Dev) : Dev :=
  if d.frame.vid.settling then d.modVid (fun x => { x with request := some code })
  else vidDrive code d

/-- Low slack with code 15 already on the pins, logged at most once per window (R55). -/
def vidLow (d : Dev) : Dev :=
  let m := d.fld Reg.GLB_SLACK_DEV 21 16
  if d.frame.vid.code = 15 ∧ m < 16 ∧ !d.mgt.lowLogged then
    { (d.logEv 0x04 0x03 1 [m]) with mgt := { (d.logEv 0x04 0x03 1 [m]).mgt with lowLogged := true } }
  else d

/-- VID_WINDOW_END: the loop at the window's end (R54, R55). -/
def vidWindowEndDev (d : Dev) : Dev :=
  if d.frame.winDone || !vidLoopRuns d then d
  else
    let d := { d with frame := { d.frame with winDone := true } }
    let m := d.fld Reg.GLB_SLACK_DEV 21 16
    let v := d.frame.vid
    let hold := v.holdoff - 1
    let d := d.modVid (fun x => { x with holdoff := hold })
    if m < 16 then
      vidRequest (min (v.code + 1) 15) (vidLow (d.modVid (fun x => { x with down := 0 })))
    else if 32 ≤ m ∧ hold = 0 then
      if v.down + 1 = 4 then
        vidRequest (max (v.code - 1) (d.fld Reg.GLB_VID 7 4)) (d.modVid (fun x => { x with down := 0 }))
      else d.modVid (fun x => { x with down := v.down + 1 })
    else d.modVid (fun x => { x with down := 0 })

/-- VID_WINDOW_END (R54). -/
def execVidWindowEnd (s : State) : Host.Outcome State Fault Refusal := devNext s vidWindowEndDev

/-- The settling wait ends: the latest request that fell due in it is applied (R55). -/
def vidWaitEnds (d : Dev) : Dev :=
  let r := d.frame.vid.request
  let d := d.modVid (fun x => { x with settling := false, request := none })
  match r with
  | some c => if vidLoopRuns d then vidDrive c d else d
  | none => d

/-- VID_SETTLED: the rail is within 15 mV of the request; a settling wait ends (R55, R67). -/
def vidSettledDev (d : Dev) : Dev :=
  if d.frame.vid.settling then
    vidWaitEnds (d.modVid (fun x => { x with settled := true, timeouts := 0 }))
  else d.modVid (fun x => { x with settled := true })

/-- What MANUAL does to the loop, whose pins were at `old`: while it is 1 the loop is stopped with no wait and no request; when
it clears, a loop that runs goes on from the code on the pins, and one that has not started stays at 1111b (R53, R56).
DEDUCED (log 36), unsafe. -/
def vidManual (was : Bool) (old : Nat) (d : Dev) : Dev :=
  if d.flag Reg.GLB_VID 8 then d.modVid (fun x => { x with settling := false, request := none })
  else if was then d.modVid (fun x => { x with code := if vidLoopRuns d then old else 15 })
  else d

/-- After a change of what decides the pins: a new code on them is not yet settled, and is an occurrence of VID_CHANGE (R55,
R448). -/
def vidMoved (old : Nat) (d : Dev) : Dev :=
  if vidPins d = old then d
  else (d.modVid (fun x => { x with settled := false, requested := vidPins d })).emit 20 1

/-- VID_SETTLED; not while the test port holds the device in reset (R571, R55). -/
def execVidSettled (s : State) : Host.Outcome State Fault Refusal := if s.held then .next s else devNext s vidSettledDev

/-- VID_SETTLE_TIMEOUT: the wait ends after 200 µs and is logged; the third in a row stops the loop, drives
1111b and asserts FAULT_N (R55). -/
def vidSettleTimeoutDev (d : Dev) : Dev :=
  if !d.frame.vid.settling then d
  else
    let n := d.frame.vid.timeouts + 1
    let d := (d.modVid (fun x => { x with timeouts := n })).logEv 0x04 0x01 1 [d.frame.vid.requested]
    if n < 3 then vidWaitEnds d
    else
      let d := if vidPins d = 15 then d else d.emit 20 1
      ((d.modVid (fun x => { x with fault := true, settling := false, request := none })).logEv 0x04 0x02 3 []).setFault 1

/-- VID_SETTLE_TIMEOUT (R55). -/
def execVidSettleTimeout (s : State) : Host.Outcome State Fault Refusal := devNext s vidSettleTimeoutDev

/-- The loop's answer to a late frame (R54). DEDUCED (log 36), unsafe. -/
def vidLate (d : Dev) : Dev :=
  if vidLoopRuns d then
    (vidRequest (min (d.frame.vid.code + 4) 15) d).modVid (fun x => { x with down := 0, holdoff := 16 })
  else d

/-! ### Deadline guard (R57, R60 to R62) -/

/-- STEPS changed: the event and the log entry (R448, R505). DEDUCED (log 36), unsafe. -/
def guardSteps (n : Nat) (d : Dev) : Dev :=
  (({ d with frame := { d.frame with steps := n } }).emit 19 1).logEv 0x03 0x04 1 [n]

/-- The guard EF that the frame before the present release belongs to. -/
def lateGuardEf (d : Dev) : Nat := if d.frame.audio then d.frame.guardEf - 1 else d.frame.guardEf

/-- One late EF: it opens a window, or counts in the open one; the fourth closes it and raises STEPS by 1,
at most to 12, and the Parlour sheds (R60, R62, R180). -/
def lateEf (set : List Nat) (d : Dev) : Dev :=
  let g := lateGuardEf d
  if d.frame.lateIdx = some g then d
  else
    let d := ({ d with frame := { d.frame with lateIdx := some g } }).emit 18 1
    if d.frame.winOpen ∧ g < d.frame.winStart + 1024 then
      let all := set ++ d.frame.winSet
      if d.frame.winLate = 3 then
        let d := { d with frame := { d.frame with winOpen := false, winLate := 0, winSet := [] } }
        if d.frame.steps < 12 then guardShed all (guardSteps (d.frame.steps + 1) d) else d
      else { d with frame := { d.frame with winLate := d.frame.winLate + 1, winSet := all } }
    else
      { d with frame := { d.frame with winOpen := true, winStart := g, winLate := 1, winSet := set } }

/-- The frame-late entry: at most one per cluster in 1,024 EF, with the late frames since the previous (R57). -/
def lateLog (c : Nat) (d : Dev) : Dev :=
  let x := d.clu c
  let n := x.lateSince + 1
  let quiet := match x.lateLogAt with
    | none => true
    | some e => decide (1024 ≤ efSince d.now e)
  if quiet then
    (d.modClu c (fun x => { x with lateSince := 0, lateLogAt := some d.now })).logEv 0x03 0x02 1
      [c, 0, 0, 0, n % 256, n / 256 % 256, n / 65536 % 256, n / 16777216 % 256]
  else d.modClu c (fun x => { x with lateSince := n })

/-- A frame of cluster c counted as late (R57). DESIGN CHOICE (log 37), unsafe. -/
def countLate (c : Nat) (d : Dev) : Dev :=
  lateLog c ((((d.bump Reg.GLB_FRAME_LATE).bumpFld (Reg.GLB_SLACK c) 31 16 1).emit (32 + c) 1).modClu c
    (fun x => { x with lateAt := some (lateGuardEf d) }))

/-- The clusters that had not delivered the frame before the present release. DESIGN CHOICE (log 37), unsafe. -/
def lateSet (d : Dev) : List Nat :=
  let k := efAdd d.now (efWrap - 1)
  (List.range 16).filter (fun c => d.active c && (d.clu c).due.contains k)

/-- DEADLINE_MISS: cluster c, being active, had not delivered frame k at release k + 1 (R51).  The mix goes on with its held
contribution; the frame is counted, logged, and answered by the guard and the VID loop (R57, R50, R54, R60). -/
def deadlineMissDev (c : Nat) (d : Dev) : Dev :=
  let k := efAdd d.now (efWrap - 1)
  if !(decide (c < 16) && d.active c && (d.clu c).due.contains k && (d.clu c).missAt != some d.now) then d
  else
    let set := lateSet d
    let d := d.modClu c (fun x => { x with missAt := some d.now })
    let a := Reg.GLB_SLACK c
    let d := (d.putFld a 5 0 0).putFld a 13 8 0
    vidLate (lateEf set (countLate c d))

/-- DEADLINE_MISS (R57). -/
def execDeadlineMiss (c : Nat) (s : State) : Host.Outcome State Fault Refusal := devNext s (deadlineMissDev c)

/-- GUARD_WINDOW_END: a window of 1,024 guard EF ends with fewer than four late EF (R60). -/
def guardWindowEndDev (d : Dev) : Dev :=
  if d.frame.winOpen ∧ d.frame.winStart + 1024 ≤ d.frame.guardEf then
    { d with frame := { d.frame with winOpen := false, winLate := 0, winSet := [] } }
  else d

/-- GUARD_WINDOW_END (R60). -/
def execGuardWindowEnd (s : State) : Host.Outcome State Fault Refusal := devNext s guardWindowEndDev

/-- GUARD_STEP_DOWN: CLEAN reached 65,536 in an earlier EF with STEPS above 0: in this guard EF STEPS falls by 1 and
CLEAN starts again from 0 after it (R61). -/
def guardStepDownDev (d : Dev) : Dev :=
  if d.frame.audio ∧ 0 < d.frame.steps ∧ 65536 ≤ d.frame.clean ∧ (d.frame.clean = 65537 ∨ d.frame.cleanAt ≠ some d.now) then
    guardSteps (d.frame.steps - 1) { d with frame := { d.frame with clean := 0, stepEf := true } }
  else d

/-- GUARD_STEP_DOWN (R61). -/
def execGuardStepDown (s : State) : Host.Outcome State Fault Refusal := devNext s guardStepDownDev

end Sys2Proof.Machine
end

