-- ==== Sys2Proof/Machine/Serial.lean ====
section
/-! DEFINITION. The serial ports: line settings, receiver, transmitter, FIFOs, the MIDI parser and its system
exclusive messages (R371 to R402). -/

namespace Sys2Proof.Machine

open Sys2Proof

/-- Port n. -/
def Dev.ser1 (d : Dev) (n : Nat) : SerPort := at_ d.ser.ports n SerPort.reset

/-- Port n changed. -/
def Dev.modSer (d : Dev) (n : Nat) (f : SerPort → SerPort) : Dev :=
  { d with ser := { d.ser with ports := upd d.ser.ports n f } }

/-- Port n's parser changed. -/
def Dev.modParser (d : Dev) (n : Nat) (f : Parser → Parser) : Dev :=
  d.modSer n (fun p => { p with parser := f p.parser })

/-- Is the port's domain ON, with REFCLK for its oversamplers (R39, R43)? -/
def Dev.serOn (d : Dev) (n : Nat) : Bool := decide (n < 4) && d.isOn Dom.serial && d.frame.refValid

/-- The modes of a port (R399). -/
abbrev serOff : Nat := 0
/-- R399. -/
abbrev serUart : Nat := 1
/-- R399. -/
abbrev serMidi : Nat := 2
/-- R399. -/
abbrev serIr : Nat := 3

/-- SER_CTLn.MODE. -/
def Dev.serMode (d : Dev) (n : Nat) : Nat := d.fld (Reg.SER_CTL n) 1 0

/-- A bit of SER_IRQ_STATn sets. -/
def serIrq (n b : Nat) (d : Dev) : Dev := d.setIrq Dom.serial (Reg.SER_IRQ_STAT n) b

/-- A count of SER_CNT_ERRn rises (R402). -/
def serErr (n hi lo : Nat) (d : Dev) : Dev := d.bumpFld (Reg.SER_CNT_ERR n) hi lo 1

/-- A time in milliseconds in EF, rounded half away from zero; 0 encodes 4,096 (R380, R391, R398). -/
def msEf (d : Dev) (v : Nat) : Nat := roundHalfUp (countOf v 4096 * (8 * d.fb)) 1000

/-! ### System exclusive buffers (R389 to R391) -/

/-- Where byte k of a buffer lies in management RAM. -/
def sysexAt (buf k : Nat) : Nat := 0x38000 + 0x800 * buf + k

/-- A message's end: its buffer is freed where it posts no task. -/
def freeBuf (b : Nat) (d : Dev) : Dev := { d with ser := { d.ser with bufs := upd d.ser.bufs b (fun _ => none) } }

/-- An abort: the buffer is freed, the abort flagged, counted and logged with its cause; after any cause but a
status byte, data bytes are ignored up to the next status byte (R391, R505). -/
def sysexAbort (n cause : Nat) (d : Dev) : Dev :=
  match (d.ser1 n).parser.sysex with
  | none => d
  | some x =>
    let d := freeBuf x.buf (d.modParser n (fun p => { p with sysex := none, data := [], ignoring := cause != 1 }))
    ((serIrq n 7 d).bump Reg.SER_CNT_SYSEX_ABORT).logEv 0x05 0x03 1 [n, cause]

/-- A parser reset: running status cleared, an incomplete message dropped, a system exclusive message aborted;
the last CC0 and CC32 stay (R385, R386). -/
def parserReset (n : Nat) (d : Dev) : Dev :=
  (sysexAbort n 3 d).modParser n (fun p => { p with status := 0, data := [], skip := 0 })

/-! ### The characters on SPn_TX (R371, R372, R393) -/

/-- The bits of a character under the settings `ctl`: start, data with the least significant bit first, parity, and one stop
bit or two; MIDI mode has no parity and one stop bit (R371, R399).
No state holds the level between edges. DESIGN CHOICE (log 41), safe. -/
def charBits (ctl : Word) (b : Byte) : List Bool :=
  let midi := ctl.bits 1 0 = serMidi
  let data := (List.range 8).map (fun k => b.getLsbD k)
  let odd := (data.filter id).length % 2 = 1
  false :: data ++
    (if midi then [] else if ctl.bits 3 2 = 1 then [decide odd] else if ctl.bits 3 2 = 2 then [!decide odd] else []) ++
    (if !decide midi && ctl.getLsbD 4 then [true, true] else [true])

/-- DIV_code as a port uses it: in MIDI mode a fixed one by RATEFAM (R373). -/
def serDiv (fam44 : Bool) (ctl div : Word) : Nat :=
  if ctl.bits 1 0 = serMidi then (if fam44 then 0xB4A else 0xC4A) else div.bits 15 0

/-- The SCLK period, from a character's oversample 0, at which its oversample j falls (R372). -/
def overAt (div j : Nat) : Nat := j * div / 16

/-- The pulse of bit i of a character in IR mode, from its first SCLK period to the one after its last: it begins at
oversample 6 and lasts 3 oversamples, or 1.628 µs with IR_PULSE (R393). -/
def irPulse (fam44 : Bool) (ctl : Word) (div i : Nat) : Nat × Nat :=
  let a := overAt div (16 * i + 6)
  (a, if ctl.getLsbD 5 then a + (if fam44 then 147 else 160) else overAt div (16 * i + 9))

/-- The levels a character puts on SPn_TX, each with the SCLK period from which it holds: its bits, or in IR mode a pulse
for each 0 bit and none for a 1 bit, high unless IR_TXINV (R371, R372, R393). -/
def charEdges (fam44 : Bool) (ctl : Word) (div : Nat) (b : Byte) : List (Nat × Bool) :=
  let bits := charBits ctl b
  (List.range bits.length).flatMap (fun i =>
    let bit := bits.getD i true
    if ctl.bits 1 0 = serIr then
      (if bit then []
       else [((irPulse fam44 ctl div i).1, !ctl.getLsbD 6), ((irPulse fam44 ctl div i).2, ctl.getLsbD 6)])
    else [(overAt div (16 * i), bit)])

/-- The idle level of SPn_TX: high, and in IR mode the opposite of a pulse (R371, R393). -/
def txIdle (ctl : Word) : Bool := if ctl.bits 1 0 = serIr then ctl.getLsbD 6 else true

/-- What SPn_TX does: high impedance, a level, or the levels of a character being sent. -/
inductive TxPin where
  | highZ
  | level (high : Bool)
  | sending (edges : List (Nat × Bool))
  deriving DecidableEq, Repr

/-- The level of port n's transmitter at rest: low in a break, else idle (R383, R393). -/
def txRest (d : Dev) (n : Nat) : Bool := !(d.ser1 n).txBreak && txIdle (d.reg (Reg.SER_CTL n))

/-- SPn_TX: high impedance until SERIAL is first ON, the latched level while its pads are latched, then a break, the
character in the shifter or the idle level (R104, R371, R383, R393, R396, R481). -/
def txPin (d : Dev) (n : Nat) : TxPin :=
  let p := d.ser1 n
  if (d.dom Dom.serial).latched then .level (at_ d.ser.held n true)
  else if !(d.dom Dom.serial).everOn then .highZ
  else if p.txBreak then .level false
  else match p.shifter with
    | some b => .sending (charEdges d.fam44 p.txCtl (serDiv d.fam44 p.txCtl p.txDiv) b)
    | none => .level (txRest d n)

/-! ### Transmitter (R374, R383) -/

/-- Bytes of an answer enter the TX FIFO as it has room (R517). -/
def SerPort.fill (p : SerPort) : SerPort :=
  { p with tx := p.tx ++ p.reply.take (64 - p.tx.length), reply := p.reply.drop (64 - p.tx.length) }

/-- The transmitter starts the next waiting character, under the settings now in force, if it can; in IR mode the receiver
ignores the line from then on, and with it the rest of a character it was inside (R374, R383, R394).
DESIGN CHOICE (log 19), unsafe. -/
def txKick (n : Nat) (d : Dev) : Dev :=
  let d := d.modSer n SerPort.fill
  let p := d.ser1 n
  if p.shifter.isSome || p.txBreak || p.txGap || d.serMode n == serOff then d
  else match p.tx with
    | [] => d
    | b :: r => d.modSer n (fun p => SerPort.fill { p with
        shifter := some b, tx := r, txCtl := d.reg (Reg.SER_CTL n), txDiv := d.reg (Reg.SER_DIV n)
        armed := p.armed || (p.inChar && d.serMode n == serIr), inChar := p.inChar && d.serMode n != serIr
        line := if d.serMode n = serIr then some (d.now, false) else p.line })

/-- An answer queued behind the bytes in the TX FIFO (R517). -/
def txReply (n : Nat) (bs : List Byte) (d : Dev) : Dev := txKick n (d.modSer n (fun p => { p with reply := p.reply ++ bs }))

/-- A byte pushed into the TX FIFO, or dropped by a full one (R381, R383). -/
def txPush (n : Nat) (b : Byte) (d : Dev) : Dev :=
  if 64 ≤ (d.ser1 n).tx.length then serIrq n 8 d
  else txKick n (d.modSer n (fun p => { p with tx := p.tx ++ [b] }))

/-- SER_TX_WRITE: a byte from the host; ignored while the soft thru is on (R383, R384). -/
def serTxWriteDev (n : Nat) (v : Word) (d : Dev) : Dev :=
  if decide (n < 4) && d.isOn Dom.serial && !d.flag (Reg.SER_CTL n) 8 then txPush n (BitVec.ofNat 8 (v.bits 7 0)) d else d

/-- SER_TX_WRITE (R383). -/
def execSerTxWrite (n : Nat) (value : Word) (s : State) : Host.Outcome State Fault Refusal := hostNext s (serTxWriteDev n value)

/-- The EF up to which an IR receiver ignores the line after a character sent now: one bit time, which is DIV_code SCLK
periods, 256 of them to the EF (R372, R394). DEDUCED (log 19), unsafe. -/
def deafAfter (d : Dev) (n : Nat) : Option Nat :=
  if (d.ser1 n).txCtl.bits 1 0 = serIr then some (efAdd d.now ((d.fld (Reg.SER_DIV n) 15 0 + 255) / 256)) else none

/-- CHARACTER_SENT: the character in the shifter is complete; a break begins, or the next byte starts.  After a
break it stands for the character time of high line that is owed (R383). DESIGN CHOICE (log 19), unsafe. -/
def characterSentDev (n : Nat) (d : Dev) : Dev :=
  let p := d.ser1 n
  if !d.serOn n then d
  else if p.shifter.isSome then
    txKick n (d.modSer n (fun p => { p with shifter := none, deafTo := deafAfter d n, txBreak := d.flag (Reg.SER_CTL n) 11 }))
  else if p.txGap then txKick n (d.modSer n (fun p => { p with txGap := false }))
  else d

/-- CHARACTER_SENT (R383). -/
def execCharacterSent (n : Nat) (s : State) : Host.Outcome State Fault Refusal := devNext s (characterSentDev n)

/-- TX_BREAK in force as the register gives it: set, the line goes low once no character is being sent; cleared,
it is high for a character time before the next one (R383). -/
def txBreakSet (n : Nat) (on : Bool) (d : Dev) : Dev :=
  let p := d.ser1 n
  if on then (if p.shifter.isSome then d else d.modSer n (fun p => { p with txBreak := true, txGap := false }))
  else if p.txBreak then d.modSer n (fun p => { p with txBreak := false, txGap := true })
  else d

/-! ### Settings (R373, R374, R382, R392) -/

/-- The least DIV of IR mode (R392). -/
def irMin (fam44 : Bool) : Nat := if fam44 then 0x310 else 0x355

/-- A rejected DIV or MODE write (R373). -/
def serReject (d : Dev) : Dev := (d.putFlag Reg.SER_GLB_CTL 31 true).bump Reg.SER_CNT_REJ

/-- New settings take effect: the receiver abandons its character and waits for one character time of high line
(R374); what the line is under them no command has shown yet. -/
def rxAbandon (n : Nat) (d : Dev) : Dev :=
  d.modSer n (fun p => { p with inChar := false, armed := false, needHigh := 2, line := none })

/-- The fields whose change R374 speaks of: IR_RXINV, IR_TXINV, IR_PULSE, STOP2, PARITY and MODE. -/
def lineFields : Word := 0xFF

/-- SER_CTLn written whole: rejected where it would put the port in IR mode below the least DIV; else the FIFOs'
flushes, the new settings, a changed MODE's parser reset, and TX_BREAK (R374, R382, R383, R386, R392, R399). -/
def serCtlWrite (n : Nat) (v : Word) (d : Dev) : Dev :=
  if !(decide (n < 4) && d.isOn Dom.serial) then d
  else if v.bits 1 0 = serIr ∧ d.fld (Reg.SER_DIV n) 15 0 < irMin d.fam44 then serReject d
  else
    let old := d.reg (Reg.SER_CTL n)
    let d := d.putReg (Reg.SER_CTL n) (v &&& 0xFFF)
    let d := if v.getLsbD 12 then d.modSer n (fun p => { p with rx := [] }) else d
    let d := if v.getLsbD 13 then d.modSer n (fun p => { p with tx := [] }) else d
    let d := if (old ^^^ v) &&& lineFields = 0 then d else rxAbandon n d
    let d := if old.bits 1 0 = v.bits 1 0 then d else parserReset n d
    txKick n (txBreakSet n (v.getLsbD 11) d)

/-- MODE_CHANGE: a write of SER_CTLn that changes MODE (R374). -/
def modeChangeDev (n : Nat) (v : Word) (d : Dev) : Dev := if v.bits 1 0 = d.serMode n then d else serCtlWrite n v d

/-- MODE_CHANGE (R374). -/
def execModeChange (n : Nat) (value : Word) (s : State) : Host.Outcome State Fault Refusal := hostNext s (modeChangeDev n value)

/-- RX_FLUSH: a write of SER_CTLn with RX_FLUSH (R382). -/
def rxFlushDev (n : Nat) (v : Word) (d : Dev) : Dev := if v.getLsbD 12 then serCtlWrite n v d else d

/-- RX_FLUSH (R382). -/
def execRxFlush (n : Nat) (value : Word) (s : State) : Host.Outcome State Fault Refusal := hostNext s (rxFlushDev n value)

/-- TX_FLUSH: a write of SER_CTLn with TX_FLUSH (R382). -/
def txFlushDev (n : Nat) (v : Word) (d : Dev) : Dev := if v.getLsbD 13 then serCtlWrite n v d else d

/-- TX_FLUSH (R382). -/
def execTxFlush (n : Nat) (value : Word) (s : State) : Host.Outcome State Fault Refusal := hostNext s (txFlushDev n value)

/-- TX_BREAK: a write of SER_CTLn with TX_BREAK at 1 (R383). -/
def txBreakDev (n : Nat) (v : Word) (d : Dev) : Dev := if v.getLsbD 11 then serCtlWrite n v d else d

/-- TX_BREAK (R383). -/
def execTxBreak (n : Nat) (value : Word) (s : State) : Host.Outcome State Fault Refusal := hostNext s (txBreakDev n value)

/-- TX_BREAK_CLEAR: a write of SER_CTLn with TX_BREAK at 0 (R383). -/
def txBreakClearDev (n : Nat) (v : Word) (d : Dev) : Dev := if v.getLsbD 11 then d else serCtlWrite n v d

/-- TX_BREAK_CLEAR (R383). -/
def execTxBreakClear (n : Nat) (value : Word) (s : State) : Host.Outcome State Fault Refusal := hostNext s (txBreakClearDev n value)

/-- DIV_WRITE: the divisor is set and takes effect at once, or it is rejected below the minimum (R373, R374, R392). -/
def divWriteDev (n : Nat) (v : Word) (d : Dev) : Dev :=
  if !(decide (n < 4) && d.isOn Dom.serial) then d
  else if v.bits 15 0 < (if d.serMode n = serIr then irMin d.fam44 else 0x20) then serReject d
  else
    rxAbandon n (d.putReg (Reg.SER_DIV n) (v &&& 0xFFFF))

/-- DIV_WRITE (R373). -/
def execDivWrite (n : Nat) (value : Word) (s : State) : Host.Outcome State Fault Refusal := hostNext s (divWriteDev n value)

/-! ### Receiver (R375 to R381) -/

/-- Does an IR receiver ignore the line: a character is being sent, or one was within the last bit time (R394)? -/
def irDeaf (d : Dev) (n : Nat) : Bool :=
  d.serMode n == serIr && ((d.ser1 n).shifter.isSome || (d.ser1 n).deafTo.any (fun r => !efReached d.now r))

/-- A start bit on the pin after IR decoding: outside IR mode the majority of its samples; in IR mode an active pulse of
at least 20 SCLK periods, which is low, or high with IR_RXINV, and is stretched to a bit time (R375, R394). -/
def startLow (d : Dev) (n : Nat) (low level : Bool) (width : Nat) : Bool :=
  if d.serMode n = serIr then level == d.flag (Reg.SER_CTL n) 7 && decide (20 ≤ width) else low

/-- START_BIT: a sample of the line: a low one begins a character in an armed receiver, a high one is a glitch; elsewhere it
only shows the line.  An IR receiver ignores its own transmissions (R375, R394, R400). DESIGN CHOICE (log 2), safe.
DESIGN CHOICE (log 19), unsafe. -/
def startBitDev (n : Nat) (low level : Bool) (width : Nat) (d : Dev) : Dev :=
  let isLow := startLow d n low level width
  if !(d.serOn n && d.sees Dom.serial && d.serMode n != serOff && !irDeaf d n) then d
  else
    d.modSer n (fun p =>
      let p := { p with line := some (d.now, isLow) }
      if isLow && p.armed && !p.inChar then
        { p with inChar := true, armed := false, lowSince := some d.now, broke := false }
      else p)

/-- START_BIT (R375). -/
def execStartBit (n : Nat) (low : Bool) (s : State) (level : Bool := true) (width : Nat := 0) :
    Host.Outcome State Fault Refusal :=
  devNext s (startBitDev n low level width)

/-- An RX FIFO entry stored, or lost to a full FIFO (R381). -/
def rxStore (n : Nat) (e : RxEntry) (d : Dev) : Dev :=
  if 64 ≤ (d.ser1 n).rx.length then serErr n 31 24 (serIrq n 2 d)
  else d.modSer n (fun p => { p with rx := p.rx ++ [e] })

/-- The event of a MIDI real-time byte, if it is one (R387, R448). -/
def realTime (b : Byte) : Option Nat :=
  if b = 0xF8 then some 0 else if b = 0xFA then some 1 else if b = 0xFB then some 2
  else if b = 0xFC then some 3 else if b = 0xFE then some 4 else if b = 0xFF then some 5 else none

/-- A real-time byte's pulse at its stop-bit sample point, in MIDI mode (R387). -/
def rtPulse (n : Nat) (b : Byte) (d : Dev) : Dev :=
  if d.serMode n = serMidi then
    match realTime b with
    | some r => d.emit (104 + 6 * n + r) 1
    | none => d
  else d

/-- Is the parity bit wrong for a byte?  Even is 01b and odd 10b; MIDI mode has none (R371, R399). -/
def parityBad (d : Dev) (n : Nat) (b : Byte) (bit : Bool) : Bool :=
  let sel := d.fld (Reg.SER_CTL n) 3 2
  let ones := ((List.range 8).filter (fun k => b.getLsbD k)).length + (if bit then 1 else 0)
  d.serMode n != serMidi && (sel == 1 && ones % 2 == 1 || sel == 2 && ones % 2 == 0)

/-- Every port whose soft thru names port n takes a copy (R384). -/
def thruCopies (n : Nat) (b : Byte) (d : Dev) : Dev :=
  forUpTo 4 (fun q d => if d.flag (Reg.SER_CTL q) 8 ∧ d.fld (Reg.SER_CTL q) 10 9 = n then txPush q b d else d) d

/-- A character with a framing error: flagged and counted; stored with FE, or in MIDI mode discarded with a parser
reset; the receiver waits for 8 high oversamples (R378, R386).  Only where every bit was low does the low period go back to
the start bit (R379, R380). -/
def framingError (n : Nat) (b : Byte) (parity pe : Bool) (d : Dev) : Dev :=
  let d := serErr n 23 16 (serIrq n 3 d)
  let sel := d.fld (Reg.SER_CTL n) 3 2
  let high := parity && d.serMode n != serMidi && (sel == 1 || sel == 2)
  let d := d.modSer n (fun p => { p with
    armed := false, needHigh := 1, line := some (d.now, true), lowSince := if b = 0 && !high then p.lowSince else none })
  if d.serMode n = serMidi then parserReset n d
  else rxStore n { data := b, fe := true, pe := pe, brk := false, ef := d.now } d

/-- CHARACTER_RECEIVED: a character with its parity bit and first stop bit, at the stop-bit sample point (R376 to
R378, R381, R384, R387). DESIGN CHOICE (log 19), unsafe. -/
def characterReceivedDev (n : Nat) (data : Byte) (parity stop : Bool) (d : Dev) : Dev :=
  if !(d.serOn n && d.sees Dom.serial && (d.ser1 n).inChar) then d
  else
    let d := (d.modSer n (fun p => { p with inChar := false })).bump (Reg.SER_CNT_RX n)
    let pe := parityBad d n data parity
    let d := if pe then serErr n 15 8 (serIrq n 4 d) else d
    if !stop then framingError n data parity pe d
    else
      let d := d.modSer n (fun p => { p with armed := true, needHigh := 0, line := some (d.now, false), lowSince := none })
      thruCopies n data (rtPulse n data (rxStore n { data := data, fe := false, pe := pe, brk := false, ef := d.now } d))

/-- CHARACTER_RECEIVED (R376). -/
def execCharacterReceived (n : Nat) (data : BitVec 8) (parity stop : Bool) (s : State) : Host.Outcome State Fault Refusal :=
  devNext s (characterReceivedDev n data parity stop)

/-- The line has been high long enough: the receiver arms. -/
def rxArm (now : Nat) (p : SerPort) : SerPort :=
  { p with armed := !p.inChar, needHigh := 0, line := if p.inChar then p.line else some (now, false)
           lowSince := if p.inChar then p.lowSince else none }

/-- RECEIVER_REARM: after 8 high oversamples, or after one character time of high line under new settings or a
wake, the receiver arms (R374, R378, R396). -/
def receiverRearmDev (n : Nat) (d : Dev) : Dev :=
  if d.serOn n && d.sees Dom.serial && d.serMode n != serOff && !(d.ser1 n).armed && !(d.ser1 n).inChar then d.modSer n (rxArm d.now) else d

/-- RECEIVER_REARM (R378). -/
def execReceiverRearm (n : Nat) (s : State) : Host.Outcome State Fault Refusal := devNext s (receiverRearmDev n)

/-- BREAK: a line low for two character times is flagged once in its low period, and stored as a zero byte or
taken as a parser reset (R379). DESIGN CHOICE (log 19), unsafe. -/
def breakDev (n : Nat) (d : Dev) : Dev :=
  let p := d.ser1 n
  if !(d.serOn n && d.sees Dom.serial && d.serMode n != serOff && p.lowSince.isSome && !p.inChar && !p.broke) then d
  else
    let d := serErr n 7 0 (serIrq n 5 (d.modSer n (fun p => { p with broke := true })))
    if d.serMode n = serMidi then parserReset n d
    else rxStore n { data := 0, fe := false, pe := false, brk := true, ef := d.now } d

/-- BREAK (R379). -/
def execBreakDetected (n : Nat) (s : State) : Host.Outcome State Fault Refusal := devNext s (breakDev n)

/-- A serial wake detector disarmed, or armed again with nothing counted (R380, R486). -/
def detArm (n : Nat) (armed : Bool) (d : Dev) : Dev :=
  { d with pwr := { d.pwr with dets := upd d.pwr.dets n (fun _ => { disarmed := !armed, count := 0 }) } }

/-- LINE_DEAD: at the first release past LINE_DEAD_TIME of low line the port is dead (R380).
DESIGN CHOICE (log 19), unsafe. -/
def lineDeadDev (n : Nat) (d : Dev) : Dev :=
  let p := d.ser1 n
  let due := match p.lowSince with
    | some e => decide (msEf d (d.fld Reg.SER_TIMEOUTS 11 0) < efSince d.now e)
    | none => false
  if !(d.serOn n && d.isOn Dom.ctrl && due && !p.dead) then d
  else
    let d := serIrq n 6 (d.modSer n (fun p => { p with dead := true }))
    (detArm n false (parserReset n d)).logEv 0x05 0x01 1 [n]

/-- LINE_DEAD (R380). -/
def execLineDead (n : Nat) (s : State) : Host.Outcome State Fault Refusal := devNext s (lineDeadDev n)

/-- LINE_RECOVER: the line has been high for one character time: LINE_DEAD clears and the wake detector re-arms
(R380, R486). -/
def lineRecoverDev (n : Nat) (d : Dev) : Dev :=
  if d.serOn n && d.sees Dom.serial && (d.ser1 n).dead then
    detArm n true (d.modSer n (fun p => let q := { p with dead := false }
                                        if q.inChar then q else rxArm d.now q))
  else d

/-- LINE_RECOVER (R380). -/
def execLineRecover (n : Nat) (s : State) : Host.Outcome State Fault Refusal := devNext s (lineRecoverDev n)

/-- SER_RXn: the head of the FIFO in UART and IR modes, zero in MIDI mode or when it is empty (R381, R401). -/
def serRxWord (d : Dev) (n : Nat) : Word :=
  if d.serMode n = serMidi then 0
  else match (d.ser1 n).rx with
    | [] => 0
    | e :: _ => BitVec.ofNat 32 (2 ^ 31 + (if e.brk then 1024 else 0) + (if e.pe then 512 else 0) +
        (if e.fe then 256 else 0) + e.data.toNat)

/-- SER_RX_READ: a low-half read of SER_RXn pops the head in UART and IR modes (R381). -/
def serRxReadDev (n : Nat) (d : Dev) : Dev :=
  if decide (n < 4) && d.isOn Dom.serial && d.serMode n != serMidi then d.modSer n (fun p => { p with rx := p.rx.drop 1 }) else d

/-- SER_RX_READ (R381). -/
def execSerRxRead (n : Nat) (s : State) : Host.Outcome State Fault Refusal := devNext s (serRxReadDev n)

/-! ### Offers to the Almanac (R385, R388, R124) -/

/-- The offer a parser makes of a task: its type, flow and payload; TAG 0, PRI from ALM_SERPRI (R131, R385). -/
def parserOffer (d : Dev) (n : Nat) (f : List Nat) : Offer :=
  { typ := f.getD 0 0, flags := d.fld Reg.ALM_SERPRI (2 * n + 1) (2 * n), flow := f.getD 1 0, tag := 0, due := 0
    payload := (f.drop 2).map (BitVec.ofNat 8), origin := n }

/-- The task a parser holds offered again: admitted, or held on; the first refusal of a held task is counted with
its interrupt, and nothing is offered while CTRL is not ON (R124, R152, R388). -/
def offerHeld (n : Nat) (d : Dev) : Dev :=
  match (d.ser1 n).parser.hold with
  | [] => d
  | (seen, f) :: r =>
    if !(d.isOn Dom.ctrl && d.isOn Dom.serial) then d
    else
      let o := parserOffer d n f
      if refusal d 0 true o.typ o.flow = 0 then (admitTask o (d.modParser n (fun p => { p with hold := r }))).1
      else if seen then d
      else
        (((d.modParser n (fun p => { p with hold := (true, f) :: r })).bump Reg.ALM_CNT_HOLD).putFlag
          Reg.ALM_IRQ_STAT 6 true).emit 8 1

/-- The releases that go before those of a class: returned tasks, due ephemeris tasks, and the held tasks of the
serial ports below n (R122, R123). -/
def earlierReleases (n : Nat) (d : Dev) : Dev :=
  if d.isOn Dom.ctrl then forUpTo n offerHeld (releaseListed d) else d

/-- A task formed: it is counted and offered at once, behind the classes of R123 before it (R388). -/
def parserTask (n : Nat) (f : List Nat) (d : Dev) : Dev :=
  offerHeld n (earlierReleases n ((d.modParser n (fun p => { p with hold := p.hold ++ [(false, f)] })).bump (Reg.SER_CNT_TASK n)))

/-! ### MIDI parser (R385 to R391) -/

/-- A payload filled to 12 bytes. -/
def padPayload (l : List Nat) : List Nat := (l ++ List.replicate 12 0).take 12

/-- The task of a complete channel message: status, data bytes, and the bank of its channel (R385). -/
def channelTask (n st : Nat) (data : List Nat) (bank : Nat) : List Nat :=
  let ch := st % 16
  let a := data.getD 0 0
  let b := data.getD 1 0
  let mk (ty : Nat) (l : List Nat) : List Nat := ty :: (16 * n + ch) :: padPayload (n :: ch :: l)
  match st / 16 with
  | 8 => mk Typ.noteOff [a, b]
  | 9 => if b = 0 then mk Typ.noteOff [a, 0x40] else mk Typ.noteOn [a, b]
  | 10 => mk Typ.polyPressure [a, b]
  | 11 => mk Typ.cc [a, 0, b]
  | 12 => mk Typ.program [a, 0, bank % 256, bank / 256]
  | 13 => mk Typ.chanPressure [a]
  | _ => mk Typ.pitchBend [0, 0, (a + 128 * b) % 256, (a + 128 * b) / 256]

/-- Data bytes of a channel message (R385). -/
def channelBytes (st : Nat) : Nat := if st / 16 = 12 ∨ st / 16 = 13 then 1 else 2

/-- A byte the parser ignores or discards under R386. -/
def parserIgnores (n : Nat) (d : Dev) : Dev := d.bump (Reg.SER_CNT_IGN n)

/-- A data byte outside a system exclusive message: with no status in force, as after a dropped, discarded or aborted one, it
is ignored and counted (R386, R389 to R391). -/
def parserData (n b : Nat) (d : Dev) : Dev :=
  let p := (d.ser1 n).parser
  if 0 < p.skip then parserIgnores n (d.modParser n (fun p => { p with skip := p.skip - 1 }))
  else if p.status = 0 then parserIgnores n d
  else
    let data := p.data ++ [b]
    if data.length < channelBytes p.status then d.modParser n (fun p => { p with data := data })
    else
      let ch := p.status % 16
      let cc := p.status / 16 = 11
      let d := d.modParser n (fun p => { p with
        data := []
        cc0 := if cc ∧ data.getD 0 0 = 0 then p.cc0.set ch (data.getD 1 0) else p.cc0
        cc32 := if cc ∧ data.getD 0 0 = 32 then p.cc32.set ch (data.getD 1 0) else p.cc32 })
      parserTask n (channelTask n p.status data (128 * at_ p.cc0 ch 0 + at_ p.cc32 ch 0)) d

/-- The route of a message by its identifying bytes: to the management processor, discarded, or not known yet
(R390). -/
def sysexRoute (d : Dev) : List Nat → Option Bool
  | [] => none
  | a :: r =>
    let oem := d.boot.sysexId.map (fun b => b.toNat)
    if a = 0x7E ∨ a = 0x7F then
      match r with
      | [] => none
      | dev :: _ => some (dev == 0x7F || (!oem.isEmpty && dev == d.fld Reg.SER_SYSEX 6 0))
    else if oem.length = 1 then some (oem == [a])
    else if oem.length = 3 then
      (if a ≠ oem.headD 0 then some false else if r.length < 2 then none else some (oem == a :: r.take 2))
    else some false

/-- F0h: a message begins in the lowest free buffer; with none free, or with MGMT not ON, it is dropped (R389,
R497). -/
def sysexStart (n ef : Nat) (d : Dev) : Dev :=
  let d := d.modParser n (fun p => { p with status := 0, data := [], skip := 0, ignoring := false })
  match (List.range 8).find? (fun b => (at_ d.ser.bufs b none).isNone) with
  | some b =>
    if d.isOn Dom.mgmt then
      let d := { d with ser := { d.ser with bufs := upd d.ser.bufs b (fun _ => some n) } }
      (d.mramRaw (sysexAt b 0) [0xF0]).modParser n (fun p => { p with
        sysex := some { buf := b, len := 1, routed := false, lastEf := ef } })
    else ((d.modParser n (fun p => { p with ignoring := true })).bump Reg.SER_CNT_SYSEX_DROP).logEv 0x05 0x02 1 [n]
  | none => ((d.modParser n (fun p => { p with ignoring := true })).bump Reg.SER_CNT_SYSEX_DROP).logEv 0x05 0x02 1 [n]

/-- A message that is not routed is discarded and its buffer freed (R390). -/
def sysexOther (n buf : Nat) (ignore : Bool) (d : Dev) : Dev :=
  (freeBuf buf (d.modParser n (fun p => { p with sysex := none, data := [], ignoring := ignore }))).bump Reg.SER_CNT_SYSEX_OTHER

/-- A byte stored in a message's buffer while MGMT is ON. -/
def sysexPut (buf k b : Nat) (d : Dev) : Dev :=
  if d.isOn Dom.mgmt then d.mramRaw (sysexAt buf k) [BitVec.ofNat 8 b] else d

/-- A data byte of a message: stored, the route decided once the identifying bytes are there; the 2,049th aborts
(R389 to R391). -/
def sysexData (n b ef : Nat) (x : SysEx) (d : Dev) : Dev :=
  if 2048 ≤ x.len then sysexAbort n 2 d
  else
    let d := sysexPut x.buf x.len b d
    let ids := ((d.ser1 n).parser.data ++ [b]).take 3
    let d := d.modParser n (fun p => { p with data := ids })
    let y := { x with len := x.len + 1, lastEf := ef }
    let keep (r : Bool) : Dev := d.modParser n (fun p => { p with sysex := some { y with routed := r } })
    if x.routed then keep true
    else match sysexRoute d ids with
      | none => keep false
      | some true => keep true
      | some false => sysexOther n x.buf true d

/-- F7h in a message: a routed one posts SYSEX_DONE with its length and buffer (R391). -/
def sysexEnd (n : Nat) (x : SysEx) (d : Dev) : Dev :=
  if 2048 ≤ x.len then (sysexAbort n 2 d).modParser n (fun p => { p with ignoring := false })
  else if !x.routed then sysexOther n x.buf false d
  else
    let d := sysexPut x.buf x.len 0xF7 d
    let len := x.len + 1
    parserTask n (Typ.sysexDone :: 0xFF :: padPayload [n, 0, len % 256, len / 256, x.buf])
      (d.modParser n (fun p => { p with sysex := none, data := [] }))

/-- A status byte other than a real-time byte, outside a message (R386, R389). -/
def parserStatus (n b ef : Nat) (d : Dev) : Dev :=
  let was := (d.ser1 n).parser.ignoring
  let d := d.modParser n (fun p => { p with ignoring := false })
  let clear (skip : Nat) : Dev :=
    parserIgnores n (d.modParser n (fun p => { p with status := 0, data := [], skip := skip }))
  if b < 0xF0 then d.modParser n (fun p => { p with status := b, data := [], skip := 0 })
  else if b = 0xF0 then sysexStart n ef d
  else if b = 0xF1 ∨ b = 0xF3 then clear 1
  else if b = 0xF2 then clear 2
  else if b = 0xF7 then (if was then d else parserIgnores n d)
  else clear 0

/-- One byte through the parser (R385 to R391). -/
def parseByte (n b ef : Nat) (d : Dev) : Dev :=
  if 0xF8 ≤ b then d
  else match (d.ser1 n).parser.sysex with
    | some x =>
      if b < 0x80 then sysexData n b ef x d
      else if b = 0xF7 then sysexEnd n x d
      else parserStatus n b ef (sysexAbort n 1 d)
    | none => if b < 0x80 then parserData n b d else parserStatus n b ef d

/-- PARSER_BYTE: in MIDI mode a parser that holds no task drains one byte (R385, R388). -/
def parserByteDev (n : Nat) (d : Dev) : Dev :=
  let p := d.ser1 n
  match p.rx with
  | [] => d
  | e :: r =>
    if decide (n < 4) && d.isOn Dom.serial && d.serMode n == serMidi && p.parser.hold.isEmpty then
      parseByte n e.data.toNat e.ef (d.modSer n (fun p => { p with rx := r }))
    else d

/-- PARSER_BYTE (R385). -/
def execParserByte (n : Nat) (s : State) : Host.Outcome State Fault Refusal := devNext s (parserByteDev n)

/-- SYSEX_GAP_TIMEOUT: more than SYSEX_GAP since the message's last byte aborts it (R391). -/
def sysexGapTimeoutDev (n : Nat) (d : Dev) : Dev :=
  match (d.ser1 n).parser.sysex with
  | some x =>
    if d.serOn n && decide (msEf d (d.fld Reg.SER_TIMEOUTS 27 16) < efSince d.now x.lastEf) then sysexAbort n 4 d else d
  | none => d

/-- SYSEX_GAP_TIMEOUT (R391). -/
def execSysexGapTimeout (n : Nat) (s : State) : Host.Outcome State Fault Refusal := devNext s (sysexGapTimeoutDev n)

/-! ### Status and power (R395, R396, R400) -/

/-- LINE_LOW: the line as a command last showed it; inside a character only a sample of the present EF counts, and a level
that nothing has shown is free (R400). DESIGN CHOICE (log 19), safe. -/
def rxLow (d : Dev) (n : Nat) : Bool :=
  let p := d.ser1 n
  match p.line with
  | some (e, low) => if p.inChar && e != d.now then Config.lineLow n d.now else low
  | none => Config.lineLow n d.now

/-- SER_STATn (R400). -/
def serStat (d : Dev) (n : Nat) : Word :=
  let p := d.ser1 n
  let b (k : Nat) (x : Bool) : Nat := if x then 2 ^ k else 0
  BitVec.ofNat 32 (p.parser.status * 2 ^ 24 + b 20 (!p.parser.hold.isEmpty) + b 19 p.shifter.isSome + b 18 p.inChar +
    b 17 (rxLow d n) + b 16 p.dead + p.tx.length * 256 + p.rx.length)

/-- The live bits of SER_IRQ_STATn: TX_EMPTY and RX_AVAIL (R402). -/
def serIrqLive (d : Dev) (n : Nat) : Word :=
  let p := d.ser1 n
  BitVec.ofNat 32 ((if p.tx.isEmpty && p.shifter.isNone then 2 else 0) +
    (if !p.rx.isEmpty && (d.serMode n == serUart || d.serMode n == serIr) then 1 else 0))

/-- SER_SYSEX: the identity in use, and DEVICE_ID (R398). -/
def serSysex (d : Dev) : Word :=
  let oem := d.boot.sysexId.map (fun b => b.toNat)
  let code := if oem.length = 1 then 1 else if oem.length = 3 then 3 else 0
  BitVec.ofNat 32 (code * 2 ^ 30 + oem.getD 2 0 % 128 * 2 ^ 22 + oem.getD 1 0 % 128 * 2 ^ 15 + oem.getD 0 0 % 128 * 2 ^ 8 +
    d.fld Reg.SER_SYSEX 6 0)

/-- Does a DELAY condition of R395 hold: bytes to send, a receiver inside a character, or a task held? -/
def serBusy (d : Dev) : Bool :=
  d.ser.ports.any (fun p => !p.tx.isEmpty || p.shifter.isSome || p.inChar || !p.parser.hold.isEmpty)

/-- SERIAL leaves ON: SPn_TX latches its level, and FIFOs, parsers and claims will start empty (R396, R481). -/
def serWake (d : Dev) : Dev := { d with ser := { Serial.reset with held := (List.range 4).map (txRest d) } }

end Sys2Proof.Machine
end

