-- ==== Sys2Proof/Machine/Tasks.lean ====
section
/-! DEFINITION. The commits of the MIDI tasks other than NOTE_ON, of PARAM_SET, VOICE_KILL, SYSEX_DONE and USER
(R116 to R118, R168 to R170, R179), and the landing of queued host writes (R413, R415). -/

namespace Sys2Proof.Machine

open Sys2Proof

/-! ### Matching (R156, R168) -/

/-- A MIDI task applied to every part it matches, in ascending number (R168); parts it would have matched but
for their settings are counted (R156). -/
def applyParts (pay : List Byte) (f : Nat → Dev → Dev) (d : Dev) : Dev × Nat :=
  let m := matchParts d (fun c => c.hears (pay8 pay 0) (pay8 pay 1))
  (forEach m.1 f (countNoPart m.2 d), 0)

/-- The commit of a MIDI task of a kind (R129, R168). -/
def midiCommit (i : Nat) (kind : Task → Bool) (f : List Byte → Nat → Dev → Dev) (d : Dev) : Dev :=
  commitWith i kind (fun t d => applyParts t.payload (f t.payload) d) d

/-- Voices of a part on a member channel. -/
def memberVoices (d : Dev) (p ch : Nat) : List Nat := (partVoices d p).filter (fun v => memberOfVoice d v == ch)

/-- A per-note value of a channel's task: the part's field on its own channel, else that of each voice on the
member channel (R168). -/
def perNote (p ch partOff noteOff : Nat) (bs : List Byte) (d : Dev) : Dev :=
  if (readPart d p).isMember ch then forEach (memberVoices d p ch) (fun v d => noteV v noteOff bs d) d
  else partV p partOff bs d

/-! ### TIMER_FIRE (R118) -/

/-- TIMER_FIRE: a pulse of source ALM_TIMER at the commit (R118). -/
def timerFireDev (i : Nat) (d : Dev) : Dev :=
  commitWith i (fun t => t.typ == Typ.timerFire) (fun _ d => (d.emit 5 1, 0)) d

/-- TIMER_FIRE (R118). -/
def execTimerFire (idx : Nat) (s : State) : Host.Outcome State Fault Refusal := devNext s (timerFireDev idx)

/-! ### NOTE_OFF and POLY_PRESSURE -/

/-- A note-off that commits while its note is deferred is kept with it (R178). -/
def offDeferred (pay : List Byte) (d : Dev) : Dev :=
  { d with par := { d.par with deferred := d.par.deferred.map (fun x =>
      if x.off.isNone ∧ x.payload.take 3 = pay.take 3 then { x with off := some (pay8 pay 3) } else x) } }

/-- NOTE_OFF's commit (R168, R176, R178). -/
def noteOffDev (i : Nat) (d : Dev) : Dev :=
  commitWith i (fun t => t.typ == Typ.noteOff) (fun t d =>
    let r := applyParts t.payload (fun p d => noteOffPart p (pay8 t.payload 1) (pay8 t.payload 2) (pay8 t.payload 3) d) d
    (offDeferred t.payload r.1, r.2)) d

/-- NOTE_OFF (R168). -/
def execNoteOff (idx : Nat) (s : State) : Host.Outcome State Fault Refusal := devNext s (noteOffDev idx)

/-- POLY_PRESSURE in one part (R168). -/
def polyPart (pay : List Byte) (p : Nat) (d : Dev) : Dev :=
  match (readPart d p).keyOf (pay8 pay 2) with
  | some k => forEach ((partVoices d p).filter (fun v => (d.voice v).key == k)) (fun v d => noteV v 0x42 (leBytes 1 (pay8 pay 3)) d) d
  | none => d

/-- POLY_PRESSURE (R168). -/
def polyPressureDev (i : Nat) (d : Dev) : Dev := midiCommit i (fun t => t.typ == Typ.polyPressure) polyPart d

/-- POLY_PRESSURE (R168). -/
def execPolyPressure (idx : Nat) (s : State) : Host.Outcome State Fault Refusal := devNext s (polyPressureDev idx)

/-! ### Controllers (R168, R169) -/

/-- The 7-bit value of a CC task: VALUE[6:0], or VALUE[13:7] with bit 15 set (R168). -/
def ccValue (pay : List Byte) : Nat := if pay16 pay 4 < 0x8000 then pay16 pay 4 % 128 else pay16 pay 4 / 128 % 128

/-- A controller stored in the part's table (R168). -/
def ccStore (pay : List Byte) (p : Nat) (d : Dev) : Dev := partV p (0x40 + pay8 pay 2) (leBytes 1 (ccValue pay)) d

/-- PEDALS of a part written. -/
def putPedals (p v : Nat) (d : Dev) : Dev := partV p 0x23 (leBytes 1 v) d

/-- PEDALS of a part. -/
def pedalBits (d : Dev) (p : Nat) : Nat := d.ps8 (partRec p + 0x23)

/-- The sustain pedal of a part moves (R169). -/
def sustainTo (p : Nat) (down : Bool) (d : Dev) : Dev :=
  let b := pedalBits d p
  if b.testBit 0 = down then d
  else
    let d := putPedals p (if down then b + 1 else b - 1) d
    if down then d
    else forEach ((partVoices d p).filter (fun v => (d.voice v).sustained && !((d.voice v).sostenuto && b.testBit 1))) letGo d

/-- The sostenuto pedal of a part moves: let up, it releases the voices it held that had their note-off (R169). -/
def sostenutoTo (p : Nat) (down : Bool) (d : Dev) : Dev :=
  let b := pedalBits d p
  if b.testBit 1 = down then d
  else
    let d := putPedals p (if down then b + 2 else b - 2) d
    if down then
      forEach ((partVoices d p).filter (fun v => (d.voice v).state == .arming || (d.voice v).state == .sounding))
        (fun v d => setVoice v (fun x => { x with sostenuto := true }) d) d
    else
      forEach ((partVoices d p).filter (fun v => (d.voice v).sostenuto)) (fun v d =>
        let d := setVoice v (fun x => { x with sostenuto := false }) d
        if (d.voice v).gotOff then letGo v d else d) d

/-- Is a task a CC of one of these controllers? -/
def isCc (ns : List Nat) (t : Task) : Bool := t.typ == Typ.cc && ns.contains (pay8 t.payload 2)

/-- CC0 and CC32 in one part: stored, and BANK (R169). -/
def bankPart (pay : List Byte) (p : Nat) (d : Dev) : Dev :=
  let d := ccStore pay p d
  let b := d.ps16 (partRec p + 0x24)
  let v := ccValue pay
  partV p 0x24 (leBytes 2 (if pay8 pay 2 = 0 then v * 128 + b % 128 else b / 128 % 128 * 128 + v)) d

/-- BANK_SELECT (R169). -/
def bankSelectDev (i : Nat) (d : Dev) : Dev := midiCommit i (isCc [0, 32]) bankPart d

/-- BANK_SELECT (R169). -/
def execBankSelect (idx : Nat) (s : State) : Host.Outcome State Fault Refusal := devNext s (bankSelectDev idx)

/-- CC64 in one part (R169). -/
def sustainPart (pay : List Byte) (p : Nat) (d : Dev) : Dev :=
  let d := ccStore pay p d
  if (readPart d p).sustainEn then sustainTo p (decide (64 ≤ ccValue pay)) d else d

/-- SUSTAIN (R169). -/
def sustainDev (i : Nat) (d : Dev) : Dev := midiCommit i (isCc [64]) sustainPart d

/-- SUSTAIN (R169). -/
def execSustain (idx : Nat) (s : State) : Host.Outcome State Fault Refusal := devNext s (sustainDev idx)

/-- CC66 in one part (R169). -/
def sostenutoPart (pay : List Byte) (p : Nat) (d : Dev) : Dev :=
  let d := ccStore pay p d
  if (readPart d p).sustainEn then sostenutoTo p (decide (64 ≤ ccValue pay)) d else d

/-- SOSTENUTO (R169). -/
def sostenutoDev (i : Nat) (d : Dev) : Dev := midiCommit i (isCc [66]) sostenutoPart d

/-- SOSTENUTO (R169). -/
def execSostenuto (idx : Nat) (s : State) : Host.Outcome State Fault Refusal := devNext s (sostenutoDev idx)

/-- CC120 in one part (R169, R179). -/
def soundOffPart (pay : List Byte) (p : Nat) (d : Dev) : Dev :=
  forEach (partVoices d p) (fun v d =>
    let st := (d.voice v).state
    if st = .arming then toQuench v d
    else if st = .sounding ∨ st = .releasing then toStealing v (readPart d p).fade d
    else d) (ccStore pay p d)

/-- ALL_SOUND_OFF (R169). -/
def allSoundOffDev (i : Nat) (d : Dev) : Dev := midiCommit i (isCc [120]) soundOffPart d

/-- ALL_SOUND_OFF (R169). -/
def execAllSoundOff (idx : Nat) (s : State) : Host.Outcome State Fault Refusal := devNext s (allSoundOffDev idx)

/-- CC121 in one part (R169). -/
def resetPart (pay : List Byte) (p : Nat) (d : Dev) : Dev :=
  let d := ccStore pay p d
  let d := partV p 0x20 (leBytes 2 8192) d
  let d := partV p 0x22 (leBytes 1 0) d
  let d := forEach (partVoices d p) (fun v d => noteV v 0x40 (leBytes 2 8192 ++ leBytes 1 0 ++ leBytes 1 0) d) d
  sostenutoTo p false (sustainTo p false d)

/-- RESET_ALL_CONTROLLERS (R169). -/
def resetAllControllersDev (i : Nat) (d : Dev) : Dev := midiCommit i (isCc [121]) resetPart d

/-- RESET_ALL_CONTROLLERS (R169). -/
def execResetAllControllers (idx : Nat) (s : State) : Host.Outcome State Fault Refusal := devNext s (resetAllControllersDev idx)

/-- CC123 in one part: a note-off for every key with an ARMING or SOUNDING voice (R169).  In a MONO or LEGATO part, on whose
key stack R169 says nothing, the whole stack is cleared, so the voices are released.  DESIGN CHOICE (log 31), unsafe. -/
def notesOffPart (pay : List Byte) (p : Nat) (d : Dev) : Dev :=
  let d := modStack p (fun _ => []) (ccStore pay p d)
  forEach (partVoices d p) offVoice d

/-- ALL_NOTES_OFF (R169). -/
def allNotesOffDev (i : Nat) (d : Dev) : Dev := midiCommit i (isCc [123]) notesOffPart d

/-- ALL_NOTES_OFF (R169). -/
def execAllNotesOff (idx : Nat) (s : State) : Host.Outcome State Fault Refusal := devNext s (allNotesOffDev idx)

/-- The controllers with a command of their own. -/
def ownCcs : List Nat := [0, 32, 64, 66, 120, 121, 123]

/-- Any other controller in one part: stored; CC74 on a member channel is PN_TIMBRE of its voices (R168, R169). -/
def ccPart (pay : List Byte) (p : Nat) (d : Dev) : Dev :=
  let d := ccStore pay p d
  if pay8 pay 2 = 74 ∧ (readPart d p).isMember (pay8 pay 1) then
    forEach (memberVoices d p (pay8 pay 1)) (fun v d => noteV v 0x43 (leBytes 1 (ccValue pay)) d) d
  else d

/-- CC (R168). -/
def ccDev (i : Nat) (d : Dev) : Dev :=
  midiCommit i (fun t => t.typ == Typ.cc && !ownCcs.contains (pay8 t.payload 2)) ccPart d

/-- CC (R168). -/
def execCc (idx : Nat) (s : State) : Host.Outcome State Fault Refusal := devNext s (ccDev idx)

/-! ### PROGRAM, PITCH_BEND, CHAN_PRESSURE (R168, R170) -/

/-- PROGRAM in one part: PATCH from the program map (R170). -/
def programPart (pay : List Byte) (p : Nat) (d : Dev) : Dev :=
  let r := (readPart d p).map + 4 * pay16 pay 4 + pay8 pay 2 / 32
  let e := d.ps16 (0xA8000 + 0x40 * r + 2 * (pay8 pay 2 % 32))
  if 255 < r ∨ e = 0xFFFF then d else d.psV (partRec p + 0x10) (leBytes 2 (e % 1024))

/-- PROGRAM (R170). -/
def programDev (i : Nat) (d : Dev) : Dev := midiCommit i (fun t => t.typ == Typ.program) programPart d

/-- PROGRAM (R170). -/
def execProgram (idx : Nat) (s : State) : Host.Outcome State Fault Refusal := devNext s (programDev idx)

/-- PITCH_BEND (R168). -/
def pitchBendDev (i : Nat) (d : Dev) : Dev :=
  midiCommit i (fun t => t.typ == Typ.pitchBend)
    (fun pay p d => perNote p (pay8 pay 1) 0x20 0x40 (leBytes 2 (pay16 pay 4)) d) d

/-- PITCH_BEND (R168). -/
def execPitchBend (idx : Nat) (s : State) : Host.Outcome State Fault Refusal := devNext s (pitchBendDev idx)

/-- CHAN_PRESSURE (R168). -/
def chanPressureDev (i : Nat) (d : Dev) : Dev :=
  midiCommit i (fun t => t.typ == Typ.chanPressure)
    (fun pay p d => perNote p (pay8 pay 1) 0x22 0x42 (leBytes 1 (pay8 pay 2)) d) d

/-- CHAN_PRESSURE (R168). -/
def execChanPressure (idx : Nat) (s : State) : Host.Outcome State Fault Refusal := devNext s (chanPressureDev idx)

/-! ### PARAM_SET (R117, R156) -/

/-- The write rule of R117 at a word: bits under the mask replaced, on port V; with MASK = 0 there is no write. -/
def maskWrite (off : Nat) (v m : Word) (d : Dev) : Dev :=
  let w := Word.merge (BitVec.ofNat 32 (d.ps32 off)) v m
  if m = 0 then d else if partWordBad off w m then rejectPart d else d.psV off (leBytes 4 w.toNat)

/-- Is a word controller state of a part record, which a master sends on (R155, R535)? -/
def isController (off : Nat) : Bool := decide (0x80000 ≤ off ∧ off < 0x82000 ∧ 0x20 ≤ off % 0x100 ∧ off % 0x100 < 0xC0)

/-- PARAM_SET's commit (R117). -/
def paramSetCommit (t : Task) (d : Dev) : Dev × Nat :=
  let off := pay32 t.payload 0
  let v := BitVec.ofNat 32 (pay32 t.payload 4)
  let m := BitVec.ofNat 32 (pay32 t.payload 8)
  let d := maskWrite off v m d
  (if isController off ∧ m ≠ 0 then
    emitDir (dirPad (leBytes 1 4 ++ leBytes 1 0xFF ++ leBytes 2 0 ++ leBytes 4 off ++ leBytes 4 v.toNat ++ leBytes 4 m.toNat)) d
   else d, 0)

/-- PARAM_SET (R117). -/
def paramSetDev (i : Nat) (d : Dev) : Dev := commitWith i (fun t => t.typ == Typ.paramSet) paramSetCommit d

/-- PARAM_SET (R117). -/
def execParamSet (idx : Nat) (s : State) : Host.Outcome State Fault Refusal := devNext s (paramSetDev idx)

/-! ### VOICE_KILL (R164, R179) -/

/-- A kill of a voice (R179). -/
def killVoice (v mode : Nat) (d : Dev) : Dev :=
  let st := (d.voice v).state
  if st = .arming then toQuench v d
  else if st = .sounding ∨ st = .releasing then
    if mode = 0 then toStealing v (readPart d (d.voice v).part).fade d else toQuench v d
  else if st = .stealing ∧ mode = 1 then toQuench v d
  else d

/-- A stale handle counted (R164). -/
def staleHandle (d : Dev) : Dev := ((d.bump Reg.ALC_CNT_STALE).setIrq Dom.ctrl Reg.ALC_IRQ_STAT 3).emit 17 1

/-- VOICE_KILL's commit (R164, R179). -/
def voiceKillCommit (t : Task) (d : Dev) : Dev × Nat :=
  match currentSlot d (pay16 t.payload 0) with
  | some v => (killVoice v (pay8 t.payload 2) d, 0)
  | none => (staleHandle d, 2)

/-- VOICE_KILL (R179). -/
def voiceKillDev (i : Nat) (d : Dev) : Dev := commitWith i (fun t => t.typ == Typ.voiceKill) voiceKillCommit d

/-- VOICE_KILL (R179). -/
def execVoiceKill (idx : Nat) (s : State) : Host.Outcome State Fault Refusal := devNext s (voiceKillDev idx)

/-! ### SYSEX_DONE and USER (R116, R128, R390, R507) -/

/-- The management processor's task commits, after the deferred note-ons: its entry is finished (R128, R177). -/
def mgmtFinish (i ty : Nat) (f : Task → Dev → Dev) (d : Dev) : Dev :=
  commitWith i (fun t => t.typ == ty) (fun t d => (f t d, 0)) d

/-! ### Landing (R48, R411, R413, R415) -/

/-- A word landed by port H: count fields are checked, a record's run is aborted, and a word port V has written
at the same release is counted as a collision (R156, R326, R415). -/
def landWord (w : HWrite) (d : Dev) : Dev :=
  let new := w.over (BitVec.ofNat 32 (d.ps32 w.offset))
  if partWordBad w.offset new w.mask then rejectPart d
  else
    let hit := d.port.vwords.contains w.offset
    let d := d.psRaw w.offset (leBytes 4 new.toNat)
    let d := { d with port := { d.port with hwords := (w.offset, w.be, hit) :: d.port.hwords } }
    let d := if w.mask = 0 then d else calHostWrite w.offset d
    if hit then collide w.offset d else d

/-- The writes whose release has come land, in order (R413). -/
def landDue (d : Dev) : Dev :=
  forEach d.dueH landWord { d with port := { d.port with hq := d.port.hq.filter (fun w => !efReached d.now (efAdd w.ef 2)) } }

/-- PARAM_STORE_LANDING: at a release, once its notes have read the parts they play in, the queued writes of two EF before and
earlier land, in order; a word written on both ports at the release keeps port H's bytes, whichever comes first here (R48, R158,
R413, R415). -/
def paramStoreLandingDev (d : Dev) : Dev :=
  if d.isOn Dom.ctrl && d.timerRuns && notesSettled d then landDue d else d

/-- PARAM_STORE_LANDING (R413). -/
def execParamStoreLanding (s : State) : Host.Outcome State Fault Refusal := devNext s paramStoreLandingDev

end Sys2Proof.Machine
end

