-- ==== Sys2Proof/Machine/Cascade.lean ====
section
/-! DEFINITION. The cascade link: enable, superframes, lock and loss, directives on the workers, the chain-wide
pool's reports, and the packets between devices (R526 to R546). -/

namespace Sys2Proof.Machine

open Sys2Proof

/-! ### Resume sequence (R40) -/

/-- The resume sequence at release r: every active cluster's Skimmer is reset, and enabled outputs wait in
HOLD_PARK (R40, R44, R303). -/
def resumeSeq (r : Nat) (d : Dev) : Dev :=
  let d := forUpTo 16 (fun c d => if d.active c then resetAt c r d else d) d
  if d.engEn && decide (0 < d.frame.guardEf) then holdOutputs r d else d

/-! ### Superframe fields (R530, R531, R538) -/

/-- Bytes a to a + n − 1 of a superframe. -/
def sfBytes (b : List Byte) (a n : Nat) : List Byte := ((b.drop a).take n) ++ List.replicate (n - ((b.drop a).take n).length) 0

/-- A little-endian field of a superframe. -/
def sfNat (b : List Byte) (a n : Nat) : Nat := leNat (sfBytes b a n)

/-- A body of bytes 1 to 411 with its comma and its CRC (R530, R531). -/
def sfMake (body : List Byte) : List Byte :=
  let body := sfBytes body 0 411
  [0xBC] ++ body ++ leBytes 4 (crc32 body).toNat

/-- Why a superframe is not good: 1 CRC, 2 code or disparity, 3 comma position; 0 for a good one (R541, R544). -/
def sfFault (b : List Byte) (codeOk : Bool) : Nat :=
  if !codeOk then 2
  else if byteAt b 0 ≠ 0xBC then 3
  else if sfNat b 412 4 ≠ (crc32 (sfBytes b 1 411)).toNat then 1
  else 0

/-- The EF of an outbound superframe. -/
def outEf (b : List Byte) : Nat := sfNat b 5 5

/-- Directive i of an outbound superframe. -/
def sfDir (b : List Byte) (i : Nat) : List Byte := sfBytes b (12 + 16 * i) 16

/-- A packet of a packet area, if it holds one: its header and payload (R538). -/
def sfPacket (area : List Byte) : Option (List Byte) :=
  if byteAt area 0 = 0 then none else some (area.take (4 + byteAt area 1))

/-- A packet's header and payload: TYPE, LEN, POS, SEQ (R538). -/
def mkPacket (ty pos seq : Nat) (pay : List Byte) : List Byte :=
  [BitVec.ofNat 8 ty, BitVec.ofNat 8 pay.length, BitVec.ofNat 8 pos, BitVec.ofNat 8 seq] ++ pay

/-- A bit of CAS_IRQ_STAT sets. -/
def casIrq (n : Nat) (d : Dev) : Dev := d.setIrq Dom.cas Reg.CAS_IRQ_STAT n

/-- Packets lost (R538, R542). -/
def packetDrop (n : Nat) (d : Dev) : Dev := if n = 0 then d else casIrq 3 (d.bumpBy Reg.CAS_CNT_PKT_DROP n)

/-- A LOG or MGMT_RSP packet of this device enters its queue of 32, or is dropped (R538). -/
def ownPacket (p : List Byte) (d : Dev) : Dev :=
  if d.cas.own.length < 32 then d.modCas (fun c => { c with own := c.own ++ [p] }) else packetDrop 1 d

/-! ### Link enable (R528, R529) -/

/-- A remote slot as it is when its position leaves the pool: FREE, its generation kept (R542, R543). -/
def remoteFree (x : Voice) : Voice := { Voice.reset with gen := x.gen }

/-- Positions q and above leave the pool (R542). DESIGN CHOICE (log 29), unsafe. -/
def dropWorkers (q : Nat) (d : Dev) : Dev :=
  let d := { d with par := { d.par with voices := (List.range d.par.voices.length).map (fun v =>
    if 256 * q ≤ v ∧ 256 ≤ v then remoteFree (d.voice v) else d.voice v) } }
  d.modCas (fun c => { c with
    leaving := none, workers := (List.range c.workers.length).map (fun p =>
      let w := at_ c.workers p Worker.reset
      if q ≤ p ∧ 0 < p then { Worker.reset with left := w.left || w.joined } else w) })

/-- A worker leaves the chain: every pool voice ends with the steal fade of its part, its slots report nothing,
and its forward queue is lost (R542). DESIGN CHOICE (log 29), unsafe. -/
def leaveChain (d : Dev) : Dev :=
  let lost := d.cas.forward.length + (if byteAt d.cas.inBytes 368 = 0 then 0 else 1)
  let vs := (List.range 256).filter (fun v => (d.voice v).pool)
  let d := forEach vs (fun v d =>
    let x := d.voice v
    if x.state = .arming then toQuench v d
    else if x.held then toStealing v (readPart d x.part).fade d else d) d
  let d := packetDrop lost d
  d.modCas (fun c => { c with
    adopted := false, upReady := false, outIn := none, outPrev := none, freed := [], levelAt := 0, forward := []
    inBytes := [], up := { c.up with sending := false } })

/-- A configuration error is found: flagged and logged, and the lanes send no superframes, so neither port stays locked and a
worker that had joined leaves its chain, with no loss counted (R528, R529, R544). DEDUCED (log 29), unsafe. -/
def cfgError (d : Dev) : Dev :=
  let d := if d.cas.down.locked then leaveChain d else d
  let d := (d.modCas (fun c => { c with
    cfgErr := true, up := CasPortSt.reset, down := CasPortSt.reset, outIn := none, outPrev := none, inIn := none, outBytes := []
    casW := 0 })).modMix (fun m => { m with casIn := List.replicate 64 0 })
  (casIrq 2 d).logEv 0x0C 0x03 3 [d.chainPos, d.chainLen]

/-- EN applied: CAS_CFG is taken, and N and the position are checked (R528). -/
def linkOn (d : Dev) : Dev :=
  let d := d.modCas (fun _ => { Cas.reset with en := true, cfg := d.reg Reg.CAS_CFG })
  if d.chainLen < 2 ∨ d.chainLen ≤ d.chainPos then cfgError d else d

/-- EN cleared: the device leaves its chain and its lanes go to electrical idle; a superframe that was being sent is in
flight until the EF ends (R480, R528, R529). -/
def linkOff (d : Dev) : Dev :=
  let sending := d.cas.up.sending || d.cas.down.sending
  let d := if d.isWorker then leaveChain d else d
  let d := if d.isMaster then dropWorkers 1 d else d
  (d.modCas (fun _ => { Cas.reset with offAt := if sending then some d.now else none })).modMix
    (fun m => { m with casIn := List.replicate 64 0 })

/-- CAS_CTL written: AUTO_EN is stored and EN applied when it changes (R528, R546). -/
def casCtlWrite (v : Word) (d : Dev) : Dev :=
  if !d.isOn Dom.cas then d
  else
    let d := d.putReg Reg.CAS_CTL (v &&& 3)
    if v.getLsbD 0 = d.cas.en then d else if v.getLsbD 0 then linkOn d else linkOff d

/-- LINK_ENABLE: a write of CAS_CTL that sets EN (R528, R529). -/
def linkEnableDev (v : Word) (d : Dev) : Dev := if v.getLsbD 0 && !d.cas.en then casCtlWrite v d else d

/-- LINK_ENABLE (R529). -/
def execLinkEnable (value : Word) (s : State) : Host.Outcome State Fault Refusal := hostNext s (linkEnableDev value)

/-- LINK_DISABLE: a write of CAS_CTL that clears EN (R529). -/
def linkDisableDev (v : Word) (d : Dev) : Dev := if !v.getLsbD 0 && d.cas.en then casCtlWrite v d else d

/-- LINK_DISABLE (R529). -/
def execLinkDisable (value : Word) (s : State) : Host.Outcome State Fault Refusal := hostNext s (linkDisableDev value)

/-! ### Alignment, lock and loss (R541 to R543) -/

/-- Port `port` of the link. -/
def Dev.casPort (d : Dev) : CasPort → CasPortSt
  | .upstream => d.cas.up
  | .downstream => d.cas.down

/-- Port `port` changed. -/
def Dev.modPort (d : Dev) (port : CasPort) (f : CasPortSt → CasPortSt) : Dev :=
  match port with
  | .upstream => d.modCas (fun c => { c with up := f c.up })
  | .downstream => d.modCas (fun c => { c with down := f c.down })

/-- Does the link run: CAS ON with its pads released, EN set, in a chain and with no configuration error (R481)? -/
def linkRuns (d : Dev) : Bool := d.sees Dom.cas && d.inChain && !d.cas.cfgErr

/-- RX_ALIGNMENT: a receiver takes bit and comma alignment from the idle set; after a loss the TX lane of the port
has sent the idle set for at least 1 EF (R541, R542). DESIGN CHOICE (log 29), unsafe. -/
def rxAlignmentDev (port : CasPort) (d : Dev) : Dev :=
  let rested := match (d.casPort port).lossAt with
    | some e => decide (1 ≤ efSince d.now e)
    | none => true
  if linkRuns d && rested then d.modPort port (fun p => { p with aligned := true, lossAt := none }) else d

/-- RX_ALIGNMENT (R541). -/
def execRxAlignment (port : CasPort) (s : State) : Host.Outcome State Fault Refusal := devNext s (rxAlignmentDev port)

/-- The port's number in the log: 0 downstream, 1 upstream (R544). -/
def portCode : CasPort → Nat
  | .downstream => 0
  | .upstream => 1

/-- A locked port loses its hop (R542). -/
def hopLost (port : CasPort) (cause : Nat) (d : Dev) : Dev :=
  let d := (casIrq 0 (d.bump Reg.CAS_CNT_LOSS)).logEv 0x0C 0x01 2 [portCode port, cause]
  let d := d.modPort port (fun _ => { CasPortSt.reset with lossAt := some d.now })
  match port with
  | .downstream => leaveChain d
  | .upstream =>
    let d := packetDrop (if byteAt d.cas.outBytes 332 = 0 then 0 else 1) d
    let d := (d.modCas (fun c => { c with
      casW := 0, inIn := none, outBytes := [], leaving := if d.isMaster then some 1 else c.leaving })).modMix
      (fun m => { m with casIn := List.replicate 64 0 })
    d

/-- A receiver's superframe that is not good: counted; it ends a lock (R541, R542). -/
def badSuperframe (port : CasPort) (cause : Nat) (d : Dev) : Dev :=
  let d := d.bump Reg.CAS_CNT_BAD_SF
  if (d.casPort port).locked then hopLost port cause d else d.modPort port (fun p => { p with good := 0 })

/-- LANE_NO_SIGNAL: a lane carries no signal, or only the peer's idle set; a locked port loses its hop (R541,
R542). -/
def laneNoSignalDev (port : CasPort) (peerIdle : Bool) (d : Dev) : Dev :=
  if !(d.sees Dom.cas && d.cas.en) then d
  else if (d.casPort port).locked then hopLost port (if peerIdle then 5 else 4) d
  else d.modPort port (fun p => { p with good := 0, aligned := p.aligned && peerIdle })

/-- LANE_NO_SIGNAL (R542). -/
def execLaneNoSignal (port : CasPort) (peerIdle : Bool) (s : State) : Host.Outcome State Fault Refusal :=
  devNext s (laneNoSignalDev port peerIdle)

/-- A good superframe accepted, with its event; the second in a row locks the port (R448, R541). -/
def goodSuperframe (port : CasPort) (d : Dev) : Dev :=
  let d := d.emit 31 1
  let p := d.casPort port
  if p.locked then d
  else if p.good = 0 then d.modPort port (fun p => { p with good := 1 })
  else
    (casIrq 1 (d.modPort port (fun p => { p with good := 2, locked := true }))).logEv 0x0C 0x02 0
      [portCode port, d.cas.lag]

/-! ### Outbound superframes at a worker (R530, R532, R534) -/

/-- Frame timing taken from superframe k: the next release is EF k.  An EF counter or, at a first adoption, a phase of the frame
timer that has to change while the timer runs takes the resume sequence, and the adoption is logged (R532, R544).  Whether the
phase has to is a free value. DESIGN CHOICE (log 9), safe. -/
def adoptTiming (k : Nat) (d : Dev) : Dev :=
  let old := d.now
  let before := efAdd k (efWrap - 1)
  let moved := !(d.frame.released && old == before) || (!d.cas.adopted && Config.free d.fresh % 2 == 1)
  let ran := d.timerRuns && d.frame.released
  let d := d.draw
  let d := { (d.modCas (fun c => { c with adopted := true })) with frame := { d.frame with ef := before, released := true } }
  if moved && ran then
    (resumeSeq k (parkOutputs false d)).logEv 0x0C 0x06 1 ((leBytes 5 old).map BitVec.toNat)
  else d

/-- OUTBOUND_SUPERFRAME: a worker receives outbound superframe k, whose release follows it (R530, R532, R541). -/
def outboundSuperframeDev (bytes : List Byte) (codeOk : Bool) (hopLag : Nat) (d : Dev) : Dev :=
  if !(linkRuns d && d.isWorker && d.cas.down.aligned) then d
  else
    let f := sfFault bytes codeOk
    if f ≠ 0 then badSuperframe .downstream f d
    else if (byteAt bytes 1) / 2 % 8 + 1 ≠ d.chainLen then cfgError d
    else
      let k := outEf bytes
      let d := d.modCas (fun c => { c with lag := hopLag % 256 })
      let d := if d.cas.adopted && d.now == efAdd k (efWrap - 1) then d else adoptTiming k d
      let d := goodSuperframe .downstream d
      let prev := match d.cas.outIn with
        | some b => if efAdd (outEf b) 1 = k then some b else none
        | none => none
      let mine := match sfPacket (sfBytes bytes 332 80) with
        | some p => if byteAt p 0 = 3 ∧ byteAt p 2 = d.pos then [p] else []
        | none => []
      d.modCas (fun c => { c with
        hold := (byteAt bytes 1).testBit 0, grantIn := byteAt bytes 1 / 16 % 8, outPrev := prev, outIn := some bytes
        packetsIn := c.packetsIn ++ mine })

/-- OUTBOUND_SUPERFRAME (R530). -/
def execOutboundSuperframe (bytes : List Byte) (codeOk : Bool) (hopLag : Nat) (s : State) : Host.Outcome State Fault Refusal :=
  devNext s (outboundSuperframeDev bytes codeOk hopLag)

/-! ### Directives on a worker (R533, R534) -/

/-- Directive i as it takes effect at the present release: of the superframe one EF before, of the kind asked, and
not void (R534). -/
def dirNow (d : Dev) (i kind : Nat) : Option (List Byte) :=
  match d.cas.outPrev, d.cas.outIn with
  | some b, some n =>
    let x := sfDir b i
    if linkRuns d && d.isWorker && d.cas.down.locked && d.isOn Dom.ctrl && decide (i < 20) && efAdd (outEf b) 1 == d.now
        && outEf n == d.now && !(sfNat n 2 3).testBit i && byteAt x 0 == kind then some x else none
  | _, _ => none

/-- Directive i has taken effect. -/
def dirTaken (i : Nat) (d : Dev) : Dev :=
  d.modCas (fun c => { c with outPrev := c.outPrev.map (fun b => b.take (12 + 16 * i) ++ [0] ++ b.drop (13 + 16 * i)) })

/-- A directive ignored (R533). -/
def dirIgnored (d : Dev) : Dev := d.bump Reg.CAS_CNT_BAD_SF

/-- The pool slot of this worker that a handle names (R533, R537). -/
def poolSlot (d : Dev) (h : Nat) : Option Nat :=
  let v := h / 0x20 % 256
  if h / 0x2000 % 8 = d.pos ∧ !d.ownCluster (cluOf v) ∧ d.cluOn (cluOf v) then some v else none

/-- A directive for every worker or for this one (R533)? -/
def dirMine (d : Dev) (x : List Byte) : Bool := byteAt x 1 == d.pos || byteAt x 1 == 0xFF

/-- A directive that names a handle: applied to the slot, or ignored (R533). -/
def dirHandle (i kind : Nat) (f : Nat → List Byte → Dev → Dev) (d : Dev) : Dev :=
  match dirNow d i kind with
  | none => d
  | some x =>
    let d := dirTaken i d
    match poolSlot d (halfAt x 2) with
    | some v => if dirMine d x then f v x d else dirIgnored d
    | none => dirIgnored d

/-- The voice an ARM directive describes (R161, R533). -/
def armOf (now : Nat) (x : List Byte) : Voice :=
  let fl := byteAt x 13
  { Voice.reset with
    state := .arming, gen := halfAt x 2 % 32, handle := halfAt x 2, part := byteAt x 10 % 32, key := byteAt x 6
    vel := byteAt x 7, vel16 := halfAt x 8, patch := halfAt x 4 % 1024, uniIdx := byteAt x 11 / 16
    uniN := byteAt x 11 % 16 + 1, start := now, tag := halfAt x 14, sustained := fl.testBit 0, sostenuto := fl.testBit 1
    offPending := fl.testBit 2, cut := fl.testBit 3, member := byteAt x 12, pool := true }

/-- DIRECTIVE_ARM: the slot named enters ARMING at the present release; a run on it is aborted (R533, R537). -/
def directiveArmDev (i : Nat) (d : Dev) : Dev := dirHandle i 1 (fun v x d => armOwn v false (armOf d.now x) d) d

/-- DIRECTIVE_ARM (R533). -/
def execDirectiveArm (i : Nat) (s : State) : Host.Outcome State Fault Refusal := devNext s (directiveArmDev i)

/-- Is a handle the current one of a pool slot?  A directive for a voice that is gone is ignored and counted with the others
that R533 names.  DESIGN CHOICE (log 29), unsafe. -/
def poolCurrent (d : Dev) (v h : Nat) : Bool := (d.voice v).pool && (d.voice v).state != .free && (d.voice v).handle == h

/-- A voice is cut: it moves to QUENCH at once, and its handle is no longer current (R175). -/
def cutPool (v : Nat) (d : Dev) : Dev :=
  clusterQuench v (setVoice v (fun y => { y with state := .quench, quenchAt := d.now, handle := 0 }) d)

/-- A STATE action on a voice, as the local Parlour would change it: 1 release, 2 steal fade, 3 quench, 4 cut (R165, R168,
R173, R175, R178, R179, R533). -/
def stateAction (a fade v : Nat) (d : Dev) : Dev :=
  let st := (d.voice v).state
  if a = 1 then
    if st = .arming then setVoice v (fun y => { y with offPending := true }) d
    else if st = .sounding then toReleasing v d
    else d
  else if a = 2 then
    if st = .arming then toQuench v d
    else if st = .sounding ∨ st = .releasing then toStealing v fade d
    else d
  else if a = 3 then toQuench v d
  else if a = 4 then cutPool v d
  else d

/-- DIRECTIVE_STATE: release, steal fade, quench or cut (R533). -/
def directiveStateDev (i : Nat) (d : Dev) : Dev :=
  dirHandle i 2 (fun v x d =>
    if !poolCurrent d v (halfAt x 2) then dirIgnored d else stateAction (byteAt x 4) (byteAt x 5) v d) d

/-- DIRECTIVE_STATE (R533). -/
def execDirectiveState (i : Nat) (s : State) : Host.Outcome State Fault Refusal := devNext s (directiveStateDev i)

/-- DIRECTIVE_RETRIG: reuse of a MONO or LEGATO voice; both flags together are MONO's (R176, R533). -/
def directiveRetrigDev (i : Nat) (d : Dev) : Dev :=
  dirHandle i 3 (fun v x d =>
    if !poolCurrent d v (halfAt x 2) then dirIgnored d
    else
      let restart := (byteAt x 8).testBit 0
      let glide := (byteAt x 8).testBit 1
      let d := d.modVoice v (fun y => { y with vel := byteAt x 5, vel16 := halfAt x 6 })
      reuseVoice v (byteAt x 4) (restart && glide) restart glide d) d

/-- DIRECTIVE_RETRIG (R533). -/
def execDirectiveRetrig (i : Nat) (s : State) : Host.Outcome State Fault Refusal := devNext s (directiveRetrigDev i)

/-- A directive to one position or to every worker: applied, or ignored (R533). -/
def dirPos (i kind : Nat) (f : List Byte → Dev → Dev) (d : Dev) : Dev :=
  match dirNow d i kind with
  | none => d
  | some x => if dirMine d x then f x (dirTaken i d) else dirIgnored (dirTaken i d)

/-- DIRECTIVE_WRITE: the write rule of R117 on port V (R533). -/
def directiveWriteDev (i : Nat) (d : Dev) : Dev :=
  dirPos i 4 (fun x d =>
    let off := wordAt x 4
    if off % 4 = 0 ∧ off < 0x100000 then maskWrite off (BitVec.ofNat 32 (wordAt x 8)) (BitVec.ofNat 32 (wordAt x 12)) d else d) d

/-- DIRECTIVE_WRITE (R533). -/
def execDirectiveWrite (i : Nat) (s : State) : Host.Outcome State Fault Refusal := devNext s (directiveWriteDev i)

/-- The EF nearest the present one with the given low 32 bits. -/
def efNear (d : Dev) (low : Nat) : Nat :=
  let delta := signed 32 (low + 2 ^ 32 - d.now % 2 ^ 32)
  if 0 ≤ delta then efAdd d.now delta.toNat else efAdd d.now (efWrap - delta.natAbs)

/-- DIRECTIVE_GLFO: the named global LFOs restart at the boundary given (R242, R533). -/
def directiveGlfoDev (i : Nat) (d : Dev) : Dev :=
  dirPos i 5 (fun x d => glfoRestartAt (halfAt x 2) (efNear d (wordAt x 4)) d) d

/-- DIRECTIVE_GLFO (R533). -/
def execDirectiveGlfo (i : Nat) (s : State) : Host.Outcome State Fault Refusal := devNext s (directiveGlfoDev i)

/-- GLFO_RESTART: a write of ALC_GLFO_RESTART restarts the named global LFOs at the first CF boundary at least 4 EF
on; a master sends it to every worker (R242, R540). -/
def glfoRestartDev (v : Word) (d : Dev) : Dev :=
  if d.isOn Dom.ctrl then
    let b := glfoBoundary d
    let d := glfoRestartAt (v.bits 15 0) b d
    if v.bits 15 0 = 0 then d else queueDir (glfoDir (v.bits 15 0) b) d
  else d

/-- GLFO_RESTART (R242). -/
def execGlfoRestart (value : Word) (s : State) : Host.Outcome State Fault Refusal := hostNext s (glfoRestartDev value)

/-! ### Inbound superframes (R531, R536, R542, R543) -/

/-- Cascade channel n of an inbound superframe, Q1.23. -/
def sfAudio (b : List Byte) (n : Nat) : Int := signed 24 (sfNat b (8 + 3 * n) 3)

/-- The status slot of position q. -/
def sfStatus (b : List Byte) (q : Nat) : List Byte := sfBytes b (200 + 24 * (q - 1)) 24

/-- A reported handle enters FREE at the master (R536, R537). -/
def remoteFreed (q h : Nat) (d : Dev) : Dev :=
  let v := 256 * q + h / 0x20 % 256
  if h / 0x2000 % 8 = q ∧ (d.voice v).handle = h ∧ (d.voice v).state ≠ .free then d.modVoice v remoteFree else d

/-- A LEVELS entry taken (R536). -/
def levelSeen (e : Nat × Nat) (l : List (Nat × Nat)) : List (Nat × Nat) := e :: l.filter (fun x => x.1 != e.1)

/-- The master takes the status slot of position q (R536, R537, R541, R543). -/
def takeStatus (q : Nat) (st : List Byte) (d : Dev) : Dev :=
  let w := workerOf d q
  if !(byteAt st 0).testBit 0 then
    (if w.joined then d.modCas (fun c => { c with leaving := some (min q (c.leaving.getD q)) }) else d)
  else
    let d := if !w.joined && w.left then d.logEv 0x0C 0x05 0 [q] else d
    let d := d.modCas (fun c => { c with workers := upd c.workers q (fun w => { w with
      joined := true, calEmpty := (byteAt st 0).testBit 1, offer := halfAt st 2 % 512
      levels := (List.range 4).foldl (fun l k => levelSeen (byteAt st (12 + 3 * k), halfAt st (13 + 3 * k)) l) w.levels }) })
    (List.range (min (byteAt st 1) 4)).foldl (fun d k => remoteFreed q (halfAt st (4 + 2 * k)) d) d

/-- Every status slot of an inbound superframe, and UP_LOST of the first worker (R536, R542). -/
def takeStatuses (b : List Byte) (d : Dev) : Dev :=
  let lost := (byteAt b 1).testBit 3
  (List.range (d.chainLen - 1)).foldl (fun d k =>
    let q := k + 1
    if lost && decide (2 ≤ q) then takeStatus q [] d else takeStatus q (sfStatus b q) d) d

/-- INBOUND_SUPERFRAME: a device receives an inbound superframe of its upstream neighbour: its channels are C_n once
the port is locked, its packet is relayed or, at the master, taken (R345, R531, R538, R541, R543). -/
def inboundSuperframeDev (bytes : List Byte) (codeOk : Bool) (d : Dev) : Dev :=
  if !(linkRuns d && d.cas.up.aligned) then d
  else
    let f := sfFault bytes codeOk
    if f ≠ 0 then badSuperframe .upstream f d
    else
      let was := d.cas.up.locked
      let d := goodSuperframe .upstream d
      let d := d.modCas (fun c => { c with inIn := some bytes, casW := if was && c.casW == 0 then 1 else c.casW })
      let d := if was then d.modMix (fun m => { m with casIn := (List.range 64).map (sfAudio bytes) }) else d
      let p := (sfPacket (sfBytes bytes 368 44)).toList
      if d.isMaster then takeStatuses bytes (d.modCas (fun c => { c with packetsIn := c.packetsIn ++ p }))
      else d.modCas (fun c => { c with relay := c.relay ++ p })

/-- INBOUND_SUPERFRAME (R531). -/
def execInboundSuperframe (bytes : List Byte) (codeOk : Bool) (s : State) : Host.Outcome State Fault Refusal :=
  devNext s (inboundSuperframeDev bytes codeOk)

/-! ### Tasks between devices (R539) -/

/-- A cascade task's offer: the image of R115, ORIGIN 5 (R539). -/
def casOffer (image : List Byte) : Offer := offerOf image 5

/-- The oldest task of the landing queue offered; the answer says whether it was admitted (R124, R539). -/
def landOne (d : Dev) : Dev × Bool :=
  match d.cas.landing with
  | [] => (d, false)
  | im :: r =>
    let o := casOffer im
    if refusal d (countOf (d.fld Reg.ALM_RESV 13 0) 8192) (o.atOnce d) o.typ o.flow = 0 then
      ((admitTask o (d.modCas (fun c => { c with landing := r }))).1, true)
    else (d, false)

/-- The landing queue offered in arrival order (R539). -/
def landTasks : Nat → Dev → Dev
  | 0, d => d
  | n + 1, d =>
    let y := landOne d
    if y.2 then landTasks n y.1 else y.1

/-- The oldest packet taken, if it is of a type. -/
def takePacket (d : Dev) (ty : Nat) : Option (List Byte × Dev) :=
  match d.cas.packetsIn with
  | [] => none
  | p :: r => if byteAt p 0 = ty then some (p, d.modCas (fun c => { c with packetsIn := r })) else none

/-- TASK_PACKET: the master's Almanac is offered a worker's task, behind those that wait and the classes of R123
before it (R539). -/
def taskPacketDev (d : Dev) : Dev :=
  if !(linkRuns d && d.isMaster && d.isOn Dom.ctrl) then d
  else match takePacket d 1 with
    | none => d
    | some (p, d) =>
      let im := sfBytes (p.drop 4) 0 32
      let o := casOffer im
      if badReason o (decide (0x50 ≤ o.flow ∧ o.flow < 0x60)) ≠ 0 then packetDrop 1 d
      else landTasks 25 (earlierReleases 4 (d.modCas (fun c => { c with landing := c.landing ++ [im] })))

/-- TASK_PACKET (R539). -/
def execTaskPacket (s : State) : Host.Outcome State Fault Refusal := devNext s taskPacketDev

/-- Does a post go to the worker's forward queue: a cascade flow on a worker with EN = 1 (R539)? -/
def forwards (d : Dev) (flow : Nat) : Bool := d.isWorker && decide (0x50 ≤ flow ∧ flow < 0x60)

/-- A post enters the forward queue of 64, if it has room (R539). -/
def forwardTask (im : List Byte) (d : Dev) : Option Dev :=
  if d.cas.forward.length < 64 then some (d.modCas (fun c => { c with forward := c.forward ++ [im] })) else none

/-! ### The plan of the next EF's commits (R535) -/

/-- The task that commits next, committed by its kind. -/
def commitNext (d : Dev) : Dev :=
  match nextCommit d with
  | none => d
  | some t =>
    let i := t.idx
    let n := pay8 t.payload 2
    if t.typ = Typ.noteOn then noteOnDev i d
    else if t.typ = Typ.noteOff then noteOffDev i d
    else if t.typ = Typ.polyPressure then polyPressureDev i d
    else if t.typ = Typ.program then programDev i d
    else if t.typ = Typ.pitchBend then pitchBendDev i d
    else if t.typ = Typ.chanPressure then chanPressureDev i d
    else if t.typ = Typ.paramSet then paramSetDev i d
    else if t.typ = Typ.voiceKill then voiceKillDev i d
    else if t.typ = Typ.timerFire then timerFireDev i d
    else if t.target = tgtMgmt then finishTask t 0 d
    else if n = 0 ∨ n = 32 then bankSelectDev i d
    else if n = 64 then sustainDev i d
    else if n = 66 then sostenutoDev i d
    else if n = 120 then allSoundOffDev i d
    else if n = 121 then resetAllControllersDev i d
    else if n = 123 then allNotesOffDev i d
    else ccDev i d

/-- Every task due committed in order, after the deferred note-ons (R129, R177). -/
def commitAll (d : Dev) : Dev :=
  if d.acceptNow then
    let d := deferredFirst d
    (List.range (commitsNow d).length).foldl (fun d _ => commitNext d) d
  else d

/-- What the Parlour does at a release for its workers' slots: first samples, the pool figures, and shedding to an
offer that has fallen (R165, R171, R537). -/
def remoteRelease (d : Dev) : Dev :=
  if !d.isMaster then poolUpdate d
  else
    let vs := (List.range 2048).filter (fun v => !ownSlot v && (d.voice v).state == .arming)
    let d := poolUpdate (forEach vs firstSampleDev d)
    forUpTo 8 (fun q d => if decide (0 < q) && (workerOf d q).joined then offerShed q d else d) d

/-- The voices of the device's own slots whose time has come enter SOUNDING, QUENCH and FREE (R165 to R167). -/
def voicesDue (d : Dev) : Dev := forUpTo 256 (fun v d => quenchEndDev v (stealFadeEndDev v (firstSampleDev v d))) d

/-- The coming release as the master foresees it, its own slots' voices moving before its commits, `base` places of its
superframe being taken: `dirs` then holds its directives and `made` its placements (R535).  DEDUCED (log 29), unsafe. -/
def foresee (base : Nat) (d : Dev) : Dev :=
  let d := { d with
    frame := { d.frame with ef := efAdd d.now 1 }, par := { d.par with armed := 0 }
    cas := { d.cas with planned := [], dirs := [], made := [], plans := [], dirUsed := base } }
  commitAll (voicesDue (remoteRelease (headLatch d)))

/-! ### The link at a release -/

/-- VOID of the directives sent last: those of a cancelled task, and those that no commit of the present release bears out,
given in `stray` (R534, R535).  DESIGN CHOICE (log 29), unsafe. -/
def voidBits (stray l : List Directive) : Nat :=
  (List.range 20).foldl (fun a i => if l[i]?.any (fun (x : Directive) => x.void || stray.contains x) then a + 2 ^ i else a) 0

/-- The calibration grant moves on: after 65,536 EF, or when its holder's queue is empty (R518, R540). -/
def grantRelease (d : Dev) : Dev :=
  let g := d.cas.grant
  let empty := if g = 0 then d.cal.queue.isEmpty else (workerOf d g).calEmpty || !(workerOf d g).joined
  if empty || decide (65536 ≤ efSince d.now d.cas.grantEf) then
    let next := ((List.range 8).map (fun k => (g + 1 + k) % 8)).find? (fun q => q == 0 || (workerOf d q).joined)
    d.modCas (fun c => { c with grant := next.getD 0, grantEf := d.now })
  else d

/-- Positions leave the pool at the master's release, before the pool is counted (R542). -/
def positionsLeave (d : Dev) : Dev :=
  match d.cas.leaving with
  | some q => if d.isOn Dom.cas && d.isMaster then (dropWorkers q d).logEv 0x0C 0x04 1 [q] else d
  | none => d

/-- The master's part of a release: the grant, HOLD, and the outbound superframe of this EF (R529, R530, R535, R539). -/
def masterRelease (d : Dev) : Dev :=
  let d := grantRelease d
  let hold := decide (2 ≤ d.cas.landing.length)
  let d := if hold then d.bump Reg.CAS_CNT_HOLD else d
  if !(linkRuns d && d.cas.up.aligned) then d
  else
    let late := d.cas.dirs.take 20
    let here := commitAll d
    let next := foresee late.length here
    let frame := (late ++ next.cas.dirs).take 20
    let pkt := d.cas.mgmtOut.head?
    let flags := (if hold then 1 else 0) + (d.chainLen - 1) * 2 + d.cas.grant * 16
    let body := leBytes 1 flags ++ leBytes 3 (voidBits here.cas.planned d.cas.sent) ++ leBytes 5 d.now ++ leBytes 2 0 ++
      sfBytes (frame.flatMap (fun x => dirPad x.bytes)) 0 320 ++ sfBytes (pkt.getD []) 0 80
    d.modCas (fun c => { c with
      hold := hold, dirs := c.dirs.drop 20, sent := frame, plannedNext := frame.drop late.length, plansNext := next.cas.made, dirBase := late.length
      outBytes := sfMake body, mgmtOut := c.mgmtOut.drop 1, up := { c.up with sending := true } })

/-- P_p offered to the pool (R536). -/
def offerOwn (d : Dev) : Nat :=
  min (guardCeiling d) (16 * ((List.range 16).filter (fun c => d.cluOn c)).length) - 16 * d.localCl

/-- The pool slots of a worker, in ascending order (R536, R537). -/
def poolSlots (d : Dev) : List Nat := (List.range 256).filter (fun v => !d.ownCluster (cluOf v))

/-- The four pool slots whose LEVEL is reported next (R536). -/
def levelSlots (d : Dev) : List Nat :=
  let ps := poolSlots d
  if ps.isEmpty then [] else (List.range 4).map (fun k => ps.getD ((d.cas.levelAt + k) % ps.length) 0)

/-- The worker's status slot; a worker that is not joined reports nothing (R536, R542). -/
def ownStatus (d : Dev) : List Byte :=
  if !d.cas.down.locked then List.replicate 24 0
  else
    let fr := d.cas.freed.take 4
    let fl := 1 + (if d.cal.queue.isEmpty then 2 else 0)
    leBytes 1 fl ++ leBytes 1 fr.length ++ leBytes 2 (offerOwn d) ++ sfBytes (fr.flatMap (leBytes 2)) 0 8 ++
      sfBytes ((levelSlots d).flatMap (fun v => leBytes 1 v ++ leBytes 2 ((d.vaud v).level / 256 % 65536))) 0 12

/-- The packet of the inbound superframe: one received from upstream before the device's own, a task only while
HOLD is clear; and the queues after (R538, R539). -/
def inPacket (d : Dev) : List Byte × Cas :=
  let c := d.cas
  match c.relay with
  | p :: r => (p, { c with relay := r })
  | [] => match c.own with
    | p :: r => (p, { c with own := r })
    | [] => match c.forward with
      | im :: r => if c.hold then ([], c) else (mkPacket 1 d.pos 0x80 im, { c with forward := r })
      | [] => ([], c)

/-- The inbound superframe a worker begins at its release (R531). -/
def workerRelease (d : Dev) : Dev :=
  let relay := linkRuns d && d.cas.down.locked && (d.cas.up.lossAt.isNone || d.cas.up.aligned)
  let d := d.modCas (fun c => { c with
    up := { c.up with sending := relay }, outBytes := if relay then c.outIn.getD [] else [] })
  if !(linkRuns d && d.cas.adopted && d.cas.down.aligned) then d.modCas (fun c => { c with down := { c.down with sending := false } })
  else
    let slots := (List.range 7).flatMap (fun k =>
      let q := k + 1
      if q = d.pos then ownStatus d
      else if d.pos < q ∧ d.cas.up.locked then (match d.cas.inIn with
        | some b => sfStatus b q
        | none => List.replicate 24 0)
      else List.replicate 24 0)
    let p := inPacket d
    let flags := d.pos + (if d.cas.up.locked then 0 else 8)
    let body := leBytes 1 flags ++ leBytes 5 (efAdd d.now (efWrap - 1)) ++ leBytes 1 0 ++
      sfBytes (d.mix.casOut.flatMap (fun y => leBytes 3 (unsigned 24 y))) 0 192 ++ slots ++ sfBytes p.1 0 44
    let joined := d.cas.down.locked
    { d with cas := { p.2 with
      inBytes := sfMake body, down := { p.2.down with sending := true }, upReady := true
      freed := if joined then p.2.freed.drop 4 else [], levelAt := if joined then d.cas.levelAt + 4 else 0 } }

/-- The relock weight of C_n rises by 1 per EF (R543). -/
def casWeight (d : Dev) : Dev :=
  d.modCas (fun c => { c with casW := if 0 < c.casW ∧ c.casW < 64 then c.casW + 1 else c.casW })

/-- The directive places of a new EF: those the last superframe's late directives took, and its plan. -/
def dirRelease (d : Dev) : Dev :=
  d.modCas (fun c => { c with
    dirUsed := c.dirBase, planned := c.plannedNext, plannedNext := [], plans := c.plansNext, plansNext := [], made := [] })

/-- The link at a release, after the mix has released its frame. -/
def casRelease (d : Dev) : Dev :=
  let d := casWeight d
  if !(d.isOn Dom.cas && d.inChain) then d else if d.isMaster then masterRelease d else workerRelease d

/-- What a TX lane of the link carries. -/
inductive CasLane where
  | electricalIdle
  | idleSet
  | superframe (bytes : List Byte)
  deriving DecidableEq, Repr

/-- The TX lane of a port: electrical idle while CAS is not ON, its pads are latched or EN = 0; else the idle ordered set until
the port sends superframes (R104, R481, R529). -/
def casLane (d : Dev) (port : CasPort) : CasLane :=
  if !(d.sees Dom.cas && d.cas.en) then .electricalIdle
  else if !(d.casPort port).sending then .idleSet
  else .superframe (match port with
    | .upstream => d.cas.outBytes
    | .downstream => d.cas.inBytes)

/-! ### Registers (R545, R546) -/

/-- CAS_STAT (R546). -/
def casStat (d : Dev) : Word :=
  let b (k : Nat) (x : Bool) : Nat := if x then 2 ^ k else 0
  let master := d.chainPos == 0
  let joined := if master then d.cas.en && !d.cas.cfgErr else d.cas.down.locked
  BitVec.ofNat 32 ((if master then 0 else d.cas.lag) * 2 ^ 16 + b 11 d.cas.hold + b 10 joined + b 9 d.cas.up.locked +
    b 8 d.cas.down.locked + b 4 d.cas.cfgErr + b 3 master + d.chainPos)

/-- CAS_PRESENT (R545). -/
def casPresent (d : Dev) : Word :=
  if d.isMaster && !d.cas.cfgErr then
    BitVec.ofNat 32 ((List.range 8).foldl (fun a q => if (workerOf d q).joined then a + 2 ^ q else a) 1)
  else 0

/-- CAS_POOL: the chain's P and L (R546). -/
def casPool (d : Dev) : Word :=
  if d.isMaster then BitVec.ofNat 32 (d.par.l % 4096 * 65536 + d.par.p % 4096) else 0

/-- CAS_OCCUPANCY: held and FREE slots of the pool (R546). -/
def casOccupancy (d : Dev) : Word :=
  if d.isMaster then
    BitVec.ofNat 32 (heldCount d * 65536 + ((List.range 2048).filter (slotFree d)).length)
  else 0

end Sys2Proof.Machine
end

