-- ==== Sys2Proof/Machine/EventLog.lean ====
section
/-! DEFINITION. The event log's ring: entries of the hardware's queue and of the firmware's own, USER tasks and the
entries that workers forward (R503, R504, R507, R518). -/

namespace Sys2Proof.Machine

open Sys2Proof

/-- Management RAM offset of the log ring (R503). -/
def logRing : Nat := 0x28000

/-- The 16 bytes of an entry (R504). -/
def logBytes (e : LogEv) : List Byte :=
  leBytes 5 e.ef ++ leBytes 1 e.source ++ leBytes 1 e.code ++
    leBytes 1 (e.sev % 4 + (if e.noref then 4 else 0) + e.pos % 8 * 16 + (if e.fwd then 128 else 0)) ++ sfBytes e.data 0 8

/-- An entry written at HEAD, over the oldest; IRQ_SEV decides MGT_IRQ_STAT.LOG, and a worker forwards an entry of
severity 1 or above (R503, R518, R522). DESIGN CHOICE (log 26), unsafe. -/
def logStore (e : LogEv) (d : Dev) : Dev :=
  let b := logBytes e
  let d := d.mramRaw (logRing + 16 * (d.mgt.total % 4096)) b
  let d := { d with mgt := { d.mgt with total := d.mgt.total + 1 } }
  let d := if d.fld Reg.MGT_LOG_CTL 9 8 ≤ e.sev then d.mgtIrq 2 else d
  if d.isWorker && decide (1 ≤ e.sev) then ownPacket (mkPacket 2 d.pos 0x80 b) d else d

/-- A MGMT entry raised by the firmware now. -/
def mgmtEv (d : Dev) (code sev : Nat) (data : List Byte) : LogEv :=
  { ef := d.now, noref := !d.timerRuns, source := 0x01, code := code, sev := sev, pos := d.pos, fwd := false
    data := data }

/-- The entries that come before the next one: that of a watchdog reset is the first after a boot, and one that reports
lost events is the next that enters (R498, R503). -/
def logFirst (d : Dev) : Dev :=
  let d := if d.mgt.wdogLog then logStore (mgmtEv d 0x01 2 []) { d with mgt := { d.mgt with wdogLog := false } } else d
  if 0 < d.mgt.lost then logStore (mgmtEv d 0x02 1 (leBytes 4 d.mgt.lost)) { d with mgt := { d.mgt with lost := 0 } } else d

/-- Does the patrol hold the place of the ring's next entries (R441)? -/
def logBlocked (d : Dev) : Bool := borrowedAt d 0x28 (logRing + 16 * (d.mgt.total % 4096)) 48

/-- An entry of the firmware's own enters the ring, or waits for a borrow of its place to end; before the firmware runs,
the ROM's entries take the queue in AON (R441, R503, R507).  DESIGN CHOICE (log 26), unsafe. -/
def fwPut (e : LogEv) (d : Dev) : Dev :=
  if logBlocked d || !d.mgt.own.isEmpty then { d with mgt := { d.mgt with own := d.mgt.own ++ [e] } }
  else logStore e (logFirst d)

/-- The firmware, or in its stages the ROM, logs an event now (R503, R504). -/
def fwLog (source code sev : Nat) (data : List Byte) (d : Dev) : Dev :=
  if firmwareUp d then fwPut { mgmtEv d code sev data with source := source } d
  else d.logEv source code sev (data.map BitVec.toNat)

/-- USER: a HOST entry is logged, its CODE data byte 0 and its DATA data bytes 4 to 11, and the task commits
(R128, R507). -/
def userDev (i : Nat) (d : Dev) : Dev :=
  mgmtFinish i Typ.user (fun t d => fwLog 0x0D (pay8 t.payload 0) 0 (t.payload.drop 4) d) d

/-- USER (R128, R507). -/
def execUser (idx : Nat) (s : State) : Host.Outcome State Fault Refusal := devNext s (userDev idx)

/-! ### Entries from workers (R518, R540) -/

/-- A log entry's fields from its 16 bytes, forwarded by the device at position `pos` (R504, R518). -/
def logOf (b : List Byte) (pos : Nat) : LogEv :=
  { ef := leNat (b.take 5), noref := (byteAt b 7).testBit 2, source := byteAt b 5, code := byteAt b 6
    sev := byteAt b 7 % 4, pos := pos, fwd := true, data := sfBytes (b.drop 8) 0 8 }

/-- LOG_PACKET: the master's firmware stores a worker's log entry with FWD = 1 and the worker's position (R518, R540). -/
def logPacketDev (d : Dev) : Dev :=
  if !(linkRuns d && d.isMaster && firmwareUp d) then d
  else match takePacket d 2 with
    | none => d
    | some (p, d) => fwPut (logOf (sfBytes (p.drop 4) 0 16) (byteAt p 2 % 8)) d

/-- LOG_PACKET (R540). -/
def execLogPacket (s : State) : Host.Outcome State Fault Refusal := devNext s logPacketDev

end Sys2Proof.Machine
end

