-- ==== Sys2Proof/Machine/Nvm.lean ====
section
/-! DEFINITION. The management firmware's writes of the flash: sectors erased, bytes programmed, boot records
written, and the preference restored when RUN is reached after a fallback (R79 to R81, R513, R514). -/

namespace Sys2Proof.Machine

open Sys2Proof

/-- Size of the attached flash in bytes, at most 4 Gbit (R79, R509). DESIGN CHOICE (log 7), safe. -/
def flashSize : Nat := 2 ^ min Config.flashLog2 29

/-- The flash replaced; over latched pads nothing reaches it (R481). -/
def State.putFlash (s : State) (fl : List Host.Cell) : State :=
  if s.dev.nvReach then { s with prot := { s.prot with flash := fl } } else s

/-- Flash bytes erased: they read FFh. DESIGN CHOICE (log 10), unsafe. -/
def flashErase (fl : List Host.Cell) (a n : Nat) : List Host.Cell := cellsDrop fl a n

/-- A flash address's 64 KiB sector erased. -/
def eraseSector (a : Nat) (s : State) : State := s.putFlash (flashErase s.prot.flash (a / 0x10000 * 0x10000) 0x10000)

/-- The 64 bytes of a boot record (R80). -/
def recordBytes (seq slotA slotB prefer logBase : Nat) : List Byte :=
  let body := leBytes 4 0x52444850 ++ leBytes 4 seq ++ leBytes 4 slotA ++ leBytes 4 slotB ++ leBytes 4 prefer ++
    leBytes 4 logBase ++ List.replicate 36 0
  body ++ leBytes 4 (crc32 body).toNat

/-- The copy a new record is written to: the invalid one, otherwise the one with the lower SEQ, copy 1 on a tie,
since the ROM then uses copy 0 (R81, R513). DESIGN CHOICE (log 35), unsafe. -/
def recTarget (fl : List Host.Cell) : Nat :=
  if !copyValid fl 0 then 0
  else if !copyValid fl 1 then 1
  else if recSeq fl 0 < recSeq fl 1 then 0
  else 1

/-- One boot record copy written: SEQ one above the other copy's, the bases and LOG_BASE unchanged (R513 step 4).
The copy's 4 KiB block is erased first. DESIGN CHOICE (log 10), unsafe. DESIGN CHOICE (log 28), unsafe.
DESIGN CHOICE (log 35), unsafe. -/
def writeRecord (prefer : Nat) (s : State) : State :=
  let fl := s.prot.flash
  let k := recTarget fl
  let b := s.dev.boot
  let bs := recordBytes ((recSeq fl (1 - k) + 1) % 2 ^ 32) b.slotA b.slotB prefer b.logBase
  s.putFlash (flashProgram (flashErase fl (recBase k) 0x1000) (recBase k) bs)

/-- The stage has reached RUN with FALLBACK = 1: a record that prefers the slot in use is written and logged (R514). -/
def preferRestore (s : State) : State :=
  if s.dev.flag Reg.GLB_BOOT_STAT 5 then
    (writeRecord s.dev.slot s).onDev (fwLog 0x0B 0x06 1 (leBytes 1 s.dev.slot))
  else s

/-- What follows a change that may have taken the stage from HELD or ENGINE to RUN (R514). -/
def runReached (was : Nat) (s : State) : State :=
  if was ≠ Stage.run ∧ s.dev.stage = Stage.run then preferRestore s else s

end Sys2Proof.Machine
end

