-- ==== Sys2Proof/Machine/Envelope.lean ====
section
/-! DEFINITION. The envelope of system exclusive requests, and the requests by SysEx and over the cascade that hold a
flash command (R480, R516, R538). -/

namespace Sys2Proof.Machine

open Sys2Proof

/-- Groups of up to 7 bytes, each packed behind a byte of their top bits (R516). -/
def packGroups : Nat → List Byte → List Byte
  | 0, _ => []
  | n + 1, l =>
    match l with
    | [] => []
    | _ =>
      let g := l.take 7
      let top := (List.range g.length).foldl (fun a i => if (byteAt g i).testBit 7 then a + 2 ^ i else a) 0
      BitVec.ofNat 8 top :: g.map (fun b => b &&& 0x7F) ++ packGroups n (l.drop 7)

/-- The packed form of a request or response (R516). -/
def pack7 (l : List Byte) : List Byte := packGroups l.length l

/-- The groups of a packed request (R516). -/
def unpackGroups : Nat → List Byte → List Byte
  | 0, _ => []
  | n + 1, l =>
    match l with
    | [] => []
    | top :: r =>
      let g := r.take 7
      (List.range g.length).map (fun i => BitVec.ofNat 8 (byteAt g i % 128 + (if top.getLsbD i then 128 else 0))) ++
        unpackGroups n (r.drop 7)

/-- The bytes of a packed request (R516). -/
def unpack7 (l : List Byte) : List Byte := unpackGroups l.length l

/-- The checksum of packed bytes (R516). -/
def sysexSum (l : List Byte) : Nat := (128 - (l.map BitVec.toNat).foldl (· + ·) 0 % 128) % 128

/-- The packed request of an update message, if it is one: SYSEX_ID, a device ID, 50h, a right checksum (R516). -/
def updateMessage (id msg : List Byte) : Option (List Byte) :=
  let k := id.length
  let body := (msg.drop (3 + k)).take (msg.length - (5 + k))
  if id ≠ [] ∧ 5 + k ≤ msg.length ∧ (msg.drop 1).take k = id ∧ byteAt msg (2 + k) = 0x50 ∧
      byteAt msg (msg.length - 2) = sysexSum body then some body
  else none

/-- Has a request that the firmware has taken, or that a MGMT_REQ packet brings, a flash command (R480, R509)? -/
def requestFlash (d : Dev) : Bool :=
  firmwareUp d &&
  (d.alm.pool.any (fun t => t.typ == Typ.sysexDone && t.state == .active && d.flag Reg.MGT_UPD_CTL 0 &&
      ((updateMessage d.boot.sysexId
        (d.mramBytes (sysexAt (pay16 t.payload 4) 0) (min (pay16 t.payload 2) 2048))).any
          (fun b => flashCmds.contains ((unpack7 b).headD 0)))) ||
    (d.isWorker && d.cas.packetsIn.any (fun p => byteAt p 0 == 3 && flashCmds.contains (p.getD 4 0))))

end Sys2Proof.Machine
end

