-- ==== Sys2Proof/Machine/Tdm.lean ====
section
/-! DEFINITION. The output decimator and the TDM ports (R356 to R364, R370). -/

namespace Sys2Proof.Machine

open Sys2Proof

/-- Port n changed. -/
def Dev.modTdm (d : Dev) (n : Nat) (f : TdmPort → TdmPort) : Dev :=
  { d with tdm := { d.tdm with ports := upd d.tdm.ports n f } }

/-- The ratio code d of a port: a frame lasts 2^d EF (R357). -/
def TdmPort.ratio (p : TdmPort) (n : Nat) : Nat := tdmRate n p.ctl

/-- The frame length P in EF. -/
def TdmPort.frameLen (p : TdmPort) (n : Nat) : Nat := 2 ^ p.ratio n

/-- Is the port a master (R360)? -/
def TdmPort.master (p : TdmPort) : Bool := p.ctl.getLsbD 1

/-- Is a TDM port's domain ON? -/
def Dev.tdmOn (d : Dev) (n : Nat) : Bool := decide (n < 6) && d.isOn Dom.tdm

/-! ### Output decimator (R356) -/

/-- Slot s of TDMO port p as mapped: enable and bus (R361, R370). -/
def slotMap (d : Dev) (p s : Nat) : Bool × Nat :=
  let w := d.eff (Reg.TDM_OMAP (4 * p + s / 4))
  (w.getLsbD (8 * (s % 4) + 7), w.bits (8 * (s % 4) + 5) (8 * (s % 4)))

/-- The pairs that enabled slots of the TDMO ports name, each once; a port that is not running names those of its next
frames (R356, R360). DEDUCED (log 18), unsafe. -/
def wantedPairs (d : Dev) : List (Nat × Nat) :=
  ((List.range 4).flatMap (fun n =>
    let p := d.tdmPort n
    let ratio := if p.run then p.ratio n else tdmRate n (d.eff (Reg.TDM_CTL n))
    if d.isOn Dom.tdm then
      (List.range (slotsAtRate ratio)).filterMap (fun s =>
        let m := slotMap d n s
        if m.1 then some (m.2, ratio) else none)
    else [])).eraseDups

/-- D: the instant's distance from its group-delay centre (R356). -/
def decCentre (ratio : Nat) : Nat := if ratio = 1 then 6 else if ratio = 2 then 10 else if ratio = 3 then 14 else 0

/-- The delays in EF that the decimator's filter spans; the spec gives no length. DESIGN CHOICE (log 12), unsafe. -/
def decSpan : Nat := 512

/-- The taps of a ratio's filter by delay: free values, but for the three from the delay D on.  Those make the taps sum to a gain
within 0.02 dB of 1, place the group-delay centre of a slow signal within 0.1 EF of D, and leave the signal at half the EF rate,
which every stopband has, 96 dB down (R356).  DESIGN CHOICE (log 12), unsafe. -/
def decTaps (ratio : Nat) : List Int :=
  let c := decCentre ratio
  let free := (List.range decSpan).map (fun n => if c ≤ n ∧ n < c + 3 then 0 else Config.decTap ratio n)
  let at1 (f : Nat → Int) : Int := dot free ((List.range decSpan).map f)
  let gain := clampInt 130771 131374 (Config.decSums ratio).1
  let left := gain - at1 (fun _ => 1)
  let moment := clampInt (-13077) 13076 (Config.decSums ratio).2.1 - at1 (fun n => (n : Int) - c)
  let swing := clampInt (-2) 1 (Config.decSums ratio).2.2 - at1 (fun n => if (n + c) % 2 = 0 then 1 else -1)
  let t1 := (left - swing) / 2
  let t2 := (moment - t1) / 2
  free.take c ++ [left - t1 - t2, t1, t2] ++ free.drop (c + 3)

/-- The pair's sample for the instant of this release, before saturation (R356): the frame's own value at ratio
1, else the fixed filter's products over the history, which is zero before the pair was mapped, summed and rounded once. -/
def decSample (d : Dev) (p : DecPair) : Int :=
  let hist := d.mix.yHist.map (fun ys => at_ ys p.bus 0)
  if p.ratio = 0 then hist.headD 0
  else
    rneDiv (dot (hist.take (efSince d.now p.since + 1)) (decTaps p.ratio)) (2 ^ 17)

/-- One pair at a release. -/
def decStep (d : Dev) (p : DecPair) : DecPair × Bool :=
  if d.now % 2 ^ p.ratio = 0 then
    let raw := decSample d p
    let y := satSigned 24 raw
    ({ p with outs := ((d.now, y) :: p.outs).take 4 }, y != raw)
  else (p, false)

/-- The decimator at a release: new pairs begin with no history, unmapped ones end (R356). -/
def decRelease (d : Dev) : Dev :=
  let pairs := (wantedPairs d).map (fun q =>
    match d.tdm.pairs.find? (fun p => p.bus == q.1 && p.ratio == q.2) with
    | some p => p
    | none => { bus := q.1, ratio := q.2, since := d.now, outs := [] })
  let steps := pairs.map (decStep d)
  let sat := countTrue (steps.map (fun p => p.2))
  let d := { d with tdm := { d.tdm with pairs := steps.map (fun p => p.1) } }
  if sat = 0 then d else (d.bumpBy Reg.TDM_CNT_SAT sat).raiseIrq Dom.tdm Reg.TDM_IRQ_STAT 16

/-- The sample of a pair for an instant; zero where it was not yet served. -/
def pairSample (d : Dev) (bus ratio t : Nat) : Int :=
  match d.tdm.pairs.find? (fun p => p.bus == bus && p.ratio == ratio) with
  | none => 0
  | some p => match p.outs.find? (fun o => o.1 == t) with
    | some o => o.2
    | none => 0

/-! ### Ports at a release (R360, R364) -/

/-- A port at a release: EN as in force starts it or has it stop, or start again once it has, and a relock weight rises
(R360, R364). -/
def tdmStep (now : Nat) (ctl : Word) (p : TdmPort) : TdmPort :=
  let p := if 0 < p.w ∧ p.w < 64 then { p with w := p.w + 1 } else p
  if ctl.getLsbD 0 then
    (if !p.run then { TdmPort.reset with run := true, startAt := some now, ctl := ctl }
     else if p.stopping then { p with again := some (p.again.getD ctl) }
     else p)
  else if p.run then { p with stopping := true, again := none }
  else p

/-- The TDM unit at a release. -/
def tdmRelease (d : Dev) : Dev :=
  if d.isOn Dom.tdm then decRelease (forUpTo 6 (fun n d => d.modTdm n (tdmStep d.now (d.eff (Reg.TDM_CTL n)))) d) else d

/-- A write of TDM_CTLn; on a TDMI port a RATE of 00b reads as 01b (R342, R357, R370). -/
def tdmCtlWrite (n : Nat) (v : Word) (d : Dev) : Dev :=
  if d.tdmOn n then mixPut (Reg.TDM_CTL n) ((v &&& 0x3F).setBits 5 4 (tdmRate n v)) d else d

/-- TDM_PORT_ENABLE: a write of TDM_CTLn that sets EN (R360). -/
def tdmPortEnableDev (n : Nat) (v : Word) (d : Dev) : Dev :=
  if v.getLsbD 0 && !d.flag (Reg.TDM_CTL n) 0 then tdmCtlWrite n v d else d

/-- TDM_PORT_ENABLE (R360). -/
def execTdmPortEnable (n : Nat) (value : Word) (s : State) : Host.Outcome State Fault Refusal :=
  hostNext s (tdmPortEnableDev n value)

/-- TDM_PORT_DISABLE: a write of TDM_CTLn that clears EN (R360). -/
def tdmPortDisableDev (n : Nat) (v : Word) (d : Dev) : Dev :=
  if !v.getLsbD 0 && d.flag (Reg.TDM_CTL n) 0 then tdmCtlWrite n v d else d

/-- TDM_PORT_DISABLE (R360). -/
def execTdmPortDisable (n : Nat) (value : Word) (s : State) : Host.Outcome State Fault Refusal :=
  hostNext s (tdmPortDisableDev n value)

/-- Has the port's present frame ended? -/
def frameOver (d : Dev) (n : Nat) : Bool :=
  let p := d.tdmPort n
  match p.frameAt with
  | none => true
  | some f => efReached d.now (efAdd f (p.frameLen n))

/-- Does a frame of the port end at this release?  A master's frames begin at multiples of their length, a locked slave's
PHASE periods later (R360, R363). -/
def frameEnds (d : Dev) (n : Nat) : Bool :=
  let p := d.tdmPort n
  let late := if p.master then 0 else (p.phase + 63) / 64
  !p.master && !p.locked || (d.now + efWrap - late) % p.frameLen n == 0

/-- A port whose last frame has ended: stopped, or begun anew where EN has set again (R360). -/
def stopPort (now : Nat) (p : TdmPort) : TdmPort :=
  match p.again with
  | some ctl => { TdmPort.reset with run := true, startAt := some now, ctl := ctl }
  | none => { TdmPort.reset with ctl := p.ctl }

/-- TDM_PORT_STOP: the frame in which EN was cleared has ended; the port stops (R32, R360). -/
def tdmPortStopDev (n : Nat) (d : Dev) : Dev :=
  if d.tdmOn n && d.timerRuns && (d.tdmPort n).stopping && frameEnds d n then d.modTdm n (stopPort d.now) else d

/-- TDM_PORT_STOP (R360). -/
def execTdmPortStop (n : Nat) (s : State) : Host.Outcome State Fault Refusal := devNext s (tdmPortStopDev n)

/-- May a port begin or deliver a frame: it runs with the frame timer, its first frame is due, and a slave is locked (R32, R360,
R363)? -/
def framesRun (d : Dev) (n : Nat) : Bool :=
  let p := d.tdmPort n
  d.tdmOn n && d.timerRuns && d.frame.audio && p.run && frameOver d n && (p.master || p.locked) &&
    match p.startAt with
    | some r => efReached d.now r
    | none => false

/-- A slave's frame counts towards its resumption: two clean ones, then the value carried rises (R364).
DESIGN CHOICE (log 18), unsafe. -/
def cleanFrame (p : TdmPort) : TdmPort :=
  if 0 < p.w then p else if p.good < 2 then { p with good := p.good + 1 } else { p with w := 1 }

/-- The word of an output slot: the sample in bits [31:8], scaled after a relock (R358, R364). -/
def slotWord (y : Int) (w : Nat) : Word := BitVec.ofInt 32 (rneDiv (y * (w : Int)) 64 * 256)

/-- TDMO_FRAME: a frame begins that carries the samples for the instant one frame length, and a slave's PHASE,
earlier (R360, R361, R363). -/
def tdmoFrameDev (n : Nat) (d : Dev) : Dev :=
  let p := d.tdmPort n
  let late := if p.master then 0 else p.phase / 64
  if !(decide (n < 4) && framesRun d n && !p.stopping && (d.now + efWrap - late) % p.frameLen n == 0) then d
  else
    let t := efSince d.now (late + p.frameLen n)
    d.modTdm n (fun p =>
      let p := if p.master then p else cleanFrame p
      { p with frameAt := some d.now
               slots := (List.range (slotsAtRate (p.ratio n))).map (fun s =>
                 let m := slotMap d n s
                 if m.1 then slotWord (pairSample d m.2 (p.ratio n) t) p.w else 0) })

/-- TDMO_FRAME (R361). -/
def execTdmoFrame (n : Nat) (s : State) : Host.Outcome State Fault Refusal := devNext s (tdmoFrameDev n)

/-- Voices that name a slot the frame of an input port does not carry (R211). -/
def extMissing (n : Nat) (d : Dev) : Dev :=
  forUpTo 256 (fun v d =>
    let va := d.vaud v
    if (at_ va.oscs 0 Osc.reset).model = 4 ∧ sounding (d.voice v) ∧ 4 + halfAt va.arm 0x20 % 2 = n ∧ !extSlotOk d (halfAt va.arm 0x20) then
      armFault v 0 6 va.arm d
    else d) d

/-- TDMI_FRAME: a frame whose last bit was sampled in the EF before is delivered to the external voices; a slave that has not
resumed delivers zeros (R211, R362, R364). -/
def tdmiFrameDev (n : Nat) (slots : List Word) (d : Dev) : Dev :=
  let p := d.tdmPort n
  let first := match p.startAt with
    | some r => efReached d.now (efAdd r (p.frameLen n))
    | none => false
  if !(decide (4 ≤ n) && d.sees Dom.tdm && framesRun d n && first && (!p.master || d.now % p.frameLen n == 0)) then d
  else
    extMissing n <| d.modTdm n (fun p =>
      let p := if p.master then p else cleanFrame p
      let fr := ((if 0 < p.w then slots else []) ++ List.replicate 16 0).take (slotsAtRate (p.ratio n))
      { p with frameAt := some d.now, slots := fr, hist := (fr :: p.hist).take 64 })

/-- TDMI_FRAME (R362). -/
def execTdmiFrame (n : Nat) (slots : List Word) (s : State) : Host.Outcome State Fault Refusal :=
  devNext s (tdmiFrameDev n slots)

/-- TDM_LOCK: a slave sees two FS edges one frame apart, locks and latches PHASE; with the frame timer halted its state holds
(R32, R363).  DESIGN CHOICE (log 18), unsafe. -/
def tdmLockDev (n phase : Nat) (d : Dev) : Dev :=
  let p := d.tdmPort n
  if d.tdmOn n && d.timerRuns && d.sees Dom.tdm && p.run && !p.master && !p.locked && decide (phase < 64 * p.frameLen n) then
    d.modTdm n (fun p => { p with locked := true, phase := phase, loss := false })
  else d

/-- TDM_LOCK (R363). -/
def execTdmLock (n phase : Nat) (s : State) : Host.Outcome State Fault Refusal := devNext s (tdmLockDev n phase)

/-- A slave drops lock: the frame in progress is discarded and nothing is carried until it has resumed, from zeros (R32, R364).
DESIGN CHOICE (log 18), unsafe. -/
def dropLock (n cnt irq code : Nat) (loss : Bool) (d : Dev) : Dev :=
  let p := d.tdmPort n
  if !(d.tdmOn n && d.timerRuns && d.sees Dom.tdm && p.run && !p.master && p.locked) then d
  else
    let d := d.modTdm n (fun p =>
      { p with locked := false, phase := 0, loss := loss, w := 0, good := 0, frameAt := none
               slots := p.slots.map (fun _ => 0), hist := [] })
    (((d.raiseIrq Dom.tdm Reg.TDM_IRQ_STAT irq).bump cnt).emit 25 1).logEv 0x07 code 1 [n]

/-- TDM_SLIP (R364). -/
def tdmSlipDev (n : Nat) (d : Dev) : Dev := dropLock n Reg.TDM_CNT_SLIP n 1 false d

/-- TDM_SLIP (R364). -/
def execTdmSlip (n : Nat) (s : State) : Host.Outcome State Fault Refusal := devNext s (tdmSlipDev n)

/-- TDM_LOSS (R364). -/
def tdmLossDev (n : Nat) (d : Dev) : Dev := dropLock n Reg.TDM_CNT_LOSS (8 + n) 2 true d

/-- TDM_LOSS (R364). -/
def execTdmLoss (n : Nat) (s : State) : Host.Outcome State Fault Refusal := devNext s (tdmLossDev n)

/-- SD in BCLK period i of a frame: the slots in order, each MSB first (R358). -/
def frameSd (slots : List Word) (i : Nat) : Bool := (slots.getD (i / 32) 0).getLsbD (31 - i % 32)

/-- FS in BCLK period i of frames of n periods: with TDM framing high for the one period before a frame, with I²S framing for
the second half of a frame but from one period early (R358). -/
def frameFs (i2s : Bool) (n i : Nat) : Bool :=
  if i2s then decide (n / 2 ≤ i + 1 ∧ i + 1 < n) else i + 1 == n

/-- BCLK, FS and SD of a port that drives its present frame, in the first or second half of BCLK period i, which begins with the
edge that launches FS and SD: the falling one, or with BCLK_INV the rising one (R358). -/
def framePins (p : TdmPort) (n i : Nat) (second : Bool) : Bool × Bool × Bool :=
  (second != p.ctl.getLsbD 3, frameFs (p.ctl.getLsbD 2) (64 * p.frameLen n) i, frameSd p.slots i)

/-- What a TDM port does at BCLK, FS and SD: drives it low, drives it with the frames, takes it as an input, or leaves it
at high impedance (R104, R360). -/
inductive TdmDrive where
  | low
  | frames
  | input
  | highZ
  deriving DecidableEq, Repr

/-- BCLK, FS and SD of port n: TDMO pins are low and TDMI pins at high impedance until the port has its mode; a master that
is not enabled drives all three low, a slave TDMO drives SD low, and latched pads are low (R104, R360, R364, R481).  A port counts
as configured from the wake of TDM on, the reset MASTER = 0 then being slave mode: R104 does not say when.  DESIGN CHOICE (log 18),
unsafe. -/
def tdmPins (d : Dev) (n : Nat) : TdmDrive × TdmDrive × TdmDrive :=
  let p := d.tdmPort n
  let ctl := if p.run then p.ctl else d.eff (Reg.TDM_CTL n)
  if (d.dom Dom.tdm).latched then (.low, .low, .low)
  else if !d.tdmOn n then (if n < 4 then (.low, .low, .low) else (.highZ, .highZ, .highZ))
  else
    let clk : TdmDrive := if !ctl.getLsbD 1 then .input else if p.run then .frames else .low
    let sd : TdmDrive :=
      if p.run && (p.master || p.locked) then (if n < 4 then .frames else .input)
      else if n < 4 || ctl.getLsbD 1 then .low else .input
    (clk, clk, sd)

/-- TDM_STATn: an enabled master is locked at PHASE 0 (R370). DESIGN CHOICE (log 18), unsafe. -/
def tdmStat (d : Dev) (n : Nat) : Word :=
  let p := d.tdmPort n
  let master := p.run && p.master
  BitVec.ofNat 32 ((if p.loss then 2 ^ 13 else 0) + (if master || p.locked then 2 ^ 12 else 0) +
    (if master then 0 else p.phase))

end Sys2Proof.Machine
end

