-- ==== Sys2Proof/Machine/Flags.lean ====
section
/-! DEFINITION. The lines that the whole device's status bits drive: HIRQ_N with GLB_IRQ_SUM, and FAULT_N
(R421, R425, R519, R525). -/

namespace Sys2Proof.Machine

open Sys2Proof

/-! ### Interrupts (R421, R425) -/

/-- Has a block a status bit set whose enable bit is 1? -/
def irqPair (d : Dev) (stat en : Nat) : Bool := d.reg stat &&& d.reg en != 0

/-- The same for the MIX, OUT and TDM blocks, with the enables in force (R342). -/
def irqPairEff (d : Dev) (stat en : Nat) : Bool := d.reg stat &&& d.eff en != 0

/-- ALM_IRQ_STAT: its stored bits, and DONE while the done FIFO holds an entry (R152). -/
def almIrq (d : Dev) : Word := (d.reg Reg.ALM_IRQ_STAT).setBits 0 0 (if d.alm.done = [] then 0 else 1)

/-- Does block bit n of GLB_IRQ_SUM hold HIRQ_N low (R425)?  0 to 15 are the clusters; a block whose domain
is not ON contributes nothing (R421). -/
def irqBlock (d : Dev) (n : Nat) : Bool :=
  if n < 16 then
    d.cluOn n && (irqPair d (cluReg n Reg.CLU_OSC_IRQ_STAT) (cluReg n Reg.CLU_OSC_IRQ_EN) ||
      irqPair d (cluReg n Reg.CLU_MOD_IRQ_STAT) (cluReg n Reg.CLU_MOD_IRQ_EN) ||
      irqPair d (cluReg n Reg.CLU_CELL_IRQ_STAT) (cluReg n Reg.CLU_CELL_IRQ_EN) ||
      irqPair d (cluReg n Reg.CLU_SKM_IRQ_STAT) (cluReg n Reg.CLU_SKM_IRQ_EN))
  else if n = 16 then d.isOn Dom.ctrl && (almIrq d &&& d.reg Reg.ALM_IRQ_EN != 0)
  else if n = 17 then d.isOn Dom.ctrl && irqPair d Reg.ALC_IRQ_STAT Reg.ALC_IRQ_EN
  else if n = 18 then
    d.isOn Dom.mix && (irqPairEff d Reg.MIX_IRQ_STAT Reg.MIX_IRQ_EN || irqPairEff d Reg.OUT_IRQ_STAT Reg.OUT_IRQ_EN)
  else if n = 19 then d.isOn Dom.tdm && irqPairEff d Reg.TDM_IRQ_STAT Reg.TDM_IRQ_EN
  else if n = 20 then
    d.isOn Dom.serial && (List.range 4).any (fun k => (d.reg (Reg.SER_IRQ_STAT k) ||| serIrqLive d k) &&& d.reg (Reg.SER_IRQ_EN k) != 0)
  else if n = 21 then d.isOn Dom.cal && irqPair d Reg.CAL_IRQ_STAT Reg.CAL_IRQ_EN
  else if n = 22 then
    d.isOn Dom.ctrl && (List.range 16).any (fun c => irqPair d (Reg.CHR_STAT c) (Reg.CHR_IRQ_EN c))
  else if n = 23 then d.isOn Dom.ctrl && irqPair d Reg.EVC_OVF Reg.EVC_IRQ_EN
  else if n = 24 then d.isOn Dom.mgmt && irqPair d Reg.MGT_IRQ_STAT Reg.MGT_IRQ_EN
  else if n = 25 then irqPair d Reg.PWR_IRQ_STAT Reg.PWR_IRQ_EN
  else if n = 26 then d.isOn Dom.cas && irqPair d Reg.CAS_IRQ_STAT Reg.CAS_IRQ_EN
  else if n = 27 then d.isOn Dom.memc && irqPair d Reg.MEM_IRQ_STAT Reg.MEM_IRQ_EN
  else false

/-- GLB_IRQ_SUM (R425). -/
def irqSum (d : Dev) : Nat :=
  (List.range 28).foldl (fun m n => if irqBlock d n then m + 2 ^ n else m) 0

/-- HIRQ_N is low while any block holds it (R421). -/
def irqLow (d : Dev) : Bool := (List.range 28).any (irqBlock d)

/-- HIRQ_N at the pin: the level held at entry until the pads are released (R424, R481). -/
def hirqPin (d : Dev) : Bool :=
  match d.port.hirqHeld with
  | some b => b
  | none => irqLow d

/-! ### FAULT_N (R519, R525) -/

/-- MGT_FAULT: the stored bits, with BOOT while the stage is NO_IMAGE, NO_REF while it is NO_REF and VID
while the VID fault holds (R525). -/
def faultBits (d : Dev) : Word :=
  (((d.reg Reg.MGT_FAULT).setBits 1 1 (if d.frame.vid.fault then 1 else 0)).setBits 2 2
    (if d.stage = Stage.noImage then 1 else 0)).setBits 3 3 (if d.stage = Stage.noRef then 1 else 0)

/-- FAULT_N is low from reset to the release of step 2, and while a fault bit is set whose enable is 1; VID,
BOOT and NO_REF ignore their enables (R99, R519). -/
def faultLow (d : Dev) : Bool :=
  decide (d.stage < Stage.domains) ||
    (faultBits d &&& (d.reg Reg.MGT_FAULT_EN ||| 0x0E) != 0)

/-- Is a reading of supply monitor k, in mV, inside its window (R501)?  `high` chooses VDD_IO_H's upper one. -/
def supplyInside (high : Bool) (k mv : Nat) : Bool :=
  let w := at_ [(700, 920), (760, 840), (1710, 1890), (3135, 3465), (1045, 1155),
    if high then (3135, 3465) else (1710, 1890)] k (0, 0)
  decide (w.1 ≤ mv) && decide (mv ≤ w.2)

/-- Is every rail in its window, by the latest readings? -/
def railsInside (d : Dev) : Bool :=
  (List.range 6).all (fun k => supplyInside (d.mgt.ioHigh.getD false) k (at_ d.mgt.supplies k 0))

/-- May a MGT_FAULT bit clear (R525)? -/
def faultClearable (d : Dev) (n : Nat) : Bool :=
  if n = 0 then d.frame.refValid
  else if n = 4 then !d.pwr.doms.any (fun x => x.state == .failed)
  else if n = 5 then true
  else if n = 6 then !d.mgt.tcrit.raised
  else if n = 7 then railsInside d
  else false

/-- MGT_FAULT_CLEAR: each bit written 1 clears if its condition holds; otherwise the write is ignored for it
(R519, R525). -/
def mgtFaultClearDev (v : Word) (d : Dev) : Dev :=
  [0, 4, 5, 6, 7].foldl (fun d n =>
    if v.getLsbD n && faultClearable d n then d.putFlag Reg.MGT_FAULT n false else d) d

/-- MGT_FAULT_CLEAR (R519). -/
def execMgtFaultClear (value : Word) (s : State) : Host.Outcome State Fault Refusal := hostNext s (mgtFaultClearDev value)

end Sys2Proof.Machine
end

