-- ==== Sys2Proof/Machine/Units.lean ====
section
/-! DEFINITION. What a domain's units do for its power agent: the conditions the agent answers by, the work
that ends at ACK, the save list, what is lost on the way down and what starts again on the way up
(R470, R472, R479 to R482, and the power rules of each unit's chapter). -/

namespace Sys2Proof.Machine

open Sys2Proof

/-- The domain whose registers lie at an address (R29, R520, R547).  The OUT registers that no one group owns
stand with MIX. PRESUMED (log 38), unsafe. -/
def blockDom (a : Nat) : Nat :=
  if a < 0x2000 then Dom.aon
  else if a < 0x3000 then Dom.serial
  else if a < 0x5000 then Dom.ctrl
  else if a < 0x5100 then Dom.mgmt
  else if a < 0x6000 then Dom.aon
  else if a < 0x7000 then Dom.cas
  else if a < 0x8000 then Dom.memc
  else if a < 0xD000 then Dom.ctrl
  else if a < 0xD500 then Dom.mix
  else if a < 0xD700 then Dom.out ((a - 0xD500) % 0x80 / 0x20)
  else if a < 0xD800 then Dom.out ((a - 0xD700) / 0x40)
  else if a < 0xE000 then Dom.mix
  else if a < 0xF000 then Dom.tdm
  else if a < 0x10000 then Dom.cal
  else if a < 0x20000 then Dom.cl ((a - 0x10000) / 0x1000)
  else if a < 0x100000 then Dom.memc
  else Dom.ctrl

/-- The output group of a domain. -/
def groupOf (n : Nat) : Option Nat := if 7 ≤ n ∧ n ≤ 10 then some (n - 7) else none

/-- The cluster of a domain. -/
def clusterOf (n : Nat) : Option Nat := if 14 ≤ n then some (n - 14) else none

/-- The bits of OUT_EN, OUT_RANGE, OUT_FAULT and OUT_RETRY that belong to a group. -/
def groupBits (g : Nat) : Word := BitVec.ofNat 32 (0xFF * 2 ^ (8 * g))

/-- The slots of a cluster. -/
def cluSlots (c : Nat) : List Nat := (List.range 16).map (fun t => 16 * c + t)

/-! ### The agents (R480) -/

/-- Is a slot held for the cluster's handshake: not FREE, or chosen by the Parlour (R28)?  A voice of the
chain's pool is its cluster's too. -/
def slotBusy (d : Dev) (v : Nat) : Bool :=
  (d.voice v).state != .free || d.alm.pool.any (fun t => t.chosen.contains v)

/-- The reason with which a domain's agent refuses at once, 0 for none; an enable that is stored, or that a clear has yet to
take out of force, is set (R342, R355, R480, R537). -/
def agentRefuses (d : Dev) (n : Nat) : Nat :=
  if n = Dom.mgmt then (if d.mgt.session.isSome then 0xA else 0)
  else if n = Dom.ctrl then (if d.alm.pool.any (fun t => t.state == .waiting) then 6 else 0)
  else if n = Dom.tdm then (if (List.range 6).any (fun k => (d.heldBits (Reg.TDM_CTL k)).getLsbD 0) then 7 else 0)
  else if n = Dom.cas then (if d.cas.en then 8 else 0)
  else if n = Dom.cal then (if d.cal.fgBusy then 9 else 0)
  else match groupOf n, clusterOf n with
    | some g, _ => if d.heldBits Reg.OUT_EN &&& groupBits g != 0 then 4 else 0
    | none, some c =>
      if (cluSlots c).any (slotBusy d) || (d.isWorker && !d.ownCluster c) then 3
      else if d.cal.fgBusy then 9 else 0
    | none, none => 0

/-- The domain of the region the patrol has borrowed. -/
def patrolDom (d : Dev) : Option Nat :=
  if d.mem.patrol.borrowed then (patrolBanks.find? (fun b => b.1 == d.mem.patrol.bank)).map (fun b => b.2.2) else none

/-- Does a DELAY condition of a domain hold (R395, R439, R440, R480)? DESIGN CHOICE (log 24), unsafe. -/
def agentDelays (d : Dev) (n : Nat) : Bool :=
  moverTouches d n || patrolDom d == some n ||
  (if n = Dom.mgmt then flashBusy d || mirrorBusy d || requestFlash d
   else if n = Dom.serial then serBusy d
   else if n = Dom.ctrl then !d.alm.pool.isEmpty || d.ser.ports.any (fun p => !p.parser.hold.isEmpty)
   else if n = Dom.memc then !d.win.wr.isEmpty || winFilling d
   else if n = Dom.tdm then d.tdm.ports.any (fun p => p.run)
   else if n = Dom.cas then d.cas.offAt == some d.now
   else match groupOf n with
     | some g => groupRamps d g
     | none => false)

/-- A request to leave ON reaches the agent: the background runs it touches abort (R333). -/
def onRequest (n : Nat) (d : Dev) : Dev :=
  if d.cal.fgBusy then d
  else if n = Dom.cal then calAbortAll (fun _ => true) d
  else match clusterOf n with
    | some c => calAbortAll (fun v => cluOf v == c) d
    | none => d

/-- The Skimmer on its way down: a running fade is complete, then the pending swap and the held one are
applied with F = 0 (R308). -/
def skimEntry (c : Nat) (d : Dev) : Dev :=
  d.modClu c (fun x =>
    let a := if x.swapAt.isSome then !x.active else x.active
    let a := if x.held.isSome then !a else a
    { x with fade := none, swapAt := none, held := none, active := a })

/-- ACK: a cluster completes its fade and its swaps, and its lane's PARAM_SETs move to the Parlour (R133,
R308, R480). -/
def onAck (n : Nat) (d : Dev) : Dev :=
  match clusterOf n with
  | some c => paramReroute c (skimEntry c d)
  | none => d

/-! ### Save lists (R482) -/

/-- The bits of a register that its save list holds: its RW and RWL fields, the chronographs' and the
counters' enables as 0, and nothing of EVC_GLB, which R461 does not list (R461, R482). DEDUCED (log 24), unsafe. -/
def savedBits (a : Nat) : Word :=
  let m := match rowOf a with
    | some r => r.rw ||| r.rwl
    | none => 0
  if a = Reg.EVC_GLB then 0
  else if 0x3000 ≤ a ∧ a < 0x3400 ∧ a % 0x40 = 0 then m &&& ~~~1
  else if 0x4100 ≤ a ∧ a < 0x4300 ∧ a % 0x10 = 0 then m &&& ~~~0x80
  else m

/-- The registers that hold bits of all four output groups (R355). PRESUMED (log 38), unsafe. -/
def groupRegs : List Nat := [Reg.OUT_EN, Reg.OUT_RANGE, Reg.OUT_RETRY]

/-- The save list of a domain as its registers stand. DESIGN CHOICE (log 24), unsafe. -/
def saveList (d : Dev) (n : Nat) : List (Nat × Word) :=
  (d.regs.filter (fun e => blockDom e.1 == n && !groupRegs.contains e.1)).map (fun e => (e.1, e.2 &&& savedBits e.1)) ++
  (match groupOf n with
   | some g => groupRegs.map (fun a => (a, d.reg a &&& groupBits g))
   | none => [])

/-- A domain's registers at their reset values, with the writes of the MIX, OUT and TDM blocks on their way
to them. DESIGN CHOICE (log 24), unsafe. -/
def dropRegs (n : Nat) (d : Dev) : Dev :=
  let keep (a : Nat) : Bool := blockDom a != n || groupRegs.contains a || a == Reg.OUT_FAULT
  let d := { d with regs := d.regs.filter (fun e => keep e.1) }
  let d := d.modMix (fun m => { m with
    eff := m.eff.filter (fun e => keep e.1), effDue := m.effDue.filter (fun e => keep e.2.1) })
  match groupOf n with
  | some g =>
    let clear (w : Word) : Word := w &&& ~~~(groupBits g)
    let d := forEach (Reg.OUT_FAULT :: groupRegs) (fun a d => d.putReg a (clear (d.reg a))) d
    d.modMix (fun m => { m with
      eff := groupRegs.foldl (fun e a => cellSet regReset e a (clear (cellGet regReset e a))) m.eff
      effDue := m.effDue.map (fun e => if groupRegs.contains e.2.1 then (e.1, e.2.1, clear e.2.2) else e) })
  | none => d

/-- One entry of a save list restored; a register of the MIX, OUT and TDM blocks is in force at once. -/
def restoreOne (e : Nat × Word) (d : Dev) : Dev :=
  let w := if groupRegs.contains e.1 then d.reg e.1 ||| e.2 else Word.merge (regReset e.1) e.2 (savedBits e.1)
  let d := d.putReg e.1 w
  if 0xD000 ≤ e.1 ∧ e.1 < 0xF000 then d.modMix (fun m => { m with eff := cellSet regReset m.eff e.1 w }) else d

/-! ### On the way down (R470, R479) -/

/-- What the loss of a domain's SRAM arrays, or of the DRAM's self-refresh, loses (R430, R431, R472): a woken
bank reads as its clear leaves it. DESIGN CHOICE (log 3), safe. -/
def arraysLost (n : Nat) (d : Dev) : Dev :=
  let m := d.mem
  if n = Dom.mgmt then
    { d with mem := { m with mram := [] }
             boot := { d.boot with oemId := [] }
             mgt := { d.mgt with own := [], total := 0, mirrored := 0, mirrorUp := false } }
  else if n = Dom.ctrl then { d with mem := { m with pstore := [] } }
  else if n = Dom.memc then { d with mem := { m with wave := [], waveLoss := m.waveLoss + 1, dramReady := false } }
  else match groupOf n, clusterOf n with
    | some g, _ => { d with mem := { m with outwave := cellsDrop m.outwave (0x10000 * g) 0x10000 } }
    | none, some c =>
      d.modClu c (fun x => { x with lines := [] })
    | none, none => d

/-- A cluster's running state at zero: its cache lines and its active bank are kept (R303, R308, R482).  The limit of one
frame-late entry per 1,024 EF and the count since the previous entry start afresh with it: R57 does not say.
DESIGN CHOICE (log 37), unsafe. -/
def cluStop (c : Nat) (d : Dev) : Dev :=
  let d := d.modClu c (fun x => { Clu.reset with lines := x.lines, active := x.active })
  let d := forEach (cluSlots c) (fun v d => (d.modTile v (fun _ => Tile.reset)).modVaud v (fun _ => VAud.reset)) d
  let d := d.modCal (fun x => { x with res := x.res.filter (fun e => cluOf e.1 != c) })
  { d with mgt := { d.mgt with passed := upd d.mgt.passed c (fun _ => none) } }

/-- The management processor stops: its loop, its patrol and its commands end, and VID[3:0] goes to 1111b unless MANUAL holds
it (R448, R481, R497). -/
def mgmtStop (d : Dev) : Dev :=
  let d := patrolReturn d
  let d := d.modCas (fun c => { c with fwdPos := none, fwdData := [], fwdPort := none })
  let v := d.frame.vid
  let moves := !(d.flag Reg.GLB_VID 8 || v.fault) && v.code != 15
  let d := { d with
    mgt := { d.mgt with mode := 0, busy := false, request := [], response := none }
    frame := { d.frame with vid := { v with
      code := 15, down := 0, holdoff := 0, settling := false, request := none, timeouts := 0
      requested := if moves then 15 else v.requested, settled := v.settled && !moves } } }
  if moves then d.emit 20 1 else d

/-- CTRL stops: the timer halts with the reference oscillator, the queues and pools are empty, and the
CHR_OUT pins hold (R32, R416, R461, R482). -/
def ctrlStop (d : Dev) : Dev :=
  let d := chrSleep d
  { d with
    alm := Alm.reset
    par := Parlour.reset
    port := { d.port with hq := [], vwords := [], hwords := [] }
    frame := { d.frame with refValid := false, refEver := false, audio := false }
    aud := { d.aud with glfo := Audio.reset.glfo, cfDone := none } }

/-- Every unit of a domain at rest, as it will be when the domain wakes. -/
def unitStop (n : Nat) (d : Dev) : Dev :=
  if n = Dom.mgmt then mgmtStop d
  else if n = Dom.hostp then
    { d with port := { d.port with
        snap := none, hold := none, efLoHigh := none, efHi := none, evc := [], aonHold := none, hirqHeld := some (hirqPin d) } }
  else if n = Dom.serial then serWake d
  else if n = Dom.ctrl then ctrlStop d
  else if n = Dom.memc then
    { d with win := Window.reset
             mem := { d.mem with dramReady := false, lanePri := 0, laneHost := Lane.reset, laneMov := Lane.reset, lead := 0, turn := 0, movers := Mems.reset.movers, patrol := Mems.reset.patrol } }
  else if n = Dom.mix then { (mixWake d) with tdm := { d.tdm with pairs := [] } }
  else if n = Dom.tdm then { d with tdm := { d.tdm with ports := List.replicate 6 TdmPort.reset } }
  else if n = Dom.cas then d.modCas (fun _ => Cas.reset)
  else if n = Dom.cal then d.modCal (fun _ => Cal.reset)
  else match groupOf n, clusterOf n with
    | some g, _ => outWake g d
    | none, some c => cluStop c d
    | none, none => d

/-- A domain leaves ON: its save list is copied, its registers and running state go, and for OFF its arrays
too (R470, R479). DESIGN CHOICE (log 24), unsafe. -/
def leaveOn (n : Nat) (t : DomState) (d : Dev) : Dev :=
  let saved := saveList d n
  let d := dropRegs n (unitStop n d)
  let d := { d with pwr := { d.pwr with doms := upd d.pwr.doms n (fun x => { x with saved := saved }) } }
  if t = .off then arraysLost n d else d

/-! ### On the way up (R487 steps 4 to 8) -/

/-- The save list restored, and the units' own start: mute weights settled, the wave window at WIN_ADDR, TX
levels by TX_BREAK, and pins by their modes (R344, R396, R417, R461).
DESIGN CHOICE (log 24), unsafe. -/
def unitWake (n : Nat) (cold : Bool) (d : Dev) : Dev :=
  let x := d.dom n
  let d := if x.everOn then dropRegs n d else d
  let d := forEach x.saved restoreOne d
  if n = Dom.mix then mixWake d
  else if n = Dom.serial then
    { d with ser := { d.ser with ports := (List.range 4).map (fun k =>
        { at_ d.ser.ports k SerPort.reset with txBreak := d.flag (Reg.SER_CTL k) 11 }) } }
  else if n = Dom.ctrl then chrWake d
  else if n = Dom.memc then
    { d with win := { Window.reset with rdAddr := d.fld Reg.WIN_ADDR 26 0, dir := d.flag Reg.WIN_CTL 0 }
             mem := { d.mem with dramReady := !cold } }
  else if 14 ≤ n then d.modClu (n - 14) (fun x => { x with lenM := d.flag (cluReg (n - 14) Reg.CLU_SKM_CTL) 4 })
  else d

end Sys2Proof.Machine
end

