-- ==== Sys2Proof/Machine/Power.lean ====
section
/-! DEFINITION. The power controller: requests, batches, handshakes, entries, wakes, wake sources and pads
(R470 to R495).  A wake's own steps are in Wake.lean, which needs the boot image. -/

namespace Sys2Proof.Machine

open Sys2Proof

/-- Does a domain have pads that latch (R481)? -/
def hasPads (n : Nat) : Bool := n != 0 && (decide (n ≤ 4) || decide (7 ≤ n ∧ n ≤ 12))

/-- Prerequisites of a domain (R29). -/
def prereqs (n : Nat) : List Nat :=
  if n = 0 then []
  else if n ≤ 4 then [0]
  else if n ≤ 6 then [4]
  else if n ≤ 12 then [6]
  else if n = 13 then [1, 4]
  else [4, 5, 6]

/-- The domains that list one as a prerequisite (R29, R31). -/
def dependents (n : Nat) : List Nat := (List.range 30).filter (fun m => (prereqs m).contains n)

/-- Every prerequisite of a domain, theirs included, in ascending number (R30). -/
def allPrereqs (n : Nat) : List Nat :=
  (List.range n).filter (fun m => (prereqs n).any (fun p => p == m || (prereqs p).contains m))

/-- A domain changed. -/
def Dev.modDom (d : Dev) (n : Nat) (f : Domain → Domain) : Dev :=
  { d with pwr := { d.pwr with doms := upd d.pwr.doms n f } }

/-- AON_STATUS.WAKE_BUSY falls once the wake that AON_WAKE asked for has ended (R426). -/
def aonWakeEnds (d : Dev) : Dev :=
  let x := d.dom d.pwr.aonWakeDom
  { d with pwr := { d.pwr with aonWakeBusy := d.pwr.aonWakeBusy && (x.wakes || x.wakeNext.isSome) } }

/-- Is a request of a batch under way in a domain, or queued behind its entry? -/
def Domain.holds (x : Domain) (b : Nat) : Bool :=
  (!x.idle && x.batch == b) || x.wakeNext == some b || x.entryNext.any (fun e => e.1 == b)

/-- Every batch whose requests have all ended sets PWR_IRQ_STAT.DONE (R491). -/
def closeBatches (d : Dev) : Dev :=
  let d := aonWakeEnds d.arbEnds
  let live (b : Nat) : Bool := d.pwr.doms.any (fun x => x.holds b)
  let gone := d.pwr.open_.filter (fun b => !live b)
  if gone.isEmpty then d
  else { (d.putFlag Reg.PWR_IRQ_STAT 0 true) with pwr := { d.pwr with open_ := d.pwr.open_.filter live } }

/-- A request of a domain ended with a result and a reason (R495).  A refusal of an OFF request that the boot made
after calibration is a boot warning (R100, R108). -/
def settle (n result reason : Nat) (d : Dev) : Dev :=
  let d := d.modDom n (fun x => { x with phase := .rest, result := result, reason := if result = 2 then reason else x.reason })
  let d := { d with pwr := { d.pwr with ready := d.pwr.ready.filter (· != n) } }
  let boots := d.boot.sleeps.contains n
  let d := d.modBoot (fun b => { b with sleeps := b.sleeps.filter (· != n) })
  if result ≠ 2 then d
  else
    let d := d.putFlag Reg.PWR_IRQ_STAT 1 true
    if boots then bootWarn 0x0D d.slot 0 d else d

/-- An execution phase to come (R477). -/
def makeReady (n : Nat) (d : Dev) : Dev :=
  { d with pwr := { d.pwr with ready := d.pwr.ready.filter (· != n) ++ [n] } }

/-- One domain's wake requested in a batch (R475, R476). -/
def wakeOne (b n : Nat) (d : Dev) : Dev :=
  let x := d.dom n
  match x.phase with
  | .waking => d
  | .retryWait => d
  | .acked _ =>
    d.modDom n (fun x => { x with
      wakeNext := some b, entryNext := none, result := if x.entryNext.isSome then 3 else x.result })
  | .asked _ => (settle n 3 0 d)
  | .delayed _ => (settle n 3 0 d)
  | .rest =>
    if x.state = .on then settle n 1 0 d
    else makeReady n (d.modDom n (fun x => { x with
      phase := .waking, batch := b, attempts := 0, cold := x.state != .ret, wokeFrom := x.state }))

/-- A domain's wake with its missing prerequisites, in ascending number (R30). DESIGN CHOICE (log 24), unsafe. -/
def requestWake (b n : Nat) (d : Dev) : Dev :=
  wakeOne b n (forEach ((allPrereqs n).filter (fun m => (d.dom m).state != .on || (d.dom m).entering)) (wakeOne b) d)

/-- A request that ends CANCELLED without ever having been under way (R476). -/
def cancelled (n : Nat) (d : Dev) : Dev := d.modDom n (fun x => { x with result := 3 })

/-- An entry requested in a batch: settled at once, or ENTERING.  It replaces a wake that has not run, or one that is
queued behind an entry (R475, R476).  An entry requested while the agent answers DELAY changes nothing: R476 does not
say.  DESIGN CHOICE (log 24), unsafe. -/
def requestEntry (b n : Nat) (target : DomState) (d : Dev) : Dev :=
  let x := d.dom n
  let d := if x.wakes then settle n 3 0 d else d
  if n = 0 then settle n 2 2 d
  else
    match x.phase with
    | .delayed _ => d
    | .acked _ =>
      d.modDom n (fun x => { x with
        wakeNext := none, entryNext := some (b, target), result := if x.wakeNext.isSome then 3 else x.result })
    | _ =>
      if x.state = target then settle n 1 0 d
      else
        match x.state with
        | .on => d.modDom n (fun x => { x with phase := .asked target, batch := b })
        | .ret => settle n 1 0 (arraysLost n (d.modDom n (fun x => { x with state := .off, cold := true })))
        | .off => settle n 2 2 d
        | .failed =>
          if target = .off then settle n 1 0 (d.modDom n (fun x => { x with state := .off }))
          else settle n 2 2 d

/-- A new batch number, open until its requests have ended; requests of one arbitration share a batch (R473). -/
def newBatch (d : Dev) : Dev :=
  let b := if d.pwr.arb.isEmpty then d.pwr.batch + 1 else d.pwr.batch
  { d with pwr := { d.pwr with batch := b, open_ := d.pwr.open_.filter (· != b) ++ [b] } }

/-- Is the entry of a dependent in the same batch still under way (R474)? -/
def dependentEntering (d : Dev) (n : Nat) : Bool :=
  (dependents n).any (fun m => (d.dom m).entering && (d.dom m).batch == (d.dom n).batch)

/-- Is a domain that lists this one as a prerequisite ON (R31)? -/
def dependentOn (d : Dev) (n : Nat) : Bool := (dependents n).any (fun m => (d.dom m).state == .on)

/-- The controller's check of an entry that waits for its handshake: once the batch's dependents have ended, one that
is still ON refuses it with reason 1h, and the agent is not asked (R31, R474). -/
def checkEntry (n : Nat) (d : Dev) : Dev :=
  match (d.dom n).phase with
  | .asked _ => if !dependentEntering d n && dependentOn d n then settle n 2 1 d else d
  | _ => d

/-- The check made for every waiting entry, in descending number, after a request has come or ended; then the batches
that have ended are closed (R474, R491). DESIGN CHOICE (log 24), unsafe. -/
def controllerPass (d : Dev) : Dev := closeBatches (forEach (List.range 30).reverse checkEntry d)

/-- A batch of one target for the masked domains: wakes ascending, entries descending (R473, R474).
Where the arbitration has also requested the domain's wake, the wake stands and the entry ends CANCELLED (R476).
DESIGN CHOICE (log 24), unsafe. -/
def issueBatch (mask : List Nat) (target : DomState) (d : Dev) : Dev :=
  let d := newBatch d
  let b := d.pwr.batch
  let woken := d.pwr.arb
  controllerPass
    (if target = .on then forEach mask (requestWake b) d
     else forEach mask.reverse (fun n d => if woken.contains n then cancelled n d else requestEntry b n target d) d)

/-- A batch of wakes from AON_WAKE or a wake source, which begins an arbitration or joins the one in progress: a
POWER_BATCH that follows at once falls in the same one (R473, R474).  DESIGN CHOICE (log 24), unsafe. -/
def wakeBatch (mask : List Nat) (d : Dev) : Dev :=
  let asked := mask ++ (mask.map allPrereqs).flatten.filter (fun m => !d.isOn m)
  let r := issueBatch mask .on d
  { r with pwr := { r.pwr with arb := asked ++ d.pwr.arb } }

/-- The target of PWR_REQ.TARGET; 11b is ignored at GO (R491). -/
def targetOfCode (v : Nat) : Option DomState :=
  if v = 0 then some .on else if v = 1 then some .ret else if v = 2 then some .off else none

/-- POWER_BATCH: a write of PWR_REQ; with GO it issues a batch of the masked domains (R474, R491). -/
def powerBatchDev (v : Word) (d : Dev) : Dev :=
  let d := d.putFld Reg.PWR_REQ 9 8 (v.bits 9 8)
  if v.getLsbD 0 then
    match targetOfCode (v.bits 9 8) with
    | some t => issueBatch ((setBitsOf (d.reg Reg.PWR_REQ_MASK)).filter (· < 30)) t d
    | none => d
  else d

/-- POWER_BATCH (R474). -/
def execPowerBatch (value : Word) (s : State) : Host.Outcome State Fault Refusal := hostNext s (powerBatchDev value)

/-- AON_WAKE: with the key, a wake of the named domain is requested (R423, R426). -/
def aonWakeDev (v : Word) (d : Dev) : Dev :=
  let n := v.bits 4 0
  if v.bits 31 16 = 0x5AF0 ∧ n < 30 ∧ Stage.straps ≤ d.stage then
    let d := { d with pwr := { d.pwr with aonWakeDom := n, aonWakeBusy := true } }
    wakeBatch [n] d
  else d

/-- AON_WAKE: taken by the responder, or with HOSTP ON under R102's stages (R102, R423). -/
def execAonWake (value : Word) (s : State) : Host.Outcome State Fault Refusal :=
  .next (if !s.dev.isOn Dom.hostp || stageOpen s.dev then s.onDev (aonWakeDev value) else s)

/-! ### Entry handshake (R478, R480) -/

/-- The target of an entry request that its agent has not answered finally. -/
def Domain.askedTarget (x : Domain) : Option DomState :=
  match x.phase with
  | .asked t => some t
  | .delayed t => some t
  | _ => none

/-- AGENT_ANSWER: once the batch's dependents have ended and R31 allows, the agent answers ACK, DELAY or REFUSE; in
DELAY it answers again when its condition has passed (R474, R478, R480). -/
def agentAnswerDev (n : Nat) (d : Dev) : Dev :=
  let d := d.arbEnds
  match (d.dom n).askedTarget with
  | none => d
  | some t =>
    if dependentEntering d n then d
    else if dependentOn d n then controllerPass (settle n 2 1 d)
    else
      let first := (d.dom n).phase == .asked t
      let d := if first then onRequest n d else d
      let why := if first then agentRefuses d n else 0
      if why ≠ 0 then controllerPass (settle n 2 why d)
      else if agentDelays d n then d.modDom n (fun x => { x with phase := .delayed t })
      else makeReady n (onAck n (d.modDom n (fun x => { x with phase := .acked t })))

/-- AGENT_ANSWER (R478). -/
def execAgentAnswer (n : Nat) (s : State) : Host.Outcome State Fault Refusal := devNext s (agentAnswerDev n)

/-- AGENT_DELAY_TIMEOUT: a DELAY condition outlasted its bound; the agent refuses with reason 5h (R480). -/
def agentDelayTimeoutDev (n : Nat) (d : Dev) : Dev :=
  match (d.dom n).phase with
  | .delayed _ => controllerPass (settle n 2 5 d)
  | _ => d

/-- AGENT_DELAY_TIMEOUT (R480). -/
def execAgentDelayTimeout (n : Nat) (s : State) : Host.Outcome State Fault Refusal := devNext s (agentDelayTimeoutDev n)

/-- POWER_NO_ANSWER: no final answer in time; the request is refused with reason Bh (R478). -/
def powerNoAnswerDev (n : Nat) (d : Dev) : Dev :=
  match (d.dom n).askedTarget with
  | some _ => controllerPass (settle n 2 0xB d)
  | none => d

/-- POWER_NO_ANSWER (R478). -/
def execPowerNoAnswer (n : Nat) (s : State) : Host.Outcome State Fault Refusal := devNext s (powerNoAnswerDev n)

/-! ### Execution phases (R477, R479) -/

/-- May a domain's execution phase run: an entry after ACK, or a wake whose prerequisites are ON?  A prerequisite that
is asked to leave ON while a dependent's wake is still under way has its entry granted, for the dependent is not yet ON
(R31), and the dependent stays WAKING until the prerequisite is ON again; its wake is not requested anew: R30 does not
say.  DESIGN CHOICE (log 24), unsafe. -/
def executable (d : Dev) (n : Nat) : Bool :=
  match (d.dom n).phase with
  | .acked _ => true
  | .waking => (prereqs n).all (fun p => d.isOn p)
  | _ => false

/-- The domain whose execution phase runs: the first ready one (R477). -/
def execDomain (d : Dev) : Option Nat := d.pwr.ready.find? (executable d)

/-- Has the patrol borrowed a region of the AON save RAM, for which a save list's write waits (R428, R441)? -/
def saveRamBorrowed (d : Dev) : Bool := d.mem.patrol.borrowed && d.mem.patrol.bank == 0x29

/-- DOMAIN_ENTRY: after ACK the domain's units stop, its save list is copied, its pads latch, and it enters
RET or OFF; a request queued behind the entry is taken then.  The copy waits for a borrow of the save RAM
(R441, R476, R479, R481, R482). -/
def domainEntryDev (n : Nat) (d : Dev) : Dev :=
  match (d.dom n).phase with
  | .acked t =>
    if execDomain d ≠ some n ∨ saveRamBorrowed d then d
    else
      let x := d.dom n
      let d := leaveOn n t d
      let d := d.modDom n (fun x => { x with
        state := t, latched := hasPads n, cold := t != .ret, wakeNext := none, entryNext := none })
      let d := settle n 1 0 d
      let d := match x.wakeNext, x.entryNext with
        | some b, _ => wakeOne b n d
        | none, some e => requestEntry e.1 n e.2 d
        | none, none => d
      controllerPass d
  | _ => d

/-- DOMAIN_ENTRY (R479). -/
def execDomainEntry (n : Nat) (s : State) : Host.Outcome State Fault Refusal := devNext s (domainEntryDev n)

/-- Domains whose wake waits for a failed prerequisite stay in their previous state (R30, R488).  What their
LAST_RESULT and REASON show then is not said; they keep what the request before it left.  DESIGN CHOICE (log 24),
unsafe. -/
def dropDependents (n : Nat) (d : Dev) : Dev :=
  forUpTo 30 (fun m d => if (d.dom m).wakes && (allPrereqs m).contains n then
      { (d.modDom m (fun x => { x with phase := .rest })) with
        pwr := { (d.modDom m (fun x => { x with phase := .rest })).pwr with ready := d.pwr.ready.filter (· != m) } }
    else d) d

/-- FAIL_STEP of a wake step (R495). -/
def failCode (step : Nat) : Nat := if step = 2 then 1 else if step = 3 then 2 else if step = 7 then 3 else 0

/-- WAKE_STEP_TIMEOUT: the attempt ends, all power is removed and the step is logged; after the third
failed retry the domain is FAILED (R487, R488). -/
def wakeStepTimeoutDev (n step : Nat) (d : Dev) : Dev :=
  if (d.dom n).phase ≠ .waking ∨ !(step == 2 || (step == 3 && n == Dom.ctrl)) then d
  else
    let a := (d.dom n).attempts + 1
    let d := arraysLost n d
    let d := { d with pwr := { d.pwr with ready := d.pwr.ready.filter (· != n) } }
    let d := d.modDom n (fun x => { x with
      state := .off, attempts := a, failStep := failCode step, cold := true, phase := .retryWait })
    let d := d.logEv 0x02 0x01 1 [n, failCode step]
    if a < 4 then d
    else
      let d := d.modDom n (fun x => { x with state := .failed, phase := .rest })
      let d := (d.logEv 0x02 0x02 3 [n]).setFault 4
      closeBatches (dropDependents n (d.putFlag Reg.PWR_IRQ_STAT 2 true))

/-- WAKE_STEP_TIMEOUT (R487). -/
def execWakeStepTimeout (n failStep : Nat) (s : State) : Host.Outcome State Fault Refusal :=
  devNext s (wakeStepTimeoutDev n failStep)

/-- WAKE_RETRY: 1 ms after a failed attempt the wake is tried again as from OFF (R488). -/
def wakeRetryDev (n : Nat) (d : Dev) : Dev :=
  if (d.dom n).phase = .retryWait then
    makeReady n (d.modDom n (fun x => { x with phase := .waking, cold := true }))
  else d

/-- WAKE_RETRY (R488). -/
def execWakeRetry (n : Nat) (s : State) : Host.Outcome State Fault Refusal := devNext s (wakeRetryDev n)

/-! ### Pads (R481) -/

/-- The pads of one domain released. -/
def releasePads (n : Nat) (d : Dev) : Dev :=
  let d := d.modDom n (fun x => { x with latched := false })
  let d := if n = Dom.ctrl then { d with cnt := { d.cnt with latched := none } } else d
  if n = Dom.hostp then { d with port := { d.port with hirqHeld := none } } else d

/-- PAD_RELEASE: each bit written 1 releases the pads of a domain that is ON (R481). -/
def padReleaseDev (v : Word) (d : Dev) : Dev :=
  forUpTo 30 (fun n d => if 0 < n ∧ v.getLsbD n ∧ d.isOn n then releasePads n d else d) d

/-- PAD_RELEASE (R481). -/
def execPadRelease (value : Word) (s : State) : Host.Outcome State Fault Refusal := hostNext s (padReleaseDev value)

/-! ### Wake sources (R485, R486) -/

/-- The target mask of a source as a list of domains (R485, R494). -/
def wakeTargets (d : Dev) (s : Nat) : List Nat := (setBitsOf (d.reg (Reg.PWR_WAKE_TGT s))).filter (· < 30)

/-- Is a source enabled (R485, R493)?  A serial detector fires while armed: in EDGE mode, or in PATTERN mode at the
pulse that completes the pattern, the accepted pulse numbered COUNT_M1 + 1 (R486). -/
def wakeEnabled (d : Dev) (s : Nat) : Bool :=
  if s < 4 then
    let det := at_ d.pwr.dets s ⟨false, 0⟩
    let mode := d.fld (Reg.PWR_WAKE_SP s) 1 0
    !det.disarmed && (mode == 1 || (mode == 2 && det.count == d.fld (Reg.PWR_WAKE_SP s) 3 2 + 1))
  else if s = 4 then d.flag Reg.PWR_WAKE_HCS 0
  else s == 5 && d.flag Reg.PWR_WAKE_CAS 0

/-- WAKE_SOURCE: a source fires and wakes its targets as one batch, unless all are ON or waking; an ENTERING target is
neither, and its entry is withdrawn, or the wake follows it (R476, R485).  A detector that has fired counts afresh.
DESIGN CHOICE (log 25), unsafe. -/
def wakeSourceDev (s : Nat) (d : Dev) : Dev :=
  let tg := wakeTargets d s
  if !(d.stage != 0 && wakeEnabled d s) then d
  else
    let due := tg.any (fun n => ((d.dom n).state != .on || (d.dom n).entering) && !(d.dom n).wakes)
    let d := { d with pwr := { d.pwr with dets := upd d.pwr.dets s (fun x => { x with count := 0 }) } }
    if due then wakeBatch tg ((d.putReg Reg.PWR_WAKE_LAST (BitVec.ofNat 32 s)).putFlag Reg.PWR_IRQ_STAT 3 true)
    else d

/-- WAKE_SOURCE (R485). -/
def execWakeSource (src : Nat) (s : State) : Host.Outcome State Fault Refusal := devNext s (wakeSourceDev src)

/-- WAKE_DETECTOR_REARM: a disarmed detector re-arms after its line has been high long enough (R486).
DESIGN CHOICE (log 25), unsafe. -/
def wakeDetectorRearmDev (n : Nat) (d : Dev) : Dev :=
  { d with pwr := { d.pwr with dets := upd d.pwr.dets n (fun x => { x with disarmed := false }) } }

/-- WAKE_DETECTOR_REARM (R486). -/
def execWakeDetectorRearm (n : Nat) (s : State) : Host.Outcome State Fault Refusal := devNext s (wakeDetectorRearmDev n)

/-- WAKE_PATTERN_PULSE: a low pulse of `width` AON periods after a high gap of `gap`: accepted within the
window, else the count starts again; a gap above 4 × WMAX starts it again first.  The accepted pulse numbered
COUNT_M1 + 1 completes the pattern; the firing itself is the WAKE_SOURCE that follows it, and a pulse after a complete
pattern that has not been taken counts afresh (R486).  DESIGN CHOICE (log 25), unsafe. -/
def wakePatternPulseDev (n width gap : Nat) (d : Dev) : Dev :=
  let det := at_ d.pwr.dets n ⟨false, 0⟩
  if !(decide (n < 4) && d.fld (Reg.PWR_WAKE_SP n) 1 0 == 2 && !det.disarmed) then d
  else
    let wmin := d.fld (Reg.PWR_WAKE_WIN n) 15 0
    let wmax := d.fld (Reg.PWR_WAKE_WIN n) 31 16
    let full := d.fld (Reg.PWR_WAKE_SP n) 3 2 + 1
    let base := if 4 * wmax < gap ∨ full ≤ det.count then 0 else det.count
    let cnt := if wmin ≤ width ∧ width ≤ wmax then base + 1 else 0
    { d with pwr := { d.pwr with dets := upd d.pwr.dets n (fun x => { x with count := cnt }) } }

/-- WAKE_PATTERN_PULSE (R486). -/
def execWakePatternPulse (n width gap : Nat) (s : State) : Host.Outcome State Fault Refusal :=
  devNext s (wakePatternPulseDev n width gap)

/-! ### Bias (R483, R484, R492) -/

/-- The temperature a domain's cold boost follows, 1/128 °C: sensor c for CLc, else the lowest reading. -/
def domTemp (d : Dev) (n : Nat) : Int :=
  if 14 ≤ n then signed 16 (at_ d.mgt.temps (n - 14) 0)
  else d.mgt.temps.foldl (fun m t => min m (signed 16 t)) (signed 16 (at_ d.mgt.temps 0 0))

/-- Is cold boost applied to a domain: it is ON, not AON, and cold (R483, R484, R492)? -/
def coldBoosted (d : Dev) (n : Nat) : Bool := n != 0 && (d.dom n).state == .on && d.pwr.coldBoost.testBit n

/-- The body bias of a domain's VDD_CORE logic in mV, forward positive; none without supply, and in AON, which runs from
VDD_AON without bias (R470, R483). -/
def bodyBias (d : Dev) (n : Nat) : Option Int :=
  if n = 0 then none
  else match (d.dom n).state with
    | .on => some (if coldBoosted d n then 100 else 0)
    | .ret => some (-300)
    | .off => none
    | .failed => none

/-- Does the negative-bitline write assist work in a domain (R483, R484)? -/
def writeAssist (d : Dev) (n : Nat) : Bool := n != 0 && (d.dom n).state == .on && d.pwr.wassist

/-- BIAS_CHANGE: cold boost below 0 °C until 5 °C, write assist below 0.760 V until 0.770 V (R484). -/
def biasUpdate (d : Dev) : Dev :=
  let core := at_ d.mgt.supplies 0 0
  let was := if core < 760 then true else if 770 ≤ core then false else d.pwr.wassist
  let one (n : Nat) : Bool :=
    if domTemp d n < 0 then true else if 640 ≤ domTemp d n then false else d.pwr.coldBoost.testBit n
  let boost := (List.range 30).foldl (fun m n => if 0 < n ∧ one n then m + 2 ^ n else m) 0
  { d with pwr := { d.pwr with wassist := was, coldBoost := boost } }

end Sys2Proof.Machine
end

