-- ==== Sys2Proof/Machine/Round.lean ====
section
/-! DEFINITION. The Almanac's arbitration round, and the commands that bring one about: posts and cancels
(R123, R132, R138 to R141). -/

namespace Sys2Proof.Machine

open Sys2Proof

/-- Step 1 of a round: the releases in R123's order, up to those of the cascade's landing queue.  Returned tasks go
ahead of every other release (R122). DEDUCED (log 30), safe. -/
def roundReleases (d : Dev) : Dev :=
  if d.isOn Dom.ctrl then landTasks 25 (earlierReleases 4 d) else d

/-- One arbitration round: the releases, the last of them the offer a producer makes in this round, if any; at most
one cancel; then the local slots are filled (R139). -/
def arbitrate (offer cancel : Dev → Dev) (d : Dev) : Dev :=
  let d := slotFill (cancel (offer (roundReleases d)))
  { d with alm := { d.alm with roundRel := [] } }

/-- ALM_ARBITRATION_ROUND: a round in which nothing new is offered and no cancel is registered (R139). -/
def almArbitrationRoundDev (d : Dev) : Dev := if d.isOn Dom.ctrl then arbitrate id id d else d

/-- ALM_ARBITRATION_ROUND (R139). -/
def execAlmArbitrationRound (s : State) : Host.Outcome State Fault Refusal := devNext s almArbitrationRoundDev

/-! ### Cancels (R138, R140) -/

/-- HOST_CANCEL: the cancel is registered in the present EF and applied in the round that takes it, which ends
before the host can write again (R138, R139). DEDUCED (log 30), safe. -/
def hostCancelDev (v : Word) (d : Dev) : Dev :=
  if d.isOn Dom.ctrl then
    arbitrate id (cancelApply (d.fld Reg.ALM_CANCEL_SCOPE 7 0) (v.bits 15 0) (v.bits 31 16)) d
  else d

/-- HOST_CANCEL (R138). -/
def execHostCancel (value : Word) (s : State) : Host.Outcome State Fault Refusal := hostNext s (hostCancelDev value)

/-- FLUSH: a cancel with scope FFh and MASK 0000h (R140); ERR is write-1-to-clear (R144). -/
def flushDev (v : Word) (d : Dev) : Dev :=
  if d.isOn Dom.ctrl then
    let d1 := if v.getLsbD 31 then d.putFlag Reg.ALM_CTL 31 false else d
    if v.getLsbD 0 then arbitrate id (cancelApply 0xFF 0 0) d1 else d1
  else d

/-- FLUSH (R140). -/
def execFlush (value : Word) (s : State) : Host.Outcome State Fault Refusal := hostNext s (flushDev value)

/-! ### Posts (R124, R141, R539) -/

/-- HOST_POST: a write of ALM_POST_GO offers the staged image in the round that takes it, behind every earlier class
of R123; on a worker a cascade flow is forwarded (R123, R139, R141, R539). DEDUCED (log 30), safe. -/
def hostPostRow (v : Word) (d : Dev) : Dev :=
  let o := offerOf (stagedBytes d) 4
  if !(v.getLsbD 0 && d.isOn Dom.ctrl) then d
  else if forwards d o.flow && badReason o (hostFlowOk d o.typ o.flow) == 0 then
    match forwardTask (stagedBytes d) d with
    | some d => postRes 1 0 0 d
    | none => postRes 2 3 0 (((d.bump Reg.ALM_CNT_REFUSE).putFlag Reg.ALM_IRQ_STAT 1 true).emit 7 1)
  else arbitrate (hostPostDev v) id d

/-- HOST_POST (R141). -/
def execHostPost (value : Word) (s : State) : Host.Outcome State Fault Refusal := hostNext s (hostPostRow value)

/-- MGMT_POST: the management processor posts an entry of eight words, behind the earlier classes of R123; refused,
the firmware retries and nothing is dropped; on a worker a cascade flow is forwarded (R123, R124, R539). -/
def mgmtPostRow (image : List Word) (d : Dev) : Dev :=
  let im := image.flatMap (fun w => leBytes 4 w.toNat)
  let o := offerOf im 6
  if !(d.isOn Dom.ctrl && d.isOn Dom.mgmt && d.mgt.mode == 2 && image.length == 8) then d
  else if forwards d o.flow && badReason o (mgmtFlowOk o.typ o.flow) == 0 then (forwardTask im d).getD d
  else arbitrate (mgmtPostDev image) id d

/-- MGMT_POST (R124). -/
def execMgmtPost (image : List Word) (s : State) : Host.Outcome State Fault Refusal := devNext s (mgmtPostRow image)

end Sys2Proof.Machine
end

