-- ==== Sys2Proof/Machine/Release.lean ====
section
/-! DEFINITION. The EF release and what stops and starts it: the frame timer, the clusters' deadlines and
flush, the reference, and the engine enable (R32, R39 to R44, R57 to R59, R65, R303, R318, R325). -/

namespace Sys2Proof.Machine

open Sys2Proof

/-! ### Clusters at a release -/

/-- An undelivered frame is computed before the next release: its state is kept and its output thrown away; once
the cluster is two releases behind, and for the frames its flush covers, by state-only steps, while its Skimmer goes on (R58,
R59, R307). -/
def lateState (c : Nat) (d : Dev) : Dev :=
  let x := d.clu c
  if !x.due.contains d.now then d
  else if x.flushAt = some d.now ∨ (d.frame.audio ∧ x.due.any (fun e => e == efAdd d.now (efWrap - 1) && x.flushAt != some e)) then
    forUpTo 16 (fun t d => skimOut (16 * c + t) (voiceState (16 * c + t) d.now d)) d
  else clusterFrame c false d

/-- A tile at release n: the cell runs through the EF that ended, whose ADC codes enter the Skimmer chain; then the DAC path
takes its input, the cell its codes, and a calibration its stimulus (R258, R264, R273, R288, R318). -/
def tileRelease (v n : Nat) (d : Dev) : Dev :=
  let p := cellRun v d
  calRelease v n (cellCodes v n (dacLatch v n (skimRelease v p.2 p.1)))

/-- The largest Skimmer outputs of the 1,024 EF window that ends (R315). DESIGN CHOICE (log 32), unsafe. -/
def peakRoll (v : Nat) (d : Dev) : Dev := d.modTile v (fun x => { x with peakLast := x.peak, peak := 0 })

/-- A cluster at release n: CLU_OSC_TUNE held to its range (R219), the calibration records taken at the first
release after a wake (R325), a synchronising reset when it becomes active (R303), the new frame in its queue
(R59), and its tiles; a cell under calibration is served even while the engine is off (R318).  An inactive cluster's cells take
their trims, and its probes show its last EF (R284, R315).  DEDUCED (log 34), unsafe. -/
def cluRelease (c n : Nat) (d : Dev) : Dev :=
  if !d.cluOn c then d.modClu c (fun x => { x with wasActive := false })
  else
    let act := d.active c && d.frame.audio
    let was := (d.clu c).wasActive
    let d := d.modClu c (fun x => { x with
      tune := clampInt (-12288) 12288 (signed 32 (d.reg (cluReg c Reg.CLU_OSC_TUNE)).toNat)
      fresh := false, wasActive := act
      due := if act then x.due.filter (fun e => x.flushAt != some e || decide (efAdd e 1 = n)) ++ [n] else x.due
      resets := if act && !x.wasActive && !x.resets.contains n then x.resets ++ [n] else x.resets })
    let d := if act then fadeStep c d else d
    forEach (cluSlots c) (fun v d =>
      let d := if act || underCal d v then tileRelease v n d
        else d.modTile v (fun y => { (if was then probeRoll y else y) with bias := biasOf d v y.kept })
      if n % 1024 = 0 then peakRoll v d else d) d

/-- The records that the slices of a cluster take at the first release after its wake (R325). -/
def takeRecords (c : Nat) (d : Dev) : Dev :=
  if d.cluOn c && (d.clu c).fresh then
    forEach (cluSlots c) (fun v d => d.modTile v (fun x => { x with kept := recordOf d v })) d
  else d

/-! ### EF_RELEASE (R41, R42) -/

/-- The audio side follows ENG_EN at each release: enabled outputs wait in HOLD_PARK when it runs again (R44, R60). -/
def audioLatch (d : Dev) : Dev :=
  let was := d.frame.audio
  let now := d.engEn
  let d := { d with frame := { d.frame with audio := now } }
  let d := if !was && now && decide (0 < d.frame.guardEf) then holdOutputs d.now d else d
  if now then { d with frame := { d.frame with guardEf := d.frame.guardEf + 1 } } else d

/-- The deferred note-ons that will wait through the present EF: those left once every one that can has armed
(R177). -/
def stillWaiting (d : Dev) : Nat :=
  let n := d.par.deferred.length
  if d.acceptNow then (armDeferred n d).par.deferred.length else n

/-- What the Parlour does at a release (R28, R177, R537). -/
def parlourRelease (d : Dev) : Dev :=
  let d := calAgainFree (chooseRelease (remoteRelease (headLatch (dirRelease (positionsLeave d)))))
  let d := { d with
    par := { d.par with armed := 0 } }
  countDefer (stillWaiting d) (lanesRelease d)

/-- The mix engine, the TDM unit and the output channels at a release that reaches the audio pipelines; the
output DACs present what stands on the way to their pins, and parked channels take their ranges and changed meters clear,
at every release (R42 to R44, R342, R346, R347, R350). -/
def mixSide (old : Nat → Word) (d : Dev) : Dev :=
  let d := { d with outs := (List.range d.outs.length).map (fun i =>
    pinRelease (if d.outOn i then (d.outCh i).takeRange (d.effFlag Reg.OUT_RANGE i) else d.outCh i)) }
  let d := d.modMix (fun m => { m with buses := clearWindows old d.eff m.buses })
  if !d.frame.audio then d
  else
    let d := if d.isOn Dom.mix then mixRelease d else d
    outsRelease (tdmRelease d)

/-- The EF's landing ends: what has not landed by now lands, and the words of the EF are forgotten (R413, R415). -/
def landEnd (d : Dev) : Dev :=
  let d := landDue d
  { d with port := { d.port with vwords := [], hwords := [] } }

/-- EF_RELEASE: the frame that ended is closed, after the last of its arbitration rounds and of its output measurements, the
EF counter rises, V_A is latched, and every unit takes its release (R41, R42, R139, R351). -/
def efReleaseDev (d : Dev) : Dev :=
  if !d.timerRuns then d
  else
    let d := forUpTo 32 outSense (landEnd (edgeRelease (frameEnd (arbitrate id id d.arbEnds))))
    let d := forUpTo 16 lateState d
    let d := { d with frame := { d.frame with
      ef := if d.frame.released then efAdd d.now 1 else d.now, released := true } }
    let d := windowEnd d
    let d := (audioLatch d).modMix (fun m => { m with va := at_ d.mgt.supplies 3 0 })
    let d := d.emit 1 1
    let d := if d.now % 4 = 0 then d.emit 2 1 else d
    let eff := d.eff
    let d := effRelease d
    let d := parlourRelease (chrRelease (almRelease d))
    let d := casRelease (mixSide eff d)
    forUpTo 16 (fun c d => cluRelease c d.now (takeRecords c d)) d

/-- EF_RELEASE (R41). -/
def execEfRelease (s : State) : Host.Outcome State Fault Refusal := devNext s efReleaseDev

/-! ### Delivery and flush (R42, R50, R58, R59) -/

/-- CLUSTER_FRAME_DELIVERED: the oldest frame released to the cluster is finished.  The frame of the present EF,
finished at least one REFCLK period before the next release, is delivered with its slack; an older one only
ends; a frame that a flush covers is not delivered, and stays in the queue for its count as late alone (R32, R59). -/
def clusterFrameDeliveredDev (c slack : Nat) (d : Dev) : Dev :=
  if !(decide (c < 16) && d.cluOn c && d.timerRuns) then d
  else
    match (d.clu c).due.find? (fun e => (d.clu c).flushAt != some e) with
    | none => d
    | some e =>
      let d1 := d.modClu c (fun x => { x with due := x.due.filter (· != e) })
      if e ≠ d.now then d1
      else if slack = 0 then d
      else countClean (clusterFrame c true (slackRecord c (min slack 63) d1))

/-- CLUSTER_FRAME_DELIVERED (R42). -/
def execClusterFrameDelivered (c slack : Nat) (s : State) : Host.Outcome State Fault Refusal :=
  devNext s (clusterFrameDeliveredDev c slack)

/-- CLUSTER_FLUSH: release k + 2 has found frame k unfinished.  The frames it covers count as late, the Skimmer
is reset at k + 2, and the held contribution begins its fade (R59, R303). DESIGN CHOICE (log 37), unsafe. -/
def clusterFlushDev (c : Nat) (d : Dev) : Dev :=
  let k := efAdd d.now (efWrap - 2)
  if !(decide (c < 16) && d.active c && d.timerRuns && (d.clu c).due.contains k && (d.clu c).flushAt != some k) then d
  else
    let fade := fadeFrom d c
    let d := resetAt c d.now (deadlineMissDev c d)
    let d := d.modClu c (fun x => { x with due := [d.now], flushAt := some d.now, fadeAt := fade })
    d.logEv 0x03 0x03 2 [c, 0, 0, 0, k % 256, k / 256 % 256, k / 65536 % 256, k / 16777216 % 256]

/-- CLUSTER_FLUSH (R59). -/
def execClusterFlush (c : Nat) (s : State) : Host.Outcome State Fault Refusal := devNext s (clusterFlushDev c)

/-! ### The reference (R39, R40) -/

/-- REF_LOST: REF_VALID clears, the timer halts, every output parks with its pins, calibration runs abort, the
loss is counted and logged, and FAULT_N is asserted; a loss while CTRL is not ON only clears REF_VALID (R32,
R39, R66, R122, R318). -/
def refLostDev (d : Dev) : Dev :=
  if !d.frame.refValid then d
  else
    let d := { d with frame := { d.frame with refValid := false } }
    if !d.isOn Dom.ctrl then d
    else
      let d := (d.putFlag Reg.GLB_REF_STAT 1 true).bumpFld Reg.GLB_REF_STAT 15 8 1
      let d := syncAccepting (calAbortAll (fun _ => true) (parkOutputs true d))
      (d.logEv 0x03 0x01 3 []).setFault 0

/-- REF_LOST (R39). -/
def execRefLost (s : State) : Host.Outcome State Fault Refusal := devNext s refLostDev

/-- REF_VALID: after 65,536 edges without a gap the reference is valid: for CTRL's wake, or again after a loss,
when the timer resumes with Skimmer resets and HOLD_PARK at its first release (R40, R487). -/
def refValidDev (d : Dev) : Dev :=
  if d.frame.refValid then d
  else
    let v := { d with frame := { d.frame with refValid := true, refEver := true } }
    if d.isOn Dom.ctrl then syncAccepting (resumeSeq (efAdd d.now 1) (edgeResume v))
    else if (d.dom Dom.ctrl).phase = .waking then v
    else d

/-- REF_VALID (R40). -/
def execRefValid (s : State) : Host.Outcome State Fault Refusal := devNext s refValidDev

/-! ### Engine enable (R44, R65, R103, R122) -/

/-- ENG_EN set or cleared.  Set in HELD it moves the stage to RUN (R103); the pipelines follow at the next release,
every output parks at once when it is cleared, its pins 4 EF later, and the resume sequence follows when it is set again before that
release (R44, R349); the Almanac's ACCEPTING follows at once (R122). DESIGN CHOICE (log 17), unsafe.
DESIGN CHOICE (log 37), unsafe. -/
def engineSet (on : Bool) (d : Dev) : Dev :=
  let was := d.engEn
  let d := d.putFlag Reg.GLB_FRAME_CTL 0 on
  let d := if was && !on then parkOutputs false d else d
  let d := if !was && on && d.frame.audio then resumeSeq (efAdd d.now 1) d else d
  let d := if on && d.stage == Stage.held then d.setStage Stage.run else d
  syncAccepting d

/-- A write of GLB_FRAME_CTL: ENG_EN, and RATEFAM if the lock allows; a RATEFAM that the lock keeps and the write
would change sets VIOL (R12, R65). -/
def frameCtlWrite (lock : Bool) (v : Word) (d : Dev) : Dev :=
  let d := lockViol lock Reg.GLB_FRAME_CTL v d
  engineSet (v.getLsbD 0) (if lock then d else d.putFlag Reg.GLB_FRAME_CTL 1 (v.getLsbD 1))

/-- A write of GLB_FRAME_CTL as a whole: with ENG_EN set in HELD the stage reaches RUN (R103, R514).
DESIGN CHOICE (log 37), unsafe. -/
def frameCtlState (v : Word) (s : State) : State :=
  runReached s.dev.stage (s.onDev (frameCtlWrite s.prot.lock v))

/-- ENGINE_ENABLE: a write that sets ENG_EN (R44). -/
def engineEnableState (v : Word) (s : State) : State :=
  if v.getLsbD 0 && !s.dev.engEn then frameCtlState v s else s

/-- ENGINE_ENABLE (R44). -/
def execEngineEnable (value : Word) (s : State) : Host.Outcome State Fault Refusal := .next (s.asHost (engineEnableState value))

/-- ENGINE_DISABLE: a write that clears ENG_EN (R44). -/
def execEngineDisable (value : Word) (s : State) : Host.Outcome State Fault Refusal :=
  hostNext s (fun d => if !value.getLsbD 0 && d.engEn then frameCtlWrite s.prot.lock value d else d)

end Sys2Proof.Machine
end

