-- ==== Sys2Proof/Machine/Read.lean ====
section
/-! DEFINITION. What every register reads as: the stored registers, and the views of state that the read-only
fields give (R8, R10, R14, R22, and the field tables of every chapter). -/

namespace Sys2Proof.Machine

open Sys2Proof

/-- A flag as a bit's value. -/
def b2n (b : Bool) : Nat := if b then 1 else 0

/-- A register's value with a field shown from state. -/
def view (w : Word) (hi lo v : Nat) : Word := w.setBits hi lo v

/-! ### GLB (R11, R63 to R70, R109 to R114, R425) -/

/-- A GLB register. -/
def glbRead (s : State) (a : Nat) : Word :=
  let d := s.dev
  let f := d.frame
  let w := d.reg a
  if a = Reg.GLB_LOCK then view w 0 0 (b2n s.prot.lock)
  else if a = Reg.GLB_EF_LO then BitVec.ofNat 32 d.now
  else if a = Reg.GLB_EF_HI then BitVec.ofNat 32 (d.now / 2 ^ 32)
  else if a = Reg.GLB_REF_STAT then view (view w 0 0 (b2n f.refValid)) 2 2 (b2n d.timerRuns)
  else if a = Reg.GLB_VID then
    view (view (view w 3 0 (vidPins d)) 16 16 (b2n f.vid.settled)) 17 17 (b2n f.vid.fault)
  else if a = Reg.GLB_GUARD then BitVec.ofNat 32 (min f.clean 65536 * 256 + f.winLate * 16 + f.steps)
  else if 0x40 ≤ a ∧ a < 0x80 then
    let on := d.active ((a - 0x40) / 4)
    let w := view w 14 14 (b2n on)
    if on then w else view w 5 0 63
  else if a = Reg.GLB_BOOT_STAT then view w 7 7 (b2n (d.boot.streaming && !d.boot.streams.isEmpty))
  else if a = Reg.GLB_ROLLBACK then BitVec.ofNat 32 s.prot.floor
  else if a = Reg.GLB_IRQ_SUM then BitVec.ofNat 32 (irqSum d)
  else w

/-! ### PWR and the host responder (R426, R491 to R495) -/

/-- The code of a lasting state (R495). -/
def domCode : DomState → Nat
  | .on => 0
  | .ret => 1
  | .off => 2
  | .failed => 3

/-- PWR_DOMd.STATE (R495). -/
def domState (x : Domain) : Nat := if x.idle then domCode x.state else if x.wakes then 5 else 4

/-- PWR_DOMd (R495). -/
def domWord (x : Domain) : Word :=
  BitVec.ofNat 32 (x.failStep * 2 ^ 16 + x.attempts * 2 ^ 12 + x.reason * 2 ^ 8 + x.result * 2 ^ 4 + domState x)

/-- Requests not yet ended, one for each domain that has any: 0 to 29 (R491).  A request queued behind an entry is not
counted beside it: R491 does not say.  DESIGN CHOICE (log 24), unsafe. -/
def pendingRequests (d : Dev) : Nat := ((d.pwr.doms.drop 1).filter (fun x => !x.idle)).length

/-- DELAY_MAX of a domain in µs (R480). -/
def delayMax (n : Nat) : Nat :=
  if n = Dom.mgmt then 5000
  else if n = Dom.serial then 25000
  else if n = Dom.ctrl ∨ n = Dom.memc then 50
  else if 7 ≤ n ∧ n ≤ 10 then 185
  else if n = Dom.tdm then 23
  else if n = Dom.cas then 3
  else if 14 ≤ n then 2
  else 0

/-- AON_STATUS: while HOSTP is ENTERING it shows ON, and while WAKING the state the wake started from (R426, R495). -/
def aonStatus (d : Dev) : Word :=
  BitVec.ofNat 32 (0xA0 * 2 ^ 24 + d.stage * 2 ^ 12 + b2n d.frame.refValid * 2 ^ 11 + b2n (faultLow d) * 2 ^ 10 +
    domCode (if (d.dom Dom.hostp).wakes then (d.dom Dom.hostp).wokeFrom else (d.dom Dom.hostp).state) * 2 ^ 8 + b2n d.pwr.aonWakeBusy * 2 ^ 7 + d.pwr.aonWakeDom)

/-- A bit for each domain with a property. -/
def domBits (d : Dev) (f : Domain → Bool) : Nat :=
  (List.range 30).foldl (fun a n => a + b2n (f (d.dom n)) * 2 ^ n) 0

/-- A register of the PWR block or the host responder. -/
def pwrRead (d : Dev) (a : Nat) : Word :=
  let w := d.reg a
  if a = Reg.PWR_STAT then
    let n := pendingRequests d
    BitVec.ofNat 32 (n * 2 ^ 16 + (execDomain d).getD 0 * 2 ^ 8 + b2n (decide (0 < n)))
  else if a = Reg.PWR_PAD_STAT then BitVec.ofNat 32 (domBits d (fun x => x.latched))
  else if a = Reg.PWR_BIAS then BitVec.ofNat 32 (b2n d.pwr.wassist * 2 ^ 31 +
    (List.range 30).foldl (fun m n => m + b2n (coldBoosted d n) * 2 ^ n) 0)
  else if 0x1030 ≤ a ∧ a < 0x1040 then view w 4 4 (b2n (at_ d.pwr.dets ((a - 0x1030) / 4) ⟨false, 0⟩).disarmed)
  else if 0x1100 ≤ a ∧ a < 0x1180 then domWord (d.dom ((a - 0x1100) / 4))
  else if 0x1180 ≤ a ∧ a < 0x1200 then BitVec.ofNat 32 (delayMax ((a - 0x1180) / 4))
  else if a = Reg.AON_STATUS then aonStatus d
  else w

/-! ### SER, CHR and EVC (R397 to R402, R464 to R469) -/

/-- A SER register. -/
def serRead (d : Dev) (a : Nat) : Word :=
  let w := d.reg a
  let n := (a - 0x2100) / 0x40
  if a = Reg.SER_SYSEX then serSysex d
  else if a < 0x2100 then w
  else if a = Reg.SER_STAT n then serStat d n
  else if a = Reg.SER_RX n then serRxWord d n
  else if a = Reg.SER_IRQ_STAT n then w ||| serIrqLive d n
  else w

/-- A CHR register. -/
def chrRead (d : Dev) (a : Nat) : Word :=
  let c := (a - 0x3000) / 0x40
  if 0x3400 ≤ a then d.reg a
  else if a = Reg.CHR_COUNT c then BitVec.ofNat 32 (d.chr c).count
  else if a = Reg.CHR_CAP0 c then BitVec.ofNat 32 (at_ (d.chr c).cap 0 0)
  else if a = Reg.CHR_CAP1 c then BitVec.ofNat 32 (at_ (d.chr c).cap 1 0)
  else d.reg a

/-- The count of event counter n that reads return: while FREEZE = 1, the held one (R465). -/
def evcValue (d : Dev) (n : Nat) : Nat :=
  at_ (if d.flag Reg.EVC_GLB 3 then d.cnt.evcHeld else d.cnt.evc) n 0

/-- An EVC register. -/
def evcRead (d : Dev) (a : Nat) : Word :=
  let n := (a - 0x4100) / 0x10
  if a = Reg.EVC_GLB then view (d.reg a) 0 0 (b2n d.cnt.run)
  else if a < 0x4100 then d.reg a
  else if a = Reg.EVC_LO n then BitVec.ofNat 32 (evcValue d n)
  else if a = Reg.EVC_HI n then BitVec.ofNat 32 (evcValue d n / 2 ^ 32)
  else d.reg a

/-! ### MGT (R509, R518, R520 to R525) -/

/-- MGT_STAT (R521). -/
def mgtStat (d : Dev) : Word :=
  match d.mgt.session with
  | some x => BitVec.ofNat 32 (x.port * 2 ^ 8 + x.path * 2 ^ 6 + 2 ^ 5 + d.mgt.mode)
  | none => BitVec.ofNat 32 d.mgt.mode

/-- A MGT register. -/
def mgtRead (d : Dev) (a : Nat) : Word :=
  let w := d.reg a
  if a = Reg.MGT_STAT then mgtStat d
  else if a = Reg.MGT_FW_VERSION then BitVec.ofNat 32 d.mgt.fwVersion
  else if a = Reg.MGT_MB_CTL then BitVec.ofNat 32 (b2n d.mgt.busy * 2)
  else if a = Reg.MGT_LOG_STAT then BitVec.ofNat 32 (d.mgt.total % 2 ^ 20 * 2 ^ 12 + d.mgt.total % 4096)
  else if 0x50D0 ≤ a ∧ a < 0x50E0 then
    BitVec.ofNat 32 (leNat (d.mramBytes (logRing + 16 * d.fld Reg.MGT_LOG_SEL 11 0 + (a - 0x50D0)) 4))
  else if 0x5100 ≤ a ∧ a < 0x5144 then BitVec.ofNat 32 (at_ d.mgt.temps ((a - 0x5100) / 4) 0)
  else if 0x5180 ≤ a ∧ a < 0x5198 then BitVec.ofNat 32 (at_ d.mgt.supplies ((a - 0x5180) / 4) 0)
  else if a = Reg.MGT_FAULT then faultBits d
  else w

/-! ### CAS and MEM (R445, R545, R546) -/

/-- A CAS register. -/
def casRead (d : Dev) (a : Nat) : Word :=
  if a = Reg.CAS_STAT then casStat d
  else if a = Reg.CAS_POOL then casPool d
  else if a = Reg.CAS_OCCUPANCY then casOccupancy d
  else if a = Reg.CAS_PRESENT then casPresent d
  else d.reg a

/-- A MEM register. -/
def memRead (d : Dev) (a : Nat) : Word :=
  let c := (a - 0x7100) / 0x20
  let m := d.mover c
  if a = Reg.MEM_DRAM_STAT then BitVec.ofNat 32 (b2n d.mem.dramReady * 2 ^ 31 + 2 ^ 29)
  else if a = Reg.MEM_PAT_STAT then
    BitVec.ofNat 32 (d.mem.patrol.bank * 2 ^ 24 + d.mem.patrol.laps % 4096 * 2 ^ 12 + d.mem.patrol.region)
  else if a < 0x7100 then d.reg a
  else if a = Reg.MEM_MV_STAT c then BitVec.ofNat 32 (moverCode m.state * 2 ^ 29 + m.reason * 2 ^ 24)
  else if a = Reg.MEM_MV_CRC c then m.crc
  else if a = Reg.MEM_MV_POS c then BitVec.ofNat 32 m.pos
  else d.reg a

/-! ### ALM (R115, R132, R143 to R153) -/

/-- The code of a pool entry's state (R115). -/
def taskCode : TaskState → Nat
  | .waiting => 1
  | .ready => 2
  | .slotted => 3
  | .active => 4
  | .done => 5

/-- NEXT of an entry: the next on its ephemeris or ready list, FFFFh at the end and in every other state (R115). -/
def taskNext (d : Dev) (t : Task) : Nat :=
  let after (lt : Task → Task → Bool) : Nat :=
    match firstBy lt (d.alm.pool.filter (fun x => x.state == t.state && x.pri == t.pri && lt t x)) with
    | some x => x.idx
    | none => 0xFFFF
  match t.state with
  | .waiting => after ephLt
  | .ready => after readyLt
  | _ => 0xFFFF

/-- The 32 bytes of an entry as host software sees it (R115). -/
def taskBytes (d : Dev) (t : Task) : List Byte :=
  leBytes 1 t.typ ++ leBytes 1 t.flags ++ leBytes 1 t.flow ++ leBytes 1 (taskCode t.state) ++ leBytes 2 t.tag ++
    leBytes 1 t.target ++ leBytes 1 t.origin ++ leBytes 4 t.relEf ++ leBytes 4 t.due ++ leBytes 2 t.seq ++
    leBytes 2 (taskNext d t) ++ t.payload

/-- Word n of the entry ALM_PEEK_IDX names; a FREE one reads zero (R115). -/
def peekWord (d : Dev) (n : Nat) : Word :=
  match d.task? (d.fld Reg.ALM_PEEK_IDX 12 0) with
  | some t => BitVec.ofNat 32 (wordAt (taskBytes d t) (4 * n))
  | none => 0

/-- An ALM register. -/
def almRead (d : Dev) (a : Nat) : Word :=
  let w := d.reg a
  if a = Reg.ALM_TICK_NOW then BitVec.ofNat 32 d.alm.tick
  else if a = Reg.ALM_STAT then
    BitVec.ofNat 32 (b2n d.alm.accepting * 2 ^ 31 + d.almFree * 2 ^ 16 + d.alm.relLast * 2 ^ 8)
  else if a = Reg.ALM_DONE then doneWord d
  else if a = Reg.ALM_DONE_STAT then view w 6 0 d.alm.done.length
  else if a = Reg.ALM_IRQ_STAT then almIrq d
  else if 0x80C0 ≤ a ∧ a < 0x80E0 then peekWord d ((a - 0x80C0) / 4)
  else if a = Reg.ALM_TGT0 then
    BitVec.ofNat 32 ((List.range 16).foldl (fun x c => x + min (d.slotted c) 2 * 4 ^ c) 0)
  else if a = Reg.ALM_TGT1 then BitVec.ofNat 32 (min (d.slotted tgtMgmt) 2 * 4 + min (d.slotted tgtParlour) 2)
  else if 0x8100 ≤ a ∧ a < 0x8280 then
    let n := (a - 0x8100) / 4
    BitVec.ofNat 32 (d.flowOut n * 2 ^ 16 + at_ d.alm.seqs n 0)
  else w

/-! ### ALC (R181 to R187, R254) -/

/-- Held voices among the device's own slots (R184, R537). -/
def ownHeld (d : Dev) : Nat := ((d.par.voices.take 256).filter Voice.held).length

/-- FREE slots of the device's own clusters that are ON (R184). -/
def ownFree (d : Dev) : Nat :=
  ((List.range 256).filter (fun v => (d.voice v).state == .free && d.cluOn (cluOf v))).length

/-- ALC_POOL: P and L as the last release left them; on a master, of the device's own slots (R183, R537).
DESIGN CHOICE (log 29), unsafe. -/
def alcPool (d : Dev) : Word :=
  BitVec.ofNat 32 ((d.par.own - headroomOf d d.par.own) * 2 ^ 16 + d.par.own)

/-- ALC_SLOT_STATEn (R187). -/
def slotStates (d : Dev) (n : Nat) : Word :=
  BitVec.ofNat 32 ((List.range 8).foldl (fun x i =>
    let v := 8 * n + i
    if d.cluOn (cluOf v) then x + (vcode (d.voice v).state + 8 * b2n (underCal d v)) * 16 ^ i else x) 0)

/-- An ALC register. -/
def alcRead (d : Dev) (a : Nat) : Word :=
  if a = Reg.ALC_POOL then alcPool d
  else if a = Reg.ALC_OCCUPANCY then BitVec.ofNat 32 (ownHeld d * 2 ^ 16 + ownFree d)
  else if a = Reg.ALC_DEFER then BitVec.ofNat 32 d.par.deferred.length
  else if 0xC080 ≤ a ∧ a < 0xC100 then
    let p := (a - 0xC080) / 4
    BitVec.ofNat 32 (at_ d.par.res p 0 * 2 ^ 16 + heldOf d p)
  else if 0xC100 ≤ a ∧ a < 0xC180 then slotStates d ((a - 0xC100) / 4)
  else if a = Reg.ALC_GLFO_STAT then glfoStat d
  else if 0xC240 ≤ a ∧ a < 0xC280 then BitVec.ofInt 32 (glfoValue d ((a - 0xC240) / 4) d.now)
  else d.reg a

/-! ### MIX, OUT, TDM and CAL (R335 to R341, R365 to R370) -/

/-- A MIX or OUT register; the bits of an output group that is not ON read 0 (R22). -/
def mixRead (d : Dev) (a : Nat) : Word :=
  let w := d.reg a
  if 0xD200 ≤ a ∧ a < 0xD300 then BitVec.ofNat 32 (at_ d.mix.buses ((a - 0xD200) / 4) Bus.reset).meter
  else if 0xD300 ≤ a ∧ a < 0xD400 then BitVec.ofNat 32 (at_ d.mix.buses ((a - 0xD300) / 4) Bus.reset).peak
  else if a = Reg.OUT_EN ∨ a = Reg.OUT_RANGE ∨ a = Reg.OUT_FAULT ∨ a = Reg.OUT_RETRY then w &&& groupMask d
  else if 0xD600 ≤ a ∧ a < 0xD680 then outStat d ((a - 0xD600) / 4)
  else if 0xD700 ≤ a ∧ a < 0xD800 ∧ a % 8 = 0 then view w 0 0 (b2n (d.outCh ((a - 0xD700) / 8)).player.busy)
  else w

/-- A TDM register. -/
def tdmRead (d : Dev) (a : Nat) : Word :=
  if 0xE020 ≤ a ∧ a < 0xE038 then tdmStat d ((a - 0xE020) / 4) else d.reg a

/-- A CAL register. -/
def calRead (d : Dev) (a : Nat) : Word :=
  if a = Reg.CAL_STAT then calStat d
  else if a = Reg.CAL_DET_RE then (detResult d).1
  else if a = Reg.CAL_DET_IM then (detResult d).2
  else d.reg a

/-! ### CLU (R218 to R221, R249 to R253, R278 to R284, R309 to R316) -/

/-- A register of cluster c. -/
def cluRead (d : Dev) (a : Nat) : Word :=
  let c := (a - 0x10000) / 0x1000
  let o := cluNorm a
  let w := d.reg a
  if o = Reg.CLU_WC_CTL then BitVec.ofNat 32 (b2n (!(d.clu c).inval.isEmpty) * 2)
  else if o = Reg.CLU_WC_STAT then wcStat d c
  else if o = Reg.CLU_MOD_PEEK then modPeek d c
  else if 0x10340 ≤ o ∧ o < 0x10380 then cellStat d (16 * c + (o - 0x10340) / 4)
  else if 0x10380 ≤ o ∧ o < 0x103C0 then view w 23 16 (d.tile (16 * c + (o - 0x10380) / 4)).bias
  else if o = Reg.CLU_SKM_BANK then skmBank d c
  else if o = Reg.CLU_SKM_STAT then skmStat d c
  else if o = Reg.CLU_SKM_PROBE then skmProbe d c
  else w

/-! ### WIN (R417, R427) -/

/-- Is an address the wave window's data port or one of its aliases (R427)? -/
def isWinData (a : Nat) : Bool := a == Reg.WIN_DATA || decide (0x20100 ≤ a ∧ a < 0x20200)

/-- A WIN register.  WIN_ADDR shows bits [26:0]: after the last word of wave DRAM it reads 0, and the window is at the
end (R420, R427). DEDUCED (log 20), safe. -/
def winRead (d : Dev) (a : Nat) : Word :=
  if a = Reg.WIN_STAT then
    view (view (view (d.reg a) 28 28 (b2n (!d.win.wr.isEmpty))) 14 8 d.win.wr.length) 6 0 d.win.rd.length
  else if isWinData a then (winPop d).1
  else if a = Reg.WIN_ADDR then view (d.reg a) 31 27 0
  else d.reg a

/-! ### The whole map -/

/-- What an address of the register map reads as: zero at a reserved address, and in a block whose domain is not
ON (R14, R22). -/
def regRead (s : State) (a : Nat) : Word :=
  let d := s.dev
  if (rowOf a).isNone || !d.isOn (blockDom a) then 0
  else if a < 0x1000 then glbRead s a
  else if a < 0x2000 then pwrRead d a
  else if a < 0x3000 then serRead d a
  else if a < 0x4000 then chrRead d a
  else if a < 0x5000 then evcRead d a
  else if a < 0x6000 then mgtRead d a
  else if a < 0x7000 then casRead d a
  else if a < 0x8000 then memRead d a
  else if a < 0xC000 then almRead d a
  else if a < 0xD000 then alcRead d a
  else if a < 0xE000 then mixRead d a
  else if a < 0xF000 then tdmRead d a
  else if a < 0x10000 then calRead d a
  else if a < 0x20000 then cluRead d a
  else winRead d a

/-- Base of the parameter store in the host map (R547). -/
def pstoreBase : Nat := 0x100000

/-- The word at a host byte address: a register, or a parameter store word read on port H (R403, R414, R416). -/
def busRead (s : State) (a : Nat) : Word :=
  if a < pstoreBase then regRead s a
  else if a < 0x200000 ∧ s.dev.isOn Dom.ctrl then s.dev.readH (a - pstoreBase)
  else 0

/-! ### Read side effects (R8, R10, R407) -/

/-- What a low-half read does beyond returning data: the RC fields clear, a FIFO or the window pops, a capture
is read, OVL clears (R8, R10, R142, R381, R281, R417, R456). -/
def readEffect (a : Nat) (d : Dev) : Dev :=
  if pstoreBase ≤ a ∨ !d.isOn (blockDom a) then d
  else if isWinData a then (winPop d).2
  else if a = Reg.ALM_DONE then almDoneReadDev d
  else if 0x2100 ≤ a ∧ a < 0x2200 ∧ a % 0x40 = 0x0C then serRxReadDev ((a - 0x2100) / 0x40) d
  else if 0x3000 ≤ a ∧ a < 0x3400 ∧ (a % 0x40 = 0x14 ∨ a % 0x40 = 0x18) then
    chrCapReadDev ((a - 0x3000) / 0x40) (if a % 0x40 = 0x14 then 0 else 1) d
  else if 0xD300 ≤ a ∧ a < 0xD400 then
    d.modMix (fun m => { m with buses := upd m.buses ((a - 0xD300) / 4) (fun b => { b with peak := 0 }) })
  else if 0x10340 ≤ cluNorm a ∧ cluNorm a < 0x10380 then d.putFlag a 8 false
  else
    match rowOf a with
    | some r => if r.rc = 0 then d else d.putReg a (d.reg a &&& ~~~r.rc)
    | none => d

end Sys2Proof.Machine
end

