-- ==== Sys2Proof/Machine/Reset.lean ====
section
/-! DEFINITION. Resets and the strap latch (R71 to R73, R99, R106, R114). -/

namespace Sys2Proof.Machine

open Sys2Proof

/-- A reset cause, by its bit of GLB_RESET_CAUSE (R114). -/
inductive Cause where
  | por | pin | soft | wdog | fallback
  deriving DecidableEq, Repr

/-- The bit of a cause (R114). -/
def Cause.bit : Cause → Nat
  | .por => 0
  | .pin => 1
  | .soft => 2
  | .wdog => 3
  | .fallback => 4

/-- Does a cause clear GLB_LOCK.LOCK: power-on reset, RESET_N, or the software reset that is equivalent to it (R12,
R72)? -/
def Cause.unlocks : Cause → Bool
  | .por => true
  | .pin => true
  | .soft => true
  | .wdog => false
  | .fallback => false

/-- The device after a reset: every register at its reset value but GLB_RESET_CAUSE, the wave DRAM's contents
lost; after a fallback reset ERR and SECT come from the marker (R71, R108, R114, R431).  The count of free
values goes on, and VDD_IO_H's window is chosen once per power-on reset (R501). -/
def resetDev (c : Cause) (marker : Option (Nat × Nat × Nat)) (d : Dev) : Dev :=
  let r := { Dev.reset with
    fresh := d.fresh
    mem := { Mems.reset with waveLoss := d.mem.waveLoss + 1 }
    mgt := { Mgmt.reset with
      wdogLog := decide (c = Cause.wdog), ioHigh := if c = Cause.por then none else d.mgt.ioHigh } }
  let cause := if c = Cause.por then 1 else (d.reg Reg.GLB_RESET_CAUSE).toNat ||| 2 ^ c.bit
  let r := r.putReg Reg.GLB_RESET_CAUSE (BitVec.ofNat 32 cause)
  match marker with
  | some (_, code, sect) => bootErr code sect r
  | none => r

/-- A reset (R71): the fuses and the flash stay, LOCK clears by power-on reset, RESET_N or its equivalent alone (R12),
and the fallback marker survives only a fallback reset. DEDUCED (log 16), unsafe. -/
def resetState (c : Cause) (s : State) : State :=
  let marker := if c = Cause.fallback then s.prot.marker else none
  { s with
    prot := { s.prot with
      lock := s.prot.lock && !c.unlocks, marker := marker
      markedBoth := s.prot.markedBoth && decide (c = Cause.fallback) }
    dev := resetDev c marker s.dev }

/-- POWER_ON_RESET (R71). -/
def execPowerOnReset (s : State) : Host.Outcome State Fault Refusal := .next (resetState .por s)

/-- A RESET_N pulse of a width in ns: from 1 µs it resets, below 100 ns never; between these, whether it does
is a free value (R72). DESIGN CHOICE (log 9), safe. -/
def resetPinState (widthNs : Nat) (s : State) : State :=
  if widthNs < 100 then s
  else if 1000 ≤ widthNs ∨ Config.free s.dev.fresh % 2 = 1 then
    resetState .pin (s.onDev (fun d => if widthNs < 1000 then d.draw else d))
  else s.onDev Dev.draw

/-- RESET_PIN (R72). -/
def execResetPin (widthNs : Nat) (s : State) : Host.Outcome State Fault Refusal := .next (resetPinState widthNs s)

/-- A write of GLB_RESET: 0000_A5C3h resets the device, any other value is ignored (R72). -/
def softwareResetState (v : Word) (s : State) : State :=
  if v = 0x0000A5C3 then resetState .soft s else s

/-- SOFTWARE_RESET (R72). -/
def execSoftwareReset (value : Word) (s : State) : Host.Outcome State Fault Refusal :=
  .next (if s.dev.isOn Dom.hostp then softwareResetState value s else s)

/-- WATCHDOG_RESET: the watchdog runs while the firmware runs (R498). -/
def watchdogResetState (s : State) : State :=
  if s.dev.isOn Dom.mgmt ∧ s.dev.mgt.mode = 2 then resetState .wdog s else s

/-- WATCHDOG_RESET (R498). -/
def execWatchdogReset (s : State) : Host.Outcome State Fault Refusal := .next (watchdogResetState s)

/-- FALLBACK_RESET: after a slot failed once its firmware ran, the device resets with the marker (R106). -/
def fallbackResetState (s : State) : State := if s.dev.boot.failed then resetState .fallback s else s

/-- FALLBACK_RESET (R106). -/
def execFallbackReset (s : State) : Host.Outcome State Fault Refusal := .next (fallbackResetState s)

/-! ### Strap latch (R73, R99) -/

/-- The straps latched, FAULT_N released, and step 3 begun: CTRL, MGMT, MEMC and HOSTP wake in that order
(R73, R99, R110). DESIGN CHOICE (log 14), unsafe. -/
def strapLatchDev (casPos : BitVec 3) (xtalSel : Bool) (bootSrc : BitVec 2) (d : Dev) : Dev :=
  let d := d.putReg Reg.GLB_STRAP
    (BitVec.ofNat 32 (casPos.toNat * 32 + (if xtalSel then 16 else 0) + bootSrc.toNat))
  forEach [Dom.ctrl, Dom.mgmt, Dom.memc, Dom.hostp] (wakeOne 0) (d.setStage Stage.domains)

/-- With no command waiting, the timed first steps of start-up pass: step 1 (AON) begins after reset, and step 2
(STRAPS) follows it, unless the test port holds the device in reset (R99, R111). DESIGN CHOICE (log 1), safe. -/
def startUpTick (s : State) : State :=
  if s.held then s
  else if s.dev.stage = 0 then s.onDev (fun d => d.setStage Stage.aon)
  else if s.dev.stage = Stage.aon then s.onDev (fun d => d.setStage Stage.straps)
  else s

/-- STRAP_LATCH at step 2, unless the test port holds the device in reset; a latch that comes before the ticks of steps
1 and 2 passes over them.  DESIGN CHOICE (log 1), safe. -/
def strapLatchState (casPos : BitVec 3) (xtalSel : Bool) (bootSrc : BitVec 2) (s : State) : State :=
  if s.dev.stage ≤ Stage.straps ∧ !s.held then s.onDev (strapLatchDev casPos xtalSel bootSrc) else s

/-- STRAP_LATCH (R73). -/
def execStrapLatch (casPos : BitVec 3) (xtalSel : Bool) (bootSrc : BitVec 2) (s : State) :
    Host.Outcome State Fault Refusal := .next (strapLatchState casPos xtalSel bootSrc s)

end Sys2Proof.Machine
end

