-- ==== Sys2Proof/Machine/Wake.lean ====
section
/-! DEFINITION. A domain's wake, from its power step to its report (R487, R497, R502). -/

namespace Sys2Proof.Machine

open Sys2Proof

/-- Does the stage say that the firmware has been started (R99, R111)? -/
def firmwareStage (d : Dev) : Bool :=
  decide (Stage.load ≤ d.stage ∧ d.stage ≤ Stage.held) || d.stage == Stage.noRef

/-- A SYSEX_DONE held while MGMT was OFF commits with no effect: its buffer was cleared (R497).
DESIGN CHOICE (log 27), unsafe. -/
def sysexVoid (d : Dev) : Dev :=
  forEach (d.alm.pool.filter (fun t => t.typ == Typ.sysexDone && t.state != .waiting)) (fun t d =>
    finishTask t 0 { d with ser := { d.ser with bufs := upd d.ser.bufs (pay16 t.payload 4) (fun _ => none) } }) d

/-- Step 7 for MGMT from OFF: the ROM reloads and verifies the FIRMWARE section of the slot in use.  Before a
boot's own load, and in NO_IMAGE and ROM_WAIT, the ROM alone runs (R99, R107, R487). -/
def mgmtReload (s : State) : Option (Nat × Nat) × State :=
  if !firmwareStage s.dev then (none, s.onDev (fun d => { d with mgt := { d.mgt with mode := 1 } }))
  else
    match firmwareSect s.dev.boot.sects with
    | none => (some (9, 0), s)
    | some x =>
      let e := firmwareErr s s.dev.slot x
      if e ≠ 0 then (some (e, x.index), s)
      else
        (none, s.onDev (fun d =>
          let d := loadCode (sectBody s d.slot x) d
          sysexVoid { d with mgt := { d.mgt with mode := 2 } }))

/-- Step 8: the domain reports ON, its request ends, and its pads are released if PAD_AUTO says so; a woken
MGMT shows the alarms that moved meanwhile, the Almanac of a woken CTRL accepts again where it may, and EN of a woken CAS sets
by AUTO_EN (R122, R481, R487, R502, R529). -/
def reportOn (n : Nat) (d : Dev) : Dev :=
  let d := d.modDom n (fun x => { x with state := .on, everOn := true })
  let d := settle n 1 0 d
  let d := if n = Dom.ctrl then syncAccepting d else d
  let d := if d.flag Reg.PWR_PAD_AUTO n then releasePads n d else d
  let d := if n = Dom.mgmt ∧ (d.reg Reg.MGT_ALARM_STAT).bits 2 0 ≠ 0 then d.mgtIrq 3 else d
  let d := if n = Dom.cas ∧ d.flag Reg.CAS_CTL 1 then linkOn (d.putFlag Reg.CAS_CTL 0 true) else d
  closeBatches d

/-- MGMT from RET goes on where it stood (R470, R487). -/
def mgmtResume (d : Dev) : Dev := { d with mgt := { d.mgt with mode := if firmwareStage d then 2 else 1 } }

/-- The wake of a domain whose turn it is: CTRL's waits for the reference (step 3); the save list is restored
and the units start (steps 4 to 6); MGMT's firmware is reloaded (step 7), and a failed check is a fallback
reset (R106). -/
def domainWakeState (n : Nat) (s : State) : State :=
  if (s.dev.dom n).phase ≠ .waking ∨ execDomain s.dev ≠ some n ∨ (n = Dom.ctrl ∧ !s.dev.frame.refValid) then s
  else
    let cold := (s.dev.dom n).cold
    let s := s.onDev (unitWake n cold)
    if n = Dom.mgmt ∧ cold then
      match mgmtReload s with
      | (none, s) => s.onDev (reportOn n)
      | (some (e, x), s) => resetState .fallback (failLate e x s)
    else if n = Dom.mgmt then s.onDev (fun d => reportOn n (mgmtResume d))
    else s.onDev (reportOn n)

/-- DOMAIN_WAKE (R487); the end of step 5's wakes may be what the streamed sections wait for (R99). -/
def execDomainWake (n : Nat) (s : State) : Host.Outcome State Fault Refusal := .next (streamFront (domainWakeState n s))

end Sys2Proof.Machine
end

