-- ==== Sys2Proof/Machine/HostPort.lean ====
section
/-! DEFINITION. A committed register write, and the host access port: half reads and writes, snapshots, the
holding register and the AON host responder (R8, R12, R64, R102, R403 to R411, R422 to R424, R465). -/

namespace Sys2Proof.Machine

open Sys2Proof

/-! ### GLB registers with an action of their own -/

/-- A write of GLB_LOCK: LOCK is set by a 1, VIOL cleared by a 1 (R11). -/
def lockWrite (v : Word) (s : State) : State :=
  let s := if v.getLsbD 1 then s.onDev (fun d => d.putFlag Reg.GLB_LOCK 1 false) else s
  if v.getLsbD 0 then { s with prot := { s.prot with lock := true } } else s

/-- LOCK: writing 1 to GLB_LOCK.LOCK (R12). -/
def lockState (v : Word) (s : State) : State := if v.getLsbD 0 then lockWrite v s else s

/-- LOCK (R12). -/
def execLock (value : Word) (s : State) : Host.Outcome State Fault Refusal := .next (s.asHost (lockState value))

/-- GLB_BOOT_CTL.CONTINUE in HELD sets ENG_EN and enters RUN; it is ignored at other stages (R103, R112). -/
def continueState (v : Word) (s : State) : State :=
  if v.getLsbD 0 ∧ s.dev.stage = Stage.held then runReached s.dev.stage (s.onDev (engineSet true)) else s

/-- CONTINUE (R112). -/
def execContinueBoot (value : Word) (s : State) : Host.Outcome State Fault Refusal := .next (s.asHost (continueState value))

/-- GLB_BOOT_CTL.RETRY in NO_IMAGE or ROM_WAIT clears the marker and restarts step 4 with the flash reset, as if
BOOT_SRC were 00b (R76, R107, R112). -/
def retryState (v : Word) (s : State) : State :=
  if v.getLsbD 1 ∧ (s.dev.stage = Stage.noImage ∨ s.dev.stage = Stage.romWait) then
    { s with
      prot := { s.prot with marker := none, markedBoth := false }
      dev := nvmResetIssue (s.dev.modBoot (fun b => { b with tried := [], asNvm := true })) }
  else s

/-- RETRY (R112). -/
def execRetry (value : Word) (s : State) : Host.Outcome State Fault Refusal := .next (s.asHost (retryState value))

/-! ### Register writes by access codes (R8, R12, R13) -/

/-- The same for a MIX, OUT or TDM register: its fields take the value, and its W1C bits clear, at release k + 2 (R342). -/
def frameWrite (a : Nat) (v : Word) (d : Dev) : Dev :=
  match rowOf a with
  | some r =>
    let d := if r.w1c ≠ 0 then mixClear a (v &&& r.w1c) d else d
    if r.w1c ≠ 0 ∧ r.rw = 0 then d else mixPut a (Word.merge (d.reg a) v r.rw) d
  | none => d

/-- A count field's value above its maximum: the register keeps its value, the block's ERR sets and the write is
counted (R18, R19). DEDUCED (log 39), unsafe. -/
def countReject (ctl : Nat) (d : Dev) : Dev := (d.putFlag ctl 31 true).cntRej

/-- GLB_VID written: MANUAL, MAN_CODE and FLOOR under the lock; a new code on the pins is an occurrence of VID_CHANGE
(R56, R67, R448). -/
def vidWrite (lock : Bool) (v : Word) (d : Dev) : Dev :=
  vidMoved (vidPins d) (vidManual (d.flag Reg.GLB_VID 8) (vidPins d) (codedWrite lock Reg.GLB_VID v d))

/-- The bytes of the staged mailbox request (R508). -/
def requestBytes (d : Dev) : List Byte := (List.range 16).flatMap (fun n => leBytes 4 (d.reg (Reg.MGT_MBI n)).toNat)

/-- MGT_MB_CTL.GO: the request is copied and BUSY sets; while BUSY it is ignored with MB_IGN (R509). -/
def mailboxGo (v : Word) (d : Dev) : Dev :=
  if !v.getLsbD 0 then d
  else if d.mgt.busy then d.mgtIrq 1
  else { d with mgt := { d.mgt with busy := true, request := requestBytes d, response := none } }

/-- A mover register written: descriptors of channels 2 and 3 and their control are the management firmware's alone;
a LENGTH above its maximum is rejected (R18, R436, R438). DESIGN CHOICE (log 21), unsafe. -/
def moverWrite (mgmt : Bool) (a : Nat) (v : Word) (d : Dev) : Dev :=
  let c := (a - 0x7100) / 0x20
  if 2 ≤ c ∧ !mgmt then d
  else if a = Reg.MEM_MV_CTL c then (if v.getLsbD 0 then moverGoDev c v d else moverAbortDev c v d)
  else if a = Reg.MEM_MV_DESC2 c ∧ 0x8000000 < v.bits 27 0 then (countReject Reg.MEM_CTL d).bump Reg.MEM_CNT_REJ
  else codedWrite false a v d

/-- An ALM register written (R138, R140, R141, R147). -/
def almWrite (a : Nat) (v : Word) (d : Dev) : Dev :=
  if a = Reg.ALM_CTL then flushDev v d
  else if a = Reg.ALM_RESV then
    if 8192 < v.bits 29 16 ∨ 8192 < v.bits 13 0 then countReject Reg.ALM_CTL d else codedWrite false a v d
  else if a = Reg.ALM_POST_GO then hostPostRow v d
  else if a = Reg.ALM_CANCEL then hostCancelDev v d
  else codedWrite false a v d

/-- A MIX or OUT register written (R342, R349 to R354, R366 to R369). DESIGN CHOICE (log 17), unsafe. -/
def mixWrite (a : Nat) (v : Word) (d : Dev) : Dev :=
  if a = Reg.OUT_EN ∨ a = Reg.OUT_RANGE ∨ a = Reg.OUT_RETRY then outBitsWrite a v d
  else if a = Reg.OUT_FAULT then outFaultClearDev v d
  else if 0xD500 ≤ a ∧ a < 0xD580 then frameWrite a (v.setBits 31 16 (min (v.bits 31 16) 0x8000)) d
  else if 0xD700 ≤ a ∧ a < 0xD800 then
    (if a % 8 = 0 then playCfgWrite ((a - 0xD700) / 8) v d else playLvlWrite ((a - 0xD704) / 8) v d)
  else frameWrite a v d

/-- A register of cluster c written (R217, R219, R283, R294, R298 to R303, R310). -/
def cluWrite (lock mgmt : Bool) (a : Nat) (v : Word) (d : Dev) : Dev :=
  let c := (a - 0x10000) / 0x1000
  let o := cluNorm a
  if o = Reg.CLU_OSC_TUNE then codedWrite lock a (BitVec.ofInt 32 (clampInt (-12288) 12288 v.toInt)) d
  else if o = Reg.CLU_WC_CTL then waveCacheInvalDev c v d
  else if 0x10380 ≤ o ∧ o < 0x103C0 then codedWrite lock a (if v.bits 7 0 = 0x80 then v.setBits 7 0 0x81 else v) d
  else if o = Reg.CLU_SKM_CTL then skmCtlWrite lock c v d
  else if o = Reg.CLU_SKM_BANK then swapAllDev c v (swapDev c v d)
  else if 0x10500 ≤ o ∧ o < 0x10580 then coefWrite mgmt c false ((o - 0x10500) / 4) v d
  else if 0x10580 ≤ o ∧ o < 0x10600 then coefWrite mgmt c true ((o - 0x10580) / 4) v d
  else codedWrite lock a v d

/-- A SER register written (R373, R376, R381). -/
def serialWrite (a : Nat) (v : Word) (d : Dev) : Dev :=
  let n := (a - 0x2100) / 0x40
  if a < 0x2100 then codedWrite false a v d
  else if a = Reg.SER_CTL n then serCtlWrite n v d
  else if a = Reg.SER_DIV n then divWriteDev n v d
  else if a = Reg.SER_TX n then serTxWriteDev n v d
  else codedWrite false a v d

/-- A WIN register written (R417 to R420). -/
def winWrite (a : Nat) (v : Word) (be : BitVec 4) (d : Dev) : Dev :=
  if a = Reg.WIN_CTL then winCtlWrite v d
  else if a = Reg.WIN_ADDR then winAddrWriteDev v d
  else if isWinData a then winDataWriteDev v be d
  else codedWrite false a v d

/-- Writes that act on the device alone, by block. -/
def devWrite (lock mgmt : Bool) (a : Nat) (v : Word) (be : BitVec 4) (d : Dev) : Dev :=
  if 0x40 ≤ a ∧ a < 0x80 then slackMinClearDev ((a - 0x40) / 4) v d
  else if a = Reg.GLB_VID then vidWrite lock v d
  else if a < 0x1000 then codedWrite lock a v d
  else if a < 0x2000 then
    (if a = Reg.PWR_REQ then powerBatchDev v d
     else if a = Reg.PWR_PAD_RELEASE then padReleaseDev v d
     else if a = Reg.AON_WAKE then aonWakeDev v d
     else codedWrite lock a v d)
  else if a < 0x3000 then serialWrite a v d
  else if a < 0x5000 then atEdge a v (chrWrite a v) d
  else if a < 0x6000 then
    (if a = Reg.MGT_MB_CTL then mailboxGo v d
     else if a = Reg.MGT_FAULT then mgtFaultClearDev v d
     else codedWrite lock a v d)
  else if a < 0x7000 then (if a = Reg.CAS_CTL then casCtlWrite v d else codedWrite lock a v d)
  else if a < 0x7100 then codedWrite lock a v d
  else if a < 0x8000 then moverWrite mgmt a v d
  else if a < 0xC000 then almWrite a v d
  else if a < 0xD000 then (if a = Reg.ALC_GLFO_RESTART then glfoRestartDev v d else codedWrite lock a v d)
  else if a < 0xE000 then mixWrite a v d
  else if a < 0xF000 then
    (if 0xE000 ≤ a ∧ a < 0xE018 then tdmCtlWrite ((a - 0xE000) / 4) v d else frameWrite a v d)
  else if a < 0x10000 then
    (if a = Reg.CAL_REQ then calReqDev v d
     else if a = Reg.CAL_CTL ∧ 16 < v.bits 4 0 then countReject Reg.CAL_CTL d
     else if a = Reg.CAL_CTL ∧ v.bits 15 8 = 0 then codedWrite lock a (v.setBits 15 8 1) d
     else codedWrite lock a v d)
  else if a < 0x20000 then cluWrite lock mgmt a v d
  else winWrite a v be d

/-- Does a host byte address name a register whose block's domain is ON (R14, R22)? DEDUCED (log 39), unsafe. -/
def regReaches (d : Dev) (a : Nat) : Bool := (rowOf a).isSome && d.isOn (blockDom a)

/-- A committed write to a register.  A reserved address, and a block whose domain is not ON, ignore it (R14, R22). -/
def regWrite (mgmt : Bool) (a : Nat) (v : Word) (be : BitVec 4) (s : State) : State :=
  if !regReaches s.dev a then s
  else if a = Reg.GLB_LOCK then lockWrite v s
  else if a = Reg.GLB_RESET then softwareResetState v s
  else if a = Reg.GLB_FRAME_CTL then frameCtlState v s
  else if a = Reg.GLB_BOOT_CTL then retryState v (continueState v s)
  else s.onDev (devWrite s.prot.lock mgmt a v be)

/-- Does the stage let host writes in, or is the address one that every stage lets in (R102, R524)? -/
def hostMayWrite (d : Dev) (a : Nat) : Bool :=
  stageOpen d || a == Reg.GLB_RESET || a == Reg.MGT_MB_CTL || a == Reg.MGT_UPD_CTL || decide (0x5040 ≤ a ∧ a < 0x5080)

/-- REGISTER_WRITE: a committed write of a register by the host, under R102's stages (R8, R102). -/
def execRegisterWrite (addr : Nat) (value : Word) (s : State) : Host.Outcome State Fault Refusal :=
  .next (if s.dev.isOn Dom.hostp && hostMayWrite s.dev addr then regWrite false addr value 15 s else s)

/-- PARAM_STORE_HOST_WRITE (R413). -/
def execParamStoreHostWrite (addr : Nat) (value : Word) (be : BitVec 4) (s : State) : Host.Outcome State Fault Refusal :=
  hostNext s (paramStoreHostWriteDev addr value be)

/-- WIN_DATA_READ: a host read of WIN_DATA pops one word; before HOSTP is ON the responder answers it, with no side
effect (R102, R417, R422). -/
def execWinDataRead (s : State) : Host.Outcome State Fault Refusal :=
  devNext s (fun d => if d.isOn Dom.hostp then readEffect Reg.WIN_DATA d else d)

/-! ### Half reads (R64, R408, R422, R465) -/

/-- Does a host byte address name a register or a store word of a domain that is ON, no reserved address (R14, R22,
R154)? -/
def busReaches (d : Dev) (a : Nat) : Bool :=
  if a < pstoreBase then regReaches d a
  else decide (a < 0x200000) && !psReserved (a - pstoreBase) && d.isOn Dom.ctrl

/-- The host port changed. -/
def Dev.modHp (d : Dev) (f : HostPort → HostPort) : Dev := { d with port := f d.port }

/-- HD after a read strobe. -/
def Dev.drive (d : Dev) (x : BitVec 16) : Dev := d.modHp (fun p => { p with hd := some x })

/-- The level of HD[15:0]: what the device drives in a read strobe, and high impedance outside one (R104, R403,
R404). -/
def hdPins (d : Dev) (strobe : Bool) : Option (BitVec 16) := if strobe then d.port.hd else none

/-- The snapshot that a low-half read of EVC_LOn keeps for event counter n. -/
def evcSnapOf (d : Dev) (n : Nat) : EvcSnap := (d.port.evc.find? (fun e => e.n == n)).getD ⟨n, none, none⟩

/-- The same replaced. -/
def putEvcSnap (x : EvcSnap) (d : Dev) : Dev :=
  d.modHp (fun p => { p with evc := x :: p.evc.filter (fun e => e.n != x.n) })

/-- Is an address EVC_LOn (place 4) or EVC_HIn (place 8)? -/
def isEvc (a place : Nat) : Bool := decide (0x4100 ≤ a ∧ a < 0x4300) && a % 0x10 == place

/-- The counter of an EVC address. -/
def evcIdx (a : Nat) : Nat := (a - 0x4100) / 0x10

/-- The word a low-half read returns: a snapshot of the EF counter's or an event counter's high part if one waits,
otherwise the live word (R64, R465). -/
def lowReadWord (s : State) (a : Nat) : Word :=
  let d := s.dev
  if !busReaches d a then busRead s a
  else if a = Reg.GLB_EF_HI then d.port.efHi.getD (busRead s a)
  else if isEvc a 8 && !d.flag Reg.EVC_GLB 3 then (evcSnapOf d (evcIdx a)).hi.getD (busRead s a)
  else busRead s a

/-- The longer snapshots a low-half read takes or uses up (R64, R465). -/
def longSnaps (s : State) (a : Nat) (d : Dev) : Dev :=
  if a = Reg.GLB_EF_LO then
    d.modHp (fun p => { p with
      efLoHigh := some (Word.highHalf (regRead s a)), efHi := some (regRead s Reg.GLB_EF_HI) })
  else if a = Reg.GLB_EF_HI then d.modHp (fun p => { p with efHi := none })
  else if d.flag Reg.EVC_GLB 3 then d
  else if isEvc a 4 then
    putEvcSnap ⟨evcIdx a, some (Word.highHalf (regRead s a)), some (regRead s (a + 4))⟩ d
  else if isEvc a 8 then putEvcSnap { evcSnapOf d (evcIdx a) with hi := none } d
  else d

/-- A low-half read with HOSTP ON: HD carries bits [15:0], the high half goes to the snapshot with its tag, and the
read's side effect is applied; a reserved address has neither (R7, R10, R14, R407, R408). DEDUCED (log 39), unsafe. -/
def lowRead (a : Nat) (s : State) : State :=
  let w := lowReadWord s a
  if !busReaches s.dev a then s.onDev (fun d => d.drive (Word.lowHalf w))
  else
    s.onDev (fun d =>
      let d := longSnaps s a ((d.drive (Word.lowHalf w)).modHp (fun p => { p with snap := some (a, Word.highHalf w) }))
      readEffect a d)

/-- Has AON completed start-up step 1, so that the port drives HD and takes writes (R99, R404)?  A reset, and a test
instruction that holds the device in it, put the stage back to 0. -/
def aonAnswers (d : Dev) : Bool := decide (Stage.straps ≤ d.stage)

/-- The AON host responder's answer to any read: the half of AON_STATUS, no snapshot, no side effect; before AON has
completed step 1, HD stays at high impedance (R404, R422). -/
def responderRead (ha : Nat) (d : Dev) : Dev :=
  if aonAnswers d then d.drive (if ha % 2 = 0 then Word.lowHalf (aonStatus d) else Word.highHalf (aonStatus d))
  else d.modHp (fun p => { p with hd := none })

/-- HOST_LOW_HALF_READ of an even word address; while HOSTP is not ON the responder answers (R408, R422). -/
def hostLowHalfReadState (ha : Nat) (s : State) : State :=
  if !s.dev.isOn Dom.hostp then s.onDev (responderRead ha)
  else if ha % 2 = 0 then lowRead (2 * ha) s
  else s

/-- HOST_LOW_HALF_READ (R408). -/
def execHostLowHalfRead (ha : Nat) (s : State) : Host.Outcome State Fault Refusal := .next (hostLowHalfReadState ha s)

/-- The high half a high-half read returns, and the device after it: a longer snapshot, the snapshot if its tag
matches, otherwise the live high half with no side effect (R10, R64, R408, R465).  R408 would give the snapshot of a
register whose domain has left ON since its low-half read, and R22 zero: the model follows R22, and the tag stays.
DESIGN CHOICE (log 42), unsafe. -/
def highRead (s : State) (a : Nat) : BitVec 16 × Dev :=
  let d := s.dev
  if !busReaches d a then (0, d) else
  let tagged : Option (BitVec 16) := match d.port.snap with
    | some (t, x) => if t = a then some x else none
    | none => none
  let d1 := if tagged.isSome then d.modHp (fun p => { p with snap := none }) else d
  if a = Reg.GLB_EF_LO ∧ d.port.efLoHigh.isSome then
    (d.port.efLoHigh.getD 0, d1.modHp (fun p => { p with efLoHigh := none }))
  else if isEvc a 4 ∧ !d.flag Reg.EVC_GLB 3 ∧ (evcSnapOf d (evcIdx a)).loHigh.isSome then
    ((evcSnapOf d (evcIdx a)).loHigh.getD 0, putEvcSnap { evcSnapOf d (evcIdx a) with loHigh := none } d1)
  else
    match tagged with
    | some x => (x, d1)
    | none => (Word.highHalf (lowReadWord s a), longSnaps s (if a = Reg.GLB_EF_HI ∨ isEvc a 8 then a else 0) d1)

/-- HOST_HIGH_HALF_READ of an odd word address (R408). -/
def hostHighHalfReadState (ha : Nat) (s : State) : State :=
  if !s.dev.isOn Dom.hostp then s.onDev (responderRead ha)
  else if ha % 2 = 1 then
    let r := highRead s (2 * (ha - 1))
    { s with dev := r.2.drive r.1 }
  else s

/-- HOST_HIGH_HALF_READ (R408). -/
def execHostHighHalfRead (ha : Nat) (s : State) : Host.Outcome State Fault Refusal := .next (hostHighHalfReadState ha s)

/-- AON_RESPONDER_READ: a read at any address while HOSTP is not ON (R422). -/
def execAonResponderRead (ha : Nat) (s : State) : Host.Outcome State Fault Refusal :=
  devNext s (fun d => if d.isOn Dom.hostp then d else responderRead ha d)

/-! ### Half writes (R102, R409, R410, R411, R423) -/

/-- GLB_HP_STAT.ORPHAN (R409). -/
def orphan (d : Dev) : Dev := d.putFlag Reg.GLB_HP_STAT 0 true

/-- A low-half write: the holding register takes it; one held for another address is discarded (R409). -/
def lowWrite (a : Nat) (x : BitVec 16) (be : BitVec 2) (d : Dev) : Dev :=
  let d := match d.port.hold with
    | some h => if h.addr = a then d else orphan d
    | none => d
  d.modHp (fun p => { p with hold := some ⟨a, x, be⟩ })

/-- A half held by the responder is discarded, with ORPHAN, by a write to another address (R409, R423). -/
def responderDrop (d : Dev) : Dev :=
  if d.port.aonHold.isSome then orphan (d.modHp (fun p => { p with aonHold := none })) else d

/-- A low half written to the responder: its own holding register takes one of AON_WAKE; every other write is dropped,
and with it a half that is held (R409, R422, R423).  A write to another address with nothing held sets no ORPHAN.
DEDUCED (log 42), unsafe. -/
def responderLowWrite (a : Nat) (x : BitVec 16) (be : BitVec 2) (d : Dev) : Dev :=
  if !aonAnswers d then d
  else if a = Reg.AON_WAKE then d.modHp (fun p => { p with aonHold := some ⟨a, x, be⟩ })
  else responderDrop d

/-- HOST_LOW_HALF_WRITE; `be` has a 1 for each byte enabled (R409).  In the stages before RUN, where R102 ignores the
write, its halves still load the holding register and set ORPHAN, and the commit alone is ignored: R102 does not say.
DESIGN CHOICE (log 42), unsafe. -/
def hostLowHalfWriteDev (ha : Nat) (x : BitVec 16) (be : BitVec 2) (d : Dev) : Dev :=
  if ha % 2 = 1 then d
  else if d.isOn Dom.hostp then lowWrite (2 * ha) x be d
  else responderLowWrite (2 * ha) x be d

/-- HOST_LOW_HALF_WRITE (R409). -/
def execHostLowHalfWrite (ha : Nat) (data : BitVec 16) (be : BitVec 2) (s : State) : Host.Outcome State Fault Refusal :=
  devNext s (hostLowHalfWriteDev ha data be)

/-- A half that was written with exactly one byte enable (R410). -/
def halfPartial (be : BitVec 2) : Bool := be == 1 || be == 2

/-- The commit of a host write: to the store with the enabled bytes, to a register whole; a register write with a
half of one byte is ignored and sets PARTIAL, but a word for the wave window keeps its enables (R102, R410, R411,
R418). -/
def hostCommit (a : Nat) (v : Word) (beLo beHi : BitVec 2) (s : State) : State :=
  if !hostMayWrite s.dev a then s
  else if pstoreBase ≤ a then s.onDev (paramStoreHostWriteDev (a - pstoreBase) v (beHi ++ beLo))
  else if !regReaches s.dev a then s
  else if !isWinData a ∧ (halfPartial beLo ∨ halfPartial beHi) then
    s.onDev (fun d => d.putFlag Reg.GLB_HP_STAT 1 true)
  else regWrite false a v (beHi ++ beLo) s

/-- A high-half write: to the tagged address it commits the word; to another it is ignored and what is held is
discarded; with nothing held it is ignored (R409). -/
def highWrite (a : Nat) (x : BitVec 16) (be : BitVec 2) (s : State) : State :=
  match s.dev.port.hold with
  | none => s.onDev orphan
  | some h =>
    let s := s.onDev (fun d => d.modHp (fun p => { p with hold := none }))
    if h.addr = a then hostCommit a (Word.ofHalves h.data x) h.be be s else s.onDev orphan

/-- A high-half write to the responder: a held AON_WAKE is committed, unless a half came with exactly one byte enable;
with none held it sets ORPHAN, and every other write is dropped (R409, R410, R422, R423). DEDUCED (log 42), unsafe. -/
def responderHighWrite (a : Nat) (x : BitVec 16) (be : BitVec 2) (d : Dev) : Dev :=
  if !aonAnswers d then d
  else if a ≠ Reg.AON_WAKE then responderDrop d
  else
    match d.port.aonHold with
    | some h =>
      let d := d.modHp (fun p => { p with aonHold := none })
      if halfPartial h.be ∨ halfPartial be then d.putFlag Reg.GLB_HP_STAT 1 true
      else aonWakeDev (Word.ofHalves h.data x) d
    | none => orphan d

/-- HOST_HIGH_HALF_WRITE (R409). -/
def hostHighHalfWriteState (ha : Nat) (x : BitVec 16) (be : BitVec 2) (s : State) : State :=
  if ha % 2 = 0 then s
  else if s.dev.isOn Dom.hostp then highWrite (2 * (ha - 1)) x be s
  else s.onDev (responderHighWrite (2 * (ha - 1)) x be)

/-- HOST_HIGH_HALF_WRITE (R409). -/
def execHostHighHalfWrite (ha : Nat) (data : BitVec 16) (be : BitVec 2) (s : State) : Host.Outcome State Fault Refusal :=
  .next (hostHighHalfWriteState ha data be s)

end Sys2Proof.Machine
end

