-- ==== Sys2Proof/Machine/BootRun.lean ====
section
/-! DEFINITION. Start-up from the firmware's start to RUN: section loading, register initialisation lists,
foreground calibration and the engine stage (R78, R90, R96 to R101, R103, R327, R330, R514). -/

namespace Sys2Proof.Machine

open Sys2Proof

/-! ### Register lists (R96 to R98) -/

/-- The running list fails, and the slot with it (R98, R106). -/
def listFails (s : State) : State :=
  match s.dev.boot.lists with
  | (x, _) :: _ => failLate 0x0A x s
  | [] => s

/-- An entry that comes to the front with an unknown OP fails its list (R98). -/
def listFront (s : State) : State :=
  match s.dev.boot.lists with
  | (_, e :: _) :: _ => if 1 ≤ e.op ∧ e.op ≤ 6 then s else listFails s
  | _ => s

/-- The lists without their front entry. DESIGN CHOICE (log 35), unsafe. -/
def listsRest : List (Nat × List RegEntry) → List (Nat × List RegEntry)
  | (x, _ :: e :: es) :: r => (x, e :: es) :: r
  | _ :: r => r
  | [] => []

/-- The front entry is complete, and the next one comes to the front (R98). -/
def listNext (s : State) : State :=
  streamFront (listFront (s.onDev (fun d => d.modBoot (fun b => { b with
    lists := listsRest b.lists, polling := false, delaying := false }))))

/-- Do the lists run: the firmware is at step 5 or 7, the wakes of step 5 have ended, and no DELAY waits (R98 to R100)? -/
def listsRun (d : Dev) : Bool :=
  (d.stage == Stage.load || d.stage == Stage.engine) && d.isOn Dom.mgmt && !anyWaking d && !d.boot.delaying

/-- Is this the entry whose turn it is?  WRITE, SET and CLEAR have no ARG (R97). -/
def entryIs (d : Dev) (op : Nat) (arg : Option Nat) (addr : Nat) (value : Word) : Bool :=
  match d.boot.lists with
  | (_, e :: _) :: _ =>
    listsRun d && e.op == op && (arg.isNone || arg == some e.arg) && e.addr == addr && e.value == value
  | _ => false

/-- Do n registers or store words from ADDR lie in a range that lists may reach (R98)? -/
def listRange (a n : Nat) : Bool :=
  decide (a + 4 * n ≤ 0x20000) || decide (pstoreBase ≤ a ∧ a + 4 * n ≤ 0x200000)

/-- A management write on port H: a register, or a store word posted to the H write queue, where it may have to wait
for room (R12, R14, R22, R98, R413).  An entry whose ADDR is no multiple of 4 fails no list: a register write there is
ignored, as at a reserved address, and a store address is rounded down to its word: R98 does not say.  DESIGN CHOICE
(log 43), unsafe. -/
def mgmtWrite (a : Nat) (v : Word) (s : State) : Option State :=
  if a < pstoreBase then some (regWrite true a v 15 s)
  else if s.dev.isOn Dom.ctrl then (mgmtPostH ((a - pstoreBase) / 4 * 4) v 15 s.dev).map (fun d => { s with dev := d })
  else some s

/-- A management read on port H: its word, and the read's side effect (R8, R97). -/
def mgmtRead (a : Nat) (s : State) : Word × State := (busRead s a, s.onDev (readEffect a))

/-- One word written by the front entry; with no room in the queue it waits. DESIGN CHOICE (log 35), unsafe. -/
def listWrite (a : Nat) (v : Word) (s : State) : State :=
  match mgmtWrite a v s with
  | some t => listNext t
  | none => s

/-- REGINIT_WRITE (R97). -/
def reginitWriteState (addr : Nat) (value : Word) (s : State) : State :=
  if !entryIs s.dev 1 none addr value then s
  else if listRange addr 1 then listWrite addr value s else listFails s

/-- REGINIT_WRITE (R97). -/
def execReginitWrite (addr : Nat) (value : Word) (s : State) : Host.Outcome State Fault Refusal :=
  .next (reginitWriteState addr value s)

/-- REGINIT_SET (R97). -/
def reginitSetState (addr : Nat) (value : Word) (s : State) : State :=
  if !entryIs s.dev 2 none addr value then s
  else if listRange addr 1 then
    let r := mgmtRead addr s
    listWrite addr (r.1 ||| value) r.2
  else listFails s

/-- REGINIT_SET (R97). -/
def execReginitSet (addr : Nat) (value : Word) (s : State) : Host.Outcome State Fault Refusal :=
  .next (reginitSetState addr value s)

/-- REGINIT_CLEAR (R97). -/
def reginitClearState (addr : Nat) (value : Word) (s : State) : State :=
  if !entryIs s.dev 3 none addr value then s
  else if listRange addr 1 then
    let r := mgmtRead addr s
    listWrite addr (r.1 &&& ~~~value) r.2
  else listFails s

/-- REGINIT_CLEAR (R97). -/
def execReginitClear (addr : Nat) (value : Word) (s : State) : Host.Outcome State Fault Refusal :=
  .next (reginitClearState addr value s)

/-- REGINIT_POLL: one read of a POLL entry; the entry ends once a bit of VALUE reads 1 (R97). -/
def reginitPollState (arg addr : Nat) (value : Word) (s : State) : State :=
  if !entryIs s.dev 4 (some arg) addr value then s
  else if listRange addr 1 then
    let r := mgmtRead addr s
    if r.1 &&& value ≠ 0 then listNext r.2 else r.2.onDev (fun d => d.modBoot (fun b => { b with polling := true }))
  else listFails s

/-- REGINIT_POLL (R97). -/
def execReginitPoll (arg addr : Nat) (value : Word) (s : State) : Host.Outcome State Fault Refusal :=
  .next (reginitPollState arg addr value s)

/-- REGINIT_POLL_TIMEOUT: ARG × 10 µs have passed without the bit (R97, R98). -/
def reginitPollTimeoutState (s : State) : State := if s.dev.boot.polling then listFails s else s

/-- REGINIT_POLL_TIMEOUT (R97). -/
def execReginitPollTimeout (s : State) : Host.Outcome State Fault Refusal := .next (reginitPollTimeoutState s)

/-- REGINIT_DELAY: ARG = 0 does not wait (R97).  The entry's ADDR and VALUE are unused, and an ADDR outside R98's ranges
does not fail the list: R98 does not say.  DESIGN CHOICE (log 43), unsafe. -/
def reginitDelayState (arg : Nat) (s : State) : State :=
  match s.dev.boot.lists with
  | (_, e :: _) :: _ =>
    if !(listsRun s.dev && e.op == 5 && e.arg == arg) then s
    else if arg = 0 then listNext s
    else s.onDev (fun d => d.modBoot (fun b => { b with delaying := true }))
  | _ => s

/-- REGINIT_DELAY (R97). -/
def execReginitDelay (arg : Nat) (s : State) : Host.Outcome State Fault Refusal := .next (reginitDelayState arg s)

/-- REGINIT_DELAY_END (R97). -/
def reginitDelayEndState (s : State) : State := if s.dev.boot.delaying then listNext s else s

/-- REGINIT_DELAY_END (R97). -/
def execReginitDelayEnd (s : State) : Host.Outcome State Fault Refusal := .next (reginitDelayEndState s)

/-- A run of words written; the answer counts those that find no room yet.  A write that resets the device ends it.
DESIGN CHOICE (log 35), unsafe. -/
def listFill (v : Word) : Nat → Nat → State → State × Nat
  | 0, _, s => (s, 0)
  | n + 1, a, s =>
    if s.dev.stage < Stage.load then (s, 0)
    else match mgmtWrite a v s with
      | some t => listFill v n (a + 4) t
      | none => (s, n + 1)

/-- The front entry replaced by what is left of it. -/
def listLeft (arg addr : Nat) (d : Dev) : Dev :=
  d.modBoot (fun b => { b with
    lists := match b.lists with
      | (x, e :: es) :: r => (x, { e with arg := arg, addr := addr } :: es) :: r
      | l => l })

/-- REGINIT_FILL: ARG words from ADDR.  Words of the store that find no room in the H write queue stay as an entry of
their own, which a further REGINIT_FILL goes on with (R97, R98, R413). -/
def reginitFillState (arg addr : Nat) (value : Word) (s : State) : State :=
  if !entryIs s.dev 6 (some arg) addr value then s
  else
    let n := countOf arg 1024
    if 1024 < n ∨ !listRange addr n then listFails s
    else
      let r := listFill value n addr s
      if r.2 = 0 then listNext r.1 else r.1.onDev (listLeft r.2 (addr + 4 * (n - r.2)))

/-- REGINIT_FILL (R97). -/
def execReginitFill (arg addr : Nat) (value : Word) (s : State) : Host.Outcome State Fault Refusal :=
  .next (reginitFillState arg addr value s)

/-! ### FIRMWARE_START (R78, R89 to R91, R100, R105) -/

/-- The domains woken at step 5: those of WAKE_MASK, CAL and every cluster (R100). DESIGN CHOICE (log 35), unsafe. -/
def bootWakes (d : Dev) : Dev :=
  forEach ((List.range 30).filter (fun n => 0 < n && (d.boot.wakeMask.testBit n || decide (Dom.cal ≤ n)))) (requestWake 0) d

/-- The firmware runs: its code is loaded, and the rest of step 5 is its own.  With CTRL FAILED it stops at NO_REF
and loads nothing else (R78, R90, R100). -/
def firmwareRuns (x : Sect) (s : State) : State :=
  let b := sectBody s s.dev.slot x
  let s := s.onDev (fun d =>
    let d := loadCode b d
    { d with mgt := { d.mgt with mode := 2, fwVersion := bodyNat b 4 4, secVersion := bodyNat b 8 4 } })
  if (s.dev.dom Dom.ctrl).state = .failed then s.onDev (fun d => (d.setStage Stage.noRef).setFault 3)
  else
    let s := s.onDev (fun d => bootWakes (d.setStage Stage.load))
    streamFront (listFront (forEach s.dev.boot.sects loadSect s))

/-- FIRMWARE_START: the accepted slot's firmware is checked and started, or the slot fails in place and the other is
tried (R90, R105). -/
def firmwareStartState (s : State) : State :=
  if !(s.dev.stage == Stage.rom && !s.dev.boot.nvmWait && s.dev.isOn Dom.mgmt) then s
  else
    match firmwareSect s.dev.boot.sects with
    | none => s
    | some x =>
      let e := firmwareErr s s.dev.slot x
      if e ≠ 0 then trySlots (failInPlace s.dev.slot e x.index s) else firmwareRuns x s

/-- FIRMWARE_START (R90). -/
def execFirmwareStart (s : State) : Host.Outcome State Fault Refusal := .next (firmwareStartState s)

/-! ### Foreground calibration (R95, R100, R101, R327, R330) -/

/-- May foreground calibration start: every parameter section and phase 00h list is done, and the wakes of step 5
have ended (R101)?  One that a lost reference aborted may start again. -/
def foregroundReady (d : Dev) : Bool :=
  (d.stage == Stage.load || d.stage == Stage.cal) && !d.boot.failed && d.boot.lists.isEmpty && !d.boot.delaying &&
    !d.boot.calDone && d.cal.runs.isEmpty && d.isOn Dom.mgmt && d.isOn Dom.cal && d.timerRuns && !anyWaking d

/-- A foreground run of one cell (R327). -/
def foregroundOne (v : Nat) (d : Dev) : Dev :=
  if d.cluOn (cluOf v) then (d.modCal (fun x => { x with runs := x.runs ++ [runStart d v false] })).draw else d

/-- FOREGROUND_CALIBRATION_START: every cell of the clusters that are ON (R327). -/
def foregroundCalibrationStartDev (d : Dev) : Dev :=
  if foregroundReady d then
    forUpTo 256 foregroundOne ((d.setStage Stage.cal).modCal (fun x => { x with fgBusy := true }))
  else d

/-- FOREGROUND_CALIBRATION_START (R327). -/
def execForegroundCalibrationStart (s : State) : Host.Outcome State Fault Refusal := devNext s foregroundCalibrationStartDev

/-- The first failed step of any cell, 0 for none (R340). -/
def firstFailed (l : List CalRun) : Nat :=
  ((List.range 6).find? (fun k => k != 0 && l.any (fun r => r.failStep == k))).getD 0

/-- OFF requests to CAL and to each cluster whose WAKE_MASK bit is clear (R100). -/
def bootSleeps (d : Dev) : Dev :=
  forEach (((List.range 30).filter (fun n => decide (Dom.cal ≤ n) && !d.boot.wakeMask.testBit n)).reverse)
    (fun n d => requestEntry 0 n .off d)
    (d.modBoot (fun b => { b with sleeps := (List.range 30).filter (fun n => decide (Dom.cal ≤ n) && !b.wakeMask.testBit n) }))

/-- FOREGROUND_CALIBRATION_DONE: every run has ended; its record is written over a CALIB section's (R95, R329, R330,
R339, R340). DEDUCED (log 33), unsafe. -/
def foregroundCalibrationDoneDev (d : Dev) : Dev :=
  let rs := d.cal.runs
  if !(d.cal.fgBusy && !rs.isEmpty && rs.all (fun r => r.step == 6) && d.timerRuns) then d
  else
    let d := forEach rs (runEnds true) d
    let f := firstFailed rs
    let d := calLast (if f = 0 then 1 else 2) f 0 (d.setIrq Dom.cal Reg.CAL_IRQ_STAT 0)
    let d := (d.modCal (fun x => { x with fgBusy := false })).modBoot (fun b => { b with calDone := true })
    bootSleeps d

/-- FOREGROUND_CALIBRATION_DONE (R327). -/
def execForegroundCalibrationDone (s : State) : Host.Outcome State Fault Refusal := devNext s foregroundCalibrationDoneDev

/-! ### ENGINE_STAGE (R99, R101, R103, R514) -/

/-- Step 7 ends, once the OFF requests made after step 6 have ended: ENG_EN is set and the stage is RUN, or with
HOLD_ENGINE the device stops in HELD with ENG_EN = 0, whatever a list has written there (R99, R100, R103). -/
def engineEnd (s : State) : State :=
  if !s.dev.boot.sleeps.isEmpty then s
  else if s.dev.boot.hold then s.onDev (fun d => engineSet false (d.setStage Stage.held))
  else runReached Stage.engine (s.onDev (fun d => engineSet true (d.setStage Stage.run)))

/-- ENGINE_STAGE: with calibration and streaming complete the phase 01h lists are taken up; once they have run, step 7
ends (R99, R101). -/
def engineStageState (s : State) : State :=
  let b := s.dev.boot
  if b.failed || !s.dev.isOn Dom.mgmt then s
  else if s.dev.stage = Stage.cal then
    if b.calDone && b.streams.isEmpty then
      let l := lists1 s
      let s := s.onDev (fun d => (d.setStage Stage.engine).modBoot (fun b => { b with lists1 := true, lists := l }))
      if l.isEmpty then engineEnd s else listFront s
    else s
  else if s.dev.stage = Stage.engine ∧ b.lists = [] ∧ !b.delaying then engineEnd s
  else s

/-- ENGINE_STAGE (R99). -/
def execEngineStage (s : State) : Host.Outcome State Fault Refusal := .next (engineStageState s)

end Sys2Proof.Machine
end

