-- ==== Sys2Proof/Machine/Mgmt.lean ====
section
/-! DEFINITION. Sensors and alarms, the event log and its NVM mirror (R484, R496, R500 to R506, R518). -/

namespace Sys2Proof.Machine

open Sys2Proof

/-! ### Sensors and alarms (R500 to R502) -/

/-- A temperature alarm after a measurement, its threshold in whole °C: it rises when a sensor has read above it three
times in a row, and falls when every sensor has read at least 5 °C below it three times (R501). -/
def alarmTemp (thr : Int) (ts : List Nat) (a : Alarm) : Alarm :=
  let runs := (List.range 17).map (fun k => if thr * 128 < signed 16 (at_ ts k 0) then min 3 (at_ a.runs k 0 + 1) else 0)
  let low := if ts.all (fun t => decide (signed 16 t ≤ (thr - 5) * 128)) then min 3 (a.low + 1) else 0
  if a.raised then { a with raised := decide (low < 3), runs := runs, low := low }
  else match (List.range 17).find? (fun k => at_ runs k 0 == 3) with
    | some k => { raised := true, runs := runs, low := 0, who := k }
    | none => { a with runs := runs, low := low }

/-- The alarm of supply monitor k after a measurement (R501). -/
def alarmSupply (inside : Bool) (k : Nat) (a : Alarm) : Alarm :=
  let out := if inside then 0 else min 3 (at_ a.runs 0 0 + 1)
  let low := if inside then min 3 (a.low + 1) else 0
  { raised := if a.raised then decide (low < 3) else decide (out = 3), runs := [out], low := low, who := k }

/-- A rise or a fall sets MGT_ALARM_STAT and MGT_IRQ_STAT.ALARM, and is logged (R502, R505). -/
def alarmMoved (bit_ : Nat) (rise : Dev → Dev) (old new : Alarm) (d : Dev) : Dev :=
  if old.raised = new.raised then d
  else
    let d := (d.putFlag Reg.MGT_ALARM_STAT bit_ true).mgtIrq 3
    if new.raised then rise d else d.logEv 0x0A 0x04 0 [bit_ + 1, old.who]

/-- A temperature alarm that rose is logged with its sensor and reading; a critical one is a fault (R502, R505). -/
def tempRose (crit : Bool) (who : Nat) (d : Dev) : Dev :=
  let t := at_ d.mgt.temps who 0
  let d := d.logEv 0x0A (if crit then 0x02 else 0x01) (if crit then 3 else 1) [who, 0, t % 256, t / 256]
  if crit then d.setFault 6 else d

/-- A supply alarm that rose is logged with its monitor and reading, and is a fault (R502, R505). -/
def supplyRose (k : Nat) (d : Dev) : Dev :=
  let mv := at_ d.mgt.supplies k 0
  (d.logEv 0x0A 0x03 2 [k, 0, mv % 256, mv / 256]).setFault 7

/-- The readings taken; VDD_IO_H's window is chosen by its first reading after power-on reset (R500, R501).
DESIGN CHOICE (log 25), unsafe. -/
def takeReadings (temps supplies : List Word) (d : Dev) : Dev :=
  let low (l : List Word) (n : Nat) : List Nat := (List.range n).map (fun k => (at_ l k 0).toNat % 65536)
  let sup := low supplies 6
  { d with mgt := { d.mgt with
      temps := low temps 17, tempSeen := true, supplies := sup
      ioHigh := match d.mgt.ioHigh with
        | some h => some h
        | none => some (decide (2500 ≤ at_ sup 5 0)) } }

/-- Supply monitor k's alarm after the readings. DESIGN CHOICE (log 25), unsafe. -/
def supplyCheck (k : Nat) (d : Dev) : Dev :=
  let old := at_ d.mgt.supply k (Alarm.reset 1)
  let new := alarmSupply (supplyInside (d.mgt.ioHigh.getD false) k (at_ d.mgt.supplies k 0)) k old
  alarmMoved 2 (supplyRose k) old new { d with mgt := { d.mgt with supply := upd d.mgt.supply k (fun _ => new) } }

/-- SENSOR_MEASUREMENT: 17 readings in 1/128 °C and 6 in mV; the alarms, and the body bias (R484, R500 to R502).
DESIGN CHOICE (log 25), unsafe. -/
def sensorMeasurementDev (temps supplies : List Word) (d : Dev) : Dev :=
  let d := takeReadings temps supplies d
  let w := d.mgt.twarn
  let w' := alarmTemp (signed 9 (d.fld Reg.MGT_ALARM_CFG 8 0)) d.mgt.temps w
  let c := d.mgt.tcrit
  let c' := alarmTemp (signed 9 (d.fld Reg.MGT_ALARM_CFG 24 16)) d.mgt.temps c
  let d := { d with mgt := { d.mgt with twarn := w', tcrit := c' } }
  let d := alarmMoved 0 (tempRose false w'.who) w w' d
  let d := alarmMoved 1 (tempRose true c'.who) c c' d
  biasUpdate (forUpTo 6 supplyCheck d)

/-- SENSOR_MEASUREMENT (R500). -/
def execSensorMeasurement (temps supplies : List Word) (s : State) : Host.Outcome State Fault Refusal :=
  if s.held then .next s else devNext s (sensorMeasurementDev temps supplies)

/-! ### The log ring (R503) -/

/-- LOG_ENTRY_WRITE: the entry of a watchdog reset is the first; one that reports lost events comes before the queue's
oldest, and so do entries of the firmware's own that a borrow has kept waiting.  The write waits for a borrow of its region (R441, R498, R503). DESIGN CHOICE (log 26), unsafe. -/
def logEntryWriteDev (d : Dev) : Dev :=
  if !firmwareUp d || borrowedAt d 0x28 (logRing + 16 * (d.mgt.total % 4096)) 16 then d
  else if d.mgt.wdogLog then
    logStore (mgmtEv d 0x01 2 []) { d with mgt := { d.mgt with wdogLog := false } }
  else if 0 < d.mgt.lost then
    logStore (mgmtEv d 0x02 1 (leBytes 4 d.mgt.lost)) { d with mgt := { d.mgt with lost := 0 } }
  else match d.mgt.own, d.mgt.queue with
    | e :: r, _ => logStore e { d with mgt := { d.mgt with own := r } }
    | [], e :: r => logStore e { d with mgt := { d.mgt with queue := r } }
    | [], [] => d

/-- LOG_ENTRY_WRITE (R503). -/
def execLogEntryWrite (s : State) : Host.Outcome State Fault Refusal := devNext s logEntryWriteDev

/-! ### The NVM mirror (R506) -/

/-- NVM address of mirror sector k. DESIGN CHOICE (log 26), unsafe. -/
def mirrorBase (s : State) (k : Nat) : Nat := s.dev.boot.logBase + 0x10000 * k

/-- The sequence of mirror sector k, if its header is valid. -/
def mirrorSeqOf (s : State) (k : Nat) : Option Nat :=
  let fl := s.prot.flash
  let a := mirrorBase s k
  if flashNat fl a 4 = 0x474F4C50 ∧ flashNat fl (a + 12) 4 = (crc32 (flashBytes fl a 12)).toNat then some (flashNat fl (a + 4) 4)
  else none

/-- A sector's rank by sequence; an invalid one ranks below every valid one. DESIGN CHOICE (log 26), unsafe. -/
def mirrorRank (s : State) (k : Nat) : Nat :=
  match mirrorSeqOf s k with
  | some q => q + 1
  | none => 0

/-- The best sector of a list by a strict order, the earlier on a tie. -/
def bestOf (better : Nat → Nat → Bool) (l : List Nat) : Nat :=
  match l with
  | [] => 0
  | k :: r => r.foldl (fun m x => if better x m then x else m) k

/-- The first unwritten position of mirror sector k, 4,095 if there is none. -/
def mirrorFree (s : State) (k : Nat) : Nat :=
  ((List.range 4095).find? (fun p =>
    (flashBytes s.prot.flash (mirrorBase s k + 16 + 16 * p) 16).all (fun b => b == 0xFF))).getD 4095

/-- The mirror state changed. -/
def modMgt (f : Mgmt → Mgmt) (s : State) : State := s.onDev (fun d => { d with mgt := f d.mgt })

/-- At its first write after a boot the mirror resumes in the sector with the highest valid sequence; with none, the
next sector it opens is the first (R506). DESIGN CHOICE (log 26), unsafe. -/
def mirrorResume (s : State) : State :=
  if s.dev.mgt.mirrorUp then s
  else
    let k := bestOf (fun x m => decide (mirrorRank s m < mirrorRank s x)) (List.range 16)
    match mirrorSeqOf s k with
    | some q => modMgt (fun m => { m with mirrorUp := true, mirrorSec := k, mirrorSeq := q, mirrorPos := mirrorFree s k }) s
    | none => modMgt (fun m => { m with mirrorUp := true, mirrorSec := 16, mirrorSeq := 2 ^ 32 - 1, mirrorPos := 4095 }) s

/-- The sector that is opened next: the one with the lowest sequence, but not the one just left. -/
def mirrorNext (s : State) : Nat :=
  bestOf (fun x m => decide (mirrorRank s x < mirrorRank s m)) ((List.range 16).filter (fun k => k != s.dev.mgt.mirrorSec))

/-- A full sector is followed by the one with the lowest sequence, erased and given the next sequence (R506). -/
def mirrorOpen (s : State) : State :=
  if s.dev.mgt.mirrorPos < 4095 then s
  else
    let k := mirrorNext s
    let q := (s.dev.mgt.mirrorSeq + 1) % 2 ^ 32
    let head := leBytes 4 0x474F4C50 ++ leBytes 4 q ++ leBytes 4 0
    let a := mirrorBase s k
    let s := s.putFlash (flashProgram (flashErase s.prot.flash a 0x10000) a (head ++ leBytes 4 (crc32 head).toNat))
    modMgt (fun m => { m with mirrorSec := k, mirrorSeq := q, mirrorPos := 0 }) s

/-- The oldest waiting entry programmed.  Entries that the ring has overwritten meanwhile are gone.
DESIGN CHOICE (log 26), unsafe. -/
def mirrorOne (s : State) : State :=
  let s := mirrorOpen s
  let m := s.dev.mgt
  let i := max m.mirrored (m.total - 4096)
  let b := s.dev.mramBytes (logRing + 16 * (i % 4096)) 16
  let a := mirrorBase s m.mirrorSec + 16 + 16 * m.mirrorPos
  modMgt (fun m => { m with mirrored := i + 1, mirrorPos := m.mirrorPos + 1 }) (s.putFlash (flashProgram s.prot.flash a b))

/-- n waiting entries programmed. -/
def mirrorGroup (n : Nat) (s : State) : State := forUpTo n (fun _ s => mirrorOne s) (mirrorResume s)

/-- Bytes that a failed program or erase leaves in the flash: free values. DESIGN CHOICE (log 9), safe.  Which bytes
those are: DESIGN CHOICE (log 10, log 28), unsafe. -/
def flashSpoil (a n : Nat) (s : State) : State :=
  (s.putFlash (cellPutBytes flashDflt s.prot.flash a
    ((List.range n).map (fun k => BitVec.ofNat 8 (Config.free (s.dev.fresh + k)))))).onDev (fun d => { d with fresh := d.fresh + n })

/-- A program or an erase that failed twice: logged with its NVM address, and the sector is skipped; its entries go on
waiting (R505, R506). -/
def mirrorFails (n : Nat) (s : State) : State :=
  let s := mirrorResume s
  let m := s.dev.mgt
  let fresh := decide (4095 ≤ m.mirrorPos)
  let k := if fresh then mirrorNext s else m.mirrorSec
  let a := mirrorBase s k + (if fresh then 0 else 16 + 16 * m.mirrorPos)
  let s := flashSpoil a (if fresh then 0x10000 else 16 * min n (4095 - m.mirrorPos)) s
  let s := modMgt (fun m => { m with mirrorSec := k, mirrorPos := 4095 }) s
  s.onDev (fwLog 0x01 0x03 2 (leBytes 4 a))

/-- LOG_MIRROR_WRITE: up to 16 waiting entries are programmed; `ok` says whether the flash took them (R506). -/
def logMirrorWriteState (ok : Bool) (s : State) : State :=
  let n := min 16 (mirrorWaiting s.dev)
  if !mirrorRuns s.dev || n == 0 then s else if ok then mirrorGroup n s else mirrorFails n s

/-- LOG_MIRROR_WRITE (R506). -/
def execLogMirrorWrite (ok : Bool) (s : State) : Host.Outcome State Fault Refusal := .next (logMirrorWriteState ok s)

end Sys2Proof.Machine
end

