-- ==== Sys2Proof/Machine/Mailbox.lean ====
section
/-! DEFINITION. The management commands: the mailbox, update sessions, the rollback floor, the cascade's FWD and
system exclusive requests (R79 to R90, R391, R507 to R518, R538, R540). -/

namespace Sys2Proof.Machine

open Sys2Proof

/-! ### Requests and answers (R508 to R510) -/

/-- Who sends a request: the path, its serial port, the most parameter and data bytes a request and its response can
carry there, and whether the flash takes the commands of this request (R508, R510, R512, R516, R540). -/
structure Caller where
  path : Nat
  port : Nat
  params : Nat
  room : Nat
  flash : Bool
  deriving DecidableEq, Repr

/-- Do the flash commands of this request end well: the flash takes them, and MGMT's pads let them through (R481, R510)? -/
def Caller.works (c : Caller) (s : State) : Bool := c.flash && s.dev.nvReach

/-- The mailbox, path 0. -/
def Caller.mail (ok : Bool) : Caller := { path := 0, port := 0, params := 60, room := 60, flash := ok }

/-- SysEx on serial port n, path 1. -/
def Caller.sysex (n : Nat) (ok : Bool) : Caller := { path := 1, port := n, params := 1028, room := 60, flash := ok }

/-- The cascade, path 2. -/
def Caller.cascade (ok : Bool) : Caller := { path := 2, port := 0, params := 52, room := 52, flash := ok }

/-- A command's end: the state after it, its status and its data. -/
structure Reply where
  st : State
  status : Nat
  data : List Byte
  deriving DecidableEq, Repr

/-- A command that ends with a status alone. -/
def endWith (n : Nat) (s : State) : Reply := { st := s, status := n, data := [] }

/-- The bytes of a response (R508). -/
def responseBytes (req : List Byte) (status : Nat) (data : List Byte) : List Byte :=
  leBytes 1 (byteAt req 0) ++ leBytes 1 (byteAt req 1) ++ leBytes 1 status ++ leBytes 1 data.length ++ data

/-- The commands that the ROM serves too (R509). -/
def romCommands : List Nat := [0x01, 0x10, 0x11, 0x12, 0x13, 0x14, 0x19, 0x20, 0x21, 0x22, 0x23]

/-- Every command (R509). -/
def allCommands : List Nat := romCommands ++ [0x02, 0x03, 0x18, 0x30]

/-- The stages in which the ROM serves the mailbox (R107, R509). -/
def romStage (d : Dev) : Bool := d.stage == Stage.rom || d.stage == Stage.noImage || d.stage == Stage.romWait

/-- Parameter bytes a command cannot do without (R509). -/
def leastParams (cmd : Nat) : Nat :=
  if cmd = 0x02 ∨ cmd = 0x12 then 12
  else if cmd = 0x10 ∨ cmd = 0x22 then 4
  else if cmd = 0x11 ∨ cmd = 0x21 ∨ cmd = 0x23 then 5
  else if cmd = 0x13 ∨ cmd = 0x19 then 1
  else if cmd = 0x18 then 2
  else if cmd = 0x30 then 8
  else 0

/-- In ROM_WAIT no boot has read the records: the slot bases are those of the records as they stand (R81, R511).
DESIGN CHOICE (log 27), unsafe. -/
def freshBases (s : State) : State :=
  if s.dev.stage = Stage.romWait then s.onDev (fun d => d.modBoot (recLoad s.prot.flash)) else s

/-- A request checked and served: in the ROM's stages every command it does not serve is denied, and a LEN that is too
long, or too short for the command, is an invalid parameter (R508 to R510). DESIGN CHOICE (log 27), unsafe. -/
def served (cmd : Nat) (c : Caller) (req : List Byte) (f : List Byte → State → Reply) (s : State) : Reply :=
  let n := halfAt req 2
  if romStage s.dev ∧ !romCommands.contains cmd then endWith 4 s
  else if c.params < n ∨ req.length < 4 + n ∨ n < leastParams cmd then endWith 2 s
  else f ((req.drop 4).take n) (freshBases s)

/-- Does the firmware, or in its stages the ROM, serve requests (R496, R509)? -/
def mailboxOpen (d : Dev) : Bool := firmwareUp d || (d.isOn Dom.mgmt && d.mgt.mode == 1 && romStage d)

/-- A mailbox command's row: the copied request, if it is this command's and has not ended (R509).
DESIGN CHOICE (log 27), unsafe. -/
def mailboxRow (cmd : Nat) (f : List Byte → State → Reply) (s : State) : State :=
  let m := s.dev.mgt
  if mailboxOpen s.dev && m.busy && m.response.isNone && byteAt m.request 0 == cmd then
    let r := served cmd (Caller.mail true) m.request f s
    modMgt (fun m => { m with response := some (responseBytes m.request r.status r.data) }) r.st
  else s

/-- A 32-bit parameter. -/
def param32 (p : List Byte) (k : Nat) : Nat := bodyNat p k 4

/-! ### Information and log (R506, R509) -/

/-- SEC_VERSION of a slot's header, FFh if the header fails or latched pads keep it from being read (R84, R481, R509). -/
def slotSec (s : State) (slot : Nat) : Nat :=
  if s.dev.nvReach ∧ headerErr s slot = 0 then flashNat s.prot.flash (s.dev.boot.base slot + 0x0C) 1 else 0xFF

/-- GET_INFO's answer (R509). -/
def getInfoCmd (_ : List Byte) (s : State) : Reply :=
  let d := s.dev
  { st := s, status := 0
    data := leBytes 4 d.mgt.fwVersion ++ leBytes 1 d.mgt.secVersion ++ leBytes 1 s.prot.floor ++ leBytes 1 d.slot ++
      leBytes 1 d.stage ++ leBytes 1 (slotSec s 0) ++ leBytes 1 (slotSec s 1) }

/-- GET_INFO (R509). -/
def execGetInfo (s : State) : Host.Outcome State Fault Refusal := .next (mailboxRow 0x01 getInfoCmd s)

/-- LOG_ADD's entry (R505, R507, R509). -/
def logAddCmd (p : List Byte) (s : State) : Reply :=
  endWith 0 (s.onDev (fwLog 0x0D (byteAt p 0) 0 ((p.drop 4).take 8)))

/-- LOG_ADD (R509). -/
def execLogAdd (s : State) : Host.Outcome State Fault Refusal := .next (mailboxRow 0x02 logAddCmd s)

/-- LOG_SYNC: every waiting entry is programmed, under the conditions of the mirror; a flash that fails ends it with
status 07h (R506, R509, R510). DESIGN CHOICE (log 26), unsafe. DESIGN CHOICE (log 28), unsafe. -/
def logSyncCmd (c : Caller) (_ : List Byte) (s : State) : Reply :=
  let n := if mirrorRuns s.dev then mirrorWaiting s.dev else 0
  if n = 0 ∨ c.works s then { st := if n = 0 then s else mirrorGroup n s, status := 0, data := leBytes 4 n }
  else endWith 7 (mirrorFails n s)

/-- LOG_SYNC (R509). -/
def execLogSync (s : State) (ok : Bool := true) : Host.Outcome State Fault Refusal :=
  .next (mailboxRow 0x03 (logSyncCmd (Caller.mail ok)) s)

/-! ### Update sessions (R512, R513) -/

/-- The session ends: MGT_IRQ_STAT.UPD sets (R522). -/
def closeSession (s : State) : State :=
  s.onDev (fun d => ({ d with mgt := { d.mgt with session := none } }).mgtIrq 5)

/-- An abort or a failure leaves the target slot with an invalid header (R512). -/
def spoilTarget (slot : Nat) (s : State) : State := eraseSector (s.dev.boot.base slot) s

/-- The open session is aborted, and logged with a status code (R505, R512). -/
def abortSession (status : Nat) (s : State) : State :=
  match s.dev.mgt.session with
  | none => s
  | some x => closeSession ((spoilTarget x.slot s).onDev (fwLog 0x0B 0x02 1 (leBytes 1 status)))

/-- A session command's path against the open session: another path's is refused, and none may be open (R510, R512). -/
def withSession (c : Caller) (f : Session → State → Reply) (s : State) : Reply :=
  match s.dev.mgt.session with
  | none => endWith 8 s
  | some x => if x.path = c.path ∧ x.port = c.port then f x s else endWith 3 s

/-- A flash command failed: the session ends, as an abort with status 07h (R505, R510, R512).
DESIGN CHOICE (log 28), unsafe. -/
def sessionFails (s : State) : Reply := endWith 7 (abortSession 7 s)

/-- UPD_BEGIN: the target is the slot not in use, and its first sector is erased; where that fails no session opens
(R510, R513 step 1). DESIGN CHOICE (log 27), unsafe. DESIGN CHOICE (log 28), unsafe. -/
def updBeginCmd (c : Caller) (p : List Byte) (s : State) : Reply :=
  match s.dev.mgt.session with
  | some x => endWith (if x.path = c.path ∧ x.port = c.port then 4 else 3) s
  | none =>
    let t := 1 - s.dev.slot
    let n := param32 p 0
    if s.dev.boot.slotEnd t < s.dev.boot.base t + n then endWith 2 s
    else if !c.works s then endWith 7 (flashSpoil (s.dev.boot.base t / 0x10000 * 0x10000) 0x10000 s)
    else
      let s := (eraseSector (s.dev.boot.base t) s).onDev (fwLog 0x0B 0x01 0 (leBytes 1 c.path ++ leBytes 1 t))
      { st := modMgt (fun m => { m with session := some { path := c.path, port := c.port, slot := t, len := n, got := 0 } }) s
        status := 0, data := leBytes 1 t }

/-- UPD_BEGIN (R513). -/
def execUpdBegin (s : State) (ok : Bool := true) : Host.Outcome State Fault Refusal :=
  .next (mailboxRow 0x10 (updBeginCmd (Caller.mail ok)) s)

/-- Flash sectors of 64 KiB whose first byte lies in a range. -/
def sectorsFrom (a n : Nat) : List Nat :=
  ((List.range (n / 0x10000 + 2)).map (fun k => (a / 0x10000 + k) * 0x10000)).filter (fun x => decide (a ≤ x ∧ x < a + n))

/-- Image bytes written behind those received: each sector is erased before its first byte (R513 step 2). -/
def imageWrite (x : Session) (bs : List Byte) (s : State) : State :=
  let a := s.dev.boot.base x.slot + x.got
  let s := s.putFlash (flashProgram ((sectorsFrom a bs.length).foldl (fun fl k => flashErase fl k 0x10000) s.prot.flash) a bs)
  modMgt (fun m => { m with session := some { x with got := x.got + bs.length } }) s

/-- Image bytes at an OFFSET: they must follow those received and stay within IMAGE_LEN (R510, R513 step 2). -/
def imageBytes (c : Caller) (x : Session) (off : Nat) (bs : List Byte) (s : State) : Reply :=
  if off ≠ x.got ∨ x.len < x.got + bs.length then endWith 5 s
  else if c.works s then endWith 0 (imageWrite x bs s)
  else sessionFails s

/-- UPD_DATA (R513). -/
def updDataCmd (c : Caller) (p : List Byte) (s : State) : Reply :=
  withSession c (fun x s => imageBytes c x (param32 p 0) (p.drop 4) s) s

/-- UPD_DATA (R513). -/
def execUpdData (s : State) (ok : Bool := true) : Host.Outcome State Fault Refusal :=
  .next (mailboxRow 0x11 (updDataCmd (Caller.mail ok)) s)

/-- UPD_DRAM's transfer: n bytes of wave DRAM to the flash (R436, R513 step 2). -/
def updMove (a dst n : Nat) : Mover :=
  { Mover.reset with state := .busy, src := a, dst := dst, srcSpace := 0, dstSpace := 7, length := n }

/-- What mover channel 2 shows after it has brought the bytes to the flash (R436, R438, R444, R513 step 2). -/
def updMoved (m : Mover) (d : Dev) : Dev :=
  let k := linesOf m.src m.length
  (((putDesc 2 m d).modMover 2 (fun _ => { m with state := .done, pos := m.length })).bumpBy Reg.MEM_CNT_MOV k).emit 28 k

/-- UPD_DRAM: the bytes come from wave DRAM through mover channel 2, for which MEMC must be ON and the channel free; a
transfer that the mover rejects ends the command with status 04h; a length of 0 is its maximum (R18, R437, R439, R509,
R513). DESIGN CHOICE (log 27), unsafe. -/
def updDramCmd (c : Caller) (p : List Byte) (s : State) : Reply :=
  withSession c (fun x s =>
    let a := param32 p 4
    let n := countOf (param32 p 8) 1048576
    if n < 64 ∨ 1048576 < n ∨ n % 64 ≠ 0 ∨ a % 4 ≠ 0 ∨ waveSize < a + n then endWith 2 s
    else if !s.dev.isOn Dom.memc || (s.dev.mover 2).state == .busy then endWith 4 s
    else if param32 p 0 ≠ x.got ∨ x.len < x.got + n then endWith 5 s
    else
      let m := updMove a (s.dev.boot.base x.slot + x.got) n
      if moverReason s.dev 2 m ≠ 0 then endWith 4 (s.onDev (firmwareIssue 2 m))
      else
        let r := imageBytes c x (param32 p 0) (s.dev.waveBytes a n) s
        if r.status = 0 then { r with st := r.st.onDev (updMoved m) } else r) s

/-- UPD_DRAM (R513). -/
def execUpdDram (s : State) (ok : Bool := true) : Host.Outcome State Fault Refusal :=
  .next (mailboxRow 0x12 (updDramCmd (Caller.mail ok)) s)

/-- The first check that an image fails, with its section index: its header, its table, its firmware, every section's
CRC (R84, R86, R89, R90, R513 step 3). -/
def imageErr (s : State) (slot : Nat) : Nat × Nat :=
  let h := headerErr s slot
  let t := tableErr s slot
  if h ≠ 0 then (h, 0)
  else if t ≠ 0 then (t, 0)
  else
    let l := readTable s slot
    match firmwareSect l with
    | none => (3, 0)
    | some x =>
      let e := firmwareErr s slot x
      if e ≠ 0 then (e, x.index)
      else match l.find? (fun x => x.crc != crc32 (sectBody s slot x)) with
        | some x => (8, x.index)
        | none => (0, 0)

/-- FW_VERSION of an image (R89). -/
def imageFw (s : State) (slot : Nat) : Nat :=
  match firmwareSect (readTable s slot) with
  | some x => bodyNat (sectBody s slot x) 4 4
  | none => 0

/-- UPD_END: the image is verified; a record that prefers it is written, or the session fails (R513 steps 3 to 5). -/
def updEndCmd (c : Caller) (p : List Byte) (s : State) : Reply :=
  withSession c (fun x s =>
    if x.got ≠ x.len then endWith 5 s
    else if !s.dev.nvReach then sessionFails s
    else
      let e := imageErr s x.slot
      if e.1 ≠ 0 then
        { st := closeSession ((spoilTarget x.slot s).onDev (fwLog 0x0B 0x04 1 (leBytes 1 e.1 ++ leBytes 1 e.2)))
          status := 6, data := leBytes 1 e.1 ++ leBytes 1 e.2 }
      else if !c.works s then sessionFails s
      else
        let fw := imageFw s x.slot
        let s := (writeRecord x.slot s).onDev
          (fwLog 0x0B 0x03 0 (leBytes 1 x.slot ++ leBytes 1 (slotSec s x.slot) ++ leBytes 2 0 ++ leBytes 4 fw))
        { st := modMgt (fun m => { m with resetDue := m.resetDue || (byteAt p 0).testBit 0 }) (closeSession s)
          status := 0, data := [0, 0] }) s

/-- UPD_END (R513). -/
def execUpdEnd (s : State) (ok : Bool := true) : Host.Outcome State Fault Refusal :=
  .next (mailboxRow 0x13 (updEndCmd (Caller.mail ok)) s)

/-- UPD_ABORT (R512). DESIGN CHOICE (log 27), unsafe. -/
def updAbortCmd (c : Caller) (_ : List Byte) (s : State) : Reply :=
  withSession c (fun _ s => endWith 0 (abortSession 0 s)) s

/-- UPD_ABORT (R512). -/
def execUpdAbort (s : State) : Host.Outcome State Fault Refusal := .next (mailboxRow 0x14 (updAbortCmd (Caller.mail true)) s)

/-- UPDATE_SESSION_TIMEOUT: 10 s without a command abort the open session (R512). -/
def execUpdateSessionTimeout (s : State) : Host.Outcome State Fault Refusal := .next (abortSession 0 s)

/-- UPDATE_RESET: 10 ms after the response to a successful UPD_END with RESET (R513 step 5). -/
def updateResetState (s : State) : State :=
  if s.dev.mgt.resetDue && s.dev.mgt.response.isNone then resetState .soft s else s

/-- UPDATE_RESET (R513). -/
def execUpdateReset (s : State) : Host.Outcome State Fault Refusal := .next (updateResetState s)

/-! ### Floor and preference (R514, R515) -/

/-- May the floor advance to a value (R515)? DESIGN CHOICE (log 15), unsafe. -/
def floorMay (v : Nat) (force : Bool) (s : State) : Bool :=
  let t := 1 - s.dev.slot
  s.dev.stage == Stage.run && decide (s.prot.floor < v ∧ v ≤ 32 ∧ v ≤ s.dev.mgt.secVersion) &&
    (force || (s.dev.nvReach && headerErr s t == 0 && decide (v ≤ flashNat s.prot.flash (s.dev.boot.base t + 0x0C) 4)))

/-- ROLLBACK_ADV (R515). DESIGN CHOICE (log 15), unsafe. -/
def rollbackAdvCmd (p : List Byte) (s : State) : Reply :=
  let v := byteAt p 0
  if floorMay v ((byteAt p 1).testBit 0) s then
    { st := ({ s with prot := { s.prot with floor := v } } : State).onDev (fwLog 0x0B 0x05 0 (leBytes 1 v))
      status := 0, data := leBytes 1 v }
  else endWith 2 s

/-- ROLLBACK_ADV (R515). -/
def execRollbackAdv (s : State) : Host.Outcome State Fault Refusal := .next (mailboxRow 0x18 rollbackAdvCmd s)

/-- SET_PREFER; a flash that fails leaves the copy it was to write spoiled (R510, R514).
DESIGN CHOICE (log 28), unsafe. -/
def setPreferCmd (c : Caller) (p : List Byte) (s : State) : Reply :=
  if 1 < byteAt p 0 then endWith 2 s
  else if !s.dev.nvReach then endWith 7 s
  else if headerErr s (byteAt p 0) ≠ 0 then endWith 6 s
  else if c.works s then endWith 0 (writeRecord (byteAt p 0) s)
  else endWith 7 (flashSpoil (recBase (recTarget s.prot.flash)) 0x1000 s)

/-- SET_PREFER (R514). -/
def execSetPrefer (s : State) (ok : Bool := true) : Host.Outcome State Fault Refusal :=
  .next (mailboxRow 0x19 (setPreferCmd (Caller.mail ok)) s)

/-! ### Flash commands (R509 to R511) -/

/-- NVM_ID (R509). DESIGN CHOICE (log 7), safe. -/
def nvmIdCmd (_ : List Byte) (s : State) : Reply :=
  if !s.dev.nvReach then endWith 7 s else
  { st := s, status := 0, data := (List.range 3).map Config.jedecId ++ leBytes 1 (min Config.flashLog2 29) }

/-- NVM_ID (R509). -/
def execNvmId (s : State) : Host.Outcome State Fault Refusal := .next (mailboxRow 0x20 nvmIdCmd s)

/-- NVM_READ: a count of 0 is its maximum (R18, R509). -/
def nvmReadCmd (c : Caller) (p : List Byte) (s : State) : Reply :=
  let a := param32 p 0
  let n := countOf (byteAt p 4) 56
  if 56 < n ∨ c.room < n ∨ flashSize < a + n then endWith 2 s
  else if !s.dev.nvReach then endWith 7 s
  else { st := s, status := 0, data := flashBytes s.prot.flash a n }

/-- NVM_READ (R509). -/
def execNvmRead (s : State) : Host.Outcome State Fault Refusal := .next (mailboxRow 0x21 (nvmReadCmd (Caller.mail true)) s)

/-- The stages in which NVM_ERASE and NVM_PROG are not denied (R510). -/
def rawFlashStage (d : Dev) : Bool := d.stage == Stage.noImage || d.stage == Stage.romWait

/-- NVM_ERASE; one that fails leaves the sector's bytes open (R510). DESIGN CHOICE (log 28), unsafe. -/
def nvmEraseCmd (c : Caller) (p : List Byte) (s : State) : Reply :=
  let a := param32 p 0
  if !rawFlashStage s.dev then endWith 4 s
  else if a % 0x10000 ≠ 0 ∨ flashSize < a + 0x10000 then endWith 2 s
  else if c.works s then endWith 0 (eraseSector a s)
  else endWith 7 (flashSpoil a 0x10000 s)

/-- NVM_ERASE (R510). -/
def execNvmErase (s : State) (ok : Bool := true) : Host.Outcome State Fault Refusal :=
  .next (mailboxRow 0x22 (nvmEraseCmd (Caller.mail ok)) s)

/-- NVM_PROG; one that fails leaves the bytes it was to write open (R510). DESIGN CHOICE (log 28), unsafe. -/
def nvmProgCmd (c : Caller) (p : List Byte) (s : State) : Reply :=
  let a := param32 p 0
  let bs := p.drop 4
  if !rawFlashStage s.dev then endWith 4 s
  else if 56 < bs.length ∨ 256 < a % 256 + bs.length ∨ flashSize < a + bs.length then endWith 2 s
  else if c.works s then endWith 0 (s.putFlash (flashProgram s.prot.flash a bs))
  else endWith 7 (flashSpoil a bs.length s)

/-- NVM_PROG (R510). -/
def execNvmProg (s : State) (ok : Bool := true) : Host.Outcome State Fault Refusal :=
  .next (mailboxRow 0x23 (nvmProgCmd (Caller.mail ok)) s)

/-! ### Carriage to the workers (R518, R538, R540) -/

/-- The status with which FWD ends at once, 0 if its request goes out (R509, R540). DESIGN CHOICE (log 27), unsafe. -/
def fwdErr (d : Dev) (p : List Byte) : Nat :=
  let n := p.length - 4
  if byteAt p 0 = 0 ∨ 7 < byteAt p 0 ∨ n < 4 ∨ 56 < n then 2
  else if !(casPresent d).getLsbD (byteAt p 0) then 9
  else 0

/-- FWD's MGMT_REQ packet goes out, for the mailbox or for a serial port's request (R538, R540). -/
def fwdSend (port : Option (Nat × Nat)) (p : List Byte) (d : Dev) : Dev :=
  d.modCas (fun c => { c with
    mgmtOut := c.mgmtOut ++ [mkPacket 3 (byteAt p 0) 0x80 (p.drop 4)]
    fwdPos := some (byteAt p 0), fwdData := [], fwdPort := port })

/-- Does the mailbox's FWD wait for its worker? -/
def mailFwdOut (d : Dev) : Bool := d.cas.fwdPos.isSome && d.cas.fwdPort.isNone

/-- FWD: it ends at once, or its request goes out and its response is awaited; behind a FWD that came by SysEx it waits for
that one's end (R509, R540).  DESIGN CHOICE (log 27), unsafe. -/
def fwdState (s : State) : State :=
  let m := s.dev.mgt
  let n := halfAt m.request 2
  let p := (m.request.drop 4).take n
  if romStage s.dev ∨ 60 < n ∨ n < 8 ∨ fwdErr s.dev p ≠ 0 then
    mailboxRow 0x30 (fun p s => endWith (fwdErr s.dev p) s) s
  else if mailboxOpen s.dev && m.busy && m.response.isNone && byteAt m.request 0 == 0x30 && s.dev.cas.fwdPos.isNone then
    s.onDev (fwdSend none p)
  else s

/-- FWD (R540). -/
def execFwd (s : State) : Host.Outcome State Fault Refusal := .next (fwdState s)

/-- A request other than FWD, run for a path (R509, R512). -/
def runCommand (c : Caller) (req : List Byte) (s : State) : Reply :=
  let cmd := byteAt req 0
  let go := served cmd c req
  if cmd = 0x01 then go getInfoCmd s
  else if cmd = 0x02 then go logAddCmd s
  else if cmd = 0x03 then go (logSyncCmd c) s
  else if cmd = 0x10 then go (updBeginCmd c) s
  else if cmd = 0x11 then go (updDataCmd c) s
  else if cmd = 0x12 then go (updDramCmd c) s
  else if cmd = 0x13 then go (updEndCmd c) s
  else if cmd = 0x14 then go (updAbortCmd c) s
  else if cmd = 0x18 then go rollbackAdvCmd s
  else if cmd = 0x19 then go (setPreferCmd c) s
  else if cmd = 0x20 then go nvmIdCmd s
  else if cmd = 0x21 then go (nvmReadCmd c) s
  else if cmd = 0x22 then go (nvmEraseCmd c) s
  else if cmd = 0x23 then go (nvmProgCmd c) s
  else if cmd = 0x30 then go (fun p s => endWith (fwdErr s.dev p) s) s
  else endWith 1 s

/-- A response in MGMT_RSP fragments, the last with LAST set (R538). DESIGN CHOICE (log 27), unsafe. -/
def rspPackets (pos : Nat) (r : List Byte) : List (List Byte) :=
  if r.length ≤ 40 then [mkPacket 4 pos 0x80 r]
  else [mkPacket 4 pos 0 (r.take 40), mkPacket 4 pos 0x81 (r.drop 40)]

/-- MGMT_REQ: a worker's firmware runs the inner request as path 2 and answers in fragments; `ok` says whether its flash
takes the request's commands (R510, R518, R538, R540). -/
def mgmtReqState (ok : Bool) (s : State) : State :=
  if !(linkRuns s.dev && s.dev.isWorker && firmwareUp s.dev) then s
  else match takePacket s.dev 3 with
    | none => s
    | some (p, d) =>
      let req := p.drop 4
      let r := runCommand (Caller.cascade ok) req { s with dev := d }
      r.st.onDev (fun d => forEach (rspPackets d.pos (responseBytes req r.status r.data)) ownPacket d)

/-- MGMT_REQ (R538). -/
def execMgmtReq (s : State) (ok : Bool := true) : Host.Outcome State Fault Refusal := .next (mgmtReqState ok s)

/-! ### System exclusive (R516, R517) -/

/-- An answer on the receiving port: only with SYSEX_REPLY, and dropped while the port's soft thru is on (R517). -/
def sysexAnswer (n : Nat) (bs : List Byte) (d : Dev) : Dev :=
  if d.flag Reg.MGT_UPD_CTL 1 && d.isOn Dom.serial && !d.flag (Reg.SER_CTL n) 8 then txReply n bs d else d

/-- DEVICE_ID of the serial ports (R398). -/
def deviceId (d : Dev) : Byte := BitVec.ofNat 8 (d.fld Reg.SER_SYSEX 6 0)

/-- A response in the envelope of R516 (R517). -/
def sysexEnvelope (r : List Byte) (d : Dev) : List Byte :=
  [0xF0] ++ d.boot.sysexId ++ [deviceId d, 0x50] ++ pack7 r ++ [BitVec.ofNat 8 (sysexSum (pack7 r)), 0xF7]

/-- The answer to the universal Identity Request (R517). -/
def identityReply (d : Dev) : List Byte :=
  let fw := d.mgt.fwVersion
  let seven (n : Nat) : Byte := BitVec.ofNat 8 (n % 128)
  [0xF0, 0x7E, deviceId d, 0x06, 0x02] ++ d.boot.sysexId.map (fun b => b &&& 0x7F) ++ [0x45, 0x59, 0x00, 0x01] ++
    [seven (fw / 2 ^ 24), seven (fw / 2 ^ 16), seven (fw % 2 ^ 16 / 128), seven fw, 0xF7]

/-- A SysEx request that has been unpacked: run on path 1 and answered; FWD's answer comes with its worker's response
(R512, R516, R517, R540). -/
def sysexRequest (ok : Bool) (n : Nat) (req : List Byte) (s : State) : State :=
  let len := halfAt req 2
  let p := (req.drop 4).take len
  if byteAt req 0 = 0x30 ∧ 8 ≤ len ∧ 4 + len ≤ req.length ∧ fwdErr s.dev p = 0 then
    if s.dev.cas.fwdPos.isSome then s.onDev (fun d => sysexAnswer n (sysexEnvelope (responseBytes req 3 []) d) d)
    else s.onDev (fwdSend (some (n, byteAt req 1)) p)
  else
    let r := runCommand (Caller.sysex n ok) req s
    r.st.onDev (fun d => sysexAnswer n (sysexEnvelope (responseBytes req r.status r.data) d) d)

/-- A routed message that the firmware takes from its buffer (R516, R517). -/
def sysexMessage (ok : Bool) (n : Nat) (msg : List Byte) (s : State) : State :=
  if byteAt msg 1 = 0x7E then
    if msg.length = 6 ∧ byteAt msg 3 = 0x06 ∧ byteAt msg 4 = 0x01 then s.onDev (fun d => sysexAnswer n (identityReply d) d)
    else s
  else if !s.dev.flag Reg.MGT_UPD_CTL 0 then s
  else match updateMessage s.dev.boot.sysexId msg with
    | some body => if 4 ≤ (unpack7 body).length then sysexRequest ok n (unpack7 body) s else s
    | none => s

/-- SYSEX_DONE: the firmware takes the message, the task commits and its buffer is freed; `ok` says whether the flash
takes the commands of a request in it (R128, R391, R510, R516). -/
def sysexDoneState (i : Nat) (ok : Bool) (s : State) : State :=
  match commits s.dev i (fun t => t.typ == Typ.sysexDone) with
  | none => s
  | some t =>
    let s := s.onDev deferredFirst
    let buf := pay16 t.payload 4
    let msg := s.dev.mramBytes (sysexAt buf 0) (min (pay16 t.payload 2) 2048)
    let s := if firmwareUp s.dev then sysexMessage ok (pay8 t.payload 0) msg s else s
    s.onDev (fun d => finishTask t 0 (freeBuf buf d))

/-- SYSEX_DONE (R391). -/
def execSysexDone (idx : Nat) (s : State) (ok : Bool := true) : Host.Outcome State Fault Refusal :=
  .next (sysexDoneState idx ok s)

/-! ### The end of a mailbox command (R509, R540) -/

/-- The response written to the response registers; BUSY clears and MB_DONE sets (R508, R509, R522).
DESIGN CHOICE (log 27), unsafe. -/
def mailboxEnd (r : List Byte) (d : Dev) : Dev :=
  let d := forUpTo 16 (fun n d => d.putReg (Reg.MGT_MBO n) (BitVec.ofNat 32 (leNat (sfBytes r (4 * n) 4)))) d
  ({ d with mgt := { d.mgt with busy := false, request := [], response := none } }).mgtIrq 0

/-- No FWD is awaited any more. -/
def fwdClear (d : Dev) : Dev := d.modCas (fun c => { c with fwdPos := none, fwdData := [], fwdPort := none })

/-- A SysEx FWD whose worker has not answered by its time is answered with status 09h (R510, R517, R540). -/
def sysexFwdLate (d : Dev) : Dev :=
  match d.cas.fwdPort with
  | some x => sysexAnswer x.1 (sysexEnvelope (responseBytes (0x30 :: leBytes 1 x.2) 9 []) d) (fwdClear d)
  | none => d

/-- MAILBOX_RESPONSE: a command that has ended is answered; an unknown CMD ends with status 01h, and in the ROM's stages
with 04h; a FWD whose worker has not answered by its time ends with status 09h, one that came by SysEx where the mailbox
has none to end (R509, R510, R517, R540).  DESIGN CHOICE (log 27), unsafe. -/
def mailboxResponseDev (d : Dev) : Dev :=
  if !mailboxOpen d then d
  else if !d.mgt.busy then sysexFwdLate d
  else match d.mgt.response with
    | some r => mailboxEnd r d
    | none =>
      if mailFwdOut d then mailboxEnd (responseBytes d.mgt.request 9 []) (fwdClear d)
      else if !allCommands.contains (byteAt d.mgt.request 0) then
        mailboxEnd (responseBytes d.mgt.request (if romStage d then 4 else 1) []) d
      else sysexFwdLate d

/-- MAILBOX_RESPONSE (R509). -/
def execMailboxResponse (s : State) : Host.Outcome State Fault Refusal := devNext s mailboxResponseDev

/-- A worker's response is whole: it is the data of FWD's own (R509, R517, R540). -/
def fwdDone (d : Dev) : Dev :=
  let r := d.cas.fwdData
  let port := d.cas.fwdPort
  let d := fwdClear d
  match port with
  | some x => sysexAnswer x.1 (sysexEnvelope (responseBytes (0x30 :: leBytes 1 x.2) 0 r) d) d
  | none =>
    if d.mgt.busy && d.mgt.response.isNone && byteAt d.mgt.request 0 == 0x30 then
      { d with mgt := { d.mgt with response := some (responseBytes d.mgt.request 0 r) } }
    else d

/-- MGMT_RSP: a fragment from the position a FWD awaits; the one with LAST completes the response (R538, R540). -/
def mgmtRspDev (d : Dev) : Dev :=
  if !(linkRuns d && d.isMaster && firmwareUp d) then d
  else match takePacket d 4 with
    | none => d
    | some (p, d) =>
      if d.cas.fwdPos ≠ some (byteAt p 2) then d
      else
        let d := d.modCas (fun c => { c with fwdData := c.fwdData ++ p.drop 4 })
        if (byteAt p 3).testBit 7 then fwdDone d else d

/-- MGMT_RSP (R538). -/
def execMgmtRsp (s : State) : Host.Outcome State Fault Refusal := devNext s mgmtRspDev

end Sys2Proof.Machine
end

