-- ==== Sys2Proof/Machine/Tap.lean ====
section
/-! DEFINITION. The test access port: its instructions, its bypass and boundary registers, what they capture and
drive, and the reset they hold the device in (R570, R571). -/

namespace Sys2Proof.Machine

open Sys2Proof

/-! ### The scanned pins (R552, R570) -/

/-- What a scanned pin can do. -/
inductive ScanKind where
  | input | output | openDrain
  deriving DecidableEq, Repr

/-- The 98 pins of the boundary register in the order of R552's table, the highest index of a bus first as the table writes
it; a bidirectional pin counts as an output.  0 to 41 the host port, HIRQ_N last; 42 to 52 the NVM port; 53 to 60 the serial
ports; 61 to 78 the TDM ports; 79 to 86 the chronographs; 87 to 92 the straps; 93 FAULT_N and 94 to 97 VID[3:0].
DEDUCED (log 40), unsafe. -/
def scanKind (n : Nat) : ScanKind :=
  if n = 41 ∨ n = 93 then .openDrain
  else if n ≤ 21 ∨ (38 ≤ n ∧ n ≤ 40) ∨ (52 ≤ n ∧ n ≤ 56) ∨ (77 ≤ n ∧ n ≤ 82) ∨ (87 ≤ n ∧ n ≤ 92) then .input
  else .output

/-- What a pin's driver does: as the device's units have it, high impedance, or a level. -/
inductive PinDrive where
  | device
  | highZ
  | level (high : Bool)
  deriving DecidableEq, Repr

/-- A pin as the test access port drives it: under EXTEST and CLAMP by its output and enable latches, under HIGHZ not at all;
an input's cells have no effect, and an open-drain pin is only pulled low (R570).  Enable at 1 drives. DESIGN CHOICE (log 40), unsafe. -/
def testDrive (p : Prot) (n : Nat) : PinDrive :=
  let high := p.latches.getLsbD (3 * n + 1)
  let drives := p.latches.getLsbD (3 * n + 2)
  if scanKind n = .input then .device
  else if p.jtag = 3 then .highZ
  else if p.jtag = 0 ∨ p.jtag = 2 then
    (if !drives || (decide (scanKind n = .openDrain) && high) then .highZ else .level high)
  else .device

/-- A pin as the device's own units drive it, where State gives it at every instant. -/
def unitDrive (d : Dev) (n : Nat) : Option PinDrive :=
  if n = 41 then some (if hirqPin d then .level false else .highZ)
  else if n = 42 then (nvPins d).map (fun p => .level p.2)
  else if n = 43 then (nvPins d).map (fun p => .level p.1)
  else if 83 ≤ n ∧ n ≤ 86 then some (.level (chrOutPin d (86 - n)))
  else if n = 93 then some (if faultLow d then .level false else .highZ)
  else if 94 ≤ n ∧ n ≤ 97 then some (.level ((vidPins d).testBit (97 - n)))
  else none

/-- What cell k captures: of pin k / 3 the level at the pin, the level its driver is given, or whether it drives (R570).  Where
State gives no level, a free value. DESIGN CHOICE (log 9), safe. -/
def captureCell (s : State) (k : Nat) : Bool :=
  let other := Config.free (s.dev.fresh + k) % 2 == 1
  let drive := match testDrive s.prot (k / 3) with
    | .device => unitDrive s.dev (k / 3)
    | x => some x
  match drive with
  | some (.level b) => if k % 3 = 2 then true else b
  | some _ => if k % 3 = 2 then false else other
  | none => other

/-- Bits 0 to 293 by a rule for each. -/
def scanBits (f : Nat → Bool) : BitVec 294 :=
  BitVec.ofNat 294 ((List.range 294).foldl (fun a k => if f k then a + 2 ^ k else a) 0)

/-! ### Instructions -/

/-- An opcode of the 6-bit instruction register: every one but 00h to 03h acts as BYPASS (R570). -/
def tapInstr (op : Nat) : Nat := if op % 64 < 4 then op % 64 else 0x3F

/-- A scan of the data register that the instruction selects: it captures, shifts and updates.  EXTEST and SAMPLE/PRELOAD
select the boundary register, whose captured cells leave by TDO, the one next to it first, while the bits of TDI take their
places and the latches; the others select the bypass register, which captures 0 (R570).  No command gives TDI's bits, so they
are free values. DESIGN CHOICE (log 9), safe. -/
def tapScan (s : State) : State :=
  let tdi (k : Nat) : Bool := Config.free (s.dev.fresh + 294 + k) % 2 == 1
  let p := s.prot
  let q := if p.jtag = 0 ∨ p.jtag = 1 then
      { p with
        cells := scanBits tdi, latches := scanBits tdi
        tdo := (List.range 294).map (fun k => captureCell s (293 - k)) }
    else { p with bypass := tdi 0, tdo := [false] }
  { s with prot := q, dev := { s.dev with fresh := s.dev.fresh + 588 } }

/-- An instruction loaded: EXTEST, CLAMP and HIGHZ hold the device in reset as if RESET_N were low; when another
follows one of them the device starts again at step 1 with PIN set (R571). -/
def jtagLoad (op : Nat) (s : State) : State :=
  let j := tapInstr op
  let held := jtagHolds j || s.held
  let s := { s with prot := { s.prot with jtag := j } }
  if held then resetState .pin s else s

/-- An instruction of the test access port: it is loaded; one that is in the register already, and SAMPLE/PRELOAD each time,
scans its data register. DESIGN CHOICE (log 40), safe. -/
def tapCommand (op : Nat) (s : State) : State :=
  if s.prot.jtag = tapInstr op ∨ tapInstr op = 1 then tapScan (jtagLoad op s) else jtagLoad op s

/-- EXTEST (R570). -/
def execExtest (s : State) : Host.Outcome State Fault Refusal := .next (tapCommand 0x00 s)

/-- SAMPLE/PRELOAD (R570). -/
def execSamplePreload (s : State) : Host.Outcome State Fault Refusal := .next (tapCommand 0x01 s)

/-- CLAMP (R570). -/
def execClamp (s : State) : Host.Outcome State Fault Refusal := .next (tapCommand 0x02 s)

/-- HIGHZ (R570). -/
def execHighz (s : State) : Host.Outcome State Fault Refusal := .next (tapCommand 0x03 s)

/-- BYPASS, as every opcode without an instruction acts (R570). -/
def execBypass (s : State) : Host.Outcome State Fault Refusal := .next (tapCommand 0x3F s)

/-- TEST_LOGIC_RESET: BYPASS is selected, and the device operates normally (R570, R571). -/
def execTestLogicReset (s : State) : Host.Outcome State Fault Refusal := .next (jtagLoad 0x3F s)

end Sys2Proof.Machine
end

