-- ==== Sys2Proof/Machine/Dispatch.lean ====
section
/-! DEFINITION. The dispatch: one arm for each command, each a call of that command's meaning. -/

namespace Sys2Proof.Machine

open Sys2Proof

/-- A command's effect on everything but the queue. -/
def exec (i : Instr) (s : State) : Host.Outcome State Fault Refusal :=
  match i with
  | .registerWrite addr value => Sys2Proof.Machine.execRegisterWrite addr value s
  | .lock value => Sys2Proof.Machine.execLock value s
  | .hostLowHalfRead ha => Sys2Proof.Machine.execHostLowHalfRead ha s
  | .hostHighHalfRead ha => Sys2Proof.Machine.execHostHighHalfRead ha s
  | .hostLowHalfWrite ha data be => Sys2Proof.Machine.execHostLowHalfWrite ha data be s
  | .hostHighHalfWrite ha data be => Sys2Proof.Machine.execHostHighHalfWrite ha data be s
  | .aonResponderRead ha => Sys2Proof.Machine.execAonResponderRead ha s
  | .aonWake value => Sys2Proof.Machine.execAonWake value s
  | .paramStoreHostWrite addr value be => Sys2Proof.Machine.execParamStoreHostWrite addr value be s
  | .paramStoreLanding => Sys2Proof.Machine.execParamStoreLanding s
  | .efRelease => Sys2Proof.Machine.execEfRelease s
  | .cfBoundary => Sys2Proof.Machine.execCfBoundary s
  | .refLost => Sys2Proof.Machine.execRefLost s
  | .refValid => Sys2Proof.Machine.execRefValid s
  | .engineEnable value => Sys2Proof.Machine.execEngineEnable value s
  | .engineDisable value => Sys2Proof.Machine.execEngineDisable value s
  | .clusterFrameDelivered c slack => Sys2Proof.Machine.execClusterFrameDelivered c slack s
  | .deadlineMiss c => Sys2Proof.Machine.execDeadlineMiss c s
  | .clusterFlush c => Sys2Proof.Machine.execClusterFlush c s
  | .guardWindowEnd => Sys2Proof.Machine.execGuardWindowEnd s
  | .guardStepDown => Sys2Proof.Machine.execGuardStepDown s
  | .vidWindowEnd => Sys2Proof.Machine.execVidWindowEnd s
  | .vidSettled => Sys2Proof.Machine.execVidSettled s
  | .vidSettleTimeout => Sys2Proof.Machine.execVidSettleTimeout s
  | .slackMinClear c value => Sys2Proof.Machine.execSlackMinClear c value s
  | .powerOnReset => Sys2Proof.Machine.execPowerOnReset s
  | .resetPin widthNs => Sys2Proof.Machine.execResetPin widthNs s
  | .softwareReset value => Sys2Proof.Machine.execSoftwareReset value s
  | .watchdogReset => Sys2Proof.Machine.execWatchdogReset s
  | .fallbackReset => Sys2Proof.Machine.execFallbackReset s
  | .strapLatch casPos xtalSel bootSrc => Sys2Proof.Machine.execStrapLatch casPos xtalSel bootSrc s
  | .nvmReset => Sys2Proof.Machine.execNvmReset s
  | .nvmResetWaitEnd => Sys2Proof.Machine.execNvmResetWaitEnd s
  | .firmwareStart => Sys2Proof.Machine.execFirmwareStart s
  | .reginitWrite addr value => Sys2Proof.Machine.execReginitWrite addr value s
  | .reginitSet addr value => Sys2Proof.Machine.execReginitSet addr value s
  | .reginitClear addr value => Sys2Proof.Machine.execReginitClear addr value s
  | .reginitPoll arg addr value => Sys2Proof.Machine.execReginitPoll arg addr value s
  | .reginitPollTimeout => Sys2Proof.Machine.execReginitPollTimeout s
  | .reginitDelay arg => Sys2Proof.Machine.execReginitDelay arg s
  | .reginitDelayEnd => Sys2Proof.Machine.execReginitDelayEnd s
  | .reginitFill arg addr value => Sys2Proof.Machine.execReginitFill arg addr value s
  | .waveStreamDone => Sys2Proof.Machine.execWaveStreamDone s
  | .foregroundCalibrationStart => Sys2Proof.Machine.execForegroundCalibrationStart s
  | .foregroundCalibrationDone => Sys2Proof.Machine.execForegroundCalibrationDone s
  | .engineStage => Sys2Proof.Machine.execEngineStage s
  | .continueBoot value => Sys2Proof.Machine.execContinueBoot value s
  | .retry value => Sys2Proof.Machine.execRetry value s
  | .hostPost value => Sys2Proof.Machine.execHostPost value s
  | .mgmtPost image => Sys2Proof.Machine.execMgmtPost image s
  | .almArbitrationRound => Sys2Proof.Machine.execAlmArbitrationRound s
  | .ephemerisDue idx => Sys2Proof.Machine.execEphemerisDue idx s
  | .almTick => Sys2Proof.Machine.execAlmTick s
  | .taskDispatch idx => Sys2Proof.Machine.execTaskDispatch idx s
  | .taskWorkDone idx => Sys2Proof.Machine.execTaskWorkDone idx s
  | .mgmtTaskDone idx => Sys2Proof.Machine.execMgmtTaskDone idx s
  | .hostCancel value => Sys2Proof.Machine.execHostCancel value s
  | .flush value => Sys2Proof.Machine.execFlush value s
  | .almDoneRead => Sys2Proof.Machine.execAlmDoneRead s
  | .noteOn idx => Sys2Proof.Machine.execNoteOn idx s
  | .deferredNoteArm => Sys2Proof.Machine.execDeferredNoteArm s
  | .noteOff idx => Sys2Proof.Machine.execNoteOff idx s
  | .polyPressure idx => Sys2Proof.Machine.execPolyPressure idx s
  | .cc idx => Sys2Proof.Machine.execCc idx s
  | .bankSelect idx => Sys2Proof.Machine.execBankSelect idx s
  | .sustain idx => Sys2Proof.Machine.execSustain idx s
  | .sostenuto idx => Sys2Proof.Machine.execSostenuto idx s
  | .allSoundOff idx => Sys2Proof.Machine.execAllSoundOff idx s
  | .resetAllControllers idx => Sys2Proof.Machine.execResetAllControllers idx s
  | .allNotesOff idx => Sys2Proof.Machine.execAllNotesOff idx s
  | .program idx => Sys2Proof.Machine.execProgram idx s
  | .pitchBend idx => Sys2Proof.Machine.execPitchBend idx s
  | .chanPressure idx => Sys2Proof.Machine.execChanPressure idx s
  | .paramSet idx => Sys2Proof.Machine.execParamSet idx s
  | .voiceKill idx => Sys2Proof.Machine.execVoiceKill idx s
  | .timerFire idx => Sys2Proof.Machine.execTimerFire idx s
  | .sysexDone idx ok => Sys2Proof.Machine.execSysexDone idx s ok
  | .user idx => Sys2Proof.Machine.execUser idx s
  | .firstSample v => Sys2Proof.Machine.execFirstSample v s
  | .stealFadeEnd v => Sys2Proof.Machine.execStealFadeEnd v s
  | .quenchSwitchOpen v => Sys2Proof.Machine.execQuenchSwitchOpen v s
  | .quenchEnd v => Sys2Proof.Machine.execQuenchEnd v s
  | .env0Complete v => Sys2Proof.Machine.execEnv0Complete v s
  | .sampleEndVoice v => Sys2Proof.Machine.execSampleEndVoice v s
  | .cacheLineFill c line => Sys2Proof.Machine.execCacheLineFill c line s
  | .waveCacheInval c value => Sys2Proof.Machine.execWaveCacheInval c value s
  | .pinnedLineInval c line => Sys2Proof.Machine.execPinnedLineInval c line s
  | .envSegmentEnd v env => Sys2Proof.Machine.execEnvSegmentEnd v env s
  | .glfoRestart value => Sys2Proof.Machine.execGlfoRestart value s
  | .adcOverload v => Sys2Proof.Machine.execAdcOverload v s
  | .biasFault v => Sys2Proof.Machine.execBiasFault v s
  | .swap c value => Sys2Proof.Machine.execSwap c value s
  | .swapAll c value => Sys2Proof.Machine.execSwapAll c value s
  | .fadeStart c => Sys2Proof.Machine.execFadeStart c s
  | .fadeEnd c => Sys2Proof.Machine.execFadeEnd c s
  | .skimmerCoefWrite c bank idx value => Sys2Proof.Machine.execSkimmerCoefWrite c bank idx value s
  | .skimmerReset c value => Sys2Proof.Machine.execSkimmerReset c value s
  | .synchronisingReset c => Sys2Proof.Machine.execSynchronisingReset c s
  | .skimmerValid c => Sys2Proof.Machine.execSkimmerValid c s
  | .measurementResult v => Sys2Proof.Machine.execMeasurementResult v s
  | .temperatureUpdate c => Sys2Proof.Machine.execTemperatureUpdate c s
  | .backgroundRunStart v => Sys2Proof.Machine.execBackgroundRunStart v s
  | .backgroundRunComplete v => Sys2Proof.Machine.execBackgroundRunComplete v s
  | .calReq value => Sys2Proof.Machine.execCalReq value s
  | .outputEnable value => Sys2Proof.Machine.execOutputEnable value s
  | .outputDisable value => Sys2Proof.Machine.execOutputDisable value s
  | .rangeChange value => Sys2Proof.Machine.execRangeChange value s
  | .rampUpDone idx => Sys2Proof.Machine.execRampUpDone idx s
  | .rampDownDone idx => Sys2Proof.Machine.execRampDownDone idx s
  | .rangeParkEnd idx => Sys2Proof.Machine.execRangeParkEnd idx s
  | .holdParkEnd idx => Sys2Proof.Machine.execHoldParkEnd idx s
  | .outputFault idx legN kind mv => Sys2Proof.Machine.execOutputFault idx legN kind mv s
  | .faultRampDone idx => Sys2Proof.Machine.execFaultRampDone idx s
  | .faultRetry idx => Sys2Proof.Machine.execFaultRetry idx s
  | .outFaultClear value => Sys2Proof.Machine.execOutFaultClear value s
  | .playerGo idx value => Sys2Proof.Machine.execPlayerGo idx value s
  | .playerStop idx value => Sys2Proof.Machine.execPlayerStop idx value s
  | .playerTrigger idx => Sys2Proof.Machine.execPlayerTrigger idx s
  | .playerEnd idx => Sys2Proof.Machine.execPlayerEnd idx s
  | .tdmPortEnable n value => Sys2Proof.Machine.execTdmPortEnable n value s
  | .tdmPortDisable n value => Sys2Proof.Machine.execTdmPortDisable n value s
  | .tdmPortStop n => Sys2Proof.Machine.execTdmPortStop n s
  | .tdmoFrame n => Sys2Proof.Machine.execTdmoFrame n s
  | .tdmiFrame n slots => Sys2Proof.Machine.execTdmiFrame n slots s
  | .tdmLock n phase => Sys2Proof.Machine.execTdmLock n phase s
  | .tdmSlip n => Sys2Proof.Machine.execTdmSlip n s
  | .tdmLoss n => Sys2Proof.Machine.execTdmLoss n s
  | .modeChange n value => Sys2Proof.Machine.execModeChange n value s
  | .divWrite n value => Sys2Proof.Machine.execDivWrite n value s
  | .rxFlush n value => Sys2Proof.Machine.execRxFlush n value s
  | .txFlush n value => Sys2Proof.Machine.execTxFlush n value s
  | .txBreak n value => Sys2Proof.Machine.execTxBreak n value s
  | .txBreakClear n value => Sys2Proof.Machine.execTxBreakClear n value s
  | .startBit n low level width => Sys2Proof.Machine.execStartBit n low s level width
  | .characterReceived n data parity stop => Sys2Proof.Machine.execCharacterReceived n data parity stop s
  | .receiverRearm n => Sys2Proof.Machine.execReceiverRearm n s
  | .breakDetected n => Sys2Proof.Machine.execBreakDetected n s
  | .lineDead n => Sys2Proof.Machine.execLineDead n s
  | .lineRecover n => Sys2Proof.Machine.execLineRecover n s
  | .serTxWrite n value => Sys2Proof.Machine.execSerTxWrite n value s
  | .characterSent n => Sys2Proof.Machine.execCharacterSent n s
  | .serRxRead n => Sys2Proof.Machine.execSerRxRead n s
  | .parserByte n => Sys2Proof.Machine.execParserByte n s
  | .sysexGapTimeout n => Sys2Proof.Machine.execSysexGapTimeout n s
  | .winAddrWrite value => Sys2Proof.Machine.execWinAddrWrite value s
  | .winDataRead => Sys2Proof.Machine.execWinDataRead s
  | .winDataWrite value be => Sys2Proof.Machine.execWinDataWrite value be s
  | .windowFill => Sys2Proof.Machine.execWindowFill s
  | .windowDrain => Sys2Proof.Machine.execWindowDrain s
  | .winAbort value => Sys2Proof.Machine.execWinAbort value s
  | .winDirChange => Sys2Proof.Machine.execWinDirChange s
  | .dramReady => Sys2Proof.Machine.execDramReady s
  | .moverGo c value => Sys2Proof.Machine.execMoverGo c value s
  | .moverBurst c => Sys2Proof.Machine.execMoverBurst c s
  | .moverDone c => Sys2Proof.Machine.execMoverDone c s
  | .moverAbort c value => Sys2Proof.Machine.execMoverAbort c value s
  | .patrolBorrow => Sys2Proof.Machine.execPatrolBorrow s
  | .patrolRestore pass => Sys2Proof.Machine.execPatrolRestore pass s
  | .patrolAbort => Sys2Proof.Machine.execPatrolAbort s
  | .chrTick c inc => Sys2Proof.Machine.execChrTick c inc s
  | .chrCapture c n => Sys2Proof.Machine.execChrCapture c n s
  | .captureSw c value => Sys2Proof.Machine.execCaptureSw c value s
  | .chrCapRead c n => Sys2Proof.Machine.execChrCapRead c n s
  | .chrStart value => Sys2Proof.Machine.execChrStart value s
  | .chrStop value => Sys2Proof.Machine.execChrStop value s
  | .chrClear c value => Sys2Proof.Machine.execChrClear c value s
  | .reloadWrite c value => Sys2Proof.Machine.execReloadWrite c value s
  | .chrInEdge k level => Sys2Proof.Machine.execChrInEdge k level s
  | .chrOutChange k => Sys2Proof.Machine.execChrOutChange k s
  | .pulseEnd k => Sys2Proof.Machine.execPulseEnd k s
  | .eventBusDelivery => Sys2Proof.Machine.execEventBusDelivery s
  | .evcStart value => Sys2Proof.Machine.execEvcStart value s
  | .evcStop value => Sys2Proof.Machine.execEvcStop value s
  | .evcClearAll value => Sys2Proof.Machine.execEvcClearAll value s
  | .evcClr n value => Sys2Proof.Machine.execEvcClr n value s
  | .evcFreeze value => Sys2Proof.Machine.execEvcFreeze value s
  | .powerBatch value => Sys2Proof.Machine.execPowerBatch value s
  | .agentAnswer d => Sys2Proof.Machine.execAgentAnswer d s
  | .agentDelayTimeout d => Sys2Proof.Machine.execAgentDelayTimeout d s
  | .powerNoAnswer d => Sys2Proof.Machine.execPowerNoAnswer d s
  | .domainEntry d => Sys2Proof.Machine.execDomainEntry d s
  | .domainWake d => Sys2Proof.Machine.execDomainWake d s
  | .wakeStepTimeout d failStep => Sys2Proof.Machine.execWakeStepTimeout d failStep s
  | .wakeRetry d => Sys2Proof.Machine.execWakeRetry d s
  | .padRelease value => Sys2Proof.Machine.execPadRelease value s
  | .wakeSource src => Sys2Proof.Machine.execWakeSource src s
  | .wakeDetectorRearm n => Sys2Proof.Machine.execWakeDetectorRearm n s
  | .sensorMeasurement temps supplies => Sys2Proof.Machine.execSensorMeasurement temps supplies s
  | .logEntryWrite => Sys2Proof.Machine.execLogEntryWrite s
  | .logMirrorWrite ok => Sys2Proof.Machine.execLogMirrorWrite ok s
  | .getInfo => Sys2Proof.Machine.execGetInfo s
  | .logAdd => Sys2Proof.Machine.execLogAdd s
  | .logSync ok => Sys2Proof.Machine.execLogSync s ok
  | .updBegin ok => Sys2Proof.Machine.execUpdBegin s ok
  | .updData ok => Sys2Proof.Machine.execUpdData s ok
  | .updDram ok => Sys2Proof.Machine.execUpdDram s ok
  | .updEnd ok => Sys2Proof.Machine.execUpdEnd s ok
  | .updAbort => Sys2Proof.Machine.execUpdAbort s
  | .rollbackAdv => Sys2Proof.Machine.execRollbackAdv s
  | .setPrefer ok => Sys2Proof.Machine.execSetPrefer s ok
  | .nvmId => Sys2Proof.Machine.execNvmId s
  | .nvmRead => Sys2Proof.Machine.execNvmRead s
  | .nvmErase ok => Sys2Proof.Machine.execNvmErase s ok
  | .nvmProg ok => Sys2Proof.Machine.execNvmProg s ok
  | .fwd => Sys2Proof.Machine.execFwd s
  | .mailboxResponse => Sys2Proof.Machine.execMailboxResponse s
  | .updateSessionTimeout => Sys2Proof.Machine.execUpdateSessionTimeout s
  | .updateReset => Sys2Proof.Machine.execUpdateReset s
  | .mgtFaultClear value => Sys2Proof.Machine.execMgtFaultClear value s
  | .linkEnable value => Sys2Proof.Machine.execLinkEnable value s
  | .linkDisable value => Sys2Proof.Machine.execLinkDisable value s
  | .rxAlignment port => Sys2Proof.Machine.execRxAlignment port s
  | .outboundSuperframe bytes codeOk hopLag => Sys2Proof.Machine.execOutboundSuperframe bytes codeOk hopLag s
  | .inboundSuperframe bytes codeOk => Sys2Proof.Machine.execInboundSuperframe bytes codeOk s
  | .directiveArm idx => Sys2Proof.Machine.execDirectiveArm idx s
  | .directiveState idx => Sys2Proof.Machine.execDirectiveState idx s
  | .directiveRetrig idx => Sys2Proof.Machine.execDirectiveRetrig idx s
  | .directiveWrite idx => Sys2Proof.Machine.execDirectiveWrite idx s
  | .directiveGlfo idx => Sys2Proof.Machine.execDirectiveGlfo idx s
  | .taskPacket => Sys2Proof.Machine.execTaskPacket s
  | .logPacket => Sys2Proof.Machine.execLogPacket s
  | .mgmtReq ok => Sys2Proof.Machine.execMgmtReq s ok
  | .mgmtRsp => Sys2Proof.Machine.execMgmtRsp s
  | .extest => Sys2Proof.Machine.execExtest s
  | .samplePreload => Sys2Proof.Machine.execSamplePreload s
  | .clamp => Sys2Proof.Machine.execClamp s
  | .highz => Sys2Proof.Machine.execHighz s
  | .bypass => Sys2Proof.Machine.execBypass s
  | .testLogicReset => Sys2Proof.Machine.execTestLogicReset s
  | .laneNoSignal port peerIdle => Sys2Proof.Machine.execLaneNoSignal port peerIdle s
  | .wakePatternPulse n width gap => Sys2Proof.Machine.execWakePatternPulse n width gap s

end Sys2Proof.Machine
end

