-- ==== Sys2Proof/Machine/Step.lean ====
section
/-! DEFINITION. One step of the block: the command at the front of the queue takes its effect. -/

namespace Sys2Proof.Machine

open Sys2Proof

/-- One step: the front command runs with the rest of the queue; on an empty queue the clock moves on: the
timed first steps of start-up, and one REFCLK period up to the last edge before the next release.  DESIGN CHOICE (log 1), safe. -/
def step (s : State) : Host.Outcome State Fault Refusal :=
  match s.pending with
  | [] => .next ((startUpTick s).onDev (fun d => edgeTick d.arbEnds))
  | c :: r => exec c { s with pending := r }

/-- The state with the command that a word spells put at the front of the queue; unchanged where the word spells
none. DESIGN CHOICE (log 1), safe. -/
def State.withFetchWord (s : State) (nbits w : Nat) : State :=
  match decodeTableWord nbits w with
  | some c => { s with pending := c :: s.pending }
  | none => s

end Sys2Proof.Machine
end

