-- ==== Sys2Proof/Safety.lean ====
section
/-! DEFINITION. What counts as a safe run, in the terms the statements use: a step that goes on, and the form
that the stores of the state keep. -/

namespace Sys2Proof.Machine

open Sys2Proof

/-- The step answers a next state. -/
def Goes (s : State) : Prop := ∃ t, step s = .next t

/-- Every byte bank, the flash and the register store are in canonical form: addresses strictly rising, and no entry
equal to what an unlisted address reads as. -/
def Memory.wf (s : State) : Bool :=
  cellsWf flashDflt s.prot.flash && cellsWf regReset s.dev.regs && cellsWf psDflt s.dev.mem.pstore &&
    cellsWf zeroByte s.dev.mem.mram && cellsWf zeroByte s.dev.mem.outwave && cellsWf (waveDflt s.dev) s.dev.mem.wave

/-- A command has its effect: exec answers a next state in which the queue and the protected state are as before and P
holds of the device. -/
def Yields (c : Instr) (s : State) (P : Dev → Prop) : Prop := ∃ d, exec c s = .next { s with dev := d } ∧ P d

/-- A command has its effect: exec answers a next state of which P holds. -/
def Answers (c : Instr) (s : State) (P : State → Prop) : Prop := ∃ t, exec c s = .next t ∧ P t

/-- A pool of tasks is well formed: its indices lie below 8,192 and no two entries share one (R115, R120). -/
def PoolOk (a : Alm) : Prop := (a.pool.map Task.idx).Nodup ∧ ∀ t ∈ a.pool, t.idx < 8192

/-- A task but for its place in a local slot: SLOTTED and READY alike (R132). -/
def Task.unslotted (t : Task) : Task := { t with state := if t.state = TaskState.slotted then TaskState.ready else t.state }

/-- Every task but those of a list is as before, but for what a round has put into the local slots (R132). -/
def TasksKept (e d : Dev) (l : List Nat) : Prop :=
  ∀ j, j ∉ l → (d.task? j).map Task.unslotted = (e.task? j).map Task.unslotted

/-- Every register outside a list reads as before. -/
def RegsKept (s : State) (d : Dev) (l : List Nat) : Prop := ∀ b, b ∉ l → d.reg b = s.dev.reg b

/-- A saturating 32-bit counter has counted one (R19). -/
def Counts (s : State) (d : Dev) (a : Nat) : Prop := d.fld a 31 0 = min (s.dev.fld a 31 0 + 1) (2 ^ 32 - 1)

/-- With room in the AON log queue, exactly one event has entered it, with this source, code, severity and data, at the
present EF (R503, R504). -/
def Logs (s : State) (d : Dev) (source code sev : Nat) (data : List Nat) : Prop :=
  s.dev.mgt.queue.length < 32 → ∃ e : LogEv, d.mgt = { s.dev.mgt with queue := s.dev.mgt.queue ++ [e] } ∧
    e.source = source ∧ e.code = code ∧ e.sev = sev ∧ e.data = data.map (BitVec.ofNat 8) ∧ e.ef = s.dev.now

/-- A write of a MIX, OUT or TDM register is held, and is due at release k + 2 (R342); no other register, and nothing
else of the device, changes. -/
def WriteDue (s : State) (d : Dev) (a : Nat) : Prop :=
  RegsKept s d [a] ∧ d.mix = { s.dev.mix with effDue := s.dev.mix.effDue ++ [(efAdd s.dev.now 2, a, d.reg a)] } ∧
  d = { s.dev with regs := d.regs, mix := d.mix }

/-- Of the device, only output channel i changes. -/
def OnlyChannel (s : State) (d : Dev) (i : Nat) : Prop :=
  d = { s.dev with outs := d.outs } ∧ ∀ j, j ≠ i → d.outCh j = s.dev.outCh j

/-- Of the device, only TDM port n changes. -/
def OnlyPort (s : State) (d : Dev) (n : Nat) : Prop :=
  d = { s.dev with tdm := d.tdm } ∧ d.tdm.pairs = s.dev.tdm.pairs ∧ ∀ j, j ≠ n → d.tdmPort j = s.dev.tdmPort j

/-- Every serial port but n is as before. -/
def OtherPorts (s : State) (d : Dev) (n : Nat) : Prop := d.ser.ports.length = s.dev.ser.ports.length ∧ ∀ j, j ≠ n → d.ser1 j = s.dev.ser1 j

/-- Of the device, only serial port n changes. -/
def OnlySerial (s : State) (d : Dev) (n : Nat) : Prop :=
  d = { s.dev with ser := d.ser } ∧ d.ser.bufs = s.dev.ser.bufs ∧ OtherPorts s d n

/-- A count in bits [hi:lo] of a register has risen by one, or stays at the field's top value. -/
def CountsFld (s : State) (d : Dev) (a hi lo : Nat) : Prop :=
  d.fld a hi lo = min (s.dev.fld a hi lo + 1) (2 ^ (hi + 1 - lo) - 1)

end Sys2Proof.Machine
end

