-- ==== Sys2Proof/Certificates/Slice0/Obligations.lean ====
section
/-! DEFINITION. The statements for the provers.  Each docstring names the rules it formalises; where a clause is the
model's own choice it names the log entry. -/

open Sys2Proof Sys2Proof.Machine

/-- A step runs the command at the front of the queue with the rest of the queue, and every command completes: it ends
in no fault and no refusal.  On an empty queue the block idles, but for the clock: the REFCLK edge counter moves on by one
edge while it runs, up to the last edge before the next release (R446), an arbitration of the power controller ends
(R473), and start-up's steps 1 and 2, which show in STAGE, pass by time (R99, R111).  The queue, its tick and a command
standing for its edge are the model's own: log 1. -/
def Obligations.StepRunsFrontCommand : Prop :=
  (∀ (c : Instr) (r : List Instr) (s : State), step { s with pending := c :: r } = exec c { s with pending := r }) ∧
  (∀ (c : Instr) (s : State), ∃ t, exec c s = .next t) ∧
  (∀ s : State, s.pending = [] → Stage.straps ≤ s.dev.stage ∨ s.held = true →
    s.dev.chrRuns = false ∨ s.dev.cnt.edge % 64 = 63 →
    step s = .next { s with dev := { s.dev with pwr := { s.dev.pwr with arb := [] } } }) ∧
  (∀ s : State, s.pending = [] → Stage.straps ≤ s.dev.stage ∨ s.held = true → s.dev.chrRuns = true → s.dev.cnt.edge % 64 ≠ 63 →
    ∃ d, step s = .next { s with dev := d } ∧ d.cnt.edge = s.dev.cnt.edge + 1 ∧
      d = { s.dev with pwr := { s.dev.pwr with arb := [] }, cnt := { s.dev.cnt with edge := d.cnt.edge, bus := d.cnt.bus } } ∧
      d.cnt.bus = s.dev.cnt.bus ++ (if watchesRefclk s.dev then [(s.dev.cnt.edge + 1, 3, 1)] else [])) ∧
  ∀ s : State, s.pending = [] → s.dev.stage < Stage.straps → s.held = false →
    ∃ d, step s = .next { s with dev := d } ∧ d.stage = s.dev.stage + 1 ∧
      d = { s.dev with regs := d.regs, cnt := d.cnt, pwr := { s.dev.pwr with arb := [] } } ∧ RegsKept s d [Reg.GLB_BOOT_STAT]

/-- The host writes a register.  One with no row of its own, in blocks GLB, PWR, MGT, CAS, MEM and ALC: RW fields take
the value written, RWL fields too while the lock is clear, W1C bits written 1 clear, every other bit and every other
register stays (R8, R12, R13); a locked RWL field that the write would change sets VIOL (R12).  A register of MIX, OUT or
TDM with no W1C bit holds the value for release k + 2 (R342), and one whose write starts a command is that command.  A
reserved address, a block whose domain is not ON, and a stage that takes no host writes ignore the write (R14, R22,
R102).  LOCK sets the lock, and VIOL clears by writing 1 (R11, R12).  What the port does for a row of a register write
while HOSTP is not ON or the stage is closed: log 42. -/
def Obligations.RegisterWriteFollowsAccessCodes : Prop :=
  (∀ (s : State) (a : Nat) (v : Word) (r : RegRow),
    ((a < 0x1000 ∧ ¬(0x40 ≤ a ∧ a < 0x80) ∧ a ∉ [Reg.GLB_VID, Reg.GLB_LOCK, Reg.GLB_RESET, Reg.GLB_FRAME_CTL, Reg.GLB_BOOT_CTL]) ∨
      (0x1000 ≤ a ∧ a < 0x2000 ∧ a ∉ [Reg.PWR_REQ, Reg.PWR_PAD_RELEASE, Reg.AON_WAKE]) ∨
      (0x5000 ≤ a ∧ a < 0x6000 ∧ a ∉ [Reg.MGT_MB_CTL, Reg.MGT_FAULT]) ∨
      (0x6000 ≤ a ∧ a < 0x7100 ∧ a ≠ Reg.CAS_CTL) ∨ (0xC000 ≤ a ∧ a < 0xD000 ∧ a ≠ Reg.ALC_GLFO_RESTART)) →
    rowOf a = some r → s.dev.isOn (blockDom a) = true → s.dev.isOn Dom.hostp = true → hostMayWrite s.dev a = true →
    Yields (.registerWrite a v) s (fun d =>
      d.reg a = Word.merge (s.dev.reg a) v (r.rw ||| (if s.prot.lock then 0 else r.rwl)) &&& ~~~(v &&& r.w1c) ∧
      (∀ b, b ≠ a → b ≠ Reg.GLB_LOCK → d.reg b = s.dev.reg b) ∧
      (s.prot.lock = true → (v ^^^ s.dev.reg a) &&& r.rwl ≠ 0 → d.flag Reg.GLB_LOCK 1 = true) ∧
      d.mem = s.dev.mem)) ∧
  (∀ (s : State) (a : Nat) (v : Word) (r : RegRow), ((0xD000 ≤ a ∧ a < 0xD400) ∨ (0xE018 ≤ a ∧ a < 0xF000)) →
    rowOf a = some r → r.w1c = 0 → s.dev.isOn (blockDom a) = true → hostTurn s.dev = true →
    Yields (.registerWrite a v) s (fun d => d.reg a = Word.merge (s.dev.reg a) v r.rw ∧ WriteDue s d a)) ∧
  (∀ (s : State) (v : Word) (a : Nat) (c : Instr), hostTurn s.dev = true → s.dev.isOn (blockDom a) = true →
    (a, c) ∈ [(Reg.PWR_REQ, Instr.powerBatch v), (Reg.PWR_PAD_RELEASE, .padRelease v), (Reg.AON_WAKE, .aonWake v),
      (Reg.CHR_START, .chrStart v), (Reg.CHR_STOP, .chrStop v), (Reg.MGT_FAULT, .mgtFaultClear v), (Reg.ALM_CTL, .flush v),
      (Reg.ALM_POST_GO, .hostPost v), (Reg.ALM_CANCEL, .hostCancel v), (Reg.ALC_GLFO_RESTART, .glfoRestart v),
      (Reg.OUT_FAULT, .outFaultClear v), (Reg.CAL_REQ, .calReq v), (Reg.WIN_ADDR, .winAddrWrite v)] →
    exec (.registerWrite a v) s = exec c s) ∧
  (∀ (s : State) (a : Nat) (v : Word), rowOf a = none ∨ s.dev.isOn (blockDom a) = false ∨ s.dev.isOn Dom.hostp = false ∨
    hostMayWrite s.dev a = false → exec (.registerWrite a v) s = .next s) ∧
  (∀ (s : State) (v : Word), v.getLsbD 0 = true → hostTurn s.dev = true →
    Answers (.lock v) s (fun t => t.prot = { s.prot with lock := true } ∧ t.pending = s.pending ∧
      (v.getLsbD 1 = true → t.dev.flag Reg.GLB_LOCK 1 = false) ∧ (v.getLsbD 1 = false → t.dev = s.dev)))

/-- Host reads of a store word: the low half is on HD and the high half is kept with its address, the read of that
high half returns what was kept and uses it up (R7, R407, R408).  Of a register with RC bits the low-half read returns and
keeps the word and clears those bits, and a high-half read alone returns the live half and clears nothing (R10); the
low-half read of ALM_DONE pops the done FIFO (R142); that of GLB_EF_LO keeps the whole EF counter, from which the reads of
GLB_EF_HI are answered (R64).  While HOSTP is not ON every read returns the half of AON_STATUS and nothing else changes
(R422), and before start-up step 1 is over HD is at high impedance (R404).

Host writes: the low half waits with its address and byte enables; the high half to that address commits the word,
here to the store's write queue with the enabled bytes; a high half with nothing held is ignored and sets ORPHAN (R409,
R411, R413).  A committed AON_WAKE with the key issues a wake of the named domain as a batch of its own (R423, R426).

The parameter store's host port: a committed write is queued with its EF, and at a release two EF later its bytes
are in the store, with every other byte as it was, once the release's notes have read the parts they play in (R411, R413);
a read on port H already sees it, and one on port V sees it from that release on (R48, R414).  In a closed stage the write is ignored (R102; log 42). -/
def Obligations.HostPortHalvesMoveWords : Prop :=
  (
  (∀ (s : State) (ha : Nat), s.dev.isOn Dom.hostp = true → ha % 2 = 0 → 0x80000 ≤ ha → ha < 0x100000 →
    s.dev.isOn Dom.ctrl = true → psReserved (2 * ha - 0x100000) = false →
    exec (.hostLowHalfRead ha) s = .next { s with dev := { s.dev with port := { s.dev.port with
      hd := some (Word.lowHalf (s.dev.readH (2 * ha - 0x100000)))
      snap := some (2 * ha, Word.highHalf (s.dev.readH (2 * ha - 0x100000))) } } }) ∧
  (∀ (s : State) (ha : Nat) (x : BitVec 16), s.dev.isOn Dom.hostp = true → ha % 2 = 1 → 0x80000 ≤ ha → ha < 0x100000 →
    s.dev.isOn Dom.ctrl = true → psReserved (2 * (ha - 1) - 0x100000) = false → s.dev.port.snap = some (2 * (ha - 1), x) →
    exec (.hostHighHalfRead ha) s = .next { s with dev := { s.dev with port := { s.dev.port with hd := some x, snap := none } } }) ∧
  (∀ (s : State) (ha : Nat) (r : RegRow), s.dev.isOn Dom.hostp = true → rowOf (2 * ha) = some r → r.rc ≠ 0 →
    (2 * ha < 0x2000 ∨ (0x5000 ≤ 2 * ha ∧ 2 * ha < 0xD000 ∧ 2 * ha ≠ Reg.ALM_DONE)) → s.dev.isOn (blockDom (2 * ha)) = true →
    (ha % 2 = 0 → Yields (.hostLowHalfRead ha) s (fun d =>
      d.port = { s.dev.port with
        hd := some (Word.lowHalf (regRead s (2 * ha))), snap := some (2 * ha, Word.highHalf (regRead s (2 * ha))) } ∧
      d.reg (2 * ha) = s.dev.reg (2 * ha) &&& ~~~r.rc ∧ RegsKept s d [2 * ha] ∧
      d = { s.dev with regs := d.regs, port := d.port })) ∧
    (ha % 2 = 0 → s.dev.port.snap = none → exec (.hostHighHalfRead (ha + 1)) s = .next { s with dev := { s.dev with
      port := { s.dev.port with hd := some (Word.highHalf (regRead s (2 * ha))) } } })) ∧
  (∀ (s : State) (e : Done) (l : List Done), s.dev.isOn Dom.hostp = true → s.dev.isOn Dom.ctrl = true →
    s.dev.alm.done = e :: l →
    exec (.hostLowHalfRead (Reg.ALM_DONE / 2)) s = .next { s with dev := { s.dev with
      alm := { s.dev.alm with done := l }
      port := { s.dev.port with
        hd := some (Word.lowHalf (regRead s Reg.ALM_DONE)), snap := some (Reg.ALM_DONE, Word.highHalf (regRead s Reg.ALM_DONE)) } } }) ∧
  (∀ s : State, s.dev.isOn Dom.hostp = true →
    exec (.hostLowHalfRead (Reg.GLB_EF_LO / 2)) s = .next { s with dev := { s.dev with port := { s.dev.port with
      hd := some (Word.lowHalf (regRead s Reg.GLB_EF_LO))
      snap := some (Reg.GLB_EF_LO, Word.highHalf (regRead s Reg.GLB_EF_LO))
      efLoHigh := some (Word.highHalf (regRead s Reg.GLB_EF_LO)), efHi := some (regRead s Reg.GLB_EF_HI) } } } ∧
    (∀ w, s.dev.port.efHi = some w →
      exec (.hostLowHalfRead (Reg.GLB_EF_HI / 2)) s = .next { s with dev := { s.dev with port := { s.dev.port with
        hd := some (Word.lowHalf w), snap := some (Reg.GLB_EF_HI, Word.highHalf w), efHi := none } } })) ∧
  (∀ (s : State) (ha : Nat) (c : Instr), s.dev.isOn Dom.hostp = false →
    c ∈ [Instr.aonResponderRead ha, .hostLowHalfRead ha, .hostHighHalfRead ha] →
    exec c s = .next { s with dev := { s.dev with port := { s.dev.port with
      hd := if Stage.straps ≤ s.dev.stage then
        some (if ha % 2 = 0 then Word.lowHalf (aonStatus s.dev) else Word.highHalf (aonStatus s.dev)) else none } } })) ∧ (
  (∀ (s : State) (ha : Nat) (x : BitVec 16) (be : BitVec 2), s.dev.isOn Dom.hostp = true → ha % 2 = 0 →
    Yields (.hostLowHalfWrite ha x be) s (fun d => d.port = { s.dev.port with hold := some ⟨2 * ha, x, be⟩ } ∧
      (s.dev.port.hold = none → d = { s.dev with port := d.port }) ∧ d.mem = s.dev.mem)) ∧
  (∀ (s : State) (ha : Nat) (lo hi : BitVec 16) (beLo beHi : BitVec 2), s.dev.isOn Dom.hostp = true → ha % 2 = 1 →
    0x80000 ≤ ha - 1 → ha < 0x100000 → s.dev.port.hold = some ⟨2 * (ha - 1), lo, beLo⟩ → s.dev.stage = Stage.run →
    s.dev.isOn Dom.ctrl = true → psReserved (2 * (ha - 1) - 0x100000) = false →
    exec (.hostHighHalfWrite ha hi beHi) s = .next { s with dev := { s.dev with port := { s.dev.port with
      hold := none
      hq := s.dev.port.hq ++ [⟨2 * (ha - 1) - 0x100000, Word.ofHalves lo hi, beHi ++ beLo, s.dev.now, false⟩] } } }) ∧
  (∀ (s : State) (ha : Nat) (x : BitVec 16) (be : BitVec 2), s.dev.isOn Dom.hostp = true → ha % 2 = 1 →
    s.dev.port.hold = none →
    Yields (.hostHighHalfWrite ha x be) s (fun d => d.flag Reg.GLB_HP_STAT 0 = true ∧
      (∀ b, b ≠ Reg.GLB_HP_STAT → d.reg b = s.dev.reg b) ∧ d = { s.dev with regs := d.regs })) ∧
  (∀ (s : State) (v : Word), v.bits 31 16 = 0x5AF0 → v.bits 4 0 < 30 → Stage.straps ≤ s.dev.stage →
    s.dev.isOn Dom.hostp = false ∨ stageOpen s.dev = true →
    exec (.aonWake v) s = .next { s with dev := (wakeBatch [v.bits 4 0]
      { s.dev with pwr := { s.dev.pwr with aonWakeDom := v.bits 4 0, aonWakeBusy := true } }) })) ∧ (
  (∀ (s : State) (a : Nat) (v : Word) (be : BitVec 4), s.dev.isOn Dom.ctrl = true → hostTurn s.dev = true →
    a < 0x100000 → a % 4 = 0 → psReserved a = false →
    Yields (.paramStoreHostWrite a v be) s (fun d =>
      d = { s.dev with port := { s.dev.port with hq := s.dev.port.hq ++ [⟨a, v, be, s.dev.now, false⟩] } } ∧
      (be = 15 → d.readH a = v))) ∧
  (∀ (s : State) (w : HWrite), s.dev.isOn Dom.ctrl = true → s.dev.timerRuns = true → notesSettled s.dev = true →
    s.dev.dueH = [w] → w.offset < 0x80000 → w.offset % 4 = 0 → w.be = 15 →
    s.dev.seen.ps32 w.offset = w.value.toNat ∧
    Yields .paramStoreLanding s (fun d =>
      d.port.hq = s.dev.port.hq.filter (fun x => !efReached s.dev.now (efAdd x.ef 2)) ∧ d.ps32 w.offset = w.value.toNat ∧
      (∀ b, b < w.offset ∨ w.offset + 4 ≤ b → d.ps8 b = s.dev.ps8 b) ∧ d.outs = s.dev.outs ∧ d.ser = s.dev.ser)) ∧
  (∀ (s : State) (a : Nat) (v : Word) (be : BitVec 4), hostTurn s.dev = false → exec (.paramStoreHostWrite a v be) s = .next s) ∧
  (∀ s : State, s.dev.timerRuns = false ∨ notesSettled s.dev = false ∨ s.dev.dueH = [] →
    exec .paramStoreLanding s = .next s))

/-- The frame timer's release: the EF counter goes up by 1 modulo 2^40 from the first release on, the audio side takes
ENG_EN, guard EF are counted while it is 1, and V_A is latched; the serial ports are untouched but for tasks their parsers
held, which the last round of the EF may take (R139); the release is the first REFCLK edge of its EF (R446), and it ends
an arbitration of the power controller (R473).  While the timer does not run nothing happens (R32, R41, R44, R60, R351).

At a CF boundary every global LFO takes its next value, once per boundary; away from a multiple of 4, or before the
first release, nothing happens (R35, R41, R242).  It reads the store with the host writes whose release has come (R48).

Frames of a cluster: one delivered on time has its slack, at most 63, recorded with the present frame; an older one
only ends; one that finishes on the release edge is not delivered (R42, R50, R58), nor is one that a flush covers (R59), nor
any while the frame timer does not run (R32).
A frame of an active cluster not delivered at its release is counted once, with LAST and MIN 0 (R50, R57); the fourth late EF of an open window raises STEPS, at most to 12 (R60).

Release k + 2 that finds frame k unfinished flushes the cluster: its queue holds the present frame alone, its
Skimmer is reset at the present release, and its held contribution fades (R59). -/
def Obligations.ReleasesAdvanceAndClustersDeliver : Prop :=
  (
  (∀ s : State, s.dev.timerRuns = true → Yields .efRelease s (fun d =>
    d.now = (if s.dev.frame.released then efAdd s.dev.now 1 else s.dev.now) ∧ d.frame.released = true ∧
    d.frame.audio = s.dev.engEn ∧ d.frame.guardEf = s.dev.frame.guardEf + (if s.dev.engEn then 1 else 0) ∧
    d.frame.refValid = true ∧ d.frame.steps = s.dev.frame.steps ∧
    d.mix.va = at_ s.dev.mgt.supplies 3 0 ∧ d.pwr = { s.dev.pwr with arb := [] } ∧ d.boot = s.dev.boot ∧
    d.cnt.edge = (s.dev.cnt.edge / 64 + 1) * 64 ∧
    ((∀ n, n < 4 → (s.dev.ser1 n).parser.hold = []) → d.ser = s.dev.ser))) ∧
  (∀ s : State, s.dev.timerRuns = false → exec .efRelease s = .next s)) ∧ (
  (∀ s : State, s.dev.timerRuns = true → s.dev.frame.released = true → s.dev.now % 4 = 0 → s.dev.aud.cfDone ≠ some s.dev.now →
    Yields .cfBoundary s (fun d => d.aud.cfDone = some s.dev.now ∧ d.now = s.dev.now ∧
      d.aud.glfo = (List.range 16).map (fun g => glfoStep s.dev.seen g (at_ s.dev.aud.glfo g GLfo.reset)) ∧
      d.alm = s.dev.alm ∧ d.par = s.dev.par ∧ d.mix = s.dev.mix ∧ d.outs = s.dev.outs ∧
      exec .cfBoundary { s with dev := d } = .next { s with dev := d })) ∧
  (∀ s : State, s.dev.now % 4 ≠ 0 ∨ s.dev.frame.released = false → exec .cfBoundary s = .next s)) ∧ (
  (∀ (s : State) (c n : Nat) (r : List Nat), c < 16 → s.dev.cluOn c = true → s.dev.timerRuns = true →
    (s.dev.clu c).due = s.dev.now :: r → 0 < n →
    (s.dev.clu c).flushAt ≠ some s.dev.now →
    Yields (.clusterFrameDelivered c n) s (fun d => d.frame.slackNow = s.dev.frame.slackNow ++ [(c, min n 63)] ∧
      d.mem = s.dev.mem ∧ d.alm = s.dev.alm ∧ d.par = s.dev.par ∧ d.mix = s.dev.mix ∧ d.outs = s.dev.outs)) ∧
  (∀ (s : State) (c n e : Nat) (r : List Nat), c < 16 → s.dev.cluOn c = true → s.dev.timerRuns = true →
    (s.dev.clu c).due = e :: r → e ≠ s.dev.now →
    (s.dev.clu c).flushAt ≠ some e →
    exec (.clusterFrameDelivered c n) s = .next { s with dev := s.dev.modClu c (fun x => { x with due := x.due.filter (· != e) }) }) ∧
  (∀ (s : State) (c n : Nat), (∀ e ∈ (s.dev.clu c).due, (s.dev.clu c).flushAt = some e) → exec (.clusterFrameDelivered c n) s = .next s) ∧
  (∀ (s : State) (c : Nat) (r : List Nat), (s.dev.clu c).due = s.dev.now :: r →
    (s.dev.clu c).flushAt ≠ some s.dev.now → exec (.clusterFrameDelivered c 0) s = .next s) ∧
  (∀ (s : State) (c n : Nat), s.dev.timerRuns = false → exec (.clusterFrameDelivered c n) s = .next s) ∧
  (∀ (s : State) (c : Nat), s.dev.active c = false → exec (.deadlineMiss c) s = .next s) ∧
  (∀ (s : State) (c : Nat), c < 16 → s.dev.active c = true → (s.dev.clu c).due.contains (efAdd s.dev.now (efWrap - 1)) = true →
    (s.dev.clu c).missAt ≠ some s.dev.now → c < s.dev.aud.clus.length →
    Yields (.deadlineMiss c) s (fun d =>
      (d.clu c).missAt = some s.dev.now ∧ d.frame.lateIdx = some (lateGuardEf s.dev) ∧
      (s.dev.frame.lateIdx ≠ some (lateGuardEf s.dev) → s.dev.frame.winOpen = true →
        lateGuardEf s.dev < s.dev.frame.winStart + 1024 → s.dev.frame.winLate = 3 →
        d.frame.steps = (if s.dev.frame.steps < 12 then s.dev.frame.steps + 1 else s.dev.frame.steps) ∧ d.frame.winOpen = false) ∧
      (s.dev.frame.winLate ≠ 3 → d.frame.steps = s.dev.frame.steps ∧ d.fld (Reg.GLB_SLACK c) 5 0 = 0 ∧
        d.fld (Reg.GLB_SLACK c) 13 8 = 0 ∧ d.fld Reg.GLB_FRAME_LATE 31 0 = min (s.dev.fld Reg.GLB_FRAME_LATE 31 0 + 1) (2 ^ 32 - 1)) ∧
      d.mix = s.dev.mix ∧ d.outs = s.dev.outs ∧ exec (.deadlineMiss c) { s with dev := d } = .next { s with dev := d }))) ∧ (
  ∀ (s : State) (c : Nat), c < 16 → c < s.dev.aud.clus.length → s.dev.active c = true → s.dev.timerRuns = true →
    (s.dev.clu c).due.contains (efAdd s.dev.now (efWrap - 2)) = true →
    (s.dev.clu c).flushAt ≠ some (efAdd s.dev.now (efWrap - 2)) →
    Yields (.clusterFlush c) s (fun d => (d.clu c).due = [s.dev.now] ∧ (d.clu c).flushAt = some s.dev.now ∧
      s.dev.now ∈ (d.clu c).resets ∧ (d.clu c).fadeAt = (if (s.dev.clu c).fadeAt.isNone then some s.dev.now else (s.dev.clu c).fadeAt) ∧
      (∀ k, k ≠ c → (d.clu k).due = (s.dev.clu k).due) ∧ d.mix = s.dev.mix ∧ d.alm = s.dev.alm ∧ d.outs = s.dev.outs))

/-- The deadline guard: an open window ends 1,024 guard EF after it began (R60); STEPS falls by 1 in the guard EF after
CLEAN reached 65,536, which is an occurrence of code 19 (R448), and CLEAN starts again (R61); MIN_CLR sets a cluster's MIN to 63 (R70).

The VID loop: at a window's end with slack below 16 the code goes up by 1, at most to 15, and a settling wait begins
(R54, R55), which is an occurrence of code 20 (R448); the rail's report ends the wait (R55), but not while the test port
holds the device in reset (R571); the third time-out in a row stops the loop with 1111b on the pins and
FAULT_N low (R55, R56). -/
def Obligations.GuardAndVidLoopsStep : Prop :=
  (
  (∀ s : State, s.dev.frame.winOpen = true → s.dev.frame.winStart + 1024 ≤ s.dev.frame.guardEf →
    exec .guardWindowEnd s = .next { s with dev := { s.dev with frame := { s.dev.frame with
      winOpen := false, winLate := 0, winSet := [] } } }) ∧
  (∀ s : State, s.dev.frame.guardEf < s.dev.frame.winStart + 1024 → exec .guardWindowEnd s = .next s) ∧
  (∀ s : State, s.dev.frame.audio = true → 0 < s.dev.frame.steps → 65536 ≤ s.dev.frame.clean →
    s.dev.frame.cleanAt ≠ some s.dev.now →
    Yields .guardStepDown s (fun d => d.frame = { s.dev.frame with steps := s.dev.frame.steps - 1, clean := 0, stepEf := true } ∧
      d.cnt.bus = s.dev.busWith 19 1 ∧ d.mem = s.dev.mem ∧ d.par = s.dev.par ∧ d.aud = s.dev.aud)) ∧
  (∀ s : State, s.dev.frame.steps = 0 ∨ s.dev.frame.clean < 65536 → exec .guardStepDown s = .next s) ∧
  (∀ (s : State) (c : Nat) (v : Word), c < 16 → v.getLsbD 15 = true → hostTurn s.dev = true →
    Yields (.slackMinClear c v) s (fun d => d.fld (Reg.GLB_SLACK c) 13 8 = 63 ∧
      d.fld (Reg.GLB_SLACK c) 7 0 = s.dev.fld (Reg.GLB_SLACK c) 7 0 ∧
      d.fld (Reg.GLB_SLACK c) 31 14 = s.dev.fld (Reg.GLB_SLACK c) 31 14 ∧
      (∀ b, b ≠ Reg.GLB_SLACK c → d.reg b = s.dev.reg b) ∧ d = { s.dev with regs := d.regs }))) ∧ (
  (∀ s : State, s.dev.frame.winDone = false → vidLoopRuns s.dev = true → s.dev.fld Reg.GLB_SLACK_DEV 21 16 < 16 →
    s.dev.frame.vid.settling = false → s.dev.frame.vid.code < 15 →
    Yields .vidWindowEnd s (fun d => vidPins d = s.dev.frame.vid.code + 1 ∧ d.frame.vid.settling = true ∧ d.frame.winDone = true ∧
      d.frame.vid.down = 0 ∧ d.cnt.bus = s.dev.busWith 20 1 ∧ d.par = s.dev.par ∧ d.outs = s.dev.outs)) ∧
  (∀ s : State, s.held = true → exec .vidSettled s = .next s) ∧
  (∀ s : State, s.held = false → s.dev.frame.vid.settling = true → s.dev.frame.vid.request = none →
    exec .vidSettled s = .next { s with dev := { s.dev with frame := { s.dev.frame with vid := { s.dev.frame.vid with
      settled := true, timeouts := 0, settling := false, request := none } } } }) ∧
  (∀ s : State, s.dev.frame.vid.settling = true → s.dev.frame.vid.timeouts = 2 →
    Yields .vidSettleTimeout s (fun d => vidPins d = 15 ∧ d.frame.vid.fault = true ∧ d.frame.vid.settling = false ∧
      faultLow d = true ∧ d.mem = s.dev.mem ∧ d.outs = s.dev.outs ∧ d.alm = s.dev.alm)) ∧
  (∀ s : State, s.dev.frame.vid.settling = false → exec .vidSettleTimeout s = .next s))

/-- The loss of REFCLK while CTRL is ON: REF_VALID clears and REF_LOST sets, every output parks at high impedance, and
the fault bit of the reference sets (R39).  When it is valid again the outputs stay parked and ramp as after a range
change, and REF_LOST stays (R40); register writes that waited for an edge of it take effect (R446; log 23).  Neither loses
the EF number.

A host's write that sets ENG_EN starts the audio pipelines at the next release, in HELD it moves the stage to RUN
(R44, R103), and one that clears it parks every output at once, its pins 4 EF later (R44, R349); the Almanac accepts while ENG_EN is 1 in RUN with the timer running (R122).  The family bit follows
the write while the lock is clear (R65, R12). -/
def Obligations.ReferenceAndEngineStartAndStop : Prop :=
  (
  (∀ s : State, s.dev.frame.refValid = true → s.dev.isOn Dom.ctrl = true →
    Yields .refLost s (fun d => d.frame.refValid = false ∧ d.timerRuns = false ∧ d.now = s.dev.now ∧
      d.flag Reg.GLB_REF_STAT 1 = true ∧ d.flag Reg.MGT_FAULT 0 = true ∧ (d.flag Reg.MGT_FAULT_EN 0 = true → faultLow d = true) ∧
      (∀ x ∈ d.outs, x.state = OutState.parked ∧ x.pin = (true, x.range, 0)) ∧
      d.mem = s.dev.mem ∧ d.par = s.dev.par ∧ d.aud = s.dev.aud)) ∧
  (∀ s : State, s.dev.frame.refValid = false → exec .refLost s = .next s) ∧
  (∀ s : State, s.dev.frame.refValid = false → s.dev.isOn Dom.ctrl = true →
    Yields .refValid s (fun d => d.frame.refValid = true ∧ d.now = s.dev.now ∧ d.cnt.wait = [] ∧ d.mem = s.dev.mem ∧
      d.par = s.dev.par ∧ d.mix = s.dev.mix ∧ d.pwr = s.dev.pwr)) ∧
  (∀ s : State, s.dev.frame.refValid = false → s.dev.isOn Dom.ctrl = true → s.dev.cnt.wait = [] →
    Yields .refValid s (fun d => d.frame.refValid = true ∧ d.timerRuns = true ∧ d.now = s.dev.now ∧
      (∀ a, d.reg a = s.dev.reg a) ∧
      (∀ c, c < 16 → c < s.dev.aud.clus.length → s.dev.active c = true → efAdd s.dev.now 1 ∈ (d.clu c).resets) ∧
      (s.dev.engEn = true → 0 < s.dev.frame.guardEf → ∀ i, i < s.dev.outs.length → (s.dev.effAt (efAdd s.dev.now 1) Reg.OUT_EN).getLsbD i = true →
        s.dev.outOn i = true → (d.outCh i).state = OutState.holdPark) ∧
      d.mem = s.dev.mem ∧ d.par = s.dev.par ∧ d.mix = s.dev.mix))) ∧ (
  (∀ (s : State) (v : Word), v.getLsbD 0 = true → s.dev.engEn = false → hostTurn s.dev = true → s.dev.stage ≠ Stage.held →
    Yields (.engineEnable v) s (fun d => d.engEn = true ∧ d.fam44 = (if s.prot.lock then s.dev.fam44 else v.getLsbD 1) ∧
      d.stage = s.dev.stage ∧ d.alm.accepting = (s.dev.stage == Stage.run && s.dev.timerRuns) ∧ d.frame = s.dev.frame ∧ d.mem = s.dev.mem ∧ d.par = s.dev.par)) ∧
  (∀ (s : State) (v : Word), v.getLsbD 0 = false → s.dev.engEn = true → hostTurn s.dev = true →
    Yields (.engineDisable v) s (fun d => d.engEn = false ∧ d.alm.accepting = false ∧
      (∀ x ∈ d.outs, x.state = OutState.parked ∧ x.w = 0) ∧ d.outs.map OutCh.pin = s.dev.outs.map OutCh.pin ∧
      d.fam44 = (if s.prot.lock then s.dev.fam44 else v.getLsbD 1) ∧
      d.frame = s.dev.frame ∧ d.mem = s.dev.mem ∧ d.par = s.dev.par ∧ d.mix = s.dev.mix)) ∧
  (∀ (s : State) (v : Word), v.getLsbD 0 = true → s.dev.engEn = false → s.dev.isOn Dom.hostp = true → s.dev.stage = Stage.held →
    Answers (.engineEnable v) s (fun t => t.dev.engEn = true ∧ t.dev.stage = Stage.run ∧ t.dev.mem = s.dev.mem)) ∧
  (∀ (s : State) (v : Word), s.dev.engEn = true → exec (.engineEnable v) s = .next s) ∧
  (∀ (s : State) (v : Word), s.dev.engEn = false → exec (.engineDisable v) s = .next s))

/-- Every reset returns the device to its reset state (R71): power-on reset, RESET_N from 1 µs (R72), GLB_RESET with its
key (R72), the reset that a successful update asked for (R513), the watchdog while the firmware runs (R498), and a
fallback reset of a failed slot (R106).  Reset causes add
up until power-on reset (R114).  The fuses and the flash stay, the marker survives a fallback reset alone, and LOCK
clears at power-on reset, RESET_N and its equivalents (R12, R72).  That LOCK stays at the other two is the model's reading
of R12 against R71 (log 16), and the note that both slots have failed, with the resets that keep it, is the model's own
(log 43). -/
def Obligations.ResetsReturnToTheResetState : Prop :=
  let after (s t : State) (lock both : Bool) (m : Option (Nat × Nat × Nat)) : Prop :=
    t.pending = s.pending ∧ t.prot = { s.prot with lock := lock, marker := m, markedBoth := both } ∧ t.dev.now = 0 ∧
      t.dev.frame = Dev.reset.frame ∧ t.dev.pwr = Dev.reset.pwr ∧ t.dev.alm = Dev.reset.alm ∧ t.dev.par = Dev.reset.par ∧
      t.dev.outs = Dev.reset.outs ∧ t.dev.mem.pstore = [] ∧ t.dev.mem.mram = [] ∧
      ∀ a, a ≠ Reg.GLB_RESET_CAUSE → a ≠ Reg.GLB_BOOT_STAT → t.dev.reg a = regReset a
  (∀ s : State, Answers .powerOnReset s (fun t => after s t false false none ∧ t.dev.reg Reg.GLB_RESET_CAUSE = 1 ∧ t.dev.stage = 0)) ∧
  (∀ (s : State) (w : Nat), 1000 ≤ w → Answers (.resetPin w) s (fun t => after s t false false none ∧ t.dev.stage = 0 ∧
    t.dev.reg Reg.GLB_RESET_CAUSE = s.dev.reg Reg.GLB_RESET_CAUSE ||| 2)) ∧
  (∀ s : State, s.dev.isOn Dom.hostp = true → Answers (.softwareReset 0x0000A5C3) s (fun t => after s t false false none ∧ t.dev.stage = 0 ∧
    t.dev.reg Reg.GLB_RESET_CAUSE = s.dev.reg Reg.GLB_RESET_CAUSE ||| 4)) ∧
  (∀ s : State, s.dev.mgt.resetDue = true → s.dev.mgt.response = none → Answers .updateReset s (fun t => after s t false false none ∧
    t.dev.stage = 0 ∧ t.dev.reg Reg.GLB_RESET_CAUSE = s.dev.reg Reg.GLB_RESET_CAUSE ||| 4)) ∧
  (∀ s : State, s.dev.mgt.resetDue = false → exec .updateReset s = .next s) ∧
  (∀ s : State, s.dev.isOn Dom.mgmt = true → s.dev.mgt.mode = 2 → Answers .watchdogReset s (fun t => after s t s.prot.lock false none ∧
    t.dev.reg Reg.GLB_RESET_CAUSE = s.dev.reg Reg.GLB_RESET_CAUSE ||| 8 ∧ t.dev.mgt.wdogLog = true)) ∧
  (∀ (s : State) (k e x : Nat), s.dev.boot.failed = true → s.prot.marker = some (k, e, x) → e < 256 → x < 64 →
    Answers .fallbackReset s (fun t => after s t s.prot.lock s.prot.markedBoth (some (k, e, x)) ∧ t.dev.fld Reg.GLB_BOOT_STAT 23 16 = e ∧
      t.dev.fld Reg.GLB_BOOT_STAT 29 24 = x ∧ t.dev.reg Reg.GLB_RESET_CAUSE = s.dev.reg Reg.GLB_RESET_CAUSE ||| 16))

/-- The state right after reset: the queue is empty, the EF counter is 0 and the timer stands, every domain but AON is
OFF, the engine is off, no task is pooled, no voice sounds, FAULT_N is low, VID shows 1111b, and the stores are clear
(R53, R71, R99, R111, R155, R430, R470).  The task pool is well formed there and memory in its canonical form. -/
def Obligations.ResetStateFollowsTheSpec : Prop :=
  State.reset.pending = [] ∧ State.reset.dev.now = 0 ∧ State.reset.dev.timerRuns = false ∧
  (∀ n, 0 < n → n < 30 → (State.reset.dev.dom n).state = DomState.off) ∧ State.reset.dev.isOn Dom.aon = true ∧
  State.reset.dev.engEn = false ∧ State.reset.dev.alm.pool = [] ∧
  (∀ v, v < 256 → (State.reset.dev.voice v).state = VState.free) ∧
  (∀ x ∈ State.reset.dev.outs, x.state = OutState.parked) ∧
  faultLow State.reset.dev = true ∧ vidPins State.reset.dev = 15 ∧
  State.reset.prot.lock = false ∧ (∀ a, State.reset.dev.ps8 a = (psDflt a).toNat) ∧ (∀ a, State.reset.dev.reg a = regReset a) ∧
  PoolOk State.reset.dev.alm ∧ Memory.wf State.reset = true

/-- The straps latch at step 2 and step 3 begins, with wakes of CTRL, MGMT, MEMC and HOSTP in that order (R73, R99,
R110); with all four ON and the DRAM initialised, or CTRL FAILED, the ROM starts step 4 in single-lane mode, and stays in
ROM_WAIT with BOOT_SRC = 10b (R76, R78, R107).  RETRY in NO_IMAGE or ROM_WAIT clears the marker and starts step 4 again as
if BOOT_SRC were 00b, CONTINUE in HELD sets ENG_EN and enters RUN, and both are
ignored at other stages (R112). -/
def Obligations.StrapsAndBootControls : Prop :=
  (∀ (s : State) (p : BitVec 3) (x : Bool) (b : BitVec 2), s.dev.stage ≤ Stage.straps → s.held = false →
    (∀ n ∈ [Dom.ctrl, Dom.mgmt, Dom.memc, Dom.hostp], (s.dev.dom n).phase = DomPhase.rest ∧ (s.dev.dom n).state = DomState.off) →
    s.dev.pwr.ready = [] → s.dev.pwr.doms.length = 30 →
    Yields (.strapLatch p x b) s (fun d => d.chainPos = p.toNat ∧ d.flag Reg.GLB_STRAP 4 = x ∧ d.fld Reg.GLB_STRAP 1 0 = b.toNat ∧
      d.stage = Stage.domains ∧ d.pwr.ready = [Dom.ctrl, Dom.mgmt, Dom.memc, Dom.hostp] ∧
      (∀ n ∈ [Dom.ctrl, Dom.mgmt, Dom.memc, Dom.hostp], (d.dom n).phase = DomPhase.waking) ∧
      d.mem = s.dev.mem ∧ d.frame = s.dev.frame)) ∧
  (∀ (s : State) (p : BitVec 3) (x : Bool) (b : BitVec 2), Stage.straps < s.dev.stage → exec (.strapLatch p x b) s = .next s) ∧
  (∀ s : State, s.dev.stage = Stage.domains → s.dev.isOn Dom.mgmt = true → s.dev.isOn Dom.hostp = true →
    (s.dev.isOn Dom.ctrl = true ∧ s.dev.isOn Dom.memc = true ∧ s.dev.mem.dramReady = true) ∨ (s.dev.dom Dom.ctrl).state = DomState.failed →
    Yields .nvmReset s (fun d =>
      (s.dev.fld Reg.GLB_STRAP 1 0 ≠ 2 → d.stage = Stage.rom ∧ d.boot = { s.dev.boot with nvmWait := true } ∧ d.flag Reg.GLB_BOOT_STAT 6 = false) ∧
      (s.dev.fld Reg.GLB_STRAP 1 0 = 2 → d.stage = Stage.romWait ∧ d.boot = s.dev.boot) ∧
      (∀ a, a ≠ Reg.GLB_BOOT_STAT → d.reg a = s.dev.reg a) ∧ d.mem = s.dev.mem ∧ d.pwr = s.dev.pwr)) ∧
  (∀ (s : State) (v : Word), v.getLsbD 1 = true → (s.dev.stage = Stage.noImage ∨ s.dev.stage = Stage.romWait) →
    s.dev.isOn Dom.hostp = true →
    Answers (.retry v) s (fun t => t.prot = { s.prot with marker := none, markedBoth := false } ∧ t.pending = s.pending ∧ t.dev.stage = Stage.rom ∧
      t.dev.boot = { s.dev.boot with nvmWait := true, tried := [], asNvm := true } ∧ t.dev.flag Reg.GLB_BOOT_STAT 6 = false ∧ t.dev.mem = s.dev.mem)) ∧
  (∀ (s : State) (v : Word), v.getLsbD 1 = false ∨ (s.dev.stage ≠ Stage.noImage ∧ s.dev.stage ≠ Stage.romWait) →
    exec (.retry v) s = .next s) ∧
  (∀ (s : State) (v : Word), v.getLsbD 0 = true → s.dev.stage = Stage.held → s.dev.isOn Dom.hostp = true →
    Answers (.continueBoot v) s (fun t => t.dev.stage = Stage.run ∧ t.dev.engEn = true ∧ t.dev.mem = s.dev.mem ∧
      t.pending = s.pending ∧ t.prot.floor = s.prot.floor)) ∧
  (∀ (s : State) (v : Word), v.getLsbD 0 = false ∨ s.dev.stage ≠ Stage.held → exec (.continueBoot v) s = .next s)

/-- The ROM reads the slots after the 100 µs.  The preferred slot, if its header and table pass, is accepted: its table is
kept, SLOT names it and RATEFAM follows it; the other is accepted where the preferred one is not (R76, R81, R84 to R86,
R105, R111).  With each slot refused or marked as failed the stage is NO_IMAGE, FAULT_N is low and the port is back in
recovery mode (R106, R107, R511).  An accepted slot's firmware is refused in place, or it starts: management RAM holds its
code and zeros, CODE_LEN = 0 encoding 163,840 (R18, R89), and the stage is LOAD, or NO_REF where CTRL has FAILED (R78, R90,
R100).

The late steps of start-up: the mover brings a streamed section to wave DRAM or to its output group's memory, and its
CRC is checked (R92, R93, R101); foreground calibration starts in every cell of a cluster that is ON and ends with every
run done (R100, R101, R327); the phase 01h lists come after it, and once they and the OFF requests are over the engine
stage ends in RUN with ENG_EN set, or with HOLD_ENGINE in HELD with ENG_EN = 0 (R99, R100, R103).  A section streams by
channel 2, under the mover's checks, once the phase 00h lists and the wakes of step 5 are over, and not past a borrow of
the flash or the target (R99, R101, R437, R441); the channel is the model's choice (log 43). -/
def Obligations.SlotsAreTriedAndStartUpEnds : Prop :=
  (
  let loaded (s r : State) : Prop := s.dev.stage = Stage.rom ∧ s.dev.boot.nvmWait = true ∧
    r = { s with dev := { s.dev with boot := recLoad s.prot.flash { s.dev.boot with nvmWait := false, tried := [] } } }
  let ready (s r : State) : Prop := loaded s r ∧ s.prot.marker = none ∧ s.prot.markedBoth = false
  let refused (s r : State) (k : Nat) : Prop := s.prot.markedBoth = true ∨ (∃ e x, s.prot.marker = some (k, e, x)) ∨
    headerErr r k ≠ 0 ∨ tableErr r k ≠ 0
  let taken (s r : State) (k : Nat) (t : State) : Prop := t.dev.stage = Stage.rom ∧ t.dev.slot = k ∧
    t.dev.boot = { r.dev.boot with
      tried := t.dev.boot.tried, sects := readTable r k, hdrSec := flashNat s.prot.flash (r.dev.boot.base k + 0x0C) 4
      hold := t.dev.boot.hold, wakeMask := t.dev.boot.wakeMask } ∧
    t.dev.fam44 = (flashNat s.prot.flash (r.dev.boot.base k + 0x13) 1 == 1) ∧
    t.dev.flag Reg.GLB_BOOT_STAT 5 = (k != r.dev.boot.prefer) ∧ t.prot = s.prot ∧ t.dev.mem = s.dev.mem ∧ t.pending = s.pending
  (∀ s r : State, ready s r → headerErr r r.dev.boot.prefer = 0 → tableErr r r.dev.boot.prefer = 0 →
    Answers .nvmResetWaitEnd s (taken s r r.dev.boot.prefer)) ∧
  (∀ s r : State, ready s r → headerErr r r.dev.boot.prefer ≠ 0 ∨ tableErr r r.dev.boot.prefer ≠ 0 →
    headerErr r (1 - r.dev.boot.prefer) = 0 → tableErr r (1 - r.dev.boot.prefer) = 0 →
    Answers .nvmResetWaitEnd s (taken s r (1 - r.dev.boot.prefer))) ∧
  (∀ s r : State, loaded s r → refused s r 0 → refused s r 1 →
    Answers .nvmResetWaitEnd s (fun t => t.dev.stage = Stage.noImage ∧ faultLow t.dev = true ∧ t.prot = s.prot ∧
      t.dev.boot.nvmWait = false ∧ t.dev.flag Reg.GLB_BOOT_STAT 6 = false ∧ t.dev.mem = s.dev.mem)) ∧
  (∀ s : State, s.dev.stage ≠ Stage.rom ∨ s.dev.boot.nvmWait = false → exec .nvmResetWaitEnd s = .next s) ∧
  (∀ (s : State) (x : Sect), s.dev.stage = Stage.rom → s.dev.boot.nvmWait = false → s.dev.isOn Dom.mgmt = true →
    firmwareSect s.dev.boot.sects = some x → firmwareErr s s.dev.slot x = 0 →
    Answers .firmwareStart s (fun t => t.dev.mgt.mode = 2 ∧ t.prot.flash = s.prot.flash ∧ t.prot.floor = s.prot.floor ∧
      t.prot.lock = s.prot.lock ∧ t.pending = s.pending ∧
      ((s.dev.dom Dom.ctrl).state = DomState.failed → t.dev.stage = Stage.noRef ∧ faultLow t.dev = true) ∧
      ((s.dev.dom Dom.ctrl).state ≠ DomState.failed → t.dev.stage = Stage.load) ∧
      (s.dev.boot.sects = [x] → s.dev.boot.lists = [] → t.prot = s.prot) ∧
      t.dev.mgt.secVersion = bodyNat (sectBody s s.dev.slot x) 8 4 ∧
      t.dev.mem.mram = cellPutBytes zeroByte [] 0 (((sectBody s s.dev.slot x).drop 64).take (codeLen (sectBody s s.dev.slot x))))) ∧
  (∀ (s : State) (x : Sect), s.dev.stage = Stage.rom → s.dev.boot.nvmWait = false → s.dev.isOn Dom.mgmt = true →
    s.dev.boot.sects = [x] → x.typ = 1 → firmwareErr s s.dev.slot x ≠ 0 →
    s.dev.slot < 2 → s.dev.boot.prefer < 2 → (1 - s.dev.slot) ∈ s.dev.boot.tried →
    Answers .firmwareStart s (fun t => t.dev.stage = Stage.noImage ∧ faultLow t.dev = true ∧ t.prot = s.prot ∧
      t.dev.flag Reg.GLB_BOOT_STAT 6 = false ∧ t.dev.mem = s.dev.mem))) ∧ (
  let streams (s : State) (x : Sect) (r : List Sect) (p : Nat) : Prop := s.dev.boot.streams = x :: r ∧
    x.crc = crc32 (sectBody s s.dev.slot x) ∧ 2 < s.dev.mem.movers.length ∧
    ((streamTaken (streamMove s x) s.dev = true ∧ p = (s.dev.mover 2).pos ∧
        moverBorrowed s.dev (s.dev.mover 2) ((streamMove s x).length - p) = false) ∨
      (streamTaken (streamMove s x) s.dev = false ∧ streamMay s.dev = true ∧ (streamMove s x).length ≠ 0 ∧
        moverReason s.dev 2 (streamMove s x) = 0 ∧ p = 0 ∧
        moverBorrowed s.dev (streamMove s x) (streamMove s x).length = false))
  let moved (s : State) (x : Sect) (p : Nat) : List Byte :=
    flashBytes s.prot.flash ((streamMove s x).src + p) ((streamMove s x).length - p)
  (∀ (s : State) (x : Sect) (r : List Sect) (p : Nat), streams s x r p → x.typ = 9 →
    Answers .waveStreamDone s (fun t => t.dev.boot.streams = r ∧ t.dev.boot.failed = s.dev.boot.failed ∧
      t.dev.mem.wave = (s.dev.waveRaw (bodyNat (sectBody s s.dev.slot x) 0 4 + p) (moved s x p)).mem.wave ∧
      t.dev.mem.outwave = s.dev.mem.outwave ∧ t.dev.mem.pstore = s.dev.mem.pstore ∧ t.dev.outs = s.dev.outs ∧ t.prot = s.prot)) ∧
  (∀ (s : State) (x : Sect) (r : List Sect) (p : Nat), streams s x r p → x.typ = 10 → streamOk 10 (sectBody s s.dev.slot x) = true →
    Answers .waveStreamDone s (fun t => t.dev.boot.streams = r ∧ t.dev.boot.failed = s.dev.boot.failed ∧
      t.dev.mem.outwave = (s.dev.owRaw (bodyNat (sectBody s s.dev.slot x) 0 1) (bodyNat (sectBody s s.dev.slot x) 2 2 + p)
        (moved s x p)).mem.outwave ∧
      t.dev.mem.wave = s.dev.mem.wave ∧ t.dev.mem.pstore = s.dev.mem.pstore ∧ t.dev.outs = s.dev.outs ∧ t.prot = s.prot)) ∧
  (∀ s : State, s.dev.boot.streams = [] → exec .waveStreamDone s = .next s) ∧
  (∀ (s : State) (x : Sect) (r : List Sect), s.dev.boot.streams = x :: r → streamTaken (streamMove s x) s.dev = false →
    s.dev.boot.lists ≠ [] ∨ anyWaking s.dev = true ∨ s.dev.isOn Dom.memc = false → exec .waveStreamDone s = .next s) ∧
  (∀ s : State, foregroundReady s.dev = true → Yields .foregroundCalibrationStart s (fun d => d.stage = Stage.cal ∧
    d.cal.fgBusy = true ∧ d.cal.runs.map CalRun.slot = (List.range 256).filter (fun v => s.dev.cluOn (cluOf v)) ∧
    d.mem = s.dev.mem ∧ d.alm = s.dev.alm ∧ d.outs = s.dev.outs)) ∧
  (∀ s : State, s.dev.cal.fgBusy = true → s.dev.cal.runs ≠ [] → (∀ r ∈ s.dev.cal.runs, r.step = 6) → s.dev.timerRuns = true →
    Yields .foregroundCalibrationDone s (fun d => d.cal.fgBusy = false ∧ d.boot = { s.dev.boot with calDone := true, sleeps := d.boot.sleeps } ∧
      (∀ n ∈ d.boot.sleeps, Dom.cal ≤ n ∧ s.dev.boot.wakeMask.testBit n = false) ∧
      d.frame = s.dev.frame ∧ d.outs = s.dev.outs)) ∧
  (∀ s : State, s.dev.boot.failed = false → s.dev.isOn Dom.mgmt = true → s.dev.stage = Stage.engine → s.dev.boot.lists = [] →
    s.dev.boot.delaying = false → s.dev.boot.sleeps = [] →
    Answers .engineStage s (fun t => t.dev.mem = s.dev.mem ∧ t.prot.floor = s.prot.floor ∧ t.pending = s.pending ∧
      (s.dev.boot.hold = false → t.dev.stage = Stage.run ∧ t.dev.engEn = true) ∧
      (s.dev.boot.hold = true → t.dev.stage = Stage.held ∧ t.dev.engEn = false))) ∧
  (∀ s : State, s.dev.stage = Stage.engine → s.dev.boot.sleeps ≠ [] → exec .engineStage s = .next s) ∧
  (∀ s : State, s.dev.boot.failed = false → s.dev.isOn Dom.mgmt = true → s.dev.stage = Stage.cal → s.dev.boot.calDone = true →
    s.dev.boot.streams = [] → (∃ y e es q, lists1 s = (y, e :: es) :: q ∧ 1 ≤ e.op ∧ e.op ≤ 6) →
    Answers .engineStage s (fun t => t.dev.stage = Stage.engine ∧ t.dev.boot = { s.dev.boot with lists1 := true, lists := lists1 s } ∧
      t.dev.mem = s.dev.mem ∧ t.prot = s.prot ∧ t.pending = s.pending)))

/-- Register initialisation entries, on registers of blocks GLB, PWR, MGT, CAS, MEM and ALC that rule R8 alone governs and
on store words: WRITE writes VALUE, SET and CLEAR read, combine and write back, FILL writes ARG words on end, POLL waits for
a bit, DELAY waits unless ARG is 0; a store word enters the H write queue (R413), where an entry that finds no room waits
(log 35).  Each completes before the next comes to the front, a POLL that times out fails the list and the slot, and with
no list nothing happens (R97, R98, R106). -/
def Obligations.RegisterListEntries : Prop :=
  let front (s : State) (e : RegEntry) : Prop := (∃ x es r, s.dev.boot.lists = (x, e :: es) :: r) ∧
    (s.dev.boot.streams = [] ∨ listsRest s.dev.boot.lists ≠ []) ∧
    ∀ y f fs q, listsRest s.dev.boot.lists = (y, f :: fs) :: q → 1 ≤ f.op ∧ f.op ≤ 6
  let plain (s : State) (a : Nat) (r : RegRow) : Prop :=
    ((a < 0x1000 ∧ ¬(0x40 ≤ a ∧ a < 0x80) ∧ a ∉ [Reg.GLB_VID, Reg.GLB_LOCK, Reg.GLB_RESET, Reg.GLB_FRAME_CTL, Reg.GLB_BOOT_CTL]) ∨
      (0x1000 ≤ a ∧ a < 0x2000 ∧ a ∉ [Reg.PWR_REQ, Reg.PWR_PAD_RELEASE, Reg.AON_WAKE]) ∨
      (0x5000 ≤ a ∧ a < 0x6000 ∧ a ∉ [Reg.MGT_MB_CTL, Reg.MGT_FAULT]) ∨
      (0x6000 ≤ a ∧ a < 0x7100 ∧ a ≠ Reg.CAS_CTL) ∨ (0xC000 ≤ a ∧ a < 0xD000 ∧ a ≠ Reg.ALC_GLFO_RESTART)) ∧
    rowOf a = some r ∧ r.rc = 0 ∧ s.dev.isOn (blockDom a) = true
  let written (s : State) (a : Nat) (r : RegRow) (w : Word) : Word :=
    Word.merge (s.dev.reg a) w (r.rw ||| r.rwl) &&& ~~~(w &&& r.w1c)
  let stored (s : State) (a k : Nat) (v : Word) : HWrite := ⟨a + 4 * k - 0x100000, v, 15, s.dev.now, true⟩
  let store (s : State) (a n : Nat) : Prop := 0x100000 ≤ a ∧ a + 4 * n ≤ 0x200000 ∧ a % 4 = 0 ∧ s.dev.isOn Dom.ctrl = true ∧
    ∀ k, k < n → psReserved (a + 4 * k - 0x100000) = false
  let done (s : State) (a : Nat) (w : Word) (t : State) : Prop :=
    t.dev.reg a = w ∧ (∀ b, b ≠ a → t.dev.reg b = s.dev.reg b) ∧ t.dev.boot.lists = listsRest s.dev.boot.lists ∧
      t.dev.mem = s.dev.mem ∧ t.prot = s.prot ∧ t.pending = s.pending
  (∀ (s : State) (a : Nat) (v : Word) (e : RegEntry) (r : RegRow), listsRun s.dev = true → front s e → plain s a r →
    s.prot.lock = false → e.addr = a → e.value = v →
    (e.op = 1 → Answers (.reginitWrite a v) s (done s a (written s a r v))) ∧
    (e.op = 2 → Answers (.reginitSet a v) s (done s a (written s a r ((mgmtRead a s).1 ||| v)))) ∧
    (e.op = 3 → Answers (.reginitClear a v) s (done s a (written s a r ((mgmtRead a s).1 &&& ~~~v)))) ∧
    (e.op = 4 → (mgmtRead a s).1 &&& v ≠ 0 → Answers (.reginitPoll e.arg a v) s (done s a (s.dev.reg a))) ∧
    (e.op = 4 → (mgmtRead a s).1 &&& v = 0 → exec (.reginitPoll e.arg a v) s =
      .next { s with dev := { s.dev with boot := { s.dev.boot with polling := true } } })) ∧
  (∀ (s : State) (a : Nat) (v : Word) (e : RegEntry), listsRun s.dev = true → front s e → e.op = 6 → e.addr = a → e.value = v →
    0 < e.arg → e.arg ≤ 1024 → (∀ k, k < e.arg → ∃ r, plain s (a + 4 * k) r) → s.prot.lock = false →
    Answers (.reginitFill e.arg a v) s (fun t =>
      (∀ k r, k < e.arg → rowOf (a + 4 * k) = some r → t.dev.reg (a + 4 * k) = written s (a + 4 * k) r v) ∧
      (∀ b, (∀ k, k < e.arg → b ≠ a + 4 * k) → t.dev.reg b = s.dev.reg b) ∧
      t.dev.boot.lists = listsRest s.dev.boot.lists ∧ t.dev.mem = s.dev.mem ∧ t.prot = s.prot ∧ t.pending = s.pending)) ∧
  (∀ (s : State) (a n : Nat) (v : Word) (e : RegEntry), listsRun s.dev = true → front s e → e.addr = a → e.value = v →
    store s a n → 0 < n → n ≤ 1024 → s.dev.hqMgmt + n ≤ 42 → s.dev.port.hq.length + n ≤ 256 →
    (e.op = 1 ∧ n = 1 → Answers (.reginitWrite a v) s (fun t => t.dev = { s.dev with
      port := { s.dev.port with hq := s.dev.port.hq ++ [stored s a 0 v] }, boot := t.dev.boot } ∧
      t.dev.boot.lists = listsRest s.dev.boot.lists ∧ t.prot = s.prot ∧ t.pending = s.pending)) ∧
    (e.op = 6 ∧ e.arg = n → Answers (.reginitFill n a v) s (fun t => t.dev = { s.dev with
      port := { s.dev.port with hq := s.dev.port.hq ++ (List.range n).map (fun k => stored s a k v) }, boot := t.dev.boot } ∧
      t.dev.boot.lists = listsRest s.dev.boot.lists ∧ t.prot = s.prot ∧ t.pending = s.pending))) ∧
  (∀ (s : State) (a : Nat) (v : Word) (e : RegEntry), listsRun s.dev = true → front s e → e.addr = a → e.value = v → e.op = 1 →
    store s a 1 → 42 ≤ s.dev.hqMgmt → exec (.reginitWrite a v) s = .next s) ∧
  (∀ (s : State) (e : RegEntry), listsRun s.dev = true → front s e → e.op = 5 → e.arg = 0 →
    exec (.reginitDelay 0) s = .next { s with dev := { s.dev with boot := { s.dev.boot with
      lists := listsRest s.dev.boot.lists, polling := false, delaying := false } } }) ∧
  (∀ (s : State) (e : RegEntry), listsRun s.dev = true → front s e → e.op = 5 → e.arg ≠ 0 →
    exec (.reginitDelay e.arg) s = .next { s with dev := { s.dev with boot := { s.dev.boot with delaying := true } } }) ∧
  (∀ (s : State) (e : RegEntry), front s e → s.dev.boot.delaying = true →
    exec .reginitDelayEnd s = .next { s with dev := { s.dev with boot := { s.dev.boot with
      lists := listsRest s.dev.boot.lists, polling := false, delaying := false } } }) ∧
  (∀ (s : State) (x : Nat) (es : List RegEntry) (r : List (Nat × List RegEntry)), s.dev.boot.polling = true →
    s.dev.boot.lists = (x, es) :: r →
    Answers .reginitPollTimeout s (fun t => t.dev.boot.failed = true ∧ t.dev.boot.lists = [] ∧
      t.prot.marker = some (s.dev.slot, 0x0A, x) ∧ t.prot.flash = s.prot.flash)) ∧
  (∀ (s : State) (a k : Nat) (v : Word), s.dev.boot.lists = [] →
    exec (.reginitWrite a v) s = .next s ∧ exec (.reginitSet a v) s = .next s ∧ exec (.reginitClear a v) s = .next s ∧
    exec (.reginitPoll k a v) s = .next s ∧ exec (.reginitFill k a v) s = .next s ∧ exec (.reginitDelay k) s = .next s)

/-- A RESET_N low pulse of 1 µs or longer always resets the device, one shorter than 100 ns never does, and one between
may or may not; 0000_A5C3h written to GLB_RESET resets as a pulse does, but for the cause it leaves, and any other value is
ignored (R72). -/
def Obligations.ResetPulsesAndTheResetKey : Prop :=
  let begun (t : State) : Prop := t.dev.stage = 0 ∧ t.dev.pwr = Dev.reset.pwr ∧ t.dev.frame = Dev.reset.frame ∧ t.dev.alm = Dev.reset.alm ∧
    t.dev.par = Dev.reset.par ∧ t.dev.outs = Dev.reset.outs ∧ t.dev.ser = Dev.reset.ser ∧ t.dev.mem.pstore = []
  (∀ (s : State) (w : Nat), 1000 ≤ w → Answers (.resetPin w) s begun) ∧
  (∀ (s : State) (w : Nat), w < 100 → exec (.resetPin w) s = .next s) ∧
  (∀ (s : State) (w : Nat), 100 ≤ w → w < 1000 → Answers (.resetPin w) s (fun t => begun t ∨
    t = { s with dev := { s.dev with fresh := t.dev.fresh } })) ∧
  (∀ (s : State) (w : Nat), 1000 ≤ w → s.dev.isOn Dom.hostp = true → ∃ t u, exec (.softwareReset 0x0000A5C3) s = .next t ∧ exec (.resetPin w) s = .next u ∧
    t.prot = u.prot ∧ t.pending = u.pending ∧ t.dev = { u.dev with regs := t.dev.regs } ∧
    ∀ a, a ≠ Reg.GLB_RESET_CAUSE → t.dev.reg a = u.dev.reg a) ∧
  (∀ (s : State) (v : Word), v ≠ 0x0000A5C3 → exec (.softwareReset v) s = .next s) ∧
  (∀ (s : State) (v : Word), s.dev.isOn Dom.aon = true → exec (.registerWrite Reg.GLB_RESET v) s = exec (.softwareReset v) s)

/-- While EXTEST, CLAMP or HIGHZ is in the instruction register the device is held in reset, and does not start; when
another instruction is loaded it starts again at step 1 with PIN set; test-logic reset of a device that is not held leaves
it as it is, and BYPASS does too (R571).  SAMPLE/PRELOAD captures the pins while the device runs and loads the boundary
register's latches, BYPASS selects a register of one bit that captures 0, EXTEST and CLAMP drive the output pins from the
latches, and HIGHZ drives none (R570).  The scan order, the enable's sense, the scan that a command makes and the free
values for TDI's bits are the model's choices (logs 9 and 40). -/
def Obligations.TestPortHoldsTheDeviceInReset : Prop :=
  let begun (t : State) (j : Nat) : Prop := t.prot.jtag = j ∧ t.dev.stage = 0 ∧ t.dev.pwr = Dev.reset.pwr ∧ t.dev.frame = Dev.reset.frame ∧
    t.dev.outs = Dev.reset.outs ∧ t.dev.alm = Dev.reset.alm ∧ t.dev.flag Reg.GLB_RESET_CAUSE 1 = true
  (∀ (s : State) (c : Instr) (j : Nat), (c, j) ∈ [(Instr.extest, 0), (.clamp, 2), (.highz, 3)] →
    Answers c s (fun t => begun t j ∧ t.pending = s.pending ∧ ∀ p x b, exec (.strapLatch p x b) t = .next t)) ∧
  (∀ (s : State) (c : Instr) (j : Nat), (c, j) ∈ [(Instr.samplePreload, 1), (.bypass, 63), (.testLogicReset, 63)] →
    s.held = true → Answers c s (fun t => begun t j ∧ t.held = false ∧ t.pending = s.pending)) ∧
  (∀ s : State, s.held = false → exec .testLogicReset s = .next { s with prot := { s.prot with jtag := 63 } } ∧
    (s.prot.jtag ≠ 63 → exec .bypass s = .next { s with prot := { s.prot with jtag := 63 } }) ∧
    (s.prot.jtag = 63 → Answers .bypass s (fun t => t.prot = { s.prot with bypass := t.prot.bypass, tdo := [false] } ∧
      t.dev = { s.dev with fresh := t.dev.fresh } ∧ t.pending = s.pending))) ∧
  (∀ s : State, s.held = false → Answers .samplePreload s (fun t => t.dev = { s.dev with fresh := t.dev.fresh } ∧
    t.pending = s.pending ∧ t.prot = { s.prot with jtag := 1, cells := t.prot.cells, latches := t.prot.latches, tdo := t.prot.tdo } ∧
    t.prot.latches = t.prot.cells ∧ t.prot.tdo.length = 294 ∧
    ∀ n b, n < 98 → unitDrive s.dev n = some (.level b) → t.prot.tdo.getD (293 - 3 * n) (!b) = b ∧
      t.prot.tdo.getD (292 - 3 * n) (!b) = b ∧ t.prot.tdo.getD (291 - 3 * n) false = true)) ∧
  (∀ (s : State) (c : Instr) (j : Nat), (c, j) ∈ [(Instr.extest, 0), (.clamp, 2)] → s.prot.jtag ≠ j →
    Answers c s (fun t => t.prot.latches = s.prot.latches ∧ ∀ n, scanKind n = .output →
      testDrive t.prot n = if s.prot.latches.getLsbD (3 * n + 2) then .level (s.prot.latches.getLsbD (3 * n + 1)) else .highZ)) ∧
  (∀ s : State, Answers .highz s (fun t => ∀ n, scanKind n ≠ .input → testDrive t.prot n = .highZ))

/-- Every step keeps the task pool well formed: no index is shared, and all lie below 8,192 (R115, R120). -/
def Obligations.TaskPoolStaysWellFormed : Prop := ∀ s t : State, PoolOk s.dev.alm → step s = .next t → PoolOk t.dev.alm

/-- A post is offered in a round of its own, behind the releases of the classes before it, and the round then fills the
local slots (R123, R132, R139).  A host's post is BAD, REFUSED or ACCEPTED, and ALM_POST_RES says so (R141, R148): BAD and
REFUSED pool nothing and set their status bits; an accepted immediate post is pooled READY with its flow's next SEQ and
the present EF (R120, R124, R126), an accepted post for a later tick WAITING (R135, R136).  The firmware's posts follow
the same rules with floor 0 and no result register (R124).  A write without GO posts nothing. -/
def Obligations.PostsAreAcceptedRefusedOrBad : Prop :=
  let hostWhy (d : Dev) (o : Offer) : Nat := refusal d (countOf (d.fld Reg.ALM_RESV 29 16) 8192) (o.atOnce d) o.typ o.flow
  let pooled (e : Dev) (o : Offer) (d : Dev) : Prop := ∃ t : Task, d.task? t.idx = some t ∧ e.task? t.idx = none ∧
    TasksKept e d [t.idx] ∧ t.typ = o.typ ∧ t.tag = o.tag ∧ t.flow = o.flow ∧ t.payload = o.payload ∧
    (o.atOnce e = true → t.state = TaskState.ready ∧ t.relEf = e.now ∧ t.gseq = e.alm.gseq ∧
      (o.flow < 96 → t.seq = at_ e.alm.seqs o.flow 0)) ∧
    (o.atOnce e = false → t.state = TaskState.waiting ∧ t.due = dueTick e o.flags o.due)
  (∀ (s : State) (v : Word) (o : Offer) (e : Dev), v.getLsbD 0 = true → s.dev.isOn Dom.ctrl = true → hostTurn s.dev = true →
    o = offerOf (stagedBytes s.dev) 4 → e = roundReleases s.dev →
    (badReason o (hostFlowOk s.dev o.typ o.flow) ≠ 0 → Yields (.hostPost v) s (fun d =>
      d.fld Reg.ALM_POST_RES 31 30 = 3 ∧ d.fld Reg.ALM_POST_RES 29 26 = badReason o (hostFlowOk s.dev o.typ o.flow) ∧
      d.flag Reg.ALM_IRQ_STAT 2 = true ∧ TasksKept e d [] ∧ d.alm.done = e.alm.done ∧ d.mem = s.dev.mem)) ∧
    (badReason o (hostFlowOk s.dev o.typ o.flow) = 0 → forwards s.dev o.flow = false → hostWhy e o ≠ 0 →
      Yields (.hostPost v) s (fun d => d.fld Reg.ALM_POST_RES 31 30 = 2 ∧ d.fld Reg.ALM_POST_RES 29 26 = hostWhy e o ∧
        d.flag Reg.ALM_IRQ_STAT 1 = true ∧ TasksKept e d [] ∧ d.alm.done = e.alm.done ∧ d.mem = s.dev.mem)) ∧
    (badReason o (hostFlowOk s.dev o.typ o.flow) = 0 → forwards s.dev o.flow = false → hostWhy e o = 0 → PoolOk s.dev.alm →
      Yields (.hostPost v) s (fun d => d.fld Reg.ALM_POST_RES 31 30 = 1 ∧ pooled e o d ∧ d.mem = s.dev.mem ∧ d.par = s.dev.par ∧
        d.outs = s.dev.outs))) ∧
  (∀ (s : State) (v : Word), v.getLsbD 0 = false → exec (.hostPost v) s = .next s) ∧
  (∀ (s : State) (im : List Word) (o : Offer) (e : Dev), s.dev.isOn Dom.ctrl = true → s.dev.isOn Dom.mgmt = true → s.dev.mgt.mode = 2 →
    im.length = 8 → o = offerOf (im.flatMap (fun w => leBytes 4 w.toNat)) 6 → badReason o (mgmtFlowOk o.typ o.flow) = 0 →
    forwards s.dev o.flow = false → e = roundReleases s.dev →
    (refusal e 0 (o.atOnce e) o.typ o.flow = 0 → PoolOk s.dev.alm →
      Yields (.mgmtPost im) s (fun d => pooled e o d ∧ d.mem = s.dev.mem ∧ d.par = s.dev.par ∧ d.outs = s.dev.outs)) ∧
    (refusal e 0 (o.atOnce e) o.typ o.flow ≠ 0 → Yields (.mgmtPost im) s (fun d => TasksKept e d [] ∧ d.alm.done = e.alm.done ∧
      d.mem = s.dev.mem)))

/-- A cancel is applied in a round, after its releases (R139).  It removes every matching task that can still be removed
and no other, with a CANCELLED entry of the done FIFO for each that has NOTIFY while there is room (R142), counts the
removed and the late ones in ALM_CANCEL_RES and the late ones in ALM_CNT_CANCEL_LATE, and drops matching deferred note-ons,
which count as late (R137, R138); FLUSH is the cancel that matches everything (R140).  That a deferred note-on of the
present EF is not counted twice is the model's choice (log 30).
A read of ALM_DONE takes the oldest entry away (R142). -/
def Obligations.CancelsRemoveMatchingTasks : Prop :=
  let removes (s : State) (e : Dev) (pick : Nat → Nat → Bool) (d : Dev) : Prop :=
    let hit (t : Task) : Bool := pick t.tag t.flow
    let late : Nat := (e.alm.pool.filter (fun t => hit t && t.tooLate e.now)).length +
      (e.alm.committed.filter (fun c => pick c.tag c.flow)).length +
      (e.par.deferred.filter (fun x => pick x.tag x.flow && !(e.alm.committed.contains ⟨x.tag, x.flow⟩ && x.since == e.now))).length
    d.fld Reg.ALM_CANCEL_RES 15 0 = (e.alm.pool.filter (fun t => hit t && !t.tooLate e.now)).length ∧
    d.fld Reg.ALM_CANCEL_RES 31 16 = late % 65536 ∧
    d.fld Reg.ALM_CNT_CANCEL_LATE 31 0 = min (s.dev.fld Reg.ALM_CNT_CANCEL_LATE 31 0 + late) (2 ^ 32 - 1) ∧
    (late ≠ 0 → d.flag Reg.ALM_IRQ_STAT 3 = true) ∧
    (e.alm.done.length ≤ 64 → d.alm.done = (e.alm.done ++ (e.alm.pool.filter (fun t => hit t && !t.tooLate e.now && t.notify)).map
      (fun t => ({ status := 1, ef := e.now % 4096, tag := t.tag } : Done))).take 64) ∧
    (∀ t ∈ d.alm.pool, ∃ u ∈ e.alm.pool, u.unslotted = t.unslotted ∧ (hit u = true → u.tooLate e.now = true)) ∧
    (∀ u ∈ e.alm.pool, hit u = false ∨ u.tooLate e.now = true → ∃ t ∈ d.alm.pool, t.unslotted = u.unslotted) ∧
    d.mem = s.dev.mem ∧ d.aud = s.dev.aud ∧ d.outs = s.dev.outs ∧ d.par.voices = s.dev.par.voices
  (∀ (s : State) (v : Word) (e : Dev), s.dev.isOn Dom.ctrl = true → hostTurn s.dev = true → PoolOk s.dev.alm → e = roundReleases s.dev →
    let pick (tag flow : Nat) : Bool := cancelHits (s.dev.fld Reg.ALM_CANCEL_SCOPE 7 0) (v.bits 15 0) (v.bits 31 16) tag flow
    Yields (.hostCancel v) s (fun d => removes s e pick d ∧ ∀ x ∈ d.par.deferred, pick x.tag x.flow = false)) ∧
  (∀ (s : State) (v : Word) (e : Dev), s.dev.isOn Dom.ctrl = true → hostTurn s.dev = true → PoolOk s.dev.alm → v.getLsbD 0 = true →
    e = roundReleases s.dev → Yields (.flush v) s (fun d => removes s e (fun _ _ => true) d ∧ d.par.deferred = [])) ∧
  (∀ (s : State) (v : Word), v.getLsbD 0 = false → v.getLsbD 31 = false → exec (.flush v) s = .next s) ∧
  (∀ s : State, s.dev.isOn Dom.ctrl = true →
    exec .almDoneRead s = .next { s with dev := { s.dev with alm := { s.dev.alm with done := s.dev.alm.done.tail } } })

/-- The moves of a task: the due ephemeris task whose turn it is, behind the returned tasks, is released READY with the
present EF (R122, R125, R126), its target takes the first of its local slot ACTIVE and finishes it DONE (R126, R132), the
management processor none while its domain is not ON (R497), the firmware marks its own task with the EF (R128), a tick
that has begun is counted, and is an occurrence of code 4 (R134, R448), and a round leaves no local slot with more than two tasks (R132). -/
def Obligations.TasksMoveThroughTheirStates : Prop :=
  (∀ (s : State) (i : Nat) (t u : Task) (e : Dev), PoolOk s.dev.alm → s.dev.isOn Dom.ctrl = true → s.dev.task? i = some u →
    u.ephDue s.dev = true → e = releaseReturned 128 s.dev →
    firstBy ephLt (e.alm.pool.filter (fun t => t.ephDue e && canRelease e t)) = some t → t.idx = i →
    Yields (.ephemerisDue i) s (fun d => d.task? i = some { t with
        state := .ready, seq := if t.flow < 96 then at_ e.alm.seqs t.flow 0 else 0, gseq := e.alm.gseq
        relEf := s.dev.now, target := targetOf s.dev t.typ t.payload, returned := false } ∧
      (∀ j, j ≠ i → d.task? j = e.task? j) ∧ d.alm.gseq = s.dev.alm.gseq + 1 ∧ d.mem = s.dev.mem ∧ d.par = s.dev.par)) ∧
  (∀ (s : State) (i : Nat) (t : Task), PoolOk s.dev.alm → s.dev.isOn Dom.ctrl = true → s.dev.task? i = some t → t.state = .slotted →
    nextSlotted s.dev t.target = some t → (t.target = tgtMgmt → s.dev.isOn Dom.mgmt = true) →
    Yields (.taskDispatch i) s (fun d => d.task? i = some { t with state := .active } ∧ TasksKept s.dev d [i] ∧ d.regs = s.dev.regs ∧
      d.mem = s.dev.mem ∧ d.par = s.dev.par)) ∧
  (∀ (s : State) (i : Nat) (t : Task), s.dev.task? i = some t → t.target = tgtMgmt → s.dev.isOn Dom.mgmt = false →
    exec (.taskDispatch i) s = .next s) ∧
  (∀ (s : State) (i : Nat) (t : Task), s.dev.isOn Dom.ctrl = true → s.dev.task? i = some t → t.state = .active → t.target ≠ tgtMgmt →
    exec (.taskWorkDone i) s = .next { s with dev := s.dev.modTask i (fun t => { t with state := .done }) }) ∧
  (∀ (s : State) (i : Nat) (t : Task), s.dev.isOn Dom.ctrl = true → s.dev.isOn Dom.mgmt = true → s.dev.mgt.mode = 2 →
    s.dev.task? i = some t → t.state = .active → t.target = tgtMgmt →
    exec (.mgmtTaskDone i) s = .next { s with dev := s.dev.modTask i (fun t => { t with state := .done, doneEf := s.dev.now }) }) ∧
  (∀ s : State, s.dev.isOn Dom.ctrl = true → s.dev.alm.tickDue ≠ 0 →
    Yields .almTick s (fun d => d.alm.tick = (s.dev.alm.tick + 1) % 2 ^ 32 ∧ d.alm.tickDue = s.dev.alm.tickDue - 1 ∧
      d.alm.pool = s.dev.alm.pool ∧ d.cnt.bus = s.dev.busWith 4 1 ∧ d.regs = s.dev.regs ∧ d.mem = s.dev.mem)) ∧
  (∀ s : State, s.dev.isOn Dom.ctrl = true → PoolOk s.dev.alm → (∀ tg, s.dev.slotted tg ≤ 2) →
    Yields .almArbitrationRound s (fun d => (∀ tg, d.slotted tg ≤ 2) ∧ d.alm.roundRel = [] ∧
      d.mem = s.dev.mem ∧ d.par = s.dev.par ∧ d.aud = s.dev.aud ∧ d.outs = s.dev.outs))

/-- Every commit takes its task out of the pool, keeps its tag and flow for late cancels, and with NOTIFY puts an entry
of the present EF into the done FIFO (R126, R137, R142); a task whose turn it is not stays, and nothing changes (R129).
USER's entry enters the firmware's ring, behind no other (R503, R507; where it waits, and the queue it takes while no
firmware runs: log 26). -/
def Obligations.CommitsFreeTheirTask : Prop :=
  let freed (s : State) (i : Nat) (t : Task) (d : Dev) : Prop :=
    d.alm.pool = s.dev.alm.pool.filter (fun u => u.idx != i) ∧ d.alm.committed = s.dev.alm.committed ++ [⟨t.tag, t.flow⟩] ∧
      (t.notify = false → d.alm.done = s.dev.alm.done) ∧
      (t.notify = true → s.dev.alm.done.length < 64 → ∃ st, d.alm.done = s.dev.alm.done ++ [{ status := st, ef := s.dev.now % 4096, tag := t.tag }]) ∧
      d.frame = s.dev.frame ∧ d.mix = s.dev.mix ∧ d.outs = s.dev.outs ∧ d.tdm = s.dev.tdm ∧ d.ser = s.dev.ser ∧
      d.pwr = s.dev.pwr ∧ d.boot = s.dev.boot
  let rows (i : Nat) : List (Instr × (Task → Bool)) :=
    [(.noteOn i, fun t => t.typ == Typ.noteOn), (.noteOff i, fun t => t.typ == Typ.noteOff),
     (.polyPressure i, fun t => t.typ == Typ.polyPressure), (.program i, fun t => t.typ == Typ.program),
     (.pitchBend i, fun t => t.typ == Typ.pitchBend), (.chanPressure i, fun t => t.typ == Typ.chanPressure),
     (.paramSet i, fun t => t.typ == Typ.paramSet), (.voiceKill i, fun t => t.typ == Typ.voiceKill),
     (.timerFire i, fun t => t.typ == Typ.timerFire), (.bankSelect i, isCc [0, 32]), (.sustain i, isCc [64]),
     (.sostenuto i, isCc [66]), (.allSoundOff i, isCc [120]), (.resetAllControllers i, isCc [121]), (.allNotesOff i, isCc [123]),
     (.cc i, fun t => t.typ == Typ.cc && !ownCcs.contains (pay8 t.payload 2))]
  (∀ (s : State) (i : Nat) (t : Task), ∀ r ∈ rows i, commits s.dev i r.2 = some t → Yields r.1 s (freed s i t)) ∧
  (∀ (s : State) (i : Nat), ∀ r ∈ rows i, commits s.dev i r.2 = none → exec r.1 s = .next s) ∧
  (∀ (s : State) (i : Nat) (t : Task), commits s.dev i (fun t => t.typ == Typ.user) = some t →
    Yields (.user i) s (fun d => freed s i t d ∧
      (firmwareUp s.dev = true → s.dev.par.deferred = [] → s.dev.mgt.own = [] → logBlocked s.dev = false →
        s.dev.mgt.wdogLog = false → s.dev.mgt.lost = 0 → d.mgt.total = s.dev.mgt.total + 1 ∧ d.mgt.queue = s.dev.mgt.queue ∧
        d.mramBytes (logRing + 16 * (s.dev.mgt.total % 4096)) 16 = logBytes
          { ef := s.dev.now, noref := !s.dev.timerRuns, source := 0x0D, code := pay8 t.payload 0, sev := 0, pos := s.dev.pos
            fwd := false, data := t.payload.drop 4 } ∧ d.mem = { s.dev.mem with mram := d.mem.mram }))) ∧
  (∀ (s : State) (i : Nat) (t : Task), commits s.dev i (fun t => t.typ == Typ.sysexDone) = some t →
    ∀ ok, Answers (.sysexDone i ok) s (fun u => ∀ x ∈ u.dev.alm.pool, x.idx ≠ i)) ∧
  (∀ (s : State) (i : Nat), (commits s.dev i (fun t => t.typ == Typ.user) = none → exec (.user i) s = .next s) ∧
    (commits s.dev i (fun t => t.typ == Typ.sysexDone) = none → ∀ ok, exec (.sysexDone i ok) s = .next s)) ∧
  (∀ (s : State) (i : Nat) (t : Task), commits s.dev i (fun t => t.typ == Typ.timerFire) = some t → t.notify = false →
    s.dev.par.deferred = [] →
    Yields (.timerFire i) s (fun d => d.cnt.bus = s.dev.busWith 5 1 ∧ d.mem = s.dev.mem ∧ d.par = s.dev.par ∧ d.regs = s.dev.regs))

/-- Controllers reach the records of every part that matches port and channel: the value goes to the part's controller
table (R168), BANK takes its half from CC0 or CC32, the pedals follow CC64 and CC66 from 64 on where SUSTAIN_EN is 1, and
CC121 puts bend, pressure and pedals back (R169).  Deferred note-ons arm ahead of it (R177), and a byte that port H has
landed at the same release stays (R415). -/
def Obligations.ControllersReachPartRecords : Prop :=
  let clear (e : Dev) (a n : Nat) : Prop := ∀ b, a ≤ b → b < a + n → e.keptByH b = false
  let parts (e : Dev) (pay : List Byte) : List Nat := (matchParts e (fun c => c.hears (pay8 pay 0) (pay8 pay 1))).1
  (∀ (s : State) (e : Dev) (i : Nat) (t : Task), e = deferredFirst s.dev → commits s.dev i (fun t => t.typ == Typ.cc && !ownCcs.contains (pay8 t.payload 2)) = some t →
    pay8 t.payload 2 < 128 → Yields (.cc i) s (fun d => ∀ p ∈ parts e t.payload,
      clear e (partRec p) 256 → d.ps8 (ccAt p (pay8 t.payload 2)) = ccValue t.payload)) ∧
  (∀ (s : State) (e : Dev) (i : Nat) (t : Task), e = deferredFirst s.dev → commits s.dev i (isCc [0, 32]) = some t → Yields (.bankSelect i) s (fun d =>
    ∀ p ∈ parts e t.payload, clear e (partRec p) 256 → d.ps8 (ccAt p (pay8 t.payload 2)) = ccValue t.payload ∧
      (pay8 t.payload 2 = 0 → d.ps16 (partRec p + 0x24) = ccValue t.payload * 128 + e.ps16 (partRec p + 0x24) % 128) ∧
      (pay8 t.payload 2 = 32 → d.ps16 (partRec p + 0x24) = e.ps16 (partRec p + 0x24) / 128 % 128 * 128 + ccValue t.payload))) ∧
  (∀ (s : State) (e : Dev) (i : Nat) (t : Task), e = deferredFirst s.dev → commits s.dev i (isCc [64]) = some t → Yields (.sustain i) s (fun d =>
    ∀ p ∈ parts e t.payload, clear e (partRec p) 256 → d.ps8 (ccAt p 64) = ccValue t.payload ∧
      ((readPart e p).sustainEn = true → (d.ps8 (partRec p + 0x23)).testBit 0 = decide (64 ≤ ccValue t.payload)) ∧
      ((readPart e p).sustainEn = false → d.ps8 (partRec p + 0x23) = e.ps8 (partRec p + 0x23)))) ∧
  (∀ (s : State) (e : Dev) (i : Nat) (t : Task), e = deferredFirst s.dev → commits s.dev i (isCc [66]) = some t → Yields (.sostenuto i) s (fun d =>
    ∀ p ∈ parts e t.payload, clear e (partRec p) 256 → d.ps8 (ccAt p 66) = ccValue t.payload ∧
      ((readPart e p).sustainEn = true → (d.ps8 (partRec p + 0x23)).testBit 1 = decide (64 ≤ ccValue t.payload)) ∧
      ((readPart e p).sustainEn = false → d.ps8 (partRec p + 0x23) = e.ps8 (partRec p + 0x23)))) ∧
  (∀ (s : State) (e : Dev) (i : Nat) (t : Task), e = deferredFirst s.dev → commits s.dev i (isCc [121]) = some t → Yields (.resetAllControllers i) s (fun d =>
    ∀ p ∈ parts e t.payload, clear e (partRec p) 256 → d.ps8 (ccAt p 121) = ccValue t.payload ∧ d.ps16 (partRec p + 0x20) = 8192 ∧
      d.ps8 (partRec p + 0x22) = 0 ∧ (d.ps8 (partRec p + 0x23)).testBit 0 = false ∧ (d.ps8 (partRec p + 0x23)).testBit 1 = false))

/-- PROGRAM takes a valid entry of the part's program map as its patch and leaves the part alone for an unused entry
(R170).  Bend and pressure go to the part on its own channel, and on a member channel to that channel's voices;
POLY_PRESSURE goes to the part's voices of the key (R168).  PARAM_SET replaces the masked bits of one word of the store
and nothing else, with MASK = 0 writes nothing, and a count field out of its bound is rejected and counted, with ERR set
(R117, R156, R181, R182).  Deferred note-ons arm ahead of each (R177); a word that port H has landed at the same release
keeps port H's bytes, and the collision is counted once (R415). -/
def Obligations.PartAndVoiceValuesFollowTheirTasks : Prop :=
  let clear (e : Dev) (a n : Nat) : Prop := ∀ b, a ≤ b → b < a + n → e.keptByH b = false
  let parts (e : Dev) (pay : List Byte) : List Nat := (matchParts e (fun c => c.hears (pay8 pay 0) (pay8 pay 1))).1
  (∀ (s : State) (e : Dev) (i : Nat) (t : Task), e = deferredFirst s.dev → commits s.dev i (fun t => t.typ == Typ.program) = some t → Yields (.program i) s (fun d =>
    ∀ p ∈ parts e t.payload,
      let r := (readPart e p).map + 4 * pay16 t.payload 4 + pay8 t.payload 2 / 32
      let x := e.ps16 (0xA8000 + 0x40 * r + 2 * (pay8 t.payload 2 % 32))
      (r ≤ 255 → x ≠ 0xFFFF → clear e (partRec p + 0x10) 2 → d.ps16 (partRec p + 0x10) = x % 1024) ∧
      ((255 < r ∨ x = 0xFFFF) → d.ps16 (partRec p + 0x10) = e.ps16 (partRec p + 0x10)))) ∧
  (∀ (s : State) (e : Dev) (i : Nat) (t : Task), e = deferredFirst s.dev → commits s.dev i (fun t => t.typ == Typ.pitchBend) = some t → Yields (.pitchBend i) s (fun d =>
    ∀ p ∈ parts e t.payload,
      ((readPart e p).isMember (pay8 t.payload 1) = false → clear e (partRec p + 0x20) 2 → d.ps16 (partRec p + 0x20) = pay16 t.payload 4) ∧
      ((readPart e p).isMember (pay8 t.payload 1) = true → ∀ v ∈ memberVoices e p (pay8 t.payload 1), v < 256 →
        clear e (vblk v + 0x40) 2 → d.ps16 (vblk v + 0x40) = pay16 t.payload 4))) ∧
  (∀ (s : State) (e : Dev) (i : Nat) (t : Task), e = deferredFirst s.dev → commits s.dev i (fun t => t.typ == Typ.chanPressure) = some t → Yields (.chanPressure i) s (fun d =>
    ∀ p ∈ parts e t.payload,
      ((readPart e p).isMember (pay8 t.payload 1) = false → e.keptByH (partRec p + 0x22) = false → d.ps8 (partRec p + 0x22) = pay8 t.payload 2) ∧
      ((readPart e p).isMember (pay8 t.payload 1) = true → ∀ v ∈ memberVoices e p (pay8 t.payload 1), v < 256 →
        e.keptByH (vblk v + 0x42) = false → d.ps8 (vblk v + 0x42) = pay8 t.payload 2))) ∧
  (∀ (s : State) (e : Dev) (i : Nat) (t : Task), e = deferredFirst s.dev → commits s.dev i (fun t => t.typ == Typ.polyPressure) = some t → Yields (.polyPressure i) s (fun d =>
    ∀ p ∈ parts e t.payload, ∀ k, (readPart e p).keyOf (pay8 t.payload 2) = some k →
      ∀ v ∈ partVoices e p, v < 256 → (e.voice v).key = k →
        e.keptByH (vblk v + 0x42) = false → d.ps8 (vblk v + 0x42) = pay8 t.payload 3)) ∧
  (∀ (s : State) (e : Dev) (i : Nat) (t : Task) (w : Word), e = deferredFirst s.dev → commits s.dev i (fun t => t.typ == Typ.paramSet) = some t →
    pay32 t.payload 0 % 4 = 0 → pay32 t.payload 0 < 0x100000 → psReserved (pay32 t.payload 0) = false → pay32 t.payload 8 ≠ 0 →
    w = Word.merge (BitVec.ofNat 32 (e.ps32 (pay32 t.payload 0))) (BitVec.ofNat 32 (pay32 t.payload 4)) (BitVec.ofNat 32 (pay32 t.payload 8)) →
    (partWordBad (pay32 t.payload 0) w (BitVec.ofNat 32 (pay32 t.payload 8)) = false → Yields (.paramSet i) s (fun d =>
      (clear e (pay32 t.payload 0) 4 → d.ps32 (pay32 t.payload 0) = w.toNat) ∧
      (∀ q, e.port.hwords = [(pay32 t.payload 0, 15, q)] → d.ps32 (pay32 t.payload 0) = e.ps32 (pay32 t.payload 0) ∧
        d.fld Reg.GLB_CNT_PS_COLLIDE 31 0 = min (e.fld Reg.GLB_CNT_PS_COLLIDE 31 0 + (if q then 0 else 1)) (2 ^ 32 - 1)) ∧
        ∀ b, b < pay32 t.payload 0 ∨ pay32 t.payload 0 + 4 ≤ b → d.ps8 b = e.ps8 b)) ∧
    (partWordBad (pay32 t.payload 0) w (BitVec.ofNat 32 (pay32 t.payload 8)) = true → Yields (.paramSet i) s (fun d =>
      d.mem = e.mem ∧ d.flag Reg.ALC_CTL 31 = true ∧
      d.fld Reg.ALC_CNT_ERR 31 0 = min (e.fld Reg.ALC_CNT_ERR 31 0 + 1) (2 ^ 32 - 1) ∧
      d.fld Reg.GLB_CNT_REJ 31 0 = min (e.fld Reg.GLB_CNT_REJ 31 0 + 1) (2 ^ 32 - 1)))) ∧
  (∀ (s : State) (e : Dev) (i : Nat) (t : Task), e = deferredFirst s.dev → commits s.dev i (fun t => t.typ == Typ.paramSet) = some t →
    pay32 t.payload 8 = 0 → Yields (.paramSet i) s (fun d => d.mem = e.mem ∧ d.port = e.port ∧ d.regs = e.regs))

/-- Notes: a note-on in one POLY part with a free slot and room to spare arms a voice there with the note's key, velocity
and a new handle (R157, R163, R165, R172, R174); one that plays in no part frees its task with status 3 and arms nothing
(R157).  Deferred note-ons arm ahead of any commit (R177).  A note-off releases the sounding voices of its key where no pedal holds them (R168).  CC120 fades or quenches
every voice of the part, CC123 releases its keys (R169).  A kill follows its handle, or is counted stale (R164, R179). -/
def Obligations.NotesStartAndEndVoices : Prop :=
  let kept (e d : Dev) (v : Nat) : Prop := ∀ u, u ≠ v → d.voice u = e.voice u
  (∀ (s : State) (i : Nat) (t : Task) (p v : Nat), commits s.dev i (fun t => t.typ == Typ.noteOn) = some t →
    s.dev.par.deferred = [] → t.chosen = [] → noteParts s.dev t.payload = ([p], 0) → playsIn s.dev [p] (pay8 t.payload 2) = [p] →
    s.dev.par.armed < 32 → s.dev.inChain = false → (readPart s.dev p).mode = 0 → (readPart s.dev p).unison = 1 →
    (stealPlan s.dev p 1).1 = 0 → v < s.dev.par.voices.length → v < 256 →
    freeSlot s.dev (chosenElsewhere s.dev (some t.idx)) = some v → 0 < spareSlots s.dev →
    Yields (.noteOn i) s (fun d => (d.voice v).state = VState.arming ∧ (d.voice v).part = p ∧
      some (d.voice v).key = (readPart s.dev p).keyOf (pay8 t.payload 2) ∧ (d.voice v).vel = pay8 t.payload 3 ∧
      (d.voice v).start = s.dev.now ∧ (d.voice v).gen = nextGen (s.dev.voice v).gen ∧ kept s.dev d v)) ∧
  (∀ (s : State) (i : Nat) (t : Task), commits s.dev i (fun t => t.typ == Typ.noteOn) = some t → s.dev.par.deferred = [] →
    (noteParts s.dev t.payload).1 = [] → t.notify = true → s.dev.alm.done.length < 64 →
    Yields (.noteOn i) s (fun d => d.par.voices = s.dev.par.voices ∧ d.mem = s.dev.mem ∧
      d.alm.done = s.dev.alm.done ++ [{ status := 3, ef := s.dev.now % 4096, tag := t.tag }])) ∧
  (∀ (s : State) (e : Dev) (i : Nat) (t : Task) (p k v : Nat), e = deferredFirst s.dev → commits s.dev i (fun t => t.typ == Typ.noteOff) = some t →
    (matchParts e (fun c => c.hears (pay8 t.payload 0) (pay8 t.payload 1))).1 = [p] → (readPart e p).mode = 0 →
    (readPart e p).keyOf (pay8 t.payload 2) = some k → v < e.par.voices.length → v ∈ partVoices e p →
    (e.voice v).state = .sounding → (e.voice v).key = k →
    memberOfVoice e v = (readPart e p).memberOf (pay8 t.payload 1) → pedals e p = (false, false) →
    Yields (.noteOff i) s (fun d => (d.voice v).state = VState.releasing ∧ (d.voice v).relVel = pay8 t.payload 3)) ∧
  (∀ (s : State) (e : Dev) (i : Nat) (t : Task) (p v : Nat), e = deferredFirst s.dev → commits s.dev i (isCc [120]) = some t →
    (matchParts e (fun c => c.hears (pay8 t.payload 0) (pay8 t.payload 1))).1 = [p] → v < e.par.voices.length →
    v ∈ partVoices e p → Yields (.allSoundOff i) s (fun d =>
      ((e.voice v).state = .arming → (d.voice v).state = VState.quench) ∧
      ((e.voice v).state = .sounding ∨ (e.voice v).state = .releasing → (d.voice v).state = VState.stealing))) ∧
  (∀ (s : State) (e : Dev) (i : Nat) (t : Task) (p v : Nat), e = deferredFirst s.dev → commits s.dev i (isCc [123]) = some t →
    (matchParts e (fun c => c.hears (pay8 t.payload 0) (pay8 t.payload 1))).1 = [p] → v < e.par.voices.length →
    v ∈ partVoices e p → pedals e p = (false, false) → Yields (.allNotesOff i) s (fun d =>
      ((e.voice v).state = .arming → (d.voice v).state = VState.arming ∧ (d.voice v).offPending = true) ∧
      ((e.voice v).state = .sounding → (d.voice v).state = VState.releasing))) ∧
  (∀ (s : State) (e : Dev) (i : Nat) (t : Task) (v : Nat), e = deferredFirst s.dev → commits s.dev i (fun t => t.typ == Typ.voiceKill) = some t →
    currentSlot e (pay16 t.payload 0) = some v → v < e.par.voices.length → Yields (.voiceKill i) s (fun d => kept e d v ∧
      ((e.voice v).state = .arming → (d.voice v).state = VState.quench) ∧
      ((e.voice v).state = .sounding ∨ (e.voice v).state = .releasing →
        (d.voice v).state = if pay8 t.payload 2 = 0 then VState.stealing else VState.quench))) ∧
  (∀ (s : State) (e : Dev) (i : Nat) (t : Task), e = deferredFirst s.dev → commits s.dev i (fun t => t.typ == Typ.voiceKill) = some t →
    currentSlot e (pay16 t.payload 0) = none → Yields (.voiceKill i) s (fun d => d.par = e.par ∧ d.mem = e.mem ∧
      d.fld Reg.ALC_CNT_STALE 31 0 = min (e.fld Reg.ALC_CNT_STALE 31 0 + 1) (2 ^ 32 - 1)))

/-- A voice's own events: its first sample at e + 4 (R165), the end of its fade and of its quench (R166, R167), the end
of its level envelope, once the release's notes have committed and unless a note-on has chosen it for reuse (R176, R237), and the end of its END_VOICE samples (R204).  Each moves that voice alone.  A deferred
note-on leaves the queue when the EF has room for it, and stays when it has not (R177); it looks for room once in an EF
(log 31).  A byte of the voice's block that port H has landed at the same release stays (R415). -/
def Obligations.VoicesMoveThroughTheirStates : Prop :=
  let moved (s : State) (v : Nat) (x : VState) (d : Dev) : Prop := (d.voice v).state = x ∧ (∀ u, u ≠ v → d.voice u = s.dev.voice u) ∧
    d.frame = s.dev.frame ∧ d.alm = s.dev.alm ∧ d.mix = s.dev.mix ∧ d.outs = s.dev.outs
  (∀ (s : State) (v : Nat), v < s.dev.par.voices.length → (s.dev.voice v).state = .arming → s.dev.isOn Dom.ctrl = true →
    efReached s.dev.now (efAdd (s.dev.voice v).start 4) = true →
    ((s.dev.voice v).offPending = false → Yields (.firstSample v) s (fun d => moved s v .sounding d ∧ (v < 256 → s.dev.keptByH (vblk v + 2) = false → d.ps8 (vblk v + 2) = 2))) ∧
    ((s.dev.voice v).offPending = true → pedals s.dev (s.dev.voice v).part = (false, false) →
      Yields (.firstSample v) s (fun d => moved s v .releasing d ∧ (v < 256 → s.dev.keptByH (vblk v + 2) = false → d.ps8 (vblk v + 2) = 3)))) ∧
  (∀ (s : State) (v : Nat), v < 256 → v < s.dev.par.voices.length → (s.dev.voice v).state = .stealing →
    efReached s.dev.now (efAdd (s.dev.voice v).fadeAt (s.dev.voice v).fadeLen) = true →
    Yields (.stealFadeEnd v) s (fun d => moved s v .quench d ∧ (d.voice v).quenchAt = s.dev.now)) ∧
  (∀ (s : State) (v : Nat), v < 256 → v < s.dev.par.voices.length → (s.dev.voice v).state = .quench →
    efReached s.dev.now (efAdd (s.dev.voice v).quenchAt 3) = true →
    Yields (.quenchEnd v) s (fun d => moved s v .free d ∧
      (s.dev.keptByH (vblk v) = false → s.dev.keptByH (vblk v + 1) = false → d.ps16 (vblk v) = 0))) ∧
  (∀ (s : State) (v z : Nat), v < 256 → v < s.dev.par.voices.length → (s.dev.vaud v).zero = some z →
    (s.dev.voice v).state = .releasing ∨ (s.dev.voice v).state = .sounding → efReached s.dev.now (efAdd z 6) = true →
    reuseChosen s.dev v = false → notesSettled s.dev = true →
    Yields (.env0Complete v) s (fun d => moved s v .free d ∧
      (s.dev.keptByH (vblk v) = false → s.dev.keptByH (vblk v + 1) = false → d.ps16 (vblk v) = 0))) ∧
  (∀ (s : State) (v e : Nat), v < 256 → v < s.dev.par.voices.length → (s.dev.vaud v).endAt = some e →
    (s.dev.voice v).state = .sounding → efReached s.dev.now (efAdd e 1) = true →
    Yields (.sampleEndVoice v) s (fun d => moved s v .releasing d)) ∧
  (∀ (s : State) (v : Nat), (s.dev.voice v).state = .free →
    exec (.firstSample v) s = .next s ∧ exec (.stealFadeEnd v) s = .next s ∧ exec (.quenchEnd v) s = .next s) ∧
  (∀ (s : State) (x : Deferred) (r : List Deferred), s.dev.acceptNow = true → s.dev.isOn Dom.ctrl = true → s.dev.par.deferred = x :: r →
    x.since ≠ s.dev.now → x.tried ≠ some s.dev.now →
    (s.dev.par.armed + (playsIn s.dev (noteParts s.dev x.payload).1 (pay8 x.payload 2)).length ≤ 32 → s.dev.isMaster = false →
      Yields .deferredNoteArm s (fun d => d.par.deferred = r ∧
        d.par.armed = s.dev.par.armed + (playsIn s.dev (noteParts s.dev x.payload).1 (pay8 x.payload 2)).length ∧
        d.alm = s.dev.alm ∧ d.frame = s.dev.frame ∧ d.outs = s.dev.outs)) ∧
    (32 < s.dev.par.armed + (playsIn s.dev (noteParts s.dev x.payload).1 (pay8 x.payload 2)).length →
      exec .deferredNoteArm s = .next { s with dev := { s.dev with par := { s.dev.par with
        deferred := { x with tried := some s.dev.now } :: r } } }))

/-- The wave cache of a cluster: the next line of its lane fills a way with its 64 bytes of wave DRAM, its request is gone,
and no pinned line leaves (R213, R433, R434; the order of a lane: log 32); a fill of a borrowed region waits (R441; log 22).  INVAL empties the cache of unpinned lines at once, and each pinned one leaves when it unpins (R217).
A fill does not touch wave DRAM.

The wave window and wave DRAM: a burst of 16 words arrives behind the read-ahead when 16 or more words are free and
the host lane has its lines, of which 9 an EF are its own (R433), holding the DRAM as it stands (R417, R419).  That a burst
is 16 words with PACK24 too is the model's choice (log 20), and so is how the lanes reckon their lines (log 32); the oldest posted word's enabled bytes are written, and no other byte of wave
DRAM changes (R418, R419); the lines moved are counted (R444).  DRAM initialisation sets the memory ready (R432). -/
def Obligations.CacheLinesAndWindowWordsFill : Prop :=
  (
  (∀ (s : State) (c line : Nat) (r : Req), c < 16 → c < s.dev.aud.clus.length → s.dev.cluOn c = true → s.dev.isOn Dom.memc = true →
    s.dev.mem.dramReady = true → (s.dev.clu c).flight.find? (fun q => q.line == line) = some r → fillable s.dev c line = true →
    servedNext s.dev c r = true →
    (fillBorrowed s.dev c = false →
      Yields (.cacheLineFill c line) s (fun d => (line, s.dev.waveBytes (64 * line) 64) ∈ (d.clu c).lines ∧
        (∀ q ∈ (d.clu c).flight, q.line ≠ line) ∧
        (∀ l ∈ (s.dev.clu c).lines, pinned s.dev c l.1 = true → l ∈ (d.clu c).lines) ∧ pinsOf d c = pinsOf s.dev c ∧
        (∀ k, k ≠ c → d.clu k = s.dev.clu k) ∧ d.mem.wave = s.dev.mem.wave ∧ d.par = s.dev.par ∧ d.mix = s.dev.mix)) ∧
    (fillBorrowed s.dev c = true → Yields (.cacheLineFill c line) s (fun d => d = { s.dev with fresh := d.fresh }))) ∧
  (∀ (s : State) (c line : Nat), (s.dev.clu c).flight = [] → exec (.cacheLineFill c line) s = .next s) ∧
  (∀ (s : State) (c : Nat) (v : Word), c < 16 → c < s.dev.aud.clus.length → s.dev.cluOn c = true → v.getLsbD 0 = true →
    hostTurn s.dev = true →
    Yields (.waveCacheInval c v) s (fun d => (∀ l ∈ (d.clu c).lines, pinned s.dev c l.1 = true) ∧
      (∀ l ∈ (s.dev.clu c).lines, pinned s.dev c l.1 = true → l ∈ (d.clu c).lines ∧ l.1 ∈ (d.clu c).inval) ∧
      (∀ k, k ≠ c → d.clu k = s.dev.clu k) ∧ d.regs = s.dev.regs ∧ d.mem = s.dev.mem)) ∧
  (∀ (s : State) (c line : Nat), c < 16 → line ∈ (s.dev.clu c).inval → pinned s.dev c line = false →
    exec (.pinnedLineInval c line) s = .next { s with dev := s.dev.modClu c (fun x => { x with
      lines := x.lines.filter (fun l => l.1 != line), inval := x.inval.filter (· != line) }) }) ∧
  (∀ (s : State) (c line : Nat), pinned s.dev c line = true → exec (.pinnedLineInval c line) s = .next s)) ∧ (
  (∀ s : State, s.dev.isOn Dom.memc = true → s.dev.mem.dramReady = true → s.dev.win.dir = false → s.dev.win.rdEnd = false →
    s.dev.win.rd.length ≤ 48 → s.dev.win.rdAddr + 16 * s.dev.winStep ≤ waveSize →
    hostLane s.dev (linesOf s.dev.win.rdAddr (16 * s.dev.winStep)) = true →
    Yields .windowFill s (fun d => d.win.rd.length = s.dev.win.rd.length + 16 ∧ d.win.rd.take s.dev.win.rd.length = s.dev.win.rd ∧
      (∀ k, k < 16 → d.win.rd[s.dev.win.rd.length + k]? = some (winWord s.dev s.dev.pack24 (s.dev.win.rdAddr + k * s.dev.winStep))) ∧
      d.win.rdAddr = s.dev.win.rdAddr + 16 * s.dev.winStep ∧ d.win.rdEnd = false ∧ d.win.wr = s.dev.win.wr ∧
      RegsKept s d [Reg.MEM_CNT_HOST] ∧ d.aud = s.dev.aud ∧ d.mem = { s.dev.mem with
        laneHost := s.dev.mem.laneHost.move (linesOf s.dev.win.rdAddr (16 * s.dev.winStep)), lead := d.mem.lead })) ∧
  (∀ (d : Dev) (n : Nat), 0 < n → d.mem.laneHost.used + n ≤ 9 → hostLane d n = true ∧ movOver (hostMoved n d) = movOver d ∧
    (hostMoved n d).mem.lead = d.mem.lead ∧ (d.mem.laneHost.part = 0 →
      (hostMoved n d).mem.laneHost = { used := d.mem.laneHost.used + n, part := 0 })) ∧
  (∀ (d : Dev) (n : Nat), 0 < n → n ≤ 9 → d.mem.laneHost.part = 0 → 9 < d.mem.laneHost.used + n → linesRemain d = false →
    hostLane d n = false) ∧
  (∀ s : State, 48 < s.dev.win.rd.length → exec .windowFill s = .next s) ∧
  (∀ (s : State) (a : Nat) (v : Word) (be : BitVec 4) (pack : Bool) (r : List (Nat × Word × BitVec 4 × Bool)),
    s.dev.isOn Dom.memc = true → s.dev.mem.dramReady = true → s.dev.win.wr = (a, v, be, pack) :: r →
    hostLane s.dev (linesOf a (if pack then 3 else 4)) = true →
    Yields .windowDrain s (fun d => d.win = { s.dev.win with wr := r } ∧
      (∀ k, k < (if pack then 3 else 4) → be.getLsbD k = true → d.wave8 (a + k) = v.byte k) ∧
      (∀ b, (∀ k, k < (if pack then 3 else 4) → be.getLsbD k = true → b ≠ a + k) → d.wave8 b = s.dev.wave8 b) ∧
      d.mem = { s.dev.mem with
        wave := d.mem.wave, laneHost := s.dev.mem.laneHost.move (linesOf a (if pack then 3 else 4)), lead := d.mem.lead } ∧
      d.par = s.dev.par)) ∧
  (∀ s : State, s.dev.win.wr = [] → exec .windowDrain s = .next s) ∧
  (∀ s : State, s.dev.isOn Dom.memc = true →
    exec .dramReady s = .next { s with dev := { s.dev with mem := { s.dev.mem with dramReady := true } } }))

/-- An envelope's segment ends when its length has passed and the next is in force (R234).  A write of ALC_GLFO_RESTART
restarts each named global LFO at the first CF boundary at least 4 EF on, and no other (R242).  The quench switch opens
(R267); the 64th full-scale code of a run is an overload, and with OVL_RESET the loop and the run start again in that
period; a declared overload is counted and shown (R272); a bias fault is shown
(R280). -/
def Obligations.EnvelopeLfoAndCellEvents : Prop :=
  (∀ (s : State) (v e : Nat) (t : Nat × Nat × Nat), (s.dev.vaud v).segEnds.find? (fun t => t.2.1 == e && efReached s.dev.now t.1) = some t →
    exec (.envSegmentEnd v e) s = .next { s with dev := s.dev.modVaud v (fun x => { x with
      segs := upd x.segs e (fun _ => t.2.2), segEnds := x.segEnds.erase t }) }) ∧
  (∀ (s : State) (v e : Nat), (s.dev.vaud v).segEnds = [] → exec (.envSegmentEnd v e) s = .next s) ∧
  (∀ (s : State) (w : Word), s.dev.isOn Dom.ctrl = true → hostTurn s.dev = true → s.dev.now + 8 < efWrap → Yields (.glfoRestart w) s (fun d =>
    (∀ g, g < 16 → w.getLsbD g = true → ∃ b, (at_ d.aud.glfo g GLfo.reset).restart = some b ∧ b % 4 = 0 ∧ s.dev.now + 4 ≤ b ∧ b < s.dev.now + 8) ∧
    (∀ g, g < 16 → w.getLsbD g = false → at_ d.aud.glfo g GLfo.reset = at_ s.dev.aud.glfo g GLfo.reset) ∧
    d.regs = s.dev.regs ∧ d.mem = s.dev.mem ∧ d.par = s.dev.par)) ∧
  (∀ (s : State) (v : Nat), v < 256 → v < s.dev.aud.tiles.length → Yields (.quenchSwitchOpen v) s (fun d =>
    (d.tile v).closed = false ∧ ((s.dev.tile v).closed = false → d.tile v = s.dev.tile v) ∧
    (∀ u, u ≠ v → d.tile u = s.dev.tile u) ∧ d.regs = s.dev.regs ∧ d.par = s.dev.par)) ∧
  (∀ (s : State) (v : Nat), v < 256 → v < s.dev.aud.tiles.length → 0 < (s.dev.tile v).ovlDue → s.dev.cluOn (cluOf v) = true →
    Yields (.adcOverload v) s (fun d => (d.tile v).ovlDue = (s.dev.tile v).ovlDue - 1 ∧
      d.flag (cluReg (cluOf v) Reg.CLU_CELL_IRQ_STAT) 0 = true ∧ d.flag (cluReg (cluOf v) (Reg.CLU_CELL_STAT (v % 16))) 8 = true ∧
      d.fld (cluReg (cluOf v) Reg.CLU_CNT_ADC_OVL) 31 0 = min (s.dev.fld (cluReg (cluOf v) Reg.CLU_CNT_ADC_OVL) 31 0 + 1) (2 ^ 32 - 1) ∧
      d.mem = s.dev.mem ∧ d.par = s.dev.par)) ∧
  (∀ (x : Tile) (q : Int) (r : Bool), q = 4 ∨ q = -4 → x.run = 63 → x.declared = false →
    (ovlRun r q x).ovlDue = x.ovlDue + 1 ∧ (r = true → (ovlRun r q x).run = 0 ∧ (ovlRun r q x).err = 0 ∧ (ovlRun r q x).err2 = 0) ∧
    (r = false → (ovlRun r q x).run = 64 ∧ (ovlRun r q x).declared = true)) ∧
  (∀ (s : State) (v : Nat), (s.dev.tile v).ovlDue = 0 → exec (.adcOverload v) s = .next s) ∧
  (∀ (s : State) (v : Nat), v < 256 → s.dev.cluOn (cluOf v) = true → Yields (.biasFault v) s (fun d =>
    d.flag (cluReg (cluOf v) Reg.CLU_CELL_IRQ_STAT) 2 = true ∧
    (∀ a, a ≠ cluReg (cluOf v) Reg.CLU_CELL_IRQ_STAT → d.reg a = s.dev.reg a) ∧ d = { s.dev with regs := d.regs }))

/-- Coefficient banks: a swap is due at release k + 2, one more is held while one is pending or fading, a third is
rejected and counted in CLU_CNT_SKM_REJ (R298, R300); ALL asks every cluster that is ON (R301).  A due swap's fade changes
ACTIVE, and ends after its length (R298); in a cluster that no release has reached since it became active it waits (R305).  A coefficient of the idle bank is stored, one of a live bank is ignored and counted (R302). -/
def Obligations.SkimmerBanksSwapAndFade : Prop :=
  let asked (s : State) (c : Nat) (d : Dev) : Prop :=
    ((s.dev.clu c).held = none → fading s.dev c = false → (s.dev.clu c).swapAt = none → (d.clu c).swapAt = some (efAdd s.dev.now 2)) ∧
    ((s.dev.clu c).held = none → (fading s.dev c = true ∨ (s.dev.clu c).swapAt.isSome = true) →
      (d.clu c).held = some (efAdd s.dev.now 2) ∧ (d.clu c).swapAt = (s.dev.clu c).swapAt) ∧
    ((s.dev.clu c).held.isSome = true → d.clu c = s.dev.clu c ∧ d.flag (cluReg c Reg.CLU_SKM_IRQ_STAT) 3 = true ∧
      Counts s d (cluReg c Reg.CLU_CNT_SKM_REJ))
  (∀ (s : State) (c : Nat) (v : Word), c < 16 → c < s.dev.aud.clus.length → s.dev.cluOn c = true → v.getLsbD 16 = true →
    v.getLsbD 17 = false → hostTurn s.dev = true → Yields (.swap c v) s (fun d => asked s c d ∧ (∀ k, k ≠ c → d.clu k = s.dev.clu k) ∧ d.mem = s.dev.mem ∧
      d.par = s.dev.par ∧ d.mix = s.dev.mix)) ∧
  (∀ (s : State) (c : Nat) (v : Word), c < 16 → s.dev.aud.clus.length = 16 → s.dev.cluOn c = true → v.getLsbD 17 = true → hostTurn s.dev = true →
    Yields (.swapAll c v) s (fun d => (∀ k, k < 16 → s.dev.cluOn k = true → asked s k d) ∧
      (∀ k, s.dev.cluOn k = false → d.clu k = s.dev.clu k) ∧ d.mem = s.dev.mem ∧ d.par = s.dev.par)) ∧
  (∀ (s : State) (c : Nat) (b : Bool), c < 16 → c < s.dev.aud.clus.length → s.dev.active c = true → s.dev.frame.audio = true →
    (s.dev.clu c).wasActive = true → swapReady s.dev c = some b →
    Yields (.fadeStart c) s (fun d => (d.clu c).active = (!(s.dev.clu c).active) ∧
      (d.clu c).fade = some { pos := 0, log := fadeLog s.dev c, old := (s.dev.clu c).active } ∧ fading d c = true ∧
      d.regs = s.dev.regs ∧ d.mem = s.dev.mem ∧ d.par = s.dev.par)) ∧
  (∀ (s : State) (c : Nat), swapReady s.dev c = none ∨ s.dev.active c = false ∨ s.dev.frame.audio = false ∨
    (s.dev.clu c).wasActive = false → exec (.fadeStart c) s = .next s) ∧
  (∀ (s : State) (c : Nat), c < 16 → (s.dev.clu c).fade.isSome = true → fading s.dev c = false →
    exec (.fadeEnd c) s = .next { s with dev := s.dev.modClu c (fun x => { x with fade := none }) }) ∧
  (∀ (s : State) (c : Nat), fading s.dev c = true → exec (.fadeEnd c) s = .next s) ∧
  (∀ (s : State) (c i : Nat) (bank : Bool) (v : Word), c < 16 → i < 32 → s.dev.cluOn c = true → hostTurn s.dev = true →
    (bankLive s.dev c bank = false → exec (.skimmerCoefWrite c bank i v) s =
      .next { s with dev := (s.dev.putReg (coefReg c bank i) (BitVec.ofNat 32 (v.bits 19 0))) }) ∧
    (bankLive s.dev c bank = true → Yields (.skimmerCoefWrite c bank i v) s (fun d =>
      d.reg (coefReg c bank i) = s.dev.reg (coefReg c bank i) ∧ d.flag (cluReg c Reg.CLU_SKM_IRQ_STAT) 2 = true ∧
      d.fld (cluReg c Reg.CLU_CNT_SKM_REJ) 31 0 = min (s.dev.fld (cluReg c Reg.CLU_CNT_SKM_REJ) 31 0 + 1) (2 ^ 32 - 1) ∧
      d = { s.dev with regs := d.regs })))

/-- A Skimmer reset asked for, or a change of LEN_M with the lock clear, is due at release k + 2 (R289, R303, R310); at
its release every tile's filter memory is clear, the output is zero and VALID is 0 (R304); VALID sets 12 EF later
(R304).  FADE_LOG2 follows the write even under the lock (R12). -/
def Obligations.SkimmerResetsClearTheFilters : Prop :=
  (∀ (s : State) (c : Nat) (v : Word), c < 16 → c < s.dev.aud.clus.length → s.dev.cluOn c = true → hostTurn s.dev = true →
    Yields (.skimmerReset c v) s (fun d => d.fld (cluReg c Reg.CLU_SKM_CTL) 3 0 = v.bits 3 0 ∧
      d.flag (cluReg c Reg.CLU_SKM_CTL) 4 = (if s.prot.lock then s.dev.flag (cluReg c Reg.CLU_SKM_CTL) 4 else v.getLsbD 4) ∧
      ((v.getLsbD 8 = true ∨ (s.prot.lock = false ∧ v.getLsbD 4 ≠ s.dev.flag (cluReg c Reg.CLU_SKM_CTL) 4)) →
        efAdd s.dev.now 2 ∈ (d.clu c).resets) ∧
      (v.getLsbD 8 = false → v.getLsbD 4 = s.dev.flag (cluReg c Reg.CLU_SKM_CTL) 4 → d.clu c = s.dev.clu c) ∧
      d.mem = s.dev.mem ∧ d.par = s.dev.par)) ∧
  (∀ (s : State) (c r : Nat), c < 16 → s.dev.aud.clus.length = 16 → s.dev.aud.tiles.length = 256 → s.dev.cluOn c = true → s.dev.timerRuns = true →
    r ∈ (s.dev.clu c).resets → efReached s.dev.now r = true →
    Yields (.synchronisingReset c) s (fun d => (d.clu c).valid = false ∧ (d.clu c).fade = none ∧ zeroPeriod d c = true ∧
      (∀ e ∈ (d.clu c).resets, efReached s.dev.now e = false) ∧
      (∀ t, t < 16 → (d.tile (16 * c + t)).aHist = [] ∧ (d.tile (16 * c + t)).bHist = [] ∧ (d.tile (16 * c + t)).integ = [0, 0, 0, 0]) ∧
      d.fld (cluReg c Reg.CLU_CNT_SKM_RESET) 31 0 = min (s.dev.fld (cluReg c Reg.CLU_CNT_SKM_RESET) 31 0 + 1) (2 ^ 32 - 1) ∧
      d.mem = s.dev.mem ∧ d.par = s.dev.par ∧ d.mix = s.dev.mix)) ∧
  (∀ (s : State) (c : Nat), (s.dev.clu c).resets = [] → exec (.synchronisingReset c) s = .next s) ∧
  (∀ (s : State) (c : Nat), c < 16 → (s.dev.clu c).valid = false → (s.dev.clu c).zeroAt.isSome = true → zeroPeriod s.dev c = false →
    exec (.skimmerValid c) s = .next { s with dev := s.dev.modClu c (fun x => { x with valid := true, zeroAt := none }) }) ∧
  (∀ (s : State) (c : Nat), zeroPeriod s.dev c = true → exec (.skimmerValid c) s = .next s)

/-- Calibration: a measurement's result is kept for its channel when its window has passed (R319, R341); the firmware
passes a temperature reading to a cluster's slices (R324); GO queues the named slot ahead of the threshold (R331, R338); the first
startable slot of the queue runs, while the firmware runs (R331, R496); a run whose steps have ended writes its record, and
nothing else of the store, and CAL_LAST names its slot (R326, R332, R340), once the release's notes have chosen and
committed (R333); bytes that port H has landed at the same release stay (R415). -/
def Obligations.CalibrationRunsOnFreeCells : Prop :=
  (∀ (s : State) (v : Nat) (r : CalRun), calRunOf s.dev v = some r → s.dev.timerRuns = true → 2 ≤ r.step → r.step ≤ 5 →
    efReached s.dev.now r.start = true → r.settle + r.window + 4 ≤ efSince s.dev.now r.start →
    Yields (.measurementResult v) s (fun d => (v, BitVec.ofInt 32 (resultOf r).1, BitVec.ofInt 32 (resultOf r).2) ∈ d.cal.res ∧
      d.cal.runs.map CalRun.slot = s.dev.cal.runs.map CalRun.slot ∧ d.cal.queue = s.dev.cal.queue ∧ d.regs = s.dev.regs ∧
      d.mem = s.dev.mem ∧ d.par = s.dev.par ∧ d.aud = s.dev.aud)) ∧
  (∀ (s : State) (v : Nat), calRunOf s.dev v = none → exec (.measurementResult v) s = .next s ∧ exec (.backgroundRunComplete v) s = .next s) ∧
  (∀ (s : State) (c : Nat), c < 16 → c < s.dev.mgt.passed.length → s.dev.isOn Dom.mgmt = true → s.dev.mgt.mode = 2 → s.dev.cluOn c = true →
    s.dev.mgt.tempSeen = true → Yields (.temperatureUpdate c) s (fun d => tempOf d c = some (2 * signed 16 (at_ s.dev.mgt.temps c 0)) ∧
      (∀ k, k ≠ c → tempOf d k = tempOf s.dev k) ∧ d.regs = s.dev.regs ∧ d.mem = s.dev.mem ∧ d.cal.runs = s.dev.cal.runs)) ∧
  (∀ (s : State) (w : Word), w.getLsbD 8 = true → hostTurn s.dev = true → calQueues s.dev = true → s.dev.cluOn (cluOf (w.bits 7 0)) = true →
    s.dev.flag (cluReg (cluOf (w.bits 7 0)) (Reg.CLU_CELL_BIAS (w.bits 7 0 % 16))) 31 = false → calHas s.dev (w.bits 7 0) = false →
    exec (.calReq w) s = .next { s with dev := { s.dev with cal := { s.dev.cal with queue := s.dev.cal.queue ++ [(w.bits 7 0, true)] } } }) ∧
  (∀ (s : State) (w : Word), w.getLsbD 8 = false ∨ calHas s.dev (w.bits 7 0) = true → exec (.calReq w) s = .next s) ∧
  (∀ (s : State) (v : Nat), firmwareUp s.dev = false ∨ notesSettled s.dev = false →
    (firmwareUp s.dev = false → exec (.backgroundRunStart v) s = .next s) ∧
    (notesSettled s.dev = false → exec (.backgroundRunComplete v) s = .next s)) ∧
  (∀ (s : State) (v : Nat), firmwareUp s.dev = true → s.dev.isOn Dom.cal = true → s.dev.stage = Stage.run → s.dev.timerRuns = true → calGranted s.dev = true →
    calNext s.dev = some v → Yields (.backgroundRunStart v) s (fun d => underCal d v = true ∧
      d.cal.queue = s.dev.cal.queue.filter (fun e => e.1 != v) ∧ d.cal.runs.length = s.dev.cal.runs.length + 1 ∧
      d.regs = s.dev.regs ∧ d.mem = s.dev.mem ∧ d.par = s.dev.par)) ∧
  (∀ (s : State) (v : Nat) (r : CalRun), v < 256 → calRunOf s.dev v = some r → r.step = 6 → s.dev.cal.fgBusy = false → s.dev.timerRuns = true →
    notesSettled s.dev = true → r.failStep < 16 → r.work.length = 64 →
    Yields (.backgroundRunComplete v) s (fun d => underCal d v = false ∧ d.fld Reg.CAL_LAST 7 0 = v ∧
      d.fld Reg.CAL_LAST 31 30 = (if r.failStep = 0 then 1 else 2) ∧ ((∀ b, calRec v ≤ b → b < calRec v + 64 → s.dev.keptByH b = false) →
        d.psBytes (calRec v) 64 = finalRecord s.dev.now false r) ∧
      (∀ b, b < calRec v ∨ calRec v + 64 ≤ b → d.ps8 b = s.dev.ps8 b) ∧ d.par = s.dev.par ∧ d.aud = s.dev.aud))

/-- OUT_EN and OUT_RANGE hold a bit per channel: a write changes the bits whose output groups are ON and leaves the
others, and it takes effect at release k + 2 (R22, R342, R349, R350); no channel changes at the write itself.

A channel at a release: an enabled PARKED channel begins its ramp up with w = 1, a ramp up rises by 1 and a ramp
down, a fault's too, falls by 1; OUT_EN cleared turns a ramp up, and OUT_EN set a ramp down for disable, from the
present w; a range bit that differs sends an ON channel down, and one that agrees again turns a range change's ramp
back up; a fault begins its ramp at once; in the parks the range follows its bit (R349, R350, R351).

The frame that a release brings out of MIX while ENG_EN is 1: each bus's mute weight moves one step (R344), its value is
the local sum, or with CHAIN the delayed sum and what the cascade brings, times gain and weight, rounded once and saturated
(R343 to R345), its meter is the average over the window, which starts anew at a change of K or mode, and its peak the
largest value; FREEZE holds both (R346).  An ON channel's DAC input is its bus, player and offset, saturated (R347).  With
ENG_EN = 0 values, weights, meters and peaks stay (R44).  A leg at a pin that is not parked sources I_CM ± z' × I_FS / 2
(R348), and none does without VDDA_OUT (R561; taken as its monitor's reading of 0: log 17). -/
def Obligations.OutputBitsRampAndPark : Prop :=
  (
  (∀ (s : State) (v : Word) (j : Nat), hostTurn s.dev = true → s.dev.outOn j = true → v.getLsbD j = true →
    s.dev.flag Reg.OUT_EN j = false →
    Yields (.outputEnable v) s (fun d => WriteDue s d Reg.OUT_EN ∧
      ∀ i, i < 32 → d.flag Reg.OUT_EN i = if s.dev.outOn i then v.getLsbD i else s.dev.flag Reg.OUT_EN i)) ∧
  (∀ (s : State) (v : Word) (j : Nat), hostTurn s.dev = true → s.dev.outOn j = true → v.getLsbD j = false →
    s.dev.flag Reg.OUT_EN j = true →
    Yields (.outputDisable v) s (fun d => WriteDue s d Reg.OUT_EN ∧
      ∀ i, i < 32 → d.flag Reg.OUT_EN i = if s.dev.outOn i then v.getLsbD i else s.dev.flag Reg.OUT_EN i)) ∧
  (∀ (s : State) (v : Word), hostTurn s.dev = true → Yields (.rangeChange v) s (fun d => WriteDue s d Reg.OUT_RANGE ∧
      ∀ i, i < 32 → d.flag Reg.OUT_RANGE i = if s.dev.outOn i then v.getLsbD i else s.dev.flag Reg.OUT_RANGE i))) ∧ (
  ∀ (x : OutCh) (en bit : Bool) (now : Nat), x.clearAt = none →
    (x.faultAt = none →
      (x.state = 0 → (outStep en bit now x).state = (if en then 1 else 0) ∧ (outStep en bit now x).range = bit ∧
        (en = true → (outStep en bit now x).w = min (x.w + 1) 64)) ∧
      (x.state = 1 → en = true → outStep en bit now x = { x with w := min (x.w + 1) 64 }) ∧
      (x.state = 1 → en = false → (outStep en bit now x).state = 3 ∧ (outStep en bit now x).w = x.w - 1) ∧
      (x.state = 2 → en = true → bit = x.range → outStep en bit now x = x) ∧
      (x.state = 2 → (en = false ∨ bit ≠ x.range) → (outStep en bit now x).state = 3 ∧ (outStep en bit now x).w = x.w - 1) ∧
      (x.state = 3 → en = false → (outStep en bit now x).state = 3 ∧ (outStep en bit now x).w = x.w - 1) ∧
      (x.state = 3 → en = true → bit = x.range → (outStep en bit now x).state = 1 ∧ (outStep en bit now x).w = min (x.w + 1) 64) ∧
      (x.state = 3 → en = true → bit ≠ x.range → x.toRange = true → (outStep en bit now x).state = 3 ∧ (outStep en bit now x).w = x.w - 1) ∧
      (x.state = 5 → (outStep en bit now x).state = 5 ∧ (outStep en bit now x).w = x.w - 1) ∧
      (x.state = 4 → outStep en bit now x = x) ∧
      (x.state = 6 ∨ x.state = 7 → outStep en bit now x = { x with range := bit })) ∧
    (x.faultAt.isSome = true → (outStep en bit now x).state = 5 ∧ (outStep en bit now x).w = x.w - 1 ∧
      (outStep en bit now x).faultAt = none)) ∧ (
  let bus (d : Dev) (n : Nat) : Bus := at_ d.mix.buses n Bus.reset
  (∀ s : State, s.dev.timerRuns = true → s.dev.engEn = true → s.dev.isOn Dom.mix = true → s.dev.mix.buses.length = 64 →
    Yields .efRelease s (fun d => (∀ n, n < 64 →
      let e : Dev := { s.dev with frame := d.frame }
      let ctl := d.eff (Reg.MIX_BUS n)
      let was := s.dev.eff (Reg.MIX_BUS n)
      let v : Int := if ctl.getLsbD 17 then at_ (at_ ((localSums e :: s.dev.mix.sums).take 8) (casDelay s.dev) (List.replicate 64 0)) n 0 +
        casValue s.dev n else at_ (localSums e) n 0
      let win := if was.bits 28 24 = ctl.bits 28 24 ∧ was.getLsbD 18 = ctl.getLsbD 18 then (bus s.dev n).win else []
      (bus d n).w = muteStep (ctl.getLsbD 16) (bus s.dev n).w ∧
      (bus d n).y = satSigned 24 (rneDiv (v * (ctl.bits 15 0 : Int) * ((bus d n).w : Int)) (2 ^ 20)) ∧
      (bus d n).win = (meterTerm (ctl.getLsbD 18) (bus d n).y :: win).take (2 ^ meterK ctl) ∧
      ((d.eff Reg.MIX_CTL).getLsbD 0 = false → (bus d n).meter = meterValue (ctl.getLsbD 18) (meterK ctl) (bus d n).win ∧
        (bus d n).peak = max (bus s.dev n).peak (bus d n).y.natAbs) ∧
      ((d.eff Reg.MIX_CTL).getLsbD 0 = true → (bus d n).meter = (bus s.dev n).meter ∧ (bus d n).peak = (bus s.dev n).peak)) ∧
    (∀ i, i < 32 → s.dev.outs.length = 32 → s.dev.outOn i = true →
      (d.outCh i).z = satSigned 24 ((if (d.eff (Reg.OUT_CH i)).getLsbD 15 then
          rneDiv ((bus d ((d.eff (Reg.OUT_CH i)).bits 5 0)).y * ((d.eff (Reg.OUT_CH i)).bits 31 16 : Int)) (2 ^ 15) else 0) +
        rneDiv ((d.outCh i).player.q * ((d.eff (Reg.OUT_PLAY_LVL i)).bits 31 16 : Int)) (2 ^ 15) +
        signed 24 ((d.eff (Reg.OUT_OFS i)).bits 23 0))))) ∧
  (∀ s : State, s.dev.timerRuns = true → s.dev.engEn = false → Yields .efRelease s (fun d => ∀ n, n < s.dev.mix.buses.length →
    (bus d n).y = (bus s.dev n).y ∧ (bus d n).w = (bus s.dev n).w ∧ (bus d n).meter = (bus s.dev n).meter ∧
      (bus d n).peak = (bus s.dev n).peak)) ∧
  (∀ (d : Dev) (i : Nat) (range : Bool) (z : Int), (d.dom (Dom.out (i / 8))).latched = false → (d.outCh i).pin = (false, range, z) →
    (at_ d.mgt.supplies 3 0 ≠ 0 → outLegs d i = some (if range then (2 ^ 23 * 5000 + z * 4000, 2 ^ 23 * 5000 - z * 4000)
      else (2 ^ 23 * 1250 + z * 1000, 2 ^ 23 * 1250 - z * 1000))) ∧
    (at_ d.mgt.supplies 3 0 = 0 → outLegs d i = none)))

/-- Output channels move through their states: RAMP_UP to ON at w = 64; RAMP_DOWN, the EF after w has reached 0, to
PARKED, or with OUT_EN set to RANGE_PARK with the range switched; RANGE_PARK after exactly 1 EF, and HOLD_PARK after
64 EF, to RAMP_UP from 0 (R349, R350).  A channel in HOLD_PARK that is no longer enabled is PARKED instead (the
model's choice: log 17).  Nothing but the channel changes. -/
def Obligations.OutputChannelsMoveThroughTheirStates : Prop :=
  (∀ (s : State) (i : Nat), s.dev.outOn i = true → (s.dev.outCh i).state = 1 → (s.dev.outCh i).w = 64 →
    Yields (.rampUpDone i) s (fun d => OnlyChannel s d i ∧ d.outCh i = { s.dev.outCh i with state := 2, since := s.dev.now })) ∧
  (∀ (s : State) (i : Nat), s.dev.outOn i = true → (s.dev.outCh i).state = 3 → (s.dev.outCh i).w = 0 →
    (s.dev.outCh i).since ≠ s.dev.now → (s.dev.outCh i).faultAt = none →
    Yields (.rampDownDone i) s (fun d => OnlyChannel s d i ∧
      (s.dev.effFlag Reg.OUT_EN i = false → d.outCh i = { s.dev.outCh i with state := 0, since := s.dev.now }) ∧
      (s.dev.effFlag Reg.OUT_EN i = true →
        d.outCh i = { s.dev.outCh i with state := 4, since := s.dev.now, range := s.dev.effFlag Reg.OUT_RANGE i }))) ∧
  (∀ (s : State) (i : Nat), s.dev.outOn i = true → (s.dev.outCh i).state = 4 → (s.dev.outCh i).w = 0 →
    (s.dev.outCh i).since ≠ s.dev.now →
    Yields (.rangeParkEnd i) s (fun d => OnlyChannel s d i ∧
      d.outCh i = { s.dev.outCh i with state := 1, w := 1, since := s.dev.now, clearAt := none })) ∧
  (∀ (s : State) (i : Nat), s.dev.outOn i = true → (s.dev.outCh i).state = 7 → (s.dev.outCh i).w = 0 →
    efReached s.dev.now (efAdd (s.dev.outCh i).since 64) = true →
    Yields (.holdParkEnd i) s (fun d => OnlyChannel s d i ∧
      (s.dev.effFlag Reg.OUT_EN i = true →
        d.outCh i = { s.dev.outCh i with state := 1, w := 1, since := s.dev.now, clearAt := none }) ∧
      (s.dev.effFlag Reg.OUT_EN i = false → d.outCh i = { s.dev.outCh i with state := 0, since := s.dev.now }))) ∧
  (∀ (s : State) (i : Nat), s.dev.outOn i = false →
    ∀ c ∈ [Instr.rampUpDone i, .rampDownDone i, .rangeParkEnd i, .holdParkEnd i, .faultRampDone i, .faultRetry i], exec c s = .next s)

/-- Supervision: a leg above V_A − 0.3 V is OPEN, above V_A − 0.9 V and not OPEN is HIGH, below 0.8 V is LOW; in
RAMP_UP, ON or RAMP_DOWN a condition that the leg has met in the three EF before and meets again raises the fault: the
channel is marked for its fault ramp, OUT_FAULT and OUT_IRQ_STAT.FAULT set, OUT_CNT_FAULT counts, FKIND records the kind,
and it is logged (R351); a clear that waits for its release still comes (R342).  The EF's own measurements, free values
(log 9), raise it at the EF's end in the same way.  A leg's run of measurements grows while it meets one condition and begins anew otherwise.  The fault ramp's end leads to FAULT_PARK;
65,536 EF later a channel set to retry and enabled ramps up and is counted, its flag kept; writing 1 clears the flag
at release k + 2 and, in FAULT_PARK while enabled, sets off the ramp up there (R342, R349, R352). -/
def Obligations.OutputFaultsRaiseRetryAndClear : Prop :=
  (∀ (s : State) (i mv n : Nat) (legN : Bool) (kind : LegFault), s.dev.outOn i = true → (s.dev.outCh i).state ∈ [1, 2, 3] →
    (s.dev.outCh i).faultAt = none →
    ((kind = .openLeg ∧ s.dev.mix.va < mv + 300) ∨ (kind = .high ∧ s.dev.mix.va < mv + 900 ∧ mv + 300 ≤ s.dev.mix.va) ∨
      (kind = .low ∧ mv < 800 ∧ mv + 900 ≤ s.dev.mix.va)) →
    (if legN then (s.dev.outCh i).runN else (s.dev.outCh i).runP) = (legCode kind, n) → 3 ≤ n →
    Yields (.outputFault i legN kind mv) s (fun d => d.outCh i = { s.dev.outCh i with
        faultAt := some s.dev.now, faultN := legN, fkind := legCode kind
        vp := if legN then (s.dev.outCh i).vp else min (mv / 8) 511
        vn := if legN then min (mv / 8) 511 else (s.dev.outCh i).vn } ∧
      (∀ j, j ≠ i → d.outCh j = s.dev.outCh j) ∧
      d.flag Reg.OUT_FAULT i = true ∧ d.flag Reg.OUT_IRQ_STAT 0 = true ∧ Counts s d Reg.OUT_CNT_FAULT ∧
      RegsKept s d [Reg.OUT_FAULT, Reg.OUT_IRQ_STAT, Reg.OUT_CNT_FAULT, Reg.MGT_CNT_LOG_DROP] ∧
      Logs s d 6 1 2 [i, legCode kind] ∧ d.cnt = { s.dev.cnt with bus := s.dev.busWith 24 1 } ∧ d.mem = s.dev.mem ∧
      d.mix = s.dev.mix ∧ d.pwr = s.dev.pwr)) ∧
  (∀ (d : Dev) (i k : Nat), d.outOn i = true → i < d.outs.length → (d.outCh i).state ∈ [1, 2, 3] → (d.outCh i).faultAt = none →
    k ≠ 0 → (d.outCh i).runP = (k, 3) → legKind d.mix.va (Config.free d.fresh % 4096) = k →
    ((outSense i d).outCh i).faultAt = some d.now ∧ ((outSense i d).outCh i).fkind = k ∧
      (outSense i d).flag Reg.OUT_FAULT i = true ∧ (∀ j, j ≠ i → (outSense i d).outCh j = d.outCh j)) ∧
  (∀ va mv k n : Nat, legRun va mv (k, n) =
    if legKind va mv = 0 then (0, 0) else (legKind va mv, if legKind va mv = k then n + 1 else 1)) ∧
  (∀ (s : State) (i mv : Nat) (legN : Bool) (kind : LegFault), (s.dev.outCh i).state ∉ [1, 2, 3] →
    exec (.outputFault i legN kind mv) s = .next s) ∧
  (∀ (s : State) (i : Nat), s.dev.outOn i = true → (s.dev.outCh i).state = 5 → (s.dev.outCh i).w = 0 → (s.dev.outCh i).since ≠ s.dev.now →
    Yields (.faultRampDone i) s (fun d => OnlyChannel s d i ∧ d.outCh i = { s.dev.outCh i with state := 6, since := s.dev.now })) ∧
  (∀ (s : State) (i : Nat), s.dev.outOn i = true → (s.dev.outCh i).state = 6 → (s.dev.outCh i).w = 0 →
    efReached s.dev.now (efAdd (s.dev.outCh i).since 65536) = true → s.dev.effFlag Reg.OUT_RETRY i = true →
    s.dev.effFlag Reg.OUT_EN i = true →
    Yields (.faultRetry i) s (fun d => d.outCh i = { s.dev.outCh i with state := 1, w := 1, since := s.dev.now, clearAt := none } ∧
      (∀ j, j ≠ i → d.outCh j = s.dev.outCh j) ∧ Counts s d Reg.OUT_CNT_RETRY ∧ RegsKept s d [Reg.OUT_CNT_RETRY] ∧
      d = { s.dev with regs := d.regs, outs := d.outs })) ∧
  (∀ (d : Dev) (a e : Nat) (w : Word), d.mix.clrDue = [(e, a, w)] → efReached d.now e = true →
    (effRelease d).reg a = d.reg a &&& ~~~w ∧ (effRelease d).mix.clrDue = []) ∧
  (∀ (s : State) (v : Word), hostTurn s.dev = true →
    Yields (.outFaultClear v) s (fun d => ∃ hit : Word, (∀ i, i < 32 → hit.getLsbD i = (s.dev.outOn i && v.getLsbD i)) ∧
      d = { s.dev with outs := d.outs, mix := { s.dev.mix with
        clrDue := s.dev.mix.clrDue ++ [(efAdd s.dev.now 2, Reg.OUT_FAULT, hit)] } } ∧
      ∀ i, i < 32 →
        d.outCh i = (if s.dev.outOn i ∧ v.getLsbD i = true ∧ (s.dev.outCh i).state = 6 ∧ s.dev.flag Reg.OUT_EN i = true then
          { s.dev.outCh i with clearAt := some (efAdd s.dev.now 2) } else s.dev.outCh i)))

/-- Waveform players: GO, and a compare event, set a valid start for release k + 2, and a start that fails the check of
START and LENGTH is not made and sets PLAY_ERR; STOP sets a stop for release k + 2 that takes the place of a start of the
same EF; a due start puts sample 0, j = 0 out and sets BUSY, a due stop clears BUSY; between them a play goes
on by one repetition, sample or loop an EF, and a one-shot player that has played its samples clears BUSY (R354). -/
def Obligations.PlayersStartStopAndEnd : Prop :=
  (∀ (s : State) (i : Nat) (v : Word), hostTurn s.dev = true → s.dev.outOn i = true → i < s.dev.outs.length →
    v.getLsbD 1 = true → v.getLsbD 2 = false →
    Yields (.playerGo i v) s (fun d => (efAdd s.dev.now 2, Reg.OUT_PLAY_CFG i, d.reg (Reg.OUT_PLAY_CFG i)) ∈ d.mix.effDue ∧
      (d.reg (Reg.OUT_PLAY_CFG i)).bits 31 13 = v.bits 31 13 ∧
      (d.reg (Reg.OUT_PLAY_CFG i)).bits 11 8 = v.bits 11 8 ∧
      (d.reg (Reg.OUT_PLAY_CFG i)).bits 7 3 = (if 16 < v.bits 7 3 then 0 else v.bits 7 3) ∧
      (playOk v (s.dev.reg (Reg.OUT_PLAY_LVL i)) = true → ((efAdd s.dev.now 2, true) ∈ (d.outCh i).player.acts ∨
          (efAdd s.dev.now 2, false) ∈ (d.outCh i).player.acts) ∧
        ((∀ b, (efAdd s.dev.now 2, b) ∉ (s.dev.outCh i).player.acts) →
          (d.outCh i).player.acts = (s.dev.outCh i).player.acts ++ [(efAdd s.dev.now 2, true)]) ∧
        RegsKept s d [Reg.OUT_PLAY_CFG i]) ∧
      (playOk v (s.dev.reg (Reg.OUT_PLAY_LVL i)) = false → d.outs = s.dev.outs ∧ d.flag Reg.OUT_IRQ_STAT 2 = true ∧
        RegsKept s d [Reg.OUT_PLAY_CFG i, Reg.OUT_IRQ_STAT]) ∧
      (∀ j, j ≠ i → d.outCh j = s.dev.outCh j) ∧ d = { s.dev with regs := d.regs, mix := d.mix, outs := d.outs })) ∧
  (∀ cfg lvl : Word, playOk cfg lvl = true ↔
    ((cfg.getLsbD 15 = false → cfg.bits 31 16 % 2 = 0) ∧
      cfg.bits 31 16 + (if lvl.bits 15 0 = 0 then 32768 else lvl.bits 15 0) * (if cfg.getLsbD 15 then 3 else 2) ≤ 65536)) ∧
  (∀ (s : State) (i : Nat) (v : Word), v.getLsbD 1 = true → v.getLsbD 2 = true →
    exec (.playerGo i v) s = exec (.playerStop i v) s) ∧
  (∀ (s : State) (i : Nat) (v : Word), hostTurn s.dev = true → s.dev.outOn i = true → i < s.dev.outs.length →
    v.getLsbD 2 = true →
    Yields (.playerStop i v) s (fun d => (d.outCh i).player.acts =
        (s.dev.outCh i).player.acts.filter (fun a => a.1 != efAdd s.dev.now 2) ++ [(efAdd s.dev.now 2, false)] ∧
      (d.outCh i).state = (s.dev.outCh i).state ∧ (∀ j, j ≠ i → d.outCh j = s.dev.outCh j) ∧
      RegsKept s d [Reg.OUT_PLAY_CFG i, Reg.OUT_IRQ_STAT] ∧ d = { s.dev with regs := d.regs, mix := d.mix, outs := d.outs })) ∧
  (∀ (s : State) (i e : Nat) (r : List Nat), s.dev.outOn i = true → (s.dev.outCh i).player.trig = e :: r →
    Yields (.playerTrigger i) s (fun d => (d.outCh i).player.trig = r ∧
      (playOk (s.dev.reg (Reg.OUT_PLAY_CFG i)) (s.dev.reg (Reg.OUT_PLAY_LVL i)) = true →
        d.regs = s.dev.regs ∧ d.mix = s.dev.mix ∧
        ((∀ b, (efAdd e 2, b) ∉ (s.dev.outCh i).player.acts) →
          (d.outCh i).player.acts = (s.dev.outCh i).player.acts ++ [(efAdd e 2, true)])) ∧
      (playOk (s.dev.reg (Reg.OUT_PLAY_CFG i)) (s.dev.reg (Reg.OUT_PLAY_LVL i)) = false → d.flag Reg.OUT_IRQ_STAT 2 = true ∧
        (d.outCh i).player.acts = (s.dev.outCh i).player.acts) ∧
      (∀ j, j ≠ i → d.outCh j = s.dev.outCh j) ∧ RegsKept s d [Reg.OUT_IRQ_STAT] ∧
      d = { s.dev with regs := d.regs, mix := d.mix, outs := d.outs })) ∧
  (∀ (s : State) (i : Nat), (s.dev.outCh i).player.trig = [] → exec (.playerTrigger i) s = .next s) ∧
  (∀ (s : State) (i : Nat), s.dev.outOn i = true → (s.dev.outCh i).player.busy = true →
    (s.dev.outCh i).player.done = true →
    Yields (.playerEnd i) s (fun d => OnlyChannel s d i ∧
      d.outCh i = { s.dev.outCh i with player := { (s.dev.outCh i).player with busy := false } })) ∧
  (∀ (now len rate r : Nat) (loop b : Bool) (p : Player), p.acts = [(r, b)] → efReached now r = true →
    playAdvance now len rate loop p = { p with acts := [], everRun := b, busy := b, done := false, s := 0, j := 0 }) ∧
  (∀ (now len rate : Nat) (loop : Bool) (p : Player), p.acts = [] → p.everRun = true → p.done = false →
    playAdvance now len rate loop p =
      if p.j + 1 < 2 ^ rate then { p with j := p.j + 1 }
      else if p.s + 1 < len then { p with s := p.s + 1, j := 0 }
      else if loop then { p with s := 0, j := 0 } else { p with done := true }) ∧
  (∀ (now len rate : Nat) (loop : Bool) (p : Player), p.acts = [] → p.everRun = false ∨ p.done = true →
    playAdvance now len rate loop p = p)

/-- TDM ports: a write of TDM_CTLn that sets or clears EN is held and is due at release k + 2, a RATE of 00b on an input
port reads as 01b (R342, R357, R370); a port asked to stop does so when its frame ends, and starts anew there if EN has
set again (R360), with the frame timer halted it holds (R32); a running master
begins an output frame at a multiple of its frame length, a locked slave its PHASE later, its mapped slots carrying their
pairs' samples for the instant one frame length before and the others 0 (R360, R361, R363); an input frame is delivered
with the slots its rate gives, zeros until a slave has resumed (R362, R364).  A frame's SD sends its slots in order, MSB
first, with the FS of its framing and the launching edge that BCLK_INV chooses (R358).  How a slave's weight resumes:
log 18. -/
def Obligations.TdmPortsRunTheirFrames : Prop :=
  (∀ (s : State) (n : Nat) (v : Word), hostTurn s.dev = true → s.dev.tdmOn n = true → v.getLsbD 0 = true → s.dev.flag (Reg.TDM_CTL n) 0 = false →
    Yields (.tdmPortEnable n v) s (fun d => WriteDue s d (Reg.TDM_CTL n) ∧ d.fld (Reg.TDM_CTL n) 3 0 = v.bits 3 0 ∧
      d.fld (Reg.TDM_CTL n) 5 4 = (if 4 ≤ n ∧ v.bits 5 4 = 0 then 1 else v.bits 5 4) ∧ d.fld (Reg.TDM_CTL n) 31 6 = 0)) ∧
  (∀ (s : State) (n : Nat) (v : Word), hostTurn s.dev = true → s.dev.tdmOn n = true → v.getLsbD 0 = false → s.dev.flag (Reg.TDM_CTL n) 0 = true →
    Yields (.tdmPortDisable n v) s (fun d => WriteDue s d (Reg.TDM_CTL n) ∧ d.fld (Reg.TDM_CTL n) 3 0 = v.bits 3 0 ∧
      d.fld (Reg.TDM_CTL n) 5 4 = (if 4 ≤ n ∧ v.bits 5 4 = 0 then 1 else v.bits 5 4) ∧ d.fld (Reg.TDM_CTL n) 31 6 = 0)) ∧
  (∀ (s : State) (n : Nat), s.dev.tdmOn n = true → s.dev.timerRuns = true → (s.dev.tdmPort n).stopping = true →
    ((s.dev.tdmPort n).master = true → s.dev.now % (s.dev.tdmPort n).frameLen n = 0) →
    ((s.dev.tdmPort n).master = false → (s.dev.tdmPort n).locked = true →
      (s.dev.now + 2 ^ 40 - ((s.dev.tdmPort n).phase + 63) / 64) % (s.dev.tdmPort n).frameLen n = 0) →
    Yields (.tdmPortStop n) s (fun d => OnlyPort s d n ∧
      ((s.dev.tdmPort n).again = none → d.tdmPort n = { TdmPort.reset with ctl := (s.dev.tdmPort n).ctl }) ∧
      ∀ ctl, (s.dev.tdmPort n).again = some ctl →
        d.tdmPort n = { TdmPort.reset with run := true, startAt := some s.dev.now, ctl := ctl })) ∧
  (∀ (s : State) (n : Nat), (s.dev.tdmPort n).stopping = false ∨ s.dev.timerRuns = false →
    exec (.tdmPortStop n) s = .next s) ∧
  (∀ (p : TdmPort) (n i : Nat) (b : Bool), i < 64 * 2 ^ p.ratio n → framePins p n i b = (b != p.ctl.getLsbD 3,
    (if p.ctl.getLsbD 2 then decide (32 * 2 ^ p.ratio n ≤ i + 1 ∧ i + 1 < 64 * 2 ^ p.ratio n)
      else decide (i + 1 = 64 * 2 ^ p.ratio n)),
    (at_ p.slots (i / 32) 0).getLsbD (31 - i % 32))) ∧
  (∀ (s : State) (n late : Nat), n < 4 → framesRun s.dev n = true → (s.dev.tdmPort n).stopping = false →
    late = (if (s.dev.tdmPort n).master then 0 else (s.dev.tdmPort n).phase / 64) →
    (s.dev.now + 2 ^ 40 - late) % (s.dev.tdmPort n).frameLen n = 0 →
    Yields (.tdmoFrame n) s (fun d => OnlyPort s d n ∧ (d.tdmPort n).frameAt = some s.dev.now ∧
      ((s.dev.tdmPort n).master = true ∨ 0 < (s.dev.tdmPort n).w →
        (d.tdmPort n).w = (s.dev.tdmPort n).w ∧ (d.tdmPort n).good = (s.dev.tdmPort n).good) ∧
      ((s.dev.tdmPort n).master = false → (s.dev.tdmPort n).w = 0 →
        (d.tdmPort n).w = (if (s.dev.tdmPort n).good < 2 then 0 else 1)) ∧
      (d.tdmPort n).slots.length = slotsAtRate ((s.dev.tdmPort n).ratio n) ∧
      ∀ i, i < slotsAtRate ((s.dev.tdmPort n).ratio n) → at_ (d.tdmPort n).slots i 0 =
        if (slotMap s.dev n i).1 then
          slotWord (pairSample s.dev (slotMap s.dev n i).2 ((s.dev.tdmPort n).ratio n)
            (efSince s.dev.now (late + (s.dev.tdmPort n).frameLen n))) (d.tdmPort n).w
        else 0)) ∧
  (∀ (s : State) (n : Nat), framesRun s.dev n = false → exec (.tdmoFrame n) s = .next s) ∧
  (∀ (s : State) (n r : Nat) (slots : List Word), 4 ≤ n → framesRun s.dev n = true → s.dev.sees Dom.tdm = true →
    (s.dev.tdmPort n).startAt = some r →
    efReached s.dev.now (efAdd r ((s.dev.tdmPort n).frameLen n)) = true →
    ((s.dev.tdmPort n).master = true → s.dev.now % (s.dev.tdmPort n).frameLen n = 0) →
    slots.length = slotsAtRate ((s.dev.tdmPort n).ratio n) →
    Yields (.tdmiFrame n slots) s (fun d => ((∀ v, (at_ (s.dev.vaud v).oscs 0 Osc.reset).model ≠ 4) → OnlyPort s d n) ∧
      (∀ j, j ≠ n → d.tdmPort j = s.dev.tdmPort j) ∧ (d.tdmPort n).frameAt = some s.dev.now ∧
      (d.tdmPort n).slots = (if 0 < (d.tdmPort n).w then slots else List.replicate slots.length 0) ∧
      (d.tdmPort n).hist = ((d.tdmPort n).slots :: (s.dev.tdmPort n).hist).take 64))

/-- A slave port locks on two FS edges one frame apart and latches PHASE (R363).  A slip or a loss drops the lock and
discards the frame in progress: the port carries zeros, its relock weight is 0, its status bit sets, its counter counts,
event source 25 occurs and it is logged (R364); an input's earlier frames are forgotten.  With the frame timer halted
nothing of this happens (R32). -/
def Obligations.TdmSlavesLockSlipAndLose : Prop :=
  (∀ (s : State) (n phase : Nat), s.dev.tdmOn n = true → s.dev.timerRuns = true → s.dev.sees Dom.tdm = true →
    (s.dev.tdmPort n).run = true → (s.dev.tdmPort n).master = false → (s.dev.tdmPort n).locked = false → phase < 64 * (s.dev.tdmPort n).frameLen n →
    Yields (.tdmLock n phase) s (fun d => OnlyPort s d n ∧
      d.tdmPort n = { s.dev.tdmPort n with locked := true, phase := phase, loss := false })) ∧
  (∀ (s : State) (n phase : Nat), (s.dev.tdmPort n).run = false ∨ (s.dev.tdmPort n).master = true ∨ (s.dev.tdmPort n).locked = true ∨
    s.dev.timerRuns = false →
    exec (.tdmLock n phase) s = .next s) ∧
  (∀ (s : State) (n : Nat), s.dev.tdmOn n = true → s.dev.timerRuns = true → s.dev.sees Dom.tdm = true → (s.dev.tdmPort n).run = true →
    (s.dev.tdmPort n).master = false → (s.dev.tdmPort n).locked = true →
    Yields (.tdmSlip n) s (fun d => (d.tdmPort n).locked = false ∧ (d.tdmPort n).phase = 0 ∧ (d.tdmPort n).w = 0 ∧ (d.tdmPort n).good = 0 ∧
      (d.tdmPort n).frameAt = none ∧ (∀ w ∈ (d.tdmPort n).slots, w = 0) ∧ (d.tdmPort n).hist = [] ∧ (d.tdmPort n).run = true ∧
      (∀ j, j ≠ n → d.tdmPort j = s.dev.tdmPort j) ∧ d.flag Reg.TDM_IRQ_STAT n = true ∧ Counts s d Reg.TDM_CNT_SLIP ∧
      RegsKept s d [Reg.TDM_IRQ_STAT, Reg.TDM_CNT_SLIP, Reg.MGT_CNT_LOG_DROP] ∧ Logs s d 7 1 1 [n] ∧
      d.cnt = { s.dev.cnt with bus := s.dev.busWith 25 1 } ∧ d.mem = s.dev.mem ∧ d.outs = s.dev.outs) ∧
    Yields (.tdmLoss n) s (fun d => (d.tdmPort n).locked = false ∧ (d.tdmPort n).loss = true ∧ (d.tdmPort n).w = 0 ∧
      (d.tdmPort n).good = 0 ∧ (d.tdmPort n).frameAt = none ∧ (∀ w ∈ (d.tdmPort n).slots, w = 0) ∧ (d.tdmPort n).hist = [] ∧ (d.tdmPort n).run = true ∧
      (∀ j, j ≠ n → d.tdmPort j = s.dev.tdmPort j) ∧ d.flag Reg.TDM_IRQ_STAT (8 + n) = true ∧ Counts s d Reg.TDM_CNT_LOSS ∧
      RegsKept s d [Reg.TDM_IRQ_STAT, Reg.TDM_CNT_LOSS, Reg.MGT_CNT_LOG_DROP] ∧ Logs s d 7 2 1 [n] ∧
      d.cnt = { s.dev.cnt with bus := s.dev.busWith 25 1 } ∧ d.mem = s.dev.mem ∧ d.outs = s.dev.outs)) ∧
  (∀ (s : State) (n : Nat), (s.dev.tdmPort n).locked = false ∨ s.dev.timerRuns = false → exec (.tdmSlip n) s = .next s ∧ exec (.tdmLoss n) s = .next s)

/-- Serial settings: a DIV below the mode's minimum, or a change to IR mode below its minimum, is rejected: SER_GLB_CTL.ERR
sets, SER_CNT_REJ counts and nothing else changes (R373, R392).  An accepted DIV or MODE is stored, and a write of DIV or
a changed MODE makes the receiver abandon its character and wait for one character time of high line (R374); a changed MODE
resets the parser and aborts its message (R374, R386).  RX_FLUSH and TX_FLUSH empty their FIFOs, the character being
sent stays (R382); TX_BREAK holds the line low once no character is being sent, and after it one character time of high
line is owed (R383). -/
def Obligations.SerialSettingsAndFlushes : Prop :=
  let least (s : State) (n : Nat) : Nat := if s.dev.serMode n = 3 then irMin s.dev.fam44 else 0x20
  let accepted (s : State) (n : Nat) (v : Word) : Prop :=
    n < 4 ∧ s.dev.isOn Dom.serial = true ∧ hostTurn s.dev = true ∧ (v.bits 1 0 = 3 → irMin s.dev.fam44 ≤ s.dev.fld (Reg.SER_DIV n) 15 0)
  let rejected (s : State) (d : Dev) : Prop := d.flag Reg.SER_GLB_CTL 31 = true ∧ Counts s d Reg.SER_CNT_REJ ∧
    RegsKept s d [Reg.SER_GLB_CTL, Reg.SER_CNT_REJ] ∧ d = { s.dev with regs := d.regs }
  let touched (s : State) (n : Nat) (d : Dev) : Prop := OtherPorts s d n ∧
    RegsKept s d [Reg.SER_CTL n, Reg.SER_IRQ_STAT n, Reg.SER_CNT_SYSEX_ABORT, Reg.MGT_CNT_LOG_DROP] ∧
    d = { s.dev with regs := d.regs, mgt := d.mgt, ser := d.ser }
  (∀ (s : State) (n : Nat) (v : Word), n < 4 → s.dev.isOn Dom.serial = true → hostTurn s.dev = true →
    (v.bits 15 0 < least s n → Yields (.divWrite n v) s (rejected s)) ∧
    (least s n ≤ v.bits 15 0 → Yields (.divWrite n v) s (fun d => d.reg (Reg.SER_DIV n) = v &&& 0xFFFF ∧ RegsKept s d [Reg.SER_DIV n] ∧
      d = { s.dev with regs := d.regs, ser := d.ser } ∧ OtherPorts s d n ∧
      d.ser1 n = { s.dev.ser1 n with inChar := false, armed := false, needHigh := 2, line := none }))) ∧
  (∀ (s : State) (n : Nat) (v : Word), v.bits 1 0 ≠ s.dev.serMode n → n < 4 → s.dev.isOn Dom.serial = true →
    hostTurn s.dev = true →
    (v.bits 1 0 = 3 → s.dev.fld (Reg.SER_DIV n) 15 0 < irMin s.dev.fam44 → Yields (.modeChange n v) s (rejected s)) ∧
    (accepted s n v → Yields (.modeChange n v) s (fun d => d.reg (Reg.SER_CTL n) = v &&& 0xFFF ∧ touched s n d ∧
      (d.ser1 n).inChar = false ∧ (d.ser1 n).armed = false ∧ (d.ser1 n).needHigh = 2 ∧ (d.ser1 n).parser.status = 0 ∧
      (d.ser1 n).parser.data = [] ∧ (d.ser1 n).parser.sysex = none ∧ (d.ser1 n).parser.cc0 = (s.dev.ser1 n).parser.cc0 ∧
      (d.ser1 n).parser.cc32 = (s.dev.ser1 n).parser.cc32))) ∧
  (∀ (s : State) (n : Nat) (v : Word), accepted s n v → v.getLsbD 12 = true →
    Yields (.rxFlush n v) s (fun d => (d.ser1 n).rx = [] ∧ d.reg (Reg.SER_CTL n) = v &&& 0xFFF ∧ touched s n d)) ∧
  (∀ (s : State) (n : Nat) (v : Word), accepted s n v → v.getLsbD 13 = true → (s.dev.ser1 n).reply = [] →
    Yields (.txFlush n v) s (fun d => (d.ser1 n).tx = [] ∧ (d.ser1 n).shifter = (s.dev.ser1 n).shifter ∧
      d.reg (Reg.SER_CTL n) = v &&& 0xFFF ∧ touched s n d)) ∧
  (∀ (s : State) (n : Nat) (v : Word), accepted s n v → v.getLsbD 11 = true → n < s.dev.ser.ports.length →
    Yields (.txBreak n v) s (fun d => d.reg (Reg.SER_CTL n) = v &&& 0xFFF ∧ touched s n d ∧
      (d.ser1 n).txBreak = if (s.dev.ser1 n).shifter.isSome then (s.dev.ser1 n).txBreak else true)) ∧
  (∀ (s : State) (n : Nat) (v : Word), accepted s n v → v.getLsbD 11 = false →
    Yields (.txBreakClear n v) s (fun d => d.reg (Reg.SER_CTL n) = v &&& 0xFFF ∧ touched s n d ∧ (d.ser1 n).txBreak = false ∧
      ((s.dev.ser1 n).txBreak = true → (d.ser1 n).txGap = true)))

/-- The receiver: a low start bit begins a character, in IR mode an active pulse of 20 SCLK periods, and anything else was a
glitch (R375, R394); each sample shows the line's level (R400; log 19), but an IR receiver takes none of the port's own
characters (R394); a character at its stop bit is
counted and stored with its framing and parity errors, which set their status bits (R376 to R378, R381); a full FIFO
loses it and counts the overrun (R381); a real-time byte in MIDI mode raises its event (R387); a soft thru copies it
(R384).  Enough high line arms the receiver again (R378, R396); a read of SER_RXn in UART mode pops the head (R381). -/
def Obligations.ReceiversTakeCharacters : Prop :=
  let ready (s : State) (n : Nat) : Prop := s.dev.serOn n = true ∧ s.dev.sees Dom.serial = true ∧ (s.dev.ser1 n).inChar = true ∧
    ∀ q, q < 4 → s.dev.flag (Reg.SER_CTL q) 8 = false
  (∀ (s : State) (n width : Nat) (low level : Bool), s.dev.serOn n = true → s.dev.sees Dom.serial = true → s.dev.serMode n ≠ 0 →
    (s.dev.ser1 n).inChar = false → n < s.dev.ser.ports.length → (s.dev.serMode n ≠ 3 → low = true) →
    (s.dev.serMode n = 3 → level = s.dev.flag (Reg.SER_CTL n) 7 ∧ 20 ≤ width ∧ (s.dev.ser1 n).shifter = none ∧
      ∀ r, (s.dev.ser1 n).deafTo = some r → efReached s.dev.now r = true) →
    Yields (.startBit n low level width) s (fun d => OnlySerial s d n ∧
      ((s.dev.ser1 n).armed = true → d.ser1 n = { s.dev.ser1 n with
        inChar := true, armed := false, line := some (s.dev.now, true), lowSince := some s.dev.now, broke := false }) ∧
      ((s.dev.ser1 n).armed = false → d.ser1 n = { s.dev.ser1 n with line := some (s.dev.now, true) }))) ∧
  (∀ (s : State) (n width : Nat) (low level : Bool), s.dev.serOn n = true → s.dev.sees Dom.serial = true → s.dev.serMode n ≠ 0 →
    n < s.dev.ser.ports.length → (s.dev.serMode n ≠ 3 → low = false) →
    (s.dev.serMode n = 3 → (level ≠ s.dev.flag (Reg.SER_CTL n) 7 ∨ width < 20) ∧ (s.dev.ser1 n).shifter = none ∧
      ∀ r, (s.dev.ser1 n).deafTo = some r → efReached s.dev.now r = true) →
    Yields (.startBit n low level width) s (fun d => OnlySerial s d n ∧
      d.ser1 n = { s.dev.ser1 n with line := some (s.dev.now, false) })) ∧
  (∀ (s : State) (n width : Nat) (low level : Bool), s.dev.serMode n = 3 → (s.dev.ser1 n).shifter.isSome = true →
    exec (.startBit n low level width) s = .next s) ∧
  (∀ (s : State) (n : Nat) (b : Byte) (par stop : Bool), ready s n → s.dev.serMode n = 1 → (s.dev.ser1 n).rx.length < 64 →
    Yields (.characterReceived n b par stop) s (fun d =>
      (d.ser1 n).rx = (s.dev.ser1 n).rx ++ [⟨b, !stop, parityBad s.dev n b par, false, s.dev.now⟩] ∧ (d.ser1 n).inChar = false ∧
      (d.ser1 n).armed = stop ∧ (stop = false → d.flag (Reg.SER_IRQ_STAT n) 3 = true ∧ CountsFld s d (Reg.SER_CNT_ERR n) 23 16) ∧
      (parityBad s.dev n b par = true → d.flag (Reg.SER_IRQ_STAT n) 4 = true ∧ CountsFld s d (Reg.SER_CNT_ERR n) 15 8) ∧
      Counts s d (Reg.SER_CNT_RX n) ∧ RegsKept s d [Reg.SER_CNT_RX n, Reg.SER_CNT_ERR n, Reg.SER_IRQ_STAT n] ∧ OtherPorts s d n ∧
      d = { s.dev with regs := d.regs, ser := d.ser })) ∧
  (∀ (s : State) (n : Nat) (b : Byte) (par : Bool), ready s n → s.dev.serMode n ≠ 0 → 64 ≤ (s.dev.ser1 n).rx.length →
    Yields (.characterReceived n b par true) s (fun d => (d.ser1 n).rx = (s.dev.ser1 n).rx ∧ d.flag (Reg.SER_IRQ_STAT n) 2 = true ∧
      CountsFld s d (Reg.SER_CNT_ERR n) 31 24 ∧ OtherPorts s d n)) ∧
  (∀ (s : State) (n : Nat) (par : Bool), ready s n → s.dev.serMode n = 2 →
    Yields (.characterReceived n 0xF8 par true) s (fun d => d.cnt = { s.dev.cnt with bus := s.dev.busWith (104 + 6 * n) 1 }) ∧
    Yields (.characterReceived n 0xF8 par false) s (fun d => d.cnt = s.dev.cnt ∧ (d.ser1 n).rx = (s.dev.ser1 n).rx ∧
      (d.ser1 n).parser.status = 0 ∧ (d.ser1 n).armed = false)) ∧
  (∀ (s : State) (n q : Nat) (b : Byte) (par : Bool), s.dev.serOn n = true → s.dev.sees Dom.serial = true →
    (s.dev.ser1 n).inChar = true → q < 4 →
    q < s.dev.ser.ports.length → s.dev.flag (Reg.SER_CTL q) 8 = true → s.dev.fld (Reg.SER_CTL q) 10 9 = n → (s.dev.ser1 q).tx.length < 64 →
    (s.dev.ser1 q).shifter.isSome = true → (s.dev.ser1 q).reply = [] →
    Yields (.characterReceived n b par true) s (fun d => (d.ser1 q).tx = (s.dev.ser1 q).tx ++ [b])) ∧
  (∀ (s : State) (n : Nat), s.dev.serOn n = true → s.dev.sees Dom.serial = true → s.dev.serMode n ≠ 0 → (s.dev.ser1 n).armed = false → (s.dev.ser1 n).inChar = false →
    n < s.dev.ser.ports.length →
    Yields (.receiverRearm n) s (fun d => OnlySerial s d n ∧
      d.ser1 n = { s.dev.ser1 n with armed := true, needHigh := 0, line := some (s.dev.now, false), lowSince := none })) ∧
  (∀ (s : State) (n : Nat), n < 4 → s.dev.isOn Dom.serial = true → s.dev.serMode n ≠ 2 →
    Yields (.serRxRead n) s (fun d => OnlySerial s d n ∧ d.ser1 n = { s.dev.ser1 n with rx := (s.dev.ser1 n).rx.tail })) ∧
  (∀ (s : State) (n : Nat), s.dev.serMode n = 2 → exec (.serRxRead n) s = .next s)

/-- A long low line: a break is flagged and counted once in its low period and stored as a zero byte, or taken as a parser
reset in MIDI mode (R379); past LINE_DEAD_TIME the port is dead: the bit sets, the parser resets, the wake detector is
disarmed and it is logged; when the line has been high for a character time the port recovers and the detector is armed
with nothing counted (R380). -/
def Obligations.BreaksAndDeadLines : Prop :=
  (∀ (s : State) (n : Nat), s.dev.serOn n = true → s.dev.sees Dom.serial = true → s.dev.serMode n = 1 → (s.dev.ser1 n).lowSince.isSome = true →
    (s.dev.ser1 n).inChar = false → (s.dev.ser1 n).broke = false → (s.dev.ser1 n).rx.length < 64 →
    Yields (.breakDetected n) s (fun d => (d.ser1 n).broke = true ∧ OtherPorts s d n ∧
      (d.ser1 n).rx = (s.dev.ser1 n).rx ++ [⟨0, false, false, true, s.dev.now⟩] ∧ d.flag (Reg.SER_IRQ_STAT n) 5 = true ∧
      CountsFld s d (Reg.SER_CNT_ERR n) 7 0 ∧ RegsKept s d [Reg.SER_CNT_ERR n, Reg.SER_IRQ_STAT n] ∧
      d = { s.dev with regs := d.regs, ser := d.ser })) ∧
  (∀ (s : State) (n : Nat), s.dev.serOn n = true → s.dev.sees Dom.serial = true → s.dev.serMode n = 2 → (s.dev.ser1 n).lowSince.isSome = true →
    (s.dev.ser1 n).inChar = false → (s.dev.ser1 n).broke = false →
    Yields (.breakDetected n) s (fun d => (d.ser1 n).broke = true ∧ (d.ser1 n).rx = (s.dev.ser1 n).rx ∧ (d.ser1 n).parser.status = 0 ∧
      (d.ser1 n).parser.sysex = none ∧ d.flag (Reg.SER_IRQ_STAT n) 5 = true ∧ CountsFld s d (Reg.SER_CNT_ERR n) 7 0)) ∧
  (∀ (s : State) (n : Nat), (s.dev.ser1 n).broke = true → exec (.breakDetected n) s = .next s) ∧
  (∀ (s : State) (n e : Nat), s.dev.serOn n = true → s.dev.isOn Dom.ctrl = true → (s.dev.ser1 n).lowSince = some e →
    msEf s.dev (s.dev.fld Reg.SER_TIMEOUTS 11 0) < efSince s.dev.now e → (s.dev.ser1 n).dead = false →
    (s.dev.ser1 n).parser.sysex = none → n < s.dev.pwr.dets.length →
    Yields (.lineDead n) s (fun d => (d.ser1 n).dead = true ∧ (d.ser1 n).parser.status = 0 ∧ (d.ser1 n).parser.data = [] ∧
      d.flag (Reg.SER_IRQ_STAT n) 6 = true ∧ d.pwr.dets[n]? = some { disarmed := true, count := 0 } ∧
      (∀ k, k ≠ n → d.pwr.dets[k]? = s.dev.pwr.dets[k]?) ∧ Logs s d 5 1 1 [n] ∧
      RegsKept s d [Reg.SER_IRQ_STAT n, Reg.MGT_CNT_LOG_DROP] ∧ OtherPorts s d n ∧ d.mem = s.dev.mem)) ∧
  (∀ (s : State) (n : Nat), (s.dev.ser1 n).lowSince = none → exec (.lineDead n) s = .next s) ∧
  (∀ (s : State) (n : Nat), s.dev.serOn n = true → s.dev.sees Dom.serial = true → (s.dev.ser1 n).dead = true → n < s.dev.pwr.dets.length →
    Yields (.lineRecover n) s (fun d => (d.ser1 n).dead = false ∧ ((s.dev.ser1 n).inChar = false → (d.ser1 n).armed = true) ∧
      d.pwr.dets[n]? = some { disarmed := false, count := 0 } ∧ (∀ k, k ≠ n → d.pwr.dets[k]? = s.dev.pwr.dets[k]?) ∧
      d = { s.dev with pwr := d.pwr, ser := d.ser } ∧ OtherPorts s d n)) ∧
  (∀ (s : State) (n : Nat), (s.dev.ser1 n).dead = false → exec (.lineRecover n) s = .next s)

/-- A character is a start bit, its data from the least significant bit, a parity bit where one is set, and one or two
stop bits; in IR mode SPn_TX has a pulse for each 0 bit and none for a 1 bit (R371, R393).
The transmitter sends its FIFO in order: a byte the host writes joins the queue or is sent at once, a full FIFO drops
it and sets its status bit, and with soft thru on it is ignored (R381, R383, R384); when a character is complete a
break begins where TX_BREAK is set, or the next byte starts with the settings then in force (R374, R383); an IR receiver
then ignores the line, and the rest of a character it was inside (R394; log 19). -/
def Obligations.TransmittersSendTheirFifo : Prop :=
  let deaf (s : State) (n : Nat) : Option Nat := if (s.dev.ser1 n).txCtl.bits 1 0 = 3 then
    some (efAdd s.dev.now ((s.dev.fld (Reg.SER_DIV n) 15 0 + 255) / 256)) else none
  (∀ (ctl : Word) (b : Byte), (charBits ctl b).headD true = false ∧ (charBits ctl b).getLast? = some true ∧
    (∀ k, k < 8 → (charBits ctl b).getD (k + 1) true = b.getLsbD k) ∧
    (charBits ctl b).length = 10 + (if ctl.bits 1 0 ≠ 2 ∧ (ctl.bits 3 2 = 1 ∨ ctl.bits 3 2 = 2) then 1 else 0) +
      (if ctl.bits 1 0 ≠ 2 ∧ ctl.getLsbD 4 = true then 1 else 0)) ∧
  (∀ (fam : Bool) (ctl : Word) (div : Nat) (b : Byte), ctl.bits 1 0 = 3 →
    (charEdges fam ctl div b).length = 2 * ((charBits ctl b).filter (fun x => !x)).length) ∧
  (∀ (s : State) (n : Nat) (v : Word), n < 4 → n < s.dev.ser.ports.length → s.dev.isOn Dom.serial = true →
    hostTurn s.dev = true → s.dev.flag (Reg.SER_CTL n) 8 = false → (s.dev.ser1 n).reply = [] →
    ((s.dev.ser1 n).tx.length < 64 → (s.dev.ser1 n).shifter.isSome = true → Yields (.serTxWrite n v) s (fun d => OnlySerial s d n ∧
      d.ser1 n = { s.dev.ser1 n with tx := (s.dev.ser1 n).tx ++ [BitVec.ofNat 8 (v.bits 7 0)] })) ∧
    ((s.dev.ser1 n).tx = [] → (s.dev.ser1 n).shifter = none → (s.dev.ser1 n).txBreak = false → (s.dev.ser1 n).txGap = false →
      s.dev.serMode n ≠ 0 → Yields (.serTxWrite n v) s (fun d => OnlySerial s d n ∧
        d.ser1 n = { s.dev.ser1 n with
          shifter := some (BitVec.ofNat 8 (v.bits 7 0)), txCtl := s.dev.reg (Reg.SER_CTL n), txDiv := s.dev.reg (Reg.SER_DIV n)
          armed := (s.dev.ser1 n).armed || ((s.dev.ser1 n).inChar && s.dev.serMode n == 3)
          inChar := (s.dev.ser1 n).inChar && s.dev.serMode n != 3
          line := if s.dev.serMode n = 3 then some (s.dev.now, false) else (s.dev.ser1 n).line })) ∧
    (64 ≤ (s.dev.ser1 n).tx.length → Yields (.serTxWrite n v) s (fun d => d.ser = s.dev.ser ∧
      d.flag (Reg.SER_IRQ_STAT n) 8 = true ∧ RegsKept s d [Reg.SER_IRQ_STAT n] ∧ d = { s.dev with regs := d.regs }))) ∧
  (∀ (s : State) (n : Nat) (v : Word), s.dev.flag (Reg.SER_CTL n) 8 = true → exec (.serTxWrite n v) s = .next s) ∧
  (∀ (s : State) (n : Nat) (c : Byte), s.dev.serOn n = true → (s.dev.ser1 n).shifter = some c → (s.dev.ser1 n).reply = [] →
    (s.dev.flag (Reg.SER_CTL n) 11 = true →
      Yields (.characterSent n) s (fun d => OnlySerial s d n ∧ d.ser1 n = { s.dev.ser1 n with
        shifter := none, txBreak := true, deafTo := deaf s n })) ∧
    (s.dev.flag (Reg.SER_CTL n) 11 = false → (s.dev.ser1 n).tx = [] →
      Yields (.characterSent n) s (fun d => OnlySerial s d n ∧ d.ser1 n = { s.dev.ser1 n with
        shifter := none, txBreak := false, deafTo := deaf s n })) ∧
    (∀ (b : Byte) (r : List Byte), s.dev.flag (Reg.SER_CTL n) 11 = false → (s.dev.ser1 n).tx = b :: r → r.length < 64 →
      (s.dev.ser1 n).txGap = false → s.dev.serMode n ≠ 0 → Yields (.characterSent n) s (fun d => OnlySerial s d n ∧
        d.ser1 n = { s.dev.ser1 n with
          shifter := some b, tx := r, txBreak := false, deafTo := deaf s n
          txCtl := s.dev.reg (Reg.SER_CTL n), txDiv := s.dev.reg (Reg.SER_DIV n)
          armed := (s.dev.ser1 n).armed || ((s.dev.ser1 n).inChar && s.dev.serMode n == 3)
          inChar := (s.dev.ser1 n).inChar && s.dev.serMode n != 3
          line := if s.dev.serMode n = 3 then some (s.dev.now, false) else (s.dev.ser1 n).line }))) ∧
  (∀ (s : State) (n : Nat), s.dev.serOn n = true → (s.dev.ser1 n).shifter = none → (s.dev.ser1 n).txGap = true →
    Yields (.characterSent n) s (fun d => OnlySerial s d n ∧ (d.ser1 n).txGap = false)) ∧
  (∀ (s : State) (n : Nat), (s.dev.ser1 n).shifter = none → (s.dev.ser1 n).txGap = false → exec (.characterSent n) s = .next s)

/-- The MIDI parser takes the oldest byte: a real-time byte changes nothing else, a channel status byte becomes running
status (R385, R387); the last data byte of a note-on forms a NOTE_ON task, or a NOTE_OFF of velocity 64 for velocity 0,
counted and pooled behind the classes of R123 before it, or held and counted once while it is refused, or held while CTRL
is not ON (R385, R388); a data byte with no status in force is counted as ignored (R386); F0h begins a
message in the lowest free buffer (R389); a message silent past SYSEX_GAP is aborted: the buffer is freed, the rest
of its bytes are ignored, and the abort is flagged, counted and logged (R391). -/
def Obligations.ParsersFormTasks : Prop :=
  let takes (s : State) (n : Nat) (e : RxEntry) (r : List RxEntry) : Prop := n < 4 ∧ s.dev.isOn Dom.serial = true ∧ s.dev.serMode n = 2 ∧
    (s.dev.ser1 n).rx = e :: r ∧ (s.dev.ser1 n).parser.hold = []
  (∀ (s : State) (n : Nat) (e : RxEntry) (r : List RxEntry), takes s n e r → 0xF8 ≤ e.data.toNat →
    Yields (.parserByte n) s (fun d => OnlySerial s d n ∧ d.ser1 n = { s.dev.ser1 n with rx := r })) ∧
  (∀ (s : State) (n : Nat) (e : RxEntry) (r : List RxEntry), takes s n e r → (s.dev.ser1 n).parser.sysex = none → 0x80 ≤ e.data.toNat →
    e.data.toNat < 0xF0 → Yields (.parserByte n) s (fun d => OnlySerial s d n ∧ d.ser1 n = { s.dev.ser1 n with
      rx := r, parser := { (s.dev.ser1 n).parser with status := e.data.toNat, data := [], skip := 0, ignoring := false } })) ∧
  (∀ (s : State) (n : Nat) (e : RxEntry) (r : List RxEntry), takes s n e r → (s.dev.ser1 n).parser.sysex = none → e.data.toNat < 0x80 →
    (s.dev.ser1 n).parser.skip = 0 → (s.dev.ser1 n).parser.status = 0 →
    Yields (.parserByte n) s (fun d => d.ser1 n = { s.dev.ser1 n with rx := r } ∧ Counts s d (Reg.SER_CNT_IGN n) ∧
      RegsKept s d [Reg.SER_CNT_IGN n] ∧ OtherPorts s d n ∧ d = { s.dev with regs := d.regs, ser := d.ser })) ∧
  (∀ (s : State) (n ch k : Nat) (e : RxEntry) (r : List RxEntry) (p : Parser) (f : List Nat) (x : Dev), takes s n e r →
    p = (s.dev.ser1 n).parser → p.sysex = none → p.status = 0x90 + ch → ch < 16 → p.data = [k] → p.skip = 0 → e.data.toNat < 0x80 →
    f = (if e.data.toNat = 0 then [Typ.noteOff, 16 * n + ch, n, ch, k, 64, 0, 0, 0, 0, 0, 0, 0, 0]
      else [Typ.noteOn, 16 * n + ch, n, ch, k, e.data.toNat, 0, 0, 0, 0, 0, 0, 0, 0]) →
    x = earlierReleases n ((s.dev.modSer n (fun q => { q with rx := r, parser := { p with data := [], hold := [(false, f)] } })).bump
      (Reg.SER_CNT_TASK n)) →
    (s.dev.isOn Dom.ctrl = false → Yields (.parserByte n) s (fun d => (d.ser1 n).rx = r ∧
      (d.ser1 n).parser = { p with data := [], hold := [(false, f)] } ∧ Counts s d (Reg.SER_CNT_TASK n) ∧
      RegsKept s d [Reg.SER_CNT_TASK n] ∧ d = { s.dev with regs := d.regs, ser := d.ser } ∧ OtherPorts s d n)) ∧
    (s.dev.isOn Dom.ctrl = true → refusal x 0 true (f.getD 0 0) (f.getD 1 0) ≠ 0 → Yields (.parserByte n) s (fun d =>
      (d.ser1 n).parser = { p with data := [], hold := [(true, f)] } ∧
      d.fld Reg.ALM_CNT_HOLD 31 0 = min (x.fld Reg.ALM_CNT_HOLD 31 0 + 1) (2 ^ 32 - 1) ∧
      d.flag Reg.ALM_IRQ_STAT 6 = true ∧ d.alm = x.alm)) ∧
    (s.dev.isOn Dom.ctrl = true → refusal x 0 true (f.getD 0 0) (f.getD 1 0) = 0 → PoolOk s.dev.alm →
      Yields (.parserByte n) s (fun d => (d.ser1 n).parser = { p with data := [] } ∧ Counts s d (Reg.SER_CNT_TASK n) ∧
        ∃ t : Task, d.alm.pool = x.alm.pool ++ [t] ∧ t.typ = f.getD 0 0 ∧ t.flow = f.getD 1 0 ∧ t.tag = 0 ∧
          t.payload = (f.drop 2).map (BitVec.ofNat 8) ∧ t.state = TaskState.ready ∧ t.relEf = s.dev.now))) ∧
  (∀ (s : State) (n b : Nat) (e : RxEntry) (r : List RxEntry), takes s n e r → (s.dev.ser1 n).parser.sysex = none → e.data = 0xF0 →
    s.dev.isOn Dom.mgmt = true → b < 8 → s.dev.ser.bufs[b]? = some none → (∀ k, k < b → ∃ q, s.dev.ser.bufs[k]? = some (some q)) →
    Yields (.parserByte n) s (fun d => (d.ser1 n).parser.sysex = some { buf := b, len := 1, routed := false, lastEf := e.ef } ∧
      (d.ser1 n).parser.status = 0 ∧ d.ser.bufs[b]? = some (some n) ∧ d.mramBytes (sysexAt b 0) 1 = [0xF0] ∧
      (∀ a, a ≠ sysexAt b 0 → d.mramBytes a 1 = s.dev.mramBytes a 1) ∧ d.regs = s.dev.regs ∧ d.mem.pstore = s.dev.mem.pstore)) ∧
  (∀ (s : State) (n : Nat) (x : SysEx), s.dev.serOn n = true → (s.dev.ser1 n).parser.sysex = some x →
    msEf s.dev (s.dev.fld Reg.SER_TIMEOUTS 27 16) < efSince s.dev.now x.lastEf → x.buf < s.dev.ser.bufs.length →
    Yields (.sysexGapTimeout n) s (fun d => (d.ser1 n).parser.sysex = none ∧ (d.ser1 n).parser.ignoring = true ∧
      d.ser.bufs[x.buf]? = some none ∧ (∀ k, k ≠ x.buf → d.ser.bufs[k]? = s.dev.ser.bufs[k]?) ∧ d.flag (Reg.SER_IRQ_STAT n) 7 = true ∧
      Counts s d Reg.SER_CNT_SYSEX_ABORT ∧ Logs s d 5 3 1 [n, 4] ∧
      RegsKept s d [Reg.SER_IRQ_STAT n, Reg.SER_CNT_SYSEX_ABORT, Reg.MGT_CNT_LOG_DROP] ∧ OtherPorts s d n ∧ d.mem = s.dev.mem)) ∧
  (∀ (s : State) (n : Nat), (s.dev.ser1 n).parser.sysex = none → exec (.sysexGapTimeout n) s = .next s)

/-- The wave window: a write of WIN_ADDR holds the address, its low bits zero unless PACK24, and in read direction
discards the read-ahead and starts fetching there (R417, R419); a read of WIN_DATA pops the oldest word and advances, an
empty buffer sets UNDER (R417), and neither happens while HOSTP is not ON (R102, R422); a write in write direction posts
the word and advances, a full buffer sets OVER (R418), and at the end of wave DRAM END sets and the address stays (R420).
That a word is posted whatever its byte enables, a half with one of them included, and that WIN_ADDR runs on to 0800_0000h
at the end are the model's choice (log 20).  The words that wait for their lanes begin anew with the window (log 32); ABORT discards both buffers, and a change of
direction takes effect once the posted words have drained (R420). -/
def Obligations.WindowWordsMoveInOrder : Prop :=
  (∀ (s : State) (v : Word), s.dev.isOn Dom.memc = true → hostTurn s.dev = true →
    Yields (.winAddrWrite v) s (fun d => d.reg Reg.WIN_ADDR = BitVec.ofNat 32 (if s.dev.pack24 then v.bits 26 0 else v.bits 26 2 * 4) ∧
      RegsKept s d [Reg.WIN_ADDR] ∧ d = { s.dev with regs := d.regs, win := d.win, mem := d.mem } ∧
      (d.mem = if s.dev.win.dir then s.dev.mem else { s.dev.mem with laneHost := { s.dev.mem.laneHost with part := 0 } }) ∧
      d.win = if s.dev.win.dir then s.dev.win else
        { s.dev.win with rd := [], rdAddr := if s.dev.pack24 then v.bits 26 0 else v.bits 26 2 * 4, rdEnd := false })) ∧
  (∀ s : State, s.dev.isOn Dom.hostp = false → exec .winDataRead s = .next s) ∧
  (∀ (s : State) (w : Word) (r : List Word), s.dev.isOn Dom.memc = true → s.dev.isOn Dom.hostp = true → s.dev.win.dir = false → s.dev.win.rd = w :: r →
    (s.dev.reg Reg.WIN_ADDR).toNat + s.dev.winStep ≤ waveSize →
    (winPop s.dev).1 = w ∧ Yields .winDataRead s (fun d => d.win = { s.dev.win with rd := r } ∧
      d.reg Reg.WIN_ADDR = BitVec.ofNat 32 ((s.dev.reg Reg.WIN_ADDR).toNat + s.dev.winStep) ∧ RegsKept s d [Reg.WIN_ADDR] ∧
      d = { s.dev with regs := d.regs, win := d.win })) ∧
  (∀ s : State, s.dev.isOn Dom.memc = true → s.dev.isOn Dom.hostp = true → s.dev.win.rd = [] → (s.dev.reg Reg.WIN_ADDR).toNat + s.dev.winStep ≤ waveSize →
    (winPop s.dev).1 = 0 ∧ Yields .winDataRead s (fun d => d.flag Reg.WIN_STAT 30 = true ∧ RegsKept s d [Reg.WIN_STAT] ∧
      d = { s.dev with regs := d.regs })) ∧
  (∀ (s : State) (v : Word) (be : BitVec 4), s.dev.isOn Dom.memc = true → s.dev.win.dir = true → hostTurn s.dev = true →
    ((s.dev.reg Reg.WIN_ADDR).toNat + s.dev.winStep ≤ waveSize → s.dev.win.wr.length < 64 → Yields (.winDataWrite v be) s (fun d =>
      d.win = { s.dev.win with wr := s.dev.win.wr ++ [((s.dev.reg Reg.WIN_ADDR).toNat, v, be, s.dev.pack24)] } ∧
      d.reg Reg.WIN_ADDR = BitVec.ofNat 32 ((s.dev.reg Reg.WIN_ADDR).toNat + s.dev.winStep) ∧ RegsKept s d [Reg.WIN_ADDR] ∧
      d.mem = s.dev.mem)) ∧
    ((s.dev.reg Reg.WIN_ADDR).toNat + s.dev.winStep ≤ waveSize → 64 ≤ s.dev.win.wr.length → Yields (.winDataWrite v be) s (fun d =>
      d.flag Reg.WIN_STAT 29 = true ∧ RegsKept s d [Reg.WIN_STAT] ∧ d = { s.dev with regs := d.regs })) ∧
    (waveSize < (s.dev.reg Reg.WIN_ADDR).toNat + s.dev.winStep → Yields (.winDataWrite v be) s (fun d =>
      d.flag Reg.WIN_STAT 31 = true ∧ RegsKept s d [Reg.WIN_STAT] ∧ d = { s.dev with regs := d.regs }))) ∧
  (∀ (s : State) (v : Word), s.dev.isOn Dom.memc = true → hostTurn s.dev = true → v.getLsbD 2 = true →
    Yields (.winAbort v) s (fun d => d.win.rd = [] ∧ d.win.wr = [] ∧ d.win.dir = s.dev.win.dir ∧ d.win.rdAddr = (d.reg Reg.WIN_ADDR).toNat ∧
      d.fld Reg.WIN_CTL 1 0 = v.bits 1 0 ∧ RegsKept s d [Reg.WIN_CTL, Reg.WIN_ADDR] ∧ 
      d = { s.dev with regs := d.regs, win := d.win, mem := { s.dev.mem with laneHost := { s.dev.mem.laneHost with part := 0 } } })) ∧
  (∀ s : State, s.dev.isOn Dom.memc = true → s.dev.flag Reg.WIN_CTL 0 ≠ s.dev.win.dir → s.dev.win.wr = [] →
    exec .winDirChange s = .next { s with dev := { s.dev with
      mem := { s.dev.mem with laneHost := { s.dev.mem.laneHost with part := 0 } }
      win := { s.dev.win with
        dir := s.dev.flag Reg.WIN_CTL 0, rd := [], rdAddr := (s.dev.reg Reg.WIN_ADDR).toNat, rdEnd := false } } }) ∧
  (∀ s : State, s.dev.win.wr ≠ [] → exec .winDirChange s = .next s)

/-- The memory mover: GO takes the descriptor as a BUSY transfer, or rejects it with its first reason, sets MV_REJECT and
counts it (R437); DONE follows the last byte, with MV_DONE where the descriptor asks for it, and ABORT stops a BUSY
channel (R438).  A GO on a BUSY channel is ignored (R437), and ABORT in the same write stops the transfer alone (log 21);
on a channel that is not BUSY ABORT does nothing. -/
def Obligations.MoverChannelsAcceptAndEnd : Prop :=
  (∀ (s : State) (c : Nat) (v : Word), s.dev.isOn Dom.memc = true → moverMaster s.dev c = true → c < s.dev.mem.movers.length →
    (c < 2 → hostTurn s.dev = true) → v.getLsbD 0 = true →
    (((s.dev.mover c).state ≠ .busy ∧ moverReason s.dev c (readDesc s.dev c) = 0) → Yields (.moverGo c v) s (fun d =>
      d.mover c = readDesc s.dev c ∧ (∀ k, k ≠ c → d.mover k = s.dev.mover k) ∧
      d = { s.dev with mem := { s.dev.mem with movers := d.mem.movers } })) ∧
    (((s.dev.mover c).state ≠ .busy ∧ moverReason s.dev c (readDesc s.dev c) ≠ 0) → Yields (.moverGo c v) s (fun d =>
      (d.mover c).state = .rejected ∧ (d.mover c).reason = moverReason s.dev c (readDesc s.dev c) ∧
      (∀ k, k ≠ c → d.mover k = s.dev.mover k) ∧ d.flag Reg.MEM_IRQ_STAT 1 = true ∧ Counts s d Reg.MEM_CNT_MV_REJ ∧
      RegsKept s d [Reg.MEM_IRQ_STAT, Reg.MEM_CNT_MV_REJ] ∧ d.mem = { s.dev.mem with movers := d.mem.movers })) ∧
    ((s.dev.mover c).state = .busy → v.getLsbD 1 = false → exec (.moverGo c v) s = .next s) ∧
    ((s.dev.mover c).state = .busy → v.getLsbD 1 = true → Yields (.moverGo c v) s (fun d =>
      d.mover c = { s.dev.mover c with state := .aborted } ∧ (∀ k, k ≠ c → d.mover k = s.dev.mover k) ∧ d.regs = s.dev.regs))) ∧
  (∀ (d : Dev) (c : Nat) (m : Mover), moverReason d c m = 0 → m.srcSpace ≤ 8 → m.dstSpace ≤ 8 →
    d.isOn (spaceDom m.srcSpace) = true ∧ d.isOn (spaceDom m.dstSpace) = true ∧ m.src + m.length ≤ spaceSize m.srcSpace ∧
    m.dst + m.length ≤ spaceSize m.dstSpace ∧ m.src % 4 = 0 ∧ m.dst % 4 = 0 ∧ m.length % 4 = 0 ∧
    (m.srcSpace = m.dstSpace → m.dst + m.length ≤ m.src ∨ m.src + m.length ≤ m.dst) ∧
    (c < 2 → m.srcSpace ≤ 5 ∧ m.dstSpace ≤ 5) ∧ m.srcSpace ≠ 7 ∧ m.dstSpace ≠ 6) ∧
  (∀ (s : State) (c : Nat), s.dev.isOn Dom.memc = true → (s.dev.mover c).state = .busy → (s.dev.mover c).pos = (s.dev.mover c).length →
    Yields (.moverDone c) s (fun d => d.mover c = { s.dev.mover c with state := .done } ∧ (∀ k, k ≠ c → d.mover k = s.dev.mover k) ∧
      ((s.dev.mover c).irq = true → d.flag Reg.MEM_IRQ_STAT 0 = true ∧ RegsKept s d [Reg.MEM_IRQ_STAT]) ∧
      ((s.dev.mover c).irq = false → d.regs = s.dev.regs) ∧
      d = { s.dev with regs := d.regs, mem := { s.dev.mem with movers := d.mem.movers } })) ∧
  (∀ (s : State) (c : Nat), (s.dev.mover c).pos ≠ (s.dev.mover c).length → exec (.moverDone c) s = .next s) ∧
  (∀ (s : State) (c : Nat) (v : Word), s.dev.isOn Dom.memc = true → moverMaster s.dev c = true → v.getLsbD 1 = true →
    (c < 2 → hostTurn s.dev = true) → (s.dev.mover c).state = .busy → Yields (.moverAbort c v) s (fun d => d.mover c = { s.dev.mover c with state := .aborted } ∧
      (∀ k, k ≠ c → d.mover k = s.dev.mover k) ∧ d = { s.dev with mem := { s.dev.mem with
        movers := d.mem.movers, laneMov := { s.dev.mem.laneMov with part := 0 } } })) ∧
  (∀ (s : State) (c : Nat) (v : Word), (s.dev.mover c).state ≠ .busy → exec (.moverAbort c v) s = .next s)

/-- A mover burst, of the channel whose turn it is among those that can move: up to 64 bytes move in ascending order from the source to the destination, no other byte of the
destination changes, and the position and, where it is asked for, the CRC advance (R438); words to the parameter store
are posted on port H, where a read already sees them (R414, R438), and wait while the queue has no room (R413); bytes to
the flash are programmed (the model programs by clearing bits: log 10), while its pads are not latched (R481).  A burst
waits for a borrow of the region it writes to (R441; log 22). -/
def Obligations.MoverBurstsCopyBytes : Prop :=
  let running (s : State) (c : Nat) (m : Mover) : Prop :=
    s.dev.isOn Dom.memc = true ∧ m = s.dev.mover c ∧ burstNext s.dev = some c
  let after (s t : State) (c n : Nat) (m : Mover) (bs : List Byte) : Prop :=
    t.dev.mover c = { m with pos := m.pos + n, crc := if m.crcOn then crcMore m.crc bs else m.crc } ∧
    (∀ k, k ≠ c → t.dev.mover k = s.dev.mover k) ∧ t.pending = s.pending ∧ t.prot.lock = s.prot.lock ∧ t.prot.floor = s.prot.floor ∧
    t.prot.marker = s.prot.marker ∧ t.dev.par = s.dev.par ∧ t.dev.pwr = s.dev.pwr
  (∀ (s : State) (c n : Nat) (m : Mover) (bs : List Byte), running s c m → m.dstSpace ∈ [0, 2, 3, 4, 5, 8] → n = min 64 (m.length - m.pos) →
    bs = spaceRead s m.srcSpace (m.src + m.pos) n →
    Answers (.moverBurst c) s (fun t => after s t c n m bs ∧ spaceRead t m.dstSpace (m.dst + m.pos) n = bs ∧
      (∀ a, a < m.dst + m.pos ∨ m.dst + m.pos + n ≤ a → spaceRead t m.dstSpace a 1 = spaceRead s m.dstSpace a 1) ∧
      t.prot = s.prot ∧ t.dev.mem.pstore = s.dev.mem.pstore)) ∧
  (∀ (s : State) (c n : Nat) (m : Mover) (bs : List Byte), running s c m → m.dstSpace = 1 → n = min 64 (m.length - m.pos) → n % 4 = 0 →
    (m.dst + m.pos) % 4 = 0 → m.dst + m.pos + n ≤ 0x80000 → bs = spaceRead s m.srcSpace (m.src + m.pos) n →
    s.dev.hqMgmt + n / 4 ≤ 42 → s.dev.port.hq.length + n / 4 ≤ 256 →
    Answers (.moverBurst c) s (fun t => after s t c n m bs ∧ spaceRead t 1 (m.dst + m.pos) n = bs ∧ t.dev.hqMgmt = s.dev.hqMgmt + n / 4 ∧
      t.prot = s.prot ∧ t.dev.mem.pstore = s.dev.mem.pstore)) ∧
  (∀ (s : State) (c : Nat), (s.dev.mover c).dstSpace = 1 → 42 < s.dev.hqMgmt + (s.dev.mover c).burst / 4 → exec (.moverBurst c) s = .next s) ∧
  (∀ (s : State) (c n : Nat) (m : Mover) (bs : List Byte), running s c m → m.dstSpace = 7 → s.dev.nvReach = true → n = min 64 (m.length - m.pos) →
    bs = spaceRead s m.srcSpace (m.src + m.pos) n →
    Answers (.moverBurst c) s (fun t => after s t c n m bs ∧
      flashBytes t.prot.flash (m.dst + m.pos) n = List.zipWith (· &&& ·) (flashBytes s.prot.flash (m.dst + m.pos) n) bs ∧
      (∀ a, a < m.dst + m.pos ∨ m.dst + m.pos + n ≤ a → flashBytes t.prot.flash a 1 = flashBytes s.prot.flash a 1))) ∧
  (∀ (s : State) (c : Nat), moverBorrowed s.dev (s.dev.mover c) (s.dev.mover c).burst = true → exec (.moverBurst c) s = .next s) ∧
  (∀ (d : Dev) (c : Nat), c < 4 → burstReady d c = true → c = d.mem.turn ∨ (∀ k, k < 4 → k ≠ c → burstReady d k = false) →
    burstNext d = some c) ∧
  (∀ (s : State) (c : Nat), (s.dev.mover c).state ≠ .busy → exec (.moverBurst c) s = .next s)

/-- The patrol borrows the next region of the banks whose domains are ON, in ascending order, and counts a lap past the
last (R440).  That no byte of any bank changes through a borrow, a test or an abort is the model's choice (R440 to R443;
log 22).  A failed test is recorded, counted and logged and sets bit 5 of MGT_FAULT, which drives the pin FAULT_N low
where MGT_FAULT_EN enables it (R443, R519); an instruction fetch from a borrowed region of management RAM aborts the
borrow, which is counted and logged (R442). -/
def Obligations.PatrolBorrowsAndRestores : Prop :=
  let kept (s : State) (d : Dev) (p : Patrol) : Prop := d.mem = { s.dev.mem with patrol := p }
  (∀ (s : State) (b n k : Nat), s.dev.isOn Dom.mgmt = true → s.dev.mgt.mode = 2 → s.dev.isOn Dom.memc = true →
    s.dev.flag Reg.MEM_PAT_CTL 31 = true → s.dev.mem.patrol.borrowed = false → s.dev.mem.patrol.started = true →
    s.dev.mem.patrol.bank = b → (patrolOpen s.dev).find? (fun x => x.1 == b) = some (b, n, k) →
    (s.dev.mem.patrol.region + 1 < n → exec .patrolBorrow s = .next { s with dev := { s.dev with mem := { s.dev.mem with
      patrol := { s.dev.mem.patrol with region := s.dev.mem.patrol.region + 1, borrowed := true } } } }) ∧
    (n ≤ s.dev.mem.patrol.region + 1 → (∀ x ∈ patrolOpen s.dev, x.1 ≤ b) → Yields .patrolBorrow s (fun d =>
      kept s d d.mem.patrol ∧ d.mem.patrol.region = 0 ∧ d.mem.patrol.laps = (s.dev.mem.patrol.laps + 1) % 4096 ∧
      d.mem.patrol.borrowed = true ∧ d.mem.patrol.bank = ((patrolOpen s.dev).headD (0, 0, 0)).1))) ∧
  (∀ s : State, s.dev.flag Reg.MEM_PAT_CTL 31 = false ∨ s.dev.mem.patrol.borrowed = true → exec .patrolBorrow s = .next s) ∧
  (∀ s : State, s.dev.mem.patrol.borrowed = true →
    exec (.patrolRestore true) s = .next { s with dev := { s.dev with mem := { s.dev.mem with
      patrol := { s.dev.mem.patrol with borrowed := false } } } } ∧
    (s.dev.isOn Dom.memc = true → s.dev.mem.patrol.bank < 256 → s.dev.mem.patrol.region < 2 ^ 12 →
      Yields (.patrolRestore false) s (fun d => kept s d { s.dev.mem.patrol with borrowed := false } ∧
      d.flag Reg.MEM_PAT_FAIL 31 = true ∧ d.fld Reg.MEM_PAT_FAIL 27 20 = s.dev.mem.patrol.bank ∧
      d.fld Reg.MEM_PAT_FAIL 11 0 = s.dev.mem.patrol.region ∧ d.flag Reg.MEM_IRQ_STAT 3 = true ∧ Counts s d Reg.MEM_CNT_PAT_FAIL ∧
      d.flag Reg.MGT_FAULT 5 = true ∧ Logs s d 8 1 3 [s.dev.mem.patrol.bank, 0, s.dev.mem.patrol.region % 256, s.dev.mem.patrol.region / 256] ∧
      (s.dev.flag Reg.MGT_FAULT_EN 5 = true → faultLow d = true) ∧
      RegsKept s d [Reg.MEM_PAT_FAIL, Reg.MEM_IRQ_STAT, Reg.MEM_CNT_PAT_FAIL, Reg.MGT_FAULT, Reg.MGT_IRQ_STAT, Reg.MGT_CNT_LOG_DROP]))) ∧
  (∀ s : State, s.dev.mem.patrol.borrowed = true → s.dev.mem.patrol.bank = 0x28 → s.dev.isOn Dom.memc = true →
    Yields .patrolAbort s (fun d => kept s d { s.dev.mem.patrol with borrowed := false } ∧ Counts s d Reg.MEM_CNT_PAT_ABORT ∧
      d.flag Reg.MEM_IRQ_STAT 2 = true ∧ Logs s d 8 2 0 [0x28, 0, s.dev.mem.patrol.region % 256, s.dev.mem.patrol.region / 256] ∧
      RegsKept s d [Reg.MEM_CNT_PAT_ABORT, Reg.MEM_IRQ_STAT, Reg.MGT_CNT_LOG_DROP])) ∧
  (∀ (s : State) (pass : Bool), s.dev.mem.patrol.borrowed = false → exec (.patrolRestore pass) s = .next s ∧ exec .patrolAbort s = .next s)

/-- Chronographs: a tick raises the count by 1, or brings it from RELOAD to 0 with the WRAP bit and its event; a value
equal to a compare register sets its bit and raises its event (R448, R449, R451, R454); the prescaler's tick is every
(P + 1)-th edge from the edge at which it began (R450); EN sets and clears for the chronographs named, with CLR the counts
too, and the prescaler begins anew (R452); CLEAR zeroes the count with no WRAP and restarts the prescaler (R452); a RELOAD
below the count sets SHORTENED (R453).  A captured count, the ticks of its edge included, is kept and FRESH sets, a capture
over an unread one sets the overrun bit, and a read clears FRESH (R455, R456).  While the reference is lost a write waits for the edge at which it is valid again
(R446; log 23). -/
def Obligations.ChronographsCountAndCapture : Prop :=
  let counts (s : State) (b : List (Nat × Nat × Nat)) (c : Nat) (d : Dev) : Prop :=
    let reload := (s.dev.reg (Reg.CHR_RELOAD c)).toNat
    (d.chr c).count = (if reload ≤ (s.dev.chr c).count then 0 else (s.dev.chr c).count + 1) ∧
    (d.flag (Reg.CHR_STAT c) 3 = true ↔ s.dev.flag (Reg.CHR_STAT c) 3 = true ∨ (d.chr c).count = 0) ∧
    (d.flag (Reg.CHR_STAT c) 1 = true ↔ s.dev.flag (Reg.CHR_STAT c) 1 = true ∨ (d.chr c).count = (s.dev.reg (Reg.CHR_CMP0 c)).toNat) ∧
    (d.flag (Reg.CHR_STAT c) 2 = true ↔ s.dev.flag (Reg.CHR_STAT c) 2 = true ∨ (d.chr c).count = (s.dev.reg (Reg.CHR_CMP1 c)).toNat) ∧
    d.cnt.bus = b ++ (if (d.chr c).count = (s.dev.reg (Reg.CHR_CMP0 c)).toNat then [(d.cnt.edge, 48 + c, 1)] else []) ++
      (if (d.chr c).count = (s.dev.reg (Reg.CHR_CMP1 c)).toNat then [(d.cnt.edge, 64 + c, 1)] else []) ++
      (if (d.chr c).count = 0 then [(d.cnt.edge, 80 + c, 1)] else []) ∧
    (∀ k, k ≠ c → d.chr k = s.dev.chr k) ∧ RegsKept s d [Reg.CHR_STAT c] ∧ d = { s.dev with regs := d.regs, cnt := d.cnt, outs := d.outs }
  (∀ (s : State) (c : Nat), s.dev.chrRuns = true → c < 16 → c < s.dev.cnt.chr.length → s.dev.flag (Reg.CHR_CTL c) 0 = true →
    (∀ x, s.dev.fld (Reg.CHR_CTL c) 3 1 = 3 → x = prescaledNext s.dev c →
      (edgeNear s.dev x = true → Yields (.chrTick c 1) s (fun d => counts s (edgeTo x s.dev).cnt.bus c d ∧
        (d.chr c).ticks = (s.dev.chr c).ticks ∧ d.cnt.edge = max s.dev.cnt.edge x ∧ (d.chr c).from_ = x + 1 ∧
        (d.chr c).origin = (s.dev.chr c).origin)) ∧
      (edgeNear s.dev x = false → exec (.chrTick c 1) s = .next s)) ∧
    (∀ r : List Nat, s.dev.fld (Reg.CHR_CTL c) 3 1 ∈ [1, 2, 4, 5, 6] → (s.dev.chr c).ticks = 1 :: r →
      Yields (.chrTick c 1) s (fun d => counts s s.dev.cnt.bus c d ∧ (d.chr c).ticks = r ∧ d.cnt.edge = s.dev.cnt.edge))) ∧
  (∀ (d : Dev) (c p o x : Nat), p = d.fld (Reg.CHR_CTL c) 31 16 + 1 → o = (d.chr c).origin → x = prescaledNext d c →
    o < x ∧ (d.chr c).from_ ≤ x ∧ (x - o) % p = 0 ∧ (∀ y, o < y → (d.chr c).from_ ≤ y → (y - o) % p = 0 → x ≤ y)) ∧
  (∀ (d : Dev) (c n : Nat), countPast d c 0 = (d.chr c).count ∧
    countPast d c (n + 1) = if (d.reg (Reg.CHR_RELOAD c)).toNat ≤ countPast d c n then 0 else countPast d c n + 1) ∧
  (∀ (s : State) (c n : Nat), s.dev.flag (Reg.CHR_CTL c) 0 = false → exec (.chrTick c n) s = .next s) ∧
  (∀ (s : State) (v : Word) (c n a : Nat) (i : Instr), s.dev.isOn Dom.ctrl = true → s.dev.frame.refValid = false → hostTurn s.dev = true →
    (a, i) ∈ [(Reg.CHR_START, Instr.chrStart v), (Reg.CHR_STOP, .chrStop v), (Reg.CHR_CTL c, .chrClear c v),
      (Reg.CHR_RELOAD c, .reloadWrite c v), (Reg.CHR_CAPCTL c, .captureSw c v), (Reg.EVC_GLB, .evcFreeze v), (Reg.EVC_CFG n, .evcClr n v)] →
    exec i s = .next { s with dev := { s.dev with cnt := { s.dev.cnt with wait := s.dev.cnt.wait ++ [(a, v)] } } }) ∧
  (∀ (s : State) (v : Word), s.dev.chrRuns = true → hostTurn s.dev = true → s.dev.cnt.chr.length = 16 →
    Yields (.chrStart v) s (fun d => ∀ c, c < 16 →
      (v.getLsbD c = true → d.flag (Reg.CHR_CTL c) 0 = true ∧ d.flag (Reg.CHR_STAT c) 0 = true ∧
        ((d.chr c).count = if v.getLsbD 31 then 0 else (s.dev.chr c).count) ∧
        (d.chr c).origin = if v.getLsbD 31 || !s.dev.flag (Reg.CHR_CTL c) 0 then s.dev.cnt.edge else (s.dev.chr c).origin) ∧
      (v.getLsbD c = false → d.reg (Reg.CHR_CTL c) = s.dev.reg (Reg.CHR_CTL c) ∧ d.chr c = s.dev.chr c)) ∧
    Yields (.chrStop v) s (fun d => ∀ c, c < 16 →
      (v.getLsbD c = true → d.flag (Reg.CHR_CTL c) 0 = false ∧ d.flag (Reg.CHR_STAT c) 0 = false ∧ (d.chr c).count = (s.dev.chr c).count) ∧
      (v.getLsbD c = false → d.reg (Reg.CHR_CTL c) = s.dev.reg (Reg.CHR_CTL c) ∧ d.chr c = s.dev.chr c))) ∧
  (∀ (s : State) (c : Nat) (v : Word), s.dev.chrRuns = true → hostTurn s.dev = true → c < 16 → c < s.dev.cnt.chr.length →
    Yields (.chrClear c v) s (fun d => d.reg (Reg.CHR_CTL c) = v &&& 0xFFFF7FFF ∧ d.flag (Reg.CHR_STAT c) 0 = v.getLsbD 0 ∧
      (v.getLsbD 15 = true → (d.chr c).count = 0 ∧ (d.chr c).origin = s.dev.cnt.edge) ∧ (v.getLsbD 15 = false → (d.chr c).count = (s.dev.chr c).count) ∧
      d.flag (Reg.CHR_STAT c) 3 = s.dev.flag (Reg.CHR_STAT c) 3 ∧ (∀ k, k ≠ c → d.chr k = s.dev.chr k) ∧
      RegsKept s d [Reg.CHR_CTL c, Reg.CHR_STAT c] ∧ d.cnt.bus = s.dev.cnt.bus ∧ d = { s.dev with regs := d.regs, cnt := d.cnt })) ∧
  (∀ (s : State) (c : Nat) (v : Word), s.dev.chrRuns = true → hostTurn s.dev = true → c < 16 →
    Yields (.reloadWrite c v) s (fun d => d.reg (Reg.CHR_RELOAD c) = v ∧
      (v.toNat < (s.dev.chr c).count → d.flag (Reg.CHR_STAT c) 8 = true) ∧
      ((s.dev.chr c).count ≤ v.toNat → RegsKept s d [Reg.CHR_RELOAD c]) ∧ RegsKept s d [Reg.CHR_RELOAD c, Reg.CHR_STAT c] ∧
      d = { s.dev with regs := d.regs })) ∧
  (∀ (s : State) (c n : Nat), s.dev.chrRuns = true → c < 16 → n < 2 →
    (at_ (s.dev.chr c).capDue n []).head? = some 0 → (s.dev.chr c).cap.length = 2 →
    Yields (.chrCapture c n) s (fun d =>
      (d.chr c).cap[n]? = some (countPast s.dev c (if s.dev.fld (Reg.CHR_CTL c) 3 1 = 3 then ticksDue s.dev c else 0)) ∧ d.flag (Reg.CHR_STAT c) (4 + n) = true ∧
      at_ (d.chr c).capDue n [] = (at_ (s.dev.chr c).capDue n []).tail ∧ (d.chr c).count = (s.dev.chr c).count ∧
      (s.dev.flag (Reg.CHR_STAT c) (4 + n) = true → d.flag (Reg.CHR_STAT c) (6 + n) = true) ∧ (∀ k, k ≠ c → d.chr k = s.dev.chr k) ∧
      RegsKept s d [Reg.CHR_STAT c] ∧ d = { s.dev with regs := d.regs, cnt := d.cnt })) ∧
  (∀ (s : State) (c : Nat) (v : Word), s.dev.chrRuns = true → hostTurn s.dev = true → c < 16 → (s.dev.chr c).cap.length = 2 → c < s.dev.cnt.chr.length →
    Yields (.captureSw c v) s (fun d => d.reg (Reg.CHR_CAPCTL c) = v &&& 0x7E7F7E7F ∧
      (v.getLsbD 15 = true → (d.chr c).cap[0]? = some (countPast s.dev c (ticksDue s.dev c)) ∧ d.flag (Reg.CHR_STAT c) 4 = true) ∧
      (v.getLsbD 31 = true → (d.chr c).cap[1]? = some (countPast s.dev c (ticksDue s.dev c)) ∧ d.flag (Reg.CHR_STAT c) 5 = true) ∧
      (v.getLsbD 15 = false → v.getLsbD 31 = false → d.cnt = s.dev.cnt ∧ RegsKept s d [Reg.CHR_CAPCTL c]))) ∧
  (∀ (s : State) (c n : Nat), s.dev.chrRuns = true → c < 16 → n < 2 →
    Yields (.chrCapRead c n) s (fun d => d.flag (Reg.CHR_STAT c) (4 + n) = false ∧ RegsKept s d [Reg.CHR_STAT c] ∧
      (∀ b, b < 32 → b ≠ 4 + n → d.flag (Reg.CHR_STAT c) b = s.dev.flag (Reg.CHR_STAT c) b) ∧ d = { s.dev with regs := d.regs }))

/-- Pins: an accepted CHR_IN level raises its edge's event, and ticks and captures that watch the pin's edge are registered
(R450, R455, R458); a match starts a pulse of PW periods anew (R459), a changed level goes on its way to the pin, which it
reaches 2 + 64 × DLY periods later (R460), and both come at their own edges.

Event counters: the occurrences of one edge are delivered together one period later, at most 255 of a source, the rest
at the next edge (R448); they raise, modulo 2^48, every enabled counter of their source while the counters run, and a wrap
sets the counter's EVC_OVF bit (R462).  The stop source acts before them, prevails over the start source, and a code of 0
never acts (R463).  A write of EVC_GLB starts, stops, clears and freezes the counters, and what FREEZE holds includes the
increments up to its edge (R463 to R465); CLR zeroes one counter (R464). -/
def Obligations.ChronographPinsAndEventCounters : Prop :=
  (
  (∀ (s : State) (k : Nat) (level : Bool), s.dev.chrRuns = true → s.dev.sees Dom.ctrl = true → k < 4 → s.dev.cnt.ins.length = 4 →
    at_ s.dev.cnt.ins k false = !level →
    Yields (.chrInEdge k level) s (fun d => at_ d.cnt.ins k false = level ∧ (∀ j, j ≠ k → at_ d.cnt.ins j false = at_ s.dev.cnt.ins j false) ∧
      d.cnt.bus = s.dev.busWith ((if level then 96 else 100) + k) 1 ∧
      (∀ c, c < 16 → (d.chr c).count = (s.dev.chr c).count ∧
        (d.chr c).ticks = (s.dev.chr c).ticks ++
          (if s.dev.flag (Reg.CHR_CTL c) 0 = true ∧ s.dev.fld (Reg.CHR_CTL c) 3 1 = 5 ∧ s.dev.fld (Reg.CHR_CTL c) 12 11 = k ∧
            edgeTakes (s.dev.fld (Reg.CHR_CTL c) 14 13) level = true then [1] else []) ∧
        (∀ n, n < 2 → at_ (d.chr c).capDue n [] = at_ (s.dev.chr c).capDue n [] ++
          (if s.dev.fld (Reg.CHR_CAPCTL c) (16 * n + 14) (16 * n + 13) = 1 ∧ s.dev.fld (Reg.CHR_CAPCTL c) (16 * n + 12) (16 * n + 11) = k ∧
            edgeTakes (s.dev.fld (Reg.CHR_CAPCTL c) (16 * n + 10) (16 * n + 9)) level = true then [(d.chr c).ticks.length] else []))) ∧
      d = { s.dev with cnt := d.cnt })) ∧
  (∀ (s : State) (k : Nat) (level : Bool), at_ s.dev.cnt.ins k false = level → exec (.chrInEdge k level) s = .next s) ∧
  (∀ (s : State) (k x : Nat) (l : Bool) (r : List (Nat × Bool)), s.dev.chrRuns = true → (s.dev.chrOut k).way = (x, l) :: r →
    (edgeNear s.dev x = true → Yields (.chrOutChange k) s (fun d => d.chrOut k = { s.dev.chrOut k with way := r, pin := l } ∧
      (∀ j, j ≠ k → d.chrOut j = s.dev.chrOut j) ∧
      d = { s.dev with cnt := { s.dev.cnt with
        outs := d.cnt.outs, edge := max s.dev.cnt.edge x, bus := (edgeTo x s.dev).cnt.bus } })) ∧
    (edgeNear s.dev x = false → exec (.chrOutChange k) s = .next s)) ∧
  (∀ (d : Dev) (c k : Nat) (b w : Bool), d.fld (Reg.CHR_OUTCTL k) 11 8 = c → d.fld (Reg.CHR_OUTCTL k) 2 0 = 4 → k < d.cnt.outs.length →
    ∃ o, o = (outEvents c ⟨true, b, w⟩ k d).chrOut k ∧ o.mode = true ∧
      o.pulse = some (d.cnt.edge + countOf (d.fld (Reg.CHR_OUTCTL k) 31 16) 65536) ∧ o.last = !d.flag (Reg.CHR_OUTCTL k) 7 ∧
      (o.last = (d.chrOut k).last → o.way = (d.chrOut k).way) ∧
      (o.last ≠ (d.chrOut k).last → (d.cnt.edge + 2 + 64 * d.fld (Reg.CHR_OUTCTL k) 15 12, o.last) ∈ o.way)) ∧
  (∀ (s : State) (k x : Nat), s.dev.chrRuns = true → (s.dev.chrOut k).pulse = some x →
    (edgeNear s.dev x = true → Yields (.pulseEnd k) s (fun d =>
      (d.chrOut k).pulse = none ∧ (d.chrOut k).mode = false ∧ (∀ j, j ≠ k → d.chrOut j = s.dev.chrOut j) ∧
      d = { s.dev with cnt := { s.dev.cnt with
        outs := d.cnt.outs, edge := max s.dev.cnt.edge x, bus := (edgeTo x s.dev).cnt.bus } })) ∧
    (edgeNear s.dev x = false → exec (.pulseEnd k) s = .next s)) ∧
  (∀ (s : State) (k : Nat), (s.dev.chrOut k).pulse = none → exec (.pulseEnd k) s = .next s)) ∧ (
  let tot (b : List (Nat × Nat × Nat)) (e c : Nat) : Nat := ((b.filter (fun o => o.1 == e && o.2.1 == c)).map (fun o => o.2.2)).sum
  let has (b : List (Nat × Nat × Nat)) (e c : Nat) : Bool := c != 0 && b.any (fun o => o.1 == e && o.2.1 == c)
  let glb (s : State) (v : Word) (d : Dev) : Prop :=
    d.cnt.run = (if v.getLsbD 2 then false else if v.getLsbD 1 then true else s.dev.cnt.run) ∧
    d.cnt.evc = (if v.getLsbD 4 then List.replicate 32 0 else s.dev.cnt.evc) ∧
    d.flag Reg.EVC_GLB 3 = v.getLsbD 3 ∧ d.fld Reg.EVC_GLB 14 8 = v.bits 14 8 ∧ d.fld Reg.EVC_GLB 22 16 = v.bits 22 16 ∧
    d.cnt.evcHeld = (if v.getLsbD 3 = true ∧ s.dev.flag Reg.EVC_GLB 3 = false then d.cnt.evc else s.dev.cnt.evcHeld) ∧
    (v.getLsbD 3 = true → s.dev.flag Reg.EVC_GLB 3 = false → d.cnt.frozeAt = s.dev.cnt.edge) ∧
    d.cnt.chr = s.dev.cnt.chr ∧ d.cnt.bus = s.dev.cnt.bus ∧ RegsKept s d [Reg.EVC_GLB] ∧ d = { s.dev with regs := d.regs, cnt := d.cnt }
  (∀ (s : State) (e n inc : Nat) (b : List (Nat × Nat × Nat)), s.dev.chrRuns = true → b = s.dev.cnt.bus → b.head?.map Prod.fst = some e →
    edgeNear s.dev (e + 1) = true → s.dev.cnt.evc.length = 32 → s.dev.cnt.evcHeld.length = 32 →
    (∀ v ∈ s.dev.cnt.evc ++ s.dev.cnt.evcHeld, v < 2 ^ 48) → n < 32 → inc = min (tot b e (s.dev.fld (Reg.EVC_CFG n) 6 0)) 255 →
    Yields .eventBusDelivery s (fun d => d.cnt.edge = max s.dev.cnt.edge (e + 1) ∧
      (watchesRefclk s.dev = false → d.cnt.bus = busRest e b) ∧
      d.cnt.run = (if has b e (s.dev.fld Reg.EVC_GLB 22 16) then false else if has b e (s.dev.fld Reg.EVC_GLB 14 8) then true else s.dev.cnt.run) ∧
      (d.cnt.run = true → s.dev.flag (Reg.EVC_CFG n) 7 = true →
        at_ d.cnt.evc n 0 = (at_ s.dev.cnt.evc n 0 + inc) % 2 ^ 48 ∧
        (2 ^ 48 ≤ at_ s.dev.cnt.evc n 0 + inc → d.flag Reg.EVC_OVF n = true) ∧
        (s.dev.flag Reg.EVC_GLB 3 = true → e + 1 ≤ s.dev.cnt.frozeAt →
          at_ d.cnt.evcHeld n 0 = (at_ s.dev.cnt.evcHeld n 0 + inc) % 2 ^ 48)) ∧
      (d.cnt.run = false ∨ s.dev.flag (Reg.EVC_CFG n) 7 = false → at_ d.cnt.evc n 0 = at_ s.dev.cnt.evc n 0) ∧
      (s.dev.cnt.frozeAt ≤ e → d.cnt.evcHeld = s.dev.cnt.evcHeld) ∧
      (∀ c, c < 16 → (d.chr c).count = (s.dev.chr c).count) ∧
      RegsKept s d [Reg.EVC_OVF] ∧ d = { s.dev with regs := d.regs, cnt := d.cnt })) ∧
  (∀ (b : List (Nat × Nat × Nat)) (e c : Nat), c < 128 → tot (busRest e b) e c = 0 ∧
    tot (busRest e b) (e + 1) c = tot b (e + 1) c + (tot b e c - 255) ∧ (∀ x, x ≠ e → x ≠ e + 1 → tot (busRest e b) x c = tot b x c)) ∧
  (∀ (s : State) (e : Nat), s.dev.cnt.bus.head?.map Prod.fst = some e → edgeNear s.dev (e + 1) = false → exec .eventBusDelivery s = .next s) ∧
  (∀ s : State, s.dev.cnt.bus = [] → exec .eventBusDelivery s = .next s) ∧
  (∀ (s : State) (v : Word), s.dev.chrRuns = true → hostTurn s.dev = true →
    (v.getLsbD 1 = true → Yields (.evcStart v) s (glb s v)) ∧ (v.getLsbD 2 = true → Yields (.evcStop v) s (glb s v)) ∧
    (v.getLsbD 4 = true → Yields (.evcClearAll v) s (glb s v)) ∧ Yields (.evcFreeze v) s (glb s v)) ∧
  (∀ (s : State) (n : Nat) (v : Word), s.dev.chrRuns = true → hostTurn s.dev = true → n < 32 → n < s.dev.cnt.evc.length →
    Yields (.evcClr n v) s (fun d => d.reg (Reg.EVC_CFG n) = v &&& 0xFF ∧
      at_ d.cnt.evc n 0 = (if v.getLsbD 8 then 0 else at_ s.dev.cnt.evc n 0) ∧ (∀ k, k ≠ n → at_ d.cnt.evc k 0 = at_ s.dev.cnt.evc k 0) ∧
      RegsKept s d [Reg.EVC_CFG n] ∧ d = { s.dev with regs := d.regs, cnt := { s.dev.cnt with evc := d.cnt.evc } })))

/-- Power requests, one at a time with no other request under way: an entry from ON waits for its handshake in its batch
(R474, R478); one whose dependent is ON is refused with reason 1h (R31, R474); RET to OFF is done at once, and the present
state, or RET from OFF, is settled at once (R475); a wake with its prerequisites ON waits its turn to run (R474, R477).
Where the same arbitration has asked for a domain's wake, the wake stands and the entry ends CANCELLED, and an entry asked
for behind an acknowledged one replaces the wake that waits there (R476; what one arbitration is: log 24).  A write of
PWR_REQ without GO, or with TARGET 11b, makes no request (R491). -/
def Obligations.PowerBatchesAreSettledOrStarted : Prop :=
  let quiet (s : State) : Prop := (∀ m, (s.dev.dom m).phase = .rest ∧ (s.dev.dom m).wakeNext = none) ∧ s.dev.pwr.open_ = [] ∧ s.dev.pwr.arb = []
  let only (s : State) (n : Nat) (d : Dev) : Prop := ∀ m, m ≠ n → d.dom m = s.dev.dom m
  let asks (s : State) (v : Word) (n code : Nat) : Prop := quiet s ∧ hostTurn s.dev = true ∧ v.getLsbD 0 = true ∧ v.bits 9 8 = code ∧
    s.dev.reg Reg.PWR_REQ_MASK = BitVec.ofNat 32 (2 ^ n) ∧ 0 < n ∧ n < 30 ∧ n < s.dev.pwr.doms.length
  let settled (s : State) (n result : Nat) (d : Dev) : Prop := (d.dom n).result = result ∧ (d.dom n).phase = .rest ∧
    d.pwr.open_ = [] ∧ d.flag Reg.PWR_IRQ_STAT 0 = true ∧ d.pwr.batch = s.dev.pwr.batch + 1
  (∀ (s : State) (v : Word) (n : Nat) (t : DomState), (v.bits 9 8 = 1 ∧ t = .ret) ∨ (v.bits 9 8 = 2 ∧ t = .off) → asks s v n (v.bits 9 8) →
    (s.dev.dom n).state = .on →
    (dependentOn s.dev n = false → Yields (.powerBatch v) s (fun d => d.dom n = { s.dev.dom n with phase := .asked t, batch := s.dev.pwr.batch + 1 } ∧
      only s n d ∧ d.pwr.open_ = [s.dev.pwr.batch + 1] ∧ d.pwr.ready = s.dev.pwr.ready ∧ RegsKept s d [Reg.PWR_REQ] ∧ d.mem = s.dev.mem)) ∧
    (dependentOn s.dev n = true → Yields (.powerBatch v) s (fun d => settled s n 2 d ∧ (d.dom n).reason = 1 ∧ (d.dom n).state = .on ∧
      only s n d ∧ d.flag Reg.PWR_IRQ_STAT 1 = true ∧ d.mem = s.dev.mem))) ∧
  (∀ (s : State) (v : Word) (n : Nat), asks s v n 2 → (s.dev.dom n).state = .ret →
    Yields (.powerBatch v) s (fun d => settled s n 1 d ∧ (d.dom n).state = .off ∧ only s n d)) ∧
  (∀ (s : State) (v : Word) (n : Nat), asks s v n 1 → (s.dev.dom n).state = .off →
    Yields (.powerBatch v) s (fun d => settled s n 2 d ∧ (d.dom n).reason = 2 ∧ (d.dom n).state = .off ∧ only s n d ∧ d.mem = s.dev.mem)) ∧
  (∀ (s : State) (v : Word) (n : Nat), asks s v n 0 → (s.dev.dom n).state = .on → (∀ m, m ∈ allPrereqs n → (s.dev.dom m).state = .on) →
    Yields (.powerBatch v) s (fun d => settled s n 1 d ∧ (d.dom n).state = .on ∧ only s n d ∧ d.mem = s.dev.mem)) ∧
  (∀ (s : State) (v : Word) (n : Nat), asks s v n 0 → (s.dev.dom n).state ≠ .on → (∀ m, m ∈ allPrereqs n → (s.dev.dom m).state = .on) →
    Yields (.powerBatch v) s (fun d => (d.dom n).phase = .waking ∧ (d.dom n).state = (s.dev.dom n).state ∧ (d.dom n).batch = s.dev.pwr.batch + 1 ∧
      n ∈ d.pwr.ready ∧ only s n d ∧ d.pwr.open_ = [s.dev.pwr.batch + 1] ∧ RegsKept s d [Reg.PWR_REQ] ∧ d.mem = s.dev.mem)) ∧
  (∀ (s : State) (v : Word) (n : Nat), hostTurn s.dev = true → v.getLsbD 0 = true → v.bits 9 8 ∈ [1, 2] → 0 < n → n < 30 →
    n < s.dev.pwr.doms.length → s.dev.reg Reg.PWR_REQ_MASK = BitVec.ofNat 32 (2 ^ n) →
    (n ∈ s.dev.pwr.arb → (s.dev.dom n).phase = .waking →
      Yields (.powerBatch v) s (fun d => d.dom n = { s.dev.dom n with result := 3 } ∧ d.pwr.ready.contains n = s.dev.pwr.ready.contains n)) ∧
    (∀ t, s.dev.pwr.arb = [] → (s.dev.dom n).phase = .acked t →
      Yields (.powerBatch v) s (fun d => d.dom n = { s.dev.dom n with
        wakeNext := none, entryNext := some (s.dev.pwr.batch + 1, if v.bits 9 8 = 1 then .ret else .off)
        result := if (s.dev.dom n).wakeNext.isSome then 3 else (s.dev.dom n).result }))) ∧
  (∀ (s : State) (v : Word), hostTurn s.dev = true → v.getLsbD 0 = false ∨ v.bits 9 8 = 3 →
    Yields (.powerBatch v) s (fun d => d.fld Reg.PWR_REQ 9 8 = v.bits 9 8 ∧ RegsKept s d [Reg.PWR_REQ] ∧ d = { s.dev with regs := d.regs }))

/-- The agent of a domain asked to leave ON refuses at once with the reason R480 gives, or answers DELAY while a
condition holds, or ACK, after which its entry waits its turn (R478, R480); a DELAY that outlasts its bound is refused
with reason 5h and no answer with reason Bh (R478, R480).  A refused domain stays ON and its request has ended. -/
def Obligations.AgentsAnswerEntryRequests : Prop :=
  let asked (s : State) (n : Nat) (t : DomState) : Prop := (s.dev.dom n).phase = .asked t ∧ dependentEntering s.dev n = false ∧
    dependentOn s.dev n = false
  let refused (s : State) (n why : Nat) (d : Dev) : Prop := (d.dom n).phase = .rest ∧ (d.dom n).result = 2 ∧ (d.dom n).reason = why ∧
    (d.dom n).state = (s.dev.dom n).state ∧ d.flag Reg.PWR_IRQ_STAT 1 = true ∧ d.mem = s.dev.mem ∧ d.par = s.dev.par
  (∀ (s : State) (n : Nat) (t : DomState), asked s n t → n < 13 →
    (agentRefuses s.dev n ≠ 0 → Yields (.agentAnswer n) s (refused s n (agentRefuses s.dev n))) ∧
    (agentRefuses s.dev n = 0 → agentDelays s.dev n = true → Yields (.agentAnswer n) s (fun d =>
      d.dom n = { s.dev.dom n with phase := .delayed t } ∧ (∀ m, m ≠ n → d.dom m = s.dev.dom m) ∧ d.regs = s.dev.regs ∧ d.mem = s.dev.mem)) ∧
    (agentRefuses s.dev n = 0 → agentDelays s.dev n = false → Yields (.agentAnswer n) s (fun d =>
      d.dom n = { s.dev.dom n with phase := .acked t } ∧ n ∈ d.pwr.ready ∧ (∀ m, m ≠ n → d.dom m = s.dev.dom m) ∧ d.regs = s.dev.regs ∧
      d.mem = s.dev.mem))) ∧
  (∀ (s : State) (c v : Nat) (t : DomState), asked s (14 + c) t → v ∈ cluSlots c → slotBusy s.dev v = true →
    Yields (.agentAnswer (14 + c)) s (refused s (14 + c) 3)) ∧
  (∀ d : Dev, (d.mgt.session.isSome = true → agentRefuses d Dom.mgmt = 0xA) ∧
    ((∃ t ∈ d.alm.pool, t.state = .waiting) → agentRefuses d Dom.ctrl = 6) ∧
    ((∃ k, k < 6 ∧ d.flag (Reg.TDM_CTL k) 0 = true) → agentRefuses d Dom.tdm = 7) ∧
    (d.cas.en = true → agentRefuses d Dom.cas = 8) ∧ (d.cal.fgBusy = true → agentRefuses d Dom.cal = 9) ∧
    (∀ g k, g < 4 → k < 8 → d.flag Reg.OUT_EN (8 * g + k) = true → agentRefuses d (Dom.out g) = 4)) ∧
  (∀ (s : State) (n : Nat) (t : DomState), (s.dev.dom n).phase = .delayed t →
    Yields (.agentDelayTimeout n) s (refused s n 5) ∧ Yields (.powerNoAnswer n) s (refused s n 0xB)) ∧
  (∀ (s : State) (n : Nat) (t : DomState), (s.dev.dom n).phase = .asked t → Yields (.powerNoAnswer n) s (refused s n 0xB)) ∧
  (∀ (s : State) (n : Nat), (s.dev.dom n).phase = .rest → exec (.agentAnswer n) s = .next s ∧ exec (.agentDelayTimeout n) s = .next s ∧
    exec (.powerNoAnswer n) s = .next s)

/-- Domains leave ON and come back: at its turn an acknowledged entry puts the domain in its target state with its pads
latched, its save list kept and its registers at their reset values, RET keeps the banks and OFF loses them (R430, R470,
R472, R479, R481, R482); it waits for a borrow of the save RAM (R441); at its turn a wake, CTRL's with the reference
valid, reports the domain ON, and the saved fields of every domain read as they were saved, an output group's own bits of
the registers it shares too (R355, R482, R487).  PAD_RELEASE releases the pads of domains that are ON and of no other (R481). -/
def Obligations.DomainsEnterAndWake : Prop :=
  (∀ (s : State) (n : Nat) (t : DomState), (s.dev.dom n).phase = .acked t → execDomain s.dev = some n → (s.dev.dom n).wakeNext = none → n ≠ 0 →
    (s.dev.dom n).entryNext = none → saveRamBorrowed s.dev = false →
    Yields (.domainEntry n) s (fun d => (d.dom n).state = t ∧ (d.dom n).phase = .rest ∧ (d.dom n).result = 1 ∧ (d.dom n).latched = hasPads n ∧
      (d.dom n).saved = saveList s.dev n ∧ n ∉ d.pwr.ready ∧
      (∀ a, blockDom a = n → a ∉ groupRegs → a ≠ Reg.OUT_FAULT → a ≠ Reg.MGT_CNT_LOG_DROP → d.reg a = regReset a) ∧
      (∀ a, blockDom a ≠ n → blockDom a ≠ 0 → a ∉ groupRegs → a ≠ Reg.OUT_FAULT → a ≠ Reg.MGT_CNT_LOG_DROP → d.reg a = s.dev.reg a) ∧
      (t = .ret → d.mem.pstore = s.dev.mem.pstore ∧ d.mem.wave = s.dev.mem.wave ∧ d.mem.waveLoss = s.dev.mem.waveLoss ∧
        d.mem.outwave = s.dev.mem.outwave ∧ d.mem.mram = s.dev.mem.mram) ∧
      (t = .off → (n = Dom.ctrl → d.mem.pstore = []) ∧ (n = Dom.mgmt → d.mem.mram = []) ∧
        (n = Dom.memc → d.mem.wave = [] ∧ d.mem.waveLoss = s.dev.mem.waveLoss + 1 ∧ d.mem.dramReady = false) ∧
        (∀ g, g < 4 → n = Dom.out g → (∀ a, a < 0x10000 → d.ow8 g a = 0) ∧ ∀ h a, h ≠ g → a < 0x10000 → d.ow8 h a = s.dev.ow8 h a)))) ∧
  (∀ (s : State) (n : Nat), (s.dev.dom n).phase = .rest → exec (.domainEntry n) s = .next s) ∧
  (∀ (s : State) (n : Nat), saveRamBorrowed s.dev = true → exec (.domainEntry n) s = .next s) ∧
  (∀ (s : State) (n : Nat), (s.dev.dom n).phase = .rest → s.dev.boot.streams = [] → exec (.domainWake n) s = .next s) ∧
  (∀ (s : State) (n : Nat), (s.dev.dom n).phase = .waking → execDomain s.dev = some n → (n = Dom.ctrl → s.dev.frame.refValid = true) →
    (n = Dom.mgmt → (s.dev.dom n).cold = false) →
    Yields (.domainWake n) s (fun d => (d.dom n).state = .on ∧ (d.dom n).phase = .rest ∧ (d.dom n).result = 1 ∧ (d.dom n).everOn = true ∧
      n ∉ d.pwr.ready ∧ (∀ m, m ≠ n → d.dom m = s.dev.dom m) ∧ (n = Dom.ctrl → d.timerRuns = true) ∧
      (s.dev.flag Reg.PWR_PAD_AUTO n = false → n ≠ 0 → (∀ e ∈ (s.dev.dom n).saved, blockDom e.1 = n) → (d.dom n).latched = (s.dev.dom n).latched) ∧
      (n = Dom.serial → ((s.dev.dom n).saved.map Prod.fst).Nodup → ∀ a w, (a, w) ∈ (s.dev.dom n).saved → blockDom a = n →
        d.reg a = Word.merge (regReset a) w (savedBits a)) ∧
      (n ≠ 0 → ((s.dev.dom n).saved.map Prod.fst).Nodup → ∀ a w, (a, w) ∈ (s.dev.dom n).saved → blockDom a = n → a ∉ groupRegs → a ≠ Reg.CAS_CTL →
        (∀ k, k < 4 → a ≠ Reg.MEM_MV_DESC0 2 + 4 * k) → d.reg a &&& savedBits a = w &&& savedBits a) ∧
      (∀ g, g < 4 → n = Dom.out g → (s.dev.dom n).everOn = true → ((s.dev.dom n).saved.map Prod.fst).Nodup →
        ∀ a w, (a, w) ∈ (s.dev.dom n).saved → a ∈ groupRegs → d.reg a &&& groupBits g = w &&& groupBits g) ∧ d.mem.pstore = s.dev.mem.pstore ∧ d.mem.wave = s.dev.mem.wave)) ∧
  (∀ (s : State) (v : Word), hostTurn s.dev = true → Yields (.padRelease v) s (fun d =>
      (∀ n, n < 30 → d.dom n = (if 0 < n ∧ v.getLsbD n = true ∧ s.dev.isOn n = true then { s.dev.dom n with latched := false } else s.dev.dom n)) ∧
      (v.getLsbD Dom.ctrl = true → s.dev.isOn Dom.ctrl = true → d.cnt.latched = none) ∧
      d.regs = s.dev.regs ∧ d.mem = s.dev.mem ∧ d.outs = s.dev.outs))

/-- A failed wake step, the power step of any domain or CTRL's wait for the reference, takes all power from the domain, with
MGMT its log, and is logged, FAIL_STEP names it (R488, R495), and 1 ms later the wake is tried again as from OFF; after the
third failed retry the domain is FAILED, FAULT_N's bit and PWR_IRQ_STAT.FAILED set (R488).

Wake sources: an enabled source that fires with a target neither ON nor waking is recorded, sets PWR_IRQ_STAT.WAKE and
asks for its targets' wakes; a target whose entry still waits has it withdrawn, and one whose entry is acknowledged wakes
behind it (R476); with every target ON or waking the source is ignored, disabled too (R485).  Serial detectors count
accepted pulses: a pulse of a width outside the window, or a gap above 4 × WMAX before it, starts the count again, and the
pulse numbered COUNT_M1 + 1 completes the pattern (R486); a disarmed detector re-arms (R486).  That the firing is a source
of its own behind that pulse, after which the count starts again, is the model's choice (log 25). -/
def Obligations.WakesRetryAndSourcesFire : Prop :=
  (
  (∀ (s : State) (n st f : Nat), (s.dev.dom n).phase = .waking → (st = 2 ∧ f = 1) ∨ (n = Dom.ctrl ∧ st = 3 ∧ f = 2) →
    ((s.dev.dom n).attempts < 3 → Yields (.wakeStepTimeout n st) s (fun d => (d.dom n).state = .off ∧ (d.dom n).phase = .retryWait ∧
      (d.dom n).attempts = (s.dev.dom n).attempts + 1 ∧ (d.dom n).failStep = f ∧ (d.dom n).cold = true ∧ n ∉ d.pwr.ready ∧
      (∀ m, m ≠ n → d.dom m = s.dev.dom m) ∧ (n ≠ Dom.mgmt → Logs s d 2 1 1 [n, f]) ∧
      (n = Dom.mgmt → d.mem.mram = [] ∧ d.mgt.total = 0 ∧ (s.dev.mgt.queue.length < 32 →
        ∃ e, d.mgt.queue = s.dev.mgt.queue ++ [e] ∧ e.source = 2 ∧ e.code = 1 ∧ e.sev = 1 ∧ e.data = [BitVec.ofNat 8 n, BitVec.ofNat 8 f])) ∧
      RegsKept s d [Reg.MGT_CNT_LOG_DROP])) ∧
    (3 ≤ (s.dev.dom n).attempts → Yields (.wakeStepTimeout n st) s (fun d => (d.dom n).state = .failed ∧ (d.dom n).phase = .rest ∧
      (d.dom n).failStep = f ∧ (d.dom n).latched = (s.dev.dom n).latched ∧ d.flag Reg.MGT_FAULT 4 = true ∧ d.flag Reg.PWR_IRQ_STAT 2 = true ∧
      (∀ m, m < 30 → (s.dev.dom m).wakes = true → n ∈ allPrereqs m → (d.dom m).phase = .rest ∧ (d.dom m).state = (s.dev.dom m).state)))) ∧
  (∀ (s : State) (n : Nat), (s.dev.dom n).phase = .rest → exec (.wakeStepTimeout n 2) s = .next s) ∧
  (∀ (s : State) (n : Nat), (s.dev.dom n).phase = .retryWait →
    Yields (.wakeRetry n) s (fun d => d.dom n = { s.dev.dom n with phase := .waking, cold := true } ∧ (∀ m, m ≠ n → d.dom m = s.dev.dom m) ∧
      d.pwr.ready = s.dev.pwr.ready.filter (· != n) ++ [n] ∧ d = { s.dev with pwr := d.pwr })) ∧
  (∀ (s : State) (n : Nat), (s.dev.dom n).phase ≠ .retryWait → exec (.wakeRetry n) s = .next s)) ∧ (
  (∀ (s : State) (src n : Nat), s.dev.stage ≠ 0 → wakeEnabled s.dev src = true → wakeTargets s.dev src = [n] → (s.dev.dom n).state ≠ .on →
    (s.dev.dom n).phase = .rest → (∀ m, m ∈ allPrereqs n → (s.dev.dom m).state = .on ∧ (s.dev.dom m).phase = .rest) → n < s.dev.pwr.doms.length →
    Yields (.wakeSource src) s (fun d => d.reg Reg.PWR_WAKE_LAST = BitVec.ofNat 32 src ∧ d.flag Reg.PWR_IRQ_STAT 3 = true ∧
      (d.dom n).phase = .waking ∧ n ∈ d.pwr.ready ∧ (d.dom n).state = (s.dev.dom n).state ∧ d.mem = s.dev.mem)) ∧
  (∀ (s : State) (src n : Nat) (t : DomState), s.dev.stage ≠ 0 → wakeEnabled s.dev src = true → wakeTargets s.dev src = [n] →
    (s.dev.dom n).state = .on → (∀ m, m ∈ allPrereqs n → (s.dev.dom m).state = .on ∧ (s.dev.dom m).phase = .rest) → n < s.dev.pwr.doms.length →
    ((s.dev.dom n).phase = .asked t → Yields (.wakeSource src) s (fun d =>
      (d.dom n).phase = .rest ∧ (d.dom n).result = 3 ∧ (d.dom n).state = .on ∧ d.flag Reg.PWR_IRQ_STAT 3 = true)) ∧
    ((s.dev.dom n).phase = .acked t → Yields (.wakeSource src) s (fun d => (d.dom n).phase = .acked t ∧
      (d.dom n).wakeNext.isSome = true ∧ (d.dom n).entryNext = none ∧ d.flag Reg.PWR_IRQ_STAT 3 = true))) ∧
  (∀ (s : State) (src : Nat), wakeEnabled s.dev src = false → exec (.wakeSource src) s = .next s) ∧
  (∀ (s : State) (src : Nat), wakeEnabled s.dev src = true → s.dev.stage ≠ 0 →
    (∀ n ∈ wakeTargets s.dev src, ((s.dev.dom n).state = .on ∧ (s.dev.dom n).entering = false) ∨ (s.dev.dom n).wakes = true) →
    Yields (.wakeSource src) s (fun d => d = { s.dev with pwr := { s.dev.pwr with dets := d.pwr.dets } } ∧
      (∀ k, k ≠ src → d.pwr.dets[k]? = s.dev.pwr.dets[k]?) ∧ (at_ d.pwr.dets src ⟨false, 0⟩).count = 0)) ∧
  (∀ (d : Dev) (n : Nat), n < 4 → d.fld (Reg.PWR_WAKE_SP n) 1 0 = 2 → (wakeEnabled d n = true ↔
    ((at_ d.pwr.dets n ⟨false, 0⟩).disarmed = false ∧ (at_ d.pwr.dets n ⟨false, 0⟩).count = d.fld (Reg.PWR_WAKE_SP n) 3 2 + 1))) ∧
  (∀ (s : State) (n width gap : Nat), n < 4 → n < s.dev.pwr.dets.length → s.dev.fld (Reg.PWR_WAKE_SP n) 1 0 = 2 →
    (at_ s.dev.pwr.dets n ⟨false, 0⟩).disarmed = false →
    Yields (.wakePatternPulse n width gap) s (fun d => d = { s.dev with pwr := { s.dev.pwr with dets := d.pwr.dets } } ∧
      (∀ k, k ≠ n → d.pwr.dets[k]? = s.dev.pwr.dets[k]?) ∧ (at_ d.pwr.dets n ⟨false, 0⟩).disarmed = false ∧
      (at_ d.pwr.dets n ⟨false, 0⟩).count =
        if width < s.dev.fld (Reg.PWR_WAKE_WIN n) 15 0 ∨ s.dev.fld (Reg.PWR_WAKE_WIN n) 31 16 < width then 0
        else if 4 * s.dev.fld (Reg.PWR_WAKE_WIN n) 31 16 < gap ∨
          s.dev.fld (Reg.PWR_WAKE_SP n) 3 2 < (at_ s.dev.pwr.dets n ⟨false, 0⟩).count then 1
        else (at_ s.dev.pwr.dets n ⟨false, 0⟩).count + 1)) ∧
  (∀ (s : State) (n : Nat), n < s.dev.pwr.dets.length →
    Yields (.wakeDetectorRearm n) s (fun d => d = { s.dev with pwr := { s.dev.pwr with dets := d.pwr.dets } } ∧
      (at_ d.pwr.dets n ⟨false, 0⟩).disarmed = false ∧ (∀ k, k ≠ n → d.pwr.dets[k]? = s.dev.pwr.dets[k]?))))

/-- Sensors: the readings are kept; a temperature alarm rises when a sensor has read above its threshold three times in a
row and shows in MGT_ALARM_STAT, and it falls when every sensor has read at least 5 °C below three times; the supply alarm
of a monitor rises when it has read outside its window three times in a row and falls when it has read inside three times
(R500 to R502).  A critical temperature and a supply out of its window set their bits of MGT_FAULT, which drive the pin
FAULT_N low where MGT_FAULT_EN enables them (R502, R519).  While the device is held in reset nothing is measured (R571).  A
bit of MGT_FAULT written 1 clears only when its condition has passed (R519, R525).  That VDD_IO_H's first reading decides
its window is the model's choice (log 25). -/
def Obligations.SensorsRaiseAlarms : Prop :=
  let reading (l : List Word) (k : Nat) : Int := signed 16 ((at_ l k 0).toNat % 65536)
  let warn (s : State) : Int := signed 9 (s.dev.fld Reg.MGT_ALARM_CFG 8 0)
  let crit (s : State) : Int := signed 9 (s.dev.fld Reg.MGT_ALARM_CFG 24 16)
  let window (high : Bool) (k : Nat) : Nat × Nat := at_ [(700, 920), (760, 840), (1710, 1890), (3135, 3465), (1045, 1155),
    if high then (3135, 3465) else (1710, 1890)] k (0, 0)
  let out (s : State) (ms : List Word) (k : Nat) : Prop :=
    let w := window (s.dev.mgt.ioHigh.getD (decide (2500 ≤ (at_ ms 5 0).toNat % 65536))) k
    (at_ ms k 0).toNat % 65536 < w.1 ∨ w.2 < (at_ ms k 0).toNat % 65536
  let vdd (m : Mgmt) (k : Nat) : Alarm := at_ m.supply k (Alarm.reset 1)
  (∀ (s : State) (ts ms : List Word), s.held = true → exec (.sensorMeasurement ts ms) s = .next s) ∧
  (∀ (s : State) (ts ms : List Word), s.held = false → s.dev.mgt.supply.length = 6 → Yields (.sensorMeasurement ts ms) s (fun d =>
      (∀ k, k < 17 → at_ d.mgt.temps k 0 = (at_ ts k 0).toNat % 65536) ∧ (∀ k, k < 6 → at_ d.mgt.supplies k 0 = (at_ ms k 0).toNat % 65536) ∧
      d.mgt.tempSeen = true ∧ d.mem = s.dev.mem ∧ d.par = s.dev.par ∧ d.frame = s.dev.frame ∧ d.outs = s.dev.outs ∧
      (∀ k, k < 6 → ((vdd s.dev.mgt k).raised = false → out s ms k → 2 ≤ at_ (vdd s.dev.mgt k).runs 0 0 →
          (vdd d.mgt k).raised = true ∧ d.flag Reg.MGT_ALARM_STAT 2 = true ∧ d.flag Reg.MGT_FAULT 7 = true) ∧
        ((vdd s.dev.mgt k).raised = false → at_ (vdd s.dev.mgt k).runs 0 0 < 2 ∨ ¬out s ms k → (vdd d.mgt k).raised = false) ∧
        ((vdd s.dev.mgt k).raised = true → ¬out s ms k → 2 ≤ (vdd s.dev.mgt k).low →
          (vdd d.mgt k).raised = false ∧ d.flag Reg.MGT_ALARM_STAT 2 = true)) ∧
      (∀ n, n ∈ [6, 7] → d.flag Reg.MGT_FAULT n = true → d.flag Reg.MGT_FAULT_EN n = true → faultLow d = true) ∧
      (∀ k, k < 17 → s.dev.mgt.twarn.raised = false → warn s * 128 < reading ts k → 2 ≤ at_ s.dev.mgt.twarn.runs k 0 →
        d.mgt.twarn.raised = true ∧ d.flag Reg.MGT_ALARM_STAT 0 = true) ∧
      (s.dev.mgt.twarn.raised = false → (∀ k, k < 17 → at_ s.dev.mgt.twarn.runs k 0 < 2 ∨ reading ts k ≤ warn s * 128) → d.mgt.twarn.raised = false) ∧
      (s.dev.mgt.twarn.raised = true → 2 ≤ s.dev.mgt.twarn.low → (∀ k, k < 17 → reading ts k ≤ (warn s - 5) * 128) →
        d.mgt.twarn.raised = false ∧ d.flag Reg.MGT_ALARM_STAT 0 = true) ∧
      (∀ k, k < 17 → s.dev.mgt.tcrit.raised = false → crit s * 128 < reading ts k → 2 ≤ at_ s.dev.mgt.tcrit.runs k 0 →
        d.mgt.tcrit.raised = true ∧ d.flag Reg.MGT_ALARM_STAT 1 = true ∧ d.flag Reg.MGT_FAULT 6 = true))) ∧
  (∀ (s : State) (v : Word), hostTurn s.dev = true → Yields (.mgtFaultClear v) s (fun d =>
      (∀ n, n ∈ [0, 4, 5, 6, 7] → d.flag Reg.MGT_FAULT n = (if v.getLsbD n = true ∧ faultClearable s.dev n = true then false else s.dev.flag Reg.MGT_FAULT n)) ∧
      (∀ n, n < 32 → n ∉ [0, 4, 5, 6, 7] → d.flag Reg.MGT_FAULT n = s.dev.flag Reg.MGT_FAULT n) ∧ RegsKept s d [Reg.MGT_FAULT] ∧
      d = { s.dev with regs := d.regs }))

/-- The log: the firmware writes the oldest event of the AON queue at HEAD of its ring as the entry R504 lays out, and no
other byte of management RAM changes; an entry that reports lost events comes first (R503, R504), and the
write waits while the patrol has borrowed its region (R441).  The mirror programs
a waiting entry at its next position, and where the flash fails the rest of the sector is skipped with the entry still
waiting (R506).  That the flash programs by clearing bits (log 10), what a failing flash leaves (log 28), and the order of
the entries that waited with those of the firmware's own (log 26) are the model's choices. -/
def Obligations.LogEntriesReachTheRingAndTheMirror : Prop :=
  let at16 (s : State) : Nat := logRing + 16 * (s.dev.mgt.total % 4096)
  let free (s : State) : Prop := borrowedAt s.dev 0x28 (at16 s) 16 = false
  let written (s : State) (e : LogEv) (d : Dev) : Prop := d.mramBytes (at16 s) 16 = logBytes e ∧
    (∀ a, a < at16 s ∨ at16 s + 16 ≤ a → d.mramBytes a 1 = s.dev.mramBytes a 1) ∧ d.mgt.total = s.dev.mgt.total + 1 ∧
    (s.dev.fld Reg.MGT_LOG_CTL 9 8 ≤ e.sev → d.flag Reg.MGT_IRQ_STAT 2 = true) ∧ d.mem = { s.dev.mem with mram := d.mem.mram } ∧
    d.par = s.dev.par ∧ d.mgt.mirrored = s.dev.mgt.mirrored
  (∀ (e : LogEv), e.ef < 2 ^ 40 → e.source < 256 → e.code < 256 → e.sev < 4 → e.pos < 8 → e.data.length = 8 →
    leNat ((logBytes e).take 5) = e.ef ∧ at_ (logBytes e) 5 0 = BitVec.ofNat 8 e.source ∧ at_ (logBytes e) 6 0 = BitVec.ofNat 8 e.code ∧
    at_ (logBytes e) 7 0 = BitVec.ofNat 8 (e.sev + (if e.noref then 4 else 0) + 16 * e.pos + (if e.fwd then 128 else 0)) ∧
    (logBytes e).drop 8 = e.data) ∧
  (∀ (s : State) (e : LogEv) (r : List LogEv), firmwareUp s.dev = true → free s → s.dev.mgt.wdogLog = false → s.dev.mgt.lost = 0 →
    s.dev.mgt.own = [] → s.dev.mgt.queue = e :: r → Yields .logEntryWrite s (fun d => written s e d ∧ d.mgt.queue = r)) ∧
  (∀ (s : State) (e : LogEv) (r : List LogEv), firmwareUp s.dev = true → free s → s.dev.mgt.wdogLog = false → s.dev.mgt.lost = 0 →
    s.dev.mgt.own = e :: r → Yields .logEntryWrite s (fun d => written s e d ∧ d.mgt.own = r ∧ d.mgt.queue = s.dev.mgt.queue)) ∧
  (∀ s : State, firmwareUp s.dev = true → free s → s.dev.mgt.wdogLog = false → 0 < s.dev.mgt.lost → Yields .logEntryWrite s (fun d =>
    written s (mgmtEv s.dev 2 1 (leBytes 4 s.dev.mgt.lost)) d ∧ d.mgt.lost = 0 ∧ d.mgt.queue = s.dev.mgt.queue)) ∧
  (∀ s : State, firmwareUp s.dev = true → free s → s.dev.mgt.wdogLog = true → Yields .logEntryWrite s (fun d =>
    written s (mgmtEv s.dev 1 2 []) d ∧ d.mgt.wdogLog = false ∧ d.mgt.queue = s.dev.mgt.queue)) ∧
  (∀ s : State, firmwareUp s.dev = false ∨ borrowedAt s.dev 0x28 (at16 s) 16 = true → exec .logEntryWrite s = .next s) ∧
  (∀ (s : State) (a : Nat), mirrorRuns s.dev = true → mirrorWaiting s.dev = 1 → s.dev.mgt.total < s.dev.mgt.mirrored + 4096 →
    s.dev.mgt.mirrorUp = true → s.dev.mgt.mirrorPos < 4095 → a = mirrorBase s s.dev.mgt.mirrorSec + 16 + 16 * s.dev.mgt.mirrorPos →
    Answers (.logMirrorWrite true) s (fun t => t.dev.mgt.mirrored = s.dev.mgt.total ∧ t.dev.mgt.mirrorPos = s.dev.mgt.mirrorPos + 1 ∧
      flashBytes t.prot.flash a 16 = List.zipWith (· &&& ·) (flashBytes s.prot.flash a 16)
        (s.dev.mramBytes (logRing + 16 * (s.dev.mgt.mirrored % 4096)) 16) ∧
      (∀ b, b < a ∨ a + 16 ≤ b → flashBytes t.prot.flash b 1 = flashBytes s.prot.flash b 1) ∧
      t.prot = { s.prot with flash := t.prot.flash } ∧ t.pending = s.pending ∧ t.dev.regs = s.dev.regs ∧ t.dev.mem = s.dev.mem) ∧
    Answers (.logMirrorWrite false) s (fun t => t.dev.mgt.mirrored = s.dev.mgt.mirrored ∧ t.dev.mgt.mirrorPos = 4095 ∧
      (∀ b, b < a ∨ a + 16 ≤ b → flashBytes t.prot.flash b 1 = flashBytes s.prot.flash b 1) ∧
      t.prot = { s.prot with flash := t.prot.flash } ∧ t.pending = s.pending)) ∧
  (∀ (s : State) (ok : Bool), mirrorWaiting s.dev = 0 → exec (.logMirrorWrite ok) s = .next s)

/-- GO posts the request as its registers stand, and one while BUSY sets MB_IGN (R509).  Mailbox commands that read or note
something: GET_INFO answers the versions, the floor, the slot and the stage; LOG_ADD writes its bytes to the ring as a
host event, or has them wait for a borrow of its place (R441, R507); LOG_SYNC leaves no entry waiting, or ends with status
07h where the flash fails; NVM_ID and NVM_READ answer from the flash, the latter denied a wrong range, a count of 0 being
its maximum, both with status 07h over latched pads (R18, R481, R505 to R510).  MAILBOX_RESPONSE puts the answer into the
response registers, clears BUSY and sets MB_DONE, and gives an unknown command status 01h, in the ROM's stages 04h (R509,
R510).  LOG_SYNC answering 0 while the mirror does not run (log 26), what a failing LOG_SYNC leaves (log 28), the largest
capacity, 29 (log 7), and what the commands do over latched pads (log 27) are the model's choices. -/
def Obligations.MailboxInformationCommands : Prop :=
  let posted (s : State) (cmd tag : Nat) (p : List Byte) : Prop := mailboxOpen s.dev = true ∧ s.dev.mgt.busy = true ∧ s.dev.mgt.response = none ∧
    s.dev.mgt.request = leBytes 1 cmd ++ leBytes 1 tag ++ leBytes 2 p.length ++ p ∧ p.length ≤ 60 ∧ tag < 256 ∧ s.dev.stage ≠ Stage.romWait
  let answer (cmd tag st : Nat) (data : List Byte) : List Byte := leBytes 1 cmd ++ leBytes 1 tag ++ leBytes 1 st ++ leBytes 1 data.length ++ data
  let replies (s : State) (r : List Byte) : Host.Outcome State Fault Refusal :=
    .next { s with dev := { s.dev with mgt := { s.dev.mgt with response := some r } } }
  (∀ (s : State) (v : Word), s.dev.isOn Dom.hostp = true → hostMayWrite s.dev Reg.MGT_MB_CTL = true → s.dev.isOn Dom.mgmt = true →
    (v.getLsbD 0 = true → s.dev.mgt.busy = false → Yields (.registerWrite Reg.MGT_MB_CTL v) s (fun d =>
      d = { s.dev with mgt := { s.dev.mgt with busy := true, request := d.mgt.request, response := none } } ∧ d.mgt.request.length = 64 ∧
      ∀ n k, n < 16 → k < 4 → at_ d.mgt.request (4 * n + k) 0 = (s.dev.reg (Reg.MGT_MBI n)).byte k)) ∧
    (v.getLsbD 0 = true → s.dev.mgt.busy = true → Yields (.registerWrite Reg.MGT_MB_CTL v) s (fun d =>
      d.flag Reg.MGT_IRQ_STAT 1 = true ∧ RegsKept s d [Reg.MGT_IRQ_STAT] ∧ d = { s.dev with regs := d.regs })) ∧
    (v.getLsbD 0 = false → exec (.registerWrite Reg.MGT_MB_CTL v) s = .next s)) ∧
  (∀ (s : State) (tag : Nat), posted s 0x01 tag [] → exec .getInfo s = replies s (answer 0x01 tag 0
    (leBytes 4 s.dev.mgt.fwVersion ++ leBytes 1 s.dev.mgt.secVersion ++ leBytes 1 s.prot.floor ++ leBytes 1 s.dev.slot ++
      leBytes 1 s.dev.stage ++ leBytes 1 (slotSec s 0) ++ leBytes 1 (slotSec s 1)))) ∧
  (∀ (s : State) (tag : Nat) (p : List Byte), posted s 0x02 tag p → p.length = 12 → romStage s.dev = false →
    s.dev.mgt.wdogLog = false → s.dev.mgt.lost = 0 → Yields .logAdd s (fun d => d.mgt.response = some (answer 0x02 tag 0 []) ∧
      d.mgt.queue = s.dev.mgt.queue ∧ RegsKept s d [Reg.MGT_IRQ_STAT] ∧ d.par = s.dev.par ∧ ∃ e : LogEv,
      e.source = 0x0D ∧ e.code = (p.headD 0).toNat ∧ e.sev = 0 ∧ e.data = p.drop 4 ∧ e.ef = s.dev.now ∧ e.fwd = false ∧
      (logBlocked s.dev = false → s.dev.mgt.own = [] → d.mgt.total = s.dev.mgt.total + 1 ∧
        d.mramBytes (logRing + 16 * (s.dev.mgt.total % 4096)) 16 = logBytes e ∧
        ∀ a, a < logRing + 16 * (s.dev.mgt.total % 4096) ∨ logRing + 16 * (s.dev.mgt.total % 4096) + 16 ≤ a →
          d.mramBytes a 1 = s.dev.mramBytes a 1) ∧
      (logBlocked s.dev = true ∨ s.dev.mgt.own ≠ [] → d.mgt.own = s.dev.mgt.own ++ [e] ∧ d.mem = s.dev.mem))) ∧
  (∀ (s : State) (tag : Nat), posted s 0x03 tag [] → romStage s.dev = false →
    (mirrorRuns s.dev = true → Answers (.logSync true) s (fun t => mirrorWaiting t.dev = 0 ∧ t.dev.mgt.total = s.dev.mgt.total ∧
      t.dev.mgt.response = some (answer 0x03 tag 0 (leBytes 4 (mirrorWaiting s.dev))) ∧ t.prot = { s.prot with flash := t.prot.flash } ∧
      t.pending = s.pending ∧ t.dev.mem = s.dev.mem ∧ t.dev.regs = s.dev.regs)) ∧
    (mirrorRuns s.dev = true → 0 < mirrorWaiting s.dev → Answers (.logSync false) s (fun t => t.dev.mgt.mirrored = s.dev.mgt.mirrored ∧
      t.dev.mgt.response = some (answer 0x03 tag 7 []) ∧ t.prot = { s.prot with flash := t.prot.flash } ∧
      t.dev.mem = { s.dev.mem with mram := t.dev.mem.mram })) ∧
    (∀ ok, mirrorRuns s.dev = false → exec (.logSync ok) s = replies s (answer 0x03 tag 0 [0, 0, 0, 0]))) ∧
  (∀ (s : State) (tag : Nat), posted s 0x20 tag [] → s.dev.nvReach = false → exec .nvmId s = replies s (answer 0x20 tag 7 [])) ∧
  (∀ (s : State) (tag : Nat), posted s 0x20 tag [] → s.dev.nvReach = true →
    exec .nvmId s = replies s (answer 0x20 tag 0 ((List.range 3).map Config.jedecId ++ leBytes 1 (min Config.flashLog2 29)))) ∧
  (∀ (s : State) (tag a n m : Nat), a < 2 ^ 32 → n < 256 → posted s 0x21 tag (leBytes 4 a ++ leBytes 1 n) →
    m = (if n = 0 then 56 else n) →
    (m ≤ 56 → a + m ≤ flashSize → s.dev.nvReach = false → exec .nvmRead s = replies s (answer 0x21 tag 7 [])) ∧
    (m ≤ 56 → a + m ≤ flashSize → s.dev.nvReach = true → exec .nvmRead s = replies s (answer 0x21 tag 0 (flashBytes s.prot.flash a m))) ∧
    (56 < m ∨ flashSize < a + m → exec .nvmRead s = replies s (answer 0x21 tag 2 []))) ∧
  (∀ (s : State) (ok : Bool), s.dev.mgt.busy = false → ∀ c ∈ [Instr.getInfo, .logAdd, .logSync ok, .updBegin ok, .updData ok,
    .updDram ok, .updEnd ok, .updAbort, .rollbackAdv, .setPrefer ok, .nvmId, .nvmRead, .nvmErase ok, .nvmProg ok],
    exec c s = .next s) ∧
  (∀ s : State, s.dev.mgt.busy = false → s.dev.cas.fwdPort = none → exec .mailboxResponse s = .next s) ∧
  (∀ (s : State) (r : List Byte), mailboxOpen s.dev = true → s.dev.mgt.busy = true → s.dev.mgt.response = some r →
    Yields .mailboxResponse s (fun d => d.mgt = { s.dev.mgt with busy := false, request := [], response := none } ∧
      (∀ n k, n < 16 → k < 4 → (d.reg (Reg.MGT_MBO n)).byte k = at_ r (4 * n + k) 0) ∧ d.flag Reg.MGT_IRQ_STAT 0 = true ∧
      d = { s.dev with regs := d.regs, mgt := d.mgt })) ∧
  (∀ (s : State) (cmd tag : Nat) (p : List Byte), posted s cmd tag p → cmd < 256 → cmd ∉ allCommands → mailFwdOut s.dev = false →
    Yields .mailboxResponse s (fun d => d.mgt.busy = false ∧ (d.reg (Reg.MGT_MBO 0)).byte 0 = BitVec.ofNat 8 cmd ∧
      (d.reg (Reg.MGT_MBO 0)).byte 1 = BitVec.ofNat 8 tag ∧ (d.reg (Reg.MGT_MBO 0)).byte 2 = if romStage s.dev then 4 else 1))

/-- Update sessions: UPD_BEGIN opens a session on the slot not in use and erases its first sector, refused while a session
is open, or for an image too long (R512, R513); UPD_DATA and UPD_DRAM program bytes that follow those received, others
are refused, as are commands without a session or from another path (R510, R512, R513); UPD_END refuses an incomplete
image, fails a bad one and ends the session, and for a good one writes a record that prefers its slot (R513); a flash
that fails ends the command with status 07h and with it the session (R510; log 28); an abort or
10 s of silence ends the session and erases the target's header (R512).  Status 04h for an open session of one's own, and
UPD_DRAM's 04h and 02h (log 27), the erasing at an abort or a failure (log 27), and that the flash programs by clearing bits
(log 10) are the model's choices. -/
def Obligations.UpdateSessionsRunAndEnd : Prop :=
  let posted (s : State) (cmd tag : Nat) (p : List Byte) : Prop := mailboxOpen s.dev = true ∧ s.dev.mgt.busy = true ∧ s.dev.mgt.response = none ∧
    s.dev.mgt.request = leBytes 1 cmd ++ leBytes 1 tag ++ leBytes 2 p.length ++ p ∧ p.length ≤ 60 ∧ tag < 256 ∧ s.dev.stage ≠ Stage.romWait ∧
    s.dev.nvReach = true
  let answer (cmd tag st : Nat) (data : List Byte) : List Byte := leBytes 1 cmd ++ leBytes 1 tag ++ leBytes 1 st ++ leBytes 1 data.length ++ data
  let replies (s : State) (r : List Byte) : Host.Outcome State Fault Refusal :=
    .next { s with dev := { s.dev with mgt := { s.dev.mgt with response := some r } } }
  let erased (s t : State) (a : Nat) : Prop := (∀ b, a / 0x10000 = b / 0x10000 → flashBytes t.prot.flash b 1 = [0xFF]) ∧
    (∀ b, a / 0x10000 ≠ b / 0x10000 → flashBytes t.prot.flash b 1 = flashBytes s.prot.flash b 1) ∧ t.prot = { s.prot with flash := t.prot.flash } ∧
    t.pending = s.pending
  let same (s t : State) : Prop := t.dev.mem = { s.dev.mem with mram := t.dev.mem.mram }
  let why (s : State) (x : Session) (a n : Nat) : Nat := moverReason s.dev 2 { Mover.reset with
    state := .busy, src := a, dst := s.dev.boot.base x.slot + x.got, srcSpace := 0, dstSpace := 7, length := n }
  let mine (x : Session) : Prop := x.path = 0 ∧ x.port = 0
  (∀ (s : State) (tag n : Nat) (ok : Bool), n < 2 ^ 32 → posted s 0x10 tag (leBytes 4 n) →
    (s.dev.mgt.session = none → s.dev.boot.base (1 - s.dev.slot) + n ≤ s.dev.boot.slotEnd (1 - s.dev.slot) → Answers (.updBegin true) s (fun t =>
      t.dev.mgt.session = some { path := 0, port := 0, slot := 1 - s.dev.slot, len := n, got := 0 } ∧ erased s t (s.dev.boot.base (1 - s.dev.slot)) ∧
      t.dev.mgt.response = some (answer 0x10 tag 0 (leBytes 1 (1 - s.dev.slot))) ∧ same s t)) ∧
    (s.dev.mgt.session = none → s.dev.boot.slotEnd (1 - s.dev.slot) < s.dev.boot.base (1 - s.dev.slot) + n → exec (.updBegin ok) s = replies s (answer 0x10 tag 2 [])) ∧
    (s.dev.mgt.session = none → s.dev.boot.base (1 - s.dev.slot) + n ≤ s.dev.boot.slotEnd (1 - s.dev.slot) → Answers (.updBegin false) s (fun t =>
      t.dev.mgt.session = none ∧ t.dev.mgt.response = some (answer 0x10 tag 7 []) ∧ t.dev.mem = s.dev.mem)) ∧
    (∀ x, s.dev.mgt.session = some x → (¬mine x → exec (.updBegin ok) s = replies s (answer 0x10 tag 3 [])) ∧
      (mine x → exec (.updBegin ok) s = replies s (answer 0x10 tag 4 [])))) ∧
  (∀ (s : State) (tag off : Nat) (bs : List Byte) (ok : Bool), off < 2 ^ 32 → 0 < bs.length → posted s 0x11 tag (leBytes 4 off ++ bs) →
    (s.dev.mgt.session = none → exec (.updData ok) s = replies s (answer 0x11 tag 8 [])) ∧
    (∀ x, s.dev.mgt.session = some x →
      (¬mine x → exec (.updData ok) s = replies s (answer 0x11 tag 3 [])) ∧
      (mine x → off ≠ x.got ∨ x.len < x.got + bs.length → exec (.updData ok) s = replies s (answer 0x11 tag 5 [])) ∧
      (mine x → off = x.got → x.got + bs.length ≤ x.len → Answers (.updData false) s (fun t => t.dev.mgt.session = none ∧
        erased s t (s.dev.boot.base x.slot) ∧ t.dev.mgt.response = some (answer 0x11 tag 7 []))) ∧
      (mine x → off = x.got → x.got + bs.length ≤ x.len → Answers (.updData true) s (fun t =>
        t.dev.mgt.session = some { x with got := x.got + bs.length } ∧ t.dev.mgt.response = some (answer 0x11 tag 0 []) ∧
        ((s.dev.boot.base x.slot + x.got) % 0x10000 = 0 → flashBytes t.prot.flash (s.dev.boot.base x.slot + x.got) bs.length = bs) ∧
        (0 < (s.dev.boot.base x.slot + x.got) % 0x10000 → (s.dev.boot.base x.slot + x.got) % 0x10000 + bs.length ≤ 0x10000 →
          flashBytes t.prot.flash (s.dev.boot.base x.slot + x.got) bs.length =
            List.zipWith (· &&& ·) (flashBytes s.prot.flash (s.dev.boot.base x.slot + x.got) bs.length) bs) ∧
        (∀ b, b < s.dev.boot.base x.slot + x.got → flashBytes t.prot.flash b 1 = flashBytes s.prot.flash b 1) ∧
        t.prot = { s.prot with flash := t.prot.flash } ∧ t.dev.mem = s.dev.mem ∧ t.dev.regs = s.dev.regs)))) ∧
  (∀ (s : State) (tag off a k n : Nat) (x : Session) (ok : Bool), off < 2 ^ 32 → a < 2 ^ 32 → k < 2 ^ 32 →
    n = (if k = 0 then 1048576 else k) → posted s 0x12 tag (leBytes 4 off ++ leBytes 4 a ++ leBytes 4 k) → romStage s.dev = false → s.dev.mgt.session = some x → mine x →
    (n < 64 ∨ 1048576 < n ∨ n % 64 ≠ 0 ∨ a % 4 ≠ 0 ∨ waveSize < a + n → exec (.updDram ok) s = replies s (answer 0x12 tag 2 [])) ∧
    (64 ≤ n → n ≤ 1048576 → n % 64 = 0 → a % 4 = 0 → a + n ≤ waveSize →
      (s.dev.isOn Dom.memc = false ∨ (s.dev.mover 2).state = .busy → exec (.updDram ok) s = replies s (answer 0x12 tag 4 [])) ∧
      (s.dev.isOn Dom.memc = true → (s.dev.mover 2).state ≠ .busy → off ≠ x.got ∨ x.len < x.got + n →
        exec (.updDram ok) s = replies s (answer 0x12 tag 5 [])) ∧
      (s.dev.isOn Dom.memc = true → (s.dev.mover 2).state ≠ .busy → off = x.got → x.got + n ≤ x.len → why s x a n ≠ 0 →
        Yields (.updDram ok) s (fun d => d.mgt = { s.dev.mgt with response := some (answer 0x12 tag 4 []) } ∧
          (d.mover 2).state = .rejected ∧ (d.mover 2).reason = why s x a n ∧ Counts s d Reg.MEM_CNT_MV_REJ)) ∧
      (s.dev.isOn Dom.memc = true → (s.dev.mover 2).state ≠ .busy → off = x.got → x.got + n ≤ x.len → why s x a n = 0 →
        Answers (.updDram true) s (fun t =>
        t.dev.mgt.session = some { x with got := x.got + n } ∧ t.dev.mgt.response = some (answer 0x12 tag 0 []) ∧
        t.prot = { s.prot with flash := t.prot.flash } ∧
        ((s.dev.boot.base x.slot + x.got) % 0x10000 = 0 →
          flashBytes t.prot.flash (s.dev.boot.base x.slot + x.got) n = s.dev.waveBytes a n) ∧
        t.dev.mem = { s.dev.mem with movers := t.dev.mem.movers } ∧ (t.dev.mover 2).state = .done ∧ (t.dev.mover 2).pos = n ∧ ∀ c, c ≠ 2 → t.dev.mover c = s.dev.mover c)))) ∧
  (∀ (s : State) (tag : Nat) (f : Byte) (x : Session) (ok : Bool), posted s 0x13 tag [f] → s.dev.mgt.session = some x → mine x →
    (x.got ≠ x.len → exec (.updEnd ok) s = replies s (answer 0x13 tag 5 [])) ∧
    (x.got = x.len → (imageErr s x.slot).1 ≠ 0 → Answers (.updEnd ok) s (fun t => t.dev.mgt.session = none ∧ erased s t (s.dev.boot.base x.slot) ∧
      t.dev.mgt.response = some (answer 0x13 tag 6 (leBytes 1 (imageErr s x.slot).1 ++ leBytes 1 (imageErr s x.slot).2)))) ∧
    (x.got = x.len → (imageErr s x.slot).1 = 0 → Answers (.updEnd false) s (fun t => t.dev.mgt.session = none ∧
      erased s t (s.dev.boot.base x.slot) ∧ t.dev.mgt.response = some (answer 0x13 tag 7 []))) ∧
    (x.got = x.len → (imageErr s x.slot).1 = 0 → x.slot < 2 → Answers (.updEnd true) s (fun t => t.dev.mgt.session = none ∧
      t.dev.mgt.response = some (answer 0x13 tag 0 [0, 0]) ∧ copyValid t.prot.flash (recTarget s.prot.flash) = true ∧
      flashNat t.prot.flash (recBase (recTarget s.prot.flash) + 16) 4 = x.slot ∧ (f.getLsbD 0 = true → t.dev.mgt.resetDue = true) ∧
      t.prot = { s.prot with flash := t.prot.flash }))) ∧
  (∀ (s : State) (tag : Nat) (x : Session), posted s 0x14 tag [] → s.dev.mgt.session = some x → mine x →
    Answers .updAbort s (fun t => t.dev.mgt.session = none ∧ erased s t (s.dev.boot.base x.slot) ∧ t.dev.mgt.response = some (answer 0x14 tag 0 []))) ∧
  (∀ (s : State) (x : Session), s.dev.mgt.session = some x → Answers .updateSessionTimeout s (fun t => t.dev.mgt.session = none ∧ same s t ∧
    (s.dev.nvReach = true → erased s t (s.dev.boot.base x.slot)) ∧ (s.dev.nvReach = false → t.prot = s.prot))) ∧
  (∀ s : State, s.dev.mgt.session = none → exec .updateSessionTimeout s = .next s)

/-- Commands that change what outlasts a reset: SET_PREFER writes a valid boot record that prefers its slot, if the slot's header is valid (R514); NVM_ERASE and NVM_PROG
work in NO_IMAGE and ROM_WAIT alone, on one sector and within one page (R510); a flash that fails ends the command with
status 07h (R510; log 28), and so does one over latched pads (R481); FWD ends at once with status 02h or 09h,
or its request goes out as a packet (R509, R540).  How the flash erases and programs (log 10), the status over latched
pads, and that a FWD waits for the end of one that came by SysEx (log 27) are the model's choices. -/
def Obligations.MailboxCommandsThatWrite : Prop :=
  let posted (s : State) (cmd tag : Nat) (p : List Byte) : Prop := mailboxOpen s.dev = true ∧ s.dev.mgt.busy = true ∧ s.dev.mgt.response = none ∧
    s.dev.mgt.request = leBytes 1 cmd ++ leBytes 1 tag ++ leBytes 2 p.length ++ p ∧ p.length ≤ 60 ∧ tag < 256 ∧
    s.dev.nvReach = true
  let answer (cmd tag st : Nat) (data : List Byte) : List Byte := leBytes 1 cmd ++ leBytes 1 tag ++ leBytes 1 st ++ leBytes 1 data.length ++ data
  let said (s t : State) (r : List Byte) : Prop := t.dev.mgt.response = some r ∧ t.pending = s.pending ∧ t.dev.mem = s.dev.mem ∧
    t.dev.regs = s.dev.regs ∧ t.dev.par = s.dev.par
  let sameButFlash (s t : State) : Prop := t.prot = { s.prot with flash := t.prot.flash }
  (∀ (s : State) (tag : Nat) (ok : Bool) (p : List Byte), s.dev.nvReach = false → mailboxOpen s.dev = true → s.dev.mgt.busy = true →
    s.dev.mgt.response = none → p.length ≤ 60 → tag < 256 → s.dev.stage ≠ Stage.romWait →
    (s.dev.mgt.request = leBytes 1 0x19 ++ leBytes 1 tag ++ leBytes 2 p.length ++ p → p.length = 1 → (p.headD 0).toNat ≤ 1 →
      Answers (.setPrefer ok) s (fun t => t.prot = s.prot ∧ said s t (answer 0x19 tag 7 [])))) ∧
  (∀ (s : State) (tag : Nat) (v : Byte) (ok : Bool), posted s 0x19 tag [v] → s.dev.stage ≠ Stage.romWait →
    (1 < v.toNat → Answers (.setPrefer ok) s (fun t => t.prot = s.prot ∧ said s t (answer 0x19 tag 2 []))) ∧
    (v.toNat ≤ 1 → headerErr s v.toNat ≠ 0 → Answers (.setPrefer ok) s (fun t => t.prot = s.prot ∧ said s t (answer 0x19 tag 6 []))) ∧
    (v.toNat ≤ 1 → headerErr s v.toNat = 0 → Answers (.setPrefer false) s (fun t => sameButFlash s t ∧
      said s t (answer 0x19 tag 7 []) ∧ (∀ b, b < recBase (recTarget s.prot.flash) ∨ recBase (recTarget s.prot.flash) + 0x1000 ≤ b →
        flashBytes t.prot.flash b 1 = flashBytes s.prot.flash b 1))) ∧
    (v.toNat ≤ 1 → headerErr s v.toNat = 0 → Answers (.setPrefer true) s (fun t => sameButFlash s t ∧ said s t (answer 0x19 tag 0 []) ∧
      copyValid t.prot.flash (recTarget s.prot.flash) = true ∧ flashNat t.prot.flash (recBase (recTarget s.prot.flash) + 16) 4 = v.toNat ∧
      (∀ b, b < recBase (recTarget s.prot.flash) ∨ recBase (recTarget s.prot.flash) + 0x1000 ≤ b →
        flashBytes t.prot.flash b 1 = flashBytes s.prot.flash b 1)))) ∧
  (∀ (s : State) (tag a : Nat) (ok : Bool), a < 2 ^ 32 → posted s 0x22 tag (leBytes 4 a) →
    (rawFlashStage s.dev = false → romStage s.dev = false → Answers (.nvmErase ok) s (fun t => t.prot = s.prot ∧ said s t (answer 0x22 tag 4 []))) ∧
    (rawFlashStage s.dev = true → a % 0x10000 = 0 → a + 0x10000 ≤ flashSize → Answers (.nvmErase false) s (fun t => sameButFlash s t ∧
      said s t (answer 0x22 tag 7 []) ∧ (∀ b, b < a ∨ a + 0x10000 ≤ b → flashBytes t.prot.flash b 1 = flashBytes s.prot.flash b 1))) ∧
    (rawFlashStage s.dev = true → a % 0x10000 = 0 → a + 0x10000 ≤ flashSize → Answers (.nvmErase true) s (fun t => sameButFlash s t ∧
      said s t (answer 0x22 tag 0 []) ∧ (∀ b, a ≤ b → b < a + 0x10000 → flashBytes t.prot.flash b 1 = [0xFF]) ∧
      (∀ b, b < a ∨ a + 0x10000 ≤ b → flashBytes t.prot.flash b 1 = flashBytes s.prot.flash b 1))) ∧
    (rawFlashStage s.dev = true → a % 0x10000 ≠ 0 ∨ flashSize < a + 0x10000 → Answers (.nvmErase ok) s (fun t => t.prot = s.prot ∧
      said s t (answer 0x22 tag 2 [])))) ∧
  (∀ (s : State) (tag a : Nat) (bs : List Byte) (ok : Bool), a < 2 ^ 32 → 0 < bs.length → posted s 0x23 tag (leBytes 4 a ++ bs) →
    (rawFlashStage s.dev = true → a % 256 + bs.length ≤ 256 → a + bs.length ≤ flashSize → Answers (.nvmProg false) s (fun t => sameButFlash s t ∧
      said s t (answer 0x23 tag 7 []) ∧ (∀ b, b < a ∨ a + bs.length ≤ b → flashBytes t.prot.flash b 1 = flashBytes s.prot.flash b 1))) ∧
    (rawFlashStage s.dev = true → a % 256 + bs.length ≤ 256 → a + bs.length ≤ flashSize → Answers (.nvmProg true) s (fun t => sameButFlash s t ∧
      said s t (answer 0x23 tag 0 []) ∧ flashBytes t.prot.flash a bs.length = List.zipWith (· &&& ·) (flashBytes s.prot.flash a bs.length) bs ∧
      (∀ b, b < a ∨ a + bs.length ≤ b → flashBytes t.prot.flash b 1 = flashBytes s.prot.flash b 1))) ∧
    (rawFlashStage s.dev = true → 256 < a % 256 + bs.length ∨ flashSize < a + bs.length → Answers (.nvmProg ok) s (fun t => t.prot = s.prot ∧
      said s t (answer 0x23 tag 2 [])))) ∧
  (∀ (s : State) (tag : Nat) (p : List Byte), posted s 0x30 tag p → 8 ≤ p.length → s.dev.stage ≠ Stage.romWait → romStage s.dev = false →
    (fwdErr s.dev p ≠ 0 → Answers .fwd s (fun t => t.prot = s.prot ∧ said s t (answer 0x30 tag (fwdErr s.dev p) []))) ∧
    (fwdErr s.dev p = 0 → s.dev.cas.fwdPos.isSome = true → exec .fwd s = .next s) ∧
    (fwdErr s.dev p = 0 → s.dev.cas.fwdPos = none → Yields .fwd s (fun d => d = { s.dev with cas := d.cas } ∧
      d.cas.mgmtOut = s.dev.cas.mgmtOut ++ [mkPacket 3 (p.headD 0).toNat 0x80 (p.drop 4)] ∧ d.cas.fwdPos = some (p.headD 0).toNat ∧
      d.cas.fwdData = [] ∧ d.cas.fwdPort = none))) ∧
  (∀ (d : Dev) (p : List Byte), (p.headD 0).toNat = 0 ∨ 7 < (p.headD 0).toNat → fwdErr d p = 2)

/-- The cascade link: EN set takes CAS_CFG, and N = 1 or a position outside the chain is a configuration error, flagged and
logged; EN cleared leaves the chain, and C_n is 0 (R528); a superframe being
sent is noted with its EF (R480).  A receiver aligns unless a loss in this EF still rests it; without
a signal an unlocked port starts over, and a locked one loses its hop: counted, flagged, logged with its cause, upstream with
C_n = 0, downstream with every sounding pool voice in its steal fade (R541, R542, R544).  That alignment rests until 1 EF
after a loss, that the pool voices fade when EN is cleared, that a configuration error ends what was locked (log 29), and
the note of the EF of a superframe being sent (log 24) are the model's choices. -/
def Obligations.LinkEnableAlignmentAndLoss : Prop :=
  let n (s : State) : Nat := (s.dev.reg Reg.CAS_CFG).bits 2 0 + 1
  let fades (s : State) (d : Dev) : Prop := ∀ v, v < 256 → v < s.dev.par.voices.length → (s.dev.voice v).pool = true →
    (s.dev.voice v).state = .sounding ∨ (s.dev.voice v).state = .releasing → (d.voice v).state = .stealing ∧ (d.voice v).fadeAt = s.dev.now
  (∀ (s : State) (v : Word), s.dev.isOn Dom.cas = true → hostTurn s.dev = true → s.dev.cas.en = false → v.getLsbD 0 = true →
    Yields (.linkEnable v) s (fun d => d.reg Reg.CAS_CTL = v &&& 3 ∧ d.cas.en = true ∧ d.cas.cfg = s.dev.reg Reg.CAS_CFG ∧
      d.cas.cfgErr = decide (n s < 2 ∨ n s ≤ s.dev.chainPos) ∧
      (d.cas.cfgErr = true → d.flag Reg.CAS_IRQ_STAT 2 = true ∧ Logs s d 0x0C 3 3 [s.dev.chainPos, n s]) ∧
      (d.cas.cfgErr = false → d = { s.dev with regs := d.regs, cas := d.cas } ∧ RegsKept s d [Reg.CAS_CTL]) ∧
      (d.cas.cfgErr = true → d.mix = { s.dev.mix with casIn := List.replicate 64 0 } ∧ d.cas.up = CasPortSt.reset ∧ d.cas.down = CasPortSt.reset) ∧
      d.mem = s.dev.mem ∧ d.par = s.dev.par ∧ d.frame = s.dev.frame)) ∧
  (∀ (s : State) (v : Word), s.dev.isOn Dom.cas = true → hostTurn s.dev = true → s.dev.cas.en = true → v.getLsbD 0 = false →
    Yields (.linkDisable v) s (fun d => d.reg Reg.CAS_CTL = v &&& 3 ∧ d.cas = { Cas.reset with
        offAt := if s.dev.cas.up.sending || s.dev.cas.down.sending then some s.dev.now else none } ∧ d.mix = { s.dev.mix with casIn := List.replicate 64 0 } ∧
      (s.dev.isWorker = true → fades s d) ∧ d.frame = s.dev.frame ∧ d.alm = s.dev.alm ∧ d.outs = s.dev.outs)) ∧
  (∀ (s : State) (v : Word), s.dev.isOn Dom.cas = false → exec (.linkEnable v) s = .next s ∧ exec (.linkDisable v) s = .next s) ∧
  (∀ (s : State) (port : CasPort), linkRuns s.dev = true →
    ((s.dev.casPort port).lossAt = none → Yields (.rxAlignment port) s (fun d => d = s.dev.modPort port (fun p => { p with aligned := true, lossAt := none }))) ∧
    (∀ e, (s.dev.casPort port).lossAt = some e → 1 ≤ efSince s.dev.now e →
      Yields (.rxAlignment port) s (fun d => d = s.dev.modPort port (fun p => { p with aligned := true, lossAt := none }))) ∧
    ((s.dev.casPort port).lossAt = some s.dev.now → s.dev.now < efWrap → exec (.rxAlignment port) s = .next s)) ∧
  (∀ (s : State) (port : CasPort) (idle : Bool), s.dev.sees Dom.cas = true → s.dev.cas.en = true →
    ((s.dev.casPort port).locked = false → Yields (.laneNoSignal port idle) s (fun d =>
      d = s.dev.modPort port (fun p => { p with good := 0, aligned := p.aligned && idle }))) ∧
    ((s.dev.casPort port).locked = true → Yields (.laneNoSignal port idle) s (fun d => Counts s d Reg.CAS_CNT_LOSS ∧
      d.flag Reg.CAS_IRQ_STAT 0 = true ∧ Logs s d 0x0C 1 2 [portCode port, if idle then 5 else 4] ∧ (d.casPort port).locked = false ∧
      (d.casPort port).aligned = false ∧ (d.casPort port).sending = false ∧ (d.casPort port).lossAt = some s.dev.now ∧
      (port = .upstream → d.mix = { s.dev.mix with casIn := List.replicate 64 0 } ∧ d.par = s.dev.par ∧ d.cas.inIn = none ∧
        (s.dev.isMaster = true → d.cas.leaving = some 1)) ∧
      (port = .downstream → fades s d ∧ d.cas.adopted = false ∧ d.cas.forward = [] ∧ d.mix = s.dev.mix) ∧
      d.frame = s.dev.frame ∧ d.alm = s.dev.alm ∧ d.outs = s.dev.outs))) ∧
  (∀ (s : State) (port : CasPort) (idle : Bool), s.dev.cas.en = false → exec (.laneNoSignal port idle) s = .next s)

/-- Superframes: one that is not good is counted and ends a lock with its cause; of good ones the first is counted, the
second in a row locks the port and is flagged, and an upstream port locked already gives C_n their channels (R531, R541 to
R544).  At the master status slots join workers, with their offer, or send them out (R536, R542); at a worker an outbound
superframe gives the frame timer its EF, HOLD and the lag, and one with another N is a configuration error, with which the
lanes carry no superframes (R528, R529, R532; that the ports' locks end with it is the model's choice, log 29). -/
def Obligations.SuperframesLockPortsAndCarryState : Prop :=
  let fault (b : List Byte) (ok : Bool) : Nat := if ok = false then 2 else if byteAt b 0 ≠ 0xBC then 3
    else if leNat (sfBytes b 412 4) ≠ (crc32 (sfBytes b 1 411)).toNat then 1 else 0
  let counted (s : State) (port : CasPort) (d : Dev) : Prop := d.cnt.bus = s.dev.busWith 31 1 ∧
    ((s.dev.casPort port).locked = false → (s.dev.casPort port).good = 0 → (d.casPort port).good = 1 ∧ (d.casPort port).locked = false) ∧
    ((s.dev.casPort port).locked = false → (s.dev.casPort port).good ≠ 0 → (d.casPort port).locked = true ∧ d.flag Reg.CAS_IRQ_STAT 1 = true) ∧
    ((s.dev.casPort port).locked = true → (d.casPort port).locked = true)
  let bad (s : State) (port : CasPort) (f : Nat) (d : Dev) : Prop := Counts s d Reg.CAS_CNT_BAD_SF ∧ (d.casPort port).good = 0 ∧
    (d.casPort port).locked = false ∧ d.frame = s.dev.frame ∧
    ((s.dev.casPort port).locked = true → Counts s d Reg.CAS_CNT_LOSS ∧ d.flag Reg.CAS_IRQ_STAT 0 = true ∧ Logs s d 0x0C 1 2 [portCode port, f]) ∧
    ((s.dev.casPort port).locked = false → d.mgt = s.dev.mgt ∧ d.par = s.dev.par ∧ d.mix = s.dev.mix)
  (∀ (s : State) (b : List Byte) (ok : Bool), linkRuns s.dev = true → s.dev.cas.up.aligned = true →
    (fault b ok ≠ 0 → Yields (.inboundSuperframe b ok) s (bad s .upstream (fault b ok))) ∧
    (fault b ok = 0 → Yields (.inboundSuperframe b ok) s (fun d => counted s .upstream d ∧ d.cas.inIn = some b ∧
      (s.dev.cas.up.locked = false → d.mix = s.dev.mix) ∧
      (s.dev.cas.up.locked = true → (∀ k, k < 64 → at_ d.mix.casIn k 0 = signed 24 (leNat (sfBytes b (8 + 3 * k) 3))) ∧
        (s.dev.cas.casW = 0 → d.cas.casW = 1)) ∧
      (s.dev.isMaster = false → d.cas.relay = s.dev.cas.relay ++ (if byteAt b 368 = 0 then [] else [sfBytes b 368 (min (4 + byteAt b 369) 44)]) ∧
        d.par = s.dev.par) ∧
      (s.dev.isMaster = true → ∀ q, 1 ≤ q → q < s.dev.chainLen → q < s.dev.cas.workers.length → ((byteAt b 1).testBit 3 = true → q < 2) →
        ((byteAt b (200 + 24 * (q - 1))).testBit 0 = true → (workerOf d q).joined = true ∧
          (workerOf d q).offer = leNat (sfBytes b (202 + 24 * (q - 1)) 2) % 512) ∧
        ((byteAt b (200 + 24 * (q - 1))).testBit 0 = false → (workerOf s.dev q).joined = true → ∃ p, d.cas.leaving = some p ∧ p ≤ q)) ∧
      d.mem = s.dev.mem ∧ d.frame = s.dev.frame ∧ d.outs = s.dev.outs))) ∧
  (∀ (s : State) (b : List Byte) (ok : Bool), linkRuns s.dev = false ∨ s.dev.cas.up.aligned = false → exec (.inboundSuperframe b ok) s = .next s) ∧
  (∀ (s : State) (b : List Byte) (ok : Bool) (lag : Nat), linkRuns s.dev = true → s.dev.isWorker = true → s.dev.cas.down.aligned = true →
    (fault b ok ≠ 0 → Yields (.outboundSuperframe b ok lag) s (bad s .downstream (fault b ok))) ∧
    (fault b ok = 0 → byteAt b 1 / 2 % 8 + 1 ≠ s.dev.chainLen → Yields (.outboundSuperframe b ok lag) s (fun d => d.cas.cfgErr = true ∧
      d.flag Reg.CAS_IRQ_STAT 2 = true ∧ Logs s d 0x0C 3 3 [s.dev.chainPos, s.dev.chainLen] ∧ d.frame = s.dev.frame ∧
      d.cas.up.sending = false ∧ d.cas.down = CasPortSt.reset ∧ casLane d .upstream = .idleSet ∧ casLane d .downstream = .idleSet)) ∧
    (fault b ok = 0 → byteAt b 1 / 2 % 8 + 1 = s.dev.chainLen → Yields (.outboundSuperframe b ok lag) s (fun d => counted s .downstream d ∧
      d.frame.released = (s.dev.frame.released || !(s.dev.cas.adopted && s.dev.now == efAdd (leNat (sfBytes b 5 5)) (efWrap - 1))) ∧
      d.now = efAdd (leNat (sfBytes b 5 5)) (efWrap - 1) ∧ d.cas.outIn = some b ∧ d.cas.hold = (byteAt b 1).testBit 0 ∧
      d.cas.grantIn = byteAt b 1 / 16 % 8 ∧ d.cas.lag = lag % 256 ∧ (d.cas.adopted = true ∨ s.dev.cas.adopted = true) ∧ d.mem = s.dev.mem ∧
      d.par = s.dev.par))) ∧
  (∀ (s : State) (b : List Byte) (ok : Bool) (lag : Nat), linkRuns s.dev = false ∨ s.dev.isWorker = false ∨ s.dev.cas.down.aligned = false →
    exec (.outboundSuperframe b ok lag) s = .next s)

/-- Directives on a worker: those of the superframe one EF before, unless void, take effect at the release.  ARM fills the
named slot, whose voice is then ARMING (R165).  STATE acts as the local Parlour would: a release leaves an ARMING voice with
OFF_PENDING and takes a SOUNDING one to RELEASING (R168, R178), a steal takes an ARMING voice to QUENCH and any other held
one into its fade (R165, R179), a quench goes to QUENCH, and a cut voice goes to QUENCH at once and its handle is no longer
current (R175).  RETRIG reuses the voice (R176); WRITE replaces the masked bits of a parameter store word by the write rule
of R117 on port V, with MASK = 0 nothing; GLFO restarts global LFOs.  POS = FFh names every worker; a directive for another
position, or for a slot outside the worker's pool part, is ignored and counted (R533, R534).  That one for a handle which is
not current is ignored and counted with them is the model's choice (log 29).  A void or missing directive does nothing. -/
def Obligations.DirectivesActOnWorkers : Prop :=
  let due (s : State) (i kind : Nat) (x : List Byte) : Prop := linkRuns s.dev = true ∧ s.dev.isWorker = true ∧ s.dev.cas.down.locked = true ∧
    s.dev.isOn Dom.ctrl = true ∧ i < 20 ∧ ∃ b m, s.dev.cas.outPrev = some b ∧ s.dev.cas.outIn = some m ∧ x = sfBytes b (12 + 16 * i) 16 ∧
      byteAt x 0 = kind ∧ efAdd (leNat (sfBytes b 5 5)) 1 = s.dev.now ∧ leNat (sfBytes m 5 5) = s.dev.now ∧ (leNat (sfBytes m 2 3)).testBit i = false
  let mine (s : State) (x : List Byte) : Prop := byteAt x 1 = s.dev.pos ∨ byteAt x 1 = 0xFF
  let slot (s : State) (x : List Byte) (v : Nat) : Prop := mine s x ∧ halfAt x 2 / 0x2000 % 8 = s.dev.pos ∧
    v = halfAt x 2 / 0x20 % 256 ∧ s.dev.ownCluster (cluOf v) = false ∧ s.dev.cluOn (cluOf v) = true ∧ v < s.dev.par.voices.length
  let current (s : State) (x : List Byte) (v : Nat) : Prop := (s.dev.voice v).pool = true ∧ (s.dev.voice v).state ≠ .free ∧ (s.dev.voice v).handle = halfAt x 2
  let others (s : State) (v : Nat) (d : Dev) : Prop := (∀ w, w ≠ v → d.voice w = s.dev.voice w) ∧ d.outs = s.dev.outs ∧ d.alm = s.dev.alm ∧ d.frame = s.dev.frame
  let ignored (s : State) (d : Dev) : Prop := Counts s d Reg.CAS_CNT_BAD_SF ∧ d.par = s.dev.par ∧ d.mem = s.dev.mem ∧ d.aud = s.dev.aud
  let stays (s : State) (d : Dev) : Prop := d = { s.dev with cas := d.cas }
  (∀ (s : State) (i v : Nat) (x : List Byte), due s i 1 x → slot s x v → Yields (.directiveArm i) s (fun d => others s v d ∧
      d.voice v = { Voice.reset with
        state := .arming, gen := halfAt x 2 % 32, handle := halfAt x 2, part := byteAt x 10 % 32, key := byteAt x 6
        vel := byteAt x 7, vel16 := halfAt x 8, patch := halfAt x 4 % 1024, uniIdx := byteAt x 11 / 16, uniN := byteAt x 11 % 16 + 1
        start := s.dev.now, tag := halfAt x 14, sustained := (byteAt x 13).testBit 0, sostenuto := (byteAt x 13).testBit 1
        offPending := (byteAt x 13).testBit 2, cut := (byteAt x 13).testBit 3, member := byteAt x 12, pool := true })) ∧
  (∀ (s : State) (i v a : Nat) (x : List Byte) (y : Voice), due s i 2 x → slot s x v → current s x v → a = byteAt x 4 → y = s.dev.voice v →
    (a = 1 → y.state = .arming → Yields (.directiveState i) s (fun d => others s v d ∧ d.voice v = { y with offPending := true })) ∧
    (a = 1 → y.state = .sounding → Yields (.directiveState i) s (fun d => others s v d ∧ d.voice v = { y with state := .releasing })) ∧
    (a = 2 → y.state = .arming → Yields (.directiveState i) s (fun d => others s v d ∧
      d.voice v = { y with state := .quench, quenchAt := s.dev.now })) ∧
    (a = 2 → y.state = .sounding ∨ y.state = .releasing → Yields (.directiveState i) s (fun d => others s v d ∧
      d.voice v = { y with state := .stealing, fadeAt := s.dev.now, fadeLen := fadeEf s.dev.fb (byteAt x 5) })) ∧
    (a = 3 → y.state ≠ .quench → Yields (.directiveState i) s (fun d => others s v d ∧
      d.voice v = { y with state := .quench, quenchAt := s.dev.now })) ∧
    (a = 4 → Yields (.directiveState i) s (fun d => others s v d ∧
      d.voice v = { y with state := .quench, quenchAt := s.dev.now, handle := 0 })) ∧
    ((a = 1 ∧ y.state ≠ .arming ∧ y.state ≠ .sounding) ∨ (a = 2 ∧ y.held = false) ∨ (a = 3 ∧ y.state = .quench) ∨ a = 0 ∨ 4 < a →
      Yields (.directiveState i) s (stays s))) ∧
  (∀ (s : State) (i v : Nat) (x : List Byte), due s i 3 x → slot s x v → current s x v → Yields (.directiveRetrig i) s (fun d => others s v d ∧
      d.voice v = { s.dev.voice v with
        key := byteAt x 4, vel := byteAt x 5, vel16 := halfAt x 6, offPending := false, sustained := false, gotOff := false
        state := if (s.dev.voice v).state = .releasing then .sounding else (s.dev.voice v).state })) ∧
  (∀ (s : State) (i a : Nat) (x : List Byte) (w m : Word), due s i 4 x → mine s x → a = leNat (sfBytes x 4 4) → a % 4 = 0 → a < 0x100000 →
    psReserved a = false → m = BitVec.ofNat 32 (leNat (sfBytes x 12 4)) →
    w = Word.merge (BitVec.ofNat 32 (s.dev.ps32 a)) (BitVec.ofNat 32 (leNat (sfBytes x 8 4))) m →
    (m = 0 → Yields (.directiveWrite i) s (stays s)) ∧
    (m ≠ 0 → partWordBad a w m = true → Yields (.directiveWrite i) s (fun d => Counts s d Reg.GLB_CNT_REJ ∧ Counts s d Reg.ALC_CNT_ERR ∧
      d.flag Reg.ALC_CTL 31 = true ∧ d.mem = s.dev.mem ∧ d.par = s.dev.par ∧ d.aud = s.dev.aud)) ∧
    (m ≠ 0 → partWordBad a w m = false → Yields (.directiveWrite i) s (fun d =>
      (∀ k, k < 4 → s.dev.keptByH (a + k) = false → d.ps8 (a + k) = (w.byte k).toNat) ∧
      (∀ b, b < a ∨ a + 4 ≤ b → d.ps8 b = s.dev.ps8 b) ∧ a ∈ d.port.vwords ∧ d.par = s.dev.par ∧ d.aud = s.dev.aud ∧
      ((∀ h ∈ s.dev.port.hwords, h.1 ≠ a) → d.regs = s.dev.regs)))) ∧
  (∀ (s : State) (i b : Nat) (x : List Byte), due s i 5 x → mine s x → b < 2 ^ 40 → b % 2 ^ 32 = leNat (sfBytes x 4 4) →
    s.dev.now ≤ b → b - s.dev.now < 2 ^ 31 → Yields (.directiveGlfo i) s (fun d => (∀ g, g < 16 → at_ d.aud.glfo g GLfo.reset =
      (if (halfAt x 2).testBit g then { at_ s.dev.aud.glfo g GLfo.reset with restart := some b } else at_ s.dev.aud.glfo g GLfo.reset)) ∧
      d.mem = s.dev.mem ∧ d.par = s.dev.par ∧ d.regs = s.dev.regs)) ∧
  (∀ (s : State) (i : Nat) (x : List Byte), ∀ c ∈ [(1, Instr.directiveArm i), (2, .directiveState i), (3, .directiveRetrig i),
      (4, .directiveWrite i), (5, .directiveGlfo i)], due s i c.1 x → ¬mine s x → Yields c.2 s (ignored s)) ∧
  (∀ (s : State) (i : Nat) (x : List Byte), ∀ c ∈ [(1, Instr.directiveArm i), (2, .directiveState i), (3, .directiveRetrig i)], due s i c.1 x →
    halfAt x 2 / 0x2000 % 8 ≠ s.dev.pos ∨ s.dev.ownCluster (cluOf (halfAt x 2 / 0x20 % 256)) = true → Yields c.2 s (ignored s)) ∧
  (∀ (s : State) (i v : Nat) (x : List Byte), ∀ c ∈ [(2, Instr.directiveState i), (3, .directiveRetrig i)], due s i c.1 x → slot s x v →
    ¬current s x v → Yields c.2 s (ignored s)) ∧
  (∀ (s : State) (i : Nat) (m : List Byte), 20 ≤ i ∨ s.dev.cas.outPrev = none ∨ (s.dev.cas.outIn = some m ∧ (leNat (sfBytes m 2 3)).testBit i = true) →
    ∀ c ∈ [Instr.directiveArm i, .directiveState i, .directiveRetrig i, .directiveWrite i, .directiveGlfo i], exec c s = .next s)

/-- Packets between devices: a worker's task is admitted to the master's pool behind the classes of R123 before it, or waits its turn to land, or is dropped when
it can never be (R538, R539); that a packet whose task can never be admitted is dropped and counted is the model's choice
(log 29); its log entries enter the master's log with FWD and its position (R518, R540); its
firmware answers a forwarded request with a response packet, and the master's FWD ends with the last fragment's
data (R538, R540).  Without a packet waiting nothing happens. -/
def Obligations.PacketsPassBetweenDevices : Prop :=
  let first (s : State) (ty : Nat) (p : List Byte) (r : List (List Byte)) : Prop := linkRuns s.dev = true ∧ s.dev.cas.packetsIn = p :: r ∧ byteAt p 0 = ty
  let answer (cmd tag st : Nat) (data : List Byte) : List Byte := leBytes 1 cmd ++ leBytes 1 tag ++ leBytes 1 st ++ leBytes 1 data.length ++ data
  let packet (ty pos sq : Nat) (pay : List Byte) : List Byte := leBytes 1 ty ++ leBytes 1 pay.length ++ leBytes 1 pos ++ leBytes 1 sq ++ pay
  (∀ (s : State) (p im : List Byte) (r : List (List Byte)) (o : Offer) (e : Dev), first s 1 p r → s.dev.isMaster = true → s.dev.isOn Dom.ctrl = true →
    im = sfBytes p 4 32 → o = offerOf im 5 →
    e = earlierReleases 4 { s.dev with cas := { s.dev.cas with packetsIn := r, landing := s.dev.cas.landing ++ [im] } } →
    (badReason o (decide (0x50 ≤ o.flow ∧ o.flow < 0x60)) ≠ 0 → Yields .taskPacket s (fun d => Counts s d Reg.CAS_CNT_PKT_DROP ∧
      d.cas.packetsIn = r ∧ d.alm = s.dev.alm ∧ d.mem = s.dev.mem)) ∧
    (badReason o (decide (0x50 ≤ o.flow ∧ o.flow < 0x60)) = 0 → s.dev.cas.landing = [] →
      (refusal e (countOf (s.dev.fld Reg.ALM_RESV 13 0) 8192) (o.atOnce e) o.typ o.flow = 0 → PoolOk s.dev.alm →
        Yields .taskPacket s (fun d => d.cas.packetsIn = r ∧ d.cas.landing = [] ∧ (∃ t : Task, d.alm.pool = e.alm.pool ++ [t] ∧
          t.typ = o.typ ∧ t.tag = o.tag ∧ t.flow = o.flow ∧ t.payload = o.payload ∧ t.origin = 5 ∧ e.task? t.idx = none ∧
          (o.atOnce e = true → t.state = TaskState.ready ∧ t.relEf = s.dev.now)) ∧ d.mem = s.dev.mem ∧ d.par = s.dev.par)) ∧
      (refusal e (countOf (s.dev.fld Reg.ALM_RESV 13 0) 8192) (o.atOnce e) o.typ o.flow ≠ 0 → Yields .taskPacket s (fun d =>
        d = e ∧ d.cas = { s.dev.cas with packetsIn := r, landing := [im] })))) ∧
  (∀ (s : State) (p : List Byte) (r : List (List Byte)), first s 2 p r → s.dev.isMaster = true → p.length = 20 → firmwareUp s.dev = true →
    s.dev.mgt.wdogLog = false → s.dev.mgt.lost = 0 → Yields .logPacket s (fun d => d.cas = { s.dev.cas with packetsIn := r } ∧
      d.mgt.queue = s.dev.mgt.queue ∧ RegsKept s d [Reg.MGT_IRQ_STAT] ∧ d.par = s.dev.par ∧ ∃ e : LogEv,
      e.ef = leNat ((p.drop 4).take 5) ∧ e.source = byteAt p 9 ∧ e.code = byteAt p 10 ∧ e.sev = byteAt p 11 % 4 ∧ e.pos = byteAt p 2 % 8 ∧
      e.fwd = true ∧ e.data = p.drop 12 ∧
      (logBlocked s.dev = false → s.dev.mgt.own = [] → d.mgt.total = s.dev.mgt.total + 1 ∧
        d.mramBytes (logRing + 16 * (s.dev.mgt.total % 4096)) 16 = logBytes e) ∧
      (logBlocked s.dev = true ∨ s.dev.mgt.own ≠ [] → d.mgt.own = s.dev.mgt.own ++ [e] ∧ d.mem = s.dev.mem))) ∧
  (∀ s : State, firmwareUp s.dev = false → exec .logPacket s = .next s) ∧
  (∀ (s : State) (tag : Nat) (p : List Byte) (r : List (List Byte)) (ok : Bool), first s 3 p r → s.dev.isWorker = true → firmwareUp s.dev = true → tag < 256 →
    s.dev.cas.own.length < 32 → s.dev.stage ≠ Stage.romWait →
    (p.drop 4 = [0x01, BitVec.ofNat 8 tag, 0, 0] → Yields (.mgmtReq ok) s (fun d => d = { s.dev with cas := { s.dev.cas with
      packetsIn := r, own := s.dev.cas.own ++ [packet 4 s.dev.pos 0x80 (answer 0x01 tag 0 (leBytes 4 s.dev.mgt.fwVersion ++
        leBytes 1 s.dev.mgt.secVersion ++ leBytes 1 s.prot.floor ++ leBytes 1 s.dev.slot ++ leBytes 1 s.dev.stage ++
        leBytes 1 (slotSec s 0) ++ leBytes 1 (slotSec s 1)))] } })) ∧
    (∀ c, c < 256 → c ∉ allCommands → p.drop 4 = [BitVec.ofNat 8 c, BitVec.ofNat 8 tag, 0, 0] → Yields (.mgmtReq ok) s (fun d =>
      d = { s.dev with cas := { s.dev.cas with packetsIn := r, own := s.dev.cas.own ++ [packet 4 s.dev.pos 0x80 (answer c tag 1 [])] } }))) ∧
  (∀ (s : State) (p : List Byte) (r : List (List Byte)), first s 4 p r → s.dev.isMaster = true → firmwareUp s.dev = true →
    (s.dev.cas.fwdPos ≠ some (byteAt p 2) → Yields .mgmtRsp s (fun d => d = { s.dev with cas := { s.dev.cas with packetsIn := r } })) ∧
    (s.dev.cas.fwdPos = some (byteAt p 2) → (byteAt p 3).testBit 7 = false → Yields .mgmtRsp s (fun d =>
      d = { s.dev with cas := { s.dev.cas with packetsIn := r, fwdData := s.dev.cas.fwdData ++ p.drop 4 } })) ∧
    (s.dev.cas.fwdPos = some (byteAt p 2) → (byteAt p 3).testBit 7 = true → s.dev.cas.fwdPort = none → s.dev.mgt.busy = true →
      s.dev.mgt.response = none → byteAt s.dev.mgt.request 0 = 0x30 → Yields .mgmtRsp s (fun d => d.cas.packetsIn = r ∧ d.cas.fwdPos = none ∧
        d.mgt = { s.dev.mgt with response := some (answer 0x30 (byteAt s.dev.mgt.request 1) 0 (s.dev.cas.fwdData ++ p.drop 4)) } ∧
        d = { s.dev with cas := d.cas, mgt := d.mgt }))) ∧
  (∀ s : State, s.dev.cas.packetsIn = [] → exec .taskPacket s = .next s ∧ exec .logPacket s = .next s ∧ (∀ ok, exec (.mgmtReq ok) s = .next s) ∧
    exec .mgmtRsp s = .next s)

/-- The rollback floor: no step lowers it, and only commands that carry a ROLLBACK_ADV can raise it; ROLLBACK_ADV from the
mailbox makes FLOOR the new value exactly when the stage is RUN, the value is above FLOOR, at most 32 and at most the
running SEC_VERSION, and FORCE is set or the other slot's header is valid with a SEC_VERSION at or above it; otherwise it
ends with status 02h and FLOOR stays (R515); over latched pads that header cannot be read (R481). -/
def Obligations.RollbackFloorOnlyRises : Prop :=
  let posted (s : State) (tag : Nat) (p : List Byte) : Prop := mailboxOpen s.dev = true ∧ s.dev.mgt.busy = true ∧ s.dev.mgt.response = none ∧
    s.dev.mgt.request = leBytes 1 0x18 ++ leBytes 1 tag ++ leBytes 2 2 ++ p ∧ p.length = 2 ∧ tag < 256
  let answer (tag st : Nat) (data : List Byte) : List Byte := leBytes 1 0x18 ++ leBytes 1 tag ++ leBytes 1 st ++ leBytes 1 data.length ++ data
  let may (s : State) (v : Nat) (force : Bool) : Prop := s.dev.stage = Stage.run ∧ s.prot.floor < v ∧ v ≤ 32 ∧ v ≤ s.dev.mgt.secVersion ∧
    (force = true ∨ (s.dev.nvReach = true ∧ headerErr s (1 - s.dev.slot) = 0 ∧ v ≤ flashNat s.prot.flash (s.dev.boot.base (1 - s.dev.slot) + 0x0C) 4))
  (∀ s t : State, step s = .next t → s.prot.floor ≤ t.prot.floor ∧ (t.prot.floor = s.prot.floor ∨
    ∃ c r, s.pending = c :: r ∧ (c = .rollbackAdv ∨ (∃ ok, c = .mgmtReq ok) ∨ ∃ i ok, c = .sysexDone i ok))) ∧
  (∀ (s : State) (tag : Nat) (v f : Byte), posted s tag [v, f] → s.dev.stage ≠ Stage.romWait → romStage s.dev = false →
    (may s v.toNat (f.getLsbD 0) → Answers .rollbackAdv s (fun t => t.prot = { s.prot with floor := v.toNat } ∧
      t.dev.mgt.response = some (answer tag 0 [v]) ∧ t.pending = s.pending ∧ t.dev.mem = { s.dev.mem with mram := t.dev.mem.mram } ∧
      t.dev.par = s.dev.par)) ∧
    (¬may s v.toNat (f.getLsbD 0) → Answers .rollbackAdv s (fun t => t.prot = s.prot ∧
      t.dev.mgt.response = some (answer tag 2 []) ∧ t.pending = s.pending ∧ t.dev.mem = s.dev.mem ∧ t.dev.par = s.dev.par)))

/-- The lock, once set, stays set through every step that does not reset the device (R12); after one that does, the power
controller, the frame timer, the Almanac and the outputs are in their reset states.  A watchdog reset, a fallback reset
and the reset of a wake whose firmware fails leave the lock as it is (R12; which resets count as RESET_N: log 16). -/
def Obligations.LockHoldsUntilAReset : Prop :=
  (∀ s t : State, s.prot.lock = true → step s = .next t → t.prot.lock = true ∨
    (t.dev.pwr = Dev.reset.pwr ∧ t.dev.frame = Dev.reset.frame ∧ t.dev.alm = Dev.reset.alm ∧ t.dev.outs = Dev.reset.outs)) ∧
  ∀ (s : State) (n : Nat), ∀ c ∈ [Instr.watchdogReset, .fallbackReset, .domainWake n],
    Answers c s (fun t => t.prot.lock = s.prot.lock ∧ t.prot.floor = s.prot.floor)

/-- Every step keeps every store in its canonical form: the flash, the registers, the parameter store, management RAM, the
output waveform memories and the wave DRAM list rising addresses and no byte that an unlisted address reads as. -/
def Obligations.MemoryFormIsKeptByEveryStep : Prop := ∀ s t : State, Memory.wf s = true → step s = .next t → Memory.wf t = true
end

