-- ==== Sys2Proof/Laws/Cells.lean ====
section
/-! SUPPORT. The laws of a sparse store: a read after a write, and that every write keeps the canonical form. -/

namespace Sys2Proof.Machine

variable {α : Type}

/-- Entries at other addresses play no part in a read. -/
theorem cellGet_filter_ne (dflt : Nat → α) (l : List (Nat × α)) (a b : Nat) (h : a ≠ b) :
    cellGet dflt (l.filter (fun p => p.1 != b)) a = cellGet dflt l a := by
  induction l with
  | nil => rfl
  | cons p r ih =>
    obtain ⟨c, w⟩ := p
    by_cases hc : c = b
    · have : a ≠ c := fun e => h (e.trans hc)
      simp [hc, cellGet, ih, h]
    · simp [hc, cellGet, ih]

/-- With its entries gone, an address reads as unlisted. -/
theorem cellGet_filter_same (dflt : Nat → α) (l : List (Nat × α)) (a : Nat) :
    cellGet dflt (l.filter (fun p => p.1 != a)) a = dflt a := by
  induction l with
  | nil => rfl
  | cons p r ih =>
    obtain ⟨c, w⟩ := p
    by_cases hc : c = a
    · simp [hc, ih]
    · have : a ≠ c := fun e => hc e.symm
      simp [hc, cellGet, ih, this]

/-- A read after a write to the same address gives the value written. -/
@[simp] theorem cellGet_cellSet_same [DecidableEq α] (dflt : Nat → α) (l : List (Nat × α)) (a : Nat) (v : α) :
    cellGet dflt (cellSet dflt l a v) a = v := by
  induction l with
  | nil => by_cases h : v = dflt a <;> simp [cellSet, cellGet, h]
  | cons p r ih =>
    obtain ⟨b, w⟩ := p
    simp only [cellSet]
    split
    · have : a ≠ b := by omega
      simp [cellGet, this, ih]
    · split
      · next h => rw [cellGet_filter_same]; exact h.symm
      · simp [cellGet]

/-- A write leaves every other address alone. -/
theorem cellGet_cellSet_ne [DecidableEq α] (dflt : Nat → α) (l : List (Nat × α)) (a b : Nat) (v : α) (hab : b ≠ a) :
    cellGet dflt (cellSet dflt l a v) b = cellGet dflt l b := by
  induction l with
  | nil => by_cases h : v = dflt a <;> simp [cellSet, cellGet, h, hab]
  | cons p r ih =>
    obtain ⟨c, w⟩ := p
    simp only [cellSet]
    split
    · simp [cellGet, ih]
    · split
      · rw [cellGet_filter_ne _ _ _ _ hab]
      · by_cases hc : a = c
        · subst hc; simp [cellGet, hab]
        · simp [cellGet, hab, hc]

/-- Both at once. -/
theorem cellGet_cellSet [DecidableEq α] (dflt : Nat → α) (l : List (Nat × α)) (a b : Nat) (v : α) :
    cellGet dflt (cellSet dflt l a v) b = if b = a then v else cellGet dflt l b := by
  by_cases h : b = a
  · subst h; simp
  · simp [h, cellGet_cellSet_ne]

theorem cellsAbove_filter (b : Nat) (l : List (Nat × α)) (f : Nat × α → Bool) (h : cellsAbove b l = true) :
    cellsAbove b (l.filter f) = true := by
  simp only [cellsAbove, List.all_eq_true] at *
  intro p hp
  exact h p (List.mem_filter.mp hp).1

theorem cellsAbove_mono (a b : Nat) (l : List (Nat × α)) (hab : a ≤ b) (h : cellsAbove b l = true) : cellsAbove a l = true := by
  simp only [cellsAbove, List.all_eq_true, decide_eq_true_eq] at *
  intro p hp
  have := h p hp
  omega

/-- Leaving entries out keeps the canonical form. -/
theorem cellsWf_filter [DecidableEq α] (dflt : Nat → α) (l : List (Nat × α)) (f : Nat × α → Bool) (h : cellsWf dflt l = true) :
    cellsWf dflt (l.filter f) = true := by
  induction l with
  | nil => rfl
  | cons p r ih =>
    obtain ⟨b, w⟩ := p
    simp only [cellsWf, Bool.and_eq_true, decide_eq_true_eq] at h
    by_cases hf : f (b, w) = true
    · simp [hf, cellsWf, ih h.2, cellsAbove_filter b r f h.1.1, h.1.2]
    · simp [hf, ih h.2]

theorem cellsAbove_cellSet [DecidableEq α] (dflt : Nat → α) (l : List (Nat × α)) (b a : Nat) (v : α) (hab : b < a)
    (h : cellsAbove b l = true) : cellsAbove b (cellSet dflt l a v) = true := by
  induction l with
  | nil => by_cases hv : v = dflt a <;> simp [cellSet, hv, cellsAbove, hab]
  | cons p r ih =>
    obtain ⟨c, w⟩ := p
    have hr : cellsAbove b r = true := by simp only [cellsAbove, List.all_cons, Bool.and_eq_true] at h ⊢; exact h.2
    have hc : b < c := by simp only [cellsAbove, List.all_cons, Bool.and_eq_true, decide_eq_true_eq] at h; exact h.1
    simp only [cellSet]
    split
    · have hi := ih hr
      simp only [cellsAbove, List.all_cons, Bool.and_eq_true, decide_eq_true_eq] at hi ⊢
      exact ⟨hc, hi⟩
    · split
      · exact cellsAbove_filter b _ _ h
      · by_cases hac : a = c
        · rw [if_pos hac]
          simp only [cellsAbove, List.all_cons, Bool.and_eq_true, decide_eq_true_eq] at hr ⊢
          exact ⟨hab, hr⟩
        · rw [if_neg hac]
          simp only [cellsAbove, List.all_cons, Bool.and_eq_true, decide_eq_true_eq] at hr ⊢
          exact ⟨hab, hc, hr⟩

/-- A write keeps the canonical form. -/
theorem cellsWf_cellSet [DecidableEq α] (dflt : Nat → α) (l : List (Nat × α)) (a : Nat) (v : α) (h : cellsWf dflt l = true) :
    cellsWf dflt (cellSet dflt l a v) = true := by
  induction l with
  | nil => by_cases hv : v = dflt a <;> simp [cellSet, hv, cellsWf, cellsAbove]
  | cons p r ih =>
    obtain ⟨b, w⟩ := p
    have h' := h
    simp only [cellsWf, Bool.and_eq_true, decide_eq_true_eq] at h'
    simp only [cellSet]
    split
    · next hb =>
      simp [cellsWf, ih h'.2, cellsAbove_cellSet dflt r b a v hb h'.1.1, h'.1.2]
    · next hb =>
      split
      · exact cellsWf_filter dflt _ _ h
      · next hv =>
        by_cases hab : a = b
        · subst hab; simp [cellsWf, h'.2, h'.1.1, hv]
        · rw [if_neg hab]
          have hlt : a < b := by omega
          have ha : cellsAbove a r = true := cellsAbove_mono a b r (by omega) h'.1.1
          simp only [cellsWf, Bool.and_eq_true, decide_eq_true_eq]
          refine ⟨⟨?_, hv⟩, h'⟩
          simp only [cellsAbove, List.all_cons, Bool.and_eq_true, decide_eq_true_eq] at ha ⊢
          exact ⟨hlt, ha⟩

/-- Bytes written keep the canonical form. -/
theorem cellsWf_cellPutBytes [DecidableEq α] (dflt : Nat → α) (bs : List α) (l : List (Nat × α)) (a : Nat) (h : cellsWf dflt l = true) :
    cellsWf dflt (cellPutBytes dflt l a bs) = true := by
  induction bs generalizing l a with
  | nil => exact h
  | cons b r ih => exact ih _ _ (cellsWf_cellSet dflt l a b h)

/-- A byte of a run written reads as it was written; every other byte reads as before. -/
theorem cellGet_cellPutBytes [DecidableEq α] (dflt : Nat → α) (bs : List α) (l : List (Nat × α)) (a b : Nat) :
    cellGet dflt (cellPutBytes dflt l a bs) b =
      if a ≤ b ∧ b < a + bs.length then bs.getD (b - a) (dflt b) else cellGet dflt l b := by
  induction bs generalizing l a with
  | nil => simp [cellPutBytes] <;> omega
  | cons x r ih =>
    rw [cellPutBytes, ih, cellGet_cellSet]
    by_cases h1 : a + 1 ≤ b ∧ b < a + 1 + r.length
    · have : b - a = (b - (a + 1)) + 1 := by omega
      rw [if_pos h1, if_pos (by simp; omega), this]; simp
    · rw [if_neg h1]
      by_cases h2 : b = a
      · subst h2; simp
      · rw [if_neg h2, if_neg (by simp; omega)]

end Sys2Proof.Machine
end

