-- ==== Sys2Proof/Laws/State.lean ====
section
/-! SUPPORT. The device as a record: which of its parts each operation leaves alone. -/

namespace Sys2Proof.Machine

open Sys2Proof

/-- What one collision leaves alone, any number of them leave alone. -/
theorem collide_fold {γ : Type} (p : Dev → γ) (h : ∀ off d, p (collide off d) = p d) (l : List Nat) (d : Dev) :
    p (l.foldl (fun d off => collide off d) d) = p d := by
  induction l generalizing d with
  | nil => rfl
  | cons x r ih => exact (ih _).trans (h x d)

@[simp] theorem Dev.fresh_putReg (d : Dev) (a : Nat) (w : Word) : (d.putReg a w).fresh = d.fresh := rfl
@[simp] theorem Dev.mem_putReg (d : Dev) (a : Nat) (w : Word) : (d.putReg a w).mem = d.mem := rfl
@[simp] theorem Dev.frame_putReg (d : Dev) (a : Nat) (w : Word) : (d.putReg a w).frame = d.frame := rfl
@[simp] theorem Dev.port_putReg (d : Dev) (a : Nat) (w : Word) : (d.putReg a w).port = d.port := rfl
@[simp] theorem Dev.win_putReg (d : Dev) (a : Nat) (w : Word) : (d.putReg a w).win = d.win := rfl
@[simp] theorem Dev.cnt_putReg (d : Dev) (a : Nat) (w : Word) : (d.putReg a w).cnt = d.cnt := rfl
@[simp] theorem Dev.pwr_putReg (d : Dev) (a : Nat) (w : Word) : (d.putReg a w).pwr = d.pwr := rfl
@[simp] theorem Dev.mgt_putReg (d : Dev) (a : Nat) (w : Word) : (d.putReg a w).mgt = d.mgt := rfl
@[simp] theorem Dev.boot_putReg (d : Dev) (a : Nat) (w : Word) : (d.putReg a w).boot = d.boot := rfl
@[simp] theorem Dev.alm_putReg (d : Dev) (a : Nat) (w : Word) : (d.putReg a w).alm = d.alm := rfl
@[simp] theorem Dev.par_putReg (d : Dev) (a : Nat) (w : Word) : (d.putReg a w).par = d.par := rfl
@[simp] theorem Dev.aud_putReg (d : Dev) (a : Nat) (w : Word) : (d.putReg a w).aud = d.aud := rfl
@[simp] theorem Dev.cal_putReg (d : Dev) (a : Nat) (w : Word) : (d.putReg a w).cal = d.cal := rfl
@[simp] theorem Dev.mix_putReg (d : Dev) (a : Nat) (w : Word) : (d.putReg a w).mix = d.mix := rfl
@[simp] theorem Dev.outs_putReg (d : Dev) (a : Nat) (w : Word) : (d.putReg a w).outs = d.outs := rfl
@[simp] theorem Dev.tdm_putReg (d : Dev) (a : Nat) (w : Word) : (d.putReg a w).tdm = d.tdm := rfl
@[simp] theorem Dev.ser_putReg (d : Dev) (a : Nat) (w : Word) : (d.putReg a w).ser = d.ser := rfl
@[simp] theorem Dev.cas_putReg (d : Dev) (a : Nat) (w : Word) : (d.putReg a w).cas = d.cas := rfl

@[simp] theorem Dev.fresh_putFld (d : Dev) (a hi lo v : Nat) : (d.putFld a hi lo v).fresh = d.fresh := rfl
@[simp] theorem Dev.mem_putFld (d : Dev) (a hi lo v : Nat) : (d.putFld a hi lo v).mem = d.mem := rfl
@[simp] theorem Dev.frame_putFld (d : Dev) (a hi lo v : Nat) : (d.putFld a hi lo v).frame = d.frame := rfl
@[simp] theorem Dev.port_putFld (d : Dev) (a hi lo v : Nat) : (d.putFld a hi lo v).port = d.port := rfl
@[simp] theorem Dev.win_putFld (d : Dev) (a hi lo v : Nat) : (d.putFld a hi lo v).win = d.win := rfl
@[simp] theorem Dev.cnt_putFld (d : Dev) (a hi lo v : Nat) : (d.putFld a hi lo v).cnt = d.cnt := rfl
@[simp] theorem Dev.pwr_putFld (d : Dev) (a hi lo v : Nat) : (d.putFld a hi lo v).pwr = d.pwr := rfl
@[simp] theorem Dev.mgt_putFld (d : Dev) (a hi lo v : Nat) : (d.putFld a hi lo v).mgt = d.mgt := rfl
@[simp] theorem Dev.boot_putFld (d : Dev) (a hi lo v : Nat) : (d.putFld a hi lo v).boot = d.boot := rfl
@[simp] theorem Dev.alm_putFld (d : Dev) (a hi lo v : Nat) : (d.putFld a hi lo v).alm = d.alm := rfl
@[simp] theorem Dev.par_putFld (d : Dev) (a hi lo v : Nat) : (d.putFld a hi lo v).par = d.par := rfl
@[simp] theorem Dev.aud_putFld (d : Dev) (a hi lo v : Nat) : (d.putFld a hi lo v).aud = d.aud := rfl
@[simp] theorem Dev.cal_putFld (d : Dev) (a hi lo v : Nat) : (d.putFld a hi lo v).cal = d.cal := rfl
@[simp] theorem Dev.mix_putFld (d : Dev) (a hi lo v : Nat) : (d.putFld a hi lo v).mix = d.mix := rfl
@[simp] theorem Dev.outs_putFld (d : Dev) (a hi lo v : Nat) : (d.putFld a hi lo v).outs = d.outs := rfl
@[simp] theorem Dev.tdm_putFld (d : Dev) (a hi lo v : Nat) : (d.putFld a hi lo v).tdm = d.tdm := rfl
@[simp] theorem Dev.ser_putFld (d : Dev) (a hi lo v : Nat) : (d.putFld a hi lo v).ser = d.ser := rfl
@[simp] theorem Dev.cas_putFld (d : Dev) (a hi lo v : Nat) : (d.putFld a hi lo v).cas = d.cas := rfl

@[simp] theorem Dev.fresh_putFlag (d : Dev) (a n : Nat) (b : Bool) : (d.putFlag a n b).fresh = d.fresh := rfl
@[simp] theorem Dev.mem_putFlag (d : Dev) (a n : Nat) (b : Bool) : (d.putFlag a n b).mem = d.mem := rfl
@[simp] theorem Dev.frame_putFlag (d : Dev) (a n : Nat) (b : Bool) : (d.putFlag a n b).frame = d.frame := rfl
@[simp] theorem Dev.port_putFlag (d : Dev) (a n : Nat) (b : Bool) : (d.putFlag a n b).port = d.port := rfl
@[simp] theorem Dev.win_putFlag (d : Dev) (a n : Nat) (b : Bool) : (d.putFlag a n b).win = d.win := rfl
@[simp] theorem Dev.cnt_putFlag (d : Dev) (a n : Nat) (b : Bool) : (d.putFlag a n b).cnt = d.cnt := rfl
@[simp] theorem Dev.pwr_putFlag (d : Dev) (a n : Nat) (b : Bool) : (d.putFlag a n b).pwr = d.pwr := rfl
@[simp] theorem Dev.mgt_putFlag (d : Dev) (a n : Nat) (b : Bool) : (d.putFlag a n b).mgt = d.mgt := rfl
@[simp] theorem Dev.boot_putFlag (d : Dev) (a n : Nat) (b : Bool) : (d.putFlag a n b).boot = d.boot := rfl
@[simp] theorem Dev.alm_putFlag (d : Dev) (a n : Nat) (b : Bool) : (d.putFlag a n b).alm = d.alm := rfl
@[simp] theorem Dev.par_putFlag (d : Dev) (a n : Nat) (b : Bool) : (d.putFlag a n b).par = d.par := rfl
@[simp] theorem Dev.aud_putFlag (d : Dev) (a n : Nat) (b : Bool) : (d.putFlag a n b).aud = d.aud := rfl
@[simp] theorem Dev.cal_putFlag (d : Dev) (a n : Nat) (b : Bool) : (d.putFlag a n b).cal = d.cal := rfl
@[simp] theorem Dev.mix_putFlag (d : Dev) (a n : Nat) (b : Bool) : (d.putFlag a n b).mix = d.mix := rfl
@[simp] theorem Dev.outs_putFlag (d : Dev) (a n : Nat) (b : Bool) : (d.putFlag a n b).outs = d.outs := rfl
@[simp] theorem Dev.tdm_putFlag (d : Dev) (a n : Nat) (b : Bool) : (d.putFlag a n b).tdm = d.tdm := rfl
@[simp] theorem Dev.ser_putFlag (d : Dev) (a n : Nat) (b : Bool) : (d.putFlag a n b).ser = d.ser := rfl
@[simp] theorem Dev.cas_putFlag (d : Dev) (a n : Nat) (b : Bool) : (d.putFlag a n b).cas = d.cas := rfl

@[simp] theorem Dev.fresh_bumpFld (d : Dev) (a hi lo n : Nat) : (d.bumpFld a hi lo n).fresh = d.fresh := rfl
@[simp] theorem Dev.mem_bumpFld (d : Dev) (a hi lo n : Nat) : (d.bumpFld a hi lo n).mem = d.mem := rfl
@[simp] theorem Dev.frame_bumpFld (d : Dev) (a hi lo n : Nat) : (d.bumpFld a hi lo n).frame = d.frame := rfl
@[simp] theorem Dev.port_bumpFld (d : Dev) (a hi lo n : Nat) : (d.bumpFld a hi lo n).port = d.port := rfl
@[simp] theorem Dev.win_bumpFld (d : Dev) (a hi lo n : Nat) : (d.bumpFld a hi lo n).win = d.win := rfl
@[simp] theorem Dev.cnt_bumpFld (d : Dev) (a hi lo n : Nat) : (d.bumpFld a hi lo n).cnt = d.cnt := rfl
@[simp] theorem Dev.pwr_bumpFld (d : Dev) (a hi lo n : Nat) : (d.bumpFld a hi lo n).pwr = d.pwr := rfl
@[simp] theorem Dev.mgt_bumpFld (d : Dev) (a hi lo n : Nat) : (d.bumpFld a hi lo n).mgt = d.mgt := rfl
@[simp] theorem Dev.boot_bumpFld (d : Dev) (a hi lo n : Nat) : (d.bumpFld a hi lo n).boot = d.boot := rfl
@[simp] theorem Dev.alm_bumpFld (d : Dev) (a hi lo n : Nat) : (d.bumpFld a hi lo n).alm = d.alm := rfl
@[simp] theorem Dev.par_bumpFld (d : Dev) (a hi lo n : Nat) : (d.bumpFld a hi lo n).par = d.par := rfl
@[simp] theorem Dev.aud_bumpFld (d : Dev) (a hi lo n : Nat) : (d.bumpFld a hi lo n).aud = d.aud := rfl
@[simp] theorem Dev.cal_bumpFld (d : Dev) (a hi lo n : Nat) : (d.bumpFld a hi lo n).cal = d.cal := rfl
@[simp] theorem Dev.mix_bumpFld (d : Dev) (a hi lo n : Nat) : (d.bumpFld a hi lo n).mix = d.mix := rfl
@[simp] theorem Dev.outs_bumpFld (d : Dev) (a hi lo n : Nat) : (d.bumpFld a hi lo n).outs = d.outs := rfl
@[simp] theorem Dev.tdm_bumpFld (d : Dev) (a hi lo n : Nat) : (d.bumpFld a hi lo n).tdm = d.tdm := rfl
@[simp] theorem Dev.ser_bumpFld (d : Dev) (a hi lo n : Nat) : (d.bumpFld a hi lo n).ser = d.ser := rfl
@[simp] theorem Dev.cas_bumpFld (d : Dev) (a hi lo n : Nat) : (d.bumpFld a hi lo n).cas = d.cas := rfl

@[simp] theorem Dev.fresh_bumpBy (d : Dev) (a n : Nat) : (d.bumpBy a n).fresh = d.fresh := rfl
@[simp] theorem Dev.mem_bumpBy (d : Dev) (a n : Nat) : (d.bumpBy a n).mem = d.mem := rfl
@[simp] theorem Dev.frame_bumpBy (d : Dev) (a n : Nat) : (d.bumpBy a n).frame = d.frame := rfl
@[simp] theorem Dev.port_bumpBy (d : Dev) (a n : Nat) : (d.bumpBy a n).port = d.port := rfl
@[simp] theorem Dev.win_bumpBy (d : Dev) (a n : Nat) : (d.bumpBy a n).win = d.win := rfl
@[simp] theorem Dev.cnt_bumpBy (d : Dev) (a n : Nat) : (d.bumpBy a n).cnt = d.cnt := rfl
@[simp] theorem Dev.pwr_bumpBy (d : Dev) (a n : Nat) : (d.bumpBy a n).pwr = d.pwr := rfl
@[simp] theorem Dev.mgt_bumpBy (d : Dev) (a n : Nat) : (d.bumpBy a n).mgt = d.mgt := rfl
@[simp] theorem Dev.boot_bumpBy (d : Dev) (a n : Nat) : (d.bumpBy a n).boot = d.boot := rfl
@[simp] theorem Dev.alm_bumpBy (d : Dev) (a n : Nat) : (d.bumpBy a n).alm = d.alm := rfl
@[simp] theorem Dev.par_bumpBy (d : Dev) (a n : Nat) : (d.bumpBy a n).par = d.par := rfl
@[simp] theorem Dev.aud_bumpBy (d : Dev) (a n : Nat) : (d.bumpBy a n).aud = d.aud := rfl
@[simp] theorem Dev.cal_bumpBy (d : Dev) (a n : Nat) : (d.bumpBy a n).cal = d.cal := rfl
@[simp] theorem Dev.mix_bumpBy (d : Dev) (a n : Nat) : (d.bumpBy a n).mix = d.mix := rfl
@[simp] theorem Dev.outs_bumpBy (d : Dev) (a n : Nat) : (d.bumpBy a n).outs = d.outs := rfl
@[simp] theorem Dev.tdm_bumpBy (d : Dev) (a n : Nat) : (d.bumpBy a n).tdm = d.tdm := rfl
@[simp] theorem Dev.ser_bumpBy (d : Dev) (a n : Nat) : (d.bumpBy a n).ser = d.ser := rfl
@[simp] theorem Dev.cas_bumpBy (d : Dev) (a n : Nat) : (d.bumpBy a n).cas = d.cas := rfl

@[simp] theorem Dev.fresh_bump (d : Dev) (a : Nat) : (d.bump a).fresh = d.fresh := rfl
@[simp] theorem Dev.mem_bump (d : Dev) (a : Nat) : (d.bump a).mem = d.mem := rfl
@[simp] theorem Dev.frame_bump (d : Dev) (a : Nat) : (d.bump a).frame = d.frame := rfl
@[simp] theorem Dev.port_bump (d : Dev) (a : Nat) : (d.bump a).port = d.port := rfl
@[simp] theorem Dev.win_bump (d : Dev) (a : Nat) : (d.bump a).win = d.win := rfl
@[simp] theorem Dev.cnt_bump (d : Dev) (a : Nat) : (d.bump a).cnt = d.cnt := rfl
@[simp] theorem Dev.pwr_bump (d : Dev) (a : Nat) : (d.bump a).pwr = d.pwr := rfl
@[simp] theorem Dev.mgt_bump (d : Dev) (a : Nat) : (d.bump a).mgt = d.mgt := rfl
@[simp] theorem Dev.boot_bump (d : Dev) (a : Nat) : (d.bump a).boot = d.boot := rfl
@[simp] theorem Dev.alm_bump (d : Dev) (a : Nat) : (d.bump a).alm = d.alm := rfl
@[simp] theorem Dev.par_bump (d : Dev) (a : Nat) : (d.bump a).par = d.par := rfl
@[simp] theorem Dev.aud_bump (d : Dev) (a : Nat) : (d.bump a).aud = d.aud := rfl
@[simp] theorem Dev.cal_bump (d : Dev) (a : Nat) : (d.bump a).cal = d.cal := rfl
@[simp] theorem Dev.mix_bump (d : Dev) (a : Nat) : (d.bump a).mix = d.mix := rfl
@[simp] theorem Dev.outs_bump (d : Dev) (a : Nat) : (d.bump a).outs = d.outs := rfl
@[simp] theorem Dev.tdm_bump (d : Dev) (a : Nat) : (d.bump a).tdm = d.tdm := rfl
@[simp] theorem Dev.ser_bump (d : Dev) (a : Nat) : (d.bump a).ser = d.ser := rfl
@[simp] theorem Dev.cas_bump (d : Dev) (a : Nat) : (d.bump a).cas = d.cas := rfl

@[simp] theorem Dev.fresh_setStage (d : Dev) (n : Nat) : (d.setStage n).fresh = d.fresh := rfl
@[simp] theorem Dev.mem_setStage (d : Dev) (n : Nat) : (d.setStage n).mem = d.mem := rfl
@[simp] theorem Dev.frame_setStage (d : Dev) (n : Nat) : (d.setStage n).frame = d.frame := rfl
@[simp] theorem Dev.port_setStage (d : Dev) (n : Nat) : (d.setStage n).port = d.port := rfl
@[simp] theorem Dev.win_setStage (d : Dev) (n : Nat) : (d.setStage n).win = d.win := rfl
@[simp] theorem Dev.cnt_setStage (d : Dev) (n : Nat) : (d.setStage n).cnt = d.cnt := rfl
@[simp] theorem Dev.pwr_setStage (d : Dev) (n : Nat) : (d.setStage n).pwr = d.pwr := rfl
@[simp] theorem Dev.mgt_setStage (d : Dev) (n : Nat) : (d.setStage n).mgt = d.mgt := rfl
@[simp] theorem Dev.boot_setStage (d : Dev) (n : Nat) : (d.setStage n).boot = d.boot := rfl
@[simp] theorem Dev.alm_setStage (d : Dev) (n : Nat) : (d.setStage n).alm = d.alm := rfl
@[simp] theorem Dev.par_setStage (d : Dev) (n : Nat) : (d.setStage n).par = d.par := rfl
@[simp] theorem Dev.aud_setStage (d : Dev) (n : Nat) : (d.setStage n).aud = d.aud := rfl
@[simp] theorem Dev.cal_setStage (d : Dev) (n : Nat) : (d.setStage n).cal = d.cal := rfl
@[simp] theorem Dev.mix_setStage (d : Dev) (n : Nat) : (d.setStage n).mix = d.mix := rfl
@[simp] theorem Dev.outs_setStage (d : Dev) (n : Nat) : (d.setStage n).outs = d.outs := rfl
@[simp] theorem Dev.tdm_setStage (d : Dev) (n : Nat) : (d.setStage n).tdm = d.tdm := rfl
@[simp] theorem Dev.ser_setStage (d : Dev) (n : Nat) : (d.setStage n).ser = d.ser := rfl
@[simp] theorem Dev.cas_setStage (d : Dev) (n : Nat) : (d.setStage n).cas = d.cas := rfl

@[simp] theorem Dev.fresh_cntRej (d : Dev) : (d.cntRej).fresh = d.fresh := rfl
@[simp] theorem Dev.mem_cntRej (d : Dev) : (d.cntRej).mem = d.mem := rfl
@[simp] theorem Dev.frame_cntRej (d : Dev) : (d.cntRej).frame = d.frame := rfl
@[simp] theorem Dev.port_cntRej (d : Dev) : (d.cntRej).port = d.port := rfl
@[simp] theorem Dev.win_cntRej (d : Dev) : (d.cntRej).win = d.win := rfl
@[simp] theorem Dev.cnt_cntRej (d : Dev) : (d.cntRej).cnt = d.cnt := rfl
@[simp] theorem Dev.pwr_cntRej (d : Dev) : (d.cntRej).pwr = d.pwr := rfl
@[simp] theorem Dev.mgt_cntRej (d : Dev) : (d.cntRej).mgt = d.mgt := rfl
@[simp] theorem Dev.boot_cntRej (d : Dev) : (d.cntRej).boot = d.boot := rfl
@[simp] theorem Dev.alm_cntRej (d : Dev) : (d.cntRej).alm = d.alm := rfl
@[simp] theorem Dev.par_cntRej (d : Dev) : (d.cntRej).par = d.par := rfl
@[simp] theorem Dev.aud_cntRej (d : Dev) : (d.cntRej).aud = d.aud := rfl
@[simp] theorem Dev.cal_cntRej (d : Dev) : (d.cntRej).cal = d.cal := rfl
@[simp] theorem Dev.mix_cntRej (d : Dev) : (d.cntRej).mix = d.mix := rfl
@[simp] theorem Dev.outs_cntRej (d : Dev) : (d.cntRej).outs = d.outs := rfl
@[simp] theorem Dev.tdm_cntRej (d : Dev) : (d.cntRej).tdm = d.tdm := rfl
@[simp] theorem Dev.ser_cntRej (d : Dev) : (d.cntRej).ser = d.ser := rfl
@[simp] theorem Dev.cas_cntRej (d : Dev) : (d.cntRej).cas = d.cas := rfl

@[simp] theorem Dev.fresh_setIrq (d : Dev) (dom a n : Nat) : (d.setIrq dom a n).fresh = d.fresh := by
  unfold Dev.setIrq; split <;> rfl
@[simp] theorem Dev.mem_setIrq (d : Dev) (dom a n : Nat) : (d.setIrq dom a n).mem = d.mem := by
  unfold Dev.setIrq; split <;> rfl
@[simp] theorem Dev.frame_setIrq (d : Dev) (dom a n : Nat) : (d.setIrq dom a n).frame = d.frame := by
  unfold Dev.setIrq; split <;> rfl
@[simp] theorem Dev.port_setIrq (d : Dev) (dom a n : Nat) : (d.setIrq dom a n).port = d.port := by
  unfold Dev.setIrq; split <;> rfl
@[simp] theorem Dev.win_setIrq (d : Dev) (dom a n : Nat) : (d.setIrq dom a n).win = d.win := by
  unfold Dev.setIrq; split <;> rfl
@[simp] theorem Dev.cnt_setIrq (d : Dev) (dom a n : Nat) : (d.setIrq dom a n).cnt = d.cnt := by
  unfold Dev.setIrq; split <;> rfl
@[simp] theorem Dev.pwr_setIrq (d : Dev) (dom a n : Nat) : (d.setIrq dom a n).pwr = d.pwr := by
  unfold Dev.setIrq; split <;> rfl
@[simp] theorem Dev.mgt_setIrq (d : Dev) (dom a n : Nat) : (d.setIrq dom a n).mgt = d.mgt := by
  unfold Dev.setIrq; split <;> rfl
@[simp] theorem Dev.boot_setIrq (d : Dev) (dom a n : Nat) : (d.setIrq dom a n).boot = d.boot := by
  unfold Dev.setIrq; split <;> rfl
@[simp] theorem Dev.alm_setIrq (d : Dev) (dom a n : Nat) : (d.setIrq dom a n).alm = d.alm := by
  unfold Dev.setIrq; split <;> rfl
@[simp] theorem Dev.par_setIrq (d : Dev) (dom a n : Nat) : (d.setIrq dom a n).par = d.par := by
  unfold Dev.setIrq; split <;> rfl
@[simp] theorem Dev.aud_setIrq (d : Dev) (dom a n : Nat) : (d.setIrq dom a n).aud = d.aud := by
  unfold Dev.setIrq; split <;> rfl
@[simp] theorem Dev.cal_setIrq (d : Dev) (dom a n : Nat) : (d.setIrq dom a n).cal = d.cal := by
  unfold Dev.setIrq; split <;> rfl
@[simp] theorem Dev.mix_setIrq (d : Dev) (dom a n : Nat) : (d.setIrq dom a n).mix = d.mix := by
  unfold Dev.setIrq; split <;> rfl
@[simp] theorem Dev.outs_setIrq (d : Dev) (dom a n : Nat) : (d.setIrq dom a n).outs = d.outs := by
  unfold Dev.setIrq; split <;> rfl
@[simp] theorem Dev.tdm_setIrq (d : Dev) (dom a n : Nat) : (d.setIrq dom a n).tdm = d.tdm := by
  unfold Dev.setIrq; split <;> rfl
@[simp] theorem Dev.ser_setIrq (d : Dev) (dom a n : Nat) : (d.setIrq dom a n).ser = d.ser := by
  unfold Dev.setIrq; split <;> rfl
@[simp] theorem Dev.cas_setIrq (d : Dev) (dom a n : Nat) : (d.setIrq dom a n).cas = d.cas := by
  unfold Dev.setIrq; split <;> rfl

@[simp] theorem Dev.fresh_setFault (d : Dev) (n : Nat) : (d.setFault n).fresh = d.fresh := by
  simp [Dev.setFault]
@[simp] theorem Dev.mem_setFault (d : Dev) (n : Nat) : (d.setFault n).mem = d.mem := by
  simp [Dev.setFault]
@[simp] theorem Dev.frame_setFault (d : Dev) (n : Nat) : (d.setFault n).frame = d.frame := by
  simp [Dev.setFault]
@[simp] theorem Dev.port_setFault (d : Dev) (n : Nat) : (d.setFault n).port = d.port := by
  simp [Dev.setFault]
@[simp] theorem Dev.win_setFault (d : Dev) (n : Nat) : (d.setFault n).win = d.win := by
  simp [Dev.setFault]
@[simp] theorem Dev.cnt_setFault (d : Dev) (n : Nat) : (d.setFault n).cnt = d.cnt := by
  simp [Dev.setFault]
@[simp] theorem Dev.pwr_setFault (d : Dev) (n : Nat) : (d.setFault n).pwr = d.pwr := by
  simp [Dev.setFault]
@[simp] theorem Dev.mgt_setFault (d : Dev) (n : Nat) : (d.setFault n).mgt = d.mgt := by
  simp [Dev.setFault]
@[simp] theorem Dev.boot_setFault (d : Dev) (n : Nat) : (d.setFault n).boot = d.boot := by
  simp [Dev.setFault]
@[simp] theorem Dev.alm_setFault (d : Dev) (n : Nat) : (d.setFault n).alm = d.alm := by
  simp [Dev.setFault]
@[simp] theorem Dev.par_setFault (d : Dev) (n : Nat) : (d.setFault n).par = d.par := by
  simp [Dev.setFault]
@[simp] theorem Dev.aud_setFault (d : Dev) (n : Nat) : (d.setFault n).aud = d.aud := by
  simp [Dev.setFault]
@[simp] theorem Dev.cal_setFault (d : Dev) (n : Nat) : (d.setFault n).cal = d.cal := by
  simp [Dev.setFault]
@[simp] theorem Dev.mix_setFault (d : Dev) (n : Nat) : (d.setFault n).mix = d.mix := by
  simp [Dev.setFault]
@[simp] theorem Dev.outs_setFault (d : Dev) (n : Nat) : (d.setFault n).outs = d.outs := by
  simp [Dev.setFault]
@[simp] theorem Dev.tdm_setFault (d : Dev) (n : Nat) : (d.setFault n).tdm = d.tdm := by
  simp [Dev.setFault]
@[simp] theorem Dev.ser_setFault (d : Dev) (n : Nat) : (d.setFault n).ser = d.ser := by
  simp [Dev.setFault]
@[simp] theorem Dev.cas_setFault (d : Dev) (n : Nat) : (d.setFault n).cas = d.cas := by
  simp [Dev.setFault]

@[simp] theorem Dev.fresh_mgtIrq (d : Dev) (n : Nat) : (d.mgtIrq n).fresh = d.fresh := by
  simp [Dev.mgtIrq]
@[simp] theorem Dev.mem_mgtIrq (d : Dev) (n : Nat) : (d.mgtIrq n).mem = d.mem := by
  simp [Dev.mgtIrq]
@[simp] theorem Dev.frame_mgtIrq (d : Dev) (n : Nat) : (d.mgtIrq n).frame = d.frame := by
  simp [Dev.mgtIrq]
@[simp] theorem Dev.port_mgtIrq (d : Dev) (n : Nat) : (d.mgtIrq n).port = d.port := by
  simp [Dev.mgtIrq]
@[simp] theorem Dev.win_mgtIrq (d : Dev) (n : Nat) : (d.mgtIrq n).win = d.win := by
  simp [Dev.mgtIrq]
@[simp] theorem Dev.cnt_mgtIrq (d : Dev) (n : Nat) : (d.mgtIrq n).cnt = d.cnt := by
  simp [Dev.mgtIrq]
@[simp] theorem Dev.pwr_mgtIrq (d : Dev) (n : Nat) : (d.mgtIrq n).pwr = d.pwr := by
  simp [Dev.mgtIrq]
@[simp] theorem Dev.mgt_mgtIrq (d : Dev) (n : Nat) : (d.mgtIrq n).mgt = d.mgt := by
  simp [Dev.mgtIrq]
@[simp] theorem Dev.boot_mgtIrq (d : Dev) (n : Nat) : (d.mgtIrq n).boot = d.boot := by
  simp [Dev.mgtIrq]
@[simp] theorem Dev.alm_mgtIrq (d : Dev) (n : Nat) : (d.mgtIrq n).alm = d.alm := by
  simp [Dev.mgtIrq]
@[simp] theorem Dev.par_mgtIrq (d : Dev) (n : Nat) : (d.mgtIrq n).par = d.par := by
  simp [Dev.mgtIrq]
@[simp] theorem Dev.aud_mgtIrq (d : Dev) (n : Nat) : (d.mgtIrq n).aud = d.aud := by
  simp [Dev.mgtIrq]
@[simp] theorem Dev.cal_mgtIrq (d : Dev) (n : Nat) : (d.mgtIrq n).cal = d.cal := by
  simp [Dev.mgtIrq]
@[simp] theorem Dev.mix_mgtIrq (d : Dev) (n : Nat) : (d.mgtIrq n).mix = d.mix := by
  simp [Dev.mgtIrq]
@[simp] theorem Dev.outs_mgtIrq (d : Dev) (n : Nat) : (d.mgtIrq n).outs = d.outs := by
  simp [Dev.mgtIrq]
@[simp] theorem Dev.tdm_mgtIrq (d : Dev) (n : Nat) : (d.mgtIrq n).tdm = d.tdm := by
  simp [Dev.mgtIrq]
@[simp] theorem Dev.ser_mgtIrq (d : Dev) (n : Nat) : (d.mgtIrq n).ser = d.ser := by
  simp [Dev.mgtIrq]
@[simp] theorem Dev.cas_mgtIrq (d : Dev) (n : Nat) : (d.mgtIrq n).cas = d.cas := by
  simp [Dev.mgtIrq]

@[simp] theorem Dev.fresh_cluBump (c reg n : Nat) (d : Dev) : (cluBump c reg n d).fresh = d.fresh := by
  unfold cluBump; split <;> rfl
@[simp] theorem Dev.mem_cluBump (c reg n : Nat) (d : Dev) : (cluBump c reg n d).mem = d.mem := by
  unfold cluBump; split <;> rfl
@[simp] theorem Dev.frame_cluBump (c reg n : Nat) (d : Dev) : (cluBump c reg n d).frame = d.frame := by
  unfold cluBump; split <;> rfl
@[simp] theorem Dev.port_cluBump (c reg n : Nat) (d : Dev) : (cluBump c reg n d).port = d.port := by
  unfold cluBump; split <;> rfl
@[simp] theorem Dev.win_cluBump (c reg n : Nat) (d : Dev) : (cluBump c reg n d).win = d.win := by
  unfold cluBump; split <;> rfl
@[simp] theorem Dev.cnt_cluBump (c reg n : Nat) (d : Dev) : (cluBump c reg n d).cnt = d.cnt := by
  unfold cluBump; split <;> rfl
@[simp] theorem Dev.pwr_cluBump (c reg n : Nat) (d : Dev) : (cluBump c reg n d).pwr = d.pwr := by
  unfold cluBump; split <;> rfl
@[simp] theorem Dev.mgt_cluBump (c reg n : Nat) (d : Dev) : (cluBump c reg n d).mgt = d.mgt := by
  unfold cluBump; split <;> rfl
@[simp] theorem Dev.boot_cluBump (c reg n : Nat) (d : Dev) : (cluBump c reg n d).boot = d.boot := by
  unfold cluBump; split <;> rfl
@[simp] theorem Dev.alm_cluBump (c reg n : Nat) (d : Dev) : (cluBump c reg n d).alm = d.alm := by
  unfold cluBump; split <;> rfl
@[simp] theorem Dev.par_cluBump (c reg n : Nat) (d : Dev) : (cluBump c reg n d).par = d.par := by
  unfold cluBump; split <;> rfl
@[simp] theorem Dev.aud_cluBump (c reg n : Nat) (d : Dev) : (cluBump c reg n d).aud = d.aud := by
  unfold cluBump; split <;> rfl
@[simp] theorem Dev.cal_cluBump (c reg n : Nat) (d : Dev) : (cluBump c reg n d).cal = d.cal := by
  unfold cluBump; split <;> rfl
@[simp] theorem Dev.mix_cluBump (c reg n : Nat) (d : Dev) : (cluBump c reg n d).mix = d.mix := by
  unfold cluBump; split <;> rfl
@[simp] theorem Dev.outs_cluBump (c reg n : Nat) (d : Dev) : (cluBump c reg n d).outs = d.outs := by
  unfold cluBump; split <;> rfl
@[simp] theorem Dev.tdm_cluBump (c reg n : Nat) (d : Dev) : (cluBump c reg n d).tdm = d.tdm := by
  unfold cluBump; split <;> rfl
@[simp] theorem Dev.ser_cluBump (c reg n : Nat) (d : Dev) : (cluBump c reg n d).ser = d.ser := by
  unfold cluBump; split <;> rfl
@[simp] theorem Dev.cas_cluBump (c reg n : Nat) (d : Dev) : (cluBump c reg n d).cas = d.cas := by
  unfold cluBump; split <;> rfl

@[simp] theorem Dev.fresh_cluIrq (c reg n : Nat) (d : Dev) : (cluIrq c reg n d).fresh = d.fresh := by
  simp [cluIrq]
@[simp] theorem Dev.mem_cluIrq (c reg n : Nat) (d : Dev) : (cluIrq c reg n d).mem = d.mem := by
  simp [cluIrq]
@[simp] theorem Dev.frame_cluIrq (c reg n : Nat) (d : Dev) : (cluIrq c reg n d).frame = d.frame := by
  simp [cluIrq]
@[simp] theorem Dev.port_cluIrq (c reg n : Nat) (d : Dev) : (cluIrq c reg n d).port = d.port := by
  simp [cluIrq]
@[simp] theorem Dev.win_cluIrq (c reg n : Nat) (d : Dev) : (cluIrq c reg n d).win = d.win := by
  simp [cluIrq]
@[simp] theorem Dev.cnt_cluIrq (c reg n : Nat) (d : Dev) : (cluIrq c reg n d).cnt = d.cnt := by
  simp [cluIrq]
@[simp] theorem Dev.pwr_cluIrq (c reg n : Nat) (d : Dev) : (cluIrq c reg n d).pwr = d.pwr := by
  simp [cluIrq]
@[simp] theorem Dev.mgt_cluIrq (c reg n : Nat) (d : Dev) : (cluIrq c reg n d).mgt = d.mgt := by
  simp [cluIrq]
@[simp] theorem Dev.boot_cluIrq (c reg n : Nat) (d : Dev) : (cluIrq c reg n d).boot = d.boot := by
  simp [cluIrq]
@[simp] theorem Dev.alm_cluIrq (c reg n : Nat) (d : Dev) : (cluIrq c reg n d).alm = d.alm := by
  simp [cluIrq]
@[simp] theorem Dev.par_cluIrq (c reg n : Nat) (d : Dev) : (cluIrq c reg n d).par = d.par := by
  simp [cluIrq]
@[simp] theorem Dev.aud_cluIrq (c reg n : Nat) (d : Dev) : (cluIrq c reg n d).aud = d.aud := by
  simp [cluIrq]
@[simp] theorem Dev.cal_cluIrq (c reg n : Nat) (d : Dev) : (cluIrq c reg n d).cal = d.cal := by
  simp [cluIrq]
@[simp] theorem Dev.mix_cluIrq (c reg n : Nat) (d : Dev) : (cluIrq c reg n d).mix = d.mix := by
  simp [cluIrq]
@[simp] theorem Dev.outs_cluIrq (c reg n : Nat) (d : Dev) : (cluIrq c reg n d).outs = d.outs := by
  simp [cluIrq]
@[simp] theorem Dev.tdm_cluIrq (c reg n : Nat) (d : Dev) : (cluIrq c reg n d).tdm = d.tdm := by
  simp [cluIrq]
@[simp] theorem Dev.ser_cluIrq (c reg n : Nat) (d : Dev) : (cluIrq c reg n d).ser = d.ser := by
  simp [cluIrq]
@[simp] theorem Dev.cas_cluIrq (c reg n : Nat) (d : Dev) : (cluIrq c reg n d).cas = d.cas := by
  simp [cluIrq]

@[simp] theorem Dev.regs_draw (d : Dev) : (d.draw).regs = d.regs := rfl
@[simp] theorem Dev.mem_draw (d : Dev) : (d.draw).mem = d.mem := rfl
@[simp] theorem Dev.frame_draw (d : Dev) : (d.draw).frame = d.frame := rfl
@[simp] theorem Dev.port_draw (d : Dev) : (d.draw).port = d.port := rfl
@[simp] theorem Dev.win_draw (d : Dev) : (d.draw).win = d.win := rfl
@[simp] theorem Dev.cnt_draw (d : Dev) : (d.draw).cnt = d.cnt := rfl
@[simp] theorem Dev.pwr_draw (d : Dev) : (d.draw).pwr = d.pwr := rfl
@[simp] theorem Dev.mgt_draw (d : Dev) : (d.draw).mgt = d.mgt := rfl
@[simp] theorem Dev.boot_draw (d : Dev) : (d.draw).boot = d.boot := rfl
@[simp] theorem Dev.alm_draw (d : Dev) : (d.draw).alm = d.alm := rfl
@[simp] theorem Dev.par_draw (d : Dev) : (d.draw).par = d.par := rfl
@[simp] theorem Dev.aud_draw (d : Dev) : (d.draw).aud = d.aud := rfl
@[simp] theorem Dev.cal_draw (d : Dev) : (d.draw).cal = d.cal := rfl
@[simp] theorem Dev.mix_draw (d : Dev) : (d.draw).mix = d.mix := rfl
@[simp] theorem Dev.outs_draw (d : Dev) : (d.draw).outs = d.outs := rfl
@[simp] theorem Dev.tdm_draw (d : Dev) : (d.draw).tdm = d.tdm := rfl
@[simp] theorem Dev.ser_draw (d : Dev) : (d.draw).ser = d.ser := rfl
@[simp] theorem Dev.cas_draw (d : Dev) : (d.draw).cas = d.cas := rfl

@[simp] theorem Dev.regs_emit (d : Dev) (code n : Nat) : (d.emit code n).regs = d.regs := rfl
@[simp] theorem Dev.fresh_emit (d : Dev) (code n : Nat) : (d.emit code n).fresh = d.fresh := rfl
@[simp] theorem Dev.mem_emit (d : Dev) (code n : Nat) : (d.emit code n).mem = d.mem := rfl
@[simp] theorem Dev.frame_emit (d : Dev) (code n : Nat) : (d.emit code n).frame = d.frame := rfl
@[simp] theorem Dev.port_emit (d : Dev) (code n : Nat) : (d.emit code n).port = d.port := rfl
@[simp] theorem Dev.win_emit (d : Dev) (code n : Nat) : (d.emit code n).win = d.win := rfl
@[simp] theorem Dev.pwr_emit (d : Dev) (code n : Nat) : (d.emit code n).pwr = d.pwr := rfl
@[simp] theorem Dev.mgt_emit (d : Dev) (code n : Nat) : (d.emit code n).mgt = d.mgt := rfl
@[simp] theorem Dev.boot_emit (d : Dev) (code n : Nat) : (d.emit code n).boot = d.boot := rfl
@[simp] theorem Dev.alm_emit (d : Dev) (code n : Nat) : (d.emit code n).alm = d.alm := rfl
@[simp] theorem Dev.par_emit (d : Dev) (code n : Nat) : (d.emit code n).par = d.par := rfl
@[simp] theorem Dev.aud_emit (d : Dev) (code n : Nat) : (d.emit code n).aud = d.aud := rfl
@[simp] theorem Dev.cal_emit (d : Dev) (code n : Nat) : (d.emit code n).cal = d.cal := rfl
@[simp] theorem Dev.mix_emit (d : Dev) (code n : Nat) : (d.emit code n).mix = d.mix := rfl
@[simp] theorem Dev.outs_emit (d : Dev) (code n : Nat) : (d.emit code n).outs = d.outs := rfl
@[simp] theorem Dev.tdm_emit (d : Dev) (code n : Nat) : (d.emit code n).tdm = d.tdm := rfl
@[simp] theorem Dev.ser_emit (d : Dev) (code n : Nat) : (d.emit code n).ser = d.ser := rfl
@[simp] theorem Dev.cas_emit (d : Dev) (code n : Nat) : (d.emit code n).cas = d.cas := rfl

@[simp] theorem Dev.fresh_collide (off : Nat) (d : Dev) : (collide off d).fresh = d.fresh := rfl
@[simp] theorem Dev.mem_collide (off : Nat) (d : Dev) : (collide off d).mem = d.mem := rfl
@[simp] theorem Dev.frame_collide (off : Nat) (d : Dev) : (collide off d).frame = d.frame := rfl
@[simp] theorem Dev.port_collide (off : Nat) (d : Dev) : (collide off d).port = d.port := rfl
@[simp] theorem Dev.win_collide (off : Nat) (d : Dev) : (collide off d).win = d.win := rfl
@[simp] theorem Dev.pwr_collide (off : Nat) (d : Dev) : (collide off d).pwr = d.pwr := rfl
@[simp] theorem Dev.mgt_collide (off : Nat) (d : Dev) : (collide off d).mgt = d.mgt := rfl
@[simp] theorem Dev.boot_collide (off : Nat) (d : Dev) : (collide off d).boot = d.boot := rfl
@[simp] theorem Dev.alm_collide (off : Nat) (d : Dev) : (collide off d).alm = d.alm := rfl
@[simp] theorem Dev.par_collide (off : Nat) (d : Dev) : (collide off d).par = d.par := rfl
@[simp] theorem Dev.aud_collide (off : Nat) (d : Dev) : (collide off d).aud = d.aud := rfl
@[simp] theorem Dev.cal_collide (off : Nat) (d : Dev) : (collide off d).cal = d.cal := rfl
@[simp] theorem Dev.mix_collide (off : Nat) (d : Dev) : (collide off d).mix = d.mix := rfl
@[simp] theorem Dev.outs_collide (off : Nat) (d : Dev) : (collide off d).outs = d.outs := rfl
@[simp] theorem Dev.tdm_collide (off : Nat) (d : Dev) : (collide off d).tdm = d.tdm := rfl
@[simp] theorem Dev.ser_collide (off : Nat) (d : Dev) : (collide off d).ser = d.ser := rfl
@[simp] theorem Dev.cas_collide (off : Nat) (d : Dev) : (collide off d).cas = d.cas := rfl

@[simp] theorem Dev.fresh_collideV (ws : List Nat) (d : Dev) : (collideV ws d).fresh = d.fresh := by
  unfold collideV; split
  · rfl
  · exact collide_fold (fun d => d.fresh) (fun _ _ => rfl) _ _
@[simp] theorem Dev.mem_collideV (ws : List Nat) (d : Dev) : (collideV ws d).mem = d.mem := by
  unfold collideV; split
  · rfl
  · exact collide_fold (fun d => d.mem) (fun _ _ => rfl) _ _
@[simp] theorem Dev.frame_collideV (ws : List Nat) (d : Dev) : (collideV ws d).frame = d.frame := by
  unfold collideV; split
  · rfl
  · exact collide_fold (fun d => d.frame) (fun _ _ => rfl) _ _
@[simp] theorem Dev.win_collideV (ws : List Nat) (d : Dev) : (collideV ws d).win = d.win := by
  unfold collideV; split
  · rfl
  · exact collide_fold (fun d => d.win) (fun _ _ => rfl) _ _
@[simp] theorem Dev.pwr_collideV (ws : List Nat) (d : Dev) : (collideV ws d).pwr = d.pwr := by
  unfold collideV; split
  · rfl
  · exact collide_fold (fun d => d.pwr) (fun _ _ => rfl) _ _
@[simp] theorem Dev.mgt_collideV (ws : List Nat) (d : Dev) : (collideV ws d).mgt = d.mgt := by
  unfold collideV; split
  · rfl
  · exact collide_fold (fun d => d.mgt) (fun _ _ => rfl) _ _
@[simp] theorem Dev.boot_collideV (ws : List Nat) (d : Dev) : (collideV ws d).boot = d.boot := by
  unfold collideV; split
  · rfl
  · exact collide_fold (fun d => d.boot) (fun _ _ => rfl) _ _
@[simp] theorem Dev.alm_collideV (ws : List Nat) (d : Dev) : (collideV ws d).alm = d.alm := by
  unfold collideV; split
  · rfl
  · exact collide_fold (fun d => d.alm) (fun _ _ => rfl) _ _
@[simp] theorem Dev.par_collideV (ws : List Nat) (d : Dev) : (collideV ws d).par = d.par := by
  unfold collideV; split
  · rfl
  · exact collide_fold (fun d => d.par) (fun _ _ => rfl) _ _
@[simp] theorem Dev.aud_collideV (ws : List Nat) (d : Dev) : (collideV ws d).aud = d.aud := by
  unfold collideV; split
  · rfl
  · exact collide_fold (fun d => d.aud) (fun _ _ => rfl) _ _
@[simp] theorem Dev.cal_collideV (ws : List Nat) (d : Dev) : (collideV ws d).cal = d.cal := by
  unfold collideV; split
  · rfl
  · exact collide_fold (fun d => d.cal) (fun _ _ => rfl) _ _
@[simp] theorem Dev.mix_collideV (ws : List Nat) (d : Dev) : (collideV ws d).mix = d.mix := by
  unfold collideV; split
  · rfl
  · exact collide_fold (fun d => d.mix) (fun _ _ => rfl) _ _
@[simp] theorem Dev.outs_collideV (ws : List Nat) (d : Dev) : (collideV ws d).outs = d.outs := by
  unfold collideV; split
  · rfl
  · exact collide_fold (fun d => d.outs) (fun _ _ => rfl) _ _
@[simp] theorem Dev.tdm_collideV (ws : List Nat) (d : Dev) : (collideV ws d).tdm = d.tdm := by
  unfold collideV; split
  · rfl
  · exact collide_fold (fun d => d.tdm) (fun _ _ => rfl) _ _
@[simp] theorem Dev.ser_collideV (ws : List Nat) (d : Dev) : (collideV ws d).ser = d.ser := by
  unfold collideV; split
  · rfl
  · exact collide_fold (fun d => d.ser) (fun _ _ => rfl) _ _
@[simp] theorem Dev.cas_collideV (ws : List Nat) (d : Dev) : (collideV ws d).cas = d.cas := by
  unfold collideV; split
  · rfl
  · exact collide_fold (fun d => d.cas) (fun _ _ => rfl) _ _

@[simp] theorem Dev.regs_psRaw (d : Dev) (a : Nat) (bs : List Byte) : (d.psRaw a bs).regs = d.regs := rfl
@[simp] theorem Dev.fresh_psRaw (d : Dev) (a : Nat) (bs : List Byte) : (d.psRaw a bs).fresh = d.fresh := rfl
@[simp] theorem Dev.frame_psRaw (d : Dev) (a : Nat) (bs : List Byte) : (d.psRaw a bs).frame = d.frame := rfl
@[simp] theorem Dev.port_psRaw (d : Dev) (a : Nat) (bs : List Byte) : (d.psRaw a bs).port = d.port := rfl
@[simp] theorem Dev.win_psRaw (d : Dev) (a : Nat) (bs : List Byte) : (d.psRaw a bs).win = d.win := rfl
@[simp] theorem Dev.cnt_psRaw (d : Dev) (a : Nat) (bs : List Byte) : (d.psRaw a bs).cnt = d.cnt := rfl
@[simp] theorem Dev.pwr_psRaw (d : Dev) (a : Nat) (bs : List Byte) : (d.psRaw a bs).pwr = d.pwr := rfl
@[simp] theorem Dev.mgt_psRaw (d : Dev) (a : Nat) (bs : List Byte) : (d.psRaw a bs).mgt = d.mgt := rfl
@[simp] theorem Dev.boot_psRaw (d : Dev) (a : Nat) (bs : List Byte) : (d.psRaw a bs).boot = d.boot := rfl
@[simp] theorem Dev.alm_psRaw (d : Dev) (a : Nat) (bs : List Byte) : (d.psRaw a bs).alm = d.alm := rfl
@[simp] theorem Dev.par_psRaw (d : Dev) (a : Nat) (bs : List Byte) : (d.psRaw a bs).par = d.par := rfl
@[simp] theorem Dev.aud_psRaw (d : Dev) (a : Nat) (bs : List Byte) : (d.psRaw a bs).aud = d.aud := rfl
@[simp] theorem Dev.cal_psRaw (d : Dev) (a : Nat) (bs : List Byte) : (d.psRaw a bs).cal = d.cal := rfl
@[simp] theorem Dev.mix_psRaw (d : Dev) (a : Nat) (bs : List Byte) : (d.psRaw a bs).mix = d.mix := rfl
@[simp] theorem Dev.outs_psRaw (d : Dev) (a : Nat) (bs : List Byte) : (d.psRaw a bs).outs = d.outs := rfl
@[simp] theorem Dev.tdm_psRaw (d : Dev) (a : Nat) (bs : List Byte) : (d.psRaw a bs).tdm = d.tdm := rfl
@[simp] theorem Dev.ser_psRaw (d : Dev) (a : Nat) (bs : List Byte) : (d.psRaw a bs).ser = d.ser := rfl
@[simp] theorem Dev.cas_psRaw (d : Dev) (a : Nat) (bs : List Byte) : (d.psRaw a bs).cas = d.cas := rfl

@[simp] theorem Dev.fresh_psV (d : Dev) (a : Nat) (bs : List Byte) : (d.psV a bs).fresh = d.fresh :=
  Dev.fresh_collideV _ _
@[simp] theorem Dev.frame_psV (d : Dev) (a : Nat) (bs : List Byte) : (d.psV a bs).frame = d.frame :=
  Dev.frame_collideV _ _
@[simp] theorem Dev.win_psV (d : Dev) (a : Nat) (bs : List Byte) : (d.psV a bs).win = d.win :=
  Dev.win_collideV _ _
@[simp] theorem Dev.pwr_psV (d : Dev) (a : Nat) (bs : List Byte) : (d.psV a bs).pwr = d.pwr :=
  Dev.pwr_collideV _ _
@[simp] theorem Dev.mgt_psV (d : Dev) (a : Nat) (bs : List Byte) : (d.psV a bs).mgt = d.mgt :=
  Dev.mgt_collideV _ _
@[simp] theorem Dev.boot_psV (d : Dev) (a : Nat) (bs : List Byte) : (d.psV a bs).boot = d.boot :=
  Dev.boot_collideV _ _
@[simp] theorem Dev.alm_psV (d : Dev) (a : Nat) (bs : List Byte) : (d.psV a bs).alm = d.alm :=
  Dev.alm_collideV _ _
@[simp] theorem Dev.par_psV (d : Dev) (a : Nat) (bs : List Byte) : (d.psV a bs).par = d.par :=
  Dev.par_collideV _ _
@[simp] theorem Dev.aud_psV (d : Dev) (a : Nat) (bs : List Byte) : (d.psV a bs).aud = d.aud :=
  Dev.aud_collideV _ _
@[simp] theorem Dev.cal_psV (d : Dev) (a : Nat) (bs : List Byte) : (d.psV a bs).cal = d.cal :=
  Dev.cal_collideV _ _
@[simp] theorem Dev.mix_psV (d : Dev) (a : Nat) (bs : List Byte) : (d.psV a bs).mix = d.mix :=
  Dev.mix_collideV _ _
@[simp] theorem Dev.outs_psV (d : Dev) (a : Nat) (bs : List Byte) : (d.psV a bs).outs = d.outs :=
  Dev.outs_collideV _ _
@[simp] theorem Dev.tdm_psV (d : Dev) (a : Nat) (bs : List Byte) : (d.psV a bs).tdm = d.tdm :=
  Dev.tdm_collideV _ _
@[simp] theorem Dev.ser_psV (d : Dev) (a : Nat) (bs : List Byte) : (d.psV a bs).ser = d.ser :=
  Dev.ser_collideV _ _
@[simp] theorem Dev.cas_psV (d : Dev) (a : Nat) (bs : List Byte) : (d.psV a bs).cas = d.cas :=
  Dev.cas_collideV _ _

@[simp] theorem Dev.regs_waveRaw (d : Dev) (a : Nat) (bs : List Byte) : (d.waveRaw a bs).regs = d.regs := rfl
@[simp] theorem Dev.fresh_waveRaw (d : Dev) (a : Nat) (bs : List Byte) : (d.waveRaw a bs).fresh = d.fresh := rfl
@[simp] theorem Dev.frame_waveRaw (d : Dev) (a : Nat) (bs : List Byte) : (d.waveRaw a bs).frame = d.frame := rfl
@[simp] theorem Dev.port_waveRaw (d : Dev) (a : Nat) (bs : List Byte) : (d.waveRaw a bs).port = d.port := rfl
@[simp] theorem Dev.win_waveRaw (d : Dev) (a : Nat) (bs : List Byte) : (d.waveRaw a bs).win = d.win := rfl
@[simp] theorem Dev.cnt_waveRaw (d : Dev) (a : Nat) (bs : List Byte) : (d.waveRaw a bs).cnt = d.cnt := rfl
@[simp] theorem Dev.pwr_waveRaw (d : Dev) (a : Nat) (bs : List Byte) : (d.waveRaw a bs).pwr = d.pwr := rfl
@[simp] theorem Dev.mgt_waveRaw (d : Dev) (a : Nat) (bs : List Byte) : (d.waveRaw a bs).mgt = d.mgt := rfl
@[simp] theorem Dev.boot_waveRaw (d : Dev) (a : Nat) (bs : List Byte) : (d.waveRaw a bs).boot = d.boot := rfl
@[simp] theorem Dev.alm_waveRaw (d : Dev) (a : Nat) (bs : List Byte) : (d.waveRaw a bs).alm = d.alm := rfl
@[simp] theorem Dev.par_waveRaw (d : Dev) (a : Nat) (bs : List Byte) : (d.waveRaw a bs).par = d.par := rfl
@[simp] theorem Dev.aud_waveRaw (d : Dev) (a : Nat) (bs : List Byte) : (d.waveRaw a bs).aud = d.aud := rfl
@[simp] theorem Dev.cal_waveRaw (d : Dev) (a : Nat) (bs : List Byte) : (d.waveRaw a bs).cal = d.cal := rfl
@[simp] theorem Dev.mix_waveRaw (d : Dev) (a : Nat) (bs : List Byte) : (d.waveRaw a bs).mix = d.mix := rfl
@[simp] theorem Dev.outs_waveRaw (d : Dev) (a : Nat) (bs : List Byte) : (d.waveRaw a bs).outs = d.outs := rfl
@[simp] theorem Dev.tdm_waveRaw (d : Dev) (a : Nat) (bs : List Byte) : (d.waveRaw a bs).tdm = d.tdm := rfl
@[simp] theorem Dev.ser_waveRaw (d : Dev) (a : Nat) (bs : List Byte) : (d.waveRaw a bs).ser = d.ser := rfl
@[simp] theorem Dev.cas_waveRaw (d : Dev) (a : Nat) (bs : List Byte) : (d.waveRaw a bs).cas = d.cas := rfl

@[simp] theorem Dev.regs_owRaw (d : Dev) (g a : Nat) (bs : List Byte) : (d.owRaw g a bs).regs = d.regs := rfl
@[simp] theorem Dev.fresh_owRaw (d : Dev) (g a : Nat) (bs : List Byte) : (d.owRaw g a bs).fresh = d.fresh := rfl
@[simp] theorem Dev.frame_owRaw (d : Dev) (g a : Nat) (bs : List Byte) : (d.owRaw g a bs).frame = d.frame := rfl
@[simp] theorem Dev.port_owRaw (d : Dev) (g a : Nat) (bs : List Byte) : (d.owRaw g a bs).port = d.port := rfl
@[simp] theorem Dev.win_owRaw (d : Dev) (g a : Nat) (bs : List Byte) : (d.owRaw g a bs).win = d.win := rfl
@[simp] theorem Dev.cnt_owRaw (d : Dev) (g a : Nat) (bs : List Byte) : (d.owRaw g a bs).cnt = d.cnt := rfl
@[simp] theorem Dev.pwr_owRaw (d : Dev) (g a : Nat) (bs : List Byte) : (d.owRaw g a bs).pwr = d.pwr := rfl
@[simp] theorem Dev.mgt_owRaw (d : Dev) (g a : Nat) (bs : List Byte) : (d.owRaw g a bs).mgt = d.mgt := rfl
@[simp] theorem Dev.boot_owRaw (d : Dev) (g a : Nat) (bs : List Byte) : (d.owRaw g a bs).boot = d.boot := rfl
@[simp] theorem Dev.alm_owRaw (d : Dev) (g a : Nat) (bs : List Byte) : (d.owRaw g a bs).alm = d.alm := rfl
@[simp] theorem Dev.par_owRaw (d : Dev) (g a : Nat) (bs : List Byte) : (d.owRaw g a bs).par = d.par := rfl
@[simp] theorem Dev.aud_owRaw (d : Dev) (g a : Nat) (bs : List Byte) : (d.owRaw g a bs).aud = d.aud := rfl
@[simp] theorem Dev.cal_owRaw (d : Dev) (g a : Nat) (bs : List Byte) : (d.owRaw g a bs).cal = d.cal := rfl
@[simp] theorem Dev.mix_owRaw (d : Dev) (g a : Nat) (bs : List Byte) : (d.owRaw g a bs).mix = d.mix := rfl
@[simp] theorem Dev.outs_owRaw (d : Dev) (g a : Nat) (bs : List Byte) : (d.owRaw g a bs).outs = d.outs := rfl
@[simp] theorem Dev.tdm_owRaw (d : Dev) (g a : Nat) (bs : List Byte) : (d.owRaw g a bs).tdm = d.tdm := rfl
@[simp] theorem Dev.ser_owRaw (d : Dev) (g a : Nat) (bs : List Byte) : (d.owRaw g a bs).ser = d.ser := rfl
@[simp] theorem Dev.cas_owRaw (d : Dev) (g a : Nat) (bs : List Byte) : (d.owRaw g a bs).cas = d.cas := rfl

@[simp] theorem Dev.regs_mramRaw (d : Dev) (a : Nat) (bs : List Byte) : (d.mramRaw a bs).regs = d.regs := rfl
@[simp] theorem Dev.fresh_mramRaw (d : Dev) (a : Nat) (bs : List Byte) : (d.mramRaw a bs).fresh = d.fresh := rfl
@[simp] theorem Dev.frame_mramRaw (d : Dev) (a : Nat) (bs : List Byte) : (d.mramRaw a bs).frame = d.frame := rfl
@[simp] theorem Dev.port_mramRaw (d : Dev) (a : Nat) (bs : List Byte) : (d.mramRaw a bs).port = d.port := rfl
@[simp] theorem Dev.win_mramRaw (d : Dev) (a : Nat) (bs : List Byte) : (d.mramRaw a bs).win = d.win := rfl
@[simp] theorem Dev.cnt_mramRaw (d : Dev) (a : Nat) (bs : List Byte) : (d.mramRaw a bs).cnt = d.cnt := rfl
@[simp] theorem Dev.pwr_mramRaw (d : Dev) (a : Nat) (bs : List Byte) : (d.mramRaw a bs).pwr = d.pwr := rfl
@[simp] theorem Dev.mgt_mramRaw (d : Dev) (a : Nat) (bs : List Byte) : (d.mramRaw a bs).mgt = d.mgt := rfl
@[simp] theorem Dev.boot_mramRaw (d : Dev) (a : Nat) (bs : List Byte) : (d.mramRaw a bs).boot = d.boot := rfl
@[simp] theorem Dev.alm_mramRaw (d : Dev) (a : Nat) (bs : List Byte) : (d.mramRaw a bs).alm = d.alm := rfl
@[simp] theorem Dev.par_mramRaw (d : Dev) (a : Nat) (bs : List Byte) : (d.mramRaw a bs).par = d.par := rfl
@[simp] theorem Dev.aud_mramRaw (d : Dev) (a : Nat) (bs : List Byte) : (d.mramRaw a bs).aud = d.aud := rfl
@[simp] theorem Dev.cal_mramRaw (d : Dev) (a : Nat) (bs : List Byte) : (d.mramRaw a bs).cal = d.cal := rfl
@[simp] theorem Dev.mix_mramRaw (d : Dev) (a : Nat) (bs : List Byte) : (d.mramRaw a bs).mix = d.mix := rfl
@[simp] theorem Dev.outs_mramRaw (d : Dev) (a : Nat) (bs : List Byte) : (d.mramRaw a bs).outs = d.outs := rfl
@[simp] theorem Dev.tdm_mramRaw (d : Dev) (a : Nat) (bs : List Byte) : (d.mramRaw a bs).tdm = d.tdm := rfl
@[simp] theorem Dev.ser_mramRaw (d : Dev) (a : Nat) (bs : List Byte) : (d.mramRaw a bs).ser = d.ser := rfl
@[simp] theorem Dev.cas_mramRaw (d : Dev) (a : Nat) (bs : List Byte) : (d.mramRaw a bs).cas = d.cas := rfl

@[simp] theorem Dev.fresh_logEv (d : Dev) (source code sev : Nat) (data : List Nat) : (d.logEv source code sev data).fresh = d.fresh := by
  unfold Dev.logEv; split <;> rfl
@[simp] theorem Dev.mem_logEv (d : Dev) (source code sev : Nat) (data : List Nat) : (d.logEv source code sev data).mem = d.mem := by
  unfold Dev.logEv; split <;> rfl
@[simp] theorem Dev.frame_logEv (d : Dev) (source code sev : Nat) (data : List Nat) : (d.logEv source code sev data).frame = d.frame := by
  unfold Dev.logEv; split <;> rfl
@[simp] theorem Dev.port_logEv (d : Dev) (source code sev : Nat) (data : List Nat) : (d.logEv source code sev data).port = d.port := by
  unfold Dev.logEv; split <;> rfl
@[simp] theorem Dev.win_logEv (d : Dev) (source code sev : Nat) (data : List Nat) : (d.logEv source code sev data).win = d.win := by
  unfold Dev.logEv; split <;> rfl
@[simp] theorem Dev.cnt_logEv (d : Dev) (source code sev : Nat) (data : List Nat) : (d.logEv source code sev data).cnt = d.cnt := by
  unfold Dev.logEv; split <;> rfl
@[simp] theorem Dev.pwr_logEv (d : Dev) (source code sev : Nat) (data : List Nat) : (d.logEv source code sev data).pwr = d.pwr := by
  unfold Dev.logEv; split <;> rfl
@[simp] theorem Dev.boot_logEv (d : Dev) (source code sev : Nat) (data : List Nat) : (d.logEv source code sev data).boot = d.boot := by
  unfold Dev.logEv; split <;> rfl
@[simp] theorem Dev.alm_logEv (d : Dev) (source code sev : Nat) (data : List Nat) : (d.logEv source code sev data).alm = d.alm := by
  unfold Dev.logEv; split <;> rfl
@[simp] theorem Dev.par_logEv (d : Dev) (source code sev : Nat) (data : List Nat) : (d.logEv source code sev data).par = d.par := by
  unfold Dev.logEv; split <;> rfl
@[simp] theorem Dev.aud_logEv (d : Dev) (source code sev : Nat) (data : List Nat) : (d.logEv source code sev data).aud = d.aud := by
  unfold Dev.logEv; split <;> rfl
@[simp] theorem Dev.cal_logEv (d : Dev) (source code sev : Nat) (data : List Nat) : (d.logEv source code sev data).cal = d.cal := by
  unfold Dev.logEv; split <;> rfl
@[simp] theorem Dev.mix_logEv (d : Dev) (source code sev : Nat) (data : List Nat) : (d.logEv source code sev data).mix = d.mix := by
  unfold Dev.logEv; split <;> rfl
@[simp] theorem Dev.outs_logEv (d : Dev) (source code sev : Nat) (data : List Nat) : (d.logEv source code sev data).outs = d.outs := by
  unfold Dev.logEv; split <;> rfl
@[simp] theorem Dev.tdm_logEv (d : Dev) (source code sev : Nat) (data : List Nat) : (d.logEv source code sev data).tdm = d.tdm := by
  unfold Dev.logEv; split <;> rfl
@[simp] theorem Dev.ser_logEv (d : Dev) (source code sev : Nat) (data : List Nat) : (d.logEv source code sev data).ser = d.ser := by
  unfold Dev.logEv; split <;> rfl
@[simp] theorem Dev.cas_logEv (d : Dev) (source code sev : Nat) (data : List Nat) : (d.logEv source code sev data).cas = d.cas := by
  unfold Dev.logEv; split <;> rfl

@[simp] theorem Dev.fresh_lockViol (lock : Bool) (a : Nat) (v : Word) (d : Dev) : (lockViol lock a v d).fresh = d.fresh := by
  unfold lockViol; repeat (first | rfl | split)
@[simp] theorem Dev.mem_lockViol (lock : Bool) (a : Nat) (v : Word) (d : Dev) : (lockViol lock a v d).mem = d.mem := by
  unfold lockViol; repeat (first | rfl | split)
@[simp] theorem Dev.frame_lockViol (lock : Bool) (a : Nat) (v : Word) (d : Dev) : (lockViol lock a v d).frame = d.frame := by
  unfold lockViol; repeat (first | rfl | split)
@[simp] theorem Dev.port_lockViol (lock : Bool) (a : Nat) (v : Word) (d : Dev) : (lockViol lock a v d).port = d.port := by
  unfold lockViol; repeat (first | rfl | split)
@[simp] theorem Dev.win_lockViol (lock : Bool) (a : Nat) (v : Word) (d : Dev) : (lockViol lock a v d).win = d.win := by
  unfold lockViol; repeat (first | rfl | split)
@[simp] theorem Dev.cnt_lockViol (lock : Bool) (a : Nat) (v : Word) (d : Dev) : (lockViol lock a v d).cnt = d.cnt := by
  unfold lockViol; repeat (first | rfl | split)
@[simp] theorem Dev.pwr_lockViol (lock : Bool) (a : Nat) (v : Word) (d : Dev) : (lockViol lock a v d).pwr = d.pwr := by
  unfold lockViol; repeat (first | rfl | split)
@[simp] theorem Dev.mgt_lockViol (lock : Bool) (a : Nat) (v : Word) (d : Dev) : (lockViol lock a v d).mgt = d.mgt := by
  unfold lockViol; repeat (first | rfl | split)
@[simp] theorem Dev.boot_lockViol (lock : Bool) (a : Nat) (v : Word) (d : Dev) : (lockViol lock a v d).boot = d.boot := by
  unfold lockViol; repeat (first | rfl | split)
@[simp] theorem Dev.alm_lockViol (lock : Bool) (a : Nat) (v : Word) (d : Dev) : (lockViol lock a v d).alm = d.alm := by
  unfold lockViol; repeat (first | rfl | split)
@[simp] theorem Dev.par_lockViol (lock : Bool) (a : Nat) (v : Word) (d : Dev) : (lockViol lock a v d).par = d.par := by
  unfold lockViol; repeat (first | rfl | split)
@[simp] theorem Dev.aud_lockViol (lock : Bool) (a : Nat) (v : Word) (d : Dev) : (lockViol lock a v d).aud = d.aud := by
  unfold lockViol; repeat (first | rfl | split)
@[simp] theorem Dev.cal_lockViol (lock : Bool) (a : Nat) (v : Word) (d : Dev) : (lockViol lock a v d).cal = d.cal := by
  unfold lockViol; repeat (first | rfl | split)
@[simp] theorem Dev.mix_lockViol (lock : Bool) (a : Nat) (v : Word) (d : Dev) : (lockViol lock a v d).mix = d.mix := by
  unfold lockViol; repeat (first | rfl | split)
@[simp] theorem Dev.outs_lockViol (lock : Bool) (a : Nat) (v : Word) (d : Dev) : (lockViol lock a v d).outs = d.outs := by
  unfold lockViol; repeat (first | rfl | split)
@[simp] theorem Dev.tdm_lockViol (lock : Bool) (a : Nat) (v : Word) (d : Dev) : (lockViol lock a v d).tdm = d.tdm := by
  unfold lockViol; repeat (first | rfl | split)
@[simp] theorem Dev.ser_lockViol (lock : Bool) (a : Nat) (v : Word) (d : Dev) : (lockViol lock a v d).ser = d.ser := by
  unfold lockViol; repeat (first | rfl | split)
@[simp] theorem Dev.cas_lockViol (lock : Bool) (a : Nat) (v : Word) (d : Dev) : (lockViol lock a v d).cas = d.cas := by
  unfold lockViol; repeat (first | rfl | split)

@[simp] theorem Dev.regs_modDom (d : Dev) (n : Nat) (f : Domain → Domain) : (d.modDom n f).regs = d.regs := rfl
@[simp] theorem Dev.fresh_modDom (d : Dev) (n : Nat) (f : Domain → Domain) : (d.modDom n f).fresh = d.fresh := rfl
@[simp] theorem Dev.mem_modDom (d : Dev) (n : Nat) (f : Domain → Domain) : (d.modDom n f).mem = d.mem := rfl
@[simp] theorem Dev.frame_modDom (d : Dev) (n : Nat) (f : Domain → Domain) : (d.modDom n f).frame = d.frame := rfl
@[simp] theorem Dev.port_modDom (d : Dev) (n : Nat) (f : Domain → Domain) : (d.modDom n f).port = d.port := rfl
@[simp] theorem Dev.win_modDom (d : Dev) (n : Nat) (f : Domain → Domain) : (d.modDom n f).win = d.win := rfl
@[simp] theorem Dev.cnt_modDom (d : Dev) (n : Nat) (f : Domain → Domain) : (d.modDom n f).cnt = d.cnt := rfl
@[simp] theorem Dev.mgt_modDom (d : Dev) (n : Nat) (f : Domain → Domain) : (d.modDom n f).mgt = d.mgt := rfl
@[simp] theorem Dev.boot_modDom (d : Dev) (n : Nat) (f : Domain → Domain) : (d.modDom n f).boot = d.boot := rfl
@[simp] theorem Dev.alm_modDom (d : Dev) (n : Nat) (f : Domain → Domain) : (d.modDom n f).alm = d.alm := rfl
@[simp] theorem Dev.par_modDom (d : Dev) (n : Nat) (f : Domain → Domain) : (d.modDom n f).par = d.par := rfl
@[simp] theorem Dev.aud_modDom (d : Dev) (n : Nat) (f : Domain → Domain) : (d.modDom n f).aud = d.aud := rfl
@[simp] theorem Dev.cal_modDom (d : Dev) (n : Nat) (f : Domain → Domain) : (d.modDom n f).cal = d.cal := rfl
@[simp] theorem Dev.mix_modDom (d : Dev) (n : Nat) (f : Domain → Domain) : (d.modDom n f).mix = d.mix := rfl
@[simp] theorem Dev.outs_modDom (d : Dev) (n : Nat) (f : Domain → Domain) : (d.modDom n f).outs = d.outs := rfl
@[simp] theorem Dev.tdm_modDom (d : Dev) (n : Nat) (f : Domain → Domain) : (d.modDom n f).tdm = d.tdm := rfl
@[simp] theorem Dev.ser_modDom (d : Dev) (n : Nat) (f : Domain → Domain) : (d.modDom n f).ser = d.ser := rfl
@[simp] theorem Dev.cas_modDom (d : Dev) (n : Nat) (f : Domain → Domain) : (d.modDom n f).cas = d.cas := rfl

@[simp] theorem Dev.regs_modVid (d : Dev) (f : Vid → Vid) : (d.modVid f).regs = d.regs := rfl
@[simp] theorem Dev.fresh_modVid (d : Dev) (f : Vid → Vid) : (d.modVid f).fresh = d.fresh := rfl
@[simp] theorem Dev.mem_modVid (d : Dev) (f : Vid → Vid) : (d.modVid f).mem = d.mem := rfl
@[simp] theorem Dev.port_modVid (d : Dev) (f : Vid → Vid) : (d.modVid f).port = d.port := rfl
@[simp] theorem Dev.win_modVid (d : Dev) (f : Vid → Vid) : (d.modVid f).win = d.win := rfl
@[simp] theorem Dev.cnt_modVid (d : Dev) (f : Vid → Vid) : (d.modVid f).cnt = d.cnt := rfl
@[simp] theorem Dev.pwr_modVid (d : Dev) (f : Vid → Vid) : (d.modVid f).pwr = d.pwr := rfl
@[simp] theorem Dev.mgt_modVid (d : Dev) (f : Vid → Vid) : (d.modVid f).mgt = d.mgt := rfl
@[simp] theorem Dev.boot_modVid (d : Dev) (f : Vid → Vid) : (d.modVid f).boot = d.boot := rfl
@[simp] theorem Dev.alm_modVid (d : Dev) (f : Vid → Vid) : (d.modVid f).alm = d.alm := rfl
@[simp] theorem Dev.par_modVid (d : Dev) (f : Vid → Vid) : (d.modVid f).par = d.par := rfl
@[simp] theorem Dev.aud_modVid (d : Dev) (f : Vid → Vid) : (d.modVid f).aud = d.aud := rfl
@[simp] theorem Dev.cal_modVid (d : Dev) (f : Vid → Vid) : (d.modVid f).cal = d.cal := rfl
@[simp] theorem Dev.mix_modVid (d : Dev) (f : Vid → Vid) : (d.modVid f).mix = d.mix := rfl
@[simp] theorem Dev.outs_modVid (d : Dev) (f : Vid → Vid) : (d.modVid f).outs = d.outs := rfl
@[simp] theorem Dev.tdm_modVid (d : Dev) (f : Vid → Vid) : (d.modVid f).tdm = d.tdm := rfl
@[simp] theorem Dev.ser_modVid (d : Dev) (f : Vid → Vid) : (d.modVid f).ser = d.ser := rfl
@[simp] theorem Dev.cas_modVid (d : Dev) (f : Vid → Vid) : (d.modVid f).cas = d.cas := rfl

@[simp] theorem Dev.regs_modBoot (d : Dev) (f : Boot → Boot) : (d.modBoot f).regs = d.regs := rfl
@[simp] theorem Dev.fresh_modBoot (d : Dev) (f : Boot → Boot) : (d.modBoot f).fresh = d.fresh := rfl
@[simp] theorem Dev.mem_modBoot (d : Dev) (f : Boot → Boot) : (d.modBoot f).mem = d.mem := rfl
@[simp] theorem Dev.frame_modBoot (d : Dev) (f : Boot → Boot) : (d.modBoot f).frame = d.frame := rfl
@[simp] theorem Dev.port_modBoot (d : Dev) (f : Boot → Boot) : (d.modBoot f).port = d.port := rfl
@[simp] theorem Dev.win_modBoot (d : Dev) (f : Boot → Boot) : (d.modBoot f).win = d.win := rfl
@[simp] theorem Dev.cnt_modBoot (d : Dev) (f : Boot → Boot) : (d.modBoot f).cnt = d.cnt := rfl
@[simp] theorem Dev.pwr_modBoot (d : Dev) (f : Boot → Boot) : (d.modBoot f).pwr = d.pwr := rfl
@[simp] theorem Dev.mgt_modBoot (d : Dev) (f : Boot → Boot) : (d.modBoot f).mgt = d.mgt := rfl
@[simp] theorem Dev.alm_modBoot (d : Dev) (f : Boot → Boot) : (d.modBoot f).alm = d.alm := rfl
@[simp] theorem Dev.par_modBoot (d : Dev) (f : Boot → Boot) : (d.modBoot f).par = d.par := rfl
@[simp] theorem Dev.aud_modBoot (d : Dev) (f : Boot → Boot) : (d.modBoot f).aud = d.aud := rfl
@[simp] theorem Dev.cal_modBoot (d : Dev) (f : Boot → Boot) : (d.modBoot f).cal = d.cal := rfl
@[simp] theorem Dev.mix_modBoot (d : Dev) (f : Boot → Boot) : (d.modBoot f).mix = d.mix := rfl
@[simp] theorem Dev.outs_modBoot (d : Dev) (f : Boot → Boot) : (d.modBoot f).outs = d.outs := rfl
@[simp] theorem Dev.tdm_modBoot (d : Dev) (f : Boot → Boot) : (d.modBoot f).tdm = d.tdm := rfl
@[simp] theorem Dev.ser_modBoot (d : Dev) (f : Boot → Boot) : (d.modBoot f).ser = d.ser := rfl
@[simp] theorem Dev.cas_modBoot (d : Dev) (f : Boot → Boot) : (d.modBoot f).cas = d.cas := rfl

@[simp] theorem Dev.regs_modCas (d : Dev) (f : Cas → Cas) : (d.modCas f).regs = d.regs := rfl
@[simp] theorem Dev.fresh_modCas (d : Dev) (f : Cas → Cas) : (d.modCas f).fresh = d.fresh := rfl
@[simp] theorem Dev.mem_modCas (d : Dev) (f : Cas → Cas) : (d.modCas f).mem = d.mem := rfl
@[simp] theorem Dev.frame_modCas (d : Dev) (f : Cas → Cas) : (d.modCas f).frame = d.frame := rfl
@[simp] theorem Dev.port_modCas (d : Dev) (f : Cas → Cas) : (d.modCas f).port = d.port := rfl
@[simp] theorem Dev.win_modCas (d : Dev) (f : Cas → Cas) : (d.modCas f).win = d.win := rfl
@[simp] theorem Dev.cnt_modCas (d : Dev) (f : Cas → Cas) : (d.modCas f).cnt = d.cnt := rfl
@[simp] theorem Dev.pwr_modCas (d : Dev) (f : Cas → Cas) : (d.modCas f).pwr = d.pwr := rfl
@[simp] theorem Dev.mgt_modCas (d : Dev) (f : Cas → Cas) : (d.modCas f).mgt = d.mgt := rfl
@[simp] theorem Dev.boot_modCas (d : Dev) (f : Cas → Cas) : (d.modCas f).boot = d.boot := rfl
@[simp] theorem Dev.alm_modCas (d : Dev) (f : Cas → Cas) : (d.modCas f).alm = d.alm := rfl
@[simp] theorem Dev.par_modCas (d : Dev) (f : Cas → Cas) : (d.modCas f).par = d.par := rfl
@[simp] theorem Dev.aud_modCas (d : Dev) (f : Cas → Cas) : (d.modCas f).aud = d.aud := rfl
@[simp] theorem Dev.cal_modCas (d : Dev) (f : Cas → Cas) : (d.modCas f).cal = d.cal := rfl
@[simp] theorem Dev.mix_modCas (d : Dev) (f : Cas → Cas) : (d.modCas f).mix = d.mix := rfl
@[simp] theorem Dev.outs_modCas (d : Dev) (f : Cas → Cas) : (d.modCas f).outs = d.outs := rfl
@[simp] theorem Dev.tdm_modCas (d : Dev) (f : Cas → Cas) : (d.modCas f).tdm = d.tdm := rfl
@[simp] theorem Dev.ser_modCas (d : Dev) (f : Cas → Cas) : (d.modCas f).ser = d.ser := rfl

@[simp] theorem Dev.regs_modAud (d : Dev) (f : Audio → Audio) : (d.modAud f).regs = d.regs := rfl
@[simp] theorem Dev.fresh_modAud (d : Dev) (f : Audio → Audio) : (d.modAud f).fresh = d.fresh := rfl
@[simp] theorem Dev.mem_modAud (d : Dev) (f : Audio → Audio) : (d.modAud f).mem = d.mem := rfl
@[simp] theorem Dev.frame_modAud (d : Dev) (f : Audio → Audio) : (d.modAud f).frame = d.frame := rfl
@[simp] theorem Dev.port_modAud (d : Dev) (f : Audio → Audio) : (d.modAud f).port = d.port := rfl
@[simp] theorem Dev.win_modAud (d : Dev) (f : Audio → Audio) : (d.modAud f).win = d.win := rfl
@[simp] theorem Dev.cnt_modAud (d : Dev) (f : Audio → Audio) : (d.modAud f).cnt = d.cnt := rfl
@[simp] theorem Dev.pwr_modAud (d : Dev) (f : Audio → Audio) : (d.modAud f).pwr = d.pwr := rfl
@[simp] theorem Dev.mgt_modAud (d : Dev) (f : Audio → Audio) : (d.modAud f).mgt = d.mgt := rfl
@[simp] theorem Dev.boot_modAud (d : Dev) (f : Audio → Audio) : (d.modAud f).boot = d.boot := rfl
@[simp] theorem Dev.alm_modAud (d : Dev) (f : Audio → Audio) : (d.modAud f).alm = d.alm := rfl
@[simp] theorem Dev.par_modAud (d : Dev) (f : Audio → Audio) : (d.modAud f).par = d.par := rfl
@[simp] theorem Dev.cal_modAud (d : Dev) (f : Audio → Audio) : (d.modAud f).cal = d.cal := rfl
@[simp] theorem Dev.mix_modAud (d : Dev) (f : Audio → Audio) : (d.modAud f).mix = d.mix := rfl
@[simp] theorem Dev.outs_modAud (d : Dev) (f : Audio → Audio) : (d.modAud f).outs = d.outs := rfl
@[simp] theorem Dev.tdm_modAud (d : Dev) (f : Audio → Audio) : (d.modAud f).tdm = d.tdm := rfl
@[simp] theorem Dev.ser_modAud (d : Dev) (f : Audio → Audio) : (d.modAud f).ser = d.ser := rfl
@[simp] theorem Dev.cas_modAud (d : Dev) (f : Audio → Audio) : (d.modAud f).cas = d.cas := rfl

@[simp] theorem Dev.regs_modClu (d : Dev) (c : Nat) (f : Clu → Clu) : (d.modClu c f).regs = d.regs := rfl
@[simp] theorem Dev.fresh_modClu (d : Dev) (c : Nat) (f : Clu → Clu) : (d.modClu c f).fresh = d.fresh := rfl
@[simp] theorem Dev.mem_modClu (d : Dev) (c : Nat) (f : Clu → Clu) : (d.modClu c f).mem = d.mem := rfl
@[simp] theorem Dev.frame_modClu (d : Dev) (c : Nat) (f : Clu → Clu) : (d.modClu c f).frame = d.frame := rfl
@[simp] theorem Dev.port_modClu (d : Dev) (c : Nat) (f : Clu → Clu) : (d.modClu c f).port = d.port := rfl
@[simp] theorem Dev.win_modClu (d : Dev) (c : Nat) (f : Clu → Clu) : (d.modClu c f).win = d.win := rfl
@[simp] theorem Dev.cnt_modClu (d : Dev) (c : Nat) (f : Clu → Clu) : (d.modClu c f).cnt = d.cnt := rfl
@[simp] theorem Dev.pwr_modClu (d : Dev) (c : Nat) (f : Clu → Clu) : (d.modClu c f).pwr = d.pwr := rfl
@[simp] theorem Dev.mgt_modClu (d : Dev) (c : Nat) (f : Clu → Clu) : (d.modClu c f).mgt = d.mgt := rfl
@[simp] theorem Dev.boot_modClu (d : Dev) (c : Nat) (f : Clu → Clu) : (d.modClu c f).boot = d.boot := rfl
@[simp] theorem Dev.alm_modClu (d : Dev) (c : Nat) (f : Clu → Clu) : (d.modClu c f).alm = d.alm := rfl
@[simp] theorem Dev.par_modClu (d : Dev) (c : Nat) (f : Clu → Clu) : (d.modClu c f).par = d.par := rfl
@[simp] theorem Dev.cal_modClu (d : Dev) (c : Nat) (f : Clu → Clu) : (d.modClu c f).cal = d.cal := rfl
@[simp] theorem Dev.mix_modClu (d : Dev) (c : Nat) (f : Clu → Clu) : (d.modClu c f).mix = d.mix := rfl
@[simp] theorem Dev.outs_modClu (d : Dev) (c : Nat) (f : Clu → Clu) : (d.modClu c f).outs = d.outs := rfl
@[simp] theorem Dev.tdm_modClu (d : Dev) (c : Nat) (f : Clu → Clu) : (d.modClu c f).tdm = d.tdm := rfl
@[simp] theorem Dev.ser_modClu (d : Dev) (c : Nat) (f : Clu → Clu) : (d.modClu c f).ser = d.ser := rfl
@[simp] theorem Dev.cas_modClu (d : Dev) (c : Nat) (f : Clu → Clu) : (d.modClu c f).cas = d.cas := rfl

@[simp] theorem Dev.regs_modVaud (d : Dev) (v : Nat) (f : VAud → VAud) : (d.modVaud v f).regs = d.regs := rfl
@[simp] theorem Dev.fresh_modVaud (d : Dev) (v : Nat) (f : VAud → VAud) : (d.modVaud v f).fresh = d.fresh := rfl
@[simp] theorem Dev.mem_modVaud (d : Dev) (v : Nat) (f : VAud → VAud) : (d.modVaud v f).mem = d.mem := rfl
@[simp] theorem Dev.frame_modVaud (d : Dev) (v : Nat) (f : VAud → VAud) : (d.modVaud v f).frame = d.frame := rfl
@[simp] theorem Dev.port_modVaud (d : Dev) (v : Nat) (f : VAud → VAud) : (d.modVaud v f).port = d.port := rfl
@[simp] theorem Dev.win_modVaud (d : Dev) (v : Nat) (f : VAud → VAud) : (d.modVaud v f).win = d.win := rfl
@[simp] theorem Dev.cnt_modVaud (d : Dev) (v : Nat) (f : VAud → VAud) : (d.modVaud v f).cnt = d.cnt := rfl
@[simp] theorem Dev.pwr_modVaud (d : Dev) (v : Nat) (f : VAud → VAud) : (d.modVaud v f).pwr = d.pwr := rfl
@[simp] theorem Dev.mgt_modVaud (d : Dev) (v : Nat) (f : VAud → VAud) : (d.modVaud v f).mgt = d.mgt := rfl
@[simp] theorem Dev.boot_modVaud (d : Dev) (v : Nat) (f : VAud → VAud) : (d.modVaud v f).boot = d.boot := rfl
@[simp] theorem Dev.alm_modVaud (d : Dev) (v : Nat) (f : VAud → VAud) : (d.modVaud v f).alm = d.alm := rfl
@[simp] theorem Dev.par_modVaud (d : Dev) (v : Nat) (f : VAud → VAud) : (d.modVaud v f).par = d.par := rfl
@[simp] theorem Dev.cal_modVaud (d : Dev) (v : Nat) (f : VAud → VAud) : (d.modVaud v f).cal = d.cal := rfl
@[simp] theorem Dev.mix_modVaud (d : Dev) (v : Nat) (f : VAud → VAud) : (d.modVaud v f).mix = d.mix := rfl
@[simp] theorem Dev.outs_modVaud (d : Dev) (v : Nat) (f : VAud → VAud) : (d.modVaud v f).outs = d.outs := rfl
@[simp] theorem Dev.tdm_modVaud (d : Dev) (v : Nat) (f : VAud → VAud) : (d.modVaud v f).tdm = d.tdm := rfl
@[simp] theorem Dev.ser_modVaud (d : Dev) (v : Nat) (f : VAud → VAud) : (d.modVaud v f).ser = d.ser := rfl
@[simp] theorem Dev.cas_modVaud (d : Dev) (v : Nat) (f : VAud → VAud) : (d.modVaud v f).cas = d.cas := rfl

@[simp] theorem Dev.regs_modTile (d : Dev) (v : Nat) (f : Tile → Tile) : (d.modTile v f).regs = d.regs := rfl
@[simp] theorem Dev.fresh_modTile (d : Dev) (v : Nat) (f : Tile → Tile) : (d.modTile v f).fresh = d.fresh := rfl
@[simp] theorem Dev.mem_modTile (d : Dev) (v : Nat) (f : Tile → Tile) : (d.modTile v f).mem = d.mem := rfl
@[simp] theorem Dev.frame_modTile (d : Dev) (v : Nat) (f : Tile → Tile) : (d.modTile v f).frame = d.frame := rfl
@[simp] theorem Dev.port_modTile (d : Dev) (v : Nat) (f : Tile → Tile) : (d.modTile v f).port = d.port := rfl
@[simp] theorem Dev.win_modTile (d : Dev) (v : Nat) (f : Tile → Tile) : (d.modTile v f).win = d.win := rfl
@[simp] theorem Dev.cnt_modTile (d : Dev) (v : Nat) (f : Tile → Tile) : (d.modTile v f).cnt = d.cnt := rfl
@[simp] theorem Dev.pwr_modTile (d : Dev) (v : Nat) (f : Tile → Tile) : (d.modTile v f).pwr = d.pwr := rfl
@[simp] theorem Dev.mgt_modTile (d : Dev) (v : Nat) (f : Tile → Tile) : (d.modTile v f).mgt = d.mgt := rfl
@[simp] theorem Dev.boot_modTile (d : Dev) (v : Nat) (f : Tile → Tile) : (d.modTile v f).boot = d.boot := rfl
@[simp] theorem Dev.alm_modTile (d : Dev) (v : Nat) (f : Tile → Tile) : (d.modTile v f).alm = d.alm := rfl
@[simp] theorem Dev.par_modTile (d : Dev) (v : Nat) (f : Tile → Tile) : (d.modTile v f).par = d.par := rfl
@[simp] theorem Dev.cal_modTile (d : Dev) (v : Nat) (f : Tile → Tile) : (d.modTile v f).cal = d.cal := rfl
@[simp] theorem Dev.mix_modTile (d : Dev) (v : Nat) (f : Tile → Tile) : (d.modTile v f).mix = d.mix := rfl
@[simp] theorem Dev.outs_modTile (d : Dev) (v : Nat) (f : Tile → Tile) : (d.modTile v f).outs = d.outs := rfl
@[simp] theorem Dev.tdm_modTile (d : Dev) (v : Nat) (f : Tile → Tile) : (d.modTile v f).tdm = d.tdm := rfl
@[simp] theorem Dev.ser_modTile (d : Dev) (v : Nat) (f : Tile → Tile) : (d.modTile v f).ser = d.ser := rfl
@[simp] theorem Dev.cas_modTile (d : Dev) (v : Nat) (f : Tile → Tile) : (d.modTile v f).cas = d.cas := rfl

@[simp] theorem Dev.regs_modMover (d : Dev) (c : Nat) (f : Mover → Mover) : (d.modMover c f).regs = d.regs := rfl
@[simp] theorem Dev.fresh_modMover (d : Dev) (c : Nat) (f : Mover → Mover) : (d.modMover c f).fresh = d.fresh := rfl
@[simp] theorem Dev.frame_modMover (d : Dev) (c : Nat) (f : Mover → Mover) : (d.modMover c f).frame = d.frame := rfl
@[simp] theorem Dev.port_modMover (d : Dev) (c : Nat) (f : Mover → Mover) : (d.modMover c f).port = d.port := rfl
@[simp] theorem Dev.win_modMover (d : Dev) (c : Nat) (f : Mover → Mover) : (d.modMover c f).win = d.win := rfl
@[simp] theorem Dev.cnt_modMover (d : Dev) (c : Nat) (f : Mover → Mover) : (d.modMover c f).cnt = d.cnt := rfl
@[simp] theorem Dev.pwr_modMover (d : Dev) (c : Nat) (f : Mover → Mover) : (d.modMover c f).pwr = d.pwr := rfl
@[simp] theorem Dev.mgt_modMover (d : Dev) (c : Nat) (f : Mover → Mover) : (d.modMover c f).mgt = d.mgt := rfl
@[simp] theorem Dev.boot_modMover (d : Dev) (c : Nat) (f : Mover → Mover) : (d.modMover c f).boot = d.boot := rfl
@[simp] theorem Dev.alm_modMover (d : Dev) (c : Nat) (f : Mover → Mover) : (d.modMover c f).alm = d.alm := rfl
@[simp] theorem Dev.par_modMover (d : Dev) (c : Nat) (f : Mover → Mover) : (d.modMover c f).par = d.par := rfl
@[simp] theorem Dev.aud_modMover (d : Dev) (c : Nat) (f : Mover → Mover) : (d.modMover c f).aud = d.aud := rfl
@[simp] theorem Dev.cal_modMover (d : Dev) (c : Nat) (f : Mover → Mover) : (d.modMover c f).cal = d.cal := rfl
@[simp] theorem Dev.mix_modMover (d : Dev) (c : Nat) (f : Mover → Mover) : (d.modMover c f).mix = d.mix := rfl
@[simp] theorem Dev.outs_modMover (d : Dev) (c : Nat) (f : Mover → Mover) : (d.modMover c f).outs = d.outs := rfl
@[simp] theorem Dev.tdm_modMover (d : Dev) (c : Nat) (f : Mover → Mover) : (d.modMover c f).tdm = d.tdm := rfl
@[simp] theorem Dev.ser_modMover (d : Dev) (c : Nat) (f : Mover → Mover) : (d.modMover c f).ser = d.ser := rfl
@[simp] theorem Dev.cas_modMover (d : Dev) (c : Nat) (f : Mover → Mover) : (d.modMover c f).cas = d.cas := rfl

@[simp] theorem Dev.regs_modHp (d : Dev) (f : HostPort → HostPort) : (d.modHp f).regs = d.regs := rfl
@[simp] theorem Dev.fresh_modHp (d : Dev) (f : HostPort → HostPort) : (d.modHp f).fresh = d.fresh := rfl
@[simp] theorem Dev.mem_modHp (d : Dev) (f : HostPort → HostPort) : (d.modHp f).mem = d.mem := rfl
@[simp] theorem Dev.frame_modHp (d : Dev) (f : HostPort → HostPort) : (d.modHp f).frame = d.frame := rfl
@[simp] theorem Dev.win_modHp (d : Dev) (f : HostPort → HostPort) : (d.modHp f).win = d.win := rfl
@[simp] theorem Dev.cnt_modHp (d : Dev) (f : HostPort → HostPort) : (d.modHp f).cnt = d.cnt := rfl
@[simp] theorem Dev.pwr_modHp (d : Dev) (f : HostPort → HostPort) : (d.modHp f).pwr = d.pwr := rfl
@[simp] theorem Dev.mgt_modHp (d : Dev) (f : HostPort → HostPort) : (d.modHp f).mgt = d.mgt := rfl
@[simp] theorem Dev.boot_modHp (d : Dev) (f : HostPort → HostPort) : (d.modHp f).boot = d.boot := rfl
@[simp] theorem Dev.alm_modHp (d : Dev) (f : HostPort → HostPort) : (d.modHp f).alm = d.alm := rfl
@[simp] theorem Dev.par_modHp (d : Dev) (f : HostPort → HostPort) : (d.modHp f).par = d.par := rfl
@[simp] theorem Dev.aud_modHp (d : Dev) (f : HostPort → HostPort) : (d.modHp f).aud = d.aud := rfl
@[simp] theorem Dev.cal_modHp (d : Dev) (f : HostPort → HostPort) : (d.modHp f).cal = d.cal := rfl
@[simp] theorem Dev.mix_modHp (d : Dev) (f : HostPort → HostPort) : (d.modHp f).mix = d.mix := rfl
@[simp] theorem Dev.outs_modHp (d : Dev) (f : HostPort → HostPort) : (d.modHp f).outs = d.outs := rfl
@[simp] theorem Dev.tdm_modHp (d : Dev) (f : HostPort → HostPort) : (d.modHp f).tdm = d.tdm := rfl
@[simp] theorem Dev.ser_modHp (d : Dev) (f : HostPort → HostPort) : (d.modHp f).ser = d.ser := rfl
@[simp] theorem Dev.cas_modHp (d : Dev) (f : HostPort → HostPort) : (d.modHp f).cas = d.cas := rfl

@[simp] theorem Dev.regs_modTask (d : Dev) (i : Nat) (f : Task → Task) : (d.modTask i f).regs = d.regs := rfl
@[simp] theorem Dev.fresh_modTask (d : Dev) (i : Nat) (f : Task → Task) : (d.modTask i f).fresh = d.fresh := rfl
@[simp] theorem Dev.mem_modTask (d : Dev) (i : Nat) (f : Task → Task) : (d.modTask i f).mem = d.mem := rfl
@[simp] theorem Dev.frame_modTask (d : Dev) (i : Nat) (f : Task → Task) : (d.modTask i f).frame = d.frame := rfl
@[simp] theorem Dev.port_modTask (d : Dev) (i : Nat) (f : Task → Task) : (d.modTask i f).port = d.port := rfl
@[simp] theorem Dev.win_modTask (d : Dev) (i : Nat) (f : Task → Task) : (d.modTask i f).win = d.win := rfl
@[simp] theorem Dev.cnt_modTask (d : Dev) (i : Nat) (f : Task → Task) : (d.modTask i f).cnt = d.cnt := rfl
@[simp] theorem Dev.pwr_modTask (d : Dev) (i : Nat) (f : Task → Task) : (d.modTask i f).pwr = d.pwr := rfl
@[simp] theorem Dev.mgt_modTask (d : Dev) (i : Nat) (f : Task → Task) : (d.modTask i f).mgt = d.mgt := rfl
@[simp] theorem Dev.boot_modTask (d : Dev) (i : Nat) (f : Task → Task) : (d.modTask i f).boot = d.boot := rfl
@[simp] theorem Dev.par_modTask (d : Dev) (i : Nat) (f : Task → Task) : (d.modTask i f).par = d.par := rfl
@[simp] theorem Dev.aud_modTask (d : Dev) (i : Nat) (f : Task → Task) : (d.modTask i f).aud = d.aud := rfl
@[simp] theorem Dev.cal_modTask (d : Dev) (i : Nat) (f : Task → Task) : (d.modTask i f).cal = d.cal := rfl
@[simp] theorem Dev.mix_modTask (d : Dev) (i : Nat) (f : Task → Task) : (d.modTask i f).mix = d.mix := rfl
@[simp] theorem Dev.outs_modTask (d : Dev) (i : Nat) (f : Task → Task) : (d.modTask i f).outs = d.outs := rfl
@[simp] theorem Dev.tdm_modTask (d : Dev) (i : Nat) (f : Task → Task) : (d.modTask i f).tdm = d.tdm := rfl
@[simp] theorem Dev.ser_modTask (d : Dev) (i : Nat) (f : Task → Task) : (d.modTask i f).ser = d.ser := rfl
@[simp] theorem Dev.cas_modTask (d : Dev) (i : Nat) (f : Task → Task) : (d.modTask i f).cas = d.cas := rfl

@[simp] theorem Dev.regs_modMix (d : Dev) (f : Mix → Mix) : (d.modMix f).regs = d.regs := rfl
@[simp] theorem Dev.fresh_modMix (d : Dev) (f : Mix → Mix) : (d.modMix f).fresh = d.fresh := rfl
@[simp] theorem Dev.mem_modMix (d : Dev) (f : Mix → Mix) : (d.modMix f).mem = d.mem := rfl
@[simp] theorem Dev.frame_modMix (d : Dev) (f : Mix → Mix) : (d.modMix f).frame = d.frame := rfl
@[simp] theorem Dev.port_modMix (d : Dev) (f : Mix → Mix) : (d.modMix f).port = d.port := rfl
@[simp] theorem Dev.win_modMix (d : Dev) (f : Mix → Mix) : (d.modMix f).win = d.win := rfl
@[simp] theorem Dev.cnt_modMix (d : Dev) (f : Mix → Mix) : (d.modMix f).cnt = d.cnt := rfl
@[simp] theorem Dev.pwr_modMix (d : Dev) (f : Mix → Mix) : (d.modMix f).pwr = d.pwr := rfl
@[simp] theorem Dev.mgt_modMix (d : Dev) (f : Mix → Mix) : (d.modMix f).mgt = d.mgt := rfl
@[simp] theorem Dev.boot_modMix (d : Dev) (f : Mix → Mix) : (d.modMix f).boot = d.boot := rfl
@[simp] theorem Dev.alm_modMix (d : Dev) (f : Mix → Mix) : (d.modMix f).alm = d.alm := rfl
@[simp] theorem Dev.par_modMix (d : Dev) (f : Mix → Mix) : (d.modMix f).par = d.par := rfl
@[simp] theorem Dev.aud_modMix (d : Dev) (f : Mix → Mix) : (d.modMix f).aud = d.aud := rfl
@[simp] theorem Dev.cal_modMix (d : Dev) (f : Mix → Mix) : (d.modMix f).cal = d.cal := rfl
@[simp] theorem Dev.outs_modMix (d : Dev) (f : Mix → Mix) : (d.modMix f).outs = d.outs := rfl
@[simp] theorem Dev.tdm_modMix (d : Dev) (f : Mix → Mix) : (d.modMix f).tdm = d.tdm := rfl
@[simp] theorem Dev.ser_modMix (d : Dev) (f : Mix → Mix) : (d.modMix f).ser = d.ser := rfl
@[simp] theorem Dev.cas_modMix (d : Dev) (f : Mix → Mix) : (d.modMix f).cas = d.cas := rfl

@[simp] theorem Dev.regs_modTdm (d : Dev) (n : Nat) (f : TdmPort → TdmPort) : (d.modTdm n f).regs = d.regs := rfl
@[simp] theorem Dev.fresh_modTdm (d : Dev) (n : Nat) (f : TdmPort → TdmPort) : (d.modTdm n f).fresh = d.fresh := rfl
@[simp] theorem Dev.mem_modTdm (d : Dev) (n : Nat) (f : TdmPort → TdmPort) : (d.modTdm n f).mem = d.mem := rfl
@[simp] theorem Dev.frame_modTdm (d : Dev) (n : Nat) (f : TdmPort → TdmPort) : (d.modTdm n f).frame = d.frame := rfl
@[simp] theorem Dev.port_modTdm (d : Dev) (n : Nat) (f : TdmPort → TdmPort) : (d.modTdm n f).port = d.port := rfl
@[simp] theorem Dev.win_modTdm (d : Dev) (n : Nat) (f : TdmPort → TdmPort) : (d.modTdm n f).win = d.win := rfl
@[simp] theorem Dev.cnt_modTdm (d : Dev) (n : Nat) (f : TdmPort → TdmPort) : (d.modTdm n f).cnt = d.cnt := rfl
@[simp] theorem Dev.pwr_modTdm (d : Dev) (n : Nat) (f : TdmPort → TdmPort) : (d.modTdm n f).pwr = d.pwr := rfl
@[simp] theorem Dev.mgt_modTdm (d : Dev) (n : Nat) (f : TdmPort → TdmPort) : (d.modTdm n f).mgt = d.mgt := rfl
@[simp] theorem Dev.boot_modTdm (d : Dev) (n : Nat) (f : TdmPort → TdmPort) : (d.modTdm n f).boot = d.boot := rfl
@[simp] theorem Dev.alm_modTdm (d : Dev) (n : Nat) (f : TdmPort → TdmPort) : (d.modTdm n f).alm = d.alm := rfl
@[simp] theorem Dev.par_modTdm (d : Dev) (n : Nat) (f : TdmPort → TdmPort) : (d.modTdm n f).par = d.par := rfl
@[simp] theorem Dev.aud_modTdm (d : Dev) (n : Nat) (f : TdmPort → TdmPort) : (d.modTdm n f).aud = d.aud := rfl
@[simp] theorem Dev.cal_modTdm (d : Dev) (n : Nat) (f : TdmPort → TdmPort) : (d.modTdm n f).cal = d.cal := rfl
@[simp] theorem Dev.mix_modTdm (d : Dev) (n : Nat) (f : TdmPort → TdmPort) : (d.modTdm n f).mix = d.mix := rfl
@[simp] theorem Dev.outs_modTdm (d : Dev) (n : Nat) (f : TdmPort → TdmPort) : (d.modTdm n f).outs = d.outs := rfl
@[simp] theorem Dev.ser_modTdm (d : Dev) (n : Nat) (f : TdmPort → TdmPort) : (d.modTdm n f).ser = d.ser := rfl
@[simp] theorem Dev.cas_modTdm (d : Dev) (n : Nat) (f : TdmPort → TdmPort) : (d.modTdm n f).cas = d.cas := rfl

@[simp] theorem Dev.regs_modChr (d : Dev) (c : Nat) (f : Chrono → Chrono) : (d.modChr c f).regs = d.regs := rfl
@[simp] theorem Dev.fresh_modChr (d : Dev) (c : Nat) (f : Chrono → Chrono) : (d.modChr c f).fresh = d.fresh := rfl
@[simp] theorem Dev.mem_modChr (d : Dev) (c : Nat) (f : Chrono → Chrono) : (d.modChr c f).mem = d.mem := rfl
@[simp] theorem Dev.frame_modChr (d : Dev) (c : Nat) (f : Chrono → Chrono) : (d.modChr c f).frame = d.frame := rfl
@[simp] theorem Dev.port_modChr (d : Dev) (c : Nat) (f : Chrono → Chrono) : (d.modChr c f).port = d.port := rfl
@[simp] theorem Dev.win_modChr (d : Dev) (c : Nat) (f : Chrono → Chrono) : (d.modChr c f).win = d.win := rfl
@[simp] theorem Dev.pwr_modChr (d : Dev) (c : Nat) (f : Chrono → Chrono) : (d.modChr c f).pwr = d.pwr := rfl
@[simp] theorem Dev.mgt_modChr (d : Dev) (c : Nat) (f : Chrono → Chrono) : (d.modChr c f).mgt = d.mgt := rfl
@[simp] theorem Dev.boot_modChr (d : Dev) (c : Nat) (f : Chrono → Chrono) : (d.modChr c f).boot = d.boot := rfl
@[simp] theorem Dev.alm_modChr (d : Dev) (c : Nat) (f : Chrono → Chrono) : (d.modChr c f).alm = d.alm := rfl
@[simp] theorem Dev.par_modChr (d : Dev) (c : Nat) (f : Chrono → Chrono) : (d.modChr c f).par = d.par := rfl
@[simp] theorem Dev.aud_modChr (d : Dev) (c : Nat) (f : Chrono → Chrono) : (d.modChr c f).aud = d.aud := rfl
@[simp] theorem Dev.cal_modChr (d : Dev) (c : Nat) (f : Chrono → Chrono) : (d.modChr c f).cal = d.cal := rfl
@[simp] theorem Dev.mix_modChr (d : Dev) (c : Nat) (f : Chrono → Chrono) : (d.modChr c f).mix = d.mix := rfl
@[simp] theorem Dev.outs_modChr (d : Dev) (c : Nat) (f : Chrono → Chrono) : (d.modChr c f).outs = d.outs := rfl
@[simp] theorem Dev.tdm_modChr (d : Dev) (c : Nat) (f : Chrono → Chrono) : (d.modChr c f).tdm = d.tdm := rfl
@[simp] theorem Dev.ser_modChr (d : Dev) (c : Nat) (f : Chrono → Chrono) : (d.modChr c f).ser = d.ser := rfl
@[simp] theorem Dev.cas_modChr (d : Dev) (c : Nat) (f : Chrono → Chrono) : (d.modChr c f).cas = d.cas := rfl

@[simp] theorem Dev.regs_modOut (d : Dev) (k : Nat) (f : ChrOut → ChrOut) : (d.modOut k f).regs = d.regs := rfl
@[simp] theorem Dev.fresh_modOut (d : Dev) (k : Nat) (f : ChrOut → ChrOut) : (d.modOut k f).fresh = d.fresh := rfl
@[simp] theorem Dev.mem_modOut (d : Dev) (k : Nat) (f : ChrOut → ChrOut) : (d.modOut k f).mem = d.mem := rfl
@[simp] theorem Dev.frame_modOut (d : Dev) (k : Nat) (f : ChrOut → ChrOut) : (d.modOut k f).frame = d.frame := rfl
@[simp] theorem Dev.port_modOut (d : Dev) (k : Nat) (f : ChrOut → ChrOut) : (d.modOut k f).port = d.port := rfl
@[simp] theorem Dev.win_modOut (d : Dev) (k : Nat) (f : ChrOut → ChrOut) : (d.modOut k f).win = d.win := rfl
@[simp] theorem Dev.pwr_modOut (d : Dev) (k : Nat) (f : ChrOut → ChrOut) : (d.modOut k f).pwr = d.pwr := rfl
@[simp] theorem Dev.mgt_modOut (d : Dev) (k : Nat) (f : ChrOut → ChrOut) : (d.modOut k f).mgt = d.mgt := rfl
@[simp] theorem Dev.boot_modOut (d : Dev) (k : Nat) (f : ChrOut → ChrOut) : (d.modOut k f).boot = d.boot := rfl
@[simp] theorem Dev.alm_modOut (d : Dev) (k : Nat) (f : ChrOut → ChrOut) : (d.modOut k f).alm = d.alm := rfl
@[simp] theorem Dev.par_modOut (d : Dev) (k : Nat) (f : ChrOut → ChrOut) : (d.modOut k f).par = d.par := rfl
@[simp] theorem Dev.aud_modOut (d : Dev) (k : Nat) (f : ChrOut → ChrOut) : (d.modOut k f).aud = d.aud := rfl
@[simp] theorem Dev.cal_modOut (d : Dev) (k : Nat) (f : ChrOut → ChrOut) : (d.modOut k f).cal = d.cal := rfl
@[simp] theorem Dev.mix_modOut (d : Dev) (k : Nat) (f : ChrOut → ChrOut) : (d.modOut k f).mix = d.mix := rfl
@[simp] theorem Dev.outs_modOut (d : Dev) (k : Nat) (f : ChrOut → ChrOut) : (d.modOut k f).outs = d.outs := rfl
@[simp] theorem Dev.tdm_modOut (d : Dev) (k : Nat) (f : ChrOut → ChrOut) : (d.modOut k f).tdm = d.tdm := rfl
@[simp] theorem Dev.ser_modOut (d : Dev) (k : Nat) (f : ChrOut → ChrOut) : (d.modOut k f).ser = d.ser := rfl
@[simp] theorem Dev.cas_modOut (d : Dev) (k : Nat) (f : ChrOut → ChrOut) : (d.modOut k f).cas = d.cas := rfl

@[simp] theorem Dev.regs_modCal (d : Dev) (f : Cal → Cal) : (d.modCal f).regs = d.regs := rfl
@[simp] theorem Dev.fresh_modCal (d : Dev) (f : Cal → Cal) : (d.modCal f).fresh = d.fresh := rfl
@[simp] theorem Dev.mem_modCal (d : Dev) (f : Cal → Cal) : (d.modCal f).mem = d.mem := rfl
@[simp] theorem Dev.frame_modCal (d : Dev) (f : Cal → Cal) : (d.modCal f).frame = d.frame := rfl
@[simp] theorem Dev.port_modCal (d : Dev) (f : Cal → Cal) : (d.modCal f).port = d.port := rfl
@[simp] theorem Dev.win_modCal (d : Dev) (f : Cal → Cal) : (d.modCal f).win = d.win := rfl
@[simp] theorem Dev.cnt_modCal (d : Dev) (f : Cal → Cal) : (d.modCal f).cnt = d.cnt := rfl
@[simp] theorem Dev.pwr_modCal (d : Dev) (f : Cal → Cal) : (d.modCal f).pwr = d.pwr := rfl
@[simp] theorem Dev.mgt_modCal (d : Dev) (f : Cal → Cal) : (d.modCal f).mgt = d.mgt := rfl
@[simp] theorem Dev.boot_modCal (d : Dev) (f : Cal → Cal) : (d.modCal f).boot = d.boot := rfl
@[simp] theorem Dev.alm_modCal (d : Dev) (f : Cal → Cal) : (d.modCal f).alm = d.alm := rfl
@[simp] theorem Dev.par_modCal (d : Dev) (f : Cal → Cal) : (d.modCal f).par = d.par := rfl
@[simp] theorem Dev.aud_modCal (d : Dev) (f : Cal → Cal) : (d.modCal f).aud = d.aud := rfl
@[simp] theorem Dev.mix_modCal (d : Dev) (f : Cal → Cal) : (d.modCal f).mix = d.mix := rfl
@[simp] theorem Dev.outs_modCal (d : Dev) (f : Cal → Cal) : (d.modCal f).outs = d.outs := rfl
@[simp] theorem Dev.tdm_modCal (d : Dev) (f : Cal → Cal) : (d.modCal f).tdm = d.tdm := rfl
@[simp] theorem Dev.ser_modCal (d : Dev) (f : Cal → Cal) : (d.modCal f).ser = d.ser := rfl
@[simp] theorem Dev.cas_modCal (d : Dev) (f : Cal → Cal) : (d.modCal f).cas = d.cas := rfl

@[simp] theorem Dev.regs_modRun (d : Dev) (v : Nat) (f : CalRun → CalRun) : (d.modRun v f).regs = d.regs := rfl
@[simp] theorem Dev.fresh_modRun (d : Dev) (v : Nat) (f : CalRun → CalRun) : (d.modRun v f).fresh = d.fresh := rfl
@[simp] theorem Dev.mem_modRun (d : Dev) (v : Nat) (f : CalRun → CalRun) : (d.modRun v f).mem = d.mem := rfl
@[simp] theorem Dev.frame_modRun (d : Dev) (v : Nat) (f : CalRun → CalRun) : (d.modRun v f).frame = d.frame := rfl
@[simp] theorem Dev.port_modRun (d : Dev) (v : Nat) (f : CalRun → CalRun) : (d.modRun v f).port = d.port := rfl
@[simp] theorem Dev.win_modRun (d : Dev) (v : Nat) (f : CalRun → CalRun) : (d.modRun v f).win = d.win := rfl
@[simp] theorem Dev.cnt_modRun (d : Dev) (v : Nat) (f : CalRun → CalRun) : (d.modRun v f).cnt = d.cnt := rfl
@[simp] theorem Dev.pwr_modRun (d : Dev) (v : Nat) (f : CalRun → CalRun) : (d.modRun v f).pwr = d.pwr := rfl
@[simp] theorem Dev.mgt_modRun (d : Dev) (v : Nat) (f : CalRun → CalRun) : (d.modRun v f).mgt = d.mgt := rfl
@[simp] theorem Dev.boot_modRun (d : Dev) (v : Nat) (f : CalRun → CalRun) : (d.modRun v f).boot = d.boot := rfl
@[simp] theorem Dev.alm_modRun (d : Dev) (v : Nat) (f : CalRun → CalRun) : (d.modRun v f).alm = d.alm := rfl
@[simp] theorem Dev.par_modRun (d : Dev) (v : Nat) (f : CalRun → CalRun) : (d.modRun v f).par = d.par := rfl
@[simp] theorem Dev.aud_modRun (d : Dev) (v : Nat) (f : CalRun → CalRun) : (d.modRun v f).aud = d.aud := rfl
@[simp] theorem Dev.mix_modRun (d : Dev) (v : Nat) (f : CalRun → CalRun) : (d.modRun v f).mix = d.mix := rfl
@[simp] theorem Dev.outs_modRun (d : Dev) (v : Nat) (f : CalRun → CalRun) : (d.modRun v f).outs = d.outs := rfl
@[simp] theorem Dev.tdm_modRun (d : Dev) (v : Nat) (f : CalRun → CalRun) : (d.modRun v f).tdm = d.tdm := rfl
@[simp] theorem Dev.ser_modRun (d : Dev) (v : Nat) (f : CalRun → CalRun) : (d.modRun v f).ser = d.ser := rfl
@[simp] theorem Dev.cas_modRun (d : Dev) (v : Nat) (f : CalRun → CalRun) : (d.modRun v f).cas = d.cas := rfl

@[simp] theorem Dev.regs_modVoice (d : Dev) (v : Nat) (f : Voice → Voice) : (d.modVoice v f).regs = d.regs := rfl
@[simp] theorem Dev.fresh_modVoice (d : Dev) (v : Nat) (f : Voice → Voice) : (d.modVoice v f).fresh = d.fresh := rfl
@[simp] theorem Dev.mem_modVoice (d : Dev) (v : Nat) (f : Voice → Voice) : (d.modVoice v f).mem = d.mem := rfl
@[simp] theorem Dev.frame_modVoice (d : Dev) (v : Nat) (f : Voice → Voice) : (d.modVoice v f).frame = d.frame := rfl
@[simp] theorem Dev.port_modVoice (d : Dev) (v : Nat) (f : Voice → Voice) : (d.modVoice v f).port = d.port := rfl
@[simp] theorem Dev.win_modVoice (d : Dev) (v : Nat) (f : Voice → Voice) : (d.modVoice v f).win = d.win := rfl
@[simp] theorem Dev.cnt_modVoice (d : Dev) (v : Nat) (f : Voice → Voice) : (d.modVoice v f).cnt = d.cnt := rfl
@[simp] theorem Dev.pwr_modVoice (d : Dev) (v : Nat) (f : Voice → Voice) : (d.modVoice v f).pwr = d.pwr := rfl
@[simp] theorem Dev.mgt_modVoice (d : Dev) (v : Nat) (f : Voice → Voice) : (d.modVoice v f).mgt = d.mgt := rfl
@[simp] theorem Dev.boot_modVoice (d : Dev) (v : Nat) (f : Voice → Voice) : (d.modVoice v f).boot = d.boot := rfl
@[simp] theorem Dev.alm_modVoice (d : Dev) (v : Nat) (f : Voice → Voice) : (d.modVoice v f).alm = d.alm := rfl
@[simp] theorem Dev.aud_modVoice (d : Dev) (v : Nat) (f : Voice → Voice) : (d.modVoice v f).aud = d.aud := rfl
@[simp] theorem Dev.cal_modVoice (d : Dev) (v : Nat) (f : Voice → Voice) : (d.modVoice v f).cal = d.cal := rfl
@[simp] theorem Dev.mix_modVoice (d : Dev) (v : Nat) (f : Voice → Voice) : (d.modVoice v f).mix = d.mix := rfl
@[simp] theorem Dev.outs_modVoice (d : Dev) (v : Nat) (f : Voice → Voice) : (d.modVoice v f).outs = d.outs := rfl
@[simp] theorem Dev.tdm_modVoice (d : Dev) (v : Nat) (f : Voice → Voice) : (d.modVoice v f).tdm = d.tdm := rfl
@[simp] theorem Dev.ser_modVoice (d : Dev) (v : Nat) (f : Voice → Voice) : (d.modVoice v f).ser = d.ser := rfl
@[simp] theorem Dev.cas_modVoice (d : Dev) (v : Nat) (f : Voice → Voice) : (d.modVoice v f).cas = d.cas := rfl

@[simp] theorem Dev.regs_modOutCh (d : Dev) (i : Nat) (f : OutCh → OutCh) : (d.modOutCh i f).regs = d.regs := rfl
@[simp] theorem Dev.fresh_modOutCh (d : Dev) (i : Nat) (f : OutCh → OutCh) : (d.modOutCh i f).fresh = d.fresh := rfl
@[simp] theorem Dev.mem_modOutCh (d : Dev) (i : Nat) (f : OutCh → OutCh) : (d.modOutCh i f).mem = d.mem := rfl
@[simp] theorem Dev.frame_modOutCh (d : Dev) (i : Nat) (f : OutCh → OutCh) : (d.modOutCh i f).frame = d.frame := rfl
@[simp] theorem Dev.port_modOutCh (d : Dev) (i : Nat) (f : OutCh → OutCh) : (d.modOutCh i f).port = d.port := rfl
@[simp] theorem Dev.win_modOutCh (d : Dev) (i : Nat) (f : OutCh → OutCh) : (d.modOutCh i f).win = d.win := rfl
@[simp] theorem Dev.cnt_modOutCh (d : Dev) (i : Nat) (f : OutCh → OutCh) : (d.modOutCh i f).cnt = d.cnt := rfl
@[simp] theorem Dev.pwr_modOutCh (d : Dev) (i : Nat) (f : OutCh → OutCh) : (d.modOutCh i f).pwr = d.pwr := rfl
@[simp] theorem Dev.mgt_modOutCh (d : Dev) (i : Nat) (f : OutCh → OutCh) : (d.modOutCh i f).mgt = d.mgt := rfl
@[simp] theorem Dev.boot_modOutCh (d : Dev) (i : Nat) (f : OutCh → OutCh) : (d.modOutCh i f).boot = d.boot := rfl
@[simp] theorem Dev.alm_modOutCh (d : Dev) (i : Nat) (f : OutCh → OutCh) : (d.modOutCh i f).alm = d.alm := rfl
@[simp] theorem Dev.par_modOutCh (d : Dev) (i : Nat) (f : OutCh → OutCh) : (d.modOutCh i f).par = d.par := rfl
@[simp] theorem Dev.aud_modOutCh (d : Dev) (i : Nat) (f : OutCh → OutCh) : (d.modOutCh i f).aud = d.aud := rfl
@[simp] theorem Dev.cal_modOutCh (d : Dev) (i : Nat) (f : OutCh → OutCh) : (d.modOutCh i f).cal = d.cal := rfl
@[simp] theorem Dev.mix_modOutCh (d : Dev) (i : Nat) (f : OutCh → OutCh) : (d.modOutCh i f).mix = d.mix := rfl
@[simp] theorem Dev.tdm_modOutCh (d : Dev) (i : Nat) (f : OutCh → OutCh) : (d.modOutCh i f).tdm = d.tdm := rfl
@[simp] theorem Dev.ser_modOutCh (d : Dev) (i : Nat) (f : OutCh → OutCh) : (d.modOutCh i f).ser = d.ser := rfl
@[simp] theorem Dev.cas_modOutCh (d : Dev) (i : Nat) (f : OutCh → OutCh) : (d.modOutCh i f).cas = d.cas := rfl

@[simp] theorem Dev.regs_modPlayer (d : Dev) (i : Nat) (f : Player → Player) : (d.modPlayer i f).regs = d.regs := rfl
@[simp] theorem Dev.fresh_modPlayer (d : Dev) (i : Nat) (f : Player → Player) : (d.modPlayer i f).fresh = d.fresh := rfl
@[simp] theorem Dev.mem_modPlayer (d : Dev) (i : Nat) (f : Player → Player) : (d.modPlayer i f).mem = d.mem := rfl
@[simp] theorem Dev.frame_modPlayer (d : Dev) (i : Nat) (f : Player → Player) : (d.modPlayer i f).frame = d.frame := rfl
@[simp] theorem Dev.port_modPlayer (d : Dev) (i : Nat) (f : Player → Player) : (d.modPlayer i f).port = d.port := rfl
@[simp] theorem Dev.win_modPlayer (d : Dev) (i : Nat) (f : Player → Player) : (d.modPlayer i f).win = d.win := rfl
@[simp] theorem Dev.cnt_modPlayer (d : Dev) (i : Nat) (f : Player → Player) : (d.modPlayer i f).cnt = d.cnt := rfl
@[simp] theorem Dev.pwr_modPlayer (d : Dev) (i : Nat) (f : Player → Player) : (d.modPlayer i f).pwr = d.pwr := rfl
@[simp] theorem Dev.mgt_modPlayer (d : Dev) (i : Nat) (f : Player → Player) : (d.modPlayer i f).mgt = d.mgt := rfl
@[simp] theorem Dev.boot_modPlayer (d : Dev) (i : Nat) (f : Player → Player) : (d.modPlayer i f).boot = d.boot := rfl
@[simp] theorem Dev.alm_modPlayer (d : Dev) (i : Nat) (f : Player → Player) : (d.modPlayer i f).alm = d.alm := rfl
@[simp] theorem Dev.par_modPlayer (d : Dev) (i : Nat) (f : Player → Player) : (d.modPlayer i f).par = d.par := rfl
@[simp] theorem Dev.aud_modPlayer (d : Dev) (i : Nat) (f : Player → Player) : (d.modPlayer i f).aud = d.aud := rfl
@[simp] theorem Dev.cal_modPlayer (d : Dev) (i : Nat) (f : Player → Player) : (d.modPlayer i f).cal = d.cal := rfl
@[simp] theorem Dev.mix_modPlayer (d : Dev) (i : Nat) (f : Player → Player) : (d.modPlayer i f).mix = d.mix := rfl
@[simp] theorem Dev.tdm_modPlayer (d : Dev) (i : Nat) (f : Player → Player) : (d.modPlayer i f).tdm = d.tdm := rfl
@[simp] theorem Dev.ser_modPlayer (d : Dev) (i : Nat) (f : Player → Player) : (d.modPlayer i f).ser = d.ser := rfl
@[simp] theorem Dev.cas_modPlayer (d : Dev) (i : Nat) (f : Player → Player) : (d.modPlayer i f).cas = d.cas := rfl

@[simp] theorem Dev.regs_modSer (d : Dev) (n : Nat) (f : SerPort → SerPort) : (d.modSer n f).regs = d.regs := rfl
@[simp] theorem Dev.fresh_modSer (d : Dev) (n : Nat) (f : SerPort → SerPort) : (d.modSer n f).fresh = d.fresh := rfl
@[simp] theorem Dev.mem_modSer (d : Dev) (n : Nat) (f : SerPort → SerPort) : (d.modSer n f).mem = d.mem := rfl
@[simp] theorem Dev.frame_modSer (d : Dev) (n : Nat) (f : SerPort → SerPort) : (d.modSer n f).frame = d.frame := rfl
@[simp] theorem Dev.port_modSer (d : Dev) (n : Nat) (f : SerPort → SerPort) : (d.modSer n f).port = d.port := rfl
@[simp] theorem Dev.win_modSer (d : Dev) (n : Nat) (f : SerPort → SerPort) : (d.modSer n f).win = d.win := rfl
@[simp] theorem Dev.cnt_modSer (d : Dev) (n : Nat) (f : SerPort → SerPort) : (d.modSer n f).cnt = d.cnt := rfl
@[simp] theorem Dev.pwr_modSer (d : Dev) (n : Nat) (f : SerPort → SerPort) : (d.modSer n f).pwr = d.pwr := rfl
@[simp] theorem Dev.mgt_modSer (d : Dev) (n : Nat) (f : SerPort → SerPort) : (d.modSer n f).mgt = d.mgt := rfl
@[simp] theorem Dev.boot_modSer (d : Dev) (n : Nat) (f : SerPort → SerPort) : (d.modSer n f).boot = d.boot := rfl
@[simp] theorem Dev.alm_modSer (d : Dev) (n : Nat) (f : SerPort → SerPort) : (d.modSer n f).alm = d.alm := rfl
@[simp] theorem Dev.par_modSer (d : Dev) (n : Nat) (f : SerPort → SerPort) : (d.modSer n f).par = d.par := rfl
@[simp] theorem Dev.aud_modSer (d : Dev) (n : Nat) (f : SerPort → SerPort) : (d.modSer n f).aud = d.aud := rfl
@[simp] theorem Dev.cal_modSer (d : Dev) (n : Nat) (f : SerPort → SerPort) : (d.modSer n f).cal = d.cal := rfl
@[simp] theorem Dev.mix_modSer (d : Dev) (n : Nat) (f : SerPort → SerPort) : (d.modSer n f).mix = d.mix := rfl
@[simp] theorem Dev.outs_modSer (d : Dev) (n : Nat) (f : SerPort → SerPort) : (d.modSer n f).outs = d.outs := rfl
@[simp] theorem Dev.tdm_modSer (d : Dev) (n : Nat) (f : SerPort → SerPort) : (d.modSer n f).tdm = d.tdm := rfl
@[simp] theorem Dev.cas_modSer (d : Dev) (n : Nat) (f : SerPort → SerPort) : (d.modSer n f).cas = d.cas := rfl

@[simp] theorem Dev.regs_modParser (d : Dev) (n : Nat) (f : Parser → Parser) : (d.modParser n f).regs = d.regs := rfl
@[simp] theorem Dev.fresh_modParser (d : Dev) (n : Nat) (f : Parser → Parser) : (d.modParser n f).fresh = d.fresh := rfl
@[simp] theorem Dev.mem_modParser (d : Dev) (n : Nat) (f : Parser → Parser) : (d.modParser n f).mem = d.mem := rfl
@[simp] theorem Dev.frame_modParser (d : Dev) (n : Nat) (f : Parser → Parser) : (d.modParser n f).frame = d.frame := rfl
@[simp] theorem Dev.port_modParser (d : Dev) (n : Nat) (f : Parser → Parser) : (d.modParser n f).port = d.port := rfl
@[simp] theorem Dev.win_modParser (d : Dev) (n : Nat) (f : Parser → Parser) : (d.modParser n f).win = d.win := rfl
@[simp] theorem Dev.cnt_modParser (d : Dev) (n : Nat) (f : Parser → Parser) : (d.modParser n f).cnt = d.cnt := rfl
@[simp] theorem Dev.pwr_modParser (d : Dev) (n : Nat) (f : Parser → Parser) : (d.modParser n f).pwr = d.pwr := rfl
@[simp] theorem Dev.mgt_modParser (d : Dev) (n : Nat) (f : Parser → Parser) : (d.modParser n f).mgt = d.mgt := rfl
@[simp] theorem Dev.boot_modParser (d : Dev) (n : Nat) (f : Parser → Parser) : (d.modParser n f).boot = d.boot := rfl
@[simp] theorem Dev.alm_modParser (d : Dev) (n : Nat) (f : Parser → Parser) : (d.modParser n f).alm = d.alm := rfl
@[simp] theorem Dev.par_modParser (d : Dev) (n : Nat) (f : Parser → Parser) : (d.modParser n f).par = d.par := rfl
@[simp] theorem Dev.aud_modParser (d : Dev) (n : Nat) (f : Parser → Parser) : (d.modParser n f).aud = d.aud := rfl
@[simp] theorem Dev.cal_modParser (d : Dev) (n : Nat) (f : Parser → Parser) : (d.modParser n f).cal = d.cal := rfl
@[simp] theorem Dev.mix_modParser (d : Dev) (n : Nat) (f : Parser → Parser) : (d.modParser n f).mix = d.mix := rfl
@[simp] theorem Dev.outs_modParser (d : Dev) (n : Nat) (f : Parser → Parser) : (d.modParser n f).outs = d.outs := rfl
@[simp] theorem Dev.tdm_modParser (d : Dev) (n : Nat) (f : Parser → Parser) : (d.modParser n f).tdm = d.tdm := rfl
@[simp] theorem Dev.cas_modParser (d : Dev) (n : Nat) (f : Parser → Parser) : (d.modParser n f).cas = d.cas := rfl

@[simp] theorem Dev.regs_modPort (d : Dev) (port : CasPort) (f : CasPortSt → CasPortSt) : (d.modPort port f).regs = d.regs := by
  cases port <;> rfl
@[simp] theorem Dev.fresh_modPort (d : Dev) (port : CasPort) (f : CasPortSt → CasPortSt) : (d.modPort port f).fresh = d.fresh := by
  cases port <;> rfl
@[simp] theorem Dev.mem_modPort (d : Dev) (port : CasPort) (f : CasPortSt → CasPortSt) : (d.modPort port f).mem = d.mem := by
  cases port <;> rfl
@[simp] theorem Dev.frame_modPort (d : Dev) (port : CasPort) (f : CasPortSt → CasPortSt) : (d.modPort port f).frame = d.frame := by
  cases port <;> rfl
@[simp] theorem Dev.port_modPort (d : Dev) (port : CasPort) (f : CasPortSt → CasPortSt) : (d.modPort port f).port = d.port := by
  cases port <;> rfl
@[simp] theorem Dev.win_modPort (d : Dev) (port : CasPort) (f : CasPortSt → CasPortSt) : (d.modPort port f).win = d.win := by
  cases port <;> rfl
@[simp] theorem Dev.cnt_modPort (d : Dev) (port : CasPort) (f : CasPortSt → CasPortSt) : (d.modPort port f).cnt = d.cnt := by
  cases port <;> rfl
@[simp] theorem Dev.pwr_modPort (d : Dev) (port : CasPort) (f : CasPortSt → CasPortSt) : (d.modPort port f).pwr = d.pwr := by
  cases port <;> rfl
@[simp] theorem Dev.mgt_modPort (d : Dev) (port : CasPort) (f : CasPortSt → CasPortSt) : (d.modPort port f).mgt = d.mgt := by
  cases port <;> rfl
@[simp] theorem Dev.boot_modPort (d : Dev) (port : CasPort) (f : CasPortSt → CasPortSt) : (d.modPort port f).boot = d.boot := by
  cases port <;> rfl
@[simp] theorem Dev.alm_modPort (d : Dev) (port : CasPort) (f : CasPortSt → CasPortSt) : (d.modPort port f).alm = d.alm := by
  cases port <;> rfl
@[simp] theorem Dev.par_modPort (d : Dev) (port : CasPort) (f : CasPortSt → CasPortSt) : (d.modPort port f).par = d.par := by
  cases port <;> rfl
@[simp] theorem Dev.aud_modPort (d : Dev) (port : CasPort) (f : CasPortSt → CasPortSt) : (d.modPort port f).aud = d.aud := by
  cases port <;> rfl
@[simp] theorem Dev.cal_modPort (d : Dev) (port : CasPort) (f : CasPortSt → CasPortSt) : (d.modPort port f).cal = d.cal := by
  cases port <;> rfl
@[simp] theorem Dev.mix_modPort (d : Dev) (port : CasPort) (f : CasPortSt → CasPortSt) : (d.modPort port f).mix = d.mix := by
  cases port <;> rfl
@[simp] theorem Dev.outs_modPort (d : Dev) (port : CasPort) (f : CasPortSt → CasPortSt) : (d.modPort port f).outs = d.outs := by
  cases port <;> rfl
@[simp] theorem Dev.tdm_modPort (d : Dev) (port : CasPort) (f : CasPortSt → CasPortSt) : (d.modPort port f).tdm = d.tdm := by
  cases port <;> rfl
@[simp] theorem Dev.ser_modPort (d : Dev) (port : CasPort) (f : CasPortSt → CasPortSt) : (d.modPort port f).ser = d.ser := by
  cases port <;> rfl

end Sys2Proof.Machine
end

