-- ==== Sys2Proof/Laws/Frames.lean ====
section
/-! SUPPORT. Which parts of the device each operation and each command's effect leaves alone: one lemma per
function, for every part it does not touch. -/

namespace Sys2Proof.Machine

open Sys2Proof

/-! ### Folds -/

/-- What every round of a fold leaves alone, the fold leaves alone. -/
theorem foldl_keeps {α β γ : Type} (p : α → γ) (f : α → β → α) (h : ∀ a b, p (f a b) = p a) (l : List β) (a : α) :
    p (l.foldl f a) = p a := by
  induction l generalizing a with
  | nil => rfl
  | cons b r ih => rw [List.foldl_cons, ih, h]

@[simp] theorem forUpTo_regs (n : Nat) (f : Nat → Dev → Dev) (d : Dev) (h : ∀ b d, (f b d).regs = d.regs) : (forUpTo n f d).regs = d.regs :=
  foldl_keeps (fun d => d.regs) _ (fun d b => h b d) _ _
@[simp] theorem forEach_regs {β : Type} (l : List β) (f : β → Dev → Dev) (d : Dev) (h : ∀ b d, (f b d).regs = d.regs) : (forEach l f d).regs = d.regs :=
  foldl_keeps (fun d => d.regs) _ (fun d b => h b d) _ _
@[simp] theorem ite_regs (c : Prop) [Decidable c] (a b : Dev) : (if c then a else b).regs = if c then a.regs else b.regs :=
  apply_ite (fun d => d.regs) c a b

@[simp] theorem forUpTo_fresh (n : Nat) (f : Nat → Dev → Dev) (d : Dev) (h : ∀ b d, (f b d).fresh = d.fresh) : (forUpTo n f d).fresh = d.fresh :=
  foldl_keeps (fun d => d.fresh) _ (fun d b => h b d) _ _
@[simp] theorem forEach_fresh {β : Type} (l : List β) (f : β → Dev → Dev) (d : Dev) (h : ∀ b d, (f b d).fresh = d.fresh) : (forEach l f d).fresh = d.fresh :=
  foldl_keeps (fun d => d.fresh) _ (fun d b => h b d) _ _
@[simp] theorem ite_fresh (c : Prop) [Decidable c] (a b : Dev) : (if c then a else b).fresh = if c then a.fresh else b.fresh :=
  apply_ite (fun d => d.fresh) c a b

@[simp] theorem forUpTo_mem (n : Nat) (f : Nat → Dev → Dev) (d : Dev) (h : ∀ b d, (f b d).mem = d.mem) : (forUpTo n f d).mem = d.mem :=
  foldl_keeps (fun d => d.mem) _ (fun d b => h b d) _ _
@[simp] theorem forEach_mem {β : Type} (l : List β) (f : β → Dev → Dev) (d : Dev) (h : ∀ b d, (f b d).mem = d.mem) : (forEach l f d).mem = d.mem :=
  foldl_keeps (fun d => d.mem) _ (fun d b => h b d) _ _
@[simp] theorem ite_mem (c : Prop) [Decidable c] (a b : Dev) : (if c then a else b).mem = if c then a.mem else b.mem :=
  apply_ite (fun d => d.mem) c a b

@[simp] theorem forUpTo_frame (n : Nat) (f : Nat → Dev → Dev) (d : Dev) (h : ∀ b d, (f b d).frame = d.frame) : (forUpTo n f d).frame = d.frame :=
  foldl_keeps (fun d => d.frame) _ (fun d b => h b d) _ _
@[simp] theorem forEach_frame {β : Type} (l : List β) (f : β → Dev → Dev) (d : Dev) (h : ∀ b d, (f b d).frame = d.frame) : (forEach l f d).frame = d.frame :=
  foldl_keeps (fun d => d.frame) _ (fun d b => h b d) _ _
@[simp] theorem ite_frame (c : Prop) [Decidable c] (a b : Dev) : (if c then a else b).frame = if c then a.frame else b.frame :=
  apply_ite (fun d => d.frame) c a b

@[simp] theorem forUpTo_port (n : Nat) (f : Nat → Dev → Dev) (d : Dev) (h : ∀ b d, (f b d).port = d.port) : (forUpTo n f d).port = d.port :=
  foldl_keeps (fun d => d.port) _ (fun d b => h b d) _ _
@[simp] theorem forEach_port {β : Type} (l : List β) (f : β → Dev → Dev) (d : Dev) (h : ∀ b d, (f b d).port = d.port) : (forEach l f d).port = d.port :=
  foldl_keeps (fun d => d.port) _ (fun d b => h b d) _ _
@[simp] theorem ite_port (c : Prop) [Decidable c] (a b : Dev) : (if c then a else b).port = if c then a.port else b.port :=
  apply_ite (fun d => d.port) c a b

@[simp] theorem forUpTo_win (n : Nat) (f : Nat → Dev → Dev) (d : Dev) (h : ∀ b d, (f b d).win = d.win) : (forUpTo n f d).win = d.win :=
  foldl_keeps (fun d => d.win) _ (fun d b => h b d) _ _
@[simp] theorem forEach_win {β : Type} (l : List β) (f : β → Dev → Dev) (d : Dev) (h : ∀ b d, (f b d).win = d.win) : (forEach l f d).win = d.win :=
  foldl_keeps (fun d => d.win) _ (fun d b => h b d) _ _
@[simp] theorem ite_win (c : Prop) [Decidable c] (a b : Dev) : (if c then a else b).win = if c then a.win else b.win :=
  apply_ite (fun d => d.win) c a b

@[simp] theorem forUpTo_cnt (n : Nat) (f : Nat → Dev → Dev) (d : Dev) (h : ∀ b d, (f b d).cnt = d.cnt) : (forUpTo n f d).cnt = d.cnt :=
  foldl_keeps (fun d => d.cnt) _ (fun d b => h b d) _ _
@[simp] theorem forEach_cnt {β : Type} (l : List β) (f : β → Dev → Dev) (d : Dev) (h : ∀ b d, (f b d).cnt = d.cnt) : (forEach l f d).cnt = d.cnt :=
  foldl_keeps (fun d => d.cnt) _ (fun d b => h b d) _ _
@[simp] theorem ite_cnt (c : Prop) [Decidable c] (a b : Dev) : (if c then a else b).cnt = if c then a.cnt else b.cnt :=
  apply_ite (fun d => d.cnt) c a b

@[simp] theorem forUpTo_pwr (n : Nat) (f : Nat → Dev → Dev) (d : Dev) (h : ∀ b d, (f b d).pwr = d.pwr) : (forUpTo n f d).pwr = d.pwr :=
  foldl_keeps (fun d => d.pwr) _ (fun d b => h b d) _ _
@[simp] theorem forEach_pwr {β : Type} (l : List β) (f : β → Dev → Dev) (d : Dev) (h : ∀ b d, (f b d).pwr = d.pwr) : (forEach l f d).pwr = d.pwr :=
  foldl_keeps (fun d => d.pwr) _ (fun d b => h b d) _ _
@[simp] theorem ite_pwr (c : Prop) [Decidable c] (a b : Dev) : (if c then a else b).pwr = if c then a.pwr else b.pwr :=
  apply_ite (fun d => d.pwr) c a b

@[simp] theorem forUpTo_mgt (n : Nat) (f : Nat → Dev → Dev) (d : Dev) (h : ∀ b d, (f b d).mgt = d.mgt) : (forUpTo n f d).mgt = d.mgt :=
  foldl_keeps (fun d => d.mgt) _ (fun d b => h b d) _ _
@[simp] theorem forEach_mgt {β : Type} (l : List β) (f : β → Dev → Dev) (d : Dev) (h : ∀ b d, (f b d).mgt = d.mgt) : (forEach l f d).mgt = d.mgt :=
  foldl_keeps (fun d => d.mgt) _ (fun d b => h b d) _ _
@[simp] theorem ite_mgt (c : Prop) [Decidable c] (a b : Dev) : (if c then a else b).mgt = if c then a.mgt else b.mgt :=
  apply_ite (fun d => d.mgt) c a b

@[simp] theorem forUpTo_boot (n : Nat) (f : Nat → Dev → Dev) (d : Dev) (h : ∀ b d, (f b d).boot = d.boot) : (forUpTo n f d).boot = d.boot :=
  foldl_keeps (fun d => d.boot) _ (fun d b => h b d) _ _
@[simp] theorem forEach_boot {β : Type} (l : List β) (f : β → Dev → Dev) (d : Dev) (h : ∀ b d, (f b d).boot = d.boot) : (forEach l f d).boot = d.boot :=
  foldl_keeps (fun d => d.boot) _ (fun d b => h b d) _ _
@[simp] theorem ite_boot (c : Prop) [Decidable c] (a b : Dev) : (if c then a else b).boot = if c then a.boot else b.boot :=
  apply_ite (fun d => d.boot) c a b

@[simp] theorem forUpTo_alm (n : Nat) (f : Nat → Dev → Dev) (d : Dev) (h : ∀ b d, (f b d).alm = d.alm) : (forUpTo n f d).alm = d.alm :=
  foldl_keeps (fun d => d.alm) _ (fun d b => h b d) _ _
@[simp] theorem forEach_alm {β : Type} (l : List β) (f : β → Dev → Dev) (d : Dev) (h : ∀ b d, (f b d).alm = d.alm) : (forEach l f d).alm = d.alm :=
  foldl_keeps (fun d => d.alm) _ (fun d b => h b d) _ _
@[simp] theorem ite_alm (c : Prop) [Decidable c] (a b : Dev) : (if c then a else b).alm = if c then a.alm else b.alm :=
  apply_ite (fun d => d.alm) c a b

@[simp] theorem forUpTo_par (n : Nat) (f : Nat → Dev → Dev) (d : Dev) (h : ∀ b d, (f b d).par = d.par) : (forUpTo n f d).par = d.par :=
  foldl_keeps (fun d => d.par) _ (fun d b => h b d) _ _
@[simp] theorem forEach_par {β : Type} (l : List β) (f : β → Dev → Dev) (d : Dev) (h : ∀ b d, (f b d).par = d.par) : (forEach l f d).par = d.par :=
  foldl_keeps (fun d => d.par) _ (fun d b => h b d) _ _
@[simp] theorem ite_par (c : Prop) [Decidable c] (a b : Dev) : (if c then a else b).par = if c then a.par else b.par :=
  apply_ite (fun d => d.par) c a b

@[simp] theorem forUpTo_aud (n : Nat) (f : Nat → Dev → Dev) (d : Dev) (h : ∀ b d, (f b d).aud = d.aud) : (forUpTo n f d).aud = d.aud :=
  foldl_keeps (fun d => d.aud) _ (fun d b => h b d) _ _
@[simp] theorem forEach_aud {β : Type} (l : List β) (f : β → Dev → Dev) (d : Dev) (h : ∀ b d, (f b d).aud = d.aud) : (forEach l f d).aud = d.aud :=
  foldl_keeps (fun d => d.aud) _ (fun d b => h b d) _ _
@[simp] theorem ite_aud (c : Prop) [Decidable c] (a b : Dev) : (if c then a else b).aud = if c then a.aud else b.aud :=
  apply_ite (fun d => d.aud) c a b

@[simp] theorem forUpTo_cal (n : Nat) (f : Nat → Dev → Dev) (d : Dev) (h : ∀ b d, (f b d).cal = d.cal) : (forUpTo n f d).cal = d.cal :=
  foldl_keeps (fun d => d.cal) _ (fun d b => h b d) _ _
@[simp] theorem forEach_cal {β : Type} (l : List β) (f : β → Dev → Dev) (d : Dev) (h : ∀ b d, (f b d).cal = d.cal) : (forEach l f d).cal = d.cal :=
  foldl_keeps (fun d => d.cal) _ (fun d b => h b d) _ _
@[simp] theorem ite_cal (c : Prop) [Decidable c] (a b : Dev) : (if c then a else b).cal = if c then a.cal else b.cal :=
  apply_ite (fun d => d.cal) c a b

@[simp] theorem forUpTo_mix (n : Nat) (f : Nat → Dev → Dev) (d : Dev) (h : ∀ b d, (f b d).mix = d.mix) : (forUpTo n f d).mix = d.mix :=
  foldl_keeps (fun d => d.mix) _ (fun d b => h b d) _ _
@[simp] theorem forEach_mix {β : Type} (l : List β) (f : β → Dev → Dev) (d : Dev) (h : ∀ b d, (f b d).mix = d.mix) : (forEach l f d).mix = d.mix :=
  foldl_keeps (fun d => d.mix) _ (fun d b => h b d) _ _
@[simp] theorem ite_mix (c : Prop) [Decidable c] (a b : Dev) : (if c then a else b).mix = if c then a.mix else b.mix :=
  apply_ite (fun d => d.mix) c a b

@[simp] theorem forUpTo_outs (n : Nat) (f : Nat → Dev → Dev) (d : Dev) (h : ∀ b d, (f b d).outs = d.outs) : (forUpTo n f d).outs = d.outs :=
  foldl_keeps (fun d => d.outs) _ (fun d b => h b d) _ _
@[simp] theorem forEach_outs {β : Type} (l : List β) (f : β → Dev → Dev) (d : Dev) (h : ∀ b d, (f b d).outs = d.outs) : (forEach l f d).outs = d.outs :=
  foldl_keeps (fun d => d.outs) _ (fun d b => h b d) _ _
@[simp] theorem ite_outs (c : Prop) [Decidable c] (a b : Dev) : (if c then a else b).outs = if c then a.outs else b.outs :=
  apply_ite (fun d => d.outs) c a b

@[simp] theorem forUpTo_tdm (n : Nat) (f : Nat → Dev → Dev) (d : Dev) (h : ∀ b d, (f b d).tdm = d.tdm) : (forUpTo n f d).tdm = d.tdm :=
  foldl_keeps (fun d => d.tdm) _ (fun d b => h b d) _ _
@[simp] theorem forEach_tdm {β : Type} (l : List β) (f : β → Dev → Dev) (d : Dev) (h : ∀ b d, (f b d).tdm = d.tdm) : (forEach l f d).tdm = d.tdm :=
  foldl_keeps (fun d => d.tdm) _ (fun d b => h b d) _ _
@[simp] theorem ite_tdm (c : Prop) [Decidable c] (a b : Dev) : (if c then a else b).tdm = if c then a.tdm else b.tdm :=
  apply_ite (fun d => d.tdm) c a b

@[simp] theorem forUpTo_ser (n : Nat) (f : Nat → Dev → Dev) (d : Dev) (h : ∀ b d, (f b d).ser = d.ser) : (forUpTo n f d).ser = d.ser :=
  foldl_keeps (fun d => d.ser) _ (fun d b => h b d) _ _
@[simp] theorem forEach_ser {β : Type} (l : List β) (f : β → Dev → Dev) (d : Dev) (h : ∀ b d, (f b d).ser = d.ser) : (forEach l f d).ser = d.ser :=
  foldl_keeps (fun d => d.ser) _ (fun d b => h b d) _ _
@[simp] theorem ite_ser (c : Prop) [Decidable c] (a b : Dev) : (if c then a else b).ser = if c then a.ser else b.ser :=
  apply_ite (fun d => d.ser) c a b

@[simp] theorem forUpTo_cas (n : Nat) (f : Nat → Dev → Dev) (d : Dev) (h : ∀ b d, (f b d).cas = d.cas) : (forUpTo n f d).cas = d.cas :=
  foldl_keeps (fun d => d.cas) _ (fun d b => h b d) _ _
@[simp] theorem forEach_cas {β : Type} (l : List β) (f : β → Dev → Dev) (d : Dev) (h : ∀ b d, (f b d).cas = d.cas) : (forEach l f d).cas = d.cas :=
  foldl_keeps (fun d => d.cas) _ (fun d b => h b d) _ _
@[simp] theorem ite_cas (c : Prop) [Decidable c] (a b : Dev) : (if c then a else b).cas = if c then a.cas else b.cas :=
  apply_ite (fun d => d.cas) c a b

/-! ### One lemma per function -/

@[simp] theorem codedWrite_keeps (lock : Bool) (a : Nat) (v : Word) (d : Dev) :
    (codedWrite lock a v d).fresh = d.fresh ∧ (codedWrite lock a v d).mem = d.mem ∧ (codedWrite lock a v d).frame = d.frame ∧ (codedWrite lock a v d).port = d.port ∧ (codedWrite lock a v d).win = d.win ∧ (codedWrite lock a v d).cnt = d.cnt ∧ (codedWrite lock a v d).pwr = d.pwr ∧ (codedWrite lock a v d).mgt = d.mgt ∧ (codedWrite lock a v d).boot = d.boot ∧ (codedWrite lock a v d).alm = d.alm ∧ (codedWrite lock a v d).par = d.par ∧ (codedWrite lock a v d).aud = d.aud ∧ (codedWrite lock a v d).cal = d.cal ∧ (codedWrite lock a v d).mix = d.mix ∧ (codedWrite lock a v d).outs = d.outs ∧ (codedWrite lock a v d).tdm = d.tdm ∧ (codedWrite lock a v d).ser = d.ser ∧ (codedWrite lock a v d).cas = d.cas := by
  unfold codedWrite; refine ⟨?_, ?_, ?_, ?_, ?_, ?_, ?_, ?_, ?_, ?_, ?_, ?_, ?_, ?_, ?_, ?_, ?_, ?_⟩ <;> (repeat' split) <;> simp -implicitDefEqProofs

@[simp] theorem Dev.arbEnds_keeps (d : Dev) :
    (Dev.arbEnds d).regs = d.regs ∧ (Dev.arbEnds d).fresh = d.fresh ∧ (Dev.arbEnds d).mem = d.mem ∧ (Dev.arbEnds d).frame = d.frame ∧ (Dev.arbEnds d).port = d.port ∧ (Dev.arbEnds d).win = d.win ∧ (Dev.arbEnds d).cnt = d.cnt ∧ (Dev.arbEnds d).mgt = d.mgt ∧ (Dev.arbEnds d).boot = d.boot ∧ (Dev.arbEnds d).alm = d.alm ∧ (Dev.arbEnds d).par = d.par ∧ (Dev.arbEnds d).aud = d.aud ∧ (Dev.arbEnds d).cal = d.cal ∧ (Dev.arbEnds d).mix = d.mix ∧ (Dev.arbEnds d).outs = d.outs ∧ (Dev.arbEnds d).tdm = d.tdm ∧ (Dev.arbEnds d).ser = d.ser ∧ (Dev.arbEnds d).cas = d.cas := by
  simp -implicitDefEqProofs [Dev.arbEnds]

@[simp] theorem seeWord_keeps (d : Dev) (w : HWrite) :
    (seeWord d w).regs = d.regs ∧ (seeWord d w).fresh = d.fresh ∧ (seeWord d w).frame = d.frame ∧ (seeWord d w).port = d.port ∧ (seeWord d w).win = d.win ∧ (seeWord d w).cnt = d.cnt ∧ (seeWord d w).pwr = d.pwr ∧ (seeWord d w).mgt = d.mgt ∧ (seeWord d w).boot = d.boot ∧ (seeWord d w).alm = d.alm ∧ (seeWord d w).par = d.par ∧ (seeWord d w).aud = d.aud ∧ (seeWord d w).cal = d.cal ∧ (seeWord d w).mix = d.mix ∧ (seeWord d w).outs = d.outs ∧ (seeWord d w).tdm = d.tdm ∧ (seeWord d w).ser = d.ser ∧ (seeWord d w).cas = d.cas := by
  simp -implicitDefEqProofs [seeWord]

@[simp] theorem Dev.seen_keeps (d : Dev) :
    (Dev.seen d).regs = d.regs ∧ (Dev.seen d).fresh = d.fresh ∧ (Dev.seen d).frame = d.frame ∧ (Dev.seen d).port = d.port ∧ (Dev.seen d).win = d.win ∧ (Dev.seen d).cnt = d.cnt ∧ (Dev.seen d).pwr = d.pwr ∧ (Dev.seen d).mgt = d.mgt ∧ (Dev.seen d).boot = d.boot ∧ (Dev.seen d).alm = d.alm ∧ (Dev.seen d).par = d.par ∧ (Dev.seen d).aud = d.aud ∧ (Dev.seen d).cal = d.cal ∧ (Dev.seen d).mix = d.mix ∧ (Dev.seen d).outs = d.outs ∧ (Dev.seen d).tdm = d.tdm ∧ (Dev.seen d).ser = d.ser ∧ (Dev.seen d).cas = d.cas := by
  refine ⟨?_, ?_, ?_, ?_, ?_, ?_, ?_, ?_, ?_, ?_, ?_, ?_, ?_, ?_, ?_, ?_, ?_, ?_⟩ <;> unfold Dev.seen <;> first | exact foldl_keeps (fun d => Dev.regs d) _ (fun _ _ => by simp) _ _ | exact foldl_keeps (fun d => Dev.fresh d) _ (fun _ _ => by simp) _ _ | exact foldl_keeps (fun d => Dev.frame d) _ (fun _ _ => by simp) _ _ | exact foldl_keeps (fun d => Dev.port d) _ (fun _ _ => by simp) _ _ | exact foldl_keeps (fun d => Dev.win d) _ (fun _ _ => by simp) _ _ | exact foldl_keeps (fun d => Dev.cnt d) _ (fun _ _ => by simp) _ _ | exact foldl_keeps (fun d => Dev.pwr d) _ (fun _ _ => by simp) _ _ | exact foldl_keeps (fun d => Dev.mgt d) _ (fun _ _ => by simp) _ _ | exact foldl_keeps (fun d => Dev.boot d) _ (fun _ _ => by simp) _ _ | exact foldl_keeps (fun d => Dev.alm d) _ (fun _ _ => by simp) _ _ | exact foldl_keeps (fun d => Dev.par d) _ (fun _ _ => by simp) _ _ | exact foldl_keeps (fun d => Dev.aud d) _ (fun _ _ => by simp) _ _ | exact foldl_keeps (fun d => Dev.cal d) _ (fun _ _ => by simp) _ _ | exact foldl_keeps (fun d => Dev.mix d) _ (fun _ _ => by simp) _ _ | exact foldl_keeps (fun d => Dev.outs d) _ (fun _ _ => by simp) _ _ | exact foldl_keeps (fun d => Dev.tdm d) _ (fun _ _ => by simp) _ _ | exact foldl_keeps (fun d => Dev.ser d) _ (fun _ _ => by simp) _ _ | exact foldl_keeps (fun d => Dev.cas d) _ (fun _ _ => by simp) _ _ 

@[simp] theorem Dev.v32_keeps (d : Dev) (a v : Nat) :
    (Dev.v32 d a v).fresh = d.fresh ∧ (Dev.v32 d a v).frame = d.frame ∧ (Dev.v32 d a v).win = d.win ∧ (Dev.v32 d a v).pwr = d.pwr ∧ (Dev.v32 d a v).mgt = d.mgt ∧ (Dev.v32 d a v).boot = d.boot ∧ (Dev.v32 d a v).alm = d.alm ∧ (Dev.v32 d a v).par = d.par ∧ (Dev.v32 d a v).aud = d.aud ∧ (Dev.v32 d a v).cal = d.cal ∧ (Dev.v32 d a v).mix = d.mix ∧ (Dev.v32 d a v).outs = d.outs ∧ (Dev.v32 d a v).tdm = d.tdm ∧ (Dev.v32 d a v).ser = d.ser ∧ (Dev.v32 d a v).cas = d.cas := by
  simp -implicitDefEqProofs [Dev.v32]

@[simp] theorem rejectPart_keeps (d : Dev) :
    (rejectPart d).fresh = d.fresh ∧ (rejectPart d).mem = d.mem ∧ (rejectPart d).frame = d.frame ∧ (rejectPart d).port = d.port ∧ (rejectPart d).win = d.win ∧ (rejectPart d).cnt = d.cnt ∧ (rejectPart d).pwr = d.pwr ∧ (rejectPart d).mgt = d.mgt ∧ (rejectPart d).boot = d.boot ∧ (rejectPart d).alm = d.alm ∧ (rejectPart d).par = d.par ∧ (rejectPart d).aud = d.aud ∧ (rejectPart d).cal = d.cal ∧ (rejectPart d).mix = d.mix ∧ (rejectPart d).outs = d.outs ∧ (rejectPart d).tdm = d.tdm ∧ (rejectPart d).ser = d.ser ∧ (rejectPart d).cas = d.cas := by
  simp -implicitDefEqProofs [rejectPart]

@[simp] theorem Dev.freeTask_keeps (d : Dev) (i : Nat) :
    (Dev.freeTask d i).regs = d.regs ∧ (Dev.freeTask d i).fresh = d.fresh ∧ (Dev.freeTask d i).mem = d.mem ∧ (Dev.freeTask d i).frame = d.frame ∧ (Dev.freeTask d i).port = d.port ∧ (Dev.freeTask d i).win = d.win ∧ (Dev.freeTask d i).cnt = d.cnt ∧ (Dev.freeTask d i).pwr = d.pwr ∧ (Dev.freeTask d i).mgt = d.mgt ∧ (Dev.freeTask d i).boot = d.boot ∧ (Dev.freeTask d i).par = d.par ∧ (Dev.freeTask d i).aud = d.aud ∧ (Dev.freeTask d i).cal = d.cal ∧ (Dev.freeTask d i).mix = d.mix ∧ (Dev.freeTask d i).outs = d.outs ∧ (Dev.freeTask d i).tdm = d.tdm ∧ (Dev.freeTask d i).ser = d.ser ∧ (Dev.freeTask d i).cas = d.cas := by
  simp -implicitDefEqProofs [Dev.freeTask]

@[simp] theorem voidSent_keeps (p : Nat → Bool) (d : Dev) :
    (voidSent p d).regs = d.regs ∧ (voidSent p d).fresh = d.fresh ∧ (voidSent p d).mem = d.mem ∧ (voidSent p d).frame = d.frame ∧ (voidSent p d).port = d.port ∧ (voidSent p d).win = d.win ∧ (voidSent p d).cnt = d.cnt ∧ (voidSent p d).pwr = d.pwr ∧ (voidSent p d).mgt = d.mgt ∧ (voidSent p d).boot = d.boot ∧ (voidSent p d).alm = d.alm ∧ (voidSent p d).par = d.par ∧ (voidSent p d).aud = d.aud ∧ (voidSent p d).cal = d.cal ∧ (voidSent p d).mix = d.mix ∧ (voidSent p d).outs = d.outs ∧ (voidSent p d).tdm = d.tdm ∧ (voidSent p d).ser = d.ser := by
  simp -implicitDefEqProofs [voidSent]

@[simp] theorem acceptingClear_keeps (d : Dev) :
    (acceptingClear d).regs = d.regs ∧ (acceptingClear d).fresh = d.fresh ∧ (acceptingClear d).mem = d.mem ∧ (acceptingClear d).frame = d.frame ∧ (acceptingClear d).port = d.port ∧ (acceptingClear d).win = d.win ∧ (acceptingClear d).cnt = d.cnt ∧ (acceptingClear d).pwr = d.pwr ∧ (acceptingClear d).mgt = d.mgt ∧ (acceptingClear d).boot = d.boot ∧ (acceptingClear d).par = d.par ∧ (acceptingClear d).aud = d.aud ∧ (acceptingClear d).cal = d.cal ∧ (acceptingClear d).mix = d.mix ∧ (acceptingClear d).outs = d.outs ∧ (acceptingClear d).tdm = d.tdm ∧ (acceptingClear d).ser = d.ser := by
  simp -implicitDefEqProofs [acceptingClear]

@[simp] theorem acceptingSet_keeps (d : Dev) :
    (acceptingSet d).regs = d.regs ∧ (acceptingSet d).fresh = d.fresh ∧ (acceptingSet d).mem = d.mem ∧ (acceptingSet d).frame = d.frame ∧ (acceptingSet d).port = d.port ∧ (acceptingSet d).win = d.win ∧ (acceptingSet d).cnt = d.cnt ∧ (acceptingSet d).pwr = d.pwr ∧ (acceptingSet d).mgt = d.mgt ∧ (acceptingSet d).boot = d.boot ∧ (acceptingSet d).par = d.par ∧ (acceptingSet d).aud = d.aud ∧ (acceptingSet d).cal = d.cal ∧ (acceptingSet d).mix = d.mix ∧ (acceptingSet d).outs = d.outs ∧ (acceptingSet d).tdm = d.tdm ∧ (acceptingSet d).ser = d.ser ∧ (acceptingSet d).cas = d.cas := by
  simp -implicitDefEqProofs [acceptingSet]

@[simp] theorem syncAccepting_keeps (d : Dev) :
    (syncAccepting d).regs = d.regs ∧ (syncAccepting d).fresh = d.fresh ∧ (syncAccepting d).mem = d.mem ∧ (syncAccepting d).frame = d.frame ∧ (syncAccepting d).port = d.port ∧ (syncAccepting d).win = d.win ∧ (syncAccepting d).cnt = d.cnt ∧ (syncAccepting d).pwr = d.pwr ∧ (syncAccepting d).mgt = d.mgt ∧ (syncAccepting d).boot = d.boot ∧ (syncAccepting d).par = d.par ∧ (syncAccepting d).aud = d.aud ∧ (syncAccepting d).cal = d.cal ∧ (syncAccepting d).mix = d.mix ∧ (syncAccepting d).outs = d.outs ∧ (syncAccepting d).tdm = d.tdm ∧ (syncAccepting d).ser = d.ser := by
  simp -implicitDefEqProofs [syncAccepting]

@[simp] theorem releaseTask_keeps (i : Nat) (d : Dev) :
    (releaseTask i d).fresh = d.fresh ∧ (releaseTask i d).mem = d.mem ∧ (releaseTask i d).frame = d.frame ∧ (releaseTask i d).port = d.port ∧ (releaseTask i d).win = d.win ∧ (releaseTask i d).pwr = d.pwr ∧ (releaseTask i d).mgt = d.mgt ∧ (releaseTask i d).boot = d.boot ∧ (releaseTask i d).par = d.par ∧ (releaseTask i d).aud = d.aud ∧ (releaseTask i d).cal = d.cal ∧ (releaseTask i d).mix = d.mix ∧ (releaseTask i d).outs = d.outs ∧ (releaseTask i d).tdm = d.tdm ∧ (releaseTask i d).ser = d.ser ∧ (releaseTask i d).cas = d.cas := by
  refine ⟨?_, ?_, ?_, ?_, ?_, ?_, ?_, ?_, ?_, ?_, ?_, ?_, ?_, ?_, ?_, ?_⟩ <;> (simp only [releaseTask]; repeat' split) <;> simp_all -implicitDefEqProofs

@[simp] theorem releaseDue_fresh (n : Nat) (d : Dev) : (releaseDue n d).fresh = d.fresh := by
  induction n generalizing d with
  | zero => rfl
  | succ n ih => unfold releaseDue; (repeat' split) <;> simp [ih]

@[simp] theorem releaseDue_mem (n : Nat) (d : Dev) : (releaseDue n d).mem = d.mem := by
  induction n generalizing d with
  | zero => rfl
  | succ n ih => unfold releaseDue; (repeat' split) <;> simp [ih]

@[simp] theorem releaseDue_frame (n : Nat) (d : Dev) : (releaseDue n d).frame = d.frame := by
  induction n generalizing d with
  | zero => rfl
  | succ n ih => unfold releaseDue; (repeat' split) <;> simp [ih]

@[simp] theorem releaseDue_port (n : Nat) (d : Dev) : (releaseDue n d).port = d.port := by
  induction n generalizing d with
  | zero => rfl
  | succ n ih => unfold releaseDue; (repeat' split) <;> simp [ih]

@[simp] theorem releaseDue_win (n : Nat) (d : Dev) : (releaseDue n d).win = d.win := by
  induction n generalizing d with
  | zero => rfl
  | succ n ih => unfold releaseDue; (repeat' split) <;> simp [ih]

@[simp] theorem releaseDue_pwr (n : Nat) (d : Dev) : (releaseDue n d).pwr = d.pwr := by
  induction n generalizing d with
  | zero => rfl
  | succ n ih => unfold releaseDue; (repeat' split) <;> simp [ih]

@[simp] theorem releaseDue_mgt (n : Nat) (d : Dev) : (releaseDue n d).mgt = d.mgt := by
  induction n generalizing d with
  | zero => rfl
  | succ n ih => unfold releaseDue; (repeat' split) <;> simp [ih]

@[simp] theorem releaseDue_boot (n : Nat) (d : Dev) : (releaseDue n d).boot = d.boot := by
  induction n generalizing d with
  | zero => rfl
  | succ n ih => unfold releaseDue; (repeat' split) <;> simp [ih]

@[simp] theorem releaseDue_par (n : Nat) (d : Dev) : (releaseDue n d).par = d.par := by
  induction n generalizing d with
  | zero => rfl
  | succ n ih => unfold releaseDue; (repeat' split) <;> simp [ih]

@[simp] theorem releaseDue_aud (n : Nat) (d : Dev) : (releaseDue n d).aud = d.aud := by
  induction n generalizing d with
  | zero => rfl
  | succ n ih => unfold releaseDue; (repeat' split) <;> simp [ih]

@[simp] theorem releaseDue_cal (n : Nat) (d : Dev) : (releaseDue n d).cal = d.cal := by
  induction n generalizing d with
  | zero => rfl
  | succ n ih => unfold releaseDue; (repeat' split) <;> simp [ih]

@[simp] theorem releaseDue_mix (n : Nat) (d : Dev) : (releaseDue n d).mix = d.mix := by
  induction n generalizing d with
  | zero => rfl
  | succ n ih => unfold releaseDue; (repeat' split) <;> simp [ih]

@[simp] theorem releaseDue_outs (n : Nat) (d : Dev) : (releaseDue n d).outs = d.outs := by
  induction n generalizing d with
  | zero => rfl
  | succ n ih => unfold releaseDue; (repeat' split) <;> simp [ih]

@[simp] theorem releaseDue_tdm (n : Nat) (d : Dev) : (releaseDue n d).tdm = d.tdm := by
  induction n generalizing d with
  | zero => rfl
  | succ n ih => unfold releaseDue; (repeat' split) <;> simp [ih]

@[simp] theorem releaseDue_ser (n : Nat) (d : Dev) : (releaseDue n d).ser = d.ser := by
  induction n generalizing d with
  | zero => rfl
  | succ n ih => unfold releaseDue; (repeat' split) <;> simp [ih]

@[simp] theorem releaseDue_cas (n : Nat) (d : Dev) : (releaseDue n d).cas = d.cas := by
  induction n generalizing d with
  | zero => rfl
  | succ n ih => unfold releaseDue; (repeat' split) <;> simp [ih]

@[simp] theorem releaseDueTo_fresh (i n : Nat) (d : Dev) : (releaseDueTo i n d).fresh = d.fresh := by
  induction n generalizing d with
  | zero => rfl
  | succ n ih => unfold releaseDueTo; (repeat' split) <;> simp [ih]

@[simp] theorem releaseDueTo_mem (i n : Nat) (d : Dev) : (releaseDueTo i n d).mem = d.mem := by
  induction n generalizing d with
  | zero => rfl
  | succ n ih => unfold releaseDueTo; (repeat' split) <;> simp [ih]

@[simp] theorem releaseDueTo_frame (i n : Nat) (d : Dev) : (releaseDueTo i n d).frame = d.frame := by
  induction n generalizing d with
  | zero => rfl
  | succ n ih => unfold releaseDueTo; (repeat' split) <;> simp [ih]

@[simp] theorem releaseDueTo_port (i n : Nat) (d : Dev) : (releaseDueTo i n d).port = d.port := by
  induction n generalizing d with
  | zero => rfl
  | succ n ih => unfold releaseDueTo; (repeat' split) <;> simp [ih]

@[simp] theorem releaseDueTo_win (i n : Nat) (d : Dev) : (releaseDueTo i n d).win = d.win := by
  induction n generalizing d with
  | zero => rfl
  | succ n ih => unfold releaseDueTo; (repeat' split) <;> simp [ih]

@[simp] theorem releaseDueTo_pwr (i n : Nat) (d : Dev) : (releaseDueTo i n d).pwr = d.pwr := by
  induction n generalizing d with
  | zero => rfl
  | succ n ih => unfold releaseDueTo; (repeat' split) <;> simp [ih]

@[simp] theorem releaseDueTo_mgt (i n : Nat) (d : Dev) : (releaseDueTo i n d).mgt = d.mgt := by
  induction n generalizing d with
  | zero => rfl
  | succ n ih => unfold releaseDueTo; (repeat' split) <;> simp [ih]

@[simp] theorem releaseDueTo_boot (i n : Nat) (d : Dev) : (releaseDueTo i n d).boot = d.boot := by
  induction n generalizing d with
  | zero => rfl
  | succ n ih => unfold releaseDueTo; (repeat' split) <;> simp [ih]

@[simp] theorem releaseDueTo_par (i n : Nat) (d : Dev) : (releaseDueTo i n d).par = d.par := by
  induction n generalizing d with
  | zero => rfl
  | succ n ih => unfold releaseDueTo; (repeat' split) <;> simp [ih]

@[simp] theorem releaseDueTo_aud (i n : Nat) (d : Dev) : (releaseDueTo i n d).aud = d.aud := by
  induction n generalizing d with
  | zero => rfl
  | succ n ih => unfold releaseDueTo; (repeat' split) <;> simp [ih]

@[simp] theorem releaseDueTo_cal (i n : Nat) (d : Dev) : (releaseDueTo i n d).cal = d.cal := by
  induction n generalizing d with
  | zero => rfl
  | succ n ih => unfold releaseDueTo; (repeat' split) <;> simp [ih]

@[simp] theorem releaseDueTo_mix (i n : Nat) (d : Dev) : (releaseDueTo i n d).mix = d.mix := by
  induction n generalizing d with
  | zero => rfl
  | succ n ih => unfold releaseDueTo; (repeat' split) <;> simp [ih]

@[simp] theorem releaseDueTo_outs (i n : Nat) (d : Dev) : (releaseDueTo i n d).outs = d.outs := by
  induction n generalizing d with
  | zero => rfl
  | succ n ih => unfold releaseDueTo; (repeat' split) <;> simp [ih]

@[simp] theorem releaseDueTo_tdm (i n : Nat) (d : Dev) : (releaseDueTo i n d).tdm = d.tdm := by
  induction n generalizing d with
  | zero => rfl
  | succ n ih => unfold releaseDueTo; (repeat' split) <;> simp [ih]

@[simp] theorem releaseDueTo_ser (i n : Nat) (d : Dev) : (releaseDueTo i n d).ser = d.ser := by
  induction n generalizing d with
  | zero => rfl
  | succ n ih => unfold releaseDueTo; (repeat' split) <;> simp [ih]

@[simp] theorem releaseDueTo_cas (i n : Nat) (d : Dev) : (releaseDueTo i n d).cas = d.cas := by
  induction n generalizing d with
  | zero => rfl
  | succ n ih => unfold releaseDueTo; (repeat' split) <;> simp [ih]

@[simp] theorem rereleaseTask_keeps (i : Nat) (d : Dev) :
    (rereleaseTask i d).fresh = d.fresh ∧ (rereleaseTask i d).mem = d.mem ∧ (rereleaseTask i d).frame = d.frame ∧ (rereleaseTask i d).port = d.port ∧ (rereleaseTask i d).win = d.win ∧ (rereleaseTask i d).pwr = d.pwr ∧ (rereleaseTask i d).mgt = d.mgt ∧ (rereleaseTask i d).boot = d.boot ∧ (rereleaseTask i d).par = d.par ∧ (rereleaseTask i d).aud = d.aud ∧ (rereleaseTask i d).cal = d.cal ∧ (rereleaseTask i d).mix = d.mix ∧ (rereleaseTask i d).outs = d.outs ∧ (rereleaseTask i d).tdm = d.tdm ∧ (rereleaseTask i d).ser = d.ser ∧ (rereleaseTask i d).cas = d.cas := by
  refine ⟨?_, ?_, ?_, ?_, ?_, ?_, ?_, ?_, ?_, ?_, ?_, ?_, ?_, ?_, ?_, ?_⟩ <;> (simp only [rereleaseTask]; repeat' split) <;> simp_all -implicitDefEqProofs

@[simp] theorem releaseReturned_fresh (n : Nat) (d : Dev) : (releaseReturned n d).fresh = d.fresh := by
  induction n generalizing d with
  | zero => rfl
  | succ n ih => unfold releaseReturned; (repeat' split) <;> simp [ih]

@[simp] theorem releaseReturned_mem (n : Nat) (d : Dev) : (releaseReturned n d).mem = d.mem := by
  induction n generalizing d with
  | zero => rfl
  | succ n ih => unfold releaseReturned; (repeat' split) <;> simp [ih]

@[simp] theorem releaseReturned_frame (n : Nat) (d : Dev) : (releaseReturned n d).frame = d.frame := by
  induction n generalizing d with
  | zero => rfl
  | succ n ih => unfold releaseReturned; (repeat' split) <;> simp [ih]

@[simp] theorem releaseReturned_port (n : Nat) (d : Dev) : (releaseReturned n d).port = d.port := by
  induction n generalizing d with
  | zero => rfl
  | succ n ih => unfold releaseReturned; (repeat' split) <;> simp [ih]

@[simp] theorem releaseReturned_win (n : Nat) (d : Dev) : (releaseReturned n d).win = d.win := by
  induction n generalizing d with
  | zero => rfl
  | succ n ih => unfold releaseReturned; (repeat' split) <;> simp [ih]

@[simp] theorem releaseReturned_pwr (n : Nat) (d : Dev) : (releaseReturned n d).pwr = d.pwr := by
  induction n generalizing d with
  | zero => rfl
  | succ n ih => unfold releaseReturned; (repeat' split) <;> simp [ih]

@[simp] theorem releaseReturned_mgt (n : Nat) (d : Dev) : (releaseReturned n d).mgt = d.mgt := by
  induction n generalizing d with
  | zero => rfl
  | succ n ih => unfold releaseReturned; (repeat' split) <;> simp [ih]

@[simp] theorem releaseReturned_boot (n : Nat) (d : Dev) : (releaseReturned n d).boot = d.boot := by
  induction n generalizing d with
  | zero => rfl
  | succ n ih => unfold releaseReturned; (repeat' split) <;> simp [ih]

@[simp] theorem releaseReturned_par (n : Nat) (d : Dev) : (releaseReturned n d).par = d.par := by
  induction n generalizing d with
  | zero => rfl
  | succ n ih => unfold releaseReturned; (repeat' split) <;> simp [ih]

@[simp] theorem releaseReturned_aud (n : Nat) (d : Dev) : (releaseReturned n d).aud = d.aud := by
  induction n generalizing d with
  | zero => rfl
  | succ n ih => unfold releaseReturned; (repeat' split) <;> simp [ih]

@[simp] theorem releaseReturned_cal (n : Nat) (d : Dev) : (releaseReturned n d).cal = d.cal := by
  induction n generalizing d with
  | zero => rfl
  | succ n ih => unfold releaseReturned; (repeat' split) <;> simp [ih]

@[simp] theorem releaseReturned_mix (n : Nat) (d : Dev) : (releaseReturned n d).mix = d.mix := by
  induction n generalizing d with
  | zero => rfl
  | succ n ih => unfold releaseReturned; (repeat' split) <;> simp [ih]

@[simp] theorem releaseReturned_outs (n : Nat) (d : Dev) : (releaseReturned n d).outs = d.outs := by
  induction n generalizing d with
  | zero => rfl
  | succ n ih => unfold releaseReturned; (repeat' split) <;> simp [ih]

@[simp] theorem releaseReturned_tdm (n : Nat) (d : Dev) : (releaseReturned n d).tdm = d.tdm := by
  induction n generalizing d with
  | zero => rfl
  | succ n ih => unfold releaseReturned; (repeat' split) <;> simp [ih]

@[simp] theorem releaseReturned_ser (n : Nat) (d : Dev) : (releaseReturned n d).ser = d.ser := by
  induction n generalizing d with
  | zero => rfl
  | succ n ih => unfold releaseReturned; (repeat' split) <;> simp [ih]

@[simp] theorem releaseReturned_cas (n : Nat) (d : Dev) : (releaseReturned n d).cas = d.cas := by
  induction n generalizing d with
  | zero => rfl
  | succ n ih => unfold releaseReturned; (repeat' split) <;> simp [ih]

@[simp] theorem admitTask_keeps (o : Offer) (d : Dev) :
    (admitTask o d).1.mem = d.mem ∧ (admitTask o d).1.frame = d.frame ∧ (admitTask o d).1.port = d.port ∧ (admitTask o d).1.win = d.win ∧ (admitTask o d).1.pwr = d.pwr ∧ (admitTask o d).1.mgt = d.mgt ∧ (admitTask o d).1.boot = d.boot ∧ (admitTask o d).1.par = d.par ∧ (admitTask o d).1.aud = d.aud ∧ (admitTask o d).1.cal = d.cal ∧ (admitTask o d).1.mix = d.mix ∧ (admitTask o d).1.outs = d.outs ∧ (admitTask o d).1.tdm = d.tdm ∧ (admitTask o d).1.ser = d.ser ∧ (admitTask o d).1.cas = d.cas := by
  simp -implicitDefEqProofs [admitTask]

@[simp] theorem pushDone_keeps (status tag : Nat) (d : Dev) :
    (pushDone status tag d).fresh = d.fresh ∧ (pushDone status tag d).mem = d.mem ∧ (pushDone status tag d).frame = d.frame ∧ (pushDone status tag d).port = d.port ∧ (pushDone status tag d).win = d.win ∧ (pushDone status tag d).cnt = d.cnt ∧ (pushDone status tag d).pwr = d.pwr ∧ (pushDone status tag d).mgt = d.mgt ∧ (pushDone status tag d).boot = d.boot ∧ (pushDone status tag d).par = d.par ∧ (pushDone status tag d).aud = d.aud ∧ (pushDone status tag d).cal = d.cal ∧ (pushDone status tag d).mix = d.mix ∧ (pushDone status tag d).outs = d.outs ∧ (pushDone status tag d).tdm = d.tdm ∧ (pushDone status tag d).ser = d.ser ∧ (pushDone status tag d).cas = d.cas := by
  simp -implicitDefEqProofs [pushDone]

@[simp] theorem almDoneReadDev_keeps (d : Dev) :
    (almDoneReadDev d).regs = d.regs ∧ (almDoneReadDev d).fresh = d.fresh ∧ (almDoneReadDev d).mem = d.mem ∧ (almDoneReadDev d).frame = d.frame ∧ (almDoneReadDev d).port = d.port ∧ (almDoneReadDev d).win = d.win ∧ (almDoneReadDev d).cnt = d.cnt ∧ (almDoneReadDev d).pwr = d.pwr ∧ (almDoneReadDev d).mgt = d.mgt ∧ (almDoneReadDev d).boot = d.boot ∧ (almDoneReadDev d).par = d.par ∧ (almDoneReadDev d).aud = d.aud ∧ (almDoneReadDev d).cal = d.cal ∧ (almDoneReadDev d).mix = d.mix ∧ (almDoneReadDev d).outs = d.outs ∧ (almDoneReadDev d).tdm = d.tdm ∧ (almDoneReadDev d).ser = d.ser ∧ (almDoneReadDev d).cas = d.cas := by
  simp -implicitDefEqProofs [almDoneReadDev]

@[simp] theorem finishTask_keeps (t : Task) (status : Nat) (d : Dev) :
    (finishTask t status d).fresh = d.fresh ∧ (finishTask t status d).mem = d.mem ∧ (finishTask t status d).frame = d.frame ∧ (finishTask t status d).port = d.port ∧ (finishTask t status d).win = d.win ∧ (finishTask t status d).cnt = d.cnt ∧ (finishTask t status d).pwr = d.pwr ∧ (finishTask t status d).mgt = d.mgt ∧ (finishTask t status d).boot = d.boot ∧ (finishTask t status d).par = d.par ∧ (finishTask t status d).aud = d.aud ∧ (finishTask t status d).cal = d.cal ∧ (finishTask t status d).mix = d.mix ∧ (finishTask t status d).outs = d.outs ∧ (finishTask t status d).tdm = d.tdm ∧ (finishTask t status d).ser = d.ser ∧ (finishTask t status d).cas = d.cas := by
  simp -implicitDefEqProofs [finishTask]

@[simp] theorem forTask_keeps (t : Option Nat) (d : Dev) :
    (forTask t d).regs = d.regs ∧ (forTask t d).fresh = d.fresh ∧ (forTask t d).mem = d.mem ∧ (forTask t d).frame = d.frame ∧ (forTask t d).port = d.port ∧ (forTask t d).win = d.win ∧ (forTask t d).cnt = d.cnt ∧ (forTask t d).pwr = d.pwr ∧ (forTask t d).mgt = d.mgt ∧ (forTask t d).boot = d.boot ∧ (forTask t d).alm = d.alm ∧ (forTask t d).par = d.par ∧ (forTask t d).aud = d.aud ∧ (forTask t d).cal = d.cal ∧ (forTask t d).mix = d.mix ∧ (forTask t d).outs = d.outs ∧ (forTask t d).tdm = d.tdm ∧ (forTask t d).ser = d.ser := by
  simp -implicitDefEqProofs [forTask]

@[simp] theorem fillOne_keeps (tg : Nat) (d : Dev) :
    (fillOne tg d).regs = d.regs ∧ (fillOne tg d).fresh = d.fresh ∧ (fillOne tg d).mem = d.mem ∧ (fillOne tg d).frame = d.frame ∧ (fillOne tg d).port = d.port ∧ (fillOne tg d).win = d.win ∧ (fillOne tg d).cnt = d.cnt ∧ (fillOne tg d).pwr = d.pwr ∧ (fillOne tg d).mgt = d.mgt ∧ (fillOne tg d).boot = d.boot ∧ (fillOne tg d).par = d.par ∧ (fillOne tg d).aud = d.aud ∧ (fillOne tg d).cal = d.cal ∧ (fillOne tg d).mix = d.mix ∧ (fillOne tg d).outs = d.outs ∧ (fillOne tg d).tdm = d.tdm ∧ (fillOne tg d).ser = d.ser ∧ (fillOne tg d).cas = d.cas := by
  unfold fillOne; refine ⟨?_, ?_, ?_, ?_, ?_, ?_, ?_, ?_, ?_, ?_, ?_, ?_, ?_, ?_, ?_, ?_, ?_, ?_⟩ <;> (repeat' split) <;> simp -implicitDefEqProofs

@[simp] theorem slotFill_keeps (d : Dev) :
    (slotFill d).regs = d.regs ∧ (slotFill d).fresh = d.fresh ∧ (slotFill d).mem = d.mem ∧ (slotFill d).frame = d.frame ∧ (slotFill d).port = d.port ∧ (slotFill d).win = d.win ∧ (slotFill d).cnt = d.cnt ∧ (slotFill d).pwr = d.pwr ∧ (slotFill d).mgt = d.mgt ∧ (slotFill d).boot = d.boot ∧ (slotFill d).par = d.par ∧ (slotFill d).aud = d.aud ∧ (slotFill d).cal = d.cal ∧ (slotFill d).mix = d.mix ∧ (slotFill d).outs = d.outs ∧ (slotFill d).tdm = d.tdm ∧ (slotFill d).ser = d.ser ∧ (slotFill d).cas = d.cas := by
  simp -implicitDefEqProofs [slotFill]

@[simp] theorem taskDispatchDev_keeps (i : Nat) (d : Dev) :
    (taskDispatchDev i d).regs = d.regs ∧ (taskDispatchDev i d).fresh = d.fresh ∧ (taskDispatchDev i d).mem = d.mem ∧ (taskDispatchDev i d).frame = d.frame ∧ (taskDispatchDev i d).port = d.port ∧ (taskDispatchDev i d).win = d.win ∧ (taskDispatchDev i d).cnt = d.cnt ∧ (taskDispatchDev i d).pwr = d.pwr ∧ (taskDispatchDev i d).mgt = d.mgt ∧ (taskDispatchDev i d).boot = d.boot ∧ (taskDispatchDev i d).par = d.par ∧ (taskDispatchDev i d).aud = d.aud ∧ (taskDispatchDev i d).cal = d.cal ∧ (taskDispatchDev i d).mix = d.mix ∧ (taskDispatchDev i d).outs = d.outs ∧ (taskDispatchDev i d).tdm = d.tdm ∧ (taskDispatchDev i d).ser = d.ser ∧ (taskDispatchDev i d).cas = d.cas := by
  unfold taskDispatchDev; refine ⟨?_, ?_, ?_, ?_, ?_, ?_, ?_, ?_, ?_, ?_, ?_, ?_, ?_, ?_, ?_, ?_, ?_, ?_⟩ <;> (repeat' split) <;> simp -implicitDefEqProofs

@[simp] theorem taskWorkDoneDev_keeps (i : Nat) (d : Dev) :
    (taskWorkDoneDev i d).regs = d.regs ∧ (taskWorkDoneDev i d).fresh = d.fresh ∧ (taskWorkDoneDev i d).mem = d.mem ∧ (taskWorkDoneDev i d).frame = d.frame ∧ (taskWorkDoneDev i d).port = d.port ∧ (taskWorkDoneDev i d).win = d.win ∧ (taskWorkDoneDev i d).cnt = d.cnt ∧ (taskWorkDoneDev i d).pwr = d.pwr ∧ (taskWorkDoneDev i d).mgt = d.mgt ∧ (taskWorkDoneDev i d).boot = d.boot ∧ (taskWorkDoneDev i d).par = d.par ∧ (taskWorkDoneDev i d).aud = d.aud ∧ (taskWorkDoneDev i d).cal = d.cal ∧ (taskWorkDoneDev i d).mix = d.mix ∧ (taskWorkDoneDev i d).outs = d.outs ∧ (taskWorkDoneDev i d).tdm = d.tdm ∧ (taskWorkDoneDev i d).ser = d.ser ∧ (taskWorkDoneDev i d).cas = d.cas := by
  unfold taskWorkDoneDev; refine ⟨?_, ?_, ?_, ?_, ?_, ?_, ?_, ?_, ?_, ?_, ?_, ?_, ?_, ?_, ?_, ?_, ?_, ?_⟩ <;> (repeat' split) <;> simp -implicitDefEqProofs

@[simp] theorem mgmtTaskDoneDev_keeps (i : Nat) (d : Dev) :
    (mgmtTaskDoneDev i d).regs = d.regs ∧ (mgmtTaskDoneDev i d).fresh = d.fresh ∧ (mgmtTaskDoneDev i d).mem = d.mem ∧ (mgmtTaskDoneDev i d).frame = d.frame ∧ (mgmtTaskDoneDev i d).port = d.port ∧ (mgmtTaskDoneDev i d).win = d.win ∧ (mgmtTaskDoneDev i d).cnt = d.cnt ∧ (mgmtTaskDoneDev i d).pwr = d.pwr ∧ (mgmtTaskDoneDev i d).mgt = d.mgt ∧ (mgmtTaskDoneDev i d).boot = d.boot ∧ (mgmtTaskDoneDev i d).par = d.par ∧ (mgmtTaskDoneDev i d).aud = d.aud ∧ (mgmtTaskDoneDev i d).cal = d.cal ∧ (mgmtTaskDoneDev i d).mix = d.mix ∧ (mgmtTaskDoneDev i d).outs = d.outs ∧ (mgmtTaskDoneDev i d).tdm = d.tdm ∧ (mgmtTaskDoneDev i d).ser = d.ser ∧ (mgmtTaskDoneDev i d).cas = d.cas := by
  unfold mgmtTaskDoneDev; refine ⟨?_, ?_, ?_, ?_, ?_, ?_, ?_, ?_, ?_, ?_, ?_, ?_, ?_, ?_, ?_, ?_, ?_, ?_⟩ <;> (repeat' split) <;> simp -implicitDefEqProofs

@[simp] theorem ephemerisDueDev_keeps (i : Nat) (d : Dev) :
    (ephemerisDueDev i d).fresh = d.fresh ∧ (ephemerisDueDev i d).mem = d.mem ∧ (ephemerisDueDev i d).frame = d.frame ∧ (ephemerisDueDev i d).port = d.port ∧ (ephemerisDueDev i d).win = d.win ∧ (ephemerisDueDev i d).pwr = d.pwr ∧ (ephemerisDueDev i d).mgt = d.mgt ∧ (ephemerisDueDev i d).boot = d.boot ∧ (ephemerisDueDev i d).par = d.par ∧ (ephemerisDueDev i d).aud = d.aud ∧ (ephemerisDueDev i d).cal = d.cal ∧ (ephemerisDueDev i d).mix = d.mix ∧ (ephemerisDueDev i d).outs = d.outs ∧ (ephemerisDueDev i d).tdm = d.tdm ∧ (ephemerisDueDev i d).ser = d.ser ∧ (ephemerisDueDev i d).cas = d.cas := by
  refine ⟨?_, ?_, ?_, ?_, ?_, ?_, ?_, ?_, ?_, ?_, ?_, ?_, ?_, ?_, ?_, ?_⟩ <;> unfold ephemerisDueDev <;> (repeat' split) <;> first | rfl | (dsimp only; done) | simp [*] | simp_all -implicitDefEqProofs

@[simp] theorem releaseListed_keeps (d : Dev) :
    (releaseListed d).fresh = d.fresh ∧ (releaseListed d).mem = d.mem ∧ (releaseListed d).frame = d.frame ∧ (releaseListed d).port = d.port ∧ (releaseListed d).win = d.win ∧ (releaseListed d).pwr = d.pwr ∧ (releaseListed d).mgt = d.mgt ∧ (releaseListed d).boot = d.boot ∧ (releaseListed d).par = d.par ∧ (releaseListed d).aud = d.aud ∧ (releaseListed d).cal = d.cal ∧ (releaseListed d).mix = d.mix ∧ (releaseListed d).outs = d.outs ∧ (releaseListed d).tdm = d.tdm ∧ (releaseListed d).ser = d.ser ∧ (releaseListed d).cas = d.cas := by
  simp -implicitDefEqProofs [releaseListed]

@[simp] theorem almTickDev_keeps (d : Dev) :
    (almTickDev d).regs = d.regs ∧ (almTickDev d).fresh = d.fresh ∧ (almTickDev d).mem = d.mem ∧ (almTickDev d).frame = d.frame ∧ (almTickDev d).port = d.port ∧ (almTickDev d).win = d.win ∧ (almTickDev d).pwr = d.pwr ∧ (almTickDev d).mgt = d.mgt ∧ (almTickDev d).boot = d.boot ∧ (almTickDev d).par = d.par ∧ (almTickDev d).aud = d.aud ∧ (almTickDev d).cal = d.cal ∧ (almTickDev d).mix = d.mix ∧ (almTickDev d).outs = d.outs ∧ (almTickDev d).tdm = d.tdm ∧ (almTickDev d).ser = d.ser ∧ (almTickDev d).cas = d.cas := by
  simp -implicitDefEqProofs [almTickDev]

@[simp] theorem countSlips_keeps (n : Nat) (d : Dev) :
    (countSlips n d).fresh = d.fresh ∧ (countSlips n d).mem = d.mem ∧ (countSlips n d).frame = d.frame ∧ (countSlips n d).port = d.port ∧ (countSlips n d).win = d.win ∧ (countSlips n d).pwr = d.pwr ∧ (countSlips n d).mgt = d.mgt ∧ (countSlips n d).boot = d.boot ∧ (countSlips n d).alm = d.alm ∧ (countSlips n d).par = d.par ∧ (countSlips n d).aud = d.aud ∧ (countSlips n d).cal = d.cal ∧ (countSlips n d).mix = d.mix ∧ (countSlips n d).outs = d.outs ∧ (countSlips n d).tdm = d.tdm ∧ (countSlips n d).ser = d.ser ∧ (countSlips n d).cas = d.cas := by
  simp -implicitDefEqProofs [countSlips]

@[simp] theorem subStep_keeps (d : Dev) :
    (subStep d).regs = d.regs ∧ (subStep d).fresh = d.fresh ∧ (subStep d).mem = d.mem ∧ (subStep d).frame = d.frame ∧ (subStep d).port = d.port ∧ (subStep d).win = d.win ∧ (subStep d).cnt = d.cnt ∧ (subStep d).pwr = d.pwr ∧ (subStep d).mgt = d.mgt ∧ (subStep d).boot = d.boot ∧ (subStep d).par = d.par ∧ (subStep d).aud = d.aud ∧ (subStep d).cal = d.cal ∧ (subStep d).mix = d.mix ∧ (subStep d).outs = d.outs ∧ (subStep d).tdm = d.tdm ∧ (subStep d).ser = d.ser ∧ (subStep d).cas = d.cas := by
  simp -implicitDefEqProofs [subStep]

@[simp] theorem almRelease_keeps (d : Dev) :
    (almRelease d).fresh = d.fresh ∧ (almRelease d).mem = d.mem ∧ (almRelease d).frame = d.frame ∧ (almRelease d).port = d.port ∧ (almRelease d).win = d.win ∧ (almRelease d).pwr = d.pwr ∧ (almRelease d).mgt = d.mgt ∧ (almRelease d).boot = d.boot ∧ (almRelease d).par = d.par ∧ (almRelease d).aud = d.aud ∧ (almRelease d).cal = d.cal ∧ (almRelease d).mix = d.mix ∧ (almRelease d).outs = d.outs ∧ (almRelease d).tdm = d.tdm ∧ (almRelease d).ser = d.ser ∧ (almRelease d).cas = d.cas := by
  refine ⟨?_, ?_, ?_, ?_, ?_, ?_, ?_, ?_, ?_, ?_, ?_, ?_, ?_, ?_, ?_, ?_⟩ <;> (simp only [almRelease]; repeat' split) <;> simp_all -implicitDefEqProofs

@[simp] theorem cancelOne_keeps (t : Task) (d : Dev) :
    (cancelOne t d).fresh = d.fresh ∧ (cancelOne t d).mem = d.mem ∧ (cancelOne t d).frame = d.frame ∧ (cancelOne t d).port = d.port ∧ (cancelOne t d).win = d.win ∧ (cancelOne t d).pwr = d.pwr ∧ (cancelOne t d).mgt = d.mgt ∧ (cancelOne t d).boot = d.boot ∧ (cancelOne t d).par = d.par ∧ (cancelOne t d).aud = d.aud ∧ (cancelOne t d).cal = d.cal ∧ (cancelOne t d).mix = d.mix ∧ (cancelOne t d).outs = d.outs ∧ (cancelOne t d).tdm = d.tdm ∧ (cancelOne t d).ser = d.ser := by
  refine ⟨?_, ?_, ?_, ?_, ?_, ?_, ?_, ?_, ?_, ?_, ?_, ?_, ?_, ?_, ?_⟩ <;> (simp only [cancelOne]; repeat' split) <;> simp_all -implicitDefEqProofs

@[simp] theorem cancelApply_keeps (scope tag mask : Nat) (d : Dev) :
    (cancelApply scope tag mask d).fresh = d.fresh ∧ (cancelApply scope tag mask d).mem = d.mem ∧ (cancelApply scope tag mask d).frame = d.frame ∧ (cancelApply scope tag mask d).port = d.port ∧ (cancelApply scope tag mask d).win = d.win ∧ (cancelApply scope tag mask d).pwr = d.pwr ∧ (cancelApply scope tag mask d).mgt = d.mgt ∧ (cancelApply scope tag mask d).boot = d.boot ∧ (cancelApply scope tag mask d).aud = d.aud ∧ (cancelApply scope tag mask d).cal = d.cal ∧ (cancelApply scope tag mask d).mix = d.mix ∧ (cancelApply scope tag mask d).outs = d.outs ∧ (cancelApply scope tag mask d).tdm = d.tdm ∧ (cancelApply scope tag mask d).ser = d.ser := by
  refine ⟨?_, ?_, ?_, ?_, ?_, ?_, ?_, ?_, ?_, ?_, ?_, ?_, ?_, ?_⟩ <;> (simp only [cancelApply]; repeat' split) <;> simp_all -implicitDefEqProofs

@[simp] theorem postRes_keeps (result reason index : Nat) (d : Dev) :
    (postRes result reason index d).fresh = d.fresh ∧ (postRes result reason index d).mem = d.mem ∧ (postRes result reason index d).frame = d.frame ∧ (postRes result reason index d).port = d.port ∧ (postRes result reason index d).win = d.win ∧ (postRes result reason index d).cnt = d.cnt ∧ (postRes result reason index d).pwr = d.pwr ∧ (postRes result reason index d).mgt = d.mgt ∧ (postRes result reason index d).boot = d.boot ∧ (postRes result reason index d).alm = d.alm ∧ (postRes result reason index d).par = d.par ∧ (postRes result reason index d).aud = d.aud ∧ (postRes result reason index d).cal = d.cal ∧ (postRes result reason index d).mix = d.mix ∧ (postRes result reason index d).outs = d.outs ∧ (postRes result reason index d).tdm = d.tdm ∧ (postRes result reason index d).ser = d.ser ∧ (postRes result reason index d).cas = d.cas := by
  simp -implicitDefEqProofs [postRes]

@[simp] theorem hostPostDev_keeps (v : Word) (d : Dev) :
    (hostPostDev v d).mem = d.mem ∧ (hostPostDev v d).frame = d.frame ∧ (hostPostDev v d).port = d.port ∧ (hostPostDev v d).win = d.win ∧ (hostPostDev v d).pwr = d.pwr ∧ (hostPostDev v d).mgt = d.mgt ∧ (hostPostDev v d).boot = d.boot ∧ (hostPostDev v d).par = d.par ∧ (hostPostDev v d).aud = d.aud ∧ (hostPostDev v d).cal = d.cal ∧ (hostPostDev v d).mix = d.mix ∧ (hostPostDev v d).outs = d.outs ∧ (hostPostDev v d).tdm = d.tdm ∧ (hostPostDev v d).ser = d.ser ∧ (hostPostDev v d).cas = d.cas := by
  simp -implicitDefEqProofs [hostPostDev]

@[simp] theorem mgmtPostDev_keeps (image : List Word) (d : Dev) :
    (mgmtPostDev image d).mem = d.mem ∧ (mgmtPostDev image d).frame = d.frame ∧ (mgmtPostDev image d).port = d.port ∧ (mgmtPostDev image d).win = d.win ∧ (mgmtPostDev image d).pwr = d.pwr ∧ (mgmtPostDev image d).mgt = d.mgt ∧ (mgmtPostDev image d).boot = d.boot ∧ (mgmtPostDev image d).par = d.par ∧ (mgmtPostDev image d).aud = d.aud ∧ (mgmtPostDev image d).cal = d.cal ∧ (mgmtPostDev image d).mix = d.mix ∧ (mgmtPostDev image d).outs = d.outs ∧ (mgmtPostDev image d).tdm = d.tdm ∧ (mgmtPostDev image d).ser = d.ser ∧ (mgmtPostDev image d).cas = d.cas := by
  simp -implicitDefEqProofs [mgmtPostDev]

@[simp] theorem paramReroute_keeps (c : Nat) (d : Dev) :
    (paramReroute c d).regs = d.regs ∧ (paramReroute c d).fresh = d.fresh ∧ (paramReroute c d).mem = d.mem ∧ (paramReroute c d).frame = d.frame ∧ (paramReroute c d).port = d.port ∧ (paramReroute c d).win = d.win ∧ (paramReroute c d).cnt = d.cnt ∧ (paramReroute c d).pwr = d.pwr ∧ (paramReroute c d).mgt = d.mgt ∧ (paramReroute c d).boot = d.boot ∧ (paramReroute c d).par = d.par ∧ (paramReroute c d).aud = d.aud ∧ (paramReroute c d).cal = d.cal ∧ (paramReroute c d).mix = d.mix ∧ (paramReroute c d).outs = d.outs ∧ (paramReroute c d).tdm = d.tdm ∧ (paramReroute c d).ser = d.ser ∧ (paramReroute c d).cas = d.cas := by
  simp -implicitDefEqProofs [paramReroute]

@[simp] theorem mirrorVoice_keeps (v : Nat) (d : Dev) :
    (mirrorVoice v d).fresh = d.fresh ∧ (mirrorVoice v d).frame = d.frame ∧ (mirrorVoice v d).win = d.win ∧ (mirrorVoice v d).pwr = d.pwr ∧ (mirrorVoice v d).mgt = d.mgt ∧ (mirrorVoice v d).boot = d.boot ∧ (mirrorVoice v d).alm = d.alm ∧ (mirrorVoice v d).par = d.par ∧ (mirrorVoice v d).aud = d.aud ∧ (mirrorVoice v d).cal = d.cal ∧ (mirrorVoice v d).mix = d.mix ∧ (mirrorVoice v d).outs = d.outs ∧ (mirrorVoice v d).tdm = d.tdm ∧ (mirrorVoice v d).ser = d.ser ∧ (mirrorVoice v d).cas = d.cas := by
  simp -implicitDefEqProofs [mirrorVoice]

@[simp] theorem setVoice_keeps (v : Nat) (f : Voice → Voice) (d : Dev) :
    (setVoice v f d).fresh = d.fresh ∧ (setVoice v f d).frame = d.frame ∧ (setVoice v f d).win = d.win ∧ (setVoice v f d).pwr = d.pwr ∧ (setVoice v f d).mgt = d.mgt ∧ (setVoice v f d).boot = d.boot ∧ (setVoice v f d).alm = d.alm ∧ (setVoice v f d).aud = d.aud ∧ (setVoice v f d).cal = d.cal ∧ (setVoice v f d).mix = d.mix ∧ (setVoice v f d).outs = d.outs ∧ (setVoice v f d).tdm = d.tdm ∧ (setVoice v f d).ser = d.ser ∧ (setVoice v f d).cas = d.cas := by
  simp -implicitDefEqProofs [setVoice]

@[simp] theorem requestLine_keeps (c lane : Nat) (stream : Option (Nat × Nat × Nat)) (rank line : Nat) (d : Dev) :
    (requestLine c lane stream rank line d).fresh = d.fresh ∧ (requestLine c lane stream rank line d).mem = d.mem ∧ (requestLine c lane stream rank line d).frame = d.frame ∧ (requestLine c lane stream rank line d).port = d.port ∧ (requestLine c lane stream rank line d).win = d.win ∧ (requestLine c lane stream rank line d).cnt = d.cnt ∧ (requestLine c lane stream rank line d).pwr = d.pwr ∧ (requestLine c lane stream rank line d).mgt = d.mgt ∧ (requestLine c lane stream rank line d).boot = d.boot ∧ (requestLine c lane stream rank line d).alm = d.alm ∧ (requestLine c lane stream rank line d).par = d.par ∧ (requestLine c lane stream rank line d).cal = d.cal ∧ (requestLine c lane stream rank line d).mix = d.mix ∧ (requestLine c lane stream rank line d).outs = d.outs ∧ (requestLine c lane stream rank line d).tdm = d.tdm ∧ (requestLine c lane stream rank line d).ser = d.ser ∧ (requestLine c lane stream rank line d).cas = d.cas := by
  simp -implicitDefEqProofs [requestLine]

@[simp] theorem requestLines_keeps (c lane : Nat) (ls : List Nat) (d : Dev) :
    (requestLines c lane ls d).fresh = d.fresh ∧ (requestLines c lane ls d).mem = d.mem ∧ (requestLines c lane ls d).frame = d.frame ∧ (requestLines c lane ls d).port = d.port ∧ (requestLines c lane ls d).win = d.win ∧ (requestLines c lane ls d).cnt = d.cnt ∧ (requestLines c lane ls d).pwr = d.pwr ∧ (requestLines c lane ls d).mgt = d.mgt ∧ (requestLines c lane ls d).boot = d.boot ∧ (requestLines c lane ls d).alm = d.alm ∧ (requestLines c lane ls d).par = d.par ∧ (requestLines c lane ls d).cal = d.cal ∧ (requestLines c lane ls d).mix = d.mix ∧ (requestLines c lane ls d).outs = d.outs ∧ (requestLines c lane ls d).tdm = d.tdm ∧ (requestLines c lane ls d).ser = d.ser ∧ (requestLines c lane ls d).cas = d.cas := by
  simp -implicitDefEqProofs [requestLines]

@[simp] theorem requestRest_keeps (v i : Nat) (ls : List Nat) (d : Dev) :
    (requestRest v i ls d).fresh = d.fresh ∧ (requestRest v i ls d).mem = d.mem ∧ (requestRest v i ls d).frame = d.frame ∧ (requestRest v i ls d).port = d.port ∧ (requestRest v i ls d).win = d.win ∧ (requestRest v i ls d).cnt = d.cnt ∧ (requestRest v i ls d).pwr = d.pwr ∧ (requestRest v i ls d).mgt = d.mgt ∧ (requestRest v i ls d).boot = d.boot ∧ (requestRest v i ls d).alm = d.alm ∧ (requestRest v i ls d).par = d.par ∧ (requestRest v i ls d).cal = d.cal ∧ (requestRest v i ls d).mix = d.mix ∧ (requestRest v i ls d).outs = d.outs ∧ (requestRest v i ls d).tdm = d.tdm ∧ (requestRest v i ls d).ser = d.ser ∧ (requestRest v i ls d).cas = d.cas := by
  simp -implicitDefEqProofs [requestRest]

@[simp] theorem cacheLineFillDev_keeps (c line : Nat) (d : Dev) :
    (cacheLineFillDev c line d).frame = d.frame ∧ (cacheLineFillDev c line d).port = d.port ∧ (cacheLineFillDev c line d).win = d.win ∧ (cacheLineFillDev c line d).pwr = d.pwr ∧ (cacheLineFillDev c line d).mgt = d.mgt ∧ (cacheLineFillDev c line d).boot = d.boot ∧ (cacheLineFillDev c line d).alm = d.alm ∧ (cacheLineFillDev c line d).par = d.par ∧ (cacheLineFillDev c line d).cal = d.cal ∧ (cacheLineFillDev c line d).mix = d.mix ∧ (cacheLineFillDev c line d).outs = d.outs ∧ (cacheLineFillDev c line d).tdm = d.tdm ∧ (cacheLineFillDev c line d).ser = d.ser ∧ (cacheLineFillDev c line d).cas = d.cas := by
  unfold cacheLineFillDev; refine ⟨?_, ?_, ?_, ?_, ?_, ?_, ?_, ?_, ?_, ?_, ?_, ?_, ?_, ?_⟩ <;> (repeat' split) <;> simp -implicitDefEqProofs

@[simp] theorem dramInvalidate_keeps (ls : List Nat) (d : Dev) :
    (dramInvalidate ls d).fresh = d.fresh ∧ (dramInvalidate ls d).mem = d.mem ∧ (dramInvalidate ls d).frame = d.frame ∧ (dramInvalidate ls d).port = d.port ∧ (dramInvalidate ls d).win = d.win ∧ (dramInvalidate ls d).cnt = d.cnt ∧ (dramInvalidate ls d).pwr = d.pwr ∧ (dramInvalidate ls d).mgt = d.mgt ∧ (dramInvalidate ls d).boot = d.boot ∧ (dramInvalidate ls d).alm = d.alm ∧ (dramInvalidate ls d).par = d.par ∧ (dramInvalidate ls d).cal = d.cal ∧ (dramInvalidate ls d).mix = d.mix ∧ (dramInvalidate ls d).outs = d.outs ∧ (dramInvalidate ls d).tdm = d.tdm ∧ (dramInvalidate ls d).ser = d.ser ∧ (dramInvalidate ls d).cas = d.cas := by
  simp -implicitDefEqProofs [dramInvalidate]

@[simp] theorem waveCacheInvalDev_keeps (c : Nat) (v : Word) (d : Dev) :
    (waveCacheInvalDev c v d).regs = d.regs ∧ (waveCacheInvalDev c v d).fresh = d.fresh ∧ (waveCacheInvalDev c v d).mem = d.mem ∧ (waveCacheInvalDev c v d).frame = d.frame ∧ (waveCacheInvalDev c v d).port = d.port ∧ (waveCacheInvalDev c v d).win = d.win ∧ (waveCacheInvalDev c v d).cnt = d.cnt ∧ (waveCacheInvalDev c v d).pwr = d.pwr ∧ (waveCacheInvalDev c v d).mgt = d.mgt ∧ (waveCacheInvalDev c v d).boot = d.boot ∧ (waveCacheInvalDev c v d).alm = d.alm ∧ (waveCacheInvalDev c v d).par = d.par ∧ (waveCacheInvalDev c v d).cal = d.cal ∧ (waveCacheInvalDev c v d).mix = d.mix ∧ (waveCacheInvalDev c v d).outs = d.outs ∧ (waveCacheInvalDev c v d).tdm = d.tdm ∧ (waveCacheInvalDev c v d).ser = d.ser ∧ (waveCacheInvalDev c v d).cas = d.cas := by
  simp -implicitDefEqProofs [waveCacheInvalDev]

@[simp] theorem pinnedLineInvalDev_keeps (c line : Nat) (d : Dev) :
    (pinnedLineInvalDev c line d).regs = d.regs ∧ (pinnedLineInvalDev c line d).fresh = d.fresh ∧ (pinnedLineInvalDev c line d).mem = d.mem ∧ (pinnedLineInvalDev c line d).frame = d.frame ∧ (pinnedLineInvalDev c line d).port = d.port ∧ (pinnedLineInvalDev c line d).win = d.win ∧ (pinnedLineInvalDev c line d).cnt = d.cnt ∧ (pinnedLineInvalDev c line d).pwr = d.pwr ∧ (pinnedLineInvalDev c line d).mgt = d.mgt ∧ (pinnedLineInvalDev c line d).boot = d.boot ∧ (pinnedLineInvalDev c line d).alm = d.alm ∧ (pinnedLineInvalDev c line d).par = d.par ∧ (pinnedLineInvalDev c line d).cal = d.cal ∧ (pinnedLineInvalDev c line d).mix = d.mix ∧ (pinnedLineInvalDev c line d).outs = d.outs ∧ (pinnedLineInvalDev c line d).tdm = d.tdm ∧ (pinnedLineInvalDev c line d).ser = d.ser ∧ (pinnedLineInvalDev c line d).cas = d.cas := by
  simp -implicitDefEqProofs [pinnedLineInvalDev]

@[simp] theorem glfoRestartAt_keeps (mask : Nat) (b : Nat) (d : Dev) :
    (glfoRestartAt mask b d).regs = d.regs ∧ (glfoRestartAt mask b d).fresh = d.fresh ∧ (glfoRestartAt mask b d).mem = d.mem ∧ (glfoRestartAt mask b d).frame = d.frame ∧ (glfoRestartAt mask b d).port = d.port ∧ (glfoRestartAt mask b d).win = d.win ∧ (glfoRestartAt mask b d).cnt = d.cnt ∧ (glfoRestartAt mask b d).pwr = d.pwr ∧ (glfoRestartAt mask b d).mgt = d.mgt ∧ (glfoRestartAt mask b d).boot = d.boot ∧ (glfoRestartAt mask b d).alm = d.alm ∧ (glfoRestartAt mask b d).par = d.par ∧ (glfoRestartAt mask b d).cal = d.cal ∧ (glfoRestartAt mask b d).mix = d.mix ∧ (glfoRestartAt mask b d).outs = d.outs ∧ (glfoRestartAt mask b d).tdm = d.tdm ∧ (glfoRestartAt mask b d).ser = d.ser ∧ (glfoRestartAt mask b d).cas = d.cas := by
  simp -implicitDefEqProofs [glfoRestartAt]

@[simp] theorem routeErrors_keeps (c tile : Nat) (words old : List Nat) (all : Bool) (d : Dev) :
    (routeErrors c tile words old all d).fresh = d.fresh ∧ (routeErrors c tile words old all d).mem = d.mem ∧ (routeErrors c tile words old all d).frame = d.frame ∧ (routeErrors c tile words old all d).port = d.port ∧ (routeErrors c tile words old all d).win = d.win ∧ (routeErrors c tile words old all d).cnt = d.cnt ∧ (routeErrors c tile words old all d).pwr = d.pwr ∧ (routeErrors c tile words old all d).mgt = d.mgt ∧ (routeErrors c tile words old all d).boot = d.boot ∧ (routeErrors c tile words old all d).alm = d.alm ∧ (routeErrors c tile words old all d).par = d.par ∧ (routeErrors c tile words old all d).aud = d.aud ∧ (routeErrors c tile words old all d).cal = d.cal ∧ (routeErrors c tile words old all d).mix = d.mix ∧ (routeErrors c tile words old all d).outs = d.outs ∧ (routeErrors c tile words old all d).tdm = d.tdm ∧ (routeErrors c tile words old all d).ser = d.ser ∧ (routeErrors c tile words old all d).cas = d.cas := by
  simp -implicitDefEqProofs [routeErrors]

@[simp] theorem cfRead_keeps (v : Nat) (d : Dev) :
    (cfRead v d).regs = d.regs ∧ (cfRead v d).fresh = d.fresh ∧ (cfRead v d).frame = d.frame ∧ (cfRead v d).port = d.port ∧ (cfRead v d).win = d.win ∧ (cfRead v d).cnt = d.cnt ∧ (cfRead v d).pwr = d.pwr ∧ (cfRead v d).mgt = d.mgt ∧ (cfRead v d).boot = d.boot ∧ (cfRead v d).alm = d.alm ∧ (cfRead v d).par = d.par ∧ (cfRead v d).cal = d.cal ∧ (cfRead v d).mix = d.mix ∧ (cfRead v d).outs = d.outs ∧ (cfRead v d).tdm = d.tdm ∧ (cfRead v d).ser = d.ser ∧ (cfRead v d).cas = d.cas := by
  simp -implicitDefEqProofs [cfRead]

@[simp] theorem evalPoint_keeps (v b : Nat) (d : Dev) :
    (evalPoint v b d).fresh = d.fresh ∧ (evalPoint v b d).mem = d.mem ∧ (evalPoint v b d).frame = d.frame ∧ (evalPoint v b d).port = d.port ∧ (evalPoint v b d).win = d.win ∧ (evalPoint v b d).cnt = d.cnt ∧ (evalPoint v b d).pwr = d.pwr ∧ (evalPoint v b d).mgt = d.mgt ∧ (evalPoint v b d).boot = d.boot ∧ (evalPoint v b d).alm = d.alm ∧ (evalPoint v b d).par = d.par ∧ (evalPoint v b d).cal = d.cal ∧ (evalPoint v b d).mix = d.mix ∧ (evalPoint v b d).outs = d.outs ∧ (evalPoint v b d).tdm = d.tdm ∧ (evalPoint v b d).ser = d.ser ∧ (evalPoint v b d).cas = d.cas := by
  simp -implicitDefEqProofs [evalPoint]

@[simp] theorem evalNext_keeps (v : Nat) (d : Dev) :
    (evalNext v d).fresh = d.fresh ∧ (evalNext v d).mem = d.mem ∧ (evalNext v d).frame = d.frame ∧ (evalNext v d).port = d.port ∧ (evalNext v d).win = d.win ∧ (evalNext v d).cnt = d.cnt ∧ (evalNext v d).pwr = d.pwr ∧ (evalNext v d).mgt = d.mgt ∧ (evalNext v d).boot = d.boot ∧ (evalNext v d).alm = d.alm ∧ (evalNext v d).par = d.par ∧ (evalNext v d).cal = d.cal ∧ (evalNext v d).mix = d.mix ∧ (evalNext v d).outs = d.outs ∧ (evalNext v d).tdm = d.tdm ∧ (evalNext v d).ser = d.ser ∧ (evalNext v d).cas = d.cas := by
  simp -implicitDefEqProofs [evalNext]

@[simp] theorem evalVoice_keeps (v B : Nat) (d : Dev) :
    (evalVoice v B d).fresh = d.fresh ∧ (evalVoice v B d).mem = d.mem ∧ (evalVoice v B d).frame = d.frame ∧ (evalVoice v B d).port = d.port ∧ (evalVoice v B d).win = d.win ∧ (evalVoice v B d).cnt = d.cnt ∧ (evalVoice v B d).pwr = d.pwr ∧ (evalVoice v B d).mgt = d.mgt ∧ (evalVoice v B d).boot = d.boot ∧ (evalVoice v B d).alm = d.alm ∧ (evalVoice v B d).par = d.par ∧ (evalVoice v B d).cal = d.cal ∧ (evalVoice v B d).mix = d.mix ∧ (evalVoice v B d).outs = d.outs ∧ (evalVoice v B d).tdm = d.tdm ∧ (evalVoice v B d).ser = d.ser ∧ (evalVoice v B d).cas = d.cas := by
  refine ⟨?_, ?_, ?_, ?_, ?_, ?_, ?_, ?_, ?_, ?_, ?_, ?_, ?_, ?_, ?_, ?_, ?_⟩ <;> (unfold evalVoice; dsimp only; repeat' split) <;> simp -implicitDefEqProofs

@[simp] theorem levelWrite_keeps (v : Nat) (d : Dev) :
    (levelWrite v d).fresh = d.fresh ∧ (levelWrite v d).frame = d.frame ∧ (levelWrite v d).win = d.win ∧ (levelWrite v d).pwr = d.pwr ∧ (levelWrite v d).mgt = d.mgt ∧ (levelWrite v d).boot = d.boot ∧ (levelWrite v d).alm = d.alm ∧ (levelWrite v d).par = d.par ∧ (levelWrite v d).cal = d.cal ∧ (levelWrite v d).mix = d.mix ∧ (levelWrite v d).outs = d.outs ∧ (levelWrite v d).tdm = d.tdm ∧ (levelWrite v d).ser = d.ser ∧ (levelWrite v d).cas = d.cas := by
  unfold levelWrite; refine ⟨?_, ?_, ?_, ?_, ?_, ?_, ?_, ?_, ?_, ?_, ?_, ?_, ?_, ?_⟩ <;> (repeat' split) <;> simp -implicitDefEqProofs

@[simp] theorem envSegmentEndDev_keeps (v env : Nat) (d : Dev) :
    (envSegmentEndDev v env d).regs = d.regs ∧ (envSegmentEndDev v env d).fresh = d.fresh ∧ (envSegmentEndDev v env d).mem = d.mem ∧ (envSegmentEndDev v env d).frame = d.frame ∧ (envSegmentEndDev v env d).port = d.port ∧ (envSegmentEndDev v env d).win = d.win ∧ (envSegmentEndDev v env d).cnt = d.cnt ∧ (envSegmentEndDev v env d).pwr = d.pwr ∧ (envSegmentEndDev v env d).mgt = d.mgt ∧ (envSegmentEndDev v env d).boot = d.boot ∧ (envSegmentEndDev v env d).alm = d.alm ∧ (envSegmentEndDev v env d).par = d.par ∧ (envSegmentEndDev v env d).cal = d.cal ∧ (envSegmentEndDev v env d).mix = d.mix ∧ (envSegmentEndDev v env d).outs = d.outs ∧ (envSegmentEndDev v env d).tdm = d.tdm ∧ (envSegmentEndDev v env d).ser = d.ser ∧ (envSegmentEndDev v env d).cas = d.cas := by
  unfold envSegmentEndDev; refine ⟨?_, ?_, ?_, ?_, ?_, ?_, ?_, ?_, ?_, ?_, ?_, ?_, ?_, ?_, ?_, ?_, ?_, ?_⟩ <;> (repeat' split) <;> simp -implicitDefEqProofs

@[simp] theorem voiceFrame_keeps (v t : Nat) (d : Dev) :
    (voiceFrame v t d).1.fresh = d.fresh ∧ (voiceFrame v t d).1.mem = d.mem ∧ (voiceFrame v t d).1.frame = d.frame ∧ (voiceFrame v t d).1.port = d.port ∧ (voiceFrame v t d).1.win = d.win ∧ (voiceFrame v t d).1.pwr = d.pwr ∧ (voiceFrame v t d).1.mgt = d.mgt ∧ (voiceFrame v t d).1.boot = d.boot ∧ (voiceFrame v t d).1.alm = d.alm ∧ (voiceFrame v t d).1.par = d.par ∧ (voiceFrame v t d).1.cal = d.cal ∧ (voiceFrame v t d).1.mix = d.mix ∧ (voiceFrame v t d).1.outs = d.outs ∧ (voiceFrame v t d).1.tdm = d.tdm ∧ (voiceFrame v t d).1.ser = d.ser ∧ (voiceFrame v t d).1.cas = d.cas := by
  refine ⟨?_, ?_, ?_, ?_, ?_, ?_, ?_, ?_, ?_, ?_, ?_, ?_, ?_, ?_, ?_, ?_⟩ <;> (simp only [voiceFrame]; split <;> simp -implicitDefEqProofs)

@[simp] theorem voiceState_keeps (v t : Nat) (d : Dev) :
    (voiceState v t d).fresh = d.fresh ∧ (voiceState v t d).mem = d.mem ∧ (voiceState v t d).frame = d.frame ∧ (voiceState v t d).port = d.port ∧ (voiceState v t d).win = d.win ∧ (voiceState v t d).cnt = d.cnt ∧ (voiceState v t d).pwr = d.pwr ∧ (voiceState v t d).mgt = d.mgt ∧ (voiceState v t d).boot = d.boot ∧ (voiceState v t d).alm = d.alm ∧ (voiceState v t d).par = d.par ∧ (voiceState v t d).cal = d.cal ∧ (voiceState v t d).mix = d.mix ∧ (voiceState v t d).outs = d.outs ∧ (voiceState v t d).tdm = d.tdm ∧ (voiceState v t d).ser = d.ser ∧ (voiceState v t d).cas = d.cas := by
  simp -implicitDefEqProofs [voiceState]

@[simp] theorem cellApply_keeps (v t : Nat) (d : Dev) :
    (cellApply v t d).regs = d.regs ∧ (cellApply v t d).fresh = d.fresh ∧ (cellApply v t d).mem = d.mem ∧ (cellApply v t d).frame = d.frame ∧ (cellApply v t d).port = d.port ∧ (cellApply v t d).win = d.win ∧ (cellApply v t d).cnt = d.cnt ∧ (cellApply v t d).pwr = d.pwr ∧ (cellApply v t d).mgt = d.mgt ∧ (cellApply v t d).boot = d.boot ∧ (cellApply v t d).alm = d.alm ∧ (cellApply v t d).par = d.par ∧ (cellApply v t d).cal = d.cal ∧ (cellApply v t d).mix = d.mix ∧ (cellApply v t d).outs = d.outs ∧ (cellApply v t d).tdm = d.tdm ∧ (cellApply v t d).ser = d.ser ∧ (cellApply v t d).cas = d.cas := by
  simp -implicitDefEqProofs [cellApply]

@[simp] theorem cellCodes_keeps (v t : Nat) (d : Dev) :
    (cellCodes v t d).regs = d.regs ∧ (cellCodes v t d).fresh = d.fresh ∧ (cellCodes v t d).mem = d.mem ∧ (cellCodes v t d).frame = d.frame ∧ (cellCodes v t d).port = d.port ∧ (cellCodes v t d).win = d.win ∧ (cellCodes v t d).cnt = d.cnt ∧ (cellCodes v t d).pwr = d.pwr ∧ (cellCodes v t d).mgt = d.mgt ∧ (cellCodes v t d).boot = d.boot ∧ (cellCodes v t d).alm = d.alm ∧ (cellCodes v t d).par = d.par ∧ (cellCodes v t d).cal = d.cal ∧ (cellCodes v t d).mix = d.mix ∧ (cellCodes v t d).outs = d.outs ∧ (cellCodes v t d).tdm = d.tdm ∧ (cellCodes v t d).ser = d.ser ∧ (cellCodes v t d).cas = d.cas := by
  simp -implicitDefEqProofs [cellCodes]

@[simp] theorem cfVoice_keeps (B v : Nat) (d : Dev) :
    (cfVoice B v d).fresh = d.fresh ∧ (cfVoice B v d).frame = d.frame ∧ (cfVoice B v d).win = d.win ∧ (cfVoice B v d).pwr = d.pwr ∧ (cfVoice B v d).mgt = d.mgt ∧ (cfVoice B v d).boot = d.boot ∧ (cfVoice B v d).alm = d.alm ∧ (cfVoice B v d).par = d.par ∧ (cfVoice B v d).cal = d.cal ∧ (cfVoice B v d).mix = d.mix ∧ (cfVoice B v d).outs = d.outs ∧ (cfVoice B v d).tdm = d.tdm ∧ (cfVoice B v d).ser = d.ser ∧ (cfVoice B v d).cas = d.cas := by
  simp -implicitDefEqProofs [cfVoice]

@[simp] theorem cfBoundaryDev_keeps (d : Dev) :
    (cfBoundaryDev d).fresh = d.fresh ∧ (cfBoundaryDev d).frame = d.frame ∧ (cfBoundaryDev d).win = d.win ∧ (cfBoundaryDev d).pwr = d.pwr ∧ (cfBoundaryDev d).mgt = d.mgt ∧ (cfBoundaryDev d).boot = d.boot ∧ (cfBoundaryDev d).alm = d.alm ∧ (cfBoundaryDev d).par = d.par ∧ (cfBoundaryDev d).cal = d.cal ∧ (cfBoundaryDev d).mix = d.mix ∧ (cfBoundaryDev d).outs = d.outs ∧ (cfBoundaryDev d).tdm = d.tdm ∧ (cfBoundaryDev d).ser = d.ser ∧ (cfBoundaryDev d).cas = d.cas := by
  simp -implicitDefEqProofs [cfBoundaryDev]

@[simp] theorem cellRun_keeps (v : Nat) (d : Dev) :
    (cellRun v d).1.mem = d.mem ∧ (cellRun v d).1.frame = d.frame ∧ (cellRun v d).1.port = d.port ∧ (cellRun v d).1.win = d.win ∧ (cellRun v d).1.cnt = d.cnt ∧ (cellRun v d).1.pwr = d.pwr ∧ (cellRun v d).1.mgt = d.mgt ∧ (cellRun v d).1.boot = d.boot ∧ (cellRun v d).1.alm = d.alm ∧ (cellRun v d).1.par = d.par ∧ (cellRun v d).1.cal = d.cal ∧ (cellRun v d).1.mix = d.mix ∧ (cellRun v d).1.outs = d.outs ∧ (cellRun v d).1.tdm = d.tdm ∧ (cellRun v d).1.ser = d.ser ∧ (cellRun v d).1.cas = d.cas := by
  simp -implicitDefEqProofs [cellRun]

@[simp] theorem dacLatch_keeps (v t : Nat) (d : Dev) :
    (dacLatch v t d).regs = d.regs ∧ (dacLatch v t d).fresh = d.fresh ∧ (dacLatch v t d).mem = d.mem ∧ (dacLatch v t d).frame = d.frame ∧ (dacLatch v t d).port = d.port ∧ (dacLatch v t d).win = d.win ∧ (dacLatch v t d).cnt = d.cnt ∧ (dacLatch v t d).pwr = d.pwr ∧ (dacLatch v t d).mgt = d.mgt ∧ (dacLatch v t d).boot = d.boot ∧ (dacLatch v t d).alm = d.alm ∧ (dacLatch v t d).par = d.par ∧ (dacLatch v t d).cal = d.cal ∧ (dacLatch v t d).mix = d.mix ∧ (dacLatch v t d).outs = d.outs ∧ (dacLatch v t d).tdm = d.tdm ∧ (dacLatch v t d).ser = d.ser ∧ (dacLatch v t d).cas = d.cas := by
  simp -implicitDefEqProofs [dacLatch]

@[simp] theorem quenchCell_keeps (v : Nat) (again : Bool) (d : Dev) :
    (quenchCell v again d).regs = d.regs ∧ (quenchCell v again d).fresh = d.fresh ∧ (quenchCell v again d).mem = d.mem ∧ (quenchCell v again d).frame = d.frame ∧ (quenchCell v again d).port = d.port ∧ (quenchCell v again d).win = d.win ∧ (quenchCell v again d).cnt = d.cnt ∧ (quenchCell v again d).pwr = d.pwr ∧ (quenchCell v again d).mgt = d.mgt ∧ (quenchCell v again d).boot = d.boot ∧ (quenchCell v again d).alm = d.alm ∧ (quenchCell v again d).par = d.par ∧ (quenchCell v again d).cal = d.cal ∧ (quenchCell v again d).mix = d.mix ∧ (quenchCell v again d).outs = d.outs ∧ (quenchCell v again d).tdm = d.tdm ∧ (quenchCell v again d).ser = d.ser ∧ (quenchCell v again d).cas = d.cas := by
  simp -implicitDefEqProofs [quenchCell]

@[simp] theorem quenchSwitchOpenDev_keeps (v : Nat) (d : Dev) :
    (quenchSwitchOpenDev v d).regs = d.regs ∧ (quenchSwitchOpenDev v d).fresh = d.fresh ∧ (quenchSwitchOpenDev v d).mem = d.mem ∧ (quenchSwitchOpenDev v d).frame = d.frame ∧ (quenchSwitchOpenDev v d).port = d.port ∧ (quenchSwitchOpenDev v d).win = d.win ∧ (quenchSwitchOpenDev v d).cnt = d.cnt ∧ (quenchSwitchOpenDev v d).pwr = d.pwr ∧ (quenchSwitchOpenDev v d).mgt = d.mgt ∧ (quenchSwitchOpenDev v d).boot = d.boot ∧ (quenchSwitchOpenDev v d).alm = d.alm ∧ (quenchSwitchOpenDev v d).par = d.par ∧ (quenchSwitchOpenDev v d).cal = d.cal ∧ (quenchSwitchOpenDev v d).mix = d.mix ∧ (quenchSwitchOpenDev v d).outs = d.outs ∧ (quenchSwitchOpenDev v d).tdm = d.tdm ∧ (quenchSwitchOpenDev v d).ser = d.ser ∧ (quenchSwitchOpenDev v d).cas = d.cas := by
  simp -implicitDefEqProofs [quenchSwitchOpenDev]

@[simp] theorem adcOverloadDev_keeps (v : Nat) (d : Dev) :
    (adcOverloadDev v d).fresh = d.fresh ∧ (adcOverloadDev v d).mem = d.mem ∧ (adcOverloadDev v d).frame = d.frame ∧ (adcOverloadDev v d).port = d.port ∧ (adcOverloadDev v d).win = d.win ∧ (adcOverloadDev v d).cnt = d.cnt ∧ (adcOverloadDev v d).pwr = d.pwr ∧ (adcOverloadDev v d).mgt = d.mgt ∧ (adcOverloadDev v d).boot = d.boot ∧ (adcOverloadDev v d).alm = d.alm ∧ (adcOverloadDev v d).par = d.par ∧ (adcOverloadDev v d).cal = d.cal ∧ (adcOverloadDev v d).mix = d.mix ∧ (adcOverloadDev v d).outs = d.outs ∧ (adcOverloadDev v d).tdm = d.tdm ∧ (adcOverloadDev v d).ser = d.ser ∧ (adcOverloadDev v d).cas = d.cas := by
  simp -implicitDefEqProofs [adcOverloadDev]

@[simp] theorem biasFaultDev_keeps (v : Nat) (d : Dev) :
    (biasFaultDev v d).fresh = d.fresh ∧ (biasFaultDev v d).mem = d.mem ∧ (biasFaultDev v d).frame = d.frame ∧ (biasFaultDev v d).port = d.port ∧ (biasFaultDev v d).win = d.win ∧ (biasFaultDev v d).cnt = d.cnt ∧ (biasFaultDev v d).pwr = d.pwr ∧ (biasFaultDev v d).mgt = d.mgt ∧ (biasFaultDev v d).boot = d.boot ∧ (biasFaultDev v d).alm = d.alm ∧ (biasFaultDev v d).par = d.par ∧ (biasFaultDev v d).aud = d.aud ∧ (biasFaultDev v d).cal = d.cal ∧ (biasFaultDev v d).mix = d.mix ∧ (biasFaultDev v d).outs = d.outs ∧ (biasFaultDev v d).tdm = d.tdm ∧ (biasFaultDev v d).ser = d.ser ∧ (biasFaultDev v d).cas = d.cas := by
  simp -implicitDefEqProofs [biasFaultDev]

@[simp] theorem skimRelease_keeps (v : Nat) (codes : List Int) (d : Dev) :
    (skimRelease v codes d).regs = d.regs ∧ (skimRelease v codes d).fresh = d.fresh ∧ (skimRelease v codes d).mem = d.mem ∧ (skimRelease v codes d).frame = d.frame ∧ (skimRelease v codes d).port = d.port ∧ (skimRelease v codes d).win = d.win ∧ (skimRelease v codes d).cnt = d.cnt ∧ (skimRelease v codes d).pwr = d.pwr ∧ (skimRelease v codes d).mgt = d.mgt ∧ (skimRelease v codes d).boot = d.boot ∧ (skimRelease v codes d).alm = d.alm ∧ (skimRelease v codes d).par = d.par ∧ (skimRelease v codes d).cal = d.cal ∧ (skimRelease v codes d).mix = d.mix ∧ (skimRelease v codes d).outs = d.outs ∧ (skimRelease v codes d).tdm = d.tdm ∧ (skimRelease v codes d).ser = d.ser ∧ (skimRelease v codes d).cas = d.cas := by
  simp -implicitDefEqProofs [skimRelease]

@[simp] theorem skimOut_keeps (v : Nat) (d : Dev) :
    (skimOut v d).fresh = d.fresh ∧ (skimOut v d).mem = d.mem ∧ (skimOut v d).frame = d.frame ∧ (skimOut v d).port = d.port ∧ (skimOut v d).win = d.win ∧ (skimOut v d).cnt = d.cnt ∧ (skimOut v d).pwr = d.pwr ∧ (skimOut v d).mgt = d.mgt ∧ (skimOut v d).boot = d.boot ∧ (skimOut v d).alm = d.alm ∧ (skimOut v d).par = d.par ∧ (skimOut v d).cal = d.cal ∧ (skimOut v d).mix = d.mix ∧ (skimOut v d).outs = d.outs ∧ (skimOut v d).tdm = d.tdm ∧ (skimOut v d).ser = d.ser ∧ (skimOut v d).cas = d.cas := by
  simp -implicitDefEqProofs [skimOut]

@[simp] theorem swapRequest_keeps (c : Nat) (d : Dev) :
    (swapRequest c d).fresh = d.fresh ∧ (swapRequest c d).mem = d.mem ∧ (swapRequest c d).frame = d.frame ∧ (swapRequest c d).port = d.port ∧ (swapRequest c d).win = d.win ∧ (swapRequest c d).cnt = d.cnt ∧ (swapRequest c d).pwr = d.pwr ∧ (swapRequest c d).mgt = d.mgt ∧ (swapRequest c d).boot = d.boot ∧ (swapRequest c d).alm = d.alm ∧ (swapRequest c d).par = d.par ∧ (swapRequest c d).cal = d.cal ∧ (swapRequest c d).mix = d.mix ∧ (swapRequest c d).outs = d.outs ∧ (swapRequest c d).tdm = d.tdm ∧ (swapRequest c d).ser = d.ser ∧ (swapRequest c d).cas = d.cas := by
  simp -implicitDefEqProofs [swapRequest]

@[simp] theorem swapDev_keeps (c : Nat) (v : Word) (d : Dev) :
    (swapDev c v d).fresh = d.fresh ∧ (swapDev c v d).mem = d.mem ∧ (swapDev c v d).frame = d.frame ∧ (swapDev c v d).port = d.port ∧ (swapDev c v d).win = d.win ∧ (swapDev c v d).cnt = d.cnt ∧ (swapDev c v d).pwr = d.pwr ∧ (swapDev c v d).mgt = d.mgt ∧ (swapDev c v d).boot = d.boot ∧ (swapDev c v d).alm = d.alm ∧ (swapDev c v d).par = d.par ∧ (swapDev c v d).cal = d.cal ∧ (swapDev c v d).mix = d.mix ∧ (swapDev c v d).outs = d.outs ∧ (swapDev c v d).tdm = d.tdm ∧ (swapDev c v d).ser = d.ser ∧ (swapDev c v d).cas = d.cas := by
  simp -implicitDefEqProofs [swapDev]

@[simp] theorem swapAllDev_keeps (c : Nat) (v : Word) (d : Dev) :
    (swapAllDev c v d).fresh = d.fresh ∧ (swapAllDev c v d).mem = d.mem ∧ (swapAllDev c v d).frame = d.frame ∧ (swapAllDev c v d).port = d.port ∧ (swapAllDev c v d).win = d.win ∧ (swapAllDev c v d).cnt = d.cnt ∧ (swapAllDev c v d).pwr = d.pwr ∧ (swapAllDev c v d).mgt = d.mgt ∧ (swapAllDev c v d).boot = d.boot ∧ (swapAllDev c v d).alm = d.alm ∧ (swapAllDev c v d).par = d.par ∧ (swapAllDev c v d).cal = d.cal ∧ (swapAllDev c v d).mix = d.mix ∧ (swapAllDev c v d).outs = d.outs ∧ (swapAllDev c v d).tdm = d.tdm ∧ (swapAllDev c v d).ser = d.ser ∧ (swapAllDev c v d).cas = d.cas := by
  simp -implicitDefEqProofs [swapAllDev]

@[simp] theorem fadeStartDev_keeps (c : Nat) (d : Dev) :
    (fadeStartDev c d).regs = d.regs ∧ (fadeStartDev c d).fresh = d.fresh ∧ (fadeStartDev c d).mem = d.mem ∧ (fadeStartDev c d).frame = d.frame ∧ (fadeStartDev c d).port = d.port ∧ (fadeStartDev c d).win = d.win ∧ (fadeStartDev c d).cnt = d.cnt ∧ (fadeStartDev c d).pwr = d.pwr ∧ (fadeStartDev c d).mgt = d.mgt ∧ (fadeStartDev c d).boot = d.boot ∧ (fadeStartDev c d).alm = d.alm ∧ (fadeStartDev c d).par = d.par ∧ (fadeStartDev c d).cal = d.cal ∧ (fadeStartDev c d).mix = d.mix ∧ (fadeStartDev c d).outs = d.outs ∧ (fadeStartDev c d).tdm = d.tdm ∧ (fadeStartDev c d).ser = d.ser ∧ (fadeStartDev c d).cas = d.cas := by
  unfold fadeStartDev; refine ⟨?_, ?_, ?_, ?_, ?_, ?_, ?_, ?_, ?_, ?_, ?_, ?_, ?_, ?_, ?_, ?_, ?_, ?_⟩ <;> (repeat' split) <;> simp -implicitDefEqProofs

@[simp] theorem fadeStep_keeps (c : Nat) (d : Dev) :
    (fadeStep c d).regs = d.regs ∧ (fadeStep c d).fresh = d.fresh ∧ (fadeStep c d).mem = d.mem ∧ (fadeStep c d).frame = d.frame ∧ (fadeStep c d).port = d.port ∧ (fadeStep c d).win = d.win ∧ (fadeStep c d).cnt = d.cnt ∧ (fadeStep c d).pwr = d.pwr ∧ (fadeStep c d).mgt = d.mgt ∧ (fadeStep c d).boot = d.boot ∧ (fadeStep c d).alm = d.alm ∧ (fadeStep c d).par = d.par ∧ (fadeStep c d).cal = d.cal ∧ (fadeStep c d).mix = d.mix ∧ (fadeStep c d).outs = d.outs ∧ (fadeStep c d).tdm = d.tdm ∧ (fadeStep c d).ser = d.ser ∧ (fadeStep c d).cas = d.cas := by
  simp -implicitDefEqProofs [fadeStep]

@[simp] theorem fadeEndDev_keeps (c : Nat) (d : Dev) :
    (fadeEndDev c d).regs = d.regs ∧ (fadeEndDev c d).fresh = d.fresh ∧ (fadeEndDev c d).mem = d.mem ∧ (fadeEndDev c d).frame = d.frame ∧ (fadeEndDev c d).port = d.port ∧ (fadeEndDev c d).win = d.win ∧ (fadeEndDev c d).cnt = d.cnt ∧ (fadeEndDev c d).pwr = d.pwr ∧ (fadeEndDev c d).mgt = d.mgt ∧ (fadeEndDev c d).boot = d.boot ∧ (fadeEndDev c d).alm = d.alm ∧ (fadeEndDev c d).par = d.par ∧ (fadeEndDev c d).cal = d.cal ∧ (fadeEndDev c d).mix = d.mix ∧ (fadeEndDev c d).outs = d.outs ∧ (fadeEndDev c d).tdm = d.tdm ∧ (fadeEndDev c d).ser = d.ser ∧ (fadeEndDev c d).cas = d.cas := by
  simp -implicitDefEqProofs [fadeEndDev]

@[simp] theorem coefWrite_keeps (list : Bool) (c : Nat) (bank : Bool) (i : Nat) (v : Word) (d : Dev) :
    (coefWrite list c bank i v d).fresh = d.fresh ∧ (coefWrite list c bank i v d).mem = d.mem ∧ (coefWrite list c bank i v d).frame = d.frame ∧ (coefWrite list c bank i v d).port = d.port ∧ (coefWrite list c bank i v d).win = d.win ∧ (coefWrite list c bank i v d).cnt = d.cnt ∧ (coefWrite list c bank i v d).pwr = d.pwr ∧ (coefWrite list c bank i v d).mgt = d.mgt ∧ (coefWrite list c bank i v d).boot = d.boot ∧ (coefWrite list c bank i v d).alm = d.alm ∧ (coefWrite list c bank i v d).par = d.par ∧ (coefWrite list c bank i v d).aud = d.aud ∧ (coefWrite list c bank i v d).cal = d.cal ∧ (coefWrite list c bank i v d).mix = d.mix ∧ (coefWrite list c bank i v d).outs = d.outs ∧ (coefWrite list c bank i v d).tdm = d.tdm ∧ (coefWrite list c bank i v d).ser = d.ser ∧ (coefWrite list c bank i v d).cas = d.cas := by
  simp -implicitDefEqProofs [coefWrite]

@[simp] theorem skimmerCoefWriteDev_keeps (c : Nat) (bank : Bool) (i : Nat) (v : Word) (d : Dev) :
    (skimmerCoefWriteDev c bank i v d).fresh = d.fresh ∧ (skimmerCoefWriteDev c bank i v d).mem = d.mem ∧ (skimmerCoefWriteDev c bank i v d).frame = d.frame ∧ (skimmerCoefWriteDev c bank i v d).port = d.port ∧ (skimmerCoefWriteDev c bank i v d).win = d.win ∧ (skimmerCoefWriteDev c bank i v d).cnt = d.cnt ∧ (skimmerCoefWriteDev c bank i v d).pwr = d.pwr ∧ (skimmerCoefWriteDev c bank i v d).mgt = d.mgt ∧ (skimmerCoefWriteDev c bank i v d).boot = d.boot ∧ (skimmerCoefWriteDev c bank i v d).alm = d.alm ∧ (skimmerCoefWriteDev c bank i v d).par = d.par ∧ (skimmerCoefWriteDev c bank i v d).aud = d.aud ∧ (skimmerCoefWriteDev c bank i v d).cal = d.cal ∧ (skimmerCoefWriteDev c bank i v d).mix = d.mix ∧ (skimmerCoefWriteDev c bank i v d).outs = d.outs ∧ (skimmerCoefWriteDev c bank i v d).tdm = d.tdm ∧ (skimmerCoefWriteDev c bank i v d).ser = d.ser ∧ (skimmerCoefWriteDev c bank i v d).cas = d.cas := by
  simp -implicitDefEqProofs [skimmerCoefWriteDev]

@[simp] theorem resetAt_keeps (c r : Nat) (d : Dev) :
    (resetAt c r d).regs = d.regs ∧ (resetAt c r d).fresh = d.fresh ∧ (resetAt c r d).mem = d.mem ∧ (resetAt c r d).frame = d.frame ∧ (resetAt c r d).port = d.port ∧ (resetAt c r d).win = d.win ∧ (resetAt c r d).cnt = d.cnt ∧ (resetAt c r d).pwr = d.pwr ∧ (resetAt c r d).mgt = d.mgt ∧ (resetAt c r d).boot = d.boot ∧ (resetAt c r d).alm = d.alm ∧ (resetAt c r d).par = d.par ∧ (resetAt c r d).cal = d.cal ∧ (resetAt c r d).mix = d.mix ∧ (resetAt c r d).outs = d.outs ∧ (resetAt c r d).tdm = d.tdm ∧ (resetAt c r d).ser = d.ser ∧ (resetAt c r d).cas = d.cas := by
  simp -implicitDefEqProofs [resetAt]

@[simp] theorem skmCtlWrite_keeps (lock : Bool) (c : Nat) (v : Word) (d : Dev) :
    (skmCtlWrite lock c v d).fresh = d.fresh ∧ (skmCtlWrite lock c v d).mem = d.mem ∧ (skmCtlWrite lock c v d).frame = d.frame ∧ (skmCtlWrite lock c v d).port = d.port ∧ (skmCtlWrite lock c v d).win = d.win ∧ (skmCtlWrite lock c v d).cnt = d.cnt ∧ (skmCtlWrite lock c v d).pwr = d.pwr ∧ (skmCtlWrite lock c v d).mgt = d.mgt ∧ (skmCtlWrite lock c v d).boot = d.boot ∧ (skmCtlWrite lock c v d).alm = d.alm ∧ (skmCtlWrite lock c v d).par = d.par ∧ (skmCtlWrite lock c v d).cal = d.cal ∧ (skmCtlWrite lock c v d).mix = d.mix ∧ (skmCtlWrite lock c v d).outs = d.outs ∧ (skmCtlWrite lock c v d).tdm = d.tdm ∧ (skmCtlWrite lock c v d).ser = d.ser ∧ (skmCtlWrite lock c v d).cas = d.cas := by
  simp -implicitDefEqProofs [skmCtlWrite]

@[simp] theorem skimReset_keeps (c : Nat) (d : Dev) :
    (skimReset c d).fresh = d.fresh ∧ (skimReset c d).mem = d.mem ∧ (skimReset c d).frame = d.frame ∧ (skimReset c d).port = d.port ∧ (skimReset c d).win = d.win ∧ (skimReset c d).pwr = d.pwr ∧ (skimReset c d).mgt = d.mgt ∧ (skimReset c d).boot = d.boot ∧ (skimReset c d).alm = d.alm ∧ (skimReset c d).par = d.par ∧ (skimReset c d).cal = d.cal ∧ (skimReset c d).mix = d.mix ∧ (skimReset c d).outs = d.outs ∧ (skimReset c d).tdm = d.tdm ∧ (skimReset c d).ser = d.ser ∧ (skimReset c d).cas = d.cas := by
  simp -implicitDefEqProofs [skimReset]

@[simp] theorem skimmerValidDev_keeps (c : Nat) (d : Dev) :
    (skimmerValidDev c d).regs = d.regs ∧ (skimmerValidDev c d).fresh = d.fresh ∧ (skimmerValidDev c d).mem = d.mem ∧ (skimmerValidDev c d).frame = d.frame ∧ (skimmerValidDev c d).port = d.port ∧ (skimmerValidDev c d).win = d.win ∧ (skimmerValidDev c d).cnt = d.cnt ∧ (skimmerValidDev c d).pwr = d.pwr ∧ (skimmerValidDev c d).mgt = d.mgt ∧ (skimmerValidDev c d).boot = d.boot ∧ (skimmerValidDev c d).alm = d.alm ∧ (skimmerValidDev c d).par = d.par ∧ (skimmerValidDev c d).cal = d.cal ∧ (skimmerValidDev c d).mix = d.mix ∧ (skimmerValidDev c d).outs = d.outs ∧ (skimmerValidDev c d).tdm = d.tdm ∧ (skimmerValidDev c d).ser = d.ser ∧ (skimmerValidDev c d).cas = d.cas := by
  simp -implicitDefEqProofs [skimmerValidDev]

@[simp] theorem clusterFrame_keeps (c : Nat) (onTime : Bool) (d : Dev) :
    (clusterFrame c onTime d).fresh = d.fresh ∧ (clusterFrame c onTime d).mem = d.mem ∧ (clusterFrame c onTime d).frame = d.frame ∧ (clusterFrame c onTime d).port = d.port ∧ (clusterFrame c onTime d).win = d.win ∧ (clusterFrame c onTime d).pwr = d.pwr ∧ (clusterFrame c onTime d).mgt = d.mgt ∧ (clusterFrame c onTime d).boot = d.boot ∧ (clusterFrame c onTime d).alm = d.alm ∧ (clusterFrame c onTime d).par = d.par ∧ (clusterFrame c onTime d).cal = d.cal ∧ (clusterFrame c onTime d).mix = d.mix ∧ (clusterFrame c onTime d).outs = d.outs ∧ (clusterFrame c onTime d).tdm = d.tdm ∧ (clusterFrame c onTime d).ser = d.ser ∧ (clusterFrame c onTime d).cas = d.cas := by
  simp -implicitDefEqProofs [clusterFrame]

@[simp] theorem calRelease_keeps (v n : Nat) (d : Dev) :
    (calRelease v n d).regs = d.regs ∧ (calRelease v n d).fresh = d.fresh ∧ (calRelease v n d).mem = d.mem ∧ (calRelease v n d).frame = d.frame ∧ (calRelease v n d).port = d.port ∧ (calRelease v n d).win = d.win ∧ (calRelease v n d).cnt = d.cnt ∧ (calRelease v n d).pwr = d.pwr ∧ (calRelease v n d).mgt = d.mgt ∧ (calRelease v n d).boot = d.boot ∧ (calRelease v n d).alm = d.alm ∧ (calRelease v n d).par = d.par ∧ (calRelease v n d).mix = d.mix ∧ (calRelease v n d).outs = d.outs ∧ (calRelease v n d).tdm = d.tdm ∧ (calRelease v n d).ser = d.ser ∧ (calRelease v n d).cas = d.cas := by
  unfold calRelease; refine ⟨?_, ?_, ?_, ?_, ?_, ?_, ?_, ?_, ?_, ?_, ?_, ?_, ?_, ?_, ?_, ?_, ?_⟩ <;> (repeat' split) <;> simp -implicitDefEqProofs

@[simp] theorem calSkimReset_keeps (c : Nat) (d : Dev) :
    (calSkimReset c d).regs = d.regs ∧ (calSkimReset c d).fresh = d.fresh ∧ (calSkimReset c d).mem = d.mem ∧ (calSkimReset c d).frame = d.frame ∧ (calSkimReset c d).port = d.port ∧ (calSkimReset c d).win = d.win ∧ (calSkimReset c d).cnt = d.cnt ∧ (calSkimReset c d).pwr = d.pwr ∧ (calSkimReset c d).mgt = d.mgt ∧ (calSkimReset c d).boot = d.boot ∧ (calSkimReset c d).alm = d.alm ∧ (calSkimReset c d).par = d.par ∧ (calSkimReset c d).aud = d.aud ∧ (calSkimReset c d).mix = d.mix ∧ (calSkimReset c d).outs = d.outs ∧ (calSkimReset c d).tdm = d.tdm ∧ (calSkimReset c d).ser = d.ser ∧ (calSkimReset c d).cas = d.cas := by
  simp -implicitDefEqProofs [calSkimReset]

@[simp] theorem measurementResultDev_keeps (v : Nat) (d : Dev) :
    (measurementResultDev v d).regs = d.regs ∧ (measurementResultDev v d).fresh = d.fresh ∧ (measurementResultDev v d).mem = d.mem ∧ (measurementResultDev v d).frame = d.frame ∧ (measurementResultDev v d).port = d.port ∧ (measurementResultDev v d).win = d.win ∧ (measurementResultDev v d).cnt = d.cnt ∧ (measurementResultDev v d).pwr = d.pwr ∧ (measurementResultDev v d).mgt = d.mgt ∧ (measurementResultDev v d).boot = d.boot ∧ (measurementResultDev v d).alm = d.alm ∧ (measurementResultDev v d).par = d.par ∧ (measurementResultDev v d).aud = d.aud ∧ (measurementResultDev v d).mix = d.mix ∧ (measurementResultDev v d).outs = d.outs ∧ (measurementResultDev v d).tdm = d.tdm ∧ (measurementResultDev v d).ser = d.ser ∧ (measurementResultDev v d).cas = d.cas := by
  refine ⟨?_, ?_, ?_, ?_, ?_, ?_, ?_, ?_, ?_, ?_, ?_, ?_, ?_, ?_, ?_, ?_, ?_, ?_⟩ <;> (simp only [measurementResultDev]; repeat' split) <;> simp_all -implicitDefEqProofs

@[simp] theorem runEnds_keeps (fg : Bool) (r : CalRun) (d : Dev) :
    (runEnds fg r d).fresh = d.fresh ∧ (runEnds fg r d).frame = d.frame ∧ (runEnds fg r d).win = d.win ∧ (runEnds fg r d).pwr = d.pwr ∧ (runEnds fg r d).boot = d.boot ∧ (runEnds fg r d).alm = d.alm ∧ (runEnds fg r d).par = d.par ∧ (runEnds fg r d).aud = d.aud ∧ (runEnds fg r d).mix = d.mix ∧ (runEnds fg r d).outs = d.outs ∧ (runEnds fg r d).tdm = d.tdm ∧ (runEnds fg r d).ser = d.ser ∧ (runEnds fg r d).cas = d.cas := by
  refine ⟨?_, ?_, ?_, ?_, ?_, ?_, ?_, ?_, ?_, ?_, ?_, ?_, ?_⟩ <;> (simp only [runEnds]; repeat' split) <;> simp_all -implicitDefEqProofs

@[simp] theorem calLast_keeps (outcome step slot : Nat) (d : Dev) :
    (calLast outcome step slot d).fresh = d.fresh ∧ (calLast outcome step slot d).mem = d.mem ∧ (calLast outcome step slot d).frame = d.frame ∧ (calLast outcome step slot d).port = d.port ∧ (calLast outcome step slot d).win = d.win ∧ (calLast outcome step slot d).cnt = d.cnt ∧ (calLast outcome step slot d).pwr = d.pwr ∧ (calLast outcome step slot d).mgt = d.mgt ∧ (calLast outcome step slot d).boot = d.boot ∧ (calLast outcome step slot d).alm = d.alm ∧ (calLast outcome step slot d).par = d.par ∧ (calLast outcome step slot d).aud = d.aud ∧ (calLast outcome step slot d).cal = d.cal ∧ (calLast outcome step slot d).mix = d.mix ∧ (calLast outcome step slot d).outs = d.outs ∧ (calLast outcome step slot d).tdm = d.tdm ∧ (calLast outcome step slot d).ser = d.ser ∧ (calLast outcome step slot d).cas = d.cas := by
  simp -implicitDefEqProofs [calLast]

@[simp] theorem calQueueOne_keeps (v : Nat) (asked : Bool) (d : Dev) :
    (calQueueOne v asked d).regs = d.regs ∧ (calQueueOne v asked d).fresh = d.fresh ∧ (calQueueOne v asked d).frame = d.frame ∧ (calQueueOne v asked d).port = d.port ∧ (calQueueOne v asked d).win = d.win ∧ (calQueueOne v asked d).cnt = d.cnt ∧ (calQueueOne v asked d).pwr = d.pwr ∧ (calQueueOne v asked d).mgt = d.mgt ∧ (calQueueOne v asked d).boot = d.boot ∧ (calQueueOne v asked d).alm = d.alm ∧ (calQueueOne v asked d).par = d.par ∧ (calQueueOne v asked d).aud = d.aud ∧ (calQueueOne v asked d).mix = d.mix ∧ (calQueueOne v asked d).outs = d.outs ∧ (calQueueOne v asked d).tdm = d.tdm ∧ (calQueueOne v asked d).ser = d.ser ∧ (calQueueOne v asked d).cas = d.cas := by
  simp -implicitDefEqProofs [calQueueOne]

@[simp] theorem calQueueCluster_keeps (c : Nat) (d : Dev) :
    (calQueueCluster c d).regs = d.regs ∧ (calQueueCluster c d).fresh = d.fresh ∧ (calQueueCluster c d).frame = d.frame ∧ (calQueueCluster c d).port = d.port ∧ (calQueueCluster c d).win = d.win ∧ (calQueueCluster c d).cnt = d.cnt ∧ (calQueueCluster c d).pwr = d.pwr ∧ (calQueueCluster c d).mgt = d.mgt ∧ (calQueueCluster c d).boot = d.boot ∧ (calQueueCluster c d).alm = d.alm ∧ (calQueueCluster c d).par = d.par ∧ (calQueueCluster c d).aud = d.aud ∧ (calQueueCluster c d).mix = d.mix ∧ (calQueueCluster c d).outs = d.outs ∧ (calQueueCluster c d).tdm = d.tdm ∧ (calQueueCluster c d).ser = d.ser ∧ (calQueueCluster c d).cas = d.cas := by
  simp -implicitDefEqProofs [calQueueCluster]

@[simp] theorem calAgain_keeps (v : Nat) (d : Dev) :
    (calAgain v d).regs = d.regs ∧ (calAgain v d).fresh = d.fresh ∧ (calAgain v d).frame = d.frame ∧ (calAgain v d).port = d.port ∧ (calAgain v d).win = d.win ∧ (calAgain v d).cnt = d.cnt ∧ (calAgain v d).pwr = d.pwr ∧ (calAgain v d).mgt = d.mgt ∧ (calAgain v d).boot = d.boot ∧ (calAgain v d).alm = d.alm ∧ (calAgain v d).par = d.par ∧ (calAgain v d).aud = d.aud ∧ (calAgain v d).mix = d.mix ∧ (calAgain v d).outs = d.outs ∧ (calAgain v d).tdm = d.tdm ∧ (calAgain v d).ser = d.ser ∧ (calAgain v d).cas = d.cas := by
  unfold calAgain; refine ⟨?_, ?_, ?_, ?_, ?_, ?_, ?_, ?_, ?_, ?_, ?_, ?_, ?_, ?_, ?_, ?_, ?_⟩ <;> (repeat' split) <;> simp -implicitDefEqProofs

@[simp] theorem calReqDev_keeps (w : Word) (d : Dev) :
    (calReqDev w d).regs = d.regs ∧ (calReqDev w d).fresh = d.fresh ∧ (calReqDev w d).frame = d.frame ∧ (calReqDev w d).port = d.port ∧ (calReqDev w d).win = d.win ∧ (calReqDev w d).cnt = d.cnt ∧ (calReqDev w d).pwr = d.pwr ∧ (calReqDev w d).mgt = d.mgt ∧ (calReqDev w d).boot = d.boot ∧ (calReqDev w d).alm = d.alm ∧ (calReqDev w d).par = d.par ∧ (calReqDev w d).aud = d.aud ∧ (calReqDev w d).mix = d.mix ∧ (calReqDev w d).outs = d.outs ∧ (calReqDev w d).tdm = d.tdm ∧ (calReqDev w d).ser = d.ser ∧ (calReqDev w d).cas = d.cas := by
  simp -implicitDefEqProofs [calReqDev]

@[simp] theorem backgroundRunStartDev_keeps (v : Nat) (d : Dev) :
    (backgroundRunStartDev v d).regs = d.regs ∧ (backgroundRunStartDev v d).frame = d.frame ∧ (backgroundRunStartDev v d).port = d.port ∧ (backgroundRunStartDev v d).win = d.win ∧ (backgroundRunStartDev v d).cnt = d.cnt ∧ (backgroundRunStartDev v d).pwr = d.pwr ∧ (backgroundRunStartDev v d).mgt = d.mgt ∧ (backgroundRunStartDev v d).boot = d.boot ∧ (backgroundRunStartDev v d).alm = d.alm ∧ (backgroundRunStartDev v d).par = d.par ∧ (backgroundRunStartDev v d).aud = d.aud ∧ (backgroundRunStartDev v d).mix = d.mix ∧ (backgroundRunStartDev v d).outs = d.outs ∧ (backgroundRunStartDev v d).tdm = d.tdm ∧ (backgroundRunStartDev v d).ser = d.ser ∧ (backgroundRunStartDev v d).cas = d.cas := by
  refine ⟨?_, ?_, ?_, ?_, ?_, ?_, ?_, ?_, ?_, ?_, ?_, ?_, ?_, ?_, ?_, ?_⟩ <;> (simp only [backgroundRunStartDev]; repeat' split) <;> simp_all -implicitDefEqProofs

@[simp] theorem calAbort_keeps (v : Nat) (d : Dev) :
    (calAbort v d).fresh = d.fresh ∧ (calAbort v d).mem = d.mem ∧ (calAbort v d).frame = d.frame ∧ (calAbort v d).port = d.port ∧ (calAbort v d).win = d.win ∧ (calAbort v d).pwr = d.pwr ∧ (calAbort v d).mgt = d.mgt ∧ (calAbort v d).boot = d.boot ∧ (calAbort v d).alm = d.alm ∧ (calAbort v d).par = d.par ∧ (calAbort v d).aud = d.aud ∧ (calAbort v d).mix = d.mix ∧ (calAbort v d).outs = d.outs ∧ (calAbort v d).tdm = d.tdm ∧ (calAbort v d).ser = d.ser ∧ (calAbort v d).cas = d.cas := by
  refine ⟨?_, ?_, ?_, ?_, ?_, ?_, ?_, ?_, ?_, ?_, ?_, ?_, ?_, ?_, ?_, ?_⟩ <;> (simp only [calAbort]; repeat' split) <;> simp_all -implicitDefEqProofs

@[simp] theorem calAbortAll_keeps (pick : Nat → Bool) (d : Dev) :
    (calAbortAll pick d).fresh = d.fresh ∧ (calAbortAll pick d).mem = d.mem ∧ (calAbortAll pick d).frame = d.frame ∧ (calAbortAll pick d).port = d.port ∧ (calAbortAll pick d).win = d.win ∧ (calAbortAll pick d).pwr = d.pwr ∧ (calAbortAll pick d).mgt = d.mgt ∧ (calAbortAll pick d).boot = d.boot ∧ (calAbortAll pick d).alm = d.alm ∧ (calAbortAll pick d).par = d.par ∧ (calAbortAll pick d).aud = d.aud ∧ (calAbortAll pick d).mix = d.mix ∧ (calAbortAll pick d).outs = d.outs ∧ (calAbortAll pick d).tdm = d.tdm ∧ (calAbortAll pick d).ser = d.ser ∧ (calAbortAll pick d).cas = d.cas := by
  simp -implicitDefEqProofs [calAbortAll]

@[simp] theorem calTake_keeps (v : Nat) (d : Dev) :
    (calTake v d).fresh = d.fresh ∧ (calTake v d).mem = d.mem ∧ (calTake v d).frame = d.frame ∧ (calTake v d).port = d.port ∧ (calTake v d).win = d.win ∧ (calTake v d).pwr = d.pwr ∧ (calTake v d).mgt = d.mgt ∧ (calTake v d).boot = d.boot ∧ (calTake v d).alm = d.alm ∧ (calTake v d).par = d.par ∧ (calTake v d).aud = d.aud ∧ (calTake v d).mix = d.mix ∧ (calTake v d).outs = d.outs ∧ (calTake v d).tdm = d.tdm ∧ (calTake v d).ser = d.ser ∧ (calTake v d).cas = d.cas := by
  unfold calTake; refine ⟨?_, ?_, ?_, ?_, ?_, ?_, ?_, ?_, ?_, ?_, ?_, ?_, ?_, ?_, ?_, ?_⟩ <;> (repeat' split) <;> simp -implicitDefEqProofs

@[simp] theorem calPreempt_keeps (v : Nat) (taken : Bool) (d : Dev) :
    (calPreempt v taken d).fresh = d.fresh ∧ (calPreempt v taken d).mem = d.mem ∧ (calPreempt v taken d).frame = d.frame ∧ (calPreempt v taken d).port = d.port ∧ (calPreempt v taken d).win = d.win ∧ (calPreempt v taken d).pwr = d.pwr ∧ (calPreempt v taken d).mgt = d.mgt ∧ (calPreempt v taken d).boot = d.boot ∧ (calPreempt v taken d).alm = d.alm ∧ (calPreempt v taken d).par = d.par ∧ (calPreempt v taken d).mix = d.mix ∧ (calPreempt v taken d).outs = d.outs ∧ (calPreempt v taken d).tdm = d.tdm ∧ (calPreempt v taken d).ser = d.ser ∧ (calPreempt v taken d).cas = d.cas := by
  unfold calPreempt; refine ⟨?_, ?_, ?_, ?_, ?_, ?_, ?_, ?_, ?_, ?_, ?_, ?_, ?_, ?_, ?_⟩ <;> (repeat' split) <;> simp -implicitDefEqProofs

@[simp] theorem calAgainFree_keeps (d : Dev) :
    (calAgainFree d).regs = d.regs ∧ (calAgainFree d).fresh = d.fresh ∧ (calAgainFree d).frame = d.frame ∧ (calAgainFree d).port = d.port ∧ (calAgainFree d).win = d.win ∧ (calAgainFree d).cnt = d.cnt ∧ (calAgainFree d).pwr = d.pwr ∧ (calAgainFree d).mgt = d.mgt ∧ (calAgainFree d).boot = d.boot ∧ (calAgainFree d).alm = d.alm ∧ (calAgainFree d).par = d.par ∧ (calAgainFree d).aud = d.aud ∧ (calAgainFree d).mix = d.mix ∧ (calAgainFree d).outs = d.outs ∧ (calAgainFree d).tdm = d.tdm ∧ (calAgainFree d).ser = d.ser ∧ (calAgainFree d).cas = d.cas := by
  simp -implicitDefEqProofs [calAgainFree]

@[simp] theorem calHostWrite_keeps (off : Nat) (d : Dev) :
    (calHostWrite off d).fresh = d.fresh ∧ (calHostWrite off d).mem = d.mem ∧ (calHostWrite off d).frame = d.frame ∧ (calHostWrite off d).port = d.port ∧ (calHostWrite off d).win = d.win ∧ (calHostWrite off d).pwr = d.pwr ∧ (calHostWrite off d).mgt = d.mgt ∧ (calHostWrite off d).boot = d.boot ∧ (calHostWrite off d).alm = d.alm ∧ (calHostWrite off d).par = d.par ∧ (calHostWrite off d).aud = d.aud ∧ (calHostWrite off d).mix = d.mix ∧ (calHostWrite off d).outs = d.outs ∧ (calHostWrite off d).tdm = d.tdm ∧ (calHostWrite off d).ser = d.ser ∧ (calHostWrite off d).cas = d.cas := by
  simp -implicitDefEqProofs [calHostWrite]

@[simp] theorem temperatureUpdateDev_keeps (c : Nat) (d : Dev) :
    (temperatureUpdateDev c d).regs = d.regs ∧ (temperatureUpdateDev c d).fresh = d.fresh ∧ (temperatureUpdateDev c d).frame = d.frame ∧ (temperatureUpdateDev c d).port = d.port ∧ (temperatureUpdateDev c d).win = d.win ∧ (temperatureUpdateDev c d).cnt = d.cnt ∧ (temperatureUpdateDev c d).pwr = d.pwr ∧ (temperatureUpdateDev c d).boot = d.boot ∧ (temperatureUpdateDev c d).alm = d.alm ∧ (temperatureUpdateDev c d).par = d.par ∧ (temperatureUpdateDev c d).aud = d.aud ∧ (temperatureUpdateDev c d).mix = d.mix ∧ (temperatureUpdateDev c d).outs = d.outs ∧ (temperatureUpdateDev c d).tdm = d.tdm ∧ (temperatureUpdateDev c d).ser = d.ser ∧ (temperatureUpdateDev c d).cas = d.cas := by
  simp -implicitDefEqProofs [temperatureUpdateDev]

@[simp] theorem clusterReset_keeps (c : Nat) (d : Dev) :
    (clusterReset c d).fresh = d.fresh ∧ (clusterReset c d).mem = d.mem ∧ (clusterReset c d).frame = d.frame ∧ (clusterReset c d).port = d.port ∧ (clusterReset c d).win = d.win ∧ (clusterReset c d).pwr = d.pwr ∧ (clusterReset c d).mgt = d.mgt ∧ (clusterReset c d).boot = d.boot ∧ (clusterReset c d).alm = d.alm ∧ (clusterReset c d).par = d.par ∧ (clusterReset c d).mix = d.mix ∧ (clusterReset c d).outs = d.outs ∧ (clusterReset c d).tdm = d.tdm ∧ (clusterReset c d).ser = d.ser ∧ (clusterReset c d).cas = d.cas := by
  simp -implicitDefEqProofs [clusterReset]

@[simp] theorem synchronisingResetDev_keeps (c : Nat) (d : Dev) :
    (synchronisingResetDev c d).fresh = d.fresh ∧ (synchronisingResetDev c d).mem = d.mem ∧ (synchronisingResetDev c d).frame = d.frame ∧ (synchronisingResetDev c d).port = d.port ∧ (synchronisingResetDev c d).win = d.win ∧ (synchronisingResetDev c d).pwr = d.pwr ∧ (synchronisingResetDev c d).mgt = d.mgt ∧ (synchronisingResetDev c d).boot = d.boot ∧ (synchronisingResetDev c d).alm = d.alm ∧ (synchronisingResetDev c d).par = d.par ∧ (synchronisingResetDev c d).mix = d.mix ∧ (synchronisingResetDev c d).outs = d.outs ∧ (synchronisingResetDev c d).tdm = d.tdm ∧ (synchronisingResetDev c d).ser = d.ser ∧ (synchronisingResetDev c d).cas = d.cas := by
  simp -implicitDefEqProofs [synchronisingResetDev]

@[simp] theorem armFault_keeps (v i code : Nat) (arm : List Byte) (d : Dev) :
    (armFault v i code arm d).fresh = d.fresh ∧ (armFault v i code arm d).mem = d.mem ∧ (armFault v i code arm d).frame = d.frame ∧ (armFault v i code arm d).port = d.port ∧ (armFault v i code arm d).win = d.win ∧ (armFault v i code arm d).cnt = d.cnt ∧ (armFault v i code arm d).pwr = d.pwr ∧ (armFault v i code arm d).mgt = d.mgt ∧ (armFault v i code arm d).boot = d.boot ∧ (armFault v i code arm d).alm = d.alm ∧ (armFault v i code arm d).par = d.par ∧ (armFault v i code arm d).aud = d.aud ∧ (armFault v i code arm d).cal = d.cal ∧ (armFault v i code arm d).mix = d.mix ∧ (armFault v i code arm d).outs = d.outs ∧ (armFault v i code arm d).tdm = d.tdm ∧ (armFault v i code arm d).ser = d.ser ∧ (armFault v i code arm d).cas = d.cas := by
  simp -implicitDefEqProofs [armFault]

@[simp] theorem armRequests_keeps (v : Nat) (d : Dev) :
    (armRequests v d).fresh = d.fresh ∧ (armRequests v d).mem = d.mem ∧ (armRequests v d).frame = d.frame ∧ (armRequests v d).port = d.port ∧ (armRequests v d).win = d.win ∧ (armRequests v d).cnt = d.cnt ∧ (armRequests v d).pwr = d.pwr ∧ (armRequests v d).mgt = d.mgt ∧ (armRequests v d).boot = d.boot ∧ (armRequests v d).alm = d.alm ∧ (armRequests v d).par = d.par ∧ (armRequests v d).cal = d.cal ∧ (armRequests v d).mix = d.mix ∧ (armRequests v d).outs = d.outs ∧ (armRequests v d).tdm = d.tdm ∧ (armRequests v d).ser = d.ser ∧ (armRequests v d).cas = d.cas := by
  unfold armRequests; refine ⟨?_, ?_, ?_, ?_, ?_, ?_, ?_, ?_, ?_, ?_, ?_, ?_, ?_, ?_, ?_, ?_, ?_⟩ <;> (repeat' split) <;> simp -implicitDefEqProofs

@[simp] theorem armRoutes_keeps (v : Nat) (d : Dev) :
    (armRoutes v d).fresh = d.fresh ∧ (armRoutes v d).mem = d.mem ∧ (armRoutes v d).frame = d.frame ∧ (armRoutes v d).port = d.port ∧ (armRoutes v d).win = d.win ∧ (armRoutes v d).cnt = d.cnt ∧ (armRoutes v d).pwr = d.pwr ∧ (armRoutes v d).mgt = d.mgt ∧ (armRoutes v d).boot = d.boot ∧ (armRoutes v d).alm = d.alm ∧ (armRoutes v d).par = d.par ∧ (armRoutes v d).cal = d.cal ∧ (armRoutes v d).mix = d.mix ∧ (armRoutes v d).outs = d.outs ∧ (armRoutes v d).tdm = d.tdm ∧ (armRoutes v d).ser = d.ser ∧ (armRoutes v d).cas = d.cas := by
  refine ⟨?_, ?_, ?_, ?_, ?_, ?_, ?_, ?_, ?_, ?_, ?_, ?_, ?_, ?_, ?_, ?_, ?_⟩ <;> (simp only [armRoutes]; repeat' split) <;> simp_all -implicitDefEqProofs

@[simp] theorem armRead_keeps (v : Nat) (d : Dev) :
    (armRead v d).regs = d.regs ∧ (armRead v d).fresh = d.fresh ∧ (armRead v d).frame = d.frame ∧ (armRead v d).port = d.port ∧ (armRead v d).win = d.win ∧ (armRead v d).cnt = d.cnt ∧ (armRead v d).pwr = d.pwr ∧ (armRead v d).mgt = d.mgt ∧ (armRead v d).boot = d.boot ∧ (armRead v d).alm = d.alm ∧ (armRead v d).par = d.par ∧ (armRead v d).cal = d.cal ∧ (armRead v d).mix = d.mix ∧ (armRead v d).outs = d.outs ∧ (armRead v d).tdm = d.tdm ∧ (armRead v d).ser = d.ser ∧ (armRead v d).cas = d.cas := by
  simp -implicitDefEqProofs [armRead]

@[simp] theorem armTile_keeps (v : Nat) (d : Dev) :
    (armTile v d).regs = d.regs ∧ (armTile v d).fresh = d.fresh ∧ (armTile v d).frame = d.frame ∧ (armTile v d).port = d.port ∧ (armTile v d).win = d.win ∧ (armTile v d).cnt = d.cnt ∧ (armTile v d).pwr = d.pwr ∧ (armTile v d).mgt = d.mgt ∧ (armTile v d).boot = d.boot ∧ (armTile v d).alm = d.alm ∧ (armTile v d).par = d.par ∧ (armTile v d).cal = d.cal ∧ (armTile v d).mix = d.mix ∧ (armTile v d).outs = d.outs ∧ (armTile v d).tdm = d.tdm ∧ (armTile v d).ser = d.ser ∧ (armTile v d).cas = d.cas := by
  simp -implicitDefEqProofs [armTile]

@[simp] theorem armEval_keeps (v : Nat) (d : Dev) :
    (armEval v d).fresh = d.fresh ∧ (armEval v d).mem = d.mem ∧ (armEval v d).frame = d.frame ∧ (armEval v d).port = d.port ∧ (armEval v d).win = d.win ∧ (armEval v d).cnt = d.cnt ∧ (armEval v d).pwr = d.pwr ∧ (armEval v d).mgt = d.mgt ∧ (armEval v d).boot = d.boot ∧ (armEval v d).alm = d.alm ∧ (armEval v d).par = d.par ∧ (armEval v d).cal = d.cal ∧ (armEval v d).mix = d.mix ∧ (armEval v d).outs = d.outs ∧ (armEval v d).tdm = d.tdm ∧ (armEval v d).ser = d.ser ∧ (armEval v d).cas = d.cas := by
  simp -implicitDefEqProofs [armEval]

@[simp] theorem armFaults_keeps (v : Nat) (d : Dev) :
    (armFaults v d).fresh = d.fresh ∧ (armFaults v d).frame = d.frame ∧ (armFaults v d).port = d.port ∧ (armFaults v d).win = d.win ∧ (armFaults v d).cnt = d.cnt ∧ (armFaults v d).pwr = d.pwr ∧ (armFaults v d).mgt = d.mgt ∧ (armFaults v d).boot = d.boot ∧ (armFaults v d).alm = d.alm ∧ (armFaults v d).par = d.par ∧ (armFaults v d).aud = d.aud ∧ (armFaults v d).cal = d.cal ∧ (armFaults v d).mix = d.mix ∧ (armFaults v d).outs = d.outs ∧ (armFaults v d).tdm = d.tdm ∧ (armFaults v d).ser = d.ser ∧ (armFaults v d).cas = d.cas := by
  simp -implicitDefEqProofs [armFaults]

@[simp] theorem clusterArm_keeps (v : Nat) (d : Dev) :
    (clusterArm v d).fresh = d.fresh ∧ (clusterArm v d).frame = d.frame ∧ (clusterArm v d).port = d.port ∧ (clusterArm v d).win = d.win ∧ (clusterArm v d).cnt = d.cnt ∧ (clusterArm v d).pwr = d.pwr ∧ (clusterArm v d).mgt = d.mgt ∧ (clusterArm v d).boot = d.boot ∧ (clusterArm v d).alm = d.alm ∧ (clusterArm v d).par = d.par ∧ (clusterArm v d).cal = d.cal ∧ (clusterArm v d).mix = d.mix ∧ (clusterArm v d).outs = d.outs ∧ (clusterArm v d).tdm = d.tdm ∧ (clusterArm v d).ser = d.ser ∧ (clusterArm v d).cas = d.cas := by
  simp -implicitDefEqProofs [clusterArm]

@[simp] theorem clusterReuse_keeps (v old key : Nat) (mono restart glide : Bool) (d : Dev) :
    (clusterReuse v old key mono restart glide d).fresh = d.fresh ∧ (clusterReuse v old key mono restart glide d).frame = d.frame ∧ (clusterReuse v old key mono restart glide d).port = d.port ∧ (clusterReuse v old key mono restart glide d).win = d.win ∧ (clusterReuse v old key mono restart glide d).cnt = d.cnt ∧ (clusterReuse v old key mono restart glide d).pwr = d.pwr ∧ (clusterReuse v old key mono restart glide d).mgt = d.mgt ∧ (clusterReuse v old key mono restart glide d).boot = d.boot ∧ (clusterReuse v old key mono restart glide d).alm = d.alm ∧ (clusterReuse v old key mono restart glide d).par = d.par ∧ (clusterReuse v old key mono restart glide d).cal = d.cal ∧ (clusterReuse v old key mono restart glide d).mix = d.mix ∧ (clusterReuse v old key mono restart glide d).outs = d.outs ∧ (clusterReuse v old key mono restart glide d).tdm = d.tdm ∧ (clusterReuse v old key mono restart glide d).ser = d.ser ∧ (clusterReuse v old key mono restart glide d).cas = d.cas := by
  unfold clusterReuse; refine ⟨?_, ?_, ?_, ?_, ?_, ?_, ?_, ?_, ?_, ?_, ?_, ?_, ?_, ?_, ?_, ?_⟩ <;> (repeat' split) <;> simp -implicitDefEqProofs

@[simp] theorem gateFall_keeps (v : Nat) (d : Dev) :
    (gateFall v d).regs = d.regs ∧ (gateFall v d).fresh = d.fresh ∧ (gateFall v d).mem = d.mem ∧ (gateFall v d).frame = d.frame ∧ (gateFall v d).port = d.port ∧ (gateFall v d).win = d.win ∧ (gateFall v d).cnt = d.cnt ∧ (gateFall v d).pwr = d.pwr ∧ (gateFall v d).mgt = d.mgt ∧ (gateFall v d).boot = d.boot ∧ (gateFall v d).alm = d.alm ∧ (gateFall v d).par = d.par ∧ (gateFall v d).cal = d.cal ∧ (gateFall v d).mix = d.mix ∧ (gateFall v d).outs = d.outs ∧ (gateFall v d).tdm = d.tdm ∧ (gateFall v d).ser = d.ser ∧ (gateFall v d).cas = d.cas := by
  simp -implicitDefEqProofs [gateFall]

@[simp] theorem clusterQuench_keeps (v : Nat) (d : Dev) :
    (clusterQuench v d).regs = d.regs ∧ (clusterQuench v d).fresh = d.fresh ∧ (clusterQuench v d).mem = d.mem ∧ (clusterQuench v d).frame = d.frame ∧ (clusterQuench v d).port = d.port ∧ (clusterQuench v d).win = d.win ∧ (clusterQuench v d).cnt = d.cnt ∧ (clusterQuench v d).pwr = d.pwr ∧ (clusterQuench v d).mgt = d.mgt ∧ (clusterQuench v d).boot = d.boot ∧ (clusterQuench v d).alm = d.alm ∧ (clusterQuench v d).par = d.par ∧ (clusterQuench v d).cal = d.cal ∧ (clusterQuench v d).mix = d.mix ∧ (clusterQuench v d).outs = d.outs ∧ (clusterQuench v d).tdm = d.tdm ∧ (clusterQuench v d).ser = d.ser ∧ (clusterQuench v d).cas = d.cas := by
  simp -implicitDefEqProofs [clusterQuench]

@[simp] theorem postH_keeps (off : Nat) (v : Word) (be : BitVec 4) (mgmt : Bool) (d : Dev) :
    (postH off v be mgmt d).regs = d.regs ∧ (postH off v be mgmt d).fresh = d.fresh ∧ (postH off v be mgmt d).mem = d.mem ∧ (postH off v be mgmt d).frame = d.frame ∧ (postH off v be mgmt d).win = d.win ∧ (postH off v be mgmt d).cnt = d.cnt ∧ (postH off v be mgmt d).pwr = d.pwr ∧ (postH off v be mgmt d).mgt = d.mgt ∧ (postH off v be mgmt d).boot = d.boot ∧ (postH off v be mgmt d).alm = d.alm ∧ (postH off v be mgmt d).par = d.par ∧ (postH off v be mgmt d).aud = d.aud ∧ (postH off v be mgmt d).cal = d.cal ∧ (postH off v be mgmt d).mix = d.mix ∧ (postH off v be mgmt d).outs = d.outs ∧ (postH off v be mgmt d).tdm = d.tdm ∧ (postH off v be mgmt d).ser = d.ser ∧ (postH off v be mgmt d).cas = d.cas := by
  simp -implicitDefEqProofs [postH]

@[simp] theorem paramStoreHostWriteDev_keeps (a : Nat) (v : Word) (be : BitVec 4) (d : Dev) :
    (paramStoreHostWriteDev a v be d).regs = d.regs ∧ (paramStoreHostWriteDev a v be d).fresh = d.fresh ∧ (paramStoreHostWriteDev a v be d).mem = d.mem ∧ (paramStoreHostWriteDev a v be d).frame = d.frame ∧ (paramStoreHostWriteDev a v be d).win = d.win ∧ (paramStoreHostWriteDev a v be d).cnt = d.cnt ∧ (paramStoreHostWriteDev a v be d).pwr = d.pwr ∧ (paramStoreHostWriteDev a v be d).mgt = d.mgt ∧ (paramStoreHostWriteDev a v be d).boot = d.boot ∧ (paramStoreHostWriteDev a v be d).alm = d.alm ∧ (paramStoreHostWriteDev a v be d).par = d.par ∧ (paramStoreHostWriteDev a v be d).aud = d.aud ∧ (paramStoreHostWriteDev a v be d).cal = d.cal ∧ (paramStoreHostWriteDev a v be d).mix = d.mix ∧ (paramStoreHostWriteDev a v be d).outs = d.outs ∧ (paramStoreHostWriteDev a v be d).tdm = d.tdm ∧ (paramStoreHostWriteDev a v be d).ser = d.ser ∧ (paramStoreHostWriteDev a v be d).cas = d.cas := by
  simp -implicitDefEqProofs [paramStoreHostWriteDev]

@[simp] theorem cntHostLines_keeps (n : Nat) (d : Dev) :
    (cntHostLines n d).fresh = d.fresh ∧ (cntHostLines n d).mem = d.mem ∧ (cntHostLines n d).frame = d.frame ∧ (cntHostLines n d).port = d.port ∧ (cntHostLines n d).win = d.win ∧ (cntHostLines n d).pwr = d.pwr ∧ (cntHostLines n d).mgt = d.mgt ∧ (cntHostLines n d).boot = d.boot ∧ (cntHostLines n d).alm = d.alm ∧ (cntHostLines n d).par = d.par ∧ (cntHostLines n d).aud = d.aud ∧ (cntHostLines n d).cal = d.cal ∧ (cntHostLines n d).mix = d.mix ∧ (cntHostLines n d).outs = d.outs ∧ (cntHostLines n d).tdm = d.tdm ∧ (cntHostLines n d).ser = d.ser ∧ (cntHostLines n d).cas = d.cas := by
  refine ⟨?_, ?_, ?_, ?_, ?_, ?_, ?_, ?_, ?_, ?_, ?_, ?_, ?_, ?_, ?_, ?_, ?_⟩ <;> (simp only [cntHostLines]; repeat' split) <;> simp_all -implicitDefEqProofs

@[simp] theorem dramPut_keeps (a : Nat) (bs : List Byte) (d : Dev) :
    (dramPut a bs d).fresh = d.fresh ∧ (dramPut a bs d).frame = d.frame ∧ (dramPut a bs d).port = d.port ∧ (dramPut a bs d).win = d.win ∧ (dramPut a bs d).cnt = d.cnt ∧ (dramPut a bs d).pwr = d.pwr ∧ (dramPut a bs d).mgt = d.mgt ∧ (dramPut a bs d).boot = d.boot ∧ (dramPut a bs d).alm = d.alm ∧ (dramPut a bs d).par = d.par ∧ (dramPut a bs d).cal = d.cal ∧ (dramPut a bs d).mix = d.mix ∧ (dramPut a bs d).outs = d.outs ∧ (dramPut a bs d).tdm = d.tdm ∧ (dramPut a bs d).ser = d.ser ∧ (dramPut a bs d).cas = d.cas := by
  simp -implicitDefEqProofs [dramPut]

@[simp] theorem hostFresh_keeps (d : Dev) :
    (hostFresh d).regs = d.regs ∧ (hostFresh d).fresh = d.fresh ∧ (hostFresh d).frame = d.frame ∧ (hostFresh d).port = d.port ∧ (hostFresh d).win = d.win ∧ (hostFresh d).cnt = d.cnt ∧ (hostFresh d).pwr = d.pwr ∧ (hostFresh d).mgt = d.mgt ∧ (hostFresh d).boot = d.boot ∧ (hostFresh d).alm = d.alm ∧ (hostFresh d).par = d.par ∧ (hostFresh d).aud = d.aud ∧ (hostFresh d).cal = d.cal ∧ (hostFresh d).mix = d.mix ∧ (hostFresh d).outs = d.outs ∧ (hostFresh d).tdm = d.tdm ∧ (hostFresh d).ser = d.ser ∧ (hostFresh d).cas = d.cas := by
  simp -implicitDefEqProofs [hostFresh]

@[simp] theorem winAddrWriteDev_keeps (v : Word) (d : Dev) :
    (winAddrWriteDev v d).fresh = d.fresh ∧ (winAddrWriteDev v d).frame = d.frame ∧ (winAddrWriteDev v d).port = d.port ∧ (winAddrWriteDev v d).cnt = d.cnt ∧ (winAddrWriteDev v d).pwr = d.pwr ∧ (winAddrWriteDev v d).mgt = d.mgt ∧ (winAddrWriteDev v d).boot = d.boot ∧ (winAddrWriteDev v d).alm = d.alm ∧ (winAddrWriteDev v d).par = d.par ∧ (winAddrWriteDev v d).aud = d.aud ∧ (winAddrWriteDev v d).cal = d.cal ∧ (winAddrWriteDev v d).mix = d.mix ∧ (winAddrWriteDev v d).outs = d.outs ∧ (winAddrWriteDev v d).tdm = d.tdm ∧ (winAddrWriteDev v d).ser = d.ser ∧ (winAddrWriteDev v d).cas = d.cas := by
  refine ⟨?_, ?_, ?_, ?_, ?_, ?_, ?_, ?_, ?_, ?_, ?_, ?_, ?_, ?_, ?_, ?_⟩ <;> (unfold winAddrWriteDev; dsimp only; repeat' split) <;> simp -implicitDefEqProofs

@[simp] theorem winAdvance_keeps (d : Dev) :
    (winAdvance d).fresh = d.fresh ∧ (winAdvance d).mem = d.mem ∧ (winAdvance d).frame = d.frame ∧ (winAdvance d).port = d.port ∧ (winAdvance d).win = d.win ∧ (winAdvance d).cnt = d.cnt ∧ (winAdvance d).pwr = d.pwr ∧ (winAdvance d).mgt = d.mgt ∧ (winAdvance d).boot = d.boot ∧ (winAdvance d).alm = d.alm ∧ (winAdvance d).par = d.par ∧ (winAdvance d).aud = d.aud ∧ (winAdvance d).cal = d.cal ∧ (winAdvance d).mix = d.mix ∧ (winAdvance d).outs = d.outs ∧ (winAdvance d).tdm = d.tdm ∧ (winAdvance d).ser = d.ser ∧ (winAdvance d).cas = d.cas := by
  simp -implicitDefEqProofs [winAdvance]

@[simp] theorem winPop_keeps (d : Dev) :
    (winPop d).2.fresh = d.fresh ∧ (winPop d).2.mem = d.mem ∧ (winPop d).2.frame = d.frame ∧ (winPop d).2.port = d.port ∧ (winPop d).2.cnt = d.cnt ∧ (winPop d).2.pwr = d.pwr ∧ (winPop d).2.mgt = d.mgt ∧ (winPop d).2.boot = d.boot ∧ (winPop d).2.alm = d.alm ∧ (winPop d).2.par = d.par ∧ (winPop d).2.aud = d.aud ∧ (winPop d).2.cal = d.cal ∧ (winPop d).2.mix = d.mix ∧ (winPop d).2.outs = d.outs ∧ (winPop d).2.tdm = d.tdm ∧ (winPop d).2.ser = d.ser ∧ (winPop d).2.cas = d.cas := by
  unfold winPop; refine ⟨?_, ?_, ?_, ?_, ?_, ?_, ?_, ?_, ?_, ?_, ?_, ?_, ?_, ?_, ?_, ?_, ?_⟩ <;> (repeat' split) <;> simp -implicitDefEqProofs

@[simp] theorem winDataWriteDev_keeps (v : Word) (be : BitVec 4) (d : Dev) :
    (winDataWriteDev v be d).fresh = d.fresh ∧ (winDataWriteDev v be d).mem = d.mem ∧ (winDataWriteDev v be d).frame = d.frame ∧ (winDataWriteDev v be d).port = d.port ∧ (winDataWriteDev v be d).cnt = d.cnt ∧ (winDataWriteDev v be d).pwr = d.pwr ∧ (winDataWriteDev v be d).mgt = d.mgt ∧ (winDataWriteDev v be d).boot = d.boot ∧ (winDataWriteDev v be d).alm = d.alm ∧ (winDataWriteDev v be d).par = d.par ∧ (winDataWriteDev v be d).aud = d.aud ∧ (winDataWriteDev v be d).cal = d.cal ∧ (winDataWriteDev v be d).mix = d.mix ∧ (winDataWriteDev v be d).outs = d.outs ∧ (winDataWriteDev v be d).tdm = d.tdm ∧ (winDataWriteDev v be d).ser = d.ser ∧ (winDataWriteDev v be d).cas = d.cas := by
  simp -implicitDefEqProofs [winDataWriteDev]

@[simp] theorem winCtlWrite_keeps (v : Word) (d : Dev) :
    (winCtlWrite v d).fresh = d.fresh ∧ (winCtlWrite v d).frame = d.frame ∧ (winCtlWrite v d).port = d.port ∧ (winCtlWrite v d).cnt = d.cnt ∧ (winCtlWrite v d).pwr = d.pwr ∧ (winCtlWrite v d).mgt = d.mgt ∧ (winCtlWrite v d).boot = d.boot ∧ (winCtlWrite v d).alm = d.alm ∧ (winCtlWrite v d).par = d.par ∧ (winCtlWrite v d).aud = d.aud ∧ (winCtlWrite v d).cal = d.cal ∧ (winCtlWrite v d).mix = d.mix ∧ (winCtlWrite v d).outs = d.outs ∧ (winCtlWrite v d).tdm = d.tdm ∧ (winCtlWrite v d).ser = d.ser ∧ (winCtlWrite v d).cas = d.cas := by
  simp -implicitDefEqProofs [winCtlWrite]

@[simp] theorem winDirChangeDev_keeps (d : Dev) :
    (winDirChangeDev d).regs = d.regs ∧ (winDirChangeDev d).fresh = d.fresh ∧ (winDirChangeDev d).frame = d.frame ∧ (winDirChangeDev d).port = d.port ∧ (winDirChangeDev d).cnt = d.cnt ∧ (winDirChangeDev d).pwr = d.pwr ∧ (winDirChangeDev d).mgt = d.mgt ∧ (winDirChangeDev d).boot = d.boot ∧ (winDirChangeDev d).alm = d.alm ∧ (winDirChangeDev d).par = d.par ∧ (winDirChangeDev d).aud = d.aud ∧ (winDirChangeDev d).cal = d.cal ∧ (winDirChangeDev d).mix = d.mix ∧ (winDirChangeDev d).outs = d.outs ∧ (winDirChangeDev d).tdm = d.tdm ∧ (winDirChangeDev d).ser = d.ser ∧ (winDirChangeDev d).cas = d.cas := by
  simp -implicitDefEqProofs [winDirChangeDev]

@[simp] theorem dramReadyDev_keeps (d : Dev) :
    (dramReadyDev d).regs = d.regs ∧ (dramReadyDev d).fresh = d.fresh ∧ (dramReadyDev d).frame = d.frame ∧ (dramReadyDev d).port = d.port ∧ (dramReadyDev d).win = d.win ∧ (dramReadyDev d).cnt = d.cnt ∧ (dramReadyDev d).pwr = d.pwr ∧ (dramReadyDev d).mgt = d.mgt ∧ (dramReadyDev d).boot = d.boot ∧ (dramReadyDev d).alm = d.alm ∧ (dramReadyDev d).par = d.par ∧ (dramReadyDev d).aud = d.aud ∧ (dramReadyDev d).cal = d.cal ∧ (dramReadyDev d).mix = d.mix ∧ (dramReadyDev d).outs = d.outs ∧ (dramReadyDev d).tdm = d.tdm ∧ (dramReadyDev d).ser = d.ser ∧ (dramReadyDev d).cas = d.cas := by
  simp -implicitDefEqProofs [dramReadyDev]

@[simp] theorem moverTake_keeps (c : Nat) (m : Mover) (why : Nat) (d : Dev) :
    (moverTake c m why d).fresh = d.fresh ∧ (moverTake c m why d).frame = d.frame ∧ (moverTake c m why d).port = d.port ∧ (moverTake c m why d).win = d.win ∧ (moverTake c m why d).cnt = d.cnt ∧ (moverTake c m why d).pwr = d.pwr ∧ (moverTake c m why d).mgt = d.mgt ∧ (moverTake c m why d).boot = d.boot ∧ (moverTake c m why d).alm = d.alm ∧ (moverTake c m why d).par = d.par ∧ (moverTake c m why d).aud = d.aud ∧ (moverTake c m why d).cal = d.cal ∧ (moverTake c m why d).mix = d.mix ∧ (moverTake c m why d).outs = d.outs ∧ (moverTake c m why d).tdm = d.tdm ∧ (moverTake c m why d).ser = d.ser ∧ (moverTake c m why d).cas = d.cas := by
  simp -implicitDefEqProofs [moverTake]

@[simp] theorem putDesc_keeps (c : Nat) (m : Mover) (d : Dev) :
    (putDesc c m d).fresh = d.fresh ∧ (putDesc c m d).mem = d.mem ∧ (putDesc c m d).frame = d.frame ∧ (putDesc c m d).port = d.port ∧ (putDesc c m d).win = d.win ∧ (putDesc c m d).cnt = d.cnt ∧ (putDesc c m d).pwr = d.pwr ∧ (putDesc c m d).mgt = d.mgt ∧ (putDesc c m d).boot = d.boot ∧ (putDesc c m d).alm = d.alm ∧ (putDesc c m d).par = d.par ∧ (putDesc c m d).aud = d.aud ∧ (putDesc c m d).cal = d.cal ∧ (putDesc c m d).mix = d.mix ∧ (putDesc c m d).outs = d.outs ∧ (putDesc c m d).tdm = d.tdm ∧ (putDesc c m d).ser = d.ser ∧ (putDesc c m d).cas = d.cas := by
  simp -implicitDefEqProofs [putDesc]

@[simp] theorem firmwareIssue_keeps (c : Nat) (m : Mover) (d : Dev) :
    (firmwareIssue c m d).fresh = d.fresh ∧ (firmwareIssue c m d).frame = d.frame ∧ (firmwareIssue c m d).port = d.port ∧ (firmwareIssue c m d).win = d.win ∧ (firmwareIssue c m d).cnt = d.cnt ∧ (firmwareIssue c m d).pwr = d.pwr ∧ (firmwareIssue c m d).mgt = d.mgt ∧ (firmwareIssue c m d).boot = d.boot ∧ (firmwareIssue c m d).alm = d.alm ∧ (firmwareIssue c m d).par = d.par ∧ (firmwareIssue c m d).aud = d.aud ∧ (firmwareIssue c m d).cal = d.cal ∧ (firmwareIssue c m d).mix = d.mix ∧ (firmwareIssue c m d).outs = d.outs ∧ (firmwareIssue c m d).tdm = d.tdm ∧ (firmwareIssue c m d).ser = d.ser ∧ (firmwareIssue c m d).cas = d.cas := by
  simp -implicitDefEqProofs [firmwareIssue]

@[simp] theorem moverIssue_keeps (c : Nat) (d : Dev) :
    (moverIssue c d).fresh = d.fresh ∧ (moverIssue c d).frame = d.frame ∧ (moverIssue c d).port = d.port ∧ (moverIssue c d).win = d.win ∧ (moverIssue c d).cnt = d.cnt ∧ (moverIssue c d).pwr = d.pwr ∧ (moverIssue c d).mgt = d.mgt ∧ (moverIssue c d).boot = d.boot ∧ (moverIssue c d).alm = d.alm ∧ (moverIssue c d).par = d.par ∧ (moverIssue c d).aud = d.aud ∧ (moverIssue c d).cal = d.cal ∧ (moverIssue c d).mix = d.mix ∧ (moverIssue c d).outs = d.outs ∧ (moverIssue c d).tdm = d.tdm ∧ (moverIssue c d).ser = d.ser ∧ (moverIssue c d).cas = d.cas := by
  refine ⟨?_, ?_, ?_, ?_, ?_, ?_, ?_, ?_, ?_, ?_, ?_, ?_, ?_, ?_, ?_, ?_, ?_⟩ <;> (simp only [moverIssue]; repeat' split) <;> simp_all -implicitDefEqProofs

@[simp] theorem moverStop_keeps (c : Nat) (d : Dev) :
    (moverStop c d).regs = d.regs ∧ (moverStop c d).fresh = d.fresh ∧ (moverStop c d).frame = d.frame ∧ (moverStop c d).port = d.port ∧ (moverStop c d).win = d.win ∧ (moverStop c d).cnt = d.cnt ∧ (moverStop c d).pwr = d.pwr ∧ (moverStop c d).mgt = d.mgt ∧ (moverStop c d).boot = d.boot ∧ (moverStop c d).alm = d.alm ∧ (moverStop c d).par = d.par ∧ (moverStop c d).aud = d.aud ∧ (moverStop c d).cal = d.cal ∧ (moverStop c d).mix = d.mix ∧ (moverStop c d).outs = d.outs ∧ (moverStop c d).tdm = d.tdm ∧ (moverStop c d).ser = d.ser ∧ (moverStop c d).cas = d.cas := by
  simp -implicitDefEqProofs [moverStop]

@[simp] theorem moverGoDev_keeps (c : Nat) (v : Word) (d : Dev) :
    (moverGoDev c v d).fresh = d.fresh ∧ (moverGoDev c v d).frame = d.frame ∧ (moverGoDev c v d).port = d.port ∧ (moverGoDev c v d).win = d.win ∧ (moverGoDev c v d).cnt = d.cnt ∧ (moverGoDev c v d).pwr = d.pwr ∧ (moverGoDev c v d).mgt = d.mgt ∧ (moverGoDev c v d).boot = d.boot ∧ (moverGoDev c v d).alm = d.alm ∧ (moverGoDev c v d).par = d.par ∧ (moverGoDev c v d).aud = d.aud ∧ (moverGoDev c v d).cal = d.cal ∧ (moverGoDev c v d).mix = d.mix ∧ (moverGoDev c v d).outs = d.outs ∧ (moverGoDev c v d).tdm = d.tdm ∧ (moverGoDev c v d).ser = d.ser ∧ (moverGoDev c v d).cas = d.cas := by
  simp -implicitDefEqProofs [moverGoDev]

@[simp] theorem moverAbortDev_keeps (c : Nat) (v : Word) (d : Dev) :
    (moverAbortDev c v d).regs = d.regs ∧ (moverAbortDev c v d).fresh = d.fresh ∧ (moverAbortDev c v d).frame = d.frame ∧ (moverAbortDev c v d).port = d.port ∧ (moverAbortDev c v d).win = d.win ∧ (moverAbortDev c v d).cnt = d.cnt ∧ (moverAbortDev c v d).pwr = d.pwr ∧ (moverAbortDev c v d).mgt = d.mgt ∧ (moverAbortDev c v d).boot = d.boot ∧ (moverAbortDev c v d).alm = d.alm ∧ (moverAbortDev c v d).par = d.par ∧ (moverAbortDev c v d).aud = d.aud ∧ (moverAbortDev c v d).cal = d.cal ∧ (moverAbortDev c v d).mix = d.mix ∧ (moverAbortDev c v d).outs = d.outs ∧ (moverAbortDev c v d).tdm = d.tdm ∧ (moverAbortDev c v d).ser = d.ser ∧ (moverAbortDev c v d).cas = d.cas := by
  simp -implicitDefEqProofs [moverAbortDev]

@[simp] theorem hostMoved_keeps (n : Nat) (d : Dev) :
    (hostMoved n d).fresh = d.fresh ∧ (hostMoved n d).frame = d.frame ∧ (hostMoved n d).port = d.port ∧ (hostMoved n d).win = d.win ∧ (hostMoved n d).pwr = d.pwr ∧ (hostMoved n d).mgt = d.mgt ∧ (hostMoved n d).boot = d.boot ∧ (hostMoved n d).alm = d.alm ∧ (hostMoved n d).par = d.par ∧ (hostMoved n d).aud = d.aud ∧ (hostMoved n d).cal = d.cal ∧ (hostMoved n d).mix = d.mix ∧ (hostMoved n d).outs = d.outs ∧ (hostMoved n d).tdm = d.tdm ∧ (hostMoved n d).ser = d.ser ∧ (hostMoved n d).cas = d.cas := by
  simp -implicitDefEqProofs [hostMoved]

@[simp] theorem movMoved_keeps (n : Nat) (d : Dev) :
    (movMoved n d).regs = d.regs ∧ (movMoved n d).fresh = d.fresh ∧ (movMoved n d).frame = d.frame ∧ (movMoved n d).port = d.port ∧ (movMoved n d).win = d.win ∧ (movMoved n d).cnt = d.cnt ∧ (movMoved n d).pwr = d.pwr ∧ (movMoved n d).mgt = d.mgt ∧ (movMoved n d).boot = d.boot ∧ (movMoved n d).alm = d.alm ∧ (movMoved n d).par = d.par ∧ (movMoved n d).aud = d.aud ∧ (movMoved n d).cal = d.cal ∧ (movMoved n d).mix = d.mix ∧ (movMoved n d).outs = d.outs ∧ (movMoved n d).tdm = d.tdm ∧ (movMoved n d).ser = d.ser ∧ (movMoved n d).cas = d.cas := by
  simp -implicitDefEqProofs [movMoved]

@[simp] theorem lanesRelease_keeps (d : Dev) :
    (lanesRelease d).regs = d.regs ∧ (lanesRelease d).fresh = d.fresh ∧ (lanesRelease d).frame = d.frame ∧ (lanesRelease d).port = d.port ∧ (lanesRelease d).win = d.win ∧ (lanesRelease d).cnt = d.cnt ∧ (lanesRelease d).pwr = d.pwr ∧ (lanesRelease d).mgt = d.mgt ∧ (lanesRelease d).boot = d.boot ∧ (lanesRelease d).alm = d.alm ∧ (lanesRelease d).par = d.par ∧ (lanesRelease d).aud = d.aud ∧ (lanesRelease d).cal = d.cal ∧ (lanesRelease d).mix = d.mix ∧ (lanesRelease d).outs = d.outs ∧ (lanesRelease d).tdm = d.tdm ∧ (lanesRelease d).ser = d.ser ∧ (lanesRelease d).cas = d.cas := by
  simp -implicitDefEqProofs [lanesRelease]

@[simp] theorem windowFillDev_keeps (d : Dev) :
    (windowFillDev d).fresh = d.fresh ∧ (windowFillDev d).frame = d.frame ∧ (windowFillDev d).port = d.port ∧ (windowFillDev d).pwr = d.pwr ∧ (windowFillDev d).mgt = d.mgt ∧ (windowFillDev d).boot = d.boot ∧ (windowFillDev d).alm = d.alm ∧ (windowFillDev d).par = d.par ∧ (windowFillDev d).aud = d.aud ∧ (windowFillDev d).cal = d.cal ∧ (windowFillDev d).mix = d.mix ∧ (windowFillDev d).outs = d.outs ∧ (windowFillDev d).tdm = d.tdm ∧ (windowFillDev d).ser = d.ser ∧ (windowFillDev d).cas = d.cas := by
  simp -implicitDefEqProofs [windowFillDev]

@[simp] theorem drainPut_keeps (a : Nat) (v : Word) (be : BitVec 4) (pack : Bool) (d : Dev) :
    (drainPut a v be pack d).fresh = d.fresh ∧ (drainPut a v be pack d).frame = d.frame ∧ (drainPut a v be pack d).port = d.port ∧ (drainPut a v be pack d).win = d.win ∧ (drainPut a v be pack d).cnt = d.cnt ∧ (drainPut a v be pack d).pwr = d.pwr ∧ (drainPut a v be pack d).mgt = d.mgt ∧ (drainPut a v be pack d).boot = d.boot ∧ (drainPut a v be pack d).alm = d.alm ∧ (drainPut a v be pack d).par = d.par ∧ (drainPut a v be pack d).cal = d.cal ∧ (drainPut a v be pack d).mix = d.mix ∧ (drainPut a v be pack d).outs = d.outs ∧ (drainPut a v be pack d).tdm = d.tdm ∧ (drainPut a v be pack d).ser = d.ser ∧ (drainPut a v be pack d).cas = d.cas := by
  simp -implicitDefEqProofs [drainPut]

@[simp] theorem windowDrainDev_keeps (d : Dev) :
    (windowDrainDev d).fresh = d.fresh ∧ (windowDrainDev d).frame = d.frame ∧ (windowDrainDev d).port = d.port ∧ (windowDrainDev d).pwr = d.pwr ∧ (windowDrainDev d).mgt = d.mgt ∧ (windowDrainDev d).boot = d.boot ∧ (windowDrainDev d).alm = d.alm ∧ (windowDrainDev d).par = d.par ∧ (windowDrainDev d).cal = d.cal ∧ (windowDrainDev d).mix = d.mix ∧ (windowDrainDev d).outs = d.outs ∧ (windowDrainDev d).tdm = d.tdm ∧ (windowDrainDev d).ser = d.ser ∧ (windowDrainDev d).cas = d.cas := by
  unfold windowDrainDev; refine ⟨?_, ?_, ?_, ?_, ?_, ?_, ?_, ?_, ?_, ?_, ?_, ?_, ?_, ?_⟩ <;> (repeat' split) <;> simp -implicitDefEqProofs

@[simp] theorem moverDoneDev_keeps (c : Nat) (d : Dev) :
    (moverDoneDev c d).fresh = d.fresh ∧ (moverDoneDev c d).frame = d.frame ∧ (moverDoneDev c d).port = d.port ∧ (moverDoneDev c d).win = d.win ∧ (moverDoneDev c d).cnt = d.cnt ∧ (moverDoneDev c d).pwr = d.pwr ∧ (moverDoneDev c d).mgt = d.mgt ∧ (moverDoneDev c d).boot = d.boot ∧ (moverDoneDev c d).alm = d.alm ∧ (moverDoneDev c d).par = d.par ∧ (moverDoneDev c d).aud = d.aud ∧ (moverDoneDev c d).cal = d.cal ∧ (moverDoneDev c d).mix = d.mix ∧ (moverDoneDev c d).outs = d.outs ∧ (moverDoneDev c d).tdm = d.tdm ∧ (moverDoneDev c d).ser = d.ser ∧ (moverDoneDev c d).cas = d.cas := by
  simp -implicitDefEqProofs [moverDoneDev]

@[simp] theorem patrolBorrowDev_keeps (d : Dev) :
    (patrolBorrowDev d).regs = d.regs ∧ (patrolBorrowDev d).fresh = d.fresh ∧ (patrolBorrowDev d).frame = d.frame ∧ (patrolBorrowDev d).port = d.port ∧ (patrolBorrowDev d).win = d.win ∧ (patrolBorrowDev d).cnt = d.cnt ∧ (patrolBorrowDev d).pwr = d.pwr ∧ (patrolBorrowDev d).mgt = d.mgt ∧ (patrolBorrowDev d).boot = d.boot ∧ (patrolBorrowDev d).alm = d.alm ∧ (patrolBorrowDev d).par = d.par ∧ (patrolBorrowDev d).aud = d.aud ∧ (patrolBorrowDev d).cal = d.cal ∧ (patrolBorrowDev d).mix = d.mix ∧ (patrolBorrowDev d).outs = d.outs ∧ (patrolBorrowDev d).tdm = d.tdm ∧ (patrolBorrowDev d).ser = d.ser ∧ (patrolBorrowDev d).cas = d.cas := by
  simp -implicitDefEqProofs [patrolBorrowDev]

@[simp] theorem patrolReturn_keeps (d : Dev) :
    (patrolReturn d).regs = d.regs ∧ (patrolReturn d).fresh = d.fresh ∧ (patrolReturn d).frame = d.frame ∧ (patrolReturn d).port = d.port ∧ (patrolReturn d).win = d.win ∧ (patrolReturn d).cnt = d.cnt ∧ (patrolReturn d).pwr = d.pwr ∧ (patrolReturn d).mgt = d.mgt ∧ (patrolReturn d).boot = d.boot ∧ (patrolReturn d).alm = d.alm ∧ (patrolReturn d).par = d.par ∧ (patrolReturn d).aud = d.aud ∧ (patrolReturn d).cal = d.cal ∧ (patrolReturn d).mix = d.mix ∧ (patrolReturn d).outs = d.outs ∧ (patrolReturn d).tdm = d.tdm ∧ (patrolReturn d).ser = d.ser ∧ (patrolReturn d).cas = d.cas := by
  simp -implicitDefEqProofs [patrolReturn]

@[simp] theorem patrolRestoreDev_keeps (pass : Bool) (d : Dev) :
    (patrolRestoreDev pass d).fresh = d.fresh ∧ (patrolRestoreDev pass d).frame = d.frame ∧ (patrolRestoreDev pass d).port = d.port ∧ (patrolRestoreDev pass d).win = d.win ∧ (patrolRestoreDev pass d).cnt = d.cnt ∧ (patrolRestoreDev pass d).pwr = d.pwr ∧ (patrolRestoreDev pass d).boot = d.boot ∧ (patrolRestoreDev pass d).alm = d.alm ∧ (patrolRestoreDev pass d).par = d.par ∧ (patrolRestoreDev pass d).aud = d.aud ∧ (patrolRestoreDev pass d).cal = d.cal ∧ (patrolRestoreDev pass d).mix = d.mix ∧ (patrolRestoreDev pass d).outs = d.outs ∧ (patrolRestoreDev pass d).tdm = d.tdm ∧ (patrolRestoreDev pass d).ser = d.ser ∧ (patrolRestoreDev pass d).cas = d.cas := by
  simp -implicitDefEqProofs [patrolRestoreDev]

@[simp] theorem patrolAbortDev_keeps (d : Dev) :
    (patrolAbortDev d).fresh = d.fresh ∧ (patrolAbortDev d).frame = d.frame ∧ (patrolAbortDev d).port = d.port ∧ (patrolAbortDev d).win = d.win ∧ (patrolAbortDev d).cnt = d.cnt ∧ (patrolAbortDev d).pwr = d.pwr ∧ (patrolAbortDev d).boot = d.boot ∧ (patrolAbortDev d).alm = d.alm ∧ (patrolAbortDev d).par = d.par ∧ (patrolAbortDev d).aud = d.aud ∧ (patrolAbortDev d).cal = d.cal ∧ (patrolAbortDev d).mix = d.mix ∧ (patrolAbortDev d).outs = d.outs ∧ (patrolAbortDev d).tdm = d.tdm ∧ (patrolAbortDev d).ser = d.ser ∧ (patrolAbortDev d).cas = d.cas := by
  simp -implicitDefEqProofs [patrolAbortDev]

@[simp] theorem bootLog_keeps (fatal : Bool) (code slot sect : Nat) (d : Dev) :
    (bootLog fatal code slot sect d).fresh = d.fresh ∧ (bootLog fatal code slot sect d).mem = d.mem ∧ (bootLog fatal code slot sect d).frame = d.frame ∧ (bootLog fatal code slot sect d).port = d.port ∧ (bootLog fatal code slot sect d).win = d.win ∧ (bootLog fatal code slot sect d).cnt = d.cnt ∧ (bootLog fatal code slot sect d).pwr = d.pwr ∧ (bootLog fatal code slot sect d).boot = d.boot ∧ (bootLog fatal code slot sect d).alm = d.alm ∧ (bootLog fatal code slot sect d).par = d.par ∧ (bootLog fatal code slot sect d).aud = d.aud ∧ (bootLog fatal code slot sect d).cal = d.cal ∧ (bootLog fatal code slot sect d).mix = d.mix ∧ (bootLog fatal code slot sect d).outs = d.outs ∧ (bootLog fatal code slot sect d).tdm = d.tdm ∧ (bootLog fatal code slot sect d).ser = d.ser ∧ (bootLog fatal code slot sect d).cas = d.cas := by
  simp -implicitDefEqProofs [bootLog]

@[simp] theorem bootWarn_keeps (code slot sect : Nat) (d : Dev) :
    (bootWarn code slot sect d).fresh = d.fresh ∧ (bootWarn code slot sect d).mem = d.mem ∧ (bootWarn code slot sect d).frame = d.frame ∧ (bootWarn code slot sect d).port = d.port ∧ (bootWarn code slot sect d).win = d.win ∧ (bootWarn code slot sect d).cnt = d.cnt ∧ (bootWarn code slot sect d).pwr = d.pwr ∧ (bootWarn code slot sect d).boot = d.boot ∧ (bootWarn code slot sect d).alm = d.alm ∧ (bootWarn code slot sect d).par = d.par ∧ (bootWarn code slot sect d).aud = d.aud ∧ (bootWarn code slot sect d).cal = d.cal ∧ (bootWarn code slot sect d).mix = d.mix ∧ (bootWarn code slot sect d).outs = d.outs ∧ (bootWarn code slot sect d).tdm = d.tdm ∧ (bootWarn code slot sect d).ser = d.ser ∧ (bootWarn code slot sect d).cas = d.cas := by
  simp -implicitDefEqProofs [bootWarn]

@[simp] theorem bootErr_keeps (code sect : Nat) (d : Dev) :
    (bootErr code sect d).fresh = d.fresh ∧ (bootErr code sect d).mem = d.mem ∧ (bootErr code sect d).frame = d.frame ∧ (bootErr code sect d).port = d.port ∧ (bootErr code sect d).win = d.win ∧ (bootErr code sect d).cnt = d.cnt ∧ (bootErr code sect d).pwr = d.pwr ∧ (bootErr code sect d).mgt = d.mgt ∧ (bootErr code sect d).boot = d.boot ∧ (bootErr code sect d).alm = d.alm ∧ (bootErr code sect d).par = d.par ∧ (bootErr code sect d).aud = d.aud ∧ (bootErr code sect d).cal = d.cal ∧ (bootErr code sect d).mix = d.mix ∧ (bootErr code sect d).outs = d.outs ∧ (bootErr code sect d).tdm = d.tdm ∧ (bootErr code sect d).ser = d.ser ∧ (bootErr code sect d).cas = d.cas := by
  simp -implicitDefEqProofs [bootErr]

@[simp] theorem loadCode_keeps (b : List Byte) (d : Dev) :
    (loadCode b d).regs = d.regs ∧ (loadCode b d).fresh = d.fresh ∧ (loadCode b d).frame = d.frame ∧ (loadCode b d).port = d.port ∧ (loadCode b d).win = d.win ∧ (loadCode b d).cnt = d.cnt ∧ (loadCode b d).pwr = d.pwr ∧ (loadCode b d).mgt = d.mgt ∧ (loadCode b d).boot = d.boot ∧ (loadCode b d).alm = d.alm ∧ (loadCode b d).par = d.par ∧ (loadCode b d).aud = d.aud ∧ (loadCode b d).cal = d.cal ∧ (loadCode b d).mix = d.mix ∧ (loadCode b d).outs = d.outs ∧ (loadCode b d).tdm = d.tdm ∧ (loadCode b d).ser = d.ser ∧ (loadCode b d).cas = d.cas := by
  simp -implicitDefEqProofs [loadCode]

@[simp] theorem loadPartWord_keeps (off : Nat) (bs : List Byte) (d : Dev) :
    (loadPartWord off bs d).fresh = d.fresh ∧ (loadPartWord off bs d).frame = d.frame ∧ (loadPartWord off bs d).port = d.port ∧ (loadPartWord off bs d).win = d.win ∧ (loadPartWord off bs d).cnt = d.cnt ∧ (loadPartWord off bs d).pwr = d.pwr ∧ (loadPartWord off bs d).mgt = d.mgt ∧ (loadPartWord off bs d).boot = d.boot ∧ (loadPartWord off bs d).alm = d.alm ∧ (loadPartWord off bs d).par = d.par ∧ (loadPartWord off bs d).aud = d.aud ∧ (loadPartWord off bs d).cal = d.cal ∧ (loadPartWord off bs d).mix = d.mix ∧ (loadPartWord off bs d).outs = d.outs ∧ (loadPartWord off bs d).tdm = d.tdm ∧ (loadPartWord off bs d).ser = d.ser ∧ (loadPartWord off bs d).cas = d.cas := by
  simp -implicitDefEqProofs [loadPartWord]

@[simp] theorem loadRecords_keeps (x : Sect) (b : List Byte) (d : Dev) :
    (loadRecords x b d).fresh = d.fresh ∧ (loadRecords x b d).frame = d.frame ∧ (loadRecords x b d).port = d.port ∧ (loadRecords x b d).win = d.win ∧ (loadRecords x b d).pwr = d.pwr ∧ (loadRecords x b d).mgt = d.mgt ∧ (loadRecords x b d).boot = d.boot ∧ (loadRecords x b d).alm = d.alm ∧ (loadRecords x b d).par = d.par ∧ (loadRecords x b d).aud = d.aud ∧ (loadRecords x b d).cal = d.cal ∧ (loadRecords x b d).mix = d.mix ∧ (loadRecords x b d).outs = d.outs ∧ (loadRecords x b d).tdm = d.tdm ∧ (loadRecords x b d).ser = d.ser ∧ (loadRecords x b d).cas = d.cas := by
  unfold loadRecords; refine ⟨?_, ?_, ?_, ?_, ?_, ?_, ?_, ?_, ?_, ?_, ?_, ?_, ?_, ?_, ?_, ?_⟩ <;> (repeat' split) <;> simp -implicitDefEqProofs

@[simp] theorem nvmResetIssue_keeps (d : Dev) :
    (nvmResetIssue d).fresh = d.fresh ∧ (nvmResetIssue d).mem = d.mem ∧ (nvmResetIssue d).frame = d.frame ∧ (nvmResetIssue d).port = d.port ∧ (nvmResetIssue d).win = d.win ∧ (nvmResetIssue d).cnt = d.cnt ∧ (nvmResetIssue d).pwr = d.pwr ∧ (nvmResetIssue d).mgt = d.mgt ∧ (nvmResetIssue d).alm = d.alm ∧ (nvmResetIssue d).par = d.par ∧ (nvmResetIssue d).aud = d.aud ∧ (nvmResetIssue d).cal = d.cal ∧ (nvmResetIssue d).mix = d.mix ∧ (nvmResetIssue d).outs = d.outs ∧ (nvmResetIssue d).tdm = d.tdm ∧ (nvmResetIssue d).ser = d.ser ∧ (nvmResetIssue d).cas = d.cas := by
  simp -implicitDefEqProofs [nvmResetIssue]

@[simp] theorem nvmResetDev_keeps (d : Dev) :
    (nvmResetDev d).fresh = d.fresh ∧ (nvmResetDev d).mem = d.mem ∧ (nvmResetDev d).frame = d.frame ∧ (nvmResetDev d).port = d.port ∧ (nvmResetDev d).win = d.win ∧ (nvmResetDev d).cnt = d.cnt ∧ (nvmResetDev d).pwr = d.pwr ∧ (nvmResetDev d).mgt = d.mgt ∧ (nvmResetDev d).alm = d.alm ∧ (nvmResetDev d).par = d.par ∧ (nvmResetDev d).aud = d.aud ∧ (nvmResetDev d).cal = d.cal ∧ (nvmResetDev d).mix = d.mix ∧ (nvmResetDev d).outs = d.outs ∧ (nvmResetDev d).tdm = d.tdm ∧ (nvmResetDev d).ser = d.ser ∧ (nvmResetDev d).cas = d.cas := by
  refine ⟨?_, ?_, ?_, ?_, ?_, ?_, ?_, ?_, ?_, ?_, ?_, ?_, ?_, ?_, ?_, ?_, ?_⟩ <;> (simp only [nvmResetDev]; repeat' split) <;> simp_all -implicitDefEqProofs

@[simp] theorem mixPut_keeps (a : Nat) (v : Word) (d : Dev) :
    (mixPut a v d).fresh = d.fresh ∧ (mixPut a v d).mem = d.mem ∧ (mixPut a v d).frame = d.frame ∧ (mixPut a v d).port = d.port ∧ (mixPut a v d).win = d.win ∧ (mixPut a v d).cnt = d.cnt ∧ (mixPut a v d).pwr = d.pwr ∧ (mixPut a v d).mgt = d.mgt ∧ (mixPut a v d).boot = d.boot ∧ (mixPut a v d).alm = d.alm ∧ (mixPut a v d).par = d.par ∧ (mixPut a v d).aud = d.aud ∧ (mixPut a v d).cal = d.cal ∧ (mixPut a v d).outs = d.outs ∧ (mixPut a v d).tdm = d.tdm ∧ (mixPut a v d).ser = d.ser ∧ (mixPut a v d).cas = d.cas := by
  refine ⟨?_, ?_, ?_, ?_, ?_, ?_, ?_, ?_, ?_, ?_, ?_, ?_, ?_, ?_, ?_, ?_, ?_⟩ <;> (simp only [mixPut]; repeat' split) <;> simp_all -implicitDefEqProofs

@[simp] theorem mixClear_keeps (a : Nat) (w : Word) (d : Dev) :
    (mixClear a w d).regs = d.regs ∧ (mixClear a w d).fresh = d.fresh ∧ (mixClear a w d).mem = d.mem ∧ (mixClear a w d).frame = d.frame ∧ (mixClear a w d).port = d.port ∧ (mixClear a w d).win = d.win ∧ (mixClear a w d).cnt = d.cnt ∧ (mixClear a w d).pwr = d.pwr ∧ (mixClear a w d).mgt = d.mgt ∧ (mixClear a w d).boot = d.boot ∧ (mixClear a w d).alm = d.alm ∧ (mixClear a w d).par = d.par ∧ (mixClear a w d).aud = d.aud ∧ (mixClear a w d).cal = d.cal ∧ (mixClear a w d).outs = d.outs ∧ (mixClear a w d).tdm = d.tdm ∧ (mixClear a w d).ser = d.ser ∧ (mixClear a w d).cas = d.cas := by
  simp -implicitDefEqProofs [mixClear]

@[simp] theorem Dev.raise_keeps (d : Dev) (a n : Nat) :
    (Dev.raise d a n).fresh = d.fresh ∧ (Dev.raise d a n).mem = d.mem ∧ (Dev.raise d a n).frame = d.frame ∧ (Dev.raise d a n).port = d.port ∧ (Dev.raise d a n).win = d.win ∧ (Dev.raise d a n).cnt = d.cnt ∧ (Dev.raise d a n).pwr = d.pwr ∧ (Dev.raise d a n).mgt = d.mgt ∧ (Dev.raise d a n).boot = d.boot ∧ (Dev.raise d a n).alm = d.alm ∧ (Dev.raise d a n).par = d.par ∧ (Dev.raise d a n).aud = d.aud ∧ (Dev.raise d a n).cal = d.cal ∧ (Dev.raise d a n).mix = d.mix ∧ (Dev.raise d a n).outs = d.outs ∧ (Dev.raise d a n).tdm = d.tdm ∧ (Dev.raise d a n).ser = d.ser ∧ (Dev.raise d a n).cas = d.cas := by
  simp -implicitDefEqProofs [Dev.raise]

@[simp] theorem Dev.raiseIrq_keeps (d : Dev) (dom a n : Nat) :
    (Dev.raiseIrq d dom a n).fresh = d.fresh ∧ (Dev.raiseIrq d dom a n).mem = d.mem ∧ (Dev.raiseIrq d dom a n).frame = d.frame ∧ (Dev.raiseIrq d dom a n).port = d.port ∧ (Dev.raiseIrq d dom a n).win = d.win ∧ (Dev.raiseIrq d dom a n).cnt = d.cnt ∧ (Dev.raiseIrq d dom a n).pwr = d.pwr ∧ (Dev.raiseIrq d dom a n).mgt = d.mgt ∧ (Dev.raiseIrq d dom a n).boot = d.boot ∧ (Dev.raiseIrq d dom a n).alm = d.alm ∧ (Dev.raiseIrq d dom a n).par = d.par ∧ (Dev.raiseIrq d dom a n).aud = d.aud ∧ (Dev.raiseIrq d dom a n).cal = d.cal ∧ (Dev.raiseIrq d dom a n).mix = d.mix ∧ (Dev.raiseIrq d dom a n).outs = d.outs ∧ (Dev.raiseIrq d dom a n).tdm = d.tdm ∧ (Dev.raiseIrq d dom a n).ser = d.ser ∧ (Dev.raiseIrq d dom a n).cas = d.cas := by
  simp -implicitDefEqProofs [Dev.raiseIrq]

@[simp] theorem effRelease_keeps (d : Dev) :
    (effRelease d).fresh = d.fresh ∧ (effRelease d).mem = d.mem ∧ (effRelease d).frame = d.frame ∧ (effRelease d).port = d.port ∧ (effRelease d).win = d.win ∧ (effRelease d).cnt = d.cnt ∧ (effRelease d).pwr = d.pwr ∧ (effRelease d).mgt = d.mgt ∧ (effRelease d).boot = d.boot ∧ (effRelease d).alm = d.alm ∧ (effRelease d).par = d.par ∧ (effRelease d).aud = d.aud ∧ (effRelease d).cal = d.cal ∧ (effRelease d).outs = d.outs ∧ (effRelease d).tdm = d.tdm ∧ (effRelease d).ser = d.ser ∧ (effRelease d).cas = d.cas := by
  simp -implicitDefEqProofs [effRelease]

@[simp] theorem mixRelease_keeps (d : Dev) :
    (mixRelease d).fresh = d.fresh ∧ (mixRelease d).mem = d.mem ∧ (mixRelease d).frame = d.frame ∧ (mixRelease d).port = d.port ∧ (mixRelease d).cnt = d.cnt ∧ (mixRelease d).pwr = d.pwr ∧ (mixRelease d).mgt = d.mgt ∧ (mixRelease d).boot = d.boot ∧ (mixRelease d).alm = d.alm ∧ (mixRelease d).par = d.par ∧ (mixRelease d).aud = d.aud ∧ (mixRelease d).cal = d.cal ∧ (mixRelease d).outs = d.outs ∧ (mixRelease d).tdm = d.tdm ∧ (mixRelease d).ser = d.ser ∧ (mixRelease d).cas = d.cas := by
  simp -implicitDefEqProofs [mixRelease]

@[simp] theorem mixWake_keeps (d : Dev) :
    (mixWake d).regs = d.regs ∧ (mixWake d).fresh = d.fresh ∧ (mixWake d).mem = d.mem ∧ (mixWake d).frame = d.frame ∧ (mixWake d).port = d.port ∧ (mixWake d).win = d.win ∧ (mixWake d).cnt = d.cnt ∧ (mixWake d).pwr = d.pwr ∧ (mixWake d).mgt = d.mgt ∧ (mixWake d).boot = d.boot ∧ (mixWake d).alm = d.alm ∧ (mixWake d).par = d.par ∧ (mixWake d).aud = d.aud ∧ (mixWake d).cal = d.cal ∧ (mixWake d).outs = d.outs ∧ (mixWake d).tdm = d.tdm ∧ (mixWake d).ser = d.ser ∧ (mixWake d).cas = d.cas := by
  simp -implicitDefEqProofs [mixWake]

@[simp] theorem parkOutputs_keeps (pins : Bool) (d : Dev) :
    (parkOutputs pins d).regs = d.regs ∧ (parkOutputs pins d).fresh = d.fresh ∧ (parkOutputs pins d).mem = d.mem ∧ (parkOutputs pins d).frame = d.frame ∧ (parkOutputs pins d).port = d.port ∧ (parkOutputs pins d).win = d.win ∧ (parkOutputs pins d).cnt = d.cnt ∧ (parkOutputs pins d).pwr = d.pwr ∧ (parkOutputs pins d).mgt = d.mgt ∧ (parkOutputs pins d).boot = d.boot ∧ (parkOutputs pins d).alm = d.alm ∧ (parkOutputs pins d).par = d.par ∧ (parkOutputs pins d).aud = d.aud ∧ (parkOutputs pins d).cal = d.cal ∧ (parkOutputs pins d).mix = d.mix ∧ (parkOutputs pins d).tdm = d.tdm ∧ (parkOutputs pins d).ser = d.ser ∧ (parkOutputs pins d).cas = d.cas := by
  simp -implicitDefEqProofs [parkOutputs]

@[simp] theorem holdOutputs_keeps (start : Nat) (d : Dev) :
    (holdOutputs start d).regs = d.regs ∧ (holdOutputs start d).fresh = d.fresh ∧ (holdOutputs start d).mem = d.mem ∧ (holdOutputs start d).frame = d.frame ∧ (holdOutputs start d).port = d.port ∧ (holdOutputs start d).win = d.win ∧ (holdOutputs start d).cnt = d.cnt ∧ (holdOutputs start d).pwr = d.pwr ∧ (holdOutputs start d).mgt = d.mgt ∧ (holdOutputs start d).boot = d.boot ∧ (holdOutputs start d).alm = d.alm ∧ (holdOutputs start d).par = d.par ∧ (holdOutputs start d).aud = d.aud ∧ (holdOutputs start d).cal = d.cal ∧ (holdOutputs start d).mix = d.mix ∧ (holdOutputs start d).tdm = d.tdm ∧ (holdOutputs start d).ser = d.ser ∧ (holdOutputs start d).cas = d.cas := by
  simp -implicitDefEqProofs [holdOutputs]

@[simp] theorem playStart_keeps (i k : Nat) (d : Dev) :
    (playStart i k d).fresh = d.fresh ∧ (playStart i k d).mem = d.mem ∧ (playStart i k d).frame = d.frame ∧ (playStart i k d).port = d.port ∧ (playStart i k d).win = d.win ∧ (playStart i k d).cnt = d.cnt ∧ (playStart i k d).pwr = d.pwr ∧ (playStart i k d).mgt = d.mgt ∧ (playStart i k d).boot = d.boot ∧ (playStart i k d).alm = d.alm ∧ (playStart i k d).par = d.par ∧ (playStart i k d).aud = d.aud ∧ (playStart i k d).cal = d.cal ∧ (playStart i k d).mix = d.mix ∧ (playStart i k d).tdm = d.tdm ∧ (playStart i k d).ser = d.ser ∧ (playStart i k d).cas = d.cas := by
  simp -implicitDefEqProofs [playStart]

@[simp] theorem playStop_keeps (i : Nat) (d : Dev) :
    (playStop i d).regs = d.regs ∧ (playStop i d).fresh = d.fresh ∧ (playStop i d).mem = d.mem ∧ (playStop i d).frame = d.frame ∧ (playStop i d).port = d.port ∧ (playStop i d).win = d.win ∧ (playStop i d).cnt = d.cnt ∧ (playStop i d).pwr = d.pwr ∧ (playStop i d).mgt = d.mgt ∧ (playStop i d).boot = d.boot ∧ (playStop i d).alm = d.alm ∧ (playStop i d).par = d.par ∧ (playStop i d).aud = d.aud ∧ (playStop i d).cal = d.cal ∧ (playStop i d).mix = d.mix ∧ (playStop i d).tdm = d.tdm ∧ (playStop i d).ser = d.ser ∧ (playStop i d).cas = d.cas := by
  simp -implicitDefEqProofs [playStop]

@[simp] theorem playCfgWrite_keeps (i : Nat) (v : Word) (d : Dev) :
    (playCfgWrite i v d).fresh = d.fresh ∧ (playCfgWrite i v d).mem = d.mem ∧ (playCfgWrite i v d).frame = d.frame ∧ (playCfgWrite i v d).port = d.port ∧ (playCfgWrite i v d).win = d.win ∧ (playCfgWrite i v d).cnt = d.cnt ∧ (playCfgWrite i v d).pwr = d.pwr ∧ (playCfgWrite i v d).mgt = d.mgt ∧ (playCfgWrite i v d).boot = d.boot ∧ (playCfgWrite i v d).alm = d.alm ∧ (playCfgWrite i v d).par = d.par ∧ (playCfgWrite i v d).aud = d.aud ∧ (playCfgWrite i v d).cal = d.cal ∧ (playCfgWrite i v d).tdm = d.tdm ∧ (playCfgWrite i v d).ser = d.ser ∧ (playCfgWrite i v d).cas = d.cas := by
  simp -implicitDefEqProofs [playCfgWrite]

@[simp] theorem playLvlWrite_keeps (i : Nat) (v : Word) (d : Dev) :
    (playLvlWrite i v d).fresh = d.fresh ∧ (playLvlWrite i v d).mem = d.mem ∧ (playLvlWrite i v d).frame = d.frame ∧ (playLvlWrite i v d).port = d.port ∧ (playLvlWrite i v d).win = d.win ∧ (playLvlWrite i v d).cnt = d.cnt ∧ (playLvlWrite i v d).pwr = d.pwr ∧ (playLvlWrite i v d).mgt = d.mgt ∧ (playLvlWrite i v d).boot = d.boot ∧ (playLvlWrite i v d).alm = d.alm ∧ (playLvlWrite i v d).par = d.par ∧ (playLvlWrite i v d).aud = d.aud ∧ (playLvlWrite i v d).cal = d.cal ∧ (playLvlWrite i v d).outs = d.outs ∧ (playLvlWrite i v d).tdm = d.tdm ∧ (playLvlWrite i v d).ser = d.ser ∧ (playLvlWrite i v d).cas = d.cas := by
  simp -implicitDefEqProofs [playLvlWrite]

@[simp] theorem playerGoDev_keeps (i : Nat) (v : Word) (d : Dev) :
    (playerGoDev i v d).fresh = d.fresh ∧ (playerGoDev i v d).mem = d.mem ∧ (playerGoDev i v d).frame = d.frame ∧ (playerGoDev i v d).port = d.port ∧ (playerGoDev i v d).win = d.win ∧ (playerGoDev i v d).cnt = d.cnt ∧ (playerGoDev i v d).pwr = d.pwr ∧ (playerGoDev i v d).mgt = d.mgt ∧ (playerGoDev i v d).boot = d.boot ∧ (playerGoDev i v d).alm = d.alm ∧ (playerGoDev i v d).par = d.par ∧ (playerGoDev i v d).aud = d.aud ∧ (playerGoDev i v d).cal = d.cal ∧ (playerGoDev i v d).tdm = d.tdm ∧ (playerGoDev i v d).ser = d.ser ∧ (playerGoDev i v d).cas = d.cas := by
  simp -implicitDefEqProofs [playerGoDev]

@[simp] theorem playerStopDev_keeps (i : Nat) (v : Word) (d : Dev) :
    (playerStopDev i v d).fresh = d.fresh ∧ (playerStopDev i v d).mem = d.mem ∧ (playerStopDev i v d).frame = d.frame ∧ (playerStopDev i v d).port = d.port ∧ (playerStopDev i v d).win = d.win ∧ (playerStopDev i v d).cnt = d.cnt ∧ (playerStopDev i v d).pwr = d.pwr ∧ (playerStopDev i v d).mgt = d.mgt ∧ (playerStopDev i v d).boot = d.boot ∧ (playerStopDev i v d).alm = d.alm ∧ (playerStopDev i v d).par = d.par ∧ (playerStopDev i v d).aud = d.aud ∧ (playerStopDev i v d).cal = d.cal ∧ (playerStopDev i v d).tdm = d.tdm ∧ (playerStopDev i v d).ser = d.ser ∧ (playerStopDev i v d).cas = d.cas := by
  simp -implicitDefEqProofs [playerStopDev]

@[simp] theorem playTriggers_keeps (c : Nat) (d : Dev) :
    (playTriggers c d).regs = d.regs ∧ (playTriggers c d).fresh = d.fresh ∧ (playTriggers c d).mem = d.mem ∧ (playTriggers c d).frame = d.frame ∧ (playTriggers c d).port = d.port ∧ (playTriggers c d).win = d.win ∧ (playTriggers c d).cnt = d.cnt ∧ (playTriggers c d).pwr = d.pwr ∧ (playTriggers c d).mgt = d.mgt ∧ (playTriggers c d).boot = d.boot ∧ (playTriggers c d).alm = d.alm ∧ (playTriggers c d).par = d.par ∧ (playTriggers c d).aud = d.aud ∧ (playTriggers c d).cal = d.cal ∧ (playTriggers c d).mix = d.mix ∧ (playTriggers c d).tdm = d.tdm ∧ (playTriggers c d).ser = d.ser ∧ (playTriggers c d).cas = d.cas := by
  simp -implicitDefEqProofs [playTriggers]

@[simp] theorem playerTriggerDev_keeps (i : Nat) (d : Dev) :
    (playerTriggerDev i d).fresh = d.fresh ∧ (playerTriggerDev i d).mem = d.mem ∧ (playerTriggerDev i d).frame = d.frame ∧ (playerTriggerDev i d).port = d.port ∧ (playerTriggerDev i d).win = d.win ∧ (playerTriggerDev i d).cnt = d.cnt ∧ (playerTriggerDev i d).pwr = d.pwr ∧ (playerTriggerDev i d).mgt = d.mgt ∧ (playerTriggerDev i d).boot = d.boot ∧ (playerTriggerDev i d).alm = d.alm ∧ (playerTriggerDev i d).par = d.par ∧ (playerTriggerDev i d).aud = d.aud ∧ (playerTriggerDev i d).cal = d.cal ∧ (playerTriggerDev i d).mix = d.mix ∧ (playerTriggerDev i d).tdm = d.tdm ∧ (playerTriggerDev i d).ser = d.ser ∧ (playerTriggerDev i d).cas = d.cas := by
  unfold playerTriggerDev; refine ⟨?_, ?_, ?_, ?_, ?_, ?_, ?_, ?_, ?_, ?_, ?_, ?_, ?_, ?_, ?_, ?_, ?_⟩ <;> (repeat' split) <;> simp -implicitDefEqProofs

@[simp] theorem playerEndDev_keeps (i : Nat) (d : Dev) :
    (playerEndDev i d).regs = d.regs ∧ (playerEndDev i d).fresh = d.fresh ∧ (playerEndDev i d).mem = d.mem ∧ (playerEndDev i d).frame = d.frame ∧ (playerEndDev i d).port = d.port ∧ (playerEndDev i d).win = d.win ∧ (playerEndDev i d).cnt = d.cnt ∧ (playerEndDev i d).pwr = d.pwr ∧ (playerEndDev i d).mgt = d.mgt ∧ (playerEndDev i d).boot = d.boot ∧ (playerEndDev i d).alm = d.alm ∧ (playerEndDev i d).par = d.par ∧ (playerEndDev i d).aud = d.aud ∧ (playerEndDev i d).cal = d.cal ∧ (playerEndDev i d).mix = d.mix ∧ (playerEndDev i d).tdm = d.tdm ∧ (playerEndDev i d).ser = d.ser ∧ (playerEndDev i d).cas = d.cas := by
  simp -implicitDefEqProofs [playerEndDev]

@[simp] theorem playRelease_keeps (i : Nat) (d : Dev) :
    (playRelease i d).regs = d.regs ∧ (playRelease i d).fresh = d.fresh ∧ (playRelease i d).mem = d.mem ∧ (playRelease i d).frame = d.frame ∧ (playRelease i d).port = d.port ∧ (playRelease i d).win = d.win ∧ (playRelease i d).cnt = d.cnt ∧ (playRelease i d).pwr = d.pwr ∧ (playRelease i d).mgt = d.mgt ∧ (playRelease i d).boot = d.boot ∧ (playRelease i d).alm = d.alm ∧ (playRelease i d).par = d.par ∧ (playRelease i d).aud = d.aud ∧ (playRelease i d).cal = d.cal ∧ (playRelease i d).mix = d.mix ∧ (playRelease i d).tdm = d.tdm ∧ (playRelease i d).ser = d.ser ∧ (playRelease i d).cas = d.cas := by
  simp -implicitDefEqProofs [playRelease]

@[simp] theorem raiseFault_keeps (i : Nat) (legN : Bool) (kind mv : Nat) (d : Dev) :
    (raiseFault i legN kind mv d).fresh = d.fresh ∧ (raiseFault i legN kind mv d).mem = d.mem ∧ (raiseFault i legN kind mv d).frame = d.frame ∧ (raiseFault i legN kind mv d).port = d.port ∧ (raiseFault i legN kind mv d).win = d.win ∧ (raiseFault i legN kind mv d).pwr = d.pwr ∧ (raiseFault i legN kind mv d).boot = d.boot ∧ (raiseFault i legN kind mv d).alm = d.alm ∧ (raiseFault i legN kind mv d).par = d.par ∧ (raiseFault i legN kind mv d).aud = d.aud ∧ (raiseFault i legN kind mv d).cal = d.cal ∧ (raiseFault i legN kind mv d).mix = d.mix ∧ (raiseFault i legN kind mv d).tdm = d.tdm ∧ (raiseFault i legN kind mv d).ser = d.ser ∧ (raiseFault i legN kind mv d).cas = d.cas := by
  simp -implicitDefEqProofs [raiseFault]

@[simp] theorem outSense_keeps (i : Nat) (d : Dev) :
    (outSense i d).mem = d.mem ∧ (outSense i d).frame = d.frame ∧ (outSense i d).port = d.port ∧ (outSense i d).win = d.win ∧ (outSense i d).pwr = d.pwr ∧ (outSense i d).boot = d.boot ∧ (outSense i d).alm = d.alm ∧ (outSense i d).par = d.par ∧ (outSense i d).aud = d.aud ∧ (outSense i d).cal = d.cal ∧ (outSense i d).mix = d.mix ∧ (outSense i d).tdm = d.tdm ∧ (outSense i d).ser = d.ser ∧ (outSense i d).cas = d.cas := by
  simp -implicitDefEqProofs [outSense]

@[simp] theorem outRelease_keeps (i : Nat) (d : Dev) :
    (outRelease i d).fresh = d.fresh ∧ (outRelease i d).mem = d.mem ∧ (outRelease i d).frame = d.frame ∧ (outRelease i d).port = d.port ∧ (outRelease i d).win = d.win ∧ (outRelease i d).cnt = d.cnt ∧ (outRelease i d).pwr = d.pwr ∧ (outRelease i d).mgt = d.mgt ∧ (outRelease i d).boot = d.boot ∧ (outRelease i d).alm = d.alm ∧ (outRelease i d).par = d.par ∧ (outRelease i d).aud = d.aud ∧ (outRelease i d).cal = d.cal ∧ (outRelease i d).mix = d.mix ∧ (outRelease i d).tdm = d.tdm ∧ (outRelease i d).ser = d.ser ∧ (outRelease i d).cas = d.cas := by
  simp -implicitDefEqProofs [outRelease]

@[simp] theorem outsRelease_keeps (d : Dev) :
    (outsRelease d).fresh = d.fresh ∧ (outsRelease d).mem = d.mem ∧ (outsRelease d).frame = d.frame ∧ (outsRelease d).port = d.port ∧ (outsRelease d).win = d.win ∧ (outsRelease d).cnt = d.cnt ∧ (outsRelease d).pwr = d.pwr ∧ (outsRelease d).mgt = d.mgt ∧ (outsRelease d).boot = d.boot ∧ (outsRelease d).alm = d.alm ∧ (outsRelease d).par = d.par ∧ (outsRelease d).aud = d.aud ∧ (outsRelease d).cal = d.cal ∧ (outsRelease d).mix = d.mix ∧ (outsRelease d).tdm = d.tdm ∧ (outsRelease d).ser = d.ser ∧ (outsRelease d).cas = d.cas := by
  simp -implicitDefEqProofs [outsRelease]

@[simp] theorem outBitsWrite_keeps (a : Nat) (v : Word) (d : Dev) :
    (outBitsWrite a v d).fresh = d.fresh ∧ (outBitsWrite a v d).mem = d.mem ∧ (outBitsWrite a v d).frame = d.frame ∧ (outBitsWrite a v d).port = d.port ∧ (outBitsWrite a v d).win = d.win ∧ (outBitsWrite a v d).cnt = d.cnt ∧ (outBitsWrite a v d).pwr = d.pwr ∧ (outBitsWrite a v d).mgt = d.mgt ∧ (outBitsWrite a v d).boot = d.boot ∧ (outBitsWrite a v d).alm = d.alm ∧ (outBitsWrite a v d).par = d.par ∧ (outBitsWrite a v d).aud = d.aud ∧ (outBitsWrite a v d).cal = d.cal ∧ (outBitsWrite a v d).outs = d.outs ∧ (outBitsWrite a v d).tdm = d.tdm ∧ (outBitsWrite a v d).ser = d.ser ∧ (outBitsWrite a v d).cas = d.cas := by
  simp -implicitDefEqProofs [outBitsWrite]

@[simp] theorem outputEnableDev_keeps (v : Word) (d : Dev) :
    (outputEnableDev v d).fresh = d.fresh ∧ (outputEnableDev v d).mem = d.mem ∧ (outputEnableDev v d).frame = d.frame ∧ (outputEnableDev v d).port = d.port ∧ (outputEnableDev v d).win = d.win ∧ (outputEnableDev v d).cnt = d.cnt ∧ (outputEnableDev v d).pwr = d.pwr ∧ (outputEnableDev v d).mgt = d.mgt ∧ (outputEnableDev v d).boot = d.boot ∧ (outputEnableDev v d).alm = d.alm ∧ (outputEnableDev v d).par = d.par ∧ (outputEnableDev v d).aud = d.aud ∧ (outputEnableDev v d).cal = d.cal ∧ (outputEnableDev v d).outs = d.outs ∧ (outputEnableDev v d).tdm = d.tdm ∧ (outputEnableDev v d).ser = d.ser ∧ (outputEnableDev v d).cas = d.cas := by
  simp -implicitDefEqProofs [outputEnableDev]

@[simp] theorem outputDisableDev_keeps (v : Word) (d : Dev) :
    (outputDisableDev v d).fresh = d.fresh ∧ (outputDisableDev v d).mem = d.mem ∧ (outputDisableDev v d).frame = d.frame ∧ (outputDisableDev v d).port = d.port ∧ (outputDisableDev v d).win = d.win ∧ (outputDisableDev v d).cnt = d.cnt ∧ (outputDisableDev v d).pwr = d.pwr ∧ (outputDisableDev v d).mgt = d.mgt ∧ (outputDisableDev v d).boot = d.boot ∧ (outputDisableDev v d).alm = d.alm ∧ (outputDisableDev v d).par = d.par ∧ (outputDisableDev v d).aud = d.aud ∧ (outputDisableDev v d).cal = d.cal ∧ (outputDisableDev v d).outs = d.outs ∧ (outputDisableDev v d).tdm = d.tdm ∧ (outputDisableDev v d).ser = d.ser ∧ (outputDisableDev v d).cas = d.cas := by
  simp -implicitDefEqProofs [outputDisableDev]

@[simp] theorem rangeChangeDev_keeps (v : Word) (d : Dev) :
    (rangeChangeDev v d).fresh = d.fresh ∧ (rangeChangeDev v d).mem = d.mem ∧ (rangeChangeDev v d).frame = d.frame ∧ (rangeChangeDev v d).port = d.port ∧ (rangeChangeDev v d).win = d.win ∧ (rangeChangeDev v d).cnt = d.cnt ∧ (rangeChangeDev v d).pwr = d.pwr ∧ (rangeChangeDev v d).mgt = d.mgt ∧ (rangeChangeDev v d).boot = d.boot ∧ (rangeChangeDev v d).alm = d.alm ∧ (rangeChangeDev v d).par = d.par ∧ (rangeChangeDev v d).aud = d.aud ∧ (rangeChangeDev v d).cal = d.cal ∧ (rangeChangeDev v d).outs = d.outs ∧ (rangeChangeDev v d).tdm = d.tdm ∧ (rangeChangeDev v d).ser = d.ser ∧ (rangeChangeDev v d).cas = d.cas := by
  simp -implicitDefEqProofs [rangeChangeDev]

@[simp] theorem outFaultClearDev_keeps (v : Word) (d : Dev) :
    (outFaultClearDev v d).regs = d.regs ∧ (outFaultClearDev v d).fresh = d.fresh ∧ (outFaultClearDev v d).mem = d.mem ∧ (outFaultClearDev v d).frame = d.frame ∧ (outFaultClearDev v d).port = d.port ∧ (outFaultClearDev v d).win = d.win ∧ (outFaultClearDev v d).cnt = d.cnt ∧ (outFaultClearDev v d).pwr = d.pwr ∧ (outFaultClearDev v d).mgt = d.mgt ∧ (outFaultClearDev v d).boot = d.boot ∧ (outFaultClearDev v d).alm = d.alm ∧ (outFaultClearDev v d).par = d.par ∧ (outFaultClearDev v d).aud = d.aud ∧ (outFaultClearDev v d).cal = d.cal ∧ (outFaultClearDev v d).tdm = d.tdm ∧ (outFaultClearDev v d).ser = d.ser ∧ (outFaultClearDev v d).cas = d.cas := by
  simp -implicitDefEqProofs [outFaultClearDev]

@[simp] theorem rampUpDoneDev_keeps (i : Nat) (d : Dev) :
    (rampUpDoneDev i d).regs = d.regs ∧ (rampUpDoneDev i d).fresh = d.fresh ∧ (rampUpDoneDev i d).mem = d.mem ∧ (rampUpDoneDev i d).frame = d.frame ∧ (rampUpDoneDev i d).port = d.port ∧ (rampUpDoneDev i d).win = d.win ∧ (rampUpDoneDev i d).cnt = d.cnt ∧ (rampUpDoneDev i d).pwr = d.pwr ∧ (rampUpDoneDev i d).mgt = d.mgt ∧ (rampUpDoneDev i d).boot = d.boot ∧ (rampUpDoneDev i d).alm = d.alm ∧ (rampUpDoneDev i d).par = d.par ∧ (rampUpDoneDev i d).aud = d.aud ∧ (rampUpDoneDev i d).cal = d.cal ∧ (rampUpDoneDev i d).mix = d.mix ∧ (rampUpDoneDev i d).tdm = d.tdm ∧ (rampUpDoneDev i d).ser = d.ser ∧ (rampUpDoneDev i d).cas = d.cas := by
  simp -implicitDefEqProofs [rampUpDoneDev]

@[simp] theorem rampDownDoneDev_keeps (i : Nat) (d : Dev) :
    (rampDownDoneDev i d).regs = d.regs ∧ (rampDownDoneDev i d).fresh = d.fresh ∧ (rampDownDoneDev i d).mem = d.mem ∧ (rampDownDoneDev i d).frame = d.frame ∧ (rampDownDoneDev i d).port = d.port ∧ (rampDownDoneDev i d).win = d.win ∧ (rampDownDoneDev i d).cnt = d.cnt ∧ (rampDownDoneDev i d).pwr = d.pwr ∧ (rampDownDoneDev i d).mgt = d.mgt ∧ (rampDownDoneDev i d).boot = d.boot ∧ (rampDownDoneDev i d).alm = d.alm ∧ (rampDownDoneDev i d).par = d.par ∧ (rampDownDoneDev i d).aud = d.aud ∧ (rampDownDoneDev i d).cal = d.cal ∧ (rampDownDoneDev i d).mix = d.mix ∧ (rampDownDoneDev i d).tdm = d.tdm ∧ (rampDownDoneDev i d).ser = d.ser ∧ (rampDownDoneDev i d).cas = d.cas := by
  simp -implicitDefEqProofs [rampDownDoneDev]

@[simp] theorem rangeParkEndDev_keeps (i : Nat) (d : Dev) :
    (rangeParkEndDev i d).regs = d.regs ∧ (rangeParkEndDev i d).fresh = d.fresh ∧ (rangeParkEndDev i d).mem = d.mem ∧ (rangeParkEndDev i d).frame = d.frame ∧ (rangeParkEndDev i d).port = d.port ∧ (rangeParkEndDev i d).win = d.win ∧ (rangeParkEndDev i d).cnt = d.cnt ∧ (rangeParkEndDev i d).pwr = d.pwr ∧ (rangeParkEndDev i d).mgt = d.mgt ∧ (rangeParkEndDev i d).boot = d.boot ∧ (rangeParkEndDev i d).alm = d.alm ∧ (rangeParkEndDev i d).par = d.par ∧ (rangeParkEndDev i d).aud = d.aud ∧ (rangeParkEndDev i d).cal = d.cal ∧ (rangeParkEndDev i d).mix = d.mix ∧ (rangeParkEndDev i d).tdm = d.tdm ∧ (rangeParkEndDev i d).ser = d.ser ∧ (rangeParkEndDev i d).cas = d.cas := by
  simp -implicitDefEqProofs [rangeParkEndDev]

@[simp] theorem holdParkEndDev_keeps (i : Nat) (d : Dev) :
    (holdParkEndDev i d).regs = d.regs ∧ (holdParkEndDev i d).fresh = d.fresh ∧ (holdParkEndDev i d).mem = d.mem ∧ (holdParkEndDev i d).frame = d.frame ∧ (holdParkEndDev i d).port = d.port ∧ (holdParkEndDev i d).win = d.win ∧ (holdParkEndDev i d).cnt = d.cnt ∧ (holdParkEndDev i d).pwr = d.pwr ∧ (holdParkEndDev i d).mgt = d.mgt ∧ (holdParkEndDev i d).boot = d.boot ∧ (holdParkEndDev i d).alm = d.alm ∧ (holdParkEndDev i d).par = d.par ∧ (holdParkEndDev i d).aud = d.aud ∧ (holdParkEndDev i d).cal = d.cal ∧ (holdParkEndDev i d).mix = d.mix ∧ (holdParkEndDev i d).tdm = d.tdm ∧ (holdParkEndDev i d).ser = d.ser ∧ (holdParkEndDev i d).cas = d.cas := by
  simp -implicitDefEqProofs [holdParkEndDev]

@[simp] theorem outputFaultDev_keeps (i : Nat) (legN : Bool) (kind : LegFault) (mv : Nat) (d : Dev) :
    (outputFaultDev i legN kind mv d).fresh = d.fresh ∧ (outputFaultDev i legN kind mv d).mem = d.mem ∧ (outputFaultDev i legN kind mv d).frame = d.frame ∧ (outputFaultDev i legN kind mv d).port = d.port ∧ (outputFaultDev i legN kind mv d).win = d.win ∧ (outputFaultDev i legN kind mv d).pwr = d.pwr ∧ (outputFaultDev i legN kind mv d).boot = d.boot ∧ (outputFaultDev i legN kind mv d).alm = d.alm ∧ (outputFaultDev i legN kind mv d).par = d.par ∧ (outputFaultDev i legN kind mv d).aud = d.aud ∧ (outputFaultDev i legN kind mv d).cal = d.cal ∧ (outputFaultDev i legN kind mv d).mix = d.mix ∧ (outputFaultDev i legN kind mv d).tdm = d.tdm ∧ (outputFaultDev i legN kind mv d).ser = d.ser ∧ (outputFaultDev i legN kind mv d).cas = d.cas := by
  refine ⟨?_, ?_, ?_, ?_, ?_, ?_, ?_, ?_, ?_, ?_, ?_, ?_, ?_, ?_, ?_⟩ <;> (simp only [outputFaultDev]; repeat' split) <;> simp_all -implicitDefEqProofs

@[simp] theorem faultRampDoneDev_keeps (i : Nat) (d : Dev) :
    (faultRampDoneDev i d).regs = d.regs ∧ (faultRampDoneDev i d).fresh = d.fresh ∧ (faultRampDoneDev i d).mem = d.mem ∧ (faultRampDoneDev i d).frame = d.frame ∧ (faultRampDoneDev i d).port = d.port ∧ (faultRampDoneDev i d).win = d.win ∧ (faultRampDoneDev i d).cnt = d.cnt ∧ (faultRampDoneDev i d).pwr = d.pwr ∧ (faultRampDoneDev i d).mgt = d.mgt ∧ (faultRampDoneDev i d).boot = d.boot ∧ (faultRampDoneDev i d).alm = d.alm ∧ (faultRampDoneDev i d).par = d.par ∧ (faultRampDoneDev i d).aud = d.aud ∧ (faultRampDoneDev i d).cal = d.cal ∧ (faultRampDoneDev i d).mix = d.mix ∧ (faultRampDoneDev i d).tdm = d.tdm ∧ (faultRampDoneDev i d).ser = d.ser ∧ (faultRampDoneDev i d).cas = d.cas := by
  simp -implicitDefEqProofs [faultRampDoneDev]

@[simp] theorem faultRetryDev_keeps (i : Nat) (d : Dev) :
    (faultRetryDev i d).fresh = d.fresh ∧ (faultRetryDev i d).mem = d.mem ∧ (faultRetryDev i d).frame = d.frame ∧ (faultRetryDev i d).port = d.port ∧ (faultRetryDev i d).win = d.win ∧ (faultRetryDev i d).cnt = d.cnt ∧ (faultRetryDev i d).pwr = d.pwr ∧ (faultRetryDev i d).mgt = d.mgt ∧ (faultRetryDev i d).boot = d.boot ∧ (faultRetryDev i d).alm = d.alm ∧ (faultRetryDev i d).par = d.par ∧ (faultRetryDev i d).aud = d.aud ∧ (faultRetryDev i d).cal = d.cal ∧ (faultRetryDev i d).mix = d.mix ∧ (faultRetryDev i d).tdm = d.tdm ∧ (faultRetryDev i d).ser = d.ser ∧ (faultRetryDev i d).cas = d.cas := by
  refine ⟨?_, ?_, ?_, ?_, ?_, ?_, ?_, ?_, ?_, ?_, ?_, ?_, ?_, ?_, ?_, ?_, ?_⟩ <;> (simp only [faultRetryDev]; repeat' split) <;> simp_all -implicitDefEqProofs

@[simp] theorem outWake_keeps (g : Nat) (d : Dev) :
    (outWake g d).regs = d.regs ∧ (outWake g d).fresh = d.fresh ∧ (outWake g d).mem = d.mem ∧ (outWake g d).frame = d.frame ∧ (outWake g d).port = d.port ∧ (outWake g d).win = d.win ∧ (outWake g d).cnt = d.cnt ∧ (outWake g d).pwr = d.pwr ∧ (outWake g d).mgt = d.mgt ∧ (outWake g d).boot = d.boot ∧ (outWake g d).alm = d.alm ∧ (outWake g d).par = d.par ∧ (outWake g d).aud = d.aud ∧ (outWake g d).cal = d.cal ∧ (outWake g d).mix = d.mix ∧ (outWake g d).tdm = d.tdm ∧ (outWake g d).ser = d.ser ∧ (outWake g d).cas = d.cas := by
  simp -implicitDefEqProofs [outWake]

@[simp] theorem atEdge_regs (a : Nat) (v : Word) (f : Dev → Dev) (d : Dev)
    (h : ∀ e, (f e).regs = e.regs) :
    (atEdge a v f d).regs = d.regs := by
  unfold atEdge; split <;> simp [h]

@[simp] theorem atEdge_fresh (a : Nat) (v : Word) (f : Dev → Dev) (d : Dev)
    (h : ∀ e, (f e).fresh = e.fresh) :
    (atEdge a v f d).fresh = d.fresh := by
  unfold atEdge; split <;> simp [h]

@[simp] theorem atEdge_mem (a : Nat) (v : Word) (f : Dev → Dev) (d : Dev)
    (h : ∀ e, (f e).mem = e.mem) :
    (atEdge a v f d).mem = d.mem := by
  unfold atEdge; split <;> simp [h]

@[simp] theorem atEdge_frame (a : Nat) (v : Word) (f : Dev → Dev) (d : Dev)
    (h : ∀ e, (f e).frame = e.frame) :
    (atEdge a v f d).frame = d.frame := by
  unfold atEdge; split <;> simp [h]

@[simp] theorem atEdge_port (a : Nat) (v : Word) (f : Dev → Dev) (d : Dev)
    (h : ∀ e, (f e).port = e.port) :
    (atEdge a v f d).port = d.port := by
  unfold atEdge; split <;> simp [h]

@[simp] theorem atEdge_win (a : Nat) (v : Word) (f : Dev → Dev) (d : Dev)
    (h : ∀ e, (f e).win = e.win) :
    (atEdge a v f d).win = d.win := by
  unfold atEdge; split <;> simp [h]

@[simp] theorem atEdge_pwr (a : Nat) (v : Word) (f : Dev → Dev) (d : Dev)
    (h : ∀ e, (f e).pwr = e.pwr) :
    (atEdge a v f d).pwr = d.pwr := by
  unfold atEdge; split <;> simp [h]

@[simp] theorem atEdge_mgt (a : Nat) (v : Word) (f : Dev → Dev) (d : Dev)
    (h : ∀ e, (f e).mgt = e.mgt) :
    (atEdge a v f d).mgt = d.mgt := by
  unfold atEdge; split <;> simp [h]

@[simp] theorem atEdge_boot (a : Nat) (v : Word) (f : Dev → Dev) (d : Dev)
    (h : ∀ e, (f e).boot = e.boot) :
    (atEdge a v f d).boot = d.boot := by
  unfold atEdge; split <;> simp [h]

@[simp] theorem atEdge_alm (a : Nat) (v : Word) (f : Dev → Dev) (d : Dev)
    (h : ∀ e, (f e).alm = e.alm) :
    (atEdge a v f d).alm = d.alm := by
  unfold atEdge; split <;> simp [h]

@[simp] theorem atEdge_par (a : Nat) (v : Word) (f : Dev → Dev) (d : Dev)
    (h : ∀ e, (f e).par = e.par) :
    (atEdge a v f d).par = d.par := by
  unfold atEdge; split <;> simp [h]

@[simp] theorem atEdge_aud (a : Nat) (v : Word) (f : Dev → Dev) (d : Dev)
    (h : ∀ e, (f e).aud = e.aud) :
    (atEdge a v f d).aud = d.aud := by
  unfold atEdge; split <;> simp [h]

@[simp] theorem atEdge_cal (a : Nat) (v : Word) (f : Dev → Dev) (d : Dev)
    (h : ∀ e, (f e).cal = e.cal) :
    (atEdge a v f d).cal = d.cal := by
  unfold atEdge; split <;> simp [h]

@[simp] theorem atEdge_mix (a : Nat) (v : Word) (f : Dev → Dev) (d : Dev)
    (h : ∀ e, (f e).mix = e.mix) :
    (atEdge a v f d).mix = d.mix := by
  unfold atEdge; split <;> simp [h]

@[simp] theorem atEdge_outs (a : Nat) (v : Word) (f : Dev → Dev) (d : Dev)
    (h : ∀ e, (f e).outs = e.outs) :
    (atEdge a v f d).outs = d.outs := by
  unfold atEdge; split <;> simp [h]

@[simp] theorem atEdge_tdm (a : Nat) (v : Word) (f : Dev → Dev) (d : Dev)
    (h : ∀ e, (f e).tdm = e.tdm) :
    (atEdge a v f d).tdm = d.tdm := by
  unfold atEdge; split <;> simp [h]

@[simp] theorem atEdge_ser (a : Nat) (v : Word) (f : Dev → Dev) (d : Dev)
    (h : ∀ e, (f e).ser = e.ser) :
    (atEdge a v f d).ser = d.ser := by
  unfold atEdge; split <;> simp [h]

@[simp] theorem atEdge_cas (a : Nat) (v : Word) (f : Dev → Dev) (d : Dev)
    (h : ∀ e, (f e).cas = e.cas) :
    (atEdge a v f d).cas = d.cas := by
  unfold atEdge; split <;> simp [h]

@[simp] theorem edgeTo_keeps (x : Nat) (d : Dev) :
    (edgeTo x d).regs = d.regs ∧ (edgeTo x d).fresh = d.fresh ∧ (edgeTo x d).mem = d.mem ∧ (edgeTo x d).frame = d.frame ∧ (edgeTo x d).port = d.port ∧ (edgeTo x d).win = d.win ∧ (edgeTo x d).pwr = d.pwr ∧ (edgeTo x d).mgt = d.mgt ∧ (edgeTo x d).boot = d.boot ∧ (edgeTo x d).alm = d.alm ∧ (edgeTo x d).par = d.par ∧ (edgeTo x d).aud = d.aud ∧ (edgeTo x d).cal = d.cal ∧ (edgeTo x d).mix = d.mix ∧ (edgeTo x d).outs = d.outs ∧ (edgeTo x d).tdm = d.tdm ∧ (edgeTo x d).ser = d.ser ∧ (edgeTo x d).cas = d.cas := by
  simp -implicitDefEqProofs [edgeTo]

@[simp] theorem edgeRelease_keeps (d : Dev) :
    (edgeRelease d).regs = d.regs ∧ (edgeRelease d).fresh = d.fresh ∧ (edgeRelease d).mem = d.mem ∧ (edgeRelease d).frame = d.frame ∧ (edgeRelease d).port = d.port ∧ (edgeRelease d).win = d.win ∧ (edgeRelease d).pwr = d.pwr ∧ (edgeRelease d).mgt = d.mgt ∧ (edgeRelease d).boot = d.boot ∧ (edgeRelease d).alm = d.alm ∧ (edgeRelease d).par = d.par ∧ (edgeRelease d).aud = d.aud ∧ (edgeRelease d).cal = d.cal ∧ (edgeRelease d).mix = d.mix ∧ (edgeRelease d).outs = d.outs ∧ (edgeRelease d).tdm = d.tdm ∧ (edgeRelease d).ser = d.ser ∧ (edgeRelease d).cas = d.cas := by
  simp -implicitDefEqProofs [edgeRelease]

@[simp] theorem edgeTick_keeps (d : Dev) :
    (edgeTick d).regs = d.regs ∧ (edgeTick d).fresh = d.fresh ∧ (edgeTick d).mem = d.mem ∧ (edgeTick d).frame = d.frame ∧ (edgeTick d).port = d.port ∧ (edgeTick d).win = d.win ∧ (edgeTick d).pwr = d.pwr ∧ (edgeTick d).mgt = d.mgt ∧ (edgeTick d).boot = d.boot ∧ (edgeTick d).alm = d.alm ∧ (edgeTick d).par = d.par ∧ (edgeTick d).aud = d.aud ∧ (edgeTick d).cal = d.cal ∧ (edgeTick d).mix = d.mix ∧ (edgeTick d).outs = d.outs ∧ (edgeTick d).tdm = d.tdm ∧ (edgeTick d).ser = d.ser ∧ (edgeTick d).cas = d.cas := by
  simp -implicitDefEqProofs [edgeTick]

@[simp] theorem outDrive_keeps (k : Nat) (d : Dev) :
    (outDrive k d).regs = d.regs ∧ (outDrive k d).fresh = d.fresh ∧ (outDrive k d).mem = d.mem ∧ (outDrive k d).frame = d.frame ∧ (outDrive k d).port = d.port ∧ (outDrive k d).win = d.win ∧ (outDrive k d).pwr = d.pwr ∧ (outDrive k d).mgt = d.mgt ∧ (outDrive k d).boot = d.boot ∧ (outDrive k d).alm = d.alm ∧ (outDrive k d).par = d.par ∧ (outDrive k d).aud = d.aud ∧ (outDrive k d).cal = d.cal ∧ (outDrive k d).mix = d.mix ∧ (outDrive k d).tdm = d.tdm ∧ (outDrive k d).ser = d.ser ∧ (outDrive k d).cas = d.cas := by
  simp -implicitDefEqProofs [outDrive]

@[simp] theorem outEvents_keeps (c : Nat) (e : ChrEvents) (k : Nat) (d : Dev) :
    (outEvents c e k d).regs = d.regs ∧ (outEvents c e k d).fresh = d.fresh ∧ (outEvents c e k d).mem = d.mem ∧ (outEvents c e k d).frame = d.frame ∧ (outEvents c e k d).port = d.port ∧ (outEvents c e k d).win = d.win ∧ (outEvents c e k d).pwr = d.pwr ∧ (outEvents c e k d).mgt = d.mgt ∧ (outEvents c e k d).boot = d.boot ∧ (outEvents c e k d).alm = d.alm ∧ (outEvents c e k d).par = d.par ∧ (outEvents c e k d).aud = d.aud ∧ (outEvents c e k d).cal = d.cal ∧ (outEvents c e k d).mix = d.mix ∧ (outEvents c e k d).tdm = d.tdm ∧ (outEvents c e k d).ser = d.ser ∧ (outEvents c e k d).cas = d.cas := by
  simp -implicitDefEqProofs [outEvents]

@[simp] theorem chrOutChangeDev_keeps (k : Nat) (d : Dev) :
    (chrOutChangeDev k d).regs = d.regs ∧ (chrOutChangeDev k d).fresh = d.fresh ∧ (chrOutChangeDev k d).mem = d.mem ∧ (chrOutChangeDev k d).frame = d.frame ∧ (chrOutChangeDev k d).port = d.port ∧ (chrOutChangeDev k d).win = d.win ∧ (chrOutChangeDev k d).pwr = d.pwr ∧ (chrOutChangeDev k d).mgt = d.mgt ∧ (chrOutChangeDev k d).boot = d.boot ∧ (chrOutChangeDev k d).alm = d.alm ∧ (chrOutChangeDev k d).par = d.par ∧ (chrOutChangeDev k d).aud = d.aud ∧ (chrOutChangeDev k d).cal = d.cal ∧ (chrOutChangeDev k d).mix = d.mix ∧ (chrOutChangeDev k d).tdm = d.tdm ∧ (chrOutChangeDev k d).ser = d.ser ∧ (chrOutChangeDev k d).cas = d.cas := by
  unfold chrOutChangeDev; refine ⟨?_, ?_, ?_, ?_, ?_, ?_, ?_, ?_, ?_, ?_, ?_, ?_, ?_, ?_, ?_, ?_, ?_⟩ <;> (repeat' split) <;> simp -implicitDefEqProofs

@[simp] theorem pulseEndDev_keeps (k : Nat) (d : Dev) :
    (pulseEndDev k d).regs = d.regs ∧ (pulseEndDev k d).fresh = d.fresh ∧ (pulseEndDev k d).mem = d.mem ∧ (pulseEndDev k d).frame = d.frame ∧ (pulseEndDev k d).port = d.port ∧ (pulseEndDev k d).win = d.win ∧ (pulseEndDev k d).pwr = d.pwr ∧ (pulseEndDev k d).mgt = d.mgt ∧ (pulseEndDev k d).boot = d.boot ∧ (pulseEndDev k d).alm = d.alm ∧ (pulseEndDev k d).par = d.par ∧ (pulseEndDev k d).aud = d.aud ∧ (pulseEndDev k d).cal = d.cal ∧ (pulseEndDev k d).mix = d.mix ∧ (pulseEndDev k d).tdm = d.tdm ∧ (pulseEndDev k d).ser = d.ser ∧ (pulseEndDev k d).cas = d.cas := by
  unfold pulseEndDev; refine ⟨?_, ?_, ?_, ?_, ?_, ?_, ?_, ?_, ?_, ?_, ?_, ?_, ?_, ?_, ?_, ?_, ?_⟩ <;> (repeat' split) <;> simp -implicitDefEqProofs

@[simp] theorem emitEvents_keeps (c : Nat) (e : ChrEvents) (d : Dev) :
    (emitEvents c e d).regs = d.regs ∧ (emitEvents c e d).fresh = d.fresh ∧ (emitEvents c e d).mem = d.mem ∧ (emitEvents c e d).frame = d.frame ∧ (emitEvents c e d).port = d.port ∧ (emitEvents c e d).win = d.win ∧ (emitEvents c e d).pwr = d.pwr ∧ (emitEvents c e d).mgt = d.mgt ∧ (emitEvents c e d).boot = d.boot ∧ (emitEvents c e d).alm = d.alm ∧ (emitEvents c e d).par = d.par ∧ (emitEvents c e d).aud = d.aud ∧ (emitEvents c e d).cal = d.cal ∧ (emitEvents c e d).mix = d.mix ∧ (emitEvents c e d).tdm = d.tdm ∧ (emitEvents c e d).ser = d.ser ∧ (emitEvents c e d).cas = d.cas := by
  simp -implicitDefEqProofs [emitEvents]

@[simp] theorem tickBy_keeps (c n : Nat) (d : Dev) :
    (tickBy c n d).fresh = d.fresh ∧ (tickBy c n d).mem = d.mem ∧ (tickBy c n d).frame = d.frame ∧ (tickBy c n d).port = d.port ∧ (tickBy c n d).win = d.win ∧ (tickBy c n d).pwr = d.pwr ∧ (tickBy c n d).mgt = d.mgt ∧ (tickBy c n d).boot = d.boot ∧ (tickBy c n d).alm = d.alm ∧ (tickBy c n d).par = d.par ∧ (tickBy c n d).aud = d.aud ∧ (tickBy c n d).cal = d.cal ∧ (tickBy c n d).mix = d.mix ∧ (tickBy c n d).tdm = d.tdm ∧ (tickBy c n d).ser = d.ser ∧ (tickBy c n d).cas = d.cas := by
  simp -implicitDefEqProofs [tickBy]

@[simp] theorem chrTickDev_keeps (c inc : Nat) (d : Dev) :
    (chrTickDev c inc d).fresh = d.fresh ∧ (chrTickDev c inc d).mem = d.mem ∧ (chrTickDev c inc d).frame = d.frame ∧ (chrTickDev c inc d).port = d.port ∧ (chrTickDev c inc d).win = d.win ∧ (chrTickDev c inc d).pwr = d.pwr ∧ (chrTickDev c inc d).mgt = d.mgt ∧ (chrTickDev c inc d).boot = d.boot ∧ (chrTickDev c inc d).alm = d.alm ∧ (chrTickDev c inc d).par = d.par ∧ (chrTickDev c inc d).aud = d.aud ∧ (chrTickDev c inc d).cal = d.cal ∧ (chrTickDev c inc d).mix = d.mix ∧ (chrTickDev c inc d).tdm = d.tdm ∧ (chrTickDev c inc d).ser = d.ser ∧ (chrTickDev c inc d).cas = d.cas := by
  unfold chrTickDev; refine ⟨?_, ?_, ?_, ?_, ?_, ?_, ?_, ?_, ?_, ?_, ?_, ?_, ?_, ?_, ?_, ?_⟩ <;> (repeat' split) <;> simp -implicitDefEqProofs

@[simp] theorem registerTicks_keeps (pick : Nat → Bool) (n : Nat) (d : Dev) :
    (registerTicks pick n d).regs = d.regs ∧ (registerTicks pick n d).fresh = d.fresh ∧ (registerTicks pick n d).mem = d.mem ∧ (registerTicks pick n d).frame = d.frame ∧ (registerTicks pick n d).port = d.port ∧ (registerTicks pick n d).win = d.win ∧ (registerTicks pick n d).pwr = d.pwr ∧ (registerTicks pick n d).mgt = d.mgt ∧ (registerTicks pick n d).boot = d.boot ∧ (registerTicks pick n d).alm = d.alm ∧ (registerTicks pick n d).par = d.par ∧ (registerTicks pick n d).aud = d.aud ∧ (registerTicks pick n d).cal = d.cal ∧ (registerTicks pick n d).mix = d.mix ∧ (registerTicks pick n d).outs = d.outs ∧ (registerTicks pick n d).tdm = d.tdm ∧ (registerTicks pick n d).ser = d.ser ∧ (registerTicks pick n d).cas = d.cas := by
  simp -implicitDefEqProofs [registerTicks]

@[simp] theorem chrRelease_keeps (d : Dev) :
    (chrRelease d).regs = d.regs ∧ (chrRelease d).fresh = d.fresh ∧ (chrRelease d).mem = d.mem ∧ (chrRelease d).frame = d.frame ∧ (chrRelease d).port = d.port ∧ (chrRelease d).win = d.win ∧ (chrRelease d).pwr = d.pwr ∧ (chrRelease d).mgt = d.mgt ∧ (chrRelease d).boot = d.boot ∧ (chrRelease d).alm = d.alm ∧ (chrRelease d).par = d.par ∧ (chrRelease d).aud = d.aud ∧ (chrRelease d).cal = d.cal ∧ (chrRelease d).mix = d.mix ∧ (chrRelease d).outs = d.outs ∧ (chrRelease d).tdm = d.tdm ∧ (chrRelease d).ser = d.ser ∧ (chrRelease d).cas = d.cas := by
  simp -implicitDefEqProofs [chrRelease]

@[simp] theorem prescaleFrom_keeps (c : Nat) (d : Dev) :
    (prescaleFrom c d).regs = d.regs ∧ (prescaleFrom c d).fresh = d.fresh ∧ (prescaleFrom c d).mem = d.mem ∧ (prescaleFrom c d).frame = d.frame ∧ (prescaleFrom c d).port = d.port ∧ (prescaleFrom c d).win = d.win ∧ (prescaleFrom c d).pwr = d.pwr ∧ (prescaleFrom c d).mgt = d.mgt ∧ (prescaleFrom c d).boot = d.boot ∧ (prescaleFrom c d).alm = d.alm ∧ (prescaleFrom c d).par = d.par ∧ (prescaleFrom c d).aud = d.aud ∧ (prescaleFrom c d).cal = d.cal ∧ (prescaleFrom c d).mix = d.mix ∧ (prescaleFrom c d).outs = d.outs ∧ (prescaleFrom c d).tdm = d.tdm ∧ (prescaleFrom c d).ser = d.ser ∧ (prescaleFrom c d).cas = d.cas := by
  simp -implicitDefEqProofs [prescaleFrom]

@[simp] theorem chrEn_keeps (c : Nat) (on : Bool) (d : Dev) :
    (chrEn c on d).fresh = d.fresh ∧ (chrEn c on d).mem = d.mem ∧ (chrEn c on d).frame = d.frame ∧ (chrEn c on d).port = d.port ∧ (chrEn c on d).win = d.win ∧ (chrEn c on d).pwr = d.pwr ∧ (chrEn c on d).mgt = d.mgt ∧ (chrEn c on d).boot = d.boot ∧ (chrEn c on d).alm = d.alm ∧ (chrEn c on d).par = d.par ∧ (chrEn c on d).aud = d.aud ∧ (chrEn c on d).cal = d.cal ∧ (chrEn c on d).mix = d.mix ∧ (chrEn c on d).outs = d.outs ∧ (chrEn c on d).tdm = d.tdm ∧ (chrEn c on d).ser = d.ser ∧ (chrEn c on d).cas = d.cas := by
  simp -implicitDefEqProofs [chrEn]

@[simp] theorem chrZero_keeps (c : Nat) (d : Dev) :
    (chrZero c d).regs = d.regs ∧ (chrZero c d).fresh = d.fresh ∧ (chrZero c d).mem = d.mem ∧ (chrZero c d).frame = d.frame ∧ (chrZero c d).port = d.port ∧ (chrZero c d).win = d.win ∧ (chrZero c d).pwr = d.pwr ∧ (chrZero c d).mgt = d.mgt ∧ (chrZero c d).boot = d.boot ∧ (chrZero c d).alm = d.alm ∧ (chrZero c d).par = d.par ∧ (chrZero c d).aud = d.aud ∧ (chrZero c d).cal = d.cal ∧ (chrZero c d).mix = d.mix ∧ (chrZero c d).outs = d.outs ∧ (chrZero c d).tdm = d.tdm ∧ (chrZero c d).ser = d.ser ∧ (chrZero c d).cas = d.cas := by
  simp -implicitDefEqProofs [chrZero]

@[simp] theorem chrStartNow_keeps (v : Word) (d : Dev) :
    (chrStartNow v d).fresh = d.fresh ∧ (chrStartNow v d).mem = d.mem ∧ (chrStartNow v d).frame = d.frame ∧ (chrStartNow v d).port = d.port ∧ (chrStartNow v d).win = d.win ∧ (chrStartNow v d).pwr = d.pwr ∧ (chrStartNow v d).mgt = d.mgt ∧ (chrStartNow v d).boot = d.boot ∧ (chrStartNow v d).alm = d.alm ∧ (chrStartNow v d).par = d.par ∧ (chrStartNow v d).aud = d.aud ∧ (chrStartNow v d).cal = d.cal ∧ (chrStartNow v d).mix = d.mix ∧ (chrStartNow v d).outs = d.outs ∧ (chrStartNow v d).tdm = d.tdm ∧ (chrStartNow v d).ser = d.ser ∧ (chrStartNow v d).cas = d.cas := by
  simp -implicitDefEqProofs [chrStartNow]

@[simp] theorem chrStartDev_keeps (v : Word) (d : Dev) :
    (chrStartDev v d).fresh = d.fresh ∧ (chrStartDev v d).mem = d.mem ∧ (chrStartDev v d).frame = d.frame ∧ (chrStartDev v d).port = d.port ∧ (chrStartDev v d).win = d.win ∧ (chrStartDev v d).pwr = d.pwr ∧ (chrStartDev v d).mgt = d.mgt ∧ (chrStartDev v d).boot = d.boot ∧ (chrStartDev v d).alm = d.alm ∧ (chrStartDev v d).par = d.par ∧ (chrStartDev v d).aud = d.aud ∧ (chrStartDev v d).cal = d.cal ∧ (chrStartDev v d).mix = d.mix ∧ (chrStartDev v d).outs = d.outs ∧ (chrStartDev v d).tdm = d.tdm ∧ (chrStartDev v d).ser = d.ser ∧ (chrStartDev v d).cas = d.cas := by
  simp -implicitDefEqProofs [chrStartDev]

@[simp] theorem chrStopNow_keeps (v : Word) (d : Dev) :
    (chrStopNow v d).fresh = d.fresh ∧ (chrStopNow v d).mem = d.mem ∧ (chrStopNow v d).frame = d.frame ∧ (chrStopNow v d).port = d.port ∧ (chrStopNow v d).win = d.win ∧ (chrStopNow v d).pwr = d.pwr ∧ (chrStopNow v d).mgt = d.mgt ∧ (chrStopNow v d).boot = d.boot ∧ (chrStopNow v d).alm = d.alm ∧ (chrStopNow v d).par = d.par ∧ (chrStopNow v d).aud = d.aud ∧ (chrStopNow v d).cal = d.cal ∧ (chrStopNow v d).mix = d.mix ∧ (chrStopNow v d).outs = d.outs ∧ (chrStopNow v d).tdm = d.tdm ∧ (chrStopNow v d).ser = d.ser ∧ (chrStopNow v d).cas = d.cas := by
  simp -implicitDefEqProofs [chrStopNow]

@[simp] theorem chrStopDev_keeps (v : Word) (d : Dev) :
    (chrStopDev v d).fresh = d.fresh ∧ (chrStopDev v d).mem = d.mem ∧ (chrStopDev v d).frame = d.frame ∧ (chrStopDev v d).port = d.port ∧ (chrStopDev v d).win = d.win ∧ (chrStopDev v d).pwr = d.pwr ∧ (chrStopDev v d).mgt = d.mgt ∧ (chrStopDev v d).boot = d.boot ∧ (chrStopDev v d).alm = d.alm ∧ (chrStopDev v d).par = d.par ∧ (chrStopDev v d).aud = d.aud ∧ (chrStopDev v d).cal = d.cal ∧ (chrStopDev v d).mix = d.mix ∧ (chrStopDev v d).outs = d.outs ∧ (chrStopDev v d).tdm = d.tdm ∧ (chrStopDev v d).ser = d.ser ∧ (chrStopDev v d).cas = d.cas := by
  simp -implicitDefEqProofs [chrStopDev]

@[simp] theorem chrClearNow_keeps (c : Nat) (v : Word) (d : Dev) :
    (chrClearNow c v d).fresh = d.fresh ∧ (chrClearNow c v d).mem = d.mem ∧ (chrClearNow c v d).frame = d.frame ∧ (chrClearNow c v d).port = d.port ∧ (chrClearNow c v d).win = d.win ∧ (chrClearNow c v d).pwr = d.pwr ∧ (chrClearNow c v d).mgt = d.mgt ∧ (chrClearNow c v d).boot = d.boot ∧ (chrClearNow c v d).alm = d.alm ∧ (chrClearNow c v d).par = d.par ∧ (chrClearNow c v d).aud = d.aud ∧ (chrClearNow c v d).cal = d.cal ∧ (chrClearNow c v d).mix = d.mix ∧ (chrClearNow c v d).outs = d.outs ∧ (chrClearNow c v d).tdm = d.tdm ∧ (chrClearNow c v d).ser = d.ser ∧ (chrClearNow c v d).cas = d.cas := by
  simp -implicitDefEqProofs [chrClearNow]

@[simp] theorem chrClearDev_keeps (c : Nat) (v : Word) (d : Dev) :
    (chrClearDev c v d).fresh = d.fresh ∧ (chrClearDev c v d).mem = d.mem ∧ (chrClearDev c v d).frame = d.frame ∧ (chrClearDev c v d).port = d.port ∧ (chrClearDev c v d).win = d.win ∧ (chrClearDev c v d).pwr = d.pwr ∧ (chrClearDev c v d).mgt = d.mgt ∧ (chrClearDev c v d).boot = d.boot ∧ (chrClearDev c v d).alm = d.alm ∧ (chrClearDev c v d).par = d.par ∧ (chrClearDev c v d).aud = d.aud ∧ (chrClearDev c v d).cal = d.cal ∧ (chrClearDev c v d).mix = d.mix ∧ (chrClearDev c v d).outs = d.outs ∧ (chrClearDev c v d).tdm = d.tdm ∧ (chrClearDev c v d).ser = d.ser ∧ (chrClearDev c v d).cas = d.cas := by
  simp -implicitDefEqProofs [chrClearDev]

@[simp] theorem reloadWriteNow_keeps (c : Nat) (v : Word) (d : Dev) :
    (reloadWriteNow c v d).fresh = d.fresh ∧ (reloadWriteNow c v d).mem = d.mem ∧ (reloadWriteNow c v d).frame = d.frame ∧ (reloadWriteNow c v d).port = d.port ∧ (reloadWriteNow c v d).win = d.win ∧ (reloadWriteNow c v d).cnt = d.cnt ∧ (reloadWriteNow c v d).pwr = d.pwr ∧ (reloadWriteNow c v d).mgt = d.mgt ∧ (reloadWriteNow c v d).boot = d.boot ∧ (reloadWriteNow c v d).alm = d.alm ∧ (reloadWriteNow c v d).par = d.par ∧ (reloadWriteNow c v d).aud = d.aud ∧ (reloadWriteNow c v d).cal = d.cal ∧ (reloadWriteNow c v d).mix = d.mix ∧ (reloadWriteNow c v d).outs = d.outs ∧ (reloadWriteNow c v d).tdm = d.tdm ∧ (reloadWriteNow c v d).ser = d.ser ∧ (reloadWriteNow c v d).cas = d.cas := by
  simp -implicitDefEqProofs [reloadWriteNow]

@[simp] theorem reloadWriteDev_keeps (c : Nat) (v : Word) (d : Dev) :
    (reloadWriteDev c v d).fresh = d.fresh ∧ (reloadWriteDev c v d).mem = d.mem ∧ (reloadWriteDev c v d).frame = d.frame ∧ (reloadWriteDev c v d).port = d.port ∧ (reloadWriteDev c v d).win = d.win ∧ (reloadWriteDev c v d).pwr = d.pwr ∧ (reloadWriteDev c v d).mgt = d.mgt ∧ (reloadWriteDev c v d).boot = d.boot ∧ (reloadWriteDev c v d).alm = d.alm ∧ (reloadWriteDev c v d).par = d.par ∧ (reloadWriteDev c v d).aud = d.aud ∧ (reloadWriteDev c v d).cal = d.cal ∧ (reloadWriteDev c v d).mix = d.mix ∧ (reloadWriteDev c v d).outs = d.outs ∧ (reloadWriteDev c v d).tdm = d.tdm ∧ (reloadWriteDev c v d).ser = d.ser ∧ (reloadWriteDev c v d).cas = d.cas := by
  simp -implicitDefEqProofs [reloadWriteDev]

@[simp] theorem capturePut_keeps (c n v : Nat) (d : Dev) :
    (capturePut c n v d).fresh = d.fresh ∧ (capturePut c n v d).mem = d.mem ∧ (capturePut c n v d).frame = d.frame ∧ (capturePut c n v d).port = d.port ∧ (capturePut c n v d).win = d.win ∧ (capturePut c n v d).pwr = d.pwr ∧ (capturePut c n v d).mgt = d.mgt ∧ (capturePut c n v d).boot = d.boot ∧ (capturePut c n v d).alm = d.alm ∧ (capturePut c n v d).par = d.par ∧ (capturePut c n v d).aud = d.aud ∧ (capturePut c n v d).cal = d.cal ∧ (capturePut c n v d).mix = d.mix ∧ (capturePut c n v d).outs = d.outs ∧ (capturePut c n v d).tdm = d.tdm ∧ (capturePut c n v d).ser = d.ser ∧ (capturePut c n v d).cas = d.cas := by
  simp -implicitDefEqProofs [capturePut]

@[simp] theorem captureNow_keeps (c n : Nat) (d : Dev) :
    (captureNow c n d).fresh = d.fresh ∧ (captureNow c n d).mem = d.mem ∧ (captureNow c n d).frame = d.frame ∧ (captureNow c n d).port = d.port ∧ (captureNow c n d).win = d.win ∧ (captureNow c n d).pwr = d.pwr ∧ (captureNow c n d).mgt = d.mgt ∧ (captureNow c n d).boot = d.boot ∧ (captureNow c n d).alm = d.alm ∧ (captureNow c n d).par = d.par ∧ (captureNow c n d).aud = d.aud ∧ (captureNow c n d).cal = d.cal ∧ (captureNow c n d).mix = d.mix ∧ (captureNow c n d).outs = d.outs ∧ (captureNow c n d).tdm = d.tdm ∧ (captureNow c n d).ser = d.ser ∧ (captureNow c n d).cas = d.cas := by
  simp -implicitDefEqProofs [captureNow]

@[simp] theorem captureSw_keeps (c n : Nat) (d : Dev) :
    (captureSw c n d).fresh = d.fresh ∧ (captureSw c n d).mem = d.mem ∧ (captureSw c n d).frame = d.frame ∧ (captureSw c n d).port = d.port ∧ (captureSw c n d).win = d.win ∧ (captureSw c n d).pwr = d.pwr ∧ (captureSw c n d).mgt = d.mgt ∧ (captureSw c n d).boot = d.boot ∧ (captureSw c n d).alm = d.alm ∧ (captureSw c n d).par = d.par ∧ (captureSw c n d).aud = d.aud ∧ (captureSw c n d).cal = d.cal ∧ (captureSw c n d).mix = d.mix ∧ (captureSw c n d).outs = d.outs ∧ (captureSw c n d).tdm = d.tdm ∧ (captureSw c n d).ser = d.ser ∧ (captureSw c n d).cas = d.cas := by
  simp -implicitDefEqProofs [captureSw]

@[simp] theorem chrCaptureDev_keeps (c n : Nat) (d : Dev) :
    (chrCaptureDev c n d).fresh = d.fresh ∧ (chrCaptureDev c n d).mem = d.mem ∧ (chrCaptureDev c n d).frame = d.frame ∧ (chrCaptureDev c n d).port = d.port ∧ (chrCaptureDev c n d).win = d.win ∧ (chrCaptureDev c n d).pwr = d.pwr ∧ (chrCaptureDev c n d).mgt = d.mgt ∧ (chrCaptureDev c n d).boot = d.boot ∧ (chrCaptureDev c n d).alm = d.alm ∧ (chrCaptureDev c n d).par = d.par ∧ (chrCaptureDev c n d).aud = d.aud ∧ (chrCaptureDev c n d).cal = d.cal ∧ (chrCaptureDev c n d).mix = d.mix ∧ (chrCaptureDev c n d).outs = d.outs ∧ (chrCaptureDev c n d).tdm = d.tdm ∧ (chrCaptureDev c n d).ser = d.ser ∧ (chrCaptureDev c n d).cas = d.cas := by
  simp -implicitDefEqProofs [chrCaptureDev]

@[simp] theorem captureSwNow_keeps (c : Nat) (v : Word) (d : Dev) :
    (captureSwNow c v d).fresh = d.fresh ∧ (captureSwNow c v d).mem = d.mem ∧ (captureSwNow c v d).frame = d.frame ∧ (captureSwNow c v d).port = d.port ∧ (captureSwNow c v d).win = d.win ∧ (captureSwNow c v d).pwr = d.pwr ∧ (captureSwNow c v d).mgt = d.mgt ∧ (captureSwNow c v d).boot = d.boot ∧ (captureSwNow c v d).alm = d.alm ∧ (captureSwNow c v d).par = d.par ∧ (captureSwNow c v d).aud = d.aud ∧ (captureSwNow c v d).cal = d.cal ∧ (captureSwNow c v d).mix = d.mix ∧ (captureSwNow c v d).outs = d.outs ∧ (captureSwNow c v d).tdm = d.tdm ∧ (captureSwNow c v d).ser = d.ser ∧ (captureSwNow c v d).cas = d.cas := by
  simp -implicitDefEqProofs [captureSwNow]

@[simp] theorem captureSwDev_keeps (c : Nat) (v : Word) (d : Dev) :
    (captureSwDev c v d).fresh = d.fresh ∧ (captureSwDev c v d).mem = d.mem ∧ (captureSwDev c v d).frame = d.frame ∧ (captureSwDev c v d).port = d.port ∧ (captureSwDev c v d).win = d.win ∧ (captureSwDev c v d).pwr = d.pwr ∧ (captureSwDev c v d).mgt = d.mgt ∧ (captureSwDev c v d).boot = d.boot ∧ (captureSwDev c v d).alm = d.alm ∧ (captureSwDev c v d).par = d.par ∧ (captureSwDev c v d).aud = d.aud ∧ (captureSwDev c v d).cal = d.cal ∧ (captureSwDev c v d).mix = d.mix ∧ (captureSwDev c v d).outs = d.outs ∧ (captureSwDev c v d).tdm = d.tdm ∧ (captureSwDev c v d).ser = d.ser ∧ (captureSwDev c v d).cas = d.cas := by
  simp -implicitDefEqProofs [captureSwDev]

@[simp] theorem chrCapReadDev_keeps (c n : Nat) (d : Dev) :
    (chrCapReadDev c n d).fresh = d.fresh ∧ (chrCapReadDev c n d).mem = d.mem ∧ (chrCapReadDev c n d).frame = d.frame ∧ (chrCapReadDev c n d).port = d.port ∧ (chrCapReadDev c n d).win = d.win ∧ (chrCapReadDev c n d).pwr = d.pwr ∧ (chrCapReadDev c n d).mgt = d.mgt ∧ (chrCapReadDev c n d).boot = d.boot ∧ (chrCapReadDev c n d).alm = d.alm ∧ (chrCapReadDev c n d).par = d.par ∧ (chrCapReadDev c n d).aud = d.aud ∧ (chrCapReadDev c n d).cal = d.cal ∧ (chrCapReadDev c n d).mix = d.mix ∧ (chrCapReadDev c n d).outs = d.outs ∧ (chrCapReadDev c n d).tdm = d.tdm ∧ (chrCapReadDev c n d).ser = d.ser ∧ (chrCapReadDev c n d).cas = d.cas := by
  simp -implicitDefEqProofs [chrCapReadDev]

@[simp] theorem registerCaptures_keeps (pick : Nat → Nat → Bool) (d : Dev) :
    (registerCaptures pick d).regs = d.regs ∧ (registerCaptures pick d).fresh = d.fresh ∧ (registerCaptures pick d).mem = d.mem ∧ (registerCaptures pick d).frame = d.frame ∧ (registerCaptures pick d).port = d.port ∧ (registerCaptures pick d).win = d.win ∧ (registerCaptures pick d).pwr = d.pwr ∧ (registerCaptures pick d).mgt = d.mgt ∧ (registerCaptures pick d).boot = d.boot ∧ (registerCaptures pick d).alm = d.alm ∧ (registerCaptures pick d).par = d.par ∧ (registerCaptures pick d).aud = d.aud ∧ (registerCaptures pick d).cal = d.cal ∧ (registerCaptures pick d).mix = d.mix ∧ (registerCaptures pick d).outs = d.outs ∧ (registerCaptures pick d).tdm = d.tdm ∧ (registerCaptures pick d).ser = d.ser ∧ (registerCaptures pick d).cas = d.cas := by
  simp -implicitDefEqProofs [registerCaptures]

@[simp] theorem chrInEdgeDev_keeps (k : Nat) (level : Bool) (d : Dev) :
    (chrInEdgeDev k level d).regs = d.regs ∧ (chrInEdgeDev k level d).fresh = d.fresh ∧ (chrInEdgeDev k level d).mem = d.mem ∧ (chrInEdgeDev k level d).frame = d.frame ∧ (chrInEdgeDev k level d).port = d.port ∧ (chrInEdgeDev k level d).win = d.win ∧ (chrInEdgeDev k level d).pwr = d.pwr ∧ (chrInEdgeDev k level d).mgt = d.mgt ∧ (chrInEdgeDev k level d).boot = d.boot ∧ (chrInEdgeDev k level d).alm = d.alm ∧ (chrInEdgeDev k level d).par = d.par ∧ (chrInEdgeDev k level d).aud = d.aud ∧ (chrInEdgeDev k level d).cal = d.cal ∧ (chrInEdgeDev k level d).mix = d.mix ∧ (chrInEdgeDev k level d).outs = d.outs ∧ (chrInEdgeDev k level d).tdm = d.tdm ∧ (chrInEdgeDev k level d).ser = d.ser ∧ (chrInEdgeDev k level d).cas = d.cas := by
  simp -implicitDefEqProofs [chrInEdgeDev]

@[simp] theorem evcRun_keeps (on : Bool) (d : Dev) :
    (evcRun on d).regs = d.regs ∧ (evcRun on d).fresh = d.fresh ∧ (evcRun on d).mem = d.mem ∧ (evcRun on d).frame = d.frame ∧ (evcRun on d).port = d.port ∧ (evcRun on d).win = d.win ∧ (evcRun on d).pwr = d.pwr ∧ (evcRun on d).mgt = d.mgt ∧ (evcRun on d).boot = d.boot ∧ (evcRun on d).alm = d.alm ∧ (evcRun on d).par = d.par ∧ (evcRun on d).aud = d.aud ∧ (evcRun on d).cal = d.cal ∧ (evcRun on d).mix = d.mix ∧ (evcRun on d).outs = d.outs ∧ (evcRun on d).tdm = d.tdm ∧ (evcRun on d).ser = d.ser ∧ (evcRun on d).cas = d.cas := by
  simp -implicitDefEqProofs [evcRun]

@[simp] theorem evcAdd_keeps (x n inc : Nat) (d : Dev) :
    (evcAdd x n inc d).fresh = d.fresh ∧ (evcAdd x n inc d).mem = d.mem ∧ (evcAdd x n inc d).frame = d.frame ∧ (evcAdd x n inc d).port = d.port ∧ (evcAdd x n inc d).win = d.win ∧ (evcAdd x n inc d).pwr = d.pwr ∧ (evcAdd x n inc d).mgt = d.mgt ∧ (evcAdd x n inc d).boot = d.boot ∧ (evcAdd x n inc d).alm = d.alm ∧ (evcAdd x n inc d).par = d.par ∧ (evcAdd x n inc d).aud = d.aud ∧ (evcAdd x n inc d).cal = d.cal ∧ (evcAdd x n inc d).mix = d.mix ∧ (evcAdd x n inc d).outs = d.outs ∧ (evcAdd x n inc d).tdm = d.tdm ∧ (evcAdd x n inc d).ser = d.ser ∧ (evcAdd x n inc d).cas = d.cas := by
  simp -implicitDefEqProofs [evcAdd]

@[simp] theorem evcCount_keeps (x code inc : Nat) (d : Dev) :
    (evcCount x code inc d).fresh = d.fresh ∧ (evcCount x code inc d).mem = d.mem ∧ (evcCount x code inc d).frame = d.frame ∧ (evcCount x code inc d).port = d.port ∧ (evcCount x code inc d).win = d.win ∧ (evcCount x code inc d).pwr = d.pwr ∧ (evcCount x code inc d).mgt = d.mgt ∧ (evcCount x code inc d).boot = d.boot ∧ (evcCount x code inc d).alm = d.alm ∧ (evcCount x code inc d).par = d.par ∧ (evcCount x code inc d).aud = d.aud ∧ (evcCount x code inc d).cal = d.cal ∧ (evcCount x code inc d).mix = d.mix ∧ (evcCount x code inc d).outs = d.outs ∧ (evcCount x code inc d).tdm = d.tdm ∧ (evcCount x code inc d).ser = d.ser ∧ (evcCount x code inc d).cas = d.cas := by
  simp -implicitDefEqProofs [evcCount]

@[simp] theorem evcGate_keeps (codes : List Nat) (d : Dev) :
    (evcGate codes d).regs = d.regs ∧ (evcGate codes d).fresh = d.fresh ∧ (evcGate codes d).mem = d.mem ∧ (evcGate codes d).frame = d.frame ∧ (evcGate codes d).port = d.port ∧ (evcGate codes d).win = d.win ∧ (evcGate codes d).pwr = d.pwr ∧ (evcGate codes d).mgt = d.mgt ∧ (evcGate codes d).boot = d.boot ∧ (evcGate codes d).alm = d.alm ∧ (evcGate codes d).par = d.par ∧ (evcGate codes d).aud = d.aud ∧ (evcGate codes d).cal = d.cal ∧ (evcGate codes d).mix = d.mix ∧ (evcGate codes d).outs = d.outs ∧ (evcGate codes d).tdm = d.tdm ∧ (evcGate codes d).ser = d.ser ∧ (evcGate codes d).cas = d.cas := by
  simp -implicitDefEqProofs [evcGate]

@[simp] theorem deliverOne_keeps (x : Nat) (o : Nat × Nat) (d : Dev) :
    (deliverOne x o d).fresh = d.fresh ∧ (deliverOne x o d).mem = d.mem ∧ (deliverOne x o d).frame = d.frame ∧ (deliverOne x o d).port = d.port ∧ (deliverOne x o d).win = d.win ∧ (deliverOne x o d).pwr = d.pwr ∧ (deliverOne x o d).mgt = d.mgt ∧ (deliverOne x o d).boot = d.boot ∧ (deliverOne x o d).alm = d.alm ∧ (deliverOne x o d).par = d.par ∧ (deliverOne x o d).aud = d.aud ∧ (deliverOne x o d).cal = d.cal ∧ (deliverOne x o d).mix = d.mix ∧ (deliverOne x o d).outs = d.outs ∧ (deliverOne x o d).tdm = d.tdm ∧ (deliverOne x o d).ser = d.ser ∧ (deliverOne x o d).cas = d.cas := by
  simp -implicitDefEqProofs [deliverOne]

@[simp] theorem eventBusDeliveryDev_keeps (d : Dev) :
    (eventBusDeliveryDev d).fresh = d.fresh ∧ (eventBusDeliveryDev d).mem = d.mem ∧ (eventBusDeliveryDev d).frame = d.frame ∧ (eventBusDeliveryDev d).port = d.port ∧ (eventBusDeliveryDev d).win = d.win ∧ (eventBusDeliveryDev d).pwr = d.pwr ∧ (eventBusDeliveryDev d).mgt = d.mgt ∧ (eventBusDeliveryDev d).boot = d.boot ∧ (eventBusDeliveryDev d).alm = d.alm ∧ (eventBusDeliveryDev d).par = d.par ∧ (eventBusDeliveryDev d).aud = d.aud ∧ (eventBusDeliveryDev d).cal = d.cal ∧ (eventBusDeliveryDev d).mix = d.mix ∧ (eventBusDeliveryDev d).outs = d.outs ∧ (eventBusDeliveryDev d).tdm = d.tdm ∧ (eventBusDeliveryDev d).ser = d.ser ∧ (eventBusDeliveryDev d).cas = d.cas := by
  unfold eventBusDeliveryDev; refine ⟨?_, ?_, ?_, ?_, ?_, ?_, ?_, ?_, ?_, ?_, ?_, ?_, ?_, ?_, ?_, ?_, ?_⟩ <;> (repeat' split) <;> simp -implicitDefEqProofs

@[simp] theorem evcZeroAll_keeps (d : Dev) :
    (evcZeroAll d).regs = d.regs ∧ (evcZeroAll d).fresh = d.fresh ∧ (evcZeroAll d).mem = d.mem ∧ (evcZeroAll d).frame = d.frame ∧ (evcZeroAll d).port = d.port ∧ (evcZeroAll d).win = d.win ∧ (evcZeroAll d).pwr = d.pwr ∧ (evcZeroAll d).mgt = d.mgt ∧ (evcZeroAll d).boot = d.boot ∧ (evcZeroAll d).alm = d.alm ∧ (evcZeroAll d).par = d.par ∧ (evcZeroAll d).aud = d.aud ∧ (evcZeroAll d).cal = d.cal ∧ (evcZeroAll d).mix = d.mix ∧ (evcZeroAll d).outs = d.outs ∧ (evcZeroAll d).tdm = d.tdm ∧ (evcZeroAll d).ser = d.ser ∧ (evcZeroAll d).cas = d.cas := by
  simp -implicitDefEqProofs [evcZeroAll]

@[simp] theorem evcSetFreeze_keeps (on : Bool) (d : Dev) :
    (evcSetFreeze on d).fresh = d.fresh ∧ (evcSetFreeze on d).mem = d.mem ∧ (evcSetFreeze on d).frame = d.frame ∧ (evcSetFreeze on d).port = d.port ∧ (evcSetFreeze on d).win = d.win ∧ (evcSetFreeze on d).pwr = d.pwr ∧ (evcSetFreeze on d).mgt = d.mgt ∧ (evcSetFreeze on d).boot = d.boot ∧ (evcSetFreeze on d).alm = d.alm ∧ (evcSetFreeze on d).par = d.par ∧ (evcSetFreeze on d).aud = d.aud ∧ (evcSetFreeze on d).cal = d.cal ∧ (evcSetFreeze on d).mix = d.mix ∧ (evcSetFreeze on d).outs = d.outs ∧ (evcSetFreeze on d).tdm = d.tdm ∧ (evcSetFreeze on d).ser = d.ser ∧ (evcSetFreeze on d).cas = d.cas := by
  simp -implicitDefEqProofs [evcSetFreeze]

@[simp] theorem evcGlbNow_keeps (v : Word) (d : Dev) :
    (evcGlbNow v d).fresh = d.fresh ∧ (evcGlbNow v d).mem = d.mem ∧ (evcGlbNow v d).frame = d.frame ∧ (evcGlbNow v d).port = d.port ∧ (evcGlbNow v d).win = d.win ∧ (evcGlbNow v d).pwr = d.pwr ∧ (evcGlbNow v d).mgt = d.mgt ∧ (evcGlbNow v d).boot = d.boot ∧ (evcGlbNow v d).alm = d.alm ∧ (evcGlbNow v d).par = d.par ∧ (evcGlbNow v d).aud = d.aud ∧ (evcGlbNow v d).cal = d.cal ∧ (evcGlbNow v d).mix = d.mix ∧ (evcGlbNow v d).outs = d.outs ∧ (evcGlbNow v d).tdm = d.tdm ∧ (evcGlbNow v d).ser = d.ser ∧ (evcGlbNow v d).cas = d.cas := by
  simp -implicitDefEqProofs [evcGlbNow]

@[simp] theorem evcGlbWrite_keeps (v : Word) (d : Dev) :
    (evcGlbWrite v d).fresh = d.fresh ∧ (evcGlbWrite v d).mem = d.mem ∧ (evcGlbWrite v d).frame = d.frame ∧ (evcGlbWrite v d).port = d.port ∧ (evcGlbWrite v d).win = d.win ∧ (evcGlbWrite v d).pwr = d.pwr ∧ (evcGlbWrite v d).mgt = d.mgt ∧ (evcGlbWrite v d).boot = d.boot ∧ (evcGlbWrite v d).alm = d.alm ∧ (evcGlbWrite v d).par = d.par ∧ (evcGlbWrite v d).aud = d.aud ∧ (evcGlbWrite v d).cal = d.cal ∧ (evcGlbWrite v d).mix = d.mix ∧ (evcGlbWrite v d).outs = d.outs ∧ (evcGlbWrite v d).tdm = d.tdm ∧ (evcGlbWrite v d).ser = d.ser ∧ (evcGlbWrite v d).cas = d.cas := by
  simp -implicitDefEqProofs [evcGlbWrite]

@[simp] theorem evcStartDev_keeps (v : Word) (d : Dev) :
    (evcStartDev v d).fresh = d.fresh ∧ (evcStartDev v d).mem = d.mem ∧ (evcStartDev v d).frame = d.frame ∧ (evcStartDev v d).port = d.port ∧ (evcStartDev v d).win = d.win ∧ (evcStartDev v d).pwr = d.pwr ∧ (evcStartDev v d).mgt = d.mgt ∧ (evcStartDev v d).boot = d.boot ∧ (evcStartDev v d).alm = d.alm ∧ (evcStartDev v d).par = d.par ∧ (evcStartDev v d).aud = d.aud ∧ (evcStartDev v d).cal = d.cal ∧ (evcStartDev v d).mix = d.mix ∧ (evcStartDev v d).outs = d.outs ∧ (evcStartDev v d).tdm = d.tdm ∧ (evcStartDev v d).ser = d.ser ∧ (evcStartDev v d).cas = d.cas := by
  simp -implicitDefEqProofs [evcStartDev]

@[simp] theorem evcStopDev_keeps (v : Word) (d : Dev) :
    (evcStopDev v d).fresh = d.fresh ∧ (evcStopDev v d).mem = d.mem ∧ (evcStopDev v d).frame = d.frame ∧ (evcStopDev v d).port = d.port ∧ (evcStopDev v d).win = d.win ∧ (evcStopDev v d).pwr = d.pwr ∧ (evcStopDev v d).mgt = d.mgt ∧ (evcStopDev v d).boot = d.boot ∧ (evcStopDev v d).alm = d.alm ∧ (evcStopDev v d).par = d.par ∧ (evcStopDev v d).aud = d.aud ∧ (evcStopDev v d).cal = d.cal ∧ (evcStopDev v d).mix = d.mix ∧ (evcStopDev v d).outs = d.outs ∧ (evcStopDev v d).tdm = d.tdm ∧ (evcStopDev v d).ser = d.ser ∧ (evcStopDev v d).cas = d.cas := by
  simp -implicitDefEqProofs [evcStopDev]

@[simp] theorem evcClearAllDev_keeps (v : Word) (d : Dev) :
    (evcClearAllDev v d).fresh = d.fresh ∧ (evcClearAllDev v d).mem = d.mem ∧ (evcClearAllDev v d).frame = d.frame ∧ (evcClearAllDev v d).port = d.port ∧ (evcClearAllDev v d).win = d.win ∧ (evcClearAllDev v d).pwr = d.pwr ∧ (evcClearAllDev v d).mgt = d.mgt ∧ (evcClearAllDev v d).boot = d.boot ∧ (evcClearAllDev v d).alm = d.alm ∧ (evcClearAllDev v d).par = d.par ∧ (evcClearAllDev v d).aud = d.aud ∧ (evcClearAllDev v d).cal = d.cal ∧ (evcClearAllDev v d).mix = d.mix ∧ (evcClearAllDev v d).outs = d.outs ∧ (evcClearAllDev v d).tdm = d.tdm ∧ (evcClearAllDev v d).ser = d.ser ∧ (evcClearAllDev v d).cas = d.cas := by
  simp -implicitDefEqProofs [evcClearAllDev]

@[simp] theorem evcFreezeDev_keeps (v : Word) (d : Dev) :
    (evcFreezeDev v d).fresh = d.fresh ∧ (evcFreezeDev v d).mem = d.mem ∧ (evcFreezeDev v d).frame = d.frame ∧ (evcFreezeDev v d).port = d.port ∧ (evcFreezeDev v d).win = d.win ∧ (evcFreezeDev v d).pwr = d.pwr ∧ (evcFreezeDev v d).mgt = d.mgt ∧ (evcFreezeDev v d).boot = d.boot ∧ (evcFreezeDev v d).alm = d.alm ∧ (evcFreezeDev v d).par = d.par ∧ (evcFreezeDev v d).aud = d.aud ∧ (evcFreezeDev v d).cal = d.cal ∧ (evcFreezeDev v d).mix = d.mix ∧ (evcFreezeDev v d).outs = d.outs ∧ (evcFreezeDev v d).tdm = d.tdm ∧ (evcFreezeDev v d).ser = d.ser ∧ (evcFreezeDev v d).cas = d.cas := by
  simp -implicitDefEqProofs [evcFreezeDev]

@[simp] theorem evcClrNow_keeps (n : Nat) (v : Word) (d : Dev) :
    (evcClrNow n v d).fresh = d.fresh ∧ (evcClrNow n v d).mem = d.mem ∧ (evcClrNow n v d).frame = d.frame ∧ (evcClrNow n v d).port = d.port ∧ (evcClrNow n v d).win = d.win ∧ (evcClrNow n v d).pwr = d.pwr ∧ (evcClrNow n v d).mgt = d.mgt ∧ (evcClrNow n v d).boot = d.boot ∧ (evcClrNow n v d).alm = d.alm ∧ (evcClrNow n v d).par = d.par ∧ (evcClrNow n v d).aud = d.aud ∧ (evcClrNow n v d).cal = d.cal ∧ (evcClrNow n v d).mix = d.mix ∧ (evcClrNow n v d).outs = d.outs ∧ (evcClrNow n v d).tdm = d.tdm ∧ (evcClrNow n v d).ser = d.ser ∧ (evcClrNow n v d).cas = d.cas := by
  simp -implicitDefEqProofs [evcClrNow]

@[simp] theorem evcClrDev_keeps (n : Nat) (v : Word) (d : Dev) :
    (evcClrDev n v d).fresh = d.fresh ∧ (evcClrDev n v d).mem = d.mem ∧ (evcClrDev n v d).frame = d.frame ∧ (evcClrDev n v d).port = d.port ∧ (evcClrDev n v d).win = d.win ∧ (evcClrDev n v d).pwr = d.pwr ∧ (evcClrDev n v d).mgt = d.mgt ∧ (evcClrDev n v d).boot = d.boot ∧ (evcClrDev n v d).alm = d.alm ∧ (evcClrDev n v d).par = d.par ∧ (evcClrDev n v d).aud = d.aud ∧ (evcClrDev n v d).cal = d.cal ∧ (evcClrDev n v d).mix = d.mix ∧ (evcClrDev n v d).outs = d.outs ∧ (evcClrDev n v d).tdm = d.tdm ∧ (evcClrDev n v d).ser = d.ser ∧ (evcClrDev n v d).cas = d.cas := by
  simp -implicitDefEqProofs [evcClrDev]

@[simp] theorem chrOutctlNow_keeps (k : Nat) (v : Word) (d : Dev) :
    (chrOutctlNow k v d).fresh = d.fresh ∧ (chrOutctlNow k v d).mem = d.mem ∧ (chrOutctlNow k v d).frame = d.frame ∧ (chrOutctlNow k v d).port = d.port ∧ (chrOutctlNow k v d).win = d.win ∧ (chrOutctlNow k v d).pwr = d.pwr ∧ (chrOutctlNow k v d).mgt = d.mgt ∧ (chrOutctlNow k v d).boot = d.boot ∧ (chrOutctlNow k v d).alm = d.alm ∧ (chrOutctlNow k v d).par = d.par ∧ (chrOutctlNow k v d).aud = d.aud ∧ (chrOutctlNow k v d).cal = d.cal ∧ (chrOutctlNow k v d).mix = d.mix ∧ (chrOutctlNow k v d).tdm = d.tdm ∧ (chrOutctlNow k v d).ser = d.ser ∧ (chrOutctlNow k v d).cas = d.cas := by
  simp -implicitDefEqProofs [chrOutctlNow]

@[simp] theorem chrWrite_fresh (a : Nat) (v : Word) (d : Dev)
     :
    (chrWrite a v d).fresh = d.fresh := by
  unfold chrWrite; dsimp only; (repeat' split) <;> simp -implicitDefEqProofs

@[simp] theorem chrWrite_mem (a : Nat) (v : Word) (d : Dev)
     :
    (chrWrite a v d).mem = d.mem := by
  unfold chrWrite; dsimp only; (repeat' split) <;> simp -implicitDefEqProofs

@[simp] theorem chrWrite_frame (a : Nat) (v : Word) (d : Dev)
     :
    (chrWrite a v d).frame = d.frame := by
  unfold chrWrite; dsimp only; (repeat' split) <;> simp -implicitDefEqProofs

@[simp] theorem chrWrite_port (a : Nat) (v : Word) (d : Dev)
     :
    (chrWrite a v d).port = d.port := by
  unfold chrWrite; dsimp only; (repeat' split) <;> simp -implicitDefEqProofs

@[simp] theorem chrWrite_win (a : Nat) (v : Word) (d : Dev)
     :
    (chrWrite a v d).win = d.win := by
  unfold chrWrite; dsimp only; (repeat' split) <;> simp -implicitDefEqProofs

@[simp] theorem chrWrite_pwr (a : Nat) (v : Word) (d : Dev)
     :
    (chrWrite a v d).pwr = d.pwr := by
  unfold chrWrite; dsimp only; (repeat' split) <;> simp -implicitDefEqProofs

@[simp] theorem chrWrite_mgt (a : Nat) (v : Word) (d : Dev)
     :
    (chrWrite a v d).mgt = d.mgt := by
  unfold chrWrite; dsimp only; (repeat' split) <;> simp -implicitDefEqProofs

@[simp] theorem chrWrite_boot (a : Nat) (v : Word) (d : Dev)
     :
    (chrWrite a v d).boot = d.boot := by
  unfold chrWrite; dsimp only; (repeat' split) <;> simp -implicitDefEqProofs

@[simp] theorem chrWrite_alm (a : Nat) (v : Word) (d : Dev)
     :
    (chrWrite a v d).alm = d.alm := by
  unfold chrWrite; dsimp only; (repeat' split) <;> simp -implicitDefEqProofs

@[simp] theorem chrWrite_par (a : Nat) (v : Word) (d : Dev)
     :
    (chrWrite a v d).par = d.par := by
  unfold chrWrite; dsimp only; (repeat' split) <;> simp -implicitDefEqProofs

@[simp] theorem chrWrite_aud (a : Nat) (v : Word) (d : Dev)
     :
    (chrWrite a v d).aud = d.aud := by
  unfold chrWrite; dsimp only; (repeat' split) <;> simp -implicitDefEqProofs

@[simp] theorem chrWrite_cal (a : Nat) (v : Word) (d : Dev)
     :
    (chrWrite a v d).cal = d.cal := by
  unfold chrWrite; dsimp only; (repeat' split) <;> simp -implicitDefEqProofs

@[simp] theorem chrWrite_mix (a : Nat) (v : Word) (d : Dev)
     :
    (chrWrite a v d).mix = d.mix := by
  unfold chrWrite; dsimp only; (repeat' split) <;> simp -implicitDefEqProofs

@[simp] theorem chrWrite_tdm (a : Nat) (v : Word) (d : Dev)
     :
    (chrWrite a v d).tdm = d.tdm := by
  unfold chrWrite; dsimp only; (repeat' split) <;> simp -implicitDefEqProofs

@[simp] theorem chrWrite_ser (a : Nat) (v : Word) (d : Dev)
     :
    (chrWrite a v d).ser = d.ser := by
  unfold chrWrite; dsimp only; (repeat' split) <;> simp -implicitDefEqProofs

@[simp] theorem chrWrite_cas (a : Nat) (v : Word) (d : Dev)
     :
    (chrWrite a v d).cas = d.cas := by
  unfold chrWrite; dsimp only; (repeat' split) <;> simp -implicitDefEqProofs

@[simp] theorem edgeResumeOne_keeps (stops : Word) (e : Nat × Word) (d : Dev) :
    (edgeResumeOne stops e d).fresh = d.fresh ∧ (edgeResumeOne stops e d).mem = d.mem ∧ (edgeResumeOne stops e d).frame = d.frame ∧ (edgeResumeOne stops e d).port = d.port ∧ (edgeResumeOne stops e d).win = d.win ∧ (edgeResumeOne stops e d).pwr = d.pwr ∧ (edgeResumeOne stops e d).mgt = d.mgt ∧ (edgeResumeOne stops e d).boot = d.boot ∧ (edgeResumeOne stops e d).alm = d.alm ∧ (edgeResumeOne stops e d).par = d.par ∧ (edgeResumeOne stops e d).aud = d.aud ∧ (edgeResumeOne stops e d).cal = d.cal ∧ (edgeResumeOne stops e d).mix = d.mix ∧ (edgeResumeOne stops e d).tdm = d.tdm ∧ (edgeResumeOne stops e d).ser = d.ser ∧ (edgeResumeOne stops e d).cas = d.cas := by
  refine ⟨?_, ?_, ?_, ?_, ?_, ?_, ?_, ?_, ?_, ?_, ?_, ?_, ?_, ?_, ?_, ?_⟩ <;> unfold edgeResumeOne <;> (repeat' split) <;> first | rfl | simp -implicitDefEqProofs

@[simp] theorem edgeResumeRead_keeps (e : Nat × Word) (d : Dev) :
    (edgeResumeRead e d).fresh = d.fresh ∧ (edgeResumeRead e d).mem = d.mem ∧ (edgeResumeRead e d).frame = d.frame ∧ (edgeResumeRead e d).port = d.port ∧ (edgeResumeRead e d).win = d.win ∧ (edgeResumeRead e d).cnt = d.cnt ∧ (edgeResumeRead e d).pwr = d.pwr ∧ (edgeResumeRead e d).mgt = d.mgt ∧ (edgeResumeRead e d).boot = d.boot ∧ (edgeResumeRead e d).alm = d.alm ∧ (edgeResumeRead e d).par = d.par ∧ (edgeResumeRead e d).aud = d.aud ∧ (edgeResumeRead e d).cal = d.cal ∧ (edgeResumeRead e d).mix = d.mix ∧ (edgeResumeRead e d).outs = d.outs ∧ (edgeResumeRead e d).tdm = d.tdm ∧ (edgeResumeRead e d).ser = d.ser ∧ (edgeResumeRead e d).cas = d.cas := by
  simp -implicitDefEqProofs [edgeResumeRead]

@[simp] theorem edgeResume_keeps (d : Dev) :
    (edgeResume d).fresh = d.fresh ∧ (edgeResume d).mem = d.mem ∧ (edgeResume d).frame = d.frame ∧ (edgeResume d).port = d.port ∧ (edgeResume d).win = d.win ∧ (edgeResume d).pwr = d.pwr ∧ (edgeResume d).mgt = d.mgt ∧ (edgeResume d).boot = d.boot ∧ (edgeResume d).alm = d.alm ∧ (edgeResume d).par = d.par ∧ (edgeResume d).aud = d.aud ∧ (edgeResume d).cal = d.cal ∧ (edgeResume d).mix = d.mix ∧ (edgeResume d).tdm = d.tdm ∧ (edgeResume d).ser = d.ser ∧ (edgeResume d).cas = d.cas := by
  simp -implicitDefEqProofs [edgeResume]

@[simp] theorem chrSleep_keeps (d : Dev) :
    (chrSleep d).regs = d.regs ∧ (chrSleep d).fresh = d.fresh ∧ (chrSleep d).mem = d.mem ∧ (chrSleep d).frame = d.frame ∧ (chrSleep d).port = d.port ∧ (chrSleep d).win = d.win ∧ (chrSleep d).pwr = d.pwr ∧ (chrSleep d).mgt = d.mgt ∧ (chrSleep d).boot = d.boot ∧ (chrSleep d).alm = d.alm ∧ (chrSleep d).par = d.par ∧ (chrSleep d).aud = d.aud ∧ (chrSleep d).cal = d.cal ∧ (chrSleep d).mix = d.mix ∧ (chrSleep d).tdm = d.tdm ∧ (chrSleep d).ser = d.ser ∧ (chrSleep d).cas = d.cas := by
  simp -implicitDefEqProofs [chrSleep]

@[simp] theorem chrWake_keeps (d : Dev) :
    (chrWake d).regs = d.regs ∧ (chrWake d).fresh = d.fresh ∧ (chrWake d).mem = d.mem ∧ (chrWake d).frame = d.frame ∧ (chrWake d).port = d.port ∧ (chrWake d).win = d.win ∧ (chrWake d).pwr = d.pwr ∧ (chrWake d).mgt = d.mgt ∧ (chrWake d).boot = d.boot ∧ (chrWake d).alm = d.alm ∧ (chrWake d).par = d.par ∧ (chrWake d).aud = d.aud ∧ (chrWake d).cal = d.cal ∧ (chrWake d).mix = d.mix ∧ (chrWake d).tdm = d.tdm ∧ (chrWake d).ser = d.ser ∧ (chrWake d).cas = d.cas := by
  simp -implicitDefEqProofs [chrWake]

@[simp] theorem emitDir_keeps (bs : List Byte) (d : Dev) :
    (emitDir bs d).fresh = d.fresh ∧ (emitDir bs d).mem = d.mem ∧ (emitDir bs d).frame = d.frame ∧ (emitDir bs d).port = d.port ∧ (emitDir bs d).win = d.win ∧ (emitDir bs d).cnt = d.cnt ∧ (emitDir bs d).pwr = d.pwr ∧ (emitDir bs d).mgt = d.mgt ∧ (emitDir bs d).boot = d.boot ∧ (emitDir bs d).alm = d.alm ∧ (emitDir bs d).par = d.par ∧ (emitDir bs d).aud = d.aud ∧ (emitDir bs d).cal = d.cal ∧ (emitDir bs d).mix = d.mix ∧ (emitDir bs d).outs = d.outs ∧ (emitDir bs d).tdm = d.tdm ∧ (emitDir bs d).ser = d.ser := by
  refine ⟨?_, ?_, ?_, ?_, ?_, ?_, ?_, ?_, ?_, ?_, ?_, ?_, ?_, ?_, ?_, ?_, ?_⟩ <;> (simp only [emitDir]; repeat' split) <;> simp_all -implicitDefEqProofs

@[simp] theorem queueDir_keeps (bs : List Byte) (d : Dev) :
    (queueDir bs d).regs = d.regs ∧ (queueDir bs d).fresh = d.fresh ∧ (queueDir bs d).mem = d.mem ∧ (queueDir bs d).frame = d.frame ∧ (queueDir bs d).port = d.port ∧ (queueDir bs d).win = d.win ∧ (queueDir bs d).cnt = d.cnt ∧ (queueDir bs d).pwr = d.pwr ∧ (queueDir bs d).mgt = d.mgt ∧ (queueDir bs d).boot = d.boot ∧ (queueDir bs d).alm = d.alm ∧ (queueDir bs d).par = d.par ∧ (queueDir bs d).aud = d.aud ∧ (queueDir bs d).cal = d.cal ∧ (queueDir bs d).mix = d.mix ∧ (queueDir bs d).outs = d.outs ∧ (queueDir bs d).tdm = d.tdm ∧ (queueDir bs d).ser = d.ser := by
  simp -implicitDefEqProofs [queueDir]

@[simp] theorem partV_keeps (p off : Nat) (bs : List Byte) (d : Dev) :
    (partV p off bs d).fresh = d.fresh ∧ (partV p off bs d).frame = d.frame ∧ (partV p off bs d).win = d.win ∧ (partV p off bs d).pwr = d.pwr ∧ (partV p off bs d).mgt = d.mgt ∧ (partV p off bs d).boot = d.boot ∧ (partV p off bs d).alm = d.alm ∧ (partV p off bs d).par = d.par ∧ (partV p off bs d).aud = d.aud ∧ (partV p off bs d).cal = d.cal ∧ (partV p off bs d).mix = d.mix ∧ (partV p off bs d).outs = d.outs ∧ (partV p off bs d).tdm = d.tdm ∧ (partV p off bs d).ser = d.ser := by
  simp -implicitDefEqProofs [partV]

@[simp] theorem noteV_keeps (v off : Nat) (bs : List Byte) (d : Dev) :
    (noteV v off bs d).fresh = d.fresh ∧ (noteV v off bs d).frame = d.frame ∧ (noteV v off bs d).win = d.win ∧ (noteV v off bs d).pwr = d.pwr ∧ (noteV v off bs d).mgt = d.mgt ∧ (noteV v off bs d).boot = d.boot ∧ (noteV v off bs d).alm = d.alm ∧ (noteV v off bs d).par = d.par ∧ (noteV v off bs d).aud = d.aud ∧ (noteV v off bs d).cal = d.cal ∧ (noteV v off bs d).mix = d.mix ∧ (noteV v off bs d).outs = d.outs ∧ (noteV v off bs d).tdm = d.tdm ∧ (noteV v off bs d).ser = d.ser := by
  simp -implicitDefEqProofs [noteV]

@[simp] theorem countNoPart_keeps (n : Nat) (d : Dev) :
    (countNoPart n d).fresh = d.fresh ∧ (countNoPart n d).mem = d.mem ∧ (countNoPart n d).frame = d.frame ∧ (countNoPart n d).port = d.port ∧ (countNoPart n d).win = d.win ∧ (countNoPart n d).cnt = d.cnt ∧ (countNoPart n d).pwr = d.pwr ∧ (countNoPart n d).mgt = d.mgt ∧ (countNoPart n d).boot = d.boot ∧ (countNoPart n d).alm = d.alm ∧ (countNoPart n d).par = d.par ∧ (countNoPart n d).aud = d.aud ∧ (countNoPart n d).cal = d.cal ∧ (countNoPart n d).mix = d.mix ∧ (countNoPart n d).outs = d.outs ∧ (countNoPart n d).tdm = d.tdm ∧ (countNoPart n d).ser = d.ser ∧ (countNoPart n d).cas = d.cas := by
  simp -implicitDefEqProofs [countNoPart]

@[simp] theorem headLatch_keeps (d : Dev) :
    (headLatch d).regs = d.regs ∧ (headLatch d).fresh = d.fresh ∧ (headLatch d).mem = d.mem ∧ (headLatch d).frame = d.frame ∧ (headLatch d).port = d.port ∧ (headLatch d).win = d.win ∧ (headLatch d).cnt = d.cnt ∧ (headLatch d).pwr = d.pwr ∧ (headLatch d).mgt = d.mgt ∧ (headLatch d).boot = d.boot ∧ (headLatch d).alm = d.alm ∧ (headLatch d).aud = d.aud ∧ (headLatch d).cal = d.cal ∧ (headLatch d).mix = d.mix ∧ (headLatch d).outs = d.outs ∧ (headLatch d).tdm = d.tdm ∧ (headLatch d).ser = d.ser ∧ (headLatch d).cas = d.cas := by
  simp -implicitDefEqProofs [headLatch]

@[simp] theorem poolUpdate_keeps (d : Dev) :
    (poolUpdate d).fresh = d.fresh ∧ (poolUpdate d).mem = d.mem ∧ (poolUpdate d).frame = d.frame ∧ (poolUpdate d).win = d.win ∧ (poolUpdate d).cnt = d.cnt ∧ (poolUpdate d).pwr = d.pwr ∧ (poolUpdate d).mgt = d.mgt ∧ (poolUpdate d).boot = d.boot ∧ (poolUpdate d).alm = d.alm ∧ (poolUpdate d).aud = d.aud ∧ (poolUpdate d).cal = d.cal ∧ (poolUpdate d).mix = d.mix ∧ (poolUpdate d).outs = d.outs ∧ (poolUpdate d).tdm = d.tdm ∧ (poolUpdate d).ser = d.ser ∧ (poolUpdate d).cas = d.cas := by
  simp -implicitDefEqProofs [poolUpdate]

@[simp] theorem toReleasing_keeps (v : Nat) (d : Dev) :
    (toReleasing v d).fresh = d.fresh ∧ (toReleasing v d).frame = d.frame ∧ (toReleasing v d).win = d.win ∧ (toReleasing v d).pwr = d.pwr ∧ (toReleasing v d).mgt = d.mgt ∧ (toReleasing v d).boot = d.boot ∧ (toReleasing v d).alm = d.alm ∧ (toReleasing v d).cal = d.cal ∧ (toReleasing v d).mix = d.mix ∧ (toReleasing v d).outs = d.outs ∧ (toReleasing v d).tdm = d.tdm ∧ (toReleasing v d).ser = d.ser := by
  simp -implicitDefEqProofs [toReleasing]

@[simp] theorem toStealing_keeps (v fade : Nat) (d : Dev) :
    (toStealing v fade d).fresh = d.fresh ∧ (toStealing v fade d).frame = d.frame ∧ (toStealing v fade d).win = d.win ∧ (toStealing v fade d).pwr = d.pwr ∧ (toStealing v fade d).mgt = d.mgt ∧ (toStealing v fade d).boot = d.boot ∧ (toStealing v fade d).alm = d.alm ∧ (toStealing v fade d).aud = d.aud ∧ (toStealing v fade d).cal = d.cal ∧ (toStealing v fade d).mix = d.mix ∧ (toStealing v fade d).outs = d.outs ∧ (toStealing v fade d).tdm = d.tdm ∧ (toStealing v fade d).ser = d.ser := by
  simp -implicitDefEqProofs [toStealing]

@[simp] theorem toQuench_keeps (v : Nat) (d : Dev) :
    (toQuench v d).fresh = d.fresh ∧ (toQuench v d).frame = d.frame ∧ (toQuench v d).win = d.win ∧ (toQuench v d).pwr = d.pwr ∧ (toQuench v d).mgt = d.mgt ∧ (toQuench v d).boot = d.boot ∧ (toQuench v d).alm = d.alm ∧ (toQuench v d).cal = d.cal ∧ (toQuench v d).mix = d.mix ∧ (toQuench v d).outs = d.outs ∧ (toQuench v d).tdm = d.tdm ∧ (toQuench v d).ser = d.ser := by
  simp -implicitDefEqProofs [toQuench]

@[simp] theorem toFree_keeps (v : Nat) (d : Dev) :
    (toFree v d).fresh = d.fresh ∧ (toFree v d).frame = d.frame ∧ (toFree v d).win = d.win ∧ (toFree v d).pwr = d.pwr ∧ (toFree v d).mgt = d.mgt ∧ (toFree v d).boot = d.boot ∧ (toFree v d).alm = d.alm ∧ (toFree v d).aud = d.aud ∧ (toFree v d).mix = d.mix ∧ (toFree v d).outs = d.outs ∧ (toFree v d).tdm = d.tdm ∧ (toFree v d).ser = d.ser := by
  simp -implicitDefEqProofs [toFree]

@[simp] theorem offVoice_keeps (v : Nat) (d : Dev) :
    (offVoice v d).fresh = d.fresh ∧ (offVoice v d).frame = d.frame ∧ (offVoice v d).win = d.win ∧ (offVoice v d).pwr = d.pwr ∧ (offVoice v d).mgt = d.mgt ∧ (offVoice v d).boot = d.boot ∧ (offVoice v d).alm = d.alm ∧ (offVoice v d).cal = d.cal ∧ (offVoice v d).mix = d.mix ∧ (offVoice v d).outs = d.outs ∧ (offVoice v d).tdm = d.tdm ∧ (offVoice v d).ser = d.ser := by
  simp -implicitDefEqProofs [offVoice]

@[simp] theorem letGo_keeps (v : Nat) (d : Dev) :
    (letGo v d).fresh = d.fresh ∧ (letGo v d).frame = d.frame ∧ (letGo v d).win = d.win ∧ (letGo v d).pwr = d.pwr ∧ (letGo v d).mgt = d.mgt ∧ (letGo v d).boot = d.boot ∧ (letGo v d).alm = d.alm ∧ (letGo v d).cal = d.cal ∧ (letGo v d).mix = d.mix ∧ (letGo v d).outs = d.outs ∧ (letGo v d).tdm = d.tdm ∧ (letGo v d).ser = d.ser := by
  simp -implicitDefEqProofs [letGo]

@[simp] theorem recordPlan_keeps (p : Nat) (drop : Bool) (victims : List Nat) (d : Dev) :
    (recordPlan p drop victims d).regs = d.regs ∧ (recordPlan p drop victims d).fresh = d.fresh ∧ (recordPlan p drop victims d).mem = d.mem ∧ (recordPlan p drop victims d).frame = d.frame ∧ (recordPlan p drop victims d).port = d.port ∧ (recordPlan p drop victims d).win = d.win ∧ (recordPlan p drop victims d).cnt = d.cnt ∧ (recordPlan p drop victims d).pwr = d.pwr ∧ (recordPlan p drop victims d).mgt = d.mgt ∧ (recordPlan p drop victims d).boot = d.boot ∧ (recordPlan p drop victims d).alm = d.alm ∧ (recordPlan p drop victims d).par = d.par ∧ (recordPlan p drop victims d).aud = d.aud ∧ (recordPlan p drop victims d).cal = d.cal ∧ (recordPlan p drop victims d).mix = d.mix ∧ (recordPlan p drop victims d).outs = d.outs ∧ (recordPlan p drop victims d).tdm = d.tdm ∧ (recordPlan p drop victims d).ser = d.ser := by
  simp -implicitDefEqProofs [recordPlan]

@[simp] theorem recordSlot_keeps (v : Nat) (d : Dev) :
    (recordSlot v d).regs = d.regs ∧ (recordSlot v d).fresh = d.fresh ∧ (recordSlot v d).mem = d.mem ∧ (recordSlot v d).frame = d.frame ∧ (recordSlot v d).port = d.port ∧ (recordSlot v d).win = d.win ∧ (recordSlot v d).cnt = d.cnt ∧ (recordSlot v d).pwr = d.pwr ∧ (recordSlot v d).mgt = d.mgt ∧ (recordSlot v d).boot = d.boot ∧ (recordSlot v d).alm = d.alm ∧ (recordSlot v d).par = d.par ∧ (recordSlot v d).aud = d.aud ∧ (recordSlot v d).cal = d.cal ∧ (recordSlot v d).mix = d.mix ∧ (recordSlot v d).outs = d.outs ∧ (recordSlot v d).tdm = d.tdm ∧ (recordSlot v d).ser = d.ser := by
  simp -implicitDefEqProofs [recordSlot]

@[simp] theorem armOwn_keeps (v : Nat) (taken : Bool) (x : Voice) (d : Dev) :
    (armOwn v taken x d).fresh = d.fresh ∧ (armOwn v taken x d).frame = d.frame ∧ (armOwn v taken x d).win = d.win ∧ (armOwn v taken x d).pwr = d.pwr ∧ (armOwn v taken x d).mgt = d.mgt ∧ (armOwn v taken x d).boot = d.boot ∧ (armOwn v taken x d).alm = d.alm ∧ (armOwn v taken x d).mix = d.mix ∧ (armOwn v taken x d).outs = d.outs ∧ (armOwn v taken x d).tdm = d.tdm ∧ (armOwn v taken x d).ser = d.ser ∧ (armOwn v taken x d).cas = d.cas := by
  simp -implicitDefEqProofs [armOwn]

@[simp] theorem levelUnknown_keeps (v : Nat) (d : Dev) :
    (levelUnknown v d).regs = d.regs ∧ (levelUnknown v d).fresh = d.fresh ∧ (levelUnknown v d).mem = d.mem ∧ (levelUnknown v d).frame = d.frame ∧ (levelUnknown v d).port = d.port ∧ (levelUnknown v d).win = d.win ∧ (levelUnknown v d).cnt = d.cnt ∧ (levelUnknown v d).pwr = d.pwr ∧ (levelUnknown v d).mgt = d.mgt ∧ (levelUnknown v d).boot = d.boot ∧ (levelUnknown v d).alm = d.alm ∧ (levelUnknown v d).par = d.par ∧ (levelUnknown v d).aud = d.aud ∧ (levelUnknown v d).cal = d.cal ∧ (levelUnknown v d).mix = d.mix ∧ (levelUnknown v d).outs = d.outs ∧ (levelUnknown v d).tdm = d.tdm ∧ (levelUnknown v d).ser = d.ser := by
  simp -implicitDefEqProofs [levelUnknown]

@[simp] theorem armSlot_keeps (v : Nat) (k : NewVoice) (d : Dev) :
    (armSlot v k d).fresh = d.fresh ∧ (armSlot v k d).frame = d.frame ∧ (armSlot v k d).win = d.win ∧ (armSlot v k d).pwr = d.pwr ∧ (armSlot v k d).mgt = d.mgt ∧ (armSlot v k d).boot = d.boot ∧ (armSlot v k d).alm = d.alm ∧ (armSlot v k d).mix = d.mix ∧ (armSlot v k d).outs = d.outs ∧ (armSlot v k d).tdm = d.tdm ∧ (armSlot v k d).ser = d.ser := by
  simp -implicitDefEqProofs [armSlot]

@[simp] theorem cutVoice_keeps (v : Nat) (d : Dev) :
    (cutVoice v d).fresh = d.fresh ∧ (cutVoice v d).mem = d.mem ∧ (cutVoice v d).frame = d.frame ∧ (cutVoice v d).port = d.port ∧ (cutVoice v d).win = d.win ∧ (cutVoice v d).pwr = d.pwr ∧ (cutVoice v d).mgt = d.mgt ∧ (cutVoice v d).boot = d.boot ∧ (cutVoice v d).alm = d.alm ∧ (cutVoice v d).par = d.par ∧ (cutVoice v d).cal = d.cal ∧ (cutVoice v d).mix = d.mix ∧ (cutVoice v d).outs = d.outs ∧ (cutVoice v d).tdm = d.tdm ∧ (cutVoice v d).ser = d.ser := by
  refine ⟨?_, ?_, ?_, ?_, ?_, ?_, ?_, ?_, ?_, ?_, ?_, ?_, ?_, ?_, ?_⟩ <;> (simp only [cutVoice]; repeat' split) <;> simp_all -implicitDefEqProofs

@[simp] theorem seatVoice_keeps (v : Nat) (k : NewVoice) (d : Dev) :
    (seatVoice v k d).fresh = d.fresh ∧ (seatVoice v k d).frame = d.frame ∧ (seatVoice v k d).win = d.win ∧ (seatVoice v k d).pwr = d.pwr ∧ (seatVoice v k d).mgt = d.mgt ∧ (seatVoice v k d).boot = d.boot ∧ (seatVoice v k d).alm = d.alm ∧ (seatVoice v k d).mix = d.mix ∧ (seatVoice v k d).outs = d.outs ∧ (seatVoice v k d).tdm = d.tdm ∧ (seatVoice v k d).ser = d.ser := by
  simp -implicitDefEqProofs [seatVoice]

@[simp] theorem placeVoice_keeps (idx : Option Nat) (chosen : List Nat) (k : NewVoice) (d : Dev) :
    (placeVoice idx chosen k d).1.fresh = d.fresh ∧ (placeVoice idx chosen k d).1.frame = d.frame ∧ (placeVoice idx chosen k d).1.win = d.win ∧ (placeVoice idx chosen k d).1.pwr = d.pwr ∧ (placeVoice idx chosen k d).1.mgt = d.mgt ∧ (placeVoice idx chosen k d).1.boot = d.boot ∧ (placeVoice idx chosen k d).1.alm = d.alm ∧ (placeVoice idx chosen k d).1.mix = d.mix ∧ (placeVoice idx chosen k d).1.outs = d.outs ∧ (placeVoice idx chosen k d).1.tdm = d.tdm ∧ (placeVoice idx chosen k d).1.ser = d.ser := by
  unfold placeVoice; refine ⟨?_, ?_, ?_, ?_, ?_, ?_, ?_, ?_, ?_, ?_, ?_⟩ <;> (repeat' split) <;> simp -implicitDefEqProofs

@[simp] theorem placeVoices_fresh (idx : Option Nat) (k : NewVoice) (l : List Nat) (x : Dev × List Nat) :
    (placeVoices idx k l x).1.fresh = x.1.fresh := by
  induction l generalizing x with
  | nil => rfl
  | cons a r ih => unfold placeVoices; (repeat' split) <;> simp [ih]

@[simp] theorem placeVoices_frame (idx : Option Nat) (k : NewVoice) (l : List Nat) (x : Dev × List Nat) :
    (placeVoices idx k l x).1.frame = x.1.frame := by
  induction l generalizing x with
  | nil => rfl
  | cons a r ih => unfold placeVoices; (repeat' split) <;> simp [ih]

@[simp] theorem placeVoices_win (idx : Option Nat) (k : NewVoice) (l : List Nat) (x : Dev × List Nat) :
    (placeVoices idx k l x).1.win = x.1.win := by
  induction l generalizing x with
  | nil => rfl
  | cons a r ih => unfold placeVoices; (repeat' split) <;> simp [ih]

@[simp] theorem placeVoices_pwr (idx : Option Nat) (k : NewVoice) (l : List Nat) (x : Dev × List Nat) :
    (placeVoices idx k l x).1.pwr = x.1.pwr := by
  induction l generalizing x with
  | nil => rfl
  | cons a r ih => unfold placeVoices; (repeat' split) <;> simp [ih]

@[simp] theorem placeVoices_mgt (idx : Option Nat) (k : NewVoice) (l : List Nat) (x : Dev × List Nat) :
    (placeVoices idx k l x).1.mgt = x.1.mgt := by
  induction l generalizing x with
  | nil => rfl
  | cons a r ih => unfold placeVoices; (repeat' split) <;> simp [ih]

@[simp] theorem placeVoices_boot (idx : Option Nat) (k : NewVoice) (l : List Nat) (x : Dev × List Nat) :
    (placeVoices idx k l x).1.boot = x.1.boot := by
  induction l generalizing x with
  | nil => rfl
  | cons a r ih => unfold placeVoices; (repeat' split) <;> simp [ih]

@[simp] theorem placeVoices_alm (idx : Option Nat) (k : NewVoice) (l : List Nat) (x : Dev × List Nat) :
    (placeVoices idx k l x).1.alm = x.1.alm := by
  induction l generalizing x with
  | nil => rfl
  | cons a r ih => unfold placeVoices; (repeat' split) <;> simp [ih]

@[simp] theorem placeVoices_mix (idx : Option Nat) (k : NewVoice) (l : List Nat) (x : Dev × List Nat) :
    (placeVoices idx k l x).1.mix = x.1.mix := by
  induction l generalizing x with
  | nil => rfl
  | cons a r ih => unfold placeVoices; (repeat' split) <;> simp [ih]

@[simp] theorem placeVoices_outs (idx : Option Nat) (k : NewVoice) (l : List Nat) (x : Dev × List Nat) :
    (placeVoices idx k l x).1.outs = x.1.outs := by
  induction l generalizing x with
  | nil => rfl
  | cons a r ih => unfold placeVoices; (repeat' split) <;> simp [ih]

@[simp] theorem placeVoices_tdm (idx : Option Nat) (k : NewVoice) (l : List Nat) (x : Dev × List Nat) :
    (placeVoices idx k l x).1.tdm = x.1.tdm := by
  induction l generalizing x with
  | nil => rfl
  | cons a r ih => unfold placeVoices; (repeat' split) <;> simp [ih]

@[simp] theorem placeVoices_ser (idx : Option Nat) (k : NewVoice) (l : List Nat) (x : Dev × List Nat) :
    (placeVoices idx k l x).1.ser = x.1.ser := by
  induction l generalizing x with
  | nil => rfl
  | cons a r ih => unfold placeVoices; (repeat' split) <;> simp [ih]

@[simp] theorem dropNote_keeps (d : Dev) :
    (dropNote d).fresh = d.fresh ∧ (dropNote d).mem = d.mem ∧ (dropNote d).frame = d.frame ∧ (dropNote d).port = d.port ∧ (dropNote d).win = d.win ∧ (dropNote d).pwr = d.pwr ∧ (dropNote d).mgt = d.mgt ∧ (dropNote d).boot = d.boot ∧ (dropNote d).alm = d.alm ∧ (dropNote d).par = d.par ∧ (dropNote d).aud = d.aud ∧ (dropNote d).cal = d.cal ∧ (dropNote d).mix = d.mix ∧ (dropNote d).outs = d.outs ∧ (dropNote d).tdm = d.tdm ∧ (dropNote d).ser = d.ser ∧ (dropNote d).cas = d.cas := by
  refine ⟨?_, ?_, ?_, ?_, ?_, ?_, ?_, ?_, ?_, ?_, ?_, ?_, ?_, ?_, ?_, ?_, ?_⟩ <;> (simp only [dropNote]; repeat' split) <;> simp_all -implicitDefEqProofs

@[simp] theorem stealVoice_keeps (v : Nat) (d : Dev) :
    (stealVoice v d).fresh = d.fresh ∧ (stealVoice v d).frame = d.frame ∧ (stealVoice v d).win = d.win ∧ (stealVoice v d).pwr = d.pwr ∧ (stealVoice v d).mgt = d.mgt ∧ (stealVoice v d).boot = d.boot ∧ (stealVoice v d).alm = d.alm ∧ (stealVoice v d).aud = d.aud ∧ (stealVoice v d).cal = d.cal ∧ (stealVoice v d).mix = d.mix ∧ (stealVoice v d).outs = d.outs ∧ (stealVoice v d).tdm = d.tdm ∧ (stealVoice v d).ser = d.ser := by
  refine ⟨?_, ?_, ?_, ?_, ?_, ?_, ?_, ?_, ?_, ?_, ?_, ?_, ?_⟩ <;> (simp only [stealVoice]; repeat' split) <;> simp_all -implicitDefEqProofs

@[simp] theorem placePart_keeps (p : Nat) (note : Note) (chosen : List Nat) (d : Dev) :
    (placePart p note chosen d).1.fresh = d.fresh ∧ (placePart p note chosen d).1.frame = d.frame ∧ (placePart p note chosen d).1.win = d.win ∧ (placePart p note chosen d).1.pwr = d.pwr ∧ (placePart p note chosen d).1.mgt = d.mgt ∧ (placePart p note chosen d).1.boot = d.boot ∧ (placePart p note chosen d).1.alm = d.alm ∧ (placePart p note chosen d).1.mix = d.mix ∧ (placePart p note chosen d).1.outs = d.outs ∧ (placePart p note chosen d).1.tdm = d.tdm ∧ (placePart p note chosen d).1.ser = d.ser := by
  refine ⟨?_, ?_, ?_, ?_, ?_, ?_, ?_, ?_, ?_, ?_, ?_⟩ <;> (unfold placePart; dsimp only; repeat' split) <;> simp -implicitDefEqProofs

@[simp] theorem modStack_keeps (p : Nat) (f : List Nat → List Nat) (d : Dev) :
    (modStack p f d).regs = d.regs ∧ (modStack p f d).fresh = d.fresh ∧ (modStack p f d).mem = d.mem ∧ (modStack p f d).frame = d.frame ∧ (modStack p f d).port = d.port ∧ (modStack p f d).win = d.win ∧ (modStack p f d).cnt = d.cnt ∧ (modStack p f d).pwr = d.pwr ∧ (modStack p f d).mgt = d.mgt ∧ (modStack p f d).boot = d.boot ∧ (modStack p f d).alm = d.alm ∧ (modStack p f d).aud = d.aud ∧ (modStack p f d).cal = d.cal ∧ (modStack p f d).mix = d.mix ∧ (modStack p f d).outs = d.outs ∧ (modStack p f d).tdm = d.tdm ∧ (modStack p f d).ser = d.ser ∧ (modStack p f d).cas = d.cas := by
  simp -implicitDefEqProofs [modStack]

@[simp] theorem reuseVoice_keeps (v key : Nat) (mono restart glide : Bool) (d : Dev) :
    (reuseVoice v key mono restart glide d).frame = d.frame ∧ (reuseVoice v key mono restart glide d).win = d.win ∧ (reuseVoice v key mono restart glide d).pwr = d.pwr ∧ (reuseVoice v key mono restart glide d).mgt = d.mgt ∧ (reuseVoice v key mono restart glide d).boot = d.boot ∧ (reuseVoice v key mono restart glide d).alm = d.alm ∧ (reuseVoice v key mono restart glide d).cal = d.cal ∧ (reuseVoice v key mono restart glide d).mix = d.mix ∧ (reuseVoice v key mono restart glide d).outs = d.outs ∧ (reuseVoice v key mono restart glide d).tdm = d.tdm ∧ (reuseVoice v key mono restart glide d).ser = d.ser := by
  simp -implicitDefEqProofs [reuseVoice]

@[simp] theorem reusePart_keeps (p : Nat) (note : Note) (vs : List Nat) (d : Dev) :
    (reusePart p note vs d).frame = d.frame ∧ (reusePart p note vs d).win = d.win ∧ (reusePart p note vs d).pwr = d.pwr ∧ (reusePart p note vs d).mgt = d.mgt ∧ (reusePart p note vs d).boot = d.boot ∧ (reusePart p note vs d).alm = d.alm ∧ (reusePart p note vs d).cal = d.cal ∧ (reusePart p note vs d).mix = d.mix ∧ (reusePart p note vs d).outs = d.outs ∧ (reusePart p note vs d).tdm = d.tdm ∧ (reusePart p note vs d).ser = d.ser := by
  simp -implicitDefEqProofs [reusePart]

@[simp] theorem playPart_frame (p : Nat) (note : Note) (x : Dev × List Nat) :
    (playPart p note x).1.frame = x.1.frame := by
  unfold playPart; dsimp only; (repeat' split) <;> first | rfl | simp

@[simp] theorem playPart_win (p : Nat) (note : Note) (x : Dev × List Nat) :
    (playPart p note x).1.win = x.1.win := by
  unfold playPart; dsimp only; (repeat' split) <;> first | rfl | simp

@[simp] theorem playPart_pwr (p : Nat) (note : Note) (x : Dev × List Nat) :
    (playPart p note x).1.pwr = x.1.pwr := by
  unfold playPart; dsimp only; (repeat' split) <;> first | rfl | simp

@[simp] theorem playPart_mgt (p : Nat) (note : Note) (x : Dev × List Nat) :
    (playPart p note x).1.mgt = x.1.mgt := by
  unfold playPart; dsimp only; (repeat' split) <;> first | rfl | simp

@[simp] theorem playPart_boot (p : Nat) (note : Note) (x : Dev × List Nat) :
    (playPart p note x).1.boot = x.1.boot := by
  unfold playPart; dsimp only; (repeat' split) <;> first | rfl | simp

@[simp] theorem playPart_alm (p : Nat) (note : Note) (x : Dev × List Nat) :
    (playPart p note x).1.alm = x.1.alm := by
  unfold playPart; dsimp only; (repeat' split) <;> first | rfl | simp

@[simp] theorem playPart_mix (p : Nat) (note : Note) (x : Dev × List Nat) :
    (playPart p note x).1.mix = x.1.mix := by
  unfold playPart; dsimp only; (repeat' split) <;> first | rfl | simp

@[simp] theorem playPart_outs (p : Nat) (note : Note) (x : Dev × List Nat) :
    (playPart p note x).1.outs = x.1.outs := by
  unfold playPart; dsimp only; (repeat' split) <;> first | rfl | simp

@[simp] theorem playPart_tdm (p : Nat) (note : Note) (x : Dev × List Nat) :
    (playPart p note x).1.tdm = x.1.tdm := by
  unfold playPart; dsimp only; (repeat' split) <;> first | rfl | simp

@[simp] theorem playPart_ser (p : Nat) (note : Note) (x : Dev × List Nat) :
    (playPart p note x).1.ser = x.1.ser := by
  unfold playPart; dsimp only; (repeat' split) <;> first | rfl | simp

@[simp] theorem noteOffPart_keeps (p chan key rel : Nat) (d : Dev) :
    (noteOffPart p chan key rel d).frame = d.frame ∧ (noteOffPart p chan key rel d).win = d.win ∧ (noteOffPart p chan key rel d).pwr = d.pwr ∧ (noteOffPart p chan key rel d).mgt = d.mgt ∧ (noteOffPart p chan key rel d).boot = d.boot ∧ (noteOffPart p chan key rel d).alm = d.alm ∧ (noteOffPart p chan key rel d).cal = d.cal ∧ (noteOffPart p chan key rel d).mix = d.mix ∧ (noteOffPart p chan key rel d).outs = d.outs ∧ (noteOffPart p chan key rel d).tdm = d.tdm ∧ (noteOffPart p chan key rel d).ser = d.ser := by
  refine ⟨?_, ?_, ?_, ?_, ?_, ?_, ?_, ?_, ?_, ?_, ?_⟩ <;> (unfold noteOffPart; dsimp only; repeat' split) <;> simp -implicitDefEqProofs

@[simp] theorem playNote_frame (ps : List Nat) (note : Note) (chosen : List Nat) (d : Dev) : (playNote ps note chosen d).frame = d.frame := by
  unfold playNote
  refine foldl_keeps (fun x : (Dev × List Nat) × List Nat => x.1.1.frame) _ (fun x p => ?_) _ _
  dsimp only; (repeat' split) <;> simp

@[simp] theorem playNote_win (ps : List Nat) (note : Note) (chosen : List Nat) (d : Dev) : (playNote ps note chosen d).win = d.win := by
  unfold playNote
  refine foldl_keeps (fun x : (Dev × List Nat) × List Nat => x.1.1.win) _ (fun x p => ?_) _ _
  dsimp only; (repeat' split) <;> simp

@[simp] theorem playNote_pwr (ps : List Nat) (note : Note) (chosen : List Nat) (d : Dev) : (playNote ps note chosen d).pwr = d.pwr := by
  unfold playNote
  refine foldl_keeps (fun x : (Dev × List Nat) × List Nat => x.1.1.pwr) _ (fun x p => ?_) _ _
  dsimp only; (repeat' split) <;> simp

@[simp] theorem playNote_mgt (ps : List Nat) (note : Note) (chosen : List Nat) (d : Dev) : (playNote ps note chosen d).mgt = d.mgt := by
  unfold playNote
  refine foldl_keeps (fun x : (Dev × List Nat) × List Nat => x.1.1.mgt) _ (fun x p => ?_) _ _
  dsimp only; (repeat' split) <;> simp

@[simp] theorem playNote_boot (ps : List Nat) (note : Note) (chosen : List Nat) (d : Dev) : (playNote ps note chosen d).boot = d.boot := by
  unfold playNote
  refine foldl_keeps (fun x : (Dev × List Nat) × List Nat => x.1.1.boot) _ (fun x p => ?_) _ _
  dsimp only; (repeat' split) <;> simp

@[simp] theorem playNote_alm (ps : List Nat) (note : Note) (chosen : List Nat) (d : Dev) : (playNote ps note chosen d).alm = d.alm := by
  unfold playNote
  refine foldl_keeps (fun x : (Dev × List Nat) × List Nat => x.1.1.alm) _ (fun x p => ?_) _ _
  dsimp only; (repeat' split) <;> simp

@[simp] theorem playNote_mix (ps : List Nat) (note : Note) (chosen : List Nat) (d : Dev) : (playNote ps note chosen d).mix = d.mix := by
  unfold playNote
  refine foldl_keeps (fun x : (Dev × List Nat) × List Nat => x.1.1.mix) _ (fun x p => ?_) _ _
  dsimp only; (repeat' split) <;> simp

@[simp] theorem playNote_outs (ps : List Nat) (note : Note) (chosen : List Nat) (d : Dev) : (playNote ps note chosen d).outs = d.outs := by
  unfold playNote
  refine foldl_keeps (fun x : (Dev × List Nat) × List Nat => x.1.1.outs) _ (fun x p => ?_) _ _
  dsimp only; (repeat' split) <;> simp

@[simp] theorem playNote_tdm (ps : List Nat) (note : Note) (chosen : List Nat) (d : Dev) : (playNote ps note chosen d).tdm = d.tdm := by
  unfold playNote
  refine foldl_keeps (fun x : (Dev × List Nat) × List Nat => x.1.1.tdm) _ (fun x p => ?_) _ _
  dsimp only; (repeat' split) <;> simp

@[simp] theorem playNote_ser (ps : List Nat) (note : Note) (chosen : List Nat) (d : Dev) : (playNote ps note chosen d).ser = d.ser := by
  unfold playNote
  refine foldl_keeps (fun x : (Dev × List Nat) × List Nat => x.1.1.ser) _ (fun x p => ?_) _ _
  dsimp only; (repeat' split) <;> simp

@[simp] theorem armNote_keeps (note : Note) (pay : List Byte) (chosen : List Nat) (d : Dev) :
    (armNote note pay chosen d).1.frame = d.frame ∧ (armNote note pay chosen d).1.win = d.win ∧ (armNote note pay chosen d).1.pwr = d.pwr ∧ (armNote note pay chosen d).1.mgt = d.mgt ∧ (armNote note pay chosen d).1.boot = d.boot ∧ (armNote note pay chosen d).1.alm = d.alm ∧ (armNote note pay chosen d).1.mix = d.mix ∧ (armNote note pay chosen d).1.outs = d.outs ∧ (armNote note pay chosen d).1.tdm = d.tdm ∧ (armNote note pay chosen d).1.ser = d.ser := by
  refine ⟨?_, ?_, ?_, ?_, ?_, ?_, ?_, ?_, ?_, ?_⟩ <;> (unfold armNote; dsimp only; repeat' split) <;> simp -implicitDefEqProofs

@[simp] theorem countDefer_keeps (n : Nat) (d : Dev) :
    (countDefer n d).fresh = d.fresh ∧ (countDefer n d).mem = d.mem ∧ (countDefer n d).frame = d.frame ∧ (countDefer n d).port = d.port ∧ (countDefer n d).win = d.win ∧ (countDefer n d).pwr = d.pwr ∧ (countDefer n d).mgt = d.mgt ∧ (countDefer n d).boot = d.boot ∧ (countDefer n d).alm = d.alm ∧ (countDefer n d).par = d.par ∧ (countDefer n d).aud = d.aud ∧ (countDefer n d).cal = d.cal ∧ (countDefer n d).mix = d.mix ∧ (countDefer n d).outs = d.outs ∧ (countDefer n d).tdm = d.tdm ∧ (countDefer n d).ser = d.ser ∧ (countDefer n d).cas = d.cas := by
  refine ⟨?_, ?_, ?_, ?_, ?_, ?_, ?_, ?_, ?_, ?_, ?_, ?_, ?_, ?_, ?_, ?_, ?_⟩ <;> (simp only [countDefer]; repeat' split) <;> simp_all -implicitDefEqProofs

@[simp] theorem deferNote_keeps (t : Task) (d : Dev) :
    (deferNote t d).fresh = d.fresh ∧ (deferNote t d).mem = d.mem ∧ (deferNote t d).frame = d.frame ∧ (deferNote t d).port = d.port ∧ (deferNote t d).win = d.win ∧ (deferNote t d).pwr = d.pwr ∧ (deferNote t d).mgt = d.mgt ∧ (deferNote t d).boot = d.boot ∧ (deferNote t d).alm = d.alm ∧ (deferNote t d).aud = d.aud ∧ (deferNote t d).cal = d.cal ∧ (deferNote t d).mix = d.mix ∧ (deferNote t d).outs = d.outs ∧ (deferNote t d).tdm = d.tdm ∧ (deferNote t d).ser = d.ser ∧ (deferNote t d).cas = d.cas := by
  simp -implicitDefEqProofs [deferNote]

@[simp] theorem noteStatus_keeps (deferred : Bool) (pay : List Byte) (d : Dev) :
    (noteStatus deferred pay d).1.fresh = d.fresh ∧ (noteStatus deferred pay d).1.frame = d.frame ∧ (noteStatus deferred pay d).1.win = d.win ∧ (noteStatus deferred pay d).1.cnt = d.cnt ∧ (noteStatus deferred pay d).1.pwr = d.pwr ∧ (noteStatus deferred pay d).1.mgt = d.mgt ∧ (noteStatus deferred pay d).1.boot = d.boot ∧ (noteStatus deferred pay d).1.alm = d.alm ∧ (noteStatus deferred pay d).1.par = d.par ∧ (noteStatus deferred pay d).1.aud = d.aud ∧ (noteStatus deferred pay d).1.cal = d.cal ∧ (noteStatus deferred pay d).1.mix = d.mix ∧ (noteStatus deferred pay d).1.outs = d.outs ∧ (noteStatus deferred pay d).1.tdm = d.tdm ∧ (noteStatus deferred pay d).1.ser = d.ser ∧ (noteStatus deferred pay d).1.cas = d.cas := by
  refine ⟨?_, ?_, ?_, ?_, ?_, ?_, ?_, ?_, ?_, ?_, ?_, ?_, ?_, ?_, ?_, ?_⟩ <;> (unfold noteStatus; dsimp only; repeat' split) <;> simp -implicitDefEqProofs

@[simp] theorem armDeferredOne_keeps (d : Dev) :
    (armDeferredOne d).1.frame = d.frame ∧ (armDeferredOne d).1.win = d.win ∧ (armDeferredOne d).1.pwr = d.pwr ∧ (armDeferredOne d).1.mgt = d.mgt ∧ (armDeferredOne d).1.boot = d.boot ∧ (armDeferredOne d).1.alm = d.alm ∧ (armDeferredOne d).1.mix = d.mix ∧ (armDeferredOne d).1.outs = d.outs ∧ (armDeferredOne d).1.tdm = d.tdm ∧ (armDeferredOne d).1.ser = d.ser := by
  refine ⟨?_, ?_, ?_, ?_, ?_, ?_, ?_, ?_, ?_, ?_⟩ <;> (unfold armDeferredOne; dsimp only; repeat' split) <;> simp -implicitDefEqProofs

@[simp] theorem armDeferred_frame (n : Nat) (d : Dev) : (armDeferred n d).frame = d.frame := by
  induction n generalizing d with
  | zero => rfl
  | succ n ih => unfold armDeferred; (repeat' split) <;> simp [ih]

@[simp] theorem armDeferred_win (n : Nat) (d : Dev) : (armDeferred n d).win = d.win := by
  induction n generalizing d with
  | zero => rfl
  | succ n ih => unfold armDeferred; (repeat' split) <;> simp [ih]

@[simp] theorem armDeferred_pwr (n : Nat) (d : Dev) : (armDeferred n d).pwr = d.pwr := by
  induction n generalizing d with
  | zero => rfl
  | succ n ih => unfold armDeferred; (repeat' split) <;> simp [ih]

@[simp] theorem armDeferred_mgt (n : Nat) (d : Dev) : (armDeferred n d).mgt = d.mgt := by
  induction n generalizing d with
  | zero => rfl
  | succ n ih => unfold armDeferred; (repeat' split) <;> simp [ih]

@[simp] theorem armDeferred_boot (n : Nat) (d : Dev) : (armDeferred n d).boot = d.boot := by
  induction n generalizing d with
  | zero => rfl
  | succ n ih => unfold armDeferred; (repeat' split) <;> simp [ih]

@[simp] theorem armDeferred_alm (n : Nat) (d : Dev) : (armDeferred n d).alm = d.alm := by
  induction n generalizing d with
  | zero => rfl
  | succ n ih => unfold armDeferred; (repeat' split) <;> simp [ih]

@[simp] theorem armDeferred_mix (n : Nat) (d : Dev) : (armDeferred n d).mix = d.mix := by
  induction n generalizing d with
  | zero => rfl
  | succ n ih => unfold armDeferred; (repeat' split) <;> simp [ih]

@[simp] theorem armDeferred_outs (n : Nat) (d : Dev) : (armDeferred n d).outs = d.outs := by
  induction n generalizing d with
  | zero => rfl
  | succ n ih => unfold armDeferred; (repeat' split) <;> simp [ih]

@[simp] theorem armDeferred_tdm (n : Nat) (d : Dev) : (armDeferred n d).tdm = d.tdm := by
  induction n generalizing d with
  | zero => rfl
  | succ n ih => unfold armDeferred; (repeat' split) <;> simp [ih]

@[simp] theorem armDeferred_ser (n : Nat) (d : Dev) : (armDeferred n d).ser = d.ser := by
  induction n generalizing d with
  | zero => rfl
  | succ n ih => unfold armDeferred; (repeat' split) <;> simp [ih]

@[simp] theorem deferredFirst_keeps (d : Dev) :
    (deferredFirst d).frame = d.frame ∧ (deferredFirst d).win = d.win ∧ (deferredFirst d).pwr = d.pwr ∧ (deferredFirst d).mgt = d.mgt ∧ (deferredFirst d).boot = d.boot ∧ (deferredFirst d).alm = d.alm ∧ (deferredFirst d).mix = d.mix ∧ (deferredFirst d).outs = d.outs ∧ (deferredFirst d).tdm = d.tdm ∧ (deferredFirst d).ser = d.ser := by
  simp -implicitDefEqProofs [deferredFirst]

@[simp] theorem commitWith_frame (i : Nat) (kind : Task → Bool) (f : Task → Dev → Dev × Nat) (d : Dev)
    (h : ∀ t e, (f t e).1.frame = e.frame) : (commitWith i kind f d).frame = d.frame := by
  unfold commitWith; split <;> simp [h]

@[simp] theorem commitWith_win (i : Nat) (kind : Task → Bool) (f : Task → Dev → Dev × Nat) (d : Dev)
    (h : ∀ t e, (f t e).1.win = e.win) : (commitWith i kind f d).win = d.win := by
  unfold commitWith; split <;> simp [h]

@[simp] theorem commitWith_pwr (i : Nat) (kind : Task → Bool) (f : Task → Dev → Dev × Nat) (d : Dev)
    (h : ∀ t e, (f t e).1.pwr = e.pwr) : (commitWith i kind f d).pwr = d.pwr := by
  unfold commitWith; split <;> simp [h]

@[simp] theorem commitWith_mgt (i : Nat) (kind : Task → Bool) (f : Task → Dev → Dev × Nat) (d : Dev)
    (h : ∀ t e, (f t e).1.mgt = e.mgt) : (commitWith i kind f d).mgt = d.mgt := by
  unfold commitWith; split <;> simp [h]

@[simp] theorem commitWith_boot (i : Nat) (kind : Task → Bool) (f : Task → Dev → Dev × Nat) (d : Dev)
    (h : ∀ t e, (f t e).1.boot = e.boot) : (commitWith i kind f d).boot = d.boot := by
  unfold commitWith; split <;> simp [h]

@[simp] theorem commitWith_mix (i : Nat) (kind : Task → Bool) (f : Task → Dev → Dev × Nat) (d : Dev)
    (h : ∀ t e, (f t e).1.mix = e.mix) : (commitWith i kind f d).mix = d.mix := by
  unfold commitWith; split <;> simp [h]

@[simp] theorem commitWith_outs (i : Nat) (kind : Task → Bool) (f : Task → Dev → Dev × Nat) (d : Dev)
    (h : ∀ t e, (f t e).1.outs = e.outs) : (commitWith i kind f d).outs = d.outs := by
  unfold commitWith; split <;> simp [h]

@[simp] theorem commitWith_tdm (i : Nat) (kind : Task → Bool) (f : Task → Dev → Dev × Nat) (d : Dev)
    (h : ∀ t e, (f t e).1.tdm = e.tdm) : (commitWith i kind f d).tdm = d.tdm := by
  unfold commitWith; split <;> simp [h]

@[simp] theorem commitWith_ser (i : Nat) (kind : Task → Bool) (f : Task → Dev → Dev × Nat) (d : Dev)
    (h : ∀ t e, (f t e).1.ser = e.ser) : (commitWith i kind f d).ser = d.ser := by
  unfold commitWith; split <;> simp [h]

@[simp] theorem deferredNoteArmDev_keeps (d : Dev) :
    (deferredNoteArmDev d).frame = d.frame ∧ (deferredNoteArmDev d).win = d.win ∧ (deferredNoteArmDev d).pwr = d.pwr ∧ (deferredNoteArmDev d).mgt = d.mgt ∧ (deferredNoteArmDev d).boot = d.boot ∧ (deferredNoteArmDev d).alm = d.alm ∧ (deferredNoteArmDev d).mix = d.mix ∧ (deferredNoteArmDev d).outs = d.outs ∧ (deferredNoteArmDev d).tdm = d.tdm ∧ (deferredNoteArmDev d).ser = d.ser := by
  simp -implicitDefEqProofs [deferredNoteArmDev]

@[simp] theorem noteOnCommit_keeps (t : Task) (d : Dev) :
    (noteOnCommit t d).1.frame = d.frame ∧ (noteOnCommit t d).1.win = d.win ∧ (noteOnCommit t d).1.pwr = d.pwr ∧ (noteOnCommit t d).1.mgt = d.mgt ∧ (noteOnCommit t d).1.boot = d.boot ∧ (noteOnCommit t d).1.alm = d.alm ∧ (noteOnCommit t d).1.mix = d.mix ∧ (noteOnCommit t d).1.outs = d.outs ∧ (noteOnCommit t d).1.tdm = d.tdm ∧ (noteOnCommit t d).1.ser = d.ser := by
  refine ⟨?_, ?_, ?_, ?_, ?_, ?_, ?_, ?_, ?_, ?_⟩ <;> (unfold noteOnCommit; dsimp only; repeat' split) <;> simp -implicitDefEqProofs

@[simp] theorem noteOnDev_keeps (i : Nat) (d : Dev) :
    (noteOnDev i d).frame = d.frame ∧ (noteOnDev i d).win = d.win ∧ (noteOnDev i d).pwr = d.pwr ∧ (noteOnDev i d).mgt = d.mgt ∧ (noteOnDev i d).boot = d.boot ∧ (noteOnDev i d).mix = d.mix ∧ (noteOnDev i d).outs = d.outs ∧ (noteOnDev i d).tdm = d.tdm ∧ (noteOnDev i d).ser = d.ser := by
  simp -implicitDefEqProofs [noteOnDev]

@[simp] theorem chooseFor_keeps (t : Task) (d : Dev) :
    (chooseFor t d).fresh = d.fresh ∧ (chooseFor t d).frame = d.frame ∧ (chooseFor t d).win = d.win ∧ (chooseFor t d).pwr = d.pwr ∧ (chooseFor t d).mgt = d.mgt ∧ (chooseFor t d).boot = d.boot ∧ (chooseFor t d).aud = d.aud ∧ (chooseFor t d).mix = d.mix ∧ (chooseFor t d).outs = d.outs ∧ (chooseFor t d).tdm = d.tdm ∧ (chooseFor t d).ser = d.ser ∧ (chooseFor t d).cas = d.cas := by
  simp -implicitDefEqProofs [chooseFor]

@[simp] theorem chooseRelease_fresh (d : Dev) : (chooseRelease d).fresh = d.fresh := by
  unfold chooseRelease
  refine foldl_keeps (fun x : Dev × List Task => x.1.fresh) _ (fun x p => ?_) _ _
  split <;> simp

@[simp] theorem chooseRelease_frame (d : Dev) : (chooseRelease d).frame = d.frame := by
  unfold chooseRelease
  refine foldl_keeps (fun x : Dev × List Task => x.1.frame) _ (fun x p => ?_) _ _
  split <;> simp

@[simp] theorem chooseRelease_win (d : Dev) : (chooseRelease d).win = d.win := by
  unfold chooseRelease
  refine foldl_keeps (fun x : Dev × List Task => x.1.win) _ (fun x p => ?_) _ _
  split <;> simp

@[simp] theorem chooseRelease_pwr (d : Dev) : (chooseRelease d).pwr = d.pwr := by
  unfold chooseRelease
  refine foldl_keeps (fun x : Dev × List Task => x.1.pwr) _ (fun x p => ?_) _ _
  split <;> simp

@[simp] theorem chooseRelease_mgt (d : Dev) : (chooseRelease d).mgt = d.mgt := by
  unfold chooseRelease
  refine foldl_keeps (fun x : Dev × List Task => x.1.mgt) _ (fun x p => ?_) _ _
  split <;> simp

@[simp] theorem chooseRelease_boot (d : Dev) : (chooseRelease d).boot = d.boot := by
  unfold chooseRelease
  refine foldl_keeps (fun x : Dev × List Task => x.1.boot) _ (fun x p => ?_) _ _
  split <;> simp

@[simp] theorem chooseRelease_aud (d : Dev) : (chooseRelease d).aud = d.aud := by
  unfold chooseRelease
  refine foldl_keeps (fun x : Dev × List Task => x.1.aud) _ (fun x p => ?_) _ _
  split <;> simp

@[simp] theorem chooseRelease_mix (d : Dev) : (chooseRelease d).mix = d.mix := by
  unfold chooseRelease
  refine foldl_keeps (fun x : Dev × List Task => x.1.mix) _ (fun x p => ?_) _ _
  split <;> simp

@[simp] theorem chooseRelease_outs (d : Dev) : (chooseRelease d).outs = d.outs := by
  unfold chooseRelease
  refine foldl_keeps (fun x : Dev × List Task => x.1.outs) _ (fun x p => ?_) _ _
  split <;> simp

@[simp] theorem chooseRelease_tdm (d : Dev) : (chooseRelease d).tdm = d.tdm := by
  unfold chooseRelease
  refine foldl_keeps (fun x : Dev × List Task => x.1.tdm) _ (fun x p => ?_) _ _
  split <;> simp

@[simp] theorem chooseRelease_ser (d : Dev) : (chooseRelease d).ser = d.ser := by
  unfold chooseRelease
  refine foldl_keeps (fun x : Dev × List Task => x.1.ser) _ (fun x p => ?_) _ _
  split <;> simp

@[simp] theorem chooseRelease_cas (d : Dev) : (chooseRelease d).cas = d.cas := by
  unfold chooseRelease
  refine foldl_keeps (fun x : Dev × List Task => x.1.cas) _ (fun x p => ?_) _ _
  split <;> simp

@[simp] theorem shedOne_keeps (v : Nat) (d : Dev) :
    (shedOne v d).fresh = d.fresh ∧ (shedOne v d).frame = d.frame ∧ (shedOne v d).win = d.win ∧ (shedOne v d).pwr = d.pwr ∧ (shedOne v d).mgt = d.mgt ∧ (shedOne v d).boot = d.boot ∧ (shedOne v d).alm = d.alm ∧ (shedOne v d).cal = d.cal ∧ (shedOne v d).mix = d.mix ∧ (shedOne v d).outs = d.outs ∧ (shedOne v d).tdm = d.tdm ∧ (shedOne v d).ser = d.ser := by
  simp -implicitDefEqProofs [shedOne]

@[simp] theorem shedFrom_fresh (set : List Nat) (pick : Nat → Bool) (n : Nat) (d : Dev) :
    (shedFrom set pick n d).fresh = d.fresh := by
  induction n generalizing d with
  | zero => rfl
  | succ n ih => unfold shedFrom; (repeat' split) <;> simp [ih]

@[simp] theorem shedFrom_frame (set : List Nat) (pick : Nat → Bool) (n : Nat) (d : Dev) :
    (shedFrom set pick n d).frame = d.frame := by
  induction n generalizing d with
  | zero => rfl
  | succ n ih => unfold shedFrom; (repeat' split) <;> simp [ih]

@[simp] theorem shedFrom_win (set : List Nat) (pick : Nat → Bool) (n : Nat) (d : Dev) :
    (shedFrom set pick n d).win = d.win := by
  induction n generalizing d with
  | zero => rfl
  | succ n ih => unfold shedFrom; (repeat' split) <;> simp [ih]

@[simp] theorem shedFrom_pwr (set : List Nat) (pick : Nat → Bool) (n : Nat) (d : Dev) :
    (shedFrom set pick n d).pwr = d.pwr := by
  induction n generalizing d with
  | zero => rfl
  | succ n ih => unfold shedFrom; (repeat' split) <;> simp [ih]

@[simp] theorem shedFrom_mgt (set : List Nat) (pick : Nat → Bool) (n : Nat) (d : Dev) :
    (shedFrom set pick n d).mgt = d.mgt := by
  induction n generalizing d with
  | zero => rfl
  | succ n ih => unfold shedFrom; (repeat' split) <;> simp [ih]

@[simp] theorem shedFrom_boot (set : List Nat) (pick : Nat → Bool) (n : Nat) (d : Dev) :
    (shedFrom set pick n d).boot = d.boot := by
  induction n generalizing d with
  | zero => rfl
  | succ n ih => unfold shedFrom; (repeat' split) <;> simp [ih]

@[simp] theorem shedFrom_alm (set : List Nat) (pick : Nat → Bool) (n : Nat) (d : Dev) :
    (shedFrom set pick n d).alm = d.alm := by
  induction n generalizing d with
  | zero => rfl
  | succ n ih => unfold shedFrom; (repeat' split) <;> simp [ih]

@[simp] theorem shedFrom_cal (set : List Nat) (pick : Nat → Bool) (n : Nat) (d : Dev) :
    (shedFrom set pick n d).cal = d.cal := by
  induction n generalizing d with
  | zero => rfl
  | succ n ih => unfold shedFrom; (repeat' split) <;> simp [ih]

@[simp] theorem shedFrom_mix (set : List Nat) (pick : Nat → Bool) (n : Nat) (d : Dev) :
    (shedFrom set pick n d).mix = d.mix := by
  induction n generalizing d with
  | zero => rfl
  | succ n ih => unfold shedFrom; (repeat' split) <;> simp [ih]

@[simp] theorem shedFrom_outs (set : List Nat) (pick : Nat → Bool) (n : Nat) (d : Dev) :
    (shedFrom set pick n d).outs = d.outs := by
  induction n generalizing d with
  | zero => rfl
  | succ n ih => unfold shedFrom; (repeat' split) <;> simp [ih]

@[simp] theorem shedFrom_tdm (set : List Nat) (pick : Nat → Bool) (n : Nat) (d : Dev) :
    (shedFrom set pick n d).tdm = d.tdm := by
  induction n generalizing d with
  | zero => rfl
  | succ n ih => unfold shedFrom; (repeat' split) <;> simp [ih]

@[simp] theorem shedFrom_ser (set : List Nat) (pick : Nat → Bool) (n : Nat) (d : Dev) :
    (shedFrom set pick n d).ser = d.ser := by
  induction n generalizing d with
  | zero => rfl
  | succ n ih => unfold shedFrom; (repeat' split) <;> simp [ih]

@[simp] theorem guardShed_keeps (set : List Nat) (d : Dev) :
    (guardShed set d).fresh = d.fresh ∧ (guardShed set d).frame = d.frame ∧ (guardShed set d).win = d.win ∧ (guardShed set d).pwr = d.pwr ∧ (guardShed set d).mgt = d.mgt ∧ (guardShed set d).boot = d.boot ∧ (guardShed set d).alm = d.alm ∧ (guardShed set d).cal = d.cal ∧ (guardShed set d).mix = d.mix ∧ (guardShed set d).outs = d.outs ∧ (guardShed set d).tdm = d.tdm ∧ (guardShed set d).ser = d.ser := by
  unfold guardShed; refine ⟨?_, ?_, ?_, ?_, ?_, ?_, ?_, ?_, ?_, ?_, ?_, ?_⟩ <;> (repeat' split) <;> simp -implicitDefEqProofs

@[simp] theorem offerShed_keeps (q : Nat) (d : Dev) :
    (offerShed q d).fresh = d.fresh ∧ (offerShed q d).frame = d.frame ∧ (offerShed q d).win = d.win ∧ (offerShed q d).pwr = d.pwr ∧ (offerShed q d).mgt = d.mgt ∧ (offerShed q d).boot = d.boot ∧ (offerShed q d).alm = d.alm ∧ (offerShed q d).cal = d.cal ∧ (offerShed q d).mix = d.mix ∧ (offerShed q d).outs = d.outs ∧ (offerShed q d).tdm = d.tdm ∧ (offerShed q d).ser = d.ser := by
  unfold offerShed; refine ⟨?_, ?_, ?_, ?_, ?_, ?_, ?_, ?_, ?_, ?_, ?_, ?_⟩ <;> (repeat' split) <;> simp -implicitDefEqProofs

@[simp] theorem firstSampleDev_keeps (v : Nat) (d : Dev) :
    (firstSampleDev v d).fresh = d.fresh ∧ (firstSampleDev v d).frame = d.frame ∧ (firstSampleDev v d).win = d.win ∧ (firstSampleDev v d).pwr = d.pwr ∧ (firstSampleDev v d).mgt = d.mgt ∧ (firstSampleDev v d).boot = d.boot ∧ (firstSampleDev v d).alm = d.alm ∧ (firstSampleDev v d).cal = d.cal ∧ (firstSampleDev v d).mix = d.mix ∧ (firstSampleDev v d).outs = d.outs ∧ (firstSampleDev v d).tdm = d.tdm ∧ (firstSampleDev v d).ser = d.ser := by
  simp -implicitDefEqProofs [firstSampleDev]

@[simp] theorem stealFadeEndDev_keeps (v : Nat) (d : Dev) :
    (stealFadeEndDev v d).fresh = d.fresh ∧ (stealFadeEndDev v d).frame = d.frame ∧ (stealFadeEndDev v d).win = d.win ∧ (stealFadeEndDev v d).pwr = d.pwr ∧ (stealFadeEndDev v d).mgt = d.mgt ∧ (stealFadeEndDev v d).boot = d.boot ∧ (stealFadeEndDev v d).alm = d.alm ∧ (stealFadeEndDev v d).cal = d.cal ∧ (stealFadeEndDev v d).mix = d.mix ∧ (stealFadeEndDev v d).outs = d.outs ∧ (stealFadeEndDev v d).tdm = d.tdm ∧ (stealFadeEndDev v d).ser = d.ser := by
  simp -implicitDefEqProofs [stealFadeEndDev]

@[simp] theorem quenchEndDev_keeps (v : Nat) (d : Dev) :
    (quenchEndDev v d).fresh = d.fresh ∧ (quenchEndDev v d).frame = d.frame ∧ (quenchEndDev v d).win = d.win ∧ (quenchEndDev v d).pwr = d.pwr ∧ (quenchEndDev v d).mgt = d.mgt ∧ (quenchEndDev v d).boot = d.boot ∧ (quenchEndDev v d).alm = d.alm ∧ (quenchEndDev v d).aud = d.aud ∧ (quenchEndDev v d).mix = d.mix ∧ (quenchEndDev v d).outs = d.outs ∧ (quenchEndDev v d).tdm = d.tdm ∧ (quenchEndDev v d).ser = d.ser := by
  simp -implicitDefEqProofs [quenchEndDev]

@[simp] theorem env0CompleteDev_keeps (v : Nat) (d : Dev) :
    (env0CompleteDev v d).frame = d.frame ∧ (env0CompleteDev v d).win = d.win ∧ (env0CompleteDev v d).pwr = d.pwr ∧ (env0CompleteDev v d).mgt = d.mgt ∧ (env0CompleteDev v d).boot = d.boot ∧ (env0CompleteDev v d).alm = d.alm ∧ (env0CompleteDev v d).mix = d.mix ∧ (env0CompleteDev v d).outs = d.outs ∧ (env0CompleteDev v d).tdm = d.tdm ∧ (env0CompleteDev v d).ser = d.ser := by
  unfold env0CompleteDev; refine ⟨?_, ?_, ?_, ?_, ?_, ?_, ?_, ?_, ?_, ?_⟩ <;> (repeat' split) <;> simp -implicitDefEqProofs

@[simp] theorem backgroundRunCompleteDev_keeps (v : Nat) (d : Dev) :
    (backgroundRunCompleteDev v d).frame = d.frame ∧ (backgroundRunCompleteDev v d).win = d.win ∧ (backgroundRunCompleteDev v d).pwr = d.pwr ∧ (backgroundRunCompleteDev v d).boot = d.boot ∧ (backgroundRunCompleteDev v d).alm = d.alm ∧ (backgroundRunCompleteDev v d).mix = d.mix ∧ (backgroundRunCompleteDev v d).outs = d.outs ∧ (backgroundRunCompleteDev v d).tdm = d.tdm ∧ (backgroundRunCompleteDev v d).ser = d.ser := by
  unfold backgroundRunCompleteDev; refine ⟨?_, ?_, ?_, ?_, ?_, ?_, ?_, ?_, ?_⟩ <;> (repeat' split) <;> simp -implicitDefEqProofs

@[simp] theorem sampleEndVoiceDev_keeps (v : Nat) (d : Dev) :
    (sampleEndVoiceDev v d).fresh = d.fresh ∧ (sampleEndVoiceDev v d).frame = d.frame ∧ (sampleEndVoiceDev v d).win = d.win ∧ (sampleEndVoiceDev v d).pwr = d.pwr ∧ (sampleEndVoiceDev v d).mgt = d.mgt ∧ (sampleEndVoiceDev v d).boot = d.boot ∧ (sampleEndVoiceDev v d).alm = d.alm ∧ (sampleEndVoiceDev v d).cal = d.cal ∧ (sampleEndVoiceDev v d).mix = d.mix ∧ (sampleEndVoiceDev v d).outs = d.outs ∧ (sampleEndVoiceDev v d).tdm = d.tdm ∧ (sampleEndVoiceDev v d).ser = d.ser := by
  unfold sampleEndVoiceDev; refine ⟨?_, ?_, ?_, ?_, ?_, ?_, ?_, ?_, ?_, ?_, ?_, ?_⟩ <;> (repeat' split) <;> simp -implicitDefEqProofs

@[simp] theorem slackRecord_keeps (c slack : Nat) (d : Dev) :
    (slackRecord c slack d).fresh = d.fresh ∧ (slackRecord c slack d).mem = d.mem ∧ (slackRecord c slack d).port = d.port ∧ (slackRecord c slack d).win = d.win ∧ (slackRecord c slack d).cnt = d.cnt ∧ (slackRecord c slack d).pwr = d.pwr ∧ (slackRecord c slack d).mgt = d.mgt ∧ (slackRecord c slack d).boot = d.boot ∧ (slackRecord c slack d).alm = d.alm ∧ (slackRecord c slack d).par = d.par ∧ (slackRecord c slack d).aud = d.aud ∧ (slackRecord c slack d).cal = d.cal ∧ (slackRecord c slack d).mix = d.mix ∧ (slackRecord c slack d).outs = d.outs ∧ (slackRecord c slack d).tdm = d.tdm ∧ (slackRecord c slack d).ser = d.ser ∧ (slackRecord c slack d).cas = d.cas := by
  simp -implicitDefEqProofs [slackRecord]

@[simp] theorem slackMinClearDev_keeps (c : Nat) (v : Word) (d : Dev) :
    (slackMinClearDev c v d).fresh = d.fresh ∧ (slackMinClearDev c v d).mem = d.mem ∧ (slackMinClearDev c v d).frame = d.frame ∧ (slackMinClearDev c v d).port = d.port ∧ (slackMinClearDev c v d).win = d.win ∧ (slackMinClearDev c v d).cnt = d.cnt ∧ (slackMinClearDev c v d).pwr = d.pwr ∧ (slackMinClearDev c v d).mgt = d.mgt ∧ (slackMinClearDev c v d).boot = d.boot ∧ (slackMinClearDev c v d).alm = d.alm ∧ (slackMinClearDev c v d).par = d.par ∧ (slackMinClearDev c v d).aud = d.aud ∧ (slackMinClearDev c v d).cal = d.cal ∧ (slackMinClearDev c v d).mix = d.mix ∧ (slackMinClearDev c v d).outs = d.outs ∧ (slackMinClearDev c v d).tdm = d.tdm ∧ (slackMinClearDev c v d).ser = d.ser ∧ (slackMinClearDev c v d).cas = d.cas := by
  simp -implicitDefEqProofs [slackMinClearDev]

@[simp] theorem cleanEf_keeps (d : Dev) :
    (cleanEf d).regs = d.regs ∧ (cleanEf d).fresh = d.fresh ∧ (cleanEf d).mem = d.mem ∧ (cleanEf d).port = d.port ∧ (cleanEf d).win = d.win ∧ (cleanEf d).cnt = d.cnt ∧ (cleanEf d).pwr = d.pwr ∧ (cleanEf d).mgt = d.mgt ∧ (cleanEf d).boot = d.boot ∧ (cleanEf d).alm = d.alm ∧ (cleanEf d).par = d.par ∧ (cleanEf d).aud = d.aud ∧ (cleanEf d).cal = d.cal ∧ (cleanEf d).mix = d.mix ∧ (cleanEf d).outs = d.outs ∧ (cleanEf d).tdm = d.tdm ∧ (cleanEf d).ser = d.ser ∧ (cleanEf d).cas = d.cas := by
  simp -implicitDefEqProofs [cleanEf]

@[simp] theorem countClean_keeps (d : Dev) :
    (countClean d).regs = d.regs ∧ (countClean d).fresh = d.fresh ∧ (countClean d).mem = d.mem ∧ (countClean d).port = d.port ∧ (countClean d).win = d.win ∧ (countClean d).cnt = d.cnt ∧ (countClean d).pwr = d.pwr ∧ (countClean d).mgt = d.mgt ∧ (countClean d).boot = d.boot ∧ (countClean d).alm = d.alm ∧ (countClean d).par = d.par ∧ (countClean d).aud = d.aud ∧ (countClean d).cal = d.cal ∧ (countClean d).mix = d.mix ∧ (countClean d).outs = d.outs ∧ (countClean d).tdm = d.tdm ∧ (countClean d).ser = d.ser ∧ (countClean d).cas = d.cas := by
  simp -implicitDefEqProofs [countClean]

@[simp] theorem frameEnd_keeps (d : Dev) :
    (frameEnd d).fresh = d.fresh ∧ (frameEnd d).mem = d.mem ∧ (frameEnd d).port = d.port ∧ (frameEnd d).win = d.win ∧ (frameEnd d).cnt = d.cnt ∧ (frameEnd d).pwr = d.pwr ∧ (frameEnd d).mgt = d.mgt ∧ (frameEnd d).boot = d.boot ∧ (frameEnd d).alm = d.alm ∧ (frameEnd d).par = d.par ∧ (frameEnd d).aud = d.aud ∧ (frameEnd d).cal = d.cal ∧ (frameEnd d).mix = d.mix ∧ (frameEnd d).outs = d.outs ∧ (frameEnd d).tdm = d.tdm ∧ (frameEnd d).ser = d.ser ∧ (frameEnd d).cas = d.cas := by
  simp -implicitDefEqProofs [frameEnd]

@[simp] theorem windowEnd_keeps (d : Dev) :
    (windowEnd d).fresh = d.fresh ∧ (windowEnd d).mem = d.mem ∧ (windowEnd d).port = d.port ∧ (windowEnd d).win = d.win ∧ (windowEnd d).cnt = d.cnt ∧ (windowEnd d).pwr = d.pwr ∧ (windowEnd d).boot = d.boot ∧ (windowEnd d).alm = d.alm ∧ (windowEnd d).par = d.par ∧ (windowEnd d).aud = d.aud ∧ (windowEnd d).cal = d.cal ∧ (windowEnd d).mix = d.mix ∧ (windowEnd d).outs = d.outs ∧ (windowEnd d).tdm = d.tdm ∧ (windowEnd d).ser = d.ser ∧ (windowEnd d).cas = d.cas := by
  simp -implicitDefEqProofs [windowEnd]

@[simp] theorem vidDrive_keeps (code : Nat) (d : Dev) :
    (vidDrive code d).regs = d.regs ∧ (vidDrive code d).fresh = d.fresh ∧ (vidDrive code d).mem = d.mem ∧ (vidDrive code d).port = d.port ∧ (vidDrive code d).win = d.win ∧ (vidDrive code d).pwr = d.pwr ∧ (vidDrive code d).mgt = d.mgt ∧ (vidDrive code d).boot = d.boot ∧ (vidDrive code d).alm = d.alm ∧ (vidDrive code d).par = d.par ∧ (vidDrive code d).aud = d.aud ∧ (vidDrive code d).cal = d.cal ∧ (vidDrive code d).mix = d.mix ∧ (vidDrive code d).outs = d.outs ∧ (vidDrive code d).tdm = d.tdm ∧ (vidDrive code d).ser = d.ser ∧ (vidDrive code d).cas = d.cas := by
  unfold vidDrive; refine ⟨?_, ?_, ?_, ?_, ?_, ?_, ?_, ?_, ?_, ?_, ?_, ?_, ?_, ?_, ?_, ?_, ?_⟩ <;> (repeat' split) <;> simp -implicitDefEqProofs

@[simp] theorem vidRequest_keeps (code : Nat) (d : Dev) :
    (vidRequest code d).regs = d.regs ∧ (vidRequest code d).fresh = d.fresh ∧ (vidRequest code d).mem = d.mem ∧ (vidRequest code d).port = d.port ∧ (vidRequest code d).win = d.win ∧ (vidRequest code d).pwr = d.pwr ∧ (vidRequest code d).mgt = d.mgt ∧ (vidRequest code d).boot = d.boot ∧ (vidRequest code d).alm = d.alm ∧ (vidRequest code d).par = d.par ∧ (vidRequest code d).aud = d.aud ∧ (vidRequest code d).cal = d.cal ∧ (vidRequest code d).mix = d.mix ∧ (vidRequest code d).outs = d.outs ∧ (vidRequest code d).tdm = d.tdm ∧ (vidRequest code d).ser = d.ser ∧ (vidRequest code d).cas = d.cas := by
  simp -implicitDefEqProofs [vidRequest]

@[simp] theorem vidLow_keeps (d : Dev) :
    (vidLow d).fresh = d.fresh ∧ (vidLow d).mem = d.mem ∧ (vidLow d).frame = d.frame ∧ (vidLow d).port = d.port ∧ (vidLow d).win = d.win ∧ (vidLow d).cnt = d.cnt ∧ (vidLow d).pwr = d.pwr ∧ (vidLow d).boot = d.boot ∧ (vidLow d).alm = d.alm ∧ (vidLow d).par = d.par ∧ (vidLow d).aud = d.aud ∧ (vidLow d).cal = d.cal ∧ (vidLow d).mix = d.mix ∧ (vidLow d).outs = d.outs ∧ (vidLow d).tdm = d.tdm ∧ (vidLow d).ser = d.ser ∧ (vidLow d).cas = d.cas := by
  simp -implicitDefEqProofs [vidLow]

@[simp] theorem vidWindowEndDev_keeps (d : Dev) :
    (vidWindowEndDev d).fresh = d.fresh ∧ (vidWindowEndDev d).mem = d.mem ∧ (vidWindowEndDev d).port = d.port ∧ (vidWindowEndDev d).win = d.win ∧ (vidWindowEndDev d).pwr = d.pwr ∧ (vidWindowEndDev d).boot = d.boot ∧ (vidWindowEndDev d).alm = d.alm ∧ (vidWindowEndDev d).par = d.par ∧ (vidWindowEndDev d).aud = d.aud ∧ (vidWindowEndDev d).cal = d.cal ∧ (vidWindowEndDev d).mix = d.mix ∧ (vidWindowEndDev d).outs = d.outs ∧ (vidWindowEndDev d).tdm = d.tdm ∧ (vidWindowEndDev d).ser = d.ser ∧ (vidWindowEndDev d).cas = d.cas := by
  simp -implicitDefEqProofs [vidWindowEndDev]

@[simp] theorem vidWaitEnds_keeps (d : Dev) :
    (vidWaitEnds d).regs = d.regs ∧ (vidWaitEnds d).fresh = d.fresh ∧ (vidWaitEnds d).mem = d.mem ∧ (vidWaitEnds d).port = d.port ∧ (vidWaitEnds d).win = d.win ∧ (vidWaitEnds d).pwr = d.pwr ∧ (vidWaitEnds d).mgt = d.mgt ∧ (vidWaitEnds d).boot = d.boot ∧ (vidWaitEnds d).alm = d.alm ∧ (vidWaitEnds d).par = d.par ∧ (vidWaitEnds d).aud = d.aud ∧ (vidWaitEnds d).cal = d.cal ∧ (vidWaitEnds d).mix = d.mix ∧ (vidWaitEnds d).outs = d.outs ∧ (vidWaitEnds d).tdm = d.tdm ∧ (vidWaitEnds d).ser = d.ser ∧ (vidWaitEnds d).cas = d.cas := by
  refine ⟨?_, ?_, ?_, ?_, ?_, ?_, ?_, ?_, ?_, ?_, ?_, ?_, ?_, ?_, ?_, ?_, ?_⟩ <;> (unfold vidWaitEnds; dsimp only; repeat' split) <;> simp -implicitDefEqProofs

@[simp] theorem vidSettledDev_keeps (d : Dev) :
    (vidSettledDev d).regs = d.regs ∧ (vidSettledDev d).fresh = d.fresh ∧ (vidSettledDev d).mem = d.mem ∧ (vidSettledDev d).port = d.port ∧ (vidSettledDev d).win = d.win ∧ (vidSettledDev d).pwr = d.pwr ∧ (vidSettledDev d).mgt = d.mgt ∧ (vidSettledDev d).boot = d.boot ∧ (vidSettledDev d).alm = d.alm ∧ (vidSettledDev d).par = d.par ∧ (vidSettledDev d).aud = d.aud ∧ (vidSettledDev d).cal = d.cal ∧ (vidSettledDev d).mix = d.mix ∧ (vidSettledDev d).outs = d.outs ∧ (vidSettledDev d).tdm = d.tdm ∧ (vidSettledDev d).ser = d.ser ∧ (vidSettledDev d).cas = d.cas := by
  simp -implicitDefEqProofs [vidSettledDev]

@[simp] theorem vidManual_keeps (was : Bool) (old : Nat) (d : Dev) :
    (vidManual was old d).regs = d.regs ∧ (vidManual was old d).fresh = d.fresh ∧ (vidManual was old d).mem = d.mem ∧ (vidManual was old d).port = d.port ∧ (vidManual was old d).win = d.win ∧ (vidManual was old d).cnt = d.cnt ∧ (vidManual was old d).pwr = d.pwr ∧ (vidManual was old d).mgt = d.mgt ∧ (vidManual was old d).boot = d.boot ∧ (vidManual was old d).alm = d.alm ∧ (vidManual was old d).par = d.par ∧ (vidManual was old d).aud = d.aud ∧ (vidManual was old d).cal = d.cal ∧ (vidManual was old d).mix = d.mix ∧ (vidManual was old d).outs = d.outs ∧ (vidManual was old d).tdm = d.tdm ∧ (vidManual was old d).ser = d.ser ∧ (vidManual was old d).cas = d.cas := by
  simp -implicitDefEqProofs [vidManual]

@[simp] theorem vidMoved_keeps (old : Nat) (d : Dev) :
    (vidMoved old d).regs = d.regs ∧ (vidMoved old d).fresh = d.fresh ∧ (vidMoved old d).mem = d.mem ∧ (vidMoved old d).port = d.port ∧ (vidMoved old d).win = d.win ∧ (vidMoved old d).pwr = d.pwr ∧ (vidMoved old d).mgt = d.mgt ∧ (vidMoved old d).boot = d.boot ∧ (vidMoved old d).alm = d.alm ∧ (vidMoved old d).par = d.par ∧ (vidMoved old d).aud = d.aud ∧ (vidMoved old d).cal = d.cal ∧ (vidMoved old d).mix = d.mix ∧ (vidMoved old d).outs = d.outs ∧ (vidMoved old d).tdm = d.tdm ∧ (vidMoved old d).ser = d.ser ∧ (vidMoved old d).cas = d.cas := by
  simp -implicitDefEqProofs [vidMoved]

@[simp] theorem vidSettleTimeoutDev_keeps (d : Dev) :
    (vidSettleTimeoutDev d).fresh = d.fresh ∧ (vidSettleTimeoutDev d).mem = d.mem ∧ (vidSettleTimeoutDev d).port = d.port ∧ (vidSettleTimeoutDev d).win = d.win ∧ (vidSettleTimeoutDev d).pwr = d.pwr ∧ (vidSettleTimeoutDev d).boot = d.boot ∧ (vidSettleTimeoutDev d).alm = d.alm ∧ (vidSettleTimeoutDev d).par = d.par ∧ (vidSettleTimeoutDev d).aud = d.aud ∧ (vidSettleTimeoutDev d).cal = d.cal ∧ (vidSettleTimeoutDev d).mix = d.mix ∧ (vidSettleTimeoutDev d).outs = d.outs ∧ (vidSettleTimeoutDev d).tdm = d.tdm ∧ (vidSettleTimeoutDev d).ser = d.ser ∧ (vidSettleTimeoutDev d).cas = d.cas := by
  simp -implicitDefEqProofs [vidSettleTimeoutDev]

@[simp] theorem vidLate_keeps (d : Dev) :
    (vidLate d).regs = d.regs ∧ (vidLate d).fresh = d.fresh ∧ (vidLate d).mem = d.mem ∧ (vidLate d).port = d.port ∧ (vidLate d).win = d.win ∧ (vidLate d).pwr = d.pwr ∧ (vidLate d).mgt = d.mgt ∧ (vidLate d).boot = d.boot ∧ (vidLate d).alm = d.alm ∧ (vidLate d).par = d.par ∧ (vidLate d).aud = d.aud ∧ (vidLate d).cal = d.cal ∧ (vidLate d).mix = d.mix ∧ (vidLate d).outs = d.outs ∧ (vidLate d).tdm = d.tdm ∧ (vidLate d).ser = d.ser ∧ (vidLate d).cas = d.cas := by
  simp -implicitDefEqProofs [vidLate]

@[simp] theorem guardSteps_keeps (n : Nat) (d : Dev) :
    (guardSteps n d).fresh = d.fresh ∧ (guardSteps n d).mem = d.mem ∧ (guardSteps n d).port = d.port ∧ (guardSteps n d).win = d.win ∧ (guardSteps n d).pwr = d.pwr ∧ (guardSteps n d).boot = d.boot ∧ (guardSteps n d).alm = d.alm ∧ (guardSteps n d).par = d.par ∧ (guardSteps n d).aud = d.aud ∧ (guardSteps n d).cal = d.cal ∧ (guardSteps n d).mix = d.mix ∧ (guardSteps n d).outs = d.outs ∧ (guardSteps n d).tdm = d.tdm ∧ (guardSteps n d).ser = d.ser ∧ (guardSteps n d).cas = d.cas := by
  unfold guardSteps; refine ⟨?_, ?_, ?_, ?_, ?_, ?_, ?_, ?_, ?_, ?_, ?_, ?_, ?_, ?_, ?_⟩ <;> (repeat' split) <;> simp -implicitDefEqProofs

@[simp] theorem lateEf_keeps (set : List Nat) (d : Dev) :
    (lateEf set d).fresh = d.fresh ∧ (lateEf set d).win = d.win ∧ (lateEf set d).pwr = d.pwr ∧ (lateEf set d).boot = d.boot ∧ (lateEf set d).alm = d.alm ∧ (lateEf set d).cal = d.cal ∧ (lateEf set d).mix = d.mix ∧ (lateEf set d).outs = d.outs ∧ (lateEf set d).tdm = d.tdm ∧ (lateEf set d).ser = d.ser := by
  unfold lateEf; refine ⟨?_, ?_, ?_, ?_, ?_, ?_, ?_, ?_, ?_, ?_⟩ <;> (repeat' split) <;> simp -implicitDefEqProofs

@[simp] theorem lateLog_keeps (c : Nat) (d : Dev) :
    (lateLog c d).fresh = d.fresh ∧ (lateLog c d).mem = d.mem ∧ (lateLog c d).frame = d.frame ∧ (lateLog c d).port = d.port ∧ (lateLog c d).win = d.win ∧ (lateLog c d).cnt = d.cnt ∧ (lateLog c d).pwr = d.pwr ∧ (lateLog c d).boot = d.boot ∧ (lateLog c d).alm = d.alm ∧ (lateLog c d).par = d.par ∧ (lateLog c d).cal = d.cal ∧ (lateLog c d).mix = d.mix ∧ (lateLog c d).outs = d.outs ∧ (lateLog c d).tdm = d.tdm ∧ (lateLog c d).ser = d.ser ∧ (lateLog c d).cas = d.cas := by
  unfold lateLog; refine ⟨?_, ?_, ?_, ?_, ?_, ?_, ?_, ?_, ?_, ?_, ?_, ?_, ?_, ?_, ?_, ?_⟩ <;> (repeat' split) <;> simp -implicitDefEqProofs

@[simp] theorem countLate_keeps (c : Nat) (d : Dev) :
    (countLate c d).fresh = d.fresh ∧ (countLate c d).mem = d.mem ∧ (countLate c d).frame = d.frame ∧ (countLate c d).port = d.port ∧ (countLate c d).win = d.win ∧ (countLate c d).pwr = d.pwr ∧ (countLate c d).boot = d.boot ∧ (countLate c d).alm = d.alm ∧ (countLate c d).par = d.par ∧ (countLate c d).cal = d.cal ∧ (countLate c d).mix = d.mix ∧ (countLate c d).outs = d.outs ∧ (countLate c d).tdm = d.tdm ∧ (countLate c d).ser = d.ser ∧ (countLate c d).cas = d.cas := by
  unfold countLate; refine ⟨?_, ?_, ?_, ?_, ?_, ?_, ?_, ?_, ?_, ?_, ?_, ?_, ?_, ?_, ?_⟩ <;> (repeat' split) <;> simp -implicitDefEqProofs

@[simp] theorem deadlineMissDev_keeps (c : Nat) (d : Dev) :
    (deadlineMissDev c d).fresh = d.fresh ∧ (deadlineMissDev c d).win = d.win ∧ (deadlineMissDev c d).pwr = d.pwr ∧ (deadlineMissDev c d).boot = d.boot ∧ (deadlineMissDev c d).alm = d.alm ∧ (deadlineMissDev c d).cal = d.cal ∧ (deadlineMissDev c d).mix = d.mix ∧ (deadlineMissDev c d).outs = d.outs ∧ (deadlineMissDev c d).tdm = d.tdm ∧ (deadlineMissDev c d).ser = d.ser := by
  simp -implicitDefEqProofs [deadlineMissDev]

@[simp] theorem guardWindowEndDev_keeps (d : Dev) :
    (guardWindowEndDev d).regs = d.regs ∧ (guardWindowEndDev d).fresh = d.fresh ∧ (guardWindowEndDev d).mem = d.mem ∧ (guardWindowEndDev d).port = d.port ∧ (guardWindowEndDev d).win = d.win ∧ (guardWindowEndDev d).cnt = d.cnt ∧ (guardWindowEndDev d).pwr = d.pwr ∧ (guardWindowEndDev d).mgt = d.mgt ∧ (guardWindowEndDev d).boot = d.boot ∧ (guardWindowEndDev d).alm = d.alm ∧ (guardWindowEndDev d).par = d.par ∧ (guardWindowEndDev d).aud = d.aud ∧ (guardWindowEndDev d).cal = d.cal ∧ (guardWindowEndDev d).mix = d.mix ∧ (guardWindowEndDev d).outs = d.outs ∧ (guardWindowEndDev d).tdm = d.tdm ∧ (guardWindowEndDev d).ser = d.ser ∧ (guardWindowEndDev d).cas = d.cas := by
  simp -implicitDefEqProofs [guardWindowEndDev]

@[simp] theorem guardStepDownDev_keeps (d : Dev) :
    (guardStepDownDev d).fresh = d.fresh ∧ (guardStepDownDev d).mem = d.mem ∧ (guardStepDownDev d).port = d.port ∧ (guardStepDownDev d).win = d.win ∧ (guardStepDownDev d).pwr = d.pwr ∧ (guardStepDownDev d).boot = d.boot ∧ (guardStepDownDev d).alm = d.alm ∧ (guardStepDownDev d).par = d.par ∧ (guardStepDownDev d).aud = d.aud ∧ (guardStepDownDev d).cal = d.cal ∧ (guardStepDownDev d).mix = d.mix ∧ (guardStepDownDev d).outs = d.outs ∧ (guardStepDownDev d).tdm = d.tdm ∧ (guardStepDownDev d).ser = d.ser ∧ (guardStepDownDev d).cas = d.cas := by
  simp -implicitDefEqProofs [guardStepDownDev]

@[simp] theorem serIrq_keeps (n b : Nat) (d : Dev) :
    (serIrq n b d).fresh = d.fresh ∧ (serIrq n b d).mem = d.mem ∧ (serIrq n b d).frame = d.frame ∧ (serIrq n b d).port = d.port ∧ (serIrq n b d).win = d.win ∧ (serIrq n b d).cnt = d.cnt ∧ (serIrq n b d).pwr = d.pwr ∧ (serIrq n b d).mgt = d.mgt ∧ (serIrq n b d).boot = d.boot ∧ (serIrq n b d).alm = d.alm ∧ (serIrq n b d).par = d.par ∧ (serIrq n b d).aud = d.aud ∧ (serIrq n b d).cal = d.cal ∧ (serIrq n b d).mix = d.mix ∧ (serIrq n b d).outs = d.outs ∧ (serIrq n b d).tdm = d.tdm ∧ (serIrq n b d).ser = d.ser ∧ (serIrq n b d).cas = d.cas := by
  simp -implicitDefEqProofs [serIrq]

@[simp] theorem serErr_keeps (n hi lo : Nat) (d : Dev) :
    (serErr n hi lo d).fresh = d.fresh ∧ (serErr n hi lo d).mem = d.mem ∧ (serErr n hi lo d).frame = d.frame ∧ (serErr n hi lo d).port = d.port ∧ (serErr n hi lo d).win = d.win ∧ (serErr n hi lo d).cnt = d.cnt ∧ (serErr n hi lo d).pwr = d.pwr ∧ (serErr n hi lo d).mgt = d.mgt ∧ (serErr n hi lo d).boot = d.boot ∧ (serErr n hi lo d).alm = d.alm ∧ (serErr n hi lo d).par = d.par ∧ (serErr n hi lo d).aud = d.aud ∧ (serErr n hi lo d).cal = d.cal ∧ (serErr n hi lo d).mix = d.mix ∧ (serErr n hi lo d).outs = d.outs ∧ (serErr n hi lo d).tdm = d.tdm ∧ (serErr n hi lo d).ser = d.ser ∧ (serErr n hi lo d).cas = d.cas := by
  simp -implicitDefEqProofs [serErr]

@[simp] theorem freeBuf_keeps (b : Nat) (d : Dev) :
    (freeBuf b d).regs = d.regs ∧ (freeBuf b d).fresh = d.fresh ∧ (freeBuf b d).mem = d.mem ∧ (freeBuf b d).frame = d.frame ∧ (freeBuf b d).port = d.port ∧ (freeBuf b d).win = d.win ∧ (freeBuf b d).cnt = d.cnt ∧ (freeBuf b d).pwr = d.pwr ∧ (freeBuf b d).mgt = d.mgt ∧ (freeBuf b d).boot = d.boot ∧ (freeBuf b d).alm = d.alm ∧ (freeBuf b d).par = d.par ∧ (freeBuf b d).aud = d.aud ∧ (freeBuf b d).cal = d.cal ∧ (freeBuf b d).mix = d.mix ∧ (freeBuf b d).outs = d.outs ∧ (freeBuf b d).tdm = d.tdm ∧ (freeBuf b d).cas = d.cas := by
  simp -implicitDefEqProofs [freeBuf]

@[simp] theorem sysexAbort_keeps (n cause : Nat) (d : Dev) :
    (sysexAbort n cause d).fresh = d.fresh ∧ (sysexAbort n cause d).mem = d.mem ∧ (sysexAbort n cause d).frame = d.frame ∧ (sysexAbort n cause d).port = d.port ∧ (sysexAbort n cause d).win = d.win ∧ (sysexAbort n cause d).cnt = d.cnt ∧ (sysexAbort n cause d).pwr = d.pwr ∧ (sysexAbort n cause d).boot = d.boot ∧ (sysexAbort n cause d).alm = d.alm ∧ (sysexAbort n cause d).par = d.par ∧ (sysexAbort n cause d).aud = d.aud ∧ (sysexAbort n cause d).cal = d.cal ∧ (sysexAbort n cause d).mix = d.mix ∧ (sysexAbort n cause d).outs = d.outs ∧ (sysexAbort n cause d).tdm = d.tdm ∧ (sysexAbort n cause d).cas = d.cas := by
  unfold sysexAbort; refine ⟨?_, ?_, ?_, ?_, ?_, ?_, ?_, ?_, ?_, ?_, ?_, ?_, ?_, ?_, ?_, ?_⟩ <;> (repeat' split) <;> simp -implicitDefEqProofs

@[simp] theorem parserReset_keeps (n : Nat) (d : Dev) :
    (parserReset n d).fresh = d.fresh ∧ (parserReset n d).mem = d.mem ∧ (parserReset n d).frame = d.frame ∧ (parserReset n d).port = d.port ∧ (parserReset n d).win = d.win ∧ (parserReset n d).cnt = d.cnt ∧ (parserReset n d).pwr = d.pwr ∧ (parserReset n d).boot = d.boot ∧ (parserReset n d).alm = d.alm ∧ (parserReset n d).par = d.par ∧ (parserReset n d).aud = d.aud ∧ (parserReset n d).cal = d.cal ∧ (parserReset n d).mix = d.mix ∧ (parserReset n d).outs = d.outs ∧ (parserReset n d).tdm = d.tdm ∧ (parserReset n d).cas = d.cas := by
  simp -implicitDefEqProofs [parserReset]

@[simp] theorem txKick_keeps (n : Nat) (d : Dev) :
    (txKick n d).regs = d.regs ∧ (txKick n d).fresh = d.fresh ∧ (txKick n d).mem = d.mem ∧ (txKick n d).frame = d.frame ∧ (txKick n d).port = d.port ∧ (txKick n d).win = d.win ∧ (txKick n d).cnt = d.cnt ∧ (txKick n d).pwr = d.pwr ∧ (txKick n d).mgt = d.mgt ∧ (txKick n d).boot = d.boot ∧ (txKick n d).alm = d.alm ∧ (txKick n d).par = d.par ∧ (txKick n d).aud = d.aud ∧ (txKick n d).cal = d.cal ∧ (txKick n d).mix = d.mix ∧ (txKick n d).outs = d.outs ∧ (txKick n d).tdm = d.tdm ∧ (txKick n d).cas = d.cas := by
  refine ⟨?_, ?_, ?_, ?_, ?_, ?_, ?_, ?_, ?_, ?_, ?_, ?_, ?_, ?_, ?_, ?_, ?_, ?_⟩ <;> (unfold txKick; dsimp only; repeat' split) <;> simp -implicitDefEqProofs

@[simp] theorem txReply_keeps (n : Nat) (bs : List Byte) (d : Dev) :
    (txReply n bs d).regs = d.regs ∧ (txReply n bs d).fresh = d.fresh ∧ (txReply n bs d).mem = d.mem ∧ (txReply n bs d).frame = d.frame ∧ (txReply n bs d).port = d.port ∧ (txReply n bs d).win = d.win ∧ (txReply n bs d).cnt = d.cnt ∧ (txReply n bs d).pwr = d.pwr ∧ (txReply n bs d).mgt = d.mgt ∧ (txReply n bs d).boot = d.boot ∧ (txReply n bs d).alm = d.alm ∧ (txReply n bs d).par = d.par ∧ (txReply n bs d).aud = d.aud ∧ (txReply n bs d).cal = d.cal ∧ (txReply n bs d).mix = d.mix ∧ (txReply n bs d).outs = d.outs ∧ (txReply n bs d).tdm = d.tdm ∧ (txReply n bs d).cas = d.cas := by
  simp -implicitDefEqProofs [txReply]

@[simp] theorem txPush_keeps (n : Nat) (b : Byte) (d : Dev) :
    (txPush n b d).fresh = d.fresh ∧ (txPush n b d).mem = d.mem ∧ (txPush n b d).frame = d.frame ∧ (txPush n b d).port = d.port ∧ (txPush n b d).win = d.win ∧ (txPush n b d).cnt = d.cnt ∧ (txPush n b d).pwr = d.pwr ∧ (txPush n b d).mgt = d.mgt ∧ (txPush n b d).boot = d.boot ∧ (txPush n b d).alm = d.alm ∧ (txPush n b d).par = d.par ∧ (txPush n b d).aud = d.aud ∧ (txPush n b d).cal = d.cal ∧ (txPush n b d).mix = d.mix ∧ (txPush n b d).outs = d.outs ∧ (txPush n b d).tdm = d.tdm ∧ (txPush n b d).cas = d.cas := by
  simp -implicitDefEqProofs [txPush]

@[simp] theorem serTxWriteDev_keeps (n : Nat) (v : Word) (d : Dev) :
    (serTxWriteDev n v d).fresh = d.fresh ∧ (serTxWriteDev n v d).mem = d.mem ∧ (serTxWriteDev n v d).frame = d.frame ∧ (serTxWriteDev n v d).port = d.port ∧ (serTxWriteDev n v d).win = d.win ∧ (serTxWriteDev n v d).cnt = d.cnt ∧ (serTxWriteDev n v d).pwr = d.pwr ∧ (serTxWriteDev n v d).mgt = d.mgt ∧ (serTxWriteDev n v d).boot = d.boot ∧ (serTxWriteDev n v d).alm = d.alm ∧ (serTxWriteDev n v d).par = d.par ∧ (serTxWriteDev n v d).aud = d.aud ∧ (serTxWriteDev n v d).cal = d.cal ∧ (serTxWriteDev n v d).mix = d.mix ∧ (serTxWriteDev n v d).outs = d.outs ∧ (serTxWriteDev n v d).tdm = d.tdm ∧ (serTxWriteDev n v d).cas = d.cas := by
  simp -implicitDefEqProofs [serTxWriteDev]

@[simp] theorem characterSentDev_keeps (n : Nat) (d : Dev) :
    (characterSentDev n d).regs = d.regs ∧ (characterSentDev n d).fresh = d.fresh ∧ (characterSentDev n d).mem = d.mem ∧ (characterSentDev n d).frame = d.frame ∧ (characterSentDev n d).port = d.port ∧ (characterSentDev n d).win = d.win ∧ (characterSentDev n d).cnt = d.cnt ∧ (characterSentDev n d).pwr = d.pwr ∧ (characterSentDev n d).mgt = d.mgt ∧ (characterSentDev n d).boot = d.boot ∧ (characterSentDev n d).alm = d.alm ∧ (characterSentDev n d).par = d.par ∧ (characterSentDev n d).aud = d.aud ∧ (characterSentDev n d).cal = d.cal ∧ (characterSentDev n d).mix = d.mix ∧ (characterSentDev n d).outs = d.outs ∧ (characterSentDev n d).tdm = d.tdm ∧ (characterSentDev n d).cas = d.cas := by
  simp -implicitDefEqProofs [characterSentDev]

@[simp] theorem txBreakSet_keeps (n : Nat) (on : Bool) (d : Dev) :
    (txBreakSet n on d).regs = d.regs ∧ (txBreakSet n on d).fresh = d.fresh ∧ (txBreakSet n on d).mem = d.mem ∧ (txBreakSet n on d).frame = d.frame ∧ (txBreakSet n on d).port = d.port ∧ (txBreakSet n on d).win = d.win ∧ (txBreakSet n on d).cnt = d.cnt ∧ (txBreakSet n on d).pwr = d.pwr ∧ (txBreakSet n on d).mgt = d.mgt ∧ (txBreakSet n on d).boot = d.boot ∧ (txBreakSet n on d).alm = d.alm ∧ (txBreakSet n on d).par = d.par ∧ (txBreakSet n on d).aud = d.aud ∧ (txBreakSet n on d).cal = d.cal ∧ (txBreakSet n on d).mix = d.mix ∧ (txBreakSet n on d).outs = d.outs ∧ (txBreakSet n on d).tdm = d.tdm ∧ (txBreakSet n on d).cas = d.cas := by
  simp -implicitDefEqProofs [txBreakSet]

@[simp] theorem serReject_keeps (d : Dev) :
    (serReject d).fresh = d.fresh ∧ (serReject d).mem = d.mem ∧ (serReject d).frame = d.frame ∧ (serReject d).port = d.port ∧ (serReject d).win = d.win ∧ (serReject d).cnt = d.cnt ∧ (serReject d).pwr = d.pwr ∧ (serReject d).mgt = d.mgt ∧ (serReject d).boot = d.boot ∧ (serReject d).alm = d.alm ∧ (serReject d).par = d.par ∧ (serReject d).aud = d.aud ∧ (serReject d).cal = d.cal ∧ (serReject d).mix = d.mix ∧ (serReject d).outs = d.outs ∧ (serReject d).tdm = d.tdm ∧ (serReject d).ser = d.ser ∧ (serReject d).cas = d.cas := by
  simp -implicitDefEqProofs [serReject]

@[simp] theorem rxAbandon_keeps (n : Nat) (d : Dev) :
    (rxAbandon n d).regs = d.regs ∧ (rxAbandon n d).fresh = d.fresh ∧ (rxAbandon n d).mem = d.mem ∧ (rxAbandon n d).frame = d.frame ∧ (rxAbandon n d).port = d.port ∧ (rxAbandon n d).win = d.win ∧ (rxAbandon n d).cnt = d.cnt ∧ (rxAbandon n d).pwr = d.pwr ∧ (rxAbandon n d).mgt = d.mgt ∧ (rxAbandon n d).boot = d.boot ∧ (rxAbandon n d).alm = d.alm ∧ (rxAbandon n d).par = d.par ∧ (rxAbandon n d).aud = d.aud ∧ (rxAbandon n d).cal = d.cal ∧ (rxAbandon n d).mix = d.mix ∧ (rxAbandon n d).outs = d.outs ∧ (rxAbandon n d).tdm = d.tdm ∧ (rxAbandon n d).cas = d.cas := by
  simp -implicitDefEqProofs [rxAbandon]

@[simp] theorem serCtlWrite_keeps (n : Nat) (v : Word) (d : Dev) :
    (serCtlWrite n v d).fresh = d.fresh ∧ (serCtlWrite n v d).mem = d.mem ∧ (serCtlWrite n v d).frame = d.frame ∧ (serCtlWrite n v d).port = d.port ∧ (serCtlWrite n v d).win = d.win ∧ (serCtlWrite n v d).cnt = d.cnt ∧ (serCtlWrite n v d).pwr = d.pwr ∧ (serCtlWrite n v d).boot = d.boot ∧ (serCtlWrite n v d).alm = d.alm ∧ (serCtlWrite n v d).par = d.par ∧ (serCtlWrite n v d).aud = d.aud ∧ (serCtlWrite n v d).cal = d.cal ∧ (serCtlWrite n v d).mix = d.mix ∧ (serCtlWrite n v d).outs = d.outs ∧ (serCtlWrite n v d).tdm = d.tdm ∧ (serCtlWrite n v d).cas = d.cas := by
  simp -implicitDefEqProofs [serCtlWrite]

@[simp] theorem modeChangeDev_keeps (n : Nat) (v : Word) (d : Dev) :
    (modeChangeDev n v d).fresh = d.fresh ∧ (modeChangeDev n v d).mem = d.mem ∧ (modeChangeDev n v d).frame = d.frame ∧ (modeChangeDev n v d).port = d.port ∧ (modeChangeDev n v d).win = d.win ∧ (modeChangeDev n v d).cnt = d.cnt ∧ (modeChangeDev n v d).pwr = d.pwr ∧ (modeChangeDev n v d).boot = d.boot ∧ (modeChangeDev n v d).alm = d.alm ∧ (modeChangeDev n v d).par = d.par ∧ (modeChangeDev n v d).aud = d.aud ∧ (modeChangeDev n v d).cal = d.cal ∧ (modeChangeDev n v d).mix = d.mix ∧ (modeChangeDev n v d).outs = d.outs ∧ (modeChangeDev n v d).tdm = d.tdm ∧ (modeChangeDev n v d).cas = d.cas := by
  simp -implicitDefEqProofs [modeChangeDev]

@[simp] theorem rxFlushDev_keeps (n : Nat) (v : Word) (d : Dev) :
    (rxFlushDev n v d).fresh = d.fresh ∧ (rxFlushDev n v d).mem = d.mem ∧ (rxFlushDev n v d).frame = d.frame ∧ (rxFlushDev n v d).port = d.port ∧ (rxFlushDev n v d).win = d.win ∧ (rxFlushDev n v d).cnt = d.cnt ∧ (rxFlushDev n v d).pwr = d.pwr ∧ (rxFlushDev n v d).boot = d.boot ∧ (rxFlushDev n v d).alm = d.alm ∧ (rxFlushDev n v d).par = d.par ∧ (rxFlushDev n v d).aud = d.aud ∧ (rxFlushDev n v d).cal = d.cal ∧ (rxFlushDev n v d).mix = d.mix ∧ (rxFlushDev n v d).outs = d.outs ∧ (rxFlushDev n v d).tdm = d.tdm ∧ (rxFlushDev n v d).cas = d.cas := by
  simp -implicitDefEqProofs [rxFlushDev]

@[simp] theorem txFlushDev_keeps (n : Nat) (v : Word) (d : Dev) :
    (txFlushDev n v d).fresh = d.fresh ∧ (txFlushDev n v d).mem = d.mem ∧ (txFlushDev n v d).frame = d.frame ∧ (txFlushDev n v d).port = d.port ∧ (txFlushDev n v d).win = d.win ∧ (txFlushDev n v d).cnt = d.cnt ∧ (txFlushDev n v d).pwr = d.pwr ∧ (txFlushDev n v d).boot = d.boot ∧ (txFlushDev n v d).alm = d.alm ∧ (txFlushDev n v d).par = d.par ∧ (txFlushDev n v d).aud = d.aud ∧ (txFlushDev n v d).cal = d.cal ∧ (txFlushDev n v d).mix = d.mix ∧ (txFlushDev n v d).outs = d.outs ∧ (txFlushDev n v d).tdm = d.tdm ∧ (txFlushDev n v d).cas = d.cas := by
  simp -implicitDefEqProofs [txFlushDev]

@[simp] theorem txBreakDev_keeps (n : Nat) (v : Word) (d : Dev) :
    (txBreakDev n v d).fresh = d.fresh ∧ (txBreakDev n v d).mem = d.mem ∧ (txBreakDev n v d).frame = d.frame ∧ (txBreakDev n v d).port = d.port ∧ (txBreakDev n v d).win = d.win ∧ (txBreakDev n v d).cnt = d.cnt ∧ (txBreakDev n v d).pwr = d.pwr ∧ (txBreakDev n v d).boot = d.boot ∧ (txBreakDev n v d).alm = d.alm ∧ (txBreakDev n v d).par = d.par ∧ (txBreakDev n v d).aud = d.aud ∧ (txBreakDev n v d).cal = d.cal ∧ (txBreakDev n v d).mix = d.mix ∧ (txBreakDev n v d).outs = d.outs ∧ (txBreakDev n v d).tdm = d.tdm ∧ (txBreakDev n v d).cas = d.cas := by
  simp -implicitDefEqProofs [txBreakDev]

@[simp] theorem txBreakClearDev_keeps (n : Nat) (v : Word) (d : Dev) :
    (txBreakClearDev n v d).fresh = d.fresh ∧ (txBreakClearDev n v d).mem = d.mem ∧ (txBreakClearDev n v d).frame = d.frame ∧ (txBreakClearDev n v d).port = d.port ∧ (txBreakClearDev n v d).win = d.win ∧ (txBreakClearDev n v d).cnt = d.cnt ∧ (txBreakClearDev n v d).pwr = d.pwr ∧ (txBreakClearDev n v d).boot = d.boot ∧ (txBreakClearDev n v d).alm = d.alm ∧ (txBreakClearDev n v d).par = d.par ∧ (txBreakClearDev n v d).aud = d.aud ∧ (txBreakClearDev n v d).cal = d.cal ∧ (txBreakClearDev n v d).mix = d.mix ∧ (txBreakClearDev n v d).outs = d.outs ∧ (txBreakClearDev n v d).tdm = d.tdm ∧ (txBreakClearDev n v d).cas = d.cas := by
  simp -implicitDefEqProofs [txBreakClearDev]

@[simp] theorem divWriteDev_keeps (n : Nat) (v : Word) (d : Dev) :
    (divWriteDev n v d).fresh = d.fresh ∧ (divWriteDev n v d).mem = d.mem ∧ (divWriteDev n v d).frame = d.frame ∧ (divWriteDev n v d).port = d.port ∧ (divWriteDev n v d).win = d.win ∧ (divWriteDev n v d).cnt = d.cnt ∧ (divWriteDev n v d).pwr = d.pwr ∧ (divWriteDev n v d).mgt = d.mgt ∧ (divWriteDev n v d).boot = d.boot ∧ (divWriteDev n v d).alm = d.alm ∧ (divWriteDev n v d).par = d.par ∧ (divWriteDev n v d).aud = d.aud ∧ (divWriteDev n v d).cal = d.cal ∧ (divWriteDev n v d).mix = d.mix ∧ (divWriteDev n v d).outs = d.outs ∧ (divWriteDev n v d).tdm = d.tdm ∧ (divWriteDev n v d).cas = d.cas := by
  simp -implicitDefEqProofs [divWriteDev]

@[simp] theorem startBitDev_keeps (n : Nat) (low level : Bool) (width : Nat) (d : Dev) :
    (startBitDev n low level width d).regs = d.regs ∧ (startBitDev n low level width d).fresh = d.fresh ∧ (startBitDev n low level width d).mem = d.mem ∧ (startBitDev n low level width d).frame = d.frame ∧ (startBitDev n low level width d).port = d.port ∧ (startBitDev n low level width d).win = d.win ∧ (startBitDev n low level width d).cnt = d.cnt ∧ (startBitDev n low level width d).pwr = d.pwr ∧ (startBitDev n low level width d).mgt = d.mgt ∧ (startBitDev n low level width d).boot = d.boot ∧ (startBitDev n low level width d).alm = d.alm ∧ (startBitDev n low level width d).par = d.par ∧ (startBitDev n low level width d).aud = d.aud ∧ (startBitDev n low level width d).cal = d.cal ∧ (startBitDev n low level width d).mix = d.mix ∧ (startBitDev n low level width d).outs = d.outs ∧ (startBitDev n low level width d).tdm = d.tdm ∧ (startBitDev n low level width d).cas = d.cas := by
  simp -implicitDefEqProofs [startBitDev]

@[simp] theorem rxStore_keeps (n : Nat) (e : RxEntry) (d : Dev) :
    (rxStore n e d).fresh = d.fresh ∧ (rxStore n e d).mem = d.mem ∧ (rxStore n e d).frame = d.frame ∧ (rxStore n e d).port = d.port ∧ (rxStore n e d).win = d.win ∧ (rxStore n e d).cnt = d.cnt ∧ (rxStore n e d).pwr = d.pwr ∧ (rxStore n e d).mgt = d.mgt ∧ (rxStore n e d).boot = d.boot ∧ (rxStore n e d).alm = d.alm ∧ (rxStore n e d).par = d.par ∧ (rxStore n e d).aud = d.aud ∧ (rxStore n e d).cal = d.cal ∧ (rxStore n e d).mix = d.mix ∧ (rxStore n e d).outs = d.outs ∧ (rxStore n e d).tdm = d.tdm ∧ (rxStore n e d).cas = d.cas := by
  simp -implicitDefEqProofs [rxStore]

@[simp] theorem rtPulse_keeps (n : Nat) (b : Byte) (d : Dev) :
    (rtPulse n b d).regs = d.regs ∧ (rtPulse n b d).fresh = d.fresh ∧ (rtPulse n b d).mem = d.mem ∧ (rtPulse n b d).frame = d.frame ∧ (rtPulse n b d).port = d.port ∧ (rtPulse n b d).win = d.win ∧ (rtPulse n b d).pwr = d.pwr ∧ (rtPulse n b d).mgt = d.mgt ∧ (rtPulse n b d).boot = d.boot ∧ (rtPulse n b d).alm = d.alm ∧ (rtPulse n b d).par = d.par ∧ (rtPulse n b d).aud = d.aud ∧ (rtPulse n b d).cal = d.cal ∧ (rtPulse n b d).mix = d.mix ∧ (rtPulse n b d).outs = d.outs ∧ (rtPulse n b d).tdm = d.tdm ∧ (rtPulse n b d).ser = d.ser ∧ (rtPulse n b d).cas = d.cas := by
  unfold rtPulse; refine ⟨?_, ?_, ?_, ?_, ?_, ?_, ?_, ?_, ?_, ?_, ?_, ?_, ?_, ?_, ?_, ?_, ?_, ?_⟩ <;> (repeat' split) <;> simp -implicitDefEqProofs

@[simp] theorem thruCopies_keeps (n : Nat) (b : Byte) (d : Dev) :
    (thruCopies n b d).fresh = d.fresh ∧ (thruCopies n b d).mem = d.mem ∧ (thruCopies n b d).frame = d.frame ∧ (thruCopies n b d).port = d.port ∧ (thruCopies n b d).win = d.win ∧ (thruCopies n b d).cnt = d.cnt ∧ (thruCopies n b d).pwr = d.pwr ∧ (thruCopies n b d).mgt = d.mgt ∧ (thruCopies n b d).boot = d.boot ∧ (thruCopies n b d).alm = d.alm ∧ (thruCopies n b d).par = d.par ∧ (thruCopies n b d).aud = d.aud ∧ (thruCopies n b d).cal = d.cal ∧ (thruCopies n b d).mix = d.mix ∧ (thruCopies n b d).outs = d.outs ∧ (thruCopies n b d).tdm = d.tdm ∧ (thruCopies n b d).cas = d.cas := by
  simp -implicitDefEqProofs [thruCopies]

@[simp] theorem framingError_keeps (n : Nat) (b : Byte) (parity pe : Bool) (d : Dev) :
    (framingError n b parity pe d).fresh = d.fresh ∧ (framingError n b parity pe d).mem = d.mem ∧ (framingError n b parity pe d).frame = d.frame ∧ (framingError n b parity pe d).port = d.port ∧ (framingError n b parity pe d).win = d.win ∧ (framingError n b parity pe d).cnt = d.cnt ∧ (framingError n b parity pe d).pwr = d.pwr ∧ (framingError n b parity pe d).boot = d.boot ∧ (framingError n b parity pe d).alm = d.alm ∧ (framingError n b parity pe d).par = d.par ∧ (framingError n b parity pe d).aud = d.aud ∧ (framingError n b parity pe d).cal = d.cal ∧ (framingError n b parity pe d).mix = d.mix ∧ (framingError n b parity pe d).outs = d.outs ∧ (framingError n b parity pe d).tdm = d.tdm ∧ (framingError n b parity pe d).cas = d.cas := by
  simp -implicitDefEqProofs [framingError]

@[simp] theorem characterReceivedDev_keeps (n : Nat) (data : Byte) (parity stop : Bool) (d : Dev) :
    (characterReceivedDev n data parity stop d).fresh = d.fresh ∧ (characterReceivedDev n data parity stop d).mem = d.mem ∧ (characterReceivedDev n data parity stop d).frame = d.frame ∧ (characterReceivedDev n data parity stop d).port = d.port ∧ (characterReceivedDev n data parity stop d).win = d.win ∧ (characterReceivedDev n data parity stop d).pwr = d.pwr ∧ (characterReceivedDev n data parity stop d).boot = d.boot ∧ (characterReceivedDev n data parity stop d).alm = d.alm ∧ (characterReceivedDev n data parity stop d).par = d.par ∧ (characterReceivedDev n data parity stop d).aud = d.aud ∧ (characterReceivedDev n data parity stop d).cal = d.cal ∧ (characterReceivedDev n data parity stop d).mix = d.mix ∧ (characterReceivedDev n data parity stop d).outs = d.outs ∧ (characterReceivedDev n data parity stop d).tdm = d.tdm ∧ (characterReceivedDev n data parity stop d).cas = d.cas := by
  simp -implicitDefEqProofs [characterReceivedDev]

@[simp] theorem receiverRearmDev_keeps (n : Nat) (d : Dev) :
    (receiverRearmDev n d).regs = d.regs ∧ (receiverRearmDev n d).fresh = d.fresh ∧ (receiverRearmDev n d).mem = d.mem ∧ (receiverRearmDev n d).frame = d.frame ∧ (receiverRearmDev n d).port = d.port ∧ (receiverRearmDev n d).win = d.win ∧ (receiverRearmDev n d).cnt = d.cnt ∧ (receiverRearmDev n d).pwr = d.pwr ∧ (receiverRearmDev n d).mgt = d.mgt ∧ (receiverRearmDev n d).boot = d.boot ∧ (receiverRearmDev n d).alm = d.alm ∧ (receiverRearmDev n d).par = d.par ∧ (receiverRearmDev n d).aud = d.aud ∧ (receiverRearmDev n d).cal = d.cal ∧ (receiverRearmDev n d).mix = d.mix ∧ (receiverRearmDev n d).outs = d.outs ∧ (receiverRearmDev n d).tdm = d.tdm ∧ (receiverRearmDev n d).cas = d.cas := by
  simp -implicitDefEqProofs [receiverRearmDev]

@[simp] theorem breakDev_keeps (n : Nat) (d : Dev) :
    (breakDev n d).fresh = d.fresh ∧ (breakDev n d).mem = d.mem ∧ (breakDev n d).frame = d.frame ∧ (breakDev n d).port = d.port ∧ (breakDev n d).win = d.win ∧ (breakDev n d).cnt = d.cnt ∧ (breakDev n d).pwr = d.pwr ∧ (breakDev n d).boot = d.boot ∧ (breakDev n d).alm = d.alm ∧ (breakDev n d).par = d.par ∧ (breakDev n d).aud = d.aud ∧ (breakDev n d).cal = d.cal ∧ (breakDev n d).mix = d.mix ∧ (breakDev n d).outs = d.outs ∧ (breakDev n d).tdm = d.tdm ∧ (breakDev n d).cas = d.cas := by
  simp -implicitDefEqProofs [breakDev]

@[simp] theorem detArm_keeps (n : Nat) (armed : Bool) (d : Dev) :
    (detArm n armed d).regs = d.regs ∧ (detArm n armed d).fresh = d.fresh ∧ (detArm n armed d).mem = d.mem ∧ (detArm n armed d).frame = d.frame ∧ (detArm n armed d).port = d.port ∧ (detArm n armed d).win = d.win ∧ (detArm n armed d).cnt = d.cnt ∧ (detArm n armed d).mgt = d.mgt ∧ (detArm n armed d).boot = d.boot ∧ (detArm n armed d).alm = d.alm ∧ (detArm n armed d).par = d.par ∧ (detArm n armed d).aud = d.aud ∧ (detArm n armed d).cal = d.cal ∧ (detArm n armed d).mix = d.mix ∧ (detArm n armed d).outs = d.outs ∧ (detArm n armed d).tdm = d.tdm ∧ (detArm n armed d).ser = d.ser ∧ (detArm n armed d).cas = d.cas := by
  simp -implicitDefEqProofs [detArm]

@[simp] theorem lineDeadDev_keeps (n : Nat) (d : Dev) :
    (lineDeadDev n d).fresh = d.fresh ∧ (lineDeadDev n d).mem = d.mem ∧ (lineDeadDev n d).frame = d.frame ∧ (lineDeadDev n d).port = d.port ∧ (lineDeadDev n d).win = d.win ∧ (lineDeadDev n d).cnt = d.cnt ∧ (lineDeadDev n d).boot = d.boot ∧ (lineDeadDev n d).alm = d.alm ∧ (lineDeadDev n d).par = d.par ∧ (lineDeadDev n d).aud = d.aud ∧ (lineDeadDev n d).cal = d.cal ∧ (lineDeadDev n d).mix = d.mix ∧ (lineDeadDev n d).outs = d.outs ∧ (lineDeadDev n d).tdm = d.tdm ∧ (lineDeadDev n d).cas = d.cas := by
  unfold lineDeadDev; refine ⟨?_, ?_, ?_, ?_, ?_, ?_, ?_, ?_, ?_, ?_, ?_, ?_, ?_, ?_, ?_⟩ <;> (repeat' split) <;> simp -implicitDefEqProofs

@[simp] theorem lineRecoverDev_keeps (n : Nat) (d : Dev) :
    (lineRecoverDev n d).regs = d.regs ∧ (lineRecoverDev n d).fresh = d.fresh ∧ (lineRecoverDev n d).mem = d.mem ∧ (lineRecoverDev n d).frame = d.frame ∧ (lineRecoverDev n d).port = d.port ∧ (lineRecoverDev n d).win = d.win ∧ (lineRecoverDev n d).cnt = d.cnt ∧ (lineRecoverDev n d).mgt = d.mgt ∧ (lineRecoverDev n d).boot = d.boot ∧ (lineRecoverDev n d).alm = d.alm ∧ (lineRecoverDev n d).par = d.par ∧ (lineRecoverDev n d).aud = d.aud ∧ (lineRecoverDev n d).cal = d.cal ∧ (lineRecoverDev n d).mix = d.mix ∧ (lineRecoverDev n d).outs = d.outs ∧ (lineRecoverDev n d).tdm = d.tdm ∧ (lineRecoverDev n d).cas = d.cas := by
  simp -implicitDefEqProofs [lineRecoverDev]

@[simp] theorem serRxReadDev_keeps (n : Nat) (d : Dev) :
    (serRxReadDev n d).regs = d.regs ∧ (serRxReadDev n d).fresh = d.fresh ∧ (serRxReadDev n d).mem = d.mem ∧ (serRxReadDev n d).frame = d.frame ∧ (serRxReadDev n d).port = d.port ∧ (serRxReadDev n d).win = d.win ∧ (serRxReadDev n d).cnt = d.cnt ∧ (serRxReadDev n d).pwr = d.pwr ∧ (serRxReadDev n d).mgt = d.mgt ∧ (serRxReadDev n d).boot = d.boot ∧ (serRxReadDev n d).alm = d.alm ∧ (serRxReadDev n d).par = d.par ∧ (serRxReadDev n d).aud = d.aud ∧ (serRxReadDev n d).cal = d.cal ∧ (serRxReadDev n d).mix = d.mix ∧ (serRxReadDev n d).outs = d.outs ∧ (serRxReadDev n d).tdm = d.tdm ∧ (serRxReadDev n d).cas = d.cas := by
  simp -implicitDefEqProofs [serRxReadDev]

@[simp] theorem offerHeld_keeps (n : Nat) (d : Dev) :
    (offerHeld n d).mem = d.mem ∧ (offerHeld n d).frame = d.frame ∧ (offerHeld n d).port = d.port ∧ (offerHeld n d).win = d.win ∧ (offerHeld n d).pwr = d.pwr ∧ (offerHeld n d).mgt = d.mgt ∧ (offerHeld n d).boot = d.boot ∧ (offerHeld n d).par = d.par ∧ (offerHeld n d).aud = d.aud ∧ (offerHeld n d).cal = d.cal ∧ (offerHeld n d).mix = d.mix ∧ (offerHeld n d).outs = d.outs ∧ (offerHeld n d).tdm = d.tdm ∧ (offerHeld n d).cas = d.cas := by
  refine ⟨?_, ?_, ?_, ?_, ?_, ?_, ?_, ?_, ?_, ?_, ?_, ?_, ?_, ?_⟩ <;> (unfold offerHeld; dsimp only; repeat' split) <;> simp -implicitDefEqProofs

@[simp] theorem earlierReleases_keeps (n : Nat) (d : Dev) :
    (earlierReleases n d).mem = d.mem ∧ (earlierReleases n d).frame = d.frame ∧ (earlierReleases n d).port = d.port ∧ (earlierReleases n d).win = d.win ∧ (earlierReleases n d).pwr = d.pwr ∧ (earlierReleases n d).mgt = d.mgt ∧ (earlierReleases n d).boot = d.boot ∧ (earlierReleases n d).par = d.par ∧ (earlierReleases n d).aud = d.aud ∧ (earlierReleases n d).cal = d.cal ∧ (earlierReleases n d).mix = d.mix ∧ (earlierReleases n d).outs = d.outs ∧ (earlierReleases n d).tdm = d.tdm ∧ (earlierReleases n d).cas = d.cas := by
  simp -implicitDefEqProofs [earlierReleases]

@[simp] theorem parserTask_keeps (n : Nat) (f : List Nat) (d : Dev) :
    (parserTask n f d).mem = d.mem ∧ (parserTask n f d).frame = d.frame ∧ (parserTask n f d).port = d.port ∧ (parserTask n f d).win = d.win ∧ (parserTask n f d).pwr = d.pwr ∧ (parserTask n f d).mgt = d.mgt ∧ (parserTask n f d).boot = d.boot ∧ (parserTask n f d).par = d.par ∧ (parserTask n f d).aud = d.aud ∧ (parserTask n f d).cal = d.cal ∧ (parserTask n f d).mix = d.mix ∧ (parserTask n f d).outs = d.outs ∧ (parserTask n f d).tdm = d.tdm ∧ (parserTask n f d).cas = d.cas := by
  simp -implicitDefEqProofs [parserTask]

@[simp] theorem parserIgnores_keeps (n : Nat) (d : Dev) :
    (parserIgnores n d).fresh = d.fresh ∧ (parserIgnores n d).mem = d.mem ∧ (parserIgnores n d).frame = d.frame ∧ (parserIgnores n d).port = d.port ∧ (parserIgnores n d).win = d.win ∧ (parserIgnores n d).cnt = d.cnt ∧ (parserIgnores n d).pwr = d.pwr ∧ (parserIgnores n d).mgt = d.mgt ∧ (parserIgnores n d).boot = d.boot ∧ (parserIgnores n d).alm = d.alm ∧ (parserIgnores n d).par = d.par ∧ (parserIgnores n d).aud = d.aud ∧ (parserIgnores n d).cal = d.cal ∧ (parserIgnores n d).mix = d.mix ∧ (parserIgnores n d).outs = d.outs ∧ (parserIgnores n d).tdm = d.tdm ∧ (parserIgnores n d).ser = d.ser ∧ (parserIgnores n d).cas = d.cas := by
  simp -implicitDefEqProofs [parserIgnores]

@[simp] theorem parserData_keeps (n b : Nat) (d : Dev) :
    (parserData n b d).mem = d.mem ∧ (parserData n b d).frame = d.frame ∧ (parserData n b d).port = d.port ∧ (parserData n b d).win = d.win ∧ (parserData n b d).pwr = d.pwr ∧ (parserData n b d).mgt = d.mgt ∧ (parserData n b d).boot = d.boot ∧ (parserData n b d).par = d.par ∧ (parserData n b d).aud = d.aud ∧ (parserData n b d).cal = d.cal ∧ (parserData n b d).mix = d.mix ∧ (parserData n b d).outs = d.outs ∧ (parserData n b d).tdm = d.tdm ∧ (parserData n b d).cas = d.cas := by
  simp -implicitDefEqProofs [parserData]

@[simp] theorem sysexStart_keeps (n ef : Nat) (d : Dev) :
    (sysexStart n ef d).fresh = d.fresh ∧ (sysexStart n ef d).frame = d.frame ∧ (sysexStart n ef d).port = d.port ∧ (sysexStart n ef d).win = d.win ∧ (sysexStart n ef d).cnt = d.cnt ∧ (sysexStart n ef d).pwr = d.pwr ∧ (sysexStart n ef d).boot = d.boot ∧ (sysexStart n ef d).alm = d.alm ∧ (sysexStart n ef d).par = d.par ∧ (sysexStart n ef d).aud = d.aud ∧ (sysexStart n ef d).cal = d.cal ∧ (sysexStart n ef d).mix = d.mix ∧ (sysexStart n ef d).outs = d.outs ∧ (sysexStart n ef d).tdm = d.tdm ∧ (sysexStart n ef d).cas = d.cas := by
  refine ⟨?_, ?_, ?_, ?_, ?_, ?_, ?_, ?_, ?_, ?_, ?_, ?_, ?_, ?_, ?_⟩ <;> (unfold sysexStart; dsimp only; repeat' split) <;> simp -implicitDefEqProofs

@[simp] theorem sysexOther_keeps (n buf : Nat) (ignore : Bool) (d : Dev) :
    (sysexOther n buf ignore d).fresh = d.fresh ∧ (sysexOther n buf ignore d).mem = d.mem ∧ (sysexOther n buf ignore d).frame = d.frame ∧ (sysexOther n buf ignore d).port = d.port ∧ (sysexOther n buf ignore d).win = d.win ∧ (sysexOther n buf ignore d).cnt = d.cnt ∧ (sysexOther n buf ignore d).pwr = d.pwr ∧ (sysexOther n buf ignore d).mgt = d.mgt ∧ (sysexOther n buf ignore d).boot = d.boot ∧ (sysexOther n buf ignore d).alm = d.alm ∧ (sysexOther n buf ignore d).par = d.par ∧ (sysexOther n buf ignore d).aud = d.aud ∧ (sysexOther n buf ignore d).cal = d.cal ∧ (sysexOther n buf ignore d).mix = d.mix ∧ (sysexOther n buf ignore d).outs = d.outs ∧ (sysexOther n buf ignore d).tdm = d.tdm ∧ (sysexOther n buf ignore d).cas = d.cas := by
  unfold sysexOther; refine ⟨?_, ?_, ?_, ?_, ?_, ?_, ?_, ?_, ?_, ?_, ?_, ?_, ?_, ?_, ?_, ?_, ?_⟩ <;> (repeat' split) <;> simp -implicitDefEqProofs

@[simp] theorem sysexPut_keeps (buf k b : Nat) (d : Dev) :
    (sysexPut buf k b d).regs = d.regs ∧ (sysexPut buf k b d).fresh = d.fresh ∧ (sysexPut buf k b d).frame = d.frame ∧ (sysexPut buf k b d).port = d.port ∧ (sysexPut buf k b d).win = d.win ∧ (sysexPut buf k b d).cnt = d.cnt ∧ (sysexPut buf k b d).pwr = d.pwr ∧ (sysexPut buf k b d).mgt = d.mgt ∧ (sysexPut buf k b d).boot = d.boot ∧ (sysexPut buf k b d).alm = d.alm ∧ (sysexPut buf k b d).par = d.par ∧ (sysexPut buf k b d).aud = d.aud ∧ (sysexPut buf k b d).cal = d.cal ∧ (sysexPut buf k b d).mix = d.mix ∧ (sysexPut buf k b d).outs = d.outs ∧ (sysexPut buf k b d).tdm = d.tdm ∧ (sysexPut buf k b d).ser = d.ser ∧ (sysexPut buf k b d).cas = d.cas := by
  simp -implicitDefEqProofs [sysexPut]

@[simp] theorem sysexData_keeps (n b ef : Nat) (x : SysEx) (d : Dev) :
    (sysexData n b ef x d).fresh = d.fresh ∧ (sysexData n b ef x d).frame = d.frame ∧ (sysexData n b ef x d).port = d.port ∧ (sysexData n b ef x d).win = d.win ∧ (sysexData n b ef x d).cnt = d.cnt ∧ (sysexData n b ef x d).pwr = d.pwr ∧ (sysexData n b ef x d).boot = d.boot ∧ (sysexData n b ef x d).alm = d.alm ∧ (sysexData n b ef x d).par = d.par ∧ (sysexData n b ef x d).aud = d.aud ∧ (sysexData n b ef x d).cal = d.cal ∧ (sysexData n b ef x d).mix = d.mix ∧ (sysexData n b ef x d).outs = d.outs ∧ (sysexData n b ef x d).tdm = d.tdm ∧ (sysexData n b ef x d).cas = d.cas := by
  refine ⟨?_, ?_, ?_, ?_, ?_, ?_, ?_, ?_, ?_, ?_, ?_, ?_, ?_, ?_, ?_⟩ <;> (unfold sysexData; dsimp only; repeat' split) <;> simp -implicitDefEqProofs

@[simp] theorem sysexEnd_keeps (n : Nat) (x : SysEx) (d : Dev) :
    (sysexEnd n x d).frame = d.frame ∧ (sysexEnd n x d).port = d.port ∧ (sysexEnd n x d).win = d.win ∧ (sysexEnd n x d).pwr = d.pwr ∧ (sysexEnd n x d).boot = d.boot ∧ (sysexEnd n x d).par = d.par ∧ (sysexEnd n x d).aud = d.aud ∧ (sysexEnd n x d).cal = d.cal ∧ (sysexEnd n x d).mix = d.mix ∧ (sysexEnd n x d).outs = d.outs ∧ (sysexEnd n x d).tdm = d.tdm ∧ (sysexEnd n x d).cas = d.cas := by
  simp -implicitDefEqProofs [sysexEnd]

@[simp] theorem parserStatus_keeps (n b ef : Nat) (d : Dev) :
    (parserStatus n b ef d).fresh = d.fresh ∧ (parserStatus n b ef d).frame = d.frame ∧ (parserStatus n b ef d).port = d.port ∧ (parserStatus n b ef d).win = d.win ∧ (parserStatus n b ef d).cnt = d.cnt ∧ (parserStatus n b ef d).pwr = d.pwr ∧ (parserStatus n b ef d).boot = d.boot ∧ (parserStatus n b ef d).alm = d.alm ∧ (parserStatus n b ef d).par = d.par ∧ (parserStatus n b ef d).aud = d.aud ∧ (parserStatus n b ef d).cal = d.cal ∧ (parserStatus n b ef d).mix = d.mix ∧ (parserStatus n b ef d).outs = d.outs ∧ (parserStatus n b ef d).tdm = d.tdm ∧ (parserStatus n b ef d).cas = d.cas := by
  simp -implicitDefEqProofs [parserStatus]

@[simp] theorem parseByte_keeps (n b ef : Nat) (d : Dev) :
    (parseByte n b ef d).frame = d.frame ∧ (parseByte n b ef d).port = d.port ∧ (parseByte n b ef d).win = d.win ∧ (parseByte n b ef d).pwr = d.pwr ∧ (parseByte n b ef d).boot = d.boot ∧ (parseByte n b ef d).par = d.par ∧ (parseByte n b ef d).aud = d.aud ∧ (parseByte n b ef d).cal = d.cal ∧ (parseByte n b ef d).mix = d.mix ∧ (parseByte n b ef d).outs = d.outs ∧ (parseByte n b ef d).tdm = d.tdm ∧ (parseByte n b ef d).cas = d.cas := by
  unfold parseByte; refine ⟨?_, ?_, ?_, ?_, ?_, ?_, ?_, ?_, ?_, ?_, ?_, ?_⟩ <;> (repeat' split) <;> simp -implicitDefEqProofs

@[simp] theorem parserByteDev_keeps (n : Nat) (d : Dev) :
    (parserByteDev n d).frame = d.frame ∧ (parserByteDev n d).port = d.port ∧ (parserByteDev n d).win = d.win ∧ (parserByteDev n d).pwr = d.pwr ∧ (parserByteDev n d).boot = d.boot ∧ (parserByteDev n d).par = d.par ∧ (parserByteDev n d).aud = d.aud ∧ (parserByteDev n d).cal = d.cal ∧ (parserByteDev n d).mix = d.mix ∧ (parserByteDev n d).outs = d.outs ∧ (parserByteDev n d).tdm = d.tdm ∧ (parserByteDev n d).cas = d.cas := by
  refine ⟨?_, ?_, ?_, ?_, ?_, ?_, ?_, ?_, ?_, ?_, ?_, ?_⟩ <;> (unfold parserByteDev; dsimp only; repeat' split) <;> simp -implicitDefEqProofs

@[simp] theorem sysexGapTimeoutDev_keeps (n : Nat) (d : Dev) :
    (sysexGapTimeoutDev n d).fresh = d.fresh ∧ (sysexGapTimeoutDev n d).mem = d.mem ∧ (sysexGapTimeoutDev n d).frame = d.frame ∧ (sysexGapTimeoutDev n d).port = d.port ∧ (sysexGapTimeoutDev n d).win = d.win ∧ (sysexGapTimeoutDev n d).cnt = d.cnt ∧ (sysexGapTimeoutDev n d).pwr = d.pwr ∧ (sysexGapTimeoutDev n d).boot = d.boot ∧ (sysexGapTimeoutDev n d).alm = d.alm ∧ (sysexGapTimeoutDev n d).par = d.par ∧ (sysexGapTimeoutDev n d).aud = d.aud ∧ (sysexGapTimeoutDev n d).cal = d.cal ∧ (sysexGapTimeoutDev n d).mix = d.mix ∧ (sysexGapTimeoutDev n d).outs = d.outs ∧ (sysexGapTimeoutDev n d).tdm = d.tdm ∧ (sysexGapTimeoutDev n d).cas = d.cas := by
  unfold sysexGapTimeoutDev; refine ⟨?_, ?_, ?_, ?_, ?_, ?_, ?_, ?_, ?_, ?_, ?_, ?_, ?_, ?_, ?_, ?_⟩ <;> (repeat' split) <;> simp -implicitDefEqProofs

@[simp] theorem serWake_keeps (d : Dev) :
    (serWake d).regs = d.regs ∧ (serWake d).fresh = d.fresh ∧ (serWake d).mem = d.mem ∧ (serWake d).frame = d.frame ∧ (serWake d).port = d.port ∧ (serWake d).win = d.win ∧ (serWake d).cnt = d.cnt ∧ (serWake d).pwr = d.pwr ∧ (serWake d).mgt = d.mgt ∧ (serWake d).boot = d.boot ∧ (serWake d).alm = d.alm ∧ (serWake d).par = d.par ∧ (serWake d).aud = d.aud ∧ (serWake d).cal = d.cal ∧ (serWake d).mix = d.mix ∧ (serWake d).outs = d.outs ∧ (serWake d).tdm = d.tdm ∧ (serWake d).cas = d.cas := by
  simp -implicitDefEqProofs [serWake]

@[simp] theorem applyParts_fresh (pay : List Byte) (f : Nat → Dev → Dev) (d : Dev)
    (h : ∀ p e, (f p e).fresh = e.fresh) :
    (applyParts pay f d).1.fresh = d.fresh := by
  unfold applyParts; dsimp only; rw [forEach_fresh (h := h)]; simp -implicitDefEqProofs

@[simp] theorem applyParts_mem (pay : List Byte) (f : Nat → Dev → Dev) (d : Dev)
    (h : ∀ p e, (f p e).mem = e.mem) :
    (applyParts pay f d).1.mem = d.mem := by
  unfold applyParts; dsimp only; rw [forEach_mem (h := h)]; simp -implicitDefEqProofs

@[simp] theorem applyParts_frame (pay : List Byte) (f : Nat → Dev → Dev) (d : Dev)
    (h : ∀ p e, (f p e).frame = e.frame) :
    (applyParts pay f d).1.frame = d.frame := by
  unfold applyParts; dsimp only; rw [forEach_frame (h := h)]; simp -implicitDefEqProofs

@[simp] theorem applyParts_win (pay : List Byte) (f : Nat → Dev → Dev) (d : Dev)
    (h : ∀ p e, (f p e).win = e.win) :
    (applyParts pay f d).1.win = d.win := by
  unfold applyParts; dsimp only; rw [forEach_win (h := h)]; simp -implicitDefEqProofs

@[simp] theorem applyParts_cnt (pay : List Byte) (f : Nat → Dev → Dev) (d : Dev)
    (h : ∀ p e, (f p e).cnt = e.cnt) :
    (applyParts pay f d).1.cnt = d.cnt := by
  unfold applyParts; dsimp only; rw [forEach_cnt (h := h)]; simp -implicitDefEqProofs

@[simp] theorem applyParts_pwr (pay : List Byte) (f : Nat → Dev → Dev) (d : Dev)
    (h : ∀ p e, (f p e).pwr = e.pwr) :
    (applyParts pay f d).1.pwr = d.pwr := by
  unfold applyParts; dsimp only; rw [forEach_pwr (h := h)]; simp -implicitDefEqProofs

@[simp] theorem applyParts_mgt (pay : List Byte) (f : Nat → Dev → Dev) (d : Dev)
    (h : ∀ p e, (f p e).mgt = e.mgt) :
    (applyParts pay f d).1.mgt = d.mgt := by
  unfold applyParts; dsimp only; rw [forEach_mgt (h := h)]; simp -implicitDefEqProofs

@[simp] theorem applyParts_boot (pay : List Byte) (f : Nat → Dev → Dev) (d : Dev)
    (h : ∀ p e, (f p e).boot = e.boot) :
    (applyParts pay f d).1.boot = d.boot := by
  unfold applyParts; dsimp only; rw [forEach_boot (h := h)]; simp -implicitDefEqProofs

@[simp] theorem applyParts_alm (pay : List Byte) (f : Nat → Dev → Dev) (d : Dev)
    (h : ∀ p e, (f p e).alm = e.alm) :
    (applyParts pay f d).1.alm = d.alm := by
  unfold applyParts; dsimp only; rw [forEach_alm (h := h)]; simp -implicitDefEqProofs

@[simp] theorem applyParts_par (pay : List Byte) (f : Nat → Dev → Dev) (d : Dev)
    (h : ∀ p e, (f p e).par = e.par) :
    (applyParts pay f d).1.par = d.par := by
  unfold applyParts; dsimp only; rw [forEach_par (h := h)]; simp -implicitDefEqProofs

@[simp] theorem applyParts_aud (pay : List Byte) (f : Nat → Dev → Dev) (d : Dev)
    (h : ∀ p e, (f p e).aud = e.aud) :
    (applyParts pay f d).1.aud = d.aud := by
  unfold applyParts; dsimp only; rw [forEach_aud (h := h)]; simp -implicitDefEqProofs

@[simp] theorem applyParts_cal (pay : List Byte) (f : Nat → Dev → Dev) (d : Dev)
    (h : ∀ p e, (f p e).cal = e.cal) :
    (applyParts pay f d).1.cal = d.cal := by
  unfold applyParts; dsimp only; rw [forEach_cal (h := h)]; simp -implicitDefEqProofs

@[simp] theorem applyParts_mix (pay : List Byte) (f : Nat → Dev → Dev) (d : Dev)
    (h : ∀ p e, (f p e).mix = e.mix) :
    (applyParts pay f d).1.mix = d.mix := by
  unfold applyParts; dsimp only; rw [forEach_mix (h := h)]; simp -implicitDefEqProofs

@[simp] theorem applyParts_outs (pay : List Byte) (f : Nat → Dev → Dev) (d : Dev)
    (h : ∀ p e, (f p e).outs = e.outs) :
    (applyParts pay f d).1.outs = d.outs := by
  unfold applyParts; dsimp only; rw [forEach_outs (h := h)]; simp -implicitDefEqProofs

@[simp] theorem applyParts_tdm (pay : List Byte) (f : Nat → Dev → Dev) (d : Dev)
    (h : ∀ p e, (f p e).tdm = e.tdm) :
    (applyParts pay f d).1.tdm = d.tdm := by
  unfold applyParts; dsimp only; rw [forEach_tdm (h := h)]; simp -implicitDefEqProofs

@[simp] theorem applyParts_ser (pay : List Byte) (f : Nat → Dev → Dev) (d : Dev)
    (h : ∀ p e, (f p e).ser = e.ser) :
    (applyParts pay f d).1.ser = d.ser := by
  unfold applyParts; dsimp only; rw [forEach_ser (h := h)]; simp -implicitDefEqProofs

@[simp] theorem applyParts_cas (pay : List Byte) (f : Nat → Dev → Dev) (d : Dev)
    (h : ∀ p e, (f p e).cas = e.cas) :
    (applyParts pay f d).1.cas = d.cas := by
  unfold applyParts; dsimp only; rw [forEach_cas (h := h)]; simp -implicitDefEqProofs

@[simp] theorem midiCommit_frame (i : Nat) (kind : Task → Bool) (f : List Byte → Nat → Dev → Dev) (d : Dev)
    (h : ∀ pay p e, (f pay p e).frame = e.frame) :
    (midiCommit i kind f d).frame = d.frame := by
  unfold midiCommit; exact commitWith_frame _ _ _ _ (fun t e => applyParts_frame _ _ _ (fun p e => h _ p e))

@[simp] theorem midiCommit_win (i : Nat) (kind : Task → Bool) (f : List Byte → Nat → Dev → Dev) (d : Dev)
    (h : ∀ pay p e, (f pay p e).win = e.win) :
    (midiCommit i kind f d).win = d.win := by
  unfold midiCommit; exact commitWith_win _ _ _ _ (fun t e => applyParts_win _ _ _ (fun p e => h _ p e))

@[simp] theorem midiCommit_pwr (i : Nat) (kind : Task → Bool) (f : List Byte → Nat → Dev → Dev) (d : Dev)
    (h : ∀ pay p e, (f pay p e).pwr = e.pwr) :
    (midiCommit i kind f d).pwr = d.pwr := by
  unfold midiCommit; exact commitWith_pwr _ _ _ _ (fun t e => applyParts_pwr _ _ _ (fun p e => h _ p e))

@[simp] theorem midiCommit_mgt (i : Nat) (kind : Task → Bool) (f : List Byte → Nat → Dev → Dev) (d : Dev)
    (h : ∀ pay p e, (f pay p e).mgt = e.mgt) :
    (midiCommit i kind f d).mgt = d.mgt := by
  unfold midiCommit; exact commitWith_mgt _ _ _ _ (fun t e => applyParts_mgt _ _ _ (fun p e => h _ p e))

@[simp] theorem midiCommit_boot (i : Nat) (kind : Task → Bool) (f : List Byte → Nat → Dev → Dev) (d : Dev)
    (h : ∀ pay p e, (f pay p e).boot = e.boot) :
    (midiCommit i kind f d).boot = d.boot := by
  unfold midiCommit; exact commitWith_boot _ _ _ _ (fun t e => applyParts_boot _ _ _ (fun p e => h _ p e))

@[simp] theorem midiCommit_mix (i : Nat) (kind : Task → Bool) (f : List Byte → Nat → Dev → Dev) (d : Dev)
    (h : ∀ pay p e, (f pay p e).mix = e.mix) :
    (midiCommit i kind f d).mix = d.mix := by
  unfold midiCommit; exact commitWith_mix _ _ _ _ (fun t e => applyParts_mix _ _ _ (fun p e => h _ p e))

@[simp] theorem midiCommit_outs (i : Nat) (kind : Task → Bool) (f : List Byte → Nat → Dev → Dev) (d : Dev)
    (h : ∀ pay p e, (f pay p e).outs = e.outs) :
    (midiCommit i kind f d).outs = d.outs := by
  unfold midiCommit; exact commitWith_outs _ _ _ _ (fun t e => applyParts_outs _ _ _ (fun p e => h _ p e))

@[simp] theorem midiCommit_tdm (i : Nat) (kind : Task → Bool) (f : List Byte → Nat → Dev → Dev) (d : Dev)
    (h : ∀ pay p e, (f pay p e).tdm = e.tdm) :
    (midiCommit i kind f d).tdm = d.tdm := by
  unfold midiCommit; exact commitWith_tdm _ _ _ _ (fun t e => applyParts_tdm _ _ _ (fun p e => h _ p e))

@[simp] theorem midiCommit_ser (i : Nat) (kind : Task → Bool) (f : List Byte → Nat → Dev → Dev) (d : Dev)
    (h : ∀ pay p e, (f pay p e).ser = e.ser) :
    (midiCommit i kind f d).ser = d.ser := by
  unfold midiCommit; exact commitWith_ser _ _ _ _ (fun t e => applyParts_ser _ _ _ (fun p e => h _ p e))

@[simp] theorem perNote_keeps (p ch partOff noteOff : Nat) (bs : List Byte) (d : Dev) :
    (perNote p ch partOff noteOff bs d).fresh = d.fresh ∧ (perNote p ch partOff noteOff bs d).frame = d.frame ∧ (perNote p ch partOff noteOff bs d).win = d.win ∧ (perNote p ch partOff noteOff bs d).pwr = d.pwr ∧ (perNote p ch partOff noteOff bs d).mgt = d.mgt ∧ (perNote p ch partOff noteOff bs d).boot = d.boot ∧ (perNote p ch partOff noteOff bs d).alm = d.alm ∧ (perNote p ch partOff noteOff bs d).par = d.par ∧ (perNote p ch partOff noteOff bs d).aud = d.aud ∧ (perNote p ch partOff noteOff bs d).cal = d.cal ∧ (perNote p ch partOff noteOff bs d).mix = d.mix ∧ (perNote p ch partOff noteOff bs d).outs = d.outs ∧ (perNote p ch partOff noteOff bs d).tdm = d.tdm ∧ (perNote p ch partOff noteOff bs d).ser = d.ser := by
  simp -implicitDefEqProofs [perNote]

@[simp] theorem timerFireDev_keeps (i : Nat) (d : Dev) :
    (timerFireDev i d).frame = d.frame ∧ (timerFireDev i d).win = d.win ∧ (timerFireDev i d).pwr = d.pwr ∧ (timerFireDev i d).mgt = d.mgt ∧ (timerFireDev i d).boot = d.boot ∧ (timerFireDev i d).mix = d.mix ∧ (timerFireDev i d).outs = d.outs ∧ (timerFireDev i d).tdm = d.tdm ∧ (timerFireDev i d).ser = d.ser := by
  simp -implicitDefEqProofs [timerFireDev]

@[simp] theorem offDeferred_keeps (pay : List Byte) (d : Dev) :
    (offDeferred pay d).regs = d.regs ∧ (offDeferred pay d).fresh = d.fresh ∧ (offDeferred pay d).mem = d.mem ∧ (offDeferred pay d).frame = d.frame ∧ (offDeferred pay d).port = d.port ∧ (offDeferred pay d).win = d.win ∧ (offDeferred pay d).cnt = d.cnt ∧ (offDeferred pay d).pwr = d.pwr ∧ (offDeferred pay d).mgt = d.mgt ∧ (offDeferred pay d).boot = d.boot ∧ (offDeferred pay d).alm = d.alm ∧ (offDeferred pay d).aud = d.aud ∧ (offDeferred pay d).cal = d.cal ∧ (offDeferred pay d).mix = d.mix ∧ (offDeferred pay d).outs = d.outs ∧ (offDeferred pay d).tdm = d.tdm ∧ (offDeferred pay d).ser = d.ser ∧ (offDeferred pay d).cas = d.cas := by
  simp -implicitDefEqProofs [offDeferred]

@[simp] theorem noteOffDev_keeps (i : Nat) (d : Dev) :
    (noteOffDev i d).frame = d.frame ∧ (noteOffDev i d).win = d.win ∧ (noteOffDev i d).pwr = d.pwr ∧ (noteOffDev i d).mgt = d.mgt ∧ (noteOffDev i d).boot = d.boot ∧ (noteOffDev i d).mix = d.mix ∧ (noteOffDev i d).outs = d.outs ∧ (noteOffDev i d).tdm = d.tdm ∧ (noteOffDev i d).ser = d.ser := by
  simp -implicitDefEqProofs [noteOffDev]

@[simp] theorem polyPart_keeps (pay : List Byte) (p : Nat) (d : Dev) :
    (polyPart pay p d).fresh = d.fresh ∧ (polyPart pay p d).frame = d.frame ∧ (polyPart pay p d).win = d.win ∧ (polyPart pay p d).pwr = d.pwr ∧ (polyPart pay p d).mgt = d.mgt ∧ (polyPart pay p d).boot = d.boot ∧ (polyPart pay p d).alm = d.alm ∧ (polyPart pay p d).par = d.par ∧ (polyPart pay p d).aud = d.aud ∧ (polyPart pay p d).cal = d.cal ∧ (polyPart pay p d).mix = d.mix ∧ (polyPart pay p d).outs = d.outs ∧ (polyPart pay p d).tdm = d.tdm ∧ (polyPart pay p d).ser = d.ser := by
  unfold polyPart; refine ⟨?_, ?_, ?_, ?_, ?_, ?_, ?_, ?_, ?_, ?_, ?_, ?_, ?_, ?_⟩ <;> (repeat' split) <;> simp -implicitDefEqProofs

@[simp] theorem polyPressureDev_keeps (i : Nat) (d : Dev) :
    (polyPressureDev i d).frame = d.frame ∧ (polyPressureDev i d).win = d.win ∧ (polyPressureDev i d).pwr = d.pwr ∧ (polyPressureDev i d).mgt = d.mgt ∧ (polyPressureDev i d).boot = d.boot ∧ (polyPressureDev i d).mix = d.mix ∧ (polyPressureDev i d).outs = d.outs ∧ (polyPressureDev i d).tdm = d.tdm ∧ (polyPressureDev i d).ser = d.ser := by
  simp -implicitDefEqProofs [polyPressureDev]

@[simp] theorem ccStore_keeps (pay : List Byte) (p : Nat) (d : Dev) :
    (ccStore pay p d).fresh = d.fresh ∧ (ccStore pay p d).frame = d.frame ∧ (ccStore pay p d).win = d.win ∧ (ccStore pay p d).pwr = d.pwr ∧ (ccStore pay p d).mgt = d.mgt ∧ (ccStore pay p d).boot = d.boot ∧ (ccStore pay p d).alm = d.alm ∧ (ccStore pay p d).par = d.par ∧ (ccStore pay p d).aud = d.aud ∧ (ccStore pay p d).cal = d.cal ∧ (ccStore pay p d).mix = d.mix ∧ (ccStore pay p d).outs = d.outs ∧ (ccStore pay p d).tdm = d.tdm ∧ (ccStore pay p d).ser = d.ser := by
  simp -implicitDefEqProofs [ccStore]

@[simp] theorem putPedals_keeps (p v : Nat) (d : Dev) :
    (putPedals p v d).fresh = d.fresh ∧ (putPedals p v d).frame = d.frame ∧ (putPedals p v d).win = d.win ∧ (putPedals p v d).pwr = d.pwr ∧ (putPedals p v d).mgt = d.mgt ∧ (putPedals p v d).boot = d.boot ∧ (putPedals p v d).alm = d.alm ∧ (putPedals p v d).par = d.par ∧ (putPedals p v d).aud = d.aud ∧ (putPedals p v d).cal = d.cal ∧ (putPedals p v d).mix = d.mix ∧ (putPedals p v d).outs = d.outs ∧ (putPedals p v d).tdm = d.tdm ∧ (putPedals p v d).ser = d.ser := by
  simp -implicitDefEqProofs [putPedals]

@[simp] theorem sustainTo_keeps (p : Nat) (down : Bool) (d : Dev) :
    (sustainTo p down d).fresh = d.fresh ∧ (sustainTo p down d).frame = d.frame ∧ (sustainTo p down d).win = d.win ∧ (sustainTo p down d).pwr = d.pwr ∧ (sustainTo p down d).mgt = d.mgt ∧ (sustainTo p down d).boot = d.boot ∧ (sustainTo p down d).alm = d.alm ∧ (sustainTo p down d).cal = d.cal ∧ (sustainTo p down d).mix = d.mix ∧ (sustainTo p down d).outs = d.outs ∧ (sustainTo p down d).tdm = d.tdm ∧ (sustainTo p down d).ser = d.ser := by
  simp -implicitDefEqProofs [sustainTo]

@[simp] theorem sostenutoTo_keeps (p : Nat) (down : Bool) (d : Dev) :
    (sostenutoTo p down d).fresh = d.fresh ∧ (sostenutoTo p down d).frame = d.frame ∧ (sostenutoTo p down d).win = d.win ∧ (sostenutoTo p down d).pwr = d.pwr ∧ (sostenutoTo p down d).mgt = d.mgt ∧ (sostenutoTo p down d).boot = d.boot ∧ (sostenutoTo p down d).alm = d.alm ∧ (sostenutoTo p down d).cal = d.cal ∧ (sostenutoTo p down d).mix = d.mix ∧ (sostenutoTo p down d).outs = d.outs ∧ (sostenutoTo p down d).tdm = d.tdm ∧ (sostenutoTo p down d).ser = d.ser := by
  simp -implicitDefEqProofs [sostenutoTo]

@[simp] theorem bankPart_keeps (pay : List Byte) (p : Nat) (d : Dev) :
    (bankPart pay p d).fresh = d.fresh ∧ (bankPart pay p d).frame = d.frame ∧ (bankPart pay p d).win = d.win ∧ (bankPart pay p d).pwr = d.pwr ∧ (bankPart pay p d).mgt = d.mgt ∧ (bankPart pay p d).boot = d.boot ∧ (bankPart pay p d).alm = d.alm ∧ (bankPart pay p d).par = d.par ∧ (bankPart pay p d).aud = d.aud ∧ (bankPart pay p d).cal = d.cal ∧ (bankPart pay p d).mix = d.mix ∧ (bankPart pay p d).outs = d.outs ∧ (bankPart pay p d).tdm = d.tdm ∧ (bankPart pay p d).ser = d.ser := by
  simp -implicitDefEqProofs [bankPart]

@[simp] theorem bankSelectDev_keeps (i : Nat) (d : Dev) :
    (bankSelectDev i d).frame = d.frame ∧ (bankSelectDev i d).win = d.win ∧ (bankSelectDev i d).pwr = d.pwr ∧ (bankSelectDev i d).mgt = d.mgt ∧ (bankSelectDev i d).boot = d.boot ∧ (bankSelectDev i d).mix = d.mix ∧ (bankSelectDev i d).outs = d.outs ∧ (bankSelectDev i d).tdm = d.tdm ∧ (bankSelectDev i d).ser = d.ser := by
  simp -implicitDefEqProofs [bankSelectDev]

@[simp] theorem sustainPart_keeps (pay : List Byte) (p : Nat) (d : Dev) :
    (sustainPart pay p d).fresh = d.fresh ∧ (sustainPart pay p d).frame = d.frame ∧ (sustainPart pay p d).win = d.win ∧ (sustainPart pay p d).pwr = d.pwr ∧ (sustainPart pay p d).mgt = d.mgt ∧ (sustainPart pay p d).boot = d.boot ∧ (sustainPart pay p d).alm = d.alm ∧ (sustainPart pay p d).cal = d.cal ∧ (sustainPart pay p d).mix = d.mix ∧ (sustainPart pay p d).outs = d.outs ∧ (sustainPart pay p d).tdm = d.tdm ∧ (sustainPart pay p d).ser = d.ser := by
  simp -implicitDefEqProofs [sustainPart]

@[simp] theorem sustainDev_keeps (i : Nat) (d : Dev) :
    (sustainDev i d).frame = d.frame ∧ (sustainDev i d).win = d.win ∧ (sustainDev i d).pwr = d.pwr ∧ (sustainDev i d).mgt = d.mgt ∧ (sustainDev i d).boot = d.boot ∧ (sustainDev i d).mix = d.mix ∧ (sustainDev i d).outs = d.outs ∧ (sustainDev i d).tdm = d.tdm ∧ (sustainDev i d).ser = d.ser := by
  simp -implicitDefEqProofs [sustainDev]

@[simp] theorem sostenutoPart_keeps (pay : List Byte) (p : Nat) (d : Dev) :
    (sostenutoPart pay p d).fresh = d.fresh ∧ (sostenutoPart pay p d).frame = d.frame ∧ (sostenutoPart pay p d).win = d.win ∧ (sostenutoPart pay p d).pwr = d.pwr ∧ (sostenutoPart pay p d).mgt = d.mgt ∧ (sostenutoPart pay p d).boot = d.boot ∧ (sostenutoPart pay p d).alm = d.alm ∧ (sostenutoPart pay p d).cal = d.cal ∧ (sostenutoPart pay p d).mix = d.mix ∧ (sostenutoPart pay p d).outs = d.outs ∧ (sostenutoPart pay p d).tdm = d.tdm ∧ (sostenutoPart pay p d).ser = d.ser := by
  simp -implicitDefEqProofs [sostenutoPart]

@[simp] theorem sostenutoDev_keeps (i : Nat) (d : Dev) :
    (sostenutoDev i d).frame = d.frame ∧ (sostenutoDev i d).win = d.win ∧ (sostenutoDev i d).pwr = d.pwr ∧ (sostenutoDev i d).mgt = d.mgt ∧ (sostenutoDev i d).boot = d.boot ∧ (sostenutoDev i d).mix = d.mix ∧ (sostenutoDev i d).outs = d.outs ∧ (sostenutoDev i d).tdm = d.tdm ∧ (sostenutoDev i d).ser = d.ser := by
  simp -implicitDefEqProofs [sostenutoDev]

@[simp] theorem soundOffPart_keeps (pay : List Byte) (p : Nat) (d : Dev) :
    (soundOffPart pay p d).fresh = d.fresh ∧ (soundOffPart pay p d).frame = d.frame ∧ (soundOffPart pay p d).win = d.win ∧ (soundOffPart pay p d).pwr = d.pwr ∧ (soundOffPart pay p d).mgt = d.mgt ∧ (soundOffPart pay p d).boot = d.boot ∧ (soundOffPart pay p d).alm = d.alm ∧ (soundOffPart pay p d).cal = d.cal ∧ (soundOffPart pay p d).mix = d.mix ∧ (soundOffPart pay p d).outs = d.outs ∧ (soundOffPart pay p d).tdm = d.tdm ∧ (soundOffPart pay p d).ser = d.ser := by
  simp -implicitDefEqProofs [soundOffPart]

@[simp] theorem allSoundOffDev_keeps (i : Nat) (d : Dev) :
    (allSoundOffDev i d).frame = d.frame ∧ (allSoundOffDev i d).win = d.win ∧ (allSoundOffDev i d).pwr = d.pwr ∧ (allSoundOffDev i d).mgt = d.mgt ∧ (allSoundOffDev i d).boot = d.boot ∧ (allSoundOffDev i d).mix = d.mix ∧ (allSoundOffDev i d).outs = d.outs ∧ (allSoundOffDev i d).tdm = d.tdm ∧ (allSoundOffDev i d).ser = d.ser := by
  simp -implicitDefEqProofs [allSoundOffDev]

@[simp] theorem resetPart_keeps (pay : List Byte) (p : Nat) (d : Dev) :
    (resetPart pay p d).fresh = d.fresh ∧ (resetPart pay p d).frame = d.frame ∧ (resetPart pay p d).win = d.win ∧ (resetPart pay p d).pwr = d.pwr ∧ (resetPart pay p d).mgt = d.mgt ∧ (resetPart pay p d).boot = d.boot ∧ (resetPart pay p d).alm = d.alm ∧ (resetPart pay p d).cal = d.cal ∧ (resetPart pay p d).mix = d.mix ∧ (resetPart pay p d).outs = d.outs ∧ (resetPart pay p d).tdm = d.tdm ∧ (resetPart pay p d).ser = d.ser := by
  simp -implicitDefEqProofs [resetPart]

@[simp] theorem resetAllControllersDev_keeps (i : Nat) (d : Dev) :
    (resetAllControllersDev i d).frame = d.frame ∧ (resetAllControllersDev i d).win = d.win ∧ (resetAllControllersDev i d).pwr = d.pwr ∧ (resetAllControllersDev i d).mgt = d.mgt ∧ (resetAllControllersDev i d).boot = d.boot ∧ (resetAllControllersDev i d).mix = d.mix ∧ (resetAllControllersDev i d).outs = d.outs ∧ (resetAllControllersDev i d).tdm = d.tdm ∧ (resetAllControllersDev i d).ser = d.ser := by
  simp -implicitDefEqProofs [resetAllControllersDev]

@[simp] theorem notesOffPart_keeps (pay : List Byte) (p : Nat) (d : Dev) :
    (notesOffPart pay p d).fresh = d.fresh ∧ (notesOffPart pay p d).frame = d.frame ∧ (notesOffPart pay p d).win = d.win ∧ (notesOffPart pay p d).pwr = d.pwr ∧ (notesOffPart pay p d).mgt = d.mgt ∧ (notesOffPart pay p d).boot = d.boot ∧ (notesOffPart pay p d).alm = d.alm ∧ (notesOffPart pay p d).cal = d.cal ∧ (notesOffPart pay p d).mix = d.mix ∧ (notesOffPart pay p d).outs = d.outs ∧ (notesOffPart pay p d).tdm = d.tdm ∧ (notesOffPart pay p d).ser = d.ser := by
  simp -implicitDefEqProofs [notesOffPart]

@[simp] theorem allNotesOffDev_keeps (i : Nat) (d : Dev) :
    (allNotesOffDev i d).frame = d.frame ∧ (allNotesOffDev i d).win = d.win ∧ (allNotesOffDev i d).pwr = d.pwr ∧ (allNotesOffDev i d).mgt = d.mgt ∧ (allNotesOffDev i d).boot = d.boot ∧ (allNotesOffDev i d).mix = d.mix ∧ (allNotesOffDev i d).outs = d.outs ∧ (allNotesOffDev i d).tdm = d.tdm ∧ (allNotesOffDev i d).ser = d.ser := by
  simp -implicitDefEqProofs [allNotesOffDev]

@[simp] theorem ccPart_keeps (pay : List Byte) (p : Nat) (d : Dev) :
    (ccPart pay p d).fresh = d.fresh ∧ (ccPart pay p d).frame = d.frame ∧ (ccPart pay p d).win = d.win ∧ (ccPart pay p d).pwr = d.pwr ∧ (ccPart pay p d).mgt = d.mgt ∧ (ccPart pay p d).boot = d.boot ∧ (ccPart pay p d).alm = d.alm ∧ (ccPart pay p d).par = d.par ∧ (ccPart pay p d).aud = d.aud ∧ (ccPart pay p d).cal = d.cal ∧ (ccPart pay p d).mix = d.mix ∧ (ccPart pay p d).outs = d.outs ∧ (ccPart pay p d).tdm = d.tdm ∧ (ccPart pay p d).ser = d.ser := by
  simp -implicitDefEqProofs [ccPart]

@[simp] theorem ccDev_keeps (i : Nat) (d : Dev) :
    (ccDev i d).frame = d.frame ∧ (ccDev i d).win = d.win ∧ (ccDev i d).pwr = d.pwr ∧ (ccDev i d).mgt = d.mgt ∧ (ccDev i d).boot = d.boot ∧ (ccDev i d).mix = d.mix ∧ (ccDev i d).outs = d.outs ∧ (ccDev i d).tdm = d.tdm ∧ (ccDev i d).ser = d.ser := by
  simp -implicitDefEqProofs [ccDev]

@[simp] theorem programPart_keeps (pay : List Byte) (p : Nat) (d : Dev) :
    (programPart pay p d).fresh = d.fresh ∧ (programPart pay p d).frame = d.frame ∧ (programPart pay p d).win = d.win ∧ (programPart pay p d).pwr = d.pwr ∧ (programPart pay p d).mgt = d.mgt ∧ (programPart pay p d).boot = d.boot ∧ (programPart pay p d).alm = d.alm ∧ (programPart pay p d).par = d.par ∧ (programPart pay p d).aud = d.aud ∧ (programPart pay p d).cal = d.cal ∧ (programPart pay p d).mix = d.mix ∧ (programPart pay p d).outs = d.outs ∧ (programPart pay p d).tdm = d.tdm ∧ (programPart pay p d).ser = d.ser ∧ (programPart pay p d).cas = d.cas := by
  simp -implicitDefEqProofs [programPart]

@[simp] theorem programDev_keeps (i : Nat) (d : Dev) :
    (programDev i d).frame = d.frame ∧ (programDev i d).win = d.win ∧ (programDev i d).pwr = d.pwr ∧ (programDev i d).mgt = d.mgt ∧ (programDev i d).boot = d.boot ∧ (programDev i d).mix = d.mix ∧ (programDev i d).outs = d.outs ∧ (programDev i d).tdm = d.tdm ∧ (programDev i d).ser = d.ser := by
  simp -implicitDefEqProofs [programDev]

@[simp] theorem pitchBendDev_keeps (i : Nat) (d : Dev) :
    (pitchBendDev i d).frame = d.frame ∧ (pitchBendDev i d).win = d.win ∧ (pitchBendDev i d).pwr = d.pwr ∧ (pitchBendDev i d).mgt = d.mgt ∧ (pitchBendDev i d).boot = d.boot ∧ (pitchBendDev i d).mix = d.mix ∧ (pitchBendDev i d).outs = d.outs ∧ (pitchBendDev i d).tdm = d.tdm ∧ (pitchBendDev i d).ser = d.ser := by
  refine ⟨?_, ?_, ?_, ?_, ?_, ?_, ?_, ?_, ?_⟩ <;> (simp only [pitchBendDev]; repeat' split) <;> simp_all -implicitDefEqProofs

@[simp] theorem chanPressureDev_keeps (i : Nat) (d : Dev) :
    (chanPressureDev i d).frame = d.frame ∧ (chanPressureDev i d).win = d.win ∧ (chanPressureDev i d).pwr = d.pwr ∧ (chanPressureDev i d).mgt = d.mgt ∧ (chanPressureDev i d).boot = d.boot ∧ (chanPressureDev i d).mix = d.mix ∧ (chanPressureDev i d).outs = d.outs ∧ (chanPressureDev i d).tdm = d.tdm ∧ (chanPressureDev i d).ser = d.ser := by
  refine ⟨?_, ?_, ?_, ?_, ?_, ?_, ?_, ?_, ?_⟩ <;> (simp only [chanPressureDev]; repeat' split) <;> simp_all -implicitDefEqProofs

@[simp] theorem maskWrite_keeps (off : Nat) (v m : Word) (d : Dev) :
    (maskWrite off v m d).fresh = d.fresh ∧ (maskWrite off v m d).frame = d.frame ∧ (maskWrite off v m d).win = d.win ∧ (maskWrite off v m d).pwr = d.pwr ∧ (maskWrite off v m d).mgt = d.mgt ∧ (maskWrite off v m d).boot = d.boot ∧ (maskWrite off v m d).alm = d.alm ∧ (maskWrite off v m d).par = d.par ∧ (maskWrite off v m d).aud = d.aud ∧ (maskWrite off v m d).cal = d.cal ∧ (maskWrite off v m d).mix = d.mix ∧ (maskWrite off v m d).outs = d.outs ∧ (maskWrite off v m d).tdm = d.tdm ∧ (maskWrite off v m d).ser = d.ser ∧ (maskWrite off v m d).cas = d.cas := by
  simp -implicitDefEqProofs [maskWrite]

@[simp] theorem paramSetCommit_keeps (t : Task) (d : Dev) :
    (paramSetCommit t d).1.fresh = d.fresh ∧ (paramSetCommit t d).1.frame = d.frame ∧ (paramSetCommit t d).1.win = d.win ∧ (paramSetCommit t d).1.pwr = d.pwr ∧ (paramSetCommit t d).1.mgt = d.mgt ∧ (paramSetCommit t d).1.boot = d.boot ∧ (paramSetCommit t d).1.alm = d.alm ∧ (paramSetCommit t d).1.par = d.par ∧ (paramSetCommit t d).1.aud = d.aud ∧ (paramSetCommit t d).1.cal = d.cal ∧ (paramSetCommit t d).1.mix = d.mix ∧ (paramSetCommit t d).1.outs = d.outs ∧ (paramSetCommit t d).1.tdm = d.tdm ∧ (paramSetCommit t d).1.ser = d.ser := by
  simp -implicitDefEqProofs [paramSetCommit]

@[simp] theorem paramSetDev_keeps (i : Nat) (d : Dev) :
    (paramSetDev i d).frame = d.frame ∧ (paramSetDev i d).win = d.win ∧ (paramSetDev i d).pwr = d.pwr ∧ (paramSetDev i d).mgt = d.mgt ∧ (paramSetDev i d).boot = d.boot ∧ (paramSetDev i d).mix = d.mix ∧ (paramSetDev i d).outs = d.outs ∧ (paramSetDev i d).tdm = d.tdm ∧ (paramSetDev i d).ser = d.ser := by
  simp -implicitDefEqProofs [paramSetDev]

@[simp] theorem killVoice_keeps (v mode : Nat) (d : Dev) :
    (killVoice v mode d).fresh = d.fresh ∧ (killVoice v mode d).frame = d.frame ∧ (killVoice v mode d).win = d.win ∧ (killVoice v mode d).pwr = d.pwr ∧ (killVoice v mode d).mgt = d.mgt ∧ (killVoice v mode d).boot = d.boot ∧ (killVoice v mode d).alm = d.alm ∧ (killVoice v mode d).cal = d.cal ∧ (killVoice v mode d).mix = d.mix ∧ (killVoice v mode d).outs = d.outs ∧ (killVoice v mode d).tdm = d.tdm ∧ (killVoice v mode d).ser = d.ser := by
  simp -implicitDefEqProofs [killVoice]

@[simp] theorem staleHandle_keeps (d : Dev) :
    (staleHandle d).fresh = d.fresh ∧ (staleHandle d).mem = d.mem ∧ (staleHandle d).frame = d.frame ∧ (staleHandle d).port = d.port ∧ (staleHandle d).win = d.win ∧ (staleHandle d).pwr = d.pwr ∧ (staleHandle d).mgt = d.mgt ∧ (staleHandle d).boot = d.boot ∧ (staleHandle d).alm = d.alm ∧ (staleHandle d).par = d.par ∧ (staleHandle d).aud = d.aud ∧ (staleHandle d).cal = d.cal ∧ (staleHandle d).mix = d.mix ∧ (staleHandle d).outs = d.outs ∧ (staleHandle d).tdm = d.tdm ∧ (staleHandle d).ser = d.ser ∧ (staleHandle d).cas = d.cas := by
  refine ⟨?_, ?_, ?_, ?_, ?_, ?_, ?_, ?_, ?_, ?_, ?_, ?_, ?_, ?_, ?_, ?_, ?_⟩ <;> (simp only [staleHandle]; repeat' split) <;> simp_all -implicitDefEqProofs

@[simp] theorem voiceKillCommit_keeps (t : Task) (d : Dev) :
    (voiceKillCommit t d).1.fresh = d.fresh ∧ (voiceKillCommit t d).1.frame = d.frame ∧ (voiceKillCommit t d).1.win = d.win ∧ (voiceKillCommit t d).1.pwr = d.pwr ∧ (voiceKillCommit t d).1.mgt = d.mgt ∧ (voiceKillCommit t d).1.boot = d.boot ∧ (voiceKillCommit t d).1.alm = d.alm ∧ (voiceKillCommit t d).1.cal = d.cal ∧ (voiceKillCommit t d).1.mix = d.mix ∧ (voiceKillCommit t d).1.outs = d.outs ∧ (voiceKillCommit t d).1.tdm = d.tdm ∧ (voiceKillCommit t d).1.ser = d.ser := by
  unfold voiceKillCommit; refine ⟨?_, ?_, ?_, ?_, ?_, ?_, ?_, ?_, ?_, ?_, ?_, ?_⟩ <;> (repeat' split) <;> simp -implicitDefEqProofs

@[simp] theorem voiceKillDev_keeps (i : Nat) (d : Dev) :
    (voiceKillDev i d).frame = d.frame ∧ (voiceKillDev i d).win = d.win ∧ (voiceKillDev i d).pwr = d.pwr ∧ (voiceKillDev i d).mgt = d.mgt ∧ (voiceKillDev i d).boot = d.boot ∧ (voiceKillDev i d).mix = d.mix ∧ (voiceKillDev i d).outs = d.outs ∧ (voiceKillDev i d).tdm = d.tdm ∧ (voiceKillDev i d).ser = d.ser := by
  simp -implicitDefEqProofs [voiceKillDev]

@[simp] theorem mgmtFinish_frame (i ty : Nat) (f : Task → Dev → Dev) (d : Dev)
    (h : ∀ p e, (f p e).frame = e.frame) :
    (mgmtFinish i ty f d).frame = d.frame := by
  unfold mgmtFinish; exact commitWith_frame _ _ _ _ (fun t e => by simp [h])

@[simp] theorem mgmtFinish_win (i ty : Nat) (f : Task → Dev → Dev) (d : Dev)
    (h : ∀ p e, (f p e).win = e.win) :
    (mgmtFinish i ty f d).win = d.win := by
  unfold mgmtFinish; exact commitWith_win _ _ _ _ (fun t e => by simp [h])

@[simp] theorem mgmtFinish_pwr (i ty : Nat) (f : Task → Dev → Dev) (d : Dev)
    (h : ∀ p e, (f p e).pwr = e.pwr) :
    (mgmtFinish i ty f d).pwr = d.pwr := by
  unfold mgmtFinish; exact commitWith_pwr _ _ _ _ (fun t e => by simp [h])

@[simp] theorem mgmtFinish_mgt (i ty : Nat) (f : Task → Dev → Dev) (d : Dev)
    (h : ∀ p e, (f p e).mgt = e.mgt) :
    (mgmtFinish i ty f d).mgt = d.mgt := by
  unfold mgmtFinish; exact commitWith_mgt _ _ _ _ (fun t e => by simp [h])

@[simp] theorem mgmtFinish_boot (i ty : Nat) (f : Task → Dev → Dev) (d : Dev)
    (h : ∀ p e, (f p e).boot = e.boot) :
    (mgmtFinish i ty f d).boot = d.boot := by
  unfold mgmtFinish; exact commitWith_boot _ _ _ _ (fun t e => by simp [h])

@[simp] theorem mgmtFinish_mix (i ty : Nat) (f : Task → Dev → Dev) (d : Dev)
    (h : ∀ p e, (f p e).mix = e.mix) :
    (mgmtFinish i ty f d).mix = d.mix := by
  unfold mgmtFinish; exact commitWith_mix _ _ _ _ (fun t e => by simp [h])

@[simp] theorem mgmtFinish_outs (i ty : Nat) (f : Task → Dev → Dev) (d : Dev)
    (h : ∀ p e, (f p e).outs = e.outs) :
    (mgmtFinish i ty f d).outs = d.outs := by
  unfold mgmtFinish; exact commitWith_outs _ _ _ _ (fun t e => by simp [h])

@[simp] theorem mgmtFinish_tdm (i ty : Nat) (f : Task → Dev → Dev) (d : Dev)
    (h : ∀ p e, (f p e).tdm = e.tdm) :
    (mgmtFinish i ty f d).tdm = d.tdm := by
  unfold mgmtFinish; exact commitWith_tdm _ _ _ _ (fun t e => by simp [h])

@[simp] theorem mgmtFinish_ser (i ty : Nat) (f : Task → Dev → Dev) (d : Dev)
    (h : ∀ p e, (f p e).ser = e.ser) :
    (mgmtFinish i ty f d).ser = d.ser := by
  unfold mgmtFinish; exact commitWith_ser _ _ _ _ (fun t e => by simp [h])

@[simp] theorem landWord_keeps (w : HWrite) (d : Dev) :
    (landWord w d).fresh = d.fresh ∧ (landWord w d).frame = d.frame ∧ (landWord w d).win = d.win ∧ (landWord w d).pwr = d.pwr ∧ (landWord w d).mgt = d.mgt ∧ (landWord w d).boot = d.boot ∧ (landWord w d).alm = d.alm ∧ (landWord w d).par = d.par ∧ (landWord w d).aud = d.aud ∧ (landWord w d).mix = d.mix ∧ (landWord w d).outs = d.outs ∧ (landWord w d).tdm = d.tdm ∧ (landWord w d).ser = d.ser ∧ (landWord w d).cas = d.cas := by
  refine ⟨?_, ?_, ?_, ?_, ?_, ?_, ?_, ?_, ?_, ?_, ?_, ?_, ?_, ?_⟩ <;> (unfold landWord; dsimp only; repeat' split) <;> simp -implicitDefEqProofs

@[simp] theorem landDue_keeps (d : Dev) :
    (landDue d).fresh = d.fresh ∧ (landDue d).frame = d.frame ∧ (landDue d).win = d.win ∧ (landDue d).pwr = d.pwr ∧ (landDue d).mgt = d.mgt ∧ (landDue d).boot = d.boot ∧ (landDue d).alm = d.alm ∧ (landDue d).par = d.par ∧ (landDue d).aud = d.aud ∧ (landDue d).mix = d.mix ∧ (landDue d).outs = d.outs ∧ (landDue d).tdm = d.tdm ∧ (landDue d).ser = d.ser ∧ (landDue d).cas = d.cas := by
  simp -implicitDefEqProofs [landDue]

@[simp] theorem paramStoreLandingDev_keeps (d : Dev) :
    (paramStoreLandingDev d).frame = d.frame ∧ (paramStoreLandingDev d).win = d.win ∧ (paramStoreLandingDev d).pwr = d.pwr ∧ (paramStoreLandingDev d).mgt = d.mgt ∧ (paramStoreLandingDev d).boot = d.boot ∧ (paramStoreLandingDev d).alm = d.alm ∧ (paramStoreLandingDev d).mix = d.mix ∧ (paramStoreLandingDev d).outs = d.outs ∧ (paramStoreLandingDev d).tdm = d.tdm ∧ (paramStoreLandingDev d).ser = d.ser := by
  refine ⟨?_, ?_, ?_, ?_, ?_, ?_, ?_, ?_, ?_, ?_⟩ <;> (simp only [paramStoreLandingDev]; repeat' split) <;> simp_all -implicitDefEqProofs

@[simp] theorem resumeSeq_keeps (r : Nat) (d : Dev) :
    (resumeSeq r d).regs = d.regs ∧ (resumeSeq r d).fresh = d.fresh ∧ (resumeSeq r d).mem = d.mem ∧ (resumeSeq r d).frame = d.frame ∧ (resumeSeq r d).port = d.port ∧ (resumeSeq r d).win = d.win ∧ (resumeSeq r d).cnt = d.cnt ∧ (resumeSeq r d).pwr = d.pwr ∧ (resumeSeq r d).mgt = d.mgt ∧ (resumeSeq r d).boot = d.boot ∧ (resumeSeq r d).alm = d.alm ∧ (resumeSeq r d).par = d.par ∧ (resumeSeq r d).cal = d.cal ∧ (resumeSeq r d).mix = d.mix ∧ (resumeSeq r d).tdm = d.tdm ∧ (resumeSeq r d).ser = d.ser ∧ (resumeSeq r d).cas = d.cas := by
  simp -implicitDefEqProofs [resumeSeq]

@[simp] theorem casIrq_keeps (n : Nat) (d : Dev) :
    (casIrq n d).fresh = d.fresh ∧ (casIrq n d).mem = d.mem ∧ (casIrq n d).frame = d.frame ∧ (casIrq n d).port = d.port ∧ (casIrq n d).win = d.win ∧ (casIrq n d).cnt = d.cnt ∧ (casIrq n d).pwr = d.pwr ∧ (casIrq n d).mgt = d.mgt ∧ (casIrq n d).boot = d.boot ∧ (casIrq n d).alm = d.alm ∧ (casIrq n d).par = d.par ∧ (casIrq n d).aud = d.aud ∧ (casIrq n d).cal = d.cal ∧ (casIrq n d).mix = d.mix ∧ (casIrq n d).outs = d.outs ∧ (casIrq n d).tdm = d.tdm ∧ (casIrq n d).ser = d.ser ∧ (casIrq n d).cas = d.cas := by
  simp -implicitDefEqProofs [casIrq]

@[simp] theorem packetDrop_keeps (n : Nat) (d : Dev) :
    (packetDrop n d).fresh = d.fresh ∧ (packetDrop n d).mem = d.mem ∧ (packetDrop n d).frame = d.frame ∧ (packetDrop n d).port = d.port ∧ (packetDrop n d).win = d.win ∧ (packetDrop n d).cnt = d.cnt ∧ (packetDrop n d).pwr = d.pwr ∧ (packetDrop n d).mgt = d.mgt ∧ (packetDrop n d).boot = d.boot ∧ (packetDrop n d).alm = d.alm ∧ (packetDrop n d).par = d.par ∧ (packetDrop n d).aud = d.aud ∧ (packetDrop n d).cal = d.cal ∧ (packetDrop n d).mix = d.mix ∧ (packetDrop n d).outs = d.outs ∧ (packetDrop n d).tdm = d.tdm ∧ (packetDrop n d).ser = d.ser ∧ (packetDrop n d).cas = d.cas := by
  simp -implicitDefEqProofs [packetDrop]

@[simp] theorem ownPacket_keeps (p : List Byte) (d : Dev) :
    (ownPacket p d).fresh = d.fresh ∧ (ownPacket p d).mem = d.mem ∧ (ownPacket p d).frame = d.frame ∧ (ownPacket p d).port = d.port ∧ (ownPacket p d).win = d.win ∧ (ownPacket p d).cnt = d.cnt ∧ (ownPacket p d).pwr = d.pwr ∧ (ownPacket p d).mgt = d.mgt ∧ (ownPacket p d).boot = d.boot ∧ (ownPacket p d).alm = d.alm ∧ (ownPacket p d).par = d.par ∧ (ownPacket p d).aud = d.aud ∧ (ownPacket p d).cal = d.cal ∧ (ownPacket p d).mix = d.mix ∧ (ownPacket p d).outs = d.outs ∧ (ownPacket p d).tdm = d.tdm ∧ (ownPacket p d).ser = d.ser := by
  simp -implicitDefEqProofs [ownPacket]

@[simp] theorem dropWorkers_keeps (q : Nat) (d : Dev) :
    (dropWorkers q d).regs = d.regs ∧ (dropWorkers q d).fresh = d.fresh ∧ (dropWorkers q d).mem = d.mem ∧ (dropWorkers q d).frame = d.frame ∧ (dropWorkers q d).port = d.port ∧ (dropWorkers q d).win = d.win ∧ (dropWorkers q d).cnt = d.cnt ∧ (dropWorkers q d).pwr = d.pwr ∧ (dropWorkers q d).mgt = d.mgt ∧ (dropWorkers q d).boot = d.boot ∧ (dropWorkers q d).alm = d.alm ∧ (dropWorkers q d).aud = d.aud ∧ (dropWorkers q d).cal = d.cal ∧ (dropWorkers q d).mix = d.mix ∧ (dropWorkers q d).outs = d.outs ∧ (dropWorkers q d).tdm = d.tdm ∧ (dropWorkers q d).ser = d.ser := by
  simp -implicitDefEqProofs [dropWorkers]

@[simp] theorem leaveChain_keeps (d : Dev) :
    (leaveChain d).fresh = d.fresh ∧ (leaveChain d).frame = d.frame ∧ (leaveChain d).win = d.win ∧ (leaveChain d).pwr = d.pwr ∧ (leaveChain d).mgt = d.mgt ∧ (leaveChain d).boot = d.boot ∧ (leaveChain d).alm = d.alm ∧ (leaveChain d).cal = d.cal ∧ (leaveChain d).mix = d.mix ∧ (leaveChain d).outs = d.outs ∧ (leaveChain d).tdm = d.tdm ∧ (leaveChain d).ser = d.ser := by
  simp -implicitDefEqProofs [leaveChain]

@[simp] theorem cfgError_keeps (d : Dev) :
    (cfgError d).fresh = d.fresh ∧ (cfgError d).frame = d.frame ∧ (cfgError d).win = d.win ∧ (cfgError d).pwr = d.pwr ∧ (cfgError d).boot = d.boot ∧ (cfgError d).alm = d.alm ∧ (cfgError d).cal = d.cal ∧ (cfgError d).outs = d.outs ∧ (cfgError d).tdm = d.tdm ∧ (cfgError d).ser = d.ser := by
  refine ⟨?_, ?_, ?_, ?_, ?_, ?_, ?_, ?_, ?_, ?_⟩ <;> (unfold cfgError; dsimp only; repeat' split) <;> simp -implicitDefEqProofs

@[simp] theorem linkOn_keeps (d : Dev) :
    (linkOn d).fresh = d.fresh ∧ (linkOn d).frame = d.frame ∧ (linkOn d).win = d.win ∧ (linkOn d).pwr = d.pwr ∧ (linkOn d).boot = d.boot ∧ (linkOn d).alm = d.alm ∧ (linkOn d).cal = d.cal ∧ (linkOn d).outs = d.outs ∧ (linkOn d).tdm = d.tdm ∧ (linkOn d).ser = d.ser := by
  simp -implicitDefEqProofs [linkOn]

@[simp] theorem linkOff_keeps (d : Dev) :
    (linkOff d).fresh = d.fresh ∧ (linkOff d).frame = d.frame ∧ (linkOff d).win = d.win ∧ (linkOff d).pwr = d.pwr ∧ (linkOff d).mgt = d.mgt ∧ (linkOff d).boot = d.boot ∧ (linkOff d).alm = d.alm ∧ (linkOff d).cal = d.cal ∧ (linkOff d).outs = d.outs ∧ (linkOff d).tdm = d.tdm ∧ (linkOff d).ser = d.ser := by
  refine ⟨?_, ?_, ?_, ?_, ?_, ?_, ?_, ?_, ?_, ?_, ?_⟩ <;> (unfold linkOff; dsimp only; repeat' split) <;> simp -implicitDefEqProofs

@[simp] theorem casCtlWrite_keeps (v : Word) (d : Dev) :
    (casCtlWrite v d).fresh = d.fresh ∧ (casCtlWrite v d).frame = d.frame ∧ (casCtlWrite v d).win = d.win ∧ (casCtlWrite v d).pwr = d.pwr ∧ (casCtlWrite v d).boot = d.boot ∧ (casCtlWrite v d).alm = d.alm ∧ (casCtlWrite v d).cal = d.cal ∧ (casCtlWrite v d).outs = d.outs ∧ (casCtlWrite v d).tdm = d.tdm ∧ (casCtlWrite v d).ser = d.ser := by
  simp -implicitDefEqProofs [casCtlWrite]

@[simp] theorem linkEnableDev_keeps (v : Word) (d : Dev) :
    (linkEnableDev v d).fresh = d.fresh ∧ (linkEnableDev v d).frame = d.frame ∧ (linkEnableDev v d).win = d.win ∧ (linkEnableDev v d).pwr = d.pwr ∧ (linkEnableDev v d).boot = d.boot ∧ (linkEnableDev v d).alm = d.alm ∧ (linkEnableDev v d).cal = d.cal ∧ (linkEnableDev v d).outs = d.outs ∧ (linkEnableDev v d).tdm = d.tdm ∧ (linkEnableDev v d).ser = d.ser := by
  simp -implicitDefEqProofs [linkEnableDev]

@[simp] theorem linkDisableDev_keeps (v : Word) (d : Dev) :
    (linkDisableDev v d).fresh = d.fresh ∧ (linkDisableDev v d).frame = d.frame ∧ (linkDisableDev v d).win = d.win ∧ (linkDisableDev v d).pwr = d.pwr ∧ (linkDisableDev v d).boot = d.boot ∧ (linkDisableDev v d).alm = d.alm ∧ (linkDisableDev v d).cal = d.cal ∧ (linkDisableDev v d).outs = d.outs ∧ (linkDisableDev v d).tdm = d.tdm ∧ (linkDisableDev v d).ser = d.ser := by
  simp -implicitDefEqProofs [linkDisableDev]

@[simp] theorem rxAlignmentDev_keeps (port : CasPort) (d : Dev) :
    (rxAlignmentDev port d).regs = d.regs ∧ (rxAlignmentDev port d).fresh = d.fresh ∧ (rxAlignmentDev port d).mem = d.mem ∧ (rxAlignmentDev port d).frame = d.frame ∧ (rxAlignmentDev port d).port = d.port ∧ (rxAlignmentDev port d).win = d.win ∧ (rxAlignmentDev port d).cnt = d.cnt ∧ (rxAlignmentDev port d).pwr = d.pwr ∧ (rxAlignmentDev port d).mgt = d.mgt ∧ (rxAlignmentDev port d).boot = d.boot ∧ (rxAlignmentDev port d).alm = d.alm ∧ (rxAlignmentDev port d).par = d.par ∧ (rxAlignmentDev port d).aud = d.aud ∧ (rxAlignmentDev port d).cal = d.cal ∧ (rxAlignmentDev port d).mix = d.mix ∧ (rxAlignmentDev port d).outs = d.outs ∧ (rxAlignmentDev port d).tdm = d.tdm ∧ (rxAlignmentDev port d).ser = d.ser := by
  simp -implicitDefEqProofs [rxAlignmentDev]

@[simp] theorem hopLost_keeps (port : CasPort) (cause : Nat) (d : Dev) :
    (hopLost port cause d).fresh = d.fresh ∧ (hopLost port cause d).frame = d.frame ∧ (hopLost port cause d).win = d.win ∧ (hopLost port cause d).pwr = d.pwr ∧ (hopLost port cause d).boot = d.boot ∧ (hopLost port cause d).alm = d.alm ∧ (hopLost port cause d).cal = d.cal ∧ (hopLost port cause d).outs = d.outs ∧ (hopLost port cause d).tdm = d.tdm ∧ (hopLost port cause d).ser = d.ser := by
  refine ⟨?_, ?_, ?_, ?_, ?_, ?_, ?_, ?_, ?_, ?_⟩ <;> (unfold hopLost; dsimp only; repeat' split) <;> simp -implicitDefEqProofs

@[simp] theorem badSuperframe_keeps (port : CasPort) (cause : Nat) (d : Dev) :
    (badSuperframe port cause d).fresh = d.fresh ∧ (badSuperframe port cause d).frame = d.frame ∧ (badSuperframe port cause d).win = d.win ∧ (badSuperframe port cause d).pwr = d.pwr ∧ (badSuperframe port cause d).boot = d.boot ∧ (badSuperframe port cause d).alm = d.alm ∧ (badSuperframe port cause d).cal = d.cal ∧ (badSuperframe port cause d).outs = d.outs ∧ (badSuperframe port cause d).tdm = d.tdm ∧ (badSuperframe port cause d).ser = d.ser := by
  simp -implicitDefEqProofs [badSuperframe]

@[simp] theorem laneNoSignalDev_keeps (port : CasPort) (peerIdle : Bool) (d : Dev) :
    (laneNoSignalDev port peerIdle d).fresh = d.fresh ∧ (laneNoSignalDev port peerIdle d).frame = d.frame ∧ (laneNoSignalDev port peerIdle d).win = d.win ∧ (laneNoSignalDev port peerIdle d).pwr = d.pwr ∧ (laneNoSignalDev port peerIdle d).boot = d.boot ∧ (laneNoSignalDev port peerIdle d).alm = d.alm ∧ (laneNoSignalDev port peerIdle d).cal = d.cal ∧ (laneNoSignalDev port peerIdle d).outs = d.outs ∧ (laneNoSignalDev port peerIdle d).tdm = d.tdm ∧ (laneNoSignalDev port peerIdle d).ser = d.ser := by
  simp -implicitDefEqProofs [laneNoSignalDev]

@[simp] theorem goodSuperframe_keeps (port : CasPort) (d : Dev) :
    (goodSuperframe port d).fresh = d.fresh ∧ (goodSuperframe port d).mem = d.mem ∧ (goodSuperframe port d).frame = d.frame ∧ (goodSuperframe port d).port = d.port ∧ (goodSuperframe port d).win = d.win ∧ (goodSuperframe port d).pwr = d.pwr ∧ (goodSuperframe port d).boot = d.boot ∧ (goodSuperframe port d).alm = d.alm ∧ (goodSuperframe port d).par = d.par ∧ (goodSuperframe port d).aud = d.aud ∧ (goodSuperframe port d).cal = d.cal ∧ (goodSuperframe port d).mix = d.mix ∧ (goodSuperframe port d).outs = d.outs ∧ (goodSuperframe port d).tdm = d.tdm ∧ (goodSuperframe port d).ser = d.ser := by
  refine ⟨?_, ?_, ?_, ?_, ?_, ?_, ?_, ?_, ?_, ?_, ?_, ?_, ?_, ?_, ?_⟩ <;> (unfold goodSuperframe; dsimp only; repeat' split) <;> simp -implicitDefEqProofs

@[simp] theorem adoptTiming_keeps (k : Nat) (d : Dev) :
    (adoptTiming k d).mem = d.mem ∧ (adoptTiming k d).port = d.port ∧ (adoptTiming k d).win = d.win ∧ (adoptTiming k d).cnt = d.cnt ∧ (adoptTiming k d).pwr = d.pwr ∧ (adoptTiming k d).boot = d.boot ∧ (adoptTiming k d).alm = d.alm ∧ (adoptTiming k d).par = d.par ∧ (adoptTiming k d).cal = d.cal ∧ (adoptTiming k d).mix = d.mix ∧ (adoptTiming k d).tdm = d.tdm ∧ (adoptTiming k d).ser = d.ser := by
  refine ⟨?_, ?_, ?_, ?_, ?_, ?_, ?_, ?_, ?_, ?_, ?_, ?_⟩ <;> (unfold adoptTiming; dsimp only; repeat' split) <;> simp -implicitDefEqProofs

@[simp] theorem outboundSuperframeDev_keeps (bytes : List Byte) (codeOk : Bool) (hopLag : Nat) (d : Dev) :
    (outboundSuperframeDev bytes codeOk hopLag d).win = d.win ∧ (outboundSuperframeDev bytes codeOk hopLag d).pwr = d.pwr ∧ (outboundSuperframeDev bytes codeOk hopLag d).boot = d.boot ∧ (outboundSuperframeDev bytes codeOk hopLag d).alm = d.alm ∧ (outboundSuperframeDev bytes codeOk hopLag d).cal = d.cal ∧ (outboundSuperframeDev bytes codeOk hopLag d).tdm = d.tdm ∧ (outboundSuperframeDev bytes codeOk hopLag d).ser = d.ser := by
  simp -implicitDefEqProofs [outboundSuperframeDev]

@[simp] theorem dirTaken_keeps (i : Nat) (d : Dev) :
    (dirTaken i d).regs = d.regs ∧ (dirTaken i d).fresh = d.fresh ∧ (dirTaken i d).mem = d.mem ∧ (dirTaken i d).frame = d.frame ∧ (dirTaken i d).port = d.port ∧ (dirTaken i d).win = d.win ∧ (dirTaken i d).cnt = d.cnt ∧ (dirTaken i d).pwr = d.pwr ∧ (dirTaken i d).mgt = d.mgt ∧ (dirTaken i d).boot = d.boot ∧ (dirTaken i d).alm = d.alm ∧ (dirTaken i d).par = d.par ∧ (dirTaken i d).aud = d.aud ∧ (dirTaken i d).cal = d.cal ∧ (dirTaken i d).mix = d.mix ∧ (dirTaken i d).outs = d.outs ∧ (dirTaken i d).tdm = d.tdm ∧ (dirTaken i d).ser = d.ser := by
  simp -implicitDefEqProofs [dirTaken]

@[simp] theorem dirIgnored_keeps (d : Dev) :
    (dirIgnored d).fresh = d.fresh ∧ (dirIgnored d).mem = d.mem ∧ (dirIgnored d).frame = d.frame ∧ (dirIgnored d).port = d.port ∧ (dirIgnored d).win = d.win ∧ (dirIgnored d).cnt = d.cnt ∧ (dirIgnored d).pwr = d.pwr ∧ (dirIgnored d).mgt = d.mgt ∧ (dirIgnored d).boot = d.boot ∧ (dirIgnored d).alm = d.alm ∧ (dirIgnored d).par = d.par ∧ (dirIgnored d).aud = d.aud ∧ (dirIgnored d).cal = d.cal ∧ (dirIgnored d).mix = d.mix ∧ (dirIgnored d).outs = d.outs ∧ (dirIgnored d).tdm = d.tdm ∧ (dirIgnored d).ser = d.ser ∧ (dirIgnored d).cas = d.cas := by
  simp -implicitDefEqProofs [dirIgnored]

@[simp] theorem dirHandle_fresh (i kind : Nat) (f : Nat → List Byte → Dev → Dev) (d : Dev)
    (h : ∀ v x e, (f v x e).fresh = e.fresh) :
    (dirHandle i kind f d).fresh = d.fresh := by
  unfold dirHandle; dsimp only; (repeat' split) <;> simp [h]

@[simp] theorem dirHandle_mem (i kind : Nat) (f : Nat → List Byte → Dev → Dev) (d : Dev)
    (h : ∀ v x e, (f v x e).mem = e.mem) :
    (dirHandle i kind f d).mem = d.mem := by
  unfold dirHandle; dsimp only; (repeat' split) <;> simp [h]

@[simp] theorem dirHandle_frame (i kind : Nat) (f : Nat → List Byte → Dev → Dev) (d : Dev)
    (h : ∀ v x e, (f v x e).frame = e.frame) :
    (dirHandle i kind f d).frame = d.frame := by
  unfold dirHandle; dsimp only; (repeat' split) <;> simp [h]

@[simp] theorem dirHandle_port (i kind : Nat) (f : Nat → List Byte → Dev → Dev) (d : Dev)
    (h : ∀ v x e, (f v x e).port = e.port) :
    (dirHandle i kind f d).port = d.port := by
  unfold dirHandle; dsimp only; (repeat' split) <;> simp [h]

@[simp] theorem dirHandle_win (i kind : Nat) (f : Nat → List Byte → Dev → Dev) (d : Dev)
    (h : ∀ v x e, (f v x e).win = e.win) :
    (dirHandle i kind f d).win = d.win := by
  unfold dirHandle; dsimp only; (repeat' split) <;> simp [h]

@[simp] theorem dirHandle_cnt (i kind : Nat) (f : Nat → List Byte → Dev → Dev) (d : Dev)
    (h : ∀ v x e, (f v x e).cnt = e.cnt) :
    (dirHandle i kind f d).cnt = d.cnt := by
  unfold dirHandle; dsimp only; (repeat' split) <;> simp [h]

@[simp] theorem dirHandle_pwr (i kind : Nat) (f : Nat → List Byte → Dev → Dev) (d : Dev)
    (h : ∀ v x e, (f v x e).pwr = e.pwr) :
    (dirHandle i kind f d).pwr = d.pwr := by
  unfold dirHandle; dsimp only; (repeat' split) <;> simp [h]

@[simp] theorem dirHandle_mgt (i kind : Nat) (f : Nat → List Byte → Dev → Dev) (d : Dev)
    (h : ∀ v x e, (f v x e).mgt = e.mgt) :
    (dirHandle i kind f d).mgt = d.mgt := by
  unfold dirHandle; dsimp only; (repeat' split) <;> simp [h]

@[simp] theorem dirHandle_boot (i kind : Nat) (f : Nat → List Byte → Dev → Dev) (d : Dev)
    (h : ∀ v x e, (f v x e).boot = e.boot) :
    (dirHandle i kind f d).boot = d.boot := by
  unfold dirHandle; dsimp only; (repeat' split) <;> simp [h]

@[simp] theorem dirHandle_alm (i kind : Nat) (f : Nat → List Byte → Dev → Dev) (d : Dev)
    (h : ∀ v x e, (f v x e).alm = e.alm) :
    (dirHandle i kind f d).alm = d.alm := by
  unfold dirHandle; dsimp only; (repeat' split) <;> simp [h]

@[simp] theorem dirHandle_par (i kind : Nat) (f : Nat → List Byte → Dev → Dev) (d : Dev)
    (h : ∀ v x e, (f v x e).par = e.par) :
    (dirHandle i kind f d).par = d.par := by
  unfold dirHandle; dsimp only; (repeat' split) <;> simp [h]

@[simp] theorem dirHandle_aud (i kind : Nat) (f : Nat → List Byte → Dev → Dev) (d : Dev)
    (h : ∀ v x e, (f v x e).aud = e.aud) :
    (dirHandle i kind f d).aud = d.aud := by
  unfold dirHandle; dsimp only; (repeat' split) <;> simp [h]

@[simp] theorem dirHandle_cal (i kind : Nat) (f : Nat → List Byte → Dev → Dev) (d : Dev)
    (h : ∀ v x e, (f v x e).cal = e.cal) :
    (dirHandle i kind f d).cal = d.cal := by
  unfold dirHandle; dsimp only; (repeat' split) <;> simp [h]

@[simp] theorem dirHandle_mix (i kind : Nat) (f : Nat → List Byte → Dev → Dev) (d : Dev)
    (h : ∀ v x e, (f v x e).mix = e.mix) :
    (dirHandle i kind f d).mix = d.mix := by
  unfold dirHandle; dsimp only; (repeat' split) <;> simp [h]

@[simp] theorem dirHandle_outs (i kind : Nat) (f : Nat → List Byte → Dev → Dev) (d : Dev)
    (h : ∀ v x e, (f v x e).outs = e.outs) :
    (dirHandle i kind f d).outs = d.outs := by
  unfold dirHandle; dsimp only; (repeat' split) <;> simp [h]

@[simp] theorem dirHandle_tdm (i kind : Nat) (f : Nat → List Byte → Dev → Dev) (d : Dev)
    (h : ∀ v x e, (f v x e).tdm = e.tdm) :
    (dirHandle i kind f d).tdm = d.tdm := by
  unfold dirHandle; dsimp only; (repeat' split) <;> simp [h]

@[simp] theorem dirHandle_ser (i kind : Nat) (f : Nat → List Byte → Dev → Dev) (d : Dev)
    (h : ∀ v x e, (f v x e).ser = e.ser) :
    (dirHandle i kind f d).ser = d.ser := by
  unfold dirHandle; dsimp only; (repeat' split) <;> simp [h]

@[simp] theorem directiveArmDev_keeps (i : Nat) (d : Dev) :
    (directiveArmDev i d).fresh = d.fresh ∧ (directiveArmDev i d).frame = d.frame ∧ (directiveArmDev i d).win = d.win ∧ (directiveArmDev i d).pwr = d.pwr ∧ (directiveArmDev i d).mgt = d.mgt ∧ (directiveArmDev i d).boot = d.boot ∧ (directiveArmDev i d).alm = d.alm ∧ (directiveArmDev i d).mix = d.mix ∧ (directiveArmDev i d).outs = d.outs ∧ (directiveArmDev i d).tdm = d.tdm ∧ (directiveArmDev i d).ser = d.ser := by
  simp -implicitDefEqProofs [directiveArmDev]

@[simp] theorem cutPool_keeps (v : Nat) (d : Dev) :
    (cutPool v d).fresh = d.fresh ∧ (cutPool v d).frame = d.frame ∧ (cutPool v d).win = d.win ∧ (cutPool v d).pwr = d.pwr ∧ (cutPool v d).mgt = d.mgt ∧ (cutPool v d).boot = d.boot ∧ (cutPool v d).alm = d.alm ∧ (cutPool v d).cal = d.cal ∧ (cutPool v d).mix = d.mix ∧ (cutPool v d).outs = d.outs ∧ (cutPool v d).tdm = d.tdm ∧ (cutPool v d).ser = d.ser ∧ (cutPool v d).cas = d.cas := by
  simp -implicitDefEqProofs [cutPool]

@[simp] theorem stateAction_keeps (a fade v : Nat) (d : Dev) :
    (stateAction a fade v d).fresh = d.fresh ∧ (stateAction a fade v d).frame = d.frame ∧ (stateAction a fade v d).win = d.win ∧ (stateAction a fade v d).pwr = d.pwr ∧ (stateAction a fade v d).mgt = d.mgt ∧ (stateAction a fade v d).boot = d.boot ∧ (stateAction a fade v d).alm = d.alm ∧ (stateAction a fade v d).cal = d.cal ∧ (stateAction a fade v d).mix = d.mix ∧ (stateAction a fade v d).outs = d.outs ∧ (stateAction a fade v d).tdm = d.tdm ∧ (stateAction a fade v d).ser = d.ser := by
  simp -implicitDefEqProofs [stateAction]

@[simp] theorem directiveStateDev_keeps (i : Nat) (d : Dev) :
    (directiveStateDev i d).fresh = d.fresh ∧ (directiveStateDev i d).frame = d.frame ∧ (directiveStateDev i d).win = d.win ∧ (directiveStateDev i d).pwr = d.pwr ∧ (directiveStateDev i d).mgt = d.mgt ∧ (directiveStateDev i d).boot = d.boot ∧ (directiveStateDev i d).alm = d.alm ∧ (directiveStateDev i d).cal = d.cal ∧ (directiveStateDev i d).mix = d.mix ∧ (directiveStateDev i d).outs = d.outs ∧ (directiveStateDev i d).tdm = d.tdm ∧ (directiveStateDev i d).ser = d.ser := by
  simp -implicitDefEqProofs [directiveStateDev]

@[simp] theorem directiveRetrigDev_keeps (i : Nat) (d : Dev) :
    (directiveRetrigDev i d).frame = d.frame ∧ (directiveRetrigDev i d).win = d.win ∧ (directiveRetrigDev i d).pwr = d.pwr ∧ (directiveRetrigDev i d).mgt = d.mgt ∧ (directiveRetrigDev i d).boot = d.boot ∧ (directiveRetrigDev i d).alm = d.alm ∧ (directiveRetrigDev i d).cal = d.cal ∧ (directiveRetrigDev i d).mix = d.mix ∧ (directiveRetrigDev i d).outs = d.outs ∧ (directiveRetrigDev i d).tdm = d.tdm ∧ (directiveRetrigDev i d).ser = d.ser := by
  simp -implicitDefEqProofs [directiveRetrigDev]

@[simp] theorem dirPos_fresh (i kind : Nat) (f : List Byte → Dev → Dev) (d : Dev)
    (h : ∀ x e, (f x e).fresh = e.fresh) :
    (dirPos i kind f d).fresh = d.fresh := by
  unfold dirPos; (repeat' split) <;> simp [h]

@[simp] theorem dirPos_mem (i kind : Nat) (f : List Byte → Dev → Dev) (d : Dev)
    (h : ∀ x e, (f x e).mem = e.mem) :
    (dirPos i kind f d).mem = d.mem := by
  unfold dirPos; (repeat' split) <;> simp [h]

@[simp] theorem dirPos_frame (i kind : Nat) (f : List Byte → Dev → Dev) (d : Dev)
    (h : ∀ x e, (f x e).frame = e.frame) :
    (dirPos i kind f d).frame = d.frame := by
  unfold dirPos; (repeat' split) <;> simp [h]

@[simp] theorem dirPos_port (i kind : Nat) (f : List Byte → Dev → Dev) (d : Dev)
    (h : ∀ x e, (f x e).port = e.port) :
    (dirPos i kind f d).port = d.port := by
  unfold dirPos; (repeat' split) <;> simp [h]

@[simp] theorem dirPos_win (i kind : Nat) (f : List Byte → Dev → Dev) (d : Dev)
    (h : ∀ x e, (f x e).win = e.win) :
    (dirPos i kind f d).win = d.win := by
  unfold dirPos; (repeat' split) <;> simp [h]

@[simp] theorem dirPos_cnt (i kind : Nat) (f : List Byte → Dev → Dev) (d : Dev)
    (h : ∀ x e, (f x e).cnt = e.cnt) :
    (dirPos i kind f d).cnt = d.cnt := by
  unfold dirPos; (repeat' split) <;> simp [h]

@[simp] theorem dirPos_pwr (i kind : Nat) (f : List Byte → Dev → Dev) (d : Dev)
    (h : ∀ x e, (f x e).pwr = e.pwr) :
    (dirPos i kind f d).pwr = d.pwr := by
  unfold dirPos; (repeat' split) <;> simp [h]

@[simp] theorem dirPos_mgt (i kind : Nat) (f : List Byte → Dev → Dev) (d : Dev)
    (h : ∀ x e, (f x e).mgt = e.mgt) :
    (dirPos i kind f d).mgt = d.mgt := by
  unfold dirPos; (repeat' split) <;> simp [h]

@[simp] theorem dirPos_boot (i kind : Nat) (f : List Byte → Dev → Dev) (d : Dev)
    (h : ∀ x e, (f x e).boot = e.boot) :
    (dirPos i kind f d).boot = d.boot := by
  unfold dirPos; (repeat' split) <;> simp [h]

@[simp] theorem dirPos_alm (i kind : Nat) (f : List Byte → Dev → Dev) (d : Dev)
    (h : ∀ x e, (f x e).alm = e.alm) :
    (dirPos i kind f d).alm = d.alm := by
  unfold dirPos; (repeat' split) <;> simp [h]

@[simp] theorem dirPos_par (i kind : Nat) (f : List Byte → Dev → Dev) (d : Dev)
    (h : ∀ x e, (f x e).par = e.par) :
    (dirPos i kind f d).par = d.par := by
  unfold dirPos; (repeat' split) <;> simp [h]

@[simp] theorem dirPos_aud (i kind : Nat) (f : List Byte → Dev → Dev) (d : Dev)
    (h : ∀ x e, (f x e).aud = e.aud) :
    (dirPos i kind f d).aud = d.aud := by
  unfold dirPos; (repeat' split) <;> simp [h]

@[simp] theorem dirPos_cal (i kind : Nat) (f : List Byte → Dev → Dev) (d : Dev)
    (h : ∀ x e, (f x e).cal = e.cal) :
    (dirPos i kind f d).cal = d.cal := by
  unfold dirPos; (repeat' split) <;> simp [h]

@[simp] theorem dirPos_mix (i kind : Nat) (f : List Byte → Dev → Dev) (d : Dev)
    (h : ∀ x e, (f x e).mix = e.mix) :
    (dirPos i kind f d).mix = d.mix := by
  unfold dirPos; (repeat' split) <;> simp [h]

@[simp] theorem dirPos_outs (i kind : Nat) (f : List Byte → Dev → Dev) (d : Dev)
    (h : ∀ x e, (f x e).outs = e.outs) :
    (dirPos i kind f d).outs = d.outs := by
  unfold dirPos; (repeat' split) <;> simp [h]

@[simp] theorem dirPos_tdm (i kind : Nat) (f : List Byte → Dev → Dev) (d : Dev)
    (h : ∀ x e, (f x e).tdm = e.tdm) :
    (dirPos i kind f d).tdm = d.tdm := by
  unfold dirPos; (repeat' split) <;> simp [h]

@[simp] theorem dirPos_ser (i kind : Nat) (f : List Byte → Dev → Dev) (d : Dev)
    (h : ∀ x e, (f x e).ser = e.ser) :
    (dirPos i kind f d).ser = d.ser := by
  unfold dirPos; (repeat' split) <;> simp [h]

@[simp] theorem directiveWriteDev_keeps (i : Nat) (d : Dev) :
    (directiveWriteDev i d).fresh = d.fresh ∧ (directiveWriteDev i d).frame = d.frame ∧ (directiveWriteDev i d).win = d.win ∧ (directiveWriteDev i d).pwr = d.pwr ∧ (directiveWriteDev i d).mgt = d.mgt ∧ (directiveWriteDev i d).boot = d.boot ∧ (directiveWriteDev i d).alm = d.alm ∧ (directiveWriteDev i d).par = d.par ∧ (directiveWriteDev i d).aud = d.aud ∧ (directiveWriteDev i d).cal = d.cal ∧ (directiveWriteDev i d).mix = d.mix ∧ (directiveWriteDev i d).outs = d.outs ∧ (directiveWriteDev i d).tdm = d.tdm ∧ (directiveWriteDev i d).ser = d.ser := by
  simp -implicitDefEqProofs [directiveWriteDev]

@[simp] theorem directiveGlfoDev_keeps (i : Nat) (d : Dev) :
    (directiveGlfoDev i d).fresh = d.fresh ∧ (directiveGlfoDev i d).mem = d.mem ∧ (directiveGlfoDev i d).frame = d.frame ∧ (directiveGlfoDev i d).port = d.port ∧ (directiveGlfoDev i d).win = d.win ∧ (directiveGlfoDev i d).cnt = d.cnt ∧ (directiveGlfoDev i d).pwr = d.pwr ∧ (directiveGlfoDev i d).mgt = d.mgt ∧ (directiveGlfoDev i d).boot = d.boot ∧ (directiveGlfoDev i d).alm = d.alm ∧ (directiveGlfoDev i d).par = d.par ∧ (directiveGlfoDev i d).cal = d.cal ∧ (directiveGlfoDev i d).mix = d.mix ∧ (directiveGlfoDev i d).outs = d.outs ∧ (directiveGlfoDev i d).tdm = d.tdm ∧ (directiveGlfoDev i d).ser = d.ser := by
  simp -implicitDefEqProofs [directiveGlfoDev]

@[simp] theorem glfoRestartDev_keeps (v : Word) (d : Dev) :
    (glfoRestartDev v d).regs = d.regs ∧ (glfoRestartDev v d).fresh = d.fresh ∧ (glfoRestartDev v d).mem = d.mem ∧ (glfoRestartDev v d).frame = d.frame ∧ (glfoRestartDev v d).port = d.port ∧ (glfoRestartDev v d).win = d.win ∧ (glfoRestartDev v d).cnt = d.cnt ∧ (glfoRestartDev v d).pwr = d.pwr ∧ (glfoRestartDev v d).mgt = d.mgt ∧ (glfoRestartDev v d).boot = d.boot ∧ (glfoRestartDev v d).alm = d.alm ∧ (glfoRestartDev v d).par = d.par ∧ (glfoRestartDev v d).cal = d.cal ∧ (glfoRestartDev v d).mix = d.mix ∧ (glfoRestartDev v d).outs = d.outs ∧ (glfoRestartDev v d).tdm = d.tdm ∧ (glfoRestartDev v d).ser = d.ser := by
  simp -implicitDefEqProofs [glfoRestartDev]

@[simp] theorem remoteFreed_keeps (q h : Nat) (d : Dev) :
    (remoteFreed q h d).regs = d.regs ∧ (remoteFreed q h d).fresh = d.fresh ∧ (remoteFreed q h d).mem = d.mem ∧ (remoteFreed q h d).frame = d.frame ∧ (remoteFreed q h d).port = d.port ∧ (remoteFreed q h d).win = d.win ∧ (remoteFreed q h d).cnt = d.cnt ∧ (remoteFreed q h d).pwr = d.pwr ∧ (remoteFreed q h d).mgt = d.mgt ∧ (remoteFreed q h d).boot = d.boot ∧ (remoteFreed q h d).alm = d.alm ∧ (remoteFreed q h d).aud = d.aud ∧ (remoteFreed q h d).cal = d.cal ∧ (remoteFreed q h d).mix = d.mix ∧ (remoteFreed q h d).outs = d.outs ∧ (remoteFreed q h d).tdm = d.tdm ∧ (remoteFreed q h d).ser = d.ser ∧ (remoteFreed q h d).cas = d.cas := by
  simp -implicitDefEqProofs [remoteFreed]

@[simp] theorem landOne_keeps (d : Dev) :
    (landOne d).1.mem = d.mem ∧ (landOne d).1.frame = d.frame ∧ (landOne d).1.port = d.port ∧ (landOne d).1.win = d.win ∧ (landOne d).1.pwr = d.pwr ∧ (landOne d).1.mgt = d.mgt ∧ (landOne d).1.boot = d.boot ∧ (landOne d).1.par = d.par ∧ (landOne d).1.aud = d.aud ∧ (landOne d).1.cal = d.cal ∧ (landOne d).1.mix = d.mix ∧ (landOne d).1.outs = d.outs ∧ (landOne d).1.tdm = d.tdm ∧ (landOne d).1.ser = d.ser := by
  refine ⟨?_, ?_, ?_, ?_, ?_, ?_, ?_, ?_, ?_, ?_, ?_, ?_, ?_, ?_⟩ <;> (unfold landOne; dsimp only; repeat' split) <;> simp -implicitDefEqProofs

@[simp] theorem landTasks_mem (n : Nat) (d : Dev) : (landTasks n d).mem = d.mem := by
  induction n generalizing d with
  | zero => rfl
  | succ n ih => unfold landTasks; (repeat' split) <;> simp [ih]

@[simp] theorem landTasks_frame (n : Nat) (d : Dev) : (landTasks n d).frame = d.frame := by
  induction n generalizing d with
  | zero => rfl
  | succ n ih => unfold landTasks; (repeat' split) <;> simp [ih]

@[simp] theorem landTasks_port (n : Nat) (d : Dev) : (landTasks n d).port = d.port := by
  induction n generalizing d with
  | zero => rfl
  | succ n ih => unfold landTasks; (repeat' split) <;> simp [ih]

@[simp] theorem landTasks_win (n : Nat) (d : Dev) : (landTasks n d).win = d.win := by
  induction n generalizing d with
  | zero => rfl
  | succ n ih => unfold landTasks; (repeat' split) <;> simp [ih]

@[simp] theorem landTasks_pwr (n : Nat) (d : Dev) : (landTasks n d).pwr = d.pwr := by
  induction n generalizing d with
  | zero => rfl
  | succ n ih => unfold landTasks; (repeat' split) <;> simp [ih]

@[simp] theorem landTasks_mgt (n : Nat) (d : Dev) : (landTasks n d).mgt = d.mgt := by
  induction n generalizing d with
  | zero => rfl
  | succ n ih => unfold landTasks; (repeat' split) <;> simp [ih]

@[simp] theorem landTasks_boot (n : Nat) (d : Dev) : (landTasks n d).boot = d.boot := by
  induction n generalizing d with
  | zero => rfl
  | succ n ih => unfold landTasks; (repeat' split) <;> simp [ih]

@[simp] theorem landTasks_par (n : Nat) (d : Dev) : (landTasks n d).par = d.par := by
  induction n generalizing d with
  | zero => rfl
  | succ n ih => unfold landTasks; (repeat' split) <;> simp [ih]

@[simp] theorem landTasks_aud (n : Nat) (d : Dev) : (landTasks n d).aud = d.aud := by
  induction n generalizing d with
  | zero => rfl
  | succ n ih => unfold landTasks; (repeat' split) <;> simp [ih]

@[simp] theorem landTasks_cal (n : Nat) (d : Dev) : (landTasks n d).cal = d.cal := by
  induction n generalizing d with
  | zero => rfl
  | succ n ih => unfold landTasks; (repeat' split) <;> simp [ih]

@[simp] theorem landTasks_mix (n : Nat) (d : Dev) : (landTasks n d).mix = d.mix := by
  induction n generalizing d with
  | zero => rfl
  | succ n ih => unfold landTasks; (repeat' split) <;> simp [ih]

@[simp] theorem landTasks_outs (n : Nat) (d : Dev) : (landTasks n d).outs = d.outs := by
  induction n generalizing d with
  | zero => rfl
  | succ n ih => unfold landTasks; (repeat' split) <;> simp [ih]

@[simp] theorem landTasks_tdm (n : Nat) (d : Dev) : (landTasks n d).tdm = d.tdm := by
  induction n generalizing d with
  | zero => rfl
  | succ n ih => unfold landTasks; (repeat' split) <;> simp [ih]

@[simp] theorem landTasks_ser (n : Nat) (d : Dev) : (landTasks n d).ser = d.ser := by
  induction n generalizing d with
  | zero => rfl
  | succ n ih => unfold landTasks; (repeat' split) <;> simp [ih]

@[simp] theorem commitNext_frame (d : Dev) : (commitNext d).frame = d.frame := by
  unfold commitNext; split
  · rfl
  · dsimp only; (repeat' split) <;> simp

@[simp] theorem commitNext_win (d : Dev) : (commitNext d).win = d.win := by
  unfold commitNext; split
  · rfl
  · dsimp only; (repeat' split) <;> simp

@[simp] theorem commitNext_pwr (d : Dev) : (commitNext d).pwr = d.pwr := by
  unfold commitNext; split
  · rfl
  · dsimp only; (repeat' split) <;> simp

@[simp] theorem commitNext_mgt (d : Dev) : (commitNext d).mgt = d.mgt := by
  unfold commitNext; split
  · rfl
  · dsimp only; (repeat' split) <;> simp

@[simp] theorem commitNext_boot (d : Dev) : (commitNext d).boot = d.boot := by
  unfold commitNext; split
  · rfl
  · dsimp only; (repeat' split) <;> simp

@[simp] theorem commitNext_mix (d : Dev) : (commitNext d).mix = d.mix := by
  unfold commitNext; split
  · rfl
  · dsimp only; (repeat' split) <;> simp

@[simp] theorem commitNext_outs (d : Dev) : (commitNext d).outs = d.outs := by
  unfold commitNext; split
  · rfl
  · dsimp only; (repeat' split) <;> simp

@[simp] theorem commitNext_tdm (d : Dev) : (commitNext d).tdm = d.tdm := by
  unfold commitNext; split
  · rfl
  · dsimp only; (repeat' split) <;> simp

@[simp] theorem commitNext_ser (d : Dev) : (commitNext d).ser = d.ser := by
  unfold commitNext; split
  · rfl
  · dsimp only; (repeat' split) <;> simp

@[simp] theorem commitAll_frame (d : Dev) : (commitAll d).frame = d.frame := by
  unfold commitAll; split
  · dsimp only; first | (exact foldl_keeps (fun d => d.frame) _ (fun d _ => commitNext_frame d) _ _) | (refine (foldl_keeps (fun d => d.frame) _ (fun d _ => commitNext_frame d) _ _).trans ?_; simp)
  · rfl

@[simp] theorem commitAll_win (d : Dev) : (commitAll d).win = d.win := by
  unfold commitAll; split
  · dsimp only; first | (exact foldl_keeps (fun d => d.win) _ (fun d _ => commitNext_win d) _ _) | (refine (foldl_keeps (fun d => d.win) _ (fun d _ => commitNext_win d) _ _).trans ?_; simp)
  · rfl

@[simp] theorem commitAll_pwr (d : Dev) : (commitAll d).pwr = d.pwr := by
  unfold commitAll; split
  · dsimp only; first | (exact foldl_keeps (fun d => d.pwr) _ (fun d _ => commitNext_pwr d) _ _) | (refine (foldl_keeps (fun d => d.pwr) _ (fun d _ => commitNext_pwr d) _ _).trans ?_; simp)
  · rfl

@[simp] theorem commitAll_mgt (d : Dev) : (commitAll d).mgt = d.mgt := by
  unfold commitAll; split
  · dsimp only; first | (exact foldl_keeps (fun d => d.mgt) _ (fun d _ => commitNext_mgt d) _ _) | (refine (foldl_keeps (fun d => d.mgt) _ (fun d _ => commitNext_mgt d) _ _).trans ?_; simp)
  · rfl

@[simp] theorem commitAll_boot (d : Dev) : (commitAll d).boot = d.boot := by
  unfold commitAll; split
  · dsimp only; first | (exact foldl_keeps (fun d => d.boot) _ (fun d _ => commitNext_boot d) _ _) | (refine (foldl_keeps (fun d => d.boot) _ (fun d _ => commitNext_boot d) _ _).trans ?_; simp)
  · rfl

@[simp] theorem commitAll_mix (d : Dev) : (commitAll d).mix = d.mix := by
  unfold commitAll; split
  · dsimp only; first | (exact foldl_keeps (fun d => d.mix) _ (fun d _ => commitNext_mix d) _ _) | (refine (foldl_keeps (fun d => d.mix) _ (fun d _ => commitNext_mix d) _ _).trans ?_; simp)
  · rfl

@[simp] theorem commitAll_outs (d : Dev) : (commitAll d).outs = d.outs := by
  unfold commitAll; split
  · dsimp only; first | (exact foldl_keeps (fun d => d.outs) _ (fun d _ => commitNext_outs d) _ _) | (refine (foldl_keeps (fun d => d.outs) _ (fun d _ => commitNext_outs d) _ _).trans ?_; simp)
  · rfl

@[simp] theorem commitAll_tdm (d : Dev) : (commitAll d).tdm = d.tdm := by
  unfold commitAll; split
  · dsimp only; first | (exact foldl_keeps (fun d => d.tdm) _ (fun d _ => commitNext_tdm d) _ _) | (refine (foldl_keeps (fun d => d.tdm) _ (fun d _ => commitNext_tdm d) _ _).trans ?_; simp)
  · rfl

@[simp] theorem commitAll_ser (d : Dev) : (commitAll d).ser = d.ser := by
  unfold commitAll; split
  · dsimp only; first | (exact foldl_keeps (fun d => d.ser) _ (fun d _ => commitNext_ser d) _ _) | (refine (foldl_keeps (fun d => d.ser) _ (fun d _ => commitNext_ser d) _ _).trans ?_; simp)
  · rfl

@[simp] theorem remoteRelease_keeps (d : Dev) :
    (remoteRelease d).fresh = d.fresh ∧ (remoteRelease d).frame = d.frame ∧ (remoteRelease d).win = d.win ∧ (remoteRelease d).pwr = d.pwr ∧ (remoteRelease d).mgt = d.mgt ∧ (remoteRelease d).boot = d.boot ∧ (remoteRelease d).alm = d.alm ∧ (remoteRelease d).cal = d.cal ∧ (remoteRelease d).mix = d.mix ∧ (remoteRelease d).outs = d.outs ∧ (remoteRelease d).tdm = d.tdm ∧ (remoteRelease d).ser = d.ser := by
  simp -implicitDefEqProofs [remoteRelease]

@[simp] theorem voicesDue_keeps (d : Dev) :
    (voicesDue d).fresh = d.fresh ∧ (voicesDue d).frame = d.frame ∧ (voicesDue d).win = d.win ∧ (voicesDue d).pwr = d.pwr ∧ (voicesDue d).mgt = d.mgt ∧ (voicesDue d).boot = d.boot ∧ (voicesDue d).alm = d.alm ∧ (voicesDue d).mix = d.mix ∧ (voicesDue d).outs = d.outs ∧ (voicesDue d).tdm = d.tdm ∧ (voicesDue d).ser = d.ser := by
  simp -implicitDefEqProofs [voicesDue]

@[simp] theorem foresee_keeps (base : Nat) (d : Dev) :
    (foresee base d).win = d.win ∧ (foresee base d).pwr = d.pwr ∧ (foresee base d).mgt = d.mgt ∧ (foresee base d).boot = d.boot ∧ (foresee base d).mix = d.mix ∧ (foresee base d).outs = d.outs ∧ (foresee base d).tdm = d.tdm ∧ (foresee base d).ser = d.ser := by
  simp -implicitDefEqProofs [foresee]

@[simp] theorem grantRelease_keeps (d : Dev) :
    (grantRelease d).regs = d.regs ∧ (grantRelease d).fresh = d.fresh ∧ (grantRelease d).mem = d.mem ∧ (grantRelease d).frame = d.frame ∧ (grantRelease d).port = d.port ∧ (grantRelease d).win = d.win ∧ (grantRelease d).cnt = d.cnt ∧ (grantRelease d).pwr = d.pwr ∧ (grantRelease d).mgt = d.mgt ∧ (grantRelease d).boot = d.boot ∧ (grantRelease d).alm = d.alm ∧ (grantRelease d).par = d.par ∧ (grantRelease d).aud = d.aud ∧ (grantRelease d).cal = d.cal ∧ (grantRelease d).mix = d.mix ∧ (grantRelease d).outs = d.outs ∧ (grantRelease d).tdm = d.tdm ∧ (grantRelease d).ser = d.ser := by
  simp -implicitDefEqProofs [grantRelease]

@[simp] theorem positionsLeave_keeps (d : Dev) :
    (positionsLeave d).fresh = d.fresh ∧ (positionsLeave d).mem = d.mem ∧ (positionsLeave d).frame = d.frame ∧ (positionsLeave d).port = d.port ∧ (positionsLeave d).win = d.win ∧ (positionsLeave d).cnt = d.cnt ∧ (positionsLeave d).pwr = d.pwr ∧ (positionsLeave d).boot = d.boot ∧ (positionsLeave d).alm = d.alm ∧ (positionsLeave d).aud = d.aud ∧ (positionsLeave d).cal = d.cal ∧ (positionsLeave d).mix = d.mix ∧ (positionsLeave d).outs = d.outs ∧ (positionsLeave d).tdm = d.tdm ∧ (positionsLeave d).ser = d.ser := by
  unfold positionsLeave; refine ⟨?_, ?_, ?_, ?_, ?_, ?_, ?_, ?_, ?_, ?_, ?_, ?_, ?_, ?_, ?_⟩ <;> (repeat' split) <;> simp -implicitDefEqProofs

@[simp] theorem masterRelease_keeps (d : Dev) :
    (masterRelease d).win = d.win ∧ (masterRelease d).pwr = d.pwr ∧ (masterRelease d).mgt = d.mgt ∧ (masterRelease d).boot = d.boot ∧ (masterRelease d).mix = d.mix ∧ (masterRelease d).outs = d.outs ∧ (masterRelease d).tdm = d.tdm ∧ (masterRelease d).ser = d.ser := by
  unfold masterRelease; refine ⟨?_, ?_, ?_, ?_, ?_, ?_, ?_, ?_⟩ <;> (repeat' split) <;> simp -implicitDefEqProofs

@[simp] theorem workerRelease_keeps (d : Dev) :
    (workerRelease d).regs = d.regs ∧ (workerRelease d).fresh = d.fresh ∧ (workerRelease d).mem = d.mem ∧ (workerRelease d).frame = d.frame ∧ (workerRelease d).port = d.port ∧ (workerRelease d).win = d.win ∧ (workerRelease d).cnt = d.cnt ∧ (workerRelease d).pwr = d.pwr ∧ (workerRelease d).mgt = d.mgt ∧ (workerRelease d).boot = d.boot ∧ (workerRelease d).alm = d.alm ∧ (workerRelease d).par = d.par ∧ (workerRelease d).aud = d.aud ∧ (workerRelease d).cal = d.cal ∧ (workerRelease d).mix = d.mix ∧ (workerRelease d).outs = d.outs ∧ (workerRelease d).tdm = d.tdm ∧ (workerRelease d).ser = d.ser := by
  simp -implicitDefEqProofs [workerRelease]

@[simp] theorem casWeight_keeps (d : Dev) :
    (casWeight d).regs = d.regs ∧ (casWeight d).fresh = d.fresh ∧ (casWeight d).mem = d.mem ∧ (casWeight d).frame = d.frame ∧ (casWeight d).port = d.port ∧ (casWeight d).win = d.win ∧ (casWeight d).cnt = d.cnt ∧ (casWeight d).pwr = d.pwr ∧ (casWeight d).mgt = d.mgt ∧ (casWeight d).boot = d.boot ∧ (casWeight d).alm = d.alm ∧ (casWeight d).par = d.par ∧ (casWeight d).aud = d.aud ∧ (casWeight d).cal = d.cal ∧ (casWeight d).mix = d.mix ∧ (casWeight d).outs = d.outs ∧ (casWeight d).tdm = d.tdm ∧ (casWeight d).ser = d.ser := by
  simp -implicitDefEqProofs [casWeight]

@[simp] theorem dirRelease_keeps (d : Dev) :
    (dirRelease d).regs = d.regs ∧ (dirRelease d).fresh = d.fresh ∧ (dirRelease d).mem = d.mem ∧ (dirRelease d).frame = d.frame ∧ (dirRelease d).port = d.port ∧ (dirRelease d).win = d.win ∧ (dirRelease d).cnt = d.cnt ∧ (dirRelease d).pwr = d.pwr ∧ (dirRelease d).mgt = d.mgt ∧ (dirRelease d).boot = d.boot ∧ (dirRelease d).alm = d.alm ∧ (dirRelease d).par = d.par ∧ (dirRelease d).aud = d.aud ∧ (dirRelease d).cal = d.cal ∧ (dirRelease d).mix = d.mix ∧ (dirRelease d).outs = d.outs ∧ (dirRelease d).tdm = d.tdm ∧ (dirRelease d).ser = d.ser := by
  simp -implicitDefEqProofs [dirRelease]

@[simp] theorem casRelease_keeps (d : Dev) :
    (casRelease d).win = d.win ∧ (casRelease d).pwr = d.pwr ∧ (casRelease d).mgt = d.mgt ∧ (casRelease d).boot = d.boot ∧ (casRelease d).mix = d.mix ∧ (casRelease d).outs = d.outs ∧ (casRelease d).tdm = d.tdm ∧ (casRelease d).ser = d.ser := by
  simp -implicitDefEqProofs [casRelease]

@[simp] theorem logStore_keeps (e : LogEv) (d : Dev) :
    (logStore e d).fresh = d.fresh ∧ (logStore e d).frame = d.frame ∧ (logStore e d).port = d.port ∧ (logStore e d).win = d.win ∧ (logStore e d).cnt = d.cnt ∧ (logStore e d).pwr = d.pwr ∧ (logStore e d).boot = d.boot ∧ (logStore e d).alm = d.alm ∧ (logStore e d).par = d.par ∧ (logStore e d).aud = d.aud ∧ (logStore e d).cal = d.cal ∧ (logStore e d).mix = d.mix ∧ (logStore e d).outs = d.outs ∧ (logStore e d).tdm = d.tdm ∧ (logStore e d).ser = d.ser := by
  simp -implicitDefEqProofs [logStore]

@[simp] theorem logFirst_keeps (d : Dev) :
    (logFirst d).fresh = d.fresh ∧ (logFirst d).frame = d.frame ∧ (logFirst d).port = d.port ∧ (logFirst d).win = d.win ∧ (logFirst d).cnt = d.cnt ∧ (logFirst d).pwr = d.pwr ∧ (logFirst d).boot = d.boot ∧ (logFirst d).alm = d.alm ∧ (logFirst d).par = d.par ∧ (logFirst d).aud = d.aud ∧ (logFirst d).cal = d.cal ∧ (logFirst d).mix = d.mix ∧ (logFirst d).outs = d.outs ∧ (logFirst d).tdm = d.tdm ∧ (logFirst d).ser = d.ser := by
  simp -implicitDefEqProofs [logFirst]

@[simp] theorem fwPut_keeps (e : LogEv) (d : Dev) :
    (fwPut e d).fresh = d.fresh ∧ (fwPut e d).frame = d.frame ∧ (fwPut e d).port = d.port ∧ (fwPut e d).win = d.win ∧ (fwPut e d).cnt = d.cnt ∧ (fwPut e d).pwr = d.pwr ∧ (fwPut e d).boot = d.boot ∧ (fwPut e d).alm = d.alm ∧ (fwPut e d).par = d.par ∧ (fwPut e d).aud = d.aud ∧ (fwPut e d).cal = d.cal ∧ (fwPut e d).mix = d.mix ∧ (fwPut e d).outs = d.outs ∧ (fwPut e d).tdm = d.tdm ∧ (fwPut e d).ser = d.ser := by
  simp -implicitDefEqProofs [fwPut]

@[simp] theorem fwLog_keeps (source code sev : Nat) (data : List Byte) (d : Dev) :
    (fwLog source code sev data d).fresh = d.fresh ∧ (fwLog source code sev data d).frame = d.frame ∧ (fwLog source code sev data d).port = d.port ∧ (fwLog source code sev data d).win = d.win ∧ (fwLog source code sev data d).cnt = d.cnt ∧ (fwLog source code sev data d).pwr = d.pwr ∧ (fwLog source code sev data d).boot = d.boot ∧ (fwLog source code sev data d).alm = d.alm ∧ (fwLog source code sev data d).par = d.par ∧ (fwLog source code sev data d).aud = d.aud ∧ (fwLog source code sev data d).cal = d.cal ∧ (fwLog source code sev data d).mix = d.mix ∧ (fwLog source code sev data d).outs = d.outs ∧ (fwLog source code sev data d).tdm = d.tdm ∧ (fwLog source code sev data d).ser = d.ser := by
  simp -implicitDefEqProofs [fwLog]

@[simp] theorem userDev_keeps (i : Nat) (d : Dev) :
    (userDev i d).frame = d.frame ∧ (userDev i d).win = d.win ∧ (userDev i d).pwr = d.pwr ∧ (userDev i d).boot = d.boot ∧ (userDev i d).mix = d.mix ∧ (userDev i d).outs = d.outs ∧ (userDev i d).tdm = d.tdm ∧ (userDev i d).ser = d.ser := by
  simp -implicitDefEqProofs [userDev]

@[simp] theorem decRelease_keeps (d : Dev) :
    (decRelease d).fresh = d.fresh ∧ (decRelease d).mem = d.mem ∧ (decRelease d).frame = d.frame ∧ (decRelease d).port = d.port ∧ (decRelease d).win = d.win ∧ (decRelease d).cnt = d.cnt ∧ (decRelease d).pwr = d.pwr ∧ (decRelease d).mgt = d.mgt ∧ (decRelease d).boot = d.boot ∧ (decRelease d).alm = d.alm ∧ (decRelease d).par = d.par ∧ (decRelease d).aud = d.aud ∧ (decRelease d).cal = d.cal ∧ (decRelease d).mix = d.mix ∧ (decRelease d).ser = d.ser ∧ (decRelease d).cas = d.cas := by
  simp -implicitDefEqProofs [decRelease]

@[simp] theorem tdmRelease_keeps (d : Dev) :
    (tdmRelease d).fresh = d.fresh ∧ (tdmRelease d).mem = d.mem ∧ (tdmRelease d).frame = d.frame ∧ (tdmRelease d).port = d.port ∧ (tdmRelease d).win = d.win ∧ (tdmRelease d).cnt = d.cnt ∧ (tdmRelease d).pwr = d.pwr ∧ (tdmRelease d).mgt = d.mgt ∧ (tdmRelease d).boot = d.boot ∧ (tdmRelease d).alm = d.alm ∧ (tdmRelease d).par = d.par ∧ (tdmRelease d).aud = d.aud ∧ (tdmRelease d).cal = d.cal ∧ (tdmRelease d).mix = d.mix ∧ (tdmRelease d).ser = d.ser ∧ (tdmRelease d).cas = d.cas := by
  unfold tdmRelease; refine ⟨?_, ?_, ?_, ?_, ?_, ?_, ?_, ?_, ?_, ?_, ?_, ?_, ?_, ?_, ?_, ?_⟩ <;> (repeat' split) <;> simp -implicitDefEqProofs

@[simp] theorem tdmCtlWrite_keeps (n : Nat) (v : Word) (d : Dev) :
    (tdmCtlWrite n v d).fresh = d.fresh ∧ (tdmCtlWrite n v d).mem = d.mem ∧ (tdmCtlWrite n v d).frame = d.frame ∧ (tdmCtlWrite n v d).port = d.port ∧ (tdmCtlWrite n v d).win = d.win ∧ (tdmCtlWrite n v d).cnt = d.cnt ∧ (tdmCtlWrite n v d).pwr = d.pwr ∧ (tdmCtlWrite n v d).mgt = d.mgt ∧ (tdmCtlWrite n v d).boot = d.boot ∧ (tdmCtlWrite n v d).alm = d.alm ∧ (tdmCtlWrite n v d).par = d.par ∧ (tdmCtlWrite n v d).aud = d.aud ∧ (tdmCtlWrite n v d).cal = d.cal ∧ (tdmCtlWrite n v d).outs = d.outs ∧ (tdmCtlWrite n v d).tdm = d.tdm ∧ (tdmCtlWrite n v d).ser = d.ser ∧ (tdmCtlWrite n v d).cas = d.cas := by
  simp -implicitDefEqProofs [tdmCtlWrite]

@[simp] theorem tdmPortEnableDev_keeps (n : Nat) (v : Word) (d : Dev) :
    (tdmPortEnableDev n v d).fresh = d.fresh ∧ (tdmPortEnableDev n v d).mem = d.mem ∧ (tdmPortEnableDev n v d).frame = d.frame ∧ (tdmPortEnableDev n v d).port = d.port ∧ (tdmPortEnableDev n v d).win = d.win ∧ (tdmPortEnableDev n v d).cnt = d.cnt ∧ (tdmPortEnableDev n v d).pwr = d.pwr ∧ (tdmPortEnableDev n v d).mgt = d.mgt ∧ (tdmPortEnableDev n v d).boot = d.boot ∧ (tdmPortEnableDev n v d).alm = d.alm ∧ (tdmPortEnableDev n v d).par = d.par ∧ (tdmPortEnableDev n v d).aud = d.aud ∧ (tdmPortEnableDev n v d).cal = d.cal ∧ (tdmPortEnableDev n v d).outs = d.outs ∧ (tdmPortEnableDev n v d).tdm = d.tdm ∧ (tdmPortEnableDev n v d).ser = d.ser ∧ (tdmPortEnableDev n v d).cas = d.cas := by
  simp -implicitDefEqProofs [tdmPortEnableDev]

@[simp] theorem tdmPortDisableDev_keeps (n : Nat) (v : Word) (d : Dev) :
    (tdmPortDisableDev n v d).fresh = d.fresh ∧ (tdmPortDisableDev n v d).mem = d.mem ∧ (tdmPortDisableDev n v d).frame = d.frame ∧ (tdmPortDisableDev n v d).port = d.port ∧ (tdmPortDisableDev n v d).win = d.win ∧ (tdmPortDisableDev n v d).cnt = d.cnt ∧ (tdmPortDisableDev n v d).pwr = d.pwr ∧ (tdmPortDisableDev n v d).mgt = d.mgt ∧ (tdmPortDisableDev n v d).boot = d.boot ∧ (tdmPortDisableDev n v d).alm = d.alm ∧ (tdmPortDisableDev n v d).par = d.par ∧ (tdmPortDisableDev n v d).aud = d.aud ∧ (tdmPortDisableDev n v d).cal = d.cal ∧ (tdmPortDisableDev n v d).outs = d.outs ∧ (tdmPortDisableDev n v d).tdm = d.tdm ∧ (tdmPortDisableDev n v d).ser = d.ser ∧ (tdmPortDisableDev n v d).cas = d.cas := by
  simp -implicitDefEqProofs [tdmPortDisableDev]

@[simp] theorem tdmPortStopDev_keeps (n : Nat) (d : Dev) :
    (tdmPortStopDev n d).regs = d.regs ∧ (tdmPortStopDev n d).fresh = d.fresh ∧ (tdmPortStopDev n d).mem = d.mem ∧ (tdmPortStopDev n d).frame = d.frame ∧ (tdmPortStopDev n d).port = d.port ∧ (tdmPortStopDev n d).win = d.win ∧ (tdmPortStopDev n d).cnt = d.cnt ∧ (tdmPortStopDev n d).pwr = d.pwr ∧ (tdmPortStopDev n d).mgt = d.mgt ∧ (tdmPortStopDev n d).boot = d.boot ∧ (tdmPortStopDev n d).alm = d.alm ∧ (tdmPortStopDev n d).par = d.par ∧ (tdmPortStopDev n d).aud = d.aud ∧ (tdmPortStopDev n d).cal = d.cal ∧ (tdmPortStopDev n d).mix = d.mix ∧ (tdmPortStopDev n d).outs = d.outs ∧ (tdmPortStopDev n d).ser = d.ser ∧ (tdmPortStopDev n d).cas = d.cas := by
  simp -implicitDefEqProofs [tdmPortStopDev]

@[simp] theorem tdmoFrameDev_keeps (n : Nat) (d : Dev) :
    (tdmoFrameDev n d).regs = d.regs ∧ (tdmoFrameDev n d).fresh = d.fresh ∧ (tdmoFrameDev n d).mem = d.mem ∧ (tdmoFrameDev n d).frame = d.frame ∧ (tdmoFrameDev n d).port = d.port ∧ (tdmoFrameDev n d).win = d.win ∧ (tdmoFrameDev n d).cnt = d.cnt ∧ (tdmoFrameDev n d).pwr = d.pwr ∧ (tdmoFrameDev n d).mgt = d.mgt ∧ (tdmoFrameDev n d).boot = d.boot ∧ (tdmoFrameDev n d).alm = d.alm ∧ (tdmoFrameDev n d).par = d.par ∧ (tdmoFrameDev n d).aud = d.aud ∧ (tdmoFrameDev n d).cal = d.cal ∧ (tdmoFrameDev n d).mix = d.mix ∧ (tdmoFrameDev n d).outs = d.outs ∧ (tdmoFrameDev n d).ser = d.ser ∧ (tdmoFrameDev n d).cas = d.cas := by
  simp -implicitDefEqProofs [tdmoFrameDev]

@[simp] theorem extMissing_keeps (n : Nat) (d : Dev) :
    (extMissing n d).fresh = d.fresh ∧ (extMissing n d).mem = d.mem ∧ (extMissing n d).frame = d.frame ∧ (extMissing n d).port = d.port ∧ (extMissing n d).win = d.win ∧ (extMissing n d).cnt = d.cnt ∧ (extMissing n d).pwr = d.pwr ∧ (extMissing n d).mgt = d.mgt ∧ (extMissing n d).boot = d.boot ∧ (extMissing n d).alm = d.alm ∧ (extMissing n d).par = d.par ∧ (extMissing n d).aud = d.aud ∧ (extMissing n d).cal = d.cal ∧ (extMissing n d).mix = d.mix ∧ (extMissing n d).outs = d.outs ∧ (extMissing n d).tdm = d.tdm ∧ (extMissing n d).ser = d.ser ∧ (extMissing n d).cas = d.cas := by
  simp -implicitDefEqProofs [extMissing]

@[simp] theorem tdmiFrameDev_keeps (n : Nat) (slots : List Word) (d : Dev) :
    (tdmiFrameDev n slots d).fresh = d.fresh ∧ (tdmiFrameDev n slots d).mem = d.mem ∧ (tdmiFrameDev n slots d).frame = d.frame ∧ (tdmiFrameDev n slots d).port = d.port ∧ (tdmiFrameDev n slots d).win = d.win ∧ (tdmiFrameDev n slots d).cnt = d.cnt ∧ (tdmiFrameDev n slots d).pwr = d.pwr ∧ (tdmiFrameDev n slots d).mgt = d.mgt ∧ (tdmiFrameDev n slots d).boot = d.boot ∧ (tdmiFrameDev n slots d).alm = d.alm ∧ (tdmiFrameDev n slots d).par = d.par ∧ (tdmiFrameDev n slots d).aud = d.aud ∧ (tdmiFrameDev n slots d).cal = d.cal ∧ (tdmiFrameDev n slots d).mix = d.mix ∧ (tdmiFrameDev n slots d).outs = d.outs ∧ (tdmiFrameDev n slots d).ser = d.ser ∧ (tdmiFrameDev n slots d).cas = d.cas := by
  simp -implicitDefEqProofs [tdmiFrameDev]

@[simp] theorem tdmLockDev_keeps (n phase : Nat) (d : Dev) :
    (tdmLockDev n phase d).regs = d.regs ∧ (tdmLockDev n phase d).fresh = d.fresh ∧ (tdmLockDev n phase d).mem = d.mem ∧ (tdmLockDev n phase d).frame = d.frame ∧ (tdmLockDev n phase d).port = d.port ∧ (tdmLockDev n phase d).win = d.win ∧ (tdmLockDev n phase d).cnt = d.cnt ∧ (tdmLockDev n phase d).pwr = d.pwr ∧ (tdmLockDev n phase d).mgt = d.mgt ∧ (tdmLockDev n phase d).boot = d.boot ∧ (tdmLockDev n phase d).alm = d.alm ∧ (tdmLockDev n phase d).par = d.par ∧ (tdmLockDev n phase d).aud = d.aud ∧ (tdmLockDev n phase d).cal = d.cal ∧ (tdmLockDev n phase d).mix = d.mix ∧ (tdmLockDev n phase d).outs = d.outs ∧ (tdmLockDev n phase d).ser = d.ser ∧ (tdmLockDev n phase d).cas = d.cas := by
  simp -implicitDefEqProofs [tdmLockDev]

@[simp] theorem dropLock_keeps (n cnt irq code : Nat) (loss : Bool) (d : Dev) :
    (dropLock n cnt irq code loss d).fresh = d.fresh ∧ (dropLock n cnt irq code loss d).mem = d.mem ∧ (dropLock n cnt irq code loss d).frame = d.frame ∧ (dropLock n cnt irq code loss d).port = d.port ∧ (dropLock n cnt irq code loss d).win = d.win ∧ (dropLock n cnt irq code loss d).pwr = d.pwr ∧ (dropLock n cnt irq code loss d).boot = d.boot ∧ (dropLock n cnt irq code loss d).alm = d.alm ∧ (dropLock n cnt irq code loss d).par = d.par ∧ (dropLock n cnt irq code loss d).aud = d.aud ∧ (dropLock n cnt irq code loss d).cal = d.cal ∧ (dropLock n cnt irq code loss d).mix = d.mix ∧ (dropLock n cnt irq code loss d).outs = d.outs ∧ (dropLock n cnt irq code loss d).ser = d.ser ∧ (dropLock n cnt irq code loss d).cas = d.cas := by
  unfold dropLock; refine ⟨?_, ?_, ?_, ?_, ?_, ?_, ?_, ?_, ?_, ?_, ?_, ?_, ?_, ?_, ?_⟩ <;> (repeat' split) <;> simp -implicitDefEqProofs

@[simp] theorem tdmSlipDev_keeps (n : Nat) (d : Dev) :
    (tdmSlipDev n d).fresh = d.fresh ∧ (tdmSlipDev n d).mem = d.mem ∧ (tdmSlipDev n d).frame = d.frame ∧ (tdmSlipDev n d).port = d.port ∧ (tdmSlipDev n d).win = d.win ∧ (tdmSlipDev n d).pwr = d.pwr ∧ (tdmSlipDev n d).boot = d.boot ∧ (tdmSlipDev n d).alm = d.alm ∧ (tdmSlipDev n d).par = d.par ∧ (tdmSlipDev n d).aud = d.aud ∧ (tdmSlipDev n d).cal = d.cal ∧ (tdmSlipDev n d).mix = d.mix ∧ (tdmSlipDev n d).outs = d.outs ∧ (tdmSlipDev n d).ser = d.ser ∧ (tdmSlipDev n d).cas = d.cas := by
  simp -implicitDefEqProofs [tdmSlipDev]

@[simp] theorem tdmLossDev_keeps (n : Nat) (d : Dev) :
    (tdmLossDev n d).fresh = d.fresh ∧ (tdmLossDev n d).mem = d.mem ∧ (tdmLossDev n d).frame = d.frame ∧ (tdmLossDev n d).port = d.port ∧ (tdmLossDev n d).win = d.win ∧ (tdmLossDev n d).pwr = d.pwr ∧ (tdmLossDev n d).boot = d.boot ∧ (tdmLossDev n d).alm = d.alm ∧ (tdmLossDev n d).par = d.par ∧ (tdmLossDev n d).aud = d.aud ∧ (tdmLossDev n d).cal = d.cal ∧ (tdmLossDev n d).mix = d.mix ∧ (tdmLossDev n d).outs = d.outs ∧ (tdmLossDev n d).ser = d.ser ∧ (tdmLossDev n d).cas = d.cas := by
  simp -implicitDefEqProofs [tdmLossDev]

@[simp] theorem mgtFaultClearDev_keeps (v : Word) (d : Dev) :
    (mgtFaultClearDev v d).fresh = d.fresh ∧ (mgtFaultClearDev v d).mem = d.mem ∧ (mgtFaultClearDev v d).frame = d.frame ∧ (mgtFaultClearDev v d).port = d.port ∧ (mgtFaultClearDev v d).win = d.win ∧ (mgtFaultClearDev v d).cnt = d.cnt ∧ (mgtFaultClearDev v d).pwr = d.pwr ∧ (mgtFaultClearDev v d).mgt = d.mgt ∧ (mgtFaultClearDev v d).boot = d.boot ∧ (mgtFaultClearDev v d).alm = d.alm ∧ (mgtFaultClearDev v d).par = d.par ∧ (mgtFaultClearDev v d).aud = d.aud ∧ (mgtFaultClearDev v d).cal = d.cal ∧ (mgtFaultClearDev v d).mix = d.mix ∧ (mgtFaultClearDev v d).outs = d.outs ∧ (mgtFaultClearDev v d).tdm = d.tdm ∧ (mgtFaultClearDev v d).ser = d.ser ∧ (mgtFaultClearDev v d).cas = d.cas := by
  simp -implicitDefEqProofs [mgtFaultClearDev]

@[simp] theorem onRequest_keeps (n : Nat) (d : Dev) :
    (onRequest n d).fresh = d.fresh ∧ (onRequest n d).mem = d.mem ∧ (onRequest n d).frame = d.frame ∧ (onRequest n d).port = d.port ∧ (onRequest n d).win = d.win ∧ (onRequest n d).pwr = d.pwr ∧ (onRequest n d).mgt = d.mgt ∧ (onRequest n d).boot = d.boot ∧ (onRequest n d).alm = d.alm ∧ (onRequest n d).par = d.par ∧ (onRequest n d).aud = d.aud ∧ (onRequest n d).mix = d.mix ∧ (onRequest n d).outs = d.outs ∧ (onRequest n d).tdm = d.tdm ∧ (onRequest n d).ser = d.ser ∧ (onRequest n d).cas = d.cas := by
  unfold onRequest; refine ⟨?_, ?_, ?_, ?_, ?_, ?_, ?_, ?_, ?_, ?_, ?_, ?_, ?_, ?_, ?_, ?_⟩ <;> (repeat' split) <;> simp -implicitDefEqProofs

@[simp] theorem skimEntry_keeps (c : Nat) (d : Dev) :
    (skimEntry c d).regs = d.regs ∧ (skimEntry c d).fresh = d.fresh ∧ (skimEntry c d).mem = d.mem ∧ (skimEntry c d).frame = d.frame ∧ (skimEntry c d).port = d.port ∧ (skimEntry c d).win = d.win ∧ (skimEntry c d).cnt = d.cnt ∧ (skimEntry c d).pwr = d.pwr ∧ (skimEntry c d).mgt = d.mgt ∧ (skimEntry c d).boot = d.boot ∧ (skimEntry c d).alm = d.alm ∧ (skimEntry c d).par = d.par ∧ (skimEntry c d).cal = d.cal ∧ (skimEntry c d).mix = d.mix ∧ (skimEntry c d).outs = d.outs ∧ (skimEntry c d).tdm = d.tdm ∧ (skimEntry c d).ser = d.ser ∧ (skimEntry c d).cas = d.cas := by
  simp -implicitDefEqProofs [skimEntry]

@[simp] theorem onAck_keeps (n : Nat) (d : Dev) :
    (onAck n d).regs = d.regs ∧ (onAck n d).fresh = d.fresh ∧ (onAck n d).mem = d.mem ∧ (onAck n d).frame = d.frame ∧ (onAck n d).port = d.port ∧ (onAck n d).win = d.win ∧ (onAck n d).cnt = d.cnt ∧ (onAck n d).pwr = d.pwr ∧ (onAck n d).mgt = d.mgt ∧ (onAck n d).boot = d.boot ∧ (onAck n d).par = d.par ∧ (onAck n d).cal = d.cal ∧ (onAck n d).mix = d.mix ∧ (onAck n d).outs = d.outs ∧ (onAck n d).tdm = d.tdm ∧ (onAck n d).ser = d.ser ∧ (onAck n d).cas = d.cas := by
  unfold onAck; refine ⟨?_, ?_, ?_, ?_, ?_, ?_, ?_, ?_, ?_, ?_, ?_, ?_, ?_, ?_, ?_, ?_, ?_⟩ <;> (repeat' split) <;> simp -implicitDefEqProofs

@[simp] theorem dropRegs_keeps (n : Nat) (d : Dev) :
    (dropRegs n d).fresh = d.fresh ∧ (dropRegs n d).mem = d.mem ∧ (dropRegs n d).frame = d.frame ∧ (dropRegs n d).port = d.port ∧ (dropRegs n d).win = d.win ∧ (dropRegs n d).cnt = d.cnt ∧ (dropRegs n d).pwr = d.pwr ∧ (dropRegs n d).mgt = d.mgt ∧ (dropRegs n d).boot = d.boot ∧ (dropRegs n d).alm = d.alm ∧ (dropRegs n d).par = d.par ∧ (dropRegs n d).aud = d.aud ∧ (dropRegs n d).cal = d.cal ∧ (dropRegs n d).outs = d.outs ∧ (dropRegs n d).tdm = d.tdm ∧ (dropRegs n d).ser = d.ser ∧ (dropRegs n d).cas = d.cas := by
  unfold dropRegs; refine ⟨?_, ?_, ?_, ?_, ?_, ?_, ?_, ?_, ?_, ?_, ?_, ?_, ?_, ?_, ?_, ?_, ?_⟩ <;> (repeat' split) <;> simp -implicitDefEqProofs

@[simp] theorem restoreOne_keeps (e : Nat × Word) (d : Dev) :
    (restoreOne e d).fresh = d.fresh ∧ (restoreOne e d).mem = d.mem ∧ (restoreOne e d).frame = d.frame ∧ (restoreOne e d).port = d.port ∧ (restoreOne e d).win = d.win ∧ (restoreOne e d).cnt = d.cnt ∧ (restoreOne e d).pwr = d.pwr ∧ (restoreOne e d).mgt = d.mgt ∧ (restoreOne e d).boot = d.boot ∧ (restoreOne e d).alm = d.alm ∧ (restoreOne e d).par = d.par ∧ (restoreOne e d).aud = d.aud ∧ (restoreOne e d).cal = d.cal ∧ (restoreOne e d).outs = d.outs ∧ (restoreOne e d).tdm = d.tdm ∧ (restoreOne e d).ser = d.ser ∧ (restoreOne e d).cas = d.cas := by
  simp -implicitDefEqProofs [restoreOne]

@[simp] theorem arraysLost_keeps (n : Nat) (d : Dev) :
    (arraysLost n d).regs = d.regs ∧ (arraysLost n d).fresh = d.fresh ∧ (arraysLost n d).frame = d.frame ∧ (arraysLost n d).port = d.port ∧ (arraysLost n d).win = d.win ∧ (arraysLost n d).cnt = d.cnt ∧ (arraysLost n d).pwr = d.pwr ∧ (arraysLost n d).alm = d.alm ∧ (arraysLost n d).par = d.par ∧ (arraysLost n d).cal = d.cal ∧ (arraysLost n d).mix = d.mix ∧ (arraysLost n d).outs = d.outs ∧ (arraysLost n d).tdm = d.tdm ∧ (arraysLost n d).ser = d.ser ∧ (arraysLost n d).cas = d.cas := by
  unfold arraysLost; refine ⟨?_, ?_, ?_, ?_, ?_, ?_, ?_, ?_, ?_, ?_, ?_, ?_, ?_, ?_, ?_⟩ <;> (repeat' split) <;> simp -implicitDefEqProofs

@[simp] theorem cluStop_keeps (c : Nat) (d : Dev) :
    (cluStop c d).regs = d.regs ∧ (cluStop c d).fresh = d.fresh ∧ (cluStop c d).mem = d.mem ∧ (cluStop c d).frame = d.frame ∧ (cluStop c d).port = d.port ∧ (cluStop c d).win = d.win ∧ (cluStop c d).cnt = d.cnt ∧ (cluStop c d).pwr = d.pwr ∧ (cluStop c d).boot = d.boot ∧ (cluStop c d).alm = d.alm ∧ (cluStop c d).par = d.par ∧ (cluStop c d).mix = d.mix ∧ (cluStop c d).outs = d.outs ∧ (cluStop c d).tdm = d.tdm ∧ (cluStop c d).ser = d.ser ∧ (cluStop c d).cas = d.cas := by
  unfold cluStop; refine ⟨?_, ?_, ?_, ?_, ?_, ?_, ?_, ?_, ?_, ?_, ?_, ?_, ?_, ?_, ?_, ?_⟩ <;> (repeat' split) <;> simp -implicitDefEqProofs

@[simp] theorem mgmtStop_keeps (d : Dev) :
    (mgmtStop d).regs = d.regs ∧ (mgmtStop d).fresh = d.fresh ∧ (mgmtStop d).port = d.port ∧ (mgmtStop d).win = d.win ∧ (mgmtStop d).pwr = d.pwr ∧ (mgmtStop d).boot = d.boot ∧ (mgmtStop d).alm = d.alm ∧ (mgmtStop d).par = d.par ∧ (mgmtStop d).aud = d.aud ∧ (mgmtStop d).cal = d.cal ∧ (mgmtStop d).mix = d.mix ∧ (mgmtStop d).outs = d.outs ∧ (mgmtStop d).tdm = d.tdm ∧ (mgmtStop d).ser = d.ser := by
  simp -implicitDefEqProofs [mgmtStop]

@[simp] theorem ctrlStop_keeps (d : Dev) :
    (ctrlStop d).regs = d.regs ∧ (ctrlStop d).fresh = d.fresh ∧ (ctrlStop d).mem = d.mem ∧ (ctrlStop d).win = d.win ∧ (ctrlStop d).pwr = d.pwr ∧ (ctrlStop d).mgt = d.mgt ∧ (ctrlStop d).boot = d.boot ∧ (ctrlStop d).cal = d.cal ∧ (ctrlStop d).mix = d.mix ∧ (ctrlStop d).tdm = d.tdm ∧ (ctrlStop d).ser = d.ser ∧ (ctrlStop d).cas = d.cas := by
  simp -implicitDefEqProofs [ctrlStop]

@[simp] theorem unitStop_keeps (n : Nat) (d : Dev) :
    (unitStop n d).regs = d.regs ∧ (unitStop n d).fresh = d.fresh ∧ (unitStop n d).pwr = d.pwr ∧ (unitStop n d).boot = d.boot := by
  unfold unitStop; refine ⟨?_, ?_, ?_, ?_⟩ <;> (repeat' split) <;> simp -implicitDefEqProofs

@[simp] theorem leaveOn_keeps (n : Nat) (t : DomState) (d : Dev) : (leaveOn n t d).fresh = d.fresh := by
  simp -implicitDefEqProofs [leaveOn]

@[simp] theorem unitWake_keeps (n : Nat) (cold : Bool) (d : Dev) :
    (unitWake n cold d).fresh = d.fresh ∧ (unitWake n cold d).frame = d.frame ∧ (unitWake n cold d).port = d.port ∧ (unitWake n cold d).pwr = d.pwr ∧ (unitWake n cold d).mgt = d.mgt ∧ (unitWake n cold d).boot = d.boot ∧ (unitWake n cold d).alm = d.alm ∧ (unitWake n cold d).par = d.par ∧ (unitWake n cold d).cal = d.cal ∧ (unitWake n cold d).tdm = d.tdm ∧ (unitWake n cold d).cas = d.cas := by
  simp -implicitDefEqProofs [unitWake]

@[simp] theorem aonWakeEnds_keeps (d : Dev) :
    (aonWakeEnds d).regs = d.regs ∧ (aonWakeEnds d).fresh = d.fresh ∧ (aonWakeEnds d).mem = d.mem ∧ (aonWakeEnds d).frame = d.frame ∧ (aonWakeEnds d).port = d.port ∧ (aonWakeEnds d).win = d.win ∧ (aonWakeEnds d).cnt = d.cnt ∧ (aonWakeEnds d).mgt = d.mgt ∧ (aonWakeEnds d).boot = d.boot ∧ (aonWakeEnds d).alm = d.alm ∧ (aonWakeEnds d).par = d.par ∧ (aonWakeEnds d).aud = d.aud ∧ (aonWakeEnds d).cal = d.cal ∧ (aonWakeEnds d).mix = d.mix ∧ (aonWakeEnds d).outs = d.outs ∧ (aonWakeEnds d).tdm = d.tdm ∧ (aonWakeEnds d).ser = d.ser ∧ (aonWakeEnds d).cas = d.cas := by
  simp -implicitDefEqProofs [aonWakeEnds]

@[simp] theorem closeBatches_keeps (d : Dev) :
    (closeBatches d).fresh = d.fresh ∧ (closeBatches d).mem = d.mem ∧ (closeBatches d).frame = d.frame ∧ (closeBatches d).port = d.port ∧ (closeBatches d).win = d.win ∧ (closeBatches d).cnt = d.cnt ∧ (closeBatches d).mgt = d.mgt ∧ (closeBatches d).boot = d.boot ∧ (closeBatches d).alm = d.alm ∧ (closeBatches d).par = d.par ∧ (closeBatches d).aud = d.aud ∧ (closeBatches d).cal = d.cal ∧ (closeBatches d).mix = d.mix ∧ (closeBatches d).outs = d.outs ∧ (closeBatches d).tdm = d.tdm ∧ (closeBatches d).ser = d.ser ∧ (closeBatches d).cas = d.cas := by
  simp -implicitDefEqProofs [closeBatches]

@[simp] theorem settle_keeps (n result reason : Nat) (d : Dev) :
    (settle n result reason d).fresh = d.fresh ∧ (settle n result reason d).mem = d.mem ∧ (settle n result reason d).frame = d.frame ∧ (settle n result reason d).port = d.port ∧ (settle n result reason d).win = d.win ∧ (settle n result reason d).cnt = d.cnt ∧ (settle n result reason d).alm = d.alm ∧ (settle n result reason d).par = d.par ∧ (settle n result reason d).aud = d.aud ∧ (settle n result reason d).cal = d.cal ∧ (settle n result reason d).mix = d.mix ∧ (settle n result reason d).outs = d.outs ∧ (settle n result reason d).tdm = d.tdm ∧ (settle n result reason d).ser = d.ser ∧ (settle n result reason d).cas = d.cas := by
  unfold settle; refine ⟨?_, ?_, ?_, ?_, ?_, ?_, ?_, ?_, ?_, ?_, ?_, ?_, ?_, ?_, ?_⟩ <;> (repeat' split) <;> simp -implicitDefEqProofs

@[simp] theorem makeReady_keeps (n : Nat) (d : Dev) :
    (makeReady n d).regs = d.regs ∧ (makeReady n d).fresh = d.fresh ∧ (makeReady n d).mem = d.mem ∧ (makeReady n d).frame = d.frame ∧ (makeReady n d).port = d.port ∧ (makeReady n d).win = d.win ∧ (makeReady n d).cnt = d.cnt ∧ (makeReady n d).mgt = d.mgt ∧ (makeReady n d).boot = d.boot ∧ (makeReady n d).alm = d.alm ∧ (makeReady n d).par = d.par ∧ (makeReady n d).aud = d.aud ∧ (makeReady n d).cal = d.cal ∧ (makeReady n d).mix = d.mix ∧ (makeReady n d).outs = d.outs ∧ (makeReady n d).tdm = d.tdm ∧ (makeReady n d).ser = d.ser ∧ (makeReady n d).cas = d.cas := by
  simp -implicitDefEqProofs [makeReady]

@[simp] theorem wakeOne_keeps (b n : Nat) (d : Dev) :
    (wakeOne b n d).fresh = d.fresh ∧ (wakeOne b n d).mem = d.mem ∧ (wakeOne b n d).frame = d.frame ∧ (wakeOne b n d).port = d.port ∧ (wakeOne b n d).win = d.win ∧ (wakeOne b n d).cnt = d.cnt ∧ (wakeOne b n d).alm = d.alm ∧ (wakeOne b n d).par = d.par ∧ (wakeOne b n d).aud = d.aud ∧ (wakeOne b n d).cal = d.cal ∧ (wakeOne b n d).mix = d.mix ∧ (wakeOne b n d).outs = d.outs ∧ (wakeOne b n d).tdm = d.tdm ∧ (wakeOne b n d).ser = d.ser ∧ (wakeOne b n d).cas = d.cas := by
  refine ⟨?_, ?_, ?_, ?_, ?_, ?_, ?_, ?_, ?_, ?_, ?_, ?_, ?_, ?_, ?_⟩ <;> (unfold wakeOne; dsimp only; repeat' split) <;> simp -implicitDefEqProofs

@[simp] theorem requestWake_keeps (b n : Nat) (d : Dev) :
    (requestWake b n d).fresh = d.fresh ∧ (requestWake b n d).mem = d.mem ∧ (requestWake b n d).frame = d.frame ∧ (requestWake b n d).port = d.port ∧ (requestWake b n d).win = d.win ∧ (requestWake b n d).cnt = d.cnt ∧ (requestWake b n d).alm = d.alm ∧ (requestWake b n d).par = d.par ∧ (requestWake b n d).aud = d.aud ∧ (requestWake b n d).cal = d.cal ∧ (requestWake b n d).mix = d.mix ∧ (requestWake b n d).outs = d.outs ∧ (requestWake b n d).tdm = d.tdm ∧ (requestWake b n d).ser = d.ser ∧ (requestWake b n d).cas = d.cas := by
  simp -implicitDefEqProofs [requestWake]

@[simp] theorem cancelled_keeps (n : Nat) (d : Dev) :
    (cancelled n d).regs = d.regs ∧ (cancelled n d).fresh = d.fresh ∧ (cancelled n d).mem = d.mem ∧ (cancelled n d).frame = d.frame ∧ (cancelled n d).port = d.port ∧ (cancelled n d).win = d.win ∧ (cancelled n d).cnt = d.cnt ∧ (cancelled n d).mgt = d.mgt ∧ (cancelled n d).boot = d.boot ∧ (cancelled n d).alm = d.alm ∧ (cancelled n d).par = d.par ∧ (cancelled n d).aud = d.aud ∧ (cancelled n d).cal = d.cal ∧ (cancelled n d).mix = d.mix ∧ (cancelled n d).outs = d.outs ∧ (cancelled n d).tdm = d.tdm ∧ (cancelled n d).ser = d.ser ∧ (cancelled n d).cas = d.cas := by
  simp -implicitDefEqProofs [cancelled]

@[simp] theorem requestEntry_keeps (b n : Nat) (target : DomState) (d : Dev) :
    (requestEntry b n target d).fresh = d.fresh ∧ (requestEntry b n target d).frame = d.frame ∧ (requestEntry b n target d).port = d.port ∧ (requestEntry b n target d).win = d.win ∧ (requestEntry b n target d).cnt = d.cnt ∧ (requestEntry b n target d).alm = d.alm ∧ (requestEntry b n target d).par = d.par ∧ (requestEntry b n target d).cal = d.cal ∧ (requestEntry b n target d).mix = d.mix ∧ (requestEntry b n target d).outs = d.outs ∧ (requestEntry b n target d).tdm = d.tdm ∧ (requestEntry b n target d).ser = d.ser ∧ (requestEntry b n target d).cas = d.cas := by
  refine ⟨?_, ?_, ?_, ?_, ?_, ?_, ?_, ?_, ?_, ?_, ?_, ?_, ?_⟩ <;> (unfold requestEntry; dsimp only; repeat' split) <;> simp -implicitDefEqProofs

@[simp] theorem newBatch_keeps (d : Dev) :
    (newBatch d).regs = d.regs ∧ (newBatch d).fresh = d.fresh ∧ (newBatch d).mem = d.mem ∧ (newBatch d).frame = d.frame ∧ (newBatch d).port = d.port ∧ (newBatch d).win = d.win ∧ (newBatch d).cnt = d.cnt ∧ (newBatch d).mgt = d.mgt ∧ (newBatch d).boot = d.boot ∧ (newBatch d).alm = d.alm ∧ (newBatch d).par = d.par ∧ (newBatch d).aud = d.aud ∧ (newBatch d).cal = d.cal ∧ (newBatch d).mix = d.mix ∧ (newBatch d).outs = d.outs ∧ (newBatch d).tdm = d.tdm ∧ (newBatch d).ser = d.ser ∧ (newBatch d).cas = d.cas := by
  simp -implicitDefEqProofs [newBatch]

@[simp] theorem checkEntry_keeps (n : Nat) (d : Dev) :
    (checkEntry n d).fresh = d.fresh ∧ (checkEntry n d).mem = d.mem ∧ (checkEntry n d).frame = d.frame ∧ (checkEntry n d).port = d.port ∧ (checkEntry n d).win = d.win ∧ (checkEntry n d).cnt = d.cnt ∧ (checkEntry n d).alm = d.alm ∧ (checkEntry n d).par = d.par ∧ (checkEntry n d).aud = d.aud ∧ (checkEntry n d).cal = d.cal ∧ (checkEntry n d).mix = d.mix ∧ (checkEntry n d).outs = d.outs ∧ (checkEntry n d).tdm = d.tdm ∧ (checkEntry n d).ser = d.ser ∧ (checkEntry n d).cas = d.cas := by
  unfold checkEntry; refine ⟨?_, ?_, ?_, ?_, ?_, ?_, ?_, ?_, ?_, ?_, ?_, ?_, ?_, ?_, ?_⟩ <;> (repeat' split) <;> simp -implicitDefEqProofs

@[simp] theorem controllerPass_keeps (d : Dev) :
    (controllerPass d).fresh = d.fresh ∧ (controllerPass d).mem = d.mem ∧ (controllerPass d).frame = d.frame ∧ (controllerPass d).port = d.port ∧ (controllerPass d).win = d.win ∧ (controllerPass d).cnt = d.cnt ∧ (controllerPass d).alm = d.alm ∧ (controllerPass d).par = d.par ∧ (controllerPass d).aud = d.aud ∧ (controllerPass d).cal = d.cal ∧ (controllerPass d).mix = d.mix ∧ (controllerPass d).outs = d.outs ∧ (controllerPass d).tdm = d.tdm ∧ (controllerPass d).ser = d.ser ∧ (controllerPass d).cas = d.cas := by
  simp -implicitDefEqProofs [controllerPass]

@[simp] theorem issueBatch_keeps (mask : List Nat) (target : DomState) (d : Dev) :
    (issueBatch mask target d).fresh = d.fresh ∧ (issueBatch mask target d).frame = d.frame ∧ (issueBatch mask target d).port = d.port ∧ (issueBatch mask target d).win = d.win ∧ (issueBatch mask target d).cnt = d.cnt ∧ (issueBatch mask target d).alm = d.alm ∧ (issueBatch mask target d).par = d.par ∧ (issueBatch mask target d).cal = d.cal ∧ (issueBatch mask target d).mix = d.mix ∧ (issueBatch mask target d).outs = d.outs ∧ (issueBatch mask target d).tdm = d.tdm ∧ (issueBatch mask target d).ser = d.ser ∧ (issueBatch mask target d).cas = d.cas := by
  simp -implicitDefEqProofs [issueBatch]

@[simp] theorem wakeBatch_keeps (mask : List Nat) (d : Dev) :
    (wakeBatch mask d).fresh = d.fresh ∧ (wakeBatch mask d).frame = d.frame ∧ (wakeBatch mask d).port = d.port ∧ (wakeBatch mask d).win = d.win ∧ (wakeBatch mask d).cnt = d.cnt ∧ (wakeBatch mask d).alm = d.alm ∧ (wakeBatch mask d).par = d.par ∧ (wakeBatch mask d).cal = d.cal ∧ (wakeBatch mask d).mix = d.mix ∧ (wakeBatch mask d).outs = d.outs ∧ (wakeBatch mask d).tdm = d.tdm ∧ (wakeBatch mask d).ser = d.ser ∧ (wakeBatch mask d).cas = d.cas := by
  simp -implicitDefEqProofs [wakeBatch]

@[simp] theorem powerBatchDev_keeps (v : Word) (d : Dev) :
    (powerBatchDev v d).fresh = d.fresh ∧ (powerBatchDev v d).frame = d.frame ∧ (powerBatchDev v d).port = d.port ∧ (powerBatchDev v d).win = d.win ∧ (powerBatchDev v d).cnt = d.cnt ∧ (powerBatchDev v d).alm = d.alm ∧ (powerBatchDev v d).par = d.par ∧ (powerBatchDev v d).cal = d.cal ∧ (powerBatchDev v d).mix = d.mix ∧ (powerBatchDev v d).outs = d.outs ∧ (powerBatchDev v d).tdm = d.tdm ∧ (powerBatchDev v d).ser = d.ser ∧ (powerBatchDev v d).cas = d.cas := by
  unfold powerBatchDev; refine ⟨?_, ?_, ?_, ?_, ?_, ?_, ?_, ?_, ?_, ?_, ?_, ?_, ?_⟩ <;> (repeat' split) <;> simp -implicitDefEqProofs

@[simp] theorem aonWakeDev_keeps (v : Word) (d : Dev) :
    (aonWakeDev v d).fresh = d.fresh ∧ (aonWakeDev v d).frame = d.frame ∧ (aonWakeDev v d).port = d.port ∧ (aonWakeDev v d).win = d.win ∧ (aonWakeDev v d).cnt = d.cnt ∧ (aonWakeDev v d).alm = d.alm ∧ (aonWakeDev v d).par = d.par ∧ (aonWakeDev v d).cal = d.cal ∧ (aonWakeDev v d).mix = d.mix ∧ (aonWakeDev v d).outs = d.outs ∧ (aonWakeDev v d).tdm = d.tdm ∧ (aonWakeDev v d).ser = d.ser ∧ (aonWakeDev v d).cas = d.cas := by
  simp -implicitDefEqProofs [aonWakeDev]

@[simp] theorem agentAnswerDev_keeps (n : Nat) (d : Dev) :
    (agentAnswerDev n d).fresh = d.fresh ∧ (agentAnswerDev n d).mem = d.mem ∧ (agentAnswerDev n d).frame = d.frame ∧ (agentAnswerDev n d).port = d.port ∧ (agentAnswerDev n d).win = d.win ∧ (agentAnswerDev n d).par = d.par ∧ (agentAnswerDev n d).mix = d.mix ∧ (agentAnswerDev n d).outs = d.outs ∧ (agentAnswerDev n d).tdm = d.tdm ∧ (agentAnswerDev n d).ser = d.ser ∧ (agentAnswerDev n d).cas = d.cas := by
  refine ⟨?_, ?_, ?_, ?_, ?_, ?_, ?_, ?_, ?_, ?_, ?_⟩ <;> (unfold agentAnswerDev; dsimp only; repeat' split) <;> simp -implicitDefEqProofs

@[simp] theorem agentDelayTimeoutDev_keeps (n : Nat) (d : Dev) :
    (agentDelayTimeoutDev n d).fresh = d.fresh ∧ (agentDelayTimeoutDev n d).mem = d.mem ∧ (agentDelayTimeoutDev n d).frame = d.frame ∧ (agentDelayTimeoutDev n d).port = d.port ∧ (agentDelayTimeoutDev n d).win = d.win ∧ (agentDelayTimeoutDev n d).cnt = d.cnt ∧ (agentDelayTimeoutDev n d).alm = d.alm ∧ (agentDelayTimeoutDev n d).par = d.par ∧ (agentDelayTimeoutDev n d).aud = d.aud ∧ (agentDelayTimeoutDev n d).cal = d.cal ∧ (agentDelayTimeoutDev n d).mix = d.mix ∧ (agentDelayTimeoutDev n d).outs = d.outs ∧ (agentDelayTimeoutDev n d).tdm = d.tdm ∧ (agentDelayTimeoutDev n d).ser = d.ser ∧ (agentDelayTimeoutDev n d).cas = d.cas := by
  unfold agentDelayTimeoutDev; refine ⟨?_, ?_, ?_, ?_, ?_, ?_, ?_, ?_, ?_, ?_, ?_, ?_, ?_, ?_, ?_⟩ <;> (repeat' split) <;> simp -implicitDefEqProofs

@[simp] theorem powerNoAnswerDev_keeps (n : Nat) (d : Dev) :
    (powerNoAnswerDev n d).fresh = d.fresh ∧ (powerNoAnswerDev n d).mem = d.mem ∧ (powerNoAnswerDev n d).frame = d.frame ∧ (powerNoAnswerDev n d).port = d.port ∧ (powerNoAnswerDev n d).win = d.win ∧ (powerNoAnswerDev n d).cnt = d.cnt ∧ (powerNoAnswerDev n d).alm = d.alm ∧ (powerNoAnswerDev n d).par = d.par ∧ (powerNoAnswerDev n d).aud = d.aud ∧ (powerNoAnswerDev n d).cal = d.cal ∧ (powerNoAnswerDev n d).mix = d.mix ∧ (powerNoAnswerDev n d).outs = d.outs ∧ (powerNoAnswerDev n d).tdm = d.tdm ∧ (powerNoAnswerDev n d).ser = d.ser ∧ (powerNoAnswerDev n d).cas = d.cas := by
  unfold powerNoAnswerDev; refine ⟨?_, ?_, ?_, ?_, ?_, ?_, ?_, ?_, ?_, ?_, ?_, ?_, ?_, ?_, ?_⟩ <;> (repeat' split) <;> simp -implicitDefEqProofs

@[simp] theorem domainEntryDev_keeps (n : Nat) (d : Dev) : (domainEntryDev n d).fresh = d.fresh := by
  skip <;> (unfold domainEntryDev; dsimp only; repeat' split) <;> simp -implicitDefEqProofs

@[simp] theorem dropDependents_keeps (n : Nat) (d : Dev) :
    (dropDependents n d).regs = d.regs ∧ (dropDependents n d).fresh = d.fresh ∧ (dropDependents n d).mem = d.mem ∧ (dropDependents n d).frame = d.frame ∧ (dropDependents n d).port = d.port ∧ (dropDependents n d).win = d.win ∧ (dropDependents n d).cnt = d.cnt ∧ (dropDependents n d).mgt = d.mgt ∧ (dropDependents n d).boot = d.boot ∧ (dropDependents n d).alm = d.alm ∧ (dropDependents n d).par = d.par ∧ (dropDependents n d).aud = d.aud ∧ (dropDependents n d).cal = d.cal ∧ (dropDependents n d).mix = d.mix ∧ (dropDependents n d).outs = d.outs ∧ (dropDependents n d).tdm = d.tdm ∧ (dropDependents n d).ser = d.ser ∧ (dropDependents n d).cas = d.cas := by
  simp -implicitDefEqProofs [dropDependents]

@[simp] theorem wakeStepTimeoutDev_keeps (n step : Nat) (d : Dev) :
    (wakeStepTimeoutDev n step d).fresh = d.fresh ∧ (wakeStepTimeoutDev n step d).frame = d.frame ∧ (wakeStepTimeoutDev n step d).port = d.port ∧ (wakeStepTimeoutDev n step d).win = d.win ∧ (wakeStepTimeoutDev n step d).cnt = d.cnt ∧ (wakeStepTimeoutDev n step d).alm = d.alm ∧ (wakeStepTimeoutDev n step d).par = d.par ∧ (wakeStepTimeoutDev n step d).cal = d.cal ∧ (wakeStepTimeoutDev n step d).mix = d.mix ∧ (wakeStepTimeoutDev n step d).outs = d.outs ∧ (wakeStepTimeoutDev n step d).tdm = d.tdm ∧ (wakeStepTimeoutDev n step d).ser = d.ser ∧ (wakeStepTimeoutDev n step d).cas = d.cas := by
  simp -implicitDefEqProofs [wakeStepTimeoutDev]

@[simp] theorem wakeRetryDev_keeps (n : Nat) (d : Dev) :
    (wakeRetryDev n d).regs = d.regs ∧ (wakeRetryDev n d).fresh = d.fresh ∧ (wakeRetryDev n d).mem = d.mem ∧ (wakeRetryDev n d).frame = d.frame ∧ (wakeRetryDev n d).port = d.port ∧ (wakeRetryDev n d).win = d.win ∧ (wakeRetryDev n d).cnt = d.cnt ∧ (wakeRetryDev n d).mgt = d.mgt ∧ (wakeRetryDev n d).boot = d.boot ∧ (wakeRetryDev n d).alm = d.alm ∧ (wakeRetryDev n d).par = d.par ∧ (wakeRetryDev n d).aud = d.aud ∧ (wakeRetryDev n d).cal = d.cal ∧ (wakeRetryDev n d).mix = d.mix ∧ (wakeRetryDev n d).outs = d.outs ∧ (wakeRetryDev n d).tdm = d.tdm ∧ (wakeRetryDev n d).ser = d.ser ∧ (wakeRetryDev n d).cas = d.cas := by
  simp -implicitDefEqProofs [wakeRetryDev]

@[simp] theorem releasePads_keeps (n : Nat) (d : Dev) :
    (releasePads n d).regs = d.regs ∧ (releasePads n d).fresh = d.fresh ∧ (releasePads n d).mem = d.mem ∧ (releasePads n d).frame = d.frame ∧ (releasePads n d).win = d.win ∧ (releasePads n d).mgt = d.mgt ∧ (releasePads n d).boot = d.boot ∧ (releasePads n d).alm = d.alm ∧ (releasePads n d).par = d.par ∧ (releasePads n d).aud = d.aud ∧ (releasePads n d).cal = d.cal ∧ (releasePads n d).mix = d.mix ∧ (releasePads n d).outs = d.outs ∧ (releasePads n d).tdm = d.tdm ∧ (releasePads n d).ser = d.ser ∧ (releasePads n d).cas = d.cas := by
  simp -implicitDefEqProofs [releasePads]

@[simp] theorem padReleaseDev_keeps (v : Word) (d : Dev) :
    (padReleaseDev v d).regs = d.regs ∧ (padReleaseDev v d).fresh = d.fresh ∧ (padReleaseDev v d).mem = d.mem ∧ (padReleaseDev v d).frame = d.frame ∧ (padReleaseDev v d).win = d.win ∧ (padReleaseDev v d).mgt = d.mgt ∧ (padReleaseDev v d).boot = d.boot ∧ (padReleaseDev v d).alm = d.alm ∧ (padReleaseDev v d).par = d.par ∧ (padReleaseDev v d).aud = d.aud ∧ (padReleaseDev v d).cal = d.cal ∧ (padReleaseDev v d).mix = d.mix ∧ (padReleaseDev v d).outs = d.outs ∧ (padReleaseDev v d).tdm = d.tdm ∧ (padReleaseDev v d).ser = d.ser ∧ (padReleaseDev v d).cas = d.cas := by
  simp -implicitDefEqProofs [padReleaseDev]

@[simp] theorem wakeSourceDev_keeps (s : Nat) (d : Dev) :
    (wakeSourceDev s d).fresh = d.fresh ∧ (wakeSourceDev s d).frame = d.frame ∧ (wakeSourceDev s d).port = d.port ∧ (wakeSourceDev s d).win = d.win ∧ (wakeSourceDev s d).cnt = d.cnt ∧ (wakeSourceDev s d).alm = d.alm ∧ (wakeSourceDev s d).par = d.par ∧ (wakeSourceDev s d).cal = d.cal ∧ (wakeSourceDev s d).mix = d.mix ∧ (wakeSourceDev s d).outs = d.outs ∧ (wakeSourceDev s d).tdm = d.tdm ∧ (wakeSourceDev s d).ser = d.ser ∧ (wakeSourceDev s d).cas = d.cas := by
  simp -implicitDefEqProofs [wakeSourceDev]

@[simp] theorem wakeDetectorRearmDev_keeps (n : Nat) (d : Dev) :
    (wakeDetectorRearmDev n d).regs = d.regs ∧ (wakeDetectorRearmDev n d).fresh = d.fresh ∧ (wakeDetectorRearmDev n d).mem = d.mem ∧ (wakeDetectorRearmDev n d).frame = d.frame ∧ (wakeDetectorRearmDev n d).port = d.port ∧ (wakeDetectorRearmDev n d).win = d.win ∧ (wakeDetectorRearmDev n d).cnt = d.cnt ∧ (wakeDetectorRearmDev n d).mgt = d.mgt ∧ (wakeDetectorRearmDev n d).boot = d.boot ∧ (wakeDetectorRearmDev n d).alm = d.alm ∧ (wakeDetectorRearmDev n d).par = d.par ∧ (wakeDetectorRearmDev n d).aud = d.aud ∧ (wakeDetectorRearmDev n d).cal = d.cal ∧ (wakeDetectorRearmDev n d).mix = d.mix ∧ (wakeDetectorRearmDev n d).outs = d.outs ∧ (wakeDetectorRearmDev n d).tdm = d.tdm ∧ (wakeDetectorRearmDev n d).ser = d.ser ∧ (wakeDetectorRearmDev n d).cas = d.cas := by
  simp -implicitDefEqProofs [wakeDetectorRearmDev]

@[simp] theorem wakePatternPulseDev_keeps (n width gap : Nat) (d : Dev) :
    (wakePatternPulseDev n width gap d).regs = d.regs ∧ (wakePatternPulseDev n width gap d).fresh = d.fresh ∧ (wakePatternPulseDev n width gap d).mem = d.mem ∧ (wakePatternPulseDev n width gap d).frame = d.frame ∧ (wakePatternPulseDev n width gap d).port = d.port ∧ (wakePatternPulseDev n width gap d).win = d.win ∧ (wakePatternPulseDev n width gap d).mgt = d.mgt ∧ (wakePatternPulseDev n width gap d).boot = d.boot ∧ (wakePatternPulseDev n width gap d).alm = d.alm ∧ (wakePatternPulseDev n width gap d).par = d.par ∧ (wakePatternPulseDev n width gap d).aud = d.aud ∧ (wakePatternPulseDev n width gap d).cal = d.cal ∧ (wakePatternPulseDev n width gap d).mix = d.mix ∧ (wakePatternPulseDev n width gap d).outs = d.outs ∧ (wakePatternPulseDev n width gap d).tdm = d.tdm ∧ (wakePatternPulseDev n width gap d).ser = d.ser ∧ (wakePatternPulseDev n width gap d).cas = d.cas := by
  simp -implicitDefEqProofs [wakePatternPulseDev]

@[simp] theorem biasUpdate_keeps (d : Dev) :
    (biasUpdate d).regs = d.regs ∧ (biasUpdate d).fresh = d.fresh ∧ (biasUpdate d).mem = d.mem ∧ (biasUpdate d).frame = d.frame ∧ (biasUpdate d).port = d.port ∧ (biasUpdate d).win = d.win ∧ (biasUpdate d).cnt = d.cnt ∧ (biasUpdate d).mgt = d.mgt ∧ (biasUpdate d).boot = d.boot ∧ (biasUpdate d).alm = d.alm ∧ (biasUpdate d).par = d.par ∧ (biasUpdate d).aud = d.aud ∧ (biasUpdate d).cal = d.cal ∧ (biasUpdate d).mix = d.mix ∧ (biasUpdate d).outs = d.outs ∧ (biasUpdate d).tdm = d.tdm ∧ (biasUpdate d).ser = d.ser ∧ (biasUpdate d).cas = d.cas := by
  simp -implicitDefEqProofs [biasUpdate]

@[simp] theorem roundReleases_keeps (d : Dev) :
    (roundReleases d).mem = d.mem ∧ (roundReleases d).frame = d.frame ∧ (roundReleases d).port = d.port ∧ (roundReleases d).win = d.win ∧ (roundReleases d).pwr = d.pwr ∧ (roundReleases d).mgt = d.mgt ∧ (roundReleases d).boot = d.boot ∧ (roundReleases d).par = d.par ∧ (roundReleases d).aud = d.aud ∧ (roundReleases d).cal = d.cal ∧ (roundReleases d).mix = d.mix ∧ (roundReleases d).outs = d.outs ∧ (roundReleases d).tdm = d.tdm := by
  simp -implicitDefEqProofs [roundReleases]

@[simp] theorem arbitrate_mem (offer cancel : Dev → Dev) (d : Dev)
    (h : ∀ e, (offer e).mem = e.mem) (h2 : ∀ e, (cancel e).mem = e.mem) :
    (arbitrate offer cancel d).mem = d.mem := by
  unfold arbitrate; simp [h, h2]

@[simp] theorem arbitrate_frame (offer cancel : Dev → Dev) (d : Dev)
    (h : ∀ e, (offer e).frame = e.frame) (h2 : ∀ e, (cancel e).frame = e.frame) :
    (arbitrate offer cancel d).frame = d.frame := by
  unfold arbitrate; simp [h, h2]

@[simp] theorem arbitrate_port (offer cancel : Dev → Dev) (d : Dev)
    (h : ∀ e, (offer e).port = e.port) (h2 : ∀ e, (cancel e).port = e.port) :
    (arbitrate offer cancel d).port = d.port := by
  unfold arbitrate; simp [h, h2]

@[simp] theorem arbitrate_win (offer cancel : Dev → Dev) (d : Dev)
    (h : ∀ e, (offer e).win = e.win) (h2 : ∀ e, (cancel e).win = e.win) :
    (arbitrate offer cancel d).win = d.win := by
  unfold arbitrate; simp [h, h2]

@[simp] theorem arbitrate_pwr (offer cancel : Dev → Dev) (d : Dev)
    (h : ∀ e, (offer e).pwr = e.pwr) (h2 : ∀ e, (cancel e).pwr = e.pwr) :
    (arbitrate offer cancel d).pwr = d.pwr := by
  unfold arbitrate; simp [h, h2]

@[simp] theorem arbitrate_mgt (offer cancel : Dev → Dev) (d : Dev)
    (h : ∀ e, (offer e).mgt = e.mgt) (h2 : ∀ e, (cancel e).mgt = e.mgt) :
    (arbitrate offer cancel d).mgt = d.mgt := by
  unfold arbitrate; simp [h, h2]

@[simp] theorem arbitrate_boot (offer cancel : Dev → Dev) (d : Dev)
    (h : ∀ e, (offer e).boot = e.boot) (h2 : ∀ e, (cancel e).boot = e.boot) :
    (arbitrate offer cancel d).boot = d.boot := by
  unfold arbitrate; simp [h, h2]

@[simp] theorem arbitrate_par (offer cancel : Dev → Dev) (d : Dev)
    (h : ∀ e, (offer e).par = e.par) (h2 : ∀ e, (cancel e).par = e.par) :
    (arbitrate offer cancel d).par = d.par := by
  unfold arbitrate; simp [h, h2]

@[simp] theorem arbitrate_aud (offer cancel : Dev → Dev) (d : Dev)
    (h : ∀ e, (offer e).aud = e.aud) (h2 : ∀ e, (cancel e).aud = e.aud) :
    (arbitrate offer cancel d).aud = d.aud := by
  unfold arbitrate; simp [h, h2]

@[simp] theorem arbitrate_cal (offer cancel : Dev → Dev) (d : Dev)
    (h : ∀ e, (offer e).cal = e.cal) (h2 : ∀ e, (cancel e).cal = e.cal) :
    (arbitrate offer cancel d).cal = d.cal := by
  unfold arbitrate; simp [h, h2]

@[simp] theorem arbitrate_mix (offer cancel : Dev → Dev) (d : Dev)
    (h : ∀ e, (offer e).mix = e.mix) (h2 : ∀ e, (cancel e).mix = e.mix) :
    (arbitrate offer cancel d).mix = d.mix := by
  unfold arbitrate; simp [h, h2]

@[simp] theorem arbitrate_outs (offer cancel : Dev → Dev) (d : Dev)
    (h : ∀ e, (offer e).outs = e.outs) (h2 : ∀ e, (cancel e).outs = e.outs) :
    (arbitrate offer cancel d).outs = d.outs := by
  unfold arbitrate; simp [h, h2]

@[simp] theorem arbitrate_tdm (offer cancel : Dev → Dev) (d : Dev)
    (h : ∀ e, (offer e).tdm = e.tdm) (h2 : ∀ e, (cancel e).tdm = e.tdm) :
    (arbitrate offer cancel d).tdm = d.tdm := by
  unfold arbitrate; simp [h, h2]

@[simp] theorem almArbitrationRoundDev_keeps (d : Dev) :
    (almArbitrationRoundDev d).mem = d.mem ∧ (almArbitrationRoundDev d).frame = d.frame ∧ (almArbitrationRoundDev d).port = d.port ∧ (almArbitrationRoundDev d).win = d.win ∧ (almArbitrationRoundDev d).pwr = d.pwr ∧ (almArbitrationRoundDev d).mgt = d.mgt ∧ (almArbitrationRoundDev d).boot = d.boot ∧ (almArbitrationRoundDev d).par = d.par ∧ (almArbitrationRoundDev d).aud = d.aud ∧ (almArbitrationRoundDev d).cal = d.cal ∧ (almArbitrationRoundDev d).mix = d.mix ∧ (almArbitrationRoundDev d).outs = d.outs ∧ (almArbitrationRoundDev d).tdm = d.tdm := by
  simp -implicitDefEqProofs [almArbitrationRoundDev]

@[simp] theorem hostCancelDev_keeps (v : Word) (d : Dev) :
    (hostCancelDev v d).mem = d.mem ∧ (hostCancelDev v d).frame = d.frame ∧ (hostCancelDev v d).port = d.port ∧ (hostCancelDev v d).win = d.win ∧ (hostCancelDev v d).pwr = d.pwr ∧ (hostCancelDev v d).mgt = d.mgt ∧ (hostCancelDev v d).boot = d.boot ∧ (hostCancelDev v d).aud = d.aud ∧ (hostCancelDev v d).cal = d.cal ∧ (hostCancelDev v d).mix = d.mix ∧ (hostCancelDev v d).outs = d.outs ∧ (hostCancelDev v d).tdm = d.tdm := by
  simp -implicitDefEqProofs [hostCancelDev]

@[simp] theorem flushDev_keeps (v : Word) (d : Dev) :
    (flushDev v d).mem = d.mem ∧ (flushDev v d).frame = d.frame ∧ (flushDev v d).port = d.port ∧ (flushDev v d).win = d.win ∧ (flushDev v d).pwr = d.pwr ∧ (flushDev v d).mgt = d.mgt ∧ (flushDev v d).boot = d.boot ∧ (flushDev v d).aud = d.aud ∧ (flushDev v d).cal = d.cal ∧ (flushDev v d).mix = d.mix ∧ (flushDev v d).outs = d.outs ∧ (flushDev v d).tdm = d.tdm := by
  simp -implicitDefEqProofs [flushDev]

@[simp] theorem lateState_keeps (c : Nat) (d : Dev) :
    (lateState c d).fresh = d.fresh ∧ (lateState c d).mem = d.mem ∧ (lateState c d).frame = d.frame ∧ (lateState c d).port = d.port ∧ (lateState c d).win = d.win ∧ (lateState c d).pwr = d.pwr ∧ (lateState c d).mgt = d.mgt ∧ (lateState c d).boot = d.boot ∧ (lateState c d).alm = d.alm ∧ (lateState c d).par = d.par ∧ (lateState c d).cal = d.cal ∧ (lateState c d).mix = d.mix ∧ (lateState c d).outs = d.outs ∧ (lateState c d).tdm = d.tdm ∧ (lateState c d).ser = d.ser ∧ (lateState c d).cas = d.cas := by
  simp -implicitDefEqProofs [lateState]

@[simp] theorem tileRelease_keeps (v n : Nat) (d : Dev) :
    (tileRelease v n d).mem = d.mem ∧ (tileRelease v n d).frame = d.frame ∧ (tileRelease v n d).port = d.port ∧ (tileRelease v n d).win = d.win ∧ (tileRelease v n d).cnt = d.cnt ∧ (tileRelease v n d).pwr = d.pwr ∧ (tileRelease v n d).mgt = d.mgt ∧ (tileRelease v n d).boot = d.boot ∧ (tileRelease v n d).alm = d.alm ∧ (tileRelease v n d).par = d.par ∧ (tileRelease v n d).mix = d.mix ∧ (tileRelease v n d).outs = d.outs ∧ (tileRelease v n d).tdm = d.tdm ∧ (tileRelease v n d).ser = d.ser ∧ (tileRelease v n d).cas = d.cas := by
  simp -implicitDefEqProofs [tileRelease]

@[simp] theorem peakRoll_keeps (v : Nat) (d : Dev) :
    (peakRoll v d).regs = d.regs ∧ (peakRoll v d).fresh = d.fresh ∧ (peakRoll v d).mem = d.mem ∧ (peakRoll v d).frame = d.frame ∧ (peakRoll v d).port = d.port ∧ (peakRoll v d).win = d.win ∧ (peakRoll v d).cnt = d.cnt ∧ (peakRoll v d).pwr = d.pwr ∧ (peakRoll v d).mgt = d.mgt ∧ (peakRoll v d).boot = d.boot ∧ (peakRoll v d).alm = d.alm ∧ (peakRoll v d).par = d.par ∧ (peakRoll v d).cal = d.cal ∧ (peakRoll v d).mix = d.mix ∧ (peakRoll v d).outs = d.outs ∧ (peakRoll v d).tdm = d.tdm ∧ (peakRoll v d).ser = d.ser ∧ (peakRoll v d).cas = d.cas := by
  simp -implicitDefEqProofs [peakRoll]

@[simp] theorem cluRelease_keeps (c n : Nat) (d : Dev) :
    (cluRelease c n d).mem = d.mem ∧ (cluRelease c n d).frame = d.frame ∧ (cluRelease c n d).port = d.port ∧ (cluRelease c n d).win = d.win ∧ (cluRelease c n d).cnt = d.cnt ∧ (cluRelease c n d).pwr = d.pwr ∧ (cluRelease c n d).mgt = d.mgt ∧ (cluRelease c n d).boot = d.boot ∧ (cluRelease c n d).alm = d.alm ∧ (cluRelease c n d).par = d.par ∧ (cluRelease c n d).mix = d.mix ∧ (cluRelease c n d).outs = d.outs ∧ (cluRelease c n d).tdm = d.tdm ∧ (cluRelease c n d).ser = d.ser ∧ (cluRelease c n d).cas = d.cas := by
  simp -implicitDefEqProofs [cluRelease]

@[simp] theorem takeRecords_keeps (c : Nat) (d : Dev) :
    (takeRecords c d).regs = d.regs ∧ (takeRecords c d).fresh = d.fresh ∧ (takeRecords c d).frame = d.frame ∧ (takeRecords c d).port = d.port ∧ (takeRecords c d).win = d.win ∧ (takeRecords c d).cnt = d.cnt ∧ (takeRecords c d).pwr = d.pwr ∧ (takeRecords c d).mgt = d.mgt ∧ (takeRecords c d).boot = d.boot ∧ (takeRecords c d).alm = d.alm ∧ (takeRecords c d).par = d.par ∧ (takeRecords c d).cal = d.cal ∧ (takeRecords c d).mix = d.mix ∧ (takeRecords c d).outs = d.outs ∧ (takeRecords c d).tdm = d.tdm ∧ (takeRecords c d).ser = d.ser ∧ (takeRecords c d).cas = d.cas := by
  simp -implicitDefEqProofs [takeRecords]

@[simp] theorem audioLatch_keeps (d : Dev) :
    (audioLatch d).regs = d.regs ∧ (audioLatch d).fresh = d.fresh ∧ (audioLatch d).mem = d.mem ∧ (audioLatch d).port = d.port ∧ (audioLatch d).win = d.win ∧ (audioLatch d).cnt = d.cnt ∧ (audioLatch d).pwr = d.pwr ∧ (audioLatch d).mgt = d.mgt ∧ (audioLatch d).boot = d.boot ∧ (audioLatch d).alm = d.alm ∧ (audioLatch d).par = d.par ∧ (audioLatch d).aud = d.aud ∧ (audioLatch d).cal = d.cal ∧ (audioLatch d).mix = d.mix ∧ (audioLatch d).tdm = d.tdm ∧ (audioLatch d).ser = d.ser ∧ (audioLatch d).cas = d.cas := by
  simp -implicitDefEqProofs [audioLatch]

@[simp] theorem parlourRelease_keeps (d : Dev) :
    (parlourRelease d).frame = d.frame ∧ (parlourRelease d).win = d.win ∧ (parlourRelease d).pwr = d.pwr ∧ (parlourRelease d).boot = d.boot ∧ (parlourRelease d).mix = d.mix ∧ (parlourRelease d).outs = d.outs ∧ (parlourRelease d).tdm = d.tdm ∧ (parlourRelease d).ser = d.ser := by
  simp -implicitDefEqProofs [parlourRelease]

@[simp] theorem mixSide_keeps (old : Nat → Word) (d : Dev) :
    (mixSide old d).fresh = d.fresh ∧ (mixSide old d).mem = d.mem ∧ (mixSide old d).frame = d.frame ∧ (mixSide old d).port = d.port ∧ (mixSide old d).cnt = d.cnt ∧ (mixSide old d).pwr = d.pwr ∧ (mixSide old d).mgt = d.mgt ∧ (mixSide old d).boot = d.boot ∧ (mixSide old d).alm = d.alm ∧ (mixSide old d).par = d.par ∧ (mixSide old d).aud = d.aud ∧ (mixSide old d).cal = d.cal ∧ (mixSide old d).ser = d.ser ∧ (mixSide old d).cas = d.cas := by
  simp -implicitDefEqProofs [mixSide]

@[simp] theorem landEnd_keeps (d : Dev) :
    (landEnd d).fresh = d.fresh ∧ (landEnd d).frame = d.frame ∧ (landEnd d).win = d.win ∧ (landEnd d).pwr = d.pwr ∧ (landEnd d).mgt = d.mgt ∧ (landEnd d).boot = d.boot ∧ (landEnd d).alm = d.alm ∧ (landEnd d).par = d.par ∧ (landEnd d).aud = d.aud ∧ (landEnd d).mix = d.mix ∧ (landEnd d).outs = d.outs ∧ (landEnd d).tdm = d.tdm ∧ (landEnd d).ser = d.ser ∧ (landEnd d).cas = d.cas := by
  simp -implicitDefEqProofs [landEnd]

@[simp] theorem efReleaseDev_keeps (d : Dev) : (efReleaseDev d).boot = d.boot := by
  simp -implicitDefEqProofs [efReleaseDev]

@[simp] theorem clusterFrameDeliveredDev_keeps (c slack : Nat) (d : Dev) :
    (clusterFrameDeliveredDev c slack d).fresh = d.fresh ∧ (clusterFrameDeliveredDev c slack d).mem = d.mem ∧ (clusterFrameDeliveredDev c slack d).port = d.port ∧ (clusterFrameDeliveredDev c slack d).win = d.win ∧ (clusterFrameDeliveredDev c slack d).pwr = d.pwr ∧ (clusterFrameDeliveredDev c slack d).mgt = d.mgt ∧ (clusterFrameDeliveredDev c slack d).boot = d.boot ∧ (clusterFrameDeliveredDev c slack d).alm = d.alm ∧ (clusterFrameDeliveredDev c slack d).par = d.par ∧ (clusterFrameDeliveredDev c slack d).cal = d.cal ∧ (clusterFrameDeliveredDev c slack d).mix = d.mix ∧ (clusterFrameDeliveredDev c slack d).outs = d.outs ∧ (clusterFrameDeliveredDev c slack d).tdm = d.tdm ∧ (clusterFrameDeliveredDev c slack d).ser = d.ser ∧ (clusterFrameDeliveredDev c slack d).cas = d.cas := by
  unfold clusterFrameDeliveredDev; refine ⟨?_, ?_, ?_, ?_, ?_, ?_, ?_, ?_, ?_, ?_, ?_, ?_, ?_, ?_, ?_⟩ <;> (repeat' split) <;> simp -implicitDefEqProofs

@[simp] theorem clusterFlushDev_keeps (c : Nat) (d : Dev) :
    (clusterFlushDev c d).fresh = d.fresh ∧ (clusterFlushDev c d).win = d.win ∧ (clusterFlushDev c d).pwr = d.pwr ∧ (clusterFlushDev c d).boot = d.boot ∧ (clusterFlushDev c d).alm = d.alm ∧ (clusterFlushDev c d).cal = d.cal ∧ (clusterFlushDev c d).mix = d.mix ∧ (clusterFlushDev c d).outs = d.outs ∧ (clusterFlushDev c d).tdm = d.tdm ∧ (clusterFlushDev c d).ser = d.ser := by
  simp -implicitDefEqProofs [clusterFlushDev]

@[simp] theorem refLostDev_keeps (d : Dev) :
    (refLostDev d).fresh = d.fresh ∧ (refLostDev d).mem = d.mem ∧ (refLostDev d).port = d.port ∧ (refLostDev d).win = d.win ∧ (refLostDev d).pwr = d.pwr ∧ (refLostDev d).boot = d.boot ∧ (refLostDev d).par = d.par ∧ (refLostDev d).aud = d.aud ∧ (refLostDev d).mix = d.mix ∧ (refLostDev d).tdm = d.tdm ∧ (refLostDev d).ser = d.ser := by
  simp -implicitDefEqProofs [refLostDev]

@[simp] theorem refValidDev_keeps (d : Dev) :
    (refValidDev d).fresh = d.fresh ∧ (refValidDev d).mem = d.mem ∧ (refValidDev d).port = d.port ∧ (refValidDev d).win = d.win ∧ (refValidDev d).pwr = d.pwr ∧ (refValidDev d).mgt = d.mgt ∧ (refValidDev d).boot = d.boot ∧ (refValidDev d).par = d.par ∧ (refValidDev d).cal = d.cal ∧ (refValidDev d).mix = d.mix ∧ (refValidDev d).tdm = d.tdm ∧ (refValidDev d).ser = d.ser := by
  simp -implicitDefEqProofs [refValidDev]

@[simp] theorem engineSet_keeps (on : Bool) (d : Dev) :
    (engineSet on d).fresh = d.fresh ∧ (engineSet on d).mem = d.mem ∧ (engineSet on d).frame = d.frame ∧ (engineSet on d).port = d.port ∧ (engineSet on d).win = d.win ∧ (engineSet on d).cnt = d.cnt ∧ (engineSet on d).pwr = d.pwr ∧ (engineSet on d).mgt = d.mgt ∧ (engineSet on d).boot = d.boot ∧ (engineSet on d).par = d.par ∧ (engineSet on d).cal = d.cal ∧ (engineSet on d).mix = d.mix ∧ (engineSet on d).tdm = d.tdm ∧ (engineSet on d).ser = d.ser := by
  simp -implicitDefEqProofs [engineSet]

@[simp] theorem frameCtlWrite_keeps (lock : Bool) (v : Word) (d : Dev) :
    (frameCtlWrite lock v d).fresh = d.fresh ∧ (frameCtlWrite lock v d).mem = d.mem ∧ (frameCtlWrite lock v d).frame = d.frame ∧ (frameCtlWrite lock v d).port = d.port ∧ (frameCtlWrite lock v d).win = d.win ∧ (frameCtlWrite lock v d).cnt = d.cnt ∧ (frameCtlWrite lock v d).pwr = d.pwr ∧ (frameCtlWrite lock v d).mgt = d.mgt ∧ (frameCtlWrite lock v d).boot = d.boot ∧ (frameCtlWrite lock v d).par = d.par ∧ (frameCtlWrite lock v d).cal = d.cal ∧ (frameCtlWrite lock v d).mix = d.mix ∧ (frameCtlWrite lock v d).tdm = d.tdm ∧ (frameCtlWrite lock v d).ser = d.ser := by
  simp -implicitDefEqProofs [frameCtlWrite]

@[simp] theorem strapLatchDev_keeps (casPos : BitVec 3) (xtalSel : Bool) (bootSrc : BitVec 2) (d : Dev) :
    (strapLatchDev casPos xtalSel bootSrc d).fresh = d.fresh ∧ (strapLatchDev casPos xtalSel bootSrc d).mem = d.mem ∧ (strapLatchDev casPos xtalSel bootSrc d).frame = d.frame ∧ (strapLatchDev casPos xtalSel bootSrc d).port = d.port ∧ (strapLatchDev casPos xtalSel bootSrc d).win = d.win ∧ (strapLatchDev casPos xtalSel bootSrc d).cnt = d.cnt ∧ (strapLatchDev casPos xtalSel bootSrc d).alm = d.alm ∧ (strapLatchDev casPos xtalSel bootSrc d).par = d.par ∧ (strapLatchDev casPos xtalSel bootSrc d).aud = d.aud ∧ (strapLatchDev casPos xtalSel bootSrc d).cal = d.cal ∧ (strapLatchDev casPos xtalSel bootSrc d).mix = d.mix ∧ (strapLatchDev casPos xtalSel bootSrc d).outs = d.outs ∧ (strapLatchDev casPos xtalSel bootSrc d).tdm = d.tdm ∧ (strapLatchDev casPos xtalSel bootSrc d).ser = d.ser ∧ (strapLatchDev casPos xtalSel bootSrc d).cas = d.cas := by
  simp -implicitDefEqProofs [strapLatchDev]

@[simp] theorem sysexVoid_keeps (d : Dev) :
    (sysexVoid d).fresh = d.fresh ∧ (sysexVoid d).mem = d.mem ∧ (sysexVoid d).frame = d.frame ∧ (sysexVoid d).port = d.port ∧ (sysexVoid d).win = d.win ∧ (sysexVoid d).cnt = d.cnt ∧ (sysexVoid d).pwr = d.pwr ∧ (sysexVoid d).mgt = d.mgt ∧ (sysexVoid d).boot = d.boot ∧ (sysexVoid d).par = d.par ∧ (sysexVoid d).aud = d.aud ∧ (sysexVoid d).cal = d.cal ∧ (sysexVoid d).mix = d.mix ∧ (sysexVoid d).outs = d.outs ∧ (sysexVoid d).tdm = d.tdm ∧ (sysexVoid d).cas = d.cas := by
  simp -implicitDefEqProofs [sysexVoid]

@[simp] theorem reportOn_keeps (n : Nat) (d : Dev) :
    (reportOn n d).fresh = d.fresh ∧ (reportOn n d).frame = d.frame ∧ (reportOn n d).win = d.win ∧ (reportOn n d).cal = d.cal ∧ (reportOn n d).outs = d.outs ∧ (reportOn n d).tdm = d.tdm ∧ (reportOn n d).ser = d.ser := by
  simp -implicitDefEqProofs [reportOn]

@[simp] theorem mgmtResume_keeps (d : Dev) :
    (mgmtResume d).regs = d.regs ∧ (mgmtResume d).fresh = d.fresh ∧ (mgmtResume d).mem = d.mem ∧ (mgmtResume d).frame = d.frame ∧ (mgmtResume d).port = d.port ∧ (mgmtResume d).win = d.win ∧ (mgmtResume d).cnt = d.cnt ∧ (mgmtResume d).pwr = d.pwr ∧ (mgmtResume d).boot = d.boot ∧ (mgmtResume d).alm = d.alm ∧ (mgmtResume d).par = d.par ∧ (mgmtResume d).aud = d.aud ∧ (mgmtResume d).cal = d.cal ∧ (mgmtResume d).mix = d.mix ∧ (mgmtResume d).outs = d.outs ∧ (mgmtResume d).tdm = d.tdm ∧ (mgmtResume d).ser = d.ser ∧ (mgmtResume d).cas = d.cas := by
  simp -implicitDefEqProofs [mgmtResume]

@[simp] theorem countReject_keeps (ctl : Nat) (d : Dev) :
    (countReject ctl d).fresh = d.fresh ∧ (countReject ctl d).mem = d.mem ∧ (countReject ctl d).frame = d.frame ∧ (countReject ctl d).port = d.port ∧ (countReject ctl d).win = d.win ∧ (countReject ctl d).cnt = d.cnt ∧ (countReject ctl d).pwr = d.pwr ∧ (countReject ctl d).mgt = d.mgt ∧ (countReject ctl d).boot = d.boot ∧ (countReject ctl d).alm = d.alm ∧ (countReject ctl d).par = d.par ∧ (countReject ctl d).aud = d.aud ∧ (countReject ctl d).cal = d.cal ∧ (countReject ctl d).mix = d.mix ∧ (countReject ctl d).outs = d.outs ∧ (countReject ctl d).tdm = d.tdm ∧ (countReject ctl d).ser = d.ser ∧ (countReject ctl d).cas = d.cas := by
  simp -implicitDefEqProofs [countReject]

@[simp] theorem mailboxGo_keeps (v : Word) (d : Dev) :
    (mailboxGo v d).fresh = d.fresh ∧ (mailboxGo v d).mem = d.mem ∧ (mailboxGo v d).frame = d.frame ∧ (mailboxGo v d).port = d.port ∧ (mailboxGo v d).win = d.win ∧ (mailboxGo v d).cnt = d.cnt ∧ (mailboxGo v d).pwr = d.pwr ∧ (mailboxGo v d).boot = d.boot ∧ (mailboxGo v d).alm = d.alm ∧ (mailboxGo v d).par = d.par ∧ (mailboxGo v d).aud = d.aud ∧ (mailboxGo v d).cal = d.cal ∧ (mailboxGo v d).mix = d.mix ∧ (mailboxGo v d).outs = d.outs ∧ (mailboxGo v d).tdm = d.tdm ∧ (mailboxGo v d).ser = d.ser ∧ (mailboxGo v d).cas = d.cas := by
  simp -implicitDefEqProofs [mailboxGo]

@[simp] theorem Dev.drive_keeps (d : Dev) (x : BitVec 16) :
    (Dev.drive d x).regs = d.regs ∧ (Dev.drive d x).fresh = d.fresh ∧ (Dev.drive d x).mem = d.mem ∧ (Dev.drive d x).frame = d.frame ∧ (Dev.drive d x).win = d.win ∧ (Dev.drive d x).cnt = d.cnt ∧ (Dev.drive d x).pwr = d.pwr ∧ (Dev.drive d x).mgt = d.mgt ∧ (Dev.drive d x).boot = d.boot ∧ (Dev.drive d x).alm = d.alm ∧ (Dev.drive d x).par = d.par ∧ (Dev.drive d x).aud = d.aud ∧ (Dev.drive d x).cal = d.cal ∧ (Dev.drive d x).mix = d.mix ∧ (Dev.drive d x).outs = d.outs ∧ (Dev.drive d x).tdm = d.tdm ∧ (Dev.drive d x).ser = d.ser ∧ (Dev.drive d x).cas = d.cas := by
  simp -implicitDefEqProofs [Dev.drive]

@[simp] theorem putEvcSnap_keeps (x : EvcSnap) (d : Dev) :
    (putEvcSnap x d).regs = d.regs ∧ (putEvcSnap x d).fresh = d.fresh ∧ (putEvcSnap x d).mem = d.mem ∧ (putEvcSnap x d).frame = d.frame ∧ (putEvcSnap x d).win = d.win ∧ (putEvcSnap x d).cnt = d.cnt ∧ (putEvcSnap x d).pwr = d.pwr ∧ (putEvcSnap x d).mgt = d.mgt ∧ (putEvcSnap x d).boot = d.boot ∧ (putEvcSnap x d).alm = d.alm ∧ (putEvcSnap x d).par = d.par ∧ (putEvcSnap x d).aud = d.aud ∧ (putEvcSnap x d).cal = d.cal ∧ (putEvcSnap x d).mix = d.mix ∧ (putEvcSnap x d).outs = d.outs ∧ (putEvcSnap x d).tdm = d.tdm ∧ (putEvcSnap x d).ser = d.ser ∧ (putEvcSnap x d).cas = d.cas := by
  simp -implicitDefEqProofs [putEvcSnap]

@[simp] theorem longSnaps_keeps (s : State) (a : Nat) (d : Dev) :
    (longSnaps s a d).fresh = d.fresh ∧ (longSnaps s a d).mem = d.mem ∧ (longSnaps s a d).frame = d.frame ∧ (longSnaps s a d).cnt = d.cnt ∧ (longSnaps s a d).pwr = d.pwr ∧ (longSnaps s a d).mgt = d.mgt ∧ (longSnaps s a d).boot = d.boot ∧ (longSnaps s a d).alm = d.alm ∧ (longSnaps s a d).par = d.par ∧ (longSnaps s a d).aud = d.aud ∧ (longSnaps s a d).cal = d.cal ∧ (longSnaps s a d).mix = d.mix ∧ (longSnaps s a d).outs = d.outs ∧ (longSnaps s a d).tdm = d.tdm ∧ (longSnaps s a d).ser = d.ser ∧ (longSnaps s a d).cas = d.cas := by
  simp -implicitDefEqProofs [longSnaps]

@[simp] theorem responderRead_keeps (ha : Nat) (d : Dev) :
    (responderRead ha d).fresh = d.fresh ∧ (responderRead ha d).mem = d.mem ∧ (responderRead ha d).frame = d.frame ∧ (responderRead ha d).win = d.win ∧ (responderRead ha d).cnt = d.cnt ∧ (responderRead ha d).pwr = d.pwr ∧ (responderRead ha d).mgt = d.mgt ∧ (responderRead ha d).boot = d.boot ∧ (responderRead ha d).alm = d.alm ∧ (responderRead ha d).par = d.par ∧ (responderRead ha d).aud = d.aud ∧ (responderRead ha d).cal = d.cal ∧ (responderRead ha d).mix = d.mix ∧ (responderRead ha d).outs = d.outs ∧ (responderRead ha d).tdm = d.tdm ∧ (responderRead ha d).ser = d.ser ∧ (responderRead ha d).cas = d.cas := by
  simp -implicitDefEqProofs [responderRead]

@[simp] theorem orphan_keeps (d : Dev) :
    (orphan d).fresh = d.fresh ∧ (orphan d).mem = d.mem ∧ (orphan d).frame = d.frame ∧ (orphan d).port = d.port ∧ (orphan d).win = d.win ∧ (orphan d).cnt = d.cnt ∧ (orphan d).pwr = d.pwr ∧ (orphan d).mgt = d.mgt ∧ (orphan d).boot = d.boot ∧ (orphan d).alm = d.alm ∧ (orphan d).par = d.par ∧ (orphan d).aud = d.aud ∧ (orphan d).cal = d.cal ∧ (orphan d).mix = d.mix ∧ (orphan d).outs = d.outs ∧ (orphan d).tdm = d.tdm ∧ (orphan d).ser = d.ser ∧ (orphan d).cas = d.cas := by
  simp -implicitDefEqProofs [orphan]

@[simp] theorem lowWrite_keeps (a : Nat) (x : BitVec 16) (be : BitVec 2) (d : Dev) :
    (lowWrite a x be d).fresh = d.fresh ∧ (lowWrite a x be d).mem = d.mem ∧ (lowWrite a x be d).frame = d.frame ∧ (lowWrite a x be d).win = d.win ∧ (lowWrite a x be d).cnt = d.cnt ∧ (lowWrite a x be d).pwr = d.pwr ∧ (lowWrite a x be d).mgt = d.mgt ∧ (lowWrite a x be d).boot = d.boot ∧ (lowWrite a x be d).alm = d.alm ∧ (lowWrite a x be d).par = d.par ∧ (lowWrite a x be d).aud = d.aud ∧ (lowWrite a x be d).cal = d.cal ∧ (lowWrite a x be d).mix = d.mix ∧ (lowWrite a x be d).outs = d.outs ∧ (lowWrite a x be d).tdm = d.tdm ∧ (lowWrite a x be d).ser = d.ser ∧ (lowWrite a x be d).cas = d.cas := by
  unfold lowWrite; refine ⟨?_, ?_, ?_, ?_, ?_, ?_, ?_, ?_, ?_, ?_, ?_, ?_, ?_, ?_, ?_, ?_, ?_⟩ <;> (repeat' split) <;> simp -implicitDefEqProofs

@[simp] theorem responderDrop_keeps (d : Dev) :
    (responderDrop d).fresh = d.fresh ∧ (responderDrop d).mem = d.mem ∧ (responderDrop d).frame = d.frame ∧ (responderDrop d).win = d.win ∧ (responderDrop d).cnt = d.cnt ∧ (responderDrop d).pwr = d.pwr ∧ (responderDrop d).mgt = d.mgt ∧ (responderDrop d).boot = d.boot ∧ (responderDrop d).alm = d.alm ∧ (responderDrop d).par = d.par ∧ (responderDrop d).aud = d.aud ∧ (responderDrop d).cal = d.cal ∧ (responderDrop d).mix = d.mix ∧ (responderDrop d).outs = d.outs ∧ (responderDrop d).tdm = d.tdm ∧ (responderDrop d).ser = d.ser ∧ (responderDrop d).cas = d.cas := by
  simp -implicitDefEqProofs [responderDrop]

@[simp] theorem responderLowWrite_keeps (a : Nat) (x : BitVec 16) (be : BitVec 2) (d : Dev) :
    (responderLowWrite a x be d).fresh = d.fresh ∧ (responderLowWrite a x be d).mem = d.mem ∧ (responderLowWrite a x be d).frame = d.frame ∧ (responderLowWrite a x be d).win = d.win ∧ (responderLowWrite a x be d).cnt = d.cnt ∧ (responderLowWrite a x be d).pwr = d.pwr ∧ (responderLowWrite a x be d).mgt = d.mgt ∧ (responderLowWrite a x be d).boot = d.boot ∧ (responderLowWrite a x be d).alm = d.alm ∧ (responderLowWrite a x be d).par = d.par ∧ (responderLowWrite a x be d).aud = d.aud ∧ (responderLowWrite a x be d).cal = d.cal ∧ (responderLowWrite a x be d).mix = d.mix ∧ (responderLowWrite a x be d).outs = d.outs ∧ (responderLowWrite a x be d).tdm = d.tdm ∧ (responderLowWrite a x be d).ser = d.ser ∧ (responderLowWrite a x be d).cas = d.cas := by
  simp -implicitDefEqProofs [responderLowWrite]

@[simp] theorem hostLowHalfWriteDev_keeps (ha : Nat) (x : BitVec 16) (be : BitVec 2) (d : Dev) :
    (hostLowHalfWriteDev ha x be d).fresh = d.fresh ∧ (hostLowHalfWriteDev ha x be d).mem = d.mem ∧ (hostLowHalfWriteDev ha x be d).frame = d.frame ∧ (hostLowHalfWriteDev ha x be d).win = d.win ∧ (hostLowHalfWriteDev ha x be d).cnt = d.cnt ∧ (hostLowHalfWriteDev ha x be d).pwr = d.pwr ∧ (hostLowHalfWriteDev ha x be d).mgt = d.mgt ∧ (hostLowHalfWriteDev ha x be d).boot = d.boot ∧ (hostLowHalfWriteDev ha x be d).alm = d.alm ∧ (hostLowHalfWriteDev ha x be d).par = d.par ∧ (hostLowHalfWriteDev ha x be d).aud = d.aud ∧ (hostLowHalfWriteDev ha x be d).cal = d.cal ∧ (hostLowHalfWriteDev ha x be d).mix = d.mix ∧ (hostLowHalfWriteDev ha x be d).outs = d.outs ∧ (hostLowHalfWriteDev ha x be d).tdm = d.tdm ∧ (hostLowHalfWriteDev ha x be d).ser = d.ser ∧ (hostLowHalfWriteDev ha x be d).cas = d.cas := by
  simp -implicitDefEqProofs [hostLowHalfWriteDev]

@[simp] theorem responderHighWrite_keeps (a : Nat) (x : BitVec 16) (be : BitVec 2) (d : Dev) :
    (responderHighWrite a x be d).fresh = d.fresh ∧ (responderHighWrite a x be d).frame = d.frame ∧ (responderHighWrite a x be d).win = d.win ∧ (responderHighWrite a x be d).cnt = d.cnt ∧ (responderHighWrite a x be d).alm = d.alm ∧ (responderHighWrite a x be d).par = d.par ∧ (responderHighWrite a x be d).cal = d.cal ∧ (responderHighWrite a x be d).mix = d.mix ∧ (responderHighWrite a x be d).outs = d.outs ∧ (responderHighWrite a x be d).tdm = d.tdm ∧ (responderHighWrite a x be d).ser = d.ser ∧ (responderHighWrite a x be d).cas = d.cas := by
  unfold responderHighWrite; refine ⟨?_, ?_, ?_, ?_, ?_, ?_, ?_, ?_, ?_, ?_, ?_, ?_⟩ <;> (repeat' split) <;> simp -implicitDefEqProofs

@[simp] theorem listLeft_keeps (arg addr : Nat) (d : Dev) :
    (listLeft arg addr d).regs = d.regs ∧ (listLeft arg addr d).fresh = d.fresh ∧ (listLeft arg addr d).mem = d.mem ∧ (listLeft arg addr d).frame = d.frame ∧ (listLeft arg addr d).port = d.port ∧ (listLeft arg addr d).win = d.win ∧ (listLeft arg addr d).cnt = d.cnt ∧ (listLeft arg addr d).pwr = d.pwr ∧ (listLeft arg addr d).mgt = d.mgt ∧ (listLeft arg addr d).alm = d.alm ∧ (listLeft arg addr d).par = d.par ∧ (listLeft arg addr d).aud = d.aud ∧ (listLeft arg addr d).cal = d.cal ∧ (listLeft arg addr d).mix = d.mix ∧ (listLeft arg addr d).outs = d.outs ∧ (listLeft arg addr d).tdm = d.tdm ∧ (listLeft arg addr d).ser = d.ser ∧ (listLeft arg addr d).cas = d.cas := by
  simp -implicitDefEqProofs [listLeft]

@[simp] theorem bootWakes_keeps (d : Dev) :
    (bootWakes d).fresh = d.fresh ∧ (bootWakes d).mem = d.mem ∧ (bootWakes d).frame = d.frame ∧ (bootWakes d).port = d.port ∧ (bootWakes d).win = d.win ∧ (bootWakes d).cnt = d.cnt ∧ (bootWakes d).alm = d.alm ∧ (bootWakes d).par = d.par ∧ (bootWakes d).aud = d.aud ∧ (bootWakes d).cal = d.cal ∧ (bootWakes d).mix = d.mix ∧ (bootWakes d).outs = d.outs ∧ (bootWakes d).tdm = d.tdm ∧ (bootWakes d).ser = d.ser ∧ (bootWakes d).cas = d.cas := by
  simp -implicitDefEqProofs [bootWakes]

@[simp] theorem foregroundOne_keeps (v : Nat) (d : Dev) :
    (foregroundOne v d).regs = d.regs ∧ (foregroundOne v d).frame = d.frame ∧ (foregroundOne v d).port = d.port ∧ (foregroundOne v d).win = d.win ∧ (foregroundOne v d).cnt = d.cnt ∧ (foregroundOne v d).pwr = d.pwr ∧ (foregroundOne v d).mgt = d.mgt ∧ (foregroundOne v d).boot = d.boot ∧ (foregroundOne v d).alm = d.alm ∧ (foregroundOne v d).par = d.par ∧ (foregroundOne v d).aud = d.aud ∧ (foregroundOne v d).mix = d.mix ∧ (foregroundOne v d).outs = d.outs ∧ (foregroundOne v d).tdm = d.tdm ∧ (foregroundOne v d).ser = d.ser ∧ (foregroundOne v d).cas = d.cas := by
  simp -implicitDefEqProofs [foregroundOne]

@[simp] theorem foregroundCalibrationStartDev_keeps (d : Dev) :
    (foregroundCalibrationStartDev d).frame = d.frame ∧ (foregroundCalibrationStartDev d).port = d.port ∧ (foregroundCalibrationStartDev d).win = d.win ∧ (foregroundCalibrationStartDev d).cnt = d.cnt ∧ (foregroundCalibrationStartDev d).pwr = d.pwr ∧ (foregroundCalibrationStartDev d).mgt = d.mgt ∧ (foregroundCalibrationStartDev d).boot = d.boot ∧ (foregroundCalibrationStartDev d).alm = d.alm ∧ (foregroundCalibrationStartDev d).par = d.par ∧ (foregroundCalibrationStartDev d).aud = d.aud ∧ (foregroundCalibrationStartDev d).mix = d.mix ∧ (foregroundCalibrationStartDev d).outs = d.outs ∧ (foregroundCalibrationStartDev d).tdm = d.tdm ∧ (foregroundCalibrationStartDev d).ser = d.ser ∧ (foregroundCalibrationStartDev d).cas = d.cas := by
  simp -implicitDefEqProofs [foregroundCalibrationStartDev]

@[simp] theorem bootSleeps_keeps (d : Dev) :
    (bootSleeps d).fresh = d.fresh ∧ (bootSleeps d).frame = d.frame ∧ (bootSleeps d).port = d.port ∧ (bootSleeps d).win = d.win ∧ (bootSleeps d).cnt = d.cnt ∧ (bootSleeps d).alm = d.alm ∧ (bootSleeps d).par = d.par ∧ (bootSleeps d).cal = d.cal ∧ (bootSleeps d).mix = d.mix ∧ (bootSleeps d).outs = d.outs ∧ (bootSleeps d).tdm = d.tdm ∧ (bootSleeps d).ser = d.ser ∧ (bootSleeps d).cas = d.cas := by
  simp -implicitDefEqProofs [bootSleeps]

@[simp] theorem foregroundCalibrationDoneDev_keeps (d : Dev) :
    (foregroundCalibrationDoneDev d).fresh = d.fresh ∧ (foregroundCalibrationDoneDev d).frame = d.frame ∧ (foregroundCalibrationDoneDev d).win = d.win ∧ (foregroundCalibrationDoneDev d).alm = d.alm ∧ (foregroundCalibrationDoneDev d).par = d.par ∧ (foregroundCalibrationDoneDev d).mix = d.mix ∧ (foregroundCalibrationDoneDev d).outs = d.outs ∧ (foregroundCalibrationDoneDev d).tdm = d.tdm ∧ (foregroundCalibrationDoneDev d).ser = d.ser ∧ (foregroundCalibrationDoneDev d).cas = d.cas := by
  simp -implicitDefEqProofs [foregroundCalibrationDoneDev]

@[simp] theorem alarmMoved_fresh (bit_ : Nat) (rise : Dev → Dev) (old new : Alarm) (d : Dev)
    (h : ∀ e, (rise e).fresh = e.fresh) :
    (alarmMoved bit_ rise old new d).fresh = d.fresh := by
  unfold alarmMoved; dsimp only; (repeat' split) <;> simp [h]

@[simp] theorem alarmMoved_mem (bit_ : Nat) (rise : Dev → Dev) (old new : Alarm) (d : Dev)
    (h : ∀ e, (rise e).mem = e.mem) :
    (alarmMoved bit_ rise old new d).mem = d.mem := by
  unfold alarmMoved; dsimp only; (repeat' split) <;> simp [h]

@[simp] theorem alarmMoved_frame (bit_ : Nat) (rise : Dev → Dev) (old new : Alarm) (d : Dev)
    (h : ∀ e, (rise e).frame = e.frame) :
    (alarmMoved bit_ rise old new d).frame = d.frame := by
  unfold alarmMoved; dsimp only; (repeat' split) <;> simp [h]

@[simp] theorem alarmMoved_port (bit_ : Nat) (rise : Dev → Dev) (old new : Alarm) (d : Dev)
    (h : ∀ e, (rise e).port = e.port) :
    (alarmMoved bit_ rise old new d).port = d.port := by
  unfold alarmMoved; dsimp only; (repeat' split) <;> simp [h]

@[simp] theorem alarmMoved_win (bit_ : Nat) (rise : Dev → Dev) (old new : Alarm) (d : Dev)
    (h : ∀ e, (rise e).win = e.win) :
    (alarmMoved bit_ rise old new d).win = d.win := by
  unfold alarmMoved; dsimp only; (repeat' split) <;> simp [h]

@[simp] theorem alarmMoved_cnt (bit_ : Nat) (rise : Dev → Dev) (old new : Alarm) (d : Dev)
    (h : ∀ e, (rise e).cnt = e.cnt) :
    (alarmMoved bit_ rise old new d).cnt = d.cnt := by
  unfold alarmMoved; dsimp only; (repeat' split) <;> simp [h]

@[simp] theorem alarmMoved_pwr (bit_ : Nat) (rise : Dev → Dev) (old new : Alarm) (d : Dev)
    (h : ∀ e, (rise e).pwr = e.pwr) :
    (alarmMoved bit_ rise old new d).pwr = d.pwr := by
  unfold alarmMoved; dsimp only; (repeat' split) <;> simp [h]

@[simp] theorem alarmMoved_boot (bit_ : Nat) (rise : Dev → Dev) (old new : Alarm) (d : Dev)
    (h : ∀ e, (rise e).boot = e.boot) :
    (alarmMoved bit_ rise old new d).boot = d.boot := by
  unfold alarmMoved; dsimp only; (repeat' split) <;> simp [h]

@[simp] theorem alarmMoved_alm (bit_ : Nat) (rise : Dev → Dev) (old new : Alarm) (d : Dev)
    (h : ∀ e, (rise e).alm = e.alm) :
    (alarmMoved bit_ rise old new d).alm = d.alm := by
  unfold alarmMoved; dsimp only; (repeat' split) <;> simp [h]

@[simp] theorem alarmMoved_par (bit_ : Nat) (rise : Dev → Dev) (old new : Alarm) (d : Dev)
    (h : ∀ e, (rise e).par = e.par) :
    (alarmMoved bit_ rise old new d).par = d.par := by
  unfold alarmMoved; dsimp only; (repeat' split) <;> simp [h]

@[simp] theorem alarmMoved_aud (bit_ : Nat) (rise : Dev → Dev) (old new : Alarm) (d : Dev)
    (h : ∀ e, (rise e).aud = e.aud) :
    (alarmMoved bit_ rise old new d).aud = d.aud := by
  unfold alarmMoved; dsimp only; (repeat' split) <;> simp [h]

@[simp] theorem alarmMoved_cal (bit_ : Nat) (rise : Dev → Dev) (old new : Alarm) (d : Dev)
    (h : ∀ e, (rise e).cal = e.cal) :
    (alarmMoved bit_ rise old new d).cal = d.cal := by
  unfold alarmMoved; dsimp only; (repeat' split) <;> simp [h]

@[simp] theorem alarmMoved_mix (bit_ : Nat) (rise : Dev → Dev) (old new : Alarm) (d : Dev)
    (h : ∀ e, (rise e).mix = e.mix) :
    (alarmMoved bit_ rise old new d).mix = d.mix := by
  unfold alarmMoved; dsimp only; (repeat' split) <;> simp [h]

@[simp] theorem alarmMoved_outs (bit_ : Nat) (rise : Dev → Dev) (old new : Alarm) (d : Dev)
    (h : ∀ e, (rise e).outs = e.outs) :
    (alarmMoved bit_ rise old new d).outs = d.outs := by
  unfold alarmMoved; dsimp only; (repeat' split) <;> simp [h]

@[simp] theorem alarmMoved_tdm (bit_ : Nat) (rise : Dev → Dev) (old new : Alarm) (d : Dev)
    (h : ∀ e, (rise e).tdm = e.tdm) :
    (alarmMoved bit_ rise old new d).tdm = d.tdm := by
  unfold alarmMoved; dsimp only; (repeat' split) <;> simp [h]

@[simp] theorem alarmMoved_ser (bit_ : Nat) (rise : Dev → Dev) (old new : Alarm) (d : Dev)
    (h : ∀ e, (rise e).ser = e.ser) :
    (alarmMoved bit_ rise old new d).ser = d.ser := by
  unfold alarmMoved; dsimp only; (repeat' split) <;> simp [h]

@[simp] theorem alarmMoved_cas (bit_ : Nat) (rise : Dev → Dev) (old new : Alarm) (d : Dev)
    (h : ∀ e, (rise e).cas = e.cas) :
    (alarmMoved bit_ rise old new d).cas = d.cas := by
  unfold alarmMoved; dsimp only; (repeat' split) <;> simp [h]

@[simp] theorem tempRose_keeps (crit : Bool) (who : Nat) (d : Dev) :
    (tempRose crit who d).fresh = d.fresh ∧ (tempRose crit who d).mem = d.mem ∧ (tempRose crit who d).frame = d.frame ∧ (tempRose crit who d).port = d.port ∧ (tempRose crit who d).win = d.win ∧ (tempRose crit who d).cnt = d.cnt ∧ (tempRose crit who d).pwr = d.pwr ∧ (tempRose crit who d).boot = d.boot ∧ (tempRose crit who d).alm = d.alm ∧ (tempRose crit who d).par = d.par ∧ (tempRose crit who d).aud = d.aud ∧ (tempRose crit who d).cal = d.cal ∧ (tempRose crit who d).mix = d.mix ∧ (tempRose crit who d).outs = d.outs ∧ (tempRose crit who d).tdm = d.tdm ∧ (tempRose crit who d).ser = d.ser ∧ (tempRose crit who d).cas = d.cas := by
  simp -implicitDefEqProofs [tempRose]

@[simp] theorem supplyRose_keeps (k : Nat) (d : Dev) :
    (supplyRose k d).fresh = d.fresh ∧ (supplyRose k d).mem = d.mem ∧ (supplyRose k d).frame = d.frame ∧ (supplyRose k d).port = d.port ∧ (supplyRose k d).win = d.win ∧ (supplyRose k d).cnt = d.cnt ∧ (supplyRose k d).pwr = d.pwr ∧ (supplyRose k d).boot = d.boot ∧ (supplyRose k d).alm = d.alm ∧ (supplyRose k d).par = d.par ∧ (supplyRose k d).aud = d.aud ∧ (supplyRose k d).cal = d.cal ∧ (supplyRose k d).mix = d.mix ∧ (supplyRose k d).outs = d.outs ∧ (supplyRose k d).tdm = d.tdm ∧ (supplyRose k d).ser = d.ser ∧ (supplyRose k d).cas = d.cas := by
  simp -implicitDefEqProofs [supplyRose]

@[simp] theorem takeReadings_keeps (temps supplies : List Word) (d : Dev) :
    (takeReadings temps supplies d).regs = d.regs ∧ (takeReadings temps supplies d).fresh = d.fresh ∧ (takeReadings temps supplies d).mem = d.mem ∧ (takeReadings temps supplies d).frame = d.frame ∧ (takeReadings temps supplies d).port = d.port ∧ (takeReadings temps supplies d).win = d.win ∧ (takeReadings temps supplies d).cnt = d.cnt ∧ (takeReadings temps supplies d).pwr = d.pwr ∧ (takeReadings temps supplies d).boot = d.boot ∧ (takeReadings temps supplies d).alm = d.alm ∧ (takeReadings temps supplies d).par = d.par ∧ (takeReadings temps supplies d).aud = d.aud ∧ (takeReadings temps supplies d).cal = d.cal ∧ (takeReadings temps supplies d).mix = d.mix ∧ (takeReadings temps supplies d).outs = d.outs ∧ (takeReadings temps supplies d).tdm = d.tdm ∧ (takeReadings temps supplies d).ser = d.ser ∧ (takeReadings temps supplies d).cas = d.cas := by
  simp -implicitDefEqProofs [takeReadings]

@[simp] theorem supplyCheck_keeps (k : Nat) (d : Dev) :
    (supplyCheck k d).fresh = d.fresh ∧ (supplyCheck k d).mem = d.mem ∧ (supplyCheck k d).frame = d.frame ∧ (supplyCheck k d).port = d.port ∧ (supplyCheck k d).win = d.win ∧ (supplyCheck k d).cnt = d.cnt ∧ (supplyCheck k d).pwr = d.pwr ∧ (supplyCheck k d).boot = d.boot ∧ (supplyCheck k d).alm = d.alm ∧ (supplyCheck k d).par = d.par ∧ (supplyCheck k d).aud = d.aud ∧ (supplyCheck k d).cal = d.cal ∧ (supplyCheck k d).mix = d.mix ∧ (supplyCheck k d).outs = d.outs ∧ (supplyCheck k d).tdm = d.tdm ∧ (supplyCheck k d).ser = d.ser ∧ (supplyCheck k d).cas = d.cas := by
  simp -implicitDefEqProofs [supplyCheck]

@[simp] theorem sensorMeasurementDev_keeps (temps supplies : List Word) (d : Dev) :
    (sensorMeasurementDev temps supplies d).fresh = d.fresh ∧ (sensorMeasurementDev temps supplies d).mem = d.mem ∧ (sensorMeasurementDev temps supplies d).frame = d.frame ∧ (sensorMeasurementDev temps supplies d).port = d.port ∧ (sensorMeasurementDev temps supplies d).win = d.win ∧ (sensorMeasurementDev temps supplies d).cnt = d.cnt ∧ (sensorMeasurementDev temps supplies d).boot = d.boot ∧ (sensorMeasurementDev temps supplies d).alm = d.alm ∧ (sensorMeasurementDev temps supplies d).par = d.par ∧ (sensorMeasurementDev temps supplies d).aud = d.aud ∧ (sensorMeasurementDev temps supplies d).cal = d.cal ∧ (sensorMeasurementDev temps supplies d).mix = d.mix ∧ (sensorMeasurementDev temps supplies d).outs = d.outs ∧ (sensorMeasurementDev temps supplies d).tdm = d.tdm ∧ (sensorMeasurementDev temps supplies d).ser = d.ser ∧ (sensorMeasurementDev temps supplies d).cas = d.cas := by
  simp -implicitDefEqProofs [sensorMeasurementDev]

@[simp] theorem logEntryWriteDev_keeps (d : Dev) :
    (logEntryWriteDev d).fresh = d.fresh ∧ (logEntryWriteDev d).frame = d.frame ∧ (logEntryWriteDev d).port = d.port ∧ (logEntryWriteDev d).win = d.win ∧ (logEntryWriteDev d).cnt = d.cnt ∧ (logEntryWriteDev d).pwr = d.pwr ∧ (logEntryWriteDev d).boot = d.boot ∧ (logEntryWriteDev d).alm = d.alm ∧ (logEntryWriteDev d).par = d.par ∧ (logEntryWriteDev d).aud = d.aud ∧ (logEntryWriteDev d).cal = d.cal ∧ (logEntryWriteDev d).mix = d.mix ∧ (logEntryWriteDev d).outs = d.outs ∧ (logEntryWriteDev d).tdm = d.tdm ∧ (logEntryWriteDev d).ser = d.ser := by
  unfold logEntryWriteDev; refine ⟨?_, ?_, ?_, ?_, ?_, ?_, ?_, ?_, ?_, ?_, ?_, ?_, ?_, ?_, ?_⟩ <;> (repeat' split) <;> simp -implicitDefEqProofs

@[simp] theorem updMoved_keeps (m : Mover) (d : Dev) :
    (updMoved m d).fresh = d.fresh ∧ (updMoved m d).frame = d.frame ∧ (updMoved m d).port = d.port ∧ (updMoved m d).win = d.win ∧ (updMoved m d).pwr = d.pwr ∧ (updMoved m d).mgt = d.mgt ∧ (updMoved m d).boot = d.boot ∧ (updMoved m d).alm = d.alm ∧ (updMoved m d).par = d.par ∧ (updMoved m d).aud = d.aud ∧ (updMoved m d).cal = d.cal ∧ (updMoved m d).mix = d.mix ∧ (updMoved m d).outs = d.outs ∧ (updMoved m d).tdm = d.tdm ∧ (updMoved m d).ser = d.ser ∧ (updMoved m d).cas = d.cas := by
  simp -implicitDefEqProofs [updMoved]

@[simp] theorem fwdSend_keeps (port : Option (Nat × Nat)) (p : List Byte) (d : Dev) :
    (fwdSend port p d).regs = d.regs ∧ (fwdSend port p d).fresh = d.fresh ∧ (fwdSend port p d).mem = d.mem ∧ (fwdSend port p d).frame = d.frame ∧ (fwdSend port p d).port = d.port ∧ (fwdSend port p d).win = d.win ∧ (fwdSend port p d).cnt = d.cnt ∧ (fwdSend port p d).pwr = d.pwr ∧ (fwdSend port p d).mgt = d.mgt ∧ (fwdSend port p d).boot = d.boot ∧ (fwdSend port p d).alm = d.alm ∧ (fwdSend port p d).par = d.par ∧ (fwdSend port p d).aud = d.aud ∧ (fwdSend port p d).cal = d.cal ∧ (fwdSend port p d).mix = d.mix ∧ (fwdSend port p d).outs = d.outs ∧ (fwdSend port p d).tdm = d.tdm ∧ (fwdSend port p d).ser = d.ser := by
  simp -implicitDefEqProofs [fwdSend]

@[simp] theorem sysexAnswer_keeps (n : Nat) (bs : List Byte) (d : Dev) :
    (sysexAnswer n bs d).regs = d.regs ∧ (sysexAnswer n bs d).fresh = d.fresh ∧ (sysexAnswer n bs d).mem = d.mem ∧ (sysexAnswer n bs d).frame = d.frame ∧ (sysexAnswer n bs d).port = d.port ∧ (sysexAnswer n bs d).win = d.win ∧ (sysexAnswer n bs d).cnt = d.cnt ∧ (sysexAnswer n bs d).pwr = d.pwr ∧ (sysexAnswer n bs d).mgt = d.mgt ∧ (sysexAnswer n bs d).boot = d.boot ∧ (sysexAnswer n bs d).alm = d.alm ∧ (sysexAnswer n bs d).par = d.par ∧ (sysexAnswer n bs d).aud = d.aud ∧ (sysexAnswer n bs d).cal = d.cal ∧ (sysexAnswer n bs d).mix = d.mix ∧ (sysexAnswer n bs d).outs = d.outs ∧ (sysexAnswer n bs d).tdm = d.tdm ∧ (sysexAnswer n bs d).cas = d.cas := by
  simp -implicitDefEqProofs [sysexAnswer]

@[simp] theorem mailboxEnd_keeps (r : List Byte) (d : Dev) :
    (mailboxEnd r d).fresh = d.fresh ∧ (mailboxEnd r d).mem = d.mem ∧ (mailboxEnd r d).frame = d.frame ∧ (mailboxEnd r d).port = d.port ∧ (mailboxEnd r d).win = d.win ∧ (mailboxEnd r d).cnt = d.cnt ∧ (mailboxEnd r d).pwr = d.pwr ∧ (mailboxEnd r d).boot = d.boot ∧ (mailboxEnd r d).alm = d.alm ∧ (mailboxEnd r d).par = d.par ∧ (mailboxEnd r d).aud = d.aud ∧ (mailboxEnd r d).cal = d.cal ∧ (mailboxEnd r d).mix = d.mix ∧ (mailboxEnd r d).outs = d.outs ∧ (mailboxEnd r d).tdm = d.tdm ∧ (mailboxEnd r d).ser = d.ser ∧ (mailboxEnd r d).cas = d.cas := by
  simp -implicitDefEqProofs [mailboxEnd]

@[simp] theorem fwdClear_keeps (d : Dev) :
    (fwdClear d).regs = d.regs ∧ (fwdClear d).fresh = d.fresh ∧ (fwdClear d).mem = d.mem ∧ (fwdClear d).frame = d.frame ∧ (fwdClear d).port = d.port ∧ (fwdClear d).win = d.win ∧ (fwdClear d).cnt = d.cnt ∧ (fwdClear d).pwr = d.pwr ∧ (fwdClear d).mgt = d.mgt ∧ (fwdClear d).boot = d.boot ∧ (fwdClear d).alm = d.alm ∧ (fwdClear d).par = d.par ∧ (fwdClear d).aud = d.aud ∧ (fwdClear d).cal = d.cal ∧ (fwdClear d).mix = d.mix ∧ (fwdClear d).outs = d.outs ∧ (fwdClear d).tdm = d.tdm ∧ (fwdClear d).ser = d.ser := by
  simp -implicitDefEqProofs [fwdClear]

@[simp] theorem sysexFwdLate_keeps (d : Dev) :
    (sysexFwdLate d).regs = d.regs ∧ (sysexFwdLate d).fresh = d.fresh ∧ (sysexFwdLate d).mem = d.mem ∧ (sysexFwdLate d).frame = d.frame ∧ (sysexFwdLate d).port = d.port ∧ (sysexFwdLate d).win = d.win ∧ (sysexFwdLate d).cnt = d.cnt ∧ (sysexFwdLate d).pwr = d.pwr ∧ (sysexFwdLate d).mgt = d.mgt ∧ (sysexFwdLate d).boot = d.boot ∧ (sysexFwdLate d).alm = d.alm ∧ (sysexFwdLate d).par = d.par ∧ (sysexFwdLate d).aud = d.aud ∧ (sysexFwdLate d).cal = d.cal ∧ (sysexFwdLate d).mix = d.mix ∧ (sysexFwdLate d).outs = d.outs ∧ (sysexFwdLate d).tdm = d.tdm := by
  unfold sysexFwdLate; refine ⟨?_, ?_, ?_, ?_, ?_, ?_, ?_, ?_, ?_, ?_, ?_, ?_, ?_, ?_, ?_, ?_, ?_⟩ <;> (repeat' split) <;> simp -implicitDefEqProofs

@[simp] theorem mailboxResponseDev_keeps (d : Dev) :
    (mailboxResponseDev d).fresh = d.fresh ∧ (mailboxResponseDev d).mem = d.mem ∧ (mailboxResponseDev d).frame = d.frame ∧ (mailboxResponseDev d).port = d.port ∧ (mailboxResponseDev d).win = d.win ∧ (mailboxResponseDev d).cnt = d.cnt ∧ (mailboxResponseDev d).pwr = d.pwr ∧ (mailboxResponseDev d).boot = d.boot ∧ (mailboxResponseDev d).alm = d.alm ∧ (mailboxResponseDev d).par = d.par ∧ (mailboxResponseDev d).aud = d.aud ∧ (mailboxResponseDev d).cal = d.cal ∧ (mailboxResponseDev d).mix = d.mix ∧ (mailboxResponseDev d).outs = d.outs ∧ (mailboxResponseDev d).tdm = d.tdm := by
  unfold mailboxResponseDev; refine ⟨?_, ?_, ?_, ?_, ?_, ?_, ?_, ?_, ?_, ?_, ?_, ?_, ?_, ?_, ?_⟩ <;> (repeat' split) <;> simp -implicitDefEqProofs

@[simp] theorem fwdDone_keeps (d : Dev) :
    (fwdDone d).regs = d.regs ∧ (fwdDone d).fresh = d.fresh ∧ (fwdDone d).mem = d.mem ∧ (fwdDone d).frame = d.frame ∧ (fwdDone d).win = d.win ∧ (fwdDone d).cnt = d.cnt ∧ (fwdDone d).pwr = d.pwr ∧ (fwdDone d).boot = d.boot ∧ (fwdDone d).alm = d.alm ∧ (fwdDone d).par = d.par ∧ (fwdDone d).aud = d.aud ∧ (fwdDone d).cal = d.cal ∧ (fwdDone d).mix = d.mix ∧ (fwdDone d).outs = d.outs ∧ (fwdDone d).tdm = d.tdm := by
  refine ⟨?_, ?_, ?_, ?_, ?_, ?_, ?_, ?_, ?_, ?_, ?_, ?_, ?_, ?_, ?_⟩ <;> (unfold fwdDone; dsimp only; repeat' split) <;> simp -implicitDefEqProofs

end Sys2Proof.Machine
end

