-- ==== Sys2Proof/Laws/Word.lean ====
section
/-! SUPPORT. The laws of a bit range of a word: what is put into [hi:lo] is read there, and every other bit stays. -/

namespace Sys2Proof

/-- A word split at a range. -/
theorem Word.split_at (x lo k : Nat) :
    x = x / 2 ^ (lo + k) * 2 ^ (lo + k) + x / 2 ^ lo % 2 ^ k * 2 ^ lo + x % 2 ^ lo := by
  have h1 := Nat.div_add_mod x (2 ^ lo)
  have h2 := Nat.div_add_mod (x / 2 ^ lo) (2 ^ k)
  rw [Nat.div_div_eq_div_mul, ← pow_add] at h2
  calc x = 2 ^ lo * (x / 2 ^ lo) + x % 2 ^ lo := h1.symm
    _ = 2 ^ lo * (2 ^ k * (x / 2 ^ (lo + k)) + x / 2 ^ lo % 2 ^ k) + x % 2 ^ lo := by rw [h2]
    _ = _ := by rw [pow_add]; ring

/-- The number a word becomes when a range of it is replaced. -/
theorem Word.toNat_setBits (w : Word) (hi lo v : Nat) (h : lo ≤ hi) (h32 : hi < 32) :
    (w.setBits hi lo v).toNat =
      w.toNat / 2 ^ (hi + 1) * 2 ^ (hi + 1) + v % 2 ^ (hi + 1 - lo) * 2 ^ lo + w.toNat % 2 ^ lo := by
  have hk : lo + (hi + 1 - lo) = hi + 1 := by omega
  have hs := Word.split_at w.toNat lo (hi + 1 - lo)
  rw [hk] at hs
  have hv : v % 2 ^ (hi + 1 - lo) * 2 ^ lo + w.toNat % 2 ^ lo < 2 ^ (hi + 1) := by
    have a : v % 2 ^ (hi + 1 - lo) + 1 ≤ 2 ^ (hi + 1 - lo) := Nat.mod_lt _ (by positivity)
    have b : w.toNat % 2 ^ lo < 2 ^ lo := Nat.mod_lt _ (by positivity)
    have c := Nat.mul_le_mul_right (2 ^ lo) a
    rw [← pow_add, show hi + 1 - lo + lo = hi + 1 by omega] at c
    nlinarith
  have hq : w.toNat / 2 ^ (hi + 1) * 2 ^ (hi + 1) + 2 ^ (hi + 1) ≤ 2 ^ 32 := by
    have hw : w.toNat < 2 ^ 32 := w.isLt
    have : w.toNat / 2 ^ (hi + 1) < 2 ^ (31 - hi) := by
      rw [Nat.div_lt_iff_lt_mul (by positivity), ← pow_add, show 31 - hi + (hi + 1) = 32 by omega]; exact hw
    have c := Nat.mul_le_mul_right (2 ^ (hi + 1)) this
    rw [← pow_add, show 31 - hi + (hi + 1) = 32 by omega] at c
    nlinarith
  have e : w.toNat - w.bits hi lo * 2 ^ lo + v % 2 ^ (hi + 1 - lo) * 2 ^ lo =
      w.toNat / 2 ^ (hi + 1) * 2 ^ (hi + 1) + v % 2 ^ (hi + 1 - lo) * 2 ^ lo + w.toNat % 2 ^ lo := by
    have : w.bits hi lo = w.toNat / 2 ^ lo % 2 ^ (hi + 1 - lo) := rfl
    rw [this]; omega
  rw [Word.setBits, BitVec.toNat_ofNat, e, Nat.mod_eq_of_lt]
  omega

/-- Bit n of a word with a range replaced. -/
theorem Word.getLsbD_setBits (w : Word) (hi lo v n : Nat) (h : lo ≤ hi) (h32 : hi < 32) :
    (w.setBits hi lo v).getLsbD n = if lo ≤ n ∧ n ≤ hi then v.testBit (n - lo) else w.getLsbD n := by
  rw [BitVec.getLsbD, Word.toNat_setBits w hi lo v h h32, BitVec.getLsbD]
  have hr : w.toNat % 2 ^ lo < 2 ^ lo := Nat.mod_lt _ (by positivity)
  have hm : v % 2 ^ (hi + 1 - lo) < 2 ^ (hi + 1 - lo) := Nat.mod_lt _ (by positivity)
  have hlow : v % 2 ^ (hi + 1 - lo) * 2 ^ lo + w.toNat % 2 ^ lo < 2 ^ (hi + 1) := by
    have c := Nat.mul_le_mul_right (2 ^ lo) (Nat.succ_le_of_lt hm)
    rw [← pow_add, show hi + 1 - lo + lo = hi + 1 by omega] at c
    have : (v % 2 ^ (hi + 1 - lo)).succ = v % 2 ^ (hi + 1 - lo) + 1 := rfl
    rw [this] at c
    nlinarith
  have e : w.toNat / 2 ^ (hi + 1) * 2 ^ (hi + 1) + v % 2 ^ (hi + 1 - lo) * 2 ^ lo + w.toNat % 2 ^ lo =
      2 ^ (hi + 1) * (w.toNat / 2 ^ (hi + 1)) + (2 ^ lo * (v % 2 ^ (hi + 1 - lo)) + w.toNat % 2 ^ lo) := by ring
  rw [e, Nat.testBit_two_pow_mul_add _ (by rw [mul_comm (2 ^ lo)]; exact hlow)]
  by_cases h1 : n < hi + 1
  · rw [if_pos h1, Nat.testBit_two_pow_mul_add _ hr]
    by_cases h2 : n < lo
    · rw [if_pos h2, if_neg (by omega), Nat.testBit_mod_two_pow]
      simp [h2]
    · rw [if_neg h2, if_pos (by omega), Nat.testBit_mod_two_pow]
      simp; omega
  · rw [if_neg h1, if_neg (by omega), Nat.testBit_div_two_pow]
    congr 1; omega

/-- A bit of a field is a bit of its word. -/
theorem Word.testBit_bits (w : Word) (hi lo n : Nat) :
    (w.bits hi lo).testBit n = (decide (n < hi + 1 - lo) && w.getLsbD (lo + n)) := by
  rw [Word.bits, Nat.testBit_mod_two_pow, Nat.testBit_div_two_pow, BitVec.getLsbD, Nat.add_comm n lo]

/-- What is put into a range is read there. -/
@[simp] theorem Word.bits_setBits_same (w : Word) (hi lo v : Nat) (h : lo ≤ hi) (h32 : hi < 32) :
    (w.setBits hi lo v).bits hi lo = v % 2 ^ (hi + 1 - lo) := by
  apply Nat.eq_of_testBit_eq
  intro n
  rw [Word.testBit_bits, Word.getLsbD_setBits w hi lo v _ h h32, Nat.testBit_mod_two_pow]
  by_cases hn : n < hi + 1 - lo
  · rw [if_pos (by omega)]; simp [hn]
  · simp [hn]

/-- A range that does not meet the one replaced reads as before. -/
theorem Word.bits_setBits_disjoint (w : Word) (hi lo v hi' lo' : Nat) (h : lo ≤ hi) (h32 : hi < 32)
    (hd : hi' < lo ∨ hi < lo') : (w.setBits hi lo v).bits hi' lo' = w.bits hi' lo' := by
  apply Nat.eq_of_testBit_eq
  intro n
  rw [Word.testBit_bits, Word.testBit_bits, Word.getLsbD_setBits w hi lo v _ h h32]
  by_cases hn : n < hi' + 1 - lo'
  · rw [if_neg (by omega)]
  · simp [hn]

/-- A field lies below its top. -/
theorem Word.bits_lt (w : Word) (hi lo : Nat) : w.bits hi lo < 2 ^ (hi + 1 - lo) := Nat.mod_lt _ (by positivity)

end Sys2Proof
end

