-- ==== Sys2Proof/Laws/Ops.lean ====
section
/-! SUPPORT. What the shared operations do: registers and their fields after a write, domains and the frame timer
untouched by register writes, and the log, bus and store operations. -/

namespace Sys2Proof.Machine

open Sys2Proof

/-! ### Registers -/

/-- A register reads as it was set; every other register as before. -/
theorem Dev.reg_putReg (d : Dev) (a b : Nat) (w : Word) : (d.putReg a w).reg b = if b = a then w else d.reg b :=
  cellGet_cellSet _ _ _ _ _

@[simp] theorem Dev.reg_putReg_same (d : Dev) (a : Nat) (w : Word) : (d.putReg a w).reg a = w := cellGet_cellSet_same _ _ _ _

@[simp] theorem Dev.reg_putReg_ne (d : Dev) (a b : Nat) (w : Word) (h : b ≠ a) : (d.putReg a w).reg b = d.reg b :=
  cellGet_cellSet_ne _ _ _ _ _ h

@[simp] theorem Dev.reg_putFld_ne (d : Dev) (a b hi lo v : Nat) (h : b ≠ a) : (d.putFld a hi lo v).reg b = d.reg b :=
  cellGet_cellSet_ne _ _ _ _ _ h

@[simp] theorem Dev.reg_putFlag_ne (d : Dev) (a b n : Nat) (v : Bool) (h : b ≠ a) : (d.putFlag a n v).reg b = d.reg b :=
  cellGet_cellSet_ne _ _ _ _ _ h

@[simp] theorem Dev.reg_bumpFld_ne (d : Dev) (a b hi lo v : Nat) (h : b ≠ a) : (d.bumpFld a hi lo v).reg b = d.reg b :=
  cellGet_cellSet_ne _ _ _ _ _ h

@[simp] theorem Dev.reg_bumpBy_ne (d : Dev) (a b v : Nat) (h : b ≠ a) : (d.bumpBy a v).reg b = d.reg b :=
  cellGet_cellSet_ne _ _ _ _ _ h

@[simp] theorem Dev.reg_bump_ne (d : Dev) (a b : Nat) (h : b ≠ a) : (d.bump a).reg b = d.reg b := cellGet_cellSet_ne _ _ _ _ _ h

@[simp] theorem Dev.reg_setIrq_ne (d : Dev) (dom a n b : Nat) (h : b ≠ a) : (d.setIrq dom a n).reg b = d.reg b := by
  unfold Dev.setIrq; split
  · exact Dev.reg_putFlag_ne _ _ _ _ _ h
  · rfl

/-- A register whose field is set holds the word with that field replaced. -/
theorem Dev.reg_putFld (d : Dev) (a hi lo v : Nat) : (d.putFld a hi lo v).reg a = (d.reg a).setBits hi lo v :=
  cellGet_cellSet_same _ _ _ _

/-- A field reads as it was set. -/
@[simp] theorem Dev.fld_putFld_same (d : Dev) (a hi lo v : Nat) (h : lo ≤ hi) (h32 : hi < 32) :
    (d.putFld a hi lo v).fld a hi lo = v % 2 ^ (hi + 1 - lo) := by
  rw [Dev.fld, Dev.reg_putFld]; exact Word.bits_setBits_same _ _ _ _ h h32

/-- A field of another register, or one that does not meet the field set, reads as before. -/
theorem Dev.fld_putFld_other (d : Dev) (a hi lo v b hi' lo' : Nat) (h : lo ≤ hi) (h32 : hi < 32)
    (hd : b ≠ a ∨ hi' < lo ∨ hi < lo') : (d.putFld a hi lo v).fld b hi' lo' = d.fld b hi' lo' := by
  by_cases e : b = a
  · subst e
    rw [Dev.fld, Dev.fld, Dev.reg_putFld]
    exact Word.bits_setBits_disjoint _ _ _ _ _ _ h h32 (by tauto)
  · rw [Dev.fld, Dev.fld, Dev.reg_putFld_ne _ _ _ _ _ _ e]

/-- A bit reads as it was set. -/
@[simp] theorem Dev.flag_putFlag_same (d : Dev) (a n : Nat) (b : Bool) (h32 : n < 32) : (d.putFlag a n b).flag a n = b := by
  rw [Dev.flag, Dev.putFlag, Dev.reg_putFld, Word.getLsbD_setBits _ _ _ _ _ (le_refl n) h32]
  cases b <;> simp

/-- Every other bit reads as before. -/
theorem Dev.flag_putFlag_other (d : Dev) (a n : Nat) (b : Bool) (a' n' : Nat) (h32 : n < 32) (h : a' ≠ a ∨ n' ≠ n) :
    (d.putFlag a n b).flag a' n' = d.flag a' n' := by
  by_cases e : a' = a
  · subst e
    rw [Dev.flag, Dev.flag, Dev.putFlag, Dev.reg_putFld, Word.getLsbD_setBits _ _ _ _ _ (le_refl n) h32, if_neg (by omega)]
  · rw [Dev.flag, Dev.flag, Dev.reg_putFlag_ne _ _ _ _ _ e]

/-- A status bit is set while its domain is ON. -/
theorem Dev.flag_setIrq (d : Dev) (dom a n : Nat) (h32 : n < 32) (h : d.isOn dom = true) : (d.setIrq dom a n).flag a n = true := by
  unfold Dev.setIrq; rw [if_pos h]; exact Dev.flag_putFlag_same _ _ _ _ h32

/-- A saturating count reads as the count before and the rise, held at its top. -/
theorem Dev.fld_bumpFld (d : Dev) (a hi lo n : Nat) (h : lo ≤ hi) (h32 : hi < 32) :
    (d.bumpFld a hi lo n).fld a hi lo = min (d.fld a hi lo + n) (2 ^ (hi + 1 - lo) - 1) := by
  rw [Dev.bumpFld, Dev.fld_putFld_same _ _ _ _ _ h h32, Nat.mod_eq_of_lt]
  have : 0 < 2 ^ (hi + 1 - lo) := by positivity
  omega

/-! ### Domains and the timer read no register but their own -/

theorem Dev.isOn_of_pwr (d e : Dev) (h : e.pwr = d.pwr) (n : Nat) : e.isOn n = d.isOn n := by
  simp [Dev.isOn, Dev.dom, h]

theorem Dev.timerRuns_of (d e : Dev) (h : e.pwr = d.pwr) (hf : e.frame = d.frame) : e.timerRuns = d.timerRuns := by
  simp [Dev.timerRuns, Dev.isOn, Dev.dom, h, hf]

/-! ### The event bus, the log and the stores -/

/-- An occurrence waits on the event bus behind the others, with the edge it belongs to, while CTRL is ON. -/
theorem Dev.emit_bus (d : Dev) (code inc : Nat) (h : inc ≠ 0) (hc : d.isOn Dom.ctrl = true) :
    (d.emit code inc).cnt.bus = d.cnt.bus ++ [(d.cnt.edge, code, inc)] := by
  simp [Dev.emit, Dev.busWith, h, hc]

/-- An event enters the log queue while it has room. -/
theorem Dev.logEv_queue (d : Dev) (source code sev : Nat) (data : List Nat) (h : d.mgt.queue.length < 32) :
    ∃ e, (d.logEv source code sev data).mgt.queue = d.mgt.queue ++ [e] ∧ e.source = source ∧ e.code = code ∧ e.sev = sev ∧
      e.data = data.map (BitVec.ofNat 8) ∧ e.ef = d.now := by
  simp [Dev.logEv, h]

/-- A byte of the parameter store after bytes were put into it; a reserved address ignores its byte. -/
theorem cellGet_psPut (bs : List Byte) (m : List Host.Cell) (a b : Nat) :
    cellGet psDflt (psPut m a bs) b =
      if a ≤ b ∧ b < a + bs.length ∧ psReserved b = false then bs.getD (b - a) 0 else cellGet psDflt m b := by
  induction bs generalizing m a with
  | nil => simp only [psPut, List.length_nil]; rw [if_neg (by omega)]
  | cons x r ih =>
    rw [psPut, ih]
    by_cases h1 : a + 1 ≤ b ∧ b < a + 1 + r.length ∧ psReserved b = false
    · have : b - a = (b - (a + 1)) + 1 := by omega
      rw [if_pos h1, if_pos ⟨by omega, by simp; omega, h1.2.2⟩, this]; simp
    · rw [if_neg h1]
      by_cases hr : psReserved a = true
      · rw [if_pos hr, if_neg]
        rintro ⟨h2, h3, h4⟩
        simp only [List.length_cons] at h3
        by_cases e : b = a
        · subst e; simp [hr] at h4
        · exact h1 ⟨by omega, by omega, h4⟩
      · rw [if_neg hr, cellGet_cellSet]
        by_cases e : b = a
        · subst e; simp [hr]
        · rw [if_neg e, if_neg]
          rintro ⟨h2, h3, h4⟩
          simp only [List.length_cons] at h3
          exact h1 ⟨by omega, by omega, h4⟩

/-- Bytes put into the parameter store keep its canonical form. -/
theorem cellsWf_psPut (bs : List Byte) (m : List Host.Cell) (a : Nat) (h : cellsWf psDflt m = true) :
    cellsWf psDflt (psPut m a bs) = true := by
  induction bs generalizing m a with
  | nil => exact h
  | cons x r ih =>
    rw [psPut]; apply ih
    split
    · exact h
    · exact cellsWf_cellSet _ _ _ _ h

theorem Dev.wf_putReg (d : Dev) (a : Nat) (w : Word) (h : cellsWf regReset d.regs = true) :
    cellsWf regReset (d.putReg a w).regs = true := cellsWf_cellSet _ _ _ _ h

theorem Dev.wf_psRaw (d : Dev) (a : Nat) (bs : List Byte) (h : cellsWf psDflt d.mem.pstore = true) :
    cellsWf psDflt (d.psRaw a bs).mem.pstore = true := cellsWf_psPut _ _ _ h

/-- A write on port V keeps the store's canonical form, whatever port H has landed at the release. -/
theorem Dev.wf_psV (d : Dev) (a : Nat) (bs : List Byte) (h : cellsWf psDflt d.mem.pstore = true) :
    cellsWf psDflt (d.psV a bs).mem.pstore = true := by
  have e : (d.psV a bs).mem = (d.psRaw a (if d.port.hwords.isEmpty then bs else d.underH a bs)).mem := Dev.mem_collideV _ _
  rw [e]; exact Dev.wf_psRaw _ _ _ h

theorem Dev.wf_waveRaw (d : Dev) (a : Nat) (bs : List Byte) (h : cellsWf (waveDflt d) d.mem.wave = true) :
    cellsWf (waveDflt (d.waveRaw a bs)) (d.waveRaw a bs).mem.wave = true := cellsWf_cellPutBytes _ _ _ _ h

theorem Dev.wf_owRaw (d : Dev) (g a : Nat) (bs : List Byte) (h : cellsWf zeroByte d.mem.outwave = true) :
    cellsWf zeroByte (d.owRaw g a bs).mem.outwave = true := cellsWf_cellPutBytes _ _ _ _ h

theorem Dev.wf_mramRaw (d : Dev) (a : Nat) (bs : List Byte) (h : cellsWf zeroByte d.mem.mram = true) :
    cellsWf zeroByte (d.mramRaw a bs).mem.mram = true := cellsWf_cellPutBytes _ _ _ _ h

/-- Leaving out a stretch of a store keeps its canonical form. -/
theorem cellsWf_cellsDrop {α : Type} [DecidableEq α] (dflt : Nat → α) (l : List (Nat × α)) (a n : Nat)
    (h : cellsWf dflt l = true) : cellsWf dflt (cellsDrop l a n) = true := cellsWf_filter _ _ _ h

/-! ### Commands on the device alone -/

@[simp] theorem State.onDev_pending (s : State) (f : Dev → Dev) : (s.onDev f).pending = s.pending := rfl
@[simp] theorem State.onDev_prot (s : State) (f : Dev → Dev) : (s.onDev f).prot = s.prot := rfl
@[simp] theorem State.onDev_dev (s : State) (f : Dev → Dev) : (s.onDev f).dev = f s.dev := rfl

/-- Everything such a command can do: the queue and the protected state stay, and the device is f of itself. -/
theorem devNext_eq (s t : State) (f : Dev → Dev) (h : devNext s f = .next t) :
    t.pending = s.pending ∧ t.prot = s.prot ∧ t.dev = f s.dev := by
  cases h; exact ⟨rfl, rfl, rfl⟩

end Sys2Proof.Machine
end

