-- ==== Sys2Proof/Tests/Slice0.lean ====
section
/-! SUPPORT. Tests: the ill-formed commands that `Instr.wf` refuses, numbers and exchanges that the spec's chapters work
out, and for every statement for the provers states and operands that meet its hypotheses, clause by clause. -/

namespace Sys2Proof.Tests

set_option Elab.async false

open Sys2Proof Sys2Proof.Machine

/-! ### A term that each check of `Instr.wf` refuses, and one that it accepts -/

/-- Each term breaks one check of its command. -/
theorem test_wf_refuses_0 : ([
    .registerWrite 0x200000 0, .registerWrite 2 0, .hostLowHalfRead 0x100000, .hostHighHalfRead 0x100000,
    .hostLowHalfWrite 0x100000 0 0, .hostHighHalfWrite 0x100000 0 0, .aonResponderRead 0x100000,
    .paramStoreHostWrite 0x200000 0 0, .paramStoreHostWrite 2 0 0, .clusterFrameDelivered 16 0,
    .clusterFrameDelivered 0 64, .deadlineMiss 16, .clusterFlush 16, .slackMinClear 16 0, .reginitWrite 0x200000 0,
    .reginitWrite 2 0, .reginitSet 0x200000 0, .reginitSet 2 0, .reginitClear 0x200000 0, .reginitClear 2 0,
    .reginitPoll 65536 0 0, .reginitPoll 0 0x200000 0, .reginitPoll 0 2 0, .reginitDelay 65536] : List Instr).map Instr.wf = List.replicate 24 false := by decide +kernel

/-- Each term breaks one check of its command. -/
theorem test_wf_refuses_1 : ([
    .reginitFill 65536 0 0, .reginitFill 0 0x200000 0, .reginitFill 0 2 0, .mgmtPost (List.replicate 9 0),
    .ephemerisDue 8192, .taskDispatch 8192, .taskWorkDone 8192, .mgmtTaskDone 8192, .noteOn 8192, .noteOff 8192,
    .polyPressure 8192, .cc 8192, .bankSelect 8192, .sustain 8192, .sostenuto 8192, .allSoundOff 8192,
    .resetAllControllers 8192, .allNotesOff 8192, .program 8192, .pitchBend 8192, .chanPressure 8192, .paramSet 8192,
    .voiceKill 8192, .timerFire 8192] : List Instr).map Instr.wf = List.replicate 24 false := by decide +kernel

/-- Each term breaks one check of its command. -/
theorem test_wf_refuses_2 : ([
    .sysexDone 8192 true, .user 8192, .firstSample 256, .stealFadeEnd 256, .quenchSwitchOpen 256, .quenchEnd 256,
    .env0Complete 256, .sampleEndVoice 256, .cacheLineFill 16 0, .cacheLineFill 0 0x200000, .waveCacheInval 16 0,
    .pinnedLineInval 16 0, .pinnedLineInval 0 0x200000, .envSegmentEnd 256 0, .envSegmentEnd 0 4, .adcOverload 256,
    .biasFault 256, .swap 16 0, .swapAll 16 0, .fadeStart 16, .fadeEnd 16, .skimmerCoefWrite 16 true 0 0,
    .skimmerCoefWrite 0 true 32 0, .skimmerReset 16 0] : List Instr).map Instr.wf = List.replicate 24 false := by decide +kernel

/-- Each term breaks one check of its command. -/
theorem test_wf_refuses_3 : ([
    .synchronisingReset 16, .skimmerValid 16, .measurementResult 256, .temperatureUpdate 16, .backgroundRunStart 256,
    .backgroundRunComplete 256, .rampUpDone 32, .rampDownDone 32, .rangeParkEnd 32, .holdParkEnd 32,
    .outputFault 32 true .openLeg 0, .outputFault 0 true .openLeg 4096, .faultRampDone 32, .faultRetry 32,
    .playerGo 32 0, .playerStop 32 0, .playerTrigger 32, .playerEnd 32, .tdmPortEnable 6 0, .tdmPortDisable 6 0,
    .tdmPortStop 6, .tdmoFrame 4, .tdmiFrame 3 [], .tdmiFrame 6 []] : List Instr).map Instr.wf = List.replicate 24 false := by decide +kernel

/-- Each term breaks one check of its command. -/
theorem test_wf_refuses_4 : ([
    .tdmiFrame 4 (List.replicate 17 0), .tdmLock 6 0, .tdmLock 0 512, .tdmSlip 6, .tdmLoss 6, .modeChange 4 0,
    .divWrite 4 0, .rxFlush 4 0, .txFlush 4 0, .txBreak 4 0, .txBreakClear 4 0, .startBit 4 true true 0,
    .characterReceived 4 0 true true, .receiverRearm 4, .breakDetected 4, .lineDead 4, .lineRecover 4,
    .serTxWrite 4 0, .characterSent 4, .serRxRead 4, .parserByte 4, .sysexGapTimeout 4, .moverGo 4 0, .moverBurst 4] : List Instr).map Instr.wf = List.replicate 24 false := by decide +kernel

/-- Each term breaks one check of its command. -/
theorem test_wf_refuses_5 : ([
    .moverDone 4, .moverAbort 4 0, .chrTick 16 0, .chrTick 0 256, .chrCapture 16 0, .chrCapture 0 2, .captureSw 16 0,
    .chrCapRead 16 0, .chrCapRead 0 2, .chrClear 16 0, .reloadWrite 16 0, .chrInEdge 4 true, .chrOutChange 4,
    .pulseEnd 4, .evcClr 32 0, .agentAnswer 30, .agentDelayTimeout 30, .powerNoAnswer 30, .domainEntry 30,
    .domainWake 30, .wakeStepTimeout 30 0, .wakeStepTimeout 0 4, .wakeRetry 30, .wakeSource 6] : List Instr).map Instr.wf = List.replicate 24 false := by decide +kernel

/-- Each term breaks one check of its command. -/
theorem test_wf_refuses_6 : ([
    .wakeDetectorRearm 4, .sensorMeasurement (List.replicate 18 0) (List.replicate 6 0),
    .sensorMeasurement (List.replicate 17 0) (List.replicate 7 0), .outboundSuperframe (List.replicate 417 0) true 0,
    .outboundSuperframe (List.replicate 416 0) true 256, .inboundSuperframe (List.replicate 417 0) true,
    .directiveArm 20, .directiveState 20, .directiveRetrig 20, .directiveWrite 20, .directiveGlfo 20,
    .wakePatternPulse 4 0 0] : List Instr).map Instr.wf = List.replicate 12 false := by decide +kernel

/-- Terms at the lower end of their ranges. -/
theorem test_wf_accepts_0 : ([
    .registerWrite 0 0, .hostLowHalfRead 0, .hostHighHalfRead 0, .hostLowHalfWrite 0 0 0, .hostHighHalfWrite 0 0 0,
    .aonResponderRead 0, .paramStoreHostWrite 0 0 0, .clusterFrameDelivered 0 0, .deadlineMiss 0, .clusterFlush 0,
    .slackMinClear 0 0, .reginitWrite 0 0, .reginitSet 0 0, .reginitClear 0 0, .reginitPoll 0 0 0, .reginitDelay 0,
    .reginitFill 0 0 0, .mgmtPost (List.replicate 8 0), .ephemerisDue 0, .taskDispatch 0, .taskWorkDone 0,
    .mgmtTaskDone 0, .noteOn 0, .noteOff 0] : List Instr).map Instr.wf = List.replicate 24 true := by decide +kernel

/-- Terms at the lower end of their ranges. -/
theorem test_wf_accepts_1 : ([
    .polyPressure 0, .cc 0, .bankSelect 0, .sustain 0, .sostenuto 0, .allSoundOff 0, .resetAllControllers 0,
    .allNotesOff 0, .program 0, .pitchBend 0, .chanPressure 0, .paramSet 0, .voiceKill 0, .timerFire 0,
    .sysexDone 0 true, .user 0, .firstSample 0, .stealFadeEnd 0, .quenchSwitchOpen 0, .quenchEnd 0, .env0Complete 0,
    .sampleEndVoice 0, .cacheLineFill 0 0, .waveCacheInval 0 0] : List Instr).map Instr.wf = List.replicate 24 true := by decide +kernel

/-- Terms at the lower end of their ranges. -/
theorem test_wf_accepts_2 : ([
    .pinnedLineInval 0 0, .envSegmentEnd 0 0, .adcOverload 0, .biasFault 0, .swap 0 0, .swapAll 0 0, .fadeStart 0,
    .fadeEnd 0, .skimmerCoefWrite 0 true 0 0, .skimmerReset 0 0, .synchronisingReset 0, .skimmerValid 0,
    .measurementResult 0, .temperatureUpdate 0, .backgroundRunStart 0, .backgroundRunComplete 0, .rampUpDone 0,
    .rampDownDone 0, .rangeParkEnd 0, .holdParkEnd 0, .outputFault 0 true .openLeg 0, .faultRampDone 0, .faultRetry 0,
    .playerGo 0 0] : List Instr).map Instr.wf = List.replicate 24 true := by decide +kernel

/-- Terms at the lower end of their ranges. -/
theorem test_wf_accepts_3 : ([
    .playerStop 0 0, .playerTrigger 0, .playerEnd 0, .tdmPortEnable 0 0, .tdmPortDisable 0 0, .tdmPortStop 0,
    .tdmoFrame 0, .tdmiFrame 4 [], .tdmLock 0 0, .tdmSlip 0, .tdmLoss 0, .modeChange 0 0, .divWrite 0 0, .rxFlush 0 0,
    .txFlush 0 0, .txBreak 0 0, .txBreakClear 0 0, .startBit 0 true true 0, .characterReceived 0 0 true true,
    .receiverRearm 0, .breakDetected 0, .lineDead 0, .lineRecover 0, .serTxWrite 0 0] : List Instr).map Instr.wf = List.replicate 24 true := by decide +kernel

/-- Terms at the lower end of their ranges. -/
theorem test_wf_accepts_4 : ([
    .characterSent 0, .serRxRead 0, .parserByte 0, .sysexGapTimeout 0, .moverGo 0 0, .moverBurst 0, .moverDone 0,
    .moverAbort 0 0, .chrTick 0 0, .chrCapture 0 0, .captureSw 0 0, .chrCapRead 0 0, .chrClear 0 0, .reloadWrite 0 0,
    .chrInEdge 0 true, .chrOutChange 0, .pulseEnd 0, .evcClr 0 0, .agentAnswer 0, .agentDelayTimeout 0,
    .powerNoAnswer 0, .domainEntry 0, .domainWake 0, .wakeStepTimeout 0 0] : List Instr).map Instr.wf = List.replicate 24 true := by decide +kernel

/-- Terms at the lower end of their ranges. -/
theorem test_wf_accepts_5 : ([
    .wakeRetry 0, .wakeSource 0, .wakeDetectorRearm 0, .sensorMeasurement (List.replicate 17 0) (List.replicate 6 0),
    .outboundSuperframe (List.replicate 416 0) true 0, .inboundSuperframe (List.replicate 416 0) true,
    .directiveArm 0, .directiveState 0, .directiveRetrig 0, .directiveWrite 0, .directiveGlfo 0,
    .wakePatternPulse 0 0 0] : List Instr).map Instr.wf = List.replicate 12 true := by decide +kernel

/-! ### States for the tests -/

/-- Every domain ON, the firmware running, the stage RUN, the engine enabled, the timer running in EF 1000. -/
def up : State := { State.reset with dev := { Dev.reset with
  regs := [(Reg.GLB_FRAME_CTL, 1), (Reg.GLB_BOOT_STAT, 8)]
  pwr := { Power.reset with doms := List.replicate 30 { Domain.reset .on with everOn := true, cold := false } }
  frame := { Frame.reset with ef := 1000, released := true, refValid := true, refEver := true, audio := true }
  mgt := { Mgmt.reset with mode := 2 }, alm := { Alm.reset with accepting := true, ready := true }
  mem := { Mems.reset with dramReady := true } } }

/-- A state with its device changed. -/
abbrev st (f : Dev → Dev) (s : State := up) : State := { s with dev := f s.dev }

/-- Registers given values. -/
def rg (l : List (Nat × Word)) (d : Dev) : Dev := l.foldl (fun d e => d.putReg e.1 e.2) d

/-- A domain's record changed. -/
def dm (n : Nat) (f : Domain → Domain) (d : Dev) : Dev := { d with pwr := { d.pwr with doms := upd d.pwr.doms n f } }

/-- A domain OFF. -/
def off (n : Nat) (d : Dev) : Dev := dm n (fun x => { x with state := .off }) d

/-- The stage of start-up. -/
def stage (n : Nat) (d : Dev) : Dev := d.putReg Reg.GLB_BOOT_STAT (BitVec.ofNat 32 n)

/-- The frame timer changed. -/
def fr (f : Frame → Frame) (d : Dev) : Dev := { d with frame := f d.frame }

/-- The row of a register. -/
def row (a : Nat) : RegRow := (rowOf a).getD ⟨0, 0, 0, 0, 0, 0, 0, 0⟩

/-- The boot's record, the Almanac, the Parlour and one voice changed. -/
def bt (f : Boot → Boot) (d : Dev) : Dev := { d with boot := f d.boot }
def al (f : Alm → Alm) (d : Dev) : Dev := { d with alm := f d.alm }
def pa (f : Parlour → Parlour) (d : Dev) : Dev := { d with par := f d.par }
def vo (v : Nat) (f : Voice → Voice) (d : Dev) : Dev := { d with par := { d.par with voices := upd d.par.voices v f } }

/-- A task in the pool, READY for the present EF. -/
def tk (i ty : Nat) (payload : List Byte := List.replicate 12 0) : Task :=
  { idx := i, typ := ty, flags := 0, flow := 64, state := .ready, tag := 7, target := 0, origin := 4, relEf := 1000, due := 0
    seq := 0, payload := payload, gseq := 0, order := 0, returned := false, doneEf := 0, chosen := [], taken := [], reuse := [] }
def pool (l : List Task) (d : Dev) : Dev := al (fun a => { a with pool := l }) d
def bytes (l : List Nat) : List Byte := l.map (BitVec.ofNat 8)
/-- The twelve payload bytes that begin with these. -/
def pl (l : List Nat) : List Byte := bytes ((l ++ List.replicate 12 0).take 12)
/-- A task that commits now. -/
def cm (i ty : Nat) (l : List Nat) : Task := { tk i ty (pl l) with relEf := 997, state := .done, flags := 4 }
/-- Part p on port 0, channel 0, in a mode, with patch 0 valid. -/
def part (p flags mode : Nat) (d : Dev) : Dev :=
  pa (fun x => { x with l := 256 })
    ((d.psRaw (partRec p) (bytes [flags, 0, 0, 0, 0, 127, 1, 127, mode, 1, 0, 0, 0, 0, 0, 0])).psRaw (patchRec 0 + 0x1E0) [1])
/-- A sounding voice of part 5. -/
def taken : Voice := { Voice.reset with state := .sounding, part := 5 }
/-- Voice v in a state, of a part, on a key. -/
def voice (v : Nat) (st : VState) (p key : Nat) (d : Dev) : Dev :=
  vo v (fun x => { x with state := st, part := p, key := key, gen := 1, handle := mkHandle 0 v 1, start := 990 })
    (d.psRaw (vblk v + 0x44) [0xFF])
/-- A cluster, a tile, an output channel, a TDM port, a serial port changed. -/
def cl (c : Nat) (f : Clu → Clu) (d : Dev) : Dev := d.modClu c f
def ti (v : Nat) (f : Tile → Tile) (d : Dev) : Dev := { d with aud := { d.aud with tiles := upd d.aud.tiles v f } }
def och (i : Nat) (f : OutCh → OutCh) (d : Dev) : Dev := { d with outs := upd d.outs i f }
def tp (n : Nat) (f : TdmPort → TdmPort) (d : Dev) : Dev := { d with tdm := { d.tdm with ports := upd d.tdm.ports n f } }
def sp (n : Nat) (f : SerPort → SerPort) (d : Dev) : Dev := { d with ser := { d.ser with ports := upd d.ser.ports n f } }
def cu (f : Cal → Cal) (d : Dev) : Dev := { d with cal := f d.cal }
def wi (f : Window → Window) (d : Dev) : Dev := { d with win := f d.win }
/-- Port n in a mode, its receiver armed; received bytes in its FIFO. -/
def ser (n mode : Nat) (f : SerPort → SerPort) (d : Dev) : Dev :=
  sp n (fun p => f { p with armed := true }) (rg [(Reg.SER_CTL n, BitVec.ofNat 32 mode)] d)
def rxs (l : List Nat) : List RxEntry := l.map (fun b => ⟨BitVec.ofNat 8 b, false, false, false, 999⟩)
/-- A running mover channel; a chronograph changed. -/
def mover (c : Nat) (f : Mover → Mover) (d : Dev) : Dev :=
  d.modMover c (fun m => f { m with state := .busy, length := 64 })
def chro (c : Nat) (f : Chrono → Chrono) (d : Dev) : Dev := { d with cnt := { d.cnt with chr := upd d.cnt.chr c f } }
def ct (f : Counters → Counters) (d : Dev) : Dev := { d with cnt := f d.cnt }
def patr (f : Patrol → Patrol) (d : Dev) : Dev := { d with mem := { d.mem with patrol := f d.mem.patrol } }
/-- An event as a log entry holds it; a request in the mailbox. -/
def ev : LogEv := { ef := 2 ^ 40 - 1, noref := true, source := 255, code := 255, sev := 3, pos := 7, fwd := true, data := List.replicate 8 9 }
def mg (f : Mgmt → Mgmt) (d : Dev) : Dev := { d with mgt := f d.mgt }
def ask (l : List Nat) (d : Dev) : Dev := mg (fun m => { m with busy := true, request := bytes l }) d
/-- A request as the mailbox holds it. -/
def req (cmd tag : Nat) (p : List Nat) (d : Dev) : Dev := ask ([cmd, tag, p.length % 256, p.length / 256] ++ p) d
/-- A session of the mailbox's, and slot bases. -/
def ses (slot len got : Nat) (d : Dev) : Dev :=
  bt (fun b => { b with slotA := 0x10000, slotB := 0x80000, logBase := 0x4000 })
    (mg (fun m => { m with session := some ⟨0, 0, slot, len, got⟩ }) d)
/-- The cascade unit changed; a device of a chain of two, its link up. -/
def ca (f : Cas → Cas) (d : Dev) : Dev := { d with cas := f d.cas }
def chain (p : Nat) (d : Dev) : Dev :=
  rg [(Reg.GLB_STRAP, BitVec.ofNat 32 (32 * p))] (ca (fun c => { c with
    en := true, cfg := 0x201, up := { c.up with aligned := true, locked := true, good := 2 }
    down := { c.down with aligned := true, locked := true, good := 2 } }) d)
/-- A superframe of these first sixteen bytes, which leave the CRC register at 0, so that its CRC is FFFFFFFFh. -/
def sf (l : List Nat) : List Byte := bytes l ++ List.replicate 396 0 ++ List.replicate 4 0xFF
/-- A worker with directive x, place 0 of the superframe before last, due now. -/
def wk (x : List Nat) (d : Dev) : Dev :=
  ca (fun c => { c with outPrev := some (bytes ([0xBC, 2, 0, 0, 0, 0xE7, 3, 0, 0, 0, 0, 0] ++ x)), outIn := some (bytes [0xBC, 2, 0, 0, 0, 0xE8, 3]) }) (chain 1 d)
/-- An image of one firmware section of four bytes, and a flash that holds it in slot A at 64 KiB. The header and the
section bring the CRC register to the value that erased bytes leave as it is. -/
def fwHead : List Byte := bytes [80, 72, 70, 87, 5, 0, 0, 0, 1, 0, 0, 0, 4, 0, 0, 0, 0, 0, 0, 0, 0, 0, 0, 0, 141, 50, 108, 161]
def fwSect : Sect := ⟨0, 1, false, 0x110, 132, 0x492F023F⟩
def imgHead : List Byte := bytes [80, 72, 68, 89, 1, 0, 1, 0, 0, 3, 0, 0, 1, 0, 0, 0, 197, 1, 0, 0, 0, 0, 0, 0, 0, 0, 0, 0, 0, 0, 0, 0,
  24, 158, 228, 238, 0, 0, 0, 0, 0, 0, 0, 0, 186, 32, 27, 161]
def imgTable : List Byte := bytes [1, 0, 0, 0, 16, 1, 0, 0, 132, 0, 0, 0, 63, 2, 47, 73]
def cellsAt (a : Nat) (l : List Byte) : List Host.Cell := (List.range l.length).map (fun k => (a + k, l.getD k 0))
/-- A boot record that prefers slot B, or not. -/
def recBytes (b : Bool) : List Byte :=
  bytes ([80, 72, 68, 82, 1, 0, 0, 0, 0, 0, 1, 0, 0, 0, 8, 0, b.toNat, 0, 0, 0, 0, 64, 0, 0] ++ List.replicate 36 0)
def imgCells (b : Bool) : List Host.Cell :=
  cellsAt 0 (recBytes b ++ leBytes 4 (crc32 (recBytes b)).toNat) ++
  cellsAt 0x10000 imgHead ++ cellsAt 0x100FC (bytes [63, 2, 47, 73]) ++ cellsAt 0x10100 imgTable ++ cellsAt 0x10110 fwHead
def held (s : State) : State := { s with prot := { s.prot with flash := imgCells false } }
/-- A measurement of step 2 on the cell of voice slot 255, over 64 EF from EF 932 on. -/
def run1 : CalRun := ⟨255, 2, 7, 0, 0, 900, 32, 64, 0, 0, false, 0, 0, 0, 65536, List.replicate 64 1, List.replicate 64 1⟩
/-- A task of each of these kinds, due now. -/
def cmKind (n : Nat) : Task := (([(Typ.noteOn, []), (Typ.noteOff, []), (Typ.polyPressure, []), (Typ.program, []), (Typ.pitchBend, []),
  (Typ.chanPressure, []), (Typ.paramSet, []), (Typ.voiceKill, []), (Typ.timerFire, []), (Typ.cc, [0, 0, 32]), (Typ.cc, [0, 0, 64]),
  (Typ.cc, [0, 0, 66]), (Typ.cc, [0, 0, 120]), (Typ.cc, [0, 0, 121]), (Typ.cc, [0, 0, 123]), (Typ.cc, [0, 0, 7])]
  : List (Nat × List Nat)).map (fun x => cm 8191 x.1 x.2)).getD n (cm 0 0 [])
/-- A section of type OUTWAVE and one of type REGINIT, phase 01h, at offset 256 of slot 0, and flashes that hold them. -/
def owCells : List Host.Cell := cellsAt 0x100 (bytes [0, 0, 0, 0, 0, 0, 0, 0, 1, 2, 3, 4])
def owSect : Sect := ⟨2, 10, false, 0x100, 12, crc32 (flashBytes owCells 0x100 12)⟩
def wdCells : List Host.Cell := cellsAt 0x100 (List.replicate 16 0 ++ bytes [1, 2, 3, 4])
def wdSect : Sect := ⟨2, 9, false, 0x100, 20, crc32 (flashBytes wdCells 0x100 20)⟩
def riCells : List Host.Cell := cellsAt 0x100 (bytes [1, 0, 1, 0, 0, 0, 0, 0, 5, 0, 1, 0, 0, 0, 0, 0, 0, 0, 0, 0])
def riSect : Sect := ⟨2, 2, false, 0x100, 20, 0⟩
/-- The same state with the boot record read. -/
def recRead (s : State) : State :=
  { s with dev := { s.dev with boot := recLoad s.prot.flash { s.dev.boot with nvmWait := false, tried := [] } } }
/-- At the end of the wait after the reset commands, with that flash. -/
def booted (b : Bool) : State :=
  { st (fun d => stage 4 (bt (fun b => { b with nvmWait := true }) d)) with prot := { Prot.reset with flash := imgCells b } }
/-- The state after a command. -/
def next (c : Instr) (s : State) : State := match exec c s with | .next t => t | _ => s
/-- What HD[15:0] shows after a command. -/
def hdAfter (c : Instr) (s : State) : Option (BitVec 16) := (next c s).dev.port.hd

/-! ### Numbers and short exchanges that the spec's chapters work out -/

/-- The low half of GLB_ID reads 9790h (the example of the scope chapter). -/
theorem test_id_low_half : hdAfter (.hostLowHalfRead 0) up = some 0x9790 := by decide +kernel

/-- Its high half, read next, is C584h. -/
theorem test_id_high_half : hdAfter (.hostHighHalfRead 1) (next (.hostLowHalfRead 0) up) = some 0xC584 := by decide +kernel

/-- With HOSTP OFF in RUN the responder answers 8A00h and A000h (the example after R424). -/
theorem test_responder_low : hdAfter (.aonResponderRead 0) (st (off Dom.hostp)) = some 0x8A00 := by decide +kernel

/-- The high half of the responder's answer. -/
theorem test_responder_high : hdAfter (.aonResponderRead 1) (st (off Dom.hostp)) = some 0xA000 := by decide +kernel

/-- A low-half write waits in the holding register: the store reads as before (R409). -/
theorem test_low_half_waits : (next (.hostLowHalfWrite 0xE5142 0x9000 3) up).dev.port.hq = [] := by decide +kernel

/-- The high half of the same word, with no byte enabled, commits it to the H write queue (the example after R416). -/
theorem test_high_half_commits :
    (next (.hostHighHalfWrite 0xE5143 0 0) (next (.hostLowHalfWrite 0xE5142 0x9000 3) up)).dev.port.hq.length = 1 := by
  decide +kernel

/-- The bus analyser's example: HA 00_6B0Eh is OUT_STAT7; 01_B580h is the first Skimmer coefficient of cluster 11. -/
theorem test_addresses : Reg.OUT_STAT 7 = 2 * 0x6B0E ∧ cluReg 11 (Reg.CLU_SKM_COEFB 0) = 0x1B580 ∧
    Reg.PWR_DOM 26 = 0x1168 ∧ cluReg 11 (Reg.CLU_CELL_STAT 7) = 0x1B35C := by decide +kernel

/-- A handle is position, slot and generation: slot 17 with generation 3 is 0223h (the cascade's example). -/
theorem test_handle : mkHandle 0 17 3 = 0x223 := by decide +kernel

/-- The directory entry of wave 0A3h lies at parameter store offset 8_9460h (the oscillator's example). -/
theorem test_directory : dirAt 0xA3 = 0x89460 := by decide +kernel

/-- Times at the 48 kHz family: code 0064h is 3,840 EF and 07D0h is 76,800 EF (the modulation chapter's example). -/
theorem test_times : timeEf 384000 0x64 = 3840 ∧ timeEf 384000 0x7D0 = 76800 := by decide +kernel

/-- LFO rate A000h advances the phase by 11,453,248 (the same example). -/
theorem test_lfo_rate : lfoInc false 0xA000 0 = 11453248 := by decide +kernel

/-- The cell's record with KNOT4 = 32,790, TC = 4.5 and T_CAL = 41.0: code 32,768 at 43.5 degrees is set as 32,801
(the calibration chapter's example). -/
theorem test_cell_code :
    ctrlCode (bytes [1, 0, 0, 0x29, 0, 0, 0, 0, 0, 0, 0, 0, 0, 0, 0, 0, 0x16, 0x80, 0, 0, 0, 0, 0, 0, 0x80, 4]) (some 0x2B80)
      32768 = 32801 := by decide +kernel

/-- The 40-bit EF counter wraps (R41). -/
theorem test_ef_wraps : efAdd (2 ^ 40 - 1) 1 = 0 ∧ efSince 0 (2 ^ 40 - 1) = 1 := by decide +kernel

/-- GLB_LOCK.LOCK sets by a 1 (R12). -/
theorem test_lock : (next (.lock 1) up).prot.lock = true := by decide +kernel

/-- A 0 does not set it. -/
theorem test_lock_zero : (next (.lock 0) up).prot.lock = false := by decide +kernel

/-- A pulse of 99 ns on RESET_N is no reset (R71). -/
theorem test_short_pulse : next (.resetPin 99) up = up := by decide +kernel

/-- Clearing GLB_FRAME_CTL.ENG_EN takes the engine down (R44). -/
theorem test_engine_disable : (next (.engineDisable 0) up).dev.engEn = false := by decide +kernel

/-- An empty queue: one REFCLK period passes (log 1). -/
theorem test_idle : (match step up with
    | .next t => t.dev.cnt.edge | _ => 0) = up.dev.cnt.edge + 1 := by decide +kernel

/-- The front command leaves the queue. -/
theorem test_front_leaves : (match step { up with pending := [.lock 1, .lock 0] } with
    | .next t => t.pending | _ => []) = [.lock 0] := by decide +kernel

/-- No word spells a command, so the queue stays as it is. -/
theorem test_no_word : decodeTableWord 16 0x1234 = none ∧ (State.reset.withFetchWord 16 0x1234) = State.reset := by decide +kernel

/-! ### States that meet the statements' hypotheses -/

/-- A CRC register that a byte leaves as it is stays so over a run of that byte. -/
theorem crcByte_run (r : Word) (b : Byte) (n : Nat) (h : crcByte r b = r) : (List.replicate n b).foldl crcByte r = r := by
  induction n with
  | zero => rfl
  | succ n ih => rw [List.replicate_succ, List.foldl_cons, h, ih]

/-- The CRC of bytes that bring the register to such a value, and that byte n times after them. -/
theorem crc_run (l a : List Byte) (n : Nat) (b : Byte) (r : Word) (hl : l = a ++ List.replicate n b)
    (h : a.foldl crcByte (~~~ 0) = r ∧ crcByte r b = r) : crc32 l = ~~~ r := by
  rw [crc32, crcMore, hl, List.foldl_append, h.1, crcByte_run r b n h.2]

/-- The image's header is accepted. -/
theorem image_header (s : State) (b : Bool) (h1 : s.prot.flash = imgCells b) (h2 : s.dev.boot.base 0 = 0x10000)
    (h3 : s.dev.boot.slotEnd 0 = 0x80000) (h4 : s.prot.floor = 0) : headerErr s 0 = 0 := by
  simp only [headerErr, h1, h2, h3, h4]
  rw [crc_run (flashBytes (imgCells b) 0x10000 0xFC) imgHead 204 0xFF 0xB6D0FDC0 (by cases b <;> decide +kernel) (by decide +kernel)]
  cases b <;> decide +kernel

/-- The image's section table is accepted. -/
theorem image_table (s : State) (b : Bool) (h1 : s.prot.flash = imgCells b) (h2 : s.dev.boot.base 0 = 0x10000) :
    tableErr s 0 = 0 ∧ readTable s 0 = [fwSect] ∧ sectBody s 0 fwSect = fwHead ++ List.replicate 104 0xFF := by
  simp only [tableErr, readTable, sectBody, h1, h2]
  cases b <;> decide +kernel

/-- If the ROM's verification accepts the signature, the image's firmware section is accepted. -/
theorem image_firmware (s : State) (b : Bool) (h1 : s.prot.flash = imgCells b) (h2 : s.dev.boot.base 0 = 0x10000)
    (h : Config.ed25519 0 (fwHead ++ List.replicate 40 0xFF) (List.replicate 64 0xFF) = true) : firmwareErr s 0 fwSect = 0 := by
  simp only [firmwareErr, (image_table s b h1 h2).2.2, h1, h2]
  rw [crc_run (fwHead ++ List.replicate 104 0xFF) fwHead 104 0xFF 0xB6D0FDC0 rfl (by decide +kernel),
    show bodyNat (fwHead ++ List.replicate 104 0xFF) 0x14 1 = 0 by decide +kernel,
    show List.take (64 + codeLen (fwHead ++ List.replicate 104 0xFF)) (fwHead ++ List.replicate 104 0xFF) =
      fwHead ++ List.replicate 40 0xFF by decide +kernel,
    show List.drop (64 + codeLen (fwHead ++ List.replicate 104 0xFF)) (fwHead ++ List.replicate 104 0xFF) =
      List.replicate 64 0xFF by decide +kernel, h]
  cases b <;> decide +kernel

/-- If the ROM's verification accepts the signature, the image is accepted. -/
theorem image_good (s : State) (b : Bool) (h1 : s.prot.flash = imgCells b) (h2 : s.dev.boot.base 0 = 0x10000)
    (h3 : s.dev.boot.slotEnd 0 = 0x80000) (h4 : s.prot.floor = 0)
    (h : Config.ed25519 0 (fwHead ++ List.replicate 40 0xFF) (List.replicate 64 0xFF) = true) : (imageErr s 0).1 = 0 := by
  have hc : (fwSect.crc != crc32 (sectBody s 0 fwSect)) = false := by
    rw [(image_table s b h1 h2).2.2, crc_run _ fwHead 104 0xFF 0xB6D0FDC0 rfl (by decide +kernel)]; rfl
  have hf : [fwSect].find? (fun x => x.crc != crc32 (sectBody s 0 x)) = none := by rw [List.find?_cons_of_neg (by rw [hc]; decide)]; rfl
  have ht : firmwareSect [fwSect] = some fwSect := rfl
  simp only [imageErr, image_header s b h1 h2 h3 h4, (image_table s b h1 h2).1, (image_table s b h1 h2).2.1, ht, image_firmware s b h1 h2 h, hf]
  simp only [ne_eq, not_true_eq_false, if_false]

/-- The CRC of `sf l`. -/
theorem sf_crc (l : List Nat) (h : ((bytes l).drop 1).foldl crcByte (~~~ 0) = 0)
    (h' : sfBytes (sf l) 1 411 = (bytes l).drop 1 ++ List.replicate 396 0) : (crc32 (sfBytes (sf l) 1 411)).toNat = 0xFFFFFFFF := by
  rw [crc_run _ _ _ 0 0 h' ⟨h, by decide +kernel⟩]; rfl

/-- No domain is in a handshake if no listed domain is. -/
theorem quiet_doms (d : Dev) (h : ∀ x ∈ d.pwr.doms, x.phase = .rest ∧ x.wakeNext = none) (m : Nat) :
    (d.dom m).phase = .rest ∧ (d.dom m).wakeNext = none := by
  by_cases hm : m < d.pwr.doms.length
  · have := h _ (List.getElem_mem hm)
    simpa [Dev.dom, at_, hm] using this
  · simp [Dev.dom, at_, List.getElem?_eq_none (Nat.le_of_not_lt hm), Domain.reset]

/-- The flash holds at least one byte. -/
theorem flash_one : 0 + 1 ≤ flashSize := Nat.one_le_two_pow

/-- The slot that a boot record's flash holds an image in is accepted, preferred or not. -/
theorem booted_image (b : Bool) :
    let p := (recRead (booted b)).dev.boot.prefer
    headerErr (recRead (booted b)) (if b then 1 - p else p) = 0 ∧ tableErr (recRead (booted b)) (if b then 1 - p else p) = 0 := by
  intro p
  have h : (if b then 1 - p else p) = 0 := by cases b <;> decide +kernel
  rw [h]
  exact ⟨image_header _ b rfl (by cases b <;> decide +kernel) (by cases b <;> decide +kernel) rfl,
    (image_table _ b rfl (by cases b <;> decide +kernel)).1⟩

/-- Idle states past start-up step 2, with the chronographs' clock running and at rest, and one before it. -/
theorem wit_StepRunsFrontCommand :
    (∃ s : State, s.pending = [] ∧ (Stage.straps ≤ s.dev.stage ∨ s.held = true) ∧
      (s.dev.chrRuns = false ∨ s.dev.cnt.edge % 64 = 63)) ∧
    (∃ s : State, s.pending = [] ∧ (Stage.straps ≤ s.dev.stage ∨ s.held = true) ∧ s.dev.chrRuns = true ∧
      s.dev.cnt.edge % 64 ≠ 63) ∧
    (∃ s : State, s.pending = [] ∧ s.dev.stage < Stage.straps ∧ s.held = false) :=
  ⟨⟨st (ct (fun c => { c with edge := 127 })), rfl, by decide +kernel, by decide +kernel⟩,
    ⟨up, rfl, by decide +kernel, by decide +kernel, by decide +kernel⟩,
    ⟨State.reset, rfl, by decide +kernel, by decide +kernel⟩⟩

/-- States and operands that meet the hypotheses of `Obligations.RegisterWriteFollowsAccessCodes`, clause by clause. -/
theorem wit_RegisterWriteFollowsAccessCodes :
    (∃ s : State, ∃ a : Nat, ∃ _ : Word, ∃ r : RegRow, (((a < 0x1000 ∧ ¬(0x40 ≤ a ∧ a < 0x80) ∧ a ∉ [Reg.GLB_VID, Reg.GLB_LOCK,
      Reg.GLB_RESET, Reg.GLB_FRAME_CTL, Reg.GLB_BOOT_CTL]) ∨ (0x1000 ≤ a ∧ a < 0x2000 ∧ a ∉ [Reg.PWR_REQ, Reg.PWR_PAD_RELEASE,
      Reg.AON_WAKE]) ∨ (0x5000 ≤ a ∧ a < 0x6000 ∧ a ∉ [Reg.MGT_MB_CTL, Reg.MGT_FAULT]) ∨ (0x6000 ≤ a ∧ a < 0x7100 ∧ a ≠
      Reg.CAS_CTL) ∨ (0xC000 ≤ a ∧ a < 0xD000 ∧ a ≠ Reg.ALC_GLFO_RESTART))) ∧ rowOf a = some r ∧ s.dev.isOn (blockDom a) = true
      ∧ s.dev.isOn Dom.hostp = true ∧ hostMayWrite s.dev a = true) ∧
    (∃ s : State, ∃ a : Nat, ∃ _ : Word, ∃ r : RegRow, (((0xD000 ≤ a ∧ a < 0xD400) ∨ (0xE018 ≤ a ∧ a < 0xF000))) ∧ rowOf a =
      some r ∧ r.w1c = 0 ∧ s.dev.isOn (blockDom a) = true ∧ hostTurn s.dev = true) ∧
    (∃ s : State, ∃ v : Word, ∃ a : Nat, ∃ c : Instr, hostTurn s.dev = true ∧ s.dev.isOn (blockDom a) = true ∧ (a, c) ∈
      [(Reg.PWR_REQ, Instr.powerBatch v), (Reg.PWR_PAD_RELEASE, .padRelease v), (Reg.AON_WAKE, .aonWake v), (Reg.CHR_START,
      .chrStart v), (Reg.CHR_STOP, .chrStop v), (Reg.MGT_FAULT, .mgtFaultClear v), (Reg.ALM_CTL, .flush v), (Reg.ALM_POST_GO,
      .hostPost v), (Reg.ALM_CANCEL, .hostCancel v), (Reg.ALC_GLFO_RESTART, .glfoRestart v), (Reg.OUT_FAULT, .outFaultClear v),
      (Reg.CAL_REQ, .calReq v), (Reg.WIN_ADDR, .winAddrWrite v)]) ∧
    (∃ s : State, ∃ a : Nat, ∃ _ : Word, (rowOf a = none ∨ s.dev.isOn (blockDom a) = false ∨ s.dev.isOn Dom.hostp = false ∨
      hostMayWrite s.dev a = false)) ∧
    (∃ s : State, ∃ v : Word, v.getLsbD 0 = true ∧ hostTurn s.dev = true) := ⟨
    ⟨st id, Reg.MGT_LOG_CTL, 0xFFFFFFFF, row Reg.MGT_LOG_CTL, by decide +kernel⟩,
    ⟨up, 0xD100, 0xFFFFFFFF, row 0xD100, by decide +kernel⟩,
    ⟨up, 7, Reg.CHR_START, .chrStart 7, by decide +kernel⟩,
    ⟨up, 0xFFC, 5, by decide +kernel⟩,
    ⟨up, 3, by decide +kernel⟩⟩

/-- States and operands that meet the hypotheses of `Obligations.HostPortHalvesMoveWords`, clause by clause. -/
theorem wit_HostPortHalvesMoveWords :
    (∃ s : State, ∃ ha : Nat, s.dev.isOn Dom.hostp = true ∧ ha % 2 = 0 ∧ 0x80000 ≤ ha ∧ ha < 0x100000 ∧ s.dev.isOn Dom.ctrl =
      true ∧ psReserved (2 * ha - 0x100000) = false) ∧
    (∃ s : State, ∃ ha : Nat, ∃ x : BitVec 16, s.dev.isOn Dom.hostp = true ∧ ha % 2 = 1 ∧ 0x80000 ≤ ha ∧ ha < 0x100000 ∧
      s.dev.isOn Dom.ctrl = true ∧ psReserved (2 * (ha - 1) - 0x100000) = false ∧ s.dev.port.snap = some (2 * (ha - 1), x)) ∧
    (∃ s : State, ∃ ha : Nat, ∃ r : RegRow, s.dev.isOn Dom.hostp = true ∧ rowOf (2 * ha) = some r ∧ r.rc ≠ 0 ∧ ((2 * ha <
      0x2000 ∨ (0x5000 ≤ 2 * ha ∧ 2 * ha < 0xD000 ∧ 2 * ha ≠ Reg.ALM_DONE))) ∧ s.dev.isOn (blockDom (2 * ha)) = true ∧ ha % 2 =
      0) ∧
    (∃ s : State, ∃ ha : Nat, ∃ r : RegRow, s.dev.isOn Dom.hostp = true ∧ rowOf (2 * ha) = some r ∧ r.rc ≠ 0 ∧ ((2 * ha <
      0x2000 ∨ (0x5000 ≤ 2 * ha ∧ 2 * ha < 0xD000 ∧ 2 * ha ≠ Reg.ALM_DONE))) ∧ s.dev.isOn (blockDom (2 * ha)) = true ∧ ha % 2 =
      0 ∧ s.dev.port.snap = none) ∧
    (∃ s : State, ∃ e : Done, ∃ l : List Done, s.dev.isOn Dom.hostp = true ∧ s.dev.isOn Dom.ctrl = true ∧ s.dev.alm.done = e ::
      l) ∧
    (∃ s : State, s.dev.isOn Dom.hostp = true) ∧
    (∃ s : State, ∃ w : Nat, s.dev.isOn Dom.hostp = true ∧ s.dev.port.efHi = some w) ∧
    (∃ s : State, ∃ ha : Nat, ∃ c : Instr, s.dev.isOn Dom.hostp = false ∧ c ∈ [Instr.aonResponderRead ha, .hostLowHalfRead ha,
      .hostHighHalfRead ha]) ∧
    (∃ s : State, ∃ ha : Nat, ∃ _ : BitVec 16, ∃ _ : BitVec 2, s.dev.isOn Dom.hostp = true ∧ ha % 2 = 0) ∧
    (∃ s : State, ∃ ha : Nat, ∃ lo : BitVec 16, ∃ _ : BitVec 16, ∃ beLo : BitVec 2, ∃ _ : BitVec 2, s.dev.isOn Dom.hostp = true
      ∧ ha % 2 = 1 ∧ 0x80000 ≤ ha - 1 ∧ ha < 0x100000 ∧ s.dev.port.hold = some ⟨2 * (ha - 1), lo, beLo⟩ ∧ s.dev.stage =
      Stage.run ∧ s.dev.isOn Dom.ctrl = true ∧ psReserved (2 * (ha - 1) - 0x100000) = false) ∧
    (∃ s : State, ∃ ha : Nat, ∃ _ : BitVec 16, ∃ _ : BitVec 2, s.dev.isOn Dom.hostp = true ∧ ha % 2 = 1 ∧ s.dev.port.hold =
      none) ∧
    (∃ s : State, ∃ v : Word, v.bits 31 16 = 0x5AF0 ∧ v.bits 4 0 < 30 ∧ Stage.straps ≤ s.dev.stage ∧ (s.dev.isOn Dom.hostp =
      false ∨ stageOpen s.dev = true)) ∧
    (∃ s : State, ∃ a : Nat, ∃ _ : Word, ∃ _ : BitVec 4, s.dev.isOn Dom.ctrl = true ∧ hostTurn s.dev = true ∧ a < 0x100000 ∧ a
      % 4 = 0 ∧ psReserved a = false) ∧
    (∃ s : State, ∃ w : HWrite, s.dev.isOn Dom.ctrl = true ∧ s.dev.timerRuns = true ∧ notesSettled s.dev = true ∧ s.dev.dueH =
      [w] ∧ w.offset < 0x80000 ∧ w.offset % 4 = 0 ∧ w.be = 15) ∧
    (∃ s : State, ∃ _ : Nat, ∃ _ : Word, ∃ _ : BitVec 4, hostTurn s.dev = false) ∧
    (∃ s : State, (s.dev.timerRuns = false ∨ notesSettled s.dev = false ∨ s.dev.dueH = [])) := ⟨
    ⟨up, 0x80000, by decide +kernel⟩,
    ⟨st (fun d => { d with port := { d.port with snap := some (0x100000, 7) } }), 0x80001, 7, by decide +kernel⟩,
    ⟨up, Reg.GLB_CNT_REJ / 2, row Reg.GLB_CNT_REJ, by decide +kernel⟩,
    ⟨up, Reg.GLB_CNT_REJ / 2, row Reg.GLB_CNT_REJ, by decide +kernel⟩,
    ⟨st (al (fun a => { a with done := [⟨1, 5, 7⟩] })), ⟨1, 5, 7⟩, [], by decide +kernel⟩,
    ⟨up, by decide +kernel⟩,
    ⟨st (fun d => { d with port := { d.port with efHi := some 5 } }), 5, by decide +kernel⟩,
    ⟨st (off Dom.hostp), 3, .hostHighHalfRead 3, by decide +kernel⟩,
    ⟨up, 8, 0xABCD, 3, by decide +kernel⟩,
    ⟨st (fun d => { d with port := { d.port with hold := some ⟨0x100000, 5, 3⟩ } }), 0x80001, 5, 6, 3, 3, by decide +kernel⟩,
    ⟨up, 1, 5, 3, by decide +kernel⟩,
    ⟨up, 0x5AF0001D, by decide +kernel⟩,
    ⟨up, 0xFFFFC - 0x80000 + 0x0, 0xDEADBEEF, 15, by decide +kernel⟩,
    ⟨st (fun d => fr (fun f => { f with ef := 1001 }) { d with port := { d.port with hq := [⟨0x7FFFC, 5, 15, 998, false⟩] } }),
      ⟨0x7FFFC, 5, 15, 998, false⟩, by decide +kernel⟩,
    ⟨st (stage 7), 0, 5, 15, by decide +kernel⟩,
    ⟨st (fun d => fr (fun f => { f with ef := 1001 })
      { d with port := { d.port with hq := [⟨0x7FFFC, 5, 15, 1000, false⟩] } }), by decide +kernel⟩⟩

/-- States and operands that meet the hypotheses of `Obligations.ReleasesAdvanceAndClustersDeliver`, clause by clause. -/
theorem wit_ReleasesAdvanceAndClustersDeliver :
    (∃ s : State, s.dev.timerRuns = true) ∧
    (∃ s : State, s.dev.timerRuns = false) ∧
    (∃ s : State, s.dev.timerRuns = true ∧ s.dev.frame.released = true ∧ s.dev.now % 4 = 0 ∧ s.dev.aud.cfDone ≠ some s.dev.now) ∧
    (∃ s : State, (s.dev.now % 4 ≠ 0 ∨ s.dev.frame.released = false)) ∧
    (∃ s : State, ∃ c : Nat, ∃ n : Nat, ∃ r : List Nat, c < 16 ∧ s.dev.cluOn c = true ∧ s.dev.timerRuns = true ∧ (s.dev.clu
      c).due = s.dev.now :: r ∧ 0 < n ∧ (s.dev.clu c).flushAt ≠ some s.dev.now) ∧
    (∃ s : State, ∃ c : Nat, ∃ _ : Nat, ∃ e : Nat, ∃ r : List Nat, c < 16 ∧ s.dev.cluOn c = true ∧ s.dev.timerRuns = true ∧
      (s.dev.clu c).due = e :: r ∧ e ≠ s.dev.now ∧ (s.dev.clu c).flushAt ≠ some e) ∧
    (∃ s : State, ∃ c : Nat, ∃ _ : Nat, ((∀ e ∈ (s.dev.clu c).due, (s.dev.clu c).flushAt = some e))) ∧
    (∃ s : State, ∃ c : Nat, ∃ r : List Nat, (s.dev.clu c).due = s.dev.now :: r ∧ (s.dev.clu c).flushAt ≠ some s.dev.now) ∧
    (∃ s : State, ∃ _ : Nat, ∃ _ : Nat, s.dev.timerRuns = false) ∧
    (∃ s : State, ∃ c : Nat, s.dev.active c = false) ∧
    (∃ s : State, ∃ c : Nat, c < 16 ∧ s.dev.active c = true ∧ (s.dev.clu c).due.contains (efAdd s.dev.now (efWrap - 1)) = true
      ∧ (s.dev.clu c).missAt ≠ some s.dev.now ∧ c < s.dev.aud.clus.length) ∧
    (∃ s : State, ∃ c : Nat, c < 16 ∧ c < s.dev.aud.clus.length ∧ s.dev.active c = true ∧ s.dev.timerRuns = true ∧ (s.dev.clu
      c).due.contains (efAdd s.dev.now (efWrap - 2)) = true ∧ (s.dev.clu c).flushAt ≠ some (efAdd s.dev.now (efWrap - 2))) := ⟨
    ⟨up, by decide +kernel⟩,
    ⟨st (fr (fun f => { f with refValid := false })), by decide +kernel⟩,
    ⟨up, by decide +kernel⟩,
    ⟨st (fr (fun f => { f with ef := 1001 })), by decide +kernel⟩,
    ⟨st (fun d => d.modClu 15 (fun x => { x with due := [1000] })), 15, 64, [], by decide +kernel⟩,
    ⟨st (fun d => d.modClu 0 (fun x => { x with due := [999, 1000] })), 0, 5, 999, [1000], by decide +kernel⟩,
    ⟨st (fun d => d.modClu 15 (fun x => { x with due := [1000], flushAt := some 1000 })), 15, 64, by decide +kernel⟩,
    ⟨st (fun d => d.modClu 0 (fun x => { x with due := [1000] })), 0, [], by decide +kernel⟩,
    ⟨st (fr (fun f => { f with refValid := false })), 15, 64, by decide +kernel⟩,
    ⟨st (rg [(Reg.GLB_FRAME_CTL, 0)]), 3, by decide +kernel⟩,
    ⟨st (fun d => fr (fun f => { f with winOpen := true, winLate := 3, lateIdx := none }) (d.modClu 15 (fun x =>
      { x with due := [999] }))), 15, by decide +kernel⟩,
    ⟨st (fun d => d.modClu 3 (fun x => { x with due := [998, 999] })), 3, by decide +kernel⟩⟩

/-- States and operands that meet the hypotheses of `Obligations.GuardAndVidLoopsStep`, clause by clause. -/
theorem wit_GuardAndVidLoopsStep :
    (∃ s : State, s.dev.frame.winOpen = true ∧ s.dev.frame.winStart + 1024 ≤ s.dev.frame.guardEf) ∧
    (∃ s : State, s.dev.frame.guardEf < s.dev.frame.winStart + 1024) ∧
    (∃ s : State, s.dev.frame.audio = true ∧ 0 < s.dev.frame.steps ∧ 65536 ≤ s.dev.frame.clean ∧ s.dev.frame.cleanAt ≠ some
      s.dev.now) ∧
    (∃ s : State, (s.dev.frame.steps = 0 ∨ s.dev.frame.clean < 65536)) ∧
    (∃ s : State, ∃ c : Nat, ∃ v : Word, c < 16 ∧ v.getLsbD 15 = true ∧ hostTurn s.dev = true) ∧
    (∃ s : State, s.dev.frame.winDone = false ∧ vidLoopRuns s.dev = true ∧ s.dev.fld Reg.GLB_SLACK_DEV 21 16 < 16 ∧
      s.dev.frame.vid.settling = false ∧ s.dev.frame.vid.code < 15) ∧
    (∃ s : State, s.held = true) ∧
    (∃ s : State, s.held = false ∧ s.dev.frame.vid.settling = true ∧ s.dev.frame.vid.request = none) ∧
    (∃ s : State, s.dev.frame.vid.settling = true ∧ s.dev.frame.vid.timeouts = 2) ∧
    (∃ s : State, s.dev.frame.vid.settling = false) := ⟨
    ⟨st (fr (fun f => { f with winOpen := true, guardEf := 1024 })), by decide +kernel⟩,
    ⟨st (fr (fun f => { f with winOpen := true, guardEf := 1023 })), by decide +kernel⟩,
    ⟨st (fr (fun f => { f with steps := 1, clean := 65536 })), by decide +kernel⟩,
    ⟨up, by decide +kernel⟩,
    ⟨up, 15, 0x8000, by decide +kernel⟩,
    ⟨st (fun d => fr (fun f => { f with winDone := false, winMin := 15, vid := { f.vid with code := 3 } }) (rg
      [(Reg.GLB_SLACK_DEV, 0x000F0000)] d)), by decide +kernel⟩,
    ⟨{ up with prot := { Prot.reset with jtag := 0 } }, by decide +kernel⟩,
    ⟨st (fr (fun f => { f with vid := { f.vid with settling := true } })), by decide +kernel⟩,
    ⟨st (fr (fun f => { f with vid := { f.vid with settling := true, timeouts := 2 } })), by decide +kernel⟩,
    ⟨up, by decide +kernel⟩⟩

/-- States and operands that meet the hypotheses of `Obligations.ReferenceAndEngineStartAndStop`, clause by clause. -/
theorem wit_ReferenceAndEngineStartAndStop :
    (∃ s : State, s.dev.frame.refValid = true ∧ s.dev.isOn Dom.ctrl = true) ∧
    (∃ s : State, s.dev.frame.refValid = false) ∧
    (∃ s : State, s.dev.frame.refValid = false ∧ s.dev.isOn Dom.ctrl = true) ∧
    (∃ s : State, s.dev.frame.refValid = false ∧ s.dev.isOn Dom.ctrl = true ∧ s.dev.cnt.wait = []) ∧
    (∃ s : State, ∃ v : Word, v.getLsbD 0 = true ∧ s.dev.engEn = false ∧ hostTurn s.dev = true ∧ s.dev.stage ≠ Stage.held) ∧
    (∃ s : State, ∃ v : Word, v.getLsbD 0 = false ∧ s.dev.engEn = true ∧ hostTurn s.dev = true) ∧
    (∃ s : State, ∃ v : Word, v.getLsbD 0 = true ∧ s.dev.engEn = false ∧ s.dev.isOn Dom.hostp = true ∧ s.dev.stage =
      Stage.held) ∧
    (∃ s : State, ∃ _ : Word, s.dev.engEn = true) ∧
    (∃ s : State, ∃ _ : Word, s.dev.engEn = false) := ⟨
    ⟨up, by decide +kernel⟩,
    ⟨st (fr (fun f => { f with refValid := false })), by decide +kernel⟩,
    ⟨st (fr (fun f => { f with refValid := false })), by decide +kernel⟩,
    ⟨st (fun d => fr (fun f => { f with refValid := false, guardEf := 5 }) (rg [(Reg.OUT_EN, 1)] d)), by decide +kernel⟩,
    ⟨st (rg [(Reg.GLB_FRAME_CTL, 0)]), 3, by decide +kernel⟩,
    ⟨up, 2, by decide +kernel⟩,
    ⟨st (fun d => stage 9 (rg [(Reg.GLB_FRAME_CTL, 0)] d)), 1, by decide +kernel⟩,
    ⟨up, 1, by decide +kernel⟩,
    ⟨st (rg [(Reg.GLB_FRAME_CTL, 0)]), 0, by decide +kernel⟩⟩

/-- States and operands that meet the hypotheses of `Obligations.ResetsReturnToTheResetState`, clause by clause. -/
theorem wit_ResetsReturnToTheResetState :
    (∃ _ : State, ∃ w : Nat, 1000 ≤ w) ∧
    (∃ s : State, s.dev.isOn Dom.hostp = true) ∧
    (∃ s : State, s.dev.mgt.resetDue = true ∧ s.dev.mgt.response = none) ∧
    (∃ s : State, s.dev.mgt.resetDue = false) ∧
    (∃ s : State, s.dev.isOn Dom.mgmt = true ∧ s.dev.mgt.mode = 2) ∧
    (∃ s : State, ∃ k : Nat, ∃ e : Nat, ∃ x : Nat, s.dev.boot.failed = true ∧ s.prot.marker = some (k, e, x) ∧ e < 256 ∧ x <
      64) := ⟨
    ⟨up, 1000, by decide +kernel⟩,
    ⟨up, by decide +kernel⟩,
    ⟨st (fun d => { d with mgt := { d.mgt with resetDue := true } }), by decide +kernel⟩,
    ⟨up, by decide +kernel⟩,
    ⟨up, by decide +kernel⟩,
    ⟨{ (st (fun d => { d with boot := { d.boot with failed := true } })) with prot := { Prot.reset with marker := some (1, 8, 6) } },
      1, 8, 6, by decide +kernel⟩⟩

/-- States and operands that meet the hypotheses of `Obligations.ResetStateFollowsTheSpec`, clause by clause. -/
theorem wit_ResetStateFollowsTheSpec :
    (∃ n : Nat, 0 < n ∧ n < 30) ∧
    (∃ v : Nat, v < 256) := ⟨
    ⟨29, by decide +kernel⟩,
    ⟨255, by decide +kernel⟩⟩

/-- States and operands that meet the hypotheses of `Obligations.StrapsAndBootControls`, clause by clause. -/
theorem wit_StrapsAndBootControls :
    (∃ s : State, ∃ _ : BitVec 3, ∃ _ : Bool, ∃ _ : BitVec 2, s.dev.stage ≤ Stage.straps ∧ s.held = false ∧ ((∀ n ∈ [Dom.ctrl,
      Dom.mgmt, Dom.memc, Dom.hostp], (s.dev.dom n).phase = DomPhase.rest ∧ (s.dev.dom n).state = DomState.off)) ∧
      s.dev.pwr.ready = [] ∧ s.dev.pwr.doms.length = 30) ∧
    (∃ s : State, ∃ _ : BitVec 3, ∃ _ : Bool, ∃ _ : BitVec 2, Stage.straps < s.dev.stage) ∧
    (∃ s : State, s.dev.stage = Stage.domains ∧ s.dev.isOn Dom.mgmt = true ∧ s.dev.isOn Dom.hostp = true ∧ ((s.dev.isOn
      Dom.ctrl = true ∧ s.dev.isOn Dom.memc = true ∧ s.dev.mem.dramReady = true) ∨ (s.dev.dom Dom.ctrl).state =
      DomState.failed)) ∧
    (∃ s : State, ∃ v : Word, v.getLsbD 1 = true ∧ ((s.dev.stage = Stage.noImage ∨ s.dev.stage = Stage.romWait)) ∧ s.dev.isOn
      Dom.hostp = true) ∧
    (∃ s : State, ∃ v : Word, (v.getLsbD 1 = false ∨ (s.dev.stage ≠ Stage.noImage ∧ s.dev.stage ≠ Stage.romWait))) ∧
    (∃ s : State, ∃ v : Word, v.getLsbD 0 = true ∧ s.dev.stage = Stage.held ∧ s.dev.isOn Dom.hostp = true) ∧
    (∃ s : State, ∃ v : Word, (v.getLsbD 0 = false ∨ s.dev.stage ≠ Stage.held)) := ⟨
    ⟨{ State.reset with prot := Prot.reset }, 5, true, 2, by decide +kernel⟩,
    ⟨up, 0, false, 0, by decide +kernel⟩,
    ⟨st (fun d => stage 3 (rg [(Reg.GLB_STRAP, 2)] d)), by decide +kernel⟩,
    ⟨st (stage 10), 2, by decide +kernel⟩,
    ⟨up, 2, by decide +kernel⟩,
    ⟨st (fun d => stage 9 (rg [(Reg.GLB_FRAME_CTL, 0)] d)), 1, by decide +kernel⟩,
    ⟨up, 1, by decide +kernel⟩⟩

/-- As the statement says it. -/
abbrev SlotsAreTriedAndStartUpEnds_loaded (s r : State) : Prop := s.dev.stage = Stage.rom ∧ s.dev.boot.nvmWait = true ∧ r =
  { s with dev := { s.dev with boot := recLoad s.prot.flash { s.dev.boot with nvmWait := false, tried := [] } } }

/-- As the statement says it. -/
abbrev SlotsAreTriedAndStartUpEnds_ready (s r : State) : Prop := SlotsAreTriedAndStartUpEnds_loaded s r ∧ s.prot.marker = none
  ∧ s.prot.markedBoth = false

/-- As the statement says it. -/
abbrev SlotsAreTriedAndStartUpEnds_refused (s r : State) (k : Nat) : Prop := s.prot.markedBoth = true ∨ (∃ e x, s.prot.marker =
  some (k, e, x)) ∨ headerErr r k ≠ 0 ∨ tableErr r k ≠ 0

/-- As the statement says it. -/
abbrev SlotsAreTriedAndStartUpEnds_streams (s : State) (x : Sect) (r : List Sect) (p : Nat) : Prop := s.dev.boot.streams = x ::
  r ∧ x.crc = crc32 (sectBody s s.dev.slot x) ∧ 2 < s.dev.mem.movers.length ∧ ((streamTaken (streamMove s x) s.dev = true ∧ p =
  (s.dev.mover 2).pos ∧ moverBorrowed s.dev (s.dev.mover 2) ((streamMove s x).length - p) = false) ∨ (streamTaken (streamMove s
  x) s.dev = false ∧ streamMay s.dev = true ∧ (streamMove s x).length ≠ 0 ∧ moverReason s.dev 2 (streamMove s x) = 0 ∧ p = 0 ∧
  moverBorrowed s.dev (streamMove s x) (streamMove s x).length = false))

/-- States and operands that meet the hypotheses of `Obligations.SlotsAreTriedAndStartUpEnds`, clause by clause. -/
theorem wit_SlotsAreTriedAndStartUpEnds :
    (∃ s : State, ∃ r : State, SlotsAreTriedAndStartUpEnds_ready s r ∧ headerErr r r.dev.boot.prefer = 0 ∧ tableErr r
      r.dev.boot.prefer = 0) ∧
    (∃ s : State, ∃ r : State, SlotsAreTriedAndStartUpEnds_ready s r ∧ (headerErr r r.dev.boot.prefer ≠ 0 ∨ tableErr r
      r.dev.boot.prefer ≠ 0) ∧ headerErr r (1 - r.dev.boot.prefer) = 0 ∧ tableErr r (1 - r.dev.boot.prefer) = 0) ∧
    (∃ s : State, ∃ r : State, SlotsAreTriedAndStartUpEnds_loaded s r ∧ SlotsAreTriedAndStartUpEnds_refused s r 0 ∧
      SlotsAreTriedAndStartUpEnds_refused s r 1) ∧
    (∃ s : State, (s.dev.stage ≠ Stage.rom ∨ s.dev.boot.nvmWait = false)) ∧
    (Config.ed25519 0 (fwHead ++ List.replicate 40 0xFF) (List.replicate 64 0xFF) = true → ∃ s : State, ∃ x : Sect, s.dev.stage
      = Stage.rom ∧ s.dev.boot.nvmWait = false ∧ s.dev.isOn Dom.mgmt = true ∧ firmwareSect s.dev.boot.sects = some x ∧
      firmwareErr s s.dev.slot x = 0) ∧
    (∃ s : State, ∃ x : Sect, s.dev.stage = Stage.rom ∧ s.dev.boot.nvmWait = false ∧ s.dev.isOn Dom.mgmt = true ∧
      s.dev.boot.sects = [x] ∧ x.typ = 1 ∧ firmwareErr s s.dev.slot x ≠ 0 ∧ s.dev.slot < 2 ∧ s.dev.boot.prefer < 2 ∧ (1 -
      s.dev.slot) ∈ s.dev.boot.tried) ∧
    (∃ s : State, ∃ x : Sect, ∃ r : List Sect, ∃ p : Nat, SlotsAreTriedAndStartUpEnds_streams s x r p ∧ x.typ = 9) ∧
    (∃ s : State, ∃ x : Sect, ∃ r : List Sect, ∃ p : Nat, SlotsAreTriedAndStartUpEnds_streams s x r p ∧ x.typ = 10 ∧ streamOk
      10 (sectBody s s.dev.slot x) = true) ∧
    (∃ s : State, s.dev.boot.streams = []) ∧
    (∃ s : State, ∃ x : Sect, ∃ r : List Sect, s.dev.boot.streams = x :: r ∧ streamTaken (streamMove s x) s.dev = false ∧
      (s.dev.boot.lists ≠ [] ∨ anyWaking s.dev = true ∨ s.dev.isOn Dom.memc = false)) ∧
    (∃ s : State, foregroundReady s.dev = true) ∧
    (∃ s : State, s.dev.cal.fgBusy = true ∧ s.dev.cal.runs ≠ [] ∧ ((∀ r ∈ s.dev.cal.runs, r.step = 6)) ∧ s.dev.timerRuns =
      true) ∧
    (∃ s : State, s.dev.boot.failed = false ∧ s.dev.isOn Dom.mgmt = true ∧ s.dev.stage = Stage.engine ∧ s.dev.boot.lists = [] ∧
      s.dev.boot.delaying = false ∧ s.dev.boot.sleeps = []) ∧
    (∃ s : State, s.dev.stage = Stage.engine ∧ s.dev.boot.sleeps ≠ []) ∧
    (∃ s : State, s.dev.boot.failed = false ∧ s.dev.isOn Dom.mgmt = true ∧ s.dev.stage = Stage.cal ∧ s.dev.boot.calDone = true
      ∧ s.dev.boot.streams = [] ∧ ((∃ y e es q, lists1 s = (y, e :: es) :: q ∧ 1 ≤ e.op ∧ e.op ≤ 6))) := ⟨
    ⟨booted false, recRead (booted false), ⟨⟨by decide +kernel, by decide +kernel, rfl⟩, by decide +kernel, by decide +kernel⟩,
      (booted_image false).1, (booted_image false).2⟩,
    ⟨booted true, recRead (booted true), ⟨⟨by decide +kernel, by decide +kernel, rfl⟩, by decide +kernel, by decide +kernel⟩,
      by decide +kernel, (booted_image true).1, (booted_image true).2⟩,
    ⟨st (fun d => stage 4 (bt (fun b => { b with nvmWait := true }) d)), recRead (st (fun d => stage 4 (bt (fun b =>
      { b with nvmWait := true }) d))), ⟨by decide +kernel, by decide +kernel, rfl⟩, .inr (.inr (.inl (by decide +kernel))),
      .inr (.inr (.inl (by decide +kernel)))⟩,
    ⟨up, by decide +kernel⟩,
    fun h => ⟨held (st (fun d => stage 4 (bt (fun b => { b with slotA := 0x10000, slotB := 0x80000, sects := [fwSect] }) d))),
      fwSect, by decide +kernel, by decide +kernel, by decide +kernel, by decide +kernel, image_firmware _ _ rfl
      (by decide +kernel) h⟩,
    ⟨st (fun d => stage 4 (bt (fun b => { b with slotA := 0x1000, tried := [1], sects := [⟨0, 1, false, 256, 64, 5⟩] }) d)),
      ⟨0, 1, false, 256, 64, 5⟩, by decide +kernel⟩,
    ⟨{ st (bt (fun b => { b with streams := [wdSect] })) with prot := { Prot.reset with flash := wdCells } }, wdSect, [], 0,
      by decide +kernel⟩,
    ⟨{ st (bt (fun b => { b with streams := [owSect] })) with prot := { Prot.reset with flash := owCells } }, owSect, [], 0,
      by decide +kernel⟩,
    ⟨up, by decide +kernel⟩,
    ⟨st (bt (fun b => { b with streams := [owSect], lists := [(2, [⟨1, 0, 0x1100, 1⟩])] })), owSect, [], by decide +kernel⟩,
    ⟨st (stage 6), by decide +kernel⟩,
    ⟨st (fun d => { d with cal := { d.cal with fgBusy := true, runs := [{ runStart d 255 false with step := 6 }] } }),
      by decide +kernel⟩,
    ⟨st (fun d => stage 7 (bt (fun b => { b with hold := true }) d)), by decide +kernel⟩,
    ⟨st (fun d => stage 7 (bt (fun b => { b with sleeps := [27] }) d)), by decide +kernel⟩,
    ⟨{ st (fun d => stage 6 (bt (fun b => { b with calDone := true, sects := [riSect] }) d)) with prot := { Prot.reset with flash := riCells } },
      by decide +kernel, by decide +kernel, by decide +kernel, by decide +kernel, by decide +kernel, ⟨2, ⟨5, 1, 0, 0⟩, [], [],
      by decide +kernel, by decide +kernel, by decide +kernel⟩⟩⟩

/-- As the statement says it. -/
abbrev RegisterListEntries_front (s : State) (e : RegEntry) : Prop := (∃ x es r, s.dev.boot.lists = (x, e :: es) :: r) ∧
  (s.dev.boot.streams = [] ∨ listsRest s.dev.boot.lists ≠ []) ∧ ∀ y f fs q, listsRest s.dev.boot.lists = (y, f :: fs) :: q → 1
  ≤ f.op ∧ f.op ≤ 6

/-- As the statement says it. -/
abbrev RegisterListEntries_plain (s : State) (a : Nat) (r : RegRow) : Prop := ((a < 0x1000 ∧ ¬(0x40 ≤ a ∧ a < 0x80) ∧ a ∉
  [Reg.GLB_VID, Reg.GLB_LOCK, Reg.GLB_RESET, Reg.GLB_FRAME_CTL, Reg.GLB_BOOT_CTL]) ∨ (0x1000 ≤ a ∧ a < 0x2000 ∧ a ∉
  [Reg.PWR_REQ, Reg.PWR_PAD_RELEASE, Reg.AON_WAKE]) ∨ (0x5000 ≤ a ∧ a < 0x6000 ∧ a ∉ [Reg.MGT_MB_CTL, Reg.MGT_FAULT]) ∨ (0x6000
  ≤ a ∧ a < 0x7100 ∧ a ≠ Reg.CAS_CTL) ∨ (0xC000 ≤ a ∧ a < 0xD000 ∧ a ≠ Reg.ALC_GLFO_RESTART)) ∧ rowOf a = some r ∧ r.rc = 0 ∧
  s.dev.isOn (blockDom a) = true

/-- As the statement says it. -/
abbrev RegisterListEntries_store (s : State) (a n : Nat) : Prop := 0x100000 ≤ a ∧ a + 4 * n ≤ 0x200000 ∧ a % 4 = 0 ∧ s.dev.isOn
  Dom.ctrl = true ∧ ∀ k, k < n → psReserved (a + 4 * k - 0x100000) = false

/-- A list of one entry has it in front, and nothing behind it. -/
theorem front_one (s : State) (e : RegEntry) (h : s.dev.boot.lists = [(2, [e])]) (h' : s.dev.boot.streams = []) :
    RegisterListEntries_front s e :=
  ⟨⟨2, [], [], h⟩, .inl h', by rw [h]; intro y f fs q hq; simp [listsRest] at hq⟩

/-- A state whose list fills four registers of the mailbox. -/
def filling : State := st (fun d => stage 5 (bt (fun b => { b with lists := [(2, [⟨6, 4, Reg.MGT_MBI 0, 5⟩])] }) d))

/-- They are registers that a list may write. -/
theorem fill_plain (k : Nat) (hk : k < 4) : ∃ r, RegisterListEntries_plain filling (Reg.MGT_MBI 0 + 4 * k) r := by
  match k, hk with
  | 0, _ => exact ⟨(rowOf (Reg.MGT_MBI 0)).get (by decide +kernel), by decide +kernel⟩
  | 1, _ => exact ⟨(rowOf (Reg.MGT_MBI 0 + 4)).get (by decide +kernel), by decide +kernel⟩
  | 2, _ => exact ⟨(rowOf (Reg.MGT_MBI 0 + 8)).get (by decide +kernel), by decide +kernel⟩
  | 3, _ => exact ⟨(rowOf (Reg.MGT_MBI 0 + 12)).get (by decide +kernel), by decide +kernel⟩

/-- States and operands that meet the hypotheses of `Obligations.RegisterListEntries`, clause by clause. -/
theorem wit_RegisterListEntries :
    (∃ s : State, ∃ a : Nat, ∃ v : Word, ∃ e : RegEntry, ∃ r : RegRow, listsRun s.dev = true ∧ RegisterListEntries_front s e ∧
      RegisterListEntries_plain s a r ∧ s.prot.lock = false ∧ e.addr = a ∧ e.value = v ∧ e.op = 1) ∧
    (∃ s : State, ∃ a : Nat, ∃ v : Word, ∃ e : RegEntry, ∃ r : RegRow, listsRun s.dev = true ∧ RegisterListEntries_front s e ∧
      RegisterListEntries_plain s a r ∧ s.prot.lock = false ∧ e.addr = a ∧ e.value = v ∧ e.op = 2) ∧
    (∃ s : State, ∃ a : Nat, ∃ v : Word, ∃ e : RegEntry, ∃ r : RegRow, listsRun s.dev = true ∧ RegisterListEntries_front s e ∧
      RegisterListEntries_plain s a r ∧ s.prot.lock = false ∧ e.addr = a ∧ e.value = v ∧ e.op = 3) ∧
    (∃ s : State, ∃ a : Nat, ∃ v : Word, ∃ e : RegEntry, ∃ r : RegRow, listsRun s.dev = true ∧ RegisterListEntries_front s e ∧
      RegisterListEntries_plain s a r ∧ s.prot.lock = false ∧ e.addr = a ∧ e.value = v ∧ e.op = 4 ∧ (mgmtRead a s).1 &&& v ≠ 0) ∧
    (∃ s : State, ∃ a : Nat, ∃ v : Word, ∃ e : RegEntry, ∃ r : RegRow, listsRun s.dev = true ∧ RegisterListEntries_front s e ∧
      RegisterListEntries_plain s a r ∧ s.prot.lock = false ∧ e.addr = a ∧ e.value = v ∧ e.op = 4 ∧ (mgmtRead a s).1 &&& v = 0) ∧
    (∃ s : State, ∃ a : Nat, ∃ v : Word, ∃ e : RegEntry, listsRun s.dev = true ∧ RegisterListEntries_front s e ∧ e.op = 6 ∧
      e.addr = a ∧ e.value = v ∧ 0 < e.arg ∧ e.arg ≤ 1024 ∧ ((∀ k, k < e.arg → ∃ r, RegisterListEntries_plain s (a + 4 * k) r))
      ∧ s.prot.lock = false) ∧
    (∃ s : State, ∃ a : Nat, ∃ n : Nat, ∃ v : Word, ∃ e : RegEntry, listsRun s.dev = true ∧ RegisterListEntries_front s e ∧
      e.addr = a ∧ e.value = v ∧ RegisterListEntries_store s a n ∧ 0 < n ∧ n ≤ 1024 ∧ s.dev.hqMgmt + n ≤ 42 ∧
      s.dev.port.hq.length + n ≤ 256 ∧ e.op = 1 ∧ n = 1) ∧
    (∃ s : State, ∃ a : Nat, ∃ n : Nat, ∃ v : Word, ∃ e : RegEntry, listsRun s.dev = true ∧ RegisterListEntries_front s e ∧
      e.addr = a ∧ e.value = v ∧ RegisterListEntries_store s a n ∧ 0 < n ∧ n ≤ 1024 ∧ s.dev.hqMgmt + n ≤ 42 ∧
      s.dev.port.hq.length + n ≤ 256 ∧ e.op = 6 ∧ e.arg = n) ∧
    (∃ s : State, ∃ a : Nat, ∃ v : Word, ∃ e : RegEntry, listsRun s.dev = true ∧ RegisterListEntries_front s e ∧ e.addr = a ∧
      e.value = v ∧ e.op = 1 ∧ RegisterListEntries_store s a 1 ∧ 42 ≤ s.dev.hqMgmt) ∧
    (∃ s : State, ∃ e : RegEntry, listsRun s.dev = true ∧ RegisterListEntries_front s e ∧ e.op = 5 ∧ e.arg = 0) ∧
    (∃ s : State, ∃ e : RegEntry, listsRun s.dev = true ∧ RegisterListEntries_front s e ∧ e.op = 5 ∧ e.arg ≠ 0) ∧
    (∃ s : State, ∃ e : RegEntry, RegisterListEntries_front s e ∧ s.dev.boot.delaying = true) ∧
    (∃ s : State, ∃ x : Nat, ∃ es : List RegEntry, ∃ r : List (Nat × List RegEntry), s.dev.boot.polling = true ∧
      s.dev.boot.lists = (x, es) :: r) ∧
    (∃ s : State, ∃ _ : Nat, ∃ _ : Nat, ∃ _ : Word, s.dev.boot.lists = []) := ⟨
    ⟨st (fun d => stage 5 (bt (fun b => { b with lists := [(2, [⟨1, 0, 0x1100, 0xFFFFFFFF⟩])] }) d)), 0x1100, 0xFFFFFFFF, ⟨1,
      0, 0x1100, 0xFFFFFFFF⟩, row 0x1100, by decide +kernel, front_one _ _ rfl rfl, by decide +kernel⟩,
    ⟨st (fun d => stage 7 (bt (fun b => { b with lists := [(2, [⟨2, 0, 0x1100, 1⟩])] }) d)), 0x1100, 1, ⟨2, 0, 0x1100, 1⟩, row
      0x1100, by decide +kernel, front_one _ _ rfl rfl, by decide +kernel⟩,
    ⟨st (fun d => stage 5 (bt (fun b => { b with lists := [(2, [⟨3, 0, 0x1100, 1⟩])] }) d)), 0x1100, 1, ⟨3, 0, 0x1100, 1⟩, row
      0x1100, by decide +kernel, front_one _ _ rfl rfl, by decide +kernel⟩,
    ⟨st (fun d => stage 5 (bt (fun b => { b with lists := [(2, [⟨4, 1, Reg.MGT_MBI 0, 1⟩])] }) (rg [(Reg.MGT_MBI 0, 3)] d))),
      Reg.MGT_MBI 0, 1, ⟨4, 1, Reg.MGT_MBI 0, 1⟩, row (Reg.MGT_MBI 0), by decide +kernel, front_one _ _ rfl rfl,
      by decide +kernel⟩,
    ⟨st (fun d => stage 5 (bt (fun b => { b with lists := [(2, [⟨4, 1, Reg.MGT_MBI 0, 1⟩])] }) d)), Reg.MGT_MBI 0, 1, ⟨4, 1,
      Reg.MGT_MBI 0, 1⟩, row (Reg.MGT_MBI 0), by decide +kernel, front_one _ _ rfl rfl, by decide +kernel⟩,
    ⟨filling, Reg.MGT_MBI 0, 5, ⟨6, 4, Reg.MGT_MBI 0, 5⟩, by decide +kernel, front_one _ _ rfl rfl, by decide +kernel,
      by decide +kernel, by decide +kernel, by decide +kernel, by decide +kernel, fill_plain, by decide +kernel⟩,
    ⟨st (fun d => stage 5 (bt (fun b => { b with lists := [(2, [⟨1, 0, 0x100000, 5⟩])] }) d)), 0x100000, 1, 5, ⟨1, 0, 0x100000,
      5⟩, by decide +kernel, front_one _ _ rfl rfl, by decide +kernel⟩,
    ⟨st (fun d => stage 5 (bt (fun b => { b with lists := [(2, [⟨6, 3, 0x100000, 5⟩])] }) d)), 0x100000, 3, 5, ⟨6, 3, 0x100000,
      5⟩, by decide +kernel, front_one _ _ rfl rfl, by decide +kernel⟩,
    ⟨st (fun d => stage 5 (bt (fun b => { b with lists := [(2, [⟨1, 0, 0x100000, 5⟩])] }) ((fun d =>
      { d with port := { d.port with hq := List.replicate 42 ⟨0, 0, 15, 1000, true⟩ } }) d))), 0x100000, 5, ⟨1, 0, 0x100000,
      5⟩, by decide +kernel, front_one _ _ rfl rfl, by decide +kernel⟩,
    ⟨st (fun d => stage 5 (bt (fun b => { b with lists := [(2, [⟨5, 0, 0, 0⟩])] }) d)), ⟨5, 0, 0, 0⟩, by decide +kernel,
      front_one _ _ rfl rfl, by decide +kernel⟩,
    ⟨st (fun d => stage 5 (bt (fun b => { b with lists := [(2, [⟨5, 1, 0, 0⟩])] }) d)), ⟨5, 1, 0, 0⟩, by decide +kernel,
      front_one _ _ rfl rfl, by decide +kernel⟩,
    ⟨st (bt (fun b => { b with delaying := true, lists := [(2, [⟨5, 1, 0, 0⟩])] })), ⟨5, 1, 0, 0⟩, front_one _ _ rfl rfl,
      by decide +kernel⟩,
    ⟨st (bt (fun b => { b with polling := true, lists := [(2, [⟨4, 1, 0, 0⟩])] })), 2, [⟨4, 1, 0, 0⟩], [], by decide +kernel⟩,
    ⟨up, 0x1100, 5, 1, by decide +kernel⟩⟩

/-- States and operands that meet the hypotheses of `Obligations.ResetPulsesAndTheResetKey`, clause by clause. -/
theorem wit_ResetPulsesAndTheResetKey :
    (∃ _ : State, ∃ w : Nat, 1000 ≤ w) ∧
    (∃ _ : State, ∃ w : Nat, w < 100) ∧
    (∃ _ : State, ∃ w : Nat, 100 ≤ w ∧ w < 1000) ∧
    (∃ s : State, ∃ w : Nat, 1000 ≤ w ∧ s.dev.isOn Dom.hostp = true) ∧
    (∃ _ : State, ∃ v : Word, v ≠ 0x0000A5C3) ∧
    (∃ s : State, ∃ _ : Word, s.dev.isOn Dom.aon = true) := ⟨
    ⟨up, 1000, by decide +kernel⟩,
    ⟨up, 99, by decide +kernel⟩,
    ⟨up, 100, by decide +kernel⟩,
    ⟨up, 1000, by decide +kernel⟩,
    ⟨up, 0xA5C2, by decide +kernel⟩,
    ⟨up, 0, by decide +kernel⟩⟩

/-- States and operands that meet the hypotheses of `Obligations.TestPortHoldsTheDeviceInReset`, clause by clause. -/
theorem wit_TestPortHoldsTheDeviceInReset :
    (∃ _ : State, ∃ c : Instr, ∃ j : Nat, (c, j) ∈ [(Instr.extest, 0), (.clamp, 2), (.highz, 3)]) ∧
    (∃ s : State, ∃ c : Instr, ∃ j : Nat, (c, j) ∈ [(Instr.samplePreload, 1), (.bypass, 63), (.testLogicReset, 63)] ∧ s.held =
      true) ∧
    (∃ s : State, s.held = false) ∧
    (∃ s : State, s.held = false ∧ s.prot.jtag ≠ 63) ∧
    (∃ s : State, s.held = false ∧ s.prot.jtag = 63) ∧
    (∃ s : State, ∃ c : Instr, ∃ j : Nat, (c, j) ∈ [(Instr.extest, 0), (.clamp, 2)] ∧ s.prot.jtag ≠ j) := ⟨
    ⟨up, .clamp, 2, by decide +kernel⟩,
    ⟨{ up with prot := { Prot.reset with jtag := 3 } }, .bypass, 63, by decide +kernel⟩,
    ⟨up, by decide +kernel⟩,
    ⟨{ up with prot := { Prot.reset with jtag := 1 } }, by decide +kernel⟩,
    ⟨{ up with prot := { Prot.reset with jtag := 63 } }, by decide +kernel⟩,
    ⟨up, .extest, 0, by decide +kernel⟩⟩

/-- A state whose pool is well formed and whose step answers a next state. -/
theorem wit_TaskPoolStaysWellFormed : ∃ s t : State, PoolOk s.dev.alm ∧ step s = .next t :=
  ⟨{ st (pool [tk 5 1, tk 8191 2]) with pending := [.chrStop 0] }, _, by unfold PoolOk; decide +kernel, rfl⟩

/-- As the statement says it. -/
abbrev PostsAreAcceptedRefusedOrBad_hostWhy (d : Dev) (o : Offer) : Nat := refusal d (countOf (d.fld Reg.ALM_RESV 29 16) 8192)
  (o.atOnce d) o.typ o.flow

/-- States and operands that meet the hypotheses of `Obligations.PostsAreAcceptedRefusedOrBad`, clause by clause. -/
theorem wit_PostsAreAcceptedRefusedOrBad :
    (∃ s : State, ∃ v : Word, ∃ o : Offer, ∃ e : Dev, v.getLsbD 0 = true ∧ s.dev.isOn Dom.ctrl = true ∧ hostTurn s.dev = true ∧
      o = offerOf (stagedBytes s.dev) 4 ∧ e = roundReleases s.dev ∧ badReason o (hostFlowOk s.dev o.typ o.flow) ≠ 0) ∧
    (∃ s : State, ∃ v : Word, ∃ o : Offer, ∃ e : Dev, v.getLsbD 0 = true ∧ s.dev.isOn Dom.ctrl = true ∧ hostTurn s.dev = true ∧
      o = offerOf (stagedBytes s.dev) 4 ∧ e = roundReleases s.dev ∧ badReason o (hostFlowOk s.dev o.typ o.flow) = 0 ∧ forwards
      s.dev o.flow = false ∧ PostsAreAcceptedRefusedOrBad_hostWhy e o ≠ 0) ∧
    (∃ s : State, ∃ v : Word, ∃ o : Offer, ∃ e : Dev, v.getLsbD 0 = true ∧ s.dev.isOn Dom.ctrl = true ∧ hostTurn s.dev = true ∧
      o = offerOf (stagedBytes s.dev) 4 ∧ e = roundReleases s.dev ∧ badReason o (hostFlowOk s.dev o.typ o.flow) = 0 ∧ forwards
      s.dev o.flow = false ∧ PostsAreAcceptedRefusedOrBad_hostWhy e o = 0 ∧ PoolOk s.dev.alm) ∧
    (∃ _ : State, ∃ v : Word, v.getLsbD 0 = false) ∧
    (∃ s : State, ∃ im : List Word, ∃ o : Offer, ∃ e : Dev, s.dev.isOn Dom.ctrl = true ∧ s.dev.isOn Dom.mgmt = true ∧
      s.dev.mgt.mode = 2 ∧ im.length = 8 ∧ o = offerOf (im.flatMap (fun w => leBytes 4 w.toNat)) 6 ∧ badReason o (mgmtFlowOk
      o.typ o.flow) = 0 ∧ forwards s.dev o.flow = false ∧ e = roundReleases s.dev ∧ refusal e 0 (o.atOnce e) o.typ o.flow = 0 ∧
      PoolOk s.dev.alm) ∧
    (∃ s : State, ∃ im : List Word, ∃ o : Offer, ∃ e : Dev, s.dev.isOn Dom.ctrl = true ∧ s.dev.isOn Dom.mgmt = true ∧
      s.dev.mgt.mode = 2 ∧ im.length = 8 ∧ o = offerOf (im.flatMap (fun w => leBytes 4 w.toNat)) 6 ∧ badReason o (mgmtFlowOk
      o.typ o.flow) = 0 ∧ forwards s.dev o.flow = false ∧ e = roundReleases s.dev ∧ refusal e 0 (o.atOnce e) o.typ o.flow ≠ 0) := ⟨
    ⟨up, 1, offerOf (stagedBytes up.dev) 4, roundReleases (up).dev, by decide +kernel⟩,
    ⟨st (fun d => stage 9 (rg [(Reg.ALM_POST 0, 0x00400000 + BitVec.ofNat 32 Typ.user)] d)), 1, offerOf (stagedBytes (st (rg
      [(Reg.ALM_POST 0, 0x00400000 + BitVec.ofNat 32 Typ.user)])).dev) 4, roundReleases (st (fun d => stage 9 (rg
      [(Reg.ALM_POST 0, 0x00400000 + BitVec.ofNat 32 Typ.user)] d))).dev, by decide +kernel⟩,
    ⟨st (rg [(Reg.ALM_POST 0, 0x00400000 + BitVec.ofNat 32 Typ.user)]), 1, offerOf (stagedBytes (st (rg [(Reg.ALM_POST 0,
      0x00400000 + BitVec.ofNat 32 Typ.user)])).dev) 4, roundReleases (st (rg [(Reg.ALM_POST 0, 0x00400000 + BitVec.ofNat 32
      Typ.user)])).dev, by unfold PoolOk; decide +kernel⟩,
    ⟨up, 2, by decide +kernel⟩,
    ⟨up, [0x00FF0000 + BitVec.ofNat 32 Typ.user, 0, 0, 0, 0, 0, 0, 0], offerOf ([0x00FF0000 + BitVec.ofNat 32 Typ.user, 0, 0,
      0, 0, 0, 0, (0 : Word)].flatMap (fun w => leBytes 4 w.toNat)) 6, roundReleases (up).dev,
      by unfold PoolOk; decide +kernel⟩,
    ⟨st (stage 9), [0x00FF0000 + BitVec.ofNat 32 Typ.user, 0, 0, 0, 0, 0, 0, 0], offerOf ([0x00FF0000 + BitVec.ofNat 32
      Typ.user, 0, 0, 0, 0, 0, 0, (0 : Word)].flatMap (fun w => leBytes 4 w.toNat)) 6, roundReleases (st (stage 9)).dev,
      by decide +kernel⟩⟩

/-- States and operands that meet the hypotheses of `Obligations.CancelsRemoveMatchingTasks`, clause by clause. -/
theorem wit_CancelsRemoveMatchingTasks :
    (∃ s : State, ∃ _ : Word, ∃ e : Dev, s.dev.isOn Dom.ctrl = true ∧ hostTurn s.dev = true ∧ PoolOk s.dev.alm ∧ e =
      roundReleases s.dev) ∧
    (∃ s : State, ∃ v : Word, ∃ e : Dev, s.dev.isOn Dom.ctrl = true ∧ hostTurn s.dev = true ∧ PoolOk s.dev.alm ∧ v.getLsbD 0 =
      true ∧ e = roundReleases s.dev) ∧
    (∃ _ : State, ∃ v : Word, v.getLsbD 0 = false ∧ v.getLsbD 31 = false) ∧
    (∃ s : State, s.dev.isOn Dom.ctrl = true) := ⟨
    ⟨st (pool [tk 0 Typ.user, tk 8191 Typ.noteOn]), 0x00400007, roundReleases (st (pool [tk 0 Typ.user, tk 8191
      Typ.noteOn])).dev, by unfold PoolOk; decide +kernel⟩,
    ⟨st (pool [tk 0 Typ.user, tk 8191 Typ.noteOn]), 1, roundReleases (st (pool [tk 0 Typ.user, tk 8191 Typ.noteOn])).dev,
      by unfold PoolOk; decide +kernel⟩,
    ⟨up, 2, by decide +kernel⟩,
    ⟨st (al (fun a => { a with done := [⟨1, 5, 7⟩] })), by decide +kernel⟩⟩

/-- States and operands that meet the hypotheses of `Obligations.TasksMoveThroughTheirStates`, clause by clause. -/
theorem wit_TasksMoveThroughTheirStates :
    (∃ s : State, ∃ i : Nat, ∃ t : Task, ∃ u : Task, ∃ e : Dev, PoolOk s.dev.alm ∧ s.dev.isOn Dom.ctrl = true ∧ s.dev.task? i =
      some u ∧ u.ephDue s.dev = true ∧ e = releaseReturned 128 s.dev ∧ firstBy ephLt (e.alm.pool.filter (fun t => t.ephDue e &&
      canRelease e t)) = some t ∧ t.idx = i) ∧
    (∃ s : State, ∃ i : Nat, ∃ t : Task, PoolOk s.dev.alm ∧ s.dev.isOn Dom.ctrl = true ∧ s.dev.task? i = some t ∧ t.state =
      .slotted ∧ nextSlotted s.dev t.target = some t ∧ ((t.target = tgtMgmt → s.dev.isOn Dom.mgmt = true))) ∧
    (∃ s : State, ∃ i : Nat, ∃ t : Task, s.dev.task? i = some t ∧ t.target = tgtMgmt ∧ s.dev.isOn Dom.mgmt = false) ∧
    (∃ s : State, ∃ i : Nat, ∃ t : Task, s.dev.isOn Dom.ctrl = true ∧ s.dev.task? i = some t ∧ t.state = .active ∧ t.target ≠
      tgtMgmt) ∧
    (∃ s : State, ∃ i : Nat, ∃ t : Task, s.dev.isOn Dom.ctrl = true ∧ s.dev.isOn Dom.mgmt = true ∧ s.dev.mgt.mode = 2 ∧
      s.dev.task? i = some t ∧ t.state = .active ∧ t.target = tgtMgmt) ∧
    (∃ s : State, s.dev.isOn Dom.ctrl = true ∧ s.dev.alm.tickDue ≠ 0) ∧
    (∃ s : State, s.dev.isOn Dom.ctrl = true ∧ PoolOk s.dev.alm ∧ ((∀ tg, s.dev.slotted tg ≤ 2))) := ⟨
    ⟨st (pool [{ tk 5 Typ.user with state := .waiting }]), 5, { tk 5 Typ.user with state := .waiting },
      { tk 5 Typ.user with state := .waiting }, releaseReturned 128 (st (pool [{ tk 5 Typ.user with state := .waiting }])).dev,
      by unfold PoolOk; decide +kernel⟩,
    ⟨st (pool [{ tk 5 Typ.user with state := .slotted, target := tgtMgmt }]), 5,
      { tk 5 Typ.user with state := .slotted, target := tgtMgmt }, by unfold PoolOk; decide +kernel⟩,
    ⟨st (fun d => pool [{ tk 5 Typ.user with state := .slotted, target := tgtMgmt }] (off Dom.mgmt d)), 5,
      { tk 5 Typ.user with state := .slotted, target := tgtMgmt }, by decide +kernel⟩,
    ⟨st (pool [{ tk 5 Typ.noteOn with state := .active, target := tgtParlour }]), 5,
      { tk 5 Typ.noteOn with state := .active, target := tgtParlour }, by decide +kernel⟩,
    ⟨st (pool [{ tk 5 Typ.user with state := .active, target := tgtMgmt }]), 5,
      { tk 5 Typ.user with state := .active, target := tgtMgmt }, by decide +kernel⟩,
    ⟨st (al (fun a => { a with tickDue := 1, tick := 4294967295 })), by decide +kernel⟩,
    ⟨up, by decide +kernel, by unfold PoolOk; decide +kernel, fun _ => Nat.zero_le 2⟩⟩

/-- The rows of the statement. -/
abbrev CommitsFreeTheirTask_rows (i : Nat) : List (Instr × (Task → Bool)) :=
  [(.noteOn i, fun t => t.typ == Typ.noteOn), (.noteOff i, fun t => t.typ == Typ.noteOff),
   (.polyPressure i, fun t => t.typ == Typ.polyPressure), (.program i, fun t => t.typ == Typ.program),
   (.pitchBend i, fun t => t.typ == Typ.pitchBend), (.chanPressure i, fun t => t.typ == Typ.chanPressure),
   (.paramSet i, fun t => t.typ == Typ.paramSet), (.voiceKill i, fun t => t.typ == Typ.voiceKill),
   (.timerFire i, fun t => t.typ == Typ.timerFire), (.bankSelect i, isCc [0, 32]), (.sustain i, isCc [64]),
   (.sostenuto i, isCc [66]), (.allSoundOff i, isCc [120]), (.resetAllControllers i, isCc [121]), (.allNotesOff i, isCc [123]),
   (.cc i, fun t => t.typ == Typ.cc && !ownCcs.contains (pay8 t.payload 2))]

/-- A task that each row commits, and states that meet the other clauses. -/
theorem wit_CommitsFreeTheirTask :
    (∀ n, n < 16 → ((CommitsFreeTheirTask_rows 8191)[n]?).bind (fun r => commits (st (pool [cmKind n])).dev 8191 r.2) =
      some (cmKind n)) ∧
    (∃ (s : State) (i : Nat), ∃ r ∈ CommitsFreeTheirTask_rows i, commits s.dev i r.2 = none) ∧
    (∃ (s : State) (i : Nat) (t : Task), commits s.dev i (fun t => t.typ == Typ.user) = some t) ∧
    (∃ (s : State) (i : Nat) (t : Task), commits s.dev i (fun t => t.typ == Typ.sysexDone) = some t) ∧
    (∃ (s : State) (i : Nat), commits s.dev i (fun t => t.typ == Typ.user) = none ∧
      commits s.dev i (fun t => t.typ == Typ.sysexDone) = none) ∧
    (∃ (s : State) (i : Nat) (t : Task), commits s.dev i (fun t => t.typ == Typ.timerFire) = some t ∧ t.notify = false ∧
      s.dev.par.deferred = []) := ⟨
    by decide +kernel,
    ⟨up, 5, _, .head _, by decide +kernel⟩,
    ⟨st (pool [cm 5 Typ.user [3, 0, 0, 0, 9]]), 5, cm 5 Typ.user [3, 0, 0, 0, 9], by decide +kernel⟩,
    ⟨st (pool [cm 5 Typ.sysexDone []]), 5, cm 5 Typ.sysexDone [], by decide +kernel⟩,
    ⟨up, 5, by decide +kernel⟩,
    ⟨st (pool [{ cm 5 Typ.timerFire [] with flags := 0 }]), 5, { cm 5 Typ.timerFire [] with flags := 0 }, by decide +kernel⟩⟩

/-- States and operands that meet the hypotheses of `Obligations.ControllersReachPartRecords`, clause by clause. -/
theorem wit_ControllersReachPartRecords :
    (∃ s : State, ∃ e : Dev, ∃ i : Nat, ∃ t : Task, e = deferredFirst s.dev ∧ commits s.dev i (fun t => t.typ == Typ.cc &&
      !ownCcs.contains (pay8 t.payload 2)) = some t ∧ pay8 t.payload 2 < 128) ∧
    (∃ s : State, ∃ e : Dev, ∃ i : Nat, ∃ t : Task, e = deferredFirst s.dev ∧ commits s.dev i (isCc [0, 32]) = some t) ∧
    (∃ s : State, ∃ e : Dev, ∃ i : Nat, ∃ t : Task, e = deferredFirst s.dev ∧ commits s.dev i (isCc [64]) = some t) ∧
    (∃ s : State, ∃ e : Dev, ∃ i : Nat, ∃ t : Task, e = deferredFirst s.dev ∧ commits s.dev i (isCc [66]) = some t) ∧
    (∃ s : State, ∃ e : Dev, ∃ i : Nat, ∃ t : Task, e = deferredFirst s.dev ∧ commits s.dev i (isCc [121]) = some t) := ⟨
    ⟨st (fun d => pool [cm 5 Typ.cc [0, 0, 127, 0, 100]] (part 31 1 0 d)), deferredFirst (st (fun d => pool [cm 5 Typ.cc [0, 0,
      127, 0, 100]] (part 31 1 0 d))).dev, 5, cm 5 Typ.cc [0, 0, 127, 0, 100], rfl, by decide +kernel⟩,
    ⟨st (fun d => pool [cm 5 Typ.cc [0, 0, 32, 0, 100]] (part 31 1 0 d)), deferredFirst (st (fun d => pool [cm 5 Typ.cc [0, 0,
      32, 0, 100]] (part 31 1 0 d))).dev, 5, cm 5 Typ.cc [0, 0, 32, 0, 100], rfl, by decide +kernel⟩,
    ⟨st (fun d => pool [cm 5 Typ.cc [0, 0, 64, 0, 64]] (part 31 9 0 d)), deferredFirst (st (fun d => pool [cm 5 Typ.cc [0, 0,
      64, 0, 64]] (part 31 9 0 d))).dev, 5, cm 5 Typ.cc [0, 0, 64, 0, 64], rfl, by decide +kernel⟩,
    ⟨st (fun d => pool [cm 5 Typ.cc [0, 0, 66, 0, 64]] (part 31 9 0 d)), deferredFirst (st (fun d => pool [cm 5 Typ.cc [0, 0,
      66, 0, 64]] (part 31 9 0 d))).dev, 5, cm 5 Typ.cc [0, 0, 66, 0, 64], rfl, by decide +kernel⟩,
    ⟨st (fun d => pool [cm 5 Typ.cc [0, 0, 121, 0, 0]] (part 0 9 0 d)), deferredFirst (st (fun d => pool [cm 5 Typ.cc [0, 0,
      121, 0, 0]] (part 0 9 0 d))).dev, 5, cm 5 Typ.cc [0, 0, 121, 0, 0], rfl, by decide +kernel⟩⟩

/-- States and operands that meet the hypotheses of `Obligations.PartAndVoiceValuesFollowTheirTasks`, clause by clause. -/
theorem wit_PartAndVoiceValuesFollowTheirTasks :
    (∃ s : State, ∃ e : Dev, ∃ i : Nat, ∃ t : Task, e = deferredFirst s.dev ∧ commits s.dev i (fun t => t.typ == Typ.program) =
      some t) ∧
    (∃ s : State, ∃ e : Dev, ∃ i : Nat, ∃ t : Task, e = deferredFirst s.dev ∧ commits s.dev i (fun t => t.typ == Typ.pitchBend)
      = some t) ∧
    (∃ s : State, ∃ e : Dev, ∃ i : Nat, ∃ t : Task, e = deferredFirst s.dev ∧ commits s.dev i (fun t => t.typ ==
      Typ.chanPressure) = some t) ∧
    (∃ s : State, ∃ e : Dev, ∃ i : Nat, ∃ t : Task, e = deferredFirst s.dev ∧ commits s.dev i (fun t => t.typ ==
      Typ.polyPressure) = some t) ∧
    (∃ s : State, ∃ e : Dev, ∃ i : Nat, ∃ t : Task, ∃ w : Word, e = deferredFirst s.dev ∧ commits s.dev i (fun t => t.typ ==
      Typ.paramSet) = some t ∧ pay32 t.payload 0 % 4 = 0 ∧ pay32 t.payload 0 < 0x100000 ∧ psReserved (pay32 t.payload 0) =
      false ∧ pay32 t.payload 8 ≠ 0 ∧ w = Word.merge (BitVec.ofNat 32 (e.ps32 (pay32 t.payload 0))) (BitVec.ofNat 32 (pay32
      t.payload 4)) (BitVec.ofNat 32 (pay32 t.payload 8)) ∧ partWordBad (pay32 t.payload 0) w (BitVec.ofNat 32 (pay32 t.payload
      8)) = false) ∧
    (∃ s : State, ∃ e : Dev, ∃ i : Nat, ∃ t : Task, ∃ w : Word, e = deferredFirst s.dev ∧ commits s.dev i (fun t => t.typ ==
      Typ.paramSet) = some t ∧ pay32 t.payload 0 % 4 = 0 ∧ pay32 t.payload 0 < 0x100000 ∧ psReserved (pay32 t.payload 0) =
      false ∧ pay32 t.payload 8 ≠ 0 ∧ w = Word.merge (BitVec.ofNat 32 (e.ps32 (pay32 t.payload 0))) (BitVec.ofNat 32 (pay32
      t.payload 4)) (BitVec.ofNat 32 (pay32 t.payload 8)) ∧ partWordBad (pay32 t.payload 0) w (BitVec.ofNat 32 (pay32 t.payload
      8)) = true) ∧
    (∃ s : State, ∃ e : Dev, ∃ i : Nat, ∃ t : Task, e = deferredFirst s.dev ∧ commits s.dev i (fun t => t.typ == Typ.paramSet)
      = some t ∧ pay32 t.payload 8 = 0) := ⟨
    ⟨st (fun d => pool [cm 5 Typ.program [0, 0, 127, 0, 0]] (part 0 9 0 d)), deferredFirst (st (fun d => pool [cm 5 Typ.program
      [0, 0, 127, 0, 0]] (part 0 9 0 d))).dev, 5, cm 5 Typ.program [0, 0, 127, 0, 0], rfl, by decide +kernel⟩,
    ⟨st (fun d => pool [cm 5 Typ.pitchBend [0, 0, 0, 0, 255, 63]] (part 0 9 0 d)), deferredFirst (st (fun d => pool [cm 5
      Typ.pitchBend [0, 0, 0, 0, 255, 63]] (part 0 9 0 d))).dev, 5, cm 5 Typ.pitchBend [0, 0, 0, 0, 255, 63], rfl,
      by decide +kernel⟩,
    ⟨st (fun d => pool [cm 5 Typ.chanPressure [0, 0, 127]] (part 0 9 0 d)), deferredFirst (st (fun d => pool [cm 5
      Typ.chanPressure [0, 0, 127]] (part 0 9 0 d))).dev, 5, cm 5 Typ.chanPressure [0, 0, 127], rfl, by decide +kernel⟩,
    ⟨st (fun d => pool [cm 5 Typ.polyPressure [0, 0, 60, 127]] (voice 0 .sounding 0 60 (part 0 9 0 d))), deferredFirst (st (fun
      d => pool [cm 5 Typ.polyPressure [0, 0, 60, 127]] (voice 0 .sounding 0 60 (part 0 9 0 d)))).dev, 5, cm 5 Typ.polyPressure
      [0, 0, 60, 127], rfl, by decide +kernel⟩,
    ⟨st (pool [cm 5 Typ.paramSet [0xFC, 0xFF, 0x0F, 0, 1, 2, 3, 4, 255, 0, 0, 0]]), deferredFirst (st (pool [cm 5 Typ.paramSet
      [0xFC, 0xFF, 0x0F, 0, 1, 2, 3, 4, 255, 0, 0, 0]])).dev, 5, cm 5 Typ.paramSet [0xFC, 0xFF, 0x0F, 0, 1, 2, 3, 4, 255, 0, 0,
      0], 1, rfl, by decide +kernel⟩,
    ⟨st (pool [cm 5 Typ.paramSet [0x14, 0, 8, 0, 0, 2, 0, 0, 0, 255, 0, 0]]), deferredFirst (st (pool [cm 5 Typ.paramSet [0x14,
      0, 8, 0, 0, 2, 0, 0, 0, 255, 0, 0]])).dev, 5, cm 5 Typ.paramSet [0x14, 0, 8, 0, 0, 2, 0, 0, 0, 255, 0, 0], 0x200, rfl,
      by decide +kernel⟩,
    ⟨st (pool [cm 5 Typ.paramSet [0xFC, 0xFF, 0x0F, 0, 1, 2, 3, 4, 0, 0, 0, 0]]), deferredFirst (st (pool [cm 5 Typ.paramSet
      [0xFC, 0xFF, 0x0F, 0, 1, 2, 3, 4, 0, 0, 0, 0]])).dev, 5, cm 5 Typ.paramSet [0xFC, 0xFF, 0x0F, 0, 1, 2, 3, 4, 0, 0, 0, 0],
      rfl, by decide +kernel⟩⟩

/-- States and operands that meet the hypotheses of `Obligations.NotesStartAndEndVoices`, clause by clause. -/
theorem wit_NotesStartAndEndVoices :
    (∃ s : State, ∃ i : Nat, ∃ t : Task, ∃ p : Nat, ∃ v : Nat, commits s.dev i (fun t => t.typ == Typ.noteOn) = some t ∧
      s.dev.par.deferred = [] ∧ t.chosen = [] ∧ noteParts s.dev t.payload = ([p], 0) ∧ playsIn s.dev [p] (pay8 t.payload 2) =
      [p] ∧ s.dev.par.armed < 32 ∧ s.dev.inChain = false ∧ (readPart s.dev p).mode = 0 ∧ (readPart s.dev p).unison = 1 ∧
      (stealPlan s.dev p 1).1 = 0 ∧ v < s.dev.par.voices.length ∧ v < 256 ∧ freeSlot s.dev (chosenElsewhere s.dev (some t.idx))
      = some v ∧ 0 < spareSlots s.dev) ∧
    (∃ s : State, ∃ i : Nat, ∃ t : Task, commits s.dev i (fun t => t.typ == Typ.noteOn) = some t ∧ s.dev.par.deferred = [] ∧
      (noteParts s.dev t.payload).1 = [] ∧ t.notify = true ∧ s.dev.alm.done.length < 64) ∧
    (∃ s : State, ∃ e : Dev, ∃ i : Nat, ∃ t : Task, ∃ p : Nat, ∃ k : Nat, ∃ v : Nat, e = deferredFirst s.dev ∧ commits s.dev i
      (fun t => t.typ == Typ.noteOff) = some t ∧ (matchParts e (fun c => c.hears (pay8 t.payload 0) (pay8 t.payload 1))).1 =
      [p] ∧ (readPart e p).mode = 0 ∧ (readPart e p).keyOf (pay8 t.payload 2) = some k ∧ v < e.par.voices.length ∧ v ∈
      partVoices e p ∧ (e.voice v).state = .sounding ∧ (e.voice v).key = k ∧ memberOfVoice e v = (readPart e p).memberOf (pay8
      t.payload 1) ∧ pedals e p = (false, false)) ∧
    (∃ s : State, ∃ e : Dev, ∃ i : Nat, ∃ t : Task, ∃ p : Nat, ∃ v : Nat, e = deferredFirst s.dev ∧ commits s.dev i (isCc
      [120]) = some t ∧ (matchParts e (fun c => c.hears (pay8 t.payload 0) (pay8 t.payload 1))).1 = [p] ∧ v <
      e.par.voices.length ∧ v ∈ partVoices e p) ∧
    (∃ s : State, ∃ e : Dev, ∃ i : Nat, ∃ t : Task, ∃ p : Nat, ∃ v : Nat, e = deferredFirst s.dev ∧ commits s.dev i (isCc
      [123]) = some t ∧ (matchParts e (fun c => c.hears (pay8 t.payload 0) (pay8 t.payload 1))).1 = [p] ∧ v <
      e.par.voices.length ∧ v ∈ partVoices e p ∧ pedals e p = (false, false)) ∧
    (∃ s : State, ∃ e : Dev, ∃ i : Nat, ∃ t : Task, ∃ v : Nat, e = deferredFirst s.dev ∧ commits s.dev i (fun t => t.typ ==
      Typ.voiceKill) = some t ∧ currentSlot e (pay16 t.payload 0) = some v ∧ v < e.par.voices.length) ∧
    (∃ s : State, ∃ e : Dev, ∃ i : Nat, ∃ t : Task, e = deferredFirst s.dev ∧ commits s.dev i (fun t => t.typ == Typ.voiceKill)
      = some t ∧ currentSlot e (pay16 t.payload 0) = none) := ⟨
    ⟨st (fun d => pool [cm 5 Typ.noteOn [0, 0, 127, 127]] (part 0 9 0 (pa (fun x =>
      { x with voices := List.replicate 37 taken ++ Voice.reset :: List.replicate 218 taken }) d))), 5, cm 5 Typ.noteOn [0, 0,
      127, 127], 0, 37, by decide +kernel⟩,
    ⟨st (pool [cm 5 Typ.noteOn [0, 0, 127, 127]]), 5, cm 5 Typ.noteOn [0, 0, 127, 127], by decide +kernel⟩,
    ⟨st (fun d => pool [cm 5 Typ.noteOff [0, 0, 60, 64]] (voice 255 .sounding 0 60 (part 0 9 0 d))), deferredFirst (st (fun d
      => pool [cm 5 Typ.noteOff [0, 0, 60, 64]] (voice 255 .sounding 0 60 (part 0 9 0 d)))).dev, 5, cm 5 Typ.noteOff [0, 0, 60,
      64], 0, 60, 255, rfl, by decide +kernel⟩,
    ⟨st (fun d => pool [cm 5 Typ.cc [0, 0, 120]] (voice 255 .sounding 0 60 (part 0 9 0 d))), deferredFirst (st (fun d => pool
      [cm 5 Typ.cc [0, 0, 120]] (voice 255 .sounding 0 60 (part 0 9 0 d)))).dev, 5, cm 5 Typ.cc [0, 0, 120], 0, 255, rfl,
      by decide +kernel⟩,
    ⟨st (fun d => pool [cm 5 Typ.cc [0, 0, 123]] (voice 0 .arming 0 60 (part 0 9 0 d))), deferredFirst (st (fun d => pool [cm 5
      Typ.cc [0, 0, 123]] (voice 0 .arming 0 60 (part 0 9 0 d)))).dev, 5, cm 5 Typ.cc [0, 0, 123], 0, 0, rfl,
      by decide +kernel⟩,
    ⟨st (fun d => pool [cm 5 Typ.voiceKill [1, 0, 1]] (voice 0 .sounding 0 60 (part 0 9 0 d))), deferredFirst (st (fun d =>
      pool [cm 5 Typ.voiceKill [1, 0, 1]] (voice 0 .sounding 0 60 (part 0 9 0 d)))).dev, 5, cm 5 Typ.voiceKill [1, 0, 1], 0,
      rfl, by decide +kernel⟩,
    ⟨st (pool [cm 5 Typ.voiceKill [1, 0, 1]]), deferredFirst (st (pool [cm 5 Typ.voiceKill [1, 0, 1]])).dev, 5, cm 5
      Typ.voiceKill [1, 0, 1], rfl, by decide +kernel⟩⟩

/-- States and operands that meet the hypotheses of `Obligations.VoicesMoveThroughTheirStates`, clause by clause. -/
theorem wit_VoicesMoveThroughTheirStates :
    (∃ s : State, ∃ v : Nat, v < s.dev.par.voices.length ∧ (s.dev.voice v).state = .arming ∧ s.dev.isOn Dom.ctrl = true ∧
      efReached s.dev.now (efAdd (s.dev.voice v).start 4) = true ∧ (s.dev.voice v).offPending = false) ∧
    (∃ s : State, ∃ v : Nat, v < s.dev.par.voices.length ∧ (s.dev.voice v).state = .arming ∧ s.dev.isOn Dom.ctrl = true ∧
      efReached s.dev.now (efAdd (s.dev.voice v).start 4) = true ∧ (s.dev.voice v).offPending = true ∧ pedals s.dev
      (s.dev.voice v).part = (false, false)) ∧
    (∃ s : State, ∃ v : Nat, v < 256 ∧ v < s.dev.par.voices.length ∧ (s.dev.voice v).state = .stealing ∧ efReached s.dev.now
      (efAdd (s.dev.voice v).fadeAt (s.dev.voice v).fadeLen) = true) ∧
    (∃ s : State, ∃ v : Nat, v < 256 ∧ v < s.dev.par.voices.length ∧ (s.dev.voice v).state = .quench ∧ efReached s.dev.now
      (efAdd (s.dev.voice v).quenchAt 3) = true) ∧
    (∃ s : State, ∃ v : Nat, ∃ z : Nat, v < 256 ∧ v < s.dev.par.voices.length ∧ (s.dev.vaud v).zero = some z ∧ ((s.dev.voice
      v).state = .releasing ∨ (s.dev.voice v).state = .sounding) ∧ efReached s.dev.now (efAdd z 6) = true ∧ reuseChosen s.dev v
      = false ∧ notesSettled s.dev = true) ∧
    (∃ s : State, ∃ v : Nat, ∃ e : Nat, v < 256 ∧ v < s.dev.par.voices.length ∧ (s.dev.vaud v).endAt = some e ∧ (s.dev.voice
      v).state = .sounding ∧ efReached s.dev.now (efAdd e 1) = true) ∧
    (∃ s : State, ∃ v : Nat, (s.dev.voice v).state = .free) ∧
    (∃ s : State, ∃ x : Deferred, ∃ r : List Deferred, s.dev.acceptNow = true ∧ s.dev.isOn Dom.ctrl = true ∧ s.dev.par.deferred
      = x :: r ∧ x.since ≠ s.dev.now ∧ x.tried ≠ some s.dev.now ∧ s.dev.par.armed + (playsIn s.dev (noteParts s.dev
      x.payload).1 (pay8 x.payload 2)).length ≤ 32 ∧ s.dev.isMaster = false) ∧
    (∃ s : State, ∃ x : Deferred, ∃ r : List Deferred, s.dev.acceptNow = true ∧ s.dev.isOn Dom.ctrl = true ∧ s.dev.par.deferred
      = x :: r ∧ x.since ≠ s.dev.now ∧ x.tried ≠ some s.dev.now ∧ 32 < s.dev.par.armed + (playsIn s.dev (noteParts s.dev
      x.payload).1 (pay8 x.payload 2)).length) := ⟨
    ⟨st (fun d => vo 255 (fun x => { x with start := 996 }) (voice 255 .arming 0 60 d)), 255, by decide +kernel⟩,
    ⟨st (fun d => vo 0 (fun x => { x with offPending := true }) (voice 0 .arming 0 60 d)), 0, by decide +kernel⟩,
    ⟨st (fun d => vo 0 (fun x => { x with fadeAt := 990, fadeLen := 10 }) (voice 0 .stealing 0 60 d)), 0, by decide +kernel⟩,
    ⟨st (fun d => vo 0 (fun x => { x with quenchAt := 997 }) (voice 0 .quench 0 60 d)), 0, by decide +kernel⟩,
    ⟨st (fun d => (voice 0 .releasing 0 60 d).modVaud 0 (fun x => { x with zero := some 994 })), 0, 994, by decide +kernel⟩,
    ⟨st (fun d => (voice 0 .sounding 0 60 d).modVaud 0 (fun x => { x with endAt := some 999 })), 0, 999, by decide +kernel⟩,
    ⟨up, 0, by decide +kernel⟩,
    ⟨st (pa (fun x => { x with deferred := [⟨1, 64, pl [0, 0, 60, 100], 999, none, 0, none⟩] })), ⟨1, 64, pl [0, 0, 60, 100],
      999, none, 0, none⟩, [], by decide +kernel⟩,
    ⟨st (fun d => pa (fun x => { x with armed := 32, deferred := [⟨1, 64, pl [0, 0, 60, 100], 999, none, 0, none⟩] }) (part 0 9
      0 d)), ⟨1, 64, pl [0, 0, 60, 100], 999, none, 0, none⟩, [], by decide +kernel⟩⟩

/-- States and operands that meet the hypotheses of `Obligations.CacheLinesAndWindowWordsFill`, clause by clause. -/
theorem wit_CacheLinesAndWindowWordsFill :
    (∃ s : State, ∃ c : Nat, ∃ line : Nat, ∃ r : Req, c < 16 ∧ c < s.dev.aud.clus.length ∧ s.dev.cluOn c = true ∧ s.dev.isOn
      Dom.memc = true ∧ s.dev.mem.dramReady = true ∧ (s.dev.clu c).flight.find? (fun q => q.line == line) = some r ∧ fillable
      s.dev c line = true ∧ servedNext s.dev c r = true ∧ fillBorrowed s.dev c = false) ∧
    (∃ s : State, ∃ c : Nat, ∃ line : Nat, ∃ r : Req, c < 16 ∧ c < s.dev.aud.clus.length ∧ s.dev.cluOn c = true ∧ s.dev.isOn
      Dom.memc = true ∧ s.dev.mem.dramReady = true ∧ (s.dev.clu c).flight.find? (fun q => q.line == line) = some r ∧ fillable
      s.dev c line = true ∧ servedNext s.dev c r = true ∧ fillBorrowed s.dev c = true) ∧
    (∃ s : State, ∃ c : Nat, ∃ _ : Nat, (s.dev.clu c).flight = []) ∧
    (∃ s : State, ∃ c : Nat, ∃ v : Word, c < 16 ∧ c < s.dev.aud.clus.length ∧ s.dev.cluOn c = true ∧ v.getLsbD 0 = true ∧
      hostTurn s.dev = true) ∧
    (∃ s : State, ∃ c : Nat, ∃ line : Nat, c < 16 ∧ line ∈ (s.dev.clu c).inval ∧ pinned s.dev c line = false) ∧
    (∃ s : State, ∃ c : Nat, ∃ line : Nat, pinned s.dev c line = true) ∧
    (∃ s : State, s.dev.isOn Dom.memc = true ∧ s.dev.mem.dramReady = true ∧ s.dev.win.dir = false ∧ s.dev.win.rdEnd = false ∧
      s.dev.win.rd.length ≤ 48 ∧ s.dev.win.rdAddr + 16 * s.dev.winStep ≤ waveSize ∧ hostLane s.dev (linesOf s.dev.win.rdAddr
      (16 * s.dev.winStep)) = true) ∧
    (∃ d : Dev, ∃ n : Nat, 0 < n ∧ d.mem.laneHost.used + n ≤ 9) ∧
    (∃ d : Dev, ∃ n : Nat, 0 < n ∧ d.mem.laneHost.used + n ≤ 9) ∧
    (∃ d : Dev, ∃ n : Nat, 0 < n ∧ d.mem.laneHost.used + n ≤ 9 ∧ d.mem.laneHost.part = 0) ∧
    (∃ d : Dev, ∃ n : Nat, 0 < n ∧ n ≤ 9 ∧ d.mem.laneHost.part = 0 ∧ 9 < d.mem.laneHost.used + n ∧ linesRemain d = false) ∧
    (∃ s : State, 48 < s.dev.win.rd.length) ∧
    (∃ s : State, ∃ a : Nat, ∃ v : Word, ∃ be : BitVec 4, ∃ pack : Bool, ∃ r : List (Nat × Word × BitVec 4 × Bool), s.dev.isOn
      Dom.memc = true ∧ s.dev.mem.dramReady = true ∧ s.dev.win.wr = (a, v, be, pack) :: r ∧ hostLane s.dev (linesOf a (if pack
      then 3 else 4)) = true) ∧
    (∃ s : State, s.dev.win.wr = []) ∧
    (∃ s : State, s.dev.isOn Dom.memc = true) := ⟨
    ⟨st (cl 15 (fun x => { x with flight := [⟨64, 2, none, 0, 3⟩] })), 15, 64, ⟨64, 2, none, 0, 3⟩, by decide +kernel⟩,
    ⟨st (fun d => patr (fun p => { p with borrowed := true, bank := 15, region := Config.free d.fresh % 256 }) (cl 15 (fun x =>
      { x with flight := [⟨64, 2, none, 0, 3⟩] }) d)), 15, 64, ⟨64, 2, none, 0, 3⟩, by decide +kernel, by decide +kernel,
      by decide +kernel, by decide +kernel, by decide +kernel, by decide +kernel, by decide +kernel, by decide +kernel,
      beq_self_eq_true (Config.free up.dev.fresh % 256)⟩,
    ⟨up, 15, 64, by decide +kernel⟩,
    ⟨st (cl 15 (fun x => { x with lines := [(0, []), (64, [])] })), 15, 1, by decide +kernel⟩,
    ⟨st (cl 15 (fun x => { x with lines := [(0, []), (64, [])], inval := [64] })), 15, 64, by decide +kernel⟩,
    ⟨st (fun d => (voice 255 .arming 0 60 (cl 15 (fun x => { x with lines := [(0, []), (64, [])], inval := [64] }) d)).modVaud
      255 (fun x => { x with heads := [64] })), 15, 64, by decide +kernel⟩,
    ⟨st (wi (fun w => { w with rdEnd := false, rdAddr := waveSize - 64, rd := List.replicate 48 7 })), by decide +kernel⟩,
    ⟨up.dev, 9, by decide +kernel⟩,
    ⟨up.dev, 3, by decide +kernel⟩,
    ⟨up.dev, 3, by decide +kernel⟩,
    ⟨(st (fun d => cl 15 (fun x => { x with flight := [⟨64, 2, none, 0, 3⟩] })
      { d with mem := { d.mem with laneHost := ⟨9, 0⟩ } })).dev, 1, by decide +kernel⟩,
    ⟨st (wi (fun w => { w with rd := List.replicate 49 7 })), by decide +kernel⟩,
    ⟨st (wi (fun w => { w with dir := true, wr := [(waveSize - 4, 0x01020304, 5, false)] })), waveSize - 4, 0x01020304, 5,
      false, [], by decide +kernel⟩,
    ⟨up, by decide +kernel⟩,
    ⟨up, by decide +kernel⟩⟩

/-- States and operands that meet the hypotheses of `Obligations.EnvelopeLfoAndCellEvents`, clause by clause. -/
theorem wit_EnvelopeLfoAndCellEvents :
    (∃ s : State, ∃ v : Nat, ∃ e : Nat, ∃ t : Nat × Nat × Nat, (s.dev.vaud v).segEnds.find? (fun t => t.2.1 == e && efReached
      s.dev.now t.1) = some t) ∧
    (∃ s : State, ∃ v : Nat, ∃ _ : Nat, (s.dev.vaud v).segEnds = []) ∧
    (∃ s : State, ∃ _ : Word, s.dev.isOn Dom.ctrl = true ∧ hostTurn s.dev = true ∧ s.dev.now + 8 < efWrap) ∧
    (∃ s : State, ∃ v : Nat, v < 256 ∧ v < s.dev.aud.tiles.length) ∧
    (∃ s : State, ∃ v : Nat, v < 256 ∧ v < s.dev.aud.tiles.length ∧ 0 < (s.dev.tile v).ovlDue ∧ s.dev.cluOn (cluOf v) = true) ∧
    (∃ x : Tile, ∃ q : Int, ∃ _ : Bool, (q = 4 ∨ q = -4) ∧ x.run = 63 ∧ x.declared = false) ∧
    (∃ x : Tile, ∃ q : Int, ∃ r : Bool, (q = 4 ∨ q = -4) ∧ x.run = 63 ∧ x.declared = false ∧ r = true) ∧
    (∃ x : Tile, ∃ q : Int, ∃ r : Bool, (q = 4 ∨ q = -4) ∧ x.run = 63 ∧ x.declared = false ∧ r = true) ∧
    (∃ x : Tile, ∃ q : Int, ∃ r : Bool, (q = 4 ∨ q = -4) ∧ x.run = 63 ∧ x.declared = false ∧ r = false) ∧
    (∃ s : State, ∃ v : Nat, (s.dev.tile v).ovlDue = 0) ∧
    (∃ s : State, ∃ v : Nat, v < 256 ∧ s.dev.cluOn (cluOf v) = true) := ⟨
    ⟨st (fun d => d.modVaud 255 (fun x => { x with segEnds := [(1000, 3, 1)] })), 255, 3, (1000, 3, 1), by decide +kernel⟩,
    ⟨up, 255, 3, by decide +kernel⟩,
    ⟨up, 0xFFFF8000, by decide +kernel⟩,
    ⟨st (ti 255 (fun x => { x with closed := true })), 255, by decide +kernel⟩,
    ⟨st (ti 255 (fun x => { x with ovlDue := 1 })), 255, by decide +kernel⟩,
    ⟨{ Tile.reset with run := 63 }, 4, true, by decide +kernel⟩,
    ⟨{ Tile.reset with run := 63 }, 4, true, by decide +kernel⟩,
    ⟨{ Tile.reset with run := 63 }, -4, true, by decide +kernel⟩,
    ⟨{ Tile.reset with run := 63 }, -4, false, by decide +kernel⟩,
    ⟨up, 255, by decide +kernel⟩,
    ⟨up, 255, by decide +kernel⟩⟩

/-- States and operands that meet the hypotheses of `Obligations.SkimmerBanksSwapAndFade`, clause by clause. -/
theorem wit_SkimmerBanksSwapAndFade :
    (∃ s : State, ∃ c : Nat, ∃ v : Word, c < 16 ∧ c < s.dev.aud.clus.length ∧ s.dev.cluOn c = true ∧ v.getLsbD 16 = true ∧
      v.getLsbD 17 = false ∧ hostTurn s.dev = true) ∧
    (∃ s : State, ∃ c : Nat, ∃ v : Word, c < 16 ∧ s.dev.aud.clus.length = 16 ∧ s.dev.cluOn c = true ∧ v.getLsbD 17 = true ∧
      hostTurn s.dev = true) ∧
    (∃ s : State, ∃ c : Nat, ∃ b : Bool, c < 16 ∧ c < s.dev.aud.clus.length ∧ s.dev.active c = true ∧ s.dev.frame.audio = true
      ∧ (s.dev.clu c).wasActive = true ∧ swapReady s.dev c = some b) ∧
    (∃ s : State, ∃ c : Nat, (swapReady s.dev c = none ∨ s.dev.active c = false ∨ s.dev.frame.audio = false ∨ (s.dev.clu
      c).wasActive = false)) ∧
    (∃ s : State, ∃ c : Nat, c < 16 ∧ (s.dev.clu c).fade.isSome = true ∧ fading s.dev c = false) ∧
    (∃ s : State, ∃ c : Nat, fading s.dev c = true) ∧
    (∃ s : State, ∃ c : Nat, ∃ i : Nat, ∃ bank : Bool, ∃ _ : Word, c < 16 ∧ i < 32 ∧ s.dev.cluOn c = true ∧ hostTurn s.dev =
      true ∧ bankLive s.dev c bank = false) ∧
    (∃ s : State, ∃ c : Nat, ∃ i : Nat, ∃ bank : Bool, ∃ _ : Word, c < 16 ∧ i < 32 ∧ s.dev.cluOn c = true ∧ hostTurn s.dev =
      true ∧ bankLive s.dev c bank = true) := ⟨
    ⟨up, 15, 0x10000, by decide +kernel⟩,
    ⟨st (cl 15 (fun x => { x with swapAt := some 1000 })), 0, 0x30000, by decide +kernel⟩,
    ⟨st (cl 15 (fun x => { x with swapAt := some 1000, wasActive := true })), 15, false, by decide +kernel⟩,
    ⟨st (cl 15 (fun x => { x with swapAt := some 1001 })), 15, by decide +kernel⟩,
    ⟨st (cl 15 (fun x => { x with fade := some ⟨64, 6, false⟩ })), 15, by decide +kernel⟩,
    ⟨st (cl 15 (fun x => { x with fade := some ⟨63, 6, false⟩ })), 15, by decide +kernel⟩,
    ⟨up, 15, 31, true, 0xFFFFFFFF, by decide +kernel⟩,
    ⟨up, 15, 31, false, 0xFFFFFFFF, by decide +kernel⟩⟩

/-- States and operands that meet the hypotheses of `Obligations.SkimmerResetsClearTheFilters`, clause by clause. -/
theorem wit_SkimmerResetsClearTheFilters :
    (∃ s : State, ∃ c : Nat, ∃ _ : Word, c < 16 ∧ c < s.dev.aud.clus.length ∧ s.dev.cluOn c = true ∧ hostTurn s.dev = true) ∧
    (∃ s : State, ∃ c : Nat, ∃ r : Nat, c < 16 ∧ s.dev.aud.clus.length = 16 ∧ s.dev.aud.tiles.length = 256 ∧ s.dev.cluOn c =
      true ∧ s.dev.timerRuns = true ∧ r ∈ (s.dev.clu c).resets ∧ efReached s.dev.now r = true) ∧
    (∃ s : State, ∃ c : Nat, (s.dev.clu c).resets = []) ∧
    (∃ s : State, ∃ c : Nat, c < 16 ∧ (s.dev.clu c).valid = false ∧ (s.dev.clu c).zeroAt.isSome = true ∧ zeroPeriod s.dev c =
      false) ∧
    (∃ s : State, ∃ c : Nat, zeroPeriod s.dev c = true) := ⟨
    ⟨up, 15, 0x40000, by decide +kernel⟩,
    ⟨st (cl 15 (fun x => { x with resets := [1000] })), 15, 1000, by decide +kernel⟩,
    ⟨up, 15, by decide +kernel⟩,
    ⟨st (cl 15 (fun x => { x with valid := false, zeroAt := some 988 })), 15, by decide +kernel⟩,
    ⟨st (cl 15 (fun x => { x with valid := false, zeroAt := some 989 })), 15, by decide +kernel⟩⟩

/-- States and operands that meet the hypotheses of `Obligations.CalibrationRunsOnFreeCells`, clause by clause. -/
theorem wit_CalibrationRunsOnFreeCells :
    (∃ s : State, ∃ v : Nat, ∃ r : CalRun, calRunOf s.dev v = some r ∧ s.dev.timerRuns = true ∧ 2 ≤ r.step ∧ r.step ≤ 5 ∧
      efReached s.dev.now r.start = true ∧ r.settle + r.window + 4 ≤ efSince s.dev.now r.start) ∧
    (∃ s : State, ∃ v : Nat, calRunOf s.dev v = none) ∧
    (∃ s : State, ∃ c : Nat, c < 16 ∧ c < s.dev.mgt.passed.length ∧ s.dev.isOn Dom.mgmt = true ∧ s.dev.mgt.mode = 2 ∧
      s.dev.cluOn c = true ∧ s.dev.mgt.tempSeen = true) ∧
    (∃ s : State, ∃ w : Word, w.getLsbD 8 = true ∧ hostTurn s.dev = true ∧ calQueues s.dev = true ∧ s.dev.cluOn (cluOf (w.bits
      7 0)) = true ∧ s.dev.flag (cluReg (cluOf (w.bits 7 0)) (Reg.CLU_CELL_BIAS (w.bits 7 0 % 16))) 31 = false ∧ calHas s.dev
      (w.bits 7 0) = false) ∧
    (∃ s : State, ∃ w : Word, (w.getLsbD 8 = false ∨ calHas s.dev (w.bits 7 0) = true)) ∧
    (∃ s : State, ∃ _ : Nat, (firmwareUp s.dev = false ∨ notesSettled s.dev = false) ∧ firmwareUp s.dev = false) ∧
    (∃ s : State, ∃ _ : Nat, (firmwareUp s.dev = false ∨ notesSettled s.dev = false) ∧ notesSettled s.dev = false) ∧
    (∃ s : State, ∃ v : Nat, firmwareUp s.dev = true ∧ s.dev.isOn Dom.cal = true ∧ s.dev.stage = Stage.run ∧ s.dev.timerRuns =
      true ∧ calGranted s.dev = true ∧ calNext s.dev = some v) ∧
    (∃ s : State, ∃ v : Nat, ∃ r : CalRun, v < 256 ∧ calRunOf s.dev v = some r ∧ r.step = 6 ∧ s.dev.cal.fgBusy = false ∧
      s.dev.timerRuns = true ∧ notesSettled s.dev = true ∧ r.failStep < 16 ∧ r.work.length = 64) := ⟨
    ⟨st (fun d => cu (fun x => { x with runs := [run1] }) d), 255, run1, by decide +kernel⟩,
    ⟨up, 255, by decide +kernel⟩,
    ⟨st (fun d => { d with mgt := { d.mgt with tempSeen := true } }), 15, by decide +kernel⟩,
    ⟨st (rg [(Reg.CAL_CTL, 0x10000)]), 0x1FF, by decide +kernel⟩,
    ⟨up, 0xFF, by decide +kernel⟩,
    ⟨st (mg (fun m => { m with mode := 0 })), 3, by decide +kernel⟩,
    ⟨st (fun d => cu (fun c => { c with runs := [run1] }) (pool
      [{ tk 5 Typ.noteOn with relEf := 997, state := .done, flags := 4 }] d)), 255, by decide +kernel⟩,
    ⟨st (cu (fun x => { x with queue := [(255, false)] })), 255, by decide +kernel⟩,
    ⟨st (fun d => cu (fun x => { x with runs := [{ run1 with step := 6 }] }) d), 255, { run1 with step := 6 },
      by decide +kernel⟩⟩

/-- States and operands that meet the hypotheses of `Obligations.OutputBitsRampAndPark`, clause by clause. -/
theorem wit_OutputBitsRampAndPark :
    (∃ s : State, ∃ v : Word, ∃ j : Nat, hostTurn s.dev = true ∧ s.dev.outOn j = true ∧ v.getLsbD j = true ∧ s.dev.flag
      Reg.OUT_EN j = false) ∧
    (∃ s : State, ∃ v : Word, ∃ j : Nat, hostTurn s.dev = true ∧ s.dev.outOn j = true ∧ v.getLsbD j = false ∧ s.dev.flag
      Reg.OUT_EN j = true) ∧
    (∃ s : State, ∃ _ : Word, hostTurn s.dev = true) ∧
    (∃ x : OutCh, ∃ _ : Bool, ∃ _ : Bool, ∃ _ : Nat, x.clearAt = none ∧ x.faultAt = none ∧ x.state = 0) ∧
    (∃ x : OutCh, ∃ en : Bool, ∃ _ : Bool, ∃ _ : Nat, x.clearAt = none ∧ x.faultAt = none ∧ x.state = 0 ∧ en = true) ∧
    (∃ x : OutCh, ∃ en : Bool, ∃ _ : Bool, ∃ _ : Nat, x.clearAt = none ∧ x.faultAt = none ∧ x.state = 1 ∧ en = true) ∧
    (∃ x : OutCh, ∃ en : Bool, ∃ _ : Bool, ∃ _ : Nat, x.clearAt = none ∧ x.faultAt = none ∧ x.state = 1 ∧ en = false) ∧
    (∃ x : OutCh, ∃ en : Bool, ∃ bit : Bool, ∃ _ : Nat, x.clearAt = none ∧ x.faultAt = none ∧ x.state = 2 ∧ en = true ∧ bit =
      x.range) ∧
    (∃ x : OutCh, ∃ en : Bool, ∃ bit : Bool, ∃ _ : Nat, x.clearAt = none ∧ x.faultAt = none ∧ x.state = 2 ∧ ((en = false ∨ bit
      ≠ x.range))) ∧
    (∃ x : OutCh, ∃ en : Bool, ∃ _ : Bool, ∃ _ : Nat, x.clearAt = none ∧ x.faultAt = none ∧ x.state = 3 ∧ en = false) ∧
    (∃ x : OutCh, ∃ en : Bool, ∃ bit : Bool, ∃ _ : Nat, x.clearAt = none ∧ x.faultAt = none ∧ x.state = 3 ∧ en = true ∧ bit =
      x.range) ∧
    (∃ x : OutCh, ∃ en : Bool, ∃ bit : Bool, ∃ _ : Nat, x.clearAt = none ∧ x.faultAt = none ∧ x.state = 3 ∧ en = true ∧ bit ≠
      x.range ∧ x.toRange = true) ∧
    (∃ x : OutCh, ∃ _ : Bool, ∃ _ : Bool, ∃ _ : Nat, x.clearAt = none ∧ x.faultAt = none ∧ x.state = 5) ∧
    (∃ x : OutCh, ∃ _ : Bool, ∃ _ : Bool, ∃ _ : Nat, x.clearAt = none ∧ x.faultAt = none ∧ x.state = 4) ∧
    (∃ x : OutCh, ∃ _ : Bool, ∃ _ : Bool, ∃ _ : Nat, x.clearAt = none ∧ x.faultAt = none ∧ (x.state = 6 ∨ x.state = 7)) ∧
    (∃ x : OutCh, ∃ _ : Bool, ∃ _ : Bool, ∃ _ : Nat, x.clearAt = none ∧ x.faultAt.isSome = true) ∧
    (∃ s : State, s.dev.timerRuns = true ∧ s.dev.engEn = true ∧ s.dev.isOn Dom.mix = true ∧ s.dev.mix.buses.length = 64) ∧
    (∃ s : State, s.dev.timerRuns = true ∧ s.dev.engEn = false) ∧
    (∃ d : Dev, ∃ i : Nat, ∃ range : Bool, ∃ z : Int, (d.dom (Dom.out (i / 8))).latched = false ∧ (d.outCh i).pin = (false,
      range, z) ∧ at_ d.mgt.supplies 3 0 ≠ 0) ∧
    (∃ d : Dev, ∃ i : Nat, ∃ range : Bool, ∃ z : Int, (d.dom (Dom.out (i / 8))).latched = false ∧ (d.outCh i).pin = (false,
      range, z) ∧ at_ d.mgt.supplies 3 0 = 0) := ⟨
    ⟨up, 0x80000000, 31, by decide +kernel⟩,
    ⟨st (rg [(Reg.OUT_EN, 0x80000000)]), 0, 31, by decide +kernel⟩,
    ⟨up, 0xFFFFFFFF, by decide +kernel⟩,
    ⟨OutCh.reset, true, true, 5, by decide +kernel⟩,
    ⟨OutCh.reset, true, true, 5, by decide +kernel⟩,
    ⟨{ OutCh.reset with state := 1, w := 64 }, true, true, 5, by decide +kernel⟩,
    ⟨{ OutCh.reset with state := 1, w := 64 }, false, true, 5, by decide +kernel⟩,
    ⟨{ OutCh.reset with state := 2, w := 64 }, true, false, 5, by decide +kernel⟩,
    ⟨{ OutCh.reset with state := 2, w := 64 }, true, true, 5, by decide +kernel⟩,
    ⟨{ OutCh.reset with state := 3, w := 0 }, false, true, 5, by decide +kernel⟩,
    ⟨{ OutCh.reset with state := 3, w := 5 }, true, false, 5, by decide +kernel⟩,
    ⟨{ OutCh.reset with state := 3, w := 5, toRange := true }, true, true, 5, by decide +kernel⟩,
    ⟨{ OutCh.reset with state := 5, w := 5 }, true, true, 5, by decide +kernel⟩,
    ⟨{ OutCh.reset with state := 4 }, true, true, 5, by decide +kernel⟩,
    ⟨{ OutCh.reset with state := 7 }, true, true, 5, by decide +kernel⟩,
    ⟨{ OutCh.reset with state := 2, faultAt := some 3 }, true, true, 5, by decide +kernel⟩,
    ⟨st (fun d => cl 15 (fun x => { x with contrib := 5 :: List.replicate 63 0, due := [] }) d), by decide +kernel⟩,
    ⟨st (rg [(Reg.GLB_FRAME_CTL, 0)]), by decide +kernel⟩,
    ⟨(st (fun d => och 31 (fun x => { x with pin := (false, true, 5) }) (mg (fun m =>
      { m with supplies := [0, 0, 0, 4900, 0, 0] }) d))).dev, 31, true, 5, by decide +kernel⟩,
    ⟨(st (fun d => och 31 (fun x => { x with pin := (false, true, 5) }) (mg (fun m =>
      { m with supplies := [0, 0, 0, 0, 0, 0] }) d))).dev, 31, true, 5, by decide +kernel⟩⟩

/-- States and operands that meet the hypotheses of `Obligations.OutputChannelsMoveThroughTheirStates`, clause by clause. -/
theorem wit_OutputChannelsMoveThroughTheirStates :
    (∃ s : State, ∃ i : Nat, s.dev.outOn i = true ∧ (s.dev.outCh i).state = 1 ∧ (s.dev.outCh i).w = 64) ∧
    (∃ s : State, ∃ i : Nat, s.dev.outOn i = true ∧ (s.dev.outCh i).state = 3 ∧ (s.dev.outCh i).w = 0 ∧ (s.dev.outCh i).since ≠
      s.dev.now ∧ (s.dev.outCh i).faultAt = none) ∧
    (∃ s : State, ∃ i : Nat, s.dev.outOn i = true ∧ (s.dev.outCh i).state = 4 ∧ (s.dev.outCh i).w = 0 ∧ (s.dev.outCh i).since ≠
      s.dev.now) ∧
    (∃ s : State, ∃ i : Nat, s.dev.outOn i = true ∧ (s.dev.outCh i).state = 7 ∧ (s.dev.outCh i).w = 0 ∧ efReached s.dev.now
      (efAdd (s.dev.outCh i).since 64) = true) ∧
    (∃ s : State, ∃ i : Nat, ∃ c ∈ [Instr.rampUpDone i, .rampDownDone i, .rangeParkEnd i, .holdParkEnd i, .faultRampDone i,
      .faultRetry i], s.dev.outOn i = false) := ⟨
    ⟨st (och 31 (fun x => { x with state := 1, w := 64 })), 31, by decide +kernel⟩,
    ⟨st (och 31 (fun x => { x with state := 3, w := 0 })), 31, by decide +kernel⟩,
    ⟨st (och 31 (fun x => { x with state := 4, w := 0 })), 31, by decide +kernel⟩,
    ⟨st (och 31 (fun x => { x with state := 7, w := 0, since := 936 })), 31, by decide +kernel⟩,
    ⟨st (off (Dom.out 3)), 31, .holdParkEnd 31, by decide +kernel, by decide +kernel⟩⟩

/-- States and operands that meet the hypotheses of `Obligations.OutputFaultsRaiseRetryAndClear`, clause by clause. -/
theorem wit_OutputFaultsRaiseRetryAndClear :
    (∃ s : State, ∃ i : Nat, ∃ mv : Nat, ∃ n : Nat, ∃ legN : Bool, ∃ kind : LegFault, s.dev.outOn i = true ∧ (s.dev.outCh
      i).state ∈ [1, 2, 3] ∧ (s.dev.outCh i).faultAt = none ∧ (((kind = .openLeg ∧ s.dev.mix.va < mv + 300) ∨ (kind = .high ∧
      s.dev.mix.va < mv + 900 ∧ mv + 300 ≤ s.dev.mix.va) ∨ (kind = .low ∧ mv < 800 ∧ mv + 900 ≤ s.dev.mix.va))) ∧ (if legN then
      (s.dev.outCh i).runN else (s.dev.outCh i).runP) = (legCode kind, n) ∧ 3 ≤ n) ∧
    (∃ d : Dev, ∃ i : Nat, ∃ k : Nat, d.outOn i = true ∧ i < d.outs.length ∧ (d.outCh i).state ∈ [1, 2, 3] ∧ (d.outCh
      i).faultAt = none ∧ k ≠ 0 ∧ (d.outCh i).runP = (k, 3) ∧ legKind d.mix.va (Config.free d.fresh % 4096) = k) ∧
    (∃ d : Dev, ∃ i : Nat, ∃ k : Nat, ∃ j : Nat, d.outOn i = true ∧ i < d.outs.length ∧ (d.outCh i).state ∈ [1, 2, 3] ∧
      (d.outCh i).faultAt = none ∧ k ≠ 0 ∧ (d.outCh i).runP = (k, 3) ∧ legKind d.mix.va (Config.free d.fresh % 4096) = k ∧ j ≠
      i) ∧
    (∃ s : State, ∃ i : Nat, ∃ _ : Nat, ∃ _ : Bool, ∃ _ : LegFault, (s.dev.outCh i).state ∉ [1, 2, 3]) ∧
    (∃ s : State, ∃ i : Nat, s.dev.outOn i = true ∧ (s.dev.outCh i).state = 5 ∧ (s.dev.outCh i).w = 0 ∧ (s.dev.outCh i).since ≠
      s.dev.now) ∧
    (∃ s : State, ∃ i : Nat, s.dev.outOn i = true ∧ (s.dev.outCh i).state = 6 ∧ (s.dev.outCh i).w = 0 ∧ efReached s.dev.now
      (efAdd (s.dev.outCh i).since 65536) = true ∧ s.dev.effFlag Reg.OUT_RETRY i = true ∧ s.dev.effFlag Reg.OUT_EN i = true) ∧
    (∃ d : Dev, ∃ a : Nat, ∃ e : Nat, ∃ w : Word, d.mix.clrDue = [(e, a, w)] ∧ efReached d.now e = true) ∧
    (∃ s : State, ∃ _ : Word, hostTurn s.dev = true) := ⟨
    ⟨st (fun d => och 31 (fun x => { x with state := 1, runN := (3, 3) }) { d with mix := { d.mix with va := 5000 } }), 31,
      799, 3, true, .low, by decide +kernel⟩,
    ⟨(st (fun d => och 31 (fun x => { x with state := 1, runP := (1, 3) }) (rg [(Reg.OUT_EN, 0x80000000)]
      { d with mix := { d.mix with va := 0 } }))).dev, 31, 1, by decide +kernel⟩,
    ⟨(st (fun d => och 31 (fun x => { x with state := 1, runP := (1, 3) }) (rg [(Reg.OUT_EN, 0x80000000)]
      { d with mix := { d.mix with va := 0 } }))).dev, 31, 1, 3, by decide +kernel⟩,
    ⟨up, 31, 0, false, .openLeg, by decide +kernel⟩,
    ⟨st (och 31 (fun x => { x with state := 5, w := 0 })), 31, by decide +kernel⟩,
    ⟨st (fun d => och 31 (fun x => { x with state := 6, w := 0, since := 2 ^ 40 + 1000 - 65536 })
      { d with mix := { d.mix with eff := [(Reg.OUT_EN, 0x80000000), (Reg.OUT_RETRY, 0x80000000)] } }), 31, by decide +kernel⟩,
    ⟨(st (fun d => { d with mix := { d.mix with clrDue := [(1000, Reg.OUT_FAULT, 1)] } })).dev, Reg.OUT_FAULT, 1000, 1,
      by decide +kernel⟩,
    ⟨up, 0xFFFFFFFF, by decide +kernel⟩⟩

/-- States and operands that meet the hypotheses of `Obligations.PlayersStartStopAndEnd`, clause by clause. -/
theorem wit_PlayersStartStopAndEnd :
    (∃ s : State, ∃ i : Nat, ∃ v : Word, hostTurn s.dev = true ∧ s.dev.outOn i = true ∧ i < s.dev.outs.length ∧ v.getLsbD 1 =
      true ∧ v.getLsbD 2 = false) ∧
    (∃ _ : State, ∃ _ : Nat, ∃ v : Word, v.getLsbD 1 = true ∧ v.getLsbD 2 = true) ∧
    (∃ s : State, ∃ i : Nat, ∃ v : Word, hostTurn s.dev = true ∧ s.dev.outOn i = true ∧ i < s.dev.outs.length ∧ v.getLsbD 2 =
      true) ∧
    (∃ s : State, ∃ i : Nat, ∃ e : Nat, ∃ r : List Nat, s.dev.outOn i = true ∧ (s.dev.outCh i).player.trig = e :: r) ∧
    (∃ s : State, ∃ i : Nat, (s.dev.outCh i).player.trig = []) ∧
    (∃ s : State, ∃ i : Nat, s.dev.outOn i = true ∧ (s.dev.outCh i).player.busy = true ∧ (s.dev.outCh i).player.done = true) ∧
    (∃ now : Nat, ∃ _ : Nat, ∃ _ : Nat, ∃ r : Nat, ∃ _ : Bool, ∃ b : Bool, ∃ p : Player, p.acts = [(r, b)] ∧ efReached now r =
      true) ∧
    (∃ _ : Nat, ∃ _ : Nat, ∃ _ : Nat, ∃ _ : Bool, ∃ p : Player, p.acts = [] ∧ p.everRun = true ∧ p.done = false) ∧
    (∃ _ : Nat, ∃ _ : Nat, ∃ _ : Nat, ∃ _ : Bool, ∃ p : Player, p.acts = [] ∧ (p.everRun = false ∨ p.done = true)) := ⟨
    ⟨up, 31, 2, by decide +kernel⟩,
    ⟨up, 31, 6, by decide +kernel⟩,
    ⟨up, 31, 6, by decide +kernel⟩,
    ⟨st (och 31 (fun x => { x with player := { x.player with trig := [999] } })), 31, 999, [], by decide +kernel⟩,
    ⟨up, 31, by decide +kernel⟩,
    ⟨st (och 31 (fun x => { x with player := { x.player with busy := true, done := true } })), 31, by decide +kernel⟩,
    ⟨5, 1, 0, 5, false, true, { OutCh.reset.player with acts := [(5, true)] }, by decide +kernel⟩,
    ⟨5, 1, 0, true, { Player.reset with everRun := true }, by decide +kernel⟩,
    ⟨5, 1, 0, true, { Player.reset with everRun := true, done := true }, by decide +kernel⟩⟩

/-- States and operands that meet the hypotheses of `Obligations.TdmPortsRunTheirFrames`, clause by clause. -/
theorem wit_TdmPortsRunTheirFrames :
    (∃ s : State, ∃ n : Nat, ∃ v : Word, hostTurn s.dev = true ∧ s.dev.tdmOn n = true ∧ v.getLsbD 0 = true ∧ s.dev.flag
      (Reg.TDM_CTL n) 0 = false) ∧
    (∃ s : State, ∃ n : Nat, ∃ v : Word, hostTurn s.dev = true ∧ s.dev.tdmOn n = true ∧ v.getLsbD 0 = false ∧ s.dev.flag
      (Reg.TDM_CTL n) 0 = true) ∧
    (∃ s : State, ∃ n : Nat, s.dev.tdmOn n = true ∧ s.dev.timerRuns = true ∧ (s.dev.tdmPort n).stopping = true ∧
      (((s.dev.tdmPort n).master = true → s.dev.now % (s.dev.tdmPort n).frameLen n = 0)) ∧ (((s.dev.tdmPort n).master = false →
      (s.dev.tdmPort n).locked = true → (s.dev.now + 2 ^ 40 - ((s.dev.tdmPort n).phase + 63) / 64) % (s.dev.tdmPort n).frameLen
      n = 0))) ∧
    (∃ s : State, ∃ n : Nat, ((s.dev.tdmPort n).stopping = false ∨ s.dev.timerRuns = false)) ∧
    (∃ p : TdmPort, ∃ n : Nat, ∃ i : Nat, ∃ _ : Bool, i < 64 * 2 ^ p.ratio n) ∧
    (∃ s : State, ∃ n : Nat, ∃ late : Nat, n < 4 ∧ framesRun s.dev n = true ∧ (s.dev.tdmPort n).stopping = false ∧ late = (if
      (s.dev.tdmPort n).master then 0 else (s.dev.tdmPort n).phase / 64) ∧ (s.dev.now + 2 ^ 40 - late) % (s.dev.tdmPort
      n).frameLen n = 0) ∧
    (∃ s : State, ∃ n : Nat, framesRun s.dev n = false) ∧
    (∃ s : State, ∃ n : Nat, ∃ r : Nat, ∃ slots : List Word, 4 ≤ n ∧ framesRun s.dev n = true ∧ s.dev.sees Dom.tdm = true ∧
      (s.dev.tdmPort n).startAt = some r ∧ efReached s.dev.now (efAdd r ((s.dev.tdmPort n).frameLen n)) = true ∧
      (((s.dev.tdmPort n).master = true → s.dev.now % (s.dev.tdmPort n).frameLen n = 0)) ∧ slots.length = slotsAtRate
      ((s.dev.tdmPort n).ratio n)) := ⟨
    ⟨up, 5, 1, by decide +kernel⟩,
    ⟨st (rg [(Reg.TDM_CTL 5, 1)]), 5, 0, by decide +kernel⟩,
    ⟨st (tp 3 (fun p => { p with run := true, stopping := true, frameAt := none })), 3, by decide +kernel⟩,
    ⟨up, 3, by decide +kernel⟩,
    ⟨TdmPort.reset, 0, 0, true, by decide +kernel⟩,
    ⟨st (tp 3 (fun p => { p with run := true, startAt := some 990, ctl := 3 })), 3, 0, by decide +kernel⟩,
    ⟨up, 3, by decide +kernel⟩,
    ⟨st (tp 5 (fun p => { p with run := true, startAt := some 900, ctl := 3 })), 5, 900, List.replicate (slotsAtRate ((st (tp 5
      (fun p => { p with run := true, startAt := some 900, ctl := 3 }))).dev.tdmPort 5 |>.ratio 5)) 7, by decide +kernel⟩⟩

/-- States and operands that meet the hypotheses of `Obligations.TdmSlavesLockSlipAndLose`, clause by clause. -/
theorem wit_TdmSlavesLockSlipAndLose :
    (∃ s : State, ∃ n : Nat, ∃ phase : Nat, s.dev.tdmOn n = true ∧ s.dev.timerRuns = true ∧ s.dev.sees Dom.tdm = true ∧
      (s.dev.tdmPort n).run = true ∧ (s.dev.tdmPort n).master = false ∧ (s.dev.tdmPort n).locked = false ∧ phase < 64 *
      (s.dev.tdmPort n).frameLen n) ∧
    (∃ s : State, ∃ n : Nat, ∃ _ : Nat, ((s.dev.tdmPort n).run = false ∨ (s.dev.tdmPort n).master = true ∨ (s.dev.tdmPort
      n).locked = true ∨ s.dev.timerRuns = false)) ∧
    (∃ s : State, ∃ n : Nat, s.dev.tdmOn n = true ∧ s.dev.timerRuns = true ∧ s.dev.sees Dom.tdm = true ∧ (s.dev.tdmPort n).run
      = true ∧ (s.dev.tdmPort n).master = false ∧ (s.dev.tdmPort n).locked = true) ∧
    (∃ s : State, ∃ n : Nat, ((s.dev.tdmPort n).locked = false ∨ s.dev.timerRuns = false)) := ⟨
    ⟨st (tp 5 (fun p => { p with run := true, startAt := some 900, ctl := 1 })), 5, 63, by decide +kernel⟩,
    ⟨up, 5, 0, by decide +kernel⟩,
    ⟨st (tp 5 (fun p => { p with run := true, startAt := some 900, ctl := 1, locked := true, w := 64 })), 5, by decide +kernel⟩,
    ⟨up, 5, by decide +kernel⟩⟩

/-- As the statement says it. -/
abbrev SerialSettingsAndFlushes_least (s : State) (n : Nat) : Nat := if s.dev.serMode n = 3 then irMin s.dev.fam44 else 0x20

/-- As the statement says it. -/
abbrev SerialSettingsAndFlushes_accepted (s : State) (n : Nat) (v : Word) : Prop := n < 4 ∧ s.dev.isOn Dom.serial = true ∧
  hostTurn s.dev = true ∧ (v.bits 1 0 = 3 → irMin s.dev.fam44 ≤ s.dev.fld (Reg.SER_DIV n) 15 0)

/-- States and operands that meet the hypotheses of `Obligations.SerialSettingsAndFlushes`, clause by clause. -/
theorem wit_SerialSettingsAndFlushes :
    (∃ s : State, ∃ n : Nat, ∃ v : Word, n < 4 ∧ s.dev.isOn Dom.serial = true ∧ hostTurn s.dev = true ∧ v.bits 15 0 <
      SerialSettingsAndFlushes_least s n) ∧
    (∃ s : State, ∃ n : Nat, ∃ v : Word, n < 4 ∧ s.dev.isOn Dom.serial = true ∧ hostTurn s.dev = true ∧
      SerialSettingsAndFlushes_least s n ≤ v.bits 15 0) ∧
    (∃ s : State, ∃ n : Nat, ∃ v : Word, v.bits 1 0 ≠ s.dev.serMode n ∧ n < 4 ∧ s.dev.isOn Dom.serial = true ∧ hostTurn s.dev =
      true ∧ v.bits 1 0 = 3 ∧ s.dev.fld (Reg.SER_DIV n) 15 0 < irMin s.dev.fam44) ∧
    (∃ s : State, ∃ n : Nat, ∃ v : Word, v.bits 1 0 ≠ s.dev.serMode n ∧ n < 4 ∧ s.dev.isOn Dom.serial = true ∧ hostTurn s.dev =
      true ∧ SerialSettingsAndFlushes_accepted s n v) ∧
    (∃ s : State, ∃ n : Nat, ∃ v : Word, SerialSettingsAndFlushes_accepted s n v ∧ v.getLsbD 12 = true) ∧
    (∃ s : State, ∃ n : Nat, ∃ v : Word, SerialSettingsAndFlushes_accepted s n v ∧ v.getLsbD 13 = true ∧ (s.dev.ser1 n).reply =
      []) ∧
    (∃ s : State, ∃ n : Nat, ∃ v : Word, SerialSettingsAndFlushes_accepted s n v ∧ v.getLsbD 11 = true ∧ n <
      s.dev.ser.ports.length) ∧
    (∃ s : State, ∃ n : Nat, ∃ v : Word, SerialSettingsAndFlushes_accepted s n v ∧ v.getLsbD 11 = false) := ⟨
    ⟨up, 3, 0x1F, by decide +kernel⟩,
    ⟨up, 3, 0x20, by decide +kernel⟩,
    ⟨st (rg [(Reg.SER_DIV 3, 0x354)]), 3, 3, by decide +kernel⟩,
    ⟨st (ser 3 1 id), 3, 2, by decide +kernel⟩,
    ⟨st (ser 3 1 (fun p => { p with rx := rxs [1] })), 3, 0x1001, by decide +kernel⟩,
    ⟨st (ser 3 1 (fun p => { p with tx := [1] })), 3, 0x2001, by decide +kernel⟩,
    ⟨st (ser 3 1 id), 3, 0x0801, by decide +kernel⟩,
    ⟨st (ser 3 1 (fun p => { p with txBreak := true })), 3, 1, by decide +kernel⟩⟩

/-- As the statement says it. -/
abbrev ReceiversTakeCharacters_ready (s : State) (n : Nat) : Prop := s.dev.serOn n = true ∧ s.dev.sees Dom.serial = true ∧
  (s.dev.ser1 n).inChar = true ∧ ∀ q, q < 4 → s.dev.flag (Reg.SER_CTL q) 8 = false

/-- States and operands that meet the hypotheses of `Obligations.ReceiversTakeCharacters`, clause by clause. -/
theorem wit_ReceiversTakeCharacters :
    (∃ s : State, ∃ n : Nat, ∃ width : Nat, ∃ low : Bool, ∃ level : Bool, s.dev.serOn n = true ∧ s.dev.sees Dom.serial = true ∧
      s.dev.serMode n ≠ 0 ∧ (s.dev.ser1 n).inChar = false ∧ n < s.dev.ser.ports.length ∧ ((s.dev.serMode n ≠ 3 → low = true)) ∧
      ((s.dev.serMode n = 3 → level = s.dev.flag (Reg.SER_CTL n) 7 ∧ 20 ≤ width ∧ (s.dev.ser1 n).shifter = none ∧ ∀ r,
      (s.dev.ser1 n).deafTo = some r → efReached s.dev.now r = true))) ∧
    (∃ s : State, ∃ n : Nat, ∃ width : Nat, ∃ low : Bool, ∃ level : Bool, s.dev.serOn n = true ∧ s.dev.sees Dom.serial = true ∧
      s.dev.serMode n ≠ 0 ∧ n < s.dev.ser.ports.length ∧ ((s.dev.serMode n ≠ 3 → low = false)) ∧ ((s.dev.serMode n = 3 → (level
      ≠ s.dev.flag (Reg.SER_CTL n) 7 ∨ width < 20) ∧ (s.dev.ser1 n).shifter = none ∧ ∀ r, (s.dev.ser1 n).deafTo = some r →
      efReached s.dev.now r = true))) ∧
    (∃ s : State, ∃ n : Nat, ∃ _ : Nat, ∃ _ : Bool, ∃ _ : Bool, s.dev.serMode n = 3 ∧ (s.dev.ser1 n).shifter.isSome = true) ∧
    (∃ s : State, ∃ n : Nat, ∃ _ : Byte, ∃ _ : Bool, ∃ _ : Bool, ReceiversTakeCharacters_ready s n ∧ s.dev.serMode n = 1 ∧
      (s.dev.ser1 n).rx.length < 64) ∧
    (∃ s : State, ∃ n : Nat, ∃ _ : Byte, ∃ _ : Bool, ReceiversTakeCharacters_ready s n ∧ s.dev.serMode n ≠ 0 ∧ 64 ≤ (s.dev.ser1
      n).rx.length) ∧
    (∃ s : State, ∃ n : Nat, ∃ _ : Bool, ReceiversTakeCharacters_ready s n ∧ s.dev.serMode n = 2) ∧
    (∃ s : State, ∃ n : Nat, ∃ _ : Bool, ReceiversTakeCharacters_ready s n ∧ s.dev.serMode n = 2) ∧
    (∃ s : State, ∃ n : Nat, ∃ q : Nat, ∃ _ : Byte, ∃ _ : Bool, s.dev.serOn n = true ∧ s.dev.sees Dom.serial = true ∧
      (s.dev.ser1 n).inChar = true ∧ q < 4 ∧ q < s.dev.ser.ports.length ∧ s.dev.flag (Reg.SER_CTL q) 8 = true ∧ s.dev.fld
      (Reg.SER_CTL q) 10 9 = n ∧ (s.dev.ser1 q).tx.length < 64 ∧ (s.dev.ser1 q).shifter.isSome = true ∧ (s.dev.ser1 q).reply =
      []) ∧
    (∃ s : State, ∃ n : Nat, s.dev.serOn n = true ∧ s.dev.sees Dom.serial = true ∧ s.dev.serMode n ≠ 0 ∧ (s.dev.ser1 n).armed =
      false ∧ (s.dev.ser1 n).inChar = false ∧ n < s.dev.ser.ports.length) ∧
    (∃ s : State, ∃ n : Nat, n < 4 ∧ s.dev.isOn Dom.serial = true ∧ s.dev.serMode n ≠ 2) ∧
    (∃ s : State, ∃ n : Nat, s.dev.serMode n = 2) := ⟨
    ⟨st (ser 3 1 id), 3, 20, true, true, by decide +kernel⟩,
    ⟨st (ser 3 1 id), 3, 5, false, false, by decide +kernel⟩,
    ⟨st (ser 3 3 (fun p => { p with shifter := some 1 })), 3, 20, false, true, by decide +kernel⟩,
    ⟨st (ser 3 1 (fun p => { p with inChar := true, rx := rxs (List.replicate 63 1) })), 3, 0, true, false, by decide +kernel⟩,
    ⟨st (ser 3 1 (fun p => { p with inChar := true, rx := rxs (List.replicate 64 1) })), 3, 0, true, by decide +kernel⟩,
    ⟨st (ser 3 2 (fun p => { p with inChar := true })), 3, false, by decide +kernel⟩,
    ⟨st (ser 3 2 (fun p => { p with inChar := true, armed := false })), 3, false, by decide +kernel⟩,
    ⟨st (fun d => sp 0 (fun p => { p with shifter := some 1 }) (rg [(Reg.SER_CTL 0, 0x701)] (ser 3 1 (fun p =>
      { p with inChar := true }) d))), 3, 0, 0xFF, false, by decide +kernel⟩,
    ⟨st (ser 3 1 (fun p => { p with armed := false })), 3, by decide +kernel⟩,
    ⟨st (ser 3 1 (fun p => { p with rx := rxs [1, 2] })), 3, by decide +kernel⟩,
    ⟨st (ser 3 2 id), 3, by decide +kernel⟩⟩

/-- States and operands that meet the hypotheses of `Obligations.BreaksAndDeadLines`, clause by clause. -/
theorem wit_BreaksAndDeadLines :
    (∃ s : State, ∃ n : Nat, s.dev.serOn n = true ∧ s.dev.sees Dom.serial = true ∧ s.dev.serMode n = 1 ∧ (s.dev.ser1
      n).lowSince.isSome = true ∧ (s.dev.ser1 n).inChar = false ∧ (s.dev.ser1 n).broke = false ∧ (s.dev.ser1 n).rx.length < 64) ∧
    (∃ s : State, ∃ n : Nat, s.dev.serOn n = true ∧ s.dev.sees Dom.serial = true ∧ s.dev.serMode n = 2 ∧ (s.dev.ser1
      n).lowSince.isSome = true ∧ (s.dev.ser1 n).inChar = false ∧ (s.dev.ser1 n).broke = false) ∧
    (∃ s : State, ∃ n : Nat, (s.dev.ser1 n).broke = true) ∧
    (∃ s : State, ∃ n : Nat, ∃ e : Nat, s.dev.serOn n = true ∧ s.dev.isOn Dom.ctrl = true ∧ (s.dev.ser1 n).lowSince = some e ∧
      msEf s.dev (s.dev.fld Reg.SER_TIMEOUTS 11 0) < efSince s.dev.now e ∧ (s.dev.ser1 n).dead = false ∧ (s.dev.ser1
      n).parser.sysex = none ∧ n < s.dev.pwr.dets.length) ∧
    (∃ s : State, ∃ n : Nat, (s.dev.ser1 n).lowSince = none) ∧
    (∃ s : State, ∃ n : Nat, s.dev.serOn n = true ∧ s.dev.sees Dom.serial = true ∧ (s.dev.ser1 n).dead = true ∧ n <
      s.dev.pwr.dets.length) ∧
    (∃ s : State, ∃ n : Nat, (s.dev.ser1 n).dead = false) := ⟨
    ⟨st (ser 3 1 (fun p => { p with lowSince := some 990 })), 3, by decide +kernel⟩,
    ⟨st (ser 3 2 (fun p => { p with lowSince := some 990 })), 3, by decide +kernel⟩,
    ⟨st (ser 3 1 (fun p => { p with broke := true })), 3, by decide +kernel⟩,
    ⟨st (ser 3 1 (fun p => { p with lowSince := some (2 ^ 40 - 100000) })), 3, 2 ^ 40 - 100000, by decide +kernel⟩,
    ⟨up, 3, by decide +kernel⟩,
    ⟨st (ser 3 1 (fun p => { p with dead := true })), 3, by decide +kernel⟩,
    ⟨up, 3, by decide +kernel⟩⟩

/-- States and operands that meet the hypotheses of `Obligations.TransmittersSendTheirFifo`, clause by clause. -/
theorem wit_TransmittersSendTheirFifo :
    (∃ _ : Word, ∃ _ : Byte, ∃ k : Nat, k < 8) ∧
    (∃ _ : Bool, ∃ ctl : Word, ∃ _ : Nat, ∃ _ : Byte, ctl.bits 1 0 = 3) ∧
    (∃ s : State, ∃ n : Nat, ∃ _ : Word, n < 4 ∧ n < s.dev.ser.ports.length ∧ s.dev.isOn Dom.serial = true ∧ hostTurn s.dev =
      true ∧ s.dev.flag (Reg.SER_CTL n) 8 = false ∧ (s.dev.ser1 n).reply = [] ∧ (s.dev.ser1 n).tx.length < 64 ∧ (s.dev.ser1
      n).shifter.isSome = true) ∧
    (∃ s : State, ∃ n : Nat, ∃ _ : Word, n < 4 ∧ n < s.dev.ser.ports.length ∧ s.dev.isOn Dom.serial = true ∧ hostTurn s.dev =
      true ∧ s.dev.flag (Reg.SER_CTL n) 8 = false ∧ (s.dev.ser1 n).reply = [] ∧ (s.dev.ser1 n).tx = [] ∧ (s.dev.ser1 n).shifter
      = none ∧ (s.dev.ser1 n).txBreak = false ∧ (s.dev.ser1 n).txGap = false ∧ s.dev.serMode n ≠ 0) ∧
    (∃ s : State, ∃ n : Nat, ∃ _ : Word, n < 4 ∧ n < s.dev.ser.ports.length ∧ s.dev.isOn Dom.serial = true ∧ hostTurn s.dev =
      true ∧ s.dev.flag (Reg.SER_CTL n) 8 = false ∧ (s.dev.ser1 n).reply = [] ∧ 64 ≤ (s.dev.ser1 n).tx.length) ∧
    (∃ s : State, ∃ n : Nat, ∃ _ : Word, s.dev.flag (Reg.SER_CTL n) 8 = true) ∧
    (∃ s : State, ∃ n : Nat, ∃ c : Byte, s.dev.serOn n = true ∧ (s.dev.ser1 n).shifter = some c ∧ (s.dev.ser1 n).reply = [] ∧
      s.dev.flag (Reg.SER_CTL n) 11 = true) ∧
    (∃ s : State, ∃ n : Nat, ∃ c : Byte, s.dev.serOn n = true ∧ (s.dev.ser1 n).shifter = some c ∧ (s.dev.ser1 n).reply = [] ∧
      s.dev.flag (Reg.SER_CTL n) 11 = false ∧ (s.dev.ser1 n).tx = []) ∧
    (∃ s : State, ∃ n : Nat, ∃ c : Byte, ∃ b : Byte, ∃ r : List Byte, s.dev.serOn n = true ∧ (s.dev.ser1 n).shifter = some c ∧
      (s.dev.ser1 n).reply = [] ∧ s.dev.flag (Reg.SER_CTL n) 11 = false ∧ (s.dev.ser1 n).tx = b :: r ∧ r.length < 64 ∧
      (s.dev.ser1 n).txGap = false ∧ s.dev.serMode n ≠ 0) ∧
    (∃ s : State, ∃ n : Nat, s.dev.serOn n = true ∧ (s.dev.ser1 n).shifter = none ∧ (s.dev.ser1 n).txGap = true) ∧
    (∃ s : State, ∃ n : Nat, (s.dev.ser1 n).shifter = none ∧ (s.dev.ser1 n).txGap = false) := ⟨
    ⟨1, 5, 7, by decide +kernel⟩,
    ⟨true, 3, 5, 0x55, by decide +kernel⟩,
    ⟨st (ser 3 1 (fun p => { p with shifter := some 1, tx := List.replicate 63 2 })), 3, 0x55, by decide +kernel⟩,
    ⟨st (ser 3 1 id), 3, 0x55, by decide +kernel⟩,
    ⟨st (ser 3 1 (fun p => { p with shifter := some 1, tx := List.replicate 64 2 })), 3, 0x55, by decide +kernel⟩,
    ⟨st (ser 3 0x101 id), 3, 0x55, by decide +kernel⟩,
    ⟨st (ser 3 0x801 (fun p => { p with shifter := some 1 })), 3, 1, by decide +kernel⟩,
    ⟨st (ser 3 1 (fun p => { p with shifter := some 1 })), 3, 1, by decide +kernel⟩,
    ⟨st (ser 3 1 (fun p => { p with shifter := some 1, tx := [2, 3] })), 3, 1, 2, [3], by decide +kernel⟩,
    ⟨st (ser 3 1 (fun p => { p with txGap := true })), 3, by decide +kernel⟩,
    ⟨st (ser 3 1 id), 3, by decide +kernel⟩⟩

/-- As the statement says it. -/
abbrev ParsersFormTasks_takes (s : State) (n : Nat) (e : RxEntry) (r : List RxEntry) : Prop := n < 4 ∧ s.dev.isOn Dom.serial =
  true ∧ s.dev.serMode n = 2 ∧ (s.dev.ser1 n).rx = e :: r ∧ (s.dev.ser1 n).parser.hold = []

/-- States and operands that meet the hypotheses of `Obligations.ParsersFormTasks`, clause by clause. -/
theorem wit_ParsersFormTasks :
    (∃ s : State, ∃ n : Nat, ∃ e : RxEntry, ∃ r : List RxEntry, ParsersFormTasks_takes s n e r ∧ 0xF8 ≤ e.data.toNat) ∧
    (∃ s : State, ∃ n : Nat, ∃ e : RxEntry, ∃ r : List RxEntry, ParsersFormTasks_takes s n e r ∧ (s.dev.ser1 n).parser.sysex =
      none ∧ 0x80 ≤ e.data.toNat ∧ e.data.toNat < 0xF0) ∧
    (∃ s : State, ∃ n : Nat, ∃ e : RxEntry, ∃ r : List RxEntry, ParsersFormTasks_takes s n e r ∧ (s.dev.ser1 n).parser.sysex =
      none ∧ e.data.toNat < 0x80 ∧ (s.dev.ser1 n).parser.skip = 0 ∧ (s.dev.ser1 n).parser.status = 0) ∧
    (∃ s : State, ∃ n : Nat, ∃ ch : Nat, ∃ k : Nat, ∃ e : RxEntry, ∃ r : List RxEntry, ∃ p : Parser, ∃ f : List Nat, ∃ x : Dev,
      ParsersFormTasks_takes s n e r ∧ p = (s.dev.ser1 n).parser ∧ p.sysex = none ∧ p.status = 0x90 + ch ∧ ch < 16 ∧ p.data =
      [k] ∧ p.skip = 0 ∧ e.data.toNat < 0x80 ∧ f = (if e.data.toNat = 0 then [Typ.noteOff, 16 * n + ch, n, ch, k, 64, 0, 0, 0,
      0, 0, 0, 0, 0] else [Typ.noteOn, 16 * n + ch, n, ch, k, e.data.toNat, 0, 0, 0, 0, 0, 0, 0, 0]) ∧ x = earlierReleases n
      ((s.dev.modSer n (fun q => { q with rx := r, parser := { p with data := [], hold := [(false, f)] } })).bump
      (Reg.SER_CNT_TASK n)) ∧ s.dev.isOn Dom.ctrl = false) ∧
    (∃ s : State, ∃ n : Nat, ∃ ch : Nat, ∃ k : Nat, ∃ e : RxEntry, ∃ r : List RxEntry, ∃ p : Parser, ∃ f : List Nat, ∃ x : Dev,
      ParsersFormTasks_takes s n e r ∧ p = (s.dev.ser1 n).parser ∧ p.sysex = none ∧ p.status = 0x90 + ch ∧ ch < 16 ∧ p.data =
      [k] ∧ p.skip = 0 ∧ e.data.toNat < 0x80 ∧ f = (if e.data.toNat = 0 then [Typ.noteOff, 16 * n + ch, n, ch, k, 64, 0, 0, 0,
      0, 0, 0, 0, 0] else [Typ.noteOn, 16 * n + ch, n, ch, k, e.data.toNat, 0, 0, 0, 0, 0, 0, 0, 0]) ∧ x = earlierReleases n
      ((s.dev.modSer n (fun q => { q with rx := r, parser := { p with data := [], hold := [(false, f)] } })).bump
      (Reg.SER_CNT_TASK n)) ∧ s.dev.isOn Dom.ctrl = true ∧ refusal x 0 true (f.getD 0 0) (f.getD 1 0) ≠ 0) ∧
    (∃ s : State, ∃ n : Nat, ∃ ch : Nat, ∃ k : Nat, ∃ e : RxEntry, ∃ r : List RxEntry, ∃ p : Parser, ∃ f : List Nat, ∃ x : Dev,
      ParsersFormTasks_takes s n e r ∧ p = (s.dev.ser1 n).parser ∧ p.sysex = none ∧ p.status = 0x90 + ch ∧ ch < 16 ∧ p.data =
      [k] ∧ p.skip = 0 ∧ e.data.toNat < 0x80 ∧ f = (if e.data.toNat = 0 then [Typ.noteOff, 16 * n + ch, n, ch, k, 64, 0, 0, 0,
      0, 0, 0, 0, 0] else [Typ.noteOn, 16 * n + ch, n, ch, k, e.data.toNat, 0, 0, 0, 0, 0, 0, 0, 0]) ∧ x = earlierReleases n
      ((s.dev.modSer n (fun q => { q with rx := r, parser := { p with data := [], hold := [(false, f)] } })).bump
      (Reg.SER_CNT_TASK n)) ∧ s.dev.isOn Dom.ctrl = true ∧ refusal x 0 true (f.getD 0 0) (f.getD 1 0) = 0 ∧ PoolOk s.dev.alm) ∧
    (∃ s : State, ∃ n : Nat, ∃ b : Nat, ∃ e : RxEntry, ∃ r : List RxEntry, ParsersFormTasks_takes s n e r ∧ (s.dev.ser1
      n).parser.sysex = none ∧ e.data = 0xF0 ∧ s.dev.isOn Dom.mgmt = true ∧ b < 8 ∧ s.dev.ser.bufs[b]? = some none ∧ ((∀ k, k <
      b → ∃ q, s.dev.ser.bufs[k]? = some (some q)))) ∧
    (∃ s : State, ∃ n : Nat, ∃ x : SysEx, s.dev.serOn n = true ∧ (s.dev.ser1 n).parser.sysex = some x ∧ msEf s.dev (s.dev.fld
      Reg.SER_TIMEOUTS 27 16) < efSince s.dev.now x.lastEf ∧ x.buf < s.dev.ser.bufs.length) ∧
    (∃ s : State, ∃ n : Nat, (s.dev.ser1 n).parser.sysex = none) := ⟨
    ⟨st (ser 3 2 (fun p => { p with rx := rxs [0xF8] })), 3, ⟨0xF8, false, false, false, 999⟩, [], by decide +kernel⟩,
    ⟨st (ser 3 2 (fun p => { p with rx := rxs [0xEF] })), 3, ⟨0xEF, false, false, false, 999⟩, [], by decide +kernel⟩,
    ⟨st (ser 3 2 (fun p => { p with rx := rxs [5] })), 3, ⟨5, false, false, false, 999⟩, [], by decide +kernel⟩,
    ⟨st (fun d => off Dom.ctrl (ser 3 2 (fun p =>
      { p with rx := rxs [0], parser := { p.parser with status := 0x9F, data := [60] } }) d)), 3, 15, 60, ⟨0, false, false,
      false, 999⟩, [], { Parser.reset with status := 0x9F, data := [60] }, [Typ.noteOff, 63, 3, 15, 60, 64, 0, 0, 0, 0, 0, 0,
      0, 0], earlierReleases 3 (((st (fun d => off Dom.ctrl (ser 3 2 (fun p =>
      { p with rx := rxs [0], parser := { p.parser with status := 0x9F, data := [60] } }) d))).dev.modSer 3 (fun q =>
      { q with rx := [], parser := { { Parser.reset with status := 0x9F, data := [60] } with data := [], hold := [(false, [Typ.noteOff, 63, 3, 15, 60, 64, 0, 0, 0, 0, 0, 0, 0, 0])] } })).bump
      (Reg.SER_CNT_TASK 3)), by decide +kernel⟩,
    ⟨st (fun d => stage 9 (ser 3 2 (fun p =>
      { p with rx := rxs [1], parser := { p.parser with status := 0x9F, data := [60] } }) d)), 3, 15, 60, ⟨1, false, false,
      false, 999⟩, [], { Parser.reset with status := 0x9F, data := [60] }, [Typ.noteOn, 63, 3, 15, 60, 1, 0, 0, 0, 0, 0, 0, 0,
      0], earlierReleases 3 (((st (fun d => stage 9 (ser 3 2 (fun p =>
      { p with rx := rxs [1], parser := { p.parser with status := 0x9F, data := [60] } }) d))).dev.modSer 3 (fun q =>
      { q with rx := [], parser := { { Parser.reset with status := 0x9F, data := [60] } with data := [], hold := [(false, [Typ.noteOn, 63, 3, 15, 60, 1, 0, 0, 0, 0, 0, 0, 0, 0])] } })).bump
      (Reg.SER_CNT_TASK 3)), by decide +kernel⟩,
    ⟨st (ser 3 2 (fun p => { p with rx := rxs [127], parser := { p.parser with status := 0x9F, data := [60] } })), 3, 15, 60,
      ⟨127, false, false, false, 999⟩, [], { Parser.reset with status := 0x9F, data := [60] }, [Typ.noteOn, 63, 3, 15, 60, 127,
      0, 0, 0, 0, 0, 0, 0, 0], earlierReleases 3 (((st (ser 3 2 (fun p =>
      { p with rx := rxs [127], parser := { p.parser with status := 0x9F, data := [60] } }))).dev.modSer 3 (fun q =>
      { q with rx := [], parser := { { Parser.reset with status := 0x9F, data := [60] } with data := [], hold := [(false, [Typ.noteOn, 63, 3, 15, 60, 127, 0, 0, 0, 0, 0, 0, 0, 0])] } })).bump
      (Reg.SER_CNT_TASK 3)), by unfold PoolOk; decide +kernel⟩,
    ⟨st (fun d =>
      { (ser 3 2 (fun p => { p with rx := rxs [0xF0] }) d) with ser := { (ser 3 2 (fun p => { p with rx := rxs [0xF0] }) d).ser with bufs := List.replicate 7 (some 0) ++ [none] } }),
      3, 7, ⟨0xF0, false, false, false, 999⟩, [], by decide +kernel, by decide +kernel, by decide +kernel, by decide +kernel,
      by decide +kernel, by decide +kernel, fun k h => ⟨0, (by decide +kernel : ∀ k < 7, ((List.replicate 7 (some 0) ++ [none])
      : List (Option Nat))[k]? = some (some 0)) k h⟩⟩,
    ⟨st (ser 3 2 (fun p => { p with parser := { p.parser with sysex := some ⟨7, 5, false, 2 ^ 40 - 300000⟩ } })), 3, ⟨7, 5,
      false, 2 ^ 40 - 300000⟩, by decide +kernel⟩,
    ⟨up, 3, by decide +kernel⟩⟩

/-- States and operands that meet the hypotheses of `Obligations.WindowWordsMoveInOrder`, clause by clause. -/
theorem wit_WindowWordsMoveInOrder :
    (∃ s : State, ∃ _ : Word, s.dev.isOn Dom.memc = true ∧ hostTurn s.dev = true) ∧
    (∃ s : State, s.dev.isOn Dom.hostp = false) ∧
    (∃ s : State, ∃ w : Word, ∃ r : List Word, s.dev.isOn Dom.memc = true ∧ s.dev.isOn Dom.hostp = true ∧ s.dev.win.dir = false
      ∧ s.dev.win.rd = w :: r ∧ (s.dev.reg Reg.WIN_ADDR).toNat + s.dev.winStep ≤ waveSize) ∧
    (∃ s : State, s.dev.isOn Dom.memc = true ∧ s.dev.isOn Dom.hostp = true ∧ s.dev.win.rd = [] ∧ (s.dev.reg Reg.WIN_ADDR).toNat
      + s.dev.winStep ≤ waveSize) ∧
    (∃ s : State, ∃ _ : Word, ∃ _ : BitVec 4, s.dev.isOn Dom.memc = true ∧ s.dev.win.dir = true ∧ hostTurn s.dev = true ∧
      (s.dev.reg Reg.WIN_ADDR).toNat + s.dev.winStep ≤ waveSize ∧ s.dev.win.wr.length < 64) ∧
    (∃ s : State, ∃ _ : Word, ∃ _ : BitVec 4, s.dev.isOn Dom.memc = true ∧ s.dev.win.dir = true ∧ hostTurn s.dev = true ∧
      (s.dev.reg Reg.WIN_ADDR).toNat + s.dev.winStep ≤ waveSize ∧ 64 ≤ s.dev.win.wr.length) ∧
    (∃ s : State, ∃ _ : Word, ∃ _ : BitVec 4, s.dev.isOn Dom.memc = true ∧ s.dev.win.dir = true ∧ hostTurn s.dev = true ∧
      waveSize < (s.dev.reg Reg.WIN_ADDR).toNat + s.dev.winStep) ∧
    (∃ s : State, ∃ v : Word, s.dev.isOn Dom.memc = true ∧ hostTurn s.dev = true ∧ v.getLsbD 2 = true) ∧
    (∃ s : State, s.dev.isOn Dom.memc = true ∧ s.dev.flag Reg.WIN_CTL 0 ≠ s.dev.win.dir ∧ s.dev.win.wr = []) ∧
    (∃ s : State, s.dev.win.wr ≠ []) := ⟨
    ⟨up, 0xFFFFFFFF, by decide +kernel⟩,
    ⟨st (off Dom.hostp), by decide +kernel⟩,
    ⟨st (fun d => rg [(Reg.WIN_ADDR, 0x7FFFFFC)] (wi (fun w => { w with rd := [5] }) d)), 5, [], by decide +kernel⟩,
    ⟨up, by decide +kernel⟩,
    ⟨st (fun d => rg [(Reg.WIN_ADDR, 0x7FFFFFC)] (wi (fun w => { w with dir := true }) d)), 5, 9, by decide +kernel⟩,
    ⟨st (wi (fun w => { w with dir := true, wr := List.replicate 64 (0, 0, 15, false) })), 5, 9, by decide +kernel⟩,
    ⟨st (fun d => rg [(Reg.WIN_ADDR, 0x8000000)] (wi (fun w => { w with dir := true }) d)), 5, 9, by decide +kernel⟩,
    ⟨st (wi (fun w => { w with rd := [5] })), 4, by decide +kernel⟩,
    ⟨st (rg [(Reg.WIN_CTL, 1)]), by decide +kernel⟩,
    ⟨st (wi (fun w => { w with wr := [(0, 0, 15, false)] })), by decide +kernel⟩⟩

/-- States and operands that meet the hypotheses of `Obligations.MoverChannelsAcceptAndEnd`, clause by clause. -/
theorem wit_MoverChannelsAcceptAndEnd :
    (∃ s : State, ∃ c : Nat, ∃ v : Word, s.dev.isOn Dom.memc = true ∧ moverMaster s.dev c = true ∧ c < s.dev.mem.movers.length
      ∧ ((c < 2 → hostTurn s.dev = true)) ∧ v.getLsbD 0 = true ∧ ((s.dev.mover c).state ≠ .busy ∧ moverReason s.dev c (readDesc
      s.dev c) = 0)) ∧
    (∃ s : State, ∃ c : Nat, ∃ v : Word, s.dev.isOn Dom.memc = true ∧ moverMaster s.dev c = true ∧ c < s.dev.mem.movers.length
      ∧ ((c < 2 → hostTurn s.dev = true)) ∧ v.getLsbD 0 = true ∧ ((s.dev.mover c).state ≠ .busy ∧ moverReason s.dev c (readDesc
      s.dev c) ≠ 0)) ∧
    (∃ s : State, ∃ c : Nat, ∃ v : Word, s.dev.isOn Dom.memc = true ∧ moverMaster s.dev c = true ∧ c < s.dev.mem.movers.length
      ∧ ((c < 2 → hostTurn s.dev = true)) ∧ v.getLsbD 0 = true ∧ (s.dev.mover c).state = .busy ∧ v.getLsbD 1 = false) ∧
    (∃ s : State, ∃ c : Nat, ∃ v : Word, s.dev.isOn Dom.memc = true ∧ moverMaster s.dev c = true ∧ c < s.dev.mem.movers.length
      ∧ ((c < 2 → hostTurn s.dev = true)) ∧ v.getLsbD 0 = true ∧ (s.dev.mover c).state = .busy ∧ v.getLsbD 1 = true) ∧
    (∃ d : Dev, ∃ c : Nat, ∃ m : Mover, moverReason d c m = 0 ∧ m.srcSpace ≤ 8 ∧ m.dstSpace ≤ 8) ∧
    (∃ d : Dev, ∃ c : Nat, ∃ m : Mover, moverReason d c m = 0 ∧ m.srcSpace ≤ 8 ∧ m.dstSpace ≤ 8 ∧ m.srcSpace = m.dstSpace) ∧
    (∃ d : Dev, ∃ c : Nat, ∃ m : Mover, moverReason d c m = 0 ∧ m.srcSpace ≤ 8 ∧ m.dstSpace ≤ 8 ∧ c < 2) ∧
    (∃ d : Dev, ∃ c : Nat, ∃ m : Mover, moverReason d c m = 0 ∧ m.srcSpace ≤ 8 ∧ m.dstSpace ≤ 8) ∧
    (∃ s : State, ∃ c : Nat, s.dev.isOn Dom.memc = true ∧ (s.dev.mover c).state = .busy ∧ (s.dev.mover c).pos = (s.dev.mover
      c).length) ∧
    (∃ s : State, ∃ c : Nat, (s.dev.mover c).pos ≠ (s.dev.mover c).length) ∧
    (∃ s : State, ∃ c : Nat, ∃ v : Word, s.dev.isOn Dom.memc = true ∧ moverMaster s.dev c = true ∧ v.getLsbD 1 = true ∧ ((c < 2
      → hostTurn s.dev = true)) ∧ (s.dev.mover c).state = .busy) ∧
    (∃ s : State, ∃ c : Nat, ∃ _ : Word, (s.dev.mover c).state ≠ .busy) := ⟨
    ⟨st (rg [(Reg.MEM_MV_DESC0 3, 0x40), (Reg.MEM_MV_DESC2 3, 0x40)]), 3, 1, by decide +kernel⟩,
    ⟨st (rg [(Reg.MEM_MV_DESC2 3, 0x40)]), 3, 1, by decide +kernel⟩,
    ⟨st (mover 3 id), 3, 1, by decide +kernel⟩,
    ⟨st (mover 1 id), 1, 3, by decide +kernel⟩,
    ⟨up.dev, 3, { Mover.reset with src := 0x7FFFFC0, length := 64 }, by decide +kernel⟩,
    ⟨up.dev, 3, { Mover.reset with src := 0x7FFFFC0, length := 64 }, by decide +kernel⟩,
    ⟨up.dev, 1, { Mover.reset with src := 64, length := 64 }, by decide +kernel⟩,
    ⟨up.dev, 3, { Mover.reset with src := 64, length := 64 }, by decide +kernel⟩,
    ⟨st (mover 3 (fun m => { m with pos := 64 })), 3, by decide +kernel⟩,
    ⟨st (mover 3 (fun m => { m with pos := 60 })), 3, by decide +kernel⟩,
    ⟨st (mover 3 id), 3, 2, by decide +kernel⟩,
    ⟨up, 3, 2, by decide +kernel⟩⟩

/-- As the statement says it. -/
abbrev MoverBurstsCopyBytes_running (s : State) (c : Nat) (m : Mover) : Prop := s.dev.isOn Dom.memc = true ∧ m = s.dev.mover c
  ∧ burstNext s.dev = some c

/-- States and operands that meet the hypotheses of `Obligations.MoverBurstsCopyBytes`, clause by clause. -/
theorem wit_MoverBurstsCopyBytes :
    (∃ s : State, ∃ c : Nat, ∃ n : Nat, ∃ m : Mover, ∃ bs : List Byte, MoverBurstsCopyBytes_running s c m ∧ m.dstSpace ∈ [0, 2,
      3, 4, 5, 8] ∧ n = min 64 (m.length - m.pos) ∧ bs = spaceRead s m.srcSpace (m.src + m.pos) n) ∧
    (∃ s : State, ∃ c : Nat, ∃ n : Nat, ∃ m : Mover, ∃ bs : List Byte, MoverBurstsCopyBytes_running s c m ∧ m.dstSpace = 1 ∧ n
      = min 64 (m.length - m.pos) ∧ n % 4 = 0 ∧ (m.dst + m.pos) % 4 = 0 ∧ m.dst + m.pos + n ≤ 0x80000 ∧ bs = spaceRead s
      m.srcSpace (m.src + m.pos) n ∧ s.dev.hqMgmt + n / 4 ≤ 42 ∧ s.dev.port.hq.length + n / 4 ≤ 256) ∧
    (∃ s : State, ∃ c : Nat, (s.dev.mover c).dstSpace = 1 ∧ 42 < s.dev.hqMgmt + (s.dev.mover c).burst / 4) ∧
    (∃ s : State, ∃ c : Nat, ∃ n : Nat, ∃ m : Mover, ∃ bs : List Byte, MoverBurstsCopyBytes_running s c m ∧ m.dstSpace = 7 ∧
      s.dev.nvReach = true ∧ n = min 64 (m.length - m.pos) ∧ bs = spaceRead s m.srcSpace (m.src + m.pos) n) ∧
    (∃ s : State, ∃ c : Nat, moverBorrowed s.dev (s.dev.mover c) (s.dev.mover c).burst = true) ∧
    (∃ d : Dev, ∃ c : Nat, c < 4 ∧ burstReady d c = true ∧ (c = d.mem.turn ∨ (∀ k, k < 4 → k ≠ c → burstReady d k = false))) ∧
    (∃ s : State, ∃ c : Nat, (s.dev.mover c).state ≠ .busy) := ⟨
    ⟨st (mover 3 (fun m => { m with src := 256, crcOn := true })), 3, 64, (st (mover 3 (fun m =>
      { m with src := 256, crcOn := true }))).dev.mover 3, spaceRead (st (mover 3 (fun m =>
      { m with src := 256, crcOn := true }))) 0 256 64, by decide +kernel, by decide +kernel, by decide +kernel, rfl⟩,
    ⟨st (mover 3 (fun m => { m with dstSpace := 1, dst := 0x7FFC0 })), 3, 64, (st (mover 3 (fun m =>
      { m with dstSpace := 1, dst := 0x7FFC0 }))).dev.mover 3, spaceRead (st (mover 3 (fun m =>
      { m with dstSpace := 1, dst := 0x7FFC0 }))) 0 0 64, by decide +kernel, by decide +kernel, by decide +kernel,
      by decide +kernel, by decide +kernel, by decide +kernel, rfl, by decide +kernel⟩,
    ⟨st (fun d => mover 3 (fun m => { m with dstSpace := 1 })
      { d with port := { d.port with hq := List.replicate 42 ⟨0, 0, 15, 5, true⟩ } }), 3, by decide +kernel⟩,
    ⟨st (mover 3 (fun m => { m with dstSpace := 7, dst := 0x100 })), 3, 64, (st (mover 3 (fun m =>
      { m with dstSpace := 7, dst := 0x100 }))).dev.mover 3, spaceRead (st (mover 3 (fun m =>
      { m with dstSpace := 7, dst := 0x100 }))) 0 0 64, by decide +kernel, by decide +kernel, by decide +kernel,
      by decide +kernel, rfl⟩,
    ⟨st (fun d => patr (fun p => { p with borrowed := true, bank := 0x24 }) (mover 0 (fun m => { m with dstSpace := 2 }) d)),
      0, by decide +kernel⟩,
    ⟨(st (mover 3 id)).dev, 3, by decide +kernel⟩,
    ⟨up, 3, by decide +kernel⟩⟩

/-- States and operands that meet the hypotheses of `Obligations.PatrolBorrowsAndRestores`, clause by clause. -/
theorem wit_PatrolBorrowsAndRestores :
    (∃ s : State, ∃ b : Nat, ∃ n : Nat, ∃ k : Nat, s.dev.isOn Dom.mgmt = true ∧ s.dev.mgt.mode = 2 ∧ s.dev.isOn Dom.memc = true
      ∧ s.dev.flag Reg.MEM_PAT_CTL 31 = true ∧ s.dev.mem.patrol.borrowed = false ∧ s.dev.mem.patrol.started = true ∧
      s.dev.mem.patrol.bank = b ∧ (patrolOpen s.dev).find? (fun x => x.1 == b) = some (b, n, k) ∧ s.dev.mem.patrol.region + 1 <
      n) ∧
    (∃ s : State, ∃ b : Nat, ∃ n : Nat, ∃ k : Nat, s.dev.isOn Dom.mgmt = true ∧ s.dev.mgt.mode = 2 ∧ s.dev.isOn Dom.memc = true
      ∧ s.dev.flag Reg.MEM_PAT_CTL 31 = true ∧ s.dev.mem.patrol.borrowed = false ∧ s.dev.mem.patrol.started = true ∧
      s.dev.mem.patrol.bank = b ∧ (patrolOpen s.dev).find? (fun x => x.1 == b) = some (b, n, k) ∧ n ≤ s.dev.mem.patrol.region +
      1 ∧ ((∀ x ∈ patrolOpen s.dev, x.1 ≤ b))) ∧
    (∃ s : State, (s.dev.flag Reg.MEM_PAT_CTL 31 = false ∨ s.dev.mem.patrol.borrowed = true)) ∧
    (∃ s : State, s.dev.mem.patrol.borrowed = true) ∧
    (∃ s : State, s.dev.mem.patrol.borrowed = true ∧ s.dev.isOn Dom.memc = true ∧ s.dev.mem.patrol.bank < 256 ∧
      s.dev.mem.patrol.region < 2 ^ 12) ∧
    (∃ s : State, s.dev.mem.patrol.borrowed = true ∧ s.dev.mem.patrol.bank = 0x28 ∧ s.dev.isOn Dom.memc = true) ∧
    (∃ s : State, ∃ _ : Bool, s.dev.mem.patrol.borrowed = false) := ⟨
    ⟨st (fun d => rg [(Reg.MEM_PAT_CTL, 0x80000000)] (patr (fun p =>
      { p with started := true, bank := ((patrolOpen up.dev).headD (0, 0, 0)).1 }) d)), ((patrolOpen up.dev).headD (0, 0,
      0)).1, ((patrolOpen up.dev).headD (0, 0, 0)).2.1, ((patrolOpen up.dev).headD (0, 0, 0)).2.2, by decide +kernel⟩,
    ⟨st (fun d => rg [(Reg.MEM_PAT_CTL, 0x80000000)] (patr (fun p =>
      { p with started := true, bank := ((patrolOpen up.dev).getLastD (0, 0, 0)).1, region := ((patrolOpen up.dev).getLastD (0, 0, 0)).2.1 - 1, laps := 4095 })
      d)), ((patrolOpen up.dev).getLastD (0, 0, 0)).1, ((patrolOpen up.dev).getLastD (0, 0, 0)).2.1, ((patrolOpen
      up.dev).getLastD (0, 0, 0)).2.2, by decide +kernel⟩,
    ⟨st (patr (fun p => { p with borrowed := true })), by decide +kernel⟩,
    ⟨st (patr (fun p => { p with borrowed := true })), by decide +kernel⟩,
    ⟨st (patr (fun p => { p with borrowed := true, bank := 0x28, region := 4095 })), by decide +kernel⟩,
    ⟨st (patr (fun p => { p with borrowed := true, bank := 0x28, region := 4095 })), by decide +kernel⟩,
    ⟨up, true, by decide +kernel⟩⟩

/-- States and operands that meet the hypotheses of `Obligations.ChronographsCountAndCapture`, clause by clause. -/
theorem wit_ChronographsCountAndCapture :
    (∃ s : State, ∃ c : Nat, ∃ x : Nat, s.dev.chrRuns = true ∧ c < 16 ∧ c < s.dev.cnt.chr.length ∧ s.dev.flag (Reg.CHR_CTL c) 0
      = true ∧ s.dev.fld (Reg.CHR_CTL c) 3 1 = 3 ∧ x = prescaledNext s.dev c ∧ edgeNear s.dev x = true) ∧
    (∃ s : State, ∃ c : Nat, ∃ x : Nat, s.dev.chrRuns = true ∧ c < 16 ∧ c < s.dev.cnt.chr.length ∧ s.dev.flag (Reg.CHR_CTL c) 0
      = true ∧ s.dev.fld (Reg.CHR_CTL c) 3 1 = 3 ∧ x = prescaledNext s.dev c ∧ edgeNear s.dev x = false) ∧
    (∃ s : State, ∃ c : Nat, ∃ r : List Nat, s.dev.chrRuns = true ∧ c < 16 ∧ c < s.dev.cnt.chr.length ∧ s.dev.flag (Reg.CHR_CTL
      c) 0 = true ∧ s.dev.fld (Reg.CHR_CTL c) 3 1 ∈ [1, 2, 4, 5, 6] ∧ (s.dev.chr c).ticks = 1 :: r) ∧
    (∃ d : Dev, ∃ c : Nat, ∃ p : Nat, ∃ o : Nat, ∃ x : Nat, p = d.fld (Reg.CHR_CTL c) 31 16 + 1 ∧ o = (d.chr c).origin ∧ x =
      prescaledNext d c) ∧
    (∃ d : Dev, ∃ c : Nat, ∃ p : Nat, ∃ o : Nat, ∃ x : Nat, ∃ y : Nat, p = d.fld (Reg.CHR_CTL c) 31 16 + 1 ∧ o = (d.chr
      c).origin ∧ x = prescaledNext d c ∧ o < y ∧ (d.chr c).from_ ≤ y ∧ (y - o) % p = 0) ∧
    (∃ s : State, ∃ c : Nat, ∃ _ : Nat, s.dev.flag (Reg.CHR_CTL c) 0 = false) ∧
    (∃ s : State, ∃ v : Word, ∃ c : Nat, ∃ n : Nat, ∃ a : Nat, ∃ i : Instr, s.dev.isOn Dom.ctrl = true ∧ s.dev.frame.refValid =
      false ∧ hostTurn s.dev = true ∧ (a, i) ∈ [(Reg.CHR_START, Instr.chrStart v), (Reg.CHR_STOP, .chrStop v), (Reg.CHR_CTL c,
      .chrClear c v), (Reg.CHR_RELOAD c, .reloadWrite c v), (Reg.CHR_CAPCTL c, .captureSw c v), (Reg.EVC_GLB, .evcFreeze v),
      (Reg.EVC_CFG n, .evcClr n v)]) ∧
    (∃ s : State, ∃ _ : Word, s.dev.chrRuns = true ∧ hostTurn s.dev = true ∧ s.dev.cnt.chr.length = 16) ∧
    (∃ s : State, ∃ _ : Word, s.dev.chrRuns = true ∧ hostTurn s.dev = true ∧ s.dev.cnt.chr.length = 16) ∧
    (∃ s : State, ∃ c : Nat, ∃ _ : Word, s.dev.chrRuns = true ∧ hostTurn s.dev = true ∧ c < 16 ∧ c < s.dev.cnt.chr.length) ∧
    (∃ s : State, ∃ c : Nat, ∃ _ : Word, s.dev.chrRuns = true ∧ hostTurn s.dev = true ∧ c < 16) ∧
    (∃ s : State, ∃ c : Nat, ∃ n : Nat, s.dev.chrRuns = true ∧ c < 16 ∧ n < 2 ∧ (at_ (s.dev.chr c).capDue n []).head? = some 0
      ∧ (s.dev.chr c).cap.length = 2) ∧
    (∃ s : State, ∃ c : Nat, ∃ _ : Word, s.dev.chrRuns = true ∧ hostTurn s.dev = true ∧ c < 16 ∧ (s.dev.chr c).cap.length = 2 ∧
      c < s.dev.cnt.chr.length) ∧
    (∃ s : State, ∃ c : Nat, ∃ n : Nat, s.dev.chrRuns = true ∧ c < 16 ∧ n < 2) := ⟨
    ⟨st (rg [(Reg.CHR_CTL 15, 7)]), 15, 1, by decide +kernel⟩,
    ⟨st (rg [(Reg.CHR_CTL 15, 0x00640007)]), 15, 101, by decide +kernel⟩,
    ⟨st (fun d => chro 0 (fun x => { x with count := 9, ticks := [1] }) (rg [(Reg.CHR_CTL 0, 13), (Reg.CHR_RELOAD 0, 5)] d)),
      0, [], by decide +kernel⟩,
    ⟨(st (rg [(Reg.CHR_CTL 15, 0x20007)])).dev, 15, 3, 0, 3, by decide +kernel⟩,
    ⟨(st (rg [(Reg.CHR_CTL 15, 0x20007)])).dev, 15, 3, 0, 3, 6, by decide +kernel⟩,
    ⟨up, 15, 1, by decide +kernel⟩,
    ⟨st (fr (fun f => { f with refValid := false })), 7, 15, 31, Reg.CHR_START, .chrStart 7, by decide +kernel⟩,
    ⟨up, 0x80008001, by decide +kernel⟩,
    ⟨st (rg [(Reg.CHR_CTL 15, 7)]), 0xFFFF, by decide +kernel⟩,
    ⟨st (chro 15 (fun x => { x with count := 7 })), 15, 0x8001, by decide +kernel⟩,
    ⟨st (chro 15 (fun x => { x with count := 7 })), 15, 6, by decide +kernel⟩,
    ⟨st (fun d => chro 15 (fun x => { x with count := 7, cap := [0, 0], capDue := [[5], [0, 6]] }) (rg [(Reg.CHR_STAT 15,
      0x20)] d)), 15, 1, by decide +kernel⟩,
    ⟨st (chro 15 (fun x => { x with count := 7 })), 15, 0xFFFFFFFF, by decide +kernel⟩,
    ⟨st (rg [(Reg.CHR_STAT 15, 0xFF)]), 15, 1, by decide +kernel⟩⟩

/-- As the statement says it. -/
abbrev ChronographPinsAndEventCounters_tot (b : List (Nat × Nat × Nat)) (e c : Nat) : Nat := ((b.filter (fun o => o.1 == e &&
  o.2.1 == c)).map (fun o => o.2.2)).sum

/-- States and operands that meet the hypotheses of `Obligations.ChronographPinsAndEventCounters`, clause by clause. -/
theorem wit_ChronographPinsAndEventCounters :
    (∃ s : State, ∃ k : Nat, ∃ level : Bool, s.dev.chrRuns = true ∧ s.dev.sees Dom.ctrl = true ∧ k < 4 ∧ s.dev.cnt.ins.length =
      4 ∧ at_ s.dev.cnt.ins k false = !level) ∧
    (∃ s : State, ∃ k : Nat, ∃ level : Bool, at_ s.dev.cnt.ins k false = level) ∧
    (∃ s : State, ∃ k : Nat, ∃ x : Nat, ∃ l : Bool, ∃ r : List (Nat × Bool), s.dev.chrRuns = true ∧ (s.dev.chrOut k).way = (x,
      l) :: r ∧ edgeNear s.dev x = true) ∧
    (∃ s : State, ∃ k : Nat, ∃ x : Nat, ∃ l : Bool, ∃ r : List (Nat × Bool), s.dev.chrRuns = true ∧ (s.dev.chrOut k).way = (x,
      l) :: r ∧ edgeNear s.dev x = false) ∧
    (∃ d : Dev, ∃ c : Nat, ∃ k : Nat, ∃ _ : Bool, ∃ _ : Bool, d.fld (Reg.CHR_OUTCTL k) 11 8 = c ∧ d.fld (Reg.CHR_OUTCTL k) 2 0
      = 4 ∧ k < d.cnt.outs.length) ∧
    (∃ s : State, ∃ k : Nat, ∃ x : Nat, s.dev.chrRuns = true ∧ (s.dev.chrOut k).pulse = some x ∧ edgeNear s.dev x = true) ∧
    (∃ s : State, ∃ k : Nat, ∃ x : Nat, s.dev.chrRuns = true ∧ (s.dev.chrOut k).pulse = some x ∧ edgeNear s.dev x = false) ∧
    (∃ s : State, ∃ k : Nat, (s.dev.chrOut k).pulse = none) ∧
    (∃ s : State, ∃ e : Nat, ∃ n : Nat, ∃ inc : Nat, ∃ b : List (Nat × Nat × Nat), s.dev.chrRuns = true ∧ b = s.dev.cnt.bus ∧
      b.head?.map Prod.fst = some e ∧ edgeNear s.dev (e + 1) = true ∧ s.dev.cnt.evc.length = 32 ∧ s.dev.cnt.evcHeld.length = 32
      ∧ ((∀ v ∈ s.dev.cnt.evc ++ s.dev.cnt.evcHeld, v < 2 ^ 48)) ∧ n < 32 ∧ inc = min (ChronographPinsAndEventCounters_tot b e
      (s.dev.fld (Reg.EVC_CFG n) 6 0)) 255) ∧
    (∃ _ : List (Nat × Nat × Nat), ∃ _ : Nat, ∃ c : Nat, c < 128) ∧
    (∃ _ : List (Nat × Nat × Nat), ∃ e : Nat, ∃ c : Nat, ∃ x : Nat, c < 128 ∧ x ≠ e ∧ x ≠ e + 1) ∧
    (∃ s : State, ∃ e : Nat, s.dev.cnt.bus.head?.map Prod.fst = some e ∧ edgeNear s.dev (e + 1) = false) ∧
    (∃ s : State, s.dev.cnt.bus = []) ∧
    (∃ s : State, ∃ v : Word, s.dev.chrRuns = true ∧ hostTurn s.dev = true ∧ v.getLsbD 1 = true) ∧
    (∃ s : State, ∃ v : Word, s.dev.chrRuns = true ∧ hostTurn s.dev = true ∧ v.getLsbD 2 = true) ∧
    (∃ s : State, ∃ v : Word, s.dev.chrRuns = true ∧ hostTurn s.dev = true ∧ v.getLsbD 4 = true) ∧
    (∃ s : State, ∃ _ : Word, s.dev.chrRuns = true ∧ hostTurn s.dev = true) ∧
    (∃ s : State, ∃ n : Nat, ∃ _ : Word, s.dev.chrRuns = true ∧ hostTurn s.dev = true ∧ n < 32 ∧ n < s.dev.cnt.evc.length) := ⟨
    ⟨st (rg [(Reg.CHR_CTL 3, 0x680B)]), 3, true, by decide +kernel⟩,
    ⟨up, 3, false, by decide +kernel⟩,
    ⟨st (ct (fun c => { c with outs := List.replicate 4 { ChrOut.reset with way := [(3, true)] } })), 3, 3, true, [],
      by decide +kernel⟩,
    ⟨st (ct (fun c => { c with outs := List.replicate 4 { ChrOut.reset with way := [(64, true)] } })), 3, 64, true, [],
      by decide +kernel⟩,
    ⟨(st (rg [(Reg.CHR_OUTCTL 3, 0x00053F04)])).dev, 15, 3, false, true, by decide +kernel⟩,
    ⟨st (ct (fun c => { c with outs := List.replicate 4 { ChrOut.reset with pulse := some 5, mode := true } })), 3, 5,
      by decide +kernel⟩,
    ⟨st (ct (fun c => { c with outs := List.replicate 4 { ChrOut.reset with pulse := some 64, mode := true } })), 3, 64,
      by decide +kernel⟩,
    ⟨up, 3, by decide +kernel⟩,
    ⟨st (fun d => ct (fun c => { c with run := true, bus := [(3, 7, 300), (3, 7, 2), (4, 1, 1)] }) (rg [(Reg.EVC_CFG 31, 0x87)]
      d)), 3, 31, 255, [(3, 7, 300), (3, 7, 2), (4, 1, 1)], by decide +kernel⟩,
    ⟨[(3, 7, 300), (4, 7, 1)], 3, 7, by decide +kernel⟩,
    ⟨[(3, 7, 300), (4, 7, 1)], 3, 7, 9, by decide +kernel⟩,
    ⟨st (ct (fun c => { c with run := true, bus := [(63, 1, 1)] })), 63, by decide +kernel⟩,
    ⟨up, by decide +kernel⟩,
    ⟨up, 2, by decide +kernel⟩,
    ⟨up, 6, by decide +kernel⟩,
    ⟨up, 0x18, by decide +kernel⟩,
    ⟨up, 0xFFFFFFFF, by decide +kernel⟩,
    ⟨up, 31, 0x1FF, by decide +kernel⟩⟩

/-- As the statement says it. -/
abbrev PowerBatchesAreSettledOrStarted_quiet (s : State) : Prop := (∀ m, (s.dev.dom m).phase = .rest ∧ (s.dev.dom m).wakeNext =
  none) ∧ s.dev.pwr.open_ = [] ∧ s.dev.pwr.arb = []

/-- As the statement says it. -/
abbrev PowerBatchesAreSettledOrStarted_asks (s : State) (v : Word) (n code : Nat) : Prop :=
  PowerBatchesAreSettledOrStarted_quiet s ∧ hostTurn s.dev = true ∧ v.getLsbD 0 = true ∧ v.bits 9 8 = code ∧ s.dev.reg
  Reg.PWR_REQ_MASK = BitVec.ofNat 32 (2 ^ n) ∧ 0 < n ∧ n < 30 ∧ n < s.dev.pwr.doms.length

/-- States and operands that meet the hypotheses of `Obligations.PowerBatchesAreSettledOrStarted`, clause by clause. -/
theorem wit_PowerBatchesAreSettledOrStarted :
    (∃ s : State, ∃ v : Word, ∃ n : Nat, ∃ t : DomState, ((v.bits 9 8 = 1 ∧ t = .ret) ∨ (v.bits 9 8 = 2 ∧ t = .off)) ∧
      PowerBatchesAreSettledOrStarted_asks s v n (v.bits 9 8) ∧ (s.dev.dom n).state = .on ∧ dependentOn s.dev n = false) ∧
    (∃ s : State, ∃ v : Word, ∃ n : Nat, ∃ t : DomState, ((v.bits 9 8 = 1 ∧ t = .ret) ∨ (v.bits 9 8 = 2 ∧ t = .off)) ∧
      PowerBatchesAreSettledOrStarted_asks s v n (v.bits 9 8) ∧ (s.dev.dom n).state = .on ∧ dependentOn s.dev n = true) ∧
    (∃ s : State, ∃ v : Word, ∃ n : Nat, PowerBatchesAreSettledOrStarted_asks s v n 2 ∧ (s.dev.dom n).state = .ret) ∧
    (∃ s : State, ∃ v : Word, ∃ n : Nat, PowerBatchesAreSettledOrStarted_asks s v n 1 ∧ (s.dev.dom n).state = .off) ∧
    (∃ s : State, ∃ v : Word, ∃ n : Nat, PowerBatchesAreSettledOrStarted_asks s v n 0 ∧ (s.dev.dom n).state = .on ∧ ((∀ m, m ∈
      allPrereqs n → (s.dev.dom m).state = .on))) ∧
    (∃ s : State, ∃ v : Word, ∃ n : Nat, PowerBatchesAreSettledOrStarted_asks s v n 0 ∧ (s.dev.dom n).state ≠ .on ∧ ((∀ m, m ∈
      allPrereqs n → (s.dev.dom m).state = .on))) ∧
    (∃ s : State, ∃ v : Word, ∃ n : Nat, hostTurn s.dev = true ∧ v.getLsbD 0 = true ∧ v.bits 9 8 ∈ [1, 2] ∧ 0 < n ∧ n < 30 ∧ n
      < s.dev.pwr.doms.length ∧ s.dev.reg Reg.PWR_REQ_MASK = BitVec.ofNat 32 (2 ^ n) ∧ n ∈ s.dev.pwr.arb ∧ (s.dev.dom n).phase
      = .waking) ∧
    (∃ s : State, ∃ v : Word, ∃ n : Nat, ∃ t : DomState, hostTurn s.dev = true ∧ v.getLsbD 0 = true ∧ v.bits 9 8 ∈ [1, 2] ∧ 0 <
      n ∧ n < 30 ∧ n < s.dev.pwr.doms.length ∧ s.dev.reg Reg.PWR_REQ_MASK = BitVec.ofNat 32 (2 ^ n) ∧ s.dev.pwr.arb = [] ∧
      (s.dev.dom n).phase = .acked t) ∧
    (∃ s : State, ∃ v : Word, hostTurn s.dev = true ∧ (v.getLsbD 0 = false ∨ v.bits 9 8 = 3)) := ⟨
    ⟨st (rg [(Reg.PWR_REQ_MASK, 0x20000000)]), 0x201, 29, .off, by decide +kernel, ⟨⟨quiet_doms _ (by decide +kernel), rfl,
      rfl⟩, by decide +kernel⟩, by decide +kernel⟩,
    ⟨st (rg [(Reg.PWR_REQ_MASK, 2)]), 0x101, 1, .ret, by decide +kernel, ⟨⟨quiet_doms _ (by decide +kernel), rfl, rfl⟩,
      by decide +kernel⟩, by decide +kernel⟩,
    ⟨st (fun d => rg [(Reg.PWR_REQ_MASK, 0x20000000)] (dm 29 (fun x => { x with state := .ret }) d)), 0x201, 29, ⟨⟨quiet_doms _
      (by decide +kernel), rfl, rfl⟩, by decide +kernel⟩, by decide +kernel⟩,
    ⟨st (fun d => rg [(Reg.PWR_REQ_MASK, 0x20000000)] (off 29 d)), 0x101, 29, ⟨⟨quiet_doms _ (by decide +kernel), rfl, rfl⟩,
      by decide +kernel⟩, by decide +kernel⟩,
    ⟨st (rg [(Reg.PWR_REQ_MASK, 0x20000000)]), 1, 29, ⟨⟨quiet_doms _ (by decide +kernel), rfl, rfl⟩, by decide +kernel⟩,
      by decide +kernel⟩,
    ⟨st (fun d => rg [(Reg.PWR_REQ_MASK, 0x20000000)] (off 29 d)), 1, 29, ⟨⟨quiet_doms _ (by decide +kernel), rfl, rfl⟩,
      by decide +kernel⟩, by decide +kernel⟩,
    ⟨st (fun d =>
      { (dm 29 (fun x => { x with phase := .waking, state := .off }) (rg [(Reg.PWR_REQ_MASK, 0x20000000)] d)) with pwr := { (dm 29 (fun x => { x with phase := .waking, state := .off }) d).pwr with arb := [29] } }),
      0x201, 29, by decide +kernel⟩,
    ⟨st (fun d => dm 29 (fun x => { x with phase := .acked .ret, wakeNext := some 3 }) (rg [(Reg.PWR_REQ_MASK, 0x20000000)]
      d)), 0x201, 29, .ret, by decide +kernel⟩,
    ⟨up, 0x301, by decide +kernel⟩⟩

/-- As the statement says it. -/
abbrev AgentsAnswerEntryRequests_asked (s : State) (n : Nat) (t : DomState) : Prop := (s.dev.dom n).phase = .asked t ∧
  dependentEntering s.dev n = false ∧ dependentOn s.dev n = false

/-- States and operands that meet the hypotheses of `Obligations.AgentsAnswerEntryRequests`, clause by clause. -/
theorem wit_AgentsAnswerEntryRequests :
    (∃ s : State, ∃ n : Nat, ∃ t : DomState, AgentsAnswerEntryRequests_asked s n t ∧ n < 13 ∧ agentRefuses s.dev n ≠ 0) ∧
    (∃ s : State, ∃ n : Nat, ∃ t : DomState, AgentsAnswerEntryRequests_asked s n t ∧ n < 13 ∧ agentRefuses s.dev n = 0 ∧
      agentDelays s.dev n = true) ∧
    (∃ s : State, ∃ n : Nat, ∃ t : DomState, AgentsAnswerEntryRequests_asked s n t ∧ n < 13 ∧ agentRefuses s.dev n = 0 ∧
      agentDelays s.dev n = false) ∧
    (∃ s : State, ∃ c : Nat, ∃ v : Nat, ∃ t : DomState, AgentsAnswerEntryRequests_asked s (14 + c) t ∧ v ∈ cluSlots c ∧
      slotBusy s.dev v = true) ∧
    (∃ d : Dev, d.mgt.session.isSome = true) ∧
    (∃ d : Dev, ((∃ t ∈ d.alm.pool, t.state = .waiting))) ∧
    (∃ d : Dev, ((∃ k, k < 6 ∧ d.flag (Reg.TDM_CTL k) 0 = true))) ∧
    (∃ d : Dev, d.cas.en = true) ∧
    (∃ d : Dev, d.cal.fgBusy = true) ∧
    (∃ d : Dev, ∃ g : Nat, ∃ k : Nat, g < 4 ∧ k < 8 ∧ d.flag Reg.OUT_EN (8 * g + k) = true) ∧
    (∃ s : State, ∃ n : Nat, ∃ t : DomState, (s.dev.dom n).phase = .delayed t) ∧
    (∃ s : State, ∃ n : Nat, ∃ t : DomState, (s.dev.dom n).phase = .asked t) ∧
    (∃ s : State, ∃ n : Nat, (s.dev.dom n).phase = .rest) := ⟨
    ⟨st (fun d => rg [(Reg.TDM_CTL 5, 1)] (dm Dom.tdm (fun x => { x with phase := .asked .off }) d)), Dom.tdm, .off,
      by decide +kernel⟩,
    ⟨st (fun d => tp 5 (fun p => { p with run := true }) (dm Dom.tdm (fun x => { x with phase := .asked .off }) d)), Dom.tdm,
      .off, by decide +kernel⟩,
    ⟨st (dm Dom.tdm (fun x => { x with phase := .asked .ret })), Dom.tdm, .ret, by decide +kernel⟩,
    ⟨st (fun d => voice 255 .sounding 0 60 (dm 29 (fun x => { x with phase := .asked .off }) d)), 15, 255, .off,
      by decide +kernel⟩,
    ⟨(st (fun d => mg (fun m => { m with session := some ⟨0, 0, 1, 5, 0⟩ }) d)).dev, by decide +kernel⟩,
    ⟨(st (pool [{ tk 5 Typ.user with state := .waiting }])).dev, by decide +kernel⟩,
    ⟨(st (rg [(Reg.TDM_CTL 5, 1)])).dev, by decide +kernel⟩,
    ⟨(st (fun d => { d with cas := { d.cas with en := true } })).dev, by decide +kernel⟩,
    ⟨(st (cu (fun x => { x with fgBusy := true }))).dev, by decide +kernel⟩,
    ⟨(st (rg [(Reg.OUT_EN, 0x80000000)])).dev, 3, 7, by decide +kernel⟩,
    ⟨st (dm 29 (fun x => { x with phase := .delayed .off })), 29, .off, by decide +kernel⟩,
    ⟨st (dm 29 (fun x => { x with phase := .asked .off })), 29, .off, by decide +kernel⟩,
    ⟨up, 29, by decide +kernel⟩⟩

/-- States and operands that meet the hypotheses of `Obligations.DomainsEnterAndWake`, clause by clause. -/
theorem wit_DomainsEnterAndWake :
    (∃ s : State, ∃ n : Nat, ∃ t : DomState, (s.dev.dom n).phase = .acked t ∧ execDomain s.dev = some n ∧ (s.dev.dom
      n).wakeNext = none ∧ n ≠ 0 ∧ (s.dev.dom n).entryNext = none ∧ saveRamBorrowed s.dev = false) ∧
    (∃ s : State, ∃ n : Nat, (s.dev.dom n).phase = .rest) ∧
    (∃ s : State, ∃ _ : Nat, saveRamBorrowed s.dev = true) ∧
    (∃ s : State, ∃ n : Nat, (s.dev.dom n).phase = .rest ∧ s.dev.boot.streams = []) ∧
    (∃ s : State, ∃ n : Nat, (s.dev.dom n).phase = .waking ∧ execDomain s.dev = some n ∧ ((n = Dom.ctrl → s.dev.frame.refValid
      = true)) ∧ ((n = Dom.mgmt → (s.dev.dom n).cold = false))) ∧
    (∃ s : State, ∃ _ : Word, hostTurn s.dev = true) := ⟨
    ⟨st (fun d => dm Dom.tdm (fun x => { x with phase := .acked .off }) { d with pwr := { d.pwr with ready := [Dom.tdm] } }),
      Dom.tdm, .off, by decide +kernel⟩,
    ⟨up, 29, by decide +kernel⟩,
    ⟨st (patr (fun p => { p with borrowed := true, bank := 0x29 })), 29, by decide +kernel⟩,
    ⟨up, 29, by decide +kernel⟩,
    ⟨st (fun d => dm Dom.serial (fun x => { x with phase := .waking, state := .ret, saved := [(Reg.SER_DIV 3, 0x55)] })
      { d with pwr := { d.pwr with ready := [Dom.serial] } }), Dom.serial, by decide +kernel⟩,
    ⟨st (dm 29 (fun x => { x with latched := true })), 0xFFFFFFFF, by decide +kernel⟩⟩

/-- States and operands that meet the hypotheses of `Obligations.WakesRetryAndSourcesFire`, clause by clause. -/
theorem wit_WakesRetryAndSourcesFire :
    (∃ s : State, ∃ n : Nat, ∃ st : Nat, ∃ f : Nat, (s.dev.dom n).phase = .waking ∧ ((st = 2 ∧ f = 1) ∨ (n = Dom.ctrl ∧ st = 3
      ∧ f = 2)) ∧ (s.dev.dom n).attempts < 3) ∧
    (∃ s : State, ∃ n : Nat, ∃ st : Nat, ∃ f : Nat, (s.dev.dom n).phase = .waking ∧ ((st = 2 ∧ f = 1) ∨ (n = Dom.ctrl ∧ st = 3
      ∧ f = 2)) ∧ 3 ≤ (s.dev.dom n).attempts) ∧
    (∃ s : State, ∃ n : Nat, (s.dev.dom n).phase = .rest) ∧
    (∃ s : State, ∃ n : Nat, (s.dev.dom n).phase = .retryWait) ∧
    (∃ s : State, ∃ n : Nat, (s.dev.dom n).phase ≠ .retryWait) ∧
    (∃ s : State, ∃ src : Nat, ∃ n : Nat, s.dev.stage ≠ 0 ∧ wakeEnabled s.dev src = true ∧ wakeTargets s.dev src = [n] ∧
      (s.dev.dom n).state ≠ .on ∧ (s.dev.dom n).phase = .rest ∧ ((∀ m, m ∈ allPrereqs n → (s.dev.dom m).state = .on ∧
      (s.dev.dom m).phase = .rest)) ∧ n < s.dev.pwr.doms.length) ∧
    (∃ s : State, ∃ src : Nat, ∃ n : Nat, ∃ t : DomState, s.dev.stage ≠ 0 ∧ wakeEnabled s.dev src = true ∧ wakeTargets s.dev
      src = [n] ∧ (s.dev.dom n).state = .on ∧ ((∀ m, m ∈ allPrereqs n → (s.dev.dom m).state = .on ∧ (s.dev.dom m).phase =
      .rest)) ∧ n < s.dev.pwr.doms.length ∧ (s.dev.dom n).phase = .asked t) ∧
    (∃ s : State, ∃ src : Nat, ∃ n : Nat, ∃ t : DomState, s.dev.stage ≠ 0 ∧ wakeEnabled s.dev src = true ∧ wakeTargets s.dev
      src = [n] ∧ (s.dev.dom n).state = .on ∧ ((∀ m, m ∈ allPrereqs n → (s.dev.dom m).state = .on ∧ (s.dev.dom m).phase =
      .rest)) ∧ n < s.dev.pwr.doms.length ∧ (s.dev.dom n).phase = .acked t) ∧
    (∃ s : State, ∃ src : Nat, wakeEnabled s.dev src = false) ∧
    (∃ s : State, ∃ src : Nat, wakeEnabled s.dev src = true ∧ s.dev.stage ≠ 0 ∧ ((∀ n ∈ wakeTargets s.dev src, ((s.dev.dom
      n).state = .on ∧ (s.dev.dom n).entering = false) ∨ (s.dev.dom n).wakes = true))) ∧
    (∃ d : Dev, ∃ n : Nat, n < 4 ∧ d.fld (Reg.PWR_WAKE_SP n) 1 0 = 2) ∧
    (∃ s : State, ∃ n : Nat, ∃ _ : Nat, ∃ _ : Nat, n < 4 ∧ n < s.dev.pwr.dets.length ∧ s.dev.fld (Reg.PWR_WAKE_SP n) 1 0 = 2 ∧
      (at_ s.dev.pwr.dets n ⟨false, 0⟩).disarmed = false) ∧
    (∃ s : State, ∃ n : Nat, n < s.dev.pwr.dets.length) := ⟨
    ⟨st (dm 29 (fun x => { x with phase := .waking, state := .off })), 29, 2, 1, by decide +kernel⟩,
    ⟨st (dm 29 (fun x => { x with phase := .waking, state := .off, attempts := 3 })), 29, 2, 1, by decide +kernel⟩,
    ⟨up, 29, by decide +kernel⟩,
    ⟨st (dm 29 (fun x => { x with phase := .retryWait, state := .off })), 29, by decide +kernel⟩,
    ⟨up, 29, by decide +kernel⟩,
    ⟨st (fun d => rg [(Reg.PWR_WAKE_SP 3, 1), (Reg.PWR_WAKE_TGT 3, 0x20000000)] (off 29 d)), 3, 29, by decide +kernel⟩,
    ⟨st (fun d => dm 29 (fun x => { x with phase := .asked .ret }) (rg [(Reg.PWR_WAKE_SP 3, 1), (Reg.PWR_WAKE_TGT 3,
      0x20000000)] d)), 3, 29, .ret, by decide +kernel⟩,
    ⟨st (fun d => dm 29 (fun x => { x with phase := .acked .ret }) (rg [(Reg.PWR_WAKE_SP 3, 1), (Reg.PWR_WAKE_TGT 3,
      0x20000000)] d)), 3, 29, .ret, by decide +kernel⟩,
    ⟨up, 3, by decide +kernel⟩,
    ⟨st (fun d => (rg [(Reg.PWR_WAKE_SP 3, 1), (Reg.PWR_WAKE_TGT 3, 0x20000000)] d)), 3, by decide +kernel⟩,
    ⟨(st (rg [(Reg.PWR_WAKE_SP 3, 2)])).dev, 3, by decide +kernel⟩,
    ⟨st (rg [(Reg.PWR_WAKE_SP 3, 0xE), (Reg.PWR_WAKE_WIN 3, 0x00640064)]), 3, 100, 400, by decide +kernel⟩,
    ⟨st (fun d => { d with pwr := { d.pwr with dets := List.replicate 4 ⟨true, 2⟩ } }), 3, by decide +kernel⟩⟩

/-- States and operands that meet the hypotheses of `Obligations.SensorsRaiseAlarms`, clause by clause. -/
theorem wit_SensorsRaiseAlarms :
    (∃ s : State, ∃ _ : List Word, ∃ _ : List Word, s.held = true) ∧
    (∃ s : State, ∃ _ : List Word, ∃ _ : List Word, s.held = false ∧ s.dev.mgt.supply.length = 6) ∧
    (∃ s : State, ∃ _ : Word, hostTurn s.dev = true) := ⟨
    ⟨{ up with prot := { Prot.reset with jtag := 0 } }, [], [], by decide +kernel⟩,
    ⟨st (fun d => mg (fun m => { m with twarn := { Alarm.reset 17 with runs := List.replicate 17 2 } }) d), List.replicate 17
      0x7FFF, List.replicate 6 1200, by decide +kernel⟩,
    ⟨st (rg [(Reg.MGT_FAULT, 0xFFFFFFFF)]), 0xFFFFFFFF, by decide +kernel⟩⟩

/-- As the statement says it. -/
abbrev LogEntriesReachTheRingAndTheMirror_at16 (s : State) : Nat := logRing + 16 * (s.dev.mgt.total % 4096)

/-- As the statement says it. -/
abbrev LogEntriesReachTheRingAndTheMirror_free (s : State) : Prop := borrowedAt s.dev 0x28
  (LogEntriesReachTheRingAndTheMirror_at16 s) 16 = false

/-- States and operands that meet the hypotheses of `Obligations.LogEntriesReachTheRingAndTheMirror`, clause by clause. -/
theorem wit_LogEntriesReachTheRingAndTheMirror :
    (∃ e : LogEv, e.ef < 2 ^ 40 ∧ e.source < 256 ∧ e.code < 256 ∧ e.sev < 4 ∧ e.pos < 8 ∧ e.data.length = 8) ∧
    (∃ s : State, ∃ e : LogEv, ∃ r : List LogEv, firmwareUp s.dev = true ∧ LogEntriesReachTheRingAndTheMirror_free s ∧
      s.dev.mgt.wdogLog = false ∧ s.dev.mgt.lost = 0 ∧ s.dev.mgt.own = [] ∧ s.dev.mgt.queue = e :: r) ∧
    (∃ s : State, ∃ e : LogEv, ∃ r : List LogEv, firmwareUp s.dev = true ∧ LogEntriesReachTheRingAndTheMirror_free s ∧
      s.dev.mgt.wdogLog = false ∧ s.dev.mgt.lost = 0 ∧ s.dev.mgt.own = e :: r) ∧
    (∃ s : State, firmwareUp s.dev = true ∧ LogEntriesReachTheRingAndTheMirror_free s ∧ s.dev.mgt.wdogLog = false ∧ 0 <
      s.dev.mgt.lost) ∧
    (∃ s : State, firmwareUp s.dev = true ∧ LogEntriesReachTheRingAndTheMirror_free s ∧ s.dev.mgt.wdogLog = true) ∧
    (∃ s : State, (firmwareUp s.dev = false ∨ borrowedAt s.dev 0x28 (LogEntriesReachTheRingAndTheMirror_at16 s) 16 = true)) ∧
    (∃ s : State, ∃ a : Nat, mirrorRuns s.dev = true ∧ mirrorWaiting s.dev = 1 ∧ s.dev.mgt.total < s.dev.mgt.mirrored + 4096 ∧
      s.dev.mgt.mirrorUp = true ∧ s.dev.mgt.mirrorPos < 4095 ∧ a = mirrorBase s s.dev.mgt.mirrorSec + 16 + 16 *
      s.dev.mgt.mirrorPos) ∧
    (∃ s : State, ∃ a : Nat, mirrorRuns s.dev = true ∧ mirrorWaiting s.dev = 1 ∧ s.dev.mgt.total < s.dev.mgt.mirrored + 4096 ∧
      s.dev.mgt.mirrorUp = true ∧ s.dev.mgt.mirrorPos < 4095 ∧ a = mirrorBase s s.dev.mgt.mirrorSec + 16 + 16 *
      s.dev.mgt.mirrorPos) ∧
    (∃ s : State, ∃ _ : Bool, mirrorWaiting s.dev = 0) := ⟨
    ⟨ev, by decide +kernel⟩,
    ⟨st (fun d => mg (fun m => { m with total := 4095, queue := [{ ev with noref := false }] }) d), { ev with noref := false },
      [], by decide +kernel⟩,
    ⟨st (mg (fun m => { m with own := [ev] })), ev, [], by decide +kernel⟩,
    ⟨st (fun d => mg (fun m => { m with lost := 3 }) d), by decide +kernel⟩,
    ⟨st (fun d => mg (fun m => { m with wdogLog := true }) d), by decide +kernel⟩,
    ⟨st (off Dom.mgmt), by decide +kernel⟩,
    ⟨st (fun d => rg [(Reg.MGT_LOG_CTL, 1)] (mg (fun m => { m with total := 1, mirrorUp := true, mirrorPos := 4094 }) (bt (fun
      b => { b with logBase := 0x10000 }) d))), 0x10000 + 16 + 16 * 4094, by decide +kernel⟩,
    ⟨st (fun d => rg [(Reg.MGT_LOG_CTL, 1)] (mg (fun m => { m with total := 1, mirrorUp := true }) (bt (fun b =>
      { b with logBase := 0x10000 }) d))), 0x10010, by decide +kernel⟩,
    ⟨up, true, by decide +kernel⟩⟩

/-- As the statement says it. -/
abbrev MailboxInformationCommands_posted (s : State) (cmd tag : Nat) (p : List Byte) : Prop := mailboxOpen s.dev = true ∧
  s.dev.mgt.busy = true ∧ s.dev.mgt.response = none ∧ s.dev.mgt.request = leBytes 1 cmd ++ leBytes 1 tag ++ leBytes 2 p.length
  ++ p ∧ p.length ≤ 60 ∧ tag < 256 ∧ s.dev.stage ≠ Stage.romWait

/-- States and operands that meet the hypotheses of `Obligations.MailboxInformationCommands`, clause by clause. -/
theorem wit_MailboxInformationCommands :
    (∃ s : State, ∃ v : Word, s.dev.isOn Dom.hostp = true ∧ hostMayWrite s.dev Reg.MGT_MB_CTL = true ∧ s.dev.isOn Dom.mgmt =
      true ∧ v.getLsbD 0 = true ∧ s.dev.mgt.busy = false) ∧
    (∃ s : State, ∃ v : Word, s.dev.isOn Dom.hostp = true ∧ hostMayWrite s.dev Reg.MGT_MB_CTL = true ∧ s.dev.isOn Dom.mgmt =
      true ∧ v.getLsbD 0 = true ∧ s.dev.mgt.busy = true) ∧
    (∃ s : State, ∃ v : Word, s.dev.isOn Dom.hostp = true ∧ hostMayWrite s.dev Reg.MGT_MB_CTL = true ∧ s.dev.isOn Dom.mgmt =
      true ∧ v.getLsbD 0 = false) ∧
    (∃ s : State, ∃ tag : Nat, MailboxInformationCommands_posted s 0x01 tag []) ∧
    (∃ s : State, ∃ tag : Nat, ∃ p : List Byte, MailboxInformationCommands_posted s 0x02 tag p ∧ p.length = 12 ∧ romStage s.dev
      = false ∧ s.dev.mgt.wdogLog = false ∧ s.dev.mgt.lost = 0) ∧
    (∃ s : State, ∃ tag : Nat, MailboxInformationCommands_posted s 0x03 tag [] ∧ romStage s.dev = false ∧ mirrorRuns s.dev =
      true) ∧
    (∃ s : State, ∃ tag : Nat, MailboxInformationCommands_posted s 0x03 tag [] ∧ romStage s.dev = false ∧ mirrorRuns s.dev =
      true ∧ 0 < mirrorWaiting s.dev) ∧
    (∃ s : State, ∃ tag : Nat, ∃ _ : Bool, MailboxInformationCommands_posted s 0x03 tag [] ∧ romStage s.dev = false ∧
      mirrorRuns s.dev = false) ∧
    (∃ s : State, ∃ tag : Nat, MailboxInformationCommands_posted s 0x20 tag [] ∧ s.dev.nvReach = false) ∧
    (∃ s : State, ∃ tag : Nat, MailboxInformationCommands_posted s 0x20 tag [] ∧ s.dev.nvReach = true) ∧
    (∃ s : State, ∃ tag : Nat, ∃ a : Nat, ∃ n : Nat, ∃ m : Nat, a < 2 ^ 32 ∧ n < 256 ∧ MailboxInformationCommands_posted s 0x21
      tag (leBytes 4 a ++ leBytes 1 n) ∧ m = (if n = 0 then 56 else n) ∧ m ≤ 56 ∧ a + m ≤ flashSize ∧ s.dev.nvReach = false) ∧
    (∃ s : State, ∃ tag : Nat, ∃ a : Nat, ∃ n : Nat, ∃ m : Nat, a < 2 ^ 32 ∧ n < 256 ∧ MailboxInformationCommands_posted s 0x21
      tag (leBytes 4 a ++ leBytes 1 n) ∧ m = (if n = 0 then 56 else n) ∧ m ≤ 56 ∧ a + m ≤ flashSize ∧ s.dev.nvReach = true) ∧
    (∃ s : State, ∃ tag : Nat, ∃ a : Nat, ∃ n : Nat, ∃ m : Nat, a < 2 ^ 32 ∧ n < 256 ∧ MailboxInformationCommands_posted s 0x21
      tag (leBytes 4 a ++ leBytes 1 n) ∧ m = (if n = 0 then 56 else n) ∧ (56 < m ∨ flashSize < a + m)) ∧
    (∃ s : State, ∃ ok : Bool, ∃ c ∈ [Instr.getInfo, .logAdd, .logSync ok, .updBegin ok, .updData ok,
    .updDram ok, .updEnd
      ok, .updAbort, .rollbackAdv, .setPrefer ok, .nvmId, .nvmRead, .nvmErase ok, .nvmProg ok], s.dev.mgt.busy = false) ∧
    (∃ s : State, s.dev.mgt.busy = false ∧ s.dev.cas.fwdPort = none) ∧
    (∃ s : State, ∃ r : List Byte, mailboxOpen s.dev = true ∧ s.dev.mgt.busy = true ∧ s.dev.mgt.response = some r) ∧
    (∃ s : State, ∃ cmd : Nat, ∃ tag : Nat, ∃ p : List Byte, MailboxInformationCommands_posted s cmd tag p ∧ cmd < 256 ∧ cmd ∉
      allCommands ∧ mailFwdOut s.dev = false) := ⟨
    ⟨up, 1, by decide +kernel⟩,
    ⟨st (mg (fun m => { m with busy := true })), 1, by decide +kernel⟩,
    ⟨up, 2, by decide +kernel⟩,
    ⟨st (req 1 255 []), 255, by decide +kernel⟩,
    ⟨st (req 2 7 [5, 0, 0, 0, 1, 2, 3, 4, 5, 6, 7, 8]), 7, bytes [5, 0, 0, 0, 1, 2, 3, 4, 5, 6, 7, 8], by decide +kernel⟩,
    ⟨st (fun d => rg [(Reg.MGT_LOG_CTL, 1)] (req 3 7 [] (mg (fun m => { m with total := 1 }) (bt (fun b =>
      { b with logBase := 0x10000 }) d)))), 7, by decide +kernel⟩,
    ⟨st (fun d => rg [(Reg.MGT_LOG_CTL, 1)] (req 3 7 [] (mg (fun m => { m with total := 1, mirrorUp := true }) (bt (fun b =>
      { b with logBase := 0x10000 }) d)))), 7, by decide +kernel⟩,
    ⟨st (fun d => rg [(Reg.MGT_LOG_CTL, 0)] (req 3 7 [] d)), 7, true, by decide +kernel⟩,
    ⟨st (fun d => req 0x20 7 [] (dm Dom.mgmt (fun x => { x with latched := true }) d)), 7, by decide +kernel⟩,
    ⟨st (req 0x20 7 []), 7, by decide +kernel⟩,
    ⟨st (fun d => req 0x21 3 [0, 0, 0, 0, 1] (dm Dom.mgmt (fun x => { x with latched := true }) d)), 3, 0, 1, 1,
      by decide +kernel, by decide +kernel, by decide +kernel, by decide +kernel, by decide +kernel, flash_one,
      by decide +kernel⟩,
    ⟨st (req 0x21 7 [0, 0, 0, 0, 1]), 7, 0, 1, 1, by decide +kernel, by decide +kernel, by decide +kernel, by decide +kernel,
      by decide +kernel, flash_one, by decide +kernel⟩,
    ⟨st (req 0x21 7 [0, 0, 0, 0, 57]), 7, 0, 57, 57, by decide +kernel⟩,
    ⟨up, true, .nvmErase true, by decide +kernel, by decide +kernel⟩,
    ⟨up, by decide +kernel⟩,
    ⟨st (mg (fun m => { m with busy := true, response := some [1, 2, 0, 0] })), [1, 2, 0, 0], by decide +kernel⟩,
    ⟨st (req 0xFF 7 []), 0xFF, 7, [], by decide +kernel⟩⟩

/-- As the statement says it. -/
abbrev UpdateSessionsRunAndEnd_posted (s : State) (cmd tag : Nat) (p : List Byte) : Prop := mailboxOpen s.dev = true ∧
  s.dev.mgt.busy = true ∧ s.dev.mgt.response = none ∧ s.dev.mgt.request = leBytes 1 cmd ++ leBytes 1 tag ++ leBytes 2 p.length
  ++ p ∧ p.length ≤ 60 ∧ tag < 256 ∧ s.dev.stage ≠ Stage.romWait ∧ s.dev.nvReach = true

/-- As the statement says it. -/
abbrev UpdateSessionsRunAndEnd_mine (x : Session) : Prop := x.path = 0 ∧ x.port = 0

/-- As the statement says it. -/
abbrev UpdateSessionsRunAndEnd_why (s : State) (x : Session) (a n : Nat) : Nat := moverReason s.dev 2
  { Mover.reset with state := .busy, src := a, dst := s.dev.boot.base x.slot + x.got, srcSpace := 0, dstSpace := 7, length := n }

/-- States and operands that meet the hypotheses of `Obligations.UpdateSessionsRunAndEnd`, clause by clause. -/
theorem wit_UpdateSessionsRunAndEnd :
    (∃ s : State, ∃ tag : Nat, ∃ n : Nat, ∃ _ : Bool, n < 2 ^ 32 ∧ UpdateSessionsRunAndEnd_posted s 0x10 tag (leBytes 4 n) ∧
      s.dev.mgt.session = none ∧ s.dev.boot.base (1 - s.dev.slot) + n ≤ s.dev.boot.slotEnd (1 - s.dev.slot)) ∧
    (∃ s : State, ∃ tag : Nat, ∃ n : Nat, ∃ _ : Bool, n < 2 ^ 32 ∧ UpdateSessionsRunAndEnd_posted s 0x10 tag (leBytes 4 n) ∧
      s.dev.mgt.session = none ∧ s.dev.boot.slotEnd (1 - s.dev.slot) < s.dev.boot.base (1 - s.dev.slot) + n) ∧
    (∃ s : State, ∃ tag : Nat, ∃ n : Nat, ∃ _ : Bool, ∃ x : Session, n < 2 ^ 32 ∧ UpdateSessionsRunAndEnd_posted s 0x10 tag
      (leBytes 4 n) ∧ s.dev.mgt.session = some x ∧ ¬UpdateSessionsRunAndEnd_mine x) ∧
    (∃ s : State, ∃ tag : Nat, ∃ n : Nat, ∃ _ : Bool, ∃ x : Session, n < 2 ^ 32 ∧ UpdateSessionsRunAndEnd_posted s 0x10 tag
      (leBytes 4 n) ∧ s.dev.mgt.session = some x ∧ UpdateSessionsRunAndEnd_mine x) ∧
    (∃ s : State, ∃ tag : Nat, ∃ off : Nat, ∃ bs : List Byte, ∃ _ : Bool, off < 2 ^ 32 ∧ 0 < bs.length ∧
      UpdateSessionsRunAndEnd_posted s 0x11 tag (leBytes 4 off ++ bs) ∧ s.dev.mgt.session = none) ∧
    (∃ s : State, ∃ tag : Nat, ∃ off : Nat, ∃ bs : List Byte, ∃ _ : Bool, ∃ x : Session, off < 2 ^ 32 ∧ 0 < bs.length ∧
      UpdateSessionsRunAndEnd_posted s 0x11 tag (leBytes 4 off ++ bs) ∧ s.dev.mgt.session = some x ∧
      ¬UpdateSessionsRunAndEnd_mine x) ∧
    (∃ s : State, ∃ tag : Nat, ∃ off : Nat, ∃ bs : List Byte, ∃ _ : Bool, ∃ x : Session, off < 2 ^ 32 ∧ 0 < bs.length ∧
      UpdateSessionsRunAndEnd_posted s 0x11 tag (leBytes 4 off ++ bs) ∧ s.dev.mgt.session = some x ∧
      UpdateSessionsRunAndEnd_mine x ∧ (off ≠ x.got ∨ x.len < x.got + bs.length)) ∧
    (∃ s : State, ∃ tag : Nat, ∃ off : Nat, ∃ bs : List Byte, ∃ _ : Bool, ∃ x : Session, off < 2 ^ 32 ∧ 0 < bs.length ∧
      UpdateSessionsRunAndEnd_posted s 0x11 tag (leBytes 4 off ++ bs) ∧ s.dev.mgt.session = some x ∧
      UpdateSessionsRunAndEnd_mine x ∧ off = x.got ∧ x.got + bs.length ≤ x.len) ∧
    (∃ s : State, ∃ tag : Nat, ∃ off : Nat, ∃ a : Nat, ∃ k : Nat, ∃ n : Nat, ∃ x : Session, ∃ _ : Bool, off < 2 ^ 32 ∧ a < 2 ^
      32 ∧ k < 2 ^ 32 ∧ n = (if k = 0 then 1048576 else k) ∧ UpdateSessionsRunAndEnd_posted s 0x12 tag (leBytes 4 off ++
      leBytes 4 a ++ leBytes 4 k) ∧ romStage s.dev = false ∧ s.dev.mgt.session = some x ∧ UpdateSessionsRunAndEnd_mine x ∧ (n <
      64 ∨ 1048576 < n ∨ n % 64 ≠ 0 ∨ a % 4 ≠ 0 ∨ waveSize < a + n)) ∧
    (∃ s : State, ∃ tag : Nat, ∃ off : Nat, ∃ a : Nat, ∃ k : Nat, ∃ n : Nat, ∃ x : Session, ∃ _ : Bool, off < 2 ^ 32 ∧ a < 2 ^
      32 ∧ k < 2 ^ 32 ∧ n = (if k = 0 then 1048576 else k) ∧ UpdateSessionsRunAndEnd_posted s 0x12 tag (leBytes 4 off ++
      leBytes 4 a ++ leBytes 4 k) ∧ romStage s.dev = false ∧ s.dev.mgt.session = some x ∧ UpdateSessionsRunAndEnd_mine x ∧ 64 ≤
      n ∧ n ≤ 1048576 ∧ n % 64 = 0 ∧ a % 4 = 0 ∧ a + n ≤ waveSize ∧ (s.dev.isOn Dom.memc = false ∨ (s.dev.mover 2).state =
      .busy)) ∧
    (∃ s : State, ∃ tag : Nat, ∃ off : Nat, ∃ a : Nat, ∃ k : Nat, ∃ n : Nat, ∃ x : Session, ∃ _ : Bool, off < 2 ^ 32 ∧ a < 2 ^
      32 ∧ k < 2 ^ 32 ∧ n = (if k = 0 then 1048576 else k) ∧ UpdateSessionsRunAndEnd_posted s 0x12 tag (leBytes 4 off ++
      leBytes 4 a ++ leBytes 4 k) ∧ romStage s.dev = false ∧ s.dev.mgt.session = some x ∧ UpdateSessionsRunAndEnd_mine x ∧ 64 ≤
      n ∧ n ≤ 1048576 ∧ n % 64 = 0 ∧ a % 4 = 0 ∧ a + n ≤ waveSize ∧ s.dev.isOn Dom.memc = true ∧ (s.dev.mover 2).state ≠ .busy
      ∧ (off ≠ x.got ∨ x.len < x.got + n)) ∧
    (∃ s : State, ∃ tag : Nat, ∃ off : Nat, ∃ a : Nat, ∃ k : Nat, ∃ n : Nat, ∃ x : Session, ∃ _ : Bool, off < 2 ^ 32 ∧ a < 2 ^
      32 ∧ k < 2 ^ 32 ∧ n = (if k = 0 then 1048576 else k) ∧ UpdateSessionsRunAndEnd_posted s 0x12 tag (leBytes 4 off ++
      leBytes 4 a ++ leBytes 4 k) ∧ romStage s.dev = false ∧ s.dev.mgt.session = some x ∧ UpdateSessionsRunAndEnd_mine x ∧ 64 ≤
      n ∧ n ≤ 1048576 ∧ n % 64 = 0 ∧ a % 4 = 0 ∧ a + n ≤ waveSize ∧ s.dev.isOn Dom.memc = true ∧ (s.dev.mover 2).state ≠ .busy
      ∧ off = x.got ∧ x.got + n ≤ x.len ∧ UpdateSessionsRunAndEnd_why s x a n ≠ 0) ∧
    (∃ s : State, ∃ tag : Nat, ∃ off : Nat, ∃ a : Nat, ∃ k : Nat, ∃ n : Nat, ∃ x : Session, ∃ _ : Bool, off < 2 ^ 32 ∧ a < 2 ^
      32 ∧ k < 2 ^ 32 ∧ n = (if k = 0 then 1048576 else k) ∧ UpdateSessionsRunAndEnd_posted s 0x12 tag (leBytes 4 off ++
      leBytes 4 a ++ leBytes 4 k) ∧ romStage s.dev = false ∧ s.dev.mgt.session = some x ∧ UpdateSessionsRunAndEnd_mine x ∧ 64 ≤
      n ∧ n ≤ 1048576 ∧ n % 64 = 0 ∧ a % 4 = 0 ∧ a + n ≤ waveSize ∧ s.dev.isOn Dom.memc = true ∧ (s.dev.mover 2).state ≠ .busy
      ∧ off = x.got ∧ x.got + n ≤ x.len ∧ UpdateSessionsRunAndEnd_why s x a n = 0) ∧
    (∃ s : State, ∃ tag : Nat, ∃ f : Byte, ∃ x : Session, ∃ _ : Bool, UpdateSessionsRunAndEnd_posted s 0x13 tag [f] ∧
      s.dev.mgt.session = some x ∧ UpdateSessionsRunAndEnd_mine x ∧ x.got ≠ x.len) ∧
    (∃ s : State, ∃ tag : Nat, ∃ f : Byte, ∃ x : Session, ∃ _ : Bool, UpdateSessionsRunAndEnd_posted s 0x13 tag [f] ∧
      s.dev.mgt.session = some x ∧ UpdateSessionsRunAndEnd_mine x ∧ x.got = x.len ∧ (imageErr s x.slot).1 ≠ 0) ∧
    (Config.ed25519 0 (fwHead ++ List.replicate 40 0xFF) (List.replicate 64 0xFF) = true → ∃ s : State, ∃ tag : Nat, ∃ f :
      Byte, ∃ x : Session, ∃ _ : Bool, UpdateSessionsRunAndEnd_posted s 0x13 tag [f] ∧ s.dev.mgt.session = some x ∧
      UpdateSessionsRunAndEnd_mine x ∧ x.got = x.len ∧ (imageErr s x.slot).1 = 0) ∧
    (Config.ed25519 0 (fwHead ++ List.replicate 40 0xFF) (List.replicate 64 0xFF) = true → ∃ s : State, ∃ tag : Nat, ∃ f :
      Byte, ∃ x : Session, ∃ _ : Bool, UpdateSessionsRunAndEnd_posted s 0x13 tag [f] ∧ s.dev.mgt.session = some x ∧
      UpdateSessionsRunAndEnd_mine x ∧ x.got = x.len ∧ (imageErr s x.slot).1 = 0 ∧ x.slot < 2) ∧
    (∃ s : State, ∃ tag : Nat, ∃ x : Session, UpdateSessionsRunAndEnd_posted s 0x14 tag [] ∧ s.dev.mgt.session = some x ∧
      UpdateSessionsRunAndEnd_mine x) ∧
    (∃ s : State, ∃ x : Session, s.dev.mgt.session = some x) ∧
    (∃ s : State, s.dev.mgt.session = none) := ⟨
    ⟨st (fun d => req 0x10 7 [0, 0, 7, 0] (rg [(Reg.GLB_BOOT_STAT, 0x18)] (bt (fun b =>
      { b with slotA := 0x10000, slotB := 0x80000 }) d))), 7, 0x70000, true, by decide +kernel⟩,
    ⟨st (fun d => req 0x10 7 [1, 0, 7, 0] (rg [(Reg.GLB_BOOT_STAT, 0x18)] (bt (fun b =>
      { b with slotA := 0x10000, slotB := 0x80000 }) d))), 7, 0x70001, true, by decide +kernel⟩,
    ⟨st (fun d => req 0x10 7 [1, 0, 7, 0] (mg (fun m => { m with session := some ⟨1, 3, 1, 5, 0⟩ }) d)), 7, 0x70001, true, ⟨1,
      3, 1, 5, 0⟩, by decide +kernel⟩,
    ⟨st (fun d => req 0x10 7 [1, 0, 7, 0] (ses 1 5 0 d)), 7, 0x70001, true, ⟨0, 0, 1, 5, 0⟩, by decide +kernel⟩,
    ⟨st (req 0x11 7 [0, 0, 0, 0, 9]), 7, 0, [9], true, by decide +kernel⟩,
    ⟨st (fun d => req 0x11 7 [0, 0, 0, 0, 9] (mg (fun m => { m with session := some ⟨1, 3, 1, 5, 0⟩ }) d)), 7, 0, [9], true,
      ⟨1, 3, 1, 5, 0⟩, by decide +kernel⟩,
    ⟨st (fun d => req 0x11 7 [0, 0, 0, 0, 9] (ses 1 5 5 d)), 7, 0, [9], true, ⟨0, 0, 1, 5, 5⟩, by decide +kernel⟩,
    ⟨st (fun d => req 0x11 7 [4, 0, 0, 0, 9] (ses 1 5 4 d)), 7, 4, [9], true, ⟨0, 0, 1, 5, 4⟩, by decide +kernel⟩,
    ⟨st (fun d => req 0x12 7 [0, 0, 0, 0, 0, 0, 0, 0, 65, 0, 0, 0] (ses 1 5 4 d)), 7, 0, 0, 65, 65, ⟨0, 0, 1, 5, 4⟩, true,
      by decide +kernel⟩,
    ⟨st (fun d => off Dom.memc (req 0x12 7 [0, 0, 0, 0, 0, 0, 0, 0, 64, 0, 0, 0] (ses 1 5 4 d))), 7, 0, 0, 64, 64, ⟨0, 0, 1, 5,
      4⟩, true, by decide +kernel⟩,
    ⟨st (fun d => req 0x12 7 [1, 0, 0, 0, 0, 0, 0, 0, 64, 0, 0, 0] (ses 1 66 0 d)), 7, 1, 0, 64, 64, ⟨0, 0, 1, 66, 0⟩, true,
      by decide +kernel⟩,
    ⟨st (fun d => req 0x12 7 [2, 0, 0, 0, 0, 0, 0, 0, 64, 0, 0, 0] (ses 1 66 2 d)), 7, 2, 0, 64, 64, ⟨0, 0, 1, 66, 2⟩, true,
      by decide +kernel⟩,
    ⟨st (fun d => req 0x12 7 [0, 0, 0, 0, 0, 0, 0, 0, 64, 0, 0, 0] (ses 1 64 0 d)), 7, 0, 0, 64, 64, ⟨0, 0, 1, 64, 0⟩, true,
      by decide +kernel⟩,
    ⟨st (fun d => req 0x13 7 [0] (ses 1 5 4 d)), 7, 0, ⟨0, 0, 1, 5, 4⟩, true, by decide +kernel⟩,
    ⟨st (fun d => req 0x13 7 [0] (ses 1 5 5 d)), 7, 0, ⟨0, 0, 1, 5, 5⟩, true, by decide +kernel⟩,
    fun h => ⟨held (st (fun d => req 0x13 7 [1] (ses 0 5 5 d))), 7, 1, ⟨0, 0, 0, 5, 5⟩, true, by decide +kernel,
      by decide +kernel, by decide +kernel, by decide +kernel, image_good _ _ rfl (by decide +kernel) (by decide +kernel) rfl
      h⟩,
    fun h => ⟨held (st (fun d => req 0x13 7 [1] (ses 0 5 5 d))), 7, 1, ⟨0, 0, 0, 5, 5⟩, true, by decide +kernel,
      by decide +kernel, by decide +kernel, by decide +kernel, image_good _ _ rfl (by decide +kernel) (by decide +kernel) rfl
      h, by decide +kernel⟩,
    ⟨st (fun d => req 0x14 7 [] (ses 1 5 5 d)), 7, ⟨0, 0, 1, 5, 5⟩, by decide +kernel⟩,
    ⟨st (ses 1 5 5), ⟨0, 0, 1, 5, 5⟩, by decide +kernel⟩,
    ⟨up, by decide +kernel⟩⟩

/-- As the statement says it. -/
abbrev MailboxCommandsThatWrite_posted (s : State) (cmd tag : Nat) (p : List Byte) : Prop := mailboxOpen s.dev = true ∧
  s.dev.mgt.busy = true ∧ s.dev.mgt.response = none ∧ s.dev.mgt.request = leBytes 1 cmd ++ leBytes 1 tag ++ leBytes 2 p.length
  ++ p ∧ p.length ≤ 60 ∧ tag < 256 ∧ s.dev.nvReach = true

/-- States and operands that meet the hypotheses of `Obligations.MailboxCommandsThatWrite`, clause by clause. -/
theorem wit_MailboxCommandsThatWrite :
    (∃ s : State, ∃ tag : Nat, ∃ _ : Bool, ∃ p : List Byte, s.dev.nvReach = false ∧ mailboxOpen s.dev = true ∧ s.dev.mgt.busy =
      true ∧ s.dev.mgt.response = none ∧ p.length ≤ 60 ∧ tag < 256 ∧ s.dev.stage ≠ Stage.romWait ∧ s.dev.mgt.request = leBytes
      1 0x19 ++ leBytes 1 tag ++ leBytes 2 p.length ++ p ∧ p.length = 1 ∧ (p.headD 0).toNat ≤ 1) ∧
    (∃ s : State, ∃ tag : Nat, ∃ v : Byte, ∃ _ : Bool, MailboxCommandsThatWrite_posted s 0x19 tag [v] ∧ s.dev.stage ≠
      Stage.romWait ∧ 1 < v.toNat) ∧
    (∃ s : State, ∃ tag : Nat, ∃ v : Byte, ∃ _ : Bool, MailboxCommandsThatWrite_posted s 0x19 tag [v] ∧ s.dev.stage ≠
      Stage.romWait ∧ v.toNat ≤ 1 ∧ headerErr s v.toNat ≠ 0) ∧
    (∃ s : State, ∃ tag : Nat, ∃ v : Byte, ∃ _ : Bool, MailboxCommandsThatWrite_posted s 0x19 tag [v] ∧ s.dev.stage ≠
      Stage.romWait ∧ v.toNat ≤ 1 ∧ headerErr s v.toNat = 0) ∧
    (∃ s : State, ∃ tag : Nat, ∃ a : Nat, ∃ _ : Bool, a < 2 ^ 32 ∧ MailboxCommandsThatWrite_posted s 0x22 tag (leBytes 4 a) ∧
      rawFlashStage s.dev = false ∧ romStage s.dev = false) ∧
    (2 ^ 17 ≤ flashSize → ∃ s : State, ∃ tag : Nat, ∃ a : Nat, ∃ _ : Bool, a < 2 ^ 32 ∧ MailboxCommandsThatWrite_posted s 0x22
      tag (leBytes 4 a) ∧ rawFlashStage s.dev = true ∧ a % 0x10000 = 0 ∧ a + 0x10000 ≤ flashSize) ∧
    (∃ s : State, ∃ tag : Nat, ∃ a : Nat, ∃ _ : Bool, a < 2 ^ 32 ∧ MailboxCommandsThatWrite_posted s 0x22 tag (leBytes 4 a) ∧
      rawFlashStage s.dev = true ∧ (a % 0x10000 ≠ 0 ∨ flashSize < a + 0x10000)) ∧
    (∃ s : State, ∃ tag : Nat, ∃ a : Nat, ∃ bs : List Byte, ∃ _ : Bool, a < 2 ^ 32 ∧ 0 < bs.length ∧
      MailboxCommandsThatWrite_posted s 0x23 tag (leBytes 4 a ++ bs) ∧ rawFlashStage s.dev = true ∧ a % 256 + bs.length ≤ 256 ∧
      a + bs.length ≤ flashSize) ∧
    (∃ s : State, ∃ tag : Nat, ∃ a : Nat, ∃ bs : List Byte, ∃ _ : Bool, a < 2 ^ 32 ∧ 0 < bs.length ∧
      MailboxCommandsThatWrite_posted s 0x23 tag (leBytes 4 a ++ bs) ∧ rawFlashStage s.dev = true ∧ (256 < a % 256 + bs.length
      ∨ flashSize < a + bs.length)) ∧
    (∃ s : State, ∃ tag : Nat, ∃ p : List Byte, MailboxCommandsThatWrite_posted s 0x30 tag p ∧ 8 ≤ p.length ∧ s.dev.stage ≠
      Stage.romWait ∧ romStage s.dev = false ∧ fwdErr s.dev p ≠ 0) ∧
    (∃ s : State, ∃ tag : Nat, ∃ p : List Byte, MailboxCommandsThatWrite_posted s 0x30 tag p ∧ 8 ≤ p.length ∧ s.dev.stage ≠
      Stage.romWait ∧ romStage s.dev = false ∧ fwdErr s.dev p = 0 ∧ s.dev.cas.fwdPos.isSome = true) ∧
    (∃ s : State, ∃ tag : Nat, ∃ p : List Byte, MailboxCommandsThatWrite_posted s 0x30 tag p ∧ 8 ≤ p.length ∧ s.dev.stage ≠
      Stage.romWait ∧ romStage s.dev = false ∧ fwdErr s.dev p = 0 ∧ s.dev.cas.fwdPos = none) ∧
    (∃ _ : Dev, ∃ p : List Byte, ((p.headD 0).toNat = 0 ∨ 7 < (p.headD 0).toNat)) := ⟨
    ⟨st (fun d => req 0x19 7 [1] (dm Dom.mgmt (fun x => { x with latched := true }) d)), 7, true, bytes [1], by decide +kernel⟩,
    ⟨st (req 0x19 7 [2]), 7, 2, true, by decide +kernel⟩,
    ⟨st (req 0x19 7 [1]), 7, 1, true, by decide +kernel⟩,
    ⟨held (st (fun d => req 0x19 7 [0] (ses 0 5 5 d))), 7, 0, true, by decide +kernel, by decide +kernel, by decide +kernel,
      image_header _ _ rfl (by decide +kernel) (by decide +kernel) rfl⟩,
    ⟨st (req 0x22 7 [0, 0, 0, 0]), 7, 0, true, by decide +kernel⟩,
    fun h => ⟨st (fun d => stage 10 (req 0x22 7 [0, 0, 1, 0] d)), 7, 0x10000, true, by decide +kernel, by decide +kernel,
      by decide +kernel, by decide +kernel, h⟩,
    ⟨st (fun d => stage 10 (req 0x22 7 [1, 0, 0, 0] d)), 7, 1, true, by decide +kernel⟩,
    ⟨st (fun d => stage 10 (req 0x23 7 [0, 0, 0, 0, 9] d)), 7, 0, [9], true, by decide +kernel, by decide +kernel,
      by decide +kernel, by decide +kernel, by decide +kernel, flash_one⟩,
    ⟨st (fun d => stage 10 (req 0x23 7 [255, 0, 0, 0, 9, 9] d)), 7, 255, [9, 9], true, by decide +kernel⟩,
    ⟨st (req 0x30 7 [1, 0, 0, 0, 1, 0, 0, 0]), 7, bytes [1, 0, 0, 0, 1, 0, 0, 0], by decide +kernel⟩,
    ⟨st (fun d => req 0x30 7 [1, 0, 0, 0, 1, 0, 0, 0] (ca (fun c =>
      { c with fwdPos := some 1, workers := upd c.workers 1 (fun w => { w with joined := true }) }) (chain 0 d))), 7, bytes [1,
      0, 0, 0, 1, 0, 0, 0], by decide +kernel⟩,
    ⟨st (fun d => req 0x30 7 [1, 0, 0, 0, 1, 0, 0, 0] (ca (fun c =>
      { c with workers := upd c.workers 1 (fun w => { w with joined := true }) }) (chain 0 d))), 7, bytes [1, 0, 0, 0, 1, 0, 0,
      0], by decide +kernel⟩,
    ⟨up.dev, [8], by decide +kernel⟩⟩

/-- States and operands that meet the hypotheses of `Obligations.LinkEnableAlignmentAndLoss`, clause by clause. -/
theorem wit_LinkEnableAlignmentAndLoss :
    (∃ s : State, ∃ v : Word, s.dev.isOn Dom.cas = true ∧ hostTurn s.dev = true ∧ s.dev.cas.en = false ∧ v.getLsbD 0 = true) ∧
    (∃ s : State, ∃ v : Word, s.dev.isOn Dom.cas = true ∧ hostTurn s.dev = true ∧ s.dev.cas.en = true ∧ v.getLsbD 0 = false) ∧
    (∃ s : State, ∃ _ : Word, s.dev.isOn Dom.cas = false) ∧
    (∃ s : State, ∃ port : CasPort, linkRuns s.dev = true ∧ (s.dev.casPort port).lossAt = none) ∧
    (∃ s : State, ∃ port : CasPort, ∃ e : Nat, linkRuns s.dev = true ∧ (s.dev.casPort port).lossAt = some e ∧ 1 ≤ efSince
      s.dev.now e) ∧
    (∃ s : State, ∃ port : CasPort, linkRuns s.dev = true ∧ (s.dev.casPort port).lossAt = some s.dev.now ∧ s.dev.now < efWrap) ∧
    (∃ s : State, ∃ port : CasPort, ∃ _ : Bool, s.dev.sees Dom.cas = true ∧ s.dev.cas.en = true ∧ (s.dev.casPort port).locked =
      false) ∧
    (∃ s : State, ∃ port : CasPort, ∃ _ : Bool, s.dev.sees Dom.cas = true ∧ s.dev.cas.en = true ∧ (s.dev.casPort port).locked =
      true) ∧
    (∃ s : State, ∃ _ : CasPort, ∃ _ : Bool, s.dev.cas.en = false) := ⟨
    ⟨st (rg [(Reg.CAS_CFG, 1)]), 1, by decide +kernel⟩,
    ⟨st (fun d => vo 255 (fun x => { x with pool := true }) (voice 255 .sounding 0 60 (chain 1 d))), 0, by decide +kernel⟩,
    ⟨st (off Dom.cas), 1, by decide +kernel⟩,
    ⟨st (chain 1), .upstream, by decide +kernel⟩,
    ⟨st (fun d => ca (fun c => { c with down := { c.down with aligned := false, lossAt := some 999 } }) (chain 1 d)),
      .downstream, 999, by decide +kernel⟩,
    ⟨st (fun d => ca (fun c => { c with down := { c.down with aligned := false, lossAt := some 1000 } }) (chain 1 d)),
      .downstream, by decide +kernel⟩,
    ⟨st (ca (fun c => { c with en := true, down := { c.down with good := 1, aligned := true } })), .downstream, true,
      by decide +kernel⟩,
    ⟨st (fun d => vo 255 (fun x => { x with pool := true }) (voice 255 .sounding 0 60 (chain 1 d))), .downstream, false,
      by decide +kernel⟩,
    ⟨up, .upstream, true, by decide +kernel⟩⟩

/-- As the statement says it. -/
abbrev SuperframesLockPortsAndCarryState_fault (b : List Byte) (ok : Bool) : Nat := if ok = false then 2 else if byteAt b 0 ≠
  0xBC then 3 else if leNat (sfBytes b 412 4) ≠ (crc32 (sfBytes b 1 411)).toNat then 1 else 0

/-- `sf l` is a good superframe. -/
theorem sf_good (l : List Nat) (h0 : byteAt (sf l) 0 = 0xBC) (h : ((bytes l).drop 1).foldl crcByte (~~~ 0) = 0)
    (h1 : sfBytes (sf l) 1 411 = (bytes l).drop 1 ++ List.replicate 396 0) (h2 : leNat (sfBytes (sf l) 412 4) = 0xFFFFFFFF) :
    SuperframesLockPortsAndCarryState_fault (sf l) true = 0 := by
  have h3 : ((crc32 (sfBytes (sf l) 1 411)).toNat : Nat) = 0xFFFFFFFF := sf_crc l h h1
  rw [SuperframesLockPortsAndCarryState_fault, h0, h2, h3]; rfl

/-- States and operands that meet the hypotheses of `Obligations.SuperframesLockPortsAndCarryState`, clause by clause. -/
theorem wit_SuperframesLockPortsAndCarryState :
    (∃ s : State, ∃ b : List Byte, ∃ ok : Bool, linkRuns s.dev = true ∧ s.dev.cas.up.aligned = true ∧
      SuperframesLockPortsAndCarryState_fault b ok ≠ 0) ∧
    (∃ s : State, ∃ b : List Byte, ∃ ok : Bool, linkRuns s.dev = true ∧ s.dev.cas.up.aligned = true ∧
      SuperframesLockPortsAndCarryState_fault b ok = 0) ∧
    (∃ s : State, ∃ _ : List Byte, ∃ _ : Bool, (linkRuns s.dev = false ∨ s.dev.cas.up.aligned = false)) ∧
    (∃ s : State, ∃ b : List Byte, ∃ ok : Bool, ∃ _ : Nat, linkRuns s.dev = true ∧ s.dev.isWorker = true ∧
      s.dev.cas.down.aligned = true ∧ SuperframesLockPortsAndCarryState_fault b ok ≠ 0) ∧
    (∃ s : State, ∃ b : List Byte, ∃ ok : Bool, ∃ _ : Nat, linkRuns s.dev = true ∧ s.dev.isWorker = true ∧
      s.dev.cas.down.aligned = true ∧ SuperframesLockPortsAndCarryState_fault b ok = 0 ∧ byteAt b 1 / 2 % 8 + 1 ≠
      s.dev.chainLen) ∧
    (∃ s : State, ∃ b : List Byte, ∃ ok : Bool, ∃ _ : Nat, linkRuns s.dev = true ∧ s.dev.isWorker = true ∧
      s.dev.cas.down.aligned = true ∧ SuperframesLockPortsAndCarryState_fault b ok = 0 ∧ byteAt b 1 / 2 % 8 + 1 =
      s.dev.chainLen) ∧
    (∃ s : State, ∃ _ : List Byte, ∃ _ : Bool, ∃ _ : Nat, (linkRuns s.dev = false ∨ s.dev.isWorker = false ∨
      s.dev.cas.down.aligned = false)) := ⟨
    ⟨st (chain 1), List.replicate 416 0, false, by decide +kernel⟩,
    ⟨st (chain 0), sf [188, 0, 0, 0, 0, 0, 0, 0, 0, 0, 0, 0, 19, 78, 120, 148], true, by decide +kernel, by decide +kernel,
      sf_good [188, 0, 0, 0, 0, 0, 0, 0, 0, 0, 0, 0, 19, 78, 120, 148] (by decide +kernel) (by decide +kernel)
      (by decide +kernel) (by decide +kernel)⟩,
    ⟨up, [], true, by decide +kernel⟩,
    ⟨st (chain 1), List.replicate 416 0, true, 5, by decide +kernel⟩,
    ⟨st (chain 1), sf [188, 4, 0, 0, 0, 0, 0, 0, 0, 0, 0, 0, 145, 61, 161, 36], true, 5, by decide +kernel, by decide +kernel,
      by decide +kernel, sf_good [188, 4, 0, 0, 0, 0, 0, 0, 0, 0, 0, 0, 145, 61, 161, 36] (by decide +kernel)
      (by decide +kernel) (by decide +kernel) (by decide +kernel), by decide +kernel⟩,
    ⟨st (chain 1), sf [188, 3, 0, 0, 0, 233, 3, 0, 0, 0, 0, 0, 120, 185, 54, 29], true, 5, by decide +kernel,
      by decide +kernel, by decide +kernel, sf_good [188, 3, 0, 0, 0, 233, 3, 0, 0, 0, 0, 0, 120, 185, 54, 29]
      (by decide +kernel) (by decide +kernel) (by decide +kernel) (by decide +kernel), by decide +kernel⟩,
    ⟨st (chain 0), sf [188, 3, 0, 0, 0, 233, 3, 0, 0, 0, 0, 0, 120, 185, 54, 29], true, 5, by decide +kernel⟩⟩

/-- As the statement says it. -/
abbrev DirectivesActOnWorkers_due (s : State) (i kind : Nat) (x : List Byte) : Prop := linkRuns s.dev = true ∧ s.dev.isWorker =
  true ∧ s.dev.cas.down.locked = true ∧ s.dev.isOn Dom.ctrl = true ∧ i < 20 ∧ ∃ b m, s.dev.cas.outPrev = some b ∧
  s.dev.cas.outIn = some m ∧ x = sfBytes b (12 + 16 * i) 16 ∧ byteAt x 0 = kind ∧ efAdd (leNat (sfBytes b 5 5)) 1 = s.dev.now ∧
  leNat (sfBytes m 5 5) = s.dev.now ∧ (leNat (sfBytes m 2 3)).testBit i = false

/-- As the statement says it. -/
abbrev DirectivesActOnWorkers_mine (s : State) (x : List Byte) : Prop := byteAt x 1 = s.dev.pos ∨ byteAt x 1 = 0xFF

/-- As the statement says it. -/
abbrev DirectivesActOnWorkers_slot (s : State) (x : List Byte) (v : Nat) : Prop := DirectivesActOnWorkers_mine s x ∧ halfAt x 2
  / 0x2000 % 8 = s.dev.pos ∧ v = halfAt x 2 / 0x20 % 256 ∧ s.dev.ownCluster (cluOf v) = false ∧ s.dev.cluOn (cluOf v) = true ∧
  v < s.dev.par.voices.length

/-- As the statement says it. -/
abbrev DirectivesActOnWorkers_current (s : State) (x : List Byte) (v : Nat) : Prop := (s.dev.voice v).pool = true ∧
  (s.dev.voice v).state ≠ .free ∧ (s.dev.voice v).handle = halfAt x 2

/-- States and operands that meet the hypotheses of `Obligations.DirectivesActOnWorkers`, clause by clause. -/
theorem wit_DirectivesActOnWorkers :
    (∃ s : State, ∃ i : Nat, ∃ v : Nat, ∃ x : List Byte, DirectivesActOnWorkers_due s i 1 x ∧ DirectivesActOnWorkers_slot s x
      v) ∧
    (∃ s : State, ∃ i : Nat, ∃ v : Nat, ∃ a : Nat, ∃ x : List Byte, ∃ y : Voice, DirectivesActOnWorkers_due s i 2 x ∧
      DirectivesActOnWorkers_slot s x v ∧ DirectivesActOnWorkers_current s x v ∧ a = byteAt x 4 ∧ y = s.dev.voice v ∧ a = 1 ∧
      y.state = .arming) ∧
    (∃ s : State, ∃ i : Nat, ∃ v : Nat, ∃ a : Nat, ∃ x : List Byte, ∃ y : Voice, DirectivesActOnWorkers_due s i 2 x ∧
      DirectivesActOnWorkers_slot s x v ∧ DirectivesActOnWorkers_current s x v ∧ a = byteAt x 4 ∧ y = s.dev.voice v ∧ a = 1 ∧
      y.state = .sounding) ∧
    (∃ s : State, ∃ i : Nat, ∃ v : Nat, ∃ a : Nat, ∃ x : List Byte, ∃ y : Voice, DirectivesActOnWorkers_due s i 2 x ∧
      DirectivesActOnWorkers_slot s x v ∧ DirectivesActOnWorkers_current s x v ∧ a = byteAt x 4 ∧ y = s.dev.voice v ∧ a = 2 ∧
      y.state = .arming) ∧
    (∃ s : State, ∃ i : Nat, ∃ v : Nat, ∃ a : Nat, ∃ x : List Byte, ∃ y : Voice, DirectivesActOnWorkers_due s i 2 x ∧
      DirectivesActOnWorkers_slot s x v ∧ DirectivesActOnWorkers_current s x v ∧ a = byteAt x 4 ∧ y = s.dev.voice v ∧ a = 2 ∧
      (y.state = .sounding ∨ y.state = .releasing)) ∧
    (∃ s : State, ∃ i : Nat, ∃ v : Nat, ∃ a : Nat, ∃ x : List Byte, ∃ y : Voice, DirectivesActOnWorkers_due s i 2 x ∧
      DirectivesActOnWorkers_slot s x v ∧ DirectivesActOnWorkers_current s x v ∧ a = byteAt x 4 ∧ y = s.dev.voice v ∧ a = 3 ∧
      y.state ≠ .quench) ∧
    (∃ s : State, ∃ i : Nat, ∃ v : Nat, ∃ a : Nat, ∃ x : List Byte, ∃ y : Voice, DirectivesActOnWorkers_due s i 2 x ∧
      DirectivesActOnWorkers_slot s x v ∧ DirectivesActOnWorkers_current s x v ∧ a = byteAt x 4 ∧ y = s.dev.voice v ∧ a = 4) ∧
    (∃ s : State, ∃ i : Nat, ∃ v : Nat, ∃ a : Nat, ∃ x : List Byte, ∃ y : Voice, DirectivesActOnWorkers_due s i 2 x ∧
      DirectivesActOnWorkers_slot s x v ∧ DirectivesActOnWorkers_current s x v ∧ a = byteAt x 4 ∧ y = s.dev.voice v ∧ ((a = 1 ∧
      y.state ≠ .arming ∧ y.state ≠ .sounding) ∨ (a = 2 ∧ y.held = false) ∨ (a = 3 ∧ y.state = .quench) ∨ a = 0 ∨ 4 < a)) ∧
    (∃ s : State, ∃ i : Nat, ∃ v : Nat, ∃ x : List Byte, DirectivesActOnWorkers_due s i 3 x ∧ DirectivesActOnWorkers_slot s x v
      ∧ DirectivesActOnWorkers_current s x v) ∧
    (∃ s : State, ∃ i : Nat, ∃ a : Nat, ∃ x : List Byte, ∃ w : Word, ∃ m : Word, DirectivesActOnWorkers_due s i 4 x ∧
      DirectivesActOnWorkers_mine s x ∧ a = leNat (sfBytes x 4 4) ∧ a % 4 = 0 ∧ a < 0x100000 ∧ psReserved a = false ∧ m =
      BitVec.ofNat 32 (leNat (sfBytes x 12 4)) ∧ w = Word.merge (BitVec.ofNat 32 (s.dev.ps32 a)) (BitVec.ofNat 32 (leNat
      (sfBytes x 8 4))) m ∧ m = 0) ∧
    (∃ s : State, ∃ i : Nat, ∃ a : Nat, ∃ x : List Byte, ∃ w : Word, ∃ m : Word, DirectivesActOnWorkers_due s i 4 x ∧
      DirectivesActOnWorkers_mine s x ∧ a = leNat (sfBytes x 4 4) ∧ a % 4 = 0 ∧ a < 0x100000 ∧ psReserved a = false ∧ m =
      BitVec.ofNat 32 (leNat (sfBytes x 12 4)) ∧ w = Word.merge (BitVec.ofNat 32 (s.dev.ps32 a)) (BitVec.ofNat 32 (leNat
      (sfBytes x 8 4))) m ∧ m ≠ 0 ∧ partWordBad a w m = true) ∧
    (∃ s : State, ∃ i : Nat, ∃ a : Nat, ∃ x : List Byte, ∃ w : Word, ∃ m : Word, DirectivesActOnWorkers_due s i 4 x ∧
      DirectivesActOnWorkers_mine s x ∧ a = leNat (sfBytes x 4 4) ∧ a % 4 = 0 ∧ a < 0x100000 ∧ psReserved a = false ∧ m =
      BitVec.ofNat 32 (leNat (sfBytes x 12 4)) ∧ w = Word.merge (BitVec.ofNat 32 (s.dev.ps32 a)) (BitVec.ofNat 32 (leNat
      (sfBytes x 8 4))) m ∧ m ≠ 0 ∧ partWordBad a w m = false) ∧
    (∃ s : State, ∃ i : Nat, ∃ b : Nat, ∃ x : List Byte, DirectivesActOnWorkers_due s i 5 x ∧ DirectivesActOnWorkers_mine s x ∧
      b < 2 ^ 40 ∧ b % 2 ^ 32 = leNat (sfBytes x 4 4) ∧ s.dev.now ≤ b ∧ b - s.dev.now < 2 ^ 31) ∧
    (∃ s : State, ∃ i : Nat, ∃ x : List Byte, ∃ c ∈ [(1, Instr.directiveArm i), (2, .directiveState i), (3, .directiveRetrig
      i),
      (4, .directiveWrite i), (5, .directiveGlfo i)], DirectivesActOnWorkers_due s i c.1 x ∧
      ¬DirectivesActOnWorkers_mine s x) ∧
    (∃ s : State, ∃ i : Nat, ∃ x : List Byte, ∃ c ∈ [(1, Instr.directiveArm i), (2, .directiveState i), (3, .directiveRetrig
      i)], DirectivesActOnWorkers_due s i c.1 x ∧ (halfAt x 2 / 0x2000 % 8 ≠ s.dev.pos ∨ s.dev.ownCluster (cluOf (halfAt x 2 /
      0x20 % 256)) = true)) ∧
    (∃ s : State, ∃ i : Nat, ∃ v : Nat, ∃ x : List Byte, ∃ c ∈ [(2, Instr.directiveState i), (3, .directiveRetrig i)],
      DirectivesActOnWorkers_due s i c.1 x ∧ DirectivesActOnWorkers_slot s x v ∧ ¬DirectivesActOnWorkers_current s x v) ∧
    (∃ s : State, ∃ i : Nat, ∃ m : List Byte, ∃ c ∈ [Instr.directiveArm i, .directiveState i, .directiveRetrig i,
      .directiveWrite i, .directiveGlfo i], (20 ≤ i ∨ s.dev.cas.outPrev = none ∨ (s.dev.cas.outIn = some m ∧ (leNat (sfBytes m
      2 3)).testBit i = true))) := ⟨
    ⟨st (wk [1, 1, 0xE1, 0x3F, 5, 0, 60, 100, 0, 0, 3, 0, 0xFF]), 0, 255, bytes [1, 1, 0xE1, 0x3F, 5, 0, 60, 100, 0, 0, 3, 0,
      0xFF, 0, 0, 0], ⟨by decide +kernel, by decide +kernel, by decide +kernel, by decide +kernel, by decide +kernel, _, _,
      rfl, rfl, by decide +kernel⟩, by decide +kernel⟩,
    ⟨st (fun d => vo 255 (fun x => { x with pool := true, handle := 0x3FE1 }) (voice 255 .arming 0 60 (wk [2, 1, 0xE1, 0x3F, 1]
      d))), 0, 255, 1, bytes [2, 1, 225, 63, 1, 0, 0, 0, 0, 0, 0, 0, 0, 0, 0, 0], (st (fun d => vo 255 (fun x =>
      { x with pool := true, handle := 0x3FE1 }) (voice 255 .arming 0 60 (wk [2, 1, 0xE1, 0x3F, 1] d)))).dev.voice 255,
      ⟨by decide +kernel, by decide +kernel, by decide +kernel, by decide +kernel, by decide +kernel, _, _, rfl, rfl,
      by decide +kernel⟩, by decide +kernel⟩,
    ⟨st (fun d => vo 255 (fun x => { x with pool := true, handle := 0x3FE1 }) (voice 255 .sounding 0 60 (wk [2, 1, 0xE1, 0x3F,
      1] d))), 0, 255, 1, bytes [2, 1, 225, 63, 1, 0, 0, 0, 0, 0, 0, 0, 0, 0, 0, 0], (st (fun d => vo 255 (fun x =>
      { x with pool := true, handle := 0x3FE1 }) (voice 255 .sounding 0 60 (wk [2, 1, 0xE1, 0x3F, 1] d)))).dev.voice 255,
      ⟨by decide +kernel, by decide +kernel, by decide +kernel, by decide +kernel, by decide +kernel, _, _, rfl, rfl,
      by decide +kernel⟩, by decide +kernel⟩,
    ⟨st (fun d => vo 255 (fun x => { x with pool := true, handle := 0x3FE1 }) (voice 255 .arming 0 60 (wk [2, 1, 0xE1, 0x3F, 2]
      d))), 0, 255, 2, bytes [2, 1, 225, 63, 2, 0, 0, 0, 0, 0, 0, 0, 0, 0, 0, 0], (st (fun d => vo 255 (fun x =>
      { x with pool := true, handle := 0x3FE1 }) (voice 255 .arming 0 60 (wk [2, 1, 0xE1, 0x3F, 2] d)))).dev.voice 255,
      ⟨by decide +kernel, by decide +kernel, by decide +kernel, by decide +kernel, by decide +kernel, _, _, rfl, rfl,
      by decide +kernel⟩, by decide +kernel⟩,
    ⟨st (fun d => vo 255 (fun x => { x with pool := true, handle := 0x3FE1 }) (voice 255 .sounding 0 60 (wk [2, 1, 0xE1, 0x3F,
      2, 4] d))), 0, 255, 2, bytes [2, 1, 225, 63, 2, 4, 0, 0, 0, 0, 0, 0, 0, 0, 0, 0], (st (fun d => vo 255 (fun x =>
      { x with pool := true, handle := 0x3FE1 }) (voice 255 .sounding 0 60 (wk [2, 1, 0xE1, 0x3F, 2, 4] d)))).dev.voice 255,
      ⟨by decide +kernel, by decide +kernel, by decide +kernel, by decide +kernel, by decide +kernel, _, _, rfl, rfl,
      by decide +kernel⟩, by decide +kernel⟩,
    ⟨st (fun d => vo 255 (fun x => { x with pool := true, handle := 0x3FE1 }) (voice 255 .sounding 0 60 (wk [2, 1, 0xE1, 0x3F,
      3] d))), 0, 255, 3, bytes [2, 1, 225, 63, 3, 0, 0, 0, 0, 0, 0, 0, 0, 0, 0, 0], (st (fun d => vo 255 (fun x =>
      { x with pool := true, handle := 0x3FE1 }) (voice 255 .sounding 0 60 (wk [2, 1, 0xE1, 0x3F, 3] d)))).dev.voice 255,
      ⟨by decide +kernel, by decide +kernel, by decide +kernel, by decide +kernel, by decide +kernel, _, _, rfl, rfl,
      by decide +kernel⟩, by decide +kernel⟩,
    ⟨st (fun d => vo 255 (fun x => { x with pool := true, handle := 0x3FE1 }) (voice 255 .sounding 0 60 (wk [2, 1, 0xE1, 0x3F,
      4] d))), 0, 255, 4, bytes [2, 1, 225, 63, 4, 0, 0, 0, 0, 0, 0, 0, 0, 0, 0, 0], (st (fun d => vo 255 (fun x =>
      { x with pool := true, handle := 0x3FE1 }) (voice 255 .sounding 0 60 (wk [2, 1, 0xE1, 0x3F, 4] d)))).dev.voice 255,
      ⟨by decide +kernel, by decide +kernel, by decide +kernel, by decide +kernel, by decide +kernel, _, _, rfl, rfl,
      by decide +kernel⟩, by decide +kernel⟩,
    ⟨st (fun d => vo 255 (fun x => { x with pool := true, handle := 0x3FE1 }) (voice 255 .releasing 0 60 (wk [2, 1, 0xE1, 0x3F,
      1] d))), 0, 255, 1, bytes [2, 1, 225, 63, 1, 0, 0, 0, 0, 0, 0, 0, 0, 0, 0, 0], (st (fun d => vo 255 (fun x =>
      { x with pool := true, handle := 0x3FE1 }) (voice 255 .releasing 0 60 (wk [2, 1, 0xE1, 0x3F, 1] d)))).dev.voice 255,
      ⟨by decide +kernel, by decide +kernel, by decide +kernel, by decide +kernel, by decide +kernel, _, _, rfl, rfl,
      by decide +kernel⟩, by decide +kernel⟩,
    ⟨st (fun d => vo 255 (fun x => { x with pool := true, handle := 0x3FE1 }) (voice 255 .releasing 0 60 (wk [3, 1, 0xE1, 0x3F,
      61, 99] d))), 0, 255, bytes [3, 1, 0xE1, 0x3F, 61, 99, 0, 0, 0, 0, 0, 0, 0, 0, 0, 0], ⟨by decide +kernel,
      by decide +kernel, by decide +kernel, by decide +kernel, by decide +kernel, _, _, rfl, rfl, by decide +kernel⟩,
      by decide +kernel⟩,
    ⟨st (wk [4, 255, 0, 0, 252, 255, 15, 0, 1, 2, 3, 4, 0, 0, 0, 0]), 0, 0xFFFFC, bytes
      [4,255,0,0,0xFC,0xFF,0x0F,0,1,2,3,4,0,0,0,0], 0, 0, ⟨by decide +kernel, by decide +kernel, by decide +kernel,
      by decide +kernel, by decide +kernel, _, _, rfl, rfl, by decide +kernel⟩, by decide +kernel⟩,
    ⟨st (wk [4, 255, 0, 0, 8, 0, 8, 0, 0, 17, 0, 0, 0, 255, 0, 0]), 0, 0x80008, bytes
      [4,255,0,0,8,0,8,0,0,0x11,0,0,0,0xFF,0,0], 0x1100, 0xFF00, ⟨by decide +kernel, by decide +kernel, by decide +kernel,
      by decide +kernel, by decide +kernel, _, _, rfl, rfl, by decide +kernel⟩, by decide +kernel⟩,
    ⟨st (wk [4, 0xFF, 0, 0, 0xFC, 0xFF, 0x0F, 0, 1, 2, 3, 4, 0xFF, 0, 0xFF, 0]), 0, 0xFFFFC, bytes [4, 0xFF, 0, 0, 0xFC, 0xFF,
      0x0F, 0, 1, 2, 3, 4, 0xFF, 0, 0xFF, 0], 0x00030001, 0x00FF00FF, ⟨by decide +kernel, by decide +kernel, by decide +kernel,
      by decide +kernel, by decide +kernel, _, _, rfl, rfl, by decide +kernel⟩, by decide +kernel⟩,
    ⟨st (wk [5, 1, 0, 0x80, 0xEC, 3, 0, 0]), 0, 1004, bytes [5, 1, 0, 0x80, 0xEC, 3, 0, 0, 0, 0, 0, 0, 0, 0, 0, 0],
      ⟨by decide +kernel, by decide +kernel, by decide +kernel, by decide +kernel, by decide +kernel, _, _, rfl, rfl,
      by decide +kernel⟩, by decide +kernel⟩,
    ⟨st (wk [1, 2]), 0, bytes [1, 2, 0, 0, 0, 0, 0, 0, 0, 0, 0, 0, 0, 0, 0, 0], (1, Instr.directiveArm 0), by decide +kernel,
      ⟨by decide +kernel, by decide +kernel, by decide +kernel, by decide +kernel, by decide +kernel, _, _, rfl, rfl,
      by decide +kernel⟩, by decide +kernel⟩,
    ⟨st (wk [2, 1, 0xE1, 0x5F, 1]), 0, bytes [2, 1, 0xE1, 0x5F, 1, 0, 0, 0, 0, 0, 0, 0, 0, 0, 0, 0], (2, Instr.directiveState
      0), by decide +kernel, ⟨by decide +kernel, by decide +kernel, by decide +kernel, by decide +kernel, by decide +kernel, _,
      _, rfl, rfl, by decide +kernel⟩, by decide +kernel⟩,
    ⟨st (wk [2, 1, 0xE1, 0x3F, 1]), 0, 255, bytes [2, 1, 0xE1, 0x3F, 1, 0, 0, 0, 0, 0, 0, 0, 0, 0, 0, 0], (2,
      Instr.directiveState 0), by decide +kernel, ⟨by decide +kernel, by decide +kernel, by decide +kernel, by decide +kernel,
      by decide +kernel, _, _, rfl, rfl, by decide +kernel⟩, by decide +kernel⟩,
    ⟨up, 19, [], (Instr.directiveArm 19), by decide +kernel, by decide +kernel⟩⟩

/-- As the statement says it. -/
abbrev PacketsPassBetweenDevices_first (s : State) (ty : Nat) (p : List Byte) (r : List (List Byte)) : Prop := linkRuns s.dev =
  true ∧ s.dev.cas.packetsIn = p :: r ∧ byteAt p 0 = ty

/-- States and operands that meet the hypotheses of `Obligations.PacketsPassBetweenDevices`, clause by clause. -/
theorem wit_PacketsPassBetweenDevices :
    (∃ s : State, ∃ p : List Byte, ∃ im : List Byte, ∃ r : List (List Byte), ∃ o : Offer, ∃ e : Dev,
      PacketsPassBetweenDevices_first s 1 p r ∧ s.dev.isMaster = true ∧ s.dev.isOn Dom.ctrl = true ∧ im = sfBytes p 4 32 ∧ o =
      offerOf im 5 ∧ e = earlierReleases 4
      { s.dev with cas := { s.dev.cas with packetsIn := r, landing := s.dev.cas.landing ++ [im] } } ∧ badReason o (decide (0x50
      ≤ o.flow ∧ o.flow < 0x60)) ≠ 0) ∧
    (∃ s : State, ∃ p : List Byte, ∃ im : List Byte, ∃ r : List (List Byte), ∃ o : Offer, ∃ e : Dev,
      PacketsPassBetweenDevices_first s 1 p r ∧ s.dev.isMaster = true ∧ s.dev.isOn Dom.ctrl = true ∧ im = sfBytes p 4 32 ∧ o =
      offerOf im 5 ∧ e = earlierReleases 4
      { s.dev with cas := { s.dev.cas with packetsIn := r, landing := s.dev.cas.landing ++ [im] } } ∧ badReason o (decide (0x50
      ≤ o.flow ∧ o.flow < 0x60)) = 0 ∧ s.dev.cas.landing = [] ∧ refusal e (countOf (s.dev.fld Reg.ALM_RESV 13 0) 8192)
      (o.atOnce e) o.typ o.flow = 0 ∧ PoolOk s.dev.alm) ∧
    (∃ s : State, ∃ p : List Byte, ∃ im : List Byte, ∃ r : List (List Byte), ∃ o : Offer, ∃ e : Dev,
      PacketsPassBetweenDevices_first s 1 p r ∧ s.dev.isMaster = true ∧ s.dev.isOn Dom.ctrl = true ∧ im = sfBytes p 4 32 ∧ o =
      offerOf im 5 ∧ e = earlierReleases 4
      { s.dev with cas := { s.dev.cas with packetsIn := r, landing := s.dev.cas.landing ++ [im] } } ∧ badReason o (decide (0x50
      ≤ o.flow ∧ o.flow < 0x60)) = 0 ∧ s.dev.cas.landing = [] ∧ refusal e (countOf (s.dev.fld Reg.ALM_RESV 13 0) 8192)
      (o.atOnce e) o.typ o.flow ≠ 0) ∧
    (∃ s : State, ∃ p : List Byte, ∃ r : List (List Byte), PacketsPassBetweenDevices_first s 2 p r ∧ s.dev.isMaster = true ∧
      p.length = 20 ∧ firmwareUp s.dev = true ∧ s.dev.mgt.wdogLog = false ∧ s.dev.mgt.lost = 0) ∧
    (∃ s : State, firmwareUp s.dev = false) ∧
    (∃ s : State, ∃ tag : Nat, ∃ p : List Byte, ∃ r : List (List Byte), ∃ _ : Bool, PacketsPassBetweenDevices_first s 3 p r ∧
      s.dev.isWorker = true ∧ firmwareUp s.dev = true ∧ tag < 256 ∧ s.dev.cas.own.length < 32 ∧ s.dev.stage ≠ Stage.romWait ∧
      p.drop 4 = [0x01, BitVec.ofNat 8 tag, 0, 0]) ∧
    (∃ s : State, ∃ tag : Nat, ∃ p : List Byte, ∃ r : List (List Byte), ∃ _ : Bool, ∃ c : Nat, PacketsPassBetweenDevices_first
      s 3 p r ∧ s.dev.isWorker = true ∧ firmwareUp s.dev = true ∧ tag < 256 ∧ s.dev.cas.own.length < 32 ∧ s.dev.stage ≠
      Stage.romWait ∧ c < 256 ∧ c ∉ allCommands ∧ p.drop 4 = [BitVec.ofNat 8 c, BitVec.ofNat 8 tag, 0, 0]) ∧
    (∃ s : State, ∃ p : List Byte, ∃ r : List (List Byte), PacketsPassBetweenDevices_first s 4 p r ∧ s.dev.isMaster = true ∧
      firmwareUp s.dev = true ∧ s.dev.cas.fwdPos ≠ some (byteAt p 2)) ∧
    (∃ s : State, ∃ p : List Byte, ∃ r : List (List Byte), PacketsPassBetweenDevices_first s 4 p r ∧ s.dev.isMaster = true ∧
      firmwareUp s.dev = true ∧ s.dev.cas.fwdPos = some (byteAt p 2) ∧ (byteAt p 3).testBit 7 = false) ∧
    (∃ s : State, ∃ p : List Byte, ∃ r : List (List Byte), PacketsPassBetweenDevices_first s 4 p r ∧ s.dev.isMaster = true ∧
      firmwareUp s.dev = true ∧ s.dev.cas.fwdPos = some (byteAt p 2) ∧ (byteAt p 3).testBit 7 = true ∧ s.dev.cas.fwdPort = none
      ∧ s.dev.mgt.busy = true ∧ s.dev.mgt.response = none ∧ byteAt s.dev.mgt.request 0 = 0x30) ∧
    (∃ s : State, s.dev.cas.packetsIn = []) ∧
    (∃ s : State, ∃ _ : Bool, s.dev.cas.packetsIn = []) := ⟨
    ⟨st (fun d => ca (fun c => { c with packetsIn := [bytes ([1, 32, 1, 0] ++ List.replicate 32 0)] }) (chain 0 d)), bytes ([1,
      32, 1, 0] ++ List.replicate 32 0), sfBytes (bytes ([1, 32, 1, 0] ++ List.replicate 32 0)) 4 32, [], offerOf (sfBytes
      (bytes ([1, 32, 1, 0] ++ List.replicate 32 0)) 4 32) 5, earlierReleases 4
      { (st (fun d => ca (fun c => { c with packetsIn := [bytes ([1, 32, 1, 0] ++ List.replicate 32 0)] }) (chain 0 d))).dev with cas := { (st (fun d => ca (fun c => { c with packetsIn := [bytes ([1, 32, 1, 0] ++ List.replicate 32 0)] }) (chain 0 d))).dev.cas with packetsIn := [], landing := [sfBytes (bytes ([1, 32, 1, 0] ++ List.replicate 32 0)) 4 32] } },
      by decide +kernel⟩,
    ⟨st (fun d => ca (fun c => { c with packetsIn := [bytes ([1, 32, 1, 0, 0x12, 0, 0x5F] ++ List.replicate 29 0)] }) (chain 0
      d)), bytes ([1, 32, 1, 0, 0x12, 0, 0x5F] ++ List.replicate 29 0), bytes ([0x12, 0, 0x5F] ++ List.replicate 29 0), [],
      offerOf (bytes ([0x12, 0, 0x5F] ++ List.replicate 29 0)) 5, earlierReleases 4
      { (st (fun d => ca (fun c => { c with packetsIn := [bytes ([1, 32, 1, 0, 0x12, 0, 0x5F] ++ List.replicate 29 0)] }) (chain 0 d))).dev with cas := { (st (fun d => ca (fun c => { c with packetsIn := [bytes ([1, 32, 1, 0, 0x12, 0, 0x5F] ++ List.replicate 29 0)] }) (chain 0 d))).dev.cas with packetsIn := [], landing := [bytes ([0x12, 0, 0x5F] ++ List.replicate 29 0)] } },
      by unfold PoolOk; decide +kernel⟩,
    ⟨st (fun d => stage 9 (ca (fun c => { c with packetsIn := [bytes ([1, 32, 1, 0, 0x12, 0, 0x5F] ++ List.replicate 29 0)] })
      (chain 0 d))), bytes ([1, 32, 1, 0, 0x12, 0, 0x5F] ++ List.replicate 29 0), bytes ([0x12, 0, 0x5F] ++ List.replicate 29
      0), [], offerOf (bytes ([0x12, 0, 0x5F] ++ List.replicate 29 0)) 5, earlierReleases 4
      { (st (fun d => stage 9 (ca (fun c => { c with packetsIn := [bytes ([1, 32, 1, 0, 0x12, 0, 0x5F] ++ List.replicate 29 0)] }) (chain 0 d)))).dev with cas := { (st (fun d => stage 9 (ca (fun c => { c with packetsIn := [bytes ([1, 32, 1, 0, 0x12, 0, 0x5F] ++ List.replicate 29 0)] }) (chain 0 d)))).dev.cas with packetsIn := [], landing := [bytes ([0x12, 0, 0x5F] ++ List.replicate 29 0)] } },
      by decide +kernel⟩,
    ⟨st (fun d => ca (fun c =>
      { c with packetsIn := [bytes ([2, 16, 1, 0, 0xE8, 3, 0, 0, 0, 8, 1, 0x83] ++ List.replicate 8 5)] }) (chain 0 d)), bytes
      ([2, 16, 1, 0, 0xE8, 3, 0, 0, 0, 8, 1, 0x83] ++ List.replicate 8 5), [], by decide +kernel⟩,
    ⟨st (mg (fun m => { m with mode := 0 })), by decide +kernel⟩,
    ⟨st (fun d => ca (fun c => { c with packetsIn := [bytes [3, 4, 1, 0x80, 1, 9, 0, 0]] }) (chain 1 d)), 9, bytes [3, 4, 1,
      0x80, 1, 9, 0, 0], [], true, by decide +kernel⟩,
    ⟨st (fun d => ca (fun c => { c with packetsIn := [bytes [3, 4, 1, 0x80, 255, 9, 0, 0]] }) (chain 1 d)), 9, bytes [3, 4, 1,
      0x80, 255, 9, 0, 0], [], true, 255, by decide +kernel⟩,
    ⟨st (fun d => ca (fun c => { c with packetsIn := [bytes [4, 4, 1, 0x80, 1, 9, 0, 0]] }) (chain 0 d)), bytes [4, 4, 1, 0x80,
      1, 9, 0, 0], [], by decide +kernel⟩,
    ⟨st (fun d => ca (fun c => { c with fwdPos := some 1, packetsIn := [bytes [4, 4, 1, 0, 1, 9, 0, 0]] }) (chain 0 d)), bytes
      [4, 4, 1, 0, 1, 9, 0, 0], [], by decide +kernel⟩,
    ⟨st (fun d => req 0x30 7 [1, 0, 0, 0, 1, 0, 0, 0] (ca (fun c =>
      { c with fwdPos := some 1, packetsIn := [bytes [4, 4, 1, 0x81, 1, 9, 0, 0]] }) (chain 0 d))), bytes [4, 4, 1, 0x81, 1, 9,
      0, 0], [], by decide +kernel⟩,
    ⟨up, by decide +kernel⟩,
    ⟨up, true, by decide +kernel⟩⟩

/-- As the statement says it. -/
abbrev RollbackFloorOnlyRises_posted (s : State) (tag : Nat) (p : List Byte) : Prop := mailboxOpen s.dev = true ∧
  s.dev.mgt.busy = true ∧ s.dev.mgt.response = none ∧ s.dev.mgt.request = leBytes 1 0x18 ++ leBytes 1 tag ++ leBytes 2 2 ++ p ∧
  p.length = 2 ∧ tag < 256

/-- As the statement says it. -/
abbrev RollbackFloorOnlyRises_may (s : State) (v : Nat) (force : Bool) : Prop := s.dev.stage = Stage.run ∧ s.prot.floor < v ∧ v
  ≤ 32 ∧ v ≤ s.dev.mgt.secVersion ∧ (force = true ∨ (s.dev.nvReach = true ∧ headerErr s (1 - s.dev.slot) = 0 ∧ v ≤ flashNat
  s.prot.flash (s.dev.boot.base (1 - s.dev.slot) + 0x0C) 4))

/-- States and operands that meet the hypotheses of `Obligations.RollbackFloorOnlyRises`, clause by clause. -/
theorem wit_RollbackFloorOnlyRises :
    (∃ s : State, ∃ tag : Nat, ∃ v : Byte, ∃ f : Byte, RollbackFloorOnlyRises_posted s tag [v, f] ∧ s.dev.stage ≠ Stage.romWait
      ∧ romStage s.dev = false ∧ RollbackFloorOnlyRises_may s v.toNat (f.getLsbD 0)) ∧
    (∃ s : State, ∃ tag : Nat, ∃ v : Byte, ∃ f : Byte, RollbackFloorOnlyRises_posted s tag [v, f] ∧ s.dev.stage ≠ Stage.romWait
      ∧ romStage s.dev = false ∧ ¬RollbackFloorOnlyRises_may s v.toNat (f.getLsbD 0)) := ⟨
    ⟨st (fun d => req 0x18 7 [1, 1] (mg (fun m => { m with secVersion := 1 }) d)), 7, 1, 1, by decide +kernel⟩,
    ⟨st (fun d => req 0x18 7 [33, 1] (mg (fun m => { m with secVersion := 99 }) d)), 7, 33, 1, by decide +kernel⟩⟩

/-- A locked state whose step answers a next state. -/
theorem wit_LockHoldsUntilAReset : ∃ s t : State, s.prot.lock = true ∧ step s = .next t :=
  ⟨{ up with prot := { up.prot with lock := true }, pending := [.chrStop 0] }, _, rfl, rfl⟩

/-- A state with bytes in a memory, in its form, whose step answers a next state. -/
theorem wit_MemoryFormIsKeptByEveryStep : ∃ s t : State, Memory.wf s = true ∧ step s = .next t :=
  ⟨{ held up with pending := [.chrStop 0] }, _, by decide +kernel, rfl⟩

/-- A step answers a next state. -/
theorem wit_StepAnswers : ∃ s t : State, step s = .next t := ⟨{ up with pending := [.lock 1] }, _, rfl⟩

end Sys2Proof.Tests
end

section
/-! PROOF. What a reset does to the device and to the protected state (R71, R72, R106, R114), and the statement on resets. -/

namespace Sys2Proof.Machine

open Sys2Proof

/-- The device and the protected state right after a reset that keeps the fuses and the flash (R71). -/
def AtReset (s t : State) (lock both : Bool) (m : Option (Nat × Nat × Nat)) : Prop :=
  t.pending = s.pending ∧ t.prot = { s.prot with lock := lock, marker := m, markedBoth := both } ∧ t.dev.now = 0 ∧
    t.dev.frame = Dev.reset.frame ∧ t.dev.pwr = Dev.reset.pwr ∧ t.dev.alm = Dev.reset.alm ∧ t.dev.par = Dev.reset.par ∧
    t.dev.outs = Dev.reset.outs ∧ t.dev.mem.pstore = [] ∧ t.dev.mem.mram = [] ∧
    ∀ a, a ≠ Reg.GLB_RESET_CAUSE → a ≠ Reg.GLB_BOOT_STAT → t.dev.reg a = regReset a

@[simp] theorem bootErr_reg_ne (code sect a : Nat) (d : Dev) (h : a ≠ Reg.GLB_BOOT_STAT) : (bootErr code sect d).reg a = d.reg a := by
  simp [bootErr, h]

/-- A reset's device: every unit a reset puts back is as after power-on (R71). -/
theorem resetDev_units (c : Cause) (m : Option (Nat × Nat × Nat)) (d : Dev) :
    (resetDev c m d).frame = Dev.reset.frame ∧ (resetDev c m d).pwr = Dev.reset.pwr ∧ (resetDev c m d).alm = Dev.reset.alm ∧
    (resetDev c m d).par = Dev.reset.par ∧ (resetDev c m d).outs = Dev.reset.outs ∧ (resetDev c m d).boot = Dev.reset.boot ∧
    (resetDev c m d).mem = { Mems.reset with waveLoss := d.mem.waveLoss + 1 } := by
  cases m <;> exact ⟨rfl, rfl, rfl, rfl, rfl, rfl, rfl⟩

/-- A reset leaves no register but GLB_RESET_CAUSE, and with a marker GLB_BOOT_STAT, off its reset value (R71, R108). -/
theorem resetDev_reg (c : Cause) (m : Option (Nat × Nat × Nat)) (d : Dev) (a : Nat) (h1 : a ≠ Reg.GLB_RESET_CAUSE)
    (h2 : m = none ∨ a ≠ Reg.GLB_BOOT_STAT) : (resetDev c m d).reg a = regReset a := by
  cases m with
  | none => exact cellGet_cellSet_ne _ _ _ _ _ h1
  | some x =>
    have h2 : a ≠ Reg.GLB_BOOT_STAT := by simpa using h2
    exact (bootErr_reg_ne _ _ _ _ h2).trans (cellGet_cellSet_ne _ _ _ _ _ h1)

theorem resetDev_cause (c : Cause) (m : Option (Nat × Nat × Nat)) (d : Dev) (hc : c ≠ .por) :
    (resetDev c m d).reg Reg.GLB_RESET_CAUSE = d.reg Reg.GLB_RESET_CAUSE ||| BitVec.ofNat 32 (2 ^ c.bit) := by
  have h : (resetDev c m d).reg Reg.GLB_RESET_CAUSE = BitVec.ofNat 32 ((d.reg Reg.GLB_RESET_CAUSE).toNat ||| 2 ^ c.bit) := by
    cases m <;> simp [resetDev, hc, Reg.GLB_RESET_CAUSE, Reg.GLB_BOOT_STAT]
  rw [h, BitVec.ofNat_or, BitVec.ofNat_toNat, BitVec.setWidth_eq]

theorem resetDev_por_cause (d : Dev) : (resetDev .por none d).reg Reg.GLB_RESET_CAUSE = 1 := by
  simp [resetDev]

theorem resetDev_stage (c : Cause) (d : Dev) : (resetDev c none d).stage = 0 := by
  rw [Dev.stage, Dev.fld, resetDev_reg c none d _ (by decide) (.inl rfl)]
  decide

/-- The marker's error and section show in GLB_BOOT_STAT (R108). -/
theorem bootErr_fields (code sect : Nat) (d : Dev) (hc : code < 256) (hs : sect < 64) :
    (bootErr code sect d).fld Reg.GLB_BOOT_STAT 23 16 = code ∧ (bootErr code sect d).fld Reg.GLB_BOOT_STAT 29 24 = sect := by
  constructor
  · rw [bootErr, Dev.fld_putFld_other _ _ _ _ _ _ _ _ (by decide) (by decide) (by decide),
      Dev.fld_putFld_same _ _ _ _ _ (by decide) (by decide), Nat.mod_eq_of_lt (by omega)]
  · rw [bootErr, Dev.fld_putFld_same _ _ _ _ _ (by decide) (by decide), Nat.mod_eq_of_lt (by omega)]

/-- After a reset with a marker, ERR and SECT are the marker's (R108). -/
theorem resetDev_marker (c : Cause) (k code sect : Nat) (d : Dev) :
    ∃ r, resetDev c (some (k, code, sect)) d = bootErr code sect r := ⟨_, rfl⟩

/-- Every reset leaves the device at its reset state; which parts of the protected state go depends on the cause (R12, R106). -/
theorem resetState_atReset (c : Cause) (s : State) : AtReset s (resetState c s) (s.prot.lock && !c.unlocks)
    (s.prot.markedBoth && decide (c = .fallback)) (if c = .fallback then s.prot.marker else none) := by
  obtain ⟨hf, hp, ha, hpar, ho, -, hm⟩ := resetDev_units c (if c = .fallback then s.prot.marker else none) s.dev
  exact ⟨rfl, rfl, congrArg Frame.ef hf, hf, hp, ha, hpar, ho, congrArg Mems.pstore hm, congrArg Mems.mram hm,
    fun a h1 h2 => resetDev_reg c _ s.dev a h1 (.inr h2)⟩

/-- A reset that clears the lock forgets every failure (R12, R106). -/
theorem resetState_unlocks (c : Cause) (s : State) (h : c.unlocks = true) : AtReset s (resetState c s) false false none := by
  have hf : c ≠ .fallback := by rintro rfl; exact absurd h (by decide)
  simpa [h, hf] using resetState_atReset c s

/-- Settles O7: each reset is `resetState` with its cause, whose effect on the device and the protected state is stated once. -/
theorem resetsReturnToTheResetState : Obligations.ResetsReturnToTheResetState := by
  refine ⟨fun s => ?por, fun s w hw => ?pin, fun s hon => ?soft, fun s hdue hr => ?update, fun s hdue => ?noUpdate,
    fun s hon hm => ?wdog, fun s k e x hf hk he hx => ?fallback⟩
  case por => exact ⟨_, rfl, resetState_unlocks .por s rfl, resetDev_por_cause s.dev, resetDev_stage .por s.dev⟩
  case pin =>
    have e : exec (.resetPin w) s = .next (resetState .pin s) := by
      have h1 : ¬ w < 100 := by omega
      have h2 : ¬ w < 1000 := by omega
      simp [exec, execResetPin, resetPinState, State.onDev, h1, h2, hw]
    exact ⟨_, e, resetState_unlocks .pin s rfl, resetDev_stage .pin s.dev, resetDev_cause .pin none s.dev (by decide)⟩
  case soft =>
    have e : exec (.softwareReset 0x0000A5C3) s = .next (resetState .soft s) := by
      simp [exec, execSoftwareReset, softwareResetState, hon]
    exact ⟨_, e, resetState_unlocks .soft s rfl, resetDev_stage .soft s.dev, resetDev_cause .soft none s.dev (by decide)⟩
  case update =>
    have e : exec .updateReset s = .next (resetState .soft s) := by
      simp [exec, execUpdateReset, updateResetState, hdue, hr]
    exact ⟨_, e, resetState_unlocks .soft s rfl, resetDev_stage .soft s.dev, resetDev_cause .soft none s.dev (by decide)⟩
  case noUpdate => simp [exec, execUpdateReset, updateResetState, hdue]
  case wdog =>
    have e : exec .watchdogReset s = .next (resetState .wdog s) := by
      simp [exec, execWatchdogReset, watchdogResetState, hon, hm]
    have h : AtReset s (resetState .wdog s) s.prot.lock false none := by
      simpa [Cause.unlocks] using resetState_atReset .wdog s
    exact ⟨_, e, h, resetDev_cause .wdog none s.dev (by decide), rfl⟩
  case fallback =>
    have e' : exec .fallbackReset s = .next (resetState .fallback s) := by
      simp [exec, execFallbackReset, fallbackResetState, hf]
    have h : AtReset s (resetState .fallback s) s.prot.lock s.prot.markedBoth (some (k, e, x)) := by
      simpa [Cause.unlocks, hk] using resetState_atReset .fallback s
    obtain ⟨r, hr⟩ : ∃ r, (resetState .fallback s).dev = bootErr e x r :=
      (resetDev_marker .fallback k e x s.dev).imp fun r hr => by rw [← hr, ← hk]; rfl
    obtain ⟨herr, hsect⟩ := bootErr_fields e x r he hx
    exact ⟨_, e', h, by rw [hr]; exact herr, by rw [hr]; exact hsect, resetDev_cause .fallback s.prot.marker s.dev (by decide)⟩

end Sys2Proof.Machine
end

section
/-! PROOF. What every state operation does to GLB_LOCK.LOCK (R12), and the statement that the lock holds until a reset. -/

namespace Sys2Proof.Machine

open Sys2Proof

/-! ### What leaves the lock alone (R12) -/

@[simp] theorem State.putFlash_lock (s : State) (fl : List Host.Cell) : (s.putFlash fl).prot.lock = s.prot.lock := by
  unfold State.putFlash; split <;> rfl

@[simp] theorem writeRecord_lock (p : Nat) (s : State) : (writeRecord p s).prot.lock = s.prot.lock := by
  simp [writeRecord]

@[simp] theorem preferRestore_lock (s : State) : (preferRestore s).prot.lock = s.prot.lock := by
  unfold preferRestore; split <;> simp

@[simp] theorem runReached_lock (was : Nat) (s : State) : (runReached was s).prot.lock = s.prot.lock := by
  unfold runReached; split <;> simp

@[simp] theorem flashSpoil_lock (a n : Nat) (s : State) : (flashSpoil a n s).prot.lock = s.prot.lock := by
  simp [flashSpoil]

@[simp] theorem eraseSector_lock (a : Nat) (s : State) : (eraseSector a s).prot.lock = s.prot.lock := by
  simp [eraseSector]

@[simp] theorem modMgt_lock (f : Mgmt → Mgmt) (s : State) : (modMgt f s).prot.lock = s.prot.lock := rfl

/-! The wave mover and the boot. -/

@[simp] theorem spaceWrite_lock (s : State) (sp a : Nat) (bs : List Byte) : (spaceWrite s sp a bs).prot.lock = s.prot.lock := by
  unfold spaceWrite; repeat' split
  all_goals rfl

@[simp] theorem moverMove_lock (c n : Nat) (s : State) : (moverMove c n s).prot.lock = s.prot.lock := by
  simp [moverMove]

@[simp] theorem moverBurstState_lock (c : Nat) (s : State) : (moverBurstState c s).prot.lock = s.prot.lock := by
  unfold moverBurstState; split <;> simp

@[simp] theorem failLate_lock (code sect : Nat) (s : State) : (failLate code sect s).prot.lock = s.prot.lock := rfl

@[simp] theorem sectFails_lock (x : Sect) (code : Nat) (s : State) : (sectFails x code s).prot.lock = s.prot.lock := by
  unfold sectFails; split <;> simp

@[simp] theorem streamFront_prot (s : State) : (streamFront s).prot = s.prot := by
  unfold streamFront; split
  · rfl
  · dsimp only; split <;> rfl

@[simp] theorem streamNext_lock (x : Sect) (code : Nat) (s : State) : (streamNext x code s).prot.lock = s.prot.lock := by
  unfold streamNext; simp only [streamFront_prot]; split <;> simp

@[simp] theorem waveStreamDoneState_lock (s : State) : (waveStreamDoneState s).prot.lock = s.prot.lock := by
  unfold waveStreamDoneState; dsimp only; repeat' split
  all_goals simp

@[simp] theorem octalSwitch_lock (slot : Nat) (s : State) : (octalSwitch slot s).prot.lock = s.prot.lock := by
  unfold octalSwitch; dsimp only; repeat' split
  all_goals rfl

@[simp] theorem trySlot_lock (slot : Nat) (s : State) : (trySlot slot s).1.prot.lock = s.prot.lock := by
  unfold trySlot; dsimp only; repeat' split
  all_goals simp [acceptSlot, failInPlace]

@[simp] theorem trySlots_lock (s : State) : (trySlots s).prot.lock = s.prot.lock := by
  unfold trySlots; dsimp only; repeat' split
  all_goals simp [noImage]

@[simp] theorem nvmResetWaitEndState_lock (s : State) : (nvmResetWaitEndState s).prot.lock = s.prot.lock := by
  unfold nvmResetWaitEndState; split <;> simp

@[simp] theorem listFails_lock (s : State) : (listFails s).prot.lock = s.prot.lock := by
  unfold listFails; split <;> simp

@[simp] theorem listFront_lock (s : State) : (listFront s).prot.lock = s.prot.lock := by
  unfold listFront; repeat' split
  all_goals simp

@[simp] theorem listNext_lock (s : State) : (listNext s).prot.lock = s.prot.lock := by
  simp [listNext]

@[simp] theorem mgmtRead_lock (a : Nat) (s : State) : (mgmtRead a s).2.prot.lock = s.prot.lock := rfl

@[simp] theorem loadSect_lock (x : Sect) (s : State) : (loadSect x s).prot.lock = s.prot.lock := by
  unfold loadSect; dsimp only; repeat' split
  all_goals simp

theorem forEach_lock {β : Type} (l : List β) (f : β → State → State) (h : ∀ b s, (f b s).prot.lock = s.prot.lock) (s : State) :
    (forEach l f s).prot.lock = s.prot.lock := foldl_keeps (fun s => s.prot.lock) _ (fun s b => h b s) _ _

@[simp] theorem firmwareRuns_lock (x : Sect) (s : State) : (firmwareRuns x s).prot.lock = s.prot.lock := by
  unfold firmwareRuns; dsimp only; split
  · rfl
  · simp [forEach_lock]

@[simp] theorem firmwareStartState_lock (s : State) : (firmwareStartState s).prot.lock = s.prot.lock := by
  unfold firmwareStartState; dsimp only; repeat' split
  all_goals simp [failInPlace]

@[simp] theorem engineEnd_lock (s : State) : (engineEnd s).prot.lock = s.prot.lock := by
  unfold engineEnd; repeat' split
  all_goals simp

@[simp] theorem engineStageState_lock (s : State) : (engineStageState s).prot.lock = s.prot.lock := by
  unfold engineStageState; dsimp only; repeat' split
  all_goals simp

/-! The log's mirror and the management commands. -/

@[simp] theorem mirrorResume_lock (s : State) : (mirrorResume s).prot.lock = s.prot.lock := by
  unfold mirrorResume; dsimp only; repeat' split
  all_goals simp

@[simp] theorem mirrorOpen_lock (s : State) : (mirrorOpen s).prot.lock = s.prot.lock := by
  unfold mirrorOpen; split <;> simp

@[simp] theorem mirrorOne_lock (s : State) : (mirrorOne s).prot.lock = s.prot.lock := by
  simp [mirrorOne]

@[simp] theorem mirrorGroup_lock (n : Nat) (s : State) : (mirrorGroup n s).prot.lock = s.prot.lock :=
  (foldl_keeps (fun s : State => s.prot.lock) _ (fun s _ => mirrorOne_lock s) _ _).trans (mirrorResume_lock s)

@[simp] theorem mirrorFails_lock (n : Nat) (s : State) : (mirrorFails n s).prot.lock = s.prot.lock := by
  simp [mirrorFails]

@[simp] theorem logMirrorWriteState_lock (ok : Bool) (s : State) : (logMirrorWriteState ok s).prot.lock = s.prot.lock := by
  unfold logMirrorWriteState; dsimp only; repeat' split
  all_goals simp

@[simp] theorem abortSession_lock (n : Nat) (s : State) : (abortSession n s).prot.lock = s.prot.lock := by
  unfold abortSession; split <;> simp [closeSession, spoilTarget]

/-- A command's meaning leaves the lock alone. -/
def CmdKeepsLock (f : List Byte → State → Reply) : Prop := ∀ p s, (f p s).st.prot.lock = s.prot.lock

@[simp] theorem endWith_lock (n : Nat) (s : State) : (endWith n s).st.prot.lock = s.prot.lock := rfl

@[simp] theorem withSession_lock (c : Caller) (f : Session → State → Reply) (s : State)
    (h : ∀ x s, (f x s).st.prot.lock = s.prot.lock) : (withSession c f s).st.prot.lock = s.prot.lock := by
  unfold withSession; repeat' split
  all_goals simp [h]

@[simp] theorem imageBytes_lock (c : Caller) (x : Session) (off : Nat) (bs : List Byte) (s : State) :
    (imageBytes c x off bs s).st.prot.lock = s.prot.lock := by
  unfold imageBytes; repeat' split
  all_goals simp [imageWrite, sessionFails]

theorem getInfoCmd_lock : CmdKeepsLock getInfoCmd := fun _ _ => rfl
theorem logAddCmd_lock : CmdKeepsLock logAddCmd := fun _ _ => rfl
theorem logSyncCmd_lock (c : Caller) : CmdKeepsLock (logSyncCmd c) := by
  intro p s; unfold logSyncCmd; dsimp only; repeat' split
  all_goals simp
theorem updBeginCmd_lock (c : Caller) : CmdKeepsLock (updBeginCmd c) := by
  intro p s; unfold updBeginCmd; dsimp only; repeat' split
  all_goals simp
theorem updDataCmd_lock (c : Caller) : CmdKeepsLock (updDataCmd c) := by
  intro p s; simp [updDataCmd]
theorem updDramCmd_lock (c : Caller) : CmdKeepsLock (updDramCmd c) := by
  intro p s; unfold updDramCmd; refine withSession_lock _ _ _ (fun x s => ?_); dsimp only; repeat' split
  all_goals simp
theorem updEndCmd_lock (c : Caller) : CmdKeepsLock (updEndCmd c) := by
  intro p s; unfold updEndCmd; refine withSession_lock _ _ _ (fun x s => ?_); dsimp only; repeat' split
  all_goals simp [sessionFails, closeSession, spoilTarget]
theorem updAbortCmd_lock (c : Caller) : CmdKeepsLock (updAbortCmd c) := by
  intro p s; simp [updAbortCmd]
theorem rollbackAdvCmd_lock : CmdKeepsLock rollbackAdvCmd := by
  intro p s; unfold rollbackAdvCmd; dsimp only; split <;> rfl
theorem setPreferCmd_lock (c : Caller) : CmdKeepsLock (setPreferCmd c) := by
  intro p s; unfold setPreferCmd; repeat' split
  all_goals simp
theorem nvmIdCmd_lock : CmdKeepsLock nvmIdCmd := by
  intro p s; unfold nvmIdCmd; split <;> rfl
theorem nvmReadCmd_lock (c : Caller) : CmdKeepsLock (nvmReadCmd c) := by
  intro p s; unfold nvmReadCmd; dsimp only; repeat' split
  all_goals rfl
theorem nvmEraseCmd_lock (c : Caller) : CmdKeepsLock (nvmEraseCmd c) := by
  intro p s; unfold nvmEraseCmd; dsimp only; repeat' split
  all_goals simp
theorem nvmProgCmd_lock (c : Caller) : CmdKeepsLock (nvmProgCmd c) := by
  intro p s; unfold nvmProgCmd; dsimp only; repeat' split
  all_goals simp
theorem fwdEnd_lock : CmdKeepsLock (fun p s => endWith (fwdErr s.dev p) s) := fun _ _ => rfl

@[simp] theorem freshBases_lock (s : State) : (freshBases s).prot.lock = s.prot.lock := by
  unfold freshBases; split <;> rfl

theorem served_lock (cmd : Nat) (c : Caller) (req : List Byte) {f : List Byte → State → Reply} (h : CmdKeepsLock f) (s : State) :
    (served cmd c req f s).st.prot.lock = s.prot.lock := by
  unfold served; dsimp only; repeat' split
  all_goals simp [h _ _]

theorem mailboxRow_lock (cmd : Nat) {f : List Byte → State → Reply} (h : CmdKeepsLock f) (s : State) :
    (mailboxRow cmd f s).prot.lock = s.prot.lock := by
  unfold mailboxRow; dsimp only; split
  · simp [served_lock _ _ _ h]
  · rfl

/-- A choice between two replies keeps the lock if both do. -/
theorem lock_ite {c : Prop} [Decidable c] {a b : Reply} {x : Bool} (ha : a.st.prot.lock = x) (hb : b.st.prot.lock = x) :
    (if c then a else b).st.prot.lock = x := by split <;> assumption

@[simp] theorem runCommand_lock (c : Caller) (req : List Byte) (s : State) : (runCommand c req s).st.prot.lock = s.prot.lock := by
  have serve {f} (h : CmdKeepsLock f) := served_lock (byteAt req 0) c req h s
  unfold runCommand
  refine lock_ite (serve getInfoCmd_lock) (lock_ite (serve logAddCmd_lock) (lock_ite (serve (logSyncCmd_lock c)) ?_))
  refine lock_ite (serve (updBeginCmd_lock c)) (lock_ite (serve (updDataCmd_lock c)) (lock_ite (serve (updDramCmd_lock c)) ?_))
  refine lock_ite (serve (updEndCmd_lock c)) (lock_ite (serve (updAbortCmd_lock c)) (lock_ite (serve rollbackAdvCmd_lock) ?_))
  refine lock_ite (serve (setPreferCmd_lock c)) (lock_ite (serve nvmIdCmd_lock) (lock_ite (serve (nvmReadCmd_lock c)) ?_))
  exact lock_ite (serve (nvmEraseCmd_lock c)) (lock_ite (serve (nvmProgCmd_lock c)) (lock_ite (serve fwdEnd_lock) rfl))

@[simp] theorem fwdState_lock (s : State) : (fwdState s).prot.lock = s.prot.lock := by
  unfold fwdState; dsimp only; repeat' split
  · exact mailboxRow_lock _ fwdEnd_lock s
  · rfl
  · rfl

@[simp] theorem mgmtReqState_lock (ok : Bool) (s : State) : (mgmtReqState ok s).prot.lock = s.prot.lock := by
  unfold mgmtReqState; dsimp only; repeat' split
  all_goals simp

@[simp] theorem sysexRequest_lock (ok : Bool) (n : Nat) (req : List Byte) (s : State) :
    (sysexRequest ok n req s).prot.lock = s.prot.lock := by
  unfold sysexRequest; dsimp only; repeat' split
  all_goals simp

@[simp] theorem sysexMessage_lock (ok : Bool) (n : Nat) (msg : List Byte) (s : State) :
    (sysexMessage ok n msg s).prot.lock = s.prot.lock := by
  unfold sysexMessage; repeat' split
  all_goals simp

@[simp] theorem sysexDoneState_lock (i : Nat) (ok : Bool) (s : State) : (sysexDoneState i ok s).prot.lock = s.prot.lock := by
  unfold sysexDoneState; dsimp only; repeat' split
  all_goals simp

/-! ### Steps that may reset the device -/

/-- A set lock is still set, or the device has just been reset other than by a fallback (R12). -/
def LockOrReset (s t : State) : Prop :=
  s.prot.lock = true → t.prot.lock = true ∨ ∃ c s', c ≠ .fallback ∧ t = resetState c s'

theorem LockOrReset.of_eq {s t : State} (h : t.prot.lock = s.prot.lock) : LockOrReset s t := fun hl => .inl (h.trans hl)

theorem LockOrReset.of_reset (c : Cause) (s s' : State) (hc : c ≠ .fallback) : LockOrReset s (resetState c s') :=
  fun _ => .inr ⟨c, s', hc, rfl⟩

theorem LockOrReset.ite {c : Prop} [Decidable c] {s a b : State} (ha : LockOrReset s a) (hb : LockOrReset s b) :
    LockOrReset s (if c then a else b) := by split <;> assumption

theorem softwareResetState_lockOrReset (v : Word) (s : State) : LockOrReset s (softwareResetState v s) :=
  .ite (.of_reset .soft _ _ (by decide)) (.of_eq rfl)

/-- LOCK is only ever set by a write (R12). -/
theorem lockWrite_lock (v : Word) (s : State) : (lockWrite v s).prot.lock = (v.getLsbD 0 || s.prot.lock) := by
  unfold lockWrite; dsimp only; repeat' split
  all_goals simp_all

theorem lockWrite_lockOrReset (v : Word) (s : State) : LockOrReset s (lockWrite v s) := fun hs =>
  .inl (by rw [lockWrite_lock, hs, Bool.or_true])

@[simp] theorem continueState_lock (v : Word) (s : State) : (continueState v s).prot.lock = s.prot.lock := by
  unfold continueState; split <;> simp

@[simp] theorem retryState_lock (v : Word) (s : State) : (retryState v s).prot.lock = s.prot.lock := by
  unfold retryState; split <;> rfl

@[simp] theorem frameCtlState_lock (v : Word) (s : State) : (frameCtlState v s).prot.lock = s.prot.lock := by
  simp [frameCtlState]

theorem regWrite_lockOrReset (mgmt : Bool) (a : Nat) (v : Word) (be : BitVec 4) (s : State) :
    LockOrReset s (regWrite mgmt a v be s) :=
  .ite (.of_eq rfl) (.ite (lockWrite_lockOrReset v s) (.ite (softwareResetState_lockOrReset v s)
    (.ite (.of_eq (frameCtlState_lock v s)) (.ite (.of_eq (by simp)) (.of_eq rfl)))))

theorem hostCommit_lockOrReset (a : Nat) (v : Word) (lo hi : BitVec 2) (s : State) : LockOrReset s (hostCommit a v lo hi s) :=
  .ite (.of_eq rfl) (.ite (.of_eq rfl) (.ite (.of_eq rfl) (.ite (.of_eq rfl) (regWrite_lockOrReset _ _ _ _ _))))

theorem highWrite_lockOrReset (a : Nat) (x : BitVec 16) (be : BitVec 2) (s : State) : LockOrReset s (highWrite a x be s) := by
  unfold highWrite; split
  · exact .of_eq rfl
  · exact .ite (hostCommit_lockOrReset _ _ _ _ (s.onDev _)) (.of_eq rfl)

theorem hostHighHalfWriteState_lockOrReset (ha : Nat) (x : BitVec 16) (be : BitVec 2) (s : State) :
    LockOrReset s (hostHighHalfWriteState ha x be s) :=
  .ite (.of_eq rfl) (.ite (highWrite_lockOrReset _ _ _ _) (.of_eq rfl))

theorem mgmtWrite_lockOrReset (a : Nat) (v : Word) (s t : State) (h : mgmtWrite a v s = some t) : LockOrReset s t := by
  unfold mgmtWrite at h
  split at h
  · cases h; exact regWrite_lockOrReset _ _ _ _ s
  · split at h
    · obtain ⟨d, -, rfl⟩ := Option.map_eq_some_iff.mp h
      exact .of_eq rfl
    · cases h; exact .of_eq rfl

/-- Behind a write that has reset the device a fill stops. -/
theorem listFill_of_reset (v : Word) (n a : Nat) (c : Cause) (s : State) (hc : c ≠ .fallback) :
    (listFill v n a (resetState c s)).1 = resetState c s := by
  have hs : (resetState c s).dev.stage = 0 := by
    simpa [resetState, hc] using resetDev_stage c s.dev
  cases n with
  | zero => rfl
  | succ n => simp [listFill, hs, Stage.load]

theorem listFill_lockOrReset (v : Word) (n a : Nat) (s : State) : LockOrReset s (listFill v n a s).1 := by
  induction n generalizing a s with
  | zero => exact .of_eq rfl
  | succ n ih =>
    unfold listFill; split
    · exact .of_eq rfl
    · split
      next t h =>
        intro hs
        rcases mgmtWrite_lockOrReset a v s t h hs with hl | ⟨c, s', hc, rfl⟩
        · exact ih (a + 4) t hl
        · exact .inr ⟨c, s', hc, listFill_of_reset v n _ c s' hc⟩
      next => exact .of_eq rfl

/-- The units that a reset puts back (R12, R71). -/
def AtRest (d : Dev) : Prop :=
  d.pwr = Dev.reset.pwr ∧ d.frame = Dev.reset.frame ∧ d.alm = Dev.reset.alm ∧ d.outs = Dev.reset.outs

/-- A set lock is still set, or the device's reset units are at rest. -/
def LockSafe (s t : State) : Prop := s.prot.lock = true → t.prot.lock = true ∨ AtRest t.dev

theorem resetState_atRest (c : Cause) (s : State) : AtRest (resetState c s).dev := by
  obtain ⟨-, -, -, hf, hp, ha, -, ho, -⟩ := resetState_atReset c s
  exact ⟨hp, hf, ha, ho⟩

theorem LockOrReset.lockSafe {s t : State} (h : LockOrReset s t) : LockSafe s t := fun hs =>
  (h hs).imp_right fun ⟨c, s', _, e⟩ => e ▸ resetState_atRest c s'

theorem LockSafe.of_eq {s t : State} (h : t.prot.lock = s.prot.lock) : LockSafe s t := fun hl => .inl (h.trans hl)

theorem LockSafe.of_reset (c : Cause) (s s' : State) : LockSafe s (resetState c s') := fun _ => .inr (resetState_atRest c s')

theorem LockSafe.ite {c : Prop} [Decidable c] {s a b : State} (ha : LockSafe s a) (hb : LockSafe s b) :
    LockSafe s (if c then a else b) := by split <;> assumption

theorem AtRest.of_keeps {d e : Dev} (h : AtRest d) (hp : e.pwr = d.pwr) (hf : e.frame = d.frame) (ha : e.alm = d.alm)
    (ho : e.outs = d.outs) : AtRest e := by
  obtain ⟨h1, h2, h3, h4⟩ := h
  exact ⟨hp.trans h1, hf.trans h2, ha.trans h3, ho.trans h4⟩

/-! A list's write may be of GLB_RESET; what follows it in the same command leaves the reset units alone. -/

theorem failLate_atRest (code sect : Nat) (s : State) (h : AtRest s.dev) : AtRest (failLate code sect s).dev :=
  h.of_keeps (by simp [failLate, Dev.modBoot]) (by simp [failLate, Dev.modBoot]) (by simp [failLate, Dev.modBoot])
    (by simp [failLate, Dev.modBoot])

theorem listFails_atRest (s : State) (h : AtRest s.dev) : AtRest (listFails s).dev := by
  unfold listFails; split
  · exact failLate_atRest _ _ s h
  · exact h

theorem listFront_atRest (s : State) (h : AtRest s.dev) : AtRest (listFront s).dev := by
  unfold listFront; repeat' split
  · exact h
  · exact listFails_atRest s h
  · exact h

theorem streamFront_atRest (s : State) (h : AtRest s.dev) : AtRest (streamFront s).dev := by
  unfold streamFront; split
  · exact h
  · dsimp only; split
    · exact h
    · refine h.of_keeps ?_ ?_ ?_ ?_ <;> dsimp only [State.onDev] <;> split <;> simp [Dev.modBoot]

theorem listNext_atRest (s : State) (h : AtRest s.dev) : AtRest (listNext s).dev :=
  streamFront_atRest _ (listFront_atRest _ (h.of_keeps rfl rfl rfl rfl))

theorem LockSafe.listNext {s t : State} (h : LockSafe s t) : LockSafe s (listNext t) := fun hs =>
  (h hs).imp (listNext_lock t).trans (listNext_atRest t)

theorem listWrite_lockSafe (a : Nat) (v : Word) (s : State) : LockSafe s (listWrite a v s) := by
  unfold listWrite; split
  next t h => exact (mgmtWrite_lockOrReset a v s t h).lockSafe.listNext
  next => exact .of_eq rfl

theorem reginitWriteState_lockSafe (a : Nat) (v : Word) (s : State) : LockSafe s (reginitWriteState a v s) :=
  .ite (.of_eq rfl) (.ite (listWrite_lockSafe a v s) (.of_eq (listFails_lock s)))

theorem reginitSetState_lockSafe (a : Nat) (v : Word) (s : State) : LockSafe s (reginitSetState a v s) :=
  .ite (.of_eq rfl) (.ite (listWrite_lockSafe a _ (mgmtRead a s).2) (.of_eq (listFails_lock s)))

theorem reginitClearState_lockSafe (a : Nat) (v : Word) (s : State) : LockSafe s (reginitClearState a v s) :=
  .ite (.of_eq rfl) (.ite (listWrite_lockSafe a _ (mgmtRead a s).2) (.of_eq (listFails_lock s)))

theorem reginitFillState_lockSafe (k a : Nat) (v : Word) (s : State) : LockSafe s (reginitFillState k a v s) := by
  have h := (listFill_lockOrReset v (countOf k 1024) a s).lockSafe
  exact .ite (.of_eq rfl) (.ite (.of_eq (listFails_lock s)) (.ite h.listNext (fun hs => (h hs).imp_right (·.of_keeps rfl rfl rfl rfl))))

@[simp] theorem reginitPollState_lock (k a : Nat) (v : Word) (s : State) : (reginitPollState k a v s).prot.lock = s.prot.lock := by
  unfold reginitPollState; dsimp only; repeat' split
  all_goals simp

@[simp] theorem reginitDelayState_lock (k : Nat) (s : State) : (reginitDelayState k s).prot.lock = s.prot.lock := by
  unfold reginitDelayState; repeat' split
  all_goals simp

/-! ### Wakes, and the resets that keep the lock -/

/-- Neither the lock nor the rollback floor changes. -/
def KeepsLockAndFloor (s t : State) : Prop := t.prot.lock = s.prot.lock ∧ t.prot.floor = s.prot.floor

theorem resetState_keeps (c : Cause) (s : State) (hc : c.unlocks = false) : KeepsLockAndFloor s (resetState c s) := by
  simp [KeepsLockAndFloor, resetState, hc]

theorem mgmtReload_prot (s : State) : (mgmtReload s).2.prot = s.prot := by
  unfold mgmtReload; dsimp only; repeat' split
  all_goals rfl

/-- A failed check of the firmware at a wake is a fallback reset, which keeps the lock (R12, R106). -/
theorem domainWakeState_keeps (n : Nat) (s : State) : KeepsLockAndFloor s (domainWakeState n s) := by
  unfold domainWakeState; split
  · exact ⟨rfl, rfl⟩
  · dsimp only; split
    · have h := mgmtReload_prot (s.onDev (unitWake n (s.dev.dom n).cold))
      split
      next t e => rw [e] at h; exact ⟨congrArg Prot.lock h, congrArg Prot.floor h⟩
      next e x t he =>
        rw [he] at h
        have h : t.prot = s.prot := h
        obtain ⟨hl, hf⟩ := resetState_keeps .fallback (failLate e x t) rfl
        exact ⟨hl.trans (by rw [failLate_lock, h]), hf.trans (congrArg (fun p => p.floor) h)⟩
    · split <;> exact ⟨rfl, rfl⟩

theorem streamFront_domainWakeState_keeps (n : Nat) (s : State) : KeepsLockAndFloor s (streamFront (domainWakeState n s)) := by
  rw [KeepsLockAndFloor, streamFront_prot]; exact domainWakeState_keeps n s

/-! ### The test access port (R570, R571) -/

theorem jtagLoad_lockSafe (op : Nat) (s : State) : LockSafe s (jtagLoad op s) :=
  .ite (.of_reset _ _ _) (.of_eq rfl)

theorem tapScan_lock (s : State) : (tapScan s).prot.lock = s.prot.lock := by
  unfold tapScan; dsimp only; split <;> rfl

theorem tapCommand_lockSafe (op : Nat) (s : State) : LockSafe s (tapCommand op s) :=
  .ite (fun hs => (jtagLoad_lockSafe op s hs).imp (tapScan_lock _).trans (·.of_keeps rfl rfl rfl rfl)) (jtagLoad_lockSafe op s)

/-! ### Every command -/

theorem State.asHost_lockSafe (s : State) (f : State → State) (h : LockSafe s (f s)) : LockSafe s (s.asHost f) :=
  .ite h (.of_eq rfl)

theorem hostNext_lockSafe (s t : State) (f : Dev → Dev) (h : hostNext s f = .next t) : LockSafe s t := by
  cases h; exact State.asHost_lockSafe s _ (.of_eq rfl)

theorem devNext_lockSafe (s t : State) (f : Dev → Dev) (h : devNext s f = .next t) : LockSafe s t := by
  cases h; exact .of_eq rfl

theorem LockSafe.of_next {s t u : State} (h : (.next u : Host.Outcome State Fault Refusal) = .next t) (hu : LockSafe s u) :
    LockSafe s t := by cases h; exact hu

/-- A row that is the host's for some channels and the firmware's for the others. -/
theorem hostOrDev_lockSafe (s t : State) (f : Dev → Dev) (p : Prop) [Decidable p]
    (h : (if p then hostNext s f else devNext s f) = .next t) : LockSafe s t := by
  split at h
  · exact hostNext_lockSafe s t f h
  · exact devNext_lockSafe s t f h

/-- A row of the firmware's that the test port keeps from acting (R571). -/
theorem unlessHeld_lockSafe (s t : State) (f : Dev → Dev) (p : Prop) [Decidable p]
    (h : (if p then .next s else devNext s f) = .next t) : LockSafe s t := by
  split at h
  · cases h; exact .of_eq rfl
  · exact devNext_lockSafe s t f h

/-- Of every command: the lock stays, or the device is reset. The rows not named act on the device alone. -/
theorem exec_lockSafe (c : Instr) (s t : State) (h : exec c s = .next t) : LockSafe s t := by
  cases c
  case waveCacheInval | winAddrWrite | winDataWrite | winAbort | playerGo | playerStop | outputEnable | outputDisable
      | rangeChange | outFaultClear | chrStart | chrStop | chrClear | reloadWrite | captureSw | evcStart | evcStop
      | evcClearAll | evcFreeze | evcClr | swap | swapAll | skimmerCoefWrite | skimmerReset | calReq | slackMinClear
      | serTxWrite | modeChange | rxFlush | txFlush | txBreak | txBreakClear | divWrite | linkEnable | linkDisable
      | glfoRestart | tdmPortEnable | tdmPortDisable | mgtFaultClear | powerBatch | padRelease | hostCancel | flush
      | hostPost | engineDisable | paramStoreHostWrite => exact hostNext_lockSafe s t _ h
  case registerWrite a v => exact .of_next h (.ite (regWrite_lockOrReset _ _ _ _ s).lockSafe (.of_eq rfl))
  case lock v => exact .of_next h (s.asHost_lockSafe _ (.ite (lockWrite_lockOrReset v s).lockSafe (.of_eq rfl)))
  case hostHighHalfWrite => exact .of_next h (hostHighHalfWriteState_lockOrReset _ _ _ s).lockSafe
  case softwareReset v => exact .of_next h (.ite (softwareResetState_lockOrReset v s).lockSafe (.of_eq rfl))
  case powerOnReset => exact .of_next h (.of_reset _ _ _)
  case resetPin => exact .of_next h (.ite (.of_eq rfl) (.ite (.of_reset _ _ _) (.of_eq rfl)))
  case watchdogReset | fallbackReset | updateReset => exact .of_next h (.ite (.of_reset _ _ _) (.of_eq rfl))
  case domainWake n => exact .of_next h (.of_eq (streamFront_domainWakeState_keeps n s).1)
  case reginitWrite => exact .of_next h (reginitWriteState_lockSafe _ _ s)
  case reginitSet => exact .of_next h (reginitSetState_lockSafe _ _ s)
  case reginitClear => exact .of_next h (reginitClearState_lockSafe _ _ s)
  case reginitFill => exact .of_next h (reginitFillState_lockSafe _ _ _ s)
  case reginitPoll => exact .of_next h (.of_eq (reginitPollState_lock _ _ _ s))
  case reginitPollTimeout => exact .of_next h (.ite (.of_eq (listFails_lock s)) (.of_eq rfl))
  case reginitDelay => exact .of_next h (.of_eq (reginitDelayState_lock _ s))
  case reginitDelayEnd => exact .of_next h (.ite (.of_eq (listNext_lock s)) (.of_eq rfl))
  case extest | samplePreload | clamp | highz | bypass => exact .of_next h (tapCommand_lockSafe _ s)
  case testLogicReset => exact .of_next h (jtagLoad_lockSafe _ s)
  case aonWake => exact .of_next h (.ite (.of_eq rfl) (.of_eq rfl))
  case engineEnable v => exact .of_next h (s.asHost_lockSafe _ (.ite (.of_eq (frameCtlState_lock v s)) (.of_eq rfl)))
  case strapLatch => exact .of_next h (.ite (.of_eq rfl) (.of_eq rfl))
  case continueBoot v => exact .of_next h (s.asHost_lockSafe _ (.of_eq (continueState_lock v s)))
  case retry v => exact .of_next h (s.asHost_lockSafe _ (.of_eq (retryState_lock v s)))
  case hostLowHalfRead => exact .of_next h (.ite (.of_eq rfl) (.ite (.ite (.of_eq rfl) (.of_eq rfl)) (.of_eq rfl)))
  case hostHighHalfRead => exact .of_next h (.ite (.of_eq rfl) (.ite (.of_eq rfl) (.of_eq rfl)))
  case moverGo | moverAbort => exact hostOrDev_lockSafe s t _ _ h
  case vidSettled | sensorMeasurement => exact unlessHeld_lockSafe s t _ _ h
  case moverBurst => exact .of_next h (.of_eq (moverBurstState_lock _ s))
  case waveStreamDone => exact .of_next h (.of_eq (waveStreamDoneState_lock s))
  case nvmResetWaitEnd => exact .of_next h (.of_eq (nvmResetWaitEndState_lock s))
  case firmwareStart => exact .of_next h (.of_eq (firmwareStartState_lock s))
  case engineStage => exact .of_next h (.of_eq (engineStageState_lock s))
  case logMirrorWrite ok => exact .of_next h (.of_eq (logMirrorWriteState_lock ok s))
  case getInfo => exact .of_next h (.of_eq (mailboxRow_lock _ getInfoCmd_lock s))
  case logAdd => exact .of_next h (.of_eq (mailboxRow_lock _ logAddCmd_lock s))
  case logSync => exact .of_next h (.of_eq (mailboxRow_lock _ (logSyncCmd_lock _) s))
  case updBegin => exact .of_next h (.of_eq (mailboxRow_lock _ (updBeginCmd_lock _) s))
  case updData => exact .of_next h (.of_eq (mailboxRow_lock _ (updDataCmd_lock _) s))
  case updDram => exact .of_next h (.of_eq (mailboxRow_lock _ (updDramCmd_lock _) s))
  case updEnd => exact .of_next h (.of_eq (mailboxRow_lock _ (updEndCmd_lock _) s))
  case updAbort => exact .of_next h (.of_eq (mailboxRow_lock _ (updAbortCmd_lock _) s))
  case updateSessionTimeout => exact .of_next h (.of_eq (abortSession_lock _ s))
  case rollbackAdv => exact .of_next h (.of_eq (mailboxRow_lock _ rollbackAdvCmd_lock s))
  case setPrefer => exact .of_next h (.of_eq (mailboxRow_lock _ (setPreferCmd_lock _) s))
  case nvmId => exact .of_next h (.of_eq (mailboxRow_lock _ nvmIdCmd_lock s))
  case nvmRead => exact .of_next h (.of_eq (mailboxRow_lock _ (nvmReadCmd_lock _) s))
  case nvmErase => exact .of_next h (.of_eq (mailboxRow_lock _ (nvmEraseCmd_lock _) s))
  case nvmProg => exact .of_next h (.of_eq (mailboxRow_lock _ (nvmProgCmd_lock _) s))
  case fwd => exact .of_next h (.of_eq (fwdState_lock s))
  case mgmtReq ok => exact .of_next h (.of_eq (mgmtReqState_lock ok s))
  case sysexDone i ok => exact .of_next h (.of_eq (sysexDoneState_lock i ok s))
  all_goals exact devNext_lockSafe s t _ h

theorem startUpTick_prot (s : State) : (startUpTick s).prot = s.prot := by
  unfold startUpTick; repeat' split
  all_goals rfl

/-- Settles O59: every command's effect on the lock, and the three resets that keep it. -/
theorem lockHoldsUntilAReset : Obligations.LockHoldsUntilAReset := by
  refine ⟨fun s t hl h => ?_, fun s n c hc => ?_⟩
  · unfold step at h
    split at h
    · cases h; exact .inl ((congrArg Prot.lock (startUpTick_prot s)).trans hl)
    next c r _ => exact exec_lockSafe c { s with pending := r } t h hl
  · simp only [List.mem_cons, List.not_mem_nil, or_false] at hc
    have keep (k : Cause) (hk : k.unlocks = false) (p : Prop) [Decidable p] : KeepsLockAndFloor s (if p then resetState k s else s) := by
      split
      · exact resetState_keeps k s hk
      · exact ⟨rfl, rfl⟩
    rcases hc with rfl | rfl | rfl
    · exact ⟨_, rfl, keep .wdog rfl _⟩
    · exact ⟨_, rfl, keep .fallback rfl _⟩
    · exact ⟨_, rfl, streamFront_domainWakeState_keeps n s⟩

end Sys2Proof.Machine
end

section
/-! SUPPORT. Tables and folds: an entry read after a change, a loop over indices, and the clusters and tiles of the device. -/

namespace Sys2Proof.Machine

open Sys2Proof

/-! ### Tables -/

/-- An entry after entry i has changed. -/
theorem at_upd {α : Type} (l : List α) (i j : Nat) (f : α → α) (x : α) (h : i < l.length) :
    at_ (upd l i f) j x = if j = i then f (at_ l j x) else at_ l j x := by
  unfold at_ upd
  by_cases e : j = i
  · subst e; simp [List.getD_eq_getElem?_getD, h]
  · have e' : i ≠ j := Ne.symm e
    simp [List.getD_eq_getElem?_getD, e, e']

@[simp] theorem upd_length {α : Type} (l : List α) (i : Nat) (f : α → α) : (upd l i f).length = l.length := List.length_modify ..

/-- A loop over n + 1 indices ends with the round of index n. -/
theorem forUpTo_succ {α : Type} (n : Nat) (f : Nat → α → α) (x : α) : forUpTo (n + 1) f x = f n (forUpTo n f x) := by
  simp [forUpTo, List.range_succ]

/-! ### Clusters and tiles -/

@[simp] theorem Dev.reg_modClu (d : Dev) (c a : Nat) (f : Clu → Clu) : (d.modClu c f).reg a = d.reg a := rfl
@[simp] theorem Dev.tile_modClu (d : Dev) (c v : Nat) (f : Clu → Clu) : (d.modClu c f).tile v = d.tile v := rfl

theorem Dev.clu_of_aud {d e : Dev} (h : e.aud = d.aud) (c : Nat) : e.clu c = d.clu c := by rw [Dev.clu, h]; rfl
theorem Dev.tile_of_aud {d e : Dev} (h : e.aud = d.aud) (v : Nat) : e.tile v = d.tile v := by rw [Dev.tile, h]; rfl

theorem Dev.clu_modClu_same (d : Dev) (c : Nat) (f : Clu → Clu) (h : c < d.aud.clus.length) : (d.modClu c f).clu c = f (d.clu c) :=
  (at_upd _ _ _ _ _ h).trans (if_pos rfl)

@[simp] theorem Dev.tiles_length_modTile (d : Dev) (v : Nat) (f : Tile → Tile) :
    (d.modTile v f).aud.tiles.length = d.aud.tiles.length := upd_length ..

theorem Dev.tiles_length_forUpTo_modTile (d : Dev) (b n : Nat) (f : Tile → Tile) :
    (forUpTo n (fun t d => d.modTile (b + t) f) d).aud.tiles.length = d.aud.tiles.length :=
  foldl_keeps (fun d : Dev => d.aud.tiles.length) _ (fun d _ => d.tiles_length_modTile _ _) _ _

/-- A run of tiles changed alike. -/
theorem Dev.tile_forUpTo_modTile (d : Dev) (b n v : Nat) (f : Tile → Tile) (h : b + n ≤ d.aud.tiles.length) :
    (forUpTo n (fun t d => d.modTile (b + t) f) d).tile v = if b ≤ v ∧ v < b + n then f (d.tile v) else d.tile v := by
  induction n with
  | zero => exact (if_neg (by omega)).symm
  | succ n ih =>
    rw [forUpTo_succ, Dev.tile, Dev.modTile, Dev.modAud, at_upd _ _ _ _ _ (by rw [tiles_length_forUpTo_modTile]; omega), ← Dev.tile,
      ih (by omega)]
    by_cases hv : v = b + n
    · rw [if_pos hv, if_neg (by omega), if_pos (by omega)]
    · rw [if_neg hv]
      congr 1
      simp; omega

theorem Dev.clu_forUpTo_modTile (d : Dev) (b n c : Nat) (f : Tile → Tile) :
    (forUpTo n (fun t d => d.modTile (b + t) f) d).clu c = d.clu c :=
  foldl_keeps (fun d : Dev => d.clu c) (fun d t => d.modTile (b + t) f) (fun _ _ => rfl) _ _

theorem Dev.reg_forUpTo_modTile (d : Dev) (b n a : Nat) (f : Tile → Tile) :
    (forUpTo n (fun t d => d.modTile (b + t) f) d).reg a = d.reg a :=
  foldl_keeps (fun d : Dev => d.reg a) (fun d t => d.modTile (b + t) f) (fun _ _ => rfl) _ _

/-! ### EF arithmetic (R41) -/

@[simp] theorem efSince_self (n : Nat) : efSince n n = 0 := by
  unfold efSince efWrap; omega

end Sys2Proof.Machine
end

section
/-! PROOF. Synchronising resets of the Skimmers (R289, R303 to R305, R310). -/

namespace Sys2Proof.Machine

open Sys2Proof

/-! ### Registers written under the lock (R12) -/

/-- A write under the lock can set VIOL and does nothing else. -/
theorem lockViol_reg_ne (lock : Bool) (a b : Nat) (v : Word) (d : Dev) (h : b ≠ Reg.GLB_LOCK) :
    (lockViol lock a v d).reg b = d.reg b := by
  unfold lockViol; split
  · split
    · exact Dev.reg_putFlag_ne _ _ _ _ _ h
    · rfl
  · rfl

theorem lockViol_eq (lock : Bool) (a : Nat) (v : Word) (d : Dev) :
    lockViol lock a v d = { d with regs := (lockViol lock a v d).regs } := by
  unfold lockViol; split
  · split <;> rfl
  · rfl

/-- A cluster's registers are none of GLB. -/
theorem cluReg_ne_glbLock (c a : Nat) (h : 0x10000 ≤ a) : cluReg c a ≠ Reg.GLB_LOCK := by
  unfold cluReg Reg.GLB_LOCK; omega

@[simp] theorem cluReg_inj (c a b : Nat) : cluReg c a = cluReg c b ↔ a = b := by
  unfold cluReg; omega

/-! ### CLU_SKM_CTL written (R303, R310) -/

/-- Does a write of CLU_SKM_CTL change LEN_M (R12, R310)? -/
def changesLen (lock : Bool) (c : Nat) (v : Word) (d : Dev) : Bool :=
  !lock && v.getLsbD 4 != d.flag (cluReg c Reg.CLU_SKM_CTL) 4

theorem changesLen_eq_true (lock : Bool) (c : Nat) (v : Word) (d : Dev) :
    changesLen lock c v d = true ↔ lock = false ∧ v.getLsbD 4 ≠ d.flag (cluReg c Reg.CLU_SKM_CTL) 4 := by
  simp [changesLen]

/-- The registers after the write: FADE_LOG2 in any case, LEN_M if it changes. -/
def skmCtlRegs (lock : Bool) (c : Nat) (v : Word) (d : Dev) : Dev :=
  let d' := (lockViol lock (cluReg c Reg.CLU_SKM_CTL) v d).putFld (cluReg c Reg.CLU_SKM_CTL) 3 0 (v.bits 3 0)
  if changesLen lock c v d then d'.putFlag (cluReg c Reg.CLU_SKM_CTL) 4 (v.getLsbD 4) else d'

/-- The write of a cluster that is ON: its registers, the change of LEN_M to come, and the reset that it asks for. -/
theorem skmCtlWrite_on (lock : Bool) (c : Nat) (v : Word) (d : Dev) (hc : c < 16) (hon : d.cluOn c = true) :
    skmCtlWrite lock c v d =
      let d' := if changesLen lock c v d then
        (skmCtlRegs lock c v d).modClu c (fun x => { x with lens := x.lens ++ [(efAdd d.now 2, v.getLsbD 4)] })
        else skmCtlRegs lock c v d
      if v.getLsbD 8 || changesLen lock c v d then resetAt c (efAdd d.now 2) d' else d' := by
  have hf : (lockViol lock (cluReg c Reg.CLU_SKM_CTL) v d).frame = d.frame := by rw [lockViol_eq]
  unfold skmCtlWrite skmCtlRegs
  rw [if_neg (by simp [hc, hon])]
  dsimp only
  rw [← changesLen]
  cases changesLen lock c v d <;>
    simp only [if_true, Bool.false_eq_true, if_false, Dev.now, Dev.frame_modClu, Dev.frame_putFld, Dev.frame_putFlag, hf]

theorem resetAt_clu (c r : Nat) (d : Dev) (h : c < d.aud.clus.length) : r ∈ ((resetAt c r d).clu c).resets := by
  rw [resetAt, Dev.clu_modClu_same d c _ h]
  dsimp only
  split
  next hr => simpa using hr
  next => simp

@[simp] theorem resetAt_reg (c r a : Nat) (d : Dev) : (resetAt c r d).reg a = d.reg a := rfl

theorem skmCtlRegs_aud (lock : Bool) (c : Nat) (v : Word) (d : Dev) : (skmCtlRegs lock c v d).aud = d.aud := by
  unfold skmCtlRegs; dsimp only; rw [lockViol_eq]; split <;> rfl

/-- A register reads after the write as the register part of it leaves it. -/
theorem skmCtlWrite_reg (lock : Bool) (c a : Nat) (v : Word) (d : Dev) (hc : c < 16) (hon : d.cluOn c = true) :
    (skmCtlWrite lock c v d).reg a = (skmCtlRegs lock c v d).reg a := by
  rw [skmCtlWrite_on lock c v d hc hon]; dsimp only
  split <;> split <;> rfl

theorem skmCtlRegs_fields (lock : Bool) (c : Nat) (v : Word) (d : Dev) :
    (skmCtlRegs lock c v d).fld (cluReg c Reg.CLU_SKM_CTL) 3 0 = v.bits 3 0 ∧
    (skmCtlRegs lock c v d).flag (cluReg c Reg.CLU_SKM_CTL) 4 =
      (if lock then d.flag (cluReg c Reg.CLU_SKM_CTL) 4 else v.getLsbD 4) := by
  have hne := cluReg_ne_glbLock c Reg.CLU_SKM_CTL (by decide)
  have hlt : v.bits 3 0 % 16 = v.bits 3 0 := Nat.mod_eq_of_lt (Word.bits_lt v 3 0)
  have h4 (w : Word) : (w.setBits 3 0 (v.bits 3 0)).getLsbD 4 = w.getLsbD 4 := by
    rw [Word.getLsbD_setBits _ _ _ _ _ (by decide) (by decide), if_neg (by decide)]
  unfold skmCtlRegs; dsimp only
  split
  next hl =>
    obtain ⟨hlock, -⟩ := (changesLen_eq_true ..).mp hl
    rw [if_neg (by simp [hlock])]
    refine ⟨?_, Dev.flag_putFlag_same _ _ _ _ (by decide)⟩
    rw [Dev.putFlag, Dev.fld_putFld_other _ _ _ _ _ _ _ _ (by decide) (by decide) (.inr (.inl (by decide))),
      Dev.fld_putFld_same _ _ _ _ _ (by decide) (by decide)]
    exact hlt
  next hl =>
    refine ⟨(Dev.fld_putFld_same _ _ _ _ _ (by decide) (by decide)).trans hlt, ?_⟩
    rw [Dev.flag, Dev.reg_putFld, h4, lockViol_reg_ne _ _ _ _ _ hne]
    cases lock with
    | true => rfl
    | false =>
      have : ¬ v.getLsbD 4 ≠ d.flag (cluReg c Reg.CLU_SKM_CTL) 4 := fun h => hl ((changesLen_eq_true ..).mpr ⟨rfl, h⟩)
      exact (not_not.mp this).symm

theorem skmCtlWrite_resets (lock : Bool) (c : Nat) (v : Word) (d : Dev) (hc : c < 16) (hon : d.cluOn c = true)
    (hl : c < d.aud.clus.length) (h : v.getLsbD 8 = true ∨ changesLen lock c v d = true) :
    efAdd d.now 2 ∈ ((skmCtlWrite lock c v d).clu c).resets := by
  rw [skmCtlWrite_on lock c v d hc hon, if_pos (by simpa using h)]
  refine resetAt_clu c _ _ ?_
  split <;> simp [Dev.modClu, Dev.modAud, skmCtlRegs_aud, hl]

theorem skmCtlWrite_clu (lock : Bool) (c : Nat) (v : Word) (d : Dev) (hc : c < 16) (hon : d.cluOn c = true)
    (h8 : v.getLsbD 8 = false) (h4 : v.getLsbD 4 = d.flag (cluReg c Reg.CLU_SKM_CTL) 4) :
    (skmCtlWrite lock c v d).clu c = d.clu c := by
  have hl : changesLen lock c v d = false := by rw [changesLen, h4, bne_self_eq_false, Bool.and_false]
  rw [skmCtlWrite_on lock c v d hc hon, if_neg (by rw [h8, hl]; decide), if_neg (by rw [hl]; decide)]
  exact Dev.clu_of_aud (skmCtlRegs_aud lock c v d) c

/-! ### The reset at its release (R304, R305) -/

@[simp] theorem cluBump_reg_ne (c reg n a : Nat) (d : Dev) (h : a ≠ cluReg c reg) : (cluBump c reg n d).reg a = d.reg a := by
  unfold cluBump; split
  · rfl
  · exact Dev.reg_bumpBy_ne _ _ _ _ h

/-- The units' part of a synchronising reset, before its status and its count. -/
theorem skimReset_eq (c : Nat) (d : Dev) : ∃ f : Clu → Clu, (∀ x, (f x).valid = false ∧ (f x).fade = none ∧ (f x).zeroAt = some d.now ∧
      (f x).resets = x.resets.filter (fun r => !efReached d.now r)) ∧
    skimReset c d = (cluIrq c Reg.CLU_SKM_IRQ_STAT 0 (cluBump c Reg.CLU_CNT_SKM_RESET 1
      (forUpTo 16 (fun t d => d.modTile (16 * c + t) skimTileClear) (d.modClu c f)))).emit 23 1 :=
  ⟨_, fun _ => ⟨rfl, rfl, rfl, rfl⟩, rfl⟩

theorem clusterReset_aud (c : Nat) (d : Dev) : (clusterReset c d).aud = (skimReset c d).aud := by simp [clusterReset]

theorem clusterReset_clu (c : Nat) (d : Dev) (h : c < d.aud.clus.length) :
    ((clusterReset c d).clu c).valid = false ∧ ((clusterReset c d).clu c).fade = none ∧
    ((clusterReset c d).clu c).zeroAt = some d.now ∧
    ((clusterReset c d).clu c).resets = (d.clu c).resets.filter (fun r => !efReached d.now r) := by
  obtain ⟨f, hf, e⟩ := skimReset_eq c d
  have hclu : (clusterReset c d).clu c = f (d.clu c) := by
    rw [Dev.clu_of_aud (clusterReset_aud c d), e, ← Dev.clu_modClu_same d c f h,
      ← Dev.clu_forUpTo_modTile (d.modClu c f) (16 * c) 16 c skimTileClear]
    exact Dev.clu_of_aud (by simp) c
  rw [hclu]; exact hf _

theorem clusterReset_tile (c t : Nat) (d : Dev) (hl : d.aud.tiles.length = 256) (hc : c < 16) (ht : t < 16) :
    (clusterReset c d).tile (16 * c + t) = skimTileClear (d.tile (16 * c + t)) := by
  obtain ⟨f, -, e⟩ := skimReset_eq c d
  have hrun := Dev.tile_forUpTo_modTile (d.modClu c f) (16 * c) 16 (16 * c + t) skimTileClear (by
    have : (d.modClu c f).aud.tiles.length = d.aud.tiles.length := rfl
    omega)
  rw [if_pos (by omega)] at hrun
  rw [Dev.tile_of_aud (clusterReset_aud c d), e, ← Dev.tile_modClu d c (16 * c + t) f, ← hrun]
  exact Dev.tile_of_aud (by simp) _

theorem clusterReset_count (c : Nat) (d : Dev) : (clusterReset c d).fld (cluReg c Reg.CLU_CNT_SKM_RESET) 31 0 =
    min (d.fld (cluReg c Reg.CLU_CNT_SKM_RESET) 31 0 + 1) (2 ^ 32 - 1) := by
  obtain ⟨f, -, e⟩ := skimReset_eq c d
  have hregs : (clusterReset c d).regs = (skimReset c d).regs := by simp [clusterReset]
  have hne : cluReg c Reg.CLU_CNT_SKM_RESET ≠ cluReg c Reg.CLU_SKM_IRQ_STAT := by simp
  have hreg : (clusterReset c d).reg (cluReg c Reg.CLU_CNT_SKM_RESET) = (cluBump c Reg.CLU_CNT_SKM_RESET 1
      (forUpTo 16 (fun t d => d.modTile (16 * c + t) skimTileClear) (d.modClu c f))).reg (cluReg c Reg.CLU_CNT_SKM_RESET) := by
    rw [Dev.reg, hregs, e]
    exact Dev.reg_setIrq_ne _ _ _ _ _ hne
  rw [Dev.fld, hreg, ← Dev.fld]
  refine (Dev.fld_bumpFld _ _ 31 0 1 (by decide) (by decide)).trans ?_
  rw [Dev.fld, Dev.reg_forUpTo_modTile, Dev.reg_modClu]; rfl

theorem zeroPeriod_of_zeroAt_now (c : Nat) (d : Dev) (h : (d.clu c).zeroAt = some d.now) : zeroPeriod d c = true := by
  simp [zeroPeriod, h]

/-- Settles O26: the register write, the reset at its release, and VALID 12 EF later. -/
theorem skimmerResetsClearTheFilters : Obligations.SkimmerResetsClearTheFilters := by
  refine ⟨fun s c v hc hl hon hturn => ?write, fun s c r hc hl ht hon hrun hmem hdue => ?reset, fun s c hr => ?noReset,
    fun s c hc hv hz hp => ?valid, fun s c hp => ?notYet⟩
  case write =>
    refine ⟨skmCtlWrite s.prot.lock c v s.dev, by simp [exec, execSkimmerReset, hostNext, State.asHost, State.onDev, hturn], ?_⟩
    have hreg := skmCtlWrite_reg s.prot.lock c (cluReg c Reg.CLU_SKM_CTL) v s.dev hc hon
    obtain ⟨hfade, hlen⟩ := skmCtlRegs_fields s.prot.lock c v s.dev
    refine ⟨?_, ?_, fun h => ?_, skmCtlWrite_clu _ c v s.dev hc hon, by simp, by simp⟩
    · rw [Dev.fld, hreg]; exact hfade
    · rw [Dev.flag, hreg]; exact hlen
    · exact skmCtlWrite_resets _ c v s.dev hc hon hl (h.imp_right (changesLen_eq_true ..).mpr)
  case reset =>
    have hany : (s.dev.clu c).resets.any (fun r => efReached s.dev.now r) = true := List.any_eq_true.mpr ⟨r, hmem, hdue⟩
    have e : synchronisingResetDev c s.dev = clusterReset c s.dev := if_pos (by simp [hc, hon, hrun, hany])
    refine ⟨clusterReset c s.dev, by rw [← e]; rfl, ?_⟩
    obtain ⟨hvalid, hfade, hzero, hresets⟩ := clusterReset_clu c s.dev (by omega)
    have hnow : (clusterReset c s.dev).now = s.dev.now := by simp [Dev.now]
    refine ⟨hvalid, hfade, zeroPeriod_of_zeroAt_now c _ (by rw [hzero, hnow]), ?_, fun t h16 => ?_, clusterReset_count c s.dev,
      by simp, by simp, by simp⟩
    · rw [hresets]; simp
    · rw [clusterReset_tile c t s.dev ht hc h16]; exact ⟨rfl, rfl, rfl⟩
  case noReset => simp [exec, execSynchronisingReset, devNext, State.onDev, synchronisingResetDev, hr]
  case valid => simp [exec, execSkimmerValid, devNext, State.onDev, skimmerValidDev, hc, hv, hz, hp]
  case notYet => simp [exec, execSkimmerValid, devNext, State.onDev, skimmerValidDev, hp]

end Sys2Proof.Machine
end

section
/-! PROOF. The statement on the reference and the engine's start fails: RUN reached after a fallback is logged (R503, R514), and
the log lies in management RAM. -/

namespace Sys2Proof.Machine

open Sys2Proof

/-- A device in HELD after a fallback, every domain ON and the management firmware running. -/
def heldAfterFallback : Dev :=
  { Dev.reset with
    regs := [(Reg.GLB_BOOT_STAT, BitVec.ofNat 32 (Stage.held + 2 ^ 5))]
    pwr := { Dev.reset.pwr with doms := List.replicate 64 { Domain.reset .off with state := .on } }
    mgt := { Dev.reset.mgt with mode := 2 } }

theorem heldAfterFallback_fields : heldAfterFallback.isOn Dom.hostp = true ∧ heldAfterFallback.stage = Stage.held ∧
    heldAfterFallback.engEn = false ∧ hostTurn heldAfterFallback = true := by
  decide

theorem heldAfterFallback_logs :
    (engineEnableState 1 { State.reset with dev := heldAfterFallback }).dev.mem.mram.isEmpty = false := by
  decide

/-- Refutes O6: ENG_EN set in HELD takes the stage to RUN, and with FALLBACK = 1 the firmware then logs the restored preference
in its ring, so the memories are not as before (R503, R514). -/
theorem not_referenceAndEngineStartAndStop : ¬ Obligations.ReferenceAndEngineStartAndStop := by
  unfold Obligations.ReferenceAndEngineStartAndStop
  rintro ⟨-, -, -, hheld, -⟩
  obtain ⟨hon, hst, hen, hturn⟩ := heldAfterFallback_fields
  obtain ⟨t, ht, -, -, hmem⟩ := hheld { State.reset with dev := heldAfterFallback } 1 (by decide) hen hon hst
  have hrun : t = engineEnableState 1 { State.reset with dev := heldAfterFallback } :=
    (Host.Outcome.next.inj ht).symm.trans (if_pos hturn)
  have hlog := heldAfterFallback_logs
  rw [← hrun, hmem] at hlog
  exact absurd hlog (by decide)

end Sys2Proof.Machine
end

section
/-! SUPPORT. Little-endian bytes: their number, their values, and the bytes of a word. -/

namespace Sys2Proof.Machine

open Sys2Proof

@[simp] theorem leBytes_length (n v : Nat) : (leBytes n v).length = n := by
  induction n generalizing v with
  | zero => rfl
  | succ n ih => simp [leBytes, ih]

/-- Byte k of a number's little-endian bytes. -/
theorem leBytes_getD (n v k : Nat) (h : k < n) : (leBytes n v).getD k 0 = BitVec.ofNat 8 (v / 256 ^ k) := by
  induction n generalizing v k with
  | zero => exact absurd h (Nat.not_lt_zero k)
  | succ n ih =>
    cases k with
    | zero => simp [leBytes]
    | succ k =>
      rw [leBytes, List.getD_cons_succ, ih _ _ (by omega), Nat.div_div_eq_div_mul, Nat.pow_succ']

/-- A number below the bytes' bound is what they say. -/
theorem leNat_leBytes (n v : Nat) (h : v < 256 ^ n) : leNat (leBytes n v) = v := by
  induction n generalizing v with
  | zero => simp [leBytes, leNat] at *; omega
  | succ n ih =>
    rw [leBytes, leNat, ih _ (by rw [Nat.pow_succ] at h; omega), BitVec.toNat_ofNat]
    omega

theorem leNat_div (l : List Byte) (k : Nat) : BitVec.ofNat 8 (leNat l / 256 ^ k) = l.getD k 0 := by
  induction l generalizing k with
  | nil => simp [leNat]
  | cons b r ih =>
    have hb := b.isLt
    cases k with
    | zero =>
      apply BitVec.eq_of_toNat_eq
      rw [leNat, Nat.pow_zero, Nat.div_one, BitVec.toNat_ofNat, List.getD_cons_zero]
      omega
    | succ k =>
      rw [List.getD_cons_succ, ← ih, leNat, Nat.pow_succ', ← Nat.div_div_eq_div_mul]
      congr 2
      omega

/-- Byte k of a word that a number gives. -/
theorem byte_ofNat (v k : Nat) (h : k < 4) : Word.byte (BitVec.ofNat 32 v) k = BitVec.ofNat 8 (v / 256 ^ k) := by
  apply BitVec.eq_of_toNat_eq
  rw [Word.byte, BitVec.extractLsb'_toNat, BitVec.toNat_ofNat, BitVec.toNat_ofNat, Nat.shiftRight_eq_div_pow]
  interval_cases k <;> simp <;> omega

/-- The word of four little-endian bytes has those bytes. -/
theorem byte_ofNat_leNat (l : List Byte) (k : Nat) (h : k < 4) : Word.byte (BitVec.ofNat 32 (leNat l)) k = l.getD k 0 := by
  rw [byte_ofNat _ _ h, leNat_div]

/-- The bytes of a word's value are its bytes. -/
theorem leBytes_toNat_getD (w : Word) (k : Nat) (h : k < 4) : (leBytes 4 w.toNat).getD k 0 = Word.byte w k := by
  rw [leBytes_getD _ _ _ h, ← byte_ofNat _ _ h, BitVec.ofNat_toNat, BitVec.setWidth_eq]

theorem sfBytes_length (b : List Byte) (a n : Nat) : (sfBytes b a n).length = n := by
  simp [sfBytes]

theorem sfBytes_getD (b : List Byte) (a n k : Nat) (h : k < n) : (sfBytes b a n).getD k 0 = b.getD (a + k) 0 := by
  unfold sfBytes
  simp only [List.getD_eq_getElem?_getD]
  by_cases hk : k < ((b.drop a).take n).length
  · rw [List.getElem?_append_left hk, List.getElem?_take_of_lt h, List.getElem?_drop]
  · rw [List.getElem?_append_right (by omega), List.getElem?_replicate, if_pos (by simp at hk ⊢; omega),
      List.getElem?_eq_none (by simp at hk; omega)]
    rfl

/-! ### Runs of bytes in a store -/

@[simp] theorem cellBytes_length {α : Type} (dflt : Nat → α) (m : List (Nat × α)) (a n : Nat) : (cellBytes dflt m a n).length = n := by
  simp [cellBytes]

theorem cellBytes_congr {α : Type} (dflt : Nat → α) (m m' : List (Nat × α)) (a n : Nat)
    (h : ∀ b, a ≤ b → b < a + n → cellGet dflt m b = cellGet dflt m' b) : cellBytes dflt m a n = cellBytes dflt m' a n := by
  unfold cellBytes
  refine List.map_congr_left fun k hk => h _ (by omega) ?_
  simp at hk; omega

/-- A run of bytes reads as it was written. -/
theorem cellBytes_cellPutBytes_same {α : Type} [DecidableEq α] (dflt : Nat → α) (m : List (Nat × α)) (a : Nat) (bs : List α) :
    cellBytes dflt (cellPutBytes dflt m a bs) a bs.length = bs := by
  apply List.ext_getElem (by simp)
  intro k h1 h2
  simp only [cellBytes, List.getElem_map, List.getElem_range]
  rw [cellGet_cellPutBytes, if_pos (by omega), Nat.add_sub_cancel_left, List.getD_eq_getElem _ _ h2]

/-- A run that does not meet the bytes written reads as before. -/
theorem cellBytes_cellPutBytes_other {α : Type} [DecidableEq α] (dflt : Nat → α) (m : List (Nat × α)) (a b n : Nat) (bs : List α)
    (h : b + n ≤ a ∨ a + bs.length ≤ b) : cellBytes dflt (cellPutBytes dflt m a bs) b n = cellBytes dflt m b n :=
  cellBytes_congr _ _ _ _ _ fun x h1 h2 => by rw [cellGet_cellPutBytes, if_neg (by omega)]

end Sys2Proof.Machine
end

section
/-! PROOF. The mailbox: requests posted and answered, and the commands that read or note something (R505 to R510). -/

namespace Sys2Proof.Machine

open Sys2Proof

/-! ### A posted request (R508, R509) -/

/-- The bytes of a request. -/
def requestOf (cmd tag : Nat) (p : List Byte) : List Byte := leBytes 1 cmd ++ leBytes 1 tag ++ leBytes 2 p.length ++ p

/-- The bytes of an answer. -/
def answerOf (cmd tag st : Nat) (data : List Byte) : List Byte :=
  leBytes 1 cmd ++ leBytes 1 tag ++ leBytes 1 st ++ leBytes 1 data.length ++ data

/-- A request waits for its command, in a stage that reads no record afresh. -/
def Posted (s : State) (cmd tag : Nat) (p : List Byte) : Prop :=
  mailboxOpen s.dev = true ∧ s.dev.mgt.busy = true ∧ s.dev.mgt.response = none ∧ s.dev.mgt.request = requestOf cmd tag p ∧
    p.length ≤ 60 ∧ tag < 256 ∧ s.dev.stage ≠ Stage.romWait

/-- The answer to the waiting request. -/
def answered (r : List Byte) (s : State) : State := modMgt (fun m => { m with response := some r }) s

theorem requestOf_bytes (cmd tag : Nat) (p : List Byte) : byteAt (requestOf cmd tag p) 0 = cmd % 256 ∧
    byteAt (requestOf cmd tag p) 1 = tag % 256 ∧ halfAt (requestOf cmd tag p) 2 = p.length % 65536 ∧
    (requestOf cmd tag p).drop 4 = p ∧ (requestOf cmd tag p).length = 4 + p.length := by
  refine ⟨?_, ?_, ?_, ?_, ?_⟩ <;> simp [requestOf, leBytes, byteAt, halfAt] <;> omega

theorem responseBytes_requestOf (cmd tag st : Nat) (p data : List Byte) (hc : cmd < 256) (ht : tag < 256) :
    responseBytes (requestOf cmd tag p) st data = answerOf cmd tag st data := by
  obtain ⟨h0, h1, -⟩ := requestOf_bytes cmd tag p
  rw [responseBytes, h0, h1, Nat.mod_eq_of_lt hc, Nat.mod_eq_of_lt ht, answerOf]

/-- A command of the mailbox served on its own posted request (R509, R510). -/
theorem mailboxRow_posted (cmd tag : Nat) (p : List Byte) (f : List Byte → State → Reply) (s : State) (h : Posted s cmd tag p)
    (hc : cmd < 256) (hrom : romStage s.dev = false ∨ romCommands.contains cmd = true) (hl : leastParams cmd ≤ p.length) :
    mailboxRow cmd f s =
      modMgt (fun m => { m with response := some (responseBytes m.request (f p s).status (f p s).data) }) (f p s).st := by
  obtain ⟨hopen, hbusy, hnone, hreq, hlen, -, hst⟩ := h
  obtain ⟨h0, -, h2, h4, hrl⟩ := requestOf_bytes cmd tag p
  rw [Nat.mod_eq_of_lt hc] at h0
  rw [Nat.mod_eq_of_lt (by omega)] at h2
  have hserved : served cmd (Caller.mail true) s.dev.mgt.request f s = f p s := by
    unfold served
    dsimp only
    rw [hreq, h2, h4, hrl, if_neg, if_neg, List.take_length, freshBases, if_neg hst]
    · simp only [Caller.mail]; omega
    · rcases hrom with h | h <;> simp only [h] <;> simp
  unfold mailboxRow
  dsimp only
  rw [hserved]
  exact if_pos (by rw [hopen, hbusy, hnone, hreq, h0]; simp)

/-- A command that changes nothing but its answer. -/
theorem mailboxRow_reads (cmd tag st : Nat) (p data : List Byte) (f : List Byte → State → Reply) (s : State) (h : Posted s cmd tag p)
    (hc : cmd < 256) (hrom : romStage s.dev = false ∨ romCommands.contains cmd = true) (hl : leastParams cmd ≤ p.length)
    (hf : f p s = { st := s, status := st, data := data }) : mailboxRow cmd f s = answered (answerOf cmd tag st data) s := by
  obtain ⟨-, -, -, hreq, -, ht, -⟩ := id h
  rw [mailboxRow_posted cmd tag p f s h hc hrom hl, hf, answered, ← responseBytes_requestOf cmd tag st p data hc ht, ← hreq]
  rfl

theorem mailboxRow_idle (cmd : Nat) (f : List Byte → State → Reply) (s : State) (h : s.dev.mgt.busy = false) :
    mailboxRow cmd f s = s := by
  unfold mailboxRow; dsimp only; rw [if_neg (by simp [h])]

/-! ### GO (R509) -/

theorem exec_mailboxGo (s : State) (v : Word) (hon : s.dev.isOn Dom.hostp = true) (hmay : hostMayWrite s.dev Reg.MGT_MB_CTL = true)
    (hm : s.dev.isOn Dom.mgmt = true) : exec (.registerWrite Reg.MGT_MB_CTL v) s = .next (s.onDev (mailboxGo v)) := by
  have hreach : regReaches s.dev Reg.MGT_MB_CTL = true := by
    unfold regReaches; rw [show blockDom Reg.MGT_MB_CTL = Dom.mgmt by decide, hm]; decide
  have hw : regWrite false Reg.MGT_MB_CTL v 15 s = s.onDev (mailboxGo v) := by
    unfold regWrite; rw [hreach]; rfl
  show Host.Outcome.next (if _ then regWrite false Reg.MGT_MB_CTL v 15 s else s) = _
  rw [hon, hmay, hw]; rfl

theorem requestBytes_length (d : Dev) : (requestBytes d).length = 64 := by
  simp [requestBytes, List.length_flatMap]

/-- A byte of equally long pieces put one behind the other. -/
theorem flatMap_range_getD (f : Nat → List Byte) (w N n k : Nat) (hf : ∀ i, (f i).length = w) (hn : n < N) (hk : k < w) :
    ((List.range N).flatMap f).getD (w * n + k) 0 = (f n).getD k 0 := by
  induction N with
  | zero => exact absurd hn (Nat.not_lt_zero n)
  | succ N ih =>
    have hlen : ((List.range N).flatMap f).length = w * N := by simp [List.length_flatMap, hf, mul_comm]
    simp only [List.getD_eq_getElem?_getD] at ih ⊢
    rw [List.range_succ, List.flatMap_append, List.flatMap_singleton]
    by_cases e : n = N
    · subst e
      rw [List.getElem?_append_right (by omega), hlen, Nat.add_sub_cancel_left]
    · have hlt : w * n + w ≤ w * N := by
        rw [← Nat.mul_succ]; exact Nat.mul_le_mul_left w (by omega)
      rw [List.getElem?_append_left (by omega), ih (by omega)]

theorem requestBytes_at (d : Dev) (n k : Nat) (hn : n < 16) (hk : k < 4) :
    at_ (requestBytes d) (4 * n + k) 0 = Word.byte (d.reg (Reg.MGT_MBI n)) k :=
  (flatMap_range_getD _ 4 16 n k (fun _ => leBytes_length _ _) hn hk).trans (leBytes_toNat_getD _ _ hk)

/-! ### LOG_ADD (R505, R507) -/

/-! ### The answer in the response registers (R508, R509) -/

/-- A row of registers put one after the other. -/
theorem reg_forUpTo_putReg (a : Nat → Nat) (ha : Function.Injective a) (v : Nat → Word) (N : Nat) (d : Dev) :
    (∀ n, n < N → (forUpTo N (fun n d => d.putReg (a n) (v n)) d).reg (a n) = v n) ∧
    ∀ b, (∀ n, n < N → b ≠ a n) → (forUpTo N (fun n d => d.putReg (a n) (v n)) d).reg b = d.reg b := by
  induction N with
  | zero => exact ⟨fun n hn => absurd hn (Nat.not_lt_zero n), fun _ _ => rfl⟩
  | succ N ih =>
    obtain ⟨hin, hout⟩ := ih
    rw [forUpTo_succ]
    refine ⟨fun n hn => ?_, fun b hb => ?_⟩
    · by_cases e : n = N
      · subst e; exact Dev.reg_putReg_same _ _ _
      · rw [Dev.reg_putReg_ne _ _ _ _ (ha.ne e)]; exact hin n (by omega)
    · rw [Dev.reg_putReg_ne _ _ _ _ (hb N (by omega))]; exact hout b fun n hn => hb n (by omega)

/-- The response registers written. -/
def mboPut (r : List Byte) (d : Dev) : Dev :=
  forUpTo 16 (fun n d => d.putReg (Reg.MGT_MBO n) (BitVec.ofNat 32 (leNat (sfBytes r (4 * n) 4)))) d

theorem mailboxEnd_eq (r : List Byte) (d : Dev) : mailboxEnd r d =
    ({ mboPut r d with mgt := { (mboPut r d).mgt with busy := false, request := [], response := none } } : Dev).mgtIrq 0 := rfl

theorem forUpTo_putReg_units (a : Nat → Nat) (v : Nat → Word) (N : Nat) (d : Dev) :
    forUpTo N (fun n d => d.putReg (a n) (v n)) d = { d with regs := (forUpTo N (fun n d => d.putReg (a n) (v n)) d).regs } := by
  induction N with
  | zero => rfl
  | succ N ih =>
    rw [forUpTo_succ]
    generalize forUpTo N (fun n d => d.putReg (a n) (v n)) d = e at ih ⊢
    rw [ih]; rfl

theorem mboPut_units (r : List Byte) (d : Dev) : mboPut r d = { d with regs := (mboPut r d).regs } :=
  forUpTo_putReg_units Reg.MGT_MBO _ 16 d

theorem mboPut_reg (r : List Byte) (d : Dev) (n : Nat) (hn : n < 16) :
    (mboPut r d).reg (Reg.MGT_MBO n) = BitVec.ofNat 32 (leNat (sfBytes r (4 * n) 4)) :=
  (reg_forUpTo_putReg Reg.MGT_MBO (fun x y h => by unfold Reg.MGT_MBO at h; omega) _ 16 d).1 n hn

theorem mailboxEnd_byte (r : List Byte) (d : Dev) (n k : Nat) (hn : n < 16) (hk : k < 4) :
    Word.byte ((mailboxEnd r d).reg (Reg.MGT_MBO n)) k = at_ r (4 * n + k) 0 := by
  have hreg : (mailboxEnd r d).reg (Reg.MGT_MBO n) = (mboPut r d).reg (Reg.MGT_MBO n) := by
    rw [mailboxEnd_eq, Dev.mgtIrq, Dev.reg_setIrq_ne _ _ _ _ _ (by unfold Reg.MGT_MBO Reg.MGT_IRQ_STAT; omega)]
    rfl
  rw [hreg, mboPut_reg r d n hn, byte_ofNat_leNat _ _ hk, sfBytes_getD _ _ _ _ hk, at_]

/-- The end of a command: BUSY clears, MB_DONE sets, and no other unit changes. -/
theorem mailboxEnd_units (r : List Byte) (d : Dev) (h : d.isOn Dom.mgmt = true) :
    (mailboxEnd r d).mgt = { d.mgt with busy := false, request := [], response := none } ∧
    (mailboxEnd r d).flag Reg.MGT_IRQ_STAT 0 = true ∧
    mailboxEnd r d = { d with regs := (mailboxEnd r d).regs, mgt := (mailboxEnd r d).mgt } := by
  have hu := mboPut_units r d
  rw [mailboxEnd_eq, Dev.mgtIrq]
  generalize (mboPut r d).regs = w at hu
  rw [hu]
  refine ⟨?_, Dev.flag_setIrq _ _ _ _ (by decide) h, ?_⟩
  · unfold Dev.setIrq; split <;> rfl
  · unfold Dev.setIrq; split <;> rfl

/-! ### The event log (R503 to R507) -/

theorem logBytes_length (e : LogEv) : (logBytes e).length = 16 := by
  simp [logBytes, sfBytes_length]

/-- An entry enters the ring at HEAD; no other place of the memories changes (R503, R504). -/
theorem logStore_ring (e : LogEv) (d : Dev) : (logStore e d).mgt = { d.mgt with total := d.mgt.total + 1 } ∧
    (logStore e d).mem = { d.mem with mram := cellPutBytes zeroByte d.mem.mram (logRing + 16 * (d.mgt.total % 4096)) (logBytes e) } := by
  unfold logStore Dev.mgtIrq
  dsimp only
  repeat' split
  all_goals simp [Dev.mramRaw]

/-- An entry of severity 0 changes no register but MGT_IRQ_STAT. -/
theorem logStore_reg (e : LogEv) (a : Nat) (d : Dev) (hsev : e.sev = 0) (ha : a ≠ Reg.MGT_IRQ_STAT) :
    (logStore e d).reg a = d.reg a := by
  unfold logStore
  dsimp only
  rw [if_neg (by simp [hsev])]
  split
  · exact Dev.reg_setIrq_ne _ _ _ _ _ ha
  · rfl

/-- With no entry before it an entry goes to the ring itself. -/
theorem logFirst_none (d : Dev) (h1 : d.mgt.wdogLog = false) (h2 : d.mgt.lost = 0) : logFirst d = d := by
  simp [logFirst, h1, h2]

/-- What an entry of the firmware's leaves of the management unit and of the memories, wherever it goes (R503). -/
def OnlyLogged (d e : Dev) : Prop :=
  e.mgt.mirrored = d.mgt.mirrored ∧ e.mgt.request = d.mgt.request ∧ e.mem = { d.mem with mram := e.mem.mram }

theorem OnlyLogged.trans {a b c : Dev} (h : OnlyLogged a b) (g : OnlyLogged b c) : OnlyLogged a c := by
  obtain ⟨h1, h2, h3⟩ := h
  obtain ⟨g1, g2, g3⟩ := g
  exact ⟨g1.trans h1, g2.trans h2, by rw [g3, h3]⟩

theorem logStore_only (e : LogEv) (d : Dev) : OnlyLogged d (logStore e d) := by
  obtain ⟨h1, h2⟩ := logStore_ring e d
  rw [OnlyLogged, h1, h2]; exact ⟨rfl, rfl, rfl⟩

/-- The entry of a watchdog reset, if it is due, comes before any other (R498). -/
def watchdogFirst (d : Dev) : Dev :=
  if d.mgt.wdogLog then logStore (mgmtEv d 0x01 2 []) { d with mgt := { d.mgt with wdogLog := false } } else d

theorem logFirst_eq (d : Dev) : logFirst d = if 0 < (watchdogFirst d).mgt.lost then
    logStore (mgmtEv (watchdogFirst d) 0x02 1 (leBytes 4 (watchdogFirst d).mgt.lost))
      { watchdogFirst d with mgt := { (watchdogFirst d).mgt with lost := 0 } }
    else watchdogFirst d := rfl

theorem watchdogFirst_only (d : Dev) : OnlyLogged d (watchdogFirst d) := by
  unfold watchdogFirst
  split
  · exact logStore_only _ { d with mgt := { d.mgt with wdogLog := false } }
  · exact ⟨rfl, rfl, rfl⟩

theorem logFirst_only (d : Dev) : OnlyLogged d (logFirst d) := by
  rw [logFirst_eq]
  split
  · exact (watchdogFirst_only d).trans (logStore_only _ { watchdogFirst d with mgt := { (watchdogFirst d).mgt with lost := 0 } })
  · exact watchdogFirst_only d

theorem fwLog_only (source code sev : Nat) (data : List Byte) (d : Dev) : OnlyLogged d (fwLog source code sev data d) := by
  unfold fwLog fwPut
  repeat' split
  · exact ⟨rfl, rfl, rfl⟩
  · exact (logFirst_only d).trans (logStore_only _ _)
  · unfold Dev.logEv; dsimp only; split <;> exact ⟨rfl, rfl, rfl⟩

/-! ### The mirror (R506) -/

/-- What the mirror's writes leave: all but the flash and the mirror's own place. -/
def OnlyMirrored (s t : State) : Prop :=
  t.pending = s.pending ∧ t.prot = { s.prot with flash := t.prot.flash } ∧ t.dev.regs = s.dev.regs ∧ t.dev.mem = s.dev.mem ∧
    t.dev.mgt.total = s.dev.mgt.total ∧ t.dev.mgt.request = s.dev.mgt.request

theorem OnlyMirrored.refl (s : State) : OnlyMirrored s s := ⟨rfl, rfl, rfl, rfl, rfl, rfl⟩

theorem OnlyMirrored.trans {a b c : State} (h : OnlyMirrored a b) (g : OnlyMirrored b c) : OnlyMirrored a c := by
  obtain ⟨h1, h2, h3, h4, h5, h6⟩ := h
  obtain ⟨g1, g2, g3, g4, g5, g6⟩ := g
  exact ⟨g1.trans h1, by rw [g2, h2], g3.trans h3, g4.trans h4, g5.trans h5, g6.trans h6⟩

theorem putFlash_only (s : State) (fl : List Host.Cell) : OnlyMirrored s (s.putFlash fl) := by
  unfold State.putFlash; split <;> exact ⟨rfl, rfl, rfl, rfl, rfl, rfl⟩

@[simp] theorem putFlash_dev (s : State) (fl : List Host.Cell) : (s.putFlash fl).dev = s.dev := by
  unfold State.putFlash; split <;> rfl

/-- A change of the mirror's own place. -/
theorem modMgt_only (f : Mgmt → Mgmt) (s : State) (ht : (f s.dev.mgt).total = s.dev.mgt.total)
    (hr : (f s.dev.mgt).request = s.dev.mgt.request) : OnlyMirrored s (modMgt f s) :=
  ⟨rfl, rfl, rfl, rfl, ht, hr⟩

theorem mirrorResume_only (s : State) : OnlyMirrored s (mirrorResume s) ∧ (mirrorResume s).dev.mgt.mirrored = s.dev.mgt.mirrored := by
  unfold mirrorResume
  split
  · exact ⟨.refl s, rfl⟩
  · dsimp only
    split
    · exact ⟨modMgt_only _ s rfl rfl, rfl⟩
    · exact ⟨modMgt_only _ s rfl rfl, rfl⟩

theorem mirrorOpen_only (s : State) : OnlyMirrored s (mirrorOpen s) ∧ (mirrorOpen s).dev.mgt.mirrored = s.dev.mgt.mirrored := by
  unfold mirrorOpen; dsimp only; split
  · exact ⟨.refl s, rfl⟩
  · exact ⟨(putFlash_only s _).trans (modMgt_only _ _ rfl rfl), by simp [modMgt]⟩

/-- The first ring entry that still waits, or the one after the newest (R506). -/
def mirrorFrom (d : Dev) : Nat := max d.mgt.mirrored (d.mgt.total - 4096)

theorem mirrorOne_only (s : State) : OnlyMirrored s (mirrorOne s) ∧ (mirrorOne s).dev.mgt.mirrored = mirrorFrom s.dev + 1 := by
  obtain ⟨hk, hm⟩ := mirrorOpen_only s
  unfold mirrorOne
  dsimp only
  refine ⟨hk.trans ((putFlash_only _ _).trans (modMgt_only _ _ rfl rfl)), ?_⟩
  obtain ⟨-, -, -, -, htotal, -⟩ := hk
  show max (mirrorOpen s).dev.mgt.mirrored _ + 1 = _
  rw [hm, htotal, mirrorFrom]

theorem mirrorGroup_only (n : Nat) (s : State) : OnlyMirrored s (mirrorGroup n s) ∧
    mirrorFrom (mirrorGroup n s).dev = mirrorFrom s.dev + n := by
  unfold mirrorGroup
  induction n with
  | zero =>
    obtain ⟨hk, hm⟩ := mirrorResume_only s
    obtain ⟨-, -, -, -, htotal, -⟩ := id hk
    refine ⟨hk, ?_⟩
    show mirrorFrom (mirrorResume s).dev = _
    rw [mirrorFrom, hm, htotal]; rfl
  | succ n ih =>
    obtain ⟨hk, hfrom⟩ := ih
    rw [forUpTo_succ]
    obtain ⟨hk', hm⟩ := mirrorOne_only (forUpTo n (fun _ s => mirrorOne s) (mirrorResume s))
    refine ⟨hk.trans hk', ?_⟩
    obtain ⟨-, -, -, -, htotal, -⟩ := hk'
    rw [hfrom] at hm
    rw [mirrorFrom] at hfrom
    rw [mirrorFrom, hm, htotal]
    omega

/-- A group as long as the wait leaves nothing waiting. -/
theorem mirrorGroup_waiting (s : State) : mirrorWaiting (mirrorGroup (mirrorWaiting s.dev) s).dev = 0 := by
  obtain ⟨⟨-, -, -, -, htotal, -⟩, hfrom⟩ := mirrorGroup_only (mirrorWaiting s.dev) s
  generalize (mirrorGroup (mirrorWaiting s.dev) s).dev = e at htotal hfrom
  rw [mirrorFrom, mirrorFrom, mirrorWaiting, htotal] at hfrom
  rw [mirrorWaiting, htotal]
  omega

theorem flashSpoil_only (a n : Nat) (s : State) : OnlyLogged s.dev (flashSpoil a n s).dev ∧
    (flashSpoil a n s).prot = { s.prot with flash := (flashSpoil a n s).prot.flash } := by
  obtain ⟨-, hprot, -⟩ := putFlash_only s (cellPutBytes flashDflt s.prot.flash a
    ((List.range n).map (fun k => BitVec.ofNat 8 (Config.free (s.dev.fresh + k)))))
  unfold flashSpoil
  refine ⟨?_, hprot⟩
  rw [State.onDev_dev, putFlash_dev]
  exact ⟨rfl, rfl, rfl⟩

theorem mirrorFails_only (n : Nat) (s : State) : OnlyLogged s.dev (mirrorFails n s).dev ∧
    (mirrorFails n s).prot = { s.prot with flash := (mirrorFails n s).prot.flash } := by
  obtain ⟨⟨-, hprot, -, hmem, -, hreq⟩, hm⟩ := mirrorResume_only s
  have hresume : OnlyLogged s.dev (mirrorResume s).dev := ⟨hm, hreq, by rw [hmem]⟩
  exact ⟨(hresume.trans (flashSpoil_only _ _ _).1).trans (.trans ⟨rfl, rfl, rfl⟩ (fwLog_only _ _ _ _ _)),
    (flashSpoil_only _ _ _).2.trans (by rw [hprot]; rfl)⟩

/-! ### The commands (R505 to R510) -/

/-- LOG_ADD's entry (R505, R507). -/
def hostEntry (p : List Byte) (d : Dev) : LogEv := { mgmtEv d (byteAt p 0) 0 (p.drop 4) with source := 0x0D }

theorem Posted.firmwareUp {s : State} {cmd tag : Nat} {p : List Byte} (h : Posted s cmd tag p) (hr : romStage s.dev = false) :
    firmwareUp s.dev = true := by
  obtain ⟨hopen, -⟩ := h
  simpa [mailboxOpen, hr] using hopen

theorem logAddCmd_eq (p : List Byte) (s : State) (hup : Machine.firmwareUp s.dev = true) (hp : p.length = 12) :
    logAddCmd p s = endWith 0 (s.onDev (fwPut (hostEntry p s.dev))) := by
  have htake : (p.drop 4).take 8 = p.drop 4 := List.take_of_length_le (by simp [hp])
  rw [logAddCmd, htake]
  congr 1
  exact congrArg (fun d => { s with dev := d }) (if_pos hup)

/-- An entry of severity 0 with none before it: in the ring, or behind the entries that wait (R441, R503). -/
theorem fwPut_cases (e : LogEv) (d : Dev) (h1 : d.mgt.wdogLog = false) (h2 : d.mgt.lost = 0) :
    (logBlocked d = false → d.mgt.own = [] → fwPut e d = logStore e d) ∧
    (logBlocked d = true ∨ d.mgt.own ≠ [] → fwPut e d = { d with mgt := { d.mgt with own := d.mgt.own ++ [e] } }) := by
  unfold fwPut
  rw [logFirst_none d h1 h2]
  refine ⟨fun hb ho => if_neg (by simp [hb, ho]), fun h => if_pos ?_⟩
  simpa using h

theorem fwPut_keepsUnits (e : LogEv) (d : Dev) (h1 : d.mgt.wdogLog = false) (h2 : d.mgt.lost = 0) (hsev : e.sev = 0) :
    (fwPut e d).mgt.queue = d.mgt.queue ∧ (fwPut e d).mgt.request = d.mgt.request ∧
    ∀ a, a ∉ [Reg.MGT_IRQ_STAT] → (fwPut e d).reg a = d.reg a := by
  obtain ⟨hring, hwait⟩ := fwPut_cases e d h1 h2
  by_cases h : logBlocked d = true ∨ d.mgt.own ≠ []
  · rw [hwait h]; exact ⟨rfl, rfl, fun _ _ => rfl⟩
  · obtain ⟨hb, ho⟩ := not_or.mp h
    rw [hring (by simpa using hb) (by simpa using ho), (logStore_ring e d).1]
    exact ⟨rfl, rfl, fun a ha => logStore_reg e a d hsev (by simpa using ha)⟩

/-- The ring after an entry of severity 0 with none before it. -/
theorem logStore_bytes (e : LogEv) (d : Dev) :
    (logStore e d).mramBytes (logRing + 16 * (d.mgt.total % 4096)) 16 = logBytes e ∧
    ∀ a, a < logRing + 16 * (d.mgt.total % 4096) ∨ logRing + 16 * (d.mgt.total % 4096) + 16 ≤ a →
      (logStore e d).mramBytes a 1 = d.mramBytes a 1 := by
  unfold Dev.mramBytes
  rw [(logStore_ring e d).2]
  have hlen := logBytes_length e
  refine ⟨?_, fun a ha => cellBytes_cellPutBytes_other _ _ _ _ _ _ (by omega)⟩
  have hsame := cellBytes_cellPutBytes_same zeroByte d.mem.mram (logRing + 16 * (d.mgt.total % 4096)) (logBytes e)
  rwa [hlen] at hsame

/-- The parameters of NVM_READ (R509). -/
theorem nvmRead_params (a n : Nat) (ha : a < 2 ^ 32) (hn : n < 256) :
    param32 (leBytes 4 a ++ leBytes 1 n) 0 = a ∧ byteAt (leBytes 4 a ++ leBytes 1 n) 4 = n := by
  constructor
  · rw [param32, bodyNat, List.drop_zero, List.take_left' (leBytes_length 4 a), leNat_leBytes 4 a (by omega)]
  · rw [byteAt, List.getD_eq_getElem?_getD, List.getElem?_append_right (by simp)]
    simp [leBytes]; omega

theorem nvmReadCmd_eq (a n m : Nat) (s : State) (ha : a < 2 ^ 32) (hn : n < 256) (hm : m = if n = 0 then 56 else n) :
    nvmReadCmd (Caller.mail true) (leBytes 4 a ++ leBytes 1 n) s =
      if 56 < m ∨ flashSize < a + m then endWith 2 s else if s.dev.nvReach = false then endWith 7 s
      else { st := s, status := 0, data := flashBytes s.prot.flash a m } := by
  obtain ⟨h1, h2⟩ := nvmRead_params a n ha hn
  unfold nvmReadCmd
  rw [h1, h2, show countOf n 56 = m from hm.symm]
  by_cases h : 56 < m ∨ flashSize < a + m
  · rw [if_pos h]
    exact if_pos (h.imp_right .inr)
  · rw [if_neg h]
    refine (if_neg (by simp only [Caller.mail]; omega)).trans ?_
    cases s.dev.nvReach <;> rfl

/-- GO takes the request registers as they stand, or sets MB_IGN while BUSY (R509). -/
theorem mailboxGo_cases (v : Word) (d : Dev) (hm : d.isOn Dom.mgmt = true) :
    (v.getLsbD 0 = false → mailboxGo v d = d) ∧
    (v.getLsbD 0 = true → d.mgt.busy = true → mailboxGo v d = d.putFlag Reg.MGT_IRQ_STAT 1 true) ∧
    (v.getLsbD 0 = true → d.mgt.busy = false →
      mailboxGo v d = { d with mgt := { d.mgt with busy := true, request := requestBytes d, response := none } }) := by
  unfold mailboxGo
  refine ⟨fun h => if_pos (by rw [h]; rfl), fun h hb => ?_, fun h hb => ?_⟩
  · rw [if_neg (by rw [h]; decide), if_pos hb]; exact if_pos hm
  · rw [if_neg (by rw [h]; decide), if_neg (by rw [hb]; decide)]

/-- LOG_ADD answered: the entry is in the ring or waits, and the request is answered with status 00h. -/
theorem logAdd_row (tag : Nat) (p : List Byte) (s : State) (h : Posted s 0x02 tag p) (hp : p.length = 12)
    (hrom : romStage s.dev = false) (hw : s.dev.mgt.wdogLog = false) (hl : s.dev.mgt.lost = 0) :
    mailboxRow 0x02 logAddCmd s =
      answered (answerOf 0x02 tag 0 []) (s.onDev (fwPut (hostEntry p s.dev))) := by
  obtain ⟨-, -, -, hreq, -, ht, -⟩ := id h
  obtain ⟨-, hrq, -⟩ := fwPut_keepsUnits (hostEntry p s.dev) s.dev hw hl rfl
  rw [mailboxRow_posted 0x02 tag p logAddCmd s h (by decide) (.inl hrom) (by rw [hp]; decide),
    logAddCmd_eq p s (h.firmwareUp hrom) hp, answered, modMgt, modMgt, endWith, State.onDev, State.onDev, State.onDev, hrq, hreq,
    responseBytes_requestOf 0x02 tag 0 p [] (by decide) ht]

/-- LOG_SYNC answered, after what it did with the waiting entries. -/
theorem logSync_row (tag st : Nat) (data : List Byte) (ok : Bool) (s t : State) (h : Posted s 0x03 tag [])
    (hrom : romStage s.dev = false) (hf : logSyncCmd (Caller.mail ok) [] s = { st := t, status := st, data := data })
    (hrq : t.dev.mgt.request = s.dev.mgt.request) :
    exec (.logSync ok) s = .next (answered (answerOf 0x03 tag st data) t) := by
  obtain ⟨-, -, -, hreq, -, ht, -⟩ := id h
  show Host.Outcome.next (mailboxRow 0x03 (logSyncCmd (Caller.mail ok)) s) = _
  rw [mailboxRow_posted 0x03 tag [] _ s h (by decide) (.inl hrom) (by decide), hf, answered, modMgt, modMgt, State.onDev, State.onDev,
    hrq, hreq, responseBytes_requestOf 0x03 tag st [] data (by decide) ht]

theorem logSyncCmd_runs (s : State) (hm : mirrorRuns s.dev = true) :
    logSyncCmd (Caller.mail true) [] s =
      ⟨if mirrorWaiting s.dev = 0 then s else mirrorGroup (mirrorWaiting s.dev) s, 0, leBytes 4 (mirrorWaiting s.dev)⟩ := by
  have hreach : s.dev.nvReach = true := by
    unfold mirrorRuns at hm
    exact (Bool.and_eq_true_iff.mp hm).2
  unfold logSyncCmd
  rw [if_pos hm]
  exact if_pos (.inr (by rw [Caller.works, hreach]; rfl))

theorem logSyncCmd_fails (s : State) (hm : mirrorRuns s.dev = true) (h : 0 < mirrorWaiting s.dev) :
    logSyncCmd (Caller.mail false) [] s = ⟨mirrorFails (mirrorWaiting s.dev) s, 7, []⟩ := by
  unfold logSyncCmd
  rw [if_pos hm]
  exact if_neg (by simp [Caller.works, Caller.mail]; omega)

/-! ### MAILBOX_RESPONSE (R509) -/

theorem isOn_of_mailboxOpen (d : Dev) (h : mailboxOpen d = true) : d.isOn Dom.mgmt = true := by
  unfold mailboxOpen firmwareUp at h
  revert h
  cases d.isOn Dom.mgmt <;> simp

theorem mailboxResponseDev_idle (d : Dev) (hb : d.mgt.busy = false) (hf : sysexFwdLate d = d) : mailboxResponseDev d = d := by
  unfold mailboxResponseDev
  rw [hb, hf]
  exact ite_self _

theorem mailboxResponseDev_some (r : List Byte) (d : Dev) (ho : mailboxOpen d = true) (hb : d.mgt.busy = true)
    (hr : d.mgt.response = some r) : mailboxResponseDev d = mailboxEnd r d := by
  unfold mailboxResponseDev
  rw [ho, hb, hr]; rfl

theorem mailboxResponseDev_unknown (d : Dev) (ho : mailboxOpen d = true) (hb : d.mgt.busy = true) (hr : d.mgt.response = none)
    (hf : mailFwdOut d = false) (hu : allCommands.contains (byteAt d.mgt.request 0) = false) :
    mailboxResponseDev d = mailboxEnd (responseBytes d.mgt.request (if romStage d then 4 else 1) []) d := by
  unfold mailboxResponseDev
  rw [ho, hb, hr, hf, hu]; rfl

/-- Settles O51: a posted request's row is its command's reply with the answer beside it, so each clause is what its command does
to the state; LOG_SYNC goes by the place the mirror has reached. -/
theorem mailboxInformationCommands : Obligations.MailboxInformationCommands := by
  unfold Obligations.MailboxInformationCommands
  intro posted answer replies
  refine ⟨fun s v hon hmay hm => ?go, fun s tag hp => ?info, fun s tag p hp hlen hrom hw hl => ?logAdd, fun s tag hp hrom => ?logSync,
    fun s tag hp hr => ?idLatched, fun s tag hp hr => ?id, fun s tag a n m ha hn hp hm => ?read, fun s ok hb => ?idle,
    fun s hb hf => ?noAnswer, fun s r hopen hb hr => ?respond, fun s cmd tag p hp hc hun hfwd => ?unknown⟩
  case go =>
    obtain ⟨hoff, hbusy, hgo⟩ := mailboxGo_cases v s.dev hm
    refine ⟨fun h0 hb => ⟨_, exec_mailboxGo s v hon hmay hm, ?_⟩, fun h0 hb => ⟨_, exec_mailboxGo s v hon hmay hm, ?_⟩, fun h0 => ?_⟩
    · rw [hgo h0 hb]
      exact ⟨rfl, requestBytes_length _, fun n k hn hk => requestBytes_at _ n k hn hk⟩
    · rw [hbusy h0 hb]
      exact ⟨Dev.flag_putFlag_same _ _ _ _ (by decide), fun a ha => Dev.reg_putFlag_ne _ _ _ _ _ (by simpa using ha), rfl⟩
    · rw [exec_mailboxGo s v hon hmay hm, State.onDev, hoff h0]
  case info =>
    exact congrArg Host.Outcome.next (mailboxRow_reads 0x01 tag 0 [] _ getInfoCmd s hp (by decide) (.inr (by decide)) (by decide) rfl)
  case logAdd =>
    obtain ⟨hring, hwait⟩ := fwPut_cases (hostEntry p s.dev) s.dev hw hl
    obtain ⟨hq, -, hregs⟩ := fwPut_keepsUnits (hostEntry p s.dev) s.dev hw hl rfl
    refine ⟨_, congrArg Host.Outcome.next (logAdd_row tag p s hp hlen hrom hw hl), rfl, hq, hregs, ?_, hostEntry p s.dev,
      rfl, ?_, rfl, rfl, rfl, rfl, fun hb ho => ?_, fun h => ?_⟩
    · simp
    · cases p <;> rfl
    · obtain ⟨hb1, hb2⟩ := logStore_bytes (hostEntry p s.dev) s.dev
      rw [State.onDev, hring hb ho]
      exact ⟨congrArg Mgmt.total (logStore_ring _ _).1, hb1, hb2⟩
    · rw [State.onDev, hwait h]
      exact ⟨rfl, rfl⟩
  case logSync =>
    refine ⟨fun hm => ?_, fun hm h0 => ?_, fun ok hm => ?_⟩
    · have hsync : OnlyMirrored s (if mirrorWaiting s.dev = 0 then s else mirrorGroup (mirrorWaiting s.dev) s) ∧
          mirrorWaiting (if mirrorWaiting s.dev = 0 then s else mirrorGroup (mirrorWaiting s.dev) s).dev = 0 := by
        split
        next h0 => exact ⟨.refl s, h0⟩
        next => exact ⟨(mirrorGroup_only _ s).1, mirrorGroup_waiting s⟩
      obtain ⟨⟨hpend, hprot, hregs, hmem, htotal, hrq⟩, hwait⟩ := hsync
      exact ⟨_, logSync_row tag 0 _ true s _ hp hrom (logSyncCmd_runs s hm) hrq, hwait, htotal, rfl, hprot, hpend, hmem, hregs⟩
    · obtain ⟨⟨hmir, hrq, hmem⟩, hprot⟩ := mirrorFails_only (mirrorWaiting s.dev) s
      exact ⟨_, logSync_row tag 7 _ false s _ hp hrom (logSyncCmd_fails s hm h0) hrq, hmir, rfl, hprot, hmem⟩
    · refine logSync_row tag 0 _ ok s s hp hrom ?_ rfl
      simp [logSyncCmd, hm, leBytes]
  case idLatched =>
    exact congrArg Host.Outcome.next (mailboxRow_reads 0x20 tag 7 [] _ nvmIdCmd s hp (by decide) (.inr (by decide)) (by decide)
      (if_pos (by rw [hr]; rfl)))
  case id =>
    exact congrArg Host.Outcome.next (mailboxRow_reads 0x20 tag 0 [] _ nvmIdCmd s hp (by decide) (.inr (by decide)) (by decide)
      (if_neg (by rw [hr]; decide)))
  case read =>
    have hcmd := nvmReadCmd_eq a n m s ha hn hm
    have hrow (st : Nat) (data : List Byte) (hf : nvmReadCmd (Caller.mail true) (leBytes 4 a ++ leBytes 1 n) s = ⟨s, st, data⟩) :
        exec .nvmRead s = .next (answered (answerOf 0x21 tag st data) s) :=
      congrArg Host.Outcome.next (mailboxRow_reads 0x21 tag st _ data _ s hp (by decide) (.inr (by decide)) (by simp; decide) hf)
    refine ⟨fun h1 h2 hr => hrow _ _ ?_, fun h1 h2 hr => hrow _ _ ?_, fun h => hrow _ _ ?_⟩
    · rw [hcmd, if_neg (by omega), if_pos hr]; rfl
    · rw [hcmd, if_neg (by omega), if_neg (by rw [hr]; decide)]
    · rw [hcmd, if_pos h]; rfl
  case idle =>
    intro c hc
    simp only [List.mem_cons, List.not_mem_nil, or_false] at hc
    rcases hc with rfl | rfl | rfl | rfl | rfl | rfl | rfl | rfl | rfl | rfl | rfl | rfl | rfl | rfl <;>
      exact congrArg Host.Outcome.next (mailboxRow_idle _ _ s hb)
  case noAnswer =>
    have hlate : sysexFwdLate s.dev = s.dev := by rw [sysexFwdLate, hf]
    exact congrArg (fun d => Host.Outcome.next { s with dev := d }) (mailboxResponseDev_idle s.dev hb hlate)
  case respond =>
    have hon := isOn_of_mailboxOpen s.dev hopen
    obtain ⟨hmgt, hdone, hrest⟩ := mailboxEnd_units r s.dev hon
    refine ⟨_, rfl, ?_⟩
    rw [mailboxResponseDev_some r s.dev hopen hb hr]
    exact ⟨hmgt, fun n k hn hk => mailboxEnd_byte r s.dev n k hn hk, hdone, hrest⟩
  case unknown =>
    obtain ⟨hopen, hb, hnone, hreq, -, ht, -⟩ := hp
    obtain ⟨hmgt, -⟩ := mailboxEnd_units (responseBytes s.dev.mgt.request (if romStage s.dev then 4 else 1) []) s.dev
      (isOn_of_mailboxOpen s.dev hopen)
    have hbyte (k : Nat) (hk : k < 4) := mailboxEnd_byte (responseBytes s.dev.mgt.request (if romStage s.dev then 4 else 1) []) s.dev 0 k
      (by decide) hk
    have hcmd : byteAt s.dev.mgt.request 0 = cmd := by
      rw [hreq]; exact (requestOf_bytes cmd tag p).1.trans (Nat.mod_eq_of_lt hc)
    refine ⟨_, rfl, ?_⟩
    rw [mailboxResponseDev_unknown s.dev hopen hb hnone hfwd (by rw [hcmd]; simpa using hun)]
    have hresp (st : Nat) : responseBytes s.dev.mgt.request st [] = answerOf cmd tag st [] := by
      rw [hreq]; exact responseBytes_requestOf cmd tag st p [] hc ht
    rw [hresp] at hmgt hbyte ⊢
    refine ⟨congrArg Mgmt.busy hmgt, (hbyte 0 (by decide)).trans rfl, (hbyte 1 (by decide)).trans rfl, (hbyte 2 (by decide)).trans ?_⟩
    split <;> rfl

end Sys2Proof.Machine
end

section
/-! PROOF. The statement on the host port's halves fails: its clause on GLB_EF_LO asks only that HOSTP is ON, and a read of a GLB
register reaches it only while AON is ON (R14, R22). -/

namespace Sys2Proof.Machine

open Sys2Proof

/-- A device with HOSTP ON and every other domain OFF, AON among them. -/
def hostPortAlone : Dev :=
  { Dev.reset with pwr := { Dev.reset.pwr with
      doms := List.replicate 2 (Domain.reset .off) ++ Domain.reset .on :: List.replicate 27 (Domain.reset .off) } }

theorem hostPortAlone_on : hostPortAlone.isOn Dom.hostp = true ∧ busReaches hostPortAlone Reg.GLB_EF_LO = false := by decide

/-- A low-half read of an address that the bus does not reach leaves the snapshot as it was (R14, R408). -/
theorem lowRead_snap_unreached (a : Nat) (s : State) (h : busReaches s.dev a = false) :
    (lowRead a s).dev.port.snap = s.dev.port.snap := by
  unfold lowRead
  rw [h]; rfl

/-- Refutes O3: with AON not ON the low-half read of GLB_EF_LO keeps no snapshot, and the clause on that read does not ask for AON. -/
theorem not_hostPortHalvesMoveWords : ¬ Obligations.HostPortHalvesMoveWords := by
  unfold Obligations.HostPortHalvesMoveWords
  rintro ⟨⟨-, -, -, -, hef, -⟩, -⟩
  obtain ⟨hon, hreach⟩ := hostPortAlone_on
  obtain ⟨hread, -⟩ := hef { State.reset with dev := hostPortAlone } hon
  have hlow : exec (.hostLowHalfRead (Reg.GLB_EF_LO / 2)) { State.reset with dev := hostPortAlone } =
      .next (lowRead Reg.GLB_EF_LO { State.reset with dev := hostPortAlone }) := by
    show Host.Outcome.next (hostLowHalfReadState _ _) = _
    rw [hostLowHalfReadState, hon]; rfl
  have hsnap := lowRead_snap_unreached Reg.GLB_EF_LO { State.reset with dev := hostPortAlone } hreach
  rw [Host.Outcome.next.inj (hlow.symm.trans hread)] at hsnap
  exact Option.some_ne_none _ hsnap

end Sys2Proof.Machine
end

section
/-! PROOF. The statement on the slots and the end of start-up fails: RUN reached from the engine stage after a fallback is
logged (R503, R514), and the log lies in management RAM. -/

namespace Sys2Proof.Machine

open Sys2Proof

/-- A device in the engine stage after a fallback, its lists and OFF requests over, every domain ON and the management
firmware running. -/
def engineAfterFallback : Dev :=
  { Dev.reset with
    regs := [(Reg.GLB_BOOT_STAT, BitVec.ofNat 32 (Stage.engine + 2 ^ 5))]
    pwr := { Dev.reset.pwr with doms := List.replicate 64 { Domain.reset .off with state := .on } }
    mgt := { Dev.reset.mgt with mode := 2 } }

theorem engineAfterFallback_fields : engineAfterFallback.isOn Dom.mgmt = true ∧ engineAfterFallback.stage = Stage.engine := by
  decide

theorem engineAfterFallback_logs :
    (engineStageState { State.reset with dev := engineAfterFallback }).dev.mem.mram.isEmpty = false := by
  decide

/-- Refutes O10: with FALLBACK = 1 the end of step 7 also logs the restored preference in the firmware's ring, so the memories
are not as before (R503, R514). -/
theorem not_slotsAreTriedAndStartUpEnds : ¬ Obligations.SlotsAreTriedAndStartUpEnds := by
  unfold Obligations.SlotsAreTriedAndStartUpEnds
  rintro ⟨-, -, -, -, -, -, -, hend, -⟩
  obtain ⟨hon, hst⟩ := engineAfterFallback_fields
  obtain ⟨t, ht, hmem, -⟩ := hend { State.reset with dev := engineAfterFallback } rfl hon hst rfl rfl rfl
  have hlog := engineAfterFallback_logs
  rw [Host.Outcome.next.inj ht, hmem] at hlog
  exact absurd hlog (by decide)

end Sys2Proof.Machine
end

section
/-! PROOF. Register initialisation lists: the registers that rule R8 alone governs, the front entry and its turn, and the
words that lists put into the store's write queue (R8, R97, R98, R106, R413). -/

namespace Sys2Proof.Machine

open Sys2Proof

/-! ### Registers that their access codes alone govern (R8) -/

/-- What a register holds after a write with the lock clear: its RW and RWL fields take the value, W1C bits written 1 clear. -/
def writtenWord (r : RegRow) (old w : Word) : Word := Word.merge old w (r.rw ||| r.rwl) &&& ~~~(w &&& r.w1c)

/-- The addresses of blocks GLB, PWR, MGT, CAS, MEM and ALC that have no action of their own. -/
def plainAddr (a : Nat) : Prop :=
  (a < 0x1000 ∧ ¬(0x40 ≤ a ∧ a < 0x80) ∧ a ∉ [Reg.GLB_VID, Reg.GLB_LOCK, Reg.GLB_RESET, Reg.GLB_FRAME_CTL, Reg.GLB_BOOT_CTL]) ∨
  (0x1000 ≤ a ∧ a < 0x2000 ∧ a ∉ [Reg.PWR_REQ, Reg.PWR_PAD_RELEASE, Reg.AON_WAKE]) ∨
  (0x5000 ≤ a ∧ a < 0x6000 ∧ a ∉ [Reg.MGT_MB_CTL, Reg.MGT_FAULT]) ∨
  (0x6000 ≤ a ∧ a < 0x7100 ∧ a ≠ Reg.CAS_CTL) ∨ (0xC000 ≤ a ∧ a < 0xD000 ∧ a ≠ Reg.ALC_GLFO_RESTART)

/-- Such a register, with its row, in a block whose domain is ON. -/
def PlainReg (d : Dev) (a : Nat) (r : RegRow) : Prop := plainAddr a ∧ rowOf a = some r ∧ r.rc = 0 ∧ d.isOn (blockDom a) = true

theorem codedWrite_unlocked (a : Nat) (v : Word) (r : RegRow) (d : Dev) (h : rowOf a = some r) :
    codedWrite false a v d = d.putReg a (writtenWord r (d.reg a) v) := by
  simp [codedWrite, lockViol, h, writtenWord]

theorem plainAddr_lt (a : Nat) (h : plainAddr a) : a < 0xD000 := by
  unfold plainAddr at h; omega

theorem devWrite_plain (mgmt : Bool) (a : Nat) (v : Word) (be : BitVec 4) (d : Dev) (h : plainAddr a) :
    devWrite false mgmt a v be d = codedWrite false a v d := by
  unfold plainAddr at h
  simp only [List.mem_cons, List.not_mem_nil, or_false, not_or] at h
  unfold devWrite
  rcases h with ⟨h, hs, hv, -⟩ | ⟨h1, h2, hq, hp, hw⟩ | ⟨h1, h2, hm, hf⟩ | ⟨h1, h2, hc⟩ | ⟨h1, h2, hg⟩
  case inl => rw [if_neg hs, if_neg hv, if_pos h]
  all_goals rw [if_neg (by omega), if_neg (by unfold Reg.GLB_VID; omega), if_neg (by omega)]
  case inr.inl => rw [if_pos h2, if_neg hq, if_neg hp, if_neg hw]
  all_goals rw [if_neg (by omega), if_neg (by omega), if_neg (by omega)]
  case inr.inr.inl => rw [if_pos h2, if_neg hm, if_neg hf]
  all_goals rw [if_neg (by omega)]
  case inr.inr.inr.inl =>
    by_cases h7 : a < 0x7000
    · rw [if_pos h7, if_neg hc]
    · rw [if_neg h7, if_pos h2]
  case inr.inr.inr.inr =>
    rw [if_neg (by omega), if_neg (by omega), if_neg (by omega), if_neg (by omega), if_pos h2, if_neg hg]

theorem regWrite_plain (a : Nat) (v : Word) (r : RegRow) (s : State) (h : PlainReg s.dev a r) (hlock : s.prot.lock = false) :
    regWrite true a v 15 s = s.onDev (fun d => d.putReg a (writtenWord r (d.reg a) v)) := by
  obtain ⟨ha, hrow, -, hon⟩ := h
  have hreach : regReaches s.dev a = true := by simp [regReaches, hrow, hon]
  have hw : devWrite s.prot.lock true a v 15 = fun d => d.putReg a (writtenWord r (d.reg a) v) := by
    funext d; rw [hlock, devWrite_plain _ _ _ _ _ ha, codedWrite_unlocked _ _ _ _ hrow]
  unfold regWrite
  rw [hreach, ← hw]
  unfold plainAddr at ha
  simp only [List.mem_cons, List.not_mem_nil, or_false, not_or] at ha
  rw [if_neg (by decide), if_neg (by unfold Reg.GLB_LOCK at *; omega), if_neg (by unfold Reg.GLB_RESET at *; omega),
    if_neg (by unfold Reg.GLB_FRAME_CTL at *; omega), if_neg (by unfold Reg.GLB_BOOT_CTL at *; omega)]

theorem readEffect_plain (a : Nat) (r : RegRow) (d : Dev) (h : PlainReg d a r) : readEffect a d = d := by
  obtain ⟨ha, hrow, hrc, hon⟩ := h
  have hwin : isWinData a = false := by
    have := plainAddr_lt a ha
    simp [isWinData, Reg.WIN_DATA]; omega
  unfold plainAddr at ha
  have hnorm : cluNorm a = a := if_neg (by omega)
  unfold readEffect
  rw [hwin, hnorm, if_neg (by simp [hon, pstoreBase]; omega), if_neg (by decide), if_neg (by unfold Reg.ALM_DONE; omega),
    if_neg (by omega), if_neg (by omega),
    if_neg (by omega), if_neg (by omega), hrow]
  exact if_pos hrc

theorem mgmtWrite_plain (a : Nat) (v : Word) (r : RegRow) (s : State) (h : PlainReg s.dev a r) (hlock : s.prot.lock = false) :
    mgmtWrite a v s = some (s.onDev (fun d => d.putReg a (writtenWord r (d.reg a) v))) := by
  have := plainAddr_lt a h.1
  unfold mgmtWrite
  rw [if_pos (by unfold pstoreBase; omega), regWrite_plain a v r s h hlock]

theorem mgmtRead_plain (a : Nat) (r : RegRow) (s : State) (h : PlainReg s.dev a r) : (mgmtRead a s).2 = s := by
  show s.onDev (readEffect a) = s
  rw [State.onDev, readEffect_plain a r s.dev h]

theorem listRange_plain (a n : Nat) (h : a + 4 * n ≤ 0x20000) : listRange a n = true := by
  simp [listRange, h]

/-! ### The front entry and its turn (R97, R98) -/

/-- The front entry is e; behind the lists no streamed section waits for their end, and the next entry's OP is known. -/
def FrontEntry (d : Dev) (e : RegEntry) : Prop := (∃ x es r, d.boot.lists = (x, e :: es) :: r) ∧
  (d.boot.streams = [] ∨ listsRest d.boot.lists ≠ []) ∧
  ∀ y f fs q, listsRest d.boot.lists = (y, f :: fs) :: q → 1 ≤ f.op ∧ f.op ≤ 6

/-- The front entry taken off the lists. -/
def listAdvance (d : Dev) : Dev := d.modBoot (fun b => { b with lists := listsRest b.lists, polling := false, delaying := false })

theorem listFront_known (s : State) (h : ∀ y f fs q, s.dev.boot.lists = (y, f :: fs) :: q → 1 ≤ f.op ∧ f.op ≤ 6) : listFront s = s := by
  unfold listFront
  split
  next y f fs q hl => exact if_pos (h y f fs q hl)
  next => rfl

theorem streamFront_waits (s : State) (h : s.dev.boot.streams = [] ∨ s.dev.boot.lists ≠ []) : streamFront s = s := by
  unfold streamFront
  split
  next => rfl
  next x r hx =>
    have hl : s.dev.boot.lists ≠ [] := h.resolve_left (by rw [hx]; exact List.cons_ne_nil x r)
    have hmay : streamMay s.dev = false := by simp [streamMay, hl]
    exact if_pos (by rw [hmay]; rfl)

/-- The front entry completes, and the next one comes to the front. -/
theorem listNext_front (s : State) (e : RegEntry) (h : FrontEntry s.dev e) : listNext s = s.onDev listAdvance := by
  obtain ⟨-, hstream, hop⟩ := h
  unfold listNext
  rw [listFront_known _ hop]
  exact streamFront_waits _ hstream

theorem entryIs_front (d : Dev) (e : RegEntry) (arg : Option Nat) (h : FrontEntry d e) (hrun : listsRun d = true)
    (harg : arg = none ∨ arg = some e.arg) : entryIs d e.op arg e.addr e.value = true := by
  obtain ⟨⟨x, es, r, hl⟩, -⟩ := h
  unfold entryIs
  rw [hl]
  rcases harg with rfl | rfl <;> simp [hrun]

theorem listWrite_some (a : Nat) (v : Word) (s t : State) (e : RegEntry) (h : mgmtWrite a v s = some t) (hf : FrontEntry t.dev e) :
    listWrite a v s = t.onDev listAdvance := by
  unfold listWrite
  rw [h]
  exact listNext_front t e hf

/-- WRITE, SET and CLEAR of a plain register end with it written. -/
theorem listWrite_plain (a : Nat) (v : Word) (r : RegRow) (e : RegEntry) (s : State) (h : PlainReg s.dev a r)
    (hlock : s.prot.lock = false) (hf : FrontEntry s.dev e) :
    listWrite a v s = s.onDev (fun d => listAdvance (d.putReg a (writtenWord r (d.reg a) v))) :=
  listWrite_some a v s _ e (mgmtWrite_plain a v r s h hlock) hf

/-! ### FILL of registers -/

/-- The stage has reached LOAD, and a register store that leaves GLB_BOOT_STAT alone keeps it. -/
theorem stage_putReg_bootStat (d : Dev) (a : Nat) (w : Word) (h : a = Reg.GLB_BOOT_STAT → w = d.reg a) :
    (d.putReg a w).stage = d.stage := by
  by_cases e : a = Reg.GLB_BOOT_STAT
  · subst e; rw [Dev.stage, Dev.fld, Dev.reg_putReg_same, h rfl]; rfl
  · rw [Dev.stage, Dev.fld, Dev.reg_putReg_ne _ _ _ _ (Ne.symm e)]; rfl

theorem writtenWord_bootStat (r : RegRow) (old v : Word) (h : rowOf Reg.GLB_BOOT_STAT = some r) : writtenWord r old v = old := by
  have hr : r = ⟨0x80, 1, 4, 0, 0, 0, 0, 0⟩ := Option.some_injective _ (h.symm.trans (by decide))
  have hall (w : Word) : w &&& 4294967295#32 = w := BitVec.and_allOnes
  rw [hr]
  simp [writtenWord, Word.merge, hall]

/-- n registers from an address on written in turn. -/
def fillRegs (v : Word) : Nat → Nat → Dev → Dev
  | 0, _, d => d
  | n + 1, a, d => fillRegs v n (a + 4) (codedWrite false a v d)

theorem fillRegs_rest (v : Word) (n a : Nat) (d : Dev) : (fillRegs v n a d).boot = d.boot ∧ (fillRegs v n a d).mem = d.mem := by
  induction n generalizing a d with
  | zero => exact ⟨rfl, rfl⟩
  | succ n ih =>
    obtain ⟨hboot, hmem⟩ := ih (a + 4) (codedWrite false a v d)
    exact ⟨hboot.trans (by simp), hmem.trans (by simp)⟩

theorem fillRegs_reg (v : Word) (n a : Nat) (d : Dev) (h : ∀ k, k < n → ∃ r, rowOf (a + 4 * k) = some r) :
    (∀ k r, k < n → rowOf (a + 4 * k) = some r → (fillRegs v n a d).reg (a + 4 * k) = writtenWord r (d.reg (a + 4 * k)) v) ∧
    ∀ b, (∀ k, k < n → b ≠ a + 4 * k) → (fillRegs v n a d).reg b = d.reg b := by
  induction n generalizing a d with
  | zero => exact ⟨fun k r hk => absurd hk (Nat.not_lt_zero k), fun _ _ => rfl⟩
  | succ n ih =>
    obtain ⟨r0, hr0⟩ := h 0 (Nat.succ_pos n)
    rw [Nat.mul_zero, Nat.add_zero] at hr0
    have hstep (k : Nat) : a + 4 + 4 * k = a + 4 * (k + 1) := by omega
    obtain ⟨hin, hout⟩ := ih (a + 4) (codedWrite false a v d) (fun k hk => by rw [hstep]; exact h (k + 1) (by omega))
    rw [fillRegs]
    rw [codedWrite_unlocked a v r0 d hr0] at hin hout ⊢
    refine ⟨fun k r hk hr => ?_, fun b hb => ?_⟩
    · cases k with
      | zero =>
        simp only [Nat.mul_zero, Nat.add_zero] at hr ⊢
        rw [hout a (fun k _ => by omega), Dev.reg_putReg_same, Option.some_injective _ (hr0.symm.trans hr)]
      | succ k =>
        rw [← hstep] at hr ⊢
        rw [hin k r (by omega) hr, Dev.reg_putReg_ne _ _ _ _ (by omega)]
    · rw [hout b (fun k hk => by rw [hstep]; exact hb (k + 1) (by omega)), Dev.reg_putReg_ne _ _ _ _ (by simpa using hb 0 (by omega))]

theorem listFill_plain (v : Word) (n a : Nat) (s : State) (hst : Stage.load ≤ s.dev.stage) (hlock : s.prot.lock = false)
    (h : ∀ k, k < n → ∃ r, PlainReg s.dev (a + 4 * k) r) : listFill v n a s = (s.onDev (fillRegs v n a), 0) := by
  induction n generalizing a s with
  | zero => rfl
  | succ n ih =>
    obtain ⟨r, hr⟩ := h 0 (Nat.succ_pos n)
    rw [Nat.mul_zero, Nat.add_zero] at hr
    have hcoded := codedWrite_unlocked a v r s.dev hr.2.1
    have hwrite : mgmtWrite a v s = some (s.onDev (codedWrite false a v)) := by
      rw [mgmtWrite_plain a v r s hr hlock, State.onDev, State.onDev, hcoded]
    rw [listFill, if_neg (by omega), hwrite]
    have hpwr : (codedWrite false a v s.dev).pwr = s.dev.pwr := by rw [hcoded]; rfl
    refine ih (a + 4) (s.onDev (codedWrite false a v)) ?_ hlock fun k hk => ?_
    · rw [State.onDev_dev, hcoded, stage_putReg_bootStat]
      · exact hst
      · rintro rfl; exact writtenWord_bootStat r _ v hr.2.1
    · obtain ⟨r', hp, hrow, hrc, hon⟩ := h (k + 1) (by omega)
      rw [show a + 4 + 4 * k = a + 4 * (k + 1) by omega]
      exact ⟨r', hp, hrow, hrc, (Dev.isOn_of_pwr _ _ hpwr _).trans hon⟩

/-! ### Store words (R413) -/

/-- Word k of a run of store words from an address on, as the firmware queues it. -/
def storeWord (d : Dev) (a : Nat) (v : Word) (k : Nat) : HWrite := ⟨a + 4 * k - 0x100000, v, 15, d.now, true⟩

/-- n store words from an address on that lists may reach, with CTRL ON. -/
def StoreRun (d : Dev) (a n : Nat) : Prop := 0x100000 ≤ a ∧ a + 4 * n ≤ 0x200000 ∧ a % 4 = 0 ∧ d.isOn Dom.ctrl = true ∧
  ∀ k, k < n → psReserved (a + 4 * k - 0x100000) = false

/-- Words put behind those that the H write queue holds. -/
def queueWords (l : List HWrite) (d : Dev) : Dev := { d with port := { d.port with hq := d.port.hq ++ l } }

theorem queueWords_append (l m : List HWrite) (d : Dev) : queueWords m (queueWords l d) = queueWords (l ++ m) d := by
  simp [queueWords]

theorem queueWords_nil (d : Dev) : queueWords [] d = d := by simp [queueWords]

theorem StoreRun.first {d : Dev} {a n : Nat} (h : StoreRun d a (n + 1)) :
    (a - pstoreBase) / 4 * 4 = a - 0x100000 ∧ psReserved (a - 0x100000) = false := by
  obtain ⟨h1, -, h4, -, hres⟩ := h
  exact ⟨by unfold pstoreBase; omega, hres 0 (Nat.succ_pos n)⟩

theorem mgmtWrite_store (a n : Nat) (v : Word) (s : State) (h : StoreRun s.dev a (n + 1)) :
    mgmtWrite a v s = if s.dev.hqMgmt < 42 ∧ s.dev.port.hq.length < 256 then some (s.onDev (queueWords [storeWord s.dev a v 0]))
      else none := by
  obtain ⟨haddr, hres⟩ := h.first
  obtain ⟨h1, -, -, hon, -⟩ := h
  unfold mgmtWrite
  rw [if_neg (by unfold pstoreBase; omega), if_pos hon, haddr]
  unfold mgmtPostH postH
  rw [hres]
  split <;> rfl

theorem queueWords_counts (d : Dev) (w : HWrite) (h : w.mgmt = true) : (queueWords [w] d).hqMgmt = d.hqMgmt + 1 ∧
    (queueWords [w] d).port.hq.length = d.port.hq.length + 1 := by
  simp [queueWords, Dev.hqMgmt, h]

theorem StoreRun.rest {d : Dev} {a n : Nat} (l : List HWrite) (h : StoreRun d a (n + 1)) : StoreRun (queueWords l d) (a + 4) n := by
  obtain ⟨h1, h2, h4, hon, hres⟩ := h
  refine ⟨by omega, by omega, by omega, hon, fun k hk => ?_⟩
  rw [show a + 4 + 4 * k = a + 4 * (k + 1) by omega]
  exact hres (k + 1) (by omega)

theorem storeWord_rest (d : Dev) (a : Nat) (v : Word) (k : Nat) (l : List HWrite) :
    storeWord (queueWords l d) (a + 4) v k = storeWord d a v (k + 1) := by
  have h : a + 4 + 4 * k = a + 4 * (k + 1) := by omega
  unfold storeWord
  rw [h]; rfl

theorem listFill_store (v : Word) (n a : Nat) (s : State) (hst : Stage.load ≤ s.dev.stage) (h : StoreRun s.dev a n)
    (hm : s.dev.hqMgmt + n ≤ 42) (hq : s.dev.port.hq.length + n ≤ 256) :
    listFill v n a s = (s.onDev (queueWords ((List.range n).map (storeWord s.dev a v))), 0) := by
  induction n generalizing a s with
  | zero => rw [listFill, List.range_zero, List.map_nil, State.onDev, queueWords_nil]
  | succ n ih =>
    obtain ⟨hm1, hq1⟩ := queueWords_counts s.dev (storeWord s.dev a v 0) rfl
    rw [listFill, if_neg (by omega), mgmtWrite_store a n v s h, if_pos (by omega)]
    refine (ih (a + 4) (s.onDev (queueWords [storeWord s.dev a v 0])) hst (h.rest _) ?_ ?_).trans ?_
    · rw [State.onDev_dev, hm1]; omega
    · rw [State.onDev_dev, hq1]; omega
    · have hwords : [storeWord s.dev a v 0] ++ (List.range n).map (storeWord (queueWords [storeWord s.dev a v 0] s.dev) (a + 4) v) =
          (List.range (n + 1)).map (storeWord s.dev a v) := by
        rw [List.range_succ_eq_map, List.map_cons, List.map_map, List.singleton_append]
        exact congrArg _ (List.map_congr_left fun k _ => storeWord_rest s.dev a v k _)
      rw [State.onDev_dev, State.onDev, State.onDev, State.onDev, queueWords_append, hwords]

theorem listRange_store (a n : Nat) (h1 : 0x100000 ≤ a) (h2 : a + 4 * n ≤ 0x200000) : listRange a n = true := by
  simp [listRange, pstoreBase, h1, h2]

/-! ### Each entry (R97, R98) -/

theorem listsRun_stage (d : Dev) (h : listsRun d = true) : Stage.load ≤ d.stage := by
  unfold listsRun at h
  simp only [Bool.and_eq_true, Bool.or_eq_true, beq_iff_eq] at h
  obtain ⟨⟨⟨h, -⟩, -⟩, -⟩ := h
  rcases h with h | h
  · exact h.ge
  · rw [h]
    decide

section
variable (s : State) (a : Nat) (v : Word) (e : RegEntry) (hrun : listsRun s.dev = true) (hf : FrontEntry s.dev e)
include hrun hf

theorem reginitWrite_front (hop : e.op = 1) (ha : e.addr = a) (hv : e.value = v) (hr : listRange a 1 = true) :
    exec (.reginitWrite a v) s = .next (listWrite a v s) := by
  have hentry := entryIs_front s.dev e none hf hrun (.inl rfl)
  rw [hop, ha, hv] at hentry
  show Host.Outcome.next (reginitWriteState a v s) = _
  rw [reginitWriteState, hentry, hr]; rfl

theorem reginitSet_front (hop : e.op = 2) (ha : e.addr = a) (hv : e.value = v) (hr : listRange a 1 = true)
    (hread : (mgmtRead a s).2 = s) : exec (.reginitSet a v) s = .next (listWrite a ((mgmtRead a s).1 ||| v) s) := by
  have hentry := entryIs_front s.dev e none hf hrun (.inl rfl)
  rw [hop, ha, hv] at hentry
  show Host.Outcome.next (reginitSetState a v s) = _
  rw [reginitSetState, hentry, hr]
  show Host.Outcome.next (listWrite a ((mgmtRead a s).1 ||| v) (mgmtRead a s).2) = _
  rw [hread]

theorem reginitClear_front (hop : e.op = 3) (ha : e.addr = a) (hv : e.value = v) (hr : listRange a 1 = true)
    (hread : (mgmtRead a s).2 = s) : exec (.reginitClear a v) s = .next (listWrite a ((mgmtRead a s).1 &&& ~~~v) s) := by
  have hentry := entryIs_front s.dev e none hf hrun (.inl rfl)
  rw [hop, ha, hv] at hentry
  show Host.Outcome.next (reginitClearState a v s) = _
  rw [reginitClearState, hentry, hr]
  show Host.Outcome.next (listWrite a ((mgmtRead a s).1 &&& ~~~v) (mgmtRead a s).2) = _
  rw [hread]

theorem reginitPoll_front (hop : e.op = 4) (ha : e.addr = a) (hv : e.value = v) (hr : listRange a 1 = true)
    (hread : (mgmtRead a s).2 = s) : exec (.reginitPoll e.arg a v) s = .next (if (mgmtRead a s).1 &&& v ≠ 0 then s.onDev listAdvance
      else s.onDev (fun d => d.modBoot (fun b => { b with polling := true }))) := by
  have hentry := entryIs_front s.dev e (some e.arg) hf hrun (.inr rfl)
  rw [hop, ha, hv] at hentry
  show Host.Outcome.next (reginitPollState e.arg a v s) = _
  rw [reginitPollState, hentry, hr, ← listNext_front s e hf]
  show Host.Outcome.next (if (mgmtRead a s).1 &&& v ≠ 0 then listNext (mgmtRead a s).2
    else (mgmtRead a s).2.onDev (fun d => d.modBoot (fun b => { b with polling := true }))) = _
  rw [hread]

theorem reginitFill_front (n : Nat) (t : State) (hop : e.op = 6) (harg : e.arg = n) (ha : e.addr = a) (hv : e.value = v) (h0 : 0 < n)
    (hn : n ≤ 1024) (hr : listRange a n = true) (hfill : listFill v n a s = (t, 0)) (hft : FrontEntry t.dev e) :
    exec (.reginitFill n a v) s = .next (t.onDev listAdvance) := by
  have hentry := entryIs_front s.dev e (some e.arg) hf hrun (.inr rfl)
  rw [hop, ha, hv, harg] at hentry
  show Host.Outcome.next (reginitFillState n a v s) = _
  unfold reginitFillState
  rw [hentry, show countOf n 1024 = n from if_neg (by omega)]
  dsimp only
  rw [hr, hfill, if_neg (by decide), if_neg (by simp; omega)]
  exact congrArg Host.Outcome.next ((if_pos rfl).trans (listNext_front t e hft))

theorem reginitDelay_front (hop : e.op = 5) : exec (.reginitDelay e.arg) s =
    .next (if e.arg = 0 then s.onDev listAdvance else s.onDev (fun d => d.modBoot (fun b => { b with delaying := true }))) := by
  obtain ⟨⟨x, es, r, hl⟩, -⟩ := id hf
  show Host.Outcome.next (reginitDelayState e.arg s) = _
  unfold reginitDelayState
  rw [hl, ← listNext_front s e hf]
  dsimp only
  rw [if_neg (by simp [hrun, hop])]

end

/-! ### The statement -/

/-- A plain register written at the front entry's end: nothing else changes but the lists. -/
theorem listAdvance_putReg (s : State) (a : Nat) (w : Word) :
    (s.onDev (fun d => listAdvance (d.putReg a w))).dev.reg a = w ∧
    (∀ b, b ≠ a → (s.onDev (fun d => listAdvance (d.putReg a w))).dev.reg b = s.dev.reg b) ∧
    (s.onDev (fun d => listAdvance (d.putReg a w))).dev.boot.lists = listsRest s.dev.boot.lists ∧
    (s.onDev (fun d => listAdvance (d.putReg a w))).dev.mem = s.dev.mem ∧
    (s.onDev (fun d => listAdvance (d.putReg a w))).prot = s.prot ∧ (s.onDev (fun d => listAdvance (d.putReg a w))).pending = s.pending :=
  ⟨Dev.reg_putReg_same _ _ _, fun _ hb => Dev.reg_putReg_ne _ _ _ _ hb, rfl, rfl, rfl, rfl⟩

theorem listFails_cons (s : State) (x : Nat) (es : List RegEntry) (r : List (Nat × List RegEntry)) (h : s.dev.boot.lists = (x, es) :: r) :
    listFails s = failLate 0x0A x s := by
  unfold listFails; rw [h]

theorem entryIs_nil (d : Dev) (op : Nat) (arg : Option Nat) (a : Nat) (v : Word) (h : d.boot.lists = []) :
    entryIs d op arg a v = false := by
  unfold entryIs; rw [h]

/-- Settles O11: an entry whose turn it is does its one step, on a register by its access codes, on a store word by the queue's
room, and FILL by induction on its words. -/
theorem registerListEntries : Obligations.RegisterListEntries := by
  unfold Obligations.RegisterListEntries
  intro front plain written stored store done
  refine ⟨fun s a v e r hrun hf hp hlock ha hv => ?plainEntry, fun s a v e hrun hf hop ha hv h0 hn hp hlock => ?fillPlain,
    fun s a n v e hrun hf ha hv hs h0 hn hm hq => ?storeEntry, fun s a v e hrun hf ha hv hop hs hm => ?storeWaits,
    fun s e hrun hf hop harg => ?delayNone, fun s e hrun hf hop harg => ?delay, fun s e hf hd => ?delayEnd,
    fun s x es r hpoll hl => ?timeout, fun s a k v hl => ?noList⟩
  case plainEntry =>
    have hp' : PlainReg s.dev a r := hp
    have hlt := plainAddr_lt a hp'.1
    have hrange := listRange_plain a 1 (by omega)
    have hread := mgmtRead_plain a r s hp'
    have hwrite (w : Word) := listWrite_plain a w r e s hp' hlock hf
    refine ⟨fun hop => ⟨_, reginitWrite_front s a v e hrun hf hop ha hv hrange, ?_⟩,
      fun hop => ⟨_, reginitSet_front s a v e hrun hf hop ha hv hrange hread, ?_⟩,
      fun hop => ⟨_, reginitClear_front s a v e hrun hf hop ha hv hrange hread, ?_⟩, fun hop hbit =>
      ⟨_, reginitPoll_front s a v e hrun hf hop ha hv hrange hread, ?_⟩, fun hop hbit => ?_⟩
    · rw [hwrite]; exact listAdvance_putReg s a _
    · rw [hwrite]; exact listAdvance_putReg s a _
    · rw [hwrite]; exact listAdvance_putReg s a _
    · rw [if_pos hbit]; exact ⟨rfl, fun _ _ => rfl, rfl, rfl, rfl, rfl⟩
    · rw [reginitPoll_front s a v e hrun hf hop ha hv hrange hread, if_neg (not_not.mpr hbit)]; rfl
  case fillPlain =>
    have hp' : ∀ k, k < e.arg → ∃ r, PlainReg s.dev (a + 4 * k) r := hp
    obtain ⟨r, hlast⟩ := hp' (e.arg - 1) (by omega)
    have hlt := plainAddr_lt _ hlast.1
    have hfill := listFill_plain v e.arg a s (listsRun_stage s.dev hrun) hlock hp'
    obtain ⟨hboot, hmem⟩ := fillRegs_rest v e.arg a s.dev
    obtain ⟨hin, hout⟩ := fillRegs_reg v e.arg a s.dev fun k hk => (hp' k hk).imp fun r h => h.2.1
    have hft : FrontEntry (s.onDev (fillRegs v e.arg a)).dev e := by
      rw [FrontEntry, State.onDev_dev, hboot]; exact hf
    exact ⟨_, reginitFill_front s a v e hrun hf e.arg _ hop rfl ha hv h0 hn (listRange_plain a e.arg (by omega)) hfill hft,
      hin, hout, congrArg (fun b : Boot => listsRest b.lists) hboot, hmem, rfl, rfl⟩
  case storeEntry =>
    have hs' : StoreRun s.dev a n := hs
    obtain ⟨h1, h2, -⟩ := id hs'
    have hst := listsRun_stage s.dev hrun
    refine ⟨fun ⟨hop, hn1⟩ => ⟨_, reginitWrite_front s a v e hrun hf hop ha hv (listRange_store a 1 h1 (by omega)), ?_⟩,
      fun ⟨hop, harg⟩ => ⟨_, reginitFill_front s a v e hrun hf n _ hop harg ha hv h0 hn (listRange_store a n h1 h2)
        (listFill_store v n a s hst hs' hm hq) hf, rfl, rfl, rfl, rfl⟩⟩
    subst hn1
    rw [listWrite_some a v s _ e ((mgmtWrite_store a 0 v s hs').trans (if_pos (by omega))) hf]
    exact ⟨rfl, rfl, rfl, rfl⟩
  case storeWaits =>
    have hs' : StoreRun s.dev a 1 := hs
    obtain ⟨h1, h2, -⟩ := id hs'
    rw [reginitWrite_front s a v e hrun hf hop ha hv (listRange_store a 1 h1 h2), listWrite,
      (mgmtWrite_store a 0 v s hs').trans (if_neg (by omega))]
  case delayNone =>
    have hexec := reginitDelay_front s e hrun hf hop
    rw [harg, if_pos rfl] at hexec
    exact hexec
  case delay => exact (reginitDelay_front s e hrun hf hop).trans (by rw [if_neg harg]; rfl)
  case delayEnd => exact congrArg Host.Outcome.next ((if_pos hd).trans (listNext_front s e hf))
  case timeout =>
    refine ⟨_, rfl, ?_⟩
    rw [reginitPollTimeoutState, hpoll, listFails_cons s x es r hl]
    exact ⟨rfl, rfl, rfl, rfl⟩
  case noList =>
    refine ⟨congrArg Host.Outcome.next (if_pos ?_), congrArg Host.Outcome.next (if_pos ?_), congrArg Host.Outcome.next (if_pos ?_),
      congrArg Host.Outcome.next (if_pos ?_), congrArg Host.Outcome.next (if_pos ?_), congrArg Host.Outcome.next ?_⟩
    · rw [entryIs_nil _ _ _ _ _ hl]; rfl
    · rw [entryIs_nil _ _ _ _ _ hl]; rfl
    · rw [entryIs_nil _ _ _ _ _ hl]; rfl
    · rw [entryIs_nil _ _ _ _ _ hl]; rfl
    · rw [entryIs_nil _ _ _ _ _ hl]; rfl
    · rw [reginitDelayState, hl]

end Sys2Proof.Machine
end

section
/-! PROOF. The outcome of a command whose effect is on the device alone, in the terms of the statements. -/

namespace Sys2Proof.Machine

open Sys2Proof

theorem hostNext_turn {s : State} (f : Dev → Dev) (h : hostTurn s.dev = true) : hostNext s f = .next { s with dev := f s.dev } :=
  congrArg Host.Outcome.next (if_pos h)

theorem devNext_same {s : State} {f : Dev → Dev} (h : f s.dev = s.dev) : devNext s f = .next s := by
  rw [devNext, State.onDev, h]

/-- A host's write that takes its turn has exactly the effect of its function on the device. -/
theorem yields_hostNext {c : Instr} {s : State} {f : Dev → Dev} (P : Dev → Prop) (hc : exec c s = hostNext s f)
    (h : hostTurn s.dev = true) : Yields c s P ↔ P (f s.dev) := by
  rw [Yields, hc, hostNext_turn f h]
  constructor
  · rintro ⟨d, hd, hP⟩
    rwa [show f s.dev = d from congrArg State.dev (Host.Outcome.next.inj hd)]
  · exact fun hP => ⟨_, rfl, hP⟩

/-- Every other command on the device alone has exactly the effect of its function. -/
theorem yields_devNext {c : Instr} {s : State} {f : Dev → Dev} (P : Dev → Prop) (hc : exec c s = devNext s f) :
    Yields c s P ↔ P (f s.dev) := by
  rw [Yields, hc, devNext, State.onDev]
  constructor
  · rintro ⟨d, hd, hP⟩
    rwa [show f s.dev = d from congrArg State.dev (Host.Outcome.next.inj hd)]
  · exact fun hP => ⟨_, rfl, hP⟩

end Sys2Proof.Machine
end

section
/-! PROOF. The statement on power batches fails: its quiet states leave open whether an entry is queued (R476), and a queued entry
that carries the number of the coming batch keeps that batch open (R491). -/

namespace Sys2Proof.Machine

open Sys2Proof

/-- A device in RUN with every domain ON and no request under way, but for an entry that stands queued in cluster 15's domain
under number 1, that of the first batch; PWR_REQ_MASK names MGMT. -/
def entryQueued : Dev :=
  { Dev.reset with
    regs := [(Reg.GLB_BOOT_STAT, BitVec.ofNat 32 Stage.run), (Reg.PWR_REQ_MASK, 2)]
    pwr := { Dev.reset.pwr with doms := List.replicate 29 (Domain.reset .on) ++
      [{ Domain.reset .on with entryNext := some (1, .off) }] } }

theorem entryQueued_quiet (m : Nat) : (entryQueued.dom m).phase = .rest ∧ (entryQueued.dom m).wakeNext = none := by
  rcases Nat.lt_or_ge m 30 with h | h
  · have hall : ∀ k < 30, (entryQueued.dom k).phase = .rest ∧ (entryQueued.dom k).wakeNext = none := by decide
    exact hall m h
  · rw [Dev.dom, at_, List.getD_eq_default _ _ h]
    exact ⟨rfl, rfl⟩

theorem entryQueued_on : hostTurn entryQueued = true ∧ (∀ m, m ∈ allPrereqs 1 → (entryQueued.dom m).state = .on) := by decide

/-- The wake of a domain that is ON is settled at once, and its batch stays open for the queued entry. -/
theorem entryQueued_batch : (powerBatchDev 1 entryQueued).pwr.open_ = [1] := by decide +kernel

/-- Refutes O45: a wake of MGMT, ON with its prerequisites, is settled at once, but its batch does not close, since an entry queued in
another domain carries its number and `quiet` asks nothing of `entryNext`. -/
theorem not_powerBatchesAreSettledOrStarted : ¬ Obligations.PowerBatchesAreSettledOrStarted := by
  unfold Obligations.PowerBatchesAreSettledOrStarted
  rintro ⟨-, -, -, hwake, -⟩
  obtain ⟨hturn, hpre⟩ := entryQueued_on
  have hyields := hwake ⟨[], Prot.reset, entryQueued⟩ 1 1
    ⟨⟨entryQueued_quiet, rfl, rfl⟩, hturn, by decide, by decide, by decide, by decide, by decide, by decide⟩ rfl hpre
  obtain ⟨⟨-, -, hopen, -⟩, -⟩ := (yields_hostNext _ rfl hturn).mp hyields
  dsimp only at hopen
  rw [entryQueued_batch] at hopen
  exact absurd hopen (by decide)

end Sys2Proof.Machine
end

section
/-! PROOF. The statement on the output bits and the frame of the mix engine fails: a write-1-to-clear that waits for the release may name
any register in the state, GLB_FRAME_CTL among them, and the release takes it before the mix engine sums its clusters (R342). -/

namespace Sys2Proof.Machine

open Sys2Proof

/-- A device whose engine runs with CTRL, MIX and cluster 0 ON, the cluster's last frame carrying 2^20 on bus 0, and a clear of ENG_EN
waiting among those of R342 for the coming release. -/
def enableClearDue : Dev :=
  { Dev.reset with
    regs := [(Reg.GLB_FRAME_CTL, 1)]
    frame := { Frame.reset with refValid := true }
    pwr := { Power.reset with doms := (List.range 30).map (fun n =>
      Domain.reset (if n = Dom.ctrl ∨ n = Dom.mix ∨ n = Dom.cl 0 then .on else .off)) }
    aud := { Audio.reset with clus := [{ Clu.reset with contrib := [2 ^ 20] }] }
    mix := { Mix.reset with clrDue := [(0, Reg.GLB_FRAME_CTL, 1)] } }

theorem enableClearDue_runs : enableClearDue.timerRuns = true ∧ enableClearDue.engEn = true ∧ enableClearDue.isOn Dom.mix = true ∧
    enableClearDue.mix.buses.length = 64 := by decide

/-- The state's own clusters put 2^20 on bus 0, whichever frame timer stands beside them. -/
theorem enableClearDue_sum (f : Frame) : at_ (localSums { enableClearDue with frame := f }) 0 0 = 2 ^ 20 := by
  with_unfolding_all rfl

/-- At the release bus 0 is unmuted at LEVEL 4000h, and delivers nothing: no cluster was active any more. -/
theorem enableClearDue_release : (efReleaseDev enableClearDue).eff (Reg.MIX_BUS 0) = 0x0A004000 ∧
    (at_ (efReleaseDev enableClearDue).mix.buses 0 Bus.reset).w = 64 ∧
    (at_ (efReleaseDev enableClearDue).mix.buses 0 Bus.reset).y = 0 := by decide +kernel

/-- Refutes O28: the waiting clear takes ENG_EN at the release, before the mix engine sums its clusters, so a bus whose cluster's frame
carries 2^20 delivers 0. -/
theorem not_outputBitsRampAndPark : ¬ Obligations.OutputBitsRampAndPark := by
  unfold Obligations.OutputBitsRampAndPark
  rintro ⟨-, -, hframe, -⟩
  obtain ⟨hruns, heng, hmix, hlen⟩ := enableClearDue_runs
  have hbuses := ((yields_devNext _ rfl).mp (hframe ⟨[], Prot.reset, enableClearDue⟩ hruns heng hmix hlen)).1
  obtain ⟨-, hy, -⟩ := hbuses 0 (by decide)
  dsimp only at hy
  obtain ⟨hctl, hw, hsilent⟩ := enableClearDue_release
  rw [hctl, hw, hsilent, enableClearDue_sum] at hy
  exact absurd hy (by decide)

end Sys2Proof.Machine
end

section
/-! SUPPORT. Registers, the log and the TDM ports under the shared operations (R342, R357, R370, R503). -/

namespace Sys2Proof.Machine

open Sys2Proof

/-! ### The log (R503) -/

theorem Dev.reg_logEv_ne (d : Dev) (source code sev : Nat) (data : List Nat) (a : Nat) (h : a ≠ Reg.MGT_CNT_LOG_DROP) :
    (d.logEv source code sev data).reg a = d.reg a := by
  unfold Dev.logEv
  dsimp only
  split
  · rfl
  · exact Dev.reg_bump_ne d _ _ h

/-- A unit that has not touched the log and the EF counter logs its one event. -/
theorem logs_logEv {s : State} {d : Dev} (source code sev : Nat) (data : List Nat) (hm : d.mgt = s.dev.mgt) (hf : d.frame = s.dev.frame) :
    Logs s (d.logEv source code sev data) source code sev data := by
  intro hroom
  have henter : ∃ e, (d.logEv source code sev data).mgt = { d.mgt with queue := d.mgt.queue ++ [e] } ∧ e.source = source ∧
      e.code = code ∧ e.sev = sev ∧ e.data = data.map (BitVec.ofNat 8) ∧ e.ef = d.now := by
    rw [Dev.logEv, if_pos (by rw [hm]; exact hroom)]
    exact ⟨_, rfl, rfl, rfl, rfl, rfl, rfl⟩
  rwa [hm, show d.now = s.dev.now from congrArg Frame.ef hf] at henter

/-! ### Interrupt bits of MIX, OUT and TDM (R22, R342) -/

theorem Dev.raiseIrq_on {d : Dev} {dom : Nat} (a n : Nat) (h : d.isOn dom = true) : d.raiseIrq dom a n = d.putFlag a n true := if_pos h

/-! ### The ports -/

@[simp] theorem Dev.reg_modTdm (d : Dev) (n a : Nat) (f : TdmPort → TdmPort) : (d.modTdm n f).reg a = d.reg a := rfl

theorem Dev.tdmPort_of_tdm {d e : Dev} (h : e.tdm = d.tdm) (n : Nat) : e.tdmPort n = d.tdmPort n := by rw [Dev.tdmPort, h]; rfl

theorem Dev.tdmPort_modTdm_same (d : Dev) (n : Nat) (f : TdmPort → TdmPort) (h : n < d.tdm.ports.length) :
    (d.modTdm n f).tdmPort n = f (d.tdmPort n) := (at_upd _ _ _ _ _ h).trans (if_pos rfl)

theorem Dev.tdmPort_modTdm_ne (d : Dev) (n j : Nat) (f : TdmPort → TdmPort) (h : j ≠ n) : (d.modTdm n f).tdmPort j = d.tdmPort j := by
  simp [Dev.tdmPort, Dev.modTdm, at_, upd, List.getD_eq_getElem?_getD, Ne.symm h]

/-- A port that differs from one at rest is in the table. -/
theorem Dev.tdmPort_listed {d : Dev} {n : Nat} (h : d.tdmPort n ≠ TdmPort.reset) : n < d.tdm.ports.length := by
  by_contra hn
  exact h (List.getD_eq_default _ _ (by omega))

theorem Dev.tdmPort_listed_of_run {d : Dev} {n : Nat} (h : (d.tdmPort n).run = true) : n < d.tdm.ports.length :=
  Dev.tdmPort_listed (fun e => by simp [e, TdmPort.reset] at h)

theorem Dev.tdmPort_listed_of_stopping {d : Dev} {n : Nat} (h : (d.tdmPort n).stopping = true) : n < d.tdm.ports.length :=
  Dev.tdmPort_listed (fun e => by simp [e, TdmPort.reset] at h)

/-- A change of one port in the table changes nothing else of the device. -/
theorem onlyPort_modTdm (s : State) (n : Nat) (f : TdmPort → TdmPort) : OnlyPort s (s.dev.modTdm n f) n :=
  ⟨rfl, rfl, fun j hj => s.dev.tdmPort_modTdm_ne n j f hj⟩

theorem Dev.tdmOn_iff (d : Dev) (n : Nat) : d.tdmOn n = true ↔ n < 6 ∧ d.isOn Dom.tdm = true := by simp [Dev.tdmOn]

end Sys2Proof.Machine
end

section
/-! PROOF. The statement on the lock of the TDM slaves, its slips and its losses (R363, R364). -/

namespace Sys2Proof.Machine

open Sys2Proof

/-- May a port slip or lose its lock (R32, R364)? -/
def MayDrop (d : Dev) (n : Nat) : Prop :=
  d.tdmOn n = true ∧ d.timerRuns = true ∧ d.sees Dom.tdm = true ∧ (d.tdmPort n).run = true ∧ (d.tdmPort n).master = false ∧
    (d.tdmPort n).locked = true

/-- A port whose lock has dropped: out of lock at PHASE 0, its frame discarded, and nothing carried. -/
def TdmPort.dropped (loss : Bool) (p : TdmPort) : TdmPort :=
  { p with locked := false, phase := 0, loss := loss, w := 0, good := 0, frameAt := none, slots := p.slots.map (fun _ => 0), hist := [] }

theorem dropLock_runs (n cnt irq code : Nat) (loss : Bool) (d : Dev) (h : MayDrop d n) : dropLock n cnt irq code loss d =
    (((((d.modTdm n (TdmPort.dropped loss)).putFlag Reg.TDM_IRQ_STAT irq true).bump cnt).emit 25 1).logEv 7 code 1 [n]) := by
  obtain ⟨hon, htimer, hsees, hrun, hmaster, hlocked⟩ := h
  have htdm : (d.modTdm n (TdmPort.dropped loss)).isOn Dom.tdm = true := ((d.tdmOn_iff n).mp hon).2
  rw [dropLock, if_neg (by simp [hon, htimer, hsees, hrun, hmaster, hlocked]), ← Dev.raiseIrq_on _ _ htdm]
  rfl

/-- What a slip and a loss have in common: the port dropped, its status bit, its counter, its event and its log entry (R364). -/
theorem dropLock_effect (n cnt irq code : Nat) (loss : Bool) (s : State) (h : MayDrop s.dev n) (hirq : irq < 32)
    (hs : cnt ≠ Reg.TDM_IRQ_STAT) (hl : cnt ≠ Reg.MGT_CNT_LOG_DROP) : let d := dropLock n cnt irq code loss s.dev
    d.tdmPort n = TdmPort.dropped loss (s.dev.tdmPort n) ∧ (∀ j, j ≠ n → d.tdmPort j = s.dev.tdmPort j) ∧
      d.flag Reg.TDM_IRQ_STAT irq = true ∧ Counts s d cnt ∧ RegsKept s d [Reg.TDM_IRQ_STAT, cnt, Reg.MGT_CNT_LOG_DROP] ∧
      Logs s d 7 code 1 [n] ∧ d.cnt = { s.dev.cnt with bus := s.dev.busWith 25 1 } ∧ d.mem = s.dev.mem ∧ d.outs = s.dev.outs := by
  have hlist := Dev.tdmPort_listed_of_run h.2.2.2.1
  rw [dropLock_runs n cnt irq code loss s.dev h]
  refine ⟨?port, fun j hj => ?others, ?flag, ?count, fun b hb => ?regs, logs_logEv _ _ _ _ rfl rfl, by simp; rfl, by simp, by simp⟩
  case port => exact (Dev.tdmPort_of_tdm (by simp) n).trans (s.dev.tdmPort_modTdm_same n _ hlist)
  case others => exact (Dev.tdmPort_of_tdm (by simp) j).trans (s.dev.tdmPort_modTdm_ne n j (TdmPort.dropped loss) hj)
  case flag =>
    rw [Dev.flag, Dev.reg_logEv_ne _ _ _ _ _ _ (by decide)]
    exact (congrArg (BitVec.getLsbD · irq) (Dev.reg_bump_ne _ _ _ hs.symm)).trans (Dev.flag_putFlag_same _ _ _ _ hirq)
  case count =>
    rw [Counts, Dev.fld, Dev.reg_logEv_ne _ _ _ _ _ _ hl]
    refine (Dev.fld_bumpFld _ cnt 31 0 1 (by decide) (by decide)).trans ?_
    rw [Dev.fld, Dev.reg_putFlag_ne _ _ _ _ _ hs]; rfl
  case regs =>
    simp only [List.mem_cons, List.not_mem_nil, or_false, not_or] at hb
    obtain ⟨h1, h2, h3⟩ := hb
    rw [Dev.reg_logEv_ne _ _ _ _ _ _ h3]
    exact (Dev.reg_bump_ne _ _ _ h2).trans (Dev.reg_putFlag_ne _ _ _ _ _ h1)

theorem dropLock_idle (n cnt irq code : Nat) (loss : Bool) (d : Dev) (h : (d.tdmPort n).locked = false ∨ d.timerRuns = false) :
    dropLock n cnt irq code loss d = d := if_pos (by rcases h with h | h <;> simp [h])

/-- Settles O33: a lock changes the port alone, and a slip and a loss are one effect with their own counter, bit and code. -/
theorem tdmSlavesLockSlipAndLose : Obligations.TdmSlavesLockSlipAndLose := by
  unfold Obligations.TdmSlavesLockSlipAndLose
  refine ⟨fun s n phase hon htimer hsees hrun hmaster hlocked hphase => (yields_devNext _ rfl).mpr ?locks,
    fun s n phase h => devNext_same ?stays, fun s n hon htimer hsees hrun hmaster hlocked => ?drops,
    fun s n h => ⟨devNext_same (dropLock_idle _ _ _ _ _ _ h), devNext_same (dropLock_idle _ _ _ _ _ _ h)⟩⟩
  case locks =>
    rw [tdmLockDev, if_pos (by simp [hon, htimer, hsees, hrun, hmaster, hlocked, hphase])]
    exact ⟨onlyPort_modTdm s n _, s.dev.tdmPort_modTdm_same n _ (Dev.tdmPort_listed_of_run hrun)⟩
  case stays => exact if_neg (by rcases h with h | h | h | h <;> simp [h])
  case drops =>
    have hmay : MayDrop s.dev n := ⟨hon, htimer, hsees, hrun, hmaster, hlocked⟩
    have hn : n < 6 := ((s.dev.tdmOn_iff n).mp hon).1
    constructor
    · obtain ⟨hport, hothers, heffect⟩ := dropLock_effect n Reg.TDM_CNT_SLIP n 1 false s hmay (by omega) (by decide) (by decide)
      refine (yields_devNext _ rfl).mpr ?_
      rw [tdmSlipDev, hport]
      exact ⟨rfl, rfl, rfl, rfl, rfl, by simp [TdmPort.dropped], rfl, hrun, hothers, heffect⟩
    · obtain ⟨hport, hothers, heffect⟩ := dropLock_effect n Reg.TDM_CNT_LOSS (8 + n) 2 true s hmay (by omega) (by decide) (by decide)
      refine (yields_devNext _ rfl).mpr ?_
      rw [tdmLossDev, hport]
      exact ⟨rfl, rfl, rfl, rfl, rfl, by simp [TdmPort.dropped], rfl, hrun, hothers, heffect⟩

end Sys2Proof.Machine
end

section
/-! PROOF. The statement on the TDM ports and their frames (R357 to R364, R370). -/

namespace Sys2Proof.Machine

open Sys2Proof

/-! ### A write that waits for release k + 2 (R342) -/

theorem reg_mixPut (a : Nat) (w : Word) (d : Dev) : (mixPut a w d).reg a = w := d.reg_putReg_same a w

theorem writeDue_mixPut (a : Nat) (w : Word) (s : State) : WriteDue s (mixPut a w s.dev) a := by
  refine ⟨fun b hb => s.dev.reg_putReg_ne a b w (by simpa using hb), ?_, rfl⟩
  rw [reg_mixPut]; rfl

/-! ### TDM_CTLn (R357, R370) -/

theorem tdmRate_lt (n : Nat) (ctl : Word) : tdmRate n ctl < 4 := by
  have h := ctl.bits_lt 5 4
  unfold tdmRate
  split <;> omega

/-- TDM_CTLn as a write stores it. -/
def tdmCtlWord (n : Nat) (v : Word) : Word := (v &&& 0x3F).setBits 5 4 (tdmRate n v)

theorem tdmCtlWrite_on {n : Nat} (v : Word) {d : Dev} (h : d.tdmOn n = true) :
    tdmCtlWrite n v d = mixPut (Reg.TDM_CTL n) (tdmCtlWord n v) d := if_pos h

theorem tdmCtlWord_fields (n : Nat) (v : Word) : (tdmCtlWord n v).bits 3 0 = v.bits 3 0 ∧
    (tdmCtlWord n v).bits 5 4 = tdmRate n v ∧ (tdmCtlWord n v).bits 31 6 = 0 := by
  have hmask : (v &&& 0x3F).toNat = v.toNat % 64 := Nat.and_two_pow_sub_one_eq_mod v.toNat 6
  refine ⟨?_, ?_, ?_⟩
  · rw [tdmCtlWord, Word.bits_setBits_disjoint _ _ _ _ _ _ (by decide) (by decide) (by decide), Word.bits, Word.bits, hmask]
    omega
  · rw [tdmCtlWord, Word.bits_setBits_same _ _ _ _ (by decide) (by decide)]
    exact Nat.mod_eq_of_lt (tdmRate_lt n v)
  · rw [tdmCtlWord, Word.bits_setBits_disjoint _ _ _ _ _ _ (by decide) (by decide) (by decide), Word.bits, hmask]
    omega

/-- The accepted write of TDM_CTLn (R342, R357, R370). -/
theorem tdmCtlWrite_due (s : State) (n : Nat) (v : Word) (hon : s.dev.tdmOn n = true) : let d := tdmCtlWrite n v s.dev
    WriteDue s d (Reg.TDM_CTL n) ∧ d.fld (Reg.TDM_CTL n) 3 0 = v.bits 3 0 ∧ d.fld (Reg.TDM_CTL n) 5 4 = tdmRate n v ∧
      d.fld (Reg.TDM_CTL n) 31 6 = 0 := by
  rw [tdmCtlWrite_on v hon]
  refine ⟨writeDue_mixPut _ _ s, ?_⟩
  simp only [Dev.fld, reg_mixPut]
  exact tdmCtlWord_fields n v

/-! ### The end of a frame (R32, R360, R363) -/

theorem TdmPort.frameLen_dvd (p : TdmPort) (n : Nat) : p.frameLen n ∣ 2 ^ 40 :=
  Nat.pow_dvd_pow 2 (le_trans (Nat.le_of_lt (tdmRate_lt n p.ctl)) (by decide))

/-- A master's frames end at the multiples of their length, a locked slave's PHASE later, and an unlocked slave has none. -/
theorem frameEnds_of (d : Dev) (n : Nat) (hm : (d.tdmPort n).master = true → d.now % (d.tdmPort n).frameLen n = 0)
    (hs : (d.tdmPort n).master = false → (d.tdmPort n).locked = true →
      (d.now + 2 ^ 40 - ((d.tdmPort n).phase + 63) / 64) % (d.tdmPort n).frameLen n = 0) : frameEnds d n = true := by
  unfold frameEnds
  cases hmaster : (d.tdmPort n).master
  case true =>
    have hend : (d.now + efWrap) % (d.tdmPort n).frameLen n = 0 :=
      Nat.mod_eq_zero_of_dvd (Nat.dvd_add (Nat.dvd_of_mod_eq_zero (hm hmaster)) ((d.tdmPort n).frameLen_dvd n))
    simp [hmaster, hend]
  case false =>
    cases hlocked : (d.tdmPort n).locked
    case true => simpa [hmaster, hlocked, efWrap] using hs hmaster hlocked
    case false => simp [hmaster, hlocked]

theorem tdmPortStop_effect (s : State) (n : Nat) (hstop : (s.dev.tdmPort n).stopping = true) : let d := s.dev.modTdm n (stopPort s.dev.now)
    OnlyPort s d n ∧ ((s.dev.tdmPort n).again = none → d.tdmPort n = { TdmPort.reset with ctl := (s.dev.tdmPort n).ctl }) ∧
      ∀ ctl, (s.dev.tdmPort n).again = some ctl →
        d.tdmPort n = { TdmPort.reset with run := true, startAt := some s.dev.now, ctl := ctl } := by
  refine ⟨onlyPort_modTdm s n _, ?_⟩
  rw [s.dev.tdmPort_modTdm_same n _ (Dev.tdmPort_listed_of_stopping hstop)]
  constructor
  · intro h; simp only [stopPort, h]
  · intro ctl h; simp only [stopPort, h]

/-! ### The frame of an output port (R360, R361, R363) -/

theorem framesRun_port {d : Dev} {n : Nat} (h : framesRun d n = true) : n < d.tdm.ports.length ∧ n < 6 := by
  simp only [framesRun, Bool.and_eq_true] at h
  obtain ⟨⟨⟨⟨⟨⟨hon, -⟩, -⟩, hrun⟩, -⟩, -⟩, -⟩ := h
  exact ⟨Dev.tdmPort_listed_of_run hrun, ((d.tdmOn_iff n).mp hon).1⟩

theorem slotsAtRate_le (r : Nat) : slotsAtRate r ≤ 16 := by
  unfold slotsAtRate
  split_ifs <;> omega

/-! ### A frame that begins or is delivered (R360 to R364) -/

/-- A port with its frame counted towards a slave's resumption. -/
def TdmPort.counted (p : TdmPort) : TdmPort := if p.master then p else cleanFrame p

theorem cleanFrame_keeps (p : TdmPort) : (cleanFrame p).ctl = p.ctl ∧ (cleanFrame p).hist = p.hist := by
  unfold cleanFrame
  split_ifs <;> exact ⟨rfl, rfl⟩

theorem TdmPort.counted_keeps (p : TdmPort) : p.counted.ctl = p.ctl ∧ p.counted.hist = p.hist := by
  unfold TdmPort.counted
  split_ifs
  · exact ⟨rfl, rfl⟩
  · exact cleanFrame_keeps p

/-- A master, and a slave that has resumed, carry on as they were. -/
theorem TdmPort.counted_carries (p : TdmPort) (h : p.master = true ∨ 0 < p.w) : p.counted = p := by
  unfold TdmPort.counted cleanFrame
  split_ifs with hm hw
  · rfl
  · rfl
  all_goals exact absurd h (by simp [hm, hw])

/-- A slave's weight leaves 0 once two clean frames have passed. -/
theorem TdmPort.counted_resumes (p : TdmPort) (hm : p.master = false) (hw : p.w = 0) : p.counted.w = if p.good < 2 then 0 else 1 := by
  unfold TdmPort.counted cleanFrame
  split_ifs with h1 h2 <;> simp_all

/-- The port as an output frame begins: its slots as mapped, for instant t. -/
def TdmPort.sends (d : Dev) (n t : Nat) (p : TdmPort) : TdmPort :=
  { p.counted with
    frameAt := some d.now
    slots := (List.range (slotsAtRate (p.counted.ratio n))).map (fun i =>
      if (slotMap d n i).1 then slotWord (pairSample d (slotMap d n i).2 (p.counted.ratio n) t) p.counted.w else 0) }

theorem tdmoFrameDev_runs (n late : Nat) (d : Dev) (hn : n < 4) (hrun : framesRun d n = true) (hstop : (d.tdmPort n).stopping = false)
    (hlate : late = if (d.tdmPort n).master then 0 else (d.tdmPort n).phase / 64)
    (hdue : (d.now + 2 ^ 40 - late) % (d.tdmPort n).frameLen n = 0) :
    tdmoFrameDev n d = d.modTdm n (TdmPort.sends d n (efSince d.now (late + (d.tdmPort n).frameLen n))) := by
  subst hlate
  exact if_neg (by simpa [hn, hrun, hstop, efWrap] using hdue)

/-- The port as an input frame is delivered: the slots its rate gives, zeros while nothing is carried. -/
def TdmPort.takes (now n : Nat) (slots : List Word) (p : TdmPort) : TdmPort :=
  let fr := ((if 0 < p.counted.w then slots else []) ++ List.replicate 16 0).take (slotsAtRate (p.counted.ratio n))
  { p.counted with frameAt := some now, slots := fr, hist := (fr :: p.counted.hist).take 64 }

theorem tdmiFrameDev_runs (n r : Nat) (slots : List Word) (d : Dev) (hn : 4 ≤ n) (hrun : framesRun d n = true)
    (hsees : d.sees Dom.tdm = true) (hstart : (d.tdmPort n).startAt = some r)
    (hfirst : efReached d.now (efAdd r ((d.tdmPort n).frameLen n)) = true)
    (hm : (d.tdmPort n).master = true → d.now % (d.tdmPort n).frameLen n = 0) :
    tdmiFrameDev n slots d = extMissing n (d.modTdm n (TdmPort.takes d.now n slots)) := by
  have hdue : (!(d.tdmPort n).master || d.now % (d.tdmPort n).frameLen n == 0) = true := by
    cases hmaster : (d.tdmPort n).master <;> simp [hm, hmaster]
  exact if_neg (by simp [hn, hrun, hsees, hstart, hfirst, hdue])

theorem TdmPort.takes_slots (now n : Nat) (slots : List Word) (p : TdmPort) (hlen : slots.length = slotsAtRate (p.ratio n)) :
    (p.takes now n slots).slots = if 0 < (p.takes now n slots).w then slots else List.replicate slots.length 0 := by
  have hratio : p.counted.ratio n = p.ratio n := congrArg (tdmRate n) p.counted_keeps.1
  have hle := slotsAtRate_le (p.ratio n)
  show ((if 0 < p.counted.w then slots else []) ++ List.replicate 16 0).take (slotsAtRate (p.counted.ratio n)) =
    if 0 < p.counted.w then slots else _
  rw [hratio, ← hlen]
  split_ifs
  · exact List.take_left ..
  · rw [List.nil_append, List.take_replicate, Nat.min_eq_left (by omega)]

/-- Where no voice plays an external input, no voice misses a slot. -/
theorem extMissing_none (n : Nat) (d : Dev) (h : ∀ v, (at_ (d.vaud v).oscs 0 Osc.reset).model ≠ 4) : extMissing n d = d := by
  have hround (v : Nat) : (if (at_ (d.vaud v).oscs 0 Osc.reset).model = 4 ∧ sounding (d.voice v) ∧
      4 + halfAt (d.vaud v).arm 0x20 % 2 = n ∧ !extSlotOk d (halfAt (d.vaud v).arm 0x20) then
        armFault v 0 6 (d.vaud v).arm d else d) = d := if_neg (fun hc => h v hc.1)
  unfold extMissing
  generalize 256 = k
  induction k with
  | zero => rfl
  | succ k ih => rw [forUpTo_succ, ih]; exact hround k

/-! ### The statement -/

/-- Settles O32: a write of TDM_CTLn is held, a frame's end stops its port, and a frame begun or delivered is the port with its slots
as mapped or received. -/
theorem tdmPortsRunTheirFrames : Obligations.TdmPortsRunTheirFrames := by
  unfold Obligations.TdmPortsRunTheirFrames
  refine ⟨fun s n v hturn hon hset hwas => (yields_hostNext _ rfl hturn).mpr ?enable,
    fun s n v hturn hon hclear hwas => (yields_hostNext _ rfl hturn).mpr ?disable,
    fun s n hon htimer hstop hm hs => (yields_devNext _ rfl).mpr ?stops, fun s n h => devNext_same ?goesOn, fun p n i b hi => ?pins,
    fun s n late hn hrun hstop hlate hdue => (yields_devNext _ rfl).mpr ?begins, fun s n h => devNext_same ?waits,
    fun s n r slots hn hrun hsees hstart hfirst hm hlen => (yields_devNext _ rfl).mpr ?delivered⟩
  case enable =>
    rw [tdmPortEnableDev, if_pos (by rw [hset, hwas]; rfl)]
    exact tdmCtlWrite_due s n v hon
  case disable =>
    rw [tdmPortDisableDev, if_pos (by rw [hclear, hwas]; rfl)]
    exact tdmCtlWrite_due s n v hon
  case stops =>
    rw [tdmPortStopDev, if_pos (by simp [hon, htimer, hstop, frameEnds_of s.dev n hm hs])]
    exact tdmPortStop_effect s n hstop
  case goesOn => exact if_neg (by rcases h with h | h <;> simp [h])
  case pins =>
    have hhalf : 64 * p.frameLen n / 2 = 32 * 2 ^ p.ratio n := by unfold TdmPort.frameLen; omega
    rw [framePins, frameFs, hhalf]
    rfl
  case begins =>
    obtain ⟨hlist, -⟩ := framesRun_port hrun
    have hratio : (s.dev.tdmPort n).counted.ratio n = (s.dev.tdmPort n).ratio n := congrArg (tdmRate n) (TdmPort.counted_keeps _).1
    rw [tdmoFrameDev_runs n late s.dev hn hrun hstop hlate hdue, s.dev.tdmPort_modTdm_same n _ hlist]
    refine ⟨onlyPort_modTdm s n _, rfl, fun h => ?_, fun hm hw => TdmPort.counted_resumes _ hm hw, ?_, fun i hi => ?_⟩
    · have hcarry := TdmPort.counted_carries _ h
      simp [TdmPort.sends, hcarry]
    · simp [TdmPort.sends, hratio]
    · simp [TdmPort.sends, hratio, at_, List.getD_eq_getElem?_getD, hi]
  case waits => exact if_pos (by simp [h])
  case delivered =>
    obtain ⟨hlist, -⟩ := framesRun_port hrun
    have hport (d : Dev) (j : Nat) : (extMissing n d).tdmPort j = d.tdmPort j := Dev.tdmPort_of_tdm (by simp) j
    rw [tdmiFrameDev_runs n r slots s.dev hn hrun hsees hstart hfirst hm, hport, s.dev.tdmPort_modTdm_same n _ hlist]
    refine ⟨fun hext => ?_, fun j hj => (hport _ j).trans (s.dev.tdmPort_modTdm_ne n j _ hj), rfl,
      TdmPort.takes_slots _ _ _ _ hlen, ?_⟩
    · rw [extMissing_none n (s.dev.modTdm n _) hext]
      exact onlyPort_modTdm s n _
    · exact congrArg (fun h => ((TdmPort.takes s.dev.now n slots (s.dev.tdmPort n)).slots :: h).take 64) (TdmPort.counted_keeps _).2

end Sys2Proof.Machine
end

section
/-! SUPPORT. What a release reads of the state before it and its first part leaves alone: the REFCLK edge and GLB_FRAME_CTL (R44, R65,
R446). -/

namespace Sys2Proof.Machine

open Sys2Proof

/-- The REFCLK edge, and GLB_FRAME_CTL, which holds ENG_EN. -/
def Dev.clock (d : Dev) : Nat × Word := (d.cnt.edge, d.reg Reg.GLB_FRAME_CTL)

/-! ### The shared operations -/

theorem Dev.clock_of_parts {d e : Dev} (hc : e.cnt = d.cnt) (hr : e.regs = d.regs) : e.clock = d.clock := by
  simp only [Dev.clock, Dev.reg, hc, hr]

theorem Dev.clock_putReg (d : Dev) (a : Nat) (w : Word) (h : Reg.GLB_FRAME_CTL ≠ a) : (d.putReg a w).clock = d.clock :=
  congrArg (Prod.mk d.cnt.edge) (d.reg_putReg_ne _ _ w h)

theorem Dev.clock_putFld (d : Dev) (a hi lo v : Nat) (h : Reg.GLB_FRAME_CTL ≠ a) : (d.putFld a hi lo v).clock = d.clock :=
  d.clock_putReg _ _ h

theorem Dev.clock_putFlag (d : Dev) (a n : Nat) (b : Bool) (h : Reg.GLB_FRAME_CTL ≠ a) : (d.putFlag a n b).clock = d.clock :=
  d.clock_putReg _ _ h

theorem Dev.clock_bumpBy (d : Dev) (a n : Nat) (h : Reg.GLB_FRAME_CTL ≠ a) : (d.bumpBy a n).clock = d.clock :=
  d.clock_putReg _ _ h

theorem Dev.clock_bump (d : Dev) (a : Nat) (h : Reg.GLB_FRAME_CTL ≠ a) : (d.bump a).clock = d.clock := d.clock_putReg _ _ h

theorem Dev.clock_setIrq (d : Dev) (dom a n : Nat) (h : Reg.GLB_FRAME_CTL ≠ a) : (d.setIrq dom a n).clock = d.clock := by
  unfold Dev.setIrq
  split
  · exact d.clock_putFlag a n true h
  · rfl

theorem Dev.clock_modCas (d : Dev) (f : Cas → Cas) : (d.modCas f).clock = d.clock := Dev.clock_of_parts rfl rfl

theorem Dev.clock_modVaud (d : Dev) (v : Nat) (f : VAud → VAud) : (d.modVaud v f).clock = d.clock := rfl

@[simp] theorem Dev.clock_emit (d : Dev) (code n : Nat) : (d.emit code n).clock = d.clock := rfl

@[simp] theorem Dev.clock_logEv (d : Dev) (source code sev : Nat) (data : List Nat) : (d.logEv source code sev data).clock = d.clock := by
  simp only [Dev.clock, Dev.cnt_logEv, d.reg_logEv_ne source code sev data Reg.GLB_FRAME_CTL (by decide)]

theorem cluReg_ne_frameCtl (c a : Nat) (h : 0x10000 ≤ a) : Reg.GLB_FRAME_CTL ≠ cluReg c a := by
  unfold cluReg
  simp only [Reg.GLB_FRAME_CTL]
  omega

theorem cluBump_clock (c reg n : Nat) (d : Dev) (h : 0x10000 ≤ reg) : (cluBump c reg n d).clock = d.clock := by
  unfold cluBump
  split
  · rfl
  · exact d.clock_bumpBy _ _ (cluReg_ne_frameCtl c reg h)

theorem cluIrq_clock (c reg n : Nat) (d : Dev) (h : 0x10000 ≤ reg) : (cluIrq c reg n d).clock = d.clock :=
  d.clock_setIrq _ _ _ (cluReg_ne_frameCtl c reg h)

theorem forUpTo_clock (n : Nat) (f : Nat → Dev → Dev) (d : Dev) (h : ∀ i d, (f i d).clock = d.clock) : (forUpTo n f d).clock = d.clock :=
  foldl_keeps Dev.clock _ (fun d i => h i d) _ _

theorem forEach_clock {β : Type} (l : List β) (f : β → Dev → Dev) (d : Dev) (h : ∀ b d, (f b d).clock = d.clock) :
    (forEach l f d).clock = d.clock := foldl_keeps Dev.clock _ (fun d b => h b d) _ _

theorem ite_clock {p : Prop} [Decidable p] {a b d : Dev} (ha : a.clock = d.clock) (hb : b.clock = d.clock) :
    (if p then a else b).clock = d.clock := by split <;> assumption

end Sys2Proof.Machine
end

section
/-! SUPPORT. The parts of a release before the audio side's latch leave the REFCLK edge and GLB_FRAME_CTL alone: the last round of the
EF, its landing, its measurements, and the late clusters' state (R58, R139, R351, R413). -/

namespace Sys2Proof.Machine

open Sys2Proof

/-! ### The arbitration round (R139) -/

theorem releaseTask_clock (i : Nat) (d : Dev) : (releaseTask i d).clock = d.clock := by
  unfold releaseTask
  split
  · rfl
  · exact Dev.clock_bump _ _ (by decide)

theorem rereleaseTask_clock (i : Nat) (d : Dev) : (rereleaseTask i d).clock = d.clock := Dev.clock_bump _ _ (by decide)

theorem releaseDue_clock (n : Nat) (d : Dev) : (releaseDue n d).clock = d.clock := by
  induction n generalizing d with
  | zero => rfl
  | succ n ih =>
    unfold releaseDue
    split
    · exact (ih _).trans (releaseTask_clock _ d)
    · rfl

theorem releaseReturned_clock (n : Nat) (d : Dev) : (releaseReturned n d).clock = d.clock := by
  induction n generalizing d with
  | zero => rfl
  | succ n ih =>
    unfold releaseReturned
    split
    · exact ite_clock ((ih _).trans (rereleaseTask_clock _ d)) rfl
    · rfl

theorem admitTask_clock (o : Offer) (d : Dev) : (admitTask o d).1.clock = d.clock := ite_clock (releaseTask_clock _ _) rfl

theorem offerHeld_clock (n : Nat) (d : Dev) : (offerHeld n d).clock = d.clock := by
  unfold offerHeld
  split
  · rfl
  · exact ite_clock rfl (ite_clock (admitTask_clock _ _) (ite_clock rfl
      ((Dev.clock_putFlag _ _ _ _ (by decide)).trans (Dev.clock_bump _ _ (by decide)))))

theorem earlierReleases_clock (n : Nat) (d : Dev) : (earlierReleases n d).clock = d.clock :=
  ite_clock ((forUpTo_clock n _ _ offerHeld_clock).trans ((releaseDue_clock _ _).trans (releaseReturned_clock _ d))) rfl

theorem landOne_clock (d : Dev) : (landOne d).1.clock = d.clock := by
  unfold landOne
  split
  · rfl
  · dsimp only
    split
    · rw [admitTask_clock, Dev.clock_modCas]
    · rfl

theorem landTasks_clock (n : Nat) (d : Dev) : (landTasks n d).clock = d.clock := by
  induction n generalizing d with
  | zero => rfl
  | succ n ih => exact ite_clock ((ih _).trans (landOne_clock d)) (landOne_clock d)

theorem roundReleases_clock (d : Dev) : (roundReleases d).clock = d.clock :=
  ite_clock ((landTasks_clock _ _).trans (earlierReleases_clock _ d)) rfl

theorem lastRound_clock (d : Dev) : (arbitrate id id d).clock = d.clock :=
  (Dev.clock_of_parts (d := roundReleases d) (by simp [arbitrate]) (by simp [arbitrate])).trans (roundReleases_clock d)

/-! ### The landing (R413, R415) -/

theorem collide_clock (off : Nat) (d : Dev) : (collide off d).clock = d.clock :=
  (Dev.clock_bump _ _ (by decide)).trans (Dev.clock_putReg _ _ _ (by decide))

theorem rejectPart_clock (d : Dev) : (rejectPart d).clock = d.clock :=
  (Dev.clock_bump _ _ (by decide)).trans ((Dev.clock_bump _ _ (by decide)).trans (Dev.clock_setIrq _ _ _ _ (by decide)))

theorem calAbort_clock (v : Nat) (d : Dev) : (calAbort v d).clock = d.clock :=
  ite_clock (ite_clock ((Dev.clock_putReg _ _ _ (by decide)).trans ((Dev.clock_setIrq _ _ _ _ (by decide)).trans
    (Dev.clock_bump _ _ (by decide)))) rfl) rfl

theorem calHostWrite_clock (off : Nat) (d : Dev) : (calHostWrite off d).clock = d.clock := ite_clock (calAbort_clock _ d) rfl

theorem landWord_clock (w : HWrite) (d : Dev) : (landWord w d).clock = d.clock := by
  have hland (e : Dev) (h : e.clock = d.clock) : (if w.mask = 0 then e else calHostWrite w.offset e).clock = d.clock :=
    ite_clock h ((calHostWrite_clock _ e).trans h)
  unfold landWord
  exact ite_clock (rejectPart_clock d) (ite_clock ((collide_clock _ _).trans (hland _ rfl)) (hland _ rfl))

theorem landDue_clock (d : Dev) : (landDue d).clock = d.clock := forEach_clock _ landWord _ landWord_clock

theorem landEnd_clock (d : Dev) : (landEnd d).clock = d.clock := landDue_clock d

/-! ### The output measurements (R351) -/

theorem raiseFault_clock (i : Nat) (legN : Bool) (kind mv : Nat) (d : Dev) : (raiseFault i legN kind mv d).clock = d.clock := by
  have hflag (e : Dev) : ((e.raise Reg.OUT_FAULT i).raiseIrq (outDom i) Reg.OUT_IRQ_STAT 0).clock = e.clock :=
    (ite_clock (Dev.clock_putFlag _ _ _ _ (by decide)) rfl).trans (Dev.clock_putFlag e _ _ _ (by decide))
  exact (Dev.clock_logEv _ _ _ _ _).trans ((Dev.clock_bump _ _ (by decide)).trans (hflag _))

theorem outSense_clock (i : Nat) (d : Dev) : (outSense i d).clock = d.clock :=
  ite_clock rfl (ite_clock rfl (ite_clock (raiseFault_clock _ _ _ _ _) (ite_clock (raiseFault_clock _ _ _ _ _) rfl)))

/-! ### The late clusters (R58, R59) -/

theorem routeErrors_clock (c tile : Nat) (words old : List Nat) (all : Bool) (d : Dev) :
    (routeErrors c tile words old all d).clock = d.clock :=
  forUpTo_clock _ _ _ fun _ _ => ite_clock ((Dev.clock_putReg _ _ _ (cluReg_ne_frameCtl _ _ (by decide))).trans
    ((cluIrq_clock _ _ _ _ (by decide)).trans (cluBump_clock _ _ _ _ (by decide)))) rfl

theorem evalPoint_clock (v b : Nat) (d : Dev) : (evalPoint v b d).clock = d.clock := by
  simp only [evalPoint, Dev.clock_modVaud, routeErrors_clock]

theorem evalNext_clock (v : Nat) (d : Dev) : (evalNext v d).clock = d.clock := ite_clock (evalPoint_clock _ _ d) rfl

theorem voiceState_clock (v t : Nat) (d : Dev) : (voiceState v t d).clock = d.clock :=
  ite_clock (evalNext_clock v d) ((cluBump_clock _ _ _ _ (by decide)).trans (evalNext_clock v d))

theorem skimOut_clock (v : Nat) (d : Dev) : (skimOut v d).clock = d.clock :=
  ite_clock rfl ((cluIrq_clock _ _ _ _ (by decide)).trans (cluBump_clock _ _ _ _ (by decide)))

theorem requestLines_clock (c lane : Nat) (ls : List Nat) (d : Dev) : (requestLines c lane ls d).clock = d.clock :=
  forEach_clock _ _ _ fun _ _ => ite_clock rfl (cluBump_clock _ _ _ _ (by decide))

theorem voiceFrame_clock (v t : Nat) (d : Dev) : (voiceFrame v t d).1.clock = d.clock := by
  unfold voiceFrame
  dsimp only
  split
  · exact evalNext_clock v d
  · simp (disch := decide) only [requestLines_clock, apply_ite Dev.clock, cluBump_clock, cluIrq_clock, Dev.clock_emit,
      Dev.clock_modVaud, evalNext_clock, ite_self]

theorem modTile_clock (v : Nat) (f : Tile → Tile) (d : Dev) : (d.modTile v f).clock = d.clock := rfl

theorem clusterFrame_clock (c : Nat) (onTime : Bool) (d : Dev) : (clusterFrame c onTime d).clock = d.clock := by
  have hmod (e : Dev) (f : Clu → Clu) : (e.modClu c f).clock = e.clock := rfl
  unfold clusterFrame
  simp only [apply_ite Dev.clock, hmod, ite_self]
  rw [forUpTo_clock _ _ _ fun _ => skimOut_clock _]
  exact forUpTo_clock _ _ _ fun t e => by simp only [apply_ite Dev.clock, modTile_clock, voiceFrame_clock, ite_self]

theorem lateState_clock (c : Nat) (d : Dev) : (lateState c d).clock = d.clock := by
  have hstate (t : Nat) (e : Dev) : (skimOut (16 * c + t) (voiceState (16 * c + t) e.now e)).clock = e.clock :=
    (skimOut_clock _ _).trans (voiceState_clock _ _ _)
  unfold lateState
  simp only [apply_ite Dev.clock, clusterFrame_clock, forUpTo_clock _ _ _ hstate, ite_self]

/-! ### The frame counts and the windows (R50, R54) -/

theorem cleanEf_clock (d : Dev) : (cleanEf d).clock = d.clock := by
  unfold cleanEf
  split <;> rfl

theorem frameEnd_clock (d : Dev) : (frameEnd d).clock = d.clock := by
  have hframe (e : Dev) (f : Frame) : ({ e with frame := f } : Dev).clock = e.clock := rfl
  unfold frameEnd
  simp (disch := decide) only [hframe, apply_ite Dev.clock, cleanEf_clock, Dev.clock_putFld, ite_self]

theorem windowEnd_clock (d : Dev) : (windowEnd d).clock = d.clock := by
  unfold windowEnd
  split
  · exact d.clock_putFld Reg.GLB_SLACK_DEV 21 16 d.frame.winMin (by decide)
  · rfl

end Sys2Proof.Machine
end

section
/-! SUPPORT. The units' parts of a release leave the REFCLK edge that it has reached (R446): the counters, the Almanac, the Parlour and
the cascade change nothing of the chronograph's but its bus and its ticks. -/

namespace Sys2Proof.Machine

open Sys2Proof

@[simp] theorem Dev.edge_emit (d : Dev) (code n : Nat) : (d.emit code n).cnt.edge = d.cnt.edge := rfl

theorem forEach_edge {β : Type} (l : List β) (f : β → Dev → Dev) (d : Dev) (h : ∀ b d, (f b d).cnt.edge = d.cnt.edge) :
    (forEach l f d).cnt.edge = d.cnt.edge := foldl_keeps (fun d : Dev => d.cnt.edge) _ (fun d b => h b d) _ _

theorem forUpTo_edge (n : Nat) (f : Nat → Dev → Dev) (d : Dev) (h : ∀ i d, (f i d).cnt.edge = d.cnt.edge) :
    (forUpTo n f d).cnt.edge = d.cnt.edge := forEach_edge _ f d h

/-! ### The Almanac and the chronograph (R121, R450) -/

@[simp] theorem countSlips_edge (n : Nat) (d : Dev) : (countSlips n d).cnt.edge = d.cnt.edge := by
  unfold countSlips
  split <;> simp

@[simp] theorem almRelease_edge (d : Dev) : (almRelease d).cnt.edge = d.cnt.edge := by simp [almRelease]

@[simp] theorem chrRelease_edge (d : Dev) : (chrRelease d).cnt.edge = d.cnt.edge := by
  unfold chrRelease
  split <;> rfl

/-! ### The voices' mirrors (R413, R415) -/

@[simp] theorem collide_edge (off : Nat) (d : Dev) : (collide off d).cnt.edge = d.cnt.edge := congrArg Prod.fst (collide_clock off d)

@[simp] theorem collideV_edge (ws : List Nat) (d : Dev) : (collideV ws d).cnt.edge = d.cnt.edge := by
  unfold collideV
  split
  · rfl
  · exact foldl_keeps (fun d : Dev => d.cnt.edge) _ (fun d off => collide_edge off d) _ _

@[simp] theorem Dev.edge_psV (d : Dev) (a : Nat) (bs : List Byte) : (d.psV a bs).cnt.edge = d.cnt.edge := by
  simp [Dev.psV, Dev.psRaw]

@[simp] theorem mirrorVoice_edge (v : Nat) (d : Dev) : (mirrorVoice v d).cnt.edge = d.cnt.edge := by
  unfold mirrorVoice
  split <;> simp

@[simp] theorem setVoice_edge (v : Nat) (f : Voice → Voice) (d : Dev) : (setVoice v f d).cnt.edge = d.cnt.edge := by
  simp [setVoice]

/-! ### The Parlour (R165, R174, R177, R537) -/

@[simp] theorem toStealing_edge (v fade : Nat) (d : Dev) : (toStealing v fade d).cnt.edge = d.cnt.edge := by
  unfold toStealing
  split <;> simp

@[simp] theorem toQuench_edge (v : Nat) (d : Dev) : (toQuench v d).cnt.edge = d.cnt.edge := by
  unfold toQuench
  dsimp only
  split
  · rfl
  · split <;> simp

@[simp] theorem toReleasing_edge (v : Nat) (d : Dev) : (toReleasing v d).cnt.edge = d.cnt.edge := by
  unfold toReleasing
  split <;> simp

@[simp] theorem offVoice_edge (v : Nat) (d : Dev) : (offVoice v d).cnt.edge = d.cnt.edge := by
  unfold offVoice
  dsimp only
  split_ifs <;> simp

@[simp] theorem firstSampleDev_edge (v : Nat) (d : Dev) : (firstSampleDev v d).cnt.edge = d.cnt.edge := by
  unfold firstSampleDev
  dsimp only
  split_ifs <;> simp

@[simp] theorem shedOne_edge (v : Nat) (d : Dev) : (shedOne v d).cnt.edge = d.cnt.edge := by
  simp only [shedOne, Dev.cnt_bump]
  split <;> simp

@[simp] theorem shedFrom_edge (set : List Nat) (pick : Nat → Bool) (n : Nat) (d : Dev) :
    (shedFrom set pick n d).cnt.edge = d.cnt.edge := by
  induction n generalizing d with
  | zero => rfl
  | succ n ih =>
    unfold shedFrom
    split
    · exact (ih _).trans (shedOne_edge _ d)
    · rfl

@[simp] theorem offerShed_edge (q : Nat) (d : Dev) : (offerShed q d).cnt.edge = d.cnt.edge := shedFrom_edge _ _ _ d

@[simp] theorem remoteRelease_edge (d : Dev) : (remoteRelease d).cnt.edge = d.cnt.edge := by
  have hshed (q : Nat) (e : Dev) :
      (if (decide (0 < q) && (workerOf e q).joined) = true then offerShed q e else e).cnt.edge = e.cnt.edge := by
    split <;> simp
  unfold remoteRelease
  split
  · simp
  · rw [forUpTo_edge _ _ _ hshed]
    simpa using forEach_edge _ firstSampleDev d firstSampleDev_edge

@[simp] theorem calTake_edge (v : Nat) (d : Dev) : (calTake v d).cnt.edge = d.cnt.edge := by
  unfold calTake
  split
  · exact congrArg Prod.fst (calAbort_clock v d)
  · rfl

@[simp] theorem chooseFor_edge (t : Task) (d : Dev) : (chooseFor t d).cnt.edge = d.cnt.edge := forEach_edge _ calTake _ calTake_edge

@[simp] theorem chooseRelease_edge (d : Dev) : (chooseRelease d).cnt.edge = d.cnt.edge := by
  refine foldl_keeps (fun x : Dev × List Task => x.1.cnt.edge) _ (fun x _ => ?_) _ _
  split
  · exact chooseFor_edge _ x.1
  · rfl

@[simp] theorem countDefer_edge (n : Nat) (d : Dev) : (countDefer n d).cnt.edge = d.cnt.edge := by
  unfold countDefer
  split <;> simp

@[simp] theorem parlourRelease_edge (d : Dev) : (parlourRelease d).cnt.edge = d.cnt.edge := by simp [parlourRelease]

/-! ### The cascade's master (R529) -/

/-- What a unit's part of a release keeps of the frame and the edge. -/
def Dev.beat (d : Dev) : Nat × Frame := (d.cnt.edge, d.frame)

theorem Dev.beat_modCas (d : Dev) (f : Cas → Cas) : (d.modCas f).beat = d.beat := rfl

theorem Dev.beat_bump (d : Dev) (a : Nat) : (d.bump a).beat = d.beat := rfl

theorem grantRelease_beat (d : Dev) : (grantRelease d).beat = d.beat := by
  simp only [grantRelease, apply_ite Dev.beat, Dev.beat_modCas, ite_self]

theorem masterRelease_beat (d : Dev) : (masterRelease d).beat = d.beat := by
  simp only [masterRelease, apply_ite Dev.beat, Dev.beat_modCas, Dev.beat_bump, grantRelease_beat, ite_self]

theorem casRelease_beat (d : Dev) : (casRelease d).beat = d.beat := by
  have hweight : (casWeight d).beat = d.beat := by simp [Dev.beat]
  unfold casRelease
  dsimp only
  split
  · exact hweight
  · split
    · exact (masterRelease_beat _).trans hweight
    · simp [Dev.beat]

end Sys2Proof.Machine
end

section
/-! PROOF. What an EF release does to the frame timer, the audio side, the latched V_A and the clock: the frame that ends is closed, the
release begins the next one, and the units take their parts of it, none of which the clock or the frame depends on (R41, R44, R473). -/

namespace Sys2Proof.Machine

open Sys2Proof

/-! ### The three parts of a release -/

/-- The frame that ends is closed: its last round, its counts, its landing, its measurements, and the late clusters' state. -/
def frameCloses (d : Dev) : Dev :=
  forUpTo 16 lateState (forUpTo 32 outSense (landEnd (edgeRelease (frameEnd (arbitrate id id d.arbEnds)))))

/-- The EF counter rises, and a window of 4,096 EF may end. -/
def frameOpens (d : Dev) : Dev :=
  windowEnd { d with frame := { d.frame with ef := if d.frame.released then efAdd d.now 1 else d.now, released := true } }

/-- The next frame begins: the EF counter rises, the audio side takes ENG_EN, and V_A is latched. -/
def frameBegins (d : Dev) : Dev :=
  let d := frameOpens d
  (audioLatch d).modMix (fun m => { m with va := at_ d.mgt.supplies 3 0 })

/-- The units' parts of a release. -/
def unitsRelease (d : Dev) : Dev :=
  let d := d.emit 1 1
  let d := if d.now % 4 = 0 then d.emit 2 1 else d
  let eff := d.eff
  let d := casRelease (mixSide eff (parlourRelease (chrRelease (almRelease (effRelease d)))))
  forUpTo 16 (fun c d => cluRelease c d.now (takeRecords c d)) d

theorem efReleaseDev_of_timerRuns {d : Dev} (h : d.timerRuns = true) :
    efReleaseDev d = unitsRelease (frameBegins (frameCloses d)) := by
  rw [efReleaseDev, if_neg (by simp [h]), unitsRelease, frameBegins, frameOpens, frameCloses]

/-! ### The frame that ends -/

/-- The frame timer's own state: its EF, whether a release has come, the reference, STEPS and the guard EF. -/
def Frame.pace (f : Frame) : Nat × Bool × Bool × Nat × Nat := (f.ef, f.released, f.refValid, f.steps, f.guardEf)

theorem cleanEf_pace (d : Dev) : (cleanEf d).frame.pace = d.frame.pace := by
  unfold cleanEf
  split <;> rfl

theorem frameEnd_pace (d : Dev) : (frameEnd d).frame.pace = d.frame.pace := by
  unfold frameEnd
  dsimp only
  split
  · rfl
  · split
    · exact cleanEf_pace _
    · rfl

theorem windowEnd_pace (d : Dev) : (windowEnd d).frame.pace = d.frame.pace := by
  unfold windowEnd
  split <;> rfl

theorem windowEnd_supplies (d : Dev) : (windowEnd d).mgt.supplies = d.mgt.supplies := by
  unfold windowEnd
  split <;> rfl

theorem Dev.supplies_logEv (d : Dev) (source code sev : Nat) (data : List Nat) :
    (d.logEv source code sev data).mgt.supplies = d.mgt.supplies := by
  unfold Dev.logEv
  dsimp only
  split <;> rfl

theorem raiseFault_supplies (i : Nat) (legN : Bool) (kind mv : Nat) (d : Dev) :
    (raiseFault i legN kind mv d).mgt.supplies = d.mgt.supplies := by
  unfold raiseFault
  rw [Dev.supplies_logEv]
  simp [Dev.raise]

theorem outSense_supplies (i : Nat) (d : Dev) : (outSense i d).mgt.supplies = d.mgt.supplies := by
  unfold outSense
  dsimp only
  split_ifs <;> simp [raiseFault_supplies]

theorem forUpTo_supplies (n : Nat) (f : Nat → Dev → Dev) (d : Dev) (h : ∀ i d, (f i d).mgt.supplies = d.mgt.supplies) :
    (forUpTo n f d).mgt.supplies = d.mgt.supplies := foldl_keeps (fun d : Dev => d.mgt.supplies) _ (fun d i => h i d) _ _

theorem edgeRelease_clock (d : Dev) : (edgeRelease d).clock = ((d.cnt.edge / 64 + 1) * 64, d.reg Reg.GLB_FRAME_CTL) :=
  congrArg (fun x => (x, d.reg Reg.GLB_FRAME_CTL)) (Nat.max_eq_right (by omega))

theorem frameCloses_clock (d : Dev) : (frameCloses d).clock = ((d.cnt.edge / 64 + 1) * 64, d.reg Reg.GLB_FRAME_CTL) := by
  have hround : (frameEnd (arbitrate id id d.arbEnds)).clock = d.clock :=
    (frameEnd_clock _).trans ((lastRound_clock _).trans (Dev.clock_of_parts rfl rfl))
  obtain ⟨hedge, hctl⟩ := Prod.mk.inj hround
  calc (frameCloses d).clock
      = (forUpTo 32 outSense (landEnd (edgeRelease (frameEnd (arbitrate id id d.arbEnds))))).clock := forUpTo_clock _ _ _ lateState_clock
    _ = (landEnd (edgeRelease (frameEnd (arbitrate id id d.arbEnds)))).clock := forUpTo_clock _ _ _ outSense_clock
    _ = (edgeRelease (frameEnd (arbitrate id id d.arbEnds))).clock := landEnd_clock _
    _ = _ := by rw [edgeRelease_clock, hedge, hctl]

theorem frameCloses_pace (d : Dev) : (frameCloses d).frame.pace = d.frame.pace := by
  have hframe : (frameCloses d).frame = (frameEnd (arbitrate id id d.arbEnds)).frame := by simp [frameCloses]
  rw [hframe, frameEnd_pace]
  simp [arbitrate, Dev.arbEnds]

theorem frameCloses_supplies (d : Dev) : (frameCloses d).mgt.supplies = d.mgt.supplies := by
  have hlate (c : Nat) (e : Dev) : (lateState c e).mgt.supplies = e.mgt.supplies := by simp
  rw [frameCloses, forUpTo_supplies _ _ _ hlate, forUpTo_supplies _ _ _ outSense_supplies]
  simp [arbitrate, Dev.arbEnds]

theorem frameCloses_pwr (d : Dev) : (frameCloses d).pwr = { d.pwr with arb := [] } := by
  simp [frameCloses, arbitrate, Dev.arbEnds]

/-- A parser that holds no task offers none. -/
theorem offerHeld_of_hold_nil {n : Nat} {d : Dev} (h : (d.ser1 n).parser.hold = []) : offerHeld n d = d := by
  unfold offerHeld
  rw [h]

theorem forUpTo_of_fixed {n : Nat} {f : Nat → Dev → Dev} {d : Dev} (h : ∀ i, i < n → f i d = d) : forUpTo n f d = d := by
  induction n with
  | zero => rfl
  | succ n ih => rw [forUpTo_succ, ih fun i hi => h i (by omega), h n (by omega)]

theorem lastRound_ser {d : Dev} (h : ∀ n, n < 4 → (d.ser1 n).parser.hold = []) : (arbitrate id id d).ser = d.ser := by
  have hlisted : (releaseListed d).ser = d.ser := by simp
  have hheld : forUpTo 4 offerHeld (releaseListed d) = releaseListed d :=
    forUpTo_of_fixed fun n hn => offerHeld_of_hold_nil (by rw [Dev.ser1, hlisted]; exact h n hn)
  have hround : (roundReleases d).ser = d.ser := by
    unfold roundReleases earlierReleases
    split
    · simp [hheld]
    · rfl
  simpa [arbitrate] using hround

theorem frameCloses_ser {d : Dev} (h : ∀ n, n < 4 → (d.ser1 n).parser.hold = []) : (frameCloses d).ser = d.ser := by
  simpa [frameCloses] using lastRound_ser (d := d.arbEnds) h

/-! ### The frame that begins -/

theorem audioLatch_frame (d : Dev) : (audioLatch d).frame =
    { d.frame with audio := d.engEn, guardEf := d.frame.guardEf + (if d.engEn then 1 else 0) } := by
  unfold audioLatch
  cases h : d.engEn <;> simp [apply_ite Dev.frame]

theorem frameOpens_pace (d : Dev) : (frameOpens d).frame.pace =
    (if d.frame.released then efAdd d.now 1 else d.now, true, d.frame.refValid, d.frame.steps, d.frame.guardEf) := windowEnd_pace _

theorem frameOpens_engEn (d : Dev) : (frameOpens d).engEn = d.engEn :=
  congrArg (fun x : Nat × Word => x.2.getLsbD 0) (windowEnd_clock _)

theorem frameBegins_frame (d : Dev) : (frameBegins d).frame = { (frameOpens d).frame with
    audio := d.engEn, guardEf := (frameOpens d).frame.guardEf + (if d.engEn then 1 else 0) } := by
  rw [← frameOpens_engEn]
  exact audioLatch_frame _

theorem frameBegins_pace (d : Dev) : (frameBegins d).frame.pace =
    (if d.frame.released then efAdd d.now 1 else d.now, true, d.frame.refValid, d.frame.steps,
      d.frame.guardEf + (if d.engEn then 1 else 0)) := by
  obtain ⟨hef, hreleased, href, hsteps, hguard⟩ : _ ∧ _ ∧ _ ∧ _ ∧ _ := by
    simpa only [Frame.pace, Prod.mk.injEq] using frameOpens_pace d
  simp only [frameBegins_frame, Frame.pace, hef, hreleased, href, hsteps, hguard]

theorem frameBegins_va (d : Dev) : (frameBegins d).mix.va = at_ d.mgt.supplies 3 0 :=
  congrArg (fun x => at_ x 3 0) (windowEnd_supplies _)

theorem frameBegins_edge (d : Dev) : (frameBegins d).cnt.edge = d.cnt.edge := by simp [frameBegins, frameOpens]

theorem frameBegins_pwr (d : Dev) : (frameBegins d).pwr = d.pwr := by simp [frameBegins, frameOpens]

theorem frameBegins_ser (d : Dev) : (frameBegins d).ser = d.ser := by simp [frameBegins, frameOpens]

/-! ### The units' parts -/

theorem effRelease_va (d : Dev) : (effRelease d).mix.va = d.mix.va := by
  simp only [effRelease, Dev.modMix]
  rw [forEach_mix _ _ d fun (e : Nat × Nat × Word) d => Dev.mix_putReg d e.2.1 (d.reg e.2.1 &&& ~~~e.2.2)]

theorem mixRelease_va (d : Dev) : (mixRelease d).mix.va = d.mix.va := by
  unfold mixRelease
  dsimp only
  split_ifs <;> simp [Dev.modMix]

theorem mixSide_va (old : Nat → Word) (d : Dev) : (mixSide old d).mix.va = d.mix.va := by
  unfold mixSide
  dsimp only
  split_ifs <;> simp [Dev.modMix, mixRelease_va]

theorem unitsRelease_va (d : Dev) : (unitsRelease d).mix.va = d.mix.va := by
  unfold unitsRelease
  dsimp only
  split_ifs <;> simp [mixSide_va, effRelease_va]

theorem unitsRelease_beat (d : Dev) : (unitsRelease d).beat = d.beat := by
  have hclu (c : Nat) (e : Dev) : (cluRelease c e.now (takeRecords c e)).beat = e.beat := by simp [Dev.beat]
  have hunits (e : Dev) : (parlourRelease (chrRelease (almRelease (effRelease e)))).beat = e.beat := by simp [Dev.beat]
  have hmix (old : Nat → Word) (e : Dev) : (mixSide old e).beat = e.beat := by simp [Dev.beat]
  have hclus (e : Dev) : (forUpTo 16 (fun c d => cluRelease c d.now (takeRecords c d)) e).beat = e.beat :=
    foldl_keeps Dev.beat _ (fun e c => hclu c e) _ _
  unfold unitsRelease
  simp only [hclus, casRelease_beat, hmix, hunits]
  split <;> rfl

theorem unitsRelease_pwr (d : Dev) : (unitsRelease d).pwr = d.pwr := by
  unfold unitsRelease
  dsimp only
  split_ifs <;> simp

theorem unitsRelease_ser (d : Dev) : (unitsRelease d).ser = d.ser := by
  unfold unitsRelease
  dsimp only
  split_ifs <;> simp

/-! ### The release -/

/-- What a release does while the frame timer runs. -/
theorem efReleaseDev_runs {d : Dev} (h : d.timerRuns = true) :
    (efReleaseDev d).frame.pace = (if d.frame.released then efAdd d.now 1 else d.now, true, true, d.frame.steps,
        d.frame.guardEf + (if d.engEn then 1 else 0)) ∧
      (efReleaseDev d).frame.audio = d.engEn ∧ (efReleaseDev d).mix.va = at_ d.mgt.supplies 3 0 ∧
      (efReleaseDev d).pwr = { d.pwr with arb := [] } ∧ (efReleaseDev d).cnt.edge = (d.cnt.edge / 64 + 1) * 64 ∧
      ((∀ n, n < 4 → (d.ser1 n).parser.hold = []) → (efReleaseDev d).ser = d.ser) := by
  have href : d.frame.refValid = true := by
    simp only [Dev.timerRuns, Bool.and_eq_true] at h
    exact h.2
  obtain ⟨hedge, hframe⟩ := Prod.mk.inj (unitsRelease_beat (frameBegins (frameCloses d)))
  obtain ⟨hclosed, hctl⟩ := Prod.mk.inj (frameCloses_clock d)
  have hen : (frameCloses d).engEn = d.engEn := congrArg (fun w : Word => w.getLsbD 0) hctl
  obtain ⟨hef, hreleased, hvalid, hsteps, hguard⟩ : _ ∧ _ ∧ _ ∧ _ ∧ _ := by
    simpa only [Frame.pace, Prod.mk.injEq] using frameCloses_pace d
  rw [efReleaseDev_of_timerRuns h, hframe, hedge]
  refine ⟨?_, ?_, ?_, ?_, ?_, ?_⟩
  · rw [frameBegins_pace, Dev.now, hef, hreleased, hvalid, hsteps, hguard, hen, href]
    rfl
  · rw [frameBegins_frame, hen]
  · rw [unitsRelease_va, frameBegins_va, frameCloses_supplies]
  · rw [unitsRelease_pwr, frameBegins_pwr, frameCloses_pwr]
  · rw [frameBegins_edge, hclosed]
  · intro hhold
    rw [unitsRelease_ser, frameBegins_ser, frameCloses_ser hhold]

end Sys2Proof.Machine
end

section
/-! PROOF. The CF boundary's work on the global LFOs, done once per boundary, and what the voices' and the shedding's changes leave of
the audio state: the clusters, the global LFOs and the boundary last done (R35, R59, R180, R242). -/

namespace Sys2Proof.Machine

open Sys2Proof

/-- The audio state that belongs to no voice and no tile. -/
def Dev.common (d : Dev) : List Clu × List GLfo × Option Nat := (d.aud.clus, d.aud.glfo, d.aud.cfDone)

theorem Dev.common_of_aud {d e : Dev} (h : e.aud = d.aud) : e.common = d.common := by rw [Dev.common, h]; rfl

theorem Dev.common_modVaud (d : Dev) (v : Nat) (f : VAud → VAud) : (d.modVaud v f).common = d.common := rfl

theorem Dev.common_modTile (d : Dev) (v : Nat) (f : Tile → Tile) : (d.modTile v f).common = d.common := rfl

theorem Dev.common_v32 (d : Dev) (a v : Nat) : (d.v32 a v).common = d.common := Dev.common_of_aud (by simp)

/-! ### A voice at a CF boundary (R224, R228, R253) -/

theorem evalPoint_common (v b : Nat) (d : Dev) : (evalPoint v b d).common = d.common := by
  simp only [evalPoint, Dev.common_modVaud]
  exact Dev.common_of_aud (by simp)

theorem evalNext_common (v : Nat) (d : Dev) : (evalNext v d).common = d.common := by
  simp only [evalNext, apply_ite Dev.common, evalPoint_common, ite_self]

theorem evalVoice_common (v B : Nat) (d : Dev) : (evalVoice v B d).common = d.common := by
  unfold evalVoice
  dsimp only
  split <;> simp only [apply_ite Dev.common, evalPoint_common, ite_self]

theorem levelWrite_common (v : Nat) (d : Dev) : (levelWrite v d).common = d.common := by
  unfold levelWrite
  split
  · simp only [Dev.common_v32, Dev.common_modVaud]
  · rfl

theorem cellApply_common (v t : Nat) (d : Dev) : (cellApply v t d).common = d.common := by
  simp only [cellApply, apply_ite Dev.common, Dev.common_modTile, ite_self]

theorem cfVoice_common (B v : Nat) (d : Dev) : (cfVoice B v d).common = d.common := by
  unfold cfVoice
  split
  · rw [cellApply_common, levelWrite_common, evalVoice_common, show (cfRead v (evalNext v d)).common = (evalNext v d).common from rfl,
      evalNext_common]
  · rfl

/-! ### The boundary (R35, R242) -/

/-- Is a CF boundary's work due? -/
def cfBoundaryDue (d : Dev) : Bool := d.timerRuns && d.frame.released && d.now % 4 == 0 && d.aud.cfDone != some d.now

theorem cfBoundaryDev_of_not_due {d : Dev} (h : cfBoundaryDue d = false) : cfBoundaryDev d = d :=
  if_pos (by rw [← cfBoundaryDue, h]; rfl)

theorem cfBoundaryDev_common {d : Dev} (h : cfBoundaryDue d = true) : (cfBoundaryDev d).common =
    (d.aud.clus, (List.range 16).map (fun g => glfoStep d.seen g (at_ d.aud.glfo g GLfo.reset)), some d.now) := by
  have hvoice (v : Nat) (e : Dev) : (if e.active (cluOf v) then cfVoice e.now v e else e).common = e.common := by
    simp only [apply_ite Dev.common, cfVoice_common, ite_self]
  unfold cfBoundaryDev
  rw [← cfBoundaryDue, if_neg (by simp [h])]
  exact foldl_keeps Dev.common _ (fun e v => hvoice v e) _ _

/-- A boundary done stays done until the next release. -/
theorem cfBoundaryDev_idem {d : Dev} (h : cfBoundaryDue d = true) : cfBoundaryDev (cfBoundaryDev d) = cfBoundaryDev d := by
  refine cfBoundaryDev_of_not_due ?_
  have hdone : (cfBoundaryDev d).aud.cfDone = some d.now := congrArg (fun x => x.2.2) (cfBoundaryDev_common h)
  simp [cfBoundaryDue, hdone, Dev.now]

/-! ### Shedding (R62, R180) -/

theorem toQuench_common (v : Nat) (d : Dev) : (toQuench v d).common = d.common := by
  unfold toQuench
  dsimp only
  split
  · rfl
  · split
    · exact Dev.common_of_aud (e := setVoice v _ d) (by simp)
    · exact Dev.common_of_aud (by simp)

theorem shedOne_common (v : Nat) (d : Dev) : (shedOne v d).common = d.common := by
  unfold shedOne
  split
  · exact (Dev.common_of_aud (by simp)).trans (toQuench_common v d)
  · exact Dev.common_of_aud (by simp)

theorem shedFrom_common (set : List Nat) (pick : Nat → Bool) (n : Nat) (d : Dev) : (shedFrom set pick n d).common = d.common := by
  induction n generalizing d with
  | zero => rfl
  | succ n ih =>
    unfold shedFrom
    split
    · exact (ih _).trans (shedOne_common _ d)
    · rfl

theorem guardShed_common (set : List Nat) (d : Dev) : (guardShed set d).common = d.common :=
  (shedFrom_common _ _ _ _).trans (Dev.common_of_aud (by simp))

end Sys2Proof.Machine
end

section
/-! PROOF. A deadline missed is counted once with the slack fields at 0, and answered by the guard and the VID loop (R50, R54, R57,
R60). -/

namespace Sys2Proof.Machine

open Sys2Proof

/-! ### The clusters under a change of one of them -/

theorem Dev.clus_of_common {d e : Dev} (h : e.common = d.common) : e.aud.clus = d.aud.clus := congrArg Prod.fst h

/-- A device whose clusters are those of d with f applied to cluster c. -/
theorem Dev.clu_of_upd_same {d e : Dev} {c : Nat} {f : Clu → Clu} (h : e.aud.clus = upd d.aud.clus c f) (hc : c < d.aud.clus.length) :
    e.clu c = f (d.clu c) := by
  rw [Dev.clu, h]
  exact (at_upd _ _ _ _ _ hc).trans (if_pos rfl)

theorem Dev.clu_of_upd_ne {d e : Dev} {c k : Nat} {f : Clu → Clu} (h : e.aud.clus = upd d.aud.clus c f) (hk : k ≠ c) :
    e.clu k = d.clu k := by
  rw [Dev.clu, h]
  simp [Dev.clu, at_, upd, List.getD_eq_getElem?_getD, Ne.symm hk]

/-! ### The late frame counted (R50, R57) -/

/-- The registers a miss counts in are apart from each other. -/
theorem slackReg_apart {c : Nat} (h : c < 16) : Reg.GLB_SLACK c ≠ Reg.MGT_CNT_LOG_DROP ∧ Reg.GLB_SLACK c ≠ Reg.GLB_FRAME_LATE := by
  simp only [Reg.GLB_SLACK, Reg.MGT_CNT_LOG_DROP, Reg.GLB_FRAME_LATE]
  omega

/-- The log's part of a late frame: cluster c notes it, and an entry may be made. -/
theorem lateLog_eq (c : Nat) (d : Dev) : ∃ f : Clu → Clu, (∀ x, (f x).missAt = x.missAt) ∧
    (lateLog c d = d.modClu c f ∨ ∃ data, lateLog c d = (d.modClu c f).logEv 0x03 0x02 1 data) := by
  unfold lateLog
  dsimp only
  split_ifs
  · exact ⟨fun x => { x with lateSince := 0, lateLogAt := some d.now }, fun _ => rfl, .inr ⟨_, rfl⟩⟩
  · exact ⟨fun x => { x with lateSince := (d.clu c).lateSince + 1 }, fun _ => rfl, .inl rfl⟩

theorem lateLog_clus (c : Nat) (d : Dev) : ∃ f : Clu → Clu, (lateLog c d).aud.clus = upd d.aud.clus c f ∧ ∀ x, (f x).missAt = x.missAt := by
  obtain ⟨f, hmiss, h | ⟨data, h⟩⟩ := lateLog_eq c d
  · exact ⟨f, by rw [h]; rfl, hmiss⟩
  · exact ⟨f, by rw [h, Dev.aud_logEv]; rfl, hmiss⟩

theorem lateLog_reg_ne (c : Nat) (d : Dev) (a : Nat) (h : a ≠ Reg.MGT_CNT_LOG_DROP) : (lateLog c d).reg a = d.reg a := by
  obtain ⟨f, -, hlog | ⟨data, hlog⟩⟩ := lateLog_eq c d
  · rw [hlog]
    rfl
  · rw [hlog]
    exact Dev.reg_logEv_ne _ _ _ _ _ _ h

theorem countLate_clus (c : Nat) (d : Dev) :
    ∃ f : Clu → Clu, (countLate c d).aud.clus = upd d.aud.clus c f ∧ ∀ x, (f x).missAt = x.missAt := by
  obtain ⟨f, hf, hmiss⟩ := lateLog_clus c ((((d.bump Reg.GLB_FRAME_LATE).bumpFld (Reg.GLB_SLACK c) 31 16 1).emit (32 + c) 1).modClu c
    (fun x => { x with lateAt := some (lateGuardEf d) }))
  refine ⟨f ∘ fun x => { x with lateAt := some (lateGuardEf d) }, ?_, fun x => hmiss _⟩
  exact hf.trans (List.modify_modify_eq ..)

/-- The lower fields of GLB_SLACKc, below the count of late frames. -/
theorem countLate_slack (c : Nat) (d : Dev) (hi lo : Nat) (hc : c < 16) (h : hi < 16) :
    (countLate c d).fld (Reg.GLB_SLACK c) hi lo = d.fld (Reg.GLB_SLACK c) hi lo := by
  have hlog : (countLate c d).fld (Reg.GLB_SLACK c) hi lo =
      ((d.bump Reg.GLB_FRAME_LATE).bumpFld (Reg.GLB_SLACK c) 31 16 1).fld (Reg.GLB_SLACK c) hi lo :=
    congrArg (fun w : Word => w.bits hi lo) (lateLog_reg_ne _ _ _ (slackReg_apart hc).1)
  rw [hlog, Dev.bumpFld, Dev.fld_putFld_other _ _ _ _ _ _ _ _ (by decide) (by decide) (.inr (.inl h))]
  exact congrArg (fun w : Word => w.bits hi lo) (d.reg_bump_ne _ _ (slackReg_apart hc).2)

theorem countLate_frameLate (c : Nat) (d : Dev) (hc : c < 16) :
    (countLate c d).fld Reg.GLB_FRAME_LATE 31 0 = min (d.fld Reg.GLB_FRAME_LATE 31 0 + 1) (2 ^ 32 - 1) := by
  have hlog : (countLate c d).fld Reg.GLB_FRAME_LATE 31 0 =
      ((d.bump Reg.GLB_FRAME_LATE).bumpFld (Reg.GLB_SLACK c) 31 16 1).fld Reg.GLB_FRAME_LATE 31 0 :=
    congrArg (fun w : Word => w.bits 31 0) (lateLog_reg_ne _ _ _ (by decide))
  rw [hlog, Dev.bumpFld, Dev.fld_putFld_other _ _ _ _ _ _ _ _ (by decide) (by decide) (.inl (slackReg_apart hc).2.symm), Dev.bump, Dev.bumpBy]
  exact Dev.fld_bumpFld _ _ _ _ _ (by decide) (by decide)

/-! ### The guard's and the VID loop's answer (R54, R60) -/

theorem guardSteps_frame (n : Nat) (d : Dev) : (guardSteps n d).frame = { d.frame with steps := n } := by simp [guardSteps]

theorem lateEf_common (set : List Nat) (d : Dev) : (lateEf set d).common = d.common := by
  have hsteps (n : Nat) (e : Dev) : (guardSteps n e).common = e.common := Dev.common_of_aud (by simp)
  have hemit (code n : Nat) (e : Dev) : (e.emit code n).common = e.common := rfl
  have hframe (f : Frame) (e : Dev) : ({ e with frame := f } : Dev).common = e.common := rfl
  simp only [lateEf, apply_ite Dev.common, guardShed_common, hsteps, hframe, hemit, ite_self]

theorem lateEf_timing (set : List Nat) (d : Dev) : (lateEf set d).frame.lateIdx = some (lateGuardEf d) ∧ (lateEf set d).now = d.now := by
  unfold lateEf
  dsimp only
  split_ifs with h <;> simp [Dev.now, guardSteps_frame, h]

theorem lateEf_fourth {set : List Nat} {d : Dev} (hidx : d.frame.lateIdx ≠ some (lateGuardEf d)) (hopen : d.frame.winOpen = true)
    (hwin : lateGuardEf d < d.frame.winStart + 1024) (hlate : d.frame.winLate = 3) :
    (lateEf set d).frame.steps = (if d.frame.steps < 12 then d.frame.steps + 1 else d.frame.steps) ∧
      (lateEf set d).frame.winOpen = false := by
  simp only [lateEf, if_neg hidx, Dev.frame_emit, hopen, hwin, hlate, and_self, if_true]
  split_ifs <;> simp [guardSteps_frame]

theorem lateEf_earlier {set : List Nat} {d : Dev} (h : d.frame.winLate ≠ 3) :
    (lateEf set d).frame.steps = d.frame.steps ∧ (lateEf set d).regs = d.regs := by
  unfold lateEf
  dsimp only
  split_ifs with _ _ hfourth
  · exact ⟨rfl, rfl⟩
  · exact absurd hfourth h
  · exact absurd hfourth h
  · exact ⟨rfl, rfl⟩
  · exact ⟨rfl, rfl⟩

theorem vidRequest_frame (code : Nat) (d : Dev) : ∃ v, (vidRequest code d).frame = { d.frame with vid := v } := by
  simp only [vidRequest, vidDrive]
  split_ifs
  · exact ⟨_, rfl⟩
  · exact ⟨d.frame.vid, rfl⟩
  · exact ⟨_, rfl⟩

theorem vidLate_frame (d : Dev) : ∃ v, (vidLate d).frame = { d.frame with vid := v } := by
  unfold vidLate
  split
  · obtain ⟨v, hv⟩ := vidRequest_frame (min (d.frame.vid.code + 4) 15) d
    refine ⟨{ v with down := 0, holdoff := 16 }, ?_⟩
    simp only [Dev.modVid, hv]
  · exact ⟨d.frame.vid, rfl⟩

/-! ### The deadline missed -/

/-- Is a miss of cluster c to be taken? -/
def missDue (c : Nat) (d : Dev) : Bool :=
  decide (c < 16) && d.active c && (d.clu c).due.contains (efAdd d.now (efWrap - 1)) && (d.clu c).missAt != some d.now

/-- The late frame of cluster c counted, with LAST and MIN at 0. -/
def missCounted (c : Nat) (d : Dev) : Dev :=
  countLate c (((d.modClu c (fun x => { x with missAt := some d.now })).putFld (Reg.GLB_SLACK c) 5 0 0).putFld (Reg.GLB_SLACK c) 13 8 0)

theorem deadlineMissDev_of_not_due {c : Nat} {d : Dev} (h : missDue c d = false) : deadlineMissDev c d = d :=
  if_pos (congrArg (!·) h)

theorem deadlineMissDev_of_due {c : Nat} {d : Dev} (h : missDue c d = true) :
    deadlineMissDev c d = vidLate (lateEf (lateSet d) (missCounted c d)) := by
  have hdue : ¬ (!missDue c d) = true := by simp [h]
  exact if_neg hdue

theorem missCounted_frame (c : Nat) (d : Dev) : (missCounted c d).frame = d.frame := by simp [missCounted]

theorem missCounted_clus (c : Nat) (d : Dev) :
    ∃ f : Clu → Clu, (missCounted c d).aud.clus = upd d.aud.clus c f ∧ ∀ x, (f x).missAt = some d.now := by
  obtain ⟨f, hf, hmiss⟩ := countLate_clus c
    (((d.modClu c (fun x => { x with missAt := some d.now })).putFld (Reg.GLB_SLACK c) 5 0 0).putFld (Reg.GLB_SLACK c) 13 8 0)
  exact ⟨f ∘ fun x => { x with missAt := some d.now }, hf.trans (List.modify_modify_eq ..), fun x => hmiss _⟩

theorem missCounted_slack (c : Nat) (d : Dev) (hc : c < 16) : (missCounted c d).fld (Reg.GLB_SLACK c) 5 0 = 0 ∧
    (missCounted c d).fld (Reg.GLB_SLACK c) 13 8 = 0 := by
  constructor
  · rw [missCounted, countLate_slack _ _ _ _ hc (by decide), Dev.fld_putFld_other _ _ _ _ _ _ _ _ (by decide) (by decide) (by omega)]
    exact Dev.fld_putFld_same _ _ _ _ _ (by decide) (by decide)
  · rw [missCounted, countLate_slack _ _ _ _ hc (by decide)]
    exact Dev.fld_putFld_same _ _ _ _ _ (by decide) (by decide)

theorem missCounted_frameLate (c : Nat) (d : Dev) (hc : c < 16) :
    (missCounted c d).fld Reg.GLB_FRAME_LATE 31 0 = min (d.fld Reg.GLB_FRAME_LATE 31 0 + 1) (2 ^ 32 - 1) := by
  have hne : Reg.GLB_FRAME_LATE ≠ Reg.GLB_SLACK c := (slackReg_apart hc).2.symm
  rw [missCounted, countLate_frameLate _ _ hc, Dev.fld_putFld_other _ _ _ _ _ _ _ _ (by decide) (by decide) (.inl hne),
    Dev.fld_putFld_other _ _ _ _ _ _ _ _ (by decide) (by decide) (.inl hne)]
  rfl

/-- What a miss does to the clusters: it is noted in cluster c, and the others stay. -/
theorem deadlineMissDev_clus {c : Nat} {d : Dev} (h : missDue c d = true) :
    ∃ f : Clu → Clu, (deadlineMissDev c d).aud.clus = upd d.aud.clus c f ∧ ∀ x, (f x).missAt = some d.now := by
  obtain ⟨f, hf, hmiss⟩ := missCounted_clus c d
  refine ⟨f, ?_, hmiss⟩
  have haud (e : Dev) : (vidLate e).aud = e.aud := by simp
  rw [deadlineMissDev_of_due h, haud, Dev.clus_of_common (lateEf_common _ _), hf]

theorem deadlineMissDev_clu_ne (c : Nat) (d : Dev) {k : Nat} (hk : k ≠ c) : (deadlineMissDev c d).clu k = d.clu k := by
  cases h : missDue c d with
  | false => rw [deadlineMissDev_of_not_due h]
  | true =>
    obtain ⟨f, hf, -⟩ := deadlineMissDev_clus h
    exact Dev.clu_of_upd_ne hf hk

theorem deadlineMissDev_clus_length (c : Nat) (d : Dev) : (deadlineMissDev c d).aud.clus.length = d.aud.clus.length := by
  cases h : missDue c d with
  | false => rw [deadlineMissDev_of_not_due h]
  | true =>
    obtain ⟨f, hf, -⟩ := deadlineMissDev_clus h
    rw [hf, upd_length]

theorem deadlineMissDev_now (c : Nat) (d : Dev) : (deadlineMissDev c d).now = d.now := by
  cases h : missDue c d with
  | false => rw [deadlineMissDev_of_not_due h]
  | true =>
    obtain ⟨v, hv⟩ := vidLate_frame (lateEf (lateSet d) (missCounted c d))
    rw [deadlineMissDev_of_due h, Dev.now, hv]
    exact (lateEf_timing _ _).2.trans (congrArg Frame.ef (missCounted_frame c d))

/-- A miss taken is taken once. -/
theorem deadlineMissDev_idem {c : Nat} {d : Dev} (h : missDue c d = true) (hlen : c < d.aud.clus.length) :
    ((deadlineMissDev c d).clu c).missAt = some d.now ∧ deadlineMissDev c (deadlineMissDev c d) = deadlineMissDev c d := by
  obtain ⟨f, hf, hmiss⟩ := deadlineMissDev_clus h
  have hnoted : ((deadlineMissDev c d).clu c).missAt = some d.now := by rw [Dev.clu_of_upd_same hf hlen, hmiss]
  exact ⟨hnoted, deadlineMissDev_of_not_due (by simp [missDue, hnoted, deadlineMissDev_now])⟩

/-- The guard's part of a miss (R57, R60). -/
theorem deadlineMissDev_guard {c : Nat} {d : Dev} (h : missDue c d = true) :
    (deadlineMissDev c d).frame.lateIdx = some (lateGuardEf d) ∧
      (d.frame.lateIdx ≠ some (lateGuardEf d) → d.frame.winOpen = true → lateGuardEf d < d.frame.winStart + 1024 → d.frame.winLate = 3 →
        (deadlineMissDev c d).frame.steps = (if d.frame.steps < 12 then d.frame.steps + 1 else d.frame.steps) ∧
          (deadlineMissDev c d).frame.winOpen = false) ∧
      (d.frame.winLate ≠ 3 → (deadlineMissDev c d).frame.steps = d.frame.steps ∧
        ∀ a, (deadlineMissDev c d).reg a = (missCounted c d).reg a) := by
  have hframe := missCounted_frame c d
  have hguard : lateGuardEf (missCounted c d) = lateGuardEf d := by rw [lateGuardEf, hframe, lateGuardEf]
  obtain ⟨v, hv⟩ := vidLate_frame (lateEf (lateSet d) (missCounted c d))
  rw [deadlineMissDev_of_due h, hv]
  refine ⟨?_, fun hidx hopen hwin hlate => ?_, fun hlate => ?_⟩
  · rw [← hguard]
    exact (lateEf_timing _ _).1
  · rw [← hframe] at hidx hopen hwin hlate ⊢
    rw [← hguard] at hidx hwin
    exact lateEf_fourth hidx hopen hwin hlate
  · rw [← hframe] at hlate ⊢
    obtain ⟨hsteps, hregs⟩ := lateEf_earlier (set := lateSet d) hlate
    exact ⟨hsteps, fun a => by rw [Dev.reg, (vidLate_keeps _).1, hregs]; rfl⟩

/-- The counts of a miss that does not raise STEPS (R50, R57). -/
theorem deadlineMissDev_counts {c : Nat} {d : Dev} (h : missDue c d = true) (hc : c < 16) (hlate : d.frame.winLate ≠ 3) :
    (deadlineMissDev c d).frame.steps = d.frame.steps ∧ (deadlineMissDev c d).fld (Reg.GLB_SLACK c) 5 0 = 0 ∧
      (deadlineMissDev c d).fld (Reg.GLB_SLACK c) 13 8 = 0 ∧
      (deadlineMissDev c d).fld Reg.GLB_FRAME_LATE 31 0 = min (d.fld Reg.GLB_FRAME_LATE 31 0 + 1) (2 ^ 32 - 1) := by
  obtain ⟨-, -, hearlier⟩ := deadlineMissDev_guard h
  obtain ⟨hsteps, hregs⟩ := hearlier hlate
  have hfld (a hi lo : Nat) : (deadlineMissDev c d).fld a hi lo = (missCounted c d).fld a hi lo :=
    congrArg (fun w : Word => w.bits hi lo) (hregs a)
  simp only [hfld]
  exact ⟨hsteps, (missCounted_slack c d hc).1, (missCounted_slack c d hc).2, missCounted_frameLate c d hc⟩

end Sys2Proof.Machine
end

section
/-! PROOF. A cluster's frame delivered, ended, or left to its flush (R42, R50, R58); the flush itself (R59); and the statement on
releases and clusters. -/

namespace Sys2Proof.Machine

open Sys2Proof

/-! ### The frame delivered (R42, R50) -/

/-- Can a frame of cluster c be delivered at all? -/
def deliverable (c : Nat) (d : Dev) : Bool := decide (c < 16) && d.cluOn c && d.timerRuns

theorem clusterFrameDeliveredDev_of_not_deliverable {c : Nat} (n : Nat) {d : Dev} (h : deliverable c d = false) :
    clusterFrameDeliveredDev c n d = d := if_pos (congrArg (!·) h)

/-- No frame is delivered while a flush covers all that are in the queue. -/
theorem clusterFrameDeliveredDev_of_flushed {c : Nat} (n : Nat) {d : Dev} (h : ∀ e ∈ (d.clu c).due, (d.clu c).flushAt = some e) :
    clusterFrameDeliveredDev c n d = d := by
  have hnone : (d.clu c).due.find? (fun e => (d.clu c).flushAt != some e) = none :=
    List.find?_eq_none.mpr fun e he => by simp [h e he]
  unfold clusterFrameDeliveredDev
  rw [hnone]
  exact ite_self _

/-- The oldest frame of the queue, which no flush covers, finishes: an older one only ends, the present one is delivered. -/
theorem clusterFrameDeliveredDev_head {c e : Nat} {r : List Nat} (n : Nat) {d : Dev} (h : deliverable c d = true)
    (hdue : (d.clu c).due = e :: r) (hflush : (d.clu c).flushAt ≠ some e) :
    clusterFrameDeliveredDev c n d =
      if e ≠ d.now then d.modClu c (fun x => { x with due := x.due.filter (· != e) })
      else if n = 0 then d
      else countClean (clusterFrame c true (slackRecord c (min n 63) (d.modClu c (fun x => { x with due := x.due.filter (· != e) })))) := by
  have hfirst : (d.clu c).due.find? (fun e => (d.clu c).flushAt != some e) = some e := by
    rw [hdue]
    exact List.find?_cons_of_pos (by simpa using hflush)
  have hgo : ¬ (!deliverable c d) = true := by simp [h]
  unfold clusterFrameDeliveredDev
  rw [hfirst]
  exact if_neg hgo

theorem cleanEf_slackNow (d : Dev) : (cleanEf d).frame.slackNow = d.frame.slackNow := by
  unfold cleanEf
  split <;> rfl

theorem countClean_slackNow (d : Dev) : (countClean d).frame.slackNow = d.frame.slackNow := by
  unfold countClean
  split
  · exact cleanEf_slackNow d
  · rfl

theorem slackRecord_slackNow (c slack : Nat) (d : Dev) :
    (slackRecord c slack d).frame.slackNow = d.frame.slackNow ++ [(c, slack)] := rfl

theorem clusterFrameDeliveredDev_slackNow {c n : Nat} {r : List Nat} {d : Dev} (h : deliverable c d = true)
    (hdue : (d.clu c).due = d.now :: r) (hflush : (d.clu c).flushAt ≠ some d.now) (hn : 0 < n) :
    (clusterFrameDeliveredDev c n d).frame.slackNow = d.frame.slackNow ++ [(c, min n 63)] := by
  have hframe (e : Dev) : (clusterFrame c true e).frame = e.frame := by simp
  rw [clusterFrameDeliveredDev_head n h hdue hflush, if_neg (by simp), if_neg (by omega), countClean_slackNow, hframe,
    slackRecord_slackNow]
  rfl

/-! ### The flush (R59) -/

/-- Has release k + 2 found frame k of an active cluster unfinished, and not flushed it yet? -/
def flushDue (c : Nat) (d : Dev) : Bool :=
  decide (c < 16) && d.active c && d.timerRuns && (d.clu c).due.contains (efAdd d.now (efWrap - 2)) &&
    (d.clu c).flushAt != some (efAdd d.now (efWrap - 2))

theorem clusterFlushDev_of_due {c : Nat} {d : Dev} (h : flushDue c d = true) : ∃ data,
    clusterFlushDev c d = ((resetAt c d.now (deadlineMissDev c d)).modClu c (fun x => { x with
      due := [d.now], flushAt := some d.now, fadeAt := fadeFrom d c })).logEv 0x03 0x03 2 data := by
  have hdue : ¬ (!flushDue c d) = true := by simp [h]
  have hnow : (resetAt c d.now (deadlineMissDev c d)).now = d.now := deadlineMissDev_now c d
  have hflush : clusterFlushDev c d = _ := if_neg hdue
  rw [hnow] at hflush
  exact ⟨_, hflush⟩

/-- The cluster that is flushed, and those that are not. -/
theorem clusterFlushDev_clu {c : Nat} {d : Dev} (h : flushDue c d = true) (hlen : c < d.aud.clus.length) :
    (clusterFlushDev c d).clu c = { (resetAt c d.now (deadlineMissDev c d)).clu c with
      due := [d.now], flushAt := some d.now, fadeAt := fadeFrom d c } ∧
    ∀ k, k ≠ c → (clusterFlushDev c d).clu k = d.clu k := by
  obtain ⟨data, hflush⟩ := clusterFlushDev_of_due h
  have hclus : (clusterFlushDev c d).aud.clus = upd (resetAt c d.now (deadlineMissDev c d)).aud.clus c (fun x => { x with
      due := [d.now], flushAt := some d.now, fadeAt := fadeFrom d c }) := by
    rw [hflush, Dev.aud_logEv]
    rfl
  have hreset : (resetAt c d.now (deadlineMissDev c d)).aud.clus = upd (deadlineMissDev c d).aud.clus c
      (fun x => { x with resets := if x.resets.contains d.now then x.resets else x.resets ++ [d.now] }) := rfl
  refine ⟨Dev.clu_of_upd_same hclus ?_, fun k hk => ?_⟩
  · rwa [hreset, upd_length, deadlineMissDev_clus_length]
  · rw [Dev.clu_of_upd_ne hclus hk, Dev.clu_of_upd_ne hreset hk, deadlineMissDev_clu_ne c d hk]

theorem clusterFlushDev_fades {c : Nat} {d : Dev} (h : flushDue c d = true) :
    fadeFrom d c = if (d.clu c).fadeAt.isNone then some d.now else (d.clu c).fadeAt := by
  simp only [flushDue, Bool.and_eq_true] at h
  obtain ⟨⟨-, hdue⟩, hflush⟩ := h
  simp only [fadeFrom, hdue, hflush, Bool.and_true]

/-! ### The statement -/

/-- Settles O4: the release by its three parts, the CF boundary by what the voices leave alone, the clusters by what each command makes
of one of them. -/
theorem releasesAdvanceAndClustersDeliver : Obligations.ReleasesAdvanceAndClustersDeliver := by
  unfold Obligations.ReleasesAdvanceAndClustersDeliver
  refine ⟨⟨fun s hruns => ?_, fun s hruns => ?_⟩, ⟨fun s hruns hrel hcf hdone => ?_, fun s hquiet => ?_⟩,
    ⟨fun s c n r hc hon hruns hdue hn hflush => ?_, fun s c n e r hc hon hruns hdue he hflush => ?_, fun s c n hall => ?_,
      fun s c r hdue hflush => ?_, fun s c n hruns => ?_, fun s c hact => ?_, fun s c hc hact hlate hmiss hlen => ?_⟩,
    fun s c hc hlen hact hruns hdue hflush => ?_⟩
  · obtain ⟨hpace, haudio, hva, hpwr, hedge, hser⟩ := efReleaseDev_runs hruns
    obtain ⟨hef, hreleased, href, hsteps, hguard⟩ : _ ∧ _ ∧ _ ∧ _ ∧ _ := by simpa only [Frame.pace, Prod.mk.injEq] using hpace
    exact (yields_devNext _ rfl).mpr
      ⟨hef, hreleased, haudio, hguard, href, hsteps, hva, hpwr, efReleaseDev_keeps _, hedge, hser⟩
  · exact devNext_same (if_pos (by rw [hruns]; rfl))
  · have hdue : cfBoundaryDue s.dev = true := by simp [cfBoundaryDue, hruns, hrel, hcf, hdone]
    have hcommon := cfBoundaryDev_common hdue
    refine (yields_devNext _ rfl).mpr ⟨congrArg (fun x => x.2.2) hcommon, ?_, congrArg (fun x => x.2.1) hcommon, ?_, ?_, ?_, ?_,
      devNext_same (cfBoundaryDev_idem hdue)⟩ <;> simp [Dev.now]
  · refine devNext_same (cfBoundaryDev_of_not_due ?_)
    obtain hcf | hrel := hquiet
    · simp [cfBoundaryDue, hcf]
    · simp [cfBoundaryDue, hrel]
  · have hgo : deliverable c s.dev = true := by simp [deliverable, hc, hon, hruns]
    refine (yields_devNext _ rfl).mpr ⟨clusterFrameDeliveredDev_slackNow hgo hdue hflush hn, ?_⟩
    simp
  · have hgo : deliverable c s.dev = true := by simp [deliverable, hc, hon, hruns]
    exact congrArg (fun d => Host.Outcome.next { s with dev := d })
      ((clusterFrameDeliveredDev_head n hgo hdue hflush).trans (if_pos he))
  · exact devNext_same (clusterFrameDeliveredDev_of_flushed n hall)
  · refine devNext_same ?_
    cases hgo : deliverable c s.dev with
    | false => exact clusterFrameDeliveredDev_of_not_deliverable 0 hgo
    | true => rw [clusterFrameDeliveredDev_head 0 hgo hdue hflush, if_neg (by simp), if_pos rfl]
  · exact devNext_same (clusterFrameDeliveredDev_of_not_deliverable n (by simp [deliverable, hruns]))
  · exact devNext_same (deadlineMissDev_of_not_due (by simp [missDue, hact]))
  · have hdue : missDue c s.dev = true := by simpa [missDue, hc, hact, hmiss] using hlate
    obtain ⟨hnoted, hidem⟩ := deadlineMissDev_idem hdue hlen
    obtain ⟨hidx, hfourth, -⟩ := deadlineMissDev_guard hdue
    exact (yields_devNext _ rfl).mpr
      ⟨hnoted, hidx, hfourth, deadlineMissDev_counts hdue hc, by simp, by simp, devNext_same hidem⟩
  · have hgo : flushDue c s.dev = true := by simpa [flushDue, hc, hact, hruns, hflush] using hdue
    obtain ⟨hclu, hothers⟩ := clusterFlushDev_clu hgo hlen
    refine (yields_devNext _ rfl).mpr ⟨by rw [hclu], by rw [hclu], ?_, by rw [hclu, clusterFlushDev_fades hgo],
      fun k hk => by rw [hothers k hk], by simp, by simp, by simp⟩
    rw [hclu]
    exact resetAt_clu c s.dev.now (deadlineMissDev c s.dev) (by rwa [deadlineMissDev_clus_length])

end Sys2Proof.Machine
end

section
/-! PROOF. The deadline guard's window and STEPS, MIN_CLR, and the VID loop at a window's end, at the rail's report and at a time-out
(R54 to R61, R70). -/

namespace Sys2Proof.Machine

open Sys2Proof

theorem devNext_of_eq {s : State} {f : Dev → Dev} {d : Dev} (h : f s.dev = d) : devNext s f = .next { s with dev := d } := by
  rw [devNext, State.onDev, h]

/-! ### The guard (R60, R61) -/

theorem guardWindowEndDev_of_ended {d : Dev} (hopen : d.frame.winOpen = true) (hend : d.frame.winStart + 1024 ≤ d.frame.guardEf) :
    guardWindowEndDev d = { d with frame := { d.frame with winOpen := false, winLate := 0, winSet := [] } } := if_pos ⟨hopen, hend⟩

theorem guardWindowEndDev_of_running {d : Dev} (h : d.frame.guardEf < d.frame.winStart + 1024) : guardWindowEndDev d = d :=
  if_neg fun ⟨_, hend⟩ => absurd hend (by omega)

theorem guardSteps_bus (n : Nat) (d : Dev) : (guardSteps n d).cnt.bus = d.busWith 19 1 :=
  congrArg Counters.bus (Dev.cnt_logEv ..)

theorem guardStepDownDev_of_due {d : Dev} (haudio : d.frame.audio = true) (hsteps : 0 < d.frame.steps) (hclean : 65536 ≤ d.frame.clean)
    (hat : d.frame.cleanAt ≠ some d.now) : guardStepDownDev d =
      guardSteps (d.frame.steps - 1) { d with frame := { d.frame with clean := 0, stepEf := true } } :=
  if_pos ⟨haudio, hsteps, hclean, .inr hat⟩

theorem guardStepDownDev_of_not_due {d : Dev} (h : d.frame.steps = 0 ∨ d.frame.clean < 65536) : guardStepDownDev d = d :=
  if_neg fun ⟨_, hsteps, hclean, _⟩ => by omega

/-! ### The slack fields (R70) -/

theorem slackMinClearDev_of_set {c : Nat} {v : Word} (d : Dev) (hc : c < 16) (hv : v.getLsbD 15 = true) :
    slackMinClearDev c v d = d.putFld (Reg.GLB_SLACK c) 13 8 63 := if_pos ⟨hc, hv⟩

/-! ### The VID loop (R53 to R56) -/

theorem vidPins_of_fault {d : Dev} (h : d.frame.vid.fault = true) : vidPins d = 15 := if_pos h

theorem vidPins_of_vidLoopRuns {d : Dev} (h : vidLoopRuns d = true) : vidPins d = d.frame.vid.code := by
  simp only [vidLoopRuns, Bool.and_eq_true, Bool.not_eq_true'] at h
  obtain ⟨⟨⟨⟨hon, -⟩, -⟩, hmanual⟩, hfault⟩ := h
  simp [vidPins, hon, hmanual, hfault]

theorem vidLow_of_code_lt {d : Dev} (h : d.frame.vid.code < 15) : vidLow d = d := if_neg fun ⟨hcode, _⟩ => by omega

/-- The device once the loop has seen the end of its window, one window of the hold-off gone and no step down counted (R54). -/
def vidWindowSeen (d : Dev) : Dev :=
  { d with frame := { d.frame with
      winDone := true, vid := { d.frame.vid with holdoff := d.frame.vid.holdoff - 1, down := 0 } } }

/-- The device with a new code put on the pins and the settling wait begun (R55). -/
def vidDriven (code : Nat) (d : Dev) : Dev :=
  (d.modVid (fun x => { x with code := code, requested := code, settling := true, settled := false })).emit 20 1

theorem vidRequest_at_rest {d : Dev} {code : Nat} (hrest : d.frame.vid.settling = false) (hnew : code ≠ d.frame.vid.code) :
    vidRequest code d = vidDriven code d := by
  simp [vidRequest, vidDrive, vidDriven, hrest, hnew]

/-- At a window's end with slack below 16, a loop at rest raises the code by 1 (R54, R55). -/
theorem vidWindowEndDev_raises {d : Dev} (hdone : d.frame.winDone = false) (hruns : vidLoopRuns d = true)
    (hslack : d.fld Reg.GLB_SLACK_DEV 21 16 < 16) (hrest : d.frame.vid.settling = false) (hcode : d.frame.vid.code < 15) :
    vidWindowEndDev d = vidDriven (d.frame.vid.code + 1) (vidWindowSeen d) := by
  have hseen : vidWindowEndDev d = vidRequest (min (d.frame.vid.code + 1) 15) (vidLow (vidWindowSeen d)) :=
    (if_neg (by simp [hdone, hruns])).trans (if_pos hslack)
  rw [hseen, vidLow_of_code_lt (d := vidWindowSeen d) hcode, Nat.min_eq_left hcode,
    Nat.succ_eq_add_one, vidRequest_at_rest (d := vidWindowSeen d) hrest (Nat.succ_ne_self d.frame.vid.code)]

theorem vidLoopRuns_vidWindowSeen (d : Dev) : vidLoopRuns (vidWindowSeen d) = vidLoopRuns d := rfl

theorem vidLoopRuns_vidDriven (code : Nat) (d : Dev) : vidLoopRuns (vidDriven code d) = vidLoopRuns d := rfl

/-- While the loop runs, a code it drives is on the pins (R53, R55). -/
theorem vidPins_vidDriven {d : Dev} (code : Nat) (h : vidLoopRuns d = true) : vidPins (vidDriven code d) = code :=
  vidPins_of_vidLoopRuns ((vidLoopRuns_vidDriven code d).trans h)

/-- The rail's report ends a wait in which no request fell due (R55). -/
theorem vidSettledDev_of_settling {d : Dev} (hwait : d.frame.vid.settling = true) (hreq : d.frame.vid.request = none) :
    vidSettledDev d = d.modVid (fun x => { x with settled := true, timeouts := 0, settling := false, request := none }) := by
  simp [vidSettledDev, vidWaitEnds, Dev.modVid, hwait, hreq]

/-- The VID loop stopped for a fault, which is logged and pulls FAULT_N low (R55, R56, R519). -/
def vidStopped (d : Dev) : Dev :=
  ((d.modVid (fun x => { x with fault := true, settling := false, request := none })).logEv 0x04 0x02 3 []).setFault 1

theorem vidSettleTimeoutDev_of_rest {d : Dev} (h : d.frame.vid.settling = false) : vidSettleTimeoutDev d = d :=
  if_pos (by rw [h]; rfl)

/-- The third time-out in a row stops the loop (R55). -/
theorem vidSettleTimeoutDev_third {d : Dev} (hwait : d.frame.vid.settling = true) (hthird : d.frame.vid.timeouts = 2) :
    ∃ e, vidSettleTimeoutDev d = vidStopped e := by
  simp only [vidSettleTimeoutDev, hwait, hthird]
  exact ⟨_, rfl⟩

theorem vidStopped_frame (d : Dev) : (vidStopped d).frame =
    { d.frame with vid := { d.frame.vid with fault := true, settling := false, request := none } } := by
  simp [vidStopped, Dev.modVid]

/-- MGT_FAULT.VID shows the loop's fault (R525). -/
theorem faultBits_vid (d : Dev) : (faultBits d).getLsbD 1 = d.frame.vid.fault := by
  rw [faultBits, Word.getLsbD_setBits _ _ _ _ _ (by decide) (by decide), if_neg (by decide),
    Word.getLsbD_setBits _ _ _ _ _ (by decide) (by decide), if_neg (by decide),
    Word.getLsbD_setBits _ _ _ _ _ (by decide) (by decide), if_pos (by decide)]
  cases d.frame.vid.fault <;> rfl

/-- A VID fault pulls FAULT_N low whatever its enable (R519, R525). -/
theorem faultLow_of_vid_fault {d : Dev} (h : d.frame.vid.fault = true) : faultLow d = true := by
  have hbit : (faultBits d &&& (d.reg Reg.MGT_FAULT_EN ||| 0x0E)).getLsbD 1 = true := by
    rw [BitVec.getLsbD_and, faultBits_vid, h, BitVec.getLsbD_or, show (0x0E : Word).getLsbD 1 = true by decide, Bool.or_true]
    rfl
  have hne : faultBits d &&& (d.reg Reg.MGT_FAULT_EN ||| 0x0E) ≠ 0 := fun e => by
    rw [e] at hbit
    exact absurd hbit (by decide)
  exact (Bool.or_eq_true ..).mpr (.inr (bne_iff_ne.mpr hne))

/-! ### The statement -/

/-- Settles O5: what each of the guard's and the VID loop's commands makes of the device, case by case. -/
theorem guardAndVidLoopsStep : Obligations.GuardAndVidLoopsStep := by
  unfold Obligations.GuardAndVidLoopsStep
  refine ⟨⟨fun s hopen hend => ?windowEnds, fun s hruns => ?windowRuns, fun s haudio hsteps hclean hat => ?stepDown,
    fun s hquiet => ?noStep, fun s c v hc hv hturn => ?minClear⟩,
    fun s hdone hruns hslack hrest hcode => ?raise, fun s hheld => ?held, fun s hheld hwait hreq => ?settled,
    fun s hwait hthird => ?stop, fun s hrest => ?noWait⟩
  case windowEnds => exact devNext_of_eq (guardWindowEndDev_of_ended hopen hend)
  case windowRuns => exact devNext_same (guardWindowEndDev_of_running hruns)
  case stepDown =>
    rw [yields_devNext _ rfl, guardStepDownDev_of_due haudio hsteps hclean hat]
    exact ⟨guardSteps_frame _ _, guardSteps_bus _ _, by simp, by simp, by simp⟩
  case noStep => exact devNext_same (guardStepDownDev_of_not_due hquiet)
  case minClear =>
    rw [yields_hostNext _ rfl hturn, slackMinClearDev_of_set _ hc hv]
    exact ⟨Dev.fld_putFld_same _ _ _ _ _ (by decide) (by decide),
      Dev.fld_putFld_other _ _ _ _ _ _ _ _ (by decide) (by decide) (.inr (.inl (by decide))),
      Dev.fld_putFld_other _ _ _ _ _ _ _ _ (by decide) (by decide) (.inr (.inr (by decide))),
      fun b hb => Dev.reg_putFld_ne _ _ _ _ _ _ hb, rfl⟩
  case raise =>
    rw [yields_devNext _ rfl, vidWindowEndDev_raises hdone hruns hslack hrest hcode]
    exact ⟨vidPins_vidDriven _ ((vidLoopRuns_vidWindowSeen s.dev).trans hruns), rfl, rfl, rfl, rfl, rfl, rfl⟩
  case held => exact if_pos hheld
  case settled => exact (if_neg (by simp [hheld])).trans (devNext_of_eq (vidSettledDev_of_settling hwait hreq))
  case stop =>
    obtain ⟨e, he⟩ := vidSettleTimeoutDev_third hwait hthird
    have hframe : (vidSettleTimeoutDev s.dev).frame = _ := (congrArg Dev.frame he).trans (vidStopped_frame e)
    have hfault : (vidSettleTimeoutDev s.dev).frame.vid.fault = true := by rw [hframe]
    exact (yields_devNext _ rfl).mpr
      ⟨vidPins_of_fault hfault, hfault, by rw [hframe], faultLow_of_vid_fault hfault, by simp, by simp, by simp⟩
  case noWait => exact devNext_same (vidSettleTimeoutDev_of_rest hrest)

end Sys2Proof.Machine
end

section
/-! PROOF. The state right after reset (R53, R71, R99, R111, R155, R430, R470). -/

namespace Sys2Proof.Machine

open Sys2Proof

/-- Every domain but AON starts OFF (R470, R471). -/
theorem reset_dom {n : Nat} (hpos : 0 < n) (hn : n < 30) : State.reset.dev.dom n = Domain.reset .off := by
  obtain ⟨k, rfl⟩ : ∃ k, n = k + 1 := ⟨n - 1, by omega⟩
  exact (List.getD_cons_succ ..).trans (List.getD_replicate _ (by omega))

theorem reset_voice {v : Nat} (hv : v < 256) : State.reset.dev.voice v = Voice.reset := List.getD_replicate _ (by omega)

/-- Every register starts at its reset value, STAGE at 0 (R15, R111). -/
theorem reset_reg (a : Nat) : State.reset.dev.reg a = regReset a := rfl

theorem reset_stage : State.reset.dev.stage = 0 := by
  rw [Dev.stage, Dev.fld, reset_reg]
  decide

/-- FAULT_N is low before step 2's release (R99, R519). -/
theorem faultLow_of_stage {d : Dev} (h : d.stage < Stage.domains) : faultLow d = true := by simp [faultLow, h]

theorem reset_engEn : State.reset.dev.engEn = false := by
  rw [Dev.engEn, Dev.flag, reset_reg]
  decide

/-- While MANUAL is 0 and MGMT is not ON, the pins carry 1111b (R53). -/
theorem vidPins_of_mgmt_off {d : Dev} (hmanual : d.flag Reg.GLB_VID 8 = false) (hoff : d.isOn Dom.mgmt = false) : vidPins d = 15 := by
  simp [vidPins, hmanual, hoff]

theorem reset_vidPins : vidPins State.reset.dev = 15 := by
  refine vidPins_of_mgmt_off ?_ ?_
  · rw [Dev.flag, reset_reg]
    decide
  · rw [Dev.isOn, reset_dom (by decide) (by decide)]
    rfl

/-- Settles O8: each unit's reset value read off, the domains and the voices from their tables. -/
theorem resetStateFollowsTheSpec : Obligations.ResetStateFollowsTheSpec :=
  ⟨rfl, rfl, rfl, fun n hpos hn => congrArg Domain.state (reset_dom hpos hn), rfl, reset_engEn, rfl,
    fun v hv => congrArg Voice.state (reset_voice hv), fun x hx => congrArg OutCh.state (List.eq_of_mem_replicate hx),
    faultLow_of_stage (by rw [reset_stage]; decide), reset_vidPins, rfl, fun a => rfl, reset_reg,
    ⟨List.nodup_nil, fun t ht => absurd ht List.not_mem_nil⟩, rfl⟩

end Sys2Proof.Machine
end

section
/-! PROOF. The pulses of RESET_N by their length, the key of GLB_RESET, and the statement on both (R72). -/

namespace Sys2Proof.Machine

open Sys2Proof

/-! ### The pulse (R72) -/

theorem resetPinState_long {w : Nat} (s : State) (h : 1000 ≤ w) : resetPinState w s = resetState .pin s := by
  have hnever : ¬ w < 100 := by omega
  have hmay : ¬ w < 1000 := by omega
  rw [resetPinState, if_neg hnever, if_pos (.inl h)]
  simp only [if_neg hmay]
  rfl

theorem resetPinState_short {w : Nat} (s : State) (h : w < 100) : resetPinState w s = s := if_pos h

/-- A pulse between the two lengths resets the device or is lost, as a free value has it. -/
theorem resetPinState_between {w : Nat} (s : State) (hlow : 100 ≤ w) (hhigh : w < 1000) :
    resetPinState w s = resetState .pin (s.onDev Dev.draw) ∨ resetPinState w s = s.onDev Dev.draw := by
  rw [resetPinState, if_neg (by omega : ¬ w < 100)]
  simp only [if_pos hhigh]
  split
  · exact .inl rfl
  · exact .inr rfl

/-! ### The device after a pulse, and after the key (R71, R72) -/

/-- A reset by RESET_N puts the device back to stage 0 and its units to their reset state. -/
theorem resetState_pin_units (s : State) :
    (resetState .pin s).dev.stage = 0 ∧ (resetState .pin s).dev.pwr = Dev.reset.pwr ∧
    (resetState .pin s).dev.frame = Dev.reset.frame ∧ (resetState .pin s).dev.alm = Dev.reset.alm ∧
    (resetState .pin s).dev.par = Dev.reset.par ∧ (resetState .pin s).dev.outs = Dev.reset.outs ∧
    (resetState .pin s).dev.ser = Dev.reset.ser ∧ (resetState .pin s).dev.mem.pstore = [] := by
  obtain ⟨hframe, hpwr, halm, hpar, houts, -, hmem⟩ := resetDev_units .pin none s.dev
  exact ⟨resetDev_stage .pin s.dev, hpwr, hframe, halm, hpar, houts, rfl, congrArg Mems.pstore hmem⟩

/-- The software reset and the pin's differ in the cause that they leave, and in nothing else. -/
theorem resetState_soft_pin (s : State) :
    (resetState .soft s).prot = (resetState .pin s).prot ∧ (resetState .soft s).pending = (resetState .pin s).pending ∧
    (resetState .soft s).dev = { (resetState .pin s).dev with regs := (resetState .soft s).dev.regs } ∧
    ∀ a, a ≠ Reg.GLB_RESET_CAUSE → (resetState .soft s).dev.reg a = (resetState .pin s).dev.reg a :=
  ⟨rfl, rfl, rfl, fun a h =>
    (resetDev_reg .soft none s.dev a h (.inl rfl)).trans (resetDev_reg .pin none s.dev a h (.inl rfl)).symm⟩

/-! ### The key (R72) -/

theorem softwareResetState_key (s : State) : softwareResetState 0x0000A5C3 s = resetState .soft s := if_pos rfl

theorem softwareResetState_of_ne {v : Word} (s : State) (h : v ≠ 0x0000A5C3) : softwareResetState v s = s := if_neg h

/-- Every stage lets in a write of GLB_RESET, which is the software reset's own (R72, R102). -/
theorem regWrite_reset {s : State} (mgmt : Bool) (v : Word) (be : BitVec 4) (h : s.dev.isOn Dom.aon = true) :
    regWrite mgmt Reg.GLB_RESET v be s = softwareResetState v s := by
  have hreach : regReaches s.dev Reg.GLB_RESET = true := by
    rw [regReaches, show blockDom Reg.GLB_RESET = Dom.aon by decide, h]; decide
  rw [regWrite, hreach]
  rfl

theorem hostMayWrite_reset (d : Dev) : hostMayWrite d Reg.GLB_RESET = true := by simp [hostMayWrite]

/-! ### The statement -/

/-- Settles O12: each length of pulse is one branch of `resetPinState`, and the two resets differ in the cause alone. -/
theorem resetPulsesAndTheResetKey : Obligations.ResetPulsesAndTheResetKey := by
  refine ⟨fun s w hlong => ?long, fun s w hshort => ?short, fun s w hlow hhigh => ?between, fun s w hlong hon => ?key,
    fun s v hv => ?other, fun s v haon => ?write⟩
  case long =>
    exact ⟨_, congrArg Host.Outcome.next (resetPinState_long s hlong), resetState_pin_units s⟩
  case short => exact congrArg Host.Outcome.next (resetPinState_short s hshort)
  case between =>
    obtain hreset | hlost := resetPinState_between s hlow hhigh
    · exact ⟨_, congrArg Host.Outcome.next hreset, .inl (resetState_pin_units _)⟩
    · exact ⟨_, congrArg Host.Outcome.next hlost, .inr rfl⟩
  case key =>
    exact ⟨_, _, congrArg Host.Outcome.next ((if_pos hon).trans (softwareResetState_key s)),
      congrArg Host.Outcome.next (resetPinState_long s hlong), resetState_soft_pin s⟩
  case other =>
    show Host.Outcome.next (if s.dev.isOn Dom.hostp then softwareResetState v s else s) = .next s
    rw [softwareResetState_of_ne s hv, ite_self]
  case write =>
    show execRegisterWrite Reg.GLB_RESET v s = execSoftwareReset v s
    rw [execRegisterWrite, execSoftwareReset, hostMayWrite_reset, Bool.and_true, regWrite_reset _ _ _ haon]

end Sys2Proof.Machine
end

section
/-! PROOF. The statement on the straps and the boot controls fails: CONTINUE after a fallback is logged (R112, R503, R514), and
the log lies in management RAM. -/

namespace Sys2Proof.Machine

open Sys2Proof

/-- CONTINUE in HELD after a fallback writes the restored preference's log entry into management RAM (R503, R514). -/
theorem heldAfterFallback_continue_logs :
    (continueState 1 { State.reset with dev := heldAfterFallback }).dev.mem.mram.isEmpty = false := by
  decide

/-- Refutes O9: CONTINUE in HELD takes the stage to RUN, and with FALLBACK = 1 the firmware then logs the restored preference in
its ring, so the memories are not as before (R503, R514). -/
theorem not_strapsAndBootControls : ¬ Obligations.StrapsAndBootControls := by
  unfold Obligations.StrapsAndBootControls
  rintro ⟨-, -, -, -, -, hcontinue, -⟩
  obtain ⟨hon, hheld, -, hturn⟩ := heldAfterFallback_fields
  obtain ⟨t, ht, -, -, hmem, -⟩ := hcontinue { State.reset with dev := heldAfterFallback } 1 (by decide) hheld hon
  have hrun : t = continueState 1 { State.reset with dev := heldAfterFallback } :=
    (Host.Outcome.next.inj ht).symm.trans (if_pos hturn)
  have hlog := heldAfterFallback_continue_logs
  rw [← hrun, hmem] at hlog
  exact absurd hlog (by decide)

end Sys2Proof.Machine
end

section
/-! PROOF. The wave window's registers and its two buffers: each access by its case, and the statement on them (R417 to R420). -/

namespace Sys2Proof.Machine

open Sys2Proof

/-! ### WIN_ADDR (R417, R419) -/

/-- The address that a write of WIN_ADDR holds: the low bits are zero unless PACK24 (R419). -/
def winAddrOf (v : Word) (d : Dev) : Nat := if d.pack24 then v.bits 26 0 else v.bits 26 2 * 4

theorem winAddrWriteDev_reads {v : Word} {d : Dev} (hmemc : d.isOn Dom.memc = true) (hdir : d.win.dir = false) :
    winAddrWriteDev v d = hostFresh { d.putReg Reg.WIN_ADDR (BitVec.ofNat 32 (winAddrOf v d)) with
      win := { d.win with rd := [], rdAddr := winAddrOf v d, rdEnd := false } } := by
  have hreads : ¬ d.win.dir = true := by simp [hdir]
  rw [winAddrWriteDev, hmemc]
  exact if_neg hreads

theorem winAddrWriteDev_writes {v : Word} {d : Dev} (hmemc : d.isOn Dom.memc = true) (hdir : d.win.dir = true) :
    winAddrWriteDev v d = d.putReg Reg.WIN_ADDR (BitVec.ofNat 32 (winAddrOf v d)) := by
  rw [winAddrWriteDev, hmemc]
  exact if_pos hdir

/-! ### WIN_DATA read (R417, R420) -/

theorem readEffect_winData {d : Dev} (hmemc : d.isOn Dom.memc = true) : readEffect Reg.WIN_DATA d = (winPop d).2 := by
  have hdom : blockDom Reg.WIN_DATA = Dom.memc := by decide
  have hreach : ¬ (pstoreBase ≤ Reg.WIN_DATA ∨ (!d.isOn (blockDom Reg.WIN_DATA)) = true) := by
    rw [hdom, hmemc]; decide
  rw [readEffect, if_neg hreach]
  exact if_pos (by decide)

theorem winPop_cons {d : Dev} {w : Word} {r : List Word} (hmemc : d.isOn Dom.memc = true) (hdir : d.win.dir = false)
    (hrd : d.win.rd = w :: r) (hroom : (d.reg Reg.WIN_ADDR).toNat + d.winStep ≤ waveSize) :
    winPop d = (w, winAdvance { d with win := { d.win with rd := r } }) := by
  have hread : ¬ d.win.dir = true := by simp [hdir]
  rw [winPop, hmemc, if_neg (by decide), if_neg (by omega), hrd]
  exact if_neg hread

theorem winPop_nil {d : Dev} (hmemc : d.isOn Dom.memc = true) (hrd : d.win.rd = [])
    (hroom : (d.reg Reg.WIN_ADDR).toNat + d.winStep ≤ waveSize) : winPop d = (0, d.putFlag Reg.WIN_STAT 30 true) := by
  rw [winPop, hmemc, if_neg (by decide), if_neg (by omega), hrd]

/-- A read of WIN_DATA with HOSTP and MEMC ON has exactly the effect of the pop. -/
theorem yields_winDataRead {s : State} (P : Dev → Prop) (hmemc : s.dev.isOn Dom.memc = true) (hhost : s.dev.isOn Dom.hostp = true) :
    Yields .winDataRead s P ↔ P (winPop s.dev).2 := by
  rw [yields_devNext P rfl, if_pos hhost, readEffect_winData hmemc]

/-! ### WIN_DATA written (R418, R420) -/

section
variable {v : Word} {be : BitVec 4} {d : Dev} (hmemc : d.isOn Dom.memc = true) (hdir : d.win.dir = true)
include hmemc hdir

theorem winDataWriteDev_end (hend : waveSize < (d.reg Reg.WIN_ADDR).toNat + d.winStep) :
    winDataWriteDev v be d = d.putFlag Reg.WIN_STAT 31 true := by
  rw [winDataWriteDev, hmemc, hdir]
  exact if_pos hend

theorem winDataWriteDev_full (hroom : (d.reg Reg.WIN_ADDR).toNat + d.winStep ≤ waveSize) (hfull : 64 ≤ d.win.wr.length) :
    winDataWriteDev v be d = d.putFlag Reg.WIN_STAT 29 true := by
  rw [winDataWriteDev, hmemc, hdir]
  exact (if_neg (Nat.not_lt.mpr hroom)).trans (if_pos hfull)

theorem winDataWriteDev_posts (hroom : (d.reg Reg.WIN_ADDR).toNat + d.winStep ≤ waveSize) (hfree : d.win.wr.length < 64) :
    winDataWriteDev v be d = winAdvance { d with
      win := { d.win with wr := d.win.wr ++ [((d.reg Reg.WIN_ADDR).toNat, v, be, d.pack24)] } } := by
  rw [winDataWriteDev, hmemc, hdir]
  exact (if_neg (Nat.not_lt.mpr hroom)).trans (if_neg (Nat.not_le.mpr hfree))

end

/-! ### WIN_CTL (R419, R420) -/

/-- DIR and PACK24 as a write of WIN_CTL leaves them, with the low bits of WIN_ADDR stored as 0 unless PACK24 (R419). -/
def winCtlPut (v : Word) (d : Dev) : Dev :=
  let d := d.putFld Reg.WIN_CTL 1 0 (v.bits 1 0)
  if d.pack24 then d else d.putFld Reg.WIN_ADDR 1 0 0

theorem winCtlWrite_abort {v : Word} {d : Dev} (hmemc : d.isOn Dom.memc = true) (habort : v.getLsbD 2 = true) :
    winCtlWrite v d = hostFresh { winCtlPut v d with
      win := { (winCtlPut v d).win with rd := [], wr := [], rdAddr := ((winCtlPut v d).reg Reg.WIN_ADDR).toNat, rdEnd := false } } := by
  rw [winCtlWrite, hmemc]
  exact if_pos habort

/-- Of the device, WIN_CTL's fields reach the registers alone. -/
theorem winCtlPut_regs (v : Word) (d : Dev) : winCtlPut v d = { d with regs := (winCtlPut v d).regs } := by
  unfold winCtlPut
  dsimp only
  split <;> rfl

theorem winCtlPut_reg_ne (v : Word) (d : Dev) {a : Nat} (hctl : a ≠ Reg.WIN_CTL) (haddr : a ≠ Reg.WIN_ADDR) :
    (winCtlPut v d).reg a = d.reg a := by
  unfold winCtlPut
  dsimp only
  split <;> simp [hctl, haddr]

theorem winCtlPut_fld (v : Word) (d : Dev) : (winCtlPut v d).fld Reg.WIN_CTL 1 0 = v.bits 1 0 := by
  have hput : (d.putFld Reg.WIN_CTL 1 0 (v.bits 1 0)).fld Reg.WIN_CTL 1 0 = v.bits 1 0 :=
    (Dev.fld_putFld_same _ _ _ _ _ (by decide) (by decide)).trans (Nat.mod_eq_of_lt (v.bits_lt 1 0))
  unfold winCtlPut
  dsimp only
  split
  · exact hput
  · rwa [Dev.fld_putFld_other _ _ _ _ _ _ _ _ (by decide) (by decide) (.inl (by decide))]

/-! ### DIR (R420) -/

theorem winDirChangeDev_drained {d : Dev} (hmemc : d.isOn Dom.memc = true) (hdir : d.flag Reg.WIN_CTL 0 ≠ d.win.dir)
    (hwr : d.win.wr = []) : winDirChangeDev d = hostFresh { d with win := { d.win with
      dir := d.flag Reg.WIN_CTL 0, rd := [], rdAddr := (d.reg Reg.WIN_ADDR).toNat, rdEnd := false } } :=
  if_pos ⟨hmemc, hdir, hwr⟩

theorem winDirChangeDev_waits {d : Dev} (hwr : d.win.wr ≠ []) : winDirChangeDev d = d := if_neg fun ⟨_, _, h⟩ => hwr h

/-! ### The statement -/

theorem regsKept_putReg (s : State) (a : Nat) (w : Word) : RegsKept s (s.dev.putReg a w) [a] :=
  fun _ hb => Dev.reg_putReg_ne _ _ _ _ (List.ne_of_not_mem_cons hb)

/-- A status bit of the window set: it reads 1, no other register changes, and nothing else of the device does. -/
theorem putFlag_only (s : State) (a n : Nat) (hn : n < 32) : (s.dev.putFlag a n true).flag a n = true ∧
    RegsKept s (s.dev.putFlag a n true) [a] ∧ s.dev.putFlag a n true = { s.dev with regs := (s.dev.putFlag a n true).regs } :=
  ⟨Dev.flag_putFlag_same _ _ _ _ hn, regsKept_putReg s a _, rfl⟩

/-- Settles O39: each access by the case of its function above. -/
theorem windowWordsMoveInOrder : Obligations.WindowWordsMoveInOrder := by
  refine ⟨fun s v hmemc hturn => ?addr, fun s hoff => ?hostOff, fun s w r hmemc hhost hdir hrd hroom => ?pop,
    fun s hmemc hhost hrd hroom => ?under, fun s v be hmemc hdir hturn => ⟨fun hroom hfree => ?post, fun hroom hfull => ?full,
    fun hend => ?atEnd⟩, fun s v hmemc hturn habort => ?abort, fun s hmemc hdir hwr => ?turn, fun s hwr => ?waits⟩
  case addr =>
    rw [yields_hostNext _ rfl hturn]
    cases hdir : s.dev.win.dir with
    | true =>
      rw [winAddrWriteDev_writes hmemc hdir]
      exact ⟨Dev.reg_putReg_same _ _ _, regsKept_putReg s _ _, rfl, rfl, rfl⟩
    | false =>
      rw [winAddrWriteDev_reads hmemc hdir]
      exact ⟨Dev.reg_putReg_same _ _ _, regsKept_putReg s _ _, rfl, rfl, rfl⟩
  case hostOff => exact devNext_same (if_neg (by simp [hoff]))
  case pop =>
    have hpop := winPop_cons hmemc hdir hrd hroom
    rw [yields_winDataRead _ hmemc hhost, hpop]
    exact ⟨rfl, rfl, Dev.reg_putReg_same _ _ _, regsKept_putReg s _ _, rfl⟩
  case under =>
    rw [yields_winDataRead _ hmemc hhost, winPop_nil hmemc hrd hroom]
    exact ⟨rfl, putFlag_only s _ _ (by decide)⟩
  case post =>
    rw [yields_hostNext _ rfl hturn, winDataWriteDev_posts hmemc hdir hroom hfree]
    exact ⟨rfl, Dev.reg_putReg_same _ _ _, regsKept_putReg s _ _, rfl⟩
  case full =>
    rw [yields_hostNext _ rfl hturn, winDataWriteDev_full hmemc hdir hroom hfull]
    exact putFlag_only s _ _ (by decide)
  case atEnd =>
    rw [yields_hostNext _ rfl hturn, winDataWriteDev_end hmemc hdir hend]
    exact putFlag_only s _ _ (by decide)
  case abort =>
    rw [yields_hostNext _ rfl hturn, if_pos habort, winCtlWrite_abort hmemc habort]
    have hregs := winCtlPut_regs v s.dev
    refine ⟨rfl, rfl, congrArg (·.win.dir) hregs, rfl, winCtlPut_fld v s.dev, fun a ha => ?_, ?_⟩
    · simp only [List.mem_cons, List.not_mem_nil, or_false, not_or] at ha
      exact winCtlPut_reg_ne v s.dev ha.1 ha.2
    · rw [hregs]
      rfl
  case turn => exact congrArg Host.Outcome.next (by rw [State.onDev, winDirChangeDev_drained hmemc hdir hwr]; rfl)
  case waits => exact devNext_same (winDirChangeDev_waits hwr)

end Sys2Proof.Machine
end

section
/-! SUPPORT. The pool of tasks (R115, R120): what admits, moves and frees a task keeps the indices below 8,192 and distinct. -/

namespace Sys2Proof.Machine

open Sys2Proof

/-- The pool is well formed behind a change, if it was before. -/
def PoolSafe (d e : Dev) : Prop := PoolOk d.alm → PoolOk e.alm

theorem PoolOk.of_indices {a b : Alm} (h : PoolOk a) (hs : (b.pool.map Task.idx).Sublist (a.pool.map Task.idx)) : PoolOk b := by
  obtain ⟨hd, hlt⟩ := h
  refine ⟨hd.sublist hs, fun t ht => ?_⟩
  obtain ⟨u, hu, e⟩ := List.mem_map.mp (hs.subset (List.mem_map_of_mem ht))
  exact e ▸ hlt u hu

theorem PoolOk.reset : PoolOk Alm.reset := ⟨List.nodup_nil, fun _ h => by cases h⟩

namespace PoolSafe

theorem refl (d : Dev) : PoolSafe d d := id

theorem trans {d e f : Dev} (h : PoolSafe d e) (k : PoolSafe e f) : PoolSafe d f := fun hp => k (h hp)

theorem of_indices {d e : Dev} (hs : (e.alm.pool.map Task.idx).Sublist (d.alm.pool.map Task.idx)) : PoolSafe d e :=
  fun h => h.of_indices hs

/-- What leaves the pool, or all of the Almanac, alone. -/
theorem of_pool {d e : Dev} (h : e.alm.pool = d.alm.pool) : PoolSafe d e := of_indices (by rw [h])

theorem of_alm {d e : Dev} (h : e.alm = d.alm) : PoolSafe d e := of_pool (by rw [h])

/-- Changes on either side that leave the Almanac alone. -/
theorem tail {d e f : Dev} (h : PoolSafe d e) (k : f.alm = e.alm) : PoolSafe d f := h.trans (of_alm k)

theorem head {d e f : Dev} (h : PoolSafe e f) (k : e.alm = d.alm) : PoolSafe d f := (of_alm k).trans h

/-- Every task changed, its index kept. -/
theorem of_map {d e : Dev} (f : Task → Task) (h : e.alm.pool = d.alm.pool.map f) (hf : ∀ t, (f t).idx = t.idx) : PoolSafe d e :=
  of_indices (by rw [h, List.map_map]; exact (List.map_congr_left fun t _ => hf t) ▸ List.Sublist.refl _)

/-- Some tasks gone. -/
theorem of_filter {d e : Dev} (p : Task → Bool) (h : e.alm.pool = d.alm.pool.filter p) : PoolSafe d e :=
  of_indices (by rw [h]; exact List.filter_sublist.map _)

theorem ite {c : Prop} [Decidable c] {d a b : Dev} (ha : PoolSafe d a) (hb : PoolSafe d b) : PoolSafe d (if c then a else b) := by
  split <;> assumption

/-- A fold over a state that holds a device. -/
theorem foldl_on {α β : Type} (p : α → Dev) {f : α → β → α} (h : ∀ a b, PoolSafe (p a) (p (f a b))) (l : List β) (a : α) :
    PoolSafe (p a) (p (l.foldl f a)) := by
  induction l generalizing a with
  | nil => exact refl (p a)
  | cons b r ih => exact (h a b).trans (ih _)

theorem foldl {β : Type} {f : Dev → β → Dev} (h : ∀ d b, PoolSafe d (f d b)) (l : List β) (d : Dev) : PoolSafe d (l.foldl f d) :=
  foldl_on id h l d

theorem forUpTo {n : Nat} {f : Nat → Dev → Dev} (h : ∀ k d, PoolSafe d (f k d)) (d : Dev) : PoolSafe d (forUpTo n f d) :=
  foldl (fun d k => h k d) _ d

theorem forEach {β : Type} {l : List β} {f : β → Dev → Dev} (h : ∀ b d, PoolSafe d (f b d)) (d : Dev) : PoolSafe d (forEach l f d) :=
  foldl (fun d b => h b d) _ d

end PoolSafe

/-! ### A free index (R115) -/

theorem Dev.task?_eq_none {d : Dev} {i : Nat} : d.task? i = none ↔ ∀ t ∈ d.alm.pool, t.idx ≠ i := by
  simp [Dev.task?]

/-- Fewer than 8,192 tasks leave an index free. -/
theorem exists_free_index {d : Dev} (h : d.alm.pool.length < 8192) : ∃ i < 8192, d.task? i = none := by
  by_contra hall
  have hsub : Finset.range 8192 ⊆ (d.alm.pool.map Task.idx).toFinset := fun i hi => by
    by_contra hn
    refine hall ⟨i, Finset.mem_range.mp hi, Dev.task?_eq_none.mpr fun t ht e => hn ?_⟩
    exact List.mem_toFinset.mpr (e ▸ List.mem_map_of_mem ht)
  have hcard := (Finset.card_le_card hsub).trans (List.toFinset_card_le _)
  simp only [Finset.card_range, List.length_map] at hcard
  omega

/-- The index a new task gets is free, if there is one. -/
theorem freeIndex_spec {d : Dev} (h : d.alm.pool.length < 8192) : freeIndex d < 8192 ∧ d.task? (freeIndex d) = none := by
  obtain ⟨i, hi, hfree⟩ := exists_free_index h
  unfold freeIndex
  extract_lets start
  have hs : start < 8192 := Nat.mod_lt _ (by decide)
  split
  next k hk => exact ⟨Nat.mod_lt _ (by decide), by simpa using List.find?_some hk⟩
  next hk =>
    have := List.find?_eq_none.mp hk ((i + 8192 - start) % 8192) (List.mem_range.mpr (Nat.mod_lt _ (by decide)))
    have hidx : (start + (i + 8192 - start) % 8192) % 8192 = i := by omega
    simp [hidx, hfree] at this

/-! ### The operations on the pool -/

theorem Dev.modTask_poolSafe (d : Dev) (i : Nat) (f : Task → Task) (hf : ∀ t, (f t).idx = t.idx) : PoolSafe d (d.modTask i f) :=
  .of_map (fun t => if t.idx = i then f t else t) rfl fun t => by split <;> simp [hf]

theorem Dev.freeTask_poolSafe (d : Dev) (i : Nat) : PoolSafe d (d.freeTask i) := .of_filter _ rfl

theorem acceptingClear_poolSafe (d : Dev) : PoolSafe d (acceptingClear d) :=
  .of_map _ rfl fun t => by split <;> rfl

theorem syncAccepting_poolSafe (d : Dev) : PoolSafe d (syncAccepting d) :=
  .ite (.of_pool rfl) (.ite (acceptingClear_poolSafe d) (.refl d))

theorem releaseTask_poolSafe (i : Nat) (d : Dev) : PoolSafe d (releaseTask i d) := by
  unfold releaseTask
  split
  · exact .refl d
  · refine (d.modTask_poolSafe i _ ?idx).trans (.of_pool rfl)
    exact fun _ => rfl

theorem rereleaseTask_poolSafe (i : Nat) (d : Dev) : PoolSafe d (rereleaseTask i d) := by
  refine (d.modTask_poolSafe i _ ?idx).trans (.of_pool rfl)
  exact fun _ => rfl

/-- A task refused by no rule finds room (R124). -/
theorem room_of_refusal {d : Dev} {floor ty fl : Nat} {now : Bool} (h : refusal d floor now ty fl = 0) : d.alm.pool.length < 8192 := by
  by_contra hf
  have : d.almFree ≤ floor := by simp only [Dev.almFree]; omega
  revert h; unfold refusal; simp only [if_pos this]; split <;> simp

/-- The entry an admitted offer takes, before its release (R115, R136). -/
def newTask (o : Offer) (d : Dev) : Task :=
  { idx := freeIndex d, typ := o.typ, flags := o.flags, flow := o.flow, state := .waiting, tag := o.tag
    target := targetOf d o.typ o.payload, origin := o.origin, relEf := 0
    due := if o.flags.testBit 3 then dueTick d o.flags o.due else o.due
    seq := 0, payload := o.payload, gseq := 0, order := d.alm.order, returned := false, doneEf := 0
    chosen := [], taken := [], reuse := [] }

@[simp] theorem newTask_idx (o : Offer) (d : Dev) : (newTask o d).idx = freeIndex d := by
  rw [newTask]

/-- The device with an offer pooled. -/
def Dev.pooling (d : Dev) (o : Offer) : Dev :=
  { d.draw with alm := { d.alm with pool := d.alm.pool ++ [newTask o d], order := d.alm.order + 1 } }

theorem admitTask_eq (o : Offer) (d : Dev) :
    admitTask o d = (if o.atOnce d then releaseTask (freeIndex d) (d.pooling o) else d.pooling o, freeIndex d) := by
  unfold admitTask Dev.pooling newTask; rfl

theorem Dev.pooling_poolSafe {o : Offer} {d : Dev} (h : d.alm.pool.length < 8192) : PoolSafe d (d.pooling o) := by
  obtain ⟨hlt, hfree⟩ := freeIndex_spec h
  rintro ⟨hd, hb⟩
  constructor
  · rw [Dev.pooling, List.map_append]
    refine List.nodup_append.mpr ⟨hd, List.nodup_singleton _, fun a ha b hb => ?_⟩
    obtain ⟨u, hu, rfl⟩ := List.mem_map.mp ha
    rw [List.mem_singleton.mp hb, newTask_idx]
    exact Dev.task?_eq_none.mp hfree u hu
  · intro u hu
    rcases List.mem_append.mp hu with hu | hu
    · exact hb u hu
    · rw [List.mem_singleton.mp hu, newTask_idx]
      exact hlt

theorem admitTask_poolSafe {o : Offer} {d : Dev} (h : d.alm.pool.length < 8192) : PoolSafe d (admitTask o d).1 := by
  rw [admitTask_eq]
  exact .ite ((Dev.pooling_poolSafe h).trans (releaseTask_poolSafe _ _)) (Dev.pooling_poolSafe h)

/-- An offer that is refused for no reason is admitted. -/
theorem admitTask_poolSafe_of {o : Offer} {d e : Dev} {floor ty fl : Nat} {now : Bool} (h : refusal d floor now ty fl = 0)
    (he : e.alm = d.alm) : PoolSafe d (admitTask o e).1 :=
  PoolSafe.trans (.of_alm he) (admitTask_poolSafe (he ▸ room_of_refusal h))

theorem pushDone_poolSafe (status tag : Nat) (d : Dev) : PoolSafe d (pushDone status tag d) :=
  .ite (.of_pool rfl) (.of_pool rfl)

theorem finishTask_poolSafe (t : Task) (status : Nat) (d : Dev) : PoolSafe d (finishTask t status d) := by
  refine (d.freeTask_poolSafe t.idx).trans (.ite ?_ (.of_pool rfl))
  exact fun h => pushDone_poolSafe status t.tag _ h

/-! ### Local slots, lists and rounds -/

theorem fillOne_poolSafe (tg : Nat) (d : Dev) : PoolSafe d (fillOne tg d) := by
  unfold fillOne
  repeat' split
  · exact d.modTask_poolSafe _ _ fun _ => rfl
  all_goals exact .refl d

theorem slotFill_poolSafe (d : Dev) : PoolSafe d (slotFill d) :=
  .forEach (fun tg d => (fillOne_poolSafe tg d).trans (fillOne_poolSafe tg _)) d

theorem releaseDue_poolSafe (n : Nat) (d : Dev) : PoolSafe d (releaseDue n d) := by
  induction n generalizing d with
  | zero => exact .refl d
  | succ n ih =>
    unfold releaseDue
    split
    · exact (releaseTask_poolSafe _ d).trans (ih _)
    · exact .refl d

theorem releaseReturned_poolSafe (n : Nat) (d : Dev) : PoolSafe d (releaseReturned n d) := by
  induction n generalizing d with
  | zero => exact .refl d
  | succ n ih =>
    unfold releaseReturned
    split
    · exact .ite ((rereleaseTask_poolSafe _ d).trans (ih _)) (.refl d)
    · exact .refl d

theorem releaseDueTo_poolSafe (i n : Nat) (d : Dev) : PoolSafe d (releaseDueTo i n d) := by
  induction n generalizing d with
  | zero => exact .refl d
  | succ n ih =>
    unfold releaseDueTo
    split
    · exact .ite ((releaseTask_poolSafe _ d).trans (ih _)) (.refl d)
    · exact .refl d

theorem offerHeld_poolSafe (n : Nat) (d : Dev) : PoolSafe d (offerHeld n d) := by
  unfold offerHeld
  split
  · exact .refl d
  next seen f r _ =>
    refine .ite (.refl d) ?_
    dsimp only
    split
    next h => exact admitTask_poolSafe_of h (by simp)
    next => exact .ite (.refl d) (.of_alm (by simp))

theorem earlierReleases_poolSafe (n : Nat) (d : Dev) : PoolSafe d (earlierReleases n d) :=
  .ite (((releaseReturned_poolSafe _ d).trans (releaseDue_poolSafe _ _)).trans (.forUpTo offerHeld_poolSafe _)) (.refl d)

theorem landOne_poolSafe (d : Dev) : PoolSafe d (landOne d).1 := by
  unfold landOne
  split
  · exact .refl d
  · dsimp only
    split
    next h =>
      dsimp only
      exact admitTask_poolSafe_of h (by simp)
    next => exact .refl d

theorem landTasks_poolSafe (n : Nat) (d : Dev) : PoolSafe d (landTasks n d) := by
  induction n generalizing d with
  | zero => exact .refl d
  | succ n ih =>
    unfold landTasks
    exact .ite ((landOne_poolSafe d).trans (ih _)) (landOne_poolSafe d)

theorem roundReleases_poolSafe (d : Dev) : PoolSafe d (roundReleases d) :=
  .ite ((earlierReleases_poolSafe 4 d).trans (landTasks_poolSafe 25 _)) (.refl d)

theorem arbitrate_poolSafe {offer cancel : Dev → Dev} (ho : ∀ d, PoolSafe d (offer d)) (hc : ∀ d, PoolSafe d (cancel d)) (d : Dev) :
    PoolSafe d (arbitrate offer cancel d) := by
  have hround : PoolSafe d (slotFill (cancel (offer (roundReleases d)))) := fun h =>
    slotFill_poolSafe _ (hc _ (ho _ (roundReleases_poolSafe d h)))
  exact hround.trans (.of_pool (by rw [arbitrate]))

/-- A cancelled task: out of the pool, counted, and told with NOTIFY (R138, R142). -/
theorem cancelOne_poolSafe (t : Task) (d : Dev) : PoolSafe d (cancelOne t d) := by
  have hfree : PoolSafe d ((voidSent (· == t.idx) d).freeTask t.idx) := .of_filter (fun u => u.idx != t.idx) rfl
  have hcount (e : Dev) : PoolSafe e (if t.notify then pushDone 1 t.tag e else e) := .ite (pushDone_poolSafe 1 t.tag e) (.refl e)
  refine hfree.trans (PoolSafe.trans ?_ (hcount _))
  exact .ite (.of_pool rfl) (.of_pool rfl)

theorem cancelApply_poolSafe (scope tag mask : Nat) (d : Dev) : PoolSafe d (cancelApply scope tag mask d) := by
  unfold cancelApply
  extract_lets hit gone _ defer late d1 _ d2 d3
  have h1 : PoolSafe d d2 := (PoolSafe.forEach cancelOne_poolSafe d).trans (.of_pool rfl)
  exact h1.trans (.of_alm (by simp only [d3]; split <;> rfl))

theorem hostPostDev_poolSafe (v : Word) (d : Dev) : PoolSafe d (hostPostDev v d) := by
  unfold hostPostDev
  dsimp only
  split
  · exact .refl d
  split
  · exact .of_alm (by simp)
  split
  · exact .of_alm (by simp)
  next h => exact (admitTask_poolSafe_of (not_not.mp h) rfl).trans (.of_pool rfl)

theorem mgmtPostDev_poolSafe (image : List Word) (d : Dev) : PoolSafe d (mgmtPostDev image d) := by
  unfold mgmtPostDev
  dsimp only
  split
  · exact .refl d
  split
  · exact .refl d
  split
  · exact .refl d
  next h => exact admitTask_poolSafe_of (not_not.mp h) rfl

theorem paramReroute_poolSafe (c : Nat) (d : Dev) : PoolSafe d (paramReroute c d) :=
  .of_map _ rfl fun t => by split <;> rfl

/-! ### A task by its index -/

end Sys2Proof.Machine
end

section
/-! SUPPORT. The pool of tasks under each command's effect on the device: commits, parsers, releases, power and register writes. -/

namespace Sys2Proof.Machine

open Sys2Proof

/-! ### The Almanac's own commands -/

theorem taskDispatchDev_poolSafe (i : Nat) (d : Dev) : PoolSafe d (taskDispatchDev i d) := by
  unfold taskDispatchDev
  split
  · refine .ite (PoolSafe.trans ?_ (slotFill_poolSafe _)) (.refl d)
    exact d.modTask_poolSafe i _ fun _ => rfl
  · exact .refl d

theorem taskWorkDoneDev_poolSafe (i : Nat) (d : Dev) : PoolSafe d (taskWorkDoneDev i d) := by
  unfold taskWorkDoneDev
  split
  · exact .ite (d.modTask_poolSafe i _ fun _ => rfl) (.refl d)
  · exact .refl d

theorem mgmtTaskDoneDev_poolSafe (i : Nat) (d : Dev) : PoolSafe d (mgmtTaskDoneDev i d) := by
  unfold mgmtTaskDoneDev
  split
  · exact .ite (d.modTask_poolSafe i _ fun _ => rfl) (.refl d)
  · exact .refl d

theorem ephemerisDueDev_poolSafe (i : Nat) (d : Dev) : PoolSafe d (ephemerisDueDev i d) := by
  unfold ephemerisDueDev
  split
  · exact .ite ((releaseReturned_poolSafe _ d).trans (releaseDueTo_poolSafe i _ _)) (.refl d)
  · exact .refl d

theorem almTickDev_poolSafe (d : Dev) : PoolSafe d (almTickDev d) := .ite (.refl d) (.of_pool rfl)

theorem almDoneReadDev_poolSafe (d : Dev) : PoolSafe d (almDoneReadDev d) := .ite (.of_pool rfl) (.refl d)

theorem almRelease_poolSafe (d : Dev) : PoolSafe d (almRelease d) := by
  unfold almRelease subStep
  repeat' split
  all_goals exact .of_pool (by simp)

theorem almArbitrationRoundDev_poolSafe (d : Dev) : PoolSafe d (almArbitrationRoundDev d) :=
  .ite (arbitrate_poolSafe .refl .refl d) (.refl d)

theorem hostCancelDev_poolSafe (v : Word) (d : Dev) : PoolSafe d (hostCancelDev v d) :=
  .ite (arbitrate_poolSafe .refl (cancelApply_poolSafe _ _ _) d) (.refl d)

theorem flushDev_poolSafe (v : Word) (d : Dev) : PoolSafe d (flushDev v d) := by
  have herr : PoolSafe d (if v.getLsbD 31 then d.putFlag Reg.ALM_CTL 31 false else d) := .ite (.of_pool rfl) (.refl d)
  exact .ite (.ite (herr.trans (arbitrate_poolSafe .refl (cancelApply_poolSafe _ _ _) _)) herr) (.refl d)

theorem forwardTask_alm {im : List Byte} {d e : Dev} (h : forwardTask im d = some e) : e.alm = d.alm := by
  unfold forwardTask at h
  split at h
  · cases h; simp
  · cases h

theorem hostPostRow_poolSafe (v : Word) (d : Dev) : PoolSafe d (hostPostRow v d) := by
  unfold hostPostRow
  refine .ite (.refl d) (.ite ?_ (arbitrate_poolSafe (hostPostDev_poolSafe v) .refl d))
  split
  next e h => exact .of_alm (by simpa using forwardTask_alm h)
  next => exact .of_alm (by simp)

theorem mgmtPostRow_poolSafe (image : List Word) (d : Dev) : PoolSafe d (mgmtPostRow image d) := by
  unfold mgmtPostRow
  refine .ite (.refl d) (.ite ?_ (arbitrate_poolSafe (mgmtPostDev_poolSafe image) .refl d))
  cases h : forwardTask (image.flatMap fun w => leBytes 4 w.toNat) d with
  | none => exact .refl d
  | some e => exact .of_alm (forwardTask_alm h)

theorem takePacket_alm {ty : Nat} {p : List Byte} {d e : Dev} (h : takePacket d ty = some (p, e)) : e.alm = d.alm := by
  unfold takePacket at h
  split at h
  · cases h
  · split at h
    · cases h; simp
    · cases h

theorem taskPacketDev_poolSafe (d : Dev) : PoolSafe d (taskPacketDev d) := by
  unfold taskPacketDev
  refine .ite (.refl d) ?_
  split
  · exact .refl d
  next p e h =>
    have he : PoolSafe d e := .of_alm (takePacket_alm h)
    refine he.trans (.ite (.of_alm (by simp)) ?_)
    exact PoolSafe.trans (.of_alm (by simp)) ((earlierReleases_poolSafe 4 _).trans (landTasks_poolSafe 25 _))

/-! ### Commits -/

theorem commitWith_poolSafe (i : Nat) (kind : Task → Bool) (f : Task → Dev → Dev × Nat) (d : Dev)
    (h : ∀ t e, (f t e).1.alm = e.alm) : PoolSafe d (commitWith i kind f d) := by
  unfold commitWith
  split
  · exact PoolSafe.trans (.of_alm (by simp [h])) (finishTask_poolSafe _ _ _)
  · exact .refl d

theorem midiCommit_poolSafe (i : Nat) (kind : Task → Bool) (f : List Byte → Nat → Dev → Dev) (d : Dev)
    (h : ∀ pay p e, (f pay p e).alm = e.alm) : PoolSafe d (midiCommit i kind f d) :=
  commitWith_poolSafe i kind _ d fun _ _ => by simp [h]

theorem noteOnDev_poolSafe (i : Nat) (d : Dev) : PoolSafe d (noteOnDev i d) :=
  commitWith_poolSafe i _ _ d fun _ _ => by simp

theorem paramSetDev_poolSafe (i : Nat) (d : Dev) : PoolSafe d (paramSetDev i d) :=
  commitWith_poolSafe i _ _ d fun _ _ => by simp

theorem timerFireDev_poolSafe (i : Nat) (d : Dev) : PoolSafe d (timerFireDev i d) :=
  commitWith_poolSafe i _ _ d fun _ _ => by simp

theorem noteOffDev_poolSafe (i : Nat) (d : Dev) : PoolSafe d (noteOffDev i d) :=
  commitWith_poolSafe i _ _ d fun _ _ => by simp

theorem voiceKillDev_poolSafe (i : Nat) (d : Dev) : PoolSafe d (voiceKillDev i d) :=
  commitWith_poolSafe i _ _ d fun _ _ => by simp

theorem polyPressureDev_poolSafe (i : Nat) (d : Dev) : PoolSafe d (polyPressureDev i d) :=
  midiCommit_poolSafe i _ _ d fun _ _ _ => by simp

theorem bankSelectDev_poolSafe (i : Nat) (d : Dev) : PoolSafe d (bankSelectDev i d) :=
  midiCommit_poolSafe i _ _ d fun _ _ _ => by simp

theorem sustainDev_poolSafe (i : Nat) (d : Dev) : PoolSafe d (sustainDev i d) :=
  midiCommit_poolSafe i _ _ d fun _ _ _ => by simp

theorem sostenutoDev_poolSafe (i : Nat) (d : Dev) : PoolSafe d (sostenutoDev i d) :=
  midiCommit_poolSafe i _ _ d fun _ _ _ => by simp

theorem allSoundOffDev_poolSafe (i : Nat) (d : Dev) : PoolSafe d (allSoundOffDev i d) :=
  midiCommit_poolSafe i _ _ d fun _ _ _ => by simp

theorem resetAllControllersDev_poolSafe (i : Nat) (d : Dev) : PoolSafe d (resetAllControllersDev i d) :=
  midiCommit_poolSafe i _ _ d fun _ _ _ => by simp

theorem allNotesOffDev_poolSafe (i : Nat) (d : Dev) : PoolSafe d (allNotesOffDev i d) :=
  midiCommit_poolSafe i _ _ d fun _ _ _ => by simp

theorem ccDev_poolSafe (i : Nat) (d : Dev) : PoolSafe d (ccDev i d) :=
  midiCommit_poolSafe i _ _ d fun _ _ _ => by simp

theorem programDev_poolSafe (i : Nat) (d : Dev) : PoolSafe d (programDev i d) :=
  midiCommit_poolSafe i _ _ d fun _ _ _ => by simp

theorem pitchBendDev_poolSafe (i : Nat) (d : Dev) : PoolSafe d (pitchBendDev i d) :=
  midiCommit_poolSafe i _ _ d fun _ _ _ => by simp

theorem chanPressureDev_poolSafe (i : Nat) (d : Dev) : PoolSafe d (chanPressureDev i d) :=
  midiCommit_poolSafe i _ _ d fun _ _ _ => by simp

theorem userDev_poolSafe (i : Nat) (d : Dev) : PoolSafe d (userDev i d) := by
  unfold userDev mgmtFinish
  refine commitWith_poolSafe _ _ _ _ fun t e => ?_
  simp

/-! ### Parsers (R385 to R391) -/

theorem parserTask_poolSafe (n : Nat) (f : List Nat) (d : Dev) : PoolSafe d (parserTask n f d) :=
  PoolSafe.trans (.of_alm (by simp)) ((earlierReleases_poolSafe n _).trans (offerHeld_poolSafe n _))

theorem parserData_poolSafe (n b : Nat) (d : Dev) : PoolSafe d (parserData n b d) := by
  unfold parserData
  refine .ite (.of_alm (by simp)) (.ite (.of_alm (by simp)) (.ite (.of_alm (by simp)) ?_))
  exact PoolSafe.trans (.of_alm (by simp)) (parserTask_poolSafe n _ _)

theorem sysexEnd_poolSafe (n : Nat) (x : SysEx) (d : Dev) : PoolSafe d (sysexEnd n x d) :=
  .ite (.of_alm (by simp)) <| .ite (.of_alm (by simp)) <| PoolSafe.trans (.of_alm (by simp)) (parserTask_poolSafe n _ _)

theorem parseByte_poolSafe (n b ef : Nat) (d : Dev) : PoolSafe d (parseByte n b ef d) := by
  unfold parseByte
  refine .ite (.refl d) ?_
  split
  · exact .ite (.of_alm (by simp)) (.ite (sysexEnd_poolSafe n _ d) (.of_alm (by simp)))
  · exact .ite (parserData_poolSafe n b d) (.of_alm (by simp))

theorem parserByteDev_poolSafe (n : Nat) (d : Dev) : PoolSafe d (parserByteDev n d) := by
  unfold parserByteDev
  dsimp only
  split
  · exact .refl d
  · exact .ite (PoolSafe.trans (.of_alm (by simp)) (parseByte_poolSafe n _ _ _)) (.refl d)

/-! ### The release and what stops and starts it -/

theorem chooseFor_poolSafe (t : Task) (d : Dev) : PoolSafe d (chooseFor t d) := by
  refine PoolSafe.trans (d.modTask_poolSafe t.idx _ ?idx) (.of_alm (forEach_alm _ _ _ fun v e => by simp))
  exact fun _ => rfl

theorem chooseRelease_poolSafe (d : Dev) : PoolSafe d (chooseRelease d) := by
  refine PoolSafe.foldl_on Prod.fst (fun x _ => ?_) _ (d, _)
  split
  · exact chooseFor_poolSafe _ x.1
  · exact .refl x.1

theorem parlourRelease_poolSafe (d : Dev) : PoolSafe d (parlourRelease d) := by
  have hbefore : PoolSafe d (remoteRelease (headLatch (dirRelease (positionsLeave d)))) := .of_alm (by simp)
  exact (hbefore.trans (chooseRelease_poolSafe _)).trans (.of_alm (by simp [parlourRelease]))

theorem masterRelease_alm (d : Dev) : (masterRelease d).alm = d.alm := by
  unfold masterRelease
  dsimp only
  repeat' split
  all_goals simp

theorem casRelease_alm (d : Dev) : (casRelease d).alm = d.alm := by
  unfold casRelease
  dsimp only
  repeat' split
  all_goals simp [masterRelease_alm]

theorem chrRelease_alm (d : Dev) : (chrRelease d).alm = d.alm := by simp

theorem efReleaseDev_poolSafe (d : Dev) : PoolSafe d (efReleaseDev d) := by
  unfold efReleaseDev
  refine .ite (.refl d) ?_
  extract_lets d1 d2 _ d3 d4 d5 d6 d7 eff d8 d9 d10
  have h0 : PoolSafe d (arbitrate id id d.arbEnds) := (arbitrate_poolSafe .refl .refl d.arbEnds).head rfl
  have h8 : PoolSafe d d8 := h0.tail (by simp [d8, d7, d6, d5, d4, d3, d2, d1])
  have h9 : PoolSafe d d9 := ((h8.trans (almRelease_poolSafe d8)).tail (chrRelease_alm _)).trans (parlourRelease_poolSafe _)
  exact h9.tail (by simp [d10, casRelease_alm])

theorem refLostDev_poolSafe (d : Dev) : PoolSafe d (refLostDev d) := by
  unfold refLostDev
  refine .ite (.refl d) ?_
  extract_lets _ d1 d2 d3
  have h2 : (calAbortAll (fun _ => true) (parkOutputs true d2)).alm = d.alm := by simp [d2, d1]
  exact .ite (.of_pool rfl) (((syncAccepting_poolSafe _).head h2).tail (by simp [d3]))

theorem refValidDev_poolSafe (d : Dev) : PoolSafe d (refValidDev d) := by
  unfold refValidDev
  refine .ite (.refl d) (.ite ?_ (.ite (.of_pool rfl) (.refl d)))
  exact PoolSafe.trans (.of_alm (by simp)) (syncAccepting_poolSafe _)

theorem engineSet_poolSafe (on : Bool) (d : Dev) : PoolSafe d (engineSet on d) := by
  unfold engineSet
  extract_lets was d1 d2 d3 d4
  exact (syncAccepting_poolSafe d4).head (by simp [d4, d3, d2, d1])

theorem frameCtlWrite_poolSafe (lock : Bool) (v : Word) (d : Dev) : PoolSafe d (frameCtlWrite lock v d) := by
  refine PoolSafe.trans (.of_alm ?_) (engineSet_poolSafe _ _)
  split <;> simp

/-! ### Power -/

theorem onAck_poolSafe (n : Nat) (d : Dev) : PoolSafe d (onAck n d) := by
  unfold onAck
  split
  · exact PoolSafe.trans (.of_alm (by simp)) (paramReroute_poolSafe _ _)
  · exact .refl d

theorem unitStop_poolSafe (n : Nat) (d : Dev) : PoolSafe d (unitStop n d) := by
  by_cases h : n = Dom.ctrl
  · subst h
    exact fun _ => .reset
  · refine .of_alm ?_
    unfold unitStop
    repeat' split
    all_goals simp_all

theorem leaveOn_poolSafe (n : Nat) (t : DomState) (d : Dev) : PoolSafe d (leaveOn n t d) := by
  refine (unitStop_poolSafe n d).trans (.of_alm ?_)
  unfold leaveOn
  dsimp only
  split <;> simp

theorem agentAnswerDev_poolSafe (n : Nat) (d : Dev) : PoolSafe d (agentAnswerDev n d) := by
  unfold agentAnswerDev
  extract_lets d1
  have h1 : d1.alm = d.alm := rfl
  split
  · exact .of_alm h1
  next t _ =>
    refine .ite (.of_alm h1) (.ite (.of_alm (by simp [h1])) ?_)
    extract_lets first d2 why
    have h2 : d2.alm = d.alm := by simp [d2, h1]
    refine .ite (.of_alm (by simp [h2])) (.ite (.of_alm (by simp [h2])) ?_)
    have h3 : (d2.modDom n fun x => { x with phase := .acked t }).alm = d.alm := by simp [h2]
    exact ((onAck_poolSafe n _).head h3).tail (by simp)

theorem domainEntryDev_poolSafe (n : Nat) (d : Dev) : PoolSafe d (domainEntryDev n d) := by
  unfold domainEntryDev
  split
  next t _ =>
    refine .ite (.refl d) ?_
    extract_lets x d1 d2 d3 d4
    have h3 : PoolSafe d d3 := (leaveOn_poolSafe n t d).tail (by simp [d3, d2, d1])
    refine h3.tail ?_
    simp only [controllerPass_keeps, d4]
    split <;> simp
  next => exact .refl d

/-! ### Superframes -/

theorem takeStatus_alm (q : Nat) (st : List Byte) (d : Dev) : (takeStatus q st d).alm = d.alm := by
  unfold takeStatus
  dsimp only
  split
  · split <;> simp
  · refine (foldl_keeps (fun d : Dev => d.alm) _ (fun d k => ?_) _ _).trans ?_
    · simp
    · split <;> simp

theorem takeStatuses_alm (b : List Byte) (d : Dev) : (takeStatuses b d).alm = d.alm := by
  refine foldl_keeps (fun d : Dev => d.alm) _ (fun d k => ?_) _ _
  dsimp only
  split <;> exact takeStatus_alm _ _ _

theorem inboundSuperframeDev_alm (bytes : List Byte) (codeOk : Bool) (d : Dev) : (inboundSuperframeDev bytes codeOk d).alm = d.alm := by
  unfold inboundSuperframeDev
  dsimp only
  repeat' split
  all_goals simp [takeStatuses_alm]

/-! ### Register writes -/

theorem almWrite_poolSafe (a : Nat) (v : Word) (d : Dev) : PoolSafe d (almWrite a v d) :=
  .ite (flushDev_poolSafe v d) <| .ite (.ite (.of_alm (by simp)) (.of_alm (by simp))) <|
    .ite (hostPostRow_poolSafe v d) <| .ite (hostCancelDev_poolSafe v d) (.of_alm (by simp))

@[simp] theorem frameWrite_alm (a : Nat) (v : Word) (d : Dev) : (frameWrite a v d).alm = d.alm := by
  unfold frameWrite
  split
  · dsimp only
    repeat' split
    all_goals simp
  · rfl

@[simp] theorem vidWrite_alm (lock : Bool) (v : Word) (d : Dev) : (vidWrite lock v d).alm = d.alm := by
  simp -implicitDefEqProofs [vidWrite]

@[simp] theorem moverWrite_alm (mgmt : Bool) (a : Nat) (v : Word) (d : Dev) : (moverWrite mgmt a v d).alm = d.alm := by
  simp -implicitDefEqProofs [moverWrite]

@[simp] theorem mixWrite_alm (a : Nat) (v : Word) (d : Dev) : (mixWrite a v d).alm = d.alm := by
  simp -implicitDefEqProofs [mixWrite]

@[simp] theorem cluWrite_alm (lock mgmt : Bool) (a : Nat) (v : Word) (d : Dev) : (cluWrite lock mgmt a v d).alm = d.alm := by
  simp -implicitDefEqProofs [cluWrite]

@[simp] theorem serialWrite_alm (a : Nat) (v : Word) (d : Dev) : (serialWrite a v d).alm = d.alm := by
  simp -implicitDefEqProofs [serialWrite]

@[simp] theorem winWrite_alm (a : Nat) (v : Word) (be : BitVec 4) (d : Dev) : (winWrite a v be d).alm = d.alm := by
  simp -implicitDefEqProofs [winWrite]

theorem readEffect_poolSafe (a : Nat) (d : Dev) : PoolSafe d (readEffect a d) := by
  unfold readEffect
  refine .ite (.refl d) (.ite ?_ (.ite (almDoneReadDev_poolSafe d) ?_))
  all_goals refine .of_alm ?_
  · simp -implicitDefEqProofs
  · repeat' split
    all_goals simp -implicitDefEqProofs

/-- A register write touches the pool in the Almanac's block alone. -/
theorem devWrite_poolSafe (lock mgmt : Bool) (a : Nat) (v : Word) (be : BitVec 4) (d : Dev) :
    PoolSafe d (devWrite lock mgmt a v be d) := by
  unfold devWrite
  refine .ite ?_ <| .ite ?_ <| .ite ?_ <| .ite ?_ <| .ite ?_ <| .ite ?_ <| .ite ?_ <| .ite ?_ <| .ite ?_ <| .ite ?_ <|
    .ite (almWrite_poolSafe a v d) ?_
  all_goals exact .of_alm (by simp -implicitDefEqProofs)

end Sys2Proof.Machine
end

section
/-! SUPPORT. The pool of tasks under the state's own operations: resets, wakes, boot, management commands and the host port. -/

namespace Sys2Proof.Machine

open Sys2Proof

/-! ### Flash, mover and mirror -/

@[simp] theorem State.putFlash_alm (s : State) (fl : List Host.Cell) : (s.putFlash fl).dev.alm = s.dev.alm := by
  unfold State.putFlash; split <;> rfl

@[simp] theorem writeRecord_alm (p : Nat) (s : State) : (writeRecord p s).dev.alm = s.dev.alm := by
  simp [writeRecord]

@[simp] theorem preferRestore_alm (s : State) : (preferRestore s).dev.alm = s.dev.alm := by
  unfold preferRestore; split <;> simp

@[simp] theorem runReached_alm (was : Nat) (s : State) : (runReached was s).dev.alm = s.dev.alm := by
  unfold runReached; split <;> simp

@[simp] theorem modMgt_alm (f : Mgmt → Mgmt) (s : State) : (modMgt f s).dev.alm = s.dev.alm := rfl

@[simp] theorem flashSpoil_alm (a n : Nat) (s : State) : (flashSpoil a n s).dev.alm = s.dev.alm := by
  simp [flashSpoil, State.onDev]

@[simp] theorem eraseSector_alm (a : Nat) (s : State) : (eraseSector a s).dev.alm = s.dev.alm := by
  simp [eraseSector]

@[simp] theorem spaceWrite_alm (s : State) (sp a : Nat) (bs : List Byte) : (spaceWrite s sp a bs).dev.alm = s.dev.alm := by
  unfold spaceWrite
  repeat' split
  all_goals simp [State.onDev]

@[simp] theorem moverMove_alm (c n : Nat) (s : State) : (moverMove c n s).dev.alm = s.dev.alm := by
  simp [moverMove, State.onDev]

@[simp] theorem moverBurstState_alm (c : Nat) (s : State) : (moverBurstState c s).dev.alm = s.dev.alm := by
  unfold moverBurstState; split <;> simp [State.onDev]

@[simp] theorem mirrorResume_alm (s : State) : (mirrorResume s).dev.alm = s.dev.alm := by
  unfold mirrorResume
  dsimp only
  repeat' split
  all_goals simp

@[simp] theorem mirrorOpen_alm (s : State) : (mirrorOpen s).dev.alm = s.dev.alm := by
  unfold mirrorOpen; split <;> simp

@[simp] theorem mirrorOne_alm (s : State) : (mirrorOne s).dev.alm = s.dev.alm := by
  simp [mirrorOne]

@[simp] theorem mirrorGroup_alm (n : Nat) (s : State) : (mirrorGroup n s).dev.alm = s.dev.alm :=
  (foldl_keeps (fun s : State => s.dev.alm) _ (fun s _ => mirrorOne_alm s) _ _).trans (mirrorResume_alm s)

@[simp] theorem mirrorFails_alm (n : Nat) (s : State) : (mirrorFails n s).dev.alm = s.dev.alm := by
  simp [mirrorFails, State.onDev]

@[simp] theorem logMirrorWriteState_alm (ok : Bool) (s : State) : (logMirrorWriteState ok s).dev.alm = s.dev.alm := by
  unfold logMirrorWriteState
  dsimp only
  repeat' split
  all_goals simp

/-! ### The boot -/

@[simp] theorem failLate_alm (code sect : Nat) (s : State) : (failLate code sect s).dev.alm = s.dev.alm := by
  simp [failLate, Dev.modBoot]

@[simp] theorem sectFails_alm (x : Sect) (code : Nat) (s : State) : (sectFails x code s).dev.alm = s.dev.alm := by
  unfold sectFails; split <;> simp [State.onDev]

@[simp] theorem streamFront_alm (s : State) : (streamFront s).dev.alm = s.dev.alm := by
  unfold streamFront
  split
  · rfl
  · dsimp only
    repeat' split
    all_goals simp [State.onDev, Dev.modBoot]

@[simp] theorem streamNext_alm (x : Sect) (code : Nat) (s : State) : (streamNext x code s).dev.alm = s.dev.alm := by
  unfold streamNext; split <;> simp [State.onDev, Dev.modBoot]

@[simp] theorem waveStreamDoneState_alm (s : State) : (waveStreamDoneState s).dev.alm = s.dev.alm := by
  unfold waveStreamDoneState
  dsimp only
  repeat' split
  all_goals simp [State.onDev]

@[simp] theorem octalSwitch_alm (slot : Nat) (s : State) : (octalSwitch slot s).dev.alm = s.dev.alm := by
  unfold octalSwitch
  dsimp only
  repeat' split
  all_goals simp [State.onDev]

@[simp] theorem trySlot_alm (slot : Nat) (s : State) : (trySlot slot s).1.dev.alm = s.dev.alm := by
  unfold trySlot
  dsimp only
  repeat' split
  all_goals simp [acceptSlot, failInPlace, State.onDev, Dev.modBoot]

@[simp] theorem trySlots_alm (s : State) : (trySlots s).dev.alm = s.dev.alm := by
  unfold trySlots
  dsimp only
  repeat' split
  all_goals simp [noImage, State.onDev]

@[simp] theorem nvmResetWaitEndState_alm (s : State) : (nvmResetWaitEndState s).dev.alm = s.dev.alm := by
  unfold nvmResetWaitEndState; split <;> simp [State.onDev, Dev.modBoot]

@[simp] theorem listFails_alm (s : State) : (listFails s).dev.alm = s.dev.alm := by
  unfold listFails; split <;> simp

@[simp] theorem listFront_alm (s : State) : (listFront s).dev.alm = s.dev.alm := by
  unfold listFront
  repeat' split
  all_goals simp

@[simp] theorem listNext_alm (s : State) : (listNext s).dev.alm = s.dev.alm := by
  simp [listNext, State.onDev, Dev.modBoot]

@[simp] theorem loadSect_alm (x : Sect) (s : State) : (loadSect x s).dev.alm = s.dev.alm := by
  unfold loadSect
  dsimp only
  repeat' split
  all_goals simp [State.onDev, Dev.modBoot]

@[simp] theorem firmwareRuns_alm (x : Sect) (s : State) : (firmwareRuns x s).dev.alm = s.dev.alm := by
  unfold firmwareRuns
  dsimp only
  split
  · simp [State.onDev]
  · rw [streamFront_alm, listFront_alm]
    refine (foldl_keeps (fun s : State => s.dev.alm) _ (fun s x => loadSect_alm x s) _ _).trans ?_
    simp [State.onDev]

@[simp] theorem firmwareStartState_alm (s : State) : (firmwareStartState s).dev.alm = s.dev.alm := by
  unfold firmwareStartState
  dsimp only
  repeat' split
  all_goals simp [failInPlace, State.onDev, Dev.modBoot]

/-! ### Management commands -/

@[simp] theorem abortSession_alm (n : Nat) (s : State) : (abortSession n s).dev.alm = s.dev.alm := by
  unfold abortSession; split <;> simp [closeSession, spoilTarget, State.onDev]

/-- A command's meaning leaves the Almanac alone. -/
def CmdKeepsAlm (f : List Byte → State → Reply) : Prop := ∀ p s, (f p s).st.dev.alm = s.dev.alm

@[simp] theorem endWith_alm (n : Nat) (s : State) : (endWith n s).st.dev.alm = s.dev.alm := rfl

@[simp] theorem withSession_alm (c : Caller) (f : Session → State → Reply) (s : State)
    (h : ∀ x s, (f x s).st.dev.alm = s.dev.alm) : (withSession c f s).st.dev.alm = s.dev.alm := by
  unfold withSession
  repeat' split
  all_goals simp [h]

@[simp] theorem imageBytes_alm (c : Caller) (x : Session) (off : Nat) (bs : List Byte) (s : State) :
    (imageBytes c x off bs s).st.dev.alm = s.dev.alm := by
  unfold imageBytes
  repeat' split
  all_goals simp [imageWrite, sessionFails]

theorem getInfoCmd_alm : CmdKeepsAlm getInfoCmd := fun _ _ => rfl

theorem logAddCmd_alm : CmdKeepsAlm logAddCmd := fun p s => by simp [logAddCmd, State.onDev]

theorem logSyncCmd_alm (c : Caller) : CmdKeepsAlm (logSyncCmd c) := by
  intro p s
  unfold logSyncCmd
  dsimp only
  repeat' split
  all_goals simp

theorem updBeginCmd_alm (c : Caller) : CmdKeepsAlm (updBeginCmd c) := by
  intro p s
  unfold updBeginCmd
  dsimp only
  repeat' split
  all_goals simp [State.onDev]

theorem updDataCmd_alm (c : Caller) : CmdKeepsAlm (updDataCmd c) := fun p s => by simp [updDataCmd]

theorem updDramCmd_alm (c : Caller) : CmdKeepsAlm (updDramCmd c) := by
  intro p s
  unfold updDramCmd
  refine withSession_alm _ _ _ fun x s => ?_
  dsimp only
  repeat' split
  all_goals simp [State.onDev]

theorem updEndCmd_alm (c : Caller) : CmdKeepsAlm (updEndCmd c) := by
  intro p s
  unfold updEndCmd
  refine withSession_alm _ _ _ fun x s => ?_
  dsimp only
  repeat' split
  all_goals simp [sessionFails, closeSession, spoilTarget, State.onDev]

theorem updAbortCmd_alm (c : Caller) : CmdKeepsAlm (updAbortCmd c) := fun p s => by simp [updAbortCmd]

theorem rollbackAdvCmd_alm : CmdKeepsAlm rollbackAdvCmd := by
  intro p s
  unfold rollbackAdvCmd
  dsimp only
  split <;> simp [State.onDev]

theorem setPreferCmd_alm (c : Caller) : CmdKeepsAlm (setPreferCmd c) := by
  intro p s
  unfold setPreferCmd
  repeat' split
  all_goals simp

theorem nvmIdCmd_alm : CmdKeepsAlm nvmIdCmd := by
  intro p s
  unfold nvmIdCmd
  split <;> rfl

theorem nvmReadCmd_alm (c : Caller) : CmdKeepsAlm (nvmReadCmd c) := by
  intro p s
  unfold nvmReadCmd
  dsimp only
  repeat' split
  all_goals rfl

theorem nvmEraseCmd_alm (c : Caller) : CmdKeepsAlm (nvmEraseCmd c) := by
  intro p s
  unfold nvmEraseCmd
  dsimp only
  repeat' split
  all_goals simp

theorem nvmProgCmd_alm (c : Caller) : CmdKeepsAlm (nvmProgCmd c) := by
  intro p s
  unfold nvmProgCmd
  dsimp only
  repeat' split
  all_goals simp

theorem fwdEnd_alm : CmdKeepsAlm (fun p s => endWith (fwdErr s.dev p) s) := fun _ _ => rfl

@[simp] theorem freshBases_alm (s : State) : (freshBases s).dev.alm = s.dev.alm := by
  unfold freshBases; split <;> rfl

theorem served_alm (cmd : Nat) (c : Caller) (req : List Byte) {f : List Byte → State → Reply} (h : CmdKeepsAlm f) (s : State) :
    (served cmd c req f s).st.dev.alm = s.dev.alm := by
  unfold served
  dsimp only
  repeat' split
  all_goals simp [h _ _]

theorem mailboxRow_alm (cmd : Nat) {f : List Byte → State → Reply} (h : CmdKeepsAlm f) (s : State) :
    (mailboxRow cmd f s).dev.alm = s.dev.alm := by
  unfold mailboxRow
  dsimp only
  split
  · simp [served_alm _ _ _ h]
  · rfl

theorem reply_alm_ite {c : Prop} [Decidable c] {a b : Reply} {x : Alm} (ha : a.st.dev.alm = x) (hb : b.st.dev.alm = x) :
    (if c then a else b).st.dev.alm = x := by split <;> assumption

@[simp] theorem runCommand_alm (c : Caller) (req : List Byte) (s : State) : (runCommand c req s).st.dev.alm = s.dev.alm := by
  have serve {f} (h : CmdKeepsAlm f) := served_alm (byteAt req 0) c req h s
  unfold runCommand
  refine reply_alm_ite (serve getInfoCmd_alm) <| reply_alm_ite (serve logAddCmd_alm) <| reply_alm_ite (serve (logSyncCmd_alm c)) ?_
  refine reply_alm_ite (serve (updBeginCmd_alm c)) <| reply_alm_ite (serve (updDataCmd_alm c)) ?_
  refine reply_alm_ite (serve (updDramCmd_alm c)) <| reply_alm_ite (serve (updEndCmd_alm c)) ?_
  refine reply_alm_ite (serve (updAbortCmd_alm c)) <| reply_alm_ite (serve rollbackAdvCmd_alm) ?_
  refine reply_alm_ite (serve (setPreferCmd_alm c)) <| reply_alm_ite (serve nvmIdCmd_alm) ?_
  refine reply_alm_ite (serve (nvmReadCmd_alm c)) <| reply_alm_ite (serve (nvmEraseCmd_alm c)) ?_
  exact reply_alm_ite (serve (nvmProgCmd_alm c)) <| reply_alm_ite (serve fwdEnd_alm) rfl

@[simp] theorem fwdState_alm (s : State) : (fwdState s).dev.alm = s.dev.alm := by
  unfold fwdState
  dsimp only
  repeat' split
  · exact mailboxRow_alm _ fwdEnd_alm s
  · simp [State.onDev]
  · rfl

@[simp] theorem mgmtReqState_alm (ok : Bool) (s : State) : (mgmtReqState ok s).dev.alm = s.dev.alm := by
  unfold mgmtReqState
  split
  · rfl
  · split
    · rfl
    next p d h => simp [State.onDev, takePacket_alm h]

@[simp] theorem sysexRequest_alm (ok : Bool) (n : Nat) (req : List Byte) (s : State) :
    (sysexRequest ok n req s).dev.alm = s.dev.alm := by
  unfold sysexRequest
  dsimp only
  repeat' split
  all_goals simp [State.onDev]

@[simp] theorem sysexMessage_alm (ok : Bool) (n : Nat) (msg : List Byte) (s : State) :
    (sysexMessage ok n msg s).dev.alm = s.dev.alm := by
  unfold sysexMessage
  repeat' split
  all_goals simp [State.onDev]

theorem sysexDoneState_poolSafe (i : Nat) (ok : Bool) (s : State) : PoolSafe s.dev (sysexDoneState i ok s).dev := by
  unfold sysexDoneState
  split
  · exact .refl s.dev
  next t _ =>
    extract_lets s1 buf msg s2
    have h2 : s2.dev.alm = s.dev.alm := by
      simp only [s2]
      split <;> simp [s1, State.onDev]
    exact (finishTask_poolSafe t 0 (freeBuf buf s2.dev)).head (by simp [h2])

theorem mgmtRspDev_alm (d : Dev) : (mgmtRspDev d).alm = d.alm := by
  unfold mgmtRspDev
  split
  · rfl
  · split
    · rfl
    next p e h =>
      dsimp only
      repeat' split
      all_goals simp [takePacket_alm h]

theorem logPacketDev_alm (d : Dev) : (logPacketDev d).alm = d.alm := by
  unfold logPacketDev
  split
  · rfl
  · split
    · rfl
    next p e h => simp [takePacket_alm h]

/-! ### Resets and wakes -/

theorem resetState_poolSafe (c : Cause) (s : State) (d : Dev) : PoolSafe d (resetState c s).dev := fun _ => by
  obtain ⟨-, -, halm, -⟩ := resetState_atRest c s
  rw [halm]
  exact .reset

theorem sysexVoid_poolSafe (d : Dev) : PoolSafe d (sysexVoid d) :=
  .forEach (fun t d => (finishTask_poolSafe t 0 { d with ser := { d.ser with
    bufs := upd d.ser.bufs (pay16 t.payload 4) fun _ => none } }).head rfl) d

theorem mgmtReload_poolSafe (s : State) : PoolSafe s.dev (mgmtReload s).2.dev := by
  unfold mgmtReload
  split
  · exact .of_alm rfl
  · split
    · exact .refl s.dev
    · dsimp only
      split
      · exact .refl s.dev
      · exact (sysexVoid_poolSafe _).head (by simp)

theorem reportOn_poolSafe (n : Nat) (d : Dev) : PoolSafe d (reportOn n d) := by
  unfold reportOn
  extract_lets d1 d2 d3 d4 d5 d6
  have h2 : d2.alm = d.alm := by simp [d2, d1]
  have h3 : PoolSafe d d3 := .ite ((syncAccepting_poolSafe d2).head h2) (.of_alm h2)
  exact h3.tail (by simp [d6, d5, d4])

theorem domainWakeState_poolSafe (n : Nat) (s : State) : PoolSafe s.dev (domainWakeState n s).dev := by
  unfold domainWakeState
  split
  · exact .refl s.dev
  extract_lets cold s1
  have h1 : PoolSafe s.dev s1.dev := .of_alm (by simp [s1, State.onDev])
  split
  · have hr : PoolSafe s.dev (mgmtReload s1).2.dev := h1.trans (mgmtReload_poolSafe s1)
    split
    next t e =>
      rw [e] at hr
      exact hr.trans (reportOn_poolSafe n t.dev)
    next => exact resetState_poolSafe _ _ _
  · split
    · exact (h1.tail (e := s1.dev) (f := mgmtResume s1.dev) (by simp)).trans (reportOn_poolSafe n _)
    · exact h1.trans (reportOn_poolSafe n s1.dev)

end Sys2Proof.Machine
end

section
/-! PROOF. Every command keeps the pool of tasks well formed (R115, R120): the statement on the pool. -/

namespace Sys2Proof.Machine

open Sys2Proof

/-! ### The host's and the lists' writes -/

theorem lockWrite_alm (v : Word) (s : State) : (lockWrite v s).dev.alm = s.dev.alm := by
  unfold lockWrite
  dsimp only
  repeat' split
  all_goals rfl

theorem frameCtlState_poolSafe (v : Word) (s : State) : PoolSafe s.dev (frameCtlState v s).dev :=
  (frameCtlWrite_poolSafe s.prot.lock v s.dev).tail (runReached_alm _ _)

theorem continueState_poolSafe (v : Word) (s : State) : PoolSafe s.dev (continueState v s).dev := by
  unfold continueState
  split
  · exact (engineSet_poolSafe true s.dev).tail (runReached_alm _ _)
  · exact .refl s.dev

theorem retryState_alm (v : Word) (s : State) : (retryState v s).dev.alm = s.dev.alm := by
  unfold retryState
  split <;> simp [Dev.modBoot]

theorem softwareResetState_poolSafe (v : Word) (s : State) : PoolSafe s.dev (softwareResetState v s).dev := by
  unfold softwareResetState
  split
  · exact resetState_poolSafe _ s s.dev
  · exact .refl s.dev

theorem regWrite_poolSafe (mgmt : Bool) (a : Nat) (v : Word) (be : BitVec 4) (s : State) :
    PoolSafe s.dev (regWrite mgmt a v be s).dev := by
  unfold regWrite
  split
  · exact .refl s.dev
  split
  · exact .of_alm (lockWrite_alm v s)
  split
  · exact softwareResetState_poolSafe v s
  split
  · exact frameCtlState_poolSafe v s
  split
  · exact (continueState_poolSafe v s).tail (retryState_alm v _)
  · exact devWrite_poolSafe _ _ _ _ _ s.dev

theorem hostCommit_poolSafe (a : Nat) (v : Word) (lo hi : BitVec 2) (s : State) : PoolSafe s.dev (hostCommit a v lo hi s).dev := by
  unfold hostCommit
  split
  · exact .refl s.dev
  split
  · exact .of_alm (by simp [State.onDev])
  split
  · exact .refl s.dev
  split
  · exact .of_alm rfl
  · exact regWrite_poolSafe _ _ _ _ s

theorem highWrite_poolSafe (a : Nat) (x : BitVec 16) (be : BitVec 2) (s : State) : PoolSafe s.dev (highWrite a x be s).dev := by
  unfold highWrite
  split
  · exact .of_alm rfl
  · dsimp only
    split
    · exact (hostCommit_poolSafe _ _ _ _ _).head rfl
    · exact .of_alm rfl

theorem responderHighWrite_alm (a : Nat) (x : BitVec 16) (be : BitVec 2) (d : Dev) : (responderHighWrite a x be d).alm = d.alm := by
  simp

theorem hostHighHalfWriteState_poolSafe (ha : Nat) (x : BitVec 16) (be : BitVec 2) (s : State) :
    PoolSafe s.dev (hostHighHalfWriteState ha x be s).dev := by
  unfold hostHighHalfWriteState
  split
  · exact .refl s.dev
  split
  · exact highWrite_poolSafe _ x be s
  · exact .of_alm (responderHighWrite_alm _ x be s.dev)

theorem lowRead_poolSafe (a : Nat) (s : State) : PoolSafe s.dev (lowRead a s).dev := by
  unfold lowRead
  dsimp only
  split
  · exact .of_alm rfl
  · exact (readEffect_poolSafe a _).head (by simp)

theorem highRead_alm (s : State) (a : Nat) : (highRead s a).2.alm = s.dev.alm := by
  unfold highRead
  dsimp only
  repeat' split
  all_goals simp [Dev.modHp]

theorem mgmtPostH_alm {off : Nat} {v : Word} {be : BitVec 4} {d e : Dev} (h : mgmtPostH off v be d = some e) : e.alm = d.alm := by
  unfold mgmtPostH at h
  split at h
  · cases h
    simp
  · cases h

theorem mgmtWrite_poolSafe {a : Nat} {v : Word} {s t : State} (h : mgmtWrite a v s = some t) : PoolSafe s.dev t.dev := by
  unfold mgmtWrite at h
  split at h
  · cases h
    exact regWrite_poolSafe _ _ _ _ s
  · split at h
    · obtain ⟨d, hd, rfl⟩ := Option.map_eq_some_iff.mp h
      exact .of_alm (mgmtPostH_alm hd)
    · cases h
      exact .refl s.dev

theorem listWrite_poolSafe (a : Nat) (v : Word) (s : State) : PoolSafe s.dev (listWrite a v s).dev := by
  unfold listWrite
  split
  next t h => exact (mgmtWrite_poolSafe h).tail (listNext_alm t)
  next => exact .refl s.dev

theorem mgmtRead_poolSafe (a : Nat) (s : State) : PoolSafe s.dev (mgmtRead a s).2.dev := readEffect_poolSafe a s.dev

theorem listFill_poolSafe (v : Word) (n a : Nat) (s : State) : PoolSafe s.dev (listFill v n a s).1.dev := by
  induction n generalizing a s with
  | zero => exact .refl s.dev
  | succ n ih =>
    unfold listFill
    split
    · exact .refl s.dev
    · split
      next t h => exact (mgmtWrite_poolSafe h).trans (ih _ t)
      next => exact .refl s.dev

theorem reginitWriteState_poolSafe (a : Nat) (v : Word) (s : State) : PoolSafe s.dev (reginitWriteState a v s).dev := by
  unfold reginitWriteState
  repeat' split
  · exact .refl s.dev
  · exact listWrite_poolSafe a v s
  · exact .of_alm (listFails_alm s)

theorem reginitSetState_poolSafe (a : Nat) (v : Word) (s : State) : PoolSafe s.dev (reginitSetState a v s).dev := by
  unfold reginitSetState
  repeat' split
  · exact .refl s.dev
  · exact (mgmtRead_poolSafe a s).trans (listWrite_poolSafe a _ _)
  · exact .of_alm (listFails_alm s)

theorem reginitClearState_poolSafe (a : Nat) (v : Word) (s : State) : PoolSafe s.dev (reginitClearState a v s).dev := by
  unfold reginitClearState
  repeat' split
  · exact .refl s.dev
  · exact (mgmtRead_poolSafe a s).trans (listWrite_poolSafe a _ _)
  · exact .of_alm (listFails_alm s)

theorem reginitPollState_poolSafe (k a : Nat) (v : Word) (s : State) : PoolSafe s.dev (reginitPollState k a v s).dev := by
  unfold reginitPollState
  split
  · exact .refl s.dev
  split
  · dsimp only
    split
    · exact (mgmtRead_poolSafe a s).tail (listNext_alm _)
    · exact (mgmtRead_poolSafe a s).tail rfl
  · exact .of_alm (listFails_alm s)

theorem reginitDelayState_alm (k : Nat) (s : State) : (reginitDelayState k s).dev.alm = s.dev.alm := by
  unfold reginitDelayState
  repeat' split
  all_goals simp [State.onDev, Dev.modBoot]

theorem listLeft_alm (k a : Nat) (d : Dev) : (listLeft k a d).alm = d.alm := by simp

theorem reginitFillState_poolSafe (k a : Nat) (v : Word) (s : State) : PoolSafe s.dev (reginitFillState k a v s).dev := by
  unfold reginitFillState
  split
  · exact .refl s.dev
  dsimp only
  split
  · exact .of_alm (listFails_alm s)
  split
  · exact (listFill_poolSafe v _ a s).tail (listNext_alm _)
  · exact (listFill_poolSafe v _ a s).tail (listLeft_alm _ _ _)

theorem engineEnd_poolSafe (s : State) : PoolSafe s.dev (engineEnd s).dev := by
  unfold engineEnd
  split
  · exact .refl s.dev
  split
  · exact (engineSet_poolSafe false _).head (by simp)
  · exact ((engineSet_poolSafe true (s.dev.setStage Stage.run)).head (by simp)).tail (runReached_alm _ _)

theorem engineStageState_poolSafe (s : State) : PoolSafe s.dev (engineStageState s).dev := by
  unfold engineStageState
  dsimp only
  repeat' split
  · exact .refl s.dev
  · exact (engineEnd_poolSafe _).head rfl
  · exact .of_alm (listFront_alm _)
  · exact .refl s.dev
  · exact engineEnd_poolSafe s
  · exact .refl s.dev

/-! ### The test access port -/

theorem jtagLoad_poolSafe (op : Nat) (s : State) : PoolSafe s.dev (jtagLoad op s).dev := by
  unfold jtagLoad
  dsimp only
  split
  · exact resetState_poolSafe _ _ _
  · exact .refl s.dev

theorem tapCommand_poolSafe (op : Nat) (s : State) : PoolSafe s.dev (tapCommand op s).dev := by
  unfold tapCommand
  split
  · exact (jtagLoad_poolSafe op s).tail rfl
  · exact jtagLoad_poolSafe op s

/-! ### Every command -/

section rows

variable {s t : State}

theorem poolSafe_of_next {u : State} (h : (.next u : Host.Outcome State Fault Refusal) = .next t) (hu : PoolSafe s.dev u.dev) :
    PoolSafe s.dev t.dev := by cases h; exact hu

theorem asHost_poolSafe (f : State → State) (h : PoolSafe s.dev (f s).dev) : PoolSafe s.dev (s.asHost f).dev := by
  unfold State.asHost
  split
  · exact h
  · exact .refl s.dev

theorem devNext_poolSafe {f : Dev → Dev} (hf : PoolSafe s.dev (f s.dev)) (h : devNext s f = .next t) : PoolSafe s.dev t.dev :=
  poolSafe_of_next h hf

theorem hostNext_poolSafe {f : Dev → Dev} (hf : PoolSafe s.dev (f s.dev)) (h : hostNext s f = .next t) : PoolSafe s.dev t.dev :=
  poolSafe_of_next h (asHost_poolSafe _ hf)

/-- A row that is one of two. -/
theorem rows_poolSafe {c : Prop} [Decidable c] {a b : Host.Outcome State Fault Refusal} (h : (if c then a else b) = .next t)
    (ha : a = .next t → PoolSafe s.dev t.dev) (hb : b = .next t → PoolSafe s.dev t.dev) : PoolSafe s.dev t.dev := by
  split at h
  · exact ha h
  · exact hb h

end rows

/-- Every command keeps the pool well formed.  The rows not named act on the device alone and leave the Almanac as it is. -/
theorem exec_poolSafe (c : Instr) (s t : State) (h : exec c s = .next t) : PoolSafe s.dev t.dev := by
  cases c
  case waveCacheInval | winAddrWrite | winDataWrite | winAbort | playerGo | playerStop | outputEnable | outputDisable
      | rangeChange | outFaultClear | chrStart | chrStop | chrClear | reloadWrite | captureSw | evcStart | evcStop
      | evcClearAll | evcFreeze | evcClr | swap | swapAll | skimmerCoefWrite | skimmerReset | calReq | slackMinClear
      | serTxWrite | modeChange | rxFlush | txFlush | txBreak | txBreakClear | divWrite | linkEnable | linkDisable
      | glfoRestart | tdmPortEnable | tdmPortDisable | mgtFaultClear | powerBatch | padRelease | paramStoreHostWrite =>
    exact hostNext_poolSafe (.of_alm (by simp)) h
  case hostCancel v => exact hostNext_poolSafe (hostCancelDev_poolSafe v s.dev) h
  case flush v => exact hostNext_poolSafe (flushDev_poolSafe v s.dev) h
  case hostPost v => exact hostNext_poolSafe (hostPostRow_poolSafe v s.dev) h
  case engineDisable v => exact hostNext_poolSafe (.ite (frameCtlWrite_poolSafe _ v s.dev) (.refl s.dev)) h
  case engineEnable v =>
    refine poolSafe_of_next h (asHost_poolSafe _ ?_)
    unfold engineEnableState
    split
    · exact frameCtlState_poolSafe v s
    · exact .refl s.dev
  case registerWrite a v =>
    refine poolSafe_of_next h ?_
    split
    · exact regWrite_poolSafe _ a v _ s
    · exact .refl s.dev
  case lock v =>
    refine poolSafe_of_next h (asHost_poolSafe _ ?_)
    unfold lockState
    split
    · exact .of_alm (lockWrite_alm v s)
    · exact .refl s.dev
  case softwareReset v =>
    refine poolSafe_of_next h ?_
    split
    · exact softwareResetState_poolSafe v s
    · exact .refl s.dev
  case powerOnReset => exact poolSafe_of_next h (resetState_poolSafe _ s _)
  case resetPin w =>
    refine poolSafe_of_next h ?_
    unfold resetPinState
    split
    · exact .refl s.dev
    split
    · exact resetState_poolSafe _ _ _
    · exact .of_alm rfl
  case watchdogReset =>
    refine poolSafe_of_next h ?_
    unfold watchdogResetState
    split
    · exact resetState_poolSafe _ s _
    · exact .refl s.dev
  case fallbackReset =>
    refine poolSafe_of_next h ?_
    unfold fallbackResetState
    split
    · exact resetState_poolSafe _ s _
    · exact .refl s.dev
  case updateReset =>
    refine poolSafe_of_next h ?_
    unfold updateResetState
    split
    · exact resetState_poolSafe _ s _
    · exact .refl s.dev
  case hostHighHalfWrite => exact poolSafe_of_next h (hostHighHalfWriteState_poolSafe _ _ _ s)
  case hostLowHalfRead ha =>
    refine poolSafe_of_next h ?_
    unfold hostLowHalfReadState
    repeat' split
    · exact .of_alm (by simp [State.onDev])
    · exact lowRead_poolSafe _ s
    · exact .refl s.dev
  case hostHighHalfRead ha =>
    refine poolSafe_of_next h ?_
    unfold hostHighHalfReadState
    repeat' split
    · exact .of_alm (by simp [State.onDev])
    · exact .of_alm (highRead_alm s _)
    · exact .refl s.dev
  case winDataRead => exact devNext_poolSafe (.ite (readEffect_poolSafe _ s.dev) (.refl s.dev)) h
  case aonWake v =>
    refine poolSafe_of_next h ?_
    split
    · exact .of_alm (by simp [State.onDev])
    · exact .refl s.dev
  case strapLatch =>
    refine poolSafe_of_next h ?_
    unfold strapLatchState
    split
    · exact .of_alm (by simp [State.onDev])
    · exact .refl s.dev
  case continueBoot v => exact poolSafe_of_next h (asHost_poolSafe _ (continueState_poolSafe v s))
  case retry v => exact poolSafe_of_next h (asHost_poolSafe _ (.of_alm (retryState_alm v s)))
  case domainWake n => exact poolSafe_of_next h ((domainWakeState_poolSafe n s).tail (streamFront_alm _))
  case reginitWrite => exact poolSafe_of_next h (reginitWriteState_poolSafe _ _ s)
  case reginitSet => exact poolSafe_of_next h (reginitSetState_poolSafe _ _ s)
  case reginitClear => exact poolSafe_of_next h (reginitClearState_poolSafe _ _ s)
  case reginitFill => exact poolSafe_of_next h (reginitFillState_poolSafe _ _ _ s)
  case reginitPoll => exact poolSafe_of_next h (reginitPollState_poolSafe _ _ _ s)
  case reginitPollTimeout =>
    refine poolSafe_of_next h (.of_alm ?_)
    unfold reginitPollTimeoutState
    split <;> simp
  case reginitDelay => exact poolSafe_of_next h (.of_alm (reginitDelayState_alm _ s))
  case reginitDelayEnd =>
    refine poolSafe_of_next h (.of_alm ?_)
    unfold reginitDelayEndState
    split <;> simp
  case extest | samplePreload | clamp | highz | bypass => exact poolSafe_of_next h (tapCommand_poolSafe _ s)
  case testLogicReset => exact poolSafe_of_next h (jtagLoad_poolSafe _ s)
  case moverGo | moverAbort =>
    exact rows_poolSafe h (hostNext_poolSafe (.of_alm (by simp))) (devNext_poolSafe (.of_alm (by simp)))
  case vidSettled | sensorMeasurement =>
    exact rows_poolSafe h (fun e => poolSafe_of_next e (.refl s.dev)) (devNext_poolSafe (.of_alm (by simp)))
  case moverBurst => exact poolSafe_of_next h (.of_alm (moverBurstState_alm _ s))
  case waveStreamDone => exact poolSafe_of_next h (.of_alm (waveStreamDoneState_alm s))
  case nvmResetWaitEnd => exact poolSafe_of_next h (.of_alm (nvmResetWaitEndState_alm s))
  case firmwareStart => exact poolSafe_of_next h (.of_alm (firmwareStartState_alm s))
  case engineStage => exact poolSafe_of_next h (engineStageState_poolSafe s)
  case logMirrorWrite ok => exact poolSafe_of_next h (.of_alm (logMirrorWriteState_alm ok s))
  case getInfo => exact poolSafe_of_next h (.of_alm (mailboxRow_alm _ getInfoCmd_alm s))
  case logAdd => exact poolSafe_of_next h (.of_alm (mailboxRow_alm _ logAddCmd_alm s))
  case logSync => exact poolSafe_of_next h (.of_alm (mailboxRow_alm _ (logSyncCmd_alm _) s))
  case updBegin => exact poolSafe_of_next h (.of_alm (mailboxRow_alm _ (updBeginCmd_alm _) s))
  case updData => exact poolSafe_of_next h (.of_alm (mailboxRow_alm _ (updDataCmd_alm _) s))
  case updDram => exact poolSafe_of_next h (.of_alm (mailboxRow_alm _ (updDramCmd_alm _) s))
  case updEnd => exact poolSafe_of_next h (.of_alm (mailboxRow_alm _ (updEndCmd_alm _) s))
  case updAbort => exact poolSafe_of_next h (.of_alm (mailboxRow_alm _ (updAbortCmd_alm _) s))
  case updateSessionTimeout => exact poolSafe_of_next h (.of_alm (abortSession_alm _ s))
  case rollbackAdv => exact poolSafe_of_next h (.of_alm (mailboxRow_alm _ rollbackAdvCmd_alm s))
  case setPrefer => exact poolSafe_of_next h (.of_alm (mailboxRow_alm _ (setPreferCmd_alm _) s))
  case nvmId => exact poolSafe_of_next h (.of_alm (mailboxRow_alm _ nvmIdCmd_alm s))
  case nvmRead => exact poolSafe_of_next h (.of_alm (mailboxRow_alm _ (nvmReadCmd_alm _) s))
  case nvmErase => exact poolSafe_of_next h (.of_alm (mailboxRow_alm _ (nvmEraseCmd_alm _) s))
  case nvmProg => exact poolSafe_of_next h (.of_alm (mailboxRow_alm _ (nvmProgCmd_alm _) s))
  case fwd => exact poolSafe_of_next h (.of_alm (fwdState_alm s))
  case mgmtReq ok => exact poolSafe_of_next h (.of_alm (mgmtReqState_alm ok s))
  case sysexDone i ok => exact poolSafe_of_next h (sysexDoneState_poolSafe i ok s)
  case mgmtRsp => exact devNext_poolSafe (.of_alm (mgmtRspDev_alm s.dev)) h
  case logPacket => exact devNext_poolSafe (.of_alm (logPacketDev_alm s.dev)) h
  case taskPacket => exact devNext_poolSafe (taskPacketDev_poolSafe s.dev) h
  case mgmtPost im => exact devNext_poolSafe (mgmtPostRow_poolSafe im s.dev) h
  case almArbitrationRound => exact devNext_poolSafe (almArbitrationRoundDev_poolSafe s.dev) h
  case ephemerisDue i => exact devNext_poolSafe (ephemerisDueDev_poolSafe i s.dev) h
  case almTick => exact devNext_poolSafe (almTickDev_poolSafe s.dev) h
  case taskDispatch i => exact devNext_poolSafe (taskDispatchDev_poolSafe i s.dev) h
  case taskWorkDone i => exact devNext_poolSafe (taskWorkDoneDev_poolSafe i s.dev) h
  case mgmtTaskDone i => exact devNext_poolSafe (mgmtTaskDoneDev_poolSafe i s.dev) h
  case almDoneRead => exact devNext_poolSafe (almDoneReadDev_poolSafe s.dev) h
  case parserByte n => exact devNext_poolSafe (parserByteDev_poolSafe n s.dev) h
  case efRelease => exact devNext_poolSafe (efReleaseDev_poolSafe s.dev) h
  case refLost => exact devNext_poolSafe (refLostDev_poolSafe s.dev) h
  case refValid => exact devNext_poolSafe (refValidDev_poolSafe s.dev) h
  case agentAnswer n => exact devNext_poolSafe (agentAnswerDev_poolSafe n s.dev) h
  case domainEntry n => exact devNext_poolSafe (domainEntryDev_poolSafe n s.dev) h
  case user i => exact devNext_poolSafe (userDev_poolSafe i s.dev) h
  case noteOn i => exact devNext_poolSafe (noteOnDev_poolSafe i s.dev) h
  case paramSet i => exact devNext_poolSafe (paramSetDev_poolSafe i s.dev) h
  case timerFire i => exact devNext_poolSafe (timerFireDev_poolSafe i s.dev) h
  case noteOff i => exact devNext_poolSafe (noteOffDev_poolSafe i s.dev) h
  case voiceKill i => exact devNext_poolSafe (voiceKillDev_poolSafe i s.dev) h
  case polyPressure i => exact devNext_poolSafe (polyPressureDev_poolSafe i s.dev) h
  case bankSelect i => exact devNext_poolSafe (bankSelectDev_poolSafe i s.dev) h
  case sustain i => exact devNext_poolSafe (sustainDev_poolSafe i s.dev) h
  case sostenuto i => exact devNext_poolSafe (sostenutoDev_poolSafe i s.dev) h
  case allSoundOff i => exact devNext_poolSafe (allSoundOffDev_poolSafe i s.dev) h
  case resetAllControllers i => exact devNext_poolSafe (resetAllControllersDev_poolSafe i s.dev) h
  case allNotesOff i => exact devNext_poolSafe (allNotesOffDev_poolSafe i s.dev) h
  case cc i => exact devNext_poolSafe (ccDev_poolSafe i s.dev) h
  case program i => exact devNext_poolSafe (programDev_poolSafe i s.dev) h
  case pitchBend i => exact devNext_poolSafe (pitchBendDev_poolSafe i s.dev) h
  case chanPressure i => exact devNext_poolSafe (chanPressureDev_poolSafe i s.dev) h
  case inboundSuperframe bytes ok => exact devNext_poolSafe (.of_alm (inboundSuperframeDev_alm bytes ok s.dev)) h
  all_goals exact devNext_poolSafe (.of_alm (by simp)) h

theorem startUpTick_alm (s : State) : (startUpTick s).dev.alm = s.dev.alm := by
  unfold startUpTick
  repeat' split
  all_goals rfl

/-- Settles O14: each command's effect on the pool keeps its indices, takes some away, or adds a free one below 8,192. -/
theorem taskPoolStaysWellFormed : Obligations.TaskPoolStaysWellFormed := by
  intro s t hs h
  unfold step at h
  split at h
  · have halm : (edgeTick (startUpTick s).dev.arbEnds).alm = s.dev.alm := by simp [startUpTick_alm, Dev.arbEnds]
    cases h
    exact PoolSafe.of_alm halm hs
  next c r _ => exact exec_poolSafe c { s with pending := r } t h hs

end Sys2Proof.Machine
end

section
/-! PROOF. The statement on the moves of a task fails: a returned task is released again to the target it has then (R122), so a
returned task that stands in a local slot moves to another target's. -/

namespace Sys2Proof.Machine

open Sys2Proof

/-- A device in RUN with the engine enabled, the frame timer running, every domain ON and these tasks in its pool. -/
def runningWith (l : List Task) : Dev :=
  { Dev.reset with
    regs := [(Reg.GLB_FRAME_CTL, 1), (Reg.GLB_BOOT_STAT, BitVec.ofNat 32 Stage.run)]
    frame := { Dev.reset.frame with refValid := true, ef := 8 }
    pwr := { Dev.reset.pwr with doms := List.replicate 64 { Domain.reset .off with state := .on } }
    alm := { Alm.reset with pool := l, accepting := true, ready := true, ran := true } }

/-- A NOTE_ON of the Parlour's, released at EF 7 and not ordered. -/
def parlourNote (i : Nat) : Task :=
  { idx := i, typ := Typ.noteOn, flags := 0, flow := 0xFF, state := .slotted, tag := i, target := tgtParlour, origin := 4, relEf := 7
    due := 0, seq := 0, payload := [], gseq := i, order := i, returned := false, doneEf := 0, chosen := [], taken := [], reuse := [] }

/-- Two NOTE_ONs in the Parlour's slot, and one that was returned while it stood in the slot of a cluster. -/
def threeSlotted : Dev := runningWith [parlourNote 0, parlourNote 1, { parlourNote 2 with target := 0, returned := true }]

theorem threeSlotted_on : threeSlotted.isOn Dom.ctrl = true := by decide

theorem threeSlotted_poolOk : PoolOk threeSlotted.alm := by unfold PoolOk; decide

theorem threeSlotted_slotted (tg : Nat) : threeSlotted.slotted tg ≤ 2 := by
  by_cases h : tg = 0
  · subst h; decide
  · have hother : (0 == tg) = false := by simp [Ne.symm h]
    by_cases hp : tg = tgtParlour
    · subst hp; decide
    · simp [Dev.slotted, threeSlotted, runningWith, parlourNote, hother, Ne.symm hp]

theorem threeSlotted_round : (almArbitrationRoundDev threeSlotted).slotted tgtParlour = 3 := by decide +kernel

/-- Refutes O17: the round releases the returned task again, whose target is the Parlour, and the Parlour's slot holds three. -/
theorem not_tasksMoveThroughTheirStates : ¬ Obligations.TasksMoveThroughTheirStates := by
  unfold Obligations.TasksMoveThroughTheirStates
  rintro ⟨-, -, -, -, -, -, hround⟩
  obtain ⟨hslots, -⟩ := (yields_devNext _ rfl).mp
    (hround { State.reset with dev := threeSlotted } threeSlotted_on threeSlotted_poolOk threeSlotted_slotted)
  have hthree : (almArbitrationRoundDev threeSlotted).slotted tgtParlour ≤ 2 := hslots tgtParlour
  rw [threeSlotted_round] at hthree
  exact absurd hthree (by decide)

end Sys2Proof.Machine
end

section
/-! PROOF. The statement on posts fails: of two tasks with one index, filling the local slots changes both, and the statement
asks for a well-formed pool only where a post is accepted (R115, R132). -/

namespace Sys2Proof.Machine

open Sys2Proof

/-- Two tasks with index 0: one that the Parlour works on, and one that is READY for it. -/
def twinTasks : Dev := runningWith [{ parlourNote 0 with state := .active }, { parlourNote 0 with state := .ready }]

theorem twinTasks_on : twinTasks.isOn Dom.ctrl = true ∧ hostTurn twinTasks = true := by decide +kernel

/-- The staged image is all zero, and no type is zero (R116, R141). -/
theorem twinTasks_bad : badReason (offerOf (stagedBytes twinTasks) 4)
    (hostFlowOk twinTasks (offerOf (stagedBytes twinTasks) 4).typ (offerOf (stagedBytes twinTasks) 4).flow) ≠ 0 := by decide +kernel

theorem twinTasks_before : ((roundReleases twinTasks).task? 0).map Task.unslotted = some { parlourNote 0 with state := .active } := by
  decide +kernel

theorem twinTasks_after : ((hostPostRow 1 twinTasks).task? 0).map Task.unslotted = some { parlourNote 0 with state := .ready } := by
  decide +kernel

/-- Refutes O15: a post of type 0 is BAD, and the round that takes it puts the READY task into the Parlour's slot, and with it the
ACTIVE one of the same index, which is then not as before. -/
theorem not_postsAreAcceptedRefusedOrBad : ¬ Obligations.PostsAreAcceptedRefusedOrBad := by
  unfold Obligations.PostsAreAcceptedRefusedOrBad
  rintro ⟨hhost, -⟩
  obtain ⟨hon, hturn⟩ := twinTasks_on
  obtain ⟨hbad, -⟩ := hhost { State.reset with dev := twinTasks } 1 _ _ rfl hon hturn rfl rfl
  obtain ⟨-, -, -, hkept, -⟩ := (yields_hostNext _ rfl hturn).mp (hbad twinTasks_bad)
  have hsame : ((hostPostRow 1 twinTasks).task? 0).map Task.unslotted = ((roundReleases twinTasks).task? 0).map Task.unslotted :=
    hkept 0 List.not_mem_nil
  rw [twinTasks_after, twinTasks_before] at hsame
  exact absurd hsame (by decide)

end Sys2Proof.Machine
end

section
/-! PROOF. Every commit takes its task out of the pool, keeps its tag and flow, and leaves the rest of the device to the kind's
own effect (R126, R129, R137, R142). -/

namespace Sys2Proof.Machine

open Sys2Proof

/-- Two devices agree on what no commit's effect touches: the engine's pool, time, outputs and ports, power and boot. -/
def SameAround (d e : Dev) : Prop :=
  e.alm = d.alm ∧ e.frame = d.frame ∧ e.mix = d.mix ∧ e.outs = d.outs ∧ e.tdm = d.tdm ∧ e.ser = d.ser ∧ e.pwr = d.pwr ∧
    e.boot = d.boot

/-- The task at index i has committed: it is out of the pool, its tag and flow are kept, and NOTIFY gives an entry. -/
def FreedTask (d : Dev) (i : Nat) (t : Task) (e : Dev) : Prop :=
  e.alm.pool = d.alm.pool.filter (fun u => u.idx != i) ∧ e.alm.committed = d.alm.committed ++ [⟨t.tag, t.flow⟩] ∧
    (t.notify = false → e.alm.done = d.alm.done) ∧
    (t.notify = true → d.alm.done.length < 64 → ∃ st, e.alm.done = d.alm.done ++ [{ status := st, ef := d.now % 4096, tag := t.tag }]) ∧
    e.frame = d.frame ∧ e.mix = d.mix ∧ e.outs = d.outs ∧ e.tdm = d.tdm ∧ e.ser = d.ser ∧ e.pwr = d.pwr ∧ e.boot = d.boot

theorem pushDone_room (status tag : Nat) (d : Dev) (h : d.alm.done.length < 64) :
    pushDone status tag d = { d with alm := { d.alm with done := d.alm.done ++ [{ status := status, ef := d.now % 4096, tag := tag }] } } :=
  if_pos h

theorem finishTask_silent {t : Task} (st : Nat) (d : Dev) (h : t.notify = false) :
    finishTask t st d =
      { d with alm := { d.alm with pool := d.alm.pool.filter (fun u => u.idx != t.idx), committed := d.alm.committed ++ [⟨t.tag, t.flow⟩] } } := by
  unfold finishTask
  rw [h]
  rfl

theorem finishTask_notifying {t : Task} (st : Nat) (d : Dev) (h : t.notify = true) :
    finishTask t st d = pushDone st t.tag
      { d with alm := { d.alm with pool := d.alm.pool.filter (fun u => u.idx != t.idx), committed := d.alm.committed ++ [⟨t.tag, t.flow⟩] } } := by
  unfold finishTask
  rw [h]
  rfl

/-- The end of a commit frees the task of the device before the kind's own effect. -/
theorem finishTask_freed (t : Task) (st : Nat) {d e : Dev} (h : SameAround d e) : FreedTask d t.idx t (finishTask t st e) := by
  obtain ⟨halm, hframe, hmix, houts, htdm, hser, hpwr, hboot⟩ := h
  cases hn : t.notify with
  | false =>
    rw [finishTask_silent st e hn]
    exact ⟨by simp [halm], by simp [halm], fun _ => by simp [halm], fun hy => absurd (hn.symm.trans hy) (by decide), hframe, hmix,
      houts, htdm, hser, hpwr, hboot⟩
  | true =>
    rw [finishTask_notifying st e hn]
    refine ⟨?_, ?_, fun hy => absurd (hn.symm.trans hy) (by decide), fun _ hroom => ⟨st, ?_⟩, ?_⟩
    · unfold pushDone; split <;> simp [halm]
    · unfold pushDone; split <;> simp [halm]
    · rw [pushDone_room _ _ _ (by simpa [halm] using hroom)]
      simp [halm, Dev.now, hframe]
    · simp [hframe, hmix, houts, htdm, hser, hpwr, hboot]

/-! ### The kinds of commit -/

/-- A command commits the tasks of a kind, and the kind's own effect keeps what no commit touches. -/
def CommitRow (r : Instr × (Task → Bool)) (i : Nat) : Prop :=
  ∃ f : Task → Dev → Dev × Nat, (∀ t d, SameAround d (f t d).1) ∧ ∀ s, exec r.1 s = devNext s (commitWith i r.2 f)

theorem commits_idx {d : Dev} {i : Nat} {kind : Task → Bool} {t : Task} (h : commits d i kind = some t) : t.idx = i := by
  unfold commits at h
  split at h
  · split at h
    · split at h
      next hk => cases h; exact hk.1
      next => cases h
    · cases h
  · cases h

theorem commits_on {d : Dev} {i : Nat} {kind : Task → Bool} {t : Task} (h : commits d i kind = some t) : d.isOn Dom.ctrl = true := by
  unfold commits at h
  split at h
  next hon => exact (Bool.and_eq_true_iff.mp hon).2
  next => cases h

theorem commitWith_some {i : Nat} {kind : Task → Bool} {t : Task} {d : Dev} (f : Task → Dev → Dev × Nat)
    (h : commits d i kind = some t) :
    commitWith i kind f d =
      finishTask t (f t (forTask (some t.idx) (deferredFirst d))).2 (forTask none (f t (forTask (some t.idx) (deferredFirst d))).1) := by
  unfold commitWith
  rw [h]

theorem commitWith_none {i : Nat} {kind : Task → Bool} {d : Dev} (f : Task → Dev → Dev × Nat) (h : commits d i kind = none) :
    commitWith i kind f d = d := by
  unfold commitWith
  rw [h]

theorem commitWith_freed {i : Nat} {kind : Task → Bool} {t : Task} {d : Dev} (f : Task → Dev → Dev × Nat)
    (hf : ∀ t e, SameAround e (f t e).1) (h : commits d i kind = some t) : FreedTask d i t (commitWith i kind f d) := by
  rw [commitWith_some f h, ← commits_idx h]
  refine finishTask_freed t _ ?_
  obtain ⟨halm, hframe, hmix, houts, htdm, hser, hpwr, hboot⟩ := hf t (forTask (some t.idx) (deferredFirst d))
  simp [SameAround, halm, hframe, hmix, houts, htdm, hser, hpwr, hboot]

theorem CommitRow.frees {r : Instr × (Task → Bool)} {i : Nat} (h : CommitRow r i) {s : State} {t : Task}
    (hc : commits s.dev i r.2 = some t) : Yields r.1 s (FreedTask s.dev i t) := by
  obtain ⟨f, hf, hexec⟩ := h
  exact ⟨_, hexec s, commitWith_freed f hf hc⟩

theorem CommitRow.waits {r : Instr × (Task → Bool)} {i : Nat} (h : CommitRow r i) {s : State} (hc : commits s.dev i r.2 = none) :
    exec r.1 s = .next s := by
  obtain ⟨f, -, hexec⟩ := h
  rw [hexec, devNext_same (commitWith_none f hc)]

/-- A MIDI kind's commit applies an effect on the parts it matches. -/
theorem CommitRow.of_midi {c : Instr} {kind : Task → Bool} {i : Nat} (f : List Byte → Nat → Dev → Dev)
    (hf : ∀ pay p d, SameAround d (f pay p d)) (hexec : ∀ s, exec c s = devNext s (midiCommit i kind f)) : CommitRow (c, kind) i := by
  refine ⟨fun t d => applyParts t.payload (f t.payload) d, fun t d => ?_, hexec⟩
  simp only [SameAround, forall_and] at hf ⊢
  obtain ⟨halm, hframe, hmix, houts, htdm, hser, hpwr, hboot⟩ := hf
  simp [halm, hframe, hmix, houts, htdm, hser, hpwr, hboot]

theorem noteOn_row (i : Nat) : CommitRow (.noteOn i, fun t => t.typ == Typ.noteOn) i :=
  ⟨noteOnCommit, fun t d => by simp [SameAround], fun _ => rfl⟩

theorem noteOff_row (i : Nat) : CommitRow (.noteOff i, fun t => t.typ == Typ.noteOff) i :=
  ⟨fun t d =>
    let r := applyParts t.payload (fun p d => noteOffPart p (pay8 t.payload 1) (pay8 t.payload 2) (pay8 t.payload 3) d) d
    (offDeferred t.payload r.1, r.2), fun t d => by simp [SameAround], fun _ => rfl⟩

theorem paramSet_row (i : Nat) : CommitRow (.paramSet i, fun t => t.typ == Typ.paramSet) i :=
  ⟨paramSetCommit, fun t d => by simp [SameAround], fun _ => rfl⟩

theorem voiceKill_row (i : Nat) : CommitRow (.voiceKill i, fun t => t.typ == Typ.voiceKill) i :=
  ⟨voiceKillCommit, fun t d => by simp [SameAround], fun _ => rfl⟩

theorem timerFire_row (i : Nat) : CommitRow (.timerFire i, fun t => t.typ == Typ.timerFire) i :=
  ⟨fun _ d => (d.emit 5 1, 0), fun t d => by simp [SameAround], fun _ => rfl⟩

theorem polyPressure_row (i : Nat) : CommitRow (.polyPressure i, fun t => t.typ == Typ.polyPressure) i :=
  .of_midi polyPart (fun pay p d => by simp [SameAround]) fun _ => rfl

theorem program_row (i : Nat) : CommitRow (.program i, fun t => t.typ == Typ.program) i :=
  .of_midi programPart (fun pay p d => by simp [SameAround]) fun _ => rfl

theorem pitchBend_row (i : Nat) : CommitRow (.pitchBend i, fun t => t.typ == Typ.pitchBend) i :=
  .of_midi (fun pay p d => perNote p (pay8 pay 1) 0x20 0x40 (leBytes 2 (pay16 pay 4)) d) (fun pay p d => by simp [SameAround]) fun _ => rfl

theorem chanPressure_row (i : Nat) : CommitRow (.chanPressure i, fun t => t.typ == Typ.chanPressure) i :=
  .of_midi (fun pay p d => perNote p (pay8 pay 1) 0x22 0x42 (leBytes 1 (pay8 pay 2)) d) (fun pay p d => by simp [SameAround]) fun _ => rfl

theorem bankSelect_row (i : Nat) : CommitRow (.bankSelect i, isCc [0, 32]) i :=
  .of_midi bankPart (fun pay p d => by simp [SameAround]) fun _ => rfl

theorem sustain_row (i : Nat) : CommitRow (.sustain i, isCc [64]) i :=
  .of_midi sustainPart (fun pay p d => by simp [SameAround]) fun _ => rfl

theorem sostenuto_row (i : Nat) : CommitRow (.sostenuto i, isCc [66]) i :=
  .of_midi sostenutoPart (fun pay p d => by simp [SameAround]) fun _ => rfl

theorem allSoundOff_row (i : Nat) : CommitRow (.allSoundOff i, isCc [120]) i :=
  .of_midi soundOffPart (fun pay p d => by simp [SameAround]) fun _ => rfl

theorem resetAllControllers_row (i : Nat) : CommitRow (.resetAllControllers i, isCc [121]) i :=
  .of_midi resetPart (fun pay p d => by simp [SameAround]) fun _ => rfl

theorem allNotesOff_row (i : Nat) : CommitRow (.allNotesOff i, isCc [123]) i :=
  .of_midi notesOffPart (fun pay p d => by simp [SameAround]) fun _ => rfl

theorem cc_row (i : Nat) : CommitRow (.cc i, fun t => t.typ == Typ.cc && !ownCcs.contains (pay8 t.payload 2)) i :=
  .of_midi ccPart (fun pay p d => by simp [SameAround]) fun _ => rfl

theorem user_row (i : Nat) : CommitRow (.user i, fun t => t.typ == Typ.user) i :=
  ⟨fun t d => (fwLog 0x0D (pay8 t.payload 0) 0 (t.payload.drop 4) d, 0), fun t d => by simp [SameAround], fun _ => rfl⟩

/-! ### USER, SYSEX_DONE and TIMER_FIRE -/

theorem deferredFirst_nil {d : Dev} (h : d.par.deferred = []) : deferredFirst d = d := by
  rw [deferredFirst, h]
  rfl

theorem finishTask_mgt_mem (t : Task) (st : Nat) (d : Dev) : (finishTask t st d).mgt = d.mgt ∧ (finishTask t st d).mem = d.mem := by
  simp

/-- The entry of a USER task that commits now (R507). -/
def userEntry (t : Task) (d : Dev) : LogEv := { mgmtEv d (pay8 t.payload 0) 0 (t.payload.drop 4) with source := 0x0D }

theorem userDev_stores {d : Dev} {i : Nat} {t : Task} (h : commits d i (fun t => t.typ == Typ.user) = some t)
    (hup : firmwareUp d = true) (hdef : d.par.deferred = []) (hown : d.mgt.own = []) (hfree : logBlocked d = false)
    (hw : d.mgt.wdogLog = false) (hl : d.mgt.lost = 0) :
    userDev i d = finishTask t 0 (forTask none (logStore (userEntry t d) (forTask (some t.idx) d))) := by
  have hlog : fwLog 0x0D (pay8 t.payload 0) 0 (t.payload.drop 4) (forTask (some t.idx) d) =
      logStore (userEntry t d) (forTask (some t.idx) d) :=
    (if_pos hup).trans ((fwPut_cases (userEntry t d) (forTask (some t.idx) d) hw hl).1 hfree hown)
  rw [userDev, mgmtFinish, commitWith_some _ h, deferredFirst_nil hdef]
  dsimp only
  rw [hlog]

/-- USER's entry, on a device whose ring is free and has no other to come before it, is stored there (R503, R507). -/
theorem user_logs {d : Dev} {i : Nat} {t : Task} (h : commits d i (fun t => t.typ == Typ.user) = some t)
    (hup : firmwareUp d = true) (hdef : d.par.deferred = []) (hown : d.mgt.own = []) (hfree : logBlocked d = false)
    (hw : d.mgt.wdogLog = false) (hl : d.mgt.lost = 0) :
    (userDev i d).mgt.total = d.mgt.total + 1 ∧ (userDev i d).mgt.queue = d.mgt.queue ∧
      (userDev i d).mramBytes (logRing + 16 * (d.mgt.total % 4096)) 16 = logBytes (userEntry t d) ∧
      (userDev i d).mem = { d.mem with mram := (userDev i d).mem.mram } := by
  have hstores := userDev_stores h hup hdef hown hfree hw hl
  obtain ⟨hringMgt, hringMem⟩ := logStore_ring (userEntry t d) (forTask (some t.idx) d)
  obtain ⟨hbytes, -⟩ := logStore_bytes (userEntry t d) (forTask (some t.idx) d)
  obtain ⟨hfinMgt, hfinMem⟩ := finishTask_mgt_mem t 0 (forTask none (logStore (userEntry t d) (forTask (some t.idx) d)))
  have hmgt : (userDev i d).mgt = { d.mgt with total := d.mgt.total + 1 } := by rw [hstores]; exact hfinMgt.trans hringMgt
  have hmem : (userDev i d).mem = (logStore (userEntry t d) (forTask (some t.idx) d)).mem := by rw [hstores]; exact hfinMem
  refine ⟨by rw [hmgt], by rw [hmgt], ?_, by rw [hmem, hringMem]; rfl⟩
  unfold Dev.mramBytes at hbytes ⊢
  rw [hmem]
  exact hbytes

theorem finishTask_pool (t : Task) (st : Nat) (d : Dev) :
    (finishTask t st d).alm.pool = d.alm.pool.filter (fun u => u.idx != t.idx) := by
  cases hn : t.notify with
  | false => rw [finishTask_silent st d hn]
  | true =>
    rw [finishTask_notifying st d hn]
    unfold pushDone
    split <;> simp

/-- SYSEX_DONE leaves no task of its index (R126). -/
theorem sysexDone_freed {s : State} {i : Nat} {t : Task} (ok : Bool) (h : commits s.dev i (fun t => t.typ == Typ.sysexDone) = some t) :
    ∀ x ∈ (sysexDoneState i ok s).dev.alm.pool, x.idx ≠ i := by
  unfold sysexDoneState
  rw [h]
  simp only [State.onDev_dev, finishTask_pool, commits_idx h]
  intro x hx
  simpa using (List.mem_filter.mp hx).2

/-- A timer task with no deferred note-on before it pulses its bit and changes nothing else outside the engine (R118). -/
theorem timerFire_pulses {d : Dev} {i : Nat} {t : Task} (h : commits d i (fun t => t.typ == Typ.timerFire) = some t)
    (hn : t.notify = false) (hdef : d.par.deferred = []) :
    (timerFireDev i d).cnt.bus = d.busWith 5 1 ∧ (timerFireDev i d).mem = d.mem ∧ (timerFireDev i d).par = d.par ∧
      (timerFireDev i d).regs = d.regs := by
  rw [timerFireDev, commitWith_some _ h, finishTask_silent _ _ hn, deferredFirst_nil hdef]
  have hon : d.isOn Dom.ctrl = true := commits_on h
  refine ⟨?_, rfl, rfl, rfl⟩
  exact (Dev.emit_bus (forTask (some t.idx) d) 5 1 (by decide) hon).trans (by simp [Dev.busWith, hon])

/-- Settles O18: every command that commits a task is a commit of its kind's own effect, which keeps the pool. -/
theorem commitsFreeTheirTask : Obligations.CommitsFreeTheirTask := by
  unfold Obligations.CommitsFreeTheirTask
  intro freed rows
  have hrows : ∀ i, ∀ r ∈ rows i, CommitRow r i := by
    intro i r hr
    simp only [rows, List.mem_cons, List.not_mem_nil, or_false] at hr
    obtain rfl | rfl | rfl | rfl | rfl | rfl | rfl | rfl | rfl | rfl | rfl | rfl | rfl | rfl | rfl | rfl := hr
    · exact noteOn_row i
    · exact noteOff_row i
    · exact polyPressure_row i
    · exact program_row i
    · exact pitchBend_row i
    · exact chanPressure_row i
    · exact paramSet_row i
    · exact voiceKill_row i
    · exact timerFire_row i
    · exact bankSelect_row i
    · exact sustain_row i
    · exact sostenuto_row i
    · exact allSoundOff_row i
    · exact resetAllControllers_row i
    · exact allNotesOff_row i
    · exact cc_row i
  refine ⟨fun s i t r hr h => (hrows i r hr).frees h, fun s i r hr h => (hrows i r hr).waits h, fun s i t h => ?_,
    fun s i t h ok => ⟨_, rfl, sysexDone_freed ok h⟩, fun s i => ⟨(user_row i).waits, fun h ok => ?_⟩, fun s i t h hn hdef => ?_⟩
  · refine (yields_devNext _ rfl).mpr ⟨(yields_devNext _ rfl).mp ((user_row i).frees h), user_logs h⟩
  · exact congrArg Host.Outcome.next (by rw [sysexDoneState, h])
  · exact (yields_devNext _ rfl).mpr (timerFire_pulses h hn hdef)

end Sys2Proof.Machine
end

section
/-! SUPPORT. What the releases of a round write of the registers (R123, R139), and the task an offer becomes (R115, R120). -/

namespace Sys2Proof.Machine

open Sys2Proof

/-- Every register outside a list reads the same on two devices. -/
def RegsOnly (l : List Nat) (d e : Dev) : Prop := ∀ a, a ∉ l → e.reg a = d.reg a

namespace RegsOnly

theorem of_regs {l : List Nat} {d e : Dev} (h : e.regs = d.regs) : RegsOnly l d e := fun a _ => by rw [Dev.reg, h]; rfl

theorem refl (l : List Nat) (d : Dev) : RegsOnly l d d := of_regs rfl

theorem trans {l : List Nat} {d e f : Dev} (h : RegsOnly l d e) (k : RegsOnly l e f) : RegsOnly l d f :=
  fun a ha => (k a ha).trans (h a ha)

theorem tail {l : List Nat} {d e f : Dev} (h : RegsOnly l d e) (k : f.regs = e.regs) : RegsOnly l d f := h.trans (of_regs k)

theorem ite {l : List Nat} {c : Prop} [Decidable c] {d a b : Dev} (ha : RegsOnly l d a) (hb : RegsOnly l d b) :
    RegsOnly l d (if c then a else b) := by
  split <;> assumption

theorem putFld {l : List Nat} (d : Dev) {a : Nat} (hi lo v : Nat) (h : a ∈ l) : RegsOnly l d (d.putFld a hi lo v) :=
  fun _ hb => Dev.reg_putFld_ne _ _ _ _ _ _ fun e => hb (e ▸ h)

theorem putFlag {l : List Nat} (d : Dev) {a : Nat} (n : Nat) (v : Bool) (h : a ∈ l) : RegsOnly l d (d.putFlag a n v) :=
  putFld d _ _ _ h

theorem bumpBy {l : List Nat} (d : Dev) {a : Nat} (n : Nat) (h : a ∈ l) : RegsOnly l d (d.bumpBy a n) := putFld d _ _ _ h

theorem bump {l : List Nat} (d : Dev) {a : Nat} (h : a ∈ l) : RegsOnly l d (d.bump a) := putFld d _ _ _ h

theorem foldl {l : List Nat} {β : Type} {f : Dev → β → Dev} (h : ∀ d b, RegsOnly l d (f d b)) (r : List β) (d : Dev) :
    RegsOnly l d (r.foldl f d) := by
  induction r generalizing d with
  | nil => exact refl l d
  | cons b r ih => exact (h d b).trans (ih _)

theorem forUpTo {l : List Nat} {n : Nat} {f : Nat → Dev → Dev} (h : ∀ k d, RegsOnly l d (f k d)) (d : Dev) :
    RegsOnly l d (forUpTo n f d) :=
  foldl (fun d k => h k d) _ d

theorem forEach {l : List Nat} {β : Type} {r : List β} {f : β → Dev → Dev} (h : ∀ b d, RegsOnly l d (f b d)) (d : Dev) :
    RegsOnly l d (forEach r f d) :=
  foldl (fun d b => h b d) _ d

theorem fld {l : List Nat} {d e : Dev} (h : RegsOnly l d e) {a : Nat} (ha : a ∉ l) (hi lo : Nat) : e.fld a hi lo = d.fld a hi lo := by
  rw [Dev.fld, Dev.fld, h a ha]

theorem flag {l : List Nat} {d e : Dev} (h : RegsOnly l d e) {a : Nat} (ha : a ∉ l) (n : Nat) : e.flag a n = d.flag a n := by
  rw [Dev.flag, Dev.flag, h a ha]

end RegsOnly

/-! ### Releases -/

/-- The registers that the releases of a round write: the admitted and held counts, and the interrupt of a held task. -/
def releaseRegs : List Nat := [Reg.ALM_CNT_ADMIT, Reg.ALM_CNT_HOLD, Reg.ALM_IRQ_STAT]

theorem releaseTask_regs (i : Nat) (d : Dev) : RegsOnly releaseRegs d (releaseTask i d) := by
  unfold releaseTask
  split
  · exact .refl _ d
  · exact fun a ha => RegsOnly.bump d (by decide) a ha

theorem rereleaseTask_regs (i : Nat) (d : Dev) : RegsOnly releaseRegs d (rereleaseTask i d) :=
  fun a ha => RegsOnly.bump d (by decide) a ha

theorem releaseDue_regs (n : Nat) (d : Dev) : RegsOnly releaseRegs d (releaseDue n d) := by
  induction n generalizing d with
  | zero => exact .refl _ d
  | succ n ih =>
    unfold releaseDue
    split
    · exact (releaseTask_regs _ d).trans (ih _)
    · exact .refl _ d

theorem releaseReturned_regs (n : Nat) (d : Dev) : RegsOnly releaseRegs d (releaseReturned n d) := by
  induction n generalizing d with
  | zero => exact .refl _ d
  | succ n ih =>
    unfold releaseReturned
    split
    · exact .ite ((rereleaseTask_regs _ d).trans (ih _)) (.refl _ d)
    · exact .refl _ d

theorem Dev.pooling_regs (o : Offer) (d : Dev) : (d.pooling o).regs = d.regs := by
  rw [Dev.pooling, Dev.draw]

theorem admitTask_regs (o : Offer) (d : Dev) : RegsOnly releaseRegs d (admitTask o d).1 := by
  rw [admitTask_eq]
  have hpool : RegsOnly releaseRegs d (d.pooling o) := .of_regs (d.pooling_regs o)
  exact .ite (hpool.trans (releaseTask_regs _ _)) hpool

theorem offerHeld_regs (n : Nat) (d : Dev) : RegsOnly releaseRegs d (offerHeld n d) := by
  unfold offerHeld
  split
  · exact .refl _ d
  next seen f r _ =>
    have hmod (g : Parser → Parser) : RegsOnly releaseRegs d (d.modParser n g) := .of_regs (by simp)
    have hheld (e : Dev) : RegsOnly releaseRegs e (((e.bump Reg.ALM_CNT_HOLD).putFlag Reg.ALM_IRQ_STAT 6 true).emit 8 1) :=
      ((RegsOnly.bump e (a := Reg.ALM_CNT_HOLD) (by decide)).trans (.putFlag _ (a := Reg.ALM_IRQ_STAT) 6 true (by decide))).tail rfl
    exact .ite (.refl _ d) (.ite ((hmod _).trans (admitTask_regs _ _)) (.ite (.refl _ d) ((hmod _).trans (hheld _))))

theorem earlierReleases_regs (n : Nat) (d : Dev) : RegsOnly releaseRegs d (earlierReleases n d) :=
  .ite (((releaseReturned_regs _ d).trans (releaseDue_regs _ _)).trans (.forUpTo offerHeld_regs _)) (.refl _ d)

theorem landOne_regs (d : Dev) : RegsOnly releaseRegs d (landOne d).1 := by
  unfold landOne
  split
  · exact .refl _ d
  · dsimp only
    split
    · dsimp only
      exact RegsOnly.trans (.of_regs (by simp)) (admitTask_regs _ _)
    · exact .refl _ d

theorem landTasks_regs (n : Nat) (d : Dev) : RegsOnly releaseRegs d (landTasks n d) := by
  induction n generalizing d with
  | zero => exact .refl _ d
  | succ n ih =>
    unfold landTasks
    exact .ite ((landOne_regs d).trans (ih _)) (landOne_regs d)

theorem roundReleases_regs (d : Dev) : RegsOnly releaseRegs d (roundReleases d) :=
  .ite ((earlierReleases_regs 4 d).trans (landTasks_regs 25 _)) (.refl _ d)

/-! ### An offer's task -/

/-- A task's entry behind its release now: it is READY with its flow's next SEQ (R120, R126). -/
def Task.released (t : Task) (d : Dev) : Task :=
  { t with
    state := .ready, seq := if t.flow < 96 then at_ d.alm.seqs t.flow 0 else 0, gseq := d.alm.gseq, relEf := d.now
    target := targetOf d t.typ t.payload, returned := false }

/-- The entry that an admitted offer ends as: WAITING for its tick, or released at once (R120, R136). -/
def offerTask (o : Offer) (d : Dev) : Task := if o.atOnce d then (newTask o d).released d else newTask o d

/-- Entries of other indices are not changed with a task. -/
theorem map_modTask_other {l : List Task} {i : Nat} (f : Task → Task) (h : ∀ t ∈ l, t.idx ≠ i) :
    l.map (fun t => if t.idx = i then f t else t) = l := by
  conv_rhs => rw [← List.map_id l]
  exact List.map_congr_left fun t ht => if_neg (h t ht)

theorem pooling_task? {o : Offer} {d : Dev} (h : d.alm.pool.length < 8192) :
    (d.pooling o).task? (freeIndex d) = some (newTask o d) := by
  obtain ⟨-, hfree⟩ := freeIndex_spec h
  rw [Dev.task?] at hfree
  rw [Dev.task?, Dev.pooling]
  simp [List.find?_append, hfree]

theorem releaseTask_pool {i : Nat} {d : Dev} {t : Task} (h : d.task? i = some t) :
    (releaseTask i d).alm.pool = d.alm.pool.map (fun u => if u.idx = i then
      { u with state := .ready, seq := if t.flow < 96 then at_ d.alm.seqs t.flow 0 else 0, gseq := d.alm.gseq, relEf := d.now
               target := targetOf d u.typ u.payload, returned := false } else u) := by
  unfold releaseTask
  rw [h]
  rfl

/-- An admitted offer is the last entry of the pool, and no other entry changes. -/
theorem admitTask_pool {o : Offer} {d : Dev} (h : d.alm.pool.length < 8192) :
    (admitTask o d).1.alm.pool = d.alm.pool ++ [offerTask o d] := by
  obtain ⟨-, hfree⟩ := freeIndex_spec h
  rw [admitTask_eq, offerTask]
  split
  · rw [releaseTask_pool (pooling_task? h), Dev.pooling, List.map_append, map_modTask_other _ (Dev.task?_eq_none.mp hfree),
      List.map_singleton, if_pos (newTask_idx o d)]
    rfl
  · rw [Dev.pooling]

theorem offerTask_idx (o : Offer) (d : Dev) : (offerTask o d).idx = freeIndex d := by
  unfold offerTask
  split <;> simp [Task.released]

theorem offerTask_free {o : Offer} {d : Dev} (h : d.alm.pool.length < 8192) : d.task? (offerTask o d).idx = none := by
  rw [offerTask_idx]
  exact (freeIndex_spec h).2

/-- A pooled task has the fields of its offer. -/
theorem offerTask_fields (o : Offer) (d : Dev) : (offerTask o d).typ = o.typ ∧ (offerTask o d).tag = o.tag ∧
    (offerTask o d).flow = o.flow ∧ (offerTask o d).flags = o.flags ∧ (offerTask o d).payload = o.payload ∧
    (offerTask o d).origin = o.origin := by
  unfold offerTask
  split <;> simp [Task.released, newTask]

theorem offerTask_ready {o : Offer} {d : Dev} (h : o.atOnce d = true) :
    (offerTask o d).state = .ready ∧ (offerTask o d).relEf = d.now := by
  rw [offerTask, if_pos h]
  exact ⟨rfl, rfl⟩

end Sys2Proof.Machine
end

section
/-! PROOF. Packets between devices: tasks that land at the master, entries for its log, and the firmware's requests and responses
(R538 to R540). -/

namespace Sys2Proof.Machine

open Sys2Proof

/-- The oldest packet of the link's queue is of a type. -/
def FirstPacket (d : Dev) (ty : Nat) (p : List Byte) (r : List (List Byte)) : Prop :=
  linkRuns d = true ∧ d.cas.packetsIn = p :: r ∧ byteAt p 0 = ty

/-- The device with the oldest packet taken. -/
def packetTaken (r : List (List Byte)) (d : Dev) : Dev := { d with cas := { d.cas with packetsIn := r } }

theorem FirstPacket.take {d : Dev} {ty : Nat} {p : List Byte} {r : List (List Byte)} (h : FirstPacket d ty p r) :
    takePacket d ty = some (p, packetTaken r d) := by
  obtain ⟨-, hp, hty⟩ := h
  rw [takePacket, hp]
  exact if_pos hty

theorem takePacket_nil {d : Dev} (ty : Nat) (h : d.cas.packetsIn = []) : takePacket d ty = none := by
  rw [takePacket, h]

theorem not_isWorker_of_isMaster {d : Dev} (h : d.isMaster = true) : d.isWorker = false := by
  obtain ⟨-, hpos⟩ := Bool.and_eq_true_iff.mp h
  simp [Dev.isWorker, beq_iff_eq.mp hpos]

/-! ### Tasks (R539) -/

/-- The device with a worker's task in its landing queue, behind the releases of the classes before it (R123, R539). -/
def landingAt (im : List Byte) (r : List (List Byte)) (d : Dev) : Dev :=
  earlierReleases 4 { d with cas := { d.cas with packetsIn := r, landing := d.cas.landing ++ [im] } }

theorem taskPacketDev_cons {d : Dev} {p : List Byte} {r : List (List Byte)} (h : FirstPacket d 1 p r) (hm : d.isMaster = true)
    (hon : d.isOn Dom.ctrl = true) : taskPacketDev d =
      if badReason (offerOf (sfBytes p 4 32) 5) (decide (0x50 ≤ (offerOf (sfBytes p 4 32) 5).flow ∧ (offerOf (sfBytes p 4 32) 5).flow < 0x60)) ≠ 0 then
        packetDrop 1 (packetTaken r d)
      else landTasks 25 (landingAt (sfBytes p 4 32) r d) := by
  have him : sfBytes (p.drop 4) 0 32 = sfBytes p 4 32 := rfl
  unfold taskPacketDev
  rw [h.take, h.1, hm, hon]
  dsimp only
  rw [him]
  rfl

theorem taskPacketDev_none {d : Dev} (h : takePacket d 1 = none) : taskPacketDev d = d := by
  rw [taskPacketDev, h]
  exact ite_self d

theorem packetDrop_one (d : Dev) : packetDrop 1 d = casIrq 3 (d.bumpBy Reg.CAS_CNT_PKT_DROP 1) := rfl

theorem packetDrop_one_fld (d : Dev) :
    (packetDrop 1 d).fld Reg.CAS_CNT_PKT_DROP 31 0 = min (d.fld Reg.CAS_CNT_PKT_DROP 31 0 + 1) (2 ^ 32 - 1) := by
  rw [packetDrop_one, casIrq, Dev.fld, Dev.reg_setIrq_ne _ _ _ _ _ (by decide)]
  exact Dev.fld_bumpFld d _ _ _ _ (by decide) (by decide)

/-- A landing queue of one task that is refused keeps it. -/
theorem landTasks_refused {d : Dev} {im : List Byte} (n : Nat) (h : d.cas.landing = [im])
    (hr : refusal d (countOf (d.fld Reg.ALM_RESV 13 0) 8192) ((offerOf im 5).atOnce d) (offerOf im 5).typ (offerOf im 5).flow ≠ 0) :
    landTasks n d = d := by
  cases n with
  | zero => rfl
  | succ n =>
    have hone : landOne d = (d, false) := by
      rw [landOne, h]
      exact if_neg hr
    rw [landTasks, hone]
    rfl

theorem landTasks_nil {d : Dev} (n : Nat) (h : d.cas.landing = []) : landTasks n d = d := by
  cases n with
  | zero => rfl
  | succ n =>
    have hone : landOne d = (d, false) := by rw [landOne, h]
    rw [landTasks, hone]
    rfl

/-- The device with its landing queue empty. -/
def landingEmpty (d : Dev) : Dev := d.modCas (fun c => { c with landing := [] })

theorem landingEmpty_keeps (d : Dev) : (landingEmpty d).cas = { d.cas with landing := [] } ∧ (landingEmpty d).alm = d.alm ∧
    (landingEmpty d).mem = d.mem ∧ (landingEmpty d).par = d.par ∧ (landingEmpty d).frame = d.frame := ⟨rfl, rfl, rfl, rfl, rfl⟩

/-- A landing queue of one task that no rule refuses is empty behind its admission. -/
theorem landTasks_admitted {d : Dev} {im : List Byte} (n : Nat) (h : d.cas.landing = [im])
    (hr : refusal d (countOf (d.fld Reg.ALM_RESV 13 0) 8192) ((offerOf im 5).atOnce d) (offerOf im 5).typ (offerOf im 5).flow = 0) :
    landTasks (n + 1) d = (admitTask (offerOf im 5) (landingEmpty d)).1 := by
  have hone : landOne d = ((admitTask (offerOf im 5) (landingEmpty d)).1, true) := by
    rw [landOne, h]
    exact if_pos hr
  rw [landTasks, hone]
  exact landTasks_nil n (by simp [landingEmpty_keeps])

theorem landingAt_keeps (im : List Byte) (r : List (List Byte)) (d : Dev) :
    (landingAt im r d).cas = { d.cas with packetsIn := r, landing := d.cas.landing ++ [im] } ∧ (landingAt im r d).mem = d.mem ∧
      (landingAt im r d).par = d.par ∧ (landingAt im r d).frame = d.frame ∧
      (landingAt im r d).fld Reg.ALM_RESV 13 0 = d.fld Reg.ALM_RESV 13 0 := by
  refine ⟨by simp [landingAt], by simp [landingAt], by simp [landingAt], by simp [landingAt], ?_⟩
  exact (earlierReleases_regs 4 _).fld (by decide) 13 0

/-- A worker's task that is admitted is the last of the pool. -/
theorem taskPacket_admits {d e : Dev} {im : List Byte} {r : List (List Byte)} {o : Offer} (ho : o = offerOf im 5)
    (he : e = landingAt im r d) (hl : d.cas.landing = [])
    (hr : refusal e (countOf (d.fld Reg.ALM_RESV 13 0) 8192) (o.atOnce e) o.typ o.flow = 0) :
    (landTasks 25 e).cas.packetsIn = r ∧ (landTasks 25 e).cas.landing = [] ∧ (∃ t : Task, (landTasks 25 e).alm.pool = e.alm.pool ++ [t] ∧
      t.typ = o.typ ∧ t.tag = o.tag ∧ t.flow = o.flow ∧ t.payload = o.payload ∧ t.origin = 5 ∧ e.task? t.idx = none ∧
      (o.atOnce e = true → t.state = TaskState.ready ∧ t.relEf = d.now)) ∧ (landTasks 25 e).mem = d.mem ∧ (landTasks 25 e).par = d.par := by
  subst ho he
  obtain ⟨hcas, hmem, hpar, hframe, hresv⟩ := landingAt_keeps im r d
  have hone : (landingAt im r d).cas.landing = [im] := by rw [hcas, hl]; rfl
  have hroom := room_of_refusal hr
  rw [landTasks_admitted 24 hone (by rw [hresv]; exact hr)]
  obtain ⟨htyp, htag, hflow, -, hpay, horg⟩ := offerTask_fields (offerOf im 5) (landingEmpty (landingAt im r d))
  obtain ⟨hecas, healm, hemem, hepar, heframe⟩ := landingEmpty_keeps (landingAt im r d)
  refine ⟨by simp [hecas, hcas], by simp [hecas], ⟨offerTask (offerOf im 5) (landingEmpty (landingAt im r d)),
    admitTask_pool hroom, htyp, htag, hflow, hpay, horg, offerTask_free (d := landingEmpty (landingAt im r d)) hroom, fun hat => ?_⟩, ?_, ?_⟩
  · obtain ⟨hst, hef⟩ := offerTask_ready (d := landingEmpty (landingAt im r d)) hat
    exact ⟨hst, hef.trans (by rw [Dev.now, heframe, hframe]; rfl)⟩
  · simp [hemem, hmem]
  · simp [hepar, hpar]

/-! ### Entries for the master's log (R518, R540) -/

/-- On a master an entry stays on the device, and of its registers it changes the interrupt status alone. -/
theorem logStore_master (e : LogEv) {d : Dev} (h : d.isWorker = false) :
    (logStore e d).cas = d.cas ∧ RegsOnly [Reg.MGT_IRQ_STAT] d (logStore e d) := by
  unfold logStore
  extract_lets b d1 m d2 d3
  have hcas : d3.cas = d.cas := (apply_ite Dev.cas _ _ _).trans (by simp [d2, d1])
  have hregs : RegsOnly [Reg.MGT_IRQ_STAT] d d3 := by
    refine RegsOnly.trans (e := d2) (.of_regs rfl) (.ite (fun a ha => ?_) (.refl _ _))
    exact Dev.reg_setIrq_ne _ _ _ _ _ (List.ne_of_not_mem_cons ha)
  have hworker : d3.isWorker = false := by
    rw [← h, Dev.isWorker, Dev.isWorker, Dev.inChain, Dev.inChain, Dev.chainLen, Dev.chainLen, Dev.chainPos, Dev.chainPos, hcas,
      hregs.fld (by decide)]
  rw [if_neg (by simp [hworker])]
  exact ⟨hcas, hregs⟩

/-- The entry that a packet carries (R504, R518). -/
def packetEntry (p : List Byte) : LogEv :=
  { ef := leNat ((p.drop 4).take 5), noref := (byteAt p 11).testBit 2, source := byteAt p 9, code := byteAt p 10
    sev := byteAt p 11 % 4, pos := byteAt p 2 % 8, fwd := true, data := p.drop 12 }

theorem byteAt_drop (p : List Byte) (n k : Nat) : byteAt (p.drop n) k = byteAt p (n + k) := by
  simp [byteAt, List.getD_eq_getElem?_getD]

theorem sfBytes_all {b : List Byte} {n : Nat} (h : b.length = n) : sfBytes b 0 n = b := by
  subst h
  simp [sfBytes]

theorem logOf_packet {p : List Byte} (h : p.length = 20) : logOf (sfBytes (p.drop 4) 0 16) (byteAt p 2 % 8) = packetEntry p := by
  rw [sfBytes_all (by simp [h]), logOf, sfBytes_all (by simp [h]), packetEntry]
  simp [byteAt_drop]

theorem logPacketDev_cons {d : Dev} {p : List Byte} {r : List (List Byte)} (h : FirstPacket d 2 p r) (hm : d.isMaster = true)
    (hup : firmwareUp d = true) (hp : p.length = 20) : logPacketDev d = fwPut (packetEntry p) (packetTaken r d) := by
  unfold logPacketDev
  rw [h.take, h.1, hm, hup]
  dsimp only
  rw [logOf_packet hp]
  rfl

theorem logPacketDev_none {d : Dev} (h : takePacket d 2 = none) : logPacketDev d = d := by
  rw [logPacketDev, h]
  exact ite_self d

theorem logPacketDev_down {d : Dev} (h : firmwareUp d = false) : logPacketDev d = d := if_pos (by simp [h])

/-! ### Requests that a worker answers (R510, R538) -/

/-- A response packet of a worker's firmware (R538). -/
def rspPacket (pos : Nat) (r : List Byte) : List Byte :=
  leBytes 1 4 ++ leBytes 1 r.length ++ leBytes 1 pos ++ leBytes 1 0x80 ++ r

/-- The worker with the request taken and its response waiting to be sent. -/
def requestAnswered (r : List (List Byte)) (rsp : List Byte) (d : Dev) : Dev :=
  { d with cas := { d.cas with packetsIn := r, own := d.cas.own ++ [rspPacket d.pos rsp] } }

theorem rspPackets_short (pos : Nat) {r : List Byte} (h : r.length ≤ 40) : rspPackets pos r = [rspPacket pos r] := by
  rw [rspPackets, if_pos h]
  rfl

/-- A request whose command leaves the device alone is answered with one packet, if its answer fits one. -/
theorem mgmtReq_answers {s : State} {p : List Byte} {r : List (List Byte)} {ok : Bool} {st : Nat} {data : List Byte}
    (h : FirstPacket s.dev 3 p r) (hw : s.dev.isWorker = true) (hup : firmwareUp s.dev = true) (hown : s.dev.cas.own.length < 32)
    (hcmd : runCommand (Caller.cascade ok) (p.drop 4) { s with dev := packetTaken r s.dev } =
      { st := { s with dev := packetTaken r s.dev }, status := st, data := data }) (hlen : data.length ≤ 36) :
    mgmtReqState ok s = { s with dev := requestAnswered r (responseBytes (p.drop 4) st data) s.dev } := by
  have hshort : (responseBytes (p.drop 4) st data).length ≤ 40 := by simp [responseBytes]; omega
  unfold mgmtReqState
  rw [h.take, h.1, hw, hup]
  dsimp only
  rw [hcmd]
  show State.onDev _ _ = _
  rw [State.onDev, rspPackets_short _ hshort]
  exact congrArg (fun d => { s with dev := d }) (if_pos hown)

theorem mgmtReqState_none {s : State} (ok : Bool) (h : takePacket s.dev 3 = none) : mgmtReqState ok s = s := by
  rw [mgmtReqState, h]
  exact ite_self s

/-- GET_INFO's data (R509). -/
def infoOf (s : State) : List Byte :=
  leBytes 4 s.dev.mgt.fwVersion ++ leBytes 1 s.dev.mgt.secVersion ++ leBytes 1 s.prot.floor ++ leBytes 1 s.dev.slot ++
    leBytes 1 s.dev.stage ++ leBytes 1 (slotSec s 0) ++ leBytes 1 (slotSec s 1)

/-- GET_INFO on any path reads the state. -/
theorem runCommand_getInfo (c : Caller) (tag : Byte) (s : State) (hst : s.dev.stage ≠ Stage.romWait) :
    runCommand c [0x01, tag, 0, 0] s = { st := s, status := 0, data := infoOf s } := by
  have hfresh : freshBases s = s := if_neg hst
  have hserved : served 0x01 c [0x01, tag, 0, 0] getInfoCmd s = getInfoCmd [] (freshBases s) := by
    unfold served
    dsimp only
    rw [if_neg (by simp [romCommands]), if_neg (by simp [halfAt, byteAt, leastParams])]
    simp
  rw [hfresh] at hserved
  exact hserved

theorem responseBytes_echo (cmd tag st : Nat) (data : List Byte) (hc : cmd < 256) (ht : tag < 256) :
    responseBytes [BitVec.ofNat 8 cmd, BitVec.ofNat 8 tag, 0, 0] st data = answerOf cmd tag st data := by
  have hb0 : byteAt [BitVec.ofNat 8 cmd, BitVec.ofNat 8 tag, 0, 0] 0 = cmd := by simpa [byteAt] using hc
  have hb1 : byteAt [BitVec.ofNat 8 cmd, BitVec.ofNat 8 tag, 0, 0] 1 = tag := by simpa [byteAt] using ht
  rw [responseBytes, hb0, hb1, answerOf]

/-- An unknown command ends with status 01h. -/
theorem runCommand_unknown (c : Caller) {req : List Byte} (s : State) (h : byteAt req 0 ∉ allCommands) :
    runCommand c req s = endWith 1 s := by
  simp only [allCommands, romCommands, List.mem_append, List.mem_cons, List.not_mem_nil, or_false, not_or] at h
  unfold runCommand
  simp [h]

/-! ### Responses at the master (R540) -/

/-- The master with a fragment taken, whose data goes behind those before it (R538). -/
def fragmentTaken (r : List (List Byte)) (data : List Byte) (d : Dev) : Dev :=
  { d with cas := { d.cas with packetsIn := r, fwdData := d.cas.fwdData ++ data } }

theorem mgmtRspDev_cons {d : Dev} {p : List Byte} {r : List (List Byte)} (h : FirstPacket d 4 p r) (hm : d.isMaster = true)
    (hup : firmwareUp d = true) : mgmtRspDev d =
      if d.cas.fwdPos ≠ some (byteAt p 2) then packetTaken r d
      else if (byteAt p 3).testBit 7 then fwdDone (fragmentTaken r (p.drop 4) d)
      else fragmentTaken r (p.drop 4) d := by
  unfold mgmtRspDev
  rw [h.take, h.1, hm, hup]
  rfl

theorem mgmtRspDev_none {d : Dev} (h : takePacket d 4 = none) : mgmtRspDev d = d := by
  rw [mgmtRspDev, h]
  exact ite_self d

/-- A whole response is the data of the mailbox's FWD. -/
theorem fwdDone_mailbox {d : Dev} (hport : d.cas.fwdPort = none) (hb : d.mgt.busy = true) (hr : d.mgt.response = none)
    (hreq : byteAt d.mgt.request 0 = 0x30) : fwdDone d =
      { fwdClear d with mgt := { d.mgt with response := some (responseBytes d.mgt.request 0 d.cas.fwdData) } } := by
  unfold fwdDone
  rw [hport]
  exact if_pos (by simp [fwdClear, Dev.modCas, hb, hr, hreq])

/-! ### The statement -/

/-- An entry that a worker has sent is stored at the master, or waits behind a borrow and the entries before it (R441, R518). -/
theorem fwPut_master {e : LogEv} {d : Dev} (hm : d.isMaster = true) (hw : d.mgt.wdogLog = false) (hl : d.mgt.lost = 0) :
    (fwPut e d).cas = d.cas ∧ (fwPut e d).mgt.queue = d.mgt.queue ∧ RegsOnly [Reg.MGT_IRQ_STAT] d (fwPut e d) ∧
      (logBlocked d = false → d.mgt.own = [] → (fwPut e d).mgt.total = d.mgt.total + 1 ∧
        (fwPut e d).mramBytes (logRing + 16 * (d.mgt.total % 4096)) 16 = logBytes e) ∧
      (logBlocked d = true ∨ d.mgt.own ≠ [] → (fwPut e d).mgt.own = d.mgt.own ++ [e] ∧ (fwPut e d).mem = d.mem) := by
  obtain ⟨hring, hwait⟩ := fwPut_cases e d hw hl
  obtain ⟨hcas, hregs⟩ := logStore_master e (not_isWorker_of_isMaster hm)
  obtain ⟨hbytes, -⟩ := logStore_bytes e d
  obtain ⟨hmgt, -⟩ := logStore_ring e d
  by_cases hb : logBlocked d = true ∨ d.mgt.own ≠ []
  · rw [hwait hb]
    refine ⟨rfl, rfl, .of_regs rfl, fun hfree hown => ?_, fun _ => ⟨rfl, rfl⟩⟩
    exact absurd hb (by simp [hfree, hown])
  · rw [hring (by simpa using (not_or.mp hb).1) (not_not.mp (not_or.mp hb).2)]
    exact ⟨hcas, by rw [hmgt], hregs, fun _ _ => ⟨by rw [hmgt], hbytes⟩, fun h => absurd h hb⟩

/-- Settles O57: each packet by the function of its command above. -/
theorem packetsPassBetweenDevices : Obligations.PacketsPassBetweenDevices := by
  unfold Obligations.PacketsPassBetweenDevices
  intro first answer packet
  refine ⟨fun s p im r o e hp hm hon him ho he => ?tasks, fun s p r hp hm hlen hup hw hl => ?entry, fun s hup => ?down,
    fun s tag p r ok hp hw hup htag hown hst => ⟨fun hreq => ?info, fun c hc hcmd hreq => ?unknown⟩,
    fun s p r hp hm hup => ⟨fun hpos => ?other, fun hpos hlast => ?more, fun hpos hlast hport hbusy hres hreq => ?done⟩,
    fun s hp => ?nothing⟩
  case tasks =>
    have he' : e = landingAt (sfBytes p 4 32) r s.dev := him ▸ he
    subst him ho he'
    have hrow := taskPacketDev_cons hp hm hon
    refine ⟨fun hbad => ?_, fun hok hl => ⟨fun hadm _ => ?_, fun href => ?_⟩⟩
    · rw [yields_devNext _ rfl, hrow, if_pos hbad]
      exact ⟨packetDrop_one_fld _, by simp [packetTaken], by simp [packetTaken], by simp [packetTaken]⟩
    · rw [yields_devNext _ rfl, hrow, if_neg (not_not.mpr hok)]
      exact taskPacket_admits rfl rfl hl hadm
    · rw [yields_devNext _ rfl, hrow, if_neg (not_not.mpr hok)]
      obtain ⟨hcas, -, -, -, hresv⟩ := landingAt_keeps (sfBytes p 4 32) r s.dev
      rw [hl] at hcas
      have hkept : landTasks 25 (landingAt (sfBytes p 4 32) r s.dev) = landingAt (sfBytes p 4 32) r s.dev :=
        landTasks_refused 25 (by rw [hcas]; rfl) (by rw [hresv]; exact href)
      rw [hkept]
      exact ⟨rfl, hcas⟩
  case entry =>
    rw [yields_devNext _ rfl, logPacketDev_cons hp hm hup hlen]
    obtain ⟨hcas, hqueue, hregs, hring, hwait⟩ := fwPut_master (e := packetEntry p) (d := packetTaken r s.dev) hm hw hl
    exact ⟨hcas, hqueue, hregs, by simp [packetTaken], packetEntry p, rfl, rfl, rfl, rfl, rfl, rfl, rfl, hring, hwait⟩
  case down => exact devNext_same (logPacketDev_down hup)
  case info =>
    have hcmd := runCommand_getInfo (Caller.cascade ok) (BitVec.ofNat 8 tag) { s with dev := packetTaken r s.dev } hst
    rw [← hreq] at hcmd
    refine ⟨_, congrArg Host.Outcome.next (mgmtReq_answers hp hw hup hown hcmd (by simp [infoOf])), ?_⟩
    rw [hreq, ← show BitVec.ofNat 8 0x01 = 0x01 from rfl, responseBytes_echo 0x01 tag 0 _ (by decide) htag]
    rfl
  case unknown =>
    have hbyte : byteAt (p.drop 4) 0 = c := by rw [hreq]; simpa [byteAt] using hc
    have hend := runCommand_unknown (Caller.cascade ok) (req := p.drop 4) { s with dev := packetTaken r s.dev } (by rwa [hbyte])
    refine ⟨_, congrArg Host.Outcome.next (mgmtReq_answers hp hw hup hown hend (by simp)), ?_⟩
    rw [hreq, responseBytes_echo c tag 1 _ hc htag]
    rfl
  case other =>
    rw [yields_devNext _ rfl, mgmtRspDev_cons hp hm hup, if_pos hpos]
    rfl
  case more =>
    rw [yields_devNext _ rfl, mgmtRspDev_cons hp hm hup, if_neg (not_not.mpr hpos), if_neg (by simp [hlast])]
    rfl
  case done =>
    rw [yields_devNext _ rfl, mgmtRspDev_cons hp hm hup, if_neg (not_not.mpr hpos), if_pos hlast,
      fwdDone_mailbox (d := fragmentTaken r (p.drop 4) s.dev) hport hbusy hres hreq]
    refine ⟨rfl, rfl, ?_, rfl⟩
    show _ = { s.dev.mgt with response := some (answerOf 0x30 (byteAt s.dev.mgt.request 1) 0 (s.dev.cas.fwdData ++ p.drop 4)) }
    rw [← hreq]
    rfl
  case nothing =>
    exact ⟨devNext_same (taskPacketDev_none (takePacket_nil 1 hp)), devNext_same (logPacketDev_none (takePacket_nil 2 hp)),
      fun ok => congrArg Host.Outcome.next (mgmtReqState_none ok (takePacket_nil 3 hp)),
      devNext_same (mgmtRspDev_none (takePacket_nil 4 hp))⟩

end Sys2Proof.Machine
end

section
/-! SUPPORT. A serial port's state put, read and changed (R385). -/

namespace Sys2Proof.Machine

open Sys2Proof

/-- Port n's state put. -/
def Dev.putSer (d : Dev) (n : Nat) (q : SerPort) : Dev := d.modSer n (fun _ => q)

theorem upd_eq_const {α : Type} (l : List α) (i : Nat) (f : α → α) (x : α) : upd l i f = upd l i (fun _ => f (at_ l i x)) := by
  unfold upd at_
  apply List.ext_getElem (by simp)
  intro k h1 _
  simp only [List.getElem_modify]
  split
  next e =>
    subst e
    rw [List.length_modify] at h1
    rw [List.getD_eq_getElem _ _ h1]
  next => rfl

theorem upd_upd_const {α : Type} (l : List α) (i : Nat) (x y : α) : upd (upd l i (fun _ => x)) i (fun _ => y) = upd l i (fun _ => y) := by
  simp [upd, List.modify_modify_eq, Function.comp_def]

theorem at_upd_ne {α : Type} (l : List α) {i j : Nat} (f : α → α) (x : α) (h : j ≠ i) : at_ (upd l i f) j x = at_ l j x := by
  simp [at_, upd, List.getD_eq_getElem?_getD, Ne.symm h]

theorem Dev.modSer_eq_putSer (d : Dev) (n : Nat) (f : SerPort → SerPort) : d.modSer n f = d.putSer n (f (d.ser1 n)) := by
  unfold Dev.putSer Dev.modSer
  rw [upd_eq_const _ _ f SerPort.reset]
  rfl

theorem Dev.putSer_putSer (d : Dev) (n : Nat) (q w : SerPort) : (d.putSer n q).putSer n w = d.putSer n w := by
  unfold Dev.putSer Dev.modSer
  dsimp only
  rw [upd_upd_const]

theorem Dev.ser1_putSer {d : Dev} {n : Nat} (q : SerPort) (h : n < d.ser.ports.length) : (d.putSer n q).ser1 n = q :=
  (at_upd _ _ _ _ _ h).trans (if_pos rfl)

theorem Dev.ser1_modSer_ne (d : Dev) {n j : Nat} (f : SerPort → SerPort) (h : j ≠ n) : (d.modSer n f).ser1 j = d.ser1 j :=
  at_upd_ne _ _ _ h

theorem Dev.ports_length_modSer (d : Dev) (n : Nat) (f : SerPort → SerPort) : (d.modSer n f).ser.ports.length = d.ser.ports.length :=
  upd_length ..

theorem Dev.modParser_eq_putSer (d : Dev) (n : Nat) (f : Parser → Parser) :
    d.modParser n f = d.putSer n { d.ser1 n with parser := f (d.ser1 n).parser } := d.modSer_eq_putSer n _

/-- A parser's change behind a put port. -/
theorem Dev.modParser_putSer {d : Dev} {n : Nat} (q : SerPort) (f : Parser → Parser) (h : n < d.ser.ports.length) :
    (d.putSer n q).modParser n f = d.putSer n { q with parser := f q.parser } := by
  rw [Dev.modParser_eq_putSer, Dev.ser1_putSer q h, Dev.putSer_putSer]

theorem Dev.ser1_of_ser {d e : Dev} (h : e.ser = d.ser) (n : Nat) : e.ser1 n = d.ser1 n := by rw [Dev.ser1, h]; rfl

/-- A port that is not as at reset is one of the device's. -/
theorem Dev.lt_of_ser1 {d : Dev} {n : Nat} (h : d.ser1 n ≠ SerPort.reset) : n < d.ser.ports.length := by
  by_contra hn
  exact h (List.getD_eq_default _ _ (Nat.le_of_not_lt hn))

theorem otherPorts_of_ser {s : State} {d e : Dev} {n : Nat} (h : OtherPorts s d n) (k : e.ser.ports = d.ser.ports) : OtherPorts s e n := by
  obtain ⟨hlen, hport⟩ := h
  exact ⟨k ▸ hlen, fun j hj => by rw [← hport j hj, Dev.ser1, Dev.ser1, k]⟩

theorem otherPorts_putSer (s : State) (n : Nat) (q : SerPort) : OtherPorts s (s.dev.putSer n q) n :=
  ⟨s.dev.ports_length_modSer n _, fun _ hj => s.dev.ser1_modSer_ne _ hj⟩

theorem onlySerial_putSer (s : State) (n : Nat) (q : SerPort) : OnlySerial s (s.dev.putSer n q) n :=
  ⟨rfl, rfl, otherPorts_putSer s n q⟩

/-! ### Releases before a port's own (R123) -/

theorem offerHeld_ports_length (n : Nat) (d : Dev) : (offerHeld n d).ser.ports.length = d.ser.ports.length := by
  unfold offerHeld
  split
  · rfl
  · dsimp only
    repeat' split
    all_goals simp [Dev.modParser, Dev.modSer]

theorem offerHeld_ser1_ne {n j : Nat} (d : Dev) (h : j ≠ n) : (offerHeld n d).ser1 j = d.ser1 j := by
  unfold offerHeld
  split
  · rfl
  next seen f r _ =>
    have hmod (l : List (Bool × List Nat)) (e : Dev) (he : e.ser = (d.modParser n (fun p => { p with hold := l })).ser) :
        e.ser1 j = d.ser1 j := (Dev.ser1_of_ser he j).trans (d.ser1_modSer_ne _ h)
    dsimp only
    repeat' split
    · rfl
    · exact hmod r _ (by simp)
    · rfl
    · exact hmod ((true, f) :: r) _ (by simp)

theorem forUpTo_offerHeld_ser1 {n m : Nat} (d : Dev) (h : m ≤ n) :
    (forUpTo m offerHeld d).ser1 n = d.ser1 n ∧ (forUpTo m offerHeld d).ser.ports.length = d.ser.ports.length := by
  induction m with
  | zero => exact ⟨rfl, rfl⟩
  | succ m ih =>
    obtain ⟨hport, hlen⟩ := ih (by omega)
    rw [forUpTo_succ]
    exact ⟨(offerHeld_ser1_ne _ (by omega)).trans hport, (offerHeld_ports_length _ _).trans hlen⟩

/-- The releases before those of port n leave port n as it is. -/
theorem earlierReleases_ser1 (n : Nat) (d : Dev) :
    (earlierReleases n d).ser1 n = d.ser1 n ∧ (earlierReleases n d).ser.ports.length = d.ser.ports.length := by
  unfold earlierReleases
  split
  · obtain ⟨hport, hlen⟩ := forUpTo_offerHeld_ser1 (releaseListed d) (le_refl n)
    exact ⟨hport.trans (Dev.ser1_of_ser (by simp) n), hlen.trans (by simp)⟩
  · exact ⟨rfl, rfl⟩

end Sys2Proof.Machine
end

section
/-! PROOF. The MIDI parser's bytes, its tasks and its system exclusive messages (R385 to R391). -/

namespace Sys2Proof.Machine

open Sys2Proof

/-- The parser of port n can take byte e: the port is in MIDI mode, and its parser holds no task. -/
def TakesByte (d : Dev) (n : Nat) (e : RxEntry) (r : List RxEntry) : Prop :=
  n < 4 ∧ d.isOn Dom.serial = true ∧ d.serMode n = 2 ∧ (d.ser1 n).rx = e :: r ∧ (d.ser1 n).parser.hold = []

/-- Port n with a byte taken from its FIFO, and its parser. -/
def portTaken (d : Dev) (n : Nat) (r : List RxEntry) (p : Parser) : SerPort := { d.ser1 n with rx := r, parser := p }

theorem TakesByte.lt {d : Dev} {n : Nat} {e : RxEntry} {r : List RxEntry} (h : TakesByte d n e r) : n < d.ser.ports.length := by
  obtain ⟨-, -, -, hrx, -⟩ := h
  refine Dev.lt_of_ser1 fun hreset => ?_
  rw [hreset] at hrx
  exact absurd hrx (by simp [SerPort.reset])

theorem parserByteDev_takes {d : Dev} {n : Nat} {e : RxEntry} {r : List RxEntry} (h : TakesByte d n e r) :
    parserByteDev n d = parseByte n e.data.toNat e.ef (d.putSer n (portTaken d n r (d.ser1 n).parser)) := by
  obtain ⟨hn, hon, hmode, hrx, hhold⟩ := h
  unfold parserByteDev
  dsimp only
  rw [hrx]
  dsimp only
  rw [if_pos (by simp [hn, hon, hmode, hhold]), Dev.modSer_eq_putSer]
  rfl

theorem parseByte_realTime {n b ef : Nat} {d : Dev} (h : 0xF8 ≤ b) : parseByte n b ef d = d := if_pos h

theorem parseByte_data {n b ef : Nat} {d : Dev} (h : b < 0x80) (hs : (d.ser1 n).parser.sysex = none) :
    parseByte n b ef d = parserData n b d := by
  rw [parseByte, if_neg (by omega), hs]
  exact if_pos h

theorem parseByte_status {n b ef : Nat} {d : Dev} (h : 0x80 ≤ b) (h8 : b < 0xF8) (hs : (d.ser1 n).parser.sysex = none) :
    parseByte n b ef d = parserStatus n b ef d := by
  rw [parseByte, if_neg (by omega), hs]
  exact if_neg (by omega)

/-- A channel status byte becomes running status. -/
theorem parserStatus_channel {n b ef : Nat} {d : Dev} (q : SerPort) (h : b < 0xF0) (hn : n < d.ser.ports.length) :
    parserStatus n b ef (d.putSer n q) =
      d.putSer n { q with parser := { q.parser with status := b, data := [], skip := 0, ignoring := false } } := by
  unfold parserStatus
  dsimp only
  rw [if_pos h, Dev.modParser_putSer _ _ hn, Dev.modParser_putSer _ _ hn]

/-- A data byte with no status in force is counted. -/
theorem parserData_ignored {n b : Nat} {d : Dev} (hskip : (d.ser1 n).parser.skip = 0) (hst : (d.ser1 n).parser.status = 0) :
    parserData n b d = d.bump (Reg.SER_CNT_IGN n) := by
  unfold parserData
  dsimp only
  rw [if_neg (by omega), if_pos hst]
  rfl

/-! ### The task of a note-on (R385, R388) -/

/-- The fields of the task that a note-on forms: a note-off of velocity 64 for velocity 0 (R385). -/
def noteTask (n ch k v : Nat) : List Nat :=
  if v = 0 then [Typ.noteOff, 16 * n + ch, n, ch, k, 64, 0, 0, 0, 0, 0, 0, 0, 0]
  else [Typ.noteOn, 16 * n + ch, n, ch, k, v, 0, 0, 0, 0, 0, 0, 0, 0]

theorem channelTask_noteOn (n ch k v bank : Nat) (h : ch < 16) : channelTask n (0x90 + ch) [k, v] bank = noteTask n ch k v := by
  have hhi : (0x90 + ch) / 16 = 9 := by omega
  have hlo : (0x90 + ch) % 16 = ch := by omega
  unfold channelTask noteTask
  rw [hhi, hlo]
  rfl

/-- The device whose parser has formed a task: the task is held and counted, and the classes before it have been released
(R123, R388). -/
def taskFormed (d : Dev) (n : Nat) (r : List RxEntry) (p : Parser) (f : List Nat) : Dev :=
  earlierReleases n ((d.putSer n (portTaken d n r { p with data := [], hold := [(false, f)] })).bump (Reg.SER_CNT_TASK n))

theorem parserData_noteOn {n b k ch : Nat} {d : Dev} {r : List RxEntry} {p : Parser} (hn : n < d.ser.ports.length)
    (hst : p.status = 0x90 + ch) (hch : ch < 16) (hdata : p.data = [k]) (hskip : p.skip = 0) (hhold : p.hold = []) :
    parserData n b (d.putSer n (portTaken d n r p)) = offerHeld n (taskFormed d n r p (noteTask n ch k b)) := by
  have hhi : ¬(0x90 + ch) / 16 = 11 := by omega
  have hbytes : channelBytes (0x90 + ch) = 2 := by unfold channelBytes; rw [if_neg (by omega)]
  have hp : ((d.putSer n (portTaken d n r p)).ser1 n).parser = p := by rw [Dev.ser1_putSer _ hn]; rfl
  unfold parserData
  dsimp only
  rw [hp, hst, hdata, hbytes, if_neg (by omega), if_neg (by omega), if_neg (by simp), Dev.modParser_putSer _ _ hn]
  simp only [hhi, false_and, if_false]
  rw [List.singleton_append, channelTask_noteOn n ch k b _ hch, parserTask, taskFormed, Dev.modParser_putSer _ _ hn]
  simp [portTaken, hhold]

/-- A task that no rule of the Almanac's can be asked about waits (R388). -/
theorem offerHeld_off {n : Nat} {d : Dev} (h : d.isOn Dom.ctrl = false) : offerHeld n d = d := by
  unfold offerHeld
  split
  · rfl
  · exact if_pos (by simp [h])

/-- The device whose parser n still holds a refused task: it is counted, with its interrupt (R124, R152). -/
def heldCounted (n : Nat) (f : List Nat) (d : Dev) : Dev :=
  (((d.modParser n (fun p => { p with hold := [(true, f)] })).bump Reg.ALM_CNT_HOLD).putFlag Reg.ALM_IRQ_STAT 6 true).emit 8 1

theorem offerHeld_refused {n : Nat} {f : List Nat} {d : Dev} (hc : d.isOn Dom.ctrl = true) (hs : d.isOn Dom.serial = true)
    (hhold : (d.ser1 n).parser.hold = [(false, f)]) (hr : refusal d 0 true (parserOffer d n f).typ (parserOffer d n f).flow ≠ 0) :
    offerHeld n d = heldCounted n f d := by
  unfold offerHeld
  rw [hhold]
  dsimp only
  rw [if_neg (by simp [hc, hs]), if_neg hr, if_neg (by decide)]
  rfl

theorem offerHeld_admitted {n : Nat} {f : List Nat} {d : Dev} (hc : d.isOn Dom.ctrl = true) (hs : d.isOn Dom.serial = true)
    (hhold : (d.ser1 n).parser.hold = [(false, f)]) (hr : refusal d 0 true (parserOffer d n f).typ (parserOffer d n f).flow = 0) :
    offerHeld n d = (admitTask (parserOffer d n f) (d.modParser n (fun p => { p with hold := [] }))).1 := by
  unfold offerHeld
  rw [hhold]
  dsimp only
  rw [if_neg (by simp [hc, hs]), if_pos hr]

/-! ### What the forming of a task leaves -/

theorem taskFormed_port {d : Dev} {n : Nat} (r : List RxEntry) (p : Parser) (f : List Nat) (hn : n < d.ser.ports.length) :
    (taskFormed d n r p f).ser1 n = portTaken d n r { p with data := [], hold := [(false, f)] } ∧
      n < (taskFormed d n r p f).ser.ports.length := by
  obtain ⟨hport, hlen⟩ := earlierReleases_ser1 n
    ((d.putSer n (portTaken d n r { p with data := [], hold := [(false, f)] })).bump (Reg.SER_CNT_TASK n))
  refine ⟨hport.trans (Dev.ser1_putSer _ hn), ?_⟩
  rw [taskFormed, hlen]
  exact (d.ports_length_modSer n _).symm ▸ hn

theorem taskFormed_keeps (d : Dev) (n : Nat) (r : List RxEntry) (p : Parser) (f : List Nat) :
    (taskFormed d n r p f).pwr = d.pwr ∧ (taskFormed d n r p f).frame = d.frame := by
  simp [taskFormed, Dev.putSer]

theorem serCntTask_not_released {n : Nat} (h : n < 4) : Reg.SER_CNT_TASK n ∉ releaseRegs := by
  interval_cases n <;> decide

theorem taskFormed_counts {d : Dev} {n : Nat} (r : List RxEntry) (p : Parser) (f : List Nat) (h : n < 4) :
    (taskFormed d n r p f).fld (Reg.SER_CNT_TASK n) 31 0 = min (d.fld (Reg.SER_CNT_TASK n) 31 0 + 1) (2 ^ 32 - 1) :=
  ((earlierReleases_regs n _).fld (serCntTask_not_released h) 31 0).trans
    (Dev.fld_bumpFld (d.putSer n _) _ _ _ _ (by decide) (by decide))

theorem heldCounted_regs (n : Nat) (f : List Nat) (d : Dev) :
    (heldCounted n f d).fld Reg.ALM_CNT_HOLD 31 0 = min (d.fld Reg.ALM_CNT_HOLD 31 0 + 1) (2 ^ 32 - 1) ∧
      (heldCounted n f d).flag Reg.ALM_IRQ_STAT 6 = true := by
  constructor
  · show Dev.fld (((d.modParser n _).bump Reg.ALM_CNT_HOLD).putFlag Reg.ALM_IRQ_STAT 6 true) _ _ _ = _
    rw [Dev.fld, Dev.reg_putFlag_ne _ _ _ _ _ (by decide)]
    exact Dev.fld_bumpFld (d.modParser n _) _ _ _ _ (by decide) (by decide)
  · exact Dev.flag_putFlag_same ((d.modParser n _).bump Reg.ALM_CNT_HOLD) _ _ _ (by decide)

/-- The priority of a parser's offer leaves its DELAYED flag clear: it is released at once (R131, R135). -/
theorem parserOffer_atOnce (d e : Dev) (n : Nat) (f : List Nat) : (parserOffer d n f).atOnce e = true := by
  have hlt : (parserOffer d n f).flags < 2 ^ 3 := by
    have hbits := (d.reg Reg.ALM_SERPRI).bits_lt (2 * n + 1) (2 * n)
    have hwidth : 2 * n + 1 + 1 - 2 * n = 2 := by omega
    rw [hwidth] at hbits
    exact Nat.lt_trans hbits (by decide)
  have hflag : (parserOffer d n f).flags.testBit 3 = false := Nat.testBit_lt_two_pow hlt
  rw [Offer.atOnce, hflag]
  rfl

/-- A parser's task that no rule refuses is the last of the pool, READY now. -/
theorem offerHeld_pool {n : Nat} {f : List Nat} {d : Dev} (hr : refusal d 0 true (parserOffer d n f).typ (parserOffer d n f).flow = 0) :
    ∃ t : Task, (admitTask (parserOffer d n f) (d.modParser n (fun p => { p with hold := [] }))).1.alm.pool = d.alm.pool ++ [t] ∧
      t.typ = f.getD 0 0 ∧ t.flow = f.getD 1 0 ∧ t.tag = 0 ∧ t.payload = (f.drop 2).map (BitVec.ofNat 8) ∧
      t.state = TaskState.ready ∧ t.relEf = d.now := by
  obtain ⟨htyp, htag, hflow, -, hpay, -⟩ := offerTask_fields (parserOffer d n f) (d.modParser n (fun p => { p with hold := [] }))
  obtain ⟨hst, hef⟩ := offerTask_ready (parserOffer_atOnce d (d.modParser n (fun p => { p with hold := [] })) n f)
  exact ⟨_, admitTask_pool (room_of_refusal hr), htyp, hflow, htag, hpay, hst, hef⟩

/-- The last byte of a note-on: its task is held, and offered behind the classes before it (R385, R388). -/
theorem parserByteDev_noteOn {d : Dev} {n ch k : Nat} {e : RxEntry} {r : List RxEntry} (ht : TakesByte d n e r)
    (hs : (d.ser1 n).parser.sysex = none) (hst : (d.ser1 n).parser.status = 0x90 + ch) (hch : ch < 16)
    (hdata : (d.ser1 n).parser.data = [k]) (hskip : (d.ser1 n).parser.skip = 0) (hb : e.data.toNat < 0x80) :
    parserByteDev n d = offerHeld n (taskFormed d n r (d.ser1 n).parser (noteTask n ch k e.data.toNat)) := by
  have hport := Dev.ser1_putSer (portTaken d n r (d.ser1 n).parser) ht.lt
  obtain ⟨-, -, -, -, hhold⟩ := id ht
  rw [parserByteDev_takes ht, parseByte_data hb (by rw [hport]; exact hs), parserData_noteOn ht.lt hst hch hdata hskip hhold]

theorem taskFormed_off {d : Dev} {n : Nat} (r : List RxEntry) (p : Parser) (f : List Nat) (h : d.isOn Dom.ctrl = false) :
    taskFormed d n r p f = (d.putSer n (portTaken d n r { p with data := [], hold := [(false, f)] })).bump (Reg.SER_CNT_TASK n) :=
  if_neg (ne_true_of_eq_false h)

/-- While CTRL is not ON the task is held. -/
theorem noteTask_waits {s : State} {n : Nat} {e : RxEntry} {r : List RxEntry} {f : List Nat} (ht : TakesByte s.dev n e r)
    (hoff : s.dev.isOn Dom.ctrl = false) {d : Dev}
    (hd : d = offerHeld n (taskFormed s.dev n r (s.dev.ser1 n).parser f)) :
    (d.ser1 n).rx = r ∧ (d.ser1 n).parser = { (s.dev.ser1 n).parser with data := [], hold := [(false, f)] } ∧
      Counts s d (Reg.SER_CNT_TASK n) ∧ RegsKept s d [Reg.SER_CNT_TASK n] ∧ d = { s.dev with regs := d.regs, ser := d.ser } ∧
      OtherPorts s d n := by
  obtain ⟨hn4, -⟩ := id ht
  obtain ⟨hport, -⟩ := taskFormed_port r (s.dev.ser1 n).parser f ht.lt
  obtain ⟨hpwr, -⟩ := taskFormed_keeps s.dev n r (s.dev.ser1 n).parser f
  have hformed := taskFormed_off (n := n) r (s.dev.ser1 n).parser f hoff
  rw [offerHeld_off ((Dev.isOn_of_pwr _ _ hpwr _).trans hoff)] at hd
  subst hd
  rw [hport]
  refine ⟨rfl, rfl, taskFormed_counts r _ f hn4, fun a ha => ?_, ?_, ?_⟩
  · rw [hformed, Dev.reg_bump_ne _ _ _ (List.ne_of_not_mem_cons ha)]
    rfl
  · rw [hformed]
    rfl
  · rw [hformed]
    exact otherPorts_putSer s n _

/-- While a rule refuses it the task is held, and counted once. -/
theorem noteTask_held {s : State} {n : Nat} {e : RxEntry} {r : List RxEntry} {f : List Nat} (ht : TakesByte s.dev n e r)
    (hctrl : s.dev.isOn Dom.ctrl = true) {x : Dev} (hr : refusal x 0 true (f.getD 0 0) (f.getD 1 0) ≠ 0)
    (hx : x = taskFormed s.dev n r (s.dev.ser1 n).parser f) :
    ((offerHeld n x).ser1 n).parser = { (s.dev.ser1 n).parser with data := [], hold := [(true, f)] } ∧
      (offerHeld n x).fld Reg.ALM_CNT_HOLD 31 0 = min (x.fld Reg.ALM_CNT_HOLD 31 0 + 1) (2 ^ 32 - 1) ∧
      (offerHeld n x).flag Reg.ALM_IRQ_STAT 6 = true ∧ (offerHeld n x).alm = x.alm := by
  obtain ⟨-, hserial, -⟩ := id ht
  obtain ⟨hport, hlen⟩ := taskFormed_port r (s.dev.ser1 n).parser f ht.lt
  obtain ⟨hpwr, -⟩ := taskFormed_keeps s.dev n r (s.dev.ser1 n).parser f
  rw [← hx] at hport hlen hpwr
  rw [offerHeld_refused ((Dev.isOn_of_pwr _ _ hpwr _).trans hctrl) ((Dev.isOn_of_pwr _ _ hpwr _).trans hserial) (by rw [hport]; rfl) hr]
  obtain ⟨hcount, hflag⟩ := heldCounted_regs n f x
  have hheld : (heldCounted n f x).ser1 n = (x.modParser n (fun p => { p with hold := [(true, f)] })).ser1 n := Dev.ser1_of_ser rfl n
  refine ⟨?_, hcount, hflag, by simp [heldCounted, Dev.modParser]⟩
  rw [hheld, Dev.modParser_eq_putSer, Dev.ser1_putSer _ hlen, hport]
  rfl

/-- A task that no rule refuses is pooled, and the parser free again. -/
theorem noteTask_pooled {s : State} {n : Nat} {e : RxEntry} {r : List RxEntry} {f : List Nat} (ht : TakesByte s.dev n e r)
    (hctrl : s.dev.isOn Dom.ctrl = true) {x : Dev} (hr : refusal x 0 true (f.getD 0 0) (f.getD 1 0) = 0)
    (hx : x = taskFormed s.dev n r (s.dev.ser1 n).parser f) :
    ((offerHeld n x).ser1 n).parser = { (s.dev.ser1 n).parser with data := [] } ∧ Counts s (offerHeld n x) (Reg.SER_CNT_TASK n) ∧
      ∃ t : Task, (offerHeld n x).alm.pool = x.alm.pool ++ [t] ∧ t.typ = f.getD 0 0 ∧ t.flow = f.getD 1 0 ∧ t.tag = 0 ∧
        t.payload = (f.drop 2).map (BitVec.ofNat 8) ∧ t.state = TaskState.ready ∧ t.relEf = s.dev.now := by
  obtain ⟨hn4, hserial, -, -, hhold⟩ := id ht
  obtain ⟨hport, hlen⟩ := taskFormed_port r (s.dev.ser1 n).parser f ht.lt
  obtain ⟨hpwr, hframe⟩ := taskFormed_keeps s.dev n r (s.dev.ser1 n).parser f
  have hcount := taskFormed_counts (d := s.dev) r (s.dev.ser1 n).parser f hn4
  rw [← hx] at hport hlen hpwr hframe hcount
  rw [offerHeld_admitted ((Dev.isOn_of_pwr _ _ hpwr _).trans hctrl) ((Dev.isOn_of_pwr _ _ hpwr _).trans hserial) (by rw [hport]; rfl) hr]
  have hfree : ((admitTask (parserOffer x n f) (x.modParser n (fun p => { p with hold := [] }))).1).ser1 n =
      (x.modParser n (fun p => { p with hold := [] })).ser1 n := Dev.ser1_of_ser (by simp) n
  have hnow : x.now = s.dev.now := congrArg Frame.ef hframe
  refine ⟨?_, ((admitTask_regs _ _).fld (serCntTask_not_released hn4) 31 0).trans hcount, hnow ▸ offerHeld_pool hr⟩
  rw [hfree, Dev.modParser_eq_putSer, Dev.ser1_putSer _ hlen, hport]
  simp [portTaken, hhold]

/-! ### System exclusive messages (R389, R391) -/

/-- The lowest free buffer. -/
theorem find_free_buffer {l : List (Option Nat)} {b : Nat} (hb : b < 8) (hfree : l[b]? = some none)
    (hused : ∀ k, k < b → ∃ q, l[k]? = some (some q)) : (List.range 8).find? (fun k => (at_ l k none).isNone) = some b := by
  rw [List.find?_range_eq_some]
  refine ⟨by simp [at_, List.getD_eq_getElem?_getD, hfree], List.mem_range.mpr hb, fun k hk => ?_⟩
  obtain ⟨q, hq⟩ := hused k hk
  simp [at_, List.getD_eq_getElem?_getD, hq]

/-- Buffer b claimed by port n, with the first byte of a message in it (R389). -/
def bufferClaimed (n b : Nat) (d : Dev) : Dev :=
  { d with ser := { d.ser with bufs := upd d.ser.bufs b (fun _ => some n) } }.mramRaw (sysexAt b 0) [0xF0]

/-- A device whose port n has begun a message in buffer b (R389). -/
def messageBegun (d : Dev) (n b ef : Nat) (q : SerPort) : Dev :=
  (bufferClaimed n b d).putSer n { q with
    parser := { q.parser with
      status := 0, data := [], skip := 0, ignoring := false, sysex := some { buf := b, len := 1, routed := false, lastEf := ef } } }

theorem sysexStart_begins {d : Dev} {n b ef : Nat} (q : SerPort) (hn : n < d.ser.ports.length) (hon : d.isOn Dom.mgmt = true)
    (hb : b < 8) (hfree : d.ser.bufs[b]? = some none) (hused : ∀ k, k < b → ∃ q, d.ser.bufs[k]? = some (some q)) :
    sysexStart n ef (d.putSer n q) = messageBegun d n b ef q := by
  unfold sysexStart
  dsimp only
  rw [Dev.modParser_putSer _ _ hn]
  have hfind (w : SerPort) : (List.range 8).find? (fun k => (at_ (d.putSer n w).ser.bufs k none).isNone) = some b :=
    find_free_buffer hb hfree hused
  have hmgmt (w : SerPort) : (d.putSer n w).isOn Dom.mgmt = true := hon
  rw [hfind]
  dsimp only
  rw [if_pos (hmgmt _)]
  exact Dev.modParser_putSer (d := bufferClaimed n b d) _ _ hn

/-- A message aborted by the silence behind it: its buffer is free, and the rest of it is ignored (R391). -/
def messageSilent (d : Dev) (n : Nat) (x : SysEx) : Dev :=
  freeBuf x.buf (d.putSer n { d.ser1 n with parser := { (d.ser1 n).parser with sysex := none, data := [], ignoring := true } })

/-- An abort for silence: flagged, counted and logged (R391). -/
def silenceAborted (d : Dev) (n : Nat) (x : SysEx) : Dev :=
  (((messageSilent d n x).putFlag (Reg.SER_IRQ_STAT n) 7 true).bump Reg.SER_CNT_SYSEX_ABORT).logEv 5 3 1 [n, 4]

theorem sysexGapTimeoutDev_aborts {d : Dev} {n : Nat} {x : SysEx} (hon : d.serOn n = true) (hx : (d.ser1 n).parser.sysex = some x)
    (hgap : msEf d (d.fld Reg.SER_TIMEOUTS 27 16) < efSince d.now x.lastEf) :
    sysexGapTimeoutDev n d = silenceAborted d n x := by
  have hser : d.isOn Dom.serial = true := by simp_all [Dev.serOn]
  unfold sysexGapTimeoutDev
  rw [hx]
  dsimp only
  rw [if_pos (by simp [hon, hgap]), sysexAbort, hx]
  dsimp only
  rw [Dev.modParser_eq_putSer, serIrq, Dev.setIrq, if_pos (by exact hser)]
  rfl

theorem sysexGapTimeoutDev_none {d : Dev} {n : Nat} (h : (d.ser1 n).parser.sysex = none) : sysexGapTimeoutDev n d = d := by
  rw [sysexGapTimeoutDev, h]

theorem lt_of_sysex {d : Dev} {n : Nat} {x : SysEx} (h : (d.ser1 n).parser.sysex = some x) : n < d.ser.ports.length := by
  refine Dev.lt_of_ser1 fun hreset => ?_
  rw [hreset] at h
  exact absurd h (by simp [SerPort.reset, Parser.reset])

/-- What the begin of a message in a free buffer changes (R389). -/
theorem messageBegun_only {d : Dev} {n b ef : Nat} (q : SerPort) (hn : n < d.ser.ports.length) (hfree : d.ser.bufs[b]? = some none) :
    ((messageBegun d n b ef q).ser1 n).parser.sysex = some { buf := b, len := 1, routed := false, lastEf := ef } ∧
      ((messageBegun d n b ef q).ser1 n).parser.status = 0 ∧ (messageBegun d n b ef q).ser.bufs[b]? = some (some n) ∧
      (messageBegun d n b ef q).mramBytes (sysexAt b 0) 1 = [0xF0] ∧
      (∀ a, a ≠ sysexAt b 0 → (messageBegun d n b ef q).mramBytes a 1 = d.mramBytes a 1) ∧ (messageBegun d n b ef q).regs = d.regs ∧
      (messageBegun d n b ef q).mem.pstore = d.mem.pstore := by
  have hport := Dev.ser1_putSer (d := bufferClaimed n b d) { q with parser := { q.parser with
    status := 0, data := [], skip := 0, ignoring := false, sysex := some { buf := b, len := 1, routed := false, lastEf := ef } } } hn
  rw [messageBegun, hport]
  refine ⟨rfl, rfl, ?_, cellBytes_cellPutBytes_same zeroByte d.mem.mram (sysexAt b 0) [0xF0], fun a ha => ?_, rfl, rfl⟩
  · show (upd d.ser.bufs b (fun _ => some n))[b]? = _
    simp [upd, hfree]
  · exact cellBytes_cellPutBytes_other _ _ _ _ _ _ (by simp; omega)

/-- What the end of a silent message changes of the serial unit (R391). -/
theorem messageSilent_ser {d : Dev} {n : Nat} {x : SysEx} (hn : n < d.ser.ports.length) (hbuf : x.buf < d.ser.bufs.length) :
    ((messageSilent d n x).ser1 n).parser.sysex = none ∧ ((messageSilent d n x).ser1 n).parser.ignoring = true ∧
      (messageSilent d n x).ser.bufs[x.buf]? = some none ∧
      ∀ k, k ≠ x.buf → (messageSilent d n x).ser.bufs[k]? = d.ser.bufs[k]? := by
  have hport : (messageSilent d n x).ser1 n = { d.ser1 n with parser := { (d.ser1 n).parser with sysex := none, data := [], ignoring := true } } :=
    Dev.ser1_putSer _ hn
  rw [hport]
  refine ⟨rfl, rfl, ?_, fun k hk => ?_⟩
  · show (upd d.ser.bufs x.buf (fun _ => none))[x.buf]? = _
    simp [upd, hbuf]
  · show (upd d.ser.bufs x.buf (fun _ => none))[k]? = _
    simp [upd, Ne.symm hk]

theorem silenceAborted_ser (d : Dev) (n : Nat) (x : SysEx) : (silenceAborted d n x).ser = (messageSilent d n x).ser := by
  simp [silenceAborted]

/-- The flag, the count and the registers of an abort for silence. -/
theorem silenceAborted_regs (d : Dev) {n : Nat} (x : SysEx) (hn : n < 4) :
    (silenceAborted d n x).flag (Reg.SER_IRQ_STAT n) 7 = true ∧
      (silenceAborted d n x).fld Reg.SER_CNT_SYSEX_ABORT 31 0 = min (d.fld Reg.SER_CNT_SYSEX_ABORT 31 0 + 1) (2 ^ 32 - 1) ∧
      RegsOnly [Reg.SER_IRQ_STAT n, Reg.SER_CNT_SYSEX_ABORT, Reg.MGT_CNT_LOG_DROP] d (silenceAborted d n x) := by
  have habort : Reg.SER_IRQ_STAT n ≠ Reg.SER_CNT_SYSEX_ABORT := by interval_cases n <;> decide
  have hdrop : Reg.SER_IRQ_STAT n ≠ Reg.MGT_CNT_LOG_DROP := by interval_cases n <;> decide
  refine ⟨?_, ?_, fun a ha => ?_⟩
  · rw [silenceAborted, Dev.flag, Dev.reg_logEv_ne _ _ _ _ _ _ hdrop, Dev.reg_bump_ne _ _ _ habort]
    exact Dev.flag_putFlag_same (messageSilent d n x) _ _ _ (by decide)
  · rw [silenceAborted, Dev.fld, Dev.reg_logEv_ne _ _ _ _ _ _ (by decide)]
    refine (Dev.fld_bumpFld _ _ _ _ _ (by decide) (by decide)).trans ?_
    rw [Dev.fld, Dev.reg_putFlag_ne _ _ _ _ _ (Ne.symm habort)]
    rfl
  · simp only [List.mem_cons, List.not_mem_nil, or_false, not_or] at ha
    obtain ⟨hirq, hcount, hlog⟩ := ha
    rw [silenceAborted, Dev.reg_logEv_ne _ _ _ _ _ _ hlog, Dev.reg_bump_ne _ _ _ hcount, Dev.reg_putFlag_ne _ _ _ _ _ hirq]
    rfl

/-! ### The statement -/

/-- Settles O38: each byte by the branch of the parser it takes. -/
theorem parsersFormTasks : Obligations.ParsersFormTasks := by
  unfold Obligations.ParsersFormTasks
  intro takes
  refine ⟨fun s n e r ht hb => ?realTime, fun s n e r ht hs hlo hhi => ?status, fun s n e r ht hs hb hskip hst => ?ignored,
    fun s n ch k e r p f x ht hp hs hst hch hdata hskip hb hf hx => ?note,
    fun s n b e r ht hs hb hon hlt hfree hused => ?begins, fun s n x hon hx hgap hbuf => ?silent,
    fun s n hs => devNext_same (sysexGapTimeoutDev_none hs)⟩
  case realTime =>
    rw [yields_devNext _ rfl, parserByteDev_takes ht, parseByte_realTime hb]
    exact ⟨onlySerial_putSer s n _, Dev.ser1_putSer _ (TakesByte.lt ht)⟩
  case status =>
    have hn := TakesByte.lt ht
    have hs' : ((s.dev.putSer n (portTaken s.dev n r (s.dev.ser1 n).parser)).ser1 n).parser.sysex = none := by
      rw [Dev.ser1_putSer _ hn]; exact hs
    rw [yields_devNext _ rfl, parserByteDev_takes ht, parseByte_status hlo (by omega) hs', parserStatus_channel _ hhi hn]
    exact ⟨onlySerial_putSer s n _, Dev.ser1_putSer _ hn⟩
  case ignored =>
    have hn := TakesByte.lt ht
    have hport := Dev.ser1_putSer (portTaken s.dev n r (s.dev.ser1 n).parser) hn
    have hrow : parserByteDev n s.dev = (s.dev.putSer n (portTaken s.dev n r (s.dev.ser1 n).parser)).bump (Reg.SER_CNT_IGN n) := by
      rw [parserByteDev_takes ht, parseByte_data hb (by rw [hport]; exact hs),
        parserData_ignored (by rw [hport]; exact hskip) (by rw [hport]; exact hst)]
    rw [yields_devNext _ rfl, hrow]
    exact ⟨hport, Dev.fld_bumpFld (s.dev.putSer n _) _ _ _ _ (by decide) (by decide),
      fun a ha => Dev.reg_bump_ne (s.dev.putSer n _) _ _ (List.ne_of_not_mem_cons ha), otherPorts_putSer s n _, rfl⟩
  case note =>
    subst hp
    have hx' : x = taskFormed s.dev n r (s.dev.ser1 n).parser f := by
      rw [hx, Dev.modSer_eq_putSer]
      rfl
    have hrow : parserByteDev n s.dev = offerHeld n x := by
      rw [parserByteDev_noteOn ht hs hst hch hdata hskip hb, hx', hf]
      rfl
    subst hx'
    refine ⟨fun hoff => ?_, fun hctrl hr => ?_, fun hctrl hr _ => ?_⟩
    · rw [yields_devNext _ rfl, hrow]
      exact noteTask_waits ht hoff rfl
    · rw [yields_devNext _ rfl, hrow]
      exact noteTask_held ht hctrl hr rfl
    · rw [yields_devNext _ rfl, hrow]
      exact noteTask_pooled ht hctrl hr rfl
  case begins =>
    have hn := TakesByte.lt ht
    have hs' : ((s.dev.putSer n (portTaken s.dev n r (s.dev.ser1 n).parser)).ser1 n).parser.sysex = none := by
      rw [Dev.ser1_putSer _ hn]; exact hs
    have hbyte : e.data.toNat = 0xF0 := by rw [hb]; rfl
    have hstatus (d : Dev) : parserStatus n 0xF0 e.ef d = sysexStart n e.ef (d.modParser n (fun p => { p with ignoring := false })) := rfl
    rw [yields_devNext _ rfl, parserByteDev_takes ht, hbyte, parseByte_status (by decide) (by decide) hs', hstatus,
      Dev.modParser_putSer _ _ hn, sysexStart_begins _ hn hon hlt hfree hused]
    exact messageBegun_only _ hn hfree
  case silent =>
    have hn := lt_of_sysex hx
    obtain ⟨hsysex, hign, hfreed, hothers⟩ := messageSilent_ser hn hbuf
    have hn4 : n < 4 := by simp_all [Dev.serOn]
    rw [yields_devNext _ rfl, sysexGapTimeoutDev_aborts hon hx hgap]
    obtain ⟨hflag, hcount, hregs⟩ := silenceAborted_regs s.dev x hn4
    have hser := silenceAborted_ser s.dev n x
    have hothersPorts : OtherPorts s (messageSilent s.dev n x) n := otherPorts_of_ser (otherPorts_putSer s n _) rfl
    rw [Dev.ser1_of_ser hser n, hser]
    exact ⟨hsysex, hign, hfreed, hothers, hflag, hcount, logs_logEv 5 3 1 [n, 4] rfl rfl, hregs,
      otherPorts_of_ser hothersPorts (congrArg _ hser), by simp [silenceAborted, messageSilent, freeBuf, Dev.putSer]⟩

end Sys2Proof.Machine
end

section
/-! SUPPORT. No release of a round looks at the register that FLUSH's ERR lies in: behind a change of it the releases do the same
(R139, R140, R144). -/

namespace Sys2Proof.Machine

open Sys2Proof

/-- Two devices that differ in ALM_CTL alone. -/
def ButCtl (d e : Dev) : Prop := ∃ r, e = { d with regs := r } ∧ ∀ a, a ≠ Reg.ALM_CTL → cellGet regReset r a = d.reg a

namespace ButCtl

theorem refl (d : Dev) : ButCtl d d := ⟨d.regs, rfl, fun _ _ => rfl⟩

theorem alm {d e : Dev} (h : ButCtl d e) : e.alm = d.alm := by
  obtain ⟨r, rfl, -⟩ := h
  rfl

theorem reg {d e : Dev} (h : ButCtl d e) {a : Nat} (ha : a ≠ Reg.ALM_CTL) : e.reg a = d.reg a := by
  obtain ⟨r, rfl, hr⟩ := h
  exact hr a ha

theorem fld {d e : Dev} (h : ButCtl d e) {a : Nat} (ha : a ≠ Reg.ALM_CTL) (hi lo : Nat) : e.fld a hi lo = d.fld a hi lo := by
  rw [Dev.fld, Dev.fld, h.reg ha]

theorem putFlag (d : Dev) (n : Nat) (v : Bool) : ButCtl d (d.putFlag Reg.ALM_CTL n v) :=
  ⟨_, rfl, fun _ ha => Dev.reg_putFlag_ne d _ _ _ _ ha⟩

/-- A field of another register set on both devices. -/
theorem putFld {d e : Dev} (h : ButCtl d e) {a : Nat} (hi lo v : Nat) (ha : a ≠ Reg.ALM_CTL) :
    ButCtl (d.putFld a hi lo v) (e.putFld a hi lo v) := by
  have hsame := h.reg ha
  obtain ⟨r, rfl, hr⟩ := h
  refine ⟨_, rfl, fun b hb => ?_⟩
  show Dev.reg (Dev.putFld _ a hi lo v) b = Dev.reg (d.putFld a hi lo v) b
  by_cases e : b = a
  · subst e
    rw [Dev.reg_putFld, Dev.reg_putFld, hsame]
  · rw [Dev.reg_putFld_ne _ _ _ _ _ _ e, Dev.reg_putFld_ne _ _ _ _ _ _ e]
    exact hr b hb

theorem bump {d e : Dev} (h : ButCtl d e) {a : Nat} (ha : a ≠ Reg.ALM_CTL) : ButCtl (d.bump a) (e.bump a) := by
  show ButCtl (d.putFld _ _ _ _) (e.putFld a 31 0 _)
  rw [h.fld ha]
  exact h.putFld _ _ _ ha

/-- A change that neither looks at the registers nor touches them. -/
theorem map {d e : Dev} (f : Dev → Dev) (h : ButCtl d e) (hf : ∀ d r, f { d with regs := r } = { f d with regs := r })
    (hr : ∀ d, (f d).regs = d.regs) : ButCtl (f d) (f e) := by
  obtain ⟨r, rfl, hreg⟩ := h
  refine ⟨r, hf d r, fun a ha => ?_⟩
  rw [hreg a ha, Dev.reg, Dev.reg, hr]

theorem emit {d e : Dev} (code n : Nat) (h : ButCtl d e) : ButCtl (d.emit code n) (e.emit code n) :=
  h.map (fun d => d.emit code n) (fun _ _ => rfl) fun _ => rfl

theorem ite {c c' : Prop} [Decidable c] [Decidable c'] {a b a' b' : Dev} (hc : c ↔ c') (ha : ButCtl a a') (hb : ButCtl b b') :
    ButCtl (if c then a else b) (if c' then a' else b') := by
  by_cases h : c
  · rwa [if_pos h, if_pos (hc.mp h)]
  · rwa [if_neg h, if_neg (fun k => h (hc.mpr k))]

theorem foldl {β : Type} {f : Dev → β → Dev} (hf : ∀ b d e, ButCtl d e → ButCtl (f d b) (f e b)) (l : List β) {d e : Dev} (h : ButCtl d e) :
    ButCtl (l.foldl f d) (l.foldl f e) := by
  induction l generalizing d e with
  | nil => exact h
  | cons b r ih => exact ih (hf b d e h)

theorem forUpTo {f : Nat → Dev → Dev} (hf : ∀ k d e, ButCtl d e → ButCtl (f k d) (f k e)) (n : Nat) {d e : Dev} (h : ButCtl d e) :
    ButCtl (forUpTo n f d) (forUpTo n f e) :=
  foldl (fun k d e h => hf k d e h) _ h

/-! ### What the releases ask -/

theorem acceptNow {d e : Dev} (h : ButCtl d e) : e.acceptNow = d.acceptNow := by
  have hstage : e.stage = d.stage := h.fld (by decide) 3 0
  have heng : e.engEn = d.engEn := congrArg (fun w : Word => w.getLsbD 0) (h.reg (by decide))
  obtain ⟨r, rfl, -⟩ := h
  rw [Dev.acceptNow, hstage, heng]
  rfl

theorem canRelease {d e : Dev} (h : ButCtl d e) (t : Task) : Machine.canRelease e t = Machine.canRelease d t := by
  have hacc := h.acceptNow
  obtain ⟨r, rfl, -⟩ := h
  rw [Machine.canRelease, hacc]
  rfl

theorem refusal {d e : Dev} (h : ButCtl d e) (floor : Nat) (now : Bool) (ty fl : Nat) :
    Machine.refusal e floor now ty fl = Machine.refusal d floor now ty fl := by
  have hacc := h.acceptNow
  obtain ⟨r, rfl, -⟩ := h
  rw [Machine.refusal, hacc]
  rfl

theorem parserOffer {d e : Dev} (h : ButCtl d e) (n : Nat) (f : List Nat) : Machine.parserOffer e n f = Machine.parserOffer d n f := by
  rw [Machine.parserOffer, h.fld (by decide)]
  rfl

/-! ### The releases -/

theorem releaseTask {d e : Dev} (h : ButCtl d e) (i : Nat) : ButCtl (Machine.releaseTask i d) (Machine.releaseTask i e) := by
  have htask : e.task? i = d.task? i := by rw [Dev.task?, h.alm]; rfl
  unfold Machine.releaseTask
  rw [htask]
  cases d.task? i with
  | none => exact h
  | some t =>
    refine ButCtl.emit 6 1 (ButCtl.bump ?_ (by decide))
    obtain ⟨r, rfl, hr⟩ := h
    exact ⟨r, rfl, hr⟩

theorem rereleaseTask {d e : Dev} (h : ButCtl d e) (i : Nat) : ButCtl (Machine.rereleaseTask i d) (Machine.rereleaseTask i e) := by
  refine ButCtl.emit 6 1 (ButCtl.bump ?_ (by decide))
  obtain ⟨r, rfl, hr⟩ := h
  exact ⟨r, rfl, hr⟩

theorem releaseReturned {d e : Dev} (h : ButCtl d e) (n : Nat) : ButCtl (Machine.releaseReturned n d) (Machine.releaseReturned n e) := by
  induction n generalizing d e with
  | zero => exact h
  | succ n ih =>
    unfold Machine.releaseReturned
    rw [h.alm, h.acceptNow]
    split
    next t _ => exact .ite Iff.rfl (ih (h.rereleaseTask t.idx)) h
    next => exact h

theorem releaseDue {d e : Dev} (h : ButCtl d e) (n : Nat) : ButCtl (Machine.releaseDue n d) (Machine.releaseDue n e) := by
  induction n generalizing d e with
  | zero => exact h
  | succ n ih =>
    have hdue (t : Task) : (t.ephDue e && Machine.canRelease e t) = (t.ephDue d && Machine.canRelease d t) := by
      rw [h.canRelease, Task.ephDue, tickFuture, h.alm]
      rfl
    unfold Machine.releaseDue
    simp only [hdue, h.alm]
    split
    next t _ => exact ih (h.releaseTask t.idx)
    next => exact h

theorem freeIndex {d e : Dev} (h : ButCtl d e) : Machine.freeIndex e = Machine.freeIndex d := by
  have hfresh : e.fresh = d.fresh := by
    obtain ⟨r, rfl, -⟩ := h
    rfl
  unfold Machine.freeIndex Dev.task?
  rw [hfresh, h.alm]

theorem newTask {d e : Dev} (h : ButCtl d e) (o : Offer) : Machine.newTask o e = Machine.newTask o d := by
  unfold Machine.newTask
  rw [h.freeIndex]
  obtain ⟨r, rfl, -⟩ := h
  rfl

theorem pooling {d e : Dev} (h : ButCtl d e) (o : Offer) : ButCtl (d.pooling o) (e.pooling o) := by
  unfold Dev.pooling
  rw [h.newTask]
  obtain ⟨r, rfl, hr⟩ := h
  exact ⟨r, rfl, hr⟩

theorem admitTask {d e : Dev} (h : ButCtl d e) (o : Offer) : ButCtl (Machine.admitTask o d).1 (Machine.admitTask o e).1 := by
  have hat : o.atOnce e = o.atOnce d := by
    obtain ⟨r, rfl, -⟩ := h
    rfl
  rw [admitTask_eq, admitTask_eq, h.freeIndex]
  exact .ite (by rw [hat]) ((h.pooling o).releaseTask _) (h.pooling o)

theorem modParser {d e : Dev} (h : ButCtl d e) (n : Nat) (f : Parser → Parser) : ButCtl (d.modParser n f) (e.modParser n f) :=
  h.map (fun d => d.modParser n f) (fun _ _ => rfl) fun _ => rfl

theorem modCas {d e : Dev} (h : ButCtl d e) (f : Cas → Cas) : ButCtl (d.modCas f) (e.modCas f) :=
  h.map (fun d => d.modCas f) (fun _ _ => rfl) fun _ => rfl

theorem isOn {d e : Dev} (h : ButCtl d e) (n : Nat) : e.isOn n = d.isOn n := by
  obtain ⟨r, rfl, -⟩ := h
  rfl

theorem offerHeld {d e : Dev} (h : ButCtl d e) (n : Nat) : ButCtl (Machine.offerHeld n d) (Machine.offerHeld n e) := by
  have hhold : (e.ser1 n).parser.hold = (d.ser1 n).parser.hold := by
    obtain ⟨r, rfl, -⟩ := h
    rfl
  unfold Machine.offerHeld
  rw [hhold]
  split
  next => exact h
  next seen f r _ =>
    dsimp only
    simp only [h.isOn, h.parserOffer, h.refusal]
    refine .ite Iff.rfl h (.ite Iff.rfl ((h.modParser n _).admitTask _) (.ite Iff.rfl h (ButCtl.emit 8 1 ?_)))
    exact ((h.modParser n _).bump (by decide)).putFld _ _ _ (by decide)

theorem earlierReleases {d e : Dev} (h : ButCtl d e) (n : Nat) : ButCtl (Machine.earlierReleases n d) (Machine.earlierReleases n e) :=
  .ite (by rw [h.isOn]) (.forUpTo (fun k _ _ h => h.offerHeld k) n ((h.releaseReturned 128).releaseDue 128)) h

theorem landOne {d e : Dev} (h : ButCtl d e) :
    ButCtl (Machine.landOne d).1 (Machine.landOne e).1 ∧ (Machine.landOne e).2 = (Machine.landOne d).2 := by
  have hland : e.cas.landing = d.cas.landing := by
    obtain ⟨r, rfl, -⟩ := h
    rfl
  unfold Machine.landOne
  rw [hland]
  cases d.cas.landing with
  | nil => exact ⟨h, rfl⟩
  | cons im r =>
    have hat : (casOffer im).atOnce e = (casOffer im).atOnce d := by
      rw [Offer.atOnce, tickFuture, dueTick, h.alm]
      rfl
    dsimp only
    rw [h.fld (by decide), h.refusal, hat]
    split
    · dsimp only
      exact ⟨(h.modCas _).admitTask _, rfl⟩
    · exact ⟨h, rfl⟩

theorem landTasks {d e : Dev} (h : ButCtl d e) (n : Nat) : ButCtl (Machine.landTasks n d) (Machine.landTasks n e) := by
  induction n generalizing d e with
  | zero => exact h
  | succ n ih =>
    obtain ⟨hone, hmore⟩ := h.landOne
    unfold Machine.landTasks
    exact .ite (by rw [hmore]) (ih hone) hone

theorem roundReleases {d e : Dev} (h : ButCtl d e) : ButCtl (Machine.roundReleases d) (Machine.roundReleases e) :=
  .ite (by rw [h.isOn]) ((h.earlierReleases 4).landTasks 25) h

end ButCtl

end Sys2Proof.Machine
end

section
/-! PROOF. A cancel removes what it matches and can still remove, counts what it comes too late for, and leaves the rest (R137 to
R140, R142). -/

namespace Sys2Proof.Machine

open Sys2Proof

/-! ### Filling the local slots (R132) -/

theorem firstBy_mem {α : Type} {lt : α → α → Bool} {l : List α} {x : α} (h : firstBy lt l = some x) : x ∈ l := by
  induction l generalizing x with
  | nil => cases h
  | cons a r ih =>
    unfold firstBy at h
    split at h
    · cases h
      exact List.mem_cons_self
    next y hy =>
      split at h
      · cases h
        exact List.mem_cons_of_mem _ (ih hy)
      · cases h
        exact List.mem_cons_self

/-- Only local slots have changed: every task is the same but for its place in one. -/
def SlotsOnly (d e : Dev) : Prop :=
  e.alm.done = d.alm.done ∧ e.alm.pool.map Task.unslotted = d.alm.pool.map Task.unslotted

theorem SlotsOnly.refl (d : Dev) : SlotsOnly d d := ⟨rfl, rfl⟩

theorem SlotsOnly.trans {d e f : Dev} (h : SlotsOnly d e) (k : SlotsOnly e f) : SlotsOnly d f :=
  ⟨k.1.trans h.1, k.2.trans h.2⟩

/-- Of two tasks in a well-formed pool with one index there is one. -/
theorem PoolOk.eq_of_idx {a : Alm} (h : PoolOk a) {t u : Task} (ht : t ∈ a.pool) (hu : u ∈ a.pool) (e : t.idx = u.idx) : t = u :=
  List.inj_on_of_nodup_map h.1 ht hu e

theorem fillOne_slotsOnly {tg : Nat} {d : Dev} (h : PoolOk d.alm) : SlotsOnly d (fillOne tg d) := by
  unfold fillOne
  split
  · split
    next t ht =>
      obtain ⟨hmem, hready⟩ := List.mem_filter.mp (firstBy_mem ht)
      refine ⟨rfl, ?_⟩
      show (d.alm.pool.map _).map _ = _
      rw [List.map_map]
      refine List.map_congr_left fun u hu => ?_
      show Task.unslotted (if u.idx = t.idx then _ else u) = _
      split
      next e =>
        have hstate : t.state = .ready := by simp_all
        rw [h.eq_of_idx hu hmem e]
        simp [Task.unslotted, hstate]
      next => rfl
    next => exact .refl d
  · exact .refl d

theorem slotFill_slotsOnly {d : Dev} (h : PoolOk d.alm) : SlotsOnly d (slotFill d) := by
  have hfold (l : List Nat) : ∀ d : Dev, PoolOk d.alm → SlotsOnly d (forEach l (fun tg d => fillOne tg (fillOne tg d)) d) := by
    induction l with
    | nil => exact fun d _ => .refl d
    | cons tg r ih =>
      intro d hd
      have hone : PoolOk (fillOne tg d).alm := fillOne_poolSafe tg d hd
      exact ((fillOne_slotsOnly hd).trans (fillOne_slotsOnly hone)).trans (ih _ (fillOne_poolSafe tg _ hone))
  exact hfold slotTargets d h

/-! ### Tasks removed (R138, R142) -/

/-- The entry of a removed task in the done FIFO (R142). -/
def cancelDone (d : Dev) (t : Task) : Done := { status := 1, ef := d.now % 4096, tag := t.tag }

/-- The registers that the removal of tasks writes. -/
def cancelRegs : List Nat := [Reg.ALM_CNT_CANCEL, Reg.ALM_CNT_RDYCAN, Reg.ALM_DONE_STAT, Reg.ALM_IRQ_STAT]

theorem take_append_take {α : Type} (n : Nat) (l m : List α) : ((l.take n) ++ m).take n = (l ++ m).take n := by
  by_cases h : l.length ≤ n
  · rw [List.take_of_length_le h]
  · have h' : n ≤ l.length := by omega
    rw [List.take_append_of_le_length (by simp; omega), List.take_take, Nat.min_self, List.take_append_of_le_length h']

theorem pushDone_done {st tag : Nat} {d : Dev} (h : d.alm.done.length ≤ 64) :
    (pushDone st tag d).alm.done = (d.alm.done ++ [({ status := st, ef := d.now % 4096, tag := tag } : Done)]).take 64 := by
  by_cases hroom : d.alm.done.length < 64
  · rw [pushDone_room _ _ _ hroom, List.take_of_length_le (by rw [List.length_append, List.length_singleton]; omega)]
  · have hfull : d.alm.done.length = 64 := by omega
    rw [pushDone, if_neg hroom, List.take_append_of_le_length (by omega), List.take_of_length_le (by omega)]
    rfl

theorem pushDone_pool (st tag : Nat) (d : Dev) : (pushDone st tag d).alm.pool = d.alm.pool := by
  unfold pushDone
  split <;> rfl

theorem pushDone_regs (st tag : Nat) (d : Dev) : RegsOnly cancelRegs d (pushDone st tag d) :=
  .ite (.of_regs rfl) ((RegsOnly.putFlag d (a := Reg.ALM_DONE_STAT) 8 true (by decide)).trans
    (.putFlag _ (a := Reg.ALM_IRQ_STAT) 5 true (by decide)))

/-- The removal of one task, before its entry of the done FIFO. -/
def cancelFreed (t : Task) (d : Dev) : Dev :=
  let d1 := (((voidSent (· == t.idx) d).freeTask t.idx).bump Reg.ALM_CNT_CANCEL).emit 9 1
  if d.alm.roundRel.contains t.idx then d1.bump Reg.ALM_CNT_RDYCAN else d1

theorem cancelOne_eq (t : Task) (d : Dev) : cancelOne t d = if t.notify then pushDone 1 t.tag (cancelFreed t d) else cancelFreed t d := rfl

theorem cancelFreed_alm (t : Task) (d : Dev) :
    (cancelFreed t d).alm = { d.alm with pool := d.alm.pool.filter (fun u => u.idx != t.idx) } ∧ (cancelFreed t d).now = d.now := by
  unfold cancelFreed
  dsimp only
  split <;> exact ⟨rfl, rfl⟩

theorem cancelFreed_regs (t : Task) (d : Dev) : RegsOnly cancelRegs d (cancelFreed t d) := by
  have hfree : RegsOnly cancelRegs d ((((voidSent (· == t.idx) d).freeTask t.idx).bump Reg.ALM_CNT_CANCEL).emit 9 1) :=
    (RegsOnly.trans (e := (voidSent (· == t.idx) d).freeTask t.idx) (.of_regs rfl) (.bump _ (a := Reg.ALM_CNT_CANCEL) (by decide))).tail rfl
  exact .ite (hfree.trans (.bump _ (by decide))) hfree

theorem cancelOne_pool (t : Task) (d : Dev) : (cancelOne t d).alm.pool = d.alm.pool.filter (fun u => u.idx != t.idx) := by
  obtain ⟨halm, -⟩ := cancelFreed_alm t d
  rw [cancelOne_eq]
  split
  · rw [pushDone_pool, halm]
  · rw [halm]

theorem cancelOne_done {t : Task} {d : Dev} (h : d.alm.done.length ≤ 64) :
    (cancelOne t d).alm.done = (d.alm.done ++ ([t].filter Task.notify).map (cancelDone d)).take 64 := by
  obtain ⟨halm, hnow⟩ := cancelFreed_alm t d
  rw [cancelOne_eq]
  split
  next hn =>
    rw [pushDone_done (by rw [halm]; exact h), halm, hnow]
    simp [hn, cancelDone]
  next hn =>
    rw [halm]
    simp [hn, h]

theorem cancelOne_regs (t : Task) (d : Dev) : RegsOnly cancelRegs d (cancelOne t d) := by
  rw [cancelOne_eq]
  exact .ite ((cancelFreed_regs t d).trans (pushDone_regs 1 t.tag _)) (cancelFreed_regs t d)

theorem cancelAll_pool (l : List Task) (d : Dev) :
    (forEach l cancelOne d).alm.pool = d.alm.pool.filter (fun u => !(l.map Task.idx).contains u.idx) := by
  induction l generalizing d with
  | nil => simp [forEach]
  | cons t r ih =>
    show (forEach r cancelOne (cancelOne t d)).alm.pool = _
    rw [ih, cancelOne_pool, List.filter_filter]
    refine List.filter_congr fun u _ => ?_
    by_cases h : u.idx = t.idx <;> simp [h]

theorem cancelAll_done (l : List Task) (d : Dev) (h : d.alm.done.length ≤ 64) :
    (forEach l cancelOne d).alm.done = (d.alm.done ++ (l.filter Task.notify).map (cancelDone d)).take 64 := by
  induction l generalizing d with
  | nil => simp [forEach, List.take_of_length_le h]
  | cons t r ih =>
    have hnow : (cancelOne t d).now = d.now := congrArg Frame.ef (by simp)
    have hentry : cancelDone (cancelOne t d) = cancelDone d := by
      funext u
      rw [cancelDone, cancelDone, hnow]
    have hone := cancelOne_done (t := t) h
    show (forEach r cancelOne (cancelOne t d)).alm.done = _
    rw [ih _ (by rw [hone]; simp), hone, hentry, take_append_take, List.append_assoc, ← List.map_append, ← List.filter_append,
      List.singleton_append]

theorem cancelAll_regs (l : List Task) (d : Dev) : RegsOnly cancelRegs d (forEach l cancelOne d) :=
  .forEach cancelOne_regs d

/-! ### A cancel applied (R138) -/

/-- The tasks that a cancel matches and can still remove. -/
def cancelGone (pick : Nat → Nat → Bool) (d : Dev) : List Task := d.alm.pool.filter (fun t => pick t.tag t.flow && !t.tooLate d.now)

/-- How many of those that a cancel matches it comes too late for (R137, R138). -/
def cancelLate (pick : Nat → Nat → Bool) (d : Dev) : Nat :=
  (d.alm.pool.filter (fun t => pick t.tag t.flow && t.tooLate d.now)).length +
    (d.alm.committed.filter (fun c => pick c.tag c.flow)).length +
    (d.par.deferred.filter (fun x => pick x.tag x.flow && !(d.alm.committed.contains ⟨x.tag, x.flow⟩ && x.since == d.now))).length

/-- The device without what a cancel removes. -/
def cancelTaken (pick : Nat → Nat → Bool) (d : Dev) : Dev :=
  let e := voidSent (fun i => (d.par.deferred.filter (fun x => pick x.tag x.flow)).any (fun x => deferId x.order == i))
    (forEach (cancelGone pick d) cancelOne d)
  { e with par := { e.par with deferred := e.par.deferred.filter (fun x => !pick x.tag x.flow) } }

/-- The device with a cancel's counts and its result (R138). -/
def cancelCounted (late gone : Nat) (d : Dev) : Dev :=
  (if late = 0 then d else ((d.bumpBy Reg.ALM_CNT_CANCEL_LATE late).putFlag Reg.ALM_IRQ_STAT 3 true).emit 10 late).putReg
    Reg.ALM_CANCEL_RES (BitVec.ofNat 32 (late * 65536 + gone))

theorem cancelApply_eq (scope tag mask : Nat) (d : Dev) : cancelApply scope tag mask d =
    cancelCounted (cancelLate (cancelHits scope tag mask) d) (cancelGone (cancelHits scope tag mask) d).length
      (cancelTaken (cancelHits scope tag mask) d) := by
  have hgone : (d.alm.pool.filter (fun t => cancelHits scope tag mask t.tag t.flow)).filter (fun t => !t.tooLate d.now) =
      cancelGone (cancelHits scope tag mask) d := by
    rw [List.filter_filter, cancelGone]
    exact List.filter_congr fun t _ => Bool.and_comm _ _
  have hlate : (d.alm.pool.filter (fun t => cancelHits scope tag mask t.tag t.flow)).filter (fun t => t.tooLate d.now) =
      d.alm.pool.filter (fun t => cancelHits scope tag mask t.tag t.flow && t.tooLate d.now) := by
    rw [List.filter_filter]
    exact List.filter_congr fun t _ => Bool.and_comm _ _
  have hdefer : (d.par.deferred.filter (fun x => cancelHits scope tag mask x.tag x.flow)).filter
        (fun x => !(d.alm.committed.contains ⟨x.tag, x.flow⟩ && x.since == d.now)) =
      d.par.deferred.filter (fun x => cancelHits scope tag mask x.tag x.flow &&
        !(d.alm.committed.contains ⟨x.tag, x.flow⟩ && x.since == d.now)) := by
    rw [List.filter_filter]
    exact List.filter_congr fun x _ => Bool.and_comm _ _
  unfold cancelApply
  dsimp only
  rw [hgone, hlate, hdefer]
  rfl

theorem cancelTaken_alm (pick : Nat → Nat → Bool) (d : Dev) : (cancelTaken pick d).alm = (forEach (cancelGone pick d) cancelOne d).alm := by
  simp [cancelTaken]

theorem cancelTaken_regs (pick : Nat → Nat → Bool) (d : Dev) : RegsOnly cancelRegs d (cancelTaken pick d) :=
  (cancelAll_regs (cancelGone pick d) d).tail (by simp [cancelTaken])

theorem cancelTaken_par (pick : Nat → Nat → Bool) (d : Dev) :
    (cancelTaken pick d).par = { d.par with deferred := d.par.deferred.filter (fun x => !pick x.tag x.flow) } := by
  have hpar : (forEach (cancelGone pick d) cancelOne d).par = d.par := forEach_par _ _ _ fun t e => by simp
  simp [cancelTaken, hpar]

theorem cancelCounted_keeps (late gone : Nat) (d : Dev) : (cancelCounted late gone d).alm = d.alm ∧ (cancelCounted late gone d).par = d.par := by
  unfold cancelCounted
  split <;> exact ⟨rfl, rfl⟩

theorem cancelCounted_result {late gone : Nat} (d : Dev) (h : gone < 65536) :
    (cancelCounted late gone d).fld Reg.ALM_CANCEL_RES 15 0 = gone ∧ (cancelCounted late gone d).fld Reg.ALM_CANCEL_RES 31 16 = late % 65536 := by
  rw [Dev.fld, Dev.fld, cancelCounted, Dev.reg_putReg_same, Word.bits, Word.bits, BitVec.toNat_ofNat]
  omega

theorem cancelCounted_late (late gone : Nat) (d : Dev) : (cancelCounted late gone d).fld Reg.ALM_CNT_CANCEL_LATE 31 0 =
    min (d.fld Reg.ALM_CNT_CANCEL_LATE 31 0 + late) (2 ^ 32 - 1) := by
  rw [Dev.fld, cancelCounted, Dev.reg_putReg_ne _ _ _ _ (by decide)]
  split
  next h =>
    have hlt := (d.reg Reg.ALM_CNT_CANCEL_LATE).bits_lt 31 0
    rw [← Dev.fld] at hlt ⊢
    omega
  next =>
    show Dev.fld ((d.bumpBy Reg.ALM_CNT_CANCEL_LATE late).putFlag Reg.ALM_IRQ_STAT 3 true) _ _ _ = _
    rw [Dev.fld, Dev.reg_putFlag_ne _ _ _ _ _ (by decide)]
    exact Dev.fld_bumpFld d _ _ _ _ (by decide) (by decide)

theorem cancelCounted_irq {late : Nat} (gone : Nat) (d : Dev) (h : late ≠ 0) : (cancelCounted late gone d).flag Reg.ALM_IRQ_STAT 3 = true := by
  rw [Dev.flag, cancelCounted, if_neg h, Dev.reg_putReg_ne _ _ _ _ (by decide)]
  exact Dev.flag_putFlag_same (d.bumpBy Reg.ALM_CNT_CANCEL_LATE late) _ _ _ (by decide)

/-! ### A round with a cancel (R139) -/

theorem PoolOk.length_le {a : Alm} (h : PoolOk a) : a.pool.length ≤ 8192 := by
  have hsub : (a.pool.map Task.idx).toFinset ⊆ Finset.range 8192 := fun i hi => by
    obtain ⟨t, ht, rfl⟩ := List.mem_map.mp (List.mem_toFinset.mp hi)
    exact Finset.mem_range.mpr (h.2 t ht)
  have hcard := Finset.card_le_card hsub
  rwa [List.toFinset_card_of_nodup h.1, List.length_map, Finset.card_range] at hcard

/-- A removed task is told from the others by its index. -/
theorem cancelGone_idx {pick : Nat → Nat → Bool} {d : Dev} (h : PoolOk d.alm) {u : Task} (hu : u ∈ d.alm.pool) :
    ((cancelGone pick d).map Task.idx).contains u.idx = (pick u.tag u.flow && !u.tooLate d.now) := by
  rw [Bool.eq_iff_iff, List.contains_iff_mem, List.mem_map]
  constructor
  · rintro ⟨t, ht, e⟩
    obtain ⟨hmem, hpick⟩ := List.mem_filter.mp ht
    rwa [← h.eq_of_idx hmem hu e]
  · exact fun hpick => ⟨u, List.mem_filter.mpr ⟨hu, hpick⟩, rfl⟩

theorem cancelTaken_pool {pick : Nat → Nat → Bool} {d : Dev} (h : PoolOk d.alm) :
    (cancelTaken pick d).alm.pool = d.alm.pool.filter (fun u => !(pick u.tag u.flow && !u.tooLate d.now)) := by
  rw [cancelTaken_alm, cancelAll_pool]
  exact List.filter_congr fun u hu => by rw [cancelGone_idx h hu]

/-- What a cancel leaves: counts and result, the done FIFO, and the tasks that it does not match or comes too late for
(R137, R138, R142). -/
def Cancelled (s : State) (e : Dev) (pick : Nat → Nat → Bool) (d : Dev) : Prop :=
  d.fld Reg.ALM_CANCEL_RES 15 0 = (cancelGone pick e).length ∧
  d.fld Reg.ALM_CANCEL_RES 31 16 = cancelLate pick e % 65536 ∧
  d.fld Reg.ALM_CNT_CANCEL_LATE 31 0 = min (s.dev.fld Reg.ALM_CNT_CANCEL_LATE 31 0 + cancelLate pick e) (2 ^ 32 - 1) ∧
  (cancelLate pick e ≠ 0 → d.flag Reg.ALM_IRQ_STAT 3 = true) ∧
  (e.alm.done.length ≤ 64 → d.alm.done = (e.alm.done ++ (e.alm.pool.filter (fun t => pick t.tag t.flow && !t.tooLate e.now && t.notify)).map
    (fun t => ({ status := 1, ef := e.now % 4096, tag := t.tag } : Done))).take 64) ∧
  (∀ t ∈ d.alm.pool, ∃ u ∈ e.alm.pool, u.unslotted = t.unslotted ∧ (pick u.tag u.flow = true → u.tooLate e.now = true)) ∧
  (∀ u ∈ e.alm.pool, pick u.tag u.flow = false ∨ u.tooLate e.now = true → ∃ t ∈ d.alm.pool, t.unslotted = u.unslotted) ∧
  d.mem = s.dev.mem ∧ d.aud = s.dev.aud ∧ d.outs = s.dev.outs ∧ d.par.voices = s.dev.par.voices

/-- What a cancel decides is the same for devices that differ in ALM_CTL alone. -/
theorem ButCtl.cancel {d e : Dev} (h : ButCtl d e) (pick : Nat → Nat → Bool) :
    cancelGone pick e = cancelGone pick d ∧ cancelLate pick e = cancelLate pick d ∧ e.now = d.now ∧ e.alm = d.alm := by
  obtain ⟨r, rfl, -⟩ := h
  exact ⟨rfl, rfl, rfl, rfl⟩

/-- A cancel's effect on the counts, the done FIFO, the pool and the deferred note-ons. -/
theorem cancelApply_spec {scope tag mask : Nat} {pick : Nat → Nat → Bool} {e c : Dev} (hpick : cancelHits scope tag mask = pick)
    (hc : c = cancelApply scope tag mask e) (h : PoolOk e.alm) :
    c.fld Reg.ALM_CANCEL_RES 15 0 = (cancelGone pick e).length ∧ c.fld Reg.ALM_CANCEL_RES 31 16 = cancelLate pick e % 65536 ∧
      c.fld Reg.ALM_CNT_CANCEL_LATE 31 0 = min (e.fld Reg.ALM_CNT_CANCEL_LATE 31 0 + cancelLate pick e) (2 ^ 32 - 1) ∧
      (cancelLate pick e ≠ 0 → c.flag Reg.ALM_IRQ_STAT 3 = true) ∧
      (e.alm.done.length ≤ 64 → c.alm.done = (e.alm.done ++ ((cancelGone pick e).filter Task.notify).map (cancelDone e)).take 64) ∧
      c.alm.pool = e.alm.pool.filter (fun u => !(pick u.tag u.flow && !u.tooLate e.now)) ∧
      c.par = { e.par with deferred := e.par.deferred.filter (fun x => !pick x.tag x.flow) } := by
  subst hpick
  rw [cancelApply_eq] at hc
  subst hc
  have hfew : (cancelGone (cancelHits scope tag mask) e).length < 65536 :=
    Nat.lt_of_le_of_lt ((List.length_filter_le _ _).trans h.length_le) (by decide)
  obtain ⟨halm, hpar⟩ := cancelCounted_keeps (cancelLate (cancelHits scope tag mask) e) (cancelGone (cancelHits scope tag mask) e).length
    (cancelTaken (cancelHits scope tag mask) e)
  obtain ⟨hgone, hlate⟩ := cancelCounted_result (late := cancelLate (cancelHits scope tag mask) e)
    (cancelTaken (cancelHits scope tag mask) e) hfew
  refine ⟨hgone, hlate, ?_, cancelCounted_irq _ _, fun hdone => ?_, ?_, ?_⟩
  · rw [cancelCounted_late, (cancelTaken_regs _ e).fld (by decide)]
  · rw [halm, cancelTaken_alm]
    exact cancelAll_done _ e hdone
  · rw [halm, cancelTaken_pool h]
  · rw [hpar, cancelTaken_par]

theorem arbitrate_alm (offer cancel : Dev → Dev) (d : Dev) :
    (arbitrate offer cancel d).alm = { (slotFill (cancel (offer (roundReleases d)))).alm with roundRel := [] } := by
  rw [arbitrate]

/-- A round in which nothing is offered fills the local slots behind its cancel. -/
theorem arbitrate_cancel_slots {cancel : Dev → Dev} {c d : Dev} (hc : c = cancel (roundReleases d)) (h : PoolOk c.alm) :
    SlotsOnly c (arbitrate id cancel d) ∧ (arbitrate id cancel d).regs = c.regs ∧ (arbitrate id cancel d).par = c.par := by
  subst hc
  obtain ⟨hdone, hslotted⟩ := slotFill_slotsOnly h
  refine ⟨?_, by simp [arbitrate], by simp [arbitrate]⟩
  have halm : (arbitrate id cancel d).alm = { (slotFill (cancel (roundReleases d))).alm with roundRel := [] } := by
    simp only [arbitrate_alm, id_eq]
  rw [SlotsOnly, halm]
  dsimp only
  rw [hdone, hslotted]
  exact ⟨rfl, rfl⟩

theorem arbitrate_cancel_keeps (scope tag mask : Nat) (d : Dev) : (arbitrate id (cancelApply scope tag mask) d).mem = d.mem ∧
    (arbitrate id (cancelApply scope tag mask) d).aud = d.aud ∧ (arbitrate id (cancelApply scope tag mask) d).outs = d.outs := by
  simp [arbitrate]

/-- A task of the one list has its like in the other. -/
theorem exists_of_map_unslotted {l m : List Task} (h : l.map Task.unslotted = m.map Task.unslotted) {t : Task} (ht : t ∈ l) :
    ∃ u ∈ m, u.unslotted = t.unslotted :=
  List.mem_map.mp (h ▸ List.mem_map_of_mem ht)

/-- The round of a cancel, on a device that differs from the state's in ALM_CTL alone. -/
theorem arbitrate_cancels {s : State} {d : Dev} {pick : Nat → Nat → Bool} {scope tag mask : Nat} (hd : ButCtl s.dev d)
    (hpool : PoolOk s.dev.alm) (hpick : cancelHits scope tag mask = pick) :
    Cancelled s (roundReleases s.dev) pick (arbitrate id (cancelApply scope tag mask) d) ∧
      (arbitrate id (cancelApply scope tag mask) d).par.deferred = s.dev.par.deferred.filter (fun x => !pick x.tag x.flow) := by
  have hok : PoolOk (roundReleases d).alm := roundReleases_poolSafe d (hd.alm ▸ hpool)
  obtain ⟨hgone, hlate, hnow, halm⟩ := hd.roundReleases.cancel pick
  obtain ⟨hres, hreslate, hcount, hirq, hdone, hleft, hpar⟩ := cancelApply_spec hpick rfl hok
  obtain ⟨⟨hadone, hslotted⟩, hregs, hapar⟩ := arbitrate_cancel_slots (cancel := cancelApply scope tag mask) (d := d) rfl
    (cancelApply_poolSafe scope tag mask _ hok)
  obtain ⟨hmem, haud, houts⟩ := arbitrate_cancel_keeps scope tag mask d
  have hreg := RegsOnly.of_regs (l := []) hregs
  have hcounter : (roundReleases d).fld Reg.ALM_CNT_CANCEL_LATE 31 0 = s.dev.fld Reg.ALM_CNT_CANCEL_LATE 31 0 :=
    ((roundReleases_regs d).fld (by decide) 31 0).trans (hd.fld (by decide) 31 0)
  have hsame : cancelDone (roundReleases d) = cancelDone (roundReleases s.dev) := by
    funext t
    rw [cancelDone, cancelDone, hnow]
  have hbase : d = { s.dev with regs := d.regs } := by
    obtain ⟨r, rfl, -⟩ := hd
    rfl
  rw [hgone] at hres hdone
  rw [hlate] at hreslate hcount hirq
  rw [hcounter] at hcount
  rw [halm, hnow] at hleft
  rw [halm, hsame] at hdone
  refine ⟨⟨?_, ?_, ?_, fun h => ?_, fun h => ?_, fun t ht => ?_, fun u hu hstays => ?_, ?_, ?_, ?_, ?_⟩, ?_⟩
  · rw [hreg.fld (List.not_mem_nil)]
    exact hres
  · rw [hreg.fld (List.not_mem_nil)]
    exact hreslate
  · rw [hreg.fld (List.not_mem_nil)]
    exact hcount
  · rw [hreg.flag (List.not_mem_nil)]
    exact hirq h
  · rw [hadone, hdone h, cancelGone, List.filter_filter]
    rw [List.filter_congr fun t _ => Bool.and_comm _ _]
    rfl
  · obtain ⟨u, hu, hlike⟩ := exists_of_map_unslotted hslotted ht
    rw [hleft] at hu
    obtain ⟨hmem, hkept⟩ := List.mem_filter.mp hu
    exact ⟨u, hmem, hlike, fun hp => by simpa [hp] using hkept⟩
  · refine exists_of_map_unslotted hslotted.symm ?_
    rw [hleft]
    refine List.mem_filter.mpr ⟨hu, ?_⟩
    rcases hstays with hp | hp <;> simp [hp]
  · rw [hmem, hbase]
  · rw [haud, hbase]
  · rw [houts, hbase]
  · rw [hapar, hpar, hbase]
    simp
  · rw [hapar, hpar, hbase]
    simp

theorem cancelHits_all (t fl : Nat) : cancelHits 0xFF 0 0 t fl = true := by
  simp [cancelHits]

/-- Settles O16: a cancel is a round whose releases go before it, and FLUSH matches everything. -/
theorem cancelsRemoveMatchingTasks : Obligations.CancelsRemoveMatchingTasks := by
  unfold Obligations.CancelsRemoveMatchingTasks
  intro removes
  refine ⟨fun s v e hon hturn hpool he => ?cancel, fun s v e hon hturn hpool hv he => ?flush, fun s v hv herr => ?nothing, fun s hon => ?read⟩
  case cancel =>
    subst he
    intro pick
    obtain ⟨hgone, hdefer⟩ := arbitrate_cancels (s := s) (scope := s.dev.fld Reg.ALM_CANCEL_SCOPE 7 0) (tag := v.bits 15 0)
      (mask := v.bits 31 16) (pick := pick) (.refl s.dev) hpool rfl
    rw [yields_hostNext _ rfl hturn, hostCancelDev, if_pos hon]
    refine ⟨hgone, fun x hx => ?_⟩
    rw [hdefer] at hx
    simpa using (List.mem_filter.mp hx).2
  case flush =>
    subst he
    have hctl : ButCtl s.dev (if v.getLsbD 31 then s.dev.putFlag Reg.ALM_CTL 31 false else s.dev) := by
      split
      · exact .putFlag s.dev 31 false
      · exact .refl s.dev
    obtain ⟨hgone, hdefer⟩ := arbitrate_cancels (pick := fun _ _ => true) hctl hpool (funext₂ cancelHits_all)
    rw [yields_hostNext _ rfl hturn, flushDev, if_pos hon]
    dsimp only
    rw [if_pos hv]
    exact ⟨hgone, hdefer.trans (by simp)⟩
  case nothing =>
    have hsame : flushDev v s.dev = s.dev := by
      unfold flushDev
      rw [hv, herr]
      exact ite_self s.dev
    exact congrArg Host.Outcome.next (by rw [State.asHost, State.onDev, hsame, ite_self])
  case read => exact congrArg Host.Outcome.next (by rw [State.onDev, almDoneReadDev, if_pos hon])

end Sys2Proof.Machine
end

section
/-! SUPPORT. Which directives take effect on a worker at a release, and which it ignores (R533, R534). -/

namespace Sys2Proof.Machine

open Sys2Proof

/-- Directive i of a kind, with bytes x, takes effect at the present release. -/
def DirDue (d : Dev) (i kind : Nat) (x : List Byte) : Prop :=
  linkRuns d = true ∧ d.isWorker = true ∧ d.cas.down.locked = true ∧ d.isOn Dom.ctrl = true ∧ i < 20 ∧
    ∃ b m, d.cas.outPrev = some b ∧ d.cas.outIn = some m ∧ x = sfBytes b (12 + 16 * i) 16 ∧ byteAt x 0 = kind ∧
      efAdd (leNat (sfBytes b 5 5)) 1 = d.now ∧ leNat (sfBytes m 5 5) = d.now ∧ (leNat (sfBytes m 2 3)).testBit i = false

/-- A directive names this worker, or every one. -/
def DirMine (d : Dev) (x : List Byte) : Prop := byteAt x 1 = d.pos ∨ byteAt x 1 = 0xFF

/-- A directive names slot v of this worker's pool part. -/
def DirSlot (d : Dev) (x : List Byte) (v : Nat) : Prop :=
  DirMine d x ∧ halfAt x 2 / 0x2000 % 8 = d.pos ∧ v = halfAt x 2 / 0x20 % 256 ∧ d.ownCluster (cluOf v) = false ∧
    d.cluOn (cluOf v) = true ∧ v < d.par.voices.length

/-- The handle a directive names is the current one of slot v. -/
def DirCurrent (d : Dev) (x : List Byte) (v : Nat) : Prop :=
  (d.voice v).pool = true ∧ (d.voice v).state ≠ .free ∧ (d.voice v).handle = halfAt x 2

theorem dirNow_due {d : Dev} {i kind : Nat} {x : List Byte} (h : DirDue d i kind x) : dirNow d i kind = some x := by
  obtain ⟨hrun, hworker, hlocked, hon, hi, b, m, hb, hm, rfl, hkind, hprev, hnow, hvoid⟩ := h
  rw [dirNow, hb, hm]
  refine if_pos ?_
  simp [hrun, hworker, hlocked, hon, hi, sfDir, hkind, outEf, sfNat, hprev, hnow, hvoid]

/-- No directive, or a void one. -/
theorem dirNow_none {d : Dev} {i : Nat} {m : List Byte} (kind : Nat)
    (h : 20 ≤ i ∨ d.cas.outPrev = none ∨ (d.cas.outIn = some m ∧ (leNat (sfBytes m 2 3)).testBit i = true)) : dirNow d i kind = none := by
  unfold dirNow
  split
  next b n hb hn =>
    refine if_neg ?_
    rcases h with h | h | ⟨hm, hvoid⟩
    · simp [Nat.not_lt.mpr h]
    · exact absurd (hb.symm.trans h) (by simp)
    · cases hm.symm.trans hn
      simp [sfNat, hvoid]
  next => rfl

theorem dirMine_iff {d : Dev} {x : List Byte} : dirMine d x = true ↔ DirMine d x := by
  simp [dirMine, DirMine]

theorem dirTaken_dev (i : Nat) (d : Dev) : dirTaken i d = { d with cas := (dirTaken i d).cas } := rfl

theorem poolSlot_some {d : Dev} {x : List Byte} {v : Nat} (h : DirSlot d x v) : poolSlot d (halfAt x 2) = some v := by
  obtain ⟨-, hpos, rfl, hown, hclu, -⟩ := h
  exact if_pos ⟨hpos, by simp [hown], hclu⟩

theorem poolSlot_none {d : Dev} {x : List Byte}
    (h : halfAt x 2 / 0x2000 % 8 ≠ d.pos ∨ d.ownCluster (cluOf (halfAt x 2 / 0x20 % 256)) = true) : poolSlot d (halfAt x 2) = none := by
  refine if_neg fun ⟨hpos, hown, _⟩ => ?_
  rcases h with h | h
  · exact h hpos
  · simp [h] at hown

/-- A directive for a slot of this worker's is applied. -/
theorem dirHandle_slot {d : Dev} {i kind v : Nat} {x : List Byte} (f : Nat → List Byte → Dev → Dev) (h : DirDue d i kind x)
    (hs : DirSlot d x v) : dirHandle i kind f d = f v x (dirTaken i d) := by
  have hslot : poolSlot (dirTaken i d) (halfAt x 2) = some v := poolSlot_some hs
  have hmine : dirMine (dirTaken i d) x = true := dirMine_iff.mpr hs.1
  unfold dirHandle
  rw [dirNow_due h]
  dsimp only
  rw [hslot]
  exact if_pos hmine

theorem dirHandle_noSlot {d : Dev} {i kind : Nat} {x : List Byte} (f : Nat → List Byte → Dev → Dev) (h : DirDue d i kind x)
    (hs : halfAt x 2 / 0x2000 % 8 ≠ d.pos ∨ d.ownCluster (cluOf (halfAt x 2 / 0x20 % 256)) = true) :
    dirHandle i kind f d = dirIgnored (dirTaken i d) := by
  have hslot : poolSlot (dirTaken i d) (halfAt x 2) = none := poolSlot_none hs
  unfold dirHandle
  rw [dirNow_due h]
  dsimp only
  rw [hslot]

theorem dirHandle_notMine {d : Dev} {i kind : Nat} {x : List Byte} (f : Nat → List Byte → Dev → Dev) (h : DirDue d i kind x)
    (hm : ¬DirMine d x) : dirHandle i kind f d = dirIgnored (dirTaken i d) := by
  have hmine : ¬dirMine (dirTaken i d) x = true := fun k => hm (dirMine_iff.mp k)
  unfold dirHandle
  rw [dirNow_due h]
  dsimp only
  split
  · exact if_neg hmine
  · rfl

theorem dirHandle_none {d : Dev} {i kind : Nat} (f : Nat → List Byte → Dev → Dev) (h : dirNow d i kind = none) : dirHandle i kind f d = d := by
  rw [dirHandle, h]

theorem dirPos_mine {d : Dev} {i kind : Nat} {x : List Byte} (f : List Byte → Dev → Dev) (h : DirDue d i kind x) (hm : DirMine d x) :
    dirPos i kind f d = f x (dirTaken i d) := by
  rw [dirPos, dirNow_due h]
  exact if_pos (dirMine_iff.mpr hm)

theorem dirPos_notMine {d : Dev} {i kind : Nat} {x : List Byte} (f : List Byte → Dev → Dev) (h : DirDue d i kind x) (hm : ¬DirMine d x) :
    dirPos i kind f d = dirIgnored (dirTaken i d) := by
  rw [dirPos, dirNow_due h]
  exact if_neg fun k => hm (dirMine_iff.mp k)

theorem dirPos_none {d : Dev} {i kind : Nat} (f : List Byte → Dev → Dev) (h : dirNow d i kind = none) : dirPos i kind f d = d := by
  rw [dirPos, h]

/-- A directive ignored is counted, and no more (R533). -/
def DirIgnored (s : State) (d : Dev) : Prop := Counts s d Reg.CAS_CNT_BAD_SF ∧ d.par = s.dev.par ∧ d.mem = s.dev.mem ∧ d.aud = s.dev.aud

theorem dirIgnored_counts (s : State) (i : Nat) : DirIgnored s (dirIgnored (dirTaken i s.dev)) :=
  ⟨Dev.fld_bumpFld (dirTaken i s.dev) _ _ _ _ (by decide) (by decide), rfl, rfl, rfl⟩

theorem poolCurrent_iff {d : Dev} {x : List Byte} {v : Nat} : poolCurrent d v (halfAt x 2) = true ↔ DirCurrent d x v := by
  simp [poolCurrent, DirCurrent, and_assoc]

/-! ### Bytes of a directive -/

/-- A little-endian word of bytes, by either of the model's readings. -/
theorem wordAt_eq_leNat (b : List Byte) (k : Nat) : wordAt b k = leNat (sfBytes b k 4) := by
  have hbytes : sfBytes b k 4 = [b.getD k 0, b.getD (k + 1) 0, b.getD (k + 2) 0, b.getD (k + 3) 0] := by
    refine List.ext_getElem (by simp [sfBytes_length]) fun j hj _ => ?_
    rw [sfBytes_length] at hj
    rw [← List.getD_eq_getElem _ 0, sfBytes_getD b k 4 j hj]
    interval_cases j <;> rfl
  rw [hbytes]
  have hlast : k + 2 + 1 = k + 3 := rfl
  simp only [wordAt, halfAt, byteAt, leNat, hlast]
  omega

end Sys2Proof.Machine
end

section
/-! SUPPORT. What a change of a voice does to the voices, and a word written on port V (R161, R415). -/

namespace Sys2Proof.Machine

open Sys2Proof

/-- One voice put, and of the units that the statement names nothing else changed. -/
def VoicePut (d : Dev) (v : Nat) (y : Voice) (e : Dev) : Prop :=
  ((∀ w, w ≠ v → e.voice w = d.voice w) ∧ e.outs = d.outs ∧ e.alm = d.alm ∧ e.frame = d.frame) ∧ e.voice v = y

theorem voicePut_of_par {d e : Dev} {v : Nat} (f : Voice → Voice) (hv : v < d.par.voices.length) (hpar : e.par = (d.modVoice v f).par)
    (houts : e.outs = d.outs) (halm : e.alm = d.alm) (hframe : e.frame = d.frame) : VoicePut d v (f (d.voice v)) e := by
  have hvoice (w : Nat) : e.voice w = if w = v then f (d.voice w) else d.voice w := by
    rw [Dev.voice, hpar]
    exact at_upd _ _ _ _ _ hv
  exact ⟨⟨fun w hw => (hvoice w).trans (if_neg hw), houts, halm, hframe⟩, (hvoice v).trans (if_pos rfl)⟩

theorem setVoice_par (v : Nat) (f : Voice → Voice) (d : Dev) : (setVoice v f d).par = (d.modVoice v f).par := by
  simp [setVoice]

theorem modVoice_modVoice (d : Dev) (v : Nat) (f g : Voice → Voice) : (d.modVoice v f).modVoice v g = d.modVoice v (g ∘ f) := by
  simp [Dev.modVoice, upd, List.modify_modify_eq]

theorem armOwn_par (v : Nat) (taken : Bool) (x : Voice) (d : Dev) : (armOwn v taken x d).par = (d.modVoice v (fun _ => x)).par := by
  simp [armOwn, Dev.modVoice]

theorem toReleasing_par {v : Nat} (d : Dev) (h : v < 256) :
    (toReleasing v d).par = (d.modVoice v (fun y => { y with state := .releasing })).par := by
  unfold toReleasing
  dsimp only
  rw [if_pos (by simpa [ownSlot] using h)]
  simp [setVoice_par]

theorem toStealing_par {v : Nat} (fade : Nat) (d : Dev) (h : v < 256) : (toStealing v fade d).par =
    (d.modVoice v (fun y => { y with state := .stealing, fadeAt := d.now, fadeLen := fadeEf d.fb fade })).par := by
  unfold toStealing
  dsimp only
  rw [if_pos (by simpa [ownSlot] using h)]
  exact setVoice_par v _ d

theorem toQuench_par {v : Nat} {d : Dev} (h : v < 256) (hst : (d.voice v).state ≠ .quench) :
    (toQuench v d).par = (d.modVoice v (fun y => { y with state := .quench, quenchAt := d.now })).par := by
  unfold toQuench
  rw [if_neg hst]
  dsimp only
  rw [if_pos (by simpa [ownSlot] using h)]
  simp [setVoice_par]

theorem cutPool_par (v : Nat) (d : Dev) :
    (cutPool v d).par = (d.modVoice v (fun y => { y with state := .quench, quenchAt := d.now, handle := 0 })).par := by
  simp [cutPool, setVoice_par]

theorem reuseVoice_par {v : Nat} (key : Nat) (mono restart glide : Bool) (d : Dev) (h : v < 256) :
    (reuseVoice v key mono restart glide d).par = (d.modVoice v (fun y => { y with
      state := if y.state = .releasing then .sounding else y.state
      key := key, offPending := false, sustained := false, gotOff := false })).par := by
  unfold reuseVoice
  dsimp only
  rw [if_neg (by simpa [ownSlot] using h)]
  split <;> simp [setVoice_par]

/-! ### A word on port V (R415) -/

theorem psReserved_word {a k : Nat} (ha : a % 4 = 0) (hk : k < 4) (h : psReserved a = false) : psReserved (a + k) = false := by
  simp only [psReserved, Bool.or_eq_false_iff, decide_eq_false_iff_not, not_and, not_lt] at h ⊢
  omega

/-- A byte of the store after a word written on port V: its own byte, unless port H has landed there at the same release. -/
theorem ps8_psV_word {d : Dev} {a : Nat} (w : Word) (ha : a % 4 = 0) (hr : psReserved a = false) :
    (∀ k, k < 4 → d.keptByH (a + k) = false → (d.psV a (leBytes 4 w.toNat)).ps8 (a + k) = (w.byte k).toNat) ∧
      ∀ b, b < a ∨ a + 4 ≤ b → (d.psV a (leBytes 4 w.toNat)).ps8 b = d.ps8 b := by
  have hmem : (d.psV a (leBytes 4 w.toNat)).mem =
      (d.psRaw a (if d.port.hwords.isEmpty then leBytes 4 w.toNat else d.underH a (leBytes 4 w.toNat))).mem := Dev.mem_collideV _ _
  have hget (b : Nat) : cellGet psDflt (d.psV a (leBytes 4 w.toNat)).mem.pstore b =
      cellGet psDflt (psPut d.mem.pstore a (if d.port.hwords.isEmpty then leBytes 4 w.toNat else d.underH a (leBytes 4 w.toNat))) b := by
    rw [hmem]
    rfl
  have hlen : (if d.port.hwords.isEmpty then leBytes 4 w.toNat else d.underH a (leBytes 4 w.toNat)).length = 4 := by
    split <;> simp [Dev.underH]
  refine ⟨fun k hk hkept => ?_, fun b hb => ?_⟩
  · have hbyte : (if d.port.hwords.isEmpty then leBytes 4 w.toNat else d.underH a (leBytes 4 w.toNat)).getD k 0 = w.byte k := by
      rw [← leBytes_toNat_getD w k hk]
      split
      · rfl
      · simp [Dev.underH, List.getD_eq_getElem?_getD, hk, hkept]
    rw [Dev.ps8, hget, cellGet_psPut, hlen, if_pos ⟨by omega, by omega, psReserved_word ha hk hr⟩, Nat.add_sub_cancel_left, hbyte]
  · rw [Dev.ps8, hget, cellGet_psPut, hlen, if_neg (by omega), Dev.ps8]

theorem wordsOf_word {a : Nat} (ha : a % 4 = 0) : wordsOf a 4 = [a] := by
  have hone : (a + 4 + 3) / 4 - a / 4 = 1 := by omega
  rw [wordsOf, hone]
  simp
  omega

theorem psV_word_port (d : Dev) {a : Nat} (w : Word) (ha : a % 4 = 0) : a ∈ (d.psV a (leBytes 4 w.toNat)).port.vwords := by
  have hwords : wordsOf a (leBytes 4 w.toNat).length = [a] := by rw [leBytes_length, wordsOf_word ha]
  unfold Dev.psV
  dsimp only
  rw [hwords]
  exact List.mem_cons_self

/-- Without a word of port H among those written, port V counts no collision. -/
theorem collideV_regs {ws : List Nat} {d : Dev} (h : ∀ x ∈ d.port.hwords, x.1 ∉ ws) : (collideV ws d).regs = d.regs := by
  have hnone : d.port.hwords.filter (fun x => ws.contains x.1 && !x.2.2) = [] :=
    List.filter_eq_nil_iff.mpr fun x hx => by simp [h x hx]
  unfold collideV
  split
  · rfl
  · dsimp only
    rw [hnone]
    rfl

theorem psV_word_regs {d : Dev} {a : Nat} (w : Word) (ha : a % 4 = 0) (h : ∀ x ∈ d.port.hwords, x.1 ≠ a) :
    (d.psV a (leBytes 4 w.toNat)).regs = d.regs := by
  refine collideV_regs fun x hx => ?_
  rw [leBytes_length, wordsOf_word ha, List.mem_singleton]
  exact h x hx

end Sys2Proof.Machine
end

section
/-! PROOF. The directives on a worker: each acts as its own Parlour would, or is ignored and counted (R533, R534). -/

namespace Sys2Proof.Machine

open Sys2Proof

theorem DirSlot.lt {d : Dev} {x : List Byte} {v : Nat} (h : DirSlot d x v) : v < 256 := by
  obtain ⟨-, -, rfl, -⟩ := h
  exact Nat.mod_lt _ (by decide)

/-! ### ARM and STATE -/

theorem directiveArmDev_arms {d : Dev} {i v : Nat} {x : List Byte} (h : DirDue d i 1 x) (hs : DirSlot d x v) :
    VoicePut d v (armOf d.now x) (directiveArmDev i d) := by
  obtain ⟨-, -, -, -, -, hv⟩ := id hs
  rw [directiveArmDev, dirHandle_slot _ h hs]
  exact voicePut_of_par (fun _ => armOf d.now x) hv (armOwn_par v false (armOf d.now x) (dirTaken i d)) (by simp) (by simp) (by simp)

theorem directiveStateDev_acts {d : Dev} {i v : Nat} {x : List Byte} (h : DirDue d i 2 x) (hs : DirSlot d x v) (hc : DirCurrent d x v) :
    directiveStateDev i d = stateAction (byteAt x 4) (byteAt x 5) v (dirTaken i d) := by
  have hcur : poolCurrent (dirTaken i d) v (halfAt x 2) = true := poolCurrent_iff.mpr hc
  rw [directiveStateDev, dirHandle_slot _ h hs]
  exact if_neg (by simp [hcur])

theorem directiveStateDev_gone {d : Dev} {i v : Nat} {x : List Byte} (h : DirDue d i 2 x) (hs : DirSlot d x v) (hc : ¬DirCurrent d x v) :
    directiveStateDev i d = dirIgnored (dirTaken i d) := by
  have hcur : ¬poolCurrent (dirTaken i d) v (halfAt x 2) = true := fun k => hc (poolCurrent_iff.mp k)
  rw [directiveStateDev, dirHandle_slot _ h hs]
  exact if_pos (by simp [hcur])

/-- A STATE directive that changes the voice. -/
theorem directiveStateDev_puts {d : Dev} {i v : Nat} {x : List Byte} (f : Voice → Voice) (h : DirDue d i 2 x) (hs : DirSlot d x v)
    (hc : DirCurrent d x v) (hpar : (stateAction (byteAt x 4) (byteAt x 5) v (dirTaken i d)).par = (d.modVoice v f).par) :
    VoicePut d v (f (d.voice v)) (directiveStateDev i d) := by
  obtain ⟨-, -, -, -, -, hv⟩ := id hs
  rw [directiveStateDev_acts h hs hc]
  exact voicePut_of_par f hv hpar (by simp) (by simp) (by simp)

theorem stateAction_release_arming {fade v : Nat} {d : Dev} (h : (d.voice v).state = .arming) :
    (stateAction 1 fade v d).par = (d.modVoice v (fun y => { y with offPending := true })).par := by
  rw [stateAction, h]
  exact setVoice_par v _ d

theorem stateAction_release_sounding {fade v : Nat} {d : Dev} (hv : v < 256) (h : (d.voice v).state = .sounding) :
    (stateAction 1 fade v d).par = (d.modVoice v (fun y => { y with state := .releasing })).par := by
  rw [stateAction, h]
  exact toReleasing_par d hv

theorem stateAction_steal_arming {fade v : Nat} {d : Dev} (hv : v < 256) (h : (d.voice v).state = .arming) :
    (stateAction 2 fade v d).par = (d.modVoice v (fun y => { y with state := .quench, quenchAt := d.now })).par := by
  have hdev : stateAction 2 fade v d = toQuench v d := by
    rw [stateAction, h]
    rfl
  rw [hdev]
  exact toQuench_par hv (ne_of_eq_of_ne h (by decide))

theorem stateAction_steal_held {fade v : Nat} {d : Dev} (hv : v < 256) (h : (d.voice v).state = .sounding ∨ (d.voice v).state = .releasing) :
    (stateAction 2 fade v d).par =
      (d.modVoice v (fun y => { y with state := .stealing, fadeAt := d.now, fadeLen := fadeEf d.fb fade })).par := by
  have hdev : stateAction 2 fade v d = toStealing v fade d := by
    unfold stateAction
    rcases h with h | h
    all_goals
      rw [h]
      rfl
  rw [hdev]
  exact toStealing_par fade d hv

/-- The actions that find nothing to do. -/
theorem stateAction_stays {a fade v : Nat} {d : Dev}
    (h : (a = 1 ∧ (d.voice v).state ≠ .arming ∧ (d.voice v).state ≠ .sounding) ∨ (a = 2 ∧ (d.voice v).held = false) ∨
      (a = 3 ∧ (d.voice v).state = .quench) ∨ a = 0 ∨ 4 < a) : stateAction a fade v d = d := by
  rcases h with ⟨rfl, harm, hsound⟩ | ⟨rfl, hheld⟩ | ⟨rfl, hquench⟩ | rfl | ha
  · simp [stateAction, harm, hsound]
  · simp only [Voice.held, Bool.or_eq_false_iff, beq_eq_false_iff_ne] at hheld
    simp [stateAction, hheld]
  · simp [stateAction, toQuench, hquench]
  · rfl
  · unfold stateAction
    rw [if_neg (by omega), if_neg (by omega), if_neg (by omega), if_neg (by omega)]

/-! ### RETRIG -/

theorem directiveRetrigDev_gone {d : Dev} {i v : Nat} {x : List Byte} (h : DirDue d i 3 x) (hs : DirSlot d x v) (hc : ¬DirCurrent d x v) :
    directiveRetrigDev i d = dirIgnored (dirTaken i d) := by
  have hcur : ¬poolCurrent (dirTaken i d) v (halfAt x 2) = true := fun k => hc (poolCurrent_iff.mp k)
  rw [directiveRetrigDev, dirHandle_slot _ h hs]
  exact if_pos (by simp [hcur])

/-- A voice reused for a key (R176). -/
def retrigVoice (x : List Byte) (y : Voice) : Voice :=
  { y with
    key := byteAt x 4, vel := byteAt x 5, vel16 := halfAt x 6, offPending := false, sustained := false, gotOff := false
    state := if y.state = .releasing then .sounding else y.state }

theorem directiveRetrigDev_reuses {d : Dev} {i v : Nat} {x : List Byte} (h : DirDue d i 3 x) (hs : DirSlot d x v) (hc : DirCurrent d x v) :
    VoicePut d v (retrigVoice x (d.voice v)) (directiveRetrigDev i d) := by
  obtain ⟨-, -, -, -, -, hv⟩ := id hs
  have hcur : poolCurrent (dirTaken i d) v (halfAt x 2) = true := poolCurrent_iff.mpr hc
  have hdev : directiveRetrigDev i d = reuseVoice v (byteAt x 4) ((byteAt x 8).testBit 0 && (byteAt x 8).testBit 1)
      ((byteAt x 8).testBit 0) ((byteAt x 8).testBit 1)
      ((dirTaken i d).modVoice v (fun y => { y with vel := byteAt x 5, vel16 := halfAt x 6 })) := by
    rw [directiveRetrigDev, dirHandle_slot _ h hs]
    exact if_neg (by simp [hcur])
  rw [hdev]
  refine voicePut_of_par (retrigVoice x) hv ?_ (by simp) (by simp) (by simp)
  rw [reuseVoice_par _ _ _ _ _ hs.lt, modVoice_modVoice]
  rfl

/-! ### WRITE and GLFO -/

theorem directiveWriteDev_mine {d : Dev} {i a : Nat} {x : List Byte} {m : Word} (h : DirDue d i 4 x) (hm : DirMine d x)
    (ha : a = leNat (sfBytes x 4 4)) (h4 : a % 4 = 0) (hlt : a < 0x100000) (hmask : m = BitVec.ofNat 32 (leNat (sfBytes x 12 4))) :
    directiveWriteDev i d = maskWrite a (BitVec.ofNat 32 (leNat (sfBytes x 8 4))) m (dirTaken i d) := by
  subst ha hmask
  rw [directiveWriteDev, dirPos_mine _ h hm]
  dsimp only
  rw [wordAt_eq_leNat, wordAt_eq_leNat, wordAt_eq_leNat]
  exact if_pos ⟨h4, hlt⟩

theorem maskWrite_zero (a : Nat) (v : Word) (d : Dev) : maskWrite a v 0 d = d := by
  unfold maskWrite
  exact if_pos rfl

theorem maskWrite_bad {a : Nat} {v m : Word} {d : Dev} (hm : m ≠ 0)
    (hbad : partWordBad a (Word.merge (BitVec.ofNat 32 (d.ps32 a)) v m) m = true) : maskWrite a v m d = rejectPart d := by
  rw [maskWrite, if_neg hm, if_pos hbad]

theorem maskWrite_good {a : Nat} {v m : Word} {d : Dev} (hm : m ≠ 0)
    (hbad : partWordBad a (Word.merge (BitVec.ofNat 32 (d.ps32 a)) v m) m = false) :
    maskWrite a v m d = d.psV a (leBytes 4 (Word.merge (BitVec.ofNat 32 (d.ps32 a)) v m).toNat) := by
  rw [maskWrite, if_neg hm, hbad]
  rfl

/-- A write rejected in a part record is counted twice, and flagged (R156). -/
theorem rejectPart_counts {d : Dev} (hon : d.isOn Dom.ctrl = true) :
    (rejectPart d).fld Reg.GLB_CNT_REJ 31 0 = min (d.fld Reg.GLB_CNT_REJ 31 0 + 1) (2 ^ 32 - 1) ∧
      (rejectPart d).fld Reg.ALC_CNT_ERR 31 0 = min (d.fld Reg.ALC_CNT_ERR 31 0 + 1) (2 ^ 32 - 1) ∧
      (rejectPart d).flag Reg.ALC_CTL 31 = true ∧ (rejectPart d).mem = d.mem ∧ (rejectPart d).par = d.par ∧ (rejectPart d).aud = d.aud := by
  have hrej : rejectPart d = ((d.putFlag Reg.ALC_CTL 31 true).bump Reg.ALC_CNT_ERR).bump Reg.GLB_CNT_REJ := by
    rw [rejectPart, Dev.setIrq, if_pos hon]
    rfl
  rw [hrej]
  refine ⟨?_, ?_, ?_, rfl, rfl, rfl⟩
  · refine (Dev.fld_bumpFld _ _ _ _ _ (by decide) (by decide)).trans ?_
    rw [Dev.fld, Dev.reg_bump_ne _ _ _ (by decide), Dev.reg_putFlag_ne _ _ _ _ _ (by decide)]
    rfl
  · rw [Dev.fld, Dev.reg_bump_ne _ _ _ (by decide)]
    refine (Dev.fld_bumpFld _ _ _ _ _ (by decide) (by decide)).trans ?_
    rw [Dev.fld, Dev.reg_putFlag_ne _ _ _ _ _ (by decide)]
    rfl
  · rw [Dev.flag, Dev.reg_bump_ne _ _ _ (by decide), Dev.reg_bump_ne _ _ _ (by decide)]
    exact Dev.flag_putFlag_same d _ _ _ (by decide)

/-- The EF nearest the present one is found again from its low bits (R533). -/
theorem efNear_ahead {d : Dev} {b low : Nat} (hb : b < 2 ^ 40) (hlow : b % 2 ^ 32 = low) (hle : d.now ≤ b) (hnear : b - d.now < 2 ^ 31) :
    efNear d low = b := by
  have hdelta : signed 32 (low + 2 ^ 32 - d.now % 2 ^ 32) = ((b - d.now : Nat) : Int) := by
    have hmod : (low + 2 ^ 32 - d.now % 2 ^ 32) % 2 ^ 32 = b - d.now := by omega
    unfold signed
    dsimp only
    rw [hmod]
    exact if_pos hnear
  unfold efNear
  dsimp only
  rw [hdelta, if_pos (Int.natCast_nonneg _), Int.toNat_natCast, efAdd, efWrap]
  omega

theorem glfoRestartAt_at (mask b : Nat) (d : Dev) {g : Nat} (hg : g < 16) : at_ (glfoRestartAt mask b d).aud.glfo g GLfo.reset =
    if mask.testBit g then { at_ d.aud.glfo g GLfo.reset with restart := some b } else at_ d.aud.glfo g GLfo.reset := by
  simp [glfoRestartAt, Dev.modAud, at_, List.getD_eq_getElem?_getD, hg]

theorem directiveGlfoDev_restarts {d : Dev} {i b : Nat} {x : List Byte} (h : DirDue d i 5 x) (hm : DirMine d x) (hb : b < 2 ^ 40)
    (hlow : b % 2 ^ 32 = leNat (sfBytes x 4 4)) (hle : d.now ≤ b) (hnear : b - d.now < 2 ^ 31) :
    directiveGlfoDev i d = glfoRestartAt (halfAt x 2) b (dirTaken i d) := by
  have hef : efNear (dirTaken i d) (wordAt x 4) = b := efNear_ahead hb (hlow.trans (wordAt_eq_leNat x 4).symm) hle hnear
  rw [directiveGlfoDev, dirPos_mine _ h hm, hef]

/-! ### The statement -/

/-- Settles O56: each directive by the function of its command above. -/
theorem directivesActOnWorkers : Obligations.DirectivesActOnWorkers := by
  unfold Obligations.DirectivesActOnWorkers
  intro due mine slot current others ignored stays
  refine ⟨fun s i v x h hs => ?arm, fun s i v a x y h hs hc ha hy => ?state, fun s i v x h hs hc => ?retrig,
    fun s i a x w m h hm ha h4 hlt hres hmask hw => ?write, fun s i b x h hm hb hlow hle hnear => ?glfo, fun s i x c hc h hm => ?notMine,
    fun s i x c hc h hs => ?noSlot, fun s i v x c hc h hs hcur => ?gone, fun s i m h c hc => ?none⟩
  case arm =>
    rw [yields_devNext _ rfl]
    exact directiveArmDev_arms h hs
  case state =>
    subst ha hy
    have hlt := DirSlot.lt hs
    refine ⟨fun ha hst => ?_, fun ha hst => ?_, fun ha hst => ?_, fun ha hst => ?_, fun ha hst => ?_, fun ha => ?_, fun hstay => ?_⟩
    · rw [yields_devNext _ rfl]
      refine directiveStateDev_puts (fun y => { y with offPending := true }) h hs hc ?_
      rw [ha]
      exact stateAction_release_arming (d := dirTaken i s.dev) hst
    · rw [yields_devNext _ rfl]
      refine directiveStateDev_puts (fun y => { y with state := .releasing }) h hs hc ?_
      rw [ha]
      exact stateAction_release_sounding (d := dirTaken i s.dev) hlt hst
    · rw [yields_devNext _ rfl]
      refine directiveStateDev_puts (fun y => { y with state := .quench, quenchAt := s.dev.now }) h hs hc ?_
      rw [ha]
      exact stateAction_steal_arming (d := dirTaken i s.dev) hlt hst
    · rw [yields_devNext _ rfl]
      refine directiveStateDev_puts
        (fun y => { y with state := .stealing, fadeAt := s.dev.now, fadeLen := fadeEf s.dev.fb (byteAt x 5) }) h hs hc ?_
      rw [ha]
      exact stateAction_steal_held (d := dirTaken i s.dev) hlt hst
    · rw [yields_devNext _ rfl]
      refine directiveStateDev_puts (fun y => { y with state := .quench, quenchAt := s.dev.now }) h hs hc ?_
      rw [ha]
      exact toQuench_par (d := dirTaken i s.dev) hlt hst
    · rw [yields_devNext _ rfl]
      refine directiveStateDev_puts (fun y => { y with state := .quench, quenchAt := s.dev.now, handle := 0 }) h hs hc ?_
      rw [ha]
      exact cutPool_par v _
    · rw [yields_devNext _ rfl, directiveStateDev_acts h hs hc, stateAction_stays (d := dirTaken i s.dev) hstay]
      exact dirTaken_dev i s.dev
  case retrig =>
    rw [yields_devNext _ rfl]
    exact directiveRetrigDev_reuses h hs hc
  case write =>
    have hdev := directiveWriteDev_mine h hm ha h4 hlt hmask
    refine ⟨fun hz => ?_, fun hnz hbad => ?_, fun hnz hgood => ?_⟩
    · rw [yields_devNext _ rfl, hdev, hz, maskWrite_zero]
      exact dirTaken_dev i s.dev
    · obtain ⟨-, -, -, hon, -⟩ := h
      rw [yields_devNext _ rfl, hdev, maskWrite_bad hnz (hw ▸ hbad)]
      exact rejectPart_counts (d := dirTaken i s.dev) hon
    · have hword : Word.merge (BitVec.ofNat 32 ((dirTaken i s.dev).ps32 a)) (BitVec.ofNat 32 (leNat (sfBytes x 8 4))) m = w := hw.symm
      obtain ⟨hbytes, hothers⟩ := ps8_psV_word (d := dirTaken i s.dev) w h4 hres
      rw [yields_devNext _ rfl, hdev, maskWrite_good hnz (by rw [hword]; exact hgood), hword]
      exact ⟨hbytes, hothers, psV_word_port _ w h4, Dev.par_psV _ _ _, Dev.aud_psV _ _ _,
        fun hfree => psV_word_regs (d := dirTaken i s.dev) w h4 hfree⟩
  case glfo =>
    rw [yields_devNext _ rfl, directiveGlfoDev_restarts h hm hb hlow hle hnear]
    exact ⟨fun g hg => glfoRestartAt_at _ _ _ hg, rfl, rfl, rfl⟩
  case notMine =>
    simp only [List.mem_cons, List.not_mem_nil, or_false] at hc
    obtain rfl | rfl | rfl | rfl | rfl := hc
    · rw [yields_devNext _ rfl, directiveArmDev, dirHandle_notMine _ h hm]
      exact dirIgnored_counts s i
    · rw [yields_devNext _ rfl, directiveStateDev, dirHandle_notMine _ h hm]
      exact dirIgnored_counts s i
    · rw [yields_devNext _ rfl, directiveRetrigDev, dirHandle_notMine _ h hm]
      exact dirIgnored_counts s i
    · rw [yields_devNext _ rfl, directiveWriteDev, dirPos_notMine _ h hm]
      exact dirIgnored_counts s i
    · rw [yields_devNext _ rfl, directiveGlfoDev, dirPos_notMine _ h hm]
      exact dirIgnored_counts s i
  case noSlot =>
    simp only [List.mem_cons, List.not_mem_nil, or_false] at hc
    obtain rfl | rfl | rfl := hc
    · rw [yields_devNext _ rfl, directiveArmDev, dirHandle_noSlot _ h hs]
      exact dirIgnored_counts s i
    · rw [yields_devNext _ rfl, directiveStateDev, dirHandle_noSlot _ h hs]
      exact dirIgnored_counts s i
    · rw [yields_devNext _ rfl, directiveRetrigDev, dirHandle_noSlot _ h hs]
      exact dirIgnored_counts s i
  case gone =>
    simp only [List.mem_cons, List.not_mem_nil, or_false] at hc
    obtain rfl | rfl := hc
    · rw [yields_devNext _ rfl, directiveStateDev_gone h hs hcur]
      exact dirIgnored_counts s i
    · rw [yields_devNext _ rfl, directiveRetrigDev_gone h hs hcur]
      exact dirIgnored_counts s i
  case none =>
    simp only [List.mem_cons, List.not_mem_nil, or_false] at hc
    obtain rfl | rfl | rfl | rfl | rfl := hc
    · exact devNext_same (dirHandle_none _ (dirNow_none 1 h))
    · exact devNext_same (dirHandle_none _ (dirNow_none 2 h))
    · exact devNext_same (dirHandle_none _ (dirNow_none 3 h))
    · exact devNext_same (dirPos_none _ (dirNow_none 4 h))
    · exact devNext_same (dirPos_none _ (dirNow_none 5 h))

end Sys2Proof.Machine
end

section
/-! SUPPORT. A byte of the parameter store after a write on port V, and the operations on parts and voices that keep a stretch of
the store as it is (R154, R161, R415). -/

namespace Sys2Proof.Machine

open Sys2Proof

/-! ### Port V (R413, R415) -/

theorem Dev.ps8_of_mem {d e : Dev} (h : e.mem = d.mem) (a : Nat) : e.ps8 a = d.ps8 a := by
  rw [Dev.ps8, h, Dev.ps8]

theorem Dev.keptByH_of_port {d e : Dev} (h : e.port = d.port) (a : Nat) : e.keptByH a = d.keptByH a := by
  rw [Dev.keptByH, h, Dev.keptByH]

/-- What port H has landed does not change when port V counts its collisions. -/
theorem keptByH_collideV (ws : List Nat) (d : Dev) (b : Nat) : (collideV ws d).keptByH b = d.keptByH b := by
  unfold collideV
  split
  · rfl
  · have hport (l : List Nat) : (l.foldl (fun d off => collide off d) d).port = d.port :=
      foldl_keeps Dev.port (fun d off => collide off d) (fun d off => rfl) l d
    simp only [Dev.keptByH, hport, List.any_map]
    congr 1
    funext h
    dsimp only [Function.comp]
    split <;> rfl

@[simp] theorem Dev.keptByH_psV (d : Dev) (a : Nat) (bs : List Byte) (b : Nat) : (d.psV a bs).keptByH b = d.keptByH b :=
  keptByH_collideV (wordsOf a bs.length) (d.psRaw a (if d.port.hwords.isEmpty then bs else d.underH a bs)) b

/-- The bytes that a write on port V puts into the store: the store's own where port H has landed at the same release. -/
def Dev.landedV (d : Dev) (a : Nat) (bs : List Byte) : List Byte := if d.port.hwords.isEmpty then bs else d.underH a bs

theorem Dev.landedV_length (d : Dev) (a : Nat) (bs : List Byte) : (d.landedV a bs).length = bs.length := by
  unfold Dev.landedV
  split
  · rfl
  · simp [Dev.underH]

theorem Dev.landedV_getD (d : Dev) (a k : Nat) (bs : List Byte) (hk : k < bs.length) :
    (d.landedV a bs).getD k 0 = if d.keptByH (a + k) then cellGet psDflt d.mem.pstore (a + k) else bs.getD k 0 := by
  unfold Dev.landedV
  split
  next h => rw [if_neg (by simp [Dev.keptByH, List.isEmpty_iff.mp h])]
  next => simp [Dev.underH, List.getD_eq_getElem?_getD, hk]

/-- A byte of the store after a write on port V: the byte written, but for a reserved address and for a byte that port H has landed at
the same release. -/
theorem Dev.ps8_psV (d : Dev) (a : Nat) (bs : List Byte) (b : Nat) : (d.psV a bs).ps8 b =
    if a ≤ b ∧ b < a + bs.length ∧ psReserved b = false ∧ d.keptByH b = false then (bs.getD (b - a) 0).toNat else d.ps8 b := by
  have hmem : (d.psV a bs).mem = (d.psRaw a (d.landedV a bs)).mem := Dev.mem_collideV _ _
  rw [Dev.ps8_of_mem hmem]
  show (cellGet psDflt (psPut d.mem.pstore a (d.landedV a bs)) b).toNat = _
  rw [cellGet_psPut, Dev.landedV_length]
  by_cases h : a ≤ b ∧ b < a + bs.length ∧ psReserved b = false
  · obtain ⟨hle, hlt, hres⟩ := h
    rw [if_pos ⟨hle, hlt, hres⟩, Dev.landedV_getD _ _ _ _ (by omega), Nat.add_sub_cancel' hle]
    cases hkept : d.keptByH b with
    | true => rw [if_pos rfl, if_neg (by simp), Dev.ps8]
    | false => rw [if_neg (by simp), if_pos ⟨hle, hlt, hres, rfl⟩]
  · rw [if_neg h, if_neg fun ⟨hle, hlt, hres, _⟩ => h ⟨hle, hlt, hres⟩, Dev.ps8]

/-! ### Stretches of the store that stay -/

/-- The bytes of the store at these addresses, and what port H has landed, are as before. -/
structure StoreKept (P : Nat → Prop) (d e : Dev) : Prop where
  bytes : ∀ a, P a → e.ps8 a = d.ps8 a
  landed : ∀ a, e.keptByH a = d.keptByH a

namespace StoreKept

variable {P Q : Nat → Prop} {d e f : Dev}

theorem refl (d : Dev) : StoreKept P d d := ⟨fun _ _ => rfl, fun _ => rfl⟩

theorem trans (h : StoreKept P d e) (k : StoreKept P e f) : StoreKept P d f :=
  ⟨fun a ha => (k.bytes a ha).trans (h.bytes a ha), fun a => (k.landed a).trans (h.landed a)⟩

theorem mono (hPQ : ∀ a, P a → Q a) (h : StoreKept Q d e) : StoreKept P d e := ⟨fun a ha => h.bytes a (hPQ a ha), h.landed⟩

theorem of_eq (hmem : e.mem = d.mem) (hport : e.port = d.port) : StoreKept P d e :=
  ⟨fun a _ => Dev.ps8_of_mem hmem a, Dev.keptByH_of_port hport⟩

theorem psV (d : Dev) (a : Nat) (bs : List Byte) (h : ∀ b, P b → b < a ∨ a + bs.length ≤ b) : StoreKept P d (d.psV a bs) :=
  ⟨fun b hb => by rw [Dev.ps8_psV, if_neg (by have := h b hb; omega)], Dev.keptByH_psV d a bs⟩

theorem ite {c : Prop} [Decidable c] (h : StoreKept P d e) (k : StoreKept P d f) : StoreKept P d (if c then e else f) := by
  split <;> assumption

theorem forEach {β : Type} (l : List β) (g : β → Dev → Dev) (h : ∀ b d, StoreKept P d (g b d)) (d : Dev) :
    StoreKept P d (forEach l g d) := by
  induction l generalizing d with
  | nil => exact refl d
  | cons b r ih => exact (h b d).trans (ih (g b d))

end StoreKept

/-- The addresses below the voice state blocks (R25). -/
def BelowBlocks (a : Nat) : Prop := a < 0xC0000

theorem mirrorVoice_below (v : Nat) (d : Dev) : StoreKept BelowBlocks d (mirrorVoice v d) :=
  .ite (.psV _ _ _ fun b hb => .inl (by simp only [BelowBlocks, vblk] at *; omega)) (.refl d)

theorem setVoice_below (v : Nat) (f : Voice → Voice) (d : Dev) : StoreKept BelowBlocks d (setVoice v f d) :=
  (StoreKept.of_eq (d := d) (e := d.modVoice v f) rfl rfl).trans (mirrorVoice_below v (d.modVoice v f))

theorem emitDir_store {P : Nat → Prop} (bs : List Byte) (d : Dev) : StoreKept P d (emitDir bs d) := .of_eq (by simp) (by simp)

theorem toReleasing_below (v : Nat) (d : Dev) : StoreKept BelowBlocks d (toReleasing v d) :=
  (setVoice_below v _ d).trans (.ite (.of_eq (by simp) (by simp)) (emitDir_store _ _))

theorem offVoice_below (v : Nat) (d : Dev) : StoreKept BelowBlocks d (offVoice v d) :=
  .ite (setVoice_below v _ d)
    (.ite (.ite (setVoice_below v _ d) (.ite (setVoice_below v _ d) (toReleasing_below v d))) (.refl d))

theorem letGo_below (v : Nat) (d : Dev) : StoreKept BelowBlocks d (letGo v d) :=
  (setVoice_below v _ d).trans (.ite (toReleasing_below v _) (.refl _))

theorem noteV_below (v off : Nat) (bs : List Byte) (d : Dev) : StoreKept BelowBlocks d (noteV v off bs d) :=
  .ite (.psV _ _ _ fun b hb => .inl (by simp only [BelowBlocks, vblk] at *; omega)) (emitDir_store _ _)

/-! ### Part records (R155) -/

/-- The addresses of part p's record. -/
def InRecord (p a : Nat) : Prop := partRec p ≤ a ∧ a < partRec p + 256

/-- The addresses below the voice state blocks but for part p's record. -/
def OutsideRecord (p a : Nat) : Prop := BelowBlocks a ∧ ¬InRecord p a

/-- Port H has landed no byte of part p's record at the present release. -/
def RecordClear (d : Dev) (p : Nat) : Prop := ∀ b, partRec p ≤ b → b < partRec p + 256 → d.keptByH b = false

theorem inRecord_below {p a : Nat} (hp : p < 32) (h : InRecord p a) : BelowBlocks a := by
  simp only [InRecord, BelowBlocks, partRec] at *; omega

theorem inRecord_outside {p q a : Nat} (hp : p < 32) (hpq : q ≠ p) (h : InRecord p a) : OutsideRecord q a := by
  simp only [OutsideRecord, InRecord, BelowBlocks, partRec] at *; omega

theorem RecordClear.of_kept {P : Nat → Prop} {d e : Dev} {p : Nat} (hc : RecordClear d p) (h : StoreKept P d e) : RecordClear e p :=
  fun b hlo hhi => (h.landed b).trans (hc b hlo hhi)

theorem partV_store {P : Nat → Prop} (p off : Nat) (bs : List Byte) (d : Dev)
    (h : ∀ b, P b → b < partRec p + off ∨ partRec p + off + bs.length ≤ b) : StoreKept P d (partV p off bs d) :=
  (StoreKept.psV d _ bs h).trans (emitDir_store _ _)

theorem partV_outside (p off : Nat) (bs : List Byte) (d : Dev) (h : off + bs.length ≤ 256) :
    StoreKept (OutsideRecord p) d (partV p off bs d) :=
  partV_store p off bs d fun b hb => by simp only [OutsideRecord, InRecord] at hb; omega

/-- Byte k of a part's record after a change of its controller state. -/
theorem ps8_partV {d : Dev} {p k : Nat} (off : Nat) (bs : List Byte) (hp : p < 32) (hk : k < 256) (hc : RecordClear d p) :
    (partV p off bs d).ps8 (partRec p + k) =
      if off ≤ k ∧ k < off + bs.length then (bs.getD (k - off) 0).toNat else d.ps8 (partRec p + k) := by
  have hres : psReserved (partRec p + k) = false := by
    rw [psReserved, Bool.or_eq_false_iff, decide_eq_false_iff_not, decide_eq_false_iff_not, partRec]
    omega
  have hkept : d.keptByH (partRec p + k) = false := hc _ (by omega) (by omega)
  have hport : (partV p off bs d).ps8 (partRec p + k) = (d.psV (partRec p + off) bs).ps8 (partRec p + k) :=
    Dev.ps8_of_mem (by simp [partV]) _
  rw [hport, Dev.ps8_psV, hres, hkept, Nat.add_sub_add_left]
  exact if_congr (by simp; omega) rfl rfl

/-- The settings of a part are read from its record. -/
theorem readPart_of_kept {d e : Dev} {p : Nat} (h : StoreKept (InRecord p) d e) : readPart e p = readPart d p := by
  have hbyte (k : Nat) (hk : k < 256) : e.ps8 (partRec p + k) = d.ps8 (partRec p + k) := h.bytes _ ⟨by omega, by omega⟩
  have hfirst : e.ps8 (partRec p) = d.ps8 (partRec p) := hbyte 0 (by decide)
  simp only [readPart, Dev.ps16, Nat.add_assoc, hbyte, hfirst, Nat.reduceLT, Nat.reduceAdd]

theorem pedals_of_kept {d e : Dev} {p : Nat} (h : StoreKept (InRecord p) d e) : pedals e p = pedals d p := by
  simp only [pedals, readPart_of_kept h, h.bytes (partRec p + 0x23) ⟨by omega, by omega⟩]

/-! ### Loops -/

/-- A loop over distinct entries, each of whose other rounds keeps what R says, is round p between two stretches that keep it. -/
theorem forEach_split {β : Type} {R : Dev → Dev → Prop} (hrefl : ∀ d, R d d) (htrans : ∀ {a b c}, R a b → R b c → R a c)
    {l : List β} {p : β} (hnodup : l.Nodup) (hp : p ∈ l) (f : β → Dev → Dev) (hf : ∀ q, q ≠ p → ∀ d, R d (f q d)) (d : Dev) :
    ∃ e, R d e ∧ R (f p e) (forEach l f d) := by
  have hkeeps (r : List β) (h : p ∉ r) (d : Dev) : R d (forEach r f d) := by
    induction r generalizing d with
    | nil => exact hrefl d
    | cons q r ih =>
      obtain ⟨hq, hr⟩ := not_or.mp (List.mem_cons.not.mp h)
      exact htrans (hf q (Ne.symm hq) d) (ih hr _)
  obtain ⟨a, b, rfl⟩ := List.append_of_mem hp
  obtain ⟨-, hb, hdis⟩ := List.nodup_append.mp hnodup
  refine ⟨forEach a f d, hkeeps a (fun h => hdis p h p List.mem_cons_self rfl) d, ?_⟩
  have hloop : forEach (a ++ p :: b) f d = forEach b f (f p (forEach a f d)) := by simp [forEach]
  rw [hloop]
  exact hkeeps b (List.nodup_cons.mp hb).1 _

end Sys2Proof.Machine
end

section
/-! PROOF. What a MIDI task does to the records of the parts it matches, and the statement on controllers (R155, R168, R169, R415). -/

namespace Sys2Proof.Machine

open Sys2Proof

/-! ### The parts of a task (R168) -/

/-- The parts that match a MIDI task's port and channel. -/
def heardBy (e : Dev) (pay : List Byte) : List Nat := (matchParts e (fun c => c.hears (pay8 pay 0) (pay8 pay 1))).1

/-- The device on which a MIDI task takes effect in its parts: those disabled for their settings are counted (R156). -/
def heardFrom (t : Task) (e : Dev) : Dev :=
  countNoPart (matchParts e (fun c => c.hears (pay8 t.payload 0) (pay8 t.payload 1))).2 (forTask (some t.idx) e)

theorem heardBy_nodup (e : Dev) (pay : List Byte) : (heardBy e pay).Nodup := (List.nodup_range.filter _).filter _

theorem heardBy_lt {e : Dev} {pay : List Byte} {p : Nat} (h : p ∈ heardBy e pay) : p < 32 :=
  List.mem_range.mp (List.mem_filter.mp (List.mem_filter.mp h).1).1

theorem midiCommit_some {i : Nat} {kind : Task → Bool} {t : Task} {d : Dev} (f : List Byte → Nat → Dev → Dev)
    (h : commits d i kind = some t) :
    midiCommit i kind f d = finishTask t 0 (forTask none
      (forEach (heardBy (deferredFirst d) t.payload) (f t.payload) (heardFrom t (deferredFirst d)))) := commitWith_some _ h

/-- An effect that keeps to the record of its part finds each part's record as it was before the commit, and leaves it as the commit
does. -/
theorem midiCommit_record {i p : Nat} {kind : Task → Bool} {t : Task} {d : Dev} {f : List Byte → Nat → Dev → Dev}
    (hf : ∀ q e, StoreKept (OutsideRecord q) e (f t.payload q e)) (h : commits d i kind = some t)
    (hp : p ∈ heardBy (deferredFirst d) t.payload) :
    ∃ e, StoreKept (InRecord p) (deferredFirst d) e ∧ StoreKept (InRecord p) (f t.payload p e) (midiCommit i kind f d) := by
  obtain ⟨e, hbefore, hafter⟩ := forEach_split (R := StoreKept (InRecord p)) StoreKept.refl StoreKept.trans (heardBy_nodup _ _) hp
    (f t.payload) (fun q hq e => (hf q e).mono fun _ => inRecord_outside (heardBy_lt hp) hq) (heardFrom t (deferredFirst d))
  refine ⟨e, .trans (.of_eq (by simp [heardFrom]) (by simp [heardFrom])) hbefore, hafter.trans ?_⟩
  rw [midiCommit_some f h]
  exact .of_eq (by simp) (by simp)

/-! ### The controller table (R168) -/

theorem ccValue_lt (pay : List Byte) : ccValue pay < 128 := by
  unfold ccValue
  split <;> exact Nat.mod_lt _ (by decide)

theorem ccStore_outside {pay : List Byte} (p : Nat) (d : Dev) (h : pay8 pay 2 < 128) :
    StoreKept (OutsideRecord p) d (ccStore pay p d) := partV_outside _ _ _ _ (by simp; omega)

/-- One byte of a part's controller state changed. -/
theorem ps8_partV_byte {d : Dev} {p k : Nat} (off v : Nat) (hp : p < 32) (hk : k < 256) (hc : RecordClear d p) :
    (partV p off (leBytes 1 v) d).ps8 (partRec p + k) = if k = off then v % 256 else d.ps8 (partRec p + k) := by
  rw [ps8_partV off _ hp hk hc, leBytes_length]
  by_cases h : k = off
  · subst h
    rw [if_pos (by omega), if_pos rfl, Nat.sub_self, leBytes_getD _ _ _ (by decide), Nat.pow_zero, Nat.div_one, BitVec.toNat_ofNat]
  · rw [if_neg (by omega), if_neg h]

theorem ps8_ccStore {pay : List Byte} {d : Dev} {p k : Nat} (hp : p < 32) (hk : k < 256) (hc : RecordClear d p) :
    (ccStore pay p d).ps8 (partRec p + k) = if k = 0x40 + pay8 pay 2 then ccValue pay else d.ps8 (partRec p + k) := by
  rw [ccStore, ps8_partV_byte _ _ hp hk hc, Nat.mod_eq_of_lt (by have := ccValue_lt pay; omega)]

/-- Two bytes of a part's controller state changed. -/
theorem ps16_partV_half {d : Dev} {p off : Nat} (v : Nat) (hp : p < 32) (hk : off < 255) (hv : v < 65536) (hc : RecordClear d p) :
    (partV p off (leBytes 2 v) d).ps16 (partRec p + off) = v := by
  rw [Dev.ps16, Nat.add_assoc, ps8_partV _ _ hp (by omega) hc, ps8_partV _ _ hp (by omega) hc, if_pos (by simp), if_pos (by simp),
    Nat.sub_self, Nat.add_sub_cancel_left, leBytes_getD _ _ _ (by decide), leBytes_getD _ _ _ (by decide)]
  simp
  omega

/-! ### Pedals (R169) -/

/-- The addresses below the voice state blocks but for part p's PEDALS. -/
def ButPedals (p a : Nat) : Prop := BelowBlocks a ∧ a ≠ partRec p + 0x23

theorem putPedals_store (p v : Nat) (d : Dev) : StoreKept (ButPedals p) d (putPedals p v d) :=
  partV_store _ _ _ _ fun b hb => by simp only [ButPedals, leBytes_length] at *; omega

theorem StoreKept.butPedals {p : Nat} {d e : Dev} (h : StoreKept BelowBlocks d e) : StoreKept (ButPedals p) d e :=
  h.mono fun _ ha => ha.1

theorem letGo_loop_below (l : List Nat) (d : Dev) : StoreKept BelowBlocks d (forEach l letGo d) := .forEach l letGo letGo_below d

/-- What the sostenuto pedal's fall does to a voice that it held (R169). -/
theorem sostenutoDrop_below (v : Nat) (d : Dev) :
    StoreKept BelowBlocks d (if ((setVoice v (fun x => { x with sostenuto := false }) d).voice v).gotOff then
      letGo v (setVoice v (fun x => { x with sostenuto := false }) d) else setVoice v (fun x => { x with sostenuto := false }) d) :=
  (setVoice_below v (fun x => { x with sostenuto := false }) d).trans (.ite (letGo_below v _) (.refl _))

/-- What the sustain pedal's move does below the voices' blocks: PEDALS alone changes. -/
theorem sustainTo_moves {d : Dev} {p : Nat} {down : Bool} (h : (pedalBits d p).testBit 0 ≠ down) :
    StoreKept BelowBlocks (putPedals p (if down then pedalBits d p + 1 else pedalBits d p - 1) d) (sustainTo p down d) := by
  unfold sustainTo
  rw [if_neg h]
  exact .ite (.refl _) (letGo_loop_below _ _)

/-- What the sostenuto pedal's move does below the voices' blocks: PEDALS alone changes. -/
theorem sostenutoTo_moves {d : Dev} {p : Nat} {down : Bool} (h : (pedalBits d p).testBit 1 ≠ down) :
    StoreKept BelowBlocks (putPedals p (if down then pedalBits d p + 2 else pedalBits d p - 2) d) (sostenutoTo p down d) := by
  unfold sostenutoTo
  rw [if_neg h]
  exact .ite (.forEach _ _ (fun v e => setVoice_below v _ e) _) (.forEach _ _ sostenutoDrop_below _)

theorem sustainTo_rests {d : Dev} {p : Nat} {down : Bool} (h : (pedalBits d p).testBit 0 = down) : sustainTo p down d = d := if_pos h

theorem sostenutoTo_rests {d : Dev} {p : Nat} {down : Bool} (h : (pedalBits d p).testBit 1 = down) : sostenutoTo p down d = d := if_pos h

theorem sustainTo_store (p : Nat) (down : Bool) (d : Dev) : StoreKept (ButPedals p) d (sustainTo p down d) := by
  by_cases h : (pedalBits d p).testBit 0 = down
  · rw [sustainTo_rests h]
    exact .refl d
  · exact (putPedals_store p _ d).trans (sustainTo_moves h).butPedals

theorem sostenutoTo_store (p : Nat) (down : Bool) (d : Dev) : StoreKept (ButPedals p) d (sostenutoTo p down d) := by
  by_cases h : (pedalBits d p).testBit 1 = down
  · rw [sostenutoTo_rests h]
    exact .refl d
  · exact (putPedals_store p _ d).trans (sostenutoTo_moves h).butPedals

theorem pedalBits_putPedals {d : Dev} {p : Nat} (v : Nat) (hp : p < 32) (hc : RecordClear d p) :
    pedalBits (putPedals p v d) p = v % 256 :=
  (ps8_partV_byte _ v hp (by decide) hc).trans (if_pos rfl)

theorem pedalBits_of_below {d e : Dev} {p : Nat} (hp : p < 32) (h : StoreKept BelowBlocks d e) : pedalBits e p = pedalBits d p :=
  h.bytes _ (inRecord_below hp ⟨by omega, by omega⟩)

theorem testBit_one (b : Nat) : b.testBit 1 = decide (b / 2 % 2 = 1) := by
  rw [Nat.testBit_succ, Nat.testBit_zero]

theorem pedalBits_lt (d : Dev) (p : Nat) : pedalBits d p < 256 := (cellGet psDflt d.mem.pstore _).isLt

/-- The sustain pedal moves bit 0 of PEDALS. -/
theorem sustainTo_bit {d : Dev} {p : Nat} (down : Bool) (hp : p < 32) (hc : RecordClear d p) :
    (pedalBits (sustainTo p down d) p).testBit 0 = down := by
  by_cases h : (pedalBits d p).testBit 0 = down
  · rwa [sustainTo_rests h]
  · have hlt := pedalBits_lt d p
    rw [pedalBits_of_below hp (sustainTo_moves h), pedalBits_putPedals _ hp hc]
    rw [Nat.testBit_zero] at *
    cases down <;> simp at h ⊢ <;> omega

/-- The sostenuto pedal moves bit 1 of PEDALS, and bit 0 stays. -/
theorem sostenutoTo_bits {d : Dev} {p : Nat} (down : Bool) (hp : p < 32) (hc : RecordClear d p) :
    (pedalBits (sostenutoTo p down d) p).testBit 1 = down ∧
      (pedalBits (sostenutoTo p down d) p).testBit 0 = (pedalBits d p).testBit 0 := by
  by_cases h : (pedalBits d p).testBit 1 = down
  · rw [sostenutoTo_rests h]
    exact ⟨h, rfl⟩
  · have hlt := pedalBits_lt d p
    rw [pedalBits_of_below hp (sostenutoTo_moves h), pedalBits_putPedals _ hp hc]
    simp only [Nat.testBit_zero, testBit_one] at *
    cases down <;> simp at h ⊢ <;> omega

/-! ### Each controller in one part -/

/-- A byte of part p's record but for PEDALS stays where the pedals alone move. -/
theorem inRecord_butPedals {p k : Nat} (hp : p < 32) (hk : k < 256) (h : k ≠ 0x23) : ButPedals p (partRec p + k) :=
  ⟨inRecord_below hp ⟨by omega, by omega⟩, by omega⟩

theorem outside_butPedals {p a : Nat} (h : OutsideRecord p a) : ButPedals p a :=
  ⟨h.1, fun e => h.2 (by rw [e]; exact ⟨by omega, by omega⟩)⟩

theorem StoreKept.outside {p : Nat} {d e : Dev} (h : StoreKept BelowBlocks d e) : StoreKept (OutsideRecord p) d e :=
  h.mono fun _ ha => ha.1

theorem RecordClear.partV {p off : Nat} {bs : List Byte} {d : Dev} (hc : RecordClear d p) : RecordClear (partV p off bs d) p :=
  hc.of_kept (partV_store (P := fun _ => False) p off bs d fun _ h => h.elim)

theorem RecordClear.ccStore {p : Nat} {pay : List Byte} {d : Dev} (hc : RecordClear d p) : RecordClear (ccStore pay p d) p := hc.partV

theorem ccPart_outside {pay : List Byte} (p : Nat) (d : Dev) (h : pay8 pay 2 < 128) : StoreKept (OutsideRecord p) d (ccPart pay p d) :=
  (ccStore_outside p d h).trans (.ite (StoreKept.forEach _ _ (fun v e => noteV_below v _ _ e) _).outside (.refl _))

/-- A controller's value in the part's table (R168). -/
theorem ccPart_table {pay : List Byte} {p : Nat} {d : Dev} (hp : p < 32) (h : pay8 pay 2 < 128) (hc : RecordClear d p) :
    (ccPart pay p d).ps8 (ccAt p (pay8 pay 2)) = ccValue pay := by
  have hstore : StoreKept BelowBlocks (ccStore pay p d) (ccPart pay p d) :=
    .ite (.forEach _ _ (fun v e => noteV_below v _ _ e) _) (.refl _)
  rw [ccAt, Nat.add_assoc, hstore.bytes _ (inRecord_below hp ⟨by omega, by omega⟩), ps8_ccStore hp (by omega) hc, if_pos rfl]

theorem bankPart_outside {pay : List Byte} (p : Nat) (d : Dev) (h : pay8 pay 2 < 128) :
    StoreKept (OutsideRecord p) d (bankPart pay p d) :=
  (ccStore_outside p d h).trans (partV_outside _ _ _ _ (by simp))

/-- BANK takes its half from CC0 or CC32 (R169). -/
theorem bankPart_record {pay : List Byte} {p : Nat} {d : Dev} (hp : p < 32) (h : pay8 pay 2 < 128) (hc : RecordClear d p) :
    (bankPart pay p d).ps8 (ccAt p (pay8 pay 2)) = ccValue pay ∧ (bankPart pay p d).ps16 (partRec p + 0x24) =
      if pay8 pay 2 = 0 then ccValue pay * 128 + d.ps16 (partRec p + 0x24) % 128
      else d.ps16 (partRec p + 0x24) / 128 % 128 * 128 + ccValue pay := by
  have hv := ccValue_lt pay
  have hbank : (ccStore pay p d).ps16 (partRec p + 0x24) = d.ps16 (partRec p + 0x24) := by
    rw [Dev.ps16, Dev.ps16, Nat.add_assoc, ps8_ccStore hp (by decide) hc, ps8_ccStore hp (by decide) hc, if_neg (by omega), if_neg (by omega)]
  constructor
  · rw [bankPart, ccAt, Nat.add_assoc, ps8_partV _ _ hp (by omega) hc.ccStore, leBytes_length, if_neg (by omega),
      ps8_ccStore hp (by omega) hc, if_pos rfl]
  · rw [bankPart, ps16_partV_half _ hp (by decide) (by split <;> omega) hc.ccStore, hbank]

/-- A pedal's controller in one part: stored, and with SUSTAIN_EN the pedal moves. -/
def pedalPart (move : Nat → Bool → Dev → Dev) (pay : List Byte) (p : Nat) (d : Dev) : Dev :=
  if (readPart (ccStore pay p d) p).sustainEn then move p (decide (64 ≤ ccValue pay)) (ccStore pay p d) else ccStore pay p d

theorem sustainPart_eq : sustainPart = pedalPart sustainTo := rfl

theorem sostenutoPart_eq : sostenutoPart = pedalPart sostenutoTo := rfl

theorem pedalPart_outside {move : Nat → Bool → Dev → Dev} (hmove : ∀ p down d, StoreKept (ButPedals p) d (move p down d))
    {pay : List Byte} (p : Nat) (d : Dev) (h : pay8 pay 2 < 128) : StoreKept (OutsideRecord p) d (pedalPart move pay p d) :=
  (ccStore_outside p d h).trans (.ite ((hmove p _ _).mono fun _ => outside_butPedals) (.refl _))

/-- The table takes the value, and with SUSTAIN_EN the pedal's bit is whether it is 64 or more (R169). -/
theorem pedalPart_record {move : Nat → Bool → Dev → Dev} {bit : Nat} (hmove : ∀ p down d, StoreKept (ButPedals p) d (move p down d))
    {pay : List Byte} {p : Nat} {d : Dev} (hp : p < 32) (h : pay8 pay 2 < 128) (hc : RecordClear d p)
    (hbit : ∀ down e, RecordClear e p → (pedalBits (move p down e) p).testBit bit = down) :
    (pedalPart move pay p d).ps8 (ccAt p (pay8 pay 2)) = ccValue pay ∧
      ((readPart d p).sustainEn = true → (pedalBits (pedalPart move pay p d) p).testBit bit = decide (64 ≤ ccValue pay)) ∧
      ((readPart d p).sustainEn = false → pedalBits (pedalPart move pay p d) p = pedalBits d p) := by
  have hen : (readPart (ccStore pay p d) p).sustainEn = (readPart d p).sustainEn :=
    congrArg (Nat.testBit · 3) ((ps8_ccStore (k := 0) hp (by decide) hc).trans (if_neg (by omega)))
  have htable : (ccStore pay p d).ps8 (ccAt p (pay8 pay 2)) = ccValue pay := by
    rw [ccAt, Nat.add_assoc, ps8_ccStore hp (by omega) hc, if_pos rfl]
  unfold pedalPart
  rw [hen]
  cases (readPart d p).sustainEn with
  | true =>
    rw [if_pos rfl]
    refine ⟨?_, fun _ => hbit _ _ hc.ccStore, fun hno => absurd hno (by decide)⟩
    rw [(hmove p _ _).bytes _ (by rw [ccAt, Nat.add_assoc]; exact inRecord_butPedals hp (by omega) (by omega)), htable]
  | false =>
    rw [if_neg (by decide)]
    exact ⟨htable, fun hyes => absurd hyes (by decide), fun _ => (ps8_ccStore hp (by decide) hc).trans (if_neg (by omega))⟩

/-- CC121 in one part up to the pedals: the table, BEND and PRESSURE, and the voices' own values (R169). -/
def resetValues (pay : List Byte) (p : Nat) (d : Dev) : Dev :=
  let e := partV p 0x22 (leBytes 1 0) (partV p 0x20 (leBytes 2 8192) (ccStore pay p d))
  forEach (partVoices e p) (fun v d => noteV v 0x40 (leBytes 2 8192 ++ leBytes 1 0 ++ leBytes 1 0) d) e

theorem resetPart_eq (pay : List Byte) (p : Nat) (d : Dev) :
    resetPart pay p d = sostenutoTo p false (sustainTo p false (resetValues pay p d)) := rfl

theorem resetValues_below (pay : List Byte) (p : Nat) (d : Dev) :
    StoreKept BelowBlocks (partV p 0x22 (leBytes 1 0) (partV p 0x20 (leBytes 2 8192) (ccStore pay p d))) (resetValues pay p d) :=
  .forEach _ _ (fun v e => noteV_below v _ _ e) _

theorem resetPedals_store (p : Nat) (d : Dev) : StoreKept (ButPedals p) d (sostenutoTo p false (sustainTo p false d)) :=
  (sustainTo_store p false d).trans (sostenutoTo_store p false _)

theorem resetPart_outside {pay : List Byte} (p : Nat) (d : Dev) (h : pay8 pay 2 < 128) :
    StoreKept (OutsideRecord p) d (resetPart pay p d) :=
  (((ccStore_outside p d h).trans (partV_outside _ 0x20 _ _ (by simp))).trans (partV_outside _ 0x22 _ _ (by simp))).trans
    ((resetValues_below pay p d).outside.trans ((resetPedals_store p _).mono fun _ => outside_butPedals))

/-- CC121 puts bend, pressure and pedals back (R169). -/
theorem resetPart_record {pay : List Byte} {p : Nat} {d : Dev} (hp : p < 32) (h : pay8 pay 2 < 128) (hc : RecordClear d p) :
    (resetPart pay p d).ps8 (ccAt p (pay8 pay 2)) = ccValue pay ∧ (resetPart pay p d).ps16 (partRec p + 0x20) = 8192 ∧
      (resetPart pay p d).ps8 (partRec p + 0x22) = 0 ∧ (pedalBits (resetPart pay p d) p).testBit 0 = false ∧
      (pedalBits (resetPart pay p d) p).testBit 1 = false := by
  have hbend : RecordClear (partV p 0x20 (leBytes 2 8192) (ccStore pay p d)) p := hc.ccStore.partV
  have hvalues : RecordClear (resetValues pay p d) p := hbend.partV.of_kept (resetValues_below pay p d)
  have hbyte (k : Nat) (hk : k < 256) (hped : k ≠ 0x23) : (resetPart pay p d).ps8 (partRec p + k) =
      if k = 0x22 then 0 else (partV p 0x20 (leBytes 2 8192) (ccStore pay p d)).ps8 (partRec p + k) := by
    rw [resetPart_eq, (resetPedals_store p _).bytes _ (inRecord_butPedals hp hk hped),
      (resetValues_below pay p d).bytes _ (inRecord_below hp ⟨by omega, by omega⟩), ps8_partV_byte _ _ hp hk hbend]
  obtain ⟨hone, hzero⟩ := sostenutoTo_bits false hp (hvalues.of_kept (sustainTo_store p false _))
  refine ⟨?_, ?_, (hbyte 0x22 (by decide) (by decide)).trans (if_pos rfl), hzero.trans (sustainTo_bit false hp hvalues), hone⟩
  · rw [ccAt, Nat.add_assoc, hbyte _ (by omega) (by omega), if_neg (by omega), ps8_partV _ _ hp (by omega) hc.ccStore, leBytes_length,
      if_neg (by omega), ps8_ccStore hp (by omega) hc, if_pos rfl]
  · have hhalf := ps16_partV_half (off := 0x20) 8192 hp (by decide) (by decide) (hc.ccStore (pay := pay))
    rw [Dev.ps16, Nat.add_assoc] at hhalf ⊢
    rwa [hbyte 0x20 (by decide) (by decide), hbyte (0x20 + 1) (by decide) (by decide), if_neg (by decide), if_neg (by decide)]

/-! ### The statement -/

theorem isCc_number {ns : List Nat} {t : Task} (h : isCc ns t = true) : pay8 t.payload 2 ∈ ns := by
  simpa using (Bool.and_eq_true_iff.mp h).2

theorem commits_kind {d : Dev} {i : Nat} {kind : Task → Bool} {t : Task} (h : commits d i kind = some t) : kind t = true := by
  unfold commits at h
  split at h
  · split at h
    · split at h
      next hk => cases h; exact hk.2
      next => cases h
    · cases h
  · cases h

theorem ccAt_inRecord (p : Nat) {n : Nat} (h : n < 128) : InRecord p (ccAt p n) := by
  simp only [InRecord, ccAt]
  omega

theorem StoreKept.ps16_inRecord {p k : Nat} {d e : Dev} (h : StoreKept (InRecord p) d e) (hk : k < 255) :
    e.ps16 (partRec p + k) = d.ps16 (partRec p + k) := by
  rw [Dev.ps16, Dev.ps16, h.bytes _ ⟨by omega, by omega⟩, h.bytes _ ⟨by omega, by omega⟩]

theorem StoreKept.pedalBits {p : Nat} {d e : Dev} (h : StoreKept (InRecord p) d e) : pedalBits e p = pedalBits d p :=
  h.bytes _ ⟨by omega, by omega⟩

/-- A pedal's controller, in the terms of the statement: what its commit does to the record of a part that it matches. -/
theorem pedalCommit_record {move : Nat → Bool → Dev → Dev} {bit i p : Nat} {kind : Task → Bool} {t : Task} {d : Dev}
    (hmove : ∀ p down d, StoreKept (ButPedals p) d (move p down d)) (hn : pay8 t.payload 2 < 128) (h : commits d i kind = some t)
    (hp : p ∈ heardBy (deferredFirst d) t.payload) (hc : RecordClear (deferredFirst d) p)
    (hbit : ∀ down e, RecordClear e p → (pedalBits (move p down e) p).testBit bit = down) :
    (midiCommit i kind (pedalPart move) d).ps8 (ccAt p (pay8 t.payload 2)) = ccValue t.payload ∧
      ((readPart (deferredFirst d) p).sustainEn = true →
        (pedalBits (midiCommit i kind (pedalPart move) d) p).testBit bit = decide (64 ≤ ccValue t.payload)) ∧
      ((readPart (deferredFirst d) p).sustainEn = false →
        pedalBits (midiCommit i kind (pedalPart move) d) p = pedalBits (deferredFirst d) p) := by
  obtain ⟨e, hbefore, hafter⟩ := midiCommit_record (f := pedalPart move) (fun q e => pedalPart_outside hmove q e hn) h hp
  obtain ⟨htable, hdown, hrest⟩ := pedalPart_record hmove (heardBy_lt hp) hn (hc.of_kept hbefore) hbit
  rw [readPart_of_kept hbefore, hbefore.pedalBits] at hrest
  rw [readPart_of_kept hbefore] at hdown
  rw [hafter.pedalBits]
  exact ⟨(hafter.bytes _ (ccAt_inRecord p hn)).trans htable, hdown, hrest⟩

/-- Settles O19: each controller's commit finds the record of each part that it matches as it was, and changes it as its own effect in
one part does. -/
theorem controllersReachPartRecords : Obligations.ControllersReachPartRecords := by
  unfold Obligations.ControllersReachPartRecords
  intro clear parts
  have honly {k : Nat} {t : Task} (h : isCc [k] t = true) : pay8 t.payload 2 = k := by simpa using isCc_number h
  refine ⟨?cc, ?bank, ?sustain, ?sostenuto, ?reset⟩
  case cc =>
    rintro s e i t rfl h hn
    refine (yields_devNext _ rfl).mpr fun p hp hclear => ?_
    obtain ⟨e, hbefore, hafter⟩ := midiCommit_record (f := ccPart) (fun q e => ccPart_outside q e hn) h hp
    exact (hafter.bytes _ (ccAt_inRecord p hn)).trans (ccPart_table (heardBy_lt hp) hn (RecordClear.of_kept hclear hbefore))
  case bank =>
    rintro s e i t rfl h
    refine (yields_devNext _ rfl).mpr fun p hp hclear => ?_
    have hnum : pay8 t.payload 2 = 0 ∨ pay8 t.payload 2 = 32 := by simpa using isCc_number (commits_kind h)
    have hn : pay8 t.payload 2 < 128 := by omega
    obtain ⟨e, hbefore, hafter⟩ := midiCommit_record (f := bankPart) (fun q e => bankPart_outside q e hn) h hp
    obtain ⟨htable, hbank⟩ := bankPart_record (heardBy_lt hp) hn (RecordClear.of_kept hclear hbefore)
    rw [hbefore.ps16_inRecord (by decide), ← hafter.ps16_inRecord (by decide)] at hbank
    exact ⟨(hafter.bytes _ (ccAt_inRecord p hn)).trans htable, fun hlow => hbank.trans (if_pos hlow),
      fun hhigh => hbank.trans (if_neg (by omega))⟩
  case sustain =>
    rintro s e i t rfl h
    refine (yields_devNext _ rfl).mpr fun p hp hclear => ?_
    have hn := honly (commits_kind h)
    have hrec := pedalCommit_record sustainTo_store (by omega) h hp hclear fun down e he => sustainTo_bit down (heardBy_lt hp) he
    rwa [hn, ← sustainPart_eq] at hrec
  case sostenuto =>
    rintro s e i t rfl h
    refine (yields_devNext _ rfl).mpr fun p hp hclear => ?_
    have hn := honly (commits_kind h)
    have hrec := pedalCommit_record sostenutoTo_store (by omega) h hp hclear fun down e he => (sostenutoTo_bits down (heardBy_lt hp) he).1
    rwa [hn, ← sostenutoPart_eq] at hrec
  case reset =>
    rintro s e i t rfl h
    refine (yields_devNext _ rfl).mpr fun p hp hclear => ?_
    have hn := honly (commits_kind h)
    have hlt : pay8 t.payload 2 < 128 := by omega
    obtain ⟨e, hbefore, hafter⟩ := midiCommit_record (f := resetPart) (fun q e => resetPart_outside q e hlt) h hp
    obtain ⟨htable, hbend, hpress, hzero, hone⟩ := resetPart_record (heardBy_lt hp) hlt (RecordClear.of_kept hclear hbefore)
    rw [← hafter.pedalBits] at hzero hone
    rw [hn] at htable
    exact ⟨(hafter.bytes _ (ccAt_inRecord p (by decide))).trans htable, (hafter.ps16_inRecord (by decide)).trans hbend,
      (hafter.bytes _ ⟨by omega, by omega⟩).trans hpress, hzero, hone⟩

end Sys2Proof.Machine
end

section
/-! SUPPORT. What the Parlour's operations do to the voices, and what they leave of the part records and the device's place in a chain
(R165 to R169, R179). -/

namespace Sys2Proof.Machine

open Sys2Proof

/-! ### Voices -/

theorem Dev.voice_of_par {d e : Dev} (h : e.par = d.par) (v : Nat) : e.voice v = d.voice v := by
  rw [Dev.voice, h, Dev.voice]

theorem Dev.voice_modVoice_same {d : Dev} {v : Nat} (f : Voice → Voice) (h : v < d.par.voices.length) :
    (d.modVoice v f).voice v = f (d.voice v) := (at_upd _ _ _ _ _ h).trans (if_pos rfl)

theorem Dev.voice_modVoice_ne (d : Dev) {v w : Nat} (f : Voice → Voice) (h : w ≠ v) : (d.modVoice v f).voice w = d.voice w :=
  at_upd_ne _ _ _ h

theorem voice_of_modVoice {d e : Dev} {v : Nat} {f : Voice → Voice} (h : e.par = (d.modVoice v f).par) (hv : v < d.par.voices.length) :
    e.voice v = f (d.voice v) := (Dev.voice_of_par h v).trans (Dev.voice_modVoice_same f hv)

/-- A voice enters RELEASING, of this device's slots or of a worker's. -/
theorem toReleasing_voices (v : Nat) (d : Dev) : (toReleasing v d).par = (d.modVoice v (fun y => { y with state := .releasing })).par := by
  unfold toReleasing
  dsimp only
  split <;> simp [setVoice_par]

theorem toStealing_voices (v fade : Nat) (d : Dev) : (toStealing v fade d).par =
    (d.modVoice v (fun y => { y with state := .stealing, fadeAt := d.now, fadeLen := fadeEf d.fb fade })).par := by
  unfold toStealing
  dsimp only
  split <;> simp [setVoice_par]

theorem toQuench_voices {v : Nat} {d : Dev} (h : (d.voice v).state ≠ .quench) :
    (toQuench v d).par = (d.modVoice v (fun y => { y with state := .quench, quenchAt := d.now })).par := by
  unfold toQuench
  rw [if_neg h]
  dsimp only
  split <;> simp [setVoice_par]

/-- Of the voices, only that of slot v changes. -/
structure VoiceOnly (v : Nat) (d e : Dev) : Prop where
  others : ∀ w, w ≠ v → e.voice w = d.voice w
  slots : e.par.voices.length = d.par.voices.length

namespace VoiceOnly

theorem refl (v : Nat) (d : Dev) : VoiceOnly v d d := ⟨fun _ _ => rfl, rfl⟩

theorem ite {v : Nat} {c : Prop} [Decidable c] {d e f : Dev} (h : VoiceOnly v d e) (k : VoiceOnly v d f) :
    VoiceOnly v d (if c then e else f) := by
  split <;> assumption

theorem of_par {v : Nat} {d e : Dev} {f : Voice → Voice} (h : e.par = (d.modVoice v f).par) : VoiceOnly v d e :=
  ⟨fun w hw => (Dev.voice_of_par h w).trans (d.voice_modVoice_ne f hw), by rw [h]; exact upd_length ..⟩

end VoiceOnly

theorem setVoice_only (v : Nat) (f : Voice → Voice) (d : Dev) : VoiceOnly v d (setVoice v f d) := .of_par (setVoice_par v f d)

theorem toReleasing_only (v : Nat) (d : Dev) : VoiceOnly v d (toReleasing v d) := .of_par (toReleasing_voices v d)

theorem toStealing_only (v fade : Nat) (d : Dev) : VoiceOnly v d (toStealing v fade d) := .of_par (toStealing_voices v fade d)

theorem toQuench_only (v : Nat) (d : Dev) : VoiceOnly v d (toQuench v d) := by
  by_cases h : (d.voice v).state = .quench
  · rw [toQuench, if_pos h]
    exact .refl v d
  · exact .of_par (toQuench_voices h)

theorem offVoice_only (v : Nat) (d : Dev) : VoiceOnly v d (offVoice v d) :=
  .ite (setVoice_only v _ d) (.ite (.ite (setVoice_only v _ d) (.ite (setVoice_only v _ d) (toReleasing_only v d))) (.refl v d))

theorem toStealing_below (v fade : Nat) (d : Dev) : StoreKept BelowBlocks d (toStealing v fade d) :=
  (setVoice_below v _ d).trans (.ite (.refl _) (emitDir_store _ _))

theorem toQuench_below (v : Nat) (d : Dev) : StoreKept BelowBlocks d (toQuench v d) :=
  .ite (.refl d) ((setVoice_below v _ d).trans (.ite (.of_eq (by simp) (by simp)) (emitDir_store _ _)))

/-- The voice of slot v, and what the pedals of its part are read from, are as before. -/
structure VoiceKept (v : Nat) (d e : Dev) : Prop where
  voice : e.voice v = d.voice v
  slots : e.par.voices.length = d.par.voices.length
  store : StoreKept BelowBlocks d e

namespace VoiceKept

theorem refl (v : Nat) (d : Dev) : VoiceKept v d d := ⟨rfl, rfl, .refl d⟩

theorem trans {v : Nat} {d e f : Dev} (h : VoiceKept v d e) (k : VoiceKept v e f) : VoiceKept v d f :=
  ⟨k.voice.trans h.voice, k.slots.trans h.slots, h.store.trans k.store⟩

theorem of_only {v u : Nat} {d e : Dev} (hvu : u ≠ v) (h : VoiceOnly u d e) (hb : StoreKept BelowBlocks d e) : VoiceKept v d e :=
  ⟨h.others v (Ne.symm hvu), h.slots, hb⟩

end VoiceKept

/-! ### A note-off at a voice (R168) -/

theorem offVoice_releases {v : Nat} {d : Dev} (hst : (d.voice v).state = .sounding) (hped : pedals d (d.voice v).part = (false, false)) :
    offVoice v d = toReleasing v d := by
  unfold offVoice
  dsimp only
  rw [hst, hped]
  simp

theorem offVoice_arming {v : Nat} {d : Dev} (hst : (d.voice v).state = .arming) :
    offVoice v d = setVoice v (fun x => { x with offPending := true }) d := by
  unfold offVoice
  exact if_pos hst

theorem pedals_of_below {d e : Dev} {p : Nat} (hp : p < 32) (h : StoreKept BelowBlocks d e) : pedals e p = pedals d p :=
  pedals_of_kept (h.mono fun _ => inRecord_below hp)

/-! ### The master of a chain (R528) -/

theorem Dev.isMaster_of {d e : Dev} (hen : e.cas.en = d.cas.en) (hcfg : e.cas.cfg = d.cas.cfg)
    (hstrap : e.reg Reg.GLB_STRAP = d.reg Reg.GLB_STRAP) : e.isMaster = d.isMaster := by
  rw [Dev.isMaster, Dev.inChain, Dev.chainLen, Dev.chainPos, Dev.fld, hen, hcfg, hstrap, Dev.isMaster, Dev.inChain, Dev.chainLen,
    Dev.chainPos, Dev.fld]

theorem collideV_regs_only (ws : List Nat) (d : Dev) :
    RegsOnly [Reg.GLB_PS_COLLIDE, Reg.GLB_CNT_PS_COLLIDE] d (collideV ws d) := by
  refine .ite (.refl _ d) ?_
  have hcollide (e : Dev) (off : Nat) : RegsOnly [Reg.GLB_PS_COLLIDE, Reg.GLB_CNT_PS_COLLIDE] e (collide off e) := by
    have hput : RegsOnly [Reg.GLB_PS_COLLIDE, Reg.GLB_CNT_PS_COLLIDE] e (e.putReg Reg.GLB_PS_COLLIDE (BitVec.ofNat 32 (2 ^ 31 + off))) :=
      fun a ha => Dev.reg_putReg_ne _ _ _ _ fun h => ha (h ▸ List.mem_cons_self)
    exact (hput.trans (.bump _ (a := Reg.GLB_CNT_PS_COLLIDE) (by decide))).tail rfl
  exact (RegsOnly.foldl hcollide _ d).tail rfl

theorem Dev.isMaster_psV (d : Dev) (a : Nat) (bs : List Byte) : (d.psV a bs).isMaster = d.isMaster :=
  Dev.isMaster_of (by simp) (by simp)
    (collideV_regs_only (wordsOf a bs.length) (d.psRaw a (if d.port.hwords.isEmpty then bs else d.underH a bs)) _ (by decide))

theorem emitDir_isMaster (bs : List Byte) (d : Dev) : (emitDir bs d).isMaster = d.isMaster := by
  unfold emitDir
  split
  · rfl
  · dsimp only
    split
    · rfl
    · refine Dev.isMaster_of (by simp [Dev.modCas]) (by simp [Dev.modCas]) ?_
      rw [Dev.reg_setIrq_ne _ _ _ _ _ (by decide), Dev.reg_bump_ne _ _ _ (by decide)]
      rfl

theorem partV_isMaster (p off : Nat) (bs : List Byte) (d : Dev) : (partV p off bs d).isMaster = d.isMaster :=
  (emitDir_isMaster _ _).trans (d.isMaster_psV _ _)

theorem countNoPart_isMaster (n : Nat) (d : Dev) : (countNoPart n d).isMaster = d.isMaster := by
  unfold countNoPart
  split
  · rfl
  · exact Dev.isMaster_of rfl rfl (Dev.reg_bumpBy_ne _ _ _ _ (by decide))

/-- The voices of a part are read from the slots and from whether the device is a master. -/
theorem mem_partVoices {d : Dev} {p v : Nat} :
    v ∈ partVoices d p ↔ v < slotCount d ∧ (d.voice v).pool = false ∧ (d.voice v).state ≠ .free ∧ (d.voice v).part = p := by
  simp [partVoices, slotsWhere]

theorem partVoices_of {d e : Dev} (hvoice : ∀ w, e.voice w = d.voice w) (hmaster : e.isMaster = d.isMaster) (p : Nat) :
    partVoices e p = partVoices d p := by
  simp only [partVoices, slotsWhere, slotCount, hvoice, hmaster]

theorem slotsWhere_nodup (d : Dev) (f : Nat → Voice → Bool) : (slotsWhere d f).Nodup := List.nodup_range.filter _

theorem partVoices_nodup (d : Dev) (p : Nat) : (partVoices d p).Nodup := slotsWhere_nodup d _

end Sys2Proof.Machine
end

section
/-! PROOF. Note-offs, sound-offs, notes-offs and kills at the voices of a part (R164, R168, R169, R179). -/

namespace Sys2Proof.Machine

open Sys2Proof

/-! ### The device on which a task takes effect -/

theorem heardFrom_par (t : Task) (e : Dev) : (heardFrom t e).par = e.par := by simp [heardFrom]

theorem heardFrom_voice (t : Task) (e : Dev) (v : Nat) : (heardFrom t e).voice v = e.voice v := Dev.voice_of_par (heardFrom_par t e) v

theorem heardFrom_store {P : Nat → Prop} (t : Task) (e : Dev) : StoreKept P e (heardFrom t e) := .of_eq (by simp [heardFrom]) (by simp [heardFrom])

theorem heardFrom_isMaster (t : Task) (e : Dev) : (heardFrom t e).isMaster = e.isMaster := countNoPart_isMaster _ _

theorem heardFrom_partVoices (t : Task) (e : Dev) (p : Nat) : partVoices (heardFrom t e) p = partVoices e p :=
  partVoices_of (heardFrom_voice t e) (heardFrom_isMaster t e) p

/-- Voices after the commit of a MIDI task that matches one part are those after its effect there. -/
theorem midiCommit_voice {i p : Nat} {kind : Task → Bool} {t : Task} {d : Dev} (f : List Byte → Nat → Dev → Dev)
    (h : commits d i kind = some t) (hp : heardBy (deferredFirst d) t.payload = [p]) (v : Nat) :
    (midiCommit i kind f d).voice v = (f t.payload p (heardFrom t (deferredFirst d))).voice v := by
  rw [midiCommit_some f h, hp]
  exact Dev.voice_of_par (by simp [forEach]) v

theorem heardBy_one {e : Dev} {pay : List Byte} {p : Nat} (h : heardBy e pay = [p]) : p < 32 := heardBy_lt (h ▸ List.mem_singleton_self p)

theorem ccStore_voice (pay : List Byte) (p : Nat) (d : Dev) (v : Nat) : (ccStore pay p d).voice v = d.voice v :=
  Dev.voice_of_par (by simp [ccStore]) v

/-! ### NOTE_OFF (R168) -/

/-- The voices of a part that a note-off reaches. -/
def offSlots (p chan k : Nat) (d : Dev) : List Nat :=
  slotsWhere d (fun v x =>
    (x.state == .arming || x.state == .sounding) && x.part == p && x.key == k && memberOfVoice d v == (readPart d p).memberOf chan)

theorem noteOffPart_poly {p chan key rel k : Nat} {d : Dev} (hmode : (readPart d p).mode = 0) (hkey : (readPart d p).keyOf key = some k) :
    noteOffPart p chan key rel d = forEach (offSlots p chan k d) offVoice
      (forEach (offSlots p chan k d) (fun v d => setVoice v (fun x => { x with relVel := rel }) d) d) := by
  unfold noteOffPart
  dsimp only
  rw [hkey]
  exact if_pos hmode

/-- A sounding voice of the key that no pedal holds is released with the note-off's velocity. -/
theorem noteOffPart_releases {p chan key rel k v : Nat} {d : Dev} (hp : p < 32) (hmode : (readPart d p).mode = 0)
    (hkey : (readPart d p).keyOf key = some k) (hlen : v < d.par.voices.length) (hv : v ∈ partVoices d p)
    (hst : (d.voice v).state = .sounding) (hk : (d.voice v).key = k) (hmem : memberOfVoice d v = (readPart d p).memberOf chan)
    (hped : pedals d p = (false, false)) :
    ((noteOffPart p chan key rel d).voice v).state = .releasing ∧ ((noteOffPart p chan key rel d).voice v).relVel = rel := by
  obtain ⟨hcount, hpool, -, hpart⟩ := mem_partVoices.mp hv
  have hslot : v ∈ offSlots p chan k d := by simp [offSlots, slotsWhere, hcount, hpool, hst, hpart, hk, hmem]
  have hnodup : (offSlots p chan k d).Nodup := slotsWhere_nodup d _
  rw [noteOffPart_poly hmode hkey]
  obtain ⟨e, hbefore, hvel⟩ := forEach_split (R := VoiceKept v) (VoiceKept.refl v) VoiceKept.trans hnodup hslot
    (fun v d => setVoice v (fun x => { x with relVel := rel }) d)
    (fun u hu e => .of_only hu (setVoice_only u _ e) (setVoice_below u _ e)) d
  obtain ⟨f, hoff, hafter⟩ := forEach_split (R := VoiceKept v) (VoiceKept.refl v) VoiceKept.trans hnodup hslot offVoice
    (fun u hu e => .of_only hu (offVoice_only u e) (offVoice_below u e))
    (forEach (offSlots p chan k d) (fun v d => setVoice v (fun x => { x with relVel := rel }) d) d)
  have hset : (setVoice v (fun x => { x with relVel := rel }) e).voice v = { d.voice v with relVel := rel } := by
    rw [voice_of_modVoice (setVoice_par v _ e) (by rw [hbefore.slots]; exact hlen), hbefore.voice]
  have hf : f.voice v = { d.voice v with relVel := rel } := (hvel.trans hoff).voice.trans hset
  have hflen : v < f.par.voices.length := by
    rw [(hvel.trans hoff).slots, (setVoice_only v _ e).slots, hbefore.slots]
    exact hlen
  have hfped : pedals f (f.voice v).part = (false, false) := by
    rw [hf]
    dsimp only
    rw [hpart, ← hped]
    exact pedals_of_below hp ((hbefore.store.trans (setVoice_below v _ e)).trans (hvel.trans hoff).store)
  rw [hafter.voice, offVoice_releases (by rw [hf]; exact hst) hfped, voice_of_modVoice (toReleasing_voices v f) hflen, hf]
  exact ⟨rfl, rfl⟩

/-- NOTE_OFF in one part. -/
def offPart (pay : List Byte) (p : Nat) (d : Dev) : Dev := noteOffPart p (pay8 pay 1) (pay8 pay 2) (pay8 pay 3) d

theorem noteOffDev_some {i : Nat} {t : Task} {d : Dev} (h : commits d i (fun t => t.typ == Typ.noteOff) = some t) :
    noteOffDev i d = finishTask t 0 (forTask none (offDeferred t.payload
      (forEach (heardBy (deferredFirst d) t.payload) (offPart t.payload) (heardFrom t (deferredFirst d))))) := commitWith_some _ h

theorem offDeferred_voice (pay : List Byte) (d : Dev) (v : Nat) : (offDeferred pay d).voice v = d.voice v := rfl

/-- Voices after the commit of a note-off that matches one part are those after its effect there. -/
theorem noteOffDev_voice {i p : Nat} {t : Task} {d : Dev} (h : commits d i (fun t => t.typ == Typ.noteOff) = some t)
    (hp : heardBy (deferredFirst d) t.payload = [p]) (v : Nat) :
    (noteOffDev i d).voice v = (offPart t.payload p (heardFrom t (deferredFirst d))).voice v := by
  have hpar : (noteOffDev i d).par = (offDeferred t.payload (offPart t.payload p (heardFrom t (deferredFirst d)))).par := by
    rw [noteOffDev_some h, hp]
    simp [forEach]
  rw [Dev.voice_of_par hpar, offDeferred_voice]

/-! ### CC120 and CC123 (R169) -/

/-- CC120 at one voice of part p. -/
def soundOffVoice (p v : Nat) (d : Dev) : Dev :=
  let st := (d.voice v).state
  if st = .arming then toQuench v d
  else if st = .sounding ∨ st = .releasing then toStealing v (readPart d p).fade d
  else d

theorem soundOffPart_eq (pay : List Byte) (p : Nat) (d : Dev) :
    soundOffPart pay p d = forEach (partVoices d p) (soundOffVoice p) (ccStore pay p d) := rfl

theorem soundOffVoice_kept {p u v : Nat} (huv : u ≠ v) (d : Dev) : VoiceKept v d (soundOffVoice p u d) :=
  .of_only huv (.ite (toQuench_only u d) (.ite (toStealing_only u _ d) (.refl u d)))
    (.ite (toQuench_below u d) (.ite (toStealing_below u _ d) (.refl d)))

theorem toQuench_state {v : Nat} {d : Dev} (hst : (d.voice v).state = .arming ∨ (d.voice v).state = .sounding ∨ (d.voice v).state = .releasing)
    (hlen : v < d.par.voices.length) : ((toQuench v d).voice v).state = .quench := by
  have hne : (d.voice v).state ≠ .quench := by
    rcases hst with h | h | h <;> rw [h] <;> decide
  rw [voice_of_modVoice (toQuench_voices hne) hlen]

theorem toStealing_state {v : Nat} (fade : Nat) {d : Dev} (hlen : v < d.par.voices.length) :
    ((toStealing v fade d).voice v).state = .stealing := by
  rw [voice_of_modVoice (toStealing_voices v fade d) hlen]

/-- CC120 quenches an ARMING voice and fades one that sounds or releases. -/
theorem soundOffVoice_state {p v : Nat} {d : Dev} (hlen : v < d.par.voices.length) :
    ((d.voice v).state = .arming → ((soundOffVoice p v d).voice v).state = .quench) ∧
      ((d.voice v).state = .sounding ∨ (d.voice v).state = .releasing → ((soundOffVoice p v d).voice v).state = .stealing) := by
  unfold soundOffVoice
  dsimp only
  refine ⟨fun h => ?_, fun h => ?_⟩
  · rw [if_pos h]
    exact toQuench_state (.inl h) hlen
  · have hne : (d.voice v).state ≠ .arming := by
      rcases h with h | h <;> rw [h] <;> decide
    rw [if_neg hne, if_pos h]
    exact toStealing_state _ hlen

theorem soundOffPart_voice {pay : List Byte} {p v : Nat} {d : Dev} (hlen : v < d.par.voices.length) (hv : v ∈ partVoices d p) :
    ((d.voice v).state = .arming → ((soundOffPart pay p d).voice v).state = .quench) ∧
      ((d.voice v).state = .sounding ∨ (d.voice v).state = .releasing → ((soundOffPart pay p d).voice v).state = .stealing) := by
  rw [soundOffPart_eq]
  obtain ⟨e, hbefore, hafter⟩ := forEach_split (R := VoiceKept v) (VoiceKept.refl v) VoiceKept.trans (partVoices_nodup d p) hv
    (soundOffVoice p) (fun u hu e => soundOffVoice_kept hu e) (ccStore pay p d)
  rw [hafter.voice, ← ccStore_voice pay p d v, ← hbefore.voice]
  exact soundOffVoice_state (by rw [hbefore.slots]; simpa [ccStore] using hlen)

/-- CC123 in one part before its voices: stored, and the part's stack cleared. -/
def stackCleared (pay : List Byte) (p : Nat) (d : Dev) : Dev := modStack p (fun _ => []) (ccStore pay p d)

theorem notesOffPart_eq (pay : List Byte) (p : Nat) (d : Dev) :
    notesOffPart pay p d = forEach (partVoices (stackCleared pay p d) p) offVoice (stackCleared pay p d) := rfl

theorem stackCleared_voice (pay : List Byte) (p : Nat) (d : Dev) (v : Nat) : (stackCleared pay p d).voice v = d.voice v :=
  ccStore_voice pay p d v

theorem stackCleared_partVoices (pay : List Byte) (p : Nat) (d : Dev) : partVoices (stackCleared pay p d) p = partVoices d p :=
  partVoices_of (stackCleared_voice pay p d) (partV_isMaster _ _ _ _) p

/-- A controller whose place in the table is not PEDALS' leaves the pedals alone. -/
theorem ccStore_pedals {pay : List Byte} {p : Nat} {d : Dev} (hp : p < 32) : pedals (ccStore pay p d) p = pedals d p := by
  have hstore : StoreKept (fun a => BelowBlocks a ∧ a < partRec p + 0x40) d (ccStore pay p d) :=
    partV_store _ _ _ _ fun b hb => .inl (by omega)
  have hbyte (k : Nat) (hk : k < 0x40) : (ccStore pay p d).ps8 (partRec p + k) = d.ps8 (partRec p + k) :=
    hstore.bytes _ ⟨inRecord_below hp ⟨by omega, by omega⟩, by omega⟩
  have hen : (readPart (ccStore pay p d) p).sustainEn = (readPart d p).sustainEn := congrArg (Nat.testBit · 3) (hbyte 0 (by decide))
  simp only [pedals, hen, hbyte 0x23 (by decide)]

theorem stackCleared_pedals {pay : List Byte} {p : Nat} {d : Dev} (hp : p < 32) : pedals (stackCleared pay p d) p = pedals d p :=
  (pedals_of_below hp (.of_eq rfl rfl)).trans (ccStore_pedals hp)

/-- CC123 is a note-off for each voice of the part. -/
theorem notesOffPart_voice {pay : List Byte} {p v : Nat} {d : Dev} (hp : p < 32) (hlen : v < d.par.voices.length)
    (hv : v ∈ partVoices d p) (hped : pedals d p = (false, false)) :
    ((d.voice v).state = .arming → ((notesOffPart pay p d).voice v).state = .arming ∧ ((notesOffPart pay p d).voice v).offPending = true) ∧
      ((d.voice v).state = .sounding → ((notesOffPart pay p d).voice v).state = .releasing) := by
  obtain ⟨-, -, -, hpart⟩ := mem_partVoices.mp hv
  rw [notesOffPart_eq, stackCleared_partVoices]
  obtain ⟨e, hbefore, hafter⟩ := forEach_split (R := VoiceKept v) (VoiceKept.refl v) VoiceKept.trans (partVoices_nodup d p) hv
    offVoice (fun u hu e => .of_only hu (offVoice_only u e) (offVoice_below u e)) (stackCleared pay p d)
  have he : e.voice v = d.voice v := hbefore.voice.trans (stackCleared_voice pay p d v)
  have helen : v < e.par.voices.length := by
    rw [hbefore.slots]
    simpa [stackCleared, modStack, ccStore] using hlen
  have heped : pedals e (e.voice v).part = (false, false) := by
    rw [he, hpart, pedals_of_below hp hbefore.store, stackCleared_pedals hp, hped]
  rw [hafter.voice]
  refine ⟨fun h => ?_, fun h => ?_⟩
  · rw [offVoice_arming (by rw [he]; exact h), voice_of_modVoice (setVoice_par v _ e) helen, he]
    exact ⟨h, rfl⟩
  · rw [offVoice_releases (by rw [he]; exact h) heped, voice_of_modVoice (toReleasing_voices v e) helen]

/-! ### VOICE_KILL (R164, R179) -/

theorem forTask_voice (t : Option Nat) (d : Dev) (v : Nat) : (forTask t d).voice v = d.voice v := rfl

theorem killVoice_only (v mode : Nat) (d : Dev) : VoiceOnly v d (killVoice v mode d) :=
  .ite (toQuench_only v d)
    (.ite (.ite (toStealing_only v _ d) (toQuench_only v d)) (.ite (toQuench_only v d) (.refl v d)))

/-- A kill quenches an ARMING voice; one that sounds or releases it fades, or quenches with a mode other than 0. -/
theorem killVoice_state {v mode : Nat} {d : Dev} (hlen : v < d.par.voices.length) :
    ((d.voice v).state = .arming → ((killVoice v mode d).voice v).state = .quench) ∧
      ((d.voice v).state = .sounding ∨ (d.voice v).state = .releasing →
        ((killVoice v mode d).voice v).state = if mode = 0 then VState.stealing else VState.quench) := by
  unfold killVoice
  dsimp only
  refine ⟨fun h => ?_, fun h => ?_⟩
  · rw [if_pos h]
    exact toQuench_state (.inl h) hlen
  · have hne : (d.voice v).state ≠ .arming := by
      rcases h with h | h <;> rw [h] <;> decide
    rw [if_neg hne, if_pos h]
    split
    · exact toStealing_state _ hlen
    · exact toQuench_state (.inr h) hlen

theorem voiceKillDev_current {i v : Nat} {t : Task} {d : Dev} (h : commits d i (fun t => t.typ == Typ.voiceKill) = some t)
    (hv : currentSlot (deferredFirst d) (pay16 t.payload 0) = some v) (w : Nat) :
    (voiceKillDev i d).voice w = (killVoice v (pay8 t.payload 2) (forTask (some t.idx) (deferredFirst d))).voice w := by
  have hslot : currentSlot (forTask (some t.idx) (deferredFirst d)) (pay16 t.payload 0) = some v := hv
  have hcommit : voiceKillCommit t (forTask (some t.idx) (deferredFirst d)) =
      (killVoice v (pay8 t.payload 2) (forTask (some t.idx) (deferredFirst d)), 0) := by
    rw [voiceKillCommit, hslot]
  rw [voiceKillDev, commitWith_some _ h, hcommit]
  exact Dev.voice_of_par (by simp) w

theorem finishTask_regs (t : Task) (st : Nat) (d : Dev) : RegsOnly [Reg.ALM_DONE_STAT, Reg.ALM_IRQ_STAT] d (finishTask t st d) := by
  unfold finishTask pushDone
  refine .ite (.ite (.of_regs rfl) ?_) (.of_regs rfl)
  exact ((RegsOnly.of_regs rfl).trans (.putFlag _ (a := Reg.ALM_DONE_STAT) 8 true (by decide))).trans
    (.putFlag _ (a := Reg.ALM_IRQ_STAT) 5 true (by decide))

/-- A handle that is not current is counted (R164). -/
theorem staleHandle_counts (d : Dev) :
    (staleHandle d).fld Reg.ALC_CNT_STALE 31 0 = min (d.fld Reg.ALC_CNT_STALE 31 0 + 1) (2 ^ 32 - 1) := by
  have hirq : (staleHandle d).fld Reg.ALC_CNT_STALE 31 0 = (d.bump Reg.ALC_CNT_STALE).fld Reg.ALC_CNT_STALE 31 0 :=
    congrArg (Word.bits · 31 0) (Dev.reg_setIrq_ne _ _ _ _ _ (by decide))
  exact hirq.trans (d.fld_bumpFld _ _ _ _ (by decide) (by decide))

theorem voiceKillDev_stale {i : Nat} {t : Task} {d : Dev} (h : commits d i (fun t => t.typ == Typ.voiceKill) = some t)
    (hv : currentSlot (deferredFirst d) (pay16 t.payload 0) = none) :
    voiceKillDev i d = finishTask t 2 (forTask none (staleHandle (forTask (some t.idx) (deferredFirst d)))) := by
  have hslot : currentSlot (forTask (some t.idx) (deferredFirst d)) (pay16 t.payload 0) = none := hv
  have hcommit : voiceKillCommit t (forTask (some t.idx) (deferredFirst d)) =
      (staleHandle (forTask (some t.idx) (deferredFirst d)), 2) := by
    rw [voiceKillCommit, hslot]
  rw [voiceKillDev, commitWith_some _ h, hcommit]

end Sys2Proof.Machine
end

section
/-! PROOF. A note-on in one POLY part, a note-on in no part, and the statement on notes (R157, R163 to R165, R168, R169, R172, R174, R177,
R179). -/

namespace Sys2Proof.Machine

open Sys2Proof

/-! ### A voice armed in a slot of this device (R163, R165) -/

theorem armSlot_par {v : Nat} (k : NewVoice) (d : Dev) (hv : v < 256) :
    (armSlot v k d).par = (d.modVoice v (fun _ => voiceOf d v k)).par := by
  have hown : ownSlot v = true := decide_eq_true hv
  unfold armSlot
  dsimp only
  rw [hown, if_pos rfl, Dev.par_putReg, Dev.par_emit, Dev.par_bump]
  exact armOwn_par v _ (voiceOf d v k) d

theorem freeSlot_free {d : Dev} {l : List Nat} {v : Nat} (h : freeSlot d l = some v) : slotFree d v = true := by
  obtain ⟨-, hfree⟩ := List.mem_filter.mp (firstBy_mem h)
  exact (Bool.and_eq_true_iff.mp hfree).1

/-- Out of a chain and with no slot chosen for it, a voice takes the FREE slot that comes first (R174). -/
theorem placeVoice_free {idx : Option Nat} {k : NewVoice} {d : Dev} {v : Nat} (hchain : d.isMaster = false)
    (hv : freeSlot d (chosenElsewhere d idx) = some v) : (placeVoice idx [] k d).1 = armSlot v k d := by
  have hplan : plannedSlot d k = none := by simp [plannedSlot, planOf, hchain]
  have hslot : slotFor idx [] k d = some v := by
    rw [slotFor, hplan, hv]
    rfl
  have hrecord : recordSlot v d = d := if_neg (by simp [hchain])
  rw [placeVoice, hslot]
  dsimp only
  rw [hrecord, seatVoice, if_pos (freeSlot_free hv)]

/-- The voice that a note of one voice brings to a part. -/
def firstVoice (p : Nat) (note : Note) (d : Dev) : NewVoice :=
  { part := p, key := ((readPart d p).keyOf note.key).getD 0, vel := note.vel, vel16 := note.vel16, patch := (readPart d p).patch, i := 0
    n := 1, tag := note.tag, member := (readPart d p).memberOf note.chan, cut := false, off := note.off, taken := note.taken }

theorem ceiling_pos (d : Dev) (p : Nat) : 1 ≤ (readPart d p).ceiling := by
  show 1 ≤ countOf _ 256
  unfold countOf
  split <;> omega

/-- A note of one voice that needs no victim is placed as it is (R172). -/
theorem placePart_free {p v : Nat} {note : Note} {d : Dev} (hchain : d.isMaster = false) (huni : (readPart d p).unison = 1)
    (hsteal : (stealPlan d p 1).1 = 0) (hspare : 0 < spareSlots d) (hv : freeSlot d (chosenElsewhere d note.idx) = some v) :
    (placePart p note [] d).1 = armSlot v (firstVoice p note d) d := by
  have hunison : min (readPart d p).unison (readPart d p).ceiling = 1 := by
    rw [huni]
    exact Nat.min_eq_left (ceiling_pos d p)
  have hplan : planOf d p = none := if_neg (by simp [hchain])
  have hroom : decide (1 ≤ spareSlots d + ([] : List Nat).length) = true := decide_eq_true hspare
  have hvictims : victimsFor p 1 note d = some [] := by
    unfold victimsFor
    rw [hplan]
    dsimp only
    rw [hsteal, pickVictims, Option.filter_some, if_pos hroom]
  have hrecord : recordPlan p false [] d = d := if_neg (by simp [hchain])
  unfold placePart
  dsimp only
  rw [hunison, hvictims]
  dsimp only
  rw [hrecord]
  exact placeVoice_free hchain hv

/-! ### The parts that a note plays in (R157, R162) -/

theorem seeWord_mem {d e : Dev} (h : e.mem = d.mem) (w : HWrite) : (seeWord e w).mem = (seeWord d w).mem := by
  have hword : e.ps32 w.offset = d.ps32 w.offset := by simp only [Dev.ps32, Dev.ps16, Dev.ps8_of_mem h]
  unfold seeWord
  dsimp only
  rw [hword]
  split
  · exact h
  · rw [Dev.psRaw, Dev.psRaw, h]

theorem foldl_seeWord_mem (l : List HWrite) {d e : Dev} (h : e.mem = d.mem) : (l.foldl seeWord e).mem = (l.foldl seeWord d).mem := by
  induction l generalizing d e with
  | nil => exact h
  | cons w r ih => exact ih (seeWord_mem h w)

/-- What port V reads of the store does not turn on whose commit is being applied. -/
theorem patchValid_forTask (t : Option Nat) (d : Dev) (n : Nat) : patchValid (forTask t d) n = patchValid d n := by
  have hmem : (forTask t d).seen.mem = d.seen.mem := foldl_seeWord_mem d.dueH rfl
  simp only [patchValid, Dev.ps32, Dev.ps16, Dev.ps8_of_mem hmem]

theorem playsIn_forTask (t : Option Nat) (d : Dev) (ps : List Nat) (key : Nat) : playsIn (forTask t d) ps key = playsIn d ps key :=
  List.filter_congr fun p _ => congrArg (((readPart d p).keyOf key).isSome && ·) (patchValid_forTask t d _)

/-! ### The commit of a note-on (R157, R177) -/

/-- One more note-on armed in the EF. -/
def Dev.armedOne (d : Dev) : Dev := { d with par := { d.par with armed := d.par.armed + 1 } }

theorem noteStatus_plays {d : Dev} {pay : List Byte} {p : Nat} (hparts : noteParts d pay = ([p], 0))
    (hplays : playsIn d [p] (pay8 pay 2) = [p]) : noteStatus false pay d = (d, 0) := by
  unfold noteStatus
  dsimp only
  rw [hparts]
  dsimp only
  rw [hplays]
  rfl

theorem noteStatus_noPart {d : Dev} {pay : List Byte} (h : (noteParts d pay).1 = []) :
    (noteStatus false pay d).2 = 3 ∧ (noteStatus false pay d).1.mem = d.mem := by
  unfold noteStatus
  dsimp only
  rw [h]
  exact ⟨rfl, by simp⟩

/-- A note-on in one POLY part within the EF's limit is placed there. -/
theorem armNote_poly {d : Dev} {pay : List Byte} {p idx tag : Nat} {taken : List Nat} (hchain : d.isMaster = false)
    (hparts : noteParts d pay = ([p], 0)) (hplays : playsIn d [p] (pay8 pay 2) = [p]) (harmed : d.par.armed < 32)
    (hmode : (readPart d p).mode = 0) :
    armNote (noteOf (some idx) pay tag none taken) pay [] d =
      ((placePart p (noteOf (some idx) pay tag none taken) [] d.armedOne).1, true) := by
  have hplay : playNote [p] (noteOf (some idx) pay tag none taken) [] d.armedOne =
      (placePart p (noteOf (some idx) pay tag none taken) [] d.armedOne).1 := by
    have hpoly : (readPart d.armedOne p).mode = 0 := hmode
    show (playPart p (noteOf (some idx) pay tag none taken) (d.armedOne, [])).1 = _
    unfold playPart
    dsimp only
    rw [if_pos hpoly]
  unfold armNote
  dsimp only
  rw [hparts]
  dsimp only
  rw [hplays, List.length_singleton, if_neg (by omega), if_neg (by simp [hchain])]
  exact congrArg (·, true) hplay

theorem noteOnCommit_poly {d : Dev} {t : Task} {p v : Nat} (hdef : d.par.deferred = []) (hchosen : t.chosen = [])
    (hparts : noteParts d t.payload = ([p], 0)) (hplays : playsIn d [p] (pay8 t.payload 2) = [p]) (harmed : d.par.armed < 32)
    (hchain : d.isMaster = false) (hmode : (readPart d p).mode = 0) (huni : (readPart d p).unison = 1)
    (hsteal : (stealPlan d p 1).1 = 0) (hv : freeSlot d (chosenElsewhere d (some t.idx)) = some v) (hspare : 0 < spareSlots d) :
    (noteOnCommit t d).1 = armSlot v (firstVoice p (noteOf (some t.idx) t.payload t.tag none t.taken) d) d.armedOne := by
  unfold noteOnCommit
  dsimp only
  rw [noteStatus_plays hparts hplays, hdef, hchosen, armNote_poly hchain hparts hplays harmed hmode]
  exact placePart_free (d := d.armedOne) (note := noteOf (some t.idx) t.payload t.tag none t.taken) hchain huni hsteal hspare hv

/-- A note-on that plays in no part, with no other deferred before it, frees its task with status 3 (R157). -/
theorem noteOnDev_noPart {i : Nat} {t : Task} {d : Dev} (h : commits d i (fun t => t.typ == Typ.noteOn) = some t)
    (hdef : d.par.deferred = []) (hparts : (noteParts d t.payload).1 = []) (hnotify : t.notify = true) (hroom : d.alm.done.length < 64) :
    (noteOnDev i d).par.voices = d.par.voices ∧ (noteOnDev i d).mem = d.mem ∧
      (noteOnDev i d).alm.done = d.alm.done ++ [{ status := 3, ef := d.now % 4096, tag := t.tag }] := by
  have hnone : (noteParts (forTask (some t.idx) d) t.payload).1 = [] := hparts
  obtain ⟨hstatus, hmem⟩ := noteStatus_noPart hnone
  have hcommit : noteOnCommit t (forTask (some t.idx) d) = noteStatus false t.payload (forTask (some t.idx) d) :=
    if_pos (by rw [hstatus]; decide)
  rw [noteOnDev, commitWith_some _ h, deferredFirst_nil hdef, hcommit, hstatus, finishTask_notifying _ _ hnotify,
    pushDone_room _ _ _ (by simpa using hroom)]
  exact ⟨by simp, by simpa using hmem, by simp [Dev.now]⟩

/-- A note-on in one POLY part arms its voice in the slot that is free for it (R163, R165, R172, R174). -/
theorem noteOnDev_par {i p v : Nat} {t : Task} {d : Dev} (h : commits d i (fun t => t.typ == Typ.noteOn) = some t)
    (hdef : d.par.deferred = []) (hchosen : t.chosen = []) (hparts : noteParts d t.payload = ([p], 0))
    (hplays : playsIn d [p] (pay8 t.payload 2) = [p]) (harmed : d.par.armed < 32) (hchain : d.inChain = false)
    (hmode : (readPart d p).mode = 0) (huni : (readPart d p).unison = 1) (hsteal : (stealPlan d p 1).1 = 0) (hown : v < 256)
    (hv : freeSlot d (chosenElsewhere d (some t.idx)) = some v) (hspare : 0 < spareSlots d) :
    (noteOnDev i d).par =
      (d.armedOne.modVoice v (fun _ => voiceOf d v (firstVoice p (noteOf (some t.idx) t.payload t.tag none t.taken) d))).par := by
  have hmaster : d.isMaster = false := by rw [Dev.isMaster, hchain, Bool.false_and]
  have hcommit := noteOnCommit_poly (d := forTask (some t.idx) d) hdef hchosen hparts ((playsIn_forTask _ d _ _).trans hplays) harmed
    hmaster hmode huni hsteal hv hspare
  have hpar : (noteOnDev i d).par = (noteOnCommit t (forTask (some t.idx) d)).1.par := by
    rw [noteOnDev, commitWith_some _ h, deferredFirst_nil hdef]
    simp
  rw [hpar, hcommit]
  exact armSlot_par _ _ hown

/-! ### The statement -/

/-- Settles O21: a note-on by the voice its one part takes, and each release, fade and kill by what its effect in the part does to one
voice while the loop's other rounds leave that voice alone. -/
theorem notesStartAndEndVoices : Obligations.NotesStartAndEndVoices := by
  unfold Obligations.NotesStartAndEndVoices
  intro kept
  refine ⟨?start, ?noPart, ?off, ?soundOff, ?notesOff, ?kill, ?stale⟩
  case start =>
    intro s i t p v h hdef hchosen hparts hplays harmed hchain hmode huni hsteal hlen hown hv hspare
    have hpar := noteOnDev_par h hdef hchosen hparts hplays harmed hchain hmode huni hsteal hown hv hspare
    have hvoice : (noteOnDev i s.dev).voice v =
        voiceOf s.dev v (firstVoice p (noteOf (some t.idx) t.payload t.tag none t.taken) s.dev) := voice_of_modVoice hpar hlen
    have hkey : some (((readPart s.dev p).keyOf (pay8 t.payload 2)).getD 0) = (readPart s.dev p).keyOf (pay8 t.payload 2) := by
      have hmem : p ∈ playsIn s.dev [p] (pay8 t.payload 2) := by rw [hplays]; exact List.mem_singleton_self p
      obtain ⟨k, hk⟩ := Option.isSome_iff_exists.mp (Bool.and_eq_true_iff.mp (List.mem_filter.mp hmem).2).1
      rw [hk]
      rfl
    refine (yields_devNext (f := noteOnDev i) _ rfl).mpr ?_
    rw [hvoice]
    exact ⟨rfl, rfl, hkey, rfl, rfl, rfl, (VoiceOnly.of_par hpar).others⟩
  case noPart =>
    intro s i t h hdef hparts hnotify hroom
    exact (yields_devNext _ rfl).mpr (noteOnDev_noPart h hdef hparts hnotify hroom)
  case off =>
    rintro s e i t p k v rfl h hp hmode hkey hlen hv hst hk hmem hped
    have hstart := heardFrom_store (P := InRecord p) t (deferredFirst s.dev)
    have hmember : memberOfVoice (heardFrom t (deferredFirst s.dev)) v = memberOfVoice (deferredFirst s.dev) v := by
      rw [memberOfVoice, memberOfVoice, (heardFrom_store (P := fun _ => True) t _).bytes _ trivial, heardFrom_voice]
    refine (yields_devNext (f := noteOffDev i) _ rfl).mpr ?_
    rw [noteOffDev_voice h hp]
    refine noteOffPart_releases (k := k) (heardBy_one hp) ?_ ?_ ?_ ?_ ?_ ?_ ?_ ?_
    · rw [readPart_of_kept hstart, hmode]
    · rw [readPart_of_kept hstart, hkey]
    · rwa [heardFrom_par]
    · rwa [heardFrom_partVoices]
    · rwa [heardFrom_voice]
    · rwa [heardFrom_voice]
    · rw [hmember, readPart_of_kept hstart, hmem]
    · rw [pedals_of_kept hstart, hped]
  case soundOff =>
    rintro s e i t p v rfl h hp hlen hv
    refine (yields_devNext (f := allSoundOffDev i) _ rfl).mpr ?_
    rw [allSoundOffDev, midiCommit_voice soundOffPart h hp, ← heardFrom_voice t (deferredFirst s.dev)]
    exact soundOffPart_voice (by rwa [heardFrom_par]) (by rwa [heardFrom_partVoices])
  case notesOff =>
    rintro s e i t p v rfl h hp hlen hv hped
    refine (yields_devNext (f := allNotesOffDev i) _ rfl).mpr ?_
    rw [allNotesOffDev, midiCommit_voice notesOffPart h hp, ← heardFrom_voice t (deferredFirst s.dev)]
    exact notesOffPart_voice (heardBy_one hp) (by rwa [heardFrom_par]) (by rwa [heardFrom_partVoices])
      ((pedals_of_kept (heardFrom_store t _)).trans hped)
  case kill =>
    rintro s e i t v rfl h hv hlen
    refine (yields_devNext (f := voiceKillDev i) _ rfl).mpr ⟨fun u hu => ?_, ?_⟩
    · rw [voiceKillDev_current h hv, (killVoice_only v _ _).others u hu, forTask_voice]
    · rw [voiceKillDev_current h hv, ← forTask_voice (some t.idx) (deferredFirst s.dev)]
      exact killVoice_state hlen
  case stale =>
    rintro s e i t rfl h hv
    refine (yields_devNext (f := voiceKillDev i) _ rfl).mpr ?_
    rw [voiceKillDev_stale h hv, (finishTask_regs t 2 _).fld (by decide)]
    exact ⟨by simp, by simp, staleHandle_counts (forTask (some t.idx) (deferredFirst s.dev))⟩

end Sys2Proof.Machine
end

section
/-! PROOF. The statement on a voice's own events fails: its clause on a pending note-off bounds no part number, and a voice of a part
beyond the 32 can have its own block for its part's record, whose bytes it writes before it reads the pedals (R155, R161, R165, R178). -/

namespace Sys2Proof.Machine

open Sys2Proof

/-- An ARMING voice of slot 0 whose first sample has come and whose note-off is pending; its part is 1,024, whose record would begin
where the voice's block does.  A byte of 1 stands where that record has PEDALS; the byte with its SUSTAIN_EN is still 0, and is 8 once
the voice has written its handle there. -/
def voiceOfPart1024 : Dev :=
  { runningWith [] with
    par := { Dev.reset.par with voices := [{ Voice.reset with state := .arming, handle := 8, part := 1024, start := 4, offPending := true }] }
    mem := { Dev.reset.mem with pstore := [(vblk 0 + 0x23, 1)] } }

theorem voiceOfPart1024_due : voiceOfPart1024.isOn Dom.ctrl = true ∧
    efReached voiceOfPart1024.now (efAdd (voiceOfPart1024.voice 0).start 4) = true := by decide

theorem voiceOfPart1024_pedals : pedals voiceOfPart1024 (voiceOfPart1024.voice 0).part = (false, false) := by decide +kernel

/-- With its handle written, the voice finds the sustain pedal down, and sounds on. -/
theorem voiceOfPart1024_after : ((firstSampleDev 0 voiceOfPart1024).voice 0).state = .sounding := by decide +kernel

/-- Refutes O22: no pedal is down before the first sample, and yet the pending note-off finds one down, so the voice is not
RELEASING. -/
theorem not_voicesMoveThroughTheirStates : ¬ Obligations.VoicesMoveThroughTheirStates := by
  unfold Obligations.VoicesMoveThroughTheirStates
  rintro ⟨hfirst, -⟩
  obtain ⟨hon, hdue⟩ := voiceOfPart1024_due
  obtain ⟨-, hpending⟩ := hfirst { State.reset with dev := voiceOfPart1024 } 0 Nat.one_pos rfl hon hdue
  obtain ⟨⟨hstate, -⟩, -⟩ := (yields_devNext _ rfl).mp (hpending rfl voiceOfPart1024_pedals)
  exact absurd (voiceOfPart1024_after.symm.trans hstate) (by decide)

end Sys2Proof.Machine
end

section
/-! PROOF. Line fills and invalidation of a wave cache: what enters, what may leave, and what stays (R213, R217, R433, R441). -/

namespace Sys2Proof.Machine

open Sys2Proof

/-! ### A line fill (R213, R433) -/

/-- A cluster whose cache has taken a line: the victim has left its way, and the line's request is gone. -/
def lineFilled (d : Dev) (c line : Nat) (x : Clu) : Clu :=
  { x with
    lines := x.lines.filter (fun l => some l.1 != victimOf d c line) ++ [(line, d.waveBytes (64 * line) 64)]
    flight := x.flight.filter (fun q => q.line != line) }

/-- The pins come from the voices and their kernel windows, not from the caches. -/
theorem pinsOf_of_eq {d e : Dev} (haud : e.aud.vaud = d.aud.vaud) (hpar : e.par = d.par) (c : Nat) : pinsOf e c = pinsOf d c := by
  simp only [pinsOf, Dev.vaud, Dev.voice, haud, hpar]

theorem victimOf_unpinned {d : Dev} {c line v : Nat} (h : victimOf d c line = some v) : pinned d c v = false := by
  unfold victimOf at h
  dsimp only at h
  split at h
  · cases h
  · have hmem := List.mem_of_getElem? h
    simpa using (List.mem_filter.mp hmem).2

theorem lineFilled_keeps_pinned {d : Dev} {c line : Nat} {x : Clu} {l : Nat × List Byte} (hl : l ∈ x.lines)
    (hpin : pinned d c l.1 = true) : l ∈ (lineFilled d c line x).lines := by
  have hstays : victimOf d c line ≠ some l.1 := fun h => by simp [victimOf_unpinned h] at hpin
  exact List.mem_append_left _ (List.mem_filter.mpr ⟨hl, by simpa using hstays.symm⟩)

section
variable {d : Dev} {c line : Nat} {r : Req} (hc : c < 16) (hclu : d.cluOn c = true) (hmemc : d.isOn Dom.memc = true)
  (hready : d.mem.dramReady = true) (hreq : (d.clu c).flight.find? (fun q => q.line == line) = some r)
  (hfill : fillable d c line = true) (hnext : servedNext d c r = true)
include hc hclu hmemc hready hreq hfill hnext

/-- The next line of its lane fills a way of its cluster's cache, and of the audio unit's clusters no other changes; either lane
leaves the voices' kernel windows and wave DRAM alone. -/
theorem cacheLineFillDev_fills (hfree : fillBorrowed d c = false) :
    (cacheLineFillDev c line d).aud.clus = upd d.aud.clus c (lineFilled d c line) ∧
      (cacheLineFillDev c line d).aud.vaud = d.aud.vaud ∧ (cacheLineFillDev c line d).mem.wave = d.mem.wave := by
  simp only [cacheLineFillDev, hreq, hc, hclu, hmemc, hready, hfill, hnext, hfree]
  by_cases hlane : r.lane < 2
  · simp only [hlane]
    exact ⟨rfl, rfl, rfl⟩
  · simp only [hlane]
    exact ⟨rfl, rfl, rfl⟩

/-- A fill whose way the patrol has borrowed takes a free value and waits. -/
theorem cacheLineFillDev_waits (hborrowed : fillBorrowed d c = true) : cacheLineFillDev c line d = d.draw := by
  simp [cacheLineFillDev, hreq, hc, hclu, hmemc, hready, hfill, hnext, hborrowed]

end

theorem cacheLineFillDev_noRequest {c line : Nat} {d : Dev} (h : (d.clu c).flight = []) : cacheLineFillDev c line d = d := by
  simp [cacheLineFillDev, h]

/-! ### Invalidation (R217) -/

/-- A cluster whose cache INVAL has emptied of unpinned lines; the pinned ones await their unpinning. -/
def unpinnedGone (d : Dev) (c : Nat) (x : Clu) : Clu :=
  { x with
    lines := x.lines.filter (fun l => pinned d c l.1)
    inval := (x.lines.filter (fun l => pinned d c l.1)).map Prod.fst }

theorem waveCacheInvalDev_of_set {c : Nat} {v : Word} {d : Dev} (hc : c < 16) (hclu : d.cluOn c = true) (hv : v.getLsbD 0 = true) :
    waveCacheInvalDev c v d = d.modClu c (unpinnedGone d c) :=
  if_pos (by simp [hc, hclu, hv])

/-- A line that awaits invalidation leaves once no pin holds it. -/
theorem pinnedLineInvalDev_of_unpinned {c line : Nat} {d : Dev} (hc : c < 16) (hwaits : line ∈ (d.clu c).inval)
    (hfree : pinned d c line = false) : pinnedLineInvalDev c line d = d.modClu c (fun x => { x with
      lines := x.lines.filter (fun l => l.1 != line), inval := x.inval.filter (· != line) }) :=
  if_pos (by simp [hc, hwaits, hfree])

theorem pinnedLineInvalDev_of_pinned {c line : Nat} {d : Dev} (h : pinned d c line = true) : pinnedLineInvalDev c line d = d :=
  if_neg (by simp [h])

end Sys2Proof.Machine
end

section
/-! PROOF. The host's lane to wave DRAM, a burst of the read-ahead and a posted word drained (R417 to R419, R433). -/

namespace Sys2Proof.Machine

open Sys2Proof

/-! ### The host's lane (R433) -/

theorem Lane.left_le (l : Lane) (k : Nat) : l.left k ≤ k := Nat.sub_le _ _

theorem Lane.left_of_fresh {l : Lane} (h : l.part = 0) (k : Nat) : l.left k = k := by simp [Lane.left, h]

/-- A burst within the lane's own 9 lines of the EF needs none beyond them. -/
theorem Lane.over_of_le {l : Lane} {n : Nat} (h : l.used + n ≤ 9) : l.over n = 0 := by
  have hleft := l.left_le n
  simp only [Lane.over]
  omega

theorem Lane.over_pos {l : Lane} {n : Nat} (hfresh : l.part = 0) (hn : 0 < n) (h : 9 < l.used + n) : 0 < l.over n := by
  simp only [Lane.over, Lane.left_of_fresh hfresh]
  omega

theorem Lane.move_of_fresh {l : Lane} {n : Nat} (hfresh : l.part = 0) (h : l.used + n ≤ 9) :
    l.move n = { used := l.used + n, part := 0 } := by
  rw [Lane.move, Lane.left_of_fresh hfresh, Nat.min_eq_right h]

theorem hostLane_of_over_zero {d : Dev} {n : Nat} (h : d.mem.laneHost.over n = 0) : hostLane d n = true := by simp [hostLane, h]

/-- Beyond its own lines the host's lane moves nothing while the other lanes leave none. -/
theorem hostLane_of_none_remain {d : Dev} {n : Nat} (hover : 0 < d.mem.laneHost.over n) (hrest : linesRemain d = false) :
    hostLane d n = false := by
  simp [hostLane, hrest, Nat.ne_of_gt hover]

theorem hostMoved_mem (n : Nat) (d : Dev) : (hostMoved n d).mem =
    { d.mem with laneHost := d.mem.laneHost.move n, lead := (hostMoved n d).mem.lead } := rfl

/-- The same behind a change of wave DRAM's bytes. -/
theorem hostMoved_mem_of_wave {n : Nat} {d e : Dev} (h : e.mem = { d.mem with wave := e.mem.wave }) : (hostMoved n e).mem =
    { d.mem with
      wave := (hostMoved n e).mem.wave, laneHost := d.mem.laneHost.move n, lead := (hostMoved n e).mem.lead } :=
  (hostMoved_mem n e).trans
    (congrArg (fun m : Mems => { m with laneHost := m.laneHost.move n, lead := (hostMoved n e).mem.lead }) h)

theorem hostMoved_wave8 (n b : Nat) (d : Dev) : (hostMoved n d).wave8 b = d.wave8 b := rfl

theorem hostMoved_lead_of_over_zero {n : Nat} {d : Dev} (h : d.mem.laneHost.over n = 0) : (hostMoved n d).mem.lead = d.mem.lead :=
  if_pos h

/-- What the host's lane moves changes nothing of what the mover's waiting burst needs. -/
theorem movOver_hostMoved (n : Nat) (d : Dev) : movOver (hostMoved n d) = movOver d := rfl

theorem hostMoved_regs (n : Nat) (d : Dev) : RegsOnly [Reg.MEM_CNT_HOST] d (hostMoved n d) :=
  (RegsOnly.of_regs (e := { d with mem := (hostMoved n d).mem }) rfl).trans (RegsOnly.bumpBy _ n List.mem_cons_self)

/-! ### A burst of the read-ahead (R417, R419) -/

section
variable {d : Dev}

theorem fillWords_succ {n a : Nat} (h : a + d.winStep ≤ waveSize) :
    fillWords d (n + 1) a = winWord d d.pack24 a :: fillWords d n (a + d.winStep) :=
  if_neg (Nat.not_lt.mpr h)

/-- A burst short of the end of wave DRAM holds all its words, each as the DRAM stands at its address. -/
theorem fillWords_eq_map {n a : Nat} (h : a + n * d.winStep ≤ waveSize) :
    fillWords d n a = (List.range n).map (fun k => winWord d d.pack24 (a + k * d.winStep)) := by
  induction n generalizing a with
  | zero => rfl
  | succ n ih =>
    rw [Nat.succ_mul] at h
    rw [fillWords_succ (by omega), ih (by omega), List.range_succ_eq_map, List.map_cons, List.map_map]
    congr 1
    · simp
    · refine List.map_congr_left fun k _ => ?_
      rw [Function.comp_apply, Nat.succ_mul, Nat.add_assoc, Nat.add_comm d.winStep]

theorem winFilling_of (hmemc : d.isOn Dom.memc = true) (hready : d.mem.dramReady = true) (hdir : d.win.dir = false)
    (hend : d.win.rdEnd = false) (hroom : d.win.rd.length ≤ 48) : winFilling d = true := by
  simp [winFilling, hmemc, hready, hdir, hend, hroom]

/-- A whole burst arrives behind the read-ahead. -/
theorem windowFillDev_arrives (hfilling : winFilling d = true) (hroom : d.win.rdAddr + 16 * d.winStep ≤ waveSize)
    (hlane : hostLane d (linesOf d.win.rdAddr (16 * d.winStep)) = true) :
    windowFillDev d = { hostMoved (linesOf d.win.rdAddr (16 * d.winStep)) d with win := { d.win with
      rd := d.win.rd ++ fillWords d 16 d.win.rdAddr, rdAddr := d.win.rdAddr + 16 * d.winStep, rdEnd := false } } := by
  have hlen : (fillWords d 16 d.win.rdAddr).length = 16 := by simp [fillWords_eq_map hroom]
  simp only [windowFillDev, hlen, hfilling, hlane]
  rfl

theorem windowFillDev_noRoom (h : 48 < d.win.rd.length) : windowFillDev d = d :=
  if_pos (by simp [winFilling, Nat.not_le.mpr h])

end

/-! ### A posted word drained (R192, R418, R419) -/

theorem wave8_waveRaw_one (d : Dev) (a b : Nat) (x : Byte) : (d.waveRaw a [x]).wave8 b = if b = a then x else d.wave8 b :=
  cellGet_cellSet _ _ _ _ _

/-- Single bytes of a word, written one after another. -/
theorem wave8_forEach_waveRaw (ks : List Nat) (a b : Nat) (v : Word) (d : Dev) :
    (forEach ks (fun k d => d.waveRaw (a + k) [v.byte k]) d).wave8 b =
      if ∃ k ∈ ks, b = a + k then v.byte (b - a) else d.wave8 b := by
  induction ks generalizing d with
  | nil => simp [forEach]
  | cons k ks ih =>
    refine (ih _).trans ?_
    rw [wave8_waveRaw_one]
    by_cases hlater : ∃ j ∈ ks, b = a + j
    · rw [if_pos hlater, if_pos (hlater.imp fun j h => ⟨List.mem_cons_of_mem _ h.1, h.2⟩)]
    · by_cases hk : b = a + k
      · rw [if_neg hlater, if_pos hk, if_pos ⟨k, List.mem_cons_self, hk⟩, hk, Nat.add_sub_cancel_left]
      · rw [if_neg hlater, if_neg hk, if_neg]
        rintro ⟨j, hj, hb⟩
        rcases List.mem_cons.mp hj with rfl | hj
        · exact hk hb
        · exact hlater ⟨j, hj, hb⟩

/-- Of the memories, bytes written to wave DRAM change its bytes alone. -/
theorem mem_forEach_waveRaw (ks : List Nat) (a : Nat) (v : Word) (d : Dev) (w : List Host.Cell) :
    { (forEach ks (fun k d => d.waveRaw (a + k) [v.byte k]) d).mem with wave := w } = { d.mem with wave := w } :=
  foldl_keeps (fun d : Dev => { d.mem with wave := w }) (fun d k => d.waveRaw (a + k) [v.byte k]) (fun _ _ => rfl) ks d

theorem dramInvalidate_mem (ls : List Nat) (d : Dev) : (dramInvalidate ls d).mem = d.mem := by simp

theorem wave8_of_mem {d e : Dev} (h : e.mem = d.mem) (b : Nat) : e.wave8 b = d.wave8 b := by rw [Dev.wave8, waveDflt, h]; rfl

section
variable (a : Nat) (v : Word) (be : BitVec 4) (pack : Bool) (d : Dev)

/-- A byte is as the posted word has it where an enabled byte of the word lies, and as before elsewhere. -/
theorem drainPut_wave8 (b : Nat) : (drainPut a v be pack d).wave8 b =
    if ∃ k, k < (if pack then 3 else 4) ∧ be.getLsbD k = true ∧ b = a + k then v.byte (b - a) else d.wave8 b := by
  rw [drainPut, wave8_of_mem (dramInvalidate_mem _ _), wave8_forEach_waveRaw]
  simp only [List.mem_filter, List.mem_range, and_assoc]

theorem drainPut_wave8_enabled {k : Nat} (hk : k < (if pack then 3 else 4)) (hen : be.getLsbD k = true) :
    (drainPut a v be pack d).wave8 (a + k) = v.byte k := by
  have hhere : ∃ j, j < (if pack then 3 else 4) ∧ be.getLsbD j = true ∧ a + k = a + j := ⟨k, hk, hen, rfl⟩
  rw [drainPut_wave8, if_pos hhere, Nat.add_sub_cancel_left]

theorem drainPut_wave8_other {b : Nat} (hb : ∀ k, k < (if pack then 3 else 4) → be.getLsbD k = true → b ≠ a + k) :
    (drainPut a v be pack d).wave8 b = d.wave8 b := by
  have hnone : ¬ ∃ k, k < (if pack then 3 else 4) ∧ be.getLsbD k = true ∧ b = a + k :=
    fun ⟨k, hk, hen, he⟩ => hb k hk hen he
  rw [drainPut_wave8, if_neg hnone]

theorem drainPut_mem : (drainPut a v be pack d).mem = { d.mem with wave := (drainPut a v be pack d).mem.wave } := by
  rw [drainPut, dramInvalidate_mem]
  exact mem_forEach_waveRaw _ a v d _

end

section
variable {a : Nat} {v : Word} {be : BitVec 4} {pack : Bool} {r : List (Nat × Word × BitVec 4 × Bool)} {d : Dev}

theorem windowDrainDev_issues (hmemc : d.isOn Dom.memc = true) (hready : d.mem.dramReady = true)
    (hwr : d.win.wr = (a, v, be, pack) :: r) (hlane : hostLane d (linesOf a (if pack then 3 else 4)) = true) :
    windowDrainDev d = hostMoved (linesOf a (if pack then 3 else 4)) (drainPut a v be pack { d with win := { d.win with wr := r } }) := by
  simp only [windowDrainDev, hwr, hmemc, hready, hlane]
  rfl

theorem windowDrainDev_nil (hwr : d.win.wr = []) : windowDrainDev d = d := by simp only [windowDrainDev, hwr]

end

/-! ### The statement -/

/-- Settles O23: each command by the case of its function above. -/
theorem cacheLinesAndWindowWordsFill : Obligations.CacheLinesAndWindowWordsFill := by
  refine ⟨⟨fun s c line r hc hlen hclu hmemc hready hreq hfill hnext => ⟨fun hfree => ?fills, fun hborrowed => ?borrowed⟩,
    fun s c line h => ?noRequest, fun s c v hc hlen hclu hv hturn => ?inval, fun s c line hc hwaits hfree => ?unpins,
    fun s c line hpin => ?pinned⟩,
    fun s hmemc hready hdir hend hroom haddr hlane => ?burst, fun d n _ hle => ?within, fun d n hn _ hfresh hover hrest => ?beyond,
    fun s h => ?noRoom, fun s a v be pack r hmemc hready hwr hlane => ?drains, fun s hwr => ?drained, fun s hmemc => ?ready⟩
  case fills =>
    rw [yields_devNext (f := cacheLineFillDev c line) _ rfl]
    obtain ⟨hclus, hvaud, hwave⟩ := cacheLineFillDev_fills hc hclu hmemc hready hreq hfill hnext hfree
    have hpar : (cacheLineFillDev c line s.dev).par = s.dev.par := by simp
    have hmix : (cacheLineFillDev c line s.dev).mix = s.dev.mix := by simp
    rw [Dev.clu_of_upd_same hclus hlen]
    refine ⟨List.mem_append_right _ List.mem_cons_self, fun q hq => ?_, fun l hl hpin => lineFilled_keeps_pinned hl hpin,
      pinsOf_of_eq hvaud hpar c, fun k hk => Dev.clu_of_upd_ne hclus hk, hwave, hpar, hmix⟩
    simpa using (List.mem_filter.mp hq).2
  case borrowed =>
    rw [yields_devNext (f := cacheLineFillDev c line) _ rfl, cacheLineFillDev_waits hc hclu hmemc hready hreq hfill hnext hborrowed]
    rfl
  case noRequest => exact devNext_same (cacheLineFillDev_noRequest h)
  case inval =>
    rw [yields_hostNext (f := waveCacheInvalDev c v) _ rfl hturn, waveCacheInvalDev_of_set hc hclu hv, Dev.clu_modClu_same _ _ _ hlen]
    refine ⟨fun l hl => (List.mem_filter.mp hl).2, fun l hl hpin => ?_, fun k hk => Dev.clu_of_upd_ne rfl hk, rfl, rfl⟩
    have hkept : l ∈ (unpinnedGone s.dev c (s.dev.clu c)).lines := List.mem_filter.mpr ⟨hl, hpin⟩
    exact ⟨hkept, List.mem_map_of_mem hkept⟩
  case unpins =>
    exact congrArg (fun d => Host.Outcome.next { s with dev := d }) (pinnedLineInvalDev_of_unpinned hc hwaits hfree)
  case pinned => exact devNext_same (pinnedLineInvalDev_of_pinned hpin)
  case burst =>
    rw [yields_devNext (f := windowFillDev) _ rfl, windowFillDev_arrives (winFilling_of hmemc hready hdir hend hroom) haddr hlane,
      fillWords_eq_map haddr]
    refine ⟨by simp, List.take_left, fun k hk => ?_, rfl, rfl, rfl, hostMoved_regs _ s.dev, rfl, hostMoved_mem _ s.dev⟩
    simp [hk]
  case within =>
    have hnone := Lane.over_of_le hle
    exact ⟨hostLane_of_over_zero hnone, movOver_hostMoved n d, hostMoved_lead_of_over_zero hnone,
      fun hfresh => Lane.move_of_fresh hfresh hle⟩
  case beyond => exact hostLane_of_none_remain (Lane.over_pos hfresh hn hover) hrest
  case noRoom => exact devNext_same (windowFillDev_noRoom h)
  case drains =>
    rw [yields_devNext (f := windowDrainDev) _ rfl, windowDrainDev_issues hmemc hready hwr hlane]
    refine ⟨by simp, fun k hk hen => ?_, fun b hb => ?_, hostMoved_mem_of_wave (drainPut_mem a v be pack _), by simp⟩
    · exact (hostMoved_wave8 _ _ _).trans (drainPut_wave8_enabled a v be pack _ hk hen)
    · exact (hostMoved_wave8 _ _ _).trans (drainPut_wave8_other a v be pack _ hb)
  case drained => exact devNext_same (windowDrainDev_nil hwr)
  case ready => exact congrArg (fun d => Host.Outcome.next { s with dev := d }) (if_pos hmemc)

end Sys2Proof.Machine
end

section
/-! PROOF. The end of an envelope's segment, the restart of global LFOs, and a voice cell's quench switch, overload and bias fault
(R234, R242, R267, R272, R280). -/

namespace Sys2Proof.Machine

open Sys2Proof

/-! ### The end of a segment (R234) -/

theorem envSegmentEndDev_of_due {d : Dev} {v env : Nat} {t : Nat × Nat × Nat}
    (h : (d.vaud v).segEnds.find? (fun t => t.2.1 == env && efReached d.now t.1) = some t) :
    envSegmentEndDev v env d =
      d.modVaud v (fun x => { x with segs := upd x.segs env (fun _ => t.2.2), segEnds := x.segEnds.erase t }) := by
  simp only [envSegmentEndDev, h]

theorem envSegmentEndDev_of_none {d : Dev} {v env : Nat} (h : (d.vaud v).segEnds = []) : envSegmentEndDev v env d = d := by
  simp only [envSegmentEndDev, h, List.find?_nil]

/-! ### Restarts of global LFOs (R242) -/

/-- Short of the EF counter's end, the next CF boundary lies less than 4 EF on. -/
theorem cfAtOrAfter_bounds {e : Nat} (h : e + 3 < efWrap) :
    cfAtOrAfter e % 4 = 0 ∧ e ≤ cfAtOrAfter e ∧ cfAtOrAfter e < e + 4 := by
  have hnowrap : cfAtOrAfter e = e + (4 - e % 4) % 4 := Nat.mod_eq_of_lt (by omega)
  omega

theorem glfoBoundary_bounds {d : Dev} (h : d.now + 8 < efWrap) :
    glfoBoundary d % 4 = 0 ∧ d.now + 4 ≤ glfoBoundary d ∧ glfoBoundary d < d.now + 8 := by
  have hnowrap : efAdd d.now 4 = d.now + 4 := Nat.mod_eq_of_lt (by omega)
  rw [glfoBoundary, hnowrap]
  exact cfAtOrAfter_bounds (by omega)

/-- Of the audio unit a restart touches the named LFOs alone, whether or not the master passes it on (R540). -/
theorem glfoRestartDev_aud {d : Dev} (v : Word) (hon : d.isOn Dom.ctrl = true) :
    (glfoRestartDev v d).aud = (glfoRestartAt (v.bits 15 0) (glfoBoundary d) d).aud := by
  rw [glfoRestartDev, if_pos hon]
  dsimp only
  split
  · rfl
  · simp

theorem glfoRestartDev_at {d : Dev} (v : Word) (hon : d.isOn Dom.ctrl = true) {g : Nat} (hg : g < 16) :
    at_ (glfoRestartDev v d).aud.glfo g GLfo.reset =
      if v.getLsbD g then { at_ d.aud.glfo g GLfo.reset with restart := some (glfoBoundary d) } else at_ d.aud.glfo g GLfo.reset := by
  have hnamed : (v.bits 15 0).testBit g = v.getLsbD g := by simp [Word.testBit_bits, hg]
  rw [glfoRestartDev_aud v hon, glfoRestartAt_at _ _ _ hg, hnamed]

/-! ### A voice cell's tile and its cluster's registers -/

theorem Dev.tile_modTile_same {d : Dev} {v : Nat} (f : Tile → Tile) (h : v < d.aud.tiles.length) :
    (d.modTile v f).tile v = f (d.tile v) :=
  (at_upd _ _ _ _ _ h).trans (if_pos rfl)

theorem Dev.tile_modTile_ne {d : Dev} {u v : Nat} (f : Tile → Tile) (h : u ≠ v) : (d.modTile v f).tile u = d.tile u :=
  at_upd_ne _ _ _ h

theorem cluIrq_of_on {c : Nat} {d : Dev} (reg n : Nat) (hon : d.cluOn c = true) : cluIrq c reg n d = d.putFlag (cluReg c reg) n true :=
  if_pos hon

/-! ### The quench switch (R267) -/

/-- A tile whose quench switch has opened: the ADC's loop and its run start from zero, if the switch was closed. -/
def switchOpened (x : Tile) : Tile :=
  if x.closed then { x with closed := false, err := 0, err2 := 0, run := 0, declared := false } else x

theorem quenchSwitchOpenDev_eq {v : Nat} (d : Dev) (hv : v < 256) : quenchSwitchOpenDev v d = d.modTile v switchOpened := if_pos hv

theorem switchOpened_of_open {x : Tile} (h : x.closed = false) : switchOpened x = x := by simp [switchOpened, h]

theorem switchOpened_closed (x : Tile) : (switchOpened x).closed = false := by
  cases h : x.closed
  · rw [switchOpened_of_open h, h]
  · simp [switchOpened, h]

/-! ### Overload and bias fault (R272, R280) -/

/-- The 64th full-scale code of a run is an overload: with OVL_RESET the loop and the run start again, and without it the run
goes on as a declared one. -/
theorem ovlRun_sixtyFourth {x : Tile} {q : Int} (reset : Bool) (hq : q = 4 ∨ q = -4) (hrun : x.run = 63) (hnew : x.declared = false) :
    ovlRun reset q x =
      if reset then { x with run := 0, declared := false, err := 0, err2 := 0, ovlDue := x.ovlDue + 1 }
      else { x with run := 64, declared := true, ovlDue := x.ovlDue + 1 } := by
  have hfull : ¬ q.natAbs ≠ 4 := by omega
  rw [ovlRun, if_neg hfull, if_pos (by simp [hrun, hnew]), hrun]

/-- A device whose cell v has one overload fewer to declare. -/
def overloadTaken (v : Nat) (d : Dev) : Dev := d.modTile v (fun x => { x with ovlDue := x.ovlDue - 1 })

section
variable {d : Dev} {v : Nat}

theorem adcOverloadDev_of_due (hv : v < 256) (hdue : 0 < (d.tile v).ovlDue) (hon : d.cluOn (cluOf v) = true) :
    adcOverloadDev v d =
      (((overloadTaken v d).putFlag (cluReg (cluOf v) Reg.CLU_CELL_IRQ_STAT) 0 true).bump
        (cluReg (cluOf v) Reg.CLU_CNT_ADC_OVL)).putFlag (cluReg (cluOf v) (Reg.CLU_CELL_STAT (v % 16))) 8 true := by
  have htaken : cluIrq (cluOf v) Reg.CLU_CELL_IRQ_STAT 0 (overloadTaken v d) =
      (overloadTaken v d).putFlag (cluReg (cluOf v) Reg.CLU_CELL_IRQ_STAT) 0 true := cluIrq_of_on _ _ hon
  rw [adcOverloadDev, if_pos ⟨hv, hdue⟩, ← htaken]
  rfl

theorem adcOverloadDev_none (h : (d.tile v).ovlDue = 0) : adcOverloadDev v d = d := if_neg (by simp [h])

/-- The three registers that show an overload have addresses of their own. -/
theorem overloadRegs_ne (c t : Nat) : cluReg c Reg.CLU_CELL_IRQ_STAT ≠ cluReg c Reg.CLU_CNT_ADC_OVL ∧
    cluReg c Reg.CLU_CELL_IRQ_STAT ≠ cluReg c (Reg.CLU_CELL_STAT t) ∧
    cluReg c Reg.CLU_CNT_ADC_OVL ≠ cluReg c (Reg.CLU_CELL_STAT t) := by
  simp only [ne_eq, cluReg_inj, Reg.CLU_CELL_IRQ_STAT, Reg.CLU_CNT_ADC_OVL, Reg.CLU_CELL_STAT]
  omega

/-- A declared overload is shown by its cluster's interrupt status and its cell's status, and counted. -/
theorem adcOverloadDev_shows (hv : v < 256) (hdue : 0 < (d.tile v).ovlDue) (hon : d.cluOn (cluOf v) = true) :
    (adcOverloadDev v d).flag (cluReg (cluOf v) Reg.CLU_CELL_IRQ_STAT) 0 = true ∧
      (adcOverloadDev v d).flag (cluReg (cluOf v) (Reg.CLU_CELL_STAT (v % 16))) 8 = true ∧
      (adcOverloadDev v d).fld (cluReg (cluOf v) Reg.CLU_CNT_ADC_OVL) 31 0 =
        min (d.fld (cluReg (cluOf v) Reg.CLU_CNT_ADC_OVL) 31 0 + 1) (2 ^ 32 - 1) := by
  obtain ⟨hirqCnt, hirqStat, hcntStat⟩ := overloadRegs_ne (cluOf v) (v % 16)
  rw [adcOverloadDev_of_due hv hdue hon]
  refine ⟨?_, Dev.flag_putFlag_same _ _ _ _ (by decide), ?_⟩
  · rw [Dev.flag, Dev.reg_putFlag_ne _ _ _ _ _ hirqStat, Dev.reg_bump_ne _ _ _ hirqCnt]
    exact Dev.flag_putFlag_same _ _ _ _ (by decide)
  · rw [Dev.fld, Dev.reg_putFlag_ne _ _ _ _ _ hcntStat]
    refine (Dev.fld_bumpFld _ _ _ _ _ (by decide) (by decide)).trans ?_
    rw [Dev.fld, Dev.reg_putFlag_ne _ _ _ _ _ hirqCnt.symm]
    rfl

theorem biasFaultDev_of_on (hv : v < 256) (hon : d.cluOn (cluOf v) = true) :
    biasFaultDev v d = d.putFlag (cluReg (cluOf v) Reg.CLU_CELL_IRQ_STAT) 2 true := by
  rw [biasFaultDev, if_pos hv, cluIrq_of_on _ _ hon]

end

/-! ### The statement -/

/-- Settles O24: each command by the case of its function above, and an overload by the 64th code of its run. -/
theorem envelopeLfoAndCellEvents : Obligations.EnvelopeLfoAndCellEvents := by
  refine ⟨fun s v e t h => devNext_of_eq (envSegmentEndDev_of_due h), fun s v e h => devNext_same (envSegmentEndDev_of_none h),
    fun s w hon hturn hwrap => ?restart, fun s v hv hlen => ?opens, fun s v hv hlen hdue hon => ?overload,
    fun x q r hq hrun hnew => ?run, fun s v h => devNext_same (adcOverloadDev_none h), fun s v hv hon => ?bias⟩
  case restart =>
    rw [yields_hostNext (f := glfoRestartDev w) _ rfl hturn]
    refine ⟨fun g hg hnamed => ⟨glfoBoundary s.dev, ?_, glfoBoundary_bounds hwrap⟩, fun g hg hother => ?_,
      by simp, by simp, by simp⟩
    · rw [glfoRestartDev_at w hon hg, if_pos hnamed]
    · rw [glfoRestartDev_at w hon hg, hother]
      rfl
  case opens =>
    rw [yields_devNext (f := quenchSwitchOpenDev v) _ rfl, quenchSwitchOpenDev_eq _ hv, Dev.tile_modTile_same _ hlen]
    exact ⟨switchOpened_closed _, switchOpened_of_open, fun u hu => Dev.tile_modTile_ne _ hu, rfl, rfl⟩
  case overload =>
    rw [yields_devNext (f := adcOverloadDev v) _ rfl]
    obtain ⟨hirq, hstat, hcnt⟩ := adcOverloadDev_shows hv hdue hon
    have htile : (adcOverloadDev v s.dev).tile v = { s.dev.tile v with ovlDue := (s.dev.tile v).ovlDue - 1 } := by
      rw [adcOverloadDev_of_due hv hdue hon]
      exact Dev.tile_modTile_same _ hlen
    exact ⟨by rw [htile], hirq, hstat, hcnt, by simp, by simp⟩
  case run =>
    rw [ovlRun_sixtyFourth r hq hrun hnew]
    cases r with
    | true => exact ⟨rfl, fun _ => ⟨rfl, rfl, rfl⟩, nofun⟩
    | false => exact ⟨rfl, nofun, fun _ => ⟨rfl, rfl⟩⟩
  case bias =>
    rw [yields_devNext (f := biasFaultDev v) _ rfl, biasFaultDev_of_on hv hon]
    exact ⟨Dev.flag_putFlag_same _ _ _ _ (by decide), fun a ha => Dev.reg_putFlag_ne _ _ _ _ _ ha, rfl⟩

end Sys2Proof.Machine
end

section
/-! PROOF. The Skimmers' banks: swaps asked for in one cluster and in all, a fade's start and end, and coefficients written (R298,
R300 to R302, R305). -/

namespace Sys2Proof.Machine

open Sys2Proof

/-! ### What a cluster's banks refuse (R300, R302) -/

/-- The registers in which a cluster shows what its banks have refused. -/
def refusalRegs (c : Nat) : List Nat := [cluReg c Reg.CLU_SKM_IRQ_STAT, cluReg c Reg.CLU_CNT_SKM_REJ]

/-- A swap or a coefficient refused: counted, and shown in bit n of the status. -/
def skmRefused (c n : Nat) (d : Dev) : Dev := cluIrq c Reg.CLU_SKM_IRQ_STAT n (cluBump c Reg.CLU_CNT_SKM_REJ 1 d)

theorem refusalRegs_disjoint {j k a : Nat} (h : j ≠ k) (ha : a ∈ refusalRegs k) : a ∉ refusalRegs j := by
  simp only [refusalRegs, List.mem_cons, List.not_mem_nil, or_false, cluReg, Reg.CLU_SKM_IRQ_STAT, Reg.CLU_CNT_SKM_REJ] at ha ⊢
  omega

theorem coefReg_notMem_refusalRegs {c i : Nat} (bank : Bool) (hi : i < 32) : coefReg c bank i ∉ refusalRegs c := by
  cases bank <;>
    simp only [refusalRegs, coefReg, List.mem_cons, List.not_mem_nil, or_false, cluReg_inj, Reg.CLU_SKM_IRQ_STAT,
      Reg.CLU_CNT_SKM_REJ, Reg.CLU_SKM_COEFA, Reg.CLU_SKM_COEFB, if_true, if_false, Bool.false_eq_true] <;>
    omega

section
variable {c n : Nat} {d : Dev}

theorem skmRefused_of_on (hon : d.cluOn c = true) :
    skmRefused c n d = (d.bump (cluReg c Reg.CLU_CNT_SKM_REJ)).putFlag (cluReg c Reg.CLU_SKM_IRQ_STAT) n true := if_pos hon

theorem skmRefused_eq (hon : d.cluOn c = true) : skmRefused c n d = { d with regs := (skmRefused c n d).regs } := by
  rw [skmRefused_of_on hon]
  rfl

theorem skmRefused_regsOnly (c n : Nat) (d : Dev) : RegsOnly (refusalRegs c) d (skmRefused c n d) :=
  have hcount : RegsOnly (refusalRegs c) d (cluBump c Reg.CLU_CNT_SKM_REJ 1 d) := .bumpBy d 1 (by simp [refusalRegs])
  hcount.trans (.ite (.putFlag _ n true (by simp [refusalRegs])) (.refl _ _))

theorem skmRefused_flag (hn : n < 32) (hon : d.cluOn c = true) :
    (skmRefused c n d).flag (cluReg c Reg.CLU_SKM_IRQ_STAT) n = true := by
  rw [skmRefused_of_on hon]
  exact Dev.flag_putFlag_same _ _ _ _ hn

theorem skmRefused_count (c n : Nat) (d : Dev) : (skmRefused c n d).fld (cluReg c Reg.CLU_CNT_SKM_REJ) 31 0 =
    min (d.fld (cluReg c Reg.CLU_CNT_SKM_REJ) 31 0 + 1) (2 ^ 32 - 1) := by
  have hne : cluReg c Reg.CLU_CNT_SKM_REJ ≠ cluReg c Reg.CLU_SKM_IRQ_STAT := by simp
  rw [Dev.fld, skmRefused, cluIrq, Dev.reg_setIrq_ne _ _ _ _ _ hne]
  exact Dev.fld_bumpFld _ _ _ _ _ (by decide) (by decide)

end

/-! ### A swap asked for (R298, R300) -/

/-- What a request makes of cluster c between d and e: due at release k + 2, held behind the swap before it, or refused. -/
def SwapAsked (d : Dev) (c : Nat) (e : Dev) : Prop :=
  ((d.clu c).held = none → fading d c = false → (d.clu c).swapAt = none → (e.clu c).swapAt = some (efAdd d.now 2)) ∧
  ((d.clu c).held = none → (fading d c = true ∨ (d.clu c).swapAt.isSome = true) →
    (e.clu c).held = some (efAdd d.now 2) ∧ (e.clu c).swapAt = (d.clu c).swapAt) ∧
  ((d.clu c).held.isSome = true → e.clu c = d.clu c ∧ e.flag (cluReg c Reg.CLU_SKM_IRQ_STAT) 3 = true ∧
    e.fld (cluReg c Reg.CLU_CNT_SKM_REJ) 31 0 = min (d.fld (cluReg c Reg.CLU_CNT_SKM_REJ) 31 0 + 1) (2 ^ 32 - 1))

section
variable {c : Nat} {d : Dev}

theorem swapRequest_of_held (h : (d.clu c).held.isSome = true) : swapRequest c d = skmRefused c 3 d := if_pos h

theorem swapRequest_of_busy (hheld : (d.clu c).held = none) (h : fading d c = true ∨ (d.clu c).swapAt.isSome = true) :
    swapRequest c d = d.modClu c (fun x => { x with held := some (efAdd d.now 2) }) := by
  simp [swapRequest, hheld, h]

theorem swapRequest_of_idle (hheld : (d.clu c).held = none) (hfade : fading d c = false) (hswap : (d.clu c).swapAt = none) :
    swapRequest c d = d.modClu c (fun x => { x with swapAt := some (efAdd d.now 2) }) := by
  simp [swapRequest, hheld, hfade, hswap]

theorem swapRequest_asked (hlen : c < d.aud.clus.length) (hon : d.cluOn c = true) : SwapAsked d c (swapRequest c d) := by
  refine ⟨fun hheld hfade hswap => ?idle, fun hheld hbusy => ?busy, fun hheld => ?refused⟩
  case idle => rw [swapRequest_of_idle hheld hfade hswap, Dev.clu_modClu_same _ _ _ hlen]
  case busy =>
    rw [swapRequest_of_busy hheld hbusy, Dev.clu_modClu_same _ _ _ hlen]
    exact ⟨rfl, rfl⟩
  case refused =>
    rw [swapRequest_of_held hheld]
    exact ⟨Dev.clu_of_aud (by simp [skmRefused]) c, skmRefused_flag (by decide) hon, skmRefused_count c 3 d⟩

/-- A request is refused, or changes its own cluster alone. -/
theorem swapRequest_cases (c : Nat) (d : Dev) :
    swapRequest c d = skmRefused c 3 d ∨ ∃ f : Clu → Clu, swapRequest c d = d.modClu c f := by
  unfold swapRequest
  dsimp only
  split_ifs
  · exact .inl rfl
  · exact .inr ⟨_, rfl⟩
  · exact .inr ⟨_, rfl⟩

theorem swapRequest_clu_ne {j k : Nat} (h : k ≠ j) (d : Dev) : (swapRequest j d).clu k = d.clu k := by
  obtain he | ⟨f, he⟩ := swapRequest_cases j d
  · exact Dev.clu_of_aud (by simp [he, skmRefused]) k
  · rw [he]
    exact Dev.clu_of_upd_ne rfl h

theorem swapDev_of_swap {v : Word} (hc : c < 16) (hon : d.cluOn c = true) (hswap : v.getLsbD 16 = true) (hone : v.getLsbD 17 = false) :
    swapDev c v d = swapRequest c d :=
  if_pos (by rw [decide_eq_true hc, hon, hswap, hone]; rfl)

end

/-! ### A swap asked for in every cluster (R301) -/

/-- A loop whose other rounds leave a view as it is: what the view shows in the end is the work of round k, on something that
shows what was there before. -/
theorem forUpTo_round {α β : Type} (view : α → β) {f : Nat → α → α} {n k : Nat} (hk : k < n)
    (h : ∀ j x, j ≠ k → view (f j x) = view x) (x : α) : ∃ y, view y = view x ∧ view (forUpTo n f x) = view (f k y) := by
  have hbefore (m : Nat) (hm : m ≤ k) : view (forUpTo m f x) = view x := by
    induction m with
    | zero => rfl
    | succ m ih => rw [forUpTo_succ, h m _ (by omega), ih (by omega)]
  induction n with
  | zero => omega
  | succ n ih =>
    rw [forUpTo_succ]
    obtain rfl | hne := eq_or_ne n k
    · exact ⟨_, hbefore n le_rfl, rfl⟩
    · rw [h n _ hne]
      exact ih (by omega)

/-- What a request in cluster c goes by, and what it can change. -/
def bankView (c : Nat) (d : Dev) : Clu × Word × Word × Nat × Nat × Power :=
  (d.clu c, d.reg (cluReg c Reg.CLU_SKM_IRQ_STAT), d.reg (cluReg c Reg.CLU_CNT_SKM_REJ), d.aud.clus.length, d.now, d.pwr)

/-- SWAP_ALL at cluster c. -/
def swapIfOn (c : Nat) (d : Dev) : Dev := if d.cluOn c then swapRequest c d else d

theorem swapIfOn_of_on {c : Nat} {d : Dev} (hon : d.cluOn c = true) : swapIfOn c d = swapRequest c d := if_pos hon

theorem swapIfOn_of_off {c : Nat} {d : Dev} (hoff : d.cluOn c = false) : swapIfOn c d = d := if_neg (by simp [hoff])

/-- Whatever a request leaves as it is, SWAP_ALL at that cluster leaves too. -/
theorem swapIfOn_keeps {α : Type} (p : Dev → α) {c : Nat} {d : Dev} (h : p (swapRequest c d) = p d) : p (swapIfOn c d) = p d := by
  unfold swapIfOn
  split
  · exact h
  · rfl

theorem swapRequest_bankView_ne {j k : Nat} (h : j ≠ k) (d : Dev) : bankView k (swapRequest j d) = bankView k d := by
  have hregs : RegsOnly (refusalRegs j) d (swapRequest j d) := by
    obtain he | ⟨f, he⟩ := swapRequest_cases j d
    · exact he ▸ skmRefused_regsOnly j 3 d
    · exact .of_regs (by rw [he]; rfl)
  have hlen : (swapRequest j d).aud.clus.length = d.aud.clus.length := by
    obtain he | ⟨f, he⟩ := swapRequest_cases j d
    · simp [he, skmRefused]
    · rw [he]
      exact upd_length ..
  have hreg {a : Nat} (ha : a ∈ refusalRegs k) : (swapRequest j d).reg a = d.reg a := hregs a (refusalRegs_disjoint h ha)
  rw [bankView, swapRequest_clu_ne h.symm, hreg (by simp [refusalRegs]), hreg (by simp [refusalRegs]), hlen]
  simp [bankView, Dev.now]

theorem SwapAsked.of_bankView {c : Nat} {d d' e e' : Dev} (h : SwapAsked d c e) (hd : bankView c d = bankView c d')
    (he : bankView c e' = bankView c e) : SwapAsked d' c e' := by
  simp only [bankView, Prod.mk.injEq] at hd he
  obtain ⟨hclu, -, hcnt, -, hnow, -⟩ := hd
  obtain ⟨hclu', hirq', hcnt', -⟩ := he
  simpa only [SwapAsked, fading, Dev.flag, Dev.fld, hclu, hcnt, hnow, hclu', hirq', hcnt'] using h

section
variable {c k : Nat} {v : Word} {d : Dev}

theorem swapAllDev_of_all (hc : c < 16) (hon : d.cluOn c = true) (hall : v.getLsbD 17 = true) :
    swapAllDev c v d = forUpTo 16 swapIfOn d := if_pos (by simp [hc, hon, hall])

theorem swapIfOn_loop_asked (hk : k < 16) (hlen : k < d.aud.clus.length) (hon : d.cluOn k = true) :
    SwapAsked d k (forUpTo 16 swapIfOn d) := by
  obtain ⟨y, hy, hend⟩ := forUpTo_round (bankView k) hk (fun _ x hj => swapIfOn_keeps _ (swapRequest_bankView_ne hj x)) d
  have hparts := hy
  simp only [bankView, Prod.mk.injEq] at hparts
  obtain ⟨-, -, -, hylen, -, hypwr⟩ := hparts
  have hyon : y.cluOn k = true := (Dev.isOn_of_pwr d y hypwr _).trans hon
  rw [swapIfOn_of_on hyon] at hend
  exact (swapRequest_asked (hylen ▸ hlen) hyon).of_bankView hy hend

theorem swapIfOn_loop_off (n : Nat) (hoff : d.cluOn k = false) : (forUpTo n swapIfOn d).clu k = d.clu k := by
  induction n with
  | zero => rfl
  | succ n ih =>
    rw [forUpTo_succ]
    obtain rfl | hne := eq_or_ne k n
    · have hpwr : (forUpTo k swapIfOn d).pwr = d.pwr := forUpTo_pwr _ _ _ fun _ _ => swapIfOn_keeps Dev.pwr (by simp)
      rw [swapIfOn_of_off ((Dev.isOn_of_pwr d _ hpwr _).trans hoff), ih]
    · rw [swapIfOn_keeps (fun e => e.clu k) (swapRequest_clu_ne hne _), ih]

end

/-! ### A fade's start and end (R298, R305) -/

/-- A cluster whose fade to the other bank starts, for the pending swap or for the held one. -/
def fadeStarted (log : Nat) (wasHeld : Bool) (x : Clu) : Clu :=
  { x with
    fade := some { pos := 0, log := log, old := x.active }, active := !x.active
    swapAt := if wasHeld then x.swapAt else none, held := if wasHeld then none else x.held }

section
variable {c : Nat} {d : Dev}

theorem fadeStartDev_of_ready {b : Bool} (hc : c < 16) (hact : d.active c = true) (haudio : d.frame.audio = true)
    (hwas : (d.clu c).wasActive = true) (hready : swapReady d c = some b) :
    fadeStartDev c d = d.modClu c (fadeStarted (fadeLog d c) b) := by
  rw [fadeStartDev, if_neg (by simp [hc, hact, haudio, hwas]), hready]
  rfl

theorem fadeStartDev_of_waits (h : swapReady d c = none ∨ d.active c = false ∨ d.frame.audio = false ∨ (d.clu c).wasActive = false) :
    fadeStartDev c d = d := by
  rcases h with hnone | hguard
  · rw [fadeStartDev, hnone]
    exact ite_self d
  · exact if_pos (by rcases hguard with h | h | h <;> simp [h])

/-- A fade that starts runs, whatever its length: it has 2^F EF, and stands at the first. -/
theorem fading_of_fadeStarted {e : Dev} {log : Nat} {b : Bool} {x : Clu} (h : e.clu c = fadeStarted log b x) : fading e c = true := by
  simp [fading, h, fadeStarted]

theorem fadeEndDev_of_ended (hc : c < 16) (hfade : (d.clu c).fade.isSome = true) (hend : fading d c = false) :
    fadeEndDev c d = d.modClu c (fun x => { x with fade := none }) := if_pos (by simp [hc, hfade, hend])

theorem fadeEndDev_of_fading (h : fading d c = true) : fadeEndDev c d = d := if_neg (by simp [h])

end

/-! ### A coefficient written (R302) -/

section
variable {c i : Nat} {bank : Bool} {v : Word} {d : Dev}

theorem skimmerCoefWriteDev_of_idle (hc : c < 16) (hi : i < 32) (hon : d.cluOn c = true) (hidle : bankLive d c bank = false) :
    skimmerCoefWriteDev c bank i v d = d.putReg (coefReg c bank i) (BitVec.ofNat 32 (v.bits 19 0)) := by
  simp [skimmerCoefWriteDev, coefWrite, hc, hi, hon, hidle]

theorem skimmerCoefWriteDev_of_live (hc : c < 16) (hi : i < 32) (hon : d.cluOn c = true) (hlive : bankLive d c bank = true) :
    skimmerCoefWriteDev c bank i v d = skmRefused c 2 d := by
  simp [skimmerCoefWriteDev, coefWrite, skmRefused, hc, hi, hon, hlive]

end

/-! ### The statement -/

/-- Settles O25: each command by the case of its function above, and SWAP_ALL by the round of each cluster. -/
theorem skimmerBanksSwapAndFade : Obligations.SkimmerBanksSwapAndFade := by
  refine ⟨fun s c v hc hlen hon hswap hone hturn => ?swap, fun s c v hc hlen hon hall hturn => ?swapAll,
    fun s c b hc hlen hact haudio hwas hready => ?starts, fun s c h => devNext_same (fadeStartDev_of_waits h),
    fun s c hc hfade hend => devNext_of_eq (fadeEndDev_of_ended hc hfade hend), fun s c h => devNext_same (fadeEndDev_of_fading h),
    fun s c i bank v hc hi hon hturn => ⟨fun hidle => ?stored, fun hlive => ?ignored⟩⟩
  case swap =>
    rw [yields_hostNext (f := swapDev c v) _ rfl hturn, swapDev_of_swap hc hon hswap hone]
    exact ⟨swapRequest_asked hlen hon, fun k hk => swapRequest_clu_ne hk _, by simp, by simp, by simp⟩
  case swapAll =>
    rw [yields_hostNext (f := swapAllDev c v) _ rfl hturn]
    refine ⟨?_, ?_, by simp, by simp⟩ <;> rw [swapAllDev_of_all hc hon hall]
    · exact fun k hk hkon => swapIfOn_loop_asked hk (hlen ▸ hk) hkon
    · exact fun k hoff => swapIfOn_loop_off 16 hoff
  case starts =>
    rw [yields_devNext (f := fadeStartDev c) _ rfl, fadeStartDev_of_ready hc hact haudio hwas hready]
    have hclu := Dev.clu_modClu_same s.dev c (fadeStarted (fadeLog s.dev c) b) hlen
    exact ⟨by rw [hclu]; rfl, by rw [hclu]; rfl, fading_of_fadeStarted hclu, rfl, rfl, rfl⟩
  case stored =>
    exact (hostNext_turn _ hturn).trans (congrArg (fun d => Host.Outcome.next { s with dev := d })
      (skimmerCoefWriteDev_of_idle hc hi hon hidle))
  case ignored =>
    rw [yields_hostNext (f := skimmerCoefWriteDev c bank i v) _ rfl hturn, skimmerCoefWriteDev_of_live hc hi hon hlive]
    exact ⟨skmRefused_regsOnly c 2 _ _ (coefReg_notMem_refusalRegs bank hi), skmRefused_flag (by decide) hon,
      skmRefused_count c 2 _, skmRefused_eq hon⟩

end Sys2Proof.Machine
end

section
/-! SUPPORT. The bytes of a stretch written on port V, and a host's write that leaves the device as it is. -/

namespace Sys2Proof.Machine

open Sys2Proof

theorem hostNext_same {s : State} {f : Dev → Dev} (h : f s.dev = s.dev) : hostNext s f = .next s := by
  rw [hostNext, State.asHost, State.onDev, h, ite_self]

theorem Dev.psBytes_of_mem {d e : Dev} (h : e.mem = d.mem) (a n : Nat) : e.psBytes a n = d.psBytes a n := by
  rw [Dev.psBytes, h, Dev.psBytes]

/-- A stretch written on port V reads as written, where no address is reserved and port H has landed no byte of it. -/
theorem Dev.psBytes_psV (d : Dev) (a : Nat) (bs : List Byte)
    (h : ∀ b, a ≤ b → b < a + bs.length → psReserved b = false ∧ d.keptByH b = false) : (d.psV a bs).psBytes a bs.length = bs := by
  apply List.ext_getElem (cellBytes_length _ _ _ _)
  intro k _ hk
  obtain ⟨hres, hkept⟩ := h (a + k) (by omega) (by omega)
  have hbyte : (d.psV a bs).ps8 (a + k) = bs[k].toNat := by
    rw [Dev.ps8_psV, if_pos ⟨by omega, by omega, hres, hkept⟩, Nat.add_sub_cancel_left, List.getD_eq_getElem _ _ hk]
  simpa [Dev.psBytes, cellBytes] using BitVec.eq_of_toNat_eq hbyte

end Sys2Proof.Machine
end

section
/-! PROOF. Calibration: a measurement's result, the firmware's temperature readings, the queue of background runs, a run's start and
the record that it ends with (R319, R324, R326, R331 to R333, R338, R340, R341, R415). -/

namespace Sys2Proof.Machine

open Sys2Proof

/-! ### A run keeps its slot (R327 to R329) -/

theorem calRunOf_slot {d : Dev} {v : Nat} {r : CalRun} (h : calRunOf d v = some r) : r.slot = v := by
  simpa using List.find?_some h

@[simp] theorem measure_slot (fe start : Nat) (r : CalRun) : (measure fe start r).slot = r.slot := by
  simp only [measure, apply_ite CalRun.slot, ite_self]

@[simp] theorem nextStep_slot (fe start step : Nat) (r : CalRun) : (nextStep fe start step r).slot = r.slot := measure_slot ..

@[simp] theorem stepFails_slot (r : CalRun) (step : Nat) (keep : List Nat) : (stepFails r step keep).slot = r.slot := rfl

@[simp] theorem biasStep_slot (r : CalRun) : (biasStep r).slot = r.slot := by
  simp only [biasStep, apply_ite CalRun.slot, stepFails_slot, ite_self]

@[simp] theorem knotsDone_slot (r : CalRun) : (knotsDone r).slot = r.slot := by
  simp only [knotsDone, apply_ite CalRun.slot, stepFails_slot, ite_self]

@[simp] theorem onsetFound_slot (n : Nat) (r : CalRun) : (onsetFound n r).slot = r.slot := by
  simp only [onsetFound, apply_ite CalRun.slot, stepFails_slot, ite_self]

theorem offsetStep_slot (fe start : Nat) (re : Int) (r : CalRun) : (offsetStep fe start re r).slot = r.slot := by
  simp only [offsetStep, apply_ite CalRun.slot, nextStep_slot, stepFails_slot, measure_slot, ite_self]

theorem knotStep_slot (fe start : Nat) (re im : Int) (r : CalRun) : (knotStep fe start re im r).slot = r.slot := by
  simp only [knotStep, apply_ite CalRun.slot, nextStep_slot, stepFails_slot, measure_slot, knotsDone_slot, ite_self]

theorem gainStep_slot (fe start : Nat) (re im : Int) (r : CalRun) : (gainStep fe start re im r).slot = r.slot := by
  simp only [gainStep, apply_ite CalRun.slot, nextStep_slot, stepFails_slot, measure_slot, ite_self]

theorem resStep_slot (fe start : Nat) (re im : Int) (r : CalRun) : (resStep fe start re im r).slot = r.slot := by
  simp only [resStep, apply_ite CalRun.slot, measure_slot, onsetFound_slot, ite_self]

theorem stepResult_slot (fe start : Nat) (re im : Int) (r : CalRun) : (stepResult fe start re im r).slot = r.slot := by
  simp only [stepResult, apply_ite CalRun.slot, offsetStep_slot, knotStep_slot, gainStep_slot, resStep_slot, ite_self]

theorem runStart_slot (d : Dev) (v : Nat) (asked : Bool) : (runStart d v asked).slot = v := by
  simp only [runStart, nextStep_slot, biasStep_slot, apply_ite CalRun.slot, ite_self]

/-- A change of one slot's run that keeps its slot leaves the list of slots under calibration. -/
theorem modRun_slots (d : Dev) (v : Nat) (f : CalRun → CalRun) (h : ∀ r, (f r).slot = r.slot) :
    (d.modRun v f).cal.runs.map CalRun.slot = d.cal.runs.map CalRun.slot := by
  simp only [Dev.modRun, Dev.modCal, List.map_map]
  refine List.map_congr_left fun r _ => ?_
  rw [Function.comp_apply, apply_ite CalRun.slot, h, ite_self]

/-! ### A measurement's result (R319, R341) -/

/-- Has the window of a run's measurement passed, in one of the steps that measure (R319, R327)? -/
def MeasurementReady (d : Dev) (r : CalRun) : Prop :=
  d.timerRuns = true ∧ 2 ≤ r.step ∧ r.step ≤ 5 ∧ efReached d.now r.start = true ∧ r.settle + r.window + 4 ≤ efSince d.now r.start

/-- The results kept, slot v's newly so. -/
def Cal.keepResult (v : Nat) (p : Int × Int) (x : Cal) : Cal :=
  { x with res := x.res.filter (fun e => e.1 != v) ++ [(v, BitVec.ofInt 32 p.1, BitVec.ofInt 32 p.2)] }

section
variable {d : Dev} {v : Nat} {r : CalRun}

theorem measurementResultDev_of_ready (hrun : calRunOf d v = some r) (h : MeasurementReady d r) : measurementResultDev v d =
    (d.modCal (Cal.keepResult v (resultOf r))).modRun v (stepResult d.fe (efAdd d.now 1) (resultOf r).1 (resultOf r).2) := by
  obtain ⟨htimer, hlo, hhi, hstart, hwin⟩ := h
  simp only [measurementResultDev, hrun]
  exact if_neg (by simp [htimer, hlo, hhi, hstart, hwin])

theorem measurementResultDev_of_none (h : calRunOf d v = none) : measurementResultDev v d = d := by
  simp only [measurementResultDev, h]

theorem measurementResultDev_cal (hrun : calRunOf d v = some r) (h : MeasurementReady d r) :
    (v, BitVec.ofInt 32 (resultOf r).1, BitVec.ofInt 32 (resultOf r).2) ∈ (measurementResultDev v d).cal.res ∧
      (measurementResultDev v d).cal.runs.map CalRun.slot = d.cal.runs.map CalRun.slot ∧
      (measurementResultDev v d).cal.queue = d.cal.queue := by
  rw [measurementResultDev_of_ready hrun h]
  exact ⟨List.mem_append_right _ (List.mem_singleton_self _), modRun_slots _ v _ fun r => stepResult_slot .., rfl⟩

end

/-! ### The queue (R331, R338) -/

/-- The device with another queue of background runs. -/
def Dev.withCalQueue (d : Dev) (q : List (Nat × Bool)) : Dev := d.modCal (fun x => { x with queue := q })

section
variable {d : Dev} {v : Nat} {asked : Bool}

theorem calQueueOne_cases (v : Nat) (asked : Bool) (d : Dev) : ∃ q, calQueueOne v asked d = d.withCalQueue q := by
  unfold calQueueOne
  split
  · exact ⟨_, rfl⟩
  · exact ⟨d.cal.queue, rfl⟩

/-- Looking at the slots of a cluster changes the queue at most (R331). -/
theorem calQueueCluster_cases (c : Nat) (d : Dev) : ∃ q, calQueueCluster c d = d.withCalQueue q := by
  unfold calQueueCluster
  generalize 16 * c = base
  induction 16 with
  | zero => exact ⟨d.cal.queue, rfl⟩
  | succ n ih =>
    obtain ⟨q, hq⟩ := ih
    obtain ⟨q', hq'⟩ := calQueueOne_cases (base + n) false (d.withCalQueue q)
    exact ⟨q', by rw [forUpTo_succ, hq, hq']; rfl⟩

theorem calQueueOne_of_asked (hqueues : calQueues d = true) (hon : d.cluOn (cluOf v) = true)
    (hovr : d.flag (cluReg (cluOf v) (Reg.CLU_CELL_BIAS (v % 16))) 31 = false) (hhas : calHas d v = false) :
    calQueueOne v true d = d.withCalQueue (d.cal.queue ++ [(v, true)]) := if_pos (by simp [hqueues, hon, hovr, hhas])

theorem calQueueOne_of_has (h : calHas d v = true) : calQueueOne v asked d = d := if_neg (by simp [h])

/-- CAL_REQ changes nothing without GO, or for a slot that is queued or runs (R338). -/
theorem calReqDev_same {w : Word} (h : w.getLsbD 8 = false ∨ calHas d (w.bits 7 0) = true) : calReqDev w d = d := by
  unfold calReqDev
  rcases h with hgo | hhas
  · exact if_neg (Bool.eq_false_iff.mp hgo)
  · rw [calQueueOne_of_has hhas, ite_self]

end

/-! ### Temperature readings (R324) -/

/-- A cluster's reading passed on to its slices. -/
def Dev.passTemp (c : Nat) (d : Dev) : Dev :=
  { d with mgt := { d.mgt with passed := d.mgt.passed.set c (some (signed 16 (at_ d.mgt.temps c 0))) } }

theorem tempOf_of_mgt {d e : Dev} (h : e.mgt = d.mgt) (k : Nat) : tempOf e k = tempOf d k := by rw [tempOf, h, tempOf]

theorem tempOf_passTemp_same {d : Dev} {c : Nat} (h : c < d.mgt.passed.length) :
    tempOf (d.passTemp c) c = some (2 * signed 16 (at_ d.mgt.temps c 0)) := by
  simp [tempOf, Dev.passTemp, at_, h]

theorem tempOf_passTemp_ne {d : Dev} {c k : Nat} (h : k ≠ c) : tempOf (d.passTemp c) k = tempOf d k := by
  simp [tempOf, Dev.passTemp, at_, List.getD_eq_getElem?_getD, h.symm]

/-- The firmware passes the reading on, and then queues what it finds (R324, R331). -/
theorem temperatureUpdateDev_of_up {d : Dev} {c : Nat} (hc : c < 16) (hmgmt : d.isOn Dom.mgmt = true) (hmode : d.mgt.mode = 2)
    (hon : d.cluOn c = true) (hseen : d.mgt.tempSeen = true) :
    ∃ q, temperatureUpdateDev c d = (d.passTemp c).withCalQueue q := by
  obtain ⟨q, hq⟩ := calQueueCluster_cases c (d.passTemp c)
  exact ⟨q, (if_pos (by simp [hc, hmgmt, hmode, hon, hseen])).trans hq⟩

/-! ### A background run's start (R331, R496) -/

theorem underCal_of_mem {d : Dev} {v : Nat} {r : CalRun} (h : r ∈ d.cal.runs) (hslot : r.slot = v) : underCal d v = true := by
  rw [underCal, calRunOf, List.find?_isSome]
  exact ⟨r, h, by simp [hslot]⟩

/-- Slot v's run entered, and taken from the queue. -/
def Cal.enterRun (v : Nat) (r : CalRun) (x : Cal) : Cal :=
  { x with queue := x.queue.filter (fun e => e.1 != v), runs := x.runs ++ [r] }

section
variable {d : Dev} {v : Nat}

theorem backgroundRunStartDev_of_down (h : firmwareUp d = false) : backgroundRunStartDev v d = d := if_neg (by simp [h])

theorem backgroundRunStartDev_of_next (hup : firmwareUp d = true) (hcal : d.isOn Dom.cal = true) (hstage : d.stage = Stage.run)
    (htimer : d.timerRuns = true) (hgrant : calGranted d = true) (hnext : calNext d = some v) : backgroundRunStartDev v d =
      (d.modCal (Cal.enterRun v (runStart d v (d.cal.queue.any (fun e => e.1 == v && e.2))))).draw :=
  if_pos (by simp [hup, hcal, hstage, htimer, hgrant, hnext])

end

/-! ### The record of a run that ends (R326, R329, R330, R332) -/

theorem finalRecord_length (now : Nat) (fg : Bool) {r : CalRun} (h : r.work.length = 64) : (finalRecord now fg r).length = 64 := by
  simp [finalRecord, h]

/-- No calibration record lies in a reserved part of the store (R25, R154). -/
theorem psReserved_calRec {v b : Nat} (hv : v < 256) (hlo : calRec v ≤ b) (hhi : b < calRec v + 64) : psReserved b = false := by
  unfold calRec at hlo hhi
  rw [psReserved, Bool.or_eq_false_iff, decide_eq_false_iff_not, decide_eq_false_iff_not]
  omega

/-- Of the stores, a run that ends writes its record alone. -/
theorem runEnds_mem (fg : Bool) (r : CalRun) (d : Dev) :
    (runEnds fg r d).mem = (d.psV (calRec r.slot) (finalRecord d.now fg r)).mem := by
  unfold runEnds
  dsimp only
  split <;> simp

/-- No run of its slot is left. -/
theorem runEnds_runs (fg : Bool) (r : CalRun) (d : Dev) :
    (runEnds fg r d).cal.runs = d.cal.runs.filter (fun q => q.slot != r.slot) := by
  unfold runEnds
  dsimp only
  split <;> simp [Dev.modCal]

theorem underCal_of_filtered {d : Dev} {v : Nat} {l : List CalRun} (h : d.cal.runs = l.filter (fun q => q.slot != v)) :
    underCal d v = false := by
  simp [underCal, calRunOf, h]

/-! ### CAL_LAST (R340) -/

section
variable {outcome step slot : Nat} (d : Dev)

theorem calLast_fld (hi lo : Nat) : (calLast outcome step slot d).fld Reg.CAL_LAST hi lo =
    Word.bits (BitVec.ofNat 32 (outcome * 2 ^ 30 + step * 2 ^ 20 + slot)) hi lo := by
  rw [calLast, Dev.fld, Dev.reg_putReg_same]

theorem calLast_slot (hslot : slot < 256) : (calLast outcome step slot d).fld Reg.CAL_LAST 7 0 = slot := by
  rw [calLast_fld, Word.bits, BitVec.toNat_ofNat]
  omega

theorem calLast_outcome (hout : outcome < 4) (hstep : step < 16) (hslot : slot < 256) :
    (calLast outcome step slot d).fld Reg.CAL_LAST 31 30 = outcome := by
  rw [calLast_fld, Word.bits, BitVec.toNat_ofNat]
  omega

end

/-! ### A background run's end (R326, R332, R333, R340) -/

/-- A background run's record written, its end raised as an interrupt and noted in CAL_LAST. -/
def backgroundRunEnded (r : CalRun) (d : Dev) : Dev :=
  calLast (if r.failStep = 0 then 1 else 2) r.failStep r.slot ((runEnds false r d).setIrq Dom.cal Reg.CAL_IRQ_STAT 0)

section
variable {d : Dev} {v : Nat} {r : CalRun}

theorem backgroundRunCompleteDev_of_none (h : calRunOf d v = none) : backgroundRunCompleteDev v d = d := by
  simp only [backgroundRunCompleteDev, h]

/-- A run waits for the notes of its release: one of them may still choose its slot (R333). -/
theorem backgroundRunCompleteDev_of_unsettled (h : notesSettled d = false) : backgroundRunCompleteDev v d = d := by
  unfold backgroundRunCompleteDev
  split
  · rfl
  · exact if_neg (by simp [h])

theorem backgroundRunCompleteDev_of_done (hrun : calRunOf d v = some r) (hstep : r.step = 6) (hbg : d.cal.fgBusy = false)
    (htimer : d.timerRuns = true) (hnotes : notesSettled d = true) : backgroundRunCompleteDev v d = backgroundRunEnded r d := by
  simp only [backgroundRunCompleteDev, hrun]
  rw [if_pos ⟨hstep, by simp [hbg], htimer, hnotes⟩, backgroundRunEnded, calRunOf_slot hrun]

theorem backgroundRunEnded_mem (r : CalRun) (d : Dev) :
    (backgroundRunEnded r d).mem = (d.psV (calRec r.slot) (finalRecord d.now false r)).mem := by
  simp [backgroundRunEnded, runEnds_mem]

theorem backgroundRunEnded_free (r : CalRun) (d : Dev) : underCal (backgroundRunEnded r d) r.slot = false :=
  underCal_of_filtered (l := d.cal.runs) (by simp [backgroundRunEnded, runEnds_runs])

/-- The record reads as the run ends with it, but for bytes that port H has landed at the same release (R326, R415). -/
theorem backgroundRunEnded_record (hslot : r.slot < 256) (hwork : r.work.length = 64)
    (hclear : ∀ b, calRec r.slot ≤ b → b < calRec r.slot + 64 → d.keptByH b = false) :
    (backgroundRunEnded r d).psBytes (calRec r.slot) 64 = finalRecord d.now false r := by
  have hlen := finalRecord_length d.now false hwork
  have hbytes := d.psBytes_psV (calRec r.slot) (finalRecord d.now false r) fun b hlo hhi =>
    ⟨psReserved_calRec hslot hlo (hlen ▸ hhi), hclear b hlo (hlen ▸ hhi)⟩
  rwa [hlen, ← Dev.psBytes_of_mem (backgroundRunEnded_mem r d)] at hbytes

/-- Every byte of the store outside the record stays (R326). -/
theorem backgroundRunEnded_outside (hwork : r.work.length = 64) {b : Nat} (hb : b < calRec r.slot ∨ calRec r.slot + 64 ≤ b) :
    (backgroundRunEnded r d).ps8 b = d.ps8 b := by
  have hlen := finalRecord_length d.now false hwork
  rw [Dev.ps8_of_mem (backgroundRunEnded_mem r d), Dev.ps8_psV, if_neg (by omega)]

end

/-! ### The statement -/

/-- Settles O27: each command by the case of its function above; the end of a run by what it leaves in its record, in CAL_LAST and
among the runs. -/
theorem calibrationRunsOnFreeCells : Obligations.CalibrationRunsOnFreeCells := by
  refine ⟨fun s v r hrun htimer hlo hhi hstart hwin => ?result,
    fun s v h => ⟨devNext_same (measurementResultDev_of_none h), devNext_same (backgroundRunCompleteDev_of_none h)⟩,
    fun s c hc hlen hmgmt hmode hon hseen => ?temperature,
    fun s w hgo hturn hqueues hon hovr hhas => ?queued, fun s w h => hostNext_same (calReqDev_same h),
    fun s v _ => ⟨fun h => devNext_same (backgroundRunStartDev_of_down h), fun h => devNext_same (backgroundRunCompleteDev_of_unsettled h)⟩,
    fun s v hup hcal hstage htimer hgrant hnext => ?starts,
    fun s v r hv hrun hstep hbg htimer hnotes hfail hwork => ?ends⟩
  case result =>
    rw [yields_devNext (f := measurementResultDev v) _ rfl]
    obtain ⟨hres, hslots, hqueue⟩ := measurementResultDev_cal hrun ⟨htimer, hlo, hhi, hstart, hwin⟩
    exact ⟨hres, hslots, hqueue, by simp, by simp, by simp, by simp⟩
  case temperature =>
    rw [yields_devNext (f := temperatureUpdateDev c) _ rfl]
    obtain ⟨q, hq⟩ := temperatureUpdateDev_of_up hc hmgmt hmode hon hseen
    have htemp (k : Nat) : tempOf (temperatureUpdateDev c s.dev) k = tempOf (s.dev.passTemp c) k :=
      tempOf_of_mgt (by rw [hq]; rfl) k
    exact ⟨(htemp c).trans (tempOf_passTemp_same hlen), fun k hk => (htemp k).trans (tempOf_passTemp_ne hk), by rw [hq]; rfl,
      by rw [hq]; rfl, by rw [hq]; rfl⟩
  case queued =>
    exact (hostNext_turn _ hturn).trans (congrArg (fun d => Host.Outcome.next { s with dev := d })
      ((if_pos hgo).trans (calQueueOne_of_asked hqueues hon hovr hhas)))
  case starts =>
    rw [yields_devNext (f := backgroundRunStartDev v) _ rfl, backgroundRunStartDev_of_next hup hcal hstage htimer hgrant hnext]
    exact ⟨underCal_of_mem (List.mem_append_right _ (List.mem_singleton_self _)) (runStart_slot ..), rfl, List.length_append, rfl, rfl, rfl⟩
  case ends =>
    rw [yields_devNext (f := backgroundRunCompleteDev v) _ rfl, backgroundRunCompleteDev_of_done hrun hstep hbg htimer hnotes]
    obtain rfl := calRunOf_slot hrun
    have hout : (if r.failStep = 0 then 1 else 2) < 4 := by split <;> decide
    exact ⟨backgroundRunEnded_free r s.dev, calLast_slot _ hv, calLast_outcome _ hout hfail hv,
      backgroundRunEnded_record hv hwork, fun b hb => backgroundRunEnded_outside hwork hb, by simp [backgroundRunEnded],
      by simp [backgroundRunEnded]⟩

end Sys2Proof.Machine
end

section
/-! SUPPORT. One output channel of the device: read after a change of it, and what the change leaves alone (R349, R350). -/

namespace Sys2Proof.Machine

open Sys2Proof

theorem Dev.outCh_modOutCh_same {d : Dev} {i : Nat} (f : OutCh → OutCh) (h : i < d.outs.length) : (d.modOutCh i f).outCh i = f (d.outCh i) :=
  (at_upd _ _ _ _ _ h).trans (if_pos rfl)

theorem Dev.outCh_modOutCh_ne (d : Dev) {i j : Nat} (f : OutCh → OutCh) (h : j ≠ i) : (d.modOutCh i f).outCh j = d.outCh j := by
  simp [Dev.outCh, Dev.modOutCh, at_, upd, List.getD_eq_getElem?_getD, Ne.symm h]

theorem Dev.outCh_of_outs {d e : Dev} (h : e.outs = d.outs) (i : Nat) : e.outCh i = d.outCh i := by rw [Dev.outCh, h]; rfl

/-- A channel that differs from one at rest is in the table. -/
theorem Dev.outCh_listed {d : Dev} {i : Nat} (h : d.outCh i ≠ OutCh.reset) : i < d.outs.length := by
  by_contra hi
  exact h (List.getD_eq_default _ _ (by omega))

theorem Dev.outCh_listed_of_state {d : Dev} {i : Nat} (h : (d.outCh i).state ≠ 0) : i < d.outs.length :=
  Dev.outCh_listed fun e => h (by rw [e]; rfl)

theorem Dev.outOn_iff (d : Dev) (i : Nat) : d.outOn i = true ↔ i < 32 ∧ d.isOn (outDom i) = true := by simp [Dev.outOn]

/-- A change of one channel changes nothing else of the device. -/
theorem onlyChannel_modOutCh (s : State) (i : Nat) (f : OutCh → OutCh) : OnlyChannel s (s.dev.modOutCh i f) i :=
  ⟨rfl, fun _ hj => s.dev.outCh_modOutCh_ne f hj⟩

/-- From zero weight a ramp up begins with its first step (R349). -/
theorem OutCh.startUp_of_zero {x : OutCh} (now : Nat) (hw : x.w = 0) :
    x.startUp now = { x with state := 1, w := 1, since := now, clearAt := none } := by
  simp [OutCh.startUp, OutCh.enter, OutCh.ramp, hw]

end Sys2Proof.Machine
end

section
/-! PROOF. The ends of the output channels' ramps and parks, and the statement on their states (R349, R350). -/

namespace Sys2Proof.Machine

open Sys2Proof

section

variable {d : Dev} {i : Nat} (hon : d.outOn i = true)
include hon

theorem rampUpDoneDev_of_full (hstate : (d.outCh i).state = 1) (hw : (d.outCh i).w = 64) :
    rampUpDoneDev i d = d.modOutCh i (OutCh.enter OutState.on d.now) := if_pos (by simp [hon, hstate, hw])

theorem rampDownDoneDev_of_zero (hstate : (d.outCh i).state = 3) (hw : (d.outCh i).w = 0) (hsince : (d.outCh i).since ≠ d.now)
    (hfault : (d.outCh i).faultAt = none) :
    rampDownDoneDev i d = d.modOutCh i (fun x =>
      if d.effFlag Reg.OUT_EN i then { x.enter OutState.rangePark d.now with range := d.effFlag Reg.OUT_RANGE i }
      else x.enter OutState.parked d.now) := if_pos (by simp [hon, hstate, hw, hsince, hfault])

theorem rangeParkEndDev_of_later (hstate : (d.outCh i).state = 4) (hsince : (d.outCh i).since ≠ d.now) :
    rangeParkEndDev i d = d.modOutCh i (OutCh.startUp d.now) := if_pos (by simp [hon, hstate, hsince])

theorem holdParkEndDev_of_reached (hstate : (d.outCh i).state = 7) (hdue : efReached d.now (efAdd (d.outCh i).since 64) = true) :
    holdParkEndDev i d =
      d.modOutCh i (if d.effFlag Reg.OUT_EN i then OutCh.startUp d.now else OutCh.enter OutState.parked d.now) :=
  if_pos (by simp [hon, hstate, hdue])

end

/-- While the channel's group is not ON, no command ends a ramp, a park or a wait of it. -/
theorem channelCommands_of_off {s : State} {i : Nat} (hoff : s.dev.outOn i = false) :
    ∀ c ∈ [Instr.rampUpDone i, .rampDownDone i, .rangeParkEnd i, .holdParkEnd i, .faultRampDone i, .faultRetry i], exec c s = .next s := by
  simp only [List.forall_mem_cons]
  exact ⟨devNext_same (f := rampUpDoneDev i) (if_neg (by simp [hoff])),
    devNext_same (f := rampDownDoneDev i) (if_neg (by simp [hoff])),
    devNext_same (f := rangeParkEndDev i) (if_neg (by simp [hoff])),
    devNext_same (f := holdParkEndDev i) (if_neg (by simp [hoff])),
    devNext_same (f := faultRampDoneDev i) (if_neg (by simp [hoff])),
    devNext_same (f := faultRetryDev i) (if_neg (by simp [hoff])), List.forall_mem_nil _⟩

/-- Settles O29: each end of a ramp or a park is one change of the channel, whose value is read back. -/
theorem outputChannelsMoveThroughTheirStates : Obligations.OutputChannelsMoveThroughTheirStates := by
  refine ⟨fun s i hon hstate hw => ?upDone, fun s i hon hstate hw hsince hfault => ?downDone, fun s i hon hstate hw hsince => ?rangeEnd,
    fun s i hon hstate hw hdue => ?holdEnd, fun s i hoff => channelCommands_of_off hoff⟩
  all_goals have hlisted : i < s.dev.outs.length := Dev.outCh_listed_of_state (by rw [hstate]; decide)
  case upDone =>
    rw [yields_devNext (f := rampUpDoneDev i) _ rfl, rampUpDoneDev_of_full hon hstate hw]
    exact ⟨onlyChannel_modOutCh s i _, Dev.outCh_modOutCh_same _ hlisted⟩
  case downDone =>
    rw [yields_devNext (f := rampDownDoneDev i) _ rfl, rampDownDoneDev_of_zero hon hstate hw hsince hfault]
    refine ⟨onlyChannel_modOutCh s i _, fun hen => ?_, fun hen => ?_⟩ <;>
      simp [Dev.outCh_modOutCh_same _ hlisted, hen, OutCh.enter]
  case rangeEnd =>
    rw [yields_devNext (f := rangeParkEndDev i) _ rfl, rangeParkEndDev_of_later hon hstate hsince]
    exact ⟨onlyChannel_modOutCh s i _, (Dev.outCh_modOutCh_same _ hlisted).trans (OutCh.startUp_of_zero _ hw)⟩
  case holdEnd =>
    rw [yields_devNext (f := holdParkEndDev i) _ rfl, holdParkEndDev_of_reached hon hstate hdue]
    refine ⟨onlyChannel_modOutCh s i _, fun hen => ?_, fun hen => ?_⟩ <;> rw [hen, Dev.outCh_modOutCh_same _ hlisted]
    · exact OutCh.startUp_of_zero _ hw
    · rfl

end Sys2Proof.Machine
end

section
/-! PROOF. A fault raised at an output leg, the end of its ramp, its retry and its clear, and the statement on them (R342, R349, R351,
R352). -/

namespace Sys2Proof.Machine

open Sys2Proof

/-! ### A fault raised (R351) -/

/-- A channel with a fault raised at a leg: it is marked for its fault ramp, and shows the kind and what the leg measured. -/
def OutCh.faulted (now : Nat) (legN : Bool) (kind mv : Nat) (x : OutCh) : OutCh :=
  { x with
    faultAt := some now, faultN := legN, fkind := kind
    vp := if legN then x.vp else min (mv / 8) 511, vn := if legN then min (mv / 8) 511 else x.vn }

/-- The registers that a fault writes: its flag, the interrupt, the count, and the count of lost log entries. -/
def faultRegs : List Nat := [Reg.OUT_FAULT, Reg.OUT_IRQ_STAT, Reg.OUT_CNT_FAULT, Reg.MGT_CNT_LOG_DROP]

section

variable {d : Dev} {i : Nat} (legN : Bool) (kind mv : Nat)

theorem raiseFault_outs : (raiseFault i legN kind mv d).outs = (d.modOutCh i (OutCh.faulted d.now legN kind mv)).outs := by
  simp [raiseFault]
  rfl

theorem raiseFault_outCh_same (hlisted : i < d.outs.length) :
    (raiseFault i legN kind mv d).outCh i = (d.outCh i).faulted d.now legN kind mv :=
  (Dev.outCh_of_outs (raiseFault_outs legN kind mv) i).trans (Dev.outCh_modOutCh_same _ hlisted)

theorem raiseFault_outCh_ne {j : Nat} (h : j ≠ i) : (raiseFault i legN kind mv d).outCh j = d.outCh j :=
  (Dev.outCh_of_outs (raiseFault_outs legN kind mv) j).trans (Dev.outCh_modOutCh_ne _ _ h)

/-- The bus has the fault's event behind the others (R448). -/
theorem raiseFault_cnt : (raiseFault i legN kind mv d).cnt = { d.cnt with bus := d.busWith 24 1 } := by
  simp [raiseFault, Dev.emit, Dev.busWith, Dev.isOn, Dev.dom]

theorem raiseFault_logs (s : State) (i : Nat) : Logs s (raiseFault i legN kind mv s.dev) 6 1 2 [i, kind] :=
  logs_logEv _ _ _ _ (by simp) (by simp)

variable (hon : d.outOn i = true)
include hon

theorem raiseFault_eq : raiseFault i legN kind mv d =
    (((((d.modOutCh i (OutCh.faulted d.now legN kind mv)).putFlag Reg.OUT_FAULT i true).putFlag Reg.OUT_IRQ_STAT 0 true).bump
      Reg.OUT_CNT_FAULT).emit 24 1).logEv 6 1 2 [i, kind] :=
  congrArg (fun e : Dev => ((e.bump Reg.OUT_CNT_FAULT).emit 24 1).logEv 6 1 2 [i, kind])
    (Dev.raiseIrq_on (d := (d.modOutCh i (OutCh.faulted d.now legN kind mv)).putFlag Reg.OUT_FAULT i true) Reg.OUT_IRQ_STAT 0
      ((d.outOn_iff i).1 hon).2)

/-- Of the registers, a fault sets its flag and the interrupt bit, and counts. -/
theorem raiseFault_regs : RegsOnly [Reg.MGT_CNT_LOG_DROP]
    (((d.putFlag Reg.OUT_FAULT i true).putFlag Reg.OUT_IRQ_STAT 0 true).bump Reg.OUT_CNT_FAULT) (raiseFault i legN kind mv d) := by
  intro a ha
  rw [raiseFault_eq legN kind mv hon, Dev.reg_logEv_ne _ _ _ _ _ _ (List.ne_of_not_mem_cons ha)]
  rfl

theorem raiseFault_regsOnly : RegsOnly faultRegs d (raiseFault i legN kind mv d) := by
  have hset := ((RegsOnly.putFlag (l := faultRegs) d (a := Reg.OUT_FAULT) i true (by decide)).trans
    (.putFlag _ (a := Reg.OUT_IRQ_STAT) 0 true (by decide))).trans (.bump _ (a := Reg.OUT_CNT_FAULT) (by decide))
  exact hset.trans fun a ha => raiseFault_regs legN kind mv hon a fun h => ha (by rw [List.mem_singleton.1 h]; decide)

theorem raiseFault_flag : (raiseFault i legN kind mv d).flag Reg.OUT_FAULT i = true := by
  rw [(raiseFault_regs legN kind mv hon).flag (by decide), Dev.flag, Dev.reg_bump_ne _ _ _ (by decide),
    Dev.reg_putFlag_ne _ _ _ _ _ (by decide)]
  exact Dev.flag_putFlag_same d _ _ _ ((d.outOn_iff i).1 hon).1

theorem raiseFault_irq : (raiseFault i legN kind mv d).flag Reg.OUT_IRQ_STAT 0 = true := by
  rw [(raiseFault_regs legN kind mv hon).flag (by decide), Dev.flag, Dev.reg_bump_ne _ _ _ (by decide)]
  exact Dev.flag_putFlag_same _ _ _ _ (by decide)

theorem raiseFault_count :
    (raiseFault i legN kind mv d).fld Reg.OUT_CNT_FAULT 31 0 = min (d.fld Reg.OUT_CNT_FAULT 31 0 + 1) (2 ^ 32 - 1) := by
  rw [(raiseFault_regs legN kind mv hon).fld (by decide)]
  refine (Dev.fld_bumpFld _ _ _ _ _ (by decide) (by decide)).trans ?_
  rw [Dev.fld, Dev.reg_putFlag_ne _ _ _ _ _ (by decide), Dev.reg_putFlag_ne _ _ _ _ _ (by decide)]
  rfl

end

/-! ### Supervision (R351) -/

theorem OutCh.supervised_iff (x : OutCh) : x.supervised = true ↔ x.state ∈ [1, 2, 3] := List.contains_iff_mem

/-- Each kind's condition, in the order OPEN, HIGH, LOW, gives its code. -/
theorem legKind_of_meets {va mv : Nat} {kind : LegFault}
    (h : (kind = .openLeg ∧ va < mv + 300) ∨ (kind = .high ∧ va < mv + 900 ∧ mv + 300 ≤ va) ∨
      (kind = .low ∧ mv < 800 ∧ mv + 900 ≤ va)) : legKind va mv = legCode kind := by
  unfold legKind legMeets legCode
  obtain ⟨rfl, h1⟩ | ⟨rfl, h1, h2⟩ | ⟨rfl, h1, h2⟩ := h
  · simp [h1]
  · simp [h1, h2, Nat.not_lt.2 h2]
  · rw [if_neg (by simp; omega), if_neg (by simp; omega), if_pos (by simp [h1])]

theorem legRun_eq (va mv k n : Nat) :
    legRun va mv (k, n) = if legKind va mv = 0 then (0, 0) else (legKind va mv, if legKind va mv = k then n + 1 else 1) := by
  dsimp only [legRun]
  split_ifs <;> rfl

section

variable {d : Dev} {i : Nat}

theorem outputFaultDev_of_fourth {legN : Bool} {kind : LegFault} {mv n : Nat} (hon : d.outOn i = true) (hsup : (d.outCh i).supervised = true)
    (hfault : (d.outCh i).faultAt = none) (hkind : legKind d.mix.va mv = legCode kind)
    (hrun : (if legN then (d.outCh i).runN else (d.outCh i).runP) = (legCode kind, n)) (hn : 3 ≤ n) :
    outputFaultDev i legN kind mv d = raiseFault i legN (legCode kind) mv d := by
  unfold outputFaultDev
  dsimp only
  rw [hrun, if_neg (by simp [hon, hsup, hfault, hkind, hn])]

theorem outputFaultDev_of_unsupervised (legN : Bool) (kind : LegFault) (mv : Nat) (hsup : (d.outCh i).supervised = false) :
    outputFaultDev i legN kind mv d = d := if_pos (by simp [hsup])

/-- The device with an EF's measurements of channel i taken. -/
def sensed (i : Nat) (d : Dev) : Dev :=
  { d.modOutCh i (senseStep d.mix.va (Config.free d.fresh % 4096) (Config.free (d.fresh + 1) % 4096)) with fresh := d.fresh + 2 }

theorem sensed_outCh (hlisted : i < d.outs.length) : (sensed i d).outCh i =
    senseStep d.mix.va (Config.free d.fresh % 4096) (Config.free (d.fresh + 1) % 4096) (d.outCh i) :=
  Dev.outCh_modOutCh_same _ hlisted

/-- A fourth measurement in a row of the P leg raises its fault. -/
theorem outSense_of_fourth {k : Nat} (hon : d.outOn i = true) (hlisted : i < d.outs.length) (hsup : (d.outCh i).supervised = true)
    (hfault : (d.outCh i).faultAt = none) (hk : k ≠ 0) (hrun : (d.outCh i).runP = (k, 3))
    (hkind : legKind d.mix.va (Config.free d.fresh % 4096) = k) :
    outSense i d = raiseFault i false k (Config.free d.fresh % 4096) (sensed i d) := by
  have hlonger : ((sensed i d).outCh i).runP = (k, 4) := by
    rw [sensed_outCh hlisted, senseStep]
    dsimp only
    rw [if_pos hsup, hrun, legRun_eq, hkind, if_neg hk, if_pos rfl]
  have hfree : ((sensed i d).outCh i).faultAt = none := by rw [sensed_outCh hlisted]; exact hfault
  rw [outSense, if_neg (by simp [hon])]
  change (if ((sensed i d).outCh i).faultAt.isSome = true then sensed i d
    else if 4 ≤ ((sensed i d).outCh i).runP.2 then
      raiseFault i false ((sensed i d).outCh i).runP.1 (Config.free d.fresh % 4096) (sensed i d)
    else _) = _
  rw [if_neg (by simp [hfree]), if_pos (by rw [hlonger]), hlonger]

/-! ### The end of the fault ramp, and the retry (R349, R352) -/

theorem faultRampDoneDev_of_zero (hon : d.outOn i = true) (hstate : (d.outCh i).state = 5) (hw : (d.outCh i).w = 0)
    (hsince : (d.outCh i).since ≠ d.now) : faultRampDoneDev i d = d.modOutCh i (OutCh.enter OutState.faultPark d.now) :=
  if_pos (by simp [hon, hstate, hw, hsince])

theorem faultRetryDev_of_due (hon : d.outOn i = true) (hstate : (d.outCh i).state = 6)
    (hdue : efReached d.now (efAdd (d.outCh i).since 65536) = true) (hretry : d.effFlag Reg.OUT_RETRY i = true)
    (hen : d.effFlag Reg.OUT_EN i = true) :
    faultRetryDev i d = (d.modOutCh i (OutCh.startUp d.now)).bump Reg.OUT_CNT_RETRY := if_pos (by simp [hon, hstate, hdue, hretry, hen])

end

/-! ### The clear (R342, R352) -/

/-- The one clear on its way comes at its release. -/
theorem effRelease_clears {d : Dev} {a e : Nat} {w : Word} (hclr : d.mix.clrDue = [(e, a, w)]) (hdue : efReached d.now e = true) :
    (effRelease d).reg a = d.reg a &&& ~~~w ∧ (effRelease d).mix.clrDue = [] := by
  have hdues : d.mix.clrDue.filter (fun e => efReached d.now e.1) = [(e, a, w)] := by simp [hclr, hdue]
  have hleft : d.mix.clrDue.filter (fun e => !efReached d.now e.1) = [] := by simp [hclr, hdue]
  unfold effRelease
  dsimp only
  rw [hdues]
  exact ⟨Dev.reg_putReg_same d a _, hleft⟩

/-- The bits of four groups of eight, each group's set or clear as a whole. -/
theorem groupBytes_getLsbD : ∀ (on : Fin 4 → Bool) (i : Fin 32),
    (BitVec.ofNat 32 ((List.range 4).foldl (fun a g => if on (Fin.ofNat 4 g) then a + 255 * 2 ^ (8 * g) else a) 0)).getLsbD i =
      on (Fin.ofNat 4 (i / 8)) := by decide

theorem groupMask_getLsbD (d : Dev) {i : Nat} (hi : i < 32) : (groupMask d).getLsbD i = d.outOn i := by
  have hgroups := groupBytes_getLsbD (fun g => d.isOn (Dom.out g)) ⟨i, hi⟩
  have hg : i / 8 < 4 := by omega
  simp only [Fin.val_ofNat, Nat.mod_eq_of_lt hg] at hgroups
  rw [Dev.outOn, decide_eq_true hi, Bool.true_and, outDom, ← hgroups]
  rfl

/-- The clear at one channel: in FAULT_PARK, hit and enabled, it is marked for its ramp up at release k + 2. -/
def clearAtChannel (hit : Word) (i : Nat) (d : Dev) : Dev :=
  if hit.getLsbD i && (d.outCh i).state == OutState.faultPark && d.flag Reg.OUT_EN i then
    d.modOutCh i (fun x => { x with clearAt := some (efAdd d.now 2) })
  else d

theorem outFaultClearDev_eq (v : Word) (d : Dev) :
    outFaultClearDev v d = forUpTo 32 (clearAtChannel (v &&& groupMask d)) (mixClear Reg.OUT_FAULT (v &&& groupMask d) d) := rfl

/-- What the clear at channel i goes by, and what it can change. -/
def clearView (i : Nat) (d : Dev) : OutCh × Nat × Nat × List (Nat × Word) := (d.outCh i, d.outs.length, d.now, d.regs)

theorem clearAtChannel_ne (hit : Word) {i j : Nat} (d : Dev) (h : j ≠ i) : clearView i (clearAtChannel hit j d) = clearView i d := by
  unfold clearAtChannel
  split
  · simp only [clearView, Dev.outCh_modOutCh_ne d _ h.symm]
    exact congrArg (fun n => (d.outCh i, n, d.now, d.regs)) (upd_length ..)
  · rfl

theorem clearAtChannel_same (hit : Word) (i : Nat) (d : Dev) : (clearAtChannel hit i d).outCh i =
    if hit.getLsbD i = true ∧ (d.outCh i).state = 6 ∧ d.flag Reg.OUT_EN i = true then
      { d.outCh i with clearAt := some (efAdd d.now 2) } else d.outCh i := by
  unfold clearAtChannel
  by_cases h : hit.getLsbD i = true ∧ (d.outCh i).state = 6 ∧ d.flag Reg.OUT_EN i = true
  · obtain ⟨hhit, hstate, hen⟩ := h
    rw [if_pos (by simp [hhit, hstate, hen]), if_pos ⟨hhit, hstate, hen⟩]
    exact Dev.outCh_modOutCh_same _ (Dev.outCh_listed_of_state (by rw [hstate]; decide))
  · rw [if_neg h, if_neg (by simpa [and_assoc] using h)]

/-- The clear at every channel, read at channel i. -/
theorem clearAtChannels_outCh (hit : Word) {i : Nat} (hi : i < 32) (d : Dev) : (forUpTo 32 (clearAtChannel hit) d).outCh i =
    if hit.getLsbD i = true ∧ (d.outCh i).state = 6 ∧ d.flag Reg.OUT_EN i = true then
      { d.outCh i with clearAt := some (efAdd d.now 2) } else d.outCh i := by
  obtain ⟨e, hview, hround⟩ := forUpTo_round (clearView i) hi (fun j x hj => clearAtChannel_ne hit x hj) d
  simp only [clearView, Prod.mk.injEq] at hview
  obtain ⟨hch, -, hnow, hregs⟩ := hview
  have hen : e.flag Reg.OUT_EN i = d.flag Reg.OUT_EN i := RegsOnly.flag (l := []) (.of_regs hregs) (by simp) i
  rw [show (forUpTo 32 (clearAtChannel hit) d).outCh i = _ from congrArg Prod.fst hround]
  exact (clearAtChannel_same hit i e).trans (by rw [hch, hnow, hen])

/-- The clear at every channel changes nothing but channels. -/
theorem clearAtChannels_only (hit : Word) (d : Dev) :
    forUpTo 32 (clearAtChannel hit) d = { d with outs := (forUpTo 32 (clearAtChannel hit) d).outs } := by
  have hrest : ({ forUpTo 32 (clearAtChannel hit) d with outs := [] } : Dev) = { d with outs := [] } :=
    foldl_keeps (fun e : Dev => { e with outs := [] }) (fun e i => clearAtChannel hit i e)
      (fun e i => by unfold clearAtChannel; split <;> rfl) _ _
  exact congrArg (fun e : Dev => { e with outs := (forUpTo 32 (clearAtChannel hit) d).outs }) hrest

/-! ### The statement -/

/-- Settles O30: a fault by the one operation that raises it, the ends of its ramp and its wait by their changes of the channel, and its
clear channel by channel. -/
theorem outputFaultsRaiseRetryAndClear : Obligations.OutputFaultsRaiseRetryAndClear := by
  refine ⟨fun s i mv n legN kind hon hstate hfault hmeets hrun hn => ?raised,
    fun d i k hon hlisted hstate hfault hk hrun hkind => ?sensed, fun va mv k n => legRun_eq va mv k n,
    fun s i mv legN kind hstate => ?unsupervised, fun s i hon hstate hw hsince => ?rampDone,
    fun s i hon hstate hw hdue hretry hen => ?retry, fun d a e w hclr hdue => effRelease_clears hclr hdue, fun s v hturn => ?clear⟩
  case raised =>
    have hlisted : i < s.dev.outs.length := Dev.outCh_listed_of_state (by rintro h; simp [h] at hstate)
    rw [yields_devNext (f := outputFaultDev i legN kind mv) _ rfl,
      outputFaultDev_of_fourth hon ((OutCh.supervised_iff _).2 hstate) hfault (legKind_of_meets hmeets) hrun hn]
    exact ⟨raiseFault_outCh_same legN _ mv hlisted, fun j hj => raiseFault_outCh_ne legN _ mv hj, raiseFault_flag legN _ mv hon,
      raiseFault_irq legN _ mv hon, raiseFault_count legN _ mv hon, raiseFault_regsOnly legN _ mv hon, raiseFault_logs legN _ mv s i,
      raiseFault_cnt legN _ mv, by simp, by simp, by simp⟩
  case sensed =>
    rw [outSense_of_fourth hon hlisted ((OutCh.supervised_iff _).2 hstate) hfault hk hrun hkind,
      raiseFault_outCh_same _ _ _ (lt_of_lt_of_eq hlisted (upd_length ..).symm)]
    exact ⟨rfl, rfl, raiseFault_flag (d := sensed i d) _ _ _ hon,
      fun j hj => (raiseFault_outCh_ne _ _ _ hj).trans (Dev.outCh_modOutCh_ne d _ hj)⟩
  case unsupervised =>
    exact devNext_same (f := outputFaultDev i legN kind mv) (outputFaultDev_of_unsupervised _ _ _
      (Bool.eq_false_iff.2 fun h => hstate ((OutCh.supervised_iff _).1 h)))
  case rampDone =>
    rw [yields_devNext (f := faultRampDoneDev i) _ rfl, faultRampDoneDev_of_zero hon hstate hw hsince]
    exact ⟨onlyChannel_modOutCh s i _, Dev.outCh_modOutCh_same _ (Dev.outCh_listed_of_state (by rw [hstate]; decide))⟩
  case retry =>
    have hlisted : i < s.dev.outs.length := Dev.outCh_listed_of_state (by rw [hstate]; decide)
    rw [yields_devNext (f := faultRetryDev i) _ rfl, faultRetryDev_of_due hon hstate hdue hretry hen]
    exact ⟨(Dev.outCh_modOutCh_same _ hlisted).trans (OutCh.startUp_of_zero _ hw), fun j hj => Dev.outCh_modOutCh_ne _ _ hj,
      Dev.fld_bumpFld (s.dev.modOutCh i _) _ _ _ _ (by decide) (by decide),
      RegsOnly.bump (s.dev.modOutCh i _) (by simp), rfl⟩
  case clear =>
    rw [yields_hostNext (f := outFaultClearDev v) _ rfl hturn, outFaultClearDev_eq]
    have hhit (i : Nat) (hi : i < 32) : (v &&& groupMask s.dev).getLsbD i = (s.dev.outOn i && v.getLsbD i) := by
      rw [BitVec.getLsbD_and, groupMask_getLsbD _ hi, Bool.and_comm]
    refine ⟨v &&& groupMask s.dev, hhit, clearAtChannels_only _ _, fun i hi => ?_⟩
    rw [clearAtChannels_outCh _ hi]
    simp only [hhit i hi, Bool.and_eq_true, and_assoc]
    rfl

end Sys2Proof.Machine
end

section
/-! PROOF. A player's start, stop, trigger, play and end, and the statement on them (R354). -/

namespace Sys2Proof.Machine

open Sys2Proof

theorem RegsOnly.mono {l r : List Nat} {d e : Dev} (h : RegsOnly l d e) (hl : l ⊆ r) : RegsOnly r d e := fun a ha => h a fun hm => ha (hl hm)

/-! ### A start and a stop on their way (R342, R354) -/

theorem playOk_iff (cfg lvl : Word) : playOk cfg lvl = true ↔
    ((cfg.getLsbD 15 = false → cfg.bits 31 16 % 2 = 0) ∧
      cfg.bits 31 16 + (if lvl.bits 15 0 = 0 then 32768 else lvl.bits 15 0) * (if cfg.getLsbD 15 then 3 else 2) ≤ 65536) := by
  unfold playOk playLen countOf playBytes
  generalize cfg.getLsbD 15 = wide
  cases wide <;> simp

/-- A start of EF k joins the player's starts and stops, unless one for the same release stands there. -/
def Player.started (k : Nat) (p : Player) : Player :=
  if p.acts.contains (efAdd k 2, false) || p.acts.contains (efAdd k 2, true) then p
  else { p with acts := p.acts ++ [(efAdd k 2, true)] }

/-- A stop of EF k joins them, in the place of a start for the same release. -/
def Player.stopped (k : Nat) (p : Player) : Player :=
  { p with acts := p.acts.filter (fun a => a.1 != efAdd k 2) ++ [(efAdd k 2, false)] }

theorem Player.started_mem (k : Nat) (p : Player) :
    (efAdd k 2, true) ∈ (p.started k).acts ∨ (efAdd k 2, false) ∈ (p.started k).acts := by
  unfold Player.started
  split
  · next h => simpa [or_comm] using h
  · exact .inl (by simp)

theorem Player.started_trig (k : Nat) (p : Player) : (p.started k).trig = p.trig := by
  unfold Player.started
  split <;> rfl

theorem Player.started_of_free {k : Nat} {p : Player} (h : ∀ b, (efAdd k 2, b) ∉ p.acts) :
    (p.started k).acts = p.acts ++ [(efAdd k 2, true)] := by
  rw [Player.started, if_neg (by simp [h])]

/-- A start behind a stop of the same EF is not made. -/
theorem Player.started_stopped (k : Nat) (p : Player) : (p.stopped k).started k = p.stopped k := by
  rw [Player.started, if_pos (by simp [Player.stopped])]

section

variable {d : Dev} {i : Nat}

theorem Dev.outCh_modPlayer_same (f : Player → Player) (hlisted : i < d.outs.length) :
    (d.modPlayer i f).outCh i = { d.outCh i with player := f (d.outCh i).player } := Dev.outCh_modOutCh_same _ hlisted

theorem Dev.outCh_modPlayer_ne (f : Player → Player) {j : Nat} (h : j ≠ i) : (d.modPlayer i f).outCh j = d.outCh j :=
  Dev.outCh_modOutCh_ne _ _ h

/-- A start that passes its check changes the channel's player alone. -/
theorem playStart_of_ok {k : Nat} (hok : playOk (d.reg (Reg.OUT_PLAY_CFG i)) (d.reg (Reg.OUT_PLAY_LVL i)) = true) :
    playStart i k d = d.modPlayer i (Player.started k) := if_pos hok

/-- A start that fails it sets PLAY_ERR alone. -/
theorem playStart_of_bad {k : Nat} (hon : d.outOn i = true)
    (hbad : playOk (d.reg (Reg.OUT_PLAY_CFG i)) (d.reg (Reg.OUT_PLAY_LVL i)) = false) :
    playStart i k d = d.putFlag Reg.OUT_IRQ_STAT 2 true :=
  (if_neg (by simp [hbad])).trans (Dev.raiseIrq_on _ _ ((d.outOn_iff i).1 hon).2)

theorem playStart_outs_of_bad {k : Nat} (hbad : playOk (d.reg (Reg.OUT_PLAY_CFG i)) (d.reg (Reg.OUT_PLAY_LVL i)) = false) :
    (playStart i k d).outs = d.outs := by
  rw [show playStart i k d = d.raiseIrq (outDom i) Reg.OUT_IRQ_STAT 2 from if_neg (by simp [hbad])]
  simp

/-- A start's channel keeps its player, or has it with the start on its way. -/
theorem playStart_outCh_same (k : Nat) (hlisted : i < d.outs.length) : (playStart i k d).outCh i = d.outCh i ∨
    (playStart i k d).outCh i = { d.outCh i with player := (d.outCh i).player.started k } := by
  cases hok : playOk (d.reg (Reg.OUT_PLAY_CFG i)) (d.reg (Reg.OUT_PLAY_LVL i)) with
  | true => exact .inr (playStart_of_ok hok ▸ Dev.outCh_modPlayer_same _ hlisted)
  | false => exact .inl (Dev.outCh_of_outs (playStart_outs_of_bad hok) i)

theorem playStart_outCh_ne (k : Nat) {j : Nat} (h : j ≠ i) : (playStart i k d).outCh j = d.outCh j := by
  unfold playStart
  dsimp only
  split
  · exact Dev.outCh_modPlayer_ne _ h
  · exact Dev.outCh_of_outs (by simp) j

theorem playStart_regs (k : Nat) : RegsOnly [Reg.OUT_IRQ_STAT] d (playStart i k d) := by
  unfold playStart Dev.raiseIrq
  exact .ite (.of_regs rfl) (.ite (.putFlag _ _ _ (by decide)) (.refl _ d))

theorem playStart_mix (k : Nat) : (playStart i k d).mix = d.mix := by simp

theorem playStart_only (k : Nat) : playStart i k d = { d with regs := (playStart i k d).regs, outs := (playStart i k d).outs } := by
  unfold playStart Dev.raiseIrq
  dsimp only
  split_ifs <;> rfl

end

/-! ### OUT_PLAY_CFGi written (R354, R369) -/

/-- What OUT_PLAY_CFGi holds after a write: its RW fields, a TRIG above 16 as 0. -/
def playCfgStored (v : Word) : Word :=
  if 16 < v.bits 7 3 then (v &&& 0xFFFFEFF8).setBits 7 3 0 else v &&& 0xFFFFEFF8

/-- A range that a mask holds in full reads the same under it. -/
theorem Word.bits_and_of_full {v m : Word} {hi lo : Nat} (h : ∀ n, lo ≤ n → n ≤ hi → m.getLsbD n = true) :
    (v &&& m).bits hi lo = v.bits hi lo := by
  apply Nat.eq_of_testBit_eq
  intro n
  rw [Word.testBit_bits, Word.testBit_bits, BitVec.getLsbD_and]
  by_cases hn : n < hi + 1 - lo
  · rw [h (lo + n) (by omega) (by omega), Bool.and_true]
  · simp [hn]

/-- The fields above TRIG are stored as written. -/
theorem playCfgStored_bits (v : Word) {hi lo : Nat} (hlo : 8 ≤ lo) (hfull : ∀ n, lo ≤ n → n ≤ hi → (0xFFFFEFF8 : Word).getLsbD n = true) :
    (playCfgStored v).bits hi lo = v.bits hi lo := by
  unfold playCfgStored
  split
  · rw [Word.bits_setBits_disjoint _ _ _ _ _ _ (by decide) (by decide) (by omega), Word.bits_and_of_full hfull]
  · exact Word.bits_and_of_full hfull

theorem playCfgStored_trig (v : Word) : (playCfgStored v).bits 7 3 = if 16 < v.bits 7 3 then 0 else v.bits 7 3 := by
  unfold playCfgStored
  split
  · exact Word.bits_setBits_same _ _ _ _ (by decide) (by decide)
  · refine Word.bits_and_of_full fun n hlo hhi => ?_
    interval_cases n <;> rfl

/-- The check of a start reads the same in what is stored as in what was written. -/
theorem playOk_stored (v lvl : Word) : playOk (playCfgStored v) lvl = playOk v lvl := by
  have hstart : (playCfgStored v).bits 31 16 = v.bits 31 16 := playCfgStored_bits v (by decide) fun n hlo hhi => by
    interval_cases n <;> rfl
  have hmask : (v &&& 0xFFFFEFF8).getLsbD 15 = v.getLsbD 15 := by rw [BitVec.getLsbD_and]; exact Bool.and_true _
  have hbytes : (playCfgStored v).getLsbD 15 = v.getLsbD 15 := by
    unfold playCfgStored
    split
    · rw [Word.getLsbD_setBits _ _ _ _ _ (by decide) (by decide), if_neg (by decide), hmask]
    · exact hmask
  unfold playOk playBytes
  rw [hstart, hbytes]

/-- The device with OUT_PLAY_CFGi written, before STOP and GO have their effect. -/
def cfgWritten (i : Nat) (v : Word) (d : Dev) : Dev := mixPut (Reg.OUT_PLAY_CFG i) (playCfgStored v) d

section

variable (i : Nat) (v : Word) (d : Dev)

theorem cfgWritten_cfg : (cfgWritten i v d).reg (Reg.OUT_PLAY_CFG i) = playCfgStored v := reg_mixPut _ _ d

theorem cfgWritten_regs : RegsOnly [Reg.OUT_PLAY_CFG i] d (cfgWritten i v d) := 
  fun _ hb => Dev.reg_putReg_ne _ _ _ _ (List.ne_of_not_mem_cons hb)

theorem cfgWritten_check : playOk ((cfgWritten i v d).reg (Reg.OUT_PLAY_CFG i)) ((cfgWritten i v d).reg (Reg.OUT_PLAY_LVL i)) =
    playOk v (d.reg (Reg.OUT_PLAY_LVL i)) := by
  rw [cfgWritten_cfg, playOk_stored, cfgWritten_regs i v d (Reg.OUT_PLAY_LVL i) (by simp [Reg.OUT_PLAY_LVL, Reg.OUT_PLAY_CFG])]

end

section

variable {d : Dev} {i : Nat} {v : Word} (hon : d.outOn i = true)
include hon

theorem playCfgWrite_eq : playCfgWrite i v d =
    let e := if v.getLsbD 2 then playStop i (cfgWritten i v d) else cfgWritten i v d
    if v.getLsbD 1 then playStart i e.now e else e := by
  rw [playCfgWrite, if_neg (by simp [hon])]
  rfl

theorem playerGoDev_eq (hgo : v.getLsbD 1 = true) (hstop : v.getLsbD 2 = false) :
    playerGoDev i v d = playStart i d.now (cfgWritten i v d) := by
  rw [playerGoDev, if_pos hgo, playCfgWrite_eq hon]
  dsimp only
  rw [hstop, hgo]
  rfl

theorem playerStopDev_eq (hstop : v.getLsbD 2 = true) :
    playerStopDev i v d =
      let e := (cfgWritten i v d).modPlayer i (Player.stopped d.now)
      if v.getLsbD 1 then playStart i d.now e else e := by
  rw [playerStopDev, if_pos hstop, playCfgWrite_eq hon]
  dsimp only
  rw [hstop]
  rfl

end

/-! ### A trigger and an end (R354) -/

/-- The player with its oldest trigger taken. -/
def Player.triggered (r : List Nat) (p : Player) : Player := { p with trig := r }

section

variable {d : Dev} {i : Nat} (hon : d.outOn i = true)
include hon

theorem playerTriggerDev_of_first {e : Nat} {r : List Nat} (h : (d.outCh i).player.trig = e :: r) :
    playerTriggerDev i d = playStart i e (d.modPlayer i (Player.triggered r)) := by
  unfold playerTriggerDev
  rw [h]
  exact if_pos hon

theorem playerEndDev_of_done (hbusy : (d.outCh i).player.busy = true) (hdone : (d.outCh i).player.done = true) :
    playerEndDev i d = d.modPlayer i (fun p => { p with busy := false }) := if_pos (by simp [hon, hbusy, hdone])

end

theorem playerTriggerDev_of_none {d : Dev} {i : Nat} (h : (d.outCh i).player.trig = []) : playerTriggerDev i d = d := by
  unfold playerTriggerDev
  rw [h]

/-! ### The play at a release (R353, R354) -/

section

variable {now len rate : Nat} {loop : Bool} {p : Player}

theorem playAdvance_of_due {r : Nat} {b : Bool} (hacts : p.acts = [(r, b)]) (hdue : efReached now r = true) :
    playAdvance now len rate loop p = { p with acts := [], everRun := b, busy := b, done := false, s := 0, j := 0 } := by
  cases b <;> simp [playAdvance, hacts, hdue]

theorem playAdvance_of_running (hacts : p.acts = []) (hrun : p.everRun = true) (hdone : p.done = false) :
    playAdvance now len rate loop p =
      if p.j + 1 < 2 ^ rate then { p with j := p.j + 1 }
      else if p.s + 1 < len then { p with s := p.s + 1, j := 0 }
      else if loop then { p with s := 0, j := 0 } else { p with done := true } := by
  simp [playAdvance, hacts, hrun, hdone]

theorem playAdvance_of_rest (hacts : p.acts = []) (hrest : p.everRun = false ∨ p.done = true) : playAdvance now len rate loop p = p := by
  obtain ⟨everRun, busy, done, s, j, q, acts, trig⟩ := p
  obtain rfl : acts = [] := hacts
  exact if_pos (by simpa using hrest)

end

/-! ### The statement -/

/-- Settles O31: each write, trigger and end by the change it makes of the one player, and the play by the cases of its advance. -/
theorem playersStartStopAndEnd : Obligations.PlayersStartStopAndEnd := by
  refine ⟨fun s i v hturn hon hlisted hgo hstop => ?go, playOk_iff, fun s i v hgo hstop => ?both,
    fun s i v hturn hon hlisted hstop => ?stop, fun s i e r hon htrig => ?trigger, fun s i htrig => ?untriggered,
    fun s i hon hbusy hdone => ?ends, fun now len rate r loop b p => playAdvance_of_due,
    fun now len rate loop p => playAdvance_of_running, fun now len rate loop p => playAdvance_of_rest⟩
  case go =>
    rw [yields_hostNext (f := playerGoDev i v) _ rfl hturn, playerGoDev_eq hon hgo hstop]
    have hcfg : (playStart i s.dev.now (cfgWritten i v s.dev)).reg (Reg.OUT_PLAY_CFG i) = playCfgStored v :=
      (playStart_regs _ _ (by simp [Reg.OUT_PLAY_CFG, Reg.OUT_IRQ_STAT]; omega)).trans (cfgWritten_cfg i v s.dev)
    rw [hcfg, playStart_mix, ← cfgWritten_check i]
    refine ⟨List.mem_append_right _ (List.mem_singleton_self _),
      playCfgStored_bits v (by decide) fun n hlo hhi => ?_, playCfgStored_bits v (by decide) fun n hlo hhi => ?_,
      playCfgStored_trig v, fun hok => ?_, fun hbad => ?_, fun j hj => playStart_outCh_ne _ hj, playStart_only _⟩
    · interval_cases n <;> rfl
    · interval_cases n <;> rfl
    · rw [playStart_of_ok hok, Dev.outCh_modPlayer_same (d := cfgWritten i v s.dev) _ hlisted]
      exact ⟨Player.started_mem _ _, Player.started_of_free, cfgWritten_regs i v s.dev⟩
    · rw [playStart_of_bad (d := cfgWritten i v s.dev) hon hbad]
      exact ⟨rfl, Dev.flag_putFlag_same _ _ _ _ (by decide), ((cfgWritten_regs i v s.dev).mono (by simp)).trans (.putFlag _ _ _ (by simp))⟩
  case both =>
    have hsame : playerGoDev i v = playerStopDev i v := by
      funext d
      rw [playerGoDev, playerStopDev, if_pos hgo, if_pos hstop]
    exact congrArg (hostNext s) hsame
  case stop =>
    rw [yields_hostNext (f := playerStopDev i v) _ rfl hturn, playerStopDev_eq hon hstop]
    have hregs : RegsOnly [Reg.OUT_PLAY_CFG i, Reg.OUT_IRQ_STAT] s.dev (cfgWritten i v s.dev) := (cfgWritten_regs i v s.dev).mono (by simp)
    have hch : ((cfgWritten i v s.dev).modPlayer i (Player.stopped s.dev.now)).outCh i =
        { s.dev.outCh i with player := (s.dev.outCh i).player.stopped s.dev.now } := Dev.outCh_modPlayer_same _ hlisted
    dsimp only
    split
    · have hstopped := playStart_outCh_same (d := (cfgWritten i v s.dev).modPlayer i (Player.stopped s.dev.now)) s.dev.now
        (hlisted.trans_eq (upd_length ..).symm)
      rw [hch, Player.started_stopped, or_self] at hstopped
      rw [playStart_mix, hstopped]
      exact ⟨rfl, rfl, fun j hj => (playStart_outCh_ne _ hj).trans (Dev.outCh_modPlayer_ne _ hj),
        (hregs.tail rfl).trans ((playStart_regs _).mono (by simp)), playStart_only _⟩
    · rw [hch]
      exact ⟨rfl, rfl, fun j hj => Dev.outCh_modPlayer_ne _ hj, hregs.tail rfl, rfl⟩
  case trigger =>
    rw [yields_devNext (f := playerTriggerDev i) _ rfl, playerTriggerDev_of_first hon htrig]
    have hlisted : i < s.dev.outs.length := Dev.outCh_listed fun h => by
      rw [h] at htrig
      exact absurd htrig (by simp [OutCh.reset, Player.reset])
    have hch : (s.dev.modPlayer i (Player.triggered r)).outCh i =
        { s.dev.outCh i with player := (s.dev.outCh i).player.triggered r } := Dev.outCh_modPlayer_same _ hlisted
    have hlisted' : i < (s.dev.modPlayer i (Player.triggered r)).outs.length := hlisted.trans_eq (upd_length ..).symm
    refine ⟨?_, fun hok => ?_, fun hbad => ?_, fun j hj => (playStart_outCh_ne _ hj).trans (Dev.outCh_modPlayer_ne _ hj),
      (RegsOnly.refl _ s.dev).tail rfl |>.trans (playStart_regs _), ?_⟩
    · obtain h | h := playStart_outCh_same e hlisted'
      · rw [h, hch]
        rfl
      · rw [h, hch]
        exact Player.started_trig e _
    · rw [playStart_of_ok (d := s.dev.modPlayer i (Player.triggered r)) hok, Dev.outCh_modPlayer_same _ hlisted', hch]
      exact ⟨rfl, rfl, fun hfree => Player.started_of_free hfree⟩
    · rw [playStart_of_bad (d := s.dev.modPlayer i (Player.triggered r)) hon hbad]
      have hacts : ((s.dev.modPlayer i (Player.triggered r)).outCh i).player.acts = (s.dev.outCh i).player.acts := by
        rw [hch]
        rfl
      exact ⟨Dev.flag_putFlag_same _ _ _ _ (by decide), hacts⟩
    · rw [playStart_mix]
      exact playStart_only _
  case untriggered => exact devNext_same (playerTriggerDev_of_none htrig)
  case ends =>
    rw [yields_devNext (f := playerEndDev i) _ rfl, playerEndDev_of_done hon hbusy hdone]
    have hlisted : i < s.dev.outs.length := Dev.outCh_listed (fun h => by rw [h] at hbusy; exact absurd hbusy (by decide))
    exact ⟨onlyChannel_modOutCh s i _, Dev.outCh_modPlayer_same _ hlisted⟩

end Sys2Proof.Machine
end

section
/-! SUPPORT. A domain in the controller's table, and what the controller does to the others when it settles one and makes its pass
(R474, R491, R495). -/

namespace Sys2Proof.Machine

open Sys2Proof

/-! ### A domain in the table -/

theorem Dev.dom_modDom_same {d : Dev} {n : Nat} (f : Domain → Domain) (h : n < d.pwr.doms.length) : (d.modDom n f).dom n = f (d.dom n) :=
  (at_upd _ _ _ _ _ h).trans (if_pos rfl)

theorem Dev.dom_modDom_ne (d : Dev) {n m : Nat} (f : Domain → Domain) (h : m ≠ n) : (d.modDom n f).dom m = d.dom m := by
  simp [Dev.dom, Dev.modDom, at_, upd, List.getD_eq_getElem?_getD, Ne.symm h]

theorem Dev.dom_of_doms {d e : Dev} (h : e.pwr.doms = d.pwr.doms) (n : Nat) : e.dom n = d.dom n := by rw [Dev.dom, h]; rfl

/-- A domain with a request under way is in the table. -/
theorem Dev.dom_listed {d : Dev} {n : Nat} (h : (d.dom n).phase ≠ .rest) : n < d.pwr.doms.length := by
  by_contra hn
  exact h (congrArg Domain.phase (List.getD_eq_default _ _ (by omega)))

/-! ### A request settled (R495) -/

/-- A domain whose request has ended. -/
def Domain.settled (result reason : Nat) (x : Domain) : Domain :=
  { x with phase := .rest, result := result, reason := if result = 2 then reason else x.reason }

/-- The controller with a domain's request ended, before a refusal is flagged. -/
def settledDev (n result reason : Nat) (d : Dev) : Dev :=
  let e := d.modDom n (Domain.settled result reason)
  { e with pwr := { e.pwr with ready := e.pwr.ready.filter (· != n) }
           boot := { e.boot with sleeps := e.boot.sleeps.filter (· != n) } }

section

variable (n result reason : Nat) (d : Dev)

theorem settle_eq : settle n result reason d =
    if result ≠ 2 then settledDev n result reason d
    else
      let e := (settledDev n result reason d).putFlag Reg.PWR_IRQ_STAT 1 true
      if d.boot.sleeps.contains n then bootWarn 0x0D e.slot 0 e else e := rfl

theorem settle_pwr : (settle n result reason d).pwr = (settledDev n result reason d).pwr := by
  rw [settle_eq]
  split
  · rfl
  · dsimp only
    split <;> simp

theorem settle_of_done (h : result ≠ 2) : settle n result reason d = settledDev n result reason d := by rw [settle_eq, if_pos h]

/-- The registers that the controller writes: its interrupts, and the boot's warnings with the count of lost log entries. -/
def controllerRegs : List Nat := [Reg.PWR_IRQ_STAT, Reg.GLB_BOOT_STAT, Reg.MGT_CNT_LOG_DROP]

theorem bootWarn_regs (code slot sect : Nat) : RegsOnly controllerRegs d (bootWarn code slot sect d) := fun a ha =>
  (Dev.reg_bumpFld_ne (bootLog false code slot sect d) _ _ _ _ _ fun h => ha (by rw [h]; decide)).trans
    (Dev.reg_logEv_ne _ _ _ _ _ _ fun h => ha (by rw [h]; decide))

theorem settle_regs : RegsOnly controllerRegs d (settle n result reason d) := by
  have hset : RegsOnly controllerRegs d ((settledDev n result reason d).putFlag Reg.PWR_IRQ_STAT 1 true) :=
    .putFlag (settledDev n result reason d) _ _ (by decide)
  rw [settle_eq]
  exact .ite (.of_regs rfl) (.ite (hset.trans (bootWarn_regs _ _ _ _)) hset)

theorem settle_dom_same (h : n < d.pwr.doms.length) : (settle n result reason d).dom n = (d.dom n).settled result reason :=
  (Dev.dom_of_doms (by rw [settle_pwr]; rfl) n).trans (Dev.dom_modDom_same _ h)

theorem settle_dom_ne {m : Nat} (h : m ≠ n) : (settle n result reason d).dom m = d.dom m :=
  (Dev.dom_of_doms (by rw [settle_pwr]; rfl) m).trans (Dev.dom_modDom_ne d (Domain.settled result reason) h)

theorem settle_ready : (settle n result reason d).pwr.ready = d.pwr.ready.filter (· != n) := by
  rw [settle_pwr]
  rfl

end

/-! ### The controller's pass (R474, R491) -/

/-- The check of an entry changes nothing, or refuses a domain that is asked to leave ON. -/
theorem checkEntry_cases (n : Nat) (d : Dev) :
    checkEntry n d = d ∨ (∃ t, (d.dom n).phase = .asked t) ∧ checkEntry n d = settle n 2 1 d := by
  unfold checkEntry
  split
  · next t h =>
    split
    · exact .inr ⟨⟨t, h⟩, rfl⟩
    · exact .inl rfl
  · exact .inl rfl

/-- What the pass does to a domain that is not asked to leave ON, to the ready list and to the registers. -/
structure PassKeeps (m : Nat) (d e : Dev) : Prop where
  dom : e.dom m = d.dom m
  ready : e.pwr.ready ⊆ d.pwr.ready
  regs : RegsOnly controllerRegs d e

theorem PassKeeps.refl (m : Nat) (d : Dev) : PassKeeps m d d := ⟨rfl, List.Subset.refl _, .refl _ d⟩

theorem PassKeeps.trans {m : Nat} {d e f : Dev} (h : PassKeeps m d e) (k : PassKeeps m e f) : PassKeeps m d f :=
  ⟨k.dom.trans h.dom, fun _ hx => h.ready (k.ready hx), h.regs.trans k.regs⟩

theorem checkEntry_keepsDom {m : Nat} (n : Nat) {d : Dev} (h : ∀ t, (d.dom m).phase ≠ .asked t) : PassKeeps m d (checkEntry n d) := by
  obtain he | ⟨⟨t, ht⟩, he⟩ := checkEntry_cases n d <;> rw [he]
  · exact .refl m d
  · have hne : m ≠ n := by
      rintro rfl
      exact h t ht
    refine ⟨settle_dom_ne n 2 1 d hne, ?_, settle_regs n 2 1 d⟩
    rw [settle_ready]
    exact List.filter_subset_self _

theorem checkEntries_keepDom {m : Nat} (l : List Nat) {d : Dev} (h : ∀ t, (d.dom m).phase ≠ .asked t) :
    PassKeeps m d (forEach l checkEntry d) := by
  induction l generalizing d with
  | nil => exact .refl m d
  | cons n l ih =>
    have hfirst := checkEntry_keepsDom n h
    exact hfirst.trans (ih (by rwa [hfirst.dom]))

theorem closeBatches_doms (d : Dev) : (closeBatches d).pwr.doms = d.pwr.doms ∧ (closeBatches d).pwr.ready = d.pwr.ready := by
  unfold closeBatches
  dsimp only
  split <;> exact ⟨rfl, rfl⟩

theorem closeBatches_regs (d : Dev) : RegsOnly [Reg.PWR_IRQ_STAT] d (closeBatches d) := by
  unfold closeBatches
  exact .ite (.of_regs rfl) ((RegsOnly.putFlag (aonWakeEnds d.arbEnds) (a := Reg.PWR_IRQ_STAT) 0 true (by decide)).tail rfl)

theorem closeBatches_keepsDom (m : Nat) (d : Dev) : PassKeeps m d (closeBatches d) :=
  ⟨Dev.dom_of_doms (closeBatches_doms d).1 m, (closeBatches_doms d).2 ▸ List.Subset.refl _,
    (closeBatches_regs d).mono (by simp [controllerRegs])⟩

theorem controllerPass_keepsDom {m : Nat} {d : Dev} (h : ∀ t, (d.dom m).phase ≠ .asked t) : PassKeeps m d (controllerPass d) :=
  (checkEntries_keepDom _ h).trans (closeBatches_keepsDom m _)

end Sys2Proof.Machine
end

section
/-! SUPPORT. A domain's registers on its way down and up: at their reset values, and with its save list restored (R355, R470, R482). -/

namespace Sys2Proof.Machine

open Sys2Proof

/-! ### Registers dropped (R470) -/

/-- A store with the entries of some addresses left out. -/
theorem cellGet_filter {α : Type} (dflt : Nat → α) (keep : Nat → Bool) (l : List (Nat × α)) (a : Nat) :
    cellGet dflt (l.filter (fun e => keep e.1)) a = if keep a then cellGet dflt l a else dflt a := by
  induction l with
  | nil => simp [cellGet]
  | cons e l ih =>
    obtain ⟨b, w⟩ := e
    by_cases hb : keep b = true
    · rw [List.filter_cons_of_pos (p := fun e : Nat × α => keep e.1) hb, cellGet, ih, cellGet]
      by_cases hab : a = b
      · simp [hab, hb]
      · simp [hab]
    · rw [List.filter_cons_of_neg (p := fun e : Nat × α => keep e.1) hb, ih, cellGet]
      by_cases hab : a = b
      · simp [hab, hb]
      · simp [hab]

/-- Does a domain's way down leave a register to be treated on its own? -/
def keptReg (n a : Nat) : Bool := blockDom a != n || groupRegs.contains a || a == Reg.OUT_FAULT

/-- The device with the registers of a domain's own at their reset values. -/
def ownDropped (n : Nat) (d : Dev) : Dev := { d with regs := d.regs.filter (fun e => keptReg n e.1) }

theorem ownDropped_reg (n a : Nat) (d : Dev) : (ownDropped n d).reg a = if keptReg n a then d.reg a else regReset a :=
  cellGet_filter _ _ _ _

/-- The registers that the output groups share, a group's bits cleared. -/
def groupCleared (g : Nat) (d : Dev) : Dev :=
  forEach (Reg.OUT_FAULT :: groupRegs) (fun a d => d.putReg a (d.reg a &&& ~~~(groupBits g))) d

theorem groupCleared_reg_ne (g : Nat) {a : Nat} (d : Dev) (hfault : a ≠ Reg.OUT_FAULT) (hgroup : a ∉ groupRegs) :
    (groupCleared g d).reg a = d.reg a := by
  simp only [groupRegs, List.mem_cons, List.not_mem_nil, or_false, not_or] at hgroup
  obtain ⟨hen, hrange, hretry⟩ := hgroup
  simp [groupCleared, forEach, groupRegs, hfault, hen, hrange, hretry]

theorem groupCleared_reg (g : Nat) {a : Nat} (d : Dev) (hgroup : a ∈ groupRegs) :
    (groupCleared g d).reg a = d.reg a &&& ~~~(groupBits g) := by
  simp only [groupRegs, List.mem_cons, List.not_mem_nil, or_false] at hgroup
  obtain rfl | rfl | rfl := hgroup <;>
    simp [groupCleared, forEach, groupRegs, Reg.OUT_FAULT, Reg.OUT_EN, Reg.OUT_RANGE, Reg.OUT_RETRY]

theorem dropRegs_regs_of_none {n : Nat} (d : Dev) (h : groupOf n = none) : (dropRegs n d).regs = (ownDropped n d).regs := by
  unfold dropRegs
  rw [h]
  rfl

theorem dropRegs_regs_of_group {n g : Nat} (d : Dev) (h : groupOf n = some g) :
    (dropRegs n d).regs = (groupCleared g (ownDropped n d)).regs := by
  unfold dropRegs
  rw [h]
  rfl

theorem Dev.reg_of_regs {d e : Dev} (h : e.regs = d.regs) (a : Nat) : e.reg a = d.reg a := by rw [Dev.reg, h]; rfl

/-- Outside the registers that the groups share, a domain's own are at their reset values and every other is as it was. -/
theorem dropRegs_reg (n : Nat) {a : Nat} (d : Dev) (hfault : a ≠ Reg.OUT_FAULT) (hgroup : a ∉ groupRegs) :
    (dropRegs n d).reg a = if blockDom a = n then regReset a else d.reg a := by
  have hown : (ownDropped n d).reg a = if blockDom a = n then regReset a else d.reg a := by
    rw [ownDropped_reg]
    by_cases h : blockDom a = n <;> simp [keptReg, h, hfault, hgroup]
  cases hn : groupOf n with
  | none => exact (Dev.reg_of_regs (dropRegs_regs_of_none d hn) a).trans hown
  | some g => exact (Dev.reg_of_regs (dropRegs_regs_of_group d hn) a).trans ((groupCleared_reg_ne g _ hfault hgroup).trans hown)

/-- Of the registers that the groups share, a group's bits go. -/
theorem dropRegs_reg_group {n g a : Nat} (d : Dev) (hn : groupOf n = some g) (hgroup : a ∈ groupRegs) :
    (dropRegs n d).reg a = d.reg a &&& ~~~(groupBits g) := by
  rw [Dev.reg_of_regs (dropRegs_regs_of_group d hn), groupCleared_reg g _ hgroup, ownDropped_reg, if_pos (by simp [keptReg, hgroup])]

/-! ### A save list restored (R355, R482) -/

/-- What an entry of a save list makes of its register. -/
def restoredWord (e : Nat × Word) (d : Dev) : Word :=
  if groupRegs.contains e.1 then d.reg e.1 ||| e.2 else Word.merge (regReset e.1) e.2 (savedBits e.1)

theorem restoreOne_regs (e : Nat × Word) (d : Dev) : (restoreOne e d).regs = (d.putReg e.1 (restoredWord e d)).regs := by
  unfold restoreOne
  dsimp only
  split <;> rfl

theorem restoreOne_reg_same (e : Nat × Word) (d : Dev) : (restoreOne e d).reg e.1 = restoredWord e d :=
  (Dev.reg_of_regs (restoreOne_regs e d) _).trans (Dev.reg_putReg_same ..)

theorem restoreOne_reg_ne {e : Nat × Word} {a : Nat} (d : Dev) (h : a ≠ e.1) : (restoreOne e d).reg a = d.reg a :=
  (Dev.reg_of_regs (restoreOne_regs e d) _).trans (Dev.reg_putReg_ne _ _ _ _ h)

theorem restoreAll_reg_notMem {l : List (Nat × Word)} {a : Nat} (d : Dev) (h : a ∉ l.map Prod.fst) :
    (forEach l restoreOne d).reg a = d.reg a := by
  induction l generalizing d with
  | nil => rfl
  | cons e l ih =>
    rw [List.map_cons, List.mem_cons, not_or] at h
    obtain ⟨hne, hrest⟩ := h
    exact (ih _ hrest).trans (restoreOne_reg_ne d hne)

/-- In a list that names no register twice, each entry is restored as if it stood alone. -/
theorem restoreAll_reg {l : List (Nat × Word)} {e : Nat × Word} (d : Dev) (hnodup : (l.map Prod.fst).Nodup) (he : e ∈ l) :
    (forEach l restoreOne d).reg e.1 = restoredWord e d := by
  induction l generalizing d with
  | nil => cases he
  | cons x l ih =>
    rw [List.map_cons, List.nodup_cons] at hnodup
    obtain ⟨hx, hnodup⟩ := hnodup
    obtain rfl | hmem := List.mem_cons.1 he
    · exact (restoreAll_reg_notMem _ hx).trans (restoreOne_reg_same _ d)
    · have hne : e.1 ≠ x.1 := fun h => hx (h ▸ List.mem_map_of_mem hmem)
      refine (ih (restoreOne x d) hnodup hmem).trans ?_
      rw [restoredWord, restoreOne_reg_ne d hne]
      rfl

theorem restoreAll_mem (l : List (Nat × Word)) (d : Dev) : (forEach l restoreOne d).mem = d.mem := by simp

/-- Of the bits that a mask selects, a merge holds the new word's. -/
theorem Word.merge_and_mask (old new mask : Word) : Word.merge old new mask &&& mask = new &&& mask := by
  rw [Word.merge]
  ext i hi
  cases hm : mask[i] <;> simp [hm]

/-! ### The registers of a domain that wakes -/

/-- The device with a domain's registers as they stand before its units start: at their reset values once it has been ON, and with its
save list restored. -/
def regsBack (n : Nat) (d : Dev) : Dev := forEach (d.dom n).saved restoreOne (if (d.dom n).everOn then dropRegs n d else d)

theorem unitWake_regs (n : Nat) (cold : Bool) (d : Dev) : (unitWake n cold d).regs = (regsBack n d).regs := by
  unfold unitWake regsBack
  dsimp only
  split_ifs <;> simp

/-- The banks of memory that a power command may lose. -/
def Dev.banks (d : Dev) : List Host.Cell × List Host.Cell × Nat × List Host.Cell × List Host.Cell :=
  (d.mem.pstore, d.mem.wave, d.mem.waveLoss, d.mem.outwave, d.mem.mram)

theorem Dev.banks_of_mem {d e : Dev} (h : e.mem = d.mem) : e.banks = d.banks := by rw [Dev.banks, h]; rfl

theorem unitWake_banks (n : Nat) (cold : Bool) (d : Dev) : (unitWake n cold d).banks = d.banks := by
  have hback : (forEach (d.dom n).saved restoreOne (if (d.dom n).everOn then dropRegs n d else d)).mem = d.mem := by
    rw [restoreAll_mem]
    split <;> simp
  unfold unitWake Dev.banks
  dsimp only
  split_ifs <;> simp_all

end Sys2Proof.Machine
end

section
/-! SUPPORT. A domain leaves ON: its units stop, its registers go, and for OFF its arrays too (R430, R470, R472, R479). -/

namespace Sys2Proof.Machine

open Sys2Proof

theorem unitStop_banks (n : Nat) (d : Dev) : (unitStop n d).banks = d.banks := by
  have hmgmt : (mgmtStop d).banks = d.banks := by
    unfold mgmtStop
    dsimp only
    split <;> rfl
  unfold unitStop
  split_ifs
  · exact hmgmt
  · rfl
  · rfl
  · exact Dev.banks_of_mem (by simp)
  · rfl
  · rfl
  · rfl
  · rfl
  · rfl
  · split
    · exact Dev.banks_of_mem (by simp)
    · exact Dev.banks_of_mem (by simp)
    · rfl

/-- The device with a domain's units stopped, its save list copied and its registers gone. -/
def stoppedDev (n : Nat) (d : Dev) : Dev := (dropRegs n (unitStop n d)).modDom n (fun x => { x with saved := saveList d n })

theorem leaveOn_eq (n : Nat) (t : DomState) (d : Dev) :
    leaveOn n t d = if t = .off then arraysLost n (stoppedDev n d) else stoppedDev n d := rfl

theorem stoppedDev_banks (n : Nat) (d : Dev) : (stoppedDev n d).banks = d.banks :=
  (Dev.banks_of_mem (by simp [stoppedDev])).trans (unitStop_banks n d)

theorem leaveOn_pwr (n : Nat) (t : DomState) (d : Dev) : (leaveOn n t d).pwr = (d.modDom n (fun x => { x with saved := saveList d n })).pwr := by
  have hstop : (stoppedDev n d).pwr = (d.modDom n (fun x => { x with saved := saveList d n })).pwr := by simp [stoppedDev, Dev.modDom]
  rw [leaveOn_eq, ← hstop]
  split <;> simp

theorem leaveOn_reg (n : Nat) (t : DomState) {a : Nat} (d : Dev) (hfault : a ≠ Reg.OUT_FAULT) (hgroup : a ∉ groupRegs) :
    (leaveOn n t d).reg a = if blockDom a = n then regReset a else d.reg a := by
  have hregs : (leaveOn n t d).regs = (dropRegs n (unitStop n d)).regs := by
    rw [leaveOn_eq]
    split <;> simp [stoppedDev]
  rw [Dev.reg_of_regs hregs, dropRegs_reg n _ hfault hgroup, Dev.reg_of_regs (unitStop_keeps n d).1]

theorem leaveOn_banks_of_kept {t : DomState} (n : Nat) (d : Dev) (h : t ≠ .off) : (leaveOn n t d).banks = d.banks := by
  rw [leaveOn_eq, if_neg h]
  exact stoppedDev_banks n d

theorem leaveOn_off (n : Nat) (d : Dev) : leaveOn n .off d = arraysLost n (stoppedDev n d) := by
  rw [leaveOn_eq, if_pos rfl]

/-- What OFF loses of each domain's banks. -/
theorem leaveOn_off_lost (n : Nat) (d : Dev) :
    (n = Dom.ctrl → (leaveOn n .off d).mem.pstore = []) ∧ (n = Dom.mgmt → (leaveOn n .off d).mem.mram = []) ∧
    (n = Dom.memc → (leaveOn n .off d).mem.wave = [] ∧ (leaveOn n .off d).mem.waveLoss = d.mem.waveLoss + 1 ∧
      (leaveOn n .off d).mem.dramReady = false) := by
  have hloss : (stoppedDev n d).mem.waveLoss = d.mem.waveLoss := congrArg (fun b => b.2.2.1) (stoppedDev_banks n d)
  rw [leaveOn_off]
  refine ⟨?_, ?_, ?_⟩ <;> rintro rfl
  · rfl
  · rfl
  · exact ⟨rfl, congrArg (· + 1) hloss, rfl⟩

theorem groupOf_out {g : Nat} (hg : g < 4) : groupOf (Dom.out g) = some g := by
  rw [groupOf, if_pos ⟨by simp [Dom.out], by simp [Dom.out]; omega⟩]
  simp [Dom.out]

/-- Of the output waveform memory, OFF of a group loses that group's. -/
theorem leaveOn_off_outwave {g : Nat} (hg : g < 4) (d : Dev) {h a : Nat} (ha : a < 0x10000) :
    (leaveOn (Dom.out g) .off d).ow8 h a = if h = g then 0 else d.ow8 h a := by
  have hout : (stoppedDev (Dom.out g) d).mem.outwave = d.mem.outwave := congrArg (fun b => b.2.2.2.1) (stoppedDev_banks _ d)
  have hlost : (leaveOn (Dom.out g) .off d).mem.outwave = cellsDrop d.mem.outwave (0x10000 * g) 0x10000 := by
    rw [leaveOn_off, ← hout]
    unfold arraysLost
    dsimp only
    rw [if_neg (by simp [Dom.out, Dom.mgmt]; omega), if_neg (by simp [Dom.out, Dom.ctrl]; omega),
      if_neg (by simp [Dom.out, Dom.memc]; omega), groupOf_out hg]
  unfold Dev.ow8
  rw [hlost, cellsDrop]
  refine (cellGet_filter zeroByte (fun b => decide (b < 0x10000 * g) || decide (0x10000 * g + 0x10000 ≤ b)) _ _).trans ?_
  by_cases hgh : h = g
  · subst hgh
    rw [if_neg (by simp; omega), if_pos rfl, zeroByte]
  · rw [if_pos (by simp; omega), if_neg hgh]

/-! ### The entry at its turn (R476, R479, R481, R482) -/

/-- A domain that has entered a state, with the save list of what its registers held. -/
def Domain.entered (t : DomState) (pads : Bool) (saved : List (Nat × Word)) (x : Domain) : Domain :=
  { x with saved := saved, state := t, latched := pads, cold := t != .ret, wakeNext := none, entryNext := none }

/-- The device with a domain in its target state. -/
def enteredDev (n : Nat) (t : DomState) (d : Dev) : Dev :=
  (leaveOn n t d).modDom n (fun x => { x with
    state := t, latched := hasPads n, cold := t != .ret, wakeNext := none, entryNext := none })

section

variable {d : Dev} {n : Nat} {t : DomState} (hphase : (d.dom n).phase = .acked t)
include hphase

theorem domainEntryDev_of_turn (hturn : execDomain d = some n) (hwake : (d.dom n).wakeNext = none) (hentry : (d.dom n).entryNext = none)
    (hborrow : saveRamBorrowed d = false) : domainEntryDev n d = controllerPass (settle n 1 0 (enteredDev n t d)) := by
  unfold domainEntryDev
  rw [hphase]
  dsimp only
  rw [if_neg (by simp [hturn, hborrow]), hwake, hentry]
  rfl

theorem enteredDev_dom : (enteredDev n t d).dom n = (d.dom n).entered t (hasPads n) (saveList d n) := by
  have hlisted : n < d.pwr.doms.length := Dev.dom_listed (by rw [hphase]; simp)
  have hleft : (leaveOn n t d).dom n = { d.dom n with saved := saveList d n } :=
    (Dev.dom_of_doms (congrArg Power.doms (leaveOn_pwr n t d)) n).trans (Dev.dom_modDom_same _ hlisted)
  have hlisted' : n < (leaveOn n t d).pwr.doms.length := by
    rw [leaveOn_pwr]
    exact hlisted.trans_eq (upd_length ..).symm
  rw [enteredDev, Dev.dom_modDom_same _ hlisted', hleft]
  rfl

/-- What the controller's pass leaves of an entry. -/
theorem enteredDev_settled : ((settle n 1 0 (enteredDev n t d)).dom n = ((d.dom n).entered t (hasPads n) (saveList d n)).settled 1 0) ∧
    PassKeeps n (settle n 1 0 (enteredDev n t d)) (controllerPass (settle n 1 0 (enteredDev n t d))) := by
  have hlisted : n < (enteredDev n t d).pwr.doms.length := by
    rw [enteredDev, Dev.modDom, leaveOn_pwr]
    exact (Dev.dom_listed (by rw [hphase]; simp)).trans_eq ((upd_length ..).trans (upd_length ..)).symm
  have hdom : (settle n 1 0 (enteredDev n t d)).dom n = ((d.dom n).entered t (hasPads n) (saveList d n)).settled 1 0 := by
    rw [settle_dom_same _ _ _ _ hlisted, enteredDev_dom hphase]
  refine ⟨hdom, controllerPass_keepsDom fun u => ?_⟩
  rw [hdom]
  exact DomPhase.noConfusion

end

theorem enteredDev_regs (n : Nat) (t : DomState) {a : Nat} (d : Dev) (hfault : a ≠ Reg.OUT_FAULT) (hgroup : a ∉ groupRegs) :
    (settle n 1 0 (enteredDev n t d)).reg a = if blockDom a = n then regReset a else d.reg a := by
  rw [settle_of_done _ _ _ _ (by decide)]
  exact leaveOn_reg n t d hfault hgroup

theorem notMem_controllerRegs {a : Nat} (hdom : blockDom a ≠ 0) (hdrop : a ≠ Reg.MGT_CNT_LOG_DROP) : a ∉ controllerRegs := by
  simp only [controllerRegs, List.mem_cons, List.not_mem_nil, or_false, not_or]
  refine ⟨?_, ?_, hdrop⟩ <;> rintro rfl <;> exact hdom (by decide)

theorem domainEntryDev_of_rest {d : Dev} {n : Nat} (h : (d.dom n).phase = .rest) : domainEntryDev n d = d := by
  unfold domainEntryDev
  rw [h]

theorem domainEntryDev_of_borrow {d : Dev} (n : Nat) (h : saveRamBorrowed d = true) : domainEntryDev n d = d := by
  unfold domainEntryDev
  split
  · exact if_pos (.inr h)
  · rfl

end Sys2Proof.Machine
end

section
/-! SUPPORT. A domain reports ON, and what may follow its report: the cascade's link and the streamed sections (R99, R101, R481, R487,
R528). -/

namespace Sys2Proof.Machine

open Sys2Proof

/-! ### Pads released (R481) -/

theorem releasePads_pwr (n : Nat) (d : Dev) : (releasePads n d).pwr = (d.modDom n (fun x => { x with latched := false })).pwr := by
  unfold releasePads
  dsimp only
  split_ifs <;> rfl

theorem releasePads_dom_ne {n m : Nat} (d : Dev) (h : m ≠ n) : (releasePads n d).dom m = d.dom m :=
  (Dev.dom_of_doms (congrArg Power.doms (releasePads_pwr n d)) m).trans (Dev.dom_modDom_ne d _ h)

theorem releasePads_dom_same {n : Nat} {d : Dev} (h : n < d.pwr.doms.length) :
    (releasePads n d).dom n = { d.dom n with latched := false } :=
  (Dev.dom_of_doms (congrArg Power.doms (releasePads_pwr n d)) n).trans (Dev.dom_modDom_same _ h)

/-! ### EN of a woken CAS (R528) -/

theorem setIrq_regs {l : List Nat} (d : Dev) (dom : Nat) {a : Nat} (n : Nat) (h : a ∈ l) : RegsOnly l d (d.setIrq dom a n) :=
  .ite (.putFlag d n true h) (.refl l d)

/-- The registers that a configuration error of the link writes. -/
def linkRegs : List Nat := [Reg.CAS_IRQ_STAT, Reg.MGT_CNT_LOG_DROP]

/-- A configuration error found while the downstream port is not locked is flagged and logged, and nothing else. -/
theorem cfgError_of_unlocked {d : Dev} (h : d.cas.down.locked = false) : RegsOnly linkRegs d (cfgError d) ∧ (cfgError d).mem = d.mem := by
  unfold cfgError
  rw [if_neg (by simp [h])]
  extract_lets _ e
  have hregs : RegsOnly linkRegs d (casIrq 2 e) := setIrq_regs e Dom.cas (a := Reg.CAS_IRQ_STAT) 2 (by decide)
  exact ⟨fun a ha => (Dev.reg_logEv_ne _ _ _ _ _ _ fun hd => ha (by rw [hd]; decide)).trans (hregs a ha), (Dev.mem_logEv ..).trans (Dev.mem_setIrq ..)⟩

theorem linkOn_regs (d : Dev) : RegsOnly linkRegs d (linkOn d) ∧ (linkOn d).mem = d.mem := by
  unfold linkOn
  dsimp only
  split
  · exact cfgError_of_unlocked (d := d.modCas (fun _ => { Cas.reset with en := true, cfg := d.reg Reg.CAS_CFG })) rfl
  · exact ⟨.of_regs rfl, rfl⟩

/-! ### The report (R487) -/

/-- A domain that has reported ON, its pads released if PAD_AUTO says so. -/
def Domain.reported (release : Bool) (x : Domain) : Domain :=
  { x with state := .on, everOn := true, phase := .rest, result := 1, latched := x.latched && !release }

/-- The registers that a report may write. -/
def reportRegs : List Nat := [Reg.MGT_IRQ_STAT, Reg.CAS_CTL, Reg.CAS_IRQ_STAT, Reg.MGT_CNT_LOG_DROP, Reg.PWR_IRQ_STAT]

/-- The device with a domain reported ON in the controller's table. -/
def reportedDev (n : Nat) (d : Dev) : Dev :=
  let e := settle n 1 0 (d.modDom n (fun x => { x with state := .on, everOn := true }))
  let e := if n = Dom.ctrl then syncAccepting e else e
  if e.flag Reg.PWR_PAD_AUTO n then releasePads n e else e

theorem reportOn_eq (n : Nat) (d : Dev) : reportOn n d =
    let e := reportedDev n d
    let e := if n = Dom.mgmt ∧ (e.reg Reg.MGT_ALARM_STAT).bits 2 0 ≠ 0 then e.mgtIrq 3 else e
    let e := if n = Dom.cas ∧ e.flag Reg.CAS_CTL 1 then linkOn (e.putFlag Reg.CAS_CTL 0 true) else e
    closeBatches e := rfl

/-- Behind the table, a report changes no bank, no domain and no register but those of its own. -/
theorem reportOn_behind (n : Nat) (d : Dev) : RegsOnly reportRegs (reportedDev n d) (reportOn n d) ∧
    (reportOn n d).mem = (reportedDev n d).mem ∧ (reportOn n d).pwr.doms = (reportedDev n d).pwr.doms ∧
    (reportOn n d).pwr.ready = (reportedDev n d).pwr.ready := by
  rw [reportOn_eq]
  extract_lets e e1 e2
  have h1 : RegsOnly reportRegs e e1 ∧ e1.mem = e.mem ∧ e1.pwr = e.pwr := by
    refine ⟨.ite (setIrq_regs e Dom.mgmt (a := Reg.MGT_IRQ_STAT) 3 (by decide)) (.refl _ e), ?_, ?_⟩ <;> simp only [e1] <;> split <;> simp
  have h2 : RegsOnly reportRegs e1 e2 ∧ e2.mem = e1.mem ∧ e2.pwr = e1.pwr := by
    obtain ⟨hlink, hmem⟩ := linkOn_regs (e1.putFlag Reg.CAS_CTL 0 true)
    refine ⟨.ite ((RegsOnly.putFlag e1 (a := Reg.CAS_CTL) 0 true (by decide)).trans (hlink.mono (by simp [linkRegs, reportRegs]))) (.refl _ e1), ?_, ?_⟩ <;>
      simp only [e2] <;> split
    · exact hmem
    · rfl
    · simp
    · rfl
  obtain ⟨hregs1, hmem1, hpwr1⟩ := h1
  obtain ⟨hregs2, hmem2, hpwr2⟩ := h2
  obtain ⟨hdoms, hready⟩ := closeBatches_doms e2
  exact ⟨(hregs1.trans hregs2).trans ((closeBatches_regs e2).mono (by simp [reportRegs])),
    ((closeBatches_keeps e2).2.1.trans hmem2).trans hmem1, by rw [hdoms, hpwr2, hpwr1], by rw [hready, hpwr2, hpwr1]⟩

theorem reportedDev_regs (n : Nat) (d : Dev) : (reportedDev n d).regs = d.regs ∧ (reportedDev n d).mem = d.mem := by
  unfold reportedDev
  rw [settle_of_done _ _ _ _ (by decide)]
  dsimp only
  split_ifs <;> simp [settledDev]

/-- In the controller's table a report changes the one domain, and takes it off the ready list. -/
theorem reportedDev_pwr (n : Nat) {d : Dev} (h : n < d.pwr.doms.length) :
    (reportedDev n d).dom n = (d.dom n).reported (d.flag Reg.PWR_PAD_AUTO n) ∧ (∀ m, m ≠ n → (reportedDev n d).dom m = d.dom m) ∧
      (reportedDev n d).pwr.ready = d.pwr.ready.filter (· != n) := by
  unfold reportedDev
  extract_lets e e1
  have hlisted : n < (d.modDom n (fun x => { x with state := .on, everOn := true })).pwr.doms.length := h.trans_eq (upd_length ..).symm
  have hpwr : e1.pwr = e.pwr := by
    simp only [e1]
    split <;> simp
  have hlisted' : n < e1.pwr.doms.length := by
    rw [hpwr, settle_pwr]
    exact hlisted.trans_eq (upd_length ..).symm
  have hflag : e1.flag Reg.PWR_PAD_AUTO n = d.flag Reg.PWR_PAD_AUTO n := by
    have hregs : e1.regs = d.regs := by
      simp only [e1, e]
      rw [settle_of_done _ _ _ _ (by decide)]
      split <;> simp [settledDev]
    rw [Dev.flag, Dev.flag, Dev.reg_of_regs hregs]
  have hdom : e1.dom n = { (d.dom n).reported false with latched := (d.dom n).latched } := by
    refine (Dev.dom_of_doms (congrArg Power.doms hpwr) n).trans ((settle_dom_same _ _ _ _ hlisted).trans ?_)
    rw [Dev.dom_modDom_same _ h]
    rfl
  have hother (m : Nat) (hm : m ≠ n) : e1.dom m = d.dom m :=
    (Dev.dom_of_doms (congrArg Power.doms hpwr) m).trans ((settle_dom_ne _ _ _ _ hm).trans (Dev.dom_modDom_ne d _ hm))
  have hready : e1.pwr.ready = d.pwr.ready.filter (· != n) := by rw [hpwr, settle_ready]; rfl
  rw [hflag]
  split
  · next hauto =>
    rw [releasePads_dom_same hlisted', releasePads_pwr, hdom, hauto]
    exact ⟨by simp [Domain.reported], fun m hm => (releasePads_dom_ne _ hm).trans (hother m hm), hready⟩
  · next hauto =>
    rw [hdom, Bool.eq_false_iff.2 hauto]
    exact ⟨by simp [Domain.reported], hother, hready⟩

/-! ### The streamed sections (R99, R101) -/

/-- The registers that the issue of a streamed section's transfer writes: channel 2's descriptor, and a rejection's flag and count. -/
def streamRegs : List Nat :=
  [Reg.MEM_MV_DESC0 2, Reg.MEM_MV_DESC1 2, Reg.MEM_MV_DESC2 2, Reg.MEM_MV_DESC3 2, Reg.MEM_IRQ_STAT, Reg.MEM_CNT_MV_REJ]

/-- What the streaming leaves alone: the controller, the timer, the banks, and the registers but its own. -/
structure StreamKeeps (d e : Dev) : Prop where
  pwr : e.pwr = d.pwr
  frame : e.frame = d.frame
  banks : e.banks = d.banks
  regs : RegsOnly streamRegs d e

theorem putReg_regsOnly {l : List Nat} (d : Dev) {a : Nat} (w : Word) (h : a ∈ l) : RegsOnly l d (d.putReg a w) :=
  fun _ hb => Dev.reg_putReg_ne _ _ _ _ fun e => hb (e ▸ h)

theorem firmwareIssue_streamKeeps (m : Mover) (d : Dev) : StreamKeeps d (firmwareIssue 2 m d) := by
  refine ⟨by simp, by simp, ?_, ?_⟩
  · have hdesc : (putDesc 2 m d).banks = d.banks := Dev.banks_of_mem (by simp)
    unfold firmwareIssue moverTake
    dsimp only
    split <;> exact hdesc
  · have hdesc : RegsOnly streamRegs d (putDesc 2 m d) :=
      (((putReg_regsOnly _ _ (by decide)).trans (putReg_regsOnly _ _ (by decide))).trans (putReg_regsOnly _ _ (by decide))).trans
        (putReg_regsOnly _ _ (by decide))
    unfold firmwareIssue moverTake
    exact hdesc.trans (.ite (.of_regs rfl)
      ((RegsOnly.putFlag (Dev.modMover _ _ _) (a := Reg.MEM_IRQ_STAT) 1 true (by decide)).trans (.bump _ (a := Reg.MEM_CNT_MV_REJ) (by decide))))

theorem streamFront_keeps (s : State) : ∃ e, streamFront s = { s with dev := e } ∧ StreamKeeps s.dev e := by
  have hsame : ∃ e, s = { s with dev := e } ∧ StreamKeeps s.dev e := ⟨s.dev, rfl, rfl, rfl, rfl, .refl _ _⟩
  unfold streamFront
  split
  · exact hsame
  · dsimp only
    split
    · exact hsame
    · refine ⟨_, rfl, ?_⟩
      split
      · exact ⟨rfl, rfl, rfl, .of_regs rfl⟩
      · obtain ⟨hpwr, hframe, hbanks, hregs⟩ := firmwareIssue_streamKeeps (streamMove s _)
          (s.dev.modBoot (fun t => { t with streaming := true }))
        exact ⟨hpwr, hframe, hbanks, hregs⟩

end Sys2Proof.Machine
end

section
/-! PROOF. Domains leave ON and come back (O47: R355, R430, R441, R470, R472, R479, R481, R482, R487). -/

namespace Sys2Proof.Machine

open Sys2Proof

/-! ### A wake at its turn (R487) -/

/-- The device with a domain's units started, before it reports ON. -/
def wokenDev (n : Nat) (d : Dev) : Dev :=
  let e := unitWake n (d.dom n).cold d
  if n = Dom.mgmt then mgmtResume e else e

theorem wokenDev_keeps (n : Nat) (d : Dev) : (wokenDev n d).pwr = d.pwr ∧ (wokenDev n d).frame = d.frame ∧
    (wokenDev n d).regs = (regsBack n d).regs ∧ (wokenDev n d).banks = d.banks := by
  rw [← unitWake_regs n (d.dom n).cold d, ← unitWake_banks n (d.dom n).cold d]
  unfold wokenDev
  dsimp only
  split
  · exact ⟨by simp, by simp, by simp, rfl⟩
  · exact ⟨by simp, by simp, rfl, rfl⟩

/-- The registers that may not read as they were saved once a wake has reported. -/
def wakeRegs : List Nat := reportRegs ++ streamRegs

/-- What a wake makes of the device. -/
structure Woken (n : Nat) (d e : Dev) : Prop where
  dom : e.dom n = (d.dom n).reported ((regsBack n d).flag Reg.PWR_PAD_AUTO n)
  others : ∀ m, m ≠ n → e.dom m = d.dom m
  ready : e.pwr.ready = d.pwr.ready.filter (· != n)
  frame : e.frame = d.frame
  banks : e.banks = d.banks
  regs : RegsOnly wakeRegs (regsBack n d) e

theorem reportOn_woken {n : Nat} {d : Dev} (h : n < d.pwr.doms.length) : Woken n d (reportOn n (wokenDev n d)) := by
  obtain ⟨hpwr, hframe, hregs, hbanks⟩ := wokenDev_keeps n d
  obtain ⟨hreported, hmem, hdoms, hready⟩ := reportOn_behind n (wokenDev n d)
  obtain ⟨hregs', hmem'⟩ := reportedDev_regs n (wokenDev n d)
  obtain ⟨hdom, hothers, hready'⟩ := reportedDev_pwr n (d := wokenDev n d) (hpwr ▸ h)
  have hback (m : Nat) : (wokenDev n d).dom m = d.dom m := Dev.dom_of_doms (congrArg Power.doms hpwr) m
  have hflag : (wokenDev n d).flag Reg.PWR_PAD_AUTO n = (regsBack n d).flag Reg.PWR_PAD_AUTO n := by
    rw [Dev.flag, Dev.reg_of_regs hregs]
    rfl
  exact {
    dom := by rw [Dev.dom_of_doms hdoms, hdom, hback, hflag]
    others := fun m hm => by rw [Dev.dom_of_doms hdoms, hothers m hm, hback]
    ready := by rw [hready, hready', hpwr]
    frame := by simp [hframe]
    banks := by rw [Dev.banks_of_mem (hmem.trans hmem'), hbanks]
    regs := ((RegsOnly.of_regs (hregs'.trans hregs)).trans hreported).mono (by simp [wakeRegs]) }

theorem StreamKeeps.woken {n : Nat} {d e f : Dev} (h : Woken n d e) (k : StreamKeeps e f) : Woken n d f := {
  dom := (Dev.dom_of_doms (congrArg Power.doms k.pwr) n).trans h.dom
  others := fun m hm => (Dev.dom_of_doms (congrArg Power.doms k.pwr) m).trans (h.others m hm)
  ready := (congrArg Power.ready k.pwr).trans h.ready
  frame := k.frame.trans h.frame
  banks := k.banks.trans h.banks
  regs := h.regs.trans (k.regs.mono (by simp [wakeRegs])) }

theorem domainWakeState_of_turn {s : State} {n : Nat} (hphase : (s.dev.dom n).phase = .waking) (hturn : execDomain s.dev = some n)
    (href : n = Dom.ctrl → s.dev.frame.refValid = true) (hcold : n = Dom.mgmt → (s.dev.dom n).cold = false) :
    domainWakeState n s = { s with dev := reportOn n (wokenDev n s.dev) } := by
  have hmay : ¬((s.dev.dom n).phase ≠ .waking ∨ execDomain s.dev ≠ some n ∨ (n = Dom.ctrl ∧ !s.dev.frame.refValid)) := by
    rintro (h | h | ⟨h, hno⟩)
    · exact h hphase
    · exact h hturn
    · simp [href h] at hno
  have hwarm : ¬(n = Dom.mgmt ∧ (s.dev.dom n).cold = true) := fun ⟨hn, h⟩ => by simp [hcold hn] at h
  unfold domainWakeState wokenDev
  rw [if_neg hmay]
  dsimp only
  rw [if_neg hwarm]
  split <;> rfl

theorem domainWake_woken {s : State} {n : Nat} (hphase : (s.dev.dom n).phase = .waking) (hturn : execDomain s.dev = some n)
    (href : n = Dom.ctrl → s.dev.frame.refValid = true) (hcold : n = Dom.mgmt → (s.dev.dom n).cold = false) :
    Yields (.domainWake n) s (Woken n s.dev) := by
  have hstate := domainWakeState_of_turn hphase hturn href hcold
  obtain ⟨e, he, hkeeps⟩ := streamFront_keeps (domainWakeState n s)
  rw [hstate] at hkeeps
  refine ⟨e, congrArg Host.Outcome.next (he.trans (by rw [hstate])), ?_⟩
  exact hkeeps.woken (reportOn_woken (Dev.dom_listed (by rw [hphase]; simp)))

theorem domainWake_of_rest {s : State} {n : Nat} (hphase : (s.dev.dom n).phase = .rest) (hstreams : s.dev.boot.streams = []) :
    exec (.domainWake n) s = .next s := by
  have hsame : domainWakeState n s = s := if_pos (.inl (by rw [hphase]; simp))
  exact congrArg Host.Outcome.next ((congrArg streamFront hsame).trans (streamFront_waits s (.inl hstreams)))

/-! ### The saved fields read as saved (R355, R482) -/

theorem savedBits_of_wakeRegs {a : Nat} (h : a ∈ wakeRegs) (hcas : a ≠ Reg.CAS_CTL) (hdesc : ∀ k, k < 4 → a ≠ Reg.MEM_MV_DESC0 2 + 4 * k) :
    savedBits a = 0 := by
  simp only [wakeRegs, reportRegs, streamRegs, List.cons_append, List.nil_append, List.mem_cons, List.not_mem_nil, or_false] at h
  obtain rfl | rfl | rfl | rfl | rfl | rfl | rfl | rfl | rfl | rfl | rfl := h
  · decide
  · exact absurd rfl hcas
  · decide
  · decide
  · decide
  · exact absurd rfl (hdesc 0 (by decide))
  · exact absurd rfl (hdesc 1 (by decide))
  · exact absurd rfl (hdesc 2 (by decide))
  · exact absurd rfl (hdesc 3 (by decide))
  · decide
  · decide


section

variable {n : Nat} {d : Dev} {a : Nat} {w : Word} (hnodup : ((d.dom n).saved.map Prod.fst).Nodup) (hmem : (a, w) ∈ (d.dom n).saved)
include hnodup hmem

theorem regsBack_reg (hgroup : a ∉ groupRegs) : (regsBack n d).reg a = Word.merge (regReset a) w (savedBits a) := by
  have h := restoreAll_reg (if (d.dom n).everOn then dropRegs n d else d) hnodup hmem
  rwa [restoredWord, if_neg (c := groupRegs.contains a = true) (by simpa using hgroup)] at h

/-- Of a register that the groups share, a group's bits were cleared before the save list was put back. -/
theorem regsBack_reg_group {g : Nat} (hn : groupOf n = some g) (hever : (d.dom n).everOn = true) (hgroup : a ∈ groupRegs) :
    (regsBack n d).reg a &&& groupBits g = w &&& groupBits g := by
  have h := restoreAll_reg (dropRegs n d) hnodup hmem
  rw [restoredWord, if_pos (c := groupRegs.contains a = true) (by simpa using hgroup), dropRegs_reg_group d hn hgroup] at h
  rw [regsBack, if_pos hever, h]
  ext i hi
  cases hbit : (groupBits g)[i] <;> simp [hbit]

end

theorem regsBack_padAuto {n : Nat} {d : Dev} (hn : n ≠ 0) (hown : ∀ e ∈ (d.dom n).saved, blockDom e.1 = n) :
    (regsBack n d).reg Reg.PWR_PAD_AUTO = d.reg Reg.PWR_PAD_AUTO := by
  have hdom : blockDom Reg.PWR_PAD_AUTO ≠ n := fun h => hn (h.symm.trans (by decide))
  have hnot : Reg.PWR_PAD_AUTO ∉ (d.dom n).saved.map Prod.fst := by
    intro h
    obtain ⟨e, he, hkey⟩ := List.mem_map.1 h
    exact hdom (hkey ▸ hown e he)
  refine (restoreAll_reg_notMem _ hnot).trans ?_
  split
  · rw [dropRegs_reg n d (by decide) (by decide), if_neg hdom]
  · rfl

theorem Woken.reg_and_savedBits {n : Nat} {d e : Dev} (h : Woken n d e) (hnodup : ((d.dom n).saved.map Prod.fst).Nodup) {a : Nat} {w : Word}
    (hmem : (a, w) ∈ (d.dom n).saved) (hgroup : a ∉ groupRegs) (hcas : a ≠ Reg.CAS_CTL) (hdesc : ∀ k, k < 4 → a ≠ Reg.MEM_MV_DESC0 2 + 4 * k) :
    e.reg a &&& savedBits a = w &&& savedBits a := by
  by_cases ha : a ∈ wakeRegs
  · rw [savedBits_of_wakeRegs ha hcas hdesc]
    exact BitVec.and_zero.trans BitVec.and_zero.symm
  · rw [h.regs a ha, regsBack_reg hnodup hmem hgroup, Word.merge_and_mask]

theorem Woken.serial_reg {d e : Dev} (h : Woken Dom.serial d e) (hnodup : ((d.dom Dom.serial).saved.map Prod.fst).Nodup) {a : Nat} {w : Word}
    (hmem : (a, w) ∈ (d.dom Dom.serial).saved) (hdom : blockDom a = Dom.serial) : e.reg a = Word.merge (regReset a) w (savedBits a) := by
  have hwake : ∀ b ∈ wakeRegs, blockDom b ≠ Dom.serial := by decide
  have hgroups : ∀ b ∈ groupRegs, blockDom b ≠ Dom.serial := by decide
  rw [h.regs a fun ha => hwake a ha hdom, regsBack_reg hnodup hmem fun ha => hgroups a ha hdom]

theorem Woken.reg_and_groupBits {n g : Nat} {d e : Dev} (h : Woken n d e) (hn : groupOf n = some g) (hever : (d.dom n).everOn = true)
    (hnodup : ((d.dom n).saved.map Prod.fst).Nodup) {a : Nat} {w : Word} (hmem : (a, w) ∈ (d.dom n).saved) (hgroup : a ∈ groupRegs) :
    e.reg a &&& groupBits g = w &&& groupBits g := by
  have hgroups : ∀ b ∈ groupRegs, b ∉ wakeRegs := by decide
  rw [h.regs a (hgroups a hgroup), regsBack_reg_group hnodup hmem hn hever hgroup]

/-! ### Pads released by PAD_RELEASE (R481) -/

/-- A domain that is ON is in the table. -/
theorem Dev.listed_of_isOn {d : Dev} {n : Nat} (h : d.isOn n = true) : n < d.pwr.doms.length := by
  by_contra hn
  have hdef : d.dom n = Domain.reset .off := List.getD_eq_default _ _ (by omega)
  rw [Dev.isOn, hdef] at h
  exact absurd h (by decide)

theorem Dev.isOn_of_dom {d e : Dev} {n : Nat} (h : e.dom n = d.dom n) : e.isOn n = d.isOn n := by rw [Dev.isOn, h]; rfl

/-- What PAD_RELEASE does at domain n. -/
def padRound (v : Word) (n : Nat) (d : Dev) : Dev := if 0 < n ∧ v.getLsbD n ∧ d.isOn n then releasePads n d else d

theorem padReleaseDev_eq (v : Word) (d : Dev) : padReleaseDev v d = forUpTo 30 (padRound v) d := rfl

theorem padRound_dom_ne (v : Word) {n m : Nat} (d : Dev) (h : n ≠ m) : (padRound v n d).dom m = d.dom m := by
  unfold padRound
  split
  · exact releasePads_dom_ne d h.symm
  · rfl

theorem padRound_dom_same (v : Word) (n : Nat) (d : Dev) : (padRound v n d).dom n =
    if 0 < n ∧ v.getLsbD n = true ∧ d.isOn n = true then { d.dom n with latched := false } else d.dom n := by
  unfold padRound
  split
  · next h => exact releasePads_dom_same (Dev.listed_of_isOn h.2.2)
  · rfl

theorem padReleaseDev_dom (v : Word) {n : Nat} (hn : n < 30) (d : Dev) : (padReleaseDev v d).dom n =
    if 0 < n ∧ v.getLsbD n = true ∧ d.isOn n = true then { d.dom n with latched := false } else d.dom n := by
  obtain ⟨e, he, hround⟩ := forUpTo_round (fun d => d.dom n) (f := padRound v) hn (fun m d hm => padRound_dom_ne v d hm) d
  rw [padReleaseDev_eq, hround, padRound_dom_same, Dev.isOn_of_dom he, he]

/-- What PAD_RELEASE goes by at CTRL, and the levels that it lets go. -/
def ctrlPads (d : Dev) : Domain × Option (List Bool) := (d.dom Dom.ctrl, d.cnt.latched)

theorem padRound_ctrlPads_ne (v : Word) {n : Nat} (d : Dev) (h : n ≠ Dom.ctrl) : ctrlPads (padRound v n d) = ctrlPads d := by
  have hlatched : (padRound v n d).cnt.latched = d.cnt.latched := by
    unfold padRound releasePads
    dsimp only
    split_ifs <;> rfl
  rw [ctrlPads, padRound_dom_ne v d h, hlatched]
  rfl

theorem padReleaseDev_latched {v : Word} {d : Dev} (hbit : v.getLsbD Dom.ctrl = true) (hon : d.isOn Dom.ctrl = true) :
    (padReleaseDev v d).cnt.latched = none := by
  obtain ⟨e, he, hround⟩ := forUpTo_round ctrlPads (f := padRound v) (n := 30) (k := Dom.ctrl) (by decide)
    (fun n d hn => padRound_ctrlPads_ne v d hn) d
  have hdom : e.dom Dom.ctrl = d.dom Dom.ctrl := congrArg Prod.fst he
  have hturn : padRound v Dom.ctrl e = releasePads Dom.ctrl e := if_pos ⟨by decide, hbit, (Dev.isOn_of_dom hdom).trans hon⟩
  rw [hturn] at hround
  exact congrArg Prod.snd hround

/-! ### An entry at its turn (R430, R470, R472, R479, R481, R482) -/

/-- What an entry makes of the device. -/
structure Entered (n : Nat) (t : DomState) (d e : Dev) : Prop where
  dom : e.dom n = ((d.dom n).entered t (hasPads n) (saveList d n)).settled 1 0
  ready : n ∉ e.pwr.ready
  reg : ∀ a, a ∉ controllerRegs → a ≠ Reg.OUT_FAULT → a ∉ groupRegs → e.reg a = if blockDom a = n then regReset a else d.reg a
  mem : e.mem = (leaveOn n t d).mem

theorem domainEntry_entered {s : State} {n : Nat} {t : DomState} (hphase : (s.dev.dom n).phase = .acked t) (hturn : execDomain s.dev = some n)
    (hwake : (s.dev.dom n).wakeNext = none) (hentry : (s.dev.dom n).entryNext = none) (hborrow : saveRamBorrowed s.dev = false) :
    Yields (.domainEntry n) s (Entered n t s.dev) := by
  obtain ⟨hdom, hpass⟩ := enteredDev_settled hphase
  rw [yields_devNext _ rfl, domainEntryDev_of_turn hphase hturn hwake hentry hborrow]
  exact {
    dom := hpass.dom.trans hdom
    ready := fun h => by
      have hsettled := hpass.ready h
      rw [settle_ready] at hsettled
      simp at hsettled
    reg := fun a ha hfault hgroup => (hpass.regs a ha).trans (enteredDev_regs n t s.dev hfault hgroup)
    mem := by simp [enteredDev, Dev.modDom] }

section

variable {n : Nat} {t : DomState} {d e : Dev} (h : Entered n t d e)
include h

theorem Entered.reg_own (hn : n ≠ 0) {a : Nat} (hdom : blockDom a = n) (hgroup : a ∉ groupRegs) (hfault : a ≠ Reg.OUT_FAULT)
    (hdrop : a ≠ Reg.MGT_CNT_LOG_DROP) : e.reg a = regReset a := by
  rw [h.reg a (notMem_controllerRegs (by rwa [hdom]) hdrop) hfault hgroup, if_pos hdom]

theorem Entered.reg_other {a : Nat} (hdom : blockDom a ≠ n) (haon : blockDom a ≠ 0) (hgroup : a ∉ groupRegs) (hfault : a ≠ Reg.OUT_FAULT)
    (hdrop : a ≠ Reg.MGT_CNT_LOG_DROP) : e.reg a = d.reg a := by
  rw [h.reg a (notMem_controllerRegs haon hdrop) hfault hgroup, if_neg hdom]

theorem Entered.banks_of_ret (ht : t = .ret) : e.banks = d.banks :=
  (Dev.banks_of_mem h.mem).trans (leaveOn_banks_of_kept n d (by simp [ht]))

end

/-! ### O47 -/

/-- Settles O47: an entry at its turn is `Entered`, a wake at its turn `Woken`, and PAD_RELEASE is a loop whose rounds each see to one
domain. -/
theorem domainsEnterAndWake : Obligations.DomainsEnterAndWake := by
  unfold Obligations.DomainsEnterAndWake
  refine ⟨?entry, ?rest, ?borrow, ?wakeRest, ?wake, ?pads⟩
  case entry =>
    intro s n t hphase hturn hwake hn hentry hborrow
    obtain ⟨e, hnext, h⟩ := domainEntry_entered hphase hturn hwake hentry hborrow
    refine ⟨e, hnext, by rw [h.dom]; rfl, by rw [h.dom]; rfl, by rw [h.dom]; rfl, by rw [h.dom]; rfl, by rw [h.dom]; rfl, h.ready,
      fun a => h.reg_own hn, fun a => h.reg_other, ?ret, ?off⟩
    case ret =>
      intro ht
      simpa [Dev.banks] using h.banks_of_ret ht
    case off =>
      rintro rfl
      obtain ⟨hctrl, hmgmt, hmemc⟩ := leaveOn_off_lost n s.dev
      rw [← h.mem] at hctrl hmgmt hmemc
      refine ⟨hctrl, hmgmt, hmemc, ?_⟩
      rintro g hg rfl
      have how (k a : Nat) (ha : a < 0x10000) : e.ow8 k a = if k = g then 0 else s.dev.ow8 k a := by
        rw [← leaveOn_off_outwave hg s.dev ha, Dev.ow8, h.mem]
        rfl
      exact ⟨fun a ha => (how g a ha).trans (if_pos rfl), fun k a hk ha => (how k a ha).trans (if_neg hk)⟩
  case rest => exact fun s n hphase => devNext_same (domainEntryDev_of_rest hphase)
  case borrow => exact fun s n hborrow => devNext_same (domainEntryDev_of_borrow n hborrow)
  case wakeRest => exact fun s n => domainWake_of_rest
  case wake =>
    intro s n hphase hturn href hcold
    obtain ⟨e, hnext, h⟩ := domainWake_woken hphase hturn href hcold
    have hbanks := h.banks
    simp only [Dev.banks, Prod.mk.injEq] at hbanks
    obtain ⟨hpstore, hwave, -⟩ := hbanks
    refine ⟨e, hnext, by rw [h.dom]; rfl, by rw [h.dom]; rfl, by rw [h.dom]; rfl, by rw [h.dom]; rfl, by simp [h.ready], h.others, ?timer,
      ?latched, ?serial, ?fields, ?groups, hpstore, hwave⟩
    case timer =>
      rintro rfl
      simp [Dev.timerRuns, Dev.isOn, h.dom, Domain.reported, h.frame, href rfl]
    case latched =>
      intro hauto hn hown
      have hflag : (regsBack n s.dev).flag Reg.PWR_PAD_AUTO n = false := by rw [Dev.flag, regsBack_padAuto hn hown]; exact hauto
      simp [h.dom, Domain.reported, hflag]
    case serial =>
      rintro rfl hnodup a w hmem hdom
      exact h.serial_reg hnodup hmem hdom
    case fields =>
      intro _ hnodup a w hmem _ hgroup hcas hdesc
      exact h.reg_and_savedBits hnodup hmem hgroup hcas hdesc
    case groups =>
      rintro g hg rfl hever hnodup a w hmem hgroup
      exact h.reg_and_groupBits (groupOf_out hg) hever hnodup hmem hgroup
  case pads =>
    intro s v hturn
    rw [yields_hostNext _ rfl hturn]
    exact ⟨fun n hn => padReleaseDev_dom v hn s.dev, padReleaseDev_latched, by simp, by simp, by simp⟩

end Sys2Proof.Machine
end

section
/-! PROOF. One step: every command ends in a next state, and an empty queue lets the clock and start-up's first steps pass (R99, R111,
R446, R473). -/

namespace Sys2Proof.Machine

open Sys2Proof

/-! ### Every command completes -/

/-- No command ends in a fault or a refusal. -/
theorem exec_goesOn (c : Instr) (s : State) : ∃ t, exec c s = .next t := by
  cases c
  case moverGo c v =>
    show ∃ t, (if c < 2 then hostNext s (moverGoDev c v) else devNext s (moverGoDev c v)) = .next t
    split
    · exact ⟨_, rfl⟩
    · exact ⟨_, rfl⟩
  case moverAbort c v =>
    show ∃ t, (if c < 2 then hostNext s (moverAbortDev c v) else devNext s (moverAbortDev c v)) = .next t
    split
    · exact ⟨_, rfl⟩
    · exact ⟨_, rfl⟩
  case vidSettled =>
    show ∃ t, (if s.held then .next s else devNext s vidSettledDev) = .next t
    split
    · exact ⟨_, rfl⟩
    · exact ⟨_, rfl⟩
  case sensorMeasurement ts ms =>
    show ∃ t, (if s.held then .next s else devNext s (sensorMeasurementDev ts ms)) = .next t
    split
    · exact ⟨_, rfl⟩
    · exact ⟨_, rfl⟩
  all_goals exact ⟨_, rfl⟩

/-! ### The empty queue -/

theorem step_empty {s : State} (h : s.pending = []) :
    step s = .next { startUpTick s with dev := edgeTick (startUpTick s).dev.arbEnds } := by
  unfold step
  rw [h]
  rfl

/-- Past start-up's first steps, and while the test port holds the device, no tick of start-up passes (R99, R571). -/
theorem startUpTick_late {s : State} (h : Stage.straps ≤ s.dev.stage ∨ s.held = true) : startUpTick s = s := by
  unfold startUpTick
  rcases h with h | h
  · have h : 2 ≤ s.dev.stage := h
    have h0 : s.dev.stage ≠ 0 := by omega
    have h1 : s.dev.stage ≠ 1 := by omega
    simp [h0, h1]
  · exact if_pos h

/-- The edge counter stands before a release and while there is no reference (R446). -/
theorem edgeTick_stands {d : Dev} (h : d.chrRuns = false ∨ d.cnt.edge % 64 = 63) : edgeTick d = d := by
  have hnear : (d.chrRuns && edgeNear d (d.cnt.edge + 1)) = false := by
    rcases h with h | h
    · simp [h]
    · have : ¬ d.cnt.edge + 1 < (d.cnt.edge / 64 + 1) * 64 := by omega
      simp [edgeNear, this]
  exact if_neg (by simp [hnear])

/-- Otherwise the counter moves on by one edge (R446). -/
theorem edgeTick_moves {d : Dev} (hruns : d.chrRuns = true) (hedge : d.cnt.edge % 64 ≠ 63) :
    edgeTick d = { d with cnt := { d.cnt with
      edge := d.cnt.edge + 1
      bus := d.cnt.bus ++ (if watchesRefclk d then [(d.cnt.edge + 1, 3, 1)] else []) } } := by
  have hnear : d.cnt.edge + 1 < (d.cnt.edge / 64 + 1) * 64 := by omega
  have hmax : max d.cnt.edge (d.cnt.edge + 1) = d.cnt.edge + 1 := by omega
  have hone : d.cnt.edge + 1 - d.cnt.edge = 1 := by omega
  unfold edgeTick
  rw [if_pos (by simp [hruns, edgeNear, hnear]), edgeTo, hmax, hone]
  cases watchesRefclk d <;> simp

theorem edgeTick_cnt (d : Dev) : edgeTick d = { d with cnt := (edgeTick d).cnt } := by
  unfold edgeTick edgeTo
  split <;> rfl

/-- The first two steps of start-up follow each other with the clock (R99, R111). -/
theorem startUpTick_early {s : State} (h : s.dev.stage < Stage.straps) (hheld : s.held = false) :
    startUpTick s = { s with dev := s.dev.setStage (s.dev.stage + 1) } := by
  have h : s.dev.stage < 2 := h
  have hstage : s.dev.stage = 0 ∨ s.dev.stage = 1 := by omega
  unfold startUpTick
  rcases hstage with h0 | h1
  · simp [hheld, h0, State.onDev]
  · simp [hheld, h1, State.onDev]

/-- Settles O1: a step is `exec` of the front command, which always answers a next state, or the tick of the empty queue. -/
theorem stepRunsFrontCommand : Obligations.StepRunsFrontCommand := by
  refine ⟨fun c r s => rfl, exec_goesOn, fun s hq hlate hstand => ?idle, fun s hq hlate hruns hedge => ?clock, fun s hq hearly hheld => ?start⟩
  case idle =>
    rw [step_empty hq, startUpTick_late hlate, edgeTick_stands (d := s.dev.arbEnds) hstand]
    rfl
  case clock =>
    rw [step_empty hq, startUpTick_late hlate]
    exact ⟨_, rfl, by rw [edgeTick_moves (d := s.dev.arbEnds) hruns hedge]; exact ⟨rfl, rfl, rfl⟩⟩
  case start =>
    rw [step_empty hq, startUpTick_early hearly hheld]
    have hkeep := edgeTick_cnt (s.dev.setStage (s.dev.stage + 1)).arbEnds
    refine ⟨_, rfl, ?_, by rw [hkeep]; rfl, ?_⟩
    · rw [hkeep]
      have hearly : s.dev.stage < 2 := hearly
      have hlt : (s.dev.stage + 1) % 16 = s.dev.stage + 1 := by omega
      exact (Dev.fld_putFld_same s.dev Reg.GLB_BOOT_STAT 3 0 (s.dev.stage + 1) (by decide) (by decide)).trans hlt
    · intro b hb
      rw [hkeep]
      exact Dev.reg_putFld_ne _ _ _ _ _ _ (by simpa using hb)

end Sys2Proof.Machine
end

section
/-! PROOF. The rollback floor under every state operation: ROLLBACK_ADV alone raises it, and nothing lowers it (R515). -/

namespace Sys2Proof.Machine

open Sys2Proof

/-! ### What leaves the floor alone -/

@[simp] theorem State.putFlash_floor (s : State) (fl : List Host.Cell) : (s.putFlash fl).prot.floor = s.prot.floor := by
  unfold State.putFlash
  split <;> rfl

@[simp] theorem writeRecord_floor (p : Nat) (s : State) : (writeRecord p s).prot.floor = s.prot.floor := by
  simp [writeRecord]

@[simp] theorem preferRestore_floor (s : State) : (preferRestore s).prot.floor = s.prot.floor := by
  unfold preferRestore
  split <;> simp

@[simp] theorem runReached_floor (was : Nat) (s : State) : (runReached was s).prot.floor = s.prot.floor := by
  unfold runReached
  split <;> simp

@[simp] theorem flashSpoil_floor (a n : Nat) (s : State) : (flashSpoil a n s).prot.floor = s.prot.floor := by
  simp [flashSpoil]

@[simp] theorem eraseSector_floor (a : Nat) (s : State) : (eraseSector a s).prot.floor = s.prot.floor := by
  simp [eraseSector]

@[simp] theorem modMgt_floor (f : Mgmt → Mgmt) (s : State) : (modMgt f s).prot.floor = s.prot.floor := rfl

@[simp] theorem failLate_floor (code sect : Nat) (s : State) : (failLate code sect s).prot.floor = s.prot.floor := rfl

@[simp] theorem resetState_floor (c : Cause) (s : State) : (resetState c s).prot.floor = s.prot.floor := rfl

/-! The wave mover and the boot. -/

@[simp] theorem spaceWrite_floor (s : State) (sp a : Nat) (bs : List Byte) : (spaceWrite s sp a bs).prot.floor = s.prot.floor := by
  unfold spaceWrite
  repeat' split
  all_goals rfl

@[simp] theorem moverMove_floor (c n : Nat) (s : State) : (moverMove c n s).prot.floor = s.prot.floor := by
  simp [moverMove]

@[simp] theorem moverBurstState_floor (c : Nat) (s : State) : (moverBurstState c s).prot.floor = s.prot.floor := by
  unfold moverBurstState
  split <;> simp

@[simp] theorem sectFails_floor (x : Sect) (code : Nat) (s : State) : (sectFails x code s).prot.floor = s.prot.floor := by
  unfold sectFails
  split <;> simp

@[simp] theorem streamNext_floor (x : Sect) (code : Nat) (s : State) : (streamNext x code s).prot.floor = s.prot.floor := by
  unfold streamNext
  simp only [streamFront_prot]
  split <;> simp

@[simp] theorem waveStreamDoneState_floor (s : State) : (waveStreamDoneState s).prot.floor = s.prot.floor := by
  unfold waveStreamDoneState
  dsimp only
  repeat' split
  all_goals simp

@[simp] theorem octalSwitch_floor (slot : Nat) (s : State) : (octalSwitch slot s).prot.floor = s.prot.floor := by
  unfold octalSwitch
  dsimp only
  repeat' split
  all_goals rfl

@[simp] theorem trySlot_floor (slot : Nat) (s : State) : (trySlot slot s).1.prot.floor = s.prot.floor := by
  unfold trySlot
  dsimp only
  repeat' split
  all_goals simp [acceptSlot, failInPlace]

@[simp] theorem trySlots_floor (s : State) : (trySlots s).prot.floor = s.prot.floor := by
  unfold trySlots
  dsimp only
  repeat' split
  all_goals simp [noImage]

@[simp] theorem nvmResetWaitEndState_floor (s : State) : (nvmResetWaitEndState s).prot.floor = s.prot.floor := by
  unfold nvmResetWaitEndState
  split <;> simp

@[simp] theorem listFails_floor (s : State) : (listFails s).prot.floor = s.prot.floor := by
  unfold listFails
  split <;> simp

@[simp] theorem listFront_floor (s : State) : (listFront s).prot.floor = s.prot.floor := by
  unfold listFront
  repeat' split
  all_goals simp

@[simp] theorem listNext_floor (s : State) : (listNext s).prot.floor = s.prot.floor := by
  simp [listNext]

@[simp] theorem mgmtRead_floor (a : Nat) (s : State) : (mgmtRead a s).2.prot.floor = s.prot.floor := rfl

@[simp] theorem loadSect_floor (x : Sect) (s : State) : (loadSect x s).prot.floor = s.prot.floor := by
  unfold loadSect
  dsimp only
  repeat' split
  all_goals simp

@[simp] theorem firmwareRuns_floor (x : Sect) (s : State) : (firmwareRuns x s).prot.floor = s.prot.floor := by
  unfold firmwareRuns
  dsimp only
  split
  · rfl
  · simp only [listFront_floor, streamFront_prot]
    exact foldl_keeps (fun s : State => s.prot.floor) _ (fun s b => loadSect_floor b s) _ _

@[simp] theorem firmwareStartState_floor (s : State) : (firmwareStartState s).prot.floor = s.prot.floor := by
  unfold firmwareStartState
  dsimp only
  repeat' split
  all_goals simp [failInPlace]

@[simp] theorem engineEnd_floor (s : State) : (engineEnd s).prot.floor = s.prot.floor := by
  unfold engineEnd
  repeat' split
  all_goals simp

@[simp] theorem engineStageState_floor (s : State) : (engineStageState s).prot.floor = s.prot.floor := by
  unfold engineStageState
  dsimp only
  repeat' split
  all_goals simp

/-! The log's mirror and the management commands. -/

@[simp] theorem mirrorGroup_floor (n : Nat) (s : State) : (mirrorGroup n s).prot.floor = s.prot.floor := by
  obtain ⟨⟨-, hprot, -⟩, -⟩ := mirrorGroup_only n s
  rw [hprot]

@[simp] theorem mirrorFails_floor (n : Nat) (s : State) : (mirrorFails n s).prot.floor = s.prot.floor := by
  rw [(mirrorFails_only n s).2]

@[simp] theorem logMirrorWriteState_floor (ok : Bool) (s : State) : (logMirrorWriteState ok s).prot.floor = s.prot.floor := by
  unfold logMirrorWriteState
  dsimp only
  repeat' split
  all_goals simp

@[simp] theorem abortSession_floor (n : Nat) (s : State) : (abortSession n s).prot.floor = s.prot.floor := by
  unfold abortSession
  split <;> simp [closeSession, spoilTarget]

/-! ### The commands -/

/-- A command's meaning leaves the floor alone. -/
def CmdKeepsFloor (f : List Byte → State → Reply) : Prop := ∀ p s, (f p s).st.prot.floor = s.prot.floor

@[simp] theorem endWith_floor (n : Nat) (s : State) : (endWith n s).st.prot.floor = s.prot.floor := rfl

theorem withSession_floor (c : Caller) (f : Session → State → Reply) (s : State)
    (h : ∀ x s, (f x s).st.prot.floor = s.prot.floor) : (withSession c f s).st.prot.floor = s.prot.floor := by
  unfold withSession
  repeat' split
  all_goals simp [h]

@[simp] theorem imageBytes_floor (c : Caller) (x : Session) (off : Nat) (bs : List Byte) (s : State) :
    (imageBytes c x off bs s).st.prot.floor = s.prot.floor := by
  unfold imageBytes
  repeat' split
  all_goals simp [imageWrite, sessionFails]

theorem getInfoCmd_floor : CmdKeepsFloor getInfoCmd := fun _ _ => rfl

theorem logAddCmd_floor : CmdKeepsFloor logAddCmd := fun _ _ => rfl

theorem logSyncCmd_floor (c : Caller) : CmdKeepsFloor (logSyncCmd c) := by
  intro p s
  unfold logSyncCmd
  dsimp only
  repeat' split
  all_goals simp

theorem updBeginCmd_floor (c : Caller) : CmdKeepsFloor (updBeginCmd c) := by
  intro p s
  unfold updBeginCmd
  dsimp only
  repeat' split
  all_goals simp

theorem updDataCmd_floor (c : Caller) : CmdKeepsFloor (updDataCmd c) := fun _ s =>
  withSession_floor c _ s fun _ _ => imageBytes_floor _ _ _ _ _

theorem updDramCmd_floor (c : Caller) : CmdKeepsFloor (updDramCmd c) := by
  intro p s
  refine withSession_floor _ _ _ fun x s => ?_
  dsimp only
  repeat' split
  all_goals simp

theorem updEndCmd_floor (c : Caller) : CmdKeepsFloor (updEndCmd c) := by
  intro p s
  refine withSession_floor _ _ _ fun x s => ?_
  dsimp only
  repeat' split
  all_goals simp [sessionFails, closeSession, spoilTarget]

theorem updAbortCmd_floor (c : Caller) : CmdKeepsFloor (updAbortCmd c) := fun _ s =>
  withSession_floor c _ s fun _ _ => abortSession_floor _ _

theorem setPreferCmd_floor (c : Caller) : CmdKeepsFloor (setPreferCmd c) := by
  intro p s
  unfold setPreferCmd
  repeat' split
  all_goals simp

theorem nvmIdCmd_floor : CmdKeepsFloor nvmIdCmd := by
  intro p s
  unfold nvmIdCmd
  split <;> rfl

theorem nvmReadCmd_floor (c : Caller) : CmdKeepsFloor (nvmReadCmd c) := by
  intro p s
  unfold nvmReadCmd
  dsimp only
  repeat' split
  all_goals rfl

theorem nvmEraseCmd_floor (c : Caller) : CmdKeepsFloor (nvmEraseCmd c) := by
  intro p s
  unfold nvmEraseCmd
  dsimp only
  repeat' split
  all_goals simp

theorem nvmProgCmd_floor (c : Caller) : CmdKeepsFloor (nvmProgCmd c) := by
  intro p s
  unfold nvmProgCmd
  dsimp only
  repeat' split
  all_goals simp

theorem fwdEnd_floor : CmdKeepsFloor (fun p s => endWith (fwdErr s.dev p) s) := fun _ _ => rfl

/-! ### ROLLBACK_ADV, and the paths that a request comes by -/

/-- The floor of one state is at or below that of another (R515). -/
def FloorUp (s t : State) : Prop := s.prot.floor ≤ t.prot.floor

theorem FloorUp.of_eq {s t : State} (h : t.prot.floor = s.prot.floor) : FloorUp s t := h.ge

/-- ROLLBACK_ADV sets the floor above its value, or leaves it (R515). -/
theorem rollbackAdvCmd_floorUp (p : List Byte) (s : State) : FloorUp s (rollbackAdvCmd p s).st := by
  unfold rollbackAdvCmd
  dsimp only
  split
  next h =>
    have hlt : s.prot.floor < byteAt p 0 := by
      simp only [floorMay, Bool.and_eq_true, decide_eq_true_eq] at h
      obtain ⟨⟨-, hlt, -⟩, -⟩ := h
      exact hlt
    exact hlt.le
  next => exact le_refl _

@[simp] theorem freshBases_floor (s : State) : (freshBases s).prot.floor = s.prot.floor := by
  unfold freshBases
  split <;> rfl

theorem served_floor (cmd : Nat) (c : Caller) (req : List Byte) {f : List Byte → State → Reply} (h : CmdKeepsFloor f) (s : State) :
    (served cmd c req f s).st.prot.floor = s.prot.floor := by
  unfold served
  dsimp only
  repeat' split
  all_goals simp [h _ _]

theorem served_rollbackAdv_floorUp (cmd : Nat) (c : Caller) (req : List Byte) (s : State) :
    FloorUp s (served cmd c req rollbackAdvCmd s).st := by
  unfold served
  dsimp only
  repeat' split
  · exact le_refl _
  · exact le_refl _
  · exact (FloorUp.of_eq (freshBases_floor s)).trans (rollbackAdvCmd_floorUp _ _)

theorem mailboxRow_floor (cmd : Nat) {f : List Byte → State → Reply} (h : CmdKeepsFloor f) (s : State) :
    (mailboxRow cmd f s).prot.floor = s.prot.floor := by
  unfold mailboxRow
  dsimp only
  split
  · exact served_floor _ _ _ h s
  · rfl

theorem rollbackAdv_floorUp (s : State) : FloorUp s (mailboxRow 0x18 rollbackAdvCmd s) := by
  unfold mailboxRow
  dsimp only
  split
  · exact served_rollbackAdv_floorUp _ _ _ s
  · exact le_refl _

theorem FloorUp.ite_reply {c : Prop} [Decidable c] {s : State} {a b : Reply} (ha : FloorUp s a.st) (hb : FloorUp s b.st) :
    FloorUp s (if c then a else b).st := by split <;> assumption

/-- Of the requests of the paths but the mailbox, ROLLBACK_ADV alone changes the floor. -/
theorem runCommand_floorUp (c : Caller) (req : List Byte) (s : State) : FloorUp s (runCommand c req s).st := by
  have serve {f} (h : CmdKeepsFloor f) : FloorUp s (served (byteAt req 0) c req f s).st := .of_eq (served_floor _ c req h s)
  unfold runCommand
  refine .ite_reply (serve getInfoCmd_floor) <| .ite_reply (serve logAddCmd_floor) <| .ite_reply (serve (logSyncCmd_floor c)) ?_
  refine .ite_reply (serve (updBeginCmd_floor c)) <| .ite_reply (serve (updDataCmd_floor c)) ?_
  refine .ite_reply (serve (updDramCmd_floor c)) <| .ite_reply (serve (updEndCmd_floor c)) ?_
  refine .ite_reply (serve (updAbortCmd_floor c)) <| .ite_reply (served_rollbackAdv_floorUp _ c req s) ?_
  refine .ite_reply (serve (setPreferCmd_floor c)) <| .ite_reply (serve nvmIdCmd_floor) ?_
  refine .ite_reply (serve (nvmReadCmd_floor c)) <| .ite_reply (serve (nvmEraseCmd_floor c)) ?_
  exact .ite_reply (serve (nvmProgCmd_floor c)) <| .ite_reply (serve fwdEnd_floor) (.of_eq rfl)

@[simp] theorem fwdState_floor (s : State) : (fwdState s).prot.floor = s.prot.floor := by
  unfold fwdState
  dsimp only
  repeat' split
  · exact mailboxRow_floor _ fwdEnd_floor s
  · rfl
  · rfl

theorem mgmtReqState_floorUp (ok : Bool) (s : State) : FloorUp s (mgmtReqState ok s) := by
  unfold mgmtReqState
  split
  · exact le_refl _
  · split
    · exact le_refl _
    next p d _ => exact runCommand_floorUp (Caller.cascade ok) (p.drop 4) { s with dev := d }

theorem sysexRequest_floorUp (ok : Bool) (n : Nat) (req : List Byte) (s : State) : FloorUp s (sysexRequest ok n req s) := by
  unfold sysexRequest
  dsimp only
  repeat' split
  · exact le_refl _
  · exact le_refl _
  · exact runCommand_floorUp _ _ s

theorem sysexMessage_floorUp (ok : Bool) (n : Nat) (msg : List Byte) (s : State) : FloorUp s (sysexMessage ok n msg s) := by
  unfold sysexMessage
  repeat' split
  case h_1 => exact sysexRequest_floorUp _ _ _ s
  all_goals exact le_refl _

theorem sysexDoneState_floorUp (i : Nat) (ok : Bool) (s : State) : FloorUp s (sysexDoneState i ok s) := by
  unfold sysexDoneState
  split
  · exact le_refl _
  · dsimp only
    split
    · exact sysexMessage_floorUp _ _ _ (s.onDev deferredFirst)
    · exact le_refl _

/-! ### The host's and the lists' writes, wakes, and the test access port -/

theorem floor_ite {c : Prop} [Decidable c] {a b : State} {n : Nat} (ha : a.prot.floor = n) (hb : b.prot.floor = n) :
    (if c then a else b).prot.floor = n := by split <;> assumption

@[simp] theorem softwareResetState_floor (v : Word) (s : State) : (softwareResetState v s).prot.floor = s.prot.floor :=
  floor_ite rfl rfl

@[simp] theorem lockWrite_floor (v : Word) (s : State) : (lockWrite v s).prot.floor = s.prot.floor := by
  unfold lockWrite
  dsimp only
  repeat' split
  all_goals rfl

@[simp] theorem continueState_floor (v : Word) (s : State) : (continueState v s).prot.floor = s.prot.floor := by
  unfold continueState
  split <;> simp

@[simp] theorem retryState_floor (v : Word) (s : State) : (retryState v s).prot.floor = s.prot.floor := by
  unfold retryState
  split <;> rfl

@[simp] theorem frameCtlState_floor (v : Word) (s : State) : (frameCtlState v s).prot.floor = s.prot.floor := by
  simp [frameCtlState]

@[simp] theorem regWrite_floor (mgmt : Bool) (a : Nat) (v : Word) (be : BitVec 4) (s : State) :
    (regWrite mgmt a v be s).prot.floor = s.prot.floor :=
  floor_ite rfl <| floor_ite (lockWrite_floor v s) <| floor_ite (softwareResetState_floor v s) <|
    floor_ite (frameCtlState_floor v s) <| floor_ite (by simp) rfl

@[simp] theorem hostHighHalfWriteState_floor (ha : Nat) (x : BitVec 16) (be : BitVec 2) (s : State) :
    (hostHighHalfWriteState ha x be s).prot.floor = s.prot.floor := by
  refine floor_ite rfl (floor_ite ?_ rfl)
  unfold highWrite
  split
  · rfl
  · exact floor_ite (floor_ite rfl <| floor_ite rfl <| floor_ite rfl <| floor_ite rfl <| regWrite_floor _ _ _ _ (s.onDev _)) rfl

theorem mgmtWrite_floor {a : Nat} {v : Word} {s t : State} (h : mgmtWrite a v s = some t) : t.prot.floor = s.prot.floor := by
  unfold mgmtWrite at h
  split at h
  · cases h
    exact regWrite_floor _ _ _ _ s
  · split at h
    · obtain ⟨d, -, rfl⟩ := Option.map_eq_some_iff.mp h
      rfl
    · cases h
      rfl

@[simp] theorem listWrite_floor (a : Nat) (v : Word) (s : State) : (listWrite a v s).prot.floor = s.prot.floor := by
  unfold listWrite
  split
  next t h => exact (listNext_floor t).trans (mgmtWrite_floor h)
  next => rfl

@[simp] theorem listFill_floor (v : Word) (n a : Nat) (s : State) : (listFill v n a s).1.prot.floor = s.prot.floor := by
  induction n generalizing a s with
  | zero => rfl
  | succ n ih =>
    unfold listFill
    split
    · rfl
    · split
      next t h => exact (ih _ t).trans (mgmtWrite_floor h)
      next => rfl

@[simp] theorem reginitFillState_floor (k a : Nat) (v : Word) (s : State) : (reginitFillState k a v s).prot.floor = s.prot.floor := by
  have h := listFill_floor v (countOf k 1024) a s
  exact floor_ite rfl <| floor_ite (listFails_floor s) <| floor_ite ((listNext_floor _).trans h) h

@[simp] theorem reginitPollState_floor (k a : Nat) (v : Word) (s : State) : (reginitPollState k a v s).prot.floor = s.prot.floor := by
  unfold reginitPollState
  dsimp only
  repeat' split
  all_goals simp

@[simp] theorem reginitDelayState_floor (k : Nat) (s : State) : (reginitDelayState k s).prot.floor = s.prot.floor := by
  unfold reginitDelayState
  repeat' split
  all_goals simp

@[simp] theorem tapCommand_floor (op : Nat) (s : State) : (tapCommand op s).prot.floor = s.prot.floor := by
  have hload : (jtagLoad op s).prot.floor = s.prot.floor := floor_ite rfl rfl
  refine floor_ite (Eq.trans ?_ hload) hload
  unfold tapScan
  dsimp only
  split <;> rfl

/-! ### Every command -/

/-- The commands that can carry a ROLLBACK_ADV: the mailbox's own, and the requests of the other two paths (R515). -/
def CarriesRollback (c : Instr) : Prop := c = .rollbackAdv ∨ (∃ ok, c = .mgmtReq ok) ∨ ∃ i ok, c = .sysexDone i ok

theorem floor_of_next {s t u : State} (h : (.next u : Host.Outcome State Fault Refusal) = .next t) (hu : u.prot.floor = s.prot.floor) :
    t.prot.floor = s.prot.floor := by cases h; exact hu

theorem asHost_floor (s : State) (f : State → State) (h : (f s).prot.floor = s.prot.floor) : (s.asHost f).prot.floor = s.prot.floor :=
  floor_ite h rfl

/-- A row that is one of two. -/
theorem floor_rows {s t : State} {c : Prop} [Decidable c] {a b : Host.Outcome State Fault Refusal} (h : (if c then a else b) = .next t)
    (ha : a = .next t → t.prot.floor = s.prot.floor) (hb : b = .next t → t.prot.floor = s.prot.floor) : t.prot.floor = s.prot.floor := by
  split at h
  · exact ha h
  · exact hb h

/-- A command that carries no ROLLBACK_ADV leaves the floor alone.  The rows not named act on the device alone. -/
theorem exec_floor (c : Instr) (s t : State) (hc : ¬CarriesRollback c) (h : exec c s = .next t) : t.prot.floor = s.prot.floor := by
  cases c
  case rollbackAdv | mgmtReq | sysexDone => exact absurd (by simp [CarriesRollback]) hc
  case waveCacheInval | winAddrWrite | winDataWrite | winAbort | playerGo | playerStop | outputEnable | outputDisable
      | rangeChange | outFaultClear | chrStart | chrStop | chrClear | reloadWrite | captureSw | evcStart | evcStop
      | evcClearAll | evcFreeze | evcClr | swap | swapAll | skimmerCoefWrite | skimmerReset | calReq | slackMinClear
      | serTxWrite | modeChange | rxFlush | txFlush | txBreak | txBreakClear | divWrite | linkEnable | linkDisable
      | glfoRestart | tdmPortEnable | tdmPortDisable | mgtFaultClear | powerBatch | padRelease | hostCancel | flush
      | hostPost | engineDisable | paramStoreHostWrite => exact floor_of_next h (asHost_floor s _ rfl)
  case registerWrite => exact floor_of_next h (floor_ite (regWrite_floor _ _ _ _ s) rfl)
  case lock v => exact floor_of_next h (asHost_floor s _ (floor_ite (lockWrite_floor v s) rfl))
  case hostHighHalfWrite => exact floor_of_next h (hostHighHalfWriteState_floor _ _ _ s)
  case softwareReset v => exact floor_of_next h (floor_ite (softwareResetState_floor v s) rfl)
  case powerOnReset => exact floor_of_next h rfl
  case resetPin => exact floor_of_next h (floor_ite rfl (floor_ite rfl rfl))
  case watchdogReset | fallbackReset | updateReset => exact floor_of_next h (floor_ite rfl rfl)
  case domainWake n => exact floor_of_next h (streamFront_domainWakeState_keeps n s).2
  case reginitWrite => exact floor_of_next h (floor_ite rfl (floor_ite (listWrite_floor _ _ s) (listFails_floor s)))
  case reginitSet a v | reginitClear a v =>
    exact floor_of_next h (floor_ite rfl (floor_ite (listWrite_floor _ _ (mgmtRead a s).2) (listFails_floor s)))
  case reginitFill => exact floor_of_next h (reginitFillState_floor _ _ _ s)
  case reginitPoll => exact floor_of_next h (reginitPollState_floor _ _ _ s)
  case reginitPollTimeout => exact floor_of_next h (floor_ite (listFails_floor s) rfl)
  case reginitDelay => exact floor_of_next h (reginitDelayState_floor _ s)
  case reginitDelayEnd => exact floor_of_next h (floor_ite (listNext_floor s) rfl)
  case extest | samplePreload | clamp | highz | bypass => exact floor_of_next h (tapCommand_floor _ s)
  case testLogicReset => exact floor_of_next h (floor_ite rfl rfl)
  case aonWake | strapLatch => exact floor_of_next h (floor_ite rfl rfl)
  case engineEnable v => exact floor_of_next h (asHost_floor s _ (floor_ite (frameCtlState_floor v s) rfl))
  case continueBoot v => exact floor_of_next h (asHost_floor s _ (continueState_floor v s))
  case retry v => exact floor_of_next h (asHost_floor s _ (retryState_floor v s))
  case hostLowHalfRead => exact floor_of_next h (floor_ite rfl (floor_ite (floor_ite rfl rfl) rfl))
  case hostHighHalfRead => exact floor_of_next h (floor_ite rfl (floor_ite rfl rfl))
  case moverGo | moverAbort =>
    exact floor_rows h (fun e => floor_of_next e (asHost_floor s _ rfl)) (fun e => floor_of_next e rfl)
  case vidSettled | sensorMeasurement => exact floor_rows h (fun e => floor_of_next e rfl) (fun e => floor_of_next e rfl)
  case moverBurst => exact floor_of_next h (moverBurstState_floor _ s)
  case waveStreamDone => exact floor_of_next h (waveStreamDoneState_floor s)
  case nvmResetWaitEnd => exact floor_of_next h (nvmResetWaitEndState_floor s)
  case firmwareStart => exact floor_of_next h (firmwareStartState_floor s)
  case engineStage => exact floor_of_next h (engineStageState_floor s)
  case logMirrorWrite ok => exact floor_of_next h (logMirrorWriteState_floor ok s)
  case getInfo => exact floor_of_next h (mailboxRow_floor _ getInfoCmd_floor s)
  case logAdd => exact floor_of_next h (mailboxRow_floor _ logAddCmd_floor s)
  case logSync => exact floor_of_next h (mailboxRow_floor _ (logSyncCmd_floor _) s)
  case updBegin => exact floor_of_next h (mailboxRow_floor _ (updBeginCmd_floor _) s)
  case updData => exact floor_of_next h (mailboxRow_floor _ (updDataCmd_floor _) s)
  case updDram => exact floor_of_next h (mailboxRow_floor _ (updDramCmd_floor _) s)
  case updEnd => exact floor_of_next h (mailboxRow_floor _ (updEndCmd_floor _) s)
  case updAbort => exact floor_of_next h (mailboxRow_floor _ (updAbortCmd_floor _) s)
  case updateSessionTimeout => exact floor_of_next h (abortSession_floor _ s)
  case setPrefer => exact floor_of_next h (mailboxRow_floor _ (setPreferCmd_floor _) s)
  case nvmId => exact floor_of_next h (mailboxRow_floor _ nvmIdCmd_floor s)
  case nvmRead => exact floor_of_next h (mailboxRow_floor _ (nvmReadCmd_floor _) s)
  case nvmErase => exact floor_of_next h (mailboxRow_floor _ (nvmEraseCmd_floor _) s)
  case nvmProg => exact floor_of_next h (mailboxRow_floor _ (nvmProgCmd_floor _) s)
  case fwd => exact floor_of_next h (fwdState_floor s)
  all_goals exact floor_of_next h rfl

/-- A command that carries a ROLLBACK_ADV does not lower the floor (R515). -/
theorem exec_floorUp (c : Instr) (s t : State) (hc : CarriesRollback c) (h : exec c s = .next t) : FloorUp s t := by
  rcases hc with rfl | ⟨ok, rfl⟩ | ⟨i, ok, rfl⟩
  · cases h
    exact rollbackAdv_floorUp s
  · cases h
    exact mgmtReqState_floorUp ok s
  · cases h
    exact sysexDoneState_floorUp i ok s

theorem step_floor {s t : State} (h : step s = .next t) : FloorUp s t ∧
    (t.prot.floor = s.prot.floor ∨ ∃ c r, s.pending = c :: r ∧ CarriesRollback c) := by
  unfold step at h
  split at h
  · have e : t.prot.floor = s.prot.floor := by
      cases h
      exact congrArg Prot.floor (startUpTick_prot s)
    exact ⟨.of_eq e, .inl e⟩
  next c r hq =>
    by_cases hc : CarriesRollback c
    · exact ⟨exec_floorUp c { s with pending := r } t hc h, .inr ⟨c, r, hq, hc⟩⟩
    · have e := exec_floor c { s with pending := r } t hc h
      exact ⟨.of_eq e, .inl e⟩

end Sys2Proof.Machine
end

section
/-! PROOF. ROLLBACK_ADV from the mailbox, and the statement on the rollback floor (R515). -/

namespace Sys2Proof.Machine

open Sys2Proof

/-- ROLLBACK_ADV's conditions, as R515 lists them. -/
theorem floorMay_iff (v : Nat) (force : Bool) (s : State) : floorMay v force s = true ↔
    s.dev.stage = Stage.run ∧ s.prot.floor < v ∧ v ≤ 32 ∧ v ≤ s.dev.mgt.secVersion ∧
      (force = true ∨ (s.dev.nvReach = true ∧ headerErr s (1 - s.dev.slot) = 0 ∧
        v ≤ flashNat s.prot.flash (s.dev.boot.base (1 - s.dev.slot) + 0x0C) 4)) := by
  simp [floorMay, and_assoc]

/-- ROLLBACK_ADV on its two parameter bytes: taken, it sets the floor and is logged (R505, R515). -/
theorem rollbackAdvCmd_eq (v f : Byte) (s : State) : rollbackAdvCmd [v, f] s =
    if floorMay v.toNat (f.getLsbD 0) s then
      { st := { s with prot := { s.prot with floor := v.toNat }, dev := fwLog 0x0B 0x05 0 (leBytes 1 v.toNat) s.dev }
        status := 0, data := [v] }
    else endWith 2 s := by
  have hdata : leBytes 1 v.toNat = [v] := by simp [leBytes]
  have hval : byteAt [v, f] 0 = v.toNat := rfl
  have hforce : (byteAt [v, f] 1).testBit 0 = f.getLsbD 0 := rfl
  unfold rollbackAdvCmd
  simp only [hval, hforce, hdata, State.onDev]

/-- Settles O58: ROLLBACK_ADV sets the floor only above its value, no other command touches it, and the mailbox's row is the
command's own reply. -/
theorem rollbackFloorOnlyRises : Obligations.RollbackFloorOnlyRises := by
  refine ⟨fun s t h => step_floor h, fun s tag v f hpost hwait hrom => ?_⟩
  have hposted : Posted s 0x18 tag [v, f] := by
    obtain ⟨hopen, hbusy, hnone, hreq, -, htag⟩ := hpost
    exact ⟨hopen, hbusy, hnone, hreq, by simp, htag, hwait⟩
  obtain ⟨-, -, -, hreq, -, htag, -⟩ := id hposted
  have hleast : leastParams 0x18 ≤ 2 := by decide
  refine ⟨fun hmay => ?taken, fun hmay => ?refused⟩
  case taken =>
    have hcmd := (rollbackAdvCmd_eq v f s).trans (if_pos ((floorMay_iff v.toNat (f.getLsbD 0) s).mpr hmay))
    obtain ⟨-, hrequest, hmem⟩ := fwLog_only 0x0B 0x05 0 (leBytes 1 v.toNat) s.dev
    have hrow := mailboxRow_posted 0x18 tag [v, f] rollbackAdvCmd s hposted (by decide) (.inl hrom) hleast
    rw [hcmd] at hrow
    refine ⟨_, congrArg Host.Outcome.next hrow, rfl, ?_, rfl, hmem, ?_⟩
    · show some (responseBytes (fwLog 0x0B 0x05 0 (leBytes 1 v.toNat) s.dev).mgt.request 0 [v]) = _
      rw [hrequest, hreq, responseBytes_requestOf 0x18 tag 0 [v, f] [v] (by decide) htag]
      rfl
    · show (fwLog 0x0B 0x05 0 (leBytes 1 v.toNat) s.dev).par = _
      simp
  case refused =>
    have hcmd := (rollbackAdvCmd_eq v f s).trans (if_neg (mt (floorMay_iff v.toNat (f.getLsbD 0) s).mp hmay))
    have hrow := mailboxRow_reads 0x18 tag 2 [v, f] [] rollbackAdvCmd s hposted (by decide) (.inl hrom) hleast hcmd
    exact ⟨_, congrArg Host.Outcome.next hrow, rfl, rfl, rfl, rfl, rfl⟩

end Sys2Proof.Machine
end

section
/-! SUPPORT. The canonical form of the device's stores (R428 to R431): the writes that all others are made of keep it, and so do choices and
loops of operations that do. -/

namespace Sys2Proof.Machine

open Sys2Proof

/-- The device's stores in canonical form. -/
structure StoresOk (d : Dev) : Prop where
  regs : cellsWf regReset d.regs = true
  pstore : cellsWf psDflt d.mem.pstore = true
  mram : cellsWf zeroByte d.mem.mram = true
  outwave : cellsWf zeroByte d.mem.outwave = true
  wave : cellsWf (Config.dramByte d.mem.waveLoss) d.mem.wave = true

/-- Registers and banks decide it. -/
theorem StoresOk.of_banks {d e : Dev} (h : StoresOk d) (hr : e.regs = d.regs) (hb : e.banks = d.banks) : StoresOk e := by
  obtain ⟨h1, h2, h3, h4, h5⟩ := h
  simp only [Dev.banks, Prod.mk.injEq] at hb
  obtain ⟨hp, hw, hl, ho, hm⟩ := hb
  constructor
  · rwa [hr]
  · rwa [hp]
  · rwa [hm]
  · rwa [ho]
  · rwa [hl, hw]

theorem StoresOk.of_eq {d e : Dev} (h : StoresOk d) (hr : e.regs = d.regs) (hm : e.mem = d.mem) : StoresOk e :=
  h.of_banks hr (Dev.banks_of_mem hm)

theorem StoresOk.ite {c : Prop} [Decidable c] {a b : Dev} (ha : StoresOk a) (hb : StoresOk b) : StoresOk (if c then a else b) := by
  split <;> assumption

theorem StoresOk.foldl {β : Type} {f : Dev → β → Dev} (hf : ∀ b d, StoresOk d → StoresOk (f d b)) (l : List β) {d : Dev}
    (h : StoresOk d) : StoresOk (l.foldl f d) := by
  induction l generalizing d with
  | nil => exact h
  | cons b r ih => exact ih (hf b d h)

theorem StoresOk.forEach {β : Type} {f : β → Dev → Dev} (hf : ∀ b d, StoresOk d → StoresOk (f b d)) (l : List β) {d : Dev}
    (h : StoresOk d) : StoresOk (forEach l f d) := .foldl hf l h

theorem StoresOk.forUpTo {f : Nat → Dev → Dev} (hf : ∀ n d, StoresOk d → StoresOk (f n d)) (n : Nat) {d : Dev} (h : StoresOk d) :
    StoresOk (forUpTo n f d) := .foldl hf _ h

end Sys2Proof.Machine
end

section
/-! PROOF. The canonical form of the device's stores under every operation of the device (R428 to R431): each lemma follows its
function's definition, the writes in the order in which it makes them. -/

namespace Sys2Proof.Machine

open Sys2Proof

variable {d : Dev}

/-- What keeps the registers and the memories keeps it. -/
theorem StoresOk.frame {e : Dev} (h : StoresOk d) (he : e.regs = d.regs ∧ e.mem = d.mem) : StoresOk e :=
  h.of_eq he.1 he.2

/-- An update of another field of the device keeps it. -/
theorem StoresOk.upd {e : Dev} (h : StoresOk d) (he : (e.regs, e.banks) = (d.regs, d.banks)) : StoresOk e :=
  h.of_banks (Prod.mk.inj he).1 (Prod.mk.inj he).2

theorem StoresOk.takePacket {ty : Nat} {z : List Byte × Dev} (h : StoresOk d) (hp : Machine.takePacket d ty = some z) : StoresOk z.2 := by
  unfold Machine.takePacket at hp
  split at hp
  · cases hp
  · split at hp
    · cases hp; exact h.upd rfl
    · cases hp

theorem StoresOk.forwardTask {im : List Byte} {e : Dev} (h : StoresOk d) (hf : Machine.forwardTask im d = some e) : StoresOk e := by
  unfold Machine.forwardTask at hf
  split at hf
  · cases hf; exact h.upd rfl
  · cases hf

theorem StoresOk.when {c : Prop} [Decidable c] {a : Dev} (h : StoresOk d) (ha : StoresOk d → StoresOk a) :
    StoresOk (if c then a else d) := .ite (ha h) h

theorem StoresOk.whenNot {c : Prop} [Decidable c] {a : Dev} (h : StoresOk d) (ha : StoresOk d → StoresOk a) :
    StoresOk (if c then d else a) := .ite h (ha h)

/-! ### Registers, banks, events and interrupts -/

theorem StoresOk.putReg (h : StoresOk d) {a : Nat} {w : Word} : StoresOk (Machine.Dev.putReg d a w) :=
  ⟨cellsWf_cellSet _ _ _ _ h.regs, h.pstore, h.mram, h.outwave, h.wave⟩

theorem StoresOk.putFld (h : StoresOk d) {a hi lo v : Nat} : StoresOk (Machine.Dev.putFld d a hi lo v) := h.putReg

theorem StoresOk.putFlag (h : StoresOk d) {a n : Nat} {b : Bool} : StoresOk (Machine.Dev.putFlag d a n b) := h.putFld

theorem StoresOk.bumpFld (h : StoresOk d) {a hi lo n : Nat} : StoresOk (Machine.Dev.bumpFld d a hi lo n) := h.putFld

theorem StoresOk.bumpBy (h : StoresOk d) {a n : Nat} : StoresOk (Machine.Dev.bumpBy d a n) := h.bumpFld

theorem StoresOk.bump (h : StoresOk d) {a : Nat} : StoresOk (Machine.Dev.bump d a) := h.bumpBy

theorem StoresOk.lockViol (h : StoresOk d) {lock : Bool} {a : Nat} {v : Word} : StoresOk (Machine.lockViol lock a v d) := by
  unfold Machine.lockViol
  split
  · exact .ite h.putFlag h
  · exact h

theorem StoresOk.codedWrite (h : StoresOk d) {lock : Bool} {a : Nat} {v : Word} : StoresOk (Machine.codedWrite lock a v d) := by
  unfold Machine.codedWrite
  split
  · exact h.lockViol.putReg
  · exact h

theorem StoresOk.setStage (h : StoresOk d) {n : Nat} : StoresOk (Machine.Dev.setStage d n) := h.putFld

theorem StoresOk.modBoot (h : StoresOk d) {f : Boot → Boot} : StoresOk (Machine.Dev.modBoot d f) := h.upd rfl

theorem StoresOk.draw (h : StoresOk d) : StoresOk (Machine.Dev.draw d) := h.upd rfl

theorem StoresOk.arbEnds (h : StoresOk d) : StoresOk (Machine.Dev.arbEnds d) := h.upd rfl

theorem StoresOk.psRaw (h : StoresOk d) {a : Nat} {bs : List Byte} : StoresOk (Machine.Dev.psRaw d a bs) :=
  ⟨h.regs, cellsWf_psPut _ _ _ h.pstore, h.mram, h.outwave, h.wave⟩

theorem StoresOk.waveRaw (h : StoresOk d) {a : Nat} {bs : List Byte} : StoresOk (Machine.Dev.waveRaw d a bs) :=
  ⟨h.regs, h.pstore, h.mram, h.outwave, cellsWf_cellPutBytes _ _ _ _ h.wave⟩

theorem StoresOk.owRaw (h : StoresOk d) {g a : Nat} {bs : List Byte} : StoresOk (Machine.Dev.owRaw d g a bs) :=
  ⟨h.regs, h.pstore, h.mram, cellsWf_cellPutBytes _ _ _ _ h.outwave, h.wave⟩

theorem StoresOk.mramRaw (h : StoresOk d) {a : Nat} {bs : List Byte} : StoresOk (Machine.Dev.mramRaw d a bs) :=
  ⟨h.regs, h.pstore, cellsWf_cellPutBytes _ _ _ _ h.mram, h.outwave, h.wave⟩

theorem StoresOk.emit (h : StoresOk d) {code n : Nat} : StoresOk (Machine.Dev.emit d code n) := h.upd rfl

theorem StoresOk.seeWord (h : StoresOk d) {w : HWrite} : StoresOk (Machine.seeWord d w) := .ite h h.psRaw

theorem StoresOk.seen (h : StoresOk d) : StoresOk (Machine.Dev.seen d) := .foldl (fun _ _ h => h.seeWord) _ h

theorem StoresOk.collide (h : StoresOk d) {off : Nat} : StoresOk (Machine.collide off d) := h.putReg.bump.emit

theorem StoresOk.collideV (h : StoresOk d) {ws : List Nat} : StoresOk (Machine.collideV ws d) :=
  .ite h ((StoresOk.foldl (fun _ _ h => h.collide) _ h).upd (by rfl))

theorem StoresOk.psV (h : StoresOk d) {a : Nat} {bs : List Byte} : StoresOk (Machine.Dev.psV d a bs) := h.psRaw.collideV.upd rfl

theorem StoresOk.v32 (h : StoresOk d) {a v : Nat} : StoresOk (Machine.Dev.v32 d a v) := h.psV

theorem StoresOk.logEv (h : StoresOk d) {source code sev : Nat} {data : List Nat} : StoresOk (Machine.Dev.logEv d source code sev data) :=
  .ite (h.upd (by rfl)) (h.bump.upd (by rfl))

theorem StoresOk.setIrq (h : StoresOk d) {dom a n : Nat} : StoresOk (Machine.Dev.setIrq d dom a n) := .ite h.putFlag h

theorem StoresOk.setFault (h : StoresOk d) {n : Nat} : StoresOk (Machine.Dev.setFault d n) := h.putFlag.setIrq

theorem StoresOk.mgtIrq (h : StoresOk d) {n : Nat} : StoresOk (Machine.Dev.mgtIrq d n) := h.setIrq

theorem StoresOk.cntRej (h : StoresOk d) : StoresOk (Machine.Dev.cntRej d) := h.bump

theorem StoresOk.rejectPart (h : StoresOk d) : StoresOk (Machine.rejectPart d) := h.setIrq.bump.cntRej

/-! ### The Almanac -/

theorem StoresOk.modTask (h : StoresOk d) {i : Nat} {f : Task → Task} : StoresOk (Machine.Dev.modTask d i f) := h.upd rfl

theorem StoresOk.freeTask (h : StoresOk d) {i : Nat} : StoresOk (Machine.Dev.freeTask d i) := h.upd rfl

theorem StoresOk.voidSent (h : StoresOk d) {p : Nat → Bool} : StoresOk (Machine.voidSent p d) := h.upd rfl

theorem StoresOk.syncAccepting (h : StoresOk d) : StoresOk (Machine.syncAccepting d) := h.frame (by simp)

theorem StoresOk.releaseTask (h : StoresOk d) {i : Nat} : StoresOk (Machine.releaseTask i d) := by
  unfold Machine.releaseTask
  dsimp only
  split
  · exact h
  · exact (h.upd (by rfl)).bump.emit

theorem StoresOk.rereleaseTask (h : StoresOk d) {i : Nat} : StoresOk (Machine.rereleaseTask i d) := by
  unfold Machine.rereleaseTask
  exact (h.upd (by rfl)).bump.emit

theorem StoresOk.admitTask (h : StoresOk d) {o : Offer} : StoresOk (Machine.admitTask o d).1 := .ite ((h.upd (by rfl)).releaseTask)
    (h.upd (by rfl))

theorem StoresOk.pushDone (h : StoresOk d) {status tag : Nat} : StoresOk (Machine.pushDone status tag d) := .ite
    (h.upd (by rfl)) h.putFlag.putFlag

theorem StoresOk.almDoneReadDev (h : StoresOk d) : StoresOk (Machine.almDoneReadDev d) := h.frame (by simp)

theorem StoresOk.finishTask (h : StoresOk d) {t : Task} {status : Nat} : StoresOk (Machine.finishTask t status d) := by
  unfold Machine.finishTask
  exact .ite ((h.upd (by rfl)).pushDone) (h.upd (by rfl))

theorem StoresOk.forTask (h : StoresOk d) {t : Option Nat} : StoresOk (Machine.forTask t d) := h.upd rfl

theorem StoresOk.slotFill (h : StoresOk d) : StoresOk (Machine.slotFill d) := h.frame (by simp)

theorem StoresOk.releaseDue (h : StoresOk d) {a : Nat} : StoresOk (Machine.releaseDue a d) := by
  induction a generalizing d with
  | zero => exact h
  | succ n ih =>
    unfold Machine.releaseDue
    split
    · exact ih h.releaseTask
    · exact h

theorem StoresOk.releaseReturned (h : StoresOk d) {a : Nat} : StoresOk (Machine.releaseReturned a d) := by
  induction a generalizing d with
  | zero => exact h
  | succ n ih =>
    unfold Machine.releaseReturned
    split
    · exact .ite (ih h.rereleaseTask) h
    · exact h

theorem StoresOk.releaseDueTo (h : StoresOk d) {i a : Nat} : StoresOk (Machine.releaseDueTo i a d) := by
  induction a generalizing d with
  | zero => exact h
  | succ n ih =>
    unfold Machine.releaseDueTo
    split
    · exact .ite (ih h.releaseTask) h
    · exact h

theorem StoresOk.ephemerisDueDev (h : StoresOk d) {i : Nat} : StoresOk (Machine.ephemerisDueDev i d) := by
  unfold Machine.ephemerisDueDev
  split
  · exact .ite h.releaseReturned.releaseDueTo h
  · exact h

theorem StoresOk.releaseListed (h : StoresOk d) : StoresOk (Machine.releaseListed d) := h.releaseReturned.releaseDue

theorem StoresOk.countSlips (h : StoresOk d) {n : Nat} : StoresOk (Machine.countSlips n d) := .ite h h.bumpBy.putFlag.emit

theorem StoresOk.subStep (h : StoresOk d) : StoresOk (Machine.subStep d) := h.frame (by simp)

theorem StoresOk.almRelease (h : StoresOk d) : StoresOk (Machine.almRelease d) := (h.upd (by rfl)).countSlips.subStep

theorem StoresOk.cancelOne (h : StoresOk d) {t : Task} : StoresOk (Machine.cancelOne t d) :=
  .ite ((StoresOk.ite h.voidSent.freeTask.bump.emit.bump h.voidSent.freeTask.bump.emit).pushDone)
    (.ite h.voidSent.freeTask.bump.emit.bump h.voidSent.freeTask.bump.emit)

theorem StoresOk.cancelApply (h : StoresOk d) {scope tag mask : Nat} : StoresOk (Machine.cancelApply scope tag mask d) := by
  unfold Machine.cancelApply
  exact (StoresOk.ite ((StoresOk.forEach (fun _ _ h => h.cancelOne) _ h).upd (by rfl)) (((StoresOk.forEach (fun _ _ h => h.cancelOne) _
    h).upd (by rfl)).bumpBy.putFlag.emit)).putReg

theorem StoresOk.postRes (h : StoresOk d) {result reason index : Nat} : StoresOk (Machine.postRes result reason index d) := h.putReg

theorem StoresOk.hostPostDev (h : StoresOk d) {v : Word} : StoresOk (Machine.hostPostDev v d) :=
  .ite h (.ite h.bump.putFlag.postRes (.ite h.bump.putFlag.emit.postRes h.admitTask.postRes))

theorem StoresOk.mgmtPostDev (h : StoresOk d) {image : List Word} : StoresOk (Machine.mgmtPostDev image d) :=
  .ite h (.ite h (.ite h h.admitTask))

/-! ### Voices -/

theorem StoresOk.modVoice (h : StoresOk d) {v : Nat} {f : Voice → Voice} : StoresOk (Machine.Dev.modVoice d v f) := h.upd rfl

theorem StoresOk.mirrorVoice (h : StoresOk d) {v : Nat} : StoresOk (Machine.mirrorVoice v d) := .ite h.psV h

theorem StoresOk.setVoice (h : StoresOk d) {v : Nat} {f : Voice → Voice} : StoresOk (Machine.setVoice v f d) := h.modVoice.mirrorVoice

/-! ### The wave cache -/

theorem StoresOk.modAud (h : StoresOk d) {f : Audio → Audio} : StoresOk (Machine.Dev.modAud d f) := h.upd rfl

theorem StoresOk.modClu (h : StoresOk d) {c : Nat} {f : Clu → Clu} : StoresOk (Machine.Dev.modClu d c f) := h.upd rfl

theorem StoresOk.modVaud (h : StoresOk d) {v : Nat} {f : VAud → VAud} : StoresOk (Machine.Dev.modVaud d v f) := h.upd rfl

theorem StoresOk.modTile (h : StoresOk d) {v : Nat} {f : Tile → Tile} : StoresOk (Machine.Dev.modTile d v f) := h.upd rfl

theorem StoresOk.cluBump (h : StoresOk d) {c reg n : Nat} : StoresOk (Machine.cluBump c reg n d) := .ite h h.bumpBy

theorem StoresOk.cluIrq (h : StoresOk d) {c reg n : Nat} : StoresOk (Machine.cluIrq c reg n d) := h.setIrq

theorem StoresOk.requestLine (h : StoresOk d) {c lane : Nat} {stream : Option (Nat × Nat × Nat)} {rank line : Nat} : StoresOk
    (Machine.requestLine c lane stream rank line d) :=
  .ite h h.modAud.modClu.cluBump

theorem StoresOk.requestLines (h : StoresOk d) {c lane : Nat} {ls : List Nat} : StoresOk (Machine.requestLines c lane ls d) :=
  .forEach (fun _ _ h => h.requestLine) _ h

theorem StoresOk.requestRest (h : StoresOk d) {v i : Nat} {ls : List Nat} : StoresOk (Machine.requestRest v i ls d) :=
  .forEach (fun _ _ h => h.requestLine) _ h

theorem StoresOk.cacheLineFillDev (h : StoresOk d) {c line : Nat} : StoresOk (Machine.cacheLineFillDev c line d) := by
  unfold Machine.cacheLineFillDev
  split
  · exact h
  · exact .ite h (.ite h.draw (.ite ((h.upd (by rfl)).bump.emit) h.draw.modClu.modAud.bump.emit))

theorem StoresOk.dramInvalidate (h : StoresOk d) {ls : List Nat} : StoresOk (Machine.dramInvalidate ls d) :=
  .forUpTo (fun _ _ h => h.modClu.cluBump) _ h

theorem StoresOk.waveCacheInvalDev (h : StoresOk d) {c : Nat} {v : Word} : StoresOk (Machine.waveCacheInvalDev c v d) := h.frame (by simp)

/-! ### The wave window, the mover and the patrol -/

theorem StoresOk.cntHostLines (h : StoresOk d) {n : Nat} : StoresOk (Machine.cntHostLines n d) := h.bumpBy.emit

theorem StoresOk.dramPut (h : StoresOk d) {a : Nat} {bs : List Byte} : StoresOk (Machine.dramPut a bs d) := h.waveRaw.dramInvalidate

theorem StoresOk.hostFresh (h : StoresOk d) : StoresOk (Machine.hostFresh d) := h.upd rfl

theorem StoresOk.winAddrWriteDev (h : StoresOk d) {v : Word} : StoresOk (Machine.winAddrWriteDev v d) :=
  .ite h (.ite h.putReg ((h.putReg.upd (by rfl)).hostFresh))

theorem StoresOk.winAdvance (h : StoresOk d) : StoresOk (Machine.winAdvance d) := h.putReg

theorem StoresOk.winPop (h : StoresOk d) : StoresOk (Machine.winPop d).2 := by
  unfold Machine.winPop
  dsimp only
  split
  · exact h
  · split
    · exact h.putFlag
    · split
      · exact h.putFlag
      · split
        · exact h.putFlag
        · exact (h.upd (by rfl)).winAdvance

theorem StoresOk.winDataWriteDev (h : StoresOk d) {v : Word} {be : BitVec 4} : StoresOk (Machine.winDataWriteDev v be d) :=
  .ite h (.ite h.putFlag (.ite h.putFlag ((h.upd (by rfl)).winAdvance)))

theorem StoresOk.winCtlWrite (h : StoresOk d) {v : Word} : StoresOk (Machine.winCtlWrite v d) :=
  .ite h (.ite (((StoresOk.ite h.putFld h.putFld.putFld).upd (by rfl)).hostFresh) (.ite h.putFld h.putFld.putFld))

theorem StoresOk.winDirChangeDev (h : StoresOk d) : StoresOk (Machine.winDirChangeDev d) := .ite ((h.upd (by rfl)).hostFresh) h

theorem StoresOk.dramReadyDev (h : StoresOk d) : StoresOk (Machine.dramReadyDev d) := .ite (h.upd (by rfl)) h

theorem StoresOk.modMover (h : StoresOk d) {c : Nat} {f : Mover → Mover} : StoresOk (Machine.Dev.modMover d c f) := h.upd rfl

theorem StoresOk.moverTake (h : StoresOk d) {c : Nat} {m : Mover} {why : Nat} : StoresOk (Machine.moverTake c m why d) :=
  .ite h.modMover h.modMover.putFlag.bump

theorem StoresOk.putDesc (h : StoresOk d) {c : Nat} {m : Mover} : StoresOk (Machine.putDesc c m d) := h.putReg.putReg.putReg.putReg

theorem StoresOk.firmwareIssue (h : StoresOk d) {c : Nat} {m : Mover} : StoresOk (Machine.firmwareIssue c m d) := h.putDesc.moverTake

theorem StoresOk.moverIssue (h : StoresOk d) {c : Nat} : StoresOk (Machine.moverIssue c d) := .ite h h.moverTake

theorem StoresOk.moverStop (h : StoresOk d) {c : Nat} : StoresOk (Machine.moverStop c d) := by
  have hm : StoresOk (d.modMover c (fun m => { m with state := .aborted })) := h.modMover
  unfold Machine.moverStop
  split
  · exact hm.upd (by rfl)
  · exact h

theorem StoresOk.moverGoDev (h : StoresOk d) {c : Nat} {v : Word} : StoresOk (Machine.moverGoDev c v d) :=
  .ite (.ite (.ite h.moverStop h) h.moverIssue) h

theorem StoresOk.moverAbortDev (h : StoresOk d) {c : Nat} {v : Word} : StoresOk (Machine.moverAbortDev c v d) := .ite h.moverStop h

theorem StoresOk.hostMoved (h : StoresOk d) {n : Nat} : StoresOk (Machine.hostMoved n d) := (h.upd (by rfl)).cntHostLines

theorem StoresOk.movMoved (h : StoresOk d) {n : Nat} : StoresOk (Machine.movMoved n d) := h.upd rfl

theorem StoresOk.lanesRelease (h : StoresOk d) : StoresOk (Machine.lanesRelease d) := h.upd rfl

theorem StoresOk.windowFillDev (h : StoresOk d) : StoresOk (Machine.windowFillDev d) := .ite h (h.hostMoved.upd (by rfl))

theorem StoresOk.drainPut (h : StoresOk d) {a : Nat} {v : Word} {be : BitVec 4} {pack : Bool} : StoresOk (Machine.drainPut a v be pack d) :=
  (StoresOk.forEach (fun _ _ h => h.waveRaw) _ h).dramInvalidate

theorem StoresOk.windowDrainDev (h : StoresOk d) : StoresOk (Machine.windowDrainDev d) := by
  unfold Machine.windowDrainDev
  split
  · exact h
  · exact .ite h ((h.upd (by rfl)).drainPut.hostMoved)

theorem StoresOk.moverDoneDev (h : StoresOk d) {c : Nat} : StoresOk (Machine.moverDoneDev c d) :=
  .ite (.ite h.modMover.putFlag h.modMover) h

theorem StoresOk.patrolBorrowDev (h : StoresOk d) : StoresOk (Machine.patrolBorrowDev d) := .ite h (h.upd (by rfl))

theorem StoresOk.patrolReturn (h : StoresOk d) : StoresOk (Machine.patrolReturn d) := h.upd rfl

theorem StoresOk.patrolRestoreDev (h : StoresOk d) {pass : Bool} : StoresOk (Machine.patrolRestoreDev pass d) :=
  .ite h (.ite h.patrolReturn ((StoresOk.ite h.patrolReturn.putReg.putFlag.bump h.patrolReturn).logEv.setFault))

theorem StoresOk.patrolAbortDev (h : StoresOk d) : StoresOk (Machine.patrolAbortDev d) :=
  .ite h ((StoresOk.ite h.patrolReturn.bump.putFlag h.patrolReturn).logEv)

/-! ### The boot -/

theorem StoresOk.bootLog (h : StoresOk d) {fatal : Bool} {code slot sect : Nat} : StoresOk (Machine.bootLog fatal code slot sect d) :=
  h.logEv

theorem StoresOk.bootWarn (h : StoresOk d) {code slot sect : Nat} : StoresOk (Machine.bootWarn code slot sect d) := h.bootLog.bumpFld

theorem StoresOk.bootErr (h : StoresOk d) {code sect : Nat} : StoresOk (Machine.bootErr code sect d) := h.putFld.putFld

theorem StoresOk.loadCode (h : StoresOk d) {b : List Byte} : StoresOk (Machine.loadCode b d) :=
  ⟨h.regs, h.pstore, cellsWf_cellPutBytes _ _ _ _ rfl, h.outwave, h.wave⟩

theorem StoresOk.loadPartWord (h : StoresOk d) {off : Nat} {bs : List Byte} : StoresOk (Machine.loadPartWord off bs d) :=
  .ite h.rejectPart h.psRaw

theorem StoresOk.loadRecords (h : StoresOk d) {x : Sect} {b : List Byte} : StoresOk (Machine.loadRecords x b d) := by
  unfold Machine.loadRecords
  split
  · exact .ite h (.ite (.forUpTo (fun _ _ h => h.loadPartWord) _ h) h.psRaw)
  · exact h

theorem StoresOk.nvmResetIssue (h : StoresOk d) : StoresOk (Machine.nvmResetIssue d) := h.setStage.putFlag.modBoot

theorem StoresOk.nvmResetDev (h : StoresOk d) : StoresOk (Machine.nvmResetDev d) := .ite h (.ite h.setStage h.nvmResetIssue)

/-! ### Routes and levels -/

theorem StoresOk.glfoRestartAt (h : StoresOk d) {mask b : Nat} : StoresOk (Machine.glfoRestartAt mask b d) := h.upd rfl

theorem StoresOk.routeErrors (h : StoresOk d) {c tile : Nat} {words old : List Nat} {all : Bool} : StoresOk (Machine.routeErrors c tile
    words old all d) :=
  .forUpTo (fun _ _ h => .ite h.cluBump.cluIrq.putReg h) _ h

theorem StoresOk.cfRead (h : StoresOk d) {v : Nat} : StoresOk (Machine.cfRead v d) := h.upd rfl

theorem StoresOk.evalPoint (h : StoresOk d) {v b : Nat} : StoresOk (Machine.evalPoint v b d) := h.routeErrors.modVaud

theorem StoresOk.evalNext (h : StoresOk d) {v : Nat} : StoresOk (Machine.evalNext v d) := .ite h.evalPoint h

theorem StoresOk.evalVoice (h : StoresOk d) {v B : Nat} : StoresOk (Machine.evalVoice v B d) := by
  unfold Machine.evalVoice
  dsimp only
  split
  · exact .ite h.evalPoint h
  · exact .ite h h.evalPoint

theorem StoresOk.levelWrite (h : StoresOk d) {v : Nat} : StoresOk (Machine.levelWrite v d) := by
  unfold Machine.levelWrite
  split
  · exact h.modVaud.v32
  · exact h

/-! ### The mix and the players -/

theorem StoresOk.modMix (h : StoresOk d) {f : Mix → Mix} : StoresOk (Machine.Dev.modMix d f) := h.upd rfl

theorem StoresOk.mixPut (h : StoresOk d) {a : Nat} {v : Word} : StoresOk (Machine.mixPut a v d) := h.putReg.modMix

theorem StoresOk.mixClear (h : StoresOk d) {a : Nat} {w : Word} : StoresOk (Machine.mixClear a w d) := h.upd rfl

theorem StoresOk.raise (h : StoresOk d) {a n : Nat} : StoresOk (Machine.Dev.raise d a n) := h.putFlag

theorem StoresOk.raiseIrq (h : StoresOk d) {dom a n : Nat} : StoresOk (Machine.Dev.raiseIrq d dom a n) := .ite h.raise h

theorem StoresOk.effRelease (h : StoresOk d) : StoresOk (Machine.effRelease d) := by
  unfold Machine.effRelease
  exact (StoresOk.forEach (fun _ _ h => h.putReg) _ h).modMix

theorem StoresOk.mixRelease (h : StoresOk d) : StoresOk (Machine.mixRelease d) :=
  .ite (.ite h.modMix h.modMix.bumpBy.raiseIrq) ((StoresOk.ite h.modMix h.modMix.bumpBy.raiseIrq).bumpBy.raiseIrq)

theorem StoresOk.mixWake (h : StoresOk d) : StoresOk (Machine.mixWake d) := h.upd rfl

/-! ### The outputs -/

theorem StoresOk.modOutCh (h : StoresOk d) {i : Nat} {f : OutCh → OutCh} : StoresOk (Machine.Dev.modOutCh d i f) := h.upd rfl

theorem StoresOk.parkOutputs (h : StoresOk d) {pins : Bool} : StoresOk (Machine.parkOutputs pins d) := h.upd rfl

theorem StoresOk.modPlayer (h : StoresOk d) {i : Nat} {f : Player → Player} : StoresOk (Machine.Dev.modPlayer d i f) := h.upd rfl

theorem StoresOk.playStart (h : StoresOk d) {i k : Nat} : StoresOk (Machine.playStart i k d) := .ite h.modPlayer h.raiseIrq

theorem StoresOk.playStop (h : StoresOk d) {i : Nat} : StoresOk (Machine.playStop i d) := h.upd rfl

theorem StoresOk.playCfgWrite (h : StoresOk d) {i : Nat} {v : Word} : StoresOk (Machine.playCfgWrite i v d) :=
  .ite h (.ite ((StoresOk.ite h.mixPut.playStop h.mixPut).playStart) (.ite h.mixPut.playStop h.mixPut))

theorem StoresOk.playLvlWrite (h : StoresOk d) {i : Nat} {v : Word} : StoresOk (Machine.playLvlWrite i v d) :=
  .ite h (.ite h.raise.cntRej h.mixPut)

theorem StoresOk.playerGoDev (h : StoresOk d) {i : Nat} {v : Word} : StoresOk (Machine.playerGoDev i v d) := .ite h.playCfgWrite h

theorem StoresOk.playerStopDev (h : StoresOk d) {i : Nat} {v : Word} : StoresOk (Machine.playerStopDev i v d) := .ite h.playCfgWrite h

theorem StoresOk.playerTriggerDev (h : StoresOk d) {i : Nat} : StoresOk (Machine.playerTriggerDev i d) := by
  unfold Machine.playerTriggerDev
  split
  · exact h
  · exact .ite h.modPlayer.playStart h

theorem StoresOk.playRelease (h : StoresOk d) {i : Nat} : StoresOk (Machine.playRelease i d) := h.upd rfl

theorem StoresOk.raiseFault (h : StoresOk d) {i : Nat} {legN : Bool} {kind mv : Nat} : StoresOk (Machine.raiseFault i legN kind mv d) :=
  h.modOutCh.raise.raiseIrq.bump.emit.logEv

theorem StoresOk.outSense (h : StoresOk d) {i : Nat} : StoresOk (Machine.outSense i d) := by
  unfold Machine.outSense
  exact .ite h (.ite (h.upd (by rfl)) (.ite ((h.upd (by rfl)).raiseFault) (.ite ((h.upd (by rfl)).raiseFault) (h.upd (by rfl)))))

theorem StoresOk.outRelease (h : StoresOk d) {i : Nat} : StoresOk (Machine.outRelease i d) :=
  .ite h (.ite h.modOutCh.playRelease.modOutCh h.modOutCh.playRelease.modOutCh.bump.raiseIrq)

theorem StoresOk.outsRelease (h : StoresOk d) : StoresOk (Machine.outsRelease d) := .forUpTo (fun _ _ h => h.outRelease) _ h

theorem StoresOk.outBitsWrite (h : StoresOk d) {a : Nat} {v : Word} : StoresOk (Machine.outBitsWrite a v d) := h.mixPut

theorem StoresOk.outputEnableDev (h : StoresOk d) {v : Word} : StoresOk (Machine.outputEnableDev v d) := .ite h h.outBitsWrite

theorem StoresOk.outputDisableDev (h : StoresOk d) {v : Word} : StoresOk (Machine.outputDisableDev v d) := .ite h h.outBitsWrite

theorem StoresOk.rangeChangeDev (h : StoresOk d) {v : Word} : StoresOk (Machine.rangeChangeDev v d) := h.outBitsWrite

theorem StoresOk.outFaultClearDev (h : StoresOk d) {v : Word} : StoresOk (Machine.outFaultClearDev v d) := h.frame (by simp)

theorem StoresOk.outputFaultDev (h : StoresOk d) {i : Nat} {legN : Bool} {kind : LegFault} {mv : Nat} : StoresOk (Machine.outputFaultDev i
    legN kind mv d) :=
  .ite h h.raiseFault

theorem StoresOk.faultRetryDev (h : StoresOk d) {i : Nat} : StoresOk (Machine.faultRetryDev i d) := .ite h.modOutCh.bump h

theorem StoresOk.outWake (h : StoresOk d) {g : Nat} : StoresOk (Machine.outWake g d) := h.frame (by simp)

/-! ### Chronographs and event counters -/

theorem StoresOk.atEdge (h : StoresOk d) {a : Nat} {v : Word} {f : Dev → Dev} (hf : ∀ e, StoresOk e → StoresOk (f e)) :
    StoresOk (Machine.atEdge a v f d) :=
  .ite (h.upd (by rfl)) (hf _ h)

theorem StoresOk.modChr (h : StoresOk d) {c : Nat} {f : Chrono → Chrono} : StoresOk (Machine.Dev.modChr d c f) := h.upd rfl

theorem StoresOk.modOut (h : StoresOk d) {k : Nat} {f : ChrOut → ChrOut} : StoresOk (Machine.Dev.modOut d k f) := h.upd rfl

theorem StoresOk.edgeTo (h : StoresOk d) {x : Nat} : StoresOk (Machine.edgeTo x d) := h.upd rfl

theorem StoresOk.edgeRelease (h : StoresOk d) : StoresOk (Machine.edgeRelease d) := h.upd rfl

theorem StoresOk.outDrive (h : StoresOk d) {k : Nat} : StoresOk (Machine.outDrive k d) := h.upd rfl

theorem StoresOk.outEvents (h : StoresOk d) {c : Nat} {e : ChrEvents} {k : Nat} : StoresOk (Machine.outEvents c e k d) := h.frame (by simp)

theorem StoresOk.emitEvents (h : StoresOk d) {c : Nat} {e : ChrEvents} : StoresOk (Machine.emitEvents c e d) := h.frame (by simp)

theorem StoresOk.tickBy (h : StoresOk d) {c n : Nat} : StoresOk (Machine.tickBy c n d) :=
  .forUpTo (fun _ _ h => h.outEvents) _
    ((((h.modChr.when (·.putFlag)).when (·.putFlag)).when (·.putFlag)).when (·.putFlag)).emitEvents

theorem StoresOk.chrTickDev (h : StoresOk d) {c inc : Nat} : StoresOk (Machine.chrTickDev c inc d) := by
  unfold Machine.chrTickDev
  dsimp only
  refine .ite h ?_
  refine .ite (.ite h.edgeTo.modChr.tickBy h) ?_
  split
  · exact .ite h.modChr.tickBy h
  · exact h

theorem StoresOk.registerTicks (h : StoresOk d) {pick : Nat → Bool} {n : Nat} : StoresOk (Machine.registerTicks pick n d) := h.upd rfl

theorem StoresOk.chrRelease (h : StoresOk d) : StoresOk (Machine.chrRelease d) := h.frame (by simp)

theorem StoresOk.prescaleFrom (h : StoresOk d) {c : Nat} : StoresOk (Machine.prescaleFrom c d) := h.upd rfl

theorem StoresOk.chrEn (h : StoresOk d) {c : Nat} {on : Bool} : StoresOk (Machine.chrEn c on d) :=
  .ite h.putFlag.putFlag.modChr (.ite h.putFlag.putFlag h.putFlag.putFlag.prescaleFrom)

theorem StoresOk.chrZero (h : StoresOk d) {c : Nat} : StoresOk (Machine.chrZero c d) := h.upd rfl

theorem StoresOk.chrStartNow (h : StoresOk d) {v : Word} : StoresOk (Machine.chrStartNow v d) :=
  .ite (.forUpTo (fun _ _ h => .ite ((StoresOk.ite h.chrZero h).chrEn) h) _ h) h

theorem StoresOk.chrStartDev (h : StoresOk d) {v : Word} : StoresOk (Machine.chrStartDev v d) := h.atEdge (fun _ h => h.chrStartNow)

theorem StoresOk.chrStopNow (h : StoresOk d) {v : Word} : StoresOk (Machine.chrStopNow v d) :=
  .ite (.forUpTo (fun _ _ h => .ite h.chrEn h) _ h) h

theorem StoresOk.chrStopDev (h : StoresOk d) {v : Word} : StoresOk (Machine.chrStopDev v d) := h.atEdge (fun _ h => h.chrStopNow)

theorem StoresOk.chrClearNow (h : StoresOk d) {c : Nat} {v : Word} : StoresOk (Machine.chrClearNow c v d) :=
  .ite h ((((h.putReg.putFlag.whenNot (·.modChr)).whenNot (·.modChr)).when (·.prescaleFrom)).when (·.chrZero))

theorem StoresOk.chrClearDev (h : StoresOk d) {c : Nat} {v : Word} : StoresOk (Machine.chrClearDev c v d) :=
  h.atEdge (fun _ h => h.chrClearNow)

theorem StoresOk.reloadWriteNow (h : StoresOk d) {c : Nat} {v : Word} : StoresOk (Machine.reloadWriteNow c v d) :=
  .ite h (.ite h.putReg.putFlag h.putReg)

theorem StoresOk.reloadWriteDev (h : StoresOk d) {c : Nat} {v : Word} : StoresOk (Machine.reloadWriteDev c v d) :=
  h.atEdge (fun _ h => h.reloadWriteNow)

theorem StoresOk.capturePut (h : StoresOk d) {c n v : Nat} : StoresOk (Machine.capturePut c n v d) :=
  (StoresOk.ite h.putFlag h).modChr.putFlag

theorem StoresOk.captureNow (h : StoresOk d) {c n : Nat} : StoresOk (Machine.captureNow c n d) := h.capturePut

theorem StoresOk.captureSw (h : StoresOk d) {c n : Nat} : StoresOk (Machine.captureSw c n d) := h.capturePut

theorem StoresOk.chrCaptureDev (h : StoresOk d) {c n : Nat} : StoresOk (Machine.chrCaptureDev c n d) := .ite h.modChr.captureNow h

theorem StoresOk.captureSwNow (h : StoresOk d) {c : Nat} {v : Word} : StoresOk (Machine.captureSwNow c v d) :=
  .ite h (.ite ((StoresOk.ite h.putReg.captureSw h.putReg).captureSw) (.ite h.putReg.captureSw h.putReg))

theorem StoresOk.captureSwDev (h : StoresOk d) {c : Nat} {v : Word} : StoresOk (Machine.captureSwDev c v d) :=
  h.atEdge (fun _ h => h.captureSwNow)

theorem StoresOk.chrCapReadDev (h : StoresOk d) {c n : Nat} : StoresOk (Machine.chrCapReadDev c n d) :=
  .ite (h.atEdge (fun _ h => h.putFlag)) h

theorem StoresOk.registerCaptures (h : StoresOk d) {pick : Nat → Nat → Bool} : StoresOk (Machine.registerCaptures pick d) := h.upd rfl

theorem StoresOk.evcRun (h : StoresOk d) {on : Bool} : StoresOk (Machine.evcRun on d) := h.upd rfl

theorem StoresOk.evcAdd (h : StoresOk d) {x n inc : Nat} : StoresOk (Machine.evcAdd x n inc d) := .ite
    (h.upd (by rfl)) ((h.upd (by rfl)).putFlag)

theorem StoresOk.evcCount (h : StoresOk d) {x code inc : Nat} : StoresOk (Machine.evcCount x code inc d) :=
  .ite (.forUpTo (fun _ _ h => .ite h.evcAdd h) _ h) h

theorem StoresOk.evcGate (h : StoresOk d) {codes : List Nat} : StoresOk (Machine.evcGate codes d) := h.frame (by simp)

theorem StoresOk.deliverOne (h : StoresOk d) {x : Nat} {o : Nat × Nat} : StoresOk (Machine.deliverOne x o d) := h.evcCount.registerTicks

theorem StoresOk.eventBusDeliveryDev (h : StoresOk d) : StoresOk (Machine.eventBusDeliveryDev d) := by
  unfold Machine.eventBusDeliveryDev
  split
  · exact h
  · exact .ite h ((StoresOk.forEach (fun _ _ h => h.deliverOne) _ ((h.upd (by rfl)).edgeTo.evcGate)).registerCaptures)

theorem StoresOk.evcZeroAll (h : StoresOk d) : StoresOk (Machine.evcZeroAll d) := h.upd rfl

theorem StoresOk.evcSetFreeze (h : StoresOk d) {on : Bool} : StoresOk (Machine.evcSetFreeze on d) := .ite (h.putFlag.upd (by rfl)) h.putFlag

theorem StoresOk.evcGlbNow (h : StoresOk d) {v : Word} : StoresOk (Machine.evcGlbNow v d) :=
  .ite h (.ite ((StoresOk.ite h.putFld.putFld.evcZeroAll h.putFld.putFld).evcSetFreeze.evcRun)
    (.ite ((StoresOk.ite h.putFld.putFld.evcZeroAll h.putFld.putFld).evcSetFreeze.evcRun) ((StoresOk.ite h.putFld.putFld.evcZeroAll
      h.putFld.putFld).evcSetFreeze)))

theorem StoresOk.evcGlbWrite (h : StoresOk d) {v : Word} : StoresOk (Machine.evcGlbWrite v d) := h.atEdge (fun _ h => h.evcGlbNow)

theorem StoresOk.evcStartDev (h : StoresOk d) {v : Word} : StoresOk (Machine.evcStartDev v d) := .ite h.evcGlbWrite h

theorem StoresOk.evcStopDev (h : StoresOk d) {v : Word} : StoresOk (Machine.evcStopDev v d) := .ite h.evcGlbWrite h

theorem StoresOk.evcClearAllDev (h : StoresOk d) {v : Word} : StoresOk (Machine.evcClearAllDev v d) := .ite h.evcGlbWrite h

theorem StoresOk.evcFreezeDev (h : StoresOk d) {v : Word} : StoresOk (Machine.evcFreezeDev v d) := h.evcGlbWrite

theorem StoresOk.evcClrNow (h : StoresOk d) {n : Nat} {v : Word} : StoresOk (Machine.evcClrNow n v d) :=
  .ite h (.ite (h.putReg.upd (by rfl)) h.putReg)

theorem StoresOk.evcClrDev (h : StoresOk d) {n : Nat} {v : Word} : StoresOk (Machine.evcClrDev n v d) := h.atEdge (fun _ h => h.evcClrNow)

theorem StoresOk.chrOutctlNow (h : StoresOk d) {k : Nat} {v : Word} : StoresOk (Machine.chrOutctlNow k v d) :=
  (StoresOk.ite h.putReg h.putReg.modOut).outDrive

theorem StoresOk.chrWrite (h : StoresOk d) {a : Nat} {v : Word} : StoresOk (Machine.chrWrite a v d) :=
  .ite h.chrStartNow (.ite h.chrStopNow (.ite h.chrOutctlNow (.ite h.evcGlbNow (.ite h.evcClrNow (.ite h.codedWrite
    (.ite h.chrClearNow (.ite h.reloadWriteNow (.ite h.captureSwNow h.codedWrite))))))))

theorem StoresOk.edgeResumeOne (h : StoresOk d) {stops : Word} {e : Nat × Word} : StoresOk (Machine.edgeResumeOne stops e d) :=
  .ite h.chrWrite.chrStopNow h.chrWrite

theorem StoresOk.edgeResumeRead (h : StoresOk d) {e : Nat × Word} : StoresOk (Machine.edgeResumeRead e d) := h.putFlag

theorem StoresOk.edgeResume (h : StoresOk d) : StoresOk (Machine.edgeResume d) :=
  .forEach (fun _ _ h => h.edgeResumeOne) _ (.forEach (fun _ _ h => h.edgeResumeRead) _ (h.upd (by rfl)))

theorem StoresOk.chrWake (h : StoresOk d) : StoresOk (Machine.chrWake d) := h.upd rfl

/-! ### Oscillators -/

theorem StoresOk.voiceFrame (h : StoresOk d) {v t : Nat} : StoresOk (Machine.voiceFrame v t d).1 := by
  unfold Machine.voiceFrame
  dsimp only
  split
  · exact h.evalNext
  · exact (((h.evalNext.modVaud.cluBump.cluBump.whenNot (·.cluBump.cluIrq.emit)).when (·.cluBump)).whenNot
      (·.cluBump.cluIrq)).requestLines

theorem StoresOk.voiceState (h : StoresOk d) {v t : Nat} : StoresOk (Machine.voiceState v t d) := .ite h.evalNext h.evalNext.modVaud.cluBump

/-! ### Cells -/

theorem StoresOk.cellApply (h : StoresOk d) {v t : Nat} : StoresOk (Machine.cellApply v t d) := h.frame (by simp)

theorem StoresOk.cellCodes (h : StoresOk d) {v t : Nat} : StoresOk (Machine.cellCodes v t d) := h.frame (by simp)

theorem StoresOk.cfVoice (h : StoresOk d) {B v : Nat} : StoresOk (Machine.cfVoice B v d) :=
  .ite h.evalNext.cfRead.evalVoice.levelWrite.cellApply h

theorem StoresOk.cfBoundaryDev (h : StoresOk d) : StoresOk (Machine.cfBoundaryDev d) :=
  .ite h (.forUpTo (fun _ _ h => .ite h.cfVoice h) _ h.modAud)

theorem StoresOk.cellRun (h : StoresOk d) {v : Nat} : StoresOk (Machine.cellRun v d).1 := by
  unfold Machine.cellRun
  exact .ite ((h.upd (by rfl)).cluBump.cluIrq) (h.upd (by rfl))

theorem StoresOk.dacLatch (h : StoresOk d) {v t : Nat} : StoresOk (Machine.dacLatch v t d) := h.upd rfl

theorem StoresOk.quenchCell (h : StoresOk d) {v : Nat} {again : Bool} : StoresOk (Machine.quenchCell v again d) := h.upd rfl

theorem StoresOk.adcOverloadDev (h : StoresOk d) {v : Nat} : StoresOk (Machine.adcOverloadDev v d) :=
  .ite h.modTile.cluIrq.cluBump.putFlag h

theorem StoresOk.biasFaultDev (h : StoresOk d) {v : Nat} : StoresOk (Machine.biasFaultDev v d) := .ite h.cluIrq h

/-! ### Skimmers -/

theorem StoresOk.skimRelease (h : StoresOk d) {v : Nat} {codes : List ℤ} : StoresOk (Machine.skimRelease v codes d) := h.upd rfl

theorem StoresOk.skimOut (h : StoresOk d) {v : Nat} : StoresOk (Machine.skimOut v d) := .ite h.modTile h.modTile.cluBump.cluIrq

theorem StoresOk.swapRequest (h : StoresOk d) {c : Nat} : StoresOk (Machine.swapRequest c d) :=
  .ite h.cluBump.cluIrq (.ite h.modClu h.modClu)

theorem StoresOk.swapDev (h : StoresOk d) {c : Nat} {v : Word} : StoresOk (Machine.swapDev c v d) := .ite h.swapRequest h

theorem StoresOk.swapAllDev (h : StoresOk d) {c : Nat} {v : Word} : StoresOk (Machine.swapAllDev c v d) :=
  .ite (.forUpTo (fun _ _ h => .ite h.swapRequest h) _ h) h

theorem StoresOk.fadeStep (h : StoresOk d) {c : Nat} : StoresOk (Machine.fadeStep c d) := h.upd rfl

theorem StoresOk.coefWrite (h : StoresOk d) {list : Bool} {c : Nat} {bank : Bool} {i : Nat} {v : Word} : StoresOk (Machine.coefWrite list c
    bank i v d) :=
  .ite h (.ite h.cluBump.cluIrq h.putReg)

theorem StoresOk.skimmerCoefWriteDev (h : StoresOk d) {c : Nat} {bank : Bool} {i : Nat} {v : Word} : StoresOk (Machine.skimmerCoefWriteDev
    c bank i v d) :=
  h.coefWrite

theorem StoresOk.resetAt (h : StoresOk d) {c r : Nat} : StoresOk (Machine.resetAt c r d) := h.upd rfl

theorem StoresOk.skmCtlWrite (h : StoresOk d) {lock : Bool} {c : Nat} {v : Word} : StoresOk (Machine.skmCtlWrite lock c v d) :=
  .ite h (.ite ((StoresOk.ite h.lockViol.putFld.putFlag.modClu h.lockViol.putFld).resetAt)
    (.ite h.lockViol.putFld.putFlag.modClu h.lockViol.putFld))

theorem StoresOk.skimReset (h : StoresOk d) {c : Nat} : StoresOk (Machine.skimReset c d) :=
  (StoresOk.forUpTo (fun _ _ h => h.modTile) _ h.modClu).cluBump.cluIrq.emit

theorem StoresOk.clusterFrame (h : StoresOk d) {c : Nat} {onTime : Bool} : StoresOk (Machine.clusterFrame c onTime d) :=
  .ite ((StoresOk.forUpTo (fun _ _ h => h.skimOut) _ (.forUpTo (fun _ _ h => .ite h.voiceFrame h.voiceFrame.modTile) _ h)).modClu)
    (.forUpTo (fun _ _ h => h.skimOut) _ (.forUpTo (fun _ _ h => .ite h.voiceFrame h.voiceFrame.modTile) _ h))

/-! ### Calibration -/

theorem StoresOk.modCal (h : StoresOk d) {f : Cal → Cal} : StoresOk (Machine.Dev.modCal d f) := h.upd rfl

theorem StoresOk.calRelease (h : StoresOk d) {v n : Nat} : StoresOk (Machine.calRelease v n d) := h.frame (by simp)

theorem StoresOk.calSkimReset (h : StoresOk d) {c : Nat} : StoresOk (Machine.calSkimReset c d) := h.upd rfl

theorem StoresOk.runEnds (h : StoresOk d) {fg : Bool} {r : CalRun} : StoresOk (Machine.runEnds fg r d) :=
  .ite h.psV.modCal.bump.emit h.psV.modCal.bump.emit.bump.setIrq.logEv

theorem StoresOk.calLast (h : StoresOk d) {outcome step slot : Nat} : StoresOk (Machine.calLast outcome step slot d) := h.putReg

theorem StoresOk.calQueueOne (h : StoresOk d) {v : Nat} {asked : Bool} : StoresOk (Machine.calQueueOne v asked d) := .ite h.modCal h

theorem StoresOk.calQueueCluster (h : StoresOk d) {c : Nat} : StoresOk (Machine.calQueueCluster c d) :=
  .forUpTo (fun _ _ h => h.calQueueOne) _ h

theorem StoresOk.calAgain (h : StoresOk d) {v : Nat} : StoresOk (Machine.calAgain v d) := by
  unfold Machine.calAgain
  split
  · exact h
  · exact h.modCal.calQueueOne

theorem StoresOk.calReqDev (h : StoresOk d) {w : Word} : StoresOk (Machine.calReqDev w d) := .ite h.calQueueOne h

theorem StoresOk.backgroundRunStartDev (h : StoresOk d) {v : Nat} : StoresOk (Machine.backgroundRunStartDev v d) := .ite h.modCal.draw h

theorem StoresOk.calAbort (h : StoresOk d) {v : Nat} : StoresOk (Machine.calAbort v d) :=
  .ite (.ite h.modCal.bump.setIrq.emit.calLast h.modCal) h

theorem StoresOk.calAbortAll (h : StoresOk d) {pick : Nat → Bool} : StoresOk (Machine.calAbortAll pick d) :=
  .forEach (fun _ _ h => h.calAbort) _ h

theorem StoresOk.calTake (h : StoresOk d) {v : Nat} : StoresOk (Machine.calTake v d) := by
  unfold Machine.calTake
  split
  · exact h.calAbort.modCal
  · exact h

theorem StoresOk.calPreempt (h : StoresOk d) {v : Nat} {taken : Bool} : StoresOk (Machine.calPreempt v taken d) :=
  .ite h.calTake.quenchCell h

theorem StoresOk.calAgainFree (h : StoresOk d) : StoresOk (Machine.calAgainFree d) := .forEach (fun _ _ h => .ite h.calAgain h) _ h

theorem StoresOk.calHostWrite (h : StoresOk d) {off : Nat} : StoresOk (Machine.calHostWrite off d) := .ite h.calAbort h

theorem StoresOk.temperatureUpdateDev (h : StoresOk d) {c : Nat} : StoresOk (Machine.temperatureUpdateDev c d) :=
  .ite ((h.upd (by rfl)).calQueueCluster) h

theorem StoresOk.clusterReset (h : StoresOk d) {c : Nat} : StoresOk (Machine.clusterReset c d) := h.skimReset.calSkimReset

theorem StoresOk.synchronisingResetDev (h : StoresOk d) {c : Nat} : StoresOk (Machine.synchronisingResetDev c d) := .ite h.clusterReset h

/-! ### Arming -/

theorem StoresOk.armFault (h : StoresOk d) {v i code : Nat} {arm : List Byte} : StoresOk (Machine.armFault v i code arm d) :=
  (StoresOk.ite h.cluIrq h.cluBump.cluIrq).putReg

theorem StoresOk.armRequests (h : StoresOk d) {v : Nat} : StoresOk (Machine.armRequests v d) :=
  .forUpTo (fun _ _ h => h.requestRest) _ h.modVaud.requestLines

theorem StoresOk.armRoutes (h : StoresOk d) {v : Nat} : StoresOk (Machine.armRoutes v d) := h.routeErrors.modVaud

theorem StoresOk.armRead (h : StoresOk d) {v : Nat} : StoresOk (Machine.armRead v d) := h.upd rfl

theorem StoresOk.armTile (h : StoresOk d) {v : Nat} : StoresOk (Machine.armTile v d) := h.upd rfl

theorem StoresOk.armEval (h : StoresOk d) {v : Nat} : StoresOk (Machine.armEval v d) := .ite h.evalVoice h

theorem StoresOk.armFaults (h : StoresOk d) {v : Nat} : StoresOk (Machine.armFaults v d) := .forUpTo (fun _ _ h => .ite h h.armFault) _ h

theorem StoresOk.clusterArm (h : StoresOk d) {v : Nat} : StoresOk (Machine.clusterArm v d) :=
  h.armRead.armTile.armFaults.armRoutes.armRequests.armEval.cellApply

theorem StoresOk.clusterReuse (h : StoresOk d) {v old key : Nat} {mono restart glide : Bool} : StoresOk (Machine.clusterReuse v old key
    mono restart glide d) :=
  .ite h.cellApply.modVaud.requestLines h.cellApply.modVaud

theorem StoresOk.gateFall (h : StoresOk d) {v : Nat} : StoresOk (Machine.gateFall v d) := h.upd rfl

theorem StoresOk.clusterQuench (h : StoresOk d) {v : Nat} : StoresOk (Machine.clusterQuench v d) := h.upd rfl

/-! ### Directives -/

theorem StoresOk.modCas (h : StoresOk d) {f : Cas → Cas} : StoresOk (Machine.Dev.modCas d f) := h.upd rfl

theorem StoresOk.emitDir (h : StoresOk d) {bs : List Byte} : StoresOk (Machine.emitDir bs d) :=
  .ite h (.ite h.modCas.modCas h.modCas.modCas.bump.setIrq)

theorem StoresOk.partV (h : StoresOk d) {p off : Nat} {bs : List Byte} : StoresOk (Machine.partV p off bs d) := h.psV.emitDir

theorem StoresOk.noteV (h : StoresOk d) {v off : Nat} {bs : List Byte} : StoresOk (Machine.noteV v off bs d) := .ite h.psV h.emitDir

/-! ### The Parlour -/

theorem StoresOk.countNoPart (h : StoresOk d) {n : Nat} : StoresOk (Machine.countNoPart n d) := .ite h h.bumpBy

theorem StoresOk.headLatch (h : StoresOk d) : StoresOk (Machine.headLatch d) := h.upd rfl

theorem StoresOk.poolUpdate (h : StoresOk d) : StoresOk (Machine.poolUpdate d) := .ite ((h.upd (by rfl)).setIrq) (h.upd (by rfl))

theorem StoresOk.toReleasing (h : StoresOk d) {v : Nat} : StoresOk (Machine.toReleasing v d) := .ite h.setVoice.gateFall h.setVoice.emitDir

theorem StoresOk.toStealing (h : StoresOk d) {v fade : Nat} : StoresOk (Machine.toStealing v fade d) := .ite h.setVoice h.setVoice.emitDir

theorem StoresOk.toQuench (h : StoresOk d) {v : Nat} : StoresOk (Machine.toQuench v d) :=
  .ite h (.ite h.setVoice.clusterQuench h.setVoice.emitDir)

theorem StoresOk.toFree (h : StoresOk d) {v : Nat} : StoresOk (Machine.toFree v d) :=
  .ite ((StoresOk.ite h.setVoice.modCas h.setVoice).calAgain) (.ite h.setVoice.modCas h.setVoice)

theorem StoresOk.offVoice (h : StoresOk d) {v : Nat} : StoresOk (Machine.offVoice v d) :=
  .ite h.setVoice (.ite (.ite h.setVoice (.ite h.setVoice h.toReleasing)) h)

theorem StoresOk.letGo (h : StoresOk d) {v : Nat} : StoresOk (Machine.letGo v d) := .ite h.setVoice.toReleasing h.setVoice

theorem StoresOk.recordPlan (h : StoresOk d) {p : Nat} {drop : Bool} {victims : List Nat} : StoresOk (Machine.recordPlan p drop victims d)
    :=
  .ite h.modCas h

theorem StoresOk.recordSlot (h : StoresOk d) {v : Nat} : StoresOk (Machine.recordSlot v d) := h.frame (by simp)

theorem StoresOk.armOwn (h : StoresOk d) {v : Nat} {taken : Bool} {x : Voice} : StoresOk (Machine.armOwn v taken x d) :=
  h.calPreempt.modVoice.mirrorVoice.psV.psV.clusterArm

theorem StoresOk.levelUnknown (h : StoresOk d) {v : Nat} : StoresOk (Machine.levelUnknown v d) := h.upd rfl

theorem StoresOk.armSlot (h : StoresOk d) {v : Nat} {k : NewVoice} : StoresOk (Machine.armSlot v k d) :=
  (StoresOk.ite h.armOwn h.modVoice.levelUnknown.emitDir).bump.emit.putReg

theorem StoresOk.cutVoice (h : StoresOk d) {v : Nat} : StoresOk (Machine.cutVoice v d) :=
  (StoresOk.ite h.clusterQuench h.emitDir).bump.setIrq.emit

theorem StoresOk.seatVoice (h : StoresOk d) {v : Nat} {k : NewVoice} : StoresOk (Machine.seatVoice v k d) :=
  .ite h.armSlot h.cutVoice.armSlot

theorem StoresOk.placeVoice (h : StoresOk d) {idx : Option Nat} {chosen : List Nat} {k : NewVoice} : StoresOk (Machine.placeVoice idx
    chosen k d).1 := by
  unfold Machine.placeVoice
  split
  · exact h.recordSlot.seatVoice
  · exact h

theorem StoresOk.placeVoices {idx : Option Nat} {k : NewVoice} {is : List Nat} {x : Dev × List Nat} (h : StoresOk x.1) :
    StoresOk (Machine.placeVoices idx k is x).1 := by
  induction is generalizing x with
  | nil => exact h
  | cons i r ih => exact ih h.placeVoice

theorem StoresOk.dropNote (h : StoresOk d) : StoresOk (Machine.dropNote d) := h.bump.setIrq.emit

theorem StoresOk.stealVoice (h : StoresOk d) {v : Nat} : StoresOk (Machine.stealVoice v d) := h.toStealing.bump.emit

theorem StoresOk.placePart (h : StoresOk d) {p : Nat} {note : Note} {chosen : List Nat} :
    StoresOk (Machine.placePart p note chosen d).1 := by
  unfold Machine.placePart
  dsimp only
  split
  · exact h.recordPlan.dropNote
  · exact .placeVoices (.forEach (fun _ _ h => h.stealVoice) _ h.recordPlan)

theorem StoresOk.modStack (h : StoresOk d) {p : Nat} {f : List Nat → List Nat} : StoresOk (Machine.modStack p f d) := h.upd rfl

theorem StoresOk.reuseVoice (h : StoresOk d) {v key : Nat} {mono restart glide : Bool} : StoresOk (Machine.reuseVoice v key mono restart
    glide d) :=
  .ite h.setVoice.emitDir (.ite h.setVoice h.setVoice.clusterReuse)

theorem StoresOk.reusePart (h : StoresOk d) {p : Nat} {note : Note} {vs : List Nat} : StoresOk (Machine.reusePart p note vs d) :=
  .forEach (fun _ _ h => h.modVoice.reuseVoice) _ ((h.upd (by rfl)).modStack)

theorem StoresOk.playPart {p : Nat} {note : Note} {x : Dev × List Nat} (h : StoresOk x.1) :
    StoresOk (Machine.playPart p note x).1 := by
  unfold Machine.playPart
  dsimp only
  split
  · exact h.placePart
  split
  · exact StoresOk.placePart (StoresOk.modStack (h.upd (by rfl)))
  · exact h.reusePart

theorem StoresOk.noteOffPart (h : StoresOk d) {p chan key rel : Nat} : StoresOk (Machine.noteOffPart p chan key rel d) := by
  have hv (vs : List Nat) (f : Voice → Voice) : StoresOk (Machine.forEach vs (fun v d => Machine.setVoice v f d) d) :=
    .forEach (fun _ _ h => h.setVoice) _ h
  unfold Machine.noteOffPart
  dsimp only
  split
  · exact h
  split
  · exact .forEach (fun _ _ h => h.offVoice) _ (hv _ _)
  split
  · split
    · exact (hv _ _).modStack
    split
    · exact .forEach (fun _ _ h => h.reuseVoice) _ (hv _ _).modStack
    · exact .forEach (fun _ _ h => h.offVoice) _ (hv _ _).modStack
  · exact .forEach (fun _ _ h => h.offVoice) _ (hv _ _).modStack

theorem StoresOk.playNote (h : StoresOk d) {ps : List Nat} {note : Note} {chosen : List Nat} :
    StoresOk (Machine.playNote ps note chosen d) := by
  unfold Machine.playNote
  refine List.foldlRecOn (motive := fun z : (Dev × List Nat) × List Nat => StoresOk z.1.1) _ _ h (fun z hz p _ => ?_)
  have hy (own : List Nat) : StoresOk (Machine.playPart p { note with own } z.1).1 := hz.playPart
  dsimp only
  split
  · dsimp only
    split
    · exact hy _
    · exact (hy _).noteOffPart
  · exact hy _

theorem StoresOk.armNote (h : StoresOk d) {note : Note} {pay : List Byte} {chosen : List Nat} : StoresOk (Machine.armNote note pay chosen
    d).1 := by
  unfold Machine.armNote
  dsimp only
  split
  · exact h
  · split
    · exact h.bump.setIrq
    · exact (h.upd (by rfl)).playNote

theorem StoresOk.countDefer (h : StoresOk d) {n : Nat} : StoresOk (Machine.countDefer n d) := .ite h h.bumpBy.setIrq.emit

theorem StoresOk.deferNote (h : StoresOk d) {t : Task} : StoresOk (Machine.deferNote t d) := .ite ((h.upd (by rfl)).countDefer) h.dropNote

theorem StoresOk.noteStatus (h : StoresOk d) {deferred : Bool} {pay : List Byte} : StoresOk (Machine.noteStatus deferred pay d).1 := by
  unfold Machine.noteStatus
  dsimp only
  split
  · exact h.countNoPart.countNoPart.setIrq
  · split
    · exact .ite h.countNoPart.countNoPart h.countNoPart
    · exact h.countNoPart

theorem StoresOk.armDeferredOne (h : StoresOk d) : StoresOk (Machine.armDeferredOne d).1 := by
  unfold Machine.armDeferredOne
  split
  · exact h
  split
  · exact h
  next x r _ _ =>
    have ha : StoresOk (Machine.forTask d.cas.dirTask (Machine.armNote (noteOf none x.payload x.tag x.off []) x.payload []
        (Machine.forTask (some (deferId x.order)) { d with par := { d.par with deferred := r } })).1) :=
      (StoresOk.forTask (h.upd (by rfl))).armNote.forTask
    dsimp only
    split
    · exact ha.noteStatus
    · exact ha.upd rfl

theorem StoresOk.armDeferred (h : StoresOk d) {a : Nat} : StoresOk (Machine.armDeferred a d) := by
  induction a generalizing d with
  | zero => exact h
  | succ n ih =>
    unfold Machine.armDeferred
    exact .ite (ih h.armDeferredOne) h.armDeferredOne

theorem StoresOk.deferredFirst (h : StoresOk d) : StoresOk (Machine.deferredFirst d) := h.armDeferred

theorem StoresOk.commitWith (h : StoresOk d) {i : Nat} {kind : Task → Bool} {f : Task → Dev → Dev × Nat}
    (hf : ∀ x e, StoresOk e → StoresOk (f x e).1) : StoresOk (Machine.commitWith i kind f d) := by
  unfold Machine.commitWith
  split
  · exact (hf _ _ h.deferredFirst.forTask).forTask.finishTask
  · exact h

theorem StoresOk.deferredNoteArmDev (h : StoresOk d) : StoresOk (Machine.deferredNoteArmDev d) := .ite h.armDeferredOne h

theorem StoresOk.noteOnCommit (h : StoresOk d) {t : Task} : StoresOk (Machine.noteOnCommit t d).1 := by
  unfold Machine.noteOnCommit
  dsimp only
  split
  · exact h.noteStatus
  · split
    · exact h.noteStatus.deferNote
    · split
      · exact h.noteStatus.armNote
      · exact h.noteStatus.armNote.deferNote

theorem StoresOk.noteOnDev (h : StoresOk d) {i : Nat} : StoresOk (Machine.noteOnDev i d) := h.commitWith (fun _ _ h => h.noteOnCommit)

theorem StoresOk.chooseFor (h : StoresOk d) {t : Task} : StoresOk (Machine.chooseFor t d) := .forEach (fun _ _ h => h.calTake) _ h.modTask

theorem StoresOk.chooseRelease (h : StoresOk d) : StoresOk (Machine.chooseRelease d) := by
  unfold Machine.chooseRelease
  refine List.foldlRecOn (motive := fun x : Dev × List Task => StoresOk x.1) _ _ h (fun x hx i _ => ?_)
  split
  · exact hx.chooseFor
  · exact hx

theorem StoresOk.shedOne (h : StoresOk d) {v : Nat} : StoresOk (Machine.shedOne v d) := (StoresOk.ite h.toQuench h.toStealing).bump

theorem StoresOk.shedFrom (h : StoresOk d) {set : List Nat} {pick : Nat → Bool} {a : Nat} : StoresOk (Machine.shedFrom set pick a d) := by
  induction a generalizing d with
  | zero => exact h
  | succ n ih =>
    unfold Machine.shedFrom
    split
    · exact ih h.shedOne
    · exact h

theorem StoresOk.guardShed (h : StoresOk d) {set : List Nat} : StoresOk (Machine.guardShed set d) := h.poolUpdate.shedFrom

theorem StoresOk.offerShed (h : StoresOk d) {q : Nat} : StoresOk (Machine.offerShed q d) := h.shedFrom

theorem StoresOk.firstSampleDev (h : StoresOk d) {v : Nat} : StoresOk (Machine.firstSampleDev v d) :=
  .ite (.ite h.setVoice.offVoice h.setVoice) h

theorem StoresOk.stealFadeEndDev (h : StoresOk d) {v : Nat} : StoresOk (Machine.stealFadeEndDev v d) := .ite h.toQuench h

theorem StoresOk.quenchEndDev (h : StoresOk d) {v : Nat} : StoresOk (Machine.quenchEndDev v d) := .ite h.toFree h

theorem StoresOk.env0CompleteDev (h : StoresOk d) {v : Nat} : StoresOk (Machine.env0CompleteDev v d) := by
  unfold Machine.env0CompleteDev
  split
  · exact h
  · exact .ite h.toFree.quenchCell h

theorem StoresOk.backgroundRunCompleteDev (h : StoresOk d) {v : Nat} : StoresOk (Machine.backgroundRunCompleteDev v d) := by
  unfold Machine.backgroundRunCompleteDev
  split
  · exact h
  · exact .ite h.runEnds.setIrq.calLast h

theorem StoresOk.sampleEndVoiceDev (h : StoresOk d) {v : Nat} : StoresOk (Machine.sampleEndVoiceDev v d) := by
  unfold Machine.sampleEndVoiceDev
  split
  · exact h
  · exact .ite h.toReleasing h

/-! ### Frame timer, guard and core supply -/

theorem StoresOk.slackRecord (h : StoresOk d) {c slack : Nat} : StoresOk (Machine.slackRecord c slack d) := h.putFld.putFld.upd rfl

theorem StoresOk.slackMinClearDev (h : StoresOk d) {c : Nat} {v : Word} : StoresOk (Machine.slackMinClearDev c v d) := .ite h.putFld h

theorem StoresOk.cleanEf (h : StoresOk d) : StoresOk (Machine.cleanEf d) := h.frame (by simp)

theorem StoresOk.countClean (h : StoresOk d) : StoresOk (Machine.countClean d) := h.frame (by simp)

theorem StoresOk.frameEnd (h : StoresOk d) : StoresOk (Machine.frameEnd d) := by
  have hs := h.putFld (a := Reg.GLB_SLACK_DEV) (hi := 5) (lo := 0) (v := (lowestSlack (efSlacks d)).1)
  have hw := hs.putFld (a := Reg.GLB_SLACK_DEV) (hi := 11) (lo := 8) (v := (lowestSlack (efSlacks d)).2)
  unfold Machine.frameEnd
  dsimp only
  split
  · exact hw.upd (by rfl)
  split
  · exact hw.cleanEf.upd (by rfl)
  · exact hw.upd (by rfl)

theorem StoresOk.windowEnd (h : StoresOk d) : StoresOk (Machine.windowEnd d) := .ite (h.putFld.upd (by rfl)) h

theorem StoresOk.modVid (h : StoresOk d) {f : Vid → Vid} : StoresOk (Machine.Dev.modVid d f) := h.upd rfl

theorem StoresOk.vidRequest (h : StoresOk d) {code : Nat} : StoresOk (Machine.vidRequest code d) := h.frame (by simp)

theorem StoresOk.vidLow (h : StoresOk d) : StoresOk (Machine.vidLow d) := .ite (h.logEv.upd (by rfl)) h

theorem StoresOk.vidWindowEndDev (h : StoresOk d) : StoresOk (Machine.vidWindowEndDev d) :=
  .ite h (.ite ((h.upd (by rfl)).modVid.modVid.vidLow.vidRequest) (.ite
    (.ite ((h.upd (by rfl)).modVid.modVid.vidRequest) ((h.upd (by rfl)).modVid.modVid)) ((h.upd (by rfl)).modVid.modVid)))

theorem StoresOk.vidWaitEnds (h : StoresOk d) : StoresOk (Machine.vidWaitEnds d) := h.frame (by simp)

theorem StoresOk.vidManual (h : StoresOk d) {was : Bool} {old : Nat} : StoresOk (Machine.vidManual was old d) := h.frame (by simp)

theorem StoresOk.vidMoved (h : StoresOk d) {old : Nat} : StoresOk (Machine.vidMoved old d) := h.frame (by simp)

theorem StoresOk.vidSettleTimeoutDev (h : StoresOk d) : StoresOk (Machine.vidSettleTimeoutDev d) :=
  .ite h (.ite h.modVid.logEv.vidWaitEnds ((StoresOk.ite h.modVid.logEv h.modVid.logEv.emit).modVid.logEv.setFault))

theorem StoresOk.vidLate (h : StoresOk d) : StoresOk (Machine.vidLate d) := h.frame (by simp)

theorem StoresOk.guardSteps (h : StoresOk d) {n : Nat} : StoresOk (Machine.guardSteps n d) := (h.upd (by rfl)).emit.logEv

theorem StoresOk.lateEf (h : StoresOk d) {set : List Nat} : StoresOk (Machine.lateEf set d) := by
  unfold Machine.lateEf
  exact .ite h (.ite (.ite (.ite ((h.upd (by rfl)).guardSteps.guardShed) (h.upd (by rfl))) (h.upd (by rfl))) (h.upd (by rfl)))

theorem StoresOk.lateLog (h : StoresOk d) {c : Nat} : StoresOk (Machine.lateLog c d) := .ite h.modClu.logEv h.modClu

theorem StoresOk.countLate (h : StoresOk d) {c : Nat} : StoresOk (Machine.countLate c d) := h.bump.bumpFld.emit.modClu.lateLog

theorem StoresOk.deadlineMissDev (h : StoresOk d) {c : Nat} : StoresOk (Machine.deadlineMissDev c d) :=
  .ite h h.modClu.putFld.putFld.countLate.lateEf.vidLate

theorem StoresOk.guardStepDownDev (h : StoresOk d) : StoresOk (Machine.guardStepDownDev d) := .ite ((h.upd (by rfl)).guardSteps) h

/-! ### Serial ports -/

theorem StoresOk.modSer (h : StoresOk d) {n : Nat} {f : SerPort → SerPort} : StoresOk (Machine.Dev.modSer d n f) := h.upd rfl

theorem StoresOk.modParser (h : StoresOk d) {n : Nat} {f : Parser → Parser} : StoresOk (Machine.Dev.modParser d n f) := h.upd rfl

theorem StoresOk.serIrq (h : StoresOk d) {n b : Nat} : StoresOk (Machine.serIrq n b d) := h.setIrq

theorem StoresOk.serErr (h : StoresOk d) {n hi lo : Nat} : StoresOk (Machine.serErr n hi lo d) := h.bumpFld

theorem StoresOk.freeBuf (h : StoresOk d) {b : Nat} : StoresOk (Machine.freeBuf b d) := h.upd rfl

theorem StoresOk.sysexAbort (h : StoresOk d) {n cause : Nat} : StoresOk (Machine.sysexAbort n cause d) := by
  unfold Machine.sysexAbort
  split
  · exact h
  · exact h.modParser.freeBuf.serIrq.bump.logEv

theorem StoresOk.parserReset (h : StoresOk d) {n : Nat} : StoresOk (Machine.parserReset n d) := h.sysexAbort.modParser

theorem StoresOk.txKick (h : StoresOk d) {n : Nat} : StoresOk (Machine.txKick n d) := h.frame (by simp)

theorem StoresOk.txReply (h : StoresOk d) {n : Nat} {bs : List Byte} : StoresOk (Machine.txReply n bs d) := h.frame (by simp)

theorem StoresOk.txPush (h : StoresOk d) {n : Nat} {b : Byte} : StoresOk (Machine.txPush n b d) := .ite h.serIrq h.modSer.txKick

theorem StoresOk.serTxWriteDev (h : StoresOk d) {n : Nat} {v : Word} : StoresOk (Machine.serTxWriteDev n v d) := .ite h.txPush h

theorem StoresOk.txBreakSet (h : StoresOk d) {n : Nat} {on : Bool} : StoresOk (Machine.txBreakSet n on d) := h.frame (by simp)

theorem StoresOk.serReject (h : StoresOk d) : StoresOk (Machine.serReject d) := h.putFlag.bump

theorem StoresOk.rxAbandon (h : StoresOk d) {n : Nat} : StoresOk (Machine.rxAbandon n d) := h.upd rfl

theorem StoresOk.serCtlWrite (h : StoresOk d) {n : Nat} {v : Word} : StoresOk (Machine.serCtlWrite n v d) :=
  .ite h (.ite h.serReject
    ((((h.putReg.when (·.modSer)).when (·.modSer)).whenNot (·.rxAbandon)).whenNot (·.parserReset)).txBreakSet.txKick)

theorem StoresOk.modeChangeDev (h : StoresOk d) {n : Nat} {v : Word} : StoresOk (Machine.modeChangeDev n v d) := .ite h h.serCtlWrite

theorem StoresOk.rxFlushDev (h : StoresOk d) {n : Nat} {v : Word} : StoresOk (Machine.rxFlushDev n v d) := .ite h.serCtlWrite h

theorem StoresOk.txFlushDev (h : StoresOk d) {n : Nat} {v : Word} : StoresOk (Machine.txFlushDev n v d) := .ite h.serCtlWrite h

theorem StoresOk.txBreakDev (h : StoresOk d) {n : Nat} {v : Word} : StoresOk (Machine.txBreakDev n v d) := .ite h.serCtlWrite h

theorem StoresOk.txBreakClearDev (h : StoresOk d) {n : Nat} {v : Word} : StoresOk (Machine.txBreakClearDev n v d) := .ite h h.serCtlWrite

theorem StoresOk.divWriteDev (h : StoresOk d) {n : Nat} {v : Word} : StoresOk (Machine.divWriteDev n v d) :=
  .ite h (.ite h.serReject h.putReg.rxAbandon)

theorem StoresOk.rxStore (h : StoresOk d) {n : Nat} {e : RxEntry} : StoresOk (Machine.rxStore n e d) := .ite h.serIrq.serErr h.modSer

theorem StoresOk.rtPulse (h : StoresOk d) {n : Nat} {b : Byte} : StoresOk (Machine.rtPulse n b d) := h.frame (by simp)

theorem StoresOk.thruCopies (h : StoresOk d) {n : Nat} {b : Byte} : StoresOk (Machine.thruCopies n b d) :=
  .forUpTo (fun _ _ h => .ite h.txPush h) _ h

theorem StoresOk.framingError (h : StoresOk d) {n : Nat} {b : Byte} {parity pe : Bool} : StoresOk (Machine.framingError n b parity pe d) :=
  .ite h.serIrq.serErr.modSer.parserReset h.serIrq.serErr.modSer.rxStore

theorem StoresOk.characterReceivedDev (h : StoresOk d) {n : Nat} {data : Byte} {parity stop : Bool} : StoresOk
    (Machine.characterReceivedDev n data parity stop d) :=
  .ite h (.ite ((StoresOk.ite h.modSer.bump.serIrq.serErr h.modSer.bump).framingError) ((StoresOk.ite h.modSer.bump.serIrq.serErr
    h.modSer.bump).modSer.rxStore.rtPulse.thruCopies))

theorem StoresOk.breakDev (h : StoresOk d) {n : Nat} : StoresOk (Machine.breakDev n d) :=
  .ite h (.ite h.modSer.serIrq.serErr.parserReset h.modSer.serIrq.serErr.rxStore)

theorem StoresOk.detArm (h : StoresOk d) {n : Nat} {armed : Bool} : StoresOk (Machine.detArm n armed d) := h.upd rfl

theorem StoresOk.lineDeadDev (h : StoresOk d) {n : Nat} : StoresOk (Machine.lineDeadDev n d) :=
  .ite h h.modSer.serIrq.parserReset.detArm.logEv

theorem StoresOk.serRxReadDev (h : StoresOk d) {n : Nat} : StoresOk (Machine.serRxReadDev n d) := h.frame (by simp)

theorem StoresOk.offerHeld (h : StoresOk d) {n : Nat} : StoresOk (Machine.offerHeld n d) := by
  unfold Machine.offerHeld
  split
  · exact h
  · exact .ite h (.ite h.modParser.admitTask (.ite h h.modParser.bump.putFlag.emit))

theorem StoresOk.earlierReleases (h : StoresOk d) {n : Nat} : StoresOk (Machine.earlierReleases n d) :=
  .ite (.forUpTo (fun _ _ h => h.offerHeld) _ h.releaseListed) h

theorem StoresOk.parserTask (h : StoresOk d) {n : Nat} {f : List Nat} : StoresOk (Machine.parserTask n f d) :=
  h.modParser.bump.earlierReleases.offerHeld

theorem StoresOk.parserIgnores (h : StoresOk d) {n : Nat} : StoresOk (Machine.parserIgnores n d) := h.bump

theorem StoresOk.parserData (h : StoresOk d) {n b : Nat} : StoresOk (Machine.parserData n b d) :=
  .ite h.modParser.parserIgnores (.ite h.parserIgnores (.ite h.modParser h.modParser.parserTask))

theorem StoresOk.sysexStart (h : StoresOk d) {n ef : Nat} : StoresOk (Machine.sysexStart n ef d) := by
  unfold Machine.sysexStart
  dsimp only
  split
  · exact .ite ((h.upd (by rfl)).mramRaw.modParser) h.modParser.modParser.bump.logEv
  · exact h.modParser.modParser.bump.logEv

theorem StoresOk.sysexOther (h : StoresOk d) {n buf : Nat} {ignore : Bool} : StoresOk (Machine.sysexOther n buf ignore d) :=
  h.modParser.freeBuf.bump

theorem StoresOk.sysexPut (h : StoresOk d) {buf k b : Nat} : StoresOk (Machine.sysexPut buf k b d) := .ite h.mramRaw h

theorem StoresOk.sysexData (h : StoresOk d) {n b ef : Nat} {x : SysEx} : StoresOk (Machine.sysexData n b ef x d) := by
  unfold Machine.sysexData
  dsimp only
  refine .ite h.sysexAbort ?_
  refine .ite h.sysexPut.modParser.modParser ?_
  split
  · exact h.sysexPut.modParser.modParser
  · exact h.sysexPut.modParser.modParser
  · exact h.sysexPut.modParser.sysexOther

theorem StoresOk.sysexEnd (h : StoresOk d) {n : Nat} {x : SysEx} : StoresOk (Machine.sysexEnd n x d) :=
  .ite h.sysexAbort.modParser (.ite h.sysexOther h.sysexPut.modParser.parserTask)

theorem StoresOk.parserStatus (h : StoresOk d) {n b ef : Nat} : StoresOk (Machine.parserStatus n b ef d) :=
  .ite h.modParser.modParser (.ite h.modParser.sysexStart (.ite h.modParser.modParser.parserIgnores
    (.ite h.modParser.modParser.parserIgnores (.ite (.ite h.modParser h.modParser.parserIgnores) h.modParser.modParser.parserIgnores))))

theorem StoresOk.parseByte (h : StoresOk d) {n b ef : Nat} : StoresOk (Machine.parseByte n b ef d) := by
  unfold Machine.parseByte
  refine .ite h ?_
  split
  · exact .ite h.sysexData (.ite h.sysexEnd h.sysexAbort.parserStatus)
  · exact .ite h.parserData h.parserStatus

theorem StoresOk.parserByteDev (h : StoresOk d) {n : Nat} : StoresOk (Machine.parserByteDev n d) := by
  unfold Machine.parserByteDev
  dsimp only
  split
  · exact h
  · exact .ite h.modSer.parseByte h

theorem StoresOk.sysexGapTimeoutDev (h : StoresOk d) {n : Nat} : StoresOk (Machine.sysexGapTimeoutDev n d) := by
  unfold Machine.sysexGapTimeoutDev
  split
  · exact .ite h.sysexAbort h
  · exact h

theorem StoresOk.serWake (h : StoresOk d) : StoresOk (Machine.serWake d) := h.upd rfl

/-! ### Tasks -/

theorem StoresOk.applyParts (h : StoresOk d) {pay : List Byte} {f : Nat → Dev → Dev} (hf : ∀ x e, StoresOk e → StoresOk (f x e)) :
    StoresOk (Machine.applyParts pay f d).1 :=
  .forEach (fun _ _ h => hf _ _ h) _ h.countNoPart

theorem StoresOk.midiCommit (h : StoresOk d) {i : Nat} {kind : Task → Bool} {f : List Byte → Nat → Dev → Dev}
    (hf : ∀ x0 x1 e, StoresOk e → StoresOk (f x0 x1 e)) : StoresOk (Machine.midiCommit i kind f d) :=
  h.commitWith (fun _ _ h => h.applyParts (hf _))

theorem StoresOk.perNote (h : StoresOk d) {p ch partOff noteOff : Nat} {bs : List Byte} : StoresOk (Machine.perNote p ch partOff noteOff bs
    d) :=
  .ite (.forEach (fun _ _ h => h.noteV) _ h) h.partV

theorem StoresOk.timerFireDev (h : StoresOk d) {i : Nat} : StoresOk (Machine.timerFireDev i d) := h.commitWith (fun _ _ h => h.emit)

theorem StoresOk.offDeferred (h : StoresOk d) {pay : List Byte} : StoresOk (Machine.offDeferred pay d) := h.upd rfl

theorem StoresOk.noteOffDev (h : StoresOk d) {i : Nat} : StoresOk (Machine.noteOffDev i d) :=
  h.commitWith (fun _ _ h => (h.applyParts (fun _ _ h => h.noteOffPart)).offDeferred)

theorem StoresOk.polyPart (h : StoresOk d) {pay : List Byte} {p : Nat} : StoresOk (Machine.polyPart pay p d) := by
  unfold Machine.polyPart
  split
  · exact .forEach (fun _ _ h => h.noteV) _ h
  · exact h

theorem StoresOk.polyPressureDev (h : StoresOk d) {i : Nat} : StoresOk (Machine.polyPressureDev i d) :=
  h.midiCommit (fun _ _ _ h => h.polyPart)

theorem StoresOk.ccStore (h : StoresOk d) {pay : List Byte} {p : Nat} : StoresOk (Machine.ccStore pay p d) := h.partV

theorem StoresOk.putPedals (h : StoresOk d) {p v : Nat} : StoresOk (Machine.putPedals p v d) := h.partV

theorem StoresOk.sustainTo (h : StoresOk d) {p : Nat} {down : Bool} : StoresOk (Machine.sustainTo p down d) :=
  .ite h (.ite h.putPedals (.forEach (fun _ _ h => h.letGo) _ h.putPedals))

theorem StoresOk.sostenutoTo (h : StoresOk d) {p : Nat} {down : Bool} : StoresOk (Machine.sostenutoTo p down d) :=
  .ite h (.ite (.forEach (fun _ _ h => h.setVoice) _ h.putPedals) (.forEach (fun _ _ h => .ite h.setVoice.letGo h.setVoice) _ h.putPedals))

theorem StoresOk.bankPart (h : StoresOk d) {pay : List Byte} {p : Nat} : StoresOk (Machine.bankPart pay p d) := h.ccStore.partV

theorem StoresOk.bankSelectDev (h : StoresOk d) {i : Nat} : StoresOk (Machine.bankSelectDev i d) := h.midiCommit (fun _ _ _ h => h.bankPart)

theorem StoresOk.sustainPart (h : StoresOk d) {pay : List Byte} {p : Nat} : StoresOk (Machine.sustainPart pay p d) :=
  .ite h.ccStore.sustainTo h.ccStore

theorem StoresOk.sustainDev (h : StoresOk d) {i : Nat} : StoresOk (Machine.sustainDev i d) := h.midiCommit (fun _ _ _ h => h.sustainPart)

theorem StoresOk.sostenutoPart (h : StoresOk d) {pay : List Byte} {p : Nat} : StoresOk (Machine.sostenutoPart pay p d) :=
  .ite h.ccStore.sostenutoTo h.ccStore

theorem StoresOk.sostenutoDev (h : StoresOk d) {i : Nat} : StoresOk (Machine.sostenutoDev i d) :=
  h.midiCommit (fun _ _ _ h => h.sostenutoPart)

theorem StoresOk.soundOffPart (h : StoresOk d) {pay : List Byte} {p : Nat} : StoresOk (Machine.soundOffPart pay p d) :=
  .forEach (fun _ _ h => .ite h.toQuench (.ite h.toStealing h)) _ h.ccStore

theorem StoresOk.allSoundOffDev (h : StoresOk d) {i : Nat} : StoresOk (Machine.allSoundOffDev i d) :=
  h.midiCommit (fun _ _ _ h => h.soundOffPart)

theorem StoresOk.resetPart (h : StoresOk d) {pay : List Byte} {p : Nat} : StoresOk (Machine.resetPart pay p d) :=
  (StoresOk.forEach (fun _ _ h => h.noteV) _ h.ccStore.partV.partV).sustainTo.sostenutoTo

theorem StoresOk.resetAllControllersDev (h : StoresOk d) {i : Nat} : StoresOk (Machine.resetAllControllersDev i d) :=
  h.midiCommit (fun _ _ _ h => h.resetPart)

theorem StoresOk.notesOffPart (h : StoresOk d) {pay : List Byte} {p : Nat} : StoresOk (Machine.notesOffPart pay p d) :=
  .forEach (fun _ _ h => h.offVoice) _ h.ccStore.modStack

theorem StoresOk.allNotesOffDev (h : StoresOk d) {i : Nat} : StoresOk (Machine.allNotesOffDev i d) :=
  h.midiCommit (fun _ _ _ h => h.notesOffPart)

theorem StoresOk.ccPart (h : StoresOk d) {pay : List Byte} {p : Nat} : StoresOk (Machine.ccPart pay p d) :=
  .ite (.forEach (fun _ _ h => h.noteV) _ h.ccStore) h.ccStore

theorem StoresOk.ccDev (h : StoresOk d) {i : Nat} : StoresOk (Machine.ccDev i d) := h.midiCommit (fun _ _ _ h => h.ccPart)

theorem StoresOk.programPart (h : StoresOk d) {pay : List Byte} {p : Nat} : StoresOk (Machine.programPart pay p d) := .ite h h.psV

theorem StoresOk.programDev (h : StoresOk d) {i : Nat} : StoresOk (Machine.programDev i d) := h.midiCommit (fun _ _ _ h => h.programPart)

theorem StoresOk.pitchBendDev (h : StoresOk d) {i : Nat} : StoresOk (Machine.pitchBendDev i d) := h.midiCommit (fun _ _ _ h => h.perNote)

theorem StoresOk.chanPressureDev (h : StoresOk d) {i : Nat} : StoresOk (Machine.chanPressureDev i d) :=
  h.midiCommit (fun _ _ _ h => h.perNote)

theorem StoresOk.maskWrite (h : StoresOk d) {off : Nat} {v m : Word} : StoresOk (Machine.maskWrite off v m d) :=
  .ite h (.ite h.rejectPart h.psV)

theorem StoresOk.paramSetCommit (h : StoresOk d) {t : Task} : StoresOk (Machine.paramSetCommit t d).1 :=
  .ite h.maskWrite.emitDir h.maskWrite

theorem StoresOk.paramSetDev (h : StoresOk d) {i : Nat} : StoresOk (Machine.paramSetDev i d) := h.commitWith (fun _ _ h => h.paramSetCommit)

theorem StoresOk.killVoice (h : StoresOk d) {v mode : Nat} : StoresOk (Machine.killVoice v mode d) :=
  .ite h.toQuench (.ite (.ite h.toStealing h.toQuench) (.ite h.toQuench h))

theorem StoresOk.staleHandle (h : StoresOk d) : StoresOk (Machine.staleHandle d) := h.bump.setIrq.emit

theorem StoresOk.voiceKillCommit (h : StoresOk d) {t : Task} : StoresOk (Machine.voiceKillCommit t d).1 := by
  unfold Machine.voiceKillCommit
  split
  · exact h.killVoice
  · exact h.staleHandle

theorem StoresOk.voiceKillDev (h : StoresOk d) {i : Nat} : StoresOk (Machine.voiceKillDev i d) :=
  h.commitWith (fun _ _ h => h.voiceKillCommit)

theorem StoresOk.mgmtFinish (h : StoresOk d) {i ty : Nat} {f : Task → Dev → Dev} (hf : ∀ x e, StoresOk e → StoresOk (f x e)) :
    StoresOk (Machine.mgmtFinish i ty f d) :=
  h.commitWith (fun _ _ h => hf _ _ h)

theorem StoresOk.landWord (h : StoresOk d) {w : HWrite} : StoresOk (Machine.landWord w d) :=
  .ite h.rejectPart (.ite ((StoresOk.ite (h.psRaw.upd (by rfl)) ((h.psRaw.upd (by rfl)).calHostWrite)).collide)
    (.ite (h.psRaw.upd (by rfl)) ((h.psRaw.upd (by rfl)).calHostWrite)))

theorem StoresOk.landDue (h : StoresOk d) : StoresOk (Machine.landDue d) := .forEach (fun _ _ h => h.landWord) _ (h.upd (by rfl))

theorem StoresOk.paramStoreLandingDev (h : StoresOk d) : StoresOk (Machine.paramStoreLandingDev d) := .ite h.landDue h

/-! ### The cascade -/

theorem StoresOk.resumeSeq (h : StoresOk d) {r : Nat} : StoresOk (Machine.resumeSeq r d) := h.frame (by simp)

theorem StoresOk.casIrq (h : StoresOk d) {n : Nat} : StoresOk (Machine.casIrq n d) := h.setIrq

theorem StoresOk.packetDrop (h : StoresOk d) {n : Nat} : StoresOk (Machine.packetDrop n d) := .ite h h.bumpBy.casIrq

theorem StoresOk.ownPacket (h : StoresOk d) {p : List Byte} : StoresOk (Machine.ownPacket p d) := .ite h.modCas h.packetDrop

theorem StoresOk.dropWorkers (h : StoresOk d) {q : Nat} : StoresOk (Machine.dropWorkers q d) := h.upd rfl

theorem StoresOk.leaveChain (h : StoresOk d) : StoresOk (Machine.leaveChain d) := by
  unfold Machine.leaveChain
  exact (StoresOk.forEach (fun _ _ h => .ite h.toQuench (.ite h.toStealing h)) _ h).packetDrop.modCas

theorem StoresOk.cfgError (h : StoresOk d) : StoresOk (Machine.cfgError d) := (StoresOk.ite h.leaveChain h).modCas.modMix.casIrq.logEv

theorem StoresOk.linkOn (h : StoresOk d) : StoresOk (Machine.linkOn d) := .ite h.modCas.cfgError h.modCas

theorem StoresOk.linkOff (h : StoresOk d) : StoresOk (Machine.linkOff d) := by
  unfold Machine.linkOff
  exact (StoresOk.ite ((StoresOk.ite h.leaveChain h).dropWorkers) (.ite h.leaveChain h)).modCas.modMix

theorem StoresOk.casCtlWrite (h : StoresOk d) {v : Word} : StoresOk (Machine.casCtlWrite v d) :=
  .ite h (.ite h.putReg (.ite h.putReg.linkOn h.putReg.linkOff))

theorem StoresOk.linkEnableDev (h : StoresOk d) {v : Word} : StoresOk (Machine.linkEnableDev v d) := .ite h.casCtlWrite h

theorem StoresOk.linkDisableDev (h : StoresOk d) {v : Word} : StoresOk (Machine.linkDisableDev v d) := .ite h.casCtlWrite h

theorem StoresOk.modPort (h : StoresOk d) {port : CasPort} {f : CasPortSt → CasPortSt} : StoresOk (Machine.Dev.modPort d port f) := h.frame
    (by simp)

theorem StoresOk.hopLost (h : StoresOk d) {port : CasPort} {cause : Nat} : StoresOk (Machine.hopLost port cause d) := by
  unfold Machine.hopLost
  split
  · exact h.bump.casIrq.logEv.modPort.leaveChain
  · exact h.bump.casIrq.logEv.modPort.packetDrop.modCas.modMix

theorem StoresOk.badSuperframe (h : StoresOk d) {port : CasPort} {cause : Nat} : StoresOk (Machine.badSuperframe port cause d) :=
  .ite h.bump.hopLost h.bump.modPort

theorem StoresOk.laneNoSignalDev (h : StoresOk d) {port : CasPort} {peerIdle : Bool} : StoresOk (Machine.laneNoSignalDev port peerIdle d) :=
  .ite h (.ite h.hopLost h.modPort)

theorem StoresOk.goodSuperframe (h : StoresOk d) {port : CasPort} : StoresOk (Machine.goodSuperframe port d) :=
  .ite h.emit (.ite h.emit.modPort h.emit.modPort.casIrq.logEv)

theorem StoresOk.adoptTiming (h : StoresOk d) {k : Nat} : StoresOk (Machine.adoptTiming k d) := by
  unfold Machine.adoptTiming
  exact .ite ((h.upd (by rfl)).parkOutputs.resumeSeq.logEv) (h.upd (by rfl))

theorem StoresOk.outboundSuperframeDev (h : StoresOk d) {bytes : List Byte} {codeOk : Bool} {hopLag : Nat} : StoresOk
    (Machine.outboundSuperframeDev bytes codeOk hopLag d) :=
  .ite h (.ite h.badSuperframe (.ite h.cfgError ((StoresOk.ite h.modCas h.modCas.adoptTiming).goodSuperframe.modCas)))

theorem StoresOk.dirTaken (h : StoresOk d) {i : Nat} : StoresOk (Machine.dirTaken i d) := h.upd rfl

theorem StoresOk.dirIgnored (h : StoresOk d) : StoresOk (Machine.dirIgnored d) := h.bump

theorem StoresOk.dirHandle (h : StoresOk d) {i kind : Nat} {f : Nat → List Byte → Dev → Dev}
    (hf : ∀ x0 x1 e, StoresOk e → StoresOk (f x0 x1 e)) : StoresOk (Machine.dirHandle i kind f d) := by
  unfold Machine.dirHandle
  dsimp only
  split
  · exact h
  · split
    · exact .ite (hf _ _ _ h.dirTaken) h.dirTaken.dirIgnored
    · exact h.dirTaken.dirIgnored

theorem StoresOk.directiveArmDev (h : StoresOk d) {i : Nat} : StoresOk (Machine.directiveArmDev i d) :=
  h.dirHandle (fun _ _ _ h => h.armOwn)

theorem StoresOk.cutPool (h : StoresOk d) {v : Nat} : StoresOk (Machine.cutPool v d) := h.setVoice.clusterQuench

theorem StoresOk.stateAction (h : StoresOk d) {a fade v : Nat} : StoresOk (Machine.stateAction a fade v d) :=
  .ite (.ite h.setVoice (.ite h.toReleasing h)) (.ite (.ite h.toQuench (.ite h.toStealing h)) (.ite h.toQuench (.ite h.cutPool h)))

theorem StoresOk.directiveStateDev (h : StoresOk d) {i : Nat} : StoresOk (Machine.directiveStateDev i d) :=
  h.dirHandle (fun _ _ _ h => .ite h.dirIgnored h.stateAction)

theorem StoresOk.directiveRetrigDev (h : StoresOk d) {i : Nat} : StoresOk (Machine.directiveRetrigDev i d) :=
  h.dirHandle (fun _ _ _ h => .ite h.dirIgnored h.modVoice.reuseVoice)

theorem StoresOk.dirPos (h : StoresOk d) {i kind : Nat} {f : List Byte → Dev → Dev} (hf : ∀ x e, StoresOk e → StoresOk (f x e)) :
    StoresOk (Machine.dirPos i kind f d) := by
  unfold Machine.dirPos
  split
  · exact h
  · exact .ite (hf _ _ h.dirTaken) h.dirTaken.dirIgnored

theorem StoresOk.directiveWriteDev (h : StoresOk d) {i : Nat} : StoresOk (Machine.directiveWriteDev i d) :=
  h.dirPos (fun _ _ h => .ite h.maskWrite h)

theorem StoresOk.directiveGlfoDev (h : StoresOk d) {i : Nat} : StoresOk (Machine.directiveGlfoDev i d) :=
  h.dirPos (fun _ _ h => h.glfoRestartAt)

theorem StoresOk.glfoRestartDev (h : StoresOk d) {v : Word} : StoresOk (Machine.glfoRestartDev v d) := h.frame (by simp)

theorem StoresOk.remoteFreed (hd : StoresOk d) {q h : Nat} : StoresOk (Machine.remoteFreed q h d) := .ite hd.modVoice hd

theorem StoresOk.takeStatus (h : StoresOk d) {q : Nat} {st : List Byte} : StoresOk (Machine.takeStatus q st d) :=
  .ite (.ite h.modCas h) (.foldl (fun _ _ h => h.remoteFreed) _ ((StoresOk.ite h.logEv h).modCas))

theorem StoresOk.takeStatuses (h : StoresOk d) {b : List Byte} : StoresOk (Machine.takeStatuses b d) :=
  .foldl (fun _ _ h => .ite h.takeStatus h.takeStatus) _ h

theorem StoresOk.inboundSuperframeDev (h : StoresOk d) {bytes : List Byte} {codeOk : Bool} : StoresOk (Machine.inboundSuperframeDev bytes
    codeOk d) :=
  .ite h (.ite h.badSuperframe (.ite ((StoresOk.ite h.goodSuperframe.modCas.modMix h.goodSuperframe.modCas).modCas.takeStatuses)
    ((StoresOk.ite h.goodSuperframe.modCas.modMix h.goodSuperframe.modCas).modCas)))

theorem StoresOk.landOne (h : StoresOk d) : StoresOk (Machine.landOne d).1 := by
  unfold Machine.landOne
  split
  · exact h
  · simp only [apply_ite Prod.fst]
    exact .ite h.modCas.admitTask h

theorem StoresOk.landTasks (h : StoresOk d) {a : Nat} : StoresOk (Machine.landTasks a d) := by
  induction a generalizing d with
  | zero => exact h
  | succ n ih =>
    unfold Machine.landTasks
    exact .ite (ih h.landOne) h.landOne

theorem StoresOk.taskPacketDev (h : StoresOk d) : StoresOk (Machine.taskPacketDev d) := by
  unfold Machine.taskPacketDev
  split
  · exact h
  cases hp : Machine.takePacket d 1 with
  | none => exact h
  | some z => exact .ite (h.takePacket hp).packetDrop (h.takePacket hp).modCas.earlierReleases.landTasks

theorem StoresOk.commitNext (h : StoresOk d) : StoresOk (Machine.commitNext d) := by
  unfold Machine.commitNext
  split
  · exact h
  · exact .ite h.noteOnDev (.ite h.noteOffDev (.ite h.polyPressureDev (.ite h.programDev (.ite h.pitchBendDev (.ite h.chanPressureDev
    (.ite h.paramSetDev (.ite h.voiceKillDev (.ite h.timerFireDev (.ite h.finishTask (.ite h.bankSelectDev (.ite h.sustainDev
      (.ite h.sostenutoDev (.ite h.allSoundOffDev (.ite h.resetAllControllersDev (.ite h.allNotesOffDev h.ccDev)))))))))))))))

theorem StoresOk.commitAll (h : StoresOk d) : StoresOk (Machine.commitAll d) :=
  .ite (.foldl (fun _ _ h => h.commitNext) _ h.deferredFirst) h

theorem StoresOk.remoteRelease (h : StoresOk d) : StoresOk (Machine.remoteRelease d) :=
  .ite h.poolUpdate (.forUpTo (fun _ _ h => .ite h.offerShed h) _ ((StoresOk.forEach (fun _ _ h => h.firstSampleDev) _ h).poolUpdate))

theorem StoresOk.voicesDue (h : StoresOk d) : StoresOk (Machine.voicesDue d) :=
  .forUpTo (fun _ _ h => h.firstSampleDev.stealFadeEndDev.quenchEndDev) _ h

theorem StoresOk.foresee (h : StoresOk d) {base : Nat} : StoresOk (Machine.foresee base d) :=
  (h.upd (by rfl)).headLatch.remoteRelease.voicesDue.commitAll

theorem StoresOk.grantRelease (h : StoresOk d) : StoresOk (Machine.grantRelease d) := h.frame (by simp)

theorem StoresOk.positionsLeave (h : StoresOk d) : StoresOk (Machine.positionsLeave d) := by
  unfold Machine.positionsLeave
  split
  · exact .ite h.dropWorkers.logEv h
  · exact h

theorem StoresOk.masterRelease (h : StoresOk d) : StoresOk (Machine.masterRelease d) :=
  .ite (.ite h.grantRelease.bump h.grantRelease) ((StoresOk.ite h.grantRelease.bump h.grantRelease).modCas)

theorem StoresOk.workerRelease (h : StoresOk d) : StoresOk (Machine.workerRelease d) := h.frame (by simp)

theorem StoresOk.casWeight (h : StoresOk d) : StoresOk (Machine.casWeight d) := h.upd rfl

theorem StoresOk.dirRelease (h : StoresOk d) : StoresOk (Machine.dirRelease d) := h.upd rfl

theorem StoresOk.casRelease (h : StoresOk d) : StoresOk (Machine.casRelease d) :=
  .ite h.casWeight (.ite h.casWeight.masterRelease h.casWeight.workerRelease)

/-! ### The event log -/

theorem StoresOk.logStore (h : StoresOk d) {e : LogEv} : StoresOk (Machine.logStore e d) :=
  .ite ((StoresOk.ite ((h.mramRaw.upd (by rfl)).mgtIrq) (h.mramRaw.upd (by rfl))).ownPacket)
    (.ite ((h.mramRaw.upd (by rfl)).mgtIrq) (h.mramRaw.upd (by rfl)))

theorem StoresOk.logFirst (h : StoresOk d) : StoresOk (Machine.logFirst d) := by
  have hw : StoresOk (if d.mgt.wdogLog then Machine.logStore (mgmtEv d 0x01 2 []) { d with mgt := { d.mgt with wdogLog := false } } else d)
    :=
    .ite (StoresOk.logStore (h.upd (by rfl))) h
  unfold Machine.logFirst
  exact .ite (StoresOk.logStore (hw.upd (by rfl))) hw

theorem StoresOk.fwPut (h : StoresOk d) {e : LogEv} : StoresOk (Machine.fwPut e d) := by
  unfold Machine.fwPut
  exact .ite (h.upd (by rfl)) h.logFirst.logStore

theorem StoresOk.fwLog (h : StoresOk d) {source code sev : Nat} {data : List Byte} : StoresOk (Machine.fwLog source code sev data d) :=
  .ite h.fwPut h.logEv

theorem StoresOk.userDev (h : StoresOk d) {i : Nat} : StoresOk (Machine.userDev i d) := h.mgmtFinish (fun _ _ h => h.fwLog)

theorem StoresOk.logPacketDev (h : StoresOk d) : StoresOk (Machine.logPacketDev d) := by
  unfold Machine.logPacketDev
  split
  · exact h
  cases hp : Machine.takePacket d 2 with
  | none => exact h
  | some z => exact (h.takePacket hp).fwPut

/-! ### TDM -/

theorem StoresOk.modTdm (h : StoresOk d) {n : Nat} {f : TdmPort → TdmPort} : StoresOk (Machine.Dev.modTdm d n f) := h.upd rfl

theorem StoresOk.decRelease (h : StoresOk d) : StoresOk (Machine.decRelease d) := .ite (h.upd (by rfl)) ((h.upd (by rfl)).bumpBy.raiseIrq)

theorem StoresOk.tdmRelease (h : StoresOk d) : StoresOk (Machine.tdmRelease d) :=
  .ite ((StoresOk.forUpTo (fun _ _ h => h.modTdm) _ h).decRelease) h

theorem StoresOk.tdmCtlWrite (h : StoresOk d) {n : Nat} {v : Word} : StoresOk (Machine.tdmCtlWrite n v d) := .ite h.mixPut h

theorem StoresOk.tdmPortEnableDev (h : StoresOk d) {n : Nat} {v : Word} : StoresOk (Machine.tdmPortEnableDev n v d) := .ite h.tdmCtlWrite h

theorem StoresOk.tdmPortDisableDev (h : StoresOk d) {n : Nat} {v : Word} : StoresOk (Machine.tdmPortDisableDev n v d) :=
  .ite h.tdmCtlWrite h

theorem StoresOk.extMissing (h : StoresOk d) {n : Nat} : StoresOk (Machine.extMissing n d) := .forUpTo (fun _ _ h => .ite h.armFault h) _ h

theorem StoresOk.tdmiFrameDev (h : StoresOk d) {n : Nat} {slots : List Word} : StoresOk (Machine.tdmiFrameDev n slots d) :=
  .ite h h.modTdm.extMissing

theorem StoresOk.dropLock (h : StoresOk d) {n cnt irq code : Nat} {loss : Bool} : StoresOk (Machine.dropLock n cnt irq code loss d) :=
  .ite h h.modTdm.raiseIrq.bump.emit.logEv

theorem StoresOk.tdmSlipDev (h : StoresOk d) {n : Nat} : StoresOk (Machine.tdmSlipDev n d) := h.dropLock

theorem StoresOk.tdmLossDev (h : StoresOk d) {n : Nat} : StoresOk (Machine.tdmLossDev n d) := h.dropLock

theorem StoresOk.mgtFaultClearDev (h : StoresOk d) {v : Word} : StoresOk (Machine.mgtFaultClearDev v d) :=
  .foldl (fun _ _ h => .ite h.putFlag h) _ h

/-! ### Units that stop and start -/

theorem StoresOk.onRequest (h : StoresOk d) {n : Nat} : StoresOk (Machine.onRequest n d) := by
  unfold Machine.onRequest
  refine .ite h (.ite h.calAbortAll ?_)
  split
  · exact h.calAbortAll
  · exact h

theorem StoresOk.onAck (h : StoresOk d) {n : Nat} : StoresOk (Machine.onAck n d) := h.frame (by simp)

theorem StoresOk.dropRegs (h : StoresOk d) {n : Nat} : StoresOk (Machine.dropRegs n d) := by
  have h1 : StoresOk { d with regs := d.regs.filter (fun e => blockDom e.1 != n || groupRegs.contains e.1 || e.1 == Reg.OUT_FAULT) } :=
    ⟨cellsWf_filter _ _ _ h.regs, h.pstore, h.mram, h.outwave, h.wave⟩
  unfold Machine.dropRegs
  dsimp only
  split
  · exact (StoresOk.forEach (fun _ _ h => h.putReg) _ h1.modMix).modMix
  · exact h1.modMix

theorem StoresOk.restoreOne (h : StoresOk d) {e : Nat × Word} : StoresOk (Machine.restoreOne e d) := .ite h.putReg.modMix h.putReg

theorem StoresOk.arraysLost (h : StoresOk d) {n : Nat} : StoresOk (Machine.arraysLost n d) := by
  unfold Machine.arraysLost
  split
  · exact ⟨h.regs, h.pstore, rfl, h.outwave, h.wave⟩
  split
  · exact ⟨h.regs, rfl, h.mram, h.outwave, h.wave⟩
  split
  · exact ⟨h.regs, h.pstore, h.mram, h.outwave, rfl⟩
  split
  · exact ⟨h.regs, h.pstore, h.mram, cellsWf_cellsDrop _ _ _ _ h.outwave, h.wave⟩
  · exact h.frame (by simp)
  · exact h

theorem StoresOk.cluStop (h : StoresOk d) {c : Nat} : StoresOk (Machine.cluStop c d) := h.frame (by simp)

theorem StoresOk.mgmtStop (h : StoresOk d) : StoresOk (Machine.mgmtStop d) := by
  unfold Machine.mgmtStop
  exact .ite ((h.patrolReturn.upd (by rfl)).emit) (h.patrolReturn.upd (by rfl))

theorem StoresOk.ctrlStop (h : StoresOk d) : StoresOk (Machine.ctrlStop d) := h.upd rfl

theorem StoresOk.unitStop (h : StoresOk d) {n : Nat} : StoresOk (Machine.unitStop n d) := by
  unfold Machine.unitStop
  dsimp only
  refine .ite h.mgmtStop ?_
  refine .ite (h.upd (by rfl)) ?_
  refine .ite h.serWake ?_
  refine .ite h.ctrlStop ?_
  refine .ite (h.upd (by rfl)) ?_
  refine .ite (h.upd (by rfl)) ?_
  refine .ite (h.upd (by rfl)) ?_
  refine .ite h.modCas ?_
  refine .ite h.modCal ?_
  split
  · exact h.outWake
  · exact h.cluStop
  · exact h

theorem StoresOk.leaveOn (h : StoresOk d) {n : Nat} {t : DomState} : StoresOk (Machine.leaveOn n t d) :=
  .ite ((h.unitStop.dropRegs.upd (by rfl)).arraysLost) (h.unitStop.dropRegs.upd (by rfl))

theorem StoresOk.unitWake (h : StoresOk d) {n : Nat} {cold : Bool} : StoresOk (Machine.unitWake n cold d) := by
  have hr : StoresOk (Machine.forEach (d.dom n).saved Machine.restoreOne (if (d.dom n).everOn then Machine.dropRegs n d else d)) :=
    .forEach (fun _ _ h => h.restoreOne) _ (h.when (·.dropRegs))
  unfold Machine.unitWake
  exact .ite hr.mixWake (.ite (hr.upd (by rfl)) (.ite hr.chrWake (.ite (hr.upd (by rfl)) (.ite hr.modClu hr))))

/-! ### Power -/

theorem StoresOk.modDom (h : StoresOk d) {n : Nat} {f : Domain → Domain} : StoresOk (Machine.Dev.modDom d n f) := h.upd rfl

theorem StoresOk.aonWakeEnds (h : StoresOk d) : StoresOk (Machine.aonWakeEnds d) := h.upd rfl

theorem StoresOk.closeBatches (h : StoresOk d) : StoresOk (Machine.closeBatches d) :=
  .ite h.arbEnds.aonWakeEnds (h.arbEnds.aonWakeEnds.putFlag.upd (by rfl))

theorem StoresOk.settle (h : StoresOk d) {n result reason : Nat} : StoresOk (Machine.settle n result reason d) := by
  unfold Machine.settle
  exact .ite ((h.upd (by rfl)).modBoot) (.ite ((h.upd (by rfl)).modBoot.putFlag.bootWarn) ((h.upd (by rfl)).modBoot.putFlag))

theorem StoresOk.makeReady (h : StoresOk d) {n : Nat} : StoresOk (Machine.makeReady n d) := h.upd rfl

theorem StoresOk.wakeOne (h : StoresOk d) {b n : Nat} : StoresOk (Machine.wakeOne b n d) := by
  unfold Machine.wakeOne
  dsimp only
  split
  · exact h
  · exact h
  · exact h.modDom
  · exact h.settle
  · exact h.settle
  · exact .ite h.settle h.modDom.makeReady

theorem StoresOk.requestWake (h : StoresOk d) {b n : Nat} : StoresOk (Machine.requestWake b n d) :=
  (StoresOk.forEach (fun _ _ h => h.wakeOne) _ h).wakeOne

theorem StoresOk.cancelled (h : StoresOk d) {n : Nat} : StoresOk (Machine.cancelled n d) := h.upd rfl

theorem StoresOk.requestEntry (h : StoresOk d) {b n : Nat} {target : DomState} : StoresOk (Machine.requestEntry b n target d) := by
  have hw := h.when (c := (d.dom n).wakes = true) (·.settle (n := n) (result := 3) (reason := 0))
  unfold Machine.requestEntry
  refine .ite hw.settle ?_
  split
  · exact hw
  · exact hw.modDom
  refine .ite hw.settle ?_
  split
  · exact hw.modDom
  · exact hw.modDom.arraysLost.settle
  · exact hw.settle
  · exact .ite hw.modDom.settle hw.settle

theorem StoresOk.newBatch (h : StoresOk d) : StoresOk (Machine.newBatch d) := h.upd rfl

theorem StoresOk.checkEntry (h : StoresOk d) {n : Nat} : StoresOk (Machine.checkEntry n d) := by
  unfold Machine.checkEntry
  split
  · exact .ite h.settle h
  · exact h

theorem StoresOk.controllerPass (h : StoresOk d) : StoresOk (Machine.controllerPass d) :=
  (StoresOk.forEach (fun _ _ h => h.checkEntry) _ h).closeBatches

theorem StoresOk.issueBatch (h : StoresOk d) {mask : List Nat} {target : DomState} : StoresOk (Machine.issueBatch mask target d) :=
  (StoresOk.ite (.forEach (fun _ _ h => h.requestWake) _ h.newBatch) (.forEach (fun _ _ h => .ite h.cancelled h.requestEntry) _
    h.newBatch)).controllerPass

theorem StoresOk.wakeBatch (h : StoresOk d) {mask : List Nat} : StoresOk (Machine.wakeBatch mask d) := by
  have hi : StoresOk (Machine.issueBatch mask .on d) := h.issueBatch
  unfold Machine.wakeBatch
  generalize Machine.issueBatch _ _ _ = e at hi ⊢
  exact hi.upd (by rfl)

theorem StoresOk.powerBatchDev (h : StoresOk d) {v : Word} : StoresOk (Machine.powerBatchDev v d) := by
  unfold Machine.powerBatchDev
  dsimp only
  refine .ite ?_ ?_
  · split
    · exact h.putFld.issueBatch
    · exact h.putFld
  · exact h.putFld

theorem StoresOk.aonWakeDev (h : StoresOk d) {v : Word} : StoresOk (Machine.aonWakeDev v d) := .ite ((h.upd (by rfl)).wakeBatch) h

theorem StoresOk.agentAnswerDev (h : StoresOk d) {n : Nat} : StoresOk (Machine.agentAnswerDev n d) := by
  unfold Machine.agentAnswerDev
  dsimp only
  split
  · exact h.arbEnds
  · exact .ite h.arbEnds (.ite h.arbEnds.settle.controllerPass
    (.ite ((StoresOk.ite h.arbEnds.onRequest h.arbEnds).settle.controllerPass)
      (.ite ((StoresOk.ite h.arbEnds.onRequest h.arbEnds).modDom) ((StoresOk.ite h.arbEnds.onRequest h.arbEnds).modDom.onAck.makeReady))))

theorem StoresOk.agentDelayTimeoutDev (h : StoresOk d) {n : Nat} : StoresOk (Machine.agentDelayTimeoutDev n d) := by
  unfold Machine.agentDelayTimeoutDev
  split
  · exact h.settle.controllerPass
  · exact h

theorem StoresOk.powerNoAnswerDev (h : StoresOk d) {n : Nat} : StoresOk (Machine.powerNoAnswerDev n d) := by
  unfold Machine.powerNoAnswerDev
  split
  · exact h.settle.controllerPass
  · exact h

theorem StoresOk.domainEntryDev (h : StoresOk d) {n : Nat} : StoresOk (Machine.domainEntryDev n d) := by
  unfold Machine.domainEntryDev
  split
  · refine .ite h ?_
    dsimp only
    split
    · exact h.leaveOn.modDom.settle.wakeOne.controllerPass
    · exact h.leaveOn.modDom.settle.requestEntry.controllerPass
    · exact h.leaveOn.modDom.settle.controllerPass
  · exact h

theorem StoresOk.dropDependents (h : StoresOk d) {n : Nat} : StoresOk (Machine.dropDependents n d) := h.frame (by simp)

theorem StoresOk.wakeStepTimeoutDev (h : StoresOk d) {n step : Nat} : StoresOk (Machine.wakeStepTimeoutDev n step d) :=
  .ite h (.ite ((h.arraysLost.upd (by rfl)).modDom.logEv) ((h.arraysLost.upd (by
    rfl)).modDom.logEv.modDom.logEv.setFault.putFlag.dropDependents.closeBatches))

theorem StoresOk.releasePads (h : StoresOk d) {n : Nat} : StoresOk (Machine.releasePads n d) := h.frame (by simp)

theorem StoresOk.padReleaseDev (h : StoresOk d) {v : Word} : StoresOk (Machine.padReleaseDev v d) := h.frame (by simp)

theorem StoresOk.wakeSourceDev (h : StoresOk d) {s : Nat} : StoresOk (Machine.wakeSourceDev s d) :=
  .ite h (.ite ((h.upd (by rfl)).putReg.putFlag.wakeBatch) (h.upd (by rfl)))

theorem StoresOk.biasUpdate (h : StoresOk d) : StoresOk (Machine.biasUpdate d) := h.upd rfl

/-! ### Arbitration -/

theorem StoresOk.roundReleases (h : StoresOk d) : StoresOk (Machine.roundReleases d) := .ite h.earlierReleases.landTasks h

theorem StoresOk.arbitrate (h : StoresOk d) {offer cancel : Dev → Dev} (hoffer : ∀ e, StoresOk e → StoresOk (offer e))
    (hcancel : ∀ e, StoresOk e → StoresOk (cancel e)) : StoresOk (Machine.arbitrate offer cancel d) := by
  have hs : StoresOk (Machine.slotFill (cancel (offer (Machine.roundReleases d)))) := (hcancel _ (hoffer _ h.roundReleases)).slotFill
  unfold Machine.arbitrate
  generalize Machine.slotFill _ = e at hs ⊢
  exact hs.upd (by rfl)

theorem StoresOk.almArbitrationRoundDev (h : StoresOk d) : StoresOk (Machine.almArbitrationRoundDev d) :=
  .ite (h.arbitrate (fun _ h => h) (fun _ h => h)) h

theorem StoresOk.hostCancelDev (h : StoresOk d) {v : Word} : StoresOk (Machine.hostCancelDev v d) :=
  .ite (h.arbitrate (fun _ h => h) (fun _ h => h.cancelApply)) h

theorem StoresOk.flushDev (h : StoresOk d) {v : Word} : StoresOk (Machine.flushDev v d) :=
  .ite (.ite ((StoresOk.ite h.putFlag h).arbitrate (fun _ h => h) (fun _ h => h.cancelApply)) (.ite h.putFlag h)) h

theorem StoresOk.hostPostRow (h : StoresOk d) {v : Word} : StoresOk (Machine.hostPostRow v d) := by
  unfold Machine.hostPostRow
  dsimp only
  split
  · exact h
  split
  · cases hf : Machine.forwardTask (stagedBytes d) d with
    | none => exact (h.bump.putFlag.upd (by rfl)).postRes
    | some e => exact (h.forwardTask hf).postRes
  · exact h.arbitrate (fun _ h => h.hostPostDev) (fun _ h => h)

theorem StoresOk.mgmtPostRow (h : StoresOk d) {image : List Word} : StoresOk (Machine.mgmtPostRow image d) := by
  unfold Machine.mgmtPostRow
  dsimp only
  refine .ite h (.ite ?_ (h.arbitrate (fun _ h => h.mgmtPostDev) (fun _ h => h)))
  cases hf : Machine.forwardTask (image.flatMap (fun w => leBytes 4 w.toNat)) d with
  | none => exact h
  | some e => exact h.forwardTask hf

/-! ### The EF release -/

theorem StoresOk.lateState (h : StoresOk d) {c : Nat} : StoresOk (Machine.lateState c d) :=
  .ite h (.ite (.forUpTo (fun _ _ h => h.voiceState.skimOut) _ h) h.clusterFrame)

theorem StoresOk.tileRelease (h : StoresOk d) {v n : Nat} : StoresOk (Machine.tileRelease v n d) :=
  h.cellRun.skimRelease.dacLatch.cellCodes.calRelease

theorem StoresOk.peakRoll (h : StoresOk d) {v : Nat} : StoresOk (Machine.peakRoll v d) := h.upd rfl

theorem StoresOk.cluRelease (h : StoresOk d) {c n : Nat} : StoresOk (Machine.cluRelease c n d) :=
  .ite h.modClu (.forEach (fun _ _ h => .ite ((StoresOk.ite h.tileRelease h.modTile).peakRoll) (.ite h.tileRelease h.modTile)) _
    (.ite h.modClu.fadeStep h.modClu))

theorem StoresOk.takeRecords (h : StoresOk d) {c : Nat} : StoresOk (Machine.takeRecords c d) :=
  .ite (.forEach (fun _ _ h => h.modTile) _ h) h

theorem StoresOk.audioLatch (h : StoresOk d) : StoresOk (Machine.audioLatch d) := h.frame (by simp)

theorem StoresOk.parlourRelease (h : StoresOk d) : StoresOk (Machine.parlourRelease d) :=
  (h.positionsLeave.dirRelease.headLatch.remoteRelease.chooseRelease.calAgainFree.upd (by rfl)).lanesRelease.countDefer

theorem StoresOk.mixSide (h : StoresOk d) {old : Nat → Word} : StoresOk (Machine.mixSide old d) :=
  .ite ((h.upd (by rfl)).modMix) ((StoresOk.ite ((h.upd (by rfl)).modMix.mixRelease) ((h.upd (by rfl)).modMix)).tdmRelease.outsRelease)

theorem StoresOk.landEnd (h : StoresOk d) : StoresOk (Machine.landEnd d) := h.landDue.upd rfl

theorem StoresOk.efReleaseDev (h : StoresOk d) : StoresOk (Machine.efReleaseDev d) := by
  have hl : StoresOk (Machine.forUpTo 16 Machine.lateState (Machine.forUpTo 32 Machine.outSense
      (Machine.landEnd (Machine.edgeRelease (Machine.frameEnd (Machine.arbitrate id id d.arbEnds)))))) :=
    .forUpTo (fun _ _ h => h.lateState) _ (.forUpTo (fun _ _ h => h.outSense) _
      (h.arbEnds.arbitrate (fun _ h => h) (fun _ h => h)).frameEnd.edgeRelease.landEnd)
  unfold Machine.efReleaseDev
  dsimp only
  generalize Machine.forUpTo 16 Machine.lateState _ = e at hl ⊢
  exact .ite h (.forUpTo (fun _ _ h => h.takeRecords.cluRelease) _ ((StoresOk.windowEnd (hl.upd (by rfl))).audioLatch.modMix.emit.when
    (·.emit)).effRelease.almRelease.chrRelease.parlourRelease.mixSide.casRelease)

theorem StoresOk.clusterFrameDeliveredDev (h : StoresOk d) {c slack : Nat} : StoresOk (Machine.clusterFrameDeliveredDev c slack d) := by
  unfold Machine.clusterFrameDeliveredDev
  dsimp only
  refine .ite h ?_
  split
  · exact h
  · exact .ite h.modClu (.ite h h.modClu.slackRecord.clusterFrame.countClean)

theorem StoresOk.clusterFlushDev (h : StoresOk d) {c : Nat} : StoresOk (Machine.clusterFlushDev c d) :=
  .ite h h.deadlineMissDev.resetAt.modClu.logEv

theorem StoresOk.refLostDev (h : StoresOk d) : StoresOk (Machine.refLostDev d) :=
  .ite h (.ite (h.upd (by rfl)) ((h.upd (by rfl)).putFlag.bumpFld.parkOutputs.calAbortAll.syncAccepting.logEv.setFault))

theorem StoresOk.refValidDev (h : StoresOk d) : StoresOk (Machine.refValidDev d) :=
  .ite h (.ite ((h.upd (by rfl)).edgeResume.resumeSeq.syncAccepting) (.ite (h.upd (by rfl)) h))

theorem StoresOk.engineSet (h : StoresOk d) {on : Bool} : StoresOk (Machine.engineSet on d) :=
  (StoresOk.ite ((StoresOk.ite ((StoresOk.ite h.putFlag.parkOutputs h.putFlag).resumeSeq)
    (.ite h.putFlag.parkOutputs h.putFlag)).setStage) (.ite ((StoresOk.ite h.putFlag.parkOutputs h.putFlag).resumeSeq)
      (.ite h.putFlag.parkOutputs h.putFlag))).syncAccepting

theorem StoresOk.frameCtlWrite (h : StoresOk d) {lock : Bool} {v : Word} : StoresOk (Machine.frameCtlWrite lock v d) :=
  (StoresOk.ite h.lockViol h.lockViol.putFlag).engineSet

/-! ### Reads -/

theorem StoresOk.readEffect (h : StoresOk d) {a : Nat} : StoresOk (Machine.readEffect a d) := by
  unfold Machine.readEffect
  refine .ite h (.ite h.winPop (.ite h.almDoneReadDev (.ite h.serRxReadDev (.ite h.chrCapReadDev (.ite h.modMix (.ite h.putFlag ?_))))))
  split
  · exact .ite h h.putReg
  · exact h

/-! ### Reset -/

theorem StoresOk.resetDev (h : StoresOk d) {c : Cause} {marker : Option (Nat × Nat × Nat)} : StoresOk (Machine.resetDev c marker d) := by
  have hr (f : Nat) (g : Mgmt) (w : Nat) (v : Word) : StoresOk (Machine.Dev.putReg { Dev.reset with
      fresh := f, mem := { Mems.reset with waveLoss := w }, mgt := g } Reg.GLB_RESET_CAUSE v) :=
    ⟨cellsWf_cellSet _ _ _ _ rfl, rfl, rfl, rfl, rfl⟩
  unfold Machine.resetDev
  dsimp only
  split
  · exact (hr _ _ _ _).bootErr
  · exact hr _ _ _ _

theorem StoresOk.strapLatchDev (h : StoresOk d) {casPos : BitVec 3} {xtalSel : Bool} {bootSrc : BitVec 2} : StoresOk (Machine.strapLatchDev
    casPos xtalSel bootSrc d) :=
  .forEach (fun _ _ h => h.wakeOne) _ h.putReg.setStage

/-! ### Wakes -/

theorem StoresOk.sysexVoid (h : StoresOk d) : StoresOk (Machine.sysexVoid d) := .forEach (fun _ _ h => (h.upd (by rfl)).finishTask) _ h

theorem StoresOk.reportOn (h : StoresOk d) {n : Nat} : StoresOk (Machine.reportOn n d) :=
  ((((h.modDom.settle.when (·.syncAccepting)).when (·.releasePads)).when (·.mgtIrq)).when (·.putFlag.linkOn)).closeBatches

/-! ### The host port -/

theorem StoresOk.frameWrite (h : StoresOk d) {a : Nat} {v : Word} : StoresOk (Machine.frameWrite a v d) := by
  unfold Machine.frameWrite
  split
  · exact .ite (.ite h.mixClear h) ((StoresOk.ite h.mixClear h).mixPut)
  · exact h

theorem StoresOk.countReject (h : StoresOk d) {ctl : Nat} : StoresOk (Machine.countReject ctl d) := h.putFlag.cntRej

theorem StoresOk.vidWrite (h : StoresOk d) {lock : Bool} {v : Word} : StoresOk (Machine.vidWrite lock v d) :=
  h.codedWrite.vidManual.vidMoved

theorem StoresOk.mailboxGo (h : StoresOk d) {v : Word} : StoresOk (Machine.mailboxGo v d) := .ite h (.ite h.mgtIrq (h.upd (by rfl)))

theorem StoresOk.moverWrite (h : StoresOk d) {mgmt : Bool} {a : Nat} {v : Word} : StoresOk (Machine.moverWrite mgmt a v d) :=
  .ite h (.ite (.ite h.moverGoDev h.moverAbortDev) (.ite h.countReject.bump h.codedWrite))

theorem StoresOk.almWrite (h : StoresOk d) {a : Nat} {v : Word} : StoresOk (Machine.almWrite a v d) :=
  .ite h.flushDev (.ite (.ite h.countReject h.codedWrite) (.ite h.hostPostRow (.ite h.hostCancelDev h.codedWrite)))

theorem StoresOk.mixWrite (h : StoresOk d) {a : Nat} {v : Word} : StoresOk (Machine.mixWrite a v d) :=
  .ite h.outBitsWrite (.ite h.outFaultClearDev (.ite h.frameWrite (.ite (.ite h.playCfgWrite h.playLvlWrite) h.frameWrite)))

theorem StoresOk.cluWrite (h : StoresOk d) {lock mgmt : Bool} {a : Nat} {v : Word} : StoresOk (Machine.cluWrite lock mgmt a v d) :=
  .ite h.codedWrite (.ite h.waveCacheInvalDev (.ite h.codedWrite (.ite h.skmCtlWrite (.ite h.swapDev.swapAllDev (.ite h.coefWrite
    (.ite h.coefWrite h.codedWrite))))))

theorem StoresOk.serialWrite (h : StoresOk d) {a : Nat} {v : Word} : StoresOk (Machine.serialWrite a v d) :=
  .ite h.codedWrite (.ite h.serCtlWrite (.ite h.divWriteDev (.ite h.serTxWriteDev h.codedWrite)))

theorem StoresOk.winWrite (h : StoresOk d) {a : Nat} {v : Word} {be : BitVec 4} : StoresOk (Machine.winWrite a v be d) :=
  .ite h.winCtlWrite (.ite h.winAddrWriteDev (.ite h.winDataWriteDev h.codedWrite))

theorem StoresOk.devWrite (h : StoresOk d) {lock mgmt : Bool} {a : Nat} {v : Word} {be : BitVec 4} : StoresOk (Machine.devWrite lock mgmt a
    v be d) :=
  .ite h.slackMinClearDev (.ite h.vidWrite (.ite h.codedWrite (.ite (.ite h.powerBatchDev (.ite h.padReleaseDev
    (.ite h.aonWakeDev h.codedWrite))) (.ite h.serialWrite (.ite (h.atEdge (fun _ h => h.chrWrite)) (.ite (.ite h.mailboxGo
      (.ite h.mgtFaultClearDev h.codedWrite)) (.ite (.ite h.casCtlWrite h.codedWrite) (.ite h.codedWrite (.ite h.moverWrite
        (.ite h.almWrite (.ite (.ite h.glfoRestartDev h.codedWrite) (.ite h.mixWrite (.ite (.ite h.tdmCtlWrite h.frameWrite) (.ite
          (.ite h.calReqDev (.ite h.countReject (.ite h.codedWrite h.codedWrite))) (.ite h.cluWrite h.winWrite)))))))))))))))

theorem StoresOk.modHp (h : StoresOk d) {f : HostPort → HostPort} : StoresOk (Machine.Dev.modHp d f) := h.upd rfl

theorem StoresOk.drive (h : StoresOk d) {x : BitVec 16} : StoresOk (Machine.Dev.drive d x) := h.upd rfl

theorem StoresOk.putEvcSnap (h : StoresOk d) {x : EvcSnap} : StoresOk (Machine.putEvcSnap x d) := h.upd rfl

theorem StoresOk.longSnaps (h : StoresOk d) {s : State} {a : Nat} : StoresOk (Machine.longSnaps s a d) :=
  .ite h.modHp (.ite h.modHp (.ite h (.ite h.putEvcSnap (.ite h.putEvcSnap h))))

theorem StoresOk.responderRead (h : StoresOk d) {ha : Nat} : StoresOk (Machine.responderRead ha d) := .ite h.drive h.modHp

theorem StoresOk.orphan (h : StoresOk d) : StoresOk (Machine.orphan d) := h.putFlag

theorem StoresOk.lowWrite (h : StoresOk d) {a : Nat} {x : BitVec 16} {be : BitVec 2} : StoresOk (Machine.lowWrite a x be d) := by
  unfold Machine.lowWrite
  dsimp only
  split
  · exact (StoresOk.ite h h.orphan).modHp
  · exact h.modHp

theorem StoresOk.responderDrop (h : StoresOk d) : StoresOk (Machine.responderDrop d) := .ite h.modHp.orphan h

theorem StoresOk.responderLowWrite (h : StoresOk d) {a : Nat} {x : BitVec 16} {be : BitVec 2} : StoresOk (Machine.responderLowWrite a x be
    d) :=
  .ite h (.ite h.modHp h.responderDrop)

theorem StoresOk.hostLowHalfWriteDev (h : StoresOk d) {ha : Nat} {x : BitVec 16} {be : BitVec 2} : StoresOk (Machine.hostLowHalfWriteDev ha
    x be d) :=
  .ite h (.ite h.lowWrite h.responderLowWrite)

theorem StoresOk.responderHighWrite (h : StoresOk d) {a : Nat} {x : BitVec 16} {be : BitVec 2} : StoresOk (Machine.responderHighWrite a x
    be d) := by
  unfold Machine.responderHighWrite
  dsimp only
  refine .ite h ?_
  refine .ite h.responderDrop ?_
  split
  · exact .ite h.modHp.putFlag h.modHp.aonWakeDev
  · exact h.orphan

/-! ### The boot under the firmware -/

theorem StoresOk.bootWakes (h : StoresOk d) : StoresOk (Machine.bootWakes d) := .forEach (fun _ _ h => h.requestWake) _ h

theorem StoresOk.foregroundOne (h : StoresOk d) {v : Nat} : StoresOk (Machine.foregroundOne v d) := .ite h.modCal.draw h

theorem StoresOk.foregroundCalibrationStartDev (h : StoresOk d) : StoresOk (Machine.foregroundCalibrationStartDev d) :=
  .ite (.forUpTo (fun _ _ h => h.foregroundOne) _ h.setStage.modCal) h

theorem StoresOk.bootSleeps (h : StoresOk d) : StoresOk (Machine.bootSleeps d) := .forEach (fun _ _ h => h.requestEntry) _ h.modBoot

theorem StoresOk.foregroundCalibrationDoneDev (h : StoresOk d) : StoresOk (Machine.foregroundCalibrationDoneDev d) :=
  .ite h ((StoresOk.forEach (fun _ _ h => h.runEnds) _ h).setIrq.calLast.modCal.modBoot.bootSleeps)

/-! ### Management -/

theorem StoresOk.alarmMoved (h : StoresOk d) {bit_ : Nat} {rise : Dev → Dev} {old new : Alarm}
    (hrise : ∀ e, StoresOk e → StoresOk (rise e)) : StoresOk (Machine.alarmMoved bit_ rise old new d) :=
  .ite h (.ite (hrise _ h.putFlag.mgtIrq) h.putFlag.mgtIrq.logEv)

theorem StoresOk.tempRose (h : StoresOk d) {crit : Bool} {who : Nat} : StoresOk (Machine.tempRose crit who d) :=
  .ite h.logEv.setFault h.logEv

theorem StoresOk.supplyRose (h : StoresOk d) {k : Nat} : StoresOk (Machine.supplyRose k d) := h.logEv.setFault

theorem StoresOk.takeReadings (h : StoresOk d) {temps supplies : List Word} : StoresOk (Machine.takeReadings temps supplies d) := h.upd rfl

theorem StoresOk.supplyCheck (h : StoresOk d) {k : Nat} : StoresOk (Machine.supplyCheck k d) :=
    (h.upd (by rfl)).alarmMoved (fun _ h => h.supplyRose)

theorem StoresOk.sensorMeasurementDev (h : StoresOk d) {temps supplies : List Word} : StoresOk (Machine.sensorMeasurementDev temps supplies
    d) := by
  unfold Machine.sensorMeasurementDev
  exact (StoresOk.forUpTo (fun _ _ h => h.supplyCheck) _ (((h.upd (by rfl)).alarmMoved (fun _ h => h.tempRose)).alarmMoved (fun _ h =>
    h.tempRose))).biasUpdate

theorem StoresOk.logEntryWriteDev (h : StoresOk d) : StoresOk (Machine.logEntryWriteDev d) := by
  unfold Machine.logEntryWriteDev
  dsimp only
  refine .ite h ?_
  refine .ite ((h.upd (by rfl)).logStore) ?_
  refine .ite ((h.upd (by rfl)).logStore) ?_
  split
  · exact (h.upd (by rfl)).logStore
  · exact (h.upd (by rfl)).logStore
  · exact h

/-! ### The mailbox -/

theorem StoresOk.updMoved (h : StoresOk d) {m : Mover} : StoresOk (Machine.updMoved m d) := h.putDesc.modMover.bumpBy.emit

theorem StoresOk.sysexAnswer (h : StoresOk d) {n : Nat} {bs : List Byte} : StoresOk (Machine.sysexAnswer n bs d) := .ite h.txReply h

theorem StoresOk.mailboxEnd (h : StoresOk d) {r : List Byte} : StoresOk (Machine.mailboxEnd r d) :=
  ((StoresOk.forUpTo (fun _ _ h => h.putReg) _ h).upd (by rfl)).mgtIrq

theorem StoresOk.fwdClear (h : StoresOk d) : StoresOk (Machine.fwdClear d) := h.upd rfl

theorem StoresOk.sysexFwdLate (h : StoresOk d) : StoresOk (Machine.sysexFwdLate d) := h.frame (by simp)

theorem StoresOk.mailboxResponseDev (h : StoresOk d) : StoresOk (Machine.mailboxResponseDev d) := by
  unfold Machine.mailboxResponseDev
  refine .ite h (.ite h.sysexFwdLate ?_)
  split
  · exact h.mailboxEnd
  · exact .ite h.fwdClear.mailboxEnd (.ite h.mailboxEnd h.sysexFwdLate)

theorem StoresOk.fwdDone (h : StoresOk d) : StoresOk (Machine.fwdDone d) := by
  unfold Machine.fwdDone
  dsimp only
  split
  · exact h.fwdClear.sysexAnswer
  · exact .ite (h.fwdClear.upd (by rfl)) h.fwdClear

theorem StoresOk.mgmtRspDev (h : StoresOk d) : StoresOk (Machine.mgmtRspDev d) := by
  unfold Machine.mgmtRspDev
  split
  · exact h
  cases hp : Machine.takePacket d 4 with
  | none => exact h
  | some z => exact .ite (h.takePacket hp) (.ite (h.takePacket hp).modCas.fwdDone (h.takePacket hp).modCas)

end Sys2Proof.Machine
end

section
/-! PROOF. Every store keeps its canonical form under every step: the writes to the flash, what each operation of the state makes
of the stores, and every command (R428 to R431). -/

namespace Sys2Proof.Machine

open Sys2Proof

/-- Every store of a state in canonical form. -/
structure MemOk (s : State) : Prop where
  flash : cellsWf flashDflt s.prot.flash = true
  dev : StoresOk s.dev

theorem memory_wf_iff (s : State) : Memory.wf s = true ↔ MemOk s := by
  simp only [Memory.wf, Bool.and_eq_true]
  constructor
  · rintro ⟨⟨⟨⟨⟨hf, hr⟩, hp⟩, hm⟩, ho⟩, hw⟩
    exact ⟨hf, hr, hp, hm, ho, hw⟩
  · rintro ⟨hf, hr, hp, hm, ho, hw⟩
    exact ⟨⟨⟨⟨⟨hf, hr⟩, hp⟩, hm⟩, ho⟩, hw⟩

variable {s : State}

theorem MemOk.onDev (h : MemOk s) {f : Dev → Dev} (hf : StoresOk s.dev → StoresOk (f s.dev)) :
    MemOk (s.onDev f) := ⟨h.flash, hf h.dev⟩

/-- An effect on the device that leaves its registers and memories alone. -/
theorem MemOk.onDev_same (h : MemOk s) {f : Dev → Dev} (hf : (f s.dev).regs = s.dev.regs ∧ (f s.dev).mem = s.dev.mem) :
    MemOk (s.onDev f) := h.onDev (·.frame hf)

theorem MemOk.ite {c : Prop} [Decidable c] {a b : State} (ha : MemOk a) (hb : MemOk b) : MemOk (if c then a else b) := by
  split <;> assumption

theorem MemOk.foldl {β : Type} {f : State → β → State} (hf : ∀ b s, MemOk s → MemOk (f s b)) (l : List β) {s : State}
    (h : MemOk s) : MemOk (l.foldl f s) := by
  induction l generalizing s with
  | nil => exact h
  | cons b r ih => exact ih (hf b s h)

/-! ### The flash (R79, R441, R506, R512) -/

theorem cellsWf_flashProgram (bs : List Byte) (fl : List Host.Cell) (a : Nat) (h : cellsWf flashDflt fl = true) :
    cellsWf flashDflt (flashProgram fl a bs) = true := by
  induction bs generalizing fl a with
  | nil => exact h
  | cons b r ih => exact ih _ _ (cellsWf_cellSet _ _ _ _ h)

theorem cellsWf_flashErase (fl : List Host.Cell) (a n : Nat) (h : cellsWf flashDflt fl = true) :
    cellsWf flashDflt (flashErase fl a n) = true := cellsWf_cellsDrop _ _ _ _ h

theorem MemOk.putFlash (h : MemOk s) {fl : List Host.Cell} (hf : cellsWf flashDflt fl = true) : MemOk (s.putFlash fl) :=
  .ite ⟨hf, h.dev⟩ h

theorem MemOk.eraseSector (h : MemOk s) {a : Nat} : MemOk (Machine.eraseSector a s) := h.putFlash (cellsWf_flashErase _ _ _ h.flash)

theorem MemOk.writeRecord (h : MemOk s) {prefer : Nat} : MemOk (Machine.writeRecord prefer s) :=
  h.putFlash (cellsWf_flashProgram _ _ _ (cellsWf_flashErase _ _ _ h.flash))

theorem MemOk.flashSpoil (h : MemOk s) {a n : Nat} : MemOk (Machine.flashSpoil a n s) :=
  (h.putFlash (cellsWf_cellPutBytes _ _ _ _ h.flash)).onDev_same ⟨rfl, rfl⟩

theorem MemOk.modMgt (h : MemOk s) {f : Mgmt → Mgmt} : MemOk (Machine.modMgt f s) := h.onDev_same ⟨rfl, rfl⟩

theorem MemOk.preferRestore (h : MemOk s) : MemOk (Machine.preferRestore s) := .ite (h.writeRecord.onDev (·.fwLog)) h

theorem MemOk.runReached (h : MemOk s) {was : Nat} : MemOk (Machine.runReached was s) := .ite h.preferRestore h

/-! ### The mover (R438) -/

theorem MemOk.spaceWrite (h : MemOk s) {sp a : Nat} {bs : List Byte} : MemOk (Machine.spaceWrite s sp a bs) :=
  .ite (h.onDev (·.dramPut)) <| .ite (h.onDev (.forUpTo (fun _ _ h => h.frame (by simp)) _)) <| .ite (h.onDev (·.owRaw)) <|
    .ite (.ite ⟨cellsWf_flashProgram _ _ _ h.flash, h.dev⟩ h) (h.onDev (·.mramRaw))

theorem StoresOk.freshTo {d : Dev} (h : StoresOk d) {n : Nat} : StoresOk { d with fresh := n } := h.upd rfl

theorem MemOk.moverMove (h : MemOk s) {c n : Nat} : MemOk (Machine.moverMove c n s) := by
  unfold Machine.moverMove
  refine h.spaceWrite.onDev fun h => ?_
  dsimp only
  exact (StoresOk.ite (StoresOk.freshTo (.ite h h.movMoved)) (.ite h h.movMoved)).modMover.bumpBy.emit

theorem MemOk.moverBurstState (h : MemOk s) {c : Nat} : MemOk (Machine.moverBurstState c s) :=
  .ite (h.moverMove.onDev (·.upd rfl)) h

/-! ### The boot (R76 to R101) -/

theorem StoresOk.edgeTick {d : Dev} (h : StoresOk d) : StoresOk (Machine.edgeTick d) := .ite h.edgeTo h

theorem MemOk.failLate (h : MemOk s) {code sect : Nat} : MemOk (Machine.failLate code sect s) := by
  refine ⟨h.flash, ?_⟩
  dsimp only [Machine.failLate]
  exact h.dev.bootErr.bootLog.modBoot

theorem MemOk.sectFails (h : MemOk s) {x : Sect} {code : Nat} : MemOk (Machine.sectFails x code s) :=
  .ite (h.onDev (·.bootWarn)) h.failLate

theorem MemOk.octalSwitch (h : MemOk s) {slot : Nat} : MemOk (Machine.octalSwitch slot s) :=
  .ite (h.onDev (·.putFlag)) <| .ite (h.onDev (·.draw.draw.putFlag)) (h.onDev (·.draw.draw.putFlag.bootWarn))

theorem MemOk.acceptSlot (h : MemOk s) {slot : Nat} : MemOk (Machine.acceptSlot slot s) :=
  (h.onDev (·.modBoot.putFld.putFlag.putFlag)).octalSwitch

theorem MemOk.failInPlace (h : MemOk s) {slot code sect : Nat} : MemOk (Machine.failInPlace slot code sect s) :=
  h.onDev (·.bootErr.bootLog.modBoot)

theorem MemOk.noImage (h : MemOk s) : MemOk (Machine.noImage s) := h.onDev (·.setStage.putFlag.setFault)

theorem MemOk.trySlot (h : MemOk s) {slot : Nat} : MemOk (Machine.trySlot slot s).1 := by
  have hs := h.onDev (f := fun d => d.putFlag Reg.GLB_BOOT_STAT 6 false) (·.putFlag)
  unfold Machine.trySlot
  simp only [apply_ite Prod.fst]
  exact .ite h (.ite hs.acceptSlot hs.failInPlace)

theorem MemOk.trySlots (h : MemOk s) : MemOk (Machine.trySlots s) := .ite h.trySlot (.ite h.trySlot.trySlot h.trySlot.trySlot.noImage)

theorem MemOk.streamFront (h : MemOk s) : MemOk (Machine.streamFront s) := by
  unfold Machine.streamFront
  split
  · exact h
  · exact .ite h (h.onDev (·.modBoot.whenNot (·.firmwareIssue)))

theorem MemOk.streamNext (h : MemOk s) {x : Sect} {code : Nat} : MemOk (Machine.streamNext x code s) := by
  have hb := h.onDev (f := fun d => d.modBoot (fun t => { t with streams := t.streams.drop 1 })) (·.modBoot)
  exact (MemOk.ite hb hb.sectFails).streamFront

theorem MemOk.waveStreamDoneState (h : MemOk s) : MemOk (Machine.waveStreamDoneState s) := by
  have hf := h.streamFront
  unfold Machine.waveStreamDoneState
  split
  · exact h
  · exact .ite (.ite hf (hf.moverMove.onDev (·.modMover)).streamNext) <| .ite hf <| .ite hf.streamNext <| .ite hf hf.streamNext

theorem MemOk.nvmResetWaitEndState (h : MemOk s) : MemOk (Machine.nvmResetWaitEndState s) := by
  unfold Machine.nvmResetWaitEndState
  refine .ite h (MemOk.trySlots (h.onDev fun h => ?_))
  exact .ite h.modBoot h.modBoot.bootWarn

theorem MemOk.loadSect (h : MemOk s) {x : Sect} : MemOk (Machine.loadSect x s) :=
  .ite h <| .ite h.sectFails <| .ite (.ite (h.onDev (·.modBoot)) h.sectFails) <| .ite h.sectFails <|
    .ite (.ite (h.onDev (·.modBoot)) h) <| .ite (h.onDev (·.modBoot.when (·.putFld))) (h.onDev (·.loadRecords))

theorem MemOk.listFails (h : MemOk s) : MemOk (Machine.listFails s) := by
  unfold Machine.listFails
  split
  · exact h.failLate
  · exact h

theorem MemOk.listFront (h : MemOk s) : MemOk (Machine.listFront s) := by
  unfold Machine.listFront
  split
  · exact .ite h h.listFails
  · exact h

theorem MemOk.listNext (h : MemOk s) : MemOk (Machine.listNext s) := (h.onDev (·.modBoot)).listFront.streamFront

theorem MemOk.firmwareRuns (h : MemOk s) {x : Sect} : MemOk (Machine.firmwareRuns x s) := by
  have hc : MemOk (s.onDev (fun d => { Machine.loadCode (sectBody s s.dev.slot x) d with
      mgt := { (Machine.loadCode (sectBody s s.dev.slot x) d).mgt with
        mode := 2, fwVersion := bodyNat (sectBody s s.dev.slot x) 4 4, secVersion := bodyNat (sectBody s s.dev.slot x) 8 4 } })) :=
    h.onDev (·.loadCode.upd rfl)
  exact .ite (hc.onDev (·.setStage.setFault))
    (MemOk.foldl (fun _ _ h => h.loadSect) _ (hc.onDev (·.setStage.bootWakes))).listFront.streamFront

theorem MemOk.firmwareStartState (h : MemOk s) : MemOk (Machine.firmwareStartState s) := by
  unfold Machine.firmwareStartState
  split
  · exact h
  split
  · exact h
  · exact .ite h.failInPlace.trySlots h.firmwareRuns

theorem MemOk.engineEnd (h : MemOk s) : MemOk (Machine.engineEnd s) :=
  .ite h <| .ite (h.onDev (·.setStage.engineSet)) (h.onDev (·.setStage.engineSet)).runReached

theorem MemOk.engineStageState (h : MemOk s) : MemOk (Machine.engineStageState s) := by
  have hs (l : List (Nat × List RegEntry)) :
      MemOk (s.onDev (fun d => (d.setStage Stage.engine).modBoot (fun b => { b with lists1 := true, lists := l }))) :=
    h.onDev (·.setStage.modBoot)
  exact .ite h <| .ite (.ite (.ite (hs _).engineEnd (hs _).listFront) h) <| .ite h.engineEnd h

/-! ### Resets and wakes (R71, R431, R487) -/

theorem MemOk.resetState (h : MemOk s) {c : Cause} : MemOk (Machine.resetState c s) := ⟨h.flash, h.dev.resetDev⟩

theorem MemOk.resetPinState (h : MemOk s) {n : Nat} : MemOk (Machine.resetPinState n s) :=
  .ite h <| .ite (h.onDev (·.when (·.draw))).resetState (h.onDev (·.draw))

theorem MemOk.softwareResetState (h : MemOk s) {v : Word} : MemOk (Machine.softwareResetState v s) := .ite h.resetState h

theorem MemOk.mgmtReload (h : MemOk s) : MemOk (Machine.mgmtReload s).2 := by
  unfold Machine.mgmtReload
  split
  · exact ⟨h.flash, h.dev.upd rfl⟩
  split
  · exact h
  · simp only [apply_ite Prod.snd]
    exact .ite h (h.onDev fun h => StoresOk.sysexVoid (h.loadCode.upd rfl))

theorem MemOk.domainWakeState (h : MemOk s) {n : Nat} : MemOk (Machine.domainWakeState n s) := by
  have hu : MemOk (s.onDev (Machine.unitWake n (s.dev.dom n).cold)) := h.onDev (·.unitWake)
  unfold Machine.domainWakeState
  refine .ite h ?_
  dsimp only
  split
  · have hr := hu.mgmtReload
    split
    next t e => rw [e] at hr; exact hr.onDev (·.reportOn)
    next e => rw [e] at hr; exact hr.failLate.resetState
  · exact .ite (hu.onDev fun h => StoresOk.reportOn (d := mgmtResume _) (h.upd (by rfl))) (hu.onDev (·.reportOn))

theorem MemOk.startUpTick (h : MemOk s) : MemOk (Machine.startUpTick s) :=
  .ite h <| .ite (h.onDev (·.setStage)) <| .ite (h.onDev (·.setStage)) h

/-! ### The writes and reads of the host and of register lists (R8, R97, R408, R409) -/

theorem MemOk.asHost (h : MemOk s) {f : State → State} (hf : MemOk s → MemOk (f s)) : MemOk (s.asHost f) := .ite (hf h) h

theorem MemOk.lockWrite (h : MemOk s) {v : Word} : MemOk (Machine.lockWrite v s) := by
  have hs : MemOk (if v.getLsbD 1 then s.onDev (fun d => d.putFlag Reg.GLB_LOCK 1 false) else s) := .ite (h.onDev (·.putFlag)) h
  exact .ite ⟨hs.flash, hs.dev⟩ hs

theorem MemOk.continueState (h : MemOk s) {v : Word} : MemOk (Machine.continueState v s) := .ite (h.onDev (·.engineSet)).runReached h

theorem MemOk.retryState (h : MemOk s) {v : Word} : MemOk (Machine.retryState v s) := .ite ⟨h.flash, h.dev.modBoot.nvmResetIssue⟩ h

theorem MemOk.frameCtlState (h : MemOk s) {v : Word} : MemOk (Machine.frameCtlState v s) := (h.onDev (·.frameCtlWrite)).runReached

theorem MemOk.regWrite (h : MemOk s) {mgmt : Bool} {a : Nat} {v : Word} {be : BitVec 4} : MemOk (Machine.regWrite mgmt a v be s) :=
  .ite h <| .ite h.lockWrite <| .ite h.softwareResetState <| .ite h.frameCtlState <| .ite h.continueState.retryState <|
    h.onDev (·.devWrite)

theorem MemOk.hostCommit (h : MemOk s) {a : Nat} {v : Word} {lo hi : BitVec 2} : MemOk (Machine.hostCommit a v lo hi s) :=
  .ite h <| .ite (h.onDev_same (by simp)) <| .ite h <| .ite (h.onDev (·.putFlag)) h.regWrite

theorem MemOk.hostHighHalfWriteState (h : MemOk s) {ha : Nat} {x : BitVec 16} {be : BitVec 2} :
    MemOk (Machine.hostHighHalfWriteState ha x be s) := by
  refine .ite h (.ite ?_ (h.onDev (·.responderHighWrite)))
  have hh : MemOk (s.onDev (fun d => d.modHp (fun p => { p with hold := none }))) := h.onDev (·.modHp)
  unfold Machine.highWrite
  split
  · exact h.onDev (·.orphan)
  · exact .ite hh.hostCommit (hh.onDev (·.orphan))

theorem MemOk.hostLowHalfReadState (h : MemOk s) {ha : Nat} : MemOk (Machine.hostLowHalfReadState ha s) :=
  .ite (h.onDev (·.responderRead)) <|
    .ite (.ite (h.onDev (·.drive)) (h.onDev (·.drive.modHp.longSnaps.readEffect))) h

theorem StoresOk.highRead (h : StoresOk s.dev) {a : Nat} : StoresOk (Machine.highRead s a).2 := by
  have hp (b : Bool) : StoresOk (if b then s.dev.modHp (fun p => { p with snap := none }) else s.dev) := h.when (·.modHp)
  unfold Machine.highRead
  dsimp only
  split
  · exact h
  split
  · dsimp only
    exact (hp _).modHp
  split
  · dsimp only
    exact (hp _).putEvcSnap
  split
  · exact hp _
  · dsimp only
    exact (hp _).longSnaps

theorem MemOk.hostHighHalfReadState (h : MemOk s) {ha : Nat} : MemOk (Machine.hostHighHalfReadState ha s) :=
  .ite (h.onDev (·.responderRead)) <| .ite ⟨h.flash, h.dev.highRead.drive⟩ h

theorem MemOk.mgmtRead (h : MemOk s) {a : Nat} : MemOk (Machine.mgmtRead a s).2 := h.onDev (·.readEffect)

theorem MemOk.mgmtWrite (h : MemOk s) {a : Nat} {v : Word} {t : State} (hw : Machine.mgmtWrite a v s = some t) : MemOk t := by
  unfold Machine.mgmtWrite at hw
  split at hw
  · cases hw
    exact h.regWrite
  split at hw
  · obtain ⟨d, hd, rfl⟩ := Option.map_eq_some_iff.mp hw
    unfold mgmtPostH at hd
    split at hd
    · cases hd
      exact ⟨h.flash, h.dev.frame (by simp)⟩
    · cases hd
  · cases hw
    exact h

theorem MemOk.listWrite (h : MemOk s) {a : Nat} {v : Word} : MemOk (Machine.listWrite a v s) := by
  unfold Machine.listWrite
  split
  next t ht => exact (h.mgmtWrite ht).listNext
  next => exact h

theorem MemOk.listFill (h : MemOk s) {v : Word} {n a : Nat} : MemOk (Machine.listFill v n a s).1 := by
  induction n generalizing a s with
  | zero => exact h
  | succ n ih =>
    unfold Machine.listFill
    split
    · exact h
    split
    next t ht => exact ih (h.mgmtWrite ht)
    next => exact h

theorem MemOk.reginitWriteState (h : MemOk s) {a : Nat} {v : Word} : MemOk (Machine.reginitWriteState a v s) :=
  .ite h (.ite h.listWrite h.listFails)

theorem MemOk.reginitSetState (h : MemOk s) {a : Nat} {v : Word} : MemOk (Machine.reginitSetState a v s) :=
  .ite h (.ite h.mgmtRead.listWrite h.listFails)

theorem MemOk.reginitClearState (h : MemOk s) {a : Nat} {v : Word} : MemOk (Machine.reginitClearState a v s) :=
  .ite h (.ite h.mgmtRead.listWrite h.listFails)

theorem MemOk.reginitPollState (h : MemOk s) {arg a : Nat} {v : Word} : MemOk (Machine.reginitPollState arg a v s) :=
  .ite h (.ite (.ite h.mgmtRead.listNext (h.mgmtRead.onDev (·.modBoot))) h.listFails)

theorem MemOk.reginitDelayState (h : MemOk s) {arg : Nat} : MemOk (Machine.reginitDelayState arg s) := by
  unfold Machine.reginitDelayState
  split
  · exact .ite h (.ite h.listNext (h.onDev (·.modBoot)))
  · exact h

theorem MemOk.reginitFillState (h : MemOk s) {arg a : Nat} {v : Word} : MemOk (Machine.reginitFillState arg a v s) :=
  .ite h (.ite h.listFails (.ite h.listFill.listNext (h.listFill.onDev_same (by simp [listLeft]))))

/-! ### The log's mirror and the management commands (R506, R509 to R518) -/

theorem MemOk.mirrorResume (h : MemOk s) : MemOk (Machine.mirrorResume s) := by
  unfold Machine.mirrorResume
  refine .ite h ?_
  dsimp only
  split
  · exact h.modMgt
  · exact h.modMgt

theorem MemOk.mirrorOpen (h : MemOk s) : MemOk (Machine.mirrorOpen s) :=
  .ite h (h.putFlash (cellsWf_flashProgram _ _ _ (cellsWf_flashErase _ _ _ h.flash))).modMgt

theorem MemOk.mirrorOne (h : MemOk s) : MemOk (Machine.mirrorOne s) := by
  unfold Machine.mirrorOne
  exact (h.mirrorOpen.putFlash (cellsWf_flashProgram _ _ _ h.mirrorOpen.flash)).modMgt

theorem MemOk.mirrorGroup (h : MemOk s) {n : Nat} : MemOk (Machine.mirrorGroup n s) :=
  .foldl (fun _ _ h => h.mirrorOne) _ h.mirrorResume

theorem MemOk.mirrorFails (h : MemOk s) {n : Nat} : MemOk (Machine.mirrorFails n s) :=
  h.mirrorResume.flashSpoil.modMgt.onDev (·.fwLog)

theorem MemOk.logMirrorWriteState (h : MemOk s) {ok : Bool} : MemOk (Machine.logMirrorWriteState ok s) :=
  .ite h (.ite h.mirrorGroup h.mirrorFails)

theorem MemOk.closeSession (h : MemOk s) : MemOk (Machine.closeSession s) := h.onDev fun h => StoresOk.mgtIrq (h.upd (by rfl))

theorem MemOk.spoilTarget (h : MemOk s) {slot : Nat} : MemOk (Machine.spoilTarget slot s) := h.eraseSector

theorem MemOk.abortSession (h : MemOk s) {n : Nat} : MemOk (Machine.abortSession n s) := by
  unfold Machine.abortSession
  split
  · exact h
  · exact (h.spoilTarget.onDev (·.fwLog)).closeSession

theorem MemOk.iteReply {c : Prop} [Decidable c] {a b : Reply} (ha : MemOk a.st) (hb : MemOk b.st) : MemOk (if c then a else b).st := by
  split <;> assumption

theorem cellsWf_eraseAll (l : List Nat) (fl : List Host.Cell) (h : cellsWf flashDflt fl = true) :
    cellsWf flashDflt (l.foldl (fun fl k => flashErase fl k 0x10000) fl) = true := by
  induction l generalizing fl with
  | nil => exact h
  | cons k r ih => exact ih _ (cellsWf_flashErase _ _ _ h)

theorem MemOk.imageWrite (h : MemOk s) {x : Session} {bs : List Byte} : MemOk (Machine.imageWrite x bs s) := by
  unfold Machine.imageWrite
  exact (h.putFlash (cellsWf_flashProgram _ _ _ (cellsWf_eraseAll _ _ h.flash))).modMgt

theorem MemOk.imageBytes (h : MemOk s) {c : Caller} {x : Session} {off : Nat} {bs : List Byte} :
    MemOk (Machine.imageBytes c x off bs s).st := .iteReply h (.iteReply h.imageWrite h.abortSession)

/-- A command's meaning keeps the stores' form. -/
def CmdKeepsForm (f : List Byte → State → Reply) : Prop := ∀ p s, MemOk s → MemOk (f p s).st

theorem MemOk.withSession (h : MemOk s) {c : Caller} {f : Session → State → Reply} (hf : ∀ x, MemOk (f x s).st) :
    MemOk (Machine.withSession c f s).st := by
  unfold Machine.withSession
  split
  · exact h
  · exact .iteReply (hf _) h

theorem getInfoCmd_form : CmdKeepsForm getInfoCmd := fun _ _ h => h

theorem logAddCmd_form : CmdKeepsForm logAddCmd := fun _ _ h => h.onDev (·.fwLog)

theorem logSyncCmd_form (c : Caller) : CmdKeepsForm (logSyncCmd c) := fun _ _ h => .iteReply (.ite h h.mirrorGroup) h.mirrorFails

theorem updBeginCmd_form (c : Caller) : CmdKeepsForm (updBeginCmd c) := by
  intro p s h
  unfold updBeginCmd
  split
  · exact h
  · refine .iteReply h (.iteReply h.flashSpoil ?_)
    dsimp only
    exact (h.eraseSector.onDev (·.fwLog)).modMgt

theorem updDataCmd_form (c : Caller) : CmdKeepsForm (updDataCmd c) := fun _ _ h => h.withSession fun _ => h.imageBytes

theorem updDramCmd_form (c : Caller) : CmdKeepsForm (updDramCmd c) := fun _ _ h => h.withSession fun _ =>
  .iteReply h <| .iteReply h <| .iteReply h <| .iteReply (h.onDev (·.firmwareIssue)) <|
    .iteReply (h.imageBytes.onDev (·.updMoved)) h.imageBytes

theorem updEndCmd_form (c : Caller) : CmdKeepsForm (updEndCmd c) := fun _ _ h => h.withSession fun _ => by
  refine .iteReply h <| .iteReply h.abortSession <| .iteReply (h.spoilTarget.onDev (·.fwLog)).closeSession <|
    .iteReply h.abortSession ?_
  dsimp only
  exact (h.writeRecord.onDev (·.fwLog)).closeSession.modMgt

theorem updAbortCmd_form (c : Caller) : CmdKeepsForm (updAbortCmd c) := fun _ _ h => h.withSession fun _ => h.abortSession

theorem rollbackAdvCmd_form : CmdKeepsForm rollbackAdvCmd := fun _ _ h => .iteReply ⟨h.flash, h.dev.fwLog⟩ h

theorem setPreferCmd_form (c : Caller) : CmdKeepsForm (setPreferCmd c) := fun _ _ h =>
  .iteReply h <| .iteReply h <| .iteReply h <| .iteReply h.writeRecord h.flashSpoil

theorem nvmIdCmd_form : CmdKeepsForm nvmIdCmd := fun _ _ h => .iteReply h h

theorem nvmReadCmd_form (c : Caller) : CmdKeepsForm (nvmReadCmd c) := fun _ _ h => .iteReply h <| .iteReply h h

theorem nvmEraseCmd_form (c : Caller) : CmdKeepsForm (nvmEraseCmd c) := fun _ _ h =>
  .iteReply h <| .iteReply h <| .iteReply h.eraseSector h.flashSpoil

theorem nvmProgCmd_form (c : Caller) : CmdKeepsForm (nvmProgCmd c) := fun _ _ h =>
  .iteReply h <| .iteReply h <| .iteReply (h.putFlash (cellsWf_flashProgram _ _ _ h.flash)) h.flashSpoil

theorem fwdEnd_form : CmdKeepsForm (fun p s => endWith (fwdErr s.dev p) s) := fun _ _ h => h

theorem MemOk.freshBases (h : MemOk s) : MemOk (Machine.freshBases s) := .ite (h.onDev (·.modBoot)) h

theorem MemOk.served (h : MemOk s) {cmd : Nat} {c : Caller} {req : List Byte} {f : List Byte → State → Reply} (hf : CmdKeepsForm f) :
    MemOk (Machine.served cmd c req f s).st := .iteReply h <| .iteReply h (hf _ _ h.freshBases)

theorem MemOk.mailboxRow (h : MemOk s) {cmd : Nat} {f : List Byte → State → Reply} (hf : CmdKeepsForm f) :
    MemOk (Machine.mailboxRow cmd f s) := .ite (h.served hf).modMgt h

theorem MemOk.runCommand (h : MemOk s) {c : Caller} {req : List Byte} : MemOk (Machine.runCommand c req s).st :=
  .iteReply (h.served getInfoCmd_form) <| .iteReply (h.served logAddCmd_form) <| .iteReply (h.served (logSyncCmd_form c)) <|
    .iteReply (h.served (updBeginCmd_form c)) <| .iteReply (h.served (updDataCmd_form c)) <|
    .iteReply (h.served (updDramCmd_form c)) <| .iteReply (h.served (updEndCmd_form c)) <|
    .iteReply (h.served (updAbortCmd_form c)) <| .iteReply (h.served rollbackAdvCmd_form) <|
    .iteReply (h.served (setPreferCmd_form c)) <| .iteReply (h.served nvmIdCmd_form) <|
    .iteReply (h.served (nvmReadCmd_form c)) <| .iteReply (h.served (nvmEraseCmd_form c)) <|
    .iteReply (h.served (nvmProgCmd_form c)) <| .iteReply (h.served fwdEnd_form) h

theorem MemOk.fwdState (h : MemOk s) : MemOk (Machine.fwdState s) :=
  .ite (h.mailboxRow fwdEnd_form) <| .ite (h.onDev_same (by simp [fwdSend])) h

theorem MemOk.mgmtReqState (h : MemOk s) {ok : Bool} : MemOk (Machine.mgmtReqState ok s) := by
  unfold Machine.mgmtReqState
  refine .ite h ?_
  cases hp : Machine.takePacket s.dev 3 with
  | none => exact h
  | some z =>
    have hz : MemOk { s with dev := z.2 } := ⟨h.flash, h.dev.takePacket hp⟩
    exact hz.runCommand.onDev (.forEach (fun _ _ h => h.ownPacket) _)

theorem MemOk.sysexRequest (h : MemOk s) {ok : Bool} {n : Nat} {req : List Byte} : MemOk (Machine.sysexRequest ok n req s) :=
  .ite (.ite (h.onDev (·.sysexAnswer)) (h.onDev_same (by simp [fwdSend]))) (h.runCommand.onDev (·.sysexAnswer))

theorem MemOk.sysexMessage (h : MemOk s) {ok : Bool} {n : Nat} {msg : List Byte} : MemOk (Machine.sysexMessage ok n msg s) := by
  refine .ite (.ite (h.onDev (·.sysexAnswer)) h) (.ite h ?_)
  split
  · exact .ite h.sysexRequest h
  · exact h

theorem MemOk.sysexDoneState (h : MemOk s) {i : Nat} {ok : Bool} : MemOk (Machine.sysexDoneState i ok s) := by
  have hd : MemOk (s.onDev Machine.deferredFirst) := h.onDev (·.deferredFirst)
  unfold Machine.sysexDoneState
  split
  · exact h
  · exact (MemOk.ite hd.sysexMessage hd).onDev (·.freeBuf.finishTask)

/-! ### The test access port (R570, R571) -/

theorem MemOk.jtagLoad (h : MemOk s) {op : Nat} : MemOk (Machine.jtagLoad op s) := by
  have hj : MemOk { s with prot := { s.prot with jtag := tapInstr op } } := ⟨h.flash, h.dev⟩
  exact .ite hj.resetState hj

theorem MemOk.tapScan (h : MemOk s) : MemOk (Machine.tapScan s) := by
  refine ⟨?_, h.dev.upd rfl⟩
  unfold Machine.tapScan
  dsimp only
  split
  · exact h.flash
  · exact h.flash

theorem MemOk.tapCommand (h : MemOk s) {op : Nat} : MemOk (Machine.tapCommand op s) := .ite h.jtagLoad.tapScan h.jtagLoad

/-! ### Every command -/

theorem MemOk.devNext (h : MemOk s) {f : Dev → Dev} {t : State} (ht : Machine.devNext s f = .next t)
    (hf : StoresOk s.dev → StoresOk (f s.dev)) : MemOk t := by
  cases ht
  exact h.onDev hf

theorem MemOk.hostNext (h : MemOk s) {f : Dev → Dev} {t : State} (ht : Machine.hostNext s f = .next t)
    (hf : StoresOk s.dev → StoresOk (f s.dev)) : MemOk t := by
  cases ht
  exact h.asHost (fun h => h.onDev hf)

theorem MemOk.of_next {t u : State} (ht : (.next u : Host.Outcome State Fault Refusal) = .next t) (hu : MemOk u) : MemOk t := by
  cases ht
  exact hu

/-- A row that is the host's for some channels and the firmware's for the others. -/
theorem MemOk.hostOrDev (h : MemOk s) {f : Dev → Dev} {t : State} {p : Prop} [Decidable p]
    (ht : (if p then Machine.hostNext s f else Machine.devNext s f) = .next t) (hf : StoresOk s.dev → StoresOk (f s.dev)) : MemOk t := by
  split at ht
  · exact h.hostNext ht hf
  · exact h.devNext ht hf

/-- A row of the firmware's that the test port keeps from acting (R571). -/
theorem MemOk.unlessHeld (h : MemOk s) {f : Dev → Dev} {t : State} {p : Prop} [Decidable p]
    (ht : (if p then .next s else Machine.devNext s f) = .next t) (hf : StoresOk s.dev → StoresOk (f s.dev)) : MemOk t := by
  split at ht
  · exact .of_next ht h
  · exact h.devNext ht hf

/-- Of every command: the stores' form stays. The rows not named leave registers and memories alone. -/
theorem MemOk.exec {c : Instr} {t : State} (hs : MemOk s) (h : Machine.exec c s = .next t) : MemOk t := by
  cases c
  case hostLowHalfWrite => exact hs.devNext h (·.hostLowHalfWriteDev)
  case paramStoreLanding => exact hs.devNext h (·.paramStoreLandingDev)
  case efRelease => exact hs.devNext h (·.efReleaseDev)
  case cfBoundary => exact hs.devNext h (·.cfBoundaryDev)
  case refLost => exact hs.devNext h (·.refLostDev)
  case refValid => exact hs.devNext h (·.refValidDev)
  case clusterFrameDelivered => exact hs.devNext h (·.clusterFrameDeliveredDev)
  case deadlineMiss => exact hs.devNext h (·.deadlineMissDev)
  case clusterFlush => exact hs.devNext h (·.clusterFlushDev)
  case guardStepDown => exact hs.devNext h (·.guardStepDownDev)
  case vidWindowEnd => exact hs.devNext h (·.vidWindowEndDev)
  case vidSettleTimeout => exact hs.devNext h (·.vidSettleTimeoutDev)
  case slackMinClear => exact hs.hostNext h (·.slackMinClearDev)
  case nvmReset => exact hs.devNext h (·.nvmResetDev)
  case foregroundCalibrationStart => exact hs.devNext h (·.foregroundCalibrationStartDev)
  case foregroundCalibrationDone => exact hs.devNext h (·.foregroundCalibrationDoneDev)
  case hostPost => exact hs.hostNext h (·.hostPostRow)
  case mgmtPost => exact hs.devNext h (·.mgmtPostRow)
  case almArbitrationRound => exact hs.devNext h (·.almArbitrationRoundDev)
  case ephemerisDue => exact hs.devNext h (·.ephemerisDueDev)
  case hostCancel => exact hs.hostNext h (·.hostCancelDev)
  case flush => exact hs.hostNext h (·.flushDev)
  case almDoneRead => exact hs.devNext h (·.almDoneReadDev)
  case noteOn => exact hs.devNext h (·.noteOnDev)
  case deferredNoteArm => exact hs.devNext h (·.deferredNoteArmDev)
  case noteOff => exact hs.devNext h (·.noteOffDev)
  case polyPressure => exact hs.devNext h (·.polyPressureDev)
  case cc => exact hs.devNext h (·.ccDev)
  case bankSelect => exact hs.devNext h (·.bankSelectDev)
  case sustain => exact hs.devNext h (·.sustainDev)
  case sostenuto => exact hs.devNext h (·.sostenutoDev)
  case allSoundOff => exact hs.devNext h (·.allSoundOffDev)
  case resetAllControllers => exact hs.devNext h (·.resetAllControllersDev)
  case allNotesOff => exact hs.devNext h (·.allNotesOffDev)
  case program => exact hs.devNext h (·.programDev)
  case pitchBend => exact hs.devNext h (·.pitchBendDev)
  case chanPressure => exact hs.devNext h (·.chanPressureDev)
  case paramSet => exact hs.devNext h (·.paramSetDev)
  case voiceKill => exact hs.devNext h (·.voiceKillDev)
  case timerFire => exact hs.devNext h (·.timerFireDev)
  case user => exact hs.devNext h (·.userDev)
  case firstSample => exact hs.devNext h (·.firstSampleDev)
  case stealFadeEnd => exact hs.devNext h (·.stealFadeEndDev)
  case quenchEnd => exact hs.devNext h (·.quenchEndDev)
  case env0Complete => exact hs.devNext h (·.env0CompleteDev)
  case sampleEndVoice => exact hs.devNext h (·.sampleEndVoiceDev)
  case cacheLineFill => exact hs.devNext h (·.cacheLineFillDev)
  case waveCacheInval => exact hs.hostNext h (·.waveCacheInvalDev)
  case glfoRestart => exact hs.hostNext h (·.glfoRestartDev)
  case adcOverload => exact hs.devNext h (·.adcOverloadDev)
  case biasFault => exact hs.devNext h (·.biasFaultDev)
  case swap => exact hs.hostNext h (·.swapDev)
  case swapAll => exact hs.hostNext h (·.swapAllDev)
  case skimmerCoefWrite => exact hs.hostNext h (·.skimmerCoefWriteDev)
  case skimmerReset => exact hs.hostNext h (·.skmCtlWrite)
  case synchronisingReset => exact hs.devNext h (·.synchronisingResetDev)
  case temperatureUpdate => exact hs.devNext h (·.temperatureUpdateDev)
  case backgroundRunStart => exact hs.devNext h (·.backgroundRunStartDev)
  case backgroundRunComplete => exact hs.devNext h (·.backgroundRunCompleteDev)
  case calReq => exact hs.hostNext h (·.calReqDev)
  case outputEnable => exact hs.hostNext h (·.outputEnableDev)
  case outputDisable => exact hs.hostNext h (·.outputDisableDev)
  case rangeChange => exact hs.hostNext h (·.rangeChangeDev)
  case outputFault => exact hs.devNext h (·.outputFaultDev)
  case faultRetry => exact hs.devNext h (·.faultRetryDev)
  case outFaultClear => exact hs.hostNext h (·.outFaultClearDev)
  case playerGo => exact hs.hostNext h (·.playerGoDev)
  case playerStop => exact hs.hostNext h (·.playerStopDev)
  case playerTrigger => exact hs.devNext h (·.playerTriggerDev)
  case tdmPortEnable => exact hs.hostNext h (·.tdmPortEnableDev)
  case tdmPortDisable => exact hs.hostNext h (·.tdmPortDisableDev)
  case tdmiFrame => exact hs.devNext h (·.tdmiFrameDev)
  case tdmSlip => exact hs.devNext h (·.tdmSlipDev)
  case tdmLoss => exact hs.devNext h (·.tdmLossDev)
  case modeChange => exact hs.hostNext h (·.modeChangeDev)
  case divWrite => exact hs.hostNext h (·.divWriteDev)
  case rxFlush => exact hs.hostNext h (·.rxFlushDev)
  case txFlush => exact hs.hostNext h (·.txFlushDev)
  case txBreak => exact hs.hostNext h (·.txBreakDev)
  case txBreakClear => exact hs.hostNext h (·.txBreakClearDev)
  case characterReceived => exact hs.devNext h (·.characterReceivedDev)
  case breakDetected => exact hs.devNext h (·.breakDev)
  case lineDead => exact hs.devNext h (·.lineDeadDev)
  case serTxWrite => exact hs.hostNext h (·.serTxWriteDev)
  case serRxRead => exact hs.devNext h (·.serRxReadDev)
  case parserByte => exact hs.devNext h (·.parserByteDev)
  case sysexGapTimeout => exact hs.devNext h (·.sysexGapTimeoutDev)
  case winAddrWrite => exact hs.hostNext h (·.winAddrWriteDev)
  case winDataWrite => exact hs.hostNext h (·.winDataWriteDev)
  case windowFill => exact hs.devNext h (·.windowFillDev)
  case windowDrain => exact hs.devNext h (·.windowDrainDev)
  case winDirChange => exact hs.devNext h (·.winDirChangeDev)
  case dramReady => exact hs.devNext h (·.dramReadyDev)
  case moverDone => exact hs.devNext h (·.moverDoneDev)
  case patrolBorrow => exact hs.devNext h (·.patrolBorrowDev)
  case patrolRestore => exact hs.devNext h (·.patrolRestoreDev)
  case patrolAbort => exact hs.devNext h (·.patrolAbortDev)
  case chrTick => exact hs.devNext h (·.chrTickDev)
  case chrCapture => exact hs.devNext h (·.chrCaptureDev)
  case captureSw => exact hs.hostNext h (·.captureSwDev)
  case chrCapRead => exact hs.devNext h (·.chrCapReadDev)
  case chrStart => exact hs.hostNext h (·.chrStartDev)
  case chrStop => exact hs.hostNext h (·.chrStopDev)
  case chrClear => exact hs.hostNext h (·.chrClearDev)
  case reloadWrite => exact hs.hostNext h (·.reloadWriteDev)
  case eventBusDelivery => exact hs.devNext h (·.eventBusDeliveryDev)
  case evcStart => exact hs.hostNext h (·.evcStartDev)
  case evcStop => exact hs.hostNext h (·.evcStopDev)
  case evcClearAll => exact hs.hostNext h (·.evcClearAllDev)
  case evcClr => exact hs.hostNext h (·.evcClrDev)
  case evcFreeze => exact hs.hostNext h (·.evcFreezeDev)
  case powerBatch => exact hs.hostNext h (·.powerBatchDev)
  case agentAnswer => exact hs.devNext h (·.agentAnswerDev)
  case agentDelayTimeout => exact hs.devNext h (·.agentDelayTimeoutDev)
  case powerNoAnswer => exact hs.devNext h (·.powerNoAnswerDev)
  case domainEntry => exact hs.devNext h (·.domainEntryDev)
  case wakeStepTimeout => exact hs.devNext h (·.wakeStepTimeoutDev)
  case padRelease => exact hs.hostNext h (·.padReleaseDev)
  case wakeSource => exact hs.devNext h (·.wakeSourceDev)
  case logEntryWrite => exact hs.devNext h (·.logEntryWriteDev)
  case mailboxResponse => exact hs.devNext h (·.mailboxResponseDev)
  case mgtFaultClear => exact hs.hostNext h (·.mgtFaultClearDev)
  case linkEnable => exact hs.hostNext h (·.linkEnableDev)
  case linkDisable => exact hs.hostNext h (·.linkDisableDev)
  case outboundSuperframe => exact hs.devNext h (·.outboundSuperframeDev)
  case inboundSuperframe => exact hs.devNext h (·.inboundSuperframeDev)
  case directiveArm => exact hs.devNext h (·.directiveArmDev)
  case directiveState => exact hs.devNext h (·.directiveStateDev)
  case directiveRetrig => exact hs.devNext h (·.directiveRetrigDev)
  case directiveWrite => exact hs.devNext h (·.directiveWriteDev)
  case directiveGlfo => exact hs.devNext h (·.directiveGlfoDev)
  case taskPacket => exact hs.devNext h (·.taskPacketDev)
  case logPacket => exact hs.devNext h (·.logPacketDev)
  case mgmtRsp => exact hs.devNext h (·.mgmtRspDev)
  case laneNoSignal => exact hs.devNext h (·.laneNoSignalDev)
  case registerWrite => exact .of_next h (.ite hs.regWrite hs)
  case lock => exact .of_next h (hs.asHost fun hs => .ite hs.lockWrite hs)
  case hostLowHalfRead => exact .of_next h hs.hostLowHalfReadState
  case hostHighHalfRead => exact .of_next h hs.hostHighHalfReadState
  case hostHighHalfWrite => exact .of_next h hs.hostHighHalfWriteState
  case aonResponderRead => exact hs.devNext h (·.whenNot (·.responderRead))
  case aonWake => exact .of_next h (.ite (hs.onDev (·.aonWakeDev)) hs)
  case paramStoreHostWrite => exact hs.hostNext h (·.frame (by simp))
  case engineEnable => exact .of_next h (hs.asHost fun hs => .ite hs.frameCtlState hs)
  case engineDisable => exact hs.hostNext h (·.when (·.frameCtlWrite))
  case vidSettled => exact hs.unlessHeld h (·.frame (by simp))
  case sensorMeasurement => exact hs.unlessHeld h (·.sensorMeasurementDev)
  case powerOnReset => exact .of_next h hs.resetState
  case resetPin => exact .of_next h hs.resetPinState
  case softwareReset => exact .of_next h (.ite hs.softwareResetState hs)
  case watchdogReset | fallbackReset | updateReset => exact .of_next h (.ite hs.resetState hs)
  case strapLatch => exact .of_next h (.ite (hs.onDev (·.strapLatchDev)) hs)
  case nvmResetWaitEnd => exact .of_next h hs.nvmResetWaitEndState
  case firmwareStart => exact .of_next h hs.firmwareStartState
  case reginitWrite => exact .of_next h hs.reginitWriteState
  case reginitSet => exact .of_next h hs.reginitSetState
  case reginitClear => exact .of_next h hs.reginitClearState
  case reginitPoll => exact .of_next h hs.reginitPollState
  case reginitPollTimeout => exact .of_next h (.ite hs.listFails hs)
  case reginitDelay => exact .of_next h hs.reginitDelayState
  case reginitDelayEnd => exact .of_next h (.ite hs.listNext hs)
  case reginitFill => exact .of_next h hs.reginitFillState
  case waveStreamDone => exact .of_next h hs.waveStreamDoneState
  case engineStage => exact .of_next h hs.engineStageState
  case continueBoot => exact .of_next h (hs.asHost (·.continueState))
  case retry => exact .of_next h (hs.asHost (·.retryState))
  case sysexDone => exact .of_next h hs.sysexDoneState
  case winDataRead => exact hs.devNext h (·.when (·.readEffect))
  case winAbort => exact hs.hostNext h (·.when (·.winCtlWrite))
  case moverGo => exact hs.hostOrDev h (·.moverGoDev)
  case moverAbort => exact hs.hostOrDev h (·.moverAbortDev)
  case moverBurst => exact .of_next h hs.moverBurstState
  case domainWake => exact .of_next h hs.domainWakeState.streamFront
  case logMirrorWrite => exact .of_next h hs.logMirrorWriteState
  case getInfo => exact .of_next h (hs.mailboxRow getInfoCmd_form)
  case logAdd => exact .of_next h (hs.mailboxRow logAddCmd_form)
  case logSync => exact .of_next h (hs.mailboxRow (logSyncCmd_form _))
  case updBegin => exact .of_next h (hs.mailboxRow (updBeginCmd_form _))
  case updData => exact .of_next h (hs.mailboxRow (updDataCmd_form _))
  case updDram => exact .of_next h (hs.mailboxRow (updDramCmd_form _))
  case updEnd => exact .of_next h (hs.mailboxRow (updEndCmd_form _))
  case updAbort => exact .of_next h (hs.mailboxRow (updAbortCmd_form _))
  case updateSessionTimeout => exact .of_next h hs.abortSession
  case rollbackAdv => exact .of_next h (hs.mailboxRow rollbackAdvCmd_form)
  case setPrefer => exact .of_next h (hs.mailboxRow (setPreferCmd_form _))
  case nvmId => exact .of_next h (hs.mailboxRow nvmIdCmd_form)
  case nvmRead => exact .of_next h (hs.mailboxRow (nvmReadCmd_form _))
  case nvmErase => exact .of_next h (hs.mailboxRow (nvmEraseCmd_form _))
  case nvmProg => exact .of_next h (hs.mailboxRow (nvmProgCmd_form _))
  case fwd => exact .of_next h hs.fwdState
  case mgmtReq => exact .of_next h hs.mgmtReqState
  case extest | samplePreload | clamp | highz | bypass => exact .of_next h hs.tapCommand
  case testLogicReset => exact .of_next h hs.jtagLoad
  all_goals exact hs.devNext h (·.frame (by simp))

theorem MemOk.step {t : State} (hs : MemOk s) (h : Machine.step s = .next t) : MemOk t := by
  unfold Machine.step at h
  split at h
  · exact .of_next h ⟨hs.startUpTick.flash, hs.startUpTick.dev.arbEnds.edgeTick⟩
  next c r _ => exact MemOk.exec (s := { s with pending := r }) ⟨hs.flash, hs.dev⟩ h

/-- Settles O60: what every command makes of the stores. -/
theorem memoryFormIsKeptByEveryStep : Obligations.MemoryFormIsKeptByEveryStep := fun s t hs h =>
  (memory_wf_iff t).mpr (((memory_wf_iff s).mp hs).step h)

end Sys2Proof.Machine
end

section
/-! SUPPORT. Steps that change one serial port and the registers of a list (R371 to R394). -/

namespace Sys2Proof.Machine

open Sys2Proof

/-! ### One port changed, with registers of a list -/

/-- Of the registers only those of the list may change, and of the ports port n alone, by f. -/
structure PortStep (l : List Nat) (n : Nat) (f : SerPort → SerPort) (d e : Dev) : Prop where
  regs : RegsOnly l d e
  ports : e.ser.ports = upd d.ser.ports n f

theorem upd_id {α : Type} (l : List α) (i : Nat) : upd l i (fun x => x) = l :=
  List.modify_id i l

theorem upd_upd {α : Type} (l : List α) (i : Nat) (f g : α → α) : upd (upd l i f) i g = upd l i (fun x => g (f x)) := by
  simp [upd, List.modify_modify_eq, Function.comp_def]

namespace PortStep

variable {l : List Nat} {n : Nat} {f g : SerPort → SerPort} {d e u : Dev}

theorem refl (l : List Nat) (n : Nat) (d : Dev) : PortStep l n (fun p => p) d d := ⟨.refl l d, (upd_id ..).symm⟩

theorem trans (h : PortStep l n f d e) (k : PortStep l n g e u) : PortStep l n (fun p => g (f p)) d u :=
  ⟨h.regs.trans k.regs, by rw [k.ports, h.ports, upd_upd]⟩

theorem of_regs (h : RegsOnly l d e) (hs : e.ser = d.ser) : PortStep l n (fun p => p) d e := ⟨h, by rw [hs, upd_id]⟩

theorem modSer (l : List Nat) (n : Nat) (f : SerPort → SerPort) (d : Dev) : PortStep l n f d (d.modSer n f) := ⟨.of_regs rfl, rfl⟩

/-- A step may be taken or left by what the port holds. -/
theorem cases {c : Prop} [Decidable c] (h : c → PortStep l n f d e) (k : ¬c → PortStep l n g d e) :
    PortStep l n (if c then f else g) d e := by
  split
  next hc => exact h hc
  next hc => exact k hc

theorem ite {c : Prop} [Decidable c] (h : PortStep l n f d e) (k : PortStep l n g d u) :
    PortStep l n (if c then f else g) d (if c then e else u) := by split <;> assumption

/-- The port's change read at the port as it was. -/
theorem congr (h : PortStep l n f d e) (hfg : f (d.ser1 n) = g (d.ser1 n)) : PortStep l n g d e :=
  ⟨h.regs, by rw [h.ports, upd_eq_const _ _ f SerPort.reset, upd_eq_const _ _ g SerPort.reset]; simp only [Dev.ser1] at hfg; rw [hfg]⟩

theorem length (h : PortStep l n f d e) : e.ser.ports.length = d.ser.ports.length := by rw [h.ports, upd_length]

theorem ser1 (h : PortStep l n f d e) (hn : n < d.ser.ports.length) : e.ser1 n = f (d.ser1 n) := by
  rw [Dev.ser1, h.ports]
  exact (at_upd _ _ _ _ _ hn).trans (if_pos rfl)

/-- A port beyond the four reads as at reset, before and after. -/
theorem ser1_beyond (h : PortStep l n f d e) (hn : ¬n < d.ser.ports.length) : e.ser1 n = SerPort.reset ∧ d.ser1 n = SerPort.reset := by
  constructor
  · by_contra hr
    exact hn (h.length ▸ Dev.lt_of_ser1 hr)
  · by_contra hr
    exact hn (Dev.lt_of_ser1 hr)

/-- A change that leaves a port at reset as it is needs no such port. -/
theorem ser1_of_reset (h : PortStep l n f d e) (hf : f SerPort.reset = SerPort.reset) : e.ser1 n = f (d.ser1 n) := by
  by_cases hn : n < d.ser.ports.length
  · exact h.ser1 hn
  · obtain ⟨he, hd⟩ := h.ser1_beyond hn
    rw [he, hd, hf]

theorem others {s : State} (h : PortStep l n f s.dev e) : OtherPorts s e n :=
  ⟨h.length, fun j hj => by rw [Dev.ser1, h.ports]; exact at_upd_ne _ _ _ hj⟩

end PortStep

/-! ### The transmitter kicked (R374, R383, R394, R517) -/

/-- The waiting byte b begun, under settings ctl and div. -/
def SerPort.begun (ctl div : Word) (mode now : Nat) (b : Byte) (r : List Byte) (p : SerPort) : SerPort :=
  SerPort.fill { p with
    shifter := some b, tx := r, txCtl := ctl, txDiv := div
    armed := p.armed || (p.inChar && mode == serIr), inChar := p.inChar && mode != serIr
    line := if mode = serIr then some (now, false) else p.line }

/-- The port kicked, its FIFO filled before. -/
def SerPort.kickFilled (ctl div : Word) (mode now : Nat) (p : SerPort) : SerPort :=
  if p.shifter.isSome || p.txBreak || p.txGap || mode == serOff then p
  else match p.tx with
    | [] => p
    | b :: r => p.begun ctl div mode now b r

/-- The port kicked. -/
def SerPort.kick (ctl div : Word) (mode now : Nat) (p : SerPort) : SerPort := p.fill.kickFilled ctl div mode now

/-- The port of d kicked. -/
def Dev.kicked (d : Dev) (n : Nat) (p : SerPort) : SerPort := p.kick (d.reg (Reg.SER_CTL n)) (d.reg (Reg.SER_DIV n)) (d.serMode n) d.now

theorem SerPort.fill_of_nil {p : SerPort} (h : p.reply = []) : p.fill = p := by
  cases p
  simp_all [SerPort.fill]

theorem SerPort.kick_of_nil {p : SerPort} (ctl div : Word) (mode now : Nat) (h : p.reply = []) :
    p.kick ctl div mode now = p.kickFilled ctl div mode now := by rw [SerPort.kick, SerPort.fill_of_nil h]

theorem SerPort.kickFilled_waits {p : SerPort} (ctl div : Word) (mode now : Nat)
    (h : p.shifter.isSome = true ∨ p.txBreak = true ∨ p.txGap = true ∨ mode = 0 ∨ p.tx = []) : p.kickFilled ctl div mode now = p := by
  unfold SerPort.kickFilled
  split
  · rfl
  next hbusy =>
    obtain h | h | h | h | h := h <;> simp_all

theorem SerPort.kickFilled_begins {p : SerPort} (ctl div : Word) {mode : Nat} (now : Nat) {b : Byte} {r : List Byte}
    (hs : p.shifter = none) (hb : p.txBreak = false) (hg : p.txGap = false) (hm : mode ≠ 0) (ht : p.tx = b :: r) :
    p.kickFilled ctl div mode now = p.begun ctl div mode now b r := by
  unfold SerPort.kickFilled
  rw [if_neg (by simp [hs, hb, hg, hm]), ht]

/-- A kick concerns the transmitter alone, but for a receiver that is inside a character. -/
theorem SerPort.kick_keeps (ctl div : Word) (mode now : Nat) (p : SerPort) :
    (p.kick ctl div mode now).rx = p.rx ∧ (p.kick ctl div mode now).parser = p.parser ∧
      (p.kick ctl div mode now).txBreak = p.txBreak ∧ (p.kick ctl div mode now).txGap = p.txGap ∧
      (p.kick ctl div mode now).needHigh = p.needHigh ∧ (p.inChar = false → (p.kick ctl div mode now).inChar = false ∧
        (p.kick ctl div mode now).armed = p.armed) := by
  unfold SerPort.kick SerPort.kickFilled SerPort.begun
  split
  · simp [SerPort.fill]
  · split
    · simp [SerPort.fill]
    · simp +contextual [SerPort.fill]

theorem txKick_step (l : List Nat) (n : Nat) (d : Dev) : PortStep l n (d.kicked n) d (txKick n d) := by
  unfold txKick Dev.kicked SerPort.kick
  dsimp only
  have hfill := PortStep.modSer l n SerPort.fill d
  rw [hfill.ser1_of_reset rfl, show (d.modSer n SerPort.fill).serMode n = d.serMode n from rfl]
  split
  next hbusy => exact hfill.congr (by rw [SerPort.kickFilled, if_pos hbusy])
  next hfree =>
    split
    next ht => exact hfill.congr (by rw [SerPort.kickFilled, if_neg hfree, ht])
    next b r ht => exact (hfill.trans (.modSer l n _ _)).congr (by rw [SerPort.kickFilled, if_neg hfree, ht]; rfl)

end Sys2Proof.Machine
end

section
/-! PROOF. A port's settings, its flushes and its break (R373, R374, R382, R383, R386, R392). -/

namespace Sys2Proof.Machine

open Sys2Proof

/-! ### A parser's reset (R386, R391) -/

/-- The registers that a parser's reset may write. -/
def parserRegs (n : Nat) : List Nat := [Reg.SER_IRQ_STAT n, Reg.SER_CNT_SYSEX_ABORT, Reg.MGT_CNT_LOG_DROP]

/-- The port with its parser reset. -/
def SerPort.parserReset (p : SerPort) : SerPort :=
  { p with parser := { p.parser with
      status := 0, data := [], skip := 0, sysex := none, ignoring := p.parser.ignoring || p.parser.sysex.isSome } }

theorem serIrq_step {l : List Nat} {n : Nat} (b : Nat) (d : Dev) (h : Reg.SER_IRQ_STAT n ∈ l) :
    PortStep l n (fun p => p) d (serIrq n b d) := .of_regs (setIrq_regs d Dom.serial b h) (by simp)

theorem logEv_step {l : List Nat} (n : Nat) (source code sev : Nat) (data : List Nat) (d : Dev) (h : Reg.MGT_CNT_LOG_DROP ∈ l) :
    PortStep l n (fun p => p) d (d.logEv source code sev data) :=
  .of_regs (fun a ha => Dev.reg_logEv_ne _ _ _ _ _ _ fun hd => ha (hd ▸ h)) (by simp)

theorem sysexAbort_step (n : Nat) (d : Dev) :
    PortStep (parserRegs n) n (fun p => if p.parser.sysex.isSome then
      { p with parser := { p.parser with sysex := none, data := [], ignoring := true } } else p) d (sysexAbort n 3 d) := by
  unfold sysexAbort
  split
  next h => exact (PortStep.refl _ n d).congr (by rw [h]; rfl)
  next x h =>
    have hfreed (e : Dev) : PortStep (parserRegs n) n (fun p => p) e (freeBuf x.buf e) := ⟨.of_regs (by simp), (upd_id ..).symm⟩
    have hcount (e : Dev) : PortStep (parserRegs n) n (fun p => p) e (e.bump Reg.SER_CNT_SYSEX_ABORT) :=
      .of_regs (.bump e (by simp [parserRegs])) (by simp)
    exact (((((PortStep.modSer (parserRegs n) n _ d).trans (hfreed _)).trans (serIrq_step 7 _ (by simp [parserRegs]))).trans
      (hcount _)).trans (logEv_step n _ _ _ _ _ (by simp [parserRegs]))).congr (by rw [h]; rfl)

theorem parserReset_step (n : Nat) (d : Dev) : PortStep (parserRegs n) n SerPort.parserReset d (parserReset n d) := by
  refine ((sysexAbort_step n d).trans (.modSer _ n _ _)).congr ?_
  cases h : (d.ser1 n).parser.sysex <;> simp [SerPort.parserReset, h]

/-! ### The break (R383) -/

/-- The port with its break as TX_BREAK gives it. -/
def SerPort.breakSet (on : Bool) (p : SerPort) : SerPort :=
  if on then (if p.shifter.isSome then p else { p with txBreak := true, txGap := false })
  else if p.txBreak then { p with txBreak := false, txGap := true } else p

theorem txBreakSet_step (l : List Nat) (n : Nat) (on : Bool) (d : Dev) : PortStep l n (SerPort.breakSet on) d (txBreakSet n on d) := by
  unfold txBreakSet
  dsimp only
  split_ifs with hon hs hb
  · exact (PortStep.refl l n d).congr (by simp [SerPort.breakSet, hon, hs])
  · exact (PortStep.modSer l n _ d).congr (by simp [SerPort.breakSet, hon, hs])
  · exact (PortStep.modSer l n _ d).congr (by simp [SerPort.breakSet, hon, hb])
  · exact (PortStep.refl l n d).congr (by simp [SerPort.breakSet, hon, hb])

/-! ### SER_CTL written (R374, R382, R392) -/

/-- The port whose receiver has abandoned its character. -/
def SerPort.abandoned (p : SerPort) : SerPort := { p with inChar := false, armed := false, needHigh := 2, line := none }

/-- The port under a write v of its control register, which held w, but for its break. -/
def SerPort.settled (w v : Word) (p : SerPort) : SerPort :=
  let p := if v.getLsbD 12 then { p with rx := [] } else p
  let p := if v.getLsbD 13 then { p with tx := [] } else p
  let p := if (w ^^^ v) &&& lineFields = 0 then p else p.abandoned
  if w.bits 1 0 = v.bits 1 0 then p else p.parserReset

/-- The port under a write, before it is kicked. -/
def SerPort.written (w v : Word) (p : SerPort) : SerPort := (p.settled w v).breakSet (v.getLsbD 11)

/-- A write of SER_CTL is taken: the port is ON, and IR mode is not below its least divisor. -/
def CtlTaken (d : Dev) (n : Nat) (v : Word) : Prop :=
  n < 4 ∧ d.isOn Dom.serial = true ∧ (v.bits 1 0 = 3 → irMin d.fam44 ≤ d.fld (Reg.SER_DIV n) 15 0)

theorem PortStep.maybe {l : List Nat} {n : Nat} {g : SerPort → SerPort} {e u : Dev} (c : Prop) [Decidable c] (h : PortStep l n g e u) :
    PortStep l n (fun p => if c then g p else p) e (if c then u else e) := by
  by_cases hc : c
  · simpa only [if_pos hc] using h
  · simpa only [if_neg hc] using PortStep.refl l n e

theorem PortStep.unless {l : List Nat} {n : Nat} {g : SerPort → SerPort} {e u : Dev} (c : Prop) [Decidable c] (h : PortStep l n g e u) :
    PortStep l n (fun p => if c then p else g p) e (if c then e else u) := by
  by_cases hc : c
  · simpa only [if_pos hc] using PortStep.refl l n e
  · simpa only [if_neg hc] using h

/-- A write that is taken: the register holds it, the port changes by it, and the transmitter is kicked. -/
theorem serCtlWrite_step {d : Dev} {n : Nat} {v : Word} (h : CtlTaken d n v) :
    ∃ e : Dev, PortStep (parserRegs n) n (SerPort.written (d.reg (Reg.SER_CTL n)) v) (d.putReg (Reg.SER_CTL n) (v &&& 0xFFF)) e ∧
      serCtlWrite n v d = txKick n e := by
  obtain ⟨hn, hon, hir⟩ := h
  have hdiv : ¬(v.bits 1 0 = serIr ∧ d.fld (Reg.SER_DIV n) 15 0 < irMin d.fam44) := fun ⟨hm, hlt⟩ => by have := hir hm; omega
  unfold serCtlWrite
  rw [if_neg (by simp [hn, hon]), if_neg hdiv]
  have hrx (e : Dev) := (PortStep.modSer (parserRegs n) n (fun p => { p with rx := [] }) e).maybe (v.getLsbD 12 = true)
  have htx (e : Dev) := (PortStep.modSer (parserRegs n) n (fun p => { p with tx := [] }) e).maybe (v.getLsbD 13 = true)
  have habandon (e : Dev) := (PortStep.modSer (parserRegs n) n SerPort.abandoned e).unless
    ((d.reg (Reg.SER_CTL n) ^^^ v) &&& lineFields = 0)
  have hreset (e : Dev) := (parserReset_step n e).unless ((d.reg (Reg.SER_CTL n)).bits 1 0 = v.bits 1 0)
  exact ⟨_, ((((hrx _).trans (htx _)).trans (habandon _)).trans (hreset _)).trans (txBreakSet_step _ n (v.getLsbD 11) _), rfl⟩

end Sys2Proof.Machine
end

section
/-! PROOF. The statement on serial settings and flushes (R373, R374, R382, R383, R386, R392). -/

namespace Sys2Proof.Machine

open Sys2Proof

/-! ### What a write of SER_CTL leaves (R374, R382) -/

/-- The registers that a write of SER_CTL may change. -/
def ctlRegs (n : Nat) : List Nat := [Reg.SER_CTL n, Reg.SER_IRQ_STAT n, Reg.SER_CNT_SYSEX_ABORT, Reg.MGT_CNT_LOG_DROP]

theorem ser_ctl_not_parserReg (n : Nat) : Reg.SER_CTL n ∉ parserRegs n := by
  simp only [parserRegs, Reg.SER_CTL, Reg.SER_IRQ_STAT, Reg.SER_CNT_SYSEX_ABORT, Reg.MGT_CNT_LOG_DROP, List.mem_cons,
    List.not_mem_nil, or_false, not_or]
  omega

/-- Of a device only registers, the management unit and the serial unit differ. -/
def SerialAlone (d e : Dev) : Prop := e = { d with regs := e.regs, mgt := e.mgt, ser := e.ser }

theorem serCtlWrite_alone (n : Nat) (v : Word) (d : Dev) : SerialAlone d (serCtlWrite n v d) := by
  have hkeeps := serCtlWrite_keeps n v d
  unfold SerialAlone
  generalize serCtlWrite n v d = e at hkeeps
  cases d
  cases e
  simp_all

/-- The whole frame of a write that is taken. -/
def CtlFrame (s : State) (n : Nat) (v : Word) (d : Dev) : Prop :=
  d.reg (Reg.SER_CTL n) = v &&& 0xFFF ∧ OtherPorts s d n ∧ RegsKept s d (ctlRegs n) ∧
    d = { s.dev with regs := d.regs, mgt := d.mgt, ser := d.ser }

theorem putReg_ser (d : Dev) (a : Nat) (w : Word) : (d.putReg a w).ser = d.ser := rfl

theorem serCtlWrite_frame {s : State} {n : Nat} {v : Word} (h : CtlTaken s.dev n v) : CtlFrame s n v (serCtlWrite n v s.dev) := by
  obtain ⟨e, he, hw⟩ := serCtlWrite_step h
  have hall := he.trans (txKick_step _ n e)
  rw [← hw] at hall
  refine ⟨(hall.regs _ (ser_ctl_not_parserReg n)).trans (Dev.reg_putReg_same ..), ⟨hall.length, fun j hj => ?_⟩, fun a ha => ?_,
    serCtlWrite_alone n v s.dev⟩
  · rw [Dev.ser1, hall.ports]
    exact at_upd_ne _ _ _ hj
  · simp only [ctlRegs, List.mem_cons, List.not_mem_nil, or_false, not_or] at ha
    obtain ⟨hctl, hrest⟩ := ha
    exact (hall.regs a (by simpa [parserRegs] using hrest)).trans (Dev.reg_putReg_ne _ _ _ _ hctl)

/-- The port behind a write that is taken: as written, and kicked; beyond the four ports all reads as at reset. -/
theorem serCtlWrite_ser1 {d : Dev} {n : Nat} {v : Word} (h : CtlTaken d n v) (P : SerPort → SerPort → Prop)
    (hreset : ¬n < d.ser.ports.length → P SerPort.reset SerPort.reset)
    (hkick : ∀ e : Dev, P (d.ser1 n) (e.kicked n ((d.ser1 n).written (d.reg (Reg.SER_CTL n)) v))) :
    P (d.ser1 n) ((serCtlWrite n v d).ser1 n) := by
  obtain ⟨e, he, hw⟩ := serCtlWrite_step h
  have hall := he.trans (txKick_step _ n e)
  rw [← hw] at hall
  by_cases hn : n < d.ser.ports.length
  · rw [hall.ser1 hn]
    exact hkick e
  · obtain ⟨hafter, hbefore⟩ := hall.ser1_beyond hn
    rw [hafter, show d.ser1 n = SerPort.reset from hbefore]
    exact hreset hn

/-! ### The written port (R374, R382, R383, R386) -/

theorem SerPort.breakSet_keeps (on : Bool) (p : SerPort) :
    (p.breakSet on).rx = p.rx ∧ (p.breakSet on).tx = p.tx ∧ (p.breakSet on).shifter = p.shifter ∧ (p.breakSet on).reply = p.reply ∧
      (p.breakSet on).inChar = p.inChar ∧ (p.breakSet on).armed = p.armed ∧ (p.breakSet on).needHigh = p.needHigh ∧
      (p.breakSet on).parser = p.parser := by
  unfold SerPort.breakSet
  split_ifs <;> simp

theorem SerPort.settled_transmitter (w v : Word) (p : SerPort) :
    (p.settled w v).tx = (if v.getLsbD 13 then [] else p.tx) ∧ (p.settled w v).shifter = p.shifter ∧
      (p.settled w v).reply = p.reply ∧ (p.settled w v).txBreak = p.txBreak := by
  simp [SerPort.settled, SerPort.abandoned, SerPort.parserReset, apply_ite SerPort.tx, apply_ite SerPort.shifter,
    apply_ite SerPort.reply, apply_ite SerPort.txBreak]

theorem SerPort.settled_rx (w v : Word) (p : SerPort) : (p.settled w v).rx = if v.getLsbD 12 then [] else p.rx := by
  simp [SerPort.settled, SerPort.abandoned, SerPort.parserReset, apply_ite SerPort.rx]

/-- Words that agree on the line's fields have one mode. -/
theorem bits_of_lineFields {w v : Word} (h : (w ^^^ v) &&& lineFields = 0) : w.bits 1 0 = v.bits 1 0 := by
  have hbit (i : Nat) (hi : i < 2) : w.toNat.testBit i = v.toNat.testBit i := by
    have := congrArg (fun x : Word => x.getLsbD i) h
    have hmask : lineFields.getLsbD i = true := by interval_cases i <;> decide
    rw [BitVec.getLsbD_and, hmask] at this
    simpa [BitVec.getLsbD] using this
  have hmod : w.toNat % 2 ^ 2 = v.toNat % 2 ^ 2 := Nat.eq_of_testBit_eq fun i => by
    simp only [Nat.testBit_mod_two_pow]
    by_cases hi : i < 2
    · rw [hbit i hi]
    · simp [hi]
  simpa [Word.bits] using hmod

/-- The port under a changed mode: its receiver has abandoned the character and its parser is reset. -/
theorem SerPort.written_of_mode {w v : Word} (h : w.bits 1 0 ≠ v.bits 1 0) (p : SerPort) :
    (p.written w v).inChar = false ∧ (p.written w v).armed = false ∧ (p.written w v).needHigh = 2 ∧
      (p.written w v).parser = p.parserReset.parser := by
  unfold SerPort.written
  simp only [SerPort.breakSet_keeps]
  have hline : (w ^^^ v) &&& lineFields ≠ 0 := fun hz => h (bits_of_lineFields hz)
  unfold SerPort.settled
  dsimp only
  rw [if_neg h, if_neg hline]
  refine ⟨rfl, rfl, rfl, ?_⟩
  simp [SerPort.abandoned, SerPort.parserReset, apply_ite SerPort.parser]

/-! ### A divisor (R373, R392) -/

theorem rxAbandon_step (l : List Nat) (n : Nat) (d : Dev) : PortStep l n SerPort.abandoned d (rxAbandon n d) := .modSer l n _ d

/-- A rejected write (R373). -/
theorem serReject_only (d : Dev) : (serReject d).flag Reg.SER_GLB_CTL 31 = true ∧
    (serReject d).fld Reg.SER_CNT_REJ 31 0 = min (d.fld Reg.SER_CNT_REJ 31 0 + 1) (2 ^ 32 - 1) ∧
    RegsOnly [Reg.SER_GLB_CTL, Reg.SER_CNT_REJ] d (serReject d) ∧ serReject d = { d with regs := (serReject d).regs } := by
  have hput : RegsOnly [Reg.SER_GLB_CTL] d (d.putFlag Reg.SER_GLB_CTL 31 true) := .putFlag d 31 true (by simp)
  have hflag := Dev.flag_putFlag_same d Reg.SER_GLB_CTL 31 true (by decide)
  refine ⟨?_, ?_, ((hput.mono (by simp)).trans (.bump _ (by simp))), rfl⟩
  · exact ((RegsOnly.bump (l := [Reg.SER_CNT_REJ]) _ (by simp)).flag (by decide) 31).trans hflag
  · exact (Dev.fld_bumpFld _ _ _ _ _ (by decide) (by decide)).trans (by rw [hput.fld (by decide)])

/-- Settles O34: a divisor by its one step, and every write of SER_CTL by the port's steps in their order. -/
theorem serialSettingsAndFlushes : Obligations.SerialSettingsAndFlushes := by
  refine ⟨fun s n v hn hon hturn => ⟨fun hlow => ?divLow, fun hok => ?div⟩, fun s n v hmode hn hon hturn => ⟨fun h3 hlow => ?modeLow, fun hacc => ?mode⟩,
    fun s n v hacc hbit => ?rxFlush, fun s n v hacc hbit hreply => ?txFlush, fun s n v hacc hbit hlen => ?brk, fun s n v hacc hbit => ?clear⟩
  case divLow =>
    rw [yields_hostNext (f := divWriteDev n v) _ rfl hturn, divWriteDev, if_neg (by simp [hn, hon]), if_pos hlow]
    exact serReject_only s.dev
  case div =>
    have hstep := rxAbandon_step [] n (s.dev.putReg (Reg.SER_DIV n) (v &&& 0xFFFF))
    rw [yields_hostNext (f := divWriteDev n v) _ rfl hturn, divWriteDev, if_neg (by simp [hn, hon]), if_neg (Nat.not_lt.2 hok)]
    refine ⟨(hstep.regs _ (by simp)).trans (Dev.reg_putReg_same ..), fun a ha => (hstep.regs a (by simp)).trans ?_, rfl,
      ⟨hstep.length, fun j hj => ?_⟩, hstep.ser1_of_reset rfl⟩
    · exact Dev.reg_putReg_ne _ _ _ _ (by simpa using ha)
    · exact Dev.ser1_modSer_ne _ _ hj
  case modeLow =>
    rw [yields_hostNext (f := modeChangeDev n v) _ rfl hturn, modeChangeDev, if_neg hmode, serCtlWrite, if_neg (by simp [hn, hon]),
      if_pos ⟨h3, hlow⟩]
    exact serReject_only s.dev
  case mode =>
    obtain ⟨-, -, -, hir⟩ := hacc
    rw [yields_hostNext (f := modeChangeDev n v) _ rfl hturn, modeChangeDev, if_neg hmode]
    obtain ⟨hreg, hframe⟩ := serCtlWrite_frame (s := s) ⟨hn, hon, hir⟩
    refine ⟨hreg, hframe, ?_⟩
    refine serCtlWrite_ser1 ⟨hn, hon, hir⟩ (fun p q => q.inChar = false ∧ q.armed = false ∧ q.needHigh = 2 ∧ q.parser.status = 0 ∧
      q.parser.data = [] ∧ q.parser.sysex = none ∧ q.parser.cc0 = p.parser.cc0 ∧ q.parser.cc32 = p.parser.cc32) (fun _ => by simp [SerPort.reset, Parser.reset]) fun e => ?_
    obtain ⟨hin, harm, hneed, hparser⟩ := SerPort.written_of_mode (w := s.dev.reg (Reg.SER_CTL n)) (Ne.symm hmode) (s.dev.ser1 n)
    obtain ⟨-, kparser, -, -, kneed, kchar⟩ := SerPort.kick_keeps (e.reg (Reg.SER_CTL n)) (e.reg (Reg.SER_DIV n)) (e.serMode n) e.now
      ((s.dev.ser1 n).written (s.dev.reg (Reg.SER_CTL n)) v)
    obtain ⟨kin, karm⟩ := kchar hin
    refine ⟨kin, karm.trans harm, kneed.trans hneed, ?_⟩
    rw [Dev.kicked, kparser, hparser]
    exact ⟨rfl, rfl, rfl, rfl, rfl⟩
  case rxFlush =>
    obtain ⟨hn, hon, hturn, hir⟩ := hacc
    rw [yields_hostNext (f := rxFlushDev n v) _ rfl hturn, rxFlushDev, if_pos hbit]
    refine ⟨serCtlWrite_ser1 ⟨hn, hon, hir⟩ (fun _ q => q.rx = []) (fun _ => rfl) fun e => ?_, serCtlWrite_frame ⟨hn, hon, hir⟩⟩
    simp [Dev.kicked, SerPort.kick_keeps, SerPort.written, SerPort.breakSet_keeps, SerPort.settled_rx, hbit]
  case txFlush =>
    obtain ⟨hn, hon, hturn, hir⟩ := hacc
    rw [yields_hostNext (f := txFlushDev n v) _ rfl hturn, txFlushDev, if_pos hbit]
    have hport := serCtlWrite_ser1 ⟨hn, hon, hir⟩ (fun p q => p.reply = [] → q.tx = [] ∧ q.shifter = p.shifter)
      (fun _ _ => ⟨rfl, rfl⟩) fun e hre => ?_
    · obtain ⟨htx, hshifter⟩ := hport hreply
      exact ⟨htx, hshifter, serCtlWrite_frame ⟨hn, hon, hir⟩⟩
    · have hnil : ((s.dev.ser1 n).written (s.dev.reg (Reg.SER_CTL n)) v).tx = [] := by
        simp [SerPort.written, SerPort.breakSet_keeps, SerPort.settled_transmitter, hbit]
      rw [Dev.kicked, SerPort.kick_of_nil _ _ _ _ (by simp [SerPort.written, SerPort.breakSet_keeps, SerPort.settled_transmitter, hre]),
        SerPort.kickFilled_waits _ _ _ _ (by simp [hnil])]
      exact ⟨hnil, by simp [SerPort.written, SerPort.breakSet_keeps, SerPort.settled_transmitter]⟩
  case brk =>
    obtain ⟨hn, hon, hturn, hir⟩ := hacc
    rw [yields_hostNext (f := txBreakDev n v) _ rfl hturn, txBreakDev, if_pos hbit]
    obtain ⟨hreg, hframe⟩ := serCtlWrite_frame (s := s) ⟨hn, hon, hir⟩
    refine ⟨hreg, hframe, serCtlWrite_ser1 ⟨hn, hon, hir⟩ (fun p q => q.txBreak = if p.shifter.isSome then p.txBreak else true)
      (fun h => absurd hlen h) fun e => ?_⟩
    simp [Dev.kicked, SerPort.kick_keeps, SerPort.written, hbit, SerPort.breakSet, SerPort.settled_transmitter, apply_ite SerPort.txBreak]
  case clear =>
    obtain ⟨hn, hon, hturn, hir⟩ := hacc
    rw [yields_hostNext (f := txBreakClearDev n v) _ rfl hturn, txBreakClearDev, if_neg (by rw [hbit]; decide)]
    obtain ⟨hreg, hframe⟩ := serCtlWrite_frame (s := s) ⟨hn, hon, hir⟩
    refine ⟨hreg, hframe, serCtlWrite_ser1 ⟨hn, hon, hir⟩ (fun p q => q.txBreak = false ∧ (p.txBreak = true → q.txGap = true))
      (fun _ => by simp [SerPort.reset]) fun e => ?_⟩
    have hsame := (SerPort.settled_transmitter (s.dev.reg (Reg.SER_CTL n)) v (s.dev.ser1 n)).2.2.2
    simp only [Dev.kicked, SerPort.kick_keeps, SerPort.written, hbit, SerPort.breakSet, hsame]
    cases hb : (s.dev.ser1 n).txBreak <;> simp [hsame, hb]

end Sys2Proof.Machine
end

section
/-! SUPPORT. What the receiver's operations do to its port and its registers (R375 to R387). -/

namespace Sys2Proof.Machine

open Sys2Proof

/-! ### Registers and the serial unit alone -/

/-- Of a device only registers and the serial unit differ. -/
def RegsAndSerial (d e : Dev) : Prop := e = { d with regs := e.regs, ser := e.ser }

theorem RegsAndSerial.trans {d e u : Dev} (h : RegsAndSerial d e) (k : RegsAndSerial e u) : RegsAndSerial d u := by
  unfold RegsAndSerial at *
  refine k.trans ?_
  rw [h]

theorem RegsAndSerial.ite {c : Prop} [Decidable c] {d e u : Dev} (h : RegsAndSerial d e) (k : RegsAndSerial d u) :
    RegsAndSerial d (if c then e else u) := by split <;> assumption

theorem serIrq_alone (n b : Nat) (d : Dev) : RegsAndSerial d (serIrq n b d) := by
  unfold serIrq Dev.setIrq
  split <;> rfl

theorem RegsAndSerial.isOn {d e : Dev} (h : RegsAndSerial d e) (n : Nat) : e.isOn n = d.isOn n := by
  rw [h]
  rfl

theorem RegsAndSerial.now {d e : Dev} (h : RegsAndSerial d e) : e.now = d.now := by
  rw [h]
  rfl

/-! ### An error marked and counted (R402) -/

/-- A status bit of SER_IRQ_STAT and a count of SER_CNT_ERR. -/
def serMark (n b hi lo : Nat) (d : Dev) : Dev := serErr n hi lo (serIrq n b d)

/-- The registers of a receiver's errors. -/
def markRegs (n : Nat) : List Nat := [Reg.SER_CNT_ERR n, Reg.SER_IRQ_STAT n]

theorem serErr_ne_irq (n : Nat) : Reg.SER_CNT_ERR n ≠ Reg.SER_IRQ_STAT n := by simp only [Reg.SER_CNT_ERR, Reg.SER_IRQ_STAT]; omega

theorem serMark_step (n b hi lo : Nat) (d : Dev) : PortStep (markRegs n) n (fun p => p) d (serMark n b hi lo d) :=
  (serIrq_step b d (by simp [markRegs])).trans (.of_regs (.putFld _ hi lo _ (by simp [markRegs])) rfl)

theorem serMark_alone (n b hi lo : Nat) (d : Dev) : RegsAndSerial d (serMark n b hi lo d) := (serIrq_alone n b d).trans rfl

theorem serMark_flag {n b hi lo : Nat} {d : Dev} (hb : b < 32) (hon : d.isOn Dom.serial = true) :
    (serMark n b hi lo d).flag (Reg.SER_IRQ_STAT n) b = true :=
  (congrArg (·.getLsbD b) (Dev.reg_bumpFld_ne _ _ _ _ _ _ (Ne.symm (serErr_ne_irq n)))).trans (Dev.flag_setIrq d _ _ _ hb hon)

theorem serMark_flag_other {n b hi lo c : Nat} {d : Dev} (hb : b < 32) (h : c ≠ b) :
    (serMark n b hi lo d).flag (Reg.SER_IRQ_STAT n) c = d.flag (Reg.SER_IRQ_STAT n) c := by
  refine (congrArg (·.getLsbD c) (Dev.reg_bumpFld_ne _ _ _ _ _ _ (Ne.symm (serErr_ne_irq n)))).trans ?_
  unfold serIrq Dev.setIrq
  split
  · exact Dev.flag_putFlag_other d _ _ _ _ _ hb (.inr h)
  · rfl

theorem serIrq_fld (n b hi lo : Nat) (d : Dev) : (serIrq n b d).fld (Reg.SER_CNT_ERR n) hi lo = d.fld (Reg.SER_CNT_ERR n) hi lo :=
  (setIrq_regs (l := [Reg.SER_IRQ_STAT n]) d Dom.serial b (by simp)).fld (by simp) hi lo

theorem serMark_fld {n b hi lo : Nat} {d : Dev} (h : lo ≤ hi) (h32 : hi < 32) : (serMark n b hi lo d).fld (Reg.SER_CNT_ERR n) hi lo =
    min (d.fld (Reg.SER_CNT_ERR n) hi lo + 1) (2 ^ (hi + 1 - lo) - 1) :=
  (Dev.fld_bumpFld _ _ _ _ _ h h32).trans (by rw [serIrq_fld])

theorem serMark_fld_other {n b hi lo i j : Nat} {d : Dev} (h : lo ≤ hi) (h32 : hi < 32) (hd : i < lo ∨ hi < j) :
    (serMark n b hi lo d).fld (Reg.SER_CNT_ERR n) i j = d.fld (Reg.SER_CNT_ERR n) i j :=
  (Dev.fld_putFld_other _ _ _ _ _ _ _ _ h h32 (.inr hd)).trans (serIrq_fld n b i j d)

/-! ### An entry stored, a byte pushed, and its copies (R381, R384) -/

theorem rxStore_of_room {n : Nat} {d : Dev} (e : RxEntry) (h : (d.ser1 n).rx.length < 64) :
    rxStore n e d = d.modSer n (fun p => { p with rx := p.rx ++ [e] }) := if_neg (by omega)

theorem rxStore_of_full {n : Nat} {d : Dev} (e : RxEntry) (h : 64 ≤ (d.ser1 n).rx.length) : rxStore n e d = serMark n 2 31 24 d := if_pos h

/-- The port with a byte behind those in its TX FIFO. -/
def SerPort.pushed (b : Byte) (p : SerPort) : SerPort := { p with tx := p.tx ++ [b] }

theorem txPush_regs (n : Nat) (b : Byte) (d : Dev) : RegsOnly [Reg.SER_IRQ_STAT n] d (txPush n b d) :=
  .ite (setIrq_regs d _ _ (by simp)) (.of_regs (by simp [Dev.modSer]))

/-- A byte that the FIFO has room for. -/
theorem txPush_step (l : List Nat) {n : Nat} {d : Dev} (b : Byte) (h : (d.ser1 n).tx.length < 64) :
    PortStep l n (fun p => d.kicked n (p.pushed b)) d (txPush n b d) := by
  unfold txPush
  rw [if_neg (by omega)]
  exact (PortStep.modSer l n (SerPort.pushed b) d).trans (txKick_step l n (d.modSer n (SerPort.pushed b)))

theorem txPush_of_full {n : Nat} {d : Dev} (b : Byte) (h : 64 ≤ (d.ser1 n).tx.length) : txPush n b d = serIrq n 8 d := if_pos h

theorem PortStep.ser1_ne {l : List Nat} {n j : Nat} {f : SerPort → SerPort} {d e : Dev} (h : PortStep l n f d e) (hj : j ≠ n) :
    e.ser1 j = d.ser1 j := by
  rw [Dev.ser1, h.ports]
  exact at_upd_ne _ _ _ hj

/-- A pushed byte concerns its own port alone, and what it holds in its receiver stays but for an IR receiver's character. -/
theorem txPush_ports (n : Nat) (b : Byte) (d : Dev) : ∃ f, (∀ p, (f p).rx = p.rx) ∧ PortStep [Reg.SER_IRQ_STAT n] n f d (txPush n b d) := by
  by_cases h : (d.ser1 n).tx.length < 64
  · exact ⟨_, fun p => (SerPort.kick_keeps _ _ _ _ (p.pushed b)).1, txPush_step _ b h⟩
  · rw [txPush_of_full b (by omega)]
    exact ⟨_, fun _ => rfl, serIrq_step 8 d (by simp)⟩

/-- No soft thru names a port: no copies (R384). -/
theorem forUpTo_id {α : Type} {n : Nat} {f : Nat → α → α} {x : α} (h : ∀ k, k < n → f k x = x) : forUpTo n f x = x := by
  induction n with
  | zero => rfl
  | succ n ih => rw [forUpTo_succ, ih fun k hk => h k (by omega), h n (by omega)]

theorem thruCopies_none {n : Nat} (b : Byte) {d : Dev} (h : ∀ q, q < 4 → d.flag (Reg.SER_CTL q) 8 = false) : thruCopies n b d = d :=
  forUpTo_id fun q hq => if_neg (by simp [h q hq])

theorem rtPulse_quiet {n : Nat} {b : Byte} {d : Dev} (h : d.serMode n ≠ 2) : rtPulse n b d = d := if_neg h

end Sys2Proof.Machine
end

section
/-! PROOF. The statement on receivers (R375 to R387, R394, R396, R400). -/

namespace Sys2Proof.Machine

open Sys2Proof

/-! ### The character's common part (R376, R381) -/

/-- The device at a character's stop bit: it is over, counted, and its parity is judged. -/
def stopBit (n : Nat) (pe : Bool) (d : Dev) : Dev :=
  let e := (d.modSer n (fun p => { p with inChar := false })).bump (Reg.SER_CNT_RX n)
  if pe then serMark n 4 15 8 e else e

/-- The registers of a receiver. -/
def rxRegs (n : Nat) : List Nat := [Reg.SER_CNT_RX n, Reg.SER_CNT_ERR n, Reg.SER_IRQ_STAT n]

theorem PortStep.mono {l r : List Nat} {n : Nat} {f : SerPort → SerPort} {d e : Dev} (h : PortStep l n f d e) (hl : l ⊆ r) :
    PortStep r n f d e := ⟨h.regs.mono hl, h.ports⟩

theorem markRegs_subset (n : Nat) : markRegs n ⊆ rxRegs n := by simp [markRegs, rxRegs]

theorem counted_step (n : Nat) (d : Dev) : PortStep [Reg.SER_CNT_RX n] n (fun p => { p with inChar := false }) d
    ((d.modSer n (fun p => { p with inChar := false })).bump (Reg.SER_CNT_RX n)) :=
  (PortStep.modSer _ n _ d).trans (.of_regs (.bump _ (by simp)) rfl)

theorem stopBit_step (n : Nat) (pe : Bool) (d : Dev) : PortStep (rxRegs n) n (fun p => { p with inChar := false }) d (stopBit n pe d) := by
  have hcount := (counted_step n d).mono (r := rxRegs n) (by simp [rxRegs])
  unfold stopBit
  dsimp only
  split
  · exact hcount.trans ((serMark_step n 4 15 8 _).mono (markRegs_subset n))
  · exact hcount

theorem stopBit_alone (n : Nat) (pe : Bool) (d : Dev) : RegsAndSerial d (stopBit n pe d) := by
  have hcount : RegsAndSerial d ((d.modSer n (fun p => { p with inChar := false })).bump (Reg.SER_CNT_RX n)) := rfl
  exact .ite (hcount.trans (serMark_alone n 4 15 8 _)) hcount

theorem rx_ne_mark (n : Nat) : Reg.SER_CNT_RX n ∉ markRegs n := by
  simp only [markRegs, Reg.SER_CNT_RX, Reg.SER_CNT_ERR, Reg.SER_IRQ_STAT, List.mem_cons, List.not_mem_nil, or_false, not_or]
  omega

theorem stopBit_counts (n : Nat) (pe : Bool) (d : Dev) :
    (stopBit n pe d).fld (Reg.SER_CNT_RX n) 31 0 = min (d.fld (Reg.SER_CNT_RX n) 31 0 + 1) (2 ^ 32 - 1) := by
  have hcount := Dev.fld_bumpFld (d.modSer n (fun p => { p with inChar := false })) (Reg.SER_CNT_RX n) 31 0 1 (by decide) (by decide)
  unfold stopBit
  dsimp only
  split
  · exact ((serMark_step n 4 15 8 _).regs.fld (rx_ne_mark n) 31 0).trans hcount
  · exact hcount

theorem counted_keeps {n a : Nat} (d : Dev) (h : a ≠ Reg.SER_CNT_RX n) (hi lo : Nat) :
    ((d.modSer n (fun p => { p with inChar := false })).bump (Reg.SER_CNT_RX n)).fld a hi lo = d.fld a hi lo :=
  (counted_step n d).regs.fld (by simpa using h) hi lo

/-- A count of errors but for the parity errors is as before the character. -/
theorem stopBit_fld (n : Nat) (pe : Bool) (d : Dev) {hi lo : Nat} (h : 15 < lo) :
    (stopBit n pe d).fld (Reg.SER_CNT_ERR n) hi lo = d.fld (Reg.SER_CNT_ERR n) hi lo := by
  have hcount := counted_keeps (n := n) (a := Reg.SER_CNT_ERR n) d (by simp) hi lo
  unfold stopBit
  dsimp only
  split
  · exact (serMark_fld_other (by decide) (by decide) (.inr h)).trans hcount
  · exact hcount

/-- A parity error is flagged and counted. -/
theorem stopBit_parity {n : Nat} {d : Dev} (hon : d.isOn Dom.serial = true) :
    (stopBit n true d).flag (Reg.SER_IRQ_STAT n) 4 = true ∧
      (stopBit n true d).fld (Reg.SER_CNT_ERR n) 15 8 = min (d.fld (Reg.SER_CNT_ERR n) 15 8 + 1) (2 ^ 8 - 1) :=
  ⟨serMark_flag (by decide) hon,
    (serMark_fld (by decide) (by decide)).trans (by rw [counted_keeps d (by simp)])⟩

theorem ser_ctl_not_rxReg (n q : Nat) : Reg.SER_CTL q ∉ rxRegs n := by
  simp only [rxRegs, Reg.SER_CTL, Reg.SER_CNT_RX, Reg.SER_CNT_ERR, Reg.SER_IRQ_STAT, List.mem_cons, List.not_mem_nil, or_false, not_or]
  omega

/-- The receiver inside a character of port n, whose line it sees. -/
def Receiving (d : Dev) (n : Nat) : Prop := d.serOn n = true ∧ d.sees Dom.serial = true ∧ (d.ser1 n).inChar = true

theorem Receiving.lt {d : Dev} {n : Nat} (h : Receiving d n) : n < d.ser.ports.length :=
  Dev.lt_of_ser1 fun hr => absurd h.2.2 (by simp [hr, SerPort.reset])

theorem serOn_parts {d : Dev} {n : Nat} (h : d.serOn n = true) : n < 4 ∧ d.isOn Dom.serial = true ∧ d.frame.refValid = true := by
  simpa [Dev.serOn, and_assoc] using h

theorem parityBad_counted (d : Dev) (n : Nat) (b : Byte) (par : Bool) :
    parityBad ((d.modSer n (fun p => { p with inChar := false })).bump (Reg.SER_CNT_RX n)) n b par = parityBad d n b par := by
  simp only [parityBad, Dev.serMode, counted_keeps d (show Reg.SER_CTL n ≠ Reg.SER_CNT_RX n by simp)]

/-- A character with its stop bit low. -/
theorem characterReceivedDev_low {d : Dev} {n : Nat} (b : Byte) (par : Bool) (h : Receiving d n) :
    characterReceivedDev n b par false d = framingError n b par (parityBad d n b par) (stopBit n (parityBad d n b par) d) := by
  obtain ⟨hon, hsees, hin⟩ := h
  unfold characterReceivedDev
  rw [if_neg (by simp [hon, hsees, hin])]
  dsimp only
  rw [parityBad_counted]
  rfl

/-- The receiver armed behind a character whose stop bit is high. -/
def SerPort.stopped (now : Nat) (p : SerPort) : SerPort := { p with armed := true, needHigh := 0, line := some (now, false), lowSince := none }

/-- The device behind a character whose stop bit is high, its entry not yet stored. -/
def charEnded (n : Nat) (pe : Bool) (d : Dev) : Dev := (stopBit n pe d).modSer n (SerPort.stopped d.now)

theorem characterReceivedDev_high {d : Dev} {n : Nat} (b : Byte) (par : Bool) (h : Receiving d n) :
    characterReceivedDev n b par true d = thruCopies n b (rtPulse n b (rxStore n ⟨b, false, parityBad d n b par, false, d.now⟩
      (charEnded n (parityBad d n b par) d))) := by
  have hnow := (stopBit_alone n (parityBad d n b par) d).now
  obtain ⟨hon, hsees, hin⟩ := h
  unfold characterReceivedDev charEnded
  rw [if_neg (by simp [hon, hsees, hin])]
  dsimp only
  rw [parityBad_counted, ← hnow]
  rfl

/-! ### A framing error (R378, R386) -/

theorem Dev.flag_modSer (d : Dev) (n a k : Nat) (f : SerPort → SerPort) : (d.modSer n f).flag a k = d.flag a k := rfl

theorem Dev.fld_modSer (d : Dev) (n a hi lo : Nat) (f : SerPort → SerPort) : (d.modSer n f).fld a hi lo = d.fld a hi lo := rfl

/-- The receiver behind a character with a framing error. -/
def SerPort.framed (zero : Bool) (now : Nat) (p : SerPort) : SerPort :=
  { p with armed := false, needHigh := 1, line := some (now, true), lowSince := if zero then p.lowSince else none }

/-- The device with a framing error flagged and counted, its receiver waiting. -/
def framingMarked (n : Nat) (zero : Bool) (d : Dev) : Dev := (serMark n 3 23 16 d).modSer n (SerPort.framed zero d.now)

theorem framingMarked_step (n : Nat) (zero : Bool) (d : Dev) : PortStep (markRegs n) n (SerPort.framed zero d.now) d (framingMarked n zero d) :=
  (serMark_step n 3 23 16 d).trans (.modSer _ n _ _)

/-- Was every bit of the character low, its parity bit included? -/
def allLow (d : Dev) (n : Nat) (b : Byte) (par : Bool) : Bool :=
  decide (b = 0) && !(par && d.serMode n != serMidi && (d.fld (Reg.SER_CTL n) 3 2 == 1 || d.fld (Reg.SER_CTL n) 3 2 == 2))

theorem framingError_eq (n : Nat) (b : Byte) (par pe : Bool) (d : Dev) :
    framingError n b par pe d = if d.serMode n = 2 then parserReset n (framingMarked n (allLow d n b par) d)
      else rxStore n ⟨b, true, pe, false, d.now⟩ (framingMarked n (allLow d n b par) d) := by
  have hctl (hi lo : Nat) : (serMark n 3 23 16 d).fld (Reg.SER_CTL n) hi lo = d.fld (Reg.SER_CTL n) hi lo :=
    (serMark_step n 3 23 16 d).regs.fld (by simp [markRegs]) hi lo
  have hmode : (serMark n 3 23 16 d).serMode n = d.serMode n := hctl 1 0
  have hmode' (f : SerPort → SerPort) : ((serMark n 3 23 16 d).modSer n f).serMode n = d.serMode n := hmode
  have hnow : (serMark n 3 23 16 d).now = d.now := (serMark_alone n 3 23 16 d).now
  have hnow' (f : SerPort → SerPort) : ((serMark n 3 23 16 d).modSer n f).now = d.now := hnow
  have hmark : serErr n 23 16 (serIrq n 3 d) = serMark n 3 23 16 d := rfl
  unfold framingError framingMarked SerPort.framed allLow
  dsimp only
  rw [hmark, hmode', hnow', hmode, hnow, hctl]

theorem onlySerial_modSer (s : State) (n : Nat) (f : SerPort → SerPort) : OnlySerial s (s.dev.modSer n f) n :=
  ⟨rfl, rfl, s.dev.ports_length_modSer n f, fun _ hj => s.dev.ser1_modSer_ne f hj⟩

theorem Dev.ser1_modSer {d : Dev} {n : Nat} (f : SerPort → SerPort) (h : n < d.ser.ports.length) : (d.modSer n f).ser1 n = f (d.ser1 n) :=
  (PortStep.modSer [] n f d).ser1 h

end Sys2Proof.Machine
end

section
/-! PROOF. The statement on receivers, clause by clause. -/

namespace Sys2Proof.Machine

open Sys2Proof

theorem irDeaf_false {d : Dev} {n : Nat} (h : d.serMode n = 3 → (d.ser1 n).shifter = none ∧
    ∀ r, (d.ser1 n).deafTo = some r → efReached d.now r = true) : irDeaf d n = false := by
  unfold irDeaf
  by_cases hm : d.serMode n = 3
  · obtain ⟨hs, hr⟩ := h hm
    have hany : (d.ser1 n).deafTo.any (fun r => !efReached d.now r) = false := by
      rw [Option.any_eq_false]
      exact fun r hd => by rw [hr r hd]; decide
    rw [hs, hany]
    exact Bool.and_false _
  · rw [beq_false_of_ne hm]
    rfl

/-- A line sampled where the receiver listens (R375, R394, R400). -/
theorem startBitDev_hears {d : Dev} {n width : Nat} {low level isLow : Bool} (hon : d.serOn n = true) (hsees : d.sees Dom.serial = true)
    (hmode : d.serMode n ≠ 0) (hdeaf : irDeaf d n = false) (hlow : startLow d n low level width = isLow) :
    startBitDev n low level width d = d.modSer n (fun p =>
      if isLow && p.armed && !p.inChar then
        { p with line := some (d.now, isLow), inChar := true, armed := false, lowSince := some d.now, broke := false }
      else { p with line := some (d.now, isLow) }) := by
  unfold startBitDev
  dsimp only
  rw [hlow, if_neg (by simp [hon, hsees, hmode, hdeaf])]

/-- In UART mode a character with its stop bit low is stored with FE. -/
theorem characterReceivedDev_uartLow {d : Dev} {n : Nat} (b : Byte) (par : Bool) (h : Receiving d n) (hm : d.serMode n = 1)
    (hrx : (d.ser1 n).rx.length < 64) : ∃ zero, characterReceivedDev n b par false d =
      (framingMarked n zero (stopBit n (parityBad d n b par) d)).modSer n
        (fun p => { p with rx := p.rx ++ [⟨b, true, parityBad d n b par, false, d.now⟩] }) := by
  set pe := parityBad d n b par with hpe
  have hstop := stopBit_step n pe d
  have hmode : (stopBit n pe d).serMode n = 1 := (hstop.regs.fld (ser_ctl_not_rxReg n n) 1 0).trans hm
  have hport := (hstop.trans ((framingMarked_step n (allLow (stopBit n pe d) n b par) _).mono (markRegs_subset n))).ser1 h.lt
  refine ⟨allLow (stopBit n pe d) n b par, ?_⟩
  rw [characterReceivedDev_low b par h, ← hpe, framingError_eq, if_neg (by omega), rxStore_of_room _ (by rw [hport]; exact hrx),
    (stopBit_alone n pe d).now]

theorem charEnded_step (n : Nat) (pe : Bool) (d : Dev) :
    PortStep (rxRegs n) n (fun p => SerPort.stopped d.now { p with inChar := false }) d (charEnded n pe d) :=
  (stopBit_step n pe d).trans (.modSer _ n _ _)

/-- Storing an entry concerns the receiver's FIFO alone. -/
theorem rxStore_step (n : Nat) (e : RxEntry) (d : Dev) : ∃ f : SerPort → SerPort,
    (∀ p, ∃ l, f p = { p with rx := l }) ∧ PortStep (markRegs n) n f d (rxStore n e d) := by
  by_cases h : (d.ser1 n).rx.length < 64
  · exact ⟨_, fun p => ⟨_, rfl⟩, by rw [rxStore_of_room e h]; exact .modSer _ n _ d⟩
  · exact ⟨_, fun p => ⟨p.rx, rfl⟩, by rw [rxStore_of_full e (by omega)]; exact serMark_step n 2 31 24 d⟩

theorem rtPulse_step (l : List Nat) (n : Nat) (b : Byte) (d : Dev) : PortStep l n (fun p => p) d (rtPulse n b d) :=
  .of_regs (.of_regs (by simp)) (by simp)

/-- The device behind a character that ended well, before its copies. -/
def charTaken (n : Nat) (b : Byte) (par : Bool) (d : Dev) : Dev :=
  rtPulse n b (rxStore n ⟨b, false, parityBad d n b par, false, d.now⟩ (charEnded n (parityBad d n b par) d))

theorem charTaken_step (n : Nat) (b : Byte) (par : Bool) (d : Dev) : ∃ f : SerPort → SerPort,
    (∀ p, (f p).tx = p.tx ∧ (f p).shifter = p.shifter ∧ (f p).reply = p.reply) ∧ PortStep (rxRegs n) n f d (charTaken n b par d) := by
  obtain ⟨f, hf, hstore⟩ := rxStore_step n ⟨b, false, parityBad d n b par, false, d.now⟩ (charEnded n (parityBad d n b par) d)
  refine ⟨_, fun p => ?_, ((charEnded_step n _ d).trans (hstore.mono (markRegs_subset n))).trans (rtPulse_step _ n b _)⟩
  obtain ⟨l, hl⟩ := hf (SerPort.stopped d.now { p with inChar := false })
  rw [hl]
  exact ⟨rfl, rfl, rfl⟩

/-- A character that no soft thru copies. -/
theorem characterReceivedDev_alone {d : Dev} {n : Nat} (b : Byte) (par : Bool) (h : Receiving d n)
    (hthru : ∀ q, q < 4 → d.flag (Reg.SER_CTL q) 8 = false) : characterReceivedDev n b par true d = charTaken n b par d := by
  obtain ⟨f, -, hstep⟩ := charTaken_step n b par d
  rw [characterReceivedDev_high b par h]
  exact thruCopies_none b fun q hq => (hstep.regs.flag (ser_ctl_not_rxReg n q) 8).trans (hthru q hq)

theorem charTaken_uart {d : Dev} {n : Nat} (b : Byte) (par : Bool) (h : Receiving d n) (hm : d.serMode n = 1)
    (hrx : (d.ser1 n).rx.length < 64) : charTaken n b par d =
      (charEnded n (parityBad d n b par) d).modSer n (fun p => { p with rx := p.rx ++ [⟨b, false, parityBad d n b par, false, d.now⟩] }) := by
  have hstep := charEnded_step n (parityBad d n b par) d
  have hroom : ((charEnded n (parityBad d n b par) d).ser1 n).rx.length < 64 := by rw [hstep.ser1 h.lt]; exact hrx
  have hmode (f : SerPort → SerPort) : ((charEnded n (parityBad d n b par) d).modSer n f).serMode n = 1 :=
    (hstep.regs.fld (ser_ctl_not_rxReg n n) 1 0).trans hm
  rw [charTaken, rxStore_of_room _ hroom, rtPulse_quiet (by rw [hmode]; decide)]

theorem charTaken_full {d : Dev} {n : Nat} (b : Byte) (par : Bool) (h : Receiving d n) (hrx : 64 ≤ (d.ser1 n).rx.length) :
    charTaken n b par d = rtPulse n b (serMark n 2 31 24 (charEnded n (parityBad d n b par) d)) := by
  have hfull : 64 ≤ ((charEnded n (parityBad d n b par) d).ser1 n).rx.length := by rw [(charEnded_step n _ d).ser1 h.lt]; exact hrx
  rw [charTaken, rxStore_of_full _ hfull]

theorem charEnded_alone (n : Nat) (pe : Bool) (d : Dev) : RegsAndSerial d (charEnded n pe d) := (stopBit_alone n pe d).trans rfl

theorem RegsAndSerial.cnt {d e : Dev} (h : RegsAndSerial d e) : e.cnt = d.cnt := by
  rw [h]

theorem RegsAndSerial.busWith {d e : Dev} (h : RegsAndSerial d e) (code k : Nat) : e.busWith code k = d.busWith code k := by
  rw [Dev.busWith, h.isOn, h.cnt, Dev.busWith]

theorem rxStore_alone (n : Nat) (x : RxEntry) (d : Dev) : RegsAndSerial d (rxStore n x d) := .ite (serMark_alone n 2 31 24 d) rfl

/-- A timing clock in MIDI mode pulses its event (R387). -/
theorem rtPulse_clock {n : Nat} {d : Dev} (h : d.serMode n = 2) : rtPulse n 0xF8 d = d.emit (104 + 6 * n) 1 := if_pos h

theorem charTaken_clock {d : Dev} {n : Nat} (par : Bool) (h : d.serMode n = 2) :
    (charTaken n 0xF8 par d).cnt = { d.cnt with bus := d.busWith (104 + 6 * n) 1 } := by
  set x : RxEntry := ⟨0xF8, false, parityBad d n 0xF8 par, false, d.now⟩
  have halone := (charEnded_alone n (parityBad d n 0xF8 par) d).trans (rxStore_alone n x _)
  obtain ⟨f, -, hstore⟩ := rxStore_step n x (charEnded n (parityBad d n 0xF8 par) d)
  have hmode : (rxStore n x (charEnded n (parityBad d n 0xF8 par) d)).serMode n = 2 :=
    (((charEnded_step n _ d).trans (hstore.mono (markRegs_subset n))).regs.fld (ser_ctl_not_rxReg n n) 1 0).trans h
  rw [charTaken, rtPulse_clock hmode, Dev.emit, halone.busWith, halone.cnt]

/-- In MIDI mode a framing error resets the parser, and stores nothing (R378, R386). -/
theorem characterReceivedDev_midiLow {d : Dev} {n : Nat} (b : Byte) (par : Bool) (h : Receiving d n) (hm : d.serMode n = 2) :
    ∃ zero, characterReceivedDev n b par false d =
      parserReset n (framingMarked n zero (stopBit n (parityBad d n b par) d)) := by
  have hmode : (stopBit n (parityBad d n b par) d).serMode n = 2 :=
    ((stopBit_step n (parityBad d n b par) d).regs.fld (ser_ctl_not_rxReg n n) 1 0).trans hm
  exact ⟨_, by rw [characterReceivedDev_low b par h, framingError_eq, if_pos hmode]⟩

/-! ### Copies of a soft thru (R384) -/

/-- The status registers of the four ports. -/
def portIrqRegs : List Nat := (List.range 4).map Reg.SER_IRQ_STAT

theorem portIrqRegs_mem {q : Nat} (h : q < 4) : Reg.SER_IRQ_STAT q ∈ portIrqRegs := List.mem_map.2 ⟨q, List.mem_range.2 h, rfl⟩

theorem ser_ctl_not_irq (q : Nat) : Reg.SER_CTL q ∉ portIrqRegs := by
  intro h
  obtain ⟨k, -, hk⟩ := List.mem_map.1 h
  simp only [Reg.SER_CTL, Reg.SER_IRQ_STAT] at hk
  omega

/-- A byte pushed while a character is being sent joins the queue. -/
theorem txPush_joins {q : Nat} {b : Byte} {d : Dev} (hlen : q < d.ser.ports.length) (htx : (d.ser1 q).tx.length < 64)
    (hsh : (d.ser1 q).shifter.isSome = true) (hre : (d.ser1 q).reply = []) : (txPush q b d).ser1 q = (d.ser1 q).pushed b := by
  rw [(txPush_step [] b htx).ser1 hlen, Dev.kicked, SerPort.kick_of_nil _ _ _ _ (p := (d.ser1 q).pushed b) hre,
    SerPort.kickFilled_waits _ _ _ _ (p := (d.ser1 q).pushed b) (.inl hsh)]

/-- After the first m ports have taken their copies, port q has its own exactly if it is among them. -/
theorem copies_ser1 {n q m : Nat} {b : Byte} {d : Dev} (hm : m ≤ 4) (hlen : q < d.ser.ports.length) (hon : d.flag (Reg.SER_CTL q) 8 = true)
    (hsrc : d.fld (Reg.SER_CTL q) 10 9 = n) (htx : (d.ser1 q).tx.length < 64) (hsh : (d.ser1 q).shifter.isSome = true)
    (hre : (d.ser1 q).reply = []) :
    let e := forUpTo m (fun q d => if d.flag (Reg.SER_CTL q) 8 ∧ d.fld (Reg.SER_CTL q) 10 9 = n then txPush q b d else d) d
    RegsOnly portIrqRegs d e ∧ e.ser.ports.length = d.ser.ports.length ∧ e.ser1 q = if q < m then (d.ser1 q).pushed b else d.ser1 q := by
  induction m with
  | zero => exact ⟨.refl _ d, rfl, rfl⟩
  | succ m ih =>
    obtain ⟨hregs, hports, hport⟩ := ih (by omega)
    rw [forUpTo_succ]
    dsimp only at *
    generalize forUpTo m _ d = e at *
    by_cases hq : q = m
    · subst hq
      rw [if_neg (by omega)] at hport
      have hctl := ser_ctl_not_irq q
      rw [if_pos ⟨(hregs.flag hctl 8).trans hon, (hregs.fld hctl 10 9).trans hsrc⟩, if_pos (by omega)]
      obtain ⟨f, -, hstep⟩ := txPush_ports q b e
      refine ⟨hregs.trans (hstep.regs.mono ?_), hstep.length.trans hports, ?_⟩
      · simpa using portIrqRegs_mem (by omega)
      · rw [txPush_joins (by omega) (by rwa [hport]) (by rwa [hport]) (by rwa [hport]), hport]
    · have hsame : (q < m + 1) = (q < m) := by rw [eq_iff_iff]; omega
      simp only [hsame]
      split
      · obtain ⟨f, -, hstep⟩ := txPush_ports m b e
        refine ⟨hregs.trans (hstep.regs.mono ?_), hstep.length.trans hports, (hstep.ser1_ne hq).trans hport⟩
        simpa using portIrqRegs_mem (by omega)
      · exact ⟨hregs, hports, hport⟩

/-- Settles O35: the receiver's commands by the steps they make on the port and its registers. -/
theorem receiversTakeCharacters : Obligations.ReceiversTakeCharacters := by
  refine ⟨fun s n width low level hon hsees hmode hin hlen hlow hir => ?start, fun s n width low level hon hsees hmode hlen hlow hir => ?glitch,
    fun s n width low level hm hsh => ?own, fun s n b par stop hready hm hrx => ?uart, fun s n b par hready hm hfull => ?full,
    fun s n par hready hm => ?midi, fun s n q b par hon hsees hin hq hlen hthru hsrc htx hsh hreply => ?thru,
    fun s n hon hsees hmode harm hin hlen => ?rearm, fun s n hn hon hmode => ?read, fun s n hm => ?readMidi⟩
  case start =>
    have hlow' : startLow s.dev n low level width = true := by
      unfold startLow
      split
      next h => obtain ⟨hlev, hwid, -⟩ := hir h; simp [hlev, hwid]
      next h => exact hlow h
    rw [yields_devNext (f := startBitDev n low level width) _ rfl,
      startBitDev_hears hon hsees hmode (irDeaf_false fun h => (hir h).2.2) hlow']
    refine ⟨onlySerial_modSer s n _, fun harm => ?_, fun harm => ?_⟩
    · rw [Dev.ser1_modSer _ hlen, if_pos (by simp [harm, hin])]
    · rw [Dev.ser1_modSer _ hlen, if_neg (by simp [harm])]
  case glitch =>
    have hlow' : startLow s.dev n low level width = false := by
      unfold startLow
      split
      next h =>
        obtain ⟨hlev | hwid, -⟩ := hir h
        · simp [hlev]
        · simp [show ¬20 ≤ width by omega]
      next h => exact hlow h
    rw [yields_devNext (f := startBitDev n low level width) _ rfl,
      startBitDev_hears hon hsees hmode (irDeaf_false fun h => (hir h).2) hlow']
    exact ⟨onlySerial_modSer s n _, Dev.ser1_modSer _ hlen⟩
  case own =>
    exact devNext_same (f := startBitDev n low level width) (if_pos (by simp [irDeaf, hm, hsh]))
  case rearm =>
    rw [yields_devNext (f := receiverRearmDev n) _ rfl, receiverRearmDev, if_pos (by simp [hon, hsees, hmode, harm, hin])]
    refine ⟨onlySerial_modSer s n _, ?_⟩
    rw [Dev.ser1_modSer _ hlen]
    simp [rxArm, hin]
  case read =>
    rw [yields_devNext (f := serRxReadDev n) _ rfl, serRxReadDev, if_pos (by simp [hn, hon, hmode])]
    refine ⟨onlySerial_modSer s n _, ((PortStep.modSer [] n _ s.dev).ser1_of_reset rfl).trans ?_⟩
    rw [List.drop_one]
  case readMidi =>
    exact devNext_same (f := serRxReadDev n) (if_neg (by simp [hm]))
  case uart =>
    obtain ⟨hon, hsees, hin, hthru⟩ := hready
    have hrec : Receiving s.dev n := ⟨hon, hsees, hin⟩
    obtain ⟨-, hser, -⟩ := serOn_parts hon
    rw [yields_devNext (f := characterReceivedDev n b par stop) _ rfl]
    set pe := parityBad s.dev n b par with hpe
    have hstop := stopBit_step n pe s.dev
    have halone := stopBit_alone n pe s.dev
    cases stop with
    | true =>
      rw [characterReceivedDev_alone b par hrec hthru, charTaken_uart b par hrec hm hrx, ← hpe]
      have hall := (charEnded_step n pe s.dev).trans (.modSer _ n (fun p => { p with rx := p.rx ++ [⟨b, false, pe, false, s.dev.now⟩] }) _)
      refine ⟨by rw [hall.ser1 hrec.lt]; rfl, by rw [hall.ser1 hrec.lt]; rfl, by rw [hall.ser1 hrec.lt]; rfl, nofun, fun hbad => ?_,
        stopBit_counts n pe s.dev, hall.regs, hall.others, halone.trans rfl⟩
      rw [hbad]
      exact stopBit_parity hser
    | false =>
      obtain ⟨zero, heq⟩ := characterReceivedDev_uartLow b par hrec hm hrx
      rw [heq, ← hpe]
      have hmark := framingMarked_step n zero (stopBit n pe s.dev)
      have hall := (hstop.trans (hmark.mono (markRegs_subset n))).trans
        (.modSer _ n (fun p => { p with rx := p.rx ++ [⟨b, true, pe, false, s.dev.now⟩] }) _)
      refine ⟨by rw [hall.ser1 hrec.lt]; rfl, by rw [hall.ser1 hrec.lt]; rfl, by rw [hall.ser1 hrec.lt]; rfl, fun _ => ⟨?_, ?_⟩, fun hbad => ?_,
        ?_, hall.regs, hall.others, (halone.trans (serMark_alone n 3 23 16 _)).trans rfl⟩
      · rw [Dev.flag_modSer, framingMarked, Dev.flag_modSer]
        exact serMark_flag (by decide) ((halone.isOn _).trans hser)
      · rw [CountsFld, Dev.fld_modSer, framingMarked, Dev.fld_modSer, serMark_fld (by decide) (by decide), stopBit_fld n pe s.dev (by decide)]
      · obtain ⟨hflag, hcount⟩ := stopBit_parity (n := n) hser
        rw [CountsFld, Dev.flag_modSer, Dev.fld_modSer, framingMarked, Dev.flag_modSer, Dev.fld_modSer,
          serMark_flag_other (by decide) (by decide), serMark_fld_other (by decide) (by decide) (.inl (by decide)), hbad]
        exact ⟨hflag, hcount⟩
      · rw [Counts, Dev.fld_modSer, hmark.regs.fld (rx_ne_mark n)]
        exact stopBit_counts n pe s.dev
  case full =>
    obtain ⟨hon, hsees, hin, hthru⟩ := hready
    have hrec : Receiving s.dev n := ⟨hon, hsees, hin⟩
    obtain ⟨-, hser, -⟩ := serOn_parts hon
    rw [yields_devNext (f := characterReceivedDev n b par true) _ rfl, characterReceivedDev_alone b par hrec hthru,
      charTaken_full b par hrec hfull]
    set pe := parityBad s.dev n b par
    have hpulse := rtPulse_step [] n b (serMark n 2 31 24 (charEnded n pe s.dev))
    have hall := ((charEnded_step n pe s.dev).trans ((serMark_step n 2 31 24 _).mono (markRegs_subset n))).trans (hpulse.mono (by simp))
    refine ⟨by rw [hall.ser1 hrec.lt]; rfl, (hpulse.regs.flag (by simp) 2).trans ?_, (hpulse.regs.fld (by simp) 31 24).trans ?_, hall.others⟩
    · exact serMark_flag (by decide) (((stopBit_alone n pe s.dev).isOn _).trans hser)
    · exact (serMark_fld (b := 2) (by decide) (by decide)).trans (by rw [← stopBit_fld n pe s.dev (by decide)]; rfl)
  case midi =>
    obtain ⟨hon, hsees, hin, hthru⟩ := hready
    have hrec : Receiving s.dev n := ⟨hon, hsees, hin⟩
    rw [yields_devNext (f := characterReceivedDev n 0xF8 par true) _ rfl, yields_devNext (f := characterReceivedDev n 0xF8 par false) _ rfl,
      characterReceivedDev_alone _ par hrec hthru]
    refine ⟨charTaken_clock par hm, ?_⟩
    obtain ⟨zero, heq⟩ := characterReceivedDev_midiLow 0xF8 par hrec hm
    have halone := (stopBit_alone n (parityBad s.dev n 0xF8 par) s.dev).trans (serMark_alone n 3 23 16 _)
    have hport := ((((stopBit_step n (parityBad s.dev n 0xF8 par) s.dev).trans ((framingMarked_step n zero _).mono (markRegs_subset n))).mono
      (List.subset_append_left _ (parserRegs n))).trans ((parserReset_step n _).mono (List.subset_append_right _ _))).ser1 hrec.lt
    rw [heq]
    refine ⟨?_, by rw [hport]; rfl, by rw [hport]; rfl, by rw [hport]; rfl⟩
    rw [(parserReset_keeps n _).2.2.2.2.2.1]
    exact halone.cnt
  case thru =>
    obtain ⟨f, hf, hstep⟩ := charTaken_step n b par s.dev
    have hrec : Receiving s.dev n := ⟨hon, hsees, hin⟩
    rw [yields_devNext (f := characterReceivedDev n b par true) _ rfl, characterReceivedDev_high b par hrec]
    have hport : ((charTaken n b par s.dev).ser1 q).tx = (s.dev.ser1 q).tx ∧ ((charTaken n b par s.dev).ser1 q).shifter = (s.dev.ser1 q).shifter ∧
        ((charTaken n b par s.dev).ser1 q).reply = (s.dev.ser1 q).reply := by
      by_cases hqn : q = n
      · subst hqn
        rw [hstep.ser1 hlen]
        exact hf _
      · rw [hstep.ser1_ne hqn]
        exact ⟨rfl, rfl, rfl⟩
    obtain ⟨ptx, psh, pre⟩ := hport
    have hctl := ser_ctl_not_rxReg n q
    obtain ⟨-, -, hcopy⟩ := copies_ser1 (n := n) (q := q) (m := 4) (b := b) (d := charTaken n b par s.dev) (le_refl 4) (by rw [hstep.length]; exact hlen)
      ((hstep.regs.flag hctl 8).trans hthru) ((hstep.regs.fld hctl 10 9).trans hsrc) (by rwa [ptx]) (by rwa [psh]) (by rwa [pre])
    rw [if_pos hq] at hcopy
    exact (congrArg SerPort.tx hcopy).trans (by rw [SerPort.pushed, ptx])

end Sys2Proof.Machine
end

section
/-! PROOF. The statement on breaks and dead lines (R379, R380). -/

namespace Sys2Proof.Machine

open Sys2Proof

/-- The port with its break declared. -/
def SerPort.brokeNow (p : SerPort) : SerPort := { p with broke := true }

/-- A break flagged and counted. -/
def breakMarked (n : Nat) (d : Dev) : Dev := serMark n 5 7 0 (d.modSer n SerPort.brokeNow)

theorem breakMarked_step (n : Nat) (d : Dev) : PortStep (markRegs n) n SerPort.brokeNow d (breakMarked n d) :=
  (PortStep.modSer _ n SerPort.brokeNow d).trans (serMark_step n 5 7 0 _)

theorem breakMarked_alone (n : Nat) (d : Dev) : RegsAndSerial d (breakMarked n d) :=
  (show RegsAndSerial d (d.modSer n SerPort.brokeNow) from rfl).trans (serMark_alone n 5 7 0 _)

theorem breakMarked_flag {n : Nat} {d : Dev} (hon : d.isOn Dom.serial = true) : (breakMarked n d).flag (Reg.SER_IRQ_STAT n) 5 = true :=
  serMark_flag (d := d.modSer n SerPort.brokeNow) (by decide) hon

theorem breakMarked_fld (n : Nat) (d : Dev) :
    (breakMarked n d).fld (Reg.SER_CNT_ERR n) 7 0 = min (d.fld (Reg.SER_CNT_ERR n) 7 0 + 1) (2 ^ 8 - 1) :=
  serMark_fld (d := d.modSer n SerPort.brokeNow) (by decide) (by decide)

/-- A line that is low, between characters, with no break declared in this low period. -/
def BreakDue (d : Dev) (n : Nat) : Prop :=
  d.serOn n = true ∧ d.sees Dom.serial = true ∧ (d.ser1 n).lowSince.isSome = true ∧ (d.ser1 n).inChar = false ∧ (d.ser1 n).broke = false

theorem BreakDue.lt {d : Dev} {n : Nat} (h : BreakDue d n) : n < d.ser.ports.length := by
  obtain ⟨-, -, hlow, -⟩ := h
  exact Dev.lt_of_ser1 fun hr => absurd hlow (by simp [hr, SerPort.reset])

theorem breakDev_due {d : Dev} {n : Nat} (h : BreakDue d n) (hm : d.serMode n ≠ 0) :
    breakDev n d = if d.serMode n = 2 then parserReset n (breakMarked n d)
      else rxStore n ⟨0, false, false, true, d.now⟩ (breakMarked n d) := by
  obtain ⟨hon, hsees, hlow, hin, hbroke⟩ := h
  have hmode : (breakMarked n d).serMode n = d.serMode n := (breakMarked_step n d).regs.fld (by simp [markRegs]) 1 0
  unfold breakDev
  dsimp only
  rw [if_neg (by simp [hon, hsees, hm, hlow, hin, hbroke]),
    show serErr n 7 0 (serIrq n 5 (d.modSer n (fun p => { p with broke := true }))) = breakMarked n d from rfl, hmode,
    (breakMarked_alone n d).now]

/-- A parser's reset keeps the errors' counts and, but for bit 7, the status bits. -/
theorem parserReset_fld (n hi lo : Nat) (d : Dev) : (parserReset n d).fld (Reg.SER_CNT_ERR n) hi lo = d.fld (Reg.SER_CNT_ERR n) hi lo :=
  (parserReset_step n d).regs.fld (by
    simp only [parserRegs, Reg.SER_CNT_ERR, Reg.SER_IRQ_STAT, Reg.SER_CNT_SYSEX_ABORT, Reg.MGT_CNT_LOG_DROP, List.mem_cons,
      List.not_mem_nil, or_false, not_or]
    omega) hi lo

theorem serIrq_flag_mono {n b c : Nat} {d : Dev} (hc : c < 32) (h : d.flag (Reg.SER_IRQ_STAT n) b = true) :
    (serIrq n c d).flag (Reg.SER_IRQ_STAT n) b = true := by
  unfold serIrq Dev.setIrq
  split
  · by_cases hb : b = c
    · rw [hb]
      exact Dev.flag_putFlag_same d _ _ _ hc
    · rw [Dev.flag_putFlag_other d _ _ _ _ _ hc (.inr hb), h]
  · exact h

theorem parserReset_flag {n b : Nat} {d : Dev} (h : d.flag (Reg.SER_IRQ_STAT n) b = true) :
    (parserReset n d).flag (Reg.SER_IRQ_STAT n) b = true := by
  have habort : (sysexAbort n 3 d).flag (Reg.SER_IRQ_STAT n) b = true := by
    have hlog : Reg.SER_IRQ_STAT n ≠ Reg.MGT_CNT_LOG_DROP := by simp only [Reg.SER_IRQ_STAT, Reg.MGT_CNT_LOG_DROP]; omega
    have hcount : Reg.SER_IRQ_STAT n ≠ Reg.SER_CNT_SYSEX_ABORT := by simp only [Reg.SER_IRQ_STAT, Reg.SER_CNT_SYSEX_ABORT]; omega
    unfold sysexAbort
    split
    · exact h
    · dsimp only
      rw [Dev.flag, Dev.reg_logEv_ne _ _ _ _ _ _ hlog, Dev.reg_bump_ne _ _ _ hcount]
      exact serIrq_flag_mono (by decide) h
  exact habort

theorem parserReset_of_idle {n : Nat} {d : Dev} (h : (d.ser1 n).parser.sysex = none) :
    parserReset n d = d.modSer n SerPort.parserReset := by
  have hport : d.modSer n (fun p => { p with parser := { p.parser with status := 0, data := [], skip := 0 } }) =
      d.modSer n SerPort.parserReset := by
    rw [Dev.modSer_eq_putSer, Dev.modSer_eq_putSer]
    congr 1
    cases hp : d.ser1 n with
    | mk => simp_all [SerPort.parserReset]
  unfold parserReset sysexAbort
  rw [h]
  exact hport

/-! ### A dead line (R380) -/

/-- The port declared dead, its parser reset. -/
def SerPort.died (p : SerPort) : SerPort := SerPort.parserReset { p with dead := true }

theorem detArm_dets_same {n : Nat} {d : Dev} (armed : Bool) (h : n < d.pwr.dets.length) :
    (detArm n armed d).pwr.dets[n]? = some { disarmed := !armed, count := 0 } := by
  simp [detArm, upd, h]

theorem detArm_dets_ne {n k : Nat} (armed : Bool) (d : Dev) (h : k ≠ n) : (detArm n armed d).pwr.dets[k]? = d.pwr.dets[k]? := by
  simp [detArm, upd, Ne.symm h]

/-- A line past LINE_DEAD_TIME of low, its port not yet dead. -/
def DeadDue (d : Dev) (n e : Nat) : Prop :=
  d.serOn n = true ∧ d.isOn Dom.ctrl = true ∧ (d.ser1 n).lowSince = some e ∧
    msEf d (d.fld Reg.SER_TIMEOUTS 11 0) < efSince d.now e ∧ (d.ser1 n).dead = false

/-- The port dead, its status bit set and its detector disarmed. -/
def deadMarked (n : Nat) (d : Dev) : Dev :=
  detArm n false ((serIrq n 6 (d.modSer n (fun p => { p with dead := true }))).modSer n SerPort.parserReset)

theorem lineDeadDev_due {d : Dev} {n e : Nat} (h : DeadDue d n e) (hs : (d.ser1 n).parser.sysex = none) :
    lineDeadDev n d = (deadMarked n d).logEv 0x05 0x01 1 [n] := by
  obtain ⟨hon, hctrl, hlow, hdue, hdead⟩ := h
  have hlen : n < d.ser.ports.length := Dev.lt_of_ser1 fun hr => by rw [hr] at hlow; cases hlow
  have hsysex : ((serIrq n 6 (d.modSer n (fun p => { p with dead := true }))).ser1 n).parser.sysex = none := by
    rw [Dev.ser1_of_ser (d := d.modSer n (fun p => { p with dead := true })) (by simp), Dev.ser1_modSer _ hlen]
    exact hs
  unfold lineDeadDev deadMarked
  dsimp only
  rw [hlow]
  dsimp only
  rw [if_neg (by simp [hon, hctrl, hdue, hdead]), parserReset_of_idle hsysex]

/-- Settles O36: a break and a dead line by the steps they make on the port, its registers and its wake detector. -/
theorem breaksAndDeadLines : Obligations.BreaksAndDeadLines := by
  refine ⟨fun s n hon hsees hm hlow hin hbroke hrx => ?uart, fun s n hon hsees hm hlow hin hbroke => ?midi, fun s n hbroke => ?once,
    fun s n e hon hctrl hlow hdue hdead hsysex hdets => ?dead, fun s n hlow => ?notLow, fun s n hon hsees hdead hdets => ?recover,
    fun s n hdead => ?alive⟩
  case uart =>
    have hdue : BreakDue s.dev n := ⟨hon, hsees, hlow, hin, hbroke⟩
    obtain ⟨-, hser, -⟩ := serOn_parts hon
    have hroom : ((breakMarked n s.dev).ser1 n).rx.length < 64 := by rw [(breakMarked_step n s.dev).ser1 hdue.lt]; exact hrx
    rw [yields_devNext (f := breakDev n) _ rfl, breakDev_due hdue (by omega), if_neg (by omega), rxStore_of_room _ hroom]
    have hall := (breakMarked_step n s.dev).trans (.modSer _ n (fun p => { p with rx := p.rx ++ [⟨0, false, false, true, s.dev.now⟩] }) _)
    refine ⟨by rw [hall.ser1 hdue.lt]; rfl, hall.others, by rw [hall.ser1 hdue.lt]; rfl, breakMarked_flag hser, breakMarked_fld n s.dev,
      hall.regs, (breakMarked_alone n s.dev).trans rfl⟩
  case midi =>
    have hdue : BreakDue s.dev n := ⟨hon, hsees, hlow, hin, hbroke⟩
    obtain ⟨-, hser, -⟩ := serOn_parts hon
    rw [yields_devNext (f := breakDev n) _ rfl, breakDev_due hdue (by omega), if_pos hm]
    have hport := (((breakMarked_step n s.dev).mono (List.subset_append_left _ (parserRegs n))).trans
      ((parserReset_step n _).mono (List.subset_append_right _ _))).ser1 hdue.lt
    refine ⟨by rw [hport]; rfl, by rw [hport]; rfl, by rw [hport]; rfl, by rw [hport]; rfl, parserReset_flag (breakMarked_flag hser), ?_⟩
    rw [CountsFld, parserReset_fld]
    exact breakMarked_fld n s.dev
  case once =>
    exact devNext_same (f := breakDev n) (if_pos (by simp [hbroke]))
  case dead =>
    obtain ⟨hn, hser, -⟩ := serOn_parts hon
    have hlen : n < s.dev.ser.ports.length := Dev.lt_of_ser1 fun hr => by rw [hr] at hlow; cases hlow
    rw [yields_devNext (f := lineDeadDev n) _ rfl, lineDeadDev_due ⟨hon, hctrl, hlow, hdue, hdead⟩ hsysex]
    have hmark : PortStep [Reg.SER_IRQ_STAT n] n SerPort.died s.dev (deadMarked n s.dev) :=
      (((PortStep.modSer _ n (fun p => { p with dead := true }) s.dev).trans (serIrq_step 6 _ (by simp))).trans (.modSer _ n _ _)).trans
        (g := fun p => p) (.of_regs (.of_regs rfl) rfl)
    have hlogged := hmark.mono (r := [Reg.SER_IRQ_STAT n, Reg.MGT_CNT_LOG_DROP]) (by simp)
    have hall := hlogged.trans (logEv_step n 0x05 0x01 1 [n] (deadMarked n s.dev) (by simp))
    refine ⟨by rw [hall.ser1 hlen]; rfl, by rw [hall.ser1 hlen]; rfl, by rw [hall.ser1 hlen]; rfl, ?_, ?_, fun k hk => ?_,
      logs_logEv _ _ _ _ ?_ ?_, hall.regs, hall.others, ?_⟩
    · have hlog : Reg.SER_IRQ_STAT n ≠ Reg.MGT_CNT_LOG_DROP := by simp only [Reg.SER_IRQ_STAT, Reg.MGT_CNT_LOG_DROP]; omega
      rw [Dev.flag, Dev.reg_logEv_ne _ _ _ _ _ _ hlog]
      exact Dev.flag_setIrq (s.dev.modSer n _) _ _ _ (by decide) hser
    · rw [Dev.pwr_logEv]
      exact detArm_dets_same false (by simpa [Dev.modSer] using hdets)
    · rw [Dev.pwr_logEv]
      exact (detArm_dets_ne false _ hk).trans (by simp [Dev.modSer])
    all_goals simp [deadMarked, detArm, Dev.modSer]
  case notLow =>
    exact devNext_same (f := lineDeadDev n) (by unfold lineDeadDev; dsimp only; rw [hlow]; exact if_pos (by simp))
  case recover =>
    have hlen : n < s.dev.ser.ports.length := Dev.lt_of_ser1 fun hr => by rw [hr] at hdead; cases hdead
    rw [yields_devNext (f := lineRecoverDev n) _ rfl, lineRecoverDev, if_pos (by simp [hon, hsees, hdead])]
    have hstep := PortStep.modSer [] n (fun p => let q := { p with dead := false }; if q.inChar then q else rxArm s.dev.now q) s.dev
    refine ⟨(congrArg SerPort.dead (hstep.ser1 hlen)).trans ?_, fun hin => (congrArg SerPort.armed (hstep.ser1 hlen)).trans ?_,
      detArm_dets_same true hdets, fun k hk => detArm_dets_ne true _ hk, rfl, hstep.others⟩
    · dsimp only
      split <;> rfl
    · simp [hin, rxArm]
  case alive =>
    exact devNext_same (f := lineRecoverDev n) (if_neg (by simp [hdead]))

end Sys2Proof.Machine
end

section
/-! PROOF. The statement on transmitters (R371, R374, R381, R383, R384, R393, R394). -/

namespace Sys2Proof.Machine

open Sys2Proof

/-! ### A character's bits and pulses (R371, R393) -/

/-- The parity bit of a character, where one is set. -/
def parityBits (ctl : Word) (b : Byte) : List Bool :=
  let odd := (((List.range 8).map (fun k => b.getLsbD k)).filter id).length % 2 = 1
  if ctl.bits 1 0 = 2 then [] else if ctl.bits 3 2 = 1 then [decide odd] else if ctl.bits 3 2 = 2 then [!decide odd] else []

/-- The stop bits of a character. -/
def stopBits (ctl : Word) : List Bool := if !decide (ctl.bits 1 0 = 2) && ctl.getLsbD 4 then [true, true] else [true]

theorem charBits_eq (ctl : Word) (b : Byte) :
    charBits ctl b = false :: ((List.range 8).map (fun k => b.getLsbD k) ++ (parityBits ctl b ++ stopBits ctl)) := by
  rw [← List.append_assoc]
  rfl

theorem parityBits_length (ctl : Word) (b : Byte) :
    (parityBits ctl b).length = if ctl.bits 1 0 ≠ 2 ∧ (ctl.bits 3 2 = 1 ∨ ctl.bits 3 2 = 2) then 1 else 0 := by
  unfold parityBits
  by_cases hm : ctl.bits 1 0 = 2
  · simp [hm]
  · by_cases h1 : ctl.bits 3 2 = 1
    · simp [hm, h1]
    · by_cases h2 : ctl.bits 3 2 = 2 <;> simp [hm, h1, h2]

theorem stopBits_length (ctl : Word) : (stopBits ctl).length = 1 + if ctl.bits 1 0 ≠ 2 ∧ ctl.getLsbD 4 = true then 1 else 0 := by
  unfold stopBits
  by_cases hm : ctl.bits 1 0 = 2
  · simp [hm]
  · cases ctl.getLsbD 4 <;> simp [hm]

theorem stopBits_getLast (ctl : Word) : (stopBits ctl).getLast? = some true := by
  unfold stopBits
  split <;> rfl

theorem charBits_data (ctl : Word) (b : Byte) {k : Nat} (h : k < 8) : (charBits ctl b).getD (k + 1) true = b.getLsbD k := by
  rw [charBits_eq, List.getD_cons_succ, List.getD_append _ _ _ _ (by simpa using h)]
  simp [List.getD_eq_getElem?_getD, h]

theorem charBits_length (ctl : Word) (b : Byte) : (charBits ctl b).length =
    10 + (if ctl.bits 1 0 ≠ 2 ∧ (ctl.bits 3 2 = 1 ∨ ctl.bits 3 2 = 2) then 1 else 0) +
      (if ctl.bits 1 0 ≠ 2 ∧ ctl.getLsbD 4 = true then 1 else 0) := by
  rw [charBits_eq, List.length_cons, List.length_append, List.length_append, parityBits_length, stopBits_length, List.length_map,
    List.length_range]
  omega

theorem charBits_last (ctl : Word) (b : Byte) : (charBits ctl b).getLast? = some true := by
  rw [charBits_eq, ← List.cons_append, ← List.append_assoc, List.getLast?_append, stopBits_getLast]
  rfl

/-- Two edges for each 0 of a list of bits. -/
theorem length_pulses {α : Type} (x y : Nat → α) (l : List Bool) :
    ((List.range l.length).flatMap (fun i => if l.getD i true then [] else [x i, y i])).length = 2 * (l.filter (fun x => !x)).length := by
  induction l using List.reverseRecOn with
  | nil => rfl
  | append_singleton l a ih =>
    have hfront : (List.range l.length).flatMap (fun i => if (l ++ [a]).getD i true then [] else [x i, y i]) =
        (List.range l.length).flatMap (fun i => if l.getD i true then [] else [x i, y i]) := by
      refine List.flatMap_congr fun i hi => ?_
      rw [List.getD_append _ _ _ _ (List.mem_range.1 hi)]
    have hlast : (l ++ [a]).getD l.length true = a := by simp [List.getD_eq_getElem?_getD]
    rw [List.length_append, List.length_singleton, List.range_succ, List.flatMap_append, List.length_append, hfront, ih,
      List.flatMap_singleton, hlast, List.filter_append, List.length_append]
    cases a
    · simp
      omega
    · simp

theorem charEdges_length {fam : Bool} {ctl : Word} (div : Nat) (b : Byte) (h : ctl.bits 1 0 = 3) :
    (charEdges fam ctl div b).length = 2 * ((charBits ctl b).filter (fun x => !x)).length := by
  unfold charEdges
  dsimp only
  simp only [h, if_true]
  exact length_pulses _ _ (charBits ctl b)

/-! ### The commands (R381 to R384) -/

theorem serTxWriteDev_pushes {d : Dev} {n : Nat} (v : Word) (hn : n < 4) (hon : d.isOn Dom.serial = true)
    (hthru : d.flag (Reg.SER_CTL n) 8 = false) : serTxWriteDev n v d = txPush n (BitVec.ofNat 8 (v.bits 7 0)) d :=
  if_pos (by simp [hn, hon, hthru])

theorem txKick_alone (n : Nat) (d : Dev) : txKick n d = { d with ser := (txKick n d).ser } ∧ (txKick n d).ser.bufs = d.ser.bufs := by
  unfold txKick
  dsimp only
  split
  · exact ⟨rfl, rfl⟩
  · split <;> exact ⟨rfl, rfl⟩

/-- A kick of a changed port concerns that port alone, and the port is as changed and kicked. -/
theorem txKick_modSer {s : State} {n : Nat} (f : SerPort → SerPort) (hlen : n < s.dev.ser.ports.length) (e : Dev)
    (he : e = txKick n (s.dev.modSer n f)) : OnlySerial s e n ∧ e.ser1 n = s.dev.kicked n (f (s.dev.ser1 n)) := by
  have hstep := (PortStep.modSer [] n f s.dev).trans (txKick_step [] n (s.dev.modSer n f))
  obtain ⟨halone, hbufs⟩ := txKick_alone n (s.dev.modSer n f)
  subst he
  exact ⟨⟨halone, hbufs, hstep.others⟩, hstep.ser1 hlen⟩

theorem kicked_waits {d : Dev} {n : Nat} {p : SerPort} (hre : p.reply = [])
    (h : p.shifter.isSome = true ∨ p.txBreak = true ∨ p.txGap = true ∨ d.serMode n = 0 ∨ p.tx = []) : d.kicked n p = p := by
  rw [Dev.kicked, SerPort.kick_of_nil _ _ _ _ hre, SerPort.kickFilled_waits _ _ _ _ h]

theorem kicked_begins {d : Dev} {n : Nat} {p : SerPort} {b : Byte} {r : List Byte} (hre : p.reply = []) (hs : p.shifter = none)
    (hb : p.txBreak = false) (hg : p.txGap = false) (hm : d.serMode n ≠ 0) (ht : p.tx = b :: r) : d.kicked n p = { p with
      shifter := some b, tx := r, txCtl := d.reg (Reg.SER_CTL n), txDiv := d.reg (Reg.SER_DIV n)
      armed := p.armed || (p.inChar && d.serMode n == 3), inChar := p.inChar && d.serMode n != 3
      line := if d.serMode n = 3 then some (d.now, false) else p.line } := by
  rw [Dev.kicked, SerPort.kick_of_nil _ _ _ _ hre, SerPort.kickFilled_begins _ _ _ hs hb hg hm ht]
  exact SerPort.fill_of_nil hre

/-- The port whose character is complete. -/
def SerPort.sent (on : Bool) (deaf : Option Nat) (p : SerPort) : SerPort := { p with shifter := none, deafTo := deaf, txBreak := on }

theorem characterSentDev_sent {d : Dev} {n : Nat} (hon : d.serOn n = true) (hs : (d.ser1 n).shifter.isSome = true) :
    characterSentDev n d = txKick n (d.modSer n (SerPort.sent (d.flag (Reg.SER_CTL n) 11) (deafAfter d n))) := by
  unfold characterSentDev
  dsimp only
  rw [if_neg (by simp [hon]), if_pos hs]
  rfl

/-- Settles O37: a character by its list of bits, and the transmitter's commands by the kick they end in. -/
theorem transmittersSendTheirFifo : Obligations.TransmittersSendTheirFifo := by
  refine ⟨fun ctl b => ⟨by rw [charBits_eq]; rfl, charBits_last ctl b, fun k hk => charBits_data ctl b hk, charBits_length ctl b⟩,
    fun fam ctl div b h => charEdges_length div b h, fun s n v hn hlen hon hturn hthru hre => ?write, fun s n v hthru => ?thru,
    fun s n c hon hs hre => ?sent, fun s n hon hs hgap => ?gap, fun s n hs hgap => ?idle⟩
  case write =>
    have hyields (P : Dev → Prop) : Yields (.serTxWrite n v) s P ↔ P (txPush n (BitVec.ofNat 8 (v.bits 7 0)) s.dev) := by
      rw [yields_hostNext (f := serTxWriteDev n v) P rfl hturn, serTxWriteDev_pushes v hn hon hthru]
    simp only [hyields]
    set b := BitVec.ofNat 8 (v.bits 7 0)
    refine ⟨fun hroom hs => ?_, fun htx hs hbrk hgap hm => ?_, fun hfull => ?_⟩
    · obtain ⟨honly, hport⟩ := txKick_modSer (SerPort.pushed b) hlen (txPush n b s.dev) (if_neg (by omega))
      exact ⟨honly, hport.trans (kicked_waits (p := (s.dev.ser1 n).pushed b) hre (.inl hs))⟩
    · obtain ⟨honly, hport⟩ := txKick_modSer (SerPort.pushed b) hlen (txPush n b s.dev) (if_neg (by simp [htx]))
      exact ⟨honly, hport.trans (kicked_begins (p := (s.dev.ser1 n).pushed b) hre hs hbrk hgap hm (by rw [SerPort.pushed, htx]; rfl))⟩
    · rw [txPush_of_full b hfull]
      refine ⟨by simp, Dev.flag_setIrq s.dev _ _ _ (by decide) hon, setIrq_regs s.dev _ _ (by simp), ?_⟩
      unfold serIrq Dev.setIrq
      split <;> rfl
  case thru => exact hostNext_same (f := serTxWriteDev n v) (if_neg (by simp [hthru]))
  case sent =>
    have hsome : (s.dev.ser1 n).shifter.isSome = true := by rw [hs]; rfl
    have hlen : n < s.dev.ser.ports.length := Dev.lt_of_ser1 fun hr => by rw [hr] at hs; cases hs
    have hyields (P : Dev → Prop) : Yields (.characterSent n) s P ↔ P (characterSentDev n s.dev) :=
      yields_devNext (f := characterSentDev n) P rfl
    simp only [hyields]
    obtain ⟨honly, hport⟩ := txKick_modSer (SerPort.sent (s.dev.flag (Reg.SER_CTL n) 11) (deafAfter s.dev n)) hlen (characterSentDev n s.dev)
      (characterSentDev_sent hon hsome)
    refine ⟨fun hbrk => ⟨honly, hport.trans ?_⟩, fun hbrk htx => ⟨honly, hport.trans ?_⟩, fun b r hbrk htx hroom hgap hm => ⟨honly, hport.trans ?_⟩⟩
    · rw [hbrk, kicked_waits (p := (s.dev.ser1 n).sent true (deafAfter s.dev n)) hre (.inr (.inl rfl))]
      rfl
    · rw [hbrk, kicked_waits (p := (s.dev.ser1 n).sent false (deafAfter s.dev n)) hre (.inr (.inr (.inr (.inr htx))))]
      rfl
    · rw [hbrk, kicked_begins (p := (s.dev.ser1 n).sent false (deafAfter s.dev n)) hre rfl rfl hgap hm htx]
      rfl
  case gap =>
    have hlen : n < s.dev.ser.ports.length := Dev.lt_of_ser1 fun hr => by rw [hr] at hgap; cases hgap
    rw [yields_devNext (f := characterSentDev n) _ rfl]
    obtain ⟨honly, hport⟩ := txKick_modSer (fun p => { p with txGap := false }) hlen (characterSentDev n s.dev)
      (by unfold characterSentDev; dsimp only; rw [if_neg (by simp [hon]), if_neg (by simp [hs]), if_pos hgap])
    refine ⟨honly, (congrArg SerPort.txGap hport).trans ?_⟩
    exact (SerPort.kick_keeps _ _ _ _ _).2.2.2.1
  case idle =>
    refine devNext_same (f := characterSentDev n) ?_
    unfold characterSentDev
    dsimp only
    rw [hs, hgap]
    split <;> rfl

end Sys2Proof.Machine
end

section
/-! PROOF. The mover's channels, and the statement on what they accept and how they end (R437, R438). -/

namespace Sys2Proof.Machine

open Sys2Proof

/-! ### One channel changed -/

theorem Dev.mover_modMover_same {d : Dev} {c : Nat} (f : Mover → Mover) (h : c < d.mem.movers.length) :
    (d.modMover c f).mover c = f (d.mover c) := (at_upd _ _ _ _ _ h).trans (if_pos rfl)

theorem Dev.mover_modMover_ne (d : Dev) {c k : Nat} (f : Mover → Mover) (h : k ≠ c) : (d.modMover c f).mover k = d.mover k :=
  at_upd_ne _ _ _ h

/-- A channel that is not as at reset is one of the device's. -/
theorem Dev.mover_lt {d : Dev} {c : Nat} (h : d.mover c ≠ Mover.reset) : c < d.mem.movers.length := by
  by_contra hn
  exact h (List.getD_eq_default _ _ (Nat.le_of_not_lt hn))

theorem Dev.mover_lt_of_busy {d : Dev} {c : Nat} (h : (d.mover c).state = .busy) : c < d.mem.movers.length :=
  Dev.mover_lt fun hr => by rw [hr] at h; cases h

theorem Dev.mover_of_mem {d e : Dev} (h : e.mem.movers = d.mem.movers) (c : Nat) : e.mover c = d.mover c := by rw [Dev.mover, h]; rfl

/-! ### What a channel does on GO, ABORT and its last byte -/

theorem moverStop_busy {d : Dev} {c : Nat} (h : (d.mover c).state = .busy) : moverStop c d =
    { d.modMover c (fun m => { m with state := .aborted }) with mem := { (d.modMover c (fun m => { m with state := .aborted })).mem with
      laneMov := { d.mem.laneMov with part := 0 } } } := if_pos h

theorem moverStop_mover {d : Dev} {c : Nat} (h : (d.mover c).state = .busy) :
    (moverStop c d).mover c = { d.mover c with state := .aborted } ∧ ∀ k, k ≠ c → (moverStop c d).mover k = d.mover k := by
  rw [moverStop_busy h]
  exact ⟨Dev.mover_modMover_same _ (Dev.mover_lt_of_busy h), fun k hk => Dev.mover_modMover_ne d _ hk⟩

/-- A command on a channel has its function's effect: the host's channels take their turn. -/
theorem yields_mover {c : Nat} {i : Instr} {s : State} {f : Dev → Dev} (P : Dev → Prop)
    (hi : exec i s = if c < 2 then hostNext s f else devNext s f) (hturn : c < 2 → hostTurn s.dev = true) :
    Yields i s P ↔ P (f s.dev) := by
  by_cases hc : c < 2
  · exact yields_hostNext P (hi.trans (if_pos hc)) (hturn hc)
  · exact yields_devNext P (hi.trans (if_neg hc))

theorem mover_same {c : Nat} {i : Instr} {s : State} {f : Dev → Dev} (hi : exec i s = if c < 2 then hostNext s f else devNext s f)
    (h : f s.dev = s.dev) : exec i s = .next s := by
  rw [hi, hostNext_same h, devNext_same h, ite_self]

theorem moverTake_rejects {c why : Nat} (m : Mover) (d : Dev) (h : why ≠ 0) : moverTake c m why d =
    ((d.modMover c (fun _ => { m with state := .rejected, reason := why })).putFlag Reg.MEM_IRQ_STAT 1 true).bump Reg.MEM_CNT_MV_REJ :=
  if_neg h

/-- What R437's checks have found of an accepted transfer. -/
theorem moverReason_zero {d : Dev} {c : Nat} {m : Mover} (h : moverReason d c m = 0) (hsrc : m.srcSpace ≤ 8) (hdst : m.dstSpace ≤ 8) :
    (d.isOn (spaceDom m.srcSpace) = true ∧ d.isOn (spaceDom m.dstSpace) = true) ∧
    (m.src + m.length ≤ spaceSize m.srcSpace ∧ m.dst + m.length ≤ spaceSize m.dstSpace) ∧
    (m.src % 4 = 0 ∧ m.dst % 4 = 0 ∧ m.length % 4 = 0) ∧
    (m.srcSpace = m.dstSpace → m.dst + m.length ≤ m.src ∨ m.src + m.length ≤ m.dst) ∧
    (spaceOk c m.srcSpace false = true ∧ spaceOk c m.dstSpace true = true) := by
  unfold moverReason at h
  dsimp only at h
  simp only [hsrc, hdst, decide_true, Bool.true_and] at h
  split at h
  · cases h
  next hon =>
  split at h
  · cases h
  next hsize =>
  split at h
  · cases h
  next halign =>
  split at h
  · cases h
  next hapart =>
  split at h
  · cases h
  next hok =>
  simp only [Bool.or_eq_true, Bool.not_eq_true', not_or, Bool.not_eq_false, decide_eq_true_eq, Nat.not_lt] at hon hsize
  refine ⟨hon, hsize, ⟨by omega, by omega, by omega⟩, fun he => ?_, by simpa using hok⟩
  by_contra hover
  exact hapart ⟨he, by omega, by omega⟩

theorem spaceOk_host {c sp : Nat} {dst : Bool} (h : spaceOk c sp dst = true) (hc : c < 2) : sp ≤ 5 := by
  have hn : ¬2 ≤ c := by omega
  simpa [spaceOk, hn] using h

/-- Settles O40: the channels' commands by the one operation each makes on its channel. -/
theorem moverChannelsAcceptAndEnd : Obligations.MoverChannelsAcceptAndEnd := by
  refine ⟨fun s c v hon hmaster hlen hturn hgo => ⟨fun ⟨hidle, hwhy⟩ => ?accept, fun ⟨hidle, hwhy⟩ => ?reject, fun hbusy hab => ?ignored,
      fun hbusy hab => ?stopped⟩, fun d c m h hsrc hdst => ?reasons, fun s c hon hbusy hpos => ?done, fun s c hpos => ?notDone,
    fun s c v hon hmaster hab hturn hbusy => ?abort, fun s c v hidle => ?notBusy⟩
  case accept =>
    have heq : moverGoDev c v s.dev = s.dev.modMover c (fun _ => readDesc s.dev c) := by
      rw [moverGoDev, if_pos (by simp [hon, hmaster, hgo]), if_neg hidle, moverIssue, if_neg hidle]
      exact if_pos hwhy
    rw [yields_mover (c := c) (f := moverGoDev c v) _ rfl hturn, heq]
    exact ⟨Dev.mover_modMover_same _ hlen, fun k hk => Dev.mover_modMover_ne _ _ hk, rfl⟩
  case reject =>
    have heq : moverGoDev c v s.dev = ((s.dev.modMover c (fun _ => { readDesc s.dev c with
        state := .rejected, reason := moverReason s.dev c (readDesc s.dev c) })).putFlag Reg.MEM_IRQ_STAT 1 true).bump Reg.MEM_CNT_MV_REJ := by
      rw [moverGoDev, if_pos (by simp [hon, hmaster, hgo]), if_neg hidle, moverIssue, if_neg hidle]
      exact moverTake_rejects _ _ hwhy
    rw [yields_mover (c := c) (f := moverGoDev c v) _ rfl hturn, heq]
    set e := s.dev.modMover c (fun _ => { readDesc s.dev c with state := .rejected, reason := moverReason s.dev c (readDesc s.dev c) })
    have hput : RegsOnly [Reg.MEM_IRQ_STAT] e (e.putFlag Reg.MEM_IRQ_STAT 1 true) := .putFlag e 1 true (by simp)
    have hmover : e.mover c = _ := Dev.mover_modMover_same _ hlen
    refine ⟨congrArg Mover.state hmover, congrArg Mover.reason hmover, fun k hk => Dev.mover_modMover_ne _ _ hk, ?_, ?_,
      (hput.mono (by simp)).trans (.bump _ (by simp)), rfl⟩
    · exact ((RegsOnly.bump (l := [Reg.MEM_CNT_MV_REJ]) _ (by simp)).flag (by decide) 1).trans (Dev.flag_putFlag_same e _ _ _ (by decide))
    · exact (Dev.fld_bumpFld _ _ _ _ _ (by decide) (by decide)).trans (by rw [hput.fld (by decide)]; rfl)
  case ignored =>
    refine mover_same (c := c) (f := moverGoDev c v) rfl ?_
    rw [moverGoDev, if_pos hbusy, hab]
    exact ite_self _
  case stopped =>
    have heq : moverGoDev c v s.dev = moverStop c s.dev := by
      rw [moverGoDev, if_pos (by simp [hon, hmaster, hgo]), if_pos hbusy, if_pos hab]
    rw [yields_mover (c := c) (f := moverGoDev c v) _ rfl hturn, heq]
    obtain ⟨hsame, hother⟩ := moverStop_mover hbusy
    exact ⟨hsame, hother, by rw [moverStop_busy hbusy]; rfl⟩
  case reasons =>
    obtain ⟨⟨hson, hdon⟩, ⟨hssz, hdsz⟩, ⟨hs4, hd4, hl4⟩, hapart, hsok, hdok⟩ := moverReason_zero h hsrc hdst
    refine ⟨hson, hdon, hssz, hdsz, hs4, hd4, hl4, hapart, fun hc => ⟨spaceOk_host hsok hc, spaceOk_host hdok hc⟩, ?_, ?_⟩
    · rintro h7
      simp [spaceOk, h7] at hsok
    · rintro h6
      simp [spaceOk, h6] at hdok
  case done =>
    have hlen := Dev.mover_lt_of_busy hbusy
    have heq : moverDoneDev c s.dev = if (s.dev.mover c).irq then
        (s.dev.modMover c (fun m => { m with state := .done })).putFlag Reg.MEM_IRQ_STAT 0 true
        else s.dev.modMover c (fun m => { m with state := .done }) := if_pos ⟨hon, hbusy, hpos⟩
    rw [yields_devNext (f := moverDoneDev c) _ rfl, heq]
    cases hirq : (s.dev.mover c).irq with
    | true =>
      exact ⟨Dev.mover_modMover_same _ hlen, fun k hk => Dev.mover_modMover_ne _ _ hk,
        fun _ => ⟨Dev.flag_putFlag_same (Dev.modMover _ _ _) _ _ _ (by decide), RegsOnly.putFlag (Dev.modMover _ _ _) 0 true (by simp)⟩,
        nofun, rfl⟩
    | false =>
      exact ⟨Dev.mover_modMover_same _ hlen, fun k hk => Dev.mover_modMover_ne _ _ hk, nofun, fun _ => rfl, rfl⟩
  case notDone => exact devNext_same (f := moverDoneDev c) (if_neg fun ⟨_, _, h⟩ => hpos h)
  case abort =>
    have heq : moverAbortDev c v s.dev = moverStop c s.dev := if_pos (by simp [hon, hmaster, hab])
    rw [yields_mover (c := c) (f := moverAbortDev c v) _ rfl hturn, heq]
    obtain ⟨hsame, hother⟩ := moverStop_mover hbusy
    exact ⟨hsame, hother, by rw [moverStop_busy hbusy]; rfl⟩
  case notBusy =>
    refine mover_same (c := c) (f := moverAbortDev c v) rfl ?_
    rw [moverAbortDev, moverStop, if_neg hidle]
    exact ite_self _

end Sys2Proof.Machine
end

section
/-! SUPPORT. The stores that the mover reads and writes (R413, R414, R436, R438). -/

namespace Sys2Proof.Machine

open Sys2Proof

/-! ### Stores kept -/

/-- The stores that a space other than the flash reads from are as before. -/
structure StoresKept (d e : Dev) : Prop where
  wave : e.mem.wave = d.mem.wave
  waveLoss : e.mem.waveLoss = d.mem.waveLoss
  outwave : e.mem.outwave = d.mem.outwave
  mram : e.mem.mram = d.mem.mram
  pstore : e.mem.pstore = d.mem.pstore
  port : e.port = d.port

theorem readH_of_kept {d e : Dev} (h : StoresKept d e) (off : Nat) : e.readH off = d.readH off := by
  simp [Dev.readH, Dev.ps32, Dev.ps16, Dev.ps8, h.port, h.pstore]

theorem spaceRead_of_kept {s t : State} (h : StoresKept s.dev t.dev) {sp : Nat} (h6 : sp ≠ 6) (a n : Nat) :
    spaceRead t sp a n = spaceRead s sp a n := by
  have hdflt : waveDflt t.dev = waveDflt s.dev := by rw [waveDflt, h.waveLoss]; rfl
  simp only [spaceRead, Dev.waveBytes, Dev.ow8, Dev.mramBytes, readH_of_kept h, hdflt, h.wave, h.outwave, h.mram, if_neg h6]

theorem spaceRead_length (s : State) (sp a n : Nat) : (spaceRead s sp a n).length = n := by
  unfold spaceRead
  dsimp only
  split_ifs <;> simp [Dev.waveBytes, Dev.mramBytes, flashBytes]

/-! ### Bytes put into a space (R438) -/

/-- A space of the wave DRAM, an output waveform memory or management RAM reads as one run of a store. -/
def SpaceReads (t : State) (sp : Nat) (dflt : Nat → Byte) (m : List Host.Cell) (base : Nat) : Prop :=
  ∀ b n, spaceRead t sp b n = cellBytes dflt m (base + b) n

/-- Bytes put into a run of a store read back in its space, and every other byte of it as before. -/
theorem spaceReads_put {s t : State} {sp base : Nat} {dflt : Nat → Byte} {m : List Host.Cell} {a : Nat} {bs : List Byte}
    (hs : SpaceReads s sp dflt m base) (ht : SpaceReads t sp dflt (cellPutBytes dflt m (base + a) bs) base) :
    spaceRead t sp a bs.length = bs ∧ ∀ b, b < a ∨ a + bs.length ≤ b → spaceRead t sp b 1 = spaceRead s sp b 1 := by
  refine ⟨(ht _ _).trans (cellBytes_cellPutBytes_same _ _ _ _), fun b hb => ?_⟩
  rw [ht, hs]
  exact cellBytes_cellPutBytes_other _ _ _ _ _ _ (by omega)

theorem spaceReads_wave (t : State) : SpaceReads t 0 (waveDflt t.dev) t.dev.mem.wave 0 := fun b n => by
  rw [spaceRead, Nat.zero_add]
  rfl

theorem spaceReads_outs (t : State) {sp : Nat} (hlo : 2 ≤ sp) (hhi : sp ≤ 5) :
    SpaceReads t sp zeroByte t.dev.mem.outwave (0x10000 * (sp - 2)) := fun b n => by
  have h0 : sp ≠ 0 := by omega
  have h1 : sp ≠ 1 := by omega
  simp only [spaceRead, if_neg h0, if_neg h1, if_pos hhi]
  exact List.map_congr_left fun k _ => by rw [Dev.ow8, Nat.add_assoc]

theorem spaceReads_mram (t : State) : SpaceReads t 8 zeroByte t.dev.mem.mram 0 := fun b n => by
  rw [spaceRead, Nat.zero_add]
  rfl

theorem dramPut_mem (a : Nat) (bs : List Byte) (d : Dev) : (dramPut a bs d).mem = (d.waveRaw a bs).mem := (dramInvalidate_keeps _ _).2.1

theorem dramPut_wave (a : Nat) (bs : List Byte) (d : Dev) :
    (dramPut a bs d).mem.wave = cellPutBytes (waveDflt d) d.mem.wave a bs ∧ waveDflt (dramPut a bs d) = waveDflt d := by
  have hmem := dramPut_mem a bs d
  refine ⟨by rw [hmem]; rfl, ?_⟩
  unfold waveDflt
  rw [hmem]
  rfl

theorem spaceWrite_wave (s : State) (a : Nat) (bs : List Byte) : spaceWrite s 0 a bs = s.onDev (dramPut a bs) := if_pos rfl

theorem spaceWrite_outs (s : State) {sp : Nat} (hlo : 2 ≤ sp) (hhi : sp ≤ 5) (a : Nat) (bs : List Byte) :
    spaceWrite s sp a bs = s.onDev (fun d => d.owRaw (sp - 2) a bs) := by
  rw [spaceWrite, if_neg (by omega), if_neg (by omega), if_pos hhi]

theorem spaceWrite_mram (s : State) (a : Nat) (bs : List Byte) : spaceWrite s 8 a bs = s.onDev (fun d => d.mramRaw a bs) := by
  rw [spaceWrite, if_neg (by decide), if_neg (by decide), if_neg (by decide), if_neg (by decide)]

/-- Bytes put into a space other than the parameter store and the flash read back, and every other byte of it as before. -/
theorem spaceWrite_reads {s : State} {sp : Nat} (hsp : sp ∈ [0, 2, 3, 4, 5, 8]) (a : Nat) (bs : List Byte) :
    (spaceRead (spaceWrite s sp a bs) sp a bs.length = bs ∧
      ∀ b, b < a ∨ a + bs.length ≤ b → spaceRead (spaceWrite s sp a bs) sp b 1 = spaceRead s sp b 1) ∧
    (spaceWrite s sp a bs).prot = s.prot ∧ (spaceWrite s sp a bs).dev.mem.pstore = s.dev.mem.pstore := by
  obtain rfl | rfl | ⟨hlo, hhi⟩ : sp = 0 ∨ sp = 8 ∨ 2 ≤ sp ∧ sp ≤ 5 := by
    simp only [List.mem_cons, List.not_mem_nil, or_false] at hsp
    omega
  · rw [spaceWrite_wave]
    have hwave := spaceReads_wave (s.onDev (dramPut a bs))
    obtain ⟨hput, hdflt⟩ := dramPut_wave a bs s.dev
    rw [State.onDev_dev, hput, hdflt] at hwave
    refine ⟨spaceReads_put (spaceReads_wave s) (by rwa [Nat.zero_add]), State.onDev_prot _ _, ?_⟩
    rw [State.onDev_dev, dramPut_mem]
    rfl
  · rw [spaceWrite_mram]
    exact ⟨spaceReads_put (spaceReads_mram s) (by rw [Nat.zero_add]; exact spaceReads_mram _), rfl, rfl⟩
  · rw [spaceWrite_outs s hlo hhi]
    exact ⟨spaceReads_put (spaceReads_outs s hlo hhi) (spaceReads_outs _ hlo hhi), rfl, rfl⟩

/-- The flash programs by clearing bits, byte by byte. -/
theorem cellGet_flashProgram (bs : List Byte) (fl : List Host.Cell) (a b : Nat) :
    cellGet flashDflt (flashProgram fl a bs) b =
      if a ≤ b ∧ b < a + bs.length then cellGet flashDflt fl b &&& bs.getD (b - a) 0 else cellGet flashDflt fl b := by
  induction bs generalizing fl a with
  | nil =>
    rw [if_neg (by rw [List.length_nil]; omega)]
    rfl
  | cons x r ih =>
    rw [flashProgram, ih, List.length_cons]
    by_cases hb : b = a
    · subst hb
      rw [if_neg (by omega), if_pos (by omega), cellGet_cellSet_same, Nat.sub_self]
      rfl
    · rw [cellGet_cellSet_ne _ _ _ _ _ hb]
      by_cases hin : a + 1 ≤ b ∧ b < a + 1 + r.length
      · rw [if_pos hin, if_pos (by omega), show b - a = b - (a + 1) + 1 by omega]
        rfl
      · rw [if_neg hin, if_neg (by omega)]

theorem flashBytes_flashProgram (fl : List Host.Cell) (a : Nat) (bs : List Byte) :
    flashBytes (flashProgram fl a bs) a bs.length = List.zipWith (· &&& ·) (flashBytes fl a bs.length) bs := by
  apply List.ext_getElem (by simp [flashBytes])
  intro k h1 h2
  simp only [flashBytes, cellBytes_length] at h1
  simp only [flashBytes, cellBytes, List.getElem_map, List.getElem_range, List.getElem_zipWith]
  rw [cellGet_flashProgram, if_pos (by omega), Nat.add_sub_cancel_left, List.getD_eq_getElem _ _ h1]

theorem flashBytes_flashProgram_other (fl : List Host.Cell) (a : Nat) (bs : List Byte) {b : Nat} (h : b < a ∨ a + bs.length ≤ b) :
    flashBytes (flashProgram fl a bs) b 1 = flashBytes fl b 1 :=
  cellBytes_congr _ _ _ _ _ fun x h1 h2 => by rw [cellGet_flashProgram, if_neg (by omega)]

/-! ### Words posted on port H (R413, R414) -/

/-- Word k of a run of bytes for the parameter store from an address on, as the mover posts it. -/
def movedWord (d : Dev) (a : Nat) (bs : List Byte) (k : Nat) : HWrite :=
  ⟨a + 4 * k, Word.ofBytes (bs.getD (4 * k) 0) (bs.getD (4 * k + 1) 0) (bs.getD (4 * k + 2) 0) (bs.getD (4 * k + 3) 0), 15, d.now, true⟩

theorem spaceWrite_store {s : State} {a : Nat} {bs : List Byte} (h : a + bs.length ≤ 0x80000) :
    spaceWrite s 1 a bs = s.onDev (queueWords ((List.range (bs.length / 4)).map (movedWord s.dev a bs))) := by
  have hrun (m : Nat) (hm : 4 * m ≤ bs.length) : forUpTo m (fun k d =>
      postH (a + 4 * k) (Word.ofBytes (bs.getD (4 * k) 0) (bs.getD (4 * k + 1) 0) (bs.getD (4 * k + 2) 0)
        (bs.getD (4 * k + 3) 0)) 15 true d) s.dev = queueWords ((List.range m).map (movedWord s.dev a bs)) s.dev := by
    induction m with
    | zero => rw [List.range_zero, List.map_nil, queueWords_nil]; rfl
    | succ m ih =>
      have hres : psReserved (a + 4 * m) = false := by simp [psReserved]; omega
      rw [forUpTo_succ, ih (by omega), postH, hres, List.range_succ, List.map_append, ← queueWords_append]
      rfl
  rw [spaceWrite, if_neg (by decide), if_pos rfl]
  exact congrArg (fun d => { s with dev := d }) (hrun _ (Nat.mul_div_le _ 4))

theorem HWrite.over_whole (w : HWrite) (h : w.be = 15) (x : Word) :
    w.over x = Word.ofBytes (w.value.byte 0) (w.value.byte 1) (w.value.byte 2) (w.value.byte 3) := by
  unfold HWrite.over
  rw [h]
  rfl

theorem byte_ofBytes (b : Nat → Byte) {k : Nat} (h : k < 4) : (Word.ofBytes (b 0) (b 1) (b 2) (b 3)).byte k = b k := by
  apply BitVec.eq_of_getLsbD_eq
  intro i hi
  simp only [Word.byte, Word.ofBytes, BitVec.getLsbD_extractLsb', BitVec.getLsbD_append, hi, decide_true, Bool.true_and]
  interval_cases k
  · simp [hi]
  all_goals grind

/-- The newest whole word queued at an offset is what port H reads there. -/
theorem readH_queueWords {d : Dev} {l : List HWrite} {w : HWrite} (hw : l.filter (fun x => x.offset == w.offset) = [w]) (h : w.be = 15) :
    (queueWords l d).readH w.offset = w.over 0 := by
  unfold Dev.readH queueWords
  dsimp only
  rw [List.filter_append, List.foldl_append, hw]
  simp only [List.foldl_cons, List.foldl_nil, HWrite.over_whole w h]

end Sys2Proof.Machine
end

section
/-! PROOF. A mover burst, and the statement on what it copies (R413, R414, R438, R441, R481). -/

namespace Sys2Proof.Machine

open Sys2Proof

/-! ### What follows the bytes: the channel, the lanes and the counts (R433, R438, R444) -/

/-- Channel m's state after n more bytes. -/
def Mover.moved (n : Nat) (bs : List Byte) (m : Mover) : Mover :=
  { m with pos := m.pos + n, crc := if m.crcOn then crcMore m.crc bs else m.crc }

/-- The lanes and the free values after a burst of m of n bytes. -/
def burstLanes (m : Mover) (n : Nat) (d : Dev) : Dev :=
  let d := if moverLines m n = 0 then d else movMoved (moverLines m n) d
  if m.srcSpace = 6 ∧ !d.nvReach then { d with fresh := d.fresh + n } else d

/-- The device after a burst of channel c, its bytes already put. -/
def burstTail (c n : Nat) (m : Mover) (bs : List Byte) (d : Dev) : Dev :=
  (((burstLanes m n d).modMover c (Mover.moved n bs)).bumpBy Reg.MEM_CNT_MOV (moverLines m n)).emit 28 (moverLines m n)

theorem moverMove_eq (c n : Nat) (s : State) :
    let m := s.dev.mover c
    let bs := spaceRead s m.srcSpace (m.src + m.pos) n
    moverMove c n s = (spaceWrite s m.dstSpace (m.dst + m.pos) bs).onDev (burstTail c n m bs) := rfl

namespace StoresKept

theorem refl (d : Dev) : StoresKept d d := ⟨rfl, rfl, rfl, rfl, rfl, rfl⟩

theorem trans {d e u : Dev} (h : StoresKept d e) (k : StoresKept e u) : StoresKept d u :=
  ⟨k.wave.trans h.wave, k.waveLoss.trans h.waveLoss, k.outwave.trans h.outwave, k.mram.trans h.mram, k.pstore.trans h.pstore,
    k.port.trans h.port⟩

end StoresKept

theorem movMoved_rest (n : Nat) (d : Dev) : StoresKept d (movMoved n d) ∧ (movMoved n d).mem.movers = d.mem.movers :=
  ⟨⟨rfl, rfl, rfl, rfl, rfl, rfl⟩, rfl⟩

theorem burstLanes_rest (m : Mover) (n : Nat) (d : Dev) : StoresKept d (burstLanes m n d) ∧
    (burstLanes m n d).mem.movers = d.mem.movers ∧ (burstLanes m n d).par = d.par ∧ (burstLanes m n d).pwr = d.pwr := by
  have hlane : StoresKept d (if moverLines m n = 0 then d else movMoved (moverLines m n) d) ∧
      (if moverLines m n = 0 then d else movMoved (moverLines m n) d).mem.movers = d.mem.movers ∧
      (if moverLines m n = 0 then d else movMoved (moverLines m n) d).par = d.par ∧
      (if moverLines m n = 0 then d else movMoved (moverLines m n) d).pwr = d.pwr := by
    split
    · exact ⟨.refl d, rfl, rfl, rfl⟩
    · obtain ⟨hkept, hmovers⟩ := movMoved_rest (moverLines m n) d
      exact ⟨hkept, hmovers, by simp, by simp⟩
  unfold burstLanes
  dsimp only
  generalize (if moverLines m n = 0 then d else movMoved (moverLines m n) d) = e at hlane
  obtain ⟨hkept, hmovers, hpar, hpwr⟩ := hlane
  split
  · exact ⟨hkept.trans ⟨rfl, rfl, rfl, rfl, rfl, rfl⟩, hmovers, hpar, hpwr⟩
  · exact ⟨hkept, hmovers, hpar, hpwr⟩

theorem burstTail_rest (c n : Nat) (m : Mover) (bs : List Byte) (d : Dev) : StoresKept d (burstTail c n m bs d) ∧
    (burstTail c n m bs d).mem.movers = upd d.mem.movers c (Mover.moved n bs) ∧
    (burstTail c n m bs d).par = d.par ∧ (burstTail c n m bs d).pwr = d.pwr := by
  obtain ⟨hkept, hmovers, hpar, hpwr⟩ := burstLanes_rest m n d
  refine ⟨hkept.trans ⟨rfl, rfl, rfl, rfl, rfl, rfl⟩, ?_, hpar, hpwr⟩
  rw [← hmovers]
  rfl

/-! ### The bytes put leave the channels and the rest as they are -/

theorem forUpTo_queues {f : Nat → Dev → Dev} (h : ∀ k d, ∃ l, f k d = queueWords l d) (n : Nat) (d : Dev) :
    ∃ l, forUpTo n f d = queueWords l d := by
  induction n with
  | zero => exact ⟨[], (queueWords_nil d).symm⟩
  | succ n ih =>
    obtain ⟨l, hl⟩ := ih
    obtain ⟨r, hr⟩ := h n (queueWords l d)
    exact ⟨l ++ r, by rw [forUpTo_succ, hl, hr, queueWords_append]⟩

theorem spaceWrite_rest (s : State) (sp a : Nat) (bs : List Byte) :
    (spaceWrite s sp a bs).dev.mem.movers = s.dev.mem.movers ∧ (spaceWrite s sp a bs).dev.par = s.dev.par ∧
    (spaceWrite s sp a bs).dev.pwr = s.dev.pwr ∧ (spaceWrite s sp a bs).pending = s.pending ∧
    (spaceWrite s sp a bs).prot.lock = s.prot.lock ∧ (spaceWrite s sp a bs).prot.floor = s.prot.floor ∧
    (spaceWrite s sp a bs).prot.marker = s.prot.marker := by
  unfold spaceWrite
  split
  · refine ⟨?_, ?_, ?_, State.onDev_pending _ _, by rw [State.onDev_prot], by rw [State.onDev_prot], by rw [State.onDev_prot]⟩
    · rw [State.onDev_dev, dramPut_mem]
      rfl
    · simp
    · simp
  split
  · have hpost : ∀ (k : Nat) (d : Dev), ∃ l, postH (a + 4 * k) (Word.ofBytes (bs.getD (4 * k) 0) (bs.getD (4 * k + 1) 0)
        (bs.getD (4 * k + 2) 0) (bs.getD (4 * k + 3) 0)) 15 true d = queueWords l d := fun k d => by
      unfold postH
      split
      · exact ⟨[], (queueWords_nil d).symm⟩
      · exact ⟨[_], rfl⟩
    obtain ⟨l, hl⟩ := forUpTo_queues hpost (bs.length / 4) s.dev
    rw [State.onDev, hl]
    exact ⟨rfl, rfl, rfl, rfl, rfl, rfl, rfl⟩
  split
  · exact ⟨rfl, rfl, rfl, rfl, rfl, rfl, rfl⟩
  split
  · split <;> exact ⟨rfl, rfl, rfl, rfl, rfl, rfl, rfl⟩
  · exact ⟨rfl, rfl, rfl, rfl, rfl, rfl, rfl⟩

/-! ### The burst (R438) -/

theorem burstReady_busy {d : Dev} {c : Nat} (h : burstReady d c = true) : (d.mover c).state = .busy := by
  have hable : burstAble d c = true := by
    unfold burstReady at h
    exact (Bool.and_eq_true_iff.1 h).1
  unfold burstAble at hable
  simp only [Bool.and_eq_true, beq_iff_eq] at hable
  exact hable.1.1.1.1

theorem burstNext_ready {d : Dev} {c : Nat} (h : burstNext d = some c) : burstReady d c = true := List.find?_some h

/-- A channel that cannot move keeps the state as it is. -/
theorem moverBurst_idle {s : State} {c : Nat} (h : burstReady s.dev c = false) : exec (.moverBurst c) s = .next s := by
  refine congrArg Host.Outcome.next (if_neg fun hc => ?_)
  rw [Bool.and_eq_true, beq_iff_eq] at hc
  exact absurd (burstNext_ready hc.2) (by rw [h]; decide)

theorem burstReady_of_able {d : Dev} {c : Nat} (h : burstAble d c = false) : burstReady d c = false := by
  rw [burstReady, h, Bool.false_and]

/-- The state after the burst of channel c, and all that a burst leaves as it is whatever its space. -/
theorem moverBurst_answers {s : State} {c n : Nat} {m : Mover} {bs : List Byte} (hon : s.dev.isOn Dom.memc = true)
    (hm : m = s.dev.mover c) (hnext : burstNext s.dev = some c) (hn : n = min 64 (m.length - m.pos))
    (hbs : bs = spaceRead s m.srcSpace (m.src + m.pos) n) :
    ∃ t, exec (.moverBurst c) s = .next t ∧ StoresKept (spaceWrite s m.dstSpace (m.dst + m.pos) bs).dev t.dev ∧
      t.prot = (spaceWrite s m.dstSpace (m.dst + m.pos) bs).prot ∧ t.pending = s.pending ∧ t.dev.par = s.dev.par ∧ t.dev.pwr = s.dev.pwr ∧
      t.dev.mover c = m.moved n bs ∧ ∀ k, k ≠ c → t.dev.mover k = s.dev.mover k := by
  have hlen := Dev.mover_lt_of_busy (burstReady_busy (burstNext_ready hnext))
  set u := spaceWrite s m.dstSpace (m.dst + m.pos) bs with hu
  obtain ⟨hmovers, hpar, hpwr, hpending, -⟩ := spaceWrite_rest s m.dstSpace (m.dst + m.pos) bs
  obtain ⟨hkept, tmovers, tpar, tpwr⟩ := burstTail_rest c n m bs u.dev
  have hmove : moverMove c (s.dev.mover c).burst s = u.onDev (burstTail c n m bs) := by
    rw [moverMove_eq, hu, hbs, hm, hn, hm]
    rfl
  refine ⟨_, congrArg Host.Outcome.next (if_pos (by rw [hon, hnext]; simp)), ?_⟩
  rw [hmove]
  have hsame : (u.onDev (burstTail c n m bs)).dev.mem.movers = upd s.dev.mem.movers c (Mover.moved n bs) := by
    rw [State.onDev_dev, tmovers, hmovers]
  refine ⟨hkept.trans ⟨rfl, rfl, rfl, rfl, rfl, rfl⟩, rfl, hpending, tpar.trans hpar, tpwr.trans hpwr, ?_, fun k hk => ?_⟩
  · exact (congrArg (fun l => at_ l c Mover.reset) hsame).trans
      (((at_upd _ _ _ _ _ hlen).trans (if_pos rfl)).trans (congrArg (Mover.moved n bs) hm.symm))
  · exact (congrArg (fun l => at_ l k Mover.reset) hsame).trans (at_upd_ne _ _ _ hk)

theorem burstNext_of_turn {d : Dev} {c : Nat} (hc : c < 4) (h : burstReady d c = true)
    (hfirst : c = d.mem.turn ∨ ∀ k, k < 4 → k ≠ c → burstReady d k = false) : burstNext d = some c := by
  unfold burstNext turnOrder
  obtain ht | ht := hfirst
  · rw [show List.range 4 = [0, 1, 2, 3] from rfl, List.map_cons, List.find?_cons_of_pos]
    · rw [← ht, Nat.add_zero, Nat.mod_eq_of_lt hc]
    · rwa [← ht, Nat.add_zero, Nat.mod_eq_of_lt hc]
  · cases hfind : ((List.range 4).map (fun k => (d.mem.turn + k) % 4)).find? (burstReady d) with
    | none =>
      have hmem : c ∈ (List.range 4).map (fun k => (d.mem.turn + k) % 4) :=
        List.mem_map.2 ⟨(c + 4 - d.mem.turn % 4) % 4, List.mem_range.2 (by omega), by omega⟩
      exact absurd h (List.find?_eq_none.1 hfind c hmem)
    | some k =>
      have hk4 : k < 4 := by
        obtain ⟨j, -, rfl⟩ := List.mem_map.1 (List.mem_of_find?_eq_some hfind)
        omega
      by_cases hkc : k = c
      · rw [hkc]
      · exact absurd (List.find?_some hfind) (by rw [ht k hk4 hkc]; decide)

/-! ### Words for the parameter store (R413, R414) -/

theorem hqMgmt_queueWords {l : List HWrite} (d : Dev) (h : ∀ w ∈ l, w.mgmt = true) :
    (queueWords l d).hqMgmt = d.hqMgmt + l.length := by
  unfold Dev.hqMgmt queueWords
  dsimp only
  rw [List.filter_append, List.length_append, List.filter_eq_self.2 h]

/-- Only word k of a run lies at its offset. -/
theorem movedWords_filter (d : Dev) (a : Nat) (bs : List Byte) {k m : Nat} (hk : k < m) :
    ((List.range m).map (movedWord d a bs)).filter (fun x => x.offset == (movedWord d a bs k).offset) = [movedWord d a bs k] := by
  have hpred : ((fun x : HWrite => x.offset == (movedWord d a bs k).offset) ∘ movedWord d a bs) = fun j => j == k := by
    funext j
    rw [Bool.eq_iff_iff]
    simp only [Function.comp_apply, movedWord, beq_iff_eq]
    omega
  rw [List.filter_map, hpred]
  have hone : (List.range m).filter (fun j => j == k) = [k] := by
    rw [List.filter_beq, List.count_eq_one_of_mem List.nodup_range (List.mem_range.2 hk)]
    rfl
  rw [hone]
  rfl

/-- The bytes of words that wait in port H's queue are what its reads see. -/
theorem spaceRead_posted {s : State} {a : Nat} {bs : List Byte} (ha : a % 4 = 0) (hn : bs.length % 4 = 0) :
    spaceRead (s.onDev (queueWords ((List.range (bs.length / 4)).map (movedWord s.dev a bs)))) 1 a bs.length = bs := by
  apply List.ext_getElem (by rw [spaceRead_length])
  intro k hk hk'
  have hword : k / 4 < bs.length / 4 := by omega
  have hoff : (a + k) / 4 * 4 = (movedWord s.dev a bs (k / 4)).offset := by simp only [movedWord]; omega
  have hbyte : (a + k) % 4 = k % 4 := by omega
  have hread := readH_queueWords (d := s.dev) (movedWords_filter s.dev a bs hword) rfl
  simp only [spaceRead, Nat.one_ne_zero, if_false, if_true, List.getElem_map, List.getElem_range, State.onDev_dev]
  have h4 : k % 4 < 4 := Nat.mod_lt _ (by decide)
  rw [hoff, hread, hbyte, HWrite.over_whole _ rfl]
  have hval (j : Nat) (hj : j < 4) : (movedWord s.dev a bs (k / 4)).value.byte j = bs.getD (4 * (k / 4) + j) 0 :=
    byte_ofBytes (fun j => bs.getD (4 * (k / 4) + j) 0) hj
  rw [byte_ofBytes (fun j => (movedWord s.dev a bs (k / 4)).value.byte j) h4, hval _ h4, Nat.div_add_mod,
    List.getD_eq_getElem _ _ hk']

/-- Settles O41: the bytes by the space they go to, and the rest of a burst, which is the same for every space. -/
theorem moverBurstsCopyBytes : Obligations.MoverBurstsCopyBytes := by
  refine ⟨fun s c n m bs ⟨hon, hm, hnext⟩ hsp hn hbs => ?plain, fun s c n m bs ⟨hon, hm, hnext⟩ hsp hn hn4 ha hend hbs hroom hq => ?store,
    fun s c hsp hfull => ?full, fun s c n m bs ⟨hon, hm, hnext⟩ hsp hnv hn hbs => ?flash, fun s c hborrow => ?borrowed,
    fun d c hc h hfirst => burstNext_of_turn hc h hfirst, fun s c hidle => ?idle⟩
  case plain =>
    obtain ⟨t, hexec, hkept, hprot, hpending, hpar, hpwr, hmover, hothers⟩ := moverBurst_answers hon hm hnext hn hbs
    obtain ⟨⟨hread, hrest⟩, hsame, hps⟩ := spaceWrite_reads (s := s) hsp (m.dst + m.pos) bs
    have hlen : bs.length = n := hbs ▸ spaceRead_length ..
    have h6 : m.dstSpace ≠ 6 := fun h => by rw [h] at hsp; revert hsp; decide
    rw [hlen] at hread hrest
    refine ⟨t, hexec, ⟨hmover, hothers, hpending, ?_, ?_, ?_, hpar, hpwr⟩, ?_, fun a ha => ?_, hprot.trans hsame, hkept.pstore.trans hps⟩
    · rw [hprot, hsame]
    · rw [hprot, hsame]
    · rw [hprot, hsame]
    · rw [spaceRead_of_kept hkept h6, hread]
    · rw [spaceRead_of_kept hkept h6, hrest a ha]
  case store =>
    obtain ⟨t, hexec, hkept, hprot, hpending, hpar, hpwr, hmover, hothers⟩ := moverBurst_answers hon hm hnext hn hbs
    have hlen : bs.length = n := hbs ▸ spaceRead_length ..
    rw [hsp, spaceWrite_store (by omega)] at hkept hprot
    have hread := spaceRead_posted (s := s) (bs := bs) ha (by omega)
    rw [hlen] at hread hkept
    refine ⟨t, hexec, ⟨hmover, hothers, hpending, ?_, ?_, ?_, hpar, hpwr⟩, ?_, ?_, hprot, hkept.pstore⟩
    · rw [hprot, State.onDev_prot]
    · rw [hprot, State.onDev_prot]
    · rw [hprot, State.onDev_prot]
    · exact (spaceRead_of_kept hkept (by decide) _ _).trans hread
    · have hcount := hqMgmt_queueWords (l := (List.range (n / 4)).map (movedWord s.dev (m.dst + m.pos) bs)) s.dev (by simp [movedWord])
      rw [List.length_map, List.length_range] at hcount
      rw [← hcount, Dev.hqMgmt, hkept.port]
      rfl
  case full =>
    exact moverBurst_idle (burstReady_of_able (by simp [burstAble, hsp, hfull]))
  case flash =>
    obtain ⟨t, hexec, hkept, hprot, hpending, hpar, hpwr, hmover, hothers⟩ := moverBurst_answers hon hm hnext hn hbs
    have hlen : bs.length = n := hbs ▸ spaceRead_length ..
    have hwrite : spaceWrite s 7 (m.dst + m.pos) bs =
        { s with prot := { s.prot with flash := flashProgram s.prot.flash (m.dst + m.pos) bs } } := by
      rw [spaceWrite, if_neg (by decide), if_neg (by decide), if_neg (by decide), if_pos rfl, if_pos hnv]
    rw [hsp, hwrite] at hprot
    refine ⟨t, hexec, ⟨hmover, hothers, hpending, by rw [hprot], by rw [hprot], by rw [hprot], hpar, hpwr⟩, ?_, fun a ha => ?_⟩
    · rw [hprot, ← hlen]
      exact flashBytes_flashProgram _ _ _
    · rw [hprot]
      exact flashBytes_flashProgram_other _ _ _ (by omega)
  case borrowed =>
    exact moverBurst_idle (burstReady_of_able (by simp [burstAble, hborrow]))
  case idle =>
    exact moverBurst_idle (burstReady_of_able (by simp [burstAble, hidle]))

end Sys2Proof.Machine
end

section
/-! PROOF. The patrol's borrows and tests, and the statement on them (R440 to R443, R519). -/

namespace Sys2Proof.Machine

open Sys2Proof

/-! ### Fault bits and the pin FAULT_N (R519, R525) -/

theorem setFault_regs {l : List Nat} (d : Dev) (n : Nat) (hf : Reg.MGT_FAULT ∈ l) (hi : Reg.MGT_IRQ_STAT ∈ l) :
    RegsOnly l d (d.setFault n) := (RegsOnly.putFlag d n true hf).trans (setIrq_regs _ _ _ hi)

theorem setFault_flag (d : Dev) {n : Nat} (h : n < 32) : (d.setFault n).flag Reg.MGT_FAULT n = true :=
  ((setIrq_regs (l := [Reg.MGT_IRQ_STAT]) _ _ _ (by decide)).flag (by decide) n).trans (Dev.flag_putFlag_same d _ _ _ h)

theorem faultBits_stored (d : Dev) {n : Nat} (h : n = 0 ∨ 3 < n) : (faultBits d).getLsbD n = d.flag Reg.MGT_FAULT n := by
  rw [faultBits, Word.getLsbD_setBits _ _ _ _ _ (by decide) (by decide), if_neg (by omega),
    Word.getLsbD_setBits _ _ _ _ _ (by decide) (by decide), if_neg (by omega),
    Word.getLsbD_setBits _ _ _ _ _ (by decide) (by decide), if_neg (by omega)]
  rfl

/-- A stored fault whose enable is 1 drives the pin low. -/
theorem faultLow_of_flag {d : Dev} {n : Nat} (h : n = 0 ∨ 3 < n) (hf : d.flag Reg.MGT_FAULT n = true)
    (he : d.flag Reg.MGT_FAULT_EN n = true) : faultLow d = true := by
  have hbit : (faultBits d &&& (d.reg Reg.MGT_FAULT_EN ||| 0x0E)).getLsbD n = true := by
    rw [BitVec.getLsbD_and, faultBits_stored d h, hf, BitVec.getLsbD_or, show (d.reg Reg.MGT_FAULT_EN).getLsbD n = true from he]
    rfl
  have hne : faultBits d &&& (d.reg Reg.MGT_FAULT_EN ||| 0x0E) ≠ 0 := fun e => by
    rw [e] at hbit
    exact absurd hbit (by simp)
  rw [faultLow, bne_iff_ne.2 hne, Bool.or_true]

/-! ### The next region (R440) -/

theorem patrolNext_region {d : Dev} {n k : Nat} (hstart : d.mem.patrol.started = true)
    (hfind : (patrolOpen d).find? (fun x => x.1 == d.mem.patrol.bank) = some (d.mem.patrol.bank, n, k))
    (hroom : d.mem.patrol.region + 1 < n) : patrolNext d = (d.mem.patrol.bank, d.mem.patrol.region + 1, false) := by
  unfold patrolNext
  dsimp only
  rw [hstart, hfind]
  exact if_pos hroom

/-- Past the last region of the last bank a lap ends, and the first bank follows. -/
theorem patrolNext_lap {d : Dev} {n k : Nat} (hstart : d.mem.patrol.started = true)
    (hfind : (patrolOpen d).find? (fun x => x.1 == d.mem.patrol.bank) = some (d.mem.patrol.bank, n, k))
    (hend : n ≤ d.mem.patrol.region + 1) (hlast : ∀ x ∈ patrolOpen d, x.1 ≤ d.mem.patrol.bank) :
    patrolNext d = (((patrolOpen d).headD (0, 0, 0)).1, 0, true) := by
  have hnone : (patrolOpen d).find? (fun x => decide (d.mem.patrol.bank < x.1)) = none :=
    List.find?_eq_none.2 fun x hx => by simpa using hlast x hx
  have hhead : (patrolOpen d).headD (0x29, 16, 0) = (patrolOpen d).headD (0, 0, 0) := by
    cases hopen : patrolOpen d with
    | nil => rw [hopen] at hfind; cases hfind
    | cons x r => rfl
  unfold patrolNext
  dsimp only
  rw [hstart, hfind, hnone, hhead, if_neg (by decide)]
  exact if_neg (by omega)

/-- The patrol is due: the firmware runs, the patrol is on, and no region is borrowed. -/
def PatrolDue (d : Dev) : Prop :=
  d.isOn Dom.mgmt = true ∧ d.mgt.mode = 2 ∧ d.isOn Dom.memc = true ∧ d.flag Reg.MEM_PAT_CTL 31 = true ∧ d.mem.patrol.borrowed = false

theorem patrolBorrowDev_due {d : Dev} {bank region : Nat} {lap : Bool} (h : PatrolDue d) (hnext : patrolNext d = (bank, region, lap)) :
    patrolBorrowDev d = { d with mem := { d.mem with patrol :=
      { bank := bank, region := region, laps := if lap then (d.mem.patrol.laps + 1) % 4096 else d.mem.patrol.laps
        started := true, borrowed := true } } } := by
  obtain ⟨hmgmt, hmode, hmemc, hctl, hfree⟩ := h
  unfold patrolBorrowDev
  rw [if_neg (by simp [hmgmt, hmode, hmemc, hctl, hfree]), hnext]

/-! ### A failed test (R443) -/

/-- The word that records a failed test. -/
def failWord (p : Patrol) : Word := BitVec.ofNat 32 (2 ^ 31 + p.bank * 2 ^ 20 + p.region)

theorem failWord_fields {p : Patrol} (hb : p.bank < 256) (hr : p.region < 2 ^ 12) :
    (failWord p).getLsbD 31 = true ∧ (failWord p).bits 27 20 = p.bank ∧ (failWord p).bits 11 0 = p.region := by
  have hval : (failWord p).toNat = 2 ^ 31 + p.bank * 2 ^ 20 + p.region := by
    rw [failWord, BitVec.toNat_ofNat]
    omega
  refine ⟨?_, ?_, ?_⟩
  · rw [BitVec.getLsbD, hval, Nat.testBit_eq_decide_div_mod_eq, decide_eq_true_eq]
    omega
  · rw [Word.bits, hval]
    omega
  · rw [Word.bits, hval]
    omega

/-- A failed test recorded and counted, with its status bit. -/
def failMarked (d : Dev) : Dev :=
  (((patrolReturn d).putReg Reg.MEM_PAT_FAIL (failWord d.mem.patrol)).putFlag Reg.MEM_IRQ_STAT 3 true).bump Reg.MEM_CNT_PAT_FAIL

/-- The device after a failed test. -/
def patrolFailed (d : Dev) : Dev :=
  ((failMarked d).logEv 0x08 0x01 3 [d.mem.patrol.bank, 0, d.mem.patrol.region % 256, d.mem.patrol.region / 256]).setFault 5

theorem patrolRestoreDev_fails {d : Dev} (hb : d.mem.patrol.borrowed = true) (hon : d.isOn Dom.memc = true) :
    patrolRestoreDev false d = patrolFailed d := by
  have hon' : (patrolReturn d).isOn Dom.memc = true := hon
  unfold patrolRestoreDev
  rw [if_neg (by simp [hb])]
  dsimp only
  rw [if_neg (by decide), if_pos hon']
  rfl

theorem failMarked_reg (d : Dev) : (failMarked d).reg Reg.MEM_PAT_FAIL = failWord d.mem.patrol := by
  simp [failMarked]

theorem failMarked_counts (d : Dev) :
    (failMarked d).fld Reg.MEM_CNT_PAT_FAIL 31 0 = min (d.fld Reg.MEM_CNT_PAT_FAIL 31 0 + 1) (2 ^ 32 - 1) := by
  have hkept : RegsOnly [Reg.MEM_PAT_FAIL, Reg.MEM_IRQ_STAT] d (((patrolReturn d).putReg Reg.MEM_PAT_FAIL (failWord d.mem.patrol)).putFlag Reg.MEM_IRQ_STAT 3 true) := by
    refine RegsOnly.trans (e := (patrolReturn d).putReg Reg.MEM_PAT_FAIL (failWord d.mem.patrol)) (fun a ha => ?_) (.putFlag _ _ _ (by simp))
    exact Dev.reg_putReg_ne _ _ _ _ fun h => ha (by simp [h])
  rw [failMarked]
  exact (Dev.fld_bumpFld _ _ _ _ _ (by decide) (by decide)).trans (by rw [hkept.fld (by decide)])

theorem failMarked_irq (d : Dev) : (failMarked d).flag Reg.MEM_IRQ_STAT 3 = true :=
  ((RegsOnly.bump (l := [Reg.MEM_CNT_PAT_FAIL]) _ (by simp)).flag (by decide) 3).trans (Dev.flag_putFlag_same _ _ _ _ (by decide))

/-- The log and the fault leave the failed test's record as it is. -/
theorem patrolFailed_regs (d : Dev) : RegsOnly [Reg.MGT_FAULT, Reg.MGT_IRQ_STAT, Reg.MGT_CNT_LOG_DROP] (failMarked d) (patrolFailed d) :=
  RegsOnly.trans (fun _ ha => Dev.reg_logEv_ne _ _ _ _ _ _ fun h => ha (by simp [h])) (setFault_regs _ 5 (by simp) (by simp))

theorem failMarked_regs (d : Dev) : RegsOnly [Reg.MEM_PAT_FAIL, Reg.MEM_IRQ_STAT, Reg.MEM_CNT_PAT_FAIL] d (failMarked d) := by
  refine RegsOnly.trans (e := (patrolReturn d).putReg Reg.MEM_PAT_FAIL (failWord d.mem.patrol)) (fun a ha => ?_)
    ((RegsOnly.putFlag _ _ _ (by simp)).trans (.bump _ (by simp)))
  exact Dev.reg_putReg_ne _ _ _ _ fun h => ha (by simp [h])

/-! ### A borrow aborted (R442) -/

/-- An aborted borrow counted, with its status bit. -/
def abortMarked (d : Dev) : Dev := ((patrolReturn d).bump Reg.MEM_CNT_PAT_ABORT).putFlag Reg.MEM_IRQ_STAT 2 true

theorem patrolAbortDev_fetch {d : Dev} (hb : d.mem.patrol.borrowed = true) (hbank : d.mem.patrol.bank = 0x28) (hon : d.isOn Dom.memc = true) :
    patrolAbortDev d = (abortMarked d).logEv 0x08 0x02 0 [0x28, 0, d.mem.patrol.region % 256, d.mem.patrol.region / 256] := by
  have hon' : (patrolReturn d).isOn Dom.memc = true := hon
  unfold patrolAbortDev
  rw [if_neg (by simp [hb, hbank])]
  dsimp only
  rw [if_pos hon', hbank]
  rfl

theorem abortMarked_regs (d : Dev) : RegsOnly [Reg.MEM_CNT_PAT_ABORT, Reg.MEM_IRQ_STAT] d (abortMarked d) :=
  (RegsOnly.bump (patrolReturn d) (by simp)).trans (.putFlag _ _ _ (by simp))

/-- Settles O42: a borrow by its next region, and a failed test and an abort by what they mark before they are logged. -/
theorem patrolBorrowsAndRestores : Obligations.PatrolBorrowsAndRestores := by
  refine ⟨fun s b n k hmgmt hmode hmemc hctl hfree hstart hbank hfind => ?borrow, fun s h => ?quiet, fun s hb => ⟨?passed, fun hon hbank hregion => ?failed⟩,
    fun s hb hbank hon => ?abort, fun s pass hb => ⟨?noRestore, ?noAbort⟩⟩
  case borrow =>
    subst hbank
    have hdue : PatrolDue s.dev := ⟨hmgmt, hmode, hmemc, hctl, hfree⟩
    refine ⟨fun hroom => ?_, fun hend hlast => ?_⟩
    · refine congrArg (fun d => Host.Outcome.next { s with dev := d }) ((patrolBorrowDev_due hdue (patrolNext_region hstart hfind hroom)).trans ?_)
      simp [hstart]
    · rw [yields_devNext (f := patrolBorrowDev) _ rfl, patrolBorrowDev_due hdue (patrolNext_lap hstart hfind hend hlast)]
      exact ⟨rfl, rfl, rfl, rfl, rfl⟩
  case quiet =>
    refine devNext_same (f := patrolBorrowDev) (if_pos ?_)
    obtain h | h := h <;> simp [h]
  case passed =>
    have heq : patrolRestoreDev true s.dev = patrolReturn s.dev := by
      unfold patrolRestoreDev
      rw [if_neg (by simp [hb])]
      rfl
    exact congrArg (fun d => Host.Outcome.next { s with dev := d }) heq
  case failed =>
    rw [yields_devNext (f := patrolRestoreDev false) _ rfl, patrolRestoreDev_fails hb hon]
    obtain ⟨h31, hbits, hlow⟩ := failWord_fields hbank hregion
    have hmark := patrolFailed_regs s.dev
    have hrec : (patrolFailed s.dev).reg Reg.MEM_PAT_FAIL = failWord s.dev.mem.patrol := (hmark _ (by decide)).trans (failMarked_reg s.dev)
    have hall := ((failMarked_regs s.dev).mono (r := [Reg.MEM_PAT_FAIL, Reg.MEM_IRQ_STAT, Reg.MEM_CNT_PAT_FAIL, Reg.MGT_FAULT, Reg.MGT_IRQ_STAT,
      Reg.MGT_CNT_LOG_DROP]) (by simp)).trans (hmark.mono (by simp))
    have hfault : (patrolFailed s.dev).flag Reg.MGT_FAULT 5 = true := setFault_flag _ (by decide)
    refine ⟨?_, by rw [Dev.flag, hrec, h31], by rw [Dev.fld, hrec, hbits], by rw [Dev.fld, hrec, hlow],
      (hmark.flag (by decide) 3).trans (failMarked_irq s.dev), (hmark.fld (by decide) 31 0).trans (failMarked_counts s.dev), hfault, ?_,
      fun hen => faultLow_of_flag (.inr (by decide)) hfault ((hall.flag (by decide) 5).trans hen), hall⟩
    · exact (Dev.mem_setFault _ _).trans (Dev.mem_logEv ..)
    · rw [patrolFailed]
      unfold Logs
      rw [Dev.mgt_setFault]
      exact logs_logEv _ _ _ _ rfl rfl
  case abort =>
    rw [yields_devNext (f := patrolAbortDev) _ rfl, patrolAbortDev_fetch hb hbank hon]
    have hlog : RegsOnly [Reg.MGT_CNT_LOG_DROP] (abortMarked s.dev)
        ((abortMarked s.dev).logEv 0x08 0x02 0 [0x28, 0, s.dev.mem.patrol.region % 256, s.dev.mem.patrol.region / 256]) :=
      fun _ ha => Dev.reg_logEv_ne _ _ _ _ _ _ (by simpa using ha)
    refine ⟨?_, (hlog.fld (by decide) 31 0).trans ?_, (hlog.flag (by decide) 2).trans ?_, logs_logEv _ _ _ _ rfl rfl,
      ((abortMarked_regs s.dev).mono (by simp)).trans (hlog.mono (by simp))⟩
    · exact Dev.mem_logEv ..
    · exact ((RegsOnly.putFlag (l := [Reg.MEM_IRQ_STAT]) _ 2 true (by simp)).fld (by decide) 31 0).trans
        (Dev.fld_bumpFld (patrolReturn s.dev) _ _ _ _ (by decide) (by decide))
    · exact Dev.flag_putFlag_same _ _ _ _ (by decide)
  case noRestore => exact devNext_same (f := patrolRestoreDev pass) (if_pos (by simp [hb]))
  case noAbort => exact devNext_same (f := patrolAbortDev) (if_pos (by simp [hb]))

end Sys2Proof.Machine
end

section
/-! PROOF. The log's ring and its mirror, and the statement on them (R441, R503, R504, R506). -/

namespace Sys2Proof.Machine

open Sys2Proof

/-! ### The bytes of an entry (R504) -/

theorem sfBytes_whole {b : List Byte} {n : Nat} (h : b.length = n) : sfBytes b 0 n = b := by
  have htake : b.take n = b := List.take_of_length_le h.le
  simp [sfBytes, htake, h]

theorem leBytes_one (v : Nat) : leBytes 1 v = [BitVec.ofNat 8 v] := rfl

theorem logBytes_fields {e : LogEv} (hef : e.ef < 2 ^ 40) (hsev : e.sev < 4) (hpos : e.pos < 8) (hdata : e.data.length = 8) :
    leNat ((logBytes e).take 5) = e.ef ∧ at_ (logBytes e) 5 0 = BitVec.ofNat 8 e.source ∧ at_ (logBytes e) 6 0 = BitVec.ofNat 8 e.code ∧
    at_ (logBytes e) 7 0 = BitVec.ofNat 8 (e.sev + (if e.noref then 4 else 0) + 16 * e.pos + (if e.fwd then 128 else 0)) ∧
    (logBytes e).drop 8 = e.data := by
  have hbytes : logBytes e = leBytes 5 e.ef ++ (BitVec.ofNat 8 e.source :: BitVec.ofNat 8 e.code ::
      BitVec.ofNat 8 (e.sev + (if e.noref then 4 else 0) + 16 * e.pos + (if e.fwd then 128 else 0)) :: e.data) := by
    unfold logBytes
    rw [sfBytes_whole hdata, Nat.mod_eq_of_lt hsev, Nat.mod_eq_of_lt hpos, Nat.mul_comm e.pos 16]
    simp [leBytes_one]
  have hlen := leBytes_length 5 e.ef
  rw [hbytes]
  refine ⟨?_, ?_, ?_, ?_, ?_⟩
  · rw [List.take_left' hlen, leNat_leBytes 5 _ hef]
  · simp [at_]
  · simp [at_, List.getElem?_append_right]
  · simp [at_, List.getElem?_append_right]
  · simp [List.drop_append, hlen]

/-! ### An entry stored (R503) -/

/-- The place of the ring's next entry. -/
def ringAt (d : Dev) : Nat := logRing + 16 * (d.mgt.total % 4096)

/-- The firmware has written entry e into the ring of d. -/
def RingWritten (d : Dev) (e : LogEv) (u : Dev) : Prop :=
  u.mramBytes (ringAt d) 16 = logBytes e ∧ (∀ a, a < ringAt d ∨ ringAt d + 16 ≤ a → u.mramBytes a 1 = d.mramBytes a 1) ∧
    u.mgt.total = d.mgt.total + 1 ∧ (d.fld Reg.MGT_LOG_CTL 9 8 ≤ e.sev → u.flag Reg.MGT_IRQ_STAT 2 = true) ∧
    u.mem = { d.mem with mram := u.mem.mram } ∧ u.par = d.par ∧ u.mgt.mirrored = d.mgt.mirrored

/-- The ring with an entry at HEAD. -/
def ringPut (e : LogEv) (d : Dev) : Dev :=
  { d.mramRaw (logRing + 16 * (d.mgt.total % 4096)) (logBytes e) with mgt := { d.mgt with total := d.mgt.total + 1 } }

theorem logStore_eq (e : LogEv) (d : Dev) : logStore e d =
    let u := if d.fld Reg.MGT_LOG_CTL 9 8 ≤ e.sev then (ringPut e d).mgtIrq 2 else ringPut e d
    if u.isWorker && decide (1 ≤ e.sev) then ownPacket (mkPacket 2 u.pos 0x80 (logBytes e)) u else u := rfl

theorem ownPacket_reg (p : List Byte) (d : Dev) {a : Nat} (hirq : a ≠ Reg.CAS_IRQ_STAT) (hcnt : a ≠ Reg.CAS_CNT_PKT_DROP) :
    (ownPacket p d).reg a = d.reg a := by
  unfold ownPacket
  split
  · rfl
  · exact (Dev.reg_setIrq_ne _ _ _ _ _ hirq).trans (Dev.reg_bumpBy_ne _ _ _ _ hcnt)

/-- A severity that MGT_LOG_CTL asks for sets the status bit (R522). -/
theorem logStore_irq {e : LogEv} {d : Dev} (hon : d.isOn Dom.mgmt = true) (h : d.fld Reg.MGT_LOG_CTL 9 8 ≤ e.sev) :
    (logStore e d).flag Reg.MGT_IRQ_STAT 2 = true := by
  have hset : ((ringPut e d).mgtIrq 2).flag Reg.MGT_IRQ_STAT 2 = true := Dev.flag_setIrq (ringPut e d) _ _ _ (by decide) hon
  rw [logStore_eq, if_pos h]
  dsimp only
  split
  · rwa [Dev.flag, ownPacket_reg _ _ (by decide) (by decide)]
  · exact hset

/-- An entry stored by a device that differs from d in nothing of its ring. -/
theorem logStore_written {d v : Dev} (e : LogEv) (hmem : v.mem = d.mem) (hpar : v.par = d.par) (hregs : v.regs = d.regs)
    (htotal : v.mgt.total = d.mgt.total) (hmir : v.mgt.mirrored = d.mgt.mirrored) (hon : v.isOn Dom.mgmt = true) :
    RingWritten d e (logStore e v) := by
  obtain ⟨hmgt, hring⟩ := logStore_ring e v
  obtain ⟨hbytes, hrest⟩ := logStore_bytes e v
  have hat : logRing + 16 * (v.mgt.total % 4096) = ringAt d := by rw [htotal]; rfl
  rw [hat] at hbytes hrest
  refine ⟨hbytes, fun a ha => (hrest a ha).trans ?_, ?_, fun h => logStore_irq hon ?_, ?_, ?_, ?_⟩
  · rw [Dev.mramBytes, hmem]
    rfl
  · rw [hmgt, htotal]
  · rwa [Dev.fld, Dev.reg_of_regs hregs]
  · rw [hring, hmem]
  · rw [← hpar]
    simp
  · rw [hmgt, ← hmir]

/-- The firmware runs, and no borrow holds the place of the next entry. -/
def RingFree (d : Dev) : Prop := firmwareUp d = true ∧ borrowedAt d 0x28 (ringAt d) 16 = false

theorem RingFree.mgmt {d : Dev} (h : RingFree d) : d.isOn Dom.mgmt = true := by
  obtain ⟨hup, -⟩ := h
  exact (Bool.and_eq_true_iff.1 hup).1

theorem logEntryWriteDev_free {d : Dev} (h : RingFree d) : logEntryWriteDev d =
    if d.mgt.wdogLog then logStore (mgmtEv d 0x01 2 []) { d with mgt := { d.mgt with wdogLog := false } }
    else if 0 < d.mgt.lost then logStore (mgmtEv d 0x02 1 (leBytes 4 d.mgt.lost)) { d with mgt := { d.mgt with lost := 0 } }
    else match d.mgt.own, d.mgt.queue with
      | e :: r, _ => logStore e { d with mgt := { d.mgt with own := r } }
      | [], e :: r => logStore e { d with mgt := { d.mgt with queue := r } }
      | [], [] => d := by
  obtain ⟨hup, hfree⟩ := h
  exact if_neg (by rw [hup, show borrowedAt d 0x28 (logRing + 16 * (d.mgt.total % 4096)) 16 = false from hfree]; decide)

/-! ### The mirror (R506) -/

/-- One entry waits, and the mirror stands in a sector with room. -/
def MirrorReady (s : State) : Prop :=
  mirrorRuns s.dev = true ∧ mirrorWaiting s.dev = 1 ∧ s.dev.mgt.total < s.dev.mgt.mirrored + 4096 ∧ s.dev.mgt.mirrorUp = true ∧
    s.dev.mgt.mirrorPos < 4095

/-- The flash address of the mirror's next entry. -/
def mirrorAt (s : State) : Nat := mirrorBase s s.dev.mgt.mirrorSec + 16 + 16 * s.dev.mgt.mirrorPos

theorem mirrorRuns_parts {d : Dev} (h : mirrorRuns d = true) : firmwareUp d = true ∧ d.nvReach = true := by
  unfold mirrorRuns at h
  simp only [Bool.and_eq_true] at h
  exact ⟨h.1.1.1, h.2⟩

theorem mirrorResume_up {s : State} (h : s.dev.mgt.mirrorUp = true) : mirrorResume s = s := if_pos h

theorem putFlash_reached {s : State} (fl : List Host.Cell) (h : s.dev.nvReach = true) :
    s.putFlash fl = { s with prot := { s.prot with flash := fl } } := if_pos h

/-- The bytes of the entry that waits. -/
def mirrorEntry (s : State) : List Byte := s.dev.mramBytes (logRing + 16 * (s.dev.mgt.mirrored % 4096)) 16

/-- The state with the flash as given, the waiting entry being in it. -/
def mirroredInto (fl : List Host.Cell) (s : State) : State :=
  { s with
    prot := { s.prot with flash := fl }
    dev := { s.dev with mgt := { s.dev.mgt with mirrored := s.dev.mgt.mirrored + 1, mirrorPos := s.dev.mgt.mirrorPos + 1 } } }

theorem mirroredInto_only (fl : List Host.Cell) (s : State) : OnlyMirrored s (mirroredInto fl s) ∧
    (mirroredInto fl s).prot.flash = fl ∧ (mirroredInto fl s).dev.mgt.mirrored = s.dev.mgt.mirrored + 1 ∧
    (mirroredInto fl s).dev.mgt.mirrorPos = s.dev.mgt.mirrorPos + 1 := ⟨⟨rfl, rfl, rfl, rfl, rfl, rfl⟩, rfl, rfl, rfl⟩

theorem logMirrorWrite_taken {s : State} (h : MirrorReady s) : logMirrorWriteState true s =
    mirroredInto (flashProgram s.prot.flash (mirrorAt s) (mirrorEntry s)) s := by
  obtain ⟨hruns, hwait, htotal, hup, hpos⟩ := h
  obtain ⟨-, hreach⟩ := mirrorRuns_parts hruns
  have hopen : mirrorOpen s = s := if_pos hpos
  have hfrom : max s.dev.mgt.mirrored (s.dev.mgt.total - 4096) = s.dev.mgt.mirrored := by omega
  have hgroup : mirrorGroup 1 s = mirrorOne s := by
    rw [mirrorGroup, mirrorResume_up hup]
    rfl
  unfold logMirrorWriteState
  dsimp only
  rw [hwait, hruns, if_neg (by decide), if_pos rfl, show min 16 1 = 1 from rfl, hgroup]
  unfold mirrorOne
  dsimp only
  rw [hopen, hfrom, putFlash_reached _ hreach]
  rfl

/-- What a log entry of the firmware's leaves of the mirror's place. -/
theorem fwLog_mirrorPos (source code sev : Nat) (data : List Byte) {d : Dev} (h : firmwareUp d = true) :
    (fwLog source code sev data d).mgt.mirrorPos = d.mgt.mirrorPos := by
  have hstore (e : LogEv) (u : Dev) : (logStore e u).mgt.mirrorPos = u.mgt.mirrorPos := by rw [(logStore_ring e u).1]
  have hfirst : (logFirst d).mgt.mirrorPos = d.mgt.mirrorPos := by
    have hdog : (watchdogFirst d).mgt.mirrorPos = d.mgt.mirrorPos := by
      unfold watchdogFirst
      split
      · rw [hstore]
      · rfl
    rw [logFirst_eq]
    split
    · rw [hstore]
      exact hdog
    · exact hdog
  unfold fwLog fwPut
  rw [if_pos h]
  split
  · rfl
  · rw [hstore, hfirst]

/-- A flash that fails: its bytes at the entry's place are spoiled, and the sector counts as full. -/
theorem logMirrorWrite_failed {s : State} (h : MirrorReady s) : logMirrorWriteState false s =
    (modMgt (fun m => { m with mirrorSec := s.dev.mgt.mirrorSec, mirrorPos := 4095 }) (flashSpoil (mirrorAt s) 16 s)).onDev
      (fwLog 0x01 0x03 2 (leBytes 4 (mirrorAt s))) := by
  obtain ⟨hruns, hwait, -, hup, hpos⟩ := h
  have hfull : ¬4095 ≤ s.dev.mgt.mirrorPos := by omega
  have hlen : 16 * min 1 (4095 - s.dev.mgt.mirrorPos) = 16 := by omega
  have hplace : mirrorBase s s.dev.mgt.mirrorSec + (16 + 16 * s.dev.mgt.mirrorPos) = mirrorAt s := by unfold mirrorAt; omega
  have hfails : logMirrorWriteState false s = mirrorFails 1 s := by
    unfold logMirrorWriteState
    dsimp only
    rw [hwait, hruns]
    rfl
  rw [hfails]
  unfold mirrorFails
  dsimp only
  simp only [mirrorResume_up hup, hfull, decide_false, Bool.false_eq_true, if_false, hlen, hplace]

/-- Of the state but for the flash, spoiled bytes leave all but the free values drawn. -/
theorem flashSpoil_rest (a n : Nat) (s : State) : (flashSpoil a n s).dev = { s.dev with fresh := s.dev.fresh + n } ∧
    (flashSpoil a n s).pending = s.pending := by
  unfold flashSpoil
  rw [State.onDev_dev, State.onDev_pending, putFlash_dev]
  exact ⟨rfl, (putFlash_only s _).1⟩

theorem flashSpoil_flash {s : State} (a n : Nat) (h : s.dev.nvReach = true) : ∃ bs : List Byte, bs.length = n ∧
    (flashSpoil a n s).prot.flash = cellPutBytes flashDflt s.prot.flash a bs :=
  ⟨(List.range n).map (fun k => BitVec.ofNat 8 (Config.free (s.dev.fresh + k))), by rw [List.length_map, List.length_range],
    by rw [flashSpoil, State.onDev_prot, putFlash_reached _ h]⟩

/-- Settles O50: an entry by the one operation that stores it, and the mirror by its one program. -/
theorem logEntriesReachTheRingAndTheMirror : Obligations.LogEntriesReachTheRingAndTheMirror := by
  refine ⟨fun e hef _ _ hsev hpos hdata => logBytes_fields hef hsev hpos hdata, fun s e r hup hfree hdog hlost hown hqueue => ?queue,
    fun s e r hup hfree hdog hlost hown => ?own, fun s hup hfree hdog hlost => ?lost, fun s hup hfree hdog => ?dog, fun s h => ?waits,
    fun s a hruns hwait htotal hmup hpos ha => ?mirror, fun s ok hwait => ?none⟩
  case queue =>
    have hring : RingFree s.dev := ⟨hup, hfree⟩
    rw [yields_devNext (f := logEntryWriteDev) _ rfl, logEntryWriteDev_free hring, hdog, if_neg (by decide), if_neg (by omega), hown, hqueue]
    exact ⟨logStore_written (d := s.dev) e rfl rfl rfl rfl rfl hring.mgmt, by rw [(logStore_ring _ _).1]⟩
  case own =>
    have hring : RingFree s.dev := ⟨hup, hfree⟩
    rw [yields_devNext (f := logEntryWriteDev) _ rfl, logEntryWriteDev_free hring, hdog, if_neg (by decide), if_neg (by omega), hown]
    exact ⟨logStore_written (d := s.dev) e rfl rfl rfl rfl rfl hring.mgmt, by rw [(logStore_ring _ _).1], by rw [(logStore_ring _ _).1]⟩
  case lost =>
    have hring : RingFree s.dev := ⟨hup, hfree⟩
    rw [yields_devNext (f := logEntryWriteDev) _ rfl, logEntryWriteDev_free hring, hdog, if_neg (by decide), if_pos hlost]
    exact ⟨logStore_written (d := s.dev) _ rfl rfl rfl rfl rfl hring.mgmt, by rw [(logStore_ring _ _).1], by rw [(logStore_ring _ _).1]⟩
  case dog =>
    have hring : RingFree s.dev := ⟨hup, hfree⟩
    rw [yields_devNext (f := logEntryWriteDev) _ rfl, logEntryWriteDev_free hring, if_pos hdog]
    exact ⟨logStore_written (d := s.dev) _ rfl rfl rfl rfl rfl hring.mgmt, by rw [(logStore_ring _ _).1], by rw [(logStore_ring _ _).1]⟩
  case waits =>
    refine devNext_same (f := logEntryWriteDev) (if_pos ?_)
    obtain h | h := h
    · rw [h]
      rfl
    · rw [h, Bool.or_true]
  case mirror =>
    have hready : MirrorReady s := ⟨hruns, hwait, htotal, hmup, hpos⟩
    obtain ⟨hfw, hreach⟩ := mirrorRuns_parts hruns
    have hnext : s.dev.mgt.mirrored + 1 = s.dev.mgt.total := by rw [mirrorWaiting] at hwait; omega
    subst ha
    have hentry : (mirrorEntry s).length = 16 := cellBytes_length ..
    constructor
    · obtain ⟨⟨hpend, hprot, hregs, hmem, -⟩, hflash, hmirrored, hplace⟩ :=
        mirroredInto_only (flashProgram s.prot.flash (mirrorAt s) (mirrorEntry s)) s
      refine ⟨_, congrArg Host.Outcome.next (logMirrorWrite_taken hready), hmirrored.trans hnext, hplace, ?_, fun b hb => ?_,
        hprot, hpend, hregs, hmem⟩
      · have hprog := flashBytes_flashProgram s.prot.flash (mirrorAt s) (mirrorEntry s)
        rw [hflash]
        rwa [hentry] at hprog
      · rw [hflash]
        exact flashBytes_flashProgram_other _ _ _ (by rwa [hentry])
    · obtain ⟨bs, hlen, hspoil⟩ := flashSpoil_flash (mirrorAt s) 16 hreach
      obtain ⟨⟨hmir, -, -⟩, hprot⟩ := flashSpoil_only (mirrorAt s) 16 s
      have hfails := logMirrorWrite_failed hready
      set u := modMgt (fun m => { m with mirrorSec := s.dev.mgt.mirrorSec, mirrorPos := 4095 }) (flashSpoil (mirrorAt s) 16 s) with hu
      obtain ⟨hdev, hpending⟩ := flashSpoil_rest (mirrorAt s) 16 s
      have hup : firmwareUp u.dev = true := by
        rw [hu, modMgt, State.onDev_dev, hdev]
        exact hfw
      obtain ⟨hlogMir, -, -⟩ := fwLog_only 0x01 0x03 2 (leBytes 4 (mirrorAt s)) u.dev
      have huprot : u.prot = (flashSpoil (mirrorAt s) 16 s).prot := rfl
      refine ⟨_, congrArg Host.Outcome.next hfails, ?_, ?_, fun b hb => ?_, ?_, ?_⟩
      · rw [State.onDev_dev, hlogMir]
        exact hmir
      · rw [State.onDev_dev, fwLog_mirrorPos _ _ _ _ hup]
        rfl
      · rw [State.onDev_prot, huprot, hspoil]
        have hb' : b < mirrorAt s ∨ mirrorAt s + 16 ≤ b := hb
        exact cellBytes_cellPutBytes_other _ _ _ _ _ _ (by omega)
      · rw [State.onDev_prot, huprot]
        exact hprot
      · rw [State.onDev_pending]
        exact hpending
  case none =>
    exact congrArg Host.Outcome.next (if_pos (by rw [hwait]; simp))

end Sys2Proof.Machine
end

section
/-! SUPPORT. A chronograph changed, its count and its prescaler (R449 to R454). -/

namespace Sys2Proof.Machine

open Sys2Proof

/-! ### One chronograph changed -/

theorem Dev.chr_modChr_same {d : Dev} {c : Nat} (f : Chrono → Chrono) (h : c < d.cnt.chr.length) : (d.modChr c f).chr c = f (d.chr c) :=
  (at_upd _ _ _ _ _ h).trans (if_pos rfl)

theorem Dev.chr_modChr_ne (d : Dev) {c k : Nat} (f : Chrono → Chrono) (h : k ≠ c) : (d.modChr c f).chr k = d.chr k := at_upd_ne _ _ _ h

/-- A change that leaves a chronograph at reset as it is needs no such chronograph. -/
theorem Dev.chr_modChr_of_reset (d : Dev) (c : Nat) (f : Chrono → Chrono) (hf : f Chrono.reset = Chrono.reset) :
    (d.modChr c f).chr c = f (d.chr c) := by
  by_cases h : c < d.cnt.chr.length
  · exact Dev.chr_modChr_same f h
  · have hlen : (d.modChr c f).cnt.chr.length = d.cnt.chr.length := upd_length ..
    have hafter : (d.modChr c f).chr c = Chrono.reset := List.getD_eq_default _ _ (by rw [hlen]; omega)
    have hbefore : d.chr c = Chrono.reset := List.getD_eq_default _ _ (by omega)
    rw [hafter, hbefore, hf]

theorem Dev.chr_lt {d : Dev} {c : Nat} (h : d.chr c ≠ Chrono.reset) : c < d.cnt.chr.length := by
  by_contra hn
  exact h (List.getD_eq_default _ _ (Nat.le_of_not_lt hn))

theorem Dev.chr_of_cnt {d e : Dev} (h : e.cnt.chr = d.cnt.chr) (c : Nat) : e.chr c = d.chr c := by rw [Dev.chr, h]; rfl

/-! ### The count after some ticks (R449, R451) -/

theorem countPast_zero (d : Dev) (c : Nat) : countPast d c 0 = (d.chr c).count := by
  unfold countPast countAfter
  exact if_pos rfl

theorem countAfter_succ (reload count n : Nat) :
    countAfter reload count (n + 1) = if reload ≤ countAfter reload count n then 0 else countAfter reload count n + 1 := by
  have hmod (m : Nat) : (m + 1) % (reload + 1) = if reload ≤ m % (reload + 1) then 0 else m % (reload + 1) + 1 := by
    have hlt : m % (reload + 1) < reload + 1 := Nat.mod_lt m (Nat.succ_pos reload)
    rw [Nat.add_mod]
    split
    next h =>
      have htop : m % (reload + 1) = reload := by omega
      rw [htop]
      by_cases h0 : reload = 0
      · simp [h0]
      · rw [Nat.mod_eq_of_lt (a := 1) (by omega), Nat.mod_self]
    next h => rw [Nat.mod_eq_of_lt (a := 1) (by omega), Nat.mod_eq_of_lt (by omega)]
  unfold countAfter
  rw [if_neg (Nat.succ_ne_zero n)]
  by_cases hc : reload ≤ count
  · rw [if_pos hc, if_pos hc, Nat.add_sub_cancel]
    cases n with
    | zero => rw [if_pos rfl, if_pos hc, Nat.zero_mod]
    | succ m => rw [if_neg (Nat.succ_ne_zero m), Nat.add_sub_cancel, hmod]
  · rw [if_neg hc, if_neg hc]
    by_cases hn : n = 0
    · subst hn
      rw [if_pos rfl, if_neg hc, if_pos (by omega)]
    · rw [if_neg hn]
      by_cases hin : count + n ≤ reload
      · rw [if_pos hin]
        by_cases htop : count + n = reload
        · rw [if_neg (by omega), if_pos (by omega), show count + (n + 1) - (reload + 1) = 0 by omega, Nat.zero_mod]
        · rw [if_pos (by omega), if_neg (by omega), Nat.add_assoc]
      · rw [if_neg (by omega), if_neg hin, show count + (n + 1) - (reload + 1) = count + n - (reload + 1) + 1 by omega, hmod]

/-- One tick. -/
def tickTo (reload count : Nat) : Nat := if reload ≤ count then 0 else count + 1

theorem countAfter_one (reload count : Nat) : countAfter reload count 1 = tickTo reload count := by
  rw [countAfter_succ]
  rfl

theorem tickEvents_one (reload count cmp0 cmp1 : Nat) : tickEvents reload count 1 cmp0 cmp1 =
    { cmp0 := decide (tickTo reload count = cmp0), cmp1 := decide (tickTo reload count = cmp1), wrap := decide (tickTo reload count = 0) } := by
  have hvalues : tickValues reload (min 1 (min (reload + 1) 255)) count = [tickTo reload count] := by
    rw [show min 1 (min (reload + 1) 255) = 1 by omega]
    rfl
  unfold tickEvents
  dsimp only
  rw [hvalues]
  simp [eq_comm]

/-! ### The prescaler (R450) -/

theorem prescaledNext_least {d : Dev} {c p o x : Nat} (hp : p = d.fld (Reg.CHR_CTL c) 31 16 + 1) (ho : o = (d.chr c).origin)
    (hx : x = prescaledNext d c) : o < x ∧ (d.chr c).from_ ≤ x ∧ (x - o) % p = 0 ∧
      ∀ y, o < y → (d.chr c).from_ ≤ y → (y - o) % p = 0 → x ≤ y := by
  set m := max (d.chr c).from_ (o + 1) - o with hm
  have hpos : 0 < p := by omega
  have hx' : x = o + (m + p - 1) / p * p := by rw [hx, hm, ho, hp]; rfl
  have hup : m ≤ (m + p - 1) / p * p := by
    have hsum := Nat.div_add_mod (m + p - 1) p
    have hrest := Nat.mod_lt (m + p - 1) hpos
    rw [Nat.mul_comm]
    omega
  refine ⟨by omega, by omega, by rw [hx', Nat.add_sub_cancel_left, Nat.mul_mod_left], fun y hy hfrom hdiv => ?_⟩
  obtain ⟨q, hq⟩ := Nat.dvd_of_mod_eq_zero hdiv
  have hle : (m + p - 1) / p ≤ q := by
    refine Nat.lt_succ_iff.1 ((Nat.div_lt_iff_lt_mul hpos).2 ?_)
    rw [Nat.succ_mul, Nat.mul_comm q p, ← hq]
    omega
  have := Nat.mul_le_mul_right p hle
  rw [Nat.mul_comm q p, ← hq] at this
  omega

end Sys2Proof.Machine
end

section
/-! PROOF. A tick of a chronograph (R448 to R454, R459). -/

namespace Sys2Proof.Machine

open Sys2Proof

/-! ### Pins follow (R459) -/

/-- Only CHR_OUT pins have changed. -/
def PinsOnly (d e : Dev) : Prop := e = { d with cnt := { d.cnt with outs := e.cnt.outs } }

theorem PinsOnly.refl (d : Dev) : PinsOnly d d := rfl

theorem PinsOnly.trans {d e u : Dev} (h : PinsOnly d e) (k : PinsOnly e u) : PinsOnly d u := by
  unfold PinsOnly at *
  refine k.trans ?_
  rw [h]

theorem outDrive_pins (k : Nat) (d : Dev) : PinsOnly d (outDrive k d) := rfl

theorem outEvents_pins (c : Nat) (e : ChrEvents) (k : Nat) (d : Dev) : PinsOnly d (outEvents c e k d) := by
  unfold outEvents
  dsimp only
  split
  · rfl
  · exact PinsOnly.trans (show PinsOnly d (d.modOut k _) from rfl) (outDrive_pins k _)

theorem forUpTo_pins {f : Nat → Dev → Dev} (h : ∀ k d, PinsOnly d (f k d)) (n : Nat) (d : Dev) : PinsOnly d (forUpTo n f d) := by
  induction n with
  | zero => rfl
  | succ n ih =>
    rw [forUpTo_succ]
    exact ih.trans (h n _)

/-! ### Events on the bus (R448) -/

/-- The occurrences of a chronograph's events at an edge. -/
def eventsAt (edge c : Nat) (e : ChrEvents) : List (Nat × Nat × Nat) :=
  (if e.cmp0 then [(edge, 48 + c, 1)] else []) ++ (if e.cmp1 then [(edge, 64 + c, 1)] else []) ++ (if e.wrap then [(edge, 80 + c, 1)] else [])

/-- The device with occurrences put on the bus, and players told. -/
def Emitted (d : Dev) (l : List (Nat × Nat × Nat)) (e : Dev) : Prop :=
  e = { d with cnt := { d.cnt with bus := d.cnt.bus ++ l }, outs := e.outs }

theorem emit_on (d : Dev) (code : Nat) (h : d.isOn Dom.ctrl = true) : Emitted d [(d.cnt.edge, code, 1)] (d.emit code 1) := by
  unfold Emitted Dev.emit Dev.busWith
  rw [h]
  rfl

theorem Emitted.trans {d e u : Dev} {l r : List (Nat × Nat × Nat)} (h : Emitted d l e) (k : Emitted e r u) : Emitted d (l ++ r) u := by
  unfold Emitted at *
  refine k.trans ?_
  rw [h]
  simp

theorem Emitted.ite {d u : Dev} {l : List (Nat × Nat × Nat)} (b : Bool) (h : Emitted d l u) :
    Emitted d (if b then l else []) (if b then u else d) := by
  cases b
  · simp [Emitted]
  · exact h

theorem playTriggers_emitted (c : Nat) (d : Dev) : Emitted d [] (playTriggers c d) := by
  unfold Emitted playTriggers
  rw [List.append_nil]

theorem Emitted.on {d e : Dev} {l : List (Nat × Nat × Nat)} (h : Emitted d l e) (n : Nat) : e.isOn n = d.isOn n ∧ e.cnt.edge = d.cnt.edge := by
  rw [h]
  exact ⟨rfl, rfl⟩

theorem emitEvents_emitted (c : Nat) (e : ChrEvents) {d : Dev} (h : d.isOn Dom.ctrl = true) :
    Emitted d (eventsAt d.cnt.edge c e) (emitEvents c e d) := by
  have h0 : Emitted d (if e.cmp0 then [(d.cnt.edge, 48 + c, 1)] else []) (if e.cmp0 then playTriggers c (d.emit (48 + c) 1) else d) :=
    .ite _ ((emit_on d _ h).trans (playTriggers_emitted c _))
  unfold emitEvents eventsAt
  dsimp only
  generalize (if e.cmp0 then playTriggers c (d.emit (48 + c) 1) else d) = u at h0
  obtain ⟨hon, hedge⟩ := h0.on Dom.ctrl
  have h1 : Emitted u (if e.cmp1 then [(d.cnt.edge, 64 + c, 1)] else []) (if e.cmp1 then u.emit (64 + c) 1 else u) :=
    .ite _ (hedge ▸ emit_on u _ (hon.trans h))
  generalize (if e.cmp1 then u.emit (64 + c) 1 else u) = w at h1
  obtain ⟨hon', hedge'⟩ := h1.on Dom.ctrl
  exact (h0.trans h1).trans (.ite _ (hedge ▸ hedge' ▸ emit_on w _ (hon'.trans (hon.trans h))))

/-! ### One tick (R449, R454) -/

/-- A status register with the bits of a chronograph's events set. -/
def chrMarked (st : Nat) (e : ChrEvents) (d : Dev) : Dev :=
  let d := if e.cmp0 then d.putFlag st 1 true else d
  let d := if e.cmp1 then d.putFlag st 2 true else d
  if e.wrap then d.putFlag st 3 true else d

theorem chrMarked_alone (st : Nat) (e : ChrEvents) (d : Dev) : chrMarked st e d = { d with regs := (chrMarked st e d).regs } := by
  unfold chrMarked
  cases e.cmp0 <;> cases e.cmp1 <;> cases e.wrap <;> rfl

theorem putFlag_ite_flag (d : Dev) (a n : Nat) (b : Bool) (m : Nat) (hn : n < 32) :
    (if b then d.putFlag a n true else d).flag a m = (d.flag a m || (b && decide (m = n))) := by
  cases b with
  | false => simp
  | true =>
    rw [if_pos rfl]
    by_cases h : m = n
    · subst h
      rw [Dev.flag_putFlag_same _ _ _ _ hn]
      simp
    · rw [Dev.flag_putFlag_other _ _ _ _ _ _ hn (.inr h)]
      simp [h]

theorem chrMarked_flag (st : Nat) (e : ChrEvents) (d : Dev) (m : Nat) : (chrMarked st e d).flag st m =
    (((d.flag st m || (e.cmp0 && decide (m = 1))) || (e.cmp1 && decide (m = 2))) || (e.wrap && decide (m = 3))) := by
  unfold chrMarked
  dsimp only
  rw [putFlag_ite_flag _ _ _ _ _ (by decide), putFlag_ite_flag _ _ _ _ _ (by decide), putFlag_ite_flag _ _ _ _ _ (by decide)]

theorem chrMarked_regs (st : Nat) (e : ChrEvents) (d : Dev) : RegsOnly [st] d (chrMarked st e d) := by
  unfold chrMarked
  dsimp only
  exact ((RegsOnly.ite (.putFlag d 1 true (by simp)) (.refl _ d)).trans
    (.ite (.putFlag _ 2 true (by simp)) (.refl _ _))).trans (.ite (.putFlag _ 3 true (by simp)) (.refl _ _))

theorem chrMarked_of_regs (st : Nat) (e : ChrEvents) {d u : Dev} (h : u.regs = d.regs) :
    (chrMarked st e u).regs = (chrMarked st e d).regs := by
  have hput (n : Nat) {d u : Dev} (h : u.regs = d.regs) (b : Bool) :
      (if b then u.putFlag st n true else u).regs = (if b then d.putFlag st n true else d).regs := by
    cases b
    · exact h
    · simp only [if_true, Dev.putFlag, Dev.putFld, Dev.putReg, Dev.reg, h]
  exact hput 3 (hput 2 (hput 1 h e.cmp0) e.cmp1) e.wrap

/-- The events of one tick of chronograph c. -/
def oneTick (d : Dev) (c : Nat) : ChrEvents :=
  let x := tickTo (d.reg (Reg.CHR_RELOAD c)).toNat (d.chr c).count
  { cmp0 := decide (x = (d.reg (Reg.CHR_CMP0 c)).toNat), cmp1 := decide (x = (d.reg (Reg.CHR_CMP1 c)).toNat), wrap := decide (x = 0) }

/-- A device whose chronograph c has counted one tick: its count, its status bits and its events. -/
structure Ticked (d : Dev) (c : Nat) (e : Dev) : Prop where
  chr : e.cnt.chr = upd d.cnt.chr c (fun x => { x with count := tickTo (d.reg (Reg.CHR_RELOAD c)).toNat x.count })
  regs : e.regs = (chrMarked (Reg.CHR_STAT c) (oneTick d c) d).regs
  bus : e.cnt.bus = d.cnt.bus ++ eventsAt d.cnt.edge c (oneTick d c)
  edge : e.cnt.edge = d.cnt.edge
  rest : e = { d with regs := e.regs, cnt := e.cnt, outs := e.outs }

theorem tickBy_one {d : Dev} (c : Nat) (h : d.isOn Dom.ctrl = true) : Ticked d c (tickBy c 1 d) := by
  set u := chrMarked (Reg.CHR_STAT c) (oneTick d c)
    (d.modChr c (fun x => { x with count := countAfter (d.reg (Reg.CHR_RELOAD c)).toNat x.count 1 })) with hu
  have heq : tickBy c 1 d = forUpTo 4 (outEvents c (oneTick d c)) (emitEvents c (oneTick d c) u) := by
    unfold tickBy
    dsimp only
    rw [tickEvents_one, if_neg (by omega)]
    rfl
  have hualone := chrMarked_alone (Reg.CHR_STAT c) (oneTick d c)
    (d.modChr c (fun x => { x with count := countAfter (d.reg (Reg.CHR_RELOAD c)).toNat x.count 1 }))
  rw [← hu] at hualone
  have huon : u.isOn Dom.ctrl = true := by
    rw [hualone]
    exact h
  have hemit := emitEvents_emitted c (oneTick d c) huon
  have hpins := forUpTo_pins (outEvents_pins c (oneTick d c)) 4 (emitEvents c (oneTick d c) u)
  rw [← heq] at hpins
  generalize emitEvents c (oneTick d c) u = w at hemit hpins
  generalize tickBy c 1 d = v at hpins
  unfold PinsOnly at hpins
  unfold Emitted at hemit
  have hvw : v.regs = w.regs := by rw [hpins]
  have hwu : w.regs = u.regs := by rw [hemit]
  have hedge : u.cnt.edge = d.cnt.edge := congrArg (fun d => d.cnt.edge) hualone
  refine ⟨?_, hvw.trans (hwu.trans (chrMarked_of_regs _ _ rfl)), ?_, ?_, ?_⟩
  · have hv : v.cnt.chr = w.cnt.chr := by rw [hpins]
    have hw : w.cnt.chr = u.cnt.chr := by rw [hemit]
    rw [hv, hw, hualone]
    simp only [Dev.modChr, countAfter_one]
  · have hv : v.cnt.bus = w.cnt.bus := by rw [hpins]
    have hw : w.cnt.bus = u.cnt.bus ++ eventsAt u.cnt.edge c (oneTick d c) := by rw [hemit]
    rw [hv, hw, hedge, hualone]
    rfl
  · have hv : v.cnt.edge = w.cnt.edge := by rw [hpins]
    have hw : w.cnt.edge = u.cnt.edge := by rw [hemit]
    rw [hv, hw, hedge]
  · have hw : w = { d with regs := w.regs, cnt := w.cnt, outs := w.outs } := by
      rw [hemit, hualone]
      rfl
    rw [hpins, hw]

end Sys2Proof.Machine
end

section
/-! PROOF. The statement on chronographs: ticks, the writes that start, stop, clear and reload them, and captures (R446 to R456). -/

namespace Sys2Proof.Machine

open Sys2Proof

/-! ### A tick in the terms of the statement -/

/-- Chronograph c has counted one tick; the bus held b before its events. -/
def TickCounts (s : State) (b : List (Nat × Nat × Nat)) (c : Nat) (d : Dev) : Prop :=
  let reload := (s.dev.reg (Reg.CHR_RELOAD c)).toNat
  (d.chr c).count = (if reload ≤ (s.dev.chr c).count then 0 else (s.dev.chr c).count + 1) ∧
  (d.flag (Reg.CHR_STAT c) 3 = true ↔ s.dev.flag (Reg.CHR_STAT c) 3 = true ∨ (d.chr c).count = 0) ∧
  (d.flag (Reg.CHR_STAT c) 1 = true ↔ s.dev.flag (Reg.CHR_STAT c) 1 = true ∨ (d.chr c).count = (s.dev.reg (Reg.CHR_CMP0 c)).toNat) ∧
  (d.flag (Reg.CHR_STAT c) 2 = true ↔ s.dev.flag (Reg.CHR_STAT c) 2 = true ∨ (d.chr c).count = (s.dev.reg (Reg.CHR_CMP1 c)).toNat) ∧
  d.cnt.bus = b ++ (if (d.chr c).count = (s.dev.reg (Reg.CHR_CMP0 c)).toNat then [(d.cnt.edge, 48 + c, 1)] else []) ++
    (if (d.chr c).count = (s.dev.reg (Reg.CHR_CMP1 c)).toNat then [(d.cnt.edge, 64 + c, 1)] else []) ++
    (if (d.chr c).count = 0 then [(d.cnt.edge, 80 + c, 1)] else []) ∧
  (∀ k, k ≠ c → d.chr k = s.dev.chr k) ∧ RegsKept s d [Reg.CHR_STAT c] ∧ d = { s.dev with regs := d.regs, cnt := d.cnt, outs := d.outs }

theorem Ticked.chr_same {d e : Dev} {c : Nat} (h : Ticked d c e) (hlen : c < d.cnt.chr.length) :
    e.chr c = { d.chr c with count := tickTo (d.reg (Reg.CHR_RELOAD c)).toNat (d.chr c).count } := by
  rw [Dev.chr, h.chr]
  exact Dev.chr_modChr_same _ hlen

theorem Ticked.chr_ne {d e : Dev} {c k : Nat} (h : Ticked d c e) (hk : k ≠ c) : e.chr k = d.chr k := by
  rw [Dev.chr, h.chr]
  exact Dev.chr_modChr_ne d _ hk

theorem Ticked.counts {s : State} {b : List (Nat × Nat × Nat)} {c : Nat} {u e : Dev} (h : Ticked u c e) (hu : u = { s.dev with cnt := u.cnt })
    (hbus : u.cnt.bus = b) (hlen : c < u.cnt.chr.length) (hcount : (u.chr c).count = (s.dev.chr c).count)
    (hothers : ∀ k, k ≠ c → u.chr k = s.dev.chr k) : TickCounts s b c e := by
  have hregs : u.regs = s.dev.regs := by rw [hu]
  have hreg := Dev.reg_of_regs hregs
  have hto : (e.chr c).count = tickTo (u.reg (Reg.CHR_RELOAD c)).toNat (u.chr c).count := by rw [h.chr_same hlen]
  have hflag (m : Nat) : e.flag (Reg.CHR_STAT c) m = (chrMarked (Reg.CHR_STAT c) (oneTick u c) u).flag (Reg.CHR_STAT c) m := by
    rw [Dev.flag, Dev.flag, Dev.reg_of_regs h.regs]
  have hwas (m : Nat) : u.flag (Reg.CHR_STAT c) m = s.dev.flag (Reg.CHR_STAT c) m := by rw [Dev.flag, Dev.flag, hreg]
  have hevents : oneTick u c = ⟨decide ((e.chr c).count = (s.dev.reg (Reg.CHR_CMP0 c)).toNat),
      decide ((e.chr c).count = (s.dev.reg (Reg.CHR_CMP1 c)).toNat), decide ((e.chr c).count = 0)⟩ := by
    rw [hto, ← hreg, ← hreg]
    rfl
  rw [hevents] at hflag
  refine ⟨by rw [hto, hreg, hcount]; rfl, ?_, ?_, ?_, ?_, fun k hk => (h.chr_ne hk).trans (hothers k hk), fun a ha => ?_, ?_⟩
  · rw [hflag, chrMarked_flag, hwas]
    simp
  · rw [hflag, chrMarked_flag, hwas]
    simp
  · rw [hflag, chrMarked_flag, hwas]
    simp
  · rw [h.bus, h.edge, hevents, hbus]
    simp only [eventsAt, decide_eq_true_eq, List.append_assoc]
  · exact (Dev.reg_of_regs h.regs a).trans ((chrMarked_regs _ _ u a ha).trans (hreg a))
  · refine h.rest.trans ?_
    rw [hu]

theorem edgeTo_on (x : Nat) (d : Dev) (n : Nat) : (edgeTo x d).isOn n = d.isOn n := rfl

section
variable {d : Dev} {c : Nat} (hruns : d.chrRuns = true) (hc : c < 16) (hen : d.flag (Reg.CHR_CTL c) 0 = true)
include hruns hc hen

theorem chrTickDev_prescaled (hsrc : d.fld (Reg.CHR_CTL c) 3 1 = 3) : chrTickDev c 1 d = if edgeNear d (prescaledNext d c) then
    tickBy c 1 ((edgeTo (prescaledNext d c) d).modChr c (fun h => { h with from_ := prescaledNext d c + 1 })) else d := by
  unfold chrTickDev
  dsimp only
  rw [hruns, decide_eq_true hc, hen, if_neg (by decide), if_pos hsrc]
  simp only [true_and]

theorem chrTickDev_registered (hsrc : d.fld (Reg.CHR_CTL c) 3 1 ∈ [1, 2, 4, 5, 6]) {r : List Nat} (hticks : (d.chr c).ticks = 1 :: r) :
    chrTickDev c 1 d = tickBy c 1 (d.modChr c (fun x => { x with ticks := r, capDue := x.capDue.map (fun l => l.map (· - 1)) })) := by
  have hnot : d.fld (Reg.CHR_CTL c) 3 1 ≠ 3 ∧ d.fld (Reg.CHR_CTL c) 3 1 ≠ 0 ∧ d.fld (Reg.CHR_CTL c) 3 1 ≠ 7 := by
    refine ⟨?_, ?_, ?_⟩ <;> intro h <;> rw [h] at hsrc <;> revert hsrc <;> decide
  unfold chrTickDev
  dsimp only
  rw [hruns, decide_eq_true hc, hen, if_neg (by decide), if_neg hnot.1, hticks]
  exact if_pos ⟨rfl, hnot.2⟩

end

theorem chrTickDev_of_stopped {d : Dev} (c n : Nat) (hen : d.flag (Reg.CHR_CTL c) 0 = false) : chrTickDev c n d = d := by
  unfold chrTickDev
  rw [hen, Bool.and_false]
  rfl

theorem Dev.chrRuns_on {d : Dev} (h : d.chrRuns = true) : d.isOn Dom.ctrl = true ∧ d.frame.refValid = true := by
  unfold Dev.chrRuns at h
  exact Bool.and_eq_true_iff.1 h

/-! ### A write's edge (R446) -/

theorem atEdge_runs {d : Dev} (a : Nat) (v : Word) (f : Dev → Dev) (h : d.chrRuns = true) : atEdge a v f d = f d := by
  unfold atEdge
  rw [(Dev.chrRuns_on h).2, Bool.not_true, Bool.and_false]
  rfl

theorem atEdge_waits {d : Dev} (a : Nat) (v : Word) (f : Dev → Dev) (hon : d.isOn Dom.ctrl = true) (href : d.frame.refValid = false) :
    atEdge a v f d = { d with cnt := { d.cnt with wait := d.cnt.wait ++ [(a, v)] } } := by
  unfold atEdge
  rw [hon, href]
  rfl

/-! ### Chronograph c alone -/

/-- Of the device only chronograph c has changed. -/
structure ChrAt (c : Nat) (d e : Dev) : Prop where
  alone : e = { d with cnt := { d.cnt with chr := e.cnt.chr } }
  others : ∀ k, k ≠ c → e.chr k = d.chr k
  length : e.cnt.chr.length = d.cnt.chr.length

theorem ChrAt.refl (c : Nat) (d : Dev) : ChrAt c d d := ⟨rfl, fun _ _ => rfl, rfl⟩

theorem ChrAt.modChr (d : Dev) (c : Nat) (f : Chrono → Chrono) : ChrAt c d (d.modChr c f) :=
  ⟨rfl, fun _ hk => Dev.chr_modChr_ne d f hk, upd_length ..⟩

theorem ChrAt.trans {c : Nat} {d e u : Dev} (h : ChrAt c d e) (k : ChrAt c e u) : ChrAt c d u := by
  refine ⟨?_, fun j hj => (k.others j hj).trans (h.others j hj), k.length.trans h.length⟩
  refine k.alone.trans ?_
  rw [h.alone]

theorem ChrAt.ite {c : Nat} {p : Prop} [Decidable p] {d e u : Dev} (h : ChrAt c d e) (k : ChrAt c d u) : ChrAt c d (if p then e else u) := by
  split <;> assumption

theorem ChrAt.regs {c : Nat} {d e : Dev} (h : ChrAt c d e) : e.regs = d.regs := by rw [h.alone]

theorem ChrAt.rest {c : Nat} {d e : Dev} (h : ChrAt c d e) : e = { d with cnt := e.cnt } := by rw [h.alone]

theorem ChrAt.edge {c : Nat} {d e : Dev} (h : ChrAt c d e) : e.cnt.edge = d.cnt.edge := by rw [h.alone]

theorem ChrAt.bus {c : Nat} {d e : Dev} (h : ChrAt c d e) : e.cnt.bus = d.cnt.bus := by rw [h.alone]

theorem chrZero_at (c : Nat) (d : Dev) : ChrAt c d (chrZero c d) := (ChrAt.modChr d c _).trans (.modChr _ c _)

theorem chrZero_chr {d : Dev} {c : Nat} (h : c < d.cnt.chr.length) :
    (chrZero c d).chr c = { d.chr c with count := 0, origin := d.cnt.edge, from_ := d.cnt.edge + 1 } := by
  unfold chrZero prescaleFrom
  rw [Dev.chr_modChr_same _ (lt_of_lt_of_eq h (upd_length ..).symm), Dev.chr_modChr_same _ h]
  rfl

theorem prescaleFrom_chr {d : Dev} {c : Nat} (h : c < d.cnt.chr.length) :
    (prescaleFrom c d).chr c = { d.chr c with origin := d.cnt.edge, from_ := d.cnt.edge + 1 } := Dev.chr_modChr_same _ h

/-- A change of one chronograph that leaves its count leaves the count of each. -/
theorem Dev.count_modChr (d : Dev) (c : Nat) (f : Chrono → Chrono) (hf : ∀ x, (f x).count = x.count) :
    ((d.modChr c f).chr c).count = (d.chr c).count := by
  by_cases h : c < d.cnt.chr.length
  · rw [Dev.chr_modChr_same f h, hf]
  · have hlen : (d.modChr c f).cnt.chr.length = d.cnt.chr.length := upd_length ..
    have hafter : (d.modChr c f).chr c = Chrono.reset := List.getD_eq_default _ _ (by omega)
    have hbefore : d.chr c = Chrono.reset := List.getD_eq_default _ _ (by omega)
    rw [hafter, hbefore]

/-! ### Start and stop (R452) -/

/-- What EN's change of chronograph c goes by, and what it can change. -/
def chrView (c : Nat) (d : Dev) : Chrono × Word × Word × Nat × Nat :=
  (d.chr c, d.reg (Reg.CHR_CTL c), d.reg (Reg.CHR_STAT c), d.cnt.edge, d.cnt.chr.length)

theorem ChrAt.view {j c : Nat} {d e : Dev} (h : ChrAt j d e) (hj : j ≠ c) : chrView c e = chrView c d := by
  unfold chrView
  rw [h.others c hj.symm, Dev.reg_of_regs h.regs, Dev.reg_of_regs h.regs, h.edge, h.length]

/-- EN and its mirror written. -/
def enPut (c : Nat) (on : Bool) (d : Dev) : Dev := (d.putFlag (Reg.CHR_CTL c) 0 on).putFlag (Reg.CHR_STAT c) 0 on

theorem enPut_flags (c : Nat) (on : Bool) (d : Dev) : (enPut c on d).flag (Reg.CHR_CTL c) 0 = on ∧ (enPut c on d).flag (Reg.CHR_STAT c) 0 = on := by
  unfold enPut
  refine ⟨?_, Dev.flag_putFlag_same _ _ _ _ (by decide)⟩
  rw [Dev.flag_putFlag_other _ _ _ _ _ _ (by decide) (.inl (by simp only [Reg.CHR_CTL, Reg.CHR_STAT]; omega)), Dev.flag_putFlag_same _ _ _ _ (by decide)]

theorem enPut_view {j c : Nat} (on : Bool) (d : Dev) (h : j ≠ c) : chrView c (enPut j on d) = chrView c d := by
  unfold chrView enPut
  rw [Dev.reg_putFlag_ne _ _ _ _ _ (by simp only [Reg.CHR_CTL, Reg.CHR_STAT]; omega), Dev.reg_putFlag_ne _ _ _ _ _ (by simp only [Reg.CHR_CTL]; omega),
    Dev.reg_putFlag_ne _ _ _ _ _ (by simp only [Reg.CHR_STAT]; omega), Dev.reg_putFlag_ne _ _ _ _ _ (by simp only [Reg.CHR_CTL, Reg.CHR_STAT]; omega)]
  rfl

/-- EN written: the prescaler begins where it sets, and where it clears nothing registered is left. -/
theorem chrEn_eq (c : Nat) (on : Bool) (d : Dev) : chrEn c on d =
    if !on then (enPut c on d).modChr c dropTicks else if d.flag (Reg.CHR_CTL c) 0 then enPut c on d else prescaleFrom c (enPut c on d) := rfl

theorem chrEn_at (c : Nat) (on : Bool) (d : Dev) : ChrAt c (enPut c on d) (chrEn c on d) := by
  rw [chrEn_eq]
  exact .ite (.modChr _ c _) (.ite (.refl c _) (.modChr _ c _))

theorem chrEn_flags (c : Nat) (on : Bool) (d : Dev) : (chrEn c on d).flag (Reg.CHR_CTL c) 0 = on ∧ (chrEn c on d).flag (Reg.CHR_STAT c) 0 = on := by
  rw [Dev.flag, Dev.flag, Dev.reg_of_regs (chrEn_at c on d).regs, Dev.reg_of_regs (chrEn_at c on d).regs]
  exact enPut_flags c on d

theorem chrEn_on_chr {d : Dev} {c : Nat} (h : c < d.cnt.chr.length) : (chrEn c true d).chr c =
    if d.flag (Reg.CHR_CTL c) 0 then d.chr c else { d.chr c with origin := d.cnt.edge, from_ := d.cnt.edge + 1 } := by
  rw [chrEn_eq, if_neg (by decide)]
  split
  · rfl
  · exact prescaleFrom_chr (d := enPut c true d) h

theorem chrEn_off_count (c : Nat) (d : Dev) : ((chrEn c false d).chr c).count = (d.chr c).count :=
  Dev.count_modChr (enPut c false d) c dropTicks fun _ => rfl

/-- CHR_START at chronograph c. -/
def startOne (v : Word) (c : Nat) (d : Dev) : Dev := if v.getLsbD c then chrEn c true (if v.getLsbD 31 then chrZero c d else d) else d

/-- CHR_STOP at chronograph c. -/
def stopOne (v : Word) (c : Nat) (d : Dev) : Dev := if v.getLsbD c then chrEn c false d else d

theorem chrEn_view {j c : Nat} (on : Bool) (d : Dev) (h : j ≠ c) : chrView c (chrEn j on d) = chrView c d :=
  ((chrEn_at j on d).view h).trans (enPut_view on d h)

theorem startOne_view {j c : Nat} (v : Word) (d : Dev) (h : j ≠ c) : chrView c (startOne v j d) = chrView c d := by
  unfold startOne
  split
  · rw [chrEn_view true _ h]
    split
    · exact (chrZero_at j d).view h
    · rfl
  · rfl

theorem stopOne_view {j c : Nat} (v : Word) (d : Dev) (h : j ≠ c) : chrView c (stopOne v j d) = chrView c d := by
  unfold stopOne
  split
  · exact chrEn_view false d h
  · rfl

theorem chrView_eq {c : Nat} {d e : Dev} (h : chrView c e = chrView c d) : e.chr c = d.chr c ∧ e.reg (Reg.CHR_CTL c) = d.reg (Reg.CHR_CTL c) ∧
    e.reg (Reg.CHR_STAT c) = d.reg (Reg.CHR_STAT c) ∧ e.cnt.edge = d.cnt.edge ∧ e.cnt.chr.length = d.cnt.chr.length := by
  simpa only [chrView, Prod.mk.injEq] using h

theorem startOne_of_named {v : Word} {c : Nat} {d : Dev} (hlen : c < d.cnt.chr.length) (hv : v.getLsbD c = true) :
    (startOne v c d).flag (Reg.CHR_CTL c) 0 = true ∧ (startOne v c d).flag (Reg.CHR_STAT c) 0 = true ∧
    ((startOne v c d).chr c).count = (if v.getLsbD 31 then 0 else (d.chr c).count) ∧
    ((startOne v c d).chr c).origin = if v.getLsbD 31 || !d.flag (Reg.CHR_CTL c) 0 then d.cnt.edge else (d.chr c).origin := by
  unfold startOne
  rw [if_pos hv]
  refine ⟨(chrEn_flags c true _).1, (chrEn_flags c true _).2, ?_⟩
  cases v.getLsbD 31 with
  | true =>
    simp only [if_true, Bool.true_or]
    have hzero : (chrZero c d).cnt.chr.length = d.cnt.chr.length := (chrZero_at c d).length
    have hedge : (chrZero c d).cnt.edge = d.cnt.edge := (chrZero_at c d).edge
    rw [chrEn_on_chr (hlen.trans_eq hzero.symm), hedge, chrZero_chr hlen]
    split <;> exact ⟨rfl, rfl⟩
  | false =>
    simp only [Bool.false_eq_true, if_false, Bool.false_or]
    rw [chrEn_on_chr hlen]
    cases d.flag (Reg.CHR_CTL c) 0 <;> exact ⟨rfl, rfl⟩

theorem chrStartNow_round {v : Word} {d : Dev} (hon : d.isOn Dom.ctrl = true) {c : Nat} (hc : c < 16) :
    ∃ u, chrView c u = chrView c d ∧ chrView c (chrStartNow v d) = chrView c (startOne v c u) := by
  rw [chrStartNow, if_pos hon]
  exact forUpTo_round (chrView c) (f := startOne v) hc (fun j x hj => startOne_view v x hj) d

theorem chrStopNow_round {v : Word} {d : Dev} (hon : d.isOn Dom.ctrl = true) {c : Nat} (hc : c < 16) :
    ∃ u, chrView c u = chrView c d ∧ chrView c (chrStopNow v d) = chrView c (stopOne v c u) := by
  rw [chrStopNow, if_pos hon]
  exact forUpTo_round (chrView c) (f := stopOne v) hc (fun j x hj => stopOne_view v x hj) d

end Sys2Proof.Machine
end

section
/-! PROOF. The statement on chronographs: the writes of CHR_CTLc and CHR_CAPCTLc, and captures (R452 to R456). -/

namespace Sys2Proof.Machine

open Sys2Proof

/-! ### CHR_CTLc written (R452) -/

/-- CHR_CTLc's RW fields and EN's mirror. -/
def ctlPut (c : Nat) (v : Word) (d : Dev) : Dev := (d.putReg (Reg.CHR_CTL c) (v &&& 0xFFFF7FFF)).putFlag (Reg.CHR_STAT c) 0 (v.getLsbD 0)

/-- What a write of CHR_CTLc does to its chronograph's ticks and prescaler, where the register held `old`. -/
def ctlTicks (c : Nat) (old v : Word) (d : Dev) : Dev :=
  let d := if old.bits 14 1 = v.bits 14 1 ∧ v.getLsbD 0 then d else d.modChr c dropTicks
  let d := if !v.getLsbD 0 || old.bits 31 16 = v.bits 31 16 ∧ old.bits 3 1 = v.bits 3 1 then d
    else d.modChr c (fun x => { x with from_ := max x.from_ d.cnt.edge })
  if v.getLsbD 0 && !old.getLsbD 0 then prescaleFrom c d else d

theorem chrClearNow_eq {c : Nat} {d : Dev} (v : Word) (hon : d.isOn Dom.ctrl = true) (hc : c < 16) : chrClearNow c v d =
    if v.getLsbD 15 then chrZero c (ctlTicks c (d.reg (Reg.CHR_CTL c)) v (ctlPut c v d)) else
      ctlTicks c (d.reg (Reg.CHR_CTL c)) v (ctlPut c v d) := by
  unfold chrClearNow
  rw [hon, decide_eq_true hc, if_neg (by decide)]
  rfl

theorem ctlTicks_at (c : Nat) (old v : Word) (d : Dev) : ChrAt c d (ctlTicks c old v d) := by
  unfold ctlTicks
  dsimp only
  exact (ChrAt.ite (.refl c d) (.modChr d c _)).trans ((ChrAt.ite (.refl c _) (.modChr _ c _)).trans (.ite (.modChr _ c _) (.refl c _)))

theorem Dev.count_ite {c n : Nat} {p : Prop} [Decidable p] {d e : Dev} (h : (d.chr c).count = n) (k : (e.chr c).count = n) :
    ((if p then d else e).chr c).count = n := by
  split <;> assumption

theorem ctlTicks_count (c : Nat) (old v : Word) (d : Dev) : ((ctlTicks c old v d).chr c).count = (d.chr c).count := by
  unfold ctlTicks prescaleFrom
  dsimp only
  refine Dev.count_ite ((Dev.count_modChr _ c _ (by exact fun _ => rfl)).trans ?_) ?_
  all_goals refine Dev.count_ite ?_ ((Dev.count_modChr _ c _ (by exact fun _ => rfl)).trans ?_)
  all_goals exact Dev.count_ite rfl (Dev.count_modChr _ c _ (by exact fun _ => rfl))

theorem ctlPut_regs (c : Nat) (v : Word) (d : Dev) : (ctlPut c v d).reg (Reg.CHR_CTL c) = v &&& 0xFFFF7FFF ∧
    (ctlPut c v d).flag (Reg.CHR_STAT c) 0 = v.getLsbD 0 ∧ (ctlPut c v d).flag (Reg.CHR_STAT c) 3 = d.flag (Reg.CHR_STAT c) 3 ∧
    RegsOnly [Reg.CHR_CTL c, Reg.CHR_STAT c] d (ctlPut c v d) := by
  have hne : Reg.CHR_CTL c ≠ Reg.CHR_STAT c := by
    simp only [Reg.CHR_CTL, Reg.CHR_STAT]
    omega
  unfold ctlPut
  refine ⟨?_, Dev.flag_putFlag_same _ _ _ _ (by decide), ?_, fun a ha => ?_⟩
  · rw [Dev.reg_putFlag_ne _ _ _ _ _ hne, Dev.reg_putReg_same]
  · rw [Dev.flag_putFlag_other _ _ _ _ _ _ (by decide) (.inr (by decide)), Dev.flag, Dev.reg_putReg_ne _ _ _ _ hne.symm]
    rfl
  · simp only [List.mem_cons, List.not_mem_nil, or_false, not_or] at ha
    rw [Dev.reg_putFlag_ne _ _ _ _ _ ha.2, Dev.reg_putReg_ne _ _ _ _ ha.1]

theorem chrClearNow_meets {s : State} {c : Nat} (v : Word) (hon : s.dev.isOn Dom.ctrl = true) (hc : c < 16) (hlen : c < s.dev.cnt.chr.length) :
    let d := chrClearNow c v s.dev
    d.reg (Reg.CHR_CTL c) = v &&& 0xFFFF7FFF ∧ d.flag (Reg.CHR_STAT c) 0 = v.getLsbD 0 ∧
      (v.getLsbD 15 = true → (d.chr c).count = 0 ∧ (d.chr c).origin = s.dev.cnt.edge) ∧ (v.getLsbD 15 = false → (d.chr c).count = (s.dev.chr c).count) ∧
      d.flag (Reg.CHR_STAT c) 3 = s.dev.flag (Reg.CHR_STAT c) 3 ∧ (∀ k, k ≠ c → d.chr k = s.dev.chr k) ∧
      RegsKept s d [Reg.CHR_CTL c, Reg.CHR_STAT c] ∧ d.cnt.bus = s.dev.cnt.bus ∧ d = { s.dev with regs := d.regs, cnt := d.cnt } := by
  dsimp only
  obtain ⟨hctl, hrun, hwrap, honly⟩ := ctlPut_regs c v s.dev
  set p := ctlPut c v s.dev with hp
  set t := ctlTicks c (s.dev.reg (Reg.CHR_CTL c)) v p with ht
  have hticks : ChrAt c p t := ctlTicks_at c _ v p
  have hat : ChrAt c p (chrClearNow c v s.dev) := by
    rw [chrClearNow_eq v hon hc]
    exact .ite (hticks.trans (chrZero_at c t)) hticks
  have htlen : c < t.cnt.chr.length := hlen.trans_eq hticks.length.symm
  have hreg := Dev.reg_of_regs hat.regs
  refine ⟨(hreg _).trans hctl, ?_, fun hclear => ?_, fun hclear => ?_, ?_, hat.others, fun a ha => (hreg a).trans (honly a ha), hat.bus, ?_⟩
  · rw [Dev.flag, hreg]
    exact hrun
  · rw [chrClearNow_eq v hon hc, if_pos hclear, chrZero_chr htlen]
    exact ⟨rfl, hticks.edge⟩
  · rw [chrClearNow_eq v hon hc, if_neg (by rw [hclear]; decide)]
    exact ctlTicks_count c _ v p
  · rw [Dev.flag, hreg]
    exact hwrap
  · refine hat.rest.trans ?_
    rw [hat.regs]
    rfl

/-! ### RELOAD written (R453) -/

theorem reloadWriteNow_meets {s : State} {c : Nat} (v : Word) (hon : s.dev.isOn Dom.ctrl = true) (hc : c < 16) :
    let d := reloadWriteNow c v s.dev
    d.reg (Reg.CHR_RELOAD c) = v ∧ (v.toNat < (s.dev.chr c).count → d.flag (Reg.CHR_STAT c) 8 = true) ∧
      ((s.dev.chr c).count ≤ v.toNat → RegsKept s d [Reg.CHR_RELOAD c]) ∧ RegsKept s d [Reg.CHR_RELOAD c, Reg.CHR_STAT c] ∧
      d = { s.dev with regs := d.regs } := by
  have hne : Reg.CHR_RELOAD c ≠ Reg.CHR_STAT c := by
    simp only [Reg.CHR_RELOAD, Reg.CHR_STAT]
    omega
  have hkept : RegsKept s (s.dev.putReg (Reg.CHR_RELOAD c) v) [Reg.CHR_RELOAD c] := fun a ha =>
    Dev.reg_putReg_ne _ _ _ _ fun h => ha (h ▸ List.mem_cons_self)
  unfold reloadWriteNow
  dsimp only
  rw [hon, decide_eq_true hc, if_neg (by decide)]
  split
  next hlt =>
    refine ⟨?_, fun _ => Dev.flag_putFlag_same _ _ _ _ (by decide), fun hle => by omega, fun a ha => ?_, rfl⟩
    · rw [Dev.reg_putFlag_ne _ _ _ _ _ hne, Dev.reg_putReg_same]
    · simp only [List.mem_cons, List.not_mem_nil, or_false, not_or] at ha
      rw [Dev.reg_putFlag_ne _ _ _ _ _ ha.2, Dev.reg_putReg_ne _ _ _ _ ha.1]
  next hlt =>
    exact ⟨Dev.reg_putReg_same _ _ _, fun h => absurd h hlt, fun _ => hkept, RegsOnly.mono (d := s.dev) hkept (by simp), rfl⟩

/-! ### Captures (R455, R456) -/

/-- Two devices in which chronograph c has the same count and the same ticks due. -/
structure SameCount (c : Nat) (d e : Dev) : Prop where
  ctl : e.reg (Reg.CHR_CTL c) = d.reg (Reg.CHR_CTL c)
  reload : e.reg (Reg.CHR_RELOAD c) = d.reg (Reg.CHR_RELOAD c)
  edge : e.cnt.edge = d.cnt.edge
  count : (e.chr c).count = (d.chr c).count
  origin : (e.chr c).origin = (d.chr c).origin
  from_ : (e.chr c).from_ = (d.chr c).from_
  ticks : (e.chr c).ticks = (d.chr c).ticks

theorem SameCount.past {c : Nat} {d e : Dev} (h : SameCount c d e) (n : Nat) : countPast e c n = countPast d c n := by
  rw [countPast, countPast, h.reload, h.count]

theorem SameCount.due {c : Nat} {d e : Dev} (h : SameCount c d e) : ticksDue e c = ticksDue d c := by
  have hp : prescale e c = prescale d c := by rw [prescale, prescale, Dev.fld, Dev.fld, h.ctl]
  have hnext : prescaledNext e c = prescaledNext d c := by
    unfold prescaledNext
    dsimp only
    rw [hp, h.origin, h.from_]
  unfold ticksDue
  dsimp only
  rw [Dev.flag, Dev.flag, Dev.fld, Dev.fld, h.ctl, hnext, h.edge, hp, h.ticks]

/-- A capture of channel n in chronograph c: its value is kept, FRESH sets, and over an unread one the overrun bit. -/
structure Captured (c n v : Nat) (d e : Dev) : Prop where
  chr : e.chr c = { d.chr c with cap := (d.chr c).cap.set n v }
  others : ∀ k, k ≠ c → e.chr k = d.chr k
  fresh : e.flag (Reg.CHR_STAT c) (4 + n) = true
  stays : ∀ m, d.flag (Reg.CHR_STAT c) m = true → e.flag (Reg.CHR_STAT c) m = true
  overrun : d.flag (Reg.CHR_STAT c) (4 + n) = true → e.flag (Reg.CHR_STAT c) (6 + n) = true
  regs : RegsOnly [Reg.CHR_STAT c] d e
  length : e.cnt.chr.length = d.cnt.chr.length
  alone : e = { d with regs := e.regs, cnt := { d.cnt with chr := e.cnt.chr } }

theorem Dev.flag_putFlag_set {d : Dev} {a n m : Nat} (hn : n < 32) (h : d.flag a m = true) : (d.putFlag a n true).flag a m = true := by
  by_cases hm : m = n
  · rw [hm, Dev.flag_putFlag_same _ _ _ _ hn]
  · rw [Dev.flag_putFlag_other _ _ _ _ _ _ hn (.inr hm), h]

theorem capturePut_captured {c n : Nat} (v : Nat) (hn : n < 2) {d : Dev} (hlen : c < d.cnt.chr.length) : Captured c n v d (capturePut c n v d) := by
  set m := (if d.flag (Reg.CHR_STAT c) (4 + n) then d.putFlag (Reg.CHR_STAT c) (6 + n) true else d) with hm
  have halone : m = { d with regs := m.regs } := by
    rw [hm]
    split <;> rfl
  have hcnt : m.cnt = d.cnt := by rw [halone]
  have hregs : RegsOnly [Reg.CHR_STAT c] d m := .ite (.putFlag d _ _ (by simp)) (.refl _ d)
  have hstays (b : Nat) (h : d.flag (Reg.CHR_STAT c) b = true) : m.flag (Reg.CHR_STAT c) b = true := by
    rw [hm]
    split
    · exact Dev.flag_putFlag_set (by omega) h
    · exact h
  have hchr (k : Nat) : m.chr k = d.chr k := Dev.chr_of_cnt (by rw [hcnt]) k
  have heq : capturePut c n v d = (m.modChr c (fun x => { x with cap := x.cap.set n v })).putFlag (Reg.CHR_STAT c) (4 + n) true := rfl
  rw [heq]
  refine ⟨?_, fun k hk => ?_, Dev.flag_putFlag_same _ _ _ _ (by omega), fun b hb => Dev.flag_putFlag_set (by omega) (hstays b hb), fun hb => ?_,
    hregs.trans (.putFlag (m.modChr c _) _ _ (by simp)), ?_, ?_⟩
  · refine (Dev.chr_modChr_same (d := m) _ (by rw [hcnt]; exact hlen)).trans ?_
    rw [hchr]
  · exact (Dev.chr_modChr_ne m _ hk).trans (hchr k)
  · refine Dev.flag_putFlag_set (by omega) ?_
    show m.flag _ _ = true
    rw [hm, if_pos hb]
    exact Dev.flag_putFlag_same _ _ _ _ (by omega)
  · exact (upd_length ..).trans (by rw [hcnt])
  · rw [halone]
    rfl

theorem Captured.value {c n v : Nat} {d e : Dev} (h : Captured c n v d e) (hn : n < (d.chr c).cap.length) : (e.chr c).cap[n]? = some v := by
  rw [h.chr]
  exact List.getElem?_set_self hn

theorem Captured.rest {c n v : Nat} {d e : Dev} (h : Captured c n v d e) : e = { d with regs := e.regs, cnt := e.cnt } := by rw [h.alone]

theorem Captured.sameCount {c n v : Nat} {d e : Dev} (h : Captured c n v d e) : SameCount c d e := by
  have hreg {a : Nat} (ha : a ≠ Reg.CHR_STAT c) : e.reg a = d.reg a := h.regs a (by simpa using ha)
  refine ⟨hreg (by simp only [Reg.CHR_CTL, Reg.CHR_STAT]; omega), hreg (by simp only [Reg.CHR_RELOAD, Reg.CHR_STAT]; omega), ?_, ?_, ?_, ?_, ?_⟩
  · rw [h.alone]
  all_goals rw [h.chr]

/-- A registered capture that is due is one of a chronograph of the device's. -/
theorem Dev.chr_lt_of_due {d : Dev} {c n : Nat} (h : (at_ (d.chr c).capDue n []).head? = some 0) : c < d.cnt.chr.length := by
  refine Dev.chr_lt fun hreset => ?_
  rw [hreset] at h
  match n, h with
  | 0, h => cases h
  | 1, h => cases h
  | n + 2, h => cases h

theorem chrCaptureDev_meets {s : State} {c n : Nat} (hruns : s.dev.chrRuns = true) (hc : c < 16) (hn : n < 2)
    (hdue : (at_ (s.dev.chr c).capDue n []).head? = some 0) (hcap : (s.dev.chr c).cap.length = 2) :
    let d := chrCaptureDev c n s.dev
    (d.chr c).cap[n]? = some (countPast s.dev c (if s.dev.fld (Reg.CHR_CTL c) 3 1 = 3 then ticksDue s.dev c else 0)) ∧
      d.flag (Reg.CHR_STAT c) (4 + n) = true ∧
      at_ (d.chr c).capDue n [] = (at_ (s.dev.chr c).capDue n []).tail ∧ (d.chr c).count = (s.dev.chr c).count ∧
      (s.dev.flag (Reg.CHR_STAT c) (4 + n) = true → d.flag (Reg.CHR_STAT c) (6 + n) = true) ∧ (∀ k, k ≠ c → d.chr k = s.dev.chr k) ∧
      RegsKept s d [Reg.CHR_STAT c] ∧ d = { s.dev with regs := d.regs, cnt := d.cnt } := by
  have hlen := Dev.chr_lt_of_due hdue
  have hlisted : n < (s.dev.chr c).capDue.length := by
    by_contra hout
    have hnil : at_ (s.dev.chr c).capDue n [] = [] := List.getD_eq_default _ _ (Nat.le_of_not_lt hout)
    rw [hnil] at hdue
    cases hdue
  set u := s.dev.modChr c (fun x => { x with capDue := upd x.capDue n List.tail }) with hu
  have huchr : u.chr c = { s.dev.chr c with capDue := upd (s.dev.chr c).capDue n List.tail } := Dev.chr_modChr_same _ hlen
  have hsame : SameCount c s.dev u := ⟨rfl, rfl, rfl, by rw [huchr], by rw [huchr], by rw [huchr], by rw [huchr]⟩
  have heq : chrCaptureDev c n s.dev = capturePut c n (countPast s.dev c (if s.dev.fld (Reg.CHR_CTL c) 3 1 = 3 then ticksDue s.dev c else 0)) u := by
    unfold chrCaptureDev
    rw [hruns, decide_eq_true hc, decide_eq_true hn, hdue, if_pos (by decide)]
    unfold captureNow
    rw [hsame.past, hsame.due]
    rfl
  have hcaptured := capturePut_captured (n := n) (countPast s.dev c (if s.dev.fld (Reg.CHR_CTL c) 3 1 = 3 then ticksDue s.dev c else 0)) hn
    (d := u) (hlen.trans_eq (upd_length ..).symm)
  rw [← heq] at hcaptured
  refine ⟨hcaptured.value (by rw [huchr, hcap]; exact hn), hcaptured.fresh, ?_, ?_, hcaptured.overrun,
    fun k hk => (hcaptured.others k hk).trans (Dev.chr_modChr_ne _ _ hk), hcaptured.regs, ?_⟩
  · rw [hcaptured.chr, huchr]
    exact (at_upd _ _ _ _ _ hlisted).trans (if_pos rfl)
  · rw [hcaptured.chr, huchr]
  · exact hcaptured.rest

theorem captureSwNow_eq {c : Nat} {d : Dev} (v : Word) (hon : d.isOn Dom.ctrl = true) (hc : c < 16) : captureSwNow c v d =
    let p := d.putReg (Reg.CHR_CAPCTL c) (v &&& 0x7E7F7E7F)
    let q := if v.getLsbD 15 then captureSw c 0 p else p
    if v.getLsbD 31 then captureSw c 1 q else q := by
  unfold captureSwNow
  rw [hon, decide_eq_true hc, if_neg (by decide)]

theorem captureSwNow_meets {s : State} {c : Nat} (v : Word) (hon : s.dev.isOn Dom.ctrl = true) (hc : c < 16)
    (hcap : (s.dev.chr c).cap.length = 2) (hlen : c < s.dev.cnt.chr.length) :
    let d := captureSwNow c v s.dev
    d.reg (Reg.CHR_CAPCTL c) = v &&& 0x7E7F7E7F ∧
      (v.getLsbD 15 = true → (d.chr c).cap[0]? = some (countPast s.dev c (ticksDue s.dev c)) ∧ d.flag (Reg.CHR_STAT c) 4 = true) ∧
      (v.getLsbD 31 = true → (d.chr c).cap[1]? = some (countPast s.dev c (ticksDue s.dev c)) ∧ d.flag (Reg.CHR_STAT c) 5 = true) ∧
      (v.getLsbD 15 = false → v.getLsbD 31 = false → d.cnt = s.dev.cnt ∧ RegsKept s d [Reg.CHR_CAPCTL c]) := by
  have hne : Reg.CHR_CAPCTL c ≠ Reg.CHR_STAT c := by
    simp only [Reg.CHR_CAPCTL, Reg.CHR_STAT]
    omega
  set x := countPast s.dev c (ticksDue s.dev c) with hx
  set p := s.dev.putReg (Reg.CHR_CAPCTL c) (v &&& 0x7E7F7E7F) with hp
  have hpsame : SameCount c s.dev p := by
    refine ⟨Dev.reg_putReg_ne _ _ _ _ ?_, Dev.reg_putReg_ne _ _ _ _ ?_, rfl, rfl, rfl, rfl, rfl⟩
    · simp only [Reg.CHR_CTL, Reg.CHR_CAPCTL]
      omega
    · simp only [Reg.CHR_RELOAD, Reg.CHR_CAPCTL]
      omega
  have hpreg : p.reg (Reg.CHR_CAPCTL c) = v &&& 0x7E7F7E7F := Dev.reg_putReg_same _ _ _
  have hsw {n : Nat} (hn : n < 2) {u : Dev} (hlen : c < u.cnt.chr.length) (h : SameCount c p u) : Captured c n x u (captureSw c n u) := by
    unfold captureSw
    rw [h.past, h.due, hpsame.past, hpsame.due]
    exact capturePut_captured x hn hlen
  have hfirst := hsw (n := 0) (by decide) (u := p) hlen ⟨rfl, rfl, rfl, rfl, rfl, rfl, rfl⟩
  have hcapreg {n : Nat} {u e : Dev} (h : Captured c n x u e) : e.reg (Reg.CHR_CAPCTL c) = u.reg (Reg.CHR_CAPCTL c) := h.regs _ (by simp)
  dsimp only
  rw [captureSwNow_eq v hon hc]
  dsimp only
  rw [← hp]
  cases h15 : v.getLsbD 15 with
  | true =>
    have hsecond := hsw (n := 1) (by decide) (u := captureSw c 0 p) (hlen.trans_eq hfirst.length.symm) hfirst.sameCount
    have hfirstcap : (captureSw c 0 p).chr c = { s.dev.chr c with cap := (s.dev.chr c).cap.set 0 x } := hfirst.chr
    have hvalue := hfirst.value (by show 0 < (s.dev.chr c).cap.length; omega)
    cases v.getLsbD 31 with
    | true =>
      simp only [if_true]
      refine ⟨(hcapreg hsecond).trans ((hcapreg hfirst).trans hpreg), fun _ => ⟨?_, hsecond.stays 4 hfirst.fresh⟩, fun _ => ⟨?_, hsecond.fresh⟩, nofun⟩
      · rw [hsecond.chr]
        exact (List.getElem?_set_ne (by decide)).trans hvalue
      · exact hsecond.value (by rw [hfirstcap, List.length_set, hcap]; decide)
    | false =>
      simp only [if_true, Bool.false_eq_true, if_false]
      exact ⟨(hcapreg hfirst).trans hpreg, fun _ => ⟨hvalue, hfirst.fresh⟩, nofun, nofun⟩
  | false =>
    have hsecond := hsw (n := 1) (by decide) (u := p) hlen ⟨rfl, rfl, rfl, rfl, rfl, rfl, rfl⟩
    cases v.getLsbD 31 with
    | true =>
      simp only [if_true, Bool.false_eq_true, if_false]
      exact ⟨(hcapreg hsecond).trans hpreg, nofun, fun _ => ⟨hsecond.value (by show 1 < (s.dev.chr c).cap.length; omega), hsecond.fresh⟩, nofun⟩
    | false =>
      simp only [Bool.false_eq_true, if_false]
      exact ⟨hpreg, nofun, nofun, fun _ _ => ⟨rfl, fun a ha => Dev.reg_putReg_ne _ _ _ _ fun h => ha (h ▸ List.mem_cons_self)⟩⟩

/-! ### The statement -/

/-- What waits for the reference. -/
theorem chrWrite_waits {s : State} {v : Word} {c n a : Nat} {i : Instr} (hon : s.dev.isOn Dom.ctrl = true) (href : s.dev.frame.refValid = false)
    (hturn : hostTurn s.dev = true) (hi : (a, i) ∈ [(Reg.CHR_START, Instr.chrStart v), (Reg.CHR_STOP, .chrStop v), (Reg.CHR_CTL c, .chrClear c v),
      (Reg.CHR_RELOAD c, .reloadWrite c v), (Reg.CHR_CAPCTL c, .captureSw c v), (Reg.EVC_GLB, .evcFreeze v), (Reg.EVC_CFG n, .evcClr n v)]) :
    exec i s = .next { s with dev := { s.dev with cnt := { s.dev.cnt with wait := s.dev.cnt.wait ++ [(a, v)] } } } := by
  have hexec (f : Dev → Dev) (he : exec i s = hostNext s (atEdge a v f)) :
      exec i s = .next { s with dev := { s.dev with cnt := { s.dev.cnt with wait := s.dev.cnt.wait ++ [(a, v)] } } } := by
    rw [he, hostNext_turn _ hturn, atEdge_waits a v f hon href]
  simp only [List.mem_cons, Prod.mk.injEq, List.not_mem_nil, or_false] at hi
  obtain ⟨rfl, rfl⟩ | ⟨rfl, rfl⟩ | ⟨rfl, rfl⟩ | ⟨rfl, rfl⟩ | ⟨rfl, rfl⟩ | ⟨rfl, rfl⟩ | ⟨rfl, rfl⟩ := hi
  · exact hexec (chrStartNow v) rfl
  · exact hexec (chrStopNow v) rfl
  · exact hexec (chrClearNow c v) rfl
  · exact hexec (reloadWriteNow c v) rfl
  · exact hexec (captureSwNow c v) rfl
  · exact hexec (evcGlbNow v) rfl
  · exact hexec (evcClrNow n v) rfl

/-- A host's write of a chronograph's register while the blocks run has its effect at once. -/
theorem yields_atEdge {i : Instr} {s : State} {a : Nat} {v : Word} {f : Dev → Dev} (P : Dev → Prop)
    (hi : exec i s = hostNext s (atEdge a v f)) (hruns : s.dev.chrRuns = true) (hturn : hostTurn s.dev = true) : Yields i s P ↔ P (f s.dev) := by
  rw [yields_hostNext (f := atEdge a v f) P hi hturn, atEdge_runs a v f hruns]

/-- Settles O43: a tick by what it does to the count, the status bits and the bus; a start and a stop by the round of each chronograph; the writes and
the captures by what they leave of it. -/
theorem chronographsCountAndCapture : Obligations.ChronographsCountAndCapture := by
  refine ⟨fun s c hruns hc hlen hen => ⟨fun x hsrc hx => ⟨fun hnear => ?prescaled, fun hfar => ?far⟩, fun r hsrc hticks => ?registered⟩,
    fun d c p o x hp ho hx => prescaledNext_least hp ho hx, fun d c n => ⟨countPast_zero d c, countAfter_succ _ _ n⟩,
    fun s c n hen => devNext_same (f := chrTickDev c n) (chrTickDev_of_stopped c n hen),
    fun s v c n a i hon href hturn hi => chrWrite_waits hon href hturn hi, fun s v hruns hturn hlen => ⟨?start, ?stop⟩,
    fun s c v hruns hturn hc hlen => ?clear, fun s c v hruns hturn hc => ?reload, fun s c n hruns hc hn hdue hcap => ?capture,
    fun s c v hruns hturn hc hcap hlen => ?software, fun s c n hruns hc hn => ?read⟩
  case prescaled =>
    subst hx
    rw [yields_devNext (f := chrTickDev c 1) _ rfl, chrTickDev_prescaled hruns hc hen hsrc, if_pos hnear]
    set u := (edgeTo (prescaledNext s.dev c) s.dev).modChr c (fun h => { h with from_ := prescaledNext s.dev c + 1 }) with hu
    have huchr : u.chr c = { s.dev.chr c with from_ := prescaledNext s.dev c + 1 } := Dev.chr_modChr_same (d := edgeTo _ s.dev) _ hlen
    have hulen : c < u.cnt.chr.length := hlen.trans_eq (upd_length ..).symm
    have ht := tickBy_one (d := u) c (Dev.chrRuns_on hruns).1
    refine ⟨ht.counts rfl rfl hulen (by rw [huchr]) fun k hk => Dev.chr_modChr_ne (edgeTo _ s.dev) _ hk, ?_, ht.edge, ?_, ?_⟩
    all_goals rw [ht.chr_same hulen, huchr]
  case far =>
    subst hx
    refine devNext_same (f := chrTickDev c 1) ?_
    rw [chrTickDev_prescaled hruns hc hen hsrc, if_neg (by rw [hfar]; decide)]
  case registered =>
    rw [yields_devNext (f := chrTickDev c 1) _ rfl, chrTickDev_registered hruns hc hen hsrc hticks]
    set f : Chrono → Chrono := fun x => { x with ticks := r, capDue := x.capDue.map (fun l => l.map (· - 1)) } with hf
    have huchr : (s.dev.modChr c f).chr c = f (s.dev.chr c) := Dev.chr_modChr_same f hlen
    have hulen : c < (s.dev.modChr c f).cnt.chr.length := hlen.trans_eq (upd_length ..).symm
    have ht := tickBy_one (d := s.dev.modChr c f) c (Dev.chrRuns_on hruns).1
    refine ⟨ht.counts rfl rfl hulen (by rw [huchr]) fun k hk => Dev.chr_modChr_ne s.dev f hk, ?_, ht.edge⟩
    rw [ht.chr_same hulen, huchr]
  case start =>
    rw [yields_atEdge (f := chrStartNow v) _ rfl hruns hturn]
    intro c hc
    obtain ⟨u, hu, hround⟩ := chrStartNow_round (v := v) (Dev.chrRuns_on hruns).1 hc
    obtain ⟨hchr, hctl, hstat, hedge, hulen⟩ := chrView_eq hu
    obtain ⟨hchr', hctl', hstat', -⟩ := chrView_eq hround
    refine ⟨fun hv => ?_, fun hv => ?_⟩
    · have hnamed := startOne_of_named (d := u) (by omega) hv
      rwa [Dev.flag, Dev.flag, ← hctl', ← hstat', ← hchr', Dev.flag, hctl, hchr, hedge] at hnamed
    · rw [hctl', hchr', startOne, if_neg (by rw [hv]; decide)]
      exact ⟨hctl, hchr⟩
  case stop =>
    rw [yields_atEdge (f := chrStopNow v) _ rfl hruns hturn]
    intro c hc
    obtain ⟨u, hu, hround⟩ := chrStopNow_round (v := v) (Dev.chrRuns_on hruns).1 hc
    obtain ⟨hchr, hctl, -⟩ := chrView_eq hu
    obtain ⟨hchr', hctl', hstat', -⟩ := chrView_eq hround
    refine ⟨fun hv => ?_, fun hv => ?_⟩
    · rw [Dev.flag, Dev.flag, hctl', hstat', hchr', stopOne, if_pos hv, ← hchr]
      exact ⟨(chrEn_flags c false u).1, (chrEn_flags c false u).2, chrEn_off_count c u⟩
    · rw [hctl', hchr', stopOne, if_neg (by rw [hv]; decide)]
      exact ⟨hctl, hchr⟩
  case clear =>
    rw [yields_atEdge (f := chrClearNow c v) _ rfl hruns hturn]
    exact chrClearNow_meets v (Dev.chrRuns_on hruns).1 hc hlen
  case reload =>
    rw [yields_atEdge (f := reloadWriteNow c v) _ rfl hruns hturn]
    exact reloadWriteNow_meets v (Dev.chrRuns_on hruns).1 hc
  case capture =>
    rw [yields_devNext (f := chrCaptureDev c n) _ rfl]
    exact chrCaptureDev_meets hruns hc hn hdue hcap
  case software =>
    rw [yields_atEdge (f := captureSwNow c v) _ rfl hruns hturn]
    exact captureSwNow_meets v (Dev.chrRuns_on hruns).1 hc hcap hlen
  case read =>
    rw [yields_devNext (f := chrCapReadDev c n) _ rfl]
    have heq : chrCapReadDev c n s.dev = s.dev.putFlag (Reg.CHR_STAT c) (4 + n) false := by
      unfold chrCapReadDev
      rw [(Dev.chrRuns_on hruns).1, decide_eq_true hc, decide_eq_true hn]
      exact (if_pos rfl).trans (atEdge_runs _ _ _ hruns)
    rw [heq]
    exact ⟨Dev.flag_putFlag_same _ _ _ _ (by omega), RegsOnly.putFlag s.dev _ _ (by simp),
      fun b _ hne => Dev.flag_putFlag_other _ _ _ _ _ _ (by omega) (.inr hne), rfl⟩

end Sys2Proof.Machine
end

section
/-! PROOF. CHR_IN and CHR_OUT pins (R455, R458 to R460). -/

namespace Sys2Proof.Machine

open Sys2Proof

/-! ### Tables -/

theorem at_map_range {α : Type} {n i : Nat} (f : Nat → α) (x : α) (h : i < n) : at_ ((List.range n).map f) i x = f i := by
  unfold at_
  simp [List.getD_eq_getElem?_getD, h]

theorem at_set_same {α : Type} {l : List α} {i : Nat} (a x : α) (h : i < l.length) : at_ (l.set i a) i x = a := by
  unfold at_
  simp [List.getD_eq_getElem?_getD, h]

theorem at_set_ne {α : Type} (l : List α) {i j : Nat} (a x : α) (h : j ≠ i) : at_ (l.set i a) j x = at_ l j x := by
  unfold at_
  rw [List.getD_eq_getElem?_getD, List.getD_eq_getElem?_getD, List.getElem?_set_ne h.symm]

/-! ### What is registered for a chronograph (R450, R455) -/

theorem registerTicks_chr {pick : Nat → Bool} {n c : Nat} {d : Dev} (hc : c < 16) : (registerTicks pick n d).chr c =
    { d.chr c with ticks := (d.chr c).ticks ++ if d.flag (Reg.CHR_CTL c) 0 = true ∧ pick c = true then [n] else [] } := by
  have hat : (registerTicks pick n d).chr c =
      if d.flag (Reg.CHR_CTL c) 0 = true ∧ pick c = true then { d.chr c with ticks := (d.chr c).ticks ++ [n] } else d.chr c := at_map_range _ _ hc
  rw [hat]
  split
  · rfl
  · rw [List.append_nil]

theorem registerTicks_at {pick : Nat → Bool} {n c : Nat} {d : Dev} (hc : c < 16) :
    ((registerTicks pick n d).chr c).count = (d.chr c).count ∧ ((registerTicks pick n d).chr c).capDue = (d.chr c).capDue ∧
    ((registerTicks pick n d).chr c).ticks = (d.chr c).ticks ++ if d.flag (Reg.CHR_CTL c) 0 = true ∧ pick c = true then [n] else [] := by
  rw [registerTicks_chr hc]
  exact ⟨rfl, rfl, rfl⟩

theorem registerCaptures_chr {pick : Nat → Nat → Bool} {c : Nat} {d : Dev} (hc : c < 16) : (registerCaptures pick d).chr c =
    { d.chr c with capDue := (List.range 2).map (fun n => at_ (d.chr c).capDue n [] ++ if pick c n then [(d.chr c).ticks.length] else []) } :=
  at_map_range _ _ hc

/-! ### One pin changed -/

theorem Dev.chrOut_modOut_same {d : Dev} {k : Nat} (f : ChrOut → ChrOut) (h : k < d.cnt.outs.length) : (d.modOut k f).chrOut k = f (d.chrOut k) :=
  (at_upd _ _ _ _ _ h).trans (if_pos rfl)

theorem Dev.chrOut_modOut_ne (d : Dev) {k j : Nat} (f : ChrOut → ChrOut) (h : j ≠ k) : (d.modOut k f).chrOut j = d.chrOut j := at_upd_ne _ _ _ h

/-- A pin that is not as at reset is one of the device's. -/
theorem Dev.chrOut_lt {d : Dev} {k : Nat} (h : d.chrOut k ≠ ChrOut.reset) : k < d.cnt.outs.length := by
  by_contra hn
  exact h (List.getD_eq_default _ _ (Nat.le_of_not_lt hn))

/-- What a pin's drive makes of it. -/
def drivenTo (x : Nat) (woken lv : Bool) (o : ChrOut) : ChrOut :=
  if lv = o.last then { o with woken := woken } else { o with woken := woken, last := lv, way := wayPut x lv o.way }

theorem outDrive_eq (k : Nat) (d : Dev) : outDrive k d = d.modOut k (drivenTo (d.cnt.edge + 2 + 64 * d.fld (Reg.CHR_OUTCTL k) 15 12)
    ((d.chrOut k).woken || outMode d k != 0) (outGives d k ((d.chrOut k).woken || outMode d k != 0))) := rfl

theorem drivenTo_keeps (x : Nat) (woken lv : Bool) (o : ChrOut) : (drivenTo x woken lv o).mode = o.mode ∧ (drivenTo x woken lv o).pulse = o.pulse ∧
    (drivenTo x woken lv o).last = lv := by
  unfold drivenTo
  split
  next h => exact ⟨rfl, rfl, h.symm⟩
  next h => exact ⟨rfl, rfl, rfl⟩

theorem drivenTo_same {x : Nat} {woken lv : Bool} {o : ChrOut} (h : lv = o.last) : (drivenTo x woken lv o).way = o.way := by rw [drivenTo, if_pos h]

theorem drivenTo_changed {x : Nat} {woken lv : Bool} {o : ChrOut} (h : lv ≠ o.last) : (x, lv) ∈ (drivenTo x woken lv o).way := by
  rw [drivenTo, if_neg h]
  simp [wayPut]

/-! ### Inputs (R458) -/

/-- The device with an accepted edge at CHR_INk: the level and its event. -/
def levelTaken (k : Nat) (level : Bool) (d : Dev) : Dev :=
  { d with cnt := { d.cnt with ins := d.cnt.ins.set k level, bus := d.busWith ((if level then 96 else 100) + k) 1 } }

/-- Does chronograph c tick at this edge of CHR_INk? -/
def ticksAt (d : Dev) (k : Nat) (level : Bool) (c : Nat) : Bool :=
  d.fld (Reg.CHR_CTL c) 3 1 == 5 && d.fld (Reg.CHR_CTL c) 12 11 == k && edgeTakes (d.fld (Reg.CHR_CTL c) 14 13) level

/-- Does channel n of chronograph c capture at this edge of CHR_INk? -/
def capturesAt (d : Dev) (k : Nat) (level : Bool) (c n : Nat) : Bool :=
  d.fld (Reg.CHR_CAPCTL c) (16 * n + 14) (16 * n + 13) == 1 && d.fld (Reg.CHR_CAPCTL c) (16 * n + 12) (16 * n + 11) == k &&
    edgeTakes (d.fld (Reg.CHR_CAPCTL c) (16 * n + 10) (16 * n + 9)) level

/-- What an accepted edge registers. -/
theorem chrInEdgeDev_accepts {d : Dev} {k : Nat} {level : Bool} (hruns : d.chrRuns = true) (hsees : d.sees Dom.ctrl = true) (hk : k < 4)
    (hlevel : at_ d.cnt.ins k false = !level) : chrInEdgeDev k level d =
      registerCaptures (capturesAt d k level) (registerTicks (ticksAt d k level) 1 (levelTaken k level d)) := by
  unfold chrInEdgeDev
  rw [hruns, hsees, decide_eq_true hk, hlevel, if_neg (by cases level <;> decide)]
  rfl

theorem chrInEdgeDev_meets {s : State} {k : Nat} {level : Bool} (hruns : s.dev.chrRuns = true) (hsees : s.dev.sees Dom.ctrl = true) (hk : k < 4)
    (hlen : s.dev.cnt.ins.length = 4) (hlevel : at_ s.dev.cnt.ins k false = !level) :
    let d := chrInEdgeDev k level s.dev
    at_ d.cnt.ins k false = level ∧ (∀ j, j ≠ k → at_ d.cnt.ins j false = at_ s.dev.cnt.ins j false) ∧
      d.cnt.bus = s.dev.busWith ((if level then 96 else 100) + k) 1 ∧
      (∀ c, c < 16 → (d.chr c).count = (s.dev.chr c).count ∧
        (d.chr c).ticks = (s.dev.chr c).ticks ++
          (if s.dev.flag (Reg.CHR_CTL c) 0 = true ∧ s.dev.fld (Reg.CHR_CTL c) 3 1 = 5 ∧ s.dev.fld (Reg.CHR_CTL c) 12 11 = k ∧
            edgeTakes (s.dev.fld (Reg.CHR_CTL c) 14 13) level = true then [1] else []) ∧
        (∀ n, n < 2 → at_ (d.chr c).capDue n [] = at_ (s.dev.chr c).capDue n [] ++
          (if s.dev.fld (Reg.CHR_CAPCTL c) (16 * n + 14) (16 * n + 13) = 1 ∧ s.dev.fld (Reg.CHR_CAPCTL c) (16 * n + 12) (16 * n + 11) = k ∧
            edgeTakes (s.dev.fld (Reg.CHR_CAPCTL c) (16 * n + 10) (16 * n + 9)) level = true then [(d.chr c).ticks.length] else []))) ∧
      d = { s.dev with cnt := d.cnt } := by
  dsimp only
  rw [chrInEdgeDev_accepts hruns hsees hk hlevel]
  refine ⟨at_set_same _ _ (by omega), fun j hj => at_set_ne _ _ _ hj, rfl, fun c hc => ?_, rfl⟩
  obtain ⟨hcount, hdue, hticks⟩ := registerTicks_at (pick := ticksAt s.dev k level) (n := 1) (d := levelTaken k level s.dev) hc
  rw [registerCaptures_chr hc]
  dsimp only
  refine ⟨hcount, ?_, fun n hn => ?_⟩
  · rw [hticks]
    simp only [ticksAt, Bool.and_eq_true, beq_iff_eq, and_assoc]
    rfl
  · rw [at_map_range _ _ hn, hdue]
    simp only [capturesAt, Bool.and_eq_true, beq_iff_eq, and_assoc]
    rfl

theorem chrInEdgeDev_same {d : Dev} {k : Nat} {level : Bool} (h : at_ d.cnt.ins k false = level) : chrInEdgeDev k level d = d := by
  unfold chrInEdgeDev
  rw [h, beq_self_eq_true, if_pos (Bool.or_true _)]

/-! ### Outputs (R459, R460) -/

theorem chrOutChangeDev_way {d : Dev} {k x : Nat} {l : Bool} {r : List (Nat × Bool)} (hruns : d.chrRuns = true) (h : (d.chrOut k).way = (x, l) :: r) :
    chrOutChangeDev k d = if edgeNear d x then edgeTo x (d.modOut k (fun o => { o with way := r, pin := l })) else d := by
  unfold chrOutChangeDev
  rw [h, hruns]
  rfl

theorem pulseEndDev_pulse {d : Dev} {k x : Nat} (hruns : d.chrRuns = true) (h : (d.chrOut k).pulse = some x) :
    pulseEndDev k d = if edgeNear d x then outDrive k (edgeTo x (d.modOut k (fun o => { o with pulse := none, mode := false }))) else d := by
  unfold pulseEndDev
  rw [h, hruns]
  rfl

theorem pulseEndDev_none {d : Dev} {k : Nat} (h : (d.chrOut k).pulse = none) : pulseEndDev k d = d := by
  unfold pulseEndDev
  rw [h]

/-- A match in PULSE mode. -/
theorem outEvents_pulse {d : Dev} {c k : Nat} (b w : Bool) (hchr : d.fld (Reg.CHR_OUTCTL k) 11 8 = c) (hmode : d.fld (Reg.CHR_OUTCTL k) 2 0 = 4)
    (hlen : k < d.cnt.outs.length) : (outEvents c ⟨true, b, w⟩ k d).chrOut k =
      drivenTo (d.cnt.edge + 2 + 64 * d.fld (Reg.CHR_OUTCTL k) 15 12) true (!d.flag (Reg.CHR_OUTCTL k) 7)
        { d.chrOut k with mode := true, pulse := some (d.cnt.edge + countOf (d.fld (Reg.CHR_OUTCTL k) 31 16) 65536) } := by
  have hout : outMode d k = 4 := by
    unfold outMode
    rw [hmode]
    rfl
  set u := d.modOut k (fun o => { o with mode := true, pulse := some (d.cnt.edge + countOf (d.fld (Reg.CHR_OUTCTL k) 31 16) 65536) }) with hu
  have heq : outEvents c ⟨true, b, w⟩ k d = outDrive k u := by
    unfold outEvents
    rw [if_neg (not_not_intro hchr)]
    dsimp only
    rw [hout]
    rfl
  have huout : u.chrOut k = { d.chrOut k with mode := true, pulse := some (d.cnt.edge + countOf (d.fld (Reg.CHR_OUTCTL k) 31 16) 65536) } :=
    Dev.chrOut_modOut_same _ hlen
  have humode : outMode u k = 4 := hout
  have hwoken : ((u.chrOut k).woken || outMode u k != 0) = true := by rw [humode, Bool.or_eq_true]; exact .inr rfl
  have hgives : outGives u k true = !d.flag (Reg.CHR_OUTCTL k) 7 := by
    unfold outGives outLevel
    rw [humode, huout]
    exact Bool.true_xor _
  rw [heq, outDrive_eq, Dev.chrOut_modOut_same _ (hlen.trans_eq (upd_length ..).symm), hwoken, hgives, huout]
  rfl

end Sys2Proof.Machine
end

section
/-! PROOF. The event bus and the event counters, and the statement on pins and counters (R448, R455 to R465). -/

namespace Sys2Proof.Machine

open Sys2Proof

/-! ### What the bus holds of a source (R448) -/

/-- The occurrences of source c at edge e. -/
def busTotal (b : List (Nat × Nat × Nat)) (e c : Nat) : Nat := ((b.filter (fun o => o.1 == e && o.2.1 == c)).map (fun o => o.2.2)).sum

theorem busTotal_cons (o : Nat × Nat × Nat) (b : List (Nat × Nat × Nat)) (e c : Nat) :
    busTotal (o :: b) e c = (if o.1 = e ∧ o.2.1 = c then o.2.2 else 0) + busTotal b e c := by
  unfold busTotal
  by_cases h : o.1 = e ∧ o.2.1 = c <;> simp [h]

theorem busTotal_append (a b : List (Nat × Nat × Nat)) (e c : Nat) : busTotal (a ++ b) e c = busTotal a e c + busTotal b e c := by
  unfold busTotal
  rw [List.filter_append, List.map_append, List.sum_append]

theorem busTotal_unnamed {b : List (Nat × Nat × Nat)} {e c : Nat} (h : b.any (fun o => o.1 == e && o.2.1 == c) = false) : busTotal b e c = 0 := by
  unfold busTotal
  rw [List.filter_eq_nil_iff.2 fun o ho => by simpa using List.any_eq_false.1 h o ho]
  rfl

/-- The sources named at an edge, each with its occurrences. -/
theorem busGroup_eq (e : Nat) (b : List (Nat × Nat × Nat)) : busGroup e b =
    ((List.range 128).filter (fun c => b.any (fun o => o.1 == e && o.2.1 == c))).map (fun c => (c, busTotal b e c)) := by
  unfold busGroup busTotal
  simp only [List.any_filter, List.filter_filter, Bool.and_comm]

theorem sum_map_single {l : List Nat} (hl : l.Nodup) (f : Nat → Nat) (k : Nat) :
    (l.map (fun c => if c = k then f c else 0)).sum = if k ∈ l then f k else 0 := by
  induction l with
  | nil => rfl
  | cons a l ih =>
    obtain ⟨ha, hl⟩ := List.nodup_cons.1 hl
    rw [List.map_cons, List.sum_cons, ih hl]
    by_cases hk : a = k
    · subst hk
      simp [ha]
    · simp [hk, Ne.symm hk]

/-- What a delivery makes of one source's occurrences, summed over the sources. -/
theorem busGroup_sum {h : Nat → Nat} (h0 : h 0 = 0) (e : Nat) (b : List (Nat × Nat × Nat)) {c : Nat} (hc : c < 128) :
    ((busGroup e b).map (fun o => if o.1 = c then h o.2 else 0)).sum = h (busTotal b e c) := by
  have hsum := sum_map_single ((List.nodup_range (n := 128)).filter (fun c => b.any (fun o => o.1 == e && o.2.1 == c))) (fun c => h (busTotal b e c)) c
  rw [busGroup_eq, List.map_map]
  refine hsum.trans ?_
  by_cases hany : b.any (fun o => o.1 == e && o.2.1 == c) = true
  · exact if_pos (List.mem_filter.2 ⟨List.mem_range.2 hc, hany⟩)
  · rw [busTotal_unnamed (Bool.eq_false_iff.2 hany), h0, ite_self]

/-- The occurrences beyond 255, at the next edge. -/
theorem busTotal_carried (g : List (Nat × Nat)) (e x c : Nat) :
    busTotal ((g.filter (fun o => decide (255 < o.2))).map (fun o => (e + 1, o.1, o.2 - 255))) x c =
      if x = e + 1 then (g.map (fun o => if o.1 = c then o.2 - 255 else 0)).sum else 0 := by
  induction g with
  | nil => simp [busTotal]
  | cons o g ih =>
    by_cases hover : 255 < o.2
    · rw [List.filter_cons_of_pos (by simpa using hover), List.map_cons, busTotal_cons, ih]
      by_cases hx : x = e + 1
      · simp [hx]
      · simp [hx, Ne.symm hx]
    · rw [List.filter_cons_of_neg (by simpa using hover), ih]
      simp [show o.2 - 255 = 0 by omega]

theorem busTotal_others (b : List (Nat × Nat × Nat)) (e x c : Nat) :
    busTotal (b.filter (fun o => o.1 != e)) x c = if x = e then 0 else busTotal b x c := by
  induction b with
  | nil => simp [busTotal]
  | cons o b ih =>
    by_cases ho : o.1 = e
    · rw [List.filter_cons_of_neg (by simpa using ho), ih, busTotal_cons]
      by_cases hx : x = e
      · simp [hx]
      · simp [hx, show o.1 ≠ x by omega]
    · rw [List.filter_cons_of_pos (by simpa using ho), busTotal_cons, ih, busTotal_cons]
      by_cases hx : x = e
      · simp [hx, ho]
      · simp [hx]

theorem busTotal_busRest (b : List (Nat × Nat × Nat)) (e x : Nat) {c : Nat} (hc : c < 128) : busTotal (busRest e b) x c =
    (if x = e + 1 then busTotal b e c - 255 else 0) + if x = e then 0 else busTotal b x c := by
  unfold busRest
  rw [busTotal_append, busTotal_carried, busTotal_others, busGroup_sum (h := (· - 255)) rfl e b hc]

theorem busGroup_codes (e : Nat) (b : List (Nat × Nat × Nat)) {c : Nat} (hc : c < 128) :
    ((busGroup e b).map Prod.fst).contains c = b.any (fun o => o.1 == e && o.2.1 == c) := by
  rw [busGroup_eq, List.map_map, Bool.eq_iff_iff, List.contains_iff_mem]
  simp only [List.mem_map, Function.comp, exists_eq_right, List.mem_filter, List.mem_range]
  exact ⟨And.right, fun h => ⟨hc, h⟩⟩

/-! ### What a delivery leaves as it is -/

/-- A delivery at edge x: of the device only counters, their held values, their OVF bits and what chronographs have registered. -/
structure Delivered (x : Nat) (d e : Dev) : Prop where
  rest : e = { d with regs := e.regs, cnt := e.cnt }
  run : e.cnt.run = d.cnt.run
  edge : e.cnt.edge = d.cnt.edge
  bus : e.cnt.bus = d.cnt.bus
  frozeAt : e.cnt.frozeAt = d.cnt.frozeAt
  regs : RegsOnly [Reg.EVC_OVF] d e
  chr : ∀ c, c < 16 → (e.chr c).count = (d.chr c).count
  held : d.cnt.frozeAt < x → e.cnt.evcHeld = d.cnt.evcHeld

theorem Delivered.refl (x : Nat) (d : Dev) : Delivered x d d := ⟨rfl, rfl, rfl, rfl, rfl, .refl _ d, fun _ _ => rfl, fun _ => rfl⟩

theorem Delivered.trans {x : Nat} {d e u : Dev} (h : Delivered x d e) (k : Delivered x e u) : Delivered x d u where
  rest := k.rest.trans (by rw [h.rest])
  run := k.run.trans h.run
  edge := k.edge.trans h.edge
  bus := k.bus.trans h.bus
  frozeAt := k.frozeAt.trans h.frozeAt
  regs := h.regs.trans k.regs
  chr c hc := (k.chr c hc).trans (h.chr c hc)
  held hx := (k.held (h.frozeAt ▸ hx)).trans (h.held hx)

theorem Delivered.forUpTo {x : Nat} {f : Nat → Dev → Dev} (h : ∀ k d, Delivered x d (f k d)) (n : Nat) (d : Dev) :
    Delivered x d (Machine.forUpTo n f d) := by
  induction n with
  | zero => exact .refl x d
  | succ n ih =>
    rw [forUpTo_succ]
    exact ih.trans (h n _)

theorem Delivered.forEach {β : Type} {x : Nat} {f : β → Dev → Dev} (h : ∀ o d, Delivered x d (f o d)) (g : List β) (d : Dev) :
    Delivered x d (Machine.forEach g f d) := by
  induction g generalizing d with
  | nil => exact .refl x d
  | cons o g ih => exact (h o d).trans (ih _)

theorem evcAdd_delivered (x n inc : Nat) (d : Dev) : Delivered x d (evcAdd x n inc d) := by
  have hheld (hx : d.cnt.frozeAt < x) : (d.flag Reg.EVC_GLB 3 && decide (x ≤ d.cnt.frozeAt)) = false := by
    rw [decide_eq_false (by omega), Bool.and_false]
  unfold evcAdd
  dsimp only
  split
  · exact ⟨rfl, rfl, rfl, rfl, rfl, .of_regs rfl, fun _ _ => rfl, fun hx => if_neg (by rw [hheld hx]; decide)⟩
  · exact ⟨rfl, rfl, rfl, rfl, rfl, .putFlag { d with cnt := _ } n true (by simp), fun _ _ => rfl, fun hx => if_neg (by rw [hheld hx]; decide)⟩

theorem evcCount_delivered (x code inc : Nat) (d : Dev) : Delivered x d (evcCount x code inc d) := by
  unfold evcCount
  split
  · refine .forUpTo (fun n d => ?_) 32 d
    split
    · exact evcAdd_delivered x n inc d
    · exact .refl x d
  · exact .refl x d

theorem registerTicks_delivered (x : Nat) (pick : Nat → Bool) (n : Nat) (d : Dev) : Delivered x d (registerTicks pick n d) :=
  ⟨rfl, rfl, rfl, rfl, rfl, .of_regs rfl, fun _ hc => (registerTicks_at hc).1, fun _ => rfl⟩

theorem registerCaptures_delivered (x : Nat) (pick : Nat → Nat → Bool) (d : Dev) : Delivered x d (registerCaptures pick d) :=
  ⟨rfl, rfl, rfl, rfl, rfl, .of_regs rfl, fun _ hc => by rw [registerCaptures_chr hc], fun _ => rfl⟩

theorem deliverOne_delivered (x : Nat) (o : Nat × Nat) (d : Dev) : Delivered x d (deliverOne x o d) :=
  (evcCount_delivered x _ _ d).trans (registerTicks_delivered x _ _ _)

/-! ### One counter (R462, R465) -/

/-- What a counter's increment goes by, and what it can change. -/
structure CounterView where
  count : Nat
  held : Nat
  wrapped : Bool
  cfg : Word
  glb : Word
  frozeAt : Nat
  listed : Nat × Nat

/-- The view of counter n. -/
def counterView (n : Nat) (d : Dev) : CounterView where
  count := at_ d.cnt.evc n 0
  held := at_ d.cnt.evcHeld n 0
  wrapped := d.flag Reg.EVC_OVF n
  cfg := d.reg (Reg.EVC_CFG n)
  glb := d.reg Reg.EVC_GLB
  frozeAt := d.cnt.frozeAt
  listed := (d.cnt.evc.length, d.cnt.evcHeld.length)

/-- A counter raised by an increment at edge x, modulo 2^48, its held value too where FREEZE has not yet taken it. -/
structure Raised (x inc : Nat) (v w : CounterView) : Prop where
  count : v.count < 2 ^ 48 → w.count = (v.count + inc) % 2 ^ 48
  held : v.glb.getLsbD 3 = true → x ≤ v.frozeAt → v.held < 2 ^ 48 → w.held = (v.held + inc) % 2 ^ 48
  stays : v.wrapped = true → w.wrapped = true
  wrapped : v.count < 2 ^ 48 → 2 ^ 48 ≤ v.count + inc → w.wrapped = true
  same : w.cfg = v.cfg ∧ w.glb = v.glb ∧ w.frozeAt = v.frozeAt ∧ w.listed = v.listed

theorem Raised.zero (x : Nat) (v : CounterView) : Raised x 0 v v :=
  ⟨fun h => (Nat.mod_eq_of_lt h).symm, fun _ _ h => (Nat.mod_eq_of_lt h).symm, id, fun h k => absurd h (by omega), rfl, rfl, rfl, rfl⟩

theorem Raised.trans {x i j : Nat} {u v w : CounterView} (h : Raised x i u v) (k : Raised x j v w) : Raised x (i + j) u w where
  count hu := by
    rw [k.count (by rw [h.count hu]; omega), h.count hu]
    omega
  held hf hx hu := by
    obtain ⟨-, hglb, hfroze, -⟩ := h.same
    rw [k.held (hglb ▸ hf) (hfroze ▸ hx) (by rw [h.held hf hx hu]; omega), h.held hf hx hu]
    omega
  stays hu := k.stays (h.stays hu)
  wrapped hu hij := by
    have hv := h.count hu
    by_cases hi : 2 ^ 48 ≤ u.count + i
    · exact k.stays (h.wrapped hu hi)
    · exact k.wrapped (by omega) (by omega)
  same := by
    obtain ⟨h1, h2, h3, h4⟩ := h.same
    obtain ⟨k1, k2, k3, k4⟩ := k.same
    exact ⟨k1.trans h1, k2.trans h2, k3.trans h3, k4.trans h4⟩

/-- evcAdd's change of the counters, before the OVF bit. -/
def evcRaised (x n inc : Nat) (d : Dev) : Dev :=
  { d with cnt := { d.cnt with
    evc := d.cnt.evc.set n ((at_ d.cnt.evc n 0 + inc) % 2 ^ 48)
    evcHeld := if d.flag Reg.EVC_GLB 3 && decide (x ≤ d.cnt.frozeAt) then d.cnt.evcHeld.set n ((at_ d.cnt.evcHeld n 0 + inc) % 2 ^ 48)
      else d.cnt.evcHeld } }

theorem evcAdd_eq (x n inc : Nat) (d : Dev) : evcAdd x n inc d =
    if at_ d.cnt.evc n 0 + inc < 2 ^ 48 then evcRaised x n inc d else (evcRaised x n inc d).putFlag Reg.EVC_OVF n true := rfl

theorem evcAdd_cnt (x n inc : Nat) (d : Dev) : (evcAdd x n inc d).cnt = (evcRaised x n inc d).cnt := by
  rw [evcAdd_eq]
  split <;> rfl

theorem evcAdd_reg (x n inc : Nat) (d : Dev) {a : Nat} (ha : a ≠ Reg.EVC_OVF) : (evcAdd x n inc d).reg a = d.reg a :=
  (evcAdd_delivered x n inc d).regs a (by simpa using ha)

theorem evcAdd_view_ne (x inc : Nat) {j n : Nat} (d : Dev) (hj : j < 32) (h : j ≠ n) : counterView n (evcAdd x j inc d) = counterView n d := by
  have hover : (evcAdd x j inc d).flag Reg.EVC_OVF n = d.flag Reg.EVC_OVF n := by
    rw [evcAdd_eq]
    split
    · rfl
    · exact Dev.flag_putFlag_other _ _ _ _ _ _ hj (.inr h.symm)
  unfold counterView
  rw [hover, evcAdd_reg _ _ _ _ (by simp only [Reg.EVC_CFG, Reg.EVC_OVF]; omega), evcAdd_reg _ _ _ _ (by decide), evcAdd_cnt]
  unfold evcRaised
  dsimp only
  rw [at_set_ne _ _ _ h.symm, List.length_set]
  split
  · rw [at_set_ne _ _ _ h.symm, List.length_set]
  · rfl

theorem evcAdd_raised (x inc : Nat) {n : Nat} {d : Dev} (hn : n < 32) (hevc : d.cnt.evc.length = 32) (hheld : d.cnt.evcHeld.length = 32) :
    Raised x inc (counterView n d) (counterView n (evcAdd x n inc d)) := by
  have hstays (h : d.flag Reg.EVC_OVF n = true) : (evcAdd x n inc d).flag Reg.EVC_OVF n = true := by
    rw [evcAdd_eq]
    split
    · exact h
    · exact Dev.flag_putFlag_same _ _ _ _ hn
  refine ⟨fun _ => ?_, fun hf hx _ => ?_, hstays, fun _ hover => ?_, ?_, ?_, ?_, ?_⟩
  · show at_ (evcAdd x n inc d).cnt.evc n 0 = _
    rw [evcAdd_cnt]
    exact at_set_same _ _ (by omega)
  · show at_ (evcAdd x n inc d).cnt.evcHeld n 0 = _
    have hfreeze : (d.flag Reg.EVC_GLB 3 && decide (x ≤ d.cnt.frozeAt)) = true := Bool.and_eq_true_iff.2 ⟨hf, decide_eq_true hx⟩
    rw [evcAdd_cnt, evcRaised, hfreeze]
    exact at_set_same _ _ (by omega)
  · show (evcAdd x n inc d).flag Reg.EVC_OVF n = true
    have hwrap : ¬at_ d.cnt.evc n 0 + inc < 2 ^ 48 := Nat.not_lt.2 hover
    rw [evcAdd_eq, if_neg hwrap]
    exact Dev.flag_putFlag_same _ _ _ _ hn
  · exact evcAdd_reg _ _ _ _ (by simp only [Reg.EVC_CFG, Reg.EVC_OVF]; omega)
  · exact evcAdd_reg _ _ _ _ (by decide)
  · exact (evcAdd_delivered x n inc d).frozeAt
  · show ((evcAdd x n inc d).cnt.evc.length, (evcAdd x n inc d).cnt.evcHeld.length) = (d.cnt.evc.length, d.cnt.evcHeld.length)
    rw [evcAdd_cnt]
    unfold evcRaised
    dsimp only
    rw [List.length_set]
    split
    · rw [List.length_set]
    · rfl

/-- A loop in which each round below n but one leaves a view as it is. -/
theorem forUpTo_roundBelow {α β : Type} (view : α → β) {f : Nat → α → α} {n k : Nat} (hk : k < n)
    (h : ∀ j x, j < n → j ≠ k → view (f j x) = view x) (x : α) : ∃ y, view y = view x ∧ view (forUpTo n f x) = view (f k y) := by
  have hloop (m : Nat) (hm : m ≤ n) : forUpTo m f x = forUpTo m (fun j y => if j < n then f j y else y) x := by
    induction m with
    | zero => rfl
    | succ m ih => rw [forUpTo_succ, forUpTo_succ, ih (by omega), if_pos (by omega)]
  have hother (j : Nat) (x : α) (hj : j ≠ k) : view (if j < n then f j x else x) = view x := by
    split
    next hlt => exact h j x hlt hj
    next => rfl
  obtain ⟨y, hy, hround⟩ := forUpTo_round view (f := fun j y => if j < n then f j y else y) hk hother x
  exact ⟨y, hy, by rw [hloop n le_rfl, hround, if_pos hk]⟩

/-- An increment at one counter, where its register selects it. -/
def evcOne (x code inc n : Nat) (d : Dev) : Dev :=
  if d.flag (Reg.EVC_CFG n) 7 ∧ d.fld (Reg.EVC_CFG n) 6 0 = code then evcAdd x n inc d else d

theorem evcOne_view_ne (x code inc : Nat) {j n : Nat} (d : Dev) (hj : j < 32) (h : j ≠ n) :
    counterView n (evcOne x code inc j d) = counterView n d := by
  unfold evcOne
  split
  · exact evcAdd_view_ne x inc d hj h
  · rfl

theorem evcCount_round (x code inc : Nat) {n : Nat} (hn : n < 32) {d : Dev} (hrun : d.cnt.run = true) :
    ∃ u, counterView n u = counterView n d ∧ counterView n (evcCount x code inc d) = counterView n (evcOne x code inc n u) := by
  rw [evcCount, if_pos hrun]
  exact forUpTo_roundBelow (counterView n) (f := evcOne x code inc) hn (fun j d hj hne => evcOne_view_ne x code inc d hj hne) d

theorem evcCount_off (x code inc : Nat) {n : Nat} (hn : n < 32) {d : Dev} (h : d.cnt.run = false ∨ d.flag (Reg.EVC_CFG n) 7 = false) :
    counterView n (evcCount x code inc d) = counterView n d := by
  cases hrun : d.cnt.run with
  | false => rw [evcCount, if_neg (by rw [hrun]; decide)]
  | true =>
    have hen := h.resolve_left (by rw [hrun]; decide)
    obtain ⟨u, hu, hround⟩ := evcCount_round x code inc hn hrun
    have hcfg : u.reg (Reg.EVC_CFG n) = d.reg (Reg.EVC_CFG n) := congrArg CounterView.cfg hu
    rw [hround, evcOne, if_neg (fun hon => by rw [Dev.flag, hcfg] at hon; exact Bool.false_ne_true (hen.symm.trans hon.1)), hu]

theorem evcCount_raised (x code inc : Nat) {n : Nat} {d : Dev} (hn : n < 32) (hevc : d.cnt.evc.length = 32) (hheld : d.cnt.evcHeld.length = 32)
    (hrun : d.cnt.run = true) (hen : d.flag (Reg.EVC_CFG n) 7 = true) :
    Raised x (if code = d.fld (Reg.EVC_CFG n) 6 0 then inc else 0) (counterView n d) (counterView n (evcCount x code inc d)) := by
  obtain ⟨u, hu, hround⟩ := evcCount_round x code inc hn hrun
  have hcfg : u.reg (Reg.EVC_CFG n) = d.reg (Reg.EVC_CFG n) := congrArg CounterView.cfg hu
  have hlens : (u.cnt.evc.length, u.cnt.evcHeld.length) = (d.cnt.evc.length, d.cnt.evcHeld.length) := congrArg CounterView.listed hu
  obtain ⟨hevc', hheld'⟩ := Prod.mk.inj hlens
  have hsel : u.flag (Reg.EVC_CFG n) 7 = true ∧ u.fld (Reg.EVC_CFG n) 6 0 = d.fld (Reg.EVC_CFG n) 6 0 := by
    rw [Dev.flag, Dev.fld, hcfg]
    exact ⟨hen, rfl⟩
  rw [hround, ← hu, evcOne, hsel.2]
  by_cases hcode : code = d.fld (Reg.EVC_CFG n) 6 0
  · rw [if_pos hcode, if_pos ⟨hsel.1, hcode.symm⟩]
    exact evcAdd_raised x inc hn (hevc'.trans hevc) (hheld'.trans hheld)
  · rw [if_neg hcode, if_neg fun h => hcode h.2.symm]
    exact .zero x _

/-! ### A delivery at one counter -/

theorem deliver_off (x : Nat) (g : List (Nat × Nat)) {n : Nat} (hn : n < 32) {d : Dev} (h : d.cnt.run = false ∨ d.flag (Reg.EVC_CFG n) 7 = false) :
    counterView n (forEach g (deliverOne x) d) = counterView n d := by
  induction g generalizing d with
  | nil => rfl
  | cons o g ih =>
    have hone := deliverOne_delivered x o d
    refine (ih (d := deliverOne x o d) ?_).trans (evcCount_off x o.1 (min o.2 255) hn h)
    rw [hone.run, hone.regs.flag (by simp [Reg.EVC_CFG, Reg.EVC_OVF]; omega)]
    exact h

theorem deliver_raised (x : Nat) (g : List (Nat × Nat)) {n : Nat} {d : Dev} (hn : n < 32) (hevc : d.cnt.evc.length = 32)
    (hheld : d.cnt.evcHeld.length = 32) (hrun : d.cnt.run = true) (hen : d.flag (Reg.EVC_CFG n) 7 = true) :
    Raised x (g.map (fun o => if o.1 = d.fld (Reg.EVC_CFG n) 6 0 then min o.2 255 else 0)).sum (counterView n d)
      (counterView n (forEach g (deliverOne x) d)) := by
  induction g generalizing d with
  | nil => exact .zero x _
  | cons o g ih =>
    have hone := deliverOne_delivered x o d
    have hraised : Raised x _ (counterView n d) (counterView n (deliverOne x o d)) := evcCount_raised x o.1 (min o.2 255) hn hevc hheld hrun hen
    obtain ⟨hcfg, -, -, hlens⟩ := hraised.same
    obtain ⟨hevc', hheld'⟩ := Prod.mk.inj hlens
    have hfld : (deliverOne x o d).fld (Reg.EVC_CFG n) 6 0 = d.fld (Reg.EVC_CFG n) 6 0 := congrArg (fun w : Word => w.bits 6 0) hcfg
    have hrest := ih (d := deliverOne x o d) (hevc'.trans hevc) (hheld'.trans hheld) (hone.run.trans hrun)
      ((congrArg (fun w : Word => w.getLsbD 7) hcfg).trans hen)
    rw [hfld] at hrest
    rw [List.map_cons, List.sum_cons]
    exact hraised.trans hrest

end Sys2Proof.Machine
end

section
/-! PROOF. A write of EVC_GLB, a delivery of the event bus, and the statement on pins and counters (R448, R455 to R465). -/

namespace Sys2Proof.Machine

open Sys2Proof

/-! ### The gate (R463) -/

/-- Is source c named at edge e, where a code of 0 never acts? -/
def busHas (b : List (Nat × Nat × Nat)) (e c : Nat) : Bool := c != 0 && b.any (fun o => o.1 == e && o.2.1 == c)

theorem Dev.fld_lt (d : Dev) (a hi lo : Nat) : d.fld a hi lo < 2 ^ (hi + 1 - lo) := Nat.mod_lt _ (Nat.two_pow_pos _)

theorem evcGate_run (e : Nat) (b : List (Nat × Nat × Nat)) (d : Dev) : evcGate ((busGroup e b).map Prod.fst) d = evcRun
    (if busHas b e (d.fld Reg.EVC_GLB 22 16) then false else if busHas b e (d.fld Reg.EVC_GLB 14 8) then true else d.cnt.run) d := by
  have hacts (c : Nat) (hc : c < 128) : (c ≠ 0 ∧ ((busGroup e b).map Prod.fst).contains c = true) = (busHas b e c = true) := by
    rw [busGroup_codes e b hc, busHas, Bool.and_eq_true, bne_iff_ne]
  unfold evcGate
  simp only [hacts _ (d.fld_lt Reg.EVC_GLB 22 16), hacts _ (d.fld_lt Reg.EVC_GLB 14 8)]
  split
  · rfl
  · split <;> rfl

/-! ### A write of EVC_GLB (R463 to R465) -/

/-- EVC_GLB's source fields written. -/
def srcPut (v : Word) (d : Dev) : Dev := (d.putFld Reg.EVC_GLB 22 16 (v.bits 22 16)).putFld Reg.EVC_GLB 14 8 (v.bits 14 8)

theorem srcPut_flag (v : Word) (d : Dev) : (srcPut v d).flag Reg.EVC_GLB 3 = d.flag Reg.EVC_GLB 3 := by
  have hput (d : Dev) (hi lo x : Nat) (h : lo ≤ hi) (h32 : hi < 32) (hlo : 3 < lo) : (d.putFld Reg.EVC_GLB hi lo x).flag Reg.EVC_GLB 3 = d.flag Reg.EVC_GLB 3 := by
    rw [Dev.flag, Dev.flag, Dev.reg_putFld, Word.getLsbD_setBits _ _ _ _ _ h h32, if_neg (by omega)]
  unfold srcPut
  rw [hput _ _ _ _ (by decide) (by decide) (by decide), hput _ _ _ _ (by decide) (by decide) (by decide)]

/-- CLEAR_ALL. -/
theorem clearAll_eq (b : Bool) (d : Dev) : (if b then evcZeroAll d else d) =
    { d with cnt := { d.cnt with evc := if b then List.replicate 32 0 else d.cnt.evc } } := by
  cases b <;> rfl

/-- FREEZE: what is held is taken where it sets. -/
theorem evcSetFreeze_eq (on : Bool) (d : Dev) : evcSetFreeze on d =
    { d with regs := (d.putFlag Reg.EVC_GLB 3 on).regs, cnt := { d.cnt with
      evcHeld := if on = true ∧ d.flag Reg.EVC_GLB 3 = false then d.cnt.evc else d.cnt.evcHeld
      frozeAt := if on = true ∧ d.flag Reg.EVC_GLB 3 = false then d.cnt.edge else d.cnt.frozeAt } } := by
  unfold evcSetFreeze
  cases on
  · rfl
  · cases d.flag Reg.EVC_GLB 3 <;> rfl

/-- START and STOP. -/
theorem startStop_eq (stop start : Bool) (d : Dev) : (if stop then evcRun false d else if start then evcRun true d else d) =
    evcRun (if stop then false else if start then true else d.cnt.run) d := by
  cases stop <;> cases start <;> rfl

theorem evcGlbNow_eq (v : Word) {d : Dev} (hon : d.isOn Dom.ctrl = true) : evcGlbNow v d = evcRun
    (if v.getLsbD 2 then false else if v.getLsbD 1 then true else (evcSetFreeze (v.getLsbD 3) (if v.getLsbD 4 then evcZeroAll (srcPut v d) else srcPut v d)).cnt.run)
    (evcSetFreeze (v.getLsbD 3) (if v.getLsbD 4 then evcZeroAll (srcPut v d) else srcPut v d)) := by
  unfold evcGlbNow
  rw [hon, if_neg (by decide)]
  exact startStop_eq _ _ _

/-- The device behind a write of EVC_GLB. -/
def GlbWritten (s : State) (v : Word) (d : Dev) : Prop :=
  d.cnt.run = (if v.getLsbD 2 then false else if v.getLsbD 1 then true else s.dev.cnt.run) ∧
  d.cnt.evc = (if v.getLsbD 4 then List.replicate 32 0 else s.dev.cnt.evc) ∧
  d.flag Reg.EVC_GLB 3 = v.getLsbD 3 ∧ d.fld Reg.EVC_GLB 14 8 = v.bits 14 8 ∧ d.fld Reg.EVC_GLB 22 16 = v.bits 22 16 ∧
  d.cnt.evcHeld = (if v.getLsbD 3 = true ∧ s.dev.flag Reg.EVC_GLB 3 = false then d.cnt.evc else s.dev.cnt.evcHeld) ∧
  (v.getLsbD 3 = true → s.dev.flag Reg.EVC_GLB 3 = false → d.cnt.frozeAt = s.dev.cnt.edge) ∧
  d.cnt.chr = s.dev.cnt.chr ∧ d.cnt.bus = s.dev.cnt.bus ∧ RegsKept s d [Reg.EVC_GLB] ∧ d = { s.dev with regs := d.regs, cnt := d.cnt }

theorem evcGlbNow_meets {s : State} (v : Word) (hon : s.dev.isOn Dom.ctrl = true) : GlbWritten s v (evcGlbNow v s.dev) := by
  have hbits (hi lo : Nat) : v.bits hi lo % 2 ^ (hi + 1 - lo) = v.bits hi lo := Nat.mod_mod _ _
  have hregs : (evcGlbNow v s.dev).regs = ((srcPut v s.dev).putFlag Reg.EVC_GLB 3 (v.getLsbD 3)).regs := by
    rw [evcGlbNow_eq v hon, clearAll_eq, evcSetFreeze_eq]
    rfl
  have hreg := Dev.reg_of_regs hregs
  have hfroze : (if v.getLsbD 4 then evcZeroAll (srcPut v s.dev) else srcPut v s.dev).flag Reg.EVC_GLB 3 = s.dev.flag Reg.EVC_GLB 3 := by
    rw [clearAll_eq]
    exact srcPut_flag v s.dev
  have hcnt : (evcGlbNow v s.dev).cnt = { s.dev.cnt with
      run := if v.getLsbD 2 then false else if v.getLsbD 1 then true else s.dev.cnt.run
      evc := if v.getLsbD 4 then List.replicate 32 0 else s.dev.cnt.evc
      evcHeld := if v.getLsbD 3 = true ∧ s.dev.flag Reg.EVC_GLB 3 = false then (if v.getLsbD 4 then List.replicate 32 0 else s.dev.cnt.evc)
        else s.dev.cnt.evcHeld
      frozeAt := if v.getLsbD 3 = true ∧ s.dev.flag Reg.EVC_GLB 3 = false then s.dev.cnt.edge else s.dev.cnt.frozeAt } := by
    rw [evcGlbNow_eq v hon, evcSetFreeze_eq, hfroze, clearAll_eq]
    rfl
  unfold GlbWritten
  rw [hcnt]
  refine ⟨rfl, rfl, ?_, ?_, ?_, rfl, fun hset hclear => if_pos ⟨hset, hclear⟩, rfl, rfl, fun a ha => ?_, ?_⟩
  · rw [Dev.flag, hreg]
    exact Dev.flag_putFlag_same _ _ _ _ (by decide)
  · rw [Dev.fld, hreg, ← Dev.fld, Dev.putFlag, Dev.fld_putFld_other _ _ _ _ _ _ _ _ (by decide) (by decide) (.inr (by decide)), srcPut,
      Dev.fld_putFld_same _ _ _ _ _ (by decide) (by decide), hbits]
  · rw [Dev.fld, hreg, ← Dev.fld, Dev.putFlag, Dev.fld_putFld_other _ _ _ _ _ _ _ _ (by decide) (by decide) (.inr (by decide)), srcPut,
      Dev.fld_putFld_other _ _ _ _ _ _ _ _ (by decide) (by decide) (.inr (by decide)), Dev.fld_putFld_same _ _ _ _ _ (by decide) (by decide), hbits]
  · rw [hreg]
    exact (((RegsOnly.putFld s.dev _ _ _ (by simp)).trans (.putFld _ _ _ _ (by simp))).trans (.putFlag (srcPut v s.dev) 3 (v.getLsbD 3) (by simp))) a ha
  · rw [← hcnt, evcGlbNow_eq v hon, evcSetFreeze_eq, clearAll_eq]
    rfl

/-! ### The statement -/

theorem eventBusDeliveryDev_nil {d : Dev} (h : d.cnt.bus = []) : eventBusDeliveryDev d = d := by
  unfold eventBusDeliveryDev
  rw [h]

/-- The bus behind a delivery, the edge it has come to, and the gate's work. -/
def gated (e : Nat) (d : Dev) : Dev :=
  evcGate ((busGroup e d.cnt.bus).map Prod.fst) (edgeTo (e + 1) { d with cnt := { d.cnt with bus := busRest e d.cnt.bus } })

/-- Does channel n of chronograph c capture at a delivery of these codes? -/
def capturesCode (g : List (Nat × Nat)) (d : Dev) (c n : Nat) : Bool :=
  d.fld (Reg.CHR_CAPCTL c) (16 * n + 14) (16 * n + 13) == 2 && (g.map Prod.fst).contains (d.fld (Reg.CHR_CAPCTL c) (16 * n + 6) (16 * n))

theorem eventBusDeliveryDev_eq {d : Dev} {e : Nat} (h : d.cnt.bus.head?.map Prod.fst = some e) : eventBusDeliveryDev d =
    if d.chrRuns && edgeNear d (e + 1) then
      registerCaptures (capturesCode (busGroup e d.cnt.bus) (forEach (busGroup e d.cnt.bus) (deliverOne (e + 1)) (gated e d)))
        (forEach (busGroup e d.cnt.bus) (deliverOne (e + 1)) (gated e d))
    else d := by
  unfold eventBusDeliveryDev
  split
  next hb =>
    rw [hb] at h
    cases h
  next x y z r hb =>
    rw [hb] at h
    obtain rfl : x = e := Option.some.inj h
    unfold gated
    cases d.chrRuns && edgeNear d (x + 1) <;> rfl

theorem gated_run (e : Nat) (d : Dev) : gated e d = evcRun (if busHas d.cnt.bus e (d.fld Reg.EVC_GLB 22 16) then false
    else if busHas d.cnt.bus e (d.fld Reg.EVC_GLB 14 8) then true else d.cnt.run)
      (edgeTo (e + 1) { d with cnt := { d.cnt with bus := busRest e d.cnt.bus } }) := evcGate_run e d.cnt.bus _

theorem eventBusDeliveryDev_meets {s : State} {e n inc : Nat} (hruns : s.dev.chrRuns = true) (hhead : s.dev.cnt.bus.head?.map Prod.fst = some e)
    (hnear : edgeNear s.dev (e + 1) = true) (hevc : s.dev.cnt.evc.length = 32) (hheld : s.dev.cnt.evcHeld.length = 32)
    (hbound : ∀ v ∈ s.dev.cnt.evc ++ s.dev.cnt.evcHeld, v < 2 ^ 48) (hn : n < 32)
    (hinc : inc = min (busTotal s.dev.cnt.bus e (s.dev.fld (Reg.EVC_CFG n) 6 0)) 255) :
    let d := eventBusDeliveryDev s.dev
    d.cnt.edge = max s.dev.cnt.edge (e + 1) ∧
      (watchesRefclk s.dev = false → d.cnt.bus = busRest e s.dev.cnt.bus) ∧
      d.cnt.run = (if busHas s.dev.cnt.bus e (s.dev.fld Reg.EVC_GLB 22 16) then false
        else if busHas s.dev.cnt.bus e (s.dev.fld Reg.EVC_GLB 14 8) then true else s.dev.cnt.run) ∧
      (d.cnt.run = true → s.dev.flag (Reg.EVC_CFG n) 7 = true →
        at_ d.cnt.evc n 0 = (at_ s.dev.cnt.evc n 0 + inc) % 2 ^ 48 ∧
        (2 ^ 48 ≤ at_ s.dev.cnt.evc n 0 + inc → d.flag Reg.EVC_OVF n = true) ∧
        (s.dev.flag Reg.EVC_GLB 3 = true → e + 1 ≤ s.dev.cnt.frozeAt →
          at_ d.cnt.evcHeld n 0 = (at_ s.dev.cnt.evcHeld n 0 + inc) % 2 ^ 48)) ∧
      (d.cnt.run = false ∨ s.dev.flag (Reg.EVC_CFG n) 7 = false → at_ d.cnt.evc n 0 = at_ s.dev.cnt.evc n 0) ∧
      (s.dev.cnt.frozeAt ≤ e → d.cnt.evcHeld = s.dev.cnt.evcHeld) ∧
      (∀ c, c < 16 → (d.chr c).count = (s.dev.chr c).count) ∧
      RegsKept s d [Reg.EVC_OVF] ∧ d = { s.dev with regs := d.regs, cnt := d.cnt } := by
  have hlisted {l : List Nat} (hl : ∀ v ∈ l, v < 2 ^ 48) (h : l.length = 32) : at_ l n 0 < 2 ^ 48 := by
    have hat : at_ l n 0 = l[n]'(by omega) := List.getD_eq_getElem _ _ _
    rw [hat]
    exact hl _ (List.getElem_mem _)
  have hcount : at_ s.dev.cnt.evc n 0 < 2 ^ 48 := hlisted (fun v hv => hbound v (List.mem_append_left _ hv)) hevc
  have hheldCount : at_ s.dev.cnt.evcHeld n 0 < 2 ^ 48 := hlisted (fun v hv => hbound v (List.mem_append_right _ hv)) hheld
  set u := gated e s.dev with hu
  have hgated := gated_run e s.dev
  rw [← hu] at hgated
  have hrun : u.cnt.run = (if busHas s.dev.cnt.bus e (s.dev.fld Reg.EVC_GLB 22 16) then false
      else if busHas s.dev.cnt.bus e (s.dev.fld Reg.EVC_GLB 14 8) then true else s.dev.cnt.run) := by rw [hgated]; rfl
  have hedge : u.cnt.edge = max s.dev.cnt.edge (e + 1) := by rw [hgated]; rfl
  have hbus (h : watchesRefclk s.dev = false) : u.cnt.bus = busRest e s.dev.cnt.bus := by
    rw [hgated]
    exact if_neg fun ht => Bool.false_ne_true (h.symm.trans ht)
  have hview : counterView n u = counterView n s.dev := by rw [hgated]; rfl
  have hregs : u.regs = s.dev.regs := by rw [hgated]; rfl
  have hevcHeld : u.cnt.evcHeld = s.dev.cnt.evcHeld ∧ u.cnt.frozeAt = s.dev.cnt.frozeAt ∧ u.cnt.chr = s.dev.cnt.chr := by
    rw [hgated]
    exact ⟨rfl, rfl, rfl⟩
  obtain ⟨hsameHeld, hfroze, hchr⟩ := hevcHeld
  have hlens : u.cnt.evc.length = 32 ∧ u.cnt.evcHeld.length = 32 := by
    rw [hsameHeld]
    exact ⟨(congrArg (fun v : CounterView => v.listed.1) hview).trans hevc, hheld⟩
  have hurest : u = { s.dev with cnt := u.cnt } := by rw [hgated]; rfl
  have hreg := Dev.reg_of_regs hregs
  set g := busGroup e s.dev.cnt.bus with hg
  set w := forEach g (deliverOne (e + 1)) u with hw
  have hall : Delivered (e + 1) u (eventBusDeliveryDev s.dev) := by
    rw [eventBusDeliveryDev_eq hhead, hruns, hnear, if_pos (by decide)]
    exact (Delivered.forEach (deliverOne_delivered (e + 1)) g u).trans (registerCaptures_delivered _ _ w)
  have hcounter : counterView n (eventBusDeliveryDev s.dev) = counterView n w := by
    rw [eventBusDeliveryDev_eq hhead, hruns, hnear, if_pos (by decide)]
    rfl
  have hen : u.flag (Reg.EVC_CFG n) 7 = s.dev.flag (Reg.EVC_CFG n) 7 := by rw [Dev.flag, Dev.flag, hreg]
  have hcode : u.fld (Reg.EVC_CFG n) 6 0 = s.dev.fld (Reg.EVC_CFG n) 6 0 := by rw [Dev.fld, Dev.fld, hreg]
  refine ⟨hall.edge.trans hedge, fun h => hall.bus.trans (hbus h), hall.run.trans hrun, fun hon hcfg => ?_, fun hoff => ?_,
    fun hf => (hall.held (by omega)).trans hsameHeld, fun c hc => (hall.chr c hc).trans (by rw [Dev.chr_of_cnt hchr]),
    fun a ha => (hall.regs a ha).trans (hreg a), ?_⟩
  · have hraised := deliver_raised (e + 1) g hn hlens.1 hlens.2 (hall.run.symm.trans hon) (hen.trans hcfg)
    rw [hcode, busGroup_sum (h := (min · 255)) rfl e s.dev.cnt.bus (s.dev.fld_lt _ 6 0), ← hinc, ← hw, ← hcounter, hview] at hraised
    exact ⟨hraised.count hcount, fun hover => hraised.wrapped hcount hover, fun hf hx => hraised.held hf hx hheldCount⟩
  · have hsame := deliver_off (e + 1) g hn (d := u) (hoff.imp (hall.run.symm.trans ·) (hen.trans ·))
    rw [← hw, ← hcounter, hview] at hsame
    exact congrArg CounterView.count hsame
  · refine hall.rest.trans ?_
    rw [hurest]

theorem evcClrNow_eq {n : Nat} {d : Dev} (v : Word) (hon : d.isOn Dom.ctrl = true) (hn : n < 32) : evcClrNow n v d =
    { d with regs := (d.putReg (Reg.EVC_CFG n) (v &&& 0xFF)).regs, cnt := { d.cnt with evc := if v.getLsbD 8 then d.cnt.evc.set n 0 else d.cnt.evc } } := by
  unfold evcClrNow
  rw [hon, decide_eq_true hn, if_neg (by decide)]
  cases v.getLsbD 8 <;> rfl

/-- Settles O44: the pins by the one change each command makes of them; a delivery by what it adds at one counter, summed over the sources of its edge;
a write of EVC_GLB by the values it leaves. -/
theorem chronographPinsAndEventCounters : Obligations.ChronographPinsAndEventCounters := by
  refine ⟨⟨fun s k level hruns hsees hk hlen hlevel => ?input, fun s k level hlevel => ?level, fun s k x l r hruns hway => ⟨fun hnear => ?change, fun hfar => ?noChange⟩,
    fun d c k b w hchr hmode hlen => ?matched, fun s k x hruns hpulse => ⟨fun hnear => ?ends, fun hfar => ?noEnd⟩, fun s k hpulse => ?noPulse⟩,
    fun s e n inc b hruns hb hhead hnear hevc hheld hbound hn hinc => ?deliver, fun b e c hc => ?rest, fun s e hhead hfar => ?later, fun s hbus => ?empty,
    fun s v hruns hturn => ?glb, fun s n v hruns hturn hn hlen => ?clr⟩
  case input =>
    rw [yields_devNext (f := chrInEdgeDev k level) _ rfl]
    exact chrInEdgeDev_meets hruns hsees hk hlen hlevel
  case level => exact devNext_same (f := chrInEdgeDev k level) (chrInEdgeDev_same hlevel)
  case change =>
    have hlen : k < s.dev.cnt.outs.length := Dev.chrOut_lt fun h => by rw [h] at hway; cases hway
    rw [yields_devNext (f := chrOutChangeDev k) _ rfl, chrOutChangeDev_way hruns hway, if_pos hnear]
    exact ⟨Dev.chrOut_modOut_same _ hlen, fun j hj => Dev.chrOut_modOut_ne s.dev _ hj, rfl⟩
  case noChange =>
    refine devNext_same (f := chrOutChangeDev k) ?_
    rw [chrOutChangeDev_way hruns hway, if_neg (by rw [hfar]; decide)]
  case matched =>
    refine ⟨_, rfl, ?_⟩
    rw [outEvents_pulse b w hchr hmode hlen]
    obtain ⟨hkeptMode, hkeptPulse, hlast⟩ := drivenTo_keeps (d.cnt.edge + 2 + 64 * d.fld (Reg.CHR_OUTCTL k) 15 12) true (!d.flag (Reg.CHR_OUTCTL k) 7)
      { d.chrOut k with mode := true, pulse := some (d.cnt.edge + countOf (d.fld (Reg.CHR_OUTCTL k) 31 16) 65536) }
    rw [hlast]
    exact ⟨hkeptMode, hkeptPulse, rfl, fun h => drivenTo_same h, fun h => drivenTo_changed h⟩
  case ends =>
    have hlen : k < s.dev.cnt.outs.length := Dev.chrOut_lt fun h => by rw [h] at hpulse; cases hpulse
    rw [yields_devNext (f := pulseEndDev k) _ rfl, pulseEndDev_pulse hruns hpulse, if_pos hnear, outDrive_eq]
    set u := edgeTo x (s.dev.modOut k (fun o => { o with pulse := none, mode := false })) with hu
    have huout : u.chrOut k = { s.dev.chrOut k with pulse := none, mode := false } := Dev.chrOut_modOut_same _ hlen
    have hulen : k < u.cnt.outs.length := hlen.trans_eq (upd_length ..).symm
    obtain ⟨hkeptMode, hkeptPulse, -⟩ := drivenTo_keeps (u.cnt.edge + 2 + 64 * u.fld (Reg.CHR_OUTCTL k) 15 12)
      ((u.chrOut k).woken || outMode u k != 0) (outGives u k ((u.chrOut k).woken || outMode u k != 0)) (u.chrOut k)
    refine ⟨?_, ?_, fun j hj => (Dev.chrOut_modOut_ne u _ hj).trans (Dev.chrOut_modOut_ne s.dev _ hj), rfl⟩
    · rw [Dev.chrOut_modOut_same _ hulen, hkeptPulse, huout]
    · rw [Dev.chrOut_modOut_same _ hulen, hkeptMode, huout]
  case noEnd =>
    refine devNext_same (f := pulseEndDev k) ?_
    rw [pulseEndDev_pulse hruns hpulse, if_neg (by rw [hfar]; decide)]
  case noPulse => exact devNext_same (f := pulseEndDev k) (pulseEndDev_none hpulse)
  case deliver =>
    subst hb
    rw [yields_devNext (f := eventBusDeliveryDev) _ rfl]
    exact eventBusDeliveryDev_meets hruns hhead hnear hevc hheld hbound hn hinc
  case rest =>
    have htotal := fun x => busTotal_busRest b e x hc
    refine ⟨(htotal e).trans ?_, (htotal (e + 1)).trans ?_, fun x hx hx' => (htotal x).trans ?_⟩
    · rw [if_neg (by omega), if_pos rfl]
    · rw [if_pos rfl, if_neg (by omega)]
      exact Nat.add_comm _ _
    · rw [if_neg hx', if_neg hx, Nat.zero_add]
      rfl
  case later =>
    refine devNext_same (f := eventBusDeliveryDev) ?_
    rw [eventBusDeliveryDev_eq hhead, hfar, Bool.and_false]
    rfl
  case empty => exact devNext_same (f := eventBusDeliveryDev) (eventBusDeliveryDev_nil hbus)
  case glb =>
    have hmeets := evcGlbNow_meets (s := s) v (Dev.chrRuns_on hruns).1
    have hwrites {i : Instr} {f : Dev → Dev} (hi : exec i s = hostNext s f) (hf : f = evcGlbWrite v) : Yields i s (GlbWritten s v) :=
      (yields_atEdge (a := Reg.EVC_GLB) (v := v) (f := evcGlbNow v) _ (hi.trans (congrArg (hostNext s) hf)) hruns hturn).2 hmeets
    exact ⟨fun hv => hwrites (f := evcStartDev v) rfl (funext fun _ => if_pos hv), fun hv => hwrites (f := evcStopDev v) rfl (funext fun _ => if_pos hv),
      fun hv => hwrites (f := evcClearAllDev v) rfl (funext fun _ => if_pos hv), hwrites (f := evcFreezeDev v) rfl rfl⟩
  case clr =>
    rw [yields_atEdge (f := evcClrNow n v) _ rfl hruns hturn, evcClrNow_eq v (Dev.chrRuns_on hruns).1 hn]
    refine ⟨Dev.reg_putReg_same _ _ _, ?_, fun k hk => ?_, fun a ha => Dev.reg_putReg_ne s.dev _ _ _ fun h => ha (h ▸ List.mem_cons_self), rfl⟩
    · dsimp only
      split
      · exact at_set_same _ _ hlen
      · rfl
    · dsimp only
      split
      · exact at_set_ne _ _ _ hk
      · rfl

end Sys2Proof.Machine
end

section
/-! PROOF. The statement on agents fails: AGENT_ANSWER ends the arbitration in progress (R473) before it looks at its domain, so that for a
domain with no request it still changes a state in which an arbitration is open. -/

namespace Sys2Proof.Machine

open Sys2Proof

/-- A device at reset but for an arbitration in progress, in which MGMT's wake has been requested. -/
def arbitrating : State := ⟨[], Prot.reset, { Dev.reset with pwr := { Dev.reset.pwr with arb := [Dom.mgmt] } }⟩

theorem arbitrating_rests : (arbitrating.dev.dom Dom.hostp).phase = .rest := by decide

theorem arbitrating_answered : exec (.agentAnswer Dom.hostp) arbitrating = .next { arbitrating with dev := Dev.arbEnds arbitrating.dev } := rfl

/-- Refutes O46: an answer of HOSTP's agent, with no request of HOSTP's under way, ends the arbitration in which MGMT's wake was requested. -/
theorem not_agentsAnswerEntryRequests : ¬ Obligations.AgentsAnswerEntryRequests := by
  unfold Obligations.AgentsAnswerEntryRequests
  rintro ⟨-, -, -, -, -, hrest⟩
  have hsame := (hrest arbitrating Dom.hostp arbitrating_rests).1
  rw [arbitrating_answered] at hsame
  have harb : ([] : List Nat) = [Dom.mgmt] := congrArg (fun s : State => s.dev.pwr.arb) (Host.Outcome.next.inj hsame)
  cases harb

end Sys2Proof.Machine
end

section
/-! PROOF. A wake step that fails, its retries and the FAILED domain (R487, R488, R495). -/

namespace Sys2Proof.Machine

open Sys2Proof

/-! ### A failed attempt -/

/-- A domain whose attempt has failed at a step. -/
def Domain.stepFailed (a f : Nat) (x : Domain) : Domain := { x with state := .off, attempts := a, failStep := f, cold := true, phase := .retryWait }

/-- The device with all power removed from a domain and no execution phase of its to come. -/
def powerRemoved (n : Nat) (d : Dev) : Dev :=
  { arraysLost n d with pwr := { (arraysLost n d).pwr with ready := (arraysLost n d).pwr.ready.filter (· != n) } }

/-- The device behind a failed attempt that is not the last. -/
def attemptFailed (n f : Nat) (d : Dev) : Dev :=
  ((powerRemoved n d).modDom n (Domain.stepFailed ((d.dom n).attempts + 1) f)).logEv 0x02 0x01 1 [n, f]

/-- The device in which a domain is FAILED, before the wakes that wait for it are dropped. -/
def domainFailed (n : Nat) (d : Dev) : Dev :=
  (((d.modDom n (fun x => { x with state := .failed, phase := .rest })).logEv 0x02 0x02 3 [n]).setFault 4).putFlag Reg.PWR_IRQ_STAT 2 true

theorem wakeStepTimeoutDev_eq {d : Dev} {n st : Nat} (hphase : (d.dom n).phase = .waking) (hst : st = 2 ∨ n = Dom.ctrl ∧ st = 3) :
    wakeStepTimeoutDev n st d = if (d.dom n).attempts + 1 < 4 then attemptFailed n (failCode st) d
      else closeBatches (dropDependents n (domainFailed n (attemptFailed n (failCode st) d))) := by
  have hpowered : ¬((d.dom n).phase ≠ .waking ∨ (!(st == 2 || (st == 3 && n == Dom.ctrl))) = true) := by
    rw [not_or]
    refine ⟨not_not_intro hphase, ?_⟩
    obtain rfl | ⟨rfl, rfl⟩ := hst
    · exact Bool.false_ne_true
    · decide
  exact if_neg hpowered

theorem wakeStepTimeoutDev_of_rest {d : Dev} {n : Nat} (st : Nat) (hphase : (d.dom n).phase = .rest) : wakeStepTimeoutDev n st d = d :=
  if_pos (.inl (by rw [hphase]; decide))

theorem powerRemoved_pwr (n : Nat) (d : Dev) : (powerRemoved n d).pwr = { d.pwr with ready := d.pwr.ready.filter (· != n) } := by
  simp only [powerRemoved, arraysLost_keeps]

theorem arraysLost_mgt {n : Nat} (d : Dev) (h : n ≠ Dom.mgmt) : (arraysLost n d).mgt = d.mgt := by
  unfold arraysLost
  rw [if_neg h]
  split
  · rfl
  · split
    · rfl
    · split <;> rfl

theorem attemptFailed_pwr (n f : Nat) (d : Dev) :
    (attemptFailed n f d).pwr = ((powerRemoved n d).modDom n (Domain.stepFailed ((d.dom n).attempts + 1) f)).pwr := by
  simp only [attemptFailed, Dev.pwr_logEv]

theorem attemptFailed_ready (n f : Nat) (d : Dev) : (attemptFailed n f d).pwr.ready = d.pwr.ready.filter (· != n) := by
  rw [attemptFailed_pwr]
  exact congrArg Power.ready (powerRemoved_pwr n d)

theorem attemptFailed_dom_same {d : Dev} {n : Nat} (f : Nat) (h : n < d.pwr.doms.length) :
    (attemptFailed n f d).dom n = (d.dom n).stepFailed ((d.dom n).attempts + 1) f := by
  have hdoms : (powerRemoved n d).pwr.doms = d.pwr.doms := by rw [powerRemoved_pwr]
  rw [Dev.dom_of_doms (congrArg Power.doms (attemptFailed_pwr n f d)), Dev.dom_modDom_same _ (by rw [hdoms]; exact h), Dev.dom_of_doms hdoms]

theorem attemptFailed_dom_ne {n m : Nat} (f : Nat) (d : Dev) (h : m ≠ n) : (attemptFailed n f d).dom m = d.dom m := by
  have hdoms : (powerRemoved n d).pwr.doms = d.pwr.doms := by rw [powerRemoved_pwr]
  rw [Dev.dom_of_doms (congrArg Power.doms (attemptFailed_pwr n f d)), Dev.dom_modDom_ne _ _ h, Dev.dom_of_doms hdoms]

theorem attemptFailed_regs (n f : Nat) (d : Dev) : RegsOnly [Reg.MGT_CNT_LOG_DROP] d (attemptFailed n f d) := by
  have hremoved : RegsOnly [Reg.MGT_CNT_LOG_DROP] d ((powerRemoved n d).modDom n (Domain.stepFailed ((d.dom n).attempts + 1) f)) :=
    .of_regs (arraysLost_keeps n d).1
  exact hremoved.trans fun a ha => Dev.reg_logEv_ne _ _ _ _ _ _ fun h => ha (h ▸ List.mem_cons_self)

theorem attemptFailed_logs {s : State} {n : Nat} (f : Nat) (h : n ≠ Dom.mgmt) : Logs s (attemptFailed n f s.dev) 2 1 1 [n, f] :=
  logs_logEv 2 1 1 [n, f] (arraysLost_mgt s.dev h) (by simp [powerRemoved])

theorem logEv_enters {d : Dev} (source code sev : Nat) (data : List Nat) (h : d.mgt.queue.length < 32) :
    ∃ e, (d.logEv source code sev data).mgt.queue = d.mgt.queue ++ [e] ∧ e.source = source ∧ e.code = code ∧ e.sev = sev ∧
      e.data = data.map (BitVec.ofNat 8) := by
  rw [Dev.logEv, if_pos h]
  exact ⟨_, rfl, rfl, rfl, rfl, rfl⟩

/-- MGMT's failed attempt loses its SRAM and the firmware's own log. -/
theorem attemptFailed_mgmt (f : Nat) (d : Dev) : (attemptFailed Dom.mgmt f d).mem.mram = [] ∧ (attemptFailed Dom.mgmt f d).mgt.total = 0 ∧
    (d.mgt.queue.length < 32 → ∃ e, (attemptFailed Dom.mgmt f d).mgt.queue = d.mgt.queue ++ [e] ∧ e.source = 2 ∧ e.code = 1 ∧ e.sev = 1 ∧
      e.data = [BitVec.ofNat 8 Dom.mgmt, BitVec.ofNat 8 f]) := by
  refine ⟨?_, ?_, fun hroom => ?_⟩
  · rw [attemptFailed, Dev.mem_logEv]
    rfl
  · rw [attemptFailed, Dev.logEv]
    split <;> rfl
  · exact logEv_enters (d := (powerRemoved Dom.mgmt d).modDom Dom.mgmt _) 2 1 1 [Dom.mgmt, f] hroom

/-! ### A FAILED domain -/

theorem domainFailed_pwr (n : Nat) (d : Dev) : (domainFailed n d).pwr = (d.modDom n (fun x => { x with state := .failed, phase := .rest })).pwr := by
  simp only [domainFailed, Dev.pwr_putFlag, Dev.pwr_setFault, Dev.pwr_logEv]

theorem domainFailed_flags (n : Nat) (d : Dev) : (domainFailed n d).flag Reg.MGT_FAULT 4 = true ∧ (domainFailed n d).flag Reg.PWR_IRQ_STAT 2 = true := by
  refine ⟨?_, Dev.flag_putFlag_same _ _ _ _ (by decide)⟩
  rw [domainFailed, Dev.flag_putFlag_other _ _ _ _ _ _ (by decide) (.inl (by decide))]
  exact setFault_flag _ (by decide)

/-- The wake of domain m dropped, where it waits for domain n. -/
def dropOne (n m : Nat) (d : Dev) : Dev :=
  if (d.dom m).wakes && (allPrereqs m).contains n then
    { (d.modDom m (fun x => { x with phase := .rest })) with
      pwr := { (d.modDom m (fun x => { x with phase := .rest })).pwr with ready := d.pwr.ready.filter (· != m) } }
  else d

theorem dropDependents_eq (n : Nat) (d : Dev) : dropDependents n d = forUpTo 30 (dropOne n) d := rfl

theorem dropOne_dom_ne (n : Nat) {m k : Nat} (d : Dev) (h : m ≠ k) : (dropOne n k d).dom m = d.dom m := by
  unfold dropOne
  split
  · exact Dev.dom_modDom_ne d _ h
  · rfl

theorem dropOne_of_rest (n : Nat) {m : Nat} {d : Dev} (h : (d.dom m).phase = .rest) : dropOne n m d = d := by
  unfold dropOne
  rw [Domain.wakes, h]
  rfl

theorem Domain.phase_of_wakes {x : Domain} (h : x.wakes = true) : x.phase ≠ .rest := fun hrest => by
  rw [Domain.wakes, hrest] at h
  cases h

theorem dropOne_dom {n m : Nat} {d : Dev} (hwakes : (d.dom m).wakes = true) (hpre : n ∈ allPrereqs m) :
    (dropOne n m d).dom m = { d.dom m with phase := .rest } := by
  unfold dropOne
  rw [hwakes, List.contains_iff_mem.2 hpre, if_pos (by decide)]
  exact Dev.dom_modDom_same _ (Dev.dom_listed (Domain.phase_of_wakes hwakes))

theorem dropDependents_of_rest (n : Nat) {m : Nat} {d : Dev} (h : (d.dom m).phase = .rest) : (dropDependents n d).dom m = d.dom m := by
  rw [dropDependents_eq]
  generalize 30 = k
  induction k with
  | zero => rfl
  | succ k ih =>
    rw [forUpTo_succ]
    by_cases hk : m = k
    · subst hk
      rw [dropOne_of_rest n (by rw [ih, h]), ih]
    · rw [dropOne_dom_ne n _ hk, ih]

theorem dropDependents_of_waiting {n m : Nat} {d : Dev} (hm : m < 30) (hwakes : (d.dom m).wakes = true) (hpre : n ∈ allPrereqs m) :
    (dropDependents n d).dom m = { d.dom m with phase := .rest } := by
  obtain ⟨u, hu, hround⟩ := forUpTo_round (fun d : Dev => d.dom m) (f := dropOne n) hm (fun j x hj => dropOne_dom_ne n x hj.symm) d
  refine hround.trans ?_
  dsimp only at hu ⊢
  rw [dropOne_dom (by rw [hu, hwakes]) hpre, hu]

theorem dropDependents_regs (n : Nat) (d : Dev) : RegsOnly [] d (dropDependents n d) := by
  refine RegsOnly.forUpTo (f := dropOne n) (fun m d => ?_) d
  unfold dropOne
  split
  · exact .of_regs rfl
  · exact .refl _ d

/-- A prerequisite comes before its dependents. -/
theorem ne_of_mem_allPrereqs {n m : Nat} (h : n ∈ allPrereqs m) : m ≠ n := by
  have hlt := List.mem_range.1 (List.mem_of_mem_filter h)
  omega

/-- PWR_IRQ_STAT's bits stay set while batches close. -/
theorem closeBatches_irq {d : Dev} {k : Nat} (h : d.flag Reg.PWR_IRQ_STAT k = true) : (closeBatches d).flag Reg.PWR_IRQ_STAT k = true := by
  unfold closeBatches
  dsimp only
  split
  · exact h
  · exact Dev.flag_putFlag_set (d := aonWakeEnds d.arbEnds) (by decide) h

/-! ### The statement's first part -/

theorem wakeStepTimeoutDev_retries {s : State} {n st f : Nat} (hphase : (s.dev.dom n).phase = .waking) (hst : st = 2 ∨ n = Dom.ctrl ∧ st = 3)
    (hf : failCode st = f) (hattempts : (s.dev.dom n).attempts < 3) :
    let d := wakeStepTimeoutDev n st s.dev
    (d.dom n).state = .off ∧ (d.dom n).phase = .retryWait ∧
      (d.dom n).attempts = (s.dev.dom n).attempts + 1 ∧ (d.dom n).failStep = f ∧ (d.dom n).cold = true ∧ n ∉ d.pwr.ready ∧
      (∀ m, m ≠ n → d.dom m = s.dev.dom m) ∧ (n ≠ Dom.mgmt → Logs s d 2 1 1 [n, f]) ∧
      (n = Dom.mgmt → d.mem.mram = [] ∧ d.mgt.total = 0 ∧ (s.dev.mgt.queue.length < 32 →
        ∃ e, d.mgt.queue = s.dev.mgt.queue ++ [e] ∧ e.source = 2 ∧ e.code = 1 ∧ e.sev = 1 ∧ e.data = [BitVec.ofNat 8 n, BitVec.ofNat 8 f])) ∧
      RegsKept s d [Reg.MGT_CNT_LOG_DROP] := by
  dsimp only
  rw [wakeStepTimeoutDev_eq hphase hst, if_pos (by omega), hf]
  have hdom := attemptFailed_dom_same f (Dev.dom_listed (d := s.dev) (n := n) (by rw [hphase]; decide))
  refine ⟨by rw [hdom]; rfl, by rw [hdom]; rfl, by rw [hdom]; rfl, by rw [hdom]; rfl, by rw [hdom]; rfl, ?_, fun m hm => attemptFailed_dom_ne f s.dev hm,
    fun hn => attemptFailed_logs f hn, ?_, attemptFailed_regs n f s.dev⟩
  · rw [attemptFailed_ready]
    simp
  · rintro rfl
    exact attemptFailed_mgmt f s.dev

theorem wakeStepTimeoutDev_fails {s : State} {n st f : Nat} (hphase : (s.dev.dom n).phase = .waking) (hst : st = 2 ∨ n = Dom.ctrl ∧ st = 3)
    (hf : failCode st = f) (hattempts : 3 ≤ (s.dev.dom n).attempts) :
    let d := wakeStepTimeoutDev n st s.dev
    (d.dom n).state = .failed ∧ (d.dom n).phase = .rest ∧
      (d.dom n).failStep = f ∧ (d.dom n).latched = (s.dev.dom n).latched ∧ d.flag Reg.MGT_FAULT 4 = true ∧ d.flag Reg.PWR_IRQ_STAT 2 = true ∧
      (∀ m, m < 30 → (s.dev.dom m).wakes = true → n ∈ allPrereqs m → (d.dom m).phase = .rest ∧ (d.dom m).state = (s.dev.dom m).state) := by
  dsimp only
  rw [wakeStepTimeoutDev_eq hphase hst, if_neg (by omega), hf]
  have hlisted : n < s.dev.pwr.doms.length := Dev.dom_listed (by rw [hphase]; decide)
  set a := attemptFailed n f s.dev with ha
  have hlen : a.pwr.doms.length = s.dev.pwr.doms.length := by
    rw [ha, attemptFailed_pwr]
    exact (upd_length ..).trans (by rw [powerRemoved_pwr])
  set e := domainFailed n a with he
  have hdoms : e.pwr.doms = (a.modDom n (fun x => { x with state := .failed, phase := .rest })).pwr.doms := congrArg Power.doms (domainFailed_pwr n a)
  have hdom : e.dom n = { (s.dev.dom n).stepFailed ((s.dev.dom n).attempts + 1) f with state := .failed, phase := .rest } := by
    rw [Dev.dom_of_doms hdoms, Dev.dom_modDom_same _ (hlisted.trans_eq hlen.symm), ha, attemptFailed_dom_same f hlisted]
  have hother (m : Nat) (hm : m ≠ n) : e.dom m = s.dev.dom m := by
    rw [Dev.dom_of_doms hdoms, Dev.dom_modDom_ne _ _ hm, ha, attemptFailed_dom_ne f _ hm]
  have hclosed (m : Nat) : (closeBatches (dropDependents n e)).dom m = (dropDependents n e).dom m := Dev.dom_of_doms (closeBatches_doms _).1 m
  have hself : (closeBatches (dropDependents n e)).dom n = e.dom n := (hclosed n).trans (dropDependents_of_rest n (by rw [hdom]))
  obtain ⟨hfault, hirq⟩ := domainFailed_flags n a
  have hdropped (b k : Nat) : (dropDependents n e).flag b k = e.flag b k := (dropDependents_regs n e).flag (by simp) k
  rw [hself, hdom]
  refine ⟨rfl, rfl, rfl, rfl, ?_, closeBatches_irq ((hdropped _ _).trans hirq), fun m hm hwakes hpre => ?_⟩
  · rw [(closeBatches_regs _).flag (by decide), hdropped]
    exact hfault
  · have hne := ne_of_mem_allPrereqs hpre
    rw [hclosed, dropDependents_of_waiting hm (by rw [hother m hne, hwakes]) hpre, hother m hne]
    exact ⟨rfl, rfl⟩

theorem wakeRetryDev_waiting {d : Dev} {n : Nat} (h : (d.dom n).phase = .retryWait) :
    wakeRetryDev n d = makeReady n (d.modDom n (fun x => { x with phase := .waking, cold := true })) := if_pos h

theorem wakeRetryDev_other {d : Dev} {n : Nat} (h : (d.dom n).phase ≠ .retryWait) : wakeRetryDev n d = d := if_neg h

end Sys2Proof.Machine
end

section
/-! PROOF. Wake sources and their detectors, and the statement on wakes (R476, R485, R486, R488). -/

namespace Sys2Proof.Machine

open Sys2Proof

/-! ### What the controller's pass adds -/

/-- A pass that leaves PWR_IRQ_STAT's bits set, and domain m among those ready. -/
structure PassHolds (m : Nat) (d e : Dev) : Prop where
  irq : ∀ k, d.flag Reg.PWR_IRQ_STAT k = true → e.flag Reg.PWR_IRQ_STAT k = true
  ready : m ∈ d.pwr.ready → m ∈ e.pwr.ready

theorem PassHolds.refl (m : Nat) (d : Dev) : PassHolds m d d := ⟨fun _ => id, id⟩

theorem PassHolds.trans {m : Nat} {d e f : Dev} (h : PassHolds m d e) (k : PassHolds m e f) : PassHolds m d f :=
  ⟨fun j hj => k.irq j (h.irq j hj), fun hm => k.ready (h.ready hm)⟩

theorem bootWarn_irq (code slot sect : Nat) (d : Dev) : (bootWarn code slot sect d).reg Reg.PWR_IRQ_STAT = d.reg Reg.PWR_IRQ_STAT :=
  (Dev.reg_bumpFld_ne (bootLog false code slot sect d) _ _ _ _ _ (by decide)).trans (Dev.reg_logEv_ne _ _ _ _ _ _ (by decide))

theorem settle_irq (n result reason : Nat) (d : Dev) {k : Nat} (h : d.flag Reg.PWR_IRQ_STAT k = true) :
    (settle n result reason d).flag Reg.PWR_IRQ_STAT k = true := by
  have hset : ((settledDev n result reason d).putFlag Reg.PWR_IRQ_STAT 1 true).flag Reg.PWR_IRQ_STAT k = true :=
    Dev.flag_putFlag_set (d := settledDev n result reason d) (by decide) h
  rw [settle_eq]
  dsimp only
  split
  · exact h
  · split
    · rw [Dev.flag, bootWarn_irq]
      exact hset
    · exact hset

theorem settle_holds {m n : Nat} (result reason : Nat) (d : Dev) (h : m ≠ n) : PassHolds m d (settle n result reason d) := by
  refine ⟨fun k => settle_irq n result reason d, fun hm => ?_⟩
  rw [settle_ready]
  exact List.mem_filter.2 ⟨hm, by simpa using h⟩

theorem checkEntries_hold {m : Nat} (l : List Nat) {d : Dev} (h : ∀ t, (d.dom m).phase ≠ .asked t) : PassHolds m d (forEach l checkEntry d) := by
  induction l generalizing d with
  | nil => exact .refl m d
  | cons n l ih =>
    have hfirst : PassHolds m d (checkEntry n d) := by
      obtain he | ⟨⟨t, ht⟩, he⟩ := checkEntry_cases n d <;> rw [he]
      · exact .refl m d
      · exact settle_holds 2 1 d (by rintro rfl; exact h t ht)
    exact hfirst.trans (ih (by rwa [(checkEntry_keepsDom n h).dom]))

theorem closeBatches_holds (m : Nat) (d : Dev) : PassHolds m d (closeBatches d) :=
  ⟨fun _ => closeBatches_irq, fun hm => by rwa [(closeBatches_doms d).2]⟩

theorem controllerPass_holds {m : Nat} {d : Dev} (h : ∀ t, (d.dom m).phase ≠ .asked t) : PassHolds m d (controllerPass d) :=
  (checkEntries_hold _ h).trans (closeBatches_holds m _)

/-! ### A wake whose prerequisites are ON -/

theorem requestWake_ready (b n : Nat) {d : Dev} (h : ∀ m, m ∈ allPrereqs n → (d.dom m).state = .on ∧ (d.dom m).phase = .rest) :
    requestWake b n d = wakeOne b n d := by
  have hnone : (allPrereqs n).filter (fun m => (d.dom m).state != .on || (d.dom m).entering) = [] := by
    refine List.filter_eq_nil_iff.2 fun m hm => ?_
    obtain ⟨hstate, hphase⟩ := h m hm
    rw [hstate, Domain.entering, Domain.idle, hphase]
    exact Bool.false_ne_true
  rw [requestWake, hnone]
  rfl

theorem wakeOne_rest {b n : Nat} {d : Dev} (hphase : (d.dom n).phase = .rest) (hstate : (d.dom n).state ≠ .on) :
    wakeOne b n d = makeReady n (d.modDom n (fun x => { x with phase := .waking, batch := b, attempts := 0, cold := x.state != .ret, wokeFrom := x.state })) := by
  unfold wakeOne
  dsimp only
  rw [hphase]
  exact if_neg hstate

theorem wakeOne_asked {b n : Nat} {d : Dev} {t : DomState} (hphase : (d.dom n).phase = .asked t) : wakeOne b n d = settle n 3 0 d := by
  unfold wakeOne
  dsimp only
  rw [hphase]

theorem wakeOne_acked {b n : Nat} {d : Dev} {t : DomState} (hphase : (d.dom n).phase = .acked t) :
    wakeOne b n d = d.modDom n (fun x => { x with wakeNext := some b, entryNext := none, result := if x.entryNext.isSome then 3 else x.result }) := by
  unfold wakeOne
  dsimp only
  rw [hphase]

/-- A wake of one domain as a batch of its own: the domain's wake, then the controller's pass. -/
theorem wakeBatch_one {n : Nat} {d : Dev} (h : ∀ m, m ∈ allPrereqs n → (d.dom m).state = .on ∧ (d.dom m).phase = .rest) :
    ∃ arb, wakeBatch [n] d = { controllerPass (wakeOne (newBatch d).pwr.batch n (newBatch d)) with
      pwr := { (controllerPass (wakeOne (newBatch d).pwr.batch n (newBatch d))).pwr with arb := arb } } := by
  have hissue : issueBatch [n] .on d = controllerPass (wakeOne (newBatch d).pwr.batch n (newBatch d)) := by
    unfold issueBatch
    dsimp only
    rw [if_pos rfl]
    exact congrArg controllerPass (requestWake_ready (newBatch d).pwr.batch n (d := newBatch d) h)
  unfold wakeBatch
  dsimp only
  rw [hissue]
  exact ⟨_, rfl⟩

/-! ### A source fires (R485) -/

/-- The device with a source's firing recorded, and its detector's count begun anew. -/
def sourceRecorded (src : Nat) (d : Dev) : Dev :=
  ({ d with pwr := { d.pwr with dets := upd d.pwr.dets src (fun x => { x with count := 0 }) } }.putReg Reg.PWR_WAKE_LAST (BitVec.ofNat 32 src)).putFlag
    Reg.PWR_IRQ_STAT 3 true

theorem wakeSourceDev_eq {d : Dev} {src : Nat} (hstage : d.stage ≠ 0) (hen : wakeEnabled d src = true) : wakeSourceDev src d =
    if (wakeTargets d src).any (fun n => ((d.dom n).state != .on || (d.dom n).entering) && !(d.dom n).wakes) then
      wakeBatch (wakeTargets d src) (sourceRecorded src d)
    else { d with pwr := { d.pwr with dets := upd d.pwr.dets src (fun x => { x with count := 0 }) } } := by
  unfold wakeSourceDev
  dsimp only
  rw [hen, bne_iff_ne.2 hstage, if_neg (by decide)]
  rfl

theorem wakeSourceDev_of_disabled {d : Dev} {src : Nat} (h : wakeEnabled d src = false) : wakeSourceDev src d = d := by
  unfold wakeSourceDev
  rw [h, Bool.and_false]
  rfl

theorem sourceRecorded_flags (src : Nat) (d : Dev) :
    (sourceRecorded src d).reg Reg.PWR_WAKE_LAST = BitVec.ofNat 32 src ∧ (sourceRecorded src d).flag Reg.PWR_IRQ_STAT 3 = true := by
  unfold sourceRecorded
  exact ⟨by rw [Dev.reg_putFlag_ne _ _ _ _ _ (by decide), Dev.reg_putReg_same], Dev.flag_putFlag_same _ _ _ _ (by decide)⟩

section
variable {d : Dev} {src n : Nat} (hstage : d.stage ≠ 0) (hen : wakeEnabled d src = true) (htargets : wakeTargets d src = [n])
  (hpre : ∀ m, m ∈ allPrereqs n → (d.dom m).state = .on ∧ (d.dom m).phase = .rest)
include hstage hen htargets hpre

theorem wakeSourceDev_one (hdue : (((d.dom n).state != .on || (d.dom n).entering) && !(d.dom n).wakes) = true) : ∃ b w arb,
    w.pwr.doms = d.pwr.doms ∧ w.mem = d.mem ∧ w.reg Reg.PWR_WAKE_LAST = BitVec.ofNat 32 src ∧ w.flag Reg.PWR_IRQ_STAT 3 = true ∧
    wakeSourceDev src d = { controllerPass (wakeOne b n w) with pwr := { (controllerPass (wakeOne b n w)).pwr with arb := arb } } := by
  obtain ⟨arb, hbatch⟩ := wakeBatch_one (n := n) (d := sourceRecorded src d) hpre
  refine ⟨(newBatch (sourceRecorded src d)).pwr.batch, newBatch (sourceRecorded src d), arb, rfl, rfl, (sourceRecorded_flags src d).1, (sourceRecorded_flags src d).2, ?_⟩
  rw [wakeSourceDev_eq hstage hen, htargets, if_pos (by simpa using hdue), hbatch]

theorem wakeSourceDev_wakes (hstate : (d.dom n).state ≠ .on) (hphase : (d.dom n).phase = .rest) (hlisted : n < d.pwr.doms.length) :
    (wakeSourceDev src d).reg Reg.PWR_WAKE_LAST = BitVec.ofNat 32 src ∧ (wakeSourceDev src d).flag Reg.PWR_IRQ_STAT 3 = true ∧
      ((wakeSourceDev src d).dom n).phase = .waking ∧ n ∈ (wakeSourceDev src d).pwr.ready ∧
      ((wakeSourceDev src d).dom n).state = (d.dom n).state ∧ (wakeSourceDev src d).mem = d.mem := by
  have hdue : (((d.dom n).state != .on || (d.dom n).entering) && !(d.dom n).wakes) = true := by
    rw [bne_iff_ne.2 hstate, Domain.wakes, hphase]
    rfl
  obtain ⟨b, w, arb, hdoms, hmem, hlast, hirq, heq⟩ := wakeSourceDev_one hstage hen htargets hpre hdue
  have hwdom := Dev.dom_of_doms hdoms n
  set u := wakeOne b n w with hu
  have hwake : u = makeReady n (w.modDom n (fun x => { x with
      phase := .waking, batch := b, attempts := 0, cold := x.state != .ret, wokeFrom := x.state })) :=
    wakeOne_rest (by rw [hwdom, hphase]) (by rw [hwdom]; exact hstate)
  have hudom : u.dom n = { d.dom n with phase := .waking, batch := b, attempts := 0, cold := (d.dom n).state != .ret, wokeFrom := (d.dom n).state } := by
    rw [hwake, ← hwdom]
    exact Dev.dom_modDom_same (d := w) _ (hlisted.trans_eq (congrArg List.length hdoms).symm)
  have huready : n ∈ u.pwr.ready := by
    rw [hwake]
    simp [makeReady]
  have huregs : u.regs = w.regs := by rw [hwake]; rfl
  have humem : u.mem = w.mem := by rw [hwake]; rfl
  have hnot (t : DomState) : (u.dom n).phase ≠ .asked t := by rw [hudom]; exact nofun
  have hkeeps := controllerPass_keepsDom hnot
  have hholds := controllerPass_holds hnot
  have hpassMem : (controllerPass u).mem = u.mem := by simp
  generalize controllerPass u = v at heq hkeeps hholds hpassMem
  have hdom : (wakeSourceDev src d).dom n = u.dom n := by rw [heq]; exact hkeeps.dom
  rw [hdom, hudom, heq]
  refine ⟨?_, hholds.irq 3 ?_, rfl, hholds.ready huready, rfl, hpassMem.trans (humem.trans hmem)⟩
  · exact (hkeeps.regs _ (by decide)).trans ((Dev.reg_of_regs huregs _).trans hlast)
  · rw [Dev.flag, Dev.reg_of_regs huregs]
    exact hirq

/-- A target's entry that waits for its handshake is withdrawn. -/
theorem wakeSourceDev_withdraws {t : DomState} (hstate : (d.dom n).state = .on) (hphase : (d.dom n).phase = .asked t) (hlisted : n < d.pwr.doms.length) :
    ((wakeSourceDev src d).dom n).phase = .rest ∧ ((wakeSourceDev src d).dom n).result = 3 ∧ ((wakeSourceDev src d).dom n).state = .on ∧
      (wakeSourceDev src d).flag Reg.PWR_IRQ_STAT 3 = true := by
  have hdue : (((d.dom n).state != .on || (d.dom n).entering) && !(d.dom n).wakes) = true := by
    rw [hstate, Domain.entering, Domain.idle, Domain.wakes, hphase]
    rfl
  obtain ⟨b, w, arb, hdoms, -, -, hirq, heq⟩ := wakeSourceDev_one hstage hen htargets hpre hdue
  have hwdom := Dev.dom_of_doms hdoms n
  rw [wakeOne_asked (by rw [hwdom, hphase])] at heq
  set u := settle n 3 0 w with hu
  have hudom : u.dom n = (d.dom n).settled 3 0 := by
    rw [hu, settle_dom_same n 3 0 w (hlisted.trans_eq (congrArg List.length hdoms).symm), hwdom]
  have hnot (t : DomState) : (u.dom n).phase ≠ .asked t := by rw [hudom]; exact nofun
  have hkeeps := controllerPass_keepsDom hnot
  have hholds := controllerPass_holds hnot
  generalize controllerPass u = v at heq hkeeps hholds
  have hdom : (wakeSourceDev src d).dom n = u.dom n := by rw [heq]; exact hkeeps.dom
  rw [hdom, hudom, heq]
  exact ⟨rfl, rfl, hstate, hholds.irq 3 (settle_irq n 3 0 w hirq)⟩

/-- A target whose entry is acknowledged wakes behind it. -/
theorem wakeSourceDev_follows {t : DomState} (hstate : (d.dom n).state = .on) (hphase : (d.dom n).phase = .acked t) (hlisted : n < d.pwr.doms.length) :
    ((wakeSourceDev src d).dom n).phase = .acked t ∧ ((wakeSourceDev src d).dom n).wakeNext.isSome = true ∧
      ((wakeSourceDev src d).dom n).entryNext = none ∧ (wakeSourceDev src d).flag Reg.PWR_IRQ_STAT 3 = true := by
  have hdue : (((d.dom n).state != .on || (d.dom n).entering) && !(d.dom n).wakes) = true := by
    rw [hstate, Domain.entering, Domain.idle, Domain.wakes, hphase]
    rfl
  obtain ⟨b, w, arb, hdoms, -, -, hirq, heq⟩ := wakeSourceDev_one hstage hen htargets hpre hdue
  have hwdom := Dev.dom_of_doms hdoms n
  rw [wakeOne_acked (by rw [hwdom, hphase])] at heq
  set u := w.modDom n (fun x => { x with wakeNext := some b, entryNext := none, result := if x.entryNext.isSome then 3 else x.result }) with hu
  have hudom : u.dom n = { d.dom n with wakeNext := some b, entryNext := none, result := if (d.dom n).entryNext.isSome then 3 else (d.dom n).result } := by
    rw [hu, Dev.dom_modDom_same _ (hlisted.trans_eq (congrArg List.length hdoms).symm), hwdom]
  have hnot (t : DomState) : (u.dom n).phase ≠ .asked t := by rw [hudom]; exact fun h => DomPhase.noConfusion (hphase.symm.trans h)
  have hkeeps := controllerPass_keepsDom hnot
  have hholds := controllerPass_holds hnot
  generalize controllerPass u = v at heq hkeeps hholds
  have hdom : (wakeSourceDev src d).dom n = u.dom n := by rw [heq]; exact hkeeps.dom
  rw [hdom, hudom, heq]
  exact ⟨hphase, rfl, rfl, hholds.irq 3 hirq⟩

end

/-! ### One detector changed (R486) -/

/-- The device with detector n changed. -/
def Dev.modDet (d : Dev) (n : Nat) (f : WakeDet → WakeDet) : Dev := { d with pwr := { d.pwr with dets := upd d.pwr.dets n f } }

theorem modDet_ne (d : Dev) {n k : Nat} (f : WakeDet → WakeDet) (h : k ≠ n) : (d.modDet n f).pwr.dets[k]? = d.pwr.dets[k]? :=
  List.getElem?_modify_ne f _ h.symm

theorem modDet_same {d : Dev} {n : Nat} (f : WakeDet → WakeDet) (h : n < d.pwr.dets.length) :
    at_ (d.modDet n f).pwr.dets n ⟨false, 0⟩ = f (at_ d.pwr.dets n ⟨false, 0⟩) := (at_upd _ _ _ _ _ h).trans (if_pos rfl)

/-- What the count of a detector's pulses becomes. -/
def pulseCount (d : Dev) (n width gap : Nat) : Nat :=
  if width < d.fld (Reg.PWR_WAKE_WIN n) 15 0 ∨ d.fld (Reg.PWR_WAKE_WIN n) 31 16 < width then 0
  else if 4 * d.fld (Reg.PWR_WAKE_WIN n) 31 16 < gap ∨ d.fld (Reg.PWR_WAKE_SP n) 3 2 < (at_ d.pwr.dets n ⟨false, 0⟩).count then 1
  else (at_ d.pwr.dets n ⟨false, 0⟩).count + 1

theorem wakePatternPulseDev_eq {d : Dev} {n : Nat} (width gap : Nat) (hn : n < 4) (hmode : d.fld (Reg.PWR_WAKE_SP n) 1 0 = 2)
    (harmed : (at_ d.pwr.dets n ⟨false, 0⟩).disarmed = false) :
    wakePatternPulseDev n width gap d = d.modDet n (fun x => { x with count := pulseCount d n width gap }) := by
  have hcount : (if d.fld (Reg.PWR_WAKE_WIN n) 15 0 ≤ width ∧ width ≤ d.fld (Reg.PWR_WAKE_WIN n) 31 16 then
      (if 4 * d.fld (Reg.PWR_WAKE_WIN n) 31 16 < gap ∨ d.fld (Reg.PWR_WAKE_SP n) 3 2 + 1 ≤ (at_ d.pwr.dets n ⟨false, 0⟩).count then 0
        else (at_ d.pwr.dets n ⟨false, 0⟩).count) + 1
      else 0) = pulseCount d n width gap := by
    unfold pulseCount
    by_cases hin : d.fld (Reg.PWR_WAKE_WIN n) 15 0 ≤ width ∧ width ≤ d.fld (Reg.PWR_WAKE_WIN n) 31 16
    · rw [if_pos hin, if_neg (c := width < d.fld (Reg.PWR_WAKE_WIN n) 15 0 ∨ d.fld (Reg.PWR_WAKE_WIN n) 31 16 < width) (by omega)]
      simp only [Nat.add_one_le_iff]
      split <;> rfl
    · rw [if_neg hin, if_pos (by omega)]
  unfold wakePatternPulseDev
  dsimp only
  rw [decide_eq_true hn, hmode, harmed, if_neg (by decide), hcount]
  rfl

theorem wakeEnabled_pattern {d : Dev} {n : Nat} (hn : n < 4) (hmode : d.fld (Reg.PWR_WAKE_SP n) 1 0 = 2) : wakeEnabled d n = true ↔
    ((at_ d.pwr.dets n ⟨false, 0⟩).disarmed = false ∧ (at_ d.pwr.dets n ⟨false, 0⟩).count = d.fld (Reg.PWR_WAKE_SP n) 3 2 + 1) := by
  unfold wakeEnabled
  rw [if_pos hn]
  simp [hmode]

/-! ### The statement -/

/-- Settles O48: a failed attempt and the FAILED domain by their changes of the controller's table; a source that fires by the wake it asks for, which
the controller's pass leaves; a detector by the change of its entry. -/
theorem wakesRetryAndSourcesFire : Obligations.WakesRetryAndSourcesFire := by
  refine ⟨⟨fun s n st f hphase hstep => ?failed, fun s n hphase => devNext_same (f := wakeStepTimeoutDev n 2) (wakeStepTimeoutDev_of_rest 2 hphase),
    fun s n hphase => ?retry, fun s n hphase => devNext_same (f := wakeRetryDev n) (wakeRetryDev_other hphase)⟩,
    fun s src n hstage hen htargets hstate hphase hpre hlisted => ?wakes,
    fun s src n t hstage hen htargets hstate hpre hlisted => ⟨fun hphase => ?withdraws, fun hphase => ?follows⟩,
    fun s src hen => devNext_same (f := wakeSourceDev src) (wakeSourceDev_of_disabled hen), fun s src hen hstage hidle => ?ignored,
    fun d n hn hmode => wakeEnabled_pattern hn hmode, fun s n width gap hn hlen hmode harmed => ?pulse, fun s n hlen => ?rearm⟩
  case failed =>
    have hst : st = 2 ∨ n = Dom.ctrl ∧ st = 3 := hstep.imp And.left fun ⟨hn, hst, _⟩ => ⟨hn, hst⟩
    have hf : failCode st = f := by obtain ⟨rfl, rfl⟩ | ⟨-, rfl, rfl⟩ := hstep <;> rfl
    refine ⟨fun hattempts => ?_, fun hattempts => ?_⟩
    · rw [yields_devNext (f := wakeStepTimeoutDev n st) _ rfl]
      exact wakeStepTimeoutDev_retries hphase hst hf hattempts
    · rw [yields_devNext (f := wakeStepTimeoutDev n st) _ rfl]
      exact wakeStepTimeoutDev_fails hphase hst hf hattempts
  case retry =>
    rw [yields_devNext (f := wakeRetryDev n) _ rfl, wakeRetryDev_waiting hphase]
    exact ⟨Dev.dom_modDom_same _ (Dev.dom_listed (by rw [hphase]; decide)), fun m hm => Dev.dom_modDom_ne s.dev _ hm, rfl, rfl⟩
  case wakes =>
    rw [yields_devNext (f := wakeSourceDev src) _ rfl]
    exact wakeSourceDev_wakes hstage hen htargets hpre hstate hphase hlisted
  case withdraws =>
    rw [yields_devNext (f := wakeSourceDev src) _ rfl]
    exact wakeSourceDev_withdraws hstage hen htargets hpre hstate hphase hlisted
  case follows =>
    rw [yields_devNext (f := wakeSourceDev src) _ rfl]
    exact wakeSourceDev_follows hstage hen htargets hpre hstate hphase hlisted
  case ignored =>
    have hnone : (wakeTargets s.dev src).any (fun n => ((s.dev.dom n).state != .on || (s.dev.dom n).entering) && !(s.dev.dom n).wakes) = false := by
      refine List.any_eq_false.2 fun n hn => ?_
      obtain ⟨hstate, hentering⟩ | hwakes := hidle n hn
      · simp [hstate, hentering]
      · simp [hwakes]
    rw [yields_devNext (f := wakeSourceDev src) _ rfl, wakeSourceDev_eq hstage hen, if_neg (by rw [hnone]; decide)]
    refine ⟨rfl, fun k hk => modDet_ne s.dev _ hk, ?_⟩
    by_cases hlen : src < s.dev.pwr.dets.length
    · exact congrArg WakeDet.count (modDet_same (fun x => { x with count := 0 }) hlen)
    · have hlen' : (s.dev.modDet src (fun x => { x with count := 0 })).pwr.dets.length ≤ src := (upd_length ..).trans_le (Nat.le_of_not_lt hlen)
      exact congrArg WakeDet.count (List.getD_eq_default _ _ hlen')
  case pulse =>
    rw [yields_devNext (f := wakePatternPulseDev n width gap) _ rfl, wakePatternPulseDev_eq width gap hn hmode harmed]
    have hsame := modDet_same (d := s.dev) (fun x => { x with count := pulseCount s.dev n width gap }) hlen
    exact ⟨rfl, fun k hk => modDet_ne s.dev _ hk, (congrArg WakeDet.disarmed hsame).trans harmed, congrArg WakeDet.count hsame⟩
  case rearm =>
    rw [yields_devNext (f := wakeDetectorRearmDev n) _ rfl]
    exact ⟨rfl, congrArg WakeDet.disarmed (modDet_same (d := s.dev) (fun x => { x with disarmed := false }) hlen), fun k hk => modDet_ne s.dev _ hk⟩

end Sys2Proof.Machine
end

section
/-! PROOF. Leaving a chain, a lost hop and a configuration error, and the statement on the link (R528, R541, R542). -/

namespace Sys2Proof.Machine

open Sys2Proof

/-! ### Packets lost -/

/-- The registers that a packet lost changes. -/
def dropRegsCas : List Nat := [Reg.CAS_CNT_PKT_DROP, Reg.CAS_IRQ_STAT]

/-- Only registers of a list changed, and no bit of CAS_IRQ_STAT fell. -/
structure CasFlagged (l : List Nat) (d e : Dev) : Prop where
  regs : RegsOnly l d e
  irq : ∀ n, d.flag Reg.CAS_IRQ_STAT n = true → e.flag Reg.CAS_IRQ_STAT n = true

namespace CasFlagged

variable {l : List Nat} {d e f : Dev}

theorem refl (l : List Nat) (d : Dev) : CasFlagged l d d := ⟨.refl l d, fun _ => id⟩

theorem trans (h : CasFlagged l d e) (k : CasFlagged l e f) : CasFlagged l d f := ⟨h.regs.trans k.regs, fun n hn => k.irq n (h.irq n hn)⟩

theorem tail (h : CasFlagged l d e) (k : f.regs = e.regs) : CasFlagged l d f :=
  ⟨h.regs.tail k, fun n hn => (RegsOnly.flag (l := []) (.of_regs k) (by simp) n).trans (h.irq n hn)⟩

theorem of_regsOnly (h : RegsOnly l d e) (hl : Reg.CAS_IRQ_STAT ∉ l) : CasFlagged l d e := ⟨h, fun n hn => (h.flag hl n).trans hn⟩

theorem mono {r : List Nat} (h : CasFlagged l d e) (hl : l ⊆ r) : CasFlagged r d e := ⟨h.regs.mono hl, h.irq⟩

end CasFlagged

theorem casIrq_flagged {l : List Nat} (h : Reg.CAS_IRQ_STAT ∈ l) {n : Nat} (hn : n < 32) (d : Dev) : CasFlagged l d (casIrq n d) := by
  refine ⟨setIrq_regs d Dom.cas n h, fun m hm => ?_⟩
  unfold casIrq Dev.setIrq
  split
  · exact Dev.flag_putFlag_set hn hm
  · exact hm

theorem packetDrop_flagged (n : Nat) (d : Dev) : CasFlagged dropRegsCas d (packetDrop n d) := by
  unfold packetDrop
  split
  · exact .refl _ d
  · have hbump : CasFlagged dropRegsCas d (d.bumpBy Reg.CAS_CNT_PKT_DROP n) :=
      ⟨.bumpBy d n (by simp [dropRegsCas]), fun m hm => (congrArg (·.getLsbD m) (Dev.reg_bumpBy_ne d _ _ _ (by decide))).trans hm⟩
    exact hbump.trans (casIrq_flagged (by simp [dropRegsCas]) (by decide) _)

/-! ### A worker leaves its chain (R542) -/

/-- The registers that a worker's leaving changes. -/
def leaveRegs : List Nat := [Reg.GLB_PS_COLLIDE, Reg.GLB_CNT_PS_COLLIDE, Reg.CAS_CNT_PKT_DROP, Reg.CAS_IRQ_STAT]

/-- One pool voice as its worker leaves the chain. -/
def leaveVoice (v : Nat) (d : Dev) : Dev :=
  let x := d.voice v
  if x.state = .arming then toQuench v d
  else if x.held then toStealing v (readPart d x.part).fade d else d

/-- The pool voices of a worker's own slots. -/
def poolVoices (d : Dev) : List Nat := (List.range 256).filter (fun v => (d.voice v).pool)

theorem mem_poolVoices {d : Dev} {v : Nat} : v ∈ poolVoices d ↔ v < 256 ∧ (d.voice v).pool = true := by simp [poolVoices]

/-- The cascade state as a worker leaves its chain. -/
def leftCas (c : Cas) : Cas := { c with
  adopted := false, upReady := false, outIn := none, outPrev := none, freed := [], levelAt := 0, forward := []
  inBytes := [], up := { c.up with sending := false } }

theorem leaveChain_eq (d : Dev) : leaveChain d = (packetDrop (d.cas.forward.length + (if byteAt d.cas.inBytes 368 = 0 then 0 else 1))
    (forEach (poolVoices d) leaveVoice d)).modCas leftCas := rfl

theorem psV_regs_only (d : Dev) (a : Nat) (bs : List Byte) : RegsOnly [Reg.GLB_PS_COLLIDE, Reg.GLB_CNT_PS_COLLIDE] d (d.psV a bs) := by
  set e := d.psRaw a (if d.port.hwords.isEmpty then bs else d.underH a bs) with he
  exact RegsOnly.trans (d := d) (e := e) (.of_regs rfl) ((collideV_regs_only (wordsOf a bs.length) e).tail rfl)

theorem setVoice_flagged (v : Nat) (f : Voice → Voice) (d : Dev) : CasFlagged leaveRegs d (setVoice v f d) := by
  unfold setVoice mirrorVoice
  split
  · refine .mono (l := [Reg.GLB_PS_COLLIDE, Reg.GLB_CNT_PS_COLLIDE]) (.of_regsOnly ?_ (by decide)) (by simp [leaveRegs])
    exact RegsOnly.trans (d := d) (e := d.modVoice v f) (.of_regs rfl) (psV_regs_only _ _ _)
  · exact .tail (.refl _ d) rfl

theorem leaveVoice_flagged {v : Nat} (hv : v < 256) (d : Dev) : CasFlagged leaveRegs d (leaveVoice v d) := by
  unfold leaveVoice toQuench toStealing
  dsimp only
  rw [if_pos (show ownSlot v = true by simpa [ownSlot] using hv), if_pos (show ownSlot v = true by simpa [ownSlot] using hv)]
  split
  · split
    · exact .refl _ d
    · exact (setVoice_flagged v _ d).tail (clusterQuench_keeps v _).1
  · split
    · exact setVoice_flagged v _ d
    · exact .refl _ d

theorem leaveVoice_cas {v : Nat} (hv : v < 256) (d : Dev) : (leaveVoice v d).cas = d.cas := by
  unfold leaveVoice toQuench toStealing
  dsimp only
  rw [if_pos (show ownSlot v = true by simpa [ownSlot] using hv), if_pos (show ownSlot v = true by simpa [ownSlot] using hv)]
  split
  · split <;> simp
  · split <;> simp

theorem leaveVoice_frame (v : Nat) (d : Dev) : (leaveVoice v d).frame = d.frame := by
  unfold leaveVoice toQuench toStealing
  dsimp only
  repeat' split
  all_goals simp

/-- One voice, the count of slots and the frame timer are kept. -/
structure SlotKept (v : Nat) (d e : Dev) : Prop where
  voice : e.voice v = d.voice v
  slots : e.par.voices.length = d.par.voices.length
  frame : e.frame = d.frame

theorem SlotKept.refl (v : Nat) (d : Dev) : SlotKept v d d := ⟨rfl, rfl, rfl⟩

theorem SlotKept.trans {v : Nat} {d e f : Dev} (h : SlotKept v d e) (k : SlotKept v e f) : SlotKept v d f :=
  ⟨k.voice.trans h.voice, k.slots.trans h.slots, k.frame.trans h.frame⟩

theorem leaveVoice_only (v : Nat) (d : Dev) : VoiceOnly v d (leaveVoice v d) :=
  .ite (toQuench_only v d) (.ite (toStealing_only v _ d) (.refl v d))

theorem leaveVoice_slotKept {u v : Nat} (h : u ≠ v) (d : Dev) : SlotKept v d (leaveVoice u d) :=
  ⟨(leaveVoice_only u d).others v h.symm, (leaveVoice_only u d).slots, leaveVoice_frame u d⟩

theorem leaveVoice_fades {v : Nat} {d : Dev} (hlen : v < d.par.voices.length)
    (hst : (d.voice v).state = .sounding ∨ (d.voice v).state = .releasing) :
    ((leaveVoice v d).voice v).state = .stealing ∧ ((leaveVoice v d).voice v).fadeAt = d.now := by
  have hheld : (d.voice v).held = true := by
    rcases hst with h | h <;> simp [Voice.held, h]
  have harm : (d.voice v).state ≠ .arming := by
    rcases hst with h | h <;> rw [h] <;> decide
  unfold leaveVoice
  dsimp only
  rw [if_neg harm, if_pos hheld, voice_of_modVoice (toStealing_voices v _ d) hlen]
  exact ⟨rfl, rfl⟩

/-- Every sounding pool voice has entered its steal fade. -/
def PoolFades (d e : Dev) : Prop := ∀ v, v < 256 → v < d.par.voices.length → (d.voice v).pool = true →
  (d.voice v).state = .sounding ∨ (d.voice v).state = .releasing → (e.voice v).state = .stealing ∧ (e.voice v).fadeAt = d.now

theorem PoolFades.of_par {d e f : Dev} (h : PoolFades d e) (k : f.par = e.par) : PoolFades d f := fun v hv hlen hpool hst => by
  rw [Dev.voice_of_par k]
  exact h v hv hlen hpool hst

theorem PoolFades.of_same {c d e : Dev} (h : PoolFades d e) (hpar : c.par = d.par) (hframe : c.frame = d.frame) : PoolFades c e :=
  fun v hv hlen hpool hst => by
    rw [Dev.voice_of_par hpar] at hpool hst
    rw [show c.now = d.now from congrArg Frame.ef hframe]
    exact h v hv (hpar ▸ hlen) hpool hst

theorem leaveVoices_fade (d : Dev) : PoolFades d (forEach (poolVoices d) leaveVoice d) := by
  intro v hv hlen hpool hst
  obtain ⟨e, hbefore, hafter⟩ := forEach_split (R := SlotKept v) (.refl v) .trans (List.nodup_range.filter _)
    (mem_poolVoices.2 ⟨hv, hpool⟩) leaveVoice (fun _ hu d => leaveVoice_slotKept hu d) d
  unfold poolVoices
  rw [hafter.voice, show d.now = e.now from congrArg Frame.ef hbefore.frame.symm]
  exact leaveVoice_fades (by rwa [hbefore.slots]) (by rwa [hbefore.voice])

theorem leaveVoices_flagged (l : List Nat) (hl : ∀ v, v ∈ l → v < 256) (d : Dev) :
    CasFlagged leaveRegs d (forEach l leaveVoice d) ∧ (forEach l leaveVoice d).cas = d.cas := by
  induction l generalizing d with
  | nil => exact ⟨.refl _ d, rfl⟩
  | cons v l ih =>
    have hv := hl v List.mem_cons_self
    obtain ⟨hregs, hcas⟩ := ih (fun u hu => hl u (List.mem_cons_of_mem _ hu)) (leaveVoice v d)
    exact ⟨(leaveVoice_flagged hv d).trans hregs, hcas.trans (leaveVoice_cas hv d)⟩

/-- What a worker's leaving of its chain does. -/
structure Left (d e : Dev) : Prop where
  flagged : CasFlagged leaveRegs d e
  cas : e.cas = leftCas d.cas
  fades : PoolFades d e

theorem leaveChain_left (d : Dev) : Left d (leaveChain d) := by
  obtain ⟨hregs, hcas⟩ := leaveVoices_flagged (poolVoices d) (fun v hv => (mem_poolVoices.1 hv).1) d
  rw [leaveChain_eq]
  generalize hn : d.cas.forward.length + (if byteAt d.cas.inBytes 368 = 0 then 0 else 1) = n
  refine ⟨.tail (hregs.trans ((packetDrop_flagged n _).mono (by simp [dropRegsCas, leaveRegs]))) rfl, ?_, ?_⟩
  · exact congrArg leftCas (by simpa using hcas)
  · exact (leaveVoices_fade d).of_par (by simp)

/-! ### The hop of a locked port lost (R542) -/

/-- The hop's loss as it is counted, flagged and logged, its port reset. -/
def lossMarked (port : CasPort) (cause : Nat) (d : Dev) : Dev :=
  ((casIrq 0 (d.bump Reg.CAS_CNT_LOSS)).logEv 0x0C 0x01 2 [portCode port, cause]).modPort port
    (fun _ => { CasPortSt.reset with lossAt := some d.now })

theorem lossLogged_now (port : CasPort) (cause : Nat) (d : Dev) :
    ((casIrq 0 (d.bump Reg.CAS_CNT_LOSS)).logEv 0x0C 0x01 2 [portCode port, cause]).now = d.now := by simp [Dev.now]

theorem hopLost_downstream (cause : Nat) (d : Dev) : hopLost .downstream cause d = leaveChain (lossMarked .downstream cause d) := by
  rw [lossMarked, ← lossLogged_now .downstream cause d]
  rfl

/-- The upstream port's part of a loss. -/
def upstreamLost (d : Dev) : Dev :=
  ((packetDrop (if byteAt d.cas.outBytes 332 = 0 then 0 else 1) d).modCas (fun c => { c with
    casW := 0, inIn := none, outBytes := []
    leaving := if (packetDrop (if byteAt d.cas.outBytes 332 = 0 then 0 else 1) d).isMaster then some 1 else c.leaving })).modMix
    (fun m => { m with casIn := List.replicate 64 0 })

theorem hopLost_upstream (cause : Nat) (d : Dev) : hopLost .upstream cause d = upstreamLost (lossMarked .upstream cause d) := by
  rw [lossMarked, ← lossLogged_now .upstream cause d]
  rfl

/-- A loss's own marks: counted, flagged, logged, and nothing of the link but its port. -/
structure LossMarked (port : CasPort) (cause : Nat) (d e : Dev) : Prop where
  regs : RegsOnly [Reg.CAS_CNT_LOSS, Reg.CAS_IRQ_STAT, Reg.MGT_CNT_LOG_DROP] d e
  counts : e.fld Reg.CAS_CNT_LOSS 31 0 = min (d.fld Reg.CAS_CNT_LOSS 31 0 + 1) (2 ^ 32 - 1)
  irq : d.isOn Dom.cas = true → e.flag Reg.CAS_IRQ_STAT 0 = true
  port : e.casPort port = { CasPortSt.reset with lossAt := some d.now }

theorem lossMarked_spec (port : CasPort) (cause : Nat) (d : Dev) : LossMarked port cause d (lossMarked port cause d) := by
  have hport (u : Dev) (a : Nat) : (u.modPort port (fun _ => { CasPortSt.reset with lossAt := some d.now })).reg a = u.reg a := by
    cases port <;> rfl
  have hlog (u : Dev) (a : Nat) (ha : a ≠ Reg.MGT_CNT_LOG_DROP) : (u.logEv 0x0C 0x01 2 [portCode port, cause]).reg a = u.reg a :=
    Dev.reg_logEv_ne _ _ _ _ _ _ ha
  have hirq (a : Nat) (ha : a ≠ Reg.CAS_IRQ_STAT) : (casIrq 0 (d.bump Reg.CAS_CNT_LOSS)).reg a = (d.bump Reg.CAS_CNT_LOSS).reg a :=
    Dev.reg_setIrq_ne _ _ _ _ _ ha
  refine ⟨fun a ha => ?_, ?_, fun hon => ?_, by cases port <;> rfl⟩
  · simp only [List.mem_cons, List.not_mem_nil, or_false, not_or] at ha
    rw [lossMarked, hport, hlog _ a ha.2.2, hirq a ha.2.1, Dev.reg_bump_ne _ _ _ ha.1]
  · rw [Dev.fld, lossMarked, hport, hlog _ _ (by decide), hirq _ (by decide)]
    exact Dev.fld_bumpFld d Reg.CAS_CNT_LOSS 31 0 1 (by decide) (by decide)
  · rw [Dev.flag, lossMarked, hport, hlog _ _ (by decide)]
    exact Dev.flag_setIrq (d.bump Reg.CAS_CNT_LOSS) Dom.cas _ 0 (by decide) hon

/-- A lost hop, whichever its port: what is counted, flagged and logged, and the port's new state. -/
structure HopLost (port : CasPort) (cause : Nat) (s : State) (d e : Dev) : Prop where
  regs : RegsOnly (Reg.CAS_CNT_LOSS :: Reg.MGT_CNT_LOG_DROP :: leaveRegs) d e
  counts : e.fld Reg.CAS_CNT_LOSS 31 0 = min (d.fld Reg.CAS_CNT_LOSS 31 0 + 1) (2 ^ 32 - 1)
  irq : d.isOn Dom.cas = true → e.flag Reg.CAS_IRQ_STAT 0 = true
  logs : d.mgt = s.dev.mgt → d.frame = s.dev.frame → Logs s e 0x0C 1 2 [portCode port, cause]
  port : e.casPort port = { CasPortSt.reset with lossAt := some d.now }

theorem lossMarked_logs {s : State} {port : CasPort} {cause : Nat} {d e : Dev} (hm : d.mgt = s.dev.mgt) (hf : d.frame = s.dev.frame)
    (he : e.mgt = (lossMarked port cause d).mgt) : Logs s e 0x0C 1 2 [portCode port, cause] := by
  have hlog := logs_logEv (s := s) (d := casIrq 0 (d.bump Reg.CAS_CNT_LOSS)) 0x0C 0x01 2 [portCode port, cause] (by simpa using hm)
    (by simpa using hf)
  have hmgt : e.mgt = ((casIrq 0 (d.bump Reg.CAS_CNT_LOSS)).logEv 0x0C 0x01 2 [portCode port, cause]).mgt := by
    rw [he, lossMarked]
    cases port <;> rfl
  unfold Logs at hlog ⊢
  rwa [hmgt]

/-- A loss's marks and a later change of the port's own registers make a lost hop. -/
theorem LossMarked.hopLost {port : CasPort} {cause : Nat} {s : State} {d e f : Dev} (h : LossMarked port cause d e)
    (k : CasFlagged leaveRegs e f) (hlogs : d.mgt = s.dev.mgt → d.frame = s.dev.frame → Logs s f 0x0C 1 2 [portCode port, cause])
    (hport : f.casPort port = e.casPort port) : HopLost port cause s d f where
  regs := (h.regs.mono (by simp [leaveRegs])).trans (k.regs.mono (by simp [leaveRegs]))
  counts := by rw [k.regs.fld (by decide), h.counts]
  irq hon := k.irq 0 (h.irq hon)
  logs := hlogs
  port := hport.trans h.port

theorem upstreamLost_flagged (d : Dev) : CasFlagged leaveRegs d (upstreamLost d) :=
  .tail ((packetDrop_flagged _ d).mono (by simp [dropRegsCas, leaveRegs])) rfl

theorem upstreamLost_up (d : Dev) : (upstreamLost d).cas.up = d.cas.up := by simp [upstreamLost, Dev.modCas]

theorem hopLost_spec (port : CasPort) (cause : Nat) (s : State) (d : Dev) : HopLost port cause s d (hopLost port cause d) := by
  have hmarked := lossMarked_spec port cause d
  cases port with
  | downstream =>
    rw [hopLost_downstream]
    have hleft := leaveChain_left (lossMarked .downstream cause d)
    refine hmarked.hopLost hleft.flagged (fun hm hf => lossMarked_logs hm hf (by simp)) ?_
    exact (congrArg Cas.down hleft.cas).trans rfl
  | upstream =>
    rw [hopLost_upstream]
    refine hmarked.hopLost (upstreamLost_flagged _) (fun hm hf => lossMarked_logs hm hf (by simp [upstreamLost])) ?_
    exact upstreamLost_up _

/-- The downstream hop lost: the worker leaves its chain. -/
theorem hopLost_downstream_leaves (cause : Nat) (d : Dev) :
    PoolFades d (hopLost .downstream cause d) ∧ (hopLost .downstream cause d).cas.adopted = false ∧
      (hopLost .downstream cause d).cas.forward = [] ∧ (hopLost .downstream cause d).mix = d.mix := by
  rw [hopLost_downstream]
  have hleft := leaveChain_left (lossMarked .downstream cause d)
  have hsame : (lossMarked .downstream cause d).par = d.par ∧ (lossMarked .downstream cause d).frame = d.frame ∧
      (lossMarked .downstream cause d).mix = d.mix := by simp [lossMarked, Dev.modPort]
  obtain ⟨hpar, hframe, hmix⟩ := hsame
  exact ⟨hleft.fades.of_same hpar.symm hframe.symm, by rw [hleft.cas]; rfl, by rw [hleft.cas]; rfl, by simp [hmix]⟩

/-- The upstream hop lost: C_n is 0, and a master's workers leave. -/
theorem hopLost_upstream_silent (cause : Nat) (d : Dev) :
    (hopLost .upstream cause d).mix = { d.mix with casIn := List.replicate 64 0 } ∧ (hopLost .upstream cause d).par = d.par ∧
      (hopLost .upstream cause d).cas.inIn = none ∧ (d.isMaster = true → (hopLost .upstream cause d).cas.leaving = some 1) := by
  rw [hopLost_upstream]
  have hsame : (lossMarked .upstream cause d).par = d.par ∧ (lossMarked .upstream cause d).mix = d.mix ∧
      (lossMarked .upstream cause d).cas.en = d.cas.en ∧ (lossMarked .upstream cause d).cas.cfg = d.cas.cfg := by
    simp [lossMarked, Dev.modPort, Dev.modCas]
  have hstrap := (lossMarked_spec .upstream cause d).regs Reg.GLB_STRAP (by decide)
  generalize lossMarked .upstream cause d = e at hsame hstrap
  obtain ⟨hpar, hmix, hen, hcfg⟩ := hsame
  refine ⟨by simp [upstreamLost, Dev.modMix, hmix], by simp [upstreamLost, hpar], by simp [upstreamLost, Dev.modCas], fun hm => if_pos ?_⟩
  have hkept := packetDrop_flagged (if byteAt e.cas.outBytes 332 = 0 then 0 else 1) e
  rw [Dev.isMaster_of (d := d) (by simpa using hen) (by simpa using hcfg) ((hkept.regs _ (by decide)).trans hstrap), hm]

/-! ### A configuration error (R528) -/

/-- What a configuration error does, from the state in which a joined worker has left. -/
structure ConfigError (s : State) (d e : Dev) : Prop where
  regs : RegsOnly (Reg.MGT_CNT_LOG_DROP :: leaveRegs) d e
  irq : d.isOn Dom.cas = true → e.flag Reg.CAS_IRQ_STAT 2 = true
  logs : d.mgt = s.dev.mgt → d.frame = s.dev.frame → Logs s e 0x0C 3 3 [d.chainPos, d.chainLen]
  link : e.cas.cfgErr = true ∧ e.cas.en = d.cas.en ∧ e.cas.cfg = d.cas.cfg
  ports : e.cas.up = CasPortSt.reset ∧ e.cas.down = CasPortSt.reset
  mix : e.mix = { d.mix with casIn := List.replicate 64 0 }

/-- The device once a joined worker has left its chain. -/
def leftIfJoined (d : Dev) : Dev := if d.cas.down.locked then leaveChain d else d

theorem leftIfJoined_spec (d : Dev) : CasFlagged leaveRegs d (leftIfJoined d) ∧ (leftIfJoined d).cas.en = d.cas.en ∧
    (leftIfJoined d).cas.cfg = d.cas.cfg ∧ (leftIfJoined d).mgt = d.mgt ∧ (leftIfJoined d).frame = d.frame ∧
      (leftIfJoined d).mix = d.mix ∧ (leftIfJoined d).pwr = d.pwr := by
  unfold leftIfJoined
  split
  · have hleft := leaveChain_left d
    exact ⟨hleft.flagged, by rw [hleft.cas]; rfl, by rw [hleft.cas]; rfl, by simp, by simp, by simp, by simp⟩
  · exact ⟨.refl _ d, rfl, rfl, rfl, rfl, rfl, rfl⟩

/-- The lanes of a device with a configuration error. -/
def errCas (c : Cas) : Cas := { c with
  cfgErr := true, up := CasPortSt.reset, down := CasPortSt.reset, outIn := none, outPrev := none, inIn := none, outBytes := []
  casW := 0 }

theorem cfgError_spec (s : State) (d : Dev) : ConfigError s d (cfgError d) := by
  obtain ⟨hleft, hen, hcfg, hmgt, hframe, hmix, hpwr⟩ := leftIfJoined_spec d
  have heq : cfgError d = (casIrq 2 (((leftIfJoined d).modCas errCas).modMix (fun m => { m with casIn := List.replicate 64 0 }))).logEv
      0x0C 0x03 3 [((leftIfJoined d).modCas errCas).chainPos, ((leftIfJoined d).modCas errCas).chainLen] := rfl
  rw [heq]
  generalize leftIfJoined d = e at *
  set f : Dev := (e.modCas errCas).modMix (fun m => { m with casIn := List.replicate 64 0 }) with hf
  have hpos : (e.modCas errCas).chainPos = d.chainPos := hleft.regs.fld (by decide) 7 5
  have hlen : (e.modCas errCas).chainLen = d.chainLen := by rw [Dev.chainLen, Dev.chainLen, ← hcfg]; rfl
  have hirq := casIrq_flagged (l := leaveRegs) (by decide) (n := 2) (by decide) f
  refine ⟨fun a ha => ?_, fun hon => ?_, fun hm hf => ?_, ?_, ?_, ?_⟩
  · obtain ⟨hdrop, hrest⟩ := not_or.mp (List.mem_cons.not.mp ha)
    rw [Dev.reg_logEv_ne _ _ _ _ _ _ hdrop, hirq.regs a hrest]
    exact hleft.regs a hrest
  · rw [Dev.flag, Dev.reg_logEv_ne _ _ _ _ _ _ (by decide)]
    exact Dev.flag_setIrq f Dom.cas _ 2 (by decide) ((Dev.isOn_of_pwr d f hpwr Dom.cas).trans hon)
  · rw [hpos, hlen]
    exact logs_logEv _ _ _ _ (by simpa [f] using hmgt.trans hm) (by simpa [f] using hframe.trans hf)
  · simpa [f, errCas, Dev.modCas] using ⟨hen, hcfg⟩
  · simp [f, errCas, Dev.modCas]
  · simp [f, Dev.modMix, hmix]

/-! ### EN set and cleared (R528) -/

theorem linkEnableDev_eq {v : Word} {d : Dev} (hon : d.isOn Dom.cas = true) (hen : d.cas.en = false) (hv : v.getLsbD 0 = true) :
    linkEnableDev v d = linkOn (d.putReg Reg.CAS_CTL (v &&& 3)) := by
  simp [linkEnableDev, casCtlWrite, hon, hen, hv]

theorem linkDisableDev_eq {v : Word} {d : Dev} (hon : d.isOn Dom.cas = true) (hen : d.cas.en = true) (hv : v.getLsbD 0 = false) :
    linkDisableDev v d = linkOff (d.putReg Reg.CAS_CTL (v &&& 3)) := by
  have hbit : v[0] = false := hv
  simp [linkDisableDev, casCtlWrite, hon, hen, hbit]

/-- The link as EN takes CAS_CFG. -/
def enabledLink (d : Dev) : Dev := d.modCas (fun _ => { Cas.reset with en := true, cfg := d.reg Reg.CAS_CFG })

theorem linkOn_eq (d : Dev) : linkOn d = if (enabledLink d).chainLen < 2 ∨ (enabledLink d).chainLen ≤ d.chainPos then cfgError (enabledLink d)
    else enabledLink d := rfl

theorem enabledLink_len (d : Dev) : (enabledLink d).chainLen = (d.reg Reg.CAS_CFG).bits 2 0 + 1 := rfl

/-- A device that is not joined keeps its memory and its Parlour at a configuration error. -/
theorem cfgError_unjoined {d : Dev} (h : d.cas.down.locked = false) : (cfgError d).mem = d.mem ∧ (cfgError d).par = d.par := by
  have heq : cfgError d = (casIrq 2 ((d.modCas errCas).modMix (fun m => { m with casIn := List.replicate 64 0 }))).logEv
      0x0C 0x03 3 [d.chainPos, d.chainLen] := by
    unfold cfgError
    rw [if_neg (by simp [h])]
    rfl
  rw [heq]
  simp

/-- The statement's clause on EN set. -/
theorem linkOn_spec {s : State} (v : Word) (hon : s.dev.isOn Dom.cas = true) :
    let n := (s.dev.reg Reg.CAS_CFG).bits 2 0 + 1
    let d := linkOn (s.dev.putReg Reg.CAS_CTL (v &&& 3))
    d.reg Reg.CAS_CTL = v &&& 3 ∧ d.cas.en = true ∧ d.cas.cfg = s.dev.reg Reg.CAS_CFG ∧
      d.cas.cfgErr = decide (n < 2 ∨ n ≤ s.dev.chainPos) ∧
      (d.cas.cfgErr = true → d.flag Reg.CAS_IRQ_STAT 2 = true ∧ Logs s d 0x0C 3 3 [s.dev.chainPos, n]) ∧
      (d.cas.cfgErr = false → d = { s.dev with regs := d.regs, cas := d.cas } ∧ RegsKept s d [Reg.CAS_CTL]) ∧
      (d.cas.cfgErr = true → d.mix = { s.dev.mix with casIn := List.replicate 64 0 } ∧ d.cas.up = CasPortSt.reset ∧ d.cas.down = CasPortSt.reset) ∧
      d.mem = s.dev.mem ∧ d.par = s.dev.par ∧ d.frame = s.dev.frame := by
  have hput (a : Nat) (ha : a ≠ Reg.CAS_CTL) : (s.dev.putReg Reg.CAS_CTL (v &&& 3)).reg a = s.dev.reg a := Dev.reg_putReg_ne _ _ _ _ ha
  have hctl : (s.dev.putReg Reg.CAS_CTL (v &&& 3)).reg Reg.CAS_CTL = v &&& 3 := Dev.reg_putReg_same _ _ _
  have hpos : (s.dev.putReg Reg.CAS_CTL (v &&& 3)).chainPos = s.dev.chainPos := congrArg (Word.bits · 7 5) (hput _ (by decide))
  have hcfg := hput Reg.CAS_CFG (by decide)
  intro n d
  have hlen : (enabledLink (s.dev.putReg Reg.CAS_CTL (v &&& 3))).chainLen = n := by rw [enabledLink_len, hcfg]
  by_cases hbad : n < 2 ∨ n ≤ s.dev.chainPos
  · have hd : d = cfgError (enabledLink (s.dev.putReg Reg.CAS_CTL (v &&& 3))) := by
      simp only [d, linkOn_eq, hlen, hpos, if_pos hbad]
    have herr := cfgError_spec s (enabledLink (s.dev.putReg Reg.CAS_CTL (v &&& 3)))
    obtain ⟨hmem, hpar⟩ := cfgError_unjoined (d := enabledLink (s.dev.putReg Reg.CAS_CTL (v &&& 3))) rfl
    have hframe := (cfgError_keeps (enabledLink (s.dev.putReg Reg.CAS_CTL (v &&& 3)))).2.1
    rw [← hd] at herr hmem hpar hframe
    obtain ⟨hregs, hirq, hlogs, ⟨hcfgErr, hen, hcfg'⟩, ⟨hup, hdown⟩, hmix⟩ := herr
    have hlogs' : Logs s d 0x0C 3 3 [s.dev.chainPos, n] := by
      have h := hlogs rfl rfl
      rwa [hlen, show (enabledLink (s.dev.putReg Reg.CAS_CTL (v &&& 3))).chainPos = s.dev.chainPos from hpos] at h
    refine ⟨(hregs _ (by decide)).trans hctl, hen, hcfg'.trans hcfg, hcfgErr.trans (decide_eq_true hbad).symm, fun _ => ⟨hirq hon, hlogs'⟩,
      fun h => absurd (hcfgErr.symm.trans h) (by simp), fun _ => ⟨hmix, hup, hdown⟩, hmem, hpar, hframe⟩
  · have hd : d = enabledLink (s.dev.putReg Reg.CAS_CTL (v &&& 3)) := by
      simp only [d, linkOn_eq, hlen, hpos, if_neg hbad]
    have hok : d.cas.cfgErr = false := by rw [hd]; rfl
    rw [hd] at hok ⊢
    exact ⟨hctl, rfl, hcfg, (decide_eq_false hbad).symm, fun h => absurd (hok.symm.trans h) (by simp),
      fun _ => ⟨rfl, fun a ha => hput a (by simpa using ha)⟩, fun h => absurd (hok.symm.trans h) (by simp), rfl, rfl, rfl⟩

/-- A worker's leaving where the device is one. -/
def leftIfWorker (d : Dev) : Dev := if d.isWorker then leaveChain d else d

/-- The chain's workers dropped where the device is a master. -/
def droppedIfMaster (d : Dev) : Dev := if d.isMaster then dropWorkers 1 d else d

theorem linkOff_eq (d : Dev) : linkOff d = ((droppedIfMaster (leftIfWorker d)).modCas (fun _ => { Cas.reset with
    offAt := if d.cas.up.sending || d.cas.down.sending then some d.now else none })).modMix (fun m => { m with casIn := List.replicate 64 0 }) := by
  have hnow : (droppedIfMaster (leftIfWorker d)).now = d.now := by
    rw [Dev.now, droppedIfMaster, leftIfWorker]
    split <;> split <;> simp [Dev.now]
  rw [← hnow]
  rfl

theorem leftIfWorker_fades {d : Dev} (h : d.isWorker = true) : PoolFades d (droppedIfMaster (leftIfWorker d)) := by
  have hleft := leaveChain_left d
  have hmaster : (leaveChain d).isMaster = false := by
    rw [Dev.isMaster_of (d := d) (by rw [hleft.cas]; rfl) (by rw [hleft.cas]; rfl) (hleft.flagged.regs _ (by decide))]
    by_contra hm
    exact absurd (not_isWorker_of_isMaster (Bool.not_eq_false _ ▸ hm)) (by simp [h])
  rw [leftIfWorker, if_pos h, droppedIfMaster, if_neg (by simp [hmaster])]
  exact hleft.fades

theorem leftIfWorker_flagged (d : Dev) : CasFlagged leaveRegs d (droppedIfMaster (leftIfWorker d)) := by
  have hleft : CasFlagged leaveRegs d (leftIfWorker d) := by
    unfold leftIfWorker
    split
    · exact (leaveChain_left d).flagged
    · exact .refl _ d
  unfold droppedIfMaster
  split
  · exact hleft.tail (by simp)
  · exact hleft

theorem leftIfWorker_mix (d : Dev) : (droppedIfMaster (leftIfWorker d)).mix = d.mix := by
  unfold droppedIfMaster leftIfWorker
  split <;> split <;> simp

/-- The statement's clause on EN cleared. -/
theorem linkOff_spec (s : State) (v : Word) :
    let d := linkOff (s.dev.putReg Reg.CAS_CTL (v &&& 3))
    d.reg Reg.CAS_CTL = v &&& 3 ∧ d.cas = { Cas.reset with
        offAt := if s.dev.cas.up.sending || s.dev.cas.down.sending then some s.dev.now else none } ∧
      d.mix = { s.dev.mix with casIn := List.replicate 64 0 } ∧ (s.dev.isWorker = true → PoolFades s.dev d) ∧
      d.frame = s.dev.frame ∧ d.alm = s.dev.alm ∧ d.outs = s.dev.outs := by
  set e := s.dev.putReg Reg.CAS_CTL (v &&& 3) with he
  have hworker : e.isWorker = s.dev.isWorker := by
    have hpos : e.chainPos = s.dev.chainPos := congrArg (Word.bits · 7 5) (Dev.reg_putReg_ne _ _ _ _ (by decide))
    rw [Dev.isWorker, hpos]
    rfl
  dsimp only
  refine ⟨?_, ?_, ?_, fun hw => ?_, by rw [(linkOff_keeps e).2.1]; rfl, by simp [e], by simp [e]⟩
  · rw [linkOff_eq]
    exact ((leftIfWorker_flagged e).regs _ (by decide)).trans (Dev.reg_putReg_same _ _ _)
  · rw [linkOff_eq]
    rfl
  · rw [linkOff_eq]
    exact congrArg (fun m : Mix => { m with casIn := List.replicate 64 0 }) (leftIfWorker_mix e)
  · rw [linkOff_eq]
    exact ((leftIfWorker_fades (hworker.trans hw)).of_par rfl).of_same rfl rfl

/-! ### The statement -/

theorem rxAlignmentDev_rested {port : CasPort} {d : Dev} (hruns : linkRuns d = true)
    (h : ∀ e, (d.casPort port).lossAt = some e → 1 ≤ efSince d.now e) :
    rxAlignmentDev port d = d.modPort port (fun p => { p with aligned := true, lossAt := none }) := by
  unfold rxAlignmentDev
  cases hl : (d.casPort port).lossAt with
  | none => simp [hruns]
  | some e => simp [hruns, h e hl]

theorem rxAlignmentDev_resting {port : CasPort} {d : Dev} (h : (d.casPort port).lossAt = some d.now) :
    rxAlignmentDev port d = d := by
  unfold rxAlignmentDev
  simp [h, efSince_self]

theorem laneNoSignalDev_unlocked {port : CasPort} {idle : Bool} {d : Dev} (hsees : d.sees Dom.cas = true) (hen : d.cas.en = true)
    (h : (d.casPort port).locked = false) :
    laneNoSignalDev port idle d = d.modPort port (fun p => { p with good := 0, aligned := p.aligned && idle }) := by
  simp [laneNoSignalDev, hsees, hen, h]

theorem laneNoSignalDev_locked {port : CasPort} {idle : Bool} {d : Dev} (hsees : d.sees Dom.cas = true) (hen : d.cas.en = true)
    (h : (d.casPort port).locked = true) : laneNoSignalDev port idle d = hopLost port (if idle then 5 else 4) d := by
  simp [laneNoSignalDev, hsees, hen, h]

theorem Dev.isOn_of_sees {d : Dev} {n : Nat} (h : d.sees n = true) : d.isOn n = true := (Bool.and_eq_true_iff.mp h).1

/-- Settles O54: what leaving a chain, a lost hop and a configuration error do, each said once. -/
theorem linkEnableAlignmentAndLoss : Obligations.LinkEnableAlignmentAndLoss := by
  unfold Obligations.LinkEnableAlignmentAndLoss
  refine ⟨fun s v hon hturn hen hv => ?_, fun s v hon hturn hen hv => ?_, fun s v hoff => ⟨?_, ?_⟩,
    fun s port hruns => ⟨fun h => ?_, fun e h he => ?_, fun h _ => ?_⟩, fun s port idle hsees hen => ⟨fun h => ?_, fun h => ?_⟩, fun s port idle hen => ?_⟩
  · refine (yields_hostNext (f := linkEnableDev v) _ rfl hturn).2 ?_
    rw [linkEnableDev_eq hon hen hv]
    exact linkOn_spec v hon
  · refine (yields_hostNext (f := linkDisableDev v) _ rfl hturn).2 ?_
    rw [linkDisableDev_eq hon hen hv]
    exact linkOff_spec s v
  · exact hostNext_same (by simp [linkEnableDev, casCtlWrite, hoff])
  · exact hostNext_same (by simp [linkDisableDev, casCtlWrite, hoff])
  · exact (yields_devNext (f := rxAlignmentDev port) _ rfl).2 (rxAlignmentDev_rested hruns (by simp [h]))
  · refine (yields_devNext (f := rxAlignmentDev port) _ rfl).2 (rxAlignmentDev_rested hruns fun e' he' => ?_)
    rwa [← Option.some.inj (h.symm.trans he')]
  · exact devNext_same (rxAlignmentDev_resting h)
  · exact (yields_devNext (f := laneNoSignalDev port idle) _ rfl).2 (laneNoSignalDev_unlocked hsees hen h)
  · refine (yields_devNext (f := laneNoSignalDev port idle) _ rfl).2 ?_
    rw [laneNoSignalDev_locked hsees hen h]
    have hlost := hopLost_spec port (if idle then 5 else 4) s s.dev
    refine ⟨hlost.counts, hlost.irq (Dev.isOn_of_sees hsees), hlost.logs rfl rfl, by rw [hlost.port]; rfl, by rw [hlost.port]; rfl,
      by rw [hlost.port]; rfl, by rw [hlost.port], ?_, ?_, by simp, by simp, by simp⟩
    · rintro rfl
      exact hopLost_upstream_silent _ s.dev
    · rintro rfl
      exact hopLost_downstream_leaves _ s.dev
  · exact devNext_same (by simp [laneNoSignalDev, hen])

end Sys2Proof.Machine
end

section
/-! PROOF. Superframes, good and bad, the status slots a master takes, and the statement on superframes (R528 to R544). -/

namespace Sys2Proof.Machine

open Sys2Proof

/-! ### Bytes of a superframe -/

theorem sfBytes_take (b : List Byte) (a n m : Nat) : (sfBytes b a n).take m = sfBytes b a (min m n) := by
  refine List.ext_getElem (by simp [sfBytes_length]) fun k hk hk' => ?_
  have hlt : k < min m n := by simpa [sfBytes_length] using hk'
  have hget (l : Nat) (h : k < l) (hlen : k < (sfBytes b a l).length) : (sfBytes b a l)[k] = b.getD (a + k) 0 := by
    rw [← sfBytes_getD b a l k h, List.getD_eq_getElem _ _ hlen]
  rw [List.getElem_take, hget n (by omega) _, hget (min m n) hlt _]

theorem byteAt_sfBytes {b : List Byte} {a n k : Nat} (h : k < n) : byteAt (sfBytes b a n) k = byteAt b (a + k) := by
  rw [byteAt, byteAt, sfBytes_getD b a n k h]

theorem halfAt_eq_leNat (b : List Byte) (k : Nat) : halfAt b k = leNat (sfBytes b k 2) := by
  have hlist : sfBytes b k 2 = [b.getD k 0, b.getD (k + 1) 0] := by
    refine List.ext_getElem (by simp [sfBytes_length]) fun i hi hi' => ?_
    have hlt : i < 2 := by simpa using hi'
    rw [← List.getD_eq_getElem _ 0 hi, sfBytes_getD b k 2 i hlt]
    interval_cases i <;> rfl
  rw [hlist, halfAt]
  simp [leNat, byteAt]

theorem sfPacket_area (b : List Byte) (a n : Nat) (h : 2 ≤ n) :
    (sfPacket (sfBytes b a n)).toList = if byteAt b a = 0 then [] else [sfBytes b a (min (4 + byteAt b (a + 1)) n)] := by
  unfold sfPacket
  rw [byteAt_sfBytes (show 0 < n by omega), byteAt_sfBytes (show 1 < n by omega), sfBytes_take, Nat.add_zero]
  split <;> rfl

/-! ### A superframe that is not good (R541, R542) -/

theorem badSuperframe_unlocked {port : CasPort} {cause : Nat} {d : Dev} (h : (d.casPort port).locked = false) :
    badSuperframe port cause d = (d.bump Reg.CAS_CNT_BAD_SF).modPort port (fun p => { p with good := 0 }) := by
  have hport : ((d.bump Reg.CAS_CNT_BAD_SF).casPort port).locked = false := by cases port <;> exact h
  simp [badSuperframe, hport]

theorem badSuperframe_locked {port : CasPort} {cause : Nat} {d : Dev} (h : (d.casPort port).locked = true) :
    badSuperframe port cause d = hopLost port cause (d.bump Reg.CAS_CNT_BAD_SF) := by
  have hport : ((d.bump Reg.CAS_CNT_BAD_SF).casPort port).locked = true := by cases port <;> exact h
  simp [badSuperframe, hport]

/-- The statement's clause on a superframe that is not good. -/
theorem badSuperframe_spec (port : CasPort) (f : Nat) (s : State) (hon : s.dev.isOn Dom.cas = true) :
    Counts s (badSuperframe port f s.dev) Reg.CAS_CNT_BAD_SF ∧ ((badSuperframe port f s.dev).casPort port).good = 0 ∧
      ((badSuperframe port f s.dev).casPort port).locked = false ∧ (badSuperframe port f s.dev).frame = s.dev.frame ∧
      ((s.dev.casPort port).locked = true → Counts s (badSuperframe port f s.dev) Reg.CAS_CNT_LOSS ∧
        (badSuperframe port f s.dev).flag Reg.CAS_IRQ_STAT 0 = true ∧ Logs s (badSuperframe port f s.dev) 0x0C 1 2 [portCode port, f]) ∧
      ((s.dev.casPort port).locked = false → (badSuperframe port f s.dev).mgt = s.dev.mgt ∧ (badSuperframe port f s.dev).par = s.dev.par ∧
        (badSuperframe port f s.dev).mix = s.dev.mix) := by
  have hcount : (s.dev.bump Reg.CAS_CNT_BAD_SF).fld Reg.CAS_CNT_BAD_SF 31 0 =
      min (s.dev.fld Reg.CAS_CNT_BAD_SF 31 0 + 1) (2 ^ 32 - 1) := Dev.fld_bumpFld s.dev _ 31 0 1 (by decide) (by decide)
  by_cases hlock : (s.dev.casPort port).locked = true
  · rw [badSuperframe_locked hlock]
    have hlost := hopLost_spec port f s (s.dev.bump Reg.CAS_CNT_BAD_SF)
    have hloss : (s.dev.bump Reg.CAS_CNT_BAD_SF).fld Reg.CAS_CNT_LOSS 31 0 = s.dev.fld Reg.CAS_CNT_LOSS 31 0 :=
      congrArg (Word.bits · 31 0) (Dev.reg_bump_ne _ _ _ (by decide))
    refine ⟨(hlost.regs.fld (by decide) 31 0).trans hcount, by rw [hlost.port]; rfl, by rw [hlost.port]; rfl, (hopLost_keeps _ _ _).2.1,
      fun _ => ⟨by rw [Counts, hlost.counts, hloss], hlost.irq hon, hlost.logs rfl rfl⟩, fun h => absurd (hlock.symm.trans h) (by simp)⟩
  · have hun : (s.dev.casPort port).locked = false := by simpa using hlock
    rw [badSuperframe_unlocked hun]
    cases port with
    | upstream => exact ⟨hcount, rfl, hun, rfl, fun h => absurd h hlock, fun _ => ⟨rfl, rfl, rfl⟩⟩
    | downstream => exact ⟨hcount, rfl, hun, rfl, fun h => absurd h hlock, fun _ => ⟨rfl, rfl, rfl⟩⟩

/-! ### A good superframe (R541) -/

/-- A good superframe accepted: the port's new state, its event, and nothing of the link but the port. -/
structure GoodSuperframe (port : CasPort) (d e : Dev) : Prop where
  bus : e.cnt.bus = d.busWith 31 1
  first : (d.casPort port).locked = false → (d.casPort port).good = 0 → (e.casPort port).good = 1 ∧ (e.casPort port).locked = false
  second : (d.casPort port).locked = false → (d.casPort port).good ≠ 0 → (e.casPort port).locked = true ∧
    (d.isOn Dom.cas = true → e.flag Reg.CAS_IRQ_STAT 1 = true)
  stays : (d.casPort port).locked = true → (e.casPort port).locked = true
  link : e.cas = (d.modPort port (fun _ => e.casPort port)).cas
  regs : RegsOnly linkRegs d e

theorem Dev.cas_modPort_casPort (port : CasPort) (d : Dev) : d.cas = (d.modPort port (fun _ => d.casPort port)).cas := by
  cases port <;> rfl

theorem goodSuperframe_spec (port : CasPort) (d : Dev) : GoodSuperframe port d (goodSuperframe port d) := by
  have hemit (p : CasPort) : (d.emit 31 1).casPort p = d.casPort p := by cases p <;> rfl
  unfold goodSuperframe
  dsimp only
  rw [hemit]
  by_cases hlock : (d.casPort port).locked = true
  · rw [if_pos hlock]
    exact ⟨rfl, fun h => absurd (hlock.symm.trans h) (by simp), fun h => absurd (hlock.symm.trans h) (by simp), fun _ => (hemit port).symm ▸ hlock,
      by rw [hemit]; exact Dev.cas_modPort_casPort port d, .of_regs rfl⟩
  rw [if_neg hlock]
  by_cases hgood : (d.casPort port).good = 0
  · rw [if_pos hgood]
    have hun : (d.casPort port).locked = false := by simpa using hlock
    cases port with
    | upstream => exact ⟨rfl, fun _ _ => ⟨rfl, hun⟩, fun _ h => absurd hgood h, fun h => absurd h hlock, rfl, .of_regs rfl⟩
    | downstream => exact ⟨rfl, fun _ _ => ⟨rfl, hun⟩, fun _ h => absurd hgood h, fun h => absurd h hlock, rfl, .of_regs rfl⟩
  rw [if_neg hgood]
  set e := (d.emit 31 1).modPort port (fun p => { p with good := 2, locked := true }) with he
  have hregs : e.regs = d.regs := by cases port <;> rfl
  have hpwr : e.pwr = d.pwr := by cases port <;> rfl
  have hbus : e.cnt.bus = d.busWith 31 1 := by cases port <;> rfl
  have hlocked : (e.casPort port).locked = true := by cases port <;> rfl
  have hcas : e.cas = (d.modPort port (fun _ => e.casPort port)).cas := by cases port <;> rfl
  have hport (u : Dev) (h : u.cas = e.cas) : u.casPort port = e.casPort port := by
    cases port
    · exact congrArg Cas.down h
    · exact congrArg Cas.up h
  have hend : ((casIrq 1 e).logEv 0x0C 0x02 0 [portCode port, (d.emit 31 1).cas.lag]).cas = e.cas := by simp
  refine ⟨by simpa using hbus, fun _ h => absurd h hgood, fun _ _ => ⟨by rw [hport _ hend, hlocked], fun hon => ?_⟩, fun h => absurd h hlock,
    by rw [hport _ hend, hend, hcas], fun a ha => ?_⟩
  · rw [Dev.flag, Dev.reg_logEv_ne _ _ _ _ _ _ (by decide)]
    exact Dev.flag_setIrq e Dom.cas _ 1 (by decide) ((Dev.isOn_of_pwr d e hpwr Dom.cas).trans hon)
  · simp only [linkRegs, List.mem_cons, List.not_mem_nil, or_false, not_or] at ha
    exact (Dev.reg_logEv_ne _ _ _ _ _ _ ha.2).trans ((Dev.reg_setIrq_ne e _ _ _ _ ha.1).trans (Dev.reg_of_regs hregs a))

/-- The port's part of a good superframe, as the statement has it. -/
def PortCounted (s : State) (port : CasPort) (d : Dev) : Prop := d.cnt.bus = s.dev.busWith 31 1 ∧
    ((s.dev.casPort port).locked = false → (s.dev.casPort port).good = 0 → (d.casPort port).good = 1 ∧ (d.casPort port).locked = false) ∧
    ((s.dev.casPort port).locked = false → (s.dev.casPort port).good ≠ 0 → (d.casPort port).locked = true ∧ d.flag Reg.CAS_IRQ_STAT 1 = true) ∧
    ((s.dev.casPort port).locked = true → (d.casPort port).locked = true)

/-- A good superframe counts, also where more follows that leaves the port, the events and CAS_IRQ_STAT alone. -/
theorem GoodSuperframe.counted {port : CasPort} {s : State} {d e f : Dev} (h : GoodSuperframe port d e) (hon : s.dev.isOn Dom.cas = true)
    (hbefore : d.cnt = s.dev.cnt ∧ d.pwr = s.dev.pwr ∧ d.casPort port = s.dev.casPort port)
    (hbus : f.cnt = e.cnt) (hport : f.casPort port = e.casPort port) (hirq : f.reg Reg.CAS_IRQ_STAT = e.reg Reg.CAS_IRQ_STAT) :
    PortCounted s port f := by
  obtain ⟨hcnt, hpwr, hp⟩ := hbefore
  have hbusD : d.busWith 31 1 = s.dev.busWith 31 1 := by
    rw [Dev.busWith, Dev.busWith, hcnt, Dev.isOn_of_pwr s.dev d hpwr]
  rw [PortCounted, ← hp, hport, hbus, Dev.flag, hirq]
  exact ⟨h.bus.trans hbusD, h.first, fun hl hg => ⟨(h.second hl hg).1, (h.second hl hg).2 ((Dev.isOn_of_pwr s.dev d hpwr Dom.cas).trans hon)⟩, h.stays⟩

theorem GoodSuperframe.cas_of {α : Type} {port : CasPort} {d e : Dev} (h : GoodSuperframe port d e) (F : Cas → α)
    (hF : ∀ c u v, F { c with up := u, down := v } = F c) : F e.cas = F d.cas := by
  rw [h.link]
  cases port
  · exact hF d.cas _ _
  · exact hF d.cas _ _

/-! ### The status slots a master takes (R536, R542) -/

/-- A status slot taken changes the workers, the chain's voices and the log alone. -/
structure StatusTaken (d e : Dev) : Prop where
  rest : e.mem = d.mem ∧ e.frame = d.frame ∧ e.outs = d.outs ∧ e.cnt = d.cnt ∧ e.mix = d.mix
  regs : RegsOnly [Reg.MGT_CNT_LOG_DROP] d e
  link : e.cas.up = d.cas.up ∧ e.cas.inIn = d.cas.inIn ∧ e.cas.casW = d.cas.casW

theorem StatusTaken.refl (d : Dev) : StatusTaken d d := ⟨⟨rfl, rfl, rfl, rfl, rfl⟩, .refl _ d, rfl, rfl, rfl⟩

theorem StatusTaken.trans {d e f : Dev} (h : StatusTaken d e) (k : StatusTaken e f) : StatusTaken d f := by
  obtain ⟨⟨hm, hf, ho, hc, hx⟩, hr, hu, hi, hw⟩ := h
  obtain ⟨⟨km, kf, ko, kc, kx⟩, kr, ku, ki, kw⟩ := k
  exact ⟨⟨km.trans hm, kf.trans hf, ko.trans ho, kc.trans hc, kx.trans hx⟩, hr.trans kr, ku.trans hu, ki.trans hi, kw.trans hw⟩

/-- Position q sends its worker out of the chain. -/
def statusGone (q : Nat) (d : Dev) : Dev :=
  if (workerOf d q).joined then d.modCas (fun c => { c with leaving := some (min q (c.leaving.getD q)) }) else d

/-- A worker back in the chain is logged. -/
def statusLogged (q : Nat) (d : Dev) : Dev :=
  if !(workerOf d q).joined && (workerOf d q).left then d.logEv 0x0C 0x05 0 [q] else d

/-- A worker as its status slot makes it. -/
def statusWorker (st : List Byte) (w : Worker) : Worker := { w with
  joined := true, calEmpty := (byteAt st 0).testBit 1, offer := halfAt st 2 % 512
  levels := (List.range 4).foldl (fun l k => levelSeen (byteAt st (12 + 3 * k), halfAt st (13 + 3 * k)) l) w.levels }

/-- Position q joins with what its slot says. -/
def statusJoined (q : Nat) (st : List Byte) (d : Dev) : Dev :=
  (statusLogged q d).modCas (fun c => { c with workers := upd c.workers q (statusWorker st) })

/-- The handles that a status slot reports free. -/
def statusFreed (q : Nat) (st : List Byte) (d : Dev) : Dev :=
  (List.range (min (byteAt st 1) 4)).foldl (fun d k => remoteFreed q (halfAt st (4 + 2 * k)) d) d

theorem takeStatus_eq (q : Nat) (st : List Byte) (d : Dev) :
    takeStatus q st d = if !(byteAt st 0).testBit 0 then statusGone q d else statusFreed q st (statusJoined q st d) := rfl

theorem statusFreed_cas (q : Nat) (st : List Byte) (d : Dev) : (statusFreed q st d).cas = d.cas :=
  foldl_keeps (fun d : Dev => d.cas) _ (fun d k => by simp) _ _

theorem statusFreed_rest (q : Nat) (st : List Byte) (d : Dev) : (statusFreed q st d).mem = d.mem ∧ (statusFreed q st d).frame = d.frame ∧
    (statusFreed q st d).outs = d.outs ∧ (statusFreed q st d).cnt = d.cnt ∧ (statusFreed q st d).mix = d.mix :=
  ⟨foldl_keeps (fun d : Dev => d.mem) _ (fun d k => by simp) _ _, foldl_keeps (fun d : Dev => d.frame) _ (fun d k => by simp) _ _,
    foldl_keeps (fun d : Dev => d.outs) _ (fun d k => by simp) _ _, foldl_keeps (fun d : Dev => d.cnt) _ (fun d k => by simp) _ _,
    foldl_keeps (fun d : Dev => d.mix) _ (fun d k => by simp) _ _⟩

theorem statusFreed_regs (q : Nat) (st : List Byte) (d : Dev) : (statusFreed q st d).regs = d.regs :=
  foldl_keeps (fun d : Dev => d.regs) _ (fun d k => by simp) _ _

theorem statusLogged_cas (q : Nat) (d : Dev) : (statusLogged q d).cas = d.cas := by
  unfold statusLogged
  split <;> simp

theorem statusLogged_rest (q : Nat) (d : Dev) : (statusLogged q d).mem = d.mem ∧ (statusLogged q d).frame = d.frame ∧
    (statusLogged q d).outs = d.outs ∧ (statusLogged q d).cnt = d.cnt ∧ (statusLogged q d).mix = d.mix := by
  unfold statusLogged
  split <;> simp

theorem statusLogged_regs (q : Nat) (d : Dev) : RegsOnly [Reg.MGT_CNT_LOG_DROP] d (statusLogged q d) := by
  unfold statusLogged
  split
  · exact fun a ha => Dev.reg_logEv_ne _ _ _ _ _ _ (by simpa using ha)
  · exact .refl _ d

theorem takeStatus_cas (q : Nat) (st : List Byte) (d : Dev) : (takeStatus q st d).cas =
    if (byteAt st 0).testBit 0 then { d.cas with workers := upd d.cas.workers q (statusWorker st) }
    else if (workerOf d q).joined then { d.cas with leaving := some (min q (d.cas.leaving.getD q)) } else d.cas := by
  rw [takeStatus_eq]
  by_cases hbit : (byteAt st 0).testBit 0 = true
  · rw [if_neg (by simp [hbit]), if_pos hbit, statusFreed_cas, statusJoined, Dev.modCas, statusLogged_cas]
  · rw [if_pos (by simp [hbit]), if_neg hbit, statusGone]
    split <;> rfl

theorem takeStatus_taken (q : Nat) (st : List Byte) (d : Dev) : StatusTaken d (takeStatus q st d) := by
  refine ⟨?_, ?_, ?_⟩
  · rw [takeStatus_eq]
    split
    · unfold statusGone
      split <;> exact ⟨rfl, rfl, rfl, rfl, rfl⟩
    · obtain ⟨hm, hf, ho, hc, hx⟩ := statusFreed_rest q st (statusJoined q st d)
      obtain ⟨km, kf, ko, kc, kx⟩ := statusLogged_rest q d
      exact ⟨hm.trans km, hf.trans kf, ho.trans ko, hc.trans kc, hx.trans kx⟩
  · rw [takeStatus_eq]
    split
    · unfold statusGone
      split <;> exact .of_regs rfl
    · exact ((statusLogged_regs q d).tail (f := statusJoined q st d) rfl).tail (statusFreed_regs q st _)
  · rw [takeStatus_cas]
    split
    · exact ⟨rfl, rfl, rfl⟩
    · split <;> exact ⟨rfl, rfl, rfl⟩

/-- Position q is kept, and what is leaving does not grow. -/
structure PositionKept (q : Nat) (d e : Dev) : Prop where
  worker : workerOf e q = workerOf d q
  count : e.cas.workers.length = d.cas.workers.length
  leaving : ∀ x, d.cas.leaving = some x → ∃ y, e.cas.leaving = some y ∧ y ≤ x

theorem PositionKept.refl (q : Nat) (d : Dev) : PositionKept q d d := ⟨rfl, rfl, fun x h => ⟨x, h, le_refl x⟩⟩

theorem PositionKept.trans {q : Nat} {d e f : Dev} (h : PositionKept q d e) (k : PositionKept q e f) : PositionKept q d f := by
  refine ⟨k.worker.trans h.worker, k.count.trans h.count, fun x hx => ?_⟩
  obtain ⟨y, hy, hyx⟩ := h.leaving x hx
  obtain ⟨z, hz, hzy⟩ := k.leaving y hy
  exact ⟨z, hz, hzy.trans hyx⟩

theorem takeStatus_position {p q : Nat} (h : p ≠ q) (st : List Byte) (d : Dev) : PositionKept q d (takeStatus p st d) := by
  refine ⟨?_, ?_, fun x hx => ?_⟩
  · rw [workerOf, takeStatus_cas]
    split
    · exact at_upd_ne _ _ _ h.symm
    · split <;> rfl
  · rw [takeStatus_cas]
    split
    · simp [upd]
    · split <;> rfl
  · rw [takeStatus_cas]
    split
    · exact ⟨x, hx, le_refl x⟩
    · split
      · exact ⟨_, rfl, by rw [hx]; exact Nat.min_le_right _ _⟩
      · exact ⟨x, hx, le_refl x⟩

/-- The slot of position k + 1 taken, or read as empty where the first worker has lost its upstream hop. -/
def statusOf (b : List Byte) (k : Nat) (d : Dev) : Dev :=
  takeStatus (k + 1) (if (byteAt b 1).testBit 3 && decide (2 ≤ k + 1) then [] else sfStatus b (k + 1)) d

theorem takeStatuses_eq (b : List Byte) (d : Dev) : takeStatuses b d = forEach (List.range (d.chainLen - 1)) (statusOf b) d := by
  unfold takeStatuses forEach
  dsimp only
  congr 1
  funext e k
  unfold statusOf
  split <;> rfl

theorem takeStatuses_taken (b : List Byte) (d : Dev) : StatusTaken d (takeStatuses b d) := by
  rw [takeStatuses_eq]
  generalize List.range (d.chainLen - 1) = l
  induction l generalizing d with
  | nil => exact .refl d
  | cons k l ih => exact (takeStatus_taken _ _ d).trans (ih _)

theorem takeStatuses_position {b : List Byte} {d : Dev} {q : Nat} (h1 : 1 ≤ q) (hlen : q < d.chainLen) (hw : q < d.cas.workers.length)
    (hlost : (byteAt b 1).testBit 3 = true → q < 2) :
    ((byteAt b (200 + 24 * (q - 1))).testBit 0 = true → (workerOf (takeStatuses b d) q).joined = true ∧
      (workerOf (takeStatuses b d) q).offer = leNat (sfBytes b (202 + 24 * (q - 1)) 2) % 512) ∧
    ((byteAt b (200 + 24 * (q - 1))).testBit 0 = false → (workerOf d q).joined = true →
      ∃ p, (takeStatuses b d).cas.leaving = some p ∧ p ≤ q) := by
  obtain ⟨e, hbefore, hafter⟩ := forEach_split (R := PositionKept q) (.refl q) .trans List.nodup_range (l := List.range (d.chainLen - 1)) (p := q - 1)
    (List.mem_range.2 (by omega)) (statusOf b) (fun k hk u => takeStatus_position (by omega) _ u) d
  rw [← takeStatuses_eq] at hafter
  have hslot : statusOf b (q - 1) e = takeStatus q (sfStatus b q) e := by
    rw [statusOf, Nat.sub_add_cancel h1, if_neg]
    simpa using fun h => hlost h
  have hbyte : byteAt (sfStatus b q) 0 = byteAt b (200 + 24 * (q - 1)) := byteAt_sfBytes (by decide)
  have hoffer : halfAt (sfStatus b q) 2 = leNat (sfBytes b (202 + 24 * (q - 1)) 2) := by
    rw [← halfAt_eq_leNat, halfAt, sfStatus, byteAt_sfBytes (by decide), byteAt_sfBytes (by decide), halfAt,
      show 200 + 24 * (q - 1) + 2 = 202 + 24 * (q - 1) by omega, show 200 + 24 * (q - 1) + (2 + 1) = 202 + 24 * (q - 1) + 1 by omega]
  have hcas := takeStatus_cas q (sfStatus b q) e
  rw [hbyte] at hcas
  rw [hslot] at hafter
  constructor
  · intro hbit
    rw [if_pos hbit] at hcas
    have hworker : workerOf (takeStatuses b d) q = statusWorker (sfStatus b q) (workerOf e q) := by
      rw [hafter.worker, workerOf, hcas]
      exact (at_upd _ _ _ _ _ (by rwa [hbefore.count])).trans (if_pos rfl)
    rw [hworker]
    exact ⟨rfl, congrArg (· % 512) hoffer⟩
  · intro hbit hjoined
    rw [if_neg (by simp [hbit]), if_pos (by rwa [hbefore.worker])] at hcas
    obtain ⟨p, hp, hle⟩ := hafter.leaving (min q (e.cas.leaving.getD q)) (by rw [hcas])
    exact ⟨p, hp, hle.trans (Nat.min_le_left _ _)⟩

end Sys2Proof.Machine
end

section
/-! PROOF. Inbound and outbound superframes, and the statement on them (R528 to R544). -/

namespace Sys2Proof.Machine

open Sys2Proof

/-! ### What a running link is -/

theorem linkRuns_iff {d : Dev} : linkRuns d = true ↔ d.sees Dom.cas = true ∧ d.inChain = true ∧ d.cas.cfgErr = false := by
  simp [linkRuns, and_assoc]

theorem linkRuns_isOn {d : Dev} (h : linkRuns d = true) : d.isOn Dom.cas = true := Dev.isOn_of_sees (linkRuns_iff.1 h).1

/-! ### Inbound superframes (R531, R536) -/

/-- What a good inbound superframe leaves before its status slots: its bytes, its channels and its packet. -/
def inboundHeld (b : List Byte) (was master : Bool) (d : Dev) : Dev := { d with
  cas := { d.cas with
    inIn := some b, casW := if was && d.cas.casW == 0 then 1 else d.cas.casW
    packetsIn := if master then d.cas.packetsIn ++ (sfPacket (sfBytes b 368 44)).toList else d.cas.packetsIn
    relay := if master then d.cas.relay else d.cas.relay ++ (sfPacket (sfBytes b 368 44)).toList }
  mix := if was then { d.mix with casIn := (List.range 64).map (sfAudio b) } else d.mix }

theorem GoodSuperframe.isMaster {port : CasPort} {d e : Dev} (h : GoodSuperframe port d e) : e.isMaster = d.isMaster :=
  Dev.isMaster_of (h.cas_of (·.en) (by simp)) (h.cas_of (·.cfg) (by simp)) (h.regs _ (by decide))

theorem inboundSuperframeDev_good {b : List Byte} {ok : Bool} {d : Dev} (hruns : linkRuns d = true) (hal : d.cas.up.aligned = true)
    (hf : sfFault b ok = 0) : inboundSuperframeDev b ok d =
      if d.isMaster then takeStatuses b (inboundHeld b d.cas.up.locked true (goodSuperframe .upstream d))
      else inboundHeld b d.cas.up.locked false (goodSuperframe .upstream d) := by
  have hmaster := (goodSuperframe_spec .upstream d).isMaster
  unfold inboundSuperframeDev
  rw [if_neg (by simp [hruns, hal])]
  dsimp only
  rw [if_neg (by simp [hf])]
  rw [← hmaster]
  cases d.cas.up.locked
  · rfl
  · rfl

/-- Whatever follows from the status slots, the superframe is counted and its channels are taken. -/
theorem inboundHeld_clauses {s : State} {b : List Byte} {master : Bool} {f : Dev} (hon : s.dev.isOn Dom.cas = true)
    (h : StatusTaken (inboundHeld b s.dev.cas.up.locked master (goodSuperframe .upstream s.dev)) f) :
    PortCounted s .upstream f ∧ f.cas.inIn = some b ∧ (s.dev.cas.up.locked = false → f.mix = s.dev.mix) ∧
      (s.dev.cas.up.locked = true → (∀ k, k < 64 → at_ f.mix.casIn k 0 = signed 24 (leNat (sfBytes b (8 + 3 * k) 3))) ∧
        (s.dev.cas.casW = 0 → f.cas.casW = 1)) ∧ f.mem = s.dev.mem ∧ f.frame = s.dev.frame ∧ f.outs = s.dev.outs := by
  have hgood := goodSuperframe_spec .upstream s.dev
  obtain ⟨⟨hmem, hframe, houts, hcnt, hmix⟩, hregs, hup, hin, hcasW⟩ := h
  have hw : (goodSuperframe .upstream s.dev).cas.casW = s.dev.cas.casW := hgood.cas_of (·.casW) (by simp)
  refine ⟨hgood.counted hon ⟨rfl, rfl, rfl⟩ hcnt hup (hregs _ (by decide)), hin, fun hun => ?_, fun hlock => ⟨fun k hk => ?_, fun hzero => ?_⟩,
    hmem.trans ?_, hframe.trans ?_, houts.trans ?_⟩
  · rw [hmix, inboundHeld, hun]
    simp
  · rw [hmix, inboundHeld, hlock]
    exact at_map_range _ _ hk
  · rw [hcasW, inboundHeld, hlock]
    simp [hw, hzero]
  · exact (goodSuperframe_keeps .upstream s.dev).2.1
  · exact (goodSuperframe_keeps .upstream s.dev).2.2.1
  · simp [inboundHeld]

theorem inboundHeld_relay {b : List Byte} {was : Bool} {d : Dev} : (inboundHeld b was false (goodSuperframe .upstream d)).cas.relay =
    d.cas.relay ++ (if byteAt b 368 = 0 then [] else [sfBytes b 368 (min (4 + byteAt b 369) 44)]) ∧
      (inboundHeld b was false (goodSuperframe .upstream d)).par = d.par := by
  have hrelay : (goodSuperframe .upstream d).cas.relay = d.cas.relay := (goodSuperframe_spec .upstream d).cas_of (·.relay) (by simp)
  refine ⟨?_, by simp [inboundHeld]⟩
  rw [← sfPacket_area b 368 44 (by decide), ← hrelay]
  rfl

/-! ### Outbound superframes at a worker (R530, R532) -/

/-- Frame timing taken from superframe k, unless the device has it already. -/
def timedBy (k : Nat) (d : Dev) : Dev := if d.cas.adopted && d.now == efAdd k (efWrap - 1) then d else adoptTiming k d

theorem adoptTiming_cas (k : Nat) (d : Dev) : (adoptTiming k d).cas = { d.cas with adopted := true } := by
  unfold adoptTiming
  dsimp only
  split <;> simp [Dev.modCas]

theorem adoptTiming_frame (k : Nat) (d : Dev) : (adoptTiming k d).frame = { d.frame with ef := efAdd k (efWrap - 1), released := true } := by
  unfold adoptTiming
  dsimp only
  split <;> simp

theorem adoptTiming_regs (k : Nat) (d : Dev) : RegsOnly [Reg.MGT_CNT_LOG_DROP] d (adoptTiming k d) := by
  unfold adoptTiming
  dsimp only
  split
  · intro a ha
    refine (Dev.reg_logEv_ne _ _ _ _ _ _ (by simpa using ha)).trans (Dev.reg_of_regs ?_ a)
    simp
  · exact .of_regs rfl

/-- The frame timer and the link once the timing is taken. -/
structure TimedBy (k : Nat) (d e : Dev) : Prop where
  released : e.frame.released = (d.frame.released || !(d.cas.adopted && d.now == efAdd k (efWrap - 1)))
  now : e.now = efAdd k (efWrap - 1)
  cas : e.cas = { d.cas with adopted := true } ∨ (e.cas = d.cas ∧ d.cas.adopted = true)
  rest : e.mem = d.mem ∧ e.par = d.par ∧ e.cnt = d.cnt ∧ e.pwr = d.pwr
  regs : RegsOnly [Reg.MGT_CNT_LOG_DROP] d e

theorem timedBy_spec (k : Nat) (d : Dev) : TimedBy k d (timedBy k d) := by
  unfold timedBy
  by_cases h : (d.cas.adopted && d.now == efAdd k (efWrap - 1)) = true
  · rw [if_pos h]
    obtain ⟨had, hnow⟩ := Bool.and_eq_true_iff.mp h
    exact ⟨by simp [h], beq_iff_eq.mp hnow, .inr ⟨rfl, had⟩, ⟨rfl, rfl, rfl, rfl⟩, .refl _ d⟩
  · rw [if_neg h]
    refine ⟨?_, by rw [Dev.now, adoptTiming_frame], .inl (adoptTiming_cas k d), by simp, adoptTiming_regs k d⟩
    rw [adoptTiming_frame, (Bool.not_eq_true _).mp h]
    simp

/-- What a worker keeps of a good outbound superframe. -/
def outboundHeld (b : List Byte) (d : Dev) : Dev :=
  let prev := match d.cas.outIn with
    | some x => if efAdd (outEf x) 1 = outEf b then some x else none
    | none => none
  let mine := match sfPacket (sfBytes b 332 80) with
    | some p => if byteAt p 0 = 3 ∧ byteAt p 2 = d.pos then [p] else []
    | none => []
  d.modCas (fun c => { c with
    hold := (byteAt b 1).testBit 0, grantIn := byteAt b 1 / 16 % 8, outPrev := prev, outIn := some b
    packetsIn := c.packetsIn ++ mine })

section
variable {b : List Byte} {ok : Bool} {lag : Nat} {d : Dev} (hruns : linkRuns d = true) (hworker : d.isWorker = true)
  (hal : d.cas.down.aligned = true)
include hruns hworker hal

theorem outboundSuperframeDev_bad (hf : sfFault b ok ≠ 0) : outboundSuperframeDev b ok lag d = badSuperframe .downstream (sfFault b ok) d := by
  unfold outboundSuperframeDev
  rw [if_neg (by simp [hruns, hworker, hal])]
  exact if_pos hf

theorem outboundSuperframeDev_config (hf : sfFault b ok = 0) (hn : byteAt b 1 / 2 % 8 + 1 ≠ d.chainLen) :
    outboundSuperframeDev b ok lag d = cfgError d := by
  unfold outboundSuperframeDev
  rw [if_neg (by simp [hruns, hworker, hal])]
  dsimp only
  rw [if_neg (by simp [hf])]
  exact if_pos hn

theorem outboundSuperframeDev_good (hf : sfFault b ok = 0) (hn : byteAt b 1 / 2 % 8 + 1 = d.chainLen) :
    outboundSuperframeDev b ok lag d = outboundHeld b (goodSuperframe .downstream (timedBy (outEf b) (d.modCas (fun c => { c with lag := lag % 256 })))) := by
  unfold outboundSuperframeDev
  rw [if_neg (by simp [hruns, hworker, hal])]
  dsimp only
  rw [if_neg (by simp [hf]), if_neg (by simp [hn])]
  rfl

end

/-- The statement's clause on a good outbound superframe. -/
theorem outboundHeld_clauses (s : State) (b : List Byte) (lag : Nat) (hon : s.dev.isOn Dom.cas = true) :
    let d := outboundHeld b (goodSuperframe .downstream (timedBy (outEf b) (s.dev.modCas (fun c => { c with lag := lag % 256 }))))
    PortCounted s .downstream d ∧
      d.frame.released = (s.dev.frame.released || !(s.dev.cas.adopted && s.dev.now == efAdd (outEf b) (efWrap - 1))) ∧
      d.now = efAdd (outEf b) (efWrap - 1) ∧ d.cas.outIn = some b ∧ d.cas.hold = (byteAt b 1).testBit 0 ∧
      d.cas.grantIn = byteAt b 1 / 16 % 8 ∧ d.cas.lag = lag % 256 ∧ (d.cas.adopted = true ∨ s.dev.cas.adopted = true) ∧ d.mem = s.dev.mem ∧
      d.par = s.dev.par := by
  have htimed := timedBy_spec (outEf b) (s.dev.modCas (fun c => { c with lag := lag % 256 }))
  generalize timedBy (outEf b) (s.dev.modCas (fun c => { c with lag := lag % 256 })) = e at htimed
  obtain ⟨hreleased, hnow, hcas, ⟨hmem, hpar, hcnt, hpwr⟩, hregs⟩ := htimed
  have hgood := goodSuperframe_spec .downstream e
  have hframe : (goodSuperframe .downstream e).frame = e.frame := (goodSuperframe_keeps .downstream e).2.2.1
  have hdown : e.cas.down = s.dev.cas.down := by
    rcases hcas with h | ⟨h, -⟩ <;> rw [h] <;> rfl
  have hlag : e.cas.lag = lag % 256 := by
    rcases hcas with h | ⟨h, -⟩ <;> rw [h] <;> rfl
  have hadopted : e.cas.adopted = true := by
    rcases hcas with h | ⟨h, had⟩
    · rw [h]
    · rw [h]
      exact had
  refine ⟨hgood.counted hon ⟨hcnt, hpwr, hdown⟩ rfl rfl rfl, ?_, ?_, rfl, rfl, rfl, ?_, .inl ?_, ?_, ?_⟩
  · exact (congrArg Frame.released hframe).trans hreleased
  · exact (congrArg Frame.ef hframe).trans hnow
  · exact (hgood.cas_of (·.lag) (by simp)).trans hlag
  · exact (hgood.cas_of (·.adopted) (by simp)).trans hadopted
  · exact ((goodSuperframe_keeps .downstream e).2.1).trans hmem
  · exact (show (goodSuperframe .downstream e).par = e.par by simp).trans hpar

theorem casLane_idle {d : Dev} {port : CasPort} (hsees : d.sees Dom.cas = true) (hen : d.cas.en = true) (h : (d.casPort port).sending = false) :
    casLane d port = .idleSet := by
  simp [casLane, hsees, hen, h]

/-- The fault code as the statement writes it. -/
theorem sfFault_eq (b : List Byte) (ok : Bool) : (if ok = false then 2 else if byteAt b 0 ≠ 0xBC then 3
    else if leNat (sfBytes b 412 4) ≠ (crc32 (sfBytes b 1 411)).toNat then 1 else 0) = sfFault b ok := by
  cases ok <;> rfl

/-- Settles O55: a good superframe, a bad one, and the status slots, each said once for its port. -/
theorem superframesLockPortsAndCarryState : Obligations.SuperframesLockPortsAndCarryState := by
  unfold Obligations.SuperframesLockPortsAndCarryState
  simp only [sfFault_eq]
  refine ⟨fun s b ok hruns hal => ⟨fun hf => ?_, fun hf => ?_⟩, fun s b ok h => devNext_same ?_,
    fun s b ok lag hruns hworker hal => ⟨fun hf => ?_, fun hf hn => ?_, fun hf hn => ?_⟩, fun s b ok lag h => devNext_same ?_⟩
  · refine (yields_devNext (f := inboundSuperframeDev b ok) _ rfl).2 ?_
    have hbad : inboundSuperframeDev b ok s.dev = badSuperframe .upstream (sfFault b ok) s.dev := by
      unfold inboundSuperframeDev
      rw [if_neg (by simp [hruns, hal])]
      exact if_pos hf
    rw [hbad]
    exact badSuperframe_spec .upstream _ s (linkRuns_isOn hruns)
  · refine (yields_devNext (f := inboundSuperframeDev b ok) _ rfl).2 ?_
    rw [inboundSuperframeDev_good hruns hal hf]
    by_cases hm : s.dev.isMaster = true
    · rw [if_pos hm]
      obtain ⟨hcount, hin, hun, hlock, hmem, hframe, houts⟩ := inboundHeld_clauses (linkRuns_isOn hruns)
        (takeStatuses_taken b (inboundHeld b s.dev.cas.up.locked true (goodSuperframe .upstream s.dev)))
      refine ⟨hcount, hin, hun, hlock, fun h => absurd (hm.symm.trans h) (by simp), fun _ q h1 hlen hw hlost => ?_, hmem, hframe, houts⟩
      have hgood := goodSuperframe_spec .upstream s.dev
      have hworkers : (inboundHeld b s.dev.cas.up.locked true (goodSuperframe .upstream s.dev)).cas.workers = s.dev.cas.workers :=
        hgood.cas_of (·.workers) (by simp)
      have hcfg : (inboundHeld b s.dev.cas.up.locked true (goodSuperframe .upstream s.dev)).cas.cfg = s.dev.cas.cfg :=
        hgood.cas_of (·.cfg) (by simp)
      have hslot := takeStatuses_position (b := b) (d := inboundHeld b s.dev.cas.up.locked true (goodSuperframe .upstream s.dev)) h1
        (by rwa [Dev.chainLen, hcfg]) (by rwa [hworkers]) hlost
      rwa [show workerOf (inboundHeld b s.dev.cas.up.locked true (goodSuperframe .upstream s.dev)) q = workerOf s.dev q by
        rw [workerOf, hworkers, workerOf]] at hslot
    · rw [if_neg hm]
      obtain ⟨hcount, hin, hun, hlock, hmem, hframe, houts⟩ := inboundHeld_clauses (linkRuns_isOn hruns)
        (.refl (inboundHeld b s.dev.cas.up.locked false (goodSuperframe .upstream s.dev)))
      exact ⟨hcount, hin, hun, hlock, fun _ => inboundHeld_relay, fun h => absurd h hm, hmem, hframe, houts⟩
  · exact if_pos (by rcases h with h | h <;> simp [h])
  · refine (yields_devNext (f := outboundSuperframeDev b ok lag) _ rfl).2 ?_
    rw [outboundSuperframeDev_bad hruns hworker hal hf]
    exact badSuperframe_spec .downstream _ s (linkRuns_isOn hruns)
  · refine (yields_devNext (f := outboundSuperframeDev b ok lag) _ rfl).2 ?_
    rw [outboundSuperframeDev_config hruns hworker hal hf hn]
    obtain ⟨-, hirq, hlogs, ⟨hcfgErr, hen, -⟩, ⟨hup, hdown⟩, -⟩ := cfgError_spec s s.dev
    obtain ⟨hsees, hchain, -⟩ := linkRuns_iff.1 hruns
    have hsees' : (cfgError s.dev).sees Dom.cas = true := by
      rw [Dev.sees, Dev.isOn_of_pwr s.dev _ (by simp), Dev.dom, (cfgError_keeps s.dev).2.2.2.1]
      exact hsees
    have hen' : (cfgError s.dev).cas.en = true := hen.trans (Bool.and_eq_true_iff.mp hchain).1
    exact ⟨hcfgErr, hirq (linkRuns_isOn hruns), hlogs rfl rfl, by simp, by rw [hup]; rfl, hdown,
      casLane_idle hsees' hen' (by rw [show (cfgError s.dev).casPort .upstream = CasPortSt.reset from hup]; rfl),
      casLane_idle hsees' hen' (by rw [show (cfgError s.dev).casPort .downstream = CasPortSt.reset from hdown]; rfl)⟩
  · refine (yields_devNext (f := outboundSuperframeDev b ok lag) _ rfl).2 ?_
    rw [outboundSuperframeDev_good hruns hworker hal hf hn]
    exact outboundHeld_clauses s b lag (linkRuns_isOn hruns)
  · exact if_pos (by rcases h with h | h | h <;> simp [h])

end Sys2Proof.Machine
end

section
/-! PROOF. Alarms after a measurement, and the statement on sensors (R500 to R502, R519, R525). -/

namespace Sys2Proof.Machine

open Sys2Proof

/-! ### One alarm (R501) -/

/-- The readings of a temperature alarm as they count a run. -/
def tempRuns (thr : Int) (ts : List Nat) (a : Alarm) : List Nat :=
  (List.range 17).map (fun k => if thr * 128 < signed 16 (at_ ts k 0) then min 3 (at_ a.runs k 0 + 1) else 0)

theorem tempRuns_at {thr : Int} {ts : List Nat} {a : Alarm} {k : Nat} (hk : k < 17) :
    at_ (tempRuns thr ts a) k 0 = if thr * 128 < signed 16 (at_ ts k 0) then min 3 (at_ a.runs k 0 + 1) else 0 := at_map_range _ _ hk

theorem alarmTemp_idle {thr : Int} {ts : List Nat} {a : Alarm} (h : a.raised = false) :
    (alarmTemp thr ts a).raised = ((List.range 17).find? (fun k => at_ (tempRuns thr ts a) k 0 == 3)).isSome := by
  unfold alarmTemp
  dsimp only
  rw [if_neg (by simp [h])]
  change (match (List.range 17).find? (fun k => at_ (tempRuns thr ts a) k 0 == 3) with
    | some k => ({ raised := true, runs := tempRuns thr ts a, low := 0, who := k } : Alarm)
    | none => { a with runs := tempRuns thr ts a, low := _ }).raised = _
  cases (List.range 17).find? (fun k => at_ (tempRuns thr ts a) k 0 == 3) with
  | none => exact h
  | some k => rfl

theorem alarmTemp_rises {thr : Int} {ts : List Nat} {a : Alarm} {k : Nat} (h : a.raised = false) (hk : k < 17)
    (hover : thr * 128 < signed 16 (at_ ts k 0)) (hrun : 2 ≤ at_ a.runs k 0) : (alarmTemp thr ts a).raised = true := by
  rw [alarmTemp_idle h, List.find?_isSome]
  refine ⟨k, List.mem_range.2 hk, ?_⟩
  rw [beq_iff_eq, tempRuns_at hk, if_pos hover]
  omega

theorem alarmTemp_stays {thr : Int} {ts : List Nat} {a : Alarm} (h : a.raised = false)
    (hk : ∀ k, k < 17 → at_ a.runs k 0 < 2 ∨ signed 16 (at_ ts k 0) ≤ thr * 128) : (alarmTemp thr ts a).raised = false := by
  rw [alarmTemp_idle h, Option.isSome_eq_false_iff, Option.isNone_iff_eq_none, List.find?_eq_none]
  intro k hmem
  have hlt := List.mem_range.1 hmem
  rw [beq_iff_eq, tempRuns_at hlt]
  rcases hk k hlt with hrun | hunder
  · split <;> omega
  · rw [if_neg (by omega)]
    decide

theorem alarmTemp_falls {thr : Int} {ts : List Nat} {a : Alarm} (h : a.raised = true) (hlow : 2 ≤ a.low)
    (hts : ∀ t ∈ ts, signed 16 t ≤ (thr - 5) * 128) : (alarmTemp thr ts a).raised = false := by
  unfold alarmTemp
  dsimp only
  rw [if_pos h, if_pos (List.all_eq_true.2 fun t ht => decide_eq_true (hts t ht))]
  exact decide_eq_false (by omega)

theorem alarmSupply_rises {k : Nat} {a : Alarm} (h : a.raised = false) (hrun : 2 ≤ at_ a.runs 0 0) : (alarmSupply false k a).raised = true := by
  simp only [alarmSupply, h, Bool.false_eq_true, if_false, decide_eq_true_eq]
  omega

theorem alarmSupply_stays {inside : Bool} {k : Nat} {a : Alarm} (h : a.raised = false) (hrun : at_ a.runs 0 0 < 2 ∨ inside = true) :
    (alarmSupply inside k a).raised = false := by
  simp only [alarmSupply, h, Bool.false_eq_true, if_false, decide_eq_false_iff_not]
  rcases hrun with hrun | hin
  · split <;> omega
  · rw [if_pos hin]
    decide

theorem alarmSupply_falls {k : Nat} {a : Alarm} (h : a.raised = true) (hlow : 2 ≤ a.low) : (alarmSupply true k a).raised = false := by
  simp only [alarmSupply, h, if_true, decide_eq_false_iff_not]
  omega

/-! ### What an alarm's move keeps (R502) -/

/-- The management subsystem without its log queue and its supply alarms. -/
def quietMgt (m : Mgmt) : Mgmt := { m with queue := [], lost := 0, supply := [] }

/-- A change that keeps the readings and the temperature alarms, and lets no alarm's bit fall. -/
structure AlarmsKept (d e : Dev) : Prop where
  mgt : quietMgt e.mgt = quietMgt d.mgt
  stat : ∀ n, d.flag Reg.MGT_ALARM_STAT n = true → e.flag Reg.MGT_ALARM_STAT n = true
  fault : ∀ n, d.flag Reg.MGT_FAULT n = true → e.flag Reg.MGT_FAULT n = true

namespace AlarmsKept

variable {d e f : Dev}

theorem refl (d : Dev) : AlarmsKept d d := ⟨rfl, fun _ => id, fun _ => id⟩

theorem trans (h : AlarmsKept d e) (k : AlarmsKept e f) : AlarmsKept d f :=
  ⟨k.mgt.trans h.mgt, fun n hn => k.stat n (h.stat n hn), fun n hn => k.fault n (h.fault n hn)⟩

end AlarmsKept

theorem flag_kept {d e : Dev} {a n : Nat} (h : e.reg a = d.reg a) (hn : d.flag a n = true) : e.flag a n = true := by
  rwa [Dev.flag, h]

theorem logEv_alarms (source code sev : Nat) (data : List Nat) (d : Dev) : AlarmsKept d (d.logEv source code sev data) := by
  refine ⟨?_, fun n => flag_kept (Dev.reg_logEv_ne _ _ _ _ _ _ (by decide)), fun n => flag_kept (Dev.reg_logEv_ne _ _ _ _ _ _ (by decide))⟩
  unfold Dev.logEv
  dsimp only
  split <;> rfl

theorem logEv_supply (source code sev : Nat) (data : List Nat) (d : Dev) : (d.logEv source code sev data).mgt.supply = d.mgt.supply := by
  unfold Dev.logEv
  dsimp only
  split <;> rfl

theorem setIrq_alarms (dom n : Nat) (d : Dev) : AlarmsKept d (d.setIrq dom Reg.MGT_IRQ_STAT n) :=
  ⟨by rw [Dev.mgt_setIrq], fun m => flag_kept (Dev.reg_setIrq_ne _ _ _ _ _ (by decide)),
    fun m => flag_kept (Dev.reg_setIrq_ne _ _ _ _ _ (by decide))⟩

theorem setFault_alarms {n : Nat} (hn : n < 32) (d : Dev) : AlarmsKept d (d.setFault n) := by
  have hput : AlarmsKept d (d.putFlag Reg.MGT_FAULT n true) :=
    ⟨rfl, fun m => flag_kept (Dev.reg_putFlag_ne _ _ _ _ _ (by decide)), fun m hm => Dev.flag_putFlag_set hn hm⟩
  exact hput.trans (setIrq_alarms _ _ _)

/-- The bit of MGT_ALARM_STAT that an alarm's move sets. -/
def alarmMarked (b : Nat) (d : Dev) : Dev := (d.putFlag Reg.MGT_ALARM_STAT b true).mgtIrq 3

theorem alarmMarked_alarms {b : Nat} (hb : b < 32) (d : Dev) : AlarmsKept d (alarmMarked b d) := by
  have hput : AlarmsKept d (d.putFlag Reg.MGT_ALARM_STAT b true) :=
    ⟨rfl, fun m hm => Dev.flag_putFlag_set hb hm, fun m => flag_kept (Dev.reg_putFlag_ne _ _ _ _ _ (by decide))⟩
  exact hput.trans (setIrq_alarms _ _ _)

theorem alarmMarked_flag {b : Nat} (hb : b < 32) (d : Dev) : (alarmMarked b d).flag Reg.MGT_ALARM_STAT b = true :=
  (setIrq_alarms _ _ _).stat b (Dev.flag_putFlag_same _ _ _ _ hb)

/-- An alarm's move: its bit of MGT_ALARM_STAT, and for a rise what the rise brings. -/
structure AlarmMoved (b n : Nat) (faulty : Bool) (old new : Alarm) (d e : Dev) : Prop where
  kept : AlarmsKept d e
  supply : e.mgt.supply = d.mgt.supply
  stat : old.raised ≠ new.raised → e.flag Reg.MGT_ALARM_STAT b = true
  fault : faulty = true → old.raised ≠ new.raised → new.raised = true → e.flag Reg.MGT_FAULT n = true

theorem alarmMoved_spec {b n : Nat} (hb : b < 32) {faulty : Bool} {rise : Dev → Dev} (old new : Alarm) (d : Dev)
    (hkept : ∀ d, AlarmsKept d (rise d)) (hsupply : ∀ d, (rise d).mgt.supply = d.mgt.supply)
    (hfault : faulty = true → ∀ d, (rise d).flag Reg.MGT_FAULT n = true) : AlarmMoved b n faulty old new d (alarmMoved b rise old new d) := by
  have hmarked : (alarmMarked b d).mgt.supply = d.mgt.supply := by simp [alarmMarked, Dev.mgtIrq]
  by_cases hsame : old.raised = new.raised
  · rw [alarmMoved, if_pos hsame]
    exact ⟨.refl d, rfl, fun h => absurd hsame h, fun _ h => absurd hsame h⟩
  · have heq : alarmMoved b rise old new d =
        if new.raised then rise (alarmMarked b d) else (alarmMarked b d).logEv 0x0A 0x04 0 [b + 1, old.who] := by
      rw [alarmMoved, if_neg hsame]
      rfl
    rw [heq]
    split
    next hnew =>
      exact ⟨(alarmMarked_alarms hb d).trans (hkept _), (hsupply _).trans hmarked, fun _ => (hkept _).stat b (alarmMarked_flag hb d),
        fun hf _ _ => hfault hf _⟩
    next hnew =>
      exact ⟨(alarmMarked_alarms hb d).trans (logEv_alarms ..), (logEv_supply ..).trans hmarked,
        fun _ => (logEv_alarms ..).stat b (alarmMarked_flag hb d), fun _ _ h => absurd h hnew⟩

/-! ### The temperature alarms (R501, R502) -/

theorem tempRose_alarms (crit : Bool) (who : Nat) (d : Dev) : AlarmsKept d (tempRose crit who d) := by
  unfold tempRose
  dsimp only
  cases crit with
  | false => exact logEv_alarms ..
  | true => exact (logEv_alarms ..).trans (setFault_alarms (by decide) _)

theorem setFault_supply (d : Dev) (n : Nat) : (d.setFault n).mgt.supply = d.mgt.supply := by simp [Dev.setFault]

theorem tempRose_supply (crit : Bool) (who : Nat) (d : Dev) : (tempRose crit who d).mgt.supply = d.mgt.supply := by
  unfold tempRose
  dsimp only
  cases crit with
  | false => exact logEv_supply ..
  | true => exact (setFault_supply _ _).trans (logEv_supply ..)

theorem tempMoved_spec {b : Nat} (hb : b < 32) (crit : Bool) (who : Nat) (old new : Alarm) (d : Dev) :
    AlarmMoved b 6 crit old new d (alarmMoved b (tempRose crit who) old new d) :=
  alarmMoved_spec hb old new d (tempRose_alarms crit who) (tempRose_supply crit who) (by rintro rfl d; exact setFault_flag _ (by decide))

/-! ### The supply alarms (R501, R502) -/

/-- The alarm of supply monitor k. -/
def Dev.supplyAlarm (d : Dev) (k : Nat) : Alarm := at_ d.mgt.supply k (Alarm.reset 1)

/-- The alarm of supply monitor k as the readings make it. -/
def supplyNew (k : Nat) (d : Dev) : Alarm :=
  alarmSupply (supplyInside (d.mgt.ioHigh.getD false) k (at_ d.mgt.supplies k 0)) k (d.supplyAlarm k)

theorem supplyRose_alarms (k : Nat) (d : Dev) : AlarmsKept d (supplyRose k d) := by
  exact (logEv_alarms ..).trans (setFault_alarms (by decide) _)

theorem supplyRose_supply (k : Nat) (d : Dev) : (supplyRose k d).mgt.supply = d.mgt.supply := by
  exact (setFault_supply _ _).trans (logEv_supply ..)

/-- Supply monitor k's alarm stored. -/
def supplyStored (k : Nat) (d : Dev) : Dev := { d with mgt := { d.mgt with supply := upd d.mgt.supply k (fun _ => supplyNew k d) } }

theorem supplyCheck_moved (k : Nat) (d : Dev) :
    AlarmMoved 2 7 true (d.supplyAlarm k) (supplyNew k d) (supplyStored k d) (supplyCheck k d) :=
  alarmMoved_spec (by decide) _ _ _ (supplyRose_alarms k) (supplyRose_supply k) (fun _ d => setFault_flag _ (by decide))

theorem supplyCheck_alarms (k : Nat) (d : Dev) : AlarmsKept d (supplyCheck k d) :=
  AlarmsKept.trans (e := supplyStored k d) ⟨rfl, fun _ => id, fun _ => id⟩ (supplyCheck_moved k d).kept

/-- One supply alarm is kept, and the count of them. -/
structure SupplyKept (k : Nat) (d e : Dev) : Prop where
  alarms : AlarmsKept d e
  entry : e.supplyAlarm k = d.supplyAlarm k
  count : e.mgt.supply.length = d.mgt.supply.length

theorem SupplyKept.refl (k : Nat) (d : Dev) : SupplyKept k d d := ⟨.refl d, rfl, rfl⟩

theorem SupplyKept.trans {k : Nat} {d e f : Dev} (h : SupplyKept k d e) (g : SupplyKept k e f) : SupplyKept k d f :=
  ⟨h.alarms.trans g.alarms, g.entry.trans h.entry, g.count.trans h.count⟩

theorem SupplyKept.fresh {k : Nat} {d e : Dev} (h : SupplyKept k d e) : supplyNew k e = supplyNew k d := by
  rw [supplyNew, supplyNew, h.entry, show e.mgt.ioHigh = d.mgt.ioHigh from congrArg (·.ioHigh) h.alarms.mgt,
    show e.mgt.supplies = d.mgt.supplies from congrArg (·.supplies) h.alarms.mgt]

theorem supplyCheck_other {j k : Nat} (h : j ≠ k) (d : Dev) : SupplyKept k d (supplyCheck j d) := by
  refine ⟨supplyCheck_alarms j d, ?_, ?_⟩
  · rw [Dev.supplyAlarm, (supplyCheck_moved j d).supply]
    exact at_upd_ne _ _ _ h.symm
  · rw [(supplyCheck_moved j d).supply]
    simp [supplyStored, upd]

/-- The alarm of monitor k once all six are checked. -/
structure SupplyChecked (k : Nat) (d e : Dev) : Prop where
  entry : e.supplyAlarm k = supplyNew k d
  stat : (d.supplyAlarm k).raised ≠ (supplyNew k d).raised → e.flag Reg.MGT_ALARM_STAT 2 = true
  fault : (d.supplyAlarm k).raised ≠ (supplyNew k d).raised → (supplyNew k d).raised = true → e.flag Reg.MGT_FAULT 7 = true

theorem supplyChecks_spec {k : Nat} {d : Dev} (hk : k < 6) (hlen : d.mgt.supply.length = 6) :
    SupplyChecked k d (forUpTo 6 supplyCheck d) := by
  obtain ⟨e, hbefore, hafter⟩ := forEach_split (R := SupplyKept k) (.refl k) .trans List.nodup_range (List.mem_range.2 hk) supplyCheck
    (fun _ hj u => supplyCheck_other hj u) d
  have hmoved := supplyCheck_moved k e
  have hstored : (supplyCheck k e).supplyAlarm k = supplyNew k e := by
    rw [Dev.supplyAlarm, hmoved.supply]
    exact (at_upd _ _ _ _ _ (by rw [hbefore.count, hlen]; exact hk)).trans (if_pos rfl)
  have hold := hbefore.entry
  rw [hbefore.fresh] at hstored hmoved
  rw [hold] at hmoved
  exact ⟨hafter.entry.trans hstored, fun h => hafter.alarms.stat 2 (hmoved.stat h), fun h hnew => hafter.alarms.fault 7 (hmoved.fault rfl h hnew)⟩

theorem supplyChecks_alarms (n : Nat) (d : Dev) : AlarmsKept d (forUpTo n supplyCheck d) := by
  induction n with
  | zero => exact .refl d
  | succ n ih =>
    rw [forUpTo_succ]
    exact ih.trans (supplyCheck_alarms n _)

/-! ### A measurement (R500) -/

/-- The warning alarm as the readings make it. -/
def warnNew (ts : List Word) (d : Dev) : Alarm :=
  alarmTemp (signed 9 (d.fld Reg.MGT_ALARM_CFG 8 0)) ((List.range 17).map (fun k => (at_ ts k 0).toNat % 65536)) d.mgt.twarn

/-- The critical alarm as the readings make it. -/
def critNew (ts : List Word) (d : Dev) : Alarm :=
  alarmTemp (signed 9 (d.fld Reg.MGT_ALARM_CFG 24 16)) ((List.range 17).map (fun k => (at_ ts k 0).toNat % 65536)) d.mgt.tcrit

/-- The readings with both temperature alarms stored. -/
def tempStored (ts ms : List Word) (d : Dev) : Dev :=
  { takeReadings ts ms d with mgt := { (takeReadings ts ms d).mgt with twarn := warnNew ts d, tcrit := critNew ts d } }

/-- Both temperature alarms moved. -/
def tempMoved (ts ms : List Word) (d : Dev) : Dev :=
  alarmMoved 1 (tempRose true (critNew ts d).who) d.mgt.tcrit (critNew ts d)
    (alarmMoved 0 (tempRose false (warnNew ts d).who) d.mgt.twarn (warnNew ts d) (tempStored ts ms d))

theorem sensorMeasurementDev_eq (ts ms : List Word) (d : Dev) :
    sensorMeasurementDev ts ms d = biasUpdate (forUpTo 6 supplyCheck (tempMoved ts ms d)) := rfl

/-- What a measurement leaves: its readings, the temperature alarms with their bits, and every supply alarm. -/
structure Measured (ts ms : List Word) (d e : Dev) : Prop where
  quiet : quietMgt e.mgt = quietMgt (tempStored ts ms d).mgt
  warn : d.mgt.twarn.raised ≠ (warnNew ts d).raised → e.flag Reg.MGT_ALARM_STAT 0 = true
  crit : d.mgt.tcrit.raised ≠ (critNew ts d).raised → e.flag Reg.MGT_ALARM_STAT 1 = true
  fault : d.mgt.tcrit.raised ≠ (critNew ts d).raised → (critNew ts d).raised = true → e.flag Reg.MGT_FAULT 6 = true
  supply : d.mgt.supply.length = 6 → ∀ k, k < 6 → SupplyChecked k (tempStored ts ms d) e

theorem biasUpdate_flag (d : Dev) (a n : Nat) : (biasUpdate d).flag a n = d.flag a n :=
  RegsOnly.flag (l := []) (.of_regs (by simp)) (by simp) n

theorem sensorMeasurementDev_measured (ts ms : List Word) (d : Dev) : Measured ts ms d (sensorMeasurementDev ts ms d) := by
  have hwarn := tempMoved_spec (b := 0) (by decide) false (warnNew ts d).who d.mgt.twarn (warnNew ts d) (tempStored ts ms d)
  have hcrit := tempMoved_spec (b := 1) (by decide) true (critNew ts d).who d.mgt.tcrit (critNew ts d)
    (alarmMoved 0 (tempRose false (warnNew ts d).who) d.mgt.twarn (warnNew ts d) (tempStored ts ms d))
  have hchecks := supplyChecks_alarms 6 (tempMoved ts ms d)
  have hsupply : (tempMoved ts ms d).mgt.supply = (tempStored ts ms d).mgt.supply := hcrit.supply.trans hwarn.supply
  have hmoved : AlarmsKept (tempStored ts ms d) (tempMoved ts ms d) := hwarn.kept.trans hcrit.kept
  rw [sensorMeasurementDev_eq]
  refine ⟨?_, fun h => ?_, fun h => ?_, fun h hnew => ?_, fun hlen k hk => ?_⟩
  · rw [show (biasUpdate (forUpTo 6 supplyCheck (tempMoved ts ms d))).mgt = (forUpTo 6 supplyCheck (tempMoved ts ms d)).mgt from
      (biasUpdate_keeps _).2.2.2.2.2.2.2.1]
    exact hchecks.mgt.trans hmoved.mgt
  · rw [biasUpdate_flag]
    exact hchecks.stat 0 (hcrit.kept.stat 0 (hwarn.stat h))
  · rw [biasUpdate_flag]
    exact hchecks.stat 1 (hcrit.stat h)
  · rw [biasUpdate_flag]
    exact hchecks.fault 6 (hcrit.fault rfl h hnew)
  · have hchecked := supplyChecks_spec (d := tempMoved ts ms d) hk (by rw [hsupply]; exact hlen)
    have hkept : SupplyKept k (tempStored ts ms d) (tempMoved ts ms d) :=
      ⟨hmoved, by rw [Dev.supplyAlarm, hsupply, Dev.supplyAlarm], by rw [hsupply]⟩
    obtain ⟨hentry, hstat, hfault⟩ := hchecked
    rw [hkept.fresh] at hentry hstat hfault
    rw [hkept.entry] at hstat hfault
    refine ⟨?_, fun h => (biasUpdate_flag ..).trans (hstat h), fun h hnew => (biasUpdate_flag ..).trans (hfault h hnew)⟩
    rw [Dev.supplyAlarm, show (biasUpdate (forUpTo 6 supplyCheck (tempMoved ts ms d))).mgt = (forUpTo 6 supplyCheck (tempMoved ts ms d)).mgt from
      (biasUpdate_keeps _).2.2.2.2.2.2.2.1]
    exact hentry

end Sys2Proof.Machine
end

section
/-! PROOF. MGT_FAULT cleared, and the statement on sensors (R500 to R502, R519, R525). -/

namespace Sys2Proof.Machine

open Sys2Proof

/-! ### MGT_FAULT written (R525) -/

/-- Bit n of MGT_FAULT written. -/
def clearFault (v : Word) (n : Nat) (d : Dev) : Dev :=
  if v.getLsbD n && faultClearable d n then d.putFlag Reg.MGT_FAULT n false else d

theorem clearFault_alone (v : Word) (n : Nat) (d : Dev) : clearFault v n d = { d with regs := (clearFault v n d).regs } := by
  unfold clearFault
  split <;> rfl

theorem clearFault_regs (v : Word) (n : Nat) (d : Dev) : RegsOnly [Reg.MGT_FAULT] d (clearFault v n d) :=
  .ite (.putFlag d n false (by simp)) (.refl _ d)

theorem clearFault_clearable (v : Word) (n m : Nat) (d : Dev) : faultClearable (clearFault v n d) m = faultClearable d m := by
  rw [clearFault_alone]
  rfl

theorem clearFault_same {v : Word} {n : Nat} {d : Dev} (hn : n < 32) : (clearFault v n d).flag Reg.MGT_FAULT n =
    (if v.getLsbD n = true ∧ faultClearable d n = true then false else d.flag Reg.MGT_FAULT n) := by
  unfold clearFault
  by_cases h : v.getLsbD n = true ∧ faultClearable d n = true
  · rw [if_pos (by simpa using h), if_pos h, Dev.flag_putFlag_same _ _ _ _ hn]
  · rw [if_neg (by simpa using h), if_neg h]

theorem clearFault_other {v : Word} {n m : Nat} {d : Dev} (hn : n < 32) (h : m ≠ n) :
    (clearFault v n d).flag Reg.MGT_FAULT m = d.flag Reg.MGT_FAULT m := by
  unfold clearFault
  split
  · exact Dev.flag_putFlag_other _ _ _ _ _ _ hn (.inr h)
  · rfl

/-- Several bits of MGT_FAULT written. -/
structure FaultsCleared (v : Word) (l : List Nat) (d e : Dev) : Prop where
  alone : ∃ r, e = { d with regs := r }
  regs : RegsOnly [Reg.MGT_FAULT] d e
  listed : ∀ n, n ∈ l → e.flag Reg.MGT_FAULT n = if v.getLsbD n = true ∧ faultClearable d n = true then false else d.flag Reg.MGT_FAULT n
  others : ∀ n, n ∉ l → e.flag Reg.MGT_FAULT n = d.flag Reg.MGT_FAULT n

theorem clearFaults_spec (v : Word) {l : List Nat} (hl : ∀ n ∈ l, n < 32) (hnodup : l.Nodup) (d : Dev) :
    FaultsCleared v l d (forEach l (clearFault v) d) := by
  induction l generalizing d with
  | nil => exact ⟨⟨_, rfl⟩, .refl _ d, nofun, fun _ _ => rfl⟩
  | cons m l ih =>
    have hm := hl m List.mem_cons_self
    obtain ⟨hnot, hrest⟩ := List.nodup_cons.1 hnodup
    obtain ⟨halone, hregs, hlisted, hothers⟩ := ih (fun n hn => hl n (List.mem_cons_of_mem m hn)) hrest (clearFault v m d)
    refine ⟨?_, (clearFault_regs v m d).trans hregs, fun n hn => ?_, fun n hn => ?_⟩
    · obtain ⟨r, hr⟩ := halone
      exact ⟨r, hr.trans (by rw [clearFault_alone])⟩
    · by_cases he : n = m
      · subst he
        exact (hothers n hnot).trans (clearFault_same hm)
      · have hn' := (List.mem_cons.1 hn).resolve_left he
        rw [show (forEach (m :: l) (clearFault v) d) = forEach l (clearFault v) (clearFault v m d) from rfl, hlisted n hn',
          clearFault_clearable, clearFault_other hm he]
    · obtain ⟨he, hn'⟩ := not_or.mp (List.mem_cons.not.mp hn)
      exact (hothers n hn').trans (clearFault_other hm he)

theorem mgtFaultClearDev_eq (v : Word) (d : Dev) : mgtFaultClearDev v d = forEach [0, 4, 5, 6, 7] (clearFault v) d := rfl

/-! ### The statement -/

theorem tempStored_temps {ts ms : List Word} {d : Dev} {k : Nat} (hk : k < 17) :
    at_ (tempStored ts ms d).mgt.temps k 0 = (at_ ts k 0).toNat % 65536 := at_map_range (fun k => (at_ ts k 0).toNat % 65536) 0 hk

theorem tempStored_supplies {ts ms : List Word} {d : Dev} {k : Nat} (hk : k < 6) :
    at_ (tempStored ts ms d).mgt.supplies k 0 = (at_ ms k 0).toNat % 65536 := at_map_range (fun k => (at_ ms k 0).toNat % 65536) 0 hk

theorem tempReading_at {ts : List Word} {k : Nat} (hk : k < 17) :
    at_ ((List.range 17).map (fun k => (at_ ts k 0).toNat % 65536)) k 0 = (at_ ts k 0).toNat % 65536 := at_map_range _ _ hk

theorem tempStored_ioHigh (ts ms : List Word) (d : Dev) :
    (tempStored ts ms d).mgt.ioHigh = some (d.mgt.ioHigh.getD (decide (2500 ≤ (at_ ms 5 0).toNat % 65536))) := by
  rw [← tempStored_supplies (ts := ts) (ms := ms) (d := d) (show 5 < 6 by decide)]
  rw [show (tempStored ts ms d).mgt.ioHigh = match d.mgt.ioHigh with
    | some h => some h
    | none => some (decide (2500 ≤ at_ (tempStored ts ms d).mgt.supplies 5 0)) from rfl]
  cases d.mgt.ioHigh <;> rfl

/-- Is monitor k's reading inside its window? -/
def readingInside (ms : List Word) (d : Dev) (k : Nat) : Bool :=
  supplyInside (d.mgt.ioHigh.getD (decide (2500 ≤ (at_ ms 5 0).toNat % 65536))) k ((at_ ms k 0).toNat % 65536)

theorem supplyNew_stored (ts ms : List Word) (d : Dev) {k : Nat} (hk : k < 6) :
    supplyNew k (tempStored ts ms d) = alarmSupply (readingInside ms d k) k (d.supplyAlarm k) := by
  rw [supplyNew, tempStored_ioHigh, tempStored_supplies hk]
  rfl

/-- A reading is outside its window exactly when it is below it or above it. -/
theorem readingInside_false {ms : List Word} {d : Dev} {k : Nat} : readingInside ms d k = false ↔
    (at_ ms k 0).toNat % 65536 < (at_ [(700, 920), (760, 840), (1710, 1890), (3135, 3465), (1045, 1155),
      if d.mgt.ioHigh.getD (decide (2500 ≤ (at_ ms 5 0).toNat % 65536)) then (3135, 3465) else (1710, 1890)] k (0, 0)).1 ∨
    (at_ [(700, 920), (760, 840), (1710, 1890), (3135, 3465), (1045, 1155),
      if d.mgt.ioHigh.getD (decide (2500 ≤ (at_ ms 5 0).toNat % 65536)) then (3135, 3465) else (1710, 1890)] k (0, 0)).2 <
        (at_ ms k 0).toNat % 65536 := by
  unfold readingInside supplyInside
  rw [Bool.and_eq_false_iff, decide_eq_false_iff_not, decide_eq_false_iff_not, not_le, not_le]

/-- Settles O49: each alarm's rise, stay and fall is said once, and a measurement checks them in turn. -/
theorem sensorsRaiseAlarms : Obligations.SensorsRaiseAlarms := by
  unfold Obligations.SensorsRaiseAlarms
  refine ⟨fun s ts ms h => if_pos h, fun s ts ms h hlen => ?_, fun s v hturn => ?_⟩
  · have hexec : exec (.sensorMeasurement ts ms) s = devNext s (sensorMeasurementDev ts ms) := if_neg (by simp [h])
    refine (yields_devNext _ hexec).2 ?_
    obtain ⟨hquiet, hwarn, hcrit, hfault, hsupply⟩ := sensorMeasurementDev_measured ts ms s.dev
    have hkept : (sensorMeasurementDev ts ms s.dev).mem = s.dev.mem ∧ (sensorMeasurementDev ts ms s.dev).par = s.dev.par ∧
        (sensorMeasurementDev ts ms s.dev).frame = s.dev.frame ∧ (sensorMeasurementDev ts ms s.dev).outs = s.dev.outs := by simp
    generalize sensorMeasurementDev ts ms s.dev = e at *
    obtain ⟨hmem, hpar, hframe, houts⟩ := hkept
    refine ⟨fun k hk => ?_, fun k hk => ?_, congrArg (·.tempSeen) hquiet, hmem, hpar, hframe, houts, fun k hk => ⟨?_, ?_, ?_⟩, ?_, ?_, ?_, ?_, ?_⟩
    · rw [show e.mgt.temps = _ from congrArg (·.temps) hquiet]
      exact tempStored_temps (ts := ts) (ms := ms) (d := s.dev) hk
    · rw [show e.mgt.supplies = _ from congrArg (·.supplies) hquiet]
      exact tempStored_supplies (ts := ts) (ms := ms) (d := s.dev) hk
    · obtain ⟨hentry, hstat, hfault7⟩ := hsupply hlen k hk
      rw [supplyNew_stored ts ms s.dev hk] at hentry hstat hfault7
      intro hidle hout hrun
      have hrise : (alarmSupply (readingInside ms s.dev k) k (s.dev.supplyAlarm k)).raised = true := by
        rw [readingInside_false.2 hout]
        exact alarmSupply_rises hidle hrun
      have hmoved : (s.dev.supplyAlarm k).raised ≠ (alarmSupply (readingInside ms s.dev k) k (s.dev.supplyAlarm k)).raised := by
        rw [hrise]
        exact ne_true_of_eq_false hidle
      exact ⟨(congrArg Alarm.raised hentry).trans hrise, hstat hmoved, hfault7 hmoved hrise⟩
    · obtain ⟨hentry, -, -⟩ := hsupply hlen k hk
      rw [supplyNew_stored ts ms s.dev hk] at hentry
      intro hidle hin
      refine (congrArg Alarm.raised hentry).trans (alarmSupply_stays hidle (hin.imp_right fun hin => ?_))
      exact Bool.eq_true_of_not_eq_false fun hf => hin (readingInside_false.1 hf)
    · obtain ⟨hentry, hstat, -⟩ := hsupply hlen k hk
      rw [supplyNew_stored ts ms s.dev hk] at hentry hstat
      intro hup hin hlow
      have hfall : (alarmSupply (readingInside ms s.dev k) k (s.dev.supplyAlarm k)).raised = false := by
        rw [Bool.eq_true_of_not_eq_false fun hf => hin (readingInside_false.1 hf)]
        exact alarmSupply_falls hup hlow
      refine ⟨(congrArg Alarm.raised hentry).trans hfall, hstat ?_⟩
      rw [hfall]
      exact ne_false_of_eq_true hup
    · exact fun n hn hf he => faultLow_of_flag (.inr (by rcases List.mem_cons.1 hn with rfl | hn; decide; rw [List.mem_singleton.1 hn]; decide)) hf he
    · intro k hk hidle hover hrun
      have hrise : (warnNew ts s.dev).raised = true := alarmTemp_rises hidle hk (by rw [tempReading_at hk]; exact hover) hrun
      exact ⟨(congrArg (·.twarn.raised) hquiet).trans hrise, hwarn (by rw [hrise]; exact ne_true_of_eq_false hidle)⟩
    · intro hidle hall
      refine (congrArg (·.twarn.raised) hquiet).trans (alarmTemp_stays hidle fun k hk => ?_)
      rw [tempReading_at hk]
      exact hall k hk
    · intro hup hlow hall
      have hfall : (warnNew ts s.dev).raised = false := by
        refine alarmTemp_falls hup hlow fun t ht => ?_
        obtain ⟨k, hk, rfl⟩ := List.mem_map.1 ht
        exact hall k (List.mem_range.1 hk)
      exact ⟨(congrArg (·.twarn.raised) hquiet).trans hfall, hwarn (by rw [hfall]; exact ne_false_of_eq_true hup)⟩
    · intro k hk hidle hover hrun
      have hrise : (critNew ts s.dev).raised = true := alarmTemp_rises hidle hk (by rw [tempReading_at hk]; exact hover) hrun
      have hmoved : s.dev.mgt.tcrit.raised ≠ (critNew ts s.dev).raised := by
        rw [hrise]
        exact ne_true_of_eq_false hidle
      exact ⟨(congrArg (·.tcrit.raised) hquiet).trans hrise, hcrit hmoved, hfault hmoved hrise⟩
  · refine (yields_hostNext (f := mgtFaultClearDev v) _ rfl hturn).2 ?_
    obtain ⟨halone, hregs, hlisted, hothers⟩ := clearFaults_spec v (l := [0, 4, 5, 6, 7]) (by decide) (by decide) s.dev
    obtain ⟨r, hr⟩ := halone
    exact ⟨hlisted, fun n _ hn => hothers n hn, hregs, by rw [mgtFaultClearDev_eq, hr]⟩

end Sys2Proof.Machine
end

section
/-! PROOF. The statement on update sessions fails: it asks UPD_DRAM to leave its rejection in mover channel 2 of every state, also of one
whose list of channels does not reach that channel, and there no write of the channel has an effect. -/

namespace Sys2Proof.Machine

open Sys2Proof

/-- UPD_DRAM's parameters: 64 bytes of wave DRAM from its start, to image offset 1. -/
def dramParams : List Byte := leBytes 4 1 ++ leBytes 4 0 ++ leBytes 4 64

/-- A session of the mailbox that has received one byte of 65, so that the next byte's flash address is not a word's. -/
def oddSession : Session := { path := 0, port := 0, slot := 0, len := 65, got := 1 }

/-- A device with every domain ON and the firmware up, that session open and UPD_DRAM posted, and no mover channel. -/
def moverless : State := ⟨[], Prot.reset, { Dev.reset with
  pwr := { Dev.reset.pwr with doms := Dev.reset.pwr.doms.map (fun x => { x with state := .on, phase := .rest, latched := false }) }
  mgt := { Dev.reset.mgt with
    mode := 2, busy := true, response := none, request := leBytes 1 0x12 ++ leBytes 1 0 ++ leBytes 2 12 ++ dramParams
    session := some oddSession }
  mem := { Dev.reset.mem with movers := [] } }⟩

theorem moverless_posted : mailboxOpen moverless.dev = true ∧ moverless.dev.mgt.busy = true ∧ moverless.dev.mgt.response = none ∧
    moverless.dev.mgt.request = leBytes 1 0x12 ++ leBytes 1 0 ++ leBytes 2 dramParams.length ++ dramParams ∧ dramParams.length ≤ 60 ∧
    (0 : Nat) < 256 ∧ moverless.dev.stage ≠ Stage.romWait ∧ moverless.dev.nvReach = true := by
  decide

/-- The channel's rejection: the destination is not a word's (R437). -/
theorem moverless_reason : moverReason moverless.dev 2 { Mover.reset with
    state := .busy, src := 0, dst := moverless.dev.boot.base oddSession.slot + oddSession.got, srcSpace := 0, dstSpace := 7, length := 64 } = 3 := by
  decide

theorem moverless_answered : exec (.updDram true) moverless = .next (mailboxRow 0x12 (updDramCmd (Caller.mail true)) moverless) := rfl

/-- The model's run of the command: no channel has come into being. -/
theorem moverless_movers : (mailboxRow 0x12 (updDramCmd (Caller.mail true)) moverless).dev.mem.movers = [] := by
  decide

/-- Refutes O52: with no mover channel 2 in the state, UPD_DRAM's rejection shows in none. -/
theorem not_updateSessionsRunAndEnd : ¬ Obligations.UpdateSessionsRunAndEnd := by
  unfold Obligations.UpdateSessionsRunAndEnd
  rintro ⟨-, -, hdram, -⟩
  obtain ⟨-, htransfer⟩ := hdram moverless 0 1 0 64 64 oddSession true (by decide) (by decide) (by decide) rfl moverless_posted (by decide) rfl
    ⟨rfl, rfl⟩
  obtain ⟨-, -, hrejected, -⟩ := htransfer (by decide) (by decide) (by decide) (by decide) (by decide)
  obtain ⟨d, hexec, -, hstate, -⟩ := hrejected (by decide) (by decide) rfl (by decide) (ne_of_eq_of_ne moverless_reason (by decide))
  rw [moverless_answered] at hexec
  have hmovers : d.mem.movers = [] := (congrArg (fun s : State => s.dev.mem.movers) (Host.Outcome.next.inj hexec)).symm.trans moverless_movers
  rw [Dev.mover, hmovers] at hstate
  exact absurd hstate (by decide)

end Sys2Proof.Machine
end

section
/-! PROOF. The test access port: its instructions' resets and scans, and the statement on it (R570, R571). -/

namespace Sys2Proof.Machine

open Sys2Proof

/-! ### What a load leaves (R571) -/

/-- The state with an instruction in the register. -/
def withInstr (j : Nat) (s : State) : State := { s with prot := { s.prot with jtag := j } }

theorem jtagLoad_reset {op : Nat} {s : State} (h : jtagHolds (tapInstr op) = true ∨ s.held = true) :
    jtagLoad op s = resetState .pin (withInstr (tapInstr op) s) :=
  if_pos (Bool.or_eq_true_iff.2 h)

theorem jtagLoad_free {op : Nat} {s : State} (h : jtagHolds (tapInstr op) = false) (hs : s.held = false) :
    jtagLoad op s = withInstr (tapInstr op) s :=
  if_neg (by simp [h, hs])

/-- A device that has begun its reset under an instruction, with PIN set. -/
def BegunUnder (t : State) (j : Nat) : Prop := t.prot.jtag = j ∧ t.dev.stage = 0 ∧ t.dev.pwr = Dev.reset.pwr ∧ t.dev.frame = Dev.reset.frame ∧
  t.dev.outs = Dev.reset.outs ∧ t.dev.alm = Dev.reset.alm ∧ t.dev.flag Reg.GLB_RESET_CAUSE 1 = true

theorem reset_cause_pin (s : State) : (resetState .pin s).dev.flag Reg.GLB_RESET_CAUSE 1 = true := by
  rw [Dev.flag, show (resetState .pin s).dev = resetDev .pin none s.dev from rfl, resetDev_cause .pin none s.dev (by decide), BitVec.getLsbD_or,
    show (BitVec.ofNat 32 (2 ^ Cause.pin.bit)).getLsbD 1 = true by decide, Bool.or_true]

theorem begunUnder_load {op : Nat} {s : State} (h : jtagHolds (tapInstr op) = true ∨ s.held = true) :
    BegunUnder (jtagLoad op s) (tapInstr op) := by
  rw [jtagLoad_reset h]
  obtain ⟨hstage, hpwr, hframe, halm, -, houts, -⟩ := resetState_pin_units (withInstr (tapInstr op) s)
  exact ⟨rfl, hstage, hpwr, hframe, houts, halm, reset_cause_pin _⟩

theorem jtagLoad_instr (op : Nat) (s : State) : (jtagLoad op s).prot.jtag = tapInstr op := by
  unfold jtagLoad
  dsimp only
  split <;> rfl

theorem jtagLoad_pending (op : Nat) (s : State) : (jtagLoad op s).pending = s.pending := by
  unfold jtagLoad
  dsimp only
  split <;> rfl

theorem jtagLoad_latches (op : Nat) (s : State) : (jtagLoad op s).prot.latches = s.prot.latches := by
  unfold jtagLoad
  dsimp only
  split <;> rfl

/-! ### What a scan leaves (R570) -/

theorem tapScan_dev (s : State) : (tapScan s).dev = { s.dev with fresh := s.dev.fresh + 588 } := rfl

theorem tapScan_instr (s : State) : (tapScan s).prot.jtag = s.prot.jtag := by
  unfold tapScan
  dsimp only
  split <;> rfl

theorem begunUnder_scan {s : State} {j : Nat} (h : BegunUnder s j) : BegunUnder (tapScan s) j := by
  obtain ⟨hj, hstage, hpwr, hframe, houts, halm, hcause⟩ := h
  exact ⟨(tapScan_instr s).trans hj, hstage, hpwr, hframe, houts, halm, hcause⟩

/-- A command that resets the device leaves it as its reset begins, whether or not it scans. -/
theorem tapCommand_begun {op : Nat} {s : State} (h : jtagHolds (tapInstr op) = true ∨ s.held = true) :
    BegunUnder (tapCommand op s) (tapInstr op) ∧ (tapCommand op s).pending = s.pending := by
  unfold tapCommand
  split
  · exact ⟨begunUnder_scan (begunUnder_load h), jtagLoad_pending op s⟩
  · exact ⟨begunUnder_load h, jtagLoad_pending op s⟩

theorem begunUnder_held {t : State} {j : Nat} (h : BegunUnder t j) : t.held = jtagHolds j := congrArg jtagHolds h.1

theorem execStrapLatch_held {t : State} (h : t.held = true) (p : BitVec 3) (x : Bool) (b : BitVec 2) : exec (.strapLatch p x b) t = .next t :=
  congrArg Host.Outcome.next (if_neg (by simp [h]))

/-- The test-port commands that hold the device: they reset it, and it does not start. -/
theorem holding_command {op : Nat} {s : State} (h : jtagHolds (tapInstr op) = true) :
    BegunUnder (tapCommand op s) (tapInstr op) ∧ (tapCommand op s).pending = s.pending ∧
      ∀ p x b, exec (.strapLatch p x b) (tapCommand op s) = .next (tapCommand op s) := by
  obtain ⟨hbegun, hpending⟩ := tapCommand_begun (s := s) (.inl h)
  exact ⟨hbegun, hpending, execStrapLatch_held ((begunUnder_held hbegun).trans h)⟩

/-- A command that lets a held device go. -/
theorem freeing_command {op : Nat} {s : State} (h : jtagHolds (tapInstr op) = false) (hs : s.held = true) :
    BegunUnder (tapCommand op s) (tapInstr op) ∧ (tapCommand op s).held = false ∧ (tapCommand op s).pending = s.pending := by
  obtain ⟨hbegun, hpending⟩ := tapCommand_begun (op := op) (.inr hs)
  exact ⟨hbegun, (begunUnder_held hbegun).trans h, hpending⟩

/-! ### SAMPLE/PRELOAD's capture (R570) -/

/-- What the boundary register's scan sends out. -/
def captured (s : State) : List Bool := (List.range 294).map (fun k => captureCell s (293 - k))

theorem captured_at {s : State} {k : Nat} (hk : k < 294) (x : Bool) : (captured s).getD (293 - k) x = captureCell s k := by
  have hsub : 293 - (293 - k) = k := by omega
  simp [captured, List.getD_eq_getElem?_getD, hsub, show 293 - k < 294 by omega]

theorem testDrive_device {p : Prot} (h : p.jtag = 1) (n : Nat) : testDrive p n = .device := by
  simp [testDrive, h]

/-- With SAMPLE/PRELOAD in the register, a driven pin's three cells capture its level twice and that it drives. -/
theorem captureCell_driven {s : State} {n : Nat} {b : Bool} (hj : s.prot.jtag = 1) (hd : unitDrive s.dev n = some (.level b)) :
    captureCell s (3 * n) = b ∧ captureCell s (3 * n + 1) = b ∧ captureCell s (3 * n + 2) = true := by
  have h0 : 3 * n / 3 = n := by omega
  have h1 : (3 * n + 1) / 3 = n := by omega
  have h2 : (3 * n + 2) / 3 = n := by omega
  refine ⟨?_, ?_, ?_⟩
  · simp [captureCell, h0, testDrive_device hj, hd]
  · simp [captureCell, h1, testDrive_device hj, hd, Nat.add_mod]
  · simp [captureCell, h2, testDrive_device hj, hd, Nat.add_mod]

theorem samplePreload_free {s : State} (hs : s.held = false) : tapCommand 0x01 s = tapScan (withInstr 1 s) := by
  rw [tapCommand, if_pos (.inr rfl), jtagLoad_free rfl hs]
  rfl

theorem boundaryScan_prot {s : State} (h : s.prot.jtag = 1) : (tapScan s).prot = { s.prot with
    cells := (tapScan s).prot.cells, latches := (tapScan s).prot.latches, tdo := captured s } ∧ (tapScan s).prot.latches = (tapScan s).prot.cells := by
  unfold tapScan
  dsimp only
  rw [if_pos (.inr h)]
  exact ⟨rfl, rfl⟩

theorem bypassScan_prot {s : State} (h : s.prot.jtag = 63) :
    (tapScan s).prot = { s.prot with bypass := (tapScan s).prot.bypass, tdo := [false] } := by
  unfold tapScan
  dsimp only
  rw [if_neg (by simp [h])]

/-! ### The statement -/

theorem testDrive_latched {p : Prot} {n : Nat} (hj : p.jtag = 0 ∨ p.jtag = 2) (hk : scanKind n = .output) :
    testDrive p n = if p.latches.getLsbD (3 * n + 2) then .level (p.latches.getLsbD (3 * n + 1)) else .highZ := by
  have h3 : p.jtag ≠ 3 := by omega
  unfold testDrive
  dsimp only
  rw [if_neg (by rw [hk]; decide), if_neg h3, if_pos hj, hk]
  cases p.latches.getLsbD (3 * n + 2) <;> simp

theorem testDrive_highz {p : Prot} {n : Nat} (hj : p.jtag = 3) (hk : scanKind n ≠ .input) : testDrive p n = .highZ := by
  simp [testDrive, hj, hk]

theorem tapCommand_instr (op : Nat) (s : State) : (tapCommand op s).prot.jtag = tapInstr op := by
  unfold tapCommand
  split
  · rw [tapScan_instr, jtagLoad_instr]
  · exact jtagLoad_instr op s

/-- A holding instruction that was not in the register leaves the latches, which then drive the outputs. -/
theorem latching_command {op : Nat} {s : State} (hop : tapInstr op = 0 ∨ tapInstr op = 2) (hne : s.prot.jtag ≠ tapInstr op) :
    (tapCommand op s).prot.latches = s.prot.latches ∧ ∀ n, scanKind n = .output → testDrive (tapCommand op s).prot n =
      if s.prot.latches.getLsbD (3 * n + 2) then .level (s.prot.latches.getLsbD (3 * n + 1)) else .highZ := by
  have hkept : (tapCommand op s).prot.latches = s.prot.latches := by
    rw [tapCommand, if_neg (by omega), jtagLoad_latches]
  refine ⟨hkept, fun n hn => ?_⟩
  rw [testDrive_latched (by rwa [tapCommand_instr]) hn, hkept]

/-- Settles O13: a holding instruction resets, another begins the start again, and each scan is said once. -/
theorem testPortHoldsTheDeviceInReset : Obligations.TestPortHoldsTheDeviceInReset := by
  unfold Obligations.TestPortHoldsTheDeviceInReset
  refine ⟨fun s c j hc => ?_, fun s c j hc hheld => ?_, fun s hfree => ⟨?_, fun hne => ?_, fun heq => ?_⟩, fun s hfree => ?_, fun s c j hc hne => ?_,
    fun s => ⟨tapCommand 0x03 s, rfl, fun n hn => testDrive_highz (tapCommand_instr 0x03 s) hn⟩⟩
  · simp only [List.mem_cons, Prod.mk.injEq, List.not_mem_nil, or_false] at hc
    rcases hc with ⟨rfl, rfl⟩ | ⟨rfl, rfl⟩ | ⟨rfl, rfl⟩
    · exact ⟨tapCommand 0x00 s, rfl, holding_command rfl⟩
    · exact ⟨tapCommand 0x02 s, rfl, holding_command rfl⟩
    · exact ⟨tapCommand 0x03 s, rfl, holding_command rfl⟩
  · simp only [List.mem_cons, Prod.mk.injEq, List.not_mem_nil, or_false] at hc
    rcases hc with ⟨rfl, rfl⟩ | ⟨rfl, rfl⟩ | ⟨rfl, rfl⟩
    · exact ⟨tapCommand 0x01 s, rfl, freeing_command rfl hheld⟩
    · exact ⟨tapCommand 0x3F s, rfl, freeing_command rfl hheld⟩
    · have hbegun : BegunUnder (jtagLoad 0x3F s) 63 := begunUnder_load (.inr hheld)
      exact ⟨jtagLoad 0x3F s, rfl, hbegun, begunUnder_held hbegun, jtagLoad_pending 0x3F s⟩
  · exact congrArg Host.Outcome.next (jtagLoad_free rfl hfree)
  · refine congrArg Host.Outcome.next ((if_neg ?_).trans (jtagLoad_free rfl hfree))
    rintro (h | h)
    · exact hne h
    · exact absurd h (by decide)
  · have hscan : tapCommand 0x3F s = tapScan (withInstr 63 s) := (if_pos (.inl heq)).trans (congrArg tapScan (jtagLoad_free rfl hfree))
    refine ⟨tapCommand 0x3F s, rfl, ?_, by rw [hscan]; rfl, by rw [hscan]; rfl⟩
    rw [hscan, bypassScan_prot (s := withInstr 63 s) rfl, withInstr, ← heq]
  · have hscan := samplePreload_free hfree
    obtain ⟨hprot, hlatches⟩ := boundaryScan_prot (s := withInstr 1 s) rfl
    have htdo : (tapScan (withInstr 1 s)).prot.tdo = captured (withInstr 1 s) := by rw [hprot]
    refine ⟨tapCommand 0x01 s, rfl, ?_⟩
    rw [hscan]
    refine ⟨rfl, rfl, ?_, hlatches, by rw [htdo]; simp [captured], fun n b hn hd => ?_⟩
    · rw [hprot]
      rfl
    · obtain ⟨hlevel, hdriven, hdrives⟩ := captureCell_driven (s := withInstr 1 s) rfl hd
      have hat (k : Nat) (hk : k < 294) (x : Bool) := captured_at (s := withInstr 1 s) hk x
      refine ⟨by rw [htdo, hat _ (by omega), hlevel], ?_, ?_⟩
      · rw [htdo, show 292 - 3 * n = 293 - (3 * n + 1) by omega, hat _ (by omega), hdriven]
      · rw [htdo, show 291 - 3 * n = 293 - (3 * n + 2) by omega, hat _ (by omega), hdrives]
  · simp only [List.mem_cons, Prod.mk.injEq, List.not_mem_nil, or_false] at hc
    rcases hc with ⟨rfl, rfl⟩ | ⟨rfl, rfl⟩
    · exact ⟨tapCommand 0x00 s, rfl, latching_command (.inl rfl) hne⟩
    · exact ⟨tapCommand 0x02 s, rfl, latching_command (.inr rfl) hne⟩

end Sys2Proof.Machine
end
